-- ==== Sys2Proof/Word.lean ====
section
/-! DEFINITION. The word types of the KZ7160, bit fields of a register word, and the sparse map that holds registers,
memories and tables as plain data (R8, R9, R32, R33). -/

namespace Sys2Proof

/-- A 32-bit register word (R33). -/
abbrev Word := BitVec 32

/-- A byte of a memory, of a queue entry or of a packet. -/
abbrev Byte := BitVec 8

/-- A field of a register: the offset of its register in the page, its lowest bit and its width (R9, R11). -/
structure Fld where
  off : Nat
  lo : Nat
  width : Nat
  deriving DecidableEq, Repr

namespace Word

/-- The word whose bits [lo + width − 1 : lo] are ones. -/
def mask (lo width : Nat) : Word := BitVec.ofNat 32 ((2 ^ width - 1) * 2 ^ lo)

/-- The value of bits [lo + width − 1 : lo] of a word. -/
def bits (w : Word) (lo width : Nat) : Nat := w.toNat / 2 ^ lo % 2 ^ width

/-- The word with bits [lo + width − 1 : lo] replaced by the low `width` bits of `v`. -/
def setBits (w : Word) (lo width v : Nat) : Word :=
  (w &&& ~~~ mask lo width) ||| (BitVec.ofNat 32 (v % 2 ^ width * 2 ^ lo) &&& mask lo width)

end Word

/-! ### Sparse maps

A map from Nat keys to values is a list of pairs with rising keys that lists no key whose value is the one an unlisted key
has (`d`). -/

namespace Sparse

variable {α : Type}

/-- The value a key holds; an unlisted key holds `d`. -/
def read (d : Nat → α) : List (Nat × α) → Nat → α
  | [], k => d k
  | (k', v) :: t, k => if k' = k then v else read d t k

/-- The list without a key. -/
def erase : List (Nat × α) → Nat → List (Nat × α)
  | [], _ => []
  | (k', v) :: t, k => if k' = k then erase t k else (k', v) :: erase t k

/-- The list with a pair put before the first larger key. -/
def place (k : Nat) (v : α) : List (Nat × α) → List (Nat × α)
  | [] => [(k, v)]
  | (k', v') :: t => if k < k' then (k, v) :: (k', v') :: t else (k', v') :: place k v t

/-- The map with one key set: the key is unlisted when its new value is the one an unlisted key has. -/
def write [DecidableEq α] (d : Nat → α) (m : List (Nat × α)) (k : Nat) (v : α) : List (Nat × α) :=
  if v = d k then erase m k else place k v (erase m k)

/-- The canonical form: keys strictly rise, and no listed value is the one an unlisted key has. -/
def wf [DecidableEq α] (d : Nat → α) : List (Nat × α) → Bool
  | [] => true
  | [(k, v)] => !(decide (v = d k))
  | (k, v) :: (k', v') :: t => !(decide (v = d k)) && decide (k < k') && wf d ((k', v') :: t)

end Sparse

/-- A table of values of a type, with `default` at every unlisted key. -/
abbrev Tbl (α : Type) := List (Nat × α)

namespace Tbl

variable {α : Type}

/-- The value of a key. -/
def get [Inhabited α] (t : Tbl α) (k : Nat) : α := Sparse.read (fun _ => default) t k

/-- The table with one key set. -/
def put [Inhabited α] [DecidableEq α] (t : Tbl α) (k : Nat) (v : α) : Tbl α := Sparse.write (fun _ => default) t k v

end Tbl

/-- A byte memory: (address, byte) pairs in canonical form; an unlisted byte reads 0. -/
abbrev Bytes := List (Nat × Byte)

namespace Bytes

/-- One byte. -/
def get (m : Bytes) (a : Nat) : Byte := Sparse.read (fun _ => 0) m a

/-- One byte written. -/
def set (m : Bytes) (a : Nat) (b : Byte) : Bytes := Sparse.write (fun _ => 0) m a b

/-- The part of a memory that lists the `n` bytes from an address upwards. -/
def part (m : Bytes) (a n : Nat) : Bytes := m.filter fun e => decide (a ≤ e.1) && decide (e.1 < a + n)

/-- `n` bytes from an address upwards. -/
def getN (m : Bytes) (a n : Nat) : List Byte :=
  let p := m.part a n
  (List.range n).map fun i => get p (a + i)

/-- The pairs that bytes from an address upwards list: all but the zeros. -/
def listed (a : Nat) : List Byte → Bytes
  | [] => []
  | b :: bs => if b = 0 then listed (a + 1) bs else (a, b) :: listed (a + 1) bs

/-- Bytes written from an address upwards. -/
def setN (m : Bytes) (a : Nat) (l : List Byte) : Bytes :=
  (m.filter fun e => decide (e.1 < a)) ++ listed a l ++ m.filter fun e => decide (a + l.length ≤ e.1)

end Bytes

/-! ### Little-endian values (R9) -/

/-- The number a little-endian byte list spells. -/
def leNat : List Byte → Nat
  | [] => 0
  | b :: bs => b.toNat + 256 * leNat bs

/-- The `n` low bytes of a number, least significant first. -/
def leBytes : Nat → Nat → List Byte
  | 0, _ => []
  | n + 1, v => BitVec.ofNat 8 v :: leBytes n (v / 256)

/-- The number a big-endian byte list spells. -/
def beNat (l : List Byte) : Nat := l.foldl (fun acc b => acc * 256 + b.toNat) 0

/-- The `n` low bytes of a number, most significant first. -/
def beBytes (n v : Nat) : List Byte := (leBytes n v).reverse

/-- `n` bytes of a list from an index, zero past its end. -/
def slice (l : List Byte) (off n : Nat) : List Byte := (List.range n).map fun i => l.getD (off + i) 0

/-- The little-endian number at an index of a byte list. -/
def leAt (l : List Byte) (off n : Nat) : Nat := leNat (slice l off n)

/-- `n` zero bytes. -/
def zeros (n : Nat) : List Byte := List.replicate n 0

/-- A byte list padded with zeros, or cut, to a length. -/
def padTo (n : Nat) (l : List Byte) : List Byte := (l ++ zeros (n - l.length)).take n

/-- The least multiple of `m` that is not below `n`. -/
def roundUp (n m : Nat) : Nat := (n + m - 1) / m * m

/-- The quotient rounded up. -/
def ceilDiv (a b : Nat) : Nat := (a + b - 1) / b

/-- A count raised by one that stays at its largest value. -/
def satInc (max v : Nat) : Nat := if v < max then v + 1 else max

end Sys2Proof
end

