-- ==== Sys2Proof/Syntax.lean ====
section
/-! DEFINITION. The commands and events of the KZ7160: one constructor per row of the operation table, with the operands
that the outside world gives. Nothing here says what a command does. -/

namespace Sys2Proof

/-- Who issues a register access (R46, R53): physical function 0 or 1, or the firmware. -/
inductive Req where
  | pf0 | pf1 | fw
  deriving DecidableEq, Repr, Inhabited

/-- A physical function (R32). -/
inductive Fn where
  | pf0 | pf1
  deriving DecidableEq, Repr, Inhabited

/-- What the host's memory answers to a command's reads (R283, R286, R291): the bytes of its extent list and the bytes of
its data; none is a transfer error. -/
structure HostData where
  list : Option (List Byte)
  data : Option (List Byte)
  deriving DecidableEq, Repr

/-- What a TRAIN block that arrives on a physical lane carries, and what the receiver measures of it (R96, R98). -/
structure TrainBlk where
  lane : Nat
  inverted : Bool
  laneId : Nat
  port : Nat
  lanes : Nat
  fallback : Bool
  preemph : Bool
  skew : Nat
  deriving DecidableEq, Repr

/-- A packet from PKT to PEND on a logical lane (R91, R94, R107): its line and block offset, the bytes of its data blocks, the
CRC of its PEND, whether every sync header and every block type in it is valid and whether its lane held lock from PKT to PEND. -/
structure Packet where
  lane : Nat
  line : Nat
  off : Nat
  data : List Byte
  crc : Nat
  headersOk : Bool
  lockHeld : Bool
  deriving DecidableEq, Repr

/-- The EOL blocks of a line: LINE, and BLOCKS by logical lane (R109). -/
structure Eol where
  line : Nat
  blocks : List Nat
  deriving DecidableEq, Repr

/-- A lane with the 64 bits in a row from which its checker gains sync (R121). -/
structure SyncedLane where
  lane : Nat
  bits : List Bool
  deriving DecidableEq, Repr

/-- What the bring-up of a media port finds (R318, R319). -/
structure DriveInfo where
  present : Bool
  blocks : Nat
  lbaSize : Nat
  metadata : Nat
  maxTransfer : Nat
  queues : Nat
  fua : Bool
  lanes : Nat := 4
  speed : Nat := 5
  deriving DecidableEq, Repr

/-- What Mirror recaptures of the next SDI line of a link (R368, R369): whether its timing references were found and recapture kept up,
the line number it carries, and the line CRC computed from its words. -/
structure MirrorLine where
  refs : Bool
  behind : Bool
  number : Nat
  crc : Nat
  deriving DecidableEq, Repr

/-- What is late when an output line is sent (R357, R358): its video, a graphics plane, its embedded audio, and the links of a quad
link whose serialiser queue runs short, one bit each. -/
structure LineLate where
  video : Bool
  gfx0 : Bool
  gfx1 : Bool
  audio : Bool
  short : Nat
  deriving DecidableEq, Repr

/-- A received Sync with its Follow_Up (R379, R383): the Ethernet port, whether the message is one that the table of R379 supports, its
domain, the clockIdentity and portNumber of its sender, logSyncInterval, the time t1 and the correctionFields in units of
2^−16 ns. -/
structure PtpSyncMsg where
  port : Nat
  supported : Bool
  domain : Nat
  srcId : Nat
  srcPort : Nat
  logInterval : Int
  sec : Nat
  ns : Nat
  corr : Int
  deriving DecidableEq, Repr

/-- A received Announce (R379, R389): the Ethernet port, whether the message is one that the table of R379 supports, its domain, its sender
with IPv4 and MAC address, and the data set that the comparison uses. -/
structure PtpAnnounceMsg where
  port : Nat
  supported : Bool
  domain : Nat
  srcId : Nat
  srcPort : Nat
  ip : Nat
  mac : Nat
  prio1 : Nat
  clockClass : Nat
  accuracy : Nat
  variance : Nat
  prio2 : Nat
  gmId : Nat
  steps : Nat
  deriving DecidableEq, Repr

/-- A received Delay_Resp to the last Delay_Req (R383): the Ethernet port, whether the message is supported, its domain, its sender, the
time t4 and the correctionField in units of 2^−16 ns. -/
structure PtpDelayRespMsg where
  port : Nat
  supported : Bool
  domain : Nat
  srcId : Nat
  srcPort : Nat
  sec : Nat
  ns : Nat
  corr : Int
  deriving DecidableEq, Repr

/-- The outcome of full DRAM training (R438, R439): the capacity in GiB found on each channel, 0 on a channel that fails. -/
structure TrainResult where
  gib : List Nat
  deriving DecidableEq, Repr

/-- A DRAM burst with an error (R453): its address, whether it cannot be corrected, and the tag of the queue command whose
read met it, if one did. -/
structure EccError where
  addr : Nat
  fatal : Bool
  tag : Option Nat
  deriving DecidableEq, Repr

/-- The commands and events of the KZ7160, one constructor per row of the operation table. -/
inductive Instr where
  /-- REGISTER_WRITE (R41). A write of `v` with byte enables `be` to BAR0 offset `off`. -/
  | registerWrite (r : Req) (off be : Nat) (v : Word)
  /-- EVENT_READ (R51). A read of the EVENT register of a page. -/
  | eventRead (r : Req) (page be : Nat)
  /-- BUSERR_INFO_READ (R54). A read of GLOBAL.BUSERR_INFO. -/
  | buserrInfoRead (r : Req) (be : Nat)
  /-- EVENT_TEST (R35). A write of a page's EVENT_TEST. -/
  | eventTest (r : Req) (page : Nat) (v : Word)
  /-- COMMIT_REQ (R38). A write of a page's COMMIT register that sets REQ. -/
  | commitReq (r : Req) (page : Nat) (v : Word)
  /-- VEC_REARM (R52). A write of GLOBAL.VEC_REARM. -/
  | vecRearm (r : Req) (v : Word)
  /-- MSIX_SEND (R52). A pending vector sends its message. -/
  | msixSend (fn : Fn) (vec : Nat)
  /-- MSIX_CREDIT_REFILL (R472). 100 µs pass and the credits are refilled. -/
  | msixCreditRefill
  /-- DEVICE_RESET (R55). A write of GLOBAL.RESET_CTRL. -/
  | deviceReset (r : Req) (v : Word)
  /-- GLOBAL_COMMIT (R76). A write of GLOBAL.COMMIT that sets REQ. -/
  | globalCommit (r : Req) (v : Word)
  /-- SET_MODE (R304). The fetched admin command SET MODE runs. -/
  | setMode (tag : Nat) (h : HostData)
  /-- BUDGET_CHECK_DONE (R68). The budget check of a take START completes. -/
  | budgetCheckDone
  /-- TAKE_STOP_CAPTURE_DONE (R70). Step 3 of a take STOP. -/
  | takeStopCaptureDone
  /-- REEL_CLOSE (R339). The last flush point of a closing reel is on the media. -/
  | reelClose
  /-- SAVE_SETTINGS (R306). The fetched admin command SAVE SETTINGS runs. -/
  | saveSettings (tag : Nat)
  /-- RSTORE_SAVE (R82). A write of RSTORE.CTRL with SAVE. -/
  | rstoreSave (r : Req) (v : Word)
  /-- RSTORE_ERASE (R88). A write of RSTORE.CTRL with ERASE. -/
  | rstoreErase (r : Req) (v : Word)
  /-- SAVE_DONE (R83). The running save has been written and read back. -/
  | saveDone (readBackOk : Bool)
  /-- POR_RELEASE (R516). POR_N rises with these strap levels. -/
  | porRelease (straps : Nat)
  /-- RESTORE_DONE (R87). The restore window ends. -/
  | restoreDone
  /-- POWER_ON_RESET (R517). POR_N is driven low for at least 1 µs. -/
  | powerOnReset
  /-- SUPPLY_MONITOR_RESET (R517). The on-die supply monitor resets the device. -/
  | supplyMonitorReset
  /-- PWRGOOD_FALL (R517). PWRGOOD falls. -/
  | pwrgoodFall
  /-- VR_ALERT (R518). VR_ALERT_N is asserted. -/
  | vrAlert
  /-- WAKE_N_FALL (R66). WAKE_N falls. -/
  | wakeNFall
  /-- LINK_TRAIN (R97). A write of LINK.CTRL with TRAIN. -/
  | linkTrain (r : Req) (port : Nat) (v : Word)
  /-- RX_TRAIN (R98). A TRAIN block arrives on a physical lane. -/
  | rxTrain (b : TrainBlk)
  /-- EQ_ADAPT_DONE (R97). The DFE adaptation of a port ends. -/
  | eqAdaptDone (port : Nat)
  /-- TRAIN_TIMEOUT (R102). TRAIN_CFG.TIMEOUT passes in bring-up. -/
  | trainTimeout (port : Nat)
  /-- LANE_LOS (R106). A lane's amplitude is lost. -/
  | laneLos (lane : Nat)
  /-- LANE_LOS_CLEAR (R106). A lane's amplitude is back. -/
  | laneLosClear (lane : Nat)
  /-- CDR_LOSS (R106). A lane's clock recovery loses lock. -/
  | cdrLoss (lane : Nat)
  /-- CDR_LOCK (R97). A lane's clock recovery locks. -/
  | cdrLock (lane : Nat)
  /-- BLOCK_LOCK_GAINED (R106). A lane gains block lock. -/
  | blockLockGained (lane : Nat)
  /-- BLOCK_LOCK_LOST (R106). A lane loses block lock. -/
  | blockLockLost (lane : Nat)
  /-- ALIGN_NEEDED (R110). Block lock does not return within 4,096 blocks. -/
  | alignNeeded (lane : Nat)
  /-- RX_ALIGN (R110). An ALIGN block arrives on every locked lane of a port. -/
  | rxAlign (port acount : Nat)
  /-- RX_SOF (R117). A SOF block arrives. -/
  | rxSof (port frame tag : Nat)
  /-- RX_META (R96). A META block arrives. -/
  | rxMeta (port : Nat) (data : List Byte)
  /-- RX_SOL (R133). A SOL block arrives on a logical lane. -/
  | rxSol (port lane line depth dg cells : Nat)
  /-- RX_PACKET (R107). A packet arrives on a logical lane. -/
  | rxPacket (port : Nat) (p : Packet)
  /-- RX_EOL (R109). The EOL blocks of a line have arrived, with their BLOCKS by logical lane. -/
  | rxEol (port : Nat) (line : Eol)
  /-- RX_EOF (R135). An EOF block arrives. -/
  | rxEof (port frame lines : Nat)
  /-- RX_SMSG (R116). An SMSG block arrives. -/
  | rxSmsg (port seq kind data : Nat)
  /-- FALLBACK_ACK_TIMEOUT (R111). 100 µs pass after a LANEMAP message. -/
  | fallbackAckTimeout (port : Nat)
  /-- BC_ACK_TIMEOUT (R116). 20 µs pass after a back-channel message. -/
  | bcAckTimeout (port : Nat)
  /-- BC_MAILBOX_GO (R116). A write of LINK.BC_CTRL with GO. -/
  | bcMailboxGo (r : Req) (port : Nat) (v : Word)
  /-- HEARTBEAT (R118). HB_PERIOD passes. -/
  | heartbeat (port : Nat)
  /-- TEST_CTRL_WRITE (R120). A write of LANE.TEST_CTRL. -/
  | testCtrlWrite (r : Req) (lane : Nat) (v : Word)
  /-- INJECT_ONE (R122). A write of LANE.TEST_CTRL with INJECT_ONE. -/
  | injectOne (r : Req) (lane : Nat) (v : Word)
  /-- CHECKER_SYNC_GAINED (R121). The checker of a lane has received these 64 bits in a row. -/
  | checkerSyncGained (lane : SyncedLane)
  /-- CHECKER_SYNC_LOST (R121). The checker of a lane loses sync. -/
  | checkerSyncLost (lane errors bits : Nat)
  /-- FRAME_START (R134). A SOF of a port in use reaches Ingress. -/
  | frameStart (port : Nat)
  /-- LINE_TIMEOUT (R135). LINE_TIMEOUT passes on a port. -/
  | lineTimeout (port : Nat)
  /-- PAIR_WINDOW_EXPIRY (R143). The pair window of the open frame passes. -/
  | pairWindowExpiry
  /-- SHARED_READ_START (R15). The shared read of the next frame begins. -/
  | sharedReadStart
  /-- SHARED_READ_LINE (R14). The shared read delivers its next line. -/
  | sharedReadLine
  /-- CATCHUP_FRAME_DONE (R140). The catch-up read has encoded its frame. -/
  | catchupFrameDone
  /-- SPLIT_FRAME_START (R192). The Splitter begins a frame of a rendition. -/
  | splitFrameStart (n : Nat)
  /-- SPLIT_GROUP_PUBLISH (R192). The Splitter publishes the next 32 lines of a rendition. -/
  | splitGroupPublish (n : Nat)
  /-- REND_FRAME_DONE (R199). A back end finishes its rendition frame. -/
  | rendFrameDone (n : Nat)
  /-- SLOT_CFG_WRITE (R196). A write of FSTORE.SLOT_CFG. -/
  | slotCfgWrite (r : Req) (k : Nat) (v : Word)
  /-- FSTORE_LOAD (R202). A write of FSTORE.LOAD_CTRL. -/
  | fstoreLoad (r : Req) (v : Word)
  /-- FSTORE_LOAD_DONE (R202). The payload of the running load has been copied. -/
  | fstoreLoadDone
  /-- DRAW_FRAME_BEGIN (R212). The raw cores begin a frame. -/
  | drawFrameBegin
  /-- DRAW_FRAME_DONE (R228). The raw record of the frame is complete. -/
  | drawFrameDone
  /-- DRAW_CORE_FAULT (R228). A raw core detects a parity fault. -/
  | drawCoreFault (core : Nat)
  /-- DRDEC_IN_PROD (R229). A write of DRDEC.IN_PROD. -/
  | drdecInProd (r : Req) (v : Word)
  /-- DRDEC_FRAME_DONE (R229). The raw decoder finishes a record. -/
  | drdecFrameDone
  /-- HENC_PICTURE_BEGIN (R251). A stream begins a picture. -/
  | hencPictureBegin (stream : Nat)
  /-- HENC_PICTURE_DONE (R257). A stream's access unit is complete. -/
  | hencPictureDone (stream : Nat)
  /-- HENC_CORE_FAULT (R259). An HEVC core detects a parity fault. -/
  | hencCoreFault (core : Nat)
  /-- HDEC_IN_PROD (R263). A write of HDEC.IN_PROD. -/
  | hdecInProd (r : Req) (n : Nat) (v : Word)
  /-- HDEC_RECORD_DONE (R263). An HEVC decoder finishes a record. -/
  | hdecRecordDone (n : Nat)
  /-- AQ_ENABLE (R280). A write of HOSTQ.AQ_CTRL with EN 1. -/
  | aqEnable (r : Req) (v : Word)
  /-- QUEUE_TEARDOWN (R278). A write of HOSTQ.AQ_CTRL with EN 0. -/
  | queueTeardown (r : Req) (v : Word)
  /-- FUNCTION_LEVEL_RESET (R278). A Function Level Reset. -/
  | functionLevelReset (fn : Fn)
  /-- BUS_MASTER_DISABLE (R278). Bus Master Enable of a function is cleared. -/
  | busMasterDisable (fn : Fn)
  /-- HOST_LINK_DOWN (R278). The host link goes down. -/
  | hostLinkDown
  /-- DOORBELL (R281). A write of HOSTQ.DOORBELL. -/
  | doorbell (r : Req) (v : Word)
  /-- COMMAND_FETCH (R288). Arbitration fetches a submission entry into a free tag; none is a failed read. -/
  | commandFetch (tag : Nat) (entry : Option (List Byte))
  /-- COMPLETION_POST (R287). The completion of a finished command is written. -/
  | completionPost (tag : Nat)
  /-- CQ_COALESCE_TIMEOUT (R302). The coalescing time of a completion queue passes. -/
  | cqCoalesceTimeout (fn : Fn) (qid : Nat)
  /-- CREATE_SQ (R303). CREATE SQ runs. -/
  | createSq (tag : Nat)
  /-- DELETE_SQ (R303). DELETE SQ runs. -/
  | deleteSq (tag : Nat)
  /-- CREATE_CQ (R303). CREATE CQ runs. -/
  | createCq (tag : Nat)
  /-- DELETE_CQ (R303). DELETE CQ runs. -/
  | deleteCq (tag : Nat)
  /-- IDENTIFY (R307). IDENTIFY runs. -/
  | identify (tag : Nat) (h : HostData)
  /-- GET_LOG_PAGE (R308). GET LOG PAGE runs. -/
  | getLogPage (tag : Nat) (h : HostData)
  /-- ABORT (R296). ABORT runs. -/
  | abort (tag : Nat)
  /-- SET_COALESCING (R303). SET COALESCING runs. -/
  | setCoalescing (tag : Nat)
  /-- CHECK_CONFIG (R305). CHECK CONFIG runs. -/
  | checkConfig (tag : Nat) (h : HostData)
  /-- CREATE_NAMESPACE (R309). CREATE NAMESPACE runs. -/
  | createNamespace (tag : Nat)
  /-- DELETE_NAMESPACE (R310). DELETE NAMESPACE runs. -/
  | deleteNamespace (tag : Nat)
  /-- FIRMWARE_LOAD (R461). FIRMWARE LOAD runs with the image read from host memory; whether a flash slot reads back as written. -/
  | firmwareLoad (tag : Nat) (h : HostData) (readBackOk : Bool)
  /-- FIRMWARE_HANDOVER (R462). FIRMWARE HANDOVER runs. -/
  | firmwareHandover (tag : Nat)
  /-- ATTEST (R475). ATTEST runs. -/
  | attest (tag : Nat) (h : HostData)
  /-- ARRAY_LEASE (R496). ARRAY LEASE runs. -/
  | arrayLease (tag : Nat)
  /-- READ (R312). READ runs. -/
  | read (tag : Nat) (h : HostData)
  /-- WRITE (R312). WRITE runs with its data read from host memory. -/
  | write (tag : Nat) (h : HostData)
  /-- APPEND_METADATA (R313). APPEND METADATA runs with its payload. -/
  | appendMetadata (tag : Nat) (h : HostData)
  /-- LOAD_SLOT (R314). LOAD SLOT runs. -/
  | loadSlot (tag : Nat)
  /-- COMPRESS (R312). COMPRESS runs with its source. -/
  | compress (tag : Nat) (h : HostData)
  /-- DECOMPRESS (R312). DECOMPRESS runs with its source. -/
  | decompress (tag : Nat) (h : HostData)
  /-- MEDIA_ENABLE (R527). A write of MEDIA.CTRL with ENABLE. -/
  | mediaEnable (r : Req) (port : Nat) (v : Word)
  /-- MEDIA_RESET (R320). A write of MEDIA.CTRL with RESET. -/
  | mediaReset (r : Req) (port : Nat) (v : Word)
  /-- MEDIA_PORT_READY (R319). A media port finishes its bring-up. -/
  | mediaPortReady (port : Nat) (info : DriveInfo)
  /-- MEDIA_LINK_DOWN (R320). A media link goes down. -/
  | mediaLinkDown (port : Nat)
  /-- NVME_COMPLETION (R318). An NVMe command completes. -/
  | nvmeCompletion (port id : Nat) (ok : Bool)
  /-- NVME_TIMEOUT (R320). An NVMe command gets no completion in time. -/
  | nvmeTimeout (port id : Nat)
  /-- HEALTH_POLL (R318). The SMART log is read. -/
  | healthPoll (port critical used temp : Nat)
  /-- FORMAT (R323). A write of RECORDER.CTRL with FORMAT. -/
  | format (r : Req) (v : Word)
  /-- FRAME_GROUP_COMPLETE (R329). The last record of the next frame group is in DRAM. -/
  | frameGroupComplete
  /-- FLUSH_TIMER (R330). FLUSH.PERIOD passes. -/
  | flushTimer
  /-- FLUSH_WRITES_DONE (R330). Every write below END has completed. -/
  | flushWritesDone
  /-- FLUSH_DONE (R330). Every drive has completed its Flush. -/
  | flushDone
  /-- INDEX_BANK_DONE (R330). The index bank write has completed. -/
  | indexBankDone
  /-- REEL_RECOVERY (R334). An open reel is recovered. -/
  | reelRecovery
  /-- REVIEW_FEED (R340). The Recorder feeds the next frame's records. -/
  | reviewFeed
  /-- LOUPE_ENABLE (R347). A write of LOUPE.CTRL with ENABLE. -/
  | loupeEnable (r : Req) (n : Nat) (v : Word)
  /-- LOUPE_SAMPLE_POINT (R355). Line 0 of an output frame. -/
  | loupeSamplePoint (n : Nat)
  /-- LOUPE_LINE (R357). The next output line is fetched and sent. -/
  | loupeLine (n : Nat) (late : LineLate)
  /-- LOCK_LOST (R354). No frame start arrives for a locked generator. -/
  | lockLost (n : Nat)
  /-- MIRROR_LINE_CHECK (R369). Mirror recaptures a line of an SDI output. -/
  | mirrorLineCheck (k : Nat) (b : MirrorLine)
  /-- FLOW_ENABLE (R367). A write of PKT2110.FLOW_CFG. -/
  | flowEnable (r : Req) (f : Nat) (v : Word)
  /-- ST2110_PACKET_SEND (R366). A flow sends its next packet. -/
  | st2110PacketSend (f : Nat) (late : Bool)
  /-- ETH_RX_FRAME (R363). An Ethernet frame is received. -/
  | ethRxFrame (e : Nat) (frame : List Byte)
  /-- ETH_LINK_CHANGE (R373). An Ethernet link changes. -/
  | ethLinkChange (e : Nat) (up : Bool)
  /-- COLL_SNAP (R377). A write of COLL.CTRL with SNAP. -/
  | collSnap (r : Req) (v : Word)
  /-- COLL_SET (R378). A write of COLL.CTRL with SET. -/
  | collSet (r : Req) (v : Word)
  /-- PTP_SYNC (R384). A Sync, with its Follow_Up, is received. -/
  | ptpSync (m : PtpSyncMsg)
  /-- PTP_ANNOUNCE (R389). An Announce is received. -/
  | ptpAnnounce (m : PtpAnnounceMsg)
  /-- PTP_DELAY_REQ_SEND (R379). The Collimator sends a Delay_Req. -/
  | ptpDelayReqSend
  /-- PTP_DELAY_RESP (R383). A Delay_Resp is received. -/
  | ptpDelayResp (m : PtpDelayRespMsg)
  /-- SYNC_TIMEOUT (R387). Sync or Announce times out. -/
  | syncTimeout
  /-- STEP_WINDOW_EXPIRY (R388). The step window passes. -/
  | stepWindowExpiry
  /-- TRIGGER_EDGE (R393). The trigger of the next exposure rises. -/
  | triggerEdge (port : Nat)
  /-- TRIGGER_PULSE_END (R394). The trigger pulse ends. -/
  | triggerPulseEnd (port : Nat)
  /-- ALARM (R399). The Collimator time reaches the alarm. -/
  | alarm
  /-- SYNC_IN (R400). An edge on SYNC_IN. -/
  | syncIn
  /-- SYNC_OUT_PULSE (R401). SYNC_OUT sends a pulse. -/
  | syncOutPulse
  /-- AUD_ENABLE (R408). A write of AUD.CTRL with ENABLE. -/
  | audEnable (r : Req) (p : Nat) (v : Word)
  /-- TDM_FRAME_BOUNDARY (R412). A TDM frame boundary. -/
  | tdmFrameBoundary (p : Nat)
  /-- AUD_SYNC_EDGE (R407). A slave port receives a sync edge after so many bit clocks. -/
  | audSyncEdge (p bclks : Nat)
  /-- AUD_CLOCK_LOST (R407). No sync edge for 2 frame periods. -/
  | audClockLost (p : Nat)
  /-- AUD_SLOT (R413). A TDM slot begins; the word on the input pin. -/
  | audSlot (p : Nat) (word : Nat)
  /-- COND_GO (R428). A write of COND.CTRL with GO. -/
  | condGo (r : Req) (v : Word)
  /-- COND_RESUME (R428). A write of COND.CTRL with RESUME. -/
  | condResume (r : Req) (v : Word)
  /-- COND_ABORT (R428). A write of COND.CTRL with ABORT. -/
  | condAbort (r : Req) (v : Word)
  /-- COND_OUTPUT_FULL (R428). The destination of a streamed job fills. -/
  | condOutputFull
  /-- COND_NEED_INPUT (R428). A streamed job consumes its source without FINAL. -/
  | condNeedInput
  /-- COND_JOB_END (R424). The running job ends; whether the independent decoder agreed with every block. -/
  | condJobEnd (verified : Bool)
  /-- RELAY_CH_START (R431). A write of CH_CTRL with START. -/
  | relayChStart (r : Req) (c : Nat) (v : Word)
  /-- RELAY_CH_ABORT (R431). A write of CH_CTRL with ABORT. -/
  | relayChAbort (r : Req) (c : Nat) (v : Word)
  /-- RELAY_DESC_FETCH (R434). A channel has fetched its next descriptor. -/
  | relayDescFetch (c : Nat)
  /-- RELAY_DESC_DONE (R431). A channel's transfer ends. -/
  | relayDescDone (c : Nat)
  /-- RELAY_BUS_ERROR (R435). The fabric returns an error for a Relay access: its address, kind and direction. -/
  | relayBusError (addr kind : Nat) (write : Bool)
  /-- RELAY_CLEAR (R435). A write of RELAY.CTRL with CLEAR. -/
  | relayClear (r : Req) (v : Word)
  /-- DRAM_TRAINING_DONE (R439). Full DRAM training ends. -/
  | dramTrainingDone (t : TrainResult)
  /-- RETRAIN_STEP (R445). RETRAIN.PERIOD passes. -/
  | retrainStep
  /-- RETRAIN_GATHER_DONE (R447). The gathering ends: the oscillator count, the ns a frequency change has waited, and whether the drift exceeds
  what a correction absorbs. -/
  | retrainGatherDone (osc waited : Nat) (drifted : Bool)
  /-- FREQ_TARGET_WRITE (R446). A write of DRAMCTL.FREQ. -/
  | freqTargetWrite (r : Req) (v : Word)
  /-- FREQ_CHANGE_DONE (R446). A frequency change ends. -/
  | freqChangeDone
  /-- DRAM_TEMP_POLL (R448). The temperatures are polled: by channel, degrees and report of the hotter device. -/
  | dramTempPoll (temps : List (Nat × Nat))
  /-- DRAM_ECC_ERROR (R453). A burst carries an error. -/
  | dramEccError (e : EccError)
  /-- UE_ADDR_READ (R454). A read of DRAM.UE_ADDR_HI. -/
  | ueAddrRead (r : Req) (channel be : Nat)
  /-- HANDOVER_ALIVE (R462). The new control side reports alive. -/
  | handoverAlive
  /-- HANDOVER_FAIL (R463). The new control side does not report alive. -/
  | handoverFail
  /-- WATCHDOG_EXPIRY (R465). The watchdog of the active side expires. -/
  | watchdogExpiry
  /-- SVN_COMMIT (R459). A write of SECURITY.SVN_CTRL with COMMIT. -/
  | svnCommit (r : Req) (v : Word)
  /-- SUPPLY_REQ_WRITE (R468). A write of GUARD.SUPPLY_REQ. -/
  | supplyReqWrite (r : Req) (v : Word)
  /-- SUPPLY_SEQ_STEP (R468). SEQ.DELAY passes. -/
  | supplySeqStep (port : Nat)
  /-- GUARD_WINDOW_WRITE (R471). A write to a host memory window or to WIN_EN. -/
  | guardWindowWrite (r : Req) (off : Nat) (v : Word)
  /-- PWR_REQ_WRITE (R483). A write of a page's PWR_REQ. -/
  | pwrReqWrite (r : Req) (page : Nat) (v : Word)
  /-- POWER_DRAIN_DONE (R483). A draining domain has finished its work. -/
  | powerDrainDone (page : Nat)
  /-- DRAIN_TIMEOUT (R483). DRAIN_TIMEOUT passes before the drain. -/
  | drainTimeout (page : Nat)
  /-- DOMAIN_ON (R482). A domain finishes powering up. -/
  | domainOn (page : Nat)
  /-- POWER_MEASURE (R485). The supply power is measured. -/
  | powerMeasure (milliwatts : Nat)
  /-- THERM_SAMPLE (R487). The die sensors are sampled. -/
  | thermSample (sensors : List Int)
  /-- TRIP_RELEASE (R491). Every valid sensor reads below TRIP − 20 °C. -/
  | tripRelease
  /-- LEASE_LOW (R497). LEASE_LEFT falls below LOW_MS. -/
  | leaseLow
  /-- LEASE_EXPIRY (R499). The array lease expires. -/
  | leaseExpiry
  /-- REGISTER_READ (R41). A read of BAR0 offset `off`. -/
  | registerRead (r : Req) (off be : Nat)
  /-- HOST_LINK_UP (R55). The host link trains again. -/
  | hostLinkUp
  /-- FEC_CODEWORD (R373). A codeword with an error is received. -/
  | fecCodeword (e : Nat) (correctable : Bool)
  /-- CHECKPOINT (R465). 10 ms pass and a checkpoint is written. -/
  | checkpoint
  deriving DecidableEq, Repr

end Sys2Proof
end

