-- ==== Sys2Proof/WellFormed.lean ====
section
/-! DEFINITION. The values that the operands of a command can take: page, lane, port and index numbers that exist, and field widths
(R32 to R34, R91 to R96, R281, R288). -/

namespace Sys2Proof

/-- The lane and the fields of a TRAIN block (R97, R98). -/
def TrainBlk.wf (b : TrainBlk) : Bool :=
  decide (b.lane < 16) && decide (b.laneId < 16) && decide (b.port < 2) && decide (b.lanes < 32) && decide (b.skew < 64)

/-- The logical lane and the fields of a packet: 1 to 64 data blocks of 8 bytes (R91, R94). -/
def Packet.wf (p : Packet) : Bool :=
  decide (p.lane < 16) && decide (p.line < 65536) && decide (p.off < 65536) && decide (0 < p.data.length)
    && decide (p.data.length ≤ 512) && decide (p.crc < 2 ^ 32)

/-- What a drive reports (R318, R319). -/
def DriveInfo.wf (d : DriveInfo) : Bool := decide (d.blocks < 2 ^ 64) && decide (d.lanes ≤ 4) && decide (d.speed ≤ 5)

/-- What an SDI line carries (R368). -/
def MirrorLine.wf (m : MirrorLine) : Bool := decide (m.number < 65536) && decide (m.crc < 2 ^ 32)

/-- Links are four (R357). -/
def LineLate.wf (l : LineLate) : Bool := decide (l.short < 16)

/-- An Ethernet port, a domain and a time of a PTP message (R379, R383). -/
def PtpSyncMsg.wf (m : PtpSyncMsg) : Bool :=
  decide (m.port < 2) && decide (m.domain < 256) && decide (m.sec < 2 ^ 48) && decide (m.ns < 1000000000)

/-- An Ethernet port and a domain (R389). -/
def PtpAnnounceMsg.wf (m : PtpAnnounceMsg) : Bool := decide (m.port < 2) && decide (m.domain < 256)

/-- An Ethernet port, a domain and a time (R383). -/
def PtpDelayRespMsg.wf (m : PtpDelayRespMsg) : Bool :=
  decide (m.port < 2) && decide (m.domain < 256) && decide (m.sec < 2 ^ 48) && decide (m.ns < 1000000000)

/-- Eight channels are trained (R438). -/
def TrainResult.wf (t : TrainResult) : Bool := decide (t.gib.length = 8)

/-- A DRAM channel and the tag of a command (R288, R453). -/
def EccError.wf (e : EccError) : Bool := match e.tag with | some t => decide (t < 16384) | none => true

/-- Whether a command's operands are values that the interface admits. -/
def Instr.wf : Instr → Bool
  | .registerWrite _ off be _ => decide (off < 0x405000) && decide (be < 16)
  | .eventRead _ page be => decide (page < 1024) && decide (be < 16)
  | .buserrInfoRead _ be => decide (be < 16)
  | .eventTest _ page _ => decide (page < 1024)
  | .commitReq _ page _ => decide (page < 1024)
  | .vecRearm _ _ => true
  | .msixSend _ vec => decide (vec < 64)
  | .msixCreditRefill => true
  | .deviceReset _ _ => true
  | .globalCommit _ _ => true
  | .setMode tag _ => decide (tag < 16384)
  | .budgetCheckDone => true
  | .takeStopCaptureDone => true
  | .reelClose => true
  | .saveSettings tag => decide (tag < 16384)
  | .rstoreSave _ _ => true
  | .rstoreErase _ _ => true
  | .saveDone _ => true
  | .porRelease straps => decide (straps < 16)
  | .restoreDone => true
  | .powerOnReset => true
  | .supplyMonitorReset => true
  | .pwrgoodFall => true
  | .vrAlert => true
  | .wakeNFall => true
  | .linkTrain _ port _ => decide (port < 2)
  | .rxTrain b => b.wf
  | .eqAdaptDone port => decide (port < 2)
  | .trainTimeout port => decide (port < 2)
  | .laneLos lane => decide (lane < 48)
  | .laneLosClear lane => decide (lane < 48)
  | .cdrLoss lane => decide (lane < 48)
  | .cdrLock lane => decide (lane < 48)
  | .blockLockGained lane => decide (lane < 48)
  | .blockLockLost lane => decide (lane < 48)
  | .alignNeeded lane => decide (lane < 48)
  | .rxAlign port acount => decide (port < 2) && decide (acount < 16777216)
  | .rxSof port frame tag => decide (port < 2) && decide (frame < 2 ^ 32) && decide (tag < 65536)
  | .rxMeta port data => decide (port < 2) && decide (data.length = 7)
  | .rxSol port lane line depth dg cells =>
    decide (port < 2) && decide (lane < 16) && decide (line < 65536) && decide (depth < 4) && decide (dg < 2) && decide (cells < 65536)
  | .rxPacket port p => decide (port < 2) && p.wf
  | .rxEol port line => decide (port < 2) && decide (line.line < 65536) && decide (line.blocks.length ≤ 16)
    && line.blocks.all fun b => decide (b < 65536)
  | .rxEof port frame lines => decide (port < 2) && decide (frame < 2 ^ 32) && decide (lines < 65536)
  | .rxSmsg port _ _ _ => decide (port < 2)
  | .fallbackAckTimeout port => decide (port < 2)
  | .bcAckTimeout port => decide (port < 2)
  | .bcMailboxGo _ port _ => decide (port < 2)
  | .heartbeat port => decide (port < 2)
  | .testCtrlWrite _ lane _ => decide (lane < 48)
  | .injectOne _ lane _ => decide (lane < 48)
  | .checkerSyncGained lane => decide (lane.lane < 48) && decide (lane.bits.length = 64)
  | .checkerSyncLost lane _ _ => decide (lane < 48)
  | .frameStart port => decide (port < 2)
  | .lineTimeout port => decide (port < 2)
  | .pairWindowExpiry => true
  | .sharedReadStart => true
  | .sharedReadLine => true
  | .catchupFrameDone => true
  | .splitFrameStart n => decide (n < 8)
  | .splitGroupPublish n => decide (n < 8)
  | .rendFrameDone n => decide (n < 8)
  | .slotCfgWrite _ k _ => decide (k < 64)
  | .fstoreLoad _ _ => true
  | .fstoreLoadDone => true
  | .drawFrameBegin => true
  | .drawFrameDone => true
  | .drawCoreFault core => decide (core < 16)
  | .drdecInProd _ _ => true
  | .drdecFrameDone => true
  | .hencPictureBegin stream => decide (stream < 8)
  | .hencPictureDone stream => decide (stream < 8)
  | .hencCoreFault core => decide (core < 8)
  | .hdecInProd _ n _ => decide (n < 2)
  | .hdecRecordDone n => decide (n < 2)
  | .aqEnable _ _ => true
  | .queueTeardown _ _ => true
  | .functionLevelReset _ => true
  | .busMasterDisable _ => true
  | .hostLinkDown => true
  | .doorbell _ _ => true
  | .commandFetch tag entry => decide (tag < 16384) && (match entry with | some b => decide (b.length = 64) | none => true)
  | .completionPost tag => decide (tag < 16384)
  | .cqCoalesceTimeout _ qid => decide (qid < 64)
  | .createSq tag => decide (tag < 16384)
  | .deleteSq tag => decide (tag < 16384)
  | .createCq tag => decide (tag < 16384)
  | .deleteCq tag => decide (tag < 16384)
  | .identify tag _ => decide (tag < 16384)
  | .getLogPage tag _ => decide (tag < 16384)
  | .abort tag => decide (tag < 16384)
  | .setCoalescing tag => decide (tag < 16384)
  | .checkConfig tag _ => decide (tag < 16384)
  | .createNamespace tag => decide (tag < 16384)
  | .deleteNamespace tag => decide (tag < 16384)
  | .firmwareLoad tag _ _ => decide (tag < 16384)
  | .firmwareHandover tag => decide (tag < 16384)
  | .attest tag _ => decide (tag < 16384)
  | .arrayLease tag => decide (tag < 16384)
  | .read tag _ => decide (tag < 16384)
  | .write tag _ => decide (tag < 16384)
  | .appendMetadata tag _ => decide (tag < 16384)
  | .loadSlot tag => decide (tag < 16384)
  | .compress tag _ => decide (tag < 16384)
  | .decompress tag _ => decide (tag < 16384)
  | .mediaEnable _ port _ => decide (port < 2)
  | .mediaReset _ port _ => decide (port < 2)
  | .mediaPortReady port info => decide (port < 2) && info.wf
  | .mediaLinkDown port => decide (port < 2)
  | .nvmeCompletion port _ _ => decide (port < 2)
  | .nvmeTimeout port _ => decide (port < 2)
  | .healthPoll port critical used temp => decide (port < 2) && decide (critical < 256) && decide (used < 256) && decide (temp < 65536)
  | .format _ _ => true
  | .frameGroupComplete => true
  | .flushTimer => true
  | .flushWritesDone => true
  | .flushDone => true
  | .indexBankDone => true
  | .reelRecovery => true
  | .reviewFeed => true
  | .loupeEnable _ n _ => decide (n < 4)
  | .loupeSamplePoint n => decide (n < 4)
  | .loupeLine n late => decide (n < 4) && late.wf
  | .lockLost n => decide (n < 4)
  | .mirrorLineCheck k b => decide (k < 4) && b.wf
  | .flowEnable _ f _ => decide (f < 16)
  | .st2110PacketSend f _ => decide (f < 16)
  | .ethRxFrame e _ => decide (e < 2)
  | .ethLinkChange e _ => decide (e < 2)
  | .collSnap _ _ => true
  | .collSet _ _ => true
  | .ptpSync m => m.wf
  | .ptpAnnounce m => m.wf
  | .ptpDelayReqSend => true
  | .ptpDelayResp m => m.wf
  | .syncTimeout => true
  | .stepWindowExpiry => true
  | .triggerEdge port => decide (port < 2)
  | .triggerPulseEnd port => decide (port < 2)
  | .alarm => true
  | .syncIn => true
  | .syncOutPulse => true
  | .audEnable _ p _ => decide (p < 4)
  | .tdmFrameBoundary p => decide (p < 4)
  | .audSyncEdge p _ => decide (p < 4)
  | .audClockLost p => decide (p < 4)
  | .audSlot p word => decide (p < 4) && decide (word < 4294967296)
  | .condGo _ _ => true
  | .condResume _ _ => true
  | .condAbort _ _ => true
  | .condOutputFull => true
  | .condNeedInput => true
  | .condJobEnd _ => true
  | .relayChStart _ c _ => decide (c < 8)
  | .relayChAbort _ c _ => decide (c < 8)
  | .relayDescFetch c => decide (c < 8)
  | .relayDescDone c => decide (c < 8)
  | .relayBusError addr kind _ => decide (addr < 18446744073709551616) && decide (kind < 3)
  | .relayClear _ _ => true
  | .dramTrainingDone t => t.wf
  | .retrainStep => true
  | .retrainGatherDone osc _ _ => decide (osc < 65536)
  | .freqTargetWrite _ _ => true
  | .freqChangeDone => true
  | .dramTempPoll temps => decide (temps.length = 8)
  | .dramEccError e => e.wf
  | .ueAddrRead _ channel be => decide (channel < 8) && decide (be < 16)
  | .handoverAlive => true
  | .handoverFail => true
  | .watchdogExpiry => true
  | .svnCommit _ _ => true
  | .supplyReqWrite _ _ => true
  | .supplySeqStep port => decide (port < 2)
  | .guardWindowWrite _ off _ => decide (off < 384)
  | .pwrReqWrite _ page _ => decide (page < 256)
  | .powerDrainDone page => decide (page < 256)
  | .drainTimeout page => decide (page < 256)
  | .domainOn page => decide (page < 256)
  | .powerMeasure milliwatts => decide (milliwatts < 65536)
  | .thermSample sensors => decide (sensors.length = 16)
  | .tripRelease => true
  | .leaseLow => true
  | .leaseExpiry => true
  | .registerRead _ off be => decide (off < 0x400000) && decide (be < 16)
  | .hostLinkUp => true
  | .fecCodeword e _ => decide (e < 2)
  | .checkpoint => true

end Sys2Proof
end

