-- ==== Sys2Proof/Decode.lean ====
section
/-! DEFINITION. The commands that words spell by the operation table's bits. The table gives no row of this block any bits: commands
reach it as register accesses, messages and events, not as words, so no word spells a command. -/

namespace Sys2Proof

/-- The command that a word spells by the table's bits: none, as no row of the table has bits. DESIGN CHOICE (log 2). -/
def decodeTableWord (_nbits _w : Nat) : Option Instr := none

end Sys2Proof
end

