-- ==== Sys2Proof/Machine/Curves.lean ====
section
/-! DEFINITION. Roots, logarithm, exponential and sine in fixed point, and the values the manual defines by them: the nodes of the
transfer functions (R172, R173), the weights of the scaler (R189) and the constants of SHA-384 (R456). -/

namespace Sys2Proof.Machine

/-! ### Fixed point with 160 fraction bits -/

/-- One in fixed point. -/
def fxOne : Int := 2 ^ 160

/-- The fixed-point number of a fraction. -/
def fxRat (n d : Int) : Int := n * fxOne / d

/-- Product of two fixed-point numbers. -/
def fxMul (a b : Int) : Int := a * b / fxOne

/-- Quotient of two fixed-point numbers. -/
def fxDiv (a b : Int) : Int := a * fxOne / b

/-- The sum x + x³/3 + x⁵/5 + …, `sign` alternating its terms: artanh for 1, arctan for −1. -/
def fxOdd (sign x : Int) : Int :=
  ((List.range 64).foldl (fun (a : Int × Int) i => (a.1 + a.2 / (2 * i + 1 : Nat), sign * fxMul a.2 (fxMul x x))) (0, x)).1

/-- The natural logarithm of 2. -/
def fxLn2 : Int := 2 * fxOdd 1 (fxRat 1 3)

/-- π, by Machin's formula. -/
def fxPi : Int := 16 * fxOdd (-1) (fxRat 1 5) - 4 * fxOdd (-1) (fxRat 1 239)

/-- The natural logarithm of a number above zero. -/
def fxLn (x : Nat) : Int :=
  let e : Int := (Nat.log2 x : Int) - 160
  let m : Int := if 0 ≤ e then x / 2 ^ e.toNat else x * 2 ^ (-e).toNat
  e * fxLn2 + 2 * fxOdd 1 (fxDiv (m - fxOne) (m + fxOne))

/-- The exponential. -/
def fxExp (x : Int) : Int :=
  let k := x / fxLn2
  let r := x - k * fxLn2
  let v := ((List.range 48).foldl (fun (a : Int × Int) i => (a.1 + a.2, fxMul a.2 r / (i + 1 : Nat))) (0, fxOne)).1
  if 0 ≤ k then v * 2 ^ k.toNat else v / 2 ^ (-k).toNat

/-- A number from zero up raised to a power above zero. -/
def fxPow (b e : Int) : Int := if b ≤ 0 then 0 else fxExp (fxMul e (fxLn b.toNat))

/-- The sine of π times n / 1,536. -/
def fxSinPi (n : Int) : Int :=
  let r := (n + 1536) % 3072 - 1536
  let x := fxPi * r / 1536
  ((List.range 40).foldl
    (fun (a : Int × Int) i => (a.1 + a.2, -(fxMul a.2 (fxMul x x) / ((2 * i + 2) * (2 * i + 3) : Nat)))) (0, x)).1

/-- A fixed-point number rounded to the nearest multiple of 2^−`k`, in such multiples. -/
def fxRound (k : Nat) (x : Int) : Int := (x + 2 ^ (159 - k)) / 2 ^ (160 - k)

/-! ### The transfer functions (R172, R173) -/

/-- PQ (R172). -/
def pqCurve (y : Int) : Int :=
  let p := fxPow y (fxRat 2610 16384)
  fxPow (fxDiv (fxRat 3424 4096 + fxMul (fxRat 2413 128) p) (fxOne + fxMul (fxRat 2392 128) p)) (fxRat 2523 32)

/-- HLG (R172). -/
def hlgCurve (e : Int) : Int :=
  if 12 * e ≤ fxOne then fxPow (3 * e) (fxRat 1 2)
  else
    fxMul (fxRat 17883277 100000000) (fxLn (12 * e - fxRat 28466892 100000000).toNat) + fxRat 55991073 100000000

/-- BT.1886 (R172). -/
def bt1886Curve (e : Int) : Int := fxPow e (fxRat 10 24)

/-- The input of a node of the transfer tables; node 1,537 stands for zero (R173). -/
def nodeInput (k : Nat) : Int :=
  if 1537 ≤ k then 0 else if k = 1536 then fxOne else (64 + k % 64 : Nat) * 2 ^ (130 + k / 64)

/-- A node value of a transfer table, in units of 2^−20 (R173). DEDUCED (log 43). -/
def curveNode (tr k : Nat) : Nat :=
  let x := nodeInput k
  (fxRound 20 (if tr = 1 then pqCurve x else if tr = 2 then hlgCurve x else bt1886Curve x)).toNat

/-! ### The weights of the scaler (R189) -/

/-- The sine of π x over π x, x in units of 1 / 1,536. -/
def fxSinc (n : Int) : Int := if n = 0 then fxOne else fxDiv (fxSinPi n) (fxPi * n / 1536)

/-- The taps of a phase: 8 horizontally and 6 vertically (R188). -/
def tapCount (axis : Nat) : Nat := if axis = 0 then 8 else 6

/-- A weight of the polyphase stage before it is normalised: fc·sinc(fc·d)·sinc(d/a), bank `b` having fc = (8 − b)/8 (R189). -/
def rawWeight (axis bank phase tap : Nat) : Int :=
  let d : Int := ((tap : Int) - (if axis = 0 then 3 else 2)) * 64 - phase
  let fc : Int := 8 - bank
  fc * fxMul (fxSinc (3 * fc * d)) (fxSinc ((if axis = 0 then 6 else 8) * d)) / 8

/-- A weight of a phase normalised and rounded to units of 2^−14 (R189). -/
def roundWeight (axis bank phase tap : Nat) : Int :=
  let sum := ((List.range (tapCount axis)).map (rawWeight axis bank phase)).sum
  fxRound 14 (fxDiv (rawWeight axis bank phase tap) sum)

/-- A weight of the polyphase stage in units of 2^−14: a phase sums to 16,384 by its largest weight, the earlier of two equal ones, and at a
ratio of 1 the centre weight is 1 (R189, R190). DEDUCED (log 43). -/
def polyWeight (axis bank phase tap : Nat) : Int :=
  let c := if axis = 0 then 3 else 2
  let big := if phase ≤ 32 then c else c + 1
  if bank = 0 ∧ phase = 0 then (if tap = c then 16384 else 0)
  else if tap = big then
    16384 - (((List.range (tapCount axis)).filter fun t => decide (t ≠ big)).map fun t => roundWeight axis bank phase t).sum
  else roundWeight axis bank phase tap

/-! ### The constants of SHA-384 (R456) -/

/-- The whole part of the `k`th root of a number, from bit `b` − 1 down, `r` the part found. -/
def rootFrom (k n : Nat) : Nat → Nat → Nat
  | 0, r => r
  | b + 1, r => rootFrom k n b (if (r + 2 ^ b) ^ k ≤ n then r + 2 ^ b else r)

/-- Whether a number from 2 up has no divisor but itself and 1. -/
def isPrime (n : Nat) : Bool := (List.range n).all fun d => decide (d < 2) || decide (n % d ≠ 0)

/-- The primes in order; the 80th is 409. -/
def primes : List Nat := (List.range 410).filter fun n => decide (2 ≤ n) && isPrime n

/-- The first 64 bits of the fraction of the `k`th root of a number. -/
def rootBits (k n : Nat) : BitVec 64 := BitVec.ofNat 64 (rootFrom k (n * 2 ^ (64 * k)) 72 0)

end Sys2Proof.Machine
end

