-- ==== Sys2Proof/Machine/Hash.lean ====
section
/-! DEFINITION. The check sums and hashes that the spec names: CRC-32C (R84), CRC-16 and SHA-384 of FIPS 180-4 (R339, R456). -/

namespace Sys2Proof.Machine

/-- One bit of a reflected CRC. -/
def crcBit (poly c : Nat) : Nat := if c % 2 = 1 then (c / 2) ^^^ poly else c / 2

/-- Eight bits of a reflected CRC. -/
def crcByte (poly c : Nat) (b : Byte) : Nat := (List.range 8).foldl (fun c _ => crcBit poly c) (c ^^^ b.toNat)

/-- CRC-32C: Castagnoli, reflected, initial and final XOR 0xFFFF_FFFF (R84). -/
def crc32c (l : List Byte) : Nat := (l.foldl (crcByte 0x82F63B78) 0xFFFFFFFF) ^^^ 0xFFFFFFFF

/-! ### SHA-384 -/

/-- A 64-bit word of SHA-384. -/
abbrev W64 := BitVec 64

/-- The round constants of SHA-384: the fractions of the cube roots of the first 80 primes. -/
def shaK : List W64 := primes.map (rootBits 3)

/-- The initial hash value of SHA-384: the fractions of the square roots of the ninth to the sixteenth prime. -/
def sha384Init : List W64 := ((primes.drop 8).take 8).map (rootBits 2)

/-- The message schedule: 16 words of a block extended to 80. -/
def shaSchedule (block : List W64) : List W64 :=
  ((List.range 64).foldl
    (fun (w : List W64) _ =>
      -- `w` is newest first
      let w2 := w.getD 1 0
      let w7 := w.getD 6 0
      let w15 := w.getD 14 0
      let w16 := w.getD 15 0
      let s1 := w2.rotateRight 19 ^^^ w2.rotateRight 61 ^^^ (w2 >>> 6)
      let s0 := w15.rotateRight 1 ^^^ w15.rotateRight 8 ^^^ (w15 >>> 7)
      (s1 + w7 + s0 + w16) :: w) block.reverse).reverse

/-- One round on the eight working variables a to h. -/
def shaRound (v : List W64) (k w : W64) : List W64 :=
  let a := v.getD 0 0
  let b := v.getD 1 0
  let c := v.getD 2 0
  let d := v.getD 3 0
  let e := v.getD 4 0
  let f := v.getD 5 0
  let g := v.getD 6 0
  let h := v.getD 7 0
  let t1 := h + (e.rotateRight 14 ^^^ e.rotateRight 18 ^^^ e.rotateRight 41) + ((e &&& f) ^^^ (~~~e &&& g)) + k + w
  let t2 := (a.rotateRight 28 ^^^ a.rotateRight 34 ^^^ a.rotateRight 39) + ((a &&& b) ^^^ (a &&& c) ^^^ (b &&& c))
  [t1 + t2, a, b, c, d + t1, e, f, g]

/-- One 128-byte block. -/
def shaBlock (hv : List W64) (b : List Byte) : List W64 :=
  let ws := shaSchedule ((List.range 16).map fun i => BitVec.ofNat 64 (beNat (slice b (8 * i) 8)))
  let v := (shaK.zip ws).foldl (fun v kw => shaRound v kw.1 kw.2) hv
  (hv.zip v).map fun p => p.1 + p.2

/-- The message with its padding. -/
def shaPad (m : List Byte) : List Byte :=
  let n := m.length
  m ++ [0x80] ++ zeros ((111 + 128 - n % 128) % 128) ++ beBytes 16 (8 * n)

/-- Blocks hashed in turn. -/
def shaBlocks : Nat → List W64 → List Byte → List W64
  | 0, hv, _ => hv
  | n + 1, hv, m => shaBlocks n (shaBlock hv (m.take 128)) (m.drop 128)

/-- The SHA-384 of a message, 48 bytes (R456). -/
def sha384 (m : List Byte) : List Byte :=
  let p := shaPad m
  ((shaBlocks (p.length / 128) sha384Init p).take 6).flatMap fun w => beBytes 8 w.toNat

end Sys2Proof.Machine
end

