-- ==== Sys2Proof/Machine/RegNames.lean ====
section
/-! DEFINITION. Names of every register and field of the register tables (R35, R53, R75, R88, R123, R124, R145, R180, R181,
R205, R206, R231-R233, R264-R266, R316, R317, R342, R343, R370-R374, R402, R403, R419, R429, R437, R454, R455,
R476-R478, R493, R494, R510): the offset in its page, the lowest bit and the width, as the tables give them. -/

namespace Sys2Proof.Machine.Reg

/-! Common registers of every page (R35) -/
abbrev COMMON_ID_TYPE : Fld := ⟨0x000, 16, 16⟩
abbrev COMMON_ID_INSTANCE : Fld := ⟨0x000, 8, 8⟩
abbrev COMMON_ID_VERSION : Fld := ⟨0x000, 0, 8⟩
abbrev COMMON_CAPS : Fld := ⟨0x004, 0, 32⟩
abbrev COMMON_CTRL_ENABLE : Fld := ⟨0x008, 0, 1⟩
abbrev COMMON_EVENT_COMMIT_DONE : Fld := ⟨0x010, 0, 1⟩
abbrev COMMON_EVENT_STATE_REJECT : Fld := ⟨0x010, 1, 1⟩
abbrev COMMON_EVENT_COMMIT_REJECT : Fld := ⟨0x010, 2, 1⟩
abbrev COMMON_EVENT_PWR_REFUSED : Fld := ⟨0x010, 3, 1⟩
abbrev COMMON_EVENT_EN : Fld := ⟨0x014, 0, 32⟩
abbrev COMMON_EVENT_TEST : Fld := ⟨0x018, 0, 32⟩
abbrev COMMON_COMMIT_REQ : Fld := ⟨0x01C, 0, 1⟩
abbrev COMMON_COMMIT_PENDING : Fld := ⟨0x01C, 1, 1⟩
abbrev COMMON_COMMIT_SOURCE : Fld := ⟨0x01C, 2, 2⟩
abbrev COMMON_PWR_REQ_REQ : Fld := ⟨0x024, 0, 2⟩
abbrev COMMON_PWR_REQ_STATUS : Fld := ⟨0x024, 2, 2⟩
abbrev COMMON_PWR_REQ_REFUSED : Fld := ⟨0x024, 4, 1⟩
/-! GLOBAL -/
abbrev GLOBAL_CTRL_ENABLE : Fld := ⟨0x008, 0, 1⟩
abbrev GLOBAL_STATE_MODE : Fld := ⟨0x00C, 0, 3⟩
abbrev GLOBAL_STATE_FACTORY : Fld := ⟨0x00C, 8, 1⟩
abbrev GLOBAL_STATE_TAKE : Fld := ⟨0x00C, 9, 1⟩
abbrev GLOBAL_STATE_FENCED : Fld := ⟨0x00C, 10, 1⟩
abbrev GLOBAL_EVENT_BUS_ERROR : Fld := ⟨0x010, 8, 1⟩
abbrev GLOBAL_EVENT_FACTORY_LOAD : Fld := ⟨0x010, 9, 1⟩
abbrev GLOBAL_COMMIT_REQ : Fld := ⟨0x01C, 0, 1⟩
abbrev GLOBAL_COMMIT_PENDING : Fld := ⟨0x01C, 1, 1⟩
abbrev GLOBAL_COMMIT_GROUPS : Fld := ⟨0x01C, 2, 4⟩
abbrev GLOBAL_COMMIT_LATE : Fld := ⟨0x01C, 8, 1⟩
abbrev GLOBAL_COMMIT_FULL : Fld := ⟨0x01C, 9, 1⟩
abbrev GLOBAL_COMMIT_NONE : Fld := ⟨0x01C, 10, 1⟩
abbrev GLOBAL_COMMIT_STOPPED : Fld := ⟨0x01C, 11, 1⟩
abbrev GLOBAL_DEVICE_ID_PART : Fld := ⟨0x040, 16, 16⟩
abbrev GLOBAL_DEVICE_ID_STEPPING : Fld := ⟨0x040, 0, 16⟩
abbrev GLOBAL_FW_BUILD : Fld := ⟨0x044, 0, 32⟩
abbrev GLOBAL_COMMIT_FRAME_LO : Fld := ⟨0x050, 0, 32⟩
abbrev GLOBAL_COMMIT_FRAME_HI : Fld := ⟨0x054, 0, 32⟩
abbrev GLOBAL_FRAME_NOW_LO : Fld := ⟨0x060, 0, 32⟩
abbrev GLOBAL_FRAME_NOW_HI : Fld := ⟨0x064, 0, 32⟩
abbrev GLOBAL_EVENT_SUMMARY (i : Nat) : Fld := ⟨0x080 + 0x4 * i, 0, 32⟩
abbrev GLOBAL_VEC_REARM : Fld := ⟨0x0A0, 0, 6⟩
abbrev GLOBAL_VEC_MAP (i : Nat) : Fld := ⟨0x100 + 0x4 * i, 0, 32⟩
abbrev GLOBAL_BUSERR_ADDR : Fld := ⟨0x200, 0, 22⟩
abbrev GLOBAL_BUSERR_INFO_SOURCE : Fld := ⟨0x204, 0, 2⟩
abbrev GLOBAL_BUSERR_INFO_WRITE : Fld := ⟨0x204, 2, 1⟩
abbrev GLOBAL_BUSERR_INFO_COUNT : Fld := ⟨0x204, 8, 16⟩
abbrev GLOBAL_SCRATCH : Fld := ⟨0x208, 0, 32⟩
abbrev GLOBAL_RESET_CAUSE : Fld := ⟨0x20C, 0, 4⟩
abbrev GLOBAL_RESET_CTRL_GO : Fld := ⟨0x210, 0, 1⟩
abbrev GLOBAL_RESET_CTRL_KEY : Fld := ⟨0x210, 16, 16⟩
/-! RSTORE -/
abbrev RSTORE_CTRL_ENABLE : Fld := ⟨0x008, 0, 1⟩
abbrev RSTORE_CTRL_SAVE : Fld := ⟨0x008, 1, 1⟩
abbrev RSTORE_CTRL_ERASE : Fld := ⟨0x008, 2, 1⟩
abbrev RSTORE_EVENT_SAVE_DONE : Fld := ⟨0x010, 4, 1⟩
abbrev RSTORE_EVENT_SAVE_FAIL : Fld := ⟨0x010, 5, 1⟩
abbrev RSTORE_EVENT_RESTORE_SKIP : Fld := ⟨0x010, 6, 1⟩
abbrev RSTORE_EVENT_SAVE_COALESCED : Fld := ⟨0x010, 7, 1⟩
abbrev RSTORE_SAVE_CFG_PERIOD : Fld := ⟨0x040, 0, 16⟩
abbrev RSTORE_SAVE_CFG_BOOT_MODE : Fld := ⟨0x040, 16, 2⟩
abbrev RSTORE_STATUS_BUSY : Fld := ⟨0x044, 0, 1⟩
abbrev RSTORE_STATUS_HELD : Fld := ⟨0x044, 1, 1⟩
abbrev RSTORE_STATUS_BANK0_VALID : Fld := ⟨0x044, 2, 1⟩
abbrev RSTORE_STATUS_BANK1_VALID : Fld := ⟨0x044, 3, 1⟩
abbrev RSTORE_STATUS_RESTORED : Fld := ⟨0x044, 4, 2⟩
abbrev RSTORE_SEQ_LO : Fld := ⟨0x048, 0, 32⟩
abbrev RSTORE_SEQ_HI : Fld := ⟨0x04C, 0, 32⟩
abbrev RSTORE_SKIP_COUNT : Fld := ⟨0x050, 0, 16⟩
abbrev RSTORE_SAVE_COUNT : Fld := ⟨0x054, 0, 32⟩
abbrev RSTORE_FAIL_COUNT : Fld := ⟨0x058, 0, 16⟩
/-! GUARD -/
abbrev GUARD_CTRL_ENABLE : Fld := ⟨0x008, 0, 1⟩
abbrev GUARD_CTRL_WIN_EN : Fld := ⟨0x008, 1, 1⟩
abbrev GUARD_EVENT_LOCK_VIOLATION : Fld := ⟨0x010, 4, 1⟩
abbrev GUARD_EVENT_FW_DENY : Fld := ⟨0x010, 5, 1⟩
abbrev GUARD_EVENT_WIN_DENY : Fld := ⟨0x010, 6, 1⟩
abbrev GUARD_EVENT_MEDIA_DENY : Fld := ⟨0x010, 7, 1⟩
abbrev GUARD_EVENT_MSIX_THROTTLE : Fld := ⟨0x010, 8, 1⟩
abbrev GUARD_LOCK : Fld := ⟨0x020, 0, 6⟩
abbrev GUARD_PRV_DENY_COUNT : Fld := ⟨0x040, 0, 32⟩
abbrev GUARD_LOCK_VIOL_COUNT : Fld := ⟨0x044, 0, 32⟩
abbrev GUARD_FW_DENY_COUNT : Fld := ⟨0x048, 0, 32⟩
abbrev GUARD_WIN_DENY_COUNT : Fld := ⟨0x04C, 0, 32⟩
abbrev GUARD_MEDIA_DENY_COUNT : Fld := ⟨0x050, 0, 32⟩
abbrev GUARD_SUPPLY_REQ_ONA : Fld := ⟨0x054, 0, 1⟩
abbrev GUARD_SUPPLY_REQ_ONB : Fld := ⟨0x054, 1, 1⟩
abbrev GUARD_SUPPLY_STATE_ENA : Fld := ⟨0x058, 0, 4⟩
abbrev GUARD_SUPPLY_STATE_ENB : Fld := ⟨0x058, 4, 4⟩
abbrev GUARD_TRIG_MIN_PERIOD : Fld := ⟨0x060, 0, 32⟩
abbrev GUARD_EXPO_DUTY : Fld := ⟨0x064, 0, 8⟩
abbrev GUARD_SWING_CAP_BC : Fld := ⟨0x068, 0, 5⟩
abbrev GUARD_SWING_CAP_SDI : Fld := ⟨0x068, 8, 5⟩
abbrev GUARD_MSIX_CAP_RATE : Fld := ⟨0x06C, 0, 16⟩
abbrev GUARD_MSIX_CAP_BURST : Fld := ⟨0x06C, 16, 8⟩
abbrev GUARD_POWER_LIMIT : Fld := ⟨0x070, 0, 16⟩
abbrev GUARD_SEQA_USED : Fld := ⟨0x074, 0, 4⟩
abbrev GUARD_SEQA_DELAY : Fld := ⟨0x074, 16, 16⟩
abbrev GUARD_SEQB_USED : Fld := ⟨0x078, 0, 4⟩
abbrev GUARD_SEQB_DELAY : Fld := ⟨0x078, 16, 16⟩
abbrev GUARD_WIN_BASE_LO_EN_PF0 (i : Nat) : Fld := ⟨0x080 + 0x10 * i, 0, 1⟩
abbrev GUARD_WIN_BASE_LO_EN_PF1 (i : Nat) : Fld := ⟨0x080 + 0x10 * i, 1, 1⟩
abbrev GUARD_WIN_BASE_LO_RDONLY (i : Nat) : Fld := ⟨0x080 + 0x10 * i, 2, 1⟩
abbrev GUARD_WIN_BASE_LO_BASE (i : Nat) : Fld := ⟨0x080 + 0x10 * i, 12, 20⟩
abbrev GUARD_WIN_BASE_HI (i : Nat) : Fld := ⟨0x084 + 0x10 * i, 0, 32⟩
abbrev GUARD_WIN_LIMIT_LO (i : Nat) : Fld := ⟨0x088 + 0x10 * i, 12, 20⟩
abbrev GUARD_WIN_LIMIT_HI (i : Nat) : Fld := ⟨0x08C + 0x10 * i, 0, 32⟩
/-! PWR -/
abbrev PWR_CTRL_ENABLE : Fld := ⟨0x008, 0, 1⟩
abbrev PWR_EVENT_REFUSAL : Fld := ⟨0x010, 4, 1⟩
abbrev PWR_EVENT_OVER_LIMIT : Fld := ⟨0x010, 5, 1⟩
abbrev PWR_EVENT_LIMIT_CLEAR : Fld := ⟨0x010, 6, 1⟩
abbrev PWR_CFG : Fld := ⟨0x040, 0, 16⟩
abbrev PWR_DOMAIN_ON (i : Nat) : Fld := ⟨0x044 + 0x4 * i, 0, 32⟩
abbrev PWR_DOMAIN_RET (i : Nat) : Fld := ⟨0x058 + 0x4 * i, 0, 32⟩
abbrev PWR_HELD : Fld := ⟨0x06C, 0, 8⟩
abbrev PWR_LAST_REFUSED_DOMAIN : Fld := ⟨0x070, 0, 8⟩
abbrev PWR_LAST_REFUSED_REQ : Fld := ⟨0x070, 8, 2⟩
abbrev PWR_MEASURED : Fld := ⟨0x074, 0, 16⟩
abbrev PWR_PEAK : Fld := ⟨0x078, 0, 16⟩
abbrev PWR_OVER_TIME : Fld := ⟨0x07C, 0, 32⟩
abbrev PWR_VCORE : Fld := ⟨0x080, 0, 10⟩
abbrev PWR_REFUSALS : Fld := ⟨0x084, 0, 32⟩
/-! THERM -/
abbrev THERM_CTRL_ENABLE : Fld := ⟨0x008, 0, 1⟩
abbrev THERM_STATE_LEVEL : Fld := ⟨0x00C, 0, 2⟩
abbrev THERM_STATE_STOPPING : Fld := ⟨0x00C, 3, 1⟩
abbrev THERM_STATE_DEGRADED : Fld := ⟨0x00C, 4, 1⟩
abbrev THERM_EVENT_WARN : Fld := ⟨0x010, 4, 1⟩
abbrev THERM_EVENT_CRIT : Fld := ⟨0x010, 5, 1⟩
abbrev THERM_EVENT_RISE : Fld := ⟨0x010, 6, 1⟩
abbrev THERM_EVENT_ORDERLY_STOP : Fld := ⟨0x010, 7, 1⟩
abbrev THERM_EVENT_NO_TIME : Fld := ⟨0x010, 8, 1⟩
abbrev THERM_EVENT_SENSOR_FAULT : Fld := ⟨0x010, 9, 1⟩
abbrev THERM_LOCK : Fld := ⟨0x020, 0, 1⟩
abbrev THERM_TJ : Fld := ⟨0x040, 0, 16⟩
abbrev THERM_RATE : Fld := ⟨0x044, 0, 16⟩
abbrev THERM_THRESH_WARN : Fld := ⟨0x048, 0, 8⟩
abbrev THERM_THRESH_CRIT : Fld := ⟨0x048, 8, 8⟩
abbrev THERM_THRESH_TRIP : Fld := ⟨0x048, 16, 8⟩
abbrev THERM_THRESH_HYST : Fld := ⟨0x048, 24, 4⟩
abbrev THERM_RISE_LIMIT : Fld := ⟨0x04C, 0, 16⟩
abbrev THERM_RISE_STOP_MARGIN : Fld := ⟨0x04C, 16, 16⟩
abbrev THERM_XCHK_DIFF : Fld := ⟨0x050, 0, 8⟩
abbrev THERM_XCHK_COUNT : Fld := ⟨0x050, 8, 4⟩
abbrev THERM_SENSOR_FAULT : Fld := ⟨0x054, 0, 16⟩
abbrev THERM_SENSOR (i : Nat) : Fld := ⟨0x060 + 0x4 * i, 0, 16⟩
abbrev THERM_MAX_TJ : Fld := ⟨0x0A0, 0, 16⟩
abbrev THERM_ABOVE_WARN : Fld := ⟨0x0A4, 0, 32⟩
abbrev THERM_STOPS : Fld := ⟨0x0A8, 0, 16⟩
/-! LANE -/
abbrev LANE_CTRL_ENABLE : Fld := ⟨0x008, 0, 1⟩
abbrev LANE_EVENT_LOS : Fld := ⟨0x010, 4, 1⟩
abbrev LANE_EVENT_CDR_LOST : Fld := ⟨0x010, 5, 1⟩
abbrev LANE_EVENT_BLOCK_LOCK_LOST : Fld := ⟨0x010, 6, 1⟩
abbrev LANE_EVENT_CHK_ERR : Fld := ⟨0x010, 7, 1⟩
abbrev LANE_EVENT_CHK_SYNC_LOST : Fld := ⟨0x010, 8, 1⟩
abbrev LANE_RX_CFG_POL_INVERT : Fld := ⟨0x040, 0, 1⟩
abbrev LANE_RX_CFG_SLIP : Fld := ⟨0x040, 1, 7⟩
abbrev LANE_RX_STATUS_LOS : Fld := ⟨0x044, 0, 1⟩
abbrev LANE_RX_STATUS_CDR_LOCK : Fld := ⟨0x044, 1, 1⟩
abbrev LANE_RX_STATUS_BLOCK_LOCK : Fld := ⟨0x044, 2, 1⟩
abbrev LANE_RX_STATUS_TRAIN_SEEN : Fld := ⟨0x044, 3, 1⟩
abbrev LANE_RX_STATUS_INVERTED_SEEN : Fld := ⟨0x044, 4, 1⟩
abbrev LANE_RX_STATUS_HDR_RUN : Fld := ⟨0x044, 8, 8⟩
abbrev LANE_RX_STATUS_LANE_ID : Fld := ⟨0x044, 16, 4⟩
abbrev LANE_RX_STATUS_PORT_ID : Fld := ⟨0x044, 20, 1⟩
abbrev LANE_DFE_A_TAP1 : Fld := ⟨0x048, 0, 8⟩
abbrev LANE_DFE_A_TAP2 : Fld := ⟨0x048, 8, 8⟩
abbrev LANE_DFE_A_TAP3 : Fld := ⟨0x048, 16, 8⟩
abbrev LANE_DFE_A_TAP4 : Fld := ⟨0x048, 24, 8⟩
abbrev LANE_DFE_B : Fld := ⟨0x04C, 0, 8⟩
abbrev LANE_TX_EQ_PRE : Fld := ⟨0x050, 0, 4⟩
abbrev LANE_TX_EQ_POST : Fld := ⟨0x050, 4, 4⟩
abbrev LANE_TX_SWING : Fld := ⟨0x054, 0, 5⟩
abbrev LANE_TEST_CTRL_PATTERN : Fld := ⟨0x060, 0, 3⟩
abbrev LANE_TEST_CTRL_GEN_EN : Fld := ⟨0x060, 3, 1⟩
abbrev LANE_TEST_CTRL_CHK_EN : Fld := ⟨0x060, 4, 1⟩
abbrev LANE_TEST_CTRL_LOOP : Fld := ⟨0x060, 5, 2⟩
abbrev LANE_TEST_CTRL_INJECT_ONE : Fld := ⟨0x060, 7, 1⟩
abbrev LANE_TEST_CTRL_INJECT_RATE : Fld := ⟨0x060, 8, 5⟩
abbrev LANE_TEST_STATUS : Fld := ⟨0x064, 0, 1⟩
abbrev LANE_USER_PAT_LO : Fld := ⟨0x068, 0, 32⟩
abbrev LANE_USER_PAT_HI : Fld := ⟨0x06C, 0, 32⟩
abbrev LANE_ERR_COUNT : Fld := ⟨0x070, 0, 32⟩
abbrev LANE_BIT_COUNT_LO : Fld := ⟨0x074, 0, 32⟩
abbrev LANE_BIT_COUNT_HI : Fld := ⟨0x078, 0, 32⟩
abbrev LANE_LOS_COUNT : Fld := ⟨0x07C, 0, 16⟩
abbrev LANE_LOL_COUNT : Fld := ⟨0x080, 0, 16⟩
/-! LINK -/
abbrev LINK_CTRL_ENABLE : Fld := ⟨0x008, 0, 1⟩
abbrev LINK_CTRL_GANG : Fld := ⟨0x008, 1, 1⟩
abbrev LINK_CTRL_EQ_MODE : Fld := ⟨0x008, 2, 1⟩
abbrev LINK_CTRL_SLIP_OWNER : Fld := ⟨0x008, 3, 1⟩
abbrev LINK_CTRL_FALLBACK_EN : Fld := ⟨0x008, 4, 1⟩
abbrev LINK_CTRL_TRAIN : Fld := ⟨0x008, 5, 1⟩
abbrev LINK_STATE_PORT : Fld := ⟨0x00C, 0, 3⟩
abbrev LINK_STATE_LANES_LIVE : Fld := ⟨0x00C, 8, 5⟩
abbrev LINK_EVENT_LINK_UP : Fld := ⟨0x010, 4, 1⟩
abbrev LINK_EVENT_LINK_DOWN : Fld := ⟨0x010, 5, 1⟩
abbrev LINK_EVENT_TRAIN_FAIL : Fld := ⟨0x010, 6, 1⟩
abbrev LINK_EVENT_LANEMAP_ERR : Fld := ⟨0x010, 7, 1⟩
abbrev LINK_EVENT_SKEW_ERR : Fld := ⟨0x010, 8, 1⟩
abbrev LINK_EVENT_LANE_LOSS : Fld := ⟨0x010, 9, 1⟩
abbrev LINK_EVENT_LANE_RELOCK : Fld := ⟨0x010, 10, 1⟩
abbrev LINK_EVENT_ALIGN_NEEDED : Fld := ⟨0x010, 11, 1⟩
abbrev LINK_EVENT_LANE_FALLBACK : Fld := ⟨0x010, 12, 1⟩
abbrev LINK_EVENT_FALLBACK_CANCEL : Fld := ⟨0x010, 13, 1⟩
abbrev LINK_EVENT_FRAME_DEGRADED : Fld := ⟨0x010, 14, 1⟩
abbrev LINK_EVENT_PKT_DISCARD : Fld := ⟨0x010, 15, 1⟩
abbrev LINK_EVENT_BC_FAIL : Fld := ⟨0x010, 16, 1⟩
abbrev LINK_EVENT_PARAM_LATE : Fld := ⟨0x010, 17, 1⟩
abbrev LINK_EVENT_FRAME_SEQ : Fld := ⟨0x010, 18, 1⟩
abbrev LINK_EVENT_SENSOR_MSG : Fld := ⟨0x010, 19, 1⟩
abbrev LINK_CFG_LANES : Fld := ⟨0x040, 0, 5⟩
abbrev LINK_CFG_RATE : Fld := ⟨0x040, 5, 1⟩
abbrev LINK_CFG_DEPTH : Fld := ⟨0x040, 6, 2⟩
abbrev LINK_CFG_DUAL_GAIN : Fld := ⟨0x040, 8, 1⟩
abbrev LINK_CFG_CONCEAL_HPER : Fld := ⟨0x040, 9, 1⟩
abbrev LINK_DEGRADE_CFG : Fld := ⟨0x044, 0, 8⟩
abbrev LINK_TIMING_HB_PERIOD : Fld := ⟨0x048, 0, 16⟩
abbrev LINK_TIMING_HB_TIMEOUT : Fld := ⟨0x048, 16, 16⟩
abbrev LINK_TRAIN_CFG : Fld := ⟨0x04C, 0, 8⟩
abbrev LINK_PREEMPH_PRE : Fld := ⟨0x050, 0, 4⟩
abbrev LINK_PREEMPH_POST : Fld := ⟨0x050, 4, 4⟩
abbrev LINK_LANEMAP0 : Fld := ⟨0x054, 0, 32⟩
abbrev LINK_LANEMAP1 : Fld := ⟨0x058, 0, 32⟩
abbrev LINK_LANE_STATUS_LOCK : Fld := ⟨0x05C, 0, 16⟩
abbrev LINK_LANE_STATUS_LOS : Fld := ⟨0x05C, 16, 16⟩
abbrev LINK_FALLBACK_OK : Fld := ⟨0x060, 0, 1⟩
abbrev LINK_FALLBACK_DONE : Fld := ⟨0x060, 1, 1⟩
abbrev LINK_FALLBACK_RETIRED : Fld := ⟨0x060, 4, 4⟩
abbrev LINK_FALLBACK_LOSS_FRAMES : Fld := ⟨0x060, 8, 8⟩
abbrev LINK_SKEW : Fld := ⟨0x064, 0, 6⟩
abbrev LINK_CONCEAL_LINES : Fld := ⟨0x068, 0, 32⟩
abbrev LINK_LOST_LINES : Fld := ⟨0x06C, 0, 32⟩
abbrev LINK_PKT_DISCARDS : Fld := ⟨0x070, 0, 32⟩
abbrev LINK_DEGRADED_FRAMES : Fld := ⟨0x074, 0, 32⟩
abbrev LINK_SENSOR_CAPS_FALLBACK : Fld := ⟨0x078, 0, 1⟩
abbrev LINK_SENSOR_CAPS_PREEMPH : Fld := ⟨0x078, 1, 1⟩
abbrev LINK_BC_ADDR : Fld := ⟨0x080, 0, 32⟩
abbrev LINK_BC_DATA : Fld := ⟨0x084, 0, 32⟩
abbrev LINK_BC_CTRL_OP : Fld := ⟨0x088, 0, 1⟩
abbrev LINK_BC_CTRL_GO : Fld := ⟨0x088, 1, 1⟩
abbrev LINK_BC_CTRL_BUSY : Fld := ⟨0x088, 2, 1⟩
abbrev LINK_BC_CTRL_RESULT : Fld := ⟨0x088, 3, 2⟩
abbrev LINK_BC_RDATA : Fld := ⟨0x08C, 0, 32⟩
abbrev LINK_FWR_ADDR (i : Nat) : Fld := ⟨0x400 + 0x8 * i, 0, 32⟩
abbrev LINK_FWR_DATA (i : Nat) : Fld := ⟨0x404 + 0x8 * i, 0, 32⟩
abbrev LINK_FWR_COUNT : Fld := ⟨0x480, 0, 5⟩
/-! INGRESS -/
abbrev INGRESS_CTRL_ENABLE : Fld := ⟨0x008, 0, 1⟩
abbrev INGRESS_STATE_PHASE : Fld := ⟨0x00C, 0, 2⟩
abbrev INGRESS_STATE_FREE_SLOTS : Fld := ⟨0x00C, 8, 5⟩
abbrev INGRESS_STATE_CATCHUP : Fld := ⟨0x00C, 16, 1⟩
abbrev INGRESS_EVENT_FRAME_DROP : Fld := ⟨0x010, 4, 1⟩
abbrev INGRESS_EVENT_FRAME_SHORT : Fld := ⟨0x010, 5, 1⟩
abbrev INGRESS_EVENT_PAIR_MISSING : Fld := ⟨0x010, 6, 1⟩
abbrev INGRESS_EVENT_PAIR_DISCARD : Fld := ⟨0x010, 7, 1⟩
abbrev INGRESS_EVENT_FORMAT_ERR : Fld := ⟨0x010, 8, 1⟩
abbrev INGRESS_EVENT_CFG_ERR : Fld := ⟨0x010, 9, 1⟩
abbrev INGRESS_EVENT_MERGE_SAT : Fld := ⟨0x010, 10, 1⟩
abbrev INGRESS_EVENT_CATCHUP_DONE : Fld := ⟨0x010, 11, 1⟩
abbrev INGRESS_CFG_SOURCE : Fld := ⟨0x040, 0, 2⟩
abbrev INGRESS_CFG_DG_MODE : Fld := ⟨0x040, 2, 2⟩
abbrev INGRESS_CFG_CFA_MODE : Fld := ⟨0x040, 4, 1⟩
abbrev INGRESS_CFG_CFA_MAP : Fld := ⟨0x040, 8, 8⟩
abbrev INGRESS_CFG_DGMAP_EN : Fld := ⟨0x040, 16, 1⟩
abbrev INGRESS_WINA_XY_X : Fld := ⟨0x044, 0, 16⟩
abbrev INGRESS_WINA_XY_Y : Fld := ⟨0x044, 16, 16⟩
abbrev INGRESS_WINA_WH_W : Fld := ⟨0x048, 0, 16⟩
abbrev INGRESS_WINA_WH_H : Fld := ⟨0x048, 16, 16⟩
abbrev INGRESS_WINB_XY_X : Fld := ⟨0x04C, 0, 16⟩
abbrev INGRESS_WINB_XY_Y : Fld := ⟨0x04C, 16, 16⟩
abbrev INGRESS_WINB_WH_W : Fld := ⟨0x050, 0, 16⟩
abbrev INGRESS_WINB_WH_H : Fld := ⟨0x050, 16, 16⟩
abbrev INGRESS_RING_CFG_SLOTS : Fld := ⟨0x054, 0, 5⟩
abbrev INGRESS_RING_CFG_PREROLL_FRAMES : Fld := ⟨0x054, 16, 16⟩
abbrev INGRESS_RING_BASE_LO : Fld := ⟨0x058, 21, 11⟩
abbrev INGRESS_RING_BASE_HI : Fld := ⟨0x05C, 0, 32⟩
abbrev INGRESS_DGMAP_BASE_LO : Fld := ⟨0x060, 12, 20⟩
abbrev INGRESS_DGMAP_BASE_HI : Fld := ⟨0x064, 0, 32⟩
abbrev INGRESS_PAIR_CFG : Fld := ⟨0x068, 0, 8⟩
abbrev INGRESS_TIMING : Fld := ⟨0x06C, 0, 16⟩
abbrev INGRESS_SLOT_SIZE : Fld := ⟨0x070, 0, 24⟩
abbrev INGRESS_LINE_STRIDE : Fld := ⟨0x074, 0, 16⟩
abbrev INGRESS_DEPTH_STORED : Fld := ⟨0x078, 0, 5⟩
abbrev INGRESS_LAST_FRAME_LO : Fld := ⟨0x080, 0, 32⟩
abbrev INGRESS_LAST_FRAME_HI : Fld := ⟨0x084, 0, 32⟩
abbrev INGRESS_LAST_FLAGS : Fld := ⟨0x088, 0, 16⟩
abbrev INGRESS_DROPPED_FRAMES : Fld := ⟨0x08C, 0, 32⟩
abbrev INGRESS_PAIR_DISCARDS : Fld := ⟨0x090, 0, 32⟩
abbrev INGRESS_CATCHUP_LEFT : Fld := ⟨0x094, 0, 16⟩
abbrev INGRESS_SAT_COUNT : Fld := ⟨0x098, 0, 32⟩
abbrev INGRESS_STOP_DISCARDS : Fld := ⟨0x09C, 0, 32⟩
abbrev INGRESS_DG_BLACK_BLK_H : Fld := ⟨0x400, 0, 16⟩
abbrev INGRESS_DG_BLACK_BLK_L : Fld := ⟨0x400, 16, 16⟩
abbrev INGRESS_DG_KNEE_KNEE_LO : Fld := ⟨0x404, 0, 16⟩
abbrev INGRESS_DG_KNEE_KNEE_SHIFT : Fld := ⟨0x404, 16, 4⟩
abbrev INGRESS_DG_SAT : Fld := ⟨0x408, 0, 16⟩
abbrev INGRESS_DG_PED : Fld := ⟨0x40C, 0, 20⟩
abbrev INGRESS_DG_GAIN (i : Nat) : Fld := ⟨0x410 + 0x4 * i, 0, 16⟩
/-! PRISM_FE -/
abbrev PRISM_FE_CTRL_ENABLE : Fld := ⟨0x008, 0, 1⟩
abbrev PRISM_FE_STATE_PHASE : Fld := ⟨0x00C, 0, 2⟩
abbrev PRISM_FE_EVENT_MAP_ORDER : Fld := ⟨0x010, 4, 1⟩
abbrev PRISM_FE_EVENT_DEFECT_TRUNC : Fld := ⟨0x010, 5, 1⟩
abbrev PRISM_FE_EVENT_UNRESOLVED : Fld := ⟨0x010, 6, 1⟩
abbrev PRISM_FE_EVENT_SLOT_ERR : Fld := ⟨0x010, 7, 1⟩
abbrev PRISM_FE_EVENT_PF_SAT : Fld := ⟨0x010, 8, 1⟩
abbrev PRISM_FE_EVENT_LOST_FILL_EVENT : Fld := ⟨0x010, 9, 1⟩
abbrev PRISM_FE_EVENT_CFG_ERR : Fld := ⟨0x010, 10, 1⟩
abbrev PRISM_FE_DEFECT_MAX : Fld := ⟨0x040, 0, 21⟩
abbrev PRISM_FE_LAST_FRAME_LO : Fld := ⟨0x044, 0, 32⟩
abbrev PRISM_FE_LAST_FRAME_HI : Fld := ⟨0x048, 0, 32⟩
abbrev PRISM_FE_DEFECT_UNRESOLVED : Fld := ⟨0x04C, 0, 32⟩
abbrev PRISM_FE_MAP_ERRORS : Fld := ⟨0x050, 0, 32⟩
abbrev PRISM_FE_LOST_FILLED : Fld := ⟨0x054, 0, 32⟩
abbrev PRISM_FE_PF_SAT : Fld := ⟨0x058, 0, 32⟩
abbrev PRISM_FE_STAGES_BLACK_EN : Fld := ⟨0x400, 0, 1⟩
abbrev PRISM_FE_STAGES_DEFECT_EN : Fld := ⟨0x400, 1, 1⟩
abbrev PRISM_FE_STAGES_FPN_EN : Fld := ⟨0x400, 2, 1⟩
abbrev PRISM_FE_STAGES_SHADE_EN : Fld := ⟨0x400, 3, 1⟩
abbrev PRISM_FE_STAGES_LOST_FILL : Fld := ⟨0x400, 4, 1⟩
abbrev PRISM_FE_STAGES_HL_CLIP_EN : Fld := ⟨0x400, 5, 1⟩
abbrev PRISM_FE_STAGES_MATRIX_EN : Fld := ⟨0x400, 6, 1⟩
abbrev PRISM_FE_BLACK (i : Nat) : Fld := ⟨0x404 + 0x4 * i, 0, 20⟩
abbrev PRISM_FE_DEFECT_BASE_LO : Fld := ⟨0x414, 2, 30⟩
abbrev PRISM_FE_DEFECT_BASE_HI : Fld := ⟨0x418, 0, 32⟩
abbrev PRISM_FE_DEFECT_COUNT : Fld := ⟨0x41C, 0, 21⟩
abbrev PRISM_FE_FPN_COL_LO : Fld := ⟨0x420, 6, 26⟩
abbrev PRISM_FE_FPN_COL_HI : Fld := ⟨0x424, 0, 32⟩
abbrev PRISM_FE_FPN_ROW_LO : Fld := ⟨0x428, 6, 26⟩
abbrev PRISM_FE_FPN_ROW_HI : Fld := ⟨0x42C, 0, 32⟩
abbrev PRISM_FE_SHADE_SLOT : Fld := ⟨0x430, 0, 6⟩
abbrev PRISM_FE_WB_GAIN_R : Fld := ⟨0x434, 0, 20⟩
abbrev PRISM_FE_WB_GAIN_G : Fld := ⟨0x438, 0, 20⟩
abbrev PRISM_FE_WB_GAIN_B : Fld := ⟨0x43C, 0, 20⟩
abbrev PRISM_FE_HL_LEVEL : Fld := ⟨0x440, 0, 24⟩
abbrev PRISM_FE_CAM_M (i : Nat) : Fld := ⟨0x444 + 0x4 * i, 0, 20⟩
/-! PRISM_BE -/
abbrev PRISM_BE_CTRL_ENABLE : Fld := ⟨0x008, 0, 1⟩
abbrev PRISM_BE_STATE_PHASE : Fld := ⟨0x00C, 0, 2⟩
abbrev PRISM_BE_EVENT_SLOT_ERR : Fld := ⟨0x010, 4, 1⟩
abbrev PRISM_BE_EVENT_CFG_ERR : Fld := ⟨0x010, 5, 1⟩
abbrev PRISM_BE_EVENT_CLIP : Fld := ⟨0x010, 6, 1⟩
abbrev PRISM_BE_OUT_CFG_CHROMA : Fld := ⟨0x040, 0, 2⟩
abbrev PRISM_BE_OUT_CFG_DEPTH : Fld := ⟨0x040, 2, 2⟩
abbrev PRISM_BE_OUT_CFG_RANGE : Fld := ⟨0x040, 4, 1⟩
abbrev PRISM_BE_OUT_CFG_YCC : Fld := ⟨0x040, 5, 2⟩
abbrev PRISM_BE_OUT_CFG_TRANSFER : Fld := ⟨0x040, 7, 3⟩
abbrev PRISM_BE_OUT_CFG_VSITE : Fld := ⟨0x040, 10, 1⟩
abbrev PRISM_BE_LAST_FRAME_LO : Fld := ⟨0x044, 0, 32⟩
abbrev PRISM_BE_LAST_FRAME_HI : Fld := ⟨0x048, 0, 32⟩
abbrev PRISM_BE_CLIP_LO_COUNT : Fld := ⟨0x04C, 0, 32⟩
abbrev PRISM_BE_CLIP_HI_COUNT : Fld := ⟨0x050, 0, 32⟩
abbrev PRISM_BE_SLOT_ERR_FRAMES : Fld := ⟨0x054, 0, 32⟩
abbrev PRISM_BE_STAGES_MATRIX_EN : Fld := ⟨0x400, 0, 1⟩
abbrev PRISM_BE_STAGES_PRECURVE_EN : Fld := ⟨0x400, 1, 1⟩
abbrev PRISM_BE_STAGES_LUT_EN : Fld := ⟨0x400, 2, 1⟩
abbrev PRISM_BE_STAGES_TONE_EN : Fld := ⟨0x400, 3, 1⟩
abbrev PRISM_BE_M (i : Nat) : Fld := ⟨0x404 + 0x4 * i, 0, 20⟩
abbrev PRISM_BE_OFF_R : Fld := ⟨0x428, 0, 24⟩
abbrev PRISM_BE_OFF_G : Fld := ⟨0x42C, 0, 24⟩
abbrev PRISM_BE_OFF_B : Fld := ⟨0x430, 0, 24⟩
abbrev PRISM_BE_PRECURVE_SLOT_SLOT : Fld := ⟨0x434, 0, 6⟩
abbrev PRISM_BE_PRECURVE_SLOT_FMT : Fld := ⟨0x434, 8, 1⟩
abbrev PRISM_BE_LUT_SLOT_SLOT : Fld := ⟨0x438, 0, 6⟩
abbrev PRISM_BE_LUT_SLOT_FMT : Fld := ⟨0x438, 8, 1⟩
abbrev PRISM_BE_TONE_SLOT_SLOT : Fld := ⟨0x43C, 0, 6⟩
abbrev PRISM_BE_TONE_SLOT_FMT : Fld := ⟨0x43C, 8, 1⟩
abbrev PRISM_BE_PRECURVE_BASE : Fld := ⟨0x440, 0, 8⟩
abbrev PRISM_BE_PQ_NITS : Fld := ⟨0x444, 0, 14⟩
/-! FSTORE -/
abbrev FSTORE_CTRL_ENABLE : Fld := ⟨0x008, 0, 1⟩
abbrev FSTORE_EVENT_LOAD_DONE : Fld := ⟨0x010, 4, 1⟩
abbrev FSTORE_EVENT_LOAD_ERR : Fld := ⟨0x010, 5, 1⟩
abbrev FSTORE_EVENT_LAYOUT_FULL : Fld := ⟨0x010, 6, 1⟩
abbrev FSTORE_EVENT_SLOT_FREED : Fld := ⟨0x010, 7, 1⟩
abbrev FSTORE_EVENT_SLOT_NOT_READY : Fld := ⟨0x010, 8, 1⟩
abbrev FSTORE_LAYOUT_USED : Fld := ⟨0x040, 0, 9⟩
abbrev FSTORE_LAYOUT_DEMAND : Fld := ⟨0x040, 16, 12⟩
abbrev FSTORE_BUSY_LO : Fld := ⟨0x044, 0, 32⟩
abbrev FSTORE_BUSY_HI : Fld := ⟨0x048, 0, 32⟩
abbrev FSTORE_READY_LO : Fld := ⟨0x04C, 0, 32⟩
abbrev FSTORE_READY_HI : Fld := ⟨0x050, 0, 32⟩
abbrev FSTORE_LOAD_SRC_LO : Fld := ⟨0x060, 6, 26⟩
abbrev FSTORE_LOAD_SRC_HI : Fld := ⟨0x064, 0, 32⟩
abbrev FSTORE_LOAD_CTRL_SLOT : Fld := ⟨0x068, 0, 6⟩
abbrev FSTORE_LOAD_CTRL_GO : Fld := ⟨0x068, 8, 1⟩
abbrev FSTORE_LOAD_CTRL_BUSY : Fld := ⟨0x068, 9, 1⟩
abbrev FSTORE_LOAD_CTRL_RESULT : Fld := ⟨0x068, 12, 4⟩
abbrev FSTORE_SLOT_CFG_KIND (i : Nat) : Fld := ⟨0x100 + 0x4 * i, 0, 3⟩
abbrev FSTORE_SLOT_CFG_BASE (i : Nat) : Fld := ⟨0x100 + 0x4 * i, 8, 8⟩
abbrev FSTORE_SLOT_CFG_PLACED (i : Nat) : Fld := ⟨0x100 + 0x4 * i, 16, 1⟩
abbrev FSTORE_SLOT_STATUS_STATE (i : Nat) : Fld := ⟨0x200 + 0x8 * i, 0, 2⟩
abbrev FSTORE_SLOT_STATUS_FMT (i : Nat) : Fld := ⟨0x200 + 0x8 * i, 2, 1⟩
abbrev FSTORE_SLOT_STATUS_BUSY (i : Nat) : Fld := ⟨0x200 + 0x8 * i, 3, 1⟩
abbrev FSTORE_SLOT_CRC (i : Nat) : Fld := ⟨0x204 + 0x8 * i, 0, 32⟩
/-! SPLIT -/
abbrev SPLIT_CTRL_ENABLE : Fld := ⟨0x008, 0, 1⟩
abbrev SPLIT_EVENT_CROP_ERR : Fld := ⟨0x010, 4, 1⟩
abbrev SPLIT_EVENT_STALL : Fld := ⟨0x010, 5, 1⟩
abbrev SPLIT_EVENT_CFG_ERR : Fld := ⟨0x010, 6, 1⟩
abbrev SPLIT_REND_CFG (i : Nat) : Fld := ⟨0x040 + 0x20 * i, 0, 1⟩
abbrev SPLIT_OUT_SIZE_W (i : Nat) : Fld := ⟨0x044 + 0x20 * i, 0, 16⟩
abbrev SPLIT_OUT_SIZE_H (i : Nat) : Fld := ⟨0x044 + 0x20 * i, 16, 16⟩
abbrev SPLIT_BUF_BASE_LO (i : Nat) : Fld := ⟨0x048 + 0x20 * i, 12, 20⟩
abbrev SPLIT_BUF_BASE_HI (i : Nat) : Fld := ⟨0x04C + 0x20 * i, 0, 32⟩
abbrev SPLIT_BUF_CFG (i : Nat) : Fld := ⟨0x050 + 0x20 * i, 0, 5⟩
abbrev SPLIT_BUF_SIZE (i : Nat) : Fld := ⟨0x054 + 0x20 * i, 0, 24⟩
abbrev SPLIT_STALL_COUNT (i : Nat) : Fld := ⟨0x058 + 0x20 * i, 0, 32⟩
abbrev SPLIT_SCALE_INFO_KH (i : Nat) : Fld := ⟨0x05C + 0x20 * i, 0, 2⟩
abbrev SPLIT_SCALE_INFO_KV (i : Nat) : Fld := ⟨0x05C + 0x20 * i, 2, 2⟩
abbrev SPLIT_SCALE_INFO_BANK_H (i : Nat) : Fld := ⟨0x05C + 0x20 * i, 4, 3⟩
abbrev SPLIT_SCALE_INFO_BANK_V (i : Nat) : Fld := ⟨0x05C + 0x20 * i, 8, 3⟩
abbrev SPLIT_CROP_XY_X (i : Nat) : Fld := ⟨0x400 + 0x8 * i, 0, 16⟩
abbrev SPLIT_CROP_XY_Y (i : Nat) : Fld := ⟨0x400 + 0x8 * i, 16, 16⟩
abbrev SPLIT_CROP_WH_W (i : Nat) : Fld := ⟨0x404 + 0x8 * i, 0, 16⟩
abbrev SPLIT_CROP_WH_H (i : Nat) : Fld := ⟨0x404 + 0x8 * i, 16, 16⟩
/-! DRAW -/
abbrev DRAW_CTRL_ENABLE : Fld := ⟨0x008, 0, 1⟩
abbrev DRAW_STATE_PHASE : Fld := ⟨0x00C, 0, 2⟩
abbrev DRAW_STATE_COLUMNS : Fld := ⟨0x00C, 8, 7⟩
abbrev DRAW_EVENT_FAULT : Fld := ⟨0x010, 4, 1⟩
abbrev DRAW_ASSIGN_LO : Fld := ⟨0x040, 0, 32⟩
abbrev DRAW_ASSIGN_HI : Fld := ⟨0x044, 0, 32⟩
abbrev DRAW_LOAD : Fld := ⟨0x048, 0, 16⟩
abbrev DRAW_TILES_DONE : Fld := ⟨0x04C, 0, 32⟩
/-! DRAWCTL -/
abbrev DRAWCTL_CTRL_ENABLE : Fld := ⟨0x008, 0, 1⟩
abbrev DRAWCTL_STATE_PHASE : Fld := ⟨0x00C, 0, 2⟩
abbrev DRAWCTL_EVENT_FLOOR : Fld := ⟨0x010, 4, 1⟩
abbrev DRAWCTL_EVENT_RAW_TILE : Fld := ⟨0x010, 5, 1⟩
abbrev DRAWCTL_EVENT_CORE_FAULT : Fld := ⟨0x010, 6, 1⟩
abbrev DRAWCTL_EVENT_REASSIGN : Fld := ⟨0x010, 7, 1⟩
abbrev DRAWCTL_EVENT_CFG_ERR : Fld := ⟨0x010, 8, 1⟩
abbrev DRAWCTL_EVENT_REC_STALL : Fld := ⟨0x010, 9, 1⟩
abbrev DRAWCTL_CFG_MODE : Fld := ⟨0x040, 0, 1⟩
abbrev DRAWCTL_CFG_QUALITY : Fld := ⟨0x040, 8, 5⟩
abbrev DRAWCTL_CFG_PLAN : Fld := ⟨0x040, 16, 8⟩
abbrev DRAWCTL_RATE_QP_INIT : Fld := ⟨0x044, 0, 5⟩
abbrev DRAWCTL_RATE_QP_MIN : Fld := ⟨0x044, 8, 5⟩
abbrev DRAWCTL_CORE_EN : Fld := ⟨0x048, 0, 16⟩
abbrev DRAWCTL_REC_BASE_LO : Fld := ⟨0x04C, 12, 20⟩
abbrev DRAWCTL_REC_BASE_HI : Fld := ⟨0x050, 0, 32⟩
abbrev DRAWCTL_REC_CFG : Fld := ⟨0x054, 0, 5⟩
abbrev DRAWCTL_REC_SIZE : Fld := ⟨0x058, 0, 24⟩
abbrev DRAWCTL_TILES_COUNT : Fld := ⟨0x05C, 0, 10⟩
abbrev DRAWCTL_TILES_TX : Fld := ⟨0x05C, 16, 6⟩
abbrev DRAWCTL_TILES_TY : Fld := ⟨0x05C, 24, 5⟩
abbrev DRAWCTL_LAST_FRAME_LO : Fld := ⟨0x060, 0, 32⟩
abbrev DRAWCTL_LAST_FRAME_HI : Fld := ⟨0x064, 0, 32⟩
abbrev DRAWCTL_LAST_BYTES : Fld := ⟨0x068, 0, 32⟩
abbrev DRAWCTL_CEILING : Fld := ⟨0x06C, 0, 32⟩
abbrev DRAWCTL_FLOOR_TILES : Fld := ⟨0x070, 0, 32⟩
abbrev DRAWCTL_RAW_TILES : Fld := ⟨0x074, 0, 32⟩
abbrev DRAWCTL_FAULT : Fld := ⟨0x078, 0, 16⟩
abbrev DRAWCTL_STALLS : Fld := ⟨0x07C, 0, 32⟩
/-! HENC -/
abbrev HENC_CTRL_ENABLE : Fld := ⟨0x008, 0, 1⟩
abbrev HENC_STATE_PHASE : Fld := ⟨0x00C, 0, 2⟩
abbrev HENC_STATE_FAULT : Fld := ⟨0x00C, 2, 1⟩
abbrev HENC_STATE_STREAM : Fld := ⟨0x00C, 4, 3⟩
abbrev HENC_EVENT_FLOOR : Fld := ⟨0x010, 4, 1⟩
abbrev HENC_EVENT_CORE_FAULT : Fld := ⟨0x010, 5, 1⟩
abbrev HENC_EVENT_REASSIGN : Fld := ⟨0x010, 6, 1⟩
abbrev HENC_EVENT_CFG_ERR : Fld := ⟨0x010, 7, 1⟩
abbrev HENC_EVENT_ES_STALL : Fld := ⟨0x010, 8, 1⟩
abbrev HENC_CFG_ROLE : Fld := ⟨0x040, 0, 2⟩
abbrev HENC_CFG_LEAD : Fld := ⟨0x040, 4, 3⟩
abbrev HENC_CFG_REND : Fld := ⟨0x040, 8, 3⟩
abbrev HENC_CFG_PROFILE : Fld := ⟨0x040, 12, 2⟩
abbrev HENC_CFG_TIER : Fld := ⟨0x040, 14, 1⟩
abbrev HENC_CFG_LEVEL : Fld := ⟨0x040, 16, 8⟩
abbrev HENC_GOP_STRUCT : Fld := ⟨0x044, 0, 2⟩
abbrev HENC_GOP_NUM_REF : Fld := ⟨0x044, 2, 2⟩
abbrev HENC_GOP_IRAP_TYPE : Fld := ⟨0x044, 4, 1⟩
abbrev HENC_GOP_INTRA_PERIOD : Fld := ⟨0x044, 8, 24⟩
abbrev HENC_LAYOUT_TILE_COLS : Fld := ⟨0x048, 0, 5⟩
abbrev HENC_LAYOUT_TILE_ROWS : Fld := ⟨0x048, 8, 5⟩
abbrev HENC_LAYOUT_WPP : Fld := ⟨0x048, 16, 1⟩
abbrev HENC_COLOUR : Fld := ⟨0x04C, 0, 8⟩
abbrev HENC_ES_BASE_LO : Fld := ⟨0x050, 12, 20⟩
abbrev HENC_ES_BASE_HI : Fld := ⟨0x054, 0, 32⟩
abbrev HENC_ES_CFG : Fld := ⟨0x058, 0, 5⟩
abbrev HENC_ES_CAP : Fld := ⟨0x05C, 0, 32⟩
abbrev HENC_ES_SIZE : Fld := ⟨0x060, 0, 24⟩
abbrev HENC_LAST_FRAME_LO : Fld := ⟨0x064, 0, 32⟩
abbrev HENC_LAST_FRAME_HI : Fld := ⟨0x068, 0, 32⟩
abbrev HENC_LAST_BYTES : Fld := ⟨0x06C, 0, 32⟩
abbrev HENC_FLOOR_UNITS : Fld := ⟨0x070, 0, 32⟩
abbrev HENC_STALLS : Fld := ⟨0x074, 0, 32⟩
abbrev HENC_LOAD : Fld := ⟨0x078, 0, 16⟩
abbrev HENC_UNITS : Fld := ⟨0x07C, 0, 16⟩
/-! IRIS -/
abbrev IRIS_CTRL_ENABLE : Fld := ⟨0x008, 0, 1⟩
abbrev IRIS_EVENT_FLOOR : Fld := ⟨0x010, 4, 1⟩
abbrev IRIS_RC_CFG (i : Nat) : Fld := ⟨0x040 + 0x10 * i, 0, 2⟩
abbrev IRIS_BUF (i : Nat) : Fld := ⟨0x044 + 0x10 * i, 0, 32⟩
abbrev IRIS_QP_STATE_QI (i : Nat) : Fld := ⟨0x048 + 0x10 * i, 0, 6⟩
abbrev IRIS_QP_STATE_QPP (i : Nat) : Fld := ⟨0x048 + 0x10 * i, 8, 6⟩
abbrev IRIS_QP_STATE_QB (i : Nat) : Fld := ⟨0x048 + 0x10 * i, 16, 6⟩
abbrev IRIS_DEVIATION (i : Nat) : Fld := ⟨0x04C + 0x10 * i, 0, 32⟩
abbrev IRIS_BITRATE (i : Nat) : Fld := ⟨0x400 + 0x10 * i, 0, 32⟩
abbrev IRIS_QP_FIX_QI (i : Nat) : Fld := ⟨0x404 + 0x10 * i, 0, 6⟩
abbrev IRIS_QP_FIX_QPP (i : Nat) : Fld := ⟨0x404 + 0x10 * i, 8, 6⟩
abbrev IRIS_QP_FIX_QB (i : Nat) : Fld := ⟨0x404 + 0x10 * i, 16, 6⟩
abbrev IRIS_QP_LIM_QP_MIN (i : Nat) : Fld := ⟨0x408 + 0x10 * i, 0, 6⟩
abbrev IRIS_QP_LIM_QP_MAX (i : Nat) : Fld := ⟨0x408 + 0x10 * i, 8, 6⟩
abbrev IRIS_WEIGHT_WI (i : Nat) : Fld := ⟨0x40C + 0x10 * i, 0, 8⟩
abbrev IRIS_WEIGHT_WP (i : Nat) : Fld := ⟨0x40C + 0x10 * i, 8, 8⟩
abbrev IRIS_WEIGHT_WB (i : Nat) : Fld := ⟨0x40C + 0x10 * i, 16, 8⟩
/-! HDEC -/
abbrev HDEC_CTRL_ENABLE : Fld := ⟨0x008, 0, 1⟩
abbrev HDEC_CTRL_GANG : Fld := ⟨0x008, 1, 1⟩
abbrev HDEC_EVENT_SYNTAX_ERR : Fld := ⟨0x010, 4, 1⟩
abbrev HDEC_EVENT_REF_GEN : Fld := ⟨0x010, 5, 1⟩
abbrev HDEC_EVENT_UNSUPPORTED : Fld := ⟨0x010, 6, 1⟩
abbrev HDEC_EVENT_REC_ERR : Fld := ⟨0x010, 7, 1⟩
abbrev HDEC_EVENT_CRC_ERR : Fld := ⟨0x010, 8, 1⟩
abbrev HDEC_EVENT_FRAME_DONE : Fld := ⟨0x010, 9, 1⟩
abbrev HDEC_IN_BASE_LO : Fld := ⟨0x040, 12, 20⟩
abbrev HDEC_IN_BASE_HI : Fld := ⟨0x044, 0, 32⟩
abbrev HDEC_IN_CFG_COUNT : Fld := ⟨0x048, 0, 5⟩
abbrev HDEC_IN_CFG_PAGES : Fld := ⟨0x048, 8, 24⟩
abbrev HDEC_IN_PROD : Fld := ⟨0x04C, 0, 5⟩
abbrev HDEC_IN_CONS : Fld := ⟨0x050, 0, 5⟩
abbrev HDEC_OUT_BASE_LO : Fld := ⟨0x054, 12, 20⟩
abbrev HDEC_OUT_BASE_HI : Fld := ⟨0x058, 0, 32⟩
abbrev HDEC_OUT_CFG : Fld := ⟨0x05C, 0, 5⟩
abbrev HDEC_OUT_MAX_W : Fld := ⟨0x060, 0, 16⟩
abbrev HDEC_OUT_MAX_H : Fld := ⟨0x060, 16, 16⟩
abbrev HDEC_CONCEALED_CTBS : Fld := ⟨0x064, 0, 32⟩
abbrev HDEC_REF_GENERATED : Fld := ⟨0x068, 0, 32⟩
abbrev HDEC_LAST_FRAME_LO : Fld := ⟨0x06C, 0, 32⟩
abbrev HDEC_LAST_FRAME_HI : Fld := ⟨0x070, 0, 32⟩
abbrev HDEC_LAST_FLAGS : Fld := ⟨0x074, 0, 3⟩
/-! DRDEC -/
abbrev DRDEC_CTRL_ENABLE : Fld := ⟨0x008, 0, 1⟩
abbrev DRDEC_EVENT_TILE_ERR : Fld := ⟨0x010, 4, 1⟩
abbrev DRDEC_EVENT_REC_ERR : Fld := ⟨0x010, 5, 1⟩
abbrev DRDEC_EVENT_FRAME_DONE : Fld := ⟨0x010, 6, 1⟩
abbrev DRDEC_IN_BASE_LO : Fld := ⟨0x040, 12, 20⟩
abbrev DRDEC_IN_BASE_HI : Fld := ⟨0x044, 0, 32⟩
abbrev DRDEC_IN_CFG_COUNT : Fld := ⟨0x048, 0, 5⟩
abbrev DRDEC_IN_CFG_PAGES : Fld := ⟨0x048, 8, 24⟩
abbrev DRDEC_IN_PROD : Fld := ⟨0x04C, 0, 5⟩
abbrev DRDEC_IN_CONS : Fld := ⟨0x050, 0, 5⟩
abbrev DRDEC_OUT_BASE_LO : Fld := ⟨0x054, 21, 11⟩
abbrev DRDEC_OUT_BASE_HI : Fld := ⟨0x058, 0, 32⟩
abbrev DRDEC_OUT_CFG_SLOTS : Fld := ⟨0x05C, 0, 5⟩
abbrev DRDEC_OUT_CFG_DEPTH : Fld := ⟨0x05C, 5, 5⟩
abbrev DRDEC_OUT_SIZE_W : Fld := ⟨0x060, 0, 16⟩
abbrev DRDEC_OUT_SIZE_H : Fld := ⟨0x060, 16, 16⟩
abbrev DRDEC_TILE_ERRORS : Fld := ⟨0x064, 0, 32⟩
abbrev DRDEC_LAST_FRAME_LO : Fld := ⟨0x068, 0, 32⟩
abbrev DRDEC_LAST_FRAME_HI : Fld := ⟨0x06C, 0, 32⟩
/-! HOSTQ -/
abbrev HOSTQ_CTRL_ENABLE : Fld := ⟨0x008, 0, 1⟩
abbrev HOSTQ_EVENT_DB_ERR : Fld := ⟨0x010, 4, 1⟩
abbrev HOSTQ_EVENT_CQ_FULL : Fld := ⟨0x010, 5, 1⟩
abbrev HOSTQ_EVENT_SQ_FAULT : Fld := ⟨0x010, 6, 1⟩
abbrev HOSTQ_EVENT_TAGS_EXHAUSTED : Fld := ⟨0x010, 7, 1⟩
abbrev HOSTQ_EVENT_GEN_REJECT : Fld := ⟨0x010, 8, 1⟩
abbrev HOSTQ_DOORBELL_INDEX : Fld := ⟨0x040, 0, 12⟩
abbrev HOSTQ_DOORBELL_QID : Fld := ⟨0x040, 12, 6⟩
abbrev HOSTQ_DOORBELL_HEAD : Fld := ⟨0x040, 18, 1⟩
abbrev HOSTQ_ASQ_BASE_LO : Fld := ⟨0x044, 12, 20⟩
abbrev HOSTQ_ASQ_BASE_HI : Fld := ⟨0x048, 0, 32⟩
abbrev HOSTQ_ACQ_BASE_LO : Fld := ⟨0x04C, 12, 20⟩
abbrev HOSTQ_ACQ_BASE_HI : Fld := ⟨0x050, 0, 32⟩
abbrev HOSTQ_AQ_CFG_ASQS : Fld := ⟨0x054, 0, 12⟩
abbrev HOSTQ_AQ_CFG_ACQS : Fld := ⟨0x054, 16, 12⟩
abbrev HOSTQ_AQ_CTRL_EN : Fld := ⟨0x058, 0, 1⟩
abbrev HOSTQ_AQ_CTRL_READY : Fld := ⟨0x058, 1, 1⟩
abbrev HOSTQ_SQ_FAULT_LO : Fld := ⟨0x05C, 0, 32⟩
abbrev HOSTQ_SQ_FAULT_HI : Fld := ⟨0x060, 0, 32⟩
abbrev HOSTQ_INFLIGHT : Fld := ⟨0x064, 0, 15⟩
abbrev HOSTQ_SQ_LIVE_LO : Fld := ⟨0x068, 0, 32⟩
abbrev HOSTQ_SQ_LIVE_HI : Fld := ⟨0x06C, 0, 32⟩
abbrev HOSTQ_ARB_WEIGHT_H : Fld := ⟨0x070, 0, 8⟩
abbrev HOSTQ_ARB_WEIGHT_M : Fld := ⟨0x070, 8, 8⟩
abbrev HOSTQ_ARB_WEIGHT_L : Fld := ⟨0x070, 16, 8⟩
abbrev HOSTQ_ARB_BURST : Fld := ⟨0x070, 24, 3⟩
abbrev HOSTQ_TAGS : Fld := ⟨0x074, 0, 15⟩
abbrev HOSTQ_DB_ERR_INFO_VALUE : Fld := ⟨0x078, 0, 19⟩
abbrev HOSTQ_DB_ERR_INFO_FUNC : Fld := ⟨0x078, 31, 1⟩
abbrev HOSTQ_HOST_BW_TO : Fld := ⟨0x07C, 0, 16⟩
abbrev HOSTQ_HOST_BW_FROM : Fld := ⟨0x07C, 16, 16⟩
abbrev HOSTQ_DONE_LO : Fld := ⟨0x080, 0, 32⟩
abbrev HOSTQ_DONE_HI : Fld := ⟨0x084, 0, 32⟩
/-! NSPACE -/
abbrev NSPACE_CTRL_ENABLE : Fld := ⟨0x008, 0, 1⟩
abbrev NSPACE_EVENT_NS_CREATED : Fld := ⟨0x010, 4, 1⟩
abbrev NSPACE_EVENT_NS_DELETED : Fld := ⟨0x010, 5, 1⟩
abbrev NSPACE_EVENT_NS_FULL : Fld := ⟨0x010, 6, 1⟩
abbrev NSPACE_STAGE_BASE_LO : Fld := ⟨0x040, 21, 11⟩
abbrev NSPACE_STAGE_BASE_HI : Fld := ⟨0x044, 0, 32⟩
abbrev NSPACE_STAGE_UNITS : Fld := ⟨0x048, 0, 16⟩
abbrev NSPACE_LOG_UNITS : Fld := ⟨0x04C, 0, 8⟩
abbrev NSPACE_NS_COUNT : Fld := ⟨0x050, 0, 9⟩
abbrev NSPACE_STAGE_FREE_TOTAL : Fld := ⟨0x054, 0, 16⟩
abbrev NSPACE_STAGE_FREE_RUN : Fld := ⟨0x054, 16, 16⟩
abbrev NSPACE_NS_SELECT : Fld := ⟨0x058, 0, 8⟩
abbrev NSPACE_NS_INFO_TYPE : Fld := ⟨0x05C, 0, 3⟩
abbrev NSPACE_NS_INFO_IN_USE : Fld := ⟨0x05C, 8, 1⟩
abbrev NSPACE_NS_INFO_OPEN : Fld := ⟨0x05C, 9, 1⟩
abbrev NSPACE_NS_SIZE_LO : Fld := ⟨0x060, 0, 32⟩
abbrev NSPACE_NS_SIZE_HI : Fld := ⟨0x064, 0, 32⟩
abbrev NSPACE_NS_USED_LO : Fld := ⟨0x068, 0, 32⟩
abbrev NSPACE_NS_USED_HI : Fld := ⟨0x06C, 0, 32⟩
/-! MEDIA -/
abbrev MEDIA_CTRL_ENABLE : Fld := ⟨0x008, 0, 1⟩
abbrev MEDIA_CTRL_RESET : Fld := ⟨0x008, 1, 1⟩
abbrev MEDIA_STATE_PORT : Fld := ⟨0x00C, 0, 3⟩
abbrev MEDIA_STATE_WIDTH : Fld := ⟨0x00C, 4, 4⟩
abbrev MEDIA_STATE_SPEED : Fld := ⟨0x00C, 8, 3⟩
abbrev MEDIA_STATE_QUEUES : Fld := ⟨0x00C, 12, 4⟩
abbrev MEDIA_EVENT_READY : Fld := ⟨0x010, 4, 1⟩
abbrev MEDIA_EVENT_LINK_DOWN : Fld := ⟨0x010, 5, 1⟩
abbrev MEDIA_EVENT_TIMEOUT : Fld := ⟨0x010, 6, 1⟩
abbrev MEDIA_EVENT_CMD_ERR : Fld := ⟨0x010, 7, 1⟩
abbrev MEDIA_EVENT_REJECTED : Fld := ⟨0x010, 8, 1⟩
abbrev MEDIA_EVENT_HEALTH : Fld := ⟨0x010, 9, 1⟩
abbrev MEDIA_TIMEOUT : Fld := ⟨0x040, 0, 16⟩
abbrev MEDIA_LBA : Fld := ⟨0x044, 0, 4⟩
abbrev MEDIA_CAP_LO : Fld := ⟨0x048, 0, 32⟩
abbrev MEDIA_CAP_HI : Fld := ⟨0x04C, 0, 32⟩
abbrev MEDIA_ERR_COUNT : Fld := ⟨0x050, 0, 32⟩
abbrev MEDIA_TIMEOUTS : Fld := ⟨0x054, 0, 16⟩
abbrev MEDIA_WRITTEN_LO : Fld := ⟨0x058, 0, 32⟩
abbrev MEDIA_WRITTEN_HI : Fld := ⟨0x05C, 0, 32⟩
abbrev MEDIA_HEALTH_CRIT_WARN : Fld := ⟨0x060, 0, 8⟩
abbrev MEDIA_HEALTH_USED_PCT : Fld := ⟨0x060, 8, 8⟩
abbrev MEDIA_HEALTH_TEMP : Fld := ⟨0x060, 16, 16⟩
/-! RECORDER -/
abbrev RECORDER_CTRL_ENABLE : Fld := ⟨0x008, 0, 1⟩
abbrev RECORDER_CTRL_FORMAT : Fld := ⟨0x008, 1, 1⟩
abbrev RECORDER_STATE_PHASE : Fld := ⟨0x00C, 0, 3⟩
abbrev RECORDER_STATE_MOUNTED : Fld := ⟨0x00C, 3, 1⟩
abbrev RECORDER_STATE_NSID : Fld := ⟨0x00C, 8, 8⟩
abbrev RECORDER_EVENT_REEL_OPEN : Fld := ⟨0x010, 4, 1⟩
abbrev RECORDER_EVENT_REEL_CLOSED : Fld := ⟨0x010, 5, 1⟩
abbrev RECORDER_EVENT_DROP : Fld := ⟨0x010, 6, 1⟩
abbrev RECORDER_EVENT_REEL_FULL : Fld := ⟨0x010, 7, 1⟩
abbrev RECORDER_EVENT_MEDIA_FAIL : Fld := ⟨0x010, 8, 1⟩
abbrev RECORDER_EVENT_RECOVERED : Fld := ⟨0x010, 9, 1⟩
abbrev RECORDER_EVENT_CFG_ERR : Fld := ⟨0x010, 10, 1⟩
abbrev RECORDER_EVENT_REVIEW_END : Fld := ⟨0x010, 11, 1⟩
abbrev RECORDER_EVENT_VOLUME_ERR : Fld := ⟨0x010, 12, 1⟩
abbrev RECORDER_CFG_DRIVES : Fld := ⟨0x040, 0, 2⟩
abbrev RECORDER_CFG_DIGESTS : Fld := ⟨0x040, 2, 1⟩
abbrev RECORDER_CFG_PROVENANCE : Fld := ⟨0x040, 3, 1⟩
abbrev RECORDER_CFG_DIGEST_REND : Fld := ⟨0x040, 8, 8⟩
abbrev RECORDER_REEL : Fld := ⟨0x044, 0, 8⟩
abbrev RECORDER_FLUSH : Fld := ⟨0x048, 0, 10⟩
abbrev RECORDER_END_LO : Fld := ⟨0x04C, 0, 32⟩
abbrev RECORDER_END_HI : Fld := ⟨0x050, 0, 32⟩
abbrev RECORDER_DROPS : Fld := ⟨0x054, 0, 32⟩
abbrev RECORDER_QUEUED : Fld := ⟨0x058, 0, 16⟩
abbrev RECORDER_MAX_LAT : Fld := ⟨0x05C, 0, 16⟩
abbrev RECORDER_CHAIN_PENDING : Fld := ⟨0x060, 0, 16⟩
abbrev RECORDER_REVIEW_NS_NSID : Fld := ⟨0x064, 0, 8⟩
abbrev RECORDER_REVIEW_NS_STREAM : Fld := ⟨0x064, 8, 3⟩
abbrev RECORDER_REVIEW_NS_RAW : Fld := ⟨0x064, 16, 1⟩
abbrev RECORDER_REVIEW_NS_HEVC : Fld := ⟨0x064, 17, 1⟩
abbrev RECORDER_REVIEW_START_LO : Fld := ⟨0x068, 0, 32⟩
abbrev RECORDER_REVIEW_START_HI : Fld := ⟨0x06C, 0, 32⟩
abbrev RECORDER_VOLUME : Fld := ⟨0x070, 0, 32⟩
abbrev RECORDER_FREE : Fld := ⟨0x074, 0, 32⟩
/-! LOUPE -/
abbrev LOUPE_CTRL_ENABLE : Fld := ⟨0x008, 0, 1⟩
abbrev LOUPE_STATE_PHASE : Fld := ⟨0x00C, 0, 2⟩
abbrev LOUPE_STATE_HOLDOVER : Fld := ⟨0x00C, 2, 1⟩
abbrev LOUPE_EVENT_UNDERRUN : Fld := ⟨0x010, 4, 1⟩
abbrev LOUPE_EVENT_GFX_LATE : Fld := ⟨0x010, 5, 1⟩
abbrev LOUPE_EVENT_RELOCK : Fld := ⟨0x010, 6, 1⟩
abbrev LOUPE_EVENT_FMT_ERR : Fld := ⟨0x010, 7, 1⟩
abbrev LOUPE_EVENT_SRC_ERR : Fld := ⟨0x010, 8, 1⟩
abbrev LOUPE_EVENT_LOCK_LOST : Fld := ⟨0x010, 9, 1⟩
abbrev LOUPE_EVENT_ANC_TRUNC : Fld := ⟨0x010, 10, 1⟩
abbrev LOUPE_EVENT_CFG_ERR : Fld := ⟨0x010, 11, 1⟩
abbrev LOUPE_CFG_SDI_EN : Fld := ⟨0x040, 0, 1⟩
abbrev LOUPE_CFG_LOCK : Fld := ⟨0x040, 1, 1⟩
abbrev LOUPE_CFG_MAX_FMT : Fld := ⟨0x040, 4, 3⟩
abbrev LOUPE_CFG_MAX_RATE : Fld := ⟨0x040, 8, 4⟩
abbrev LOUPE_CFG_GFX_ALLOW : Fld := ⟨0x040, 12, 2⟩
abbrev LOUPE_CFG_FILL : Fld := ⟨0x040, 14, 2⟩
abbrev LOUPE_PHASE : Fld := ⟨0x044, 0, 32⟩
abbrev LOUPE_PHASE_MIN : Fld := ⟨0x048, 0, 32⟩
abbrev LOUPE_FRAMES_LO : Fld := ⟨0x04C, 0, 32⟩
abbrev LOUPE_FRAMES_HI : Fld := ⟨0x050, 0, 32⟩
abbrev LOUPE_UNDERRUN_LINES : Fld := ⟨0x054, 0, 32⟩
abbrev LOUPE_SHOWN_LO : Fld := ⟨0x058, 0, 32⟩
abbrev LOUPE_SHOWN_HI : Fld := ⟨0x05C, 0, 32⟩
abbrev LOUPE_FMT_FMT : Fld := ⟨0x400, 0, 3⟩
abbrev LOUPE_FMT_RATE : Fld := ⟨0x400, 8, 4⟩
abbrev LOUPE_SRC : Fld := ⟨0x404, 0, 4⟩
abbrev LOUPE_VID_POS_X : Fld := ⟨0x408, 0, 16⟩
abbrev LOUPE_VID_POS_Y : Fld := ⟨0x408, 16, 16⟩
abbrev LOUPE_BG_Y : Fld := ⟨0x40C, 0, 10⟩
abbrev LOUPE_BG_CB : Fld := ⟨0x40C, 10, 10⟩
abbrev LOUPE_BG_CR : Fld := ⟨0x40C, 20, 10⟩
abbrev LOUPE_GFX_CTRL_EN (i : Nat) : Fld := ⟨0x410 + 0x18 * i, 0, 1⟩
abbrev LOUPE_GFX_CTRL_FMT (i : Nat) : Fld := ⟨0x410 + 0x18 * i, 1, 2⟩
abbrev LOUPE_GFX_CTRL_GALPHA (i : Nat) : Fld := ⟨0x410 + 0x18 * i, 8, 8⟩
abbrev LOUPE_GFX_BASE_LO (i : Nat) : Fld := ⟨0x414 + 0x18 * i, 6, 26⟩
abbrev LOUPE_GFX_BASE_HI (i : Nat) : Fld := ⟨0x418 + 0x18 * i, 0, 32⟩
abbrev LOUPE_GFX_STRIDE (i : Nat) : Fld := ⟨0x41C + 0x18 * i, 0, 16⟩
abbrev LOUPE_GFX_POS_X (i : Nat) : Fld := ⟨0x420 + 0x18 * i, 0, 16⟩
abbrev LOUPE_GFX_POS_Y (i : Nat) : Fld := ⟨0x420 + 0x18 * i, 16, 16⟩
abbrev LOUPE_GFX_SIZE_W (i : Nat) : Fld := ⟨0x424 + 0x18 * i, 0, 16⟩
abbrev LOUPE_GFX_SIZE_H (i : Nat) : Fld := ⟨0x424 + 0x18 * i, 16, 16⟩
abbrev LOUPE_ANC_BASE_LO : Fld := ⟨0x440, 6, 26⟩
abbrev LOUPE_ANC_BASE_HI : Fld := ⟨0x444, 0, 32⟩
abbrev LOUPE_ANC_CFG_LEN : Fld := ⟨0x448, 0, 12⟩
abbrev LOUPE_ANC_CFG_LINE : Fld := ⟨0x448, 16, 12⟩
/-! MIRROR -/
abbrev MIRROR_CTRL_ENABLE : Fld := ⟨0x008, 0, 1⟩
abbrev MIRROR_CTRL_LINK_EN : Fld := ⟨0x008, 4, 4⟩
abbrev MIRROR_STATE_CHECKING : Fld := ⟨0x00C, 0, 4⟩
abbrev MIRROR_STATE_LOST : Fld := ⟨0x00C, 4, 4⟩
abbrev MIRROR_EVENT_LINE_MISMATCH : Fld := ⟨0x010, 4, 1⟩
abbrev MIRROR_EVENT_FRAME_MISMATCH : Fld := ⟨0x010, 5, 1⟩
abbrev MIRROR_EVENT_LOST : Fld := ⟨0x010, 6, 1⟩
abbrev MIRROR_EVENT_LINE_NUM_ERR : Fld := ⟨0x010, 7, 1⟩
abbrev MIRROR_LINES_CHECKED (i : Nat) : Fld := ⟨0x040 + 0x10 * i, 0, 32⟩
abbrev MIRROR_MISMATCH_LINES (i : Nat) : Fld := ⟨0x044 + 0x10 * i, 0, 32⟩
abbrev MIRROR_FRAME_CRC (i : Nat) : Fld := ⟨0x048 + 0x10 * i, 0, 32⟩
abbrev MIRROR_MISMATCH_FRAMES (i : Nat) : Fld := ⟨0x04C + 0x10 * i, 0, 32⟩
/-! SDI -/
abbrev SDI_CTRL_ENABLE : Fld := ⟨0x008, 0, 1⟩
abbrev SDI_STATE_RATE : Fld := ⟨0x00C, 0, 3⟩
abbrev SDI_STATE_FRACT : Fld := ⟨0x00C, 3, 1⟩
abbrev SDI_STATE_LINK : Fld := ⟨0x00C, 4, 2⟩
abbrev SDI_STATE_QUAD : Fld := ⟨0x00C, 8, 1⟩
abbrev SDI_EVENT_RETUNE : Fld := ⟨0x010, 4, 1⟩
abbrev SDI_EVENT_AUDIO_UNDERRUN : Fld := ⟨0x010, 5, 1⟩
abbrev SDI_AUDIO_PORT : Fld := ⟨0x040, 0, 2⟩
abbrev SDI_AUDIO_CH : Fld := ⟨0x040, 8, 6⟩
abbrev SDI_AUDIO_FIRST_SLOT : Fld := ⟨0x040, 16, 5⟩
abbrev SDI_PID_LAST : Fld := ⟨0x044, 0, 32⟩
abbrev SDI_FRAMES : Fld := ⟨0x048, 0, 32⟩
/-! ETH -/
abbrev ETH_CTRL_ENABLE : Fld := ⟨0x008, 0, 1⟩
abbrev ETH_STATE_LINK_UP : Fld := ⟨0x00C, 0, 1⟩
abbrev ETH_STATE_FEC_LOCK : Fld := ⟨0x00C, 1, 1⟩
abbrev ETH_EVENT_LINK_UP : Fld := ⟨0x010, 4, 1⟩
abbrev ETH_EVENT_LINK_DOWN : Fld := ⟨0x010, 5, 1⟩
abbrev ETH_EVENT_FEC_UNCORR : Fld := ⟨0x010, 6, 1⟩
abbrev ETH_MAC_LO : Fld := ⟨0x040, 0, 32⟩
abbrev ETH_MAC_HI : Fld := ⟨0x044, 0, 16⟩
abbrev ETH_IPV4 : Fld := ⟨0x048, 0, 32⟩
abbrev ETH_VLAN_VID : Fld := ⟨0x04C, 0, 12⟩
abbrev ETH_VLAN_PCP : Fld := ⟨0x04C, 12, 3⟩
abbrev ETH_VLAN_EN : Fld := ⟨0x04C, 16, 1⟩
abbrev ETH_TX_FRAMES_LO : Fld := ⟨0x050, 0, 32⟩
abbrev ETH_TX_FRAMES_HI : Fld := ⟨0x054, 0, 32⟩
abbrev ETH_RX_DISCARDS : Fld := ⟨0x058, 0, 32⟩
abbrev ETH_FEC_CORR : Fld := ⟨0x05C, 0, 32⟩
abbrev ETH_FEC_UNCORR : Fld := ⟨0x060, 0, 32⟩
abbrev ETH_TX_RATE : Fld := ⟨0x064, 0, 17⟩
/-! PKT2110 -/
abbrev PKT2110_CTRL_ENABLE : Fld := ⟨0x008, 0, 1⟩
abbrev PKT2110_EVENT_FLOW_ERR : Fld := ⟨0x010, 4, 1⟩
abbrev PKT2110_EVENT_FILL : Fld := ⟨0x010, 5, 1⟩
abbrev PKT2110_FLOW_CFG_EN (i : Nat) : Fld := ⟨0x040 + 0x20 * i, 0, 1⟩
abbrev PKT2110_FLOW_CFG_TYPE (i : Nat) : Fld := ⟨0x040 + 0x20 * i, 1, 2⟩
abbrev PKT2110_FLOW_CFG_PORT (i : Nat) : Fld := ⟨0x040 + 0x20 * i, 3, 1⟩
abbrev PKT2110_FLOW_CFG_SRC (i : Nat) : Fld := ⟨0x040 + 0x20 * i, 4, 4⟩
abbrev PKT2110_FLOW_CFG_SENDER (i : Nat) : Fld := ⟨0x040 + 0x20 * i, 8, 1⟩
abbrev PKT2110_FLOW_CFG_EXT (i : Nat) : Fld := ⟨0x040 + 0x20 * i, 9, 1⟩
abbrev PKT2110_FLOW_CFG_RATE (i : Nat) : Fld := ⟨0x040 + 0x20 * i, 10, 4⟩
abbrev PKT2110_FLOW_CFG_PTIME (i : Nat) : Fld := ⟨0x040 + 0x20 * i, 16, 1⟩
abbrev PKT2110_FLOW_CFG_L24 (i : Nat) : Fld := ⟨0x040 + 0x20 * i, 17, 1⟩
abbrev PKT2110_FLOW_CFG_FS (i : Nat) : Fld := ⟨0x040 + 0x20 * i, 18, 1⟩
abbrev PKT2110_FLOW_CFG_CH (i : Nat) : Fld := ⟨0x040 + 0x20 * i, 19, 6⟩
abbrev PKT2110_FLOW_CFG_FIRST_SLOT (i : Nat) : Fld := ⟨0x040 + 0x20 * i, 25, 5⟩
abbrev PKT2110_DST_MAC_LO (i : Nat) : Fld := ⟨0x044 + 0x20 * i, 0, 32⟩
abbrev PKT2110_DST_MAC_HI (i : Nat) : Fld := ⟨0x048 + 0x20 * i, 0, 16⟩
abbrev PKT2110_DST_IP (i : Nat) : Fld := ⟨0x04C + 0x20 * i, 0, 32⟩
abbrev PKT2110_PORTS_DST (i : Nat) : Fld := ⟨0x050 + 0x20 * i, 0, 16⟩
abbrev PKT2110_PORTS_SRC (i : Nat) : Fld := ⟨0x050 + 0x20 * i, 16, 16⟩
abbrev PKT2110_IPHDR_PT (i : Nat) : Fld := ⟨0x054 + 0x20 * i, 0, 7⟩
abbrev PKT2110_IPHDR_DSCP (i : Nat) : Fld := ⟨0x054 + 0x20 * i, 8, 6⟩
abbrev PKT2110_IPHDR_TTL (i : Nat) : Fld := ⟨0x054 + 0x20 * i, 16, 8⟩
abbrev PKT2110_SSRC (i : Nat) : Fld := ⟨0x058 + 0x20 * i, 0, 32⟩
abbrev PKT2110_WIRE (i : Nat) : Fld := ⟨0x05C + 0x20 * i, 0, 17⟩
/-! COLL -/
abbrev COLL_CTRL_ENABLE : Fld := ⟨0x008, 0, 1⟩
abbrev COLL_CTRL_PTP_EN : Fld := ⟨0x008, 1, 1⟩
abbrev COLL_CTRL_SLEEP_KEEP : Fld := ⟨0x008, 2, 1⟩
abbrev COLL_CTRL_SNAP : Fld := ⟨0x008, 3, 1⟩
abbrev COLL_CTRL_SET : Fld := ⟨0x008, 4, 1⟩
abbrev COLL_STATE_SERVO : Fld := ⟨0x00C, 0, 3⟩
abbrev COLL_STATE_NO_STEP : Fld := ⟨0x00C, 3, 1⟩
abbrev COLL_EVENT_LOCKED : Fld := ⟨0x010, 4, 1⟩
abbrev COLL_EVENT_HOLDOVER : Fld := ⟨0x010, 5, 1⟩
abbrev COLL_EVENT_STEP_DETECT : Fld := ⟨0x010, 6, 1⟩
abbrev COLL_EVENT_STEP_ACCEPTED : Fld := ⟨0x010, 7, 1⟩
abbrev COLL_EVENT_STEP_TRANSIENT : Fld := ⟨0x010, 8, 1⟩
abbrev COLL_EVENT_MASTER_CHANGE : Fld := ⟨0x010, 9, 1⟩
abbrev COLL_EVENT_TIME_STEPPED : Fld := ⟨0x010, 10, 1⟩
abbrev COLL_EVENT_ALARM : Fld := ⟨0x010, 11, 1⟩
abbrev COLL_EVENT_SYNC_IN : Fld := ⟨0x010, 12, 1⟩
abbrev COLL_EVENT_RANGE_LIMIT : Fld := ⟨0x010, 13, 1⟩
abbrev COLL_SNAP_SEC_LO : Fld := ⟨0x040, 0, 32⟩
abbrev COLL_SNAP_SEC_HI : Fld := ⟨0x044, 0, 32⟩
abbrev COLL_SNAP_NS : Fld := ⟨0x048, 0, 30⟩
abbrev COLL_SNAP_FRAC : Fld := ⟨0x04C, 0, 32⟩
abbrev COLL_SET_SEC_LO : Fld := ⟨0x050, 0, 32⟩
abbrev COLL_SET_SEC_HI : Fld := ⟨0x054, 0, 32⟩
abbrev COLL_SET_NS : Fld := ⟨0x058, 0, 30⟩
abbrev COLL_INC_NS : Fld := ⟨0x05C, 0, 4⟩
abbrev COLL_INC_FRAC : Fld := ⟨0x060, 0, 32⟩
abbrev COLL_FREQ : Fld := ⟨0x064, 0, 32⟩
abbrev COLL_SERVO_CFG_KP : Fld := ⟨0x068, 0, 4⟩
abbrev COLL_SERVO_CFG_KI : Fld := ⟨0x068, 4, 4⟩
abbrev COLL_SERVO_CFG_RANGE : Fld := ⟨0x068, 8, 12⟩
abbrev COLL_SERVO_CFG_SYNC_TIMEOUT : Fld := ⟨0x068, 20, 4⟩
abbrev COLL_STEP_CFG_DET : Fld := ⟨0x06C, 0, 16⟩
abbrev COLL_STEP_CFG_WINDOW : Fld := ⟨0x06C, 16, 8⟩
abbrev COLL_STEP_CFG_ACQ : Fld := ⟨0x06C, 24, 8⟩
abbrev COLL_PTP_CFG_DOMAIN : Fld := ⟨0x070, 0, 8⟩
abbrev COLL_PTP_CFG_PORT : Fld := ⟨0x070, 8, 1⟩
abbrev COLL_PTP_CFG_UNICAST : Fld := ⟨0x070, 9, 1⟩
abbrev COLL_PTP_CFG_TS_MODE : Fld := ⟨0x070, 10, 1⟩
abbrev COLL_PTP_CFG_CORR_EN : Fld := ⟨0x070, 11, 1⟩
abbrev COLL_OFFSET : Fld := ⟨0x074, 0, 32⟩
abbrev COLL_MEAN_DELAY : Fld := ⟨0x078, 0, 32⟩
abbrev COLL_MASTER_ID_LO : Fld := ⟨0x07C, 0, 32⟩
abbrev COLL_MASTER_ID_HI : Fld := ⟨0x080, 0, 32⟩
abbrev COLL_MASTER_PORT : Fld := ⟨0x084, 0, 16⟩
abbrev COLL_RX_CORR : Fld := ⟨0x088, 0, 24⟩
abbrev COLL_TX_CORR : Fld := ⟨0x08C, 0, 24⟩
abbrev COLL_LINK_DELAY_RX : Fld := ⟨0x090, 0, 24⟩
abbrev COLL_LINK_DELAY_TX : Fld := ⟨0x094, 0, 24⟩
abbrev COLL_ASYM : Fld := ⟨0x098, 0, 32⟩
abbrev COLL_ALARM_SEC_LO : Fld := ⟨0x09C, 0, 32⟩
abbrev COLL_ALARM_SEC_HI : Fld := ⟨0x0A0, 0, 32⟩
abbrev COLL_ALARM_NS : Fld := ⟨0x0A4, 0, 30⟩
abbrev COLL_ALARM_CTRL_ARM : Fld := ⟨0x0A8, 0, 1⟩
abbrev COLL_ALARM_CTRL_WAKE : Fld := ⟨0x0A8, 1, 1⟩
abbrev COLL_SYNC_CFG_IN_MODE : Fld := ⟨0x0AC, 0, 2⟩
abbrev COLL_SYNC_CFG_IN_EDGE : Fld := ⟨0x0AC, 2, 1⟩
abbrev COLL_SYNC_CFG_OUT_MODE : Fld := ⟨0x0AC, 4, 2⟩
abbrev COLL_SYNC_CFG_OUT_WIDTH : Fld := ⟨0x0AC, 8, 8⟩
abbrev COLL_SYNC_IN_SEC_LO : Fld := ⟨0x0B0, 0, 32⟩
abbrev COLL_SYNC_IN_SEC_HI : Fld := ⟨0x0B4, 0, 32⟩
abbrev COLL_SYNC_IN_NS : Fld := ⟨0x0B8, 0, 30⟩
abbrev COLL_SYNC_IN_FRAC : Fld := ⟨0x0BC, 0, 32⟩
abbrev COLL_SYNC_COUNT : Fld := ⟨0x0C0, 0, 32⟩
abbrev COLL_PTP_DISCARDS : Fld := ⟨0x0C4, 0, 32⟩
/-! TRIG -/
abbrev TRIG_CTRL_ENABLE : Fld := ⟨0x008, 0, 1⟩
abbrev TRIG_CTRL_EN_A : Fld := ⟨0x008, 1, 1⟩
abbrev TRIG_CTRL_EN_B : Fld := ⟨0x008, 2, 1⟩
abbrev TRIG_STATE_PHASE : Fld := ⟨0x00C, 0, 2⟩
abbrev TRIG_STATE_FENCED : Fld := ⟨0x00C, 2, 1⟩
abbrev TRIG_EVENT_ARMED : Fld := ⟨0x010, 4, 1⟩
abbrev TRIG_EVENT_FIRST : Fld := ⟨0x010, 5, 1⟩
abbrev TRIG_EVENT_LATE_START : Fld := ⟨0x010, 6, 1⟩
abbrev TRIG_EVENT_SUPPRESSED : Fld := ⟨0x010, 7, 1⟩
abbrev TRIG_EVENT_CFG_ERR : Fld := ⟨0x010, 8, 1⟩
abbrev TRIG_RATE_NUM : Fld := ⟨0x040, 0, 32⟩
abbrev TRIG_RATE_DEN : Fld := ⟨0x044, 0, 16⟩
abbrev TRIG_CFG_ALIGN : Fld := ⟨0x048, 0, 1⟩
abbrev TRIG_CFG_MODE : Fld := ⟨0x048, 1, 1⟩
abbrev TRIG_CFG_LEAD : Fld := ⟨0x048, 8, 8⟩
abbrev TRIG_START_SEC_LO : Fld := ⟨0x04C, 0, 32⟩
abbrev TRIG_START_SEC_HI : Fld := ⟨0x050, 0, 32⟩
abbrev TRIG_START_NS : Fld := ⟨0x054, 0, 30⟩
abbrev TRIG_COMP_A : Fld := ⟨0x058, 0, 13⟩
abbrev TRIG_COMP_B : Fld := ⟨0x05C, 0, 13⟩
abbrev TRIG_OFFSET_B : Fld := ⟨0x060, 0, 32⟩
abbrev TRIG_WIDTH : Fld := ⟨0x064, 0, 32⟩
abbrev TRIG_FIRST_SEC_LO : Fld := ⟨0x068, 0, 32⟩
abbrev TRIG_FIRST_SEC_HI : Fld := ⟨0x06C, 0, 32⟩
abbrev TRIG_FIRST_NS : Fld := ⟨0x070, 0, 30⟩
abbrev TRIG_FIRST_FRAC : Fld := ⟨0x074, 0, 32⟩
abbrev TRIG_ISSUED_LO : Fld := ⟨0x078, 0, 32⟩
abbrev TRIG_ISSUED_HI : Fld := ⟨0x07C, 0, 32⟩
abbrev TRIG_SUPPRESSED : Fld := ⟨0x080, 0, 32⟩
abbrev TRIG_SKIPPED : Fld := ⟨0x084, 0, 32⟩
/-! AUD -/
abbrev AUD_CTRL_ENABLE : Fld := ⟨0x008, 0, 1⟩
abbrev AUD_CTRL_TIMED : Fld := ⟨0x008, 1, 1⟩
abbrev AUD_CTRL_HOST_CONS : Fld := ⟨0x008, 2, 1⟩
abbrev AUD_STATE_PHASE : Fld := ⟨0x00C, 0, 2⟩
abbrev AUD_STATE_ROTATED : Fld := ⟨0x00C, 2, 1⟩
abbrev AUD_STATE_CLOCK_LOST : Fld := ⟨0x00C, 3, 1⟩
abbrev AUD_EVENT_UNDERRUN : Fld := ⟨0x010, 4, 1⟩
abbrev AUD_EVENT_OVERRUN : Fld := ⟨0x010, 5, 1⟩
abbrev AUD_EVENT_ROTATED : Fld := ⟨0x010, 6, 1⟩
abbrev AUD_EVENT_FRAME_ERR : Fld := ⟨0x010, 7, 1⟩
abbrev AUD_EVENT_CLOCK_LOST : Fld := ⟨0x010, 8, 1⟩
abbrev AUD_EVENT_CFG_ERR : Fld := ⟨0x010, 9, 1⟩
abbrev AUD_FORMAT_DIR : Fld := ⟨0x040, 0, 1⟩
abbrev AUD_FORMAT_MASTER : Fld := ⟨0x040, 1, 1⟩
abbrev AUD_FORMAT_FS : Fld := ⟨0x040, 2, 3⟩
abbrev AUD_FORMAT_SLOTS : Fld := ⟨0x040, 5, 5⟩
abbrev AUD_FORMAT_SWIDTH : Fld := ⟨0x040, 10, 2⟩
abbrev AUD_FORMAT_WORD : Fld := ⟨0x040, 12, 2⟩
abbrev AUD_FORMAT_OFFSET : Fld := ⟨0x040, 14, 5⟩
abbrev AUD_FORMAT_PACK : Fld := ⟨0x040, 19, 1⟩
abbrev AUD_FORMAT_FS_WIDTH : Fld := ⟨0x040, 20, 2⟩
abbrev AUD_FORMAT_FS_POL : Fld := ⟨0x040, 22, 1⟩
abbrev AUD_FORMAT_BCLK_EDGE : Fld := ⟨0x040, 23, 1⟩
abbrev AUD_FORMAT_MCLK_EN : Fld := ⟨0x040, 24, 1⟩
abbrev AUD_RING_BASE_LO : Fld := ⟨0x044, 12, 20⟩
abbrev AUD_RING_BASE_HI : Fld := ⟨0x048, 0, 32⟩
abbrev AUD_RING_BYTES : Fld := ⟨0x04C, 0, 26⟩
abbrev AUD_STAMP_BASE_LO : Fld := ⟨0x050, 12, 20⟩
abbrev AUD_STAMP_BASE_HI : Fld := ⟨0x054, 0, 32⟩
abbrev AUD_STAMP_ENTRIES : Fld := ⟨0x058, 0, 16⟩
abbrev AUD_DEV_PTR : Fld := ⟨0x05C, 0, 26⟩
abbrev AUD_HOST_PTR : Fld := ⟨0x060, 0, 26⟩
abbrev AUD_STAMP_PTR : Fld := ⟨0x064, 0, 16⟩
abbrev AUD_ROT_WORDS : Fld := ⟨0x068, 0, 16⟩
abbrev AUD_UNDERRUN_WORDS : Fld := ⟨0x06C, 0, 32⟩
abbrev AUD_OVERRUN_WORDS : Fld := ⟨0x070, 0, 32⟩
abbrev AUD_FRAME_ERRORS : Fld := ⟨0x074, 0, 32⟩
abbrev AUD_START_SEC_LO : Fld := ⟨0x078, 0, 32⟩
abbrev AUD_START_SEC_HI : Fld := ⟨0x07C, 0, 32⟩
abbrev AUD_START_NS : Fld := ⟨0x080, 0, 30⟩
abbrev AUD_SLOT_MASK : Fld := ⟨0x400, 0, 32⟩
/-! COND -/
abbrev COND_CTRL_ENABLE : Fld := ⟨0x008, 0, 1⟩
abbrev COND_CTRL_GO : Fld := ⟨0x008, 1, 1⟩
abbrev COND_CTRL_RESUME : Fld := ⟨0x008, 2, 1⟩
abbrev COND_CTRL_ABORT : Fld := ⟨0x008, 3, 1⟩
abbrev COND_STATE_PHASE : Fld := ⟨0x00C, 0, 3⟩
abbrev COND_STATE_BUSY : Fld := ⟨0x00C, 3, 1⟩
abbrev COND_EVENT_JOB_DONE : Fld := ⟨0x010, 4, 1⟩
abbrev COND_EVENT_SUSPENDED : Fld := ⟨0x010, 5, 1⟩
abbrev COND_EVENT_NEED_INPUT : Fld := ⟨0x010, 6, 1⟩
abbrev COND_EVENT_VERIFY_ERR : Fld := ⟨0x010, 7, 1⟩
abbrev COND_EVENT_NO_GAIN : Fld := ⟨0x010, 8, 1⟩
abbrev COND_EVENT_LIMIT : Fld := ⟨0x010, 9, 1⟩
abbrev COND_JOB_CFG_OP : Fld := ⟨0x040, 0, 1⟩
abbrev COND_JOB_CFG_MODE : Fld := ⟨0x040, 1, 1⟩
abbrev COND_JOB_CFG_LEVEL : Fld := ⟨0x040, 2, 4⟩
abbrev COND_JOB_CFG_FINAL : Fld := ⟨0x040, 8, 1⟩
abbrev COND_SRC_LO : Fld := ⟨0x044, 0, 32⟩
abbrev COND_SRC_HI : Fld := ⟨0x048, 0, 32⟩
abbrev COND_SRC_LEN : Fld := ⟨0x04C, 0, 27⟩
abbrev COND_DST_LO : Fld := ⟨0x050, 0, 32⟩
abbrev COND_DST_HI : Fld := ⟨0x054, 0, 32⟩
abbrev COND_DST_CAP : Fld := ⟨0x058, 0, 27⟩
abbrev COND_OUT_LIMIT : Fld := ⟨0x05C, 0, 32⟩
abbrev COND_CTX_LO : Fld := ⟨0x060, 12, 20⟩
abbrev COND_CTX_HI : Fld := ⟨0x064, 0, 32⟩
abbrev COND_RESULT_CODE : Fld := ⟨0x068, 0, 8⟩
abbrev COND_RESULT_VERIFY : Fld := ⟨0x068, 8, 1⟩
abbrev COND_RESULT_DETAIL : Fld := ⟨0x068, 12, 4⟩
abbrev COND_IN_DONE : Fld := ⟨0x06C, 0, 27⟩
abbrev COND_OUT_DONE : Fld := ⟨0x070, 0, 27⟩
abbrev COND_TOTAL_IN : Fld := ⟨0x074, 0, 32⟩
abbrev COND_TOTAL_OUT : Fld := ⟨0x078, 0, 32⟩
abbrev COND_DEC_MAX : Fld := ⟨0x07C, 0, 27⟩
abbrev COND_JOBS : Fld := ⟨0x080, 0, 32⟩
abbrev COND_VERIFY_FAILS : Fld := ⟨0x084, 0, 16⟩
/-! RELAY -/
abbrev RELAY_CTRL_ENABLE : Fld := ⟨0x008, 0, 1⟩
abbrev RELAY_CTRL_CLEAR : Fld := ⟨0x008, 1, 1⟩
abbrev RELAY_STATE_ERR_STOP : Fld := ⟨0x00C, 0, 1⟩
abbrev RELAY_STATE_ACTIVE : Fld := ⟨0x00C, 8, 8⟩
abbrev RELAY_EVENT_CH_DONE : Fld := ⟨0x010, 4, 1⟩
abbrev RELAY_EVENT_DESC_ERR : Fld := ⟨0x010, 5, 1⟩
abbrev RELAY_EVENT_BUS_ERR : Fld := ⟨0x010, 6, 1⟩
abbrev RELAY_CFG : Fld := ⟨0x040, 0, 8⟩
abbrev RELAY_ERR_ADDR_LO : Fld := ⟨0x044, 0, 32⟩
abbrev RELAY_ERR_ADDR_HI : Fld := ⟨0x048, 0, 32⟩
abbrev RELAY_ERR_INFO_WRITE : Fld := ⟨0x04C, 0, 1⟩
abbrev RELAY_ERR_INFO_KIND : Fld := ⟨0x04C, 1, 2⟩
abbrev RELAY_CH_CTRL_START (i : Nat) : Fld := ⟨0x080 + 0x20 * i, 0, 1⟩
abbrev RELAY_CH_CTRL_ABORT (i : Nat) : Fld := ⟨0x080 + 0x20 * i, 1, 1⟩
abbrev RELAY_CH_CFG (i : Nat) : Fld := ⟨0x084 + 0x20 * i, 0, 8⟩
abbrev RELAY_CH_DESC_LO (i : Nat) : Fld := ⟨0x088 + 0x20 * i, 5, 27⟩
abbrev RELAY_CH_DESC_HI (i : Nat) : Fld := ⟨0x08C + 0x20 * i, 0, 32⟩
abbrev RELAY_CUR_DESC_LO (i : Nat) : Fld := ⟨0x090 + 0x20 * i, 5, 27⟩
abbrev RELAY_CUR_DESC_HI (i : Nat) : Fld := ⟨0x094 + 0x20 * i, 0, 32⟩
abbrev RELAY_CH_STATUS_STATE (i : Nat) : Fld := ⟨0x098 + 0x20 * i, 0, 2⟩
abbrev RELAY_CH_STATUS_DONE (i : Nat) : Fld := ⟨0x098 + 0x20 * i, 8, 24⟩
abbrev RELAY_CH_BYTES (i : Nat) : Fld := ⟨0x09C + 0x20 * i, 0, 32⟩
/-! DRAM -/
abbrev DRAM_CTRL_ENABLE : Fld := ⟨0x008, 0, 1⟩
abbrev DRAM_STATE_TRAINED : Fld := ⟨0x00C, 0, 1⟩
abbrev DRAM_STATE_BAND : Fld := ⟨0x00C, 1, 2⟩
abbrev DRAM_STATE_SELF_REFRESH : Fld := ⟨0x00C, 3, 1⟩
abbrev DRAM_EVENT_CE : Fld := ⟨0x010, 4, 1⟩
abbrev DRAM_EVENT_UE : Fld := ⟨0x010, 5, 1⟩
abbrev DRAM_EVENT_DRIFT : Fld := ⟨0x010, 6, 1⟩
abbrev DRAM_EVENT_TRAIN_FAIL : Fld := ⟨0x010, 7, 1⟩
abbrev DRAM_EVENT_DRAM_HOT : Fld := ⟨0x010, 8, 1⟩
abbrev DRAM_CAPACITY : Fld := ⟨0x040, 0, 4⟩
abbrev DRAM_TEMP_RPT : Fld := ⟨0x044, 0, 8⟩
abbrev DRAM_CE_COUNT : Fld := ⟨0x048, 0, 32⟩
abbrev DRAM_UE_COUNT : Fld := ⟨0x04C, 0, 32⟩
abbrev DRAM_UE_ADDR_LO : Fld := ⟨0x050, 0, 32⟩
abbrev DRAM_UE_ADDR_HI : Fld := ⟨0x054, 0, 32⟩
abbrev DRAM_DRIFT_COUNT : Fld := ⟨0x058, 0, 16⟩
abbrev DRAM_DQS_OSC : Fld := ⟨0x05C, 0, 16⟩
/-! DRAMCTL -/
abbrev DRAMCTL_CTRL_ENABLE : Fld := ⟨0x008, 0, 1⟩
abbrev DRAMCTL_STATE_FS : Fld := ⟨0x00C, 0, 2⟩
abbrev DRAMCTL_STATE_ORDER : Fld := ⟨0x00C, 2, 2⟩
abbrev DRAMCTL_STATE_TRAIN_FAIL : Fld := ⟨0x00C, 4, 1⟩
abbrev DRAMCTL_STATE_SWITCHING : Fld := ⟨0x00C, 5, 1⟩
abbrev DRAMCTL_STATE_HELD : Fld := ⟨0x00C, 6, 1⟩
abbrev DRAMCTL_EVENT_FREQ_DONE : Fld := ⟨0x010, 4, 1⟩
abbrev DRAMCTL_EVENT_FREQ_DEFERRED : Fld := ⟨0x010, 5, 1⟩
abbrev DRAMCTL_EVENT_TRAIN_FAIL : Fld := ⟨0x010, 6, 1⟩
abbrev DRAMCTL_EVENT_DRAM_HOT : Fld := ⟨0x010, 7, 1⟩
abbrev DRAMCTL_MAP : Fld := ⟨0x040, 0, 2⟩
abbrev DRAMCTL_PAGE : Fld := ⟨0x044, 0, 10⟩
abbrev DRAMCTL_FREQ : Fld := ⟨0x048, 0, 2⟩
abbrev DRAMCTL_RETRAIN : Fld := ⟨0x04C, 0, 16⟩
abbrev DRAMCTL_PASR : Fld := ⟨0x050, 0, 8⟩
abbrev DRAMCTL_RING_RESERVE : Fld := ⟨0x054, 0, 16⟩
abbrev DRAMCTL_TOTAL_GIB : Fld := ⟨0x058, 0, 7⟩
abbrev DRAMCTL_DEFER_MAX : Fld := ⟨0x05C, 0, 16⟩
/-! CLUSTER -/
abbrev CLUSTER_CTRL_ENABLE : Fld := ⟨0x008, 0, 1⟩
abbrev CLUSTER_STATE_ACTIVE : Fld := ⟨0x00C, 0, 1⟩
abbrev CLUSTER_STATE_SIDE_A : Fld := ⟨0x00C, 2, 2⟩
abbrev CLUSTER_STATE_SIDE_B : Fld := ⟨0x00C, 4, 2⟩
abbrev CLUSTER_STATE_HANDOVER : Fld := ⟨0x00C, 6, 1⟩
abbrev CLUSTER_EVENT_HANDOVER_DONE : Fld := ⟨0x010, 4, 1⟩
abbrev CLUSTER_EVENT_HANDOVER_FAIL : Fld := ⟨0x010, 5, 1⟩
abbrev CLUSTER_EVENT_FAILOVER : Fld := ⟨0x010, 6, 1⟩
abbrev CLUSTER_BUILD_A : Fld := ⟨0x040, 0, 32⟩
abbrev CLUSTER_BUILD_B : Fld := ⟨0x044, 0, 32⟩
abbrev CLUSTER_SVN_SIDES_A : Fld := ⟨0x048, 0, 8⟩
abbrev CLUSTER_SVN_SIDES_B : Fld := ⟨0x048, 8, 8⟩
abbrev CLUSTER_WDT_CFG : Fld := ⟨0x04C, 0, 16⟩
abbrev CLUSTER_HANDOVER_FRAME_LO : Fld := ⟨0x050, 0, 32⟩
abbrev CLUSTER_HANDOVER_FRAME_HI : Fld := ⟨0x054, 0, 32⟩
abbrev CLUSTER_HANDOVERS : Fld := ⟨0x058, 0, 16⟩
abbrev CLUSTER_FAILOVERS : Fld := ⟨0x05C, 0, 16⟩
/-! SECURITY -/
abbrev SECURITY_CTRL_ENABLE : Fld := ⟨0x008, 0, 1⟩
abbrev SECURITY_STATE_NO_IMAGE : Fld := ⟨0x00C, 0, 1⟩
abbrev SECURITY_EVENT_AUTH_FAIL : Fld := ⟨0x010, 4, 1⟩
abbrev SECURITY_EVENT_ROLLBACK : Fld := ⟨0x010, 5, 1⟩
abbrev SECURITY_EVENT_SVN_RAISED : Fld := ⟨0x010, 6, 1⟩
abbrev SECURITY_EVENT_SIGN_REFUSED : Fld := ⟨0x010, 7, 1⟩
abbrev SECURITY_MIN_SVN : Fld := ⟨0x040, 0, 7⟩
abbrev SECURITY_SVN_CTRL : Fld := ⟨0x044, 0, 1⟩
abbrev SECURITY_SERIAL (i : Nat) : Fld := ⟨0x048 + 0x4 * i, 0, 32⟩
abbrev SECURITY_CERT_HASH (i : Nat) : Fld := ⟨0x058 + 0x4 * i, 0, 32⟩
abbrev SECURITY_SIGN_COUNT : Fld := ⟨0x088, 0, 32⟩
abbrev SECURITY_BOOT_COUNT_LO : Fld := ⟨0x08C, 0, 32⟩
abbrev SECURITY_BOOT_COUNT_HI : Fld := ⟨0x090, 0, 32⟩
/-! ARRAY -/
abbrev ARRAY_CTRL_ENABLE : Fld := ⟨0x008, 0, 1⟩
abbrev ARRAY_STATE_MEMBER : Fld := ⟨0x00C, 0, 1⟩
abbrev ARRAY_STATE_FENCED : Fld := ⟨0x00C, 1, 1⟩
abbrev ARRAY_STATE_ALIGNED : Fld := ⟨0x00C, 2, 1⟩
abbrev ARRAY_EVENT_FENCED : Fld := ⟨0x010, 4, 1⟩
abbrev ARRAY_EVENT_READMITTED : Fld := ⟨0x010, 5, 1⟩
abbrev ARRAY_EVENT_LEASE_LOW : Fld := ⟨0x010, 6, 1⟩
abbrev ARRAY_EVENT_GEN_CHANGED : Fld := ⟨0x010, 7, 1⟩
abbrev ARRAY_EVENT_ALIGN_LOST : Fld := ⟨0x010, 8, 1⟩
abbrev ARRAY_GENERATION : Fld := ⟨0x040, 0, 32⟩
abbrev ARRAY_LEASE : Fld := ⟨0x044, 0, 16⟩
abbrev ARRAY_LEASE_LEFT : Fld := ⟨0x048, 0, 16⟩
abbrev ARRAY_LOW_MS : Fld := ⟨0x04C, 0, 16⟩
abbrev ARRAY_ALIGN_TOL : Fld := ⟨0x050, 0, 8⟩
abbrev ARRAY_FENCE_FRAME_LO : Fld := ⟨0x054, 0, 32⟩
abbrev ARRAY_FENCE_FRAME_HI : Fld := ⟨0x058, 0, 32⟩
abbrev ARRAY_FENCES : Fld := ⟨0x05C, 0, 16⟩
abbrev ARRAY_STALE_CMDS : Fld := ⟨0x060, 0, 32⟩

end Sys2Proof.Machine.Reg
end

