-- ==== Sys2Proof/Machine/RegTable.lean ====
section
/-! DEFINITION. The register tables of the spec as data: for every block type its registers with their offset, number and
spacing, and for every field its bits, access code, factory value and whether it is retained (R11, R12, R35 and the tables of
each block's chapter). -/

namespace Sys2Proof.Machine

/-- The block types of the page map (R34). -/
inductive Blk where
  | global
  | rstore
  | guard
  | pwr
  | therm
  | lane
  | link
  | ingress
  | prismFe
  | prismBe
  | fstore
  | split
  | draw
  | drawctl
  | henc
  | iris
  | hdec
  | drdec
  | hostq
  | nspace
  | media
  | recorder
  | loupe
  | mirror
  | sdi
  | eth
  | pkt2110
  | coll
  | trig
  | aud
  | cond
  | relay
  | dram
  | dramctl
  | cluster
  | security
  | array
  deriving DecidableEq, Repr

/-- How a field is read and written (R12, R41), without the modifiers SH, PRV and SO. -/
inductive AccKind where
  | rw | ro | rc | wm | w1
  deriving DecidableEq, Repr

/-- One field of a register table: its bits, access code with the modifiers SH, PRV and SO, whether it is retained and its
factory value (R11, R12). -/
structure FieldSpec where
  lo : Nat
  width : Nat
  kind : AccKind
  sh : Bool := false
  prv : Bool := false
  so : Bool := false
  ret : Bool := false
  fac : Nat := 0
  deriving DecidableEq, Repr

/-- One register, or an array of `count` registers `stride` bytes apart, of a register table. -/
structure RegRow where
  off : Nat
  count : Nat
  stride : Nat
  fields : List FieldSpec
  deriving DecidableEq, Repr

/-- Registers of the GLOBAL page, part 1 (R35, R53, R75). -/
def globalRows1 : List RegRow := [
  { off := 0x000, count := 1, stride := 0x4, fields := [{ lo := 16, width := 16, kind := .ro },
      { lo := 8, width := 8, kind := .ro },
      { lo := 0, width := 8, kind := .ro }] },
  { off := 0x004, count := 1, stride := 0x4, fields := [{ lo := 0, width := 32, kind := .ro }] },
  { off := 0x008, count := 1, stride := 0x4, fields := [{ lo := 0, width := 1, kind := .wm }] },
  { off := 0x00C, count := 1, stride := 0x4, fields := [{ lo := 0, width := 3, kind := .ro },
      { lo := 8, width := 1, kind := .ro },
      { lo := 9, width := 1, kind := .ro },
      { lo := 10, width := 1, kind := .ro }] },
  { off := 0x010, count := 1, stride := 0x4, fields := [{ lo := 0, width := 1, kind := .rc },
      { lo := 1, width := 1, kind := .rc },
      { lo := 2, width := 1, kind := .rc },
      { lo := 3, width := 1, kind := .rc },
      { lo := 8, width := 1, kind := .rc },
      { lo := 9, width := 1, kind := .rc }] },
  { off := 0x014, count := 1, stride := 0x4, fields := [{ lo := 0, width := 32, kind := .rw, ret := true }] },
  { off := 0x018, count := 1, stride := 0x4, fields := [{ lo := 0, width := 32, kind := .rw }] },
  { off := 0x01C, count := 1, stride := 0x4, fields := [{ lo := 0, width := 1, kind := .rw },
      { lo := 1, width := 1, kind := .ro },
      { lo := 2, width := 4, kind := .ro },
      { lo := 8, width := 1, kind := .rc },
      { lo := 9, width := 1, kind := .rc },
      { lo := 10, width := 1, kind := .rc },
      { lo := 11, width := 1, kind := .rc }] },
  { off := 0x020, count := 1, stride := 0x4, fields := [] },
  { off := 0x024, count := 1, stride := 0x4, fields := [{ lo := 0, width := 2, kind := .rw, ret := true, fac := 3 },
      { lo := 2, width := 2, kind := .ro, fac := 3 },
      { lo := 4, width := 1, kind := .rc }] },
  { off := 0x040, count := 1, stride := 0x4, fields := [{ lo := 16, width := 16, kind := .ro, fac := 0x7160 },
      { lo := 0, width := 16, kind := .ro }] },
  { off := 0x044, count := 1, stride := 0x4, fields := [{ lo := 0, width := 32, kind := .ro }] },
  { off := 0x050, count := 1, stride := 0x4, fields := [{ lo := 0, width := 32, kind := .rw }] },
  { off := 0x054, count := 1, stride := 0x4, fields := [{ lo := 0, width := 32, kind := .rw }] },
  { off := 0x060, count := 1, stride := 0x4, fields := [{ lo := 0, width := 32, kind := .ro }] },
  { off := 0x064, count := 1, stride := 0x4, fields := [{ lo := 0, width := 32, kind := .ro }] },
  { off := 0x080, count := 8, stride := 0x4, fields := [{ lo := 0, width := 32, kind := .ro }] },
  { off := 0x0A0, count := 1, stride := 0x4, fields := [{ lo := 0, width := 6, kind := .rw }] },
  { off := 0x100, count := 64, stride := 0x4, fields := [{ lo := 0, width := 32, kind := .rw, prv := true, ret := true }] },
  { off := 0x200, count := 1, stride := 0x4, fields := [{ lo := 0, width := 22, kind := .ro }] }]

/-- Registers of the GLOBAL page, part 2 (R35, R53, R75). -/
def globalRows2 : List RegRow := [
  { off := 0x204, count := 1, stride := 0x4, fields := [{ lo := 0, width := 2, kind := .rc },
      { lo := 2, width := 1, kind := .rc },
      { lo := 8, width := 16, kind := .rc }] },
  { off := 0x208, count := 1, stride := 0x4, fields := [{ lo := 0, width := 32, kind := .rw }] },
  { off := 0x20C, count := 1, stride := 0x4, fields := [{ lo := 0, width := 4, kind := .ro }] },
  { off := 0x210, count := 1, stride := 0x4, fields := [{ lo := 0, width := 1, kind := .rw, prv := true },
      { lo := 16, width := 16, kind := .rw, prv := true }] }]

/-- Registers of the RSTORE page (R35, R88). -/
def rstoreRows : List RegRow := [
  { off := 0x000, count := 1, stride := 0x4, fields := [{ lo := 16, width := 16, kind := .ro },
      { lo := 8, width := 8, kind := .ro },
      { lo := 0, width := 8, kind := .ro }] },
  { off := 0x004, count := 1, stride := 0x4, fields := [{ lo := 0, width := 32, kind := .ro }] },
  { off := 0x008, count := 1, stride := 0x4, fields := [{ lo := 0, width := 1, kind := .wm, ret := true, fac := 1 },
      { lo := 1, width := 1, kind := .wm },
      { lo := 2, width := 1, kind := .wm }] },
  { off := 0x00C, count := 1, stride := 0x4, fields := [] },
  { off := 0x010, count := 1, stride := 0x4, fields := [{ lo := 0, width := 1, kind := .rc },
      { lo := 1, width := 1, kind := .rc },
      { lo := 2, width := 1, kind := .rc },
      { lo := 3, width := 1, kind := .rc },
      { lo := 4, width := 1, kind := .rc },
      { lo := 5, width := 1, kind := .rc },
      { lo := 6, width := 1, kind := .rc },
      { lo := 7, width := 1, kind := .rc }] },
  { off := 0x014, count := 1, stride := 0x4, fields := [{ lo := 0, width := 32, kind := .rw, ret := true }] },
  { off := 0x018, count := 1, stride := 0x4, fields := [{ lo := 0, width := 32, kind := .rw }] },
  { off := 0x01C, count := 1, stride := 0x4, fields := [{ lo := 0, width := 1, kind := .rw },
      { lo := 1, width := 1, kind := .ro },
      { lo := 2, width := 2, kind := .rw, ret := true }] },
  { off := 0x020, count := 1, stride := 0x4, fields := [] },
  { off := 0x024, count := 1, stride := 0x4, fields := [{ lo := 0, width := 2, kind := .rw, ret := true, fac := 3 },
      { lo := 2, width := 2, kind := .ro, fac := 3 },
      { lo := 4, width := 1, kind := .rc }] },
  { off := 0x040, count := 1, stride := 0x4, fields := [{ lo := 0, width := 16, kind := .rw, ret := true },
      { lo := 16, width := 2, kind := .rw, ret := true }] },
  { off := 0x044, count := 1, stride := 0x4, fields := [{ lo := 0, width := 1, kind := .ro },
      { lo := 1, width := 1, kind := .ro },
      { lo := 2, width := 1, kind := .ro },
      { lo := 3, width := 1, kind := .ro },
      { lo := 4, width := 2, kind := .ro, fac := 2 }] },
  { off := 0x048, count := 1, stride := 0x4, fields := [{ lo := 0, width := 32, kind := .ro }] },
  { off := 0x04C, count := 1, stride := 0x4, fields := [{ lo := 0, width := 32, kind := .ro }] },
  { off := 0x050, count := 1, stride := 0x4, fields := [{ lo := 0, width := 16, kind := .ro }] },
  { off := 0x054, count := 1, stride := 0x4, fields := [{ lo := 0, width := 32, kind := .ro }] },
  { off := 0x058, count := 1, stride := 0x4, fields := [{ lo := 0, width := 16, kind := .ro }] }]

/-- Registers of the GUARD page, part 1 (R35, R476). -/
def guardRows1 : List RegRow := [
  { off := 0x000, count := 1, stride := 0x4, fields := [{ lo := 16, width := 16, kind := .ro },
      { lo := 8, width := 8, kind := .ro },
      { lo := 0, width := 8, kind := .ro }] },
  { off := 0x004, count := 1, stride := 0x4, fields := [{ lo := 0, width := 32, kind := .ro }] },
  { off := 0x008, count := 1, stride := 0x4, fields := [{ lo := 0, width := 1, kind := .wm },
      { lo := 1, width := 1, kind := .wm }] },
  { off := 0x00C, count := 1, stride := 0x4, fields := [] },
  { off := 0x010, count := 1, stride := 0x4, fields := [{ lo := 0, width := 1, kind := .rc },
      { lo := 1, width := 1, kind := .rc },
      { lo := 2, width := 1, kind := .rc },
      { lo := 3, width := 1, kind := .rc },
      { lo := 4, width := 1, kind := .rc },
      { lo := 5, width := 1, kind := .rc },
      { lo := 6, width := 1, kind := .rc },
      { lo := 7, width := 1, kind := .rc },
      { lo := 8, width := 1, kind := .rc }] },
  { off := 0x014, count := 1, stride := 0x4, fields := [{ lo := 0, width := 32, kind := .rw, ret := true }] },
  { off := 0x018, count := 1, stride := 0x4, fields := [{ lo := 0, width := 32, kind := .rw }] },
  { off := 0x01C, count := 1, stride := 0x4, fields := [{ lo := 0, width := 1, kind := .rw },
      { lo := 1, width := 1, kind := .ro },
      { lo := 2, width := 2, kind := .rw, ret := true }] },
  { off := 0x020, count := 1, stride := 0x4, fields := [{ lo := 0, width := 6, kind := .w1, prv := true }] },
  { off := 0x024, count := 1, stride := 0x4, fields := [{ lo := 0, width := 2, kind := .rw, ret := true, fac := 3 },
      { lo := 2, width := 2, kind := .ro, fac := 3 },
      { lo := 4, width := 1, kind := .rc }] },
  { off := 0x040, count := 1, stride := 0x4, fields := [{ lo := 0, width := 32, kind := .ro }] },
  { off := 0x044, count := 1, stride := 0x4, fields := [{ lo := 0, width := 32, kind := .ro }] },
  { off := 0x048, count := 1, stride := 0x4, fields := [{ lo := 0, width := 32, kind := .ro }] },
  { off := 0x04C, count := 1, stride := 0x4, fields := [{ lo := 0, width := 32, kind := .ro }] },
  { off := 0x050, count := 1, stride := 0x4, fields := [{ lo := 0, width := 32, kind := .ro }] },
  { off := 0x054, count := 1, stride := 0x4, fields := [{ lo := 0, width := 1, kind := .rw, ret := true },
      { lo := 1, width := 1, kind := .rw, ret := true }] },
  { off := 0x058, count := 1, stride := 0x4, fields := [{ lo := 0, width := 4, kind := .ro },
      { lo := 4, width := 4, kind := .ro }] },
  { off := 0x060, count := 1, stride := 0x4, fields := [{ lo := 0, width := 32, kind := .rw, so := true, ret := true, fac := 0x7A120 }] },
  { off := 0x064, count := 1, stride := 0x4, fields := [{ lo := 0, width := 8, kind := .rw, so := true, ret := true, fac := 240 }] },
  { off := 0x068, count := 1, stride := 0x4, fields := [{ lo := 0, width := 5, kind := .rw, ret := true, fac := 16 },
      { lo := 8, width := 5, kind := .rw, ret := true, fac := 24 }] }]

/-- Registers of the GUARD page, part 2 (R35, R476). -/
def guardRows2 : List RegRow := [
  { off := 0x06C, count := 1, stride := 0x4, fields := [{ lo := 0, width := 16, kind := .rw, ret := true, fac := 100 },
      { lo := 16, width := 8, kind := .rw, ret := true, fac := 32 }] },
  { off := 0x070, count := 1, stride := 0x4, fields := [{ lo := 0, width := 16, kind := .rw, so := true, ret := true, fac := 0x8CA0 }] },
  { off := 0x074, count := 1, stride := 0x4, fields := [{ lo := 0, width := 4, kind := .rw, ret := true, fac := 15 },
      { lo := 16, width := 16, kind := .rw, ret := true, fac := 0x3E8 }] },
  { off := 0x078, count := 1, stride := 0x4, fields := [{ lo := 0, width := 4, kind := .rw, ret := true, fac := 15 },
      { lo := 16, width := 16, kind := .rw, ret := true, fac := 0x3E8 }] },
  { off := 0x080, count := 16, stride := 0x10, fields := [{ lo := 0, width := 1, kind := .rw },
      { lo := 1, width := 1, kind := .rw },
      { lo := 2, width := 1, kind := .rw },
      { lo := 12, width := 20, kind := .rw }] },
  { off := 0x084, count := 16, stride := 0x10, fields := [{ lo := 0, width := 32, kind := .rw }] },
  { off := 0x088, count := 16, stride := 0x10, fields := [{ lo := 12, width := 20, kind := .rw }] },
  { off := 0x08C, count := 16, stride := 0x10, fields := [{ lo := 0, width := 32, kind := .rw }] }]

/-- Registers of the PWR page (R35, R493). -/
def pwrRows : List RegRow := [
  { off := 0x000, count := 1, stride := 0x4, fields := [{ lo := 16, width := 16, kind := .ro },
      { lo := 8, width := 8, kind := .ro },
      { lo := 0, width := 8, kind := .ro }] },
  { off := 0x004, count := 1, stride := 0x4, fields := [{ lo := 0, width := 32, kind := .ro }] },
  { off := 0x008, count := 1, stride := 0x4, fields := [{ lo := 0, width := 1, kind := .wm }] },
  { off := 0x00C, count := 1, stride := 0x4, fields := [] },
  { off := 0x010, count := 1, stride := 0x4, fields := [{ lo := 0, width := 1, kind := .rc },
      { lo := 1, width := 1, kind := .rc },
      { lo := 2, width := 1, kind := .rc },
      { lo := 3, width := 1, kind := .rc },
      { lo := 4, width := 1, kind := .rc },
      { lo := 5, width := 1, kind := .rc },
      { lo := 6, width := 1, kind := .rc }] },
  { off := 0x014, count := 1, stride := 0x4, fields := [{ lo := 0, width := 32, kind := .rw, ret := true }] },
  { off := 0x018, count := 1, stride := 0x4, fields := [{ lo := 0, width := 32, kind := .rw }] },
  { off := 0x01C, count := 1, stride := 0x4, fields := [{ lo := 0, width := 1, kind := .rw },
      { lo := 1, width := 1, kind := .ro },
      { lo := 2, width := 2, kind := .rw, ret := true }] },
  { off := 0x020, count := 1, stride := 0x4, fields := [] },
  { off := 0x024, count := 1, stride := 0x4, fields := [{ lo := 0, width := 2, kind := .rw, ret := true, fac := 3 },
      { lo := 2, width := 2, kind := .ro, fac := 3 },
      { lo := 4, width := 1, kind := .rc }] },
  { off := 0x040, count := 1, stride := 0x4, fields := [{ lo := 0, width := 16, kind := .rw, ret := true, fac := 0x3E8 }] },
  { off := 0x044, count := 5, stride := 0x4, fields := [{ lo := 0, width := 32, kind := .ro }] },
  { off := 0x058, count := 5, stride := 0x4, fields := [{ lo := 0, width := 32, kind := .ro }] },
  { off := 0x06C, count := 1, stride := 0x4, fields := [{ lo := 0, width := 8, kind := .ro }] },
  { off := 0x070, count := 1, stride := 0x4, fields := [{ lo := 0, width := 8, kind := .ro },
      { lo := 8, width := 2, kind := .ro }] },
  { off := 0x074, count := 1, stride := 0x4, fields := [{ lo := 0, width := 16, kind := .ro }] },
  { off := 0x078, count := 1, stride := 0x4, fields := [{ lo := 0, width := 16, kind := .rc }] },
  { off := 0x07C, count := 1, stride := 0x4, fields := [{ lo := 0, width := 32, kind := .ro }] },
  { off := 0x080, count := 1, stride := 0x4, fields := [{ lo := 0, width := 10, kind := .ro, fac := 0x2EE }] },
  { off := 0x084, count := 1, stride := 0x4, fields := [{ lo := 0, width := 32, kind := .ro }] }]

/-- Registers of the THERM page (R35, R494). -/
def thermRows : List RegRow := [
  { off := 0x000, count := 1, stride := 0x4, fields := [{ lo := 16, width := 16, kind := .ro },
      { lo := 8, width := 8, kind := .ro },
      { lo := 0, width := 8, kind := .ro }] },
  { off := 0x004, count := 1, stride := 0x4, fields := [{ lo := 0, width := 32, kind := .ro }] },
  { off := 0x008, count := 1, stride := 0x4, fields := [{ lo := 0, width := 1, kind := .wm }] },
  { off := 0x00C, count := 1, stride := 0x4, fields := [{ lo := 0, width := 2, kind := .ro },
      { lo := 3, width := 1, kind := .ro },
      { lo := 4, width := 1, kind := .ro }] },
  { off := 0x010, count := 1, stride := 0x4, fields := [{ lo := 0, width := 1, kind := .rc },
      { lo := 1, width := 1, kind := .rc },
      { lo := 2, width := 1, kind := .rc },
      { lo := 3, width := 1, kind := .rc },
      { lo := 4, width := 1, kind := .rc },
      { lo := 5, width := 1, kind := .rc },
      { lo := 6, width := 1, kind := .rc },
      { lo := 7, width := 1, kind := .rc },
      { lo := 8, width := 1, kind := .rc },
      { lo := 9, width := 1, kind := .rc }] },
  { off := 0x014, count := 1, stride := 0x4, fields := [{ lo := 0, width := 32, kind := .rw, ret := true }] },
  { off := 0x018, count := 1, stride := 0x4, fields := [{ lo := 0, width := 32, kind := .rw }] },
  { off := 0x01C, count := 1, stride := 0x4, fields := [{ lo := 0, width := 1, kind := .rw },
      { lo := 1, width := 1, kind := .ro },
      { lo := 2, width := 2, kind := .rw, ret := true }] },
  { off := 0x020, count := 1, stride := 0x4, fields := [{ lo := 0, width := 1, kind := .w1, prv := true }] },
  { off := 0x024, count := 1, stride := 0x4, fields := [{ lo := 0, width := 2, kind := .rw, ret := true, fac := 3 },
      { lo := 2, width := 2, kind := .ro, fac := 3 },
      { lo := 4, width := 1, kind := .rc }] },
  { off := 0x040, count := 1, stride := 0x4, fields := [{ lo := 0, width := 16, kind := .ro }] },
  { off := 0x044, count := 1, stride := 0x4, fields := [{ lo := 0, width := 16, kind := .ro }] },
  { off := 0x048, count := 1, stride := 0x4, fields := [{ lo := 0, width := 8, kind := .rw, prv := true, ret := true, fac := 95 },
      { lo := 8, width := 8, kind := .rw, prv := true, ret := true, fac := 103 },
      { lo := 16, width := 8, kind := .rw, prv := true, ret := true, fac := 110 },
      { lo := 24, width := 4, kind := .rw, prv := true, ret := true, fac := 5 }] },
  { off := 0x04C, count := 1, stride := 0x4, fields := [{ lo := 0, width := 16, kind := .rw, prv := true, ret := true, fac := 32 },
      { lo := 16, width := 16, kind := .rw, prv := true, ret := true, fac := 200 }] },
  { off := 0x050, count := 1, stride := 0x4, fields := [{ lo := 0, width := 8, kind := .rw, prv := true, ret := true, fac := 15 },
      { lo := 8, width := 4, kind := .rw, prv := true, ret := true, fac := 8 }] },
  { off := 0x054, count := 1, stride := 0x4, fields := [{ lo := 0, width := 16, kind := .ro }] },
  { off := 0x060, count := 16, stride := 0x4, fields := [{ lo := 0, width := 16, kind := .ro }] },
  { off := 0x0A0, count := 1, stride := 0x4, fields := [{ lo := 0, width := 16, kind := .ro }] },
  { off := 0x0A4, count := 1, stride := 0x4, fields := [{ lo := 0, width := 32, kind := .ro }] },
  { off := 0x0A8, count := 1, stride := 0x4, fields := [{ lo := 0, width := 16, kind := .ro }] }]

/-- Registers of the LANE page, part 1 (R35, R124). -/
def laneRows1 : List RegRow := [
  { off := 0x000, count := 1, stride := 0x4, fields := [{ lo := 16, width := 16, kind := .ro },
      { lo := 8, width := 8, kind := .ro },
      { lo := 0, width := 8, kind := .ro }] },
  { off := 0x004, count := 1, stride := 0x4, fields := [{ lo := 0, width := 32, kind := .ro }] },
  { off := 0x008, count := 1, stride := 0x4, fields := [{ lo := 0, width := 1, kind := .wm }] },
  { off := 0x00C, count := 1, stride := 0x4, fields := [] },
  { off := 0x010, count := 1, stride := 0x4, fields := [{ lo := 0, width := 1, kind := .rc },
      { lo := 1, width := 1, kind := .rc },
      { lo := 2, width := 1, kind := .rc },
      { lo := 3, width := 1, kind := .rc },
      { lo := 4, width := 1, kind := .rc },
      { lo := 5, width := 1, kind := .rc },
      { lo := 6, width := 1, kind := .rc },
      { lo := 7, width := 1, kind := .rc },
      { lo := 8, width := 1, kind := .rc }] },
  { off := 0x014, count := 1, stride := 0x4, fields := [{ lo := 0, width := 32, kind := .rw, ret := true }] },
  { off := 0x018, count := 1, stride := 0x4, fields := [{ lo := 0, width := 32, kind := .rw }] },
  { off := 0x01C, count := 1, stride := 0x4, fields := [{ lo := 0, width := 1, kind := .rw },
      { lo := 1, width := 1, kind := .ro },
      { lo := 2, width := 2, kind := .rw, ret := true }] },
  { off := 0x020, count := 1, stride := 0x4, fields := [] },
  { off := 0x024, count := 1, stride := 0x4, fields := [{ lo := 0, width := 2, kind := .rw, ret := true, fac := 3 },
      { lo := 2, width := 2, kind := .ro, fac := 3 },
      { lo := 4, width := 1, kind := .rc }] },
  { off := 0x040, count := 1, stride := 0x4, fields := [{ lo := 0, width := 1, kind := .rw },
      { lo := 1, width := 7, kind := .rw }] },
  { off := 0x044, count := 1, stride := 0x4, fields := [{ lo := 0, width := 1, kind := .ro, fac := 1 },
      { lo := 1, width := 1, kind := .ro },
      { lo := 2, width := 1, kind := .ro },
      { lo := 3, width := 1, kind := .ro },
      { lo := 4, width := 1, kind := .ro },
      { lo := 8, width := 8, kind := .ro },
      { lo := 16, width := 4, kind := .ro },
      { lo := 20, width := 1, kind := .ro }] },
  { off := 0x048, count := 1, stride := 0x4, fields := [{ lo := 0, width := 8, kind := .rw, ret := true },
      { lo := 8, width := 8, kind := .rw, ret := true },
      { lo := 16, width := 8, kind := .rw, ret := true },
      { lo := 24, width := 8, kind := .rw, ret := true }] },
  { off := 0x04C, count := 1, stride := 0x4, fields := [{ lo := 0, width := 8, kind := .rw, ret := true }] },
  { off := 0x050, count := 1, stride := 0x4, fields := [{ lo := 0, width := 4, kind := .rw, ret := true },
      { lo := 4, width := 4, kind := .rw, ret := true }] },
  { off := 0x054, count := 1, stride := 0x4, fields := [{ lo := 0, width := 5, kind := .rw, ret := true, fac := 16 }] },
  { off := 0x060, count := 1, stride := 0x4, fields := [{ lo := 0, width := 3, kind := .rw },
      { lo := 3, width := 1, kind := .rw },
      { lo := 4, width := 1, kind := .rw },
      { lo := 5, width := 2, kind := .rw },
      { lo := 7, width := 1, kind := .rw },
      { lo := 8, width := 5, kind := .rw }] },
  { off := 0x064, count := 1, stride := 0x4, fields := [{ lo := 0, width := 1, kind := .ro }] },
  { off := 0x068, count := 1, stride := 0x4, fields := [{ lo := 0, width := 32, kind := .rw }] },
  { off := 0x06C, count := 1, stride := 0x4, fields := [{ lo := 0, width := 32, kind := .rw }] }]

/-- Registers of the LANE page, part 2 (R35, R124). -/
def laneRows2 : List RegRow := [
  { off := 0x070, count := 1, stride := 0x4, fields := [{ lo := 0, width := 32, kind := .ro }] },
  { off := 0x074, count := 1, stride := 0x4, fields := [{ lo := 0, width := 32, kind := .ro }] },
  { off := 0x078, count := 1, stride := 0x4, fields := [{ lo := 0, width := 32, kind := .ro }] },
  { off := 0x07C, count := 1, stride := 0x4, fields := [{ lo := 0, width := 16, kind := .ro }] },
  { off := 0x080, count := 1, stride := 0x4, fields := [{ lo := 0, width := 16, kind := .ro }] }]

/-- Registers of the LINK page, part 1 (R35, R123). -/
def linkRows1 : List RegRow := [
  { off := 0x000, count := 1, stride := 0x4, fields := [{ lo := 16, width := 16, kind := .ro },
      { lo := 8, width := 8, kind := .ro },
      { lo := 0, width := 8, kind := .ro }] },
  { off := 0x004, count := 1, stride := 0x4, fields := [{ lo := 0, width := 32, kind := .ro }] },
  { off := 0x008, count := 1, stride := 0x4, fields := [{ lo := 0, width := 1, kind := .wm, so := true, ret := true },
      { lo := 1, width := 1, kind := .wm, so := true, ret := true },
      { lo := 2, width := 1, kind := .wm, so := true, ret := true },
      { lo := 3, width := 1, kind := .wm, prv := true, ret := true },
      { lo := 4, width := 1, kind := .wm, ret := true, fac := 1 },
      { lo := 5, width := 1, kind := .wm }] },
  { off := 0x00C, count := 1, stride := 0x4, fields := [{ lo := 0, width := 3, kind := .ro },
      { lo := 8, width := 5, kind := .ro }] },
  { off := 0x010, count := 1, stride := 0x4, fields := [{ lo := 0, width := 1, kind := .rc },
      { lo := 1, width := 1, kind := .rc },
      { lo := 2, width := 1, kind := .rc },
      { lo := 3, width := 1, kind := .rc },
      { lo := 4, width := 1, kind := .rc },
      { lo := 5, width := 1, kind := .rc },
      { lo := 6, width := 1, kind := .rc },
      { lo := 7, width := 1, kind := .rc },
      { lo := 8, width := 1, kind := .rc },
      { lo := 9, width := 1, kind := .rc },
      { lo := 10, width := 1, kind := .rc },
      { lo := 11, width := 1, kind := .rc },
      { lo := 12, width := 1, kind := .rc },
      { lo := 13, width := 1, kind := .rc },
      { lo := 14, width := 1, kind := .rc },
      { lo := 15, width := 1, kind := .rc },
      { lo := 16, width := 1, kind := .rc },
      { lo := 17, width := 1, kind := .rc },
      { lo := 18, width := 1, kind := .rc },
      { lo := 19, width := 1, kind := .rc }] },
  { off := 0x014, count := 1, stride := 0x4, fields := [{ lo := 0, width := 32, kind := .rw, ret := true }] },
  { off := 0x018, count := 1, stride := 0x4, fields := [{ lo := 0, width := 32, kind := .rw }] },
  { off := 0x01C, count := 1, stride := 0x4, fields := [{ lo := 0, width := 1, kind := .rw },
      { lo := 1, width := 1, kind := .ro },
      { lo := 2, width := 2, kind := .rw, ret := true }] },
  { off := 0x020, count := 1, stride := 0x4, fields := [] },
  { off := 0x024, count := 1, stride := 0x4, fields := [{ lo := 0, width := 2, kind := .rw, ret := true, fac := 3 },
      { lo := 2, width := 2, kind := .ro, fac := 3 },
      { lo := 4, width := 1, kind := .rc }] },
  { off := 0x040, count := 1, stride := 0x4, fields := [{ lo := 0, width := 5, kind := .rw, so := true, ret := true, fac := 8 },
      { lo := 5, width := 1, kind := .rw, so := true, ret := true },
      { lo := 6, width := 2, kind := .rw, so := true, ret := true, fac := 1 },
      { lo := 8, width := 1, kind := .rw, so := true, ret := true },
      { lo := 9, width := 1, kind := .rw, so := true, ret := true, fac := 1 }] },
  { off := 0x044, count := 1, stride := 0x4, fields := [{ lo := 0, width := 8, kind := .rw, ret := true, fac := 4 }] },
  { off := 0x048, count := 1, stride := 0x4, fields := [{ lo := 0, width := 16, kind := .rw, ret := true, fac := 10 },
      { lo := 16, width := 16, kind := .rw, ret := true, fac := 100 }] },
  { off := 0x04C, count := 1, stride := 0x4, fields := [{ lo := 0, width := 8, kind := .rw, ret := true, fac := 100 }] },
  { off := 0x050, count := 1, stride := 0x4, fields := [{ lo := 0, width := 4, kind := .rw, so := true, ret := true },
      { lo := 4, width := 4, kind := .rw, so := true, ret := true }] },
  { off := 0x054, count := 1, stride := 0x4, fields := [{ lo := 0, width := 32, kind := .ro }] },
  { off := 0x058, count := 1, stride := 0x4, fields := [{ lo := 0, width := 32, kind := .ro }] },
  { off := 0x05C, count := 1, stride := 0x4, fields := [{ lo := 0, width := 16, kind := .ro },
      { lo := 16, width := 16, kind := .ro }] },
  { off := 0x060, count := 1, stride := 0x4, fields := [{ lo := 0, width := 1, kind := .ro },
      { lo := 1, width := 1, kind := .ro },
      { lo := 4, width := 4, kind := .ro },
      { lo := 8, width := 8, kind := .ro }] },
  { off := 0x064, count := 1, stride := 0x4, fields := [{ lo := 0, width := 6, kind := .ro }] }]

/-- Registers of the LINK page, part 2 (R35, R123). -/
def linkRows2 : List RegRow := [
  { off := 0x068, count := 1, stride := 0x4, fields := [{ lo := 0, width := 32, kind := .ro }] },
  { off := 0x06C, count := 1, stride := 0x4, fields := [{ lo := 0, width := 32, kind := .ro }] },
  { off := 0x070, count := 1, stride := 0x4, fields := [{ lo := 0, width := 32, kind := .ro }] },
  { off := 0x074, count := 1, stride := 0x4, fields := [{ lo := 0, width := 32, kind := .ro }] },
  { off := 0x078, count := 1, stride := 0x4, fields := [{ lo := 0, width := 1, kind := .ro },
      { lo := 1, width := 1, kind := .ro }] },
  { off := 0x080, count := 1, stride := 0x4, fields := [{ lo := 0, width := 32, kind := .rw, prv := true }] },
  { off := 0x084, count := 1, stride := 0x4, fields := [{ lo := 0, width := 32, kind := .rw, prv := true }] },
  { off := 0x088, count := 1, stride := 0x4, fields := [{ lo := 0, width := 1, kind := .rw, prv := true },
      { lo := 1, width := 1, kind := .rw, prv := true },
      { lo := 2, width := 1, kind := .ro, prv := true },
      { lo := 3, width := 2, kind := .ro, prv := true }] },
  { off := 0x08C, count := 1, stride := 0x4, fields := [{ lo := 0, width := 32, kind := .ro, prv := true }] },
  { off := 0x400, count := 16, stride := 0x8, fields := [{ lo := 0, width := 32, kind := .rw, sh := true, ret := true }] },
  { off := 0x404, count := 16, stride := 0x8, fields := [{ lo := 0, width := 32, kind := .rw, sh := true, ret := true }] },
  { off := 0x480, count := 1, stride := 0x4, fields := [{ lo := 0, width := 5, kind := .rw, sh := true, ret := true }] }]

/-- Registers of the INGRESS page, part 1 (R35, R145). -/
def ingressRows1 : List RegRow := [
  { off := 0x000, count := 1, stride := 0x4, fields := [{ lo := 16, width := 16, kind := .ro },
      { lo := 8, width := 8, kind := .ro },
      { lo := 0, width := 8, kind := .ro }] },
  { off := 0x004, count := 1, stride := 0x4, fields := [{ lo := 0, width := 32, kind := .ro }] },
  { off := 0x008, count := 1, stride := 0x4, fields := [{ lo := 0, width := 1, kind := .wm, so := true, ret := true }] },
  { off := 0x00C, count := 1, stride := 0x4, fields := [{ lo := 0, width := 2, kind := .ro },
      { lo := 8, width := 5, kind := .ro },
      { lo := 16, width := 1, kind := .ro }] },
  { off := 0x010, count := 1, stride := 0x4, fields := [{ lo := 0, width := 1, kind := .rc },
      { lo := 1, width := 1, kind := .rc },
      { lo := 2, width := 1, kind := .rc },
      { lo := 3, width := 1, kind := .rc },
      { lo := 4, width := 1, kind := .rc },
      { lo := 5, width := 1, kind := .rc },
      { lo := 6, width := 1, kind := .rc },
      { lo := 7, width := 1, kind := .rc },
      { lo := 8, width := 1, kind := .rc },
      { lo := 9, width := 1, kind := .rc },
      { lo := 10, width := 1, kind := .rc },
      { lo := 11, width := 1, kind := .rc }] },
  { off := 0x014, count := 1, stride := 0x4, fields := [{ lo := 0, width := 32, kind := .rw, ret := true }] },
  { off := 0x018, count := 1, stride := 0x4, fields := [{ lo := 0, width := 32, kind := .rw }] },
  { off := 0x01C, count := 1, stride := 0x4, fields := [{ lo := 0, width := 1, kind := .rw },
      { lo := 1, width := 1, kind := .ro },
      { lo := 2, width := 2, kind := .rw, ret := true }] },
  { off := 0x020, count := 1, stride := 0x4, fields := [] },
  { off := 0x024, count := 1, stride := 0x4, fields := [{ lo := 0, width := 2, kind := .rw, ret := true, fac := 3 },
      { lo := 2, width := 2, kind := .ro, fac := 3 },
      { lo := 4, width := 1, kind := .rc }] },
  { off := 0x040, count := 1, stride := 0x4, fields := [{ lo := 0, width := 2, kind := .rw, so := true, ret := true },
      { lo := 2, width := 2, kind := .rw, so := true, ret := true },
      { lo := 4, width := 1, kind := .rw, so := true, ret := true, fac := 1 },
      { lo := 8, width := 8, kind := .rw, so := true, ret := true, fac := 148 },
      { lo := 16, width := 1, kind := .rw, so := true, ret := true }] },
  { off := 0x044, count := 1, stride := 0x4, fields := [{ lo := 0, width := 16, kind := .rw, so := true, ret := true },
      { lo := 16, width := 16, kind := .rw, so := true, ret := true }] },
  { off := 0x048, count := 1, stride := 0x4, fields := [{ lo := 0, width := 16, kind := .rw, so := true, ret := true, fac := 0x2000 },
      { lo := 16, width := 16, kind := .rw, so := true, ret := true, fac := 0x10E0 }] },
  { off := 0x04C, count := 1, stride := 0x4, fields := [{ lo := 0, width := 16, kind := .rw, so := true, ret := true },
      { lo := 16, width := 16, kind := .rw, so := true, ret := true }] },
  { off := 0x050, count := 1, stride := 0x4, fields := [{ lo := 0, width := 16, kind := .rw, so := true, ret := true, fac := 0x2000 },
      { lo := 16, width := 16, kind := .rw, so := true, ret := true, fac := 0x10E0 }] },
  { off := 0x054, count := 1, stride := 0x4, fields := [{ lo := 0, width := 5, kind := .rw, so := true, ret := true, fac := 3 },
      { lo := 16, width := 16, kind := .rw, so := true, ret := true }] },
  { off := 0x058, count := 1, stride := 0x4, fields := [{ lo := 21, width := 11, kind := .rw, so := true, ret := true }] },
  { off := 0x05C, count := 1, stride := 0x4, fields := [{ lo := 0, width := 32, kind := .rw, so := true, ret := true }] },
  { off := 0x060, count := 1, stride := 0x4, fields := [{ lo := 12, width := 20, kind := .rw, so := true, ret := true }] },
  { off := 0x064, count := 1, stride := 0x4, fields := [{ lo := 0, width := 32, kind := .rw, so := true, ret := true }] }]

/-- Registers of the INGRESS page, part 2 (R35, R145). -/
def ingressRows2 : List RegRow := [
  { off := 0x068, count := 1, stride := 0x4, fields := [{ lo := 0, width := 8, kind := .rw, ret := true, fac := 50 }] },
  { off := 0x06C, count := 1, stride := 0x4, fields := [{ lo := 0, width := 16, kind := .rw, ret := true, fac := 0x3E8 }] },
  { off := 0x070, count := 1, stride := 0x4, fields := [{ lo := 0, width := 24, kind := .ro }] },
  { off := 0x074, count := 1, stride := 0x4, fields := [{ lo := 0, width := 16, kind := .ro }] },
  { off := 0x078, count := 1, stride := 0x4, fields := [{ lo := 0, width := 5, kind := .ro }] },
  { off := 0x080, count := 1, stride := 0x4, fields := [{ lo := 0, width := 32, kind := .ro }] },
  { off := 0x084, count := 1, stride := 0x4, fields := [{ lo := 0, width := 32, kind := .ro }] },
  { off := 0x088, count := 1, stride := 0x4, fields := [{ lo := 0, width := 16, kind := .ro }] },
  { off := 0x08C, count := 1, stride := 0x4, fields := [{ lo := 0, width := 32, kind := .ro }] },
  { off := 0x090, count := 1, stride := 0x4, fields := [{ lo := 0, width := 32, kind := .ro }] },
  { off := 0x094, count := 1, stride := 0x4, fields := [{ lo := 0, width := 16, kind := .ro }] },
  { off := 0x098, count := 1, stride := 0x4, fields := [{ lo := 0, width := 32, kind := .ro }] },
  { off := 0x09C, count := 1, stride := 0x4, fields := [{ lo := 0, width := 32, kind := .ro }] },
  { off := 0x400, count := 1, stride := 0x4, fields := [{ lo := 0, width := 16, kind := .rw, sh := true, ret := true },
      { lo := 16, width := 16, kind := .rw, sh := true, ret := true }] },
  { off := 0x404, count := 1, stride := 0x4, fields := [{ lo := 0, width := 16, kind := .rw, sh := true, ret := true, fac := 0xC000 },
      { lo := 16, width := 4, kind := .rw, sh := true, ret := true, fac := 13 }] },
  { off := 0x408, count := 1, stride := 0x4, fields := [{ lo := 0, width := 16, kind := .rw, sh := true, ret := true, fac := 0xFFFF }] },
  { off := 0x40C, count := 1, stride := 0x4, fields := [{ lo := 0, width := 20, kind := .rw, sh := true, ret := true, fac := 0x1000 }] },
  { off := 0x410, count := 4, stride := 0x4, fields := [{ lo := 0, width := 16, kind := .rw, sh := true, ret := true, fac := 0x1000 }] }]

/-- Registers of the PRISM_FE page, part 1 (R35, R180). -/
def prismFeRows1 : List RegRow := [
  { off := 0x000, count := 1, stride := 0x4, fields := [{ lo := 16, width := 16, kind := .ro },
      { lo := 8, width := 8, kind := .ro },
      { lo := 0, width := 8, kind := .ro }] },
  { off := 0x004, count := 1, stride := 0x4, fields := [{ lo := 0, width := 32, kind := .ro }] },
  { off := 0x008, count := 1, stride := 0x4, fields := [{ lo := 0, width := 1, kind := .wm, so := true, ret := true }] },
  { off := 0x00C, count := 1, stride := 0x4, fields := [{ lo := 0, width := 2, kind := .ro }] },
  { off := 0x010, count := 1, stride := 0x4, fields := [{ lo := 0, width := 1, kind := .rc },
      { lo := 1, width := 1, kind := .rc },
      { lo := 2, width := 1, kind := .rc },
      { lo := 3, width := 1, kind := .rc },
      { lo := 4, width := 1, kind := .rc },
      { lo := 5, width := 1, kind := .rc },
      { lo := 6, width := 1, kind := .rc },
      { lo := 7, width := 1, kind := .rc },
      { lo := 8, width := 1, kind := .rc },
      { lo := 9, width := 1, kind := .rc },
      { lo := 10, width := 1, kind := .rc }] },
  { off := 0x014, count := 1, stride := 0x4, fields := [{ lo := 0, width := 32, kind := .rw, ret := true }] },
  { off := 0x018, count := 1, stride := 0x4, fields := [{ lo := 0, width := 32, kind := .rw }] },
  { off := 0x01C, count := 1, stride := 0x4, fields := [{ lo := 0, width := 1, kind := .rw },
      { lo := 1, width := 1, kind := .ro },
      { lo := 2, width := 2, kind := .rw, ret := true }] },
  { off := 0x020, count := 1, stride := 0x4, fields := [] },
  { off := 0x024, count := 1, stride := 0x4, fields := [{ lo := 0, width := 2, kind := .rw, ret := true, fac := 3 },
      { lo := 2, width := 2, kind := .ro, fac := 3 },
      { lo := 4, width := 1, kind := .rc }] },
  { off := 0x040, count := 1, stride := 0x4, fields := [{ lo := 0, width := 21, kind := .rw, so := true, ret := true }] },
  { off := 0x044, count := 1, stride := 0x4, fields := [{ lo := 0, width := 32, kind := .ro }] },
  { off := 0x048, count := 1, stride := 0x4, fields := [{ lo := 0, width := 32, kind := .ro }] },
  { off := 0x04C, count := 1, stride := 0x4, fields := [{ lo := 0, width := 32, kind := .ro }] },
  { off := 0x050, count := 1, stride := 0x4, fields := [{ lo := 0, width := 32, kind := .ro }] },
  { off := 0x054, count := 1, stride := 0x4, fields := [{ lo := 0, width := 32, kind := .ro }] },
  { off := 0x058, count := 1, stride := 0x4, fields := [{ lo := 0, width := 32, kind := .ro }] },
  { off := 0x400, count := 1, stride := 0x4, fields := [{ lo := 0, width := 1, kind := .rw, sh := true, ret := true, fac := 1 },
      { lo := 1, width := 1, kind := .rw, sh := true, ret := true },
      { lo := 2, width := 1, kind := .rw, sh := true, ret := true },
      { lo := 3, width := 1, kind := .rw, sh := true, ret := true },
      { lo := 4, width := 1, kind := .rw, sh := true, ret := true, fac := 1 },
      { lo := 5, width := 1, kind := .rw, sh := true, ret := true },
      { lo := 6, width := 1, kind := .rw, sh := true, ret := true, fac := 1 }] },
  { off := 0x404, count := 4, stride := 0x4, fields := [{ lo := 0, width := 20, kind := .rw, sh := true, ret := true }] },
  { off := 0x414, count := 1, stride := 0x4, fields := [{ lo := 2, width := 30, kind := .rw, sh := true, ret := true }] }]

/-- Registers of the PRISM_FE page, part 2 (R35, R180). -/
def prismFeRows2 : List RegRow := [
  { off := 0x418, count := 1, stride := 0x4, fields := [{ lo := 0, width := 32, kind := .rw, sh := true, ret := true }] },
  { off := 0x41C, count := 1, stride := 0x4, fields := [{ lo := 0, width := 21, kind := .rw, sh := true, ret := true }] },
  { off := 0x420, count := 1, stride := 0x4, fields := [{ lo := 6, width := 26, kind := .rw, sh := true, ret := true }] },
  { off := 0x424, count := 1, stride := 0x4, fields := [{ lo := 0, width := 32, kind := .rw, sh := true, ret := true }] },
  { off := 0x428, count := 1, stride := 0x4, fields := [{ lo := 6, width := 26, kind := .rw, sh := true, ret := true }] },
  { off := 0x42C, count := 1, stride := 0x4, fields := [{ lo := 0, width := 32, kind := .rw, sh := true, ret := true }] },
  { off := 0x430, count := 1, stride := 0x4, fields := [{ lo := 0, width := 6, kind := .rw, sh := true, ret := true }] },
  { off := 0x434, count := 1, stride := 0x4, fields := [{ lo := 0, width := 20, kind := .rw, sh := true, ret := true, fac := 0x10000 }] },
  { off := 0x438, count := 1, stride := 0x4, fields := [{ lo := 0, width := 20, kind := .rw, sh := true, ret := true, fac := 0x10000 }] },
  { off := 0x43C, count := 1, stride := 0x4, fields := [{ lo := 0, width := 20, kind := .rw, sh := true, ret := true, fac := 0x10000 }] },
  { off := 0x440, count := 1, stride := 0x4, fields := [{ lo := 0, width := 24, kind := .rw, sh := true, ret := true, fac := 0x3F0000 }] },
  { off := 0x444, count := 9, stride := 0x4, fields := [{ lo := 0, width := 20, kind := .rw, sh := true, ret := true, fac := 0x10000 }] }]

/-- Registers of the PRISM_BE page, part 1 (R35, R181). -/
def prismBeRows1 : List RegRow := [
  { off := 0x000, count := 1, stride := 0x4, fields := [{ lo := 16, width := 16, kind := .ro },
      { lo := 8, width := 8, kind := .ro },
      { lo := 0, width := 8, kind := .ro }] },
  { off := 0x004, count := 1, stride := 0x4, fields := [{ lo := 0, width := 32, kind := .ro }] },
  { off := 0x008, count := 1, stride := 0x4, fields := [{ lo := 0, width := 1, kind := .wm, so := true, ret := true }] },
  { off := 0x00C, count := 1, stride := 0x4, fields := [{ lo := 0, width := 2, kind := .ro }] },
  { off := 0x010, count := 1, stride := 0x4, fields := [{ lo := 0, width := 1, kind := .rc },
      { lo := 1, width := 1, kind := .rc },
      { lo := 2, width := 1, kind := .rc },
      { lo := 3, width := 1, kind := .rc },
      { lo := 4, width := 1, kind := .rc },
      { lo := 5, width := 1, kind := .rc },
      { lo := 6, width := 1, kind := .rc }] },
  { off := 0x014, count := 1, stride := 0x4, fields := [{ lo := 0, width := 32, kind := .rw, ret := true }] },
  { off := 0x018, count := 1, stride := 0x4, fields := [{ lo := 0, width := 32, kind := .rw }] },
  { off := 0x01C, count := 1, stride := 0x4, fields := [{ lo := 0, width := 1, kind := .rw },
      { lo := 1, width := 1, kind := .ro },
      { lo := 2, width := 2, kind := .rw, ret := true }] },
  { off := 0x020, count := 1, stride := 0x4, fields := [] },
  { off := 0x024, count := 1, stride := 0x4, fields := [{ lo := 0, width := 2, kind := .rw, ret := true, fac := 3 },
      { lo := 2, width := 2, kind := .ro, fac := 3 },
      { lo := 4, width := 1, kind := .rc }] },
  { off := 0x040, count := 1, stride := 0x4, fields := [{ lo := 0, width := 2, kind := .rw, so := true, ret := true, fac := 1 },
      { lo := 2, width := 2, kind := .rw, so := true, ret := true, fac := 1 },
      { lo := 4, width := 1, kind := .rw, so := true, ret := true },
      { lo := 5, width := 2, kind := .rw, so := true, ret := true, fac := 1 },
      { lo := 7, width := 3, kind := .rw, so := true, ret := true, fac := 3 },
      { lo := 10, width := 1, kind := .rw, so := true, ret := true }] },
  { off := 0x044, count := 1, stride := 0x4, fields := [{ lo := 0, width := 32, kind := .ro }] },
  { off := 0x048, count := 1, stride := 0x4, fields := [{ lo := 0, width := 32, kind := .ro }] },
  { off := 0x04C, count := 1, stride := 0x4, fields := [{ lo := 0, width := 32, kind := .ro }] },
  { off := 0x050, count := 1, stride := 0x4, fields := [{ lo := 0, width := 32, kind := .ro }] },
  { off := 0x054, count := 1, stride := 0x4, fields := [{ lo := 0, width := 32, kind := .ro }] },
  { off := 0x400, count := 1, stride := 0x4, fields := [{ lo := 0, width := 1, kind := .rw, sh := true, ret := true },
      { lo := 1, width := 1, kind := .rw, sh := true, ret := true },
      { lo := 2, width := 1, kind := .rw, sh := true, ret := true },
      { lo := 3, width := 1, kind := .rw, sh := true, ret := true }] },
  { off := 0x404, count := 9, stride := 0x4, fields := [{ lo := 0, width := 20, kind := .rw, sh := true, ret := true, fac := 0x10000 }] },
  { off := 0x428, count := 1, stride := 0x4, fields := [{ lo := 0, width := 24, kind := .rw, sh := true, ret := true }] },
  { off := 0x42C, count := 1, stride := 0x4, fields := [{ lo := 0, width := 24, kind := .rw, sh := true, ret := true }] }]

/-- Registers of the PRISM_BE page, part 2 (R35, R181). -/
def prismBeRows2 : List RegRow := [
  { off := 0x430, count := 1, stride := 0x4, fields := [{ lo := 0, width := 24, kind := .rw, sh := true, ret := true }] },
  { off := 0x434, count := 1, stride := 0x4, fields := [{ lo := 0, width := 6, kind := .rw, sh := true, ret := true },
      { lo := 8, width := 1, kind := .rw, sh := true, ret := true }] },
  { off := 0x438, count := 1, stride := 0x4, fields := [{ lo := 0, width := 6, kind := .rw, sh := true, ret := true },
      { lo := 8, width := 1, kind := .rw, sh := true, ret := true }] },
  { off := 0x43C, count := 1, stride := 0x4, fields := [{ lo := 0, width := 6, kind := .rw, sh := true, ret := true },
      { lo := 8, width := 1, kind := .rw, sh := true, ret := true }] },
  { off := 0x440, count := 1, stride := 0x4, fields := [{ lo := 0, width := 8, kind := .rw, sh := true, ret := true, fac := 242 }] },
  { off := 0x444, count := 1, stride := 0x4, fields := [{ lo := 0, width := 14, kind := .rw, sh := true, ret := true, fac := 0x3E8 }] }]

/-- Registers of the FSTORE page, part 1 (R35, R206). -/
def fstoreRows1 : List RegRow := [
  { off := 0x000, count := 1, stride := 0x4, fields := [{ lo := 16, width := 16, kind := .ro },
      { lo := 8, width := 8, kind := .ro },
      { lo := 0, width := 8, kind := .ro }] },
  { off := 0x004, count := 1, stride := 0x4, fields := [{ lo := 0, width := 32, kind := .ro }] },
  { off := 0x008, count := 1, stride := 0x4, fields := [{ lo := 0, width := 1, kind := .wm, so := true, ret := true, fac := 1 }] },
  { off := 0x00C, count := 1, stride := 0x4, fields := [] },
  { off := 0x010, count := 1, stride := 0x4, fields := [{ lo := 0, width := 1, kind := .rc },
      { lo := 1, width := 1, kind := .rc },
      { lo := 2, width := 1, kind := .rc },
      { lo := 3, width := 1, kind := .rc },
      { lo := 4, width := 1, kind := .rc },
      { lo := 5, width := 1, kind := .rc },
      { lo := 6, width := 1, kind := .rc },
      { lo := 7, width := 1, kind := .rc },
      { lo := 8, width := 1, kind := .rc }] },
  { off := 0x014, count := 1, stride := 0x4, fields := [{ lo := 0, width := 32, kind := .rw, ret := true }] },
  { off := 0x018, count := 1, stride := 0x4, fields := [{ lo := 0, width := 32, kind := .rw }] },
  { off := 0x01C, count := 1, stride := 0x4, fields := [{ lo := 0, width := 1, kind := .rw },
      { lo := 1, width := 1, kind := .ro },
      { lo := 2, width := 2, kind := .rw, ret := true }] },
  { off := 0x020, count := 1, stride := 0x4, fields := [] },
  { off := 0x024, count := 1, stride := 0x4, fields := [{ lo := 0, width := 2, kind := .rw, ret := true, fac := 3 },
      { lo := 2, width := 2, kind := .ro, fac := 3 },
      { lo := 4, width := 1, kind := .rc }] },
  { off := 0x040, count := 1, stride := 0x4, fields := [{ lo := 0, width := 9, kind := .ro },
      { lo := 16, width := 12, kind := .ro }] },
  { off := 0x044, count := 1, stride := 0x4, fields := [{ lo := 0, width := 32, kind := .ro }] },
  { off := 0x048, count := 1, stride := 0x4, fields := [{ lo := 0, width := 32, kind := .ro }] },
  { off := 0x04C, count := 1, stride := 0x4, fields := [{ lo := 0, width := 32, kind := .ro }] },
  { off := 0x050, count := 1, stride := 0x4, fields := [{ lo := 0, width := 32, kind := .ro }] },
  { off := 0x060, count := 1, stride := 0x4, fields := [{ lo := 6, width := 26, kind := .rw }] },
  { off := 0x064, count := 1, stride := 0x4, fields := [{ lo := 0, width := 32, kind := .rw }] },
  { off := 0x068, count := 1, stride := 0x4, fields := [{ lo := 0, width := 6, kind := .rw },
      { lo := 8, width := 1, kind := .rw },
      { lo := 9, width := 1, kind := .ro },
      { lo := 12, width := 4, kind := .ro }] },
  { off := 0x100, count := 64, stride := 0x4, fields := [{ lo := 0, width := 3, kind := .rw, so := true, ret := true },
      { lo := 8, width := 8, kind := .ro },
      { lo := 16, width := 1, kind := .ro }] },
  { off := 0x200, count := 64, stride := 0x8, fields := [{ lo := 0, width := 2, kind := .ro },
      { lo := 2, width := 1, kind := .ro },
      { lo := 3, width := 1, kind := .ro }] }]

/-- Registers of the FSTORE page, part 2 (R35, R206). -/
def fstoreRows2 : List RegRow := [
  { off := 0x204, count := 64, stride := 0x8, fields := [{ lo := 0, width := 32, kind := .ro }] }]

/-- Registers of the SPLIT page (R35, R205). -/
def splitRows : List RegRow := [
  { off := 0x000, count := 1, stride := 0x4, fields := [{ lo := 16, width := 16, kind := .ro },
      { lo := 8, width := 8, kind := .ro },
      { lo := 0, width := 8, kind := .ro }] },
  { off := 0x004, count := 1, stride := 0x4, fields := [{ lo := 0, width := 32, kind := .ro }] },
  { off := 0x008, count := 1, stride := 0x4, fields := [{ lo := 0, width := 1, kind := .wm, so := true, ret := true }] },
  { off := 0x00C, count := 1, stride := 0x4, fields := [] },
  { off := 0x010, count := 1, stride := 0x4, fields := [{ lo := 0, width := 1, kind := .rc },
      { lo := 1, width := 1, kind := .rc },
      { lo := 2, width := 1, kind := .rc },
      { lo := 3, width := 1, kind := .rc },
      { lo := 4, width := 1, kind := .rc },
      { lo := 5, width := 1, kind := .rc },
      { lo := 6, width := 1, kind := .rc }] },
  { off := 0x014, count := 1, stride := 0x4, fields := [{ lo := 0, width := 32, kind := .rw, ret := true }] },
  { off := 0x018, count := 1, stride := 0x4, fields := [{ lo := 0, width := 32, kind := .rw }] },
  { off := 0x01C, count := 1, stride := 0x4, fields := [{ lo := 0, width := 1, kind := .rw },
      { lo := 1, width := 1, kind := .ro },
      { lo := 2, width := 2, kind := .rw, ret := true }] },
  { off := 0x020, count := 1, stride := 0x4, fields := [] },
  { off := 0x024, count := 1, stride := 0x4, fields := [{ lo := 0, width := 2, kind := .rw, ret := true, fac := 3 },
      { lo := 2, width := 2, kind := .ro, fac := 3 },
      { lo := 4, width := 1, kind := .rc }] },
  { off := 0x040, count := 8, stride := 0x20, fields := [{ lo := 0, width := 1, kind := .rw, so := true, ret := true }] },
  { off := 0x044, count := 8, stride := 0x20, fields := [{ lo := 0, width := 16, kind := .rw, so := true, ret := true, fac := 0x780 },
      { lo := 16, width := 16, kind := .rw, so := true, ret := true, fac := 0x438 }] },
  { off := 0x048, count := 8, stride := 0x20, fields := [{ lo := 12, width := 20, kind := .rw, so := true, ret := true }] },
  { off := 0x04C, count := 8, stride := 0x20, fields := [{ lo := 0, width := 32, kind := .rw, so := true, ret := true }] },
  { off := 0x050, count := 8, stride := 0x20, fields := [{ lo := 0, width := 5, kind := .rw, so := true, ret := true, fac := 4 }] },
  { off := 0x054, count := 8, stride := 0x20, fields := [{ lo := 0, width := 24, kind := .ro }] },
  { off := 0x058, count := 8, stride := 0x20, fields := [{ lo := 0, width := 32, kind := .ro }] },
  { off := 0x05C, count := 8, stride := 0x20, fields := [{ lo := 0, width := 2, kind := .ro },
      { lo := 2, width := 2, kind := .ro },
      { lo := 4, width := 3, kind := .ro },
      { lo := 8, width := 3, kind := .ro }] },
  { off := 0x400, count := 8, stride := 0x8, fields := [{ lo := 0, width := 16, kind := .rw, sh := true, ret := true },
      { lo := 16, width := 16, kind := .rw, sh := true, ret := true }] },
  { off := 0x404, count := 8, stride := 0x8, fields := [{ lo := 0, width := 16, kind := .rw, sh := true, ret := true },
      { lo := 16, width := 16, kind := .rw, sh := true, ret := true }] }]

/-- Registers of the DRAW page (R35, R232). -/
def drawRows : List RegRow := [
  { off := 0x000, count := 1, stride := 0x4, fields := [{ lo := 16, width := 16, kind := .ro },
      { lo := 8, width := 8, kind := .ro },
      { lo := 0, width := 8, kind := .ro }] },
  { off := 0x004, count := 1, stride := 0x4, fields := [{ lo := 0, width := 32, kind := .ro }] },
  { off := 0x008, count := 1, stride := 0x4, fields := [{ lo := 0, width := 1, kind := .wm }] },
  { off := 0x00C, count := 1, stride := 0x4, fields := [{ lo := 0, width := 2, kind := .ro },
      { lo := 8, width := 7, kind := .ro }] },
  { off := 0x010, count := 1, stride := 0x4, fields := [{ lo := 0, width := 1, kind := .rc },
      { lo := 1, width := 1, kind := .rc },
      { lo := 2, width := 1, kind := .rc },
      { lo := 3, width := 1, kind := .rc },
      { lo := 4, width := 1, kind := .rc }] },
  { off := 0x014, count := 1, stride := 0x4, fields := [{ lo := 0, width := 32, kind := .rw, ret := true }] },
  { off := 0x018, count := 1, stride := 0x4, fields := [{ lo := 0, width := 32, kind := .rw }] },
  { off := 0x01C, count := 1, stride := 0x4, fields := [{ lo := 0, width := 1, kind := .rw },
      { lo := 1, width := 1, kind := .ro },
      { lo := 2, width := 2, kind := .rw, ret := true }] },
  { off := 0x020, count := 1, stride := 0x4, fields := [] },
  { off := 0x024, count := 1, stride := 0x4, fields := [{ lo := 0, width := 2, kind := .rw, ret := true, fac := 3 },
      { lo := 2, width := 2, kind := .ro, fac := 3 },
      { lo := 4, width := 1, kind := .rc }] },
  { off := 0x040, count := 1, stride := 0x4, fields := [{ lo := 0, width := 32, kind := .ro }] },
  { off := 0x044, count := 1, stride := 0x4, fields := [{ lo := 0, width := 32, kind := .ro }] },
  { off := 0x048, count := 1, stride := 0x4, fields := [{ lo := 0, width := 16, kind := .ro }] },
  { off := 0x04C, count := 1, stride := 0x4, fields := [{ lo := 0, width := 32, kind := .ro }] }]

/-- Registers of the DRAWCTL page, part 1 (R35, R231). -/
def drawctlRows1 : List RegRow := [
  { off := 0x000, count := 1, stride := 0x4, fields := [{ lo := 16, width := 16, kind := .ro },
      { lo := 8, width := 8, kind := .ro },
      { lo := 0, width := 8, kind := .ro }] },
  { off := 0x004, count := 1, stride := 0x4, fields := [{ lo := 0, width := 32, kind := .ro }] },
  { off := 0x008, count := 1, stride := 0x4, fields := [{ lo := 0, width := 1, kind := .wm, so := true, ret := true }] },
  { off := 0x00C, count := 1, stride := 0x4, fields := [{ lo := 0, width := 2, kind := .ro }] },
  { off := 0x010, count := 1, stride := 0x4, fields := [{ lo := 0, width := 1, kind := .rc },
      { lo := 1, width := 1, kind := .rc },
      { lo := 2, width := 1, kind := .rc },
      { lo := 3, width := 1, kind := .rc },
      { lo := 4, width := 1, kind := .rc },
      { lo := 5, width := 1, kind := .rc },
      { lo := 6, width := 1, kind := .rc },
      { lo := 7, width := 1, kind := .rc },
      { lo := 8, width := 1, kind := .rc },
      { lo := 9, width := 1, kind := .rc }] },
  { off := 0x014, count := 1, stride := 0x4, fields := [{ lo := 0, width := 32, kind := .rw, ret := true }] },
  { off := 0x018, count := 1, stride := 0x4, fields := [{ lo := 0, width := 32, kind := .rw }] },
  { off := 0x01C, count := 1, stride := 0x4, fields := [{ lo := 0, width := 1, kind := .rw },
      { lo := 1, width := 1, kind := .ro },
      { lo := 2, width := 2, kind := .rw, ret := true }] },
  { off := 0x020, count := 1, stride := 0x4, fields := [] },
  { off := 0x024, count := 1, stride := 0x4, fields := [{ lo := 0, width := 2, kind := .rw, ret := true, fac := 3 },
      { lo := 2, width := 2, kind := .ro, fac := 3 },
      { lo := 4, width := 1, kind := .rc }] },
  { off := 0x040, count := 1, stride := 0x4, fields := [{ lo := 0, width := 1, kind := .rw, so := true, ret := true },
      { lo := 8, width := 5, kind := .rw, so := true, ret := true, fac := 6 },
      { lo := 16, width := 8, kind := .rw, so := true, ret := true, fac := 18 }] },
  { off := 0x044, count := 1, stride := 0x4, fields := [{ lo := 0, width := 5, kind := .rw, so := true, ret := true, fac := 8 },
      { lo := 8, width := 5, kind := .rw, so := true, ret := true }] },
  { off := 0x048, count := 1, stride := 0x4, fields := [{ lo := 0, width := 16, kind := .rw, so := true, ret := true, fac := 0xFFFF }] },
  { off := 0x04C, count := 1, stride := 0x4, fields := [{ lo := 12, width := 20, kind := .rw, so := true, ret := true }] },
  { off := 0x050, count := 1, stride := 0x4, fields := [{ lo := 0, width := 32, kind := .rw, so := true, ret := true }] },
  { off := 0x054, count := 1, stride := 0x4, fields := [{ lo := 0, width := 5, kind := .rw, so := true, ret := true, fac := 4 }] },
  { off := 0x058, count := 1, stride := 0x4, fields := [{ lo := 0, width := 24, kind := .ro }] },
  { off := 0x05C, count := 1, stride := 0x4, fields := [{ lo := 0, width := 10, kind := .ro },
      { lo := 16, width := 6, kind := .ro },
      { lo := 24, width := 5, kind := .ro }] },
  { off := 0x060, count := 1, stride := 0x4, fields := [{ lo := 0, width := 32, kind := .ro }] },
  { off := 0x064, count := 1, stride := 0x4, fields := [{ lo := 0, width := 32, kind := .ro }] }]

/-- Registers of the DRAWCTL page, part 2 (R35, R231). -/
def drawctlRows2 : List RegRow := [
  { off := 0x068, count := 1, stride := 0x4, fields := [{ lo := 0, width := 32, kind := .ro }] },
  { off := 0x06C, count := 1, stride := 0x4, fields := [{ lo := 0, width := 32, kind := .ro }] },
  { off := 0x070, count := 1, stride := 0x4, fields := [{ lo := 0, width := 32, kind := .ro }] },
  { off := 0x074, count := 1, stride := 0x4, fields := [{ lo := 0, width := 32, kind := .ro }] },
  { off := 0x078, count := 1, stride := 0x4, fields := [{ lo := 0, width := 16, kind := .ro }] },
  { off := 0x07C, count := 1, stride := 0x4, fields := [{ lo := 0, width := 32, kind := .ro }] }]

/-- Registers of the HENC page, part 1 (R35, R264). -/
def hencRows1 : List RegRow := [
  { off := 0x000, count := 1, stride := 0x4, fields := [{ lo := 16, width := 16, kind := .ro },
      { lo := 8, width := 8, kind := .ro },
      { lo := 0, width := 8, kind := .ro }] },
  { off := 0x004, count := 1, stride := 0x4, fields := [{ lo := 0, width := 32, kind := .ro }] },
  { off := 0x008, count := 1, stride := 0x4, fields := [{ lo := 0, width := 1, kind := .wm, so := true, ret := true }] },
  { off := 0x00C, count := 1, stride := 0x4, fields := [{ lo := 0, width := 2, kind := .ro },
      { lo := 2, width := 1, kind := .ro },
      { lo := 4, width := 3, kind := .ro }] },
  { off := 0x010, count := 1, stride := 0x4, fields := [{ lo := 0, width := 1, kind := .rc },
      { lo := 1, width := 1, kind := .rc },
      { lo := 2, width := 1, kind := .rc },
      { lo := 3, width := 1, kind := .rc },
      { lo := 4, width := 1, kind := .rc },
      { lo := 5, width := 1, kind := .rc },
      { lo := 6, width := 1, kind := .rc },
      { lo := 7, width := 1, kind := .rc },
      { lo := 8, width := 1, kind := .rc }] },
  { off := 0x014, count := 1, stride := 0x4, fields := [{ lo := 0, width := 32, kind := .rw, ret := true }] },
  { off := 0x018, count := 1, stride := 0x4, fields := [{ lo := 0, width := 32, kind := .rw }] },
  { off := 0x01C, count := 1, stride := 0x4, fields := [{ lo := 0, width := 1, kind := .rw },
      { lo := 1, width := 1, kind := .ro },
      { lo := 2, width := 2, kind := .rw, ret := true }] },
  { off := 0x020, count := 1, stride := 0x4, fields := [] },
  { off := 0x024, count := 1, stride := 0x4, fields := [{ lo := 0, width := 2, kind := .rw, ret := true, fac := 3 },
      { lo := 2, width := 2, kind := .ro, fac := 3 },
      { lo := 4, width := 1, kind := .rc }] },
  { off := 0x040, count := 1, stride := 0x4, fields := [{ lo := 0, width := 2, kind := .rw, so := true, ret := true },
      { lo := 4, width := 3, kind := .rw, so := true, ret := true },
      { lo := 8, width := 3, kind := .rw, so := true, ret := true },
      { lo := 12, width := 2, kind := .rw, so := true, ret := true, fac := 1 },
      { lo := 14, width := 1, kind := .rw, so := true, ret := true },
      { lo := 16, width := 8, kind := .rw, so := true, ret := true, fac := 156 }] },
  { off := 0x044, count := 1, stride := 0x4, fields := [{ lo := 0, width := 2, kind := .rw, so := true, ret := true, fac := 1 },
      { lo := 2, width := 2, kind := .rw, so := true, ret := true, fac := 1 },
      { lo := 4, width := 1, kind := .rw, so := true, ret := true },
      { lo := 8, width := 24, kind := .rw, so := true, ret := true, fac := 60 }] },
  { off := 0x048, count := 1, stride := 0x4, fields := [{ lo := 0, width := 5, kind := .rw, so := true, ret := true, fac := 1 },
      { lo := 8, width := 5, kind := .rw, so := true, ret := true, fac := 1 },
      { lo := 16, width := 1, kind := .rw, so := true, ret := true }] },
  { off := 0x04C, count := 1, stride := 0x4, fields := [{ lo := 0, width := 8, kind := .rw, so := true, ret := true, fac := 1 }] },
  { off := 0x050, count := 1, stride := 0x4, fields := [{ lo := 12, width := 20, kind := .rw, so := true, ret := true }] },
  { off := 0x054, count := 1, stride := 0x4, fields := [{ lo := 0, width := 32, kind := .rw, so := true, ret := true }] },
  { off := 0x058, count := 1, stride := 0x4, fields := [{ lo := 0, width := 5, kind := .rw, so := true, ret := true, fac := 4 }] },
  { off := 0x05C, count := 1, stride := 0x4, fields := [{ lo := 0, width := 32, kind := .rw, so := true, ret := true, fac := 0xF4240 }] },
  { off := 0x060, count := 1, stride := 0x4, fields := [{ lo := 0, width := 24, kind := .ro }] },
  { off := 0x064, count := 1, stride := 0x4, fields := [{ lo := 0, width := 32, kind := .ro }] }]

/-- Registers of the HENC page, part 2 (R35, R264). -/
def hencRows2 : List RegRow := [
  { off := 0x068, count := 1, stride := 0x4, fields := [{ lo := 0, width := 32, kind := .ro }] },
  { off := 0x06C, count := 1, stride := 0x4, fields := [{ lo := 0, width := 32, kind := .ro }] },
  { off := 0x070, count := 1, stride := 0x4, fields := [{ lo := 0, width := 32, kind := .ro }] },
  { off := 0x074, count := 1, stride := 0x4, fields := [{ lo := 0, width := 32, kind := .ro }] },
  { off := 0x078, count := 1, stride := 0x4, fields := [{ lo := 0, width := 16, kind := .ro }] },
  { off := 0x07C, count := 1, stride := 0x4, fields := [{ lo := 0, width := 16, kind := .ro }] }]

/-- Registers of the IRIS page (R35, R265). -/
def irisRows : List RegRow := [
  { off := 0x000, count := 1, stride := 0x4, fields := [{ lo := 16, width := 16, kind := .ro },
      { lo := 8, width := 8, kind := .ro },
      { lo := 0, width := 8, kind := .ro }] },
  { off := 0x004, count := 1, stride := 0x4, fields := [{ lo := 0, width := 32, kind := .ro }] },
  { off := 0x008, count := 1, stride := 0x4, fields := [{ lo := 0, width := 1, kind := .wm, so := true, ret := true, fac := 1 }] },
  { off := 0x00C, count := 1, stride := 0x4, fields := [] },
  { off := 0x010, count := 1, stride := 0x4, fields := [{ lo := 0, width := 1, kind := .rc },
      { lo := 1, width := 1, kind := .rc },
      { lo := 2, width := 1, kind := .rc },
      { lo := 3, width := 1, kind := .rc },
      { lo := 4, width := 1, kind := .rc }] },
  { off := 0x014, count := 1, stride := 0x4, fields := [{ lo := 0, width := 32, kind := .rw, ret := true }] },
  { off := 0x018, count := 1, stride := 0x4, fields := [{ lo := 0, width := 32, kind := .rw }] },
  { off := 0x01C, count := 1, stride := 0x4, fields := [{ lo := 0, width := 1, kind := .rw },
      { lo := 1, width := 1, kind := .ro },
      { lo := 2, width := 2, kind := .rw, ret := true }] },
  { off := 0x020, count := 1, stride := 0x4, fields := [] },
  { off := 0x024, count := 1, stride := 0x4, fields := [{ lo := 0, width := 2, kind := .rw, ret := true, fac := 3 },
      { lo := 2, width := 2, kind := .ro, fac := 3 },
      { lo := 4, width := 1, kind := .rc }] },
  { off := 0x040, count := 8, stride := 0x10, fields := [{ lo := 0, width := 2, kind := .rw, so := true, ret := true, fac := 1 }] },
  { off := 0x044, count := 8, stride := 0x10, fields := [{ lo := 0, width := 32, kind := .rw, so := true, ret := true, fac := 0x61A80 }] },
  { off := 0x048, count := 8, stride := 0x10, fields := [{ lo := 0, width := 6, kind := .ro },
      { lo := 8, width := 6, kind := .ro },
      { lo := 16, width := 6, kind := .ro }] },
  { off := 0x04C, count := 8, stride := 0x10, fields := [{ lo := 0, width := 32, kind := .ro }] },
  { off := 0x400, count := 8, stride := 0x10, fields := [{ lo := 0, width := 32, kind := .rw, sh := true, ret := true, fac := 0x186A0 }] },
  { off := 0x404, count := 8, stride := 0x10, fields := [{ lo := 0, width := 6, kind := .rw, sh := true, ret := true, fac := 24 },
      { lo := 8, width := 6, kind := .rw, sh := true, ret := true, fac := 27 },
      { lo := 16, width := 6, kind := .rw, sh := true, ret := true, fac := 29 }] },
  { off := 0x408, count := 8, stride := 0x10, fields := [{ lo := 0, width := 6, kind := .rw, sh := true, ret := true, fac := 10 },
      { lo := 8, width := 6, kind := .rw, sh := true, ret := true, fac := 51 }] },
  { off := 0x40C, count := 8, stride := 0x10, fields := [{ lo := 0, width := 8, kind := .rw, sh := true, ret := true, fac := 64 },
      { lo := 8, width := 8, kind := .rw, sh := true, ret := true, fac := 16 },
      { lo := 16, width := 8, kind := .rw, sh := true, ret := true, fac := 8 }] }]

/-- Registers of the HDEC page, part 1 (R35, R266). -/
def hdecRows1 : List RegRow := [
  { off := 0x000, count := 1, stride := 0x4, fields := [{ lo := 16, width := 16, kind := .ro },
      { lo := 8, width := 8, kind := .ro },
      { lo := 0, width := 8, kind := .ro }] },
  { off := 0x004, count := 1, stride := 0x4, fields := [{ lo := 0, width := 32, kind := .ro }] },
  { off := 0x008, count := 1, stride := 0x4, fields := [{ lo := 0, width := 1, kind := .wm, so := true, ret := true },
      { lo := 1, width := 1, kind := .wm, so := true, ret := true }] },
  { off := 0x00C, count := 1, stride := 0x4, fields := [] },
  { off := 0x010, count := 1, stride := 0x4, fields := [{ lo := 0, width := 1, kind := .rc },
      { lo := 1, width := 1, kind := .rc },
      { lo := 2, width := 1, kind := .rc },
      { lo := 3, width := 1, kind := .rc },
      { lo := 4, width := 1, kind := .rc },
      { lo := 5, width := 1, kind := .rc },
      { lo := 6, width := 1, kind := .rc },
      { lo := 7, width := 1, kind := .rc },
      { lo := 8, width := 1, kind := .rc },
      { lo := 9, width := 1, kind := .rc }] },
  { off := 0x014, count := 1, stride := 0x4, fields := [{ lo := 0, width := 32, kind := .rw, ret := true }] },
  { off := 0x018, count := 1, stride := 0x4, fields := [{ lo := 0, width := 32, kind := .rw }] },
  { off := 0x01C, count := 1, stride := 0x4, fields := [{ lo := 0, width := 1, kind := .rw },
      { lo := 1, width := 1, kind := .ro },
      { lo := 2, width := 2, kind := .rw, ret := true }] },
  { off := 0x020, count := 1, stride := 0x4, fields := [] },
  { off := 0x024, count := 1, stride := 0x4, fields := [{ lo := 0, width := 2, kind := .rw, ret := true, fac := 3 },
      { lo := 2, width := 2, kind := .ro, fac := 3 },
      { lo := 4, width := 1, kind := .rc }] },
  { off := 0x040, count := 1, stride := 0x4, fields := [{ lo := 12, width := 20, kind := .rw, so := true, ret := true }] },
  { off := 0x044, count := 1, stride := 0x4, fields := [{ lo := 0, width := 32, kind := .rw, so := true, ret := true }] },
  { off := 0x048, count := 1, stride := 0x4, fields := [{ lo := 0, width := 5, kind := .rw, so := true, ret := true, fac := 4 },
      { lo := 8, width := 24, kind := .rw, so := true, ret := true }] },
  { off := 0x04C, count := 1, stride := 0x4, fields := [{ lo := 0, width := 5, kind := .rw }] },
  { off := 0x050, count := 1, stride := 0x4, fields := [{ lo := 0, width := 5, kind := .ro }] },
  { off := 0x054, count := 1, stride := 0x4, fields := [{ lo := 12, width := 20, kind := .rw, so := true, ret := true }] },
  { off := 0x058, count := 1, stride := 0x4, fields := [{ lo := 0, width := 32, kind := .rw, so := true, ret := true }] },
  { off := 0x05C, count := 1, stride := 0x4, fields := [{ lo := 0, width := 5, kind := .rw, so := true, ret := true, fac := 4 }] },
  { off := 0x060, count := 1, stride := 0x4, fields := [{ lo := 0, width := 16, kind := .rw, so := true, ret := true, fac := 0xF00 },
      { lo := 16, width := 16, kind := .rw, so := true, ret := true, fac := 0x870 }] },
  { off := 0x064, count := 1, stride := 0x4, fields := [{ lo := 0, width := 32, kind := .ro }] }]

/-- Registers of the HDEC page, part 2 (R35, R266). -/
def hdecRows2 : List RegRow := [
  { off := 0x068, count := 1, stride := 0x4, fields := [{ lo := 0, width := 32, kind := .ro }] },
  { off := 0x06C, count := 1, stride := 0x4, fields := [{ lo := 0, width := 32, kind := .ro }] },
  { off := 0x070, count := 1, stride := 0x4, fields := [{ lo := 0, width := 32, kind := .ro }] },
  { off := 0x074, count := 1, stride := 0x4, fields := [{ lo := 0, width := 3, kind := .ro }] }]

/-- Registers of the DRDEC page, part 1 (R35, R233). -/
def drdecRows1 : List RegRow := [
  { off := 0x000, count := 1, stride := 0x4, fields := [{ lo := 16, width := 16, kind := .ro },
      { lo := 8, width := 8, kind := .ro },
      { lo := 0, width := 8, kind := .ro }] },
  { off := 0x004, count := 1, stride := 0x4, fields := [{ lo := 0, width := 32, kind := .ro }] },
  { off := 0x008, count := 1, stride := 0x4, fields := [{ lo := 0, width := 1, kind := .wm, so := true, ret := true }] },
  { off := 0x00C, count := 1, stride := 0x4, fields := [] },
  { off := 0x010, count := 1, stride := 0x4, fields := [{ lo := 0, width := 1, kind := .rc },
      { lo := 1, width := 1, kind := .rc },
      { lo := 2, width := 1, kind := .rc },
      { lo := 3, width := 1, kind := .rc },
      { lo := 4, width := 1, kind := .rc },
      { lo := 5, width := 1, kind := .rc },
      { lo := 6, width := 1, kind := .rc }] },
  { off := 0x014, count := 1, stride := 0x4, fields := [{ lo := 0, width := 32, kind := .rw, ret := true }] },
  { off := 0x018, count := 1, stride := 0x4, fields := [{ lo := 0, width := 32, kind := .rw }] },
  { off := 0x01C, count := 1, stride := 0x4, fields := [{ lo := 0, width := 1, kind := .rw },
      { lo := 1, width := 1, kind := .ro },
      { lo := 2, width := 2, kind := .rw, ret := true }] },
  { off := 0x020, count := 1, stride := 0x4, fields := [] },
  { off := 0x024, count := 1, stride := 0x4, fields := [{ lo := 0, width := 2, kind := .rw, ret := true, fac := 3 },
      { lo := 2, width := 2, kind := .ro, fac := 3 },
      { lo := 4, width := 1, kind := .rc }] },
  { off := 0x040, count := 1, stride := 0x4, fields := [{ lo := 12, width := 20, kind := .rw, so := true, ret := true }] },
  { off := 0x044, count := 1, stride := 0x4, fields := [{ lo := 0, width := 32, kind := .rw, so := true, ret := true }] },
  { off := 0x048, count := 1, stride := 0x4, fields := [{ lo := 0, width := 5, kind := .rw, so := true, ret := true, fac := 4 },
      { lo := 8, width := 24, kind := .rw, so := true, ret := true }] },
  { off := 0x04C, count := 1, stride := 0x4, fields := [{ lo := 0, width := 5, kind := .rw }] },
  { off := 0x050, count := 1, stride := 0x4, fields := [{ lo := 0, width := 5, kind := .ro }] },
  { off := 0x054, count := 1, stride := 0x4, fields := [{ lo := 21, width := 11, kind := .rw, so := true, ret := true }] },
  { off := 0x058, count := 1, stride := 0x4, fields := [{ lo := 0, width := 32, kind := .rw, so := true, ret := true }] },
  { off := 0x05C, count := 1, stride := 0x4, fields := [{ lo := 0, width := 5, kind := .rw, so := true, ret := true, fac := 3 },
      { lo := 5, width := 5, kind := .rw, so := true, ret := true, fac := 14 }] },
  { off := 0x060, count := 1, stride := 0x4, fields := [{ lo := 0, width := 16, kind := .rw, so := true, ret := true, fac := 0x2000 },
      { lo := 16, width := 16, kind := .rw, so := true, ret := true, fac := 0x10E0 }] },
  { off := 0x064, count := 1, stride := 0x4, fields := [{ lo := 0, width := 32, kind := .ro }] }]

/-- Registers of the DRDEC page, part 2 (R35, R233). -/
def drdecRows2 : List RegRow := [
  { off := 0x068, count := 1, stride := 0x4, fields := [{ lo := 0, width := 32, kind := .ro }] },
  { off := 0x06C, count := 1, stride := 0x4, fields := [{ lo := 0, width := 32, kind := .ro }] }]

/-- Registers of the HOSTQ page, part 1 (R35, R316). -/
def hostqRows1 : List RegRow := [
  { off := 0x000, count := 1, stride := 0x4, fields := [{ lo := 16, width := 16, kind := .ro },
      { lo := 8, width := 8, kind := .ro },
      { lo := 0, width := 8, kind := .ro }] },
  { off := 0x004, count := 1, stride := 0x4, fields := [{ lo := 0, width := 32, kind := .ro }] },
  { off := 0x008, count := 1, stride := 0x4, fields := [{ lo := 0, width := 1, kind := .wm, prv := true, fac := 1 }] },
  { off := 0x00C, count := 1, stride := 0x4, fields := [] },
  { off := 0x010, count := 1, stride := 0x4, fields := [{ lo := 0, width := 1, kind := .rc },
      { lo := 1, width := 1, kind := .rc },
      { lo := 2, width := 1, kind := .rc },
      { lo := 3, width := 1, kind := .rc },
      { lo := 4, width := 1, kind := .rc },
      { lo := 5, width := 1, kind := .rc },
      { lo := 6, width := 1, kind := .rc },
      { lo := 7, width := 1, kind := .rc },
      { lo := 8, width := 1, kind := .rc }] },
  { off := 0x014, count := 1, stride := 0x4, fields := [{ lo := 0, width := 32, kind := .rw, ret := true }] },
  { off := 0x018, count := 1, stride := 0x4, fields := [{ lo := 0, width := 32, kind := .rw }] },
  { off := 0x01C, count := 1, stride := 0x4, fields := [{ lo := 0, width := 1, kind := .rw },
      { lo := 1, width := 1, kind := .ro },
      { lo := 2, width := 2, kind := .rw, ret := true }] },
  { off := 0x020, count := 1, stride := 0x4, fields := [] },
  { off := 0x024, count := 1, stride := 0x4, fields := [{ lo := 0, width := 2, kind := .rw, ret := true, fac := 3 },
      { lo := 2, width := 2, kind := .ro, fac := 3 },
      { lo := 4, width := 1, kind := .rc }] },
  { off := 0x040, count := 1, stride := 0x4, fields := [{ lo := 0, width := 12, kind := .rw },
      { lo := 12, width := 6, kind := .rw },
      { lo := 18, width := 1, kind := .rw }] },
  { off := 0x044, count := 1, stride := 0x4, fields := [{ lo := 12, width := 20, kind := .rw }] },
  { off := 0x048, count := 1, stride := 0x4, fields := [{ lo := 0, width := 32, kind := .rw }] },
  { off := 0x04C, count := 1, stride := 0x4, fields := [{ lo := 12, width := 20, kind := .rw }] },
  { off := 0x050, count := 1, stride := 0x4, fields := [{ lo := 0, width := 32, kind := .rw }] },
  { off := 0x054, count := 1, stride := 0x4, fields := [{ lo := 0, width := 12, kind := .rw, fac := 63 },
      { lo := 16, width := 12, kind := .rw, fac := 63 }] },
  { off := 0x058, count := 1, stride := 0x4, fields := [{ lo := 0, width := 1, kind := .rw },
      { lo := 1, width := 1, kind := .ro }] },
  { off := 0x05C, count := 1, stride := 0x4, fields := [{ lo := 0, width := 32, kind := .ro }] },
  { off := 0x060, count := 1, stride := 0x4, fields := [{ lo := 0, width := 32, kind := .ro }] },
  { off := 0x064, count := 1, stride := 0x4, fields := [{ lo := 0, width := 15, kind := .ro }] }]

/-- Registers of the HOSTQ page, part 2 (R35, R316). -/
def hostqRows2 : List RegRow := [
  { off := 0x068, count := 1, stride := 0x4, fields := [{ lo := 0, width := 32, kind := .ro }] },
  { off := 0x06C, count := 1, stride := 0x4, fields := [{ lo := 0, width := 32, kind := .ro }] },
  { off := 0x070, count := 1, stride := 0x4, fields := [{ lo := 0, width := 8, kind := .rw, prv := true, ret := true, fac := 32 },
      { lo := 8, width := 8, kind := .rw, prv := true, ret := true, fac := 8 },
      { lo := 16, width := 8, kind := .rw, prv := true, ret := true, fac := 2 },
      { lo := 24, width := 3, kind := .rw, prv := true, ret := true, fac := 2 }] },
  { off := 0x074, count := 1, stride := 0x4, fields := [{ lo := 0, width := 15, kind := .ro, fac := 0x4000 }] },
  { off := 0x078, count := 1, stride := 0x4, fields := [{ lo := 0, width := 19, kind := .rc },
      { lo := 31, width := 1, kind := .rc }] },
  { off := 0x07C, count := 1, stride := 0x4, fields := [{ lo := 0, width := 16, kind := .rw, prv := true, so := true, ret := true, fac := 200 },
      { lo := 16, width := 16, kind := .rw, prv := true, so := true, ret := true, fac := 200 }] },
  { off := 0x080, count := 1, stride := 0x4, fields := [{ lo := 0, width := 32, kind := .ro }] },
  { off := 0x084, count := 1, stride := 0x4, fields := [{ lo := 0, width := 32, kind := .ro }] }]

/-- Registers of the NSPACE page, part 1 (R35, R317). -/
def nspaceRows1 : List RegRow := [
  { off := 0x000, count := 1, stride := 0x4, fields := [{ lo := 16, width := 16, kind := .ro },
      { lo := 8, width := 8, kind := .ro },
      { lo := 0, width := 8, kind := .ro }] },
  { off := 0x004, count := 1, stride := 0x4, fields := [{ lo := 0, width := 32, kind := .ro }] },
  { off := 0x008, count := 1, stride := 0x4, fields := [{ lo := 0, width := 1, kind := .wm }] },
  { off := 0x00C, count := 1, stride := 0x4, fields := [] },
  { off := 0x010, count := 1, stride := 0x4, fields := [{ lo := 0, width := 1, kind := .rc },
      { lo := 1, width := 1, kind := .rc },
      { lo := 2, width := 1, kind := .rc },
      { lo := 3, width := 1, kind := .rc },
      { lo := 4, width := 1, kind := .rc },
      { lo := 5, width := 1, kind := .rc },
      { lo := 6, width := 1, kind := .rc }] },
  { off := 0x014, count := 1, stride := 0x4, fields := [{ lo := 0, width := 32, kind := .rw, ret := true }] },
  { off := 0x018, count := 1, stride := 0x4, fields := [{ lo := 0, width := 32, kind := .rw }] },
  { off := 0x01C, count := 1, stride := 0x4, fields := [{ lo := 0, width := 1, kind := .rw },
      { lo := 1, width := 1, kind := .ro },
      { lo := 2, width := 2, kind := .rw, ret := true }] },
  { off := 0x020, count := 1, stride := 0x4, fields := [] },
  { off := 0x024, count := 1, stride := 0x4, fields := [{ lo := 0, width := 2, kind := .rw, ret := true, fac := 3 },
      { lo := 2, width := 2, kind := .ro, fac := 3 },
      { lo := 4, width := 1, kind := .rc }] },
  { off := 0x040, count := 1, stride := 0x4, fields := [{ lo := 21, width := 11, kind := .rw, prv := true, ret := true }] },
  { off := 0x044, count := 1, stride := 0x4, fields := [{ lo := 0, width := 32, kind := .rw, prv := true, ret := true }] },
  { off := 0x048, count := 1, stride := 0x4, fields := [{ lo := 0, width := 16, kind := .rw, prv := true, ret := true }] },
  { off := 0x04C, count := 1, stride := 0x4, fields := [{ lo := 0, width := 8, kind := .rw, prv := true, so := true, ret := true, fac := 8 }] },
  { off := 0x050, count := 1, stride := 0x4, fields := [{ lo := 0, width := 9, kind := .ro, fac := 2 }] },
  { off := 0x054, count := 1, stride := 0x4, fields := [{ lo := 0, width := 16, kind := .ro },
      { lo := 16, width := 16, kind := .ro }] },
  { off := 0x058, count := 1, stride := 0x4, fields := [{ lo := 0, width := 8, kind := .rw }] },
  { off := 0x05C, count := 1, stride := 0x4, fields := [{ lo := 0, width := 3, kind := .ro, fac := 2 },
      { lo := 8, width := 1, kind := .ro },
      { lo := 9, width := 1, kind := .ro }] },
  { off := 0x060, count := 1, stride := 0x4, fields := [{ lo := 0, width := 32, kind := .ro }] },
  { off := 0x064, count := 1, stride := 0x4, fields := [{ lo := 0, width := 32, kind := .ro }] }]

/-- Registers of the NSPACE page, part 2 (R35, R317). -/
def nspaceRows2 : List RegRow := [
  { off := 0x068, count := 1, stride := 0x4, fields := [{ lo := 0, width := 32, kind := .ro }] },
  { off := 0x06C, count := 1, stride := 0x4, fields := [{ lo := 0, width := 32, kind := .ro }] }]

/-- Registers of the MEDIA page (R35, R343). -/
def mediaRows : List RegRow := [
  { off := 0x000, count := 1, stride := 0x4, fields := [{ lo := 16, width := 16, kind := .ro },
      { lo := 8, width := 8, kind := .ro },
      { lo := 0, width := 8, kind := .ro }] },
  { off := 0x004, count := 1, stride := 0x4, fields := [{ lo := 0, width := 32, kind := .ro }] },
  { off := 0x008, count := 1, stride := 0x4, fields := [{ lo := 0, width := 1, kind := .wm, ret := true, fac := 1 },
      { lo := 1, width := 1, kind := .wm }] },
  { off := 0x00C, count := 1, stride := 0x4, fields := [{ lo := 0, width := 3, kind := .ro },
      { lo := 4, width := 4, kind := .ro },
      { lo := 8, width := 3, kind := .ro },
      { lo := 12, width := 4, kind := .ro }] },
  { off := 0x010, count := 1, stride := 0x4, fields := [{ lo := 0, width := 1, kind := .rc },
      { lo := 1, width := 1, kind := .rc },
      { lo := 2, width := 1, kind := .rc },
      { lo := 3, width := 1, kind := .rc },
      { lo := 4, width := 1, kind := .rc },
      { lo := 5, width := 1, kind := .rc },
      { lo := 6, width := 1, kind := .rc },
      { lo := 7, width := 1, kind := .rc },
      { lo := 8, width := 1, kind := .rc },
      { lo := 9, width := 1, kind := .rc }] },
  { off := 0x014, count := 1, stride := 0x4, fields := [{ lo := 0, width := 32, kind := .rw, ret := true }] },
  { off := 0x018, count := 1, stride := 0x4, fields := [{ lo := 0, width := 32, kind := .rw }] },
  { off := 0x01C, count := 1, stride := 0x4, fields := [{ lo := 0, width := 1, kind := .rw },
      { lo := 1, width := 1, kind := .ro },
      { lo := 2, width := 2, kind := .rw, ret := true }] },
  { off := 0x020, count := 1, stride := 0x4, fields := [] },
  { off := 0x024, count := 1, stride := 0x4, fields := [{ lo := 0, width := 2, kind := .rw, ret := true, fac := 3 },
      { lo := 2, width := 2, kind := .ro, fac := 3 },
      { lo := 4, width := 1, kind := .rc }] },
  { off := 0x040, count := 1, stride := 0x4, fields := [{ lo := 0, width := 16, kind := .rw, ret := true, fac := 0x7D0 }] },
  { off := 0x044, count := 1, stride := 0x4, fields := [{ lo := 0, width := 4, kind := .ro }] },
  { off := 0x048, count := 1, stride := 0x4, fields := [{ lo := 0, width := 32, kind := .ro }] },
  { off := 0x04C, count := 1, stride := 0x4, fields := [{ lo := 0, width := 32, kind := .ro }] },
  { off := 0x050, count := 1, stride := 0x4, fields := [{ lo := 0, width := 32, kind := .ro }] },
  { off := 0x054, count := 1, stride := 0x4, fields := [{ lo := 0, width := 16, kind := .ro }] },
  { off := 0x058, count := 1, stride := 0x4, fields := [{ lo := 0, width := 32, kind := .ro }] },
  { off := 0x05C, count := 1, stride := 0x4, fields := [{ lo := 0, width := 32, kind := .ro }] },
  { off := 0x060, count := 1, stride := 0x4, fields := [{ lo := 0, width := 8, kind := .ro },
      { lo := 8, width := 8, kind := .ro },
      { lo := 16, width := 16, kind := .ro }] }]

/-- Registers of the RECORDER page, part 1 (R35, R342). -/
def recorderRows1 : List RegRow := [
  { off := 0x000, count := 1, stride := 0x4, fields := [{ lo := 16, width := 16, kind := .ro },
      { lo := 8, width := 8, kind := .ro },
      { lo := 0, width := 8, kind := .ro }] },
  { off := 0x004, count := 1, stride := 0x4, fields := [{ lo := 0, width := 32, kind := .ro }] },
  { off := 0x008, count := 1, stride := 0x4, fields := [{ lo := 0, width := 1, kind := .wm, so := true, ret := true, fac := 1 },
      { lo := 1, width := 1, kind := .wm, prv := true }] },
  { off := 0x00C, count := 1, stride := 0x4, fields := [{ lo := 0, width := 3, kind := .ro },
      { lo := 3, width := 1, kind := .ro },
      { lo := 8, width := 8, kind := .ro }] },
  { off := 0x010, count := 1, stride := 0x4, fields := [{ lo := 0, width := 1, kind := .rc },
      { lo := 1, width := 1, kind := .rc },
      { lo := 2, width := 1, kind := .rc },
      { lo := 3, width := 1, kind := .rc },
      { lo := 4, width := 1, kind := .rc },
      { lo := 5, width := 1, kind := .rc },
      { lo := 6, width := 1, kind := .rc },
      { lo := 7, width := 1, kind := .rc },
      { lo := 8, width := 1, kind := .rc },
      { lo := 9, width := 1, kind := .rc },
      { lo := 10, width := 1, kind := .rc },
      { lo := 11, width := 1, kind := .rc },
      { lo := 12, width := 1, kind := .rc }] },
  { off := 0x014, count := 1, stride := 0x4, fields := [{ lo := 0, width := 32, kind := .rw, ret := true }] },
  { off := 0x018, count := 1, stride := 0x4, fields := [{ lo := 0, width := 32, kind := .rw }] },
  { off := 0x01C, count := 1, stride := 0x4, fields := [{ lo := 0, width := 1, kind := .rw },
      { lo := 1, width := 1, kind := .ro },
      { lo := 2, width := 2, kind := .rw, ret := true }] },
  { off := 0x020, count := 1, stride := 0x4, fields := [] },
  { off := 0x024, count := 1, stride := 0x4, fields := [{ lo := 0, width := 2, kind := .rw, ret := true, fac := 3 },
      { lo := 2, width := 2, kind := .ro, fac := 3 },
      { lo := 4, width := 1, kind := .rc }] },
  { off := 0x040, count := 1, stride := 0x4, fields := [{ lo := 0, width := 2, kind := .rw, so := true, ret := true, fac := 2 },
      { lo := 2, width := 1, kind := .rw, so := true, ret := true },
      { lo := 3, width := 1, kind := .rw, so := true, ret := true },
      { lo := 8, width := 8, kind := .rw, so := true, ret := true }] },
  { off := 0x044, count := 1, stride := 0x4, fields := [{ lo := 0, width := 8, kind := .rw, so := true, ret := true }] },
  { off := 0x048, count := 1, stride := 0x4, fields := [{ lo := 0, width := 10, kind := .rw, ret := true, fac := 100 }] },
  { off := 0x04C, count := 1, stride := 0x4, fields := [{ lo := 0, width := 32, kind := .ro }] },
  { off := 0x050, count := 1, stride := 0x4, fields := [{ lo := 0, width := 32, kind := .ro }] },
  { off := 0x054, count := 1, stride := 0x4, fields := [{ lo := 0, width := 32, kind := .ro }] },
  { off := 0x058, count := 1, stride := 0x4, fields := [{ lo := 0, width := 16, kind := .ro }] },
  { off := 0x05C, count := 1, stride := 0x4, fields := [{ lo := 0, width := 16, kind := .ro }] },
  { off := 0x060, count := 1, stride := 0x4, fields := [{ lo := 0, width := 16, kind := .ro }] },
  { off := 0x064, count := 1, stride := 0x4, fields := [{ lo := 0, width := 8, kind := .rw, so := true, ret := true },
      { lo := 8, width := 3, kind := .rw, so := true, ret := true },
      { lo := 16, width := 1, kind := .rw, so := true, ret := true, fac := 1 },
      { lo := 17, width := 1, kind := .rw, so := true, ret := true }] }]

/-- Registers of the RECORDER page, part 2 (R35, R342). -/
def recorderRows2 : List RegRow := [
  { off := 0x068, count := 1, stride := 0x4, fields := [{ lo := 0, width := 32, kind := .rw, so := true }] },
  { off := 0x06C, count := 1, stride := 0x4, fields := [{ lo := 0, width := 32, kind := .rw, so := true }] },
  { off := 0x070, count := 1, stride := 0x4, fields := [{ lo := 0, width := 32, kind := .ro }] },
  { off := 0x074, count := 1, stride := 0x4, fields := [{ lo := 0, width := 32, kind := .ro }] }]

/-- Registers of the LOUPE page, part 1 (R35, R370). -/
def loupeRows1 : List RegRow := [
  { off := 0x000, count := 1, stride := 0x4, fields := [{ lo := 16, width := 16, kind := .ro },
      { lo := 8, width := 8, kind := .ro },
      { lo := 0, width := 8, kind := .ro }] },
  { off := 0x004, count := 1, stride := 0x4, fields := [{ lo := 0, width := 32, kind := .ro }] },
  { off := 0x008, count := 1, stride := 0x4, fields := [{ lo := 0, width := 1, kind := .wm, ret := true }] },
  { off := 0x00C, count := 1, stride := 0x4, fields := [{ lo := 0, width := 2, kind := .ro },
      { lo := 2, width := 1, kind := .ro }] },
  { off := 0x010, count := 1, stride := 0x4, fields := [{ lo := 0, width := 1, kind := .rc },
      { lo := 1, width := 1, kind := .rc },
      { lo := 2, width := 1, kind := .rc },
      { lo := 3, width := 1, kind := .rc },
      { lo := 4, width := 1, kind := .rc },
      { lo := 5, width := 1, kind := .rc },
      { lo := 6, width := 1, kind := .rc },
      { lo := 7, width := 1, kind := .rc },
      { lo := 8, width := 1, kind := .rc },
      { lo := 9, width := 1, kind := .rc },
      { lo := 10, width := 1, kind := .rc },
      { lo := 11, width := 1, kind := .rc }] },
  { off := 0x014, count := 1, stride := 0x4, fields := [{ lo := 0, width := 32, kind := .rw, ret := true }] },
  { off := 0x018, count := 1, stride := 0x4, fields := [{ lo := 0, width := 32, kind := .rw }] },
  { off := 0x01C, count := 1, stride := 0x4, fields := [{ lo := 0, width := 1, kind := .rw },
      { lo := 1, width := 1, kind := .ro },
      { lo := 2, width := 2, kind := .rw, ret := true }] },
  { off := 0x020, count := 1, stride := 0x4, fields := [] },
  { off := 0x024, count := 1, stride := 0x4, fields := [{ lo := 0, width := 2, kind := .rw, ret := true, fac := 3 },
      { lo := 2, width := 2, kind := .ro, fac := 3 },
      { lo := 4, width := 1, kind := .rc }] },
  { off := 0x040, count := 1, stride := 0x4, fields := [{ lo := 0, width := 1, kind := .rw, so := true, ret := true, fac := 1 },
      { lo := 1, width := 1, kind := .rw, so := true, ret := true },
      { lo := 4, width := 3, kind := .rw, so := true, ret := true, fac := 3 },
      { lo := 8, width := 4, kind := .rw, so := true, ret := true, fac := 7 },
      { lo := 12, width := 2, kind := .rw, so := true, ret := true, fac := 3 },
      { lo := 14, width := 2, kind := .rw, ret := true }] },
  { off := 0x044, count := 1, stride := 0x4, fields := [{ lo := 0, width := 32, kind := .rw, ret := true }] },
  { off := 0x048, count := 1, stride := 0x4, fields := [{ lo := 0, width := 32, kind := .ro }] },
  { off := 0x04C, count := 1, stride := 0x4, fields := [{ lo := 0, width := 32, kind := .ro }] },
  { off := 0x050, count := 1, stride := 0x4, fields := [{ lo := 0, width := 32, kind := .ro }] },
  { off := 0x054, count := 1, stride := 0x4, fields := [{ lo := 0, width := 32, kind := .ro }] },
  { off := 0x058, count := 1, stride := 0x4, fields := [{ lo := 0, width := 32, kind := .ro }] },
  { off := 0x05C, count := 1, stride := 0x4, fields := [{ lo := 0, width := 32, kind := .ro }] },
  { off := 0x400, count := 1, stride := 0x4, fields := [{ lo := 0, width := 3, kind := .rw, sh := true, ret := true, fac := 3 },
      { lo := 8, width := 4, kind := .rw, sh := true, ret := true, fac := 7 }] },
  { off := 0x404, count := 1, stride := 0x4, fields := [{ lo := 0, width := 4, kind := .rw, sh := true, ret := true }] }]

/-- Registers of the LOUPE page, part 2 (R35, R370). -/
def loupeRows2 : List RegRow := [
  { off := 0x408, count := 1, stride := 0x4, fields := [{ lo := 0, width := 16, kind := .rw, sh := true, ret := true },
      { lo := 16, width := 16, kind := .rw, sh := true, ret := true }] },
  { off := 0x40C, count := 1, stride := 0x4, fields := [{ lo := 0, width := 10, kind := .rw, sh := true, ret := true, fac := 64 },
      { lo := 10, width := 10, kind := .rw, sh := true, ret := true, fac := 0x200 },
      { lo := 20, width := 10, kind := .rw, sh := true, ret := true, fac := 0x200 }] },
  { off := 0x410, count := 2, stride := 0x18, fields := [{ lo := 0, width := 1, kind := .rw, sh := true, ret := true },
      { lo := 1, width := 2, kind := .rw, sh := true, ret := true, fac := 2 },
      { lo := 8, width := 8, kind := .rw, sh := true, ret := true, fac := 255 }] },
  { off := 0x414, count := 2, stride := 0x18, fields := [{ lo := 6, width := 26, kind := .rw, sh := true, ret := true }] },
  { off := 0x418, count := 2, stride := 0x18, fields := [{ lo := 0, width := 32, kind := .rw, sh := true, ret := true }] },
  { off := 0x41C, count := 2, stride := 0x18, fields := [{ lo := 0, width := 16, kind := .rw, sh := true, ret := true }] },
  { off := 0x420, count := 2, stride := 0x18, fields := [{ lo := 0, width := 16, kind := .rw, sh := true, ret := true },
      { lo := 16, width := 16, kind := .rw, sh := true, ret := true }] },
  { off := 0x424, count := 2, stride := 0x18, fields := [{ lo := 0, width := 16, kind := .rw, sh := true, ret := true },
      { lo := 16, width := 16, kind := .rw, sh := true, ret := true }] },
  { off := 0x440, count := 1, stride := 0x4, fields := [{ lo := 6, width := 26, kind := .rw, sh := true, ret := true }] },
  { off := 0x444, count := 1, stride := 0x4, fields := [{ lo := 0, width := 32, kind := .rw, sh := true, ret := true }] },
  { off := 0x448, count := 1, stride := 0x4, fields := [{ lo := 0, width := 12, kind := .rw, sh := true, ret := true },
      { lo := 16, width := 12, kind := .rw, sh := true, ret := true, fac := 9 }] }]

/-- Registers of the MIRROR page (R35, R371). -/
def mirrorRows : List RegRow := [
  { off := 0x000, count := 1, stride := 0x4, fields := [{ lo := 16, width := 16, kind := .ro },
      { lo := 8, width := 8, kind := .ro },
      { lo := 0, width := 8, kind := .ro }] },
  { off := 0x004, count := 1, stride := 0x4, fields := [{ lo := 0, width := 32, kind := .ro }] },
  { off := 0x008, count := 1, stride := 0x4, fields := [{ lo := 0, width := 1, kind := .wm, ret := true, fac := 1 },
      { lo := 4, width := 4, kind := .wm, ret := true, fac := 15 }] },
  { off := 0x00C, count := 1, stride := 0x4, fields := [{ lo := 0, width := 4, kind := .ro },
      { lo := 4, width := 4, kind := .ro }] },
  { off := 0x010, count := 1, stride := 0x4, fields := [{ lo := 0, width := 1, kind := .rc },
      { lo := 1, width := 1, kind := .rc },
      { lo := 2, width := 1, kind := .rc },
      { lo := 3, width := 1, kind := .rc },
      { lo := 4, width := 1, kind := .rc },
      { lo := 5, width := 1, kind := .rc },
      { lo := 6, width := 1, kind := .rc },
      { lo := 7, width := 1, kind := .rc }] },
  { off := 0x014, count := 1, stride := 0x4, fields := [{ lo := 0, width := 32, kind := .rw, ret := true }] },
  { off := 0x018, count := 1, stride := 0x4, fields := [{ lo := 0, width := 32, kind := .rw }] },
  { off := 0x01C, count := 1, stride := 0x4, fields := [{ lo := 0, width := 1, kind := .rw },
      { lo := 1, width := 1, kind := .ro },
      { lo := 2, width := 2, kind := .rw, ret := true }] },
  { off := 0x020, count := 1, stride := 0x4, fields := [] },
  { off := 0x024, count := 1, stride := 0x4, fields := [{ lo := 0, width := 2, kind := .rw, ret := true, fac := 3 },
      { lo := 2, width := 2, kind := .ro, fac := 3 },
      { lo := 4, width := 1, kind := .rc }] },
  { off := 0x040, count := 4, stride := 0x10, fields := [{ lo := 0, width := 32, kind := .ro }] },
  { off := 0x044, count := 4, stride := 0x10, fields := [{ lo := 0, width := 32, kind := .ro }] },
  { off := 0x048, count := 4, stride := 0x10, fields := [{ lo := 0, width := 32, kind := .ro }] },
  { off := 0x04C, count := 4, stride := 0x10, fields := [{ lo := 0, width := 32, kind := .ro }] }]

/-- Registers of the SDI page (R35, R372). -/
def sdiRows : List RegRow := [
  { off := 0x000, count := 1, stride := 0x4, fields := [{ lo := 16, width := 16, kind := .ro },
      { lo := 8, width := 8, kind := .ro },
      { lo := 0, width := 8, kind := .ro }] },
  { off := 0x004, count := 1, stride := 0x4, fields := [{ lo := 0, width := 32, kind := .ro }] },
  { off := 0x008, count := 1, stride := 0x4, fields := [{ lo := 0, width := 1, kind := .wm, ret := true }] },
  { off := 0x00C, count := 1, stride := 0x4, fields := [{ lo := 0, width := 3, kind := .ro },
      { lo := 3, width := 1, kind := .ro },
      { lo := 4, width := 2, kind := .ro },
      { lo := 8, width := 1, kind := .ro }] },
  { off := 0x010, count := 1, stride := 0x4, fields := [{ lo := 0, width := 1, kind := .rc },
      { lo := 1, width := 1, kind := .rc },
      { lo := 2, width := 1, kind := .rc },
      { lo := 3, width := 1, kind := .rc },
      { lo := 4, width := 1, kind := .rc },
      { lo := 5, width := 1, kind := .rc }] },
  { off := 0x014, count := 1, stride := 0x4, fields := [{ lo := 0, width := 32, kind := .rw, ret := true }] },
  { off := 0x018, count := 1, stride := 0x4, fields := [{ lo := 0, width := 32, kind := .rw }] },
  { off := 0x01C, count := 1, stride := 0x4, fields := [{ lo := 0, width := 1, kind := .rw },
      { lo := 1, width := 1, kind := .ro },
      { lo := 2, width := 2, kind := .rw, ret := true }] },
  { off := 0x020, count := 1, stride := 0x4, fields := [] },
  { off := 0x024, count := 1, stride := 0x4, fields := [{ lo := 0, width := 2, kind := .rw, ret := true, fac := 3 },
      { lo := 2, width := 2, kind := .ro, fac := 3 },
      { lo := 4, width := 1, kind := .rc }] },
  { off := 0x040, count := 1, stride := 0x4, fields := [{ lo := 0, width := 2, kind := .rw, ret := true },
      { lo := 8, width := 6, kind := .rw, ret := true },
      { lo := 16, width := 5, kind := .rw, ret := true }] },
  { off := 0x044, count := 1, stride := 0x4, fields := [{ lo := 0, width := 32, kind := .ro }] },
  { off := 0x048, count := 1, stride := 0x4, fields := [{ lo := 0, width := 32, kind := .ro }] }]

/-- Registers of the ETH page (R35, R373). -/
def ethRows : List RegRow := [
  { off := 0x000, count := 1, stride := 0x4, fields := [{ lo := 16, width := 16, kind := .ro },
      { lo := 8, width := 8, kind := .ro },
      { lo := 0, width := 8, kind := .ro }] },
  { off := 0x004, count := 1, stride := 0x4, fields := [{ lo := 0, width := 32, kind := .ro }] },
  { off := 0x008, count := 1, stride := 0x4, fields := [{ lo := 0, width := 1, kind := .wm, ret := true }] },
  { off := 0x00C, count := 1, stride := 0x4, fields := [{ lo := 0, width := 1, kind := .ro },
      { lo := 1, width := 1, kind := .ro }] },
  { off := 0x010, count := 1, stride := 0x4, fields := [{ lo := 0, width := 1, kind := .rc },
      { lo := 1, width := 1, kind := .rc },
      { lo := 2, width := 1, kind := .rc },
      { lo := 3, width := 1, kind := .rc },
      { lo := 4, width := 1, kind := .rc },
      { lo := 5, width := 1, kind := .rc },
      { lo := 6, width := 1, kind := .rc }] },
  { off := 0x014, count := 1, stride := 0x4, fields := [{ lo := 0, width := 32, kind := .rw, ret := true }] },
  { off := 0x018, count := 1, stride := 0x4, fields := [{ lo := 0, width := 32, kind := .rw }] },
  { off := 0x01C, count := 1, stride := 0x4, fields := [{ lo := 0, width := 1, kind := .rw },
      { lo := 1, width := 1, kind := .ro },
      { lo := 2, width := 2, kind := .rw, ret := true }] },
  { off := 0x020, count := 1, stride := 0x4, fields := [] },
  { off := 0x024, count := 1, stride := 0x4, fields := [{ lo := 0, width := 2, kind := .rw, ret := true, fac := 3 },
      { lo := 2, width := 2, kind := .ro, fac := 3 },
      { lo := 4, width := 1, kind := .rc }] },
  { off := 0x040, count := 1, stride := 0x4, fields := [{ lo := 0, width := 32, kind := .rw, ret := true }] },
  { off := 0x044, count := 1, stride := 0x4, fields := [{ lo := 0, width := 16, kind := .rw, ret := true }] },
  { off := 0x048, count := 1, stride := 0x4, fields := [{ lo := 0, width := 32, kind := .rw, ret := true }] },
  { off := 0x04C, count := 1, stride := 0x4, fields := [{ lo := 0, width := 12, kind := .rw, ret := true },
      { lo := 12, width := 3, kind := .rw, ret := true },
      { lo := 16, width := 1, kind := .rw, ret := true }] },
  { off := 0x050, count := 1, stride := 0x4, fields := [{ lo := 0, width := 32, kind := .ro }] },
  { off := 0x054, count := 1, stride := 0x4, fields := [{ lo := 0, width := 32, kind := .ro }] },
  { off := 0x058, count := 1, stride := 0x4, fields := [{ lo := 0, width := 32, kind := .ro }] },
  { off := 0x05C, count := 1, stride := 0x4, fields := [{ lo := 0, width := 32, kind := .ro }] },
  { off := 0x060, count := 1, stride := 0x4, fields := [{ lo := 0, width := 32, kind := .ro }] },
  { off := 0x064, count := 1, stride := 0x4, fields := [{ lo := 0, width := 17, kind := .ro }] }]

/-- Registers of the PKT2110 page (R35, R374). -/
def pkt2110Rows : List RegRow := [
  { off := 0x000, count := 1, stride := 0x4, fields := [{ lo := 16, width := 16, kind := .ro },
      { lo := 8, width := 8, kind := .ro },
      { lo := 0, width := 8, kind := .ro }] },
  { off := 0x004, count := 1, stride := 0x4, fields := [{ lo := 0, width := 32, kind := .ro }] },
  { off := 0x008, count := 1, stride := 0x4, fields := [{ lo := 0, width := 1, kind := .wm, ret := true }] },
  { off := 0x00C, count := 1, stride := 0x4, fields := [] },
  { off := 0x010, count := 1, stride := 0x4, fields := [{ lo := 0, width := 1, kind := .rc },
      { lo := 1, width := 1, kind := .rc },
      { lo := 2, width := 1, kind := .rc },
      { lo := 3, width := 1, kind := .rc },
      { lo := 4, width := 1, kind := .rc },
      { lo := 5, width := 1, kind := .rc }] },
  { off := 0x014, count := 1, stride := 0x4, fields := [{ lo := 0, width := 32, kind := .rw, ret := true }] },
  { off := 0x018, count := 1, stride := 0x4, fields := [{ lo := 0, width := 32, kind := .rw }] },
  { off := 0x01C, count := 1, stride := 0x4, fields := [{ lo := 0, width := 1, kind := .rw },
      { lo := 1, width := 1, kind := .ro },
      { lo := 2, width := 2, kind := .rw, ret := true }] },
  { off := 0x020, count := 1, stride := 0x4, fields := [] },
  { off := 0x024, count := 1, stride := 0x4, fields := [{ lo := 0, width := 2, kind := .rw, ret := true, fac := 3 },
      { lo := 2, width := 2, kind := .ro, fac := 3 },
      { lo := 4, width := 1, kind := .rc }] },
  { off := 0x040, count := 16, stride := 0x20, fields := [{ lo := 0, width := 1, kind := .rw, ret := true },
      { lo := 1, width := 2, kind := .rw, so := true, ret := true },
      { lo := 3, width := 1, kind := .rw, ret := true },
      { lo := 4, width := 4, kind := .rw, so := true, ret := true },
      { lo := 8, width := 1, kind := .rw, ret := true },
      { lo := 9, width := 1, kind := .rw, ret := true },
      { lo := 10, width := 4, kind := .rw, so := true, ret := true, fac := 7 },
      { lo := 16, width := 1, kind := .rw, ret := true },
      { lo := 17, width := 1, kind := .rw, ret := true, fac := 1 },
      { lo := 18, width := 1, kind := .rw, ret := true },
      { lo := 19, width := 6, kind := .rw, ret := true, fac := 2 },
      { lo := 25, width := 5, kind := .rw, ret := true }] },
  { off := 0x044, count := 16, stride := 0x20, fields := [{ lo := 0, width := 32, kind := .rw, ret := true }] },
  { off := 0x048, count := 16, stride := 0x20, fields := [{ lo := 0, width := 16, kind := .rw, ret := true }] },
  { off := 0x04C, count := 16, stride := 0x20, fields := [{ lo := 0, width := 32, kind := .rw, ret := true }] },
  { off := 0x050, count := 16, stride := 0x20, fields := [{ lo := 0, width := 16, kind := .rw, ret := true, fac := 0x138C },
      { lo := 16, width := 16, kind := .rw, ret := true, fac := 0x138C }] },
  { off := 0x054, count := 16, stride := 0x20, fields := [{ lo := 0, width := 7, kind := .rw, ret := true, fac := 96 },
      { lo := 8, width := 6, kind := .rw, ret := true, fac := 34 },
      { lo := 16, width := 8, kind := .rw, ret := true, fac := 64 }] },
  { off := 0x058, count := 16, stride := 0x20, fields := [{ lo := 0, width := 32, kind := .rw, ret := true }] },
  { off := 0x05C, count := 16, stride := 0x20, fields := [{ lo := 0, width := 17, kind := .ro }] }]

/-- Registers of the COLL page, part 1 (R35, R402). -/
def collRows1 : List RegRow := [
  { off := 0x000, count := 1, stride := 0x4, fields := [{ lo := 16, width := 16, kind := .ro },
      { lo := 8, width := 8, kind := .ro },
      { lo := 0, width := 8, kind := .ro }] },
  { off := 0x004, count := 1, stride := 0x4, fields := [{ lo := 0, width := 32, kind := .ro }] },
  { off := 0x008, count := 1, stride := 0x4, fields := [{ lo := 0, width := 1, kind := .wm, ret := true, fac := 1 },
      { lo := 1, width := 1, kind := .wm, prv := true, ret := true },
      { lo := 2, width := 1, kind := .wm, prv := true, ret := true },
      { lo := 3, width := 1, kind := .wm },
      { lo := 4, width := 1, kind := .wm, prv := true }] },
  { off := 0x00C, count := 1, stride := 0x4, fields := [{ lo := 0, width := 3, kind := .ro },
      { lo := 3, width := 1, kind := .ro }] },
  { off := 0x010, count := 1, stride := 0x4, fields := [{ lo := 0, width := 1, kind := .rc },
      { lo := 1, width := 1, kind := .rc },
      { lo := 2, width := 1, kind := .rc },
      { lo := 3, width := 1, kind := .rc },
      { lo := 4, width := 1, kind := .rc },
      { lo := 5, width := 1, kind := .rc },
      { lo := 6, width := 1, kind := .rc },
      { lo := 7, width := 1, kind := .rc },
      { lo := 8, width := 1, kind := .rc },
      { lo := 9, width := 1, kind := .rc },
      { lo := 10, width := 1, kind := .rc },
      { lo := 11, width := 1, kind := .rc },
      { lo := 12, width := 1, kind := .rc },
      { lo := 13, width := 1, kind := .rc }] },
  { off := 0x014, count := 1, stride := 0x4, fields := [{ lo := 0, width := 32, kind := .rw, ret := true }] },
  { off := 0x018, count := 1, stride := 0x4, fields := [{ lo := 0, width := 32, kind := .rw }] },
  { off := 0x01C, count := 1, stride := 0x4, fields := [{ lo := 0, width := 1, kind := .rw },
      { lo := 1, width := 1, kind := .ro },
      { lo := 2, width := 2, kind := .rw, ret := true }] },
  { off := 0x020, count := 1, stride := 0x4, fields := [] },
  { off := 0x024, count := 1, stride := 0x4, fields := [{ lo := 0, width := 2, kind := .rw, ret := true, fac := 3 },
      { lo := 2, width := 2, kind := .ro, fac := 3 },
      { lo := 4, width := 1, kind := .rc }] },
  { off := 0x040, count := 1, stride := 0x4, fields := [{ lo := 0, width := 32, kind := .ro }] },
  { off := 0x044, count := 1, stride := 0x4, fields := [{ lo := 0, width := 32, kind := .ro }] },
  { off := 0x048, count := 1, stride := 0x4, fields := [{ lo := 0, width := 30, kind := .ro }] },
  { off := 0x04C, count := 1, stride := 0x4, fields := [{ lo := 0, width := 32, kind := .ro }] },
  { off := 0x050, count := 1, stride := 0x4, fields := [{ lo := 0, width := 32, kind := .rw, prv := true }] },
  { off := 0x054, count := 1, stride := 0x4, fields := [{ lo := 0, width := 32, kind := .rw, prv := true }] },
  { off := 0x058, count := 1, stride := 0x4, fields := [{ lo := 0, width := 30, kind := .rw, prv := true }] },
  { off := 0x05C, count := 1, stride := 0x4, fields := [{ lo := 0, width := 4, kind := .ro, fac := 2 }] },
  { off := 0x060, count := 1, stride := 0x4, fields := [{ lo := 0, width := 32, kind := .ro }] },
  { off := 0x064, count := 1, stride := 0x4, fields := [{ lo := 0, width := 32, kind := .ro }] }]

/-- Registers of the COLL page, part 2 (R35, R402). -/
def collRows2 : List RegRow := [
  { off := 0x068, count := 1, stride := 0x4, fields := [{ lo := 0, width := 4, kind := .rw, prv := true, ret := true, fac := 2 },
      { lo := 4, width := 4, kind := .rw, prv := true, ret := true, fac := 6 },
      { lo := 8, width := 12, kind := .rw, prv := true, ret := true, fac := 200 },
      { lo := 20, width := 4, kind := .rw, prv := true, ret := true, fac := 4 }] },
  { off := 0x06C, count := 1, stride := 0x4, fields := [{ lo := 0, width := 16, kind := .rw, prv := true, ret := true, fac := 100 },
      { lo := 16, width := 8, kind := .rw, prv := true, ret := true, fac := 4 },
      { lo := 24, width := 8, kind := .rw, prv := true, ret := true, fac := 1 }] },
  { off := 0x070, count := 1, stride := 0x4, fields := [{ lo := 0, width := 8, kind := .rw, prv := true, ret := true, fac := 127 },
      { lo := 8, width := 1, kind := .rw, prv := true, ret := true },
      { lo := 9, width := 1, kind := .rw, prv := true, ret := true },
      { lo := 10, width := 1, kind := .rw, prv := true, ret := true },
      { lo := 11, width := 1, kind := .rw, prv := true, ret := true, fac := 1 }] },
  { off := 0x074, count := 1, stride := 0x4, fields := [{ lo := 0, width := 32, kind := .ro }] },
  { off := 0x078, count := 1, stride := 0x4, fields := [{ lo := 0, width := 32, kind := .ro }] },
  { off := 0x07C, count := 1, stride := 0x4, fields := [{ lo := 0, width := 32, kind := .ro }] },
  { off := 0x080, count := 1, stride := 0x4, fields := [{ lo := 0, width := 32, kind := .ro }] },
  { off := 0x084, count := 1, stride := 0x4, fields := [{ lo := 0, width := 16, kind := .ro }] },
  { off := 0x088, count := 1, stride := 0x4, fields := [{ lo := 0, width := 24, kind := .ro, fac := 0x26480 }] },
  { off := 0x08C, count := 1, stride := 0x4, fields := [{ lo := 0, width := 24, kind := .ro, fac := 0x14820 }] },
  { off := 0x090, count := 1, stride := 0x4, fields := [{ lo := 0, width := 24, kind := .rw, prv := true, ret := true }] },
  { off := 0x094, count := 1, stride := 0x4, fields := [{ lo := 0, width := 24, kind := .rw, prv := true, ret := true }] },
  { off := 0x098, count := 1, stride := 0x4, fields := [{ lo := 0, width := 32, kind := .rw, prv := true, ret := true }] },
  { off := 0x09C, count := 1, stride := 0x4, fields := [{ lo := 0, width := 32, kind := .rw }] },
  { off := 0x0A0, count := 1, stride := 0x4, fields := [{ lo := 0, width := 32, kind := .rw }] },
  { off := 0x0A4, count := 1, stride := 0x4, fields := [{ lo := 0, width := 30, kind := .rw }] },
  { off := 0x0A8, count := 1, stride := 0x4, fields := [{ lo := 0, width := 1, kind := .rw },
      { lo := 1, width := 1, kind := .rw, ret := true }] },
  { off := 0x0AC, count := 1, stride := 0x4, fields := [{ lo := 0, width := 2, kind := .rw, ret := true },
      { lo := 2, width := 1, kind := .rw, ret := true },
      { lo := 4, width := 2, kind := .rw, ret := true },
      { lo := 8, width := 8, kind := .rw, ret := true, fac := 10 }] },
  { off := 0x0B0, count := 1, stride := 0x4, fields := [{ lo := 0, width := 32, kind := .ro }] },
  { off := 0x0B4, count := 1, stride := 0x4, fields := [{ lo := 0, width := 32, kind := .ro }] }]

/-- Registers of the COLL page, part 3 (R35, R402). -/
def collRows3 : List RegRow := [
  { off := 0x0B8, count := 1, stride := 0x4, fields := [{ lo := 0, width := 30, kind := .ro }] },
  { off := 0x0BC, count := 1, stride := 0x4, fields := [{ lo := 0, width := 32, kind := .ro }] },
  { off := 0x0C0, count := 1, stride := 0x4, fields := [{ lo := 0, width := 32, kind := .ro }] },
  { off := 0x0C4, count := 1, stride := 0x4, fields := [{ lo := 0, width := 32, kind := .ro }] }]

/-- Registers of the TRIG page, part 1 (R35, R403). -/
def trigRows1 : List RegRow := [
  { off := 0x000, count := 1, stride := 0x4, fields := [{ lo := 16, width := 16, kind := .ro },
      { lo := 8, width := 8, kind := .ro },
      { lo := 0, width := 8, kind := .ro }] },
  { off := 0x004, count := 1, stride := 0x4, fields := [{ lo := 0, width := 32, kind := .ro }] },
  { off := 0x008, count := 1, stride := 0x4, fields := [{ lo := 0, width := 1, kind := .wm, so := true, ret := true },
      { lo := 1, width := 1, kind := .wm, so := true, ret := true },
      { lo := 2, width := 1, kind := .wm, so := true, ret := true }] },
  { off := 0x00C, count := 1, stride := 0x4, fields := [{ lo := 0, width := 2, kind := .ro },
      { lo := 2, width := 1, kind := .ro }] },
  { off := 0x010, count := 1, stride := 0x4, fields := [{ lo := 0, width := 1, kind := .rc },
      { lo := 1, width := 1, kind := .rc },
      { lo := 2, width := 1, kind := .rc },
      { lo := 3, width := 1, kind := .rc },
      { lo := 4, width := 1, kind := .rc },
      { lo := 5, width := 1, kind := .rc },
      { lo := 6, width := 1, kind := .rc },
      { lo := 7, width := 1, kind := .rc },
      { lo := 8, width := 1, kind := .rc }] },
  { off := 0x014, count := 1, stride := 0x4, fields := [{ lo := 0, width := 32, kind := .rw, ret := true }] },
  { off := 0x018, count := 1, stride := 0x4, fields := [{ lo := 0, width := 32, kind := .rw }] },
  { off := 0x01C, count := 1, stride := 0x4, fields := [{ lo := 0, width := 1, kind := .rw },
      { lo := 1, width := 1, kind := .ro },
      { lo := 2, width := 2, kind := .rw, ret := true }] },
  { off := 0x020, count := 1, stride := 0x4, fields := [] },
  { off := 0x024, count := 1, stride := 0x4, fields := [{ lo := 0, width := 2, kind := .rw, ret := true, fac := 3 },
      { lo := 2, width := 2, kind := .ro, fac := 3 },
      { lo := 4, width := 1, kind := .rc }] },
  { off := 0x040, count := 1, stride := 0x4, fields := [{ lo := 0, width := 32, kind := .rw, so := true, ret := true, fac := 60 }] },
  { off := 0x044, count := 1, stride := 0x4, fields := [{ lo := 0, width := 16, kind := .rw, so := true, ret := true, fac := 1 }] },
  { off := 0x048, count := 1, stride := 0x4, fields := [{ lo := 0, width := 1, kind := .rw, so := true, ret := true, fac := 1 },
      { lo := 1, width := 1, kind := .rw, so := true, ret := true },
      { lo := 8, width := 8, kind := .rw, so := true, ret := true, fac := 10 }] },
  { off := 0x04C, count := 1, stride := 0x4, fields := [{ lo := 0, width := 32, kind := .rw, so := true }] },
  { off := 0x050, count := 1, stride := 0x4, fields := [{ lo := 0, width := 32, kind := .rw, so := true }] },
  { off := 0x054, count := 1, stride := 0x4, fields := [{ lo := 0, width := 30, kind := .rw, so := true }] },
  { off := 0x058, count := 1, stride := 0x4, fields := [{ lo := 0, width := 13, kind := .rw, so := true, ret := true, fac := 0x1E0 }] },
  { off := 0x05C, count := 1, stride := 0x4, fields := [{ lo := 0, width := 13, kind := .rw, so := true, ret := true, fac := 0x1E0 }] },
  { off := 0x060, count := 1, stride := 0x4, fields := [{ lo := 0, width := 32, kind := .rw, so := true, ret := true }] },
  { off := 0x064, count := 1, stride := 0x4, fields := [{ lo := 0, width := 32, kind := .rw, so := true, ret := true, fac := 100 }] }]

/-- Registers of the TRIG page, part 2 (R35, R403). -/
def trigRows2 : List RegRow := [
  { off := 0x068, count := 1, stride := 0x4, fields := [{ lo := 0, width := 32, kind := .ro }] },
  { off := 0x06C, count := 1, stride := 0x4, fields := [{ lo := 0, width := 32, kind := .ro }] },
  { off := 0x070, count := 1, stride := 0x4, fields := [{ lo := 0, width := 30, kind := .ro }] },
  { off := 0x074, count := 1, stride := 0x4, fields := [{ lo := 0, width := 32, kind := .ro }] },
  { off := 0x078, count := 1, stride := 0x4, fields := [{ lo := 0, width := 32, kind := .ro }] },
  { off := 0x07C, count := 1, stride := 0x4, fields := [{ lo := 0, width := 32, kind := .ro }] },
  { off := 0x080, count := 1, stride := 0x4, fields := [{ lo := 0, width := 32, kind := .ro }] },
  { off := 0x084, count := 1, stride := 0x4, fields := [{ lo := 0, width := 32, kind := .ro }] }]

/-- Registers of the AUD page, part 1 (R35, R419). -/
def audRows1 : List RegRow := [
  { off := 0x000, count := 1, stride := 0x4, fields := [{ lo := 16, width := 16, kind := .ro },
      { lo := 8, width := 8, kind := .ro },
      { lo := 0, width := 8, kind := .ro }] },
  { off := 0x004, count := 1, stride := 0x4, fields := [{ lo := 0, width := 32, kind := .ro }] },
  { off := 0x008, count := 1, stride := 0x4, fields := [{ lo := 0, width := 1, kind := .wm, ret := true },
      { lo := 1, width := 1, kind := .wm, so := true, ret := true },
      { lo := 2, width := 1, kind := .wm, so := true, ret := true }] },
  { off := 0x00C, count := 1, stride := 0x4, fields := [{ lo := 0, width := 2, kind := .ro },
      { lo := 2, width := 1, kind := .ro },
      { lo := 3, width := 1, kind := .ro }] },
  { off := 0x010, count := 1, stride := 0x4, fields := [{ lo := 0, width := 1, kind := .rc },
      { lo := 1, width := 1, kind := .rc },
      { lo := 2, width := 1, kind := .rc },
      { lo := 3, width := 1, kind := .rc },
      { lo := 4, width := 1, kind := .rc },
      { lo := 5, width := 1, kind := .rc },
      { lo := 6, width := 1, kind := .rc },
      { lo := 7, width := 1, kind := .rc },
      { lo := 8, width := 1, kind := .rc },
      { lo := 9, width := 1, kind := .rc }] },
  { off := 0x014, count := 1, stride := 0x4, fields := [{ lo := 0, width := 32, kind := .rw, ret := true }] },
  { off := 0x018, count := 1, stride := 0x4, fields := [{ lo := 0, width := 32, kind := .rw }] },
  { off := 0x01C, count := 1, stride := 0x4, fields := [{ lo := 0, width := 1, kind := .rw },
      { lo := 1, width := 1, kind := .ro },
      { lo := 2, width := 2, kind := .rw, ret := true }] },
  { off := 0x020, count := 1, stride := 0x4, fields := [] },
  { off := 0x024, count := 1, stride := 0x4, fields := [{ lo := 0, width := 2, kind := .rw, ret := true, fac := 3 },
      { lo := 2, width := 2, kind := .ro, fac := 3 },
      { lo := 4, width := 1, kind := .rc }] },
  { off := 0x040, count := 1, stride := 0x4, fields := [{ lo := 0, width := 1, kind := .rw, so := true, ret := true },
      { lo := 1, width := 1, kind := .rw, so := true, ret := true, fac := 1 },
      { lo := 2, width := 3, kind := .rw, so := true, ret := true, fac := 1 },
      { lo := 5, width := 5, kind := .rw, so := true, ret := true, fac := 7 },
      { lo := 10, width := 2, kind := .rw, so := true, ret := true, fac := 3 },
      { lo := 12, width := 2, kind := .rw, so := true, ret := true, fac := 2 },
      { lo := 14, width := 5, kind := .rw, so := true, ret := true },
      { lo := 19, width := 1, kind := .rw, so := true, ret := true },
      { lo := 20, width := 2, kind := .rw, so := true, ret := true },
      { lo := 22, width := 1, kind := .rw, so := true, ret := true },
      { lo := 23, width := 1, kind := .rw, so := true, ret := true },
      { lo := 24, width := 1, kind := .rw, so := true, ret := true }] },
  { off := 0x044, count := 1, stride := 0x4, fields := [{ lo := 12, width := 20, kind := .rw, so := true, ret := true }] },
  { off := 0x048, count := 1, stride := 0x4, fields := [{ lo := 0, width := 32, kind := .rw, so := true, ret := true }] },
  { off := 0x04C, count := 1, stride := 0x4, fields := [{ lo := 0, width := 26, kind := .rw, so := true, ret := true }] },
  { off := 0x050, count := 1, stride := 0x4, fields := [{ lo := 12, width := 20, kind := .rw, so := true, ret := true }] },
  { off := 0x054, count := 1, stride := 0x4, fields := [{ lo := 0, width := 32, kind := .rw, so := true, ret := true }] },
  { off := 0x058, count := 1, stride := 0x4, fields := [{ lo := 0, width := 16, kind := .rw, so := true, ret := true, fac := 0x100 }] },
  { off := 0x05C, count := 1, stride := 0x4, fields := [{ lo := 0, width := 26, kind := .ro }] },
  { off := 0x060, count := 1, stride := 0x4, fields := [{ lo := 0, width := 26, kind := .rw }] },
  { off := 0x064, count := 1, stride := 0x4, fields := [{ lo := 0, width := 16, kind := .ro }] }]

/-- Registers of the AUD page, part 2 (R35, R419). -/
def audRows2 : List RegRow := [
  { off := 0x068, count := 1, stride := 0x4, fields := [{ lo := 0, width := 16, kind := .ro }] },
  { off := 0x06C, count := 1, stride := 0x4, fields := [{ lo := 0, width := 32, kind := .ro }] },
  { off := 0x070, count := 1, stride := 0x4, fields := [{ lo := 0, width := 32, kind := .ro }] },
  { off := 0x074, count := 1, stride := 0x4, fields := [{ lo := 0, width := 32, kind := .ro }] },
  { off := 0x078, count := 1, stride := 0x4, fields := [{ lo := 0, width := 32, kind := .rw, so := true }] },
  { off := 0x07C, count := 1, stride := 0x4, fields := [{ lo := 0, width := 32, kind := .rw, so := true }] },
  { off := 0x080, count := 1, stride := 0x4, fields := [{ lo := 0, width := 30, kind := .rw, so := true }] },
  { off := 0x400, count := 1, stride := 0x4, fields := [{ lo := 0, width := 32, kind := .rw, sh := true, ret := true, fac := 3 }] }]

/-- Registers of the COND page, part 1 (R35, R429). -/
def condRows1 : List RegRow := [
  { off := 0x000, count := 1, stride := 0x4, fields := [{ lo := 16, width := 16, kind := .ro },
      { lo := 8, width := 8, kind := .ro },
      { lo := 0, width := 8, kind := .ro }] },
  { off := 0x004, count := 1, stride := 0x4, fields := [{ lo := 0, width := 32, kind := .ro }] },
  { off := 0x008, count := 1, stride := 0x4, fields := [{ lo := 0, width := 1, kind := .wm, ret := true, fac := 1 },
      { lo := 1, width := 1, kind := .wm },
      { lo := 2, width := 1, kind := .wm },
      { lo := 3, width := 1, kind := .wm }] },
  { off := 0x00C, count := 1, stride := 0x4, fields := [{ lo := 0, width := 3, kind := .ro },
      { lo := 3, width := 1, kind := .ro }] },
  { off := 0x010, count := 1, stride := 0x4, fields := [{ lo := 0, width := 1, kind := .rc },
      { lo := 1, width := 1, kind := .rc },
      { lo := 2, width := 1, kind := .rc },
      { lo := 3, width := 1, kind := .rc },
      { lo := 4, width := 1, kind := .rc },
      { lo := 5, width := 1, kind := .rc },
      { lo := 6, width := 1, kind := .rc },
      { lo := 7, width := 1, kind := .rc },
      { lo := 8, width := 1, kind := .rc },
      { lo := 9, width := 1, kind := .rc }] },
  { off := 0x014, count := 1, stride := 0x4, fields := [{ lo := 0, width := 32, kind := .rw, ret := true }] },
  { off := 0x018, count := 1, stride := 0x4, fields := [{ lo := 0, width := 32, kind := .rw }] },
  { off := 0x01C, count := 1, stride := 0x4, fields := [{ lo := 0, width := 1, kind := .rw },
      { lo := 1, width := 1, kind := .ro },
      { lo := 2, width := 2, kind := .rw, ret := true }] },
  { off := 0x020, count := 1, stride := 0x4, fields := [] },
  { off := 0x024, count := 1, stride := 0x4, fields := [{ lo := 0, width := 2, kind := .rw, ret := true, fac := 3 },
      { lo := 2, width := 2, kind := .ro, fac := 3 },
      { lo := 4, width := 1, kind := .rc }] },
  { off := 0x040, count := 1, stride := 0x4, fields := [{ lo := 0, width := 1, kind := .rw },
      { lo := 1, width := 1, kind := .rw },
      { lo := 2, width := 4, kind := .rw, fac := 6 },
      { lo := 8, width := 1, kind := .rw, fac := 1 }] },
  { off := 0x044, count := 1, stride := 0x4, fields := [{ lo := 0, width := 32, kind := .rw }] },
  { off := 0x048, count := 1, stride := 0x4, fields := [{ lo := 0, width := 32, kind := .rw }] },
  { off := 0x04C, count := 1, stride := 0x4, fields := [{ lo := 0, width := 27, kind := .rw }] },
  { off := 0x050, count := 1, stride := 0x4, fields := [{ lo := 0, width := 32, kind := .rw }] },
  { off := 0x054, count := 1, stride := 0x4, fields := [{ lo := 0, width := 32, kind := .rw }] },
  { off := 0x058, count := 1, stride := 0x4, fields := [{ lo := 0, width := 27, kind := .rw }] },
  { off := 0x05C, count := 1, stride := 0x4, fields := [{ lo := 0, width := 32, kind := .rw, fac := 0xFFFFFFFF }] },
  { off := 0x060, count := 1, stride := 0x4, fields := [{ lo := 12, width := 20, kind := .rw }] },
  { off := 0x064, count := 1, stride := 0x4, fields := [{ lo := 0, width := 32, kind := .rw }] }]

/-- Registers of the COND page, part 2 (R35, R429). -/
def condRows2 : List RegRow := [
  { off := 0x068, count := 1, stride := 0x4, fields := [{ lo := 0, width := 8, kind := .ro },
      { lo := 8, width := 1, kind := .ro },
      { lo := 12, width := 4, kind := .ro }] },
  { off := 0x06C, count := 1, stride := 0x4, fields := [{ lo := 0, width := 27, kind := .ro }] },
  { off := 0x070, count := 1, stride := 0x4, fields := [{ lo := 0, width := 27, kind := .ro }] },
  { off := 0x074, count := 1, stride := 0x4, fields := [{ lo := 0, width := 32, kind := .ro }] },
  { off := 0x078, count := 1, stride := 0x4, fields := [{ lo := 0, width := 32, kind := .ro }] },
  { off := 0x07C, count := 1, stride := 0x4, fields := [{ lo := 0, width := 27, kind := .rw, prv := true, ret := true, fac := 0x4000000 }] },
  { off := 0x080, count := 1, stride := 0x4, fields := [{ lo := 0, width := 32, kind := .ro }] },
  { off := 0x084, count := 1, stride := 0x4, fields := [{ lo := 0, width := 16, kind := .ro }] }]

/-- Registers of the RELAY page, part 1 (R35, R437). -/
def relayRows1 : List RegRow := [
  { off := 0x000, count := 1, stride := 0x4, fields := [{ lo := 16, width := 16, kind := .ro },
      { lo := 8, width := 8, kind := .ro },
      { lo := 0, width := 8, kind := .ro }] },
  { off := 0x004, count := 1, stride := 0x4, fields := [{ lo := 0, width := 32, kind := .ro }] },
  { off := 0x008, count := 1, stride := 0x4, fields := [{ lo := 0, width := 1, kind := .wm, ret := true, fac := 1 },
      { lo := 1, width := 1, kind := .wm }] },
  { off := 0x00C, count := 1, stride := 0x4, fields := [{ lo := 0, width := 1, kind := .ro },
      { lo := 8, width := 8, kind := .ro }] },
  { off := 0x010, count := 1, stride := 0x4, fields := [{ lo := 0, width := 1, kind := .rc },
      { lo := 1, width := 1, kind := .rc },
      { lo := 2, width := 1, kind := .rc },
      { lo := 3, width := 1, kind := .rc },
      { lo := 4, width := 1, kind := .rc },
      { lo := 5, width := 1, kind := .rc },
      { lo := 6, width := 1, kind := .rc }] },
  { off := 0x014, count := 1, stride := 0x4, fields := [{ lo := 0, width := 32, kind := .rw, ret := true }] },
  { off := 0x018, count := 1, stride := 0x4, fields := [{ lo := 0, width := 32, kind := .rw }] },
  { off := 0x01C, count := 1, stride := 0x4, fields := [{ lo := 0, width := 1, kind := .rw },
      { lo := 1, width := 1, kind := .ro },
      { lo := 2, width := 2, kind := .rw, ret := true }] },
  { off := 0x020, count := 1, stride := 0x4, fields := [] },
  { off := 0x024, count := 1, stride := 0x4, fields := [{ lo := 0, width := 2, kind := .rw, ret := true, fac := 3 },
      { lo := 2, width := 2, kind := .ro, fac := 3 },
      { lo := 4, width := 1, kind := .rc }] },
  { off := 0x040, count := 1, stride := 0x4, fields := [{ lo := 0, width := 8, kind := .rw, prv := true, ret := true, fac := 2 }] },
  { off := 0x044, count := 1, stride := 0x4, fields := [{ lo := 0, width := 32, kind := .ro }] },
  { off := 0x048, count := 1, stride := 0x4, fields := [{ lo := 0, width := 32, kind := .ro }] },
  { off := 0x04C, count := 1, stride := 0x4, fields := [{ lo := 0, width := 1, kind := .ro },
      { lo := 1, width := 2, kind := .ro }] },
  { off := 0x080, count := 8, stride := 0x20, fields := [{ lo := 0, width := 1, kind := .rw },
      { lo := 1, width := 1, kind := .rw }] },
  { off := 0x084, count := 8, stride := 0x20, fields := [{ lo := 0, width := 8, kind := .rw, ret := true, fac := 4 }] },
  { off := 0x088, count := 8, stride := 0x20, fields := [{ lo := 5, width := 27, kind := .rw }] },
  { off := 0x08C, count := 8, stride := 0x20, fields := [{ lo := 0, width := 32, kind := .rw }] },
  { off := 0x090, count := 8, stride := 0x20, fields := [{ lo := 5, width := 27, kind := .ro }] },
  { off := 0x094, count := 8, stride := 0x20, fields := [{ lo := 0, width := 32, kind := .ro }] }]

/-- Registers of the RELAY page, part 2 (R35, R437). -/
def relayRows2 : List RegRow := [
  { off := 0x098, count := 8, stride := 0x20, fields := [{ lo := 0, width := 2, kind := .ro },
      { lo := 8, width := 24, kind := .ro }] },
  { off := 0x09C, count := 8, stride := 0x20, fields := [{ lo := 0, width := 32, kind := .ro }] }]

/-- Registers of the DRAM page (R35, R454). -/
def dramRows : List RegRow := [
  { off := 0x000, count := 1, stride := 0x4, fields := [{ lo := 16, width := 16, kind := .ro },
      { lo := 8, width := 8, kind := .ro },
      { lo := 0, width := 8, kind := .ro }] },
  { off := 0x004, count := 1, stride := 0x4, fields := [{ lo := 0, width := 32, kind := .ro }] },
  { off := 0x008, count := 1, stride := 0x4, fields := [{ lo := 0, width := 1, kind := .wm }] },
  { off := 0x00C, count := 1, stride := 0x4, fields := [{ lo := 0, width := 1, kind := .ro },
      { lo := 1, width := 2, kind := .ro },
      { lo := 3, width := 1, kind := .ro }] },
  { off := 0x010, count := 1, stride := 0x4, fields := [{ lo := 0, width := 1, kind := .rc },
      { lo := 1, width := 1, kind := .rc },
      { lo := 2, width := 1, kind := .rc },
      { lo := 3, width := 1, kind := .rc },
      { lo := 4, width := 1, kind := .rc },
      { lo := 5, width := 1, kind := .rc },
      { lo := 6, width := 1, kind := .rc },
      { lo := 7, width := 1, kind := .rc },
      { lo := 8, width := 1, kind := .rc }] },
  { off := 0x014, count := 1, stride := 0x4, fields := [{ lo := 0, width := 32, kind := .rw, ret := true }] },
  { off := 0x018, count := 1, stride := 0x4, fields := [{ lo := 0, width := 32, kind := .rw }] },
  { off := 0x01C, count := 1, stride := 0x4, fields := [{ lo := 0, width := 1, kind := .rw },
      { lo := 1, width := 1, kind := .ro },
      { lo := 2, width := 2, kind := .rw, ret := true }] },
  { off := 0x020, count := 1, stride := 0x4, fields := [] },
  { off := 0x024, count := 1, stride := 0x4, fields := [{ lo := 0, width := 2, kind := .rw, ret := true, fac := 3 },
      { lo := 2, width := 2, kind := .ro, fac := 3 },
      { lo := 4, width := 1, kind := .rc }] },
  { off := 0x040, count := 1, stride := 0x4, fields := [{ lo := 0, width := 4, kind := .ro }] },
  { off := 0x044, count := 1, stride := 0x4, fields := [{ lo := 0, width := 8, kind := .ro }] },
  { off := 0x048, count := 1, stride := 0x4, fields := [{ lo := 0, width := 32, kind := .ro }] },
  { off := 0x04C, count := 1, stride := 0x4, fields := [{ lo := 0, width := 32, kind := .ro }] },
  { off := 0x050, count := 1, stride := 0x4, fields := [{ lo := 0, width := 32, kind := .ro }] },
  { off := 0x054, count := 1, stride := 0x4, fields := [{ lo := 0, width := 32, kind := .rc }] },
  { off := 0x058, count := 1, stride := 0x4, fields := [{ lo := 0, width := 16, kind := .ro }] },
  { off := 0x05C, count := 1, stride := 0x4, fields := [{ lo := 0, width := 16, kind := .ro }] }]

/-- Registers of the DRAMCTL page (R35, R455). -/
def dramctlRows : List RegRow := [
  { off := 0x000, count := 1, stride := 0x4, fields := [{ lo := 16, width := 16, kind := .ro },
      { lo := 8, width := 8, kind := .ro },
      { lo := 0, width := 8, kind := .ro }] },
  { off := 0x004, count := 1, stride := 0x4, fields := [{ lo := 0, width := 32, kind := .ro }] },
  { off := 0x008, count := 1, stride := 0x4, fields := [{ lo := 0, width := 1, kind := .wm }] },
  { off := 0x00C, count := 1, stride := 0x4, fields := [{ lo := 0, width := 2, kind := .ro },
      { lo := 2, width := 2, kind := .ro },
      { lo := 4, width := 1, kind := .ro },
      { lo := 5, width := 1, kind := .ro },
      { lo := 6, width := 1, kind := .ro }] },
  { off := 0x010, count := 1, stride := 0x4, fields := [{ lo := 0, width := 1, kind := .rc },
      { lo := 1, width := 1, kind := .rc },
      { lo := 2, width := 1, kind := .rc },
      { lo := 3, width := 1, kind := .rc },
      { lo := 4, width := 1, kind := .rc },
      { lo := 5, width := 1, kind := .rc },
      { lo := 6, width := 1, kind := .rc },
      { lo := 7, width := 1, kind := .rc }] },
  { off := 0x014, count := 1, stride := 0x4, fields := [{ lo := 0, width := 32, kind := .rw, ret := true }] },
  { off := 0x018, count := 1, stride := 0x4, fields := [{ lo := 0, width := 32, kind := .rw }] },
  { off := 0x01C, count := 1, stride := 0x4, fields := [{ lo := 0, width := 1, kind := .rw },
      { lo := 1, width := 1, kind := .ro },
      { lo := 2, width := 2, kind := .rw, ret := true }] },
  { off := 0x020, count := 1, stride := 0x4, fields := [] },
  { off := 0x024, count := 1, stride := 0x4, fields := [{ lo := 0, width := 2, kind := .rw, ret := true, fac := 3 },
      { lo := 2, width := 2, kind := .ro, fac := 3 },
      { lo := 4, width := 1, kind := .rc }] },
  { off := 0x040, count := 1, stride := 0x4, fields := [{ lo := 0, width := 2, kind := .rw, ret := true }] },
  { off := 0x044, count := 1, stride := 0x4, fields := [{ lo := 0, width := 10, kind := .rw, ret := true, fac := 64 }] },
  { off := 0x048, count := 1, stride := 0x4, fields := [{ lo := 0, width := 2, kind := .rw }] },
  { off := 0x04C, count := 1, stride := 0x4, fields := [{ lo := 0, width := 16, kind := .rw, ret := true, fac := 250 }] },
  { off := 0x050, count := 1, stride := 0x4, fields := [{ lo := 0, width := 8, kind := .rw, ret := true }] },
  { off := 0x054, count := 1, stride := 0x4, fields := [{ lo := 0, width := 16, kind := .rw, so := true, ret := true }] },
  { off := 0x058, count := 1, stride := 0x4, fields := [{ lo := 0, width := 7, kind := .ro }] },
  { off := 0x05C, count := 1, stride := 0x4, fields := [{ lo := 0, width := 16, kind := .ro }] }]

/-- Registers of the CLUSTER page (R35, R477). -/
def clusterRows : List RegRow := [
  { off := 0x000, count := 1, stride := 0x4, fields := [{ lo := 16, width := 16, kind := .ro },
      { lo := 8, width := 8, kind := .ro },
      { lo := 0, width := 8, kind := .ro }] },
  { off := 0x004, count := 1, stride := 0x4, fields := [{ lo := 0, width := 32, kind := .ro }] },
  { off := 0x008, count := 1, stride := 0x4, fields := [{ lo := 0, width := 1, kind := .wm }] },
  { off := 0x00C, count := 1, stride := 0x4, fields := [{ lo := 0, width := 1, kind := .ro },
      { lo := 2, width := 2, kind := .ro },
      { lo := 4, width := 2, kind := .ro },
      { lo := 6, width := 1, kind := .ro }] },
  { off := 0x010, count := 1, stride := 0x4, fields := [{ lo := 0, width := 1, kind := .rc },
      { lo := 1, width := 1, kind := .rc },
      { lo := 2, width := 1, kind := .rc },
      { lo := 3, width := 1, kind := .rc },
      { lo := 4, width := 1, kind := .rc },
      { lo := 5, width := 1, kind := .rc },
      { lo := 6, width := 1, kind := .rc }] },
  { off := 0x014, count := 1, stride := 0x4, fields := [{ lo := 0, width := 32, kind := .rw, ret := true }] },
  { off := 0x018, count := 1, stride := 0x4, fields := [{ lo := 0, width := 32, kind := .rw }] },
  { off := 0x01C, count := 1, stride := 0x4, fields := [{ lo := 0, width := 1, kind := .rw },
      { lo := 1, width := 1, kind := .ro },
      { lo := 2, width := 2, kind := .rw, ret := true }] },
  { off := 0x020, count := 1, stride := 0x4, fields := [] },
  { off := 0x024, count := 1, stride := 0x4, fields := [{ lo := 0, width := 2, kind := .rw, ret := true, fac := 3 },
      { lo := 2, width := 2, kind := .ro, fac := 3 },
      { lo := 4, width := 1, kind := .rc }] },
  { off := 0x040, count := 1, stride := 0x4, fields := [{ lo := 0, width := 32, kind := .ro }] },
  { off := 0x044, count := 1, stride := 0x4, fields := [{ lo := 0, width := 32, kind := .ro }] },
  { off := 0x048, count := 1, stride := 0x4, fields := [{ lo := 0, width := 8, kind := .ro },
      { lo := 8, width := 8, kind := .ro }] },
  { off := 0x04C, count := 1, stride := 0x4, fields := [{ lo := 0, width := 16, kind := .rw, ret := true, fac := 100 }] },
  { off := 0x050, count := 1, stride := 0x4, fields := [{ lo := 0, width := 32, kind := .ro }] },
  { off := 0x054, count := 1, stride := 0x4, fields := [{ lo := 0, width := 32, kind := .ro }] },
  { off := 0x058, count := 1, stride := 0x4, fields := [{ lo := 0, width := 16, kind := .ro }] },
  { off := 0x05C, count := 1, stride := 0x4, fields := [{ lo := 0, width := 16, kind := .ro }] }]

/-- Registers of the SECURITY page (R35, R478). -/
def securityRows : List RegRow := [
  { off := 0x000, count := 1, stride := 0x4, fields := [{ lo := 16, width := 16, kind := .ro },
      { lo := 8, width := 8, kind := .ro },
      { lo := 0, width := 8, kind := .ro }] },
  { off := 0x004, count := 1, stride := 0x4, fields := [{ lo := 0, width := 32, kind := .ro }] },
  { off := 0x008, count := 1, stride := 0x4, fields := [{ lo := 0, width := 1, kind := .wm }] },
  { off := 0x00C, count := 1, stride := 0x4, fields := [{ lo := 0, width := 1, kind := .ro }] },
  { off := 0x010, count := 1, stride := 0x4, fields := [{ lo := 0, width := 1, kind := .rc },
      { lo := 1, width := 1, kind := .rc },
      { lo := 2, width := 1, kind := .rc },
      { lo := 3, width := 1, kind := .rc },
      { lo := 4, width := 1, kind := .rc },
      { lo := 5, width := 1, kind := .rc },
      { lo := 6, width := 1, kind := .rc },
      { lo := 7, width := 1, kind := .rc }] },
  { off := 0x014, count := 1, stride := 0x4, fields := [{ lo := 0, width := 32, kind := .rw, ret := true }] },
  { off := 0x018, count := 1, stride := 0x4, fields := [{ lo := 0, width := 32, kind := .rw }] },
  { off := 0x01C, count := 1, stride := 0x4, fields := [{ lo := 0, width := 1, kind := .rw },
      { lo := 1, width := 1, kind := .ro },
      { lo := 2, width := 2, kind := .rw, ret := true }] },
  { off := 0x020, count := 1, stride := 0x4, fields := [] },
  { off := 0x024, count := 1, stride := 0x4, fields := [{ lo := 0, width := 2, kind := .rw, ret := true, fac := 3 },
      { lo := 2, width := 2, kind := .ro, fac := 3 },
      { lo := 4, width := 1, kind := .rc }] },
  { off := 0x040, count := 1, stride := 0x4, fields := [{ lo := 0, width := 7, kind := .ro }] },
  { off := 0x044, count := 1, stride := 0x4, fields := [{ lo := 0, width := 1, kind := .rw }] },
  { off := 0x048, count := 4, stride := 0x4, fields := [{ lo := 0, width := 32, kind := .ro }] },
  { off := 0x058, count := 12, stride := 0x4, fields := [{ lo := 0, width := 32, kind := .ro }] },
  { off := 0x088, count := 1, stride := 0x4, fields := [{ lo := 0, width := 32, kind := .ro }] },
  { off := 0x08C, count := 1, stride := 0x4, fields := [{ lo := 0, width := 32, kind := .ro }] },
  { off := 0x090, count := 1, stride := 0x4, fields := [{ lo := 0, width := 32, kind := .ro }] }]

/-- Registers of the ARRAY page (R35, R510). -/
def arrayRows : List RegRow := [
  { off := 0x000, count := 1, stride := 0x4, fields := [{ lo := 16, width := 16, kind := .ro },
      { lo := 8, width := 8, kind := .ro },
      { lo := 0, width := 8, kind := .ro }] },
  { off := 0x004, count := 1, stride := 0x4, fields := [{ lo := 0, width := 32, kind := .ro }] },
  { off := 0x008, count := 1, stride := 0x4, fields := [{ lo := 0, width := 1, kind := .wm }] },
  { off := 0x00C, count := 1, stride := 0x4, fields := [{ lo := 0, width := 1, kind := .ro },
      { lo := 1, width := 1, kind := .ro },
      { lo := 2, width := 1, kind := .ro }] },
  { off := 0x010, count := 1, stride := 0x4, fields := [{ lo := 0, width := 1, kind := .rc },
      { lo := 1, width := 1, kind := .rc },
      { lo := 2, width := 1, kind := .rc },
      { lo := 3, width := 1, kind := .rc },
      { lo := 4, width := 1, kind := .rc },
      { lo := 5, width := 1, kind := .rc },
      { lo := 6, width := 1, kind := .rc },
      { lo := 7, width := 1, kind := .rc },
      { lo := 8, width := 1, kind := .rc }] },
  { off := 0x014, count := 1, stride := 0x4, fields := [{ lo := 0, width := 32, kind := .rw, ret := true }] },
  { off := 0x018, count := 1, stride := 0x4, fields := [{ lo := 0, width := 32, kind := .rw }] },
  { off := 0x01C, count := 1, stride := 0x4, fields := [{ lo := 0, width := 1, kind := .rw },
      { lo := 1, width := 1, kind := .ro },
      { lo := 2, width := 2, kind := .rw, ret := true }] },
  { off := 0x020, count := 1, stride := 0x4, fields := [] },
  { off := 0x024, count := 1, stride := 0x4, fields := [{ lo := 0, width := 2, kind := .rw, ret := true, fac := 3 },
      { lo := 2, width := 2, kind := .ro, fac := 3 },
      { lo := 4, width := 1, kind := .rc }] },
  { off := 0x040, count := 1, stride := 0x4, fields := [{ lo := 0, width := 32, kind := .ro, ret := true }] },
  { off := 0x044, count := 1, stride := 0x4, fields := [{ lo := 0, width := 16, kind := .ro }] },
  { off := 0x048, count := 1, stride := 0x4, fields := [{ lo := 0, width := 16, kind := .ro }] },
  { off := 0x04C, count := 1, stride := 0x4, fields := [{ lo := 0, width := 16, kind := .rw, ret := true, fac := 100 }] },
  { off := 0x050, count := 1, stride := 0x4, fields := [{ lo := 0, width := 8, kind := .rw, ret := true, fac := 15 }] },
  { off := 0x054, count := 1, stride := 0x4, fields := [{ lo := 0, width := 32, kind := .ro }] },
  { off := 0x058, count := 1, stride := 0x4, fields := [{ lo := 0, width := 32, kind := .ro }] },
  { off := 0x05C, count := 1, stride := 0x4, fields := [{ lo := 0, width := 16, kind := .ro }] },
  { off := 0x060, count := 1, stride := 0x4, fields := [{ lo := 0, width := 32, kind := .ro }] }]

/-- The registers of every page of a block type. -/
def blkRows : Blk → List RegRow
  | .global => globalRows1 ++ globalRows2
  | .rstore => rstoreRows
  | .guard => guardRows1 ++ guardRows2
  | .pwr => pwrRows
  | .therm => thermRows
  | .lane => laneRows1 ++ laneRows2
  | .link => linkRows1 ++ linkRows2
  | .ingress => ingressRows1 ++ ingressRows2
  | .prismFe => prismFeRows1 ++ prismFeRows2
  | .prismBe => prismBeRows1 ++ prismBeRows2
  | .fstore => fstoreRows1 ++ fstoreRows2
  | .split => splitRows
  | .draw => drawRows
  | .drawctl => drawctlRows1 ++ drawctlRows2
  | .henc => hencRows1 ++ hencRows2
  | .iris => irisRows
  | .hdec => hdecRows1 ++ hdecRows2
  | .drdec => drdecRows1 ++ drdecRows2
  | .hostq => hostqRows1 ++ hostqRows2
  | .nspace => nspaceRows1 ++ nspaceRows2
  | .media => mediaRows
  | .recorder => recorderRows1 ++ recorderRows2
  | .loupe => loupeRows1 ++ loupeRows2
  | .mirror => mirrorRows
  | .sdi => sdiRows
  | .eth => ethRows
  | .pkt2110 => pkt2110Rows
  | .coll => collRows1 ++ collRows2 ++ collRows3
  | .trig => trigRows1 ++ trigRows2
  | .aud => audRows1 ++ audRows2
  | .cond => condRows1 ++ condRows2
  | .relay => relayRows1 ++ relayRows2
  | .dram => dramRows
  | .dramctl => dramctlRows
  | .cluster => clusterRows
  | .security => securityRows
  | .array => arrayRows

/-- The writable _LO registers of a block type, as (offset, number, spacing) (R47). -/
def loRows : Blk → List (Nat × Nat × Nat)
  | .global => [(0x50, 1, 0x4)]
  | .guard => [(0x80, 16, 0x10), (0x88, 16, 0x10)]
  | .lane => [(0x68, 1, 0x4)]
  | .ingress => [(0x58, 1, 0x4), (0x60, 1, 0x4)]
  | .prismFe => [(0x414, 1, 0x4), (0x420, 1, 0x4), (0x428, 1, 0x4)]
  | .fstore => [(0x60, 1, 0x4)]
  | .split => [(0x48, 8, 0x20)]
  | .drawctl => [(0x4c, 1, 0x4)]
  | .henc => [(0x50, 1, 0x4)]
  | .hdec => [(0x40, 1, 0x4), (0x54, 1, 0x4)]
  | .drdec => [(0x40, 1, 0x4), (0x54, 1, 0x4)]
  | .hostq => [(0x44, 1, 0x4), (0x4c, 1, 0x4)]
  | .nspace => [(0x40, 1, 0x4)]
  | .recorder => [(0x68, 1, 0x4)]
  | .loupe => [(0x414, 2, 0x18), (0x440, 1, 0x4)]
  | .eth => [(0x40, 1, 0x4)]
  | .pkt2110 => [(0x44, 16, 0x20)]
  | .coll => [(0x50, 1, 0x4), (0x9c, 1, 0x4)]
  | .trig => [(0x4c, 1, 0x4)]
  | .aud => [(0x44, 1, 0x4), (0x50, 1, 0x4), (0x78, 1, 0x4)]
  | .cond => [(0x44, 1, 0x4), (0x50, 1, 0x4), (0x60, 1, 0x4)]
  | .relay => [(0x88, 8, 0x20)]
  | _ => []

end Sys2Proof.Machine
end

