-- ==== Sys2Proof/Machine/State.lean ====
section
/-! DEFINITION. The state of the KZ7160 as plain data: the register file, the engines behind it, the memories, the queue of
waiting commands and the record of what the device has sent out. -/

namespace Sys2Proof.Machine

/-- The six modes (R56). -/
inductive Mode where
  | standby | live | record | review | service | sleep
  deriving DecidableEq, Repr, Inhabited

/-- Where the device stands between modes: held in reset, in the restore window of R87, settled in a mode, in a take START
(R68), in a move between LIVE and RECORD whose mode is given (R64) or in a take STOP (R70). The number names the SET MODE command to
complete; none is a START by the boot mode or a STOP by firmware. -/
inductive Phase where
  | inReset
  | restoring
  | settled
  | checking (target : Mode) (cmd : Option Nat)
  | starting (target : Mode) (cmd : Option Nat)
  | switching (target : Mode) (cmd : Option Nat)
  | stopping (cmd : Option Nat)
  | closing (cmd : Option Nat)
  deriving DecidableEq, Repr, Inhabited

/-- Mode, transition, commit and access state that no register holds. DESIGN CHOICE (log 38). DEDUCED (log 80). -/
structure Ctl where
  /-- STRAP0 to STRAP3 as bits 0 to 3, as sampled at the last power-on reset (R519). -/
  straps : Nat := 0
  mode : Mode := .standby
  phase : Phase := .inReset
  /-- The sequencer holds reset until the die has cooled (R491). -/
  tripHold : Bool := false
  /-- The host link is trained and the endpoint answers (R55, R87). -/
  linkUp : Bool := false
  /-- The capture group runs, so its SO fields are closed (R57, R58, R70). -/
  capRun : Bool := false
  /-- At least one frame of the take has started at Ingress. -/
  frameSeen : Bool := false
  /-- The last frame of a stopping take (R70). -/
  stopFrame : Option Nat := none
  /-- The first frame of the recording in progress, and the first frame after it once its end is known (R64, R139). -/
  recStart : Option Nat := none
  recEnd : Option Nat := none
  /-- The renditions whose digest reads the last take START charged (R274, R341). -/
  charged : List Nat := []
  /-- _LO values held for the next _HI write, by register (R47). -/
  loHold : List (Nat × Word) := []
  /-- W1 registers already written (R41). -/
  w1Done : List Nat := []
  /-- Snapshots of shadows by page, from COMMIT.REQ to the commit (R38). -/
  snaps : List (Nat × List (Nat × Word)) := []
  /-- Bound commit groups: target frame and pages (R75). -/
  groups : List (Nat × List Nat) := []
  /-- MSI-X pending latches, as function × 64 + vector (R52). -/
  latches : List Nat := []
  /-- Vectors whose delay by the cap has been reported (R472). -/
  throttled : List Nat := []
  /-- Message credit of PF0 and PF1 (R472). -/
  credit0 : Nat := 0
  credit1 : Nat := 0
  /-- BUSERR_ADDR and BUSERR_INFO hold a first bus error that no read of BUSERR_INFO has taken (R54). -/
  busErrHeld : Bool := false
  /-- The model's own mark, set only within a step while Relay makes a register access: Relay's accesses need neither the host link nor running
  firmware (R430). -/
  relayBeat : Bool := false
  deriving DecidableEq, Repr, Inhabited

/-- A save that runs or is held (R82): its cause, the commands that complete when it ends, and for a WRITE to SETTINGS the
image that the host gave (R311) with the number of bytes written. -/
structure SaveReq where
  cause : Nat
  cmds : List Nat
  image : Option (List Byte)
  deriving DecidableEq, Repr, Inhabited

/-- The retained-state memory (R82 to R88): the bytes of the two banks, the running save with its target bank, sequence number
and image, the held save, and WRITEs to SETTINGS that wait for the save engine. -/
structure Rsm where
  bank0 : List Byte := []
  bank1 : List Byte := []
  running : Option (SaveReq × Nat × Nat × List Byte) := none
  held : Option SaveReq := none
  writes : List SaveReq := []
  deriving DecidableEq, Repr, Inhabited

/-- A submission queue (R279, R281, R283, R289). -/
structure Sq where
  live : Bool := false
  base : Nat := 0
  size : Nat := 0
  head : Nat := 0
  tail : Nat := 0
  cqid : Nat := 0
  cls : Nat := 0
  fault : Bool := false
  /-- Leading available entries that stood while fetching was stopped (R295). -/
  late : Nat := 0
  /-- The place in doorbell order of the command fetched last (R294). -/
  lastOrder : Nat := 0
  deriving DecidableEq, Repr, Inhabited

/-- A completion queue (R279, R282, R287, R302). -/
structure Cq where
  live : Bool := false
  base : Nat := 0
  size : Nat := 0
  head : Nat := 0
  tail : Nat := 0
  phase : Bool := false
  vector : Nat := 0
  ien : Bool := false
  cnt : Nat := 0
  time : Nat := 0
  unsig : Nat := 0
  /-- A completion is held because the queue is full (R282). -/
  held : Bool := false
  deriving DecidableEq, Repr, Inhabited

/-- How far a fetched command is: not started, started, or past its commit point (R297). -/
inductive Stage where
  | waiting | running | done
  deriving DecidableEq, Repr, Inhabited

/-- A fetched command in the command table, with the completion it will post (R284, R287, R288). DESIGN CHOICE (log 89). -/
structure Cmd where
  live : Bool := false
  /-- The number that engines use to name the command: no two commands share one. -/
  uid : Nat := 0
  fn : Fn := .pf0
  sqid : Nat := 0
  cqid : Nat := 0
  cid : Nat := 0
  sqHead : Nat := 0
  /-- Its place in doorbell order (R294, R295). -/
  order : Nat := 0
  raw : List Byte := []
  stage : Stage := .waiting
  status : Nat := 0
  result : Nat := 0
  detail : Nat := 0
  /-- The host buffers of the command once its extent list has been checked (R286). -/
  bufs : List (Nat × Nat) := []
  /-- The bytes of its namespace that it reads or writes, once it has started (R295). -/
  len : Nat := 0
  deriving DecidableEq, Repr, Inhabited

/-- An entry of the error log (R308). -/
structure ErrEntry where
  fn : Fn
  sqid : Nat
  opcode : Nat
  cid : Nat
  status : Nat
  detail : Nat
  field : Nat
  tag : Nat
  count : Nat
  deriving DecidableEq, Repr, Inhabited

/-- The configuration state of a function (R277): Memory Space and Bus Master Enable, the MSI-X Enable and Function Mask bits, the codes of
the maximum payload and read request sizes, D3hot, and the status and mask words of Advanced Error Reporting. PRESUMED (log 15). -/
structure PciFn where
  memory : Bool := false
  master : Bool := false
  msixOn : Bool := false
  msixMask : Bool := false
  mps : Nat := 0
  mrrs : Nat := 2
  d3 : Bool := false
  bars : List Nat := []
  uncStatus : Nat := 0
  uncMask : Nat := 0
  corStatus : Nat := 0
  corMask : Nat := 8192
  deriving DecidableEq, Repr, Inhabited

/-- The host queues (R277 to R302). Queues are keyed by function × 64 + QID, commands by tag. DEDUCED (log 50). DESIGN CHOICE (log 89). -/
structure Hq where
  sqs : Tbl Sq := []
  cqs : Tbl Cq := []
  cmds : Tbl Cmd := []
  /-- Commands whose queues are gone but whose effect runs on (R278). -/
  ghosts : List Cmd := []
  /-- Entries made available and not yet fetched: queue key and doorbell order (R281, R294). -/
  avail : List (Nat × Nat) := []
  dbSeq : Nat := 0
  uidSeq : Nat := 0
  /-- Arbitration (R289): the class being served and its commands left in this round; by class, the last queue served and
  its commands left in this turn. -/
  cls : Nat := 0
  clsLeft : Nat := 0
  last : Tbl Nat := []
  turn : Tbl Nat := []
  /-- Fetching pauses for want of a tag: of the I/O queues, and of the admin queues (R288). -/
  exhausted : Bool := false
  exhaustedAdmin : Bool := false
  /-- DB_ERR_INFO holds a doorbell that has not been read (R316). -/
  dbErrHeld : Bool := false
  errors : List ErrEntry := []
  errCount0 : Nat := 0
  errCount1 : Nat := 0
  /-- The last budget report (R308). -/
  report : List Byte := []
  /-- The bytes that firmware has written to LOG (R74, R317). -/
  logUsed : Nat := 0
  /-- The MSI-X tables in BAR2: words by function × 1,024 + word; a vector's control word has bit 0 for masked (R277). -/
  msixTable : Tbl Nat := []
  /-- The configuration state of PF0 and PF1 (R277). -/
  pci0 : PciFn := {}
  pci1 : PciFn := {}
  deriving DecidableEq, Repr, Inhabited

/-- What a back-channel message is for, which decides what its acknowledgement does (R97, R111, R112, R116). -/
inductive BcUse where
  | plain | mailbox | fallback | restoreMap | eqset
  deriving DecidableEq, Repr, Inhabited

/-- A back-channel message: operation, argument, data blocks as (low word, high word), sequence number and resends so far
(R115, R116). -/
structure BcMsg where
  op : Nat
  arg : Nat
  data : List (Nat × Nat)
  use : BcUse
  seq : Nat := 0
  resends : Nat := 0
  deriving DecidableEq, Repr, Inhabited

/-- Where a port stands in its bring-up (R97). -/
inductive PortPhase where
  | down | training | adapting | eqset | linked
  deriving DecidableEq, Repr, Inhabited

/-- The line segment that a logical lane is receiving: the fields of its SOL and the packets accepted (R93, R94, R107). -/
structure LaneSeg where
  sol : Bool := false
  line : Nat := 0
  cells : Nat := 0
  /-- The SOL disagrees with LINK.CFG in DEPTH or DG (R133). -/
  badFormat : Bool := false
  /-- The first block offset a further packet may have. -/
  next : Nat := 0
  packets : List (Nat × List Byte) := []
  deriving DecidableEq, Repr, Inhabited

/-- What a bring-up that times out puts back: whether the back-channel was trained, the map in force and the full map, LINK registers by
key, and POL_INVERT of the port's lanes (R102). DESIGN CHOICE (log 98). -/
structure TrainUndo where
  bcUp : Bool := false
  map : List Nat := []
  fullMap : List Nat := []
  regs : List (Nat × Word) := []
  inverts : List (Nat × Nat) := []
  deriving DecidableEq, Repr, Inhabited

/-- A sensor port: bring-up, back-channel, lane map, lane outages, N−1 fallback, the FWR tags of the take and the line being
received (R89 to R119). -/
structure PortSt where
  phase : PortPhase := .down
  trained : List TrainBlk := []
  /-- The back-channel is trained, so the heartbeat runs (R118). -/
  bcUp : Bool := false
  seq : Nat := 0
  hbSeq : Nat := 0
  cur : Option BcMsg := none
  queue : List BcMsg := []
  /-- Physical lanes in logical order: the map in force, and the map as training left it (R97, R111, R112). -/
  map : List Nat := []
  fullMap : List Nat := []
  /-- Physical lanes whose data is taken (R110). -/
  joined : List Nat := []
  /-- Lanes out of lock with the frame starts counted so far, oldest outage first (R111). -/
  outages : List (Nat × Nat) := []
  fallLane : Nat := 0
  /-- The frame at which the N−1 map takes effect, and whether the sensor has acknowledged it (R111). -/
  fallFrame : Option Nat := none
  fallAck : Bool := false
  /-- The frames for which FWR has been sent in the take, newest first (R117). -/
  fwr : List Nat := []
  eqLast : Option (Nat × Nat) := none
  /-- The port delivers frames of a take (R114). -/
  streaming : Bool := false
  segs : Tbl LaneSeg := []
  /-- A SOF that has not reached Ingress yet: FRAME and APPLIED_TAG (R117, R134). -/
  sof : Option (Nat × Nat) := none
  /-- META bytes received since that SOF (R96). -/
  metaBuf : List Byte := []
  /-- The readout in progress is discarded up to its EOF (R26, R144). -/
  discard : Bool := false
  /-- What the bring-up in progress puts back when it times out (R102). -/
  undo : Option TrainUndo := none
  /-- The adapted taps of the port's receivers, by lane (R103, R104). -/
  taps : Tbl (List Nat) := []
  deriving DecidableEq, Repr, Inhabited

/-- A time of the Collimator: seconds, nanoseconds and 2^−32 nanoseconds (R375). -/
structure Time where
  sec : Nat := 0
  ns : Nat := 0
  frac : Nat := 0
  deriving DecidableEq, Repr, Inhabited

/-- One sensor's half of the open frame, or the whole of it in single-sensor operation (R136, R137, R143). -/
structure Half where
  used : Bool := false
  sof : Bool := false
  /-- Fixed as lost by the pair window (R143). -/
  missing : Bool := false
  /-- Its EOF has arrived, or LINE_TIMEOUT has passed (R135). -/
  eof : Bool := false
  /-- FRAME_DEGRADED has been raised for it (R109). -/
  degraded : Bool := false
  sensorFrame : Nat := 0
  tag : Nat := 0
  lines : Nat := 0
  metaBytes : List Byte := []
  /-- Status of each line that has arrived, by line of the window, as code + 1 (R109). -/
  status : Tbl Nat := []
  deriving DecidableEq, Repr, Inhabited

/-- The frame that Ingress is receiving (R134 to R137). -/
structure OpenFrame where
  num : Nat := 0
  /-- The slot it is written to; none for a dropped frame. -/
  slot : Option Nat := none
  sofTime : Time := {}
  paramLate : Bool := false
  frameSeq : Bool := false
  formatErr : Bool := false
  expectedTag : Nat := 0
  sat : Nat := 0
  a : Half := {}
  b : Half := {}
  deriving DecidableEq, Repr, Inhabited

/-- A slot of the frame ring (R138, R139). -/
structure RingSlot where
  has : Bool := false
  frame : Nat := 0
  /-- Receiving a frame, or awaiting or undergoing its shared read. -/
  busy : Bool := false
  held : Bool := false
  /-- When it became free: lower is longer ago. -/
  freedAt : Nat := 0
  deriving DecidableEq, Repr, Inhabited

/-- A shared read in progress: the frame, its next line, the address and shape of the slot it reads, and whether the slot is one of
the raw decoder's in REVIEW (R14, R229). -/
structure Reading where
  frame : Nat := 0
  next : Nat := 0
  addr : Nat := 0
  w : Nat := 0
  h : Nat := 0
  ds : Nat := 0
  review : Bool := false
  deriving DecidableEq, Repr, Inhabited

/-- Ingress, the frame store and the shared read (R125 to R145). -/
structure IngressSt where
  openFrame : Option OpenFrame := none
  slots : Tbl RingSlot := []
  freeCtr : Nat := 0
  /-- Active copies as they stand for each frame of the take: frame number and register words (R77 to R79). -/
  frameVals : List (Nat × List (Nat × Word)) := []
  /-- Frames whose records are written and whose shared read has not begun, ascending. -/
  ready : List Nat := []
  /-- The shared read in progress (R14). -/
  reading : Option Reading := none
  /-- Held frames not yet encoded, ascending, and the one the catch-up read is at (R139, R140). -/
  catchup : List Nat := []
  /-- SOF times of the take's frames, newest first (R134, R328). -/
  sofs : List (Nat × Time) := []
  deriving DecidableEq, Repr, Inhabited

/-- A running load of the Filter Store: its slot, the payload's address, the CRC and format of its header, and the command it
serves (R202, R314). -/
structure FsLoad where
  slot : Nat
  src : Nat
  kind : Nat
  crc : Nat
  fmt : Nat
  cmd : Option Nat
  deriving DecidableEq, Repr, Inhabited

/-- The Filter Store: its bytes and the running load (R194 to R202). -/
structure FilterSt where
  mem : Bytes := []
  load : Option FsLoad := none
  deriving DecidableEq, Repr, Inhabited

/-- A frame of one rendition: begun, its wait for a buffer counted, groups of lines published, finished, and codes clamped low
and high (R175, R192). -/
structure RendSt where
  begun : Bool := false
  stalled : Bool := false
  groups : Nat := 0
  done : Bool := false
  lo : Nat := 0
  hi : Nat := 0
  deriving DecidableEq, Repr, Inhabited

/-- A frame inside Prism: its metadata record, its defect list as (Y × 16,384 + X, MODE), and the lines that have left F1, F5 and the
front end (R149 to R164). -/
structure Pic where
  frame : Nat := 0
  w : Nat := 0
  h : Nat := 0
  ds : Nat := 0
  record : List Byte := []
  defects : List (Nat × Nat) := []
  raw : List (List Nat) := []
  pf : List (List Nat) := []
  work : List (List (Nat × Nat × Nat)) := []
  rends : Tbl RendSt := []
  deriving DecidableEq, Repr, Inhabited

/-- Who reads a rendition buffer, or is still to read it: a stream whose frame is due (R17, R192, R257). -/
inductive Reader where
  | henc (stream : Nat) | due (stream : Nat) | loupe (output : Nat) | hold (k : Nat)
  deriving DecidableEq, Repr, Inhabited

/-- Prism and the Splitter: frames inside them in ascending order, the newest complete frame of each rendition, the frame in
each buffer by rendition × 16 + buffer, and the buffers that consumers hold as (consumer, rendition, frame) (R192). -/
structure SplitSt where
  pics : List Pic := []
  newest : Tbl (Option Nat) := []
  bufs : Tbl (Option Nat) := []
  holds : List (Reader × Nat × Nat) := []
  deriving DecidableEq, Repr, Inhabited

/-- A frame that the raw cores encode: its record buffer, its starting QPs, the lines taken so far and the FLAGS of its metadata record as
the encoding began (R210, R212, R225). -/
structure DrawFrame where
  frame : Nat := 0
  buf : Nat := 0
  qp0 : List Nat := []
  lines : List (List Nat) := []
  flags : Nat := 0
  /-- Its slot is held for a repair (R228). -/
  repair : Bool := false
  deriving DecidableEq, Repr, Inhabited

/-- The raw encoders (R207 to R228): frames begun in the take, the live and the catch-up frame, the buffers that the Recorder has
not released as (buffer, frame, complete), the waiting frames that have been counted, for each stream the tile states after its two
newest frames, and the cores that columns go to since the last assignment (R226). -/
structure DrawSt where
  count : Nat := 0
  live : Option DrawFrame := none
  cat : Option DrawFrame := none
  bufs : List (Nat × Nat × Bool) := []
  stalled : List Nat := []
  liveHist : List (Nat × List Nat) := []
  catHist : List (Nat × List Nat) := []
  cores : List Nat := []
  /-- A fault has taken cores away since the last frame start (R228). -/
  reassign : Bool := false
  deriving DecidableEq, Repr, Inhabited

/-- The raw decoder (R229, R230): output frames written, the samples of the newest one, the record in work as its frame and whether it
was accepted, metadata records from the media reader by frame, and decoded frames that Prism has not begun to read as (frame, output
slot). -/
structure DrDecSt where
  outCount : Nat := 0
  last : Option (List (List Nat)) := none
  cur : Option (Nat × Bool) := none
  records : List (Nat × List Byte) := []
  ready : List (Nat × Nat) := []
  deriving DecidableEq, Repr, Inhabited

/-- The rate-control state of a stream: Q_I, Q_P, Q_B and V (R254). -/
structure IrisSt where
  qi : Nat := 0
  qp : Nat := 0
  qb : Nat := 0
  v : Int := 0
  deriving DecidableEq, Repr, Inhabited

/-- The picture a stream codes: frame, coding index, type (0 I, 1 P, 2 B), IRAP or not, NAL unit type, PicOrderCntVal, picture QP and
buffer (R242, R251, R255). -/
structure HencPic where
  frame : Nat := 0
  index : Nat := 0
  kind : Nat := 0
  irap : Bool := false
  type : Nat := 1
  poc : Int := 0
  qp : Nat := 0
  buf : Nat := 0
  deriving DecidableEq, Repr, Inhabited

/-- A picture that a stream holds as a reference: frame, PicOrderCntVal and reconstructed samples (R242). -/
structure RefPic where
  frame : Nat := 0
  poc : Int := 0
  samples : List Nat := []
  deriving DecidableEq, Repr, Inhabited

/-- An HEVC stream (R234 to R259): the frame its intra period counts from, the frame its current mini-GOP follows (none before the first
picture of the run), the frames of that mini-GOP already coded, the next coding index, the picture in work, the last IDR and the last IRAP
picture, the pictures held as references, the newest first, the initial and the two newest rate-control states, the buffers that the
Recorder has not released as (buffer, frame, complete), the frame whose wait has been counted, adopted spares, and a core fault since the
last frame start. -/
structure HencSt where
  origin : Nat := 0
  base : Option Nat := none
  coded : List Nat := []
  index : Nat := 0
  cur : Option HencPic := none
  lastIdr : Nat := 0
  lastIrap : Nat := 0
  refs : List RefPic := []
  init : Option IrisSt := none
  hist : List IrisSt := []
  bufs : List (Nat × Nat × Bool) := []
  stalled : Option Nat := none
  adopted : List Nat := []
  faulted : Bool := false
  deriving DecidableEq, Repr, Inhabited

/-- A decoded picture: its frame, its place in decoding order, whether it is an IRAP picture, its PicOrderCntVal, the coded size, the
conformance window as first column and line, width and height, depth, chroma format (1 4:2:2, 2 4:2:0), the codes of its transfer and matrix
in the VUI, the flags CONCEALED and CRC_ERR, whether it is held as a reference and awaits output, the pictures decoded since, and the
samples of its planes in raster order (R261, R263). -/
structure DecPic where
  frame : Nat := 0
  index : Nat := 0
  irap : Bool := false
  poc : Int := 0
  cw : Nat := 0
  ch : Nat := 0
  x : Nat := 0
  y : Nat := 0
  w : Nat := 0
  h : Nat := 0
  depth : Nat := 8
  chroma : Nat := 2
  transfer : Nat := 2
  matrix : Nat := 2
  flags : Nat := 0
  ref : Bool := false
  wait : Bool := false
  age : Nat := 0
  planes : List (List Nat) := []
  deriving DecidableEq, Repr, Inhabited

/-- An HEVC decoder (R261 to R263): pictures output, the picture in each output buffer, the parameter sets received, the decoded picture
buffer, pictures decoded, whether access units are discarded up to the next accepted IRAP, access units discarded, the place in decoding
order of the last generated reference that output pictures still carry, the PicOrderCntVal that the next one follows, whether RASL pictures
are skipped, whether an error has broken the decoding since the last IRAP, and the previous picture in decoding order. -/
structure HdecSt where
  outCount : Nat := 0
  slots : Tbl DecPic := []
  sps : Tbl (List Byte) := []
  pps : Tbl (List Byte) := []
  dpb : List DecPic := []
  count : Nat := 0
  skipping : Bool := false
  lost : Nat := 0
  refGen : Option Nat := none
  prevPoc : Int := 0
  noRasl : Bool := true
  broken : Bool := false
  prev : Option DecPic := none
  deriving DecidableEq, Repr, Inhabited

/-- A Write that a drive has not completed: its number, the drive byte and the volume address it begins at, its bytes, the frames
whose groups it carries, and whether it goes out with Force Unit Access; without bytes it is a Flush (R318, R319, R330, R335). -/
structure NvmeWrite where
  id : Nat := 0
  addr : Nat := 0
  vol : Nat := 0
  data : List Byte := []
  frames : List Nat := []
  fua : Bool := false
  deriving DecidableEq, Repr, Inhabited

/-- The drive at a media port: its contents, what the places of Writes held that a Flush has not made durable, each with the command
number then next, its largest transfer, the writes outstanding, the next command number, whether its controller has been reset after a
timeout, and the commands issued again since (R318 to R320, R330). -/
structure DriveSt where
  mem : Bytes := []
  cache : List NvmeWrite := []
  maxTransfer : Nat := 0
  writes : List NvmeWrite := []
  nextId : Nat := 0
  retried : Bool := false
  again : List Nat := []
  deriving DecidableEq, Repr, Inhabited

/-- An entry of the volume directory: state code, first volume address and size (R322). -/
structure DirEntry where
  state : Nat := 0
  start : Nat := 0
  size : Nat := 0
  deriving DecidableEq, Repr, Inhabited

/-- The mounted volume: number of drives, MEMBER of each port, sequence number and id of the directory, and its entries by NSID
(R321, R322). -/
structure Volume where
  drives : Nat := 0
  members : List Nat := []
  seq : Nat := 0
  id : List Byte := []
  vsize : Nat := 0
  entries : Tbl DirEntry := []
  deriving DecidableEq, Repr, Inhabited

/-- An entry of an index segment (R332). -/
structure IndexEntry where
  frame : Nat := 0
  offset : Nat := 0
  length : Nat := 0
  kind : Nat := 0
  flags : Nat := 0
  deriving DecidableEq, Repr, Inhabited

/-- Where a flush point stands (R330). -/
inductive FlushPhase where
  | idle | writing | flushing | banking
  deriving DecidableEq, Repr, Inhabited

/-- A frame that the Recorder dropped: frame, NSID, cause and queued MiB (R336). -/
structure DropEntry where
  frame : Nat := 0
  nsid : Nat := 0
  cause : Nat := 0
  mib : Nat := 0
  deriving DecidableEq, Repr, Inhabited

/-- The Recorder's open reel (R324 to R339). -/
structure ReelSt where
  isOpen : Bool := false
  nsid : Nat := 0
  start : Nat := 0
  size : Nat := 0
  id : List Byte := []
  header : List Byte := []
  /-- Where the next record goes; the bytes before it that do not fill a logical block yet, and the frames whose groups they carry (R330). -/
  tail : Nat := 0
  part : List Byte := []
  partOf : List Nat := []
  /-- Index entries since the last segment, the offset of that segment and the payloads of all segments. -/
  index : List IndexEntry := []
  lastIndex : Nat := 0
  segments : List Byte := []
  groups : Nat := 0
  first : Option Nat := none
  last : Nat := 0
  drops : Nat := 0
  /-- Recorded frames whose group has not been written or given up, ascending. -/
  todo : List Nat := []
  /-- Frames of `todo` that are held pre-roll frames, and those that have been dropped, with the cause and whether a drop record is
  due. -/
  preroll : List Nat := []
  dropped : List (Nat × Nat × Bool) := []
  /-- Frames of `todo` whose group is complete and has not begun to be written, in the order in which they completed, with the bytes of the
  group and the time (R329, R333). -/
  waiting : List (Nat × Nat × Time) := []
  /-- Metadata records of frames of `todo` (R136). -/
  metas : List (Nat × List Byte) := []
  /-- Items whose buffers are gone before the group was written: frame, KIND, INDEX, LENGTH and digest (R273). -/
  hashes : List (Nat × Nat × Nat × Nat × List Byte) := []
  /-- The digest hashes of frames in the reel, and those whose chain values stand in no chain record yet (R338). -/
  chain : List (Nat × List Byte) := []
  chained : List Nat := []
  /-- APPEND METADATA commands that wait for their record to be durable: command, offset and end of the record (R330). -/
  appends : List (Nat × Nat × Nat) := []
  /-- Groups that are not durable yet, as their end and the time they completed (R333). -/
  times : List (Nat × Time) := []
  flush : FlushPhase := .idle
  /-- END of the newest flush point, and the offset of the manifest. -/
  endOff : Nat := 0
  manifest : Nat := 0
  /-- GROUPS, FIRST_FRAME, LAST_FRAME and DROPS as END was set, which the index bank of the flush point names (R331). -/
  endGroups : Nat := 0
  endFirst : Nat := 0
  endLast : Nat := 0
  endDrops : Nat := 0
  /-- Sequence number of the newest index bank. -/
  bankSeq : Nat := 0
  failed : Bool := false
  full : Bool := false
  closing : Bool := false
  /-- The closing flush point has begun, and its bank is on the media. -/
  lastFlush : Bool := false
  closed : Bool := false
  deriving DecidableEq, Repr, Inhabited

/-- The review of a reel: the volume address of the reel, and its groups still to be fed to the raw decoder in frame order and to the HEVC
decoder in coding order; and the offsets of the groups that could not be read (R340). -/
structure ReviewSt where
  active : Bool := false
  start : Nat := 0
  raws : List IndexEntry := []
  hevcs : List IndexEntry := []
  skipped : List Nat := []
  deriving DecidableEq, Repr, Inhabited

/-- Media and the Recorder (R318 to R343). -/
structure RecSt where
  drives : Tbl DriveSt := []
  vol : Option Volume := none
  reel : ReelSt := {}
  review : ReviewSt := {}
  drops : List DropEntry := []
  dropTotal : Nat := 0
  deriving DecidableEq, Repr, Inhabited

/-- A sample frame in the ring of a capture port: its sync time, the place of its first word in bytes since ENABLE, and its channels
(R411). -/
structure AudFrame where
  time : Time := {}
  pos : Nat := 0
  ch : Nat := 0
  deriving DecidableEq, Repr, Inhabited

/-- A serial audio port (R404 to R416): DEV_PTR at ENABLE, bytes moved and frames counted since then, the next slot of the frame, the
block in work (its first position, time and frames, a word lost, FRAME_ERR, its mask), blocks ended, the sample frames in the ring,
newest first, and a stop that waits for the end of the frame. -/
structure AudSt where
  base : Nat := 0
  pos : Nat := 0
  frame : Nat := 0
  slot : Nat := 0
  startTime : Time := {}
  blockPos : Nat := 0
  blockTime : Time := {}
  blockFrames : Nat := 0
  lost : Bool := false
  err : Bool := false
  mask : Nat := 0
  blocks : Nat := 0
  frames : List AudFrame := []
  stopping : Bool := false
  deriving DecidableEq, Repr, Inhabited

/-- A STAGE namespace: its NSID, first unit, units and the bytes written so far (R309). -/
structure StageNs where
  nsid : Nat := 0
  unit : Nat := 0
  units : Nat := 0
  size : Nat := 0
  used : Nat := 0
  deriving DecidableEq, Repr, Inhabited

/-- The Collimator's servo and protocol engine (R379 to R389, R507): F in units of 2^−47 ÷ 1,680,000 ppb, the newest Announce of each
source, the selected source, delay measurements (twice their value), the newest Sync's t2 − t1 − c, the transmit time of the last Delay_Req,
the newest 8 samples accepted and received, the sum and number of the samples whose mean stood before a step, and the consecutive samples
below DET and within ALIGN_TOL. Times are in units of 2^−32 ps ÷ 1,680. DEDUCED (log 71). -/
structure CollSt where
  f : Int := 0
  masters : List PtpAnnounceMsg := []
  sel : Option (Nat × Nat) := none
  delays : List Int := []
  sync : Option Int := none
  t3 : Option Int := none
  accepted : List Int := []
  received : List Int := []
  stepSum : Int := 0
  stepNum : Nat := 0
  small : Nat := 0
  within : Nat := 0
  deriving DecidableEq, Repr, Inhabited

/-- A trigger pin: the next point of the schedule, its last rising edge in ticks of 2^−32 ns, and the end of a pulse that is
high (R393 to R396). -/
structure TrigPin where
  next : Nat := 0
  last : Option Nat := none
  high : Option Nat := none
  deriving DecidableEq, Repr, Inhabited

/-- The trigger schedule (R391, R392): START or the epoch in ticks, and the grid index of FIRST; and the two pins. -/
structure TrigSt where
  base : Nat := 0
  k : Nat := 0
  a : TrigPin := {}
  b : TrigPin := {}
  deriving DecidableEq, Repr, Inhabited

/-- A job of the Condenser (R420 to R428): the queue command it serves with its function (none for the register job), decompression, streaming,
level, the source bytes taken so far and those of the newest piece, whether the last piece is among them, the bytes of output written to
earlier destinations, the destination (a host address for a queue command), its capacity, the output that ends it with 0x21, a DEC_MAX
that bounds it, and the number of the command fetched last when it was accepted. -/
structure CondJob where
  cmd : Option Nat := none
  fn : Fn := .pf0
  inflate : Bool := false
  stream : Bool := false
  level : Nat := 1
  input : List Byte := []
  piece : Nat := 0
  whole : Bool := true
  written : Nat := 0
  dst : Nat := 0
  cap : Nat := 0
  limit : Nat := 0
  most : Option Nat := none
  order : Nat := 0
  deriving DecidableEq, Repr, Inhabited

/-- The Condenser: the accepted jobs, the first of which runs, and a suspended register job (R420, R428). -/
structure CondSt where
  queue : List CondJob := []
  parked : Option CondJob := none
  deriving DecidableEq, Repr, Inhabited

/-- A Relay descriptor (R431). -/
structure RelayDesc where
  src : Nat := 0
  dst : Nat := 0
  next : Nat := 0
  len : Nat := 0
  ctrl : Nat := 0
  deriving DecidableEq, Repr, Inhabited

/-- Relay: the descriptor each channel moves, and the bytes of control-cluster memory (R430, R431). -/
structure RelaySt where
  descs : Tbl (Option RelayDesc) := []
  cluster : Bytes := []
  deriving DecidableEq, Repr, Inhabited

/-- The memory controller (R438 to R449): the frequency change that waits or runs and whether it has started, a held target, the channel
that gathers, the next channel of the sweep, the cooler band (plus one) that a channel's last poll
reported, bands that wait for the end of a
frequency change, and the channels whose UE_ADDR holds an address that has not been read. -/
structure DramSt where
  change : Option Nat := none
  started : Bool := false
  held : Option Nat := none
  gather : Option Nat := none
  next : Nat := 0
  cool : Tbl Nat := []
  bands : List (Nat × Nat) := []
  ueHeld : List Nat := []
  deriving DecidableEq, Repr, Inhabited

/-- A firmware image that a control side or a flash slot holds (R456 to R461). -/
structure FwImage where
  build : Nat := 0
  svn : Nat := 0
  hash : List Byte := []
  deriving DecidableEq, Repr, Inhabited

/-- The control sides and boot flash (R456 to R465): the images of sides A and B and of the two slots, a handover that waits for a frame
start and one in progress (with its command), a failover that waits for a frame start, attestation reports since power-up, and checkpoints
written by the active side and read by the idle side. DESIGN CHOICE (log 16). -/
structure FwSt where
  a : Option FwImage := none
  b : Option FwImage := none
  flash0 : Option FwImage := some ⟨1, 0, zeros 48⟩
  flash1 : Option FwImage := none
  waiting : Option Nat := none
  running : Option Nat := none
  failover : Bool := false
  reports : Nat := 0
  written : Nat := 0
  read : Nat := 0
  deriving DecidableEq, Repr, Inhabited

/-- Field Stop and power state that no register holds: the delay of a supply sequence runs on port A or B, power-down requests held while work
drains, as page and request, domains that are powering up, by page, the limiter with the measurements below 98 % so far (R468, R483, R485). -/
structure PwrSt where
  seqA : Bool := false
  seqB : Bool := false
  held : List (Nat × Nat) := []
  rising : List Nat := []
  limiting : Bool := false
  under : Nat := 0
  deriving DecidableEq, Repr, Inhabited

/-- The thermal controller (R487, R488): by sensor, consecutive samples beyond DIFF and, while it is faulty, within it; Tj of the last
second, newest first; whether RATE is above its limit, whether a device is above 105 °C, and the milliseconds at LEVEL 1 or above. -/
structure ThermSt where
  bad : Tbl Nat := []
  good : Tbl Nat := []
  hist : List Int := []
  rising : Bool := false
  hot : Bool := false
  above : Nat := 0
  deriving DecidableEq, Repr, Inhabited

/-- The array manager (R497): the lease in force in ms, 0 for none, and LEASE_LOW has been raised for it. -/
structure ArraySt where
  lease : Nat := 0
  low : Bool := false
  deriving DecidableEq, Repr, Inhabited

/-- A scan-out engine (R344 to R362): the shadowed values read at its sample point, its source (0 to 7 a rendition, 8 and 9 a decoder) with the
frame or buffer shown, whether the sample point of the frame in work has passed, the next line, the pixels sent last in each field, an underrun
already raised, the frames still to be sent black of a relock, the newest lines kept for ST 2110 flows by their number since ENABLE, newest
first, line CRCs that Mirror has not compared as (link, line, CRC), oldest first, the times up to which audio has been embedded and of the
sample point, and a realignment due after a step of the time. -/
structure LoupeSt where
  vals : List (Nat × Word) := []
  source : Option (Nat × Nat) := none
  begun : Bool := false
  line : Nat := 0
  prev0 : List (Nat × Nat × Nat) := []
  prev1 : List (Nat × Nat × Nat) := []
  under : Bool := false
  black : Nat := 0
  rows : List (Nat × List (Nat × Nat × Nat)) := []
  crcs : List (Nat × Nat × Nat) := []
  audio : Time := {}
  sampled : Time := {}
  realign : Bool := false
  deriving DecidableEq, Repr, Inhabited

/-- Mirror's check of one link (R368, R369): lines without timing references in a row, and the CRCs of the frame in progress as
recaptured and as Loupe computed them, newest first, and whether they begin with the frame's first line. -/
structure MirrorSt where
  missing : Nat := 0
  whole : Bool := false
  got : List Nat := []
  want : List Nat := []
  deriving DecidableEq, Repr, Inhabited

/-- An ST 2110 flow (R364 to R366): the alignment index of its newest frame plus one, or that of the next audio packet; the rendition
frame it sends; the line sent next, for an engine counted since its ENABLE, and its packet; the RTP sequence number; and the RTP
timestamp of the frame. -/
structure FlowSt where
  index : Nat := 0
  frame : Option Nat := none
  line : Nat := 0
  packet : Nat := 0
  seq : Nat := 0
  stamp : Nat := 0
  deriving DecidableEq, Repr, Inhabited

/-- What the device sends out at its interfaces. DESIGN CHOICE (log 90). -/
inductive Out where
  /-- The reply to a register read. -/
  | regRead (r : Req) (off : Nat) (v : Word)
  /-- A read that is a bus error: Completer Abort, or a data abort for firmware (R44). -/
  | readAbort (r : Req) (off : Nat)
  /-- A write of the firmware that is a bus error: a data abort in the issuing control core (R44). -/
  | writeAbort (off : Nat)
  /-- An MSI-X message (R52), with the address and data of its table entry. -/
  | msix (fn : Fn) (vec addr data : Nat)
  /-- A write to host memory (R298). -/
  | hostWrite (fn : Fn) (addr : Nat) (data : List Byte)
  /-- A back-channel message of a port, with the payloads of its blocks: CMD, the data blocks and CEND (R91, R115). -/
  | bc (port op seq arg : Nat) (data : List (Nat × Nat)) (blocks : List Nat)
  /-- A heartbeat of a port: sequence number, timeout, frame number and the payload of its block (R91, R118). -/
  | hb (port seq timeout frame block : Nat)
  /-- A port begins to send TRAIN blocks on its back-channel (R97). -/
  | train (port : Nat)
  /-- The transmit drive of a lane changes: the pre, post and main cursor in steps of 1/24 of the peak drive and the swing in mVppd
  (R105, R124). -/
  | drive (lane pre post main swing : Nat)
  /-- One bit of the next generated block of a lane is inverted (R122). -/
  | inject (lane : Nat)
  /-- An edge of TRIGA (0) or TRIGB (1) at a time in ticks of 2^−32 ns (R393, R394). -/
  | trigger (pin : Nat) (high : Bool) (time : Nat)
  /-- A pulse of SYNC_OUT with its width in µs (R401). -/
  | syncOut (time width : Nat)
  /-- A Delay_Req on an Ethernet port, to a unicast IPv4 and MAC address or to the multicast address (R379). -/
  | delayReq (port : Nat) (unicast : Option (Nat × Nat))
  /-- A TDM frame begins on a port that drives its clocks: the bit clocks for which frame sync is active and its active level, the edge on
  which data changes, and the frequency of the master clock, 0 when it is not driven (R405, R406). -/
  | tdmSync (port clocks level edge mclk : Nat)
  /-- A slot driven by a playback port: the bit clock of the frame at which it begins, and its bits in the order sent (R405, R413). -/
  | tdm (port start : Nat) (bits : List Bool)
  /-- An audio port holds its bit clock, frame sync and data low (R408). -/
  | tdmStop (port : Nat)
  /-- The sensor supply enables of a port as driven (R468). -/
  | supply (port enables : Nat)
  /-- A line of an SDI link: its number, luma and chroma words, ancillary packets and embedded audio samples (R359 to R362). -/
  | sdi (link line : Nat) (y c : List Nat) (anc : List (List Nat)) (audio : List (List Int))
  /-- An RTP packet of an ST 2110 flow (R364 to R366, R374): sequence number, timestamp, marker, line, offset and payload, and its addresses:
  destination and source MAC, VLAN tag plus one or 0 without a tag, source and destination IPv4, DSCP, TTL, UDP source and destination
  port, RTP payload type and SSRC. -/
  | rtp (flow seq stamp : Nat) (marker : Bool) (line off : Nat) (payload : List Byte) (addrs : List Nat)
  deriving DecidableEq, Repr

/-- The state of the device. DESIGN CHOICE (log 5). -/
structure State where
  /-- Commands that wait, first in, first out. -/
  pending : List Instr := []
  /-- What has been sent out, newest first. -/
  out : List Out := []
  /-- The model's own counter that numbers free values. DESIGN CHOICE (log 93). -/
  seed : Nat := 0
  /-- Register words by BAR0 offset; an unlisted register holds its factory value (R11, R34, R35). -/
  regs : List (Nat × Word) := []
  ctl : Ctl := {}
  rsm : Rsm := {}
  hq : Hq := {}
  portA : PortSt := {}
  portB : PortSt := {}
  ingress : IngressSt := {}
  fstore : FilterSt := {}
  split : SplitSt := {}
  draw : DrawSt := {}
  drdec : DrDecSt := {}
  henc : Tbl HencSt := []
  hdec : Tbl HdecSt := []
  media : RecSt := {}
  stages : List StageNs := []
  aud : Tbl AudSt := []
  coll : CollSt := {}
  trig : TrigSt := {}
  cond : CondSt := {}
  relay : RelaySt := {}
  dramc : DramSt := {}
  fw : FwSt := {}
  pwr : PwrSt := {}
  therm : ThermSt := {}
  array : ArraySt := {}
  loupe : Tbl LoupeSt := []
  mirror : Tbl MirrorSt := []
  flows : Tbl FlowSt := []
  /-- The bytes of the LPDDR5X memory; an unlisted byte reads 0. -/
  dram : Bytes := []
  /-- The Collimator time (R375). -/
  time : Time := {}
  /-- The programmed exposure starts of the take's frames (R391). -/
  exposures : List (Nat × Time) := []
  deriving DecidableEq, Repr

/-- Why the device stops. DESIGN CHOICE (log 4). -/
inductive Fault where
  /-- Raised by nothing in this model: every event that the spec describes leaves a next state. Safe. -/
  | impossible
  deriving DecidableEq, Repr

/-- Why a command has no meaning in this model. DESIGN CHOICE (log 4). -/
inductive Refusal where
  /-- Answered by the arms of commands that have no meaning yet. Safe: nothing is claimed of them. -/
  | notModelled (mnemonic : String)
  deriving DecidableEq, Repr

/-- The device in reset: nothing queued, every register at its factory value, POR_N low. DESIGN CHOICE (log 5). -/
def State.reset : State := {}

end Sys2Proof.Machine
end

