-- ==== Sys2Proof/Machine/Ops.lean ====
section
/-! DEFINITION. The operations on the register file that every command shares: which registers a page has, what an
unlisted register holds, and reading and writing words and fields (R11, R34 to R36, R45). -/

namespace Sys2Proof.Machine

/-! ### Pages (R34) -/

namespace Pg
abbrev global : Nat := 0x000
abbrev rstore : Nat := 0x001
abbrev guard : Nat := 0x002
abbrev pwr : Nat := 0x004
abbrev therm : Nat := 0x005
abbrev lane (k : Nat) : Nat := 0x010 + k
abbrev link (k : Nat) : Nat := 0x040 + k
abbrev ingress : Nat := 0x048
abbrev prismFe : Nat := 0x050
abbrev prismBe (k : Nat) : Nat := 0x058 + k
abbrev fstore : Nat := 0x060
abbrev split : Nat := 0x061
abbrev draw (k : Nat) : Nat := 0x068 + k
abbrev drawctl : Nat := 0x078
abbrev henc (k : Nat) : Nat := 0x080 + k
abbrev iris : Nat := 0x088
abbrev hdec (k : Nat) : Nat := 0x08C + k
abbrev drdec : Nat := 0x08E
abbrev hostq : Nat := 0x090
abbrev nspace : Nat := 0x094
abbrev media (k : Nat) : Nat := 0x098 + k
abbrev recorder : Nat := 0x09C
abbrev loupe (k : Nat) : Nat := 0x0A0 + k
abbrev mirror : Nat := 0x0A4
abbrev sdi (k : Nat) : Nat := 0x0A8 + k
abbrev eth (k : Nat) : Nat := 0x0AC + k
abbrev pkt2110 : Nat := 0x0AE
abbrev coll : Nat := 0x0B0
abbrev trig : Nat := 0x0B1
abbrev aud (k : Nat) : Nat := 0x0B4 + k
abbrev cond : Nat := 0x0C0
abbrev relay : Nat := 0x0C4
abbrev dram (k : Nat) : Nat := 0x0D0 + k
abbrev dramctl : Nat := 0x0D8
abbrev cluster : Nat := 0x0E0
abbrev security : Nat := 0x0E4
abbrev array : Nat := 0x0F0
end Pg

/-- The page map: first page, number of pages and block (R34). -/
def pageMap : List (Nat × Nat × Blk) := [
  (0x000, 1, .global), (0x001, 1, .rstore), (0x002, 1, .guard), (0x004, 1, .pwr), (0x005, 1, .therm),
  (0x010, 48, .lane), (0x040, 2, .link), (0x048, 1, .ingress), (0x050, 1, .prismFe), (0x058, 8, .prismBe),
  (0x060, 1, .fstore), (0x061, 1, .split), (0x068, 16, .draw), (0x078, 1, .drawctl), (0x080, 8, .henc),
  (0x088, 1, .iris), (0x08C, 2, .hdec), (0x08E, 1, .drdec)] ++ [
  (0x090, 1, .hostq), (0x094, 1, .nspace), (0x098, 2, .media), (0x09C, 1, .recorder), (0x0A0, 4, .loupe),
  (0x0A4, 1, .mirror), (0x0A8, 4, .sdi), (0x0AC, 2, .eth), (0x0AE, 1, .pkt2110), (0x0B0, 1, .coll),
  (0x0B1, 1, .trig), (0x0B4, 4, .aud), (0x0C0, 1, .cond), (0x0C4, 1, .relay), (0x0D0, 8, .dram),
  (0x0D8, 1, .dramctl), (0x0E0, 1, .cluster), (0x0E4, 1, .security), (0x0F0, 1, .array)]

/-- The block and instance number of a page; none for a reserved page (R34). -/
def pageBlk (p : Nat) : Option (Blk × Nat) :=
  (pageMap.find? fun e => decide (e.1 ≤ p) && decide (p < e.1 + e.2.1)).map fun e => (e.2.2, p - e.1)

/-- The block type code in ID[31:16] (R34). -/
def blkType : Blk → Nat
  | .global => 0x01 | .rstore => 0x02 | .guard => 0x03 | .pwr => 0x04 | .therm => 0x05 | .lane => 0x10 | .link => 0x11
  | .ingress => 0x18 | .prismFe => 0x20 | .prismBe => 0x21 | .fstore => 0x22 | .split => 0x23 | .draw => 0x28
  | .drawctl => 0x29 | .henc => 0x30 | .iris => 0x31 | .hdec => 0x32 | .drdec => 0x33 | .hostq => 0x38
  | .nspace => 0x39 | .media => 0x3A | .recorder => 0x3B | .loupe => 0x40 | .mirror => 0x41 | .sdi => 0x42
  | .eth => 0x43 | .pkt2110 => 0x44 | .coll => 0x48 | .trig => 0x49 | .aud => 0x4C | .cond => 0x50 | .relay => 0x51
  | .dram => 0x58 | .dramctl => 0x59 | .cluster => 0x60 | .security => 0x61 | .array => 0x68

/-- Whether every field of the page but ID is privileged (R34). DEDUCED (log 13). -/
def prvPage : Blk → Bool
  | .rstore | .guard | .pwr | .lane | .dram | .dramctl | .cluster | .security | .array => true
  | _ => false

/-- Whether a lane's class has a register (R35, R124, R481). DEDUCED (log 96). -/
def laneHas (k o : Nat) : Bool :=
  if o ≤ 0x024 then true
  else if 46 ≤ k then false
  else if o = 0x040 ∨ o = 0x044 ∨ o = 0x048 ∨ o = 0x04C then decide (k ≤ 15)
  else if o = 0x050 ∨ o = 0x054 then decide (16 ≤ k ∧ k ≤ 21)
  else if o = 0x07C ∨ o = 0x080 then decide (k ≤ 15 ∨ 22 ≤ k)
  else true

/-- The fields of one register row as they are in one instance of a block: a GANG bit exists only in the first instance,
the factory values that differ by instance or register, and the fields that a rule makes privileged or stopped-only. -/
def fixField (b : Blk) (inst o : Nat) (f : FieldSpec) : FieldSpec :=
  let f := if prvPage b && decide (o ≠ 0) then { f with prv := true } else f
  match b with
  | .relay => if 0x080 ≤ o ∧ o < 0x100 then { f with prv := true } else f
  | .draw => if o = 0x008 then { f with so := true } else f
  | .prismFe => if 0x444 ≤ o ∧ o < 0x468 ∧ (o - 0x444) / 4 % 4 ≠ 0 then { f with fac := 0 } else f
  | .prismBe => if 0x404 ≤ o ∧ o < 0x428 ∧ (o - 0x404) / 4 % 4 ≠ 0 then { f with fac := 0 } else f
  | .loupe => if o = 0x404 ∧ f.lo = 0 then { f with fac := inst } else f
  | .lane => if o = 0x024 ∧ 46 ≤ inst then { f with fac := 0 } else f
  | _ => f

/-- Whether a field exists in an instance of its block: LINKB and HDEC1 have no GANG bit. -/
def hasField (b : Blk) (inst o : Nat) (f : FieldSpec) : Bool :=
  match b with
  | .link | .hdec => !(decide (inst = 1) && decide (o = 0x008) && decide (f.lo = 1))
  | _ => true

/-- Whether offset `o` is one of a row's registers. -/
def RegRow.covers (w : RegRow) (o : Nat) : Bool :=
  decide (w.off ≤ o) && decide (o < w.off + w.count * w.stride) && decide ((o - w.off) % w.stride = 0)

/-- The fields of the register at offset `o` of a block's page, shadow or block region; none where the block's chapter lists
no register (R35, R44). -/
def blkFields (b : Blk) (inst o : Nat) : Option (List FieldSpec) :=
  if b = .lane ∧ laneHas inst o = false then none
  else
    ((blkRows b).find? fun w => w.covers o).map fun w =>
      (w.fields.filter (hasField b inst o)).map (fixField b inst o)

/-- The fields of the register at offset `o` of page `p`. An active copy has the shadowed fields of its shadow register, and
they are read only (R35, R45). -/
def fieldsAt (p o : Nat) : Option (List FieldSpec) :=
  match pageBlk p with
  | none => none
  | some (b, inst) =>
    if 0x800 ≤ o ∧ o < 0xC00 then
      match blkFields b inst (o - 0x400) with
      | none => none
      | some fs =>
        let sh := fs.filter (fun f => f.sh)
        if sh.isEmpty then none else some (sh.map fun f => { f with kind := .ro, so := false, ret := false })
    else if 0xC00 ≤ o then none
    else blkFields b inst o

/-- The word with every field at its factory value. -/
def facWord (fs : List FieldSpec) : Word :=
  fs.foldl (fun w f => w ||| BitVec.ofNat 32 (f.fac % 2 ^ f.width * 2 ^ f.lo)) 0

/-- What the register at a key of the register file holds when it is unlisted: its factory value (R11), or zero where there is no register.
ID carries the block type and instance (R34, R35). A key's page number above 1,023 names the copy of a register that each further requester
has. DESIGN CHOICE (log 5, 16). -/
def factoryWord (a : Nat) : Word :=
  let p := a / 0x1000 % 1024
  let o := a % 0x1000
  if o = 0 then
    match pageBlk p with
    | none => 0
    | some (b, inst) => BitVec.ofNat 32 (blkType b * 0x10000 + inst % 256 * 0x100)
  else
    match fieldsAt p o with
    | none => 0
    | some fs => facWord fs

/-! ### Reading and writing registers -/

/-- The word at a key of the register file. DESIGN CHOICE (log 10). -/
def State.rd (s : State) (a : Nat) : Word := Sparse.read factoryWord s.regs a

/-- The state with the word at a key of the register file replaced. DESIGN CHOICE (log 10). -/
def State.wr (s : State) (a : Nat) (w : Word) : State := { s with regs := Sparse.write factoryWord s.regs a w }

/-- The key of a field's register on a page. -/
def keyOf (f : Fld) (p : Nat) : Nat := p * 0x1000 + f.off

/-- The value of a field on a page. -/
def State.fld (s : State) (p : Nat) (f : Fld) : Nat := Word.bits (s.rd (keyOf f p)) f.lo f.width

/-- The state with a field on a page set. -/
def State.setFld (s : State) (p : Nat) (f : Fld) (v : Nat) : State :=
  s.wr (keyOf f p) (Word.setBits (s.rd (keyOf f p)) f.lo f.width v)

/-- Whether a one-bit field on a page is 1. -/
def State.on (s : State) (p : Nat) (f : Fld) : Bool := decide (s.fld p f = 1)

/-- The state with a one-bit field set or cleared. -/
def State.setOn (s : State) (p : Nat) (f : Fld) (b : Bool) : State := s.setFld p f (if b then 1 else 0)

/-- The value held in a _LO field and the _HI field above it (R47). -/
def State.fld64 (s : State) (p : Nat) (lo hi : Fld) : Nat := s.fld p lo + 2 ^ 32 * s.fld p hi

/-- A live 64-bit register pair set (R48). -/
def State.setFld64 (s : State) (p : Nat) (lo hi : Fld) (v : Nat) : State := (s.setFld p lo v).setFld p hi (v / 2 ^ 32)

/-- The key offset of a field's active copy: its shadow's offset + 0x400 (R35). -/
def actOf (f : Fld) : Fld := { f with off := f.off + 0x400 }

/-- The value of a shadowed field's active copy. -/
def State.actv (s : State) (p : Nat) (f : Fld) : Nat := s.fld p (actOf f)

/-- A count that stops at its field's largest value, raised by `n`. -/
def State.countBy (s : State) (p : Nat) (f : Fld) (n : Nat) : State :=
  s.setFld p f (min (s.fld p f + n) (2 ^ f.width - 1))

/-- A count that stops at its field's largest value, raised by one. -/
def State.count (s : State) (p : Nat) (f : Fld) : State := s.countBy p f 1

/-- The state with one more output recorded. DESIGN CHOICE (log 90). -/
def State.emit (s : State) (o : Out) : State := { s with out := o :: s.out }

/-! ### Signed fields -/

/-- The two's complement value of a field of a width. -/
def signed (width v : Nat) : Int := if 2 * (v % 2 ^ width) < 2 ^ width then ↑(v % 2 ^ width) else ↑(v % 2 ^ width) - 2 ^ width

/-- The field value of a signed number in two's complement. -/
def unsigned (width : Nat) (v : Int) : Nat := (v % (2 ^ width : Int)).toNat

end Sys2Proof.Machine
end

