-- ==== Sys2Proof/Machine/Flags.lean ====
section
/-! DEFINITION. Events, the summary, routing and the MSI-X pending latches (R49 to R52), and the bus error record (R44,
R54). -/

namespace Sys2Proof.Machine

/-- The summary bit of a page: (EVENT & EVENT_EN) is not zero (R49). -/
def State.eventOn (s : State) (p : Nat) : Bool :=
  decide (s.rd (p * 0x1000 + 0x010) &&& s.rd (p * 0x1000 + 0x014) ≠ 0)

/-- The routing entry of a page (R50). -/
def State.route (s : State) (p : Nat) : Nat := Word.bits (s.rd (0x100 + 4 * (p / 4))) (8 * (p % 4)) 8

/-- The OR of the summary bits routed by entries equal to `r` (R52). -/
def State.vecOr (s : State) (r : Nat) : Bool :=
  (List.range 256).any fun p => decide (s.route p = r) && s.eventOn p

/-- A number put into an ascending list without repeats. -/
def insertNat (k : Nat) : List Nat → List Nat
  | [] => [k]
  | h :: t => if k < h then k :: h :: t else if k = h then h :: t else h :: insertNat k t

/-- The pending latch of a vector set; `k` is function × 64 + vector (R52). -/
def State.latch (s : State) (k : Nat) : State :=
  { s with ctl := { s.ctl with latches := insertNat k s.ctl.latches } }

/-- The pending latch of the vector to which page `p` is routed is set when its OR rises from `s0` to `s1` (R52). -/
def noteRise (s0 s1 : State) (p : Nat) : State :=
  let r := s1.route p
  if r < 128 then s1
  else if s0.vecOr r then s1
  else if s1.vecOr r then s1.latch (r - 128)
  else s1

/-- The latches after a change that may raise several summary bits or change routes (R52). -/
def noteRiseAll (s0 s1 : State) : State :=
  (List.range 256).foldl
    (fun s p =>
      let r := s1.route p
      if r < 128 then s else if s0.vecOr r then s else if s1.vecOr r then s.latch (r - 128) else s) s1

/-- A bit of a page's EVENT set by hardware (R35, R49, R52). -/
def State.raise (s : State) (p : Nat) (e : Fld) : State := noteRise s (s.setFld p e 1) p

/-- An event raised when a condition holds. -/
def State.raiseIf (s : State) (c : Bool) (p : Nat) (e : Fld) : State := if c then s.raise p e else s

/-- STATE_REJECT of a page (R35). -/
def State.reject (s : State) (p : Nat) : State := s.raise p Reg.COMMON_EVENT_STATE_REJECT

/-- The code of a requester in BUSERR_INFO.SOURCE (R53). -/
def reqCode : Req → Nat
  | .pf0 => 0 | .pf1 => 1 | .fw => 2

/-- The configuration state of a function (R277). -/
def State.pciFn (s : State) : Fn → PciFn
  | .pf0 => s.hq.pci0
  | .pf1 => s.hq.pci1

/-- The state with the configuration state of a function replaced. -/
def State.setPciFn (s : State) (fn : Fn) (c : PciFn) : State :=
  match fn with
  | .pf0 => { s with hq := { s.hq with pci0 := c } }
  | .pf1 => { s with hq := { s.hq with pci1 := c } }

/-- Completer Abort noted in a function's error status (R44, R277). PRESUMED (log 15). -/
def State.noteCa (s : State) (fn : Fn) : State :=
  s.setPciFn fn { s.pciFn fn with uncStatus := (s.pciFn fn).uncStatus ||| 0x8000 }

/-- What the requester of an access that is a bus error sees: Completer Abort for a host read and a data abort for the firmware (R44). A
host write is discarded in silence, and Relay takes the errors of its own accesses itself (R435). -/
def State.abort (s : State) (r : Req) (off : Nat) (write : Bool) : State :=
  if write = false then
    (match r with
      | .fw => s
      | .pf0 => s.noteCa .pf0
      | .pf1 => s.noteCa .pf1).emit (.readAbort r off)
  else if r = .fw ∧ s.ctl.relayBeat = false then s.emit (.writeAbort off)
  else s

/-- A bus error: the first one since BUSERR_INFO was read gives the address, the source and the direction, every one counts, and the
requester sees its abort (R44, R53, R54). -/
def State.busError (s : State) (r : Req) (off : Nat) (write : Bool) : State :=
  let s1 : State :=
    if s.ctl.busErrHeld then s
    else
      ({ s with ctl := { s.ctl with busErrHeld := true } }.setFld Pg.global Reg.GLOBAL_BUSERR_ADDR off).setFld
        Pg.global Reg.GLOBAL_BUSERR_INFO_SOURCE (reqCode r) |>.setOn Pg.global Reg.GLOBAL_BUSERR_INFO_WRITE write
  ((s1.count Pg.global Reg.GLOBAL_BUSERR_INFO_COUNT).raise Pg.global Reg.GLOBAL_EVENT_BUS_ERROR).abort r off write

end Sys2Proof.Machine
end

