-- ==== Sys2Proof/Machine/Operands.lean ====
section
/-! DEFINITION. The operand forms of a register access: byte enables, the bits a write changes by the access codes of the
fields, and whether a write touches a field (R12, R33, R41, R42). -/

namespace Sys2Proof.Machine

/-- The bits of the bytes that the byte enables name (R33). -/
def byteMask (be : Nat) : Word :=
  (if be.testBit 0 then 0x000000FF else 0) ||| (if be.testBit 1 then 0x0000FF00 else 0) |||
    (if be.testBit 2 then 0x00FF0000 else 0) ||| (if be.testBit 3 then 0xFF000000 else 0)

/-- The bits of a field. -/
def FieldSpec.mask (f : FieldSpec) : Word := Word.mask f.lo f.width

/-- The bits of the fields of a register that satisfy a test. -/
def maskOf (fs : List FieldSpec) (t : FieldSpec → Bool) : Word :=
  fs.foldl (fun m f => if t f then m ||| f.mask else m) 0

/-- The bits of a field that a write of `v` changes: all of an RW or W1 field, the selected bits of a WM field, none of an
RO or RC field (R41). -/
def FieldSpec.writeMask (f : FieldSpec) (v : Word) : Word :=
  match f.kind with
  | .rw | .w1 => f.mask
  | .wm => f.mask &&& (v >>> 16)
  | .ro | .rc => 0

/-- Whether a write of `v` from PF1 is a write to a privileged field: to a WM field only when the mask selects a bit of it (R41). -/
def FieldSpec.denies (f : FieldSpec) (v : Word) : Bool :=
  f.prv && match f.kind with
    | .wm => decide (f.mask &&& (v >>> 16) ≠ 0)
    | _ => true

/-- The bits of a register that a write of `v` changes (R41). -/
def writeMask (fs : List FieldSpec) (v : Word) : Word := fs.foldl (fun m f => m ||| f.writeMask v) 0

/-- The word a register holds after a write of `v` by the access codes of its fields; unused bits stay (R41, R45). -/
def applyWrite (fs : List FieldSpec) (old v : Word) : Word :=
  (old &&& ~~~ writeMask fs v) ||| (v &&& writeMask fs v)

/-- Whether a write of `v` touches a stopped-only field: an RW field when it would change it, a WM field when the mask selects a bit of it
(R41). DEDUCED (log 11). -/
def FieldSpec.touchSo (f : FieldSpec) (old v : Word) : Bool :=
  f.so && match f.kind with
    | .wm => decide (f.mask &&& (v >>> 16) ≠ 0)
    | .rw | .w1 => decide (old &&& f.mask ≠ v &&& f.mask)
    | .ro | .rc => false

/-- The bits that a read clears: those of RC fields, in enabled bytes (R33, R41). -/
def clearMask (fs : List FieldSpec) (be : Nat) : Word :=
  maskOf fs (fun f => decide (f.kind = .rc)) &&& byteMask be

/-- The function of a requester; firmware has none. -/
def reqFn? : Req → Option Fn
  | .pf0 => some .pf0 | .pf1 => some .pf1 | .fw => none

/-- The number of a function. -/
def fnNum : Fn → Nat
  | .pf0 => 0 | .pf1 => 1

/-- The requester that acts for a function. -/
def fnReq : Fn → Req
  | .pf0 => .pf0 | .pf1 => .pf1

/-- The function of a number. -/
def fnOf (n : Nat) : Fn := if n = 0 then .pf0 else .pf1

/-- A field's value in a written word. -/
def wfld (v : Word) (f : Fld) : Nat := Word.bits v f.lo f.width

/-- Whether a masked write selects a one-bit field and writes 1 to it (R41). -/
def wmSet (v : Word) (f : Fld) : Bool := v.getLsbD (f.lo + 16) && v.getLsbD f.lo

/-- Whether a masked write selects a one-bit field (R41). -/
def wmSel (v : Word) (f : Fld) : Bool := v.getLsbD (f.lo + 16)

end Sys2Proof.Machine
end

