-- ==== Sys2Proof/Machine/Regs.lean ====
section
/-! DEFINITION. Register access (R33 to R48, R51, R54, R58, R466, R526): which functions run, the checks a write passes, the
holding register of a _LO register, commits of shadows, and the commands that read or write a common register. -/

namespace Sys2Proof.Machine

/-! ### Running and stopped functions -/

/-- Whether the raw records of a reel are decoded into Prism in REVIEW (R60). -/
def State.reviewRaw (s : State) : Bool := s.on Pg.recorder Reg.RECORDER_REVIEW_NS_RAW

/-- Whether the mode runs the output group (R56). -/
def outputMode : Mode → Bool
  | .standby | .live | .record | .review => true
  | .service | .sleep => false

/-- Whether a page's function runs (R56 to R61). The control group runs in every mode except SLEEP, FSTORE while its ENABLE is 1, and COND
and RELAY while a job or a channel runs. A page of no group has no function that runs. DEDUCED (log 17). -/
def State.running (s : State) (p : Nat) : Bool :=
  match pageBlk p with
  | none => false
  | some (b, _) =>
    match b with
    | .link | .ingress | .draw | .drawctl | .henc | .iris => s.ctl.capRun
    | .prismFe | .split => s.ctl.capRun || (decide (s.ctl.mode = .review) && s.reviewRaw)
    | .prismBe =>
      s.ctl.capRun || (decide (s.ctl.mode = .review) && s.reviewRaw && s.on Pg.split (Reg.SPLIT_REND_CFG (p - Pg.prismBe 0)))
    | .recorder | .media => decide (s.ctl.mode = .record) || decide (s.ctl.mode = .review)
    | .hdec | .drdec => decide (s.ctl.mode = .review)
    | .loupe | .mirror | .sdi | .eth | .pkt2110 | .aud => outputMode s.ctl.mode && s.on p Reg.COMMON_CTRL_ENABLE
    | .fstore => !decide (s.ctl.mode = .sleep) && s.on p Reg.COMMON_CTRL_ENABLE
    | .cluster | .coll | .trig | .hostq | .nspace | .dram | .dramctl => !decide (s.ctl.mode = .sleep)
    | .cond => !s.cond.queue.isEmpty
    | .relay => !decide (s.fld p Reg.RELAY_STATE_ACTIVE = 0)
    | .global | .rstore | .guard | .pwr | .therm | .lane | .security | .array => false

/-- Whether a stopped-only field is closed: MAX_FMT, MAX_RATE and GFX_ALLOW of LOUPE.CFG, and the SO fields of the control group and of
PKT2110, are stopped-only against the capture group, the others against the page's own function (R58, R347). DEDUCED (log 11). -/
def State.soClosed (s : State) (p o : Nat) (f : FieldSpec) : Bool :=
  match pageBlk p with
  | some (.loupe, _) => if o = 0x040 ∧ 4 ≤ f.lo then s.ctl.capRun else s.running p
  | some (.pkt2110, _) | some (.fstore, _) | some (.hostq, _) | some (.nspace, _) | some (.trig, _) | some (.guard, _)
  | some (.dramctl, _) => s.ctl.capRun
  | _ => s.running p

/-! ### Who may reach the registers -/

/-- Whether the host's requests reach the device: the link is up and the restore window is over (R55, R62, R87). -/
def State.hostUp (s : State) : Bool :=
  s.ctl.linkUp && !decide (s.ctl.phase = .inReset) && !decide (s.ctl.phase = .restoring) && !decide (s.ctl.mode = .sleep)

/-- Whether a requester's access reaches the registers: the firmware's while it runs (R458, R463), a host
function's while the link is up, the restore window is over and the function is in D0 (R55, R62, R87, R277), and any that Relay makes
(R430). -/
def State.reach (s : State) (r : Req) : Bool :=
  s.ctl.relayBeat ||
  match r with
  | .fw =>
    !decide (s.ctl.phase = .inReset) && !decide (s.ctl.mode = .sleep) && !s.on Pg.cluster Reg.CLUSTER_STATE_HANDOVER
      && !s.on Pg.security Reg.SECURITY_STATE_NO_IMAGE
  | .pf0 => s.hostUp && !s.hq.pci0.d3
  | .pf1 => s.hostUp && !s.hq.pci1.d3

/-- The request that a page's domain holds while its work drains (R483). -/
def State.heldReq (s : State) (p : Nat) : Option Nat := (s.pwr.held.find? fun e => decide (e.1 = p)).map (·.2)

/-- Whether a page's domain is off: then its block, shadow and active registers read zero (R36). -/
def State.domainOff (s : State) (p : Nat) : Bool := decide (s.fld p Reg.COMMON_PWR_REQ_STATUS = 0)

/-! ### Field Stop on register writes -/

/-- The bits of a GUARD register that are limit fields (R466, R476). DEDUCED (log 12). -/
def guardLimit (o : Nat) : Word :=
  if o = 0x008 then 0x2
  else if o = 0x060 ∨ o = 0x064 ∨ o = 0x068 ∨ o = 0x06C ∨ o = 0x070 ∨ o = 0x074 ∨ o = 0x078 then 0xFFFFFFFF
  else if 0x080 ≤ o ∧ o < 0x180 then 0xFFFFFFFF
  else 0

/-- The GUARD.LOCK bit of a GUARD register's group (the Field Stop limits table of R467). DEDUCED (log 12). -/
def guardGroup (o : Nat) : Option Nat :=
  if o = 0x074 ∨ o = 0x078 then some 0
  else if o = 0x060 ∨ o = 0x064 then some 1
  else if o = 0x068 then some 2
  else if o = 0x008 ∨ (0x080 ≤ o ∧ o < 0x180) then some 3
  else if o = 0x06C then some 4
  else if o = 0x070 then some 5
  else none

/-- The locked bits of a register (R42, R467, R494, R526). DEDUCED (log 12). -/
def State.lockMask (s : State) (p o : Nat) : Word :=
  if p = Pg.guard then
    match guardGroup o with
    | some g => if (s.rd (Pg.guard * 0x1000 + 0x020)).getLsbD g then guardLimit o else 0
    | none => 0
  else if p = Pg.therm ∧ (o = 0x048 ∨ o = 0x04C ∨ o = 0x050) then
    if (s.rd (Pg.therm * 0x1000 + 0x020)).getLsbD 0 then 0xFFFFFFFF else 0
  else 0

/-- A write that touches a locked field or a W1 register already written (R42). DEDUCED (log 11). -/
def State.lockViolation (s : State) : State :=
  (s.count Pg.guard Reg.GUARD_LOCK_VIOL_COUNT).raise Pg.guard Reg.GUARD_EVENT_LOCK_VIOLATION

/-- A firmware write to a limit field (R466). DEDUCED (log 11). -/
def State.fwDeny (s : State) : State :=
  (s.count Pg.guard Reg.GUARD_FW_DENY_COUNT).raise Pg.guard Reg.GUARD_EVENT_FW_DENY

/-! ### Holding registers of 64-bit pairs (R47) -/

/-- Whether the register at an offset of a page is a writable _LO register (R47). DEDUCED (log 14). -/
def isLo (p o : Nat) : Bool :=
  match pageBlk (p % 1024) with
  | none => false
  | some (b, _) => (loRows b).any fun e => decide (e.1 ≤ o) && decide (o < e.1 + e.2.1 * e.2.2) && decide ((o - e.1) % e.2.2 = 0)

/-- The value held for a _LO register. DEDUCED (log 14). -/
def State.held (s : State) (a : Nat) : Option Word := (s.ctl.loHold.find? fun e => decide (e.1 = a)).map (·.2)

/-- A word stored in a register: a _LO register's word waits in its holding register, and the write of the _HI register above it updates
both (R47). DEDUCED (log 14). -/
def State.store (s : State) (p o : Nat) (w : Word) : State :=
  let a := p * 0x1000 + o
  if isLo p o then
    { s with ctl := { s.ctl with loHold := (a, w) :: s.ctl.loHold.filter (fun e => decide (e.1 ≠ a)) } }
  else
    let s1 := s.wr a w
    if 4 ≤ o ∧ isLo p (o - 4) then
      match s.held (a - 4) with
      | some l =>
        let s2 := s1.wr (a - 4) l
        { s2 with ctl := { s2.ctl with loHold := s2.ctl.loHold.filter (fun e => decide (e.1 ≠ a - 4)) } }
      | none => s1
    else s1

/-- Whether a write of a _HI register would put a held _LO word in place that changes a closed stopped-only field (R41, R47). DEDUCED (log
11). -/
def State.heldClosed (s : State) (a p o : Nat) : Bool :=
  decide (4 ≤ o) && isLo p (o - 4) &&
    match s.held (a - 4) with
    | some l => ((fieldsAt p (o - 4)).getD []).any fun f => f.touchSo (s.rd (a - 4)) l && s.soClosed p (o - 4) f
    | none => false

/-! ### The checks of a write -/

/-- The copy of a page that a requester reaches: the admin queue registers of HOSTQ exist per function and the snapshot
registers of COLL per requester (R316, R377); firmware reaches the PF0 set of HOSTQ. Page numbers above 1,023 name the further copies. -/
def bankPage (r : Req) (p o : Nat) : Nat :=
  if p = Pg.hostq ∧ 0x040 ≤ o ∧ o < 0x070 then p + 1024 * (if r = .pf1 then 1 else 0)
  else if p = Pg.coll ∧ 0x040 ≤ o ∧ o < 0x050 then p + 1024 * reqCode r
  else p

/-- Whether a page is privileged but for ID (R34). DEDUCED (log 13). -/
def pagePrv (p : Nat) : Bool :=
  match pageBlk p with
  | some (b, _) => prvPage b
  | none => false

/-- Whether a write from PF1 is counted as one to a privileged field (R41). STATE and CAPS of a privileged page are privileged where the
page names no fields in them; an unused LOCK register is not (R526). DEDUCED (log 11, 13). -/
def denies (p o : Nat) (fs : List FieldSpec) (v : Word) : Bool :=
  fs.any (fun f => f.denies v) || (fs.isEmpty && pagePrv p && decide (o ≠ 0x000) && decide (o ≠ 0x020))

/-- A write passes the checks of R36, R41, R42, R44, R45, R466 and R526 in that order and then takes the effect `k`, which is given the
state, the word held and the word the access codes give; a write that fails a check takes the effect the rule of that check gives. DEDUCED
(log 11, 13). -/
def withWrite (r : Req) (p o : Nat) (v : Word) (s : State) (k : State → Word → Word → State) : State :=
  if s.reach r = false then s
  else
    match fieldsAt p o with
    | none => s.busError r (p * 0x1000 + o) true
    | some fs0 =>
      let s := if decide (r = .pf1) && denies p o fs0 v then s.count Pg.guard Reg.GUARD_PRV_DENY_COUNT else s
      let fs1 := if r = .pf1 then fs0.filter (fun f => !f.prv) else fs0
      if fs1.isEmpty then s
      else if 0x040 ≤ o ∧ s.domainOff p then s.reject p
      else
        let denied := decide (r = .fw) && decide (p = Pg.guard) && decide (writeMask fs1 v &&& guardLimit o ≠ 0)
        let s := if denied then s.fwDeny else s
        let fs := if denied then fs1.filter (fun f => decide (f.mask &&& guardLimit o = 0)) else fs1
        let touched := writeMask fs v
        let a := bankPage r p o * 0x1000 + o
        let old := s.rd a
        if touched = 0 then s
        else if touched &&& s.lockMask p o ≠ 0 then s.lockViolation
        else if fs.any (fun f => decide (f.kind = .w1)) && s.ctl.w1Done.contains a then s.lockViolation
        else if fs.any (fun f => f.touchSo old v && s.soClosed p o f) || s.heldClosed a p o then s.reject p
        else
          let s :=
            if fs.any (fun f => decide (f.kind = .w1)) then
              { s with ctl := { s.ctl with w1Done := insertNat a s.ctl.w1Done } }
            else s
          k s old (applyWrite fs old v)

/-- The plain effect of a write: the word is stored (R41, R47). -/
def plainStore (r : Req) (p o : Nat) (s : State) (_old new : Word) : State := s.store (bankPage r p o) o new

/-! ### Reads -/

/-- The summary word of 32 pages (R49). -/
def State.summary (s : State) (k : Nat) : Word :=
  (List.range 32).foldl (fun w i => if s.eventOn (32 * k + i) then w ||| BitVec.ofNat 32 (2 ^ i) else w) 0

/-- Whether a requester's read of a page's EVENT clears: only from the function of the page's routing entry, or from PF0 while the route is
disabled (R51). DEDUCED (log 19). -/
def State.eventClears (s : State) (r : Req) (p : Nat) : Bool :=
  let e := s.route p
  match r with
  | .fw => false
  | .pf0 => decide (e < 128) || decide (e / 64 % 2 = 0)
  | .pf1 => decide (128 ≤ e) && decide (e / 64 % 2 = 1)

/-- The fields a requester sees of a register: PF1 reads privileged fields as zero (R41). DEDUCED (log 19). -/
def visible (r : Req) (fs : List FieldSpec) : List FieldSpec := if r = .pf1 then fs.filter (fun f => !f.prv) else fs

/-- A read answers the visible bits of `w` and clears the bits returned as 1 of its clear-on-read fields, in enabled bytes
(R33, R41, R44). -/
def withRead (r : Req) (p o be : Nat) (s : State) (w : Word) (clears : Bool) : State :=
  if s.reach r = false then s
  else
    match fieldsAt p o with
    | none => s.busError r (p * 0x1000 + o) false
    | some fs0 =>
      let fs := visible r fs0
      if 0x040 ≤ o ∧ s.domainOff p then s.emit (.regRead r (p * 0x1000 + o) 0)
      else
        let seen := w &&& maskOf fs (fun _ => true)
        let gone := if clears then seen &&& clearMask fs be else 0
        let a := bankPage r p o * 0x1000 + o
        (if gone = 0 then s else s.wr a (s.rd a &&& ~~~ gone)).emit (.regRead r (p * 0x1000 + o) seen)

/-- A read of a page's EVENT register (R41, R49, R51). DEDUCED (log 19). -/
def readEvent (r : Req) (p be : Nat) (s : State) : State :=
  withRead r p 0x010 be s (s.rd (p * 0x1000 + 0x010)) (s.eventClears r p)

/-- A read of BUSERR_INFO answers the first bus error and clears it and BUSERR_ADDR (R54); bits of bytes that are not enabled
stay (R33). -/
def readBusErr (r : Req) (be : Nat) (s : State) : State :=
  let s1 := withRead r Pg.global 0x204 be s (s.rd 0x204) true
  if s.reach r && decide (be % 16 ≠ 0) then
    ({ s1 with ctl := { s1.ctl with busErrHeld := false } } : State).setFld Pg.global Reg.GLOBAL_BUSERR_ADDR 0
  else s1

/-! ### Commits (R37 to R40, R68, R77) -/

/-- The offsets of a block's registers that hold shadowed fields, in ascending order. -/
def shadowOffs (b : Blk) : List Nat :=
  ((blkRows b).filter (fun w => w.fields.any (fun f => f.sh))).flatMap fun w =>
    (List.range w.count).map fun i => w.off + i * w.stride

/-- The shadowed bits of the register at an offset. -/
def shMask (p o : Nat) : Word :=
  match fieldsAt p o with
  | none => 0
  | some fs => maskOf fs (fun f => f.sh)

/-- The snapshot of every shadow register of a page (R38). DEDUCED (log 18). -/
def State.snapshot (s : State) (p : Nat) : List (Nat × Word) :=
  match pageBlk p with
  | none => []
  | some (b, _) => (shadowOffs b).map fun o => (o, s.rd (p * 0x1000 + o) &&& shMask p o)

/-- A snapshot written to the active copies (R38). -/
def State.applySnap (s : State) (p : Nat) (snap : List (Nat × Word)) : State :=
  snap.foldl (fun s e => s.wr (p * 0x1000 + e.1 + 0x400) e.2) s

/-- The snapshot that a page's pending commit holds. -/
def State.snapOf (s : State) (p : Nat) : List (Nat × Word) :=
  match s.ctl.snaps.find? fun e => decide (e.1 = p) with
  | some e => e.2
  | none => []

/-- A page's pending commit ended: PENDING clears and its snapshot is gone. -/
def State.endCommit (s : State) (p : Nat) : State :=
  let s1 := s.setFld p Reg.COMMON_COMMIT_PENDING 0
  { s1 with ctl := { s1.ctl with snaps := s1.ctl.snaps.filter (fun e => decide (e.1 ≠ p)) } }

/-- A page's pending commit applied: active copies take the snapshot, PENDING clears, COMMIT_DONE rises (R38, R77). DEDUCED (log 18). -/
def State.applyCommit (s : State) (p : Nat) : State :=
  ((s.applySnap p (s.snapOf p)).endCommit p).raise p Reg.COMMON_EVENT_COMMIT_DONE

/-- Every page of the page map. -/
def allPages : List Nat := pageMap.flatMap fun e => (List.range e.2.1).map fun i => e.1 + i

/-- Whether a bound group holds a page (R75). -/
def State.grouped (s : State) (p : Nat) : Bool := s.ctl.groups.any fun g => g.2.contains p

/-- Whether a page is armed: SOURCE 0b00, PENDING 1 and no group holds it (R75). -/
def State.armed (s : State) (p : Nat) : Bool :=
  decide (p ≠ Pg.global) && decide (s.fld p Reg.COMMON_COMMIT_PENDING = 1)
    && decide (s.fld p Reg.COMMON_COMMIT_SOURCE = 0) && !s.grouped p

/-- GLOBAL.COMMIT shows the groups in flight (R75). -/
def State.showGroups (s : State) : State :=
  (s.setFld Pg.global Reg.GLOBAL_COMMIT_GROUPS s.ctl.groups.length).setOn Pg.global Reg.GLOBAL_COMMIT_PENDING
    (!s.ctl.groups.isEmpty)

/-- Step 3 of R68: every page whose SOURCE is 0b00 copies its shadows to its active copies, PENDING clears without
COMMIT_DONE and no group stays bound. -/
def State.copyShadows (s : State) : State :=
  let s1 := allPages.foldl
    (fun s p =>
      if p = Pg.global ∨ s.fld p Reg.COMMON_COMMIT_SOURCE ≠ 0 then s
      else (s.applySnap p (s.snapshot p)).endCommit p) s
  { s1 with ctl := { s1.ctl with groups := [] } }.showGroups

/-- The commit points passed when FRAME_NOW becomes `n`: every group for frame n + 1 or below applies (R77). -/
def State.commitPoint (s : State) (n : Nat) : State :=
  let due := s.ctl.groups.filter fun g => decide (g.1 ≤ n + 1)
  if due.isEmpty then s
  else
    let s1 := due.foldl (fun s g => g.2.foldl (fun s p => s.applyCommit p) s) s
    let s2 := { s1 with ctl := { s1.ctl with groups := s1.ctl.groups.filter fun g => decide (n + 1 < g.1) } }
    s2.showGroups.raise Pg.global Reg.COMMON_EVENT_COMMIT_DONE

/-- At a take STOP the groups for frames above `n` are cancelled: their pages clear PENDING without COMMIT_DONE (R71). DEDUCED (log 18). -/
def State.cancelGroups (s : State) (n : Nat) : State :=
  let dead := s.ctl.groups.filter fun g => decide (n < g.1)
  let s1 := dead.foldl (fun s g => g.2.foldl (fun s p => s.endCommit p) s) s
  { s1 with ctl := { s1.ctl with groups := s1.ctl.groups.filter fun g => decide (g.1 ≤ n) } }.showGroups

/-- The frame Ingress is receiving (R53). -/
def State.frameNow (s : State) : Nat := s.fld64 Pg.global Reg.GLOBAL_FRAME_NOW_LO Reg.GLOBAL_FRAME_NOW_HI

/-- Whether a take or REVIEW runs, for R75. -/
def State.takeOrReview (s : State) : Bool :=
  s.on Pg.global Reg.GLOBAL_STATE_TAKE || decide (s.ctl.mode = .review)

/-- The effect of GLOBAL.COMMIT.REQ: the armed pages become one group for COMMIT_FRAME, or the request is refused with its
reason and COMMIT_REJECT and binds nothing (R75, R76, R81). -/
def State.bindGroup (s : State) : State :=
  let f := s.fld64 Pg.global Reg.GLOBAL_COMMIT_FRAME_LO Reg.GLOBAL_COMMIT_FRAME_HI
  let armed := allPages.filter s.armed
  let stopped := !s.takeOrReview
  let late := decide (f < s.frameNow + 2)
  let full := decide (8 ≤ s.ctl.groups.length)
  let empty := armed.isEmpty
  if stopped || late || full || empty then
    let s1 := if late then s.setFld Pg.global Reg.GLOBAL_COMMIT_LATE 1 else s
    let s2 := if full then s1.setFld Pg.global Reg.GLOBAL_COMMIT_FULL 1 else s1
    let s3 := if empty then s2.setFld Pg.global Reg.GLOBAL_COMMIT_NONE 1 else s2
    let s4 := if stopped then s3.setFld Pg.global Reg.GLOBAL_COMMIT_STOPPED 1 else s3
    s4.raise Pg.global Reg.COMMON_EVENT_COMMIT_REJECT
  else { s with ctl := { s.ctl with groups := s.ctl.groups ++ [(f, armed)] } }.showGroups

/-- RX_CORR and TX_CORR show the values of the TS_MODE in force (R380). -/
def State.showCorr (s : State) : State :=
  if s.on Pg.coll Reg.COLL_PTP_CFG_TS_MODE then (s.setFld Pg.coll Reg.COLL_RX_CORR 212480).setFld Pg.coll Reg.COLL_TX_CORR 133120
  else (s.setFld Pg.coll Reg.COLL_RX_CORR 156800).setFld Pg.coll Reg.COLL_TX_CORR 84000

/-! ### The commands -/

/-- EVENT_READ (R51). -/
def execEventRead (r : Req) (page be : Nat) (s : State) : Host.Outcome State Fault Refusal := .next (readEvent r page be s)

/-- BUSERR_INFO_READ (R54). -/
def execBuserrInfoRead (r : Req) (be : Nat) (s : State) : Host.Outcome State Fault Refusal := .next (readBusErr r be s)

/-- The effect of a write of EVENT_TEST: the matching implemented EVENT bits are set (R35, R49, R52). -/
def writeEventTest (r : Req) (p : Nat) (v : Word) (s : State) : State :=
  withWrite r p 0x018 v s fun s _ _ =>
    match fieldsAt p 0x010 with
    | none => s
    | some fs =>
      let a := p * 0x1000 + 0x010
      noteRise s (s.wr a (s.rd a ||| (v &&& maskOf fs (fun _ => true)))) p

/-- EVENT_TEST (R35). -/
def execEventTest (r : Req) (page : Nat) (v : Word) (s : State) : Host.Outcome State Fault Refusal :=
  .next (writeEventTest r page v s)

/-- The effect of a write of VEC_REARM: the vector's latch of the writing function is set while its OR is 1 (R52, R53). -/
def writeVecRearm (r : Req) (v : Word) (s : State) : State :=
  withWrite r Pg.global 0x0A0 v s fun s _ _ =>
    match reqFn? r with
    | none => s
    | some fn =>
      let k := fnNum fn * 64 + wfld v Reg.GLOBAL_VEC_REARM
      if s.vecOr (128 + k) then s.latch k else s

/-- VEC_REARM (R52). -/
def execVecRearm (r : Req) (v : Word) (s : State) : Host.Outcome State Fault Refusal := .next (writeVecRearm r v s)

/-- The effect of a write of GLOBAL.COMMIT (R75, R76). -/
def writeGlobalCommit (r : Req) (v : Word) (s : State) : State :=
  withWrite r Pg.global 0x01C v s fun s _ _ => if wfld v Reg.GLOBAL_COMMIT_REQ = 1 then s.bindGroup else s

/-- GLOBAL_COMMIT (R76). -/
def execGlobalCommit (r : Req) (v : Word) (s : State) : Host.Outcome State Fault Refusal := .next (writeGlobalCommit r v s)

end Sys2Proof.Machine
end

