-- ==== Sys2Proof/Machine/HostQ.lean ====
section
/-! DEFINITION. The host queues (R277 to R302, R470): doorbells, arbitration and fetch, the checks every command passes, when a
fetched command may start, host memory windows and buffers, completions, coalescing, MSI-X messages and the deletion of
queues. -/

namespace Sys2Proof.Machine

/-! ### Updates of the queue tables -/

/-- The key of a queue. -/
def qkey (fn : Fn) (qid : Nat) : Nat := fnNum fn * 64 + qid

/-- The state with the queue tables replaced. -/
def State.setHq (s : State) (h : Hq) : State := { s with hq := h }

/-- The state with a submission queue set. -/
def State.putSq (s : State) (k : Nat) (q : Sq) : State := s.setHq { s.hq with sqs := s.hq.sqs.put k q }

/-- The state with a completion queue set. -/
def State.putCq (s : State) (k : Nat) (q : Cq) : State := s.setHq { s.hq with cqs := s.hq.cqs.put k q }

/-- The state with a command of the command table set. -/
def State.putCmd (s : State) (tag : Nat) (c : Cmd) : State := s.setHq { s.hq with cmds := s.hq.cmds.put tag c }

/-! ### Command fields (R284) -/

/-- The opcode of a command. -/
def Cmd.op (c : Cmd) : Nat := leAt c.raw 0 1

/-- A FLAGS bit of a command: 0 LIST, 1 NOW, 2 FENCE. -/
def Cmd.flag (c : Cmd) (i : Nat) : Bool := (leAt c.raw 1 1).testBit i

/-- The namespace of a command. -/
def Cmd.nsid (c : Cmd) : Nat := leAt c.raw 4 4

/-- The GENERATION of a command. -/
def Cmd.generation (c : Cmd) : Nat := leAt c.raw 8 4

/-- DPTR of a command. -/
def Cmd.dptr (c : Cmd) : Nat := leAt c.raw 0x10 8

/-- DLEN of a command. -/
def Cmd.dlen (c : Cmd) : Nat := leAt c.raw 0x18 4

/-- Command word CDW`i`, 8 to 15. -/
def Cmd.cdw (c : Cmd) (i : Nat) : Nat := leAt c.raw (0x20 + 4 * (i - 8)) 4

/-- The 64-bit byte offset in CDW8 and CDW9 (R312). -/
def Cmd.offset (c : Cmd) : Nat := c.cdw 8 + 2 ^ 32 * c.cdw 9

/-- The largest transfer of a command (R284). -/
def maxXfer : Nat := 67108864

/-- The opcodes of the admin and I/O tables (R303, R312). -/
def knownOps : List Nat :=
  [0x01, 0x02, 0x03, 0x04, 0x05, 0x06, 0x07, 0x08, 0x10, 0x11, 0x12, 0x18, 0x19, 0x20, 0x21, 0x22, 0x28] ++
    [0x80, 0x81, 0x82, 0x84, 0x88, 0x89]

/-- The opcodes only PF0 may issue (R303). -/
def pf0Ops : List Nat := [0x11, 0x18, 0x19, 0x20, 0x21, 0x28]

/-- The opcodes exempt from the generation and the fence (R293, R500). -/
def exemptOps : List Nat := [0x05, 0x06, 0x07, 0x28]

/-- The admin opcodes that change mode, settings, namespaces, firmware or the lease and run one at a time (R294). DEDUCED (log 51). -/
def serialOps : List Nat := [0x10, 0x11, 0x18, 0x19, 0x20, 0x21, 0x28]

/-- The opcodes that read or write a namespace or delete it (R295). DEDUCED (log 51). -/
def nsOps : List Nat := [0x19, 0x80, 0x81, 0x82, 0x84]

/-- Whether a command names a namespace by NSID: those of `nsOps`, and IDENTIFY of one namespace (R284, R295, R303). DEDUCED (log 51). -/
def Cmd.names (c : Cmd) : Bool := nsOps.contains c.op || (decide (c.op = 0x05) && decide (c.cdw 8 % 256 = 1))

/-- The bits of CDW8 to CDW15 that an opcode uses; all others are reserved (R285, R303, R312). -/
def cdwMasks (op : Nat) : List Nat :=
  match op with
  | 0x01 => [0x0FFF003F, 0x33F]
  | 0x02 => [0x3F]
  | 0x03 => [0x0FFF003F, 0x13F, 0xFFFF]
  | 0x04 => [0x3F]
  | 0x05 => [0xFF]
  | 0x06 => [0xFF, 0, 0xFFFFFFFF, 0xFFFFFFFF]
  | 0x07 => [0xFFFF003F]
  | 0x08 => [0x3F, 0xFFFF]
  | 0x10 => [0x107, 0, 0xFFFFFFFF, 0xFFFFFFFF]
  | 0x12 => [0x7]
  | 0x18 => [0xFF, 0xFF, 0xFFFFFFFF, 0xFFFFFFFF]
  | 0x20 | 0x21 => [0x1]
  | 0x22 => List.replicate 8 0xFFFFFFFF
  | 0x28 => [0xFFFFFFFF, 0xFFFFFFFF]
  | 0x80 | 0x81 => [0xFFFFFFFF, 0xFFFFFFFF]
  | 0x84 => [0xFFFFFFFF, 0xFFFFFFFF, 0x3F]
  | 0x88 | 0x89 => [0xFFFFFFFF, 0xFFFFFFFF, 0xFFFFFFFF, 0xF]
  | _ => []

/-- The offset of the first field that is out of order, of fields listed in byte order (R285, R308). -/
def firstBad (l : List (Bool × Nat)) : Option Nat := (l.find? (·.1)).map (·.2)

/-- The byte offset of the first field of a command that R284, R285 or R286 forbids on its own; none when the fields
are in order. -/
def badField (c : Cmd) (dupCid : Bool) : Option Nat :=
  firstBad
    ([(decide (8 ≤ leAt c.raw 1 1), 0x01), (dupCid, 0x02), (c.names && decide (255 < c.nsid), 0x04), (decide (leAt c.raw 0x0C 4 ≠ 0), 0x0C),
      (decide (maxXfer < c.dlen) || (c.flag 0 && (decide (c.dlen = 0) || decide (4096 < c.dlen))), 0x18),
      (decide (leAt c.raw 0x1C 4 ≠ 0), 0x1C)]
      ++ (List.range 8).map fun i =>
        (decide (c.cdw (8 + i) &&& (cdwMasks c.op).getD i 0 ≠ c.cdw (8 + i)), 0x20 + 4 * i))

/-! ### Completion of commands (R287, R297, R308) -/

/-- The tag of the command with a number. DESIGN CHOICE (log 89). -/
def State.tagOf (s : State) (uid : Nat) : Option Nat :=
  (s.hq.cmds.find? fun e => e.2.live && decide (e.2.uid = uid)).map (·.1)

/-- An error log entry added; each function keeps its newest 64 (R308). -/
def State.logError (s : State) (tag : Nat) (c : Cmd) (status detail field : Nat) : State :=
  let n := (if c.fn = .pf0 then s.hq.errCount0 else s.hq.errCount1) + 1
  let e : ErrEntry := ⟨c.fn, c.sqid, c.op, c.cid, status, detail, field, tag, n⟩
  let others := s.hq.errors.filter fun x => decide (x.fn ≠ c.fn)
  let mine := (e :: s.hq.errors.filter fun x => decide (x.fn = c.fn)).take 64
  s.setHq { s.hq with
    errors := mine ++ others
    errCount0 := if c.fn = .pf0 then n else s.hq.errCount0
    errCount1 := if c.fn = .pf0 then s.hq.errCount1 else n }

/-- A command passes its commit point with a status: its completion is entered for posting; a failure is logged, and status
0x32 raises NS_FULL. RESULT of an ARRAY LEASE is always the generation in force (R297, R308, R317, R496). -/
def State.finishTag (s : State) (tag status result detail field : Nat) : State :=
  let c := s.hq.cmds.get tag
  if c.live = false ∨ c.stage = .done then s
  else
    let r := if c.op = 0x28 then s.fld Pg.array Reg.ARRAY_GENERATION else result
    let s1 := s.putCmd tag { c with stage := .done, status := status, result := r, detail := detail }
    let s2 := if status = 0 then s1 else s1.logError tag c status detail field
    if status = 0x32 then s2.raise Pg.nspace Reg.NSPACE_EVENT_NS_FULL else s2

/-- The command with a number completes; a command whose queue is gone ends without a completion (R278, R297). DEDUCED (log 50). DESIGN
CHOICE (log 89). -/
def State.finish (s : State) (uid status result detail : Nat) : State :=
  let s1 := s.setHq { s.hq with ghosts := s.hq.ghosts.filter fun c => decide (c.uid ≠ uid) }
  match s1.tagOf uid with
  | some t => s1.finishTag t status result detail 0xFFFF
  | none => s1

/-- An optional command completes. -/
def State.finish? (s : State) (cmd : Option Nat) (status result detail : Nat) : State :=
  match cmd with
  | some u => s.finish u status result detail
  | none => s

/-! ### Host memory windows and buffers (R286, R301, R470) -/

/-- Whether a window that is enabled for a function covers a byte range; a write also needs it not to be read-only (R470). -/
def State.windowCovers (s : State) (fn : Fn) (w addr len : Nat) (write : Bool) : Bool :=
  let lo := s.rd (Pg.guard * 0x1000 + 0x080 + 0x10 * w)
  let hi := s.rd (Pg.guard * 0x1000 + 0x084 + 0x10 * w)
  let llo := s.rd (Pg.guard * 0x1000 + 0x088 + 0x10 * w)
  let lhi := s.rd (Pg.guard * 0x1000 + 0x08C + 0x10 * w)
  let base := Word.bits lo 12 20 * 4096 + 2 ^ 32 * hi.toNat
  let last := Word.bits llo 12 20 * 4096 + 2 ^ 32 * lhi.toNat
  lo.getLsbD (fnNum fn) && !(write && lo.getLsbD 2) && decide (base ≤ addr) && decide (addr + len ≤ last + 4096)

/-- Whether every byte of a range passes the windows (R301, R470). -/
def State.windowOk (s : State) (fn : Fn) (addr len : Nat) (write : Bool) : Bool :=
  !s.on Pg.guard Reg.GUARD_CTRL_WIN_EN || decide (len = 0) ||
    (List.range 16).any fun w => s.windowCovers fn w addr len write

/-- An access refused by the windows (R301, R470). -/
def State.winDeny (s : State) : State :=
  (s.count Pg.guard Reg.GUARD_WIN_DENY_COUNT).raise Pg.guard Reg.GUARD_EVENT_WIN_DENY

/-- The extents of a list (R286); none when an extent is not valid. -/
def parseExtents : Nat → List Byte → Option (List (Nat × Nat))
  | 0, _ => some []
  | n + 1, b =>
    let len := leAt b 8 4
    if len = 0 ∨ maxXfer < len ∨ leAt b 12 4 ≠ 0 then none
    else (parseExtents n (b.drop 16)).map fun t => (leAt b 0 8, len) :: t

/-- The total length of buffers. -/
def bufsLen (b : List (Nat × Nat)) : Nat := (b.map (·.2)).sum

/-- The host buffers of a command, or the status that a bad or refused list or buffer gives (R286, R291, R301). `write` is the
direction towards the host. -/
def State.buffers (s : State) (c : Cmd) (h : HostData) (write : Bool) : Except Nat (List (Nat × Nat)) :=
  if c.flag 0 then
    if c.dptr % 16 ≠ 0 then .error 0x02
    else if s.windowOk c.fn c.dptr (16 * c.dlen) false = false then .error 0x11
    else
      match h.list with
      | none => .error 0x04
      | some b =>
        match parseExtents c.dlen b with
        | none => .error 0x02
        | some ext =>
          if maxXfer < bufsLen ext then .error 0x02
          else if ext.all (fun e => s.windowOk c.fn e.1 e.2 write) then .ok ext
          else .error 0x11
  else if s.windowOk c.fn c.dptr c.dlen write then .ok (if c.dlen = 0 then [] else [(c.dptr, c.dlen)])
  else .error 0x11

/-- Whether the list or buffer of a command is not valid, which is looked at before the state is (R286, R292). -/
def State.badBuf (s : State) (c : Cmd) (h : HostData) (write : Bool) : Bool :=
  match s.buffers c h write with
  | .error st => decide (st = 0x02)
  | .ok _ => false

/-- The transfer length of a command: DLEN, or the sum of the extents (R286). -/
def xferLen (c : Cmd) (h : HostData) : Nat :=
  if c.flag 0 then
    match h.list with
    | none => 0
    | some b => ((List.range c.dlen).map fun i => leAt b (16 * i + 8) 4).sum
  else c.dlen

/-- The transfer length as far as the checks that come before the windows can know it: of an extent list only one that may be read, and was
(R286, R292, R301). -/
def State.knownLen (s : State) (c : Cmd) (h : HostData) : Option Nat :=
  if c.flag 0 && (h.list.isNone || decide (c.dptr % 16 ≠ 0) || !s.windowOk c.fn c.dptr (16 * c.dlen) false) then none
  else some (xferLen c h)

/-- The field of a command for 4,096 bytes that is out of its range: its list, or a shorter buffer (R286, R303, R307). -/
def State.badReport (s : State) (c : Cmd) (h : HostData) : Option Nat :=
  firstBad [(s.badBuf c h true, 0x10), ((s.knownLen c h).any fun n => decide (n < 4096), 0x18)]

/-- Data written through buffers to the host, in order (R286, R299). -/
def State.toHost (s : State) (fn : Fn) : List (Nat × Nat) → List Byte → State
  | [], _ => s
  | (a, n) :: t, d =>
    if d.isEmpty then s else (s.emit (.hostWrite fn a (d.take n))).toHost fn t (d.drop n)

/-- A command ends with the status of a failed buffer check (R292, R301). -/
def State.failBuf (s : State) (tag status : Nat) : State :=
  let s1 := if status = 0x11 then s.winDeny else s
  s1.finishTag tag status 0 0 (if status = 0x02 then 0x10 else 0xFFFF)

/-! ### When a fetched command may start (R282, R294, R295) -/

/-- The commands outstanding with an effect that is not at its end. DEDUCED (log 51). -/
def State.openCmds (s : State) : List Cmd :=
  (s.hq.cmds.map (·.2)).filter (fun c => c.live && !decide (c.stage = .done)) ++ s.hq.ghosts

/-- The bytes of its namespace that a command reads or writes. Of one that has not started they are known only where the command holds them:
an extent list counts as the longest transfer, and a package as all that follows it (R286, R295). DEDUCED (log 51). -/
def Cmd.span (c : Cmd) : Nat :=
  if c.stage ≠ .waiting then c.len else if c.op = 0x84 then 2 ^ 64 else if c.flag 0 then maxXfer else c.dlen

/-- Whether a command writes the namespace it names, and the range of bytes it reads or writes (R295). Deletion, APPEND
METADATA and a WRITE to SETTINGS count as the whole namespace. -/
def nsRange (c : Cmd) : Bool × Nat × Nat :=
  match c.op with
  | 0x80 | 0x84 => (false, c.offset, c.offset + c.span)
  | 0x81 => if c.nsid = 0 then (true, 0, 2 ^ 64) else (true, c.offset, c.offset + c.span)
  | _ => (true, 0, 2 ^ 64)

/-- Whether two commands overlap on one namespace (R295). -/
def overlaps (a b : Cmd) : Bool :=
  let ra := nsRange a
  let rb := nsRange b
  nsOps.contains a.op && nsOps.contains b.op && decide (a.nsid = b.nsid) && (ra.1 || rb.1)
    && decide (ra.2.1 < rb.2.2) && decide (rb.2.1 < ra.2.2)

/-- Whether a submission queue's fetching is stopped (R282, R283). -/
def State.sqStopped (s : State) (k : Nat) : Bool :=
  let q := s.hq.sqs.get k
  !q.live || q.fault || (s.hq.cqs.get (k / 64 * 64 + q.cqid)).held

/-- Whether an entry that an earlier doorbell made available, in a queue that some commands wait for, has yet to be fetched; a queue whose
fetching is stopped is not waited for (R294, R295). DEDUCED (log 51). -/
def State.unfetched (s : State) (c : Cmd) (waits : Nat → Bool) : Bool :=
  s.hq.avail.any fun e => waits e.1 && decide (e.2 < c.order) && !s.sqStopped e.1

/-- Whether the one-at-a-time rule lets a command of `serialOps` start (R294). A SET MODE is not held back by a SET MODE that waits for its
take, so that it can cancel it or be refused (R62, R69). DEDUCED (log 51). -/
def State.serialFree (s : State) (c : Cmd) : Bool :=
  !s.unfetched c (fun k => decide (k % 64 = 0))
    && !(s.openCmds.any fun x =>
      serialOps.contains x.op && decide (x.uid ≠ c.uid) && (decide (x.order < c.order) || decide (x.stage = .running))
        && !(decide (x.op = 0x10) && decide (c.op = 0x10) && decide (x.stage = .running)))

/-- Whether a fetched command may start, with its bytes of its namespace: its completion queue is not held up (R282), FENCE and the
one-at-a-time rule are met (R294), and no earlier entry or overlapping command is in its way (R295). DEDUCED (log 51). -/
def State.mayStart (s : State) (c : Cmd) (len : Nat) : Bool :=
  !(s.hq.cqs.get (qkey c.fn c.cqid)).held
    && (!c.flag 2 ||
      !(s.hq.cmds.any fun e => e.2.live && decide (e.2.fn = c.fn) && decide (e.2.sqid = c.sqid) && decide (e.2.uid < c.uid)))
    && (!serialOps.contains c.op || s.serialFree c)
    && (!c.names ||
      (!s.unfetched c (fun _ => true)
        && !(s.openCmds.any fun x => decide (x.order < c.order) && overlaps x { c with stage := .running, len := len })))

/-- The firmware holds no image: only FIRMWARE LOAD and IDENTIFY are accepted (R458). -/
def State.noImage (s : State) : Bool := s.on Pg.security Reg.SECURITY_STATE_NO_IMAGE

/-- A fetched command of an opcode starts: status 0x02 for the field that `bad` names, 0x0C while the firmware holds no image, or its effect
(R292, R458). `len` gives its bytes of its namespace. A tag that holds no such command, or one that may not start yet, changes nothing. -/
def withCmd (tag op : Nat) (s : State) (bad : Cmd → State → Option Nat) (k : Cmd → State → State)
    (len : Cmd → State → Nat := fun _ _ => 0) : State :=
  let c := s.hq.cmds.get tag
  if c.live && decide (c.stage = .waiting) && decide (c.op = op) && s.mayStart c (len c s) then
    match bad c s with
    | some f => s.finishTag tag 0x02 0 0 f
    | none =>
      if s.noImage && !decide (op = 0x20) && !decide (op = 0x05) then s.finishTag tag 0x0C 0 0 0xFFFF
      else
        let c1 := { c with stage := .running, len := len c s }
        k c1 (s.putCmd tag c1)
  else s

/-! ### Bring-up and deletion of queues (R278, R280, R470) -/

/-- The page number of a function's HOSTQ set. -/
def hqPage (fn : Fn) : Nat := Pg.hostq + 1024 * fnNum fn

/-- Whether a queue's bytes are covered by windows; a completion queue needs write access (R471). -/
def State.queueOk (s : State) (fn : Fn) (base bytes : Nat) (cq : Bool) : Bool := s.windowOk fn base bytes cq

/-- The admin queues of a function come into service, unless the windows do not cover them (R280, R470). -/
def State.aqStart (s : State) (fn : Fn) : State :=
  let p := hqPage fn
  let s := s.setFld p Reg.HOSTQ_AQ_CTRL_EN 1
  let asq := 4096 * s.fld p Reg.HOSTQ_ASQ_BASE_LO + 2 ^ 32 * s.fld p Reg.HOSTQ_ASQ_BASE_HI
  let acq := 4096 * s.fld p Reg.HOSTQ_ACQ_BASE_LO + 2 ^ 32 * s.fld p Reg.HOSTQ_ACQ_BASE_HI
  let sqn := max 1 (s.fld p Reg.HOSTQ_AQ_CFG_ASQS) + 1
  let cqn := max 1 (s.fld p Reg.HOSTQ_AQ_CFG_ACQS) + 1
  if s.queueOk fn asq (64 * sqn) false && s.queueOk fn acq (16 * cqn) true then
    ((s.putCq (qkey fn 0)
        { live := true, base := acq, size := cqn, phase := true, ien := true, cnt := 1 }).putSq (qkey fn 0)
      { live := true, base := asq, size := sqn }).setFld p Reg.HOSTQ_AQ_CTRL_READY 1
  else s.raise Pg.guard Reg.GUARD_EVENT_WIN_DENY

/-- The Condenser jobs of commands that have ended: one that has not begun never runs (R278, R303). DEDUCED (log 50). -/
def State.dropJobs (s : State) (gone : Nat → Bool) : State :=
  let kept := fun (j : CondJob) => !(j.cmd.any gone)
  let began := if s.on Pg.cond Reg.COND_STATE_BUSY then 1 else 0
  { s with cond := { s.cond with queue := s.cond.queue.take began ++ (s.cond.queue.drop began).filter kept } }

/-- Whether a command whose queue goes leaves an effect that runs on; a Condenser job leaves none that others wait for (R278). -/
def Cmd.lingers (c : Cmd) : Bool := decide (c.stage = .running) && !decide (c.op = 0x88 ∨ c.op = 0x89)

/-- Every queue of a function is deleted: its outstanding commands end without a completion and their tags are free, and an effect that has
begun runs on (R278). DEDUCED (log 50). -/
def State.teardown (s : State) (fn : Fn) : State :=
  let mine := fun (k : Nat) => decide (k / 64 = fnNum fn)
  let ended := (s.hq.cmds.map (·.2)).filter fun c => c.live && decide (c.fn = fn)
  let s1 := s.setHq { s.hq with
    sqs := s.hq.sqs.filter fun e => !mine e.1
    cqs := s.hq.cqs.filter fun e => !mine e.1
    cmds := s.hq.cmds.filter fun e => decide (e.2.fn ≠ fn)
    avail := s.hq.avail.filter fun e => !mine e.1
    ghosts := s.hq.ghosts ++ ended.filter Cmd.lingers }
  let s2 := ((s1.dropJobs fun u => ended.any fun c => decide (c.uid = u)).setFld (hqPage fn) Reg.HOSTQ_AQ_CTRL_READY 0).setFld (hqPage fn)
    Reg.HOSTQ_AQ_CTRL_EN 0
  (s2.setFld (hqPage fn) Reg.HOSTQ_SQ_FAULT_LO 0).setFld (hqPage fn) Reg.HOSTQ_SQ_FAULT_HI 0

/-- The effect of a write of AQ_CTRL (R278, R280): EN 1 brings the admin queues up, EN 0 deletes every queue of the
function. -/
def writeAqCtrl (r : Req) (v : Word) (s : State) : State :=
  withWrite r Pg.hostq 0x058 v s fun s _ _ =>
    let fn := (reqFn? r).getD .pf0
    let en := s.on (hqPage fn) Reg.HOSTQ_AQ_CTRL_EN
    if wfld v Reg.HOSTQ_AQ_CTRL_EN = 1 then if en then s else s.aqStart fn
    else s.teardown fn

/-- AQ_ENABLE (R280). -/
def execAqEnable (r : Req) (v : Word) (s : State) : Host.Outcome State Fault Refusal := .next (writeAqCtrl r v s)

/-- QUEUE_TEARDOWN (R278). -/
def execQueueTeardown (r : Req) (v : Word) (s : State) : Host.Outcome State Fault Refusal := .next (writeAqCtrl r v s)

/-- The configuration state of a function after its reset: every field at its first value but for the maximum payload size where the reset
is a Function Level Reset, and its MSI-X vectors masked (R277, R278). PRESUMED (log 15). -/
def State.resetPci (s : State) (fn : Fn) (mps : Nat) : State :=
  let s1 := s.setPciFn fn { mps := mps }
  s1.setHq { s1.hq with msixTable := s1.hq.msixTable.filter fun e => decide (e.1 / 1024 ≠ fnNum fn) }

/-- FUNCTION_LEVEL_RESET (R277, R278). -/
def execFunctionLevelReset (fn : Fn) (s : State) : Host.Outcome State Fault Refusal :=
  .next ((s.teardown fn).resetPci fn (s.pciFn fn).mps)

/-- Bus Master Enable of a function cleared: its queues go (R278). -/
def State.masterOff (s : State) (fn : Fn) : State :=
  let s1 := s.teardown fn
  s1.setPciFn fn { s1.pciFn fn with master := false }

/-- BUS_MASTER_DISABLE (R278). -/
def execBusMasterDisable (fn : Fn) (s : State) : Host.Outcome State Fault Refusal := .next (s.masterOff fn)

/-- The host link goes down: both functions lose their queues and their configuration (R277, R278). -/
def State.linkDown (s : State) : State :=
  let s1 := (((s.teardown .pf0).teardown .pf1).resetPci .pf0 0).resetPci .pf1 0
  { s1 with ctl := { s1.ctl with linkUp := false } }

/-- HOST_LINK_DOWN (R278). -/
def execHostLinkDown (s : State) : Host.Outcome State Fault Refusal := .next s.linkDown

/-- HOST_LINK_UP: the link trains again; it does not in reset or in SLEEP, where the host interface is off (R55, R62). DESIGN CHOICE (log
2). -/
def execHostLinkUp (s : State) : Host.Outcome State Fault Refusal :=
  .next (if s.ctl.phase = .inReset ∨ s.ctl.mode = .sleep then s else { s with ctl := { s.ctl with linkUp := true } })

/-! ### Doorbells (R281, R282) -/

/-- An ignored doorbell: DB_ERR, and the first one since the last read is recorded (R281, R316). -/
def State.dbError (s : State) (fn : Fn) (v : Word) : State :=
  let s1 :=
    if s.hq.dbErrHeld then s
    else
      ((s.setFld Pg.hostq Reg.HOSTQ_DB_ERR_INFO_VALUE (Word.bits v 0 19)).setFld Pg.hostq Reg.HOSTQ_DB_ERR_INFO_FUNC
        (fnNum fn)).setHq { s.hq with dbErrHeld := true }
  s1.raise Pg.hostq Reg.HOSTQ_EVENT_DB_ERR

/-- The doorbell order numbers of `n` entries made available together. They lie 2^20 apart, so that late entries find room
between them (R295). -/
def orderNums (seq n : Nat) : List Nat := (List.range n).map fun i => (seq + i + 1) * 2 ^ 20

/-- The effect of a doorbell (R281, R282). -/
def State.ring (s : State) (fn : Fn) (v : Word) : State :=
  let index := wfld v Reg.HOSTQ_DOORBELL_INDEX
  let k := qkey fn (wfld v Reg.HOSTQ_DOORBELL_QID)
  if wfld v Reg.HOSTQ_DOORBELL_HEAD = 1 then
    let q := s.hq.cqs.get k
    if q.live = false ∨ q.size ≤ index ∨ (q.tail + q.size - q.head) % q.size < (index + q.size - q.head) % q.size then
      s.dbError fn v
    else s.putCq k { q with head := index, held := q.held && decide (index = q.head) }
  else
    let q := s.hq.sqs.get k
    if q.live = false ∨ q.size ≤ index then s.dbError fn v
    else
      let n := (index + q.size - q.tail) % q.size
      let late := if s.sqStopped k then q.late + n else q.late
      let s1 := s.putSq k { q with tail := index, late := late }
      s1.setHq { s1.hq with
        avail := s1.hq.avail ++ (orderNums s1.hq.dbSeq n).map fun o => (k, o)
        dbSeq := s1.hq.dbSeq + n }

/-- The effect of a write of DOORBELL (R281). -/
def writeDoorbell (r : Req) (v : Word) (s : State) : State :=
  withWrite r Pg.hostq 0x040 v s fun s _ _ => s.ring ((reqFn? r).getD .pf0) v

/-- DOORBELL (R281). -/
def execDoorbell (r : Req) (v : Word) (s : State) : Host.Outcome State Fault Refusal := .next (writeDoorbell r v s)

/-! ### Arbitration and fetch (R283, R288, R289, R293, R295) -/

/-- Whether a tag is in the range kept for admin queues (R288). DESIGN CHOICE (log 49). -/
def adminTag (t : Nat) : Bool := decide (16320 ≤ t)

/-- The number of free tags outside the admin range (R288). -/
def State.freeTags (s : State) : Nat := 16320 - (s.hq.cmds.filter fun e => e.2.live && !adminTag e.1).length

/-- The number of free tags of the admin range (R288). -/
def State.freeAdminTags (s : State) : Nat := 64 - (s.hq.cmds.filter fun e => e.2.live && adminTag e.1).length

/-- The queues that hold available entries and may be fetched from (R282, R283, R316). -/
def State.readyQueues (s : State) : List Nat :=
  if s.on Pg.hostq Reg.HOSTQ_CTRL_ENABLE then
    (List.range 128).filter fun k => (s.hq.avail.any fun e => decide (e.1 = k)) && !s.sqStopped k
  else []

/-- The doorbell order of a queue's oldest available entry. -/
def State.oldestOf (s : State) (k : Nat) : Nat :=
  match s.hq.avail.find? fun e => decide (e.1 = k) with
  | some e => e.2
  | none => 0

/-- The oldest order among the available entries of some queues. -/
def State.oldest (s : State) (ks : List Nat) : Nat := (ks.map s.oldestOf).foldl min (2 ^ 64)

/-- Whether an admin entry finds a tag of the admin range, or any entry one outside it: the last free general tag is only for the oldest
available entry (R288, R295). DESIGN CHOICE (log 49). -/
def State.tagKind (s : State) (k : Nat) (admin : Bool) : Bool :=
  if admin then decide (k % 64 = 0) && decide (0 < s.freeAdminTags)
  else decide (1 < s.freeTags) || (decide (s.freeTags = 1) && decide (s.oldestOf k = s.oldest s.readyQueues))

/-- Whether a queue's oldest entry may be given a tag (R288, R295). DESIGN CHOICE (log 49). -/
def State.tagFor (s : State) (k : Nat) : Bool := s.tagKind k true || s.tagKind k false

/-- The next queue in round robin after the last served, from an ascending list. -/
def rrNext (ks : List Nat) (last : Nat) : Nat :=
  match ks.find? fun k => decide (last < k) with
  | some k => k
  | none => ks.headD 0

/-- One class served: the queue in its turn, or the next in round robin with a new turn of 2^BURST commands (R289). -/
def Hq.serve (h : Hq) (cls : Nat) (ks : List Nat) (burst : Nat) : Nat × Hq :=
  let last := h.last.get cls
  let left := h.turn.get cls
  if ks.contains last ∧ 0 < left then (last, { h with turn := h.turn.put cls (left - 1) })
  else
    let k := rrNext ks last
    (k, { h with last := h.last.put cls k, turn := h.turn.put cls (2 ^ min 6 burst - 1) })

/-- Weighted round robin over HIGH, MEDIUM and LOW: the class in its round, or the next that holds an entry (R289). -/
def wrrClass (h : Hq) (byCls : Nat → List Nat) (weight : Nat → Nat) : Nat × Hq :=
  if 0 < h.clsLeft ∧ (byCls (h.cls + 1)).isEmpty = false then (h.cls + 1, { h with clsLeft := h.clsLeft - 1 })
  else
    let next := ([1, 2, 3].map fun i => (h.cls + i) % 3).find? fun c => !(byCls (c + 1)).isEmpty
    let c := next.getD 0
    (c + 1, { h with cls := c, clsLeft := max 1 (weight c) - 1 })

/-- The queue that arbitration chooses among candidates, and the tables after it (R289). DESIGN CHOICE (log 49). -/
def State.arbitrate (s : State) (ks : List Nat) : Nat × Hq :=
  let byCls := fun c => ks.filter fun k => decide ((s.hq.sqs.get k).cls = c)
  let burst := s.fld Pg.hostq Reg.HOSTQ_ARB_BURST
  let weight := fun c =>
    if c = 0 then s.fld Pg.hostq Reg.HOSTQ_ARB_WEIGHT_H
    else if c = 1 then s.fld Pg.hostq Reg.HOSTQ_ARB_WEIGHT_M
    else s.fld Pg.hostq Reg.HOSTQ_ARB_WEIGHT_L
  if (byCls 0).isEmpty then
    let r := wrrClass s.hq byCls weight
    r.2.serve r.1 (byCls r.1) burst
  else s.hq.serve 0 (byCls 0) burst

/-- The checks that a command's own bytes decide, made when it is fetched: status 0x01 for an opcode that is not known, not for this kind of
queue or not for this function; 0x10 for a stale generation or a fenced device; 0x02 for a bad field (R279, R285, R292, R293, R303, R500).
DESIGN CHOICE (log 49). -/
def State.fetchStatus (s : State) (c : Cmd) (dup : Bool) : Nat × Nat :=
  let gen := s.fld Pg.array Reg.ARRAY_GENERATION
  if !knownOps.contains c.op ∨ (decide (c.op < 0x80) ≠ decide (c.sqid = 0)) ∨ (c.fn = .pf1 ∧ pf0Ops.contains c.op) then
    (0x01, 0)
  else if !exemptOps.contains c.op ∧ (s.on Pg.array Reg.ARRAY_STATE_FENCED ∨ (gen ≠ 0 ∧ c.generation ≠ gen)) then (0x10, 8)
  else
    match badField c dup with
    | some f => (0x02, f)
    | none => (0, 0xFFFF)

/-- The fetched entry takes its tag; a command that its own bytes decide completes at once (R284, R288, R292, R293). An entry made available
while its queue's fetching was stopped is ordered after every fetched command, and no entry before an earlier one of its queue (R294, R295).
DEDUCED (log 51). -/
def State.accept (s : State) (k tag : Nat) (entry : List Byte) : State :=
  let q := s.hq.sqs.get k
  let order0 := s.oldestOf k
  let fetched := if 0 < q.late then (s.hq.cmds.map fun e => e.2.order).foldl max 0 + 1 else 0
  let order := max (max order0 fetched) (q.lastOrder + 1)
  let raw := padTo 64 entry
  let fn := fnOf (k / 64)
  let head := (q.head + 1) % q.size
  let c : Cmd := { live := true, uid := s.hq.uidSeq + 1, fn := fn, sqid := k % 64, cqid := q.cqid, cid := leAt raw 2 2,
                   sqHead := head, order := order, raw := raw }
  let dup := s.hq.cmds.any fun e =>
    e.2.live && decide (e.2.fn = fn) && decide (e.2.sqid = k % 64) && decide (e.2.cid = c.cid)
  let s1 := (s.putSq k { q with head := head, late := q.late - 1, lastOrder := order }).putCmd tag c
  let s2 := s1.setHq { s1.hq with
    uidSeq := s.hq.uidSeq + 1
    avail := s1.hq.avail.filter fun e => decide (e ≠ (k, order0)) }
  let st := s.fetchStatus c dup
  if st.1 = 0 then s2
  else if st.1 = 0x10 then
    ((s2.count Pg.array Reg.ARRAY_STALE_CMDS).raise Pg.hostq Reg.HOSTQ_EVENT_GEN_REJECT).finishTag tag 0x10 0 0 8
  else s2.finishTag tag st.1 0 0 st.2

/-- The pauses of fetching as they stand: of the I/O queues while no general tag is free, of the admin queues while none of either range is;
TAGS_EXHAUSTED rises as one begins (R288). DESIGN CHOICE (log 49). -/
def State.notePause (s : State) : State :=
  let ready := s.readyQueues
  let io := decide (s.freeTags = 0) && ready.any fun k => decide (k % 64 ≠ 0)
  let admin := decide (s.freeTags = 0 ∧ s.freeAdminTags = 0) && ready.any fun k => decide (k % 64 = 0)
  (s.setHq { s.hq with exhausted := io, exhaustedAdmin := admin }).raiseIf ((io && !s.hq.exhausted) || (admin && !s.hq.exhaustedAdmin))
    Pg.hostq Reg.HOSTQ_EVENT_TAGS_EXHAUSTED

/-- A failed read of an entry stops its queue (R283). -/
def State.sqFault (s : State) (k : Nat) : State :=
  let f := if k % 64 < 32 then Reg.HOSTQ_SQ_FAULT_LO else Reg.HOSTQ_SQ_FAULT_HI
  let n := (s.hq.avail.filter fun e => decide (e.1 = k)).length
  let p := hqPage (fnOf (k / 64))
  ((s.putSq k { s.hq.sqs.get k with fault := true, late := n }).setFld p f (s.fld p f ||| 2 ^ (k % 32))).raise Pg.hostq
    Reg.HOSTQ_EVENT_SQ_FAULT

/-- One fetch: arbitration chooses the queue; a failed read stops it with SQ_FAULT; with no tag of the right kind fetching pauses (R283,
R288, R289). DESIGN CHOICE (log 49). -/
def State.fetch (s : State) (tag : Nat) (entry : Option (List Byte)) : State :=
  let s0 := s.notePause
  let ks := s0.readyQueues.filter s0.tagFor
  if ks.isEmpty then s0
  else
    let a := s0.arbitrate ks
    match entry with
    | none => (s0.setHq a.2).sqFault a.1
    | some e =>
      if tag < 16384 ∧ (s0.hq.cmds.get tag).live = false ∧ s0.tagKind a.1 (adminTag tag) then (s0.setHq a.2).accept a.1 tag e else s0

/-- COMMAND_FETCH (R288). -/
def execCommandFetch (tag : Nat) (entry : Option (List Byte)) (s : State) : Host.Outcome State Fault Refusal :=
  .next (s.fetch tag entry)

/-! ### Posting completions (R282, R287, R302) -/

/-- The 16 bytes of a completion (R287). -/
def completionBytes (c : Cmd) (tag : Nat) (phase : Bool) : List Byte :=
  leBytes 4 c.result ++ leBytes 2 c.sqHead ++ leBytes 1 c.sqid ++ [0] ++ leBytes 2 c.cid
    ++ leBytes 2 (tag % 16384 + if phase then 32768 else 0) ++ leBytes 1 c.status ++ leBytes 1 c.detail ++ [0, 0]

/-- A completion queue after a post, and whether it signals: the admin queue signals every entry; an I/O queue while IEN is 1
signals at c entries or for NOW (R280, R302). -/
def Cq.afterPost (q : Cq) (qid : Nat) (now : Bool) : Cq × Bool :=
  let tail := (q.tail + 1) % q.size
  let phase := if tail = 0 then !q.phase else q.phase
  let unsig := q.unsig + 1
  let sig := decide (qid = 0) || (q.ien && (decide (q.cnt ≤ unsig) || now))
  ({ q with tail := tail, phase := phase, unsig := if sig then 0 else unsig }, sig)

/-- The completion of a command written to its queue and its tag freed; a full queue holds it with CQ_FULL (R282, R287, R288,
R299, R302). A completion whose queue is gone is dropped. -/
def State.post (s : State) (tag : Nat) : State :=
  let c := s.hq.cmds.get tag
  if c.live = false ∨ c.stage ≠ .done then s
  else
    let k := qkey c.fn c.cqid
    let q := s.hq.cqs.get k
    if q.live = false then s.putCmd tag default
    else if (q.tail + 1) % q.size = q.head then
      let s1 := s.putCq k { q with held := true }
      let s2 := s1.setHq { s1.hq with
        sqs := s1.hq.sqs.map fun e =>
          if e.1 / 64 = k / 64 ∧ e.2.cqid = c.cqid then
            (e.1, { e.2 with late := (s1.hq.avail.filter fun x => decide (x.1 = e.1)).length })
          else e }
      s2.raise Pg.hostq Reg.HOSTQ_EVENT_CQ_FULL
    else
      let r := q.afterPost c.cqid (c.flag 1)
      let s1 := (s.emit (.hostWrite c.fn (q.base + 16 * q.tail) (completionBytes c tag q.phase))).putCq k r.1
      let s2 := (s1.putCmd tag default).setFld64 Pg.hostq Reg.HOSTQ_DONE_LO Reg.HOSTQ_DONE_HI
        (s1.fld64 Pg.hostq Reg.HOSTQ_DONE_LO Reg.HOSTQ_DONE_HI + 1)
      if r.2 then s2.latch (fnNum c.fn * 64 + q.vector) else s2

/-- COMPLETION_POST (R287). -/
def execCompletionPost (tag : Nat) (s : State) : Host.Outcome State Fault Refusal := .next (s.post tag)

/-- The coalescing time of a queue passes since its oldest unsignalled entry (R302). DESIGN CHOICE (log 3). -/
def State.coalesce (s : State) (fn : Fn) (qid : Nat) : State :=
  let k := qkey fn qid
  let q := s.hq.cqs.get k
  if q.live && q.ien && decide (q.time ≠ 0) && decide (q.unsig ≠ 0) then
    (s.putCq k { q with unsig := 0 }).latch (fnNum fn * 64 + q.vector)
  else s

/-- CQ_COALESCE_TIMEOUT (R302). -/
def execCqCoalesceTimeout (fn : Fn) (qid : Nat) (s : State) : Host.Outcome State Fault Refusal := .next (s.coalesce fn qid)

/-! ### MSI-X messages (R52, R277, R472) -/

/-- What an MSI-X table word holds before the host writes it: a vector's control word has its mask bit set. PRESUMED (log 15). -/
def msixDefault (k : Nat) : Nat := if k % 4 = 3 then 1 else 0

/-- A word of a function's MSI-X table. PRESUMED (log 15). -/
def State.msixWord (s : State) (fn : Fn) (i : Nat) : Nat := Sparse.read msixDefault s.hq.msixTable (fnNum fn * 1024 + i)

/-- A word of a function's MSI-X table written. PRESUMED (log 15). -/
def State.setMsixWord (s : State) (fn : Fn) (i v : Nat) : State :=
  s.setHq { s.hq with msixTable := Sparse.write msixDefault s.hq.msixTable (fnNum fn * 1024 + i) v }

/-- The credit of a function (R472). -/
def State.credit (s : State) : Fn → Nat
  | .pf0 => s.ctl.credit0
  | .pf1 => s.ctl.credit1

/-- The state with the credit of a function set. -/
def State.setCredit (s : State) (fn : Fn) (n : Nat) : State :=
  match fn with
  | .pf0 => { s with ctl := { s.ctl with credit0 := n } }
  | .pf1 => { s with ctl := { s.ctl with credit1 := n } }

/-- Whether a function may send MSI-X messages: they are enabled and the function is not masked, and it is in D0 (R52, R277). PRESUMED (log
15). -/
def PciFn.msixOpen (c : PciFn) : Bool := c.msixOn && !c.msixMask && !c.d3

/-- A vector whose latch is set sends one message and the latch clears; a masked vector or function does not, and without a credit the
message waits and MSIX_THROTTLE is raised once (R52, R472). -/
def State.sendMsix (s : State) (fn : Fn) (vec : Nat) : State :=
  let k := fnNum fn * 64 + vec
  if !s.ctl.latches.contains k ∨ (s.msixWord fn (4 * vec + 3)).testBit 0 ∨ (s.pciFn fn).msixOpen = false then s
  else if s.credit fn = 0 then
    if s.ctl.throttled.contains k then s
    else
      ({ s with ctl := { s.ctl with throttled := insertNat k s.ctl.throttled } } : State).raise Pg.guard
        Reg.GUARD_EVENT_MSIX_THROTTLE
  else
    let s1 := s.setCredit fn (s.credit fn - 1)
    let s2 : State := { s1 with ctl := { s1.ctl with
      latches := s1.ctl.latches.filter fun x => decide (x ≠ k)
      throttled := s1.ctl.throttled.filter fun x => decide (x ≠ k) } }
    s2.emit (.msix fn vec (s.msixWord fn (4 * vec) + 2 ^ 32 * s.msixWord fn (4 * vec + 1)) (s.msixWord fn (4 * vec + 2)))

/-- MSIX_SEND (R52). -/
def execMsixSend (fn : Fn) (vec : Nat) (s : State) : Host.Outcome State Fault Refusal := .next (s.sendMsix fn vec)

/-- The credits refilled by RATE up to BURST (R472). -/
def State.refill (s : State) : State :=
  let rate := max 1 (s.fld Pg.guard Reg.GUARD_MSIX_CAP_RATE)
  let burst := max 1 (s.fld Pg.guard Reg.GUARD_MSIX_CAP_BURST)
  (s.setCredit .pf0 (min burst (s.ctl.credit0 + rate))).setCredit .pf1 (min burst (s.ctl.credit1 + rate))

/-- MSIX_CREDIT_REFILL (R472). -/
def execMsixCreditRefill (s : State) : Host.Outcome State Fault Refusal := .next s.refill

/-! ### Queue commands (R296, R303) -/

/-- The field of a CREATE SQ or CREATE CQ that is out of its range (R279, R285, R303). -/
def badCreate (c : Cmd) : List (Bool × Nat) :=
  [(c.flag 0, 0x01), (decide (c.dptr % 4096 ≠ 0), 0x10), (decide (c.cdw 8 % 64 = 0 ∨ c.cdw 8 / 65536 % 4096 = 0), 0x20)]

/-- The field of a CREATE SQ that is out of its range (R279, R290, R303). DEDUCED (log 48). -/
def badCreateSq (c : Cmd) : Option Nat :=
  firstBad (badCreate c ++ [(decide (c.cdw 9 % 64 = 0 ∨ (c.cdw 9 / 256 % 4 = 0 ∧ c.fn = .pf1)), 0x24)])

/-- CREATE SQ: the queue comes to life, or the status of the first failed check (R279, R301, R303). DEDUCED (log 48). -/
def runCreateSq (tag : Nat) (c : Cmd) (s : State) : State :=
  let size := c.cdw 8 / 65536 % 4096 + 1
  let cqid := c.cdw 9 % 64
  let k := qkey c.fn (c.cdw 8 % 64)
  if (s.hq.sqs.get k).live ∨ (s.hq.cqs.get (qkey c.fn cqid)).live = false then s.finishTag tag 0x0C 0 0 0xFFFF
  else if s.queueOk c.fn c.dptr (64 * size) false = false then s.failBuf tag 0x11
  else (s.putSq k { live := true, base := c.dptr, size := size, cqid := cqid, cls := c.cdw 9 / 256 % 4 }).finishTag tag 0 0 0 0xFFFF

/-- CREATE_SQ (R303). -/
def execCreateSq (tag : Nat) (s : State) : Host.Outcome State Fault Refusal :=
  .next (withCmd tag 0x01 s (fun c _ => badCreateSq c) (runCreateSq tag))

/-- The commands of a submission queue that have not passed their commit point, with their tags. -/
def State.openOf (s : State) (fn : Fn) (qid : Nat) : List (Nat × Cmd) :=
  s.hq.cmds.filter fun e =>
    e.2.live && decide (e.2.fn = fn) && decide (e.2.sqid = qid) && !decide (e.2.stage = .done)

/-- A command ended before its effect is complete: what has begun runs on without it (R278, R296). -/
def State.endCmd (s : State) (tag status : Nat) : State :=
  let c := s.hq.cmds.get tag
  let s1 := if c.lingers then s.setHq { s.hq with ghosts := s.hq.ghosts ++ [c] } else s
  (s1.dropJobs fun u => decide (u = c.uid)).finishTag tag status 0 0 0xFFFF

/-- The QID of a command that queue 0 may not take (R303). DEDUCED (log 48). -/
def badQid (c : Cmd) : Option Nat := firstBad [(decide (c.cdw 8 % 64 = 0), 0x20)]

/-- DELETE SQ: the queue is gone with its entries not yet fetched and its fault, and its commands end with status 0x08; RESULT counts them
(R283, R303). DEDUCED (log 48). -/
def runDeleteSq (tag : Nat) (c : Cmd) (s : State) : State :=
  let qid := c.cdw 8 % 64
  let k := qkey c.fn qid
  if (s.hq.sqs.get k).live = false then s.finishTag tag 0x0C 0 0 0xFFFF
  else
    let ended := s.openOf c.fn qid
    let s1 := ended.foldl (fun s e => s.endCmd e.1 0x08) s
    let s2 := (s1.putSq k default).setHq
      { (s1.putSq k default).hq with avail := s1.hq.avail.filter fun e => decide (e.1 ≠ k) }
    let f := if qid < 32 then Reg.HOSTQ_SQ_FAULT_LO else Reg.HOSTQ_SQ_FAULT_HI
    let p := hqPage c.fn
    let s3 := if (s2.fld p f).testBit (qid % 32) then s2.setFld p f (s2.fld p f - 2 ^ (qid % 32)) else s2
    s3.finishTag tag 0 ended.length 0 0xFFFF

/-- DELETE_SQ (R303). -/
def execDeleteSq (tag : Nat) (s : State) : Host.Outcome State Fault Refusal := .next (withCmd tag 0x02 s (fun c _ => badQid c) (runDeleteSq tag))

/-- CREATE CQ (R279, R301, R302, R303). DEDUCED (log 48). -/
def runCreateCq (tag : Nat) (c : Cmd) (s : State) : State :=
  let size := c.cdw 8 / 65536 % 4096 + 1
  let k := qkey c.fn (c.cdw 8 % 64)
  if (s.hq.cqs.get k).live then s.finishTag tag 0x0C 0 0 0xFFFF
  else if s.queueOk c.fn c.dptr (16 * size) true = false then s.failBuf tag 0x11
  else
    (s.putCq k
      { live := true, base := c.dptr, size := size, phase := true, vector := c.cdw 9 % 64,
        ien := (c.cdw 9).testBit 8, cnt := c.cdw 10 % 256, time := c.cdw 10 / 256 % 256 }).finishTag tag 0 0 0 0xFFFF

/-- CREATE_CQ (R303). -/
def execCreateCq (tag : Nat) (s : State) : Host.Outcome State Fault Refusal :=
  .next (withCmd tag 0x03 s (fun c _ => firstBad (badCreate c)) (runCreateCq tag))

/-- DELETE CQ: refused while a submission queue posts to it (R303). DEDUCED (log 48). -/
def runDeleteCq (tag : Nat) (c : Cmd) (s : State) : State :=
  let qid := c.cdw 8 % 64
  let k := qkey c.fn qid
  let used := s.hq.sqs.any fun e => e.2.live && decide (e.1 / 64 = fnNum c.fn) && decide (e.2.cqid = qid)
  if (s.hq.cqs.get k).live = false ∨ used then s.finishTag tag 0x0C 0 0 0xFFFF
  else (s.putCq k default).finishTag tag 0 0 0 0xFFFF

/-- DELETE_CQ (R303). -/
def execDeleteCq (tag : Nat) (s : State) : Host.Outcome State Fault Refusal := .next (withCmd tag 0x04 s (fun c _ => badQid c) (runDeleteCq tag))

/-- SET COALESCING (R303). DEDUCED (log 48). -/
def runSetCoalescing (tag : Nat) (c : Cmd) (s : State) : State :=
  let k := qkey c.fn (c.cdw 8 % 64)
  let q := s.hq.cqs.get k
  if q.live = false then s.finishTag tag 0x0C 0 0 0xFFFF
  else (s.putCq k { q with cnt := c.cdw 9 % 256, time := c.cdw 9 / 256 % 256 }).finishTag tag 0 0 0 0xFFFF

/-- SET_COALESCING (R303). -/
def execSetCoalescing (tag : Nat) (s : State) : Host.Outcome State Fault Refusal :=
  .next (withCmd tag 0x08 s (fun c _ => badQid c) (runSetCoalescing tag))

end Sys2Proof.Machine
end

