-- ==== Sys2Proof/Config.lean ====
section
/-! DEFINITION. What the manual leaves open: free values, as constants without a body, so that a claim about them holds for
every value they could have. -/

namespace Sys2Proof.Config

/-- A free number, told apart by a label and by the model's own counter (State.seed) or an operand. DESIGN CHOICE (log 93). -/
opaque free : Nat → Nat → Nat

/-- A free list of bytes, told apart by a label and a list of numbers. DESIGN CHOICE (log 93). -/
opaque freeBytes : Nat → List Nat → List (BitVec 8)

/-- The chain head that the Condenser's hash gives three bytes, one of 32,768 (R421). DESIGN CHOICE (log 77). -/
opaque deflateHash : Nat → Nat

/-- The code lengths that package-merge gives the frequencies of an alphabet under a longest length, where several sets have the same cost
(R422). DESIGN CHOICE (log 77). -/
opaque codeLengths : Nat → List Nat → List Nat

/-- The run-length symbols, with their extra bits, that a dynamic block's header spells its code lengths by (R422). DESIGN CHOICE (log 77).
-/
opaque lengthRuns : List Nat → List (Nat × Nat)

/-- The bits that an encoder core writes for a CTB by its own decisions, which are a function of the stream's settings with the picture's
type and POC, the source samples, the reference samples, the unit's state (unit, CTB, QP) and the bits of the unit before it (R239, R258).
DESIGN CHOICE (log 46). -/
opaque ctbBits : List Nat → List (BitVec 8) → List (List Nat) → List Nat → List Bool → List Bool

/-- The bits of a floor CTB, its syntax given as numbers, after the bits of the unit before it (R249). DESIGN CHOICE (log 46). -/
opaque floorBits : List Nat → List Bool → List Bool

/-- The bits that end a unit (R249). DESIGN CHOICE (log 46). -/
opaque endBits : List Bool → List Bool

/-- The samples that ITU-T H.265 gives a picture from its parameter sets, its slice NAL units and the samples of its references, plane by
plane in raster order (R258, R261). PRESUMED (log 47). -/
opaque hevcSamples : List (List (BitVec 8)) → List (List (BitVec 8)) → List (List Nat) → List Nat

/-- Whether a CTB of a picture is decoded before a syntax error ends its NAL unit, from the same input (R263). PRESUMED (log 47). -/
opaque hevcCtb : List (List (BitVec 8)) → List (List (BitVec 8)) → List (List Nat) → Nat → Bool

/-- Whether the slice data of a picture hold a syntax error, from the same input (R263). PRESUMED (log 47). -/
opaque hevcError : List (List (BitVec 8)) → List (List (BitVec 8)) → List (List Nat) → Bool

/-- The payload identifier of SMPTE ST 352 for FMT, RATE, link number, transfer characteristic (0 SDR, 1 PQ, 2 HLG) and colorimetry (0
BT.709, 1 BT.2020) (R360). PRESUMED (log 65). -/
opaque payloadId : Nat → Nat → Nat → Nat → Nat → Nat

/-- The order in which an SDI link sends the luma and chroma words of a line's active video, by the carriage of R346: 1 HD, 2 3G, 3 6G, 4
12G (R359, R368). PRESUMED (log 65). -/
opaque sdiOrder : Nat → List Nat → List Nat → List Nat

/-- The power in mW that the block model gives a configuration at Tj 105 °C, the configuration as its stopped-only words (R72). DESIGN
CHOICE (log 27). -/
opaque powerDemand : List Nat → Nat

end Sys2Proof.Config
end

