-- ==== Sys2Proof/Machine/Link.lean ====
section
/-! DEFINITION. The Rildal Link (R89 to R119, R123): bring-up, lane states, relock and N−1 fallback, the back-channel and the
assembly of lines from lanes. What Ingress does with a line stands in Ingress.lean. -/

namespace Sys2Proof.Machine

/-! ### Ports and lanes (R89) -/

/-- A port's state: 0 is A, 1 is B. -/
def State.port (s : State) (k : Nat) : PortSt := if k = 0 then s.portA else s.portB

/-- The state with a port's state replaced. -/
def State.setPort (s : State) (k : Nat) (p : PortSt) : State := if k = 0 then { s with portA := p } else { s with portB := p }

/-- Port A owns all sixteen lanes (R89). -/
def State.ganged (s : State) : Bool := s.on (Pg.link 0) Reg.LINK_CTRL_GANG

/-- The port that owns a sensor lane (R89). -/
def State.portOf (s : State) (lane : Nat) : Nat := if s.ganged then 0 else lane / 8

/-- The sensor lanes of a port (R89). -/
def State.portLanes (s : State) (k : Nat) : List Nat := (List.range 16).filter fun l => decide (s.portOf l = k)

/-- The lane page's status of a sensor lane: locked while it holds block lock and neither LOS nor CDR loss is set (R106). -/
def State.laneLocked (s : State) (lane : Nat) : Bool :=
  s.on (Pg.lane lane) Reg.LANE_RX_STATUS_BLOCK_LOCK && s.on (Pg.lane lane) Reg.LANE_RX_STATUS_CDR_LOCK
    && !s.on (Pg.lane lane) Reg.LANE_RX_STATUS_LOS

/-- Whether a port hears its sensor: a lane of its map holds block lock, from the lowest-numbered of which it takes SOF, EOF, META and SMSG
(R96). A port B that GANG has taken the lanes from hears nothing (R89). -/
def State.hears (s : State) (k : Nat) : Bool :=
  !(decide (k = 1) && s.ganged) && (s.port k).map.any fun l => s.on (Pg.lane l) Reg.LANE_RX_STATUS_BLOCK_LOCK

/-- Whether a port delivers data from a physical lane: it is locked and has joined (R110). DEDUCED (log 31). -/
def State.laneLive (s : State) (k lane : Nat) : Bool := s.laneLocked lane && (s.port k).joined.contains lane

/-- The lane map shown in LANEMAP0 and LANEMAP1; the nibble of a logical lane that the map does not have reads 0 (R97, R123). DESIGN CHOICE
(log 98). -/
def mapWord (m : List Nat) (first : Nat) : Nat :=
  ((List.range 8).map fun i => m.getD (first + i) 0 % 16 * 16 ^ i).sum

/-- The state with a port's lane map set and shown. -/
def State.setMap (s : State) (k : Nat) (m : List Nat) : State :=
  ((s.setPort k { s.port k with map := m }).setFld (Pg.link k) Reg.LINK_LANEMAP0 (mapWord m 0)).setFld (Pg.link k)
    Reg.LINK_LANEMAP1 (mapWord m 8)

/-- What LINK.STATE.PORT reads (R89, R97, R113, R114). -/
def State.portCode (s : State) (k : Nat) : Nat :=
  let p := s.port k
  if k = 1 ∧ s.ganged then 6
  else
    match p.phase with
    | .down => 0
    | .training | .adapting | .eqset => 1
    | .linked =>
      let live := p.map.filter (s.laneLive k)
      if live.isEmpty then 0
      else if !p.streaming then 2
      else if live.length < p.map.length then 4
      else if s.on (Pg.link k) Reg.LINK_FALLBACK_DONE then 5
      else 3

/-- STATE.PORT and STATE.LANES_LIVE brought up to date (R114, R123). -/
def State.showPort (s : State) (k : Nat) : State :=
  (s.setFld (Pg.link k) Reg.LINK_STATE_PORT (s.portCode k)).setFld (Pg.link k) Reg.LINK_STATE_LANES_LIVE
    (if (s.port k).phase = .linked then ((s.port k).map.filter (s.laneLive k)).length else 0)

/-- The count LOSS_FRAMES shows: that of the oldest outage, 0 with none (R111). DEDUCED (log 23). -/
def State.showLoss (s : State) (k : Nat) : State :=
  let n := match (s.port k).outages with | e :: _ => e.2 | [] => 0
  s.setFld (Pg.link k) Reg.LINK_FALLBACK_LOSS_FRAMES (min 255 n)

/-! ### The back-channel (R115, R116) -/

/-- The payloads of a message's blocks: CMD with SEQ, OP, COUNT and ARG, the data blocks, and CEND with the CRC-32C of the blocks before it
(R91, R115). -/
def BcMsg.blocks (m : BcMsg) : List Nat :=
  let cmd := 0xD4 + m.seq % 256 * 2 ^ 8 + m.op % 16 * 2 ^ 16 + m.data.length % 32 * 2 ^ 20 + m.arg % 2 ^ 32 * 2 ^ 25
  let body := cmd :: m.data.map fun d => d.1 % 2 ^ 32 + d.2 % 2 ^ 32 * 2 ^ 32
  body ++ [0xE1 + crc32c (body.flatMap (leBytes 8)) * 2 ^ 8]

/-- A message put on the wire. DEDUCED (log 36). -/
def State.sendBc (s : State) (k : Nat) (m : BcMsg) : State :=
  (s.setPort k { s.port k with cur := some m }).emit (.bc k m.op m.seq m.arg m.data m.blocks)

/-- A new message: it takes the next SEQ and is sent, or waits behind the message in progress (R116). DEDUCED (log 36). -/
def State.postBc (s : State) (k op arg : Nat) (data : List (Nat × Nat)) (use : BcUse) : State :=
  let p := s.port k
  let m : BcMsg := { op := op, arg := arg, data := data, use := use, seq := p.seq }
  let s1 := s.setPort k { p with seq := (p.seq + 1) % 256 }
  match p.cur with
  | none => s1.sendBc k m
  | some _ => s1.setPort k { s1.port k with queue := p.queue ++ [m] }

/-- The message in progress is over and the next one is sent (R116). DEDUCED (log 36). -/
def State.nextBc (s : State) (k : Nat) : State :=
  let p := s.port k
  match p.queue with
  | [] => s.setPort k { p with cur := none }
  | m :: t => (s.setPort k { p with queue := t }).sendBc k m

/-- The FWR message of a port for a frame: the active entries of its table; COUNT 0 sends none (R117, R123). DEDUCED (log 32). -/
def State.sendFwr (s : State) (k frame : Nat) : State :=
  let n := min 16 (s.actv (Pg.link k) Reg.LINK_FWR_COUNT)
  if n = 0 then s
  else
    let data := (List.range n).map fun i =>
      (s.actv (Pg.link k) (Reg.LINK_FWR_ADDR i), s.actv (Pg.link k) (Reg.LINK_FWR_DATA i))
    let s1 := s.postBc k 2 (frame % 2 ^ 32) data .plain
    s1.setPort k { s1.port k with fwr := frame :: (s1.port k).fwr }

/-- The tag a port expects for a frame: bits [15:0] of the newest FWR sent in the take for a frame at or below it (R117). -/
def PortSt.expected (p : PortSt) (frame : Nat) : Option Nat := (p.fwr.find? fun f => decide (f ≤ frame)).map (· % 65536)

/-- Whether a received tag is older than the expected one (R117). -/
def tagOlder (expected tag : Nat) : Bool :=
  let d := (expected % 65536 + 65536 - tag % 65536) % 65536
  decide (1 ≤ d) && decide (d ≤ 32767)

/-- The mailbox operation ends with a RESULT and SENSOR_MSG (R116, R123). -/
def State.endMailbox (s : State) (k result : Nat) : State :=
  ((s.setFld (Pg.link k) Reg.LINK_BC_CTRL_BUSY 0).setFld (Pg.link k) Reg.LINK_BC_CTRL_RESULT result).raise (Pg.link k)
    Reg.LINK_EVENT_SENSOR_MSG

/-- Every message in progress or waiting is dropped without BC_FAIL; a mailbox operation among them ends as timed out. DESIGN CHOICE (log
100). -/
def State.dropBc (s : State) (k : Nat) : State :=
  let p := s.port k
  let boxed := (p.cur.toList ++ p.queue).any fun m => decide (m.use = .mailbox)
  let s1 := s.setPort k { p with cur := none, queue := [] }
  if boxed then s1.endMailbox k 2 else s1

/-! ### Bring-up (R97 to R104) -/

/-- The port gives up its bring-up and is DOWN, with an event (R99, R101, R102, R103). -/
def State.trainEnds (s : State) (k : Nat) (e : Fld) : State :=
  ((s.setPort k { s.port k with phase := .down, trained := [], joined := [], bcUp := false, undo := none }).showPort k).raise
    (Pg.link k) e

/-- The LINK registers that a bring-up changes, by key. -/
def trainKeys (k : Nat) : List Nat :=
  [Reg.LINK_LANEMAP0, Reg.LINK_LANEMAP1, Reg.LINK_SKEW, Reg.LINK_FALLBACK_DONE].map fun f => keyOf f (Pg.link k)

/-- What a bring-up of a port may have to put back (R102). -/
def State.trainUndo (s : State) (k : Nat) : TrainUndo :=
  let p := s.port k
  { bcUp := p.bcUp, map := p.map, fullMap := p.fullMap, regs := (trainKeys k).map fun a => (a, s.rd a),
    inverts := (s.portLanes k).map fun l => (l, s.fld (Pg.lane l) Reg.LANE_RX_CFG_POL_INVERT) }

/-- A bring-up that times out leaves the port DOWN with TRAIN_FAIL, and everything else as it was before TRAIN (R102). DESIGN CHOICE (log
98). -/
def State.trainFails (s : State) (k : Nat) : State :=
  let s1 := s.dropBc k
  let s2 :=
    match (s1.port k).undo with
    | none => s1
    | some u =>
      let s2 := u.regs.foldl (fun (s : State) (e : Nat × Word) => s.wr e.1 e.2) s1
      u.inverts.foldl (fun (s : State) (e : Nat × Nat) => s.setFld (Pg.lane e.1) Reg.LANE_RX_CFG_POL_INVERT e.2) s2
  let u := ((s1.port k).undo).getD { map := (s1.port k).map, fullMap := (s1.port k).fullMap }
  ((s2.setPort k { s2.port k with
    phase := .down, trained := [], joined := [], undo := none, bcUp := u.bcUp, map := u.map, fullMap := u.fullMap }).showPort k).raise
      (Pg.link k) Reg.LINK_EVENT_TRAIN_FAIL

/-- Step 7 of bring-up: the port is LINKED, SENSOR_CAPS is copied, the heartbeat may run and LINK_UP rises (R97). A capability is one that
the TRAIN blocks of every lane report. DESIGN CHOICE (log 98). -/
def State.linked (s : State) (k : Nat) : State :=
  let p := s.port k
  let s1 := s.setPort k { p with phase := .linked, bcUp := true, joined := p.map, outages := [], undo := none }
  let fb := p.trained.all (fun b => b.fallback)
  let pe := p.trained.all (fun b => b.preemph)
  let s2 := (s1.setOn (Pg.link k) Reg.LINK_SENSOR_CAPS_FALLBACK fb).setOn (Pg.link k) Reg.LINK_SENSOR_CAPS_PREEMPH pe
  (s2.showPort k).raise (Pg.link k) Reg.LINK_EVENT_LINK_UP

/-- EQSET with PREEMPH, a value above its range acting as the maximum (R103, R105, R115). -/
def State.sendEqset (s : State) (k : Nat) : State :=
  let pre := s.fld (Pg.link k) Reg.LINK_PREEMPH_PRE
  let post := s.fld (Pg.link k) Reg.LINK_PREEMPH_POST
  let s1 := s.postBc k 6 0 [(min 6 pre + 16 * min 10 post, 0)] .eqset
  s1.setPort k { s1.port k with eqLast := some (pre, post) }

/-- Whether TRAIN starts a bring-up: the capture group is stopped, ENABLE is 1, the port has its lanes and the lane count is valid (R89,
R97). -/
def State.mayTrain (s : State) (k : Nat) : Bool :=
  let lanes := s.fld (Pg.link k) Reg.LINK_CFG_LANES
  !s.ctl.capRun && s.on (Pg.link k) Reg.LINK_CTRL_ENABLE && !(decide (k = 1) && s.ganged) && decide (0 < lanes)
    && decide (lanes ≤ if s.ganged then 16 else 8)

/-- Step 1 of bring-up: STATE.PORT reads TRAINING and the back-channel sends TRAIN blocks (R97). DESIGN CHOICE (log 100). -/
def State.startTraining (s : State) (k : Nat) : State :=
  let undo := match (s.port k).undo with | some u => u | none => s.trainUndo k
  let s0 := s.dropBc k
  let s1 := s0.setPort k { s0.port k with
    phase := .training, trained := [], map := [], fullMap := [], joined := [], outages := [], bcUp := false, streaming := false,
    undo := some undo }
  let s2 := (s1.setFld (Pg.link k) Reg.LINK_FALLBACK_DONE 0).setFld (Pg.link k) Reg.LINK_FALLBACK_RETIRED 0
  ((s2.setFld (Pg.link k) Reg.LINK_SKEW 0).showPort k).emit (.train k)

/-- A port loses its lane set because GANG gives its lanes another owner: it is DOWN until it trains again. DESIGN CHOICE (log 97). -/
def State.unlinkPort (s : State) (k : Nat) : State :=
  let s1 := s.dropBc k
  ((s1.setPort k { phase := .down, seq := (s1.port k).seq, hbSeq := (s1.port k).hbSeq, bcUp := decide (k = 0) && (s1.port k).bcUp }).setMap
    k []).showPort k

/-- What follows a change of LINKA.CTRL.GANG (R89). DESIGN CHOICE (log 97). -/
def State.gangChanged (s : State) : State := (s.unlinkPort 0).unlinkPort 1

/-- The effect of a write of LINK.CTRL (R89, R97, R123): with TRAIN it starts bring-up, or the whole write is discarded; a change of GANG
takes both ports DOWN. DESIGN CHOICE (log 97). -/
def writeLinkCtrl (r : Req) (k : Nat) (v : Word) (s : State) : State :=
  withWrite r (Pg.link k) 0x008 v s fun s _ new =>
    if k = 1 ∧ s.ganged then s.reject (Pg.link 1)
    else
      let s1 := s.wr (Pg.link k * 0x1000 + 0x008) (new &&& 0xFFFFFFDF)
      if wmSet v Reg.LINK_CTRL_TRAIN && !s1.mayTrain k then s.reject (Pg.link k)
      else
        let s2 := if s1.ganged = s.ganged then s1 else s1.gangChanged
        if wmSet v Reg.LINK_CTRL_TRAIN then s2.startTraining k else s2

/-- The lane map of a trained lane set: the physical lane of each LANE_ID in turn (R97). -/
def mapOf (ts : List TrainBlk) (n : Nat) : List Nat :=
  (List.range n).map fun i => ((ts.find? fun b => decide (b.laneId = i)).map (·.lane)).getD 0

/-- Whether the lane set so far breaks R99: a repeated LANE_ID, one outside the map, another lane count or another port. -/
def laneSetBad (ts : List TrainBlk) (n k : Nat) : Bool :=
  (ts.any fun b => decide (b.lanes ≠ n) || decide (b.port ≠ k))
    || decide ((ts.map (·.laneId)).dedup.length ≠ ts.length)
    || (decide (ts.length = n) && !(List.range n).all fun i => ts.any fun b => decide (b.laneId = i))

/-- Steps 5 and 6 of bring-up, once every lane of the set is locked: deskew, then the adaptation or EQSET (R97, R101, R103). SKEW.MAX holds
a skew above 63 as 63, and shows it with SKEW_ERR as well. DESIGN CHOICE (log 98). -/
def State.trainStep5 (s : State) (k : Nat) : State :=
  let ts := (s.port k).trained
  let n := s.fld (Pg.link k) Reg.LINK_CFG_LANES
  if ts.length < n ∨ ts.all (fun t => s.laneLocked t.lane) = false then s
  else
    let skew := (ts.map (·.skew)).foldl max 0
    let s4 := s.setFld (Pg.link k) Reg.LINK_SKEW (min 63 skew)
    if 32 < skew then s4.trainEnds k Reg.LINK_EVENT_SKEW_ERR
    else
      let s5 := s4.setPort k { s4.port k with fullMap := mapOf ts n }
      if s.on (Pg.link k) Reg.LINK_CTRL_EQ_MODE then
        if ts.all (fun b => b.preemph) then
          (s5.setPort k { s5.port k with phase := .eqset }).sendEqset k
        else s5.trainEnds k Reg.LINK_EVENT_TRAIN_FAIL
      else s5.setPort k { s5.port k with phase := .adapting }

/-- A TRAIN block on a locked lane (R97 to R101, R103, R124): RX_STATUS shows the last one. The first one of a lane in a bring-up sets
POL_INVERT, which a block of normal polarity clears, and adds the lane to the set. DESIGN CHOICE (log 98). -/
def State.rxTrain (s : State) (b : TrainBlk) : State :=
  let k := s.portOf b.lane
  let p := s.port k
  if 16 ≤ b.lane ∨ s.laneLocked b.lane = false then s
  else
    let pg := Pg.lane b.lane
    let s1 := (s.setFld pg Reg.LANE_RX_STATUS_TRAIN_SEEN 1).setOn pg Reg.LANE_RX_STATUS_INVERTED_SEEN b.inverted
    let s2 := (s1.setFld pg Reg.LANE_RX_STATUS_LANE_ID b.laneId).setFld pg Reg.LANE_RX_STATUS_PORT_ID b.port
    if p.phase ≠ .training then s2
    else
      let first := !(p.trained.any fun t => decide (t.lane = b.lane))
      let s3 := if first then s2.setOn pg Reg.LANE_RX_CFG_POL_INVERT b.inverted else s2
      let ts := if first then p.trained ++ [b] else p.trained.map fun t => if t.lane = b.lane then b else t
      let n := s.fld (Pg.link k) Reg.LINK_CFG_LANES
      let s4 := (s3.setPort k { p with trained := ts }).setMap k (mapOf ts n)
      if laneSetBad ts n k then s4.trainEnds k Reg.LINK_EVENT_LANEMAP_ERR else s4.trainStep5 k

/-- RX_TRAIN (R98). -/
def execRxTrain (b : TrainBlk) (s : State) : Host.Outcome State Fault Refusal := .next (s.rxTrain b)

/-- Whether the DFE of a sensor lane adapts: EQ_MODE 0 on a port from step 6 on, and the lane neither in LOS nor out of block lock (R103,
R104). DESIGN CHOICE (log 33). -/
def State.dfeAdapts (s : State) (lane : Nat) : Bool :=
  let k := s.portOf lane
  decide (lane < 16) && !s.on (Pg.link k) Reg.LINK_CTRL_EQ_MODE
    && (decide ((s.port k).phase = .adapting) || decide ((s.port k).phase = .linked))
    && s.on (Pg.lane lane) Reg.LANE_RX_STATUS_BLOCK_LOCK && !s.on (Pg.lane lane) Reg.LANE_RX_STATUS_LOS

/-- The taps that a lane's adaptation has reached by now, whose values the spec does not give (R103): free values. A lane whose adaptation
is frozen keeps its taps (R104). DESIGN CHOICE (log 33). -/
def State.adaptLane (s : State) (lane : Nat) : State :=
  if s.dfeAdapts lane then
    let k := s.portOf lane
    let taps := (List.range 5).map fun i => Config.free 1 (8 * s.seed + i) % 256
    { s.setPort k { s.port k with taps := (s.port k).taps.put lane taps } with seed := s.seed + 1 }
  else s

/-- An adapted tap of a lane (R103). -/
def State.tap (s : State) (lane i : Nat) : Nat := ((s.port (s.portOf lane)).taps.get lane).getD i 0

/-- The 2 ms adaptation of step 6 ends: the taps hold adapted values and the port is LINKED (R97, R103). DESIGN CHOICE (log 33). -/
def State.eqAdapted (s : State) (k : Nat) : State :=
  if (s.port k).phase = .adapting then ((s.port k).map.foldl State.adaptLane s).linked k else s

/-- EQ_ADAPT_DONE (R97). -/
def execEqAdaptDone (port : Nat) (s : State) : Host.Outcome State Fault Refusal := .next (s.eqAdapted port)

/-- TRAIN_CFG.TIMEOUT passes before step 7 (R102). DESIGN CHOICE (log 3). -/
def State.trainTimeout (s : State) (k : Nat) : State :=
  match (s.port k).phase with
  | .training | .adapting | .eqset => s.trainFails k
  | .down | .linked => s

/-- TRAIN_TIMEOUT (R102). -/
def execTrainTimeout (port : Nat) (s : State) : Host.Outcome State Fault Refusal := .next (s.trainTimeout port)

/-! ### Lane states (R104, R106, R110, R113) -/

/-- Whether a lane is a sensor receive lane. -/
def sensorLane (lane : Nat) : Bool := decide (lane < 16)

/-- Whether a lane has a receiver whose losses its page counts (R124). -/
def rxLane (lane : Nat) : Bool := decide (lane < 16) || (decide (22 ≤ lane) && decide (lane ≤ 45))

/-- The count of a lane's run of valid sync headers as it is read. It moves with every block, of which the model has no event: while the
lane holds block lock it is free, and below 64 while it does not (R100, R106). DESIGN CHOICE (log 102). -/
def State.hdrRun (s : State) (lane : Nat) : Nat :=
  if s.on (Pg.lane lane) Reg.LANE_RX_STATUS_BLOCK_LOCK then Config.free 82 s.seed % 256 else Config.free 82 s.seed % 64

/-- What leaving lock does to the port of a lane that was live: with a lane of the map in force LANE_LOSS, an outage, and LINK_DOWN when no
lane is left (R106, R111, R113, R114). `s0` is the state before. -/
def State.lockLost (s0 s : State) (lane : Nat) : State :=
  let k := s0.portOf lane
  let p := s.port k
  if sensorLane lane = false ∨ s0.laneLocked lane = false then s
  else
    let s1 := s.count (Pg.lane lane) Reg.LANE_LOL_COUNT
    let joined := p.joined.filter fun l => decide (l ≠ lane)
    if s0.laneLive k lane = false ∨ p.phase ≠ .linked then s1
    else if p.map.contains lane = false then s1.setPort k { p with joined := joined }
    else
      let s2 := s1.setPort k { p with joined := joined, outages := p.outages ++ [(lane, 0)] }
      let s3 := ((s2.showPort k).showLoss k).raise (Pg.link k) Reg.LINK_EVENT_LANE_LOSS
      s3.raiseIf (((s3.port k).map.filter (s3.laneLive k)).isEmpty) (Pg.link k) Reg.LINK_EVENT_LINK_DOWN

/-- A lane's LOS is set, and its adaptation freezes (R104, R106, R124). DEDUCED (log 30). -/
def State.losSet (s0 : State) (lane : Nat) : State :=
  if rxLane lane = false ∨ (sensorLane lane ∧ s0.on (Pg.lane lane) Reg.LANE_RX_STATUS_LOS) then s0
  else
    let s := s0.adaptLane lane
    let s1 := if sensorLane lane then s.setFld (Pg.lane lane) Reg.LANE_RX_STATUS_LOS 1 else s
    s.lockLost ((s1.count (Pg.lane lane) Reg.LANE_LOS_COUNT).raise (Pg.lane lane) Reg.LANE_EVENT_LOS) lane

/-- LANE_LOS (R106). -/
def execLaneLos (lane : Nat) (s : State) : Host.Outcome State Fault Refusal := .next (s.losSet lane)

/-- A sensor lane's LOS clears (R106). DEDUCED (log 30). -/
def State.losCleared (s : State) (lane : Nat) : State :=
  if sensorLane lane then s.setFld (Pg.lane lane) Reg.LANE_RX_STATUS_LOS 0 else s

/-- LANE_LOS_CLEAR (R106). -/
def execLaneLosClear (lane : Nat) (s : State) : Host.Outcome State Fault Refusal := .next (s.losCleared lane)

/-- A lane's clock recovery loses lock (R106, R124). -/
def State.cdrLost (s : State) (lane : Nat) : State :=
  if rxLane lane = false ∨ (sensorLane lane ∧ s.on (Pg.lane lane) Reg.LANE_RX_STATUS_CDR_LOCK = false) then s
  else if sensorLane lane then
    s.lockLost ((s.setFld (Pg.lane lane) Reg.LANE_RX_STATUS_CDR_LOCK 0).raise (Pg.lane lane) Reg.LANE_EVENT_CDR_LOST) lane
  else (s.count (Pg.lane lane) Reg.LANE_LOL_COUNT).raise (Pg.lane lane) Reg.LANE_EVENT_CDR_LOST

/-- CDR_LOSS (R106). -/
def execCdrLoss (lane : Nat) (s : State) : Host.Outcome State Fault Refusal := .next (s.cdrLost lane)

/-- A sensor lane's clock recovery locks (R97, R106). -/
def State.cdrLocked (s : State) (lane : Nat) : State :=
  if sensorLane lane then s.setFld (Pg.lane lane) Reg.LANE_RX_STATUS_CDR_LOCK 1 else s

/-- CDR_LOCK (R97). -/
def execCdrLock (lane : Nat) (s : State) : Host.Outcome State Fault Refusal := .next (s.cdrLocked lane)

/-- A sensor lane counts 64 valid sync headers and gains block lock (R97, R100, R106). -/
def State.blockLocked (s : State) (lane : Nat) : State :=
  if sensorLane lane then
    (s.setFld (Pg.lane lane) Reg.LANE_RX_STATUS_BLOCK_LOCK 1).setFld (Pg.lane lane) Reg.LANE_RX_STATUS_HDR_RUN 64
  else s

/-- BLOCK_LOCK_GAINED (R106). -/
def execBlockLockGained (lane : Nat) (s : State) : Host.Outcome State Fault Refusal := .next (s.blockLocked lane)

/-- A sensor lane loses block lock; its run of valid headers has ended and its adaptation freezes (R104, R106, R124). -/
def State.blockLost (s0 : State) (lane : Nat) : State :=
  if sensorLane lane = false ∨ s0.on (Pg.lane lane) Reg.LANE_RX_STATUS_BLOCK_LOCK = false then s0
  else
    let s := s0.adaptLane lane
    let s1 := (s.setFld (Pg.lane lane) Reg.LANE_RX_STATUS_BLOCK_LOCK 0).setFld (Pg.lane lane) Reg.LANE_RX_STATUS_HDR_RUN 0
    s.lockLost (s1.raise (Pg.lane lane) Reg.LANE_EVENT_BLOCK_LOCK_LOST) lane

/-- BLOCK_LOCK_LOST (R106). -/
def execBlockLockLost (lane : Nat) (s : State) : Host.Outcome State Fault Refusal := .next (s.blockLost lane)

/-- Block lock has not returned within 4,096 blocks of CDR lock (R110). -/
def State.alignNeeded (s : State) (lane : Nat) : State :=
  if sensorLane lane && s.on (Pg.lane lane) Reg.LANE_RX_STATUS_CDR_LOCK
      && !s.on (Pg.lane lane) Reg.LANE_RX_STATUS_BLOCK_LOCK then
    s.raise (Pg.link (s.portOf lane)) Reg.LINK_EVENT_ALIGN_NEEDED
  else s

/-- ALIGN_NEEDED (R110). -/
def execAlignNeeded (lane : Nat) (s : State) : Host.Outcome State Fault Refusal := .next (s.alignNeeded lane)

/-- An ALIGN block: every lane of the full map that holds lock again rejoins, with LANE_RELOCK, and its outage is over; a retired lane stays
unused all the same (R110 to R112, R114). DEDUCED (log 31). -/
def State.rxAlign (s : State) (k : Nat) : State :=
  let p := s.port k
  let back := p.fullMap.filter fun l => s.laneLocked l && !p.joined.contains l
  if p.phase ≠ .linked ∨ back.isEmpty then s
  else
    let s1 := s.setPort k { p with
      joined := p.joined ++ back
      outages := p.outages.filter fun e => !back.contains e.1 }
    ((s1.showPort k).showLoss k).raise (Pg.link k) Reg.LINK_EVENT_LANE_RELOCK

/-- RX_ALIGN (R110). -/
def execRxAlign (port _acount : Nat) (s : State) : Host.Outcome State Fault Refusal := .next (s.rxAlign port)

/-! ### N−1 fallback (R111, R112) -/

/-- A frame start at Ingress on a port in use: the outages count, and LANEMAP for the next frame is sent when LOSS_FRAMES reaches
DEGRADE_CFG.FRAMES (R111, R112). DEDUCED (log 32). -/
def State.countLoss (s : State) (k f : Nat) : State :=
  let p := s.port k
  let s1 := (s.setPort k { p with outages := p.outages.map fun e => (e.1, e.2 + 1) }).showLoss k
  let p1 := s1.port k
  match p1.outages with
  | [] => s1
  | (lane, n) :: _ =>
    let limit := max 1 (s.fld (Pg.link k) Reg.LINK_DEGRADE_CFG)
    if n = limit ∧ p1.fallFrame.isNone ∧ 1 < p1.map.length ∧ s.on (Pg.link k) Reg.LINK_CTRL_FALLBACK_EN
        ∧ s.on (Pg.link k) Reg.LINK_FALLBACK_OK ∧ s.on (Pg.link k) Reg.LINK_FALLBACK_DONE = false then
      let logical := p1.map.findIdx fun l => decide (l = lane)
      let s2 := s1.setPort k
        { p1 with fallLane := logical, fallFrame := some (f + 1), fallAck := false }
      s2.postBc k 5 ((f + 1) % 2 ^ 32) [(logical % 16 + 16 * (p1.map.length - 1), 0)] .fallback
    else s1

/-- At frame f + 1, once the sensor has acknowledged, the port runs on N − 1 lanes (R111). DEDUCED (log 31, 32). -/
def State.applyFallback (s : State) (k f : Nat) : State :=
  let p := s.port k
  if p.fallAck ∧ p.fallFrame.any (fun g => decide (g ≤ f)) then
    let lane := p.map.getD p.fallLane 0
    let s1 := (s.setPort k { p with
      fallFrame := none, fallAck := false
      outages := p.outages.filter fun e => decide (e.1 ≠ lane) }).setMap k (p.map.eraseIdx p.fallLane)
    let s2 := (s1.setFld (Pg.link k) Reg.LINK_FALLBACK_DONE 1).setFld (Pg.link k) Reg.LINK_FALLBACK_RETIRED p.fallLane
    ((s2.showPort k).showLoss k).raise (Pg.link k) Reg.LINK_EVENT_LANE_FALLBACK
  else s

/-- No acknowledgement of LANEMAP within 100 µs: the port stays on N lanes (R111). DESIGN CHOICE (log 3). DEDUCED (log 32). -/
def State.fallbackTimeout (s : State) (k : Nat) : State :=
  let p := s.port k
  if p.fallFrame.isSome ∧ p.fallAck = false then
    let s1 := s.setPort k { p with fallFrame := none }
    (s1.raise (Pg.link k) Reg.LINK_EVENT_FALLBACK_CANCEL).raise (Pg.link k) Reg.LINK_EVENT_BC_FAIL
  else s

/-- FALLBACK_ACK_TIMEOUT (R111). -/
def execFallbackAckTimeout (port : Nat) (s : State) : Host.Outcome State Fault Refusal := .next (s.fallbackTimeout port)

/-- The full map restored when the sensor acknowledges LANEMAP at a take START (R112). DEDUCED (log 31). -/
def State.restoreMap (s : State) (k : Nat) : State :=
  let s1 := s.setMap k (s.port k).fullMap
  ((s1.setFld (Pg.link k) Reg.LINK_FALLBACK_DONE 0).setFld (Pg.link k) Reg.LINK_FALLBACK_RETIRED 0).showPort k

/-! ### Answers of the sensor (R97, R111, R112, R116) -/

/-- What the answer to the message in progress does: 0 acknowledged, 1 refused (or, with `none`, no answer after three resends). DEDUCED
(log 36). -/
def State.bcDone (s : State) (k : Nat) (m : BcMsg) (answer : Option Nat) : State :=
  match m.use with
  | .plain => s
  | .mailbox => s.endMailbox k (match answer with | some 0 => 0 | some _ => 1 | none => 2)
  | .fallback =>
    if answer = some 0 ∧ (s.port k).fallFrame.isSome then s.setPort k { s.port k with fallAck := true } else s
  | .restoreMap => if answer = some 0 then s.restoreMap k else s.setFld (Pg.link k) Reg.LINK_FALLBACK_OK 0
  | .eqset => if answer = some 0 ∧ (s.port k).phase = .eqset then s.linked k else s

/-- An SMSG block on a lane in block lock: the answer to the message whose SEQ it carries, or sensor status (R91, R96, R116, R123). -/
def State.rxSmsg (s : State) (k seq kind data : Nat) : State :=
  if s.hears k = false then s
  else if kind = 3 then s.raise (Pg.link k) Reg.LINK_EVENT_SENSOR_MSG
  else
    match (s.port k).cur with
    | none => s
    | some m =>
      if m.seq ≠ seq % 256 ∨ 3 < kind then s
      else
        let s1 := if kind = 1 ∧ m.use = .mailbox then s.setFld (Pg.link k) Reg.LINK_BC_RDATA data else s
        (s1.nextBc k).bcDone k m (some (if kind = 2 then 1 else 0))

/-- RX_SMSG (R116). -/
def execRxSmsg (port seq kind data : Nat) (s : State) : Host.Outcome State Fault Refusal := .next (s.rxSmsg port seq kind data)

/-- 20 µs without an answer: the message is sent again with the same SEQ, at most three times; then BC_FAIL, and the next message (R116).
DESIGN CHOICE (log 3). -/
def State.bcTimeout (s : State) (k : Nat) : State :=
  match (s.port k).cur with
  | none => s
  | some m =>
    if m.resends < 3 then s.sendBc k { m with resends := m.resends + 1 }
    else ((s.nextBc k).bcDone k m none).raise (Pg.link k) Reg.LINK_EVENT_BC_FAIL

/-- BC_ACK_TIMEOUT (R116). -/
def execBcAckTimeout (port : Nat) (s : State) : Host.Outcome State Fault Refusal := .next (s.bcTimeout port)

/-- The effect of a write of BC_CTRL: GO sends WR or RD from the mailbox, or is discarded while BUSY (R116, R123). A port whose back-channel
is not trained, or whose ENABLE is 0, sends the message all the same. DESIGN CHOICE (log 100). -/
def writeBcCtrl (r : Req) (k : Nat) (v : Word) (s : State) : State :=
  withWrite r (Pg.link k) 0x088 v s fun s _ _ =>
    if k = 1 ∧ s.ganged then s.reject (Pg.link 1)
    else
      let op := wfld v Reg.LINK_BC_CTRL_OP
      if wfld v Reg.LINK_BC_CTRL_GO = 0 then s.setFld (Pg.link k) Reg.LINK_BC_CTRL_OP op
      else if s.on (Pg.link k) Reg.LINK_BC_CTRL_BUSY then s.reject (Pg.link k)
      else
        let s1 := (s.setFld (Pg.link k) Reg.LINK_BC_CTRL_OP op).setFld (Pg.link k) Reg.LINK_BC_CTRL_BUSY 1
        let addr := s.fld (Pg.link k) Reg.LINK_BC_ADDR
        s1.postBc k op 0 [(addr, if op = 0 then s.fld (Pg.link k) Reg.LINK_BC_DATA else 0)] .mailbox

/-- BC_MAILBOX_GO (R116). -/
def execBcMailboxGo (r : Req) (port : Nat) (v : Word) (s : State) : Host.Outcome State Fault Refusal :=
  .next (writeBcCtrl r port v s)

/-- The payload of an HB block (R91). -/
def hbBlock (seq timeout frame : Nat) : Nat := 0xC3 + seq % 256 * 2 ^ 8 + timeout % 65536 * 2 ^ 16 + frame % 2 ^ 32 * 2 ^ 32

/-- A heartbeat (R91, R118, R123); a port B whose lanes GANG has taken sends none (R89). Heartbeats count a SEQ of their own. DESIGN CHOICE
(log 100). -/
def State.heartbeat (s : State) (k : Nat) : State :=
  let p := s.port k
  if p.bcUp ∧ s.on (Pg.link k) Reg.LINK_CTRL_ENABLE ∧ s.ctl.mode ≠ .sleep ∧ ¬(k = 1 ∧ s.ganged) then
    let period := max 1 (min 1000 (s.fld (Pg.link k) Reg.LINK_TIMING_HB_PERIOD))
    let timeout := max (s.fld (Pg.link k) Reg.LINK_TIMING_HB_TIMEOUT) (4 * period)
    let frame := s.frameNow % 2 ^ 32
    (s.setPort k { p with hbSeq := (p.hbSeq + 1) % 256 }).emit (.hb k p.hbSeq timeout frame (hbBlock p.hbSeq timeout frame))
  else s

/-- HEARTBEAT (R118). -/
def execHeartbeat (port : Nat) (s : State) : Host.Outcome State Fault Refusal := .next (s.heartbeat port)

/-! ### Packets and lines (R92 to R94, R107 to R109) -/

/-- The sensor depth D of a port (R123). -/
def depthOf (code : Nat) : Nat := if code = 0 then 12 else if code = 1 then 14 else 16

/-- The data blocks of a lane segment with a number of cells (R93). -/
def segBlocks (cells depth : Nat) (dual : Bool) : Nat := ceilDiv (cells * (if dual then 8 else 4) * depth) 64

/-- A segment after a packet, and whether the packet is taken: every block in it valid, lock held, its CRC right, and its line, offset and
length agreeing with the SOL and the packets before it (R91, R94, R107). A lane that rejoins inside a line has no SOL; its first packet
names the line, and its packets hold at most 64 blocks each (R110). DEDUCED (log 31). -/
def LaneSeg.take (g : LaneSeg) (p : Packet) (blocks : Nat) : LaneSeg × Bool :=
  let n := p.data.length / 8
  let most := if g.sol then min 64 (blocks - p.off) else 64
  let line := if g.sol ∨ g.packets ≠ [] then g.line else p.line
  let ok := p.headersOk && p.lockHeld && decide (p.line = line) && decide (p.off % 64 = 0) && decide (g.next ≤ p.off)
    && decide (p.data.length = 8 * n) && decide (n ≤ most) && (!g.sol || decide (n = most)) && decide (0 < n)
    && decide (crc32c p.data = p.crc)
  if ok then
    ({ g with line := line, cells := if g.sol then g.cells else 65536, next := p.off + n, packets := g.packets ++ [(p.off, p.data)] },
      true)
  else (g, false)

/-- A packet on a logical lane of a port (R107). -/
def State.rxPacket (s : State) (k : Nat) (p : Packet) : State :=
  let ps := s.port k
  if ps.map.length ≤ p.lane ∨ (s.laneLive k (ps.map.getD p.lane 0) = false ∧ p.lockHeld) ∨ (k = 1 ∧ s.ganged) then s
  else
    let g := ps.segs.get p.lane
    let depth := depthOf (s.fld (Pg.link k) Reg.LINK_CFG_DEPTH)
    let r := g.take p (segBlocks g.cells depth (s.on (Pg.link k) Reg.LINK_CFG_DUAL_GAIN))
    if r.2 then s.setPort k { ps with segs := ps.segs.put p.lane r.1 }
    else (s.count (Pg.link k) Reg.LINK_PKT_DISCARDS).raise (Pg.link k) Reg.LINK_EVENT_PKT_DISCARD

/-- RX_PACKET (R107). -/
def execRxPacket (port : Nat) (p : Packet) (s : State) : Host.Outcome State Fault Refusal := .next (s.rxPacket port p)

/-- A SOL block opens a lane's segment; a DEPTH or DG that differs from LINK.CFG marks it (R94, R133). -/
def State.rxSol (s : State) (k lane line depth dg cells : Nat) : State :=
  let p := s.port k
  if p.map.length ≤ lane ∨ s.laneLive k (p.map.getD lane 0) = false ∨ (k = 1 ∧ s.ganged) then s
  else
    let bad := decide (depth ≠ s.fld (Pg.link k) Reg.LINK_CFG_DEPTH) || decide (dg ≠ s.fld (Pg.link k) Reg.LINK_CFG_DUAL_GAIN)
    s.setPort k { p with segs := p.segs.put lane { sol := true, line := line, cells := cells, badFormat := bad } }

/-- RX_SOL (R133). -/
def execRxSol (port lane line depth dg cells : Nat) (s : State) : Host.Outcome State Fault Refusal :=
  .next (s.rxSol port lane line depth dg cells)

/-- A data block of a segment as a 64-bit number, when a packet that was taken holds it. -/
def LaneSeg.block (g : LaneSeg) (b : Nat) : Option Nat :=
  (g.packets.find? fun p => decide (p.1 ≤ b) && decide (8 * (b - p.1) + 8 ≤ p.2.length)).map fun p => leAt p.2 (8 * (b - p.1)) 8

/-- `d` bits of a segment from a bit (R93). -/
def LaneSeg.sample (g : LaneSeg) (bit d : Nat) : Nat :=
  ((g.block (bit / 64)).getD 0 + 2 ^ 64 * (g.block (bit / 64 + 1)).getD 0) / 2 ^ (bit % 64) % 2 ^ d

/-- Whether a cell of a segment is present: every block that carries a part of it was taken (R107). -/
def LaneSeg.hasCell (g : LaneSeg) (c bits : Nat) : Bool :=
  decide (c < g.cells) &&
    (List.range ((c * bits + bits - 1) / 64 + 1 - c * bits / 64)).all fun i => (g.block (c * bits / 64 + i)).isSome

/-- A line of a port as received: the sample of one gain at each photosite of the readout, none where it is missing (R92,
R93). -/
def PortSt.rawLine (p : PortSt) (depth gains gain cells : Nat) : List (Option Nat) :=
  let n := p.map.length
  let bits := 4 * gains * depth
  (List.range cells).flatMap fun c =>
    let g := p.segs.get (c % n)
    if g.hasCell (c / n) bits then
      (List.range 4).map fun i => some (g.sample (c / n * bits + (4 * gain + i) * depth) depth)
    else [none, none, none, none]

/-- The nearest present photosite to the left of and at `x`, in steps of `per`. -/
def nearLeft (l : List (Option Nat)) (per : Nat) : Nat → Nat → Option (Nat × Nat)
  | 0, _ => none
  | fuel + 1, x =>
    match l.getD x none with
    | some v => some (x, v)
    | none => if x < per then none else nearLeft l per fuel (x - per)

/-- The nearest present photosite to the right of and at `x`, in steps of `per`. -/
def nearRight (l : List (Option Nat)) (per : Nat) : Nat → Nat → Option (Nat × Nat)
  | 0, _ => none
  | fuel + 1, x =>
    if l.length ≤ x then none
    else
      match l.getD x none with
      | some v => some (x, v)
      | none => nearRight l per fuel (x + per)

/-- The value that conceals a missing photosite, none when the line has no photosite to take it from (R108). DEDUCED (log 35). -/
def conceal (l : List (Option Nat)) (per x : Nat) : Option Nat :=
  let c := x / 4
  let i := x % 4
  let left := if 4 * c + i % per < per then none else nearLeft l per (l.length + 1) (4 * c - per + i % per)
  let right := nearRight l per (l.length + 1) (4 * c + 4 + i % per)
  match left, right with
  | some (xl, vl), some (xr, vr) =>
    let a := xr - x
    let b := x - xl
    some ((a * vl + b * vr + (a + b) / 2) / (a + b))
  | some (_, vl), none => some vl
  | none, some (_, vr) => some vr
  | none, none => none

/-- A window of a line with its missing photosites concealed, and its status: 0 intact, 1 concealed, 2 lost (R108, R109). -/
def concealWindow (l : List (Option Nat)) (per x0 w : Nat) : List Nat × Nat :=
  let cell := fun x => match l.getD x none with
    | some v => (v, 0)
    | none =>
      match conceal l per x with
      | some v => (v, 1)
      | none => (0, 2)
  let vs := (List.range w).map fun i => cell (x0 + i)
  (vs.map (·.1), (vs.map (·.2)).foldl max 0)

/-! ### Transmit drive (R105, R124) -/

/-- A transmit lane's drive as its registers and the cap of Field Stop set it: PRE, POST, the main cursor and the swing in mVppd; values above
their ranges act as the range maximum (R105, R124). -/
def State.txDrive (s : State) (lane : Nat) : Nat × Nat × Nat × Nat :=
  let pre := min 6 (s.fld (Pg.lane lane) Reg.LANE_TX_EQ_PRE)
  let post := min 10 (s.fld (Pg.lane lane) Reg.LANE_TX_EQ_POST)
  let cap := s.fld Pg.guard (if lane < 18 then Reg.GUARD_SWING_CAP_BC else Reg.GUARD_SWING_CAP_SDI)
  (pre, post, 24 - pre - post, 400 + 25 * min (min 24 (s.fld (Pg.lane lane) Reg.LANE_TX_SWING)) (min 24 cap))

/-- The drive of each transmit lane that differs from the state before is put on the lane (R105). -/
def driveLanes (s0 s : State) : State :=
  (List.range 6).foldl
    (fun (s : State) i =>
      let l := 16 + i
      let d := s.txDrive l
      if d = s0.txDrive l then s else s.emit (.drive l d.1 d.2.1 d.2.2.1 d.2.2.2)) s

/-! ### Rules of the LINKB page and of the DFE taps on plain writes -/

/-- Whether a plain write is discarded with STATE_REJECT: LINKB's CTRL and block registers while GANG is 1 (R89), and the DFE taps
of a lane in EQ_MODE 0 (R124). -/
def State.linkVeto (s : State) (p o : Nat) : Bool :=
  (decide (p = Pg.link 1) && s.ganged && (decide (o = 0x008) || (decide (0x040 ≤ o) && decide (o < 0x400))))
    || (decide (0x010 ≤ p) && decide (p < 0x020) && (decide (o = 0x048) || decide (o = 0x04C))
      && !s.on (Pg.link (s.portOf (p - 0x010))) Reg.LINK_CTRL_EQ_MODE)

/-! ### Take START (R68, R111, R112, R117) -/

/-- Whether a port may fall back in a take: the sensor reported FALLBACK, and the busiest lane of the N−1 map needs at most 90 % of its
block slots for the port's window at the take's frame rate (R93, R111). -/
def State.fallbackOk (s : State) (k : Nat) : Bool :=
  let i := Pg.ingress
  let w := s.fld i (if k = 0 then Reg.INGRESS_WINA_WH_W else Reg.INGRESS_WINB_WH_W)
  let h := s.fld i (if k = 0 then Reg.INGRESS_WINA_WH_H else Reg.INGRESS_WINB_WH_H)
  let left := (s.port k).fullMap.length - 1
  let cells := ceilDiv (ceilDiv w 4) (max 1 left)
  let data := segBlocks cells (depthOf (s.fld (Pg.link k) Reg.LINK_CFG_DEPTH)) (s.on (Pg.link k) Reg.LINK_CFG_DUAL_GAIN)
  let blocks := data + 2 * ceilDiv data 64 + 2
  let slots := if s.on (Pg.link k) Reg.LINK_CFG_RATE then 156250000 else 312500000
  let num := s.fld Pg.trig Reg.TRIG_RATE_NUM
  let den := max 1 (s.fld Pg.trig Reg.TRIG_RATE_DEN)
  s.on (Pg.link k) Reg.LINK_SENSOR_CAPS_FALLBACK && decide (left ≠ 0)
    && decide (blocks * 256 * h * num * 10 ≤ 9 * 255 * slots * den)

/-- The link part of step 4 of a take START: the counters clear, a port on the N−1 map asks for the full map when every lane is locked,
EQSET goes out when PREEMPH has changed since the last one, then FWR for frame 0 and START (R68, R103, R111, R112, R117). -/
def State.linkTake (s : State) (k : Nat) (used : Bool) : State :=
  let g := Pg.link k
  let s1 := [Reg.LINK_CONCEAL_LINES, Reg.LINK_LOST_LINES, Reg.LINK_PKT_DISCARDS, Reg.LINK_DEGRADED_FRAMES].foldl
    (fun s f => s.setFld g f 0) s
  if used = false then s1
  else
    let p := s1.port k
    let fell := s1.on g Reg.LINK_FALLBACK_DONE
    let whole := fell && p.fullMap.all s1.laneLocked
    let s2 := (s1.setPort k { p with
      fallFrame := none, fallAck := false, fwr := []
      outages := p.outages.map fun e => (e.1, 0) }).showLoss k
    let s3 := s2.setOn g Reg.LINK_FALLBACK_OK ((!fell || whole) && s2.fallbackOk k)
    let s4 := if whole then s3.postBc k 5 0 [(16 * p.fullMap.length, 0)] .restoreMap else s3
    let pre := (s4.fld g Reg.LINK_PREEMPH_PRE, s4.fld g Reg.LINK_PREEMPH_POST)
    let s5 := if s4.on g Reg.LINK_CTRL_EQ_MODE && decide (p.eqLast ≠ some pre) then s4.sendEqset k else s4
    ((s5.sendFwr k 0).postBc k 3 0 [] .plain).showPort k

end Sys2Proof.Machine
end

