-- ==== Sys2Proof/Machine/Memory.lean ====
section
/-! DEFINITION. The LPDDR5X memory (R438, R444, R451): reads and writes of its bytes, within the capacity that training found. -/

namespace Sys2Proof.Machine

/-- The canonical form of a byte memory: addresses rise and no byte is listed that an unlisted address reads as. DESIGN CHOICE (log 9). -/
def Memory.wf (m : Bytes) : Bool := Sparse.wf (fun _ => 0) m

/-- The number of bytes of the memory: TOTAL_GIB, or the largest capacity while no training has ended (R438, R455). DESIGN CHOICE (log 9).
-/
def State.dramSize (s : State) : Nat :=
  let g := s.fld Pg.dramctl Reg.DRAMCTL_TOTAL_GIB
  if g = 0 then 64 * 2 ^ 30 else g * 2 ^ 30

/-- One byte read. Above the capacity the spec gives no value: a free value. DESIGN CHOICE (log 9). -/
def State.peek (s : State) (a : Nat) : Byte :=
  if a < s.dramSize then s.dram.get a else BitVec.ofNat 8 (Config.free 2 a)

/-- `n` bytes read upwards from an address. DESIGN CHOICE (log 9). -/
def State.peekN (s : State) (a n : Nat) : List Byte :=
  let top := s.dramSize
  let p := s.dram.part a n
  (List.range n).map fun i => if a + i < top then Bytes.get p (a + i) else BitVec.ofNat 8 (Config.free 2 (a + i))

/-- A little-endian number read. -/
def State.peekLe (s : State) (a n : Nat) : Nat := leNat (s.peekN a n)

/-- Bytes written upwards from an address; those above the capacity are not kept. DESIGN CHOICE (log 9). -/
def State.pokeN (s : State) (a : Nat) (l : List Byte) : State := { s with dram := s.dram.setN a (l.take (s.dramSize - a)) }

/-- Values of `depth` bits packed least significant bit first (R129, R177). -/
def packBits (depth : Nat) (l : List Nat) : List Byte :=
  leBytes (ceilDiv (l.length * depth) 8) (l.foldr (fun v acc => v % 2 ^ depth + 2 ^ depth * acc) 0)

/-- The value at an index of packed values of `depth` bits. -/
def unpackAt (b : List Byte) (depth i : Nat) : Nat := leNat b / 2 ^ (depth * i) % 2 ^ depth

/-- Values unpacked from a number, lowest first. -/
def unpackNat (depth : Nat) : Nat → Nat → List Nat
  | 0, _ => []
  | n + 1, v => v % 2 ^ depth :: unpackNat depth n (v / 2 ^ depth)

/-- `n` values of `depth` bits unpacked from bytes (R129). -/
def unpackBits (depth n : Nat) (b : List Byte) : List Nat := unpackNat depth n (leNat (b.take (ceilDiv (n * depth) 8)))

/-- A time as the 16 bytes of a record: seconds, nanoseconds, fraction (R136). -/
def timeBytes (t : Time) : List Byte := leBytes 8 t.sec ++ leBytes 4 t.ns ++ leBytes 4 t.frac

/-- A time in units of 2^−32 ns (R375). -/
def Time.ticks (t : Time) : Nat := (t.sec * 1000000000 + t.ns) * 2 ^ 32 + t.frac

/-- The time at a count of 2^−32 ns. -/
def Time.ofTicks (n : Nat) : Time := ⟨n / 2 ^ 32 / 1000000000, n / 2 ^ 32 % 1000000000, n % 2 ^ 32⟩

/-- The ticks of a nanosecond. -/
abbrev tickNs : Nat := 2 ^ 32

end Sys2Proof.Machine
end

