-- ==== Sys2Proof/Machine/Ingress.lean ====
section
/-! DEFINITION. Ingress and the frame store (R125 to R145): sources and windows, the dual-gain merge, the frame ring, pair mode and
the frame metadata record. The start of a frame, on which other blocks act too, stands in Frames.lean. -/

namespace Sys2Proof.Machine

/-! ### Sources, windows and stored depth (R125 to R130) -/

/-- INGRESS.CFG.SOURCE. -/
def State.source (s : State) : Nat := s.fld Pg.ingress Reg.INGRESS_CFG_SOURCE

/-- Ingress joins both ports' readouts (R125). -/
def State.pairMode (s : State) : Bool := decide (s.source = 2)

/-- The ports in use (R125). -/
def State.portsUsed (s : State) : List Nat :=
  match s.source with
  | 0 => [0]
  | 1 => [1]
  | 2 => [0, 1]
  | _ => []

/-- A window of a sensor's readout (R126). -/
structure Window where
  x : Nat
  y : Nat
  w : Nat
  h : Nat
  deriving DecidableEq, Repr

/-- The window of a port. -/
def State.window (s : State) (k : Nat) : Window :=
  let i := Pg.ingress
  if k = 0 then
    ⟨s.fld i Reg.INGRESS_WINA_XY_X, s.fld i Reg.INGRESS_WINA_XY_Y, s.fld i Reg.INGRESS_WINA_WH_W, s.fld i Reg.INGRESS_WINA_WH_H⟩
  else
    ⟨s.fld i Reg.INGRESS_WINB_XY_X, s.fld i Reg.INGRESS_WINB_XY_Y, s.fld i Reg.INGRESS_WINB_WH_W, s.fld i Reg.INGRESS_WINB_WH_H⟩

/-- The width of the stored raster (R125). -/
def State.rasterW (s : State) : Nat := (s.portsUsed.map fun k => (s.window k).w).sum

/-- The height of the stored raster. -/
def State.rasterH (s : State) : Nat := (s.portsUsed.map fun k => (s.window k).h).foldl max 0

/-- The first column of a port's half in the stored raster (R125). -/
def State.halfX (s : State) (k : Nat) : Nat := if s.pairMode ∧ k = 1 then (s.window 0).w else 0

/-- The sensor depth D of the ports in use. -/
def State.sensorDepth (s : State) : Nat := depthOf (s.fld (Pg.link (s.portsUsed.headD 0)) Reg.LINK_CFG_DEPTH)

/-- INGRESS.CFG.DG_MODE. -/
def State.dgMode (s : State) : Nat := s.fld Pg.ingress Reg.INGRESS_CFG_DG_MODE

/-- The stored depth Ds (R129). -/
def State.storedDepth (s : State) : Nat := if s.dgMode = 1 then 20 else s.sensorDepth

/-- The bytes of a stored line (R129). -/
def lineStride (w ds : Nat) : Nat := ceilDiv (w * ds) 512 * 64

/-- The pages of a slot (R130). -/
def slotPages (h stride : Nat) : Nat := 2 + ceilDiv (h * stride) 4096

/-- LINE_STRIDE of the present settings. -/
def State.stride (s : State) : Nat := lineStride s.rasterW s.storedDepth

/-- The bytes of a slot of the present settings. -/
def State.slotBytes (s : State) : Nat := slotPages s.rasterH s.stride * 4096

/-- The address of the frame ring (R130). -/
def State.ringBase (s : State) : Nat :=
  s.fld Pg.ingress Reg.INGRESS_RING_BASE_LO * 2 ^ 21 + s.fld Pg.ingress Reg.INGRESS_RING_BASE_HI * 2 ^ 32

/-- The address of a slot (R130). -/
def State.slotAddr (s : State) (j : Nat) : Nat := s.ringBase + j * s.slotBytes

/-- The pre-roll depth K (R138). -/
def State.preroll (s : State) : Nat := s.fld Pg.ingress Reg.INGRESS_RING_CFG_PREROLL_FRAMES

/-- The slots of the ring, P = S + K (R138). -/
def State.ringSlots (s : State) : Nat := s.fld Pg.ingress Reg.INGRESS_RING_CFG_SLOTS + s.preroll

/-! ### Values of a frame (R77 to R79) -/

/-- The active copies as they stand, by register key. -/
def State.activeCopies (s : State) : List (Nat × Word) :=
  s.regs.filter fun e => decide (0x800 ≤ e.1 % 0x1000) && decide (e.1 % 0x1000 < 0xC00)

/-- The active copies that govern a frame; those in force when it has none of its own. -/
def State.frameRegs (s : State) (f : Nat) : List (Nat × Word) :=
  match s.ingress.frameVals.find? fun e => decide (e.1 = f) with
  | some e => e.2
  | none => s.activeCopies

/-- The committed value of a shadowed field for a frame (R78, R79). -/
def State.fval (s : State) (f p : Nat) (r : Fld) : Nat :=
  Word.bits (Sparse.read factoryWord (s.frameRegs f) (keyOf (actOf r) p)) r.lo r.width

/-- Whether a one-bit committed value is 1. -/
def State.fon (s : State) (f p : Nat) (r : Fld) : Bool := decide (s.fval f p r = 1)

/-- The values that govern frame `n` are kept as it starts (R78). -/
def State.keepValues (s : State) (n : Nat) : State :=
  let others := s.ingress.frameVals.filter fun e => decide (e.1 ≠ n)
  { s with ingress := { s.ingress with frameVals := others ++ [(n, s.activeCopies)] } }

/-! ### The frame ring (R138 to R140) -/

/-- The state with the ingress part replaced. -/
def State.setIngress (s : State) (i : IngressSt) : State := { s with ingress := i }

/-- A slot of the ring. -/
def State.slot (s : State) (j : Nat) : RingSlot := s.ingress.slots.get j

/-- The state with a slot of the ring set. -/
def State.putSlot (s : State) (j : Nat) (r : RingSlot) : State := s.setIngress { s.ingress with slots := s.ingress.slots.put j r }

/-- The free slots (R138). -/
def State.freeSlots (s : State) : List Nat := (List.range s.ringSlots).filter fun j => !(s.slot j).busy && !(s.slot j).held

/-- STATE.FREE_SLOTS, STATE.CATCHUP and CATCHUP_LEFT brought up to date (R139, R145). DEDUCED (log 37). -/
def State.showRing (s : State) : State :=
  let n := min (min 16 (s.fld Pg.ingress Reg.INGRESS_RING_CFG_SLOTS)) s.freeSlots.length
  ((s.setFld Pg.ingress Reg.INGRESS_STATE_FREE_SLOTS n).setOn Pg.ingress Reg.INGRESS_STATE_CATCHUP
    (!s.ingress.catchup.isEmpty)).setFld Pg.ingress Reg.INGRESS_CATCHUP_LEFT s.ingress.catchup.length

/-- The free slot that has held no frame for longest (R138). -/
def State.chooseSlot (s : State) : Option Nat :=
  s.freeSlots.foldl
    (fun best j =>
      match best with
      | none => some j
      | some b => if (s.slot j).freedAt < (s.slot b).freedAt then some j else best) none

/-- The slot that contains a frame. -/
def State.slotOf (s : State) (f : Nat) : Option Nat :=
  (List.range s.ringSlots).find? fun j => (s.slot j).has && decide ((s.slot j).frame = f)

/-- A slot that no longer awaits or undergoes a read and is not held becomes free now. -/
def State.releaseSlot (s : State) (j : Nat) (r : RingSlot) : State :=
  if r.busy ∨ r.held then (s.putSlot j r).showRing
  else
    let c := s.ingress.freeCtr + 1
    let s1 := s.putSlot j { r with freedAt := c }
    (s1.setIngress { s1.ingress with freeCtr := c }).showRing

/-- The shared read of a frame has ended: its slot is free unless catch-up holds it (R138, R139). -/
def State.readEnded (s : State) (f : Nat) : State :=
  match s.slotOf f with
  | some j => s.releaseSlot j { s.slot j with busy := false }
  | none => s

/-- A held frame has been encoded: its slot is freed, and CATCHUP_DONE rises with the last one (R140). -/
def State.caughtUp (s : State) (f : Nat) : State :=
  let s1 := s.setIngress { s.ingress with catchup := s.ingress.catchup.filter fun x => decide (x ≠ f) }
  let s2 :=
    match s1.slotOf f with
    | some j => s1.releaseSlot j { s1.slot j with held := false }
    | none => s1.showRing
  s2.raiseIf s2.ingress.catchup.isEmpty Pg.ingress Reg.INGRESS_EVENT_CATCHUP_DONE

/-- Recording begins at boundary frame `b`: the slots of frames b − K to b − 1 are held, their records marked PRE_ROLL, and LAST_FLAGS
with the newest one (R139, R145). -/
def State.holdPreroll (s : State) (b : Nat) : State :=
  let inRange := fun (j : Nat) => (s.slot j).has && decide (b ≤ (s.slot j).frame + s.preroll) && decide ((s.slot j).frame < b)
  let js := (List.range s.ringSlots).filter inRange
  let s1 := js.foldl
    (fun s j =>
      let a := s.slotAddr j + 6
      (s.putSlot j { s.slot j with held := true }).pokeN a
        (leBytes 2 (s.peekLe a 2 ||| 0x40))) s
  let fs := (js.map fun j => (s.slot j).frame).foldl (fun l f => insertNat f l) []
  let newest := s.fld64 Pg.ingress Reg.INGRESS_LAST_FRAME_LO Reg.INGRESS_LAST_FRAME_HI
  let flags := s.fld Pg.ingress Reg.INGRESS_LAST_FLAGS
  let s2 := if fs.contains newest then s1.setFld Pg.ingress Reg.INGRESS_LAST_FLAGS (flags ||| 0x40) else s1
  (s2.setIngress { s2.ingress with catchup := fs }).showRing

/-! ### Halves of the open frame (R136, R143) -/

/-- The half of a frame that a port delivers. -/
def OpenFrame.half (f : OpenFrame) (k : Nat) : Half := if k = 0 then f.a else f.b

/-- A frame with a half replaced. -/
def OpenFrame.setHalf (f : OpenFrame) (k : Nat) (h : Half) : OpenFrame := if k = 0 then { f with a := h } else { f with b := h }

/-- A half that lines can still arrive for. -/
def Half.active (h : Half) : Bool := h.sof && !h.eof && !h.missing

/-- The state with the open frame replaced. -/
def State.setOpen (s : State) (f : Option OpenFrame) : State := s.setIngress { s.ingress with openFrame := f }

/-- The number that the next frame takes (R134). -/
def State.nextFrame (s : State) : Nat := if s.ctl.frameSeen then s.frameNow + 1 else 0

/-- Whether a SOF starts a frame: a take waits for frame 0 or runs, and its last frame has not been named (R26, R70). DEDUCED (log 37). -/
def State.takesFrames (s : State) : Bool :=
  s.on Pg.ingress Reg.INGRESS_CTRL_ENABLE &&
    match s.ctl.phase with
    | .starting _ _ => true
    | .settled | .switching _ _ => decide (s.ctl.mode = .live) || decide (s.ctl.mode = .record)
    | _ => false

/-- Whether a port receives from its sensor: it has finished bring-up and a lane of its map holds block lock (R96, R113). -/
def State.receives (s : State) (k : Nat) : Bool := decide ((s.port k).phase = .linked) && s.hears k

/-- Whether a SOF of a port ends the open frame: the port's half is still being received, so the frame is still open when the next SOF
arrives (R135); a half that is fixed or received is R144's. -/
def State.cutsOpen (s : State) (k : Nat) : Bool :=
  match s.ingress.openFrame with
  | some f => (f.half k).active
  | none => false

/-- Whether a port's SOF joins the open frame (R143). -/
def State.joins (s : State) (k : Nat) : Bool :=
  s.pairMode &&
    match s.ingress.openFrame with
    | some f => !(f.half k).sof && !(f.half k).missing
    | none => false

/-- META bytes of a port: at most 1,792 of a frame (R96, R136). DEDUCED (log 34). -/
def State.rxMeta (s : State) (k : Nat) (data : List Byte) : State :=
  let p := s.port k
  if s.receives k = false ∨ p.discard then s
  else if p.sof.isSome then s.setPort k { p with metaBuf := (p.metaBuf ++ data).take 1792 }
  else
    match s.ingress.openFrame with
    | none => s
    | some f =>
      if (f.half k).active then
        s.setOpen (some (f.setHalf k { f.half k with metaBytes := ((f.half k).metaBytes ++ data).take 1792 }))
      else s

/-- RX_META (R96). -/
def execRxMeta (port : Nat) (data : List Byte) (s : State) : Host.Outcome State Fault Refusal := .next (s.rxMeta port data)

/-- A port's SOF taken into a frame: the half is open and the tag and number are noted for the record (R117, R134, R137). -/
def State.takeHalf (s : State) (k : Nat) (f : OpenFrame) : State :=
  let p := s.port k
  let sof := p.sof.getD (0, 0)
  let e := p.expected f.num
  let late := match e with | some e => tagOlder e sof.2 | none => false
  let h : Half := { used := true, sof := true, sensorFrame := sof.1, tag := sof.2, metaBytes := p.metaBuf }
  let f1 := { f.setHalf k h with
    paramLate := f.paramLate || late
    frameSeq := f.frameSeq || decide (sof.1 ≠ f.num % 2 ^ 32)
    expectedTag := if f.expectedTag = 0 then e.getD 0 else f.expectedTag }
  (s.setPort k { p with sof := none, metaBuf := [], segs := [] }).setOpen (some f1)

/-- A frame opened for the SOF of a port: its SOF time is latched and a slot is chosen, or the frame is dropped (R134, R138). DEDUCED (log
37). -/
def State.openNew (s : State) (k n : Nat) : State :=
  let f : OpenFrame := { num := n, slot := s.chooseSlot, sofTime := s.time }
  let s1 :=
    match f.slot with
    | some j => (s.putSlot j { s.slot j with has := true, frame := n, busy := true }).showRing
    | none => (s.count Pg.ingress Reg.INGRESS_DROPPED_FRAMES).raise Pg.ingress Reg.INGRESS_EVENT_FRAME_DROP
  (s1.takeHalf k f).setFld Pg.ingress Reg.INGRESS_STATE_PHASE 2

/-! ### The dual-gain merge (R131 to R133) -/

/-- The merge parameters of a frame at one filter position. -/
structure Merge where
  blkH : Int
  blkL : Int
  t0 : Int
  k : Nat
  satH : Nat
  ped : Int
  gain : Int
  deriving DecidableEq, Repr

/-- The merge parameters committed for a frame, for filter position `i` (R131, R145). -/
def State.mergeAt (s : State) (f i : Nat) : Merge :=
  let v := fun r => s.fval f Pg.ingress r
  { blkH := v Reg.INGRESS_DG_BLACK_BLK_H, blkL := v Reg.INGRESS_DG_BLACK_BLK_L, t0 := v Reg.INGRESS_DG_KNEE_KNEE_LO,
    k := max 6 (min 14 (v Reg.INGRESS_DG_KNEE_KNEE_SHIFT)), satH := v Reg.INGRESS_DG_SAT, ped := v Reg.INGRESS_DG_PED,
    gain := v (Reg.INGRESS_DG_GAIN i) }

/-- The value stored for the samples H and L of a photosite whose map entry is `c`, and whether it was clamped at the top
(R131). -/
def Merge.value (m : Merge) (depth h l : Nat) (c : Int) : Nat × Bool :=
  let h16 := (↑h - m.blkH) * 2 ^ (16 - depth)
  let l16 := (↑l - m.blkL) * 2 ^ (16 - depth)
  let gp := (m.gain * (4096 + c) + 2048) / 4096
  let lg := (l16 * gp + 2048) / 4096
  let w := h16 - m.t0
  let b : Int := 2 ^ m.k
  let v :=
    if m.satH ≤ h ∨ m.t0 + b ≤ h16 then lg
    else if h16 ≤ m.t0 then h16
    else (h16 * (b - w) + lg * w + 2 ^ (m.k - 1)) / b
  let p := v + m.ped
  if p < 0 then (0, false) else if 1048575 < p then (1048575, true) else (p.toNat, false)

/-- The filter position of a photosite; 0 in monochrome (R127, R131). -/
def State.filterPos (s : State) (x y : Nat) : Nat :=
  if s.on Pg.ingress Reg.INGRESS_CFG_CFA_MODE then 2 * (y % 2) + x % 2 else 0

/-- The calibration map entry of a photosite of the stored raster (R132). -/
def State.mapEntry (s : State) (x y : Nat) : Int :=
  if s.on Pg.ingress Reg.INGRESS_CFG_DGMAP_EN then
    let base := s.fld Pg.ingress Reg.INGRESS_DGMAP_BASE_LO * 4096 + s.fld Pg.ingress Reg.INGRESS_DGMAP_BASE_HI * 2 ^ 32
    signed 8 (s.peek (base + y * (ceilDiv s.rasterW 64 * 64) + x)).toNat
  else 0

/-- A merged line of a port's half: the stored values and the number clamped (R131). -/
def State.mergeLine (s : State) (f k y : Nat) (hs ls : List Nat) : List Nat × Nat :=
  let vs := (List.range (s.window k).w).map fun x =>
    let xs := s.halfX k + x
    (s.mergeAt f (s.filterPos xs y)).value s.sensorDepth (hs.getD x 0) (ls.getD x 0) (s.mapEntry xs y)
  (vs.map (·.1), (vs.filter (·.2)).length)

/-! ### Lines (R107 to R109, R129, R133) -/

/-- A port's part of a stored line written to the frame's slot, with the padding behind the last photosite (R129, R130). -/
def State.writeLine (s : State) (slot k y : Nat) (vs : List Nat) : State :=
  let ds := s.storedDepth
  let x := s.halfX k
  let b := packBits ds vs
  let tail := if x + vs.length = s.rasterW then zeros (s.stride - ceilDiv (s.rasterW * ds) 8) else []
  s.pokeN (s.slotAddr slot + 8192 + y * s.stride + x * ds / 8) (b ++ tail)

/-- What a port passes for a line: high-gain values, low-gain values and status over the whole readout line, and whether the line disagrees
with LINK.CFG or does not cover its window (R92, R93, R108, R109, R133). The cells of a lane whose SOL did not arrive are taken to be as
many as those of the fullest lane. DEDUCED (log 35). -/
def State.portLine (s : State) (k line : Nat) : List Nat × List Nat × Nat × Bool :=
  let p := s.port k
  let win := s.window k
  let lanes := (List.range p.map.length).map fun i => p.segs.get i
  let here := lanes.filter fun g => g.sol && decide (g.line = line)
  let most := (here.map (·.cells)).foldl max 0
  let total := (lanes.map fun g => if g.sol && decide (g.line = line) then g.cells else most).sum
  let bad := (here.any (·.badFormat)) || (!here.isEmpty && decide (4 * total < win.x + win.w))
  let n := max total (ceilDiv (win.x + win.w) 4)
  let depth := depthOf (s.fld (Pg.link k) Reg.LINK_CFG_DEPTH)
  let dual := s.on (Pg.link k) Reg.LINK_CFG_DUAL_GAIN
  let per := s.fld (Pg.link k) Reg.LINK_CFG_CONCEAL_HPER + 1
  let gains := if dual then 2 else 1
  let h := concealWindow (p.rawLine depth gains 0 n) per 0 (4 * n)
  let l := if dual then concealWindow (p.rawLine depth gains 1 n) per 0 (4 * n) else h
  (h.1, l.1, max h.2 l.2, bad)

/-- A frame of a port is degraded: FRAME_DEGRADED and DEGRADED_FRAMES, once (R109). DEDUCED (log 35). -/
def State.degrade (s : State) (k : Nat) : State :=
  match s.ingress.openFrame with
  | none => s
  | some f =>
    if (f.half k).degraded then s
    else
      let s1 := s.setOpen (some (f.setHalf k { f.half k with degraded := true }))
      (s1.count (Pg.link k) Reg.LINK_DEGRADED_FRAMES).raise (Pg.link k) Reg.LINK_EVENT_FRAME_DEGRADED

/-- A line that has arrived is stored, or its photosites lie outside the window (R126, R131, R133, R137). DEDUCED (log 35). -/
def State.storeLine (s : State) (k line : Nat) (f : OpenFrame) (hs ls : List Nat) (status : Nat) (bad : Bool) : State :=
  let win := s.window k
  if line < win.y ∨ win.y + win.h ≤ line then s
  else
    let y := line - win.y
    let st := if bad then 2 else status
    let cut := fun (l : List Nat) => (l.drop win.x).take win.w
    let r :=
      if st = 2 then (List.replicate win.w 0, 0)
      else if s.dgMode = 1 then s.mergeLine f.num k y (cut hs) (cut ls)
      else if s.dgMode = 3 then (cut ls, 0)
      else (cut hs, 0)
    let h := f.half k
    let f1 := { f.setHalf k { h with status := h.status.put y (st + 1) } with
      sat := f.sat + r.2, formatErr := f.formatErr || bad }
    let s1 := s.setOpen (some f1)
    let s2 :=
      match f.slot with
      | some j => (s1.writeLine j k y r.1).raiseIf bad Pg.ingress Reg.INGRESS_EVENT_FORMAT_ERR
      | none => s1
    if st = 0 then s2 else s2.degrade k

/-- The EOL blocks of a line: the port passes the line with its status to Ingress, over all its photosites, those outside the window
included (R108, R109, R133). DESIGN CHOICE (log 99). -/
def State.rxEol (s : State) (k line : Nat) : State :=
  let clear := fun (s : State) => s.setPort k { s.port k with segs := [] }
  match s.ingress.openFrame with
  | none => clear s
  | some f =>
    if s.receives k = false ∨ (s.port k).discard ∨ (f.half k).active = false then clear s
    else
      let p := s.portLine k line
      let s1 := clear s
      let s2 :=
        if p.2.2.1 = 1 then s1.count (Pg.link k) Reg.LINK_CONCEAL_LINES
        else if p.2.2.1 = 2 then s1.count (Pg.link k) Reg.LINK_LOST_LINES
        else s1
      let s3 := s2.storeLine k line f p.1 p.2.1 p.2.2.1 p.2.2.2
      if p.2.2.1 = 0 then s3 else s3.degrade k

/-- RX_EOL (R109). -/
def execRxEol (port : Nat) (line : Eol) (s : State) : Host.Outcome State Fault Refusal := .next (s.rxEol port line.line)

/-! ### Closing a frame (R135 to R137) -/

/-- The lines of a half's window that have not arrived. -/
def State.absentLines (s : State) (f : OpenFrame) (k : Nat) : List Nat :=
  (List.range (s.window k).h).filter fun y => decide ((f.half k).status.get y = 0)

/-- The status codes of a half's window lines: those that have not arrived are lost. DEDUCED (log 35). -/
def State.lineCodes (s : State) (f : OpenFrame) (k : Nat) : List Nat :=
  (List.range (s.window k).h).map fun y =>
    let c := (f.half k).status.get y
    if c = 0 then 2 else c - 1

/-- Line statuses as the bytes of the record, four lines a byte (R137). -/
def statusBytes (codes : List Nat) : List Byte :=
  (List.range 2176).map fun i =>
    BitVec.ofNat 8 (codes.getD (4 * i) 0 + 4 * codes.getD (4 * i + 1) 0 + 16 * codes.getD (4 * i + 2) 0
      + 64 * codes.getD (4 * i + 3) 0)

/-- Whether a condition of a record's FLAGS, as its bit. -/
def flagBit (b : Bool) (i : Nat) : Nat := if b then 2 ^ i else 0

/-- FLAGS of a frame's record as it closes (R136, R137). -/
def State.recordFlags (s : State) (f : OpenFrame) (short : Bool) : Nat :=
  let degraded := s.portsUsed.any fun k => (s.lineCodes f k).any fun c => decide (c ≠ 0)
  flagBit degraded 0 + flagBit f.paramLate 1 + flagBit f.frameSeq 2 + flagBit (s.pairMode && f.a.missing) 3
    + flagBit (s.pairMode && f.b.missing) 4 + flagBit short 5 + flagBit f.formatErr 7

/-- The metadata record of a frame (R136). -/
def State.record (s : State) (f : OpenFrame) (flags : Nat) : List Byte :=
  let codes := fun k => if s.portsUsed.contains k then s.lineCodes f k else []
  let both := codes 0 ++ codes 1
  let cfa := s.on Pg.ingress Reg.INGRESS_CFG_CFA_MODE
  let exposure := ((s.exposures.find? fun e => decide (e.1 = f.num)).map (·.2)).getD {}
  leBytes 4 0x4D465A4B ++ leBytes 2 1 ++ leBytes 2 flags ++ leBytes 8 f.num ++ timeBytes f.sofTime ++ timeBytes exposure
    ++ leBytes 4 f.a.sensorFrame ++ leBytes 4 f.b.sensorFrame ++ leBytes 2 f.a.tag ++ leBytes 2 f.b.tag
    ++ leBytes 2 f.expectedTag ++ leBytes 1 (if cfa then s.fld Pg.ingress Reg.INGRESS_CFG_CFA_MAP else 0) ++ [0]
    ++ leBytes 2 s.rasterW ++ leBytes 2 s.rasterH ++ leBytes 1 s.storedDepth ++ leBytes 1 (if cfa then 1 else 0)
    ++ leBytes 1 s.source ++ leBytes 1 s.dgMode ++ leBytes 2 f.a.lines ++ leBytes 2 f.b.lines
    ++ leBytes 2 (both.filter fun c => decide (c = 1)).length ++ leBytes 2 (both.filter fun c => decide (c = 2)).length
    ++ leBytes 2 f.a.metaBytes.length ++ leBytes 2 f.b.metaBytes.length ++ leBytes 4 f.sat ++ zeros 168
    ++ padTo 1792 f.a.metaBytes ++ padTo 1792 f.b.metaBytes ++ statusBytes (codes 0) ++ statusBytes (codes 1)

/-- Whether a frame belongs to the recording in progress (R64, R139). -/
def State.recorded (s : State) (f : Nat) : Bool :=
  (match s.ctl.recStart with | some a => decide (a ≤ f) | none => false)
    && (match s.ctl.recEnd with | some e => decide (f < e) | none => true)

/-- The Recorder keeps the metadata record of a frame that it is to write (R136, R327). -/
def State.noteMeta (s : State) (f : Nat) (b : List Byte) : State :=
  let r := s.media.reel
  if r.todo.contains f then { s with media := { s.media with reel := { r with metas := (f, b) :: r.metas } } } else s

/-- What reading a slot's record shows once it is written (R135, R145). -/
def State.showRecord (s : State) (f : OpenFrame) (flags : Nat) : State :=
  let s1 := s.setFld64 Pg.ingress Reg.INGRESS_LAST_FRAME_LO Reg.INGRESS_LAST_FRAME_HI f.num
  let s2 := (s1.setFld Pg.ingress Reg.INGRESS_LAST_FLAGS flags).setFld Pg.ingress Reg.INGRESS_SAT_COUNT (min (2 ^ 32 - 1) f.sat)
  s2.raiseIf (decide (0 < f.sat)) Pg.ingress Reg.INGRESS_EVENT_MERGE_SAT

/-- The open frame closes: lines that have not arrived are lost, the record is written and the slot awaits the shared read (R135
to R137). Of a dropped frame nothing is written (R134). -/
def State.closeFrame (s : State) : State :=
  match s.ingress.openFrame with
  | none => s
  | some f =>
    let short := s.portsUsed.any fun k => !(f.half k).missing && !(s.absentLines f k).isEmpty
    let s1 := s.portsUsed.foldl (fun s k => if (s.absentLines f k).isEmpty then s else s.degrade k) s
    let s2 :=
      match f.slot with
      | none => s1
      | some j =>
        let blank := fun (s : State) k =>
          (s.absentLines f k).foldl (fun (s : State) y => s.writeLine j k y (List.replicate (s.window k).w 0)) s
        let flags := s.recordFlags f short
        let s3 := (((s1.portsUsed.foldl blank s1).pokeN (s.slotAddr j) (s.record f flags)).noteMeta f.num (s.record f flags)).raiseIf
          short Pg.ingress Reg.INGRESS_EVENT_FRAME_SHORT
        (s3.setIngress { s3.ingress with ready := s3.ingress.ready ++ [f.num] }).showRecord f flags
    (s2.setOpen none).setFld Pg.ingress Reg.INGRESS_STATE_PHASE (if s.takesFrames then 1 else 0)

/-- The frame closes once every half in use has ended (R135, R143). -/
def State.closeIfDone (s : State) : State :=
  match s.ingress.openFrame with
  | none => s
  | some f => if s.portsUsed.all (fun k => (f.half k).eof || (f.half k).missing) then s.closeFrame else s

/-- The port is LINKED again from the EOF of the last frame of a take (R114). DESIGN CHOICE (log 38). -/
def State.endStreaming (s : State) (k : Nat) : State :=
  if s.takesFrames then s else (s.setPort k { s.port k with streaming := false }).showPort k

/-- A SOF outside the frames of a take: a frame still open at its port closes, and the readout is discarded and counted (R26, R70, R135). -/
def State.stopDiscard (s : State) (k : Nat) : State :=
  let s1 := if s.cutsOpen k then s.portsUsed.foldl (fun (s : State) j => s.endStreaming j) s.closeFrame else s
  (s1.setPort k { s1.port k with discard := true, sof := none }).count Pg.ingress Reg.INGRESS_STOP_DISCARDS

/-- A SOF of a port whose half of the open frame is fixed or received: the readout is discarded and counted (R144). -/
def State.pairDiscard (s : State) (k : Nat) : State :=
  ((s.setPort k { s.port k with discard := true, sof := none }).count Pg.ingress Reg.INGRESS_PAIR_DISCARDS).raise Pg.ingress
    Reg.INGRESS_EVENT_PAIR_DISCARD

/-- Whether a SOF of a port is one that R144 discards. -/
def State.pairBarred (s : State) (k : Nat) : Bool :=
  s.pairMode && s.ingress.openFrame.isSome && !s.joins k && !s.cutsOpen k

/-- A SOF block at a port (R26, R114, R117, R144): the readout is discarded and counted, or it waits for Ingress with PARAM_LATE and
FRAME_SEQ raised as its tag and number tell. DEDUCED (log 37). -/
def State.rxSof (s : State) (k frame tag : Nat) : State :=
  let p := s.port k
  if s.receives k = false ∨ s.portsUsed.contains k = false then s
  else if s.pairBarred k then s.pairDiscard k
  else if s.joins k = false ∧ s.takesFrames = false then s.stopDiscard k
  else
    let n := if s.joins k then s.frameNow else s.nextFrame
    let late := match p.expected n with | some e => tagOlder e tag | none => false
    let s1 := s.setPort k { p with sof := some (frame % 2 ^ 32, tag % 65536), discard := false, metaBuf := [], segs := [],
                                   streaming := true }
    ((s1.showPort k).raiseIf late (Pg.link k) Reg.LINK_EVENT_PARAM_LATE).raiseIf (decide (frame % 2 ^ 32 ≠ n % 2 ^ 32))
      (Pg.link k) Reg.LINK_EVENT_FRAME_SEQ

/-- RX_SOF (R117). -/
def execRxSof (port frame tag : Nat) (s : State) : Host.Outcome State Fault Refusal := .next (s.rxSof port frame tag)

/-- An EOF block: the readout that is discarded ends, or the port's half of the frame ends (R114, R135, R144). -/
def State.rxEof (s : State) (k lines : Nat) : State :=
  let p := s.port k
  if s.receives k = false then s
  else if p.discard then s.setPort k { p with discard := false }
  else
    match s.ingress.openFrame with
    | none => s
    | some f =>
      if (f.half k).active then
        ((s.setOpen (some (f.setHalf k { f.half k with eof := true, lines := lines % 65536 }))).closeIfDone).endStreaming k
      else s

/-- RX_EOF (R135). -/
def execRxEof (port _frame lines : Nat) (s : State) : Host.Outcome State Fault Refusal := .next (s.rxEof port lines)

/-- LINE_TIMEOUT passes on a port without a further line (R135). DESIGN CHOICE (log 3). -/
def State.lineTimeout (s : State) (k : Nat) : State :=
  match s.ingress.openFrame with
  | none => s
  | some f =>
    if (f.half k).active then
      ((s.setOpen (some (f.setHalf k { f.half k with eof := true }))).closeIfDone).endStreaming k
    else s

/-- LINE_TIMEOUT (R135). -/
def execLineTimeout (port : Nat) (s : State) : Host.Outcome State Fault Refusal := .next (s.lineTimeout port)

/-- The pair window passes: a half without its SOF is fixed as lost (R143). DESIGN CHOICE (log 3). -/
def State.pairExpired (s : State) : State :=
  match s.ingress.openFrame with
  | none => s
  | some f =>
    let gone := s.portsUsed.filter fun k => !(f.half k).sof && !(f.half k).missing
    if s.pairMode = false ∨ gone.isEmpty then s
    else
      let f1 := gone.foldl (fun f k => f.setHalf k { f.half k with used := true, missing := true }) f
      ((s.setOpen (some f1)).raise Pg.ingress Reg.INGRESS_EVENT_PAIR_MISSING).closeIfDone

/-- PAIR_WINDOW_EXPIRY (R143). -/
def execPairWindowExpiry (s : State) : Host.Outcome State Fault Refusal := .next s.pairExpired

/-! ### Configuration check (R126, R128, R138) -/

/-- Whether a window breaks R126. -/
def Window.bad (w : Window) : Bool :=
  decide (w.x % 8 ≠ 0) || decide (w.w % 8 ≠ 0) || decide (w.y % 2 ≠ 0) || decide (w.h % 2 ≠ 0)
    || decide (w.w < 256) || decide (16384 < w.w) || decide (w.h < 64) || decide (8640 < w.h)

/-- Whether the colour filter map holds the code 0b11 (R127). -/
def cfaInvalid (m : Nat) : Bool := (List.range 4).any fun i => decide (m / 4 ^ i % 4 = 3)

/-- Whether the Ingress configuration fails the check of R128. -/
def State.ingressBad (s : State) : Bool :=
  let ports := s.portsUsed
  let cfg := fun k (f : Fld) => s.fld (Pg.link k) f
  let cfa := s.on Pg.ingress Reg.INGRESS_CFG_CFA_MODE
  let slots := s.fld Pg.ingress Reg.INGRESS_RING_CFG_SLOTS
  decide (s.source = 3) || ports.any (fun k => decide (cfg k Reg.LINK_CFG_DEPTH = 3)) || ports.any (fun k => (s.window k).bad)
    || decide (16384 < s.rasterW) || decide (8640 < s.rasterH)
    || (cfa && cfaInvalid (s.fld Pg.ingress Reg.INGRESS_CFG_CFA_MAP))
    || ports.any (fun k => decide (cfg k Reg.LINK_CFG_CONCEAL_HPER ≠ if cfa then 1 else 0))
    || ports.any (fun k => decide (s.dgMode = 0) == decide (cfg k Reg.LINK_CFG_DUAL_GAIN = 1))
    || (s.pairMode && (s.ganged || decide ((s.window 0).h ≠ (s.window 1).h)
      || decide (cfg 0 Reg.LINK_CFG_DEPTH ≠ cfg 1 Reg.LINK_CFG_DEPTH)
      || decide (cfg 0 Reg.LINK_CFG_DUAL_GAIN ≠ cfg 1 Reg.LINK_CFG_DUAL_GAIN)))
    || decide (slots < 2) || decide (16 < slots)
    || decide (2 ^ 34 < s.preroll * s.slotBytes)
    || decide (s.fld Pg.dramctl Reg.DRAMCTL_RING_RESERVE * 2 ^ 21 < s.ringSlots * s.slotBytes)

/-! ### Take START and STOP at Ingress and the ports -/

/-- What Ingress computes and clears at a take START (R129, R130, R145). -/
def State.ingressStart (s : State) : State :=
  let i := Pg.ingress
  let s1 := ((s.setFld i Reg.INGRESS_LINE_STRIDE s.stride).setFld i Reg.INGRESS_SLOT_SIZE (s.slotBytes / 4096)).setFld i
    Reg.INGRESS_DEPTH_STORED s.storedDepth
  let s2 := [Reg.INGRESS_DROPPED_FRAMES, Reg.INGRESS_PAIR_DISCARDS, Reg.INGRESS_SAT_COUNT].foldl (fun s f => s.setFld i f 0) s1
  (s2.setIngress { freeCtr := 0 }).showRing.setFld i Reg.INGRESS_STATE_PHASE 1

end Sys2Proof.Machine
end

