-- ==== Sys2Proof/Machine/FilterStore.lean ====
section
/-! DEFINITION. The Filter Store (R194 to R206, R314): the placement of slots, busy slots, the check of the slots that committed
values name, and loads of packages. -/

namespace Sys2Proof.Machine

/-! ### Slots (R194 to R198) -/

/-- The table kind of a slot; the reserved kinds act as 0 (R194). DEDUCED (log 40). -/
def slotKind (kind : Nat) : Nat := if 1 ≤ kind ∧ kind ≤ 4 then kind else 0

/-- The 4 KiB blocks of a kind (R194). -/
def kindBlocks : Nat → Nat
  | 1 => 2 | 2 => 8 | 3 => 53 | 4 => 17 | _ => 0

/-- The bytes of a kind (R194). -/
def kindBytes : Nat → Nat
  | 1 => 6144 | 2 => 29478 | 3 => 215622 | 4 => 67080 | _ => 0

/-- The kind of a slot. DEDUCED (log 40). -/
def State.slotKindOf (s : State) (k : Nat) : Nat := slotKind (s.fld Pg.fstore (Reg.FSTORE_SLOT_CFG_KIND k))

/-- The state of a slot: 0 EMPTY, 1 LOADING, 2 READY, 3 NOFIT; with the Filter Store disabled no slot is READY (R198, R206). -/
def State.slotState (s : State) (k : Nat) : Nat :=
  let st := s.fld Pg.fstore (Reg.FSTORE_SLOT_STATUS_STATE k)
  if st = 2 ∧ s.on Pg.fstore Reg.FSTORE_CTRL_ENABLE = false then 0 else st

/-- Whether a slot holds a kind (R198). -/
def State.holdsKind (s : State) (k kind : Nat) : Bool := decide (s.slotState k = 2) && decide (s.slotKindOf k = kind)

/-- A slot set to a state without contents. -/
def State.emptySlot (s : State) (k st : Nat) : State :=
  ((s.setFld Pg.fstore (Reg.FSTORE_SLOT_STATUS_STATE k) st).setFld Pg.fstore (Reg.FSTORE_SLOT_STATUS_FMT k) 0).setFld Pg.fstore
    (Reg.FSTORE_SLOT_CRC k) 0

/-- One slot placed at the block that follows the last slot placed, or left NOFIT; it keeps its state when `old` had it with the
same kind and first block (R195, R196). -/
def placeSlot (old : State) (acc : State × Nat) (k : Nat) : State × Nat :=
  let s := acc.1
  let kind := s.slotKindOf k
  let n := kindBlocks kind
  let fits := decide (kind ≠ 0) && decide (acc.2 + n ≤ 256)
  let was := old.on Pg.fstore (Reg.FSTORE_SLOT_CFG_PLACED k)
  let same := decide (old.slotKindOf k = kind) && was && decide (old.fld Pg.fstore (Reg.FSTORE_SLOT_CFG_BASE k) = acc.2)
  let s1 := (s.setFld Pg.fstore (Reg.FSTORE_SLOT_CFG_BASE k) (if fits then acc.2 else 0)).setOn Pg.fstore
    (Reg.FSTORE_SLOT_CFG_PLACED k) fits
  if fits then (if same then s1 else s1.emptySlot k 0, acc.2 + n)
  else if kind = 0 then (s1.emptySlot k 0, acc.2)
  else ((s1.emptySlot k 3).raise Pg.fstore Reg.FSTORE_EVENT_LAYOUT_FULL, acc.2)

/-- The placement recomputed: `old` is the state before the change (R195 to R197). -/
def State.placeSlots (s old : State) : State :=
  let r := (List.range 64).foldl (placeSlot old) (s, 0)
  let demand := ((List.range 64).map fun k => kindBlocks (s.slotKindOf k)).sum
  (r.1.setFld Pg.fstore Reg.FSTORE_LAYOUT_USED r.2).setFld Pg.fstore Reg.FSTORE_LAYOUT_DEMAND demand

/-- The Filter Store loses its contents: the placement is recomputed and every placed slot is EMPTY (R198). -/
def State.fstoreClear (s : State) : State :=
  let s1 := s.placeSlots s
  let s2 := (List.range 64).foldl (fun s k => if s.slotState k = 3 then s else s.emptySlot k 0) s1
  { s2 with fstore := { s2.fstore with mem := [] } }

/-! ### Busy slots and the slots that values name (R171, R199) -/

/-- The fields that name slots on a Prism page, each with its stage enable and the kinds it may name (R171, R199). -/
def slotFields (b : Blk) : List (Fld × Fld × List Nat) :=
  match b with
  | .prismFe => [(Reg.PRISM_FE_SHADE_SLOT, Reg.PRISM_FE_STAGES_SHADE_EN, [4])]
  | .prismBe =>
    [(Reg.PRISM_BE_PRECURVE_SLOT_SLOT, Reg.PRISM_BE_STAGES_PRECURVE_EN, [1]),
      (Reg.PRISM_BE_LUT_SLOT_SLOT, Reg.PRISM_BE_STAGES_LUT_EN, [2, 3]),
      (Reg.PRISM_BE_TONE_SLOT_SLOT, Reg.PRISM_BE_STAGES_TONE_EN, [1])]
  | _ => []

/-- The fields that name slots on a page. -/
def pageSlots (p : Nat) : List (Fld × Fld × List Nat) :=
  match pageBlk p with
  | some (b, _) => slotFields b
  | none => []

/-- The Prism pages. -/
def prismPages : List Nat := Pg.prismFe :: (List.range 8).map Pg.prismBe

/-- Whether a page's stages may name slots: a back end counts only while it is enabled (R199). -/
def State.slotReader (s : State) (p : Nat) : Bool := decide (p = Pg.prismFe) || s.on p Reg.PRISM_BE_CTRL_ENABLE

/-- The slots named under an enabled stage of a page by a register set, read by `g` (R199). -/
def namedSlots (p : Nat) (g : Fld → Nat) : List Nat :=
  (pageSlots p).filterMap fun e => if g e.2.1 = 1 then some (g e.1) else none

/-- A field of a page's pending snapshot. -/
def State.snapFld (s : State) (p : Nat) (f : Fld) : Nat :=
  match (s.snapOf p).find? fun e => decide (e.1 = f.off) with
  | some e => Word.bits e.2 f.lo f.width
  | none => 0

/-- A frame inside Prism. -/
def State.pic (s : State) (f : Nat) : Option Pic := s.split.pics.find? fun p => decide (p.frame = f)

/-- Whether a rendition is in use (R182). -/
def State.rendUsed (s : State) (n : Nat) : Bool := s.on Pg.split (Reg.SPLIT_REND_CFG n)

/-- Whether the Splitter makes a rendition: it is enabled and the rendition is in use. A Splitter that is not enabled takes no rendition in
use. DEDUCED (log 39). -/
def State.rendRuns (s : State) (n : Nat) : Bool := s.on Pg.split Reg.SPLIT_CTRL_ENABLE && s.rendUsed n

/-- Whether a frame inside Prism has not left the stage of a page that reads slots: F5 for the front end, the back end for the
others (R199). -/
def State.inStage (s : State) (p : Nat) (q : Pic) : Bool :=
  if p = Pg.prismFe then decide (q.pf.length < q.h)
  else s.rendRuns (p - Pg.prismBe 0) && !(q.rends.get (p - Pg.prismBe 0)).done

/-- The frames that a page's values still govern (R199). -/
def State.governed (s : State) (p : Nat) : List Nat :=
  let opened := match s.ingress.openFrame with
    | some f => if f.slot.isSome then [f.num] else []
    | none => []
  opened ++ s.ingress.ready ++ (s.split.pics.filter (s.inStage p)).map (·.frame)

/-- The slots that a page keeps busy (R199). -/
def State.pageBusy (s : State) (p : Nat) : List Nat :=
  if s.slotReader p then
    namedSlots p (s.actv p)
      ++ (if s.fld p Reg.COMMON_COMMIT_PENDING = 1 then namedSlots p (s.snapFld p) else [])
      ++ (s.governed p).flatMap fun f => namedSlots p (s.fval f p)
  else []

/-- Whether a slot is busy (R199). -/
def State.slotBusy (s : State) (k : Nat) : Bool := prismPages.any fun p => (s.pageBusy p).contains k

/-- SLOT_FREED when a slot that was busy in `s0` is no longer busy (R199). -/
def noteFreed (s0 s : State) : State :=
  s.raiseIf ((prismPages.flatMap s0.pageBusy).any fun k => !s.slotBusy k) Pg.fstore Reg.FSTORE_EVENT_SLOT_FREED

/-- The model's own word of a page's active copies that says which of its slot fields named a slot of the wrong kind when the
values were taken; it goes with the values of each frame. -/
def bypassFld : Fld := ⟨0x7FC, 0, 3⟩

/-- Which slot fields of a page's active copies name a slot that does not hold the required kind, as a mask (R171). DEDUCED (log 39). -/
def State.wrongSlots (s : State) (p : Nat) : Nat :=
  ((pageSlots p).zipIdx.map fun e => if e.1.2.2.any (s.holdsKind (s.actv p e.1.1)) then 0 else 2 ^ e.2).sum

/-- SLOT_ERR of a Prism page. -/
def slotErr (p : Nat) : Fld := if p = Pg.prismFe then Reg.PRISM_FE_EVENT_SLOT_ERR else Reg.PRISM_BE_EVENT_SLOT_ERR

/-- The kinds of the slots that a Prism page's values name are checked as the values are taken (R171). DEDUCED (log 39). -/
def State.checkSlots (s : State) (p : Nat) : State :=
  if prismPages.contains p then
    let m := s.wrongSlots p
    (s.setFld p (actOf bypassFld) m).raiseIf (decide (m ≠ 0)) p (slotErr p)
  else s

/-- The commit points passed when FRAME_NOW becomes `n`, with the check of the slots that the values taken name (R77, R171, R199). -/
def State.passCommit (s : State) (n : Nat) : State :=
  let pages := (s.ctl.groups.filter fun g => decide (g.1 ≤ n + 1)).flatMap (·.2)
  noteFreed s (pages.foldl (fun s p => s.checkSlots p) (s.commitPoint n))

/-- Frame `n` begins: groups for it and earlier ones have taken effect, its values are kept, and the commit point of frame n + 1 passes
(R77 to R79). -/
def State.frameValues (s : State) (n : Nat) : State :=
  let s1 := if n = 0 then s else s.passCommit (n - 1)
  (s1.keepValues n).passCommit n

/-- FRAME_NOW set (R53). -/
def State.setFrameNow (s : State) (n : Nat) : State :=
  s.setFld64 Pg.global Reg.GLOBAL_FRAME_NOW_LO Reg.GLOBAL_FRAME_NOW_HI n

/-- Whether a page's shadows would name, under an enabled stage, a slot that is not READY (R200). -/
def State.namesUnready (s : State) (p : Nat) : Bool :=
  (namedSlots p (s.fld p)).any fun k => decide (s.slotState k ≠ 2)

/-- The effect of a write of SLOT_CFG: the placement is recomputed (R195, R196). -/
def writeSlotCfg (r : Req) (k : Nat) (v : Word) (s : State) : State :=
  let o := 0x100 + 4 * k
  if 64 ≤ k then s
  else withWrite r Pg.fstore o v s fun s0 old new => (plainStore r Pg.fstore o s0 old new).placeSlots s0

/-- SLOT_CFG_WRITE (R196). -/
def execSlotCfgWrite (r : Req) (k : Nat) (v : Word) (s : State) : Host.Outcome State Fault Refusal :=
  .next (writeSlotCfg r k v s)

/-! ### Loads (R201 to R203, R314) -/

/-- The status of LOAD SLOT for a RESULT (R314). -/
def loadStatus (result : Nat) : Nat :=
  if result = 0 then 0 else if result = 1 then 0x0C else if result = 8 then 0x30 else 0x02

/-- A load ends with a RESULT: BUSY clears, LOAD_DONE and LOAD_ERR rise, and a command completes (R202, R314). -/
def State.endLoad (s : State) (cmd : Option Nat) (result : Nat) : State :=
  let s1 : State := { s with fstore := { s.fstore with load := none } }
  let s2 := (s1.setFld Pg.fstore Reg.FSTORE_LOAD_CTRL_BUSY 0).setFld Pg.fstore Reg.FSTORE_LOAD_CTRL_RESULT result
  let s3 := (s2.raise Pg.fstore Reg.FSTORE_EVENT_LOAD_DONE).raiseIf (decide (result ≠ 0)) Pg.fstore Reg.FSTORE_EVENT_LOAD_ERR
  s3.finish? cmd (loadStatus result) 0 result

/-- The RESULT of steps 1 and 2 of a load from a package header; 0 lets the copy begin (R202). -/
def State.loadCheck (s : State) (slot src : Nat) : Nat :=
  let hdr := s.peekN src 64
  let kind := s.slotKindOf slot
  if s.slotBusy slot then 1
  else if kind = 0 ∨ s.slotState slot = 3 ∨ s.on Pg.fstore Reg.FSTORE_CTRL_ENABLE = false then 2
  else if s.dramSize < src + 64 then 8
  else if leAt hdr 0 4 ≠ 0x53465A4B ∨ leAt hdr 4 2 ≠ 1 then 3
  else if leAt hdr 6 1 ≠ kind then 4
  else if leAt hdr 8 4 ≠ kindBytes kind then 5
  else if leAt hdr 0x3C 4 ≠ crc32c (hdr.take 0x3C) then 6
  else 0

/-- A load begins: its checks end it at once, or the slot is LOADING while the payload is copied (R202). DEDUCED (log 40). -/
def State.beginLoad (s : State) (slot src : Nat) (cmd : Option Nat) : State :=
  let r := s.loadCheck slot src
  if r ≠ 0 then s.endLoad cmd r
  else
    let hdr := s.peekN src 64
    let l : FsLoad := ⟨slot, src + 64, s.slotKindOf slot, leAt hdr 0x0C 4, leAt hdr 7 1, cmd⟩
    let s1 := (s.emptySlot slot 1).setFld Pg.fstore Reg.FSTORE_LOAD_CTRL_BUSY 1
    { s1 with fstore := { s1.fstore with load := some l } }

/-- The effect of a write of LOAD_CTRL: SLOT is stored and GO starts a load; GO while a load runs, or while a power-down of the domain is
held, discards the write (R202, R483). DEDUCED (log 40). -/
def writeLoadCtrl (r : Req) (v : Word) (s : State) : State :=
  withWrite r Pg.fstore 0x068 v s fun s _ _ =>
    if wfld v Reg.FSTORE_LOAD_CTRL_GO = 1 ∧ (s.fstore.load.isSome ∨ (s.heldReq Pg.fstore).isSome) then s.reject Pg.fstore
    else
      let s1 := s.setFld Pg.fstore Reg.FSTORE_LOAD_CTRL_SLOT (wfld v Reg.FSTORE_LOAD_CTRL_SLOT)
      if wfld v Reg.FSTORE_LOAD_CTRL_GO = 1 then
        s1.beginLoad (wfld v Reg.FSTORE_LOAD_CTRL_SLOT)
          (64 * s1.fld Pg.fstore Reg.FSTORE_LOAD_SRC_LO + 2 ^ 32 * s1.fld Pg.fstore Reg.FSTORE_LOAD_SRC_HI) none
      else s1

/-- FSTORE_LOAD (R202). -/
def execFstoreLoad (r : Req) (v : Word) (s : State) : Host.Outcome State Fault Refusal := .next (writeLoadCtrl r v s)

/-- The payload of the running load has been copied: its CRC decides (R202). A slot that the placement has moved since has no place for it:
RESULT 2. DEDUCED (log 40). -/
def State.loadDone (s : State) : State :=
  match s.fstore.load with
  | none => s
  | some l =>
    let n := kindBytes l.kind
    let data := s.peekN l.src n
    if s.fld Pg.fstore (Reg.FSTORE_SLOT_STATUS_STATE l.slot) ≠ 1 then s.endLoad l.cmd 2
    else if s.dramSize < l.src + n then (s.emptySlot l.slot 0).endLoad l.cmd 8
    else if crc32c data ≠ l.crc then (s.emptySlot l.slot 0).endLoad l.cmd 7
    else
      let base := 4096 * s.fld Pg.fstore (Reg.FSTORE_SLOT_CFG_BASE l.slot)
      let s1 : State := { s with fstore := { s.fstore with mem := s.fstore.mem.setN base data } }
      let s2 := ((s1.setFld Pg.fstore (Reg.FSTORE_SLOT_STATUS_STATE l.slot) 2).setFld Pg.fstore
        (Reg.FSTORE_SLOT_STATUS_FMT l.slot) l.fmt).setFld Pg.fstore (Reg.FSTORE_SLOT_CRC l.slot) l.crc
      s2.endLoad l.cmd 0

/-- FSTORE_LOAD_DONE (R202). -/
def execFstoreLoadDone (s : State) : Host.Outcome State Fault Refusal := .next s.loadDone

/-! ### Reading tables -/

/-- A 2-byte entry of a slot's table (R156, R167, R170). -/
def State.entry (s : State) (slot i : Nat) : Nat :=
  let a := 4096 * s.fld Pg.fstore (Reg.FSTORE_SLOT_CFG_BASE slot) + 2 * i
  leNat (s.fstore.mem.getN a 2)

end Sys2Proof.Machine
end

