-- ==== Sys2Proof/Machine/PrismMath.lean ====
section
/-! DEFINITION. The arithmetic of Prism (R146 to R148, R153, R157, R159 to R163, R165 to R176, R187 to R190): exact fractions, PF24
and its rounding, and the formula of every stage on one sample or one line. -/

namespace Sys2Proof.Machine

/-! ### Exact fractions and PF24 (R146 to R148) -/

/-- An exact fraction; its denominator is above zero. DEDUCED (log 44). -/
structure Frac where
  num : Int
  den : Nat
  deriving DecidableEq, Repr, Inhabited

namespace Frac

/-- A whole number. -/
def ofInt (n : Int) : Frac := ⟨n, 1⟩

/-- A number of units of 2^−k. -/
def scaled (n : Int) (k : Nat) : Frac := ⟨n, 2 ^ k⟩

/-- Sum. -/
def add (a b : Frac) : Frac := ⟨a.num * b.den + b.num * a.den, a.den * b.den⟩

/-- Difference. -/
def sub (a b : Frac) : Frac := ⟨a.num * b.den - b.num * a.den, a.den * b.den⟩

/-- Product. -/
def mul (a b : Frac) : Frac := ⟨a.num * b.num, a.den * b.den⟩

/-- Quotient by a fraction above zero. -/
def div (a b : Frac) : Frac := ⟨a.num * b.den, a.den * b.num.natAbs⟩

/-- Absolute value. -/
def abs (a : Frac) : Frac := ⟨a.num.natAbs, a.den⟩

/-- Whether one fraction is below another. -/
def lt (a b : Frac) : Bool := decide (a.num * b.den < b.num * a.den)

/-- Whether one fraction is not above another. -/
def le (a b : Frac) : Bool := decide (a.num * b.den ≤ b.num * a.den)

/-- The largest whole number that is not above a fraction. -/
def floor (a : Frac) : Int := a.num / a.den

/-- The fraction held between 0 and 1. -/
def clamp01 (a : Frac) : Frac := if a.num < 0 then ofInt 0 else if (a.den : Int) < a.num then ofInt 1 else a

/-- The sum of a list. -/
def sum (l : List Frac) : Frac := l.foldl add (ofInt 0)

end Frac

/-- A PF24 code as it acts: exponent 0 is zero, and exponent 127, which only a register can hold, is the largest finite magnitude
with its sign (R146). -/
def pfNormal (c : Nat) : Nat :=
  let e := c / 65536 % 128
  if e = 0 then 0 else if e = 127 then c / 8388608 % 2 * 8388608 + 0x7EFFFF else c % 16777216

/-- The value of a PF24 code (R146). -/
def pfVal (c : Nat) : Frac :=
  let n := pfNormal c
  let e := n / 65536 % 128
  if e = 0 then Frac.ofInt 0
  else
    let m : Int := (65536 + n % 65536) * 2 ^ e
    Frac.scaled (if n / 8388608 % 2 = 1 then -m else m) 79

/-- The binary exponent of a fraction above zero: the e with 2^e ≤ a / d < 2^(e + 1). -/
def exponentOf (a d : Nat) : Int :=
  let e : Int := (Nat.log2 a : Int) - (Nat.log2 d : Int)
  let below := if 0 ≤ e then decide (a < d * 2 ^ e.toNat) else decide (a * 2 ^ (-e).toNat < d)
  if below then e - 1 else e

/-- The quotient rounded to the nearest whole number, a tie going to the even one. -/
def roundEven (a d : Nat) : Nat :=
  let q := a / d
  let r := a % d
  if 2 * r < d then q else if d < 2 * r then q + 1 else if q % 2 = 0 then q else q + 1

/-- The PF24 code of a fraction and whether it saturated (R148). -/
def pfRoundSat (x : Frac) : Nat × Bool :=
  let a := x.num.natAbs
  if a = 0 then (0, false)
  else
    let e := exponentOf a x.den
    let q := if e ≤ 16 then roundEven (a * 2 ^ (16 - e).toNat) x.den else roundEven a (x.den * 2 ^ (e - 16).toNat)
    let r := if q = 131072 then (e + 1, 65536) else (e, q)
    let sign := if x.num < 0 then 8388608 else 0
    if r.1 < -62 then (0, false)
    else if 63 < r.1 then (sign + 0x7EFFFF, true)
    else (sign + (r.1 + 63).toNat * 65536 + (r.2 - 65536), false)

/-- The PF24 code of a fraction (R148). DEDUCED (log 44). -/
def pfRound (x : Frac) : Nat := (pfRoundSat x).1

/-! ### Addressing outside a raster (R159) -/

/-- Whole-sample reflection of an index into 0 to `n` − 1. -/
def reflect (n : Nat) (i : Int) : Nat :=
  if i < 0 then min (n - 1) (-i).toNat else if i < n then i.toNat else (2 * (n : Int) - 2 - i).toNat

/-- An element of a list of lines. -/
def at2 {α : Type} [Inhabited α] (m : List (List α)) (x y : Nat) : α := (m.getD y []).getD x default

/-! ### Front end -/

/-- The mean of the eligible neighbours rounded half away from zero (R153). DEDUCED (log 44). -/
def meanAway (l : List Int) : Int :=
  let n : Nat := l.length
  let s := l.sum
  let q : Int := (2 * s.natAbs + n) / (2 * n)
  if s < 0 then -q else q

/-- The node and fraction of the shading grid along one axis: `nodes` steps over a length (R157). -/
def shadePos (x nodes len : Nat) : Nat × Nat :=
  let u := (2 * x + 1) * nodes * 65536 / len
  (u / 65536, u % 65536)

/-- The shading gain between four nodes (R157). -/
def shadeGain (g00 g10 g01 g11 fu fv : Nat) : Frac :=
  Frac.scaled (((g00 * (65536 - fu) + g10 * fu) * (65536 - fv) + (g01 * (65536 - fu) + g11 * fu) * fv : Nat) : Int) 44

/-- The colour filter code at a position of the period (R127). -/
def cfaColour (map x y : Nat) : Nat := map / 4 ^ (2 * (y % 2) + x % 2) % 4

/-- A rounded sum of products. -/
def dot (cs : List (Int × Nat)) (k : Nat) (off : Frac) : Nat × Bool :=
  pfRoundSat ((cs.map fun c => (Frac.scaled c.1 k).mul (pfVal c.2)).foldl Frac.add off)

/-- Half of a fraction, twice and four times smaller. -/
def Frac.over (a : Frac) (n : Nat) : Frac := ⟨a.num, a.den * n⟩

/-- The four quantities of the green estimate at a red or blue site: Gh, Gv, Dh and Dv, before rounding (R160). -/
def greenParts (c l r u d ll rr uu dd : Frac) : List Frac :=
  let twice := c.add c
  let lapH := (twice.sub ll).sub rr
  let lapV := (twice.sub uu).sub dd
  [((l.add r).over 2).add (lapH.over 4), ((u.add d).over 2).add (lapV.over 4), (l.sub r).abs.add lapH.abs,
    (u.sub d).abs.add lapV.abs]

/-- Green from its four rounded quantities, before rounding (R160). -/
def greenMix (q : List Frac) : Frac :=
  let gh := q.getD 0 default
  let gv := q.getD 1 default
  let dh := q.getD 2 default
  let dv := q.getD 3 default
  if (dh.add dv).num = 0 then (gh.add gv).over 2 else ((gh.mul dv).add (gv.mul dh)).div (dh.add dv)

/-- A fraction as it stands after rounding (R148). DEDUCED (log 44). -/
def rounded (x : Frac) : Frac := pfVal (pfRound x)

/-- How many of some formulas saturate (R148). -/
def satCount (l : List Frac) : Nat := (l.filter fun x => (pfRoundSat x).2).length

/-- What the debayer needs of a frame: its size, its filter map and the F5 output at a place inside the raster. -/
structure Mosaic where
  w : Nat
  h : Nat
  map : Nat
  p : Nat → Nat → Nat

/-- The F5 output with reflection (R159). -/
def Mosaic.val (m : Mosaic) (x y : Int) : Frac := pfVal (m.p (reflect m.w x) (reflect m.h y))

/-- The filter colour with reflection. -/
def Mosaic.colour (m : Mosaic) (x y : Int) : Nat := cfaColour m.map (reflect m.w x) (reflect m.h y)

/-- The quantities of the green estimate at a red or blue site (R160). -/
def Mosaic.parts (m : Mosaic) (x y : Int) : List Frac :=
  greenParts (m.val x y) (m.val (x - 1) y) (m.val (x + 1) y) (m.val x (y - 1)) (m.val x (y + 1)) (m.val (x - 2) y)
    (m.val (x + 2) y) (m.val x (y - 2)) (m.val x (y + 2))

/-- Green at a site inside the raster, before rounding (R160). -/
def Mosaic.greenExact (m : Mosaic) (x y : Int) : Frac :=
  if m.colour x y = 1 then m.val x y else greenMix ((m.parts x y).map rounded)

/-- Green at a site inside the raster (R160). -/
def Mosaic.green (m : Mosaic) (x y : Int) : Frac := rounded (m.greenExact x y)

/-- The colour difference of a red or blue site, before rounding (R161). -/
def Mosaic.deltaExact (m : Mosaic) (x y : Int) : Frac := (m.val x y).sub (m.green x y)

/-- The colour difference of a red or blue site, with reflection of the derived array (R159, R161). -/
def Mosaic.delta (m : Mosaic) (x y : Int) : Frac := rounded (m.deltaExact (reflect m.w x) (reflect m.h y))

/-- Red, green and blue of a site before rounding (R160, R161). -/
def Mosaic.rgbExact (m : Mosaic) (x y : Int) : Frac × Frac × Frac :=
  let g := m.green x y
  let own := m.val x y
  let diag := fun (_ : Unit) =>
    g.add ((Frac.sum [m.delta (x - 1) (y - 1), m.delta (x + 1) (y - 1), m.delta (x - 1) (y + 1), m.delta (x + 1) (y + 1)]).over 4)
  let horiz := fun (_ : Unit) => g.add (((m.delta (x - 1) y).add (m.delta (x + 1) y)).over 2)
  let vert := fun (_ : Unit) => g.add (((m.delta x (y - 1)).add (m.delta x (y + 1))).over 2)
  match m.colour x y with
  | 0 => (own, g, diag ())
  | 2 => (diag (), g, own)
  | _ => if m.colour (x + 1) y = 0 then (horiz (), g, vert ()) else (vert (), g, horiz ())

/-- Red, green and blue of a site as PF24 codes (R160, R161). -/
def Mosaic.rgb (m : Mosaic) (x y : Nat) : Nat × Nat × Nat :=
  let e := m.rgbExact x y
  (pfRound e.1, pfRound e.2.1, pfRound e.2.2)

/-- The saturations among the formulas of a site, each counted once (R148, R160, R161). -/
def Mosaic.sats (m : Mosaic) (x y : Nat) : Nat :=
  let e := m.rgbExact x y
  let site := if m.colour x y = 1 then [] else m.parts x y ++ [m.greenExact x y, m.deltaExact x y]
  satCount (site ++ [e.1, e.2.2])

/-- A 3 × 3 matrix of S3.16 coefficients with offsets applied to a pixel; whether a component saturated (R163, R165). -/
def matrix3 (c : Nat → Nat → Int) (off : Nat → Frac) (p : Nat × Nat × Nat) : (Nat × Nat × Nat) × Bool :=
  let row := fun k => dot [(c k 0, p.1), (c k 1, p.2.1), (c k 2, p.2.2)] 16 (off k)
  (((row 0).1, (row 1).1, (row 2).1), (row 0).2 || (row 1).2 || (row 2).2)

/-- A function applied to the three components of a pixel. -/
def map3 (f : Nat → Nat → Nat) (p : Nat × Nat × Nat) : Nat × Nat × Nat := (f 0 p.1, f 1 p.2.1, f 2 p.2.2)

/-! ### Filter Store entries (R170) -/

/-- The value of a table entry: an unsigned fraction of 65,535, or a binary16 number (R170). -/
def entryVal (fmt v : Nat) : Frac :=
  if fmt = 0 then ⟨v, 65535⟩
  else
    let e := v / 1024 % 32
    let m := v % 1024
    let mag : Frac :=
      if e = 31 then (if m = 0 then Frac.ofInt 65504 else Frac.ofInt 0)
      else if e = 0 then Frac.scaled m 24
      else Frac.scaled (((1024 + m) * 2 ^ e : Nat) : Int) 25
    if v / 32768 % 2 = 1 then ⟨-mag.num, mag.den⟩ else mag

/-! ### Back end -/

/-- The value between two nodes. -/
def lerp (a b f : Frac) : Frac := a.add ((b.sub a).mul f)

/-- The pre-curve: `t` gives the nodes and `e` is E of R166. -/
def preCurve (t : Nat → Frac) (e : Int) (x : Nat) : Nat :=
  let v := pfVal x
  let c := pfNormal x
  let pow := fun (i : Int) => if 0 ≤ i then (⟨2 ^ i.toNat, 1⟩ : Frac) else ⟨1, 2 ^ (-i).toNat⟩
  if v.lt (pow e) then pfRound ((t 0).add ((((t 1).sub (t 0)).mul ((v.sub (pow e)).mul ⟨64, 1⟩)).mul (pow (-e))))
  else if (pow (e + 16)).le v then pfRound (t 1023)
  else
    let k := (64 * ((c / 65536 % 128 : Nat) - 63 - e) + (c / 1024 % 64 : Nat)).toNat
    if 1022 < k then pfRound (t 1023) else pfRound (lerp (t k) (t (k + 1)) (Frac.scaled (c % 1024 : Nat) 10))

/-- The place of a component in a table of `n` steps over [0, 1]: index and fraction (R167, R169). -/
def tablePos (x n : Nat) : Nat × Frac :=
  let s := ((pfVal x).clamp01).mul (Frac.ofInt n)
  (s.floor.toNat, s.sub (Frac.ofInt s.floor))

/-- The tone curve (R169). -/
def toneCurve (t : Nat → Frac) (x : Nat) : Nat :=
  let s := tablePos x 1023
  if 1022 < s.1 then pfRound (t 1023) else pfRound (lerp (t s.1) (t (s.1 + 1)) s.2)

/-- The index and fraction of a component in an N-node LUT (R167). -/
def lutPos (x n : Nat) : Nat × Frac :=
  let s := ((pfVal x).clamp01).mul (Frac.ofInt (n - 1 : Nat))
  let i := min s.floor.toNat (n - 2)
  (i, s.sub (Frac.ofInt i))

/-- The corners and weights of the tetrahedron that holds the three fractions, by the first matching case (R168). -/
def tetra (fr fg fb : Frac) : List (Frac × (Nat × Nat × Nat)) :=
  let one := Frac.ofInt 1
  let z := (0, 0, 0)
  let u := (1, 1, 1)
  if fg.le fr && fb.le fg then [(one.sub fr, z), (fr.sub fg, (1, 0, 0)), (fg.sub fb, (1, 1, 0)), (fb, u)]
  else if fb.le fr && fg.lt fb then [(one.sub fr, z), (fr.sub fb, (1, 0, 0)), (fb.sub fg, (1, 0, 1)), (fg, u)]
  else if fr.lt fb && fg.le fr then [(one.sub fb, z), (fb.sub fr, (0, 0, 1)), (fr.sub fg, (1, 0, 1)), (fg, u)]
  else if fr.lt fg && fb.le fr then [(one.sub fg, z), (fg.sub fr, (0, 1, 0)), (fr.sub fb, (1, 1, 0)), (fb, u)]
  else if fb.le fg && fr.lt fb then [(one.sub fg, z), (fg.sub fb, (0, 1, 0)), (fb.sub fr, (0, 1, 1)), (fr, u)]
  else [(one.sub fb, z), (fb.sub fg, (0, 0, 1)), (fg.sub fr, (0, 1, 1)), (fr, u)]

/-- The 3D LUT: `node` gives an output component of a node by index (R167, R168). -/
def lut3 (n : Nat) (node : Nat → Nat → Frac) (p : Nat × Nat × Nat) : Nat × Nat × Nat :=
  let r := lutPos p.1 n
  let g := lutPos p.2.1 n
  let b := lutPos p.2.2 n
  let ws := tetra r.2 g.2 b.2
  let out := fun c =>
    pfRound (Frac.sum (ws.map fun w =>
      w.1.mul (node ((r.1 + w.2.1) + n * ((g.1 + w.2.2.1) + n * (b.1 + w.2.2.2))) c)))
  (out 0, out 1, out 2)

/-- The table lookup of the output transfer functions on an input from 0 to 1 (R173). -/
def curveLookup (tr : Nat) (x : Nat) : Nat :=
  let node := fun k => Frac.scaled (curveNode tr k : Nat) 20
  let v := pfVal x
  let c := pfNormal x
  if (Frac.ofInt 1).le v then pfRound (node 1536)
  else if v.lt (⟨1, 2 ^ 24⟩ : Frac) then pfRound ((node 1537).add (((node 0).sub (node 1537)).mul (v.mul ⟨2 ^ 24, 1⟩)))
  else
    let k := 64 * (c / 65536 % 128 - 39) + c / 1024 % 64
    pfRound (lerp (node k) (node (k + 1)) (Frac.scaled (c % 1024 : Nat) 10))

/-- The output transfer function of a component (R172, R173). -/
def transfer (tr nits : Nat) (x : Nat) : Nat :=
  let e := pfRound (pfVal x).clamp01
  if tr = 0 ∨ 3 < tr then e
  else if tr = 1 then curveLookup 1 (pfRound ((pfVal e).mul ⟨nits, 10000⟩))
  else curveLookup tr e

/-- The component matrices in units of 2^−16 (R174). -/
def yccRow (ycc c : Nat) : Int × Int × Int :=
  match ycc, c with
  | 0, 0 => (0, 65536, 0)
  | 0, 1 => (0, 0, 65536)
  | 0, _ => (65536, 0, 0)
  | 2, 0 => (17216, 44434, 3886)
  | 2, 1 => (-9151, -23617, 32768)
  | 2, _ => (32768, -30133, -2635)
  | _, 0 => (13933, 46871, 4732)
  | _, 1 => (-7509, -25259, 32768)
  | _, _ => (32768, -29763, -3005)

/-- A code with the numbers of clampings low and high that it took. -/
abbrev Code := Int × Nat × Nat

/-- The range of the codes of a depth (R175). -/
def codeRange (n : Nat) (full : Bool) : Int × Int :=
  let q : Int := 2 ^ (n - 8)
  if full then (0, 2 ^ n - 1) else (q, 2 ^ n - q - 1)

/-- A code clamped to its range (R175). -/
def clampCode (n : Nat) (full : Bool) (v : Int) : Code :=
  let r := codeRange n full
  if v < r.1 then (r.1, 1, 0) else if r.2 < v then (r.2, 0, 1) else (v, 0, 0)

/-- The quantised code of a component of a pixel (R174, R175). DEDUCED (log 44). -/
def quantise (ycc n : Nat) (full : Bool) (c : Nat) (p : Nat × Nat × Nat) : Code :=
  let m := yccRow ycc c
  let q : Int := 2 ^ (n - 8)
  let chroma := decide (c ≠ 0) && decide (ycc ≠ 0)
  let scale : Int := if full then 2 ^ n - 1 else if chroma then 224 * q else 219 * q
  let off : Int := if full then (if chroma then 2 ^ (n - 1) else 0) else if chroma then 128 * q else 16 * q
  let v := Frac.sum [(Frac.scaled m.1 16).mul (pfVal p.1), (Frac.scaled m.2.1 16).mul (pfVal p.2.1),
    (Frac.scaled m.2.2 16).mul (pfVal p.2.2)]
  clampCode n full ((((v.mul (Frac.ofInt scale)).add (Frac.ofInt off)).add ⟨1, 2⟩).floor)

/-- The horizontal chroma filter at an output column (R176). -/
def chromaH (c : List Int) (i : Nat) : Int :=
  let g := fun (d : Int) => c.getD (reflect c.length (2 * (i : Int) + d)) 0
  (-(g (-3)) + 9 * g (-1) + 16 * g 0 + 9 * g 1 - g 3 + 16) / 32

/-- The vertical chroma filter from lines 2j − 1 to 2j + 2 (R176). -/
def chromaV (vsite : Nat) (a b c d : Int) : Int :=
  if vsite = 0 then (a + 3 * b + 3 * c + d + 4) / 8 else (a + 2 * b + c + 2) / 4

/-! ### The scaler (R187 to R190) -/

/-- The halvings of an axis (R187). -/
def halvings (li lo : Nat) : Nat := if li ≤ 2 * lo then 0 else if li ≤ 4 * lo then 1 else 2

/-- A length after `k` halvings (R187). -/
def halved : Nat → Nat → Nat
  | 0, l => l
  | k + 1, l => halved k ((l + 1) / 2)

/-- The bank of an axis: 0 for fc 1, then 7/8, 3/4, 5/8 and 1/2 (R189). -/
def bankOf (l lo : Nat) : Nat :=
  if l ≤ lo then 0 else if 7 * l ≤ 8 * lo then 1 else if 3 * l ≤ 4 * lo then 2 else if 5 * l ≤ 8 * lo then 3 else 4

/-- The first input index and the phase of an output sample (R188). -/
def polyPos (o l lo : Nat) : Int × Nat :=
  let p : Int := ((2 * o + 1) * l * 65536 / (2 * lo) : Nat) - 32768
  (p / 65536, (p % 65536).toNat / 1024)

/-- The weights of a halving stage in units of 1/64 and its first input offset (R187). -/
def halfTaps (axis : Nat) : List Int := if axis = 0 then [-1, -3, 8, 28, 28, 8, -3, -1] else [-2, 6, 28, 28, 6, -2]

/-- One output of a halving stage from the samples of an axis (R187, R190). -/
def halveAt (axis : Nat) (src : Nat → Nat) (len i : Nat) : Nat :=
  let first : Int := 2 * i - (if axis = 0 then 3 else 2)
  let ws := (halfTaps axis).zipIdx.map fun w => (w.1, src (reflect len (first + w.2)))
  (dot ws 6 (Frac.ofInt 0)).1

/-- The samples of an axis after `k` halvings. -/
def halveN (axis : Nat) : Nat → (Nat → Nat) → Nat → (Nat → Nat)
  | 0, src, _ => src
  | k + 1, src, len => halveN axis k (halveAt axis src len) ((len + 1) / 2)

/-- One output of the scaler along an axis of `li` samples (R187 to R190). -/
def scaleAt (axis : Nat) (src : Nat → Nat) (li lo o : Nat) : Nat :=
  let k := halvings li lo
  let l := halved k li
  let h := halveN axis k src li
  let p := polyPos o l lo
  let first := p.1 - (if axis = 0 then 3 else 2)
  let ws := (List.range (tapCount axis)).map fun t =>
    (polyWeight axis (bankOf l lo) p.2 t, h (reflect l (first + t)))
  (dot ws 14 (Frac.ofInt 0)).1

/-- The last input line that an output line of the vertical scaler reads (R187, R188). -/
def lastLine (li lo o : Nat) : Nat :=
  let k := halvings li lo
  let l := halved k li
  let top := (polyPos o l lo).1 + 3
  let i : Nat := if l ≤ top.toNat then l - 1 else top.toNat
  let up := fun (len i : Nat) => min (len - 1) (2 * i + 3)
  if k = 0 then i else if k = 1 then up li i else up li (up (halved 1 li) i)

end Sys2Proof.Machine
end

