-- ==== Sys2Proof/Machine/Prism.lean ====
section
/-! DEFINITION. The Prism front end and the shared read (R14, R15, R142, R149 to R164, R180): the defect list and the stages F1 to F9
of a frame, line by line. -/

namespace Sys2Proof.Machine

/-! ### Settings of a frame -/

/-- The sensor has a colour filter (R127). -/
def State.cfa (s : State) : Bool := s.on Pg.ingress Reg.INGRESS_CFG_CFA_MODE

/-- The colour filter map. -/
def State.cfaMap (s : State) : Nat := s.fld Pg.ingress Reg.INGRESS_CFG_CFA_MAP

/-- P: 2 for a colour filter and 1 for a monochrome sensor. -/
def State.period (s : State) : Nat := if s.cfa then 2 else 1

/-- A committed front-end value of a frame. -/
def State.fe (s : State) (f : Nat) (r : Fld) : Nat := s.fval f Pg.prismFe r

/-- Whether a front-end stage is enabled for a frame. -/
def State.feOn (s : State) (f : Nat) (r : Fld) : Bool := s.fon f Pg.prismFe r

/-! ### Defect list (R152, R153) -/

/-- The defect list read entry by entry: entries kept, entries outside the raster, and whether its order ends it (R153). -/
def readDefects (w h : Nat) (entry : Nat → Nat) : Nat → Nat → Option Nat → List (Nat × Nat) × Nat × Bool
  | 0, _, _ => ([], 0, false)
  | n + 1, i, prev =>
    let e := entry i
    let x := e % 16384
    let y := e / 16384 % 16384
    let key := y * 16384 + x
    if (match prev with | some p => decide (key ≤ p) | none => false) then ([], 0, true)
    else
      let r := readDefects w h entry n (i + 1) (some key)
      if x < w ∧ y < h then ((key, e / 2 ^ 28 % 4) :: r.1, r.2.1, r.2.2) else (r.1, r.2.1 + 1, r.2.2)

/-- The defect list of a frame of `w` × `h` with its errors counted and reported (R153). -/
def State.loadDefects (s : State) (f w h : Nat) : List (Nat × Nat) × State :=
  let p := Pg.prismFe
  if s.feOn f Reg.PRISM_FE_STAGES_DEFECT_EN then
    let base := 4 * s.fe f Reg.PRISM_FE_DEFECT_BASE_LO + 2 ^ 32 * s.fe f Reg.PRISM_FE_DEFECT_BASE_HI
    let top := min 1048576 (s.fld p Reg.PRISM_FE_DEFECT_MAX)
    let n := s.fe f Reg.PRISM_FE_DEFECT_COUNT
    let r := readDefects w h (fun i => s.peekLe (base + 4 * i) 4) (min n top) 0 none
    let s1 := s.countBy p Reg.PRISM_FE_MAP_ERRORS (r.2.1 + if r.2.2 then 1 else 0)
    (r.1, (s1.raiseIf r.2.2 p Reg.PRISM_FE_EVENT_MAP_ORDER).raiseIf (decide (top < n)) p Reg.PRISM_FE_EVENT_DEFECT_TRUNC)
  else ([], s)

/-! ### F1 to F5 -/

/-- The status code of a line for the half that holds a column, from the frame's record (R136, R137, R150). -/
def State.lineStatus (s : State) (q : Pic) (x y : Nat) : Nat :=
  let source := leAt q.record 0x46 1
  let k := if source = 0 then 0 else if source = 1 then 1 else if x < (s.window 0).w then 0 else 1
  leAt q.record (0xF00 + 0x880 * k + y / 4) 1 / 4 ^ (y % 4) % 4

/-- BLACK of the filter position of a photosite (R150, R151). -/
def State.blackAt (s : State) (f x y : Nat) : Nat := s.fe f (Reg.PRISM_FE_BLACK (s.filterPos x y))

/-- F1: a line with its lost photosites filled, and whether any was (R150). -/
def State.fillLine (s : State) (q : Pic) (y : Nat) (row : List Nat) : List Nat × Bool :=
  if s.feOn q.frame Reg.PRISM_FE_STAGES_LOST_FILL then
    let lost := (List.range row.length).map fun x => decide (s.lineStatus q x y = 2)
    let vs := (List.range row.length).map fun x =>
      if lost.getD x false then (if y < s.period then s.blackAt q.frame x y else at2 q.raw x (y - s.period)) else row.getD x 0
    (vs, lost.any id)
  else (row, false)

/-- F2: a photosite less its black level (R151). -/
def State.blacked (s : State) (q : Pic) (x y : Nat) : Int :=
  ((at2 q.raw x y : Nat) : Int) - (if s.feOn q.frame Reg.PRISM_FE_STAGES_BLACK_EN then (s.blackAt q.frame x y : Int) else 0)

/-- The mode with which a photosite is listed as a defect. -/
def Pic.defect (q : Pic) (x y : Nat) : Option Nat := (q.defects.find? fun e => decide (e.1 = y * 16384 + x)).map (·.2)

/-- F3: the value of a photosite, and whether it is a defect without an eligible neighbour (R153). -/
def State.repaired (s : State) (q : Pic) (x y : Nat) : Int × Bool :=
  let own := s.blacked q x y
  match q.defect x y with
  | none => (own, false)
  | some mode =>
    if mode = 3 then (own, false)
    else
      let p := s.period
      let horiz := if mode = 2 then [] else (if p ≤ x then [(x - p, y)] else []) ++ (if x + p < q.w then [(x + p, y)] else [])
      let vert := if mode = 1 then [] else (if p ≤ y then [(x, y - p)] else []) ++ (if y + p < q.h then [(x, y + p)] else [])
      let ok := (horiz ++ vert).filter fun n => (q.defect n.1 n.2).isNone
      if ok.isEmpty then (own, true) else (meanAway (ok.map fun n => s.blacked q n.1 n.2), false)

/-- A signed 16-bit value of a fixed-pattern map (R155). -/
def State.fpn (s : State) (f : Nat) (lo hi : Fld) (i : Nat) : Int :=
  signed 16 (s.peekLe (64 * s.fe f lo + 2 ^ 32 * s.fe f hi + 2 * i) 2)

/-- F4: the value of a photosite as PF24 and whether it saturated (R155). -/
def State.converted (s : State) (q : Pic) (x y : Nat) (b : Int) : Nat × Bool :=
  let c :=
    if s.feOn q.frame Reg.PRISM_FE_STAGES_FPN_EN then
      b - s.fpn q.frame Reg.PRISM_FE_FPN_COL_LO Reg.PRISM_FE_FPN_COL_HI x
        - s.fpn q.frame Reg.PRISM_FE_FPN_ROW_LO Reg.PRISM_FE_FPN_ROW_HI y
    else b
  pfRoundSat (Frac.scaled c q.ds)

/-- F5: the product with the shading gain (R156, R157). -/
def State.shaded (s : State) (q : Pic) (x y : Nat) (v : Nat) : Nat × Bool :=
  let f := q.frame
  if s.feOn f Reg.PRISM_FE_STAGES_SHADE_EN && decide (s.fval f Pg.prismFe bypassFld % 2 = 0) then
    let u := shadePos x 64 q.w
    let w := shadePos y 32 q.h
    let slot := s.fe f Reg.PRISM_FE_SHADE_SLOT
    let g := fun i j => s.entry slot (4 * ((w.1 + j) * 129 + u.1 + i) + s.filterPos x y)
    pfRoundSat ((pfVal v).mul (shadeGain (g 0 0) (g 1 0) (g 0 1) (g 1 1) u.2 w.2))
  else (v, false)

/-- One line through F2 to F5: its codes, defects without an eligible neighbour, and saturations. -/
def State.pfLine (s : State) (q : Pic) (y : Nat) : List Nat × Nat × Nat :=
  let cells := (List.range q.w).map fun x =>
    let b := s.repaired q x y
    let v := s.converted q x y b.1
    let g := s.shaded q x y v.1
    (g.1, b.2, (if v.2 then 1 else 0) + if g.2 then 1 else 0)
  (cells.map (·.1), (cells.filter (·.2.1)).length, (cells.map (·.2.2)).sum)

/-! ### F6 to F9 -/

/-- F6 (R158 to R162): red, green and blue of a site, and its saturations. -/
def State.debayered (s : State) (q : Pic) (x y : Nat) : (Nat × Nat × Nat) × Nat :=
  if s.cfa then
    let m : Mosaic := ⟨q.w, q.h, s.cfaMap, at2 q.pf⟩
    (m.rgb x y, m.sats x y)
  else
    let v := at2 q.pf x y
    ((v, v, v), 0)

/-- F7 to F9 of a pixel and its saturations (R163). -/
def State.balanced (s : State) (f : Nat) (p : Nat × Nat × Nat) : (Nat × Nat × Nat) × Nat :=
  let gain := fun r (v : Nat) => pfRoundSat ((Frac.scaled (s.fe f r) 16).mul (pfVal v))
  let r := gain Reg.PRISM_FE_WB_GAIN_R p.1
  let g := gain Reg.PRISM_FE_WB_GAIN_G p.2.1
  let b := gain Reg.PRISM_FE_WB_GAIN_B p.2.2
  let n := [r, g, b].countP (·.2)
  let level := s.fe f Reg.PRISM_FE_HL_LEVEL
  let clip := fun (v : Nat) =>
    if s.feOn f Reg.PRISM_FE_STAGES_HL_CLIP_EN && (pfVal level).lt (pfVal v) then pfNormal level else v
  let c := (clip r.1, clip g.1, clip b.1)
  if s.feOn f Reg.PRISM_FE_STAGES_MATRIX_EN then
    let coef := fun i j => signed 20 (s.fe f (Reg.PRISM_FE_CAM_M (3 * i + j)))
    let row := fun k => dot [(coef k 0, c.1), (coef k 1, c.2.1), (coef k 2, c.2.2)] 16 (Frac.ofInt 0)
    (((row 0).1, (row 1).1, (row 2).1), n + [row 0, row 1, row 2].countP (·.2))
  else (c, n)

/-- One line of the working picture and its saturations. -/
def State.workLine (s : State) (q : Pic) (y : Nat) : List (Nat × Nat × Nat) × Nat :=
  let cells := (List.range q.w).map fun x =>
    let d := s.debayered q x y
    let b := s.balanced q.frame d.1
    (b.1, d.2 + b.2)
  (cells.map (·.1), (cells.map (·.2)).sum)

/-! ### Lines through the front end (R164) -/

/-- The state with a frame inside Prism replaced. -/
def State.putPic (s : State) (q : Pic) : State :=
  { s with split := { s.split with pics := s.split.pics.map fun p => if p.frame = q.frame then q else p } }

/-- Saturations of the front end counted and reported (R148). -/
def State.feSat (s : State) (n : Nat) : State :=
  (s.countBy Pg.prismFe Reg.PRISM_FE_PF_SAT n).raiseIf (decide (n ≠ 0)) Pg.prismFe Reg.PRISM_FE_EVENT_PF_SAT

/-- `n` further lines leave F5. DESIGN CHOICE (log 42). -/
def State.growPf (s : State) (q : Pic) : Nat → Pic × State
  | 0 => (q, s)
  | n + 1 =>
    let r := s.pfLine q q.pf.length
    let s1 := (s.countBy Pg.prismFe Reg.PRISM_FE_DEFECT_UNRESOLVED r.2.1).raiseIf (decide (r.2.1 ≠ 0)) Pg.prismFe
      Reg.PRISM_FE_EVENT_UNRESOLVED
    (s1.feSat r.2.2).growPf { q with pf := q.pf ++ [r.1] } n

/-- `n` further lines leave the front end. DESIGN CHOICE (log 42). -/
def State.growWork (s : State) (q : Pic) : Nat → Pic × State
  | 0 => (q, s)
  | n + 1 =>
    let r := s.workLine q q.work.length
    (s.feSat r.2).growWork { q with work := q.work ++ [r.1] } n

/-- The lines that have left a stage with a context of `c` lines once `n` of `h` lines have entered it. DESIGN CHOICE (log 42). -/
def linesOut (h n c : Nat) : Nat := if h ≤ n then h else n - c

/-- A line enters the front end: F1 fills it, and the lines that its context completes leave F5 and the front end (R164). LAST_FRAME
takes the frame with its last working line. -/
def State.feLine (s : State) (q : Pic) (row : List Nat) : State :=
  let fe := Pg.prismFe
  let y := q.raw.length
  let f := s.fillLine q y row
  let s1 :=
    if f.2 then (s.count fe Reg.PRISM_FE_LOST_FILLED).raise fe Reg.PRISM_FE_EVENT_LOST_FILL_EVENT else s
  let q1 := { q with raw := q.raw ++ [f.1] }
  let a := s1.growPf q1 (linesOut q.h (y + 1) s.period - q.pf.length)
  let b := a.2.growWork a.1 (linesOut q.h (y + 1) (3 * s.period - 1) - q.work.length)
  let s2 := b.2.putPic b.1
  if b.1.work.length = q.h then s2.setFld64 fe Reg.PRISM_FE_LAST_FRAME_LO Reg.PRISM_FE_LAST_FRAME_HI q.frame else s2

/-! ### The shared read (R14, R15, R142, R229) -/

/-- Whether the raw cores take a frame of the shared read: raw recording is on, the frame is recorded and catch-up does not hold
it (R14, R139). -/
def State.rawTakes (s : State) (f : Nat) : Bool :=
  s.on Pg.drawctl Reg.DRAWCTL_CTRL_ENABLE && s.recorded f && !s.ingress.catchup.contains f

/-- The slot that the next shared read reads: of the frame ring, or of the raw decoder's output in REVIEW. -/
def State.nextRead (s : State) : Option Reading :=
  match s.ingress.ready with
  | f :: _ =>
    (s.slotOf f).map fun j => ⟨f, 0, s.slotAddr j, s.rasterW, s.rasterH, s.storedDepth, false⟩
  | [] =>
    match s.drdec.ready with
    | (f, j) :: _ =>
      let d := Pg.drdec
      let w := s.fld d Reg.DRDEC_OUT_SIZE_W
      let h := s.fld d Reg.DRDEC_OUT_SIZE_H
      let ds := s.fld d Reg.DRDEC_OUT_CFG_DEPTH
      let base := s.fld d Reg.DRDEC_OUT_BASE_LO * 2 ^ 21 + s.fld d Reg.DRDEC_OUT_BASE_HI * 2 ^ 32
      some ⟨f, 0, base + j * (slotPages h (lineStride w ds) * 4096), w, h, ds, true⟩
    | [] => none

/-- The shared read of the next frame begins: the front end takes the frame's record and defect list (R14, R15, R142, R150). -/
def State.sharedStart (s : State) : State :=
  match s.ingress.reading, s.nextRead with
  | none, some r =>
    if (s.pic r.frame).isSome then s
    else
    let s1 :=
      if r.review then { s with drdec := { s.drdec with ready := s.drdec.ready.tail } }
      else s.setIngress { s.ingress with ready := s.ingress.ready.tail }
    let s2 := s1.setIngress { s1.ingress with reading := some r }
    if s2.on Pg.prismFe Reg.PRISM_FE_CTRL_ENABLE then
      let d := s2.loadDefects r.frame r.w r.h
      let q : Pic := { frame := r.frame, w := r.w, h := r.h, ds := r.ds, record := s.peekN r.addr 8192, defects := d.1 }
      { d.2 with split := { d.2.split with pics := d.2.split.pics ++ [q] } }
    else s2
  | _, _ => s

/-- SHARED_READ_START (R15). -/
def execSharedReadStart (s : State) : Host.Outcome State Fault Refusal := .next s.sharedStart

/-- A line of a slot (R129). -/
def State.slotLine (s : State) (addr w ds y : Nat) : List Nat :=
  unpackBits ds w (s.peekN (addr + 8192 + y * lineStride w ds) (ceilDiv (w * ds) 8))

/-- The lines the front end can hold before the Splitter takes them (R164). DESIGN CHOICE (log 42). -/
def feBuffer : Nat := 7

/-- Whether a consumer holds the shared read back: the raw cores have not begun the frame, or a rendition in use has not begun it
and the front end has no room for the lines that would leave it (R14, R24, R164, R212). -/
def State.readHeld (s : State) (r : Reading) : Bool :=
  let raw := s.rawTakes r.frame && !r.review &&
    !(match s.draw.live with | some d => decide (d.frame = r.frame) | none => false)
  let split :=
    match s.pic r.frame with
    | none => false
    | some q =>
      decide (feBuffer < linesOut q.h (r.next + 1) (3 * s.period - 1)) &&
        (List.range 8).any fun n => s.rendRuns n && !(q.rends.get n).begun
  raw || split

/-- A frame of Prism is done with: every line has left the front end and every rendition in use is finished. -/
def State.dropPics (s : State) : State :=
  let open? := fun (q : Pic) =>
    decide (q.work.length < q.h) || (List.range 8).any fun n => s.rendRuns n && !(q.rends.get n).done
  { s with split := { s.split with pics := s.split.pics.filter open? } }

/-- The shared read delivers its next line to the front end and to the raw cores; with the last line the slot's read ends (R14,
R138). -/
def State.sharedLine (s : State) : State :=
  match s.ingress.reading with
  | none => s
  | some r =>
    if s.readHeld r then s
    else
      let row := s.slotLine r.addr r.w r.ds r.next
      let s1 :=
        match s.draw.live with
        | some d =>
          if d.frame = r.frame ∧ r.review = false then
            { s with draw := { s.draw with live := some { d with lines := d.lines ++ [row] } } }
          else s
        | none => s
      let s2 := match s1.pic r.frame with | some q => s1.feLine q row | none => s1
      let last := decide (r.h ≤ r.next + 1)
      let s3 := s2.setIngress { s2.ingress with reading := if last then none else some { r with next := r.next + 1 } }
      let s4 := if last then (if r.review then s3 else s3.readEnded r.frame).dropPics else s3
      noteFreed s s4

/-! ### Take START -/

/-- The counters of the front end clear at take START (R180). -/
def State.feStart (s : State) : State :=
  [Reg.PRISM_FE_DEFECT_UNRESOLVED, Reg.PRISM_FE_MAP_ERRORS, Reg.PRISM_FE_LOST_FILLED, Reg.PRISM_FE_PF_SAT].foldl
    (fun s f => s.setFld Pg.prismFe f 0) s

end Sys2Proof.Machine
end

