-- ==== Sys2Proof/Machine/RawCodec.lean ====
section
/-! DEFINITION. The Dwetik Raw codec (R207 to R224, R229, R230): planes and tiles, the coding of a tile, frame records and their
decoding. -/

namespace Sys2Proof.Machine

/-! ### Planes and tiles (R207 to R209) -/

/-- The shape of a stored raster as the codec sees it. -/
structure RawShape where
  w : Nat
  h : Nat
  ds : Nat
  cfa : Bool
  deriving DecidableEq, Repr, Inhabited

namespace RawShape

/-- The planes of a frame (R207). -/
def planes (r : RawShape) : Nat := if r.cfa then 4 else 1

/-- The width of a plane. -/
def wpl (r : RawShape) : Nat := if r.cfa then r.w / 2 else r.w

/-- The height of a plane. -/
def hpl (r : RawShape) : Nat := if r.cfa then r.h / 2 else r.h

/-- TX: tile columns of a plane (R208). -/
def tx (r : RawShape) : Nat := ceilDiv r.wpl 512

/-- TY: tile rows of a plane. -/
def ty (r : RawShape) : Nat := ceilDiv r.hpl 512

/-- T: tiles of a frame. -/
def tiles (r : RawShape) : Nat := r.planes * r.tx * r.ty

/-- Wt of a tile. -/
def tileW (r : RawShape) (t : Nat) : Nat := min 512 (r.wpl - t % r.tx * 512)

/-- Ht of a tile. -/
def tileH (r : RawShape) (t : Nat) : Nat := min 512 (r.hpl - t / r.tx % r.ty * 512)

/-- The samples of a tile. -/
def tileN (r : RawShape) (t : Nat) : Nat := r.tileW t * r.tileH t

/-- The place in the stored raster of sample (x, y) of a tile (R207, R208). -/
def place (r : RawShape) (t x y : Nat) : Nat × Nat :=
  let p := t / (r.tx * r.ty)
  let i := t % r.tx * 512 + x
  let j := t / r.tx % r.ty * 512 + y
  if r.cfa then (2 * i + p % 2, 2 * j + p / 2) else (i, j)

/-- The tile column number g of a tile (R226). -/
def column (r : RawShape) (t : Nat) : Nat := t / (r.tx * r.ty) * r.tx + t % r.tx

/-- The tile columns of a frame, G. -/
def columns (r : RawShape) : Nat := r.planes * r.tx

/-- RAWSZ of a tile (R211). -/
def rawSize (r : RawShape) (t : Nat) : Nat := 16 * ceilDiv (r.tileN t * r.ds) 128

/-- DATA_START (R210). -/
def dataStart (r : RawShape) : Nat := 64 * ceilDiv (128 + 16 * r.tiles) 64

/-- Where a tile is written in the sparse form (R211). -/
def sparse (r : RawShape) (t : Nat) : Nat := r.dataStart + ((List.range t).map r.rawSize).sum

/-- REC_SIZE in pages (R212). -/
def recPages (r : RawShape) : Nat := ceilDiv (r.sparse r.tiles) 4096

/-- CEILING in quality mode (R222). -/
def ceiling (r : RawShape) (quality : Nat) : Nat := 64 * (r.w * r.h * r.ds / (512 * quality))

/-- The slice of a tile (R222). -/
def slice (r : RawShape) (quality t : Nat) : Nat :=
  16 * ((r.ceiling quality - r.dataStart) * r.tileN t / (16 * (r.w * r.h)))

/-- The samples of a tile in raster order, of a picture given line by line. -/
def samples (r : RawShape) (t : Nat) (pic : Nat → Nat → Nat) : List Nat :=
  (List.range (r.tileN t)).map fun i =>
    let q := r.place t (i % r.tileW t) (i / r.tileW t)
    pic q.1 q.2

end RawShape

/-! ### Prediction, quantisation and Rice codes (R214 to R218) -/

/-- The reconstructed samples of a tile so far, by y × 512 + x, newest first. -/
abbrev Recon := List (Nat × Nat)

/-- A reconstructed sample. -/
def Recon.at (m : Recon) (x y : Nat) : Nat := ((m.find? fun e => decide (e.1 = y * 512 + x)).map (·.2)).getD 0

/-- The neighbours a, b and c of a sample (R215). -/
def rawNeighbours (ds : Nat) (m : Recon) (x y : Nat) : Nat × Nat × Nat :=
  if x = 0 ∧ y = 0 then (2 ^ (ds - 1), 2 ^ (ds - 1), 2 ^ (ds - 1))
  else if y = 0 then
    let a := m.at (x - 1) y
    (a, a, a)
  else if x = 0 then
    let b := m.at x (y - 1)
    (b, b, b)
  else (m.at (x - 1) y, m.at x (y - 1), m.at (x - 1) (y - 1))

/-- The prediction of a mode (R215). -/
def rawPredict (mode a b c : Nat) : Int :=
  match mode with
  | 0 => if max a b ≤ c then (min a b : Nat) else if c ≤ min a b then (max a b : Nat) else (a : Int) + b - c
  | 1 => a
  | 2 => b
  | _ => ((a + b + 1) / 2 : Nat)

/-- Δ(QP) (R216). -/
def rawDelta (qp : Nat) : Nat :=
  [1, 1, 1, 2, 2, 2, 3, 3, 4, 5, 6, 7, 8, 10, 11, 13, 16, 19, 23, 27, 32, 38, 45, 54, 64, 76, 91, 108, 128, 152, 181, 215].getD qp 1

/-- The step of a block: none QP is the lossless mode (R216). -/
def rawStep (ds : Nat) : Option Nat → Nat
  | none => 1
  | some qp => rawDelta qp * 2 ^ (ds - 12)

/-- q of an error (R216). -/
def rawQuant (step : Nat) (e : Int) : Int :=
  let m : Int := ((e.natAbs + step / 2) / step : Nat)
  if e < 0 then -m else m

/-- v′ of a prediction and q (R216). -/
def rawRebuild (ds step : Nat) (p q : Int) : Nat := (max 0 (min (2 ^ ds - 1) (p + q * step))).toNat

/-- u of q (R217). -/
def rawFold (q : Int) : Nat := if 0 ≤ q then (2 * q).toNat else (-2 * q - 1).toNat

/-- q of u (R217). -/
def rawUnfold (u : Nat) : Int := if u % 2 = 1 then -(((u + 1) / 2 : Nat) : Int) else ((u / 2 : Nat) : Int)

/-- The distance of two samples. -/
def dist (a b : Nat) : Nat := (a - b) + (b - a)

/-- The coding context (R217). -/
def rawContext (ds a b c : Nat) : Nat :=
  let d := dist a c + dist b c
  if d < 2 ^ (ds - 10) then 0 else if d < 2 ^ (ds - 7) then 1 else 2

/-- The accumulators A and counts N of the three contexts (R217). -/
abbrev RiceState := List (Nat × Nat)

/-- The contexts at the start of a tile. -/
def riceInit : RiceState := [(4, 1), (4, 1), (4, 1)]

/-- The Rice parameter of a context: the smallest k with N × 2^k ≥ A, at most `ds` (R217). -/
def riceK (ds : Nat) (c : Nat × Nat) : Nat := ((List.range ds).find? fun k => decide (c.1 ≤ c.2 * 2 ^ k)).getD ds

/-- A context after a code (R217). -/
def riceNext (c : Nat × Nat) (u : Nat) : Nat × Nat := if c.2 + 1 = 64 then ((c.1 + u + 1) / 2, 32) else (c.1 + u, c.2 + 1)

/-- The `n` low bits of a value, most significant first. -/
def bitsOf (n v : Nat) : List Bool := (List.range n).map fun i => v.testBit (n - 1 - i)

/-- The code of u (R217). -/
def riceCode (ds k u : Nat) : List Bool :=
  if u / 2 ^ k < 24 then List.replicate (u / 2 ^ k) true ++ [false] ++ bitsOf k u
  else List.replicate 24 true ++ bitsOf (ds + 1) u

/-- The number that bits spell, most significant first. -/
def bitsNat (l : List Bool) : Nat := l.foldl (fun a b => 2 * a + if b then 1 else 0) 0

/-- The bytes of a bit string, most significant bit first, with zeros up to a byte (R213). -/
def bitBytes (l : List Bool) : List Byte :=
  (List.range (ceilDiv l.length 8)).map fun i =>
    BitVec.ofNat 8 (bitsNat ((List.range 8).map fun j => l.getD (8 * i + j) false))

/-! ### Encoding a tile (R213 to R224) -/

/-- What the coding of a tile carries from sample to sample. -/
structure Coder where
  recon : Recon := []
  ctx : RiceState := riceInit
  bits : List Bool := []
  deriving DecidableEq, Repr, Inhabited

/-- The samples of a block in raster order (R209). -/
def blockCells (tw th blk : Nat) : List (Nat × Nat) :=
  let bw := ceilDiv tw 16
  let x0 := blk % bw * 16
  let y0 := blk / bw * 16
  (List.range (min 16 (th - y0))).flatMap fun y => (List.range (min 16 (tw - x0))).map fun x => (x0 + x, y0 + y)

/-- One sample coded (R215 to R217). -/
def codeSample (ds : Nat) (qp : Option Nat) (mode : Nat) (v : Nat → Nat → Nat) (c : Coder) (xy : Nat × Nat) : Coder :=
  let x := xy.1
  let y := xy.2
  if x = 0 ∧ y = 0 then { c with recon := [(0, v 0 0)], bits := c.bits ++ bitsOf ds (v 0 0) }
  else
    let n := rawNeighbours ds c.recon x y
    let p := rawPredict mode n.1 n.2.1 n.2.2
    let step := rawStep ds qp
    let q := rawQuant step ((v x y : Int) - p)
    let k := rawContext ds n.1 n.2.1 n.2.2
    let cell := c.ctx.getD k (4, 1)
    let u := rawFold q
    { recon := (y * 512 + x, rawRebuild ds step p q) :: c.recon, ctx := c.ctx.set k (riceNext cell u),
      bits := c.bits ++ riceCode ds (riceK ds cell) u }

/-- A block coded in a mode after its header (R214). -/
def codeBlock (ds : Nat) (qp : Option Nat) (change : Bool) (v : Nat → Nat → Nat) (cells : List (Nat × Nat)) (c : Coder)
    (mode : Nat) : Coder :=
  let head :=
    match qp with
    | none => []
    | some q => if change then true :: bitsOf 5 q else [false]
  cells.foldl (codeSample ds qp mode v) { c with bits := head ++ bitsOf 2 mode }

/-- A block coded in the mode with the fewest bits, the lowest one on a tie; the coder's bits are those of the block alone (R220). -/
def bestBlock (ds : Nat) (qp : Option Nat) (change : Bool) (v : Nat → Nat → Nat) (cells : List (Nat × Nat)) (c : Coder) : Coder :=
  let trial := codeBlock ds qp change v cells c
  [1, 2, 3].foldl (fun b m => if (trial m).bits.length < b.bits.length then trial m else b) (trial 0)

/-- A coded tile: its payload and directory fields (R210). -/
structure TileOut where
  payload : List Byte
  floorBlock : Nat
  qp0 : Nat
  floor : Bool
  raw : Bool
  deriving DecidableEq, Repr, Inhabited

/-- The bits of a payload as bytes up to a multiple of 16 (R213). -/
def payloadOf (bits : List Bool) : List Byte :=
  let b := bitBytes bits
  padTo (roundUp (max 1 b.length) 16) b

/-- The QP of a block: it changes only at the first block of a block row above 0 (R224). -/
def nextQp (s r rows bits qp qpMin : Nat) : Nat :=
  let t := 8 * s * r
  let q := if 17 * t < 16 * bits * rows then qp + 1 else if 8 * bits * rows < 7 * t then qp - 1 else qp
  max qpMin (min 31 q)

/-- The blocks of a quality tile from block `blk` on; `left` blocks remain (R223, R224). -/
def codeQuality (ds tw th s qpMin qp0 : Nat) (v : Nat → Nat → Nat) : Nat → Nat → Nat → Coder → List Bool → TileOut
  | 0, _, _, _, bits => ⟨payloadOf bits, 0xFFFF, qp0, false, false⟩
  | left + 1, blk, qp, c, bits =>
    let bw := ceilDiv tw 16
    let rows := ceilDiv th 16
    let q := if blk % bw = 0 ∧ blk ≠ 0 then nextQp s (blk / bw) rows bits.length qp qpMin else qp
    let c1 := bestBlock ds (some q) (decide (q ≠ qp)) v (blockCells tw th blk) c
    if s < 16 * ceilDiv (bits.length + c1.bits.length) 128 then
      ⟨if blk = 0 then [] else payloadOf bits, blk, qp0, true, false⟩
    else codeQuality ds tw th s qpMin qp0 v left (blk + 1) q c1 (bits ++ c1.bits)

/-- The bits of a lossless tile. -/
def codeLossless (ds tw th : Nat) (v : Nat → Nat → Nat) : List Bool :=
  ((List.range (ceilDiv tw 16 * ceilDiv th 16)).foldl
    (fun (a : Coder × List (List Bool)) blk =>
      let c := bestBlock ds none false v (blockCells tw th blk) a.1
      (c, c.bits :: a.2)) ({}, [])).2.reverse.flatten

/-- The settings of an encode: none is lossless; otherwise QUALITY and QP_MIN. -/
abbrev RawMode := Option (Nat × Nat)

/-- A tile encoded (R213 to R224). -/
def encodeTile (r : RawShape) (m : RawMode) (qp0 t : Nat) (pic : Nat → Nat → Nat) : TileOut :=
  let tw := r.tileW t
  let th := r.tileH t
  let v := fun x y => let q := r.place t x y; pic q.1 q.2
  match m with
  | none =>
    let p := payloadOf (codeLossless r.ds tw th v)
    if r.rawSize t < p.length then
      ⟨padTo (r.rawSize t) (bitBytes ((r.samples t pic).flatMap (bitsOf r.ds))), 0xFFFF, 0, false, true⟩
    else ⟨p, 0xFFFF, 0, false, false⟩
  | some (quality, qpMin) =>
    codeQuality r.ds tw th (r.slice quality t) qpMin qp0 v (ceilDiv tw 16 * ceilDiv th 16) 0 qp0 {} []

/-! ### Frame records (R210, R211) -/

/-- A directory entry of a tile. -/
def TileOut.entry (t : TileOut) : List Byte :=
  leBytes 4 t.payload.length ++ leBytes 4 (if t.payload.isEmpty then 0 else crc32c t.payload) ++ leBytes 2 t.floorBlock
    ++ leBytes 1 t.qp0 ++ leBytes 1 ((if t.floor then 1 else 0) + if t.raw then 2 else 0) ++ zeros 4

/-- RECORD_LEN of a frame's tiles. -/
def recordLen (r : RawShape) (ts : List TileOut) : Nat := roundUp (r.dataStart + (ts.map (·.payload.length)).sum) 64

/-- The header and directory of a frame record up to DATA_START. -/
def recordHead (r : RawShape) (m : RawMode) (frame cfaMap ingressFlags : Nat) (catchup : Bool) (ts : List TileOut) : List Byte :=
  let dir := ts.flatMap (·.entry)
  let flags := (if ts.any (·.floor) then 1 else 0) + (if ts.any (·.raw) then 2 else 0) + if catchup then 4 else 0
  let quality := match m with | some q => q.1 | none => 0
  let body := leBytes 4 0x52445A4B ++ leBytes 2 1 ++ leBytes 2 128 ++ leBytes 8 frame ++ leBytes 4 (recordLen r ts)
    ++ leBytes 2 r.w ++ leBytes 2 r.h ++ leBytes 1 r.ds ++ leBytes 1 (if r.cfa then 1 else 0)
    ++ leBytes 1 (if r.cfa then cfaMap else 0) ++ leBytes 1 (if m.isSome then 1 else 0) ++ leBytes 1 quality ++ leBytes 1 flags
    ++ leBytes 2 ingressFlags ++ leBytes 1 r.planes ++ leBytes 1 r.tx ++ leBytes 1 r.ty ++ [0] ++ leBytes 2 r.tiles ++ zeros 2
    ++ leBytes 4 (if m.isSome then r.ceiling quality else 0) ++ leBytes 4 (ts.map (·.payload.length)).sum
    ++ leBytes 4 (crc32c dir) ++ zeros 72
  padTo r.dataStart (body ++ leBytes 4 (crc32c body) ++ dir)

/-! ### Decoding (R213 to R218, R230) -/

/-- A bit of a payload. -/
def payBit (b : List Byte) (i : Nat) : Bool := (b.getD (i / 8) 0).getLsbD (7 - i % 8)

/-- `n` bits of a payload from a bit on. -/
def payBits (b : List Byte) (i n : Nat) : Nat := bitsNat ((List.range n).map fun j => payBit b (i + j))

/-- The one-bits from a bit on, at most `n`. -/
def onesAt (b : List Byte) (i : Nat) : Nat → Nat
  | 0 => 0
  | n + 1 => if payBit b i then onesAt b (i + 1) n + 1 else 0

/-- What the decoding of a tile carries: samples, contexts and the next bit. -/
structure Decoder where
  recon : Recon := []
  ctx : RiceState := riceInit
  pos : Nat := 0
  deriving DecidableEq, Repr, Inhabited

/-- One sample decoded (R215 to R217). -/
def decodeSample (ds : Nat) (qp : Option Nat) (mode : Nat) (b : List Byte) (d : Decoder) (xy : Nat × Nat) : Decoder :=
  let x := xy.1
  let y := xy.2
  if x = 0 ∧ y = 0 then { d with recon := [(0, payBits b d.pos ds)], pos := d.pos + ds }
  else
    let n := rawNeighbours ds d.recon x y
    let k := rawContext ds n.1 n.2.1 n.2.2
    let cell := d.ctx.getD k (4, 1)
    let rk := riceK ds cell
    let p := onesAt b d.pos 24
    let u := if p < 24 then p * 2 ^ rk + payBits b (d.pos + p + 1) rk else payBits b (d.pos + 24) (ds + 1)
    let len := if p < 24 then p + 1 + rk else 25 + ds
    let v := rawRebuild ds (rawStep ds qp) (rawPredict mode n.1 n.2.1 n.2.2) (rawUnfold u)
    { recon := (y * 512 + x, v) :: d.recon, ctx := d.ctx.set k (riceNext cell u), pos := d.pos + len }

/-- One sample of a floor block (R218). -/
def floorSample (ds : Nat) (d : Decoder) (xy : Nat × Nat) : Decoder :=
  let n := rawNeighbours ds d.recon xy.1 xy.2
  { d with recon := (xy.2 * 512 + xy.1, rawRebuild ds 1 (rawPredict 0 n.1 n.2.1 n.2.2) 0) :: d.recon }

/-- The blocks of a tile decoded in order; `qp` is none in lossless mode. -/
def decodeBlocks (ds tw th floorBlock : Nat) (b : List Byte) : Nat → Nat → Option Nat → Decoder → Decoder
  | 0, _, _, d => d
  | left + 1, blk, qp, d =>
    let cells := blockCells tw th blk
    if floorBlock ≤ blk then decodeBlocks ds tw th floorBlock b left (blk + 1) qp (cells.foldl (floorSample ds) d)
    else
      let h : Option Nat × Nat :=
        match qp with
        | none => (none, d.pos)
        | some q => if payBit b d.pos then (some (payBits b (d.pos + 1) 5), d.pos + 6) else (some q, d.pos + 1)
      let mode := payBits b h.2 2
      decodeBlocks ds tw th floorBlock b left (blk + 1) h.1
        (cells.foldl (decodeSample ds h.1 mode b) { d with pos := h.2 + 2 })

/-- A tile decoded from its directory entry and payload; none when it fails (R230). -/
def decodeTile (r : RawShape) (quality : Bool) (t : Nat) (entry payload : List Byte) : Option Recon :=
  let tw := r.tileW t
  let th := r.tileH t
  let size := leAt entry 0 4
  let floorBlock := leAt entry 8 2
  let blocks := ceilDiv tw 16 * ceilDiv th 16
  let raw := (leAt entry 11 1).testBit 1
  if decide (crc32c payload ≠ leAt entry 4 4) || decide (size % 16 ≠ 0)
      || (decide (size = 0) && decide (floorBlock ≠ 0)) || (decide (floorBlock ≠ 0xFFFF) && decide (blocks ≤ floorBlock)) then none
  else if raw then
    if 8 * size < r.tileN t * r.ds then none
    else some ((List.range (r.tileN t)).map fun i => (i / tw * 512 + i % tw, payBits payload (i * r.ds) r.ds))
  else
    let d := decodeBlocks r.ds tw th floorBlock payload blocks 0 (if quality then some (leAt entry 10 1) else none) {}
    if 8 * size < d.pos then none else some d.recon

/-- Whether a record in memory is one that the decoder takes for its output shape (R229). -/
def recordOk (r : RawShape) (b : List Byte) : Bool :=
  decide (leAt b 0 4 = 0x52445A4B) && decide (leAt b 4 2 = 1) && decide (leAt b 6 2 = 128)
    && decide (leAt b 0x7C 4 = crc32c (b.take 0x7C)) && decide (leAt b 0x14 2 = r.w) && decide (leAt b 0x16 2 = r.h)
    && decide (leAt b 0x18 1 = r.ds) && decide (leAt b 0x30 4 = crc32c (slice b 0x80 (16 * leAt b 0x24 2)))

end Sys2Proof.Machine
end

