-- ==== Sys2Proof/Machine/Dwetik.lean ====
section
/-! DEFINITION. The raw encoders (R212, R219 to R228, R231, R232): cores and their columns, the ring of record buffers, the starting
QPs that Iris keeps, and records written to DRAM. The beginning of a frame, on which the Recorder may have to drop a group, stands in
Recorder.lean. -/

namespace Sys2Proof.Machine

/-! ### Settings -/

/-- The stored raster of the take as the codec sees it. -/
def State.rawShape (s : State) : RawShape := ⟨s.rasterW, s.rasterH, s.storedDepth, s.cfa⟩

/-- Whether raw recording is enabled for the take. -/
def State.rawOn (s : State) : Bool := s.on Pg.drawctl Reg.DRAWCTL_CTRL_ENABLE

/-- QP_MIN. -/
def State.qpMin (s : State) : Nat := s.fld Pg.drawctl Reg.DRAWCTL_RATE_QP_MIN

/-- The mode of the raw encoders (R221). -/
def State.rawMode (s : State) : RawMode :=
  if s.fld Pg.drawctl Reg.DRAWCTL_CFG_MODE = 0 then none else some (s.fld Pg.drawctl Reg.DRAWCTL_CFG_QUALITY, s.qpMin)

/-- COUNT of the record ring. -/
def State.recCount (s : State) : Nat := s.fld Pg.drawctl Reg.DRAWCTL_REC_CFG

/-- The address of a record buffer (R212). -/
def State.recAddr (s : State) (j : Nat) : Nat :=
  4096 * s.fld Pg.drawctl Reg.DRAWCTL_REC_BASE_LO + 2 ^ 32 * s.fld Pg.drawctl Reg.DRAWCTL_REC_BASE_HI
    + j * (4096 * s.fld Pg.drawctl Reg.DRAWCTL_REC_SIZE)

/-- The take's frame rate as numerator and denominator (R390). -/
def State.takeRate (s : State) : Nat × Nat := (s.fld Pg.trig Reg.TRIG_RATE_NUM, s.fld Pg.trig Reg.TRIG_RATE_DEN)

/-- A number of events per frame as a rate per second, rounded up. -/
def State.perSecond (s : State) (n : Nat) : Nat := ceilDiv (n * s.takeRate.1) (max 1 s.takeRate.2)

/-! ### Cores (R226, R227) -/

/-- The cores that columns go to. -/
def State.rawCores (s : State) : List Nat :=
  (List.range 16).filter fun c => (s.fld Pg.drawctl Reg.DRAWCTL_CORE_EN).testBit c && !(s.fld Pg.drawctl Reg.DRAWCTL_FAULT).testBit c

/-- The core of a column among the cores of an assignment (R226). -/
def coreOf (cores : List Nat) (g : Nat) : Option Nat := cores[g % cores.length]?

/-- The columns of a core under an assignment. -/
def State.coreColumns (s : State) (cores : List Nat) (c : Nat) : List Nat :=
  (List.range s.rawShape.columns).filter fun g => decide (coreOf cores g = some c)

/-- The width of a column. -/
def RawShape.colW (r : RawShape) (g : Nat) : Nat := min 512 (r.wpl - g % r.tx * 512)

/-- The photosites of a frame that a core takes under an assignment. -/
def State.coreSites (s : State) (cores : List Nat) (c : Nat) : Nat := ((s.coreColumns cores c).map fun g => s.rawShape.colW g * s.rawShape.hpl).sum

/-- Whether a core's load passes 1,200 Mphotosites/s (R227). DEDUCED (log 45). -/
def State.coreOver (s : State) (c : Nat) : Bool :=
  decide (1200000000 * s.takeRate.2 < s.coreSites s.rawCores c * s.takeRate.1)

/-- Whether the raw encoders fail the checks of R221, R227 and R231. -/
def State.rawBad (s : State) : Bool :=
  let q := s.fld Pg.drawctl Reg.DRAWCTL_CFG_QUALITY
  s.rawOn && ((s.rawMode.isSome && (decide (q < 3) || decide (18 < q))) || s.rawCores.isEmpty || s.rawCores.any s.coreOver
    || decide (s.recCount < 3) || decide (16 < s.recCount))

/-- The assignment of columns as the DRAW pages show it (R232). -/
def State.showCores (s : State) : State :=
  (List.range 16).foldl
    (fun (s : State) c =>
      let p := Pg.draw c
      let cols := if s.rawOn then s.coreColumns s.draw.cores c else []
      let m := (cols.map (2 ^ ·)).sum
      let faulted := (s.fld Pg.drawctl Reg.DRAWCTL_FAULT).testBit c
      let busy := s.draw.live.isSome || s.draw.cat.isSome
      let phase := if faulted then 3 else if cols.isEmpty then 0 else if busy then 2 else 1
      let load := if s.rawOn then min 65535 (s.perSecond (s.coreSites s.draw.cores c) / 1000000) else 0
      ((((s.setFld p Reg.DRAW_ASSIGN_LO m).setFld p Reg.DRAW_ASSIGN_HI (m / 2 ^ 32)).setFld p Reg.DRAW_STATE_COLUMNS
        cols.length).setFld p Reg.DRAW_STATE_PHASE phase).setFld p Reg.DRAW_LOAD load) s

/-- DRAWCTL.STATE (R231). -/
def State.showDraw (s : State) : State :=
  let streams := s.draw.live.isSome || s.recorded s.frameNow
  let phase := if s.ctl.capRun = false && s.draw.cat.isNone then 0
    else if s.ingress.catchup.isEmpty && s.draw.cat.isNone then (if streams && s.rawOn then 2 else 1)
    else 3
  s.setFld Pg.drawctl Reg.DRAWCTL_STATE_PHASE phase

/-! ### Starting QPs (R225) -/

/-- QP0 of every tile for frame `f` of a stream with this history (R225). -/
def State.startQps (s : State) (hist : List (Nat × List Nat)) (f : Nat) : List Nat :=
  match hist.find? fun e => decide (e.1 + 2 ≤ f) with
  | some e => e.2
  | none => List.replicate s.rawShape.tiles (max s.qpMin (min 31 (s.fld Pg.drawctl Reg.DRAWCTL_RATE_QP_INIT)))

/-- A tile's state after a frame (R225). -/
def irisTile (qpMin slice : Nat) (state : Nat) (t : TileOut) : Nat :=
  let u := t.payload.length
  let q := if t.floor then state + 2 else if 15 * slice < 16 * u then state + 1 else if 4 * u < 3 * slice then state - 1 else state
  max qpMin (min 31 q)

/-- The states after a frame: they follow from the states after the stream's frame before it, or from QP_INIT. -/
def State.nextStates (s : State) (hist : List (Nat × List Nat)) (ts : List TileOut) : List Nat :=
  let prev := match hist with
    | e :: _ => e.2
    | [] => s.startQps [] 0
  match s.rawMode with
  | none => prev
  | some m => (ts.zipIdx.map fun e => irisTile s.qpMin (s.rawShape.slice m.1 e.2) (prev.getD e.2 0) e.1)

/-! ### Encoding a frame (R210 to R228) -/

/-- A record written in the sparse form (R211). -/
def State.writeRecord (s : State) (d : DrawFrame) (catchup : Bool) (flags : Nat) (ts : List TileOut) : State :=
  let r := s.rawShape
  let base := s.recAddr d.buf
  let s1 := ts.zipIdx.foldl (fun (s : State) e => s.pokeN (base + r.sparse e.2) e.1.payload) s
  s1.pokeN base (recordHead r s.rawMode d.frame s.cfaMap flags catchup ts)

/-- Tiles in floor mode and raw tiles counted and reported, and the tiles of each core (R219, R223, R231, R232). -/
def State.countTiles (s : State) (ts : List TileOut) : State :=
  let c := Pg.drawctl
  let floors := ts.countP (·.floor)
  let raws := ts.countP (·.raw)
  let s1 := ((s.countBy c Reg.DRAWCTL_FLOOR_TILES floors).raiseIf (decide (0 < floors)) c Reg.DRAWCTL_EVENT_FLOOR).countBy c
    Reg.DRAWCTL_RAW_TILES raws
  let s2 := s1.raiseIf (decide (0 < raws)) c Reg.DRAWCTL_EVENT_RAW_TILE
  (List.range s.rawShape.tiles).foldl
    (fun (s : State) t =>
      match coreOf s.draw.cores (s.rawShape.column t) with
      | some k => s.count (Pg.draw k) Reg.DRAW_TILES_DONE
      | none => s) s2

/-- A frame of a stream encoded: its record is in DRAM, header last, LAST_FRAME shows it, the buffer passes to the Recorder and Iris
updates the tile states (R211, R225, R228). -/
def State.encodeFrame (s : State) (d : DrawFrame) (catchup : Bool) (flags : Nat) : State :=
  let r := s.rawShape
  let ts := (List.range r.tiles).map fun t => encodeTile r s.rawMode (d.qp0.getD t 0) t (at2 d.lines)
  let c := Pg.drawctl
  let s1 := ((s.writeRecord d catchup flags ts).countTiles ts).setFld64 c Reg.DRAWCTL_LAST_FRAME_LO Reg.DRAWCTL_LAST_FRAME_HI d.frame
  let s2 := s1.setFld c Reg.DRAWCTL_LAST_BYTES (recordLen r ts)
  let w := s2.draw
  let bufs := w.bufs.map fun b => if b.1 = d.buf then (b.1, b.2.1, true) else b
  let hist := if catchup then w.catHist else w.liveHist
  let hist1 := ((d.frame, s.nextStates hist ts) :: hist).take 2
  let w1 := if catchup then { w with cat := none, catHist := hist1, bufs := bufs }
    else { w with live := none, liveHist := hist1, bufs := bufs }
  ({ s2 with draw := w1 } : State).showDraw.showCores

/-- A raw record of the live stream is complete; a slot held for a repair is released (R228). -/
def State.drawDone (s : State) : State :=
  match s.draw.live with
  | none => s
  | some d =>
    if d.lines.length < s.rasterH then s
    else
      let s1 := s.encodeFrame d false d.flags
      if d.repair then
        match s1.slotOf d.frame with
        | some j => s1.releaseSlot j { s1.slot j with held := false }
        | none => s1
      else s1

/-- DRAW_FRAME_DONE (R228). -/
def execDrawFrameDone (s : State) : Host.Outcome State Fault Refusal := .next s.drawDone

/-- A raw core detects a parity fault: its bit is set, its tiles of the frame in work are encoded again from the held slot, and the columns
are assigned anew at the next frame start (R228). DEDUCED (log 45). -/
def State.coreFault (s : State) (core : Nat) : State :=
  if 16 ≤ core then s
  else
    let c := Pg.drawctl
    let m := s.fld c Reg.DRAWCTL_FAULT
    let s1 := ((s.setFld c Reg.DRAWCTL_FAULT (m ||| 2 ^ core)).raise c Reg.DRAWCTL_EVENT_CORE_FAULT).raise (Pg.draw core)
      Reg.DRAW_EVENT_FAULT
    let s2 :=
      match s1.draw.live with
      | some d =>
        let s3 : State := { s1 with draw := { s1.draw with live := some { d with repair := true } } }
        match s3.slotOf d.frame with
        | some j => (s3.putSlot j { s3.slot j with held := true }).showRing
        | none => s3
      | none => s1
    let s4 : State := { s2 with draw := { s2.draw with reassign := true } }
    s4.setFld (Pg.draw core) Reg.DRAW_STATE_PHASE 3

/-- DRAW_CORE_FAULT (R228). -/
def execDrawCoreFault (core : Nat) (s : State) : Host.Outcome State Fault Refusal := .next (s.coreFault core)

/-- From the next frame start the columns go to the cores that remain (R226, R228). DEDUCED (log 45). -/
def State.reassign (s : State) : State :=
  if s.draw.reassign then
    ({ s with draw := { s.draw with reassign := false, cores := s.rawCores } } : State).showCores.raise Pg.drawctl Reg.DRAWCTL_EVENT_REASSIGN
  else s

/-! ### Record buffers (R212) -/

/-- The frame whose record stands in the buffer that the next encoded frame would take, complete or in work. -/
def State.recHolder (s : State) : Option Nat :=
  (s.draw.bufs.find? fun b => decide (b.1 = s.draw.count % s.recCount)).map (·.2.1)

/-- The buffer of a frame's record. -/
def State.recOf (s : State) (f : Nat) : Option (Nat × Nat × Bool) := s.draw.bufs.find? fun b => decide (b.2.1 = f)

/-- The Recorder releases the record buffer of a frame. -/
def State.recRelease (s : State) (f : Nat) : State :=
  { s with draw := { s.draw with bufs := s.draw.bufs.filter fun b => decide (b.2.1 ≠ f) } }

/-- The live frame that the raw cores wait to begin: the shared read is at its first line (R14). -/
def State.rawNext (s : State) : Option Nat :=
  match s.ingress.reading, s.draw.live with
  | some r, none => if s.rawTakes r.frame ∧ r.review = false ∧ r.next = 0 then some r.frame else none
  | _, _ => none

/-- A frame of a stream begins in the next record buffer (R212, R225). -/
def State.drawBegin (s : State) (f : Nat) (catchup : Bool) : State :=
  let flags := match s.slotOf f with | some j => s.peekLe (s.slotAddr j + 6) 2 | none => 0
  let d : DrawFrame := { frame := f, buf := s.draw.count % s.recCount, flags := flags,
                         qp0 := s.startQps (if catchup then s.draw.catHist else s.draw.liveHist) f }
  let w : DrawSt := { s.draw with
    count := s.draw.count + 1
    bufs := s.draw.bufs ++ [(d.buf, f, false)]
    stalled := s.draw.stalled.filter (· ≠ f) }
  ({ s with draw := if catchup then { w with cat := some d } else { w with live := some d } } : State).showDraw.showCores

/-- A frame waits for its buffer: STALLS counts it once and REC_STALL is raised (R212). DEDUCED (log 45). -/
def State.drawStall (s : State) (f : Nat) : State :=
  if s.draw.stalled.contains f then s
  else
    (({ s with draw := { s.draw with stalled := insertNat f s.draw.stalled } } : State).count Pg.drawctl Reg.DRAWCTL_STALLS).raise Pg.drawctl
      Reg.DRAWCTL_EVENT_REC_STALL

/-- The catch-up read has encoded its frame from the held slot, which is freed (R140). Frames held while raw recording is off are
freed without a record. -/
def State.catchupDone (s : State) : State :=
  match s.draw.cat with
  | some d =>
    match s.slotOf d.frame with
    | some j =>
      let lines := (List.range s.rasterH).map fun y => s.slotLine (s.slotAddr j) s.rasterW s.storedDepth y
      let flags := s.peekLe (s.slotAddr j + 6) 2
      ((s.encodeFrame { d with lines := lines } true flags).caughtUp d.frame).showDraw
    | none => s
  | none =>
    match s.ingress.catchup with
    | f :: _ => if s.rawOn then s else s.caughtUp f
    | [] => s

/-- CATCHUP_FRAME_DONE (R140). -/
def execCatchupFrameDone (s : State) : Host.Outcome State Fault Refusal := .next s.catchupDone

/-! ### Take START -/

/-- What the raw encoders compute and clear at a take START (R212, R225, R231, R232). -/
def State.drawStart (s : State) : State :=
  let c := Pg.drawctl
  let r := s.rawShape
  let s1 := (((s.setFld c Reg.DRAWCTL_REC_SIZE r.recPages).setFld c Reg.DRAWCTL_TILES_COUNT r.tiles).setFld c Reg.DRAWCTL_TILES_TX
    r.tx).setFld c Reg.DRAWCTL_TILES_TY r.ty
  let s2 := s1.setFld c Reg.DRAWCTL_CEILING (match s.rawMode with | some m => r.ceiling m.1 | none => 0)
  let s3 := [Reg.DRAWCTL_FLOOR_TILES, Reg.DRAWCTL_RAW_TILES, Reg.DRAWCTL_STALLS].foldl (fun s f => s.setFld c f 0) s2
  let s4 := (List.range 16).foldl (fun (s : State) k => s.setFld (Pg.draw k) Reg.DRAW_TILES_DONE 0) s3
  ({ s4 with draw := { cores := s4.rawCores } } : State).showDraw.showCores

end Sys2Proof.Machine
end

