-- ==== Sys2Proof/Machine/HevcSyntax.lean ====
section
/-! DEFINITION. The byte stream of ITU-T H.265 as far as the manual fixes or checks it: NAL units, the parameter sets and slice headers
that the encoders write (R237 to R242, R245, R248), and what the decoders read of those of a stream (R261 to R263). PRESUMED (log 46, 47): the
syntax is that of H.265. -/

namespace Sys2Proof.Machine

/-! ### Bits and NAL units (R240) -/

/-- The `n` low bits of a number, most significant first: u(n). -/
def ubits : Nat → Nat → List Bool
  | 0, _ => []
  | n + 1, v => v.testBit n :: ubits n v

/-- The Exp-Golomb code of a number: ue(v). -/
def uebits (v : Nat) : List Bool :=
  let n := Nat.log2 (v + 1)
  List.replicate n false ++ ubits (n + 1) (v + 1)

/-- The Exp-Golomb code of a signed number: se(v). -/
def sebits (v : Int) : List Bool := uebits (if 0 < v then (2 * v - 1).toNat else (-2 * v).toNat)

/-- A flag. -/
def flag1 (b : Bool) : List Bool := [b]

/-- The bits of bytes. -/
def bytesBits (l : List Byte) : List Bool := l.flatMap fun b => ubits 8 b.toNat

/-- Bits followed by a one and zeros up to a byte boundary. -/
def trailing (l : List Bool) : List Byte := bitBytes (l ++ [true])

/-- Bytes of a NAL unit with emulation prevention; `z` counts the zeros before the next byte (H.265, Annex B). -/
def emulate : Nat → List Byte → List Byte
  | _, [] => []
  | z, b :: t =>
    if 2 ≤ z ∧ b.toNat ≤ 3 then 3 :: b :: emulate (if b = 0 then 1 else 0) t else b :: emulate (if b = 0 then z + 1 else 0) t

/-- The bytes of a NAL unit without emulation prevention. -/
def unemulate : Nat → List Byte → List Byte
  | _, [] => []
  | z, b :: t => if 2 ≤ z ∧ b = 3 then unemulate 0 t else b :: unemulate (if b = 0 then z + 1 else 0) t

/-- A 4-byte start code. -/
def startCode : List Byte := [0, 0, 0, 1]

/-- A NAL unit of a type in the byte stream: start code, header and payload with emulation prevention. -/
def nal (type : Nat) (payload : List Byte) : List Byte :=
  startCode ++ emulate 0 ([BitVec.ofNat 8 (2 * type), 1] ++ payload)

/-- The access unit delimiter of a picture type (R240). -/
def audNal (kind : Nat) : List Byte := nal 35 (trailing (ubits 3 kind))

/-- The SEI message with the UUID, the frame number and the rendition number (R240). -/
def seiNal (frame rend : Nat) : List Byte :=
  nal 39 ([5, 25, 0x4b, 0x5a, 0x48, 0x45, 0x73, 0x65, 0x49, 0x10, 0x8a, 0x1c, 0x0c, 0x71, 0x60, 0xe1, 0xc0, 0xde] ++ leBytes 8 frame
    ++ leBytes 1 rend ++ [0x80])

/-! ### Parameter sets (R237 to R239, R241, R242, R245) -/

/-- What a stream's parameter sets and slice headers follow: PROFILE, TIER, LEVEL, the rendition's chroma format (1 4:2:0, 2 4:2:2), depth
and size, STRUCT and NUM_REF, the tiles and WPP, and the VUI's colour fields. -/
structure StreamSet where
  profile : Nat := 1
  tier : Bool := false
  level : Nat := 0
  chroma : Nat := 1
  depth : Nat := 8
  w : Nat := 0
  h : Nat := 0
  gop : Nat := 1
  refs : Nat := 1
  cols : Nat := 1
  rows : Nat := 1
  wpp : Bool := false
  primaries : Nat := 1
  transfer : Nat := 1
  matrix : Nat := 1
  full : Bool := false
  vsite : Nat := 0
  deriving DecidableEq, Repr, Inhabited

/-- The picture buffers of a stream and the pictures that may be reordered (R242). DESIGN CHOICE (log 46). -/
def StreamSet.buffers (p : StreamSet) : Nat × Nat := if p.gop = 0 then (1, 0) else if p.gop = 1 then (p.refs + 1, 0) else (5, 2)

/-- profile_tier_level of a stream: Main, Main 10 or Main 4:2:2 10, its tier and its level (R237, R238). -/
def StreamSet.tierLevel (p : StreamSet) : List Bool :=
  let idc := if p.profile = 0 then 1 else if p.profile = 1 then 2 else 4
  let compat := (List.range 32).map fun i => decide (i = idc) || (decide (idc = 1) && decide (i = 2))
  let ext := if idc = 4 then [true, true, false, true, false, false, false, false, true] else List.replicate 9 false
  ubits 2 0 ++ flag1 p.tier ++ ubits 5 idc ++ compat ++ [true, false, false, true] ++ ext ++ List.replicate 35 false ++ ubits 8 p.level

/-- The picture buffer fields of the VPS and the SPS. -/
def StreamSet.ordering (p : StreamSet) : List Bool := flag1 true ++ uebits (p.buffers.1 - 1) ++ uebits p.buffers.2 ++ uebits 0

/-- The video parameter set (R240). -/
def StreamSet.vps (p : StreamSet) : List Byte :=
  nal 32 (trailing (ubits 4 0 ++ [true, true] ++ ubits 6 0 ++ ubits 3 0 ++ [true] ++ ubits 16 0xFFFF ++ p.tierLevel ++ p.ordering
    ++ ubits 6 0 ++ uebits 0 ++ [false, false]))

/-- The VUI: the colour description, the range and the place of the chroma samples, without HRD parameters and timing (R241). -/
def StreamSet.vui (p : StreamSet) : List Bool :=
  [false, false, true] ++ ubits 3 5 ++ flag1 p.full ++ [true] ++ ubits 8 p.primaries ++ ubits 8 p.transfer ++ ubits 8 p.matrix
    ++ (if p.chroma = 1 then [true] ++ uebits p.vsite ++ uebits p.vsite else [false])
    ++ [false, false, false, false, false, false]

/-- The bits of slice_pic_order_cnt_lsb. -/
def pocBits : Nat := 16

/-- The sequence parameter set: coding blocks of 8 to 64, transform blocks of 4 to 32 at depth 2, asymmetric partitions, SAO, temporal
motion vector prediction and strong intra smoothing; no scaling lists, PCM or long-term references (R239 to R241). DESIGN CHOICE (log 46).
-/
def StreamSet.sps (p : StreamSet) : List Byte :=
  let w := roundUp p.w 8
  let h := roundUp p.h 8
  let win := if w = p.w ∧ h = p.h then [false]
    else [true] ++ uebits 0 ++ uebits ((w - p.w) / 2) ++ uebits 0 ++ uebits ((h - p.h) / (if p.chroma = 1 then 2 else 1))
  nal 33 (trailing (ubits 4 0 ++ ubits 3 0 ++ [true] ++ p.tierLevel ++ uebits 0 ++ uebits p.chroma ++ uebits w ++ uebits h ++ win
    ++ uebits (p.depth - 8) ++ uebits (p.depth - 8) ++ uebits (pocBits - 4) ++ p.ordering
    ++ uebits 0 ++ uebits 3 ++ uebits 0 ++ uebits 3 ++ uebits 2 ++ uebits 2
    ++ [false, true, true, false] ++ uebits 0 ++ [false, true, true, true] ++ p.vui ++ [false]))

/-- The picture parameter set: sign data hiding, transform skip, cu_qp_delta at depth 0, chroma offsets 0, no weighted prediction, the tiles
and entropy-coding synchronisation of LAYOUT, and loop filters across tiles (R239, R245). DESIGN CHOICE (log 46). -/
def StreamSet.pps (p : StreamSet) : List Byte :=
  let tiles := decide (1 < p.cols ∨ 1 < p.rows)
  nal 34 (trailing (uebits 0 ++ uebits 0 ++ [false, false] ++ ubits 3 0 ++ [true, false] ++ uebits 0 ++ uebits 0 ++ sebits 0
    ++ [false, true, true] ++ uebits 0 ++ sebits 0 ++ sebits 0 ++ [false, false, false, false] ++ flag1 tiles ++ flag1 p.wpp
    ++ (if tiles then uebits (p.cols - 1) ++ uebits (p.rows - 1) ++ [true, true] else [])
    ++ [true, false, false, false] ++ uebits 0 ++ [false, false]))

/-! ### Slice headers (R239, R240, R242, R245) -/

/-- What a slice header says: the NAL unit type, the picture's type, POC and QP, the reference picture set as (POC difference, used by this
picture), nearest first on either side, and the sizes of its units. -/
structure SliceSet where
  type : Nat := 1
  kind : Nat := 0
  poc : Int := 0
  qp : Nat := 26
  rps : List (Int × Bool) := []
  sizes : List Nat := []
  deriving DecidableEq, Repr, Inhabited

/-- One side of a reference picture set: each difference less the one before, less one. -/
def rpsSide : Nat → List (Nat × Bool) → List Bool
  | _, [] => []
  | prev, (d, u) :: t => uebits (d - prev - 1) ++ flag1 u ++ rpsSide d t

/-- A short-term reference picture set. -/
def rpsBits (l : List (Int × Bool)) : List Bool :=
  let neg := (l.filter fun e => decide (e.1 < 0)).map fun e => (e.1.natAbs, e.2)
  let pos := (l.filter fun e => decide (0 < e.1)).map fun e => (e.1.natAbs, e.2)
  uebits neg.length ++ uebits pos.length ++ rpsSide 0 neg ++ rpsSide 0 pos

/-- The slice segment header of a picture, with offset_len_minus1 31 (R240). -/
def StreamSet.sliceHeader (p : StreamSet) (i : SliceSet) : List Byte :=
  let idr := decide (i.type = 19 ∨ i.type = 20)
  let used := (i.rps.filter (·.2)).length
  let active := if i.kind = 1 then max 1 used else 1
  let parts := decide (1 < p.cols ∨ 1 < p.rows) || p.wpp
  let offsets := (i.sizes.dropLast).flatMap fun n => ubits 32 (n - 1)
  trailing ([true] ++ (if 16 ≤ i.type ∧ i.type ≤ 23 then [false] else []) ++ uebits 0
    ++ uebits (if i.kind = 0 then 2 else if i.kind = 1 then 1 else 0)
    ++ (if idr then [] else ubits pocBits (i.poc % 2 ^ pocBits).toNat ++ [false] ++ rpsBits i.rps ++ [true])
    ++ [true, true]
    ++ (if i.kind = 0 then []
        else (if active = 1 then [false] else [true] ++ uebits (active - 1)) ++ (if i.kind = 2 then [false, true] else [])
          ++ (if 1 < active then uebits 0 else []) ++ uebits 0)
    ++ sebits ((i.qp : Int) - 26) ++ [true]
    ++ (if parts then uebits (i.sizes.length - 1) ++ (if 1 < i.sizes.length then uebits 31 ++ offsets else []) else []))

/-- The slice NAL unit up to its slice data. -/
def StreamSet.sliceHead (p : StreamSet) (i : SliceSet) : List Byte := nal i.type (p.sliceHeader i)

/-- The most bytes that emulation prevention makes of a NAL unit's bytes after its start code. -/
def emulated (n : Nat) : Nat := n + (n - 1) / 2

/-- The largest size of the slice header of a picture type: the longest codes of the QP and of the reference picture set, and every
emulation prevention byte. DESIGN CHOICE (log 46). -/
def StreamSet.sliceRoom (p : StreamSet) (type kind units : Nat) : Nat :=
  let far := 2 ^ (pocBits - 1)
  let refs := if p.gop = 0 ∨ type = 19 ∨ type = 20 then 0 else if p.gop = 1 then p.refs else 4
  let rps := (List.range refs).map fun i => (-((far * (i + 1) : Nat) : Int), true)
  4 + emulated (2 + (p.sliceHeader ⟨type, kind, 0, 0, rps, List.replicate units 1⟩).length)

/-! ### Reading (R261 to R263) -/

/-- A reader of bits; none at a syntax error. -/
abbrev Rd := StateT (List Bool) Option

/-- u(n). -/
def rdU (n : Nat) : Rd Nat := fun l => if l.length < n then none else some (bitsNat (l.take n), l.drop n)

/-- A flag. -/
def rdFlag : Rd Bool := do return decide ((← rdU 1) = 1)

/-- ue(v). -/
def rdUe : Rd Nat := fun l =>
  let z := (l.takeWhile fun b => !b).length
  if 32 < z ∨ l.length < 2 * z + 1 then none else some (bitsNat ((l.drop z).take (z + 1)) - 1, l.drop (2 * z + 1))

/-- se(v). -/
def rdSe : Rd Int := do
  let k ← rdUe
  return if k % 2 = 1 then ((k + 1) / 2 : Nat) else -((k / 2 : Nat) : Int)

/-- A reader run `n` times, its values in order. -/
def rdMany {α : Type} (r : Nat → Rd α) : Nat → Rd (List α)
  | 0 => return []
  | n + 1 => do
    let l ← rdMany r n
    return l ++ [← r n]

/-- profile_tier_level: profile, compatibility flags, the constraint flags as a number of 43 bits, and the level of the whole stream. -/
def rdTierLevel (sub : Nat) : Rd (Nat × List Bool × Nat × Nat) := do
  let _ ← rdU 3
  let idc ← rdU 5
  let compat ← rdMany (fun _ => rdFlag) 32
  let _ ← rdU 4
  let cons ← rdU 43
  let _ ← rdU 1
  let level ← rdU 8
  let present ← rdMany (fun _ => do let a ← rdFlag; let b ← rdFlag; return (a, b)) sub
  let _ ← rdU (if sub = 0 then 0 else 2 * (8 - sub))
  let _ ← rdMany (fun i => do
    let e := present.getD i (false, false)
    let _ ← rdU (if e.1 then 88 else 0)
    rdU (if e.2 then 8 else 0)) sub
  return (idc, compat, cons, level)

/-- scaling_list_data, read over. -/
def rdScaling : Rd Unit := do
  let _ ← rdMany (fun i => do
    let size := i / 6
    if size = 3 ∧ i % 6 ≠ 0 ∧ i % 6 ≠ 3 then return ()
    else if (← rdFlag) then
      if 1 < size then let _ ← rdSe
      let _ ← rdMany (fun _ => rdSe) (min 64 (2 ^ (4 + 2 * size)))
      return ()
    else let _ ← rdUe; return ()) 24
  return ()

/-- A reference picture set sorted: pictures before, nearest first, then pictures after. -/
def rpsSort (l : List (Int × Bool)) : List (Int × Bool) :=
  let ins := fun (acc : List (Int × Bool)) (e : Int × Bool) =>
    (acc.takeWhile fun x => decide (x.1.natAbs < e.1.natAbs)) ++ [e] ++ acc.dropWhile fun x => decide (x.1.natAbs < e.1.natAbs)
  (l.filter fun e => decide (e.1 < 0)).foldl ins [] ++ (l.filter fun e => decide (0 < e.1)).foldl ins []

/-- Differences read one after another. -/
def rdSide (sign : Int) : Nat → Int → Rd (List (Int × Bool))
  | 0, _ => return []
  | n + 1, at_ => do
    let d := at_ + sign * ((← rdUe) + 1 : Nat)
    let u ← rdFlag
    return (d, u) :: (← rdSide sign n d)

/-- st_ref_pic_set: number `idx` after the sets `prior`; `own` says that it stands in a slice header. -/
def rdRps (prior : List (List (Int × Bool))) (own : Bool) : Rd (List (Int × Bool)) := do
  let inter ← if prior.isEmpty then pure false else rdFlag
  if inter then
    let back ← if own then rdUe else pure 0
    let minus ← rdFlag
    let mag ← rdUe
    let delta : Int := (if minus then -1 else 1) * (mag + 1 : Nat)
    let ref := prior.reverse.getD back []
    let fs ← rdMany (fun _ => do
      let u ← rdFlag
      let d ← if u then pure true else rdFlag
      return (u, d)) (ref.length + 1)
    let all : List (Int × Bool × Bool) := ((ref.map fun (e : Int × Bool) => e.1) ++ [0]).zip fs
    return rpsSort ((all.filter fun e => e.2.2).map fun e => (e.1 + delta, e.2.1))
  else
    let n ← rdUe
    let p ← rdUe
    if 16 < n ∨ 16 < p then failure
    let neg ← rdSide (-1) n 0
    let pos ← rdSide 1 p 0
    return neg ++ pos

/-- Sets read one after another. -/
def rdSets : Nat → Rd (List (List (Int × Bool)))
  | 0 => return []
  | n + 1 => do
    let l ← rdSets n
    return l ++ [← rdRps l false]

/-- What the decoders need of a sequence parameter set: whether the profile and level are accepted (R261), chroma_format_idc, the coded size,
the conformance window in luma samples (left, right, top, bottom), the depths, the picture buffers, reordering and latency, the size of a CTB
as its logarithm, what slice headers follow, and transfer_characteristics and matrix_coeffs of the VUI. -/
structure SpsSet where
  fits : Bool := false
  chroma : Nat := 1
  w : Nat := 0
  h : Nat := 0
  window : Nat × Nat × Nat × Nat := (0, 0, 0, 0)
  depthY : Nat := 8
  depthC : Nat := 8
  dpb : Nat := 1
  reorder : Nat := 0
  latency : Nat := 0
  ctb : Nat := 6
  separate : Bool := false
  poc : Nat := 4
  sets : List (List (Int × Bool)) := []
  long : Bool := false
  longs : List (Nat × Bool) := []
  transfer : Nat := 2
  matrix : Nat := 2
  deriving DecidableEq, Repr, Inhabited

/-- Whether a profile, its compatibility and constraint flags and the format are those of Main, Main 10 or Main 4:2:2 10 at level 6.2 or
below (R261). PRESUMED (log 47). -/
def profileFits (idc : Nat) (compat : List Bool) (cons level chroma depthY depthC : Nat) : Bool :=
  let has := fun i => decide (idc = i) || compat.getD i false
  let deep := max depthY depthC
  let range := has 4 && cons.testBit 42 && cons.testBit 41 && cons.testBit 39 && decide (chroma = 1 ∨ chroma = 2) && decide (deep ≤ 10)
  let main := has 1 && decide (chroma = 1) && decide (deep ≤ 8)
  let main10 := has 2 && decide (chroma = 1) && decide (deep ≤ 10)
  (main || main10 || range) && decide (level ≤ 186)

/-- The start of the VUI: transfer_characteristics and matrix_coeffs, 2 where the stream gives none. -/
def rdColour : Rd (Nat × Nat) := do
  if (← rdFlag) then
    if (← rdU 8) = 255 then
      let _ ← rdU 32
  if (← rdFlag) then
    let _ ← rdU 1
  if (← rdFlag) then
    let _ ← rdU 4
    if (← rdFlag) then
      let _ ← rdU 8
      let t ← rdU 8
      return (t, ← rdU 8)
  return (2, 2)

/-- A sequence parameter set read as far as the decoders need it, with its number. -/
def rdSps : Rd (Nat × SpsSet) := do
  let _ ← rdU 4
  let sub ← rdU 3
  let _ ← rdU 1
  let ptl ← rdTierLevel sub
  let id ← rdUe
  let chroma ← rdUe
  let separate ← if chroma = 3 then rdFlag else pure false
  let w ← rdUe
  let h ← rdUe
  let windowed ← rdFlag
  let win ← if windowed then rdMany (fun _ => rdUe) 4 else pure [0, 0, 0, 0]
  let depthY := (← rdUe) + 8
  let depthC := (← rdUe) + 8
  let poc := (← rdUe) + 4
  if 16 < poc then failure
  let all ← rdFlag
  let info ← rdMany (fun _ => rdMany (fun _ => rdUe) 3) (if all then sub + 1 else 1)
  let last := info.getLast?.getD []
  let minCb := (← rdUe) + 3
  let ctb := minCb + (← rdUe)
  let _ ← rdMany (fun _ => rdUe) 4
  if (← rdFlag) then
    if (← rdFlag) then rdScaling
  let _ ← rdU 2
  if (← rdFlag) then
    let _ ← rdU 8
    let _ ← rdMany (fun _ => rdUe) 2
    let _ ← rdU 1
  let n ← rdUe
  if 64 < n then failure
  let sets ← rdSets n
  let long ← rdFlag
  let k ← if long then rdUe else pure 0
  if 32 < k then failure
  let longs ← rdMany (fun _ => do let a ← rdU poc; let b ← rdFlag; return (a, b)) k
  let _ ← rdU 2
  let colour ← if (← rdFlag) then rdColour else pure (2, 2)
  let sx := if chroma = 1 ∨ chroma = 2 then 2 else 1
  let sy := if chroma = 1 then 2 else 1
  return (id, {
    fits := profileFits ptl.1 ptl.2.1 ptl.2.2.1 ptl.2.2.2 chroma depthY depthC
    chroma := chroma, w := w, h := h
    window := (sx * win.getD 0 0, sx * win.getD 1 0, sy * win.getD 2 0, sy * win.getD 3 0)
    depthY := depthY, depthC := depthC
    dpb := last.getD 0 0 + 1, reorder := last.getD 1 0, latency := last.getD 2 0
    ctb := ctb, separate := separate, poc := poc, sets := sets, long := long, longs := longs, transfer := colour.1, matrix := colour.2 })

/-- What the decoders need of a picture parameter set: its number, its SPS, and what slice headers follow: dependent slice segments,
pic_output_flag, and the number of extra bits. -/
structure PpsSet where
  id : Nat := 0
  sps : Nat := 0
  dependent : Bool := false
  output : Bool := false
  extra : Nat := 0
  deriving DecidableEq, Repr, Inhabited

/-- A picture parameter set read as far as the decoders need it. -/
def rdPps : Rd PpsSet := do
  let id ← rdUe
  let sps ← rdUe
  let dependent ← rdFlag
  let output ← rdFlag
  let extra ← rdU 3
  return ⟨id, sps, dependent, output, extra⟩

/-- What the decoders need of a slice header: no_output_of_prior_pics_flag, the PPS, pic_output_flag, the low bits of the POC, the
short-term set and the long-term pictures as (low bits, used, number of whole cycles back when it is given). -/
structure HeadSet where
  noPrior : Bool := false
  output : Bool := true
  lsb : Nat := 0
  rps : List (Int × Bool) := []
  longs : List (Nat × Bool × Option Nat) := []
  deriving DecidableEq, Repr, Inhabited

/-- The bits that hold a number below `n`. -/
def lenBits (n : Nat) : Nat := if n ≤ 1 then 0 else Nat.log2 (n - 1) + 1

/-- The start of a slice header: no_output_of_prior_pics_flag, whether the slice is the picture's first, and the PPS number. -/
def rdHeadStart (type : Nat) : Rd (Bool × Bool × Nat) := do
  let first ← rdFlag
  let noPrior ← if 16 ≤ type ∧ type ≤ 23 then rdFlag else pure false
  let pps ← rdUe
  return (noPrior, first, pps)

/-- The long-term pictures of a slice header; cycles add up except at the first picture of either kind. -/
def rdLongs (sps : SpsSet) (n total : Nat) : Nat → Nat → Rd (List (Nat × Bool × Option Nat))
  | 0, _ => return []
  | m + 1, cycles => do
    let i := total - (m + 1)
    let e ← if i < n then (do return sps.longs.getD (← rdU (lenBits sps.longs.length)) default)
      else (do let a ← rdU sps.poc; let b ← rdFlag; return (a, b))
    let given ← rdFlag
    let c ← if given then rdUe else pure 0
    let sum := if i = 0 ∨ i = n then c else c + cycles
    return (e.1, e.2, if given then some sum else none) :: (← rdLongs sps n total m sum)

/-- A slice header read as far as the decoders need it; a dependent slice segment has none. -/
def rdHead (sps : SpsSet) (pps : PpsSet) (type : Nat) : Rd HeadSet := do
  let st ← rdHeadStart type
  if !st.2.1 then
    let dep ← if pps.dependent then rdFlag else pure false
    if dep then failure
    let _ ← rdU (lenBits (ceilDiv sps.w (2 ^ sps.ctb) * ceilDiv sps.h (2 ^ sps.ctb)))
  let _ ← rdU pps.extra
  let _ ← rdUe
  let output ← if pps.output then rdFlag else pure true
  let _ ← rdU (if sps.separate then 2 else 0)
  if type = 19 ∨ type = 20 then return { noPrior := st.1, output := output }
  else
    let lsb ← rdU sps.poc
    let listed ← rdFlag
    let rps ← if listed then (do return sps.sets.getD (← rdU (lenBits sps.sets.length)) []) else rdRps sps.sets true
    let n ← if sps.long && !sps.longs.isEmpty then rdUe else pure 0
    let m ← if sps.long then rdUe else pure 0
    if 32 < n + m then failure
    let longs ← rdLongs sps n (n + m) (n + m) 0
    return ⟨st.1, output, lsb, rps, longs⟩

/-- The NAL units of a byte stream: zeros since the last other byte, the unit in hand with its bytes reversed, and the units before it. -/
def nalStep (a : Nat × Option (List Byte) × List (List Byte)) (b : Byte) : Nat × Option (List Byte) × List (List Byte) :=
  if 2 ≤ a.1 ∧ b = 1 then (0, some [], match a.2.1 with | some u => u :: a.2.2 | none => a.2.2)
  else if b = 0 then (a.1 + 1, a.2)
  else (0, a.2.1.map fun u => b :: (List.replicate a.1 0 ++ u), a.2.2)

/-- The NAL units of an access unit in order, without start codes. -/
def splitNals (l : List Byte) : List (List Byte) :=
  let r := l.foldl nalStep (0, none, [])
  ((match r.2.1 with | some u => u :: r.2.2 | none => r.2.2).map List.reverse).reverse

/-- The type of a NAL unit. -/
def nalType (u : List Byte) : Nat := (u.headD 0).toNat / 2 % 64

/-- The temporal level of a NAL unit. -/
def nalLevel (u : List Byte) : Nat := (u.getD 1 0).toNat % 8 - 1

/-- The payload bits of a NAL unit. -/
def nalBits (u : List Byte) : List Bool := bytesBits (unemulate 0 (u.drop 2))

/-- Whether a NAL unit type is a slice of a picture. -/
def isSlice (t : Nat) : Bool := decide (t ≤ 9) || decide (16 ≤ t ∧ t ≤ 21)

/-- Whether a type is an IRAP picture's. -/
def isIrapType (t : Nat) : Bool := decide (16 ≤ t ∧ t ≤ 23)

end Sys2Proof.Machine
end

