-- ==== Sys2Proof/Machine/Splitter.lean ====
section
/-! DEFINITION. Renditions, the Splitter and the Prism back ends (R165 to R178, R181 to R193, R205): crops, scaling, the stages B1 to
B7, the rendition buffers and their publication. -/

namespace Sys2Proof.Machine

/-! ### Crops and output sizes (R184 to R186) -/

/-- A crop with the selections of 0 resolved (R185). -/
structure Crop where
  x : Nat
  y : Nat
  w : Nat
  h : Nat
  deriving DecidableEq, Repr, Inhabited

/-- OUT_W of a rendition. -/
def State.outW (s : State) (n : Nat) : Nat := s.fld Pg.split (Reg.SPLIT_OUT_SIZE_W n)

/-- OUT_H of a rendition. -/
def State.outH (s : State) (n : Nat) : Nat := s.fld Pg.split (Reg.SPLIT_OUT_SIZE_H n)

/-- The crop of a rendition in a register set read by `g`, on a picture of `w` × `h`. -/
def cropOf (g : Fld → Nat) (n w h : Nat) : Crop :=
  let cw := g (Reg.SPLIT_CROP_WH_W n)
  let ch := g (Reg.SPLIT_CROP_WH_H n)
  ⟨g (Reg.SPLIT_CROP_XY_X n), g (Reg.SPLIT_CROP_XY_Y n), if cw = 0 then w else cw, if ch = 0 then h else ch⟩

/-- Whether the crop of a rendition in a register set is valid (R185). -/
def State.cropValid (s : State) (g : Fld → Nat) (n w h : Nat) : Bool :=
  let c := cropOf g n w h
  let cw := g (Reg.SPLIT_CROP_WH_W n)
  let ch := g (Reg.SPLIT_CROP_WH_H n)
  decide (c.x % 2 = 0 ∧ c.y % 2 = 0 ∧ cw % 2 = 0 ∧ ch % 2 = 0) && decide (cw ≠ 0 ∨ c.x = 0) && decide (ch ≠ 0 ∨ c.y = 0)
    && decide (c.x + c.w ≤ w ∧ c.y + c.h ≤ h) && decide (s.outW n ≤ 2 * c.w ∧ c.w ≤ 8 * s.outW n)
    && decide (s.outH n ≤ 2 * c.h ∧ c.h ≤ 8 * s.outH n)

/-- The renditions in use. -/
def State.rendsUsed (s : State) : List Nat := (List.range 8).filter s.rendUsed

/-- The width of the working picture: the stored raster's, or the raw decoder's in REVIEW (R60, R185). -/
def State.workW (s : State) (review : Bool) : Nat := if review then s.fld Pg.drdec Reg.DRDEC_OUT_SIZE_W else s.rasterW

/-- The height of the working picture. -/
def State.workH (s : State) (review : Bool) : Nat := if review then s.fld Pg.drdec Reg.DRDEC_OUT_SIZE_H else s.rasterH

/-- Whether a rendition in use has an invalid crop in a register set (R185, R186, R193). -/
def State.cropBad (s : State) (g : Fld → Nat) (review : Bool) : Bool :=
  s.rendsUsed.any fun n => !s.cropValid g n (s.workW review) (s.workH review)

/-! ### Rendition frames (R177, R191) -/

/-- The depth of a rendition. -/
def State.outDepth (s : State) (n : Nat) : Nat :=
  match s.fld (Pg.prismBe n) Reg.PRISM_BE_OUT_CFG_DEPTH with
  | 0 => 8 | 1 => 10 | 2 => 12 | _ => 16

/-- CHROMA of a rendition: 0 4:4:4, 1 4:2:2, 2 4:2:0. -/
def State.outChroma (s : State) (n : Nat) : Nat := s.fld (Pg.prismBe n) Reg.PRISM_BE_OUT_CFG_CHROMA

/-- The line stride of plane 0 (R177). -/
def State.stride0 (s : State) (n : Nat) : Nat := ceilDiv (s.outW n * s.outDepth n) 512 * 64

/-- The sample pairs of a line of plane 1 (R177). -/
def State.chromaW (s : State) (n : Nat) : Nat := if s.outChroma n = 0 then s.outW n else s.outW n / 2

/-- The lines of plane 1 (R177). -/
def State.chromaLines (s : State) (n : Nat) : Nat := if s.outChroma n = 2 then s.outH n / 2 else s.outH n

/-- The line stride of plane 1 (R177). -/
def State.stride1 (s : State) (n : Nat) : Nat := ceilDiv (2 * s.chromaW n * s.outDepth n) 512 * 64

/-- The bytes of a rendition frame (R177). -/
def State.rendBytes (s : State) (n : Nat) : Nat := s.outH n * s.stride0 n + s.chromaLines n * s.stride1 n

/-- BUF_SIZE of a rendition as it is computed at take START (R191). -/
def State.rendPages (s : State) (n : Nat) : Nat := ceilDiv (s.rendBytes n) 4096

/-- The address of a rendition's ring. -/
def State.bufBase (s : State) (n : Nat) : Nat :=
  4096 * s.fld Pg.split (Reg.SPLIT_BUF_BASE_LO n) + 2 ^ 32 * s.fld Pg.split (Reg.SPLIT_BUF_BASE_HI n)

/-- COUNT of a rendition's ring. -/
def State.bufCount (s : State) (n : Nat) : Nat := s.fld Pg.split (Reg.SPLIT_BUF_CFG n)

/-- The address of the buffer of a frame (R191). -/
def State.bufAddr (s : State) (n f : Nat) : Nat :=
  s.bufBase n + f % s.bufCount n * (s.fld Pg.split (Reg.SPLIT_BUF_SIZE n) * 4096)

/-! ### Configuration checks (R158, R178, R193) -/

/-- Whether the front end fails the check of R178. -/
def State.feBad (s : State) : Bool := s.cfa && !([0x94, 0x61, 0x49, 0x16].contains s.cfaMap)

/-- Whether the back end of a rendition in use fails the check of R178. -/
def State.beBad (s : State) (n : Nat) : Bool :=
  let p := Pg.prismBe n
  let ycc := s.fld p Reg.PRISM_BE_OUT_CFG_YCC
  let ch := s.outChroma n
  s.rendUsed n && (!s.on p Reg.PRISM_BE_CTRL_ENABLE || decide (ycc = 3) || decide (3 < s.fld p Reg.PRISM_BE_OUT_CFG_TRANSFER)
    || decide (ch = 3) || ((decide (ch = 1) || decide (ch = 2)) && (decide (ycc = 0) || decide (s.outW n % 2 = 1)))
    || (decide (ch = 2) && decide (s.outH n % 2 = 1)))

/-- Whether a rendition in use breaks R184 or R191. -/
def State.sizeBad (s : State) (n : Nat) : Bool :=
  decide (s.outW n % 2 ≠ 0) || decide (s.outW n < 64) || decide (16384 < s.outW n) || decide (s.outH n % 2 ≠ 0)
    || decide (s.outH n < 64) || decide (8640 < s.outH n) || decide (s.bufCount n < 3) || decide (16 < s.bufCount n)

/-- Whether the rings of two renditions overlap (R193). -/
def State.ringsMeet (s : State) (a b : Nat) : Bool :=
  let len := fun n => s.bufCount n * s.rendPages n * 4096
  decide (s.bufBase a < s.bufBase b + len b) && decide (s.bufBase b < s.bufBase a + len a)

/-- Whether the Splitter fails the check of R193. -/
def State.splitBad (s : State) (review : Bool) : Bool :=
  s.rendsUsed.any s.sizeBad || s.cropBad (s.fld Pg.split) review
    || s.rendsUsed.any fun a => s.rendsUsed.any fun b => decide (a < b) && s.ringsMeet a b

/-! ### Back end stages (R165 to R176) -/

/-- A committed back-end value of a frame. -/
def State.be (s : State) (n f : Nat) (r : Fld) : Nat := s.fval f (Pg.prismBe n) r

/-- Whether a back-end stage acts on a frame: it is enabled and not bypassed (R149, R171). -/
def State.beOn (s : State) (n f : Nat) (r : Fld) (bit : Nat) : Bool :=
  s.fon f (Pg.prismBe n) r && !(s.be n f bypassFld).testBit bit

/-- A curve of a slot for a channel (R170). -/
def State.curve (s : State) (slot fmt ch : Nat) : Nat → Frac := fun k => entryVal fmt (s.entry slot (1024 * ch + k))

/-- E of R166. -/
def State.eBase (s : State) (n f : Nat) : Int := max (-62) (min 47 (signed 8 (s.be n f Reg.PRISM_BE_PRECURVE_BASE)))

/-- PQ_NITS within its limits. -/
def State.pqNits (s : State) (n f : Nat) : Nat := max 1 (min 10000 (s.be n f Reg.PRISM_BE_PQ_NITS))

/-- B1 to B5 of a pixel (R165 to R173). -/
def State.bePixel (s : State) (n f : Nat) (p : Nat × Nat × Nat) : Nat × Nat × Nat :=
  let v := s.be n f
  let off := fun k => pfVal (v (if k = 0 then Reg.PRISM_BE_OFF_R else if k = 1 then Reg.PRISM_BE_OFF_G else Reg.PRISM_BE_OFF_B))
  let p1 :=
    if s.beOn n f Reg.PRISM_BE_STAGES_MATRIX_EN 8 then
      (matrix3 (fun i j => signed 20 (v (Reg.PRISM_BE_M (3 * i + j)))) off p).1
    else p
  let p2 :=
    if s.beOn n f Reg.PRISM_BE_STAGES_PRECURVE_EN 0 then
      map3 (fun ch => preCurve (s.curve (v Reg.PRISM_BE_PRECURVE_SLOT_SLOT) (v Reg.PRISM_BE_PRECURVE_SLOT_FMT) ch) (s.eBase n f)) p1
    else p1
  let p3 :=
    if s.beOn n f Reg.PRISM_BE_STAGES_LUT_EN 1 then
      let slot := v Reg.PRISM_BE_LUT_SLOT_SLOT
      lut3 (if s.slotKindOf slot = 2 then 17 else 33)
        (fun i c => entryVal (v Reg.PRISM_BE_LUT_SLOT_FMT) (s.entry slot (3 * i + c))) p2
    else p2
  let p4 :=
    if s.beOn n f Reg.PRISM_BE_STAGES_TONE_EN 2 then
      map3 (fun ch => toneCurve (s.curve (v Reg.PRISM_BE_TONE_SLOT_SLOT) (v Reg.PRISM_BE_TONE_SLOT_FMT) ch)) p3
    else p3
  map3 (fun _ => transfer (s.fld (Pg.prismBe n) Reg.PRISM_BE_OUT_CFG_TRANSFER) (s.pqNits n f)) p4

/-- A component of the working picture. -/
def comp3 (c : Nat) (p : Nat × Nat × Nat) : Nat := if c = 0 then p.1 else if c = 1 then p.2.1 else p.2.2

/-- A pixel of a rendition as the scaler gives it (R187 to R190). -/
def State.scaled (s : State) (q : Pic) (n x y : Nat) : Nat × Nat × Nat :=
  let c := cropOf (s.fval q.frame Pg.split) n q.w q.h
  let px := fun ch => scaleAt 1 (fun i => scaleAt 0 (fun j => comp3 ch (at2 q.work (c.x + j) (c.y + i))) c.w (s.outW n) x) c.h
    (s.outH n) y
  (px 0, px 1, px 2)

/-- The codes of one component of a rendition line after B6 (R174, R175). -/
def State.rendCodes (s : State) (q : Pic) (n ch y : Nat) : List Code :=
  let p := Pg.prismBe n
  (List.range (s.outW n)).map fun x =>
    quantise (s.fld p Reg.PRISM_BE_OUT_CFG_YCC) (s.outDepth n) (s.on p Reg.PRISM_BE_OUT_CFG_RANGE) ch
      (s.bePixel n q.frame (s.scaled q n x y))

/-- A list of values clamped (R175). -/
def State.clampAll (s : State) (n : Nat) (l : List Int) : List Code :=
  l.map (clampCode (s.outDepth n) (s.on (Pg.prismBe n) Reg.PRISM_BE_OUT_CFG_RANGE))

/-- A chroma line after the horizontal step (R176). -/
def State.chromaRow (s : State) (q : Pic) (n ch y : Nat) : List Code :=
  let full := s.rendCodes q n ch y
  if s.outChroma n = 0 then full
  else s.clampAll n ((List.range (s.outW n / 2)).map (chromaH (full.map (·.1))))

/-- A chroma line after the vertical step of 4:2:0 (R176). -/
def State.chromaOut (s : State) (q : Pic) (n ch j : Nat) : List Code :=
  let row := fun (d : Int) => (s.chromaRow q n ch (reflect (s.outH n) (2 * (j : Int) + d))).map (·.1)
  let a := row (-1)
  let b := row 0
  let c := row 1
  let d := row 2
  s.clampAll n ((List.range (s.outW n / 2)).map fun i =>
    chromaV (s.fld (Pg.prismBe n) Reg.PRISM_BE_OUT_CFG_VSITE) (a.getD i 0) (b.getD i 0) (c.getD i 0) (d.getD i 0))

/-- The lines of a group of a rendition. -/
def State.groupLines (s : State) (n g : Nat) : List Nat := (List.range (min 32 (s.outH n - 32 * g))).map (32 * g + ·)

/-- The codes counted for a group: those of B6, those of the horizontal chroma step and those of the vertical one (R175, R176). -/
def State.groupCodes (s : State) (q : Pic) (n g : Nat) : List Code :=
  let ls := s.groupLines n g
  let b6 := ls.flatMap fun y => [0, 1, 2].flatMap fun ch => s.rendCodes q n ch y
  let h := if s.outChroma n = 0 then [] else ls.flatMap fun y => [1, 2].flatMap fun ch => s.chromaRow q n ch y
  let v := if s.outChroma n = 2 then
    (ls.filter (· % 2 = 0)).flatMap fun y => [1, 2].flatMap fun ch => s.chromaOut q n ch (y / 2) else []
  b6 ++ h ++ v

/-- Codes as sample values. -/
def codeVals (l : List Code) : List Nat := l.map fun c => c.1.toNat

/-- Two lists taken in turn. -/
def interleave : List Nat → List Nat → List Nat
  | a :: as, b :: bs => a :: b :: interleave as bs
  | _, _ => []

/-- The lines of a group written to the frame's buffer (R177). -/
def State.writeGroup (s : State) (q : Pic) (n g : Nat) : State :=
  let base := s.bufAddr n q.frame
  let base1 := base + s.outH n * s.stride0 n
  let depth := s.outDepth n
  let pairs := fun j => if s.outChroma n = 2 then interleave (codeVals (s.chromaOut q n 1 j)) (codeVals (s.chromaOut q n 2 j))
    else interleave (codeVals (s.chromaRow q n 1 j)) (codeVals (s.chromaRow q n 2 j))
  let ls := s.groupLines n g
  let js := if s.outChroma n = 2 then (ls.filter (· % 2 = 0)).map (· / 2) else ls
  let luma := ls.map fun y => (base + y * s.stride0 n, padTo (s.stride0 n) (packBits depth (codeVals (s.rendCodes q n 0 y))))
  let chroma := js.map fun j => (base1 + j * s.stride1 n, padTo (s.stride1 n) (packBits depth (pairs j)))
  (luma ++ chroma).foldl (fun s e => s.pokeN e.1 e.2) s

/-! ### The Splitter (R192, R199) -/

/-- A frame's part of a rendition replaced. -/
def State.putRend (s : State) (q : Pic) (n : Nat) (r : RendSt) : State := s.putPic { q with rends := q.rends.put n r }

/-- The groups of a rendition frame. -/
def State.groupCount (s : State) (n : Nat) : Nat := ceilDiv (s.outH n) 32

/-- The first frame of which a rendition has not begun, once the frames before it are finished. -/
def State.nextRend (s : State) (n : Nat) : Option Pic :=
  match s.split.pics.find? fun q => !(q.rends.get n).done with
  | some q => if (q.rends.get n).begun then none else some q
  | none => none

/-- The streams that encode a rendition (R234). DESIGN CHOICE (log 46). -/
def State.streamsOf (s : State) (n : Nat) : List Nat :=
  (List.range 8).filter fun k =>
    decide (s.fld (Pg.henc k) Reg.HENC_CFG_ROLE = 1) && s.on (Pg.henc k) Reg.HENC_CTRL_ENABLE
      && decide (s.fld (Pg.henc k) Reg.HENC_CFG_REND = n)

/-- The Splitter begins the next frame of a rendition, or waits for a consumer that holds its buffer (R192). The streams of
the rendition are due to read the buffer, and the Recorder holds it until it has its digest (R192, R244, R257, R274). A frame that
takes a slot of the wrong kind counts once (R171). -/
def State.splitBegin (s : State) (n : Nat) : State :=
  match s.nextRend n with
  | none => s
  | some q =>
    if s.rendRuns n = false then s
    else
      let c := s.bufCount n
      let r := q.rends.get n
      if s.split.holds.any fun h => decide (h.2.1 = n) && decide (h.2.2 % c = q.frame % c) then
        if r.stalled then s
        else ((s.putRend q n { r with stalled := true }).count Pg.split (Reg.SPLIT_STALL_COUNT n)).raise Pg.split Reg.SPLIT_EVENT_STALL
      else
        let s1 := s.putRend q n { r with begun := true }
        let digest := s.recorded q.frame && s.on Pg.recorder Reg.RECORDER_CFG_DIGESTS
          && (s.fld Pg.recorder Reg.RECORDER_CFG_DIGEST_REND).testBit n
        let readers := if s.ctl.mode = .review then [] else
          ((s.streamsOf n).map fun k => (Reader.due k, n, q.frame)) ++ if digest then [(Reader.hold 0, n, q.frame)] else []
        let s2 : State := { s1 with split := { s1.split with
          bufs := s1.split.bufs.put (16 * n + q.frame % c) (some q.frame), holds := s1.split.holds ++ readers } }
        if s.be n q.frame bypassFld = 0 then s2 else s2.count (Pg.prismBe n) Reg.PRISM_BE_SLOT_ERR_FRAMES

/-- SPLIT_FRAME_START (R192). -/
def execSplitFrameStart (n : Nat) (s : State) : Host.Outcome State Fault Refusal := .next (s.splitBegin n)

/-- The frame that a rendition is in. -/
def State.curRend (s : State) (n : Nat) : Option Pic :=
  s.split.pics.find? fun q => (q.rends.get n).begun && !(q.rends.get n).done

/-- Whether the working lines that a group needs have left the front end (R176, R187, R188). -/
def State.groupReady (s : State) (q : Pic) (n g : Nat) : Bool :=
  let c := cropOf (s.fval q.frame Pg.split) n q.w q.h
  let top := if s.outChroma n = 2 then 32 * g + 32 else 32 * g + 31
  decide (c.y + lastLine c.h (s.outH n) (min (s.outH n - 1) top) < q.work.length)

/-- The Splitter publishes the next group of lines of a rendition (R165 to R177, R192). -/
def State.publish (s : State) (n : Nat) : State :=
  match s.curRend n with
  | none => s
  | some q =>
    let r := q.rends.get n
    let p := Pg.prismBe n
    if s.groupCount n ≤ r.groups ∨ s.groupReady q n r.groups = false then s
    else
      let codes := s.groupCodes q n r.groups
      let lo := (codes.map (·.2.1)).sum
      let hi := (codes.map (·.2.2)).sum
      let s1 := (s.writeGroup q n r.groups).putRend q n { r with groups := r.groups + 1, lo := r.lo + lo, hi := r.hi + hi }
      let s2 := (s1.countBy p Reg.PRISM_BE_CLIP_LO_COUNT lo).countBy p Reg.PRISM_BE_CLIP_HI_COUNT hi
      let s3 := s2.raiseIf (decide (r.lo + r.hi = 0) && decide (lo + hi ≠ 0)) p Reg.PRISM_BE_EVENT_CLIP
      if r.groups + 1 = s.groupCount n then
        { s3 with split := { s3.split with newest := s3.split.newest.put n (some q.frame) } }
      else s3

/-- SPLIT_GROUP_PUBLISH (R192). -/
def execSplitGroupPublish (n : Nat) (s : State) : Host.Outcome State Fault Refusal := .next (s.publish n)

/-- A back end finishes its rendition frame: LAST_FRAME advances and slots that only older values name are free (R181, R199). -/
def State.rendDone (s : State) (n : Nat) : State :=
  match s.curRend n with
  | none => s
  | some q =>
    let r := q.rends.get n
    if r.groups < s.groupCount n then s
    else
      let s1 := (s.putRend q n { r with done := true }).setFld64 (Pg.prismBe n) Reg.PRISM_BE_LAST_FRAME_LO
        Reg.PRISM_BE_LAST_FRAME_HI q.frame
      noteFreed s s1.dropPics

/-- REND_FRAME_DONE (R199). -/
def execRendFrameDone (n : Nat) (s : State) : Host.Outcome State Fault Refusal := .next (s.rendDone n)

/-- The lines of a frame that a rendition has published (R192). -/
def State.published (s : State) (n f : Nat) : Nat :=
  if s.split.bufs.get (16 * n + f % s.bufCount n) = some f then
    match s.pic f with
    | some q => min (s.outH n) (32 * (q.rends.get n).groups)
    | none => s.outH n
  else 0

/-- A consumer holds a rendition buffer (R192). -/
def State.holdBuf (s : State) (c : Reader) (n f : Nat) : State :=
  { s with split := { s.split with holds := s.split.holds ++ [(c, n, f)] } }

/-- A consumer releases a rendition buffer. -/
def State.freeBuf (s : State) (c : Reader) (n f : Nat) : State :=
  { s with split := { s.split with holds := s.split.holds.filter fun h => decide (h ≠ (c, n, f)) } }

/-- What the Splitter computes and clears at a take START (R181, R191, R205). -/
def State.splitStart (s : State) : State :=
  let s1 := (List.range 8).foldl
    (fun (s : State) n =>
      let p := Pg.prismBe n
      let s1 := (s.setFld Pg.split (Reg.SPLIT_STALL_COUNT n) 0).setFld Pg.split (Reg.SPLIT_BUF_SIZE n) (s.rendPages n)
      [Reg.PRISM_BE_CLIP_LO_COUNT, Reg.PRISM_BE_CLIP_HI_COUNT, Reg.PRISM_BE_SLOT_ERR_FRAMES].foldl (fun s f => s.setFld p f 0) s1)
    s
  { s1 with split := { holds := s1.split.holds } }

/-- SCALE_INFO of a rendition from the active crop of the working picture (R60, R187, R189, R205). -/
def State.scaleInfo (s : State) (n : Nat) : Nat :=
  let c := cropOf (s.actv Pg.split) n (s.workW (s.ctl.mode = .review)) (s.workH (s.ctl.mode = .review))
  let kh := halvings c.w (s.outW n)
  let kv := halvings c.h (s.outH n)
  kh + 4 * kv + 16 * bankOf (halved kh c.w) (s.outW n) + 256 * bankOf (halved kv c.h) (s.outH n)

end Sys2Proof.Machine
end

