-- ==== Sys2Proof/Machine/Hevc.lean ====
section
/-! DEFINITION. HEVC streams, their cores, GOP structures, references, units, frame records and rate control (R234 to R260, R264, R265).
The bits of a CTB follow ITU-T H.265 and the encoder's own choices, which the manual does not give: they are a free function of what R258
names. The beginning of a picture, on which the Recorder may have to drop a group, stands in Recorder.lean. -/

namespace Sys2Proof.Machine

/-! ### Streams and cores (R234, R235) -/

/-- The page of a stream's lead core. -/
abbrev lead (k : Nat) : Nat := Pg.henc k

/-- A stream's state. -/
def State.stream (s : State) (k : Nat) : HencSt := s.henc.get k

/-- The state with a stream set. -/
def State.putStream (s : State) (k : Nat) (h : HencSt) : State := { s with henc := s.henc.put k h }

/-- Whether a core leads an active stream. -/
def State.streamOn (s : State) (k : Nat) : Bool :=
  decide (s.fld (lead k) Reg.HENC_CFG_ROLE = 1) && s.on (lead k) Reg.HENC_CTRL_ENABLE

/-- The active streams. -/
def State.streams (s : State) : List Nat := (List.range 8).filter s.streamOn

/-- The rendition of a stream. -/
def State.rendOf (s : State) (k : Nat) : Nat := s.fld (lead k) Reg.HENC_CFG_REND

/-- The core list of a stream (R235). -/
def State.coreList (s : State) (k : Nat) : List Nat :=
  (List.range 8).filter fun c =>
    !s.on (Pg.henc c) Reg.HENC_STATE_FAULT && s.on (Pg.henc c) Reg.HENC_CTRL_ENABLE &&
      (decide (c = k) || (s.stream k).adopted.contains c
        || (decide (s.fld (Pg.henc c) Reg.HENC_CFG_ROLE = 2) && decide (s.fld (Pg.henc c) Reg.HENC_CFG_LEAD = k)))

/-! ### Tiles and units (R245, R246) -/

/-- The lengths of `n` uniformly spaced spans of `w` CTBs (R245). -/
def uniform (w n : Nat) : List Nat := (List.range n).map fun i => (i + 1) * w / n - i * w / n

/-- The size of a stream's picture. -/
def State.picSize (s : State) (k : Nat) : Nat × Nat := (s.outW (s.rendOf k), s.outH (s.rendOf k))

/-- The CTBs across and down a stream's picture. -/
def State.ctbs (s : State) (k : Nat) : Nat × Nat := (ceilDiv (s.picSize k).1 64, ceilDiv (s.picSize k).2 64)

/-- The spans of a list of lengths as (first, length). -/
def spans (l : List Nat) : List (Nat × Nat) := (List.range l.length).map fun i => ((l.take i).sum, l.getD i 0)

/-- The units of a stream in bitstream order as (first CTB column, columns, first CTB row, rows) (R246). -/
def State.units (s : State) (k : Nat) : List (Nat × Nat × Nat × Nat) :=
  let c := s.ctbs k
  let cols := spans (uniform c.1 (s.fld (lead k) Reg.HENC_LAYOUT_TILE_COLS))
  let rows := spans (uniform c.2 (s.fld (lead k) Reg.HENC_LAYOUT_TILE_ROWS))
  rows.flatMap fun r => cols.flatMap fun x =>
    if s.on (lead k) Reg.HENC_LAYOUT_WPP then (List.range r.2).map fun i => (x.1, x.2, r.1 + i, 1) else [(x.1, x.2, r.1, r.2)]

/-- The luma samples of a unit inside the picture (R236). -/
def State.unitSites (s : State) (k : Nat) (u : Nat × Nat × Nat × Nat) : Nat :=
  let p := s.picSize k
  (min p.1 (64 * (u.1 + u.2.1)) - 64 * u.1) * (min p.2 (64 * (u.2.2.1 + u.2.2.2)) - 64 * u.2.2.1)

/-- The units of a stream that a core carries (R235). -/
def State.coreUnits (s : State) (k c : Nat) : List (Nat × Nat × Nat × Nat) :=
  let l := s.coreList k
  ((s.units k).zipIdx.filter fun e => decide (l[e.2 % l.length]? = some c)).map (·.1)

/-- The stream that a core serves. -/
def State.servedBy (s : State) (c : Nat) : Option Nat := s.streams.find? fun k => (s.coreList k).contains c

/-- The luma samples of a frame that a core carries. -/
def State.hencSites (s : State) (c : Nat) : Nat :=
  (s.streams.map fun k => ((s.coreUnits k c).map (s.unitSites k)).sum).sum

/-- STATE, LOAD and UNITS of the HENC pages (R264). -/
def State.showHenc (s : State) : State :=
  (List.range 8).foldl
    (fun (s : State) c =>
      let p := Pg.henc c
      let served := s.servedBy c
      let n := match served with | some k => (s.coreUnits k c).length | none => 0
      let busy := match served with | some k => (s.stream k).cur.isSome | none => false
      let phase := if s.on p Reg.HENC_STATE_FAULT then 3 else if served.isNone then 0 else if busy then 2 else 1
      (((s.setFld p Reg.HENC_STATE_PHASE phase).setFld p Reg.HENC_STATE_STREAM (served.getD 0)).setFld p Reg.HENC_LOAD
        (min 65535 (ceilDiv (s.perSecond (s.hencSites c)) 1000000))).setFld p Reg.HENC_UNITS n) s

/-! ### Configuration check (R237, R238, R250, R260) -/

/-- Whether a rendition's format suits a profile (R237). -/
def profileOk (profile chroma depth : Nat) : Bool :=
  match profile with
  | 0 => decide (chroma = 2) && decide (depth = 8)
  | 1 => decide (chroma = 2) && (decide (depth = 8) || decide (depth = 10))
  | 2 => (decide (chroma = 2) || decide (chroma = 1)) && (decide (depth = 8) || decide (depth = 10))
  | _ => false

/-- A level's largest picture, largest luma sample rate, tile rows and tile columns (R238). -/
def levelLimits (level : Nat) : Option (Nat × Nat × Nat × Nat) :=
  match level with
  | 120 => some (2228224, 66846720, 5, 5)
  | 123 => some (2228224, 133693440, 5, 5)
  | 150 => some (8912896, 267386880, 11, 10)
  | 153 => some (8912896, 534773760, 11, 10)
  | 156 => some (8912896, 1069547520, 11, 10)
  | 180 => some (35651584, 1069547520, 22, 20)
  | 183 => some (35651584, 2139095040, 22, 20)
  | 186 => some (35651584, 4278190080, 22, 20)
  | _ => none

/-- Whether a stream's picture fits its level (R238). -/
def State.levelOk (s : State) (k : Nat) : Bool :=
  let n := (s.picSize k).1 * (s.picSize k).2
  match levelLimits (s.fld (lead k) Reg.HENC_CFG_LEVEL) with
  | some l =>
    decide (n ≤ l.1) && decide (n * s.takeRate.1 ≤ l.2.1 * s.takeRate.2)
      && decide (s.fld (lead k) Reg.HENC_LAYOUT_TILE_ROWS ≤ l.2.2.1) && decide (s.fld (lead k) Reg.HENC_LAYOUT_TILE_COLS ≤ l.2.2.2)
  | none => false

/-- Whether the tiles of a stream are large enough (R260). -/
def State.tilesOk (s : State) (k : Nat) : Bool :=
  let c := s.ctbs k
  let p := s.picSize k
  let tc := s.fld (lead k) Reg.HENC_LAYOUT_TILE_COLS
  let tr := s.fld (lead k) Reg.HENC_LAYOUT_TILE_ROWS
  decide (1 ≤ tc ∧ tc ≤ 20 ∧ 1 ≤ tr ∧ tr ≤ 22)
    && ((spans (uniform c.1 tc)).all fun x => decide (256 ≤ min p.1 (64 * (x.1 + x.2)) - 64 * x.1))
    && ((spans (uniform c.2 tr)).all fun x => decide (64 ≤ min p.2 (64 * (x.1 + x.2)) - 64 * x.1))

/-! ### Access units (R240, R241, R247 to R249) -/

/-- What the parameter sets and slice headers of a stream follow (R237 to R242, R245). -/
def State.streamSet (s : State) (k : Nat) : StreamSet :=
  let p := lead k
  let n := s.rendOf k
  let be := Pg.prismBe n
  { profile := s.fld p Reg.HENC_CFG_PROFILE, tier := s.on p Reg.HENC_CFG_TIER, level := s.fld p Reg.HENC_CFG_LEVEL
    chroma := if s.outChroma n = 2 then 1 else 2, depth := s.outDepth n, w := s.outW n, h := s.outH n
    gop := s.fld p Reg.HENC_GOP_STRUCT, refs := s.fld p Reg.HENC_GOP_NUM_REF
    cols := s.fld p Reg.HENC_LAYOUT_TILE_COLS, rows := s.fld p Reg.HENC_LAYOUT_TILE_ROWS, wpp := s.on p Reg.HENC_LAYOUT_WPP
    primaries := s.fld p Reg.HENC_COLOUR
    transfer := [8, 16, 18, 1].getD (s.fld be Reg.PRISM_BE_OUT_CFG_TRANSFER) 1
    matrix := [0, 1, 9].getD (s.fld be Reg.PRISM_BE_OUT_CFG_YCC) 1
    full := s.on be Reg.PRISM_BE_OUT_CFG_RANGE
    vsite := if s.on be Reg.PRISM_BE_OUT_CFG_VSITE then 2 else 0 }

/-- The NAL units before the slice of a picture: delimiter, parameter sets at an IRAP and SEI (R240). -/
def State.auHead (s : State) (k : Nat) (p : HencPic) : List Byte :=
  let q := s.streamSet k
  audNal p.kind ++ (if p.irap then q.vps ++ q.sps ++ q.pps else []) ++ seiNal p.frame (s.rendOf k)

/-- The overhead O of a picture: the SEI and the slice header count at their largest size, so that O depends on the configuration and the
picture's type alone (R248). DESIGN CHOICE (log 46). -/
def State.overhead (s : State) (k : Nat) (p : HencPic) : Nat :=
  (s.auHead k { p with frame := 0 }).length + (s.streamSet k).sliceRoom p.type p.kind (s.units k).length

/-- The slice of a unit in bytes (R248). -/
def State.unitSlice (s : State) (k overhead : Nat) (u : Nat × Nat × Nat × Nat) : Nat :=
  let c := s.ctbs k
  (s.fld (lead k) Reg.HENC_ES_CAP - overhead) * (u.2.1 * u.2.2.2) / (c.1 * c.2)

/-- The NAL unit type of an IRAP picture: CRA, or IDR with or without leading pictures (R242). -/
def State.irapType (s : State) (k : Nat) (idr : Bool) : Nat :=
  if idr then (if s.fld (lead k) Reg.HENC_GOP_STRUCT = 2 then 19 else 20) else 21

/-- O_IRAP of a stream: the overhead of an IRAP picture of its IRAP_TYPE (R250). -/
def State.overheadIrap (s : State) (k : Nat) : Nat :=
  s.overhead k { irap := true, type := s.irapType k (!s.on (lead k) Reg.HENC_GOP_IRAP_TYPE) }

/-- Whether a lead page fails the check of R260. -/
def State.leadBad (s : State) (k : Nat) : Bool :=
  let p := lead k
  let n := s.rendOf k
  let c := s.ctbs k
  let st := s.fld p Reg.HENC_GOP_STRUCT
  let ip := s.fld p Reg.HENC_GOP_INTRA_PERIOD
  let nr := s.fld p Reg.HENC_GOP_NUM_REF
  let cnt := s.fld p Reg.HENC_ES_CFG
  !s.rendUsed n || !profileOk (s.fld p Reg.HENC_CFG_PROFILE) (s.outChroma n) (s.outDepth n) || !s.levelOk k || !s.tilesOk k
    || ((s.coreList k).any fun c => decide (500000000 * s.takeRate.2 < s.hencSites c * s.takeRate.1))
    || decide (s.fld p Reg.HENC_ES_CAP < s.overheadIrap k + 2 * (s.units k).length + 3 * (c.1 * c.2))
    || decide (cnt < 3) || decide (16 < cnt) || (decide (st = 2) && decide (s.bufCount n < 6)) || decide (st = 3)
    || (decide (st = 1) && (decide (nr < 1) || decide (2 < nr))) || decide (ip = 0) || (decide (st = 2) && decide (ip % 4 ≠ 0))

/-- The member pages that name a core that is not a lead (R260). -/
def State.strayMembers (s : State) : List Nat :=
  (List.range 8).filter fun c =>
    s.on (Pg.henc c) Reg.HENC_CTRL_ENABLE && decide (s.fld (Pg.henc c) Reg.HENC_CFG_ROLE = 2)
      && !s.streamOn (s.fld (Pg.henc c) Reg.HENC_CFG_LEAD)

/-- The HENC pages that fail the START check: bad leads, and for a stray member the page it names as its lead (R260). -/
def State.hencBad (s : State) : List Nat :=
  s.streams.filter s.leadBad ++ s.strayMembers.map fun c => s.fld (Pg.henc c) Reg.HENC_CFG_LEAD

/-! ### Coding order (R242 to R244) -/

/-- Frames of a mini-GOP. -/
def State.gopLen (s : State) (k : Nat) : Nat := if s.fld (lead k) Reg.HENC_GOP_STRUCT = 2 then 4 else 1

/-- The last frame before a point at which a run of pictures is cut: the boundary of a recording, or the take's last frame. -/
def State.cutAt (s : State) (origin : Nat) : Option Nat :=
  match s.ctl.recStart with
  | some b => if origin < b then some (b - 1) else s.ctl.stopFrame
  | none => s.ctl.stopFrame

/-- The last frame of the mini-GOP that follows a frame (R242, R243). -/
def State.gopEnd (s : State) (k base : Nat) : Nat :=
  match s.cutAt (s.stream k).origin with
  | some c => if base < c then min (base + s.gopLen k) c else base + s.gopLen k
  | none => base + s.gopLen k

/-- The frames of a mini-GOP in coding order (R242). -/
def gopOrder (base last : Nat) : List Nat := last :: ([base + 2, base + 1, base + 3].filter fun f => decide (f < last))

/-- Whether a frame has been dropped at Ingress: its number has passed and no part of the data path holds it (R134, R243). -/
def State.absent (s : State) (n f : Nat) : Bool :=
  s.ctl.frameSeen && decide (f ≤ s.frameNow) && !s.ingress.ready.contains f && (s.pic f).isNone
    && !(match s.ingress.openFrame with | some o => decide (o.num = f) && o.slot.isSome | none => false)
    && !(match s.ingress.reading with | some r => decide (r.frame = f) | none => false)
    && !(s.split.holds.any fun h => decide (h.2.1 = n) && decide (h.2.2 = f))

/-- The frames of a stream's mini-GOP that are still to come, in coding order. -/
def State.gopLeft (s : State) (k : Nat) : List Nat :=
  let h := s.stream k
  let order := match h.base with | none => [h.origin] | some b => gopOrder b (s.gopEnd k b)
  order.filter fun f => !h.coded.contains f && !s.absent (s.rendOf k) f

/-- A stream whose mini-GOP has no frame to come moves to the next one; a run cut at a boundary begins anew there (R243). -/
def State.advanceGop (s : State) (k : Nat) : State :=
  let h := s.stream k
  if (s.gopLeft k).isEmpty = false then s
  else
    let last := match h.base with | none => h.origin | some b => s.gopEnd k b
    let restart := match s.ctl.recStart with | some b => decide (h.origin < b) && decide (last + 1 = b) | none => false
    s.putStream k (if restart then { h with origin := last + 1, base := none, coded := [] } else { h with base := some last, coded := [] })

/-- Advances over mini-GOPs whose frames were all dropped. -/
def State.advanceGops (s : State) (k : Nat) : Nat → State
  | 0 => s
  | n + 1 => if (s.gopLeft k).isEmpty ∧ s.ctl.frameSeen then (s.advanceGop k).advanceGops k n else s

/-- The place of a frame in its run. -/
def State.intraPos (s : State) (k f : Nat) : Nat := (f - (s.stream k).origin) % max 1 (s.fld (lead k) Reg.HENC_GOP_INTRA_PERIOD)

/-- Whether a frame is an IRAP picture of a stream (R242). -/
def State.isIrap (s : State) (k f : Nat) : Bool := decide (s.intraPos k f = 0)

/-- Whether an IRAP picture is an IDR picture: by IRAP_TYPE, and always at a boundary (R242, R243). -/
def State.isIdr (s : State) (k f : Nat) : Bool :=
  s.isIrap k f && (!s.on (lead k) Reg.HENC_GOP_IRAP_TYPE
    || (decide (f = (s.stream k).origin) && decide (s.ctl.recStart = some f)))

/-- The type of a frame's picture: 0 I, 1 P, 2 B (R242, R243). -/
def State.picKind (s : State) (k f : Nat) : Nat :=
  if s.isIrap k f then 0
  else
    match s.fld (lead k) Reg.HENC_GOP_STRUCT with
    | 0 => 0
    | 1 => 1
    | _ =>
      match (s.stream k).base with
      | some b => if f = s.gopEnd k b then 1 else 2
      | none => 1

/-- The frame that a stream codes next. -/
def State.nextPic (s : State) (k : Nat) : Option Nat := (s.gopLeft k).head?

/-- The NAL unit type of a frame's picture: a B picture before the last IRAP picture in output order leads it (R242). -/
def State.picType (s : State) (k f : Nat) : Nat :=
  let h := s.stream k
  if s.isIrap k f then s.irapType k (s.isIdr k f)
  else if f < h.lastIrap then (if h.lastIrap = h.lastIdr then 7 else 9)
  else 1

/-- The nearest reference below a frame (R242, R243). -/
def HencSt.below (h : HencSt) (f : Nat) : Option RefPic :=
  (h.refs.filter fun r => decide (r.frame < f)).foldl
    (fun (a : Option RefPic) r => if a.any fun x => decide (r.frame ≤ x.frame) then a else some r) none

/-- The nearest reference above a frame (R242, R243). -/
def HencSt.above (h : HencSt) (f : Nat) : Option RefPic :=
  (h.refs.filter fun r => decide (f < r.frame)).foldl
    (fun (a : Option RefPic) r => if a.any fun x => decide (x.frame ≤ r.frame) then a else some r) none

/-- The pictures that a frame's picture refers to: the NUM_REF before it in coding order, or the nearest on the side or sides that its
type asks for; a dropped frame is none of them (R242, R243). -/
def State.refPics (s : State) (k f kind : Nat) : List RefPic :=
  let h := s.stream k
  if kind = 0 then []
  else if s.fld (lead k) Reg.HENC_GOP_STRUCT = 1 then h.refs.take (s.fld (lead k) Reg.HENC_GOP_NUM_REF)
  else (h.below f).toList ++ if kind = 2 then (h.above f).toList else []

/-- The references that stay after a picture begins: those of a B picture's mini-GOP, those it refers to itself, and for the leading
pictures of a CRA the nearest below (R242). DESIGN CHOICE (log 46). -/
def State.keptRefs (s : State) (k : Nat) (p : HencPic) : List RefPic :=
  let h := s.stream k
  let st := s.fld (lead k) Reg.HENC_GOP_STRUCT
  if p.kind = 2 then h.refs
  else if p.type = 21 ∧ st = 2 then (h.below p.frame).toList
  else s.refPics k p.frame p.kind

/-- The reference picture set of a slice header: POC differences, nearest first on either side (R242). -/
def State.refSet (s : State) (k : Nat) (p : HencPic) : List (Int × Bool) :=
  let used := (s.refPics k p.frame p.kind).map (·.frame)
  rpsSort ((s.keptRefs k p).map fun r => (r.poc - p.poc, used.contains r.frame))

/-! ### Iris (R252 to R256, R265) -/

/-- The rate-control mode of a stream (R252, R265). -/
def State.rcMode (s : State) (k : Nat) : Nat :=
  if s.on Pg.iris Reg.IRIS_CTRL_ENABLE then s.fld Pg.iris (Reg.IRIS_RC_CFG k) else 0

/-- A committed value of Iris for a frame. -/
def State.iris (s : State) (f : Nat) (r : Fld) : Nat := s.fval f Pg.iris r

/-- QP_FIX of a picture type (R265). -/
def State.qpFix (s : State) (k f kind : Nat) : Nat :=
  min 51 (s.iris f (if kind = 0 then Reg.IRIS_QP_FIX_QI k else if kind = 1 then Reg.IRIS_QP_FIX_QPP k else Reg.IRIS_QP_FIX_QB k))

/-- QP_MIN and QP_MAX of a stream (R265). -/
def State.qpLim (s : State) (k f : Nat) : Nat × Nat :=
  let lo := min 51 (s.iris f (Reg.IRIS_QP_LIM_QP_MIN k))
  (lo, max lo (min 51 (s.iris f (Reg.IRIS_QP_LIM_QP_MAX k))))

/-- A number held within limits. -/
def clampQp (l : Nat × Nat) (v : Int) : Nat := (max (l.1 : Int) (min l.2 v)).toNat

/-- BUF in kbit; 0 acts as 1. -/
def State.bufKbit (s : State) (k : Nat) : Nat := max 1 (s.fld Pg.iris (Reg.IRIS_BUF k))

/-- B: bits a frame (R253). -/
def State.frameBits (s : State) (k f : Nat) : Nat :=
  max 1 (s.iris f (Reg.IRIS_BITRATE k)) * 1000 * s.takeRate.2 / max 1 s.takeRate.1

/-- The pictures of each type in an intra period (R253). -/
def State.kindCounts (s : State) (k : Nat) : Nat × Nat × Nat :=
  let l := s.fld (lead k) Reg.HENC_GOP_INTRA_PERIOD
  match s.fld (lead k) Reg.HENC_GOP_STRUCT with
  | 0 => (l, 0, 0)
  | 1 => (1, l - 1, 0)
  | _ => (1, l / 4 - 1, 3 * (l / 4))

/-- The weight of a picture type; 0 acts as 1 (R253, R265). -/
def State.weight (s : State) (k f kind : Nat) : Nat :=
  max 1 (s.iris f (if kind = 0 then Reg.IRIS_WEIGHT_WI k else if kind = 1 then Reg.IRIS_WEIGHT_WP k else Reg.IRIS_WEIGHT_WB k))

/-- The target of a picture type in bits (R253). -/
def State.target (s : State) (k f kind : Nat) : Nat :=
  let n := s.kindCounts k
  let w := s.weight k f
  s.frameBits k f * s.fld (lead k) Reg.HENC_GOP_INTRA_PERIOD * w kind / max 1 (n.1 * w 0 + n.2.1 * w 1 + n.2.2 * w 2)

/-- Q of a picture type. -/
def IrisSt.q (i : IrisSt) (kind : Nat) : Nat := if kind = 0 then i.qi else if kind = 1 then i.qp else i.qb

/-- The state with Q of a picture type set. -/
def IrisSt.setQ (i : IrisSt) (kind v : Nat) : IrisSt :=
  if kind = 0 then { i with qi := v } else if kind = 1 then { i with qp := v } else { i with qb := v }

/-- The initial state of a stream at the settings of a frame (R254). -/
def State.irisInit (s : State) (k f : Nat) : IrisSt := ⟨s.qpFix k f 0, s.qpFix k f 1, s.qpFix k f 2, 0⟩

/-- The buffer term β of a deviation (R255). -/
def buffTerm (mode buf : Nat) (v : Int) : Int :=
  if mode = 1 then
    if 250 * (buf : Int) < v then 2 else if 125 * (buf : Int) < v then 1 else if v < -(125 * (buf : Int)) then -1 else 0
  else if mode = 2 then if 500 * (buf : Int) < v then 1 else if v < -(500 * (buf : Int)) then -1 else 0
  else 0

/-- The QP of the picture at a coding index (R252, R255). -/
def State.picQp (s : State) (k f kind index : Nat) : Nat :=
  let h := s.stream k
  let first := h.init.getD (s.irisInit k f)
  let st := if index < 2 then first else h.hist.getD 1 first
  let mode := s.rcMode k
  let q := if mode = 0 ∨ mode = 3 then s.qpFix k f kind else st.q kind
  clampQp (s.qpLim k f) ((q : Int) + buffTerm mode (s.bufKbit k) st.v)

/-- The thresholds of R254 that a size reaches, less four. -/
def rateStep (size target : Nat) : Int :=
  ([43, 48, 54, 60, 68, 76, 85, 96].countP fun b => decide (target * b ≤ 64 * size) : Nat) - 4

/-- The state after a picture of `size` bits (R254). -/
def State.irisNext (s : State) (k f kind size : Nat) (floored : Bool) (i : IrisSt) : IrisSt :=
  let mode := s.rcMode k
  if mode = 0 ∨ mode = 3 then i
  else
    let d := rateStep size (s.target k f kind)
    let d := if floored then max d 2 else d
    let v := i.v + size - s.frameBits k f
    let lim : Int := if mode = 1 then s.bufKbit k * 500 else s.bufKbit k * 1000
    { i.setQ kind (clampQp (s.qpLim k f) ((i.q kind : Int) + d)) with v := max (-lim) (min lim v) }

/-- QP_STATE and DEVIATION of a stream (R265). -/
def State.showIris (s : State) (k : Nat) (i : IrisSt) : State :=
  (((s.setFld Pg.iris (Reg.IRIS_QP_STATE_QI k) i.qi).setFld Pg.iris (Reg.IRIS_QP_STATE_QPP k) i.qp).setFld Pg.iris
    (Reg.IRIS_QP_STATE_QB k) i.qb).setFld Pg.iris (Reg.IRIS_DEVIATION k) (unsigned 32 (Int.tdiv i.v 1000))

/-! ### Coding a picture (R249, R251, R257) -/

/-- The address of an access unit buffer (R251). -/
def State.esAddr (s : State) (k j : Nat) : Nat :=
  4096 * s.fld (lead k) Reg.HENC_ES_BASE_LO + 2 ^ 32 * s.fld (lead k) Reg.HENC_ES_BASE_HI
    + j * (4096 * s.fld (lead k) Reg.HENC_ES_SIZE)

/-- COUNT of a stream's ring. -/
def State.esCount (s : State) (k : Nat) : Nat := s.fld (lead k) Reg.HENC_ES_CFG

/-- The frame whose access unit stands in the buffer that a stream's next picture would take. -/
def State.esHolder (s : State) (k : Nat) : Option Nat :=
  ((s.stream k).bufs.find? fun b => decide (b.1 = (s.stream k).index % s.esCount k)).map (·.2.1)

/-- The buffer of a frame's access unit. -/
def State.esOf (s : State) (k f : Nat) : Option (Nat × Nat × Bool) := (s.stream k).bufs.find? fun b => decide (b.2.1 = f)

/-- The Recorder releases the access unit of a frame. -/
def State.esRelease (s : State) (k f : Nat) : State :=
  s.putStream k { s.stream k with bufs := (s.stream k).bufs.filter fun b => decide (b.2.1 ≠ f) }

/-- A stream begins its next picture: type, QP and buffer are fixed, and it holds the rendition buffers of the mini-GOP from now on (R242,
R251, R255, R257). DESIGN CHOICE (log 46). -/
def State.picBegin (s : State) (k f : Nat) : State :=
  let h := s.stream k
  let kind := s.picKind k f
  let irap := s.isIrap k f
  let idr := if s.isIdr k f then f else h.lastIdr
  let p : HencPic := ⟨f, h.index, kind, irap, s.picType k f, (f : Int) - idr, s.picQp k f kind h.index, h.index % s.esCount k⟩
  let first := h.init.getD (s.irisInit k f)
  let h1 := { h with cur := some p, index := h.index + 1, lastIdr := idr, lastIrap := if irap then f else h.lastIrap,
                     init := some first, stalled := none, bufs := h.bufs ++ [(p.buf, f, false)] }
  let mine := fun (e : Reader × Nat × Nat) =>
    if e.1 = Reader.due k ∧ (s.gopLeft k).contains e.2.2 then (Reader.henc k, e.2) else e
  let s1 : State := { s with split := { s.split with holds := s.split.holds.map mine } }
  ((s1.putStream k h1).showIris k (h1.hist.headD first)).showHenc

/-- A picture waits for its buffer: STALLS counts it once and ES_STALL is raised (R251). -/
def State.picStall (s : State) (k f : Nat) : State :=
  let h := s.stream k
  if h.stalled = some f then s
  else ((s.putStream k { h with stalled := some f }).count (lead k) Reg.HENC_STALLS).raise (lead k) Reg.HENC_EVENT_ES_STALL

/-- Whether the lines that must be published before a CTB row of a frame is coded are: up to line min(64y + 67, H − 1) (R257). -/
def State.rowReady (s : State) (k f y : Nat) : Bool :=
  decide (min (64 * y + 68) (s.outH (s.rendOf k)) ≤ s.published (s.rendOf k) f)

/-- Whether the first CTB row of the next picture can be coded (R257). -/
def State.firstRow (s : State) (k : Nat) : Bool :=
  match s.nextPic k with
  | some f => s.rowReady k f 0
  | none => false

/-- A CTB as it is coded: by the core's own decisions at a QP, as a skipped 64 × 64 coding unit with a merge index, or as a 64 × 64 intra
coding unit in DC mode without coded blocks; the two at QP 51, with SAO off by merge from the left or off (R249). -/
inductive CtbCode where
  | own (qp : Nat)
  | skip (merge : Nat) (saoLeft : Bool)
  | dc (saoLeft : Bool)
  deriving DecidableEq, Repr

/-- The syntax of a floor CTB as numbers: its form, QP 51, and its elements. -/
def CtbCode.words : CtbCode → List Nat
  | .own qp => [0, qp]
  | .skip m l => [1, 51, m, if l then 1 else 0]
  | .dc l => [2, 51, if l then 1 else 0]

/-- What the coding of a unit follows: the picture's type, the unit's CTB columns and rows, its slice in bytes, the picture's CTBs, the
type's target in bits, the rate-control mode, the QP limits, the picture QP, and the bits of a CTB coded by the core's own decisions as a
function of the CTB, the QP and the bits before it (R248, R249, R256, R258). -/
structure UnitEnv where
  kind : Nat
  cols : Nat
  rows : Nat
  slice : Nat
  total : Nat
  target : Nat
  mode : Nat
  lim : Nat × Nat
  qp : Nat
  own : Nat → Nat → List Bool → List Bool

/-- The unit's QP from row `r` on, `b` bits written before it (R256). DESIGN CHOICE (log 46). -/
def UnitEnv.rowQp (e : UnitEnv) (qp b r : Nat) : Nat :=
  let n := e.cols * e.rows
  let above := if e.mode = 3 then decide (17 * (8 * e.slice * r) < 16 * b * e.rows)
    else decide (17 * (e.target * n * r) < 16 * b * (e.total * e.rows))
  let below := decide (e.mode ≠ 3) && decide (8 * b * (e.total * e.rows) < 7 * (e.target * n * r))
  let v : Int := if above then qp + 1 else if below then (qp : Int) - 1 else qp
  if e.mode = 0 then qp else clampQp e.lim (max ((e.qp : Int) - 3) (min (e.qp + 3) v))

/-- A unit in work: the CTBs coded, the bits written, its QP, and whether it is in floor mode. -/
structure UnitRun where
  codes : List CtbCode := []
  bits : List Bool := []
  qp : Nat := 0
  floor : Bool := false

/-- CTB `j` of a unit coded: the QP follows at the first CTB of a row, and the floor begins where the slice would not hold the CTB and the
floor of those after it (R249, R256). -/
def UnitEnv.step (e : UnitEnv) (r : UnitRun) (j : Nat) : UnitRun :=
  let n := e.cols * e.rows
  let qp := if j % e.cols = 0 ∧ j ≠ 0 then e.rowQp r.qp r.bits.length (j / e.cols) else r.qp
  let own := e.own j qp r.bits
  let fits := !r.floor && decide (r.bits.length + own.length + 24 * (n - 1 - j) + 16 ≤ 8 * e.slice)
  if fits then { r with codes := r.codes ++ [.own qp], bits := r.bits ++ own, qp := qp }
  else
    let left := decide (j % e.cols ≠ 0)
    let c := if e.kind = 0 then CtbCode.dc left else CtbCode.skip 0 left
    { codes := r.codes ++ [c], bits := r.bits ++ (Config.floorBits c.words r.bits).take 24, qp := qp, floor := true }

/-- A unit coded from its first CTB to its last (R249, R256). -/
def UnitEnv.run (e : UnitEnv) : UnitRun := (List.range (e.cols * e.rows)).foldl e.step { qp := e.qp }

/-- The bytes of a coded unit, its terminating bits and alignment included (R248, R249). -/
def UnitRun.bytes (r : UnitRun) : List Byte := bitBytes (r.bits ++ (Config.endBits r.bits).take 16)

/-- The coding of unit `u` of a stream's picture (R248, R249, R256, R258). DESIGN CHOICE (log 46). -/
def State.unitEnv (s : State) (k : Nat) (p : HencPic) (u : (Nat × Nat × Nat × Nat) × Nat) : UnitEnv :=
  let n := s.rendOf k
  let cfg := (s.streamSet k).sps ++ (s.streamSet k).pps
  let source := s.peekN (s.bufAddr n p.frame) (s.rendBytes n)
  let refs := (s.refPics k p.frame p.kind).map (·.samples)
  let c := s.ctbs k
  { kind := p.kind, cols := u.1.2.1, rows := u.1.2.2.2, slice := s.unitSlice k (s.overhead k p) u.1, total := c.1 * c.2
    target := s.target k p.frame p.kind, mode := s.rcMode k, lim := s.qpLim k p.frame, qp := p.qp
    own := fun j qp before =>
      Config.ctbBits ((cfg.map (·.toNat)) ++ [p.kind, p.type, unsigned 32 p.poc]) source refs [u.2, j, qp] before }

/-- The units of a picture as they are coded. -/
def State.coded (s : State) (k : Nat) (p : HencPic) : List UnitRun := (s.units k).zipIdx.map fun u => (s.unitEnv k p u).run

/-- The slice NAL unit of a coded picture (R240). -/
def State.sliceNal (s : State) (k : Nat) (p : HencPic) (us : List UnitRun) : List Byte :=
  let data := us.map UnitRun.bytes
  (s.streamSet k).sliceHead ⟨p.type, p.kind, p.poc, p.qp, s.refSet k p, data.map (·.length)⟩ ++ data.flatten

/-- The reconstructed picture that later pictures of the stream refer to (R242, R258). DESIGN CHOICE (log 46). -/
def State.reconstruct (s : State) (k : Nat) (p : HencPic) (slice : List Byte) : RefPic :=
  let q := s.streamSet k
  ⟨p.frame, p.poc, Config.hevcSamples [q.sps, q.pps] [slice] ((s.refPics k p.frame p.kind).map (·.samples))⟩

/-- The header of an HEVC frame record (R251). -/
def State.hevcHeader (s : State) (k : Nat) (p : HencPic) (au : List Byte) (overhead floors : Nat) : List Byte :=
  let body := leBytes 4 0x45485A4B ++ leBytes 2 1 ++ leBytes 1 k ++ leBytes 1 (s.rendOf k) ++ leBytes 8 p.frame
    ++ leBytes 4 (unsigned 32 p.poc) ++ leBytes 1 p.kind ++ leBytes 1 ((if floors = 0 then 0 else 1) + if p.irap then 2 else 0)
    ++ leBytes 1 p.qp ++ [0] ++ leBytes 4 au.length ++ leBytes 4 (s.fld (lead k) Reg.HENC_ES_CAP) ++ leBytes 4 overhead
    ++ leBytes 2 (s.units k).length ++ leBytes 2 floors ++ leBytes 4 (crc32c au) ++ zeros 16
  body ++ leBytes 4 (crc32c body)

/-- The picture in work of a stream is complete: the access unit and its header are in DRAM, LAST_FRAME shows it, Iris updates its state,
the picture joins the references and the rendition buffer is released (R248, R249, R251, R254, R257). An access unit that no recording
covers is released at once (R244). DESIGN CHOICE (log 46). -/
def State.picDone (s : State) (k : Nat) : State :=
  match (s.stream k).cur with
  | none => s
  | some p =>
    let n := s.rendOf k
    if (List.range (s.ctbs k).2).any fun y => !s.rowReady k p.frame y then s
    else
      let us := s.coded k p
      let floors := us.countP (·.floor)
      let slice := s.sliceNal k p us
      let au := (s.auHead k p ++ slice).take (s.fld (lead k) Reg.HENC_ES_CAP)
      let s1 := s.pokeN (s.esAddr k p.buf) (s.hevcHeader k p au (s.overhead k p) floors ++ au)
      let pg := lead k
      let s2 := ((s1.setFld64 pg Reg.HENC_LAST_FRAME_LO Reg.HENC_LAST_FRAME_HI p.frame).setFld pg Reg.HENC_LAST_BYTES au.length).countBy
        pg Reg.HENC_FLOOR_UNITS floors
      let s3 := (s2.raiseIf (decide (floors ≠ 0)) pg Reg.HENC_EVENT_FLOOR).raiseIf (decide (floors ≠ 0)) Pg.iris Reg.IRIS_EVENT_FLOOR
      let h := s3.stream k
      let prev := h.hist.headD (h.init.getD default)
      let st := s3.irisNext k p.frame p.kind (8 * au.length) (decide (floors ≠ 0)) prev
      let bufs := if s.recorded p.frame then h.bufs.map fun b => if b.1 = p.buf then (b.1, b.2.1, true) else b
        else h.bufs.filter fun b => decide (b.1 ≠ p.buf)
      let refs := s.reconstruct k p slice :: s.keptRefs k p
      let s4 := s3.putStream k { h with
        cur := none, coded := p.frame :: h.coded, hist := (st :: h.hist).take 2, bufs := bufs, refs := refs }
      (((s4.freeBuf (.henc k) n p.frame).advanceGops k 64).showIris k st).showHenc

/-- HENC_PICTURE_DONE (R257). -/
def execHencPictureDone (stream : Nat) (s : State) : Host.Outcome State Fault Refusal := .next (s.picDone stream)

/-! ### Core faults (R259) -/

/-- An HEVC core detects a parity fault: its FAULT bit is set; its units in work are coded again with the same result (R259). -/
def State.hencFault (s : State) (c : Nat) : State :=
  if 8 ≤ c then s
  else
    let s1 := match s.servedBy c with
      | some k => s.putStream k { s.stream k with faulted := true }
      | none => s
    (((s1.setFld (Pg.henc c) Reg.HENC_STATE_FAULT 1).setFld (Pg.henc c) Reg.HENC_STATE_PHASE 3).raise (Pg.henc c)
      Reg.HENC_EVENT_CORE_FAULT)

/-- HENC_CORE_FAULT (R259). -/
def execHencCoreFault (core : Nat) (s : State) : Host.Outcome State Fault Refusal := .next (s.hencFault core)

/-- The lowest-numbered spare that no stream has adopted. -/
def State.freeSpare (s : State) : Option Nat :=
  (List.range 8).find? fun c =>
    decide (s.fld (Pg.henc c) Reg.HENC_CFG_ROLE = 3) && s.on (Pg.henc c) Reg.HENC_CTRL_ENABLE
      && !s.on (Pg.henc c) Reg.HENC_STATE_FAULT && !(s.streams.any fun k => (s.stream k).adopted.contains c)

/-- At a frame start a stream that lost a core takes a spare, or spreads its units over the cores that remain (R235, R259). -/
def State.adopt (s : State) : State :=
  let s1 := s.streams.foldl
    (fun (s : State) k =>
      let h := s.stream k
      if h.faulted then
        let spare := match s.freeSpare with | some c => [c] | none => []
        (s.putStream k { h with faulted := false, adopted := h.adopted ++ spare }).raise (lead k) Reg.HENC_EVENT_REASSIGN
      else s) s
  if s.streams.any fun k => (s.stream k).faulted then s1.showHenc else s1

/-! ### Take START -/

/-- What the streams compute and clear at a take START (R251, R254, R264, R265). -/
def State.hencStart (s : State) : State :=
  let s1 := (List.range 8).foldl
    (fun (s : State) k =>
      let p := lead k
      let s1 := [Reg.HENC_FLOOR_UNITS, Reg.HENC_STALLS].foldl (fun s f => s.setFld p f 0) s
      let s2 := s1.showIris k {}
      if s.streamOn k then s2.setFld p Reg.HENC_ES_SIZE (ceilDiv (64 + s.fld p Reg.HENC_ES_CAP) 4096) else s2) s
  let drop := fun (h : Reader × Nat × Nat) => match h.1 with | .henc _ | .due _ => false | _ => true
  ({ s1 with henc := [], split := { s1.split with holds := s1.split.holds.filter drop } } : State).showHenc

end Sys2Proof.Machine
end

