-- ==== Sys2Proof/Machine/Decoders.lean ====
section
/-! DEFINITION. The raw decoder and the HEVC decoders of REVIEW (R60, R229, R230, R233, R261 to R263, R266). What an HEVC access unit
decodes to follows ITU-T H.265, which the manual does not restate: parameter sets and slice headers are read here; the samples and the syntax
errors of slice data are free functions of the record's bytes and the references. -/

namespace Sys2Proof.Machine

/-! ### The raw decoder -/

/-- The raster that the raw decoder expects (R229, R233). -/
def State.drdecShape (s : State) : RawShape :=
  ⟨s.fld Pg.drdec Reg.DRDEC_OUT_SIZE_W, s.fld Pg.drdec Reg.DRDEC_OUT_SIZE_H, s.fld Pg.drdec Reg.DRDEC_OUT_CFG_DEPTH, s.cfa⟩

/-- The address of an input buffer. -/
def State.drdecIn (s : State) (j : Nat) : Nat :=
  4096 * s.fld Pg.drdec Reg.DRDEC_IN_BASE_LO + 2 ^ 32 * s.fld Pg.drdec Reg.DRDEC_IN_BASE_HI
    + j * (4096 * s.fld Pg.drdec Reg.DRDEC_IN_CFG_PAGES)

/-- The bytes of the record in an input buffer: as many as its header gives, within the buffer. -/
def State.drdecRecord (s : State) (j : Nat) : List Byte :=
  let a := s.drdecIn j
  s.peekN a (min (4096 * s.fld Pg.drdec Reg.DRDEC_IN_CFG_PAGES) (max 128 (s.peekLe (a + 0x10) 4)))

/-- The output slot that the next frame goes to. -/
def State.drdecSlot (s : State) : Nat := s.drdec.outCount % s.fld Pg.drdec Reg.DRDEC_OUT_CFG_SLOTS

/-- The address of an output slot (R130). -/
def State.drdecOut (s : State) (j : Nat) : Nat :=
  let r := s.drdecShape
  s.fld Pg.drdec Reg.DRDEC_OUT_BASE_LO * 2 ^ 21 + s.fld Pg.drdec Reg.DRDEC_OUT_BASE_HI * 2 ^ 32
    + j * (slotPages r.h (lineStride r.w r.ds) * 4096)

/-- Whether the next output slot waits for Prism or is being read. -/
def State.drdecFull (s : State) : Bool :=
  let j := s.drdecSlot
  s.drdec.ready.any (fun e => decide (e.2 = j)) ||
    match s.ingress.reading with
    | some r => r.review && decide (r.addr = s.drdecOut j)
    | none => false

/-- The raw decoder begins its next record: FRAME_NOW takes the record's frame, which is the commit point of REVIEW (R60). A record that
is rejected repeats the previous frame (R229). -/
def State.drdecBegin (s : State) : State :=
  let d := Pg.drdec
  let cons := s.fld d Reg.DRDEC_IN_CONS
  if s.ctl.mode ≠ .review ∨ s.on d Reg.DRDEC_CTRL_ENABLE = false ∨ s.drdec.cur.isSome ∨ s.fld d Reg.DRDEC_IN_PROD = cons
      ∨ s.drdecFull then s
  else
    let b := s.drdecRecord cons
    let ok := recordOk s.drdecShape b
    let f := if ok then leAt b 8 8 else s.frameNow
    let w : DrDecSt := { s.drdec with cur := some (f, ok) }
    let s1 : State := { s with drdec := w }
    if ok then (s1.setFrameNow f).frameValues f else s1

/-- The effect of a write of DRDEC.IN_PROD (R229, R233). -/
def writeDrdecInProd (r : Req) (v : Word) (s : State) : State :=
  withWrite r Pg.drdec 0x04C v s fun s old new => (plainStore r Pg.drdec 0x04C s old new).drdecBegin

/-- DRDEC_IN_PROD (R229). -/
def execDrdecInProd (r : Req) (v : Word) (s : State) : Host.Outcome State Fault Refusal := .next (writeDrdecInProd r v s)

/-- SHARED_READ_LINE (R14). In REVIEW an output slot that Prism has read to its end is free for the decoder (R60). -/
def execSharedReadLine (s : State) : Host.Outcome State Fault Refusal := .next s.sharedLine.drdecBegin

/-- The next index of a ring. -/
def ringNext (i count : Nat) : Nat := if count ≤ i + 1 then 0 else i + 1

/-- The tiles of a record decoded; none for a tile that fails (R230). -/
def decodeRecord (r : RawShape) (b : List Byte) : List (Option Recon) :=
  let sizes := (List.range r.tiles).map fun t => leAt b (0x80 + 16 * t) 4
  (List.range r.tiles).map fun t =>
    decodeTile r (decide (leAt b 0x1B 1 = 1)) t (slice b (0x80 + 16 * t) 16)
      (slice b (r.dataStart + (sizes.take t).sum) (sizes.getD t 0))

/-- A sample of decoded tiles, with a failed tile concealed from the previous frame or by mid-grey (R207, R230). -/
def decodedAt (r : RawShape) (tiles : List (Option Recon)) (last : Option (List (List Nat))) (x y : Nat) : Nat :=
  let p := if r.cfa then 2 * (y % 2) + x % 2 else 0
  let i := if r.cfa then x / 2 else x
  let j := if r.cfa then y / 2 else y
  let t := (p * r.ty + j / 512) * r.tx + i / 512
  match tiles.getD t none with
  | some m => m.at (i % 512) (j % 512)
  | none => match last with | some l => at2 l x y | none => 2 ^ (r.ds - 1)

/-- A record decoded into its output slot: failed tiles are concealed and counted, and Prism may read the frame (R60, R229, R230). -/
def State.drdecDone (s : State) : State :=
  let d := Pg.drdec
  match s.drdec.cur with
  | none => s
  | some (f, ok) =>
    if s.ctl.mode ≠ .review then s
    else
      let r := s.drdecShape
      let cons := s.fld d Reg.DRDEC_IN_CONS
      let tiles := if ok then decodeRecord r (s.drdecRecord cons) else []
      let bad := tiles.countP (·.isNone)
      let pic :=
        if ok then (List.range r.h).map fun y => (List.range r.w).map fun x => decodedAt r tiles s.drdec.last x y
        else s.drdec.last.getD (List.replicate r.h (List.replicate r.w 0))
      let j := s.drdecSlot
      let a := s.drdecOut j
      let stride := lineStride r.w r.ds
      let s1 := pic.zipIdx.foldl (fun (s : State) e => s.pokeN (a + 8192 + e.2 * stride) (padTo stride (packBits r.ds e.1))) s
      let s2 := match s.drdec.records.find? fun e => decide (e.1 = f) with
        | some e => s1.pokeN a e.2
        | none => s1
      let s3 := ((s2.countBy d Reg.DRDEC_TILE_ERRORS bad).raiseIf (decide (0 < bad)) d Reg.DRDEC_EVENT_TILE_ERR).raiseIf (!ok) d
        Reg.DRDEC_EVENT_REC_ERR
      let s4 := (s3.setFld64 d Reg.DRDEC_LAST_FRAME_LO Reg.DRDEC_LAST_FRAME_HI f).setFld d Reg.DRDEC_IN_CONS
        (ringNext cons (s.fld d Reg.DRDEC_IN_CFG_COUNT))
      let s5 := s4.raise d Reg.DRDEC_EVENT_FRAME_DONE
      let recs := s5.drdec.records.filter fun e => decide (e.1 ≠ f)
      let ready := if s.reviewRaw then s5.drdec.ready ++ [(f, j)] else s5.drdec.ready
      let w : DrDecSt := ⟨s5.drdec.outCount + 1, some pic, none, recs, ready⟩
      ({ s5 with drdec := w } : State).drdecBegin

/-- DRDEC_FRAME_DONE (R229). -/
def execDrdecFrameDone (s : State) : Host.Outcome State Fault Refusal := .next s.drdecDone

/-! ### The HEVC decoders -/

/-- The state of a decoder. -/
def State.dec (s : State) (n : Nat) : HdecSt := s.hdec.get n

/-- The state with a decoder set. -/
def State.putDec (s : State) (n : Nat) (h : HdecSt) : State := { s with hdec := s.hdec.put n h }

/-- The line stride of plane 0 of a decoded picture (R177). -/
def DecPic.stride0 (p : DecPic) : Nat := ceilDiv (p.w * p.depth) 512 * 64

/-- The sample pairs of a line of plane 1. -/
def DecPic.chromaW (p : DecPic) : Nat := if p.chroma = 0 then p.w else p.w / 2

/-- The line stride of plane 1. -/
def DecPic.stride1 (p : DecPic) : Nat := ceilDiv (2 * p.chromaW * p.depth) 512 * 64

/-- The lines of plane 1. -/
def DecPic.chromaLines (p : DecPic) : Nat := if p.chroma = 2 then p.h / 2 else p.h

/-- The bytes of a decoded picture. -/
def DecPic.bytes (p : DecPic) : Nat := p.h * p.stride0 + p.chromaLines * p.stride1

/-- The bytes of an output buffer: OUT_MAX at 10 bits and 4:2:2, in whole pages (R266). -/
def State.decBufBytes (s : State) (n : Nat) : Nat :=
  let p : DecPic := { w := s.fld (Pg.hdec n) Reg.HDEC_OUT_MAX_W, h := s.fld (Pg.hdec n) Reg.HDEC_OUT_MAX_H, depth := 10, chroma := 1 }
  roundUp p.bytes 4096

/-- The address of an output buffer. -/
def State.decOut (s : State) (n j : Nat) : Nat :=
  4096 * s.fld (Pg.hdec n) Reg.HDEC_OUT_BASE_LO + 2 ^ 32 * s.fld (Pg.hdec n) Reg.HDEC_OUT_BASE_HI + j * s.decBufBytes n

/-! ### Decoded pictures (R261, R263) -/

/-- The width and height of a plane of a decoded picture: 0 luma, 1 and 2 chroma. -/
def DecPic.planeSize (p : DecPic) (c : Nat) : Nat × Nat :=
  if c = 0 then (p.cw, p.ch) else (p.cw / 2, if p.chroma = 2 then p.ch / 2 else p.ch)

/-- The mid-grey value of a depth (R263). -/
def midGrey (depth : Nat) : Nat := 2 ^ (depth - 1)

/-- A sample of a plane; mid-grey outside it. -/
def DecPic.sample (p : DecPic) (c x y : Nat) : Nat :=
  if x < (p.planeSize c).1 then ((p.planes.getD c []).getD (y * (p.planeSize c).1 + x) (midGrey p.depth)) else midGrey p.depth

/-- The places of a plane in raster order. -/
def DecPic.places (p : DecPic) (c : Nat) : List (Nat × Nat) :=
  (List.range (p.planeSize c).2).flatMap fun y => (List.range (p.planeSize c).1).map fun x => (x, y)

/-- The index of the CTB that a sample of a plane lies in, CTBs of 2^`log` luma samples. -/
def DecPic.ctbOf (p : DecPic) (log c x y : Nat) : Nat :=
  let sx := if c = 0 then x else 2 * x
  let sy := if c = 0 ∨ p.chroma ≠ 2 then y else 2 * y
  sy / 2 ^ log * ceilDiv p.cw (2 ^ log) + sx / 2 ^ log

/-- The line of a plane inside the conformance window, as sample values (R177, R261). -/
def DecPic.line (p : DecPic) (c y : Nat) : List Nat :=
  let x0 := if c = 0 then p.x else p.x / 2
  let y0 := if c = 0 ∨ p.chroma ≠ 2 then p.y else p.y / 2
  (List.range (if c = 0 then p.w else p.chromaW)).map fun x => p.sample c (x0 + x) (y0 + y)

/-- A picture output into the next output buffer in the layout of R177 (R261, R263). From an IRAP picture decoded after the last generated
reference on, pictures no longer carry REF_GEN. -/
def State.decOutput (s : State) (n : Nat) (p : DecPic) : State :=
  let g := Pg.hdec n
  let h := s.dec n
  let j := h.outCount % max 1 (s.fld g Reg.HDEC_OUT_CFG)
  let a := s.decOut n j
  let gen := match h.refGen with | some i => if p.irap ∧ i < p.index then none else some i | none => none
  let flags := p.flags + if gen.isSome then 2 else 0
  let luma := (List.range p.h).map fun y => (a + y * p.stride0, padTo p.stride0 (packBits p.depth (p.line 0 y)))
  let chroma := (List.range p.chromaLines).map fun y =>
    (a + p.h * p.stride0 + y * p.stride1, padTo p.stride1 (packBits p.depth (interleave (p.line 1 y) (p.line 2 y))))
  let s1 := (luma ++ chroma).foldl (fun (s : State) e => s.pokeN e.1 e.2) s
  let s2 := s1.putDec n { h with outCount := h.outCount + 1, slots := h.slots.put j { p with planes := [], flags := flags }, refGen := gen }
  ((s2.setFld64 g Reg.HDEC_LAST_FRAME_LO Reg.HDEC_LAST_FRAME_HI p.frame).setFld g Reg.HDEC_LAST_FLAGS flags).raise g
    Reg.HDEC_EVENT_FRAME_DONE

/-- The picture that is output next: of those that wait, the one with the lowest PicOrderCntVal. -/
def firstOut (l : List DecPic) : Option DecPic :=
  (l.filter (·.wait)).foldl (fun (a : Option DecPic) p => if a.any fun x => decide (x.poc ≤ p.poc) then a else some p) none

/-- The decoded picture buffer without pictures that are neither held as references nor wait for output. -/
def cleanDpb (l : List DecPic) : List DecPic := l.filter fun p => p.ref || p.wait

/-- Pictures output in order while `more` asks for it (H.265, C.5.2). -/
def State.bump (s : State) (n : Nat) (more : List DecPic → Bool) : Nat → State
  | 0 => s
  | m + 1 =>
    let h := s.dec n
    match firstOut h.dpb with
    | some p =>
      if more h.dpb then
        let rest := h.dpb.map fun q => if q.index = p.index then { q with wait := false } else q
        ((s.putDec n { h with dpb := cleanDpb rest }).decOutput n p).bump n more m
      else s
    | none => s

/-- Whether more pictures wait than an SPS lets be reordered, or one waits for longer than its latency (H.265, C.5.2). -/
def overdue (q : SpsSet) (l : List DecPic) : Bool :=
  decide (q.reorder < l.countP (·.wait))
    || (decide (q.latency ≠ 0) && l.any fun p => p.wait && decide (q.reorder + q.latency - 1 ≤ p.age))

/-! ### Parameter sets and slice headers (R261, R262) -/

/-- A parameter set read from a NAL unit; none at a syntax error. -/
def readNal {α : Type} (r : Rd α) (u : List Byte) : Option α := (r (nalBits u)).map (·.1)

/-- Whether the decoder accepts an SPS: its profile and level, a size within OUT_MAX after the conformance window, and a picture buffer of
at most 6 (R261, R266). PRESUMED (log 47). -/
def State.spsFits (s : State) (n : Nat) (q : SpsSet) : Bool :=
  let g := Pg.hdec n
  let w := q.w - q.window.1 - q.window.2.1
  let h := q.h - q.window.2.2.1 - q.window.2.2.2
  q.fits && decide (w ≤ min 8192 (s.fld g Reg.HDEC_OUT_MAX_W)) && decide (h ≤ min 4320 (s.fld g Reg.HDEC_OUT_MAX_H))
    && decide (q.dpb ≤ 6)

/-- The parameter sets of an access unit kept by their numbers; those with a syntax error are abandoned (R263). -/
def HdecSt.keepSets (h : HdecSt) (us : List (List Byte)) : HdecSt :=
  us.foldl
    (fun (h : HdecSt) u =>
      if nalType u = 33 then (match readNal rdSps u with | some q => { h with sps := h.sps.put q.1 u } | none => h)
      else if nalType u = 34 then (match readNal rdPps u with | some q => { h with pps := h.pps.put q.id u } | none => h)
      else h) h

/-- Whether a NAL unit of an access unit is a parameter set with a syntax error (R263). -/
def badSet (u : List Byte) : Bool :=
  (decide (nalType u = 33) && (readNal rdSps u).isNone) || (decide (nalType u = 34) && (readNal rdPps u).isNone)

/-- The parameter sets and the header of a slice: the SPS and its NAL unit, the PPS's NAL unit, and the header, none where it has a syntax
error. -/
def HdecSt.slice (h : HdecSt) (u : List Byte) : Option (SpsSet × List Byte × List Byte × Option HeadSet) :=
  match readNal (rdHeadStart (nalType u)) u with
  | none => none
  | some st =>
    let pu := h.pps.get st.2.2
    match readNal rdPps pu with
    | none => none
    | some p =>
      let su := h.sps.get p.sps
      match readNal rdSps su with
      | none => none
      | some q => some (q.2, su, pu, readNal (rdHead q.2 p (nalType u)) u)

/-! ### Decoding an access unit (R261 to R263) -/

/-- The PicOrderCntVal of low bits after the previous one (H.265, 8.3.1). -/
def pocAfter (prev : Int) (bits lsb : Nat) : Int :=
  let m : Int := 2 ^ bits
  let low := prev % m
  let high := prev - low
  if (lsb : Int) < low ∧ m / 2 ≤ low - lsb then high + m + lsb
  else if low < lsb ∧ m / 2 < (lsb : Int) - low then high - m + lsb
  else high + lsb

/-- Whether a picture of the buffer is the one that a reference picture set names: by its PicOrderCntVal, or by the low bits alone where
`mask` is not 0. -/
def namesPic (poc : Int) (mask : Nat) (p : DecPic) : Bool := p.ref && (if mask = 0 then decide (p.poc = poc) else decide (p.poc % mask = poc))

/-- The pictures that a reference picture set names, as (PicOrderCntVal or its low bits, modulus of the low bits or 0, used). -/
def HeadSet.named (d : HeadSet) (bits : Nat) (poc : Int) : List (Int × Nat × Bool) :=
  let m : Nat := 2 ^ bits
  (d.rps.map fun (e : Int × Bool) => (poc + e.1, 0, e.2)) ++ d.longs.map fun (e : Nat × Bool × Option Nat) =>
    match e.2.2 with
    | some c => (poc - (c * m : Nat) - poc % m + e.1, 0, e.2.1)
    | none => ((e.1 : Int), m, e.2.1)

/-- The samples of a picture: those decoded, and for a CTB that no slice decoded the co-located ones of the previous picture in decoding
order, or mid-grey (R263). PRESUMED (log 47). -/
def concealed (p : DecPic) (log : Nat) (ok : Nat → Bool) (data : List Nat) (prev : Option DecPic) : List (List Nat) :=
  let first := fun (c : Nat) => ((List.range c).map fun i => (p.planeSize i).1 * (p.planeSize i).2).sum
  (List.range 3).map fun c =>
    (p.places c).map fun e =>
      if ok (p.ctbOf log c e.1 e.2) then data.getD (first c + e.2 * (p.planeSize c).1 + e.1) 0 % 2 ^ p.depth
      else match prev with | some q => q.sample c e.1 e.2 | none => midGrey p.depth

/-- A picture of an SPS's format without samples. -/
def SpsSet.pic (q : SpsSet) (frame index : Nat) (poc : Int) : DecPic :=
  let w := q.window
  { frame := frame, index := index, poc := poc, cw := q.w, ch := q.h, x := w.1, y := w.2.2.1, w := q.w - w.1 - w.2.1
    h := q.h - w.2.2.1 - w.2.2.2, depth := q.depthY, chroma := if q.chroma = 1 then 2 else 1, transfer := q.transfer, matrix := q.matrix }

/-- A picture with every sample mid-grey, as a missing reference is generated (R263). -/
def DecPic.grey (p : DecPic) : DecPic :=
  { p with planes := (List.range 3).map fun c => List.replicate ((p.planeSize c).1 * (p.planeSize c).2) (midGrey p.depth) }

/-- The CTBs of a picture. -/
def SpsSet.ctbs (q : SpsSet) : Nat := ceilDiv q.w (2 ^ q.ctb) * ceilDiv q.h (2 ^ q.ctb)

/-- What a slice's picture is decoded with: the SPS, the NAL units of its parameter sets and of its slices, the type of the first, its header,
and the record's frame and whether its CRC differs. -/
structure AuSet where
  sps : SpsSet
  sets : List (List Byte)
  slices : List (List Byte)
  type : Nat
  head : HeadSet
  frame : Nat
  crcBad : Bool

/-- The decoding of a picture: its place in order, the reference picture set with generated pictures for those missing, the output of
pictures before it, its samples with concealment, and the output that follows (R261, R263). PRESUMED (log 47). -/
def State.decodePic (s : State) (n : Nat) (a : AuSet) : State :=
  let g := Pg.hdec n
  let h := s.dec n
  let q := a.sps
  let irap := isIrapType a.type
  let restart := irap && (decide (a.type ≤ 20) || h.broken || decide (h.count = 0))
  let poc := if restart then (a.head.lsb : Int) else pocAfter h.prevPoc q.poc a.head.lsb
  let named := a.head.named q.poc poc
  let held := fun (p : DecPic) => !restart && named.any fun e => namesPic e.1 e.2.1 p
  let known := if restart then [] else h.dpb
  let missing := named.filter fun e => !known.any (namesPic e.1 e.2.1)
  let made := missing.map fun e => { (q.pic a.frame h.count e.1).grey with ref := true }
  let old := h.dpb.map fun p => { p with ref := p.ref && held p }
  let kept := if restart ∧ a.head.noPrior ∧ h.count ≠ 0 then old.map fun p => { p with wait := false } else old
  let gen := if missing.isEmpty then h.refGen else some h.count
  let s1 := (s.countBy g Reg.HDEC_REF_GENERATED missing.length).raiseIf (!missing.isEmpty) g Reg.HDEC_EVENT_REF_GEN
  let s2 := s1.putDec n { h with dpb := cleanDpb kept, refGen := gen }
  let full := fun (l : List DecPic) => overdue q l || decide (q.dpb ≤ l.length)
  let s3 := if restart then s2.bump n (fun _ => true) 64 else s2.bump n full 64
  let h3 := s3.dec n
  let refs := (named.filter (·.2.2)).filterMap fun e => (made ++ h3.dpb).find? (namesPic e.1 e.2.1)
  let input := refs.map fun p => p.planes.flatten
  let ok := Config.hevcCtb a.sets a.slices input
  let lost := (List.range q.ctbs).countP fun i => !ok i
  let p0 := q.pic a.frame h.count poc
  let planes := concealed p0 q.ctb ok (Config.hevcSamples a.sets a.slices input) h.prev
  let p : DecPic := { p0 with
    irap := irap, flags := (if lost = 0 then 0 else 1) + if a.crcBad then 4 else 0, ref := true, wait := a.head.output, planes := planes }
  let bad := Config.hevcError a.sets a.slices input
  let s4 := (s3.countBy g Reg.HDEC_CONCEALED_CTBS lost).raiseIf bad g Reg.HDEC_EVENT_SYNTAX_ERR
  let aged := (made ++ h3.dpb).map fun x => if x.wait ∧ a.head.output then { x with age := x.age + 1 } else x
  let anchor := decide (nalLevel (a.slices.headD []) = 0) && !(decide (a.type ≤ 14) && decide (a.type % 2 = 0))
    && !(decide (6 ≤ a.type) && decide (a.type ≤ 9))
  let s5 := s4.putDec n { h3 with
    dpb := p :: aged, count := h.count + 1, prevPoc := if anchor then poc else h.prevPoc, prev := some p
    noRasl := if irap then restart else h.noRasl, broken := bad || (h.broken && !irap) }
  s5.bump n (overdue q) 64

/-- An access unit is discarded and counts as a lost picture (R262). -/
def State.discardAu (s : State) (n : Nat) : State :=
  s.putDec n { s.dec n with skipping := true, broken := true, lost := (s.dec n).lost + 1 }

/-- A picture whose slices cannot be read: every CTB is concealed, and it is output in its place (R263). PRESUMED (log 47). -/
def State.concealPic (s : State) (n frame : Nat) (crcBad : Bool) : State :=
  let g := Pg.hdec n
  let h := s.dec n
  let s1 := s.raise g Reg.HDEC_EVENT_SYNTAX_ERR
  match h.prev with
  | none => s1.putDec n { h with broken := true }
  | some q =>
    let flags := 1 + if crcBad then 4 else 0
    let p : DecPic := { q with frame := frame, index := h.count, irap := false, poc := h.prevPoc + (Config.free 85 frame : Nat)
                               flags := flags, ref := false, wait := true, age := 0 }
    let ctbs := ceilDiv q.cw 64 * ceilDiv q.ch 64
    let s2 := s1.countBy g Reg.HDEC_CONCEALED_CTBS ctbs
    (s2.putDec n { h with dpb := p :: h.dpb, count := h.count + 1, broken := true, prev := some p }).bump n
      (fun l => decide (6 ≤ l.length)) 64

/-- An access unit decoded: parameter sets are kept, an SPS that breaks R261 has it and those up to the next accepted IRAP discarded, RASL
pictures without their references are skipped, and every other picture is decoded (R261 to R263). PRESUMED (log 47). -/
def State.decodeAu (s : State) (n : Nat) (frame : Nat) (au : List Byte) (crcBad : Bool) : State :=
  let g := Pg.hdec n
  let us := splitNals au
  let h := (s.dec n).keepSets us
  let s1 := (s.putDec n h).raiseIf (us.any badSet) g Reg.HDEC_EVENT_SYNTAX_ERR
  let slices := us.filter fun u => isSlice (nalType u)
  let fresh := us.any fun u => decide (nalType u = 33) && (match readNal rdSps u with | some q => !s.spsFits n q.2 | none => false)
  match slices with
  | [] => if fresh then (s1.discardAu n).raise g Reg.HDEC_EVENT_UNSUPPORTED else s1
  | u :: _ =>
    let t := nalType u
    let skip := h.skipping && !isIrapType t
    match h.slice u with
    | none => if skip || decide (h.count = 0) then s1.discardAu n else s1.concealPic n frame crcBad
    | some (q, su, pu, head) =>
      if fresh || !s.spsFits n q then (s1.discardAu n).raise g Reg.HDEC_EVENT_UNSUPPORTED
      else if skip then s1.discardAu n
      else if (t = 8 ∨ t = 9) ∧ h.noRasl then s1
      else
        match head with
        | none => s1.concealPic n frame crcBad
        | some d => (s1.putDec n { h with skipping := false }).decodePic n ⟨q, [su, pu], slices, t, d, frame, crcBad⟩

/-- An HEVC decoder finishes the record at the front of its input ring; a damaged record is discarded (R263). PRESUMED (log 47). -/
def State.hdecDone (s : State) (n : Nat) : State :=
  let g := Pg.hdec n
  let cons := s.fld g Reg.HDEC_IN_CONS
  if s.ctl.mode ≠ .review ∨ 2 ≤ n ∨ s.on g Reg.HDEC_CTRL_ENABLE = false ∨ s.fld g Reg.HDEC_IN_PROD = cons
      ∨ (n = 1 ∧ s.on (Pg.hdec 0) Reg.HDEC_CTRL_GANG) then s
  else
    let a := 4096 * s.fld g Reg.HDEC_IN_BASE_LO + 2 ^ 32 * s.fld g Reg.HDEC_IN_BASE_HI + cons * (4096 * s.fld g Reg.HDEC_IN_CFG_PAGES)
    let b := s.peekN a 64
    let s1 := s.setFld g Reg.HDEC_IN_CONS (ringNext cons (s.fld g Reg.HDEC_IN_CFG_COUNT))
    if leAt b 0 4 ≠ 0x45485A4B ∨ leAt b 4 2 ≠ 1 ∨ leAt b 0x3C 4 ≠ crc32c (b.take 0x3C) then
      (s1.putDec n { s1.dec n with broken := true }).raise g Reg.HDEC_EVENT_REC_ERR
    else
      let len := min (leAt b 0x18 4) (4096 * s.fld g Reg.HDEC_IN_CFG_PAGES - 64)
      let au := s.peekN (a + 64) len
      let bad := decide (crc32c au ≠ leAt b 0x28 4)
      (s1.raiseIf bad g Reg.HDEC_EVENT_CRC_ERR).decodeAu n (leAt b 8 8) au bad

/-- HDEC_RECORD_DONE (R263). -/
def execHdecRecordDone (n : Nat) (s : State) : Host.Outcome State Fault Refusal := .next (s.hdecDone n)

/-- The effect of a write of HDEC.IN_PROD; HDEC1's is discarded while it serves HDEC0's stream (R263, R266). -/
def writeHdecInProd (r : Req) (n : Nat) (v : Word) (s : State) : State :=
  if 2 ≤ n then s
  else
    withWrite r (Pg.hdec n) 0x04C v s fun s old new =>
      if n = 1 ∧ s.on (Pg.hdec 0) Reg.HDEC_CTRL_GANG then s.reject (Pg.hdec 1) else plainStore r (Pg.hdec n) 0x04C s old new

/-- HDEC_IN_PROD (R263). -/
def execHdecInProd (r : Req) (n : Nat) (v : Word) (s : State) : Host.Outcome State Fault Refusal := .next (writeHdecInProd r n v s)

/-- What the decoders clear on entry to REVIEW (R233, R266). -/
def State.decodersStart (s : State) : State :=
  let s1 := s.setFld Pg.drdec Reg.DRDEC_TILE_ERRORS 0
  let s2 := [0, 1].foldl
    (fun (s : State) n =>
      [Reg.HDEC_CONCEALED_CTBS, Reg.HDEC_REF_GENERATED].foldl (fun s f => s.setFld (Pg.hdec n) f 0) s) s1
  { s2 with drdec := {}, hdec := [] }

end Sys2Proof.Machine
end

