-- ==== Sys2Proof/Machine/Settings.lean ====
section
/-! DEFINITION. Retained settings (R82 to R88, R306, R311): capturing and saving them, the bank image, the restore and the
RSTORE page. -/

namespace Sys2Proof.Machine

/-! ### The bank image (R84, R85) -/

/-- The retained bits of the register at an offset of a page. -/
def retMask (p o : Nat) : Word :=
  match fieldsAt p o with
  | none => 0
  | some fs => maskOf fs (fun f => f.ret)

/-- The offsets of a page's registers that hold retained fields, in ascending order. -/
def retOffs (p : Nat) : List Nat := ((List.range 0x200).map (4 * ·)).filter fun o => decide (retMask p o ≠ 0)

/-- Every register that holds retained fields, in ascending order of page and offset (R84). -/
def retRegs : List (Nat × Nat) := allPages.flatMap fun p => (retOffs p).map fun o => (p, o)

/-- The entries of a bank as register keys and words. -/
def bankWords : Nat → List Byte → List (Nat × Word)
  | 0, _ => []
  | n + 1, b => (leAt b 0 2 * 0x1000 + leAt b 2 2, BitVec.ofNat 32 (leAt b 4 4)) :: bankWords n (b.drop 8)

/-- The retained word of a register: what it holds, or, while its domain is off and holds nothing, what the newest valid bank gives it, and
its factory value where that bank does not name it (R36, R83). DESIGN CHOICE (log 95). -/
def State.retained (s : State) (kept : List (Nat × Word)) (p o : Nat) : Word :=
  let a := p * 0x1000 + o
  if 0x040 ≤ o ∧ s.domainOff p then
    match kept.find? fun e => decide (e.1 = a) with
    | some e => e.2
    | none => factoryWord a
  else s.rd a

/-- The bytes of a bank entry: PAGE, OFFSET and VALUE with every non-retained bit as zero (R84). DESIGN CHOICE (log 95). -/
def State.bankEntry (s : State) (kept : List (Nat × Word)) (e : Nat × Nat) : List Byte :=
  leBytes 2 e.1 ++ leBytes 2 e.2 ++ leBytes 4 (s.retained kept e.1 e.2 &&& retMask e.1 e.2).toNat

/-- A bank image with its CRC (R84). -/
def sealBank (body : List Byte) : List Byte := body ++ leBytes 4 (crc32c body)

/-- The length of a bank image up to its CRC, from its COUNT. -/
def bankBody (b : List Byte) : Nat := 0x40 + 8 * leAt b 0x10 4

/-- Whether a bank is valid (R85). -/
def bankValid (b : List Byte) : Bool :=
  decide (leAt b 0 4 = 0x53525A4B) && decide (leAt b 4 2 = 1) && decide (leAt b 0x10 4 ≤ 8183)
    && decide (bankBody b + 4 ≤ b.length) && decide (leAt b (bankBody b) 4 = crc32c (b.take (bankBody b)))

/-- The sequence number of a bank. -/
def bankSeq (b : List Byte) : Nat := leAt b 8 8

/-- A bank of the RSM. -/
def Rsm.bank (m : Rsm) (i : Nat) : List Byte := if i = 0 then m.bank0 else m.bank1

/-- The RSM with a bank replaced. -/
def Rsm.setBank (m : Rsm) (i : Nat) (b : List Byte) : Rsm := if i = 0 then { m with bank0 := b } else { m with bank1 := b }

/-- The newest valid bank (R83, R85). -/
def Rsm.newest (m : Rsm) : Option Nat :=
  if bankValid m.bank0 then
    if bankValid m.bank1 && decide (bankSeq m.bank0 < bankSeq m.bank1) then some 1 else some 0
  else if bankValid m.bank1 then some 1
  else none

/-- The entries of the newest valid bank. -/
def Rsm.words (m : Rsm) : List (Nat × Word) :=
  match m.newest with
  | some i => bankWords (leAt (m.bank i) 0x10 4) ((m.bank i).drop 0x40)
  | none => []

/-- The capture of every retained field as a bank image (R83, R84). -/
def State.capture (s : State) (cause seq : Nat) : List Byte :=
  let frame := if s.on Pg.global Reg.GLOBAL_STATE_TAKE then s.frameNow else 0
  let kept := s.rsm.words
  sealBank
    (leBytes 4 0x53525A4B ++ leBytes 2 1 ++ leBytes 2 cause ++ leBytes 8 seq ++ leBytes 4 retRegs.length
      ++ leBytes 4 (s.fld Pg.global Reg.GLOBAL_FW_BUILD) ++ leBytes 8 frame ++ zeros 32 ++ retRegs.flatMap (s.bankEntry kept))

/-- The newest valid sequence number; 0 with no valid bank (R88). -/
def Rsm.seq (m : Rsm) : Nat :=
  match m.newest with
  | some i => bankSeq (m.bank i)
  | none => 0

/-- The bank a save writes: the one that does not hold the newest valid image, or bank 0 (R83). -/
def Rsm.target (m : Rsm) : Nat :=
  match m.newest with
  | some i => 1 - i
  | none => 0

/-! ### Saves (R82, R83) -/

/-- A host image rewritten with a sequence number and its CRC (R311). -/
def reseq (b : List Byte) (seq : Nat) : List Byte :=
  let body := b.take (bankBody b)
  sealBank (body.take 8 ++ leBytes 8 seq ++ body.drop 16)

/-- A save starts: the image is captured and the target bank holds no valid image until it has been written (R83). -/
def State.startSave (s : State) (q : SaveReq) : State :=
  let seq := s.rsm.seq + 1
  let t := s.rsm.target
  let img :=
    match q.image with
    | some b => reseq b seq
    | none => s.capture q.cause seq
  { s with rsm := { s.rsm.setBank t [] with running := some (q, t, seq, img) } }

/-- A save requested: it starts, is held one deep, or merges into the held one with SAVE_COALESCED; the held save keeps the
cause of its first request (R82). -/
def State.requestSave (s : State) (cause : Nat) (cmds : List Nat) : State :=
  match s.rsm.running with
  | none => s.startSave ⟨cause, cmds, none⟩
  | some _ =>
    match s.rsm.held with
    | none => { s with rsm := { s.rsm with held := some ⟨cause, cmds, none⟩ } }
    | some h =>
      ({ s with rsm := { s.rsm with held := some { h with cmds := h.cmds ++ cmds } } } : State).raise Pg.rstore
        Reg.RSTORE_EVENT_SAVE_COALESCED

/-- A save that RSTORE.CTRL.ENABLE allows: those of take START (cause 2), immediate commits (3) and PERIOD (4) (R82, R88). -/
def State.autoSave (s : State) (cause : Nat) : State :=
  if s.on Pg.rstore Reg.RSTORE_CTRL_ENABLE then s.requestSave cause [] else s

/-- A WRITE to SETTINGS handed to the save engine; it waits while a save runs (R311). -/
def State.writeSettings (s : State) (uid : Nat) (image : List Byte) : State :=
  let q : SaveReq := ⟨1, [uid], some image⟩
  match s.rsm.running with
  | none => s.startSave q
  | some _ => { s with rsm := { s.rsm with writes := s.rsm.writes ++ [q] } }

/-- The held save starts, or a waiting WRITE to SETTINGS (R82, R311). -/
def State.nextSave (s : State) : State :=
  match s.rsm.held with
  | some q => ({ s with rsm := { s.rsm with held := none } } : State).startSave q
  | none =>
    match s.rsm.writes with
    | q :: t => ({ s with rsm := { s.rsm with writes := t } } : State).startSave q
    | [] => s

/-- The running save ends: its image is in the bank and verified, or the check failed and the bank holds no valid image. Its
commands complete, and the next save starts (R82, R83, R86, R88, R306, R311). -/
def State.endSave (s : State) (ok : Bool) : State :=
  match s.rsm.running with
  | none => s
  | some (q, t, seq, img) =>
    let s1 : State := { s with rsm := { s.rsm with running := none } }
    let result := match q.image with | some b => b.length | none => seq % 2 ^ 32
    let s2 :=
      if ok then
        (((({ s1 with rsm := s1.rsm.setBank t img } : State).count Pg.rstore Reg.RSTORE_SAVE_COUNT).setFld Pg.global
          Reg.GLOBAL_STATE_FACTORY 0).raise Pg.rstore Reg.RSTORE_EVENT_SAVE_DONE)
      else (s1.count Pg.rstore Reg.RSTORE_FAIL_COUNT).raise Pg.rstore Reg.RSTORE_EVENT_SAVE_FAIL
    let s3 := q.cmds.foldl (fun s u => if ok then s.finish u 0 result 0 else s.finish u 0x30 0 0) s2
    s3.nextSave

/-- SAVE_DONE (R83). -/
def execSaveDone (readBackOk : Bool) (s : State) : Host.Outcome State Fault Refusal := .next (s.endSave readBackOk)

/-- SAVE_SETTINGS (R306). -/
def execSaveSettings (tag : Nat) (s : State) : Host.Outcome State Fault Refusal :=
  .next (withCmd tag 0x11 s (fun _ _ => none) fun c s => s.requestSave 1 [c.uid])

/-- Whether the device is settled in STANDBY or SERVICE. -/
def State.quiet (s : State) : Bool :=
  decide (s.ctl.phase = .settled) && (decide (s.ctl.mode = .standby) || decide (s.ctl.mode = .service))

/-- The effect of a write of RSTORE.CTRL (R88): ENABLE is stored, ERASE invalidates both banks in STANDBY or SERVICE and is
otherwise discarded with the whole write, SAVE requests a save. -/
def writeRstoreCtrl (r : Req) (v : Word) (s : State) : State :=
  withWrite r Pg.rstore 0x008 v s fun s _ new =>
    let erase := wmSet v Reg.RSTORE_CTRL_ERASE
    if erase && !s.quiet then s.reject Pg.rstore
    else
      let s1 := s.setFld Pg.rstore Reg.RSTORE_CTRL_ENABLE (wfld new Reg.RSTORE_CTRL_ENABLE)
      let s2 : State := if erase then { s1 with rsm := { s1.rsm with bank0 := [], bank1 := [] } } else s1
      if wmSet v Reg.RSTORE_CTRL_SAVE then s2.requestSave 1 [] else s2

/-- RSTORE_SAVE (R82). -/
def execRstoreSave (r : Req) (v : Word) (s : State) : Host.Outcome State Fault Refusal := .next (writeRstoreCtrl r v s)

/-- RSTORE_ERASE (R88). -/
def execRstoreErase (r : Req) (v : Word) (s : State) : Host.Outcome State Fault Refusal := .next (writeRstoreCtrl r v s)

/-! ### Restore (R40, R85, R86) -/

/-- Whether a page has a boundary of its own and accepts COMMIT.SOURCE 0b01 (R40). DEDUCED (log 17). -/
def ownBoundary (p : Nat) : Bool :=
  match pageBlk p with
  | some (.loupe, _) | some (.aud, _) => true
  | _ => false

/-- A register's word restored; a shadow's active copy takes the restored bits with it (R66, R85). -/
def State.restoreWord (s : State) (p o : Nat) (m v : Word) : State :=
  let a := p * 0x1000 + o
  let s1 := s.wr a ((s.rd a &&& ~~~ m) ||| (v &&& m))
  if 0x400 ≤ o ∧ o < 0x800 then
    let k := m &&& shMask p o
    s1.wr (a + 0x400) ((s1.rd (a + 0x400) &&& ~~~ k) ||| (v &&& k))
  else s1

/-- One entry restored: its retained bits, or a skip when it names no register with retained fields; a SOURCE that R40 forbids
is restored as 0b00 and counts as skipped. -/
def State.restoreEntry (s : State) (p o value : Nat) : State :=
  let m := if 1024 ≤ p ∨ 0x1000 ≤ o ∨ o % 4 ≠ 0 then 0 else retMask p o
  if m = 0 then s.count Pg.rstore Reg.RSTORE_SKIP_COUNT
  else
    let v := BitVec.ofNat 32 value &&& m
    let src := Word.bits v 2 2
    if o = 0x01C ∧ p ≠ Pg.global ∧ (src = 3 ∨ (src = 1 ∧ ownBoundary p = false)) then
      (s.restoreWord p o m 0).count Pg.rstore Reg.RSTORE_SKIP_COUNT
    else s.restoreWord p o m v

/-- The entries of a bank restored in order. -/
def State.restoreEntries (s : State) (b : List Byte) : Nat → Nat → State
  | 0, _ => s
  | n + 1, a => (s.restoreEntry (leAt b a 2) (leAt b (a + 2) 2) (leAt b (a + 4) 4)).restoreEntries b n (a + 8)

/-- The restore: the valid bank with the higher SEQUENCE, or factory values with FACTORY and FACTORY_LOAD when there is none or
STRAP2 asks for it (R85, R86, R519). The fields are at their factory values before it; a latch may rise with EVENT_EN or the routing
(R52). -/
def State.restore (s : State) (strap2 : Bool) : State :=
  let s0 := s.setFld Pg.rstore Reg.RSTORE_SKIP_COUNT 0
  let s1 :=
    match (if strap2 then none else s.rsm.newest) with
    | some i =>
      let b := s.rsm.bank i
      let s1 := (s0.restoreEntries b (leAt b 0x10 4) 0x40).setFld Pg.rstore Reg.RSTORE_STATUS_RESTORED i
      s1.raiseIf (decide (s1.fld Pg.rstore Reg.RSTORE_SKIP_COUNT ≠ 0)) Pg.rstore Reg.RSTORE_EVENT_RESTORE_SKIP
    | none =>
      ((s0.setFld Pg.rstore Reg.RSTORE_STATUS_RESTORED 2).setFld Pg.global Reg.GLOBAL_STATE_FACTORY 1).raise Pg.global
        Reg.GLOBAL_EVENT_FACTORY_LOAD
  noteRiseAll s s1.showCorr

end Sys2Proof.Machine
end

