-- ==== Sys2Proof/Machine/Media.lean ====
section
/-! DEFINITION. Media ports and the volume (R318 to R323, R343, R527): bring-up, drive writes and their completion, timeouts,
failures, the directory, mounting and FORMAT. -/

namespace Sys2Proof.Machine

/-! ### Drives -/

/-- The state with media and Recorder replaced. -/
def State.setRec (s : State) (r : RecSt) : State := { s with media := r }

/-- The drive at a port. -/
def State.drive (s : State) (k : Nat) : DriveSt := s.media.drives.get k

/-- The state with a drive set. -/
def State.putDrive (s : State) (k : Nat) (d : DriveSt) : State := s.setRec { s.media with drives := s.media.drives.put k d }

/-- The state with the open reel replaced. -/
def State.setReel (s : State) (r : ReelSt) : State := s.setRec { s.media with reel := r }

/-- STATE.PORT of a media port: 0 down, 1 training, 2 initialising, 3 READY, 4 REJECTED, 5 FAILED, 6 MISMATCH (R343). -/
def State.mport (s : State) (k : Nat) : Nat := s.fld (Pg.media k) Reg.MEDIA_STATE_PORT

/-- The state with STATE.PORT set. -/
def State.setMport (s : State) (k v : Nat) : State := s.setFld (Pg.media k) Reg.MEDIA_STATE_PORT v

/-- A port whose link is not up: STATE.PORT reads `v`, and it has no lanes, no speed and no I/O queues (R343, R527). -/
def State.portDown (s : State) (k v : Nat) : State :=
  let p := Pg.media k
  (((s.setMport k v).setFld p Reg.MEDIA_STATE_WIDTH 0).setFld p Reg.MEDIA_STATE_SPEED 0).setFld p Reg.MEDIA_STATE_QUEUES 0

/-- Whether the device is fenced (R499). -/
def State.fenced (s : State) : Bool := s.on Pg.array Reg.ARRAY_STATE_FENCED

/-- Bytes written to a drive, counted in WRITTEN (R343). -/
def State.countWritten (s : State) (k n : Nat) : State :=
  let p := Pg.media k
  s.setFld64 p Reg.MEDIA_WRITTEN_LO Reg.MEDIA_WRITTEN_HI (s.fld64 p Reg.MEDIA_WRITTEN_LO Reg.MEDIA_WRITTEN_HI + n)

/-- D, the drives of the volume (R321). -/
def State.driveCount (s : State) : Nat := if s.fld Pg.recorder Reg.RECORDER_CFG_DRIVES = 1 then 1 else 2

/-- The ports of the volume that CFG.DRIVES asks for (R321). -/
def State.volPorts (s : State) : List Nat := List.range s.driveCount

/-- The ports of the mounted volume. -/
def State.mountedPorts (s : State) : List Nat := match s.media.vol with | some v => List.range v.drives | none => []

/-- The volume is mounted on ports that all take writes. -/
def State.volumeReady (s : State) : Bool := s.media.vol.isSome && s.mountedPorts.all fun k => decide (s.mport k = 3)

/-- The capacity of a port's namespace. -/
def State.capacity (s : State) (k : Nat) : Nat := s.fld64 (Pg.media k) Reg.MEDIA_CAP_LO Reg.MEDIA_CAP_HI

/-- VSIZE (R321). -/
def State.volSize (s : State) : Nat :=
  let c := (s.volPorts.map s.capacity).foldl min (2 ^ 64)
  s.driveCount * 4194304 * ((c - 8388608) / 4194304)

/-- The place of a volume address: port and drive byte (R321). -/
def Volume.place (v : Volume) (a : Nat) : Nat × Nat :=
  let u := a / 4194304
  let port := (v.members.findIdx? fun m => decide (m = u % v.drives)).getD 0
  (port, 8388608 + u / v.drives * 4194304 + a % 4194304)

/-- Bytes read from the volume. -/
def State.volRead (s : State) (a n : Nat) : List Byte :=
  match s.media.vol with
  | none => zeros n
  | some v => (List.range n).map fun i => let p := v.place (a + i); (s.drive p.1).mem.get p.2

/-- The ports that hold a range of volume addresses. -/
def Volume.portsOf (v : Volume) (a n : Nat) : List Nat :=
  ((List.range ((a + n - 1) / 4194304 + 1 - a / 4194304)).map fun i => (v.place ((a / 4194304 + i) * 4194304)).1).dedup

/-- Whether a range of the volume can be read: a drive serves reads while its port is READY or its controller is being reset (R320,
R337). -/
def State.volReadable (s : State) (a n : Nat) : Bool :=
  match s.media.vol with
  | none => false
  | some v => (v.portsOf a n).all fun k => decide (s.mport k = 3) || (decide (s.mport k = 2) && (s.drive k).retried)

/-- A transfer of at most 1 MiB, within a stripe unit and the drive's MDTS (R319, R321). -/
def State.nextTransfer (s : State) (v : Volume) (a n : Nat) : Nat :=
  let d := s.drive (v.place a).1
  let mdts := if d.maxTransfer = 0 then 1048576 else d.maxTransfer
  max 1 (min n (min (min 1048576 mdts) (4194304 - a % 4194304)))

/-- Bytes put on the drives of the volume at once, by transfers (R319, R343). -/
def State.volPoke (s : State) : Nat → Nat → List Byte → State
  | 0, _, _ => s
  | fuel + 1, a, data =>
    match s.media.vol with
    | none => s
    | some v =>
      if data.isEmpty then s
      else
        let n := s.nextTransfer v a data.length
        let p := v.place a
        let d := s.drive p.1
        ((s.putDrive p.1 { d with mem := d.mem.setN p.2 (data.take n) }).countWritten p.1 n).volPoke fuel (a + n) (data.drop n)

/-- Writes issued for bytes at a volume address (R318, R319). -/
def State.volWrite (s : State) (frames : List Nat) (fua : Bool) : Nat → Nat → List Byte → State
  | 0, _, _ => s
  | fuel + 1, a, data =>
    match s.media.vol with
    | none => s
    | some v =>
      if data.isEmpty then s
      else
        let n := s.nextTransfer v a data.length
        let p := v.place a
        let d := s.drive p.1
        let w : NvmeWrite := ⟨d.nextId, p.2, a, data.take n, frames, fua⟩
        (s.putDrive p.1 { d with writes := d.writes ++ [w], nextId := d.nextId + 1 }).volWrite frames fua fuel (a + n) (data.drop n)

/-- The writes outstanding. -/
def State.outstanding (s : State) : List NvmeWrite := [0, 1].flatMap fun k => (s.drive k).writes

/-- The bytes that await their write: those of the Writes outstanding, of a logical block not yet full, and of the complete groups behind
them (R342). DESIGN CHOICE (log 57). -/
def State.queuedBytes (s : State) : Nat :=
  let r := s.media.reel
  let groups := r.waiting.filter fun e => !r.dropped.any fun d => decide (d.1 = e.1)
  (s.outstanding.map (·.data.length)).sum + r.part.length + (groups.map (·.2.1)).sum

/-- QUEUED: the bytes that await their write, in MiB (R342). DESIGN CHOICE (log 57). -/
def State.showQueued (s : State) : State :=
  s.setFld Pg.recorder Reg.RECORDER_QUEUED (min 65535 (ceilDiv s.queuedBytes 1048576))

/-! ### The directory (R322) -/

/-- A directory bank of a port. -/
def dirBank (v : Volume) (port : Nat) : List Byte :=
  let entry := fun n =>
    let e := v.entries.get n
    if e.state = 0 then zeros 32 else leBytes 1 e.state ++ zeros 7 ++ leBytes 8 e.start ++ leBytes 8 e.size ++ zeros 8
  let body := leBytes 4 0x44565A4B ++ leBytes 2 1 ++ leBytes 1 v.drives ++ leBytes 1 (v.members.getD port 0) ++ leBytes 8 v.seq
    ++ v.id ++ leBytes 8 v.vsize ++ zeros 24 ++ (List.range 256).flatMap entry
  padTo 16384 (body ++ leBytes 4 (crc32c body))

/-- Whether a directory bank is valid (R322). -/
def dirValid (b : List Byte) : Bool :=
  decide (leAt b 0 4 = 0x44565A4B) && decide (leAt b 4 2 = 1) && decide (leAt b 0x2040 4 = crc32c (b.take 0x2040))

/-- The bytes of a directory bank on a drive. -/
def State.readBank (s : State) (k i : Nat) : List Byte := (s.drive k).mem.getN (65536 * i) 16384

/-- The newest valid directory bank of a drive and its number. -/
def State.newestDir (s : State) (k : Nat) : Option (Nat × List Byte) :=
  let a := s.readBank k 0
  let b := s.readBank k 1
  if dirValid a then
    if dirValid b && decide (leAt a 8 8 < leAt b 8 8) then some (1, b) else some (0, a)
  else if dirValid b then some (1, b)
  else none

/-- Writes the directory with the next sequence number to the bank of each drive that does not hold the newest valid image; a drive that is
not READY keeps what it has (R322, R337). -/
def State.writeDir (s : State) : State :=
  match s.media.vol with
  | none => s
  | some v =>
    let v1 := { v with seq := v.seq + 1 }
    let s1 := s.setRec { s.media with vol := some v1 }
    s1.mountedPorts.foldl
      (fun (s : State) k =>
        if s.mport k = 3 then
          let i := match s.newestDir k with | some e => 1 - e.1 | none => 0
          (s.putDrive k { s.drive k with mem := (s.drive k).mem.setN (65536 * i) (dirBank v1 k) }).countWritten k 16384
        else s) s1

/-- A directory entry set and written. -/
def State.setEntry (s : State) (n : Nat) (e : DirEntry) : State :=
  match s.media.vol with
  | none => s
  | some v => (s.setRec { s.media with vol := some { v with entries := v.entries.put n e } }).writeDir

/-- The directory entry of an NSID; free when no volume is mounted. -/
def State.dirEntry (s : State) (n : Nat) : DirEntry := match s.media.vol with | some v => v.entries.get n | none => {}

/-- The extents of the volume that are taken, as (first, end). -/
def Volume.taken (v : Volume) : List (Nat × Nat) := v.entries.map fun e => (e.2.start, e.2.start + e.2.size)

/-- The lowest-addressed free extent of a size: it begins at 0 or where a taken extent ends (R323). -/
def Volume.findFree (v : Volume) (n : Nat) : Option Nat :=
  let free := fun (a : Nat) => decide (a + n ≤ v.vsize) && v.taken.all fun e => decide (a + n ≤ e.1) || decide (e.2 ≤ a)
  ((0 :: v.taken.map (·.2)).filter free).foldl
    (fun (best : Option Nat) a => match best with | some b => some (min a b) | none => some a) none

/-- The length of the free extent that begins at an address. -/
def Volume.freeFrom (v : Volume) (a : Nat) : Nat :=
  if v.taken.any fun e => decide (e.1 ≤ a) && decide (a < e.2) then 0
  else ((v.taken.filter fun e => decide (a ≤ e.1)).map (·.1)).foldl min v.vsize - a

/-- VOLUME, FREE and STATE.MOUNTED of RECORDER (R342). -/
def State.showVolume (s : State) : State :=
  let r := Pg.recorder
  match s.media.vol with
  | none => ((s.setFld r Reg.RECORDER_STATE_MOUNTED 0).setFld r Reg.RECORDER_VOLUME 0).setFld r Reg.RECORDER_FREE 0
  | some v =>
    let largest := ((0 :: v.taken.map (·.2)).map v.freeFrom).foldl max 0
    ((s.setFld r Reg.RECORDER_STATE_MOUNTED 1).setFld r Reg.RECORDER_VOLUME (v.vsize / 8388608)).setFld r Reg.RECORDER_FREE
      (largest / 8388608)

/-! ### Mounting (R321, R322) -/

/-- The volume of a directory bank. -/
def State.volumeOf (s : State) (b : List Byte) (members : List Nat) : Volume :=
  let entry := fun n => (⟨leAt b (0x40 + 32 * n) 1, leAt b (0x48 + 32 * n) 8, leAt b (0x50 + 32 * n) 8⟩ : DirEntry)
  { drives := leAt b 6 1, members := members, seq := leAt b 8 8, id := slice b 0x10 16, vsize := s.volSize
    entries := (List.range 254).foldl (fun t i => t.put (i + 2) (entry (i + 2))) [] }

/-- The volume mounts once every port of it reads READY: from the newest valid bank, or not at all when it is unformatted or its drives do
not belong together; then both ports that read READY read MISMATCH (R322). DEDUCED (log 55). -/
def State.mount (s : State) : State :=
  let ports := s.volPorts
  if s.media.vol.isSome ∨ !(ports.all fun k => decide (s.mport k = 3)) then s
  else
    let dirs := ports.map s.newestDir
    let found := dirs.filterMap id
    if found.isEmpty then s.showVolume
    else
      let bs := found.map (·.2)
      let best := bs.foldl (fun b c => if leAt b 8 8 < leAt c 8 8 then c else b) (bs.headD [])
      let ids := bs.map fun b => slice b 0x10 16
      let members := bs.map fun b => leAt b 7 1
      let bad := decide (found.length ≠ ports.length) || decide (ids.dedup.length ≠ 1)
        || decide (members.dedup.length ≠ members.length) || bs.any fun b => decide (leAt b 6 1 ≠ s.driveCount)
      if bad then ([0, 1].foldl (fun s k => if s.mport k = 3 then s.setMport k 6 else s) s).raise Pg.recorder Reg.RECORDER_EVENT_VOLUME_ERR
      else (s.setRec { s.media with vol := some (s.volumeOf best members) }).showVolume

/-- The volume is unmounted (R527). -/
def State.unmount (s : State) : State := (s.setRec { s.media with vol := none }).showVolume

/-! ### Port bring-up (R319, R527) -/

/-- Whether a drive meets the conditions of R319. -/
def driveGood (i : DriveInfo) : Bool :=
  (decide (i.lbaSize = 512) || decide (i.lbaSize = 4096)) && decide (i.metadata = 0)
    && (decide (i.maxTransfer = 0) || decide (131072 ≤ i.maxTransfer)) && decide (2 ^ 30 ≤ i.blocks * i.lbaSize)

/-- A port finishes its bring-up: it is READY or REJECTED, and the volume mounts when every port of it is READY (R319, R322). A port with no
drive stays down. DEDUCED (log 55). -/
def State.portReady (s : State) (k : Nat) (i : DriveInfo) : State :=
  let p := Pg.media k
  if 2 ≤ k ∨ s.on p Reg.MEDIA_CTRL_ENABLE = false ∨ (s.mport k ≠ 1 ∧ s.mport k ≠ 2) ∨ (s.drive k).retried then s
  else if i.present = false then s.portDown k 0
  else
    let s0 := (s.setFld p Reg.MEDIA_STATE_WIDTH i.lanes).setFld p Reg.MEDIA_STATE_SPEED i.speed
    if driveGood i then
      let s1 := ((s0.setFld p Reg.MEDIA_LBA (Nat.log2 i.lbaSize)).setFld64 p Reg.MEDIA_CAP_LO Reg.MEDIA_CAP_HI
        (i.blocks * i.lbaSize)).setFld p Reg.MEDIA_STATE_QUEUES (min 8 (max 1 i.queues))
      let s2 := s1.setMport k 3
      let d := s2.drive k
      ((s2.putDrive k { d with maxTransfer := i.maxTransfer, retried := false, again := [], writes := [] }).raise p
        Reg.MEDIA_EVENT_READY).mount
    else (s0.setMport k 4).raise p Reg.MEDIA_EVENT_REJECTED

/-- MEDIA_PORT_READY (R319). -/
def execMediaPortReady (port : Nat) (info : DriveInfo) (s : State) : Host.Outcome State Fault Refusal :=
  .next (s.portReady port info)

/-- The ports with ENABLE 1 come up from training; the others stay down (R527). -/
def State.mediaStart (s : State) : State :=
  [0, 1].foldl (fun (s : State) k => s.portDown k (if s.on (Pg.media k) Reg.MEDIA_CTRL_ENABLE then 1 else 0)) s

/-- The lowest-numbered reel whose directory STATE is open and that the Recorder is not recording. DEDUCED (log 61). -/
def State.nextRecovery (s : State) : Option Nat :=
  (List.range 256).find? fun n => decide ((s.dirEntry n).state = 2) && !(s.media.reel.isOpen && decide (s.media.reel.nsid = n))

/-- The reel under recovery: once the device has reached STANDBY, in every mode except SLEEP, and while it is not fenced (R59, R334). It
needs every port of the volume. DEDUCED (log 61). -/
def State.recovering (s : State) : Option Nat :=
  let up := decide (s.ctl.phase ≠ .inReset) && decide (s.ctl.phase ≠ .restoring) && decide (s.ctl.mode ≠ .sleep)
  if up && !s.fenced && s.volumeReady then s.nextRecovery else none

/-- Whether a port serves an open reel, a REVIEW read or a recovery (R527). A FORMAT and a deletion take one step here. -/
def State.mediaBusy (s : State) (k : Nat) : Bool :=
  s.mountedPorts.contains k && (s.media.reel.isOpen || s.media.review.active || s.recovering.isSome)

/-- A port of which the volume is part stops serving it: the volume is unmounted (R527). -/
def State.leaveVolume (s : State) (k : Nat) : State := if s.mountedPorts.contains k then s.unmount else s

/-- The effect of a write of MEDIA.CTRL (R320, R527). -/
def writeMediaCtrl (r : Req) (k : Nat) (v : Word) (s : State) : State :=
  let p := Pg.media k
  if 2 ≤ k then s
  else
    withWrite r p 0x008 v s fun s _ new =>
      let en := wfld new Reg.MEDIA_CTRL_ENABLE = 1
      let was := s.on p Reg.MEDIA_CTRL_ENABLE
      let reset := wmSet v Reg.MEDIA_CTRL_RESET
      let standby := decide (s.ctl.mode = .standby) && decide (s.ctl.phase = .settled)
      if (reset && !standby) || (was && !en && s.mediaBusy k) then s.reject p
      else
        let s1 := s.setOn p Reg.MEDIA_CTRL_ENABLE en
        let fresh := { s1.drive k with writes := [], retried := false, again := [] }
        if was && !en then ((s1.putDrive k { fresh with cache := [] }).leaveVolume k).portDown k 0
        else if en && (!was || reset) then ((s1.putDrive k fresh).leaveVolume k).portDown k 1
        else s1

/-- MEDIA_ENABLE (R527). -/
def execMediaEnable (r : Req) (port : Nat) (v : Word) (s : State) : Host.Outcome State Fault Refusal :=
  .next (writeMediaCtrl r port v s)

/-- MEDIA_RESET (R320). -/
def execMediaReset (r : Req) (port : Nat) (v : Word) (s : State) : Host.Outcome State Fault Refusal :=
  .next (writeMediaCtrl r port v s)

/-- HEALTH_POLL (R318). -/
def execHealthPoll (port critical used temp : Nat) (s : State) : Host.Outcome State Fault Refusal :=
  let p := Pg.media port
  .next (if 2 ≤ port ∨ s.mport port ≠ 3 then s
    else
      (((s.setFld p Reg.MEDIA_HEALTH_CRIT_WARN critical).setFld p Reg.MEDIA_HEALTH_USED_PCT used).setFld p Reg.MEDIA_HEALTH_TEMP
        temp).raiseIf (decide (critical % 256 ≠ 0)) p Reg.MEDIA_EVENT_HEALTH)

/-! ### FORMAT (R323) -/

/-- The drive as FORMAT leaves it: its data area is deallocated and reads as zero (R323). -/
def DriveSt.format (d : DriveSt) : DriveSt := { d with mem := d.mem.filter fun e => decide (e.1 < 8388608), cache := [] }

/-- A new, empty volume is written by the two-bank rule and mounted, and each port that read MISMATCH is READY again (R322, R323). DEDUCED
(log 55). -/
def State.format (s : State) : State :=
  let d := s.driveCount
  let seq := (s.volPorts.map fun k => match s.newestDir k with | some e => leAt e.2 8 8 | none => 0).foldl max 0
  let v : Volume := { drives := d, members := List.range d, seq := seq, id := padTo 16 (Config.freeBytes 40 [s.seed]), vsize := s.volSize }
  let s1 : State := { s with seed := s.seed + 1 }
  let s2 := s1.volPorts.foldl (fun (s : State) k => s.putDrive k (s.drive k).format) s1
  let s3 := [0, 1].foldl
    (fun (s : State) k => if s.mport k = 6 then (s.setMport k 3).raise (Pg.media k) Reg.MEDIA_EVENT_READY else s) s2
  (s3.setRec { s3.media with vol := some v }).writeDir.showVolume

/-- Whether FORMAT is accepted: in STANDBY, with no REEL namespace in use and every port of the volume READY or MISMATCH (R323). A reel that
is open and not recovered is in use (R334). DEDUCED (log 55). -/
def State.formatOk (s : State) : Bool :=
  decide (s.ctl.mode = .standby) && decide (s.ctl.phase = .settled) && !s.media.reel.isOpen && !s.media.review.active
    && s.nextRecovery.isNone
    && !(s.openCmds.any fun c => nsOps.contains c.op && decide (2 ≤ c.nsid) && decide ((s.dirEntry c.nsid).state ≠ 0))
    && s.volPorts.all fun k => decide (s.mport k = 3) || decide (s.mport k = 6)

end Sys2Proof.Machine
end

