-- ==== Sys2Proof/Machine/ReelFormat.lean ====
section
/-! DEFINITION. The forms of R273 to R275 and R324 to R339: record headers, frame digest records, index segments, index banks, chain
records, drop records and manifests, and reading them back. -/

namespace Sys2Proof.Machine

/-! ### Records (R326, R327) -/

/-- The offset at which the records of a reel begin (R324). -/
abbrev recordsFrom : Nat := 0x100000

/-- A record: header, payload and zero bytes to the next 64-byte boundary (R326). -/
def recordBytes (id : List Byte) (type index flags frame : Nat) (payload : List Byte) : List Byte :=
  let body := leBytes 4 0x43525A4B ++ leBytes 1 type ++ leBytes 1 index ++ leBytes 2 flags ++ leBytes 8 frame
    ++ leBytes 4 payload.length ++ leBytes 4 (crc32c payload) ++ id.take 4
  let b := body ++ leBytes 4 (crc32c body) ++ payload
  padTo (roundUp b.length 64) b

/-- The records of a frame group, given as TYPE, INDEX and payload; the last one carries LAST (R327). -/
def groupBytes (id : List Byte) (frame preroll : Nat) (items : List (Nat × Nat × List Byte)) : List Byte :=
  items.zipIdx.flatMap fun e =>
    let last := if e.2 + 1 = items.length then 1 else 0
    recordBytes id e.1.1 e.1.2.1 (last + 2 * preroll) frame e.1.2.2

/-! ### Frame digests (R273 to R275) -/

/-- A metadata record as it is hashed: bytes 0x10 to 0x2F are zero (R273). -/
def metaHashed (b : List Byte) : List Byte := b.take 0x10 ++ zeros 0x20 ++ b.drop 0x30

/-- A digest entry of KIND, INDEX, LENGTH and digest (R275). -/
def digestEntry (e : Nat × Nat × Nat × List Byte) : List Byte :=
  leBytes 1 e.1 ++ leBytes 1 e.2.1 ++ [0, 0] ++ leBytes 4 e.2.2.1 ++ e.2.2.2

/-- A frame digest record, without its padding (R275). -/
def digestRecord (frame : Nat) (es : List (Nat × Nat × Nat × List Byte)) : List Byte :=
  let body := leBytes 4 0x44465A4B ++ leBytes 2 1 ++ leBytes 2 es.length ++ leBytes 8 frame ++ zeros 16 ++ es.flatMap digestEntry
  body ++ leBytes 4 (crc32c body)

/-- A drop record's payload (R336). -/
def dropPayload (cause : Nat) (hash : List Byte) : List Byte := leBytes 1 cause ++ zeros 7 ++ padTo 48 hash

/-! ### The digest chain (R338) -/

/-- The value that the chain starts from. -/
def chainStart (first : Nat) : List Byte := sha384 (leBytes 8 first)

/-- An entry put in its place in ascending frame number. -/
def chainInsert (e : Nat × List Byte) : List (Nat × List Byte) → List (Nat × List Byte)
  | [] => [e]
  | x :: t => if e.1 ≤ x.1 then e :: x :: t else x :: chainInsert e t

/-- Frames with their hashes in ascending frame number. -/
def chainSorted (l : List (Nat × List Byte)) : List (Nat × List Byte) := l.foldr chainInsert []

/-- The values of the chain at each of its frames, from the value before them. -/
def chainValues (c : List Byte) : List (Nat × List Byte) → List (Nat × List Byte)
  | [] => []
  | (f, h) :: t => let c1 := sha384 (c ++ h); (f, c1) :: chainValues c1 t

/-- The chain's value over every frame. -/
def chainEnd (first : Nat) (l : List (Nat × List Byte)) : List Byte :=
  (chainSorted l).foldl (fun c e => sha384 (c ++ e.2)) (chainStart first)

/-- A chain record's payload. -/
def chainPayload (es : List (Nat × List Byte)) : List Byte :=
  leBytes 4 es.length ++ zeros 4 ++ es.flatMap fun e => leBytes 8 e.1 ++ e.2

/-! ### Index segments and banks (R331, R332) -/

/-- An entry of an index segment. -/
def indexEntryBytes (e : IndexEntry) : List Byte :=
  leBytes 8 e.frame ++ leBytes 8 e.offset ++ leBytes 4 e.length ++ leBytes 1 e.kind ++ leBytes 1 e.flags ++ [0, 0]

/-- An index segment. -/
def segmentPayload (prev : Nat) (es : List IndexEntry) : List Byte :=
  leBytes 8 prev ++ leBytes 4 es.length ++ zeros 4 ++ es.flatMap indexEntryBytes

/-- The entries of an index segment read back. -/
def segmentEntries (b : List Byte) : List IndexEntry :=
  (List.range (leAt b 8 4)).map fun i =>
    let o := 16 + 24 * i
    ⟨leAt b o 8, leAt b (o + 8) 8, leAt b (o + 16) 4, leAt b (o + 20) 1, leAt b (o + 21) 1⟩

/-- An index bank of a reel with a STATE and a sequence number: it describes the reel below END (R331). -/
def bankBytes (r : ReelSt) (state seq : Nat) : List Byte :=
  let body := leBytes 4 0x42495A4B ++ leBytes 2 1 ++ leBytes 1 state ++ [0] ++ leBytes 8 seq ++ leBytes 8 r.endOff
    ++ leBytes 8 r.lastIndex ++ leBytes 8 r.endGroups ++ leBytes 8 r.endFirst ++ leBytes 8 r.endLast ++ leBytes 4 r.endDrops
    ++ zeros 4 ++ leBytes 8 r.manifest
  let b := padTo 0xFFC body
  b ++ leBytes 4 (crc32c b)

/-- Whether an index bank is valid (R331). -/
def bankGood (b : List Byte) : Bool :=
  decide (leAt b 0 4 = 0x42495A4B) && decide (leAt b 4 2 = 1) && decide (leAt b 0xFFC 4 = crc32c (b.take 0xFFC))

/-! ### The manifest (R339) -/

/-- What a manifest takes from outside the reel: FW_BUILD, CERT_HASH, the time and the number of the signature. -/
structure ManifestCtx where
  fwBuild : Nat
  cert : List Byte
  time : Time
  seed : Nat

/-- A manifest; the signature is a free value of the bytes that it signs (R339, R474). DESIGN CHOICE (log 54). -/
def manifestPayload (r : ReelSt) (prov recovered : Bool) (c : ManifestCtx) : List Byte :=
  let flags := (if prov then 5 else 0) + if recovered then 2 else 0
  let body := leBytes 4 0x464D5A4B ++ leBytes 2 1 ++ leBytes 2 flags ++ padTo 16 r.id ++ slice r.header 0x18 16 ++ leBytes 4 c.fwBuild
    ++ leBytes 4 r.drops ++ leBytes 8 (r.first.getD 0) ++ leBytes 8 r.last ++ leBytes 8 r.groups ++ leBytes 8 r.tail
    ++ sha384 r.header ++ (if prov then chainEnd (r.first.getD 0) r.chain else zeros 48) ++ sha384 r.segments ++ timeBytes c.time
    ++ zeros 16 ++ padTo 48 c.cert
  body ++ (if prov then padTo 96 (Config.freeBytes 44 [c.seed, leNat (sha384 body)]) else zeros 96)

/-! ### What a flush point writes (R330) -/

/-- An index entry added. -/
def ReelSt.note (r : ReelSt) (e : IndexEntry) : ReelSt := { r with index := r.index ++ [e] }

/-- A record added to the bytes written so far and the reel's tail moved past it. -/
def ReelSt.append (r : ReelSt) (out : List Byte) (b : List Byte) : List Byte × ReelSt := (out ++ b, { r with tail := r.tail + b.length })

/-- The frames whose chain values are known: no lower-numbered frame is incomplete (R338). -/
def ReelSt.known (r : ReelSt) : List (Nat × List Byte) :=
  (chainSorted r.chain).filter fun e => r.todo.all fun f => decide (e.1 < f)

/-- The chain record of a flush point (R338). -/
def ReelSt.writeChain (r : ReelSt) (out : List Byte) : List Byte × ReelSt :=
  let values := (chainValues (chainStart (r.first.getD 0)) r.known).filter fun e => !r.chained.contains e.1
  let b := recordBytes r.id 8 0 0 0 (chainPayload values)
  let r1 := (r.note ⟨0, r.tail, b.length, 8, 0⟩).append out b
  (r1.1, { r1.2 with chained := r1.2.chained ++ values.map (·.1) })

/-- An index segment of at most 4,096 entries (R332). -/
def ReelSt.writeSegment (r : ReelSt) (out : List Byte) : List Byte × ReelSt :=
  let p := segmentPayload r.lastIndex (r.index.take 4096)
  let r1 := r.append out (recordBytes r.id 9 0 0 0 p)
  (r1.1, { r1.2 with index := r.index.drop 4096, lastIndex := r.tail, segments := r.segments ++ p })

/-- The index segments of a flush point, which list every entry (R332). -/
def ReelSt.writeSegments (r : ReelSt) (out : List Byte) : Nat → List Byte × ReelSt
  | 0 => (out, r)
  | n + 1 =>
    let w := r.writeSegment out
    if w.2.index.isEmpty then w else w.2.writeSegments w.1 n

/-- The manifest of a close (R339). -/
def ReelSt.writeManifest (r : ReelSt) (prov recovered : Bool) (c : ManifestCtx) (out : List Byte) : List Byte × ReelSt :=
  ({ r with manifest := r.tail } : ReelSt).append out (recordBytes r.id 11 0 0 0 (manifestPayload r prov recovered c))

/-- The pad record up to the next 64 KiB boundary, which becomes END; none is needed on a boundary (R330). -/
def ReelSt.writePad (r : ReelSt) (out : List Byte) : List Byte × ReelSt :=
  let e := roundUp r.tail 65536
  let w := if e = r.tail then (out, r) else r.append out (recordBytes r.id 10 0 0 0 (zeros (e - r.tail - 32)))
  (w.1, { w.2 with
    endOff := e, endGroups := w.2.groups, endFirst := w.2.first.getD 0, endLast := w.2.last, endDrops := w.2.drops })

/-- Step 1 of a flush point: the bytes from the tail on, and the reel after them (R330, R339). -/
def ReelSt.flushPoint (r : ReelSt) (prov close recovered : Bool) (c : ManifestCtx) : List Byte × ReelSt :=
  let a := if prov then r.writeChain [] else ([], r)
  let b := a.2.writeSegments a.1 (a.2.index.length / 4096 + 1)
  let d := if close then b.2.writeManifest prov recovered c b.1 else b
  d.2.writePad d.1

/-! ### Reading records back (R334) -/

/-- A record as a scan finds it: offset, whole length, TYPE, INDEX, FLAGS, FRAME and payload. -/
structure FoundRecord where
  off : Nat
  len : Nat
  type : Nat
  index : Nat
  flags : Nat
  frame : Nat
  payload : List Byte
  deriving DecidableEq, Repr, Inhabited

/-- The record at an offset, from a function that reads the reel; none when a check fails (R334). -/
def recordAt (read : Nat → Nat → List Byte) (size : Nat) (tag : List Byte) (off : Nat) : Option FoundRecord :=
  let h := read off 32
  let n := leAt h 0x10 4
  if size < off + 32 + n ∨ leAt h 0 4 ≠ 0x43525A4B ∨ slice h 0x18 4 ≠ tag ∨ leAt h 0x1C 4 ≠ crc32c (h.take 0x1C) then none
  else
    let p := read (off + 32) n
    if leAt h 0x14 4 ≠ crc32c p then none
    else some ⟨off, roundUp (32 + n) 64, leAt h 4 1, leAt h 5 1, leAt h 6 2, leAt h 8 8, p⟩

/-- The records from an offset on up to the first that fails. -/
def scanRecords (read : Nat → Nat → List Byte) (size : Nat) (tag : List Byte) : Nat → Nat → List FoundRecord
  | 0, _ => []
  | n + 1, off =>
    match recordAt read size tag off with
    | none => []
    | some r => r :: scanRecords read size tag n (off + r.len)

/-- Records gathered into units: a record between groups, or a whole frame group; an incomplete group and what follows it are left
out (R327, R334). -/
def gatherUnits : List FoundRecord → List FoundRecord → List (List FoundRecord)
  | _, [] => []
  | open_, r :: t =>
    if decide (r.type ≤ 5) && open_.all (fun o => decide (o.frame = r.frame)) then
      let g := open_ ++ [r]
      if r.flags % 2 = 1 then g :: gatherUnits [] t else gatherUnits g t
    else if open_.isEmpty ∧ 6 ≤ r.type then [r] :: gatherUnits [] t
    else []

end Sys2Proof.Machine
end

