-- ==== Sys2Proof/Machine/Recorder.lean ====
section
/-! DEFINITION. The Recorder (R324 to R341, R473): opening a reel, frame groups, drops, host metadata, flush points, failure of the
media, closing, recovery and review; and where an encoder begins a frame, since the Recorder may have to give up a buffer for it
(R212, R251, R335). -/

namespace Sys2Proof.Machine

/-! ### The open reel -/

/-- The Recorder's open reel. -/
def State.reel (s : State) : ReelSt := s.media.reel

/-- A RECORDER selection bit. -/
def State.digests (s : State) : Bool := s.on Pg.recorder Reg.RECORDER_CFG_DIGESTS

/-- PROVENANCE. -/
def State.provenance (s : State) : Bool := s.on Pg.recorder Reg.RECORDER_CFG_PROVENANCE

/-- The renditions with KIND 4 digests (R274). -/
def State.digestRends (s : State) : List Nat :=
  (List.range 8).filter fun n => (s.fld Pg.recorder Reg.RECORDER_CFG_DIGEST_REND).testBit n && s.rendRuns n

/-- STATE.PHASE, STATE.NSID, CHAIN_PENDING and QUEUED of RECORDER (R338, R342). The Recorder is idle while a take or a review runs with no
reel open, and stopped otherwise. DEDUCED (log 59). -/
def State.showRecorder (s : State) : State :=
  let r := s.reel
  let c := Pg.recorder
  let phase := if r.isOpen then (if r.closing then 3 else 2) else if s.media.review.active then 4
    else if s.on c Reg.RECORDER_CTRL_ENABLE && (s.ctl.capRun || decide (s.ctl.mode = .review)) then 1 else 0
  let ns := if r.isOpen then r.nsid else if s.media.review.active then s.fld c Reg.RECORDER_REVIEW_NS_NSID else 0
  let wait := if r.isOpen && s.provenance then r.chain.length - r.known.length else 0
  (((s.setFld c Reg.RECORDER_STATE_PHASE phase).setFld c Reg.RECORDER_STATE_NSID ns).setFld c Reg.RECORDER_CHAIN_PENDING
    (min 65535 wait)).showQueued

/-! ### Failure of the media (R320, R337) -/

/-- A port becomes FAILED; while a reel is open on the volume the reel is failed, and its waiting APPEND METADATA commands end with status
0x30 (R313, R320, R337). DEDUCED (log 56). -/
def State.portFail (s : State) (k : Nat) : State :=
  let s1 := (s.setMport k 5).putDrive k { s.drive k with writes := [], retried := false, again := [] }
  let r := s1.reel
  if r.isOpen && !r.failed && s1.mountedPorts.contains k then
    let s2 := s1.setReel { r with failed := true, appends := [], flush := .idle, part := [], partOf := [] }
    (r.appends.foldl (fun (s : State) a => s.finish a.1 0x30 0 0) s2).raise Pg.recorder Reg.RECORDER_EVENT_MEDIA_FAIL
  else s1

/-- Bytes written at a reel offset. Field Stop refuses a range that passes the extent of the open reel, which counts as an unrecoverable
write error (R473). -/
def State.reelWrite (s : State) (frames : List Nat) (fua : Bool) (off : Nat) (data : List Byte) : State :=
  let r := s.reel
  if off + data.length ≤ r.size then s.volWrite frames fua data.length (r.start + off) data
  else
    let s1 := (s.count Pg.guard Reg.GUARD_MEDIA_DENY_COUNT).raise Pg.guard Reg.GUARD_EVENT_MEDIA_DENY
    match s.media.vol with
    | some v => s1.portFail (v.place (r.start + r.size)).1
    | none => s1

/-- The logical block in which the Recorder writes: the larger one of the volume's drives (R319, R330). -/
def State.lbaBytes (s : State) : Nat := (s.mountedPorts.map fun k => 2 ^ s.fld (Pg.media k) Reg.MEDIA_LBA).foldl max 1

/-- Bytes written at the tail of the open reel in whole logical blocks; what does not fill one waits for the bytes that follow it, so that
no block is written twice (R330). DESIGN CHOICE (log 57). -/
def State.reelAppend (s : State) (frames : List Nat) (data : List Byte) : State :=
  let r := s.reel
  let b := r.part ++ data
  let n := b.length / s.lbaBytes * s.lbaBytes
  let held := if n = 0 then r.partOf ++ frames else if n = b.length then [] else frames
  let s1 := s.reelWrite (r.partOf ++ frames) false (r.tail - r.part.length) (b.take n)
  if s1.reel.failed then s1 else s1.setReel { s1.reel with part := b.drop n, partOf := held }

/-! ### Records in memory -/

/-- The canonical form of the raw record of a frame, gathered from its buffer (R210, R211). -/
def State.rawCanonical (s : State) (j : Nat) : List Byte :=
  let sh := s.rawShape
  let base := s.recAddr j
  let head := s.peekN base sh.dataStart
  let tiles := (List.range sh.tiles).flatMap fun t => s.peekN (base + sh.sparse t) (leAt head (0x80 + 16 * t) 4)
  padTo (leAt head 0x10 4) (head ++ tiles)

/-- The HEVC frame record in a buffer of a stream (R251). -/
def State.hevcRecord (s : State) (k j : Nat) : List Byte :=
  let a := s.esAddr k j
  s.peekN a (64 + s.peekLe (a + 0x18) 4)

/-! ### Audio records (R328, R411) -/

/-- The ring of an audio port: its address and size. -/
def State.audRing (s : State) (a : Nat) : Nat × Nat :=
  let p := Pg.aud a
  (4096 * s.fld p Reg.AUD_RING_BASE_LO + 2 ^ 32 * s.fld p Reg.AUD_RING_BASE_HI, s.fld p Reg.AUD_RING_BYTES)

/-- B of an audio port (R409). -/
def State.audB (s : State) (a : Nat) : Nat := if s.on (Pg.aud a) Reg.AUD_FORMAT_PACK then 3 else 4

/-- `n` bytes of a port's ring from a place in bytes since ENABLE, which continue at the ring's start. -/
def State.audBytes (s : State) (a pos n : Nat) : List Byte :=
  let ring := s.audRing a
  let st := s.aud.get a
  (List.range n).map fun i => s.peek (ring.1 + (st.base + pos + i) % max 1 ring.2)

/-- Whether a sample frame still stands in its ring. DEDUCED (log 58). -/
def State.audHas (s : State) (a : Nat) (e : AudFrame) : Bool := decide ((s.aud.get a).pos ≤ e.pos + (s.audRing a).2)

/-- SOF_TIME of a frame of the take. -/
def State.sofOf (s : State) (f : Nat) : Option Time := (s.ingress.sofs.find? fun e => decide (e.1 = f)).map (·.2)

/-- The payload of a port's audio record of a frame (R328). DEDUCED (log 58). -/
def State.audioRecord (s : State) (a f : Nat) : List Byte :=
  let t0 := ((s.sofOf f).getD {}).ticks
  let inside := fun (e : AudFrame) =>
    decide (t0 ≤ e.time.ticks) && (match s.sofOf (f + 1) with | some t => decide (e.time.ticks < t.ticks) | none => true)
      && s.audHas a e
  let es := ((s.aud.get a).frames.filter inside).reverse
  timeBytes ((es.head?.map (·.time)).getD {}) ++ leBytes 4 es.length ++ zeros 12
    ++ es.flatMap fun e => s.audBytes a e.pos (e.ch * s.audB a)

/-- The audio ports of a reel: the capture ports that its header names (R325, R328). DEDUCED (log 58). -/
def ReelSt.audioPorts (r : ReelSt) : List Nat := (List.range 4).filter fun a => decide (leAt r.header (0x200 + 16 * a) 1 = 1)

/-- Whether the samples of a frame are complete: the next frame has started, or the take runs no more. -/
def State.audioReady (s : State) (f : Nat) : Bool := (s.sofOf (f + 1)).isSome || !s.on Pg.global Reg.GLOBAL_STATE_TAKE

/-! ### Items of a frame group (R274, R327) -/

/-- An item of a group whose buffer is gone. -/
def State.hashOf (s : State) (f kind index : Nat) : Option (Nat × List Byte) :=
  (s.reel.hashes.find? fun e => decide (e.1 = f) && decide (e.2.1 = kind) && decide (e.2.2.1 = index)).map fun e => e.2.2.2

/-- The metadata record of a frame. -/
def State.metaOf (s : State) (f : Nat) : Option (List Byte) := (s.reel.metas.find? fun e => decide (e.1 = f)).map (·.2)

/-- The streams whose access unit of a frame is recorded: none for a held pre-roll frame (R244, R274). -/
def State.groupStreams (s : State) (f : Nat) : List Nat := if s.reel.preroll.contains f then [] else s.streams

/-- The renditions whose frame is digested. -/
def State.groupRends (s : State) (f : Nat) : List Nat :=
  if s.reel.preroll.contains f ∨ s.digests = false then [] else s.digestRends

/-- Whether the raw record of a frame is in its buffer. -/
def State.rawIn (s : State) (f : Nat) : Bool := match s.recOf f with | some b => b.2.2 | none => false

/-- Whether the access unit of a frame is in its buffer. -/
def State.auIn (s : State) (k f : Nat) : Bool := match s.esOf k f with | some b => b.2.2 | none => false

/-- Whether a rendition frame is complete and held for its digest. -/
def State.rendIn (s : State) (n f : Nat) : Bool :=
  decide (s.outH n ≤ s.published n f) && s.split.holds.any fun h => decide (h = (Reader.hold 0, n, f))

/-- Whether the last item of a frame group is in DRAM (R329). -/
def State.groupReady? (s : State) (f : Nat) : Bool :=
  (s.metaOf f).isSome && (!s.rawOn || s.rawIn f || (s.hashOf f 2 0).isSome)
    && (s.groupStreams f).all (fun k => s.auIn k f || (s.hashOf f 3 k).isSome)
    && (s.groupRends f).all (fun n => s.rendIn n f || (s.hashOf f 4 n).isSome) && s.audioReady f

/-- A digest of bytes: their number and SHA-384 (R273). -/
def digestOf (b : List Byte) : Nat × List Byte := (b.length, sha384 b)

/-- The digest entries of a frame in ascending KIND and INDEX (R275). -/
def State.digestEntries (s : State) (f : Nat) : List (Nat × Nat × Nat × List Byte) :=
  let entry := fun (kind index : Nat) (b : Unit → List Byte) =>
    let d := (s.hashOf f kind index).getD (digestOf (b ()))
    [(kind, index, d.1, d.2)]
  entry 1 0 (fun _ => metaHashed ((s.metaOf f).getD []))
    ++ (if s.rawOn then entry 2 0 fun _ => s.rawCanonical (((s.recOf f).map (·.1)).getD 0) else [])
    ++ (s.groupStreams f).flatMap (fun k => entry 3 k fun _ => s.hevcRecord k (((s.esOf k f).map (·.1)).getD 0))
    ++ (s.groupRends f).flatMap fun n => entry 4 n fun _ => s.peekN (s.bufAddr n f) (s.rendBytes n)

/-- The digest record of a frame (R275). -/
def State.digest (s : State) (f : Nat) : List Byte := digestRecord f (s.digestEntries f)

/-- The records of a frame group as TYPE, INDEX and payload (R327). -/
def State.groupItems (s : State) (f : Nat) : List (Nat × Nat × List Byte) :=
  [(1, 0, (s.metaOf f).getD [])]
    ++ (if s.rawOn then [(2, 0, s.rawCanonical (((s.recOf f).map (·.1)).getD 0))] else [])
    ++ (s.groupStreams f).map (fun k => (3, k, s.hevcRecord k (((s.esOf k f).map (·.1)).getD 0)))
    ++ s.reel.audioPorts.map (fun a => (5, a, s.audioRecord a f))
    ++ if s.digests then [(4, 0, s.digest f)] else []

/-! ### Releasing buffers (R212, R251, R335) -/

/-- Whether a frame's group is neither awaited nor being written. -/
def State.frameOver (s : State) (f : Nat) : Bool :=
  !s.reel.todo.contains f && !s.reel.partOf.contains f && !(s.outstanding.any fun w => w.frames.contains f)

/-- The buffers of frames that the Recorder has written or given up are released. -/
def State.releaseOver (s : State) : State :=
  let s1 := ((s.draw.bufs.filter fun b => b.2.2 && s.frameOver b.2.1).map (·.2.1)).foldl (fun (s : State) f => s.recRelease f) s
  let s2 := s1.streams.foldl
    (fun (s : State) k =>
      (((s.stream k).bufs.filter fun b => b.2.2 && s.frameOver b.2.1).map (·.2.1)).foldl (fun (s : State) f => s.esRelease k f) s) s1
  let done := s2.split.holds.filter fun h => decide (h.1 = Reader.hold 0) && s2.frameOver h.2.2
  (done.foldl (fun (s : State) h => s.freeBuf (.hold 0) h.2.1 h.2.2) s2).showQueued

/-- A digest kept for a frame whose buffer is given up. -/
def State.keepHash (s : State) (f kind index : Nat) (d : Nat × List Byte) : State :=
  s.setReel { s.reel with hashes := (f, kind, index, d) :: s.reel.hashes }

/-- The complete items of a dropped group give up their buffers, after their digests have been taken (R335, R336). -/
def State.giveUp (s : State) (f : Nat) : State :=
  let hash := fun (s : State) kind index (b : List Byte) => s.keepHash f kind index (if s.digests then digestOf b else (0, []))
  let s1 := if s.rawIn f then (hash s 2 0 (s.rawCanonical (((s.recOf f).map (·.1)).getD 0))).recRelease f else s
  let s2 := ((s1.groupStreams f).filter fun k => s1.auIn k f).foldl
    (fun (s : State) k => (hash s 3 k (s.hevcRecord k (((s.esOf k f).map (·.1)).getD 0))).esRelease k f) s1
  ((s2.groupRends f).filter fun n => s2.rendIn n f).foldl
    (fun (s : State) n => (hash s 4 n (s.peekN (s.bufAddr n f) (s.rendBytes n))).freeBuf (.hold 0) n f) s2

/-! ### Drops (R335, R336) -/

/-- The Recorder drops a frame group: 1 backlog, 2 reel full, 3 media failed (R335, R336). -/
def State.dropGroup (s : State) (f cause : Nat) : State :=
  let s1 := s.giveUp f
  let r := s1.reel
  let c := Pg.recorder
  let due := decide (cause ≠ 3) && !s1.fenced
  let mib := ceilDiv s1.queuedBytes 1048576
  let s2 := s1.setRec { s1.media with
    reel := { r with drops := r.drops + 1, dropped := (f, cause, due) :: r.dropped }
    drops := (⟨f, r.nsid, cause, mib⟩ :: s1.media.drops).take 256
    dropTotal := s1.media.dropTotal + 1 }
  (s2.count c Reg.RECORDER_DROPS).raise c Reg.RECORDER_EVENT_DROP

/-- The Recorder gives up the buffer of a frame whose group has not begun to be written. `held` says that the record is complete, so that the
Recorder holds the buffer (R335). -/
def State.yieldBuffer (s : State) (held : Bool) (f : Nat) : State :=
  if s.reel.todo.contains f = false ∨ held = false then s
  else if s.reel.dropped.any fun d => decide (d.1 = f) then s.giveUp f
  else s.dropGroup f 1

/-- The record of a frame noted in the reel's range of frame numbers. -/
def ReelSt.span (r : ReelSt) (f : Nat) : ReelSt :=
  { r with first := some (match r.first with | some a => min a f | none => f), last := max r.last f }

/-- A frame is no longer awaited: it has been written or given up. -/
def ReelSt.forget (r : ReelSt) (f : Nat) : ReelSt :=
  { r with
    todo := r.todo.filter fun x => decide (x ≠ f)
    preroll := r.preroll.filter fun x => decide (x ≠ f)
    dropped := r.dropped.filter fun d => decide (d.1 ≠ f)
    waiting := r.waiting.filter fun e => decide (e.1 ≠ f)
    metas := r.metas.filter fun e => decide (e.1 ≠ f)
    hashes := r.hashes.filter fun e => decide (e.1 ≠ f) }

/-- A record that stands between groups is written, indexed by TYPE; its offset was the tail. -/
def State.writeBetween (s : State) (type frame : Nat) (payload : List Byte) : State :=
  let r := s.reel
  let b := recordBytes r.id type 0 0 frame payload
  let s1 := s.reelAppend [] b
  s1.setReel
    { s1.reel with
      tail := r.tail + b.length, index := r.index ++ [⟨frame, r.tail, b.length, type, 0⟩] }

/-- A dropped frame whose items are complete is done with: its drop record is written unless the reel is failed or has passed SIZE −
1 MiB (R336). -/
def State.endDrop (s : State) (f cause : Nat) (due : Bool) : State :=
  let r := s.reel
  if due && !r.failed && decide (r.tail ≤ r.size - 1048576) then
    let h := if s.digests then sha384 (s.digest f) else zeros 48
    let s1 := s.writeBetween 7 f (dropPayload cause h)
    let r1 := (s1.reel.forget f).span f
    s1.setReel (if s.digests then { r1 with chain := (f, h) :: r1.chain } else r1)
  else s.setReel (r.forget f)

/-! ### Flush points (R330 to R333) -/

/-- Words of the SECURITY page as bytes. -/
def State.securityBytes (s : State) (f : Nat → Fld) (n : Nat) : List Byte :=
  (List.range n).flatMap fun i => leBytes 4 (s.fld Pg.security (f i))

/-- SERIAL of this device (R307). -/
def State.serial (s : State) : List Byte := s.securityBytes Reg.SECURITY_SERIAL 4

/-- What a manifest of this device takes from outside the reel. -/
def State.manifestCtx (s : State) : ManifestCtx :=
  ⟨s.fld Pg.global Reg.GLOBAL_FW_BUILD, s.securityBytes Reg.SECURITY_CERT_HASH 12, s.time, s.seed⟩

/-- A manifest is signed with the device identity key while PROVENANCE is 1 (R339, R474). -/
def State.countSign (s : State) (signed : Bool) : State :=
  if signed then { (s.count Pg.security Reg.SECURITY_SIGN_COUNT) with seed := s.seed + 1 } else s

/-- Step 1 of a flush point (R330). -/
def State.beginFlush (s : State) (close : Bool) : State :=
  let r := s.reel
  let prov := s.provenance
  let w := r.flushPoint prov close false s.manifestCtx
  let s1 := (s.reelAppend [] w.1).countSign (close && prov)
  (s1.setReel { w.2 with
    failed := s1.reel.failed
    part := s1.reel.part
    partOf := s1.reel.partOf
    appends := s1.reel.appends
    flush := if s1.reel.failed then .idle else .writing
    lastFlush := close }).showRecorder

/-- Whether the Recorder may begin a flush point. -/
def State.canFlush (s : State) : Bool :=
  let r := s.reel
  r.isOpen && !r.failed && !s.fenced && decide (r.flush = .idle) && !r.lastFlush

/-- Whether everything that a closing reel waits for has been written or given up (R140, R339). -/
def State.drained (s : State) : Bool := s.reel.todo.isEmpty && s.ingress.catchup.isEmpty

/-- The last flush point of a closing reel begins once its groups are written; a full
segment, with the chain record it is about to list, forces a flush point (R332, R339). -/
def State.pushFlush (s : State) : State :=
  if s.canFlush then
    if s.reel.closing && s.drained then s.beginFlush true
    else if 4096 ≤ s.reel.index.length + (if s.provenance then 1 else 0) then s.beginFlush false
    else s
  else s

/-- FLUSH.PERIOD passes (R330). DESIGN CHOICE (log 3). -/
def State.flushTimer (s : State) : State :=
  let r := s.reel
  if s.canFlush && !(r.closing && s.drained) && decide (max recordsFrom r.endOff < r.tail) then s.beginFlush false else s.pushFlush

/-- FLUSH_TIMER (R330). -/
def execFlushTimer (s : State) : Host.Outcome State Fault Refusal := .next s.flushTimer

/-- Whether a Write of the open reel below an offset is outstanding. -/
def State.writesBelow (s : State) (off : Nat) : Bool :=
  let r := s.reel
  s.outstanding.any fun w => !w.data.isEmpty && decide (r.start ≤ w.vol) && decide (w.vol < r.start + off)

/-- Step 2 of a flush point: every write below END has completed, and a Flush goes to every drive (R330). -/
def State.flushDrives (s : State) : State :=
  let r := s.reel
  if r.isOpen && decide (r.flush = .writing) && !s.fenced && !s.writesBelow r.endOff then
    s.mountedPorts.foldl
      (fun (s : State) k =>
        let d := s.drive k
        s.putDrive k { d with writes := d.writes ++ [{ id := d.nextId }], nextId := d.nextId + 1 })
      (s.setReel { r with flush := .flushing })
  else s

/-- FLUSH_WRITES_DONE (R330). -/
def execFlushWritesDone (s : State) : Host.Outcome State Fault Refusal := .next s.flushDrives

/-- The offset of the index bank with a sequence number: the first bank of a reel is bank 0 (R324, R331). -/
def bankOff (seq : Nat) : Nat := if seq % 2 = 1 then 0x10000 else 0x20000

/-- Step 3 of a flush point: every Flush has completed, and the index bank is written (R330, R331). -/
def State.writeIndexBank (s : State) : State :=
  let r := s.reel
  if r.isOpen && decide (r.flush = .flushing) && !s.fenced && !(s.outstanding.any fun w => w.data.isEmpty) then
    let seq := r.bankSeq + 1
    let s1 := s.reelWrite [] true (bankOff seq) (bankBytes r (if r.lastFlush then 3 else 2) seq)
    s1.setReel { s1.reel with flush := .banking, bankSeq := seq }
  else s

/-- FLUSH_DONE (R330). -/
def execFlushDone (s : State) : Host.Outcome State Fault Refusal := .next s.writeIndexBank

/-- Step 4 of a flush point: the bank write has completed, END moves, and the APPEND METADATA commands whose records lie below it complete
(R330, R333). -/
def State.bankDone (s : State) : State :=
  let r := s.reel
  if r.isOpen && decide (r.flush = .banking) && !s.writesBelow 0x30000 then
    let below := fun (n : Nat) => decide (n ≤ r.endOff)
    let ms := (r.times.filter fun t => below t.1).map fun t => (s.time.ticks - t.2.ticks) / (1000000 * tickNs)
    let c := Pg.recorder
    let worst := ms.foldl max (s.fld c Reg.RECORDER_MAX_LAT)
    let s1 := (s.setFld64 c Reg.RECORDER_END_LO Reg.RECORDER_END_HI r.endOff).setFld c Reg.RECORDER_MAX_LAT (min 65535 worst)
    let done := r.appends.filter fun a => below a.2.2
    let s2 := s1.setReel { r with
      flush := .idle
      times := r.times.filter fun t => !below t.1
      appends := r.appends.filter fun a => !below a.2.2
      closed := r.lastFlush }
    (done.foldl (fun (s : State) a => s.finish a.1 0 (a.2.1 % 2 ^ 32) 0) s2).pushFlush.showRecorder
  else s

/-- INDEX_BANK_DONE (R330). -/
def execIndexBankDone (s : State) : Host.Outcome State Fault Refusal := .next s.bankDone

/-! ### Frame groups (R329, R335) -/

/-- The frame whose group is taken next: the lowest live frame whose items are complete, else the lowest held one (R329). DESIGN CHOICE (log
57). -/
def State.nextGroup (s : State) : Option Nat :=
  let ready := s.reel.todo.filter fun f => s.groupReady? f && !s.reel.waiting.any fun e => decide (e.1 = f)
  match ready.find? fun f => !s.reel.preroll.contains f with
  | some f => some f
  | none => ready.head?

/-- A frame group is written at the tail (R326, R327, R332). -/
def State.putGroup (s : State) (f : Nat) (b : List Byte) : State :=
  let r := s.reel
  let pre := if r.preroll.contains f then 1 else 0
  let h := if s.digests then [(f, sha384 (s.digest f))] else []
  let since := ((r.waiting.find? fun e => decide (e.1 = f)).map (·.2.2)).getD s.time
  let s1 := s.reelAppend [f] b
  let r1 := (s1.reel.forget f).span f
  s1.setReel { r1 with
    tail := r.tail + b.length
    index := r.index ++ [⟨f, r.tail, b.length, 1, pre⟩]
    groups := r.groups + 1
    chain := h ++ r.chain
    times := r.times ++ [(r.tail + b.length, since)] }

/-- The records of a frame's group (R326, R327). -/
def State.groupOf (s : State) (f : Nat) : List Byte :=
  groupBytes s.reel.id f (if s.reel.preroll.contains f then 1 else 0) (s.groupItems f)

/-- The turn of a complete group has come: it is written, or dropped when the reel is failed or would pass SIZE − 8 MiB; of a group that has
been dropped the drop record is due (R329, R335, R336). -/
def State.takeGroup (s : State) (f : Nat) : State :=
  let r := s.reel
  match r.dropped.find? fun d => decide (d.1 = f) with
  | some d => s.endDrop f d.2.1 d.2.2
  | none =>
    if r.failed then (s.dropGroup f 3).endDrop f 3 false
    else
      let b := s.groupOf f
      if r.size - 8388608 < r.tail + b.length then
        let s1 := (s.dropGroup f 2).endDrop f 2 true
        let s2 := s1.setReel { s1.reel with full := true }
        s2.raise Pg.recorder Reg.RECORDER_EVENT_REEL_FULL
      else s.putGroup f b

/-- Complete groups take their turn, in the order in which they completed, while no Write of the reel is outstanding: the next group begins
to be written when the one before is on the media (R329, R335). A fenced Recorder holds what it has (R499). DESIGN CHOICE (log 57). -/
def State.takeGroups (s : State) : Nat → State
  | 0 => s
  | n + 1 =>
    match s.reel.waiting with
    | [] => s
    | e :: _ =>
      if s.reel.isOpen = false ∨ s.fenced ∨ (s.reel.failed = false ∧ s.writesBelow s.reel.size) then s
      else (s.takeGroup e.1).takeGroups n

/-- The Recorder goes on with complete groups; buffers that it no longer needs are released, and a flush point that is due begins (R329,
R330, R335). DEDUCED (log 59). -/
def State.recorderOn (s : State) : State := (s.takeGroups s.reel.waiting.length).releaseOver.pushFlush.showRecorder

/-- The last record of the next group is in DRAM: the group waits for its turn (R329). DESIGN CHOICE (log 57). -/
def State.groupComplete (s : State) : State :=
  match s.nextGroup with
  | none => s
  | some f =>
    if s.reel.isOpen = false ∨ s.fenced then s
    else
      let n := if s.reel.dropped.any fun d => decide (d.1 = f) then 0 else (s.groupOf f).length
      (s.setReel { s.reel with waiting := s.reel.waiting ++ [(f, n, s.time)] }).recorderOn

/-- FRAME_GROUP_COMPLETE (R329). -/
def execFrameGroupComplete (s : State) : Host.Outcome State Fault Refusal := .next s.groupComplete

/-! ### Completions of drive commands (R318, R320) -/

/-- A port whose controller was reset returns to READY once every command issued again has completed (R320). DEDUCED (log 56). -/
def State.portBack (s : State) (k : Nat) : State :=
  let d := s.drive k
  if d.retried && !(d.writes.any fun w => d.again.contains w.id) && decide (s.mport k = 2) then
    ((s.putDrive k { d with retried := false, again := [] }).setMport k 3).raise (Pg.media k) Reg.MEDIA_EVENT_READY
  else s

/-- A drive as a completed command leaves it: a Flush makes what completed before it durable, and any other Write waits in the drive's
cache unless Force Unit Access carries it (R318, R330). -/
def DriveSt.take (d : DriveSt) (w : NvmeWrite) : DriveSt :=
  if w.data.isEmpty then { d with cache := d.cache.filter fun e => decide (w.id < e.id) }
  else
    let old : NvmeWrite := { w with id := d.nextId, data := d.mem.getN w.addr w.data.length }
    { d with mem := d.mem.setN w.addr w.data, cache := if w.fua then d.cache else d.cache ++ [old] }

/-- A drive command completes: its bytes are on the drive, or its error fails the port (R318, R320). DEDUCED (log 56). -/
def State.nvmeDone (s : State) (k id : Nat) (ok : Bool) : State :=
  let d := s.drive k
  let p := Pg.media k
  match d.writes.find? fun w => decide (w.id = id) with
  | none => s
  | some w =>
    let rest := d.writes.filter fun x => decide (x.id ≠ id)
    let s1 :=
      if ok then
        (s.putDrive k ({ d with writes := rest }.take w)).countWritten k w.data.length
      else (((s.putDrive k { d with writes := rest }).count p Reg.MEDIA_ERR_COUNT).raise p Reg.MEDIA_EVENT_CMD_ERR).portFail k
    (s1.portBack k).recorderOn

/-- NVME_COMPLETION (R318). -/
def execNvmeCompletion (port id : Nat) (ok : Bool) (s : State) : Host.Outcome State Fault Refusal :=
  .next (if 2 ≤ port then s else s.nvmeDone port id ok)

/-- A drive command gets no completion in time: the controller is reset once and the port leaves READY, and a second timeout before it
returns fails the port (R320). DESIGN CHOICE (log 3). DEDUCED (log 56). -/
def State.nvmeTimeout (s : State) (k id : Nat) : State :=
  let d := s.drive k
  let p := Pg.media k
  if d.writes.any fun w => decide (w.id = id) then
    let s1 := (s.count p Reg.MEDIA_TIMEOUTS).raise p Reg.MEDIA_EVENT_TIMEOUT
    if d.retried then (s1.portFail k).recorderOn else (s1.putDrive k { d with retried := true, again := d.writes.map (·.id) }).setMport k 2
  else s

/-- NVME_TIMEOUT (R320). -/
def execNvmeTimeout (port id : Nat) (s : State) : Host.Outcome State Fault Refusal :=
  .next (if 2 ≤ port then s else s.nvmeTimeout port id)

/-- A media link goes down: the port is FAILED (R320). -/
def State.mediaLinkDown (s : State) (k : Nat) : State :=
  if s.mport k = 0 then s
  else (((s.portDown k 5).raise (Pg.media k) Reg.MEDIA_EVENT_LINK_DOWN).portFail k).recorderOn

/-- MEDIA_LINK_DOWN (R320). -/
def execMediaLinkDown (port : Nat) (s : State) : Host.Outcome State Fault Refusal := .next (if 2 ≤ port then s else s.mediaLinkDown port)

/-! ### Where encoders begin (R212, R251, R335) -/

/-- The frame that the raw cores begin next: the live one that the shared read waits with, else the next held one. -/
def State.rawBegins (s : State) : Option (Nat × Bool) :=
  match s.rawNext with
  | some f => some (f, false)
  | none => if s.rawOn && s.draw.cat.isNone then s.ingress.catchup.head?.map fun f => (f, true) else none

/-- The raw cores begin a frame, once its buffer is released (R212, R335). -/
def State.drawFrameBegin (s0 : State) : State :=
  let s := s0.releaseOver
  match s.rawBegins with
  | none => s
  | some (f, c) =>
    let s1 := match s.recHolder with | some g => s.yieldBuffer (s.rawIn g) g | none => s
    (if s1.recHolder.isNone then s1.drawBegin f c else s1.drawStall f).showRecorder

/-- DRAW_FRAME_BEGIN (R212). -/
def execDrawFrameBegin (s : State) : Host.Outcome State Fault Refusal := .next s.drawFrameBegin

/-- A stream begins its next picture, once its first rows are published and its buffer is released (R251, R257, R335). -/
def State.hencBegin (s : State) (k : Nat) : State :=
  if s.streamOn k = false ∨ (s.stream k).cur.isSome ∨ s.ctl.capRun = false then s
  else
    let s1 := s.releaseOver.advanceGops k 64
    match s1.nextPic k with
    | none => s1
    | some f =>
      if s1.firstRow k = false then s1
      else
        let s2 := match s1.esHolder k with | some g => s1.yieldBuffer (s1.auIn k g) g | none => s1
        (if (s2.esHolder k).isNone then s2.picBegin k f else s2.picStall k f).showRecorder

/-- HENC_PICTURE_BEGIN (R251). -/
def execHencPictureBegin (stream : Nat) (s : State) : Host.Outcome State Fault Refusal := .next (s.hencBegin stream)

/-! ### Opening a reel (R325, R139) -/

/-- The stream table of a reel header (R325). -/
def State.headerStream (s : State) (k : Nat) : List Byte :=
  if s.streamOn k = false then zeros 32
  else
    let p := lead k
    let n := s.rendOf k
    padTo 32 (leBytes 1 1 ++ leBytes 1 n ++ leBytes 1 (s.fld p Reg.HENC_CFG_PROFILE) ++ leBytes 1 (s.fld p Reg.HENC_CFG_LEVEL)
      ++ leBytes 2 (s.outW n) ++ leBytes 2 (s.outH n) ++ leBytes 1 (s.outDepth n) ++ leBytes 1 (if s.outChroma n = 2 then 0 else 1)
      ++ leBytes 1 (s.fld p Reg.HENC_GOP_STRUCT) ++ [0] ++ leBytes 4 (s.fld p Reg.HENC_GOP_INTRA_PERIOD)
      ++ leBytes 4 (s.fld p Reg.HENC_ES_CAP))

/-- The sample rate of an FS code (R419). -/
def fsRate (code : Nat) : Nat := [44100, 48000, 88200, 96000, 176400, 192000].getD code 0

/-- The bits of a WORD code (R419). -/
def wordBits (code : Nat) : Nat := [16, 20, 24].getD code 0

/-- The channels of an audio port: the slots below SLOTS in the active mask (R409). -/
def State.audSlots (s : State) (a : Nat) : List Nat :=
  (List.range (s.fld (Pg.aud a) Reg.AUD_FORMAT_SLOTS + 1)).filter fun k => (s.actv (Pg.aud a) Reg.AUD_SLOT_MASK).testBit k

/-- The audio table of a reel header: capture ports that are enabled are recorded (R325). DEDUCED (log 58). -/
def State.headerAudio (s : State) (a : Nat) : List Byte :=
  let p := Pg.aud a
  if s.on p Reg.AUD_CTRL_ENABLE ∧ s.on p Reg.AUD_FORMAT_DIR = false then
    padTo 16 (leBytes 1 1 ++ leBytes 1 (s.audSlots a).length ++ leBytes 1 (wordBits (s.fld p Reg.AUD_FORMAT_WORD)) ++ leBytes 1 (s.audB a)
      ++ leBytes 4 (fsRate (s.fld p Reg.AUD_FORMAT_FS)))
  else zeros 16

/-- The reel header (R325). -/
def State.reelHeader (s : State) (nsid size b : Nat) (id : List Byte) : List Byte :=
  let c := s.manifestCtx
  let raw := if s.rawOn then (s.rd (Pg.drawctl * 0x1000 + 0x040)).toNat else 0
  let flags := (if s.digests then 1 else 0) + if s.provenance then 2 else 0
  let body := leBytes 4 0x4C525A4B ++ leBytes 2 1 ++ leBytes 2 nsid ++ padTo 16 id ++ padTo 16 s.serial ++ leBytes 4 c.fwBuild
    ++ leBytes 4 flags ++ leBytes 8 size ++ leBytes 8 b ++ leBytes 2 (s.fld Pg.ingress Reg.INGRESS_CATCHUP_LEFT) ++ zeros 2
    ++ leBytes 4 s.takeRate.1 ++ leBytes 4 s.takeRate.2 ++ leBytes 4 (s.rd (Pg.ingress * 0x1000 + 0x040)).toNat
    ++ leBytes 4 (s.rd (Pg.ingress * 0x1000 + 0x048)).toNat ++ leBytes 4 (s.rd (Pg.ingress * 0x1000 + 0x050)).toNat
    ++ leBytes 8 raw ++ timeBytes s.time
  let b := padTo 0xFFC (padTo 0x100 body ++ (List.range 8).flatMap s.headerStream ++ (List.range 4).flatMap s.headerAudio)
  b ++ leBytes 4 (crc32c b)

/-- A reel opens for a recording from boundary frame `b`, after Ingress has held the pre-roll frames (R139, R324, R325). DEDUCED (log 55).
-/
def State.openReel (s : State) (b : Nat) : State :=
  let nsid := s.fld Pg.recorder Reg.RECORDER_REEL
  let e := s.dirEntry nsid
  if s.on Pg.recorder Reg.RECORDER_CTRL_ENABLE = false ∨ s.reel.isOpen then s
  else
    let id := padTo 16 (Config.freeBytes 43 [s.seed])
    let held := s.ingress.catchup
    let metas := held.filterMap fun f => (s.slotOf f).map fun j => (f, s.peekN (s.slotAddr j) 8192)
    let h := s.reelHeader nsid e.size b id
    let r : ReelSt := { isOpen := true, nsid := nsid, start := e.start, size := e.size, id := id, header := h, tail := recordsFrom,
                        todo := held, preroll := held, metas := metas }
    let s1 : State := { (s.setRec { s.media with reel := r, drops := [], dropTotal := 0 }) with seed := s.seed + 1 }
    let s2 := (s1.reelWrite [] false 0 h).setEntry nsid { e with state := 2 }
    ((s2.setFld64 Pg.recorder Reg.RECORDER_END_LO Reg.RECORDER_END_HI 0).raise Pg.recorder Reg.RECORDER_EVENT_REEL_OPEN).showRecorder

/-- A frame that has started at Ingress, and was not dropped there, is awaited by the Recorder while it is recorded. DEDUCED (log 59). -/
def State.awaitFrame (s : State) (f : Nat) : State :=
  if s.reel.isOpen && s.recorded f then s.setReel { s.reel with todo := s.reel.todo ++ [f] } else s

/-! ### Closing (R337, R339, R501) -/

/-- The reel begins to close once its last frame has started (R339). -/
def State.beginClose (s : State) : State :=
  if s.reel.isOpen then (s.setReel { s.reel with closing := true }).pushFlush.showRecorder else s

/-- Whether the last flush point is on the media, or the reel is failed and nothing is left to give up (R337, R339). DEDUCED (log 22). -/
def State.closable (s : State) : Bool :=
  let r := s.reel
  r.isOpen && r.closing && s.drained && (r.closed || r.failed)

/-- The directory shows the reel closed or failed (R337, R339). -/
def State.endReel (s : State) : State :=
  let r := s.reel
  let s1 := s.setEntry r.nsid { s.dirEntry r.nsid with state := if r.failed then 5 else 3 }
  ((s1.setReel {}).raise Pg.recorder Reg.RECORDER_EVENT_REEL_CLOSED).releaseOver.showRecorder

/-- A take STOP of a fenced device: the records held are discarded and counted as drops, waiting APPEND METADATA commands end with status
0x30, held frames are freed, and the reel stays open on the media (R313, R501). -/
def State.abandonReel (s : State) : State :=
  let r := s.reel
  if r.isOpen = false then s
  else
    let left := r.todo.filter fun f => !(r.dropped.any fun d => decide (d.1 = f))
    let s1 := left.foldl (fun (s : State) f => s.dropGroup f 1) s
    let s2 := r.appends.foldl (fun (s : State) a => s.finish a.1 0x30 0 0) s1
    let s3 := s2.ingress.catchup.foldl (fun (s : State) f => s.caughtUp f) s2
    let cleared : DrawSt := { s3.draw with cat := none }
    (({ s3 with draw := cleared } : State).setReel {}).releaseOver.showRecorder

/-! ### Recovery (R334) -/

/-- Bytes of the reel of a directory entry, as far as its drives can be read. -/
def State.entryRead (s : State) (e : DirEntry) (off n : Nat) : List Byte :=
  if s.volReadable (e.start + off) n then s.volRead (e.start + off) n else zeros n

/-- The newest valid index bank of a reel (R331). -/
def State.newestBank (s : State) (e : DirEntry) : Option (List Byte) :=
  let a := s.volRead (e.start + 0x10000) 4096
  let b := s.volRead (e.start + 0x20000) 4096
  if bankGood a then (if bankGood b && decide (leAt a 8 8 < leAt b 8 8) then some b else some a)
  else if bankGood b then some b
  else none

/-- Whether a reel header is valid (R325). -/
def headerGood (h : List Byte) : Bool :=
  decide (leAt h 0 4 = 0x4C525A4B) && decide (leAt h 4 2 = 1) && decide (leAt h 0xFFC 4 = crc32c (h.take 0xFFC))

/-- The index segments of a reel from the newest one back, oldest first (R332). -/
def State.segmentsOf (s : State) (e : DirEntry) (tag : List Byte) : Nat → Nat → List (List Byte)
  | 0, _ => []
  | n + 1, off =>
    if off = 0 then []
    else
      match recordAt (s.entryRead e) e.size tag off with
      | none => []
      | some r => s.segmentsOf e tag n (leAt r.payload 0 8) ++ [r.payload]

/-- The recorded length of a reel: END of its newest valid index bank (R333). -/
def State.reelUsed (s : State) (nsid : Nat) : Nat :=
  match s.newestBank (s.dirEntry nsid) with
  | some b => leAt b 0x10 8
  | none => 0

/-- A unit of records that a recovery accepts is taken into the reel (R332, R334). -/
def ReelSt.take (r : ReelSt) (u : List FoundRecord) : ReelSt :=
  match u with
  | [] => r
  | h :: _ =>
    let len := (u.map (·.len)).sum
    let r1 := { r with tail := h.off + len }
    if h.type ≤ 5 then
      ({ r1 with groups := r1.groups + 1, index := r1.index ++ [⟨h.frame, h.off, len, 1, h.flags / 2 % 2⟩] } : ReelSt).span h.frame
    else if h.type = 7 then
      ({ r1 with drops := r1.drops + 1, index := r1.index ++ [⟨h.frame, h.off, len, 7, 0⟩] } : ReelSt).span h.frame
    else if h.type = 6 ∨ h.type = 8 then { r1 with index := r1.index ++ [⟨h.frame, h.off, len, h.type, 0⟩] }
    else if h.type = 9 then { r1 with index := [], lastIndex := h.off, segments := r1.segments ++ h.payload }
    else r1

/-- The frame hashes that records of a reel give: digest records, and drop records of frames with a digest (R338). -/
def unitHashes (us : List (List FoundRecord)) : List (Nat × List Byte) :=
  us.flatMap fun u => u.filterMap fun r =>
    if r.type = 4 then some (r.frame, sha384 r.payload) else if r.type = 7 then some (r.frame, slice r.payload 8 48) else none

/-- The frames that chain records of a reel name. -/
def unitChained (us : List (List FoundRecord)) : List Nat :=
  us.flatMap fun u => u.flatMap fun r =>
    if r.type = 8 then (List.range (leAt r.payload 0 4)).map fun i => leAt r.payload (8 + 56 * i) 8 else []

/-- The reel as a recovery finds it: what the newest index bank says, and the whole units of records after its END (R334). DEDUCED (log 61).
-/
def State.recovered (s : State) (nsid : Nat) : ReelSt :=
  let e := s.dirEntry nsid
  let h := s.entryRead e 0 4096
  let id := slice h 8 16
  let tag := id.take 4
  let bank := s.newestBank e
  let b := bank.getD (zeros 4096)
  let from_ := max recordsFrom (leAt b 0x10 8)
  let fuel := e.size / 64 + 1
  let all := if headerGood h then gatherUnits [] (scanRecords (s.entryRead e) e.size tag fuel recordsFrom) else []
  let before := all.filter fun u => u.all fun r => decide (r.off < from_)
  let after := if headerGood h then gatherUnits [] (scanRecords (s.entryRead e) e.size tag fuel from_) else []
  let r : ReelSt := { nsid := nsid, start := e.start, size := e.size, id := id, header := h, tail := from_, lastIndex := leAt b 0x18 8,
                      segments := (s.segmentsOf e tag fuel (leAt b 0x18 8)).flatten, groups := leAt b 0x20 8, drops := leAt b 0x38 4,
                      last := leAt b 0x30 8, bankSeq := leAt b 8 8 }
  let r1 := { r with first := if leAt b 0x20 8 = 0 ∧ leAt b 0x38 4 = 0 then none else some (leAt b 0x28 8) }
  let r2 := after.foldl (fun (r : ReelSt) u => r.take u) r1
  { r2 with chain := unitHashes (before ++ after), chained := unitChained (before ++ after) }

/-- A reel that was left open is recovered: the closing records follow the last accepted record, and the directory shows it recovered
(R334). DEDUCED (log 55). -/
def State.recover (s : State) (nsid : Nat) : State :=
  let r := s.recovered nsid
  let prov := headerGood r.header && (leAt r.header 0x2C 4).testBit 1
  let w := r.flushPoint prov true true s.manifestCtx
  let seq := r.bankSeq + 1
  let off := match s.newestBank (s.dirEntry nsid) with
    | some b => if b = s.entryRead (s.dirEntry nsid) 0x10000 4096 then 0x20000 else 0x10000
    | none => 0x10000
  let s1 := ((s.volPoke w.1.length (r.start + r.tail) w.1).volPoke 4096 (r.start + off) (bankBytes w.2 4 seq)).countSign prov
  (s1.setEntry nsid { s1.dirEntry nsid with state := 4 }).raise Pg.recorder Reg.RECORDER_EVENT_RECOVERED

/-- The reel under recovery is recovered (R59, R334). DEDUCED (log 61). -/
def State.reelRecovery (s : State) : State :=
  match s.recovering with
  | some n => s.recover n
  | none => s

/-- REEL_RECOVERY (R334). -/
def execReelRecovery (s : State) : Host.Outcome State Fault Refusal := .next s.reelRecovery

/-- Every open reel is recovered at re-admission (R503). DEDUCED (log 61). -/
def State.recoverAll (s : State) : Nat → State
  | 0 => s
  | n + 1 => match s.recovering with | some k => (s.recover k).recoverAll n | none => s

/-! ### Review (R340) -/

/-- Groups in the coding order of R242: the first frame, then mini-GOPs of the STRUCT. -/
def reviewOrder (gop last : Nat) (es : List IndexEntry) : Nat → Nat → List IndexEntry
  | 0, _ => []
  | n + 1, base =>
    if last ≤ base then []
    else
      let e := min last (base + gop)
      (gopOrder base e).filterMap (fun f => es.find? fun x => decide (x.frame = f)) ++ reviewOrder gop last es n e

/-- The groups of a reel from REVIEW_START on, in frame order and in coding order (R340). -/
def State.reviewLists (s : State) : ReviewSt :=
  let c := Pg.recorder
  let e := s.dirEntry (s.fld c Reg.RECORDER_REVIEW_NS_NSID)
  let h := s.entryRead e 0 4096
  let b := (s.newestBank e).getD (zeros 4096)
  let start := s.fld64 c Reg.RECORDER_REVIEW_START_LO Reg.RECORDER_REVIEW_START_HI
  let segs := s.segmentsOf e (slice h 8 4) (e.size / 64 + 1) (leAt b 0x18 8)
  let groups := (segs.flatMap segmentEntries).filter fun x => decide (x.kind = 1)
  let insert := fun (l : List IndexEntry) (x : IndexEntry) =>
    l.takeWhile (fun y => decide (y.frame ≤ x.frame)) ++ [x] ++ l.dropWhile fun y => decide (y.frame ≤ x.frame)
  let sorted := groups.foldl insert []
  let live := sorted.filter fun x => decide (x.flags % 2 = 0)
  let stream := 0x100 + 32 * s.fld c Reg.RECORDER_REVIEW_NS_STREAM
  let gop := if leAt h (stream + 10) 1 = 2 then 4 else 1
  let first := leAt h 0x38 8
  let last := (live.map (·.frame)).foldl max first
  let coded := (live.filter fun x => decide (x.frame = first)) ++ reviewOrder gop last live (last - first + 1) first
  let from_ := fun (l : List IndexEntry) => l.filter fun x => decide (start ≤ x.frame)
  { active := true, start := e.start
    raws := if s.on c Reg.RECORDER_REVIEW_NS_RAW then from_ sorted else []
    hevcs := if s.on c Reg.RECORDER_REVIEW_NS_HEVC then from_ coded else [] }

/-- The review of reel REVIEW_NS begins on entry to REVIEW. -/
def State.reviewStart (s : State) : State := (s.setRec { s.media with review := s.reviewLists }).showRecorder

/-- The review ends on leaving REVIEW. -/
def State.reviewStop (s : State) : State := (s.setRec { s.media with review := {} }).showRecorder

/-- The records of a group; none when one of them cannot be read (R340). -/
def State.readGroup (s : State) (x : IndexEntry) : Option (List FoundRecord) :=
  let e := s.dirEntry (s.fld Pg.recorder Reg.RECORDER_REVIEW_NS_NSID)
  let tag := slice (s.entryRead e 0 4096) 8 4
  let rs := scanRecords (s.entryRead e) (x.offset + x.length) tag (x.length / 64) x.offset
  if s.volReadable (e.start + x.offset) x.length ∧ (rs.map (·.len)).sum = x.length then some rs else none

/-- A group that cannot be read is skipped, and counted once at the port on which it begins (R340). -/
def State.readError (s : State) (x : IndexEntry) : State :=
  let v := s.media.review
  let k := match s.media.vol with | some u => (u.place (v.start + x.offset)).1 | none => 0
  if v.skipped.contains x.offset then s
  else (s.setRec { s.media with review := { v with skipped := x.offset :: v.skipped } }).count (Pg.media k) Reg.MEDIA_ERR_COUNT

/-- The raw record of a group goes to the DRDEC input ring, and its metadata to the matching output slot (R340). -/
def State.feedRaw (s : State) (rs : List FoundRecord) : State :=
  let d := Pg.drdec
  match rs.find? fun r => decide (r.type = 2) with
  | none => s
  | some r =>
    let prod := s.fld d Reg.DRDEC_IN_PROD
    let room := 4096 * s.fld d Reg.DRDEC_IN_CFG_PAGES
    let recs := (rs.filter fun m => decide (m.type = 1)).map fun m => (m.frame, m.payload)
    let s1 := (s.pokeN (s.drdecIn prod) (r.payload.take room)).setFld d Reg.DRDEC_IN_PROD
      (ringNext prod (s.fld d Reg.DRDEC_IN_CFG_COUNT))
    ({ s1 with drdec := { s1.drdec with records := s1.drdec.records ++ recs } } : State).drdecBegin

/-- The HEVC record of the reviewed stream goes to the HDEC0 input ring (R340). -/
def State.feedHevc (s : State) (rs : List FoundRecord) : State :=
  let d := Pg.hdec 0
  let stream := s.fld Pg.recorder Reg.RECORDER_REVIEW_NS_STREAM
  match rs.find? fun r => decide (r.type = 3) && decide (r.index = stream) with
  | none => s
  | some r =>
    let prod := s.fld d Reg.HDEC_IN_PROD
    let room := 4096 * s.fld d Reg.HDEC_IN_CFG_PAGES
    let a := 4096 * s.fld d Reg.HDEC_IN_BASE_LO + 2 ^ 32 * s.fld d Reg.HDEC_IN_BASE_HI + prod * room
    (s.pokeN a (r.payload.take room)).setFld d Reg.HDEC_IN_PROD (ringNext prod (s.fld d Reg.HDEC_IN_CFG_COUNT))

/-- Whether an input ring has no space: the next PROD would meet CONS. -/
def ringFull (prod cons count : Nat) : Bool := decide (ringNext prod count = cons)

/-- The next raw group is fed while its ring has space. DEDUCED (log 62). -/
def State.feedNextRaw (s : State) : State :=
  let d := Pg.drdec
  let v := s.media.review
  match v.raws with
  | [] => s
  | x :: t =>
    if ringFull (s.fld d Reg.DRDEC_IN_PROD) (s.fld d Reg.DRDEC_IN_CONS) (s.fld d Reg.DRDEC_IN_CFG_COUNT) then s
    else
      let s1 := s.setRec { s.media with review := { v with raws := t } }
      match s1.readGroup x with
      | some rs => s1.feedRaw rs
      | none => s1.readError x

/-- The next HEVC record is fed while its ring has space. DEDUCED (log 62). -/
def State.feedNextHevc (s : State) : State :=
  let d := Pg.hdec 0
  let v := s.media.review
  match v.hevcs with
  | [] => s
  | x :: t =>
    if ringFull (s.fld d Reg.HDEC_IN_PROD) (s.fld d Reg.HDEC_IN_CONS) (s.fld d Reg.HDEC_IN_CFG_COUNT) then s
    else
      let s1 := s.setRec { s.media with review := { v with hevcs := t } }
      match s1.readGroup x with
      | some rs => s1.feedHevc rs
      | none => s1.readError x

/-- The Recorder feeds the decoders, and raises REVIEW_END at the last group (R340). DEDUCED (log 62). -/
def State.reviewFeed (s : State) : State :=
  if s.ctl.mode ≠ .review ∨ s.media.review.active = false then s
  else
    let s1 := s.feedNextRaw.feedNextHevc
    let v := s1.media.review
    if v.raws.isEmpty && v.hevcs.isEmpty then
      ((s1.setRec { s1.media with review := { v with active := false } }).raise Pg.recorder Reg.RECORDER_EVENT_REVIEW_END).showRecorder
    else s1

/-- REVIEW_FEED (R340). -/
def execReviewFeed (s : State) : Host.Outcome State Fault Refusal := .next s.reviewFeed

/-! ### Host metadata (R313, R329) -/

/-- The field of an APPEND METADATA that is out of its range (R286, R312). DEDUCED (log 60). -/
def badAppend (h : HostData) (c : Cmd) (s : State) : Option Nat :=
  firstBad [(decide ((s.dirEntry c.nsid).state = 0 ∨ c.nsid < 2), 0x04), (s.badBuf c h false, 0x10),
    ((s.knownLen c h).any fun n => decide (n = 0), 0x18)]

/-- APPEND METADATA: its record is placed after the group being written, and the command completes when it is durable; RESULT is the
record's offset (R312, R313, R329, R330). DEDUCED (log 60). -/
def runAppend (h : HostData) (tag : Nat) (c : Cmd) (s : State) : State :=
  let r := s.reel
  let e := s.dirEntry c.nsid
  let n := xferLen c h
  let failed := decide (e.state = 5) || (r.isOpen && decide (r.nsid = c.nsid) && r.failed)
  if !failed && (!r.isOpen || decide (r.nsid ≠ c.nsid) || r.lastFlush) then s.finishTag tag 0x0C 0 0 0xFFFF
  else
    match s.buffers c h false with
    | .error st => s.failBuf tag st
    | .ok _ =>
      if failed then s.finishTag tag 0x30 0 0 0xFFFF
      else if 65536 < n then s.finishTag tag 0x31 0 0 0xFFFF
      else if r.size - 8388608 < r.tail + roundUp (32 + n) 64 then s.finishTag tag 0x32 0 0 0xFFFF
      else
        match h.data with
        | none => s.finishTag tag 0x04 0 0 0xFFFF
        | some b =>
          let s1 := s.writeBetween 6 s.frameNow (padTo n b)
          (s1.setReel { s1.reel with appends := s1.reel.appends ++ [(c.uid, r.tail, s1.reel.tail)] }).pushFlush.showRecorder

/-- APPEND_METADATA (R313). -/
def execAppendMetadata (tag : Nat) (h : HostData) (s : State) : Host.Outcome State Fault Refusal :=
  .next (withCmd tag 0x82 s (badAppend h) (runAppend h tag))

/-! ### FORMAT (R323) -/

/-- The effect of a write of RECORDER.CTRL: FORMAT writes a new volume, or is discarded with STATE_REJECT (R323, R342). -/
def writeRecorderCtrl (q : Req) (v : Word) (s : State) : State :=
  withWrite q Pg.recorder 0x008 v s fun s old new =>
    let want := wmSet v Reg.RECORDER_CTRL_FORMAT && decide (q ≠ .pf1)
    if want then
      if s.formatOk && !s.fenced then (plainStore q Pg.recorder 0x008 s old (new &&& ~~~ 2)).format else s.reject Pg.recorder
    else plainStore q Pg.recorder 0x008 s old (new &&& ~~~ 2)

/-- FORMAT (R323). -/
def execFormat (r : Req) (v : Word) (s : State) : Host.Outcome State Fault Refusal := .next (writeRecorderCtrl r v s)

/-! ### What a take START clears (R342) -/

/-- The counters of the Recorder clear at take START. -/
def State.recorderStart (s : State) : State :=
  [Reg.RECORDER_DROPS, Reg.RECORDER_MAX_LAT, Reg.RECORDER_CHAIN_PENDING].foldl (fun s f => s.setFld Pg.recorder f 0) s

end Sys2Proof.Machine
end

