-- ==== Sys2Proof/Machine/Aud.lean ====
section
/-! DEFINITION. Serial audio ports (R404 to R416): the checks at ENABLE, TDM frame boundaries, slots, stamps, slot masks, underrun,
overrun and rotation. -/

namespace Sys2Proof.Machine

/-- The state with a port replaced. -/
def State.putAud (s : State) (p : Nat) (a : AudSt) : State := { s with aud := s.aud.put p a }

/-- STATE.PHASE of a port: 0 stopped, 1 awaiting its start, 2 running (R419). -/
def State.audPhase (s : State) (p : Nat) : Nat := s.fld (Pg.aud p) Reg.AUD_STATE_PHASE

/-- A port captures: DIR 0 (R404). -/
def State.captures (s : State) (p : Nat) : Bool := !s.on (Pg.aud p) Reg.AUD_FORMAT_DIR

/-- A port drives the bit clock and frame sync (R406). -/
def State.audMaster (s : State) (p : Nat) : Bool := s.on (Pg.aud p) Reg.AUD_FORMAT_MASTER

/-- The slots of a port's TDM frame. -/
def State.audSlotCount (s : State) (p : Nat) : Nat := s.fld (Pg.aud p) Reg.AUD_FORMAT_SLOTS + 1

/-- The bit clocks of a slot. -/
def State.slotClocks (s : State) (p : Nat) : Nat := [16, 20, 24, 32].getD (s.fld (Pg.aud p) Reg.AUD_FORMAT_SWIDTH) 32

/-- The bits of a word. -/
def State.audWord (s : State) (p : Nat) : Nat := wordBits (s.fld (Pg.aud p) Reg.AUD_FORMAT_WORD)

/-- The sample rate of a port. -/
def State.audFs (s : State) (p : Nat) : Nat := fsRate (s.fld (Pg.aud p) Reg.AUD_FORMAT_FS)

/-- The checks that ENABLE makes (R408). -/
def State.audBad (s : State) (p : Nat) : Bool :=
  let ring := s.fld (Pg.aud p) Reg.AUD_RING_BYTES
  decide (5 < s.fld (Pg.aud p) Reg.AUD_FORMAT_FS) || decide (s.fld (Pg.aud p) Reg.AUD_FORMAT_WORD = 3)
    || decide (s.fld (Pg.aud p) Reg.AUD_FORMAT_FS_WIDTH = 3)
    || decide (49152000 < s.audSlotCount p * s.slotClocks p * s.audFs p) || decide (s.slotClocks p < s.audWord p)
    || decide (ring % 192 ≠ 0) || decide (ring < 192) || decide (67108800 < ring)
    || decide (s.fld (Pg.aud p) Reg.AUD_STAMP_ENTRIES < 64)

/-- The channels of a port under a mask, as slots in ascending order (R409). -/
def State.channels (s : State) (p mask : Nat) : List Nat := (List.range (s.audSlotCount p)).filter fun k => mask.testBit k

/-- A port starts: its counters clear and it awaits its first frame boundary (R414, R416, R419). DEDUCED (log 26, 76). -/
def State.audStart (s : State) (p : Nat) : State :=
  let g := Pg.aud p
  let s1 := (((s.setFld g Reg.AUD_UNDERRUN_WORDS 0).setFld g Reg.AUD_OVERRUN_WORDS 0).setFld g Reg.AUD_FRAME_ERRORS 0).setFld g
    Reg.AUD_ROT_WORDS 0
  let s2 := ((s1.setFld g Reg.AUD_STATE_ROTATED 0).setFld g Reg.AUD_STATE_CLOCK_LOST 0).setFld g Reg.AUD_STATE_PHASE 1
  let s3 := if s2.fld g Reg.AUD_DEV_PTR < s2.fld g Reg.AUD_RING_BYTES then s2 else s2.setFld g Reg.AUD_DEV_PTR 0
  let s4 := if s3.fld g Reg.AUD_STAMP_PTR < s3.fld g Reg.AUD_STAMP_ENTRIES then s3 else s3.setFld g Reg.AUD_STAMP_PTR 0
  s4.putAud p { base := s4.fld g Reg.AUD_DEV_PTR, startTime := s4.time, mask := s4.actv g Reg.AUD_SLOT_MASK }

/-- The stamp entry of the block in work (R411). -/
def State.stampEntry (s : State) (p : Nat) : List Byte :=
  let a := s.aud.get p
  let flags := (if s.on (Pg.aud p) Reg.AUD_STATE_ROTATED then 1 else 0) + (if a.lost then 2 else 0)
    + (if s.audMaster p then 0 else 4) + (if a.err then 8 else 0)
  timeBytes a.blockTime ++ leBytes 4 ((a.base + a.blockPos) % max 1 (s.audRing p).2) ++ leBytes 2 a.blockFrames
    ++ leBytes 1 (s.channels p a.mask).length ++ leBytes 1 flags ++ leBytes 4 a.mask ++ leBytes 4 a.blocks

/-- The block in work ends: a capture port writes its stamp (R411). -/
def State.endBlock (s : State) (p : Nat) : State :=
  let a := s.aud.get p
  if a.blockFrames = 0 then s
  else
    let g := Pg.aud p
    let i := s.fld g Reg.AUD_STAMP_PTR
    let base := s.fld g Reg.AUD_STAMP_BASE_LO * 4096 + s.fld g Reg.AUD_STAMP_BASE_HI * 2 ^ 32
    let s1 :=
      if s.captures p then
        (s.pokeN (base + 32 * i) (s.stampEntry p)).setFld g Reg.AUD_STAMP_PTR ((i + 1) % max 1 (s.fld g Reg.AUD_STAMP_ENTRIES))
      else s
    s1.putAud p { a with blockFrames := 0, blocks := a.blocks + 1, lost := false, err := false }

/-- A word that was dropped or sent as 0 (R413). -/
def State.wordLost (s : State) (p : Nat) (count ev : Fld) : State :=
  let g := Pg.aud p
  let s1 := ((s.count g count).setFld g Reg.AUD_ROT_WORDS (s.fld g Reg.AUD_ROT_WORDS + 1)).raise g ev
  s1.putAud p { s1.aud.get p with lost := true }

/-- DEV_PTR passes one word (R409, R410). -/
def State.moveWord (s : State) (p : Nat) : State :=
  let a := s.aud.get p
  (s.setFld (Pg.aud p) Reg.AUD_DEV_PTR ((s.fld (Pg.aud p) Reg.AUD_DEV_PTR + s.audB p) % max 1 (s.audRing p).2)).putAud p
    { a with pos := a.pos + s.audB p }

/-- A captured word goes to the ring, unless the host has not made room for it (R409, R410, R413). -/
def State.captureWord (s : State) (p word : Nat) : State :=
  let g := Pg.aud p
  let dev := s.fld g Reg.AUD_DEV_PTR
  let full := s.on g Reg.AUD_CTRL_HOST_CONS
    && decide ((dev + s.audB p) % max 1 (s.audRing p).2 = s.fld g Reg.AUD_HOST_PTR)
  if full then s.wordLost p Reg.AUD_OVERRUN_WORDS Reg.AUD_EVENT_OVERRUN
  else
    let v := unsigned (8 * s.audB p) (signed (s.audWord p) word)
    (s.pokeN ((s.audRing p).1 + dev) (leBytes (s.audB p) v)).moveWord p

/-- The bit clocks of a TDM frame, and the one at which a slot begins (R405). -/
def State.frameClocks (s : State) (p : Nat) : Nat := s.audSlotCount p * s.slotClocks p
def State.slotStart (s : State) (p k : Nat) : Nat :=
  (s.fld (Pg.aud p) Reg.AUD_FORMAT_OFFSET + k * s.slotClocks p) % s.frameClocks p

/-- A playback port drives a slot: the word, most significant bit first, then low (R405). -/
def State.driveSlot (s : State) (p k word : Nat) : State :=
  let w := s.audWord p
  s.emit (.tdm p (s.slotStart p k) (bitsOf w word ++ List.replicate (s.slotClocks p - w) false))

/-- The bit clocks for which frame sync is active: one, one slot, or half the frame (R405). -/
def State.syncClocks (s : State) (p : Nat) : Nat :=
  match s.fld (Pg.aud p) Reg.AUD_FORMAT_FS_WIDTH with
  | 0 => 1
  | 1 => s.slotClocks p
  | _ => s.frameClocks p / 2

/-- The master clock of a port in Hz: 24.576 MHz for the 48 kHz family and 22.5792 MHz for the 44.1 kHz family (R406). -/
def State.masterClock (s : State) (p : Nat) : Nat :=
  if s.on (Pg.aud p) Reg.AUD_FORMAT_MCLK_EN = false then 0
  else if s.fld (Pg.aud p) Reg.AUD_FORMAT_FS % 2 = 1 then 24576000 else 22579200

/-- A master port begins a frame on its clocks (R405, R406). -/
def State.driveSync (s : State) (p : Nat) : State :=
  let fld := s.fld (Pg.aud p)
  if s.audMaster p then
    s.emit (.tdmSync p (s.syncClocks p) (1 - fld Reg.AUD_FORMAT_FS_POL) (fld Reg.AUD_FORMAT_BCLK_EDGE) (s.masterClock p))
  else s

/-- A slot of a playback port sends the next word of the ring, or 0 when the ring is empty (R410, R413). -/
def State.playWord (s : State) (p slot : Nat) : State :=
  let g := Pg.aud p
  let dev := s.fld g Reg.AUD_DEV_PTR
  if dev = s.fld g Reg.AUD_HOST_PTR then
    (s.wordLost p Reg.AUD_UNDERRUN_WORDS Reg.AUD_EVENT_UNDERRUN).driveSlot p slot 0
  else
    let w := s.peekLe ((s.audRing p).1 + dev) (s.audB p) % 2 ^ s.audWord p
    (s.moveWord p).driveSlot p slot w

/-- A slot of the frame in progress (R405, R409). -/
def State.audSlot (s : State) (p word : Nat) : State :=
  let k := (s.aud.get p).slot
  if 4 ≤ p ∨ s.audPhase p ≠ 2 ∨ s.on (Pg.aud p) Reg.AUD_STATE_CLOCK_LOST ∨ s.audSlotCount p ≤ k then s
  else
    let s1 := s.putAud p { s.aud.get p with slot := k + 1 }
    if (s.aud.get p).mask.testBit k then if s.captures p then s1.captureWord p word else s1.playWord p k
    else if s.captures p then s1
    else s1.driveSlot p k 0

/-- AUD_SLOT (R413). -/
def execAudSlot (p : Nat) (word : Nat) (s : State) : Host.Outcome State Fault Refusal := .next (s.audSlot p word)

/-- The slots of a frame that were not received are captured as 0 (R407). -/
def State.zeroSlots (s : State) (p : Nat) : State :=
  let a := s.aud.get p
  if s.captures p then
    let missing := (List.range (s.audSlotCount p)).filter fun k => decide (a.slot ≤ k) && a.mask.testBit k
    missing.foldl (fun s _ => (s.putAud p { s.aud.get p with lost := true }).captureWord p 0) s
  else s

/-- The frame in progress ends; every 64th ends a block (R411). -/
def State.endFrame (s : State) (p : Nat) : State :=
  let s1 := s.zeroSlots p
  let a := s1.aud.get p
  let s2 := s1.putAud p { a with frame := a.frame + 1, blockFrames := a.blockFrames + 1 }
  if a.frame % 64 = 63 then s2.endBlock p else s2

/-- The rotation check of a frame boundary (R414). -/
def State.rotation (s : State) (p : Nat) : State :=
  let g := Pg.aud p
  let ch := (s.channels p (s.aud.get p).mask).length
  if ch = 0 ∨ s.fld g Reg.AUD_ROT_WORDS % ch = 0 ∨ s.on g Reg.AUD_STATE_ROTATED then s
  else (s.setFld g Reg.AUD_STATE_ROTATED 1).raise g Reg.AUD_EVENT_ROTATED

/-- A request with SOURCE 0b01 applies, and a new mask ends the block (R412). DEDUCED (log 76). -/
def State.newMask (s : State) (p : Nat) : State :=
  let g := Pg.aud p
  let own := s.on g Reg.COMMON_COMMIT_PENDING && decide (s.fld g Reg.COMMON_COMMIT_SOURCE = 1)
  let s1 := if own then (s.endBlock p).applyCommit g else s
  let m := s1.actv g Reg.AUD_SLOT_MASK
  if (s1.aud.get p).mask = m then s1
  else (s1.endBlock p).putAud p { (s1.endBlock p).aud.get p with mask := m }

/-- A port stops: its block ends, and a master port holds its outputs low (R408). -/
def State.audStop (s : State) (p : Nat) : State :=
  let s1 := ((s.endBlock p).newMask p).setFld (Pg.aud p) Reg.AUD_STATE_PHASE 0
  let s2 := s1.putAud p { s1.aud.get p with stopping := false }
  if s2.audMaster p then s2.emit (.tdmStop p) else s2

/-- A frame begins at a sync time (R405, R409, R411). -/
def State.beginFrame (s : State) (p : Nat) (t : Time) : State :=
  let a := s.aud.get p
  let e : AudFrame := ⟨t, a.pos, (s.channels p a.mask).length⟩
  let b := if a.blockFrames = 0 then { a with blockPos := a.pos, blockTime := t } else a
  (s.putAud p { b with slot := 0, frames := e :: a.frames.filter (s.audHas p) }).driveSync p

/-- Whether a port may start at a sync time (R416). -/
def State.audMayStart (s : State) (p : Nat) (t : Time) : Bool :=
  let g := Pg.aud p
  if s.on g Reg.AUD_CTRL_TIMED then
    decide ((s.fld64 g Reg.AUD_START_SEC_LO Reg.AUD_START_SEC_HI * 1000000000 + s.fld g Reg.AUD_START_NS) * tickNs ≤ t.ticks)
  else decide ((s.aud.get p).startTime.ticks + 10000 * tickNs ≤ t.ticks)

/-- A TDM frame boundary at a sync time (R408, R411, R412, R414, R416). DEDUCED (log 76). -/
def State.boundary (s : State) (p : Nat) (t : Time) : State :=
  match s.audPhase p with
  | 1 => if s.audMayStart p t then ((s.newMask p).setFld (Pg.aud p) Reg.AUD_STATE_PHASE 2).beginFrame p t else s
  | 2 =>
    let s1 := (s.endFrame p).rotation p
    if (s1.aud.get p).stopping then s1.audStop p else (s1.newMask p).beginFrame p t
  | _ => s

/-- The sync time of a master port's frame: the multiple of 1/fs nearest to now, rounded down to 2^−32 ns (R406, R411). DEDUCED (log 76). -/
def State.masterSync (s : State) (p : Nat) : Time :=
  let second := 1000000000 * tickNs
  let n := (2 * s.time.ticks * s.audFs p + second) / (2 * second)
  .ofTicks (n * second / max 1 (s.audFs p))

/-- TDM_FRAME_BOUNDARY (R412): a boundary of a master port. A slave port's boundary is its sync edge. -/
def execTdmFrameBoundary (p : Nat) (s : State) : Host.Outcome State Fault Refusal :=
  .next (if 4 ≤ p ∨ s.audMaster p = false ∨ s.on Pg.coll Reg.COLL_CTRL_ENABLE = false then s else s.boundary p (s.masterSync p))

/-- A sync edge at a slave port, less 6 ns of input path, after a number of bit clocks (R407). -/
def State.syncEdge (s : State) (p bclks : Nat) : State :=
  if 4 ≤ p ∨ s.audMaster p ∨ s.audPhase p = 0 then s
  else
    let g := Pg.aud p
    let wrong := decide (s.audPhase p = 2) && !decide (bclks = s.audSlotCount p * s.slotClocks p)
    let s1 :=
      if wrong then
        let s1 := (s.count g Reg.AUD_FRAME_ERRORS).raise g Reg.AUD_EVENT_FRAME_ERR
        s1.putAud p { s1.aud.get p with err := true }
      else s
    (s1.setFld g Reg.AUD_STATE_CLOCK_LOST 0).boundary p (.ofTicks (s.time.ticks - 6 * tickNs))

/-- AUD_SYNC_EDGE (R407). -/
def execAudSyncEdge (p bclks : Nat) (s : State) : Host.Outcome State Fault Refusal := .next (s.syncEdge p bclks)

/-- AUD_CLOCK_LOST (R407): a slave port moves no data until edges return. -/
def execAudClockLost (p : Nat) (s : State) : Host.Outcome State Fault Refusal :=
  .next (if 4 ≤ p ∨ s.audMaster p ∨ s.audPhase p = 0 ∨ s.on (Pg.aud p) Reg.AUD_STATE_CLOCK_LOST then s
    else (s.setFld (Pg.aud p) Reg.AUD_STATE_CLOCK_LOST 1).raise (Pg.aud p) Reg.AUD_EVENT_CLOCK_LOST)

/-- ENABLE of a port rises or falls: a frame in progress is completed first, unless the port has lost its clock (R408). DEDUCED (log 76). -/
def State.audSwitch (s : State) (p : Nat) (on : Bool) : State :=
  if on then (if outputMode s.ctl.mode then s.audStart p else s)
  else if s.audPhase p = 0 then s
  else if s.audPhase p = 1 ∨ s.on (Pg.aud p) Reg.AUD_STATE_CLOCK_LOST then s.audStop p
  else s.putAud p { s.aud.get p with stopping := true }

/-- The effect of a write of AUD.CTRL (R408, R416). -/
def writeAudCtrl (r : Req) (p : Nat) (v : Word) (s : State) : State :=
  withWrite r (Pg.aud p) 0x008 v s fun s old new =>
    let g := Pg.aud p
    let rises := !old.getLsbD 0 && new.getLsbD 0
    if rises && s.audBad p then (s.raise g Reg.AUD_EVENT_CFG_ERR).reject g
    else
      let s1 := s.wr (g * 0x1000 + 0x008) new
      if rises then s1.audSwitch p true else if old.getLsbD 0 && !new.getLsbD 0 then s1.audSwitch p false else s1

end Sys2Proof.Machine
end

