-- ==== Sys2Proof/Machine/Deflate.lean ====
section
/-! DEFINITION. The DEFLATE format of the Condenser (R421, R422, R425, R426): the encoder's matches, blocks and codes, and the decoder.
RFC 1951, which R421 names, gives the code tables. -/

namespace Sys2Proof.Machine

/-! ### Bits and codes (RFC 1951) -/

/-- The `n` low bits of a number, least significant first. -/
def bitsLo (n v : Nat) : List Bool := (List.range n).map fun i => v.testBit i

/-- The `n` low bits of a number, most significant first. -/
def bitsHi (n v : Nat) : List Bool := (List.range n).map fun i => v.testBit (n - 1 - i)

/-- The bytes of a bit stream, the first bit least significant; an incomplete byte is padded with zeros. -/
def packStream : List Bool → List Byte
  | a :: b :: c :: d :: e :: f :: g :: h :: t =>
    BitVec.ofNat 8 ([a, b, c, d, e, f, g, h].foldr (fun x n => 2 * n + if x then 1 else 0) 0) :: packStream t
  | [] => []
  | l => [BitVec.ofNat 8 (l.foldr (fun x n => 2 * n + if x then 1 else 0) 0)]

/-- The bits of bytes, least significant first. -/
def unpackStream (l : List Byte) : List Bool := l.flatMap fun b => bitsLo 8 b.toNat

/-- The canonical code of a symbol under code lengths: the code, to be sent most significant bit first. -/
def canonCode (lens : List Nat) (sym : Nat) : Nat :=
  let len := lens.getD sym 0
  let count := fun l => if l = 0 then 0 else (lens.filter (· = l)).length
  let start := (List.range len).foldl (fun c l => (c + count l) * 2) 0
  start + ((lens.take sym).filter (· = len)).length

/-- The bits of a symbol. -/
def symBits (lens : List Nat) (sym : Nat) : List Bool := bitsHi (lens.getD sym 0) (canonCode lens sym)

/-- The smallest length of each length code 257 to 285, and its extra bits. -/
def lengthCodes : List (Nat × Nat) :=
  [(3, 0), (4, 0), (5, 0), (6, 0), (7, 0), (8, 0), (9, 0), (10, 0), (11, 1), (13, 1), (15, 1), (17, 1), (19, 2), (23, 2), (27, 2)] ++
    [(31, 2), (35, 3), (43, 3), (51, 3), (59, 3), (67, 4), (83, 4), (99, 4), (115, 4), (131, 5), (163, 5), (195, 5), (227, 5), (258, 0)]

/-- The smallest distance of each distance code, and its extra bits. -/
def distCodes : List (Nat × Nat) :=
  [(1, 0), (2, 0), (3, 0), (4, 0), (5, 1), (7, 1), (9, 2), (13, 2), (17, 3), (25, 3), (33, 4), (49, 4), (65, 5), (97, 5), (129, 6)] ++
    [(193, 6), (257, 7), (385, 7), (513, 8), (769, 8), (1025, 9), (1537, 9), (2049, 10), (3073, 10), (4097, 11), (6145, 11)] ++
    [(8193, 12), (12289, 12), (16385, 13), (24577, 13)]

/-- The index of the code with the greatest smallest value not above `v`. -/
def codeIndex (t : List (Nat × Nat)) (v : Nat) : Nat := (t.filter fun e => decide (e.1 ≤ v)).length - 1

/-- The code lengths of the fixed literal and length code. -/
def fixedLit : List Nat := List.replicate 144 8 ++ List.replicate 112 9 ++ List.replicate 24 7 ++ List.replicate 8 8

/-- The code lengths of the fixed distance code. -/
def fixedDist : List Nat := List.replicate 30 5

/-- The order in which the code-length code's lengths are sent. -/
def clOrder : List Nat := [16, 17, 18, 0, 8, 7, 9, 6, 10, 5, 11, 4, 12, 3, 13, 2, 14, 1, 15]

/-! ### Matching (R421, R422) -/

/-- Chain depth, lazy matching and nice length of a level (R421). -/
def levelParams (level : Nat) : Nat × Bool × Nat :=
  match level with
  | 1 => (4, false, 16) | 2 => (8, false, 32) | 3 => (16, false, 64) | 4 => (16, true, 64) | 5 => (32, true, 128)
  | 6 => (64, true, 128) | 7 => (128, true, 258) | 8 => (256, true, 258) | _ => (1024, true, 258)

/-- The chain head of a position. DESIGN CHOICE (log 77). -/
def hashAt (d : List Byte) (p : Nat) : Nat := Config.deflateHash (leAt d p 3) % 32768

/-- The bytes that agree from two positions on, at most 258. -/
def matchLen (d : List Byte) (q p : Nat) : Nat :=
  let top := min 258 (d.length - p)
  ((List.range top).find? fun i => decide (d.getD (q + i) 0 ≠ d.getD (p + i) 0)).getD top

/-- The best match at a position, as length and distance; length 0 is none (R422). -/
def bestMatch (d : List Byte) (level p : Nat) : Nat × Nat :=
  let (depth, _, nice) := levelParams level
  if d.length < p + 3 then (0, 0)
  else
    let cand := (((List.range (min p 32768)).map fun i => p - 1 - i).filter fun q => decide (hashAt d q = hashAt d p)).take depth
    let best := cand.foldl
      (fun b q => if nice ≤ b.1 then b else if b.1 < matchLen d q p then (matchLen d q p, p - q) else b) ((0 : Nat), (0 : Nat))
    if best.1 < 3 then (0, 0) else best

/-- A symbol of the encoder: its position, and its length and distance; length 0 is a literal. -/
abbrev DefSym := Nat × Nat × Nat

/-- The symbols of an input (R422). -/
def parseFrom (d : List Byte) (level : Nat) : Nat → Nat → List DefSym
  | 0, _ => []
  | fuel + 1, p =>
    if d.length ≤ p then []
    else
      let m := bestMatch d level p
      if m.1 = 0 then (p, 0, 0) :: parseFrom d level fuel (p + 1)
      else if (levelParams level).2.1 ∧ m.1 < (bestMatch d level (p + 1)).1 then (p, 0, 0) :: parseFrom d level fuel (p + 1)
      else (p, m.1, m.2) :: parseFrom d level fuel (p + m.1)

/-- The symbols in blocks of 16,384; an empty input is one empty block. -/
def chunksOf (n : Nat) : Nat → List DefSym → List (List DefSym)
  | 0, _ => []
  | fuel + 1, l => if l.length ≤ n then [l] else l.take n :: chunksOf n fuel (l.drop n)

/-! ### Codes of a dynamic block (R422) -/

/-- The cost in bits of frequencies under code lengths. -/
def codeCost (freqs lens : List Nat) : Nat := ((freqs.zip lens).map fun e => e.1 * e.2).sum

/-- Two ascending lists of packages merged by weight. -/
def mergePacks : Nat → List (Nat × List Nat) → List (Nat × List Nat) → List (Nat × List Nat)
  | 0, a, b => a ++ b
  | _, [], b => b
  | _, a, [] => a
  | n + 1, x :: a, y :: b => if x.1 ≤ y.1 then x :: mergePacks n a (y :: b) else y :: mergePacks n (x :: a) b

/-- Neighbours of a list of packages joined in pairs. -/
def pairPacks : List (Nat × List Nat) → List (Nat × List Nat)
  | x :: y :: t => (x.1 + y.1, x.2 ++ y.2) :: pairPacks t
  | _ => []

/-- A package put into an ascending list. -/
def insertPack (x : Nat × List Nat) : List (Nat × List Nat) → List (Nat × List Nat)
  | [] => [x]
  | h :: t => if x.1 < h.1 then x :: h :: t else h :: insertPack x t

/-- Code lengths of least cost with a longest length, by package-merge (R422). -/
def packageMerge (limit : Nat) (freqs : List Nat) : List Nat :=
  let leaves := ((List.range freqs.length).filter fun i => decide (freqs.getD i 0 ≠ 0)).foldl
    (fun l i => insertPack (freqs.getD i 0, [i]) l) []
  let n := leaves.length
  if n ≤ 1 then freqs.map fun f => if f = 0 then 0 else 1
  else
    let packs := (List.range limit).foldl (fun p _ => mergePacks (2 * (n + p.length)) leaves (pairPacks p)) []
    let used := (packs.take (2 * n - 2)).flatMap (·.2)
    (List.range freqs.length).map fun i => (used.filter (· = i)).length

/-- Whether code lengths are a complete code of least cost for the frequencies. -/
def lengthsOk (limit : Nat) (freqs lens : List Nat) : Bool :=
  let used := lens.filter (· ≠ 0)
  decide (lens.length = freqs.length) && used.all (fun l => decide (l ≤ limit))
    && (freqs.zip lens).all (fun e => decide (e.1 = 0) == decide (e.2 = 0))
    && decide ((used.map fun l => 2 ^ (limit - l)).sum ≤ 2 ^ limit)
    && decide (codeCost freqs lens = codeCost freqs (packageMerge limit freqs))

/-- The code lengths of an alphabet. Where several codes cost the same, which one is a free value. -/
def chooseLengths (limit : Nat) (freqs : List Nat) : List Nat :=
  let c := Config.codeLengths limit freqs
  if lengthsOk limit freqs c then c else packageMerge limit freqs

/-- The number of times each symbol below `n` occurs. -/
def countSyms (n : Nat) (l : List Nat) : List Nat := (List.range n).map fun i => (l.filter (· = i)).length

/-- The literal and length symbols of a block, its end included. -/
def litSyms (d : List Byte) (b : List DefSym) : List Nat :=
  (b.map fun s => if s.2.1 = 0 then (d.getD s.1 0).toNat else 257 + codeIndex lengthCodes s.2.1) ++ [256]

/-- The distance symbols of a block. -/
def distSyms (b : List DefSym) : List Nat := (b.filter fun s => decide (s.2.1 ≠ 0)).map fun s => codeIndex distCodes s.2.2

/-- A list without the zeros at its end, but no shorter than `n`. DESIGN CHOICE (log 77). -/
def trimZeros (n : Nat) (l : List Nat) : List Nat :=
  let keep := (List.range l.length).foldl (fun k i => if l.getD i 0 ≠ 0 then i + 1 else k) 0
  l.take (max n keep)

/-- The code lengths that run-length symbols spell. -/
def expandRuns (l : List (Nat × Nat)) : List Nat :=
  l.foldl
    (fun out e =>
      if e.1 < 16 then out ++ [e.1]
      else if e.1 = 16 then out ++ List.replicate (3 + e.2) (out.getLast?.getD 0)
      else if e.1 = 17 then out ++ List.replicate (3 + e.2) 0
      else out ++ List.replicate (11 + e.2) 0) []

/-- The extra bits of a run-length symbol. -/
def runExtra (sym : Nat) : Nat := if sym = 16 then 2 else if sym = 17 then 3 else if sym = 18 then 7 else 0

/-- The run-length symbols of a header. Which runs are formed is a free value. -/
def chooseRuns (lens : List Nat) : List (Nat × Nat) :=
  let c := Config.lengthRuns lens
  if expandRuns c = lens ∧ c.all (fun e => decide (e.1 ≤ 18) && decide (e.2 < 2 ^ runExtra e.1)) then c else lens.map fun l => (l, 0)

/-! ### Blocks (R422, R425) -/

/-- The bits of the symbols of a block under literal and distance code lengths, one list a symbol. -/
def symbolChunks (d : List Byte) (lit dist : List Nat) (b : List DefSym) : List (List Bool) :=
  (b.map fun s =>
    if s.2.1 = 0 then symBits lit (d.getD s.1 0).toNat
    else
      let i := codeIndex lengthCodes s.2.1
      let j := codeIndex distCodes s.2.2
      let li := lengthCodes.getD i (0, 0)
      let dj := distCodes.getD j (0, 0)
      symBits lit (257 + i) ++ bitsLo li.2 (s.2.1 - li.1) ++ symBits dist j ++ bitsLo dj.2 (s.2.2 - dj.1)) ++ [symBits lit 256]

/-- A fixed block. -/
def fixedBlock (d : List Byte) (last : Bool) (b : List DefSym) : List (List Bool) :=
  [last, true, false] :: symbolChunks d fixedLit fixedDist b

/-- A dynamic block. -/
def dynamicBlock (d : List Byte) (last : Bool) (b : List DefSym) : List (List Bool) :=
  let lit := trimZeros 257 (chooseLengths 15 (countSyms 286 (litSyms d b)))
  let dist := trimZeros 1 (chooseLengths 15 (countSyms 30 (distSyms b)))
  let runs := chooseRuns (lit ++ dist)
  let cl := chooseLengths 7 (countSyms 19 (runs.map (·.1)))
  let sent := trimZeros 4 (clOrder.map fun i => cl.getD i 0)
  let head := [last, false, true] ++ bitsLo 5 (lit.length - 257) ++ bitsLo 5 (dist.length - 1) ++ bitsLo 4 (sent.length - 4)
    ++ sent.flatMap (bitsLo 3) ++ runs.flatMap fun e => symBits cl e.1 ++ bitsLo (runExtra e.1) e.2
  head :: symbolChunks d lit dist b

/-- A stored block of at most 65,535 bytes that begins after `at_` bits of the stream. DESIGN CHOICE (log 77). -/
def storedPart (last : Bool) (at_ : Nat) (b : List Byte) : List (List Bool) :=
  let pad := (8 - (at_ + 3) % 8) % 8
  ([last, false, false] ++ List.replicate pad false ++ bitsLo 16 b.length ++ bitsLo 16 (65535 - b.length)) ::
    b.map fun x => bitsLo 8 x.toNat

/-- The bits of a list of chunks. -/
def chunkBits (l : List (List Bool)) : Nat := (l.map (·.length)).sum

/-- A block sent stored, in as many parts as its bytes need. -/
def storedBlock (last : Bool) : Nat → Nat → List Byte → List (List Bool)
  | 0, at_, b => storedPart last at_ b
  | n + 1, at_, b =>
    if b.length ≤ 65535 then storedPart last at_ b
    else
      let p := storedPart false at_ (b.take 65535)
      p ++ storedBlock last n (at_ + chunkBits p) (b.drop 65535)

/-- The bytes that a block's symbols stand for. -/
def blockBytes (d : List Byte) (b : List DefSym) : List Byte :=
  match b.head? with
  | none => []
  | some h => (d.drop h.1).take ((b.map fun s => max 1 s.2.1).sum)

/-- A block as whichever coding takes the fewest bits, ties falling to stored, then fixed (R422). -/
def blockChunks (d : List Byte) (last : Bool) (at_ : Nat) (b : List DefSym) : List (List Bool) :=
  let st := storedBlock last (b.length / 254 + 1) at_ (blockBytes d b)
  let fx := fixedBlock d last b
  let dy := dynamicBlock d last b
  if chunkBits st ≤ chunkBits fx ∧ chunkBits st ≤ chunkBits dy then st
  else if chunkBits fx ≤ chunkBits dy then fx
  else dy

/-- Blocks one after another; the last of a whole input carries BFINAL and is padded to a byte. -/
def streamChunks (d : List Byte) (whole : Bool) : Nat → List (List DefSym) → List (List Bool)
  | _, [] => []
  | at_, [b] =>
    let c := blockChunks d whole at_ b
    if whole then c ++ [List.replicate ((8 - (at_ + chunkBits c) % 8) % 8) false] else c
  | at_, b :: t =>
    let c := blockChunks d false at_ b
    c ++ streamChunks d whole (at_ + chunkBits c) t

/-- The stream of an input, one list of bits a symbol. Of an input whose end has not come, the blocks that no further byte can change (R422,
R425). DESIGN CHOICE (log 77). -/
def deflate (level : Nat) (whole : Bool) (d : List Byte) : List (List Bool) :=
  let blocks := chunksOf 16384 (d.length + 1) (parseFrom d level (d.length + 1) 0)
  if whole then streamChunks d true 0 blocks
  else
    let ready := blocks.filter fun b => decide (b.length = 16384) && ((b.getLast?.map fun s => decide (s.1 + 520 ≤ d.length)).getD false)
    streamChunks d false 0 ready

/-- The bytes written up to a capacity in all: whole bytes whose bits belong to complete symbols that fit (R425). -/
def fitBytes (chunks : List (List Bool)) (cap : Nat) : Nat :=
  (chunks.foldl (fun (e : Nat × Nat) c => (e.1 + c.length, if e.1 + c.length ≤ 8 * cap then e.1 + c.length else e.2)) (0, 0)).2 / 8

/-! ### The decoder (R426) -/

/-- How decoding ends: at the final block, for want of input, or at an error with its DETAIL. -/
inductive InflateEnd where
  | final | short | bad (detail : Nat)
  deriving DecidableEq, Repr

/-- A decoder at work: the bits left, the output in reverse order, and its end once it has one. -/
structure Inflater where
  bits : List Bool
  rev : List Byte := []
  ended : Option InflateEnd := none
  deriving DecidableEq, Repr

/-- The number that the next `n` bits spell, least significant first; none when too few are left. -/
def takeBits (n : Nat) (l : List Bool) : Option (Nat × List Bool) :=
  if l.length < n then none else some ((l.take n).foldr (fun x v => 2 * v + if x then 1 else 0) 0, l.drop n)

/-- The next symbol under code lengths: none for want of input, and 999 where no code matches. -/
def takeSym (lens : List Nat) (l : List Bool) : Option (Nat × List Bool) :=
  let hit := (List.range 16).find? fun n =>
    decide (0 < n ∧ n ≤ l.length) &&
      (List.range lens.length).any fun s => decide (lens.getD s 0 = n) && decide (symBits lens s = l.take n)
  match hit with
  | some n =>
    let s := ((List.range lens.length).find? fun s => decide (lens.getD s 0 = n) && decide (symBits lens s = l.take n)).getD 999
    some (s, l.drop n)
  | none => if l.length < 15 then none else some (999, l)

/-- Whether code lengths are over-subscribed, or incomplete where that is an error: a distance code may have one code or none. -/
def badCode (lens : List Nat) (single : Bool) : Bool :=
  let used := lens.filter (· ≠ 0)
  let k := (used.map fun l => 2 ^ (15 - l)).sum
  !(decide (k = 2 ^ 15) || (single && decide (used.length ≤ 1)))

/-- A decoder that ends. -/
def Inflater.stop (f : Inflater) (e : InflateEnd) : Inflater := { f with ended := some e }

/-- The symbols of a block (R426). -/
def inflateSyms (lit dist : List Nat) : Nat → Inflater → Inflater
  | 0, f => f.stop .short
  | n + 1, f =>
    match takeSym lit f.bits with
    | none => f.stop .short
    | some (sym, t) =>
      if sym < 256 then inflateSyms lit dist n { f with bits := t, rev := BitVec.ofNat 8 sym :: f.rev }
      else if sym = 256 then { f with bits := t }
      else if 285 < sym then f.stop (.bad 3)
      else
        let li := lengthCodes.getD (sym - 257) (0, 0)
        match takeBits li.2 t with
        | none => f.stop .short
        | some (x, t1) =>
          match takeSym dist t1 with
          | none => f.stop .short
          | some (ds, t2) =>
            if 29 < ds then f.stop (.bad 3)
            else
              let dj := distCodes.getD ds (0, 0)
              match takeBits dj.2 t2 with
              | none => f.stop .short
              | some (y, t3) =>
                if f.rev.length < dj.1 + y then f.stop (.bad 4)
                else
                  let rev := (List.range (li.1 + x)).foldl (fun (r : List Byte) _ => r.getD (dj.1 + y - 1) 0 :: r) f.rev
                  inflateSyms lit dist n { f with bits := t3, rev := rev }

/-- `n` code lengths by the code-length code; none at an end that the second part tells. -/
def takeLengths (cl : List Nat) (total : Nat) : Nat → List Nat → List Bool → Except InflateEnd (List Nat × List Bool)
  | 0, out, l => if out.length = total then .ok (out, l) else .error (.bad 3)
  | n + 1, out, l =>
    if total ≤ out.length then (if out.length = total then .ok (out, l) else .error (.bad 3))
    else
      match takeSym cl l with
      | none => .error .short
      | some (sym, t) =>
        if 18 < sym ∨ (sym = 16 ∧ out.isEmpty) then .error (.bad 3)
        else
          match takeBits (runExtra sym) t with
          | none => .error .short
          | some (x, t1) =>
            let run := (expandRuns (out.getLast?.toList.map (·, 0) ++ [(sym, x)])).drop (if out.isEmpty then 0 else 1)
            takeLengths cl total n (out ++ run) t1

/-- The codes of a dynamic block, or the end that its header causes. -/
def takeHeader (l : List Bool) : Except InflateEnd (List Nat × List Nat × List Bool) :=
  match takeBits 14 l with
  | none => .error .short
  | some (h, t) =>
    let hlit := h % 32 + 257
    let hdist := h / 32 % 32 + 1
    let hclen := h / 1024 + 4
    match takeBits (3 * hclen) t with
    | none => .error .short
    | some (c, t1) =>
      let cl := (List.range 19).map fun s =>
        match (List.range hclen).find? fun i => decide (clOrder.getD i 99 = s) with
        | some i => c / 8 ^ i % 8
        | none => 0
      if 286 < hlit ∨ 30 < hdist ∨ badCode cl false then .error (.bad 3)
      else
        match takeLengths cl (hlit + hdist) (hlit + hdist) [] t1 with
        | .error e => .error e
        | .ok (ls, t2) =>
          if ls.getD 256 0 = 0 ∨ badCode (ls.take hlit) false ∨ badCode (ls.drop hlit) true then .error (.bad 3)
          else .ok (ls.take hlit, ls.drop hlit, t2)

/-- A stored block: `used` bits of the stream lie before its header's end. -/
def inflateStored (used : Nat) (f : Inflater) : Inflater :=
  let t := f.bits.drop ((8 - used % 8) % 8)
  match takeBits 32 t with
  | none => f.stop .short
  | some (h, t1) =>
    let len := h % 65536
    if h / 65536 ≠ 65535 - len then f.stop (.bad 5)
    else
      let n := min len (t1.length / 8)
      let f1 := { f with bits := t1.drop (8 * n), rev := (packStream (t1.take (8 * n))).reverse ++ f.rev }
      if n < len then f1.stop .short else f1

/-- The blocks of a stream of `total` bits (R426). -/
def inflateBlocks (total : Nat) : Nat → Inflater → Inflater
  | 0, f => f.stop .short
  | n + 1, f =>
    match takeBits 3 f.bits with
    | none => f.stop .short
    | some (h, t) =>
      let f0 := { f with bits := t }
      let f1 :=
        match h / 2 with
        | 0 => inflateStored (total - t.length) f0
        | 1 => inflateSyms fixedLit fixedDist (t.length + 1) f0
        | 2 =>
          match takeHeader t with
          | .error e => f0.stop e
          | .ok (lit, dist, t1) => inflateSyms lit dist (t1.length + 1) { f0 with bits := t1 }
        | _ => f0.stop (.bad 2)
      match f1.ended with
      | some _ => f1
      | none => if h % 2 = 1 then f1.stop .final else inflateBlocks total n f1

/-- The output of a stream, how decoding ends, and the bytes of source it has consumed (R426). -/
def inflate (l : List Byte) : List Byte × InflateEnd × Nat :=
  let bits := unpackStream l
  let f := inflateBlocks bits.length (bits.length + 1) { bits := bits }
  (f.rev.reverse, f.ended.getD .short, ceilDiv (bits.length - f.bits.length) 8)

end Sys2Proof.Machine
end

