-- ==== Sys2Proof/Machine/Power.lean ====
section
/-! DEFINITION. Power domains and the power limiter (R36, R61, R479 to R486, R493): which domains are held on, requests and the work that
holds them, powering up and down, and the measurement of supply power. -/

namespace Sys2Proof.Machine

/-! ### Domains (R479 to R481) -/

/-- The first domain of each block's pages (R479). -/
def blkDomain : Blk → Nat
  | .global | .guard | .pwr | .therm => 0
  | .rstore => 1 | .cluster => 3 | .security => 6 | .array => 7 | .lane => 19 | .link => 67 | .ingress => 69 | .prismFe => 70
  | .prismBe => 71 | .split => 79 | .fstore => 80 | .draw => 81 | .drawctl => 97 | .henc => 98 | .iris => 106 | .hdec => 107
  | .drdec => 109 | .hostq => 110 | .nspace => 111 | .media => 112 | .recorder => 114 | .loupe => 115 | .mirror => 119
  | .sdi => 120 | .eth => 124 | .pkt2110 => 126 | .coll => 127 | .trig => 128 | .aud => 129 | .cond => 133 | .relay => 134
  | .dram => 135 | .dramctl => 143

/-- The domain that a page's PWR_REQ controls (R479). -/
def pageDomain (p : Nat) : Nat :=
  match pageBlk p with
  | some (.global, _) | some (.guard, _) | some (.pwr, _) | some (.therm, _) | none => 0
  | some (b, i) => blkDomain b + i

/-- The essential domains (R481). -/
def essential (d : Nat) : Bool :=
  decide (d ≤ 7) || decide (9 ≤ d ∧ d ≤ 11) || decide (d = 110) || decide (d = 111) || decide (d = 127) || decide (135 ≤ d)

/-- The page of the block that owns a lane; none for LANE46 and LANE47 (R479). -/
def laneOwner (k : Nat) : Option Nat :=
  if k < 8 then some (Pg.link 0) else if k < 16 then some (Pg.link 1) else if k = 16 then some (Pg.link 0)
  else if k = 17 then some (Pg.link 1) else if k < 22 then some (Pg.sdi (k - 18)) else if k < 26 then some (Pg.eth 0)
  else if k < 30 then some (Pg.eth 1) else if k < 38 then some Pg.hostq else if k < 42 then some (Pg.media 0)
  else if k < 46 then some (Pg.media 1) else none

/-- Whether a page's block is running, which holds its domain on whatever its REQ (R59, R61, R480). DEDUCED (log 84). -/
def State.powerRuns (s : State) (p : Nat) : Bool :=
  let en := s.on p Reg.COMMON_CTRL_ENABLE
  match pageBlk p with
  | none => false
  | some (b, i) =>
    match b with
    | .link | .sdi | .eth | .coll => s.running p || en
    | .media | .recorder | .trig => true
    | .draw => s.running p && s.rawCores.contains i
    | .prismBe => s.running p && s.rendRuns i
    | .henc => s.running p && en
    | .lane => match laneOwner i with | some o => s.running o || s.on o Reg.COMMON_CTRL_ENABLE | none => false
    | _ => s.running p

/-- Whether some lane that depends on a page's block is on (R479, R480). -/
def State.laneOn (s : State) (p : Nat) : Bool :=
  (List.range 46).any fun k => decide (laneOwner k = some p) && decide (s.fld (Pg.lane k) Reg.COMMON_PWR_REQ_STATUS = 3)

/-- Whether a page's domain is held on outside SLEEP whatever its REQ (R480). -/
def State.heldOn (s : State) (p : Nat) : Bool :=
  essential (pageDomain p) || s.powerRuns p || s.laneOn p

/-- A request's code: 0b10 acts as 0b11 (R480). -/
def reqOf (v : Nat) : Nat := if v = 2 then 3 else v

/-- Whether a page's block has work in flight that a power-down waits for: a job of the Condenser, a channel of Relay, a load of the Filter
Store outside a take (R483). DEDUCED (log 84). -/
def State.inFlight (s : State) (p : Nat) : Bool :=
  if p = Pg.cond then s.on p Reg.COND_STATE_BUSY
  else if p = Pg.relay then !decide (s.fld p Reg.RELAY_STATE_ACTIVE = 0)
  else if p = Pg.fstore then s.fstore.load.isSome && !s.running p
  else false

/-! ### Transitions (R36, R482 to R484) -/

/-- The state with the power part replaced. -/
def State.setPwr (s : State) (w : PwrSt) : State := { s with pwr := w }

/-- PWR.HELD brought up to date. -/
def State.showHeld (s : State) : State := s.setFld Pg.pwr Reg.PWR_HELD s.pwr.held.length

/-- The registers that the device holds for good: identity, fuses and the boot counter (R53, R55, R478). DEDUCED (log 84). -/
def deviceReg (a : Nat) : Bool :=
  let o := a % 0x1000
  let page := a / 0x1000
  (decide (page = Pg.security) && (decide (o = 0x040) || (decide (0x048 ≤ o) && decide (o ≤ 0x090))) && !decide (o = 0x088))
    || (decide (page = Pg.global) && decide (o = 0x040))

/-- Whether a register outlives the off state of its domain: common registers do, and so do INGRESS.STOP_DISCARDS and DRAWCTL.FAULT, which
only a reset clears, and fuses, identity and the boot counter, which MIN_SVN "never falls" asks for (R36, R145, R228, R459, R478). DEDUCED
(log 84). -/
def outlives (a : Nat) : Bool :=
  decide (a % 0x1000 < 0x040) || decide (a = keyOf Reg.INGRESS_STOP_DISCARDS Pg.ingress)
    || decide (a = keyOf Reg.DRAWCTL_FAULT Pg.drawctl) || deviceReg a

/-- Block, shadow and active registers of a page at their factory values (R36). -/
def State.wipePage (s : State) (p : Nat) : State :=
  { s with regs := s.regs.filter fun e => decide (e.1 / 0x1000 % 1024 ≠ p) || outlives e.1 }

/-- What a block holds beyond its registers, lost when its domain goes off (R198, R482). -/
def State.wipeBlock (s : State) (p : Nat) : State :=
  match pageBlk p with
  | some (.fstore, _) => s.fstoreClear
  | some (.link, k) => (s.setPort k {}).showPort k
  | some (.cond, _) => ({ s with cond := { s.cond with parked := none } } : State).setFld p Reg.COND_STATE_PHASE 0
  | some (.relay, _) => { s with relay := { s.relay with descs := [] } }
  | some (.aud, k) => { s with aud := s.aud.put k {} }
  | some (.loupe, k) => { s with loupe := s.loupe.put k {} }
  | some (.mirror, _) => { s with mirror := [] }
  | some (.pkt2110, _) => { s with flows := [] }
  | some (.drdec, _) => { s with drdec := {} }
  | some (.hdec, k) => { s with hdec := s.hdec.put k {} }
  | _ => s

/-- The entries of a bank for block registers of one page restored. DEDUCED (log 84). -/
def State.restorePage (s : State) (p : Nat) (b : List Byte) : Nat → Nat → State
  | 0, _ => s
  | n + 1, a =>
    let o := leAt b (a + 2) 2
    let s1 := if leAt b a 2 = p ∧ 0x040 ≤ o then s.restoreEntry p o (leAt b (a + 4) 4) else s
    s1.restorePage p b n (a + 8)

/-- The registers of a page that follow from its settings: the placement of slots, the corrections of timestamps (R196, R380). -/
def State.follow (s : State) (p : Nat) : State :=
  match pageBlk p with
  | some (.fstore, _) => s.placeSlots s
  | some (.coll, _) => s.showCorr
  | _ => s

/-- A page whose contents were lost takes the retained values that the retained-state memory holds (R36). SKIP_COUNT counts the last restore
alone (R88). DEDUCED (log 84). -/
def State.refillPage (s : State) (p : Nat) : State :=
  let s1 :=
    match s.rsm.newest with
    | some i => let b := s.rsm.bank i; s.restorePage p b (leAt b 0x10 4) 0x40
    | none => s
  (s1.setFld Pg.rstore Reg.RSTORE_SKIP_COUNT (s.fld Pg.rstore Reg.RSTORE_SKIP_COUNT)).follow p

/-- A page's domain takes the state off (0), in which its contents are lost, or retention (1); retention after off holds the retained values
(R36, R482). DEDUCED (log 84). -/
def State.goDown (s : State) (p v : Nat) : State :=
  let off := s.domainOff p
  let s1 := s.setPwr { s.pwr with held := s.pwr.held.filter fun e => decide (e.1 ≠ p) }
  let s2 := (s1.showHeld).setFld p Reg.COMMON_PWR_REQ_STATUS v
  if v = 0 then (s2.wipePage p).wipeBlock p else if off then s2.refillPage p else s2

/-- A page's domain is on. After off, retained fields take their retained values (R36). DEDUCED (log 84). -/
def State.goUp (s : State) (p : Nat) : State :=
  let s1 := (s.setPwr { s.pwr with rising := s.pwr.rising.filter (· ≠ p) }).setFld p Reg.COMMON_PWR_REQ_STATUS 3
  if s.domainOff p then s1.refillPage p else s1

/-- The power controller holds a request until the work in flight in its domain has drained (R483). DEDUCED (log 84). -/
def State.holdRequest (s : State) (p req : Nat) : State :=
  if s.pwr.held.any fun e => decide (e.1 = p) then s else (s.setPwr { s.pwr with held := s.pwr.held ++ [(p, req)] }).showHeld

/-- A page's domain follows R480: it begins to power up, or takes the state of its REQ once nothing holds it on, or its request waits for
work in flight (R480, R483). DEDUCED (log 84). -/
def State.settle (s : State) (p : Nat) : State :=
  let st := s.fld p Reg.COMMON_PWR_REQ_STATUS
  let req := reqOf (s.fld p Reg.COMMON_PWR_REQ_REQ)
  if pageDomain p = 0 ∨ s.pwr.rising.contains p then s
  else if s.heldOn p ∨ req = 3 then
    if st = 3 then s else s.setPwr { s.pwr with rising := insertNat p s.pwr.rising }
  else if st = 3 ∧ s.inFlight p then s.holdRequest p req
  else if st = req then s
  else s.goDown p req

/-- Every domain follows R480. -/
def State.settleAll (s : State) : State := allPages.foldl (fun s p => s.settle p) s

/-- Every domain that the running configuration uses is on (R482). -/
def State.powerAll (s : State) : State :=
  allPages.foldl (fun s p => if s.heldOn p && !decide (s.fld p Reg.COMMON_PWR_REQ_STATUS = 3) then s.goUp p else s) s

/-- A refused request (R481, R483). DEDUCED (log 84). -/
def State.refusePower (s : State) (p req : Nat) : State :=
  let s1 := ((s.setFld p Reg.COMMON_PWR_REQ_REFUSED 1).raise p Reg.COMMON_EVENT_PWR_REFUSED).count Pg.pwr Reg.PWR_REFUSALS
  ((s1.setFld Pg.pwr Reg.PWR_LAST_REFUSED_DOMAIN (pageDomain p)).setFld Pg.pwr Reg.PWR_LAST_REFUSED_REQ req).raise Pg.pwr
    Reg.PWR_EVENT_REFUSAL

/-- A request to a page's domain; one that would take a domain with work in flight from on is held, although that work alone keeps the block
running (R481, R483 to R485). DEDUCED (log 84). -/
def State.requestPower (s : State) (p req : Nat) : State :=
  let spare := decide (p = Pg.lane 46) || decide (p = Pg.lane 47)
  if spare then (if req = 0 then s else s.refusePower p req)
  else if essential (pageDomain p) then (if reqOf req = 3 then s else s.refusePower p req)
  else if s.pwr.limiting && decide (reqOf req = 3) && !s.powerRuns p then s.refusePower p req
  else
    let s1 := (s.setPwr { s.pwr with held := s.pwr.held.filter fun e => decide (e.1 ≠ p) }).showHeld
    let s2 := s1.setFld p Reg.COMMON_PWR_REQ_REQ req
    if s2.fld p Reg.COMMON_PWR_REQ_STATUS = 3 ∧ s2.inFlight p ∧ reqOf req ≠ 3 then s2.holdRequest p (reqOf req) else s2.settle p

/-- The effect of a write of a page's PWR_REQ (R483). -/
def writePwrReq (r : Req) (p : Nat) (v : Word) (s : State) : State :=
  withWrite r p 0x024 v s fun s _ _ => s.requestPower p (wfld v Reg.COMMON_PWR_REQ_REQ)

/-- PWR_REQ_WRITE (R483). -/
def execPwrReqWrite (r : Req) (page : Nat) (v : Word) (s : State) : Host.Outcome State Fault Refusal :=
  .next (writePwrReq r page v s)

/-- A domain with a held request has drained (R483). -/
def State.drained? (s : State) (p : Nat) : State :=
  match s.heldReq p with
  | some req => if s.inFlight p then s else (s.goDown p req).settle p
  | none => s

/-- DRAIN_TIMEOUT passes: the request is refused and the domain stays on; a drain that has completed succeeds (R483, R484). DESIGN CHOICE
(log 3). DEDUCED (log 84). -/
def State.drainTimeout (s : State) (p : Nat) : State :=
  match s.heldReq p with
  | some req =>
    if s.inFlight p then
      let s1 := (s.setPwr { s.pwr with held := s.pwr.held.filter fun e => decide (e.1 ≠ p) }).showHeld
      (s1.setFld p Reg.COMMON_PWR_REQ_REQ 3).refusePower p req
    else (s.goDown p req).settle p
  | none => s

/-- A domain has finished powering up; a request that arrived meanwhile takes effect (R482, R484). -/
def State.domainUp (s : State) (p : Nat) : State := if s.pwr.rising.contains p then (s.goUp p).settle p else s

/-! ### Live status (R479, R493) -/

/-- The state of each domain in R482's coding: 0 off, 1 retention, 3 on. -/
def State.domainState (s : State) (d : Nat) : Nat :=
  let page := fun (b : Nat) => s.fld b Reg.COMMON_PWR_REQ_STATUS
  let any := fun (l : List Nat) => if l.any fun b => decide (page b = 3) then 3 else 0
  let sleep := decide (s.ctl.mode = .sleep)
  let keep := s.on Pg.coll Reg.COLL_CTRL_SLEEP_KEEP
  if sleep then
    (if d ≤ 1 ∨ ((d = 11 ∨ d = 127) ∧ keep) then 3 else if 135 ≤ d ∧ d ≤ 143 then 1 else 0)
  else if d ≤ 7 ∨ (9 ≤ d ∧ d ≤ 11) then 3
  else if d = 8 then
    any ([Pg.link 0, Pg.link 1, Pg.ingress, Pg.prismFe, Pg.split, Pg.fstore, Pg.drawctl, Pg.iris, Pg.drdec, Pg.hdec 0, Pg.hdec 1,
      Pg.mirror] ++ (List.range 8).map Pg.prismBe ++ (List.range 16).map Pg.draw ++ (List.range 8).map Pg.henc ++ (List.range 4).map Pg.loupe)
  else if d = 12 then any ((List.range 4).map Pg.aud)
  else if d ≤ 16 then any [Pg.sdi (d - 13), Pg.loupe (d - 13)]
  else if d ≤ 18 then any [Pg.eth (d - 17)]
  else
    match allPages.find? fun p => decide (pageDomain p = d) with
    | some p => page p
    | none => 0

/-- A word of DOMAIN_ON or DOMAIN_RET: bit d mod 32 of register d / 32 (R493). -/
def State.domainWord (s : State) (i code : Nat) : Word :=
  (List.range 32).foldl
    (fun w k => if 32 * i + k ≤ 143 ∧ s.domainState (32 * i + k) = code then w ||| BitVec.ofNat 32 (2 ^ k) else w) 0

/-! ### The limiter (R485) -/

/-- The limit of the power limiter in mW (R476). -/
def State.powerLimit (s : State) : Nat := min 36000 (s.fld Pg.guard Reg.GUARD_POWER_LIMIT)

/-- A measurement of the supply power (R485). DEDUCED (log 85, 92). -/
def State.measure (s : State) (mw : Nat) : State :=
  let s1 := (s.setFld Pg.pwr Reg.PWR_MEASURED mw).setFld Pg.pwr Reg.PWR_PEAK (max mw (s.fld Pg.pwr Reg.PWR_PEAK))
  if s.powerLimit < mw then
    let s2 := (s1.countBy Pg.pwr Reg.PWR_OVER_TIME 100).setPwr { s1.pwr with limiting := true, under := 0 }
    s2.raiseIf (!s.pwr.limiting) Pg.pwr Reg.PWR_EVENT_OVER_LIMIT
  else if s.pwr.limiting then
    if 100 * mw < 98 * s.powerLimit then
      if 99 ≤ s.pwr.under then (s1.setPwr { s1.pwr with limiting := false, under := 0 }).raise Pg.pwr Reg.PWR_EVENT_LIMIT_CLEAR
      else s1.setPwr { s1.pwr with under := s1.pwr.under + 1 }
    else s1.setPwr { s1.pwr with under := 0 }
  else s1

/-- VR_ALERT (R518): firmware reads the regulator's status and raises PWR_REFUSED on the PWR page. -/
def execVrAlert (s : State) : Host.Outcome State Fault Refusal :=
  .next (if s.ctl.phase = .inReset then s else s.raise Pg.pwr Reg.COMMON_EVENT_PWR_REFUSED)

end Sys2Proof.Machine
end

