-- ==== Sys2Proof/Machine/Cond.lean ====
section
/-! DEFINITION. The Condenser (R420 to R429): the acceptance of jobs, their running, suspension and end, and the commands COMPRESS and
DECOMPRESS; with the events of the power domains that let a waiting job start (R482 to R485). -/

namespace Sys2Proof.Machine

/-! ### Acceptance (R420) -/

/-- The state with the Condenser replaced. -/
def State.setCond (s : State) (c : CondSt) : State := { s with cond := c }

/-- Whether the Condenser may start new work: its domain is on, no power-down request of it is held, and the limiter does not hold it (R437,
R483, R485). DEDUCED (log 78). -/
def State.condMay (s : State) : Bool :=
  decide (s.fld Pg.cond Reg.COMMON_PWR_REQ_STATUS = 3) && (s.heldReq Pg.cond).isNone && !s.pwr.limiting

/-- The first accepted job starts once the engine is free (R420, R428). -/
def State.condStart (s : State) : State :=
  match s.cond.queue with
  | [] => s
  | j :: _ =>
    if s.on Pg.cond Reg.COND_STATE_BUSY || !s.condMay then s
    else
      let s1 := s.setFld Pg.cond Reg.COND_STATE_BUSY 1
      if j.cmd = none then s1.setFld Pg.cond Reg.COND_STATE_PHASE 1 else s1

/-- Whether a job was accepted before one that waits: a queue command is accepted when it is fetched (R420). DEDUCED (log 78). -/
def CondJob.before (j x : CondJob) : Bool :=
  match j.cmd with
  | some u => decide (u < x.order) || (x.cmd.isNone && decide (u ≤ x.order))
  | none => false

/-- A job in its place among those that wait (R420). -/
def CondJob.enqueue (j : CondJob) : List CondJob → List CondJob
  | [] => [j]
  | x :: t => if j.before x then j :: x :: t else x :: j.enqueue t

/-- A job accepted, in its turn (R420); a register job that waits shows PHASE 4, and a domain that is off powers up. -/
def State.condAccept (s : State) (j : CondJob) : State :=
  let n := if s.on Pg.cond Reg.COND_STATE_BUSY then 1 else 0
  let job := { j with order := j.cmd.getD s.hq.uidSeq }
  let s1 := s.setCond { s.cond with queue := s.cond.queue.take n ++ job.enqueue (s.cond.queue.drop n) }
  let s2 := if j.cmd = none then s1.setFld Pg.cond Reg.COND_STATE_PHASE 4 else s1
  (s2.settle Pg.cond).condStart

/-- The engine is free of the job that ran; the next one starts. -/
def State.condFree (s : State) : State :=
  let s1 := (s.setFld Pg.cond Reg.COND_STATE_BUSY 0).setCond { s.cond with queue := s.cond.queue.drop 1 }
  (if (s1.heldReq Pg.cond).isSome then s1 else s1.settle Pg.cond).condStart

/-! ### What a job produces (R422 to R427) -/

/-- How a job stands: its output in full as far as its input decides it, the bytes of it that fit the destinations given so far, whether it
has more output than fits, whether its input has been used up with more to come, and its end as a status code with a DETAIL. -/
structure CondRun where
  out : List Byte
  fit : Nat
  full : Bool
  need : Bool
  code : Nat
  detail : Nat
  deriving DecidableEq, Repr

/-- The run of a compression (R422, R424, R425, R428). -/
def CondJob.runDeflate (j : CondJob) : CondRun :=
  let chunks := deflate j.level j.whole j.input
  let out := packStream chunks.flatten
  let total := chunkBits chunks
  if j.stream then
    let room := 8 * (j.written + j.cap)
    let fit := fitBytes chunks (j.written + j.cap)
    let code := if j.input.length ≤ out.length then 0x20 else 0
    ⟨out, fit, decide (room < total), !j.whole && decide (total ≤ room), code, 0⟩
  else
    let lim := min j.input.length j.cap
    if out.length < lim then ⟨out, out.length, false, false, 0, 0⟩
    else ⟨out, fitBytes chunks lim, false, false, if j.input.length ≤ j.cap then 0x20 else 0x22, 0⟩

/-- The run of a decompression (R425 to R428). -/
def CondJob.runInflate (j : CondJob) : CondRun :=
  let r := Sys2Proof.Machine.inflate j.input
  let out := r.1
  let room := j.written + j.cap
  let ends :=
    match r.2.1 with
    | .final => (0, 0)
    | .short => (0x02, 6)
    | .bad d => (0x02, d)
  let lim := min j.limit (j.most.getD j.limit)
  if lim < out.length ∧ (j.stream = false ∨ lim ≤ room) then ⟨out, lim, false, false, if lim = j.limit then 0x21 else 0x22, 0⟩
  else if j.stream ∧ room < out.length then ⟨out, room, true, false, 0, 0⟩
  else ⟨out, out.length, false, j.stream && !j.whole && decide (r.2.1 = .short), ends.1, ends.2⟩

/-- The run of a job. -/
def CondJob.run (j : CondJob) : CondRun := if j.inflate then j.runInflate else j.runDeflate

/-- Whether a queue command is still outstanding; one whose queue has gone accesses host memory no more (R278, R299). -/
def State.cmdRuns (s : State) (uid : Nat) : Bool :=
  s.hq.cmds.any fun e => e.2.live && decide (e.2.uid = uid) && decide (e.2.stage = .running)

/-- The bytes of a job's output up to `n` in all written to its present destination (R278, R312, R428). -/
def State.condWrite (s : State) (j : CondJob) (out : List Byte) (n : Nat) : State :=
  let b := (out.take n).drop j.written
  match j.cmd with
  | some u => if s.cmdRuns u && !b.isEmpty then s.emit (.hostWrite j.fn j.dst b) else s
  | none => s.pokeN j.dst b

/-- A count register that saturates. -/
def State.setSat (s : State) (p : Nat) (f : Fld) (v : Nat) : State := s.setFld p f (min v (2 ^ f.width - 1))

/-- OUT_DONE, TOTAL_OUT, IN_DONE and TOTAL_IN of the register job with `n` bytes written and `m` bytes of the piece consumed. -/
def State.condCounts (s : State) (j : CondJob) (n m : Nat) : State :=
  let s1 := (s.setFld Pg.cond Reg.COND_OUT_DONE (n - j.written)).setSat Pg.cond Reg.COND_TOTAL_OUT n
  (s1.setFld Pg.cond Reg.COND_IN_DONE m).setSat Pg.cond Reg.COND_TOTAL_IN (j.input.length - j.piece + m)

/-- A register job ends: RESULT, PHASE 0, JOB_DONE (R428). -/
def State.condResult (s : State) (code verify detail : Nat) : State :=
  let s1 := (s.setFld Pg.cond Reg.COND_RESULT_CODE code).setFld Pg.cond Reg.COND_RESULT_VERIFY verify
  ((s1.setFld Pg.cond Reg.COND_RESULT_DETAIL detail).setFld Pg.cond Reg.COND_STATE_PHASE 0).raise Pg.cond Reg.COND_EVENT_JOB_DONE

/-- A job ends with a code, a DETAIL and `n` bytes of output in all: it is counted, its register or its queue command takes the result,
and NO_GAIN and LIMIT rise by the code (R424, R427 to R429). -/
def State.condDone (s : State) (j : CondJob) (code detail n : Nat) : State :=
  let s1 := s.count Pg.cond Reg.COND_JOBS
  let s2 := (s1.raiseIf (decide (code = 0x20 ∧ detail = 0)) Pg.cond Reg.COND_EVENT_NO_GAIN).raiseIf (decide (code = 0x21)) Pg.cond
    Reg.COND_EVENT_LIMIT
  match j.cmd with
  | some u => s2.finish u code n detail
  | none => s2.condResult code (if code = 0x20 ∧ detail = 1 then 1 else 0) (if code = 0x20 then 0 else detail)

/-! ### The events of the running job -/

/-- The job that runs. -/
def State.condHead (s : State) : Option CondJob := if s.on Pg.cond Reg.COND_STATE_BUSY then s.cond.queue.head? else none

/-- The destination of a streamed register job is full (R425, R428). How much source has been taken by then is a free value. DEDUCED (log
78). -/
def State.condFull (s : State) : State :=
  match s.condHead with
  | none => s
  | some j =>
    let r := j.run
    if j.cmd.isSome || !j.stream || !r.full then s
    else
      let used := min j.piece (Config.free 60 s.seed)
      let s1 := ((({ s with seed := s.seed + 1 } : State).condWrite j r.out r.fit).condCounts j r.fit used).setFld Pg.cond
        Reg.COND_STATE_PHASE 2
      (s1.setCond { s1.cond with parked := some { j with written := r.fit } }).raise Pg.cond Reg.COND_EVENT_SUSPENDED |>.condFree

/-- COND_OUTPUT_FULL (R428). -/
def execCondOutputFull (s : State) : Host.Outcome State Fault Refusal := .next s.condFull

/-- The source of a streamed job is used up without FINAL (R428). DEDUCED (log 78). -/
def State.condNeed (s : State) : State :=
  match s.condHead with
  | none => s
  | some j =>
    let r := j.run
    if j.cmd.isSome || !j.stream || !r.need then s
    else
      let s1 := ((s.condWrite j r.out r.fit).condCounts j r.fit j.piece).setFld Pg.cond Reg.COND_STATE_PHASE 3
      let room := j.cap - (r.fit - j.written)
      let kept := { j with written := r.fit, dst := j.dst + (r.fit - j.written), cap := room }
      (s1.setCond { s1.cond with parked := some kept }).raise Pg.cond Reg.COND_EVENT_NEED_INPUT |>.condFree

/-- COND_NEED_INPUT (R428). -/
def execCondNeedInput (s : State) : Host.Outcome State Fault Refusal := .next s.condNeed

/-- The running job ends (R423, R424, R426 to R428). A compression whose verification failed leaves a free number of its bytes behind.
DEDUCED (log 78). -/
def State.condEnd (s : State) (verified : Bool) : State :=
  match s.condHead with
  | none => s
  | some j =>
    let r := j.run
    if !verified && !j.inflate then
      let n := j.written + min (r.fit - j.written) (Config.free 61 s.seed)
      let s1 := ({ s with seed := s.seed + 1 } : State).condWrite j r.out n
      let s2 := if j.cmd.isSome then s1 else s1.condCounts j n (min j.piece (Config.free 60 s.seed))
      ((((s2.count Pg.cond Reg.COND_VERIFY_FAILS).raise Pg.cond Reg.COND_EVENT_VERIFY_ERR).condDone j 0x20 1 n)).condFree
    else if r.full && j.stream || r.need then s
    else
      let s1 := s.condWrite j r.out r.fit
      let used := if j.inflate then min j.piece ((inflate j.input).2.2 - (j.input.length - j.piece)) else j.piece
      let s2 := if j.cmd.isSome then s1 else s1.condCounts j r.fit used
      (s2.condDone j r.code r.detail r.fit).condFree

/-- COND_JOB_END (R424). -/
def execCondJobEnd (verified : Bool) (s : State) : Host.Outcome State Fault Refusal := .next (s.condEnd verified)

/-! ### The register job (R428) -/

/-- Whether a COND register is closed while a register job runs or waits for the engine (R428): JOB_CFG, the address registers with their
lengths, and CTX. -/
def State.condClosed (s : State) (o : Nat) : Bool :=
  let ph := s.fld Pg.cond Reg.COND_STATE_PHASE
  (decide (ph = 1) || decide (ph = 4)) && (decide (0x040 ≤ o ∧ o ≤ 0x058) || decide (o = 0x060) || decide (o = 0x064))

/-- The level a register job runs at (R429). -/
def condLevel (n : Nat) : Nat := max 1 (min 9 n)

/-- GO: a job on SRC and SRC_LEN; a one-shot decompression is bounded by DST_CAP, OUT_LIMIT and DEC_MAX (R427 to R429). GO while a job
exists, and GO while ENABLE is 0, is discarded with STATE_REJECT. DEDUCED (log 78). -/
def State.condGo (s : State) : State :=
  let f := s.fld Pg.cond
  if f Reg.COND_STATE_PHASE ≠ 0 ∨ s.on Pg.cond Reg.COND_CTRL_ENABLE = false then s.reject Pg.cond
  else
    let len := f Reg.COND_SRC_LEN
    let s0 := (((s.setFld Pg.cond Reg.COND_OUT_DONE 0).setFld Pg.cond Reg.COND_IN_DONE 0).setFld Pg.cond Reg.COND_TOTAL_IN 0).setFld Pg.cond
      Reg.COND_TOTAL_OUT 0
    let src := s.peekN (s.fld64 Pg.cond Reg.COND_SRC_LO Reg.COND_SRC_HI) len
    let stream := decide (f Reg.COND_JOB_CFG_MODE = 1)
    let cap := f Reg.COND_DST_CAP
    let j : CondJob :=
      { inflate := decide (f Reg.COND_JOB_CFG_OP = 1), stream := stream, level := condLevel (f Reg.COND_JOB_CFG_LEVEL)
        input := src, piece := len, whole := !stream || decide (f Reg.COND_JOB_CFG_FINAL = 1)
        dst := s.fld64 Pg.cond Reg.COND_DST_LO Reg.COND_DST_HI, cap := cap
        limit := if stream then f Reg.COND_OUT_LIMIT else min cap (f Reg.COND_OUT_LIMIT)
        most := if stream then none else some (max 1 (f Reg.COND_DEC_MAX)) }
    if len = 0 then s0.condDone j 0x02 0 0 else s0.condAccept j

/-- RESUME: the suspended job goes on with a new destination or a new source (R428). DEDUCED (log 78). -/
def State.condResume (s : State) : State :=
  let f := s.fld Pg.cond
  let ph := f Reg.COND_STATE_PHASE
  match s.cond.parked with
  | none => s.reject Pg.cond
  | some j =>
    if (ph ≠ 2 ∧ ph ≠ 3) ∨ s.on Pg.cond Reg.COND_CTRL_ENABLE = false then s.reject Pg.cond
    else
      let s0 := s.setCond { s.cond with parked := none }
      if ph = 2 then
        let s1 := s0.setFld Pg.cond Reg.COND_OUT_DONE 0
        s1.condAccept { j with dst := s.fld64 Pg.cond Reg.COND_DST_LO Reg.COND_DST_HI, cap := f Reg.COND_DST_CAP }
      else
        let len := f Reg.COND_SRC_LEN
        if len = 0 then s0.condDone j 0x02 0 j.written
        else
          let src := s.peekN (s.fld64 Pg.cond Reg.COND_SRC_LO Reg.COND_SRC_HI) len
          (s0.setFld Pg.cond Reg.COND_IN_DONE 0).condAccept
            { j with input := j.input ++ src, piece := len, whole := decide (f Reg.COND_JOB_CFG_FINAL = 1) }

/-- ABORT: the job ends with RESULT.CODE 0x07 and its context is discarded; of a running job a free number of bytes has been written (R428).
DEDUCED (log 78). -/
def State.condAbort (s : State) : State :=
  let ph := s.fld Pg.cond Reg.COND_STATE_PHASE
  if ph = 0 then s
  else
    match s.cond.parked with
    | some j => (s.setCond { s.cond with parked := none }).condDone j 0x07 0 j.written
    | none =>
      match s.cond.queue.find? fun j => decide (j.cmd = none) with
      | none => s
      | some j =>
        if ph = 1 then
          let r := j.run
          let n := j.written + min (r.fit - j.written) (Config.free 61 s.seed)
          let s1 := ({ s with seed := s.seed + 1 } : State).condWrite j r.out n
          ((s1.condCounts j n (min j.piece (Config.free 60 s.seed))).condDone j 0x07 0 n).condFree
        else (s.setCond { s.cond with queue := s.cond.queue.filter fun x => decide (x.cmd ≠ none) }).condDone j 0x07 0 j.written

/-- The effect of a write of COND.CTRL (R428, R429): ENABLE is stored, then GO, RESUME and ABORT act. -/
def writeCondCtrl (r : Req) (v : Word) (s : State) : State :=
  withWrite r Pg.cond 0x008 v s fun s _ new =>
    let s1 := s.setFld Pg.cond Reg.COND_CTRL_ENABLE (wfld new Reg.COND_CTRL_ENABLE)
    let s2 := if wmSet v Reg.COND_CTRL_GO then s1.condGo else s1
    let s3 := if wmSet v Reg.COND_CTRL_RESUME then s2.condResume else s2
    if wmSet v Reg.COND_CTRL_ABORT then s3.condAbort else s3

/-- COND_GO (R428). -/
def execCondGo (r : Req) (v : Word) (s : State) : Host.Outcome State Fault Refusal := .next (writeCondCtrl r v s)

/-- COND_RESUME (R428). -/
def execCondResume (r : Req) (v : Word) (s : State) : Host.Outcome State Fault Refusal := .next (writeCondCtrl r v s)

/-- COND_ABORT (R428). -/
def execCondAbort (r : Req) (v : Word) (s : State) : Host.Outcome State Fault Refusal := .next (writeCondCtrl r v s)

/-! ### COMPRESS and DECOMPRESS (R312, R420) -/

/-- The field of a COMPRESS or DECOMPRESS that is out of its range (R286, R421). -/
def badCond (inflate : Bool) (h : HostData) (c : Cmd) (s : State) : Option Nat :=
  let level := c.cdw 11 % 16
  firstBad [(s.badBuf c h false, 0x10), (!inflate && decide (level = 0 ∨ 9 < level), 0x2C)]

/-- A COMPRESS or DECOMPRESS: the checks in R292's order, then a job of its own. A destination of CDW10 bytes must pass the windows
(R301). -/
def runCond (inflate : Bool) (h : HostData) (tag : Nat) (c : Cmd) (s : State) : State :=
  let level := c.cdw 11 % 16
  let dst := c.cdw 8 + 2 ^ 32 * c.cdw 9
  if s.on Pg.cond Reg.COND_CTRL_ENABLE = false then s.finishTag tag 0x0C 0 0 0xFFFF
  else
    match s.buffers c h false with
    | .error st => s.failBuf tag st
    | .ok _ =>
      if s.windowOk c.fn dst (c.cdw 10) true = false then s.failBuf tag 0x11
      else
        match h.data with
        | none => s.finishTag tag 0x04 0 0 0xFFFF
        | some b =>
          s.condAccept
            { cmd := some c.uid, fn := c.fn, inflate := inflate, level := level, input := padTo (xferLen c h) b, piece := xferLen c h
              dst := dst, cap := c.cdw 10, limit := c.cdw 10, most := some (max 1 (s.fld Pg.cond Reg.COND_DEC_MAX)) }

/-- COMPRESS (R312). -/
def execCompress (tag : Nat) (h : HostData) (s : State) : Host.Outcome State Fault Refusal :=
  .next (withCmd tag 0x88 s (badCond false h) (runCond false h tag))

/-- DECOMPRESS (R312). -/
def execDecompress (tag : Nat) (h : HostData) (s : State) : Host.Outcome State Fault Refusal :=
  .next (withCmd tag 0x89 s (badCond true h) (runCond true h tag))

/-! ### Events of the power domains (R482 to R485) -/

/-- DOMAIN_ON (R482). -/
def execDomainOn (page : Nat) (s : State) : Host.Outcome State Fault Refusal := .next (s.domainUp page).condStart

/-- POWER_DRAIN_DONE (R483). -/
def execPowerDrainDone (page : Nat) (s : State) : Host.Outcome State Fault Refusal := .next (s.drained? page).condStart

/-- DRAIN_TIMEOUT (R483). -/
def execDrainTimeout (page : Nat) (s : State) : Host.Outcome State Fault Refusal := .next (s.drainTimeout page).condStart

/-- POWER_MEASURE (R485). -/
def execPowerMeasure (milliwatts : Nat) (s : State) : Host.Outcome State Fault Refusal :=
  .next (if s.ctl.phase = .inReset then s else (s.measure (min 65535 milliwatts)).condStart)

end Sys2Proof.Machine
end

