-- ==== Sys2Proof/Machine/Loupe.lean ====
section
/-! DEFINITION. Loupe, the SDI outputs and Mirror (R344 to R362, R368 to R372, R417, R418): output rasters, sources, composition of a
line, sample points, underruns, line CRCs and their check. -/

namespace Sys2Proof.Machine

/-! ### Rasters (R346, R352) -/

/-- The frame rate of a RATE code as a fraction; none for a reserved code (R346). DEDUCED (log 63). -/
def frameRate : Nat → Option (Nat × Nat)
  | 0 => some (24000, 1001) | 1 => some (24, 1) | 2 => some (25, 1) | 3 => some (30000, 1001) | 4 => some (30, 1)
  | 5 => some (50, 1) | 6 => some (60000, 1001) | 7 => some (60, 1) | 8 => some (100, 1) | 9 => some (120000, 1001)
  | 10 => some (120, 1) | _ => none

/-- Whether the frame rate of code `a` is above that of code `b`. -/
def rateAbove (a b : Nat) : Bool :=
  match frameRate a, frameRate b with
  | some x, some y => decide (y.1 * x.2 < x.1 * y.2)
  | _, _ => true

/-- The active width of a FMT. -/
def fmtW : Nat → Nat
  | 0 => 1280 | 1 => 1920 | 2 => 1920 | 3 => 3840 | 4 => 7680 | _ => 0

/-- The active lines of a FMT. -/
def fmtH : Nat → Nat
  | 0 => 720 | 1 => 1080 | 2 => 1080 | 3 => 2160 | 4 => 4320 | _ => 0

/-- The total lines of a FMT. -/
def fmtLines : Nat → Nat
  | 0 => 750 | 1 => 1125 | 2 => 1125 | 3 => 2250 | 4 => 4500 | _ => 0

/-- The SDI carriage of a raster on an engine: 1 HD, 2 3G, 3 6G, 4 12G or quad-link 12G; 0 none. -/
def carriage (n fmt rate : Nat) : Nat :=
  match fmt with
  | 0 => if 5 ≤ rate ∧ rate ≤ 7 then 1 else 0
  | 1 => if 2 ≤ rate ∧ rate ≤ 4 then 1 else 0
  | 2 => if rate ≤ 4 then 1 else if rate ≤ 7 then 2 else 0
  | 3 => if rate ≤ 4 then 3 else if rate ≤ 7 then 4 else 0
  | 4 => if n = 0 ∧ 5 ≤ rate ∧ rate ≤ 7 then 4 else 0
  | _ => 0

/-- Whether FMT and RATE give a raster that an engine may run; with SDI_EN it needs SDI carriage. DEDUCED (log 63). -/
def rasterOk (n fmt rate : Nat) (sdi : Bool) : Bool :=
  let listed := match fmt with
    | 0 => decide (5 ≤ rate) && decide (rate ≤ 10)
    | 1 => decide (2 ≤ rate) && decide (rate ≤ 4)
    | 2 | 3 | 4 => decide (rate ≤ 10)
    | _ => false
  listed && (!sdi || decide (carriage n fmt rate ≠ 0))

/-- The line of the composed frame that a line of R352 carries; none in blanking (R348, R352). -/
def activeLine (fmt line : Nat) : Option Nat :=
  if fmt = 1 then
    if 23 ≤ line ∧ line ≤ 562 then some (2 * (line - 23)) else if 585 ≤ line ∧ line ≤ 1124 then some (2 * (line - 585) + 1) else none
  else if fmtLines fmt - fmtH fmt ≤ line ∧ line < fmtLines fmt then some (line - (fmtLines fmt - fmtH fmt))
  else none

/-- The place of a line of the composed frame in the order of sending: field 1 goes before field 2 (R348). -/
def lineOrder (fmt y : Nat) : Nat := if fmt = 1 then y / 2 + y % 2 * 540 else y

/-- The line of the composed frame at a place in the order of sending. -/
def lineAt (fmt i : Nat) : Nat := if fmt = 1 then (if i < 540 then 2 * i else 2 * (i - 540) + 1) else i

/-! ### Engines -/

/-- An engine. -/
def State.engine (s : State) (n : Nat) : LoupeSt := s.loupe.get n

/-- An engine replaced. -/
def State.putEngine (s : State) (n : Nat) (e : LoupeSt) : State := { s with loupe := s.loupe.put n e }

/-- A value that an engine read at its last sample point (R355). -/
def State.lv (s : State) (n : Nat) (f : Fld) : Nat :=
  match (s.engine n).vals.find? fun e => decide (e.1 = f.off) with
  | some e => Word.bits e.2 f.lo f.width
  | none => 0

/-- The format and rate that an engine runs. -/
def State.engFmt (s : State) (n : Nat) : Nat := s.lv n Reg.LOUPE_FMT_FMT
def State.engRate (s : State) (n : Nat) : Nat := s.lv n Reg.LOUPE_FMT_RATE

/-- SDI_EN and LOCK of an engine. -/
def State.sdiOn (s : State) (n : Nat) : Bool := s.on (Pg.loupe n) Reg.LOUPE_CFG_SDI_EN
def State.locks (s : State) (n : Nat) : Bool := s.on (Pg.loupe n) Reg.LOUPE_CFG_LOCK

/-- Whether an engine runs (R58). -/
def State.engineRuns (s : State) (n : Nat) : Bool := decide (s.fld (Pg.loupe n) Reg.LOUPE_STATE_PHASE ≠ 0)

/-- Whether an engine runs a valid raster. DEDUCED (log 63). -/
def State.engineOk (s : State) (n : Nat) : Bool := s.engineRuns n && rasterOk n (s.engFmt n) (s.engRate n) (s.sdiOn n)

/-- The engine whose output an SDI link carries: LOUPE0 for every link of a quad link (R344, R356). -/
def State.linkEngine (s : State) (k : Nat) : Nat :=
  if s.engineRuns 0 ∧ s.sdiOn 0 ∧ s.engFmt 0 = 4 ∧ carriage 0 4 (s.engRate 0) ≠ 0 then 0 else k

/-- The SDI links that an engine drives (R344, R359). -/
def State.linksOf (s : State) (n : Nat) : List Nat :=
  if s.engineOk n && s.sdiOn n then
    (List.range 4).filter fun k => decide (s.linkEngine k = n) && s.on (Pg.sdi k) Reg.SDI_CTRL_ENABLE
  else []

/-- MAX_FMT: 5 and 6 act as 7 (R370). DEDUCED (log 63). -/
def State.maxFmt (s : State) (n : Nat) : Nat :=
  let f := s.fld (Pg.loupe n) Reg.LOUPE_CFG_MAX_FMT
  if 4 < f then 7 else f

/-- MAX_RATE: 11 to 15 act as 10 (R370). -/
def State.maxRate (s : State) (n : Nat) : Nat := min 10 (s.fld (Pg.loupe n) Reg.LOUPE_CFG_MAX_RATE)

/-! ### Sources (R345, R353, R354) -/

/-- The source that a SRC code names: 0 to 9; none for any other code (R345). -/
def srcOf (v : Nat) : Option Nat := if v ≤ 9 then some v else none

/-- Whether a rendition's format is one that Loupe accepts (R345). -/
def State.loupeTakes (s : State) (r : Nat) : Bool :=
  let ycc := s.fld (Pg.prismBe r) Reg.PRISM_BE_OUT_CFG_YCC
  (decide (s.outChroma r = 1) || decide (s.outChroma r = 2)) && decide (s.outDepth r ≤ 10)
    && !s.on (Pg.prismBe r) Reg.PRISM_BE_OUT_CFG_RANGE && (decide (ycc = 1) || decide (ycc = 2))

/-- Whether the renditions run: in a take, and in REVIEW with RAW (R58, R60). -/
def State.rendsRun (s : State) : Bool := s.ctl.capRun || (decide (s.ctl.mode = .review) && s.reviewRaw)

/-- Whether a source runs: a rendition in use in a take or a review of raw records, a decoder in REVIEW (R345). -/
def State.srcRuns (s : State) (v : Nat) : Bool :=
  if v < 8 then s.rendsRun && s.rendRuns v else decide (s.ctl.mode = .review)

/-- The newest frame of a source whose lines are all published: a frame of a rendition, or an output of a decoder (R353). -/
def State.newestOf (s : State) (v : Nat) : Option Nat :=
  if v < 8 then s.split.newest.get v
  else if (s.dec (v - 8)).outCount = 0 then none else some ((s.dec (v - 8)).outCount - 1)

/-- A picture that an engine fetches: size, depth, chroma format and the addresses and strides of its planes (R177, R345). -/
structure SrcShape where
  w : Nat := 0
  h : Nat := 0
  depth : Nat := 8
  chroma : Nat := 1
  base0 : Nat := 0
  base1 : Nat := 0
  stride0 : Nat := 0
  stride1 : Nat := 0
  deriving DecidableEq, Repr, Inhabited

/-- The picture in the buffer of frame `f` of a source. -/
def State.srcShape (s : State) (v f : Nat) : SrcShape :=
  if v < 8 then
    let a := s.bufAddr v f
    ⟨s.outW v, s.outH v, s.outDepth v, s.outChroma v, a, a + s.outH v * s.stride0 v, s.stride0 v, s.stride1 v⟩
  else
    let j := f % max 1 (s.fld (Pg.hdec (v - 8)) Reg.HDEC_OUT_CFG)
    let p := (s.dec (v - 8)).slots.get j
    let a := s.decOut (v - 8) j
    ⟨p.w, p.h, p.depth, p.chroma, a, a + p.h * p.stride0, p.stride0, p.stride1⟩

/-- The `i`th value of `depth` bits from an address. -/
def State.sampleAt (s : State) (a depth i : Nat) : Nat := s.peekLe (a + i * depth / 8) 3 / 2 ^ (i * depth % 8) % 2 ^ depth

/-- Luma and chroma of a source pixel as 10-bit codes; an 8-bit code is multiplied by 4 (R345). -/
def State.srcPixel (s : State) (p : SrcShape) (x y : Nat) : Nat × Nat × Nat :=
  let ten := fun v => if p.depth = 8 then 4 * v else v
  let a := p.base1 + (if p.chroma = 2 then y / 2 else y) * p.stride1
  let i := if p.chroma = 0 then x / 2 * 2 else x / 2
  (ten (s.sampleAt (p.base0 + y * p.stride0) p.depth x), ten (s.sampleAt a p.depth (2 * i)), ten (s.sampleAt a p.depth (2 * i + 1)))

/-- The frame number shown of a source's frame: for a decoder, that of its picture. -/
def State.shownFrame (s : State) (v f : Nat) : Nat :=
  if v < 8 then f else ((s.dec (v - 8)).slots.get (f % max 1 (s.fld (Pg.hdec (v - 8)) Reg.HDEC_OUT_CFG))).frame

/-- An engine's source replaced: the rendition buffer it held is released and the new one held (R192, R353, R354). -/
def State.setSource (s : State) (n : Nat) (src : Option (Nat × Nat)) : State :=
  let e := s.engine n
  if e.source = src then s
  else
    let s1 := match e.source with
      | some (v, f) => if v < 8 then s.freeBuf (.loupe n) v f else s
      | none => s
    let s2 := match src with
      | some (v, f) => if v < 8 then s1.holdBuf (.loupe n) v f else s1
      | none => s1
    let s3 := s2.putEngine n { e with source := src }
    match src with
    | some (v, f) => s3.setFld64 (Pg.loupe n) Reg.LOUPE_SHOWN_LO Reg.LOUPE_SHOWN_HI (s3.shownFrame v f)
    | none => s3

/-! ### Composition (R348 to R351) -/

/-- The bytes of a graphics pixel. -/
def gfxBytes (fmt : Nat) : Nat := if fmt = 0 then 2 else if fmt = 1 then 3 else 4

/-- Red, green, blue and alpha of a graphics pixel from its bytes (R349). -/
def gfxColour (fmt : Nat) (b : List Byte) : Nat × Nat × Nat × Nat :=
  let v := leNat b
  if fmt = 0 then
    let r := v / 2048 % 32
    let g := v / 32 % 64
    let c := v % 32
    (r * 8 + r / 4, g * 4 + g / 16, c * 8 + c / 4, 255)
  else if fmt = 1 then (v % 256, v / 256 % 256, v / 65536 % 256, 255)
  else (v / 65536 % 256, v / 256 % 256, v % 256, v / 2 ^ 24 % 256)

/-- A component of a graphics pixel as a 10-bit narrow-range code (R175, R350). -/
def gfxCode (ycc c : Nat) (p : Nat × Nat × Nat) : Nat :=
  let m := yccRow ycc c
  let v := Frac.sum [(Frac.scaled m.1 16).mul ⟨p.1, 255⟩, (Frac.scaled m.2.1 16).mul ⟨p.2.1, 255⟩,
    (Frac.scaled m.2.2 16).mul ⟨p.2.2, 255⟩]
  let scale : Int := if c = 0 then 876 else 896
  let off : Int := if c = 0 then 64 else 512
  (clampCode 10 false ((((v.mul (Frac.ofInt scale)).add (Frac.ofInt off)).add ⟨1, 2⟩).floor)).1.toNat

/-- The matrix that graphics take: that of the YCC of the rendition that SRC names, BT.709 for a decoder and for none (R350). -/
def State.gfxYcc (s : State) (n : Nat) : Nat :=
  let v := s.lv n Reg.LOUPE_SRC
  if v < 8 ∧ s.fld (Pg.prismBe v) Reg.PRISM_BE_OUT_CFG_YCC = 2 then 2 else 1

/-- A component blended (R351). -/
def blend (a g v : Nat) : Nat := (a * g + (255 - a) * v + 127) / 255

/-- Whether a plane shows a pixel of a line: it is enabled, and the line lies in it (R349, R370). -/
def State.planeOn (s : State) (n p y : Nat) : Bool :=
  decide (s.lv n (Reg.LOUPE_GFX_CTRL_EN p) = 1) && decide (s.lv n (Reg.LOUPE_GFX_CTRL_FMT p) ≠ 3)
    && decide (s.lv n (Reg.LOUPE_GFX_SIZE_W p) ≠ 0)
    && decide (s.lv n (Reg.LOUPE_GFX_POS_Y p) ≤ y) && decide (y < s.lv n (Reg.LOUPE_GFX_POS_Y p) + s.lv n (Reg.LOUPE_GFX_SIZE_H p))

/-- A plane laid over a pixel (R349 to R351). -/
def State.overlay (s : State) (n p x y : Nat) (v : Nat × Nat × Nat) : Nat × Nat × Nat :=
  let x0 := s.lv n (Reg.LOUPE_GFX_POS_X p)
  if x < x0 ∨ x0 + s.lv n (Reg.LOUPE_GFX_SIZE_W p) ≤ x then v
  else
    let fmt := s.lv n (Reg.LOUPE_GFX_CTRL_FMT p)
    let base := 64 * s.lv n (Reg.LOUPE_GFX_BASE_LO p) + 2 ^ 32 * s.lv n (Reg.LOUPE_GFX_BASE_HI p)
    let addr := base + (y - s.lv n (Reg.LOUPE_GFX_POS_Y p)) * s.lv n (Reg.LOUPE_GFX_STRIDE p) + (x - x0) * gfxBytes fmt
    let c := gfxColour fmt (s.peekN addr (gfxBytes fmt))
    let a := (c.2.2.2 * s.lv n (Reg.LOUPE_GFX_CTRL_GALPHA p) + 127) / 255
    let rgb := (c.1, c.2.1, c.2.2.1)
    let ycc := s.gfxYcc n
    (blend a (gfxCode ycc 0 rgb) v.1, if x % 2 = 0 then blend a (gfxCode ycc 1 rgb) v.2.1 else v.2.1,
      if x % 2 = 0 then blend a (gfxCode ycc 2 rgb) v.2.2 else v.2.2)

/-- The video plane of a line: the source where it has a pixel, the background elsewhere (R348). DEDUCED (log 66). -/
def State.videoLine (s : State) (n y : Nat) : List (Nat × Nat × Nat) :=
  let bg := (s.lv n Reg.LOUPE_BG_Y, s.lv n Reg.LOUPE_BG_CB, s.lv n Reg.LOUPE_BG_CR)
  let x0 := s.lv n Reg.LOUPE_VID_POS_X / 2 * 2
  let y0 := s.lv n Reg.LOUPE_VID_POS_Y
  (List.range (fmtW (s.engFmt n))).map fun x =>
    match (s.engine n).source with
    | none => bg
    | some (v, f) =>
      let p := s.srcShape v f
      if x0 ≤ x ∧ x < x0 + p.w ∧ y0 ≤ y ∧ y < y0 + p.h then s.srcPixel p (x - x0) (y - y0) else bg

/-- Black. -/
abbrev blackPixel : Nat × Nat × Nat := (64, 512, 512)

/-- Planes 0 and 1 laid over a video line; a plane that is late is transparent (R351, R357). -/
def State.overlayLine (s : State) (n y : Nat) (late0 late1 : Bool) (row : List (Nat × Nat × Nat)) : List (Nat × Nat × Nat) :=
  (row.zip (List.range row.length)).map fun e =>
    let v0 := if s.planeOn n 0 y && !late0 then s.overlay n 0 e.2 y e.1 else e.1
    if s.planeOn n 1 y && !late1 then s.overlay n 1 e.2 y v0 else v0

/-- The source lines that an output line needs are published (R357). -/
def State.lineReady (s : State) (n y : Nat) : Bool :=
  match (s.engine n).source with
  | none => true
  | some (v, f) =>
    let y0 := s.lv n Reg.LOUPE_VID_POS_Y
    decide (8 ≤ v) || decide (y < y0) || decide (s.outH v ≤ y - y0) || decide (y - y0 < s.published v f)

/-- Whether an output line shows a line of the source. -/
def State.needsSource (s : State) (n y : Nat) : Bool :=
  match (s.engine n).source with
  | none => false
  | some (v, f) =>
    decide (s.lv n Reg.LOUPE_VID_POS_Y ≤ y) && decide (y < s.lv n Reg.LOUPE_VID_POS_Y + (s.srcShape v f).h)

/-! ### Ancillary data and embedded audio (R361, R362, R417, R418) -/

/-- An 8-bit user word with its parity bits: bit 8 even parity, bit 9 its complement (R362). -/
def ancWord (v : Nat) : Nat :=
  let b := v % 256
  if ((List.range 8).filter fun i => b.testBit i).length % 2 = 1 then b + 256 else b + 512

/-- The checksum of an ancillary packet's words: the sum of their low nine bits, with bit 9 the complement of bit 8 (R362). -/
def ancSum (l : List Nat) : Nat :=
  let v := (l.map (· % 512)).sum % 512
  if v.testBit 8 then v else v + 512

/-- The packets of a user buffer as 10-bit words from DID to checksum; an unfinished packet ends the list (R362). PRESUMED (log 65). -/
def ancPackets (b : List Byte) : Nat → Nat → List (List Nat)
  | 0, _ => []
  | n + 1, off =>
    let dc := leAt b (off + 4) 1
    if b.length < off + 6 + 2 * dc then []
    else
      let l := (List.range (3 + dc)).map fun i => ancWord (leAt b (off + 2 * i) 1)
      (l ++ [ancSum l]) :: ancPackets b n (off + 6 + 2 * dc)

/-- The packets that fit on a line of `room` words, each with its three flag words, and whether one does not. PRESUMED (log 65). -/
def ancFit (room : Nat) : List (List Nat) → List (List Nat) × Bool
  | [] => ([], false)
  | p :: t =>
    if p.length + 3 ≤ room then let r := ancFit (room - p.length - 3) t; (p :: r.1, r.2)
    else let r := ancFit room t; (r.1, true)

/-- The user buffer of an engine as committed for the frame in work. -/
def State.ancBuffer (s : State) (n : Nat) : List Byte :=
  s.peekN (64 * s.lv n Reg.LOUPE_ANC_BASE_LO + 2 ^ 32 * s.lv n Reg.LOUPE_ANC_BASE_HI) (min 2048 (s.lv n Reg.LOUPE_ANC_CFG_LEN))

/-- Whether a line carries the engine's user packets (R362, R370). -/
def State.ancHere (s : State) (n line : Nat) : Bool :=
  decide (s.lv n Reg.LOUPE_ANC_CFG_LINE = line) && (activeLine (s.engFmt n) line).isNone
    && (decide (s.engFmt n ≠ 1) || decide (line ≤ 562))

/-- A channel of a sample frame as its signed sample; zero for a channel that the frame does not have. -/
def State.audSample (s : State) (a : Nat) (e : AudFrame) (c : Nat) : Int :=
  if e.ch ≤ c then 0 else signed (s.audWord a) (leNat (s.audBytes a (e.pos + c * s.audB a) (s.audB a)))

/-- The sample frames of a port that are still in its ring with a sync time from `t0` up to and without `t1`, oldest first (R411). -/
def State.audSpan (s : State) (a t0 t1 : Nat) : List AudFrame :=
  ((s.aud.get a).frames.filter fun e =>
    decide (t0 ≤ e.time.ticks) && decide (e.time.ticks < t1) && s.audHas a e).reverse

/-- Whether a port is a master capture port at a rate (R417). -/
def State.audServes (s : State) (a fs : Nat) : Bool := s.captures a && s.audMaster a && decide (s.audFs a = fs)

/-- The ticks of a line of an engine's raster. -/
def State.lineTicks (s : State) (n : Nat) : Nat :=
  match frameRate (s.engRate n) with
  | some r => r.2 * (1000000000 * tickNs) / (r.1 * fmtLines (s.engFmt n))
  | none => 0

/-- The embedded audio of the next line of an SDI link, with whether silence replaced it. DEDUCED (log 66). -/
def State.sdiAudio (s : State) (n k : Nat) (late : Bool) : List (List Int) × Bool :=
  let g := Pg.sdi k
  let ch := min 32 (s.fld g Reg.SDI_AUDIO_CH / 4 * 4)
  let most := if carriage n (s.engFmt n) (s.engRate n) = 1 then min 16 ch else ch
  let a := s.fld g Reg.SDI_AUDIO_PORT
  let e := s.engine n
  if most = 0 ∨ (s.engFmt n = 4 ∧ k ≠ 0) then ([], false)
  else if s.audServes a 48000 = false then ([], true)
  else
    let fs := s.audSpan a e.audio.ticks (s.time.ticks + 1 - s.lineTicks n)
    let first := s.fld g Reg.SDI_AUDIO_FIRST_SLOT
    (fs.map fun f => (List.range most).map fun c => if late then 0 else s.audSample a f (first + c), late && !fs.isEmpty)

/-- Whether a line follows a switching point, where no audio is embedded: the standard's line is free (R418). PRESUMED (log 65). -/
def afterSwitch (fmt line : Nat) : Bool := decide (line = Config.free 72 fmt % max 1 (fmtLines fmt))

/-! ### Lines (R357, R358, R368) -/

/-- The line number that the interface carries for a line of R352: the offset of its standard is free (R352). PRESUMED (log 65). -/
def lineNumber (fmt line : Nat) : Nat := (line + Config.free 71 fmt) % max 1 (fmtLines fmt) + 1

/-- The luma words of a row, and its chroma words Cb and Cr by pixel pair (R359). -/
def lumaWords (row : List (Nat × Nat × Nat)) : List Nat := row.map (·.1)
def chromaWords : List (Nat × Nat × Nat) → List Nat
  | p :: _ :: t => p.2.1 :: p.2.2 :: chromaWords t
  | _ => []

/-- Every second pair of pixels of a row, from pair `k`: one link's part in two-sample interleave division (R359). PRESUMED (log 65). -/
def pairsOf (k : Nat) (row : List (Nat × Nat × Nat)) : List (Nat × Nat × Nat) :=
  ((row.zip (List.range row.length)).filter fun e => decide (e.2 / 2 % 2 = k)).map (·.1)

/-- What a link carries of a composed line: all of it, or in a quad link the pairs of its half of every second line; none where it carries
nothing of the line. PRESUMED (log 65). -/
def linkPart (quad : Bool) (k y : Nat) (row : List (Nat × Nat × Nat)) : Option (List (Nat × Nat × Nat)) :=
  if quad then (if k / 2 = y % 2 then some (pairsOf (k % 2) row) else none) else some row

/-- The line CRC of a link (R368). PRESUMED (log 65). -/
def lineCrc (carry : Nat) (row : List (Nat × Nat × Nat)) : Nat :=
  crc32c ((Config.sdiOrder carry (lumaWords row) (chromaWords row)).flatMap fun w => leBytes 2 (w % 1024))

/-- Mirror's check of a link replaced. -/
def State.putMirror (s : State) (k : Nat) (m : MirrorSt) : State := { s with mirror := s.mirror.put k m }

/-- Whether Mirror checks a link: it is enabled, the link's bit is set and its engine sends pictures (R368, R369). -/
def State.mirrors (s : State) (k : Nat) : Bool :=
  let n := s.linkEngine k
  outputMode s.ctl.mode && s.on Pg.mirror Reg.MIRROR_CTRL_ENABLE && (s.fld Pg.mirror Reg.MIRROR_CTRL_LINK_EN).testBit k
    && (s.linksOf n).contains k && decide (s.fld (Pg.loupe n) Reg.LOUPE_STATE_PHASE = 1)

/-- Whether LOST suspends the check of a link until its next frame (R369). -/
def State.isLost (s : State) (k : Nat) : Bool := (s.fld Pg.mirror Reg.MIRROR_STATE_LOST).testBit k

/-- A link's bit of STATE.LOST set or cleared. -/
def State.setLost (s : State) (k : Nat) (b : Bool) : State :=
  let w := s.fld Pg.mirror Reg.MIRROR_STATE_LOST
  s.setFld Pg.mirror Reg.MIRROR_STATE_LOST (if b then w ||| 2 ^ k else w - (if w.testBit k then 2 ^ k else 0))

/-- LOST suspends checking on a link (R369). -/
def State.mirrorLost (s : State) (k : Nat) : State :=
  ((s.setLost k true).putMirror k {}).raise Pg.mirror Reg.MIRROR_EVENT_LOST

/-- The CRC of a line sent on a link is kept for Mirror while Mirror checks the link. Loupe keeps 256 lines: recapture that falls behind
them has lost the link (R368, R369). DEDUCED (log 66). -/
def State.keepCrc (s : State) (n k line crc : Nat) : State :=
  let e := s.engine n
  let others := e.crcs.filter fun x => decide (x.1 ≠ k)
  if s.mirrors k = false then s.putEngine n { e with crcs := others }
  else if (e.crcs.filter fun x => decide (x.1 = k)).length < 256 then s.putEngine n { e with crcs := e.crcs ++ [(k, line, crc)] }
  else
    let s1 := s.putEngine n { e with crcs := others ++ [(k, line, crc)] }
    if s.isLost k then s1 else s1.mirrorLost k

/-- A line sent on one link of an engine. -/
def State.sendLink (s : State) (n k line : Nat) (row : Option (List (Nat × Nat × Nat))) (anc : List (List Nat)) (late : Bool) : State :=
  let carry := carriage n (s.engFmt n) (s.engRate n)
  let audio := if afterSwitch (s.engFmt n) line then ([], false) else s.sdiAudio n k late
  let s1 :=
    match row with
    | none => s
    | some r => s.keepCrc n k line (lineCrc carry r)
  ((s1.raiseIf audio.2 (Pg.sdi k) Reg.SDI_EVENT_AUDIO_UNDERRUN)).emit
    (.sdi k (lineNumber (s.engFmt n) line) (lumaWords (row.getD [])) (chromaWords (row.getD [])) anc audio.1)

/-- An active line composed: its pixels, whether it underran and whether a plane was late (R357). DEDUCED (log 66). -/
def State.composed (s : State) (n y : Nat) (late : LineLate) : List (Nat × Nat × Nat) × Bool × Bool :=
  let e := s.engine n
  let blank := List.replicate (fmtW (s.engFmt n)) blackPixel
  if e.black ≠ 0 then (blank, false, false)
  else
    let under := s.needsSource n y && (late.video || (s.locks n && !s.lineReady n y))
    let before := if s.engFmt n = 1 ∧ y % 2 = 1 then e.prev1 else e.prev0
    let fill := if s.fld (Pg.loupe n) Reg.LOUPE_CFG_FILL = 1 ∧ before ≠ [] then before else blank
    let gfx := (late.gfx0 && s.planeOn n 0 y) || (late.gfx1 && s.planeOn n 1 y)
    (s.overlayLine n y late.gfx0 late.gfx1 (if under then fill else s.videoLine n y), under, gfx)

/-- The frame that a locked output frame shows at its first active line: n, when frame n + 1 is the newest that Ingress started max(PHASE,
PHASE_MIN) ns ago or earlier (R354). DESIGN CHOICE (log 64). -/
def State.lockFrame (s : State) (n : Nat) : Option Nat :=
  let g := Pg.loupe n
  let delay := max (s.fld g Reg.LOUPE_PHASE) (s.fld g Reg.LOUPE_PHASE_MIN) * tickNs
  (s.ingress.sofs.find? fun e => decide (e.2.ticks + delay ≤ s.time.ticks)).bind fun e => if e.1 = 0 then none else some (e.1 - 1)

/-- The newest complete frame of a rendition below a frame. -/
def State.completeBelow (s : State) (v f : Nat) : Option Nat :=
  let held := (List.range (s.bufCount v)).filterMap fun j => s.split.bufs.get (16 * v + j)
  (held.filter fun g => decide (g < f) && decide (s.outH v ≤ s.published v g)).foldl
    (fun (best : Option Nat) g => match best with | some b => some (max b g) | none => some g) none

/-- With LOCK 1 the first active line chooses the frame; of one that was dropped at Ingress the newest complete one below it stands in
(R354). DESIGN CHOICE (log 64). -/
def State.lockSource (s : State) (n : Nat) : State :=
  match srcOf (s.lv n Reg.LOUPE_SRC), s.lockFrame n with
  | some v, some f =>
    if s.srcRuns v = false ∨ 8 ≤ v then s.setSource n none
    else
      let here := decide (s.split.bufs.get (16 * v + f % max 1 (s.bufCount v)) = some f) || !s.absent v f
      s.setSource n ((if here then some f else s.completeBelow v f).map fun g => (v, g))
  | _, _ => s.setSource n none

/-- Whether an enabled video flow names an engine (R358, R364). -/
def State.engineFlows (s : State) (n : Nat) : List Nat :=
  (List.range 16).filter fun f =>
    s.on Pg.pkt2110 (Reg.PKT2110_FLOW_CFG_EN f) && decide (s.fld Pg.pkt2110 (Reg.PKT2110_FLOW_CFG_TYPE f) = 0)
      && decide (s.fld Pg.pkt2110 (Reg.PKT2110_FLOW_CFG_SRC f) = 8 + n)

/-- The effect of an active line beyond what it sends: the lines kept for fill and for flows, the counts and events of an underrun, and with
LOCK 1 the release of the buffer after the last line (R354, R357). -/
def State.lineSent (s : State) (n y : Nat) (r : List (Nat × Nat × Nat) × Bool × Bool) : State :=
  let g := Pg.loupe n
  let e := s.engine n
  let e1 := if s.engFmt n = 1 ∧ y % 2 = 1 then { e with prev1 := r.1 } else { e with prev0 := r.1 }
  let key := s.fld64 g Reg.LOUPE_FRAMES_LO Reg.LOUPE_FRAMES_HI * fmtH (s.engFmt n) + lineOrder (s.engFmt n) y
  let e2 := { e1 with
    rows := if (s.engineFlows n).isEmpty then [] else (key, r.1) :: e1.rows.take 255
    under := e.under || r.2.1 }
  let s1 := (s.putEngine n e2).raiseIf r.2.2 g Reg.LOUPE_EVENT_GFX_LATE
  let s2 := if r.2.1 then (s1.count g Reg.LOUPE_UNDERRUN_LINES).raiseIf (!e.under) g Reg.LOUPE_EVENT_UNDERRUN else s1
  let last := decide (y + 1 = fmtH (s.engFmt n))
  if last && s.locks n then s2.setSource n none else s2

/-- The end of an output frame: FRAMES counts it, as does each link that carried it (R354, R372). -/
def State.frameSent (s : State) (n : Nat) : State :=
  let g := Pg.loupe n
  let s1 := s.setFld64 g Reg.LOUPE_FRAMES_LO Reg.LOUPE_FRAMES_HI (s.fld64 g Reg.LOUPE_FRAMES_LO Reg.LOUPE_FRAMES_HI + 1)
  let s2 := (s.linksOf n).foldl (fun (s : State) k => s.count (Pg.sdi k) Reg.SDI_FRAMES) s1
  s2.putEngine n { s2.engine n with line := 0, begun := false, under := false }

/-- The next line of an engine's output frame is fetched and sent (R354, R357 to R362, R368). -/
def State.loupeLine (s : State) (n : Nat) (late : LineLate) : State :=
  let e := s.engine n
  if 4 ≤ n ∨ s.engineOk n = false ∨ e.begun = false then s
  else
    let fmt := s.engFmt n
    let line := e.line
    let quad := decide (fmt = 4)
    let first := match activeLine fmt line with | some y => decide (y = 0) | none => false
    let s1 := if first && s.locks n && decide (e.black = 0) then s.lockSource n else s
    let anc := if s1.ancHere n line then ancFit (fmtW fmt) (ancPackets (s1.ancBuffer n) 400 0) else ([], false)
    let s2 := s1.raiseIf anc.2 (Pg.loupe n) Reg.LOUPE_EVENT_ANC_TRUNC
    let s3 :=
      match activeLine fmt line with
      | none => (s2.linksOf n).foldl (fun (s : State) k => s.sendLink n k line none (if k = n then anc.1 else []) late.audio) s2
      | some y =>
        let r := s2.composed n y late
        let links := s2.linksOf n
        let s3 := links.foldl
          (fun (s : State) k =>
            match linkPart quad k y r.1 with
            | none => s
            | some row =>
              let row := if quad && late.short.testBit k then List.replicate row.length blackPixel else row
              s.sendLink n k line (some row) [] late.audio) s2
        s3.lineSent n y r
    let e3 := s3.engine n
    let s4 := s3.putEngine n { e3 with
      line := line + 1
      audio := if afterSwitch fmt line then e3.audio else .ofTicks (s3.time.ticks + 1 - s3.lineTicks n) }
    if line + 1 = fmtLines fmt then s4.frameSent n else s4

/-- LOUPE_LINE (R357). -/
def execLoupeLine (n : Nat) (late : LineLate) (s : State) : Host.Outcome State Fault Refusal := .next (s.loupeLine n late)

/-! ### Sample points (R353 to R356, R360) -/

/-- The picture of a decoder that an engine shows. -/
def State.shownPic (s : State) (v f : Nat) : DecPic :=
  (s.dec (v - 8)).slots.get (f % max 1 (s.fld (Pg.hdec (v - 8)) Reg.HDEC_OUT_CFG))

/-- Transfer characteristic and colorimetry of an engine's source for the payload identifier: 0 SDR, 1 PQ, 2 HLG; 0 BT.709, 1 BT.2020. For a
decoder they come from the VUI of the picture's stream (R360). PRESUMED (log 70). -/
def State.srcColour (s : State) (n : Nat) : Nat × Nat :=
  match srcOf (s.lv n Reg.LOUPE_SRC), (s.engine n).source with
  | none, _ => (0, 0)
  | some v, shown =>
    if v < 8 then
      let t := s.fld (Pg.prismBe v) Reg.PRISM_BE_OUT_CFG_TRANSFER
      (if t = 2 then 1 else if t = 3 then 2 else 0, if s.fld (Pg.prismBe v) Reg.PRISM_BE_OUT_CFG_YCC = 2 then 1 else 0)
    else
      match shown with
      | some (v, f) =>
        let p := s.shownPic v f
        (if p.transfer = 16 then 1 else if p.transfer = 18 then 2 else 0, if p.matrix = 9 ∨ p.matrix = 10 then 1 else 0)
      | none => (0, 0)

/-- The SDI pages as an engine's new frame leaves them: the payload identifier, and RETUNE when the serial rate changes (R360, R372). -/
def State.showSdi (s0 s : State) (n : Nat) : State :=
  let rateOf := fun (s : State) => (carriage n (s.engFmt n) (s.engRate n), [0, 3, 6, 9].contains (s.engRate n))
  let moved := decide (rateOf s0 ≠ rateOf s)
  let c := s.srcColour n
  (s.linksOf n).foldl
    (fun (s : State) k =>
      let link := if s.engFmt n = 4 then k else 0
      (s.setFld (Pg.sdi k) Reg.SDI_PID_LAST (Config.payloadId (s.engFmt n) (s.engRate n) link c.1 c.2)).raiseIf moved (Pg.sdi k)
        Reg.SDI_EVENT_RETUNE) s

/-- The values of an engine's active copies. -/
def State.activeVals (s : State) (n : Nat) : List (Nat × Word) :=
  (shadowOffs .loupe).map fun o => (o, s.rd (Pg.loupe n * 0x1000 + o + 0x400))

/-- Line 0 of an output frame: a pending commit of SOURCE 0b01 applies, the values of the frame are read, a new format or rate makes the
generator relock, and with LOCK 0 the source frame is chosen (R353 to R356). DESIGN CHOICE (log 64). -/
def State.samplePoint (s : State) (n : Nat) : State :=
  let g := Pg.loupe n
  let e := s.engine n
  if 4 ≤ n ∨ s.engineRuns n = false ∨ e.begun then s
  else
    let own := decide (s.fld g Reg.COMMON_COMMIT_PENDING = 1) && decide (s.fld g Reg.COMMON_COMMIT_SOURCE = 1)
    let s1 := if own then s.applyCommit g else s
    let fresh := e.vals.isEmpty
    let s2 := s1.putEngine n { e with vals := s1.activeVals n, begun := true, line := 0, sampled := s1.time, realign := false }
    let relock := !fresh && decide ((s2.engFmt n, s2.engRate n) ≠ (s1.engFmt n, s1.engRate n))
    let left := if relock then 1 + Config.free 74 s2.seed % 2 else e.black - 1
    let s3 := s2.putEngine n { s2.engine n with black := left }
    let s4 : State := if relock then { (s3.setFld g Reg.LOUPE_STATE_PHASE 2) with seed := s3.seed + 1 }
      else if s3.fld g Reg.LOUPE_STATE_PHASE = 2 ∧ left = 0 then (s3.setFld g Reg.LOUPE_STATE_PHASE 1).raise g Reg.LOUPE_EVENT_RELOCK
      else s3.raiseIf (e.realign && !s3.locks n) g Reg.LOUPE_EVENT_RELOCK
    let s5 :=
      if s4.engineOk n = false then s4.putEngine n { s4.engine n with begun := false }
      else if s4.locks n then
        (match (s4.engine n).source with
         | some (v, _) => if s4.srcRuns v then s4 else s4.setSource n none
         | none => s4)
      else
        match srcOf (s4.lv n Reg.LOUPE_SRC) with
        | some v => if s4.srcRuns v then s4.setSource n ((s4.newestOf v).map fun f => (v, f)) else s4.setSource n none
        | none => s4.setSource n none
    showSdi s s5 n

/-- LOUPE_SAMPLE_POINT (R355). -/
def execLoupeSamplePoint (n : Nat) (s : State) : Host.Outcome State Fault Refusal := .next (s.samplePoint n)

/-- LOCK_LOST (R354): no frame start within 1.5 frame periods of a locked generator. DESIGN CHOICE (log 64). -/
def execLockLost (n : Nat) (s : State) : Host.Outcome State Fault Refusal :=
  .next (if 4 ≤ n ∨ s.engineRuns n = false ∨ s.locks n = false ∨ s.on (Pg.loupe n) Reg.LOUPE_STATE_HOLDOVER then s
    else (s.setFld (Pg.loupe n) Reg.LOUPE_STATE_HOLDOVER 1).raise (Pg.loupe n) Reg.LOUPE_EVENT_LOCK_LOST)

/-- A frame start realigns a locked generator in holdover (R354). DESIGN CHOICE (log 64). -/
def State.relockAll (s : State) : State :=
  (List.range 4).foldl
    (fun (s : State) n =>
      if s.engineRuns n && s.locks n && s.on (Pg.loupe n) Reg.LOUPE_STATE_HOLDOVER then
        (s.setFld (Pg.loupe n) Reg.LOUPE_STATE_HOLDOVER 0).raise (Pg.loupe n) Reg.LOUPE_EVENT_RELOCK
      else s) s

/-- Engines let go of sources that have stopped (R345, R353). -/
def State.dropSources (s : State) : State :=
  (List.range 4).foldl
    (fun (s : State) n =>
      match (s.engine n).source with
      | some (v, _) => if s.srcRuns v then s else s.setSource n none
      | none => s) s

/-! ### Enabling an engine (R347, R356, R370) -/

/-- An engine starts (R353, R370). -/
def State.engineStart (s : State) (n : Nat) : State :=
  let g := Pg.loupe n
  let s1 := s.putEngine n { vals := s.activeVals n, audio := s.time }
  (s1.setFld64 g Reg.LOUPE_FRAMES_LO Reg.LOUPE_FRAMES_HI 0).setFld g Reg.LOUPE_STATE_PHASE 1

/-- An engine stops: its buffer is released, and a commit that waited for a sample point applies at once (R353, R355). -/
def State.engineStop (s : State) (n : Nat) : State :=
  let g := Pg.loupe n
  let s1 := (s.setSource n none).putEngine n {}
  let s2 := (s1.setFld g Reg.LOUPE_STATE_PHASE 0).setFld g Reg.LOUPE_STATE_HOLDOVER 0
  if s2.fld g Reg.COMMON_COMMIT_PENDING = 1 ∧ s2.fld g Reg.COMMON_COMMIT_SOURCE = 1 then s2.applyCommit g else s2

/-- Whether the active values of LOUPE0 make it a quad link on SDI (R344, R356). -/
def State.quadActive (s : State) : Bool :=
  decide (s.actv (Pg.loupe 0) Reg.LOUPE_FMT_FMT = 4) && s.sdiOn 0
    && decide (carriage 0 4 (s.actv (Pg.loupe 0) Reg.LOUPE_FMT_RATE) ≠ 0)

/-- Whether some of LOUPE1 to LOUPE3 drives its SDI output (R356). -/
def State.othersOnSdi (s : State) : Bool := [1, 2, 3].any fun n => s.sdiOn n && s.on (Pg.loupe n) Reg.LOUPE_CTRL_ENABLE

/-- Whether ENABLE may not be written to 1; `rises` says that the engine would start (R347, R356). DEDUCED (log 63). -/
def State.enableBarred (s : State) (n : Nat) (rises : Bool) : Bool :=
  decide (s.maxFmt n = 7) || (decide (n ≠ 0) && s.sdiOn n && s.on (Pg.loupe 0) Reg.LOUPE_CTRL_ENABLE && s.quadActive)
    || (rises && decide (n = 0) && s.quadActive && s.othersOnSdi)

/-- The effect of a write of LOUPE.CTRL (R347, R356, R370, R480). -/
def writeLoupeCtrl (r : Req) (n : Nat) (v : Word) (s : State) : State :=
  let g := Pg.loupe n
  withWrite r g 0x008 v s fun s old new =>
    let was := old.getLsbD 0
    let on := new.getLsbD 0
    if wmSet v Reg.LOUPE_CTRL_ENABLE && s.enableBarred n (!was) then s.reject g
    else
      let s1 := plainStore r g 0x008 s old new
      let s2 := if on = was ∨ outputMode s.ctl.mode = false then s1 else if on then s1.engineStart n else s1.engineStop n
      s2.settle g

/-- LOUPE_ENABLE (R347). -/
def execLoupeEnable (r : Req) (n : Nat) (v : Word) (s : State) : Host.Outcome State Fault Refusal :=
  .next (if 4 ≤ n then s else writeLoupeCtrl r n v s)

/-! ### Commits and the START check (R345, R347, R349, R354, R356) -/

/-- Whether RATE of an engine equals the take's frame rate (R354). -/
def State.rateMatches (s : State) (rate : Nat) : Bool :=
  match frameRate rate with
  | some r => decide (r.1 * s.takeRate.2 = s.takeRate.1 * r.2)
  | none => false

/-- Whether values of an engine are refused with FMT_ERR (R347, R349, R354). DEDUCED (log 63). -/
def State.fmtBad (s : State) (n : Nat) (g : Fld → Nat) : Bool :=
  let fmt := g Reg.LOUPE_FMT_FMT
  let big := if s.maxFmt n = 7 then true else decide (fmtW (s.maxFmt n) * fmtH (s.maxFmt n) < fmtW fmt * fmtH fmt)
  let plane := fun p => decide (g (Reg.LOUPE_GFX_CTRL_EN p) = 1) && decide (g (Reg.LOUPE_GFX_CTRL_FMT p) ≠ 3)
  let line := fun p =>
    let f := g (Reg.LOUPE_GFX_CTRL_FMT p)
    if f = 3 then 0 else g (Reg.LOUPE_GFX_SIZE_W p) * gfxBytes f
  let stride := fun p => g (Reg.LOUPE_GFX_STRIDE p)
  big || rateAbove (g Reg.LOUPE_FMT_RATE) (s.maxRate n)
    || [0, 1].any (fun p => (plane p && !(s.fld (Pg.loupe n) Reg.LOUPE_CFG_GFX_ALLOW).testBit p) || decide (stride p % 64 ≠ 0)
      || decide (stride p < line p))
    || (s.locks n && (decide (8 ≤ g Reg.LOUPE_SRC) || !s.rateMatches (g Reg.LOUPE_FMT_RATE)))

/-- Whether values of an engine name a rendition of a format that Loupe does not take (R345). DEDUCED (log 63). -/
def State.srcBad (s : State) (g : Fld → Nat) : Bool := decide (g Reg.LOUPE_SRC < 8) && !s.loupeTakes (g Reg.LOUPE_SRC)

/-- Whether a commit of values is discarded with STATE_REJECT (R356). -/
def State.fmtHeld (s : State) (n : Nat) (g : Fld → Nat) : Bool :=
  let p := Pg.loupe n
  let moved := decide (g Reg.LOUPE_FMT_FMT ≠ s.actv p Reg.LOUPE_FMT_FMT) || decide (g Reg.LOUPE_FMT_RATE ≠ s.actv p Reg.LOUPE_FMT_RATE)
  let named := fun f =>
    let t := s.fld Pg.pkt2110 (Reg.PKT2110_FLOW_CFG_TYPE f)
    let v := s.fld Pg.pkt2110 (Reg.PKT2110_FLOW_CFG_SRC f)
    s.on Pg.pkt2110 (Reg.PKT2110_FLOW_CFG_EN f) && ((decide (t = 0) && decide (v = 8 + n)) || (decide (t = 2) && decide (v = n)))
  (moved && (List.range 16).any named)
    || (decide (n = 0) && decide (g Reg.LOUPE_FMT_FMT = 4) && s.sdiOn 0 && decide (carriage 0 4 (g Reg.LOUPE_FMT_RATE) ≠ 0)
      && s.othersOnSdi)

/-- Whether an engine's shadows fail the START check (R345, R354). -/
def State.engineBad (s : State) (n : Nat) : Bool :=
  let g := fun f => s.fld (Pg.loupe n) f
  let src := g Reg.LOUPE_SRC
  (decide (src < 8) && s.rendUsed src && !s.loupeTakes src)
    || (s.locks n && (decide (8 ≤ src) || !s.rateMatches (g Reg.LOUPE_FMT_RATE)))

/-- Whether the conditions of R30 hold for an engine at take START: a rendition in use at a vertical scale between 1:1 and 2:1 down, on an
SDI output locked to the sensor at its frame rate. -/
def State.livePath (s : State) (n : Nat) : Bool :=
  let v := s.actv (Pg.loupe n) Reg.LOUPE_SRC
  let h := (cropOf (s.actv Pg.split) v (s.workW false) (s.workH false)).h
  decide (v < 8) && s.rendUsed v && s.locks n && s.sdiOn n && s.rateMatches (s.actv (Pg.loupe n) Reg.LOUPE_FMT_RATE)
    && decide (s.outH v ≤ h) && decide (h ≤ 2 * s.outH v)

/-- PHASE_MIN of the engines at take START: 64 sensor line times under the conditions of R30. The line time of a sensor is free, as is
PHASE_MIN elsewhere (R354). DESIGN CHOICE (log 64). -/
def State.loupeTake (s : State) : State :=
  let s1 := (List.range 4).foldl
    (fun (s : State) n =>
      s.setFld (Pg.loupe n) Reg.LOUPE_PHASE_MIN (if s.livePath n then Config.free 75 s.seed else Config.free 86 (4 * s.seed + n))) s
  { s1 with seed := s1.seed + 1 }

/-! ### Mirror (R368, R369, R371) -/

/-- Whether a line is the first or the last active line that a link carries of a frame. -/
def firstOfLink (quad : Bool) (k y : Nat) : Bool := decide (y = if quad then k / 2 else 0)
def lastOfLink (quad : Bool) (k y h : Nat) : Bool := decide (y + 1 = if quad ∧ k / 2 = 0 then h - 1 else h)

/-- The frame CRCs of a link compared at its last line, when every line of the frame was checked (R368, R369). -/
def State.mirrorFrame (s : State) (k : Nat) : State :=
  let m := s.mirror.get k
  let crc := fun (l : List Nat) => crc32c (l.reverse.flatMap fun v => leBytes 4 v)
  let s1 := (s.setFld Pg.mirror (Reg.MIRROR_FRAME_CRC k) (crc m.got)).putMirror k { m with got := [], want := [], whole := false }
  if m.whole = false then s.putMirror k { m with got := [], want := [] }
  else if crc m.got = crc m.want then s1
  else (s1.count Pg.mirror (Reg.MIRROR_MISMATCH_FRAMES k)).raise Pg.mirror Reg.MIRROR_EVENT_FRAME_MISMATCH

/-- A recaptured line compared with the line that Loupe sent (R369). -/
def State.mirrorLine (s : State) (k line crc : Nat) (b : MirrorLine) : State :=
  let n := s.linkEngine k
  let fmt := s.engFmt n
  let m := s.mirror.get k
  let p := Pg.mirror
  let y := (activeLine fmt line).getD 0
  let quad := decide (fmt = 4)
  if b.behind then s.mirrorLost k
  else if b.refs = false ∧ 1 ≤ m.missing then s.mirrorLost k
  else
    let s1 :=
      if b.refs then
        let s1 := (s.putMirror k { m with missing := 0, got := b.crc % 2 ^ 32 :: m.got, want := crc :: m.want }).count p
          (Reg.MIRROR_LINES_CHECKED k)
        let s2 := s1.raiseIf (decide (b.number ≠ lineNumber fmt line)) p Reg.MIRROR_EVENT_LINE_NUM_ERR
        if b.crc % 2 ^ 32 = crc then s2 else (s2.count p (Reg.MIRROR_MISMATCH_LINES k)).raise p Reg.MIRROR_EVENT_LINE_MISMATCH
      else s.putMirror k { m with missing := 1, want := crc :: m.want }
    if lastOfLink quad k y (fmtH fmt) then s1.mirrorFrame k else s1

/-- Mirror recaptures the next line of a link; after LOST checking resumes with the next frame (R369). DEDUCED (log 66). -/
def State.mirrorCheck (s : State) (k : Nat) (b : MirrorLine) : State :=
  let n := s.linkEngine k
  let e := s.engine n
  if 4 ≤ k ∨ s.mirrors k = false then s
  else
    match e.crcs.find? fun x => decide (x.1 = k) with
    | none => s
    | some x =>
      let s1 := s.putEngine n { e with crcs := e.crcs.eraseP fun y => decide (y.1 = k) }
      let first := firstOfLink (decide (s.engFmt n = 4)) k ((activeLine (s.engFmt n) x.2.1).getD 0)
      if s.isLost k then
        (if first then ((s1.setLost k false).putMirror k { whole := true }).mirrorLine k x.2.1 x.2.2 b else s1)
      else if first then (s1.putMirror k { s1.mirror.get k with got := [], want := [], whole := true }).mirrorLine k x.2.1 x.2.2 b
      else s1.mirrorLine k x.2.1 x.2.2 b

/-- MIRROR_LINE_CHECK (R369). -/
def execMirrorLineCheck (k : Nat) (b : MirrorLine) (s : State) : Host.Outcome State Fault Refusal := .next (s.mirrorCheck k b)

/-- The effect of a write of MIRROR.CTRL: the counters of a link clear when its bit rises (R371). -/
def writeMirrorCtrl (r : Req) (v : Word) (s : State) : State :=
  withWrite r Pg.mirror 0x008 v s fun s old new =>
    let rises := fun k => new.getLsbD (4 + k) && !old.getLsbD (4 + k)
    let s1 := (List.range 4).foldl
      (fun (s : State) k =>
        if rises k then
          ([Reg.MIRROR_LINES_CHECKED k, Reg.MIRROR_MISMATCH_LINES k, Reg.MIRROR_MISMATCH_FRAMES k].foldl
            (fun s f => s.setFld Pg.mirror f 0) (s.putMirror k {})).setLost k false
        else s) s
    (plainStore r Pg.mirror 0x008 s1 old new).settle Pg.mirror

end Sys2Proof.Machine
end

