-- ==== Sys2Proof/Machine/Net.lean ====
section
/-! DEFINITION. ST 2110 flows and the Ethernet ports (R358, R363 to R367, R373, R374, R417, R418). -/

namespace Sys2Proof.Machine

/-! ### Flows -/

/-- A flow. -/
def State.flow (s : State) (f : Nat) : FlowSt := s.flows.get f

/-- A flow replaced. -/
def State.putFlow (s : State) (f : Nat) (x : FlowSt) : State := { s with flows := s.flows.put f x }

/-- A field of a flow's register group. -/
def State.flowFld (s : State) (f : Nat) (r : Nat → Fld) : Nat := s.fld Pg.pkt2110 (r f)

/-- TYPE, SRC and Ethernet port of a flow (R374). -/
def State.flowType (s : State) (f : Nat) : Nat := s.flowFld f Reg.PKT2110_FLOW_CFG_TYPE
def State.flowSrc (s : State) (f : Nat) : Nat := s.flowFld f Reg.PKT2110_FLOW_CFG_SRC
def State.flowPort (s : State) (f : Nat) : Nat := s.flowFld f Reg.PKT2110_FLOW_CFG_PORT

/-- Whether a flow is enabled: TYPE 3 acts as EN 0 (R374). -/
def State.flowOn (s : State) (f : Nat) : Bool :=
  decide (s.flowFld f Reg.PKT2110_FLOW_CFG_EN = 1) && decide (s.flowType f ≠ 3)

/-- The pictures that a video flow carries: width, lines, chroma format (0 4:4:4, 1 4:2:2, 2 4:2:0), depth and whether they are RGB
(R364). -/
structure FlowShape where
  w : Nat
  h : Nat
  chroma : Nat
  depth : Nat
  rgb : Bool
  deriving DecidableEq, Repr

/-- The pictures of a video flow: those of its rendition, or the composed raster of its engine as committed. -/
def State.flowShape (s : State) (f : Nat) : FlowShape :=
  let v := s.flowSrc f
  if v < 8 then
    ⟨s.outW v, s.outH v, s.outChroma v, s.outDepth v, decide (s.fld (Pg.prismBe v) Reg.PRISM_BE_OUT_CFG_YCC = 0)⟩
  else
    let fmt := s.actv (Pg.loupe (v - 8)) Reg.LOUPE_FMT_FMT
    ⟨fmtW fmt, fmtH fmt, 1, 10, false⟩

/-- The columns of a pixel group of ST 2110-20, and its bytes (R365). PRESUMED (log 67). -/
def FlowShape.cols (p : FlowShape) : Nat :=
  if p.chroma = 0 then (if p.depth = 10 then 4 else if p.depth = 12 then 2 else 1)
  else if p.chroma = 2 then (if p.depth = 10 then 4 else 2)
  else 2
def FlowShape.bytes (p : FlowShape) : Nat :=
  let vals := if p.chroma = 0 then 3 * p.cols else if p.chroma = 2 then 3 * p.cols else 4
  vals * p.depth / 8

/-- The lines of a frame: in 4:2:0 a line is a pair of lines (R365). -/
def FlowShape.lines (p : FlowShape) : Nat := if p.chroma = 2 then p.h / 2 else p.h

/-- The groups of a line. -/
def FlowShape.groups (p : FlowShape) : Nat := ceilDiv p.w p.cols

/-- The packets of a line, and the groups of each but the last (R365). -/
def FlowShape.packets (p : FlowShape) (ext : Bool) : Nat :=
  ceilDiv (p.groups * p.bytes) (max 1 ((if ext then 8940 else 1440) / p.bytes * p.bytes))
def FlowShape.perPacket (p : FlowShape) (ext : Bool) : Nat := ceilDiv p.groups (max 1 (p.packets ext))

/-- The values of the group of a line that begins at column `x`, in the order in which they are sent (R365). PRESUMED (log 67). -/
def FlowShape.values (p : FlowShape) (pix : Nat → Nat → Nat × Nat × Nat) (x y : Nat) : List Nat :=
  if p.chroma = 0 then
    (List.range p.cols).flatMap fun i =>
      let v := pix (x + i) y
      if p.rgb then [v.2.2, v.1, v.2.1] else [v.2.1, v.1, v.2.2]
  else if p.chroma = 2 then
    (List.range (p.cols / 2)).flatMap fun i =>
      let a := pix (x + 2 * i) (2 * y)
      [a.1, (pix (x + 2 * i + 1) (2 * y)).1, (pix (x + 2 * i) (2 * y + 1)).1, (pix (x + 2 * i + 1) (2 * y + 1)).1, a.2.1, a.2.2]
  else
    let a := pix x y
    [a.2.1, a.1, a.2.2, (pix (x + 1) y).1]

/-- The payload of a packet of a line (R365). PRESUMED (log 67). -/
def FlowShape.payload (p : FlowShape) (ext : Bool) (pix : Nat → Nat → Nat × Nat × Nat) (y i : Nat) : List Byte :=
  let per := p.perPacket ext
  let n := if i + 1 < p.packets ext then per else p.groups - i * per
  (List.range n).flatMap fun k => bitBytes ((p.values pix (p.cols * (i * per + k)) y).flatMap (bitsOf p.depth))

/-! ### Wire rates (R367) -/

/-- The bytes of a packet on the wire beyond its UDP payload: 70 with a VLAN tag (R367). -/
def State.wireExtra (s : State) (f : Nat) : Nat := if s.on (Pg.eth (s.flowPort f)) Reg.ETH_VLAN_EN then 70 else 66

/-- EXT of a flow. -/
def State.flowExt (s : State) (f : Nat) : Bool := decide (s.flowFld f Reg.PKT2110_FLOW_CFG_EXT = 1)

/-- The frame rate of a video or ancillary flow: its RATE for a rendition, that of the engine otherwise. -/
def State.flowRate (s : State) (f : Nat) : Option (Nat × Nat) :=
  if s.flowType f = 0 ∧ s.flowSrc f < 8 then frameRate (s.flowFld f Reg.PKT2110_FLOW_CFG_RATE)
  else frameRate (s.actv (Pg.loupe (if s.flowType f = 0 then s.flowSrc f - 8 else s.flowSrc f)) Reg.LOUPE_FMT_RATE)

/-- The sample rate, the samples of a packet and the packets per second of an audio flow (R364, R374). -/
def State.flowFs (s : State) (f : Nat) : Nat := if s.flowFld f Reg.PKT2110_FLOW_CFG_FS = 1 then 96000 else 48000
def State.flowPps (s : State) (f : Nat) : Nat := if s.flowFld f Reg.PKT2110_FLOW_CFG_PTIME = 1 then 8000 else 1000
def State.flowSamples (s : State) (f : Nat) : Nat := s.flowFs f / s.flowPps f

/-- The channels of an audio flow, 1 to 32, and the bytes of a sample. -/
def State.flowCh (s : State) (f : Nat) : Nat := max 1 (min 32 (s.flowFld f Reg.PKT2110_FLOW_CFG_CH))
def State.flowL (s : State) (f : Nat) : Nat := if s.flowFld f Reg.PKT2110_FLOW_CFG_L24 = 1 then 3 else 2

/-- The user packets of an engine as bits of an ST 2110-40 payload, each with its location word, 32-bit aligned; the horizontal offset is
that of no specific place (R364). PRESUMED (log 67). -/
def ancBits (fmt line : Nat) (p : List Nat) : List Bool :=
  let l := bitsOf 1 0 ++ bitsOf 11 (lineNumber fmt line) ++ bitsOf 12 0xFFF ++ bitsOf 1 0 ++ bitsOf 7 0 ++ p.flatMap (bitsOf 10)
  l ++ List.replicate ((32 - l.length % 32) % 32) false

/-- The payload of an ancillary packet: high word of the extended sequence number, length, count, field and packets (R364). PRESUMED (log
67). -/
def ancPayload (fmt line seq field : Nat) (ps : List (List Nat)) : List Byte :=
  let body := ps.flatMap (ancBits fmt line)
  bitBytes (bitsOf 16 (seq / 65536) ++ bitsOf 16 (body.length / 8) ++ bitsOf 8 ps.length ++ bitsOf 2 field ++ bitsOf 22 0 ++ body)

/-- The bytes per second of a flow on the wire (R367). -/
def State.wireBytes (s : State) (f : Nat) : Frac :=
  let extra := s.wireExtra f
  match s.flowType f with
  | 1 => ⟨(s.flowPps f * (12 + s.flowSamples f * s.flowCh f * s.flowL f + extra) : Nat), 1⟩
  | t =>
    match s.flowRate f with
    | none => ⟨0, 1⟩
    | some r =>
      let frame :=
        if t = 0 then
          let p := s.flowShape f
          p.lines * (p.groups * p.bytes + p.packets (s.flowExt f) * (20 + extra))
        else
          let n := s.flowSrc f
          let fields := if s.engFmt n = 1 then 2 else 1
          fields * (12 + (ancPayload 0 0 0 0 (ancPackets (s.ancBuffer n) 400 0)).length + extra)
      ⟨(frame * r.1 : Nat), r.2⟩

/-- The wire rate of a flow in Mbit/s, rounded down (R367, R374). DEDUCED (log 69). -/
def State.wireRate (s : State) (f : Nat) : Nat := ((s.wireBytes f).mul ⟨8, 1000000⟩).floor.toNat

/-- The enabled flows of a port, and their wire rate together (R367, R373). -/
def State.portFlows (s : State) (e : Nat) : List Nat := (List.range 16).filter fun f => s.flowOn f && decide (s.flowPort f = e)
def State.portBytes (s : State) (e : Nat) : Frac := Frac.sum ((s.portFlows e).map s.wireBytes)

/-! ### Enabling a flow (R367, R374, R417) -/

/-- Whether EN of a flow may not be written to 1: the flows of its port would exceed 95,000 Mbit/s, or it names an engine without a valid
raster (R367). -/
def State.flowOver (s : State) (f : Nat) : Bool :=
  let v := s.flowSrc f
  let bad := fun n =>
    !rasterOk n (s.actv (Pg.loupe n) Reg.LOUPE_FMT_FMT) (s.actv (Pg.loupe n) Reg.LOUPE_FMT_RATE) (s.sdiOn n)
  (decide (s.flowType f = 0 ∧ 8 ≤ v ∧ v < 12) && bad (v - 8)) || (decide (s.flowType f = 2 ∧ v < 4) && bad v)
    || Frac.lt ⟨95000000000, 8⟩ (s.portBytes (s.flowPort f))

/-- Whether a flow that rises names a source that cannot serve it (R374, R417). DEDUCED (log 69). -/
def State.flowBad (s : State) (f : Nat) : Bool :=
  let v := s.flowSrc f
  match s.flowType f with
  | 0 => decide (12 ≤ v) || (decide (v < 8) && (s.flowRate f).isNone)
  | 1 => decide (4 ≤ v) || !s.audServes v (s.flowFs f)
  | 2 => decide (4 ≤ v)
  | _ => false

/-- The units of 2^−32 ns of an audio packet's time. -/
def State.packetTicks (s : State) (f : Nat) : Nat := 1000000000 * tickNs / s.flowPps f

/-- A flow starts: an engine's flow with the engine's next frame, an audio flow with the next packet time; the first sequence number is free
(R364 to R366). DESIGN CHOICE (log 68). -/
def State.flowStart (s : State) (f : Nat) : State :=
  let n := s.flowSrc f - 8
  let next := (s.fld64 (Pg.loupe n) Reg.LOUPE_FRAMES_LO Reg.LOUPE_FRAMES_HI + (if (s.engine n).begun then 1 else 0))
    * fmtH (s.actv (Pg.loupe n) Reg.LOUPE_FMT_FMT)
  let x : FlowSt := {
    index := if s.flowType f = 1 then ceilDiv s.time.ticks (s.packetTicks f) else 0
    line := if s.flowType f = 0 ∧ 8 ≤ s.flowSrc f then next else 0
    seq := Config.free 79 s.seed % 65536 }
  { (s.putFlow f x) with seed := s.seed + 1 }

/-- A flow gives up the frame in work: its buffer is released and it goes on with the first packet of its next frame (R364, R503). DEDUCED
(log 69). -/
def State.flowDrop (s : State) (f : Nat) : State :=
  let x := s.flow f
  let s1 := match x.frame with | some g => s.freeBuf (.hold f) (s.flowSrc f) g | none => s
  let h := (s.flowShape f).h
  let line := if s.flowSrc f < 8 then 0 else if x.line % max 1 h = 0 ∧ x.packet = 0 then x.line else (x.line / max 1 h + 1) * h
  s1.putFlow f { x with frame := none, packet := 0, line := line }

/-- The effect of a write of FLOW_CFG (R367, R374). DEDUCED (log 69). -/
def writeFlowCfg (r : Req) (f : Nat) (v : Word) (s : State) : State :=
  let g := Pg.pkt2110
  withWrite r g (0x040 + 0x20 * f) v s fun s old new =>
    let was := old.getLsbD 0
    let on := new.getLsbD 0
    let s1 := plainStore r g (0x040 + 0x20 * f) s old new
    if was && decide (old ||| 1 ≠ new ||| 1) then s.reject g
    else if on && s1.flowOn f && (s1.flowOver f || (!was && s1.flowBad f)) then (s.raise g Reg.PKT2110_EVENT_FLOW_ERR).reject g
    else if on && !was then s1.flowStart f
    else if was && !on then (s.flowDrop f).putFlow f {} |> fun s2 => plainStore r g (0x040 + 0x20 * f) s2 old new
    else s1

/-- FLOW_ENABLE (R367). -/
def execFlowEnable (r : Req) (f : Nat) (v : Word) (s : State) : Host.Outcome State Fault Refusal :=
  .next (if 16 ≤ f then s else writeFlowCfg r f v s)

/-! ### Sending (R358, R364 to R366, R499) -/

/-- Whether a flow may send a packet: the packetiser, the flow, its port and the port's link are up, and the device is not fenced. DESIGN
CHOICE (log 68). -/
def State.flowSends (s : State) (f : Nat) : Bool :=
  let e := Pg.eth (s.flowPort f)
  s.on Pg.pkt2110 Reg.PKT2110_CTRL_ENABLE && s.flowOn f && outputMode s.ctl.mode && s.on e Reg.ETH_CTRL_ENABLE
    && s.on e Reg.ETH_STATE_LINK_UP && !s.on Pg.array Reg.ARRAY_STATE_FENCED

/-- The addresses of a flow's packets: those of the flow's registers, with VLAN and the source addresses of its port's page (R374). -/
def State.flowAddrs (s : State) (f : Nat) : List Nat :=
  let e := Pg.eth (s.flowPort f)
  let w := fun (x : Fld) => s.fld Pg.pkt2110 x
  let tag := s.fld e Reg.ETH_VLAN_PCP * 8192 + s.fld e Reg.ETH_VLAN_VID + 1
  [w (Reg.PKT2110_DST_MAC_LO f) + 2 ^ 32 * w (Reg.PKT2110_DST_MAC_HI f), s.fld64 e Reg.ETH_MAC_LO Reg.ETH_MAC_HI,
    if s.on e Reg.ETH_VLAN_EN then tag else 0, s.fld e Reg.ETH_IPV4, w (Reg.PKT2110_DST_IP f), w (Reg.PKT2110_IPHDR_DSCP f),
    w (Reg.PKT2110_IPHDR_TTL f), w (Reg.PKT2110_PORTS_SRC f), w (Reg.PKT2110_PORTS_DST f), w (Reg.PKT2110_IPHDR_PT f),
    w (Reg.PKT2110_SSRC f)]

/-- A packet leaves on the flow's port; fill raises FILL (R358, R373). -/
def State.sendPacket (s : State) (f : Nat) (x : FlowSt) (stamp : Nat) (marker : Bool) (line off : Nat) (b : List Byte) (fill : Bool) :
    State :=
  let e := Pg.eth (s.flowPort f)
  let s1 := s.setFld64 e Reg.ETH_TX_FRAMES_LO Reg.ETH_TX_FRAMES_HI (s.fld64 e Reg.ETH_TX_FRAMES_LO Reg.ETH_TX_FRAMES_HI + 1)
  let s2 := (s1.raiseIf fill Pg.pkt2110 Reg.PKT2110_EVENT_FILL).putFlow f { x with seq := x.seq + 1 }
  s2.emit (.rtp f x.seq stamp marker line off b (s.flowAddrs f))

/-- The RTP timestamp of an alignment point: its 90 kHz time (R366). DESIGN CHOICE (log 68). -/
def stampOf (j : Nat) (r : Nat × Nat) : Nat := j * r.2 * 90000 / max 1 r.1 % 2 ^ 32

/-- The alignment point at or before a time (R353, R364). -/
def alignIndex (ticks : Nat) (r : Nat × Nat) : Nat := ticks * r.1 / (max 1 r.2 * (1000000000 * tickNs))

/-- The place of a packet's next packet: the same line, the next line, or none after the last of the frame. -/
def FlowShape.step (p : FlowShape) (ext : Bool) (line packet : Nat) : Option (Nat × Nat) :=
  if packet + 1 < p.packets ext then some (line, packet + 1) else if line + 1 < p.lines then some (line + 1, 0) else none

/-- A code of a rendition's buffer at a pixel, without change (R364). -/
def State.rawPixel (s : State) (p : SrcShape) (x y : Nat) : Nat × Nat × Nat :=
  let a := p.base1 + (if p.chroma = 2 then y / 2 else y) * p.stride1
  let i := if p.chroma = 0 then x else x / 2
  (s.sampleAt (p.base0 + y * p.stride0) p.depth x, s.sampleAt a p.depth (2 * i), s.sampleAt a p.depth (2 * i + 1))

/-- The next packet of a flow that carries a rendition: a frame begins at each alignment point of RATE with the newest complete frame, whose
buffer is held until its last packet; the fill of a late line is free (R358, R364). DESIGN CHOICE (log 68). -/
def State.sendDirect (s : State) (f : Nat) (late : Bool) : State :=
  let v := s.flowSrc f
  let x := s.flow f
  match s.flowRate f with
  | none => s
  | some r =>
    let j := alignIndex s.time.ticks r
    let begin_ : Option (State × FlowSt × Nat) :=
      match x.frame with
      | some g => some (s, x, g)
      | none =>
        if x.index = j + 1 ∨ s.srcRuns v = false then none
        else (s.newestOf v).map fun g =>
          (s.holdBuf (.hold f) v g, { x with index := j + 1, frame := some g, line := 0, packet := 0, stamp := stampOf j r }, g)
    match begin_ with
    | none => s
    | some (s1, x1, g) =>
      let p := s1.flowShape f
      let ext := s1.flowExt f
      let pix := fun a b => if late then (Config.free 78 0, Config.free 78 1, Config.free 78 2) else s1.rawPixel (s1.srcShape v g) a b
      let b := p.payload ext pix x1.line x1.packet
      let off := p.cols * (x1.packet * p.perPacket ext)
      let row := if p.chroma = 2 then 2 * x1.line else x1.line
      match p.step ext x1.line x1.packet with
      | some n => s1.sendPacket f { x1 with line := n.1, packet := n.2 } x1.stamp false row off b late
      | none =>
        (s1.freeBuf (.hold f) v g).sendPacket f { x1 with frame := none, line := 0, packet := 0 } x1.stamp true row off b late

/-- The fill of an engine for a line of a flow: its CFG.FILL (R357, R358). -/
def State.flowFill (s : State) (n key : Nat) : List (Nat × Nat × Nat) :=
  let black := List.replicate (fmtW (s.engFmt n)) blackPixel
  if s.fld (Pg.loupe n) Reg.LOUPE_CFG_FILL = 1 then
    match (s.engine n).rows.find? fun e => decide (e.1 + 1 = key) with
    | some e => e.2
    | none => black
  else black

/-- The next packet of a flow that carries an engine's composed raster; it waits for a line that is not composed yet (R358, R364). DESIGN
CHOICE (log 68). -/
def State.sendEngine (s : State) (f : Nat) (late : Bool) : State :=
  let n := s.flowSrc f - 8
  let e := s.engine n
  let p := s.flowShape f
  let ext := s.flowExt f
  let frames := s.fld64 (Pg.loupe n) Reg.LOUPE_FRAMES_LO Reg.LOUPE_FRAMES_HI
  let x0 := s.flow f
  let x := if (frames + 1) * p.h < x0.line then { x0 with line := (frames + 1) * p.h, packet := 0 } else x0
  match s.flowRate f, e.rows with
  | some r, newest :: _ =>
    if newest.1 < x.line ∨ s.engineOk n = false then s.putFlow f x
    else
      let i := x.line % max 1 p.h
      let y := lineAt (s.engFmt n) i
      let held := e.rows.find? fun z => decide (z.1 = x.line)
      let fill := late || held.isNone
      let row := if fill then s.flowFill n x.line else (held.getD (0, [])).2
      let b := p.payload ext (fun a _ => row.getD a blackPixel) 0 x.packet
      let at_ := if s.locks n then e.sampled.ticks else e.sampled.ticks - s.fld (Pg.loupe n) Reg.LOUPE_PHASE * tickNs
      let stamp := if i = 0 ∧ x.packet = 0 then
          (if s.locks n then at_ * 90000 / (1000000000 * tickNs) % 2 ^ 32 else stampOf (alignIndex at_ r) r)
        else x.stamp
      let line := if s.engFmt n = 1 then y / 2 + y % 2 * 32768 else y
      let off := p.cols * (x.packet * p.perPacket ext)
      let done := decide (p.packets ext ≤ x.packet + 1)
      let x1 := { x with
        stamp := stamp
        line := if done then x.line + 1 else x.line
        packet := if done then 0 else x.packet + 1 }
      s.sendPacket f x1 stamp (done && decide (i + 1 = p.h)) line off b fill
  | _, _ => s.putFlow f x

/-- A sample as the big-endian bytes of L16 or L24 (R364). PRESUMED (log 67). -/
def pcmBytes (word bytes : Nat) (v : Int) : List Byte :=
  let b := 8 * bytes
  beBytes bytes (unsigned b (if word ≤ b then v * 2 ^ (b - word) else v / 2 ^ (word - b)))

/-- The next packet of an audio flow, once its packet time has passed; samples that are late or absent are sent as zero (R358, R417, R418).
DESIGN CHOICE (log 68). -/
def State.sendAudio (s : State) (f : Nat) (late : Bool) : State :=
  let x := s.flow f
  let a := s.flowSrc f
  let t := s.packetTicks f
  let n := s.flowSamples f
  if s.time.ticks < (x.index + 1) * t ∨ s.audServes a (s.flowFs f) = false then s
  else
    let fs := if late then [] else s.audSpan a (x.index * t) ((x.index + 1) * t)
    let first := s.flowFld f Reg.PKT2110_FLOW_CFG_FIRST_SLOT
    let sample := fun i c => match fs[i]? with | some e => s.audSample a e (first + c) | none => 0
    let b := (List.range n).flatMap fun i =>
      (List.range (s.flowCh f)).flatMap fun c => pcmBytes (s.audWord a) (s.flowL f) (sample i c)
    s.sendPacket f { x with index := x.index + 1 } (x.index * n % 2 ^ 32) false 0 0 b (decide (fs.length < n))

/-- The packet of an ancillary flow for the engine's frame or field in work; late data leaves it without packets (R358, R364). -/
def State.sendAnc (s : State) (f : Nat) (late : Bool) : State :=
  let n := s.flowSrc f
  let e := s.engine n
  let x := s.flow f
  let fmt := s.engFmt n
  let field := if fmt = 1 ∧ 562 < e.line then 1 else 0
  let key := 2 * s.fld64 (Pg.loupe n) Reg.LOUPE_FRAMES_LO Reg.LOUPE_FRAMES_HI + field
  match s.flowRate f with
  | none => s
  | some r =>
    if e.begun = false ∨ x.index = key + 1 then s
    else
      let at_ := if s.locks n then e.sampled.ticks else e.sampled.ticks - s.fld (Pg.loupe n) Reg.LOUPE_PHASE * tickNs
      let stamp := (if s.locks n then at_ * 90000 / (1000000000 * tickNs) else stampOf (alignIndex at_ r) r) % 2 ^ 32
      let ps := if late then [] else ancPackets (s.ancBuffer n) 400 0
      let b := ancPayload fmt (s.lv n Reg.LOUPE_ANC_CFG_LINE) x.seq (if fmt = 1 then 2 + field else 0) ps
      s.sendPacket f { x with index := key + 1 } stamp true 0 0 b late

/-- A flow sends its next packet (R358, R366). -/
def State.flowSend (s : State) (f : Nat) (late : Bool) : State :=
  if 16 ≤ f ∨ s.flowSends f = false then s
  else
    match s.flowType f with
    | 0 => if s.flowSrc f < 8 then s.sendDirect f late else s.sendEngine f late
    | 1 => s.sendAudio f late
    | _ => s.sendAnc f late

/-- ST2110_PACKET_SEND (R366). -/
def execSt2110PacketSend (f : Nat) (late : Bool) (s : State) : Host.Outcome State Fault Refusal := .next (s.flowSend f late)

/-! ### Ethernet (R363, R373) -/

/-- Whether a received frame carries PTP: IPv4 UDP to port 319 or 320, with or without a VLAN tag (R363, R379). -/
def isPtp (b : List Byte) : Bool :=
  let o := if beNat (slice b 12 2) = 0x8100 then 16 else 12
  let ip := o + 2
  let ihl := leAt b ip 1 % 16 * 4
  let port := beNat (slice b (ip + ihl + 2) 2)
  decide (beNat (slice b o 2) = 0x0800) && decide (leAt b (ip + 9) 1 = 17) && (decide (port = 319) || decide (port = 320))

/-- Whether a port runs with its link up. -/
def State.ethUp (s : State) (e : Nat) : Bool :=
  outputMode s.ctl.mode && s.on (Pg.eth e) Reg.ETH_CTRL_ENABLE && s.on (Pg.eth e) Reg.ETH_STATE_LINK_UP

/-- ETH_RX_FRAME (R363): a PTP message goes to the Collimator, whose own commands carry what it holds; any other frame is discarded. DEDUCED
(log 69). -/
def execEthRxFrame (e : Nat) (frame : List Byte) (s : State) : Host.Outcome State Fault Refusal :=
  .next (if 2 ≤ e ∨ s.ethUp e = false ∨ isPtp frame then s else s.count (Pg.eth e) Reg.ETH_RX_DISCARDS)

/-- A port's link up or down, with its event when it changes (R373). -/
def State.setEthLink (s : State) (e : Nat) (up : Bool) : State :=
  let g := Pg.eth e
  if s.on g Reg.ETH_STATE_LINK_UP = up then s
  else
    let s1 := (s.setOn g Reg.ETH_STATE_LINK_UP up).setOn g Reg.ETH_STATE_FEC_LOCK up
    s1.raise g (if up then Reg.ETH_EVENT_LINK_UP else Reg.ETH_EVENT_LINK_DOWN)

/-- ETH_LINK_CHANGE (R373). -/
def execEthLinkChange (e : Nat) (up : Bool) (s : State) : Host.Outcome State Fault Refusal :=
  .next (if 2 ≤ e ∨ outputMode s.ctl.mode = false ∨ s.on (Pg.eth e) Reg.ETH_CTRL_ENABLE = false then s else s.setEthLink e up)

/-- FEC_CODEWORD (R373). -/
def execFecCodeword (e : Nat) (correctable : Bool) (s : State) : Host.Outcome State Fault Refusal :=
  .next (if 2 ≤ e ∨ outputMode s.ctl.mode = false ∨ s.on (Pg.eth e) Reg.ETH_CTRL_ENABLE = false then s
    else if correctable then s.count (Pg.eth e) Reg.ETH_FEC_CORR
    else (s.count (Pg.eth e) Reg.ETH_FEC_UNCORR).raise (Pg.eth e) Reg.ETH_EVENT_FEC_UNCORR)

/-- The effect of a write of ETH.CTRL: a port that stops loses its link (R373). DEDUCED (log 69). -/
def writeEthCtrl (r : Req) (e : Nat) (v : Word) (s : State) : State :=
  let g := Pg.eth e
  withWrite r g 0x008 v s fun s old new =>
    let s1 := plainStore r g 0x008 s old new
    (if new.getLsbD 0 then s1 else s1.setEthLink e false).settle g

end Sys2Proof.Machine
end

