-- ==== Sys2Proof/Machine/Coll.lean ====
section
/-! DEFINITION. The Collimator (R375 to R389, R400, R507): the time counter, snapshots, setting and stepping the time, PTP and the
servo, and SYNC_IN. -/

namespace Sys2Proof.Machine

/-! ### The counter (R375, R376) -/

/-- Whether the counter counts: ENABLE 1 outside reset, and in SLEEP only with SLEEP_KEEP (R376). -/
def State.collRuns (s : State) : Bool :=
  s.on Pg.coll Reg.COLL_CTRL_ENABLE && !decide (s.ctl.phase = .inReset)
    && (!decide (s.ctl.mode = .sleep) || s.on Pg.coll Reg.COLL_CTRL_SLEEP_KEEP)

/-- INC in ticks of 2^−32 ns (R375). -/
def State.inc (s : State) : Nat := s.fld Pg.coll Reg.COLL_INC_NS * 2 ^ 32 + s.fld Pg.coll Reg.COLL_INC_FRAC

/-- One TCLK edge (R375). DESIGN CHOICE (log 1, 91). -/
def State.tick (s : State) : State := if s.collRuns then { s with time := .ofTicks (s.time.ticks + s.inc) } else s

/-- The state of the servo (R382). -/
def State.servo (s : State) : Nat := s.fld Pg.coll Reg.COLL_STATE_SERVO

/-- The state with the Collimator part replaced. -/
def State.setColl (s : State) (c : CollSt) : State := { s with coll := c }

/-- Stepping is barred while a take runs or the triggers are armed (R386). -/
def State.stepBarred (s : State) : Bool :=
  s.on Pg.global Reg.GLOBAL_STATE_TAKE || !decide (s.fld Pg.trig Reg.TRIG_STATE_PHASE = 0)

/-- The time changes at one TCLK edge: TIME_STEPPED rises, and every running engine with LOCK 0 realigns at its next sample point (R378,
R385, R386). Timestamps taken before the step are not used after it. DEDUCED (log 73). -/
def State.stepTo (s : State) (t : Time) : State :=
  let mark := fun (s : State) (n : Nat) =>
    if s.running (Pg.loupe n) ∧ s.on (Pg.loupe n) Reg.LOUPE_CFG_LOCK = false then
      { s with loupe := s.loupe.put n { s.loupe.get n with realign := true } }
    else s
  let s1 := [0, 1, 2, 3].foldl mark { s with time := t, coll := { s.coll with sync := none, t3 := none } }
  s1.raise Pg.coll Reg.COLL_EVENT_TIME_STEPPED

/-- The counter, INC and F start anew (R376). -/
def State.collRestart (s : State) : State :=
  (((({ s with time := {}, coll := {} }.setFld Pg.coll Reg.COLL_INC_NS 2).setFld Pg.coll Reg.COLL_INC_FRAC 0).setFld Pg.coll
    Reg.COLL_FREQ 0).setFld Pg.coll Reg.COLL_STATE_SERVO 0).setFld Pg.array Reg.ARRAY_STATE_ALIGNED 0

/-! ### Rates (R384) -/

/-- One nanosecond in the units of CollSt. -/
def thetaNs : Int := 2 ^ 32 * 1680000

/-- One ppb in the units of CollSt.f. -/
def unitPpb : Int := thetaNs * 2 ^ 15

/-- A value held within ±`l`. -/
def clampAbs (l v : Int) : Int := max (-l) (min l v)

/-- ±RANGE × 1,000 ppb (R384, R402). -/
def State.rateLimit (s : State) : Int :=
  ((max 1 (min 1000 (s.fld Pg.coll Reg.COLL_SERVO_CFG_RANGE)) : Nat) : Int) * 1000 * unitPpb

/-- INC for a rate A, rounded down to 2^−32 ns (R384). DEDUCED (log 71). -/
def incOf (a : Int) : Nat := (2 ^ 33 * (unitPpb * 1000000000 - a) / (unitPpb * 1000000000)).toNat

/-- The rate A in force, and F shown in units of 2^−8 ppb. DEDUCED (log 71). -/
def State.setRate (s : State) (a : Int) : State :=
  let n := incOf a
  ((s.setFld Pg.coll Reg.COLL_INC_NS (n / 2 ^ 32)).setFld Pg.coll Reg.COLL_INC_FRAC n).setFld Pg.coll Reg.COLL_FREQ
    (unsigned 32 (s.coll.f * 256 / unitPpb))

/-- R384 for a sample θ whose interval is 2^`log` s. DEDUCED (log 71). -/
def State.slew (s : State) (theta log : Int) : State :=
  let step := theta * 2 ^ (-log).toNat
  let lim := s.rateLimit
  let f := clampAbs lim (s.coll.f + step * 2 ^ (15 - s.fld Pg.coll Reg.COLL_SERVO_CFG_KI))
  let a := clampAbs lim (f + step * 2 ^ (15 - s.fld Pg.coll Reg.COLL_SERVO_CFG_KP))
  ((s.setColl { s.coll with f := f }).setRate a).raiseIf (decide (a = lim) || decide (a = -lim)) Pg.coll
    Reg.COLL_EVENT_RANGE_LIMIT

/-- A = F (R384, R387, R388). -/
def State.holdRate (s : State) : State := s.setRate s.coll.f

/-! ### States of the servo (R382, R507) -/

/-- ALIGNED brought up to date; ALIGN_LOST rises when it falls (R507). -/
def State.showAligned (s : State) : State :=
  let now := decide (s.servo = 2) && decide (16 ≤ s.coll.within)
  let lost := s.on Pg.array Reg.ARRAY_STATE_ALIGNED && !now
  (s.setOn Pg.array Reg.ARRAY_STATE_ALIGNED now).raiseIf lost Pg.array Reg.ARRAY_EVENT_ALIGN_LOST

/-- The servo enters a state: LOCKED and HOLDOVER are reported, and outside ACQUIRE and LOCKED the rate follows F (R382, R387). -/
def State.enter (s : State) (v : Nat) : State :=
  let old := s.servo
  let s1 := s.setFld Pg.coll Reg.COLL_STATE_SERVO v
  let s2 := s1.raiseIf (decide (v = 2) && !decide (old = 2)) Pg.coll Reg.COLL_EVENT_LOCKED
  let s3 := s2.raiseIf (decide (v = 3) && !decide (old = 3)) Pg.coll Reg.COLL_EVENT_HOLDOVER
  let s4 := if v = 1 then s3.setColl { s3.coll with small := 0 } else s3
  (if v = 3 ∨ v = 4 then s4.holdRate else s4).showAligned

/-- The servo and protocol engine stop: no master is selected, and INC keeps its last value (R376, R382). -/
def State.servoStop (s : State) : State :=
  (s.setColl { f := s.coll.f }).enter 0

/-! ### Messages (R379 to R385) -/

/-- Whether the protocol engine runs. DEDUCED (log 74). -/
def State.ptpOn (s : State) : Bool :=
  s.on Pg.coll Reg.COLL_CTRL_ENABLE && s.on Pg.coll Reg.COLL_CTRL_PTP_EN
    && s.running (Pg.eth (s.fld Pg.coll Reg.COLL_PTP_CFG_PORT))

/-- Whether a message is one that the engine uses (R379). -/
def State.ptpTakes (s : State) (supported : Bool) (port domain : Nat) : Bool :=
  supported && decide (port = s.fld Pg.coll Reg.COLL_PTP_CFG_PORT)
    && decide (domain = min 127 (s.fld Pg.coll Reg.COLL_PTP_CFG_DOMAIN))

/-- A message that is not used (R379). -/
def State.ptpDiscard (s : State) : State := s.count Pg.coll Reg.COLL_PTP_DISCARDS

/-- Picoseconds in the units of CollSt. -/
def psUnits (n : Int) : Int := n * 2 ^ 32 * 1680

/-- A time of whole seconds and nanoseconds in the units of CollSt. -/
def nsUnits (sec ns : Nat) : Int := ((sec * 1000000000 + ns : Nat) : Int) * thetaNs

/-- A correctionField of 2^−16 ns in the units of CollSt. -/
def corrUnits (c : Int) : Int := c * 2 ^ 16 * 1680000

/-- The correction and link delay of a direction; none with CORR_EN 0 (R380, R381). -/
def State.pathCorr (s : State) (corr link : Fld) : Int :=
  if s.on Pg.coll Reg.COLL_PTP_CFG_CORR_EN then psUnits ((s.fld Pg.coll corr + s.fld Pg.coll link : Nat) : Int) else 0

/-- The receive timestamp of a message that crosses the balls now (R380). -/
def State.rxStamp (s : State) : Int :=
  (s.time.ticks : Int) * 1680000 - s.pathCorr Reg.COLL_RX_CORR Reg.COLL_LINK_DELAY_RX

/-- The transmit timestamp of a message that crosses the balls now (R380). -/
def State.txStamp (s : State) : Int :=
  (s.time.ticks : Int) * 1680000 + s.pathCorr Reg.COLL_TX_CORR Reg.COLL_LINK_DELAY_TX

/-- D: the mean of the newest accepted delay measurements (R383). -/
def CollSt.delay (c : CollSt) : Int := if c.delays.isEmpty then 0 else c.delays.sum / (2 * c.delays.length)

/-- θ shown in whole nanoseconds, saturating (R383, R402). -/
def State.showOffset (s : State) (theta : Int) : State :=
  s.setFld Pg.coll Reg.COLL_OFFSET (unsigned 32 (max (-(2 ^ 31)) (min (2 ^ 31 - 1) (theta / thetaNs))))

/-- STEP_CFG.DET in the units of CollSt. -/
def State.det (s : State) : Int := (s.fld Pg.coll Reg.COLL_STEP_CFG_DET : Int) * thetaNs

/-- A sample is accepted (R383, R384, R507). -/
def State.acceptSample (s : State) (theta : Int) : State :=
  let tol := max 1 (s.fld Pg.array Reg.ARRAY_ALIGN_TOL)
  let c := s.coll
  (s.setColl { c with
    accepted := (theta :: c.accepted).take 8
    small := if (theta.natAbs : Int) < s.det then c.small + 1 else 0
    within := if (theta / thetaNs).natAbs ≤ tol then c.within + 1 else 0 }).count Pg.coll Reg.COLL_SYNC_COUNT

/-- A sample that looks like a step: STEP_DETECT, and STEP_HOLD with the mean before it (R388, R389). DEDUCED (log 73). -/
def State.stepHold (s : State) : State :=
  ((s.setColl { s.coll with stepSum := s.coll.accepted.sum, stepNum := s.coll.accepted.length }).raise Pg.coll
    Reg.COLL_EVENT_STEP_DETECT).enter 4

/-- A sample in ACQUIRE: a step while it is large and not barred, else R384; LOCKED after 16 small ones (R384, R385). DEDUCED (log 73). -/
def State.acquire (s : State) (theta log : Int) : State :=
  let s1 := s.acceptSample theta
  let full := decide (8 ≤ s1.coll.delays.length)
  let acq := ((max 1 (s1.fld Pg.coll Reg.COLL_STEP_CFG_ACQ) : Nat) : Int) * 1000 * thetaNs
  if full && decide (acq < theta.natAbs) && !s1.stepBarred then
    let t := Time.ofTicks ((s1.time.ticks : Int) - theta / 1680000).toNat
    ((s1.stepTo t).setColl { (s1.stepTo t).coll with f := 0, small := 0 }).holdRate.showAligned
  else
    let s2 := s1.slew theta log
    if full && decide (16 ≤ s2.coll.small) then s2.enter 2 else s2.showAligned

/-- A sample in LOCKED: a step detection, or R384 (R384, R388). DEDUCED (log 71, 73). -/
def State.track (s : State) (theta log : Int) : State :=
  let c := s.coll
  let n := (c.accepted.length : Int)
  if 0 < s.det ∧ 0 < n ∧ s.det * n < (theta * n - c.accepted.sum).natAbs then s.stepHold
  else ((s.acceptSample theta).slew theta log).showAligned

/-- A sample from the selected master, by the state of the servo (R384, R385, R388, R389). -/
def State.sample (s0 : State) (theta log : Int) : State :=
  let s := (s0.setColl { s0.coll with received := (theta :: s0.coll.received).take 8 }).showOffset theta
  match s.servo with
  | 1 => s.acquire theta log
  | 2 => s.track theta log
  | 3 =>
    if s.det = 0 ∨ (theta.natAbs : Int) ≤ s.det then ((s.acceptSample theta).slew theta log).enter 2 else s.stepHold
  | _ => s

/-- A Sync with its Follow_Up (R379, R383, R384). DEDUCED (log 74). -/
def State.rxSync (s : State) (m : PtpSyncMsg) : State :=
  if s.ptpOn = false then s
  else if s.ptpTakes m.supported m.port m.domain = false ∨ m.logInterval < -7 ∨ -1 < m.logInterval then s.ptpDiscard
  else if s.coll.sel ≠ some (m.srcId, m.srcPort) then s
  else
    let v := s.rxStamp - nsUnits m.sec m.ns - corrUnits m.corr
    let theta := v - s.coll.delay - psUnits (signed 32 (s.fld Pg.coll Reg.COLL_ASYM))
    (s.setColl { s.coll with sync := some v }).sample theta m.logInterval

/-- PTP_SYNC (R384). -/
def execPtpSync (m : PtpSyncMsg) (s : State) : Host.Outcome State Fault Refusal := .next (s.rxSync m)

/-- The order of the data set comparison: priority1, clockClass, clockAccuracy, variance, priority2, grandmaster identity, steps removed and
sender, the lower one better (R379). PRESUMED (log 72). -/
def announceRank (m : PtpAnnounceMsg) : List Nat :=
  [m.prio1, m.clockClass, m.accuracy, m.variance, m.prio2, m.gmId, m.steps, m.srcId, m.srcPort]

/-- Whether a list of numbers comes before another. PRESUMED (log 72). -/
def rankLt : List Nat → List Nat → Bool
  | a :: x, b :: y => decide (a < b) || (decide (a = b) && rankLt x y)
  | _, _ => false

/-- The best of the masters heard (R379). PRESUMED (log 72). -/
def bestMaster : List PtpAnnounceMsg → Option PtpAnnounceMsg
  | [] => none
  | m :: t =>
    match bestMaster t with
    | none => some m
    | some b => if rankLt (announceRank b) (announceRank m) then some b else some m

/-- The selected master becomes `m` (R382, R387, R389). DEDUCED (log 73). -/
def State.select (s : State) (m : PtpAnnounceMsg) : State :=
  let known := s.fld64 Pg.coll Reg.COLL_MASTER_ID_LO Reg.COLL_MASTER_ID_HI
  let changed := !decide (known = 0) &&
    (!decide (known = m.srcId % 2 ^ 64) || !decide (s.fld Pg.coll Reg.COLL_MASTER_PORT = m.srcPort % 65536))
  let had := s.coll.sel.isSome
  let s1 := (s.setFld64 Pg.coll Reg.COLL_MASTER_ID_LO Reg.COLL_MASTER_ID_HI m.srcId).setFld Pg.coll Reg.COLL_MASTER_PORT m.srcPort
  let s2 := (s1.setColl { s1.coll with sel := some (m.srcId, m.srcPort), sync := none, t3 := none }).raiseIf changed Pg.coll
    Reg.COLL_EVENT_MASTER_CHANGE
  s2.enter (if had then 3 else 1)

/-- An Announce (R379, R389). PRESUMED (log 72). -/
def State.rxAnnounce (s : State) (m : PtpAnnounceMsg) : State :=
  if s.ptpOn = false then s
  else if s.ptpTakes m.supported m.port m.domain = false then s.ptpDiscard
  else
    let others := s.coll.masters.filter fun x => decide (x.srcId ≠ m.srcId) || decide (x.srcPort ≠ m.srcPort)
    let s1 := s.setColl { s.coll with masters := m :: others }
    match bestMaster s1.coll.masters with
    | none => s1
    | some b => if s1.coll.sel = some (b.srcId, b.srcPort) then s1 else s1.select b

/-- PTP_ANNOUNCE (R389). -/
def execPtpAnnounce (m : PtpAnnounceMsg) (s : State) : Host.Outcome State Fault Refusal := .next (s.rxAnnounce m)

/-- A Delay_Req goes out, to the multicast address or to the master's own with UNICAST, and its transmit time is latched (R379,
R380). -/
def State.sendDelayReq (s : State) : State :=
  if s.ptpOn = false then s
  else
    match s.coll.masters.find? fun x => decide (s.coll.sel = some (x.srcId, x.srcPort)) with
    | none => s
    | some m =>
      let dst := if s.on Pg.coll Reg.COLL_PTP_CFG_UNICAST then some (m.ip, m.mac) else none
      let k := s.fld Pg.coll Reg.COLL_PTP_CFG_PORT
      let g := Pg.eth k
      let s1 := s.setFld64 g Reg.ETH_TX_FRAMES_LO Reg.ETH_TX_FRAMES_HI (s.fld64 g Reg.ETH_TX_FRAMES_LO Reg.ETH_TX_FRAMES_HI + 1)
      (s1.setColl { s1.coll with t3 := some s.txStamp }).emit (.delayReq k dst)

/-- PTP_DELAY_REQ_SEND (R379). -/
def execPtpDelayReqSend (s : State) : Host.Outcome State Fault Refusal := .next s.sendDelayReq

/-- A Delay_Resp: with the newest Sync and the Delay_Req it makes a delay measurement, accepted in ACQUIRE and LOCKED (R383, R388). -/
def State.rxDelayResp (s : State) (m : PtpDelayRespMsg) : State :=
  if s.ptpOn = false then s
  else if s.ptpTakes m.supported m.port m.domain = false then s.ptpDiscard
  else if s.coll.sel ≠ some (m.srcId, m.srcPort) then s
  else if s.servo ≠ 1 ∧ s.servo ≠ 2 then s.setColl { s.coll with t3 := none }
  else
    match s.coll.sync, s.coll.t3 with
    | some v, some t3 =>
      let twice := v + (nsUnits m.sec m.ns - t3 - corrUnits m.corr)
      let s1 := s.setColl { s.coll with delays := (twice :: s.coll.delays).take 8, t3 := none }
      s1.setFld Pg.coll Reg.COLL_MEAN_DELAY (unsigned 32 (s1.coll.delay / thetaNs))
    | _, _ => s

/-- PTP_DELAY_RESP (R383). -/
def execPtpDelayResp (m : PtpDelayRespMsg) (s : State) : Host.Outcome State Fault Refusal := .next (s.rxDelayResp m)

/-- No Sync, or no Announce of any master, in time: HOLDOVER until a master qualifies again (R387). DESIGN CHOICE (log 3). DEDUCED (log 73).
-/
def State.syncLost (s : State) : State :=
  if s.ptpOn && s.coll.sel.isSome then (s.setColl { s.coll with sel := none, masters := [] }).enter 3 else s

/-- SYNC_TIMEOUT (R387). -/
def execSyncTimeout (s : State) : Host.Outcome State Fault Refusal := .next s.syncLost

/-- A number put into an ascending list. -/
def insertInt (v : Int) : List Int → List Int
  | [] => [v]
  | h :: t => if v ≤ h then v :: h :: t else h :: insertInt v t

/-- Twice the median of a list (R388). DEDUCED (log 71). -/
def twiceMedian (l : List Int) : Int :=
  let o := l.foldr insertInt []
  if o.length % 2 = 1 then 2 * o.getD (o.length / 2) 0 else o.getD (o.length / 2 - 1) 0 + o.getD (o.length / 2) 0

/-- The step window ends (R388). DESIGN CHOICE (log 3). -/
def State.windowEnd (s : State) : State :=
  if s.servo ≠ 4 then s
  else
    let n : Int := max 1 s.coll.stepNum
    let away := (twiceMedian s.coll.received * n - 2 * s.coll.stepSum).natAbs
    if (away : Int) ≤ 2 * n * s.det then (s.raise Pg.coll Reg.COLL_EVENT_STEP_TRANSIENT).enter 2
    else (s.raise Pg.coll Reg.COLL_EVENT_STEP_ACCEPTED).enter 1

/-- STEP_WINDOW_EXPIRY (R388). -/
def execStepWindowExpiry (s : State) : Host.Outcome State Fault Refusal := .next s.windowEnd

/-! ### Snapshot and setting (R376 to R378) -/

/-- The time latched into a requester's snapshot registers (R377). -/
def State.snap (s : State) (r : Req) : State :=
  let p := Pg.coll + 1024 * reqCode r
  ((s.setFld64 p Reg.COLL_SNAP_SEC_LO Reg.COLL_SNAP_SEC_HI s.time.sec).setFld p Reg.COLL_SNAP_NS s.time.ns).setFld p
    Reg.COLL_SNAP_FRAC s.time.frac

/-- Whether a write of SET is discarded: PTP_EN is 1, or stepping is barred (R378). DEDUCED (log 74). -/
def State.setBarred (s : State) : Bool := s.on Pg.coll Reg.COLL_CTRL_PTP_EN || s.stepBarred

/-- SET_SEC and SET_NS loaded (R378). -/
def State.setTime (s : State) : State :=
  s.stepTo ⟨s.fld64 Pg.coll Reg.COLL_SET_SEC_LO Reg.COLL_SET_SEC_HI, min 999999999 (s.fld Pg.coll Reg.COLL_SET_NS), 0⟩

/-- The effect of a write of COLL.CTRL, which a refused ENABLE or SET discards whole (R376 to R378). PF1 reaches ENABLE and SNAP alone. -/
def writeCollCtrl (r : Req) (v : Word) (s : State) : State :=
  withWrite r Pg.coll 0x008 v s fun s _ new =>
    let off := wmSel v Reg.COLL_CTRL_ENABLE && !wmSet v Reg.COLL_CTRL_ENABLE
    let set := wmSet v Reg.COLL_CTRL_SET && decide (r ≠ .pf1)
    if (off && s.on Pg.global Reg.GLOBAL_STATE_TAKE) || (set && s.setBarred) then s.reject Pg.coll
    else
      let new1 := Word.setBits (Word.setBits new 3 1 0) 4 1 0
      let s1 := s.wr (Pg.coll * 0x1000 + 0x008) new1
      let stops := !s1.on Pg.coll Reg.COLL_CTRL_ENABLE || !s1.on Pg.coll Reg.COLL_CTRL_PTP_EN
      let s2 := if stops ∧ s1.servo ≠ 0 then s1.servoStop else s1
      let s3 := if wmSet v Reg.COLL_CTRL_SNAP then s2.snap r else s2
      if set then s3.setTime else s3

/-- COLL_SNAP (R377). -/
def execCollSnap (r : Req) (v : Word) (s : State) : Host.Outcome State Fault Refusal := .next (writeCollCtrl r v s)

/-- COLL_SET (R378). -/
def execCollSet (r : Req) (v : Word) (s : State) : Host.Outcome State Fault Refusal := .next (writeCollCtrl r v s)

/-- The effect of a write of PTP_CFG: RX_CORR and TX_CORR show the values of the TS_MODE in force (R380). -/
def writePtpCfg (r : Req) (v : Word) (s : State) : State :=
  withWrite r Pg.coll 0x070 v s fun s old new => (plainStore r Pg.coll 0x070 s old new).showCorr

/-! ### SYNC_IN (R400) -/

/-- The selected edge on SYNC_IN: the time less 6 ns of input path is captured, and in IN_MODE 2 with PTP_EN 0 it steers the servo as a
whole second (R400). DEDUCED (log 74). -/
def State.syncIn (s : State) : State :=
  let mode := s.fld Pg.coll Reg.COLL_SYNC_CFG_IN_MODE
  if mode = 1 ∨ mode = 2 then
    let t := Time.ofTicks (s.time.ticks - 6 * tickNs)
    let s1 := ((s.setFld64 Pg.coll Reg.COLL_SYNC_IN_SEC_LO Reg.COLL_SYNC_IN_SEC_HI t.sec).setFld Pg.coll Reg.COLL_SYNC_IN_NS
      t.ns).setFld Pg.coll Reg.COLL_SYNC_IN_FRAC t.frac
    let s2 := s1.raise Pg.coll Reg.COLL_EVENT_SYNC_IN
    if mode = 2 ∧ s.on Pg.coll Reg.COLL_CTRL_PTP_EN = false ∧ s.on Pg.coll Reg.COLL_CTRL_ENABLE then
      let folded : Int := if 500000000 < t.ns then (t.ns : Int) - 1000000000 else t.ns
      (s2.showOffset (folded * thetaNs)).slew (folded * thetaNs) 0
    else s2
  else s

/-- SYNC_IN (R400). -/
def execSyncIn (s : State) : Host.Outcome State Fault Refusal := .next s.syncIn

end Sys2Proof.Machine
end

