-- ==== Sys2Proof/Machine/Trig.lean ====
section
/-! DEFINITION. The trigger schedule (R390 to R397, R469): the checks of take START, arming, trigger edges, the end of a pulse and
disarming; and SYNC_OUT (R401). -/

namespace Sys2Proof.Machine

/-- The take's frame rate as RATE_NUM and RATE_DEN (R390). -/
def State.rate (s : State) : Nat × Nat := (s.fld Pg.trig Reg.TRIG_RATE_NUM, s.fld Pg.trig Reg.TRIG_RATE_DEN)

/-- Whether some trigger pin is driven (R391, R395). -/
def State.trigUsed (s : State) : Bool :=
  s.on Pg.trig Reg.TRIG_CTRL_ENABLE && (s.on Pg.trig Reg.TRIG_CTRL_EN_A || s.on Pg.trig Reg.TRIG_CTRL_EN_B)

/-- The Field Stop minimum trigger period in ns (R469). -/
def State.minPeriod (s : State) : Nat := max 500000 (s.fld Pg.guard Reg.GUARD_TRIG_MIN_PERIOD)

/-- EXPO_DUTY (R476). -/
def State.duty (s : State) : Nat := max 1 (s.fld Pg.guard Reg.GUARD_EXPO_DUTY)

/-- The check of R390. -/
def State.rateBad (s : State) : Bool :=
  decide (s.rate.2 = 0) || decide (s.rate.1 < s.rate.2) || decide (2000 * s.rate.2 < s.rate.1)

/-- The trigger checks of take START: 0, or the status the START completes with (R395). -/
def State.trigCheck (s : State) : Nat :=
  let per := s.rate.2 * 1000000000
  let width := s.fld Pg.trig Reg.TRIG_WIDTH
  let level := s.on Pg.trig Reg.TRIG_CFG_MODE
  let off := signed 32 (s.fld Pg.trig Reg.TRIG_OFFSET_B)
  if s.rateBad then 0x02
  else if s.trigUsed = false then 0
  else if (level ∧ per ≤ width * s.rate.1) ∨ 1000000 < off.natAbs then 0x02
  else if per < s.minPeriod * s.rate.1 ∨ (level ∧ s.duty * per / (256 * s.rate.1) < width) then 0x11
  else 0

/-- The state with the schedule replaced. -/
def State.setTrig (s : State) (t : TrigSt) : State := { s with trig := t }

/-- The exposure start of grid point `g` of the schedule, in ticks, rounded down (R391). -/
def State.exposureAt (s : State) (g : Nat) : Nat :=
  s.trig.base + (s.trig.k + g) * s.rate.2 * (1000000000 * tickNs) / max 1 s.rate.1

/-- COMP of a pin in ticks (R393). -/
def State.comp (s : State) (pin : Nat) : Nat :=
  min 4000 (s.fld Pg.trig (if pin = 0 then Reg.TRIG_COMP_A else Reg.TRIG_COMP_B)) * tickNs

/-- Whether a pin is driven. -/
def State.pinOn (s : State) (pin : Nat) : Bool :=
  s.on Pg.trig Reg.TRIG_CTRL_ENABLE && s.on Pg.trig (if pin = 0 then Reg.TRIG_CTRL_EN_A else Reg.TRIG_CTRL_EN_B)

/-- How far a pin's edge lies after the exposure start, in ticks (R393). -/
def State.edgeShift (s : State) (pin : Nat) : Int :=
  (if pin = 0 then 0 else signed 32 (s.fld Pg.trig Reg.TRIG_OFFSET_B) * (tickNs : Int)) - s.comp pin

/-- The first edge of a grid point comes this far after its exposure start. DEDUCED (log 75). -/
def State.firstShift (s : State) : Int :=
  if s.pinOn 0 ∧ s.pinOn 1 then min (s.edgeShift 0) (s.edgeShift 1) else if s.pinOn 0 then s.edgeShift 0 else s.edgeShift 1

/-- The least `k` with k × RATE_DEN / RATE_NUM s not below `t` ticks. -/
def State.gridFrom (s : State) (t : Nat) : Nat := ceilDiv (t * s.rate.1) (max 1 s.rate.2 * (1000000000 * tickNs))

/-- The counters of TRIG clear at take START (R403). -/
def State.trigStart (s : State) : State :=
  { (((s.setFld64 Pg.trig Reg.TRIG_ISSUED_LO Reg.TRIG_ISSUED_HI 0).setFld Pg.trig Reg.TRIG_SUPPRESSED 0).setFld Pg.trig
    Reg.TRIG_SKIPPED 0) with trig := {}, exposures := [] }

/-- The schedule is armed at step 4 of take START (R392). DEDUCED (log 75). -/
def State.armTriggers (s : State) : State :=
  if s.trigUsed = false then s
  else
    let now := s.time.ticks
    let align := s.on Pg.trig Reg.TRIG_CFG_ALIGN
    let start := (s.fld64 Pg.trig Reg.TRIG_START_SEC_LO Reg.TRIG_START_SEC_HI * 1000000000 + s.fld Pg.trig Reg.TRIG_START_NS) * tickNs
    let base := if align then 0 else start
    let from_ : Int :=
      if align then ((now + max 1 (s.fld Pg.trig Reg.TRIG_CFG_LEAD) * 1000000 * tickNs : Nat) : Int)
      else (now : Int) + 10000 * (tickNs : Int) - s.firstShift - start
    let k := s.gridFrom from_.toNat
    let s1 := s.setTrig { base := base, k := k }
    let first := Time.ofTicks (s1.exposureAt 0)
    let s2 := ((s1.setFld64 Pg.trig Reg.TRIG_FIRST_SEC_LO Reg.TRIG_FIRST_SEC_HI first.sec).setFld Pg.trig Reg.TRIG_FIRST_NS
      first.ns).setFld Pg.trig Reg.TRIG_FIRST_FRAC first.frac
    let s3 := (s2.setFld Pg.trig Reg.TRIG_STATE_PHASE 1).raise Pg.trig Reg.TRIG_EVENT_ARMED
    if !align && decide (0 < k) then
      (s3.setFld Pg.trig Reg.TRIG_SKIPPED (min k (2 ^ 32 - 1))).raise Pg.trig Reg.TRIG_EVENT_LATE_START
    else s3

/-- No edge that has not begun is issued any more (R69, R397). DEDUCED (log 75). -/
def State.disarm (s : State) : State := s.setFld Pg.trig Reg.TRIG_STATE_PHASE 0

/-- A pin of the schedule. -/
def TrigSt.pin (t : TrigSt) (k : Nat) : TrigPin := if k = 0 then t.a else t.b

/-- The schedule with a pin replaced. -/
def TrigSt.setPin (t : TrigSt) (k : Nat) (p : TrigPin) : TrigSt := if k = 0 then { t with a := p } else { t with b := p }

/-- Whether a pin is the one whose edges are the triggers that frames are counted by: TRIGA, or TRIGB where TRIGA is not driven. DEDUCED
(log 75). -/
def State.leading (s : State) (pin : Nat) : Bool := decide (pin = 0) || !s.pinOn 0

/-- The length of a pulse in ns: WIDTH, ended at the duty cap when it is a level pulse; `period` ticks have passed since the pin's last
rising edge (R394, R396, R469). DEDUCED (log 75). -/
def State.pulseWidth (s : State) (period : Nat) : Nat :=
  let w := s.fld Pg.trig Reg.TRIG_WIDTH
  if s.on Pg.trig Reg.TRIG_CFG_MODE then min w (s.duty * period / (256 * tickNs)) else max 20 (min 65535 w)

/-- Where the delay line puts an edge: at the multiple of 125 ps nearest to its time in ticks (R393, R401). DEDUCED (log 92). -/
def placeEdge (t : Nat) : Nat := (t + tickNs / 16) / (tickNs / 8) * (tickNs / 8)

/-- The moment of a pin's next edge: it rises, or the point of the schedule passes fenced or suppressed (R393, R396, R397). DEDUCED (log 75,
92). -/
def State.triggerEdge (s : State) (pin : Nat) : State :=
  if 2 ≤ pin ∨ s.pinOn pin = false ∨ s.fld Pg.trig Reg.TRIG_STATE_PHASE = 0 ∨ s.on Pg.coll Reg.COLL_CTRL_ENABLE = false then s
  else
    let t := s.trig.pin pin
    let e := s.exposureAt t.next
    let due := ((e : Int) + s.edgeShift pin).toNat
    let lead := s.leading pin
    if s.on Pg.trig Reg.TRIG_STATE_FENCED then
      let s1 := s.setTrig (s.trig.setPin pin { t with next := t.next + 1 })
      if lead then s1.count Pg.trig Reg.TRIG_SKIPPED else s1
    else if t.last.any fun l => decide (due < l + s.minPeriod * tickNs) then
      ((s.setTrig (s.trig.setPin pin { t with next := t.next + 1 })).count Pg.trig Reg.TRIG_SUPPRESSED).raise Pg.trig
        Reg.TRIG_EVENT_SUPPRESSED
    else
      let period := match t.last with | some l => due - l | none => s.minPeriod * tickNs
      let p : TrigPin := { next := t.next + 1, last := some due, high := some (due + s.pulseWidth period * tickNs) }
      let s1 := (s.setTrig (s.trig.setPin pin p)).emit (.trigger pin true (placeEdge due))
      if lead then
        let j := s.fld64 Pg.trig Reg.TRIG_ISSUED_LO Reg.TRIG_ISSUED_HI
        let s2 := { s1 with exposures := (j, Time.ofTicks e) :: s1.exposures }
        ((s2.setFld64 Pg.trig Reg.TRIG_ISSUED_LO Reg.TRIG_ISSUED_HI (j + 1)).setFld Pg.trig Reg.TRIG_STATE_PHASE 2).raiseIf
          (decide (j = 0)) Pg.trig Reg.TRIG_EVENT_FIRST
      else s1

/-- TRIGGER_EDGE (R393). -/
def execTriggerEdge (port : Nat) (s : State) : Host.Outcome State Fault Refusal := .next (s.triggerEdge port)

/-- The end of a pin's pulse (R394, R396). -/
def State.pulseEnd (s : State) (pin : Nat) : State :=
  let t := s.trig.pin pin
  match t.high with
  | some e => if 2 ≤ pin then s else (s.setTrig (s.trig.setPin pin { t with high := none })).emit (.trigger pin false (placeEdge e))
  | none => s

/-- TRIGGER_PULSE_END (R394). -/
def execTriggerPulseEnd (port : Nat) (s : State) : Host.Outcome State Fault Refusal := .next (s.pulseEnd port)

/-! ### SYNC_OUT (R401) -/

/-- The newest point that OUT_MODE names at or before now: a whole second, an exposure start of the armed schedule, or a point of the grid
of the take's frame rate; none when the mode has none (R401). DEDUCED (log 92). -/
def State.syncPoint (s : State) : Option Nat :=
  let now := s.time.ticks
  let second := 1000000000 * tickNs
  let unit := max 1 s.rate.2 * second
  let num := max 1 s.rate.1
  match s.fld Pg.coll Reg.COLL_SYNC_CFG_OUT_MODE with
  | 0 => none
  | 1 => some (now / second * second)
  | 2 =>
    if s.fld Pg.trig Reg.TRIG_STATE_PHASE = 0 ∨ now < s.exposureAt 0 then none
    else some (s.exposureAt ((((now - s.trig.base + 1) * num - 1) / unit) - s.trig.k))
  | _ => some (((now + 1) * num - 1) / unit * unit / num)

/-- SYNC_OUT sends its pulse of OUT_WIDTH µs, placed like a trigger edge (R401). -/
def State.syncOut (s : State) : State :=
  if s.collRuns = false ∨ s.ctl.mode = .sleep then s
  else
    match s.syncPoint with
    | some t => s.emit (.syncOut (placeEdge t) (max 1 (s.fld Pg.coll Reg.COLL_SYNC_CFG_OUT_WIDTH)))
    | none => s

/-- SYNC_OUT_PULSE (R401). -/
def execSyncOutPulse (s : State) : Host.Outcome State Fault Refusal := .next s.syncOut

end Sys2Proof.Machine
end

