-- ==== Sys2Proof/Machine/Ecdsa.lean ====
section
/-! DEFINITION. Verification of ECDSA signatures over P-384 with SHA-384, which R456 names by FIPS 186-5. A point is three numbers
(X, Y, Z) that stand for the affine point (X ÷ Z², Y ÷ Z³); Z = 0 is the point at infinity. -/

namespace Sys2Proof.Machine

/-- The prime of the field of P-384. -/
def p384 : Nat := 2 ^ 384 - 2 ^ 128 - 2 ^ 96 + 2 ^ 32 - 1

/-- The order of the base point. -/
def p384n : Nat := 0xFFFFFFFFFFFFFFFFFFFFFFFFFFFFFFFFFFFFFFFFFFFFFFFFC7634D81F4372DDF581A0DB248B0A77AECEC196ACCC52973

/-- The coefficient b of the curve y² = x³ − 3x + b. -/
def p384b : Nat := 0xB3312FA7E23EE7E4988E056BE3F82D19181D9C6EFE8141120314088F5013875AC656398D8A2ED19D2A85C8EDD3EC2AEF

/-- A point of the curve. -/
structure EcPoint where
  x : Nat
  y : Nat
  z : Nat
  deriving DecidableEq, Repr

/-- The base point. -/
def p384g : EcPoint :=
  ⟨0xAA87CA22BE8B05378EB1C71EF320AD746E1D3B628BA79B9859F741E082542A385502F25DBF55296C3A545E3872760AB7,
   0x3617DE4A96262C6F5D9E98BF9292DC29F8F41DBD289A147CE9DA3113B5F0B8C00A60B1CE1D7E819D7A431D7C90EA0E5F, 1⟩

/-- A difference modulo `m`. -/
def subMod (m a b : Nat) : Nat := (a + (m - b % m)) % m

/-- A power modulo `m`; `n` bounds the bits of the exponent. -/
def powMod (m : Nat) : Nat → Nat → Nat → Nat
  | 0, _, _ => 1 % m
  | n + 1, a, e => if e % 2 = 1 then a * powMod m n (a * a % m) (e / 2) % m else powMod m n (a * a % m) (e / 2)

/-- The inverse modulo a prime of at most 384 bits. -/
def invMod (m a : Nat) : Nat := powMod m 384 (a % m) (m - 2)

/-- A point doubled. -/
def EcPoint.double (a : EcPoint) : EcPoint :=
  let m := p384
  let yy := a.y * a.y % m
  let s := 4 * a.x * yy % m
  let zz := a.z * a.z % m
  let t := 3 * (subMod m a.x zz * ((a.x + zz) % m)) % m
  let x := subMod m (t * t % m) (2 * s)
  ⟨x, subMod m (t * subMod m s x % m) (8 * yy * yy), 2 * a.y * a.z % m⟩

/-- The sum of two points. -/
def EcPoint.add (a b : EcPoint) : EcPoint :=
  let m := p384
  if a.z % m = 0 then b
  else if b.z % m = 0 then a
  else
    let za := a.z * a.z % m
    let zb := b.z * b.z % m
    let u1 := a.x * zb % m
    let u2 := b.x * za % m
    let s1 := a.y * zb * b.z % m
    let s2 := b.y * za * a.z % m
    let h := subMod m u2 u1
    let r := subMod m s2 s1
    if h = 0 then (if r = 0 then a.double else ⟨1, 1, 0⟩)
    else
      let hh := h * h % m
      let hhh := h * hh % m
      let v := u1 * hh % m
      let x := subMod m (r * r % m) (hhh + 2 * v)
      ⟨x, subMod m (r * subMod m v x % m) (s1 * hhh), h * a.z * b.z % m⟩

/-- A multiple of a point; `n` bounds the bits of the factor. -/
def EcPoint.mul (a : EcPoint) : Nat → Nat → EcPoint
  | 0, _ => ⟨1, 1, 0⟩
  | n + 1, k =>
    let d := (a.mul n (k / 2)).double
    if k % 2 = 1 then d.add a else d

/-- Whether affine coordinates lie on the curve. -/
def onCurve (x y : Nat) : Bool := decide (x < p384) && decide (y < p384) && decide (y * y % p384 = (subMod p384 (x * x * x) (3 * x) + p384b) % p384)

/-- Whether a signature, r then s of 48 bytes each, verifies over a message under an uncompressed public key (R456). -/
def ecdsaOk (key msg sig : List Byte) : Bool :=
  let r := beNat (slice sig 0 48)
  let s := beNat (slice sig 48 48)
  let x := beNat (slice key 1 48)
  let y := beNat (slice key 49 48)
  if leAt key 0 1 ≠ 4 ∨ onCurve x y = false ∨ r = 0 ∨ p384n ≤ r ∨ s = 0 ∨ p384n ≤ s then false
  else
    let e := beNat (sha384 msg)
    let w := invMod p384n s
    let p := (p384g.mul 384 (e * w % p384n)).add ((⟨x, y, 1⟩ : EcPoint).mul 384 (r * w % p384n))
    if p.z % p384 = 0 then false
    else
      let zi := invMod p384 p.z
      decide (p.x * (zi * zi % p384) % p384 % p384n = r)

end Sys2Proof.Machine
end

