-- ==== Sys2Proof/Machine/Trust.lean ====
section
/-! DEFINITION. Firmware trust and Field Stop (R456 to R478): images and their checks, the control sides, handover and failover, MIN_SVN,
attestation, sensor supplies and the host memory windows. -/

namespace Sys2Proof.Machine

/-! ### Images (R456, R457) -/

/-- The Fjosar firmware root public key: the spec does not give it. DESIGN CHOICE (log 54). -/
def rootKey : List Byte := padTo 97 (Config.freeBytes 45 [])

/-- The checks of R457 in their order: the accepted image, or whether it is a rollback. DEDUCED (log 83). -/
def checkImage (b : List Byte) (minSvn : Nat) : Except Bool FwImage :=
  let len := leAt b 0x010 4
  if leAt b 0 4 ≠ 0x57465A4B ∨ leAt b 4 2 ≠ 1 ∨ leAt b 6 2 ≠ 512 ∨ len = 0 ∨ 2097152 < len ∨ b.length < 512 + len then .error false
  else if ecdsaOk rootKey (slice b 0x050 97) (slice b 0x0C0 96) = false then .error false
  else if ecdsaOk (slice b 0x050 97) (slice b 0 0x1A0) (slice b 0x1A0 96) = false then .error false
  else if sha384 (slice b 512 len) ≠ slice b 0x020 48 then .error false
  else if leAt b 0x00C 4 < minSvn then .error true
  else .ok ⟨leAt b 0x008 4, leAt b 0x00C 4, sha384 (slice b 0 (512 + len))⟩

/-! ### The control sides (R458 to R465) -/

/-- The state with the firmware part replaced. -/
def State.setFw (s : State) (f : FwSt) : State := { s with fw := f }

/-- The active side: 0 A, 1 B. -/
def State.activeSide (s : State) : Nat := s.fld Pg.cluster Reg.CLUSTER_STATE_ACTIVE

/-- The field that shows a side's state: 0 reset, 1 idle and checked, 2 active, 3 FAILED. -/
def sideFld (k : Nat) : Fld := if k = 0 then Reg.CLUSTER_STATE_SIDE_A else Reg.CLUSTER_STATE_SIDE_B

/-- The image of a side. -/
def State.sideImage (s : State) (k : Nat) : Option FwImage := if k = 0 then s.fw.a else s.fw.b

/-- A side's image set, with the registers that show it. -/
def State.setImage (s : State) (k : Nat) (i : FwImage) : State :=
  if k = 0 then
    ((s.setFw { s.fw with a := some i }).setFld Pg.cluster Reg.CLUSTER_BUILD_A i.build).setFld Pg.cluster Reg.CLUSTER_SVN_SIDES_A i.svn
  else
    ((s.setFw { s.fw with b := some i }).setFld Pg.cluster Reg.CLUSTER_BUILD_B i.build).setFld Pg.cluster Reg.CLUSTER_SVN_SIDES_B i.svn

/-- Whether the idle side holds a checked image (R462, R465). -/
def State.idleReady (s : State) : Bool := decide (s.fld Pg.cluster (sideFld (1 - s.activeSide)) = 1)

/-- The side becomes active: ACTIVE, its state and GLOBAL.FW_BUILD (R462, R465). -/
def State.activate (s : State) (k : Nat) : State :=
  let s1 := (s.setFld Pg.cluster Reg.CLUSTER_STATE_ACTIVE k).setFld Pg.cluster (sideFld k) 2
  s1.setFld Pg.global Reg.GLOBAL_FW_BUILD ((s.sideImage k).getD default).build

/-- A checkpoint written by the active side; an idle side with an image reads it. -/
def State.checkpoint (s : State) : State :=
  let n := s.fw.written + 1
  s.setFw { s.fw with written := n, read := if s.idleReady then n else s.fw.read }

/-- Whether firmware runs. -/
def State.fwRuns (s : State) : Bool :=
  !decide (s.ctl.phase = .inReset) && !decide (s.ctl.mode = .sleep) && !s.noImage

/-- CHECKPOINT (R465): every 10 ms outside a take; in a take the frame start writes it. -/
def execCheckpoint (s : State) : Host.Outcome State Fault Refusal :=
  .next (if s.fwRuns && !s.on Pg.global Reg.GLOBAL_STATE_TAKE then s.checkpoint else s)

/-- The image that the boot ROM accepts from the flash slots: the valid one with the higher BUILD, slot 0 when equal (R457, R458). DEDUCED
(log 83). -/
def State.bootImage (s : State) : Option FwImage :=
  let ok := fun (i : Option FwImage) => i.filter fun x => decide (s.fld Pg.security Reg.SECURITY_MIN_SVN ≤ x.svn)
  match ok s.fw.flash0, ok s.fw.flash1 with
  | some a, some b => if a.build < b.build then some b else some a
  | some a, none => some a
  | none, b => b

/-- The boot of the control cluster; an image of the flash below MIN_SVN is a rollback (R457, R458). -/
def State.bootFw (s : State) : State :=
  let low := [s.fw.flash0, s.fw.flash1].any fun i => i.any fun x => decide (x.svn < s.fld Pg.security Reg.SECURITY_MIN_SVN)
  let s0 := (s.raiseIf low Pg.security Reg.SECURITY_EVENT_ROLLBACK).setFw { s.fw with
    a := none, b := none, waiting := none, running := none, failover := false, reports := 0, written := 0, read := 0 }
  match s.bootImage with
  | none => s0.setFld Pg.security Reg.SECURITY_STATE_NO_IMAGE 1
  | some i => (((s0.setImage 0 i).setImage 1 i).setFld Pg.cluster Reg.CLUSTER_STATE_SIDE_B 1).activate 0

/-- The field of a FIRMWARE LOAD that is out of its range: its list, or more bytes than an image can have (R286, R457). DEDUCED (log 83). -/
def badFwLoad (h : HostData) (c : Cmd) (s : State) : Option Nat :=
  firstBad [(s.badBuf c h false, 0x10), ((s.knownLen c h).any fun n => decide (2097664 < n), 0x18)]

/-- FIRMWARE LOAD (R457, R461). DEDUCED (log 83). -/
def runFwLoad (h : HostData) (readBackOk : Bool) (tag : Nat) (c : Cmd) (s : State) : State :=
  let len := xferLen c h
  match s.buffers c h false with
  | .error st => s.failBuf tag st
  | .ok _ =>
    match h.data with
    | none => s.finishTag tag 0x04 0 0 0xFFFF
    | some d =>
      match checkImage (padTo len d) (s.fld Pg.security Reg.SECURITY_MIN_SVN) with
      | .error rollback =>
        (s.raise Pg.security (if rollback then Reg.SECURITY_EVENT_ROLLBACK else Reg.SECURITY_EVENT_AUTH_FAIL)).finishTag tag 0x40 0 0 0xFFFF
      | .ok i =>
        if c.cdw 8 % 2 = 1 then
          let k := 1 - s.activeSide
          ((s.setImage k i).setFld Pg.cluster (sideFld k) 1).finishTag tag 0 i.build 0 0xFFFF
        else
          let active := s.sideImage s.activeSide
          let slot1 := decide (active.isSome ∧ s.fw.flash0.map (·.hash) = active.map (·.hash))
          let put := fun (i : Option FwImage) => if slot1 then s.setFw { s.fw with flash1 := i } else s.setFw { s.fw with flash0 := i }
          if readBackOk then (put (some i)).finishTag tag 0 i.build 0 0xFFFF else (put none).finishTag tag 0x30 0 0 0xFFFF

/-- FIRMWARE_LOAD (R461). -/
def execFirmwareLoad (tag : Nat) (h : HostData) (readBackOk : Bool) (s : State) : Host.Outcome State Fault Refusal :=
  .next (withCmd tag 0x20 s (badFwLoad h) (runFwLoad h readBackOk tag))

/-- A handover from its point T: the old side stops with a final checkpoint and the idle side becomes active (steps 1 to 3 of R462).
In a take the frame that started is recorded. -/
def State.beginHandover (s : State) (cmd : Nat) : State :=
  let old := s.activeSide
  let s1 := (s.checkpoint.setFld Pg.cluster Reg.CLUSTER_STATE_HANDOVER 1).setFld Pg.cluster (sideFld old) 1
  let s2 := (s1.setFw { s1.fw with waiting := none, running := some cmd }).activate (1 - old)
  if s.on Pg.global Reg.GLOBAL_STATE_TAKE then
    s2.setFld64 Pg.cluster Reg.CLUSTER_HANDOVER_FRAME_LO Reg.CLUSTER_HANDOVER_FRAME_HI s.frameNow
  else s2

/-- FIRMWARE HANDOVER (R462). -/
def runFwHandover (tag : Nat) (c : Cmd) (s : State) : State :=
  if s.idleReady = false then s.finishTag tag 0x0C 0 0 0xFFFF
  else if c.cdw 8 % 2 = 0 then s.finishTag tag 0 ((s.sideImage (1 - s.activeSide)).getD default).build 0 0xFFFF
  else if s.ctl.capRun then s.setFw { s.fw with waiting := some c.uid }
  else s.beginHandover c.uid

/-- FIRMWARE_HANDOVER (R462). -/
def execFirmwareHandover (tag : Nat) (s : State) : Host.Outcome State Fault Refusal :=
  .next (withCmd tag 0x21 s (fun _ _ => none) (runFwHandover tag))

/-- The handover ends: its command completes with the build that runs. -/
def State.endHandover (s : State) (ev : Fld) : State :=
  let s1 := ((s.setFw { s.fw with running := none }).setFld Pg.cluster Reg.CLUSTER_STATE_HANDOVER 0).raise Pg.cluster ev
  s1.finish? s.fw.running 0 (s1.fld Pg.global Reg.GLOBAL_FW_BUILD) 0

/-- HANDOVER_ALIVE (R462): the new side reports alive. -/
def execHandoverAlive (s : State) : Host.Outcome State Fault Refusal :=
  .next
    (if s.fw.running.isSome then (s.count Pg.cluster Reg.CLUSTER_HANDOVERS).endHandover Reg.CLUSTER_EVENT_HANDOVER_DONE else s)

/-- HANDOVER_FAIL (R463): the old side is active again and the new side FAILED. -/
def execHandoverFail (s : State) : Host.Outcome State Fault Refusal :=
  .next
    (if s.fw.running.isSome then
      ((s.setFld Pg.cluster (sideFld s.activeSide) 3).activate (1 - s.activeSide)).endHandover Reg.CLUSTER_EVENT_HANDOVER_FAIL
    else s)

/-- The failover of R465: the idle side becomes active, the failed side is held in reset. A handover that waited is run again by the new
side, which finds no idle side. DEDUCED (log 83). -/
def State.doFailover (s : State) : State :=
  let old := s.activeSide
  let s1 := ((s.setFld Pg.cluster (sideFld old) 3).activate (1 - old)).setFw { s.fw with failover := false, waiting := none }
  ((s1.count Pg.cluster Reg.CLUSTER_FAILOVERS).raise Pg.cluster Reg.CLUSTER_EVENT_FAILOVER).finish? s.fw.waiting 0x0C 0 0

/-- What the control sides do at a frame start at Ingress, and at the end of a take: a failover or a handover that waits, and the checkpoint
(R462, R465). DEDUCED (log 41, 83). -/
def State.fwPoint (s : State) : State :=
  if s.fwRuns = false then s
  else if s.fw.failover then s.doFailover.checkpoint
  else
    match s.fw.waiting with
    | some u => s.beginHandover u
    | none => if s.fw.running.isSome then s else s.checkpoint

/-! ### MIN_SVN (R459) -/

/-- COMMIT of SVN_CTRL: MIN_SVN rises to the SVN of the active side, unless the idle side holds an image below it. DEDUCED (log 83). -/
def State.commitSvn (s : State) : State :=
  let a := ((s.sideImage s.activeSide).map (·.svn)).getD 0
  match s.sideImage (1 - s.activeSide) with
  | some i =>
    if i.svn < a then s.reject Pg.security
    else if s.fld Pg.security Reg.SECURITY_MIN_SVN < a then
      (s.setFld Pg.security Reg.SECURITY_MIN_SVN a).raise Pg.security Reg.SECURITY_EVENT_SVN_RAISED
    else s
  | none =>
    if s.fld Pg.security Reg.SECURITY_MIN_SVN < a then
      (s.setFld Pg.security Reg.SECURITY_MIN_SVN a).raise Pg.security Reg.SECURITY_EVENT_SVN_RAISED
    else s

/-- The effect of a write of SVN_CTRL (R459). -/
def writeSvnCtrl (r : Req) (v : Word) (s : State) : State :=
  withWrite r Pg.security 0x044 v s fun s _ _ => if wfld v Reg.SECURITY_SVN_CTRL = 1 then s.commitSvn else s

/-- SVN_COMMIT (R459). -/
def execSvnCommit (r : Req) (v : Word) (s : State) : Host.Outcome State Fault Refusal := .next (writeSvnCtrl r v s)

/-! ### Attestation (R474, R475) -/

/-- The certificate chain: device certificate, then product CA certificate. The spec does not give them. DESIGN CHOICE (log 54). -/
def certChain : List Byte := (Config.freeBytes 46 []).take 3072

/-- The identity key's signature over bytes: the spec does not give the key. DESIGN CHOICE (log 54). -/
def identitySign (b : List Byte) : List Byte := padTo 96 (Config.freeBytes 47 (b.map (·.toNat)))

/-- Registers of a page read as little-endian words. -/
def State.regBytes (s : State) (p from_ n : Nat) : List Byte :=
  (List.range n).flatMap fun i => leBytes 4 (s.rd (p * 0x1000 + from_ + 4 * i)).toNat

/-- A side in the attestation report. -/
def sideBytes (i : Option FwImage) : List Byte :=
  match i with
  | some i => leBytes 4 i.build ++ leBytes 4 i.svn ++ padTo 48 i.hash
  | none => zeros 56

/-- The attestation report of R475. -/
def State.attestReport (s : State) (fn : Fn) (nonce : List Byte) : List Byte :=
  let head := leBytes 4 0x54415A4B ++ leBytes 2 1 ++ zeros 2 ++ leBytes 4 (0x260 + certChain.length) ++ leBytes 4 certChain.length
    ++ padTo 32 nonce ++ padTo 16 s.serial ++ leBytes 4 (s.rd (Pg.global * 0x1000 + Reg.GLOBAL_DEVICE_ID_PART.off)).toNat
    ++ leBytes 1 (fnNum fn) ++ leBytes 1 s.activeSide ++ zeros 2
    ++ leBytes 8 (s.fld64 Pg.security Reg.SECURITY_BOOT_COUNT_LO Reg.SECURITY_BOOT_COUNT_HI) ++ leBytes 8 (s.fw.reports + 1)
    ++ leBytes 4 (s.fld Pg.security Reg.SECURITY_MIN_SVN)
  let sides := padTo 0x60 head ++ sideBytes s.fw.a ++ sideBytes s.fw.b
  let guard := leBytes 4 (s.rd (Pg.guard * 0x1000 + 0x020)).toNat ++ leBytes 1 (s.fld Pg.guard Reg.GUARD_CTRL_WIN_EN) ++ zeros 3
    ++ sha384 (s.regBytes Pg.guard 0x060 72)
  let rest := leBytes 4 (s.rd (Pg.global * 0x1000 + 0x00C)).toNat ++ leBytes 4 (s.fld Pg.array Reg.ARRAY_GENERATION) ++ timeBytes s.time
  let signed := padTo 0x200 (padTo 0x0D0 sides ++ guard ++ rest) ++ certChain
  signed ++ identitySign signed

/-- ATTEST (R475). -/
def runAttest (h : HostData) (tag : Nat) (c : Cmd) (s : State) : State :=
  match s.buffers c h true with
  | .error st => s.failBuf tag st
  | .ok bufs =>
    let b := s.attestReport c.fn (slice c.raw 0x20 32)
    let s1 := (s.setFw { s.fw with reports := s.fw.reports + 1 }).count Pg.security Reg.SECURITY_SIGN_COUNT
    (s1.toHost c.fn bufs b).finishTag tag 0 b.length 0 0xFFFF

/-- ATTEST (R475). -/
def execAttest (tag : Nat) (h : HostData) (s : State) : Host.Outcome State Fault Refusal :=
  .next (withCmd tag 0x22 s (fun c s => s.badReport c h) (runAttest h tag))

/-! ### Sensor supplies (R468) -/

/-- The fields of a port's supply: its request, its enables as driven, USED and DELAY. -/
def supplyFlds (k : Nat) : Fld × Fld × Fld × Fld :=
  if k = 0 then (Reg.GUARD_SUPPLY_REQ_ONA, Reg.GUARD_SUPPLY_STATE_ENA, Reg.GUARD_SEQA_USED, Reg.GUARD_SEQA_DELAY)
  else (Reg.GUARD_SUPPLY_REQ_ONB, Reg.GUARD_SUPPLY_STATE_ENB, Reg.GUARD_SEQB_USED, Reg.GUARD_SEQB_DELAY)

/-- The enables after the next change towards a request: the lowest used one that is off rises, or the highest that is on falls; none when
there is no change to make. -/
def nextEnables (on_ : Bool) (used en : Nat) : Option Nat :=
  if on_ then ((List.range 4).find? fun i => used.testBit i && !en.testBit i).map fun i => en + 2 ^ i
  else ((List.range 4).reverse.find? fun i => en.testBit i).map fun i => en - 2 ^ i

/-- A port's delay runs. -/
def State.seqRuns (s : State) (k : Nat) : Bool := if k = 0 then s.pwr.seqA else s.pwr.seqB

/-- The state with a port's delay running or not. DEDUCED (log 83). -/
def State.setSeq (s : State) (k : Nat) (b : Bool) : State :=
  if k = 0 then { s with pwr := { s.pwr with seqA := b } } else { s with pwr := { s.pwr with seqB := b } }

/-- The next enable of a port changes, unless a delay runs; a delay runs after it. -/
def State.supplyStep (s : State) (k : Nat) : State :=
  let f := supplyFlds k
  if s.seqRuns k then s
  else
    match nextEnables (s.on Pg.guard f.1) (s.fld Pg.guard f.2.2.1) (s.fld Pg.guard f.2.1) with
    | none => s
    | some en => ((s.setFld Pg.guard f.2.1 en).emit (.supply k en)).setSeq k true

/-- The effect of a write of SUPPLY_REQ, by PF0 or firmware (R468). -/
def writeSupplyReq (r : Req) (v : Word) (s : State) : State :=
  withWrite r Pg.guard 0x054 v s fun s old new => ((plainStore r Pg.guard 0x054 s old new).supplyStep 0).supplyStep 1

/-- SUPPLY_REQ_WRITE (R468). -/
def execSupplyReqWrite (r : Req) (v : Word) (s : State) : Host.Outcome State Fault Refusal := .next (writeSupplyReq r v s)

/-- SUPPLY_SEQ_STEP (R468): a port's delay has passed. -/
def execSupplySeqStep (port : Nat) (s : State) : Host.Outcome State Fault Refusal :=
  .next (if port < 2 && s.seqRuns port then (s.setSeq port false).supplyStep port else s)

/-- The effect of a write of SEQA or SEQB: discarded while the port's enables are not all off (R468). -/
def writeSeq (r : Req) (k : Nat) (v : Word) (s : State) : State :=
  let o := if k = 0 then 0x074 else 0x078
  withWrite r Pg.guard o v s fun s old new =>
    if s.fld Pg.guard (supplyFlds k).2.1 ≠ 0 ∧ old ≠ new then s.reject Pg.guard else plainStore r Pg.guard o s old new

/-! ### Host memory windows (R470, R471) -/

/-- Whether the windows cover every byte of every existing queue of both functions. -/
def State.queuesCovered (s : State) : Bool :=
  (s.hq.sqs.all fun e => !e.2.live || s.windowOk (fnOf (e.1 / 64)) e.2.base (64 * e.2.size) false)
    && (s.hq.cqs.all fun e => !e.2.live || s.windowOk (fnOf (e.1 / 64)) e.2.base (16 * e.2.size) true)

/-- The effect of a write of a window register or of GUARD.CTRL: discarded where an existing queue would be left uncovered (R471). -/
def writeWindow (r : Req) (o : Nat) (v : Word) (s : State) : State :=
  withWrite r Pg.guard o v s fun s old new =>
    let t := plainStore r Pg.guard o s old new
    if t.queuesCovered then t else s.reject Pg.guard

/-- Whether an offset of GUARD belongs to the windows or holds WIN_EN. -/
def isWindow (o : Nat) : Bool := decide (o = 0x008) || (decide (0x080 ≤ o) && decide (o < 0x180))

/-- GUARD_WINDOW_WRITE (R471). -/
def execGuardWindowWrite (r : Req) (off : Nat) (v : Word) (s : State) : Host.Outcome State Fault Refusal :=
  .next (if isWindow off && decide (off % 4 = 0) then writeWindow r off v s else s)

end Sys2Proof.Machine
end

