-- ==== Sys2Proof/Machine/Budget.lean ====
section
/-! DEFINITION. The checks of take START: the configuration checks (R128, R178, R193, R221, R227, R250, R260, R274, R341, R345, R354,
R395) and the budget check with its report (R27 to R29, R72 to R74). -/

namespace Sys2Proof.Machine

/-! ### Configuration checks -/

/-- The renditions that DIGEST_REND names. -/
def State.digestNamed (s : State) : List Nat :=
  (List.range 8).filter fun n => (s.fld Pg.recorder Reg.RECORDER_CFG_DIGEST_REND).testBit n

/-- Whether the digest reads of a take would exceed 16.0 GB/s (R274). -/
def State.digestBad (s : State) : Bool :=
  s.digests && decide (16000000000 * max 1 s.takeRate.2 < (s.digestNamed.map s.rendBytes).sum * s.takeRate.1)

/-- Whether entry to RECORD is refused, where `charged` holds the renditions whose digest reads the take's START charges (R341). -/
def State.recordBad (s : State) (charged : List Nat) : Bool :=
  let drives := match s.media.vol with | some v => decide (v.drives ≠ s.driveCount) | none => true
  let nsid := s.fld Pg.recorder Reg.RECORDER_REEL
  drives || decide ((s.dirEntry nsid).state ≠ 1) || (s.provenance && !s.digests)
    || (s.digests && s.digestNamed.any fun n => !s.rendUsed n || !charged.contains n)

/-- The pages whose CFG_ERR a failed check raises, with the event, for a START whose target is RECORD or not. DEDUCED (log 21). -/
def State.configErrs (s : State) (record : Bool) : List (Nat × Fld) :=
  let one := fun (c : Bool) (p : Nat) (e : Fld) => if c then [(p, e)] else []
  one (s.trigCheck = 0x02) Pg.trig Reg.TRIG_EVENT_CFG_ERR
    ++ one s.ingressBad Pg.ingress Reg.INGRESS_EVENT_CFG_ERR
    ++ one s.feBad Pg.prismFe Reg.PRISM_FE_EVENT_CFG_ERR
    ++ ((s.rendsUsed.filter s.beBad).map fun n => (Pg.prismBe n, Reg.PRISM_BE_EVENT_CFG_ERR))
    ++ one (s.splitBad false) Pg.split Reg.SPLIT_EVENT_CFG_ERR
    ++ one s.rawBad Pg.drawctl Reg.DRAWCTL_EVENT_CFG_ERR
    ++ s.hencBad.map (fun k => (Pg.henc k, Reg.HENC_EVENT_CFG_ERR))
    ++ ((List.range 4).filter s.engineBad).map (fun n => (Pg.loupe n, Reg.LOUPE_EVENT_CFG_ERR))
    ++ one (s.digestBad || (record && s.recordBad s.digestRends)) Pg.recorder Reg.RECORDER_EVENT_CFG_ERR

/-- The events of failed checks raised. -/
def State.raiseAll (s : State) (l : List (Nat × Fld)) : State := l.foldl (fun s e => s.raise e.1 e.2) s

/-! ### The budget check (R27 to R29, R72, R73) -/

/-- A number of units a second of something that comes `n` times a frame. -/
def State.perFrame (s : State) (n : Nat) : Frac := ⟨(n * s.takeRate.1 : Nat), max 1 s.takeRate.2⟩

/-- A whole number as a fraction. -/
def natFrac (n : Nat) : Frac := Frac.ofInt n

/-- A fraction rounded up to a whole number of units of `u`, at least 0. -/
def ceilUnits (a : Frac) (u : Nat) : Nat := (-(-a.num / ((a.den * u : Nat) : Int))).toNat

/-- Photosites a second at Ingress. -/
def State.siteRate (s : State) : Frac := s.perFrame (s.rasterW * s.rasterH)

/-- The spare raw-encoder rate that the catch-up read is charged at (R29). -/
def State.spareRate (s : State) : Frac :=
  let d := (natFrac 19200000000).sub s.siteRate
  if s.rawOn ∧ s.preroll ≠ 0 ∧ 0 < d.num then d else natFrac 0

/-- Output bytes of a raw encoder for each photosite: the planning ratio of a lossless take, clamped to 1.0 to 5.0, or the ceiling of a
quality mode (R28, R222, R231). -/
def State.rawPerSite (s : State) : Frac :=
  match s.rawMode with
  | some _ =>
    ⟨s.rawShape.ceiling (max 3 (min 18 (s.fld Pg.drawctl Reg.DRAWCTL_CFG_QUALITY))), max 1 (s.rasterW * s.rasterH)⟩
  | none => ⟨s.storedDepth * 10, 8 * max 10 (min 50 (s.fld Pg.drawctl Reg.DRAWCTL_CFG_PLAN))⟩

/-- Output bytes a second of the raw encoders and of the catch-up (R28, R29). DEDUCED (log 28). -/
def State.rawOut (s : State) : Frac := if s.rawOn then s.siteRate.mul s.rawPerSite else natFrac 0

/-- Output bytes a second of the catch-up (R29). -/
def State.catchOut (s : State) : Frac := s.spareRate.mul s.rawPerSite

/-- The rate of a code of R346, where codes above 10 act as 10. -/
def rateOf (code : Nat) : Frac :=
  match frameRate (min 10 code) with
  | some r => ⟨r.1, r.2⟩
  | none => natFrac 0

/-- The DRAM charge of a Loupe engine (R347). DEDUCED (log 28). -/
def State.loupeCharge (s : State) (n : Nat) : Frac :=
  let allow := s.fld (Pg.loupe n) Reg.LOUPE_CFG_GFX_ALLOW
  let fmt := s.maxFmt n
  if 5 ≤ fmt then natFrac 0
  else
    let half := fmtW fmt * fmtH fmt * (5 + 8 * (allow % 2 + allow / 2 % 2))
    (rateOf (s.fld (Pg.loupe n) Reg.LOUPE_CFG_MAX_RATE)).mul ⟨half, 2⟩

/-- The DRAM charge of an ST 2110 flow: a video flow whose source is a rendition in use (R367). DEDUCED (log 28). -/
def State.flowCharge (s : State) (f : Nat) : Frac :=
  if s.flowType f = 0 ∧ s.flowSrc f < 8 ∧ s.rendUsed (s.flowSrc f) then
    (rateOf (s.flowFld f Reg.PKT2110_FLOW_CFG_RATE)).mul (natFrac (s.rendBytes (s.flowSrc f)))
  else natFrac 0

/-- A limit of HOST_BW in MB/s: 0 acts as 1 and a value above 31,500 as 31,500 (R316). -/
def bwOf (v : Nat) : Nat := max 1 (min 31500 v)

/-- HOST_BW towards the host and from it. -/
def State.bwTo (s : State) : Nat := bwOf (s.fld Pg.hostq Reg.HOSTQ_HOST_BW_TO)

/-- HOST_BW from the host. -/
def State.bwFrom (s : State) : Nat := bwOf (s.fld Pg.hostq Reg.HOSTQ_HOST_BW_FROM)

/-- The largest access units of every stream together, in bytes a frame (R247). -/
def State.capBytes (s : State) : Nat := (s.streams.map fun k => s.fld (lead k) Reg.HENC_ES_CAP).sum

/-- The DRAM demand in bytes a second: ingest and shared read, map reads (R132, R179), rendition writes, Loupe and ST 2110 reads (R347,
R367), HEVC source reads with 2.25 times as much for reconstruction and references, access units twice (R247), raw records twice and the
catch-up (R28, R29), digest reads (R274) and housekeeping (R315, R433). DEDUCED (log 28). -/
def State.dramDemand (s : State) : Frac :=
  let frame := 2 * s.rasterH * s.stride
    + (if s.on Pg.ingress Reg.INGRESS_CFG_DGMAP_EN && decide (s.dgMode = 1) then s.rasterW * s.rasterH else 0)
    + 4 * s.fld Pg.prismFe Reg.PRISM_FE_DEFECT_MAX + 2 * s.rasterW + 2 * s.rasterH
    + (s.rendsUsed.map s.rendBytes).sum + 2 * s.capBytes
    + (if s.digests then (s.digestRends.map s.rendBytes).sum else 0)
  let hevc := (s.perFrame ((s.streams.map fun k => s.rendBytes (s.rendOf k)).sum)).mul ⟨13, 4⟩
  let catchup := (s.spareRate.mul ⟨s.storedDepth, 8⟩).add ((natFrac 2).mul s.catchOut)
  let house := (2 * s.bwTo + s.bwFrom + 250 * max 1 (s.fld Pg.relay Reg.RELAY_CFG) + 100) * 1000000
  Frac.sum ([s.perFrame frame, hevc, (natFrac 2).mul s.rawOut, catchup, natFrac house] ++ (List.range 4).map s.loupeCharge
    ++ (List.range 16).map s.flowCharge)

/-- The media demand in bytes a second (R28, R29, R247, R315). DEDUCED (log 28). -/
def State.mediaDemand (s : State) : Frac :=
  Frac.sum [s.rawOut, s.catchOut, s.perFrame s.capBytes, natFrac (s.bwTo * 1000000)]

/-- The offsets of a page's registers that hold stopped-only fields. -/
def soOffs (b : Blk) : List Nat :=
  ((blkRows b).filter fun w => w.fields.any fun f => f.so).flatMap fun w => (List.range w.count).map fun i => w.off + i * w.stride

/-- The configuration as the words of every register with stopped-only fields (R72). DESIGN CHOICE (log 27). -/
def State.soWords (s : State) : List Nat :=
  allPages.flatMap fun p =>
    match pageBlk p with
    | none => []
    | some (b, i) =>
      (soOffs b).map fun o =>
        (s.rd (p * 0x1000 + o) &&& maskOf ((blkFields b i o).getD []) (fun f => f.so)).toNat

/-- An entry of the budget report: code, index, demand and limit (R73). -/
abbrev BudgetEntry := Nat × Nat × Nat × Nat

/-- The 18 entries in the order of the table (R73). DESIGN CHOICE (log 27). -/
def State.budget (s : State) : List BudgetEntry :=
  let mega := fun (a : Frac) => ceilUnits a 1000000
  let pixels := (s.rendsUsed.map fun n => s.outW n * s.outH n).sum
  let cores := (List.range 8).map s.hencSites
  let blocks := ((List.range 64).map fun k => kindBlocks (s.slotKindOf k)).sum
  [(0x01, 0, mega s.siteRate, 17200),
   (0x02, 0, mega (s.perFrame pixels), 9600),
   (0x03, 0, (if s.rawOn then mega (s.siteRate.add s.spareRate) else 0), 19200)]
  ++ (List.range 8).map (fun c => (0x04, c, mega (s.perFrame (cores.getD c 0)), 500))
  ++ [(0x05, 0, mega (s.perFrame cores.sum), 4000),
      (0x06, 0, mega s.dramDemand, 218440),
      (0x07, 0, mega s.mediaDemand, 24000),
      (0x08, 0, s.bwTo, 31500),
      (0x08, 1, s.bwFrom, 31500)]
  ++ [(0x09, 0, blocks, 256), (0x0A, 0, Config.powerDemand s.soWords, s.powerLimit)]

/-- The first entry whose demand exceeds its limit (R73). -/
def firstOver (l : List BudgetEntry) : Option BudgetEntry := l.find? fun e => decide (e.2.2.2 < e.2.2.1)

/-- An entry of the report (R74). DEDUCED (log 28). -/
def BudgetEntry.bytes (e : BudgetEntry) : List Byte :=
  let flags := (if e.2.2.2 < e.2.2.1 then 1 else 0) + (if e.2.2.1 = 0 then 2 else 0)
  leBytes 1 e.1 ++ leBytes 1 e.2.1 ++ leBytes 1 flags ++ [0] ++ leBytes 4 e.2.2.1 ++ leBytes 4 e.2.2.2 ++ zeros 4

/-- The budget report (R74). -/
def budgetReport (l : List BudgetEntry) : List Byte :=
  let first := match firstOver l with | some e => (1, e.1, e.2.1) | none => (0, 0, 0)
  padTo 512 (leBytes 2 1 ++ leBytes 2 l.length ++ leBytes 1 first.1 ++ leBytes 1 first.2.1 ++ leBytes 1 first.2.2 ++ zeros 25
    ++ l.flatMap BudgetEntry.bytes)

/-! ### CHECK CONFIG (R305) -/

/-- What makes a CHECK CONFIG complete with status 0x02: a field, or a configuration check (R128, R286, R305). -/
def badCheckConfig (h : HostData) (c : Cmd) (s : State) : Option Nat :=
  let target := c.cdw 8 % 8
  let field := firstBad [(s.badBuf c h true, 0x10), ((s.knownLen c h).any fun n => decide (n < 512), 0x18),
    (decide (target ≠ 1 ∧ target ≠ 2), 0x20)]
  if field.isSome then field else if s.configErrs (target = 2) ≠ [] then some 0xFFFF else none

/-- CHECK CONFIG: the configuration checks without events, then the budget check; the report is the last budget report (R305, R308). DEDUCED
(log 21). -/
def runCheckConfig (h : HostData) (tag : Nat) (c : Cmd) (s : State) : State :=
  if s.ctl.mode = .sleep then s.finishTag tag 0x0C 0 0 0xFFFF
  else if s.trigCheck = 0x11 then s.finishTag tag 0x11 0 0 0xFFFF
  else
    match s.buffers c h true with
    | .error st => s.failBuf tag st
    | .ok bufs =>
      let l := s.budget
      let s1 := (s.setHq { s.hq with report := budgetReport l }).toHost c.fn bufs (budgetReport l)
      match firstOver l with
      | none => s1.finishTag tag 0 0 0 0xFFFF
      | some e => s1.finishTag tag 0x12 e.2.1 e.1 0xFFFF

/-- CHECK_CONFIG (R305). -/
def execCheckConfig (tag : Nat) (h : HostData) (s : State) : Host.Outcome State Fault Refusal :=
  .next (withCmd tag 0x12 s (badCheckConfig h) (runCheckConfig h tag))

end Sys2Proof.Machine
end

