-- ==== Sys2Proof/Machine/DramCtl.lean ====
section
/-! DEFINITION. The memory controller (R438 to R455): the address mapping, training, retraining, set points, temperature bands and error
records. Page policy decides only when an access takes place (R444), so nothing here depends on it. -/

namespace Sys2Proof.Machine

/-- The state with the memory controller replaced. -/
def State.setDramc (s : State) (d : DramSt) : State := { s with dramc := d }

/-- A field set on the page of every channel. -/
def State.allDram (s : State) (f : Fld) (v : Nat) : State := (List.range 8).foldl (fun s k => s.setFld (Pg.dram k) f v) s

/-! ### Address mapping (R441) -/

/-- Where a byte of DRAM lies. -/
structure DramPlace where
  channel : Nat
  row : Nat
  bank : Nat
  group : Nat
  column : Nat
  deriving DecidableEq, Repr

/-- The place of a physical byte address under an order in force, 0, 1 or 2 (R441). -/
def dramPlace (order a : Nat) : DramPlace :=
  let bits := fun (v lo n : Nat) => v / 2 ^ lo % 2 ^ n
  let low := if order = 1 then 12 else 8
  let l := a / 2 ^ (low + 3) * 2 ^ low + a % 2 ^ low
  let hash := fun (x y : Nat) => if order = 2 then x else Nat.xor x y
  let upper := Nat.xor (bits a 12 3) (bits a 20 3)
  { channel := if order = 1 then upper else hash (bits a 8 3) upper
    row := l / 2 ^ 16
    bank := hash (bits l 14 2) (bits l 20 2)
    group := hash (bits l 12 2) (bits l 18 2)
    column := bits l 0 12 }

/-- The channel of a physical byte address under the order in force (R441, R442). -/
def State.channelOf (s : State) (a : Nat) : Nat := (dramPlace (s.fld Pg.dramctl Reg.DRAMCTL_STATE_ORDER) a).channel

/-! ### Training (R438, R439) -/

/-- Full training ends. It fails when a channel fails, when a capacity is not 2, 4 or 8 GiB, or when the channels differ; the channels that
fail, or differ from channel 0, show it on their pages. DEDUCED (log 82). -/
def State.trained (s : State) (t : TrainResult) : State :=
  let gib := fun k => t.gib.getD k 0
  let valid := fun k => decide (gib k = 2) || decide (gib k = 4) || decide (gib k = 8)
  let good := fun k => valid k && decide (gib k = gib 0 ∨ valid 0 = false)
  let s1 := (List.range 8).foldl
    (fun s k =>
      if good k then (s.setFld (Pg.dram k) Reg.DRAM_STATE_TRAINED 1).setFld (Pg.dram k) Reg.DRAM_CAPACITY (gib k)
      else s.raise (Pg.dram k) Reg.DRAM_EVENT_TRAIN_FAIL) s
  if (List.range 8).all good then s1.setFld Pg.dramctl Reg.DRAMCTL_TOTAL_GIB (8 * gib 0)
  else (s1.setFld Pg.dramctl Reg.DRAMCTL_STATE_TRAIN_FAIL 1).raise Pg.dramctl Reg.DRAMCTL_EVENT_TRAIN_FAIL

/-- DRAM_TRAINING_DONE (R439), in the restore window. -/
def execDramTrainingDone (t : TrainResult) (s : State) : Host.Outcome State Fault Refusal :=
  .next (if s.ctl.phase = .restoring then s.trained t else s)

/-! ### Set points and retraining (R445 to R447) -/

/-- A change of set point starts: the channels go into self-refresh (R446). -/
def State.freqStart (s : State) (fs : Nat) : State :=
  ((s.setDramc { s.dramc with change := some fs, started := true }).setFld Pg.dramctl Reg.DRAMCTL_STATE_SWITCHING 1).allDram
    Reg.DRAM_STATE_SELF_REFRESH 1

/-- A change of set point requested: it starts, waits for the gathering channel, or is held (R446, R447). -/
def State.freqRequest (s : State) (fs : Nat) : State :=
  if s.dramc.change.isSome then
    (s.setDramc { s.dramc with held := some fs }).setFld Pg.dramctl Reg.DRAMCTL_STATE_HELD 1
  else if s.dramc.gather.isSome then
    ((s.setDramc { s.dramc with change := some fs, started := false }).setFld Pg.dramctl Reg.DRAMCTL_STATE_SWITCHING 1).raise Pg.dramctl
      Reg.DRAMCTL_EVENT_FREQ_DEFERRED
  else s.freqStart fs

/-- The effect of a write of DRAMCTL.FREQ (R446, R455): TARGET 3 acts as 2. DEDUCED (log 82). -/
def writeFreq (r : Req) (v : Word) (s : State) : State :=
  withWrite r Pg.dramctl 0x048 v s fun s old new =>
    if s.ctl.capRun ∨ s.ctl.mode = .review then s.reject Pg.dramctl
    else (plainStore r Pg.dramctl 0x048 s old new).freqRequest (min 2 (wfld new Reg.DRAMCTL_FREQ))

/-- FREQ_TARGET_WRITE (R446). -/
def execFreqTargetWrite (r : Req) (v : Word) (s : State) : Host.Outcome State Fault Refusal := .next (writeFreq r v s)

/-- A channel's band in force (R448). -/
def State.setBand (s : State) (k b : Nat) : State := s.setFld (Pg.dram k) Reg.DRAM_STATE_BAND b

/-- A change of set point ends; bands that waited apply, the sweep restarts, and a held change starts at once (R446 to R448). -/
def State.freqDone (s : State) : State :=
  match s.dramc.change with
  | none => s
  | some fs =>
    if s.dramc.started = false then s
    else
      let s1 := ((s.setFld Pg.dramctl Reg.DRAMCTL_STATE_FS fs).setFld Pg.dramctl Reg.DRAMCTL_STATE_SWITCHING 0).allDram
        Reg.DRAM_STATE_SELF_REFRESH 0
      let s2 := s.dramc.bands.foldl (fun (s : State) e => s.setBand e.1 e.2) s1
      let s3 := (s2.setDramc { s2.dramc with change := none, started := false, held := none, bands := [], next := 0 }).raise Pg.dramctl
        Reg.DRAMCTL_EVENT_FREQ_DONE
      match s.dramc.held with
      | some t => (s3.setFld Pg.dramctl Reg.DRAMCTL_STATE_HELD 0).freqStart t
      | none => s3

/-- FREQ_CHANGE_DONE (R446). -/
def execFreqChangeDone (s : State) : Host.Outcome State Fault Refusal := .next s.freqDone

/-- FS0 in force before step 2 of R68 ends and before REVIEW is entered; changes that wait or run end in it (R446). DEDUCED (log 82). -/
def State.freqZero (s : State) : State :=
  if s.fld Pg.dramctl Reg.DRAMCTL_STATE_FS = 0 ∧ s.dramc.change.isNone then s
  else
    let s1 := (s.setDramc { s.dramc with held := none, gather := none }).setFld Pg.dramctl Reg.DRAMCTL_STATE_HELD 0
    (s1.freqStart 0).freqDone

/-- DRAM in SLEEP: every channel in self-refresh (R451). -/
def State.dramSleep (s : State) : State := s.allDram Reg.DRAM_STATE_SELF_REFRESH 1

/-- DRAM after SLEEP: out of self-refresh, at FS0, with nothing waiting (R451, R452). DEDUCED (log 82). -/
def State.dramWake (s : State) : State :=
  let s1 := s.setDramc { s.dramc with change := none, started := false, held := none, gather := none, next := 0 }
  (((s1.setFld Pg.dramctl Reg.DRAMCTL_STATE_SWITCHING 0).setFld Pg.dramctl Reg.DRAMCTL_STATE_HELD 0).setFld Pg.dramctl
    Reg.DRAMCTL_STATE_FS 0).allDram Reg.DRAM_STATE_SELF_REFRESH 0

/-- The next channel begins a retraining step, unless one gathers or a change of set point waits or runs (R445, R447). DEDUCED (log 82). -/
def State.retrain (s : State) : State :=
  if s.ctl.phase = .inReset ∨ s.ctl.mode = .sleep ∨ s.dramc.gather.isSome ∨ s.dramc.change.isSome then s
  else s.setDramc { s.dramc with gather := some s.dramc.next }

/-- RETRAIN_STEP (R445). -/
def execRetrainStep (s : State) : Host.Outcome State Fault Refusal := .next s.retrain

/-- The gathering of a step ends: the oscillator count is shown, a drift beyond correction is counted, and a change that waited starts
(R445, R447). -/
def State.gathered (s : State) (osc waited : Nat) (drifted : Bool) : State :=
  match s.dramc.gather with
  | none => s
  | some k =>
    let s1 := (s.setDramc { s.dramc with gather := none, next := (k + 1) % 8 }).setFld (Pg.dram k) Reg.DRAM_DQS_OSC osc
    let s2 := if drifted then (s1.count (Pg.dram k) Reg.DRAM_DRIFT_COUNT).raise (Pg.dram k) Reg.DRAM_EVENT_DRIFT else s1
    match s2.dramc.change with
    | none => s2
    | some fs =>
      (s2.setFld Pg.dramctl Reg.DRAMCTL_DEFER_MAX (max (s2.fld Pg.dramctl Reg.DRAMCTL_DEFER_MAX) (min 65535 waited))).freqStart fs

/-- RETRAIN_GATHER_DONE (R447). -/
def execRetrainGatherDone (osc waited : Nat) (drifted : Bool) (s : State) : Host.Outcome State Fault Refusal :=
  .next (s.gathered osc waited drifted)

/-! ### Temperature bands (R448, R449) -/

/-- The band of a device temperature in °C. -/
def bandOf (deg : Nat) : Nat := if deg < 85 then 0 else if deg ≤ 95 then 1 else 2

/-- The poll of one channel: a hotter band at once, a cooler one at the second poll in a row that reports it (R448, R449). DEDUCED (log 82).
-/
def State.pollChannel (s : State) (k deg mr4 : Nat) : State :=
  let s1 := s.setFld (Pg.dram k) Reg.DRAM_TEMP_RPT mr4
  let now :=
    match s1.dramc.bands.find? fun e => decide (e.1 = k) with
    | some e => e.2
    | none => s1.fld (Pg.dram k) Reg.DRAM_STATE_BAND
  let b := bandOf deg
  let cool := s1.dramc.cool.get k
  let setTo := fun (s : State) (b : Nat) =>
    if s.dramc.started then s.setDramc { s.dramc with bands := s.dramc.bands.filter (fun e => decide (e.1 ≠ k)) ++ [(k, b)] }
    else s.setBand k b
  let count := fun (s : State) (n : Nat) => s.setDramc { s.dramc with cool := s.dramc.cool.put k n }
  let s2 :=
    if now < b then setTo (count s1 0) b
    else if b < now then (if cool = b + 1 then setTo (count s1 0) b else count s1 (b + 1))
    else count s1 0
  if 105 < deg then (s2.raise (Pg.dram k) Reg.DRAM_EVENT_DRAM_HOT).raise Pg.dramctl Reg.DRAMCTL_EVENT_DRAM_HOT else s2

/-- A poll of every channel, and whether a device is above 105 °C (R449). DEDUCED (log 82). -/
def State.pollAll (s : State) (temps : List (Nat × Nat)) : State :=
  let s1 := ((List.range 8).zip temps).foldl (fun (s : State) e => s.pollChannel e.1 e.2.1 e.2.2) s
  { s1 with therm := { s1.therm with hot := (temps.take 8).any fun e => decide (105 < e.1) } }

/-! ### Errors (R453, R454) -/

/-- Whether an uncorrectable error is one that the running load of the Filter Store read: it lies in the package's payload and names the
load's command or none (R202, R453). DEDUCED (log 40). -/
def State.loadHit (s : State) (e : EccError) : Bool :=
  match s.fstore.load with
  | none => false
  | some l =>
    decide (l.src ≤ e.addr) && decide (e.addr < l.src + kindBytes l.kind)
      && (match e.tag with
          | some t => decide (some (s.hq.cmds.get t).uid = l.cmd)
          | none => true)

/-- A burst with an error, on the channel of its address: one that can be corrected is counted; of others the first address is held, the
load of the Filter Store that read it ends with RESULT 8, and the queue command that read it fails (R202, R291, R441, R453). -/
def State.eccError (s : State) (e : EccError) : State :=
  let k := s.channelOf e.addr
  let p := Pg.dram k
  if e.fatal = false then (s.count p Reg.DRAM_CE_COUNT).raise p Reg.DRAM_EVENT_CE
  else
    let s1 := (s.count p Reg.DRAM_UE_COUNT).raise p Reg.DRAM_EVENT_UE
    let s2 :=
      if s1.dramc.ueHeld.contains k then s1
      else
        (s1.setFld64 p Reg.DRAM_UE_ADDR_LO Reg.DRAM_UE_ADDR_HI e.addr).setDramc
          { s1.dramc with ueHeld := insertNat k s1.dramc.ueHeld }
    if s2.loadHit e then
      match s2.fstore.load with
      | some l => (if s2.fld Pg.fstore (Reg.FSTORE_SLOT_STATUS_STATE l.slot) = 1 then s2.emptySlot l.slot 0 else s2).endLoad l.cmd 8
      | none => s2
    else
    match e.tag with
    | some t => if (s2.hq.cmds.get t).stage = .running then s2.finishTag t 0x30 0 0 0xFFFF else s2
    | none => s2

/-- DRAM_ECC_ERROR (R453). -/
def execDramEccError (e : EccError) (s : State) : Host.Outcome State Fault Refusal :=
  .next (if s.ctl.phase = .inReset then s else s.eccError e)

/-- A read of UE_ADDR_HI clears both halves (R454). -/
def readUeAddr (r : Req) (k be : Nat) (s : State) : State :=
  let p := Pg.dram k
  let s1 := withRead r p 0x054 be s (s.rd (p * 0x1000 + 0x054)) true
  if s.reach r && !decide (r = .pf1) && decide (be % 16 ≠ 0) then
    (s1.setFld p Reg.DRAM_UE_ADDR_LO 0).setDramc { s1.dramc with ueHeld := s1.dramc.ueHeld.filter (· ≠ k) }
  else s1

/-- UE_ADDR_READ (R454). -/
def execUeAddrRead (r : Req) (channel be : Nat) (s : State) : Host.Outcome State Fault Refusal :=
  .next (if channel < 8 then readUeAddr r channel be s else s)

end Sys2Proof.Machine
end

