-- ==== Sys2Proof/Machine/LaneTest.lean ====
section
/-! DEFINITION. The test functions of the lanes (R120 to R122, R124): generators, checkers and loops. -/

namespace Sys2Proof.Machine

/-- The lanes of the host link, whose generator and checker are available in every mode (R120). -/
def hostLane (k : Nat) : Bool := decide (30 ≤ k) && decide (k ≤ 37)

/-- The loop mode that a lane's LOOP setting selects; a mode its class lacks acts as 1 (R120, R124). -/
def loopMode (k loop : Nat) : Nat :=
  if k ≤ 15 then (if loop = 0 then 0 else 1)
  else if k ≤ 21 then (if loop = 3 then 1 else loop)
  else if hostLane k then 1
  else if loop = 3 then 1
  else loop

/-- The pattern that a PATTERN setting selects: 6 and 7 act as 0 (R124). -/
def patternOf (p : Nat) : Nat := if 5 < p then 0 else p

/-- The loop mode in force on a lane. -/
def State.loopOf (s : State) (k : Nat) : Nat := loopMode k (s.fld (Pg.lane k) Reg.LANE_TEST_CTRL_LOOP)

/-- Whether a lane's generator sends: sensor lanes have none at LOOP 0 (R120). -/
def State.genSends (s : State) (k : Nat) : Bool :=
  s.on (Pg.lane k) Reg.LANE_TEST_CTRL_GEN_EN && !(decide (k ≤ 15) && decide (s.loopOf k = 0))

/-- Whether a lane's checker receives: back-channel and SDI lanes have none at LOOP 0 (R120). -/
def State.chkReceives (s : State) (k : Nat) : Bool :=
  s.on (Pg.lane k) Reg.LANE_TEST_CTRL_CHK_EN && !(decide (16 ≤ k) && decide (k ≤ 21) && decide (s.loopOf k = 0))

/-- The degree and the middle exponent of a pattern's polynomial, and whether the sequence is sent inverted (R121). PRESUMED (log 103). -/
def prbsOf (p : Nat) : Option (Nat × Nat × Bool) :=
  if p = 1 then some (7, 6, false)
  else if p = 2 then some (15, 14, true)
  else if p = 3 then some (23, 18, true)
  else if p = 4 then some (31, 28, true)
  else none

/-- Whether received bits are a run of a pseudo-random pattern: each bit is the sum of the bits that its polynomial names, and the register
behind them is not empty (R121). -/
def prbsRun (n m : Nat) (inv : Bool) (bits : List Bool) : Bool :=
  let b := fun i => bits.getD i false != inv
  (List.range (bits.length - n)).all (fun i => b (n + i) == (b i != b (n + i - m))) && (List.range n).any b

/-- The 64 bits of the user pattern, the least significant bit of USER_PAT_LO first (R121). -/
def State.userBits (s : State) (k : Nat) : List Bool :=
  let v := s.fld64 (Pg.lane k) Reg.LANE_USER_PAT_LO Reg.LANE_USER_PAT_HI
  (List.range 64).map v.testBit

/-- Whether received bits are error-free bits of a lane's pattern: a run of its sequence, or a rotation of the user pattern (R121). -/
def State.patternRun (s : State) (k : Nat) (bits : List Bool) : Bool :=
  let p := patternOf (s.fld (Pg.lane k) Reg.LANE_TEST_CTRL_PATTERN)
  decide (bits.length = 64) &&
    match prbsOf p with
    | some (n, m, inv) => prbsRun n m inv bits
    | none => decide (p = 5) && (List.range 64).any fun r => decide ((s.userBits k).rotate r = bits)

/-- Whether a lane's checker sees its own generator: both run a pattern through a loop on the chip (R120, R121). -/
def State.selfLoop (s : State) (k : Nat) : Bool :=
  s.genSends k && s.chkReceives k && !decide (patternOf (s.fld (Pg.lane k) Reg.LANE_TEST_CTRL_PATTERN) = 0)
    && !decide (s.loopOf k = 0)

/-- Bit errors counted by a checker in sync (R122, R124). -/
def State.laneErrors (s : State) (k n : Nat) : State :=
  if n = 0 then s else (s.countBy (Pg.lane k) Reg.LANE_ERR_COUNT n).raise (Pg.lane k) Reg.LANE_EVENT_CHK_ERR

/-- The bits that INJECT_RATE inverts between two counts of generated bits: one in every 2^k, k from 10, and none with 0 (R122). -/
def injected (rate before after : Nat) : Nat := if rate = 0 then 0 else after / 2 ^ max 10 rate - before / 2 ^ max 10 rate

/-- The counts of a checker in sync brought up to date. How many bits have passed, and how many of them a line got wrong, is free; a
parallel loop gets none wrong but those that INJECT_RATE inverts (R120, R122). DESIGN CHOICE (log 102). -/
def State.checkerRun (s : State) (k : Nat) : State :=
  let p := Pg.lane k
  if k ≤ 45 ∧ s.on p Reg.LANE_TEST_STATUS then
    let bits := Config.free 83 s.seed % 2 ^ 31
    let was := s.fld64 p Reg.LANE_BIT_COUNT_LO Reg.LANE_BIT_COUNT_HI
    let own := if s.selfLoop k then injected (s.fld p Reg.LANE_TEST_CTRL_INJECT_RATE) was (was + bits) else 0
    let line := if s.selfLoop k && decide (s.loopOf k = 1) then 0 else Config.free 84 s.seed
    let s1 := (s.laneErrors k (min bits (own + line))).setFld64 p Reg.LANE_BIT_COUNT_LO Reg.LANE_BIT_COUNT_HI (was + bits)
    { s1 with seed := s1.seed + 1 }
  else s

/-- A write of INJECT_ONE while the generator sends: one bit of the next block is inverted, which a checker in sync on the lane's own
loop counts (R122). -/
def State.injectOne (s : State) (k : Nat) : State :=
  if s.genSends k then
    let s1 := s.emit (.inject k)
    if s.selfLoop k && s.on (Pg.lane k) Reg.LANE_TEST_STATUS then s1.laneErrors k 1 else s1
  else s

/-- The pattern that a sensor lane at LOOP 0 asks of its sensor: that of its checker, and 0 while it has none (R115, R120). DEDUCED (log
101). -/
def State.askedPattern (s : State) (k : Nat) : Nat :=
  if k ≤ 15 ∧ s.on (Pg.lane k) Reg.LANE_TEST_CTRL_CHK_EN ∧ s.loopOf k = 0 then
    patternOf (s.fld (Pg.lane k) Reg.LANE_TEST_CTRL_PATTERN)
  else 0

/-- PATTERN is sent to the sensor of a lane when the pattern that the lane asks for changes (R115, R120). DEDUCED (log 101). -/
def sendPattern (s0 s : State) (k : Nat) : State :=
  if s.askedPattern k = s0.askedPattern k then s
  else s.postBc (s.portOf k) 7 0 [(s.askedPattern k, s.fld (Pg.lane k) Reg.LANE_USER_PAT_LO)] .plain

/-- The effect of a write of TEST_CTRL: GEN_EN or CHK_EN to 1 outside SERVICE is discarded but on the host lanes; the counters
clear as CHK_EN rises, a checker that is off holds no sync, and a sensor is asked for its pattern (R115, R120, R122). -/
def writeTestCtrl (r : Req) (k : Nat) (v : Word) (s : State) : State :=
  withWrite r (Pg.lane k) 0x060 v s fun s old new =>
    let on := wfld new Reg.LANE_TEST_CTRL_GEN_EN = 1 ∨ wfld new Reg.LANE_TEST_CTRL_CHK_EN = 1
    if on ∧ s.ctl.mode ≠ .service ∧ hostLane k = false then s.reject (Pg.lane k)
    else
      let p := Pg.lane k
      let was := wfld old Reg.LANE_TEST_CTRL_CHK_EN
      let now := wfld new Reg.LANE_TEST_CTRL_CHK_EN
      let s1 := s.wr (p * 0x1000 + 0x060) (Word.setBits new 7 1 0)
      let s2 :=
        if was = 0 ∧ now = 1 then (s1.setFld p Reg.LANE_ERR_COUNT 0).setFld64 p Reg.LANE_BIT_COUNT_LO Reg.LANE_BIT_COUNT_HI 0
        else s1
      let s3 := if now = 0 then s2.setFld p Reg.LANE_TEST_STATUS 0 else s2
      let s4 := sendPattern s s3 k
      if wfld v Reg.LANE_TEST_CTRL_INJECT_ONE = 1 then s4.injectOne k else s4

/-- TEST_CTRL_WRITE (R120). -/
def execTestCtrlWrite (r : Req) (lane : Nat) (v : Word) (s : State) : Host.Outcome State Fault Refusal :=
  .next (writeTestCtrl r lane v s)

/-- INJECT_ONE (R122). -/
def execInjectOne (r : Req) (lane : Nat) (v : Word) (s : State) : Host.Outcome State Fault Refusal :=
  .next (writeTestCtrl r lane v s)

/-- The checker of a lane that receives gains sync on 64 error-free bits of its pattern (R120, R121). -/
def State.checkerSync (s : State) (k : Nat) (bits : List Bool) : State :=
  if k ≤ 45 ∧ s.chkReceives k ∧ s.patternRun k bits then s.setFld (Pg.lane k) Reg.LANE_TEST_STATUS 1 else s

/-- CHECKER_SYNC_GAINED (R121). -/
def execCheckerSyncGained (lane : SyncedLane) (s : State) : Host.Outcome State Fault Refusal := .next (s.checkerSync lane.lane lane.bits)

/-- The checker of a lane loses sync on more than 256 errors, having compared so many bits and counted so many errors since its counts were
last brought up to date (R121, R122). -/
def State.checkerLost (s : State) (k errors bits : Nat) : State :=
  let p := Pg.lane k
  if k ≤ 45 ∧ s.on p Reg.LANE_TEST_STATUS ∧ 256 < errors ∧ errors ≤ bits then
    let s1 := s.laneErrors k errors
    let s2 := s1.setFld64 p Reg.LANE_BIT_COUNT_LO Reg.LANE_BIT_COUNT_HI
      (s1.fld64 p Reg.LANE_BIT_COUNT_LO Reg.LANE_BIT_COUNT_HI + bits)
    (s2.setFld p Reg.LANE_TEST_STATUS 0).raise p Reg.LANE_EVENT_CHK_SYNC_LOST
  else s

/-- CHECKER_SYNC_LOST (R121). -/
def execCheckerSyncLost (lane errors bits : Nat) (s : State) : Host.Outcome State Fault Refusal :=
  .next (s.checkerLost lane errors bits)

end Sys2Proof.Machine
end

