-- ==== Sys2Proof/Machine/Namespaces.lean ====
section
/-! DEFINITION. Namespaces (R307 to R314, R317): what exists, where its bytes lie, creation and deletion, READ, WRITE and LOAD SLOT, and
the structures of IDENTIFY and GET LOG PAGE. -/

namespace Sys2Proof.Machine

/-! ### The stage region (R309, R317) -/

/-- The bytes of a stage unit. -/
abbrev stageUnit : Nat := 2097152

/-- Where the stage region begins. -/
def State.stageBase (s : State) : Nat :=
  stageUnit * s.fld Pg.nspace Reg.NSPACE_STAGE_BASE_LO + 2 ^ 32 * s.fld Pg.nspace Reg.NSPACE_STAGE_BASE_HI

/-- The units of LOG. -/
def State.logUnits (s : State) : Nat := s.fld Pg.nspace Reg.NSPACE_LOG_UNITS

/-- The units of the stage region. -/
def State.stageUnits (s : State) : Nat := min 32768 (s.fld Pg.nspace Reg.NSPACE_STAGE_UNITS)

/-- Whether a unit of the stage region is free for a STAGE namespace. -/
def State.unitFree (s : State) (u : Nat) : Bool :=
  decide (s.logUnits ≤ u) && decide (u < s.stageUnits) && !(s.stages.any fun e => decide (e.unit ≤ u) && decide (u < e.unit + e.units))

/-- The length of the free run from a unit on. -/
def State.runFrom (s : State) : Nat → Nat → Nat
  | 0, _ => 0
  | n + 1, u => if s.unitFree u then s.runFrom n (u + 1) + 1 else 0

/-- The units at which a free run can begin: after LOG and after each STAGE namespace. -/
def State.runStarts (s : State) : List Nat := s.logUnits :: s.stages.map fun e => e.unit + e.units

/-- The free units. -/
def State.stageFree (s : State) : Nat := (s.runStarts.dedup.map fun u => s.runFrom s.stageUnits u).sum

/-- The longest free run of units. -/
def State.stageRun (s : State) : Nat := (s.runStarts.map fun u => s.runFrom s.stageUnits u).foldl max 0

/-- The lowest free run of a length. -/
def State.findRun (s : State) (n : Nat) : Option Nat :=
  (s.runStarts.filter fun u => decide (n ≤ s.runFrom s.stageUnits u)).foldl
    (fun (best : Option Nat) u => match best with | some b => some (min b u) | none => some u) none

/-- A STAGE namespace. -/
def State.stageNs (s : State) (n : Nat) : Option StageNs := s.stages.find? fun e => decide (e.nsid = n)

/-! ### Namespaces (R307, R309, R317) -/

/-- The size of SETTINGS: the largest image it takes (R311). DESIGN CHOICE (log 53). -/
abbrev settingsSize : Nat := 65536

/-- TYPE of an NSID in the codes of NS_INFO: 0 none, 1 REEL, 2 SETTINGS, 3 STAGE, 4 LOG. -/
def State.nsType (s : State) (n : Nat) : Nat :=
  if n = 0 then 2 else if n = 1 then 4 else if (s.dirEntry n).state ≠ 0 then 1 else if (s.stageNs n).isSome then 3 else 0

/-- The size of a namespace. -/
def State.nsSize (s : State) (n : Nat) : Nat :=
  match s.nsType n with
  | 1 => (s.dirEntry n).size
  | 2 => settingsSize
  | 3 => ((s.stageNs n).map (·.size)).getD 0
  | 4 => stageUnit * s.logUnits
  | _ => 0

/-- The newest valid RSM bank up to its CRC (R311). -/
def State.settingsImage (s : State) : List Byte :=
  match s.rsm.newest with
  | some i => let b := s.rsm.bank i; b.take (bankBody b + 4)
  | none => []

/-- The bytes written or recorded in a namespace. DESIGN CHOICE (log 53). -/
def State.nsUsed (s : State) (n : Nat) : Nat :=
  match s.nsType n with
  | 1 => s.reelUsed n
  | 2 => s.settingsImage.length
  | 3 => ((s.stageNs n).map (·.used)).getD 0
  | 4 => s.hq.logUsed
  | _ => 0

/-- Whether a reel is being recorded or read for REVIEW (R310). -/
def State.reelInUse (s : State) (n : Nat) : Bool :=
  (s.reel.isOpen && decide (s.reel.nsid = n))
    || (decide (s.ctl.mode = .review) && decide (s.fld Pg.recorder Reg.RECORDER_REVIEW_NS_NSID = n)
      && decide (s.nsType n = 1))

/-- Whether a Filter Store load from a namespace runs (R310). -/
def State.loadsFrom (s : State) (n : Nat) : Bool :=
  match s.fstore.load, s.stageNs n with
  | some l, some e =>
    let a := s.stageBase + stageUnit * e.unit
    decide (a < l.src) && decide (l.src ≤ a + e.size)
  | _, _ => false

/-- The outstanding commands that name a namespace, apart from one. -/
def State.nsCommands (s : State) (n uid : Nat) : List Cmd :=
  s.openCmds.filter fun c => c.names && decide (c.nsid = n) && decide (c.uid ≠ uid)

/-- IN_USE of a namespace: held by an engine (for SETTINGS a save) or a command, or open on the media and not recovered (R83, R317,
R334). -/
def State.nsInUse (s : State) (n : Nat) : Bool :=
  s.reelInUse n || (decide (n = 0) && s.rsm.running.isSome) || s.loadsFrom n || ((s.nsCommands n 0).any fun c => nsOps.contains c.op)
    || decide ((s.dirEntry n).state = 2)

/-- OPEN of a namespace: a reel open for recording or metadata. -/
def State.nsOpen (s : State) (n : Nat) : Bool := s.reel.isOpen && decide (s.reel.nsid = n) && !s.reel.lastFlush

/-- The existing NSIDs. -/
def State.nsids (s : State) : List Nat := (List.range 256).filter fun n => decide (s.nsType n ≠ 0)

/-! ### Creation and deletion (R309, R310, R323) -/

/-- The lowest free NSID from 2. DESIGN CHOICE (log 53). -/
def State.freeNsid (s : State) : Option Nat := ((List.range 254).map (· + 2)).find? fun n => decide (s.nsType n = 0)

/-- The field of a CREATE NAMESPACE that is out of its range (R309). DESIGN CHOICE (log 53). -/
def badCreateNs (c : Cmd) (s : State) : Option Nat :=
  let type := c.cdw 8 % 256
  let want := c.cdw 9 % 256
  let size := c.cdw 10 + 2 ^ 32 * c.cdw 11
  firstBad [(decide (type ≠ 1 ∧ type ≠ 3), 0x20), (decide (want = 1 ∨ (want ≠ 0 ∧ s.nsType want ≠ 0)), 0x24),
    (decide ((type = 1 ∧ size < 16777216) ∨ size = 0), 0x28)]

/-- CREATE NAMESPACE (R309, R323, R439). STAGE namespaces cannot be created while DRAM training has failed. DESIGN CHOICE (log 53). -/
def runCreateNs (tag : Nat) (c : Cmd) (s : State) : State :=
  let type := c.cdw 8 % 256
  let want := c.cdw 9 % 256
  let size := c.cdw 10 + 2 ^ 32 * c.cdw 11
  let standing := decide (s.ctl.mode = .service) || decide (s.ctl.mode = .sleep)
  let fail := fun st field => s.finishTag tag st 0 0 field
  if standing ∨ (type = 1 ∧ s.media.vol.isNone) ∨ (type = 3 ∧ s.on Pg.dramctl Reg.DRAMCTL_STATE_TRAIN_FAIL) then
    fail 0x0C 0xFFFF
  else
    match (if want = 0 then s.freeNsid else some want) with
    | none => fail 0x32 0xFFFF
    | some n =>
      if type = 3 then
        let units := ceilDiv size stageUnit
        match s.findRun units with
        | none => fail 0x32 0xFFFF
        | some u =>
          let e : StageNs := ⟨n, u, units, units * stageUnit, 0⟩
          (({ s with stages := s.stages ++ [e] } : State).raise Pg.nspace Reg.NSPACE_EVENT_NS_CREATED).finishTag tag 0 n 0 0xFFFF
      else
        let bytes := roundUp size 8388608
        match s.media.vol.bind fun v => v.findFree bytes with
        | none => fail 0x32 0xFFFF
        | some a =>
          if s.volumeReady = false then fail 0x30 0xFFFF
          else ((s.setEntry n ⟨1, a, bytes⟩).showVolume.raise Pg.nspace Reg.NSPACE_EVENT_NS_CREATED).finishTag tag 0 n 0 0xFFFF

/-- CREATE_NAMESPACE (R309). -/
def execCreateNamespace (tag : Nat) (s : State) : Host.Outcome State Fault Refusal :=
  .next (withCmd tag 0x18 s badCreateNs (runCreateNs tag))

/-- The drive bytes of an extent are deallocated; they read as zero from then on (R323). -/
def State.deallocate (s : State) (start size : Nat) : State :=
  match s.media.vol with
  | none => s
  | some v =>
    s.mountedPorts.foldl
      (fun (s : State) k =>
        let d := s.drive k
        let outside := fun (e : Nat × Byte) =>
          decide (e.1 < 8388608) ||
            (let u := (e.1 - 8388608) / 4194304 * v.drives + v.members.getD k 0
             decide (u * 4194304 < start) || decide (start + size ≤ u * 4194304))
        s.putDrive k { d with mem := d.mem.filter outside }) s

/-- DELETE NAMESPACE of SETTINGS, of LOG or of no namespace (R310). -/
def badDeleteNs (c : Cmd) (s : State) : Option Nat := firstBad [(decide (c.nsid < 2 ∨ s.nsType c.nsid = 0), 0x04)]

/-- DELETE NAMESPACE (R310, R323). -/
def runDeleteNs (tag : Nat) (c : Cmd) (s : State) : State :=
  let n := c.nsid
  let fail := fun st field => s.finishTag tag st 0 0 field
  if s.reelInUse n || s.loadsFrom n || !(s.nsCommands n c.uid).isEmpty then fail 0x0C 0xFFFF
  else
    let done := fun (s : State) => (s.raise Pg.nspace Reg.NSPACE_EVENT_NS_DELETED).finishTag tag 0 0 0 0xFFFF
    if s.nsType n = 3 then done { s with stages := s.stages.filter fun e => decide (e.nsid ≠ n) }
    else if s.volumeReady = false then fail 0x30 0xFFFF
    else
      let e := s.dirEntry n
      done ((s.deallocate e.start e.size).setEntry n {}).showVolume

/-- DELETE_NAMESPACE (R310). -/
def execDeleteNamespace (tag : Nat) (s : State) : Host.Outcome State Fault Refusal :=
  .next (withCmd tag 0x19 s badDeleteNs (runDeleteNs tag))

/-! ### READ and WRITE (R311, R312) -/

/-- The bytes of a namespace. -/
def State.nsRead (s : State) (n off len : Nat) : List Byte :=
  match s.nsType n with
  | 1 => s.entryRead (s.dirEntry n) off len
  | 2 => slice s.settingsImage off len
  | 3 => s.peekN (s.stageBase + stageUnit * ((s.stageNs n).map (·.unit)).getD 0 + off) len
  | _ => s.peekN (s.stageBase + off) len

/-- The bytes of its namespace that a READ or WRITE asks for, known once its list has been read (R286, R295). -/
def ioLen (h : HostData) (c : Cmd) (s : State) : Nat := (s.knownLen c h).getD 0

/-- The field of a READ that is out of its range: a range beyond the namespace, or of a REEL beyond its recorded length (R286, R312). -/
def badRead (h : HostData) (c : Cmd) (s : State) : Option Nat :=
  let limit := if s.nsType c.nsid = 1 then s.reelUsed c.nsid else s.nsSize c.nsid
  firstBad [(decide (s.nsType c.nsid = 0), 0x04), (s.badBuf c h true, 0x10), (decide (limit < c.offset + ioLen h c s), 0x20)]

/-- READ; of a reel whose bytes lie on a drive that has failed it ends with status 0x30 (R312, R337). -/
def runRead (h : HostData) (tag : Nat) (c : Cmd) (s : State) : State :=
  let n := c.nsid
  let len := xferLen c h
  match s.buffers c h true with
  | .error st => s.failBuf tag st
  | .ok bufs =>
    if s.nsType n = 1 ∧ s.volReadable ((s.dirEntry n).start + c.offset) len = false then s.finishTag tag 0x30 0 0 0xFFFF
    else (s.toHost c.fn bufs (s.nsRead n c.offset len)).finishTag tag 0 len 0 0xFFFF

/-- READ (R312). -/
def execRead (tag : Nat) (h : HostData) (s : State) : Host.Outcome State Fault Refusal :=
  .next (withCmd tag 0x80 s (badRead h) (runRead h tag) (ioLen h))

/-- The field of a WRITE that is out of its range; SETTINGS takes one at offset 0 (R286, R311, R312). -/
def badWrite (h : HostData) (c : Cmd) (s : State) : Option Nat :=
  firstBad [(decide (c.nsid ≠ 0) && (s.stageNs c.nsid).isNone, 0x04), (s.badBuf c h false, 0x10),
    (decide (c.nsid = 0 ∧ c.offset ≠ 0), 0x20)]

/-- A WRITE to SETTINGS: the image goes to the save engine; from PF1 it is refused by Field Stop (R311, R467). -/
def runWriteSettings (h : HostData) (tag : Nat) (c : Cmd) (s : State) : State :=
  let len := xferLen c h
  if s.quiet = false then s.finishTag tag 0x0C 0 0 0xFFFF
  else if c.fn = .pf1 then s.finishTag tag 0x11 0 0 0xFFFF
  else
    match s.buffers c h false with
    | .error st => s.failBuf tag st
    | .ok _ =>
      if 65536 < len then s.finishTag tag 0x31 0 0 0xFFFF
      else
        match h.data with
        | none => s.finishTag tag 0x04 0 0 0xFFFF
        | some b => if bankValid (padTo len b) then s.writeSettings c.uid (padTo len b) else s.finishTag tag 0x02 0 0 0xFFFF

/-- WRITE (R312). -/
def runWrite (h : HostData) (tag : Nat) (c : Cmd) (s : State) : State :=
  let len := xferLen c h
  if c.nsid = 0 then runWriteSettings h tag c s
  else
    match s.stageNs c.nsid with
    | none => s
    | some e =>
      match s.buffers c h false with
      | .error st => s.failBuf tag st
      | .ok _ =>
        if e.size < c.offset + len then s.finishTag tag 0x32 0 0 0xFFFF
        else
          match h.data with
          | none => s.finishTag tag 0x04 0 0 0xFFFF
          | some b =>
            let s1 := s.pokeN (s.stageBase + stageUnit * e.unit + c.offset) (padTo len b)
            let grow := fun (x : StageNs) => if x.nsid = e.nsid then { x with used := max x.used (c.offset + len) } else x
            ({ s1 with stages := s1.stages.map grow } : State).finishTag tag 0 len 0 0xFFFF

/-- WRITE (R312). -/
def execWrite (tag : Nat) (h : HostData) (s : State) : Host.Outcome State Fault Refusal :=
  .next (withCmd tag 0x81 s (badWrite h) (runWrite h tag) (ioLen h))

/-! ### LOAD SLOT (R314) -/

/-- The field of a LOAD SLOT that is out of its range (R312). -/
def badLoadSlot (c : Cmd) (s : State) : Option Nat :=
  let size := ((s.stageNs c.nsid).map (·.size)).getD 0
  firstBad [((s.stageNs c.nsid).isNone, 0x04), (decide (c.offset % 64 ≠ 0 ∨ size < c.offset + 64), 0x20)]

/-- Where the package of a LOAD SLOT lies. -/
def State.packageAt (s : State) (c : Cmd) : Nat := s.stageBase + stageUnit * ((s.stageNs c.nsid).map (·.unit)).getD 0 + c.offset

/-- The bytes of the package of a LOAD SLOT: its header, and the payload that the header gives (R201, R295). -/
def packageLen (c : Cmd) (s : State) : Nat :=
  let hdr := s.peekN (s.packageAt c) 64
  64 + if leAt hdr 0 4 = 0x53465A4B then leAt hdr 8 4 else 0

/-- LOAD SLOT drives the load engine with the package at its offset (R312, R314). -/
def runLoadSlot (c : Cmd) (s : State) : State := s.beginLoad (c.cdw 10 % 64) (s.packageAt c) (some c.uid)

/-- LOAD_SLOT (R314). It waits its turn while a load runs, or a power-down of the Filter Store is held (R483). -/
def execLoadSlot (tag : Nat) (s : State) : Host.Outcome State Fault Refusal :=
  .next (if s.fstore.load.isSome ∨ (s.heldReq Pg.fstore).isSome then s else withCmd tag 0x84 s badLoadSlot runLoadSlot packageLen)

/-! ### IDENTIFY and GET LOG PAGE (R307, R308, R336) -/

/-- The device identify structure (R307). -/
def State.identifyDevice (s : State) (fn : Fn) : List Byte :=
  padTo 4096 (leBytes 2 (s.fld Pg.global Reg.GLOBAL_DEVICE_ID_PART) ++ leBytes 2 (s.fld Pg.global Reg.GLOBAL_DEVICE_ID_STEPPING)
    ++ leBytes 4 (s.fld Pg.global Reg.GLOBAL_FW_BUILD) ++ padTo 16 s.serial ++ leBytes 2 16384 ++ leBytes 2 64 ++ leBytes 2 4096
    ++ leBytes 2 256 ++ leBytes 4 65536 ++ leBytes 4 67108864 ++ leBytes 1 (fnNum fn) ++ zeros 3
    ++ leBytes 4 (s.fld Pg.array Reg.ARRAY_GENERATION))

/-- The namespace structure (R307). -/
def State.identifyNs (s : State) (n : Nat) : List Byte :=
  padTo 4096 (leBytes 1 (s.nsType n) ++ leBytes 1 ((if s.nsInUse n then 1 else 0) + if s.nsOpen n then 2 else 0) ++ [0, 0]
    ++ leBytes 8 (s.nsSize n) ++ leBytes 8 (s.nsUsed n))

/-- The namespace list (R307). -/
def State.identifyList (s : State) : List Byte := padTo 4096 (leBytes 32 ((s.nsids.map (2 ^ ·)).sum))

/-- Bytes written to a command's buffer, or the status of a failed buffer check. -/
def State.answer (s : State) (h : HostData) (tag : Nat) (c : Cmd) (b : List Byte) (result : Nat) : State :=
  match s.buffers c h true with
  | .error st => s.failBuf tag st
  | .ok bufs => (s.toHost c.fn bufs b).finishTag tag 0 result 0 0xFFFF

/-- The field of an IDENTIFY that is out of its range (R286, R303, R307). -/
def badIdentify (h : HostData) (c : Cmd) (s : State) : Option Nat :=
  if c.names ∧ s.nsType c.nsid = 0 then some 0x04
  else
    match s.badReport c h with
    | some f => some f
    | none => firstBad [(decide (2 < c.cdw 8 % 256), 0x20)]

/-- IDENTIFY (R307). DESIGN CHOICE (log 53). -/
def runIdentify (h : HostData) (tag : Nat) (c : Cmd) (s : State) : State :=
  let cns := c.cdw 8 % 256
  s.answer h tag c (if cns = 0 then s.identifyDevice c.fn else if cns = 1 then s.identifyNs c.nsid else s.identifyList) 0

/-- IDENTIFY (R307). -/
def execIdentify (tag : Nat) (h : HostData) (s : State) : Host.Outcome State Fault Refusal :=
  .next (withCmd tag 0x05 s (badIdentify h) (runIdentify h tag))

/-- An entry of the error log (R308). -/
def ErrEntry.bytes (e : ErrEntry) : List Byte :=
  leBytes 1 e.sqid ++ leBytes 1 e.opcode ++ leBytes 2 e.cid ++ leBytes 1 e.status ++ leBytes 1 e.detail ++ leBytes 2 e.field
    ++ leBytes 2 e.tag ++ [0, 0] ++ leBytes 4 e.count

/-- The drop report (R336). -/
def State.dropReport (s : State) : List Byte :=
  leBytes 4 s.media.drops.length ++ zeros 4 ++ leBytes 8 s.media.dropTotal
    ++ s.media.drops.flatMap fun d => leBytes 8 d.frame ++ leBytes 1 d.nsid ++ leBytes 1 d.cause ++ [0, 0] ++ leBytes 4 d.mib

/-- A log page of a function; none for an LID that is not served (R308). DESIGN CHOICE (log 29). -/
def State.logPage (s : State) (fn : Fn) (lid : Nat) : Option (List Byte) :=
  match lid with
  | 1 => some ((s.hq.errors.filter fun e => decide (e.fn = fn)).flatMap ErrEntry.bytes)
  | 2 => some (padTo 512 s.hq.report)
  | 3 => some s.dropReport
  | _ => none

/-- The field of a GET LOG PAGE that is out of its range (R286, R308). -/
def badGetLog (h : HostData) (c : Cmd) (s : State) : Option Nat :=
  firstBad [(s.badBuf c h true, 0x10), ((s.logPage c.fn (c.cdw 8 % 256)).isNone, 0x20)]

/-- GET LOG PAGE (R303, R308). -/
def runGetLog (h : HostData) (tag : Nat) (c : Cmd) (s : State) : State :=
  let p := (s.logPage c.fn (c.cdw 8 % 256)).getD []
  let b := (p.drop (c.cdw 10 + 2 ^ 32 * c.cdw 11)).take (xferLen c h)
  s.answer h tag c b b.length

/-- GET_LOG_PAGE (R308). -/
def execGetLogPage (tag : Nat) (h : HostData) (s : State) : Host.Outcome State Fault Refusal :=
  .next (withCmd tag 0x06 s (badGetLog h) (runGetLog h tag))

end Sys2Proof.Machine
end

