-- ==== Sys2Proof/Machine/Modes.lean ====
section
/-! DEFINITION. Modes and takes (R56 to R71, R139 to R141, R304, R341, R490, R501, R502): SET MODE, take START and STOP, the moves
between LIVE and RECORD, REVIEW, SERVICE and SLEEP, and ABORT (R296). -/

namespace Sys2Proof.Machine

/-! ### MODE and the output group (R56, R58) -/

/-- GLOBAL.STATE.MODE: the settled mode, or 0b111 in a transition (R53, R62, R68, R70). DEDUCED (log 20). -/
def State.modeCode (s : State) : Nat :=
  match s.ctl.phase with
  | .checking _ _ | .starting _ _ | .switching _ _ | .stopping _ | .closing _ => 7
  | _ =>
    match s.ctl.mode with
    | .standby | .sleep => 0
    | .live => 1
    | .record => 2
    | .review => 3
    | .service => 4

/-- GLOBAL.STATE.MODE brought up to date. DEDUCED (log 20). -/
def State.showMode (s : State) : State := s.setFld Pg.global Reg.GLOBAL_STATE_MODE s.modeCode

/-- The mode and the place between modes set. -/
def State.toMode (s : State) (m : Mode) (ph : Phase) : State :=
  ({ s with ctl := { s.ctl with mode := m, phase := ph } } : State).showMode

/-- Every output stops as its mode ends (R56, R58). DEDUCED (log 26). -/
def State.outputsStop (s : State) : State :=
  let s1 := (List.range 4).foldl (fun (s : State) n => if s.engineRuns n then s.engineStop n else s) s
  let s2 := (List.range 4).foldl (fun (s : State) p => if s.audPhase p = 0 then s else s.audStop p) s1
  let s3 := (List.range 16).foldl (fun (s : State) f => s.flowDrop f) s2
  let s4 := [0, 1].foldl (fun (s : State) e => s.setEthLink e false) s3
  { s4 with mirror := [] }

/-- Every output whose CTRL.ENABLE is 1 runs as a mode that runs the output group begins (R56, R58). A port or an engine whose fields a
write of ENABLE would be refused for stays stopped. DEDUCED (log 26). -/
def State.outputsStart (s : State) : State :=
  let engine := fun (s : State) n =>
    if s.on (Pg.loupe n) Reg.LOUPE_CTRL_ENABLE && !s.engineRuns n && !s.enableBarred n true then s.engineStart n else s
  let s1 := (List.range 4).foldl engine s
  let audio := fun (s : State) p =>
    if s.on (Pg.aud p) Reg.AUD_CTRL_ENABLE = false ∨ s.audPhase p ≠ 0 then s
    else if s.audBad p then s.raise (Pg.aud p) Reg.AUD_EVENT_CFG_ERR
    else s.audStart p
  let s2 := (List.range 4).foldl audio s1
  (List.range 16).foldl (fun (s : State) f => if s.flowOn f then s.flowStart f else s) s2

/-- STANDBY is reached: STOPPING clears, domains follow their requests and the command completes (R70, R489). -/
def State.toStandby (s : State) (cmd : Option Nat) : State :=
  let s1 := (s.toMode .standby .settled).setFld Pg.therm Reg.THERM_STATE_STOPPING 0
  s1.showRecorder.settleAll.finish? cmd 0 0 0

/-! ### Take START (R68, R69) -/

/-- Step 1: MODE reads 0b111 and the budget check runs (R68). DESIGN CHOICE (log 38). -/
def State.beginStart (s : State) (target : Mode) (cmd : Option Nat) : State :=
  let c : Ctl := { s.ctl with capRun := true, frameSeen := false, stopFrame := none, recStart := none, recEnd := none }
  ({ s with ctl := c } : State).toMode .standby (.checking target cmd)

/-- A failover or a handover that waited for a frame start of the take takes place as the take ends (R462, R465). DEDUCED (log 83). -/
def State.fwOver (s : State) : State := if s.fw.failover || s.fw.waiting.isSome then s.fwPoint else s

/-- A refusal at step 2: STANDBY again with no change (R68). -/
def State.refuseStart (s : State) (cmd : Option Nat) (status result detail : Nat) : State :=
  let s1 := ({ s with ctl := { s.ctl with capRun := false } } : State).toMode .standby .settled
  s1.fwOver.finish? cmd status result detail

/-- The budget report: it is kept for the log page and written to the buffer of its command, or to LOG for the boot mode (R74, R308). DESIGN
CHOICE (log 29). -/
def State.sendReport (s : State) (cmd : Option Nat) (b : List Byte) : State :=
  let s1 := s.setHq { s.hq with report := b }
  match cmd with
  | none =>
    if s1.logUnits = 0 then s1 else (s1.setHq { s1.hq with logUsed := max s1.hq.logUsed b.length }).pokeN s1.stageBase b
  | some u =>
    match s1.tagOf u with
    | none => s1
    | some t => let c := s1.hq.cmds.get t; if c.stage = .running then s1.toHost c.fn c.bufs b else s1

/-- The admitted START: DRAM at FS0, the domains of the configuration on, steps 3 and 4 of R68. DEDUCED (log 23). -/
def State.armTake (s : State) (target : Mode) (cmd : Option Nat) : State :=
  let s1 := s.freqZero.powerAll
  let s2 := noteFreed s1 (prismPages.foldl (fun s p => s.checkSlots p) s1.copyShadows)
  let c : Ctl := { s2.ctl with
    charged := if s2.digests then s2.digestRends else []
    recStart := if target = .record then some 0 else none
    phase := .starting target cmd }
  let s3 : State := { s2 with ctl := c }
  let s4 := s3.ingressStart.feStart.splitStart.drawStart.hencStart.recorderStart.trigStart.loupeTake
  let s5 := [0, 1].foldl (fun (s : State) k => s.linkTake k (s.portsUsed.contains k)) (s4.autoSave 2)
  s5.armTriggers.showRecorder

/-- Step 2: the configuration checks, the trigger limits of R395, then the budget check with its report (R68, R72, R128, R395). DEDUCED (log
21). -/
def State.budgetDone (s : State) : State :=
  match s.ctl.phase with
  | .checking target cmd =>
    let errs := s.configErrs (target = .record)
    if errs ≠ [] then (s.raiseAll errs).refuseStart cmd 0x02 0 0
    else if s.trigCheck = 0x11 then s.refuseStart cmd 0x11 0 0
    else
      let l := s.budget
      let s1 := s.sendReport cmd (budgetReport l)
      match firstOver l with
      | some e => s1.refuseStart cmd 0x12 e.2.1 e.1
      | none => s1.armTake target cmd
  | _ => s

/-- BUDGET_CHECK_DONE (R68). -/
def execBudgetCheckDone (s : State) : Host.Outcome State Fault Refusal := .next s.budgetDone

/-- The sensors of the take are told to stop (R69, R70). -/
def State.sensorStop (s : State) : State := s.portsUsed.foldl (fun (s : State) k => s.postBc k 4 0 [] .plain) s

/-- A START that waits for its first frame is cancelled: the sensor is told to stop, the triggers are disarmed and the START completes with
status 0x07 (R69). DEDUCED (log 22). -/
def State.cancelStart (s : State) : State :=
  match s.ctl.phase with
  | .starting _ cmd =>
    let s1 := s.sensorStop.disarm.setFld Pg.ingress Reg.INGRESS_STATE_PHASE 0
    let s2 := ({ s1 with ctl := { s1.ctl with capRun := false, recStart := none } } : State).toMode .standby .settled
    ((s2.portsUsed.foldl (fun (s : State) k => s.endStreaming k) s2).showDraw.showHenc.showRecorder.settleAll.fwOver).finish? cmd 0x07 0 0
  | _ => s

/-- Step 5, at frame 0: TAKE reads 1, MODE the target, and the START completes; a take straight into RECORD opens its reel (R68). DEDUCED
(log 23). -/
def State.takeBegins (s : State) : State :=
  match s.ctl.phase with
  | .starting target cmd =>
    let s1 := (s.setFld Pg.global Reg.GLOBAL_STATE_TAKE 1).toMode target .settled
    let s2 := if target = .record then s1.openReel 0 else s1
    s2.showRecorder.finish? cmd 0 0 0
  | _ => s

/-! ### Take STOP (R70, R71, R501) -/

/-- Step 1: the sensor is told to stop, frame n is the last, later groups are cancelled and no further trigger is issued (R70, R71). DESIGN
CHOICE (log 38). -/
def State.beginStop (s : State) (cmd : Option Nat) : State :=
  let n := s.frameNow
  let s1 := s.sensorStop
  let c : Ctl := { s1.ctl with stopFrame := some n, recEnd := if s1.ctl.mode = .record then some (n + 1) else s1.ctl.recEnd }
  let s2 := ({ s1 with ctl := c } : State).toMode s1.ctl.mode (.stopping cmd)
  let idle := fun (s : State) => (s.portsUsed.foldl (fun (s : State) k => s.endStreaming k) s).setFld Pg.ingress Reg.INGRESS_STATE_PHASE 0
  let s3 := if s2.ingress.openFrame.isNone then idle s2 else s2
  (noteFreed s3 (s3.cancelGroups n)).disarm

/-- Whether the shared read, Prism, the renditions and the encoders have finished every frame of the take (R70). -/
def State.captureDrained (s : State) : Bool :=
  s.ingress.openFrame.isNone && s.ingress.ready.isEmpty && s.ingress.reading.isNone && s.split.pics.isEmpty && s.draw.live.isNone
    && !(s.split.holds.any fun h => match h.1 with | .henc _ | .due _ => true | _ => false)

/-- The reel of a recording that ends closes once its groups are written, or at once when there is none and no catch-up goes on (R70, R140).
DEDUCED (log 22). -/
def State.captureDone (s : State) : State :=
  match s.ctl.phase with
  | .stopping cmd =>
    if s.captureDrained = false then s
    else
      let s1 := s.setFld Pg.global Reg.GLOBAL_STATE_TAKE 0
      let s2 := noteFreed s (({ s1 with ctl := { s1.ctl with capRun := false } } : State).dropSources.fwOver.cancelGroups 0)
      let s3 := s2.showDraw.showHenc
      let s4 := if s3.fenced then s3.abandonReel else s3.beginClose
      if s4.reel.isOpen || !s4.ingress.catchup.isEmpty then s4.toMode s4.ctl.mode (.closing cmd) else s4.toStandby cmd
  | _ => s

/-- TAKE_STOP_CAPTURE_DONE (R70). -/
def execTakeStopCaptureDone (s : State) : Host.Outcome State Fault Refusal := .next s.captureDone

/-- Whether nothing of the recording that ends is left to write. -/
def State.recordingOver (s : State) : Bool := if s.reel.isOpen then s.closable else s.ingress.catchup.isEmpty

/-- The reel closes and the mode change that waits for it completes (R62, R70, R140, R339). DEDUCED (log 22). -/
def State.reelClose (s : State) : State :=
  if s.recordingOver = false then s
  else
    let ended := fun (_ : Unit) => if s.reel.isOpen then s.endReel else s
    match s.ctl.phase with
    | .closing cmd => (ended ()).toStandby cmd
    | .switching .live cmd =>
      (match s.ctl.recEnd with
       | some e =>
         if e ≤ s.frameNow then ((ended ()).toMode .live .settled).showRecorder.finish? cmd 0 0 0 else s
       | none => s)
    | _ => s

/-- REEL_CLOSE (R339). -/
def execReelClose (s : State) : Host.Outcome State Fault Refusal := .next s.reelClose

/-! ### LIVE and RECORD (R64, R139) -/

/-- A move between LIVE and RECORD waits for its boundary (R64). DEDUCED (log 20). -/
def State.beginSwitch (s : State) (target : Mode) (b : Option Nat) (cmd : Nat) : State :=
  let c : Ctl := if target = .record then { s.ctl with recStart := b, recEnd := none } else { s.ctl with recEnd := b }
  ({ s with ctl := c } : State).toMode s.ctl.mode (.switching target (some cmd))

/-- The start of frame `n` for a move into RECORD: at the boundary the pre-roll is held and the recording begins (R64, R139). -/
def State.recordBoundary (s : State) (n : Nat) : State :=
  match s.ctl.phase with
  | .switching .record cmd =>
    let b := s.ctl.recStart.getD n
    if n < b then s
    else
      let s1 := ({ s with ctl := { s.ctl with recStart := some b } } : State).holdPreroll b
      let s2 := ((s1.toMode .record .settled).openReel b).showRecorder
      s2.finish? cmd 0 (b % 2 ^ 32) 0
  | _ => s

/-- The start of frame `n` for a move to LIVE: from the boundary on no frame is recorded and the reel closes (R64). -/
def State.liveBoundary (s : State) (n : Nat) : State :=
  match s.ctl.phase with
  | .switching .live _ =>
    let b := s.ctl.recEnd.getD n
    let s1 : State := { s with ctl := { s.ctl with recEnd := some b } }
    if n < b then s1
    else
      let s2 := if s1.reel.closing then s1 else s1.beginClose
      s2.reelClose
  | _ => s

/-! ### REVIEW, SERVICE and SLEEP (R60, R65, R66, R451) -/

/-- Whether the Prism and Splitter checks refuse entry to REVIEW (R60, R178, R193). -/
def State.reviewBad (s : State) : Bool :=
  s.reviewRaw && (s.feBad || s.rendsUsed.any s.beBad || s.splitBad true)

/-- Entry to REVIEW (R60, R340, R482). -/
def State.enterReview (s : State) (cmd : Option Nat) : State :=
  let s1 := ((s.freqZero.toMode .review .settled).powerAll).decodersStart.reviewStart
  let s2 :=
    if s1.reviewRaw then
      s1.rendsUsed.foldl (fun (s : State) n => s.setFld Pg.split (Reg.SPLIT_BUF_SIZE n) (s.rendPages n))
        { s1 with ingress := { s1.ingress with frameVals := [] }, split := { holds := s1.split.holds } }
    else s1
  s2.showRecorder.finish? cmd 0 0 0

/-- REVIEW ends: the decoders stop and bound groups are cancelled (R62). DEDUCED (log 18). -/
def State.leaveReview (s : State) (cmd : Option Nat) : State :=
  let s1 := s.reviewStop.toMode .standby .settled
  let s2 : State := { s1 with
    drdec := {}, ingress := { s1.ingress with reading := none }, split := { s1.split with pics := [] } }
  ((noteFreed s (s2.cancelGroups 0)).dropSources).toStandby cmd

/-- Entry to SERVICE: the output group stops (R56). -/
def State.enterService (s : State) (cmd : Option Nat) : State :=
  ((s.outputsStop.toMode .service .settled).settleAll).finish? cmd 0 0 0

/-- The offsets of a block whose read-only fields show what the device goes on doing as SERVICE ends, as first and last offset: identity,
power and thermal readings, link, media and memory state, engines that run on, and FAULT (R55). DESIGN CHOICE (log 24). -/
def liveRegs : Blk → List (Nat × Nat)
  | .global => [(0x040, 0x044), (0x20C, 0x20C)]
  | .guard => [(0x058, 0x058)]
  | .pwr => [(0x06C, 0x06C), (0x074, 0x074), (0x080, 0x080)]
  | .therm => [(0x040, 0x044), (0x054, 0x09C)]
  | .lane => [(0x044, 0x044)]
  | .link => [(0x054, 0x064), (0x078, 0x078), (0x088, 0x088)]
  | .fstore => [(0x040, 0x040), (0x068, 0x068), (0x100, 0x3FC)]
  | .drawctl => [(0x078, 0x078)]
  | .hostq => [(0x058, 0x060)]
  | .media => [(0x044, 0x04C), (0x060, 0x060)]
  | .recorder => [(0x070, 0x074)]
  | .coll => [(0x05C, 0x084)]
  | .relay => [(0x090, 0x17C)]
  | .dram => [(0x040, 0x044)]
  | .dramctl => [(0x058, 0x058)]
  | .cluster => [(0x040, 0x048)]
  | .security => [(0x040, 0x090)]
  | .array => [(0x040, 0x048)]
  | _ => []

/-- The bits of a register that leaving SERVICE leaves alone: read-only fields of the register shell and of what the device goes on doing,
locks and locked fields (R42, R65). DESIGN CHOICE (log 24). -/
def State.keptBits (s : State) (p o : Nat) : Word :=
  let live :=
    decide (o < 0x040) ||
      match pageBlk p with
      | some (b, _) => (liveRegs b).any fun e => decide (e.1 ≤ o) && decide (o ≤ e.2)
      | none => true
  match fieldsAt p o with
  | none => 0xFFFFFFFF
  | some fs => maskOf fs (fun f => (decide (f.kind = .ro) && live) || decide (f.kind = .w1)) ||| s.lockMask p o

/-- A register as leaving SERVICE leaves it before the restore: every field takes its factory value but for those that stay, in the further
copies of a register as well (R65). DESIGN CHOICE (log 24). -/
def State.factoryReg (s : State) (a : Nat) : State :=
  let p := a / 0x1000 % 1024
  let o := a % 0x1000
  if 0x800 ≤ o then s.wr a (factoryWord a)
  else
    let k := s.keptBits p o
    s.wr a ((s.rd a &&& k) ||| (factoryWord a &&& ~~~ k))

/-- A page's pending commit is dropped. DESIGN CHOICE (log 24). -/
def State.dropCommits (s : State) : State :=
  let s1 := allPages.foldl (fun (s : State) p => if p = Pg.global then s else s.setFld p Reg.COMMON_COMMIT_PENDING 0) s
  { s1 with ctl := { s1.ctl with snaps := [], loHold := [] } }

/-- SERVICE is left: non-retained fields take factory values, retained ones are restored from the newest valid bank, and STANDBY runs its
outputs (R65). GENERATION changes by ARRAY LEASE alone (R495). DESIGN CHOICE (log 24). -/
def State.leaveService (s : State) (cmd : Option Nat) : State :=
  let gen := s.fld Pg.array Reg.ARRAY_GENERATION
  let locked := fun (q : State) =>
    s.regs.foldl (fun (q : State) e =>
      let m := s.lockMask (e.1 / 0x1000) (e.1 % 0x1000)
      if m = 0 then q else q.wr e.1 ((q.rd e.1 &&& ~~~ m) ||| (e.2 &&& m))) q
  let s1 := (s.regs.map (·.1)).foldl (fun (s : State) a => s.factoryReg a) s.dropCommits
  let s2 := (locked (s1.restore false)).setFld Pg.array Reg.ARRAY_GENERATION gen
  let free : Ctl := { s2.ctl with busErrHeld := false }
  let s3 := ((({ s2 with ctl := free } : State).setHq { s2.hq with dbErrHeld := false }).placeSlots s).toMode .standby .settled
  let s4 := (List.range 16).foldl (fun (t : State) l => sendPattern s t l) s3
  let s5 := if s4.ganged = s.ganged then s4 else s4.gangChanged
  (noteFreed s (((driveLanes s s5).supplyStep 0).supplyStep 1)).outputsStart.toStandby cmd

/-- Whether a page's domain goes off in SLEEP: every one but the always-on domain, the retained-state memory, the memory controller and a
kept Collimator (R482). DEDUCED (log 25). -/
def State.sleepsOff (s : State) (p : Nat) : Bool :=
  let d := pageDomain p
  !(decide (d ≤ 1) || decide (135 ≤ d) || (decide (d = 127) && s.on Pg.coll Reg.COLL_CTRL_SLEEP_KEEP))

/-- DRAM as SLEEP leaves it: a segment whose bit of PASR.KEEP is 0 loses its contents, and STAGE and LOG lose theirs (R310, R451). DEDUCED
(log 25). -/
def State.sleepDram (s : State) : State :=
  let keep := s.fld Pg.dramctl Reg.DRAMCTL_PASR
  let seg := max 1 (s.dramSize / 8)
  let lo := s.stageBase
  let hi := lo + stageUnit * s.stageUnits
  let stays := fun (a : Nat) => keep.testBit (a / seg) && !(decide (lo ≤ a) && decide (a < hi))
  { s with dram := s.dram.filter fun e => stays e.1 }

/-- Entry to SLEEP: the command completes, the outputs, the back-channels and the media stop, and the domains go off (R56, R119, R304, R310,
R451, R482). The link goes down by its own event. DEDUCED (log 25). -/
def State.enterSleep (s : State) (cmd : Option Nat) : State :=
  let s1 := (s.finish? cmd 0 0 0).outputsStop.sleepDram
  let s2 := [0, 1].foldl (fun (s : State) k => (s.setPort k {}).showPort k) { s1 with stages := [], hq := { s1.hq with logUsed := 0 } }
  let off := fun (s : State) (k : Nat) => (s.putDrive k { s.drive k with writes := [], retried := false, again := [] }).portDown k 0
  let s3 := ([0, 1].foldl off s2).unmount
  let s4 := allPages.foldl (fun (s : State) p => if s.sleepsOff p then s.goDown p 0 else s) s3
  let s5 := s4.setPwr { s4.pwr with rising := [], held := [] }
  s5.fstoreClear.dramSleep.toMode .sleep .settled

/-- SLEEP ends: every domain that STANDBY holds on comes up with its retained values, DRAM runs at FS0, firmware boots and the media ports
are brought up (R36, R66, R376, R452). DEDUCED (log 25). -/
def State.wake (s : State) : State :=
  if s.ctl.mode ≠ .sleep then s
  else
    let s1 := (s.toMode .standby .settled)
    let s2 := allPages.foldl
      (fun (s : State) p =>
        if s.sleepsOff p && (s.heldOn p || decide (reqOf (s.fld p Reg.COMMON_PWR_REQ_REQ) = 3)) then s.goUp p else s) s1
    let s3 := if s.on Pg.coll Reg.COLL_CTRL_SLEEP_KEEP then s2 else s2.collRestart
    (s3.dramWake.bootFw.mediaStart.outputsStart).settleAll

/-! ### SET MODE (R62 to R64, R292, R304, R490, R502) -/

/-- The mode of a code of SET MODE (R304). -/
def modeOf : Nat → Option Mode
  | 0 => some .standby | 1 => some .live | 2 => some .record | 3 => some .review | 4 => some .service | 5 => some .sleep
  | _ => none

/-- The permitted transitions that a command asks for (R62). -/
def permitted : Mode → Mode → Bool
  | .standby, .live | .standby, .record | .standby, .review | .standby, .service | .standby, .sleep => true
  | .live, .record | .record, .live | .live, .standby | .record, .standby | .review, .standby | .service, .standby => true
  | _, _ => false

/-- The boundary frame of a SET MODE; none when it gives none (R304). -/
def boundaryOf (c : Cmd) : Option Nat := if (c.cdw 8).testBit 8 then some (c.cdw 10 + 2 ^ 32 * c.cdw 11) else none

/-- Whether a move is one between LIVE and RECORD. -/
def State.isSwitch (s : State) (target : Mode) : Bool :=
  decide (s.ctl.phase = .settled)
    && (decide (s.ctl.mode = .live ∧ target = .record) || decide (s.ctl.mode = .record ∧ target = .live))

/-- What makes a SET MODE complete with status 0x02 before its state is looked at: a field, or the checks of REVIEW; a switch whose
recording checks fail is refused with it too, after CFG_ERR (R63, R64, R286, R304). DEDUCED (log 21). -/
def badSetMode (h : HostData) (c : Cmd) (s : State) : Option Nat :=
  match modeOf (c.cdw 8 % 8) with
  | none => firstBad [(s.badBuf c h true, 0x10), (true, 0x20)]
  | some target =>
    let field := firstBad
      [(s.badBuf c h true, 0x10), ((s.knownLen c h).any fun n => decide (n ≠ 0 ∧ n < 512), 0x18),
        ((boundaryOf c).isSome && !s.isSwitch target, 0x20),
        (decide (c.fn = .pf1 ∧ (target = .service ∨ target = .sleep ∨ s.ctl.mode = .service)), 0x20),
        ((boundaryOf c).any fun b => decide (b < s.frameNow + 2), 0x28)]
    if field.isSome then field
    else if decide (s.ctl.phase = .settled) && permitted s.ctl.mode target && decide (target = .review) && s.reviewBad then some 0xFFFF
    else none

/-- Whether the present state refuses a permitted move with status 0x0C (R141, R439, R490, R502). -/
def State.modeHeld (s : State) (target : Mode) : Bool :=
  let starts := decide (s.ctl.mode = .standby) && (decide (target = .live) || decide (target = .record) || decide (target = .review))
  (starts && s.on Pg.dramctl Reg.DRAMCTL_STATE_TRAIN_FAIL)
    || (starts && decide (s.fld Pg.therm Reg.THERM_STATE_LEVEL = 2))
    || (s.on Pg.therm Reg.THERM_STATE_STOPPING && decide (target ≠ .standby))
    || (decide (s.ctl.mode = .live) && decide (target = .record) && !decide (s.fld Pg.ingress Reg.INGRESS_CATCHUP_LEFT = 0))
    || (decide (target = .sleep) && !decide (s.fld Pg.array Reg.ARRAY_GENERATION = 0))

/-- A permitted SET MODE takes its effect (R62). -/
def State.runMode (s : State) (target : Mode) (b : Option Nat) (cmd : Nat) : State :=
  match target with
  | .live | .record => if s.ctl.mode = .standby then s.beginStart target (some cmd) else s.beginSwitch target b cmd
  | .review => s.enterReview (some cmd)
  | .service => s.enterService (some cmd)
  | .sleep => s.enterSleep (some cmd)
  | .standby =>
    match s.ctl.mode with
    | .review => s.leaveReview (some cmd)
    | .service => s.leaveService (some cmd)
    | _ => s.beginStop (some cmd)

/-- SET MODE: its checks in the order of R292, then its effect (R62, R292, R304). DEDUCED (log 21). -/
def runSetMode (h : HostData) (tag : Nat) (c : Cmd) (s : State) : State :=
  match modeOf (c.cdw 8 % 8) with
  | none => s
  | some target =>
    let cancels := match s.ctl.phase with | .starting _ _ => decide (target = .standby) | _ => false
    let moves := decide (s.ctl.phase = .settled) && permitted s.ctl.mode target
    if moves && s.isSwitch target && decide (target = .record) && s.recordBad s.ctl.charged then
      (s.raise Pg.recorder Reg.RECORDER_EVENT_CFG_ERR).finishTag tag 0x02 0 0 0xFFFF
    else if (!cancels && !moves) || (moves && s.modeHeld target) then s.finishTag tag 0x0C 0 0 0xFFFF
    else
      match s.buffers c h true with
      | .error st => s.failBuf tag st
      | .ok bufs =>
        if cancels then s.cancelStart.finishTag tag 0 0 0 0xFFFF
        else (s.putCmd tag { c with bufs := bufs }).runMode target (boundaryOf c) c.uid

/-- SET_MODE (R304). -/
def execSetMode (tag : Nat) (h : HostData) (s : State) : Host.Outcome State Fault Refusal :=
  .next (withCmd tag 0x10 s (badSetMode h) (runSetMode h tag))

/-! ### ABORT (R296, R297) -/

/-- A job of the Condenser that serves a queue command is stopped; what it has written stays (R296, R428). DEDUCED (log 52). -/
def State.condStop (s : State) (uid : Nat) : State :=
  let mine := fun (j : CondJob) => decide (j.cmd = some uid)
  match s.cond.queue.find? mine with
  | none => s
  | some j =>
    if s.condHead.any mine then
      let r := j.run
      let n := j.written + min (r.fit - j.written) (Config.free 61 s.seed)
      let s1 := ({ s with seed := s.seed + 1 } : State).condWrite j r.out n
      (s1.condDone j 0x07 0 n).condFree
    else (s.setCond { s.cond with queue := s.cond.queue.filter fun x => !mine x }).condDone j 0x07 0 j.written

/-- The target range of a WRITE to a STAGE namespace becomes undefined: free bytes (R296). A range given by an extent list is not known
before the list is read; it counts from its offset to the end of the namespace. DEDUCED (log 52). -/
def State.spoilStage (s : State) (c : Cmd) : State :=
  match s.stageNs c.nsid with
  | none => s
  | some e =>
    let n := min (e.size - c.offset) (if c.flag 0 then e.size else c.dlen)
    let b := padTo n (Config.freeBytes 48 [s.seed, n])
    ({ s with seed := s.seed + 1 } : State).pokeN (s.stageBase + stageUnit * e.unit + c.offset) b

/-- The target of an ABORT stopped, or none when it cannot be (R296). DEDUCED (log 52). -/
def State.stopCmd (s : State) (t : Nat) : Option State :=
  let c := s.hq.cmds.get t
  let waits := decide (c.stage = .waiting)
  match c.op with
  | 0x80 | 0x84 => if waits then some (s.finishTag t 0x07 0 0 0xFFFF) else none
  | 0x81 => if waits && (s.stageNs c.nsid).isSome then some ((s.spoilStage c).finishTag t 0x07 0 0 0xFFFF) else none
  | 0x88 | 0x89 => if waits then some (s.finishTag t 0x07 0 0 0xFFFF) else some (s.condStop c.uid)
  | 0x10 =>
    match s.ctl.phase with
    | .starting _ cmd => if cmd = some c.uid then some s.cancelStart else none
    | _ => none
  | _ => none

/-- ABORT: RESULT 0 stopped, 1 not found or already complete, 2 not stoppable (R296, R297). DEDUCED (log 22, 52). -/
def runAbort (tag : Nat) (c : Cmd) (s : State) : State :=
  let target := s.hq.cmds.find? fun e =>
    e.2.live && decide (e.2.fn = c.fn) && decide (e.2.sqid = c.cdw 8 % 64) && decide (e.2.cid = c.cdw 8 / 65536)
      && !decide (e.2.stage = .done) && decide (e.1 ≠ tag)
  match target with
  | none => s.finishTag tag 0 1 0 0xFFFF
  | some e =>
    match s.stopCmd e.1 with
    | some s1 => s1.finishTag tag 0 0 0 0xFFFF
    | none => s.finishTag tag 0 2 0 0xFFFF

/-- ABORT (R296). -/
def execAbort (tag : Nat) (s : State) : Host.Outcome State Fault Refusal := .next (withCmd tag 0x07 s (fun _ _ => none) (runAbort tag))

end Sys2Proof.Machine
end

