-- ==== Sys2Proof/Machine/ArrayMgr.lean ====
section
/-! DEFINITION. The array manager (R495 to R504): ARRAY LEASE, the lease and its expiry, fencing and re-admission. -/

namespace Sys2Proof.Machine

/-- The generation held. -/
def State.generation (s : State) : Nat := s.fld Pg.array Reg.ARRAY_GENERATION

/-- The three FENCED bits (R499, R503). -/
def State.setFenced (s : State) (b : Bool) : State :=
  ((s.setOn Pg.global Reg.GLOBAL_STATE_FENCED b).setOn Pg.array Reg.ARRAY_STATE_FENCED b).setOn Pg.trig Reg.TRIG_STATE_FENCED b

/-- The lease of `l` ms starts or restarts; 0 stops it (R496, R497). DEDUCED (log 88). -/
def State.startLease (s : State) (l : Nat) : State :=
  ({ s with array := { lease := l, low := false } } : State).setFld Pg.array Reg.ARRAY_LEASE l

/-- An accepted change of GENERATION: GEN_CHANGED, and a save whatever RSTORE.CTRL.ENABLE holds (R496, R498). -/
def State.setGeneration (s : State) (g : Nat) : State :=
  ((((s.setFld Pg.array Reg.ARRAY_GENERATION g).setOn Pg.array Reg.ARRAY_STATE_MEMBER (decide (g ≠ 0))).raise Pg.array
    Reg.ARRAY_EVENT_GEN_CHANGED)).requestSave 5 []

/-- Re-admission: the fence lifts, open reels are recovered, and flows go on with their next frame (R503). DEDUCED (log 88). -/
def State.readmit (s : State) (g l : Nat) : State :=
  let s1 := (((s.setFenced false).setGeneration g).startLease l).raise Pg.array Reg.ARRAY_EVENT_READMITTED
  (List.range 16).foldl (fun (s : State) f => if s.flowOn f then s.flowDrop f else s) (s1.recoverAll 256)

/-- The lease of an ARRAY LEASE that is out of its range (R496). -/
def badArrayLease (c : Cmd) : Option Nat := firstBad [(decide (c.cdw 9 = 0 ∨ 60000 < c.cdw 9), 0x24)]

/-- ARRAY LEASE (R496). DEDUCED (log 88). -/
def runArrayLease (tag : Nat) (c : Cmd) (s : State) : State :=
  let g := c.cdw 8
  let l := c.cdw 9
  let h := s.generation
  let done := fun (s : State) (status : Nat) => s.finishTag tag status 0 0 0xFFFF
  if g = 0 then
    if h = 0 then done s 0
    else if s.fenced ∨ s.ctl.mode ≠ .standby ∨ s.ctl.phase ≠ .settled then done s 0x0C
    else done ((s.setGeneration 0).startLease 0) 0
  else if h = 0 then done ((s.setGeneration g).startLease l) 0
  else if g = h ∧ s.fenced = false then done (s.startLease l) 0
  else if h < g ∧ s.fenced = false then done ((s.setGeneration g).startLease l) 0
  else if h < g then done (s.readmit g l) 0
  else done s 0x10

/-- ARRAY_LEASE (R496). -/
def execArrayLease (tag : Nat) (s : State) : Host.Outcome State Fault Refusal :=
  .next (withCmd tag 0x28 s (fun c _ => badArrayLease c) (runArrayLease tag))

/-- LEASE_LEFT falls below LOW_MS: LEASE_LOW, once for a lease (R497). DESIGN CHOICE (log 3). -/
def execLeaseLow (s : State) : Host.Outcome State Fault Refusal :=
  .next
    (if s.array.lease = 0 ∨ s.array.low then s
     else ({ s with array := { s.array with low := true } } : State).raise Pg.array Reg.ARRAY_EVENT_LEASE_LOW)

/-- The lease expires: the device fences itself, and its flows send no further packet of the frame in work (R499, R503). DESIGN CHOICE (log
3). DEDUCED (log 88). -/
def State.fence (s : State) : State :=
  let s1 := ({ s with array := { s.array with lease := 0 } } : State).setFenced true
  let s2 := (s1.setFld64 Pg.array Reg.ARRAY_FENCE_FRAME_LO Reg.ARRAY_FENCE_FRAME_HI s.frameNow).count Pg.array Reg.ARRAY_FENCES
  s2.raise Pg.array Reg.ARRAY_EVENT_FENCED

/-- LEASE_EXPIRY (R499). -/
def execLeaseExpiry (s : State) : Host.Outcome State Fault Refusal := .next (if s.array.lease = 0 then s else s.fence)

end Sys2Proof.Machine
end

