-- ==== Sys2Proof/Machine/Frames.lean ====
section
/-! DEFINITION. The start of a frame at Ingress (R57, R64, R68, R77 to R79, R111, R117, R134, R139, R143, R144): the frame number, the commit
point, the boundary of a recording, and what the ports, the cores, the Recorder, the control sides and locked outputs do at it. -/

namespace Sys2Proof.Machine

/-- The LINK pages of the groups whose commit point passes as frame `n` starts, with the frame each group names (R77, R117). -/
def State.fwrDue (s : State) (n : Nat) : List (Nat × Nat) :=
  (s.ctl.groups.filter fun g => decide (g.1 ≤ n + 1)).flatMap fun g =>
    ([0, 1].filter fun k => g.2.contains (Pg.link k)).map fun k => (k, g.1)

/-- The commit point that the start of frame `n` passes: the values of frame `n` are kept, due groups apply, and each port whose table was
among them sends it (R77 to R79, R117). DEDUCED (log 41). -/
def State.frameCommits (s : State) (n : Nat) : State :=
  (s.fwrDue n).foldl (fun (s : State) e => s.sendFwr e.1 e.2) (s.frameValues n)

/-- A periodic save is due at the start of frame `n` of a take (R82). -/
def State.savePeriod (s : State) (n : Nat) : State :=
  let period := s.fld Pg.rstore Reg.RSTORE_SAVE_CFG_PERIOD
  if period ≠ 0 ∧ n ≠ 0 ∧ n % period = 0 then s.autoSave 4 else s

/-- Frame `n` starts with the SOF of port `k` (R57, R64, R68, R77, R111, R134, R139). A frame still open closes first (R135). DEDUCED (log
41). -/
def State.startFrame (s : State) (k n : Nat) : State :=
  let s1 := (({ s with ctl := { s.ctl with frameSeen := true } } : State).setFrameNow n).takeBegins
  let s2 := (((s1.frameCommits n).recordBoundary n).liveBoundary n).openNew k n
  let s3 := s2.portsUsed.foldl (fun (s : State) j => (s.applyFallback j n).countLoss j n) s2
  let s4 := s3.reassign.adopt
  let s5 := s4.setIngress { s4.ingress with sofs := (n, s.time) :: s4.ingress.sofs }
  let s6 := if s5.ingress.openFrame.any (fun f => f.slot.isSome) then s5.awaitFrame n else s5
  (s6.savePeriod n).fwPoint.relockAll

/-- A SOF reaches Ingress (R134): it joins the open frame of a pair (R143), is discarded (R26, R70, R144) or starts the next frame. DEDUCED
(log 37). -/
def State.frameStart (s : State) (k : Nat) : State :=
  if (s.port k).sof.isNone ∨ s.portsUsed.contains k = false then s
  else
    match s.ingress.openFrame with
    | some f =>
      if s.joins k then s.takeHalf k f
      else if s.pairBarred k then s.pairDiscard k
      else if s.takesFrames then let s1 := s.closeFrame; s1.startFrame k s1.nextFrame
      else s.stopDiscard k
    | none => if s.takesFrames then s.startFrame k s.nextFrame else s.stopDiscard k

/-- FRAME_START (R134). -/
def execFrameStart (port : Nat) (s : State) : Host.Outcome State Fault Refusal := .next (s.frameStart port)

end Sys2Proof.Machine
end

