-- ==== Sys2Proof/Machine/PciConfig.lean ====
section
/-! DEFINITION. The configuration space and BAR2 of the two functions (R277, R278): identity, the command register, power state, payload
and read request sizes, Function Level Reset, the MSI-X capability with its table and pending bits, and Advanced Error Reporting. -/

namespace Sys2Proof.Machine

/-- The number of a truth value. -/
def bit (b : Bool) : Nat := if b then 1 else 0

/-- A number with bit `i` set where `f i` holds, for `n` bits. -/
def mask (n : Nat) (f : Nat → Bool) : Nat := ((List.range n).map fun i => bit (f i) * 2 ^ i).sum

/-- The place of a word in a function's configuration space or BAR2: BAR2 follows the pages of BAR0, and the configuration space follows
BAR2. PRESUMED (log 15). -/
inductive PciPlace where
  | table (i : Nat) | pending (i : Nat) | config (o : Nat) | hole
  deriving DecidableEq, Repr

/-- What an offset from 0x40_0000 on names. PRESUMED (log 15). -/
def pciPlace (off : Nat) : PciPlace :=
  let o := off % 0x400000
  if o % 4 ≠ 0 ∨ off / 0x400000 ≠ 1 then .hole
  else if o < 0x400 then .table (o / 4)
  else if o = 0x2000 ∨ o = 0x2004 then .pending (o / 4 % 2)
  else if o / 0x1000 = 4 then .config (o % 0x1000)
  else .hole

/-- A word of a function's configuration space: the header, the power management, PCI Express and MSI-X capabilities and Advanced Error
Reporting (R277). The vendor, the revision and the state of the link are free. PRESUMED (log 15). -/
def State.configWord (s : State) (fn : Fn) (o : Nat) : Nat :=
  let c := s.pciFn fn
  if o = 0x000 then (0x7160 + fnNum fn) * 65536 + Config.free 70 0 % 65536
  else if o = 0x004 then 0x00100000 + bit c.master * 4 + bit c.memory * 2
  else if o = 0x008 then 0x04800000 + Config.free 70 1 % 256
  else if o = 0x00C then 0x00800000
  else if o = 0x010 then c.bars.getD 0 0 + 4
  else if o = 0x014 then c.bars.getD 1 0
  else if o = 0x018 then c.bars.getD 2 0 + 4
  else if o = 0x01C then c.bars.getD 3 0
  else if o = 0x034 then 0x40
  else if o = 0x040 then 0x00035001
  else if o = 0x044 then if c.d3 then 3 else 0
  else if o = 0x050 then 0x00029010
  else if o = 0x054 then 0x10000022
  else if o = 0x058 then c.mrrs * 4096 + c.mps * 32
  else if o = 0x05C then 0x00000885
  else if o = 0x060 then Config.free 70 2 % 2 ^ 32
  else if o = 0x090 then 0x003F0011 + bit c.msixMask * 2 ^ 30 + bit c.msixOn * 2 ^ 31
  else if o = 0x094 then 0x00000002
  else if o = 0x098 then 0x00002002
  else if o = 0x100 then 0x00020001
  else if o = 0x104 then c.uncStatus
  else if o = 0x108 then c.uncMask
  else if o = 0x110 then c.corStatus
  else if o = 0x114 then c.corMask
  else 0

/-- The four words of BAR0 and BAR2 as a write leaves them: BAR0 is 4 MiB and BAR2 16 KiB (R32, R277). PRESUMED (log 15). -/
def PciFn.setBar (c : PciFn) (i v : Nat) : PciFn :=
  let w := if i = 0 then v / 0x400000 * 0x400000 else if i = 2 then v / 0x4000 * 0x4000 else v
  { c with bars := (List.range 4).map fun k => if k = i then w else c.bars.getD k 0 }

/-- A word of a function's configuration space written: clearing Bus Master Enable deletes its queues, and bit 15 of Device Control is a
Function Level Reset (R277, R278). A payload or read request size that R277 does not list is not taken. PRESUMED (log 15). -/
def State.configWrite (s : State) (fn : Fn) (o v : Nat) : State :=
  let c := s.pciFn fn
  if o = 0x004 then
    let s1 := if c.master && !v.testBit 2 then s.masterOff fn else s
    s1.setPciFn fn { s1.pciFn fn with memory := v.testBit 1, master := v.testBit 2 }
  else if 0x010 ≤ o ∧ o ≤ 0x01C then s.setPciFn fn (c.setBar ((o - 0x010) / 4) v)
  else if o = 0x044 then
    if v % 4 = 0 then s.setPciFn fn { c with d3 := false } else if v % 4 = 3 then s.setPciFn fn { c with d3 := true } else s
  else if o = 0x058 then
    let mps := v / 32 % 8
    let mrrs := v / 4096 % 8
    let c1 := { c with mps := if mps ≤ 2 then mps else c.mps, mrrs := if mrrs ≤ 5 then mrrs else c.mrrs }
    if v.testBit 15 then (s.teardown fn).resetPci fn c1.mps else s.setPciFn fn c1
  else if o = 0x090 then s.setPciFn fn { c with msixMask := v.testBit 30, msixOn := v.testBit 31 }
  else if o = 0x104 then s.setPciFn fn { c with uncStatus := c.uncStatus - (c.uncStatus &&& v) }
  else if o = 0x108 then s.setPciFn fn { c with uncMask := v }
  else if o = 0x110 then s.setPciFn fn { c with corStatus := c.corStatus - (c.corStatus &&& v) }
  else if o = 0x114 then s.setPciFn fn { c with corMask := v }
  else s

/-- A word with the enabled bytes of a write put in place. -/
def mergeBytes (old be : Nat) (v : Word) : Nat :=
  ((BitVec.ofNat 32 old &&& ~~~ byteMask be) ||| (v &&& byteMask be)).toNat

/-- A write of a function above BAR0 (R277): the MSI-X table in D0, the configuration space in D0 and D3hot. PRESUMED (log 15). -/
def State.pciWrite (s : State) (fn : Fn) (off be : Nat) (v : Word) : State :=
  match pciPlace off with
  | .table i => if s.reach (fnReq fn) then s.setMsixWord fn i (mergeBytes (s.msixWord fn i) be v) else s
  | .config o =>
    let old := if o = 0x104 ∨ o = 0x110 then 0 else s.configWord fn o
    if s.hostUp then s.configWrite fn o (mergeBytes old be v) else s
  | .pending _ | .hole => s

/-- A read of a function above BAR0 (R277). PRESUMED (log 15). -/
def State.pciRead (s : State) (fn : Fn) (off : Nat) : State :=
  let answer := fun (w : Nat) => s.emit (.regRead (fnReq fn) off (BitVec.ofNat 32 w))
  match pciPlace off with
  | .config o => if s.hostUp then answer (s.configWord fn o) else s
  | .table i => if s.reach (fnReq fn) then answer (s.msixWord fn i) else s
  | .pending i =>
    if s.reach (fnReq fn) then answer (mask 32 fun k => s.ctl.latches.contains (fnNum fn * 64 + i * 32 + k)) else s
  | .hole => if s.reach (fnReq fn) then answer 0 else s

end Sys2Proof.Machine
end

