-- ==== Sys2Proof/Machine/Relay.lean ====
section
/-! DEFINITION. Relay (R430 to R437): its address map, the start, abort and restart of channels, the fetch and check of descriptors, and
bus errors. What moves at the end of a descriptor stands in RelayMove.lean. -/

namespace Sys2Proof.Machine

/-! ### The address map (R430) -/

/-- The base of control-cluster memory. -/
abbrev clusterBase : Nat := 0xFF00000000000000

/-- The bytes of control-cluster memory. -/
abbrev clusterBytes : Nat := 0x400000

/-- The base of the register space. -/
abbrev regBase : Nat := 0xFF10000000000000

/-- Whether an address lies in control-cluster memory. -/
def inCluster (a : Nat) : Bool := decide (clusterBase ≤ a) && decide (a < clusterBase + clusterBytes)

/-- Whether an address lies in the register space. -/
def inRegs (a : Nat) : Bool := decide (regBase ≤ a)

/-- One byte of DRAM or control-cluster memory. -/
def State.fabByte (s : State) (a : Nat) : Byte := if inCluster a then s.relay.cluster.get (a - clusterBase) else s.peek a

/-- Bytes read from DRAM or control-cluster memory. -/
def State.fabRead (s : State) (a n : Nat) : List Byte := (List.range n).map fun i => s.fabByte (a + i)

/-- Bytes written to DRAM or control-cluster memory; what would run past control-cluster memory is not kept. -/
def State.fabWrite (s : State) (a : Nat) (l : List Byte) : State :=
  if inCluster a then
    { s with relay := { s.relay with cluster := s.relay.cluster.setN (a - clusterBase) (l.take (clusterBase + clusterBytes - a)) } }
  else s.pokeN a l

/-! ### Channels (R431, R437) -/

/-- The state with Relay replaced. -/
def State.setRelay (s : State) (r : RelaySt) : State := { s with relay := r }

/-- A channel's STATE: 0 idle, 1 running, 2 ERROR, 3 stopped. -/
def State.chState (s : State) (c : Nat) : Nat := s.fld Pg.relay (Reg.RELAY_CH_STATUS_STATE c)

/-- A channel's STATE set, with its bit of ACTIVE; an idle Relay lets its domain follow its REQ (R61, R483). -/
def State.setCh (s : State) (c v : Nat) : State :=
  let s1 := s.setFld Pg.relay (Reg.RELAY_CH_STATUS_STATE c) v
  let w := ((List.range 8).filter fun k => decide (s1.chState k = 1)).map (2 ^ ·)
  let s2 := s1.setFld Pg.relay Reg.RELAY_STATE_ACTIVE w.sum
  if (s2.heldReq Pg.relay).isSome then s2 else s2.settle Pg.relay

/-- The descriptor that a channel moves; none while its next one is to be fetched. -/
def State.chDesc (s : State) (c : Nat) : Option RelayDesc := s.relay.descs.get c

/-- A channel's descriptor set. -/
def State.putDesc (s : State) (c : Nat) (d : Option RelayDesc) : State :=
  s.setRelay { s.relay with descs := s.relay.descs.put c d }

/-- CUR_DESC of a channel. -/
def State.curDesc (s : State) (c : Nat) : Nat :=
  32 * s.fld Pg.relay (Reg.RELAY_CUR_DESC_LO c) + 2 ^ 32 * s.fld Pg.relay (Reg.RELAY_CUR_DESC_HI c)

/-- CUR_DESC of a channel set. -/
def State.setCur (s : State) (c a : Nat) : State :=
  (s.setFld Pg.relay (Reg.RELAY_CUR_DESC_LO c) (a / 32)).setFld Pg.relay (Reg.RELAY_CUR_DESC_HI c) (a / 2 ^ 32)

/-- CH_START: the chain starts at CH_DESC, unless the channel runs, Relay is disabled or stopped by a bus error, or a power-down of its
domain is held (R431, R435, R437, R483). DEDUCED (log 79). -/
def State.chStart (s : State) (c : Nat) : State :=
  let p := Pg.relay
  if s.chState c = 1 ∨ s.on p Reg.RELAY_CTRL_ENABLE = false ∨ s.on p Reg.RELAY_STATE_ERR_STOP ∨ (s.heldReq p).isSome then s.reject p
  else
    let a := 32 * s.fld p (Reg.RELAY_CH_DESC_LO c) + 2 ^ 32 * s.fld p (Reg.RELAY_CH_DESC_HI c)
    let s1 := ((s.setCur c a).setFld p (Reg.RELAY_CH_STATUS_DONE c) 0).setFld p (Reg.RELAY_CH_BYTES c) 0
    (s1.putDesc c none).setCh c 1

/-- The bytes of a descriptor's beats: source and destination. -/
def RelayDesc.srcW (d : RelayDesc) : Nat := 2 ^ (d.ctrl % 8)
def RelayDesc.dstW (d : RelayDesc) : Nat := 2 ^ (d.ctrl / 16 % 8)

/-- Whether a descriptor's source or destination address does not advance. -/
def RelayDesc.srcFix (d : RelayDesc) : Bool := d.ctrl.testBit 8
def RelayDesc.dstFix (d : RelayDesc) : Bool := d.ctrl.testBit 9

/-- The bytes of the ranges that a descriptor touches. -/
def RelayDesc.srcLen (d : RelayDesc) : Nat := if d.srcFix then d.srcW else d.len
def RelayDesc.dstLen (d : RelayDesc) : Nat := if d.dstFix then d.dstW else d.len

/-- The address that byte `i` of a descriptor comes from, and the one it goes to (R431, R432). -/
def RelayDesc.srcAt (d : RelayDesc) (i : Nat) : Nat := if d.srcFix then d.src + i % d.srcW else d.src + i
def RelayDesc.dstAt (d : RelayDesc) (i : Nat) : Nat := if d.dstFix then d.dst + i % d.dstW else d.dst + i

/-- The first `n` bytes of a descriptor copied between memories: the last beat stays at an address that does not advance. -/
def State.copyBytes (s : State) (d : RelayDesc) (n : Nat) : State :=
  let bytes := (List.range n).map fun i => s.fabByte (d.srcAt i)
  if d.dstFix then s.fabWrite d.dst (bytes.drop (n - d.dstW)) else s.fabWrite d.dst bytes

/-- CH_ABORT: the channel stops after its current beat, without write-back; how many beats it has moved between memories is free, and a
register that is its source or destination has taken none (R431). DEDUCED (log 79). DESIGN CHOICE (log 81). -/
def State.chAbort (s : State) (c : Nat) : State :=
  if s.chState c ≠ 1 then s
  else
    let s1 :=
      match s.chDesc c with
      | none => s
      | some d =>
        if inRegs d.src ∨ inRegs d.dst then s
        else
          let n := min d.len (d.dstW * Config.free 63 s.seed)
          let s1 := { (s.copyBytes d n) with seed := s.seed + 1 }
          s1.setFld Pg.relay (Reg.RELAY_CH_BYTES c) (min (2 ^ 32 - 1) (s1.fld Pg.relay (Reg.RELAY_CH_BYTES c) + n))
    (s1.putDesc c none).setCh c 0

/-- The effect of a write of CH_CTRL (R431, R437). DEDUCED (log 79). -/
def writeChCtrl (r : Req) (c : Nat) (v : Word) (s : State) : State :=
  withWrite r Pg.relay (0x080 + 0x20 * c) v s fun s _ _ =>
    let s1 := if wfld v (Reg.RELAY_CH_CTRL_START c) = 1 then s.chStart c else s
    if wfld v (Reg.RELAY_CH_CTRL_ABORT c) = 1 then s1.chAbort c else s1

/-- RELAY_CH_START (R431). -/
def execRelayChStart (r : Req) (c : Nat) (v : Word) (s : State) : Host.Outcome State Fault Refusal :=
  .next (if 8 ≤ c then s else writeChCtrl r c v s)

/-- RELAY_CH_ABORT (R431). -/
def execRelayChAbort (r : Req) (c : Nat) (v : Word) (s : State) : Host.Outcome State Fault Refusal :=
  .next (if 8 ≤ c then s else writeChCtrl r c v s)

/-! ### Descriptors (R431, R434) -/

/-- Whether a descriptor fails the check of R434 on a channel. -/
def RelayDesc.bad (d : RelayDesc) (c : Nat) : Bool :=
  let touches := fun (a n : Nat) => decide (a < clusterBase + clusterBytes) && decide (clusterBase < a + n)
  decide (4 < d.ctrl % 8) || decide (4 < d.ctrl / 16 % 8) || decide (d.src % d.srcW ≠ 0) || decide (d.dst % d.dstW ≠ 0)
    || decide (d.len = 0) || decide (16777216 < d.len) || decide (d.len % max d.srcW d.dstW ≠ 0)
    || d.ctrl.testBit 3 || d.ctrl.testBit 7 || decide (d.ctrl / 2 ^ 10 % 4 ≠ 0) || decide (d.ctrl / 2 ^ 14 % 2 ^ 16 ≠ 0)
    || (decide (4 ≤ c) && (touches d.src d.srcLen || touches d.dst d.dstLen))

/-- Relay writes a descriptor's CTRL back with DONE or ERR (R431). DEDUCED (log 79). -/
def State.writeBack (s : State) (c : Nat) (d : RelayDesc) (bit : Nat) : State :=
  s.fabWrite (s.curDesc c + 0x1C) (leBytes 4 (d.ctrl % 2 ^ 30 + 2 ^ bit))

/-- A descriptor fails: ERR is written back, the channel reads ERROR and DESC_ERR rises (R430, R434). -/
def State.descError (s : State) (c : Nat) (d : RelayDesc) : State :=
  (((s.writeBack c d 30).putDesc c none).setCh c 2).raise Pg.relay Reg.RELAY_EVENT_DESC_ERR

/-- Whether a running channel may make accesses: the domain is on and the limiter does not hold Relay (R61, R485). -/
def State.relayMay (s : State) (c : Nat) : Bool :=
  decide (s.chState c = 1) && decide (s.fld Pg.relay Reg.COMMON_PWR_REQ_STATUS = 3) && !s.pwr.limiting

/-- A channel has fetched its next descriptor, which is checked before it moves data (R431, R434). DEDUCED (log 80). -/
def State.descFetch (s : State) (c : Nat) : State :=
  if s.relayMay c = false ∨ (s.chDesc c).isSome then s
  else
    let a := s.curDesc c
    if inRegs a then ((s.putDesc c none).setCh c 2).raise Pg.relay Reg.RELAY_EVENT_DESC_ERR
    else
      let b := s.fabRead a 32
      let d : RelayDesc := ⟨leAt b 0 8, leAt b 8 8, leAt b 0x10 8, leAt b 0x18 4, leAt b 0x1C 4⟩
      if d.bad c then s.descError c d else s.putDesc c (some d)

/-- RELAY_DESC_FETCH (R434). -/
def execRelayDescFetch (c : Nat) (s : State) : Host.Outcome State Fault Refusal := .next (if 8 ≤ c then s else s.descFetch c)

/-- A descriptor that has moved its data ends: DONE is written back, CH_DONE rises with IRQ, and the channel goes on at NEXT or is idle
(R431, R437). DEDUCED (log 79). -/
def State.descEnd (s : State) (c : Nat) (d : RelayDesc) : State :=
  let p := Pg.relay
  let s1 := ((s.writeBack c d 31).count p (Reg.RELAY_CH_STATUS_DONE c)).countBy p (Reg.RELAY_CH_BYTES c) d.len
  let s2 := (s1.putDesc c none).raiseIf (d.ctrl.testBit 12) p Reg.RELAY_EVENT_CH_DONE
  if d.ctrl.testBit 13 then s2.setCh c 0 else s2.setCur c d.next

/-! ### Bus errors and restart (R435) -/

/-- `n` free bytes. DESIGN CHOICE (log 81). -/
def State.anyBytes (s : State) (n : Nat) : List Byte := (List.range n).map fun i => BitVec.ofNat 8 (Config.free 62 (s.seed * 2 ^ 32 + i))

/-- The destination range of the descriptor that a channel moves is undefined; a register keeps what was written to it. DESIGN CHOICE (log
81). -/
def State.spoil (s : State) (c : Nat) : State :=
  match s.chDesc c with
  | none => s
  | some d => if inRegs d.dst then s else { (s.fabWrite d.dst (s.anyBytes d.dstLen)) with seed := s.seed + 1 }

/-- The fabric returns an error for a Relay access: every channel stops (R435). DESIGN CHOICE (log 81). -/
def State.relayError (s : State) (addr kind : Nat) (write : Bool) : State :=
  let p := Pg.relay
  if s.fld p Reg.RELAY_STATE_ACTIVE = 0 then s
  else
    let run := (List.range 8).filter fun c => decide (s.chState c = 1)
    let s1 := run.foldl (fun (s : State) c => (s.spoil c).putDesc c none) s
    let s2 := (((s1.setFld p Reg.RELAY_STATE_ERR_STOP 1).setFld64 p Reg.RELAY_ERR_ADDR_LO Reg.RELAY_ERR_ADDR_HI addr).setOn p
      Reg.RELAY_ERR_INFO_WRITE write).setFld p Reg.RELAY_ERR_INFO_KIND kind
    (run.foldl (fun (s : State) c => s.setCh c 3) s2).raise p Reg.RELAY_EVENT_BUS_ERR

/-- RELAY_BUS_ERROR (R435). -/
def execRelayBusError (addr kind : Nat) (write : Bool) (s : State) : Host.Outcome State Fault Refusal :=
  .next (s.relayError addr kind write)

/-- A write of RELAY.CTRL.CLEAR ends ERR_STOP and leaves every channel idle (R435). DEDUCED (log 79). -/
def State.relayClear (s : State) : State :=
  if s.on Pg.relay Reg.RELAY_STATE_ERR_STOP then
    (List.range 8).foldl (fun (s : State) c => s.setCh c 0) (s.setFld Pg.relay Reg.RELAY_STATE_ERR_STOP 0)
  else s

/-- The effect of a write of RELAY.CTRL (R435, R437). -/
def writeRelayCtrl (r : Req) (v : Word) (s : State) : State :=
  withWrite r Pg.relay 0x008 v s fun s old new =>
    let s1 := plainStore r Pg.relay 0x008 s old (Word.setBits new 1 1 0)
    if wmSet v Reg.RELAY_CTRL_CLEAR then s1.relayClear else s1

/-- RELAY_CLEAR (R435). -/
def execRelayClear (r : Req) (v : Word) (s : State) : Host.Outcome State Fault Refusal := .next (writeRelayCtrl r v s)

end Sys2Proof.Machine
end

