-- ==== Sys2Proof/Machine/Reset.lean ====
section
/-! DEFINITION. Resets, the restore window and wake-up (R43, R55, R66, R85 to R87, R399, R465, R491, R504, R516 to R519): what a reset leaves, what
the end of the restore window starts, and the loss of power. -/

namespace Sys2Proof.Machine

/-! ### Resets (R55, R491, R517) -/

/-- The retained-state memory as a reset leaves it: a bank that a save was writing is no longer valid (R83, R517). DEDUCED (log 7). -/
def Rsm.interrupt (m : Rsm) : Rsm :=
  match m.running with
  | none => { bank0 := m.bank0, bank1 := m.bank1 }
  | some r => if r.2.1 = 0 then { bank0 := [], bank1 := m.bank1 } else { bank0 := m.bank0, bank1 := [] }

/-- Bytes put on a drive of which a free choice of logical blocks of a size keeps the new contents; the others stay as they were. DESIGN
CHOICE (log 8). -/
def putSome (lba label seed : Nat) (m : Bytes) (addr : Nat) (data : List Byte) : Bytes :=
  let old := m.getN addr data.length
  m.setN addr ((List.range data.length).map fun i =>
    if Config.free label (seed * 2 ^ 64 + (addr + i) / lba) % 2 = 1 then data.getD i 0 else old.getD i 0)

/-- A drive as a reset leaves it: of each Write outstanding, a free choice of its blocks has been written, and when the drive lost power
with the device, a free choice of the blocks that no Flush had made durable is back at what it held before (R330, R333, R334). DESIGN CHOICE
(log 8). -/
def DriveSt.reset (d : DriveSt) (lba seed : Nat) (powerLost : Bool) : DriveSt :=
  let m := d.writes.foldl (fun m w => putSome lba 80 (seed * 2 ^ 32 + w.id) m w.addr w.data) d.mem
  if powerLost then { mem := d.cache.reverse.foldl (fun m w => putSome lba 81 (seed * 2 ^ 32 + w.id) m w.addr w.data) m }
  else { mem := m, cache := d.cache, nextId := d.nextId }

/-- A reset with its cause: the state of reset, but for what lies in the retained-state memory, in fuses, in the boot flash, on the drives
and in the straps as sampled last (R55, R517). DRAM contents are not kept. Only a power-on reset means that the drives lost power. DESIGN
CHOICE (log 6, 8). DEDUCED (log 7). -/
def State.toReset (s : State) (cause : Nat) (ph : Phase) (hold : Bool) : State :=
  let drives := [0, 1].foldl (fun (t : Tbl DriveSt) k => t.put k
    ((s.drive k).reset (2 ^ s.fld (Pg.media k) Reg.MEDIA_LBA) (2 * s.seed + k) (decide (cause = 1)))) []
  let c : Ctl := { straps := s.ctl.straps, phase := ph, tripHold := hold }
  let s1 : State := {
    pending := s.pending, out := s.out, seed := s.seed + 1, regs := s.regs.filter fun e => deviceReg e.1
    ctl := c, rsm := s.rsm.interrupt, media := { drives := drives }, fw := { flash0 := s.fw.flash0, flash1 := s.fw.flash1 } }
  s1.setFld Pg.global Reg.GLOBAL_RESET_CAUSE cause

/-- POWER_ON_RESET (R517): POR_N is low until POR_RELEASE. DESIGN CHOICE (log 6). -/
def execPowerOnReset (s : State) : Host.Outcome State Fault Refusal := .next (s.toReset 1 .inReset false)

/-- SUPPLY_MONITOR_RESET (R517): as at power-on. DESIGN CHOICE (log 6). -/
def execSupplyMonitorReset (s : State) : Host.Outcome State Fault Refusal := .next (s.toReset 1 .inReset false)

/-- The effect of a write of RESET_CTRL: PF0 resets the device with GO and the KEY; any other write has none (R55). -/
def writeResetCtrl (r : Req) (v : Word) (s : State) : State :=
  withWrite r Pg.global 0x210 v s fun s _ _ =>
    if r = .pf0 ∧ wfld v Reg.GLOBAL_RESET_CTRL_GO = 1 ∧ wfld v Reg.GLOBAL_RESET_CTRL_KEY = 0x4B5A then s.toReset 2 .restoring false
    else s

/-- DEVICE_RESET (R55). -/
def execDeviceReset (r : Req) (v : Word) (s : State) : Host.Outcome State Fault Refusal := .next (writeResetCtrl r v s)

/-- The thermal trip: the device is in reset until it has cooled (R491). -/
def State.thermalTrip (s : State) : State := s.toReset 3 .inReset true

/-- TRIP_RELEASE (R491): the device restarts as at power-up. DESIGN CHOICE (log 6). -/
def execTripRelease (s : State) : Host.Outcome State Fault Refusal :=
  .next (if s.ctl.tripHold then { s with ctl := { s.ctl with tripHold := false, phase := .restoring } } else s)

/-- The watchdog of the active side expires: a failover, or a reset when there is no side to take over; in a handover it has no effect
(R465). -/
def State.watchdog (s : State) : State :=
  if s.fwRuns = false ∨ s.fw.running.isSome then s
  else if s.idleReady then
    (if s.ctl.capRun then s.setFw { s.fw with failover := true } else s.doFailover)
  else s.toReset 4 .restoring false

/-- WATCHDOG_EXPIRY (R465). -/
def execWatchdogExpiry (s : State) : Host.Outcome State Fault Refusal := .next s.watchdog

/-! ### Power-up and the restore window (R85 to R87, R458, R504, R516, R519) -/

/-- The boot counter counts a power-up (R475). DESIGN CHOICE (log 6). -/
def State.countBoot (s : State) : State :=
  s.setFld64 Pg.security Reg.SECURITY_BOOT_COUNT_LO Reg.SECURITY_BOOT_COUNT_HI
    (s.fld64 Pg.security Reg.SECURITY_BOOT_COUNT_LO Reg.SECURITY_BOOT_COUNT_HI + 1)

/-- POR_N rises: the straps are sampled and the restore window begins (R516, R519). DESIGN CHOICE (log 2, 6). -/
def State.porRelease (s : State) (straps : Nat) : State :=
  if s.ctl.phase ≠ .inReset ∨ s.ctl.tripHold then s
  else
    let c : Ctl := { s.ctl with straps := straps % 16, phase := .restoring }
    (({ s with ctl := c } : State).setFld Pg.global Reg.GLOBAL_RESET_CAUSE 1).countBoot

/-- POR_RELEASE (R516). -/
def execPorRelease (straps : Nat) (s : State) : Host.Outcome State Fault Refusal := .next (s.porRelease straps)

/-- A restored GENERATION other than 0 leaves the device a fenced member (R504). DEDUCED (log 88). -/
def State.fenceAtBoot (s : State) : State :=
  if s.fld Pg.array Reg.ARRAY_GENERATION = 0 then s
  else
    (((s.setFld Pg.array Reg.ARRAY_STATE_MEMBER 1).setFld Pg.global Reg.GLOBAL_STATE_FENCED 1).setFld Pg.array
      Reg.ARRAY_STATE_FENCED 1).setFld Pg.trig Reg.TRIG_STATE_FENCED 1

/-- BOOT_MODE 0b01 starts a take to LIVE as though a SET MODE had been accepted (R87), unless the device is fenced (R504) or such a command
would be refused. DESIGN CHOICE (log 29). -/
def State.bootTake (s : State) : State :=
  if s.fld Pg.rstore Reg.RSTORE_SAVE_CFG_BOOT_MODE = 1 ∧ s.fenced = false ∧ s.noImage = false ∧ s.modeHeld .live = false then
    s.beginStart .live none
  else s

/-- The order of the address mapping in force: MAP.ORDER as restored; the reserved 3 acts as 0 (R441, R442). DEDUCED (log 82). -/
def State.latchOrder (s : State) : State :=
  let o := s.fld Pg.dramctl Reg.DRAMCTL_MAP
  s.setFld Pg.dramctl Reg.DRAMCTL_STATE_ORDER (if o = 3 then 0 else o)

/-- The restore window ends: settings are restored, firmware boots, STANDBY is reached and what STANDBY runs starts (R85 to R87, R458,
R504). DESIGN CHOICE (log 2, 6). -/
def State.restoreDone (s : State) : State :=
  if s.ctl.phase ≠ .restoring then s
  else
    let s1 := (s.restore (s.ctl.straps.testBit 2)).latchOrder.bootFw.fenceAtBoot
    let s2 := (s1.placeSlots s).toMode .standby .settled
    (((s2.supplyStep 0).supplyStep 1).settleAll.mediaStart.outputsStart).showRecorder.bootTake

/-- RESTORE_DONE (R87). -/
def execRestoreDone (s : State) : Host.Outcome State Fault Refusal := .next s.restoreDone

/-! ### Loss of power and wake-up (R66, R399, R517) -/

/-- An immediate flush point (R330, R489, R517). -/
def State.flushNow (s : State) : State :=
  if s.canFlush && !(s.reel.closing && s.drained) then s.beginFlush false else s.pushFlush

/-- PWRGOOD_FALL (R517). -/
def execPwrgoodFall (s : State) : Host.Outcome State Fault Refusal := .next s.flushNow

/-- WAKE_N_FALL (R66). DEDUCED (log 25). -/
def execWakeNFall (s : State) : Host.Outcome State Fault Refusal := .next s.wake

/-- The Collimator time has reached the armed alarm: ALARM is raised, ARM clears, and with WAKE the device leaves SLEEP (R66, R399). DESIGN
CHOICE (log 3). -/
def State.alarm (s : State) : State :=
  let a := s.fld64 Pg.coll Reg.COLL_ALARM_SEC_LO Reg.COLL_ALARM_SEC_HI * 1000000000 + s.fld Pg.coll Reg.COLL_ALARM_NS
  if s.on Pg.coll Reg.COLL_ALARM_CTRL_ARM && s.collRuns && decide (a ≤ s.time.sec * 1000000000 + s.time.ns) then
    let s1 := (s.setFld Pg.coll Reg.COLL_ALARM_CTRL_ARM 0).raise Pg.coll Reg.COLL_EVENT_ALARM
    if s1.on Pg.coll Reg.COLL_ALARM_CTRL_WAKE then s1.wake else s1
  else s

/-- ALARM (R399). -/
def execAlarm (s : State) : Host.Outcome State Fault Refusal := .next s.alarm

end Sys2Proof.Machine
end

