-- ==== Sys2Proof/Machine/Therm.lean ====
section
/-! DEFINITION. The thermal controller (R487 to R491, R494): the sensors and their cross-check, Tj and its slope, the levels, the stop
decision, and the trip. -/

namespace Sys2Proof.Machine

/-- The state with the thermal part replaced. -/
def State.setTherm (s : State) (t : ThermSt) : State := { s with therm := t }

/-- A signed field. -/
def State.sfld (s : State) (p : Nat) (f : Fld) : Int := signed f.width (s.fld p f)

/-- A signed field set. -/
def State.setSfld (s : State) (p : Nat) (f : Fld) (v : Int) : State := s.setFld p f (unsigned f.width v)

/-! ### Sensors (R487) -/

/-- The neighbours of a sensor in the 4 × 4 grid. DEDUCED (log 86). -/
def gridNear (k : Nat) : List Nat :=
  (if k % 4 = 0 then [] else [k - 1]) ++ (if k % 4 = 3 then [] else [k + 1]) ++ (if k < 4 then [] else [k - 4])
    ++ (if 12 ≤ k then [] else [k + 4])

/-- Whether a reading differs from the mean of its neighbours by more than `diff` °C; readings are in units of 1/16 °C. -/
def beyond (t : List Int) (diff k : Nat) : Bool :=
  let ns := gridNear k
  let d := ↑ns.length * t.getD k 0 - (ns.map fun j => t.getD j 0).sum
  decide ((↑(16 * diff * ns.length) : Int) < |d|)

/-- Whether a sensor is faulty. DEDUCED (log 86). -/
def State.sensorBad (s : State) (k : Nat) : Bool := (s.fld Pg.therm Reg.THERM_SENSOR_FAULT).testBit k

/-- The cross-check of one sensor: XCHK.COUNT samples in a row beyond DIFF make it faulty, 1,000 within it end that. -/
def State.crossCheck (s : State) (t : List Int) (k : Nat) : State :=
  let diff := max 1 (s.fld Pg.therm Reg.THERM_XCHK_DIFF)
  let count := max 1 (s.fld Pg.therm Reg.THERM_XCHK_COUNT)
  let far := beyond t diff k
  let mask := s.fld Pg.therm Reg.THERM_SENSOR_FAULT
  if s.sensorBad k then
    let n := if far then 0 else s.therm.good.get k + 1
    if n < 1000 then s.setTherm { s.therm with good := s.therm.good.put k n }
    else (s.setTherm { s.therm with good := s.therm.good.put k 0 }).setFld Pg.therm Reg.THERM_SENSOR_FAULT (mask - 2 ^ k)
  else
    let n := if far then s.therm.bad.get k + 1 else 0
    if n < count then s.setTherm { s.therm with bad := s.therm.bad.put k n }
    else
      ((s.setTherm { s.therm with bad := s.therm.bad.put k 0 }).setFld Pg.therm Reg.THERM_SENSOR_FAULT (mask + 2 ^ k)).raise Pg.therm
        Reg.THERM_EVENT_SENSOR_FAULT

/-- The readings of the valid sensors. -/
def State.validTemps (s : State) (t : List Int) : List Int := ((List.range 16).filter fun k => !s.sensorBad k).map fun k => t.getD k 0

/-- Tj: the highest valid reading, and 5 °C more while four or more sensors are faulty. Where no sensor is valid the manual gives no Tj: a
free value. DEDUCED (log 86). -/
def State.tjOf (s : State) (t : List Int) : Int :=
  let valid := s.validTemps t
  match valid with
  | [] => signed 16 (Config.free 53 s.seed)
  | h :: l => l.foldl max h + (if valid.length ≤ 12 then 80 else 0)

/-- TJ, DEGRADED, MAX_TJ and RATE, the rise of Tj over the last second or, at first, since the first sample. DEDUCED (log 86). -/
def State.showTj (s : State) (tj : Int) : State :=
  let old := s.therm.hist
  let top := if old.isEmpty then tj else max tj (s.sfld Pg.therm Reg.THERM_MAX_TJ)
  let hist := (tj :: old).take 1001
  let s1 := ((s.setSfld Pg.therm Reg.THERM_TJ tj).setSfld Pg.therm Reg.THERM_MAX_TJ top).setSfld Pg.therm Reg.THERM_RATE
    (tj - hist.getLastD tj)
  let faulty := ((List.range 16).filter s.sensorBad).length
  ({ s1 with seed := s1.seed + 1 }.setOn Pg.therm Reg.THERM_STATE_DEGRADED (decide (4 ≤ faulty))).setTherm { s1.therm with hist := hist }

/-! ### Levels and the stop decision (R488, R489) -/

/-- WARN, CRIT, TRIP and HYST in units of 1/16 °C (R494). -/
def State.warnAt (s : State) : Int := ↑(16 * s.fld Pg.therm Reg.THERM_THRESH_WARN)
def State.critAt (s : State) : Int := max s.warnAt ↑(16 * s.fld Pg.therm Reg.THERM_THRESH_CRIT)
def State.tripAt (s : State) : Int := ↑(16 * max 105 (min 110 (s.fld Pg.therm Reg.THERM_THRESH_TRIP)))
def State.hystAt (s : State) : Int := ↑(16 * max 1 (s.fld Pg.therm Reg.THERM_THRESH_HYST))

/-- The level that a Tj gives: a level falls only below its threshold less HYST (R488). DEDUCED (log 86). -/
def State.levelFor (s : State) (tj : Int) : Nat :=
  let old := s.fld Pg.therm Reg.THERM_STATE_LEVEL
  if s.critAt ≤ tj ∨ s.therm.hot then 2
  else if old = 2 ∧ s.critAt - s.hystAt ≤ tj then 2
  else if s.warnAt ≤ tj ∨ (1 ≤ old ∧ s.warnAt - s.hystAt ≤ tj) then 1
  else 0

/-- t_stop in ns: two frame times, the records that await their write at the lower of 24 GB/s and the volume's write rate of the last
second, 20 ms, and the longest Flush seen. The device measures the last two: free values (R489). DEDUCED (log 86). -/
def State.stopTime (s : State) : Nat :=
  let frames := 2 * 1000000000 * s.fld Pg.trig Reg.TRIG_RATE_DEN / max 1 (s.fld Pg.trig Reg.TRIG_RATE_NUM)
  let rate := max 1 (min 24000000000 (Config.free 50 s.seed))
  frames + s.fld Pg.recorder Reg.RECORDER_QUEUED * 1048576 * 1000000000 / rate + 20000000 + Config.free 51 s.seed

/-- Whether t_left reaches t_stop with STOP_MARGIN; RATE is in 1/16 °C per second (R489). -/
def State.timeLeft (s : State) : Bool :=
  let rate := s.sfld Pg.therm Reg.THERM_RATE
  let need : Int := ↑(s.stopTime + 1000000 * s.fld Pg.therm Reg.THERM_RISE_STOP_MARGIN)
  decide (rate ≤ 0) || decide (need * rate ≤ (s.tripAt - s.sfld Pg.therm Reg.THERM_TJ) * 1000000000)

/-- The orderly stop of R67: what SET MODE STANDBY does in the mode. -/
def State.orderlyStop (s : State) : State :=
  let s1 := ((s.raise Pg.therm Reg.THERM_EVENT_ORDERLY_STOP).setFld Pg.therm Reg.THERM_STATE_STOPPING 1).count Pg.therm Reg.THERM_STOPS
  match s.ctl.mode with
  | .review => s1.leaveReview none
  | .service => s1.leaveService none
  | _ => s1.beginStop none

/-- The decision on entering CRIT in LIVE, RECORD, REVIEW or SERVICE; `hot` tells that DRAM_HOT is the cause (R489). DEDUCED (log 86). -/
def State.stopDecision (s : State) (hot : Bool) : State :=
  let modes := match s.ctl.mode with | .live | .record | .review | .service => true | _ => false
  if decide (s.ctl.phase = .settled) && modes then
    let s1 : State := { s with seed := s.seed + 1 }
    if hot || s.timeLeft then s1.orderlyStop
    else
      (s1.raise Pg.therm Reg.THERM_EVENT_NO_TIME).flushNow
  else s

/-- LEVEL set anew, with the events of a level entered and the stop decision (R488, R489). -/
def State.setLevel (s : State) : State :=
  let tj := s.sfld Pg.therm Reg.THERM_TJ
  let old := s.fld Pg.therm Reg.THERM_STATE_LEVEL
  let new := s.levelFor tj
  let s1 := (s.setFld Pg.therm Reg.THERM_STATE_LEVEL new).raiseIf (decide (old = 0 ∧ 1 ≤ new ∧ s.warnAt ≤ tj)) Pg.therm
    Reg.THERM_EVENT_WARN
  if old ≠ 2 ∧ new = 2 then (s1.raise Pg.therm Reg.THERM_EVENT_CRIT).stopDecision (decide (tj < s.critAt)) else s1

/-- RISE each time RATE rises above its limit (R488). -/
def State.riseCheck (s : State) : State :=
  let above := decide ((↑(s.fld Pg.therm Reg.THERM_RISE_LIMIT) : Int) < s.sfld Pg.therm Reg.THERM_RATE)
  (s.setTherm { s.therm with rising := above }).raiseIf (above && !s.therm.rising) Pg.therm Reg.THERM_EVENT_RISE

/-- A millisecond at LEVEL 1 or above (R494). -/
def State.countAbove (s : State) : State :=
  if s.fld Pg.therm Reg.THERM_STATE_LEVEL = 0 then s
  else if s.therm.above < 999 then s.setTherm { s.therm with above := s.therm.above + 1 }
  else (s.setTherm { s.therm with above := 0 }).count Pg.therm Reg.THERM_ABOVE_WARN

/-- A sample of the sixteen sensors, in units of 1/16 °C (R487, R488, R491). DEDUCED (log 86, 92). -/
def State.thermSample (s : State) (sensors : List Int) : State :=
  let t := (List.range 16).map fun k => signed 16 (unsigned 16 (sensors.getD k 0))
  let s1 := (List.range 16).foldl (fun (s : State) k => s.setSfld Pg.therm (Reg.THERM_SENSOR k) (t.getD k 0)) s
  let s2 := (List.range 16).foldl (fun (s : State) k => s.crossCheck t k) s1
  if (s2.validTemps t).any fun x => decide (s2.tripAt ≤ x) then s2.thermalTrip
  else (s2.showTj (s2.tjOf t)).riseCheck.setLevel.countAbove

/-- THERM_SAMPLE (R487). -/
def execThermSample (sensors : List Int) (s : State) : Host.Outcome State Fault Refusal :=
  .next (if s.ctl.phase = .inReset then s else s.thermSample sensors)

/-- DRAM_TEMP_POLL (R448, R449, R488). -/
def execDramTempPoll (temps : List (Nat × Nat)) (s : State) : Host.Outcome State Fault Refusal :=
  .next (if s.ctl.phase = .inReset ∨ s.ctl.mode = .sleep then s else (s.pollAll temps).setLevel)

end Sys2Proof.Machine
end

