-- ==== Sys2Proof/Machine/RegAccess.lean ====
section
/-! DEFINITION. Any register access by its BAR0 offset (R32, R33, R36 to R45, R81): commits of a page, the writes with an effect
of their own, the rules that close a register to a plain write, and the values that registers show as they are read. -/

namespace Sys2Proof.Machine

/-! ### COMMIT of a page (R38 to R40, R81, R186, R200, R345, R349, R356) -/

/-- Whether a COMMIT write is discarded whole with STATE_REJECT: it would set SOURCE to a forbidden value, change SOURCE while PENDING is 1,
or ask for an immediate commit of a running function (R40, R81). DEDUCED (log 17). -/
def State.commitBarred (s : State) (p src : Nat) (req : Bool) : Bool :=
  let pend := s.on p Reg.COMMON_COMMIT_PENDING
  decide (src = 3) || (decide (src = 1) && !ownBoundary p) || (pend && decide (src ≠ s.fld p Reg.COMMON_COMMIT_SOURCE))
    || (req && !pend && decide (src = 2) && s.running p)

/-- What a block's own rules do with a request of COMMIT: none where the request stands. DEDUCED (log 17). -/
def State.commitRefused (s : State) (p : Nat) : Option State :=
  match pageBlk p with
  | some (.split, _) =>
    if s.cropBad (s.fld Pg.split) (decide (s.ctl.mode = .review)) then
      some ((s.raise p Reg.SPLIT_EVENT_CROP_ERR).raise p Reg.COMMON_EVENT_COMMIT_REJECT)
    else none
  | some (.prismFe, _) | some (.prismBe, _) =>
    if s.namesUnready p then
      some ((s.raise p Reg.COMMON_EVENT_COMMIT_REJECT).raise Pg.fstore Reg.FSTORE_EVENT_SLOT_NOT_READY)
    else none
  | some (.loupe, n) =>
    let g := s.fld p
    if s.srcBad g then some ((s.raise p Reg.LOUPE_EVENT_SRC_ERR).raise p Reg.COMMON_EVENT_COMMIT_REJECT)
    else if s.fmtBad n g then some ((s.raise p Reg.LOUPE_EVENT_FMT_ERR).raise p Reg.COMMON_EVENT_COMMIT_REJECT)
    else if s.fmtHeld n g then some (s.reject p)
    else none
  | _ => none

/-- A commit applied at once: slots the values taken name are checked, freed slots are reported (R171, R199). -/
def State.commitNow (s : State) (p : Nat) : State := noteFreed s ((s.applyCommit p).checkSlots p)

/-- Whether a page is that of a scan-out engine. -/
def isLoupe (p : Nat) : Bool := match pageBlk p with | some (.loupe, _) => true | _ => false

/-- A request accepted: the snapshot is taken; an immediate commit applies at once and asks for a save, and a commit at the block's own
boundary applies at once while the block has none, as does any request to a stopped scan-out engine (R38, R81, R82, R355). DEDUCED (log 17).
-/
def State.commitTake (s : State) (p src : Nat) : State :=
  let snaps := (p, s.snapshot p) :: s.ctl.snaps.filter (fun e => decide (e.1 ≠ p))
  let s1 : State := { s with ctl := { s.ctl with snaps := snaps } }
  let s2 := s1.setFld p Reg.COMMON_COMMIT_PENDING 1
  if src = 2 then (s2.commitNow p).autoSave 3
  else if (src = 1 ∨ (src = 0 ∧ isLoupe p)) ∧ s2.running p = false then s2.commitNow p
  else s2

/-- The effect of a write of a page's COMMIT register (R38 to R40, R81). DEDUCED (log 17). -/
def writeCommit (r : Req) (p : Nat) (v : Word) (s : State) : State :=
  withWrite r p 0x01C v s fun s _ new =>
    let src := wfld new Reg.COMMON_COMMIT_SOURCE
    let req := decide (wfld v Reg.COMMON_COMMIT_REQ = 1)
    if s.commitBarred p src req then s.reject p
    else
      let s1 := s.setFld p Reg.COMMON_COMMIT_SOURCE src
      if req = false then s1
      else if s1.on p Reg.COMMON_COMMIT_PENDING then s1.raise p Reg.COMMON_EVENT_COMMIT_REJECT
      else (s1.commitRefused p).getD (s1.commitTake p src)

/-- COMMIT_REQ (R38). -/
def execCommitReq (r : Req) (page : Nat) (v : Word) (s : State) : Host.Outcome State Fault Refusal :=
  .next (if page = Pg.global then writeGlobalCommit r v s else writeCommit r page v s)

/-! ### Plain writes -/

/-- Whether a plain write is discarded with STATE_REJECT by a rule of its block: LINKB while GANG is 1 and the DFE taps (R89, R124), HDEC1
while HDEC0 gangs it (R266), the admin queue registers while EN is 1 (R316), the stage region while STAGE namespaces exist (R317), a
flow's registers while its EN is 1 (R374), and the registers of a register job (R428). -/
def State.writeVeto (s : State) (r : Req) (p o : Nat) : Bool :=
  match pageBlk p with
  | some (.link, _) | some (.lane, _) => s.linkVeto p o
  | some (.hdec, i) => decide (i = 1) && decide (0x040 ≤ o) && s.on (Pg.hdec 0) Reg.HDEC_CTRL_GANG
  | some (.hostq, _) => decide (0x044 ≤ o ∧ o ≤ 0x054) && s.on (bankPage r p 0x058) Reg.HOSTQ_AQ_CTRL_EN
  | some (.nspace, _) => decide (0x040 ≤ o ∧ o ≤ 0x048) && !s.stages.isEmpty
  | some (.pkt2110, _) =>
    decide (0x040 ≤ o ∧ o < 0x240) && decide (o % 0x20 ≠ 0) && s.on Pg.pkt2110 (Reg.PKT2110_FLOW_CFG_EN ((o - 0x040) / 0x20))
  | some (.cond, _) => s.condClosed o
  | _ => false

/-- The lanes of a page's block follow its power state with it (R479, R480). DEDUCED (log 76). -/
def State.settleWith (s : State) (p : Nat) : State :=
  ((List.range 46).filter fun k => decide (laneOwner k = some p)).foldl (fun s k => s.settle (Pg.lane k)) (s.settle p)

/-- What follows the write of a register: a latch may rise with EVENT_EN or the routing (R52), domains follow ENABLE (R480), the flows of a
packetiser that stops give up their frames (R364), slots that a back end named may become free (R199), and transmit lanes follow their
settings (R105). -/
def afterWrite (p o : Nat) (s0 s : State) : State :=
  if o = 0x014 then noteRise s0 s p
  else if p = Pg.global ∧ 0x100 ≤ o ∧ o < 0x200 then noteRiseAll s0 s
  else if Pg.lane 16 ≤ p ∧ p ≤ Pg.lane 21 ∧ (o = 0x050 ∨ o = 0x054) ∨ p = Pg.guard ∧ o = 0x068 then driveLanes s0 s
  else if o = 0x008 then
    let s1 :=
      if p = Pg.pkt2110 ∧ s0.on p Reg.PKT2110_CTRL_ENABLE ∧ s.on p Reg.PKT2110_CTRL_ENABLE = false then
        (List.range 16).foldl (fun (s : State) f => if s.flowOn f then s.flowDrop f else s) s
      else s
    let s2 := s1.settleWith p
    if prismPages.contains p then noteFreed s0 s2 else s2
  else s

/-- Whether a write would change RECORDER.CFG.DRIVES, which is discarded while a recovery runs (R59). -/
def drivesChange (p o : Nat) (old new : Word) : Bool :=
  decide (p = Pg.recorder ∧ o = 0x040 ∧ wfld old Reg.RECORDER_CFG_DRIVES ≠ wfld new Reg.RECORDER_CFG_DRIVES)

/-- A write without an effect of its own: the word is stored unless a rule of the block closes the register (R41, R47, R59). -/
def writePlain (r : Req) (p o : Nat) (v : Word) (s : State) : State :=
  withWrite r p o v s fun s old new =>
    if s.writeVeto r p o || (s.recovering.isSome && drivesChange p o old new) then s.reject p else plainStore r p o s old new

/-! ### Writes with an effect of their own -/

/-- The index of a register group that an offset begins. -/
def groupIdx (base stride n o : Nat) : Option Nat :=
  if base ≤ o ∧ o < base + n * stride ∧ (o - base) % stride = 0 then some ((o - base) / stride) else none

/-- A write of CTRL (R35). -/
def writeCtrl (r : Req) (p : Nat) (v : Word) (s : State) : State :=
  match pageBlk p with
  | some (.rstore, _) => writeRstoreCtrl r v s
  | some (.guard, _) => writeWindow r 0x008 v s
  | some (.link, k) => writeLinkCtrl r k v s
  | some (.media, k) => writeMediaCtrl r k v s
  | some (.recorder, _) => writeRecorderCtrl r v s
  | some (.loupe, n) => writeLoupeCtrl r n v s
  | some (.mirror, _) => writeMirrorCtrl r v s
  | some (.eth, e) => writeEthCtrl r e v s
  | some (.coll, _) => writeCollCtrl r v s
  | some (.aud, k) => writeAudCtrl r k v s
  | some (.cond, _) => writeCondCtrl r v s
  | some (.relay, _) => writeRelayCtrl r v s
  | _ => writePlain r p 0x008 v s

/-- A write of a block register. -/
def writeBlk (r : Req) (p o : Nat) (v : Word) (s : State) : State :=
  match pageBlk p with
  | some (.global, _) =>
    if o = 0x0A0 then writeVecRearm r v s else if o = 0x210 then writeResetCtrl r v s else writePlain r p o v s
  | some (.guard, _) =>
    if o = 0x054 then writeSupplyReq r v s else if o = 0x074 then writeSeq r 0 v s else if o = 0x078 then writeSeq r 1 v s
    else if isWindow o then writeWindow r o v s else writePlain r p o v s
  | some (.lane, k) => if o = 0x060 then writeTestCtrl r k v s else writePlain r p o v s
  | some (.link, k) => if o = 0x088 then writeBcCtrl r k v s else writePlain r p o v s
  | some (.fstore, _) =>
    if o = 0x068 then writeLoadCtrl r v s
    else match groupIdx 0x100 4 64 o with
      | some k => writeSlotCfg r k v s
      | none => writePlain r p o v s
  | some (.drdec, _) => if o = 0x04C then writeDrdecInProd r v s else writePlain r p o v s
  | some (.hdec, n) => if o = 0x04C ∧ s.writeVeto r p o = false then writeHdecInProd r n v s else writePlain r p o v s
  | some (.hostq, _) =>
    if o = 0x040 then writeDoorbell r v s else if o = 0x058 then writeAqCtrl r v s else writePlain r p o v s
  | some (.pkt2110, _) =>
    match groupIdx 0x040 0x20 16 o with
    | some f => writeFlowCfg r f v s
    | none => writePlain r p o v s
  | some (.coll, _) => if o = 0x070 then writePtpCfg r v s else writePlain r p o v s
  | some (.relay, _) =>
    match groupIdx 0x080 0x20 8 o with
    | some c => writeChCtrl r c v s
    | none => writePlain r p o v s
  | some (.dramctl, _) => if o = 0x048 then writeFreq r v s else writePlain r p o v s
  | some (.security, _) => if o = 0x044 then writeSvnCtrl r v s else writePlain r p o v s
  | _ => writePlain r p o v s

/-- A write of `v` to offset `o` of page `p` (R32, R35). -/
def writeAt (r : Req) (p o : Nat) (v : Word) (s : State) : State :=
  afterWrite p o s
    (if o = 0x018 then writeEventTest r p v s
    else if o = 0x024 then writePwrReq r p v s
    else if o = 0x01C then (if p = Pg.global then writeGlobalCommit r v s else writeCommit r p v s)
    else if o = 0x008 then writeCtrl r p v s
    else if 0x040 ≤ o then writeBlk r p o v s
    else writePlain r p o v s)

/-- A register write (R33, R41, R44); offsets above BAR0 reach BAR2 and the configuration space of the function (R277). An offset that is no
multiple of 4 is a bus error. PRESUMED (log 15). DESIGN CHOICE (log 94). -/
def regSet (r : Req) (off be : Nat) (v : Word) (s : State) : State :=
  match reqFn? r with
  | some fn =>
    if 0x400000 ≤ off then s.pciWrite fn off be v
    else if s.reach r && (decide (be % 16 ≠ 15) || decide (off % 4 ≠ 0)) then s.busError r off true
    else writeAt r (off / 0x1000) (off % 0x1000) v s
  | none =>
    if s.reach r && (decide (be % 16 ≠ 15) || decide (off % 4 ≠ 0)) then s.busError r off true
    else writeAt r (off / 0x1000) (off % 0x1000) v s

/-- REGISTER_WRITE (R41). -/
def execRegisterWrite (r : Req) (off be : Nat) (v : Word) (s : State) : Host.Outcome State Fault Refusal :=
  .next (regSet r off be v s)

/-- LINK_TRAIN (R97). -/
def execLinkTrain (r : Req) (port : Nat) (v : Word) (s : State) : Host.Outcome State Fault Refusal :=
  .next (if 2 ≤ port then s else writeAt r (Pg.link port) 0x008 v s)

/-- AUD_ENABLE (R408). -/
def execAudEnable (r : Req) (p : Nat) (v : Word) (s : State) : Host.Outcome State Fault Refusal :=
  .next (if 4 ≤ p then s else writeAt r (Pg.aud p) 0x008 v s)

/-! ### Values shown as they are read -/

/-- A word with fields replaced. -/
def setFlds (w : Word) (l : List (Fld × Nat)) : Word := l.foldl (fun w e => Word.setBits w e.1.lo e.1.width e.2) w

/-- The phase of a Prism block that processes or awaits frames (R172, R173). -/
def prismPhase (runs busy : Bool) : Nat := if runs then (if busy then 2 else 1) else 0

/-- LEASE_LEFT: 0 without a lease; else the time left, which the model does not follow, at most the lease in force (R496, R497). DESIGN
CHOICE (log 87). -/
def State.leaseLeft (s : State) : Nat := if s.array.lease = 0 then 0 else min s.array.lease (Config.free 52 s.seed)

/-- SDI.STATE of a link (R372). -/
def State.sdiState (s : State) (k : Nat) : List (Fld × Nat) :=
  let n := s.linkEngine k
  if (s.linksOf n).contains k then
    let fract := match frameRate (s.engRate n) with | some x => decide (x.2 = 1001) | none => false
    let quad := decide (n = 0) && decide (s.engFmt 0 = 4)
    [(Reg.SDI_STATE_RATE, carriage n (s.engFmt n) (s.engRate n)), (Reg.SDI_STATE_FRACT, bit fract),
      (Reg.SDI_STATE_LINK, if quad then k else 0), (Reg.SDI_STATE_QUAD, bit quad)]
  else
    [(Reg.SDI_STATE_RATE, 0), (Reg.SDI_STATE_FRACT, 0), (Reg.SDI_STATE_LINK, 0), (Reg.SDI_STATE_QUAD, 0)]

/-- The fields of a register that are worked out as they are read, with their values. DESIGN CHOICE (log 10, 91). DEDUCED (log 30). -/
def State.liveFlds (s : State) (r : Req) (p o : Nat) : List (Fld × Nat) :=
  match pageBlk p with
  | some (.global, _) => if 0x080 ≤ o ∧ o < 0x0A0 then [(Reg.GLOBAL_EVENT_SUMMARY 0, (s.summary ((o - 0x080) / 4)).toNat)] else []
  | some (.rstore, _) =>
    if o = 0x044 then
      [(Reg.RSTORE_STATUS_BUSY, bit s.rsm.running.isSome), (Reg.RSTORE_STATUS_HELD, bit s.rsm.held.isSome),
        (Reg.RSTORE_STATUS_BANK0_VALID, bit (bankValid s.rsm.bank0)), (Reg.RSTORE_STATUS_BANK1_VALID, bit (bankValid s.rsm.bank1))]
    else if o = 0x048 then [(Reg.RSTORE_SEQ_LO, s.rsm.seq)]
    else if o = 0x04C then [(Reg.RSTORE_SEQ_HI, s.rsm.seq / 2 ^ 32)]
    else []
  | some (.pwr, _) =>
    if 0x044 ≤ o ∧ o < 0x058 then [(Reg.PWR_DOMAIN_ON 0, (s.domainWord ((o - 0x044) / 4) 3).toNat)]
    else if 0x058 ≤ o ∧ o < 0x06C then [(Reg.PWR_DOMAIN_RET 0, (s.domainWord ((o - 0x058) / 4) 1).toNat)]
    else []
  | some (.lane, l) =>
    let eq := s.on (Pg.link (s.portOf l)) Reg.LINK_CTRL_EQ_MODE
    if o = 0x044 ∧ l < 16 then [(Reg.LANE_RX_STATUS_HDR_RUN, s.hdrRun l)]
    else if o = 0x048 ∧ eq = false then
      [(Reg.LANE_DFE_A_TAP1, s.tap l 0), (Reg.LANE_DFE_A_TAP2, s.tap l 1), (Reg.LANE_DFE_A_TAP3, s.tap l 2), (Reg.LANE_DFE_A_TAP4, s.tap l 3)]
    else if o = 0x04C ∧ eq = false then [(Reg.LANE_DFE_B, s.tap l 4)]
    else []
  | some (.link, k) =>
    if o = 0x05C then
      let own := fun (l : Nat) => decide (s.portOf l = k)
      [(Reg.LINK_LANE_STATUS_LOCK, mask 16 fun l => own l && s.laneLocked l),
        (Reg.LINK_LANE_STATUS_LOS, mask 16 fun l => own l && s.on (Pg.lane l) Reg.LANE_RX_STATUS_LOS)]
    else if o = 0x00C then [(Reg.LINK_STATE_PORT, s.portCode k)]
    else []
  | some (.prismFe, _) =>
    if o = 0x00C then [(Reg.PRISM_FE_STATE_PHASE, prismPhase (s.running p) s.ingress.reading.isSome)] else []
  | some (.prismBe, n) =>
    if o = 0x00C then
      let busy := s.split.pics.any fun c => let x := c.rends.get n; x.begun && !x.done
      [(Reg.PRISM_BE_STATE_PHASE, prismPhase (s.running p) busy)]
    else []
  | some (.fstore, _) =>
    if o = 0x044 then [(Reg.FSTORE_BUSY_LO, mask 32 s.slotBusy)]
    else if o = 0x048 then [(Reg.FSTORE_BUSY_HI, mask 32 fun i => s.slotBusy (32 + i))]
    else if o = 0x04C then [(Reg.FSTORE_READY_LO, mask 32 fun i => decide (s.slotState i = 2))]
    else if o = 0x050 then [(Reg.FSTORE_READY_HI, mask 32 fun i => decide (s.slotState (32 + i) = 2))]
    else if 0x200 ≤ o ∧ o < 0x400 ∧ o % 8 = 0 then
      let k := (o - 0x200) / 8
      [(Reg.FSTORE_SLOT_STATUS_STATE k, s.slotState k), (Reg.FSTORE_SLOT_STATUS_BUSY k, bit (s.slotBusy k))]
    else if 0x200 ≤ o ∧ o < 0x400 ∧ o % 8 = 4 then
      let k := (o - 0x204) / 8
      [(Reg.FSTORE_SLOT_CRC k, if s.slotState k = 2 then s.fld Pg.fstore (Reg.FSTORE_SLOT_CRC k) else 0)]
    else []
  | some (.split, _) =>
    match groupIdx 0x05C 0x20 8 o with
    | some n => [(⟨0x05C, 0, 32⟩, if s.running Pg.split && s.rendUsed n then s.scaleInfo n else 0)]
    | none => []
  | some (.hostq, _) =>
    let fn := (reqFn? r).getD .pf0
    let live := fun q => (s.hq.sqs.get (qkey fn q)).live
    if o = 0x064 then [(Reg.HOSTQ_INFLIGHT, (s.hq.cmds.filter fun e => e.2.live && decide (e.2.fn = fn)).length)]
    else if o = 0x068 then [(Reg.HOSTQ_SQ_LIVE_LO, mask 32 live)]
    else if o = 0x06C then [(Reg.HOSTQ_SQ_LIVE_HI, mask 32 fun i => live (32 + i))]
    else if o = 0x074 then [(Reg.HOSTQ_TAGS, 16384 - (s.hq.cmds.filter fun e => e.2.live).length)]
    else []
  | some (.recorder, _) =>
    match (if o = 0x00C then s.recovering else none) with
    | some n => [(Reg.RECORDER_STATE_PHASE, 5), (Reg.RECORDER_STATE_NSID, n)]
    | none => []
  | some (.nspace, _) =>
    let n := s.fld Pg.nspace Reg.NSPACE_NS_SELECT
    if o = 0x050 then [(Reg.NSPACE_NS_COUNT, s.nsids.length)]
    else if o = 0x054 then [(Reg.NSPACE_STAGE_FREE_TOTAL, s.stageFree), (Reg.NSPACE_STAGE_FREE_RUN, s.stageRun)]
    else if o = 0x05C then
      [(Reg.NSPACE_NS_INFO_TYPE, s.nsType n), (Reg.NSPACE_NS_INFO_IN_USE, bit (s.nsInUse n)), (Reg.NSPACE_NS_INFO_OPEN, bit (s.nsOpen n))]
    else if o = 0x060 then [(Reg.NSPACE_NS_SIZE_LO, s.nsSize n)]
    else if o = 0x064 then [(Reg.NSPACE_NS_SIZE_HI, s.nsSize n / 2 ^ 32)]
    else if o = 0x068 then [(Reg.NSPACE_NS_USED_LO, s.nsUsed n)]
    else if o = 0x06C then [(Reg.NSPACE_NS_USED_HI, s.nsUsed n / 2 ^ 32)]
    else []
  | some (.sdi, k) => if o = 0x00C then s.sdiState k else []
  | some (.mirror, _) => if o = 0x00C then [(Reg.MIRROR_STATE_CHECKING, mask 4 fun k => s.mirrors k && !s.isLost k)] else []
  | some (.pkt2110, _) =>
    match groupIdx 0x05C 0x20 16 o with
    | some f => [(Reg.PKT2110_WIRE f, min 131071 (s.wireRate f))]
    | none => []
  | some (.eth, e) => if o = 0x064 then [(Reg.ETH_TX_RATE, ((s.portBytes e).mul ⟨8, 1000000⟩).floor.toNat)] else []
  | some (.coll, _) => if o = 0x00C then [(Reg.COLL_STATE_NO_STEP, bit s.stepBarred)] else []
  | some (.array, _) => if o = 0x048 then [(Reg.ARRAY_LEASE_LEFT, s.leaseLeft)] else []
  | _ => []

/-- The word that a register shows a requester. DESIGN CHOICE (log 10). -/
def State.shown (s : State) (r : Req) (p o : Nat) : Word :=
  setFlds (s.rd (bankPage r p o * 0x1000 + o)) (s.liveFlds r p o)

/-- A read of DB_ERR_INFO makes room for the next ignored doorbell (R316). -/
def readDbErr (r : Req) (be : Nat) (s : State) : State :=
  let s1 := withRead r Pg.hostq 0x078 be s (s.rd (Pg.hostq * 0x1000 + 0x078)) true
  if s.reach r && decide (be % 16 ≠ 0) then s1.setHq { s1.hq with dbErrHeld := false } else s1

/-- The state with what time has moved brought up to date before a read shows it: adapted taps and the counts of a checker (R103, R122). -/
def State.beforeRead (s : State) (p o : Nat) : State :=
  match pageBlk p with
  | some (.lane, l) =>
    if o = 0x048 ∨ o = 0x04C then s.adaptLane l
    else if o = 0x070 ∨ o = 0x074 then s.checkerRun l
    else s
  | _ => s

/-- Whether a register shows a free value that the next read may find changed (R100, R497). -/
def showsFree (p o : Nat) : Bool :=
  match pageBlk p with
  | some (.lane, l) => decide (o = 0x044) && decide (l < 16)
  | some (.array, _) => decide (o = 0x048)
  | _ => false

/-- A read of offset `o` of page `p` (R33, R41, R51, R54, R316, R454). -/
def readAt (r : Req) (p o be : Nat) (s : State) : State :=
  if o = 0x010 then readEvent r p be s
  else if p = Pg.global ∧ o = 0x204 then readBusErr r be s
  else if p = Pg.hostq ∧ o = 0x078 then readDbErr r be s
  else if Pg.dram 0 ≤ p ∧ p < Pg.dram 8 ∧ o = 0x054 then readUeAddr r (p - Pg.dram 0) be s
  else
    let s0 := if s.reach r then s.beforeRead p o else s
    let s1 := withRead r p o be s0 (s0.shown r p o) true
    if showsFree p o then { s1 with seed := s1.seed + 1 } else s1

/-- A register read (R33, R41, R44); offsets above BAR0 reach BAR2 and the configuration space of the function (R277). PRESUMED (log 15).
DESIGN CHOICE (log 94). -/
def regGet (r : Req) (off be : Nat) (s : State) : State :=
  match reqFn? r with
  | some fn =>
    if 0x400000 ≤ off then s.pciRead fn off
    else if s.reach r && decide (off % 4 ≠ 0) then s.busError r off false
    else readAt r (off / 0x1000) (off % 0x1000) be s
  | none =>
    if s.reach r && decide (off % 4 ≠ 0) then s.busError r off false
    else readAt r (off / 0x1000) (off % 0x1000) be s

/-- REGISTER_READ (R41). -/
def execRegisterRead (r : Req) (off be : Nat) (s : State) : Host.Outcome State Fault Refusal := .next (regGet r off be s)

end Sys2Proof.Machine
end

