-- ==== Sys2Proof/Machine/RelayMove.lean ====
section
/-! DEFINITION. The end of a Relay descriptor (R430 to R432, R435): the bytes it moves, between memories or beat by beat where a register is its
source or destination. -/

namespace Sys2Proof.Machine

/-- Whom a channel acts as in the register space (R430). DEDUCED (log 79). -/
def chReq (c : Nat) : Req := if c < 4 then .fw else .pf1

/-- The state with the mark of a Relay access set or cleared. -/
def State.markBeat (s : State) (b : Bool) : State := { s with ctl := { s.ctl with relayBeat := b } }

/-- A register word read by a channel; none is a bus error (R33, R44, R430). DEDUCED (log 80). -/
def State.beatRead (s : State) (c off be : Nat) : State × Option Word :=
  let t := (readAt (chReq c) (off / 0x1000) (off % 0x1000) be (s.markBeat true)).markBeat false
  match t.out with
  | .regRead _ _ v :: rest => ({ t with out := rest }, some v)
  | .readAbort _ _ :: rest => ({ t with out := rest }, none)
  | _ => (t, none)

/-- A register word written by a channel; false is a bus error (R33, R44, R430). DEDUCED (log 80). -/
def State.beatWrite (s : State) (c off be : Nat) (v : Word) : State × Bool :=
  let r := chReq c
  if be ≠ 15 ∨ (fieldsAt (off / 0x1000) (off % 0x1000)).isNone then (((s.markBeat true).busError r off true).markBeat false, false)
  else ((writeAt r (off / 0x1000) (off % 0x1000) v (s.markBeat true)).markBeat false, true)

/-- The accesses of a beat of `w` bytes at register-space address `a`: the register, the byte enables and the bytes of the beat in it. A
beat wider than 32 bits is taken as 32-bit accesses, the lower address first (R33). DEDUCED (log 80). -/
def beatParts (a w : Nat) : List (Nat × Nat × Nat × Nat) :=
  let o := a - regBase
  if w < 4 then [(o / 4 * 4, (2 ^ w - 1) * 2 ^ (o % 4), o % 4, w)] else (List.range (w / 4)).map fun i => (o + 4 * i, 15, 0, 4)

/-- The bytes of a source beat, or the register offset of a bus error. -/
def State.srcBeat (s : State) (c a w : Nat) : State × Except Nat (List Byte) :=
  if inRegs a then
    (beatParts a w).foldl
      (fun acc q =>
        match acc with
        | (s, .error e) => (s, .error e)
        | (s, .ok l) =>
          match s.beatRead c q.1 q.2.1 with
          | (t, none) => (t, .error q.1)
          | (t, some v) => (t, .ok (l ++ ((leBytes 4 v.toNat).drop q.2.2.1).take q.2.2.2)))
      (s, .ok [])
  else (s, .ok (s.fabRead a w))

/-- A destination beat of bytes, or the register offset of a bus error. -/
def State.dstBeat (s : State) (c a : Nat) (l : List Byte) : State × Option Nat :=
  if inRegs a then
    ((beatParts a l.length).foldl
      (fun (acc : State × Option Nat × List Byte) q =>
        match acc with
        | (s, some e, l) => (s, some e, l)
        | (s, none, l) =>
          match s.beatWrite c q.1 q.2.1 (BitVec.ofNat 32 (leNat (l.take q.2.2.2) * 256 ^ q.2.2.1)) with
          | (t, false) => (t, some q.1, l)
          | (t, true) => (t, none, l.drop q.2.2.2))
      (s, none, l)) |> fun x => (x.1, x.2.1)
  else (s.fabWrite a l, none)

/-- What a piece of a transfer leaves: the state, and a bus error as its register offset and direction. -/
abbrev Moved := State × Option (Nat × Bool)

/-- Piece `i` of a descriptor, as long as its wider beat: its source beats, then its destination beats (R432). DEDUCED (log 80). -/
def State.movePiece (s : State) (c : Nat) (d : RelayDesc) (i : Nat) : Moved :=
  let m := max d.srcW d.dstW
  let got := (List.range (m / d.srcW)).foldl
    (fun (acc : State × Except Nat (List Byte)) j =>
      match acc with
      | (s, .error e) => (s, .error e)
      | (s, .ok l) =>
        match s.srcBeat c (d.srcAt (i * m + j * d.srcW)) d.srcW with
        | (t, .error e) => (t, .error e)
        | (t, .ok b) => (t, .ok (l ++ b)))
    (s, .ok [])
  match got with
  | (s, .error e) => (s, some (e, false))
  | (s, .ok l) =>
    let put := (List.range (m / d.dstW)).foldl
      (fun (acc : State × Option Nat) j =>
        match acc with
        | (s, some e) => (s, some e)
        | (s, none) => s.dstBeat c (d.dstAt (i * m + j * d.dstW)) ((l.drop (j * d.dstW)).take d.dstW))
      (s, none)
    (put.1, put.2.map fun e => (e, true))

/-- CH_BYTES of a channel counts the `i` pieces that a descriptor has moved (R437). DEDUCED (log 79). -/
def State.countPieces (s : State) (c : Nat) (d : RelayDesc) (i : Nat) : State :=
  if i = 0 then s else s.countBy Pg.relay (Reg.RELAY_CH_BYTES c) (i * max d.srcW d.dstW)

/-- The next `n` pieces from piece `i`, while the channel still moves the descriptor; at an error the pieces before it have moved. -/
def State.movePieces (s : State) (c : Nat) (d : RelayDesc) : Nat → Nat → Moved
  | 0, _ => (s, none)
  | n + 1, i =>
    if s.chState c = 1 ∧ s.chDesc c = some d then
      match s.movePiece c d i with
      | (t, none) => t.movePieces c d n (i + 1)
      | (t, some e) => (t.countPieces c d i, some e)
    else (s, none)

/-- A descriptor moves its data and ends. A bus error in the register space ends the descriptor of channels 4 to 7 with ERR; on channels 0
to 3 it is an error that the fabric returns (R430, R431, R435). DEDUCED (log 80). -/
def State.descDone (s : State) (c : Nat) : State :=
  match s.chDesc c with
  | none => s
  | some d =>
    if s.relayMay c = false then s
    else if inRegs d.src ∨ inRegs d.dst then
      match s.movePieces c d (d.len / max d.srcW d.dstW) 0 with
      | (t, some e) => if c < 4 then t.relayError (regBase + e.1) 0 e.2 else t.descError c d
      | (t, none) => if t.chState c = 1 ∧ t.chDesc c = some d then t.descEnd c d else t
    else (s.copyBytes d d.len).descEnd c d

/-- RELAY_DESC_DONE (R431). -/
def execRelayDescDone (c : Nat) (s : State) : Host.Outcome State Fault Refusal := .next (if 8 ≤ c then s else s.descDone c)

end Sys2Proof.Machine
end

