-- ==== Sys2Proof/Machine/Dispatch.lean ====
section
/-! DEFINITION. One arm per command of the operation table (R32 to R527, by row). -/

namespace Sys2Proof.Machine

/-- The effect of a command on everything but the queue. -/
def exec (i : Instr) (s : State) : Host.Outcome State Fault Refusal :=
  match i with
  | .registerWrite r off be v => Sys2Proof.Machine.execRegisterWrite r off be v s
  | .eventRead r page be => Sys2Proof.Machine.execEventRead r page be s
  | .buserrInfoRead r be => Sys2Proof.Machine.execBuserrInfoRead r be s
  | .eventTest r page v => Sys2Proof.Machine.execEventTest r page v s
  | .commitReq r page v => Sys2Proof.Machine.execCommitReq r page v s
  | .vecRearm r v => Sys2Proof.Machine.execVecRearm r v s
  | .msixSend fn vec => Sys2Proof.Machine.execMsixSend fn vec s
  | .msixCreditRefill => Sys2Proof.Machine.execMsixCreditRefill s
  | .deviceReset r v => Sys2Proof.Machine.execDeviceReset r v s
  | .globalCommit r v => Sys2Proof.Machine.execGlobalCommit r v s
  | .setMode tag h => Sys2Proof.Machine.execSetMode tag h s
  | .budgetCheckDone => Sys2Proof.Machine.execBudgetCheckDone s
  | .takeStopCaptureDone => Sys2Proof.Machine.execTakeStopCaptureDone s
  | .reelClose => Sys2Proof.Machine.execReelClose s
  | .saveSettings tag => Sys2Proof.Machine.execSaveSettings tag s
  | .rstoreSave r v => Sys2Proof.Machine.execRstoreSave r v s
  | .rstoreErase r v => Sys2Proof.Machine.execRstoreErase r v s
  | .saveDone readBackOk => Sys2Proof.Machine.execSaveDone readBackOk s
  | .porRelease straps => Sys2Proof.Machine.execPorRelease straps s
  | .restoreDone => Sys2Proof.Machine.execRestoreDone s
  | .powerOnReset => Sys2Proof.Machine.execPowerOnReset s
  | .supplyMonitorReset => Sys2Proof.Machine.execSupplyMonitorReset s
  | .pwrgoodFall => Sys2Proof.Machine.execPwrgoodFall s
  | .vrAlert => Sys2Proof.Machine.execVrAlert s
  | .wakeNFall => Sys2Proof.Machine.execWakeNFall s
  | .linkTrain r port v => Sys2Proof.Machine.execLinkTrain r port v s
  | .rxTrain b => Sys2Proof.Machine.execRxTrain b s
  | .eqAdaptDone port => Sys2Proof.Machine.execEqAdaptDone port s
  | .trainTimeout port => Sys2Proof.Machine.execTrainTimeout port s
  | .laneLos lane => Sys2Proof.Machine.execLaneLos lane s
  | .laneLosClear lane => Sys2Proof.Machine.execLaneLosClear lane s
  | .cdrLoss lane => Sys2Proof.Machine.execCdrLoss lane s
  | .cdrLock lane => Sys2Proof.Machine.execCdrLock lane s
  | .blockLockGained lane => Sys2Proof.Machine.execBlockLockGained lane s
  | .blockLockLost lane => Sys2Proof.Machine.execBlockLockLost lane s
  | .alignNeeded lane => Sys2Proof.Machine.execAlignNeeded lane s
  | .rxAlign port acount => Sys2Proof.Machine.execRxAlign port acount s
  | .rxSof port frame tag => Sys2Proof.Machine.execRxSof port frame tag s
  | .rxMeta port data => Sys2Proof.Machine.execRxMeta port data s
  | .rxSol port lane line depth dg cells => Sys2Proof.Machine.execRxSol port lane line depth dg cells s
  | .rxPacket port p => Sys2Proof.Machine.execRxPacket port p s
  | .rxEol port line => Sys2Proof.Machine.execRxEol port line s
  | .rxEof port frame lines => Sys2Proof.Machine.execRxEof port frame lines s
  | .rxSmsg port seq kind data => Sys2Proof.Machine.execRxSmsg port seq kind data s
  | .fallbackAckTimeout port => Sys2Proof.Machine.execFallbackAckTimeout port s
  | .bcAckTimeout port => Sys2Proof.Machine.execBcAckTimeout port s
  | .bcMailboxGo r port v => Sys2Proof.Machine.execBcMailboxGo r port v s
  | .heartbeat port => Sys2Proof.Machine.execHeartbeat port s
  | .testCtrlWrite r lane v => Sys2Proof.Machine.execTestCtrlWrite r lane v s
  | .injectOne r lane v => Sys2Proof.Machine.execInjectOne r lane v s
  | .checkerSyncGained lane => Sys2Proof.Machine.execCheckerSyncGained lane s
  | .checkerSyncLost lane errors bits => Sys2Proof.Machine.execCheckerSyncLost lane errors bits s
  | .frameStart port => Sys2Proof.Machine.execFrameStart port s
  | .lineTimeout port => Sys2Proof.Machine.execLineTimeout port s
  | .pairWindowExpiry => Sys2Proof.Machine.execPairWindowExpiry s
  | .sharedReadStart => Sys2Proof.Machine.execSharedReadStart s
  | .sharedReadLine => Sys2Proof.Machine.execSharedReadLine s
  | .catchupFrameDone => Sys2Proof.Machine.execCatchupFrameDone s
  | .splitFrameStart n => Sys2Proof.Machine.execSplitFrameStart n s
  | .splitGroupPublish n => Sys2Proof.Machine.execSplitGroupPublish n s
  | .rendFrameDone n => Sys2Proof.Machine.execRendFrameDone n s
  | .slotCfgWrite r k v => Sys2Proof.Machine.execSlotCfgWrite r k v s
  | .fstoreLoad r v => Sys2Proof.Machine.execFstoreLoad r v s
  | .fstoreLoadDone => Sys2Proof.Machine.execFstoreLoadDone s
  | .drawFrameBegin => Sys2Proof.Machine.execDrawFrameBegin s
  | .drawFrameDone => Sys2Proof.Machine.execDrawFrameDone s
  | .drawCoreFault core => Sys2Proof.Machine.execDrawCoreFault core s
  | .drdecInProd r v => Sys2Proof.Machine.execDrdecInProd r v s
  | .drdecFrameDone => Sys2Proof.Machine.execDrdecFrameDone s
  | .hencPictureBegin stream => Sys2Proof.Machine.execHencPictureBegin stream s
  | .hencPictureDone stream => Sys2Proof.Machine.execHencPictureDone stream s
  | .hencCoreFault core => Sys2Proof.Machine.execHencCoreFault core s
  | .hdecInProd r n v => Sys2Proof.Machine.execHdecInProd r n v s
  | .hdecRecordDone n => Sys2Proof.Machine.execHdecRecordDone n s
  | .aqEnable r v => Sys2Proof.Machine.execAqEnable r v s
  | .queueTeardown r v => Sys2Proof.Machine.execQueueTeardown r v s
  | .functionLevelReset fn => Sys2Proof.Machine.execFunctionLevelReset fn s
  | .busMasterDisable fn => Sys2Proof.Machine.execBusMasterDisable fn s
  | .hostLinkDown => Sys2Proof.Machine.execHostLinkDown s
  | .doorbell r v => Sys2Proof.Machine.execDoorbell r v s
  | .commandFetch tag entry => Sys2Proof.Machine.execCommandFetch tag entry s
  | .completionPost tag => Sys2Proof.Machine.execCompletionPost tag s
  | .cqCoalesceTimeout fn qid => Sys2Proof.Machine.execCqCoalesceTimeout fn qid s
  | .createSq tag => Sys2Proof.Machine.execCreateSq tag s
  | .deleteSq tag => Sys2Proof.Machine.execDeleteSq tag s
  | .createCq tag => Sys2Proof.Machine.execCreateCq tag s
  | .deleteCq tag => Sys2Proof.Machine.execDeleteCq tag s
  | .identify tag h => Sys2Proof.Machine.execIdentify tag h s
  | .getLogPage tag h => Sys2Proof.Machine.execGetLogPage tag h s
  | .abort tag => Sys2Proof.Machine.execAbort tag s
  | .setCoalescing tag => Sys2Proof.Machine.execSetCoalescing tag s
  | .checkConfig tag h => Sys2Proof.Machine.execCheckConfig tag h s
  | .createNamespace tag => Sys2Proof.Machine.execCreateNamespace tag s
  | .deleteNamespace tag => Sys2Proof.Machine.execDeleteNamespace tag s
  | .firmwareLoad tag h readBackOk => Sys2Proof.Machine.execFirmwareLoad tag h readBackOk s
  | .firmwareHandover tag => Sys2Proof.Machine.execFirmwareHandover tag s
  | .attest tag h => Sys2Proof.Machine.execAttest tag h s
  | .arrayLease tag => Sys2Proof.Machine.execArrayLease tag s
  | .read tag h => Sys2Proof.Machine.execRead tag h s
  | .write tag h => Sys2Proof.Machine.execWrite tag h s
  | .appendMetadata tag h => Sys2Proof.Machine.execAppendMetadata tag h s
  | .loadSlot tag => Sys2Proof.Machine.execLoadSlot tag s
  | .compress tag h => Sys2Proof.Machine.execCompress tag h s
  | .decompress tag h => Sys2Proof.Machine.execDecompress tag h s
  | .mediaEnable r port v => Sys2Proof.Machine.execMediaEnable r port v s
  | .mediaReset r port v => Sys2Proof.Machine.execMediaReset r port v s
  | .mediaPortReady port info => Sys2Proof.Machine.execMediaPortReady port info s
  | .mediaLinkDown port => Sys2Proof.Machine.execMediaLinkDown port s
  | .nvmeCompletion port id ok => Sys2Proof.Machine.execNvmeCompletion port id ok s
  | .nvmeTimeout port id => Sys2Proof.Machine.execNvmeTimeout port id s
  | .healthPoll port critical used temp => Sys2Proof.Machine.execHealthPoll port critical used temp s
  | .format r v => Sys2Proof.Machine.execFormat r v s
  | .frameGroupComplete => Sys2Proof.Machine.execFrameGroupComplete s
  | .flushTimer => Sys2Proof.Machine.execFlushTimer s
  | .flushWritesDone => Sys2Proof.Machine.execFlushWritesDone s
  | .flushDone => Sys2Proof.Machine.execFlushDone s
  | .indexBankDone => Sys2Proof.Machine.execIndexBankDone s
  | .reelRecovery => Sys2Proof.Machine.execReelRecovery s
  | .reviewFeed => Sys2Proof.Machine.execReviewFeed s
  | .loupeEnable r n v => Sys2Proof.Machine.execLoupeEnable r n v s
  | .loupeSamplePoint n => Sys2Proof.Machine.execLoupeSamplePoint n s
  | .loupeLine n late => Sys2Proof.Machine.execLoupeLine n late s
  | .lockLost n => Sys2Proof.Machine.execLockLost n s
  | .mirrorLineCheck k b => Sys2Proof.Machine.execMirrorLineCheck k b s
  | .flowEnable r f v => Sys2Proof.Machine.execFlowEnable r f v s
  | .st2110PacketSend f late => Sys2Proof.Machine.execSt2110PacketSend f late s
  | .ethRxFrame e frame => Sys2Proof.Machine.execEthRxFrame e frame s
  | .ethLinkChange e up => Sys2Proof.Machine.execEthLinkChange e up s
  | .collSnap r v => Sys2Proof.Machine.execCollSnap r v s
  | .collSet r v => Sys2Proof.Machine.execCollSet r v s
  | .ptpSync m => Sys2Proof.Machine.execPtpSync m s
  | .ptpAnnounce m => Sys2Proof.Machine.execPtpAnnounce m s
  | .ptpDelayReqSend => Sys2Proof.Machine.execPtpDelayReqSend s
  | .ptpDelayResp m => Sys2Proof.Machine.execPtpDelayResp m s
  | .syncTimeout => Sys2Proof.Machine.execSyncTimeout s
  | .stepWindowExpiry => Sys2Proof.Machine.execStepWindowExpiry s
  | .triggerEdge port => Sys2Proof.Machine.execTriggerEdge port s
  | .triggerPulseEnd port => Sys2Proof.Machine.execTriggerPulseEnd port s
  | .alarm => Sys2Proof.Machine.execAlarm s
  | .syncIn => Sys2Proof.Machine.execSyncIn s
  | .syncOutPulse => Sys2Proof.Machine.execSyncOutPulse s
  | .audEnable r p v => Sys2Proof.Machine.execAudEnable r p v s
  | .tdmFrameBoundary p => Sys2Proof.Machine.execTdmFrameBoundary p s
  | .audSyncEdge p bclks => Sys2Proof.Machine.execAudSyncEdge p bclks s
  | .audClockLost p => Sys2Proof.Machine.execAudClockLost p s
  | .audSlot p word => Sys2Proof.Machine.execAudSlot p word s
  | .condGo r v => Sys2Proof.Machine.execCondGo r v s
  | .condResume r v => Sys2Proof.Machine.execCondResume r v s
  | .condAbort r v => Sys2Proof.Machine.execCondAbort r v s
  | .condOutputFull => Sys2Proof.Machine.execCondOutputFull s
  | .condNeedInput => Sys2Proof.Machine.execCondNeedInput s
  | .condJobEnd verified => Sys2Proof.Machine.execCondJobEnd verified s
  | .relayChStart r c v => Sys2Proof.Machine.execRelayChStart r c v s
  | .relayChAbort r c v => Sys2Proof.Machine.execRelayChAbort r c v s
  | .relayDescFetch c => Sys2Proof.Machine.execRelayDescFetch c s
  | .relayDescDone c => Sys2Proof.Machine.execRelayDescDone c s
  | .relayBusError addr kind write => Sys2Proof.Machine.execRelayBusError addr kind write s
  | .relayClear r v => Sys2Proof.Machine.execRelayClear r v s
  | .dramTrainingDone t => Sys2Proof.Machine.execDramTrainingDone t s
  | .retrainStep => Sys2Proof.Machine.execRetrainStep s
  | .retrainGatherDone osc waited drifted => Sys2Proof.Machine.execRetrainGatherDone osc waited drifted s
  | .freqTargetWrite r v => Sys2Proof.Machine.execFreqTargetWrite r v s
  | .freqChangeDone => Sys2Proof.Machine.execFreqChangeDone s
  | .dramTempPoll temps => Sys2Proof.Machine.execDramTempPoll temps s
  | .dramEccError e => Sys2Proof.Machine.execDramEccError e s
  | .ueAddrRead r channel be => Sys2Proof.Machine.execUeAddrRead r channel be s
  | .handoverAlive => Sys2Proof.Machine.execHandoverAlive s
  | .handoverFail => Sys2Proof.Machine.execHandoverFail s
  | .watchdogExpiry => Sys2Proof.Machine.execWatchdogExpiry s
  | .svnCommit r v => Sys2Proof.Machine.execSvnCommit r v s
  | .supplyReqWrite r v => Sys2Proof.Machine.execSupplyReqWrite r v s
  | .supplySeqStep port => Sys2Proof.Machine.execSupplySeqStep port s
  | .guardWindowWrite r off v => Sys2Proof.Machine.execGuardWindowWrite r off v s
  | .pwrReqWrite r page v => Sys2Proof.Machine.execPwrReqWrite r page v s
  | .powerDrainDone page => Sys2Proof.Machine.execPowerDrainDone page s
  | .drainTimeout page => Sys2Proof.Machine.execDrainTimeout page s
  | .domainOn page => Sys2Proof.Machine.execDomainOn page s
  | .powerMeasure milliwatts => Sys2Proof.Machine.execPowerMeasure milliwatts s
  | .thermSample sensors => Sys2Proof.Machine.execThermSample sensors s
  | .tripRelease => Sys2Proof.Machine.execTripRelease s
  | .leaseLow => Sys2Proof.Machine.execLeaseLow s
  | .leaseExpiry => Sys2Proof.Machine.execLeaseExpiry s
  | .registerRead r off be => Sys2Proof.Machine.execRegisterRead r off be s
  | .hostLinkUp => Sys2Proof.Machine.execHostLinkUp s
  | .fecCodeword e correctable => Sys2Proof.Machine.execFecCodeword e correctable s
  | .checkpoint => Sys2Proof.Machine.execCheckpoint s

end Sys2Proof.Machine
end

