-- ==== Sys2Proof/Safety.lean ====
section
/-! DEFINITION. What counts as a safe run, in the terms that statements use: no command stops the block, its register file and byte
memories keep their canonical form, so that equal contents are equal data, and a command changes no more than its rule names. -/

namespace Sys2Proof.Machine

/-! ### The invariant -/

/-- A command has its effect and the block goes on. -/
def Completes (c : Instr) (s t : State) : Prop := exec c s = .next t

/-- The register file is in canonical form: keys rise, and no listed register holds its factory value. -/
def State.RegsOk (s : State) : Prop := Sparse.wf factoryWord s.regs = true

/-- DRAM is in canonical form: addresses rise, and no listed byte is 0. -/
def State.DramOk (s : State) : Prop := Memory.wf s.dram = true

/-- The Filter Store's bytes are in canonical form. -/
def State.FstoreOk (s : State) : Prop := Memory.wf s.fstore.mem = true

/-- The bytes of the control-cluster memory are in canonical form. -/
def State.ClusterOk (s : State) : Prop := Memory.wf s.relay.cluster = true

/-- The register file, DRAM, the Filter Store and the control-cluster memory are in canonical form. -/
def State.Inv (s : State) : Prop := s.RegsOk ∧ s.DramOk ∧ s.FstoreOk ∧ s.ClusterOk

/-- Bound groups hold pages other than GLOBAL, and snapshots hold words of shadow registers (R38, R75). -/
def State.CommitsOk (s : State) : Prop :=
  (∀ g ∈ s.ctl.groups, ∀ p ∈ g.2, p ∈ allPages ∧ p ≠ Pg.global)
    ∧ ∀ e ∈ s.ctl.snaps, ∀ x ∈ e.2, 0x400 ≤ x.1 ∧ x.1 < 0x800

/-! ### What a command leaves unchanged -/

/-- Every register but those with the listed keys reads as before. -/
def State.KeepsRegs (s t : State) (l : List Nat) : Prop := ∀ a, a ∉ l → t.rd a = s.rd a

/-- Every register of a page that is not listed reads as before; the copies that a page has for further requesters count as its own. -/
def State.KeepsPages (s t : State) (ps : List Nat) : Prop := ∀ a, a / 0x1000 % 1024 ∉ ps → t.rd a = s.rd a

/-- Every byte of DRAM, of the Filter Store, of the control-cluster memory and of the drives reads as before. -/
def State.KeepsBytes (s t : State) : Prop :=
  (∀ a, t.dram.get a = s.dram.get a) ∧ (∀ a, t.fstore.mem.get a = s.fstore.mem.get a)
    ∧ (∀ a, t.relay.cluster.get a = s.relay.cluster.get a) ∧ ∀ k a, (t.drive k).mem.get a = (s.drive k).mem.get a

/-- Beyond registers and the MSI-X pending latches nothing has changed: no queue, no engine, no memory, no output. -/
def State.OnlyRegs (s t : State) : Prop := t = { s with regs := t.regs, ctl := { s.ctl with latches := t.ctl.latches } }

/-- Only registers with the listed keys, and pending latches, may have changed. -/
def State.Kept (s t : State) (l : List Nat) : Prop := s.KeepsRegs t l ∧ s.OnlyRegs t ∧ s.KeepsBytes t

/-- The state with the registers and the pending latches of another: what a command leaves where it changes no engine. -/
def State.regsOf (s t : State) : State := { s with regs := t.regs, ctl := { s.ctl with latches := t.ctl.latches } }

/-- A page's power domain has the state that it had. -/
def State.SameDomain (s t : State) (p : Nat) : Prop := t.fld p Reg.COMMON_PWR_REQ_STATUS = s.fld p Reg.COMMON_PWR_REQ_STATUS

/-- Every register of a page that is not listed, and whose domain has the state that it had, reads as before; where commits are dropped, the
requests of every page are left out. -/
def State.KeepsOn (s t : State) (ps : List Nat) (commits : Bool := true) : Prop :=
  ∀ a, a / 0x1000 % 1024 ∉ ps → s.SameDomain t (a / 0x1000 % 1024) → (commits = true ∨ a % 0x1000 ≠ 0x01C) → t.rd a = s.rd a

/-- What a block holds beyond its registers is as before while its domain has the state that it had: only a domain that goes off loses it
(R36). -/
def State.KeepsEngines (s t : State) : Prop :=
  (s.SameDomain t Pg.fstore → t.fstore = s.fstore) ∧ (s.SameDomain t (Pg.link 0) → t.portA = s.portA)
    ∧ (s.SameDomain t (Pg.link 1) → t.portB = s.portB) ∧ (s.SameDomain t Pg.cond → t.cond = s.cond)
    ∧ (s.SameDomain t Pg.relay → t.relay = s.relay) ∧ (s.SameDomain t Pg.mirror → t.mirror = s.mirror)
    ∧ (s.SameDomain t Pg.pkt2110 → t.flows = s.flows) ∧ (s.SameDomain t Pg.drdec → t.drdec = s.drdec)
    ∧ (∀ k, s.SameDomain t (Pg.aud k) → t.aud.get k = s.aud.get k) ∧ (∀ n, s.SameDomain t (Pg.loupe n) → t.loupe.get n = s.loupe.get n)
    ∧ ∀ k, s.SameDomain t (Pg.hdec k) → t.hdec.get k = s.hdec.get k

/-- The pages of the first instances of a block. -/
def pagesOf (page : Nat → Nat) (n : Nat) : List Nat := (List.range n).map page

/-- Only registers of the listed pages, and pending latches, may have changed. -/
def State.KeptPages (s t : State) (ps : List Nat) : Prop := s.KeepsPages t ps ∧ s.OnlyRegs t ∧ s.KeepsBytes t

/-- Every byte of DRAM outside the `n` bytes from an address upwards reads as before, and so does every byte of the other memories. -/
def State.StoresDram (s t : State) (lo n : Nat) : Prop :=
  (∀ a, a < lo ∨ lo + n ≤ a → t.dram.get a = s.dram.get a) ∧ (∀ a, t.fstore.mem.get a = s.fstore.mem.get a)
    ∧ (∀ a, t.relay.cluster.get a = s.relay.cluster.get a) ∧ ∀ k a, (t.drive k).mem.get a = (s.drive k).mem.get a

/-- What a reset leaves (R55, R517): every register at its factory value but identity, fuses, the boot counter and the cause; the engines as
after power-on; the queue, what was sent, the straps, the boot flash, and of the retained-state memory each bank that no save was writing;
DRAM lists nothing, and a drive without an outstanding Write keeps its bytes when it keeps its power. -/
def State.ResetOf (s t : State) (cause : Nat) (ph : Phase) (hold : Bool) : Prop :=
  t = { pending := s.pending, out := s.out, seed := t.seed, regs := t.regs, ctl := { straps := s.ctl.straps, phase := ph, tripHold := hold }
        rsm := { bank0 := t.rsm.bank0, bank1 := t.rsm.bank1 }, media := { drives := t.media.drives }
        fw := { flash0 := s.fw.flash0, flash1 := s.fw.flash1 } }
    ∧ t.fld Pg.global Reg.GLOBAL_RESET_CAUSE = cause
    ∧ (∀ a, a ≠ keyOf Reg.GLOBAL_RESET_CAUSE Pg.global → t.rd a = if deviceReg a then s.rd a else factoryWord a)
    ∧ ((∀ r, s.rsm.running = some r → r.2.1 ≠ 0) → t.rsm.bank0 = s.rsm.bank0)
    ∧ ((∀ r, s.rsm.running = some r → r.2.1 = 0) → t.rsm.bank1 = s.rsm.bank1)
    ∧ ∀ k, k < 2 → cause ≠ 1 → (s.drive k).writes = [] → (t.drive k).mem = (s.drive k).mem

/-! ### When a register write takes its effect -/

/-- The fields of a register that a requester may write: PF1 has no privileged ones (R41). -/
def openFields (r : Req) (fs : List FieldSpec) : List FieldSpec := if r = .pf1 then fs.filter (fun f => !f.prv) else fs

/-- Whether a write of `v` to offset `o` of page `p` passes every check of a register write and changes a bit: the requester's accesses reach
the registers, the register exists, its domain is on, no field it touches is privileged against PF1, a limit field against firmware, locked,
write-once, or stopped-only while its function runs (R36, R41, R42, R44, R466). -/
def State.accepts (s : State) (r : Req) (p o : Nat) (v : Word) : Bool :=
  s.reach r &&
    match fieldsAt p o with
    | none => false
    | some fs0 =>
      let fs := openFields r fs0
      !(decide (r = .pf1) && denies p o fs0 v) && !(decide (0x040 ≤ o) && s.domainOff p)
        && !(decide (r = .fw) && decide (p = Pg.guard) && decide (writeMask fs v &&& guardLimit o ≠ 0))
        && decide (writeMask fs v ≠ 0) && decide (writeMask fs v &&& s.lockMask p o = 0)
        && !(fs.any fun f => decide (f.kind = .w1))
        && !(fs.any fun f => f.touchSo (s.rd (bankPage r p o * 0x1000 + o)) v && s.soClosed p o f)
        && !s.heldClosed (bankPage r p o * 0x1000 + o) p o

/-- The word that an accepted write leaves by the access codes of the fields (R41). -/
def State.written (s : State) (r : Req) (p o : Nat) (v : Word) : Word :=
  applyWrite (openFields r ((fieldsAt p o).getD [])) (s.rd (bankPage r p o * 0x1000 + o)) v

/-- The memories that no power domain empties, DRAM, the control-cluster memory and the drives, read as before. -/
def State.KeepsStores (s t : State) : Prop :=
  (∀ a, t.dram.get a = s.dram.get a) ∧ (∀ a, t.relay.cluster.get a = s.relay.cluster.get a)
    ∧ ∀ k a, (t.drive k).mem.get a = (s.drive k).mem.get a

/-- What the end of SLEEP leaves beyond the firmware, which boots (R36, R66, R376, R452): the device is settled in STANDBY; DRAM is at FS0; the
Collimator keeps its time when COLL.CTRL.SLEEP_KEEP is 1; engines whose domain comes up hold what their settings give; registers that SLEEP
did not switch off, the queues, the settings, the reels and the command table are as before. -/
def State.WokenFrom (s t : State) : Prop :=
  t = { s with
      regs := t.regs, ctl := { s.ctl with mode := .standby, phase := .settled, latches := t.ctl.latches }, fw := t.fw, seed := t.seed
      time := t.time, coll := t.coll, aud := t.aud, loupe := t.loupe, flows := t.flows, mirror := t.mirror, fstore := t.fstore
      drdec := t.drdec, hdec := t.hdec, portA := t.portA, portB := t.portB, cond := { s.cond with parked := t.cond.parked }
      relay := { s.relay with descs := t.relay.descs }, pwr := { s.pwr with held := t.pwr.held, rising := t.pwr.rising }
      dramc := { s.dramc with change := none, started := false, held := none, gather := none, next := 0 } }
    ∧ (s.on Pg.coll Reg.COLL_CTRL_SLEEP_KEEP = true → t.time = s.time ∧ t.coll = s.coll)
    ∧ (∀ a, s.sleepsOff (a / 0x1000 % 1024) = false →
        a / 0x1000 % 1024 ∉ [Pg.global, Pg.pwr, Pg.coll, Pg.dramctl] ++ pagesOf Pg.dram 8 → t.rd a = s.rd a)
    ∧ s.KeepsStores t

/-- Bytes that follow the tail of the open reel, after those that fill no logical block yet, lie in the reel's extent (R330, R473). -/
def State.InExtent (s : State) (n : Nat) : Prop := s.reel.tail - s.reel.part.length + (s.reel.part.length + n) ≤ s.reel.size

/-- What the Recorder may change as it goes on with complete groups (R329, R330, R335, R337, R473): its reel and its drops, the Writes issued to
the drives, buffers of records, streams and renditions given up, and commands that a failed reel ends. -/
def State.RecorderOnly (s t : State) : Prop :=
  t = { s.regsOf t with
      seed := t.seed, henc := t.henc, draw := { s.draw with bufs := t.draw.bufs }, split := { s.split with holds := t.split.holds }
      media := { s.media with drives := t.media.drives, reel := t.media.reel, drops := t.media.drops, dropTotal := t.media.dropTotal }
      hq := { s.hq with
        cmds := t.hq.cmds, ghosts := t.hq.ghosts, errors := t.hq.errors, errCount0 := t.hq.errCount0, errCount1 := t.hq.errCount1 } }
    ∧ (∀ k, t.stream k = { s.stream k with bufs := (t.stream k).bufs })
    ∧ s.KeepsPages t ([Pg.recorder, Pg.guard, Pg.security] ++ pagesOf Pg.media 2)

/-! ### When a queue command runs -/

/-- A tag holds a fetched command with an opcode, which may start now with `len` bytes of its namespace (R294, R295). -/
def State.mayRun (s : State) (tag op : Nat) (len : Cmd → State → Nat := fun _ _ => 0) : Prop :=
  let c := s.hq.cmds.get tag
  c.live = true ∧ c.stage = .waiting ∧ c.op = op ∧ s.mayStart c (len c s) = true

/-- A tag holds a fetched command with an opcode, which may start now, whose fields pass their checks, and the firmware holds an image
(R292, R294, R295, R458). -/
def State.starts (s : State) (tag op : Nat) (bad : Cmd → State → Option Nat := fun _ _ => none)
    (len : Cmd → State → Nat := fun _ _ => 0) : Prop :=
  s.mayRun tag op len ∧ bad (s.hq.cmds.get tag) s = none ∧ s.noImage = false

/-- A command has passed its commit point with a status, a RESULT and a detail byte: its completion waits to be posted (R287, R297). -/
def State.completed (t : State) (tag status result detail : Nat) : Prop :=
  let c := t.hq.cmds.get tag
  c.live = true ∧ c.stage = .done ∧ c.status = status ∧ c.result = result ∧ c.detail = detail

/-- The command with a number, while it is outstanding, completes with a status, a RESULT and a detail byte. An ARRAY LEASE, whose RESULT is
its own (R496), is none that an engine completes. -/
def State.ends (s t : State) (uid status result detail : Nat) : Prop :=
  ∀ tag, s.tagOf uid = some tag → (s.hq.cmds.get tag).live = true → (s.hq.cmds.get tag).uid = uid →
    (s.hq.cmds.get tag).stage ≠ .done → (s.hq.cmds.get tag).op ≠ 0x28 → t.completed tag status result detail

/-- No two tags hold outstanding commands with one number. -/
def State.NumbersUnique (s : State) : Prop :=
  ∀ e ∈ s.hq.cmds, ∀ e' ∈ s.hq.cmds, e.2.live = true → e'.2.live = true → e.2.uid = e'.2.uid → e.1 = e'.1

/-- The numbers of commands are unique, and none lies above the newest that was given. -/
def State.NumbersOk (s : State) : Prop := s.NumbersUnique ∧ ∀ e ∈ s.hq.cmds, e.2.uid ≤ s.hq.uidSeq

/-- A tag holds a SET MODE that asks for a mode and whose fields pass their checks, with these buffers (R292, R304). -/
def State.asksMode (s : State) (tag : Nat) (h : HostData) (target : Mode) (bufs : List (Nat × Nat)) : Prop :=
  let c := s.hq.cmds.get tag
  s.starts tag 0x10 (badSetMode h) ∧ modeOf (c.cdw 8 % 8) = some target ∧ s.buffers c h true = .ok bufs ∧ s.NumbersUnique

/-- Every other tag of the command table holds what it held. -/
def State.OnlyTag (s t : State) (tag : Nat) : Prop := ∀ g, g ≠ tag → t.hq.cmds.get g = s.hq.cmds.get g

/-- The queues of the host after one command that an engine completed by its number with status 0: its entry of the command table alone has
changed. -/
def State.EndsOk (s t : State) (tag : Nat) : Prop :=
  t.completed tag 0 0 0 ∧ s.OnlyTag t tag
    ∧ t.hq = { s.hq with
        cmds := t.hq.cmds, ghosts := s.hq.ghosts.filter fun x => decide (x.uid ≠ (s.hq.cmds.get tag).uid), dbErrHeld := t.hq.dbErrHeld }

/-- A command has completed with status 0 and a RESULT, and no other command with it. -/
def State.Done (s t : State) (tag result : Nat) : Prop := t.completed tag 0 result 0 ∧ s.OnlyTag t tag

/-- What a failed command leaves (R291, R308): its completion with the status and RESULT 0, and the newest entry of the error log, which names
it; nothing else changes. -/
def State.Failed (s t : State) (tag status : Nat) : Prop :=
  t.completed tag status 0 0 ∧ s.OnlyTag t tag
    ∧ (∃ e, t.hq.errors.head? = some e ∧ e.status = status ∧ e.tag = tag ∧ e.fn = (s.hq.cmds.get tag).fn
      ∧ e.cid = (s.hq.cmds.get tag).cid)
    ∧ t = { s with hq := { s.hq with
        cmds := t.hq.cmds, errors := t.hq.errors, errCount0 := t.hq.errCount0, errCount1 := t.hq.errCount1 } }

/-- What a command leaves whose buffer, list or queue the windows do not cover (R301, R470): its completion with status 0x11, WIN_DENY raised and
counted, and the newest entry of the error log; nothing else changes. -/
def State.WindowDenied (s t : State) (tag : Nat) : Prop :=
  t.completed tag 0x11 0 0 ∧ s.OnlyTag t tag ∧ t.fld Pg.guard Reg.GUARD_EVENT_WIN_DENY = 1
    ∧ t.fld Pg.guard Reg.GUARD_WIN_DENY_COUNT = min (s.fld Pg.guard Reg.GUARD_WIN_DENY_COUNT + 1) (2 ^ 32 - 1)
    ∧ t = { s.regsOf t with hq := { s.hq with
        cmds := t.hq.cmds, errors := t.hq.errors, errCount0 := t.hq.errCount0, errCount1 := t.hq.errCount1 } }
    ∧ s.KeepsRegs t [keyOf Reg.GUARD_EVENT_WIN_DENY Pg.guard, keyOf Reg.GUARD_WIN_DENY_COUNT Pg.guard]

/-- What the deletion of every queue of a function leaves (R278): none of its queues lives and no command of it is outstanding; a command whose
effect has begun runs on without a completion, but for one of the Condenser, whose jobs go unless one runs; the queues and commands of the
other function stay. -/
def State.TornDown (s t : State) (fn : Fn) : Prop :=
  (∀ k, k / 64 = fnNum fn → t.hq.sqs.get k = default ∧ t.hq.cqs.get k = default)
    ∧ (∀ k, k / 64 ≠ fnNum fn → t.hq.sqs.get k = s.hq.sqs.get k ∧ t.hq.cqs.get k = s.hq.cqs.get k)
    ∧ (∀ g, (t.hq.cmds.get g).live = true → (t.hq.cmds.get g).fn ≠ fn)
    ∧ (∀ g, (s.hq.cmds.get g).fn ≠ fn → t.hq.cmds.get g = s.hq.cmds.get g)
    ∧ (∀ e ∈ s.hq.cmds, e.2.live = true → e.2.fn = fn → e.2.lingers = true → e.2 ∈ t.hq.ghosts)
    ∧ (s.on Pg.cond Reg.COND_STATE_BUSY = false → ∀ e ∈ s.hq.cmds, e.2.live = true → e.2.fn = fn →
        ∀ j ∈ t.cond.queue, j.cmd ≠ some e.2.uid)
    ∧ t.fld (hqPage fn) Reg.HOSTQ_AQ_CTRL_EN = 0 ∧ t.fld (hqPage fn) Reg.HOSTQ_AQ_CTRL_READY = 0

/-- The blocks whose block registers, at offsets from 0x040 upwards, all take plain writes. -/
def plainBlocks : List Blk :=
  [.rstore, .pwr, .therm, .ingress, .prismFe, .prismBe, .split, .draw, .drawctl, .henc, .iris, .media, .recorder, .loupe, .mirror, .sdi, .eth,
    .trig, .aud, .dram, .cluster, .array]

/-- What a bus error leaves (R44, R53, R54): BUS_ERROR is raised and COUNT goes up to its largest value; the first error since BUSERR_INFO was
read gives the address, the source and the direction; a read is aborted, and so is a firmware write that Relay does not make; no other
register, no memory and no engine changes. -/
def State.BusErrorOf (s t : State) (r : Req) (off : Nat) (write : Bool) : Prop :=
  t.fld Pg.global Reg.GLOBAL_EVENT_BUS_ERROR = 1
    ∧ t.fld Pg.global Reg.GLOBAL_BUSERR_INFO_COUNT = min (s.fld Pg.global Reg.GLOBAL_BUSERR_INFO_COUNT + 1) 65535
    ∧ t.ctl.busErrHeld = true
    ∧ (if s.ctl.busErrHeld = false then
        t.fld Pg.global Reg.GLOBAL_BUSERR_ADDR = off % 2 ^ 22
          ∧ t.fld Pg.global Reg.GLOBAL_BUSERR_INFO_SOURCE = reqCode r
          ∧ t.fld Pg.global Reg.GLOBAL_BUSERR_INFO_WRITE = if write then 1 else 0
      else
        t.fld Pg.global Reg.GLOBAL_BUSERR_ADDR = s.fld Pg.global Reg.GLOBAL_BUSERR_ADDR
          ∧ t.fld Pg.global Reg.GLOBAL_BUSERR_INFO_SOURCE = s.fld Pg.global Reg.GLOBAL_BUSERR_INFO_SOURCE
          ∧ t.fld Pg.global Reg.GLOBAL_BUSERR_INFO_WRITE = s.fld Pg.global Reg.GLOBAL_BUSERR_INFO_WRITE)
    ∧ t.out =
        (if write = false then .readAbort r off :: s.out else if r = .fw ∧ s.ctl.relayBeat = false then .writeAbort off :: s.out else s.out)
    ∧ s.KeepsRegs t
        [keyOf Reg.GLOBAL_EVENT_BUS_ERROR Pg.global, keyOf Reg.GLOBAL_BUSERR_ADDR Pg.global, keyOf Reg.GLOBAL_BUSERR_INFO_COUNT Pg.global]
    ∧ t = { s with
        regs := t.regs, out := t.out, ctl := { s.ctl with latches := t.ctl.latches, busErrHeld := true }
        hq := { s.hq with pci0 := t.hq.pci0, pci1 := t.hq.pci1 } }
    ∧ s.KeepsBytes t

/-- What STATE_REJECT leaves: the event is raised on a page, and nothing else changes (R35). -/
def State.Rejected (s t : State) (p : Nat) : Prop :=
  t.fld p Reg.COMMON_EVENT_STATE_REJECT = 1 ∧ s.Kept t [keyOf Reg.COMMON_EVENT_STATE_REJECT p]

end Sys2Proof.Machine
end

