-- ==== Sys2Proof/Certificates/Slice0/Obligations.lean ====
section
/-! DEFINITION. The statements about the model, one definition per statement. Each says for which states and operands a command completes, what
it leaves, and what it leaves unchanged. -/

open Sys2Proof Sys2Proof.Machine

/-! ### The queue, reset and the whole block -/

/-- A step takes the command at the front of the queue and acts with the queue's rest; on an empty queue one edge of TCLK passes. The model's own
choices in it: log entry 1. -/
def Obligations.StepRunsFront : Prop :=
  (∀ (s : State) (c : Instr) (rest : List Instr), s.pending = c :: rest → step s = exec c { s with pending := rest })
    ∧ ∀ s : State, s.pending = [] → step s = .next s.tick

/-- No command stops the block, and a command's effect is on everything but the queue: each one answers a next state, whatever its operands and
the state, and none adds to the commands that wait, removes one or reorders them. The model's own choices in it: log entry 4. -/
def Obligations.CommandsGoOn : Prop := ∀ (c : Instr) (s : State), ∃ t, exec c s = .next t ∧ t.pending = s.pending

/-- The state of reset has an empty queue, every register at its factory value, and its register file and memories in canonical form. The model's
own choices in it: log entries 5, 9, 10. -/
def Obligations.ResetKeepsForms : Prop :=
  State.reset.pending = [] ∧ (∀ a, State.reset.rd a = factoryWord a) ∧ State.reset.Inv

/-- Every step, whatever the command, keeps the register file, DRAM, the Filter Store and the control-cluster memory in canonical form. The
model's own choices in it: log entries 9, 10. -/
def Obligations.StepKeepsForms : Prop := ∀ s t : State, s.Inv → step s = .next t → t.Inv

/-- No two outstanding commands share a number, by which engines name the command to complete: every step keeps that. The model's own choices in
it: log entry 89. -/
def Obligations.NumbersStayUnique : Prop :=
  State.reset.NumbersOk ∧ ∀ s t : State, s.NumbersOk → step s = .next t → t.NumbersOk

/-- What commits take and where they go stays of their kind (R38, R75): bound groups hold pages other than GLOBAL, and a snapshot holds words of
shadow registers, at reset and after every step. The model's own choices in it: log entry 18. -/
def Obligations.CommitsStayShadows : Prop :=
  State.reset.CommitsOk ∧ ∀ s t : State, s.CommitsOk → step s = .next t → t.CommitsOk

/-! ### Registers, events and commits (R33 to R55, R75 to R77) -/

/-- REGISTER_WRITE (R33, R35, R36, R41, R42, R44, R47), of a block register of the blocks whose registers take plain writes: a write that passes
the checks stores the word that the access codes give; that of a _LO register waits in its holding register, and the write of the _HI register
above it updates both; nothing else changes. With partial byte enables, at an address that is not aligned, or where no register is implemented it
is a bus error, which raises BUS_ERROR, counts, and is recorded while BUSERR_INFO holds none; a write by PF1 to a register whose fields are all
privileged counts in PRV_DENY_COUNT and has no effect; a block register of a domain that is off, a write that touches a stopped-only field of a
running function, itself or through the word held for its _LO register, and a change of DRIVES while a reel is recovered raise STATE_REJECT alone;
a write that touches a locked bit counts and raises LOCK_VIOLATION alone. The model's own choices in it: log entries 11, 13, 14, 94. -/
def Obligations.RegisterWrites : Prop :=
  (∀ (s : State) (r : Req) (p o : Nat) (v : Word) (b : Blk) (i : Nat),
    pageBlk p = some (b, i) → b ∈ plainBlocks → 0x040 ≤ o → o < 0x1000 → o % 4 = 0 → s.accepts r p o v = true →
    (s.recovering.isSome && drivesChange p o (s.rd (p * 0x1000 + o)) (s.written r p o v)) = false →
    ∃ t, exec (.registerWrite r (p * 0x1000 + o) 15 v) s = .next t
      ∧ (isLo p o = true → t.held (p * 0x1000 + o) = some (s.written r p o v) ∧ ∀ a, t.rd a = s.rd a)
      ∧ (isLo p o = false →
          t.rd (p * 0x1000 + o) = s.written r p o v
          ∧ (isLo p (o - 4) = true → ∀ l, s.held (p * 0x1000 + o - 4) = some l → t.rd (p * 0x1000 + o - 4) = l)
          ∧ (isLo p (o - 4) = true → s.held (p * 0x1000 + o - 4) = none → t.rd (p * 0x1000 + o - 4) = s.rd (p * 0x1000 + o - 4))
          ∧ ∀ a, a ≠ p * 0x1000 + o → (isLo p (o - 4) = true → a ≠ p * 0x1000 + o - 4) → t.rd a = s.rd a)
      ∧ t = { s with regs := t.regs, ctl := { s.ctl with loHold := t.ctl.loHold } }
      ∧ s.KeepsBytes t)
  ∧ (∀ (s : State) (r : Req) (off be : Nat) (v : Word), off < 0x400000 → s.reach r = true → (be % 16 ≠ 15 ∨ off % 4 ≠ 0) →
    ∃ t, exec (.registerWrite r off be v) s = .next t ∧ s.BusErrorOf t r off true)
  ∧ (∀ (s : State) (r : Req) (p o : Nat) (v : Word), p < 0x400 → 0x028 ≤ o → o < 0x1000 → o % 4 = 0 → s.reach r = true →
    fieldsAt p o = none →
    ∃ t, exec (.registerWrite r (p * 0x1000 + o) 15 v) s = .next t ∧ s.BusErrorOf t r (p * 0x1000 + o) true)
  ∧ (∀ (s : State) (p o : Nat) (v : Word) (b : Blk) (i : Nat) (fs : List FieldSpec), pageBlk p = some (b, i) → b ∈ plainBlocks → 0x040 ≤ o →
    o < 0x1000 → o % 4 = 0 → s.reach .pf1 = true → fieldsAt p o = some fs → (∀ f ∈ fs, f.prv = true) → denies p o fs v = true →
    ∃ t, exec (.registerWrite .pf1 (p * 0x1000 + o) 15 v) s = .next t
      ∧ t.fld Pg.guard Reg.GUARD_PRV_DENY_COUNT = min (s.fld Pg.guard Reg.GUARD_PRV_DENY_COUNT + 1) (2 ^ 32 - 1)
      ∧ s.Kept t [keyOf Reg.GUARD_PRV_DENY_COUNT Pg.guard])
  ∧ (∀ (s : State) (r : Req) (p o : Nat) (v : Word) (b : Blk) (i : Nat) (fs : List FieldSpec), pageBlk p = some (b, i) → b ∈ plainBlocks →
    0x040 ≤ o → o < 0x1000 → o % 4 = 0 → r ≠ .pf1 → s.reach r = true → fieldsAt p o = some fs → fs ≠ [] → s.domainOff p = true →
    ∃ t, exec (.registerWrite r (p * 0x1000 + o) 15 v) s = .next t ∧ s.Rejected t p)
  ∧ (∀ (s : State) (r : Req) (p o : Nat) (v : Word) (b : Blk) (i : Nat) (fs : List FieldSpec), pageBlk p = some (b, i) → b ∈ plainBlocks →
    b ≠ .therm → 0x040 ≤ o → o < 0x1000 → o % 4 = 0 → r ≠ .pf1 → s.reach r = true → fieldsAt p o = some fs → s.domainOff p = false →
    (∀ f ∈ fs, f.kind ≠ .w1) → writeMask fs v ≠ 0 →
    (∃ f ∈ fs, f.touchSo (s.rd (p * 0x1000 + o)) v = true ∧ s.soClosed p o f = true) ∨ s.heldClosed (p * 0x1000 + o) p o = true →
    ∃ t, exec (.registerWrite r (p * 0x1000 + o) 15 v) s = .next t ∧ s.Rejected t p)
  ∧ (∀ (s : State) (r : Req) (v : Word), s.accepts r Pg.recorder 0x040 v = true → s.recovering.isSome = true →
    wfld (s.rd (Pg.recorder * 0x1000 + 0x040)) Reg.RECORDER_CFG_DRIVES ≠ wfld (s.written r Pg.recorder 0x040 v) Reg.RECORDER_CFG_DRIVES →
    ∃ t, exec (.registerWrite r (Pg.recorder * 0x1000 + 0x040) 15 v) s = .next t ∧ s.Rejected t Pg.recorder)
  ∧ ∀ (s : State) (r : Req) (o : Nat) (v : Word) (fs : List FieldSpec), o = 0x048 ∨ o = 0x04C ∨ o = 0x050 → r ≠ .pf1 → s.reach r = true →
    s.domainOff Pg.therm = false → fieldsAt Pg.therm o = some fs → writeMask fs v ≠ 0 → (s.rd (Pg.therm * 0x1000 + 0x020)).getLsbD 0 = true →
    ∃ t, exec (.registerWrite r (Pg.therm * 0x1000 + o) 15 v) s = .next t
      ∧ t.fld Pg.guard Reg.GUARD_EVENT_LOCK_VIOLATION = 1
      ∧ t.fld Pg.guard Reg.GUARD_LOCK_VIOL_COUNT = min (s.fld Pg.guard Reg.GUARD_LOCK_VIOL_COUNT + 1) (2 ^ 32 - 1)
      ∧ s.Kept t [keyOf Reg.GUARD_EVENT_LOCK_VIOLATION Pg.guard, keyOf Reg.GUARD_LOCK_VIOL_COUNT Pg.guard]

/-- EVENT_READ (R51): a read of EVENT clears the bits that it returns as 1 only when it comes from the function named in the page's routing entry,
or from PF0 while the route is disabled; reads from the other function and by firmware return the bits and clear none. -/
def Obligations.EventReadClears : Prop :=
  ∀ (s : State) (r : Req) (p : Nat) (fs : List FieldSpec), s.reach r = true → fieldsAt p 0x010 = some fs →
    ∃ t, exec (.eventRead r p 15) s = .next t
      ∧ t.out = .regRead r (p * 0x1000 + 0x010) (s.rd (p * 0x1000 + 0x010) &&& maskOf (visible r fs) (fun _ => true)) :: s.out
      ∧ (r = .fw → t.rd (p * 0x1000 + 0x010) = s.rd (p * 0x1000 + 0x010))
      ∧ (∀ fn : Fn, r = fnReq fn → 128 ≤ s.route p → s.route p / 64 % 2 ≠ fnNum fn →
          t.rd (p * 0x1000 + 0x010) = s.rd (p * 0x1000 + 0x010))
      ∧ (∀ fn : Fn, r = fnReq fn → 128 ≤ s.route p → s.route p / 64 % 2 = fnNum fn →
          t.rd (p * 0x1000 + 0x010) = s.rd (p * 0x1000 + 0x010) &&& ~~~ maskOf (visible r fs) (fun f => decide (f.kind = .rc)))
      ∧ (r = .pf0 → s.route p < 128 →
          t.rd (p * 0x1000 + 0x010) = s.rd (p * 0x1000 + 0x010) &&& ~~~ maskOf (visible r fs) (fun f => decide (f.kind = .rc)))
      ∧ (r = .pf1 → s.route p < 128 → t.rd (p * 0x1000 + 0x010) = s.rd (p * 0x1000 + 0x010))
      ∧ t = { s with regs := t.regs, out := t.out } ∧ s.KeepsRegs t [p * 0x1000 + 0x010] ∧ s.KeepsBytes t

/-- BUSERR_INFO_READ (R33, R54): a read of BUSERR_INFO returns the first bus error and clears BUSERR_ADDR and BUSERR_INFO, so that the next bus
error is recorded as the first; the bits of BUSERR_INFO in bytes that are not enabled stay. A REGISTER_READ of BUSERR_ADDR clears nothing. The
model's own choices in it: log entries 15, 19, 94. -/
def Obligations.BusErrorRecord : Prop :=
  (∀ (s : State) (r : Req) (be : Nat), s.reach r = true → s.domainOff Pg.global = false →
    ∃ t, exec (.buserrInfoRead r be) s = .next t
      ∧ t.rd 0x204 = s.rd 0x204 &&& ~~~ (0x00FFFF07 &&& byteMask be)
      ∧ (be % 16 ≠ 0 → t.fld Pg.global Reg.GLOBAL_BUSERR_ADDR = 0)
      ∧ (be % 16 = 0 → t.fld Pg.global Reg.GLOBAL_BUSERR_ADDR = s.fld Pg.global Reg.GLOBAL_BUSERR_ADDR)
      ∧ (be % 16 = 15 → t.fld Pg.global Reg.GLOBAL_BUSERR_INFO_COUNT = 0 ∧ t.fld Pg.global Reg.GLOBAL_BUSERR_INFO_SOURCE = 0
          ∧ t.fld Pg.global Reg.GLOBAL_BUSERR_INFO_WRITE = 0)
      ∧ t.out = .regRead r 0x204 (s.rd 0x204 &&& 0x00FFFF07) :: s.out
      ∧ t = { s with regs := t.regs, out := t.out
                     ctl := { s.ctl with busErrHeld := if be % 16 = 0 then s.ctl.busErrHeld else false } } ∧ s.KeepsRegs t [0x200, 0x204]
                     ∧ s.KeepsBytes t)
  ∧ ∀ (s : State) (r : Req) (be : Nat), s.reach r = true → s.domainOff Pg.global = false →
    ∃ t, exec (.registerRead r 0x200 be) s = .next t ∧ t.out = .regRead r 0x200 (s.rd 0x200 &&& 0x003FFFFF) :: s.out
      ∧ t = { s with out := t.out }

/-- REGISTER_READ of GLOBAL.EVENT_SUMMARY (R49): a summary bit is 1 exactly while EVENT and EVENT_EN of its page share a set bit. The read changes
nothing. -/
def Obligations.SummaryBits : Prop :=
  ∀ (s : State) (r : Req) (m be : Nat), m < 8 → s.reach r = true → s.domainOff Pg.global = false →
    ∃ t w, exec (.registerRead r (0x080 + 4 * m) be) s = .next t ∧ t.out = .regRead r (0x080 + 4 * m) w :: s.out
      ∧ (∀ i, i < 32 → w.getLsbD i = decide (s.rd ((32 * m + i) * 0x1000 + 0x010) &&& s.rd ((32 * m + i) * 0x1000 + 0x014) ≠ 0))
      ∧ t = { s with out := t.out }

/-- EVENT_TEST, VEC_REARM, MSIX_SEND and MSIX_CREDIT_REFILL (R35, R52, R472): EVENT_TEST sets the matching implemented bits of EVENT; VEC_REARM
sets the pending latch of the writing function's vector while the OR of its summary bits is 1; a latched vector that is not masked sends one
message with the address and data of its table entry, which takes one credit and clears the latch; without a credit the message waits and
MSIX_THROTTLE is raised; a masked vector or function sends none; a refill adds RATE up to BURST. The model's own choices in it: log entry 15. -/
def Obligations.EventsAndMessages : Prop :=
  (∀ (s : State) (r : Req) (p : Nat) (v : Word) (fs : List FieldSpec), fieldsAt p 0x010 = some fs → s.accepts r p 0x018 v = true →
    ∃ t, exec (.eventTest r p v) s = .next t
      ∧ t.rd (p * 0x1000 + 0x010) = s.rd (p * 0x1000 + 0x010) ||| (v &&& maskOf fs (fun _ => true))
      ∧ s.Kept t [p * 0x1000 + 0x010])
  ∧ (∀ (s : State) (fn : Fn) (v : Word), s.accepts (fnReq fn) Pg.global 0x0A0 v = true →
    ∃ t, exec (.vecRearm (fnReq fn) v) s = .next t
      ∧ t = (if s.vecOr (128 + fnNum fn * 64 + wfld v Reg.GLOBAL_VEC_REARM) then s.latch (fnNum fn * 64 + wfld v Reg.GLOBAL_VEC_REARM) else s))
  ∧ (∀ (s : State) (fn : Fn) (vec : Nat), s.ctl.latches.contains (fnNum fn * 64 + vec) = true →
    (s.msixWord fn (4 * vec + 3)).testBit 0 = false → (s.pciFn fn).msixOpen = true → 0 < s.credit fn →
    ∃ t, exec (.msixSend fn vec) s = .next t
      ∧ t.out = .msix fn vec (s.msixWord fn (4 * vec) + 2 ^ 32 * s.msixWord fn (4 * vec + 1)) (s.msixWord fn (4 * vec + 2)) :: s.out
      ∧ t.credit fn + 1 = s.credit fn ∧ t.ctl.latches.contains (fnNum fn * 64 + vec) = false
      ∧ (∀ k, k ≠ fnNum fn * 64 + vec → (t.ctl.latches.contains k = s.ctl.latches.contains k))
      ∧ t = { s with ctl := t.ctl, out := t.out } ∧ s.KeepsBytes t)
  ∧ (∀ (s : State) (fn : Fn) (vec : Nat), s.ctl.latches.contains (fnNum fn * 64 + vec) = true →
    (s.msixWord fn (4 * vec + 3)).testBit 0 = false → (s.pciFn fn).msixOpen = true → s.credit fn = 0 →
    s.ctl.throttled.contains (fnNum fn * 64 + vec) = false →
    ∃ t, exec (.msixSend fn vec) s = .next t ∧ t.out = s.out ∧ t.ctl.latches.contains (fnNum fn * 64 + vec) = true
      ∧ t.fld Pg.guard Reg.GUARD_EVENT_MSIX_THROTTLE = 1
      ∧ t = { s with regs := t.regs, ctl := t.ctl } ∧ s.KeepsRegs t [keyOf Reg.GUARD_EVENT_MSIX_THROTTLE Pg.guard] ∧ s.KeepsBytes t)
  ∧ (∀ (s : State) (fn : Fn) (vec : Nat), (s.msixWord fn (4 * vec + 3)).testBit 0 = true ∨ (s.pciFn fn).msixOpen = false →
    exec (.msixSend fn vec) s = .next s)
  ∧ ∀ (s : State), 0 < s.fld Pg.guard Reg.GUARD_MSIX_CAP_RATE → 0 < s.fld Pg.guard Reg.GUARD_MSIX_CAP_BURST →
    ∃ t, exec .msixCreditRefill s = .next t
      ∧ t.credit .pf0 = min (s.fld Pg.guard Reg.GUARD_MSIX_CAP_BURST) (s.credit .pf0 + s.fld Pg.guard Reg.GUARD_MSIX_CAP_RATE)
      ∧ t.credit .pf1 = min (s.fld Pg.guard Reg.GUARD_MSIX_CAP_BURST) (s.credit .pf1 + s.fld Pg.guard Reg.GUARD_MSIX_CAP_RATE)
      ∧ t = { s with ctl := { s.ctl with credit0 := t.ctl.credit0, credit1 := t.ctl.credit1 } } ∧ s.KeepsBytes t

/-! ### Commits (R38 to R40, R75, R76) -/

/-- COMMIT_REQ and GLOBAL_COMMIT (R38 to R40, R75, R76, R81, R355): a request with PENDING at 0 takes a snapshot of every shadow register of the
page and sets PENDING; where it applies at once (immediately, or of a function that is stopped at its own boundary), the active copies take the
shadows, PENDING is 0 and COMMIT_DONE is raised; with PENDING at 1 it raises COMMIT_REJECT alone and the pending snapshot stays; a write that R40
or R81 forbids raises STATE_REJECT alone. GLOBAL_COMMIT, while a take or REVIEW runs, with an armed page, fewer than eight groups and COMMIT_FRAME
not before FRAME_NOW + 2, makes the armed pages one group for that frame; otherwise every bit that names a cause is set and COMMIT_REJECT is
raised, and no group is bound. The model's own choices in it: log entries 17, 18. -/
def Obligations.Commits : Prop :=
  (∀ (s : State) (r : Req) (p : Nat) (v : Word), p ≠ Pg.global → s.accepts r p 0x01C v = true → wfld v Reg.COMMON_COMMIT_REQ = 1 →
    s.fld p Reg.COMMON_COMMIT_PENDING = 0 →
    s.commitBarred p (wfld (s.written r p 0x01C v) Reg.COMMON_COMMIT_SOURCE) true = false →
    (s.setFld p Reg.COMMON_COMMIT_SOURCE (wfld (s.written r p 0x01C v) Reg.COMMON_COMMIT_SOURCE)).commitRefused p = none →
    (wfld (s.written r p 0x01C v) Reg.COMMON_COMMIT_SOURCE = 0 ∧ isLoupe p = false) ∨ s.running p = true →
    ∃ t, exec (.commitReq r p v) s = .next t
      ∧ t.fld p Reg.COMMON_COMMIT_PENDING = 1
      ∧ t.fld p Reg.COMMON_COMMIT_SOURCE = wfld (s.written r p 0x01C v) Reg.COMMON_COMMIT_SOURCE
      ∧ t.snapOf p = s.snapshot p ∧ (∀ q, q ≠ p → t.snapOf q = s.snapOf q)
      ∧ t = { s with regs := t.regs, ctl := { s.ctl with snaps := t.ctl.snaps } }
      ∧ s.KeepsRegs t [keyOf Reg.COMMON_COMMIT_PENDING p] ∧ s.KeepsBytes t)
  ∧ (∀ (s : State) (r : Req) (p : Nat) (v : Word), p ≠ Pg.global → s.accepts r p 0x01C v = true → wfld v Reg.COMMON_COMMIT_REQ = 1 →
    s.fld p Reg.COMMON_COMMIT_PENDING = 0 →
    s.commitBarred p (wfld (s.written r p 0x01C v) Reg.COMMON_COMMIT_SOURCE) true = false →
    (s.setFld p Reg.COMMON_COMMIT_SOURCE (wfld (s.written r p 0x01C v) Reg.COMMON_COMMIT_SOURCE)).commitRefused p = none →
    wfld (s.written r p 0x01C v) Reg.COMMON_COMMIT_SOURCE ≠ 0 ∨ isLoupe p = true → s.running p = false →
    ∃ t, exec (.commitReq r p v) s = .next t
      ∧ (∀ e ∈ s.snapshot p, t.rd (p * 0x1000 + e.1 + 0x400) = e.2)
      ∧ t.fld p Reg.COMMON_COMMIT_PENDING = 0 ∧ t.fld p Reg.COMMON_EVENT_COMMIT_DONE = 1
      ∧ (∀ q, q ≠ p → t.snapOf q = s.snapOf q)
      ∧ t = { s with regs := t.regs, rsm := t.rsm, ctl := { s.ctl with snaps := t.ctl.snaps, latches := t.ctl.latches } }
      ∧ s.KeepsPages t [p, Pg.fstore, Pg.rstore] ∧ s.KeepsBytes t)
  ∧ (∀ (s : State) (r : Req) (p : Nat) (v : Word), p ≠ Pg.global → s.accepts r p 0x01C v = true → wfld v Reg.COMMON_COMMIT_REQ = 1 →
    s.fld p Reg.COMMON_COMMIT_PENDING = 1 →
    s.commitBarred p (wfld (s.written r p 0x01C v) Reg.COMMON_COMMIT_SOURCE) true = false →
    ∃ t, exec (.commitReq r p v) s = .next t
      ∧ t.fld p Reg.COMMON_EVENT_COMMIT_REJECT = 1 ∧ t.snapOf p = s.snapOf p ∧ t.fld p Reg.COMMON_COMMIT_PENDING = 1
      ∧ s.Kept t [keyOf Reg.COMMON_EVENT_COMMIT_REJECT p])
  ∧ (∀ (s : State) (r : Req) (p : Nat) (v : Word), p ≠ Pg.global → s.accepts r p 0x01C v = true →
    s.commitBarred p (wfld (s.written r p 0x01C v) Reg.COMMON_COMMIT_SOURCE) (decide (wfld v Reg.COMMON_COMMIT_REQ = 1)) = true →
    ∃ t, exec (.commitReq r p v) s = .next t ∧ s.Rejected t p)
  ∧ (∀ (s : State) (r : Req) (v : Word), s.accepts r Pg.global 0x01C v = true → wfld v Reg.GLOBAL_COMMIT_REQ = 1 →
    s.takeOrReview = true → s.ctl.groups.length < 8 → allPages.filter s.armed ≠ [] →
    s.frameNow + 2 ≤ s.fld64 Pg.global Reg.GLOBAL_COMMIT_FRAME_LO Reg.GLOBAL_COMMIT_FRAME_HI →
    ∃ t, exec (.globalCommit r v) s = .next t
      ∧ t.ctl.groups = s.ctl.groups ++
          [(s.fld64 Pg.global Reg.GLOBAL_COMMIT_FRAME_LO Reg.GLOBAL_COMMIT_FRAME_HI, allPages.filter s.armed)]
      ∧ t.fld Pg.global Reg.GLOBAL_COMMIT_GROUPS = s.ctl.groups.length + 1 ∧ t.fld Pg.global Reg.GLOBAL_COMMIT_PENDING = 1
      ∧ t = { s with regs := t.regs, ctl := { s.ctl with groups := t.ctl.groups } }
      ∧ s.KeepsRegs t [keyOf Reg.GLOBAL_COMMIT_REQ Pg.global] ∧ s.KeepsBytes t)
  ∧ ∀ (s : State) (r : Req) (v : Word), s.accepts r Pg.global 0x01C v = true → wfld v Reg.GLOBAL_COMMIT_REQ = 1 →
    (s.takeOrReview = false ∨ 8 ≤ s.ctl.groups.length ∨ allPages.filter s.armed = []
      ∨ s.fld64 Pg.global Reg.GLOBAL_COMMIT_FRAME_LO Reg.GLOBAL_COMMIT_FRAME_HI < s.frameNow + 2) →
    ∃ t, exec (.globalCommit r v) s = .next t
      ∧ (s.takeOrReview = false → t.fld Pg.global Reg.GLOBAL_COMMIT_STOPPED = 1)
      ∧ (8 ≤ s.ctl.groups.length → t.fld Pg.global Reg.GLOBAL_COMMIT_FULL = 1)
      ∧ (allPages.filter s.armed = [] → t.fld Pg.global Reg.GLOBAL_COMMIT_NONE = 1)
      ∧ (s.fld64 Pg.global Reg.GLOBAL_COMMIT_FRAME_LO Reg.GLOBAL_COMMIT_FRAME_HI < s.frameNow + 2 →
          t.fld Pg.global Reg.GLOBAL_COMMIT_LATE = 1)
      ∧ t.fld Pg.global Reg.COMMON_EVENT_COMMIT_REJECT = 1
      ∧ s.Kept t [keyOf Reg.GLOBAL_COMMIT_REQ Pg.global, keyOf Reg.COMMON_EVENT_COMMIT_REJECT Pg.global]

/-! ### Resets and power-up (R55, R85 to R87, R465, R491, R516 to R519) -/

/-- DEVICE_RESET, POWER_ON_RESET, SUPPLY_MONITOR_RESET, WATCHDOG_EXPIRY, POR_RELEASE, TRIP_RELEASE, HOST_LINK_UP and RESTORE_DONE (R55, R85 to
R87, R465, R491, R516, R517, R519). Each has its effect in every state that meets the conditions named: a write of RESET_CTRL by PF0 with GO and
the key resets the device and the restore window begins, any other write has no effect; POR_N low and the supply monitor reset it until POR_N
rises; the watchdog of the only control side resets it, and with an idle side that holds an image in step, the idle side takes over. POR_N rising
samples the straps, counts the boot and begins the restore window; the trip's release begins it too; the host link trains again outside reset and
SLEEP; the end of the window leaves STANDBY with the settings of the newest valid bank, or factory settings with FACTORY_LOAD when there is none
or STRAP2 asks for them. The model's own choices in it: log entries 5, 6, 8. -/
def Obligations.Resets : Prop :=
  (∀ (s : State) (v : Word), s.accepts .pf0 Pg.global 0x210 v = true → wfld v Reg.GLOBAL_RESET_CTRL_GO = 1 →
    wfld v Reg.GLOBAL_RESET_CTRL_KEY = 0x4B5A → ∃ t, exec (.deviceReset .pf0 v) s = .next t ∧ s.ResetOf t 2 .restoring false)
  ∧ (∀ (s : State) (r : Req) (v : Word), s.accepts r Pg.global 0x210 v = true →
    ¬ (r = .pf0 ∧ wfld v Reg.GLOBAL_RESET_CTRL_GO = 1 ∧ wfld v Reg.GLOBAL_RESET_CTRL_KEY = 0x4B5A) →
    exec (.deviceReset r v) s = .next s)
  ∧ (∀ s : State, ∃ t, exec .powerOnReset s = .next t ∧ s.ResetOf t 1 .inReset false)
  ∧ (∀ s : State, ∃ t, exec .supplyMonitorReset s = .next t ∧ s.ResetOf t 1 .inReset false)
  ∧ (∀ s : State, s.fwRuns = true → s.fw.running = none →
    (s.idleReady = false → ∃ t, exec .watchdogExpiry s = .next t ∧ s.ResetOf t 4 .restoring false)
      ∧ (s.idleReady = true → s.ctl.capRun = true → exec .watchdogExpiry s = .next { s with fw := { s.fw with failover := true } })
      ∧ (s.idleReady = true → s.ctl.capRun = false →
          ∃ t, exec .watchdogExpiry s = .next t ∧ t.fld Pg.cluster Reg.CLUSTER_STATE_ACTIVE + s.fld Pg.cluster Reg.CLUSTER_STATE_ACTIVE = 1
            ∧ t.fw.failover = false ∧ t = { s.regsOf t with fw := t.fw, hq := t.hq }
            ∧ (∀ a, a / 0x1000 % 1024 ≠ Pg.cluster → a ≠ keyOf Reg.GLOBAL_FW_BUILD Pg.global → t.rd a = s.rd a) ∧ s.KeepsBytes t))
  ∧ (∀ (s : State) (n : Nat), s.ctl.phase = .inReset → s.ctl.tripHold = false →
    ∃ t, exec (.porRelease n) s = .next t
      ∧ t.fld Pg.global Reg.GLOBAL_RESET_CAUSE = 1
      ∧ t.fld64 Pg.security Reg.SECURITY_BOOT_COUNT_LO Reg.SECURITY_BOOT_COUNT_HI =
          (s.fld64 Pg.security Reg.SECURITY_BOOT_COUNT_LO Reg.SECURITY_BOOT_COUNT_HI + 1) % 2 ^ 64
      ∧ t = { s with regs := t.regs, ctl := { s.ctl with straps := n % 16, phase := .restoring } }
      ∧ s.KeepsRegs t [keyOf Reg.GLOBAL_RESET_CAUSE Pg.global, keyOf Reg.SECURITY_BOOT_COUNT_LO Pg.security,
          keyOf Reg.SECURITY_BOOT_COUNT_HI Pg.security] ∧ s.KeepsBytes t)
  ∧ (∀ s : State, s.ctl.tripHold = true → exec .tripRelease s = .next { s with ctl := { s.ctl with tripHold := false, phase := .restoring } })
  ∧ (∀ s : State, s.ctl.phase ≠ .inReset → s.ctl.mode ≠ .sleep →
    exec .hostLinkUp s = .next { s with ctl := { s.ctl with linkUp := true } })
  ∧ ∀ s : State, s.ctl.phase = .restoring →
    ∃ t, exec .restoreDone s = .next t
      ∧ (t.fld Pg.rstore Reg.RSTORE_SAVE_CFG_BOOT_MODE ≠ 1 → t.ctl.mode = .standby ∧ t.ctl.phase = .settled
          ∧ t.fld Pg.global Reg.GLOBAL_STATE_MODE = 0)
      ∧ (s.ctl.straps.testBit 2 = true ∨ s.rsm.newest = none →
          t.fld Pg.global Reg.GLOBAL_STATE_FACTORY = 1 ∧ t.fld Pg.global Reg.GLOBAL_EVENT_FACTORY_LOAD = 1
            ∧ t.fld Pg.rstore Reg.RSTORE_STATUS_RESTORED = 2)
      ∧ (∀ i, s.ctl.straps.testBit 2 = false → s.rsm.newest = some i → t.fld Pg.rstore Reg.RSTORE_STATUS_RESTORED = i)
      ∧ t = { s.regsOf t with
          ctl := t.ctl, aud := t.aud, cond := t.cond, drdec := t.drdec, flows := t.flows, fstore := t.fstore, fw := t.fw, hdec := t.hdec
          loupe := t.loupe, mirror := t.mirror, out := t.out, portA := t.portA, portB := t.portB, pwr := t.pwr, relay := t.relay
          seed := t.seed }
      ∧ t.ctl.straps = s.ctl.straps ∧ s.KeepsStores t

/-! ### Retained settings (R82, R83, R88, R306) -/

/-- SAVE_SETTINGS, RSTORE_SAVE, RSTORE_ERASE and SAVE_DONE (R82, R83, R86, R88, R306): a save that starts captures every retained field into the
bank that does not hold the newest valid image, with the next sequence number; while one runs, one more is held; a further one merges with it and
raises SAVE_COALESCED. ERASE in STANDBY or SERVICE invalidates both banks, and elsewhere it raises STATE_REJECT alone. A save that reads back as
written leaves its image in its bank, counts in SAVE_COUNT, clears FACTORY, raises SAVE_DONE and completes its command with the sequence number;
one that does not leaves no valid image there, counts in FAIL_COUNT, raises SAVE_FAIL and completes it with status 0x30. The held save starts
next. The model's own choices in it: log entry 95. -/
def Obligations.Saves : Prop :=
  (∀ (s : State) (tag : Nat), s.starts tag 0x11 →
    ∃ t, exec (.saveSettings tag) s = .next t
      ∧ (s.rsm.running = none →
          t.rsm = { s.rsm.setBank s.rsm.target [] with
            running := some (⟨1, [(s.hq.cmds.get tag).uid], none⟩, s.rsm.target, s.rsm.seq + 1, s.capture 1 (s.rsm.seq + 1)) }
          ∧ t.regs = s.regs)
      ∧ (s.rsm.running.isSome = true → s.rsm.held = none →
          t.rsm = { s.rsm with held := some ⟨1, [(s.hq.cmds.get tag).uid], none⟩ } ∧ t.regs = s.regs)
      ∧ (∀ h, s.rsm.running.isSome = true → s.rsm.held = some h →
          t.rsm = { s.rsm with held := some { h with cmds := h.cmds ++ [(s.hq.cmds.get tag).uid] } }
          ∧ t.fld Pg.rstore Reg.RSTORE_EVENT_SAVE_COALESCED = 1)
      ∧ (t.hq.cmds.get tag).stage = .running
      ∧ t = { s.regsOf t with hq := { s.hq with cmds := t.hq.cmds }, rsm := t.rsm }
      ∧ s.KeepsRegs t [keyOf Reg.RSTORE_EVENT_SAVE_COALESCED Pg.rstore] ∧ s.KeepsBytes t)
  ∧ (∀ (s : State) (r : Req) (v : Word), s.accepts r Pg.rstore 0x008 v = true → wmSet v Reg.RSTORE_CTRL_SAVE = true →
    wmSet v Reg.RSTORE_CTRL_ERASE = false →
    ∃ t, exec (.rstoreSave r v) s = .next t
      ∧ (s.rsm.running = none →
          t.rsm = { s.rsm.setBank s.rsm.target [] with
            running := some (⟨1, [], none⟩, s.rsm.target, s.rsm.seq + 1, ({ s with regs := t.regs } : State).capture 1 (s.rsm.seq + 1)) })
      ∧ (s.rsm.running.isSome = true → s.rsm.held = none → t.rsm = { s.rsm with held := some ⟨1, [], none⟩ })
      ∧ (∀ h, s.rsm.running.isSome = true → s.rsm.held = some h →
          t.rsm = s.rsm ∧ t.fld Pg.rstore Reg.RSTORE_EVENT_SAVE_COALESCED = 1)
      ∧ t = { s.regsOf t with rsm := t.rsm }
      ∧ s.KeepsRegs t [keyOf Reg.COMMON_CTRL_ENABLE Pg.rstore, keyOf Reg.RSTORE_EVENT_SAVE_COALESCED Pg.rstore] ∧ s.KeepsBytes t)
  ∧ (∀ (s : State) (r : Req) (v : Word), s.accepts r Pg.rstore 0x008 v = true → wmSet v Reg.RSTORE_CTRL_ERASE = true →
    wmSet v Reg.RSTORE_CTRL_SAVE = false → s.ctl.phase = .settled → s.ctl.mode = .standby ∨ s.ctl.mode = .service →
    ∃ t, exec (.rstoreErase r v) s = .next t ∧ t.rsm = { s.rsm with bank0 := [], bank1 := [] }
      ∧ t = { s with regs := t.regs, rsm := t.rsm } ∧ s.KeepsRegs t [keyOf Reg.COMMON_CTRL_ENABLE Pg.rstore] ∧ s.KeepsBytes t)
  ∧ (∀ (s : State) (r : Req) (v : Word), s.accepts r Pg.rstore 0x008 v = true → wmSet v Reg.RSTORE_CTRL_ERASE = true →
    s.quiet = false → ∃ t, exec (.rstoreErase r v) s = .next t ∧ s.Rejected t Pg.rstore)
  ∧ ∀ (s : State) (q : SaveReq) (b seq : Nat) (img : List Byte) (ok : Bool), s.rsm.running = some (q, b, seq, img) →
    ∃ t, exec (.saveDone ok) s = .next t
      ∧ (s.rsm.held = none → s.rsm.writes = [] → t.rsm = { (if ok then s.rsm.setBank b img else s.rsm) with running := none })
      ∧ (∀ h, s.rsm.held = some h →
          t.rsm.held = none ∧ ∃ b' seq' img', t.rsm.running = some (h, b', seq', img'))
      ∧ (ok = true →
          t.fld Pg.rstore Reg.RSTORE_SAVE_COUNT = min (s.fld Pg.rstore Reg.RSTORE_SAVE_COUNT + 1) (2 ^ 32 - 1)
            ∧ t.fld Pg.global Reg.GLOBAL_STATE_FACTORY = 0 ∧ t.fld Pg.rstore Reg.RSTORE_EVENT_SAVE_DONE = 1)
      ∧ (ok = false →
          t.fld Pg.rstore Reg.RSTORE_FAIL_COUNT = min (s.fld Pg.rstore Reg.RSTORE_FAIL_COUNT + 1) (2 ^ 16 - 1)
            ∧ t.fld Pg.rstore Reg.RSTORE_EVENT_SAVE_FAIL = 1)
      ∧ (∀ u, q.cmds = [u] → if ok then s.ends t u 0 (match q.image with | some i => i.length | none => seq % 2 ^ 32) 0 else s.ends t u 0x30 0 0)
      ∧ t = { s.regsOf t with hq := t.hq, rsm := t.rsm } ∧ s.KeepsPages t [Pg.rstore, Pg.global] ∧ s.KeepsBytes t

/-! ### Host queues (R278 to R303) -/

/-- AQ_ENABLE, DOORBELL, QUEUE_TEARDOWN, FUNCTION_LEVEL_RESET, BUS_MASTER_DISABLE and HOST_LINK_DOWN (R278, R280 to R282, R316): EN 1 with both
queues covered by the windows brings the admin queues of the writing function up; with a queue that is not covered it raises WIN_DENY and READY
stays; a doorbell moves the tail of a submission queue or the head of a completion queue, and one that names no live queue or an index beyond it
is ignored with DB_ERR and recorded if none is held. Each of the other four deletes every queue of its function, the link's loss those of both; a
Function Level Reset leaves the function's configuration as after reset but for its payload size, and the link's loss that of both; no register
but the queue registers of the function changes, and no memory. The model's own choices in it: log entries 15, 50. -/
def Obligations.QueuesBeginAndEnd : Prop :=
  (∀ (s : State) (r : Req) (v : Word) (fn : Fn) (asq acq sqn cqn : Nat), fn = (reqFn? r).getD .pf0 →
    s.accepts r Pg.hostq 0x058 v = true → wfld v Reg.HOSTQ_AQ_CTRL_EN = 1 → s.on (hqPage fn) Reg.HOSTQ_AQ_CTRL_EN = false →
    asq = 4096 * s.fld (hqPage fn) Reg.HOSTQ_ASQ_BASE_LO + 2 ^ 32 * s.fld (hqPage fn) Reg.HOSTQ_ASQ_BASE_HI →
    acq = 4096 * s.fld (hqPage fn) Reg.HOSTQ_ACQ_BASE_LO + 2 ^ 32 * s.fld (hqPage fn) Reg.HOSTQ_ACQ_BASE_HI →
    sqn = max 1 (s.fld (hqPage fn) Reg.HOSTQ_AQ_CFG_ASQS) + 1 → cqn = max 1 (s.fld (hqPage fn) Reg.HOSTQ_AQ_CFG_ACQS) + 1 →
    ∃ t, exec (.aqEnable r v) s = .next t
      ∧ t.fld (hqPage fn) Reg.HOSTQ_AQ_CTRL_EN = 1
      ∧ (s.windowOk fn asq (64 * sqn) false = true → s.windowOk fn acq (16 * cqn) true = true →
          t.fld (hqPage fn) Reg.HOSTQ_AQ_CTRL_READY = 1
            ∧ t.hq.sqs.get (qkey fn 0) = { live := true, base := asq, size := sqn }
            ∧ t.hq.cqs.get (qkey fn 0) = { live := true, base := acq, size := cqn, phase := true, ien := true, cnt := 1 })
      ∧ (s.windowOk fn asq (64 * sqn) false = false ∨ s.windowOk fn acq (16 * cqn) true = false →
          t.fld Pg.guard Reg.GUARD_EVENT_WIN_DENY = 1 ∧ t.hq = s.hq
            ∧ t.fld (hqPage fn) Reg.HOSTQ_AQ_CTRL_READY = s.fld (hqPage fn) Reg.HOSTQ_AQ_CTRL_READY)
      ∧ (∀ k, k ≠ qkey fn 0 → t.hq.sqs.get k = s.hq.sqs.get k ∧ t.hq.cqs.get k = s.hq.cqs.get k)
      ∧ t = { s.regsOf t with hq := { s.hq with sqs := t.hq.sqs, cqs := t.hq.cqs } }
      ∧ s.KeepsRegs t [keyOf Reg.HOSTQ_AQ_CTRL_EN (hqPage fn), keyOf Reg.GUARD_EVENT_WIN_DENY Pg.guard] ∧ s.KeepsBytes t)
  ∧ (∀ (s : State) (r : Req) (v : Word) (fn : Fn) (k n : Nat), fn = (reqFn? r).getD .pf0 → k = qkey fn (wfld v Reg.HOSTQ_DOORBELL_QID) →
    s.accepts r Pg.hostq 0x040 v = true → wfld v Reg.HOSTQ_DOORBELL_HEAD = 0 → (s.hq.sqs.get k).live = true →
    wfld v Reg.HOSTQ_DOORBELL_INDEX < (s.hq.sqs.get k).size → (s.hq.sqs.get k).tail < (s.hq.sqs.get k).size →
    n = (wfld v Reg.HOSTQ_DOORBELL_INDEX + (s.hq.sqs.get k).size - (s.hq.sqs.get k).tail) % (s.hq.sqs.get k).size →
    ∃ t, exec (.doorbell r v) s = .next t
      ∧ (t.hq.sqs.get k).tail = wfld v Reg.HOSTQ_DOORBELL_INDEX ∧ (t.hq.sqs.get k).head = (s.hq.sqs.get k).head
      ∧ (∃ l, t.hq.avail = s.hq.avail ++ l ∧ l.length = n ∧ ∀ e ∈ l, e.1 = k)
      ∧ (∀ j, j ≠ k → t.hq.sqs.get j = s.hq.sqs.get j)
      ∧ t = { s with hq := { s.hq with sqs := t.hq.sqs, avail := t.hq.avail, dbSeq := t.hq.dbSeq } })
  ∧ (∀ (s : State) (r : Req) (v : Word) (fn : Fn) (k : Nat) (q : Cq), fn = (reqFn? r).getD .pf0 →
    k = qkey fn (wfld v Reg.HOSTQ_DOORBELL_QID) → q = s.hq.cqs.get k →
    s.accepts r Pg.hostq 0x040 v = true → wfld v Reg.HOSTQ_DOORBELL_HEAD = 1 → q.live = true → wfld v Reg.HOSTQ_DOORBELL_INDEX < q.size →
    (wfld v Reg.HOSTQ_DOORBELL_INDEX + q.size - q.head) % q.size ≤ (q.tail + q.size - q.head) % q.size →
    ∃ t, exec (.doorbell r v) s = .next t
      ∧ t.hq.cqs.get k = { q with
          head := wfld v Reg.HOSTQ_DOORBELL_INDEX, held := q.held && decide (wfld v Reg.HOSTQ_DOORBELL_INDEX = q.head) }
      ∧ (∀ j, j ≠ k → t.hq.cqs.get j = s.hq.cqs.get j) ∧ t = { s with hq := { s.hq with cqs := t.hq.cqs } })
  ∧ (∀ (s : State) (r : Req) (v : Word) (fn : Fn) (k : Nat), fn = (reqFn? r).getD .pf0 → k = qkey fn (wfld v Reg.HOSTQ_DOORBELL_QID) →
    s.accepts r Pg.hostq 0x040 v = true →
    (if wfld v Reg.HOSTQ_DOORBELL_HEAD = 1 then (s.hq.cqs.get k).live = false ∨ (s.hq.cqs.get k).size ≤ wfld v Reg.HOSTQ_DOORBELL_INDEX
      else (s.hq.sqs.get k).live = false ∨ (s.hq.sqs.get k).size ≤ wfld v Reg.HOSTQ_DOORBELL_INDEX) →
    ∃ t, exec (.doorbell r v) s = .next t
      ∧ t.fld Pg.hostq Reg.HOSTQ_EVENT_DB_ERR = 1
      ∧ (s.hq.dbErrHeld = false → t.fld Pg.hostq Reg.HOSTQ_DB_ERR_INFO_VALUE = Word.bits v 0 19
          ∧ t.fld Pg.hostq Reg.HOSTQ_DB_ERR_INFO_FUNC = fnNum fn)
      ∧ (s.hq.dbErrHeld = true → t.fld Pg.hostq Reg.HOSTQ_DB_ERR_INFO_VALUE = s.fld Pg.hostq Reg.HOSTQ_DB_ERR_INFO_VALUE)
      ∧ t = { s.regsOf t with hq := { s.hq with dbErrHeld := true } }
      ∧ s.KeepsRegs t [keyOf Reg.HOSTQ_EVENT_DB_ERR Pg.hostq, keyOf Reg.HOSTQ_DB_ERR_INFO_VALUE Pg.hostq] ∧ s.KeepsBytes t)
  ∧ (∀ (s : State) (r : Req) (v : Word) (fn : Fn), fn = (reqFn? r).getD .pf0 → s.accepts r Pg.hostq 0x058 v = true →
    wfld v Reg.HOSTQ_AQ_CTRL_EN = 0 →
    ∃ t, exec (.queueTeardown r v) s = .next t ∧ s.TornDown t fn
      ∧ t = { s with regs := t.regs, hq := t.hq, cond := { s.cond with queue := t.cond.queue } }
      ∧ s.KeepsRegs t [keyOf Reg.HOSTQ_AQ_CTRL_EN (hqPage fn), keyOf Reg.HOSTQ_SQ_FAULT_LO (hqPage fn),
          keyOf Reg.HOSTQ_SQ_FAULT_HI (hqPage fn)] ∧ s.KeepsBytes t)
  ∧ (∀ (s : State) (fn : Fn),
    ∃ t, exec (.functionLevelReset fn) s = .next t ∧ s.TornDown t fn
      ∧ t.pciFn fn = { mps := (s.pciFn fn).mps } ∧ (∀ i, i < 1024 → t.msixWord fn i = if i % 4 = 3 then 1 else 0)
      ∧ (∀ g, g ≠ fn → t.pciFn g = s.pciFn g ∧ ∀ i, i < 1024 → t.msixWord g i = s.msixWord g i)
      ∧ t = { s with regs := t.regs, hq := t.hq, cond := { s.cond with queue := t.cond.queue } }
      ∧ s.KeepsRegs t [keyOf Reg.HOSTQ_AQ_CTRL_EN (hqPage fn), keyOf Reg.HOSTQ_SQ_FAULT_LO (hqPage fn),
          keyOf Reg.HOSTQ_SQ_FAULT_HI (hqPage fn)] ∧ s.KeepsBytes t)
  ∧ (∀ (s : State) (fn : Fn),
    ∃ t, exec (.busMasterDisable fn) s = .next t ∧ s.TornDown t fn ∧ t.pciFn fn = { s.pciFn fn with master := false }
      ∧ (∀ g, g ≠ fn → t.pciFn g = s.pciFn g) ∧ t = { s with regs := t.regs, hq := t.hq, cond := { s.cond with queue := t.cond.queue } }
      ∧ s.KeepsRegs t [keyOf Reg.HOSTQ_AQ_CTRL_EN (hqPage fn), keyOf Reg.HOSTQ_SQ_FAULT_LO (hqPage fn),
          keyOf Reg.HOSTQ_SQ_FAULT_HI (hqPage fn)] ∧ s.KeepsBytes t)
  ∧ ∀ s : State, ∃ t, exec .hostLinkDown s = .next t
      ∧ (∀ k, k < 128 → t.hq.sqs.get k = default ∧ t.hq.cqs.get k = default) ∧ (∀ g, (t.hq.cmds.get g).live = false)
      ∧ (∀ fn, t.pciFn fn = {}) ∧ (∀ fn i, i < 1024 → t.msixWord fn i = if i % 4 = 3 then 1 else 0)
      ∧ t = { s with regs := t.regs, hq := t.hq, cond := { s.cond with queue := t.cond.queue }, ctl := { s.ctl with linkUp := false } }
      ∧ s.KeepsPages t [Pg.hostq] ∧ s.KeepsBytes t

/-- COMMAND_FETCH (R283, R285, R288, R292, R293, R303): the entry of the queue that arbitration chooses takes its free tag and the queue's head
moves on; an unknown opcode completes with status 0x01, a stale generation or a fence with 0x10, a field that is not allowed with 0x02, and any
other command waits to start; a failed read stops the queue with SQ_FAULT; with no tag free for the I/O queues that are ready, fetching pauses,
and TAGS_EXHAUSTED rises as the pause begins and not again while it lasts. The model's own choices in it: log entry 49. -/
def Obligations.CommandFetched : Prop :=
  (∀ (s : State) (tag k : Nat) (entry : List Byte), s.readyQueues.filter s.tagFor ≠ [] →
    k = (s.arbitrate (s.readyQueues.filter s.tagFor)).1 → tag < 16384 → (s.hq.cmds.get tag).live = false →
    s.tagKind k (adminTag tag) = true →
    ∃ t, exec (.commandFetch tag (some entry)) s = .next t
      ∧ (t.hq.cmds.get tag).live = true ∧ (t.hq.cmds.get tag).raw = padTo 64 entry ∧ (t.hq.cmds.get tag).sqid = k % 64
      ∧ (t.hq.cmds.get tag).fn = fnOf (k / 64) ∧ (t.hq.cmds.get tag).cid = leAt (padTo 64 entry) 2 2
      ∧ (t.hq.cmds.get tag).cqid = (s.hq.sqs.get k).cqid ∧ (t.hq.sqs.get k).head = ((s.hq.sqs.get k).head + 1) % (s.hq.sqs.get k).size
      ∧ (knownOps.contains (leAt (padTo 64 entry) 0 1) = false → t.completed tag 0x01 0 0)
      ∧ (knownOps.contains (leAt (padTo 64 entry) 0 1) = true → (fnOf (k / 64) = .pf1 → pf0Ops.contains (leAt (padTo 64 entry) 0 1) = false) →
          decide (leAt (padTo 64 entry) 0 1 < 0x80) = decide (k % 64 = 0) →
          (exemptOps.contains (leAt (padTo 64 entry) 0 1) = false → s.on Pg.array Reg.ARRAY_STATE_FENCED = true →
            t.completed tag 0x10 0 0 ∧ t.fld Pg.hostq Reg.HOSTQ_EVENT_GEN_REJECT = 1
              ∧ t.fld Pg.array Reg.ARRAY_STALE_CMDS = min (s.fld Pg.array Reg.ARRAY_STALE_CMDS + 1) (2 ^ 32 - 1))
          ∧ (exemptOps.contains (leAt (padTo 64 entry) 0 1) = true
              ∨ s.on Pg.array Reg.ARRAY_STATE_FENCED = false
                ∧ (s.fld Pg.array Reg.ARRAY_GENERATION = 0 ∨ leAt (padTo 64 entry) 8 4 = s.fld Pg.array Reg.ARRAY_GENERATION) →
            ((∀ d, badField { raw := padTo 64 entry } d = none) → (t.hq.cmds.get tag).stage = .waiting)
            ∧ ((∀ d, (badField { raw := padTo 64 entry } d).isSome = true) → leAt (padTo 64 entry) 0 1 ≠ 0x28 → t.completed tag 0x02 0 0)))
      ∧ s.OnlyTag t tag ∧ (∀ j, j ≠ k → t.hq.sqs.get j = s.hq.sqs.get j)
      ∧ t = { s.regsOf t with hq := t.hq }
      ∧ s.KeepsRegs t [keyOf Reg.HOSTQ_EVENT_GEN_REJECT Pg.hostq, keyOf Reg.ARRAY_STALE_CMDS Pg.array] ∧ s.KeepsBytes t)
  ∧ (∀ (s : State) (tag k : Nat), s.readyQueues.filter s.tagFor ≠ [] → k = (s.arbitrate (s.readyQueues.filter s.tagFor)).1 →
    ∃ t, exec (.commandFetch tag none) s = .next t
      ∧ (t.hq.sqs.get k).fault = true ∧ (t.hq.sqs.get k).head = (s.hq.sqs.get k).head ∧ t.hq.avail = s.hq.avail ∧ t.hq.cmds = s.hq.cmds
      ∧ t.fld Pg.hostq Reg.HOSTQ_EVENT_SQ_FAULT = 1
      ∧ (t.fld (hqPage (fnOf (k / 64))) (if k % 64 < 32 then Reg.HOSTQ_SQ_FAULT_LO else Reg.HOSTQ_SQ_FAULT_HI)).testBit (k % 32) = true
      ∧ t = { s.regsOf t with hq := t.hq } ∧ s.KeepsPages t [Pg.hostq] ∧ s.KeepsBytes t)
  ∧ ∀ (s : State) (tag : Nat) (entry : Option (List Byte)), s.readyQueues ≠ [] → (∀ k ∈ s.readyQueues, k % 64 ≠ 0) → s.freeTags = 0 →
    ∃ t, exec (.commandFetch tag entry) s = .next t
      ∧ (s.hq.exhausted = false → t.fld Pg.hostq Reg.HOSTQ_EVENT_TAGS_EXHAUSTED = 1) ∧ (s.hq.exhausted = true → t.regs = s.regs)
      ∧ t = { s.regsOf t with hq := { s.hq with exhausted := true, exhaustedAdmin := false } }
      ∧ s.KeepsRegs t [keyOf Reg.HOSTQ_EVENT_TAGS_EXHAUSTED Pg.hostq] ∧ s.KeepsBytes t

/-- COMPLETION_POST and CQ_COALESCE_TIMEOUT (R282, R287, R302): the 16 bytes of the completion are written at the tail with the queue's phase, the
tag is free, DONE counts, and the vector's latch is set where the queue signals; a full queue holds it with CQ_FULL; when the coalescing time
passes, entries not yet signalled set the latch. -/
def Obligations.CompletionsPosted : Prop :=
  (∀ (s : State) (tag : Nat) (c : Cmd) (q : Cq), c = s.hq.cmds.get tag → c.live = true → c.stage = .done →
    q = s.hq.cqs.get (qkey c.fn c.cqid) → q.live = true → (q.tail + 1) % q.size ≠ q.head →
    ∃ t, exec (.completionPost tag) s = .next t
      ∧ t.out = .hostWrite c.fn (q.base + 16 * q.tail)
          (leBytes 4 c.result ++ leBytes 2 c.sqHead ++ leBytes 1 c.sqid ++ [0] ++ leBytes 2 c.cid
            ++ leBytes 2 (tag % 16384 + if q.phase then 32768 else 0) ++ leBytes 1 c.status ++ leBytes 1 c.detail ++ [0, 0]) :: s.out
      ∧ (t.hq.cmds.get tag).live = false ∧ s.OnlyTag t tag ∧ (∀ k, k ≠ qkey c.fn c.cqid → t.hq.cqs.get k = s.hq.cqs.get k)
      ∧ (t.hq.cqs.get (qkey c.fn c.cqid)).tail = (q.tail + 1) % q.size
      ∧ (t.hq.cqs.get (qkey c.fn c.cqid)).phase = (if (q.tail + 1) % q.size = 0 then !q.phase else q.phase)
      ∧ t.fld64 Pg.hostq Reg.HOSTQ_DONE_LO Reg.HOSTQ_DONE_HI =
          (s.fld64 Pg.hostq Reg.HOSTQ_DONE_LO Reg.HOSTQ_DONE_HI + 1) % 2 ^ 64
      ∧ (c.cqid = 0 ∨ q.ien = true ∧ (q.cnt ≤ q.unsig + 1 ∨ c.flag 1 = true) →
          t.ctl.latches.contains (fnNum c.fn * 64 + q.vector) = true)
      ∧ (c.cqid ≠ 0 → q.ien = false ∨ q.unsig + 1 < q.cnt ∧ c.flag 1 = false → t.ctl = s.ctl)
      ∧ t = { s.regsOf t with out := t.out, hq := { s.hq with cmds := t.hq.cmds, cqs := t.hq.cqs } }
      ∧ s.KeepsRegs t [keyOf Reg.HOSTQ_DONE_LO Pg.hostq, keyOf Reg.HOSTQ_DONE_HI Pg.hostq] ∧ s.KeepsBytes t)
  ∧ (∀ (s : State) (tag : Nat) (c : Cmd) (q : Cq), c = s.hq.cmds.get tag → c.live = true → c.stage = .done →
    q = s.hq.cqs.get (qkey c.fn c.cqid) → q.live = true → (q.tail + 1) % q.size = q.head →
    ∃ t, exec (.completionPost tag) s = .next t
      ∧ t.hq.cqs.get (qkey c.fn c.cqid) = { q with held := true } ∧ t.hq.cmds = s.hq.cmds
      ∧ t.fld Pg.hostq Reg.HOSTQ_EVENT_CQ_FULL = 1
      ∧ t = { s.regsOf t with hq := { s.hq with cqs := t.hq.cqs, sqs := t.hq.sqs } }
      ∧ s.KeepsRegs t [keyOf Reg.HOSTQ_EVENT_CQ_FULL Pg.hostq] ∧ s.KeepsBytes t)
  ∧ ∀ (s : State) (fn : Fn) (qid : Nat) (q : Cq), q = s.hq.cqs.get (qkey fn qid) → q.live = true → q.ien = true → q.time ≠ 0 → q.unsig ≠ 0 →
    ∃ t, exec (.cqCoalesceTimeout fn qid) s = .next t
      ∧ t.ctl.latches.contains (fnNum fn * 64 + q.vector) = true ∧ t.hq.cqs.get (qkey fn qid) = { q with unsig := 0 }
      ∧ (∀ k, k ≠ qkey fn qid → t.hq.cqs.get k = s.hq.cqs.get k)
      ∧ t = { s with hq := { s.hq with cqs := t.hq.cqs }, ctl := { s.ctl with latches := t.ctl.latches } } ∧ s.KeepsBytes t

/-- CREATE_SQ, CREATE_CQ, DELETE_SQ, DELETE_CQ and SET_COALESCING (R279, R290, R301 to R303): a queue that is created holds the command's base,
size, class, vector and coalescing; a deleted submission queue is gone with its entries, its outstanding commands end with status 0x08, and RESULT
counts them; a completion queue that a submission queue posts to is not deleted. A field out of its range gives status 0x02, a queue that stands
in the way 0x0C, and memory that the windows do not cover 0x11 with WIN_DENY. The model's own choices in it: log entries 48, 50. -/
def Obligations.QueueCommands : Prop :=
  (∀ (s : State) (tag : Nat) (c : Cmd) (k : Nat), s.starts tag 0x01 (fun c _ => badCreateSq c) → c = s.hq.cmds.get tag →
    k = qkey c.fn (c.cdw 8 % 64) →
    ((s.hq.sqs.get k).live = false → (s.hq.cqs.get (qkey c.fn (c.cdw 9 % 64))).live = true →
      (s.windowOk c.fn c.dptr (64 * (c.cdw 8 / 65536 % 4096 + 1)) false = true →
        ∃ t, exec (.createSq tag) s = .next t
          ∧ t.hq.sqs.get k =
              { live := true, base := c.dptr, size := c.cdw 8 / 65536 % 4096 + 1, cqid := c.cdw 9 % 64, cls := c.cdw 9 / 256 % 4 }
          ∧ s.Done t tag 0 ∧ (∀ j, j ≠ k → t.hq.sqs.get j = s.hq.sqs.get j)
          ∧ t = { s with hq := { s.hq with cmds := t.hq.cmds, sqs := t.hq.sqs } })
      ∧ (s.windowOk c.fn c.dptr (64 * (c.cdw 8 / 65536 % 4096 + 1)) false = false →
        ∃ t, exec (.createSq tag) s = .next t ∧ s.WindowDenied t tag))
    ∧ ((s.hq.sqs.get k).live = true ∨ (s.hq.cqs.get (qkey c.fn (c.cdw 9 % 64))).live = false →
      ∃ t, exec (.createSq tag) s = .next t ∧ s.Failed t tag 0x0C))
  ∧ (∀ (s : State) (tag : Nat) (c : Cmd) (k : Nat), s.starts tag 0x03 (fun c _ => firstBad (badCreate c)) → c = s.hq.cmds.get tag →
    k = qkey c.fn (c.cdw 8 % 64) →
    ((s.hq.cqs.get k).live = false →
      (s.windowOk c.fn c.dptr (16 * (c.cdw 8 / 65536 % 4096 + 1)) true = true →
        ∃ t, exec (.createCq tag) s = .next t
          ∧ t.hq.cqs.get k =
              { live := true, base := c.dptr, size := c.cdw 8 / 65536 % 4096 + 1, phase := true, vector := c.cdw 9 % 64,
                ien := (c.cdw 9).testBit 8, cnt := c.cdw 10 % 256, time := c.cdw 10 / 256 % 256 }
          ∧ s.Done t tag 0 ∧ (∀ j, j ≠ k → t.hq.cqs.get j = s.hq.cqs.get j)
          ∧ t = { s with hq := { s.hq with cmds := t.hq.cmds, cqs := t.hq.cqs } })
      ∧ (s.windowOk c.fn c.dptr (16 * (c.cdw 8 / 65536 % 4096 + 1)) true = false →
        ∃ t, exec (.createCq tag) s = .next t ∧ s.WindowDenied t tag))
    ∧ ((s.hq.cqs.get k).live = true → ∃ t, exec (.createCq tag) s = .next t ∧ s.Failed t tag 0x0C))
  ∧ (∀ (s : State) (tag : Nat) (c : Cmd) (k : Nat), s.starts tag 0x02 (fun c _ => badQid c) → c = s.hq.cmds.get tag →
    k = qkey c.fn (c.cdw 8 % 64) →
    ((s.hq.sqs.get k).live = true → c.sqid ≠ c.cdw 8 % 64 →
      ∃ t, exec (.deleteSq tag) s = .next t
        ∧ t.hq.sqs.get k = default ∧ (∀ e ∈ t.hq.avail, e.1 ≠ k) ∧ (∀ j, j ≠ k → t.hq.sqs.get j = s.hq.sqs.get j)
        ∧ (∀ g, (s.hq.cmds.get g).live = true → (s.hq.cmds.get g).fn = c.fn → (s.hq.cmds.get g).sqid = c.cdw 8 % 64 →
            (s.hq.cmds.get g).stage ≠ .done → (s.hq.cmds.get g).op ≠ 0x28 → t.completed g 0x08 0 0)
        ∧ (∀ g, g ≠ tag → (∀ e ∈ s.hq.cmds, e.1 = g → e.2.fn ≠ c.fn ∨ e.2.sqid ≠ c.cdw 8 % 64) → t.hq.cmds.get g = s.hq.cmds.get g)
        ∧ t.completed tag 0 ((s.putCmd tag { c with stage := .running, len := 0 }).openOf c.fn (c.cdw 8 % 64)).length 0
      ∧ t = { s with regs := t.regs, hq := t.hq, cond := { s.cond with queue := t.cond.queue } }
        ∧ s.KeepsRegs t [keyOf Reg.HOSTQ_SQ_FAULT_LO (hqPage c.fn), keyOf Reg.HOSTQ_SQ_FAULT_HI (hqPage c.fn)] ∧ s.KeepsBytes t)
    ∧ ((s.hq.sqs.get k).live = false → ∃ t, exec (.deleteSq tag) s = .next t ∧ s.Failed t tag 0x0C))
  ∧ (∀ (s : State) (tag : Nat) (c : Cmd) (k : Nat), s.starts tag 0x04 (fun c _ => badQid c) → c = s.hq.cmds.get tag →
    k = qkey c.fn (c.cdw 8 % 64) →
    ((s.hq.cqs.get k).live = true →
      (∀ e ∈ s.hq.sqs, e.2.live = true → e.1 / 64 = fnNum c.fn → e.2.cqid ≠ c.cdw 8 % 64) →
      ∃ t, exec (.deleteCq tag) s = .next t ∧ t.hq.cqs.get k = default ∧ s.Done t tag 0
        ∧ (∀ j, j ≠ k → t.hq.cqs.get j = s.hq.cqs.get j) ∧ t = { s with hq := { s.hq with cmds := t.hq.cmds, cqs := t.hq.cqs } })
    ∧ ((s.hq.cqs.get k).live = false ∨ (∃ e ∈ s.hq.sqs, e.2.live = true ∧ e.1 / 64 = fnNum c.fn ∧ e.2.cqid = c.cdw 8 % 64) →
      ∃ t, exec (.deleteCq tag) s = .next t ∧ s.Failed t tag 0x0C))
  ∧ (∀ (s : State) (tag : Nat) (c : Cmd) (k : Nat), s.starts tag 0x08 (fun c _ => badQid c) → c = s.hq.cmds.get tag →
    k = qkey c.fn (c.cdw 8 % 64) →
    ((s.hq.cqs.get k).live = true →
      ∃ t, exec (.setCoalescing tag) s = .next t
        ∧ t.hq.cqs.get k = { s.hq.cqs.get k with cnt := c.cdw 9 % 256, time := c.cdw 9 / 256 % 256 } ∧ s.Done t tag 0
        ∧ (∀ j, j ≠ k → t.hq.cqs.get j = s.hq.cqs.get j) ∧ t = { s with hq := { s.hq with cmds := t.hq.cmds, cqs := t.hq.cqs } })
    ∧ ((s.hq.cqs.get k).live = false → ∃ t, exec (.setCoalescing tag) s = .next t ∧ s.Failed t tag 0x0C))
  ∧ ∀ (s : State) (tag : Nat) (c : Cmd), c = s.hq.cmds.get tag →
    (s.mayRun tag 0x01 → (badCreateSq c).isSome = true → ∃ t, exec (.createSq tag) s = .next t ∧ s.Failed t tag 0x02)
    ∧ (s.mayRun tag 0x03 → (firstBad (badCreate c)).isSome = true → ∃ t, exec (.createCq tag) s = .next t ∧ s.Failed t tag 0x02)
    ∧ (c.cdw 8 % 64 = 0 →
        (s.mayRun tag 0x02 → ∃ t, exec (.deleteSq tag) s = .next t ∧ s.Failed t tag 0x02)
        ∧ (s.mayRun tag 0x04 → ∃ t, exec (.deleteCq tag) s = .next t ∧ s.Failed t tag 0x02)
        ∧ (s.mayRun tag 0x08 → ∃ t, exec (.setCoalescing tag) s = .next t ∧ s.Failed t tag 0x02))

/-- IDENTIFY and GET_LOG_PAGE (R307, R308, R458): the structure that CNS names, or the part of the log page from its offset on, is written through
the command's buffers, and RESULT is 0 or the bytes written; an LID that is not served, and an NSID that names nothing, fail with status 0x02.
IDENTIFY is accepted while the firmware holds no image. The model's own choices in it: log entry 53. -/
def Obligations.InformationCommands : Prop :=
  (∀ (s : State) (tag : Nat) (h : HostData) (c : Cmd) (bufs : List (Nat × Nat)), s.mayRun tag 0x05 → c = s.hq.cmds.get tag →
    badIdentify h c s = none → s.buffers c h true = .ok bufs →
    ∃ t, exec (.identify tag h) s = .next t
      ∧ t.out = (s.toHost c.fn bufs
          (if c.cdw 8 % 256 = 0 then s.identifyDevice c.fn else if c.cdw 8 % 256 = 1 then
            (s.putCmd tag { c with stage := .running, len := 0 }).identifyNs c.nsid
          else s.identifyList)).out
      ∧ s.Done t tag 0 ∧ t = { s with out := t.out, hq := { s.hq with cmds := t.hq.cmds } })
  ∧ (∀ (s : State) (tag : Nat) (h : HostData) (c : Cmd), s.mayRun tag 0x05 → c = s.hq.cmds.get tag → c.cdw 8 % 256 = 1 →
    s.nsType c.nsid = 0 → ∃ t, exec (.identify tag h) s = .next t ∧ s.Failed t tag 0x02)
  ∧ (∀ (s : State) (tag : Nat) (h : HostData) (c : Cmd) (bufs : List (Nat × Nat)) (p : List Byte), s.starts tag 0x06 (badGetLog h) →
    c = s.hq.cmds.get tag → s.logPage c.fn (c.cdw 8 % 256) = some p → s.buffers c h true = .ok bufs →
    ∃ t, exec (.getLogPage tag h) s = .next t
      ∧ t.out = (s.toHost c.fn bufs ((p.drop (c.cdw 10 + 2 ^ 32 * c.cdw 11)).take (xferLen c h))).out
      ∧ s.Done t tag (min (xferLen c h) (p.length - (c.cdw 10 + 2 ^ 32 * c.cdw 11)))
      ∧ t = { s with out := t.out, hq := { s.hq with cmds := t.hq.cmds } })
  ∧ ∀ (s : State) (tag : Nat) (h : HostData), s.mayRun tag 0x06 →
    s.logPage (s.hq.cmds.get tag).fn ((s.hq.cmds.get tag).cdw 8 % 256) = none →
    ∃ t, exec (.getLogPage tag h) s = .next t ∧ s.Failed t tag 0x02

/-! ### Namespaces and the Filter Store (R195 to R203, R309 to R314, R323) -/

/-- CREATE_NAMESPACE and DELETE_NAMESPACE (R309, R310, R323): a STAGE namespace takes the lowest run of free units that holds its size, and a REEL
its extent of the volume, with the lowest free NSID or the one asked for; RESULT is the NSID and NS_CREATED is raised; without a run that is long
enough the command fails with status 0x32 and NS_FULL. Deleting gives the units of a STAGE namespace back, and a REEL's entry and extent, whose
bytes read as zero from then on; NS_DELETED is raised. A namespace that an engine or another command holds is not deleted: status 0x0C. The
model's own choices in it: log entry 53. -/
def Obligations.NamespacesMade : Prop :=
  (∀ (s : State) (tag n units : Nat) (c : Cmd), s.starts tag 0x18 badCreateNs → c = s.hq.cmds.get tag → c.cdw 8 % 256 = 3 →
    (c.cdw 9 % 256 = 0 ∧ s.freeNsid = some n ∨ c.cdw 9 % 256 = n ∧ 2 ≤ n ∧ s.nsType n = 0) → c.cdw 10 + 2 ^ 32 * c.cdw 11 ≠ 0 →
    s.ctl.mode ≠ .service → s.ctl.mode ≠ .sleep → s.on Pg.dramctl Reg.DRAMCTL_STATE_TRAIN_FAIL = false →
    units = (c.cdw 10 + 2 ^ 32 * c.cdw 11 + 2097151) / 2097152 →
    ((∃ w, ∀ i, i < units → s.unitFree (w + i) = true) →
      ∃ t u, exec (.createNamespace tag) s = .next t
        ∧ t.stages = s.stages ++ [⟨n, u, units, units * 2097152, 0⟩] ∧ (∀ i, i < units → s.unitFree (u + i) = true)
        ∧ (∀ w, (∀ i, i < units → s.unitFree (w + i) = true) → u ≤ w)
        ∧ s.Done t tag n ∧ t.fld Pg.nspace Reg.NSPACE_EVENT_NS_CREATED = 1
        ∧ t = { s.regsOf t with stages := t.stages, hq := { s.hq with cmds := t.hq.cmds } }
        ∧ s.KeepsRegs t [keyOf Reg.NSPACE_EVENT_NS_CREATED Pg.nspace] ∧ s.KeepsBytes t)
    ∧ ((¬ ∃ w, ∀ i, i < units → s.unitFree (w + i) = true) →
      ∃ t, exec (.createNamespace tag) s = .next t
        ∧ t.completed tag 0x32 0 0 ∧ t.fld Pg.nspace Reg.NSPACE_EVENT_NS_FULL = 1 ∧ t.stages = s.stages
        ∧ t = { s.regsOf t with hq := t.hq } ∧ s.KeepsRegs t [keyOf Reg.NSPACE_EVENT_NS_FULL Pg.nspace] ∧ s.KeepsBytes t))
  ∧ (∀ (s : State) (tag n a : Nat) (c : Cmd) (v : Volume), s.starts tag 0x18 badCreateNs → c = s.hq.cmds.get tag → c.cdw 8 % 256 = 1 →
    (c.cdw 9 % 256 = 0 ∧ s.freeNsid = some n ∨ c.cdw 9 % 256 = n ∧ 2 ≤ n ∧ s.nsType n = 0) →
    16777216 ≤ c.cdw 10 + 2 ^ 32 * c.cdw 11 → s.ctl.mode ≠ .service → s.ctl.mode ≠ .sleep → s.media.vol = some v →
    v.findFree (roundUp (c.cdw 10 + 2 ^ 32 * c.cdw 11) 8388608) = some a → s.volumeReady = true →
    ∃ t, exec (.createNamespace tag) s = .next t
      ∧ t.dirEntry n = ⟨1, a, roundUp (c.cdw 10 + 2 ^ 32 * c.cdw 11) 8388608⟩ ∧ (∀ m, m ≠ n → t.dirEntry m = s.dirEntry m)
      ∧ s.Done t tag n ∧ t.fld Pg.nspace Reg.NSPACE_EVENT_NS_CREATED = 1
      ∧ (∀ k b, 131072 ≤ b → (t.drive k).mem.get b = (s.drive k).mem.get b)
      ∧ t = { s.regsOf t with
          media := { s.media with vol := t.media.vol, drives := t.media.drives }, hq := { s.hq with cmds := t.hq.cmds } }
      ∧ s.KeepsPages t [Pg.nspace, Pg.recorder, Pg.media 0, Pg.media 1])
  ∧ (∀ (s : State) (tag : Nat) (c : Cmd), s.starts tag 0x19 badDeleteNs → c = s.hq.cmds.get tag → 2 ≤ c.nsid → s.nsType c.nsid = 3 →
    s.reelInUse c.nsid = false → s.loadsFrom c.nsid = false → s.nsCommands c.nsid c.uid = [] →
    ∃ t, exec (.deleteNamespace tag) s = .next t
      ∧ t.stages = s.stages.filter (fun e => decide (e.nsid ≠ c.nsid)) ∧ s.Done t tag 0 ∧ t.fld Pg.nspace Reg.NSPACE_EVENT_NS_DELETED = 1
      ∧ t = { s.regsOf t with stages := t.stages, hq := { s.hq with cmds := t.hq.cmds } }
      ∧ s.KeepsRegs t [keyOf Reg.NSPACE_EVENT_NS_DELETED Pg.nspace] ∧ s.KeepsBytes t)
  ∧ (∀ (s : State) (tag : Nat) (c : Cmd) (v : Volume), s.starts tag 0x19 badDeleteNs → c = s.hq.cmds.get tag → 2 ≤ c.nsid → s.nsType c.nsid = 1 →
    s.reelInUse c.nsid = false → s.loadsFrom c.nsid = false → s.nsCommands c.nsid c.uid = [] → s.media.vol = some v →
    s.volumeReady = true →
    ∃ t, exec (.deleteNamespace tag) s = .next t
      ∧ t.dirEntry c.nsid = {} ∧ (∀ m, m ≠ c.nsid → t.dirEntry m = s.dirEntry m)
      ∧ s.Done t tag 0 ∧ t.fld Pg.nspace Reg.NSPACE_EVENT_NS_DELETED = 1
      ∧ (∀ k b u, 8388608 ≤ b → k < v.drives → u = (b - 8388608) / 4194304 * v.drives + v.members.getD k 0 →
          (t.drive k).mem.get b =
            if (s.dirEntry c.nsid).start ≤ u * 4194304 ∧ u * 4194304 < (s.dirEntry c.nsid).start + (s.dirEntry c.nsid).size then 0
            else (s.drive k).mem.get b)
      ∧ (∀ k b, 131072 ≤ b → b < 8388608 → (t.drive k).mem.get b = (s.drive k).mem.get b)
      ∧ t = { s.regsOf t with
          media := { s.media with vol := t.media.vol, drives := t.media.drives }, hq := { s.hq with cmds := t.hq.cmds } }
      ∧ s.KeepsPages t [Pg.nspace, Pg.recorder, Pg.media 0, Pg.media 1])
  ∧ ∀ (s : State) (tag : Nat) (c : Cmd), s.starts tag 0x19 badDeleteNs → c = s.hq.cmds.get tag → 2 ≤ c.nsid → s.nsType c.nsid ≠ 0 →
    (s.reelInUse c.nsid = true ∨ s.loadsFrom c.nsid = true
      ∨ ∃ g, g ≠ tag ∧ (s.hq.cmds.get g).live = true ∧ (s.hq.cmds.get g).stage ≠ .done ∧ (s.hq.cmds.get g).names = true
        ∧ (s.hq.cmds.get g).nsid = c.nsid ∧ (s.hq.cmds.get g).uid ≠ c.uid) →
    ∃ t, exec (.deleteNamespace tag) s = .next t ∧ s.Failed t tag 0x0C

/-- READ and WRITE (R299, R311, R312, R337): the bytes of the namespace from the command's offset are written through its buffers in order, and
RESULT is the number of bytes; of a STAGE namespace they are the bytes of DRAM at its place. A range that leaves the namespace, or the recorded
length of a reel, fails with status 0x02, and one that lies on a drive that has failed with 0x30. A WRITE to a STAGE namespace stores the data in
DRAM at its place; a WRITE to SETTINGS by PF0 in STANDBY or SERVICE hands a valid image to the save engine, which writes it with the next sequence
number. The model's own choices in it: log entries 51, 53. -/
def Obligations.NamespaceData : Prop :=
  (∀ (s : State) (tag : Nat) (h : HostData) (c : Cmd) (bufs : List (Nat × Nat)), s.starts tag 0x80 (badRead h) (ioLen h) → c = s.hq.cmds.get tag →
    s.buffers c h true = .ok bufs →
    (s.nsType c.nsid = 1 → s.volReadable ((s.dirEntry c.nsid).start + c.offset) (xferLen c h) = true) →
    ∃ t b, exec (.read tag h) s = .next t
      ∧ t.out = (s.toHost c.fn bufs b).out ∧ b = s.nsRead c.nsid c.offset (xferLen c h) ∧ b.length = xferLen c h
      ∧ (∀ e, s.nsType c.nsid = 3 → s.stageNs c.nsid = some e → ∀ i, i < xferLen c h →
          b.getD i 0 = s.peek (s.stageBase + 2097152 * e.unit + c.offset + i))
      ∧ s.Done t tag (xferLen c h) ∧ t = { s with out := t.out, hq := { s.hq with cmds := t.hq.cmds } })
  ∧ (∀ (s : State) (tag : Nat) (h : HostData) (c : Cmd), s.mayRun tag 0x80 (ioLen h) → c = s.hq.cmds.get tag →
    (s.nsType c.nsid = 0 ∨
      (if s.nsType c.nsid = 1 then s.reelUsed c.nsid else s.nsSize c.nsid) < c.offset + ioLen h c s) →
    ∃ t, exec (.read tag h) s = .next t ∧ s.Failed t tag 0x02)
  ∧ (∀ (s : State) (tag : Nat) (h : HostData) (c : Cmd) (bufs : List (Nat × Nat)), s.starts tag 0x80 (badRead h) (ioLen h) →
    c = s.hq.cmds.get tag → s.buffers c h true = .ok bufs → s.nsType c.nsid = 1 →
    s.volReadable ((s.dirEntry c.nsid).start + c.offset) (xferLen c h) = false →
    ∃ t, exec (.read tag h) s = .next t ∧ s.Failed t tag 0x30)
  ∧ (∀ (s : State) (tag lo len : Nat) (h : HostData) (c : Cmd) (e : StageNs) (bufs : List (Nat × Nat)) (b : List Byte), s.starts tag 0x81 (badWrite h) (ioLen h) →
    c = s.hq.cmds.get tag → c.nsid ≠ 0 → s.stageNs c.nsid = some e → s.buffers c h false = .ok bufs → len = xferLen c h →
    c.offset + len ≤ e.size → h.data = some b → lo = s.stageBase + 2097152 * e.unit + c.offset →
    ∃ t, exec (.write tag h) s = .next t
      ∧ (∀ i, i < len → lo + i < s.dramSize → t.dram.get (lo + i) = b.getD i 0)
      ∧ s.Done t tag len ∧ (t.stageNs c.nsid).map (·.used) = some (max e.used (c.offset + len))
      ∧ t = { s with dram := t.dram, stages := t.stages, hq := { s.hq with cmds := t.hq.cmds } } ∧ s.StoresDram t lo len)
  ∧ ∀ (s : State) (tag : Nat) (h : HostData) (c : Cmd) (bufs : List (Nat × Nat)) (b : List Byte), s.starts tag 0x81 (badWrite h) (ioLen h) →
    c = s.hq.cmds.get tag → c.nsid = 0 → c.fn = .pf0 → s.quiet = true → s.buffers c h false = .ok bufs →
    xferLen c h ≤ 65536 → h.data = some b → bankValid (padTo (xferLen c h) b) = true →
    ∃ t, exec (.write tag h) s = .next t
      ∧ (s.rsm.running = none → t.rsm = { s.rsm.setBank s.rsm.target [] with
          running := some (⟨1, [c.uid], some (padTo (xferLen c h) b)⟩, s.rsm.target, s.rsm.seq + 1,
            reseq (padTo (xferLen c h) b) (s.rsm.seq + 1)) })
      ∧ (s.rsm.running.isSome = true → t.rsm = { s.rsm with writes := s.rsm.writes ++ [⟨1, [c.uid], some (padTo (xferLen c h) b)⟩] })
      ∧ (t.hq.cmds.get tag).stage = .running ∧ s.OnlyTag t tag
      ∧ t = { s with rsm := t.rsm, hq := { s.hq with cmds := t.hq.cmds } }

/-- SLOT_CFG_WRITE (R195, R196): the placement is recomputed: each placed slot lies behind every lower placed slot and ends within the 256 blocks,
and USED is what they take together. The model's own choices in it: log entry 40. -/
def Obligations.SlotsPlaced : Prop :=
  ∀ (s : State) (r : Req) (k : Nat) (v : Word), k < 64 → s.accepts r Pg.fstore (0x100 + 4 * k) v = true →
    ∃ t, exec (.slotCfgWrite r k v) s = .next t
      ∧ (∀ j, j < 64 → t.slotKindOf j = if j = k then slotKind (wfld (s.written r Pg.fstore (0x100 + 4 * k) v) (Reg.FSTORE_SLOT_CFG_KIND k))
          else s.slotKindOf j)
      ∧ (∀ j, j < 64 → t.on Pg.fstore (Reg.FSTORE_SLOT_CFG_PLACED j) = true →
          t.slotKindOf j ≠ 0 ∧ t.fld Pg.fstore (Reg.FSTORE_SLOT_CFG_BASE j) + kindBlocks (t.slotKindOf j) ≤ 256
            ∧ ∀ i, i < j → t.on Pg.fstore (Reg.FSTORE_SLOT_CFG_PLACED i) = true →
                t.fld Pg.fstore (Reg.FSTORE_SLOT_CFG_BASE i) + kindBlocks (t.slotKindOf i) ≤ t.fld Pg.fstore (Reg.FSTORE_SLOT_CFG_BASE j))
      ∧ t.fld Pg.fstore Reg.FSTORE_LAYOUT_USED = (((List.range 64).filter fun j => t.on Pg.fstore (Reg.FSTORE_SLOT_CFG_PLACED j)).map
          fun j => kindBlocks (t.slotKindOf j)).sum
      ∧ s.KeptPages t [Pg.fstore]

/-- FSTORE_LOAD, LOAD_SLOT and FSTORE_LOAD_DONE (R202, R314): a load whose slot and header pass the checks begins: BUSY is 1 and the slot is
LOADING; one that fails ends at once with its RESULT, LOAD_DONE and LOAD_ERR, and completes its command; GO while a load runs, or while a
power-down of the Filter Store is held, raises STATE_REJECT alone. A payload whose CRC is that of its header is in the Filter Store at the slot's
place and the slot is READY with RESULT 0; one whose CRC differs leaves the slot EMPTY with RESULT 7 and LOAD_ERR; the command it serves completes
with the load's status. The model's own choices in it: log entry 40. -/
def Obligations.SlotLoads : Prop :=
  (∀ (s : State) (r : Req) (v : Word) (k src : Nat), s.accepts r Pg.fstore 0x068 v = true → wfld v Reg.FSTORE_LOAD_CTRL_GO = 1 →
    s.fstore.load = none → s.heldReq Pg.fstore = none → k = wfld v Reg.FSTORE_LOAD_CTRL_SLOT →
    src = 64 * s.fld Pg.fstore Reg.FSTORE_LOAD_SRC_LO + 2 ^ 32 * s.fld Pg.fstore Reg.FSTORE_LOAD_SRC_HI →
    ∃ t, exec (.fstoreLoad r v) s = .next t
      ∧ t.fld Pg.fstore Reg.FSTORE_LOAD_CTRL_SLOT = k
      ∧ (s.loadCheck k src = 0 →
          t.fstore.load = some ⟨k, src + 64, s.slotKindOf k, leAt (s.peekN src 64) 0x0C 4, leAt (s.peekN src 64) 7 1, none⟩
          ∧ t.fld Pg.fstore Reg.FSTORE_LOAD_CTRL_BUSY = 1 ∧ t.fld Pg.fstore (Reg.FSTORE_SLOT_STATUS_STATE k) = 1)
      ∧ (s.loadCheck k src ≠ 0 → t.fstore.load = none ∧ t.fld Pg.fstore Reg.FSTORE_LOAD_CTRL_BUSY = 0
          ∧ t.fld Pg.fstore Reg.FSTORE_LOAD_CTRL_RESULT = s.loadCheck k src ∧ t.fld Pg.fstore Reg.FSTORE_EVENT_LOAD_DONE = 1
          ∧ t.fld Pg.fstore Reg.FSTORE_EVENT_LOAD_ERR = 1)
      ∧ t = { s.regsOf t with fstore := { s.fstore with load := t.fstore.load } } ∧ s.KeepsPages t [Pg.fstore] ∧ s.KeepsBytes t)
  ∧ (∀ (s : State) (r : Req) (v : Word), s.accepts r Pg.fstore 0x068 v = true → wfld v Reg.FSTORE_LOAD_CTRL_GO = 1 →
    s.fstore.load.isSome = true ∨ (s.heldReq Pg.fstore).isSome = true → ∃ t, exec (.fstoreLoad r v) s = .next t ∧ s.Rejected t Pg.fstore)
  ∧ (∀ (s : State) (tag k src : Nat) (c : Cmd) (e : StageNs), s.starts tag 0x84 badLoadSlot packageLen → c = s.hq.cmds.get tag →
    s.fstore.load = none →
    s.heldReq Pg.fstore = none → s.stageNs c.nsid = some e → k = c.cdw 10 % 64 →
    src = s.stageBase + 2097152 * e.unit + c.offset →
    (s.loadCheck k src = 0 →
      ∃ t, exec (.loadSlot tag) s = .next t
        ∧ t.fstore.load = some ⟨k, src + 64, s.slotKindOf k, leAt (s.peekN src 64) 0x0C 4, leAt (s.peekN src 64) 7 1, some c.uid⟩
        ∧ t.fld Pg.fstore Reg.FSTORE_LOAD_CTRL_BUSY = 1 ∧ t.fld Pg.fstore (Reg.FSTORE_SLOT_STATUS_STATE k) = 1
        ∧ (t.hq.cmds.get tag).stage = .running ∧ s.OnlyTag t tag
        ∧ t = { s.regsOf t with fstore := { s.fstore with load := t.fstore.load }, hq := { s.hq with cmds := t.hq.cmds } }
        ∧ s.KeepsPages t [Pg.fstore] ∧ s.KeepsBytes t)
    ∧ (s.loadCheck k src ≠ 0 → s.NumbersUnique →
      ∃ t, exec (.loadSlot tag) s = .next t
        ∧ t.fld Pg.fstore Reg.FSTORE_LOAD_CTRL_RESULT = s.loadCheck k src
        ∧ t.completed tag (if s.loadCheck k src = 1 then 0x0C else if s.loadCheck k src = 8 then 0x30 else 0x02) 0 (s.loadCheck k src)
        ∧ t = { s.regsOf t with hq := t.hq } ∧ s.KeepsPages t [Pg.fstore] ∧ s.KeepsBytes t))
  ∧ ∀ (s : State) (l : FsLoad) (n : Nat), s.fstore.load = some l → s.fld Pg.fstore (Reg.FSTORE_SLOT_STATUS_STATE l.slot) = 1 →
    n = kindBytes l.kind → l.src + n ≤ s.dramSize →
    (crc32c (s.peekN l.src n) = l.crc →
      ∃ t, exec .fstoreLoadDone s = .next t
        ∧ (∀ i, i < n → t.fstore.mem.get (4096 * s.fld Pg.fstore (Reg.FSTORE_SLOT_CFG_BASE l.slot) + i) = s.peek (l.src + i))
        ∧ (∀ a, a < 4096 * s.fld Pg.fstore (Reg.FSTORE_SLOT_CFG_BASE l.slot)
            ∨ 4096 * s.fld Pg.fstore (Reg.FSTORE_SLOT_CFG_BASE l.slot) + n ≤ a → t.fstore.mem.get a = s.fstore.mem.get a)
        ∧ t.fld Pg.fstore (Reg.FSTORE_SLOT_STATUS_STATE l.slot) = 2 ∧ t.fld Pg.fstore Reg.FSTORE_LOAD_CTRL_RESULT = 0
        ∧ t.fld Pg.fstore Reg.FSTORE_LOAD_CTRL_BUSY = 0 ∧ t.fld Pg.fstore Reg.FSTORE_EVENT_LOAD_DONE = 1 ∧ t.fstore.load = none
        ∧ (∀ u, l.cmd = some u → s.ends t u 0 0 0)
        ∧ t = { s.regsOf t with fstore := t.fstore, hq := t.hq }
        ∧ s.KeepsRegs t [keyOf (Reg.FSTORE_SLOT_STATUS_STATE l.slot) Pg.fstore, keyOf (Reg.FSTORE_SLOT_CRC l.slot) Pg.fstore,
            keyOf Reg.FSTORE_LOAD_CTRL_GO Pg.fstore, keyOf Reg.FSTORE_EVENT_LOAD_DONE Pg.fstore])
    ∧ (crc32c (s.peekN l.src n) ≠ l.crc →
      ∃ t, exec .fstoreLoadDone s = .next t
        ∧ t.fld Pg.fstore (Reg.FSTORE_SLOT_STATUS_STATE l.slot) = 0 ∧ t.fld Pg.fstore Reg.FSTORE_LOAD_CTRL_RESULT = 7
        ∧ t.fld Pg.fstore Reg.FSTORE_EVENT_LOAD_DONE = 1 ∧ t.fld Pg.fstore Reg.FSTORE_EVENT_LOAD_ERR = 1
        ∧ (∀ u, l.cmd = some u → s.ends t u 0x02 0 7)
        ∧ t = { s.regsOf t with fstore := { s.fstore with load := none }, hq := t.hq }
        ∧ s.KeepsRegs t [keyOf (Reg.FSTORE_SLOT_STATUS_STATE l.slot) Pg.fstore, keyOf (Reg.FSTORE_SLOT_CRC l.slot) Pg.fstore,
            keyOf Reg.FSTORE_LOAD_CTRL_GO Pg.fstore, keyOf Reg.FSTORE_EVENT_LOAD_DONE Pg.fstore] ∧ s.KeepsBytes t)

/-! ### The Rildal Link (R89 to R122) -/

/-- LINK_TRAIN, RX_TRAIN, EQ_ADAPT_DONE and TRAIN_TIMEOUT (R89, R97 to R103): with the capture group stopped, ENABLE 1 and a lane count that the
port's lanes allow, bring-up begins: the port is in training, its counters of the last bring-up are 0 and it sends TRAIN blocks; otherwise the
write raises STATE_REJECT and nothing is sent. The first TRAIN block on a locked lane of a port in training sets the lane's polarity and identity;
the last lane of the set, with every lane locked, fixes the map, LANE_ID by LANE_ID, and the port adapts, or with EQ_MODE 1 sends EQSET; a set
that breaks R99 ends in DOWN with LANEMAP_ERR, and a skew above 32 UI with SKEW_ERR. The end of the adaptation links the port over its map,
whatever values the taps have taken, with LINK_UP; TRAIN_CFG.TIMEOUT before that leaves the port DOWN with TRAIN_FAIL, and puts back the map and
the LINK registers that TRAIN changed. The model's own choices in it: log entries 33, 97, 98, 100. -/
def Obligations.BringUp : Prop :=
  (∀ (s : State) (r : Req) (k : Nat) (v w : Word) (lanes most : Nat), k < 2 → s.accepts r (Pg.link k) 0x008 v = true →
    wmSet v Reg.LINK_CTRL_TRAIN = true → ¬ (k = 1 ∧ s.ganged = true) → w = s.written r (Pg.link k) 0x008 v →
    lanes = s.fld (Pg.link k) Reg.LINK_CFG_LANES → most = (if k = 0 ∧ wfld w Reg.LINK_CTRL_GANG = 1 then 16 else 8) →
    (s.ctl.capRun = false → wfld w Reg.LINK_CTRL_ENABLE = 1 → 1 ≤ lanes → lanes ≤ most →
      ∃ t, exec (.linkTrain r k v) s = .next t
        ∧ (t.port k).phase = .training ∧ (t.port k).trained = [] ∧ (t.port k).map = [] ∧ (t.port k).cur = none ∧ (t.port k).queue = []
        ∧ t.out = .train k :: s.out ∧ t.fld (Pg.link k) Reg.LINK_STATE_PORT = 1 ∧ t.fld (Pg.link k) Reg.LINK_CTRL_ENABLE = 1
        ∧ t.fld (Pg.link k) Reg.LINK_CTRL_TRAIN = 0 ∧ t.fld (Pg.link k) Reg.LINK_FALLBACK_DONE = 0 ∧ t.fld (Pg.link k) Reg.LINK_SKEW = 0
        ∧ (k = 1 ∨ wfld w Reg.LINK_CTRL_GANG = s.fld (Pg.link 0) Reg.LINK_CTRL_GANG →
            t.port (1 - k) = s.port (1 - k) ∧ s.KeepsPages t [Pg.link k])
        ∧ t = { s.regsOf t with portA := t.portA, portB := t.portB, out := t.out, pwr := { s.pwr with rising := t.pwr.rising } }
        ∧ s.KeepsPages t [Pg.link 0, Pg.link 1] ∧ s.KeepsBytes t)
    ∧ (s.ctl.capRun = true ∨ wfld w Reg.LINK_CTRL_ENABLE = 0 ∨ lanes = 0 ∨ most < lanes →
      ∃ t, exec (.linkTrain r k v) s = .next t ∧ t.fld (Pg.link k) Reg.COMMON_EVENT_STATE_REJECT = 1 ∧ t.out = s.out))
  ∧ (∀ (s : State) (b : TrainBlk) (k n : Nat) (ts : List TrainBlk), b.lane < 16 → k = s.portOf b.lane → (s.port k).phase = .training →
    (∀ t ∈ (s.port k).trained, t.lane ≠ b.lane) → s.laneLocked b.lane = true → ts = (s.port k).trained ++ [b] →
    n = s.fld (Pg.link k) Reg.LINK_CFG_LANES →
    ∃ t, exec (.rxTrain b) s = .next t
      ∧ t.fld (Pg.lane b.lane) Reg.LANE_RX_STATUS_TRAIN_SEEN = 1
      ∧ t.fld (Pg.lane b.lane) Reg.LANE_RX_CFG_POL_INVERT = (if b.inverted then 1 else 0)
      ∧ t.fld (Pg.lane b.lane) Reg.LANE_RX_STATUS_LANE_ID = b.laneId % 16
      ∧ (t.port k).map = (List.range n).map (fun i => ((ts.find? fun x => decide (x.laneId = i)).map (·.lane)).getD 0)
      ∧ (laneSetBad ts n k = true → (t.port k).phase = .down ∧ t.fld (Pg.link k) Reg.LINK_EVENT_LANEMAP_ERR = 1)
      ∧ (laneSetBad ts n k = false → ts.length < n → (t.port k).phase = .training ∧ (t.port k).trained = ts)
      ∧ (laneSetBad ts n k = false → (∃ x ∈ ts, s.laneLocked x.lane = false) → (t.port k).phase = .training ∧ (t.port k).trained = ts)
      ∧ (laneSetBad ts n k = false → ts.length = n → (∀ x ∈ ts, s.laneLocked x.lane = true) → 32 < (ts.map (·.skew)).foldl max 0 →
          (t.port k).phase = .down ∧ t.fld (Pg.link k) Reg.LINK_EVENT_SKEW_ERR = 1)
      ∧ (laneSetBad ts n k = false → ts.length = n → (∀ x ∈ ts, s.laneLocked x.lane = true) → (ts.map (·.skew)).foldl max 0 ≤ 32 →
          t.fld (Pg.link k) Reg.LINK_SKEW = (ts.map (·.skew)).foldl max 0
          ∧ (s.on (Pg.link k) Reg.LINK_CTRL_EQ_MODE = false → (t.port k).phase = .adapting ∧ t.out = s.out)
          ∧ (s.on (Pg.link k) Reg.LINK_CTRL_EQ_MODE = true → (∀ x ∈ ts, x.preemph = true) → (t.port k).phase = .eqset)
          ∧ (s.on (Pg.link k) Reg.LINK_CTRL_EQ_MODE = true → (∃ x ∈ ts, x.preemph = false) →
              (t.port k).phase = .down ∧ t.fld (Pg.link k) Reg.LINK_EVENT_TRAIN_FAIL = 1))
      ∧ t.port (1 - k) = s.port (1 - k) ∧ t = { s.regsOf t with portA := t.portA, portB := t.portB, out := t.out }
      ∧ s.KeepsPages t [Pg.lane b.lane, Pg.link k] ∧ s.KeepsBytes t)
  ∧ (∀ (s : State) (k : Nat), k < 2 → (s.port k).phase = .adapting → (∀ l ∈ (s.port k).map, s.portOf l = k) →
    ∃ t, exec (.eqAdaptDone k) s = .next t
      ∧ (t.port k).phase = .linked ∧ (t.port k).joined = (s.port k).map ∧ (t.port k).map = (s.port k).map ∧ (t.port k).bcUp = true
      ∧ t.fld (Pg.link k) Reg.LINK_EVENT_LINK_UP = 1
      ∧ t.fld (Pg.link k) Reg.LINK_SENSOR_CAPS_FALLBACK = (if (s.port k).trained.all (·.fallback) then 1 else 0)
      ∧ t.fld (Pg.link k) Reg.LINK_SENSOR_CAPS_PREEMPH = (if (s.port k).trained.all (·.preemph) then 1 else 0)
      ∧ t.port (1 - k) = s.port (1 - k) ∧ t = { s.regsOf t with portA := t.portA, portB := t.portB, seed := t.seed }
      ∧ s.KeepsPages t [Pg.link k] ∧ s.KeepsBytes t)
  ∧ ∀ (s : State) (k : Nat) (u : TrainUndo), k < 2 →
    (s.port k).phase = .training ∨ (s.port k).phase = .adapting ∨ (s.port k).phase = .eqset → (s.port k).undo = some u →
    u.regs.map (·.1) = trainKeys k →
    ∃ t, exec (.trainTimeout k) s = .next t
      ∧ (t.port k).phase = .down ∧ (t.port k).trained = [] ∧ t.fld (Pg.link k) Reg.LINK_EVENT_TRAIN_FAIL = 1
      ∧ t.fld (Pg.link k) Reg.LINK_STATE_LANES_LIVE = 0 ∧ (t.port k).bcUp = u.bcUp ∧ (t.port k).map = u.map
      ∧ (t.port k).fullMap = u.fullMap ∧ (∀ e ∈ u.regs, t.rd e.1 = e.2)
      ∧ t.port (1 - k) = s.port (1 - k) ∧ t = { s.regsOf t with portA := t.portA, portB := t.portB }
      ∧ (∀ a, a / 0x1000 ≠ Pg.link k → (∀ e ∈ u.inverts, a ≠ keyOf Reg.LANE_RX_CFG_POL_INVERT (Pg.lane e.1)) → t.rd a = s.rd a)
      ∧ s.KeepsBytes t

/-- LANE_LOS, CDR_LOSS, BLOCK_LOCK_LOST, LANE_LOS_CLEAR, CDR_LOCK, BLOCK_LOCK_GAINED, ALIGN_NEEDED and RX_ALIGN (R97, R106, R110, R111, R124):
each sets or clears its bits of the lane's status, and a loss counts and raises its event; a lane of the map in force that was live leaves the
port with LANE_LOSS and begins an outage, and the taps that its adaptation has reached stay; a receive lane that is no sensor lane counts and
raises its event alone. A lane with clock but no block lock raises ALIGN_NEEDED; an ALIGN block lets every locked lane of the full map rejoin a
linked port, ends its outage and raises LANE_RELOCK. The model's own choices in it: log entries 30, 31, 33, 102. -/
def Obligations.LaneStatus : Prop :=
  (∀ (s : State) (l k : Nat), l < 16 → k = s.portOf l → s.fld (Pg.lane l) Reg.LANE_RX_STATUS_LOS = 0 →
    ∃ t, exec (.laneLos l) s = .next t
      ∧ t.fld (Pg.lane l) Reg.LANE_RX_STATUS_LOS = 1 ∧ t.fld (Pg.lane l) Reg.LANE_EVENT_LOS = 1
      ∧ t.fld (Pg.lane l) Reg.LANE_LOS_COUNT = min (s.fld (Pg.lane l) Reg.LANE_LOS_COUNT + 1) (2 ^ 16 - 1)
      ∧ (s.laneLive k l = true → (s.port k).phase = .linked → l ∈ (s.port k).map →
          t.fld (Pg.link k) Reg.LINK_EVENT_LANE_LOSS = 1 ∧ (t.port k).outages = (s.port k).outages ++ [(l, 0)] ∧ t.laneLive k l = false)
      ∧ (s.laneLive k l = false → ∀ j, t.port j = { s.port j with taps := (t.port j).taps })
      ∧ t = { s.regsOf t with portA := t.portA, portB := t.portB, seed := t.seed } ∧ s.KeepsPages t [Pg.lane l, Pg.link k] ∧ s.KeepsBytes t)
  ∧ (∀ (s : State) (l k : Nat), l < 16 → k = s.portOf l → s.fld (Pg.lane l) Reg.LANE_RX_STATUS_CDR_LOCK = 1 →
    ∃ t, exec (.cdrLoss l) s = .next t
      ∧ t.fld (Pg.lane l) Reg.LANE_RX_STATUS_CDR_LOCK = 0 ∧ t.fld (Pg.lane l) Reg.LANE_EVENT_CDR_LOST = 1
      ∧ (s.laneLive k l = true → (s.port k).phase = .linked → l ∈ (s.port k).map →
          t.fld (Pg.link k) Reg.LINK_EVENT_LANE_LOSS = 1 ∧ (t.port k).outages = (s.port k).outages ++ [(l, 0)] ∧ t.laneLive k l = false)
      ∧ (s.laneLive k l = false → t.portA = s.portA ∧ t.portB = s.portB)
      ∧ t = { s.regsOf t with portA := t.portA, portB := t.portB } ∧ s.KeepsPages t [Pg.lane l, Pg.link k] ∧ s.KeepsBytes t)
  ∧ (∀ (s : State) (l k : Nat), l < 16 → k = s.portOf l → s.fld (Pg.lane l) Reg.LANE_RX_STATUS_BLOCK_LOCK = 1 →
    ∃ t, exec (.blockLockLost l) s = .next t
      ∧ t.fld (Pg.lane l) Reg.LANE_RX_STATUS_BLOCK_LOCK = 0 ∧ t.fld (Pg.lane l) Reg.LANE_EVENT_BLOCK_LOCK_LOST = 1
      ∧ (s.laneLive k l = true → (s.port k).phase = .linked → l ∈ (s.port k).map →
          t.fld (Pg.link k) Reg.LINK_EVENT_LANE_LOSS = 1 ∧ (t.port k).outages = (s.port k).outages ++ [(l, 0)] ∧ t.laneLive k l = false)
      ∧ (s.laneLive k l = false → ∀ j, t.port j = { s.port j with taps := (t.port j).taps })
      ∧ t = { s.regsOf t with portA := t.portA, portB := t.portB, seed := t.seed } ∧ s.KeepsPages t [Pg.lane l, Pg.link k] ∧ s.KeepsBytes t)
  ∧ (∀ (s : State) (l : Nat), 22 ≤ l → l ≤ 45 →
    ∃ t, exec (.laneLos l) s = .next t ∧ t.fld (Pg.lane l) Reg.LANE_EVENT_LOS = 1
      ∧ t.fld (Pg.lane l) Reg.LANE_LOS_COUNT = min (s.fld (Pg.lane l) Reg.LANE_LOS_COUNT + 1) (2 ^ 16 - 1)
      ∧ s.Kept t [keyOf Reg.LANE_EVENT_LOS (Pg.lane l), keyOf Reg.LANE_LOS_COUNT (Pg.lane l)])
  ∧ (∀ (s : State) (l : Nat), 22 ≤ l → l ≤ 45 →
    ∃ t, exec (.cdrLoss l) s = .next t ∧ t.fld (Pg.lane l) Reg.LANE_EVENT_CDR_LOST = 1
      ∧ t.fld (Pg.lane l) Reg.LANE_LOL_COUNT = min (s.fld (Pg.lane l) Reg.LANE_LOL_COUNT + 1) (2 ^ 16 - 1)
      ∧ s.Kept t [keyOf Reg.LANE_EVENT_CDR_LOST (Pg.lane l), keyOf Reg.LANE_LOL_COUNT (Pg.lane l)])
  ∧ (∀ (s : State) (l : Nat), l < 16 →
    ∃ t, exec (.laneLosClear l) s = .next t ∧ t.fld (Pg.lane l) Reg.LANE_RX_STATUS_LOS = 0
      ∧ s.Kept t [keyOf Reg.LANE_RX_STATUS_LOS (Pg.lane l)])
  ∧ (∀ (s : State) (l : Nat), l < 16 →
    ∃ t, exec (.cdrLock l) s = .next t ∧ t.fld (Pg.lane l) Reg.LANE_RX_STATUS_CDR_LOCK = 1
      ∧ s.Kept t [keyOf Reg.LANE_RX_STATUS_CDR_LOCK (Pg.lane l)])
  ∧ (∀ (s : State) (l : Nat), l < 16 →
    ∃ t, exec (.blockLockGained l) s = .next t ∧ t.fld (Pg.lane l) Reg.LANE_RX_STATUS_BLOCK_LOCK = 1
      ∧ s.Kept t [keyOf Reg.LANE_RX_STATUS_BLOCK_LOCK (Pg.lane l)])
  ∧ (∀ (s : State) (l : Nat), l < 16 → s.fld (Pg.lane l) Reg.LANE_RX_STATUS_CDR_LOCK = 1 →
    s.fld (Pg.lane l) Reg.LANE_RX_STATUS_BLOCK_LOCK = 0 →
    ∃ t, exec (.alignNeeded l) s = .next t ∧ t.fld (Pg.link (s.portOf l)) Reg.LINK_EVENT_ALIGN_NEEDED = 1
      ∧ s.Kept t [keyOf Reg.LINK_EVENT_ALIGN_NEEDED (Pg.link (s.portOf l))])
  ∧ ∀ (s : State) (k n : Nat) (back : List Nat), k < 2 → (s.port k).phase = .linked →
    back = (s.port k).fullMap.filter (fun l => s.laneLocked l && !(s.port k).joined.contains l) → back ≠ [] →
    ∃ t, exec (.rxAlign k n) s = .next t
      ∧ (t.port k).joined = (s.port k).joined ++ back ∧ (∀ l ∈ (s.port k).fullMap, s.laneLocked l = true → t.laneLive k l = true)
      ∧ (t.port k).outages = (s.port k).outages.filter (fun e => !back.contains e.1)
      ∧ (t.port k).map = (s.port k).map ∧ t.fld (Pg.link k) Reg.LINK_EVENT_LANE_RELOCK = 1 ∧ t.port (1 - k) = s.port (1 - k)
      ∧ t = { s.regsOf t with portA := t.portA, portB := t.portB } ∧ s.KeepsPages t [Pg.link k] ∧ s.KeepsBytes t

/-- BC_MAILBOX_GO, HEARTBEAT, RX_SMSG, BC_ACK_TIMEOUT and FALLBACK_ACK_TIMEOUT (R91, R96, R111, R115, R116, R118): GO with BUSY at 0 sends WR or
RD with the next SEQ, at once or behind the message in progress, and BUSY is 1; with BUSY at 1 the write raises STATE_REJECT alone; a heartbeat
carries its sequence number, a timeout of at least four periods and the frame number. On a port that a lane in block lock hears, an answer with
the SEQ of the message in progress ends it, and a mailbox operation with its RESULT, read data and SENSOR_MSG; without an answer the message goes
out again with the same SEQ, at most three times, and then BC_FAIL is raised; sensor status raises SENSOR_MSG; a LANEMAP that is not acknowledged
is given up with FALLBACK_CANCEL. The model's own choices in it: log entries 32, 36, 100, 101. -/
def Obligations.BackChannel : Prop :=
  (∀ (s : State) (r : Req) (k : Nat) (v : Word) (m : BcMsg), k < 2 → s.accepts r (Pg.link k) 0x088 v = true → ¬ (k = 1 ∧ s.ganged = true) →
    wfld v Reg.LINK_BC_CTRL_GO = 1 → s.on (Pg.link k) Reg.LINK_BC_CTRL_BUSY = false →
    m = { op := wfld v Reg.LINK_BC_CTRL_OP, arg := 0, use := .mailbox, seq := (s.port k).seq
          data := [(s.fld (Pg.link k) Reg.LINK_BC_ADDR, if wfld v Reg.LINK_BC_CTRL_OP = 0 then s.fld (Pg.link k) Reg.LINK_BC_DATA else 0)] } →
    ∃ t, exec (.bcMailboxGo r k v) s = .next t
      ∧ t.fld (Pg.link k) Reg.LINK_BC_CTRL_BUSY = 1 ∧ (t.port k).seq = ((s.port k).seq + 1) % 256
      ∧ ((s.port k).cur = none → (t.port k).cur = some m ∧ t.out = .bc k m.op m.seq m.arg m.data m.blocks :: s.out)
      ∧ ((s.port k).cur.isSome = true → (t.port k).queue = (s.port k).queue ++ [m] ∧ (t.port k).cur = (s.port k).cur ∧ t.out = s.out)
      ∧ t = { s with regs := t.regs, portA := t.portA, portB := t.portB, out := t.out }
      ∧ s.KeepsRegs t [keyOf Reg.LINK_BC_CTRL_GO (Pg.link k)] ∧ s.KeepsBytes t
      ∧ m.blocks.head? = some (0xD4 + m.seq % 256 * 2 ^ 8 + m.op % 16 * 2 ^ 16 + 1 * 2 ^ 20))
  ∧ (∀ (s : State) (r : Req) (k : Nat) (v : Word), k < 2 → s.accepts r (Pg.link k) 0x088 v = true → ¬ (k = 1 ∧ s.ganged = true) →
    wfld v Reg.LINK_BC_CTRL_GO = 1 → s.on (Pg.link k) Reg.LINK_BC_CTRL_BUSY = true →
    ∃ t, exec (.bcMailboxGo r k v) s = .next t ∧ s.Rejected t (Pg.link k))
  ∧ (∀ (s : State) (k : Nat), k < 2 → (s.port k).bcUp = true → s.on (Pg.link k) Reg.LINK_CTRL_ENABLE = true → s.ctl.mode ≠ .sleep →
    ¬ (k = 1 ∧ s.ganged = true) →
    ∃ t timeout, exec (.heartbeat k) s = .next t
      ∧ timeout = max (s.fld (Pg.link k) Reg.LINK_TIMING_HB_TIMEOUT)
          (4 * max 1 (min 1000 (s.fld (Pg.link k) Reg.LINK_TIMING_HB_PERIOD)))
      ∧ t.out = .hb k (s.port k).hbSeq timeout (s.frameNow % 2 ^ 32) (hbBlock (s.port k).hbSeq timeout (s.frameNow % 2 ^ 32)) :: s.out
      ∧ t.port k = { s.port k with hbSeq := ((s.port k).hbSeq + 1) % 256 } ∧ t.port (1 - k) = s.port (1 - k)
      ∧ t = { s with portA := t.portA, portB := t.portB, out := t.out })
  ∧ (∀ (s : State) (k q d : Nat), s.hears k = true → ∃ t, exec (.rxSmsg k q 3 d) s = .next t ∧ t.fld (Pg.link k) Reg.LINK_EVENT_SENSOR_MSG = 1
      ∧ s.Kept t [keyOf Reg.LINK_EVENT_SENSOR_MSG (Pg.link k)])
  ∧ (∀ (s : State) (k q kind d : Nat) (m : BcMsg), k < 2 → s.hears k = true → (s.port k).cur = some m → m.seq = q % 256 → kind < 3 →
    m.use = .mailbox →
    ∃ t, exec (.rxSmsg k q kind d) s = .next t
      ∧ t.fld (Pg.link k) Reg.LINK_BC_CTRL_BUSY = 0 ∧ t.fld (Pg.link k) Reg.LINK_BC_CTRL_RESULT = (if kind = 2 then 1 else 0)
      ∧ (kind = 1 → t.fld (Pg.link k) Reg.LINK_BC_RDATA = d % 2 ^ 32) ∧ t.fld (Pg.link k) Reg.LINK_EVENT_SENSOR_MSG = 1
      ∧ (t.port k).cur = (s.port k).queue.head? ∧ (t.port k).queue = (s.port k).queue.tail
      ∧ t.port (1 - k) = s.port (1 - k) ∧ t = { s.regsOf t with portA := t.portA, portB := t.portB, out := t.out }
      ∧ s.KeepsRegs t [keyOf Reg.LINK_BC_CTRL_GO (Pg.link k), keyOf Reg.LINK_BC_RDATA (Pg.link k), keyOf Reg.LINK_EVENT_SENSOR_MSG (Pg.link k)]
      ∧ s.KeepsBytes t)
  ∧ (∀ (s : State) (k : Nat) (m : BcMsg), k < 2 → (s.port k).cur = some m → m.resends < 3 →
    ∃ t, exec (.bcAckTimeout k) s = .next t
      ∧ t.out = .bc k m.op m.seq m.arg m.data m.blocks :: s.out ∧ (t.port k).cur = some { m with resends := m.resends + 1 }
      ∧ (t.port k).queue = (s.port k).queue ∧ t.port (1 - k) = s.port (1 - k)
      ∧ t = { s with portA := t.portA, portB := t.portB, out := t.out })
  ∧ (∀ (s : State) (k : Nat) (m : BcMsg), k < 2 → (s.port k).cur = some m → 3 ≤ m.resends →
    ∃ t, exec (.bcAckTimeout k) s = .next t
      ∧ t.fld (Pg.link k) Reg.LINK_EVENT_BC_FAIL = 1 ∧ (t.port k).cur = (s.port k).queue.head?
      ∧ (m.use = .mailbox → t.fld (Pg.link k) Reg.LINK_BC_CTRL_RESULT = 2 ∧ t.fld (Pg.link k) Reg.LINK_BC_CTRL_BUSY = 0)
      ∧ t.port (1 - k) = s.port (1 - k) ∧ t = { s.regsOf t with portA := t.portA, portB := t.portB, out := t.out }
      ∧ s.KeepsPages t [Pg.link k] ∧ s.KeepsBytes t)
  ∧ ∀ (s : State) (k : Nat), k < 2 → (s.port k).fallFrame.isSome = true → (s.port k).fallAck = false →
    ∃ t, exec (.fallbackAckTimeout k) s = .next t
      ∧ t.port k = { s.port k with fallFrame := none } ∧ t.fld (Pg.link k) Reg.LINK_EVENT_FALLBACK_CANCEL = 1
      ∧ t.fld (Pg.link k) Reg.LINK_EVENT_BC_FAIL = 1 ∧ t.port (1 - k) = s.port (1 - k)
      ∧ t = { s.regsOf t with portA := t.portA, portB := t.portB }
      ∧ s.KeepsRegs t [keyOf Reg.LINK_EVENT_BC_FAIL (Pg.link k)] ∧ s.KeepsBytes t

/-- RX_SOL and RX_PACKET (R94, R107, R110, R133): SOL opens the segment of a live lane of the map; a packet with valid headers and lock, whose
line, offset and length agree with the segment and whose CRC is that of its data, joins the segment; a lane that rejoined after its SOL takes the
line from its first packet. A packet with an invalid header, without lock, of another line or with a CRC that differs is discarded, counted and
raises PKT_DISCARD. The model's own choices in it: log entries 31, 35, 99. -/
def Obligations.LineData : Prop :=
  (∀ (s : State) (k l y depth dg cells : Nat), k < 2 → ¬ (k = 1 ∧ s.ganged = true) → l < (s.port k).map.length →
    s.laneLive k ((s.port k).map.getD l 0) = true →
    ∃ t, exec (.rxSol k l y depth dg cells) s = .next t
      ∧ (t.port k).segs.get l =
          { sol := true, line := y, cells := cells
            badFormat := decide (depth ≠ s.fld (Pg.link k) Reg.LINK_CFG_DEPTH) || decide (dg ≠ s.fld (Pg.link k) Reg.LINK_CFG_DUAL_GAIN) }
      ∧ (∀ j, j ≠ l → (t.port k).segs.get j = (s.port k).segs.get j)
      ∧ t = (if k = 0 then { s with portA := { s.portA with segs := t.portA.segs } } else { s with portB := { s.portB with segs := t.portB.segs } }))
  ∧ ∀ (s : State) (k : Nat) (p : Packet) (g : LaneSeg) (n : Nat), k < 2 → ¬ (k = 1 ∧ s.ganged = true) → p.lane < (s.port k).map.length →
    s.laneLive k ((s.port k).map.getD p.lane 0) = true → g = (s.port k).segs.get p.lane → n = p.data.length / 8 →
    (g.sol = true → p.headersOk = true → p.lockHeld = true → p.line = g.line → p.off % 64 = 0 → g.next ≤ p.off → p.data.length = 8 * n →
      n = min 64 (segBlocks g.cells (depthOf (s.fld (Pg.link k) Reg.LINK_CFG_DEPTH)) (s.on (Pg.link k) Reg.LINK_CFG_DUAL_GAIN) - p.off) →
      0 < n → crc32c p.data = p.crc →
      ∃ t, exec (.rxPacket k p) s = .next t
        ∧ (t.port k).segs.get p.lane = { g with next := p.off + n, packets := g.packets ++ [(p.off, p.data)] }
        ∧ (∀ j, j ≠ p.lane → (t.port k).segs.get j = (s.port k).segs.get j)
        ∧ t = (if k = 0 then { s with portA := { s.portA with segs := t.portA.segs } }
            else { s with portB := { s.portB with segs := t.portB.segs } }))
    ∧ (g.sol = false → p.headersOk = true → p.lockHeld = true → (g.packets ≠ [] → p.line = g.line) → p.off % 64 = 0 → g.next ≤ p.off →
      p.data.length = 8 * n → 0 < n → n ≤ 64 → crc32c p.data = p.crc →
      ∃ t, exec (.rxPacket k p) s = .next t
        ∧ (t.port k).segs.get p.lane =
            { g with line := p.line, cells := 65536, next := p.off + n, packets := g.packets ++ [(p.off, p.data)] }
        ∧ (∀ j, j ≠ p.lane → (t.port k).segs.get j = (s.port k).segs.get j)
        ∧ t = (if k = 0 then { s with portA := { s.portA with segs := t.portA.segs } }
            else { s with portB := { s.portB with segs := t.portB.segs } }))
    ∧ (p.headersOk = false ∨ p.lockHeld = false ∨ (g.sol = true ∨ g.packets ≠ []) ∧ p.line ≠ g.line ∨ crc32c p.data ≠ p.crc →
      ∃ t, exec (.rxPacket k p) s = .next t
        ∧ t.fld (Pg.link k) Reg.LINK_PKT_DISCARDS = min (s.fld (Pg.link k) Reg.LINK_PKT_DISCARDS + 1) (2 ^ 32 - 1)
        ∧ t.fld (Pg.link k) Reg.LINK_EVENT_PKT_DISCARD = 1
        ∧ s.Kept t [keyOf Reg.LINK_PKT_DISCARDS (Pg.link k), keyOf Reg.LINK_EVENT_PKT_DISCARD (Pg.link k)])

/-- TEST_CTRL_WRITE, INJECT_ONE, CHECKER_SYNC_GAINED and CHECKER_SYNC_LOST (R115, R120 to R122): outside SERVICE a lane's generator and checker
can be turned on only on the host link's lanes; ERR_COUNT and BIT_COUNT are 0 as CHK_EN rises; a sensor lane whose checker is turned on at LOOP 0
asks its sensor for the pattern. INJECT_ONE inverts one bit of a generator that sends, which a checker in sync on the lane's own loop counts. A
checker gains sync on 64 bits of its pattern, and one that loses it on more than 256 errors has counted the errors and bits up to then and raises
CHK_SYNC_LOST. The model's own choices in it: log entries 102, 103. -/
def Obligations.LaneTests : Prop :=
  (∀ (s : State) (r : Req) (l : Nat) (v w : Word), l < 48 → s.accepts r (Pg.lane l) 0x060 v = true → w = s.written r (Pg.lane l) 0x060 v →
    (wfld w Reg.LANE_TEST_CTRL_GEN_EN = 1 ∨ wfld w Reg.LANE_TEST_CTRL_CHK_EN = 1 → s.ctl.mode = .service ∨ 30 ≤ l ∧ l ≤ 37) →
    wfld v Reg.LANE_TEST_CTRL_INJECT_ONE = 0 →
    ∃ t, exec (.testCtrlWrite r l v) s = .next t
      ∧ t.fld (Pg.lane l) Reg.LANE_TEST_CTRL_GEN_EN = wfld w Reg.LANE_TEST_CTRL_GEN_EN
      ∧ t.fld (Pg.lane l) Reg.LANE_TEST_CTRL_CHK_EN = wfld w Reg.LANE_TEST_CTRL_CHK_EN
      ∧ (s.fld (Pg.lane l) Reg.LANE_TEST_CTRL_CHK_EN = 0 → wfld w Reg.LANE_TEST_CTRL_CHK_EN = 1 →
          t.fld (Pg.lane l) Reg.LANE_ERR_COUNT = 0 ∧ t.fld64 (Pg.lane l) Reg.LANE_BIT_COUNT_LO Reg.LANE_BIT_COUNT_HI = 0)
      ∧ (wfld w Reg.LANE_TEST_CTRL_CHK_EN = 0 → t.fld (Pg.lane l) Reg.LANE_TEST_STATUS = 0)
      ∧ (15 < l → t.portA = s.portA ∧ t.portB = s.portB ∧ t.out = s.out)
      ∧ (∀ m : BcMsg, l ≤ 15 → s.fld (Pg.lane l) Reg.LANE_TEST_CTRL_CHK_EN = 0 → wfld w Reg.LANE_TEST_CTRL_CHK_EN = 1 →
          wfld w Reg.LANE_TEST_CTRL_LOOP = 0 → 1 ≤ wfld w Reg.LANE_TEST_CTRL_PATTERN → wfld w Reg.LANE_TEST_CTRL_PATTERN ≤ 5 →
          (s.port (s.portOf l)).cur = none →
          m = { op := 7, arg := 0, use := .plain, seq := (s.port (s.portOf l)).seq
                data := [(wfld w Reg.LANE_TEST_CTRL_PATTERN, s.fld (Pg.lane l) Reg.LANE_USER_PAT_LO)] } →
          t.out = .bc (s.portOf l) 7 m.seq 0 m.data m.blocks :: s.out)
      ∧ t = { s.regsOf t with portA := t.portA, portB := t.portB, out := t.out } ∧ s.KeepsPages t [Pg.lane l] ∧ s.KeepsBytes t)
  ∧ (∀ (s : State) (r : Req) (l : Nat) (v w : Word), l < 48 → s.accepts r (Pg.lane l) 0x060 v = true → w = s.written r (Pg.lane l) 0x060 v →
    wfld w Reg.LANE_TEST_CTRL_GEN_EN = 1 ∨ wfld w Reg.LANE_TEST_CTRL_CHK_EN = 1 → s.ctl.mode ≠ .service → ¬ (30 ≤ l ∧ l ≤ 37) →
    ∃ t, exec (.testCtrlWrite r l v) s = .next t ∧ s.Rejected t (Pg.lane l))
  ∧ (∀ (s : State) (r : Req) (l : Nat) (v w : Word), l < 48 → s.accepts r (Pg.lane l) 0x060 v = true → w = s.written r (Pg.lane l) 0x060 v →
    s.ctl.mode = .service ∨ 30 ≤ l ∧ l ≤ 37 → wfld v Reg.LANE_TEST_CTRL_INJECT_ONE = 1 → wfld w Reg.LANE_TEST_CTRL_GEN_EN = 1 →
    15 < l ∨ wfld w Reg.LANE_TEST_CTRL_LOOP ≠ 0 →
    ∃ t, exec (.injectOne r l v) s = .next t ∧ t.out.head? = some (.inject l) ∧ (15 < l → t.out = .inject l :: s.out)
      ∧ (wfld w Reg.LANE_TEST_CTRL_CHK_EN = 0 → t.fld (Pg.lane l) Reg.LANE_ERR_COUNT = s.fld (Pg.lane l) Reg.LANE_ERR_COUNT)
      ∧ (s.fld (Pg.lane l) Reg.LANE_TEST_CTRL_CHK_EN = 1 → wfld w Reg.LANE_TEST_CTRL_CHK_EN = 1 → s.on (Pg.lane l) Reg.LANE_TEST_STATUS = true →
          1 ≤ wfld w Reg.LANE_TEST_CTRL_PATTERN → wfld w Reg.LANE_TEST_CTRL_PATTERN ≤ 5 → loopMode l (wfld w Reg.LANE_TEST_CTRL_LOOP) ≠ 0 →
          t.fld (Pg.lane l) Reg.LANE_ERR_COUNT = min (s.fld (Pg.lane l) Reg.LANE_ERR_COUNT + 1) (2 ^ 32 - 1)
            ∧ t.fld (Pg.lane l) Reg.LANE_EVENT_CHK_ERR = 1)
      ∧ t = { s.regsOf t with portA := t.portA, portB := t.portB, out := t.out } ∧ s.KeepsPages t [Pg.lane l] ∧ s.KeepsBytes t)
  ∧ (∀ (s : State) (l : Nat) (bits : List Bool), l ≤ 45 → s.chkReceives l = true → s.patternRun l bits = true →
    ∃ t, exec (.checkerSyncGained ⟨l, bits⟩) s = .next t ∧ t.fld (Pg.lane l) Reg.LANE_TEST_STATUS = 1
      ∧ s.Kept t [keyOf Reg.LANE_TEST_STATUS (Pg.lane l)])
  ∧ (∀ (s : State) (l : Nat) (bits : List Bool), s.patternRun l bits = false → exec (.checkerSyncGained ⟨l, bits⟩) s = .next s)
  ∧ (∀ (s : State) (l e b : Nat), l ≤ 45 → s.on (Pg.lane l) Reg.LANE_TEST_STATUS = true → 256 < e → e ≤ b →
    ∃ t, exec (.checkerSyncLost l e b) s = .next t
      ∧ t.fld (Pg.lane l) Reg.LANE_TEST_STATUS = 0 ∧ t.fld (Pg.lane l) Reg.LANE_EVENT_CHK_SYNC_LOST = 1
      ∧ t.fld (Pg.lane l) Reg.LANE_ERR_COUNT = min (s.fld (Pg.lane l) Reg.LANE_ERR_COUNT + e) (2 ^ 32 - 1)
      ∧ t.fld64 (Pg.lane l) Reg.LANE_BIT_COUNT_LO Reg.LANE_BIT_COUNT_HI =
          (s.fld64 (Pg.lane l) Reg.LANE_BIT_COUNT_LO Reg.LANE_BIT_COUNT_HI + b) % 2 ^ 64
      ∧ s.KeptPages t [Pg.lane l])
  ∧ ∀ (s : State) (l e b : Nat), e ≤ 256 → exec (.checkerSyncLost l e b) s = .next s

/-! ### Modes and takes (R56 to R74, R296, R304, R305) -/

/-- SET_MODE between STANDBY, LIVE and RECORD (R62, R64, R68, R70): from STANDBY to LIVE or RECORD the budget check begins; between LIVE and
RECORD the move waits for its boundary; to STANDBY the last frame is the present one; MODE reads 0b111 and the command runs on. The model's own
choices in it: log entries 20, 38. -/
def Obligations.MovesBegin : Prop :=
  (∀ (s : State) (tag : Nat) (h : HostData) (target : Mode) (bufs : List (Nat × Nat)), s.asksMode tag h target bufs →
    s.ctl.phase = .settled → s.ctl.mode = .standby → target = .live ∨ target = .record → s.modeHeld target = false →
    ∃ t, exec (.setMode tag h) s = .next t
      ∧ t.ctl = { s.ctl with
          phase := .checking target (some (s.hq.cmds.get tag).uid), capRun := true, frameSeen := false, stopFrame := none
          recStart := none, recEnd := none }
      ∧ t.fld Pg.global Reg.GLOBAL_STATE_MODE = 7
      ∧ t.hq.cmds.get tag = { s.hq.cmds.get tag with stage := .running, len := 0, bufs := bufs } ∧ s.OnlyTag t tag
      ∧ t = { s with regs := t.regs, ctl := t.ctl, hq := { s.hq with cmds := t.hq.cmds } }
      ∧ s.KeepsRegs t [keyOf Reg.GLOBAL_STATE_MODE Pg.global])
  ∧ (∀ (s : State) (tag : Nat) (h : HostData) (target : Mode) (bufs : List (Nat × Nat)), s.asksMode tag h target bufs →
    s.isSwitch target = true → s.modeHeld target = false → (target = .record → s.recordBad s.ctl.charged = false) →
    ∃ t, exec (.setMode tag h) s = .next t
      ∧ t.ctl.phase = .switching target (some (s.hq.cmds.get tag).uid) ∧ t.ctl.mode = s.ctl.mode
      ∧ t.fld Pg.global Reg.GLOBAL_STATE_MODE = 7
      ∧ (target = .record → t.ctl.recStart = boundaryOf (s.hq.cmds.get tag) ∧ t.ctl.recEnd = none)
      ∧ (target = .live → t.ctl.recStart = s.ctl.recStart ∧ t.ctl.recEnd = boundaryOf (s.hq.cmds.get tag))
      ∧ t.hq.cmds.get tag = { s.hq.cmds.get tag with stage := .running, len := 0, bufs := bufs } ∧ s.OnlyTag t tag
      ∧ t = { s with regs := t.regs, hq := { s.hq with cmds := t.hq.cmds }
                     ctl := { s.ctl with phase := t.ctl.phase, recStart := t.ctl.recStart, recEnd := t.ctl.recEnd } }
      ∧ s.KeepsRegs t [keyOf Reg.GLOBAL_STATE_MODE Pg.global])
  ∧ ∀ (s : State) (tag : Nat) (h : HostData) (bufs : List (Nat × Nat)), s.asksMode tag h .standby bufs →
    s.ctl.phase = .settled → s.ctl.mode = .live ∨ s.ctl.mode = .record →
    ∃ t, exec (.setMode tag h) s = .next t
      ∧ t.ctl.phase = .stopping (some (s.hq.cmds.get tag).uid) ∧ t.ctl.mode = s.ctl.mode ∧ t.ctl.stopFrame = some s.frameNow
      ∧ t.ctl.recEnd = (if s.ctl.mode = .record then some (s.frameNow + 1) else s.ctl.recEnd)
      ∧ t.ctl.groups = s.ctl.groups.filter (fun g => decide (g.1 ≤ s.frameNow))
      ∧ t.fld Pg.global Reg.GLOBAL_STATE_MODE = 7 ∧ t.fld Pg.trig Reg.TRIG_STATE_PHASE = 0
      ∧ t.hq.cmds.get tag = { s.hq.cmds.get tag with stage := .running, len := 0, bufs := bufs } ∧ s.OnlyTag t tag
      ∧ t = { s with regs := t.regs, ctl := t.ctl, portA := t.portA, portB := t.portB, out := t.out
                     hq := { s.hq with cmds := t.hq.cmds } }

/-- SET_MODE into and out of REVIEW, SERVICE and SLEEP, and of a START that waits for its first frame (R56, R60, R65, R66, R69): the new mode is
in force, MODE shows it, and the command completes with status 0; a cancelled START completes with status 0x07. Each names the engines that it
stops; what another block holds is lost only where its domain goes off, and the drives keep their bytes. The model's own choices in it: log
entries 18, 22, 24, 25. -/
def Obligations.ModesChange : Prop :=
  (∀ (s : State) (tag : Nat) (h : HostData) (bufs : List (Nat × Nat)), s.asksMode tag h .review bufs →
    s.ctl.phase = .settled → s.ctl.mode = .standby → s.modeHeld .review = false →
    ∃ t, exec (.setMode tag h) s = .next t
      ∧ t.fld Pg.global Reg.GLOBAL_STATE_MODE = 3 ∧ t.drdec = {} ∧ t.hdec = [] ∧ s.EndsOk t tag
      ∧ t = { s.regsOf t with
          ctl := { s.ctl with mode := .review, phase := .settled, latches := t.ctl.latches }, hq := { t.hq with dbErrHeld := s.hq.dbErrHeld }
          dramc := t.dramc, pwr := { s.pwr with rising := t.pwr.rising }, drdec := t.drdec, hdec := t.hdec
          ingress := { s.ingress with frameVals := t.ingress.frameVals }, split := { t.split with holds := s.split.holds }
          media := { s.media with review := t.media.review } }
      ∧ s.KeepsOn t ([Pg.global, Pg.recorder, Pg.split, Pg.drdec, Pg.dramctl] ++ pagesOf Pg.hdec 2 ++ pagesOf Pg.dram 8)
      ∧ s.KeepsStores t)
  ∧ (∀ (s : State) (tag : Nat) (h : HostData) (bufs : List (Nat × Nat)), s.asksMode tag h .standby bufs →
    s.ctl.phase = .settled → s.ctl.mode = .review →
    ∃ t, exec (.setMode tag h) s = .next t
      ∧ t.fld Pg.global Reg.GLOBAL_STATE_MODE = 0 ∧ t.ctl.groups = s.ctl.groups.filter (fun g => decide (g.1 ≤ 0)) ∧ s.EndsOk t tag
      ∧ t = { s.regsOf t with
          ctl := { s.ctl with
            mode := .standby, phase := .settled, groups := t.ctl.groups, snaps := t.ctl.snaps, latches := t.ctl.latches }
          hq := { t.hq with dbErrHeld := s.hq.dbErrHeld }, pwr := t.pwr, drdec := {}, ingress := { s.ingress with reading := none }
          split := { s.split with pics := [], holds := t.split.holds }, media := { s.media with review := {} }
          aud := t.aud, cond := t.cond, flows := t.flows, fstore := t.fstore, hdec := t.hdec, loupe := t.loupe, mirror := t.mirror
          portA := t.portA, portB := t.portB, relay := t.relay }
      ∧ ({ s with drdec := {}, loupe := t.loupe } : State).KeepsEngines t
      ∧ s.KeepsOn t ([Pg.global, Pg.therm, Pg.pwr, Pg.recorder, Pg.fstore] ++ pagesOf Pg.loupe 4) false ∧ s.KeepsStores t)
  ∧ (∀ (s : State) (tag : Nat) (h : HostData) (bufs : List (Nat × Nat)), s.asksMode tag h .service bufs →
    s.ctl.phase = .settled → s.ctl.mode = .standby →
    ∃ t, exec (.setMode tag h) s = .next t
      ∧ t.fld Pg.global Reg.GLOBAL_STATE_MODE = 4
      ∧ (∀ n, n < 4 → t.engineRuns n = false) ∧ (∀ p, p < 4 → t.audPhase p = 0)
      ∧ (∀ e, e < 2 → t.on (Pg.eth e) Reg.ETH_STATE_LINK_UP = false) ∧ s.EndsOk t tag
      ∧ t = { s.regsOf t with
          ctl := { s.ctl with mode := .service, phase := .settled, snaps := t.ctl.snaps, latches := t.ctl.latches }
          hq := { t.hq with dbErrHeld := s.hq.dbErrHeld }, pwr := t.pwr, split := { s.split with holds := t.split.holds }
          aud := t.aud, loupe := t.loupe, flows := t.flows, mirror := [], out := t.out, dram := t.dram
          cond := t.cond, drdec := t.drdec, hdec := t.hdec, fstore := t.fstore, portA := t.portA, portB := t.portB, relay := t.relay }
      ∧ ({ s with aud := t.aud, loupe := t.loupe, flows := t.flows, mirror := [] } : State).KeepsEngines t
      ∧ s.KeepsOn t ([Pg.global, Pg.pwr] ++ pagesOf Pg.aud 4 ++ pagesOf Pg.loupe 4 ++ pagesOf Pg.eth 2)
      ∧ ((∀ p, p < 4 → s.audPhase p = 0) → ∀ a, t.dram.get a = s.dram.get a))
  ∧ (∀ (s : State) (tag : Nat) (h : HostData) (bufs : List (Nat × Nat)), s.asksMode tag h .standby bufs →
    s.ctl.phase = .settled → s.ctl.mode = .service →
    ∃ t, exec (.setMode tag h) s = .next t
      ∧ t.fld Pg.global Reg.GLOBAL_STATE_MODE = 0 ∧ t.hq.dbErrHeld = false ∧ s.EndsOk t tag
      ∧ t.fld Pg.array Reg.ARRAY_GENERATION = s.fld Pg.array Reg.ARRAY_GENERATION
      ∧ t = { s.regsOf t with
          ctl := { s.ctl with mode := .standby, phase := .settled, snaps := [], loHold := [], busErrHeld := false, latches := t.ctl.latches }
          hq := t.hq, pwr := t.pwr, out := t.out, seed := t.seed, aud := t.aud, cond := t.cond, drdec := t.drdec, flows := t.flows
          fstore := t.fstore, hdec := t.hdec, loupe := t.loupe, mirror := t.mirror, portA := t.portA, portB := t.portB, relay := t.relay }
      ∧ s.KeepsStores t)
  ∧ (∀ (s : State) (tag : Nat) (h : HostData) (bufs : List (Nat × Nat)), s.asksMode tag h .sleep bufs →
    s.ctl.phase = .settled → s.ctl.mode = .standby → s.modeHeld .sleep = false →
    ∃ t, exec (.setMode tag h) s = .next t
      ∧ (∀ p, p ∈ allPages → s.sleepsOff p = true → t.fld p Reg.COMMON_PWR_REQ_STATUS = 0)
      ∧ (∀ a, (s.fld Pg.dramctl Reg.DRAMCTL_PASR).testBit (a / max 1 (s.dramSize / 8)) = false → t.dram.get a = 0)
      ∧ (∀ a, s.stageBase ≤ a → a < s.stageBase + stageUnit * s.stageUnits → t.dram.get a = 0)
      ∧ ((∀ p, p < 4 → s.audPhase p = 0) → ∀ a, (s.fld Pg.dramctl Reg.DRAMCTL_PASR).testBit (a / max 1 (s.dramSize / 8)) = true →
          (a < s.stageBase ∨ s.stageBase + stageUnit * s.stageUnits ≤ a) → t.dram.get a = s.dram.get a)
      ∧ (∀ k, k < 2 → (t.drive k).writes = [] ∧ (t.drive k).mem = (s.drive k).mem)
      ∧ t.completed tag 0 0 0 ∧ s.OnlyTag t tag
      ∧ t = { s.regsOf t with
          ctl := { s.ctl with mode := .sleep, phase := .settled, snaps := t.ctl.snaps, latches := t.ctl.latches }
          hq := { s.hq with cmds := t.hq.cmds, ghosts := t.hq.ghosts, logUsed := 0 }, pwr := { s.pwr with rising := [], held := [] }
          stages := [], media := { s.media with vol := none, drives := t.media.drives }, portA := {}, portB := {}, mirror := []
          fstore := { s.fstore with mem := [] }, relay := { s.relay with descs := [] }, split := { s.split with holds := t.split.holds }
          cond := t.cond, drdec := {}, hdec := t.hdec, aud := t.aud, loupe := t.loupe, flows := [], out := t.out, dram := t.dram })
  ∧ ∀ (s : State) (tag : Nat) (h : HostData) (bufs : List (Nat × Nat)) (target : Mode) (cmd : Option Nat),
    s.asksMode tag h .standby bufs → s.ctl.phase = .starting target cmd → cmd ≠ some (s.hq.cmds.get tag).uid → s.fw.waiting = none →
    s.fw.failover = false →
    ∃ t, exec (.setMode tag h) s = .next t
      ∧ t.fld Pg.global Reg.GLOBAL_STATE_MODE = 0 ∧ t.fld Pg.trig Reg.TRIG_STATE_PHASE = 0
      ∧ t.fld Pg.ingress Reg.INGRESS_STATE_PHASE = 0
      ∧ t.completed tag 0 0 0 ∧ (∀ u, cmd = some u → s.ends t u 0x07 0 0)
      ∧ (∀ g, g ≠ tag → (∀ u, cmd = some u → (s.hq.cmds.get g).uid ≠ u) → t.hq.cmds.get g = s.hq.cmds.get g)
      ∧ t = { s.regsOf t with
          ctl := { s.ctl with mode := .standby, phase := .settled, capRun := false, recStart := none, latches := t.ctl.latches }
          hq := { s.hq with
            cmds := t.hq.cmds, ghosts := t.hq.ghosts, errors := t.hq.errors, errCount0 := t.hq.errCount0, errCount1 := t.hq.errCount1 }
          pwr := t.pwr, out := t.out, aud := t.aud, cond := t.cond, drdec := t.drdec, flows := t.flows, fstore := t.fstore, hdec := t.hdec
          loupe := t.loupe, mirror := t.mirror, portA := t.portA, portB := t.portB, relay := t.relay }
      ∧ ({ s with portA := t.portA, portB := t.portB } : State).KeepsEngines t
      ∧ s.KeepsOn t ([Pg.global, Pg.pwr, Pg.ingress, Pg.drawctl, Pg.recorder, Pg.trig] ++ pagesOf Pg.link 2 ++ pagesOf Pg.henc 8)
      ∧ s.KeepsStores t

/-- SET_MODE where a rule refuses the move (R62, R63, R64, R490, R502), of a command that passes the checks that R292 places before: from PF1, one
that names SLEEP or SERVICE, or that arrives in SERVICE, completes with status 0x02; while STOPPING is 1, one to any mode but STANDBY completes
with status 0x0C; so does one that would start a take or enter REVIEW while LEVEL is 2, one to SLEEP while GENERATION is not 0, and one that is no
transition of the present mode. Nothing but the completion and the error log changes, so the mode stays: only PF0 leaves SERVICE. A move from LIVE
into RECORD that the recording checks forbid raises CFG_ERR and completes with status 0x02. -/
def Obligations.ModesRefused : Prop :=
  (∀ (s : State) (tag : Nat) (h : HostData) (c : Cmd), s.mayRun tag 0x10 → c = s.hq.cmds.get tag → c.fn = .pf1 →
    modeOf (c.cdw 8 % 8) = some .service ∨ modeOf (c.cdw 8 % 8) = some .sleep ∨ s.ctl.mode = .service →
    ∃ t, exec (.setMode tag h) s = .next t ∧ s.Failed t tag 0x02)
  ∧ (∀ (s : State) (tag : Nat) (h : HostData) (target : Mode) (bufs : List (Nat × Nat)), s.asksMode tag h target bufs →
    target ≠ .standby → s.on Pg.therm Reg.THERM_STATE_STOPPING = true →
    (s.isSwitch target = true → target = .record → s.recordBad s.ctl.charged = false) →
    ∃ t, exec (.setMode tag h) s = .next t ∧ s.Failed t tag 0x0C)
  ∧ (∀ (s : State) (tag : Nat) (h : HostData) (target : Mode) (bufs : List (Nat × Nat)), s.asksMode tag h target bufs →
    s.ctl.mode = .standby → target = .live ∨ target = .record ∨ target = .review →
    s.fld Pg.therm Reg.THERM_STATE_LEVEL = 2 → ∃ t, exec (.setMode tag h) s = .next t ∧ s.Failed t tag 0x0C)
  ∧ (∀ (s : State) (tag : Nat) (h : HostData) (bufs : List (Nat × Nat)), s.asksMode tag h .sleep bufs →
    s.fld Pg.array Reg.ARRAY_GENERATION ≠ 0 → ∃ t, exec (.setMode tag h) s = .next t ∧ s.Failed t tag 0x0C)
  ∧ (∀ (s : State) (tag : Nat) (h : HostData) (target : Mode) (bufs : List (Nat × Nat)), s.asksMode tag h target bufs →
    s.ctl.phase = .settled → permitted s.ctl.mode target = false → ∃ t, exec (.setMode tag h) s = .next t ∧ s.Failed t tag 0x0C)
  ∧ ∀ (s : State) (tag : Nat) (h : HostData) (bufs : List (Nat × Nat)), s.asksMode tag h .record bufs →
    s.isSwitch .record = true → s.recordBad s.ctl.charged = true →
    ∃ t, exec (.setMode tag h) s = .next t
      ∧ t.completed tag 0x02 0 0 ∧ s.OnlyTag t tag ∧ t.fld Pg.recorder Reg.RECORDER_EVENT_CFG_ERR = 1
      ∧ t = { s.regsOf t with hq := { s.hq with
          cmds := t.hq.cmds, errors := t.hq.errors, errCount0 := t.hq.errCount0, errCount1 := t.hq.errCount1 } }
      ∧ s.KeepsRegs t [keyOf Reg.RECORDER_EVENT_CFG_ERR Pg.recorder]

/-- ABORT and CHECK_CONFIG (R296, R305): a command that is not there gives RESULT 1; a READ or LOAD SLOT that waits is stopped, completes with
status 0x07 and gives RESULT 0; one that runs, and a command of another kind that R296 does not name, gives RESULT 2 and goes on. CHECK CONFIG
writes the budget report to its buffer and keeps it, completes with status 0 or, for the first entry over its limit, with status 0x12, and changes
nothing else; a field or a configuration error gives status 0x02 without an event, a limit of the triggers status 0x11, a buffer outside the
windows status 0x11 with WIN_DENY, and SLEEP status 0x0C. The model's own choices in it: log entries 21, 28, 52. -/
def Obligations.AbortAndCheck : Prop :=
  (∀ (s : State) (tag : Nat) (c : Cmd), s.starts tag 0x07 → c = s.hq.cmds.get tag →
    (∀ e ∈ s.hq.cmds, e.1 ≠ tag → e.2.live = true → e.2.stage ≠ .done →
      ¬ (e.2.fn = c.fn ∧ e.2.sqid = c.cdw 8 % 64 ∧ e.2.cid = c.cdw 8 / 65536)) →
    ∃ t, exec (.abort tag) s = .next t ∧ s.Done t tag 1 ∧ t = { s with hq := { s.hq with cmds := t.hq.cmds } })
  ∧ (∀ (s : State) (tag g : Nat) (c x : Cmd), s.starts tag 0x07 → c = s.hq.cmds.get tag → g ≠ tag → x = s.hq.cmds.get g → x.live = true →
    x.stage ≠ .done → x.fn = c.fn → x.sqid = c.cdw 8 % 64 → x.cid = c.cdw 8 / 65536 → x.op = 0x80 ∨ x.op = 0x84 →
    (∀ e ∈ s.hq.cmds, e.1 ≠ tag → e.2.live = true → e.2.fn = c.fn → e.2.sqid = x.sqid → e.2.cid = x.cid → e.1 = g) →
    ∃ t, exec (.abort tag) s = .next t
      ∧ (x.stage = .waiting → t.completed tag 0 0 0 ∧ t.completed g 0x07 0 0 ∧ ∀ k, k ≠ tag → k ≠ g → t.hq.cmds.get k = s.hq.cmds.get k)
      ∧ (x.stage = .running → s.Done t tag 2)
      ∧ t = { s with hq := { s.hq with
          cmds := t.hq.cmds, errors := t.hq.errors, errCount0 := t.hq.errCount0, errCount1 := t.hq.errCount1 } })
  ∧ (∀ (s : State) (tag g : Nat) (c x : Cmd), s.starts tag 0x07 → c = s.hq.cmds.get tag → g ≠ tag → x = s.hq.cmds.get g → x.live = true →
    x.stage ≠ .done → x.fn = c.fn → x.sqid = c.cdw 8 % 64 → x.cid = c.cdw 8 / 65536 →
    x.op ∉ [0x10, 0x80, 0x81, 0x84, 0x88, 0x89] →
    (∀ e ∈ s.hq.cmds, e.1 ≠ tag → e.2.live = true → e.2.fn = c.fn → e.2.sqid = x.sqid → e.2.cid = x.cid → e.1 = g) →
    ∃ t, exec (.abort tag) s = .next t ∧ s.Done t tag 2 ∧ t = { s with hq := { s.hq with cmds := t.hq.cmds } })
  ∧ (∀ (s : State) (tag : Nat) (h : HostData) (c : Cmd) (bufs : List (Nat × Nat)), s.starts tag 0x12 (badCheckConfig h) →
    c = s.hq.cmds.get tag → s.buffers c h true = .ok bufs → s.ctl.mode ≠ .sleep → s.trigCheck ≠ 0x11 →
    ∃ t, exec (.checkConfig tag h) s = .next t
      ∧ t.hq.report = budgetReport s.budget ∧ t.out = (s.toHost c.fn bufs (budgetReport s.budget)).out
      ∧ (firstOver s.budget = none → t.completed tag 0 0 0)
      ∧ (∀ e, firstOver s.budget = some e → t.completed tag 0x12 e.2.1 e.1)
      ∧ s.OnlyTag t tag
      ∧ t = { s with out := t.out, hq := { s.hq with
          cmds := t.hq.cmds, report := t.hq.report, errors := t.hq.errors, errCount0 := t.hq.errCount0, errCount1 := t.hq.errCount1 } })
  ∧ (∀ (s : State) (tag : Nat) (h : HostData), s.mayRun tag 0x12 → badCheckConfig h (s.hq.cmds.get tag) s ≠ none →
    ∃ t, exec (.checkConfig tag h) s = .next t ∧ s.Failed t tag 0x02)
  ∧ (∀ (s : State) (tag : Nat) (h : HostData), s.starts tag 0x12 (badCheckConfig h) → s.ctl.mode = .sleep →
    ∃ t, exec (.checkConfig tag h) s = .next t ∧ s.Failed t tag 0x0C)
  ∧ (∀ (s : State) (tag : Nat) (h : HostData), s.starts tag 0x12 (badCheckConfig h) → s.ctl.mode ≠ .sleep → s.trigCheck = 0x11 →
    ∃ t, exec (.checkConfig tag h) s = .next t ∧ s.Failed t tag 0x11)
  ∧ ∀ (s : State) (tag : Nat) (h : HostData), s.starts tag 0x12 (badCheckConfig h) → s.ctl.mode ≠ .sleep → s.trigCheck ≠ 0x11 →
    s.buffers (s.hq.cmds.get tag) h true = .error 0x11 → ∃ t, exec (.checkConfig tag h) s = .next t ∧ s.WindowDenied t tag

/-- BUDGET_CHECK_DONE, TAKE_STOP_CAPTURE_DONE and REEL_CLOSE (R62, R64, R68, R70, R129, R140, R339): a START whose checks pass waits for its first
frame with the ring laid out and Ingress waiting; one that fails ends in STANDBY with status 0x02 and its events, or 0x12 and the report; a STOP
whose frames are all processed clears TAKE and waits for its reel, or reaches STANDBY at once; a reel that closes shows it in the directory and
ends the STOP, or the move to LIVE. Each leaves what it does not name as it was; what a block holds is lost only where its domain goes off. The
model's own choices in it: log entries 22, 38. -/
def Obligations.TakeBeginsAndEnds : Prop :=
  (∀ (s : State) (target : Mode) (cmd : Option Nat), s.ctl.phase = .checking target cmd → s.configErrs (decide (target = .record)) = [] →
    s.trigCheck ≠ 0x11 → firstOver s.budget = none →
    ∃ t, exec .budgetCheckDone s = .next t
      ∧ t.ctl.phase = .starting target cmd ∧ t.ctl.recStart = (if target = .record then some 0 else none)
      ∧ t.hq.report = budgetReport s.budget ∧ t.fld Pg.ingress Reg.INGRESS_STATE_PHASE = 1
      ∧ t.fld Pg.ingress Reg.INGRESS_LINE_STRIDE = t.stride % 2 ^ Reg.INGRESS_LINE_STRIDE.width
      ∧ t.fld Pg.ingress Reg.INGRESS_DEPTH_STORED = t.storedDepth % 2 ^ Reg.INGRESS_DEPTH_STORED.width
      ∧ t.fld Pg.ingress Reg.INGRESS_DROPPED_FRAMES = 0 ∧ t.fld Pg.ingress Reg.INGRESS_PAIR_DISCARDS = 0
      ∧ t.ingress = { freeCtr := 0 }
      ∧ t = { s.regsOf t with
          ctl := { s.ctl with
            phase := t.ctl.phase, recStart := t.ctl.recStart, charged := t.ctl.charged, groups := t.ctl.groups, snaps := t.ctl.snaps
            latches := t.ctl.latches }
          hq := { s.hq with report := t.hq.report, logUsed := t.hq.logUsed }, dramc := t.dramc, draw := t.draw
          exposures := t.exposures, henc := t.henc, ingress := t.ingress, out := t.out, portA := t.portA, portB := t.portB
          pwr := { s.pwr with rising := t.pwr.rising }, rsm := t.rsm, seed := t.seed, split := t.split, trig := t.trig, dram := t.dram }
      ∧ (cmd.isSome = true → t.hq.logUsed = s.hq.logUsed ∧ t.dram = s.dram)
      ∧ ∀ a, a / 0x1000 % 1024 ∉ [Pg.dramctl, Pg.drawctl, Pg.fstore, Pg.global, Pg.ingress, Pg.iris, Pg.prismFe, Pg.recorder, Pg.rstore, Pg.split,
            Pg.trig] ++ pagesOf Pg.dram 8 ++ pagesOf Pg.draw 16 ++ pagesOf Pg.henc 8 ++ pagesOf Pg.link 2 ++ pagesOf Pg.loupe 4
            ++ pagesOf Pg.prismBe 8 → s.SameDomain t (a / 0x1000 % 1024) → a % 0x1000 ≠ 0x01C → a % 0x1000 < 0x800 → t.rd a = s.rd a)
  ∧ (∀ (s : State) (target : Mode) (cmd : Option Nat), s.ctl.phase = .checking target cmd → s.fw.waiting = none → s.fw.failover = false →
    (s.configErrs (decide (target = .record)) ≠ [] ∨ s.trigCheck = 0x11 ∨ ∃ e, firstOver s.budget = some e) →
    ∃ t, exec .budgetCheckDone s = .next t
      ∧ t.fld Pg.global Reg.GLOBAL_STATE_MODE = 0 ∧ (∀ e ∈ s.configErrs (decide (target = .record)), t.fld e.1 e.2 = 1)
      ∧ (∀ u, cmd = some u → s.configErrs (decide (target = .record)) ≠ [] → s.ends t u 0x02 0 0)
      ∧ (∀ u, cmd = some u → s.configErrs (decide (target = .record)) = [] → s.trigCheck = 0x11 → s.ends t u 0x11 0 0)
      ∧ (∀ u e, cmd = some u → s.configErrs (decide (target = .record)) = [] → s.trigCheck ≠ 0x11 → firstOver s.budget = some e →
          s.ends t u 0x12 e.2.1 e.1 ∧ t.hq.report = budgetReport s.budget)
      ∧ (∀ g, (∀ u, cmd = some u → (s.hq.cmds.get g).uid ≠ u) → t.hq.cmds.get g = s.hq.cmds.get g)
      ∧ (cmd.isSome = true → t.hq.logUsed = s.hq.logUsed ∧ t.dram = s.dram)
      ∧ (s.configErrs (decide (target = .record)) ≠ [] → t.hq.report = s.hq.report ∧ t.out = s.out ∧ t.dram = s.dram)
      ∧ t = { s.regsOf t with
          hq := { s.hq with
            cmds := t.hq.cmds, ghosts := t.hq.ghosts, errors := t.hq.errors, errCount0 := t.hq.errCount0, errCount1 := t.hq.errCount1
            report := t.hq.report, logUsed := t.hq.logUsed }
          out := t.out, dram := t.dram
          ctl := { s.ctl with latches := t.ctl.latches, phase := .settled, mode := .standby, capRun := false } }
      ∧ s.KeepsRegs t (keyOf Reg.GLOBAL_STATE_MODE Pg.global ::
          (s.configErrs (decide (target = .record))).map fun e => keyOf e.2 e.1))
  ∧ (∀ (s : State) (cmd : Option Nat), s.ctl.phase = .stopping cmd → s.captureDrained = true → s.fenced = false → s.fw.waiting = none →
    s.fw.failover = false → s.reel.isOpen = false → s.ingress.catchup = [] →
    ∃ t, exec .takeStopCaptureDone s = .next t
      ∧ t.fld Pg.global Reg.GLOBAL_STATE_TAKE = 0 ∧ t.fld Pg.global Reg.GLOBAL_STATE_MODE = 0
      ∧ t.ctl.groups = s.ctl.groups.filter (fun g => decide (g.1 ≤ 0)) ∧ (∀ u, cmd = some u → s.ends t u 0 0 0)
      ∧ (∀ g, (∀ u, cmd = some u → (s.hq.cmds.get g).uid ≠ u) → t.hq.cmds.get g = s.hq.cmds.get g)
      ∧ t = { s.regsOf t with
          ctl := { s.ctl with
            capRun := false, groups := t.ctl.groups, snaps := t.ctl.snaps, latches := t.ctl.latches, phase := .settled, mode := .standby }
          hq := { s.hq with cmds := t.hq.cmds, ghosts := t.hq.ghosts }, pwr := t.pwr, split := { s.split with holds := t.split.holds }
          aud := t.aud, cond := t.cond, drdec := t.drdec, flows := t.flows, fstore := t.fstore, hdec := t.hdec, loupe := t.loupe
          mirror := t.mirror, portA := t.portA, portB := t.portB, relay := t.relay }
      ∧ ({ s with loupe := t.loupe } : State).KeepsEngines t
      ∧ s.KeepsOn t ([Pg.global, Pg.therm, Pg.pwr, Pg.recorder, Pg.fstore, Pg.drawctl] ++ pagesOf Pg.henc 8 ++ pagesOf Pg.loupe 4) false
      ∧ s.KeepsStores t)
  ∧ (∀ (s : State) (cmd : Option Nat), s.ctl.phase = .stopping cmd → s.captureDrained = true → s.fenced = false → s.fw.waiting = none →
    s.fw.failover = false → s.reel.isOpen = true →
    ∃ t, exec .takeStopCaptureDone s = .next t
      ∧ t.fld Pg.global Reg.GLOBAL_STATE_TAKE = 0 ∧ t.fld Pg.global Reg.GLOBAL_STATE_MODE = 7
      ∧ t.reel.isOpen = true ∧ t.reel.closing = true ∧ t.ctl.groups = s.ctl.groups.filter (fun g => decide (g.1 ≤ 0))
      ∧ t = { s.regsOf t with
          ctl := { s.ctl with
            capRun := false, groups := t.ctl.groups, snaps := t.ctl.snaps, latches := t.ctl.latches, phase := .closing cmd }
          hq := { s.hq with
            cmds := t.hq.cmds, ghosts := t.hq.ghosts, errors := t.hq.errors, errCount0 := t.hq.errCount0, errCount1 := t.hq.errCount1 }
          media := { s.media with reel := t.reel, drives := t.media.drives }, seed := t.seed
          split := { s.split with holds := t.split.holds }, loupe := t.loupe }
      ∧ s.KeepsStores t)
  ∧ (∀ (s : State) (cmd : Option Nat), s.ctl.phase = .closing cmd → s.closable = true →
    ∃ t, exec .reelClose s = .next t
      ∧ t.fld Pg.recorder Reg.RECORDER_EVENT_REEL_CLOSED = 1
      ∧ (s.media.vol.isSome = true → (t.dirEntry s.reel.nsid).state = if s.reel.failed then 5 else 3)
      ∧ (∀ n, n ≠ s.reel.nsid → t.dirEntry n = s.dirEntry n)
      ∧ t.fld Pg.global Reg.GLOBAL_STATE_MODE = 0 ∧ (∀ u, cmd = some u → s.ends t u 0 0 0)
      ∧ (∀ g, (∀ u, cmd = some u → (s.hq.cmds.get g).uid ≠ u) → t.hq.cmds.get g = s.hq.cmds.get g)
      ∧ t = { s.regsOf t with
          ctl := { s.ctl with latches := t.ctl.latches, phase := .settled, mode := .standby }
          hq := { s.hq with cmds := t.hq.cmds, ghosts := t.hq.ghosts }
          media := { s.media with reel := {}, vol := t.media.vol, drives := t.media.drives }
          draw := { s.draw with bufs := t.draw.bufs }, henc := t.henc, split := { s.split with holds := t.split.holds }, pwr := t.pwr
          aud := t.aud, cond := t.cond, drdec := t.drdec, flows := t.flows, fstore := t.fstore, hdec := t.hdec, loupe := t.loupe
          mirror := t.mirror, portA := t.portA, portB := t.portB, relay := t.relay }
      ∧ s.KeepsEngines t ∧ s.KeepsOn t ([Pg.global, Pg.therm, Pg.pwr, Pg.recorder] ++ pagesOf Pg.media 2)
      ∧ ∀ k, (t.drive k).writes = (s.drive k).writes ∧ ∀ a, 131072 ≤ a → (t.drive k).mem.get a = (s.drive k).mem.get a)
  ∧ ∀ (s : State) (cmd : Option Nat) (e : Nat), s.ctl.phase = .switching .live cmd → s.ctl.recEnd = some e → e ≤ s.frameNow →
    s.closable = true →
    ∃ t, exec .reelClose s = .next t
      ∧ t.fld Pg.global Reg.GLOBAL_STATE_MODE = 1 ∧ t.fld Pg.recorder Reg.RECORDER_EVENT_REEL_CLOSED = 1
      ∧ (s.media.vol.isSome = true → (t.dirEntry s.reel.nsid).state = if s.reel.failed then 5 else 3)
      ∧ (∀ u, cmd = some u → s.ends t u 0 0 0)
      ∧ t = { s.regsOf t with
          hq := { s.hq with cmds := t.hq.cmds, ghosts := t.hq.ghosts }
          media := { s.media with reel := {}, vol := t.media.vol, drives := t.media.drives }
          draw := { s.draw with bufs := t.draw.bufs }, henc := t.henc, split := { s.split with holds := t.split.holds }
          ctl := { s.ctl with latches := t.ctl.latches, phase := .settled, mode := .live } }
      ∧ s.KeepsPages t ([Pg.global, Pg.recorder] ++ pagesOf Pg.media 2)
      ∧ ∀ k, (t.drive k).writes = (s.drive k).writes ∧ ∀ a, 131072 ≤ a → (t.drive k).mem.get a = (s.drive k).mem.get a

/-- FRAME_START (R26, R57, R64, R68, R134, R135, R138, R139, R143, R144): with no frame open a SOF starts the next frame: it is FRAME_NOW, the SOF
time is latched, and it takes a free slot or is dropped with FRAME_DROP; the first frame of a take ends its START, and the boundary of a move into
RECORD ends the move and opens its reel; a SOF that no frame is taken for is discarded and counted, and so is one of a port whose half is fixed or
received; in pair mode the other port's SOF joins the open frame. Each leaves what it does not name as it was. The model's own choices in it: log
entries 37, 41. -/
def Obligations.FrameStarts : Prop :=
  (∀ (s : State) (k : Nat), s.portsUsed.contains k = true → (s.port k).sof.isSome = true → s.ingress.openFrame = none →
    s.takesFrames = true → s.CommitsOk →
    ∃ t, exec (.frameStart k) s = .next t
      ∧ t.frameNow = s.nextFrame % 2 ^ 64 ∧ t.ctl.frameSeen = true ∧ t.fld Pg.ingress Reg.INGRESS_STATE_PHASE = 2
      ∧ t.ingress.sofs = (s.nextFrame, s.time) :: s.ingress.sofs ∧ (t.port k).sof = none
      ∧ (∃ f, t.ingress.openFrame = some f ∧ f.num = s.nextFrame ∧ f.sofTime = s.time
          ∧ (f.half k).sof = true ∧ (f.half k).sensorFrame = ((s.port k).sof.getD (0, 0)).1 ∧ (f.half k).tag = ((s.port k).sof.getD (0, 0)).2
          ∧ (f.slot = none → t.fld Pg.ingress Reg.INGRESS_EVENT_FRAME_DROP = 1)
          ∧ ∀ j, f.slot = some j → (t.slot j).has = true ∧ (t.slot j).frame = s.nextFrame ∧ (t.slot j).busy = true)
      ∧ (∀ target cmd, s.ctl.phase = .starting target cmd →
          t.ctl.phase = .settled ∧ t.ctl.mode = target ∧ t.fld Pg.global Reg.GLOBAL_STATE_TAKE = 1 ∧ ∀ u, cmd = some u → s.ends t u 0 0 0)
      ∧ (∀ u b, s.ctl.phase = .switching .record (some u) → s.ctl.recStart = some b → b ≤ s.nextFrame →
          t.ctl.phase = .settled ∧ t.ctl.mode = .record ∧ t.ctl.recStart = some b ∧ s.ends t u 0 (b % 2 ^ 32) 0
            ∧ (s.on Pg.recorder Reg.RECORDER_CTRL_ENABLE = true → t.reel.isOpen = true))
      ∧ ((∀ target cmd, s.ctl.phase ≠ .switching target cmd) → t.dram = s.dram)
      ∧ t.coll = s.coll ∧ t.trig = s.trig ∧ t.time = s.time ∧ t.stages = s.stages ∧ t.exposures = s.exposures ∧ t.dramc = s.dramc)
  ∧ (∀ (s : State) (k : Nat), s.portsUsed.contains k = true → (s.port k).sof.isSome = true → s.ingress.openFrame = none →
    s.takesFrames = true → s.CommitsOk → s.fw.failover = false → s.fw.waiting = none →
    (∀ cmd, s.ctl.phase = .switching .live cmd → ∃ b, s.ctl.recEnd = some b ∧ s.nextFrame < b) →
    ∃ t, exec (.frameStart k) s = .next t
      ∧ (s.ctl.phase = .settled → t.media = { s.media with reel := { s.reel with todo := t.reel.todo } } ∧ t.hq = s.hq ∧ t.seed = s.seed
          ∧ t.ctl.phase = .settled ∧ t.ctl.mode = s.ctl.mode ∧ t.dram = s.dram)
      ∧ t = { s.regsOf t with
          ctl := { s.ctl with
            frameSeen := true, phase := t.ctl.phase, mode := t.ctl.mode, recStart := t.ctl.recStart, groups := t.ctl.groups
            snaps := t.ctl.snaps, latches := t.ctl.latches }
          hq := { s.hq with
            cmds := t.hq.cmds, ghosts := t.hq.ghosts, errors := t.hq.errors, errCount0 := t.hq.errCount0, errCount1 := t.hq.errCount1 }
          ingress := { s.ingress with
            frameVals := t.ingress.frameVals, openFrame := t.ingress.openFrame, slots := t.ingress.slots, sofs := t.ingress.sofs
            catchup := t.ingress.catchup }
          portA := t.portA, portB := t.portB, out := t.out, rsm := t.rsm, media := t.media, seed := t.seed, dram := t.dram
          draw := { s.draw with cores := t.draw.cores, reassign := false }, henc := t.henc
          fw := { s.fw with read := t.fw.read, written := t.fw.written } }
      ∧ ∀ a, a / 0x1000 % 1024 ∉ [Pg.global, Pg.ingress, Pg.drawctl, Pg.rstore, Pg.recorder, Pg.guard] ++ pagesOf Pg.link 2
            ++ pagesOf Pg.media 2 ++ pagesOf Pg.loupe 4 ++ pagesOf Pg.draw 16 ++ pagesOf Pg.henc 8 → 0x020 ≤ a % 0x1000 →
          a % 0x1000 < 0x800 → t.rd a = s.rd a)
  ∧ (∀ (s : State) (k : Nat), s.portsUsed.contains k = true → (s.port k).sof.isSome = true → s.ingress.openFrame = none →
    s.takesFrames = false →
    ∃ t, exec (.frameStart k) s = .next t
      ∧ t.port k = { s.port k with sof := none, discard := true } ∧ t.port (1 - k) = s.port (1 - k)
      ∧ t.fld Pg.ingress Reg.INGRESS_STOP_DISCARDS
          = min (s.fld Pg.ingress Reg.INGRESS_STOP_DISCARDS + 1) (2 ^ Reg.INGRESS_STOP_DISCARDS.width - 1)
      ∧ t = { s with regs := t.regs, portA := t.portA, portB := t.portB }
      ∧ s.KeepsRegs t [keyOf Reg.INGRESS_STOP_DISCARDS Pg.ingress])
  ∧ (∀ (s : State) (k : Nat), s.portsUsed.contains k = true → (s.port k).sof.isSome = true → s.joins k = false → s.pairBarred k = true →
    ∃ t, exec (.frameStart k) s = .next t
      ∧ t.port k = { s.port k with sof := none, discard := true } ∧ t.port (1 - k) = s.port (1 - k)
      ∧ t.fld Pg.ingress Reg.INGRESS_PAIR_DISCARDS
          = min (s.fld Pg.ingress Reg.INGRESS_PAIR_DISCARDS + 1) (2 ^ Reg.INGRESS_PAIR_DISCARDS.width - 1)
      ∧ t.fld Pg.ingress Reg.INGRESS_EVENT_PAIR_DISCARD = 1
      ∧ t = { s.regsOf t with portA := t.portA, portB := t.portB }
      ∧ s.KeepsRegs t [keyOf Reg.INGRESS_PAIR_DISCARDS Pg.ingress, keyOf Reg.INGRESS_EVENT_PAIR_DISCARD Pg.ingress])
  ∧ ∀ (s : State) (k : Nat) (f : OpenFrame) (x : Nat × Nat), s.portsUsed.contains k = true → (s.port k).sof = some x →
    s.ingress.openFrame = some f → s.joins k = true →
    ∃ t, exec (.frameStart k) s = .next t
      ∧ (∃ g, t.ingress.openFrame = some g ∧ g.num = f.num ∧ g.slot = f.slot ∧ g.sofTime = f.sofTime ∧ g.half (1 - k) = f.half (1 - k)
          ∧ g.half k = { used := true, sof := true, sensorFrame := x.1, tag := x.2, metaBytes := (s.port k).metaBuf })
      ∧ t.port k = { s.port k with sof := none, metaBuf := [], segs := [] } ∧ t.port (1 - k) = s.port (1 - k)
      ∧ t = { s with portA := t.portA, portB := t.portB, ingress := { s.ingress with openFrame := t.ingress.openFrame } }

/-- RX_SOF, RX_META, RX_EOL, RX_EOF, LINE_TIMEOUT and PAIR_WINDOW_EXPIRY (R96, R109, R114, R117, R134 to R137, R143, R144): a SOF of a port that
receives waits for Ingress with its number and tag, or its readout is discarded and counted; META bytes are kept up to 1,792; a line that arrives
stands in its slot with its status, and its segments are done with; the end of a half is noted, and the end of the last half closes the frame: its
record is written and it awaits the shared read. The model's own choices in it: log entries 34, 35, 37, 99. -/
def Obligations.FrameArrives : Prop :=
  (∀ (s : State) (k frame tag : Nat), s.receives k = true → s.portsUsed.contains k = true → s.joins k = true ∨ s.takesFrames = true →
    s.pairBarred k = false →
    ∃ t, exec (.rxSof k frame tag) s = .next t
      ∧ t.port k = { s.port k with
          sof := some (frame % 2 ^ 32, tag % 65536), discard := false, metaBuf := [], segs := [], streaming := true }
      ∧ t.port (1 - k) = s.port (1 - k)
      ∧ (frame % 2 ^ 32 ≠ (if s.joins k then s.frameNow else s.nextFrame) % 2 ^ 32 → t.fld (Pg.link k) Reg.LINK_EVENT_FRAME_SEQ = 1)
      ∧ t = { s.regsOf t with portA := t.portA, portB := t.portB }
      ∧ s.KeepsRegs t [keyOf Reg.LINK_STATE_PORT (Pg.link k), keyOf Reg.LINK_EVENT_FRAME_SEQ (Pg.link k)])
  ∧ (∀ (s : State) (k frame tag : Nat), s.receives k = true → s.portsUsed.contains k = true → s.joins k = false → s.takesFrames = false →
    s.pairBarred k = false → s.cutsOpen k = false →
    ∃ t, exec (.rxSof k frame tag) s = .next t
      ∧ t.port k = { s.port k with sof := none, discard := true } ∧ t.port (1 - k) = s.port (1 - k)
      ∧ t = { s with regs := t.regs, portA := t.portA, portB := t.portB } ∧ s.KeepsRegs t [keyOf Reg.INGRESS_STOP_DISCARDS Pg.ingress])
  ∧ (∀ (s : State) (k : Nat) (data : List Byte), s.receives k = true → (s.port k).discard = false →
    ((s.port k).sof.isSome = true →
      ∃ t, exec (.rxMeta k data) s = .next t ∧ t.port k = { s.port k with metaBuf := ((s.port k).metaBuf ++ data).take 1792 }
        ∧ t.port (if k = 0 then 1 else 0) = s.port (if k = 0 then 1 else 0) ∧ t = { s with portA := t.portA, portB := t.portB })
    ∧ ∀ f, (s.port k).sof = none → s.ingress.openFrame = some f → (f.half k).active = true →
      ∃ t, exec (.rxMeta k data) s = .next t
        ∧ t = s.setOpen (some (f.setHalf k { f.half k with metaBytes := ((f.half k).metaBytes ++ data).take 1792 })))
  ∧ (∀ (s : State) (k line : Nat) (bl : List Nat) (f : OpenFrame) (l : List Nat × List Nat × Nat × Bool), k < 2 → s.receives k = true →
    (s.port k).discard = false → s.ingress.openFrame = some f → (f.half k).active = true → l = s.portLine k line →
    (s.window k).y ≤ line → line < (s.window k).y + (s.window k).h →
    ∃ t, exec (.rxEol k ⟨line, bl⟩) s = .next t
      ∧ t.port k = { s.port k with segs := [] } ∧ t.port (1 - k) = s.port (1 - k)
      ∧ (∃ g, t.ingress.openFrame = some g ∧ g.num = f.num ∧ g.slot = f.slot
          ∧ (g.half k).status.get (line - (s.window k).y) = (if l.2.2.2 then 2 else l.2.2.1) + 1 ∧ g.half (1 - k) = f.half (1 - k))
      ∧ (l.2.2.1 = 2 → l.2.2.2 = false → ∀ j, f.slot = some j →
          t.dram = (s.writeLine j k (line - (s.window k).y) (List.replicate (s.window k).w 0)).dram)
      ∧ (l.2.2.1 = 0 → l.2.2.2 = false → s.dgMode = 0 → ∀ j, f.slot = some j →
          t.dram = (s.writeLine j k (line - (s.window k).y) ((l.1.drop (s.window k).x).take (s.window k).w)).dram)
      ∧ (f.slot = none → t.dram = s.dram) ∧ (l.2.2.1 = 2 → t.fld (Pg.link k) Reg.LINK_LOST_LINES =
          min (s.fld (Pg.link k) Reg.LINK_LOST_LINES + 1) (2 ^ Reg.LINK_LOST_LINES.width - 1))
      ∧ (l.2.2.1 = 1 → t.fld (Pg.link k) Reg.LINK_CONCEAL_LINES =
          min (s.fld (Pg.link k) Reg.LINK_CONCEAL_LINES + 1) (2 ^ Reg.LINK_CONCEAL_LINES.width - 1))
      ∧ t = { s.regsOf t with
          portA := t.portA, portB := t.portB, dram := t.dram, ingress := { s.ingress with openFrame := t.ingress.openFrame } }
      ∧ s.KeepsPages t [Pg.link k, Pg.ingress])
  ∧ (∀ (s : State) (k line : Nat) (bl : List Nat) (f : OpenFrame), k < 2 → s.receives k = true →
    (s.port k).discard = false → s.ingress.openFrame = some f → (f.half k).active = true →
    line < (s.window k).y ∨ (s.window k).y + (s.window k).h ≤ line →
    ∃ t, exec (.rxEol k ⟨line, bl⟩) s = .next t
      ∧ t.port k = { s.port k with segs := [] } ∧ t.port (1 - k) = s.port (1 - k)
      ∧ (∃ g, t.ingress.openFrame = some g ∧ (g.half k).status = (f.half k).status ∧ g.half (1 - k) = f.half (1 - k))
      ∧ t = { s.regsOf t with portA := t.portA, portB := t.portB, ingress := { s.ingress with openFrame := t.ingress.openFrame } }
      ∧ s.KeepsPages t [Pg.link k])
  ∧ (∀ (s : State) (k frame lines : Nat) (f : OpenFrame), s.portsUsed = [k] → s.receives k = true → (s.port k).discard = false →
    s.ingress.openFrame = some f → (f.half k).active = true →
    ∃ t, exec (.rxEof k frame lines) s = .next t
      ∧ t.ingress.openFrame = none ∧ t.fld Pg.ingress Reg.INGRESS_STATE_PHASE = (if s.takesFrames then 1 else 0)
      ∧ (f.slot.isSome = true → t.ingress.ready = s.ingress.ready ++ [f.num]
          ∧ t.fld64 Pg.ingress Reg.INGRESS_LAST_FRAME_LO Reg.INGRESS_LAST_FRAME_HI = f.num % 2 ^ 64)
      ∧ (f.slot = none → t.ingress.ready = s.ingress.ready ∧ t.dram = s.dram)
      ∧ t.port k = { s.port k with streaming := if s.takesFrames then (s.port k).streaming else false }
      ∧ t = { s.regsOf t with
          portA := t.portA, portB := t.portB, dram := t.dram, media := { s.media with reel := { s.reel with metas := t.reel.metas } }
          ingress := { s.ingress with openFrame := none, ready := t.ingress.ready } }
      ∧ s.KeepsPages t [Pg.link k, Pg.ingress])
  ∧ (∀ (s : State) (k frame lines : Nat) (f : OpenFrame), k < 2 → s.portsUsed = [0, 1] → s.receives k = true → (s.port k).discard = false →
    s.ingress.openFrame = some f → (f.half k).active = true → (f.half (1 - k)).active = true →
    ∃ t, exec (.rxEof k frame lines) s = .next t
      ∧ (∃ g, t.ingress.openFrame = some g ∧ g = f.setHalf k { f.half k with eof := true, lines := lines % 65536 })
      ∧ t.port k = { s.port k with streaming := if s.takesFrames then (s.port k).streaming else false }
      ∧ t = { s with
          regs := t.regs, portA := t.portA, portB := t.portB, ingress := { s.ingress with openFrame := t.ingress.openFrame } }
      ∧ s.KeepsRegs t [keyOf Reg.LINK_STATE_PORT (Pg.link k)])
  ∧ (∀ (s : State) (k frame lines : Nat), s.receives k = true → (s.port k).discard = true →
    exec (.rxEof k frame lines) s = .next (s.setPort k { s.port k with discard := false }))
  ∧ (∀ (s : State) (k : Nat) (f : OpenFrame), s.portsUsed = [k] → s.ingress.openFrame = some f → (f.half k).active = true →
    ∃ t, exec (.lineTimeout k) s = .next t
      ∧ t.ingress.openFrame = none ∧ t.fld Pg.ingress Reg.INGRESS_STATE_PHASE = (if s.takesFrames then 1 else 0)
      ∧ t.ingress.ready = (if f.slot.isSome then s.ingress.ready ++ [f.num] else s.ingress.ready)
      ∧ (s.absentLines f k ≠ [] → t.fld (Pg.link k) Reg.LINK_EVENT_FRAME_DEGRADED = 1 ∨ (f.half k).degraded = true)
      ∧ t = { s.regsOf t with
          portA := t.portA, portB := t.portB, dram := t.dram, media := { s.media with reel := { s.reel with metas := t.reel.metas } }
          ingress := { s.ingress with openFrame := none, ready := t.ingress.ready } }
      ∧ s.KeepsPages t [Pg.link k, Pg.ingress])
  ∧ ∀ (s : State) (f : OpenFrame), s.pairMode = true → s.ingress.openFrame = some f →
    (f.a.sof = false ∧ f.a.missing = false) ∨ (f.b.sof = false ∧ f.b.missing = false) →
    ∃ t, exec .pairWindowExpiry s = .next t
      ∧ t.fld Pg.ingress Reg.INGRESS_EVENT_PAIR_MISSING = 1
      ∧ ((f.a.sof = true ∧ f.a.missing = false ∧ f.a.eof = false) ∨ (f.b.sof = true ∧ f.b.missing = false ∧ f.b.eof = false) →
          ∃ g, t.ingress.openFrame = some g ∧ g.num = f.num ∧ g.slot = f.slot
            ∧ (f.a.sof = false → g.a.missing = true) ∧ (f.b.sof = false → g.b.missing = true))
      ∧ t = { s.regsOf t with
          dram := t.dram, media := { s.media with reel := { s.reel with metas := t.reel.metas } }
          ingress := { s.ingress with openFrame := t.ingress.openFrame, ready := t.ingress.ready } }
      ∧ s.KeepsPages t ([Pg.ingress] ++ pagesOf Pg.link 2)

/-! ### The shared read, Prism and the Splitter (R14, R15, R138 to R142, R164, R171, R175, R181, R192, R199) -/

/-- SHARED_READ_START, SHARED_READ_LINE and CATCHUP_FRAME_DONE (R14, R15, R138, R140, R164): the next frame's read begins at line 0 and Prism
takes its record; each line goes to the front end, out of which the lines leave that its context completes, and to the raw cores; the last line
frees the slot; a held frame that is encoded is freed, and CATCHUP_DONE rises with the last one. The model's own choices in it: log entry 42. -/
def Obligations.SharedRead : Prop :=
  (∀ (s : State) (r : Reading), s.ingress.reading = none → s.nextRead = some r → s.pic r.frame = none →
    ∃ t, exec .sharedReadStart s = .next t
      ∧ t.ingress.reading = some r
      ∧ (r.review = false → t.ingress.ready = s.ingress.ready.tail ∧ t.drdec = s.drdec)
      ∧ (r.review = true → t.ingress.ready = s.ingress.ready ∧ t.drdec = { s.drdec with ready := s.drdec.ready.tail })
      ∧ (s.on Pg.prismFe Reg.PRISM_FE_CTRL_ENABLE = true →
          ∃ q, t.split.pics = s.split.pics ++ [q] ∧ q.frame = r.frame ∧ q.w = r.w ∧ q.h = r.h ∧ q.ds = r.ds
            ∧ q.record = s.peekN r.addr 8192 ∧ q.raw = [] ∧ q.pf = [] ∧ q.work = [])
      ∧ (s.on Pg.prismFe Reg.PRISM_FE_CTRL_ENABLE = false → t.split = s.split)
      ∧ t = { s.regsOf t with
          drdec := t.drdec, split := { s.split with pics := t.split.pics }
          ingress := { s.ingress with reading := t.ingress.reading, ready := t.ingress.ready } }
      ∧ s.KeepsPages t [Pg.prismFe])
  ∧ (∀ (s : State) (r : Reading), s.ingress.reading = some r → s.readHeld r = false →
    ∃ t, exec .sharedReadLine s = .next t
      ∧ (r.next + 1 < r.h → t.ingress.reading = some { r with next := r.next + 1 })
      ∧ (r.h ≤ r.next + 1 → t.ingress.reading = none)
      ∧ (r.h ≤ r.next + 1 → r.review = false → ∀ j, s.slotOf r.frame = some j → (t.slot j).busy = false)
      ∧ (∀ d, s.draw.live = some d → d.frame = r.frame → r.review = false →
          t.draw.live = some { d with lines := d.lines ++ [s.slotLine r.addr r.w r.ds r.next] })
      ∧ (∀ q, s.pic r.frame = some q → r.next + 1 < r.h →
          ∃ q', t.pic r.frame = some q' ∧ q'.raw.length = q.raw.length + 1
            ∧ q'.pf.length = max q.pf.length (linesOut q.h (q.raw.length + 1) s.period)
            ∧ q'.work.length = max q.work.length (linesOut q.h (q.raw.length + 1) (3 * s.period - 1)))
      ∧ (s.ctl.mode ≠ .review →
          t = { s.regsOf t with
            draw := { s.draw with live := t.draw.live }, split := { s.split with pics := t.split.pics }
            ingress := { s.ingress with reading := t.ingress.reading, slots := t.ingress.slots, freeCtr := t.ingress.freeCtr } }
          ∧ s.KeepsPages t [Pg.prismFe, Pg.ingress, Pg.fstore])
      ∧ t = { s.regsOf t with
          ctl := { s.ctl with groups := t.ctl.groups, snaps := t.ctl.snaps, latches := t.ctl.latches }
          drdec := { s.drdec with cur := t.drdec.cur }, draw := { s.draw with live := t.draw.live }
          split := { s.split with pics := t.split.pics }
          ingress := { s.ingress with
            reading := t.ingress.reading, slots := t.ingress.slots, freeCtr := t.ingress.freeCtr, frameVals := t.ingress.frameVals } })
  ∧ (∀ (s : State) (r : Reading), s.ingress.reading = some r → s.readHeld r = true → s.ctl.mode ≠ .review →
    exec .sharedReadLine s = .next s)
  ∧ (∀ (s : State) (d : DrawFrame) (j flags : Nat) (lines : List (List Nat)) (ts : List TileOut), s.draw.cat = some d →
    s.slotOf d.frame = some j → lines = (List.range s.rasterH).map (fun y => s.slotLine (s.slotAddr j) s.rasterW s.storedDepth y) →
    ts = (List.range s.rawShape.tiles).map (fun i => encodeTile s.rawShape s.rawMode (d.qp0.getD i 0) i (at2 lines)) →
    flags = s.peekLe (s.slotAddr j + 6) 2 →
    ∃ t, exec .catchupFrameDone s = .next t
      ∧ t.dram = (s.writeRecord { d with lines := lines } true flags ts).dram
      ∧ t.draw.cat = none ∧ t.ingress.catchup = s.ingress.catchup.filter (fun x => decide (x ≠ d.frame)) ∧ (t.slot j).held = false
      ∧ t.fld64 Pg.drawctl Reg.DRAWCTL_LAST_FRAME_LO Reg.DRAWCTL_LAST_FRAME_HI = d.frame % 2 ^ 64
      ∧ (t.ingress.catchup = [] → t.fld Pg.ingress Reg.INGRESS_EVENT_CATCHUP_DONE = 1)
      ∧ t = { s.regsOf t with
          dram := t.dram
          draw := { s.draw with cat := none, catHist := t.draw.catHist, bufs := t.draw.bufs }
          ingress := { s.ingress with catchup := t.ingress.catchup, slots := t.ingress.slots, freeCtr := t.ingress.freeCtr } }
      ∧ s.KeepsPages t ([Pg.drawctl, Pg.ingress] ++ (List.range 16).map (Pg.draw ·)))
  ∧ ∀ (s : State) (f : Nat) (l : List Nat), s.draw.cat = none → s.ingress.catchup = f :: l → s.rawOn = false →
    ∃ t, exec .catchupFrameDone s = .next t
      ∧ t.ingress.catchup = s.ingress.catchup.filter (fun x => decide (x ≠ f)) ∧ (∀ j, s.slotOf f = some j → (t.slot j).held = false)
      ∧ t = { s.regsOf t with
          ingress := { s.ingress with catchup := t.ingress.catchup, slots := t.ingress.slots, freeCtr := t.ingress.freeCtr } }
      ∧ s.KeepsPages t [Pg.ingress]

/-- SPLIT_FRAME_START, SPLIT_GROUP_PUBLISH and REND_FRAME_DONE (R171, R175, R181, R192): the next frame of a rendition takes its buffer, which its
streams hold, or waits for a consumer and counts that once; a group of lines whose working lines have left the front end is written to the buffer
with its clamped codes counted; after the last group the frame is the newest and LAST_FRAME names it. The model's own choices in it: log entry 39.
-/
def Obligations.Renditions : Prop :=
  (∀ (s : State) (n : Nat) (q : Pic), n < 8 → s.nextRend n = some q → s.rendRuns n = true →
    (s.split.holds.any (fun h => decide (h.2.1 = n) && decide (h.2.2 % s.bufCount n = q.frame % s.bufCount n)) = false →
      ∃ t, exec (.splitFrameStart n) s = .next t
        ∧ t.split.bufs = s.split.bufs.put (16 * n + q.frame % s.bufCount n) (some q.frame)
        ∧ (∃ q', t.pic q.frame = some q' ∧ (q'.rends.get n).begun = true)
        ∧ (s.ctl.mode ≠ .review → ∀ k, (s.streamsOf n).contains k = true → (Reader.due k, n, q.frame) ∈ t.split.holds)
        ∧ (∀ h ∈ s.split.holds, h ∈ t.split.holds)
        ∧ t = { s.regsOf t with split := { s.split with bufs := t.split.bufs, holds := t.split.holds, pics := t.split.pics } }
        ∧ s.KeepsRegs t [keyOf Reg.PRISM_BE_SLOT_ERR_FRAMES (Pg.prismBe n)])
    ∧ (s.split.holds.any (fun h => decide (h.2.1 = n) && decide (h.2.2 % s.bufCount n = q.frame % s.bufCount n)) = true →
      (q.rends.get n).stalled = false →
      ∃ t, exec (.splitFrameStart n) s = .next t
        ∧ t.fld Pg.split Reg.SPLIT_EVENT_STALL = 1
        ∧ t.fld Pg.split (Reg.SPLIT_STALL_COUNT n)
            = min (s.fld Pg.split (Reg.SPLIT_STALL_COUNT n) + 1) (2 ^ (Reg.SPLIT_STALL_COUNT n).width - 1)
        ∧ t = { s.regsOf t with split := { s.split with pics := t.split.pics } } ∧ s.KeepsPages t [Pg.split]))
  ∧ (∀ (s : State) (n : Nat) (q : Pic), n < 8 → s.curRend n = some q → (q.rends.get n).groups < s.groupCount n →
    s.groupReady q n (q.rends.get n).groups = true →
    ∃ t, exec (.splitGroupPublish n) s = .next t
      ∧ t.dram = (s.writeGroup q n (q.rends.get n).groups).dram
      ∧ (∃ q', t.pic q.frame = some q' ∧ (q'.rends.get n).groups = (q.rends.get n).groups + 1)
      ∧ ((q.rends.get n).groups + 1 = s.groupCount n → t.split.newest.get n = some q.frame)
      ∧ ((q.rends.get n).groups + 1 < s.groupCount n → t.split.newest = s.split.newest)
      ∧ t.fld (Pg.prismBe n) Reg.PRISM_BE_CLIP_LO_COUNT =
          min (s.fld (Pg.prismBe n) Reg.PRISM_BE_CLIP_LO_COUNT + ((s.groupCodes q n (q.rends.get n).groups).map (·.2.1)).sum)
            (2 ^ Reg.PRISM_BE_CLIP_LO_COUNT.width - 1)
      ∧ t.fld (Pg.prismBe n) Reg.PRISM_BE_CLIP_HI_COUNT =
          min (s.fld (Pg.prismBe n) Reg.PRISM_BE_CLIP_HI_COUNT + ((s.groupCodes q n (q.rends.get n).groups).map (·.2.2)).sum)
            (2 ^ Reg.PRISM_BE_CLIP_HI_COUNT.width - 1)
      ∧ t = { s.regsOf t with dram := t.dram, split := { s.split with pics := t.split.pics, newest := t.split.newest } }
      ∧ s.KeepsPages t [Pg.prismBe n])
  ∧ ∀ (s : State) (n : Nat) (q : Pic), n < 8 → s.curRend n = some q → s.groupCount n ≤ (q.rends.get n).groups →
    ∃ t, exec (.rendFrameDone n) s = .next t
      ∧ t.fld64 (Pg.prismBe n) Reg.PRISM_BE_LAST_FRAME_LO Reg.PRISM_BE_LAST_FRAME_HI = q.frame % 2 ^ 64
      ∧ (∀ q', t.pic q.frame = some q' → (q'.rends.get n).done = true)
      ∧ t = { s.regsOf t with split := { s.split with pics := t.split.pics } } ∧ s.KeepsPages t [Pg.prismBe n, Pg.fstore]

/-! ### Encoders and decoders (R60, R210 to R233, R242 to R266) -/

/-- DRAW_FRAME_BEGIN, DRAW_FRAME_DONE and DRAW_CORE_FAULT (R211, R212, R225, R228): once a record buffer is free the next frame begins in it; a
frame whose lines have all arrived is written as a record, header last, and passes to the Recorder; a core fault sets the core's bit, the frame in
work is encoded again from its held slot, and the columns are assigned anew at the next frame start. The model's own choices in it: log entry 45.
-/
def Obligations.RawRecords : Prop :=
  (∀ (s : State) (f : Nat) (c : Bool), s.releaseOver.rawBegins = some (f, c) → s.releaseOver.recHolder = none →
    ∃ t, exec .drawFrameBegin s = .next t
      ∧ (∃ d : DrawFrame, (if c then t.draw.cat else t.draw.live) = some d ∧ d.frame = f ∧ d.buf = s.draw.count % s.recCount ∧ d.lines = []
          ∧ d.repair = false ∧ d.qp0 = s.startQps (if c then s.draw.catHist else s.draw.liveHist) f
          ∧ t.draw.bufs = s.releaseOver.draw.bufs ++ [(d.buf, f, false)])
      ∧ t.draw = { s.draw with
          live := t.draw.live, cat := t.draw.cat, bufs := t.draw.bufs, count := s.draw.count + 1
          stalled := s.draw.stalled.filter (· ≠ f) }
      ∧ (if c then t.draw.live = s.draw.live else t.draw.cat = s.draw.cat)
      ∧ t = { s.regsOf t with draw := t.draw, henc := s.releaseOver.henc, split := { s.split with holds := t.split.holds } }
      ∧ s.KeepsPages t ([Pg.drawctl, Pg.recorder] ++ pagesOf Pg.draw 16) ∧ s.KeepsBytes t)
  ∧ (∀ (s : State) (f g : Nat) (c : Bool), s.releaseOver.rawBegins = some (f, c) → s.releaseOver.recHolder = some g →
    s.reel.todo.contains g = false → s.draw.stalled.contains f = false →
    ∃ t, exec .drawFrameBegin s = .next t
      ∧ t.fld Pg.drawctl Reg.DRAWCTL_EVENT_REC_STALL = 1
      ∧ t.fld Pg.drawctl Reg.DRAWCTL_STALLS = min (s.fld Pg.drawctl Reg.DRAWCTL_STALLS + 1) (2 ^ Reg.DRAWCTL_STALLS.width - 1)
      ∧ t = { s.regsOf t with
          draw := { s.releaseOver.draw with stalled := insertNat f s.draw.stalled }, henc := s.releaseOver.henc
          split := { s.split with holds := t.split.holds } }
      ∧ s.KeepsPages t [Pg.drawctl, Pg.recorder] ∧ s.KeepsBytes t)
  ∧ (∀ (s : State) (d : DrawFrame) (flags : Nat) (ts : List TileOut), s.draw.live = some d → s.rasterH ≤ d.lines.length →
    ts = (List.range s.rawShape.tiles).map (fun i => encodeTile s.rawShape s.rawMode (d.qp0.getD i 0) i (at2 d.lines)) →
    flags = d.flags →
    ∃ t, exec .drawFrameDone s = .next t
      ∧ t.dram = (s.writeRecord d false flags ts).dram
      ∧ t.draw.live = none ∧ t.draw.bufs = s.draw.bufs.map (fun b => if b.1 = d.buf then (b.1, b.2.1, true) else b)
      ∧ t.draw.liveHist = ((d.frame, s.nextStates s.draw.liveHist ts) :: s.draw.liveHist).take 2
      ∧ t.fld64 Pg.drawctl Reg.DRAWCTL_LAST_FRAME_LO Reg.DRAWCTL_LAST_FRAME_HI = d.frame % 2 ^ 64
      ∧ t.fld Pg.drawctl Reg.DRAWCTL_LAST_BYTES = recordLen s.rawShape ts % 2 ^ Reg.DRAWCTL_LAST_BYTES.width
      ∧ t = { s.regsOf t with
          dram := t.dram, draw := { s.draw with live := none, liveHist := t.draw.liveHist, bufs := t.draw.bufs }
          ingress := { s.ingress with slots := t.ingress.slots, freeCtr := t.ingress.freeCtr } }
      ∧ s.KeepsPages t ([Pg.drawctl, Pg.ingress] ++ (List.range 16).map (Pg.draw ·)))
  ∧ ∀ (s : State) (c : Nat), c < 16 →
    ∃ t, exec (.drawCoreFault c) s = .next t
      ∧ t.fld Pg.drawctl Reg.DRAWCTL_FAULT = s.fld Pg.drawctl Reg.DRAWCTL_FAULT ||| 2 ^ c
      ∧ t.fld Pg.drawctl Reg.DRAWCTL_EVENT_CORE_FAULT = 1 ∧ t.fld (Pg.draw c) Reg.DRAW_EVENT_FAULT = 1
      ∧ t.fld (Pg.draw c) Reg.DRAW_STATE_PHASE = 3
      ∧ t.draw = { s.draw with reassign := true, live := s.draw.live.map fun d => { d with repair := true } }
      ∧ (∀ d j, s.draw.live = some d → s.slotOf d.frame = some j → (t.slot j).held = true)
      ∧ t = { s.regsOf t with draw := t.draw, ingress := { s.ingress with slots := t.ingress.slots } }
      ∧ s.KeepsPages t [Pg.drawctl, Pg.draw c, Pg.ingress] ∧ s.KeepsBytes t

/-- HENC_PICTURE_BEGIN, HENC_PICTURE_DONE and HENC_CORE_FAULT (R242, R248, R249, R251, R254, R257, R259): a stream's next picture in coding order
begins with its type, QP and buffer fixed, and its stream holds the buffers of the mini-GOP from then on; when its rows are published and coded
the access unit with its header stands in its buffer, LAST_FRAME and LAST_BYTES name it, its floor units count, the rendition buffer is released,
it joins the references and Iris goes on from its size; a fault sets FAULT of the core and leaves the stream to be spread anew. The model's own
choices in it: log entry 46. -/
def Obligations.HevcPictures : Prop :=
  (∀ (s x : State) (k f : Nat), k < 8 → s.streamOn k = true → (s.stream k).cur = none → s.ctl.capRun = true →
    x = s.releaseOver.advanceGops k 64 → x.nextPic k = some f → x.firstRow k = true → x.esHolder k = none →
    ∃ t, exec (.hencPictureBegin k) s = .next t
      ∧ (∃ p, (t.stream k).cur = some p ∧ p.frame = f ∧ p.index = (s.stream k).index
          ∧ p.kind = x.picKind k f ∧ p.irap = x.isIrap k f ∧ p.type = x.picType k f
          ∧ p.qp = x.picQp k f p.kind p.index ∧ p.buf = (s.stream k).index % s.esCount k
          ∧ (p.buf, f, false) ∈ (t.stream k).bufs)
      ∧ (t.stream k).index = (s.stream k).index + 1
      ∧ t.split.holds = x.split.holds.map (fun e =>
          if e.1 = Reader.due k ∧ (x.gopLeft k).contains e.2.2 = true then (Reader.henc k, e.2) else e)
      ∧ t = { s.regsOf t with draw := s.releaseOver.draw, henc := t.henc, split := { s.split with holds := t.split.holds } }
      ∧ s.KeepsPages t ([Pg.iris, Pg.recorder] ++ pagesOf Pg.henc 8) ∧ s.KeepsBytes t)
  ∧ (∀ (s : State) (k n : Nat) (p : HencPic) (au : List Byte), k < 8 → (s.stream k).cur = some p →
    (∀ y, y < (s.ctbs k).2 → s.rowReady k p.frame y = true) → n = (s.coded k p).countP (·.floor) →
    au = (s.auHead k p ++ s.sliceNal k p (s.coded k p)).take (s.fld (lead k) Reg.HENC_ES_CAP) →
    ∃ t, exec (.hencPictureDone k) s = .next t
      ∧ t.dram = (s.pokeN (s.esAddr k p.buf) (s.hevcHeader k p au (s.overhead k p) n ++ au)).dram
      ∧ s.StoresDram t (s.esAddr k p.buf) (64 + s.fld (lead k) Reg.HENC_ES_CAP)
      ∧ t.fld64 (lead k) Reg.HENC_LAST_FRAME_LO Reg.HENC_LAST_FRAME_HI = p.frame % 2 ^ 64
      ∧ t.fld (lead k) Reg.HENC_LAST_BYTES = au.length % 2 ^ Reg.HENC_LAST_BYTES.width
      ∧ t.fld (lead k) Reg.HENC_FLOOR_UNITS =
          min (s.fld (lead k) Reg.HENC_FLOOR_UNITS + n) (2 ^ Reg.HENC_FLOOR_UNITS.width - 1)
      ∧ (n ≠ 0 → t.fld (lead k) Reg.HENC_EVENT_FLOOR = 1 ∧ t.fld Pg.iris Reg.IRIS_EVENT_FLOOR = 1)
      ∧ (t.stream k).cur = none
      ∧ (t.stream k).hist = (s.irisNext k p.frame p.kind (8 * au.length) (decide (n ≠ 0))
          ((s.stream k).hist.headD ((s.stream k).init.getD default)) :: (s.stream k).hist).take 2
      ∧ (t.stream k).refs = s.reconstruct k p (s.sliceNal k p (s.coded k p)) :: s.keptRefs k p
      ∧ (∀ j, j ≠ k → t.stream j = s.stream j)
      ∧ t.split.holds = s.split.holds.filter (fun h => decide (h ≠ (Reader.henc k, s.rendOf k, p.frame)))
      ∧ t = { s.regsOf t with dram := t.dram, henc := t.henc, split := { s.split with holds := t.split.holds } }
      ∧ s.KeepsPages t (Pg.iris :: pagesOf Pg.henc 8))
  ∧ (∀ (s : State) (k y : Nat) (p : HencPic), (s.stream k).cur = some p → y < (s.ctbs k).2 → s.rowReady k p.frame y = false →
    exec (.hencPictureDone k) s = .next s)
  ∧ ∀ (s : State) (c : Nat), c < 8 →
    ∃ t, exec (.hencCoreFault c) s = .next t
      ∧ t.fld (Pg.henc c) Reg.HENC_STATE_FAULT = 1 ∧ t.fld (Pg.henc c) Reg.HENC_STATE_PHASE = 3
      ∧ t.fld (Pg.henc c) Reg.HENC_EVENT_CORE_FAULT = 1
      ∧ (∀ k, s.servedBy c = some k → t.stream k = { s.stream k with faulted := true })
      ∧ (∀ j, s.servedBy c ≠ some j → t.stream j = s.stream j)
      ∧ t = { s.regsOf t with henc := t.henc } ∧ s.KeepsPages t [Pg.henc c] ∧ s.KeepsBytes t

/-- DRDEC_IN_PROD, DRDEC_FRAME_DONE, HDEC_IN_PROD and HDEC_RECORD_DONE (R60, R229, R230, R233, R261 to R263, R266): a record handed to the raw
decoder in REVIEW begins, and FRAME_NOW is its frame; when it is decoded its samples stand in the next output slot, CONS moves on and FRAME_DONE
is raised; an HEVC record is taken from its ring, and one with a bad header is discarded with REC_ERR; an access unit without slices leaves its
parameter sets, and one whose sequence parameter set R261 does not allow is discarded with UNSUPPORTED. The model's own choices in it: log entries
45, 47. -/
def Obligations.Decoding : Prop :=
  (∀ (s : State) (r : Req) (v : Word), s.accepts r Pg.drdec 0x04C v = true → s.ctl.mode ≠ .review →
    ∃ t, exec (.drdecInProd r v) s = .next t
      ∧ t.fld Pg.drdec Reg.DRDEC_IN_PROD = wfld (s.written r Pg.drdec 0x04C v) Reg.DRDEC_IN_PROD
      ∧ t = { s with regs := t.regs } ∧ s.KeepsRegs t [keyOf Reg.DRDEC_IN_PROD Pg.drdec])
  ∧ (∀ (s : State) (r : Req) (v : Word) (b : List Byte), s.accepts r Pg.drdec 0x04C v = true → s.ctl.mode = .review → s.CommitsOk →
    s.on Pg.drdec Reg.DRDEC_CTRL_ENABLE = true → s.drdec.cur = none → s.drdecFull = false →
    wfld (s.written r Pg.drdec 0x04C v) Reg.DRDEC_IN_PROD ≠ s.fld Pg.drdec Reg.DRDEC_IN_CONS →
    b = s.drdecRecord (s.fld Pg.drdec Reg.DRDEC_IN_CONS) →
    ∃ t, exec (.drdecInProd r v) s = .next t
      ∧ t.fld Pg.drdec Reg.DRDEC_IN_PROD = wfld (s.written r Pg.drdec 0x04C v) Reg.DRDEC_IN_PROD
      ∧ (recordOk s.drdecShape b = true → t.drdec = { s.drdec with cur := some (leAt b 8 8, true) } ∧ t.frameNow = leAt b 8 8 % 2 ^ 64)
      ∧ (recordOk s.drdecShape b = false → t.drdec = { s.drdec with cur := some (s.frameNow, false) } ∧ t.frameNow = s.frameNow)
      ∧ t = { s.regsOf t with
          drdec := t.drdec, ingress := { s.ingress with frameVals := t.ingress.frameVals }
          ctl := { s.ctl with groups := t.ctl.groups, snaps := t.ctl.snaps, latches := t.ctl.latches } }
      ∧ (∀ a, a / 0x1000 % 1024 ∉ [Pg.drdec, Pg.global] → 0x020 ≤ a % 0x1000 → a % 0x1000 < 0x800 → t.rd a = s.rd a)
      ∧ s.KeepsBytes t)
  ∧ (∀ (s : State) (f : Nat) (ok : Bool), s.drdec.cur = some (f, ok) → s.ctl.mode = .review → s.CommitsOk →
    ∃ t, exec .drdecFrameDone s = .next t
      ∧ t.fld Pg.drdec Reg.DRDEC_IN_CONS =
          ringNext (s.fld Pg.drdec Reg.DRDEC_IN_CONS) (s.fld Pg.drdec Reg.DRDEC_IN_CFG_COUNT) % 2 ^ Reg.DRDEC_IN_CONS.width
      ∧ t.fld64 Pg.drdec Reg.DRDEC_LAST_FRAME_LO Reg.DRDEC_LAST_FRAME_HI = f % 2 ^ 64
      ∧ t.fld Pg.drdec Reg.DRDEC_EVENT_FRAME_DONE = 1 ∧ (ok = false → t.fld Pg.drdec Reg.DRDEC_EVENT_REC_ERR = 1)
      ∧ t.drdec.outCount = s.drdec.outCount + 1
      ∧ t.drdec.ready = (if s.reviewRaw then s.drdec.ready ++ [(f, s.drdecSlot)] else s.drdec.ready)
      ∧ (ok = true → (∀ e ∈ s.drdec.records, e.2.length ≤ 8192) →
          s.StoresDram t (s.drdecOut s.drdecSlot) (8192 + s.drdecShape.h * lineStride s.drdecShape.w s.drdecShape.ds))
      ∧ t = { s.regsOf t with
          dram := t.dram, drdec := t.drdec, ingress := { s.ingress with frameVals := t.ingress.frameVals }
          ctl := { s.ctl with groups := t.ctl.groups, snaps := t.ctl.snaps, latches := t.ctl.latches } }
      ∧ ∀ a, a / 0x1000 % 1024 ∉ [Pg.drdec, Pg.global] → 0x020 ≤ a % 0x1000 → a % 0x1000 < 0x800 → t.rd a = s.rd a)
  ∧ (∀ (s : State) (r : Req) (n : Nat) (v : Word), n < 2 → s.accepts r (Pg.hdec n) 0x04C v = true →
    ¬ (n = 1 ∧ s.on (Pg.hdec 0) Reg.HDEC_CTRL_GANG = true) →
    ∃ t, exec (.hdecInProd r n v) s = .next t
      ∧ t.fld (Pg.hdec n) Reg.HDEC_IN_PROD = wfld (s.written r (Pg.hdec n) 0x04C v) Reg.HDEC_IN_PROD
      ∧ t = { s with regs := t.regs } ∧ s.KeepsRegs t [keyOf Reg.HDEC_IN_PROD (Pg.hdec n)])
  ∧ (∀ (s : State) (r : Req) (v : Word), s.accepts r (Pg.hdec 1) 0x04C v = true → s.on (Pg.hdec 0) Reg.HDEC_CTRL_GANG = true →
    ∃ t, exec (.hdecInProd r 1 v) s = .next t ∧ s.Rejected t (Pg.hdec 1))
  ∧ ∀ (s : State) (n a : Nat) (b au : List Byte), n < 2 → s.ctl.mode = .review → s.on (Pg.hdec n) Reg.HDEC_CTRL_ENABLE = true →
    s.fld (Pg.hdec n) Reg.HDEC_IN_PROD ≠ s.fld (Pg.hdec n) Reg.HDEC_IN_CONS →
    ¬ (n = 1 ∧ s.on (Pg.hdec 0) Reg.HDEC_CTRL_GANG = true) →
    a = 4096 * s.fld (Pg.hdec n) Reg.HDEC_IN_BASE_LO + 2 ^ 32 * s.fld (Pg.hdec n) Reg.HDEC_IN_BASE_HI
      + s.fld (Pg.hdec n) Reg.HDEC_IN_CONS * (4096 * s.fld (Pg.hdec n) Reg.HDEC_IN_CFG_PAGES) → b = s.peekN a 64 →
    au = s.peekN (a + 64) (min (leAt b 0x18 4) (4096 * s.fld (Pg.hdec n) Reg.HDEC_IN_CFG_PAGES - 64)) →
    ∃ t, exec (.hdecRecordDone n) s = .next t
      ∧ t.fld (Pg.hdec n) Reg.HDEC_IN_CONS =
          ringNext (s.fld (Pg.hdec n) Reg.HDEC_IN_CONS) (s.fld (Pg.hdec n) Reg.HDEC_IN_CFG_COUNT) % 2 ^ Reg.HDEC_IN_CONS.width
      ∧ (leAt b 0 4 ≠ 0x45485A4B ∨ leAt b 4 2 ≠ 1 ∨ leAt b 0x3C 4 ≠ crc32c (b.take 0x3C) →
          t.fld (Pg.hdec n) Reg.HDEC_EVENT_REC_ERR = 1 ∧ t.dec n = { s.dec n with broken := true }
            ∧ t = { s.regsOf t with hdec := t.hdec }
            ∧ s.KeepsRegs t [keyOf Reg.HDEC_IN_CONS (Pg.hdec n), keyOf Reg.HDEC_EVENT_REC_ERR (Pg.hdec n)])
      ∧ (leAt b 0 4 = 0x45485A4B → leAt b 4 2 = 1 → leAt b 0x3C 4 = crc32c (b.take 0x3C) →
          (crc32c au ≠ leAt b 0x28 4 → t.fld (Pg.hdec n) Reg.HDEC_EVENT_CRC_ERR = 1)
            ∧ ((splitNals au).filter (fun u => isSlice (nalType u)) = [] → (splitNals au).any (fun u => decide (nalType u = 33)) = false →
                t.dec n = (s.dec n).keepSets (splitNals au) ∧ t.dram = s.dram)
            ∧ ∀ u l q su pu hd, (splitNals au).filter (fun u => isSlice (nalType u)) = u :: l →
                ((s.dec n).keepSets (splitNals au)).slice u = some (q, su, pu, hd) → s.spsFits n q = false →
                t.fld (Pg.hdec n) Reg.HDEC_EVENT_UNSUPPORTED = 1 ∧ t.dram = s.dram
                  ∧ t.dec n = { (s.dec n).keepSets (splitNals au) with
                      skipping := true, broken := true, lost := ((s.dec n).keepSets (splitNals au)).lost + 1 })
      ∧ t = { s.regsOf t with dram := t.dram, hdec := t.hdec } ∧ t.dec (1 - n) = s.dec (1 - n)
      ∧ s.KeepsPages t [Pg.hdec n]

/-! ### Firmware, Field Stop and the array (R66, R399, R456 to R475, R495 to R504, R518) -/

/-- FIRMWARE_LOAD, FIRMWARE_HANDOVER, ATTEST, HANDOVER_ALIVE, HANDOVER_FAIL, CHECKPOINT and SVN_COMMIT (R457 to R465, R475): an image that passes
every check goes to the idle side, or to the flash slot that does not hold the running one, which is empty after a failed read-back; one that does
not gives status 0x40 and its event; a handover makes the idle side active at once, or at the next frame start of a take; it ends with the build
that runs; a failed one goes back; a report counts and is written to the host; MIN_SVN only rises. The model's own choices in it: log entries 54,
83. -/
def Obligations.FirmwareSides : Prop :=
  (∀ (s : State) (tag : Nat) (h : HostData) (ok : Bool) (c : Cmd) (bufs : List (Nat × Nat)) (d : List Byte), c = s.hq.cmds.get tag →
    s.mayRun tag 0x20 → badFwLoad h c s = none → s.buffers c h false = .ok bufs → h.data = some d →
    ∃ t, exec (.firmwareLoad tag h ok) s = .next t
      ∧ (∀ i, checkImage (padTo (xferLen c h) d) (s.fld Pg.security Reg.SECURITY_MIN_SVN) = .ok i → c.cdw 8 % 2 = 1 →
          s.Done t tag i.build ∧ t.sideImage (1 - s.activeSide) = some i ∧ t.fw = (s.setImage (1 - s.activeSide) i).fw
            ∧ (∀ a, t.rd a = ((s.setImage (1 - s.activeSide) i).setFld Pg.cluster (sideFld (1 - s.activeSide)) 1).rd a))
      ∧ (∀ i, checkImage (padTo (xferLen c h) d) (s.fld Pg.security Reg.SECURITY_MIN_SVN) = .ok i → c.cdw 8 % 2 = 0 → ok = true →
          s.Done t tag i.build ∧ t.regs = s.regs
            ∧ (if (s.sideImage s.activeSide).isSome = true ∧ s.fw.flash0.map (·.hash) = (s.sideImage s.activeSide).map (·.hash)
               then t.fw = { s.fw with flash1 := some i } else t.fw = { s.fw with flash0 := some i }))
      ∧ (∀ i, checkImage (padTo (xferLen c h) d) (s.fld Pg.security Reg.SECURITY_MIN_SVN) = .ok i → c.cdw 8 % 2 = 0 → ok = false →
          t.completed tag 0x30 0 0 ∧ t.regs = s.regs
            ∧ (if (s.sideImage s.activeSide).isSome = true ∧ s.fw.flash0.map (·.hash) = (s.sideImage s.activeSide).map (·.hash)
               then t.fw = { s.fw with flash1 := none } else t.fw = { s.fw with flash0 := none }))
      ∧ (∀ back, checkImage (padTo (xferLen c h) d) (s.fld Pg.security Reg.SECURITY_MIN_SVN) = .error back →
          t.completed tag 0x40 0 0 ∧ t.fw = s.fw
            ∧ t.fld Pg.security (if back then Reg.SECURITY_EVENT_ROLLBACK else Reg.SECURITY_EVENT_AUTH_FAIL) = 1
            ∧ s.KeepsRegs t [keyOf Reg.SECURITY_EVENT_AUTH_FAIL Pg.security])
      ∧ s.OnlyTag t tag
      ∧ t = { s.regsOf t with fw := t.fw, hq := { s.hq with
          cmds := t.hq.cmds, errors := t.hq.errors, errCount0 := t.hq.errCount0, errCount1 := t.hq.errCount1 } })
  ∧ (∀ (s : State) (tag : Nat) (c : Cmd), s.starts tag 0x21 → c = s.hq.cmds.get tag → s.idleReady = true →
    ∃ t, exec (.firmwareHandover tag) s = .next t
      ∧ (c.cdw 8 % 2 = 0 → s.Done t tag ((s.sideImage (1 - s.activeSide)).getD default).build ∧ t.fw = s.fw ∧ t.regs = s.regs)
      ∧ (c.cdw 8 % 2 = 1 → s.ctl.capRun = true → t.fw = { s.fw with waiting := some c.uid } ∧ t.regs = s.regs)
      ∧ (c.cdw 8 % 2 = 1 → (t.hq.cmds.get tag).stage = .running) ∧ s.OnlyTag t tag
      ∧ (c.cdw 8 % 2 = 1 → s.ctl.capRun = false →
          t.fw = { s.fw with running := some c.uid, waiting := none, written := s.fw.written + 1, read := s.fw.written + 1 }
            ∧ t.activeSide = 1 - s.activeSide ∧ t.fld Pg.global Reg.GLOBAL_FW_BUILD = ((s.sideImage (1 - s.activeSide)).getD default).build % 2 ^ 32
            ∧ t.fld Pg.cluster Reg.CLUSTER_STATE_HANDOVER = 1 ∧ t.fld Pg.cluster (sideFld (1 - s.activeSide)) = 2
            ∧ t.fld Pg.cluster (sideFld s.activeSide) = 1)
      ∧ t = { s.regsOf t with fw := t.fw, hq := { s.hq with cmds := t.hq.cmds } } ∧ s.KeepsPages t [Pg.cluster, Pg.global])
  ∧ (∀ (s : State) (tag : Nat) (h : HostData) (c : Cmd) (bufs : List (Nat × Nat)) (b : List Byte), s.starts tag 0x22 (fun c s => s.badReport c h) →
    c = s.hq.cmds.get tag → s.buffers c h true = .ok bufs → b = s.attestReport c.fn (slice c.raw 0x20 32) →
    ∃ t, exec (.attest tag h) s = .next t
      ∧ s.Done t tag b.length ∧ t.out = (s.toHost c.fn bufs b).out ∧ t.fw = { s.fw with reports := s.fw.reports + 1 }
      ∧ t.fld Pg.security Reg.SECURITY_SIGN_COUNT
          = min (s.fld Pg.security Reg.SECURITY_SIGN_COUNT + 1) (2 ^ Reg.SECURITY_SIGN_COUNT.width - 1)
      ∧ t = { s with regs := t.regs, out := t.out, fw := t.fw, hq := { s.hq with cmds := t.hq.cmds } }
      ∧ s.KeepsRegs t [keyOf Reg.SECURITY_SIGN_COUNT Pg.security])
  ∧ (∀ (s : State) (u : Nat), s.fw.running = some u →
    (∃ t, exec .handoverAlive s = .next t
      ∧ t.fw = { s.fw with running := none } ∧ t.fld Pg.cluster Reg.CLUSTER_STATE_HANDOVER = 0 ∧ t.activeSide = s.activeSide
      ∧ t.fld Pg.cluster Reg.CLUSTER_HANDOVERS = min (s.fld Pg.cluster Reg.CLUSTER_HANDOVERS + 1) (2 ^ Reg.CLUSTER_HANDOVERS.width - 1)
      ∧ t.fld Pg.cluster Reg.CLUSTER_EVENT_HANDOVER_DONE = 1 ∧ s.ends t u 0 (s.fld Pg.global Reg.GLOBAL_FW_BUILD) 0
      ∧ (∀ g, s.tagOf u ≠ some g → t.hq.cmds.get g = s.hq.cmds.get g)
      ∧ t = { s.regsOf t with
          fw := t.fw, hq := { s.hq with cmds := t.hq.cmds, ghosts := s.hq.ghosts.filter fun x => decide (x.uid ≠ u) } }
      ∧ s.KeepsPages t [Pg.cluster])
    ∧ ∃ t, exec .handoverFail s = .next t
      ∧ t.fw = { s.fw with running := none } ∧ t.fld Pg.cluster Reg.CLUSTER_STATE_HANDOVER = 0 ∧ t.activeSide = 1 - s.activeSide
      ∧ t.fld Pg.cluster (sideFld s.activeSide) = 3 ∧ t.fld Pg.cluster (sideFld (1 - s.activeSide)) = 2
      ∧ t.fld Pg.cluster Reg.CLUSTER_EVENT_HANDOVER_FAIL = 1 ∧ s.ends t u 0 (t.fld Pg.global Reg.GLOBAL_FW_BUILD) 0
      ∧ (∀ g, s.tagOf u ≠ some g → t.hq.cmds.get g = s.hq.cmds.get g)
      ∧ t = { s.regsOf t with
          fw := t.fw, hq := { s.hq with cmds := t.hq.cmds, ghosts := s.hq.ghosts.filter fun x => decide (x.uid ≠ u) } }
      ∧ s.KeepsPages t [Pg.cluster, Pg.global])
  ∧ (∀ s : State, s.fwRuns = true → s.on Pg.global Reg.GLOBAL_STATE_TAKE = false →
    exec .checkpoint s = .next { s with fw := { s.fw with
      written := s.fw.written + 1, read := if s.idleReady then s.fw.written + 1 else s.fw.read } })
  ∧ ∀ (s : State) (r : Req) (v : Word) (a : FwImage), s.accepts r Pg.security 0x044 v = true → wfld v Reg.SECURITY_SVN_CTRL = 1 →
    s.sideImage s.activeSide = some a →
    ∃ t, exec (.svnCommit r v) s = .next t
      ∧ ((∀ i, s.sideImage (1 - s.activeSide) = some i → a.svn ≤ i.svn) → s.fld Pg.security Reg.SECURITY_MIN_SVN < a.svn →
          t.fld Pg.security Reg.SECURITY_MIN_SVN = a.svn % 2 ^ Reg.SECURITY_MIN_SVN.width
            ∧ t.fld Pg.security Reg.SECURITY_EVENT_SVN_RAISED = 1
            ∧ s.Kept t [keyOf Reg.SECURITY_MIN_SVN Pg.security, keyOf Reg.SECURITY_EVENT_SVN_RAISED Pg.security])
      ∧ ((∀ i, s.sideImage (1 - s.activeSide) = some i → a.svn ≤ i.svn) → a.svn ≤ s.fld Pg.security Reg.SECURITY_MIN_SVN → t = s)
      ∧ (∀ i, s.sideImage (1 - s.activeSide) = some i → i.svn < a.svn → s.Rejected t Pg.security)

/-- SUPPLY_REQ_WRITE, SUPPLY_SEQ_STEP, GUARD_WINDOW_WRITE and VR_ALERT (R468, R470, R471, R518): the enables of a port rise or fall one by one in
order, each change is driven out and starts the port's delay; a write of a window that leaves a queue uncovered raises STATE_REJECT alone; a
regulator's alert raises PWR_REFUSED. The model's own choices in it: log entries 12, 83. -/
def Obligations.FieldStop : Prop :=
  (∀ (s : State) (r : Req) (v w : Word), s.accepts r Pg.guard 0x054 v = true → w = s.written r Pg.guard 0x054 v →
    ∃ t, exec (.supplyReqWrite r v) s = .next t
      ∧ t.fld Pg.guard Reg.GUARD_SUPPLY_REQ_ONA = wfld w Reg.GUARD_SUPPLY_REQ_ONA
      ∧ t.fld Pg.guard Reg.GUARD_SUPPLY_REQ_ONB = wfld w Reg.GUARD_SUPPLY_REQ_ONB
      ∧ (∀ k, k < 2 → s.seqRuns k = true → t.fld Pg.guard (supplyFlds k).2.1 = s.fld Pg.guard (supplyFlds k).2.1)
      ∧ (∀ k en, k < 2 → s.seqRuns k = false →
          nextEnables (decide (wfld w (supplyFlds k).1 = 1)) (s.fld Pg.guard (supplyFlds k).2.2.1) (s.fld Pg.guard (supplyFlds k).2.1)
            = some en → t.fld Pg.guard (supplyFlds k).2.1 = en ∧ t.seqRuns k = true ∧ Out.supply k en ∈ t.out)
      ∧ (∀ k, k < 2 → s.seqRuns k = false →
          nextEnables (decide (wfld w (supplyFlds k).1 = 1)) (s.fld Pg.guard (supplyFlds k).2.2.1) (s.fld Pg.guard (supplyFlds k).2.1)
            = none → t.fld Pg.guard (supplyFlds k).2.1 = s.fld Pg.guard (supplyFlds k).2.1 ∧ t.seqRuns k = false)
      ∧ t = { s with regs := t.regs, out := t.out, pwr := { s.pwr with seqA := t.pwr.seqA, seqB := t.pwr.seqB } }
      ∧ s.KeepsRegs t [keyOf Reg.GUARD_SUPPLY_REQ_ONA Pg.guard, keyOf Reg.GUARD_SUPPLY_STATE_ENA Pg.guard])
  ∧ (∀ (s : State) (k en : Nat), k < 2 → s.seqRuns k = true →
    nextEnables (s.on Pg.guard (supplyFlds k).1) (s.fld Pg.guard (supplyFlds k).2.2.1) (s.fld Pg.guard (supplyFlds k).2.1) = some en →
    ∃ t, exec (.supplySeqStep k) s = .next t
      ∧ t.fld Pg.guard (supplyFlds k).2.1 = en ∧ t.fld Pg.guard (supplyFlds (1 - k)).2.1 = s.fld Pg.guard (supplyFlds (1 - k)).2.1
      ∧ t = { s with regs := t.regs, out := .supply k en :: s.out } ∧ s.KeepsRegs t [keyOf Reg.GUARD_SUPPLY_STATE_ENA Pg.guard])
  ∧ (∀ (s : State) (k : Nat), k < 2 → s.seqRuns k = true →
    nextEnables (s.on Pg.guard (supplyFlds k).1) (s.fld Pg.guard (supplyFlds k).2.2.1) (s.fld Pg.guard (supplyFlds k).2.1) = none →
    ∃ t, exec (.supplySeqStep k) s = .next t ∧ t.seqRuns k = false ∧ t.seqRuns (1 - k) = s.seqRuns (1 - k)
      ∧ t = { s with pwr := { s.pwr with seqA := t.pwr.seqA, seqB := t.pwr.seqB } })
  ∧ (∀ (s u : State) (r : Req) (o : Nat) (v : Word), isWindow o = true → o % 4 = 0 → s.accepts r Pg.guard o v = true →
    u = s.store Pg.guard o (s.written r Pg.guard o v) →
    (u.queuesCovered = true → exec (.guardWindowWrite r o v) s = .next u)
      ∧ (u.queuesCovered = false → ∃ t, exec (.guardWindowWrite r o v) s = .next t ∧ s.Rejected t Pg.guard))
  ∧ ∀ s : State, s.ctl.phase ≠ .inReset →
    ∃ t, exec .vrAlert s = .next t ∧ t.fld Pg.pwr Reg.COMMON_EVENT_PWR_REFUSED = 1 ∧ s.Kept t [keyOf Reg.COMMON_EVENT_PWR_REFUSED Pg.pwr]

/-- WAKE_N_FALL and ALARM (R66, R376, R399, R452): a falling WAKE_N ends SLEEP in STANDBY, with the enabled media ports in training; an armed
alarm whose time has come raises ALARM and disarms, and with WAKE it ends SLEEP too. The model's own choices in it: log entries 3, 25. -/
def Obligations.WakesAndAlarms : Prop :=
  (∀ s : State, s.ctl.mode = .sleep →
    ∃ t, exec .wakeNFall s = .next t
      ∧ t.ctl.mode = .standby ∧ t.ctl.phase = .settled ∧ t.fld Pg.global Reg.GLOBAL_STATE_MODE = 0
      ∧ t.fw = { flash0 := s.fw.flash0, flash1 := s.fw.flash1, a := s.bootImage, b := s.bootImage }
      ∧ t.fld Pg.security Reg.SECURITY_MIN_SVN = s.fld Pg.security Reg.SECURITY_MIN_SVN
      ∧ (∀ k, k < 2 → t.fld (Pg.media k) Reg.MEDIA_STATE_PORT = if t.on (Pg.media k) Reg.MEDIA_CTRL_ENABLE then 1 else 0)
      ∧ (∀ p ∈ allPages, s.sleepsOff p = true → essential (pageDomain p) = true → t.fld p Reg.COMMON_PWR_REQ_STATUS = 3)
      ∧ s.WokenFrom t)
  ∧ (∀ s : State, s.ctl.mode ≠ .sleep → exec .wakeNFall s = .next s)
  ∧ ∀ s : State, s.on Pg.coll Reg.COLL_ALARM_CTRL_ARM = true → s.collRuns = true →
    s.fld64 Pg.coll Reg.COLL_ALARM_SEC_LO Reg.COLL_ALARM_SEC_HI * 1000000000 + s.fld Pg.coll Reg.COLL_ALARM_NS
      ≤ s.time.sec * 1000000000 + s.time.ns →
    ∃ t, exec .alarm s = .next t
      ∧ (s.ctl.mode ≠ .sleep ∨ s.on Pg.coll Reg.COLL_ALARM_CTRL_WAKE = false →
          t.fld Pg.coll Reg.COLL_ALARM_CTRL_ARM = 0 ∧ t.fld Pg.coll Reg.COLL_EVENT_ALARM = 1
            ∧ s.Kept t [keyOf Reg.COLL_ALARM_CTRL_ARM Pg.coll, keyOf Reg.COLL_EVENT_ALARM Pg.coll])
      ∧ (s.ctl.mode = .sleep → s.on Pg.coll Reg.COLL_ALARM_CTRL_WAKE = true →
          t.ctl.mode = .standby ∧ t.ctl.phase = .settled ∧ t.fld Pg.coll Reg.COLL_EVENT_ALARM = 1
            ∧ t.fw = { flash0 := s.fw.flash0, flash1 := s.fw.flash1, a := s.bootImage, b := s.bootImage } ∧ s.WokenFrom t)

/-- ARRAY_LEASE, LEASE_LOW and LEASE_EXPIRY (R496 to R499, R503): an accepted lease gives its generation as RESULT, starts the lease and asks for
a save; a lower generation, and the held one while fenced, end with status 0x10; a higher one readmits a fenced device; an expiry fences it. The
model's own choices in it: log entries 87, 88. -/
def Obligations.Leases : Prop :=
  (∀ (s : State) (tag g l : Nat), s.starts tag 0x28 (fun c _ => badArrayLease c) →
    g = (s.hq.cmds.get tag).cdw 8 → l = (s.hq.cmds.get tag).cdw 9 →
    g ≠ 0 → s.generation < g → s.fenced = false →
    ∃ t, exec (.arrayLease tag) s = .next t
      ∧ s.Done t tag g ∧ t.generation = g ∧ t.fld Pg.array Reg.ARRAY_STATE_MEMBER = 1 ∧ t.fld Pg.array Reg.ARRAY_EVENT_GEN_CHANGED = 1
      ∧ t.array = { lease := l, low := false } ∧ t.fld Pg.array Reg.ARRAY_LEASE = l
      ∧ (s.rsm.running = none → ∃ b q img, t.rsm.running = some (⟨5, [], none⟩, b, q, img))
      ∧ t = { s.regsOf t with hq := { s.hq with cmds := t.hq.cmds }, rsm := t.rsm, array := t.array }
      ∧ s.KeepsPages t [Pg.array, Pg.rstore])
  ∧ (∀ (s : State) (tag g l : Nat), s.starts tag 0x28 (fun c _ => badArrayLease c) →
    g = (s.hq.cmds.get tag).cdw 8 → l = (s.hq.cmds.get tag).cdw 9 →
    g ≠ 0 → s.generation = g → s.fenced = false →
    ∃ t, exec (.arrayLease tag) s = .next t
      ∧ s.Done t tag g ∧ t.array = { lease := l, low := false } ∧ t.fld Pg.array Reg.ARRAY_LEASE = l
      ∧ t = { s with regs := t.regs, hq := { s.hq with cmds := t.hq.cmds }, array := t.array }
      ∧ s.KeepsRegs t [keyOf Reg.ARRAY_LEASE Pg.array])
  ∧ (∀ (s : State) (tag l : Nat), s.starts tag 0x28 (fun c _ => badArrayLease c) →
    (s.hq.cmds.get tag).cdw 8 = 0 → l = (s.hq.cmds.get tag).cdw 9 →
    s.generation ≠ 0 → s.fenced = false → s.ctl.mode = .standby → s.ctl.phase = .settled →
    ∃ t, exec (.arrayLease tag) s = .next t
      ∧ s.Done t tag 0 ∧ t.generation = 0 ∧ t.fld Pg.array Reg.ARRAY_STATE_MEMBER = 0 ∧ t.array = {}
      ∧ t = { s.regsOf t with hq := { s.hq with cmds := t.hq.cmds }, rsm := t.rsm, array := t.array }
      ∧ s.KeepsPages t [Pg.array, Pg.rstore])
  ∧ (∀ (s : State) (tag : Nat), s.starts tag 0x28 (fun c _ => badArrayLease c) → (s.hq.cmds.get tag).cdw 8 = 0 → s.generation = 0 →
    ∃ t, exec (.arrayLease tag) s = .next t ∧ s.Done t tag 0 ∧ t = { s with hq := { s.hq with cmds := t.hq.cmds } })
  ∧ (∀ (s : State) (tag : Nat), s.starts tag 0x28 (fun c _ => badArrayLease c) → (s.hq.cmds.get tag).cdw 8 = 0 → s.generation ≠ 0 →
    (s.fenced = true ∨ s.ctl.mode ≠ .standby ∨ s.ctl.phase ≠ .settled) →
    ∃ t, exec (.arrayLease tag) s = .next t
      ∧ t.completed tag 0x0C s.generation 0 ∧ s.OnlyTag t tag
      ∧ t = { s with hq := { s.hq with
          cmds := t.hq.cmds, errors := t.hq.errors, errCount0 := t.hq.errCount0, errCount1 := t.hq.errCount1 } })
  ∧ (∀ (s : State) (tag g l : Nat), s.starts tag 0x28 (fun c _ => badArrayLease c) →
    g = (s.hq.cmds.get tag).cdw 8 → l = (s.hq.cmds.get tag).cdw 9 →
    g ≠ 0 → s.generation ≠ 0 → (g < s.generation ∨ (g = s.generation ∧ s.fenced = true)) →
    ∃ t, exec (.arrayLease tag) s = .next t
      ∧ t.completed tag 0x10 s.generation 0 ∧ s.OnlyTag t tag
      ∧ t = { s with hq := { s.hq with
          cmds := t.hq.cmds, errors := t.hq.errors, errCount0 := t.hq.errCount0, errCount1 := t.hq.errCount1 } })
  ∧ (∀ (s : State) (tag g l : Nat), s.starts tag 0x28 (fun c _ => badArrayLease c) →
    g = (s.hq.cmds.get tag).cdw 8 → l = (s.hq.cmds.get tag).cdw 9 →
    s.generation ≠ 0 → s.generation < g → s.fenced = true →
    ∃ t, exec (.arrayLease tag) s = .next t
      ∧ s.Done t tag g ∧ t.generation = g ∧ t.fenced = false ∧ t.fld Pg.global Reg.GLOBAL_STATE_FENCED = 0
      ∧ t.fld Pg.trig Reg.TRIG_STATE_FENCED = 0 ∧ t.fld Pg.array Reg.ARRAY_EVENT_READMITTED = 1
      ∧ t.fld Pg.array Reg.ARRAY_STATE_FENCED = 0 ∧ t.fld Pg.array Reg.ARRAY_EVENT_GEN_CHANGED = 1
      ∧ t.array = { lease := l, low := false } ∧ t.fld Pg.array Reg.ARRAY_LEASE = l
      ∧ (∀ f, f < 16 → s.flowOn f = true → (t.flow f).frame = none ∧ (t.flow f).packet = 0)
      ∧ (∀ f, ¬ (f < 16 ∧ s.flowOn f = true) → t.flow f = s.flow f)
      ∧ t = { s.regsOf t with
          hq := { s.hq with cmds := t.hq.cmds }, rsm := t.rsm, array := t.array, flows := t.flows, seed := t.seed
          media := { s.media with drives := t.media.drives, vol := t.media.vol }, split := { s.split with holds := t.split.holds } }
      ∧ s.KeepsPages t ([Pg.array, Pg.global, Pg.rstore, Pg.trig, Pg.recorder, Pg.security] ++ pagesOf Pg.media 2))
  ∧ (∀ s : State, s.array.lease ≠ 0 → s.array.low = false →
    ∃ t, exec .leaseLow s = .next t
      ∧ t.fld Pg.array Reg.ARRAY_EVENT_LEASE_LOW = 1 ∧ t = { s.regsOf t with array := { s.array with low := true } }
      ∧ s.KeepsRegs t [keyOf Reg.ARRAY_EVENT_LEASE_LOW Pg.array])
  ∧ ∀ s : State, s.array.lease ≠ 0 →
    ∃ t, exec .leaseExpiry s = .next t
      ∧ t.fenced = true ∧ t.fld Pg.global Reg.GLOBAL_STATE_FENCED = 1 ∧ t.fld Pg.trig Reg.TRIG_STATE_FENCED = 1
      ∧ t.fld64 Pg.array Reg.ARRAY_FENCE_FRAME_LO Reg.ARRAY_FENCE_FRAME_HI = s.frameNow
      ∧ t.fld Pg.array Reg.ARRAY_FENCES = min (s.fld Pg.array Reg.ARRAY_FENCES + 1) (2 ^ 16 - 1)
      ∧ t.fld Pg.array Reg.ARRAY_EVENT_FENCED = 1 ∧ t = { s.regsOf t with array := { s.array with lease := 0 } }
      ∧ s.KeepsPages t [Pg.array, Pg.global, Pg.trig]

/-! ### Media and the Recorder (R313, R318 to R340, R517, R527) -/

/-- MEDIA_ENABLE, MEDIA_RESET, MEDIA_PORT_READY, MEDIA_LINK_DOWN, HEALTH_POLL, NVME_COMPLETION, NVME_TIMEOUT and FORMAT (R318 to R320, R322, R323,
R337, R343, R527): an enabled port trains; a disabled one is down; either way a volume of which it is part unmounts, unless the port serves a
reel, a review or a recovery; RESET restarts a port in STANDBY alone; a good drive makes the port READY, another REJECTED, and the volume mounts
when its ports are READY; a link that falls fails the port and the open reel on it; a poll shows the drive's health. A completed Write is on the
drive and counted in WRITTEN; a failed one raises CMD_ERR and fails the port; a timeout resets the controller once, and a second one fails the
port; FORMAT writes and mounts an empty volume, or is discarded with STATE_REJECT. The model's own choices in it: log entries 8, 55, 56. -/
def Obligations.Drives : Prop :=
  (∀ (s : State) (c : Instr) (r : Req) (k : Nat) (v w : Word), c = .mediaEnable r k v ∨ c = .mediaReset r k v → k < 2 →
    s.accepts r (Pg.media k) 0x008 v = true → w = s.written r (Pg.media k) 0x008 v →
    (wmSet v Reg.MEDIA_CTRL_RESET = false ∨ (s.ctl.mode = .standby ∧ s.ctl.phase = .settled) →
      (wfld w Reg.MEDIA_CTRL_ENABLE = 1 → s.on (Pg.media k) Reg.MEDIA_CTRL_ENABLE = false ∨ wmSet v Reg.MEDIA_CTRL_RESET = true →
        ∃ t, exec c s = .next t
          ∧ t.on (Pg.media k) Reg.MEDIA_CTRL_ENABLE = true ∧ t.mport k = 1 ∧ t.fld (Pg.media k) Reg.MEDIA_STATE_QUEUES = 0
          ∧ t.drive k = { s.drive k with writes := [], retried := false, again := [] } ∧ t.drive (1 - k) = s.drive (1 - k)
          ∧ t.media.vol = (if s.mountedPorts.contains k then none else s.media.vol)
          ∧ t = { s with regs := t.regs, media := { s.media with drives := t.media.drives, vol := t.media.vol } }
          ∧ s.KeepsPages t (if s.mountedPorts.contains k then [Pg.media k, Pg.recorder] else [Pg.media k]))
      ∧ (wfld w Reg.MEDIA_CTRL_ENABLE = 0 → s.on (Pg.media k) Reg.MEDIA_CTRL_ENABLE = true → s.mediaBusy k = false →
        ∃ t, exec c s = .next t
          ∧ t.on (Pg.media k) Reg.MEDIA_CTRL_ENABLE = false ∧ t.mport k = 0 ∧ t.fld (Pg.media k) Reg.MEDIA_STATE_QUEUES = 0
          ∧ t.drive k = { s.drive k with writes := [], retried := false, again := [], cache := [] } ∧ t.drive (1 - k) = s.drive (1 - k)
          ∧ t.media.vol = (if s.mountedPorts.contains k then none else s.media.vol)
          ∧ (s.mountedPorts.contains k = true → t.fld Pg.recorder Reg.RECORDER_STATE_MOUNTED = 0)
          ∧ t = { s with regs := t.regs, media := { s.media with drives := t.media.drives, vol := t.media.vol } }
          ∧ s.KeepsPages t (if s.mountedPorts.contains k then [Pg.media k, Pg.recorder] else [Pg.media k]))
      ∧ (wfld w Reg.MEDIA_CTRL_ENABLE = 0 → s.on (Pg.media k) Reg.MEDIA_CTRL_ENABLE = true → s.mediaBusy k = true →
        ∃ t, exec c s = .next t ∧ s.Rejected t (Pg.media k)))
    ∧ (wmSet v Reg.MEDIA_CTRL_RESET = true → s.ctl.mode ≠ .standby ∨ s.ctl.phase ≠ .settled →
      ∃ t, exec c s = .next t ∧ s.Rejected t (Pg.media k)))
  ∧ (∀ (s : State) (k : Nat) (i : DriveInfo), k < 2 → s.on (Pg.media k) Reg.MEDIA_CTRL_ENABLE = true → s.mport k = 1 ∨ s.mport k = 2 →
    (s.drive k).retried = false →
    ∃ t, exec (.mediaPortReady k i) s = .next t
      ∧ (i.present = false → t.mport k = 0 ∧ t.media = s.media ∧ s.KeepsRegs t [keyOf Reg.MEDIA_STATE_PORT (Pg.media k)])
      ∧ (i.present = true → driveGood i = false → t.mport k = 4 ∧ t.fld (Pg.media k) Reg.MEDIA_EVENT_REJECTED = 1 ∧ t.media = s.media
          ∧ s.KeepsRegs t [keyOf Reg.MEDIA_STATE_PORT (Pg.media k), keyOf Reg.MEDIA_EVENT_REJECTED (Pg.media k)])
      ∧ (i.present = true → driveGood i = true →
          t.fld (Pg.media k) Reg.MEDIA_EVENT_READY = 1 ∧ t.capacity k = i.blocks * i.lbaSize % 2 ^ 64
            ∧ t.fld (Pg.media k) Reg.MEDIA_LBA = Nat.log2 i.lbaSize ∧ t.fld (Pg.media k) Reg.MEDIA_STATE_QUEUES = min 8 (max 1 i.queues)
            ∧ t.fld (Pg.media k) Reg.MEDIA_STATE_WIDTH = i.lanes % 16 ∧ t.fld (Pg.media k) Reg.MEDIA_STATE_SPEED = i.speed % 8
            ∧ t.drive k = { s.drive k with maxTransfer := i.maxTransfer, retried := false, again := [], writes := [] }
            ∧ t.drive (1 - k) = s.drive (1 - k)
            ∧ (s.media.vol.isSome = true ∨ (∀ j ∈ s.volPorts, s.newestDir j = none) → t.mport k = 3 ∧ t.media.vol = s.media.vol)
            ∧ (∀ e : Nat × List Byte, s.media.vol = none → s.driveCount = 1 → k = 0 → s.newestDir 0 = some e →
                (leAt e.2 6 1 = 1 → t.mport 0 = 3 ∧ t.media.vol = some (t.volumeOf e.2 [leAt e.2 7 1])
                    ∧ t.fld Pg.recorder Reg.RECORDER_STATE_MOUNTED = 1)
                  ∧ (leAt e.2 6 1 ≠ 1 → t.mport 0 = 6 ∧ t.media.vol = none ∧ t.fld Pg.recorder Reg.RECORDER_EVENT_VOLUME_ERR = 1)))
      ∧ t = { s.regsOf t with media := { s.media with drives := t.media.drives, vol := t.media.vol } }
      ∧ s.KeepsPages t ([Pg.recorder] ++ pagesOf Pg.media 2))
  ∧ (∀ (s : State) (k : Nat), k < 2 → s.mport k ≠ 0 →
    ∃ t, exec (.mediaLinkDown k) s = .next t
      ∧ t.mport k = 5 ∧ t.fld (Pg.media k) Reg.MEDIA_EVENT_LINK_DOWN = 1 ∧ t.fld (Pg.media k) Reg.MEDIA_STATE_QUEUES = 0
      ∧ (s.reel.isOpen = true → s.mountedPorts.contains k = true → t.reel.failed = true
          ∧ (s.reel.failed = false → t.fld Pg.recorder Reg.RECORDER_EVENT_MEDIA_FAIL = 1
              ∧ ∀ a ∈ s.reel.appends, s.ends t a.1 0x30 0 0))
      ∧ (s.reel.isOpen = false → t.drive k = { s.drive k with writes := [], retried := false, again := [] }
          ∧ t.drive (1 - k) = s.drive (1 - k) ∧ t.reel = s.reel)
      ∧ s.KeepsBytes t ∧ s.RecorderOnly t)
  ∧ (∀ (s : State) (k crit used temp : Nat), k < 2 → s.mport k = 3 →
    ∃ t, exec (.healthPoll k crit used temp) s = .next t
      ∧ t.fld (Pg.media k) Reg.MEDIA_HEALTH_CRIT_WARN = crit % 256 ∧ t.fld (Pg.media k) Reg.MEDIA_HEALTH_USED_PCT = used % 256
      ∧ t.fld (Pg.media k) Reg.MEDIA_HEALTH_TEMP = temp % 65536
      ∧ (crit % 256 ≠ 0 → t.fld (Pg.media k) Reg.MEDIA_EVENT_HEALTH = 1)
      ∧ s.Kept t [keyOf Reg.MEDIA_HEALTH_CRIT_WARN (Pg.media k), keyOf Reg.MEDIA_EVENT_HEALTH (Pg.media k)])
  ∧ (∀ (s : State) (k id : Nat) (w : NvmeWrite), k < 2 → (s.drive k).writes.find? (fun x => decide (x.id = id)) = some w →
    ∃ t, exec (.nvmeCompletion k id true) s = .next t
      ∧ (t.drive k).mem = (if w.data = [] then (s.drive k).mem else (s.drive k).mem.setN w.addr w.data)
      ∧ (t.drive (1 - k)).mem = (s.drive (1 - k)).mem
      ∧ t.fld64 (Pg.media k) Reg.MEDIA_WRITTEN_LO Reg.MEDIA_WRITTEN_HI =
          (s.fld64 (Pg.media k) Reg.MEDIA_WRITTEN_LO Reg.MEDIA_WRITTEN_HI + w.data.length) % 2 ^ 64
      ∧ (s.reel.isOpen = false → (s.drive k).retried = false →
          t.drive k = { s.drive k with writes := (s.drive k).writes.filter fun x => decide (x.id ≠ id) }.take w
            ∧ t.drive (1 - k) = s.drive (1 - k) ∧ t.mport k = s.mport k)
      ∧ (s.reel.isOpen = false → (s.drive k).retried = true → s.mport k = 2 →
          (∀ x ∈ (s.drive k).writes, x.id ≠ id → x.id ∉ (s.drive k).again) →
          t.mport k = 3 ∧ t.fld (Pg.media k) Reg.MEDIA_EVENT_READY = 1 ∧ (t.drive k).retried = false)
      ∧ t.dram = s.dram ∧ t.fstore = s.fstore ∧ t.relay = s.relay ∧ s.RecorderOnly t)
  ∧ (∀ (s : State) (k id : Nat), k < 2 → (∃ w ∈ (s.drive k).writes, w.id = id) →
    ∃ t, exec (.nvmeCompletion k id false) s = .next t
      ∧ t.mport k = 5 ∧ t.fld (Pg.media k) Reg.MEDIA_EVENT_CMD_ERR = 1
      ∧ t.fld (Pg.media k) Reg.MEDIA_ERR_COUNT = min (s.fld (Pg.media k) Reg.MEDIA_ERR_COUNT + 1) (2 ^ 32 - 1)
      ∧ (s.reel.isOpen = true → s.mountedPorts.contains k = true → t.reel.failed = true
          ∧ (s.reel.failed = false → t.fld Pg.recorder Reg.RECORDER_EVENT_MEDIA_FAIL = 1))
      ∧ s.KeepsBytes t ∧ s.RecorderOnly t)
  ∧ (∀ (s : State) (k id : Nat), k < 2 → (∃ w ∈ (s.drive k).writes, w.id = id) →
    ∃ t, exec (.nvmeTimeout k id) s = .next t
      ∧ t.fld (Pg.media k) Reg.MEDIA_TIMEOUTS = min (s.fld (Pg.media k) Reg.MEDIA_TIMEOUTS + 1) (2 ^ 16 - 1)
      ∧ t.fld (Pg.media k) Reg.MEDIA_EVENT_TIMEOUT = 1
      ∧ ((s.drive k).retried = false →
          t.mport k = 2 ∧ t.drive k = { s.drive k with retried := true, again := (s.drive k).writes.map (·.id) }
            ∧ t.drive (1 - k) = s.drive (1 - k)
            ∧ t = { s.regsOf t with media := { s.media with drives := t.media.drives } } ∧ s.KeepsPages t [Pg.media k])
      ∧ ((s.drive k).retried = true → t.mport k = 5
          ∧ (s.reel.isOpen = true → s.mountedPorts.contains k = true → t.reel.failed = true))
      ∧ s.KeepsBytes t ∧ s.RecorderOnly t)
  ∧ (∀ (s : State) (r : Req) (v : Word), s.accepts r Pg.recorder 0x008 v = true → r ≠ .pf1 → wmSet v Reg.RECORDER_CTRL_FORMAT = true →
    s.formatOk = true → s.fenced = false →
    ∃ t d, exec (.format r v) s = .next t
      ∧ t.media.vol = some d ∧ d.entries = [] ∧ d.drives = s.driveCount ∧ d.members = List.range s.driveCount ∧ d.vsize = s.volSize
      ∧ (∀ k ∈ s.volPorts, t.mport k = 3 ∧ (s.mport k = 6 → t.fld (Pg.media k) Reg.MEDIA_EVENT_READY = 1))
      ∧ (∀ k ∈ s.volPorts, t.drive k = { (s.drive k).format with
          mem := (s.drive k).format.mem.setN (65536 * (match s.newestDir k with | some e => 1 - e.1 | none => 0)) (dirBank d k) })
      ∧ (∀ k, k ∉ s.volPorts → t.drive k = s.drive k)
      ∧ t.fld Pg.recorder Reg.RECORDER_STATE_MOUNTED = 1
      ∧ t = { s.regsOf t with seed := s.seed + 1, media := { s.media with drives := t.media.drives, vol := t.media.vol } }
      ∧ s.KeepsPages t ([Pg.recorder] ++ pagesOf Pg.media 2))
  ∧ ∀ (s : State) (r : Req) (v : Word), s.accepts r Pg.recorder 0x008 v = true → r ≠ .pf1 → wmSet v Reg.RECORDER_CTRL_FORMAT = true →
    s.formatOk = false ∨ s.fenced = true → ∃ t, exec (.format r v) s = .next t ∧ s.Rejected t Pg.recorder

/-- FRAME_GROUP_COMPLETE, APPEND_METADATA, REEL_RECOVERY and REVIEW_FEED (R313, R327, R329, R330, R334 to R337, R340): a complete group is written
at the tail when no Write of the reel is outstanding, and waits otherwise; on a failed or a full reel it is dropped; host metadata is placed at
the tail and its command waits until it is durable; a reel left open is recovered; a review feeds its next group, skips one that cannot be read,
and ends with REVIEW_END. The model's own choices in it: log entries 55, 57, 61, 62. -/
def Obligations.Reels : Prop :=
  (∀ (s u : State) (f : Nat) (b : List Byte), s.nextGroup = some f → s.reel.isOpen = true → s.fenced = false → b = s.groupOf f →
    u = s.reelAppend [f] b → (∀ d ∈ s.reel.dropped, d.1 ≠ f) → (s.reel.closing = true → ∃ g ∈ s.reel.todo, g ≠ f) →
    (s.reel.waiting = [] → s.writesBelow s.reel.size = false → s.reel.failed = false → s.reel.tail + b.length ≤ s.reel.size - 8388608 →
      s.InExtent b.length → s.reel.index.length + 2 < 4096 →
      ∃ t, exec .frameGroupComplete s = .next t
        ∧ t.reel = { (s.reel.forget f).span f with
            tail := s.reel.tail + b.length, groups := s.reel.groups + 1
            index := s.reel.index ++ [⟨f, s.reel.tail, b.length, 1, if s.reel.preroll.contains f then 1 else 0⟩]
            chain := (if s.digests then [(f, sha384 (s.digest f))] else []) ++ s.reel.chain
            times := s.reel.times ++ [(s.reel.tail + b.length, s.time)], part := u.reel.part, partOf := u.reel.partOf }
        ∧ (∀ k, t.drive k = u.drive k)
        ∧ t = { s with
            regs := t.regs, media := { s.media with reel := t.reel, drives := t.media.drives }, henc := t.henc
            draw := { s.draw with bufs := t.draw.bufs }, split := { s.split with holds := t.split.holds } }
        ∧ (∀ k, t.stream k = { s.stream k with bufs := (t.stream k).bufs }) ∧ s.KeepsPages t [Pg.recorder])
    ∧ (s.writesBelow s.reel.size = true → s.reel.failed = false → s.reel.index.length + 1 < 4096 →
      ∃ t, exec .frameGroupComplete s = .next t
        ∧ t.reel = { s.reel with waiting := s.reel.waiting ++ [(f, b.length, s.time)] } ∧ (∀ k, t.drive k = s.drive k)
        ∧ t = { s with
            regs := t.regs, media := { s.media with reel := t.reel, drives := t.media.drives }, henc := t.henc
            draw := { s.draw with bufs := t.draw.bufs }, split := { s.split with holds := t.split.holds } }
        ∧ (∀ k, t.stream k = { s.stream k with bufs := (t.stream k).bufs }) ∧ s.KeepsPages t [Pg.recorder])
    ∧ (s.reel.waiting = [] → s.reel.failed = true →
      ∃ t, exec .frameGroupComplete s = .next t
        ∧ t.fld Pg.recorder Reg.RECORDER_EVENT_DROP = 1 ∧ t.reel.drops = s.reel.drops + 1 ∧ f ∉ t.reel.todo ∧ t.reel.tail = s.reel.tail
        ∧ t.fld Pg.recorder Reg.RECORDER_DROPS = min (s.fld Pg.recorder Reg.RECORDER_DROPS + 1) (2 ^ Reg.RECORDER_DROPS.width - 1)
        ∧ (∀ k, t.drive k = s.drive k) ∧ s.RecorderOnly t)
    ∧ (s.reel.waiting = [] → s.writesBelow s.reel.size = false → s.reel.failed = false → s.reel.size - 8388608 < s.reel.tail + b.length →
      s.reel.index.length + 2 < 4096 →
      ∃ t, exec .frameGroupComplete s = .next t
        ∧ t.fld Pg.recorder Reg.RECORDER_EVENT_DROP = 1 ∧ t.fld Pg.recorder Reg.RECORDER_EVENT_REEL_FULL = 1
        ∧ t.reel.full = true ∧ t.reel.drops = s.reel.drops + 1 ∧ t.reel.groups = s.reel.groups ∧ f ∉ t.reel.todo
        ∧ s.KeepsBytes t ∧ s.RecorderOnly t))
  ∧ (∀ (s u : State) (tag n : Nat) (h : HostData) (c : Cmd) (bufs : List (Nat × Nat)) (d b : List Byte), s.starts tag 0x82 (badAppend h) →
    c = s.hq.cmds.get tag → n = xferLen c h → n ≤ 65536 → s.buffers c h false = .ok bufs → h.data = some d →
    (s.dirEntry c.nsid).state ≠ 5 → s.reel.isOpen = true → s.reel.nsid = c.nsid →
    s.reel.failed = false → s.reel.lastFlush = false → (s.reel.closing = true → s.drained = false) → s.reel.index.length + 2 < 4096 →
    s.reel.tail + roundUp (32 + n) 64 ≤ s.reel.size - 8388608 → s.InExtent b.length → b = recordBytes s.reel.id 6 0 0 s.frameNow (padTo n d) →
    u = s.reelAppend [] b →
    ∃ t, exec (.appendMetadata tag h) s = .next t
      ∧ t.reel = { s.reel with
          tail := s.reel.tail + b.length, index := s.reel.index ++ [⟨s.frameNow, s.reel.tail, b.length, 6, 0⟩]
          appends := s.reel.appends ++ [(c.uid, s.reel.tail, s.reel.tail + b.length)], part := u.reel.part, partOf := u.reel.partOf }
      ∧ (∀ k, t.drive k = u.drive k) ∧ (t.hq.cmds.get tag).stage = .running ∧ s.OnlyTag t tag
      ∧ t = { s with
          regs := t.regs, media := { s.media with reel := t.reel, drives := t.media.drives }, hq := { s.hq with cmds := t.hq.cmds } }
      ∧ s.KeepsPages t [Pg.recorder])
  ∧ (∀ (s : State) (n : Nat) (r : ReelSt) (w : List Byte × ReelSt), s.recovering = some n → r = s.recovered n →
    w = r.flushPoint (headerGood r.header && (leAt r.header 0x2C 4).testBit 1) true true s.manifestCtx →
    ∃ t, exec .reelRecovery s = .next t
      ∧ t.dirEntry n = { s.dirEntry n with state := 4 } ∧ (∀ m, m ≠ n → t.dirEntry m = s.dirEntry m)
      ∧ t.fld Pg.recorder Reg.RECORDER_EVENT_RECOVERED = 1
      ∧ (∀ (v : Volume) (k a : Nat), s.media.vol = some v → 131072 ≤ a →
          (∀ x, v.place x = (k, a) → ¬ (r.start + r.tail ≤ x ∧ x < r.start + r.tail + w.1.length)
            ∧ ¬ (r.start + 0x10000 ≤ x ∧ x < r.start + 0x30000)) →
          (t.drive k).mem.get a = (s.drive k).mem.get a)
      ∧ t = { s.regsOf t with seed := t.seed, media := { s.media with drives := t.media.drives, vol := t.media.vol } }
      ∧ s.KeepsPages t ([Pg.recorder, Pg.security] ++ pagesOf Pg.media 2))
  ∧ (∀ s : State, s.recovering = none → exec .reelRecovery s = .next s)
  ∧ (∀ s : State, s.ctl.mode = .review → s.media.review.active = true → s.media.review.raws = [] → s.media.review.hevcs = [] →
    ∃ t, exec .reviewFeed s = .next t
      ∧ t.media = { s.media with review := { s.media.review with active := false } }
      ∧ t.fld Pg.recorder Reg.RECORDER_EVENT_REVIEW_END = 1 ∧ t = { s.regsOf t with media := t.media } ∧ s.KeepsPages t [Pg.recorder])
  ∧ (∀ (s : State) (x : IndexEntry) (l : List IndexEntry), s.ctl.mode = .review → s.media.review.active = true →
    s.media.review.raws = x :: l →
    ringFull (s.fld Pg.drdec Reg.DRDEC_IN_PROD) (s.fld Pg.drdec Reg.DRDEC_IN_CONS) (s.fld Pg.drdec Reg.DRDEC_IN_CFG_COUNT) = false →
    s.media.review.hevcs = [] → s.CommitsOk →
    ∃ t, exec .reviewFeed s = .next t
      ∧ t.media.review.raws = l
      ∧ (∀ rs r, s.readGroup x = some rs → rs.find? (fun r => decide (r.type = 2)) = some r →
          t.fld Pg.drdec Reg.DRDEC_IN_PROD = ringNext (s.fld Pg.drdec Reg.DRDEC_IN_PROD) (s.fld Pg.drdec Reg.DRDEC_IN_CFG_COUNT) % 32
            ∧ t.drdec.records = s.drdec.records ++ (rs.filter fun m => decide (m.type = 1)).map (fun m => (m.frame, m.payload))
            ∧ t.dram = (s.pokeN (s.drdecIn (s.fld Pg.drdec Reg.DRDEC_IN_PROD))
                (r.payload.take (4096 * s.fld Pg.drdec Reg.DRDEC_IN_CFG_PAGES))).dram)
      ∧ (s.readGroup x = none → x.offset ∉ s.media.review.skipped →
          t.media.review.skipped = x.offset :: s.media.review.skipped ∧ t.dram = s.dram ∧ t.drdec = s.drdec)
      ∧ (l = [] → t.media.review.active = false ∧ t.fld Pg.recorder Reg.RECORDER_EVENT_REVIEW_END = 1)
      ∧ (l ≠ [] → t.media.review.active = true)
      ∧ t = { s.regsOf t with
          dram := t.dram, drdec := { s.drdec with records := t.drdec.records, cur := t.drdec.cur }
          ctl := { s.ctl with groups := t.ctl.groups, snaps := t.ctl.snaps, latches := t.ctl.latches }
          ingress := { s.ingress with frameVals := t.ingress.frameVals }, media := { s.media with review := t.media.review } }
      ∧ ∀ a, a / 0x1000 % 1024 ∉ [Pg.drdec, Pg.global, Pg.recorder] ++ pagesOf Pg.media 2 → 0x020 ≤ a % 0x1000 → a % 0x1000 < 0x800 →
          t.rd a = s.rd a)
  ∧ ∀ (s : State) (x : IndexEntry) (l : List IndexEntry), s.ctl.mode = .review → s.media.review.active = true → s.media.review.raws = [] →
    s.media.review.hevcs = x :: l →
    ringFull (s.fld (Pg.hdec 0) Reg.HDEC_IN_PROD) (s.fld (Pg.hdec 0) Reg.HDEC_IN_CONS) (s.fld (Pg.hdec 0) Reg.HDEC_IN_CFG_COUNT) = false →
    ∃ t, exec .reviewFeed s = .next t
      ∧ t.media.review.hevcs = l
      ∧ (∀ rs r, s.readGroup x = some rs →
          rs.find? (fun r => decide (r.type = 3) && decide (r.index = s.fld Pg.recorder Reg.RECORDER_REVIEW_NS_STREAM)) = some r →
          t.fld (Pg.hdec 0) Reg.HDEC_IN_PROD = ringNext (s.fld (Pg.hdec 0) Reg.HDEC_IN_PROD) (s.fld (Pg.hdec 0) Reg.HDEC_IN_CFG_COUNT) % 32
            ∧ t.dram = (s.pokeN (4096 * s.fld (Pg.hdec 0) Reg.HDEC_IN_BASE_LO + 2 ^ 32 * s.fld (Pg.hdec 0) Reg.HDEC_IN_BASE_HI
                + s.fld (Pg.hdec 0) Reg.HDEC_IN_PROD * (4096 * s.fld (Pg.hdec 0) Reg.HDEC_IN_CFG_PAGES))
                (r.payload.take (4096 * s.fld (Pg.hdec 0) Reg.HDEC_IN_CFG_PAGES))).dram)
      ∧ (s.readGroup x = none → x.offset ∉ s.media.review.skipped → t.media.review.skipped = x.offset :: s.media.review.skipped)
      ∧ (s.readGroup x = none → t.dram = s.dram)
      ∧ (l = [] → t.media.review.active = false ∧ t.fld Pg.recorder Reg.RECORDER_EVENT_REVIEW_END = 1)
      ∧ (l ≠ [] → t.media.review.active = true)
      ∧ t = { s.regsOf t with dram := t.dram, media := { s.media with review := t.media.review } }
      ∧ s.KeepsPages t ([Pg.hdec 0, Pg.recorder] ++ pagesOf Pg.media 2)

/-- FLUSH_TIMER, FLUSH_WRITES_DONE, FLUSH_DONE, INDEX_BANK_DONE and PWRGOOD_FALL (R330, R331, R333, R339, R517): a flush point writes its records
and fixes END, and the last one of a closing reel ends with the manifest; once every Write below END has completed each drive gets a Flush; then
the next index bank is written; then END shows the new length and the metadata below it completes. The model's own choices in it: log entries 54,
57. -/
def Obligations.FlushPoints : Prop :=
  (∀ (s u : State) (w : List Byte × ReelSt), s.canFlush = true → (s.reel.closing = false ∨ s.drained = false) →
    w = s.reel.flushPoint s.provenance false false s.manifestCtx → s.InExtent w.1.length → u = s.reelAppend [] w.1 →
    (max recordsFrom s.reel.endOff < s.reel.tail → ∃ t, exec .flushTimer s = .next t
      ∧ t.reel = { w.2 with
          flush := .writing, lastFlush := false, failed := false, appends := s.reel.appends, part := u.reel.part, partOf := u.reel.partOf }
      ∧ (∀ k, t.drive k = u.drive k)
      ∧ t = { s with regs := t.regs, media := { s.media with reel := t.reel, drives := t.media.drives } } ∧ s.KeepsPages t [Pg.recorder])
    ∧ ∃ t, exec .pwrgoodFall s = .next t
      ∧ t.reel = { w.2 with
          flush := .writing, lastFlush := false, failed := false, appends := s.reel.appends, part := u.reel.part, partOf := u.reel.partOf }
      ∧ (∀ k, t.drive k = u.drive k)
      ∧ t = { s with regs := t.regs, media := { s.media with reel := t.reel, drives := t.media.drives } } ∧ s.KeepsPages t [Pg.recorder])
  ∧ (∀ (s u : State) (c : Instr) (w : List Byte × ReelSt), c = .flushTimer ∨ c = .pwrgoodFall → s.canFlush = true →
    s.reel.closing = true → s.drained = true → w = s.reel.flushPoint s.provenance true false s.manifestCtx →
    s.InExtent w.1.length → u = s.reelAppend [] w.1 →
    ∃ t, exec c s = .next t
      ∧ t.reel = { w.2 with
          flush := .writing, lastFlush := true, failed := false, appends := s.reel.appends, part := u.reel.part, partOf := u.reel.partOf }
      ∧ (∀ k, t.drive k = u.drive k)
      ∧ (s.provenance = true → t.fld Pg.security Reg.SECURITY_SIGN_COUNT
          = min (s.fld Pg.security Reg.SECURITY_SIGN_COUNT + 1) (2 ^ Reg.SECURITY_SIGN_COUNT.width - 1))
      ∧ t = { s with regs := t.regs, seed := t.seed, media := { s.media with reel := t.reel, drives := t.media.drives } }
      ∧ s.KeepsPages t (if s.provenance then [Pg.recorder, Pg.security] else [Pg.recorder]))
  ∧ (∀ s : State, s.canFlush = false → exec .flushTimer s = .next s ∧ exec .pwrgoodFall s = .next s)
  ∧ (∀ s : State, s.reel.isOpen = true → s.reel.flush = .writing → s.fenced = false → s.writesBelow s.reel.endOff = false →
    ∃ t, exec .flushWritesDone s = .next t
      ∧ t.reel = { s.reel with flush := .flushing }
      ∧ (∀ k ∈ s.mountedPorts, t.drive k = { s.drive k with
          writes := (s.drive k).writes ++ [{ id := (s.drive k).nextId }], nextId := (s.drive k).nextId + 1 })
      ∧ (∀ k, k ∉ s.mountedPorts → t.drive k = s.drive k)
      ∧ t = { s with media := { s.media with reel := t.reel, drives := t.media.drives } })
  ∧ (∀ (s : State) (b : List Byte), s.reel.isOpen = true → s.reel.flush = .flushing → s.fenced = false →
    (∀ w ∈ s.outstanding, w.data ≠ []) → b = bankBytes s.reel (if s.reel.lastFlush then 3 else 2) (s.reel.bankSeq + 1) →
    bankOff (s.reel.bankSeq + 1) + b.length ≤ s.reel.size →
    ∃ t, exec .flushDone s = .next t
      ∧ t.reel = { s.reel with flush := .banking, bankSeq := s.reel.bankSeq + 1 }
      ∧ (∀ k, t.drive k = (s.volWrite [] true b.length (s.reel.start + bankOff (s.reel.bankSeq + 1)) b).drive k)
      ∧ t = { s with media := { s.media with reel := t.reel, drives := t.media.drives } })
  ∧ ∀ s : State, s.reel.isOpen = true → s.reel.flush = .banking → s.writesBelow 0x30000 = false →
    s.reel.lastFlush = true ∨ (s.reel.closing = false ∧ s.reel.index.length + 1 < 4096) →
    ∃ t, exec .indexBankDone s = .next t
      ∧ t.fld64 Pg.recorder Reg.RECORDER_END_LO Reg.RECORDER_END_HI = s.reel.endOff % 2 ^ 64
      ∧ t.reel = { s.reel with
          flush := .idle, times := s.reel.times.filter (fun x => !decide (x.1 ≤ s.reel.endOff))
          appends := s.reel.appends.filter (fun a => !decide (a.2.2 ≤ s.reel.endOff)), closed := s.reel.lastFlush }
      ∧ (∀ x ∈ s.reel.times, x.1 ≤ s.reel.endOff →
          min 65535 ((s.time.ticks - x.2.ticks) / (1000000 * tickNs)) ≤ t.fld Pg.recorder Reg.RECORDER_MAX_LAT)
      ∧ ((s.reel.appends.map (·.1)).Nodup → ∀ a ∈ s.reel.appends, a.2.2 ≤ s.reel.endOff → s.ends t a.1 0 (a.2.1 % 2 ^ 32) 0)
      ∧ t = { s with
          regs := t.regs, hq := { s.hq with cmds := t.hq.cmds, ghosts := t.hq.ghosts }, media := { s.media with reel := t.reel } }
      ∧ s.KeepsPages t [Pg.recorder]

/-! ### The Condenser (R312, R420 to R429) -/

/-- COMPRESS, DECOMPRESS and COND_JOB_END (R312, R420, R424, R427, R428): a command whose checks pass is accepted as a job of its own, in the
order in which commands were fetched, and runs once the engine is free; the job that ends has its output at its destination, is counted, and gives
its command or its register its code; a compression whose verification fails ends with VERIFY_ERR. The model's own choices in it: log entries 77,
78. -/
def Obligations.CondenserJobs : Prop :=
  (∀ (s : State) (i : Instr) (tag busy : Nat) (h : HostData) (c : Cmd) (inf : Bool) (bufs : List (Nat × Nat)) (b : List Byte) (j : CondJob),
    (i = .compress tag h ∧ inf = false) ∨ (i = .decompress tag h ∧ inf = true) →
    s.starts tag (if inf then 0x89 else 0x88) (badCond inf h) → c = s.hq.cmds.get tag →
    s.on Pg.cond Reg.COND_CTRL_ENABLE = true → s.buffers c h false = .ok bufs →
    s.windowOk c.fn (c.cdw 8 + 2 ^ 32 * c.cdw 9) (c.cdw 10) true = true → h.data = some b →
    busy = (if s.on Pg.cond Reg.COND_STATE_BUSY then 1 else 0) →
    j = { cmd := some c.uid, fn := c.fn, inflate := inf, level := c.cdw 11 % 16, input := padTo (xferLen c h) b, piece := xferLen c h
          dst := c.cdw 8 + 2 ^ 32 * c.cdw 9, cap := c.cdw 10, limit := c.cdw 10, most := some (max 1 (s.fld Pg.cond Reg.COND_DEC_MAX))
          order := c.uid } →
    ∃ t, exec i s = .next t
      ∧ t.cond = { s.cond with queue := s.cond.queue.take busy ++ j.enqueue (s.cond.queue.drop busy) }
      ∧ t.on Pg.cond Reg.COND_STATE_BUSY = (s.on Pg.cond Reg.COND_STATE_BUSY || s.condMay)
      ∧ (s.fld Pg.cond Reg.COMMON_PWR_REQ_STATUS ≠ 3 → Pg.cond ∈ t.pwr.rising)
      ∧ (t.hq.cmds.get tag).stage = .running ∧ s.OnlyTag t tag
      ∧ t = { s with
          regs := t.regs, hq := { s.hq with cmds := t.hq.cmds }, cond := t.cond, pwr := { s.pwr with rising := t.pwr.rising } }
      ∧ s.KeepsRegs t [keyOf Reg.COND_STATE_BUSY Pg.cond] ∧ s.KeepsBytes t)
  ∧ (∀ (s : State) (j : CondJob) (l : List CondJob) (verified : Bool), s.on Pg.cond Reg.COND_STATE_BUSY = true → s.cond.queue = j :: l →
    (∀ x ∈ l, x.cmd.isSome = true) → verified = true ∨ j.inflate = true → j.run.need = false → (j.run.full && j.stream) = false →
    s.fld Pg.cond Reg.COMMON_PWR_REQ_STATUS = 3 → s.fld Pg.cond Reg.COMMON_PWR_REQ_REQ = 3 →
    ∃ t, exec (.condJobEnd verified) s = .next t
      ∧ t.cond = { s.cond with queue := l } ∧ t.on Pg.cond Reg.COND_STATE_BUSY = (!l.isEmpty && s.condMay)
      ∧ t.fld Pg.cond Reg.COND_JOBS = min (s.fld Pg.cond Reg.COND_JOBS + 1) (2 ^ Reg.COND_JOBS.width - 1)
      ∧ (j.run.code = 0x21 → t.fld Pg.cond Reg.COND_EVENT_LIMIT = 1)
      ∧ (j.run.code = 0x20 → j.run.detail = 0 → t.fld Pg.cond Reg.COND_EVENT_NO_GAIN = 1)
      ∧ (∀ u, j.cmd = some u → t.out = (s.condWrite j j.run.out j.run.fit).out ∧ t.dram = s.dram
          ∧ s.ends t u j.run.code j.run.fit j.run.detail)
      ∧ (j.cmd = none → t.dram = (s.pokeN j.dst ((j.run.out.take j.run.fit).drop j.written)).dram ∧ t.out = s.out
          ∧ t.fld Pg.cond Reg.COND_RESULT_CODE = j.run.code % 2 ^ Reg.COND_RESULT_CODE.width
          ∧ t.fld Pg.cond Reg.COND_STATE_PHASE = 0 ∧ t.fld Pg.cond Reg.COND_EVENT_JOB_DONE = 1)
      ∧ t = { s.regsOf t with
          out := t.out, dram := t.dram, cond := t.cond
          hq := { s.hq with
            cmds := t.hq.cmds, ghosts := t.hq.ghosts, errors := t.hq.errors, errCount0 := t.hq.errCount0, errCount1 := t.hq.errCount1 } }
      ∧ s.KeepsPages t [Pg.cond])
  ∧ ∀ (s : State) (j : CondJob) (l : List CondJob), s.on Pg.cond Reg.COND_STATE_BUSY = true → s.cond.queue = j :: l →
    (∀ x ∈ l, x.cmd.isSome = true) → j.inflate = false →
    s.fld Pg.cond Reg.COMMON_PWR_REQ_STATUS = 3 → s.fld Pg.cond Reg.COMMON_PWR_REQ_REQ = 3 →
    ∃ t, exec (.condJobEnd false) s = .next t
      ∧ t.cond = { s.cond with queue := l } ∧ t.on Pg.cond Reg.COND_STATE_BUSY = (!l.isEmpty && s.condMay)
      ∧ t.fld Pg.cond Reg.COND_EVENT_VERIFY_ERR = 1
      ∧ t.fld Pg.cond Reg.COND_VERIFY_FAILS = min (s.fld Pg.cond Reg.COND_VERIFY_FAILS + 1) (2 ^ Reg.COND_VERIFY_FAILS.width - 1)
      ∧ (∀ u, j.cmd = some u → t.dram = s.dram ∧ ∃ n, n ≤ max j.written j.run.fit ∧ s.ends t u 0x20 n 1)
      ∧ (j.cmd = none → t.fld Pg.cond Reg.COND_RESULT_CODE = 0x20 ∧ t.fld Pg.cond Reg.COND_RESULT_VERIFY = 1
          ∧ t.fld Pg.cond Reg.COND_STATE_PHASE = 0 ∧ t.out = s.out)
      ∧ s.StoresDram t j.dst (j.run.fit - j.written)
      ∧ t = { s.regsOf t with
          out := t.out, seed := s.seed + 1, dram := t.dram, cond := t.cond
          hq := { s.hq with
            cmds := t.hq.cmds, ghosts := t.hq.ghosts, errors := t.hq.errors, errCount0 := t.hq.errCount0, errCount1 := t.hq.errCount1 } }
      ∧ s.KeepsPages t [Pg.cond]

/-- COND_GO, COND_RESUME, COND_ABORT, COND_OUTPUT_FULL and COND_NEED_INPUT (R427 to R429): GO starts a job on the registers' source and
destination, waits while another job runs, ends at once without a source, and is discarded with STATE_REJECT while a job exists; a full
destination and a used-up source suspend a streamed job, which RESUME continues with a new destination or a further piece; ABORT ends it with code
0x07. The model's own choices in it: log entry 78. -/
def Obligations.RegisterJobs : Prop :=
  (∀ (s : State) (r : Req) (v : Word) (j : CondJob), s.accepts r Pg.cond 0x008 v = true → wmSet v Reg.COND_CTRL_GO = true →
    wmSet v Reg.COND_CTRL_RESUME = false → wmSet v Reg.COND_CTRL_ABORT = false →
    j = { inflate := decide (s.fld Pg.cond Reg.COND_JOB_CFG_OP = 1), stream := decide (s.fld Pg.cond Reg.COND_JOB_CFG_MODE = 1)
          level := condLevel (s.fld Pg.cond Reg.COND_JOB_CFG_LEVEL), piece := s.fld Pg.cond Reg.COND_SRC_LEN
          input := s.peekN (s.fld64 Pg.cond Reg.COND_SRC_LO Reg.COND_SRC_HI) (s.fld Pg.cond Reg.COND_SRC_LEN)
          whole := !decide (s.fld Pg.cond Reg.COND_JOB_CFG_MODE = 1) || decide (s.fld Pg.cond Reg.COND_JOB_CFG_FINAL = 1)
          dst := s.fld64 Pg.cond Reg.COND_DST_LO Reg.COND_DST_HI, cap := s.fld Pg.cond Reg.COND_DST_CAP, order := s.hq.uidSeq
          limit := if s.fld Pg.cond Reg.COND_JOB_CFG_MODE = 1 then s.fld Pg.cond Reg.COND_OUT_LIMIT
            else min (s.fld Pg.cond Reg.COND_DST_CAP) (s.fld Pg.cond Reg.COND_OUT_LIMIT)
          most := if s.fld Pg.cond Reg.COND_JOB_CFG_MODE = 1 then none else some (max 1 (s.fld Pg.cond Reg.COND_DEC_MAX)) } →
    (wfld (s.written r Pg.cond 0x008 v) Reg.COND_CTRL_ENABLE = 1 → s.fld Pg.cond Reg.COND_STATE_PHASE = 0 →
      s.fld Pg.cond Reg.COND_SRC_LEN ≠ 0 → s.fld Pg.cond Reg.COMMON_PWR_REQ_STATUS = 3 →
      (s.on Pg.cond Reg.COND_STATE_BUSY = false → s.cond.queue = [] → s.condMay = true →
        ∃ t, exec (.condGo r v) s = .next t
          ∧ t.cond = { s.cond with queue := [j] } ∧ t.on Pg.cond Reg.COND_STATE_BUSY = true ∧ t.fld Pg.cond Reg.COND_STATE_PHASE = 1
          ∧ t.fld Pg.cond Reg.COND_TOTAL_IN = 0 ∧ t.fld Pg.cond Reg.COND_TOTAL_OUT = 0
          ∧ t = { s with regs := t.regs, cond := t.cond } ∧ s.KeepsPages t [Pg.cond] ∧ s.KeepsBytes t)
      ∧ (s.on Pg.cond Reg.COND_STATE_BUSY = true →
        ∃ t, exec (.condGo r v) s = .next t
          ∧ t.cond = { s.cond with queue := s.cond.queue.take 1 ++ j.enqueue (s.cond.queue.drop 1) }
          ∧ t.on Pg.cond Reg.COND_STATE_BUSY = true ∧ t.fld Pg.cond Reg.COND_STATE_PHASE = 4
          ∧ t = { s with regs := t.regs, cond := t.cond } ∧ s.KeepsPages t [Pg.cond] ∧ s.KeepsBytes t))
    ∧ (wfld (s.written r Pg.cond 0x008 v) Reg.COND_CTRL_ENABLE = 1 → s.fld Pg.cond Reg.COND_STATE_PHASE = 0 →
      s.fld Pg.cond Reg.COND_SRC_LEN = 0 →
      ∃ t, exec (.condGo r v) s = .next t
        ∧ t.fld Pg.cond Reg.COND_RESULT_CODE = 0x02 ∧ t.fld Pg.cond Reg.COND_STATE_PHASE = 0 ∧ t.fld Pg.cond Reg.COND_EVENT_JOB_DONE = 1
        ∧ t = s.regsOf t ∧ s.KeepsPages t [Pg.cond] ∧ s.KeepsBytes t)
    ∧ (wfld (s.written r Pg.cond 0x008 v) Reg.COND_CTRL_ENABLE = s.fld Pg.cond Reg.COND_CTRL_ENABLE →
      s.fld Pg.cond Reg.COND_STATE_PHASE ≠ 0 ∨ s.on Pg.cond Reg.COND_CTRL_ENABLE = false →
      ∃ t, exec (.condGo r v) s = .next t ∧ s.Rejected t Pg.cond))
  ∧ (∀ (s : State) (r : Req) (v : Word), s.accepts r Pg.cond 0x008 v = true → wmSet v Reg.COND_CTRL_GO = false →
    wmSet v Reg.COND_CTRL_RESUME = true → wmSet v Reg.COND_CTRL_ABORT = false →
    (∀ j, wfld (s.written r Pg.cond 0x008 v) Reg.COND_CTRL_ENABLE = 1 → s.cond.parked = some j → j.cmd = none →
      s.on Pg.cond Reg.COND_STATE_BUSY = false → s.cond.queue = [] → s.condMay = true →
      (s.fld Pg.cond Reg.COND_STATE_PHASE = 2 →
        ∃ t, exec (.condResume r v) s = .next t
          ∧ t.cond = { parked := none, queue := [{ j with
              dst := s.fld64 Pg.cond Reg.COND_DST_LO Reg.COND_DST_HI, cap := s.fld Pg.cond Reg.COND_DST_CAP, order := s.hq.uidSeq }] }
          ∧ t.fld Pg.cond Reg.COND_STATE_PHASE = 1 ∧ t.on Pg.cond Reg.COND_STATE_BUSY = true ∧ t.fld Pg.cond Reg.COND_OUT_DONE = 0
          ∧ t = { s with regs := t.regs, cond := t.cond } ∧ s.KeepsPages t [Pg.cond] ∧ s.KeepsBytes t)
      ∧ (s.fld Pg.cond Reg.COND_STATE_PHASE = 3 → s.fld Pg.cond Reg.COND_SRC_LEN ≠ 0 →
        ∃ t, exec (.condResume r v) s = .next t
          ∧ t.cond = { parked := none, queue := [{ j with
              input := j.input ++ s.peekN (s.fld64 Pg.cond Reg.COND_SRC_LO Reg.COND_SRC_HI) (s.fld Pg.cond Reg.COND_SRC_LEN)
              piece := s.fld Pg.cond Reg.COND_SRC_LEN, whole := decide (s.fld Pg.cond Reg.COND_JOB_CFG_FINAL = 1), order := s.hq.uidSeq }] }
          ∧ t.fld Pg.cond Reg.COND_STATE_PHASE = 1 ∧ t.on Pg.cond Reg.COND_STATE_BUSY = true ∧ t.fld Pg.cond Reg.COND_IN_DONE = 0
          ∧ t = { s with regs := t.regs, cond := t.cond } ∧ s.KeepsPages t [Pg.cond] ∧ s.KeepsBytes t))
    ∧ (wfld (s.written r Pg.cond 0x008 v) Reg.COND_CTRL_ENABLE = s.fld Pg.cond Reg.COND_CTRL_ENABLE →
      s.cond.parked = none ∨ s.on Pg.cond Reg.COND_CTRL_ENABLE = false →
      ∃ t, exec (.condResume r v) s = .next t ∧ s.Rejected t Pg.cond))
  ∧ (∀ (s : State) (r : Req) (v : Word), s.accepts r Pg.cond 0x008 v = true → wmSet v Reg.COND_CTRL_GO = false →
    wmSet v Reg.COND_CTRL_RESUME = false → wmSet v Reg.COND_CTRL_ABORT = true →
    (s.fld Pg.cond Reg.COND_STATE_PHASE = 0 → wfld (s.written r Pg.cond 0x008 v) Reg.COND_CTRL_ENABLE = s.fld Pg.cond Reg.COND_CTRL_ENABLE →
      ∃ t, exec (.condAbort r v) s = .next t ∧ s.Kept t [])
    ∧ (∀ j, s.fld Pg.cond Reg.COND_STATE_PHASE ≠ 0 → s.cond.parked = some j → j.cmd = none →
      ∃ t, exec (.condAbort r v) s = .next t
        ∧ t.cond = { s.cond with parked := none } ∧ t.fld Pg.cond Reg.COND_RESULT_CODE = 0x07 ∧ t.fld Pg.cond Reg.COND_STATE_PHASE = 0
        ∧ t.fld Pg.cond Reg.COND_EVENT_JOB_DONE = 1
        ∧ t = { s.regsOf t with cond := t.cond } ∧ s.KeepsPages t [Pg.cond] ∧ s.KeepsBytes t)
    ∧ (∀ j, s.fld Pg.cond Reg.COND_STATE_PHASE = 4 → s.cond.parked = none → s.cond.queue.find? (fun x => decide (x.cmd = none)) = some j →
      ∃ t, exec (.condAbort r v) s = .next t
        ∧ t.cond = { s.cond with queue := s.cond.queue.filter fun x => decide (x.cmd ≠ none) }
        ∧ t.fld Pg.cond Reg.COND_RESULT_CODE = 0x07 ∧ t.fld Pg.cond Reg.COND_STATE_PHASE = 0 ∧ t.fld Pg.cond Reg.COND_EVENT_JOB_DONE = 1
        ∧ t = { s.regsOf t with cond := t.cond } ∧ s.KeepsPages t [Pg.cond] ∧ s.KeepsBytes t)
    ∧ ∀ j, s.cond.parked = none → s.cond.queue = [j] → j.cmd = none → s.fld Pg.cond Reg.COND_STATE_PHASE = 1 →
      s.fld Pg.cond Reg.COMMON_PWR_REQ_STATUS = 3 → s.fld Pg.cond Reg.COMMON_PWR_REQ_REQ = 3 →
      ∃ t, exec (.condAbort r v) s = .next t
        ∧ t.cond = { s.cond with queue := [] } ∧ t.fld Pg.cond Reg.COND_RESULT_CODE = 0x07 ∧ t.fld Pg.cond Reg.COND_STATE_PHASE = 0
        ∧ t.on Pg.cond Reg.COND_STATE_BUSY = false ∧ t.fld Pg.cond Reg.COND_EVENT_JOB_DONE = 1
        ∧ s.StoresDram t j.dst (j.run.fit - j.written)
        ∧ t = { s.regsOf t with seed := s.seed + 1, dram := t.dram, cond := t.cond } ∧ s.KeepsPages t [Pg.cond])
  ∧ ∀ (s : State) (j : CondJob), s.on Pg.cond Reg.COND_STATE_BUSY = true → s.cond.queue = [j] → j.cmd = none → j.stream = true →
    s.fld Pg.cond Reg.COMMON_PWR_REQ_STATUS = 3 → s.fld Pg.cond Reg.COMMON_PWR_REQ_REQ = 3 →
    (j.run.full = true →
      ∃ t, exec .condOutputFull s = .next t
        ∧ t.cond = { queue := [], parked := some { j with written := j.run.fit } }
        ∧ t.dram = (s.pokeN j.dst ((j.run.out.take j.run.fit).drop j.written)).dram
        ∧ t.fld Pg.cond Reg.COND_OUT_DONE = (j.run.fit - j.written) % 2 ^ Reg.COND_OUT_DONE.width
        ∧ t.fld Pg.cond Reg.COND_STATE_PHASE = 2 ∧ t.on Pg.cond Reg.COND_STATE_BUSY = false
        ∧ t.fld Pg.cond Reg.COND_EVENT_SUSPENDED = 1
        ∧ t = { s.regsOf t with seed := s.seed + 1, dram := t.dram, cond := t.cond } ∧ s.KeepsPages t [Pg.cond])
    ∧ (j.run.need = true →
      ∃ t, exec .condNeedInput s = .next t
        ∧ t.cond = { queue := [], parked := some { j with
            written := j.run.fit, dst := j.dst + (j.run.fit - j.written), cap := j.cap - (j.run.fit - j.written) } }
        ∧ t.dram = (s.pokeN j.dst ((j.run.out.take j.run.fit).drop j.written)).dram
        ∧ t.fld Pg.cond Reg.COND_IN_DONE = j.piece % 2 ^ Reg.COND_IN_DONE.width
        ∧ t.fld Pg.cond Reg.COND_STATE_PHASE = 3 ∧ t.on Pg.cond Reg.COND_STATE_BUSY = false
        ∧ t.fld Pg.cond Reg.COND_EVENT_NEED_INPUT = 1
        ∧ t = { s.regsOf t with dram := t.dram, cond := t.cond } ∧ s.KeepsPages t [Pg.cond])

/-! ### Loupe, Mirror and the network (R344 to R374, R417, R418) -/

/-- LOUPE_ENABLE, LOUPE_SAMPLE_POINT, LOUPE_LINE and LOCK_LOST (R347, R352 to R357, R372): an engine that is enabled starts with the active
values; one that is disabled lets go of its source; the sample point reads the values of the frame and, with LOCK 0, takes the newest complete
frame, and a new format relocks the generator; each line goes out on the links of the engine with its number, and the last one counts the frame; a
locked generator without frame starts goes into holdover. The model's own choices in it: log entries 63, 64, 65, 66, 70. -/
def Obligations.LoupeOutputs : Prop :=
  (∀ (s : State) (r : Req) (n : Nat) (v : Word), n < 4 → s.accepts r (Pg.loupe n) 0x008 v = true → outputMode s.ctl.mode = true →
    (s.on (Pg.loupe n) Reg.LOUPE_CTRL_ENABLE = false → wfld (s.written r (Pg.loupe n) 0x008 v) Reg.LOUPE_CTRL_ENABLE = 1 →
      (s.enableBarred n true = false →
        ∃ t, exec (.loupeEnable r n v) s = .next t
          ∧ t.on (Pg.loupe n) Reg.LOUPE_CTRL_ENABLE = true ∧ t.fld (Pg.loupe n) Reg.LOUPE_STATE_PHASE = 1
          ∧ t.engine n = { vals := s.activeVals n, audio := s.time } ∧ (∀ m, m ≠ n → t.engine m = s.engine m)
          ∧ t.fld64 (Pg.loupe n) Reg.LOUPE_FRAMES_LO Reg.LOUPE_FRAMES_HI = 0
          ∧ (s.fld (Pg.loupe n) Reg.COMMON_PWR_REQ_STATUS ≠ 3 → Pg.loupe n ∈ t.pwr.rising)
          ∧ t = { s with regs := t.regs, loupe := t.loupe, pwr := { s.pwr with rising := t.pwr.rising } }
          ∧ s.KeepsPages t [Pg.loupe n] ∧ s.KeepsBytes t))
    ∧ (wmSet v Reg.LOUPE_CTRL_ENABLE = true → s.enableBarred n (!s.on (Pg.loupe n) Reg.LOUPE_CTRL_ENABLE) = true →
      ∃ t, exec (.loupeEnable r n v) s = .next t ∧ s.Rejected t (Pg.loupe n))
    ∧ (s.on (Pg.loupe n) Reg.LOUPE_CTRL_ENABLE = true → wfld (s.written r (Pg.loupe n) 0x008 v) Reg.LOUPE_CTRL_ENABLE = 0 →
      ¬ (s.fld (Pg.loupe n) Reg.COMMON_COMMIT_PENDING = 1 ∧ s.fld (Pg.loupe n) Reg.COMMON_COMMIT_SOURCE = 1) →
      s.fld (Pg.loupe n) Reg.COMMON_PWR_REQ_REQ = 3 →
      ∃ t, exec (.loupeEnable r n v) s = .next t
        ∧ t.on (Pg.loupe n) Reg.LOUPE_CTRL_ENABLE = false ∧ t.fld (Pg.loupe n) Reg.LOUPE_STATE_PHASE = 0
        ∧ t.engine n = {} ∧ (∀ m, m ≠ n → t.engine m = s.engine m)
        ∧ (∀ a f, (s.engine n).source = some (a, f) → a < 8 → (Reader.loupe n, a, f) ∉ t.split.holds)
        ∧ (∀ h ∈ s.split.holds, (∀ a f, h ≠ (Reader.loupe n, a, f)) → h ∈ t.split.holds)
        ∧ t = { s with
            regs := t.regs, loupe := t.loupe, pwr := { s.pwr with rising := t.pwr.rising }, split := { s.split with holds := t.split.holds } }
        ∧ s.KeepsPages t [Pg.loupe n] ∧ s.KeepsBytes t))
  ∧ (∀ (s : State) (n : Nat), n < 4 → s.engineOk n = true → (s.engine n).begun = false → s.fld (Pg.loupe n) Reg.LOUPE_STATE_PHASE = 1 →
    (s.engine n).black = 0 → (s.engine n).vals = s.activeVals n →
    ¬ (s.fld (Pg.loupe n) Reg.COMMON_COMMIT_PENDING = 1 ∧ s.fld (Pg.loupe n) Reg.COMMON_COMMIT_SOURCE = 1) →
    ∃ t, exec (.loupeSamplePoint n) s = .next t
      ∧ (∃ src, t.engine n = { s.engine n with begun := true, line := 0, sampled := s.time, realign := false, source := src }
          ∧ (s.locks n = true → src = (s.engine n).source.filter fun x => s.srcRuns x.1)
          ∧ (s.locks n = false →
              (∀ v, srcOf (s.lv n Reg.LOUPE_SRC) = some v → s.srcRuns v = true → src = (s.newestOf v).map fun f => (v, f))
                ∧ (∀ v, srcOf (s.lv n Reg.LOUPE_SRC) = some v → s.srcRuns v = false → src = none)
                ∧ (srcOf (s.lv n Reg.LOUPE_SRC) = none → src = none)))
      ∧ (∀ m, m ≠ n → t.engine m = s.engine m)
      ∧ (s.locks n = false → (s.engine n).realign = true → t.fld (Pg.loupe n) Reg.LOUPE_EVENT_RELOCK = 1)
      ∧ t = { s.regsOf t with loupe := t.loupe, split := { s.split with holds := t.split.holds } }
      ∧ s.KeepsPages t ([Pg.loupe n] ++ pagesOf Pg.sdi 4) ∧ s.KeepsBytes t)
  ∧ (∀ (s u : State) (n : Nat), n < 4 → s.engineRuns n = true → (s.engine n).begun = false → (s.engine n).vals ≠ [] →
    ¬ (s.fld (Pg.loupe n) Reg.COMMON_COMMIT_PENDING = 1 ∧ s.fld (Pg.loupe n) Reg.COMMON_COMMIT_SOURCE = 1) →
    u = s.putEngine n { s.engine n with vals := s.activeVals n } → (u.engFmt n, u.engRate n) ≠ (s.engFmt n, s.engRate n) →
    ∃ t, exec (.loupeSamplePoint n) s = .next t
      ∧ t.fld (Pg.loupe n) Reg.LOUPE_STATE_PHASE = 2 ∧ (t.engine n).vals = s.activeVals n
      ∧ 1 ≤ (t.engine n).black ∧ (t.engine n).black ≤ 2 ∧ (∀ m, m ≠ n → t.engine m = s.engine m)
      ∧ t = { s.regsOf t with seed := s.seed + 1, loupe := t.loupe, split := { s.split with holds := t.split.holds } }
      ∧ s.KeepsPages t ([Pg.loupe n] ++ pagesOf Pg.sdi 4) ∧ s.KeepsBytes t)
  ∧ (∀ (s : State) (n : Nat) (late : LineLate) (anc : List (List Nat) × Bool), n < 4 → s.engineOk n = true → (s.engine n).begun = true →
    activeLine (s.engFmt n) (s.engine n).line = none → (s.engine n).line + 1 < fmtLines (s.engFmt n) →
    anc = (if s.ancHere n (s.engine n).line then ancFit (fmtW (s.engFmt n)) (ancPackets (s.ancBuffer n) 400 0) else ([], false)) →
    ∃ t, exec (.loupeLine n late) s = .next t
      ∧ t.engine n = { s.engine n with line := (s.engine n).line + 1, audio := (t.engine n).audio }
      ∧ (∀ m, m ≠ n → t.engine m = s.engine m)
      ∧ (s.linksOf n = [] → t.out = s.out)
      ∧ (∀ k, s.linksOf n = [k] →
          ∃ au, t.out = .sdi k (lineNumber (s.engFmt n) (s.engine n).line) [] [] (if k = n then anc.1 else []) au :: s.out)
      ∧ (anc.2 = true → t.fld (Pg.loupe n) Reg.LOUPE_EVENT_ANC_TRUNC = 1)
      ∧ t = { s.regsOf t with out := t.out, loupe := t.loupe }
      ∧ s.KeepsPages t ([Pg.loupe n] ++ pagesOf Pg.sdi 4) ∧ s.KeepsBytes t)
  ∧ (∀ (s u : State) (n y crc : Nat) (late : LineLate) (row : List (Nat × Nat × Nat) × Bool × Bool), n < 4 → s.engineOk n = true →
    (s.engine n).begun = true → activeLine (s.engFmt n) (s.engine n).line = some y →
    u = (if decide (y = 0) && s.locks n && decide ((s.engine n).black = 0) then s.lockSource n else s) → row = u.composed n y late →
    crc = lineCrc (carriage n (s.engFmt n) (s.engRate n)) row.1 →
    ∃ t, exec (.loupeLine n late) s = .next t
      ∧ (s.linksOf n = [] → t.out = s.out ∧ (t.engine n).crcs = (s.engine n).crcs)
      ∧ (∀ k, s.linksOf n = [k] → s.engFmt n ≠ 4 →
          (∃ au, t.out = .sdi k (lineNumber (s.engFmt n) (s.engine n).line) (lumaWords row.1) (chromaWords row.1) [] au :: s.out)
          ∧ (s.mirrors k = false → (t.engine n).crcs = (s.engine n).crcs.filter fun x => decide (x.1 ≠ k))
          ∧ (s.mirrors k = true → ((s.engine n).crcs.filter fun x => decide (x.1 = k)).length < 256 →
              (t.engine n).crcs = (s.engine n).crcs ++ [(k, (s.engine n).line, crc)])
          ∧ (s.mirrors k = true → 256 ≤ ((s.engine n).crcs.filter fun x => decide (x.1 = k)).length → s.isLost k = false →
              t.isLost k = true ∧ t.fld Pg.mirror Reg.MIRROR_EVENT_LOST = 1))
      ∧ t.fld (Pg.loupe n) Reg.LOUPE_UNDERRUN_LINES =
          (if row.2.1 then min (s.fld (Pg.loupe n) Reg.LOUPE_UNDERRUN_LINES + 1) (2 ^ Reg.LOUPE_UNDERRUN_LINES.width - 1)
            else s.fld (Pg.loupe n) Reg.LOUPE_UNDERRUN_LINES)
      ∧ ((s.engine n).line + 1 < fmtLines (s.engFmt n) →
          (t.engine n).line = (s.engine n).line + 1 ∧ (t.engine n).begun = true
            ∧ t.fld64 (Pg.loupe n) Reg.LOUPE_FRAMES_LO Reg.LOUPE_FRAMES_HI = s.fld64 (Pg.loupe n) Reg.LOUPE_FRAMES_LO Reg.LOUPE_FRAMES_HI)
      ∧ ((s.engine n).line + 1 = fmtLines (s.engFmt n) →
          (t.engine n).line = 0 ∧ (t.engine n).begun = false
            ∧ t.fld64 (Pg.loupe n) Reg.LOUPE_FRAMES_LO Reg.LOUPE_FRAMES_HI =
                (s.fld64 (Pg.loupe n) Reg.LOUPE_FRAMES_LO Reg.LOUPE_FRAMES_HI + 1) % 2 ^ 64
            ∧ ∀ k ∈ s.linksOf n, t.fld (Pg.sdi k) Reg.SDI_FRAMES = min (s.fld (Pg.sdi k) Reg.SDI_FRAMES + 1) (2 ^ Reg.SDI_FRAMES.width - 1))
      ∧ (s.locks n = true → y + 1 = fmtH (s.engFmt n) → (t.engine n).source = none)
      ∧ (y + 1 ≠ fmtH (s.engFmt n) ∨ s.locks n = false → (t.engine n).source = (u.engine n).source ∧ t.split = u.split)
      ∧ (t.engine n).vals = (s.engine n).vals ∧ (∀ m, m ≠ n → t.engine m = s.engine m)
      ∧ t = { s.regsOf t with out := t.out, loupe := t.loupe, mirror := t.mirror, split := { s.split with holds := t.split.holds } }
      ∧ s.KeepsPages t ([Pg.loupe n, Pg.mirror] ++ pagesOf Pg.sdi 4) ∧ s.KeepsBytes t)
  ∧ ∀ (s : State) (n : Nat), n < 4 → s.engineRuns n = true → s.locks n = true → s.on (Pg.loupe n) Reg.LOUPE_STATE_HOLDOVER = false →
    ∃ t, exec (.lockLost n) s = .next t
      ∧ t.fld (Pg.loupe n) Reg.LOUPE_STATE_HOLDOVER = 1 ∧ t.fld (Pg.loupe n) Reg.LOUPE_EVENT_LOCK_LOST = 1
      ∧ s.Kept t [keyOf Reg.LOUPE_STATE_HOLDOVER (Pg.loupe n), keyOf Reg.LOUPE_EVENT_LOCK_LOST (Pg.loupe n)]

/-- MIRROR_LINE_CHECK, ETH_RX_FRAME, ETH_LINK_CHANGE and FEC_CODEWORD (R363, R368, R369, R373): a recaptured line whose CRC differs from that of
the line that Loupe sent counts and raises LINE_MISMATCH; a check that falls behind raises LOST; a frame that carries no PTP is discarded and
counted; a port's link shows in STATE with its event; an uncorrectable codeword counts and raises FEC_UNCORR. The model's own choices in it: log
entries 66, 69. -/
def Obligations.MirrorAndEthernet : Prop :=
  (∀ (s : State) (k : Nat) (b : MirrorLine) (x : Nat × Nat × Nat), k < 4 → s.mirrors k = true →
    (s.engine (s.linkEngine k)).crcs.find? (fun e => decide (e.1 = k)) = some x →
    s.isLost k = false →
    (b.behind = false → b.refs = true →
      ∃ t, exec (.mirrorLineCheck k b) s = .next t
        ∧ t.fld Pg.mirror (Reg.MIRROR_LINES_CHECKED k) =
            min (s.fld Pg.mirror (Reg.MIRROR_LINES_CHECKED k) + 1) (2 ^ (Reg.MIRROR_LINES_CHECKED k).width - 1)
        ∧ (b.crc % 2 ^ 32 = x.2.2 → t.fld Pg.mirror (Reg.MIRROR_MISMATCH_LINES k) = s.fld Pg.mirror (Reg.MIRROR_MISMATCH_LINES k))
        ∧ (b.crc % 2 ^ 32 ≠ x.2.2 → t.fld Pg.mirror Reg.MIRROR_EVENT_LINE_MISMATCH = 1
            ∧ t.fld Pg.mirror (Reg.MIRROR_MISMATCH_LINES k) =
                min (s.fld Pg.mirror (Reg.MIRROR_MISMATCH_LINES k) + 1) (2 ^ (Reg.MIRROR_MISMATCH_LINES k).width - 1))
        ∧ (b.number ≠ lineNumber (s.engFmt (s.linkEngine k)) x.2.1 → t.fld Pg.mirror Reg.MIRROR_EVENT_LINE_NUM_ERR = 1)
        ∧ t.engine (s.linkEngine k) = { s.engine (s.linkEngine k) with
            crcs := (s.engine (s.linkEngine k)).crcs.eraseP (fun e => decide (e.1 = k)) }
        ∧ (∀ m, m ≠ s.linkEngine k → t.engine m = s.engine m) ∧ (∀ m, m ≠ k → t.mirror.get m = s.mirror.get m)
        ∧ t = { s.regsOf t with loupe := t.loupe, mirror := t.mirror } ∧ s.KeepsPages t [Pg.mirror] ∧ s.KeepsBytes t)
    ∧ (b.behind = false → b.refs = false → (s.mirror.get k).missing = 0 →
      ∃ t, exec (.mirrorLineCheck k b) s = .next t
        ∧ (t.mirror.get k).missing = 1 ∧ t.fld Pg.mirror (Reg.MIRROR_LINES_CHECKED k) = s.fld Pg.mirror (Reg.MIRROR_LINES_CHECKED k)
        ∧ t = { s.regsOf t with loupe := t.loupe, mirror := t.mirror } ∧ s.KeepsPages t [Pg.mirror] ∧ s.KeepsBytes t)
    ∧ (b.behind = true ∨ (b.refs = false ∧ 1 ≤ (s.mirror.get k).missing) →
      ∃ t, exec (.mirrorLineCheck k b) s = .next t
        ∧ t.isLost k = true ∧ t.fld Pg.mirror Reg.MIRROR_EVENT_LOST = 1 ∧ t.mirror.get k = {}
        ∧ t = { s.regsOf t with loupe := t.loupe, mirror := t.mirror } ∧ s.KeepsPages t [Pg.mirror] ∧ s.KeepsBytes t))
  ∧ (∀ (s : State) (e : Nat) (frame : List Byte), e < 2 → s.ethUp e = true →
    (isPtp frame = false →
      ∃ t, exec (.ethRxFrame e frame) s = .next t
        ∧ t.fld (Pg.eth e) Reg.ETH_RX_DISCARDS = min (s.fld (Pg.eth e) Reg.ETH_RX_DISCARDS + 1) (2 ^ Reg.ETH_RX_DISCARDS.width - 1)
        ∧ s.Kept t [keyOf Reg.ETH_RX_DISCARDS (Pg.eth e)])
    ∧ (isPtp frame = true → exec (.ethRxFrame e frame) s = .next s))
  ∧ (∀ (s : State) (e : Nat) (up : Bool), e < 2 → outputMode s.ctl.mode = true → s.on (Pg.eth e) Reg.ETH_CTRL_ENABLE = true →
    s.on (Pg.eth e) Reg.ETH_STATE_LINK_UP ≠ up →
    ∃ t, exec (.ethLinkChange e up) s = .next t
      ∧ t.on (Pg.eth e) Reg.ETH_STATE_LINK_UP = up ∧ t.on (Pg.eth e) Reg.ETH_STATE_FEC_LOCK = up
      ∧ (up = true → t.fld (Pg.eth e) Reg.ETH_EVENT_LINK_UP = 1) ∧ (up = false → t.fld (Pg.eth e) Reg.ETH_EVENT_LINK_DOWN = 1)
      ∧ s.Kept t [keyOf Reg.ETH_STATE_LINK_UP (Pg.eth e), keyOf Reg.ETH_EVENT_LINK_UP (Pg.eth e)])
  ∧ ∀ (s : State) (e : Nat), e < 2 → outputMode s.ctl.mode = true → s.on (Pg.eth e) Reg.ETH_CTRL_ENABLE = true →
    (∃ t, exec (.fecCodeword e true) s = .next t
      ∧ t.fld (Pg.eth e) Reg.ETH_FEC_CORR = min (s.fld (Pg.eth e) Reg.ETH_FEC_CORR + 1) (2 ^ Reg.ETH_FEC_CORR.width - 1)
      ∧ s.Kept t [keyOf Reg.ETH_FEC_CORR (Pg.eth e)])
    ∧ ∃ t, exec (.fecCodeword e false) s = .next t
      ∧ t.fld (Pg.eth e) Reg.ETH_FEC_UNCORR = min (s.fld (Pg.eth e) Reg.ETH_FEC_UNCORR + 1) (2 ^ Reg.ETH_FEC_UNCORR.width - 1)
      ∧ t.fld (Pg.eth e) Reg.ETH_EVENT_FEC_UNCORR = 1
      ∧ s.Kept t [keyOf Reg.ETH_FEC_UNCORR (Pg.eth e), keyOf Reg.ETH_EVENT_FEC_UNCORR (Pg.eth e)]

/-- FLOW_ENABLE and ST2110_PACKET_SEND (R364 to R367, R374): a flow that passes the checks starts at the first packet of its next frame; one that
does not raises FLOW_ERR and STATE_REJECT; a flow that ends releases its buffer. A packet of a rendition's frame carries the pixel groups of its
place in order, that of an engine those of the composed line, an audio packet the samples of its packet time; the sequence number counts each. The
model's own choices in it: log entries 67, 68, 69. -/
def Obligations.Flows : Prop :=
  (∀ (s u : State) (r : Req) (f : Nat) (v : Word), f < 16 → s.accepts r Pg.pkt2110 (0x040 + 0x20 * f) v = true →
    u = s.wr (Pg.pkt2110 * 0x1000 + (0x040 + 0x20 * f)) (s.written r Pg.pkt2110 (0x040 + 0x20 * f) v) →
    (s.flowFld f Reg.PKT2110_FLOW_CFG_EN = 0 → u.flowOn f = true →
      (u.flowBad f = false → u.flowOver f = false →
        ∃ t, exec (.flowEnable r f v) s = .next t
          ∧ t.flow f = {
              index := if u.flowType f = 1 then ceilDiv s.time.ticks (u.packetTicks f) else 0, seq := (t.flow f).seq
              line := if u.flowType f = 0 ∧ 8 ≤ u.flowSrc f then
                  (s.fld64 (Pg.loupe (u.flowSrc f - 8)) Reg.LOUPE_FRAMES_LO Reg.LOUPE_FRAMES_HI
                    + (if (s.engine (u.flowSrc f - 8)).begun then 1 else 0)) * fmtH (s.actv (Pg.loupe (u.flowSrc f - 8)) Reg.LOUPE_FMT_FMT)
                else 0 }
          ∧ (t.flow f).seq < 65536
          ∧ (∀ g, g ≠ f → t.flow g = s.flow g) ∧ t = { u with flows := t.flows, seed := s.seed + 1 })
      ∧ (u.flowBad f = true ∨ u.flowOver f = true →
        ∃ t, exec (.flowEnable r f v) s = .next t
          ∧ t.fld Pg.pkt2110 Reg.PKT2110_EVENT_FLOW_ERR = 1 ∧ t.fld Pg.pkt2110 Reg.COMMON_EVENT_STATE_REJECT = 1
          ∧ s.Kept t [keyOf Reg.PKT2110_EVENT_FLOW_ERR Pg.pkt2110]))
    ∧ (s.flowFld f Reg.PKT2110_FLOW_CFG_EN = 1 →
      s.rd (Pg.pkt2110 * 0x1000 + (0x040 + 0x20 * f)) ||| 1 ≠ u.rd (Pg.pkt2110 * 0x1000 + (0x040 + 0x20 * f)) ||| 1 →
      ∃ t, exec (.flowEnable r f v) s = .next t ∧ s.Rejected t Pg.pkt2110)
    ∧ (s.flowFld f Reg.PKT2110_FLOW_CFG_EN = 1 → u.flowFld f Reg.PKT2110_FLOW_CFG_EN = 0 →
      s.rd (Pg.pkt2110 * 0x1000 + (0x040 + 0x20 * f)) ||| 1 = u.rd (Pg.pkt2110 * 0x1000 + (0x040 + 0x20 * f)) ||| 1 →
      ∃ t, exec (.flowEnable r f v) s = .next t
        ∧ t.flow f = {} ∧ (∀ g, g ≠ f → t.flow g = s.flow g)
        ∧ (∀ g, (s.flow f).frame = some g → (Reader.hold f, s.flowSrc f, g) ∉ t.split.holds)
        ∧ t = { u with flows := t.flows, split := { s.split with holds := t.split.holds } }))
  ∧ (∀ (s : State) (f : Nat) (late : Bool), f < 16 → s.flowSends f = false → exec (.st2110PacketSend f late) s = .next s)
  ∧ (∀ (s : State) (f g j : Nat) (x : FlowSt) (p : FlowShape) (r n : Nat × Nat), f < 16 → s.flowSends f = true → s.flowType f = 0 →
    s.flowSrc f < 8 → x = s.flow f → x.frame = none → s.flowRate f = some r → j = alignIndex s.time.ticks r → x.index ≠ j + 1 →
    s.srcRuns (s.flowSrc f) = true → s.newestOf (s.flowSrc f) = some g → p = s.flowShape f → p.step (s.flowExt f) 0 0 = some n →
    ∃ t, exec (.st2110PacketSend f false) s = .next t
      ∧ t.out = .rtp f x.seq (stampOf j r) false 0 0
          (p.payload (s.flowExt f) (s.rawPixel (s.srcShape (s.flowSrc f) g)) 0 0) (s.flowAddrs f) :: s.out
      ∧ t.flow f = { x with
          index := j + 1, frame := some g, line := n.1, packet := n.2, stamp := stampOf j r, seq := x.seq + 1 }
      ∧ t.split = { s.split with holds := s.split.holds ++ [(Reader.hold f, s.flowSrc f, g)] } ∧ (∀ g, g ≠ f → t.flow g = s.flow g)
      ∧ t = { s with regs := t.regs, out := t.out, flows := t.flows, split := t.split }
      ∧ s.KeepsPages t [Pg.eth (s.flowPort f)] ∧ s.KeepsBytes t)
  ∧ (∀ (s : State) (f g : Nat) (x : FlowSt) (p : FlowShape) (r : Nat × Nat), f < 16 → s.flowSends f = true → s.flowType f = 0 →
    s.flowSrc f < 8 → x = s.flow f → x.frame = some g → s.flowRate f = some r → p = s.flowShape f →
    ∃ t, exec (.st2110PacketSend f false) s = .next t
      ∧ t.out = .rtp f x.seq x.stamp (p.step (s.flowExt f) x.line x.packet).isNone (if p.chroma = 2 then 2 * x.line else x.line)
          (p.cols * (x.packet * p.perPacket (s.flowExt f)))
          (p.payload (s.flowExt f) (s.rawPixel (s.srcShape (s.flowSrc f) g)) x.line x.packet) (s.flowAddrs f) :: s.out
      ∧ (∀ n, p.step (s.flowExt f) x.line x.packet = some n →
          t.flow f = { x with line := n.1, packet := n.2, seq := x.seq + 1 } ∧ t.split = s.split)
      ∧ (p.step (s.flowExt f) x.line x.packet = none →
          t.flow f = { x with frame := none, line := 0, packet := 0, seq := x.seq + 1 }
            ∧ t.split.holds = s.split.holds.filter fun h => decide (h ≠ (Reader.hold f, s.flowSrc f, g)))
      ∧ (∀ g, g ≠ f → t.flow g = s.flow g)
      ∧ t.fld64 (Pg.eth (s.flowPort f)) Reg.ETH_TX_FRAMES_LO Reg.ETH_TX_FRAMES_HI =
          (s.fld64 (Pg.eth (s.flowPort f)) Reg.ETH_TX_FRAMES_LO Reg.ETH_TX_FRAMES_HI + 1) % 2 ^ 64
      ∧ t = { s with regs := t.regs, out := t.out, flows := t.flows, split := { s.split with holds := t.split.holds } }
      ∧ s.KeepsPages t [Pg.eth (s.flowPort f)] ∧ s.KeepsBytes t)
  ∧ (∀ (s : State) (f n : Nat) (x : FlowSt) (p : FlowShape) (r : Nat × Nat) (newest row : Nat × List (Nat × Nat × Nat))
    (rest : List (Nat × List (Nat × Nat × Nat))), f < 16 → s.flowSends f = true → s.flowType f = 0 → s.flowSrc f = 8 + n → x = s.flow f →
    s.flowRate f = some r → p = s.flowShape f → s.engineOk n = true → (s.engine n).rows = newest :: rest → x.line ≤ newest.1 →
    x.line ≤ (s.fld64 (Pg.loupe n) Reg.LOUPE_FRAMES_LO Reg.LOUPE_FRAMES_HI + 1) * p.h →
    (s.engine n).rows.find? (fun z => decide (z.1 = x.line)) = some row →
    ∃ t stamp, exec (.st2110PacketSend f false) s = .next t
      ∧ (¬ (x.line % max 1 p.h = 0 ∧ x.packet = 0) → stamp = x.stamp)
      ∧ t.out = .rtp f x.seq stamp (decide (p.packets (s.flowExt f) ≤ x.packet + 1) && decide (x.line % max 1 p.h + 1 = p.h))
          (if s.engFmt n = 1 then lineAt 1 (x.line % max 1 p.h) / 2 + lineAt 1 (x.line % max 1 p.h) % 2 * 32768
            else lineAt (s.engFmt n) (x.line % max 1 p.h))
          (p.cols * (x.packet * p.perPacket (s.flowExt f)))
          (p.payload (s.flowExt f) (fun a _ => row.2.getD a blackPixel) 0 x.packet) (s.flowAddrs f) :: s.out
      ∧ (p.packets (s.flowExt f) ≤ x.packet + 1 → t.flow f = { x with stamp := stamp, line := x.line + 1, packet := 0, seq := x.seq + 1 })
      ∧ (x.packet + 1 < p.packets (s.flowExt f) → t.flow f = { x with stamp := stamp, packet := x.packet + 1, seq := x.seq + 1 })
      ∧ (∀ g, g ≠ f → t.flow g = s.flow g)
      ∧ t = { s with regs := t.regs, out := t.out, flows := t.flows } ∧ s.KeepsPages t [Pg.eth (s.flowPort f)] ∧ s.KeepsBytes t)
  ∧ (∀ (s : State) (f : Nat) (x : FlowSt) (fs : List AudFrame), f < 16 → s.flowSends f = true → s.flowType f = 1 → x = s.flow f →
    fs = s.audSpan (s.flowSrc f) (x.index * s.packetTicks f) ((x.index + 1) * s.packetTicks f) → (x.index + 1) * s.packetTicks f ≤ s.time.ticks →
    s.audServes (s.flowSrc f) (s.flowFs f) = true →
    ∃ t, exec (.st2110PacketSend f false) s = .next t
      ∧ t.out = .rtp f x.seq (x.index * s.flowSamples f % 2 ^ 32) false 0 0
          ((List.range (s.flowSamples f)).flatMap fun i => (List.range (s.flowCh f)).flatMap fun c =>
            pcmBytes (s.audWord (s.flowSrc f)) (s.flowL f)
              (match fs[i]? with
                | some e => s.audSample (s.flowSrc f) e (s.flowFld f Reg.PKT2110_FLOW_CFG_FIRST_SLOT + c)
                | none => 0)) (s.flowAddrs f) :: s.out
      ∧ (fs.length < s.flowSamples f → t.fld Pg.pkt2110 Reg.PKT2110_EVENT_FILL = 1)
      ∧ t.flow f = { x with index := x.index + 1, seq := x.seq + 1 } ∧ (∀ g, g ≠ f → t.flow g = s.flow g)
      ∧ t = { s.regsOf t with out := t.out, flows := t.flows }
      ∧ s.KeepsPages t [Pg.eth (s.flowPort f), Pg.pkt2110] ∧ s.KeepsBytes t)
  ∧ ∀ (s : State) (f : Nat) (x : FlowSt) (r : Nat × Nat), f < 16 → s.flowSends f = true → s.flowType f = 2 → x = s.flow f →
    s.flowRate f = some r → (s.engine (s.flowSrc f)).begun = true → s.engFmt (s.flowSrc f) ≠ 1 →
    x.index ≠ 2 * s.fld64 (Pg.loupe (s.flowSrc f)) Reg.LOUPE_FRAMES_LO Reg.LOUPE_FRAMES_HI + 1 →
    ∃ t stamp, exec (.st2110PacketSend f false) s = .next t
      ∧ t.out = .rtp f x.seq stamp true 0 0
          (ancPayload (s.engFmt (s.flowSrc f)) (s.lv (s.flowSrc f) Reg.LOUPE_ANC_CFG_LINE) x.seq 0
            (ancPackets (s.ancBuffer (s.flowSrc f)) 400 0)) (s.flowAddrs f) :: s.out
      ∧ t.flow f = { x with
          index := 2 * s.fld64 (Pg.loupe (s.flowSrc f)) Reg.LOUPE_FRAMES_LO Reg.LOUPE_FRAMES_HI + 1, seq := x.seq + 1 }
      ∧ (∀ g, g ≠ f → t.flow g = s.flow g)
      ∧ t = { s with regs := t.regs, out := t.out, flows := t.flows } ∧ s.KeepsPages t [Pg.eth (s.flowPort f)] ∧ s.KeepsBytes t

/-! ### Time, PTP and triggers (R375 to R403, R469, R507) -/

/-- COLL_SNAP, COLL_SET, SYNC_IN and SYNC_OUT_PULSE (R377, R378, R386, R400, R401): SNAP latches the time into the writer's own snapshot
registers; SET loads the time at one edge, unless PTP runs or stepping is barred; an edge on SYNC_IN is captured less 6 ns, and in IN_MODE 2 it
steers the servo; SYNC_OUT sends its pulse at the newest whole second, exposure start or point of the take's grid, placed on a multiple of 125 ps.
The model's own choices in it: log entries 74, 92. -/
def Obligations.TimeCounter : Prop :=
  (∀ (s : State) (r : Req) (v w : Word) (p : Nat), s.accepts r Pg.coll 0x008 v = true → w = s.written r Pg.coll 0x008 v →
    wfld w Reg.COLL_CTRL_ENABLE = 1 → wmSel v Reg.COLL_CTRL_ENABLE = false → wmSet v Reg.COLL_CTRL_SET = false →
    wmSet v Reg.COLL_CTRL_SNAP = true → wfld w Reg.COLL_CTRL_PTP_EN = 1 ∨ s.servo = 0 → p = Pg.coll + 1024 * reqCode r →
    ∃ t, exec (.collSnap r v) s = .next t
      ∧ t.fld64 p Reg.COLL_SNAP_SEC_LO Reg.COLL_SNAP_SEC_HI = s.time.sec % 2 ^ 64
      ∧ t.fld p Reg.COLL_SNAP_NS = s.time.ns % 2 ^ 30 ∧ t.fld p Reg.COLL_SNAP_FRAC = s.time.frac % 2 ^ 32
      ∧ t = { s with regs := t.regs }
      ∧ s.KeepsRegs t [keyOf Reg.COLL_CTRL_ENABLE Pg.coll, keyOf Reg.COLL_SNAP_SEC_LO p, keyOf Reg.COLL_SNAP_SEC_HI p,
          keyOf Reg.COLL_SNAP_NS p, keyOf Reg.COLL_SNAP_FRAC p] ∧ s.KeepsBytes t)
  ∧ (∀ (s : State) (r : Req) (v w : Word), s.accepts r Pg.coll 0x008 v = true → r ≠ .pf1 → w = s.written r Pg.coll 0x008 v →
    wfld w Reg.COLL_CTRL_ENABLE = 1 → wmSel v Reg.COLL_CTRL_ENABLE = false → wmSet v Reg.COLL_CTRL_SNAP = false →
    wmSet v Reg.COLL_CTRL_SET = true → s.servo = 0 →
    (s.on Pg.coll Reg.COLL_CTRL_PTP_EN = false → s.stepBarred = false →
      ∃ t, exec (.collSet r v) s = .next t
        ∧ t.time = ⟨s.fld64 Pg.coll Reg.COLL_SET_SEC_LO Reg.COLL_SET_SEC_HI, min 999999999 (s.fld Pg.coll Reg.COLL_SET_NS), 0⟩
        ∧ t.coll = { s.coll with sync := none, t3 := none } ∧ t.fld Pg.coll Reg.COLL_EVENT_TIME_STEPPED = 1
        ∧ (∀ n, n < 4 → s.running (Pg.loupe n) = true → s.locks n = false → (t.engine n).realign = true)
        ∧ t = { s.regsOf t with time := t.time, coll := t.coll, loupe := t.loupe }
        ∧ s.KeepsRegs t [keyOf Reg.COLL_CTRL_ENABLE Pg.coll, keyOf Reg.COLL_EVENT_TIME_STEPPED Pg.coll] ∧ s.KeepsBytes t)
    ∧ (s.on Pg.coll Reg.COLL_CTRL_PTP_EN = true ∨ s.stepBarred = true →
      ∃ t, exec (.collSet r v) s = .next t
        ∧ t.fld Pg.coll Reg.COMMON_EVENT_STATE_REJECT = 1 ∧ t = s.regsOf t
        ∧ s.KeepsRegs t [keyOf Reg.COMMON_EVENT_STATE_REJECT Pg.coll] ∧ s.KeepsBytes t))
  ∧ (∀ (s : State) (x : Time), x = .ofTicks (s.time.ticks - 6 * tickNs) →
    (s.fld Pg.coll Reg.COLL_SYNC_CFG_IN_MODE = 1
        ∨ s.fld Pg.coll Reg.COLL_SYNC_CFG_IN_MODE = 2
          ∧ (s.on Pg.coll Reg.COLL_CTRL_PTP_EN = true ∨ s.on Pg.coll Reg.COLL_CTRL_ENABLE = false) →
      ∃ t, exec .syncIn s = .next t
        ∧ t.fld64 Pg.coll Reg.COLL_SYNC_IN_SEC_LO Reg.COLL_SYNC_IN_SEC_HI = x.sec % 2 ^ 64
        ∧ t.fld Pg.coll Reg.COLL_SYNC_IN_NS = x.ns ∧ t.fld Pg.coll Reg.COLL_SYNC_IN_FRAC = x.frac
        ∧ t.fld Pg.coll Reg.COLL_EVENT_SYNC_IN = 1 ∧ t = s.regsOf t ∧ s.KeepsPages t [Pg.coll] ∧ s.KeepsBytes t)
    ∧ ∀ θ : Int, s.fld Pg.coll Reg.COLL_SYNC_CFG_IN_MODE = 2 → s.on Pg.coll Reg.COLL_CTRL_PTP_EN = false →
      s.on Pg.coll Reg.COLL_CTRL_ENABLE = true →
      θ = (if 500000000 < x.ns then (x.ns : Int) - 1000000000 else x.ns) * thetaNs →
      ∃ t, exec .syncIn s = .next t
        ∧ t.fld Pg.coll Reg.COLL_SYNC_IN_NS = x.ns ∧ t.fld Pg.coll Reg.COLL_EVENT_SYNC_IN = 1
        ∧ t.coll = { s.coll with
            f := clampAbs s.rateLimit (s.coll.f + θ * 2 ^ (15 - s.fld Pg.coll Reg.COLL_SERVO_CFG_KI)) }
        ∧ t = { s.regsOf t with coll := t.coll } ∧ s.KeepsPages t [Pg.coll] ∧ s.KeepsBytes t)
  ∧ ∀ (s : State) (send : Nat → Host.Outcome State Fault Refusal), s.collRuns = true → s.ctl.mode ≠ .sleep →
    send = (fun x => .next (s.emit (.syncOut (placeEdge x) (max 1 (s.fld Pg.coll Reg.COLL_SYNC_CFG_OUT_WIDTH))))) →
    (s.fld Pg.coll Reg.COLL_SYNC_CFG_OUT_MODE = 0 → exec .syncOutPulse s = .next s)
    ∧ (s.fld Pg.coll Reg.COLL_SYNC_CFG_OUT_MODE = 1 →
      exec .syncOutPulse s = send (s.time.ticks / (1000000000 * tickNs) * (1000000000 * tickNs)))
    ∧ (∀ g, s.fld Pg.coll Reg.COLL_SYNC_CFG_OUT_MODE = 2 → s.fld Pg.trig Reg.TRIG_STATE_PHASE ≠ 0 → s.exposureAt g ≤ s.time.ticks →
      s.time.ticks < s.exposureAt (g + 1) → exec .syncOutPulse s = send (s.exposureAt g))
    ∧ (s.fld Pg.coll Reg.COLL_SYNC_CFG_OUT_MODE = 2 → s.fld Pg.trig Reg.TRIG_STATE_PHASE = 0 → exec .syncOutPulse s = .next s)
    ∧ ∀ (grid : Nat → Nat) (g : Nat), s.fld Pg.coll Reg.COLL_SYNC_CFG_OUT_MODE = 3 →
      grid = (fun g => g * s.rate.2 * (1000000000 * tickNs) / max 1 s.rate.1) →
      grid g ≤ s.time.ticks → s.time.ticks < grid (g + 1) → exec .syncOutPulse s = send (grid g)

/-- PTP_SYNC, PTP_ANNOUNCE, PTP_DELAY_REQ_SEND, PTP_DELAY_RESP, SYNC_TIMEOUT and STEP_WINDOW_EXPIRY (R379, R383 to R389): a sample of the selected
master steers F and INC, and brings the servo to LOCKED; a large one in ACQUIRE steps the time, and one far off in LOCKED or HOLDOVER begins
STEP_HOLD; a message of another domain, port or kind is discarded; another best master is selected; a Delay_Req and its answer make a delay
measurement; a master that falls silent leads to HOLDOVER; the step window ends in LOCKED or ACQUIRE. The model's own choices in it: log entries
71, 72, 73. -/
def Obligations.PtpServo : Prop :=
  (∀ (s : State) (m : PtpSyncMsg) (v θ step lim f a : Int) (c : CollSt) (far large : Bool), s.ptpOn = true →
    s.ptpTakes m.supported m.port m.domain = true → -7 ≤ m.logInterval → m.logInterval ≤ -1 → s.coll.sel = some (m.srcId, m.srcPort) →
    v = s.rxStamp - nsUnits m.sec m.ns - corrUnits m.corr → θ = v - s.coll.delay - psUnits (signed 32 (s.fld Pg.coll Reg.COLL_ASYM)) →
    step = θ * 2 ^ (-m.logInterval).toNat → lim = s.rateLimit →
    f = clampAbs lim (s.coll.f + step * 2 ^ (15 - s.fld Pg.coll Reg.COLL_SERVO_CFG_KI)) →
    a = clampAbs lim (f + step * 2 ^ (15 - s.fld Pg.coll Reg.COLL_SERVO_CFG_KP)) →
    c = { s.coll with
      sync := some v, received := (θ :: s.coll.received).take 8, accepted := (θ :: s.coll.accepted).take 8
      small := if (θ.natAbs : Int) < s.det then s.coll.small + 1 else 0
      within := if (θ / thetaNs).natAbs ≤ max 1 (s.fld Pg.array Reg.ARRAY_ALIGN_TOL) then s.coll.within + 1 else 0 } →
    far = decide (0 < s.det ∧ s.coll.accepted ≠ []
      ∧ s.det * s.coll.accepted.length < ((θ * s.coll.accepted.length - s.coll.accepted.sum).natAbs : Int)) →
    large = decide (8 ≤ s.coll.delays.length ∧ s.stepBarred = false
      ∧ ((max 1 (s.fld Pg.coll Reg.COLL_STEP_CFG_ACQ) : Nat) : Int) * 1000 * thetaNs < θ.natAbs) →
    (s.servo = 1 ∧ large = false ∨ s.servo = 2 ∧ far = false ∨ s.servo = 3 ∧ (s.det = 0 ∨ (θ.natAbs : Int) ≤ s.det) →
      ∃ t, exec (.ptpSync m) s = .next t
        ∧ t.coll = { c with f := f }
        ∧ t.fld Pg.coll Reg.COLL_INC_NS = incOf a / 2 ^ 32 % 16 ∧ t.fld Pg.coll Reg.COLL_INC_FRAC = incOf a % 2 ^ 32
        ∧ t.servo = (if s.servo = 1 ∧ (s.coll.delays.length < 8 ∨ c.small < 16) then 1 else 2)
        ∧ (t.servo = 2 → s.servo ≠ 2 → t.fld Pg.coll Reg.COLL_EVENT_LOCKED = 1)
        ∧ t.fld Pg.coll Reg.COLL_SYNC_COUNT = min (s.fld Pg.coll Reg.COLL_SYNC_COUNT + 1) (2 ^ Reg.COLL_SYNC_COUNT.width - 1)
        ∧ (a = lim ∨ a = -lim → t.fld Pg.coll Reg.COLL_EVENT_RANGE_LIMIT = 1)
        ∧ t = { s.regsOf t with coll := t.coll } ∧ s.KeepsPages t [Pg.coll, Pg.array] ∧ s.KeepsBytes t)
    ∧ (s.servo = 1 → large = true →
      ∃ t, exec (.ptpSync m) s = .next t
        ∧ t.time = .ofTicks ((s.time.ticks : Int) - θ / 1680000).toNat ∧ t.fld Pg.coll Reg.COLL_EVENT_TIME_STEPPED = 1
        ∧ t.coll = { c with f := 0, small := 0, sync := none, t3 := none } ∧ t.servo = 1
        ∧ t.fld Pg.coll Reg.COLL_INC_NS = 2 ∧ t.fld Pg.coll Reg.COLL_INC_FRAC = 0
        ∧ (∀ n, n < 4 → s.running (Pg.loupe n) = true → s.locks n = false → (t.engine n).realign = true)
        ∧ t = { s.regsOf t with time := t.time, coll := t.coll, loupe := t.loupe }
        ∧ s.KeepsPages t [Pg.coll, Pg.array] ∧ s.KeepsBytes t)
    ∧ (s.servo = 2 ∧ far = true ∨ s.servo = 3 ∧ s.det ≠ 0 ∧ s.det < (θ.natAbs : Int) →
      ∃ t, exec (.ptpSync m) s = .next t
        ∧ t.servo = 4 ∧ t.fld Pg.coll Reg.COLL_EVENT_STEP_DETECT = 1
        ∧ t.coll = { s.coll with
            sync := some v, received := c.received, stepSum := s.coll.accepted.sum, stepNum := s.coll.accepted.length }
        ∧ t.fld Pg.coll Reg.COLL_INC_NS = incOf s.coll.f / 2 ^ 32 % 16 ∧ t.fld Pg.coll Reg.COLL_INC_FRAC = incOf s.coll.f % 2 ^ 32
        ∧ t = { s.regsOf t with coll := t.coll } ∧ s.KeepsPages t [Pg.coll, Pg.array] ∧ s.KeepsBytes t)
    ∧ (s.servo = 0 ∨ 4 ≤ s.servo →
      ∃ t, exec (.ptpSync m) s = .next t
        ∧ t.coll = { s.coll with sync := some v, received := c.received }
        ∧ t = { s with regs := t.regs, coll := t.coll } ∧ s.KeepsRegs t [keyOf Reg.COLL_OFFSET Pg.coll] ∧ s.KeepsBytes t))
  ∧ (∀ (s : State) (m : PtpSyncMsg), s.coll.sel ≠ some (m.srcId, m.srcPort) → s.ptpTakes m.supported m.port m.domain = true →
    -7 ≤ m.logInterval → m.logInterval ≤ -1 → exec (.ptpSync m) s = .next s)
  ∧ (∀ (s : State) (c : Instr), s.ptpOn = true →
    (∃ m, c = .ptpSync m ∧ (s.ptpTakes m.supported m.port m.domain = false ∨ m.logInterval < -7 ∨ -1 < m.logInterval))
      ∨ (∃ m, c = .ptpAnnounce m ∧ s.ptpTakes m.supported m.port m.domain = false)
      ∨ (∃ m, c = .ptpDelayResp m ∧ s.ptpTakes m.supported m.port m.domain = false) →
    ∃ t, exec c s = .next t
      ∧ t.fld Pg.coll Reg.COLL_PTP_DISCARDS = min (s.fld Pg.coll Reg.COLL_PTP_DISCARDS + 1) (2 ^ Reg.COLL_PTP_DISCARDS.width - 1)
      ∧ s.Kept t [keyOf Reg.COLL_PTP_DISCARDS Pg.coll])
  ∧ (∀ (s : State) (m b : PtpAnnounceMsg) (l : List PtpAnnounceMsg), s.ptpOn = true → s.ptpTakes m.supported m.port m.domain = true →
    l = m :: s.coll.masters.filter (fun x => decide (x.srcId ≠ m.srcId) || decide (x.srcPort ≠ m.srcPort)) → bestMaster l = some b →
    (s.coll.sel = some (b.srcId, b.srcPort) → exec (.ptpAnnounce m) s = .next { s with coll := { s.coll with masters := l } })
    ∧ (s.coll.sel ≠ some (b.srcId, b.srcPort) →
      ∃ t, exec (.ptpAnnounce m) s = .next t
        ∧ t.coll = { s.coll with
            masters := l, sel := some (b.srcId, b.srcPort), sync := none, t3 := none
            small := if s.coll.sel.isSome then s.coll.small else 0 }
        ∧ t.servo = (if s.coll.sel.isSome then 3 else 1)
        ∧ t.fld64 Pg.coll Reg.COLL_MASTER_ID_LO Reg.COLL_MASTER_ID_HI = b.srcId % 2 ^ 64
        ∧ t.fld Pg.coll Reg.COLL_MASTER_PORT = b.srcPort % 65536
        ∧ (s.fld64 Pg.coll Reg.COLL_MASTER_ID_LO Reg.COLL_MASTER_ID_HI ≠ 0 →
            s.fld64 Pg.coll Reg.COLL_MASTER_ID_LO Reg.COLL_MASTER_ID_HI ≠ b.srcId % 2 ^ 64
              ∨ s.fld Pg.coll Reg.COLL_MASTER_PORT ≠ b.srcPort % 65536 →
            t.fld Pg.coll Reg.COLL_EVENT_MASTER_CHANGE = 1)
        ∧ t = { s.regsOf t with coll := t.coll } ∧ s.KeepsPages t [Pg.coll, Pg.array] ∧ s.KeepsBytes t))
  ∧ (∀ (s : State) (m : PtpAnnounceMsg) (k : Nat), s.ptpOn = true →
    s.coll.masters.find? (fun x => decide (s.coll.sel = some (x.srcId, x.srcPort))) = some m → k = s.fld Pg.coll Reg.COLL_PTP_CFG_PORT →
    ∃ t, exec .ptpDelayReqSend s = .next t
      ∧ t.out = .delayReq k (if s.on Pg.coll Reg.COLL_PTP_CFG_UNICAST then some (m.ip, m.mac) else none) :: s.out
      ∧ t.coll = { s.coll with t3 := some s.txStamp }
      ∧ t.fld64 (Pg.eth k) Reg.ETH_TX_FRAMES_LO Reg.ETH_TX_FRAMES_HI =
          (s.fld64 (Pg.eth k) Reg.ETH_TX_FRAMES_LO Reg.ETH_TX_FRAMES_HI + 1) % 2 ^ 64
      ∧ t = { s with regs := t.regs, out := t.out, coll := t.coll }
      ∧ s.KeepsRegs t [keyOf Reg.ETH_TX_FRAMES_LO (Pg.eth k), keyOf Reg.ETH_TX_FRAMES_HI (Pg.eth k)] ∧ s.KeepsBytes t)
  ∧ (∀ (s : State) (m : PtpDelayRespMsg) (v t3 : Int) (d : List Int), s.ptpOn = true → s.ptpTakes m.supported m.port m.domain = true →
    s.coll.sel = some (m.srcId, m.srcPort) → s.servo = 1 ∨ s.servo = 2 → s.coll.sync = some v → s.coll.t3 = some t3 →
    d = ((v + (nsUnits m.sec m.ns - t3 - corrUnits m.corr)) :: s.coll.delays).take 8 →
    ∃ t, exec (.ptpDelayResp m) s = .next t
      ∧ t.coll = { s.coll with delays := d, t3 := none }
      ∧ t.fld Pg.coll Reg.COLL_MEAN_DELAY = unsigned 32 (d.sum / (2 * d.length) / thetaNs)
      ∧ t = { s with regs := t.regs, coll := t.coll } ∧ s.KeepsRegs t [keyOf Reg.COLL_MEAN_DELAY Pg.coll] ∧ s.KeepsBytes t)
  ∧ (∀ (s : State) (m : PtpDelayRespMsg), s.ptpOn = true → s.ptpTakes m.supported m.port m.domain = true →
    s.coll.sel = some (m.srcId, m.srcPort) → s.servo ≠ 1 → s.servo ≠ 2 →
    exec (.ptpDelayResp m) s = .next { s with coll := { s.coll with t3 := none } })
  ∧ (∀ s : State, s.ptpOn = true → s.coll.sel.isSome = true →
    ∃ t, exec .syncTimeout s = .next t
      ∧ t.coll = { s.coll with sel := none, masters := [] } ∧ t.servo = 3
      ∧ (s.servo ≠ 3 → t.fld Pg.coll Reg.COLL_EVENT_HOLDOVER = 1)
      ∧ t.fld Pg.coll Reg.COLL_INC_NS = incOf s.coll.f / 2 ^ 32 % 16 ∧ t.fld Pg.coll Reg.COLL_INC_FRAC = incOf s.coll.f % 2 ^ 32
      ∧ t = { s.regsOf t with coll := t.coll } ∧ s.KeepsPages t [Pg.coll, Pg.array] ∧ s.KeepsBytes t)
  ∧ ∀ (s : State) (n : Int), s.servo = 4 → n = max 1 (s.coll.stepNum : Int) →
    ∃ t, exec .stepWindowExpiry s = .next t
      ∧ (((twiceMedian s.coll.received * n - 2 * s.coll.stepSum).natAbs : Int) ≤ 2 * n * s.det →
          t.servo = 2 ∧ t.fld Pg.coll Reg.COLL_EVENT_STEP_TRANSIENT = 1 ∧ t.coll = s.coll)
      ∧ (2 * n * s.det < ((twiceMedian s.coll.received * n - 2 * s.coll.stepSum).natAbs : Int) →
          t.servo = 1 ∧ t.fld Pg.coll Reg.COLL_EVENT_STEP_ACCEPTED = 1 ∧ t.coll = { s.coll with small := 0 })
      ∧ t = { s.regsOf t with coll := t.coll } ∧ s.KeepsPages t [Pg.coll, Pg.array] ∧ s.KeepsBytes t

/-- TRIGGER_EDGE and TRIGGER_PULSE_END (R393, R394, R396, R397, R469): a driven pin whose point comes rises at its computed time, at the nearest
multiple of 125 ps, and the leading pin counts the trigger with its exposure; a point of a fenced schedule passes as SKIPPED, one that comes
before the minimum period as SUPPRESSED; the pulse falls at its end. The model's own choices in it: log entries 75, 92. -/
def Obligations.Triggers : Prop :=
  (∀ (s : State) (pin e due period : Nat) (x : TrigPin), pin < 2 → s.pinOn pin = true → s.fld Pg.trig Reg.TRIG_STATE_PHASE ≠ 0 →
    s.on Pg.coll Reg.COLL_CTRL_ENABLE = true → x = s.trig.pin pin → e = s.exposureAt x.next →
    due = ((e : Int) + s.edgeShift pin).toNat → period = (match x.last with | some l => due - l | none => s.minPeriod * tickNs) →
    (s.on Pg.trig Reg.TRIG_STATE_FENCED = false → (∀ l, x.last = some l → l + s.minPeriod * tickNs ≤ due) →
      ∃ t, exec (.triggerEdge pin) s = .next t
        ∧ t.out = .trigger pin true (placeEdge due) :: s.out
        ∧ t.trig = s.trig.setPin pin ⟨x.next + 1, some due, some (due + s.pulseWidth period * tickNs)⟩
        ∧ (s.leading pin = true →
            t.exposures = (s.fld64 Pg.trig Reg.TRIG_ISSUED_LO Reg.TRIG_ISSUED_HI, .ofTicks e) :: s.exposures
            ∧ t.fld64 Pg.trig Reg.TRIG_ISSUED_LO Reg.TRIG_ISSUED_HI =
                (s.fld64 Pg.trig Reg.TRIG_ISSUED_LO Reg.TRIG_ISSUED_HI + 1) % 2 ^ 64
            ∧ t.fld Pg.trig Reg.TRIG_STATE_PHASE = 2
            ∧ (s.fld64 Pg.trig Reg.TRIG_ISSUED_LO Reg.TRIG_ISSUED_HI = 0 → t.fld Pg.trig Reg.TRIG_EVENT_FIRST = 1))
        ∧ (s.leading pin = false → t.regs = s.regs ∧ t.exposures = s.exposures)
        ∧ t = { s.regsOf t with out := t.out, trig := t.trig, exposures := t.exposures } ∧ s.KeepsPages t [Pg.trig] ∧ s.KeepsBytes t)
    ∧ (s.on Pg.trig Reg.TRIG_STATE_FENCED = true →
      ∃ t, exec (.triggerEdge pin) s = .next t
        ∧ t.trig = s.trig.setPin pin { x with next := x.next + 1 }
        ∧ (s.leading pin = true → t.fld Pg.trig Reg.TRIG_SKIPPED =
            min (s.fld Pg.trig Reg.TRIG_SKIPPED + 1) (2 ^ Reg.TRIG_SKIPPED.width - 1))
        ∧ (s.leading pin = false → t.regs = s.regs)
        ∧ t = { s with regs := t.regs, trig := t.trig } ∧ s.KeepsRegs t [keyOf Reg.TRIG_SKIPPED Pg.trig] ∧ s.KeepsBytes t)
    ∧ ∀ l, s.on Pg.trig Reg.TRIG_STATE_FENCED = false → x.last = some l → due < l + s.minPeriod * tickNs →
      ∃ t, exec (.triggerEdge pin) s = .next t
        ∧ t.trig = s.trig.setPin pin { x with next := x.next + 1 }
        ∧ t.fld Pg.trig Reg.TRIG_SUPPRESSED = min (s.fld Pg.trig Reg.TRIG_SUPPRESSED + 1) (2 ^ Reg.TRIG_SUPPRESSED.width - 1)
        ∧ t.fld Pg.trig Reg.TRIG_EVENT_SUPPRESSED = 1
        ∧ t = { s.regsOf t with trig := t.trig }
        ∧ s.KeepsRegs t [keyOf Reg.TRIG_SUPPRESSED Pg.trig, keyOf Reg.TRIG_EVENT_SUPPRESSED Pg.trig] ∧ s.KeepsBytes t)
  ∧ ∀ (s : State) (pin e : Nat), pin < 2 → (s.trig.pin pin).high = some e →
    exec (.triggerPulseEnd pin) s =
      .next { s with out := .trigger pin false (placeEdge e) :: s.out, trig := s.trig.setPin pin { s.trig.pin pin with high := none } }

/-! ### Serial audio (R404 to R416) -/

/-- AUD_ENABLE, TDM_FRAME_BOUNDARY, AUD_SYNC_EDGE, AUD_CLOCK_LOST and AUD_SLOT (R405 to R414, R416): a port whose configuration passes awaits its
start with clear counters, one whose does not raises CFG_ERR, and one that is switched off completes its frame first; a boundary starts it, counts
the frames that follow and drives frame sync; a slave port's sync edge after a wrong number of bit clocks raises FRAME_ERR; a captured word goes
to the ring at DEV_PTR, a played word comes from it and goes out in its slot, and a ring without room or data loses the word; words lost that are
no whole frame rotate the ring. The model's own choices in it: log entry 76. -/
def Obligations.AudioPorts : Prop :=
  (∀ (s : State) (r : Req) (p : Nat) (v : Word), p < 4 → s.accepts r (Pg.aud p) 0x008 v = true →
    s.on (Pg.aud p) Reg.AUD_CTRL_ENABLE = false → wfld (s.written r (Pg.aud p) 0x008 v) Reg.AUD_CTRL_ENABLE = 1 →
    (s.audBad p = false → outputMode s.ctl.mode = true →
      ∃ t, exec (.audEnable r p v) s = .next t
        ∧ t.fld (Pg.aud p) Reg.AUD_STATE_PHASE = 1 ∧ t.fld (Pg.aud p) Reg.AUD_UNDERRUN_WORDS = 0
        ∧ t.fld (Pg.aud p) Reg.AUD_OVERRUN_WORDS = 0 ∧ t.fld (Pg.aud p) Reg.AUD_FRAME_ERRORS = 0
        ∧ t.fld (Pg.aud p) Reg.AUD_STATE_ROTATED = 0 ∧ t.fld (Pg.aud p) Reg.AUD_STATE_CLOCK_LOST = 0
        ∧ t.aud.get p = {
            base := if s.fld (Pg.aud p) Reg.AUD_DEV_PTR < s.fld (Pg.aud p) Reg.AUD_RING_BYTES then s.fld (Pg.aud p) Reg.AUD_DEV_PTR else 0
            startTime := s.time, mask := s.actv (Pg.aud p) Reg.AUD_SLOT_MASK }
        ∧ (∀ q, q ≠ p → t.aud.get q = s.aud.get q)
        ∧ t = { s with regs := t.regs, aud := t.aud, pwr := t.pwr } ∧ s.KeepsPages t [Pg.aud p] ∧ s.KeepsBytes t)
    ∧ (s.audBad p = true → s.fld (Pg.aud p) Reg.COMMON_PWR_REQ_STATUS = 3 → s.fld (Pg.aud p) Reg.COMMON_PWR_REQ_REQ = 3 →
      ∃ t, exec (.audEnable r p v) s = .next t
        ∧ t.fld (Pg.aud p) Reg.AUD_EVENT_CFG_ERR = 1 ∧ t.fld (Pg.aud p) Reg.COMMON_EVENT_STATE_REJECT = 1
        ∧ s.Kept t [keyOf Reg.AUD_EVENT_CFG_ERR (Pg.aud p)]))
  ∧ (∀ (s : State) (r : Req) (p : Nat) (v : Word) (a : AudSt), p < 4 → s.accepts r (Pg.aud p) 0x008 v = true →
    s.on (Pg.aud p) Reg.AUD_CTRL_ENABLE = true → wfld (s.written r (Pg.aud p) 0x008 v) Reg.AUD_CTRL_ENABLE = 0 →
    s.fld (Pg.aud p) Reg.COMMON_PWR_REQ_STATUS = 3 → s.fld (Pg.aud p) Reg.COMMON_PWR_REQ_REQ = 3 → a = s.aud.get p →
    (s.audPhase p = 2 → s.on (Pg.aud p) Reg.AUD_STATE_CLOCK_LOST = false →
      ∃ t, exec (.audEnable r p v) s = .next t
        ∧ t.on (Pg.aud p) Reg.AUD_CTRL_ENABLE = false ∧ t.aud.get p = { a with stopping := true }
        ∧ (∀ q, q ≠ p → t.aud.get q = s.aud.get q) ∧ t = { s with regs := t.regs, aud := t.aud }
        ∧ s.KeepsRegs t [keyOf Reg.AUD_CTRL_ENABLE (Pg.aud p)] ∧ s.KeepsBytes t)
    ∧ (s.audPhase p = 1 → a.blockFrames = 0 → s.fld (Pg.aud p) Reg.COMMON_COMMIT_PENDING = 0 →
      a.mask = s.actv (Pg.aud p) Reg.AUD_SLOT_MASK →
      ∃ t, exec (.audEnable r p v) s = .next t
        ∧ t.on (Pg.aud p) Reg.AUD_CTRL_ENABLE = false ∧ t.audPhase p = 0 ∧ t.aud.get p = { a with stopping := false }
        ∧ t.out = (if s.audMaster p then .tdmStop p :: s.out else s.out)
        ∧ (∀ q, q ≠ p → t.aud.get q = s.aud.get q) ∧ t = { s with regs := t.regs, out := t.out, aud := t.aud }
        ∧ s.KeepsRegs t [keyOf Reg.AUD_CTRL_ENABLE (Pg.aud p), keyOf Reg.AUD_STATE_PHASE (Pg.aud p)] ∧ s.KeepsBytes t))
  ∧ (∀ (s : State) (p : Nat) (a b : AudSt) (x : Time) (sync : List Out), p < 4 → s.audMaster p = true →
    s.on Pg.coll Reg.COLL_CTRL_ENABLE = true → a = s.aud.get p → x = s.masterSync p → s.fld (Pg.aud p) Reg.COMMON_COMMIT_PENDING = 0 →
    a.mask = s.actv (Pg.aud p) Reg.AUD_SLOT_MASK →
    b = { a with slot := 0, frames := ⟨x, a.pos, (s.channels p a.mask).length⟩ :: a.frames.filter (s.audHas p) } →
    sync = .tdmSync p (s.syncClocks p) (1 - s.fld (Pg.aud p) Reg.AUD_FORMAT_FS_POL) (s.fld (Pg.aud p) Reg.AUD_FORMAT_BCLK_EDGE)
      (s.masterClock p) :: s.out →
    (s.audPhase p = 1 → s.audMayStart p x = true →
      ∃ t, exec (.tdmFrameBoundary p) s = .next t
        ∧ t.audPhase p = 2
        ∧ t.aud.get p = { b with
            blockPos := if a.blockFrames = 0 then a.pos else a.blockPos, blockTime := if a.blockFrames = 0 then x else a.blockTime }
        ∧ (∀ q, q ≠ p → t.aud.get q = s.aud.get q) ∧ t = { s with regs := t.regs, aud := t.aud, out := sync }
        ∧ s.KeepsRegs t [keyOf Reg.AUD_STATE_PHASE (Pg.aud p)] ∧ s.KeepsBytes t)
    ∧ (s.audPhase p = 1 → s.audMayStart p x = false → exec (.tdmFrameBoundary p) s = .next s)
    ∧ (s.audPhase p = 2 → s.captures p = false ∨ (∀ k, a.slot ≤ k → k < s.audSlotCount p → a.mask.testBit k = false) →
      (a.stopping = false → s.fld (Pg.aud p) Reg.AUD_ROT_WORDS = 0 → a.frame % 64 ≠ 63 →
        ∃ t, exec (.tdmFrameBoundary p) s = .next t
          ∧ t.aud.get p = { b with frame := a.frame + 1, blockFrames := a.blockFrames + 1 }
          ∧ (∀ q, q ≠ p → t.aud.get q = s.aud.get q) ∧ t = { s with aud := t.aud, out := sync })
      ∧ (∀ ch, a.stopping = false → a.frame % 64 ≠ 63 → ch = (s.channels p a.mask).length → ch ≠ 0 →
        s.fld (Pg.aud p) Reg.AUD_ROT_WORDS % ch ≠ 0 → s.on (Pg.aud p) Reg.AUD_STATE_ROTATED = false →
        ∃ t, exec (.tdmFrameBoundary p) s = .next t
          ∧ t.on (Pg.aud p) Reg.AUD_STATE_ROTATED = true ∧ t.fld (Pg.aud p) Reg.AUD_EVENT_ROTATED = 1
          ∧ t.aud.get p = { b with frame := a.frame + 1, blockFrames := a.blockFrames + 1 }
          ∧ (∀ q, q ≠ p → t.aud.get q = s.aud.get q) ∧ t = { s.regsOf t with aud := t.aud, out := sync }
          ∧ s.KeepsRegs t [keyOf Reg.AUD_STATE_ROTATED (Pg.aud p), keyOf Reg.AUD_EVENT_ROTATED (Pg.aud p)] ∧ s.KeepsBytes t)
      ∧ (a.stopping = false → s.captures p = true → s.fld (Pg.aud p) Reg.AUD_ROT_WORDS = 0 → a.frame % 64 = 63 →
        ∃ t, exec (.tdmFrameBoundary p) s = .next t
          ∧ t.aud.get p = { b with
              frame := a.frame + 1, blockFrames := 0, blocks := a.blocks + 1, lost := false, err := false, blockPos := a.pos, blockTime := x }
          ∧ (∀ q, q ≠ p → t.aud.get q = s.aud.get q)
          ∧ t.fld (Pg.aud p) Reg.AUD_STAMP_PTR =
              (s.fld (Pg.aud p) Reg.AUD_STAMP_PTR + 1) % max 1 (s.fld (Pg.aud p) Reg.AUD_STAMP_ENTRIES)
          ∧ s.StoresDram t (s.fld (Pg.aud p) Reg.AUD_STAMP_BASE_LO * 4096 + s.fld (Pg.aud p) Reg.AUD_STAMP_BASE_HI * 2 ^ 32
              + 32 * s.fld (Pg.aud p) Reg.AUD_STAMP_PTR) 32
          ∧ t = { s with regs := t.regs, dram := t.dram, aud := t.aud, out := sync }
          ∧ s.KeepsRegs t [keyOf Reg.AUD_STAMP_PTR (Pg.aud p)])
      ∧ (a.stopping = true → s.captures p = false → s.fld (Pg.aud p) Reg.AUD_ROT_WORDS = 0 → a.frame % 64 ≠ 63 →
        ∃ t, exec (.tdmFrameBoundary p) s = .next t
          ∧ t.audPhase p = 0 ∧ t.out = .tdmStop p :: s.out
          ∧ t.aud.get p = { a with
              frame := a.frame + 1, blockFrames := 0, blocks := a.blocks + 1, lost := false, err := false, stopping := false }
          ∧ (∀ q, q ≠ p → t.aud.get q = s.aud.get q) ∧ t = { s with regs := t.regs, aud := t.aud, out := t.out }
          ∧ s.KeepsRegs t [keyOf Reg.AUD_STATE_PHASE (Pg.aud p)] ∧ s.KeepsBytes t)))
  ∧ (∀ (s : State) (p bclks : Nat) (a b : AudSt) (x : Time), p < 4 → s.audMaster p = false → a = s.aud.get p →
    x = .ofTicks (s.time.ticks - 6 * tickNs) → s.fld (Pg.aud p) Reg.COMMON_COMMIT_PENDING = 0 →
    a.mask = s.actv (Pg.aud p) Reg.AUD_SLOT_MASK →
    b = { a with slot := 0, frames := ⟨x, a.pos, (s.channels p a.mask).length⟩ :: a.frames.filter (s.audHas p) } →
    (s.audPhase p = 1 → s.audMayStart p x = true →
      ∃ t, exec (.audSyncEdge p bclks) s = .next t
        ∧ t.audPhase p = 2 ∧ t.fld (Pg.aud p) Reg.AUD_STATE_CLOCK_LOST = 0
        ∧ t.aud.get p = { b with
            blockPos := if a.blockFrames = 0 then a.pos else a.blockPos, blockTime := if a.blockFrames = 0 then x else a.blockTime }
        ∧ (∀ q, q ≠ p → t.aud.get q = s.aud.get q) ∧ t = { s with regs := t.regs, aud := t.aud }
        ∧ s.KeepsRegs t [keyOf Reg.AUD_STATE_PHASE (Pg.aud p)] ∧ s.KeepsBytes t)
    ∧ (s.audPhase p = 2 → a.stopping = false →
      s.captures p = false ∨ (∀ k, a.slot ≤ k → k < s.audSlotCount p → a.mask.testBit k = false) →
      s.fld (Pg.aud p) Reg.AUD_ROT_WORDS = 0 → a.frame % 64 ≠ 63 →
      ∃ t, exec (.audSyncEdge p bclks) s = .next t
        ∧ t.fld (Pg.aud p) Reg.AUD_STATE_CLOCK_LOST = 0
        ∧ (bclks = s.audSlotCount p * s.slotClocks p →
            t.aud.get p = { b with frame := a.frame + 1, blockFrames := a.blockFrames + 1 }
            ∧ s.KeepsRegs t [keyOf Reg.AUD_STATE_CLOCK_LOST (Pg.aud p)])
        ∧ (bclks ≠ s.audSlotCount p * s.slotClocks p →
            t.aud.get p = { b with frame := a.frame + 1, blockFrames := a.blockFrames + 1, err := true }
            ∧ t.fld (Pg.aud p) Reg.AUD_EVENT_FRAME_ERR = 1
            ∧ t.fld (Pg.aud p) Reg.AUD_FRAME_ERRORS =
                min (s.fld (Pg.aud p) Reg.AUD_FRAME_ERRORS + 1) (2 ^ Reg.AUD_FRAME_ERRORS.width - 1))
        ∧ (∀ q, q ≠ p → t.aud.get q = s.aud.get q) ∧ t = { s.regsOf t with aud := t.aud }
        ∧ s.KeepsRegs t [keyOf Reg.AUD_STATE_CLOCK_LOST (Pg.aud p), keyOf Reg.AUD_EVENT_FRAME_ERR (Pg.aud p),
            keyOf Reg.AUD_FRAME_ERRORS (Pg.aud p)] ∧ s.KeepsBytes t))
  ∧ (∀ (s : State) (p : Nat), p < 4 → s.audMaster p = false → s.audPhase p ≠ 0 →
    (s.on (Pg.aud p) Reg.AUD_STATE_CLOCK_LOST = true → exec (.audClockLost p) s = .next s)
    ∧ (s.on (Pg.aud p) Reg.AUD_STATE_CLOCK_LOST = false →
      ∃ t, exec (.audClockLost p) s = .next t
        ∧ t.fld (Pg.aud p) Reg.AUD_STATE_CLOCK_LOST = 1 ∧ t.fld (Pg.aud p) Reg.AUD_EVENT_CLOCK_LOST = 1
        ∧ s.Kept t [keyOf Reg.AUD_STATE_CLOCK_LOST (Pg.aud p), keyOf Reg.AUD_EVENT_CLOCK_LOST (Pg.aud p)]))
  ∧ ∀ (s : State) (p word dev n : Nat) (a : AudSt) (slot : Nat → List Out), p < 4 → s.audPhase p = 2 →
    s.on (Pg.aud p) Reg.AUD_STATE_CLOCK_LOST = false →
    a = s.aud.get p → a.slot < s.audSlotCount p → dev = s.fld (Pg.aud p) Reg.AUD_DEV_PTR → n = s.audB p →
    slot = (fun w => .tdm p (s.slotStart p a.slot)
      (bitsOf (s.audWord p) w ++ List.replicate (s.slotClocks p - s.audWord p) false) :: s.out) →
    (s.captures p = true → a.mask.testBit a.slot = false →
      ∃ t, exec (.audSlot p word) s = .next t
        ∧ t.aud.get p = { a with slot := a.slot + 1 } ∧ (∀ q, q ≠ p → t.aud.get q = s.aud.get q) ∧ t = { s with aud := t.aud })
    ∧ (s.captures p = false → a.mask.testBit a.slot = false →
      ∃ t, exec (.audSlot p word) s = .next t
        ∧ t.aud.get p = { a with slot := a.slot + 1 } ∧ (∀ q, q ≠ p → t.aud.get q = s.aud.get q)
        ∧ t = { s with aud := t.aud, out := slot 0 })
    ∧ (s.captures p = true → a.mask.testBit a.slot = true →
      ¬ (s.on (Pg.aud p) Reg.AUD_CTRL_HOST_CONS = true ∧ (dev + n) % max 1 (s.audRing p).2 = s.fld (Pg.aud p) Reg.AUD_HOST_PTR) →
      ∃ t, exec (.audSlot p word) s = .next t
        ∧ (∀ i, i < n → (s.audRing p).1 + dev + i < s.dramSize →
            t.dram.get ((s.audRing p).1 + dev + i) = (leBytes n (unsigned (8 * n) (signed (s.audWord p) word))).getD i 0)
        ∧ s.StoresDram t ((s.audRing p).1 + dev) n
        ∧ t.aud.get p = { a with slot := a.slot + 1, pos := a.pos + n } ∧ (∀ q, q ≠ p → t.aud.get q = s.aud.get q)
        ∧ t.fld (Pg.aud p) Reg.AUD_DEV_PTR = (dev + n) % max 1 (s.audRing p).2
        ∧ t = { s with regs := t.regs, dram := t.dram, aud := t.aud } ∧ s.KeepsRegs t [keyOf Reg.AUD_DEV_PTR (Pg.aud p)])
    ∧ (s.captures p = true → a.mask.testBit a.slot = true → s.on (Pg.aud p) Reg.AUD_CTRL_HOST_CONS = true →
      (dev + n) % max 1 (s.audRing p).2 = s.fld (Pg.aud p) Reg.AUD_HOST_PTR →
      ∃ t, exec (.audSlot p word) s = .next t
        ∧ t.fld (Pg.aud p) Reg.AUD_OVERRUN_WORDS =
            min (s.fld (Pg.aud p) Reg.AUD_OVERRUN_WORDS + 1) (2 ^ Reg.AUD_OVERRUN_WORDS.width - 1)
        ∧ t.fld (Pg.aud p) Reg.AUD_EVENT_OVERRUN = 1 ∧ t.aud.get p = { a with slot := a.slot + 1, lost := true }
        ∧ (∀ q, q ≠ p → t.aud.get q = s.aud.get q)
        ∧ t = { s.regsOf t with aud := t.aud } ∧ s.KeepsPages t [Pg.aud p] ∧ s.KeepsBytes t)
    ∧ (s.captures p = false → a.mask.testBit a.slot = true → dev ≠ s.fld (Pg.aud p) Reg.AUD_HOST_PTR →
      ∃ t, exec (.audSlot p word) s = .next t
        ∧ t.out = slot (s.peekLe ((s.audRing p).1 + dev) n % 2 ^ s.audWord p)
        ∧ t.aud.get p = { a with slot := a.slot + 1, pos := a.pos + n } ∧ (∀ q, q ≠ p → t.aud.get q = s.aud.get q)
        ∧ t.fld (Pg.aud p) Reg.AUD_DEV_PTR = (dev + n) % max 1 (s.audRing p).2
        ∧ t = { s with regs := t.regs, out := t.out, aud := t.aud } ∧ s.KeepsRegs t [keyOf Reg.AUD_DEV_PTR (Pg.aud p)] ∧ s.KeepsBytes t)
    ∧ (s.captures p = false → a.mask.testBit a.slot = true → dev = s.fld (Pg.aud p) Reg.AUD_HOST_PTR →
      ∃ t, exec (.audSlot p word) s = .next t
        ∧ t.out = slot 0
        ∧ t.fld (Pg.aud p) Reg.AUD_UNDERRUN_WORDS =
            min (s.fld (Pg.aud p) Reg.AUD_UNDERRUN_WORDS + 1) (2 ^ Reg.AUD_UNDERRUN_WORDS.width - 1)
        ∧ t.fld (Pg.aud p) Reg.AUD_EVENT_UNDERRUN = 1 ∧ t.aud.get p = { a with slot := a.slot + 1, lost := true }
        ∧ (∀ q, q ≠ p → t.aud.get q = s.aud.get q)
        ∧ t = { s.regsOf t with out := t.out, aud := t.aud } ∧ s.KeepsPages t [Pg.aud p] ∧ s.KeepsBytes t)

/-! ### Relay (R430 to R437) -/

/-- RELAY_CH_START, RELAY_CH_ABORT, RELAY_DESC_FETCH, RELAY_DESC_DONE, RELAY_BUS_ERROR and RELAY_CLEAR (R431, R434, R435, R437): START runs a
channel from CH_DESC, ABORT stops it; a descriptor that passes the check is moved, one that does not, or that lies in the register space, puts the
channel in ERROR with DESC_ERR; a moved descriptor, between memories or from or to a register, is counted and written back, and the channel goes
on at NEXT or is idle; a bus error stops every channel until CLEAR. The model's own choices in it: log entries 79, 80, 81. -/
def Obligations.RelayChannels : Prop :=
  (∀ (s : State) (r : Req) (c : Nat) (v : Word), c < 8 → s.accepts r Pg.relay (0x080 + 0x20 * c) v = true →
    s.fld Pg.relay Reg.COMMON_PWR_REQ_STATUS = 3 → s.fld Pg.relay Reg.COMMON_PWR_REQ_REQ = 3 →
    wfld v (Reg.RELAY_CH_CTRL_START c) = 1 → wfld v (Reg.RELAY_CH_CTRL_ABORT c) = 0 →
    (s.chState c ≠ 1 → s.on Pg.relay Reg.RELAY_CTRL_ENABLE = true → s.on Pg.relay Reg.RELAY_STATE_ERR_STOP = false →
      s.heldReq Pg.relay = none →
      ∃ t, exec (.relayChStart r c v) s = .next t
        ∧ t.chState c = 1 ∧ (∀ k, k < 8 → k ≠ c → t.chState k = s.chState k) ∧ (t.fld Pg.relay Reg.RELAY_STATE_ACTIVE).testBit c = true
        ∧ t.curDesc c = 32 * s.fld Pg.relay (Reg.RELAY_CH_DESC_LO c) + 2 ^ 32 * s.fld Pg.relay (Reg.RELAY_CH_DESC_HI c)
        ∧ t.fld Pg.relay (Reg.RELAY_CH_STATUS_DONE c) = 0 ∧ t.fld Pg.relay (Reg.RELAY_CH_BYTES c) = 0 ∧ t.chDesc c = none
        ∧ (∀ k, k ≠ c → t.chDesc k = s.chDesc k)
        ∧ t = { s with regs := t.regs, relay := { s.relay with descs := t.relay.descs } } ∧ s.KeepsPages t [Pg.relay] ∧ s.KeepsBytes t)
    ∧ (s.chState c = 1 ∨ s.on Pg.relay Reg.RELAY_CTRL_ENABLE = false ∨ s.on Pg.relay Reg.RELAY_STATE_ERR_STOP = true
        ∨ (s.heldReq Pg.relay).isSome = true →
      ∃ t, exec (.relayChStart r c v) s = .next t ∧ s.Rejected t Pg.relay))
  ∧ (∀ (s : State) (r : Req) (c : Nat) (v : Word), c < 8 → s.accepts r Pg.relay (0x080 + 0x20 * c) v = true →
    s.fld Pg.relay Reg.COMMON_PWR_REQ_STATUS = 3 → s.fld Pg.relay Reg.COMMON_PWR_REQ_REQ = 3 →
    wfld v (Reg.RELAY_CH_CTRL_START c) = 0 → wfld v (Reg.RELAY_CH_CTRL_ABORT c) = 1 → s.chState c = 1 →
    (s.chDesc c = none ∨ (∃ d, s.chDesc c = some d ∧ (inRegs d.src = true ∨ inRegs d.dst = true)) →
      ∃ t, exec (.relayChAbort r c v) s = .next t
        ∧ t.chState c = 0 ∧ (∀ k, k < 8 → k ≠ c → t.chState k = s.chState k) ∧ t.chDesc c = none
        ∧ t = { s with regs := t.regs, relay := { s.relay with descs := t.relay.descs } } ∧ s.KeepsPages t [Pg.relay] ∧ s.KeepsBytes t)
    ∧ ∀ d, s.chDesc c = some d → inRegs d.src = false → inRegs d.dst = false →
      ∃ t, exec (.relayChAbort r c v) s = .next t
        ∧ t.chState c = 0 ∧ (∀ k, k < 8 → k ≠ c → t.chState k = s.chState k) ∧ t.chDesc c = none
        ∧ (∀ k, k ≠ c → t.chDesc k = s.chDesc k)
        ∧ (∃ n, n ≤ d.len ∧ t.fld Pg.relay (Reg.RELAY_CH_BYTES c) = min (2 ^ 32 - 1) (s.fld Pg.relay (Reg.RELAY_CH_BYTES c) + n))
        ∧ (∀ a, inCluster d.dst = true ∨ a < d.dst ∨ d.dst + d.len ≤ a → t.dram.get a = s.dram.get a)
        ∧ (∀ a, inCluster d.dst = false ∨ a + clusterBase < d.dst ∨ d.dst + d.len ≤ a + clusterBase →
            t.relay.cluster.get a = s.relay.cluster.get a)
        ∧ t = { s with regs := t.regs, seed := s.seed + 1, dram := t.dram, relay := t.relay } ∧ s.KeepsPages t [Pg.relay])
  ∧ (∀ (s : State) (c a : Nat) (b : List Byte) (d : RelayDesc), c < 8 → s.relayMay c = true → s.chDesc c = none → a = s.curDesc c →
    b = s.fabRead a 32 → d = ⟨leAt b 0 8, leAt b 8 8, leAt b 0x10 8, leAt b 0x18 4, leAt b 0x1C 4⟩ →
    (inRegs a = true → s.fld Pg.relay Reg.COMMON_PWR_REQ_REQ = 3 →
      ∃ t, exec (.relayDescFetch c) s = .next t
        ∧ t.chState c = 2 ∧ t.chDesc c = none ∧ t.fld Pg.relay Reg.RELAY_EVENT_DESC_ERR = 1
        ∧ t = { s.regsOf t with relay := { s.relay with descs := t.relay.descs } } ∧ s.KeepsPages t [Pg.relay] ∧ s.KeepsBytes t)
    ∧ (inRegs a = false → d.bad c = false →
      ∃ t, exec (.relayDescFetch c) s = .next t
        ∧ t.chDesc c = some d ∧ (∀ k, k ≠ c → t.chDesc k = s.chDesc k)
        ∧ t = { s with relay := { s.relay with descs := t.relay.descs } })
    ∧ (inRegs a = false → d.bad c = true → s.fld Pg.relay Reg.COMMON_PWR_REQ_REQ = 3 →
      ∃ t, exec (.relayDescFetch c) s = .next t
        ∧ t.chState c = 2 ∧ t.chDesc c = none ∧ t.fld Pg.relay Reg.RELAY_EVENT_DESC_ERR = 1 ∧ (∀ k, k ≠ c → t.chDesc k = s.chDesc k)
        ∧ t.dram = (s.writeBack c d 30).dram ∧ t.relay.cluster = (s.writeBack c d 30).relay.cluster
        ∧ (inCluster (a + 0x1C) = false → s.StoresDram t (a + 0x1C) 4)
        ∧ t = { s.regsOf t with dram := t.dram, relay := t.relay } ∧ s.KeepsPages t [Pg.relay]))
  ∧ (∀ (s u : State) (c : Nat) (d : RelayDesc), c < 8 → s.relayMay c = true → s.chDesc c = some d → inRegs d.src = false →
    inRegs d.dst = false → s.fld Pg.relay Reg.COMMON_PWR_REQ_REQ = 3 → u = (s.copyBytes d d.len).writeBack c d 31 →
    ∃ t, exec (.relayDescDone c) s = .next t
      ∧ t.dram = u.dram ∧ t.relay.cluster = u.relay.cluster ∧ t.chDesc c = none ∧ (∀ k, k ≠ c → t.chDesc k = s.chDesc k)
      ∧ t.fld Pg.relay (Reg.RELAY_CH_STATUS_DONE c) =
          min (s.fld Pg.relay (Reg.RELAY_CH_STATUS_DONE c) + 1) (2 ^ (Reg.RELAY_CH_STATUS_DONE c).width - 1)
      ∧ t.fld Pg.relay (Reg.RELAY_CH_BYTES c) =
          min (s.fld Pg.relay (Reg.RELAY_CH_BYTES c) + d.len) (2 ^ (Reg.RELAY_CH_BYTES c).width - 1)
      ∧ (d.ctrl.testBit 12 = true → t.fld Pg.relay Reg.RELAY_EVENT_CH_DONE = 1)
      ∧ (d.ctrl.testBit 13 = true → t.chState c = 0)
      ∧ (d.ctrl.testBit 13 = false → t.chState c = 1 ∧ t.curDesc c = d.next / 32 % 2 ^ 27 * 32 + 2 ^ 32 * (d.next / 2 ^ 32 % 2 ^ 32))
      ∧ t = { s.regsOf t with dram := t.dram, relay := t.relay } ∧ s.KeepsPages t [Pg.relay])
  ∧ (∀ (s u : State) (c : Nat) (d : RelayDesc) (ok : Bool), c < 8 → s.relayMay c = true → s.chDesc c = some d → inRegs d.src = false →
    inRegs d.dst = true → d.len = 4 → d.srcW = 4 → d.dstW = 4 →
    s.beatWrite c (d.dst - regBase) 15 (BitVec.ofNat 32 (leNat (s.fabRead d.src 4))) = (u, ok) →
    (ok = true → u.chState c = 1 → u.chDesc c = some d → exec (.relayDescDone c) s = .next (u.descEnd c d))
    ∧ (ok = false → exec (.relayDescDone c) s =
        .next (if c < 4 then u.relayError (regBase + (d.dst - regBase)) 0 true else u.descError c d)))
  ∧ (∀ (s u : State) (c : Nat) (d : RelayDesc) (w : Option Word), c < 8 → s.relayMay c = true → s.chDesc c = some d →
    inRegs d.src = true → inRegs d.dst = false → d.len = 4 → d.srcW = 4 → d.dstW = 4 → s.beatRead c (d.src - regBase) 15 = (u, w) →
    (∀ x, w = some x → u.chState c = 1 → u.chDesc c = some d →
      exec (.relayDescDone c) s = .next ((u.fabWrite d.dst (leBytes 4 x.toNat)).descEnd c d))
    ∧ (w = none → exec (.relayDescDone c) s =
        .next (if c < 4 then u.relayError (regBase + (d.src - regBase)) 0 false else u.descError c d)))
  ∧ (∀ (s : State) (addr kind : Nat) (write : Bool), s.fld Pg.relay Reg.RELAY_STATE_ACTIVE ≠ 0 →
    s.fld Pg.relay Reg.COMMON_PWR_REQ_STATUS = 3 → s.fld Pg.relay Reg.COMMON_PWR_REQ_REQ = 3 →
    ∃ t, exec (.relayBusError addr kind write) s = .next t
      ∧ t.on Pg.relay Reg.RELAY_STATE_ERR_STOP = true ∧ t.fld64 Pg.relay Reg.RELAY_ERR_ADDR_LO Reg.RELAY_ERR_ADDR_HI = addr % 2 ^ 64
      ∧ t.on Pg.relay Reg.RELAY_ERR_INFO_WRITE = write ∧ t.fld Pg.relay Reg.RELAY_ERR_INFO_KIND = kind % 4
      ∧ t.fld Pg.relay Reg.RELAY_EVENT_BUS_ERR = 1
      ∧ (∀ c, c < 8 → (s.chState c = 1 → t.chState c = 3 ∧ t.chDesc c = none) ∧ (s.chState c ≠ 1 → t.chState c = s.chState c))
      ∧ (∀ a, (∀ c d, c < 8 → s.chState c = 1 → s.chDesc c = some d → inRegs d.dst = false → inCluster d.dst = false →
            a < d.dst ∨ d.dst + d.dstLen ≤ a) → t.dram.get a = s.dram.get a)
      ∧ (∀ a, (∀ c d, c < 8 → s.chState c = 1 → s.chDesc c = some d → inCluster d.dst = true →
            a + clusterBase < d.dst ∨ d.dst + d.dstLen ≤ a + clusterBase) → t.relay.cluster.get a = s.relay.cluster.get a)
      ∧ t = { s.regsOf t with seed := t.seed, dram := t.dram, relay := t.relay } ∧ s.KeepsPages t [Pg.relay])
  ∧ ∀ (s : State) (r : Req) (v : Word), s.accepts r Pg.relay 0x008 v = true → wmSet v Reg.RELAY_CTRL_CLEAR = true →
    (s.on Pg.relay Reg.RELAY_STATE_ERR_STOP = true → s.fld Pg.relay Reg.COMMON_PWR_REQ_STATUS = 3 →
      s.fld Pg.relay Reg.COMMON_PWR_REQ_REQ = 3 →
      ∃ t, exec (.relayClear r v) s = .next t
        ∧ t.on Pg.relay Reg.RELAY_STATE_ERR_STOP = false ∧ (∀ c, c < 8 → t.chState c = 0) ∧ t.fld Pg.relay Reg.RELAY_STATE_ACTIVE = 0
        ∧ t = { s with regs := t.regs } ∧ s.KeepsPages t [Pg.relay] ∧ s.KeepsBytes t)
    ∧ (s.on Pg.relay Reg.RELAY_STATE_ERR_STOP = false →
      ∃ t, exec (.relayClear r v) s = .next t
        ∧ t = { s with regs := t.regs } ∧ s.KeepsRegs t [keyOf Reg.RELAY_CTRL_ENABLE Pg.relay] ∧ s.KeepsBytes t)

/-! ### DRAM (R438 to R455) -/

/-- DRAM_TRAINING_DONE, RETRAIN_STEP, RETRAIN_GATHER_DONE, FREQ_TARGET_WRITE, FREQ_CHANGE_DONE, DRAM_TEMP_POLL, DRAM_ECC_ERROR and UE_ADDR_READ
(R438, R439, R445 to R449, R453, R454): equal capacities train the memory, a bad one fails it; retraining gathers channel by channel; a change of
set point starts, is held or ends; a poll shows the reports and raises a hotter band; errors are counted on the channel of their address, the
first uncorrectable address is held until it is read, and a load that read one ends with RESULT 8. The model's own choices in it: log entries 40,
82. -/
def Obligations.DramController : Prop :=
  (∀ (s : State) (res : TrainResult) (g : Nat), s.ctl.phase = .restoring → g = 2 ∨ g = 4 ∨ g = 8 →
    (∀ k, k < 8 → res.gib.getD k 0 = g) →
    ∃ t, exec (.dramTrainingDone res) s = .next t
      ∧ (∀ k, k < 8 → t.fld (Pg.dram k) Reg.DRAM_STATE_TRAINED = 1 ∧ t.fld (Pg.dram k) Reg.DRAM_CAPACITY = g)
      ∧ t.fld Pg.dramctl Reg.DRAMCTL_TOTAL_GIB = 8 * g
      ∧ t = { s with regs := t.regs } ∧ s.KeepsPages t (Pg.dramctl :: (List.range 8).map (Pg.dram ·)) ∧ s.KeepsBytes t)
  ∧ (∀ (s : State) (res : TrainResult) (k : Nat), s.ctl.phase = .restoring → k < 8 →
    (∀ g, g = 2 ∨ g = 4 ∨ g = 8 → res.gib.getD k 0 ≠ g)
      ∨ (∃ g, (g = 2 ∨ g = 4 ∨ g = 8) ∧ res.gib.getD 0 0 = g ∧ res.gib.getD k 0 ≠ g) →
    ∃ t, exec (.dramTrainingDone res) s = .next t
      ∧ t.fld Pg.dramctl Reg.DRAMCTL_STATE_TRAIN_FAIL = 1 ∧ t.fld Pg.dramctl Reg.DRAMCTL_EVENT_TRAIN_FAIL = 1
      ∧ t.fld (Pg.dram k) Reg.DRAM_EVENT_TRAIN_FAIL = 1
      ∧ t = s.regsOf t ∧ s.KeepsPages t (Pg.dramctl :: (List.range 8).map (Pg.dram ·)) ∧ s.KeepsBytes t)
  ∧ (∀ s : State, s.ctl.phase ≠ .inReset → s.ctl.mode ≠ .sleep → s.dramc.gather = none → s.dramc.change = none →
    exec .retrainStep s = .next { s with dramc := { s.dramc with gather := some s.dramc.next } })
  ∧ (∀ s : State, s.dramc.gather.isSome = true ∨ s.dramc.change.isSome = true → exec .retrainStep s = .next s)
  ∧ (∀ (s : State) (osc waited k : Nat) (drifted : Bool), s.dramc.gather = some k → k < 8 →
    ∃ t, exec (.retrainGatherDone osc waited drifted) s = .next t
      ∧ t.fld (Pg.dram k) Reg.DRAM_DQS_OSC = osc % 65536
      ∧ (drifted = true → t.fld (Pg.dram k) Reg.DRAM_EVENT_DRIFT = 1
          ∧ t.fld (Pg.dram k) Reg.DRAM_DRIFT_COUNT = min (s.fld (Pg.dram k) Reg.DRAM_DRIFT_COUNT + 1) (2 ^ Reg.DRAM_DRIFT_COUNT.width - 1))
      ∧ (s.dramc.change = none → t.dramc = { s.dramc with gather := none, next := (k + 1) % 8 } ∧ s.KeepsPages t [Pg.dram k])
      ∧ (∀ fs, s.dramc.change = some fs →
          t.dramc = { s.dramc with gather := none, next := (k + 1) % 8, change := some fs, started := true }
          ∧ t.fld Pg.dramctl Reg.DRAMCTL_DEFER_MAX = max (s.fld Pg.dramctl Reg.DRAMCTL_DEFER_MAX) (min 65535 waited)
          ∧ t.fld Pg.dramctl Reg.DRAMCTL_STATE_SWITCHING = 1 ∧ ∀ j, j < 8 → t.fld (Pg.dram j) Reg.DRAM_STATE_SELF_REFRESH = 1)
      ∧ t = { s.regsOf t with dramc := t.dramc } ∧ s.KeepsPages t (Pg.dramctl :: (List.range 8).map (Pg.dram ·)) ∧ s.KeepsBytes t)
  ∧ (∀ (s : State) (r : Req) (v : Word) (fs : Nat), s.accepts r Pg.dramctl 0x048 v = true →
    fs = min 2 (wfld (s.written r Pg.dramctl 0x048 v) Reg.DRAMCTL_FREQ) →
    (s.ctl.capRun = false → s.ctl.mode ≠ .review →
      ∃ t, exec (.freqTargetWrite r v) s = .next t
        ∧ t.fld Pg.dramctl Reg.DRAMCTL_FREQ = wfld (s.written r Pg.dramctl 0x048 v) Reg.DRAMCTL_FREQ
        ∧ (s.dramc.change = none → s.dramc.gather = none →
            t.dramc = { s.dramc with change := some fs, started := true } ∧ t.fld Pg.dramctl Reg.DRAMCTL_STATE_SWITCHING = 1
              ∧ ∀ j, j < 8 → t.fld (Pg.dram j) Reg.DRAM_STATE_SELF_REFRESH = 1)
        ∧ (s.dramc.change = none → s.dramc.gather.isSome = true →
            t.dramc = { s.dramc with change := some fs, started := false } ∧ t.fld Pg.dramctl Reg.DRAMCTL_EVENT_FREQ_DEFERRED = 1)
        ∧ (s.dramc.change.isSome = true → t.dramc = { s.dramc with held := some fs } ∧ t.fld Pg.dramctl Reg.DRAMCTL_STATE_HELD = 1)
        ∧ t = { s.regsOf t with dramc := t.dramc } ∧ s.KeepsPages t (Pg.dramctl :: (List.range 8).map (Pg.dram ·)) ∧ s.KeepsBytes t)
    ∧ (s.ctl.capRun = true ∨ s.ctl.mode = .review → ∃ t, exec (.freqTargetWrite r v) s = .next t ∧ s.Rejected t Pg.dramctl))
  ∧ (∀ (s : State) (fs : Nat), s.dramc.change = some fs → s.dramc.started = true → (∀ e ∈ s.dramc.bands, e.1 < 8) →
    ∃ t, exec .freqChangeDone s = .next t
      ∧ t.fld Pg.dramctl Reg.DRAMCTL_STATE_FS = fs % 4 ∧ t.fld Pg.dramctl Reg.DRAMCTL_EVENT_FREQ_DONE = 1
      ∧ (∀ k b, s.dramc.bands = [(k, b)] → t.fld (Pg.dram k) Reg.DRAM_STATE_BAND = b % 4)
      ∧ (s.dramc.held = none → t.dramc = { s.dramc with change := none, started := false, held := none, bands := [], next := 0 }
          ∧ t.fld Pg.dramctl Reg.DRAMCTL_STATE_SWITCHING = 0 ∧ ∀ j, j < 8 → t.fld (Pg.dram j) Reg.DRAM_STATE_SELF_REFRESH = 0)
      ∧ (∀ h, s.dramc.held = some h → t.dramc = { s.dramc with change := some h, started := true, held := none, bands := [], next := 0 }
          ∧ t.fld Pg.dramctl Reg.DRAMCTL_STATE_SWITCHING = 1 ∧ t.fld Pg.dramctl Reg.DRAMCTL_STATE_HELD = 0)
      ∧ t = { s.regsOf t with dramc := t.dramc } ∧ s.KeepsPages t (Pg.dramctl :: (List.range 8).map (Pg.dram ·)) ∧ s.KeepsBytes t)
  ∧ (∀ (s : State) (temps : List (Nat × Nat)) (hot : Bool), s.ctl.phase ≠ .inReset → s.ctl.mode = .standby ∨ hot = false →
    s.ctl.mode ≠ .sleep → temps.length = 8 → hot = temps.any (fun e => decide (105 < e.1)) → s.dramc.started = false →
    s.dramc.bands = [] → s.fld Pg.therm Reg.THERM_STATE_LEVEL = 0 → s.sfld Pg.therm Reg.THERM_TJ < s.warnAt →
    ∃ t, exec (.dramTempPoll temps) s = .next t
      ∧ (∀ k e, temps[k]? = some e →
          t.fld (Pg.dram k) Reg.DRAM_TEMP_RPT = e.2 % 256
          ∧ (s.fld (Pg.dram k) Reg.DRAM_STATE_BAND ≤ bandOf e.1 →
              t.fld (Pg.dram k) Reg.DRAM_STATE_BAND = bandOf e.1 ∧ t.dramc.cool.get k = 0)
          ∧ (bandOf e.1 < s.fld (Pg.dram k) Reg.DRAM_STATE_BAND → s.dramc.cool.get k ≠ bandOf e.1 + 1 →
              t.fld (Pg.dram k) Reg.DRAM_STATE_BAND = s.fld (Pg.dram k) Reg.DRAM_STATE_BAND ∧ t.dramc.cool.get k = bandOf e.1 + 1)
          ∧ (bandOf e.1 < s.fld (Pg.dram k) Reg.DRAM_STATE_BAND → s.dramc.cool.get k = bandOf e.1 + 1 →
              t.fld (Pg.dram k) Reg.DRAM_STATE_BAND = bandOf e.1 ∧ t.dramc.cool.get k = 0)
          ∧ (105 < e.1 → t.fld (Pg.dram k) Reg.DRAM_EVENT_DRAM_HOT = 1))
      ∧ (hot = true → t.fld Pg.therm Reg.THERM_STATE_LEVEL = 2 ∧ t.fld Pg.therm Reg.THERM_EVENT_CRIT = 1
          ∧ t.fld Pg.dramctl Reg.DRAMCTL_EVENT_DRAM_HOT = 1)
      ∧ (hot = false → t.fld Pg.therm Reg.THERM_STATE_LEVEL = 0 ∧ s.KeepsPages t ((List.range 8).map (Pg.dram ·)))
      ∧ t = { s.regsOf t with dramc := { s.dramc with cool := t.dramc.cool }, therm := { s.therm with hot := hot } }
      ∧ s.KeepsPages t ([Pg.dramctl, Pg.therm] ++ (List.range 8).map (Pg.dram ·)) ∧ s.KeepsBytes t)
  ∧ (∀ (s : State) (e : EccError) (k : Nat), s.ctl.phase ≠ .inReset → k = s.channelOf e.addr →
    (e.fatal = false →
      ∃ t, exec (.dramEccError e) s = .next t
        ∧ t.fld (Pg.dram k) Reg.DRAM_CE_COUNT = min (s.fld (Pg.dram k) Reg.DRAM_CE_COUNT + 1) (2 ^ Reg.DRAM_CE_COUNT.width - 1)
        ∧ t.fld (Pg.dram k) Reg.DRAM_EVENT_CE = 1
        ∧ s.Kept t [keyOf Reg.DRAM_CE_COUNT (Pg.dram k), keyOf Reg.DRAM_EVENT_CE (Pg.dram k)])
    ∧ (e.fatal = true →
      ∃ t, exec (.dramEccError e) s = .next t
        ∧ t.fld (Pg.dram k) Reg.DRAM_UE_COUNT = min (s.fld (Pg.dram k) Reg.DRAM_UE_COUNT + 1) (2 ^ Reg.DRAM_UE_COUNT.width - 1)
        ∧ t.fld (Pg.dram k) Reg.DRAM_EVENT_UE = 1 ∧ t.dramc.ueHeld.contains k = true
        ∧ t.fld64 (Pg.dram k) Reg.DRAM_UE_ADDR_LO Reg.DRAM_UE_ADDR_HI =
            (if s.dramc.ueHeld.contains k then s.fld64 (Pg.dram k) Reg.DRAM_UE_ADDR_LO Reg.DRAM_UE_ADDR_HI else e.addr % 2 ^ 64)
        ∧ (∀ l, s.loadHit e = true → s.fstore.load = some l →
            t.fstore = { s.fstore with load := none } ∧ t.fld Pg.fstore Reg.FSTORE_LOAD_CTRL_RESULT = 8
            ∧ t.fld Pg.fstore Reg.FSTORE_LOAD_CTRL_BUSY = 0 ∧ t.fld Pg.fstore Reg.FSTORE_EVENT_LOAD_ERR = 1
            ∧ (l.slot < 64 → s.fld Pg.fstore (Reg.FSTORE_SLOT_STATUS_STATE l.slot) = 1 →
                t.fld Pg.fstore (Reg.FSTORE_SLOT_STATUS_STATE l.slot) = 0))
        ∧ (s.loadHit e = false → s.KeepsPages t [Pg.dram k] ∧ t.fstore = s.fstore
            ∧ (∀ g, e.tag = some g → (s.hq.cmds.get g).live = true → (s.hq.cmds.get g).stage = .running →
                (s.hq.cmds.get g).op ≠ 0x28 → t.completed g 0x30 0 0)
            ∧ (e.tag = none → t.hq = s.hq))
        ∧ t = { s.regsOf t with dramc := { s.dramc with ueHeld := t.dramc.ueHeld }, hq := t.hq, fstore := t.fstore }
        ∧ s.KeepsPages t [Pg.dram k, Pg.fstore] ∧ s.KeepsBytes t))
  ∧ ∀ (s : State) (r : Req) (k : Nat), k < 8 → r ≠ .pf1 → s.reach r = true → s.domainOff (Pg.dram k) = false →
    ∃ t, exec (.ueAddrRead r k 15) s = .next t
      ∧ t.out = .regRead r (Pg.dram k * 0x1000 + 0x054) (s.rd (Pg.dram k * 0x1000 + 0x054)) :: s.out
      ∧ t.fld64 (Pg.dram k) Reg.DRAM_UE_ADDR_LO Reg.DRAM_UE_ADDR_HI = 0 ∧ t.dramc.ueHeld.contains k = false
      ∧ t = { s with regs := t.regs, out := t.out, dramc := { s.dramc with ueHeld := t.dramc.ueHeld } }
      ∧ s.KeepsRegs t [keyOf Reg.DRAM_UE_ADDR_LO (Pg.dram k), keyOf Reg.DRAM_UE_ADDR_HI (Pg.dram k)] ∧ s.KeepsBytes t

/-! ### Power and heat (R479 to R491) -/

/-- PWR_REQ_WRITE, POWER_DRAIN_DONE, DRAIN_TIMEOUT, DOMAIN_ON and POWER_MEASURE (R36, R480 to R485): a request to a domain that must stay on is
refused and recorded; a domain that nothing holds takes its state, and off loses its block registers; one with work in flight holds the request;
one that is to be on begins to rise, and takes its retained values when it was off; a drained request completes, one that does not drain in time
is refused; a measurement above the limit turns the limiter on. The model's own choices in it: log entries 84, 85. -/
def Obligations.PowerDomains : Prop :=
  (∀ (s : State) (r : Req) (p req : Nat) (v : Word) (spare : Prop) (kept : List (Nat × Nat)), s.accepts r p 0x024 v = true →
    req = wfld v Reg.COMMON_PWR_REQ_REQ → spare = (p = Pg.lane 46 ∨ p = Pg.lane 47) →
    kept = s.pwr.held.filter (fun e => decide (e.1 ≠ p)) →
    (spare ∧ req ≠ 0 ∨ ¬ spare ∧ essential (pageDomain p) = true ∧ reqOf req ≠ 3
        ∨ ¬ spare ∧ essential (pageDomain p) = false ∧ s.pwr.limiting = true ∧ reqOf req = 3 ∧ s.powerRuns p = false →
      ∃ t, exec (.pwrReqWrite r p v) s = .next t
        ∧ t.fld p Reg.COMMON_PWR_REQ_REFUSED = 1 ∧ t.fld p Reg.COMMON_EVENT_PWR_REFUSED = 1 ∧ t.fld Pg.pwr Reg.PWR_EVENT_REFUSAL = 1
        ∧ t.fld Pg.pwr Reg.PWR_REFUSALS = min (s.fld Pg.pwr Reg.PWR_REFUSALS + 1) (2 ^ Reg.PWR_REFUSALS.width - 1)
        ∧ t.fld Pg.pwr Reg.PWR_LAST_REFUSED_DOMAIN = pageDomain p ∧ t.fld Pg.pwr Reg.PWR_LAST_REFUSED_REQ = req
        ∧ t.fld p Reg.COMMON_PWR_REQ_STATUS = s.fld p Reg.COMMON_PWR_REQ_STATUS
        ∧ t = s.regsOf t ∧ s.KeepsPages t [p, Pg.pwr] ∧ s.KeepsBytes t)
    ∧ (spare ∧ req = 0 ∨ ¬ spare ∧ essential (pageDomain p) = true ∧ reqOf req = 3 → exec (.pwrReqWrite r p v) s = .next s)
    ∧ (¬ spare → essential (pageDomain p) = false → s.pwr.limiting = false ∨ reqOf req ≠ 3 ∨ s.powerRuns p = true →
      (s.fld p Reg.COMMON_PWR_REQ_STATUS = 3 → reqOf req = 3 ∨ s.heldOn p = true ∧ s.inFlight p = false →
        ∃ t, exec (.pwrReqWrite r p v) s = .next t
          ∧ t.fld p Reg.COMMON_PWR_REQ_REQ = req ∧ t = { s with regs := t.regs, pwr := { s.pwr with held := kept } }
          ∧ s.KeepsRegs t [keyOf Reg.COMMON_PWR_REQ_REQ p, keyOf Reg.PWR_HELD Pg.pwr] ∧ s.KeepsBytes t)
      ∧ (s.fld p Reg.COMMON_PWR_REQ_STATUS = 3 → reqOf req ≠ 3 → s.inFlight p = true →
        ∃ t, exec (.pwrReqWrite r p v) s = .next t
          ∧ t.fld p Reg.COMMON_PWR_REQ_REQ = req ∧ t.heldReq p = some req
          ∧ t.fld Pg.pwr Reg.PWR_HELD = (kept.length + 1) % 2 ^ Reg.PWR_HELD.width
          ∧ t = { s with regs := t.regs, pwr := { s.pwr with held := kept ++ [(p, req)] } }
          ∧ s.KeepsRegs t [keyOf Reg.COMMON_PWR_REQ_REQ p, keyOf Reg.PWR_HELD Pg.pwr] ∧ s.KeepsBytes t)
      ∧ (s.fld p Reg.COMMON_PWR_REQ_STATUS ≠ 3 → reqOf req = 3 ∨ s.heldOn p = true → s.pwr.rising.contains p = false →
        ∃ t, exec (.pwrReqWrite r p v) s = .next t
          ∧ t.fld p Reg.COMMON_PWR_REQ_REQ = req ∧ p ∈ t.pwr.rising
          ∧ t = { s with regs := t.regs, pwr := { s.pwr with held := kept, rising := t.pwr.rising } }
          ∧ s.KeepsRegs t [keyOf Reg.COMMON_PWR_REQ_REQ p, keyOf Reg.PWR_HELD Pg.pwr] ∧ s.KeepsBytes t)
      ∧ (p = Pg.cond ∨ p = Pg.relay → s.heldOn p = false → s.inFlight p = false → s.pwr.rising.contains p = false → reqOf req ≠ 3 →
        ∃ t, exec (.pwrReqWrite r p v) s = .next t
          ∧ t.fld p Reg.COMMON_PWR_REQ_REQ = req ∧ t.fld p Reg.COMMON_PWR_REQ_STATUS = req
          ∧ (req = 0 → s.fld p Reg.COMMON_PWR_REQ_STATUS ≠ 0 → ∀ o, 0x040 ≤ o → o < 0x1000 → t.rd (p * 0x1000 + o) =
              factoryWord (p * 0x1000 + o))
          ∧ (req = 1 → s.fld p Reg.COMMON_PWR_REQ_STATUS ≠ 0 ∨ s.rsm.newest = none →
              ∀ o, 0x040 ≤ o → o < 0x1000 → t.rd (p * 0x1000 + o) = s.rd (p * 0x1000 + o))
          ∧ t = { s with
              regs := t.regs, pwr := { s.pwr with held := kept }, cond := { s.cond with parked := t.cond.parked }
              relay := { s.relay with descs := t.relay.descs } }
          ∧ s.KeepsPages t [p, Pg.pwr] ∧ s.KeepsBytes t)))
  ∧ (∀ (s : State) (p req : Nat) (kept : List (Nat × Nat)), s.heldReq p = some req →
    s.cond.queue = [] ∨ s.on Pg.cond Reg.COND_STATE_BUSY = true → kept = s.pwr.held.filter (fun e => decide (e.1 ≠ p)) →
    (p = Pg.cond ∨ p = Pg.relay → s.inFlight p = false → s.heldOn p = false → req < 2 → s.fld p Reg.COMMON_PWR_REQ_REQ = req →
      s.pwr.rising.contains p = false → s.fld p Reg.COMMON_PWR_REQ_STATUS ≠ 0 → ∀ c, c = .powerDrainDone p ∨ c = .drainTimeout p →
      ∃ t, exec c s = .next t
        ∧ t.fld p Reg.COMMON_PWR_REQ_STATUS = req ∧ t.heldReq p = none
        ∧ (req = 0 → ∀ o, 0x040 ≤ o → o < 0x1000 → t.rd (p * 0x1000 + o) = factoryWord (p * 0x1000 + o))
        ∧ t = { s with
            regs := t.regs, pwr := { s.pwr with held := kept }, cond := { s.cond with parked := t.cond.parked }
            relay := { s.relay with descs := t.relay.descs } }
        ∧ s.KeepsPages t [p, Pg.pwr] ∧ s.KeepsBytes t)
    ∧ (s.inFlight p = true → exec (.powerDrainDone p) s = .next s)
    ∧ (s.inFlight p = true →
      ∃ t, exec (.drainTimeout p) s = .next t
        ∧ t.heldReq p = none ∧ t.fld p Reg.COMMON_PWR_REQ_REQ = 3
        ∧ t.fld p Reg.COMMON_PWR_REQ_STATUS = s.fld p Reg.COMMON_PWR_REQ_STATUS
        ∧ t.fld p Reg.COMMON_PWR_REQ_REFUSED = 1 ∧ t.fld p Reg.COMMON_EVENT_PWR_REFUSED = 1
        ∧ t.fld Pg.pwr Reg.PWR_REFUSALS = min (s.fld Pg.pwr Reg.PWR_REFUSALS + 1) (2 ^ Reg.PWR_REFUSALS.width - 1)
        ∧ t = { s.regsOf t with pwr := { s.pwr with held := kept } } ∧ s.KeepsPages t [p, Pg.pwr] ∧ s.KeepsBytes t))
  ∧ (∀ (s : State) (p : Nat) (pwr : PwrSt), s.pwr.rising.contains p = true → s.fld p Reg.COMMON_PWR_REQ_REQ = 3 → s.cond.queue = [] →
    pwr = { s.pwr with rising := s.pwr.rising.filter (fun q => decide (q ≠ p)) } →
    (s.domainOff p = false →
      ∃ t, exec (.domainOn p) s = .next t
        ∧ t.fld p Reg.COMMON_PWR_REQ_STATUS = 3 ∧ t = { s with regs := t.regs, pwr := pwr }
        ∧ s.KeepsRegs t [keyOf Reg.COMMON_PWR_REQ_STATUS p] ∧ s.KeepsBytes t)
    ∧ (s.domainOff p = true → p ∉ [Pg.fstore, Pg.coll, Pg.rstore] →
      ∃ t, exec (.domainOn p) s = .next t
        ∧ t.fld p Reg.COMMON_PWR_REQ_STATUS = 3
        ∧ (s.rsm.newest = none → s.KeepsRegs t [keyOf Reg.COMMON_PWR_REQ_STATUS p])
        ∧ (∀ i b, s.rsm.newest = some i → b = s.rsm.bank i → ∀ a, a / 0x1000 % 1024 = p → 0x040 ≤ a % 0x1000 →
            t.rd a = (s.restorePage p b (leAt b 0x10 4) 0x40).rd a)
        ∧ t = { s with regs := t.regs, pwr := pwr } ∧ s.KeepsPages t [p] ∧ s.KeepsBytes t))
  ∧ ∀ (s : State) (mw m : Nat), s.ctl.phase ≠ .inReset → m = min 65535 mw →
    s.cond.queue = [] ∨ s.on Pg.cond Reg.COND_STATE_BUSY = true →
    ∃ t, exec (.powerMeasure mw) s = .next t
      ∧ t.fld Pg.pwr Reg.PWR_MEASURED = m ∧ t.fld Pg.pwr Reg.PWR_PEAK = max m (s.fld Pg.pwr Reg.PWR_PEAK)
      ∧ (s.powerLimit < m → t.pwr = { s.pwr with limiting := true, under := 0 }
          ∧ t.fld Pg.pwr Reg.PWR_OVER_TIME = min (s.fld Pg.pwr Reg.PWR_OVER_TIME + 100) (2 ^ Reg.PWR_OVER_TIME.width - 1)
          ∧ (s.pwr.limiting = false → t.fld Pg.pwr Reg.PWR_EVENT_OVER_LIMIT = 1))
      ∧ (m ≤ s.powerLimit → s.pwr.limiting = false → t.pwr = s.pwr)
      ∧ (m ≤ s.powerLimit → s.pwr.limiting = true → 100 * m < 98 * s.powerLimit → 99 ≤ s.pwr.under →
          t.pwr = { s.pwr with limiting := false, under := 0 } ∧ t.fld Pg.pwr Reg.PWR_EVENT_LIMIT_CLEAR = 1)
      ∧ (m ≤ s.powerLimit → s.pwr.limiting = true → 100 * m < 98 * s.powerLimit → s.pwr.under < 99 →
          t.pwr = { s.pwr with under := s.pwr.under + 1 })
      ∧ (m ≤ s.powerLimit → s.pwr.limiting = true → 98 * s.powerLimit ≤ 100 * m → t.pwr = { s.pwr with under := 0 })
      ∧ t = { s.regsOf t with pwr := t.pwr } ∧ s.KeepsPages t [Pg.pwr] ∧ s.KeepsBytes t

/-- THERM_SAMPLE (R487, R488, R491): of sixteen readings that agree with their neighbours, from valid sensors, the highest is Tj; below WARN the
level stays 0, from WARN on it is 1 with WARN, from CRIT on 2 with CRIT too, and at TRIP the device goes into reset with that cause. The model's
own choices in it: log entry 86. -/
def Obligations.ThermalLevels : Prop :=
  ∀ (s : State) (l : List Int) (x : Int), s.ctl.phase ≠ .inReset → l.length = 16 → (∀ y ∈ l, -32768 ≤ y ∧ y < 32768) →
    (∀ k, k < 16 → beyond l (max 1 (s.fld Pg.therm Reg.THERM_XCHK_DIFF)) k = false) → x ∈ l → (∀ y ∈ l, y ≤ x) →
    s.fld Pg.therm Reg.THERM_SENSOR_FAULT = 0 →
    (x < s.tripAt → s.therm.hot = false → s.fld Pg.therm Reg.THERM_STATE_LEVEL = 0 → s.ctl.mode = .standby ∨ x < s.critAt →
      ∃ t, exec (.thermSample l) s = .next t
        ∧ t.sfld Pg.therm Reg.THERM_TJ = x ∧ (∀ k, k < 16 → t.sfld Pg.therm (Reg.THERM_SENSOR k) = l.getD k 0)
        ∧ t.sfld Pg.therm Reg.THERM_MAX_TJ = (if s.therm.hist = [] then x else max x (s.sfld Pg.therm Reg.THERM_MAX_TJ))
        ∧ (x < s.warnAt → t.fld Pg.therm Reg.THERM_STATE_LEVEL = 0)
        ∧ (s.warnAt ≤ x → x < s.critAt → t.fld Pg.therm Reg.THERM_STATE_LEVEL = 1)
        ∧ (s.warnAt ≤ x → t.fld Pg.therm Reg.THERM_EVENT_WARN = 1)
        ∧ (s.critAt ≤ x → t.fld Pg.therm Reg.THERM_STATE_LEVEL = 2 ∧ t.fld Pg.therm Reg.THERM_EVENT_CRIT = 1)
        ∧ t.fld Pg.therm Reg.THERM_STATE_DEGRADED = 0
        ∧ t = { s.regsOf t with seed := s.seed + 1, therm := t.therm } ∧ s.KeepsPages t [Pg.therm] ∧ s.KeepsBytes t)
    ∧ (s.tripAt ≤ x → ∃ t, exec (.thermSample l) s = .next t ∧ s.ResetOf t 3 .inReset true)
end

