-- ==== Sys2Proof/Laws/State.lean ====
section
/-! SUPPORT. What the register operations, events, outputs and the setters of the state's parts leave alone: one lemma per field and
operation, and what each setter's own field reads as. -/

set_option Elab.async false

namespace Sys2Proof.Machine

/-! ### wr -/

@[simp] theorem State.wr_pending (s : State) (a : Nat) (w : Word) : (s.wr a w).pending = s.pending := rfl
@[simp] theorem State.wr_out (s : State) (a : Nat) (w : Word) : (s.wr a w).out = s.out := rfl
@[simp] theorem State.wr_seed (s : State) (a : Nat) (w : Word) : (s.wr a w).seed = s.seed := rfl
@[simp] theorem State.wr_ctl (s : State) (a : Nat) (w : Word) : (s.wr a w).ctl = s.ctl := rfl
@[simp] theorem State.wr_rsm (s : State) (a : Nat) (w : Word) : (s.wr a w).rsm = s.rsm := rfl
@[simp] theorem State.wr_hq (s : State) (a : Nat) (w : Word) : (s.wr a w).hq = s.hq := rfl
@[simp] theorem State.wr_portA (s : State) (a : Nat) (w : Word) : (s.wr a w).portA = s.portA := rfl
@[simp] theorem State.wr_portB (s : State) (a : Nat) (w : Word) : (s.wr a w).portB = s.portB := rfl
@[simp] theorem State.wr_ingress (s : State) (a : Nat) (w : Word) : (s.wr a w).ingress = s.ingress := rfl
@[simp] theorem State.wr_fstore (s : State) (a : Nat) (w : Word) : (s.wr a w).fstore = s.fstore := rfl
@[simp] theorem State.wr_split (s : State) (a : Nat) (w : Word) : (s.wr a w).split = s.split := rfl
@[simp] theorem State.wr_draw (s : State) (a : Nat) (w : Word) : (s.wr a w).draw = s.draw := rfl
@[simp] theorem State.wr_drdec (s : State) (a : Nat) (w : Word) : (s.wr a w).drdec = s.drdec := rfl
@[simp] theorem State.wr_henc (s : State) (a : Nat) (w : Word) : (s.wr a w).henc = s.henc := rfl
@[simp] theorem State.wr_hdec (s : State) (a : Nat) (w : Word) : (s.wr a w).hdec = s.hdec := rfl
@[simp] theorem State.wr_media (s : State) (a : Nat) (w : Word) : (s.wr a w).media = s.media := rfl
@[simp] theorem State.wr_stages (s : State) (a : Nat) (w : Word) : (s.wr a w).stages = s.stages := rfl
@[simp] theorem State.wr_aud (s : State) (a : Nat) (w : Word) : (s.wr a w).aud = s.aud := rfl
@[simp] theorem State.wr_coll (s : State) (a : Nat) (w : Word) : (s.wr a w).coll = s.coll := rfl
@[simp] theorem State.wr_trig (s : State) (a : Nat) (w : Word) : (s.wr a w).trig = s.trig := rfl
@[simp] theorem State.wr_cond (s : State) (a : Nat) (w : Word) : (s.wr a w).cond = s.cond := rfl
@[simp] theorem State.wr_relay (s : State) (a : Nat) (w : Word) : (s.wr a w).relay = s.relay := rfl
@[simp] theorem State.wr_dramc (s : State) (a : Nat) (w : Word) : (s.wr a w).dramc = s.dramc := rfl
@[simp] theorem State.wr_fw (s : State) (a : Nat) (w : Word) : (s.wr a w).fw = s.fw := rfl
@[simp] theorem State.wr_pwr (s : State) (a : Nat) (w : Word) : (s.wr a w).pwr = s.pwr := rfl
@[simp] theorem State.wr_therm (s : State) (a : Nat) (w : Word) : (s.wr a w).therm = s.therm := rfl
@[simp] theorem State.wr_array (s : State) (a : Nat) (w : Word) : (s.wr a w).array = s.array := rfl
@[simp] theorem State.wr_loupe (s : State) (a : Nat) (w : Word) : (s.wr a w).loupe = s.loupe := rfl
@[simp] theorem State.wr_mirror (s : State) (a : Nat) (w : Word) : (s.wr a w).mirror = s.mirror := rfl
@[simp] theorem State.wr_flows (s : State) (a : Nat) (w : Word) : (s.wr a w).flows = s.flows := rfl
@[simp] theorem State.wr_dram (s : State) (a : Nat) (w : Word) : (s.wr a w).dram = s.dram := rfl
@[simp] theorem State.wr_time (s : State) (a : Nat) (w : Word) : (s.wr a w).time = s.time := rfl
@[simp] theorem State.wr_exposures (s : State) (a : Nat) (w : Word) : (s.wr a w).exposures = s.exposures := rfl

/-! ### setFld -/

@[simp] theorem State.setFld_pending (s : State) (p : Nat) (f : Fld) (v : Nat) : (s.setFld p f v).pending = s.pending := rfl
@[simp] theorem State.setFld_out (s : State) (p : Nat) (f : Fld) (v : Nat) : (s.setFld p f v).out = s.out := rfl
@[simp] theorem State.setFld_seed (s : State) (p : Nat) (f : Fld) (v : Nat) : (s.setFld p f v).seed = s.seed := rfl
@[simp] theorem State.setFld_ctl (s : State) (p : Nat) (f : Fld) (v : Nat) : (s.setFld p f v).ctl = s.ctl := rfl
@[simp] theorem State.setFld_rsm (s : State) (p : Nat) (f : Fld) (v : Nat) : (s.setFld p f v).rsm = s.rsm := rfl
@[simp] theorem State.setFld_hq (s : State) (p : Nat) (f : Fld) (v : Nat) : (s.setFld p f v).hq = s.hq := rfl
@[simp] theorem State.setFld_portA (s : State) (p : Nat) (f : Fld) (v : Nat) : (s.setFld p f v).portA = s.portA := rfl
@[simp] theorem State.setFld_portB (s : State) (p : Nat) (f : Fld) (v : Nat) : (s.setFld p f v).portB = s.portB := rfl
@[simp] theorem State.setFld_ingress (s : State) (p : Nat) (f : Fld) (v : Nat) : (s.setFld p f v).ingress = s.ingress := rfl
@[simp] theorem State.setFld_fstore (s : State) (p : Nat) (f : Fld) (v : Nat) : (s.setFld p f v).fstore = s.fstore := rfl
@[simp] theorem State.setFld_split (s : State) (p : Nat) (f : Fld) (v : Nat) : (s.setFld p f v).split = s.split := rfl
@[simp] theorem State.setFld_draw (s : State) (p : Nat) (f : Fld) (v : Nat) : (s.setFld p f v).draw = s.draw := rfl
@[simp] theorem State.setFld_drdec (s : State) (p : Nat) (f : Fld) (v : Nat) : (s.setFld p f v).drdec = s.drdec := rfl
@[simp] theorem State.setFld_henc (s : State) (p : Nat) (f : Fld) (v : Nat) : (s.setFld p f v).henc = s.henc := rfl
@[simp] theorem State.setFld_hdec (s : State) (p : Nat) (f : Fld) (v : Nat) : (s.setFld p f v).hdec = s.hdec := rfl
@[simp] theorem State.setFld_media (s : State) (p : Nat) (f : Fld) (v : Nat) : (s.setFld p f v).media = s.media := rfl
@[simp] theorem State.setFld_stages (s : State) (p : Nat) (f : Fld) (v : Nat) : (s.setFld p f v).stages = s.stages := rfl
@[simp] theorem State.setFld_aud (s : State) (p : Nat) (f : Fld) (v : Nat) : (s.setFld p f v).aud = s.aud := rfl
@[simp] theorem State.setFld_coll (s : State) (p : Nat) (f : Fld) (v : Nat) : (s.setFld p f v).coll = s.coll := rfl
@[simp] theorem State.setFld_trig (s : State) (p : Nat) (f : Fld) (v : Nat) : (s.setFld p f v).trig = s.trig := rfl
@[simp] theorem State.setFld_cond (s : State) (p : Nat) (f : Fld) (v : Nat) : (s.setFld p f v).cond = s.cond := rfl
@[simp] theorem State.setFld_relay (s : State) (p : Nat) (f : Fld) (v : Nat) : (s.setFld p f v).relay = s.relay := rfl
@[simp] theorem State.setFld_dramc (s : State) (p : Nat) (f : Fld) (v : Nat) : (s.setFld p f v).dramc = s.dramc := rfl
@[simp] theorem State.setFld_fw (s : State) (p : Nat) (f : Fld) (v : Nat) : (s.setFld p f v).fw = s.fw := rfl
@[simp] theorem State.setFld_pwr (s : State) (p : Nat) (f : Fld) (v : Nat) : (s.setFld p f v).pwr = s.pwr := rfl
@[simp] theorem State.setFld_therm (s : State) (p : Nat) (f : Fld) (v : Nat) : (s.setFld p f v).therm = s.therm := rfl
@[simp] theorem State.setFld_array (s : State) (p : Nat) (f : Fld) (v : Nat) : (s.setFld p f v).array = s.array := rfl
@[simp] theorem State.setFld_loupe (s : State) (p : Nat) (f : Fld) (v : Nat) : (s.setFld p f v).loupe = s.loupe := rfl
@[simp] theorem State.setFld_mirror (s : State) (p : Nat) (f : Fld) (v : Nat) : (s.setFld p f v).mirror = s.mirror := rfl
@[simp] theorem State.setFld_flows (s : State) (p : Nat) (f : Fld) (v : Nat) : (s.setFld p f v).flows = s.flows := rfl
@[simp] theorem State.setFld_dram (s : State) (p : Nat) (f : Fld) (v : Nat) : (s.setFld p f v).dram = s.dram := rfl
@[simp] theorem State.setFld_time (s : State) (p : Nat) (f : Fld) (v : Nat) : (s.setFld p f v).time = s.time := rfl
@[simp] theorem State.setFld_exposures (s : State) (p : Nat) (f : Fld) (v : Nat) : (s.setFld p f v).exposures = s.exposures := rfl

/-! ### setOn -/

@[simp] theorem State.setOn_pending (s : State) (p : Nat) (f : Fld) (b : Bool) : (s.setOn p f b).pending = s.pending := rfl
@[simp] theorem State.setOn_out (s : State) (p : Nat) (f : Fld) (b : Bool) : (s.setOn p f b).out = s.out := rfl
@[simp] theorem State.setOn_seed (s : State) (p : Nat) (f : Fld) (b : Bool) : (s.setOn p f b).seed = s.seed := rfl
@[simp] theorem State.setOn_ctl (s : State) (p : Nat) (f : Fld) (b : Bool) : (s.setOn p f b).ctl = s.ctl := rfl
@[simp] theorem State.setOn_rsm (s : State) (p : Nat) (f : Fld) (b : Bool) : (s.setOn p f b).rsm = s.rsm := rfl
@[simp] theorem State.setOn_hq (s : State) (p : Nat) (f : Fld) (b : Bool) : (s.setOn p f b).hq = s.hq := rfl
@[simp] theorem State.setOn_portA (s : State) (p : Nat) (f : Fld) (b : Bool) : (s.setOn p f b).portA = s.portA := rfl
@[simp] theorem State.setOn_portB (s : State) (p : Nat) (f : Fld) (b : Bool) : (s.setOn p f b).portB = s.portB := rfl
@[simp] theorem State.setOn_ingress (s : State) (p : Nat) (f : Fld) (b : Bool) : (s.setOn p f b).ingress = s.ingress := rfl
@[simp] theorem State.setOn_fstore (s : State) (p : Nat) (f : Fld) (b : Bool) : (s.setOn p f b).fstore = s.fstore := rfl
@[simp] theorem State.setOn_split (s : State) (p : Nat) (f : Fld) (b : Bool) : (s.setOn p f b).split = s.split := rfl
@[simp] theorem State.setOn_draw (s : State) (p : Nat) (f : Fld) (b : Bool) : (s.setOn p f b).draw = s.draw := rfl
@[simp] theorem State.setOn_drdec (s : State) (p : Nat) (f : Fld) (b : Bool) : (s.setOn p f b).drdec = s.drdec := rfl
@[simp] theorem State.setOn_henc (s : State) (p : Nat) (f : Fld) (b : Bool) : (s.setOn p f b).henc = s.henc := rfl
@[simp] theorem State.setOn_hdec (s : State) (p : Nat) (f : Fld) (b : Bool) : (s.setOn p f b).hdec = s.hdec := rfl
@[simp] theorem State.setOn_media (s : State) (p : Nat) (f : Fld) (b : Bool) : (s.setOn p f b).media = s.media := rfl
@[simp] theorem State.setOn_stages (s : State) (p : Nat) (f : Fld) (b : Bool) : (s.setOn p f b).stages = s.stages := rfl
@[simp] theorem State.setOn_aud (s : State) (p : Nat) (f : Fld) (b : Bool) : (s.setOn p f b).aud = s.aud := rfl
@[simp] theorem State.setOn_coll (s : State) (p : Nat) (f : Fld) (b : Bool) : (s.setOn p f b).coll = s.coll := rfl
@[simp] theorem State.setOn_trig (s : State) (p : Nat) (f : Fld) (b : Bool) : (s.setOn p f b).trig = s.trig := rfl
@[simp] theorem State.setOn_cond (s : State) (p : Nat) (f : Fld) (b : Bool) : (s.setOn p f b).cond = s.cond := rfl
@[simp] theorem State.setOn_relay (s : State) (p : Nat) (f : Fld) (b : Bool) : (s.setOn p f b).relay = s.relay := rfl
@[simp] theorem State.setOn_dramc (s : State) (p : Nat) (f : Fld) (b : Bool) : (s.setOn p f b).dramc = s.dramc := rfl
@[simp] theorem State.setOn_fw (s : State) (p : Nat) (f : Fld) (b : Bool) : (s.setOn p f b).fw = s.fw := rfl
@[simp] theorem State.setOn_pwr (s : State) (p : Nat) (f : Fld) (b : Bool) : (s.setOn p f b).pwr = s.pwr := rfl
@[simp] theorem State.setOn_therm (s : State) (p : Nat) (f : Fld) (b : Bool) : (s.setOn p f b).therm = s.therm := rfl
@[simp] theorem State.setOn_array (s : State) (p : Nat) (f : Fld) (b : Bool) : (s.setOn p f b).array = s.array := rfl
@[simp] theorem State.setOn_loupe (s : State) (p : Nat) (f : Fld) (b : Bool) : (s.setOn p f b).loupe = s.loupe := rfl
@[simp] theorem State.setOn_mirror (s : State) (p : Nat) (f : Fld) (b : Bool) : (s.setOn p f b).mirror = s.mirror := rfl
@[simp] theorem State.setOn_flows (s : State) (p : Nat) (f : Fld) (b : Bool) : (s.setOn p f b).flows = s.flows := rfl
@[simp] theorem State.setOn_dram (s : State) (p : Nat) (f : Fld) (b : Bool) : (s.setOn p f b).dram = s.dram := rfl
@[simp] theorem State.setOn_time (s : State) (p : Nat) (f : Fld) (b : Bool) : (s.setOn p f b).time = s.time := rfl
@[simp] theorem State.setOn_exposures (s : State) (p : Nat) (f : Fld) (b : Bool) : (s.setOn p f b).exposures = s.exposures := rfl

/-! ### setFld64 -/

@[simp] theorem State.setFld64_pending (s : State) (p : Nat) (lo hi : Fld) (v : Nat) : (s.setFld64 p lo hi v).pending = s.pending := rfl
@[simp] theorem State.setFld64_out (s : State) (p : Nat) (lo hi : Fld) (v : Nat) : (s.setFld64 p lo hi v).out = s.out := rfl
@[simp] theorem State.setFld64_seed (s : State) (p : Nat) (lo hi : Fld) (v : Nat) : (s.setFld64 p lo hi v).seed = s.seed := rfl
@[simp] theorem State.setFld64_ctl (s : State) (p : Nat) (lo hi : Fld) (v : Nat) : (s.setFld64 p lo hi v).ctl = s.ctl := rfl
@[simp] theorem State.setFld64_rsm (s : State) (p : Nat) (lo hi : Fld) (v : Nat) : (s.setFld64 p lo hi v).rsm = s.rsm := rfl
@[simp] theorem State.setFld64_hq (s : State) (p : Nat) (lo hi : Fld) (v : Nat) : (s.setFld64 p lo hi v).hq = s.hq := rfl
@[simp] theorem State.setFld64_portA (s : State) (p : Nat) (lo hi : Fld) (v : Nat) : (s.setFld64 p lo hi v).portA = s.portA := rfl
@[simp] theorem State.setFld64_portB (s : State) (p : Nat) (lo hi : Fld) (v : Nat) : (s.setFld64 p lo hi v).portB = s.portB := rfl
@[simp] theorem State.setFld64_ingress (s : State) (p : Nat) (lo hi : Fld) (v : Nat) : (s.setFld64 p lo hi v).ingress = s.ingress := rfl
@[simp] theorem State.setFld64_fstore (s : State) (p : Nat) (lo hi : Fld) (v : Nat) : (s.setFld64 p lo hi v).fstore = s.fstore := rfl
@[simp] theorem State.setFld64_split (s : State) (p : Nat) (lo hi : Fld) (v : Nat) : (s.setFld64 p lo hi v).split = s.split := rfl
@[simp] theorem State.setFld64_draw (s : State) (p : Nat) (lo hi : Fld) (v : Nat) : (s.setFld64 p lo hi v).draw = s.draw := rfl
@[simp] theorem State.setFld64_drdec (s : State) (p : Nat) (lo hi : Fld) (v : Nat) : (s.setFld64 p lo hi v).drdec = s.drdec := rfl
@[simp] theorem State.setFld64_henc (s : State) (p : Nat) (lo hi : Fld) (v : Nat) : (s.setFld64 p lo hi v).henc = s.henc := rfl
@[simp] theorem State.setFld64_hdec (s : State) (p : Nat) (lo hi : Fld) (v : Nat) : (s.setFld64 p lo hi v).hdec = s.hdec := rfl
@[simp] theorem State.setFld64_media (s : State) (p : Nat) (lo hi : Fld) (v : Nat) : (s.setFld64 p lo hi v).media = s.media := rfl
@[simp] theorem State.setFld64_stages (s : State) (p : Nat) (lo hi : Fld) (v : Nat) : (s.setFld64 p lo hi v).stages = s.stages := rfl
@[simp] theorem State.setFld64_aud (s : State) (p : Nat) (lo hi : Fld) (v : Nat) : (s.setFld64 p lo hi v).aud = s.aud := rfl
@[simp] theorem State.setFld64_coll (s : State) (p : Nat) (lo hi : Fld) (v : Nat) : (s.setFld64 p lo hi v).coll = s.coll := rfl
@[simp] theorem State.setFld64_trig (s : State) (p : Nat) (lo hi : Fld) (v : Nat) : (s.setFld64 p lo hi v).trig = s.trig := rfl
@[simp] theorem State.setFld64_cond (s : State) (p : Nat) (lo hi : Fld) (v : Nat) : (s.setFld64 p lo hi v).cond = s.cond := rfl
@[simp] theorem State.setFld64_relay (s : State) (p : Nat) (lo hi : Fld) (v : Nat) : (s.setFld64 p lo hi v).relay = s.relay := rfl
@[simp] theorem State.setFld64_dramc (s : State) (p : Nat) (lo hi : Fld) (v : Nat) : (s.setFld64 p lo hi v).dramc = s.dramc := rfl
@[simp] theorem State.setFld64_fw (s : State) (p : Nat) (lo hi : Fld) (v : Nat) : (s.setFld64 p lo hi v).fw = s.fw := rfl
@[simp] theorem State.setFld64_pwr (s : State) (p : Nat) (lo hi : Fld) (v : Nat) : (s.setFld64 p lo hi v).pwr = s.pwr := rfl
@[simp] theorem State.setFld64_therm (s : State) (p : Nat) (lo hi : Fld) (v : Nat) : (s.setFld64 p lo hi v).therm = s.therm := rfl
@[simp] theorem State.setFld64_array (s : State) (p : Nat) (lo hi : Fld) (v : Nat) : (s.setFld64 p lo hi v).array = s.array := rfl
@[simp] theorem State.setFld64_loupe (s : State) (p : Nat) (lo hi : Fld) (v : Nat) : (s.setFld64 p lo hi v).loupe = s.loupe := rfl
@[simp] theorem State.setFld64_mirror (s : State) (p : Nat) (lo hi : Fld) (v : Nat) : (s.setFld64 p lo hi v).mirror = s.mirror := rfl
@[simp] theorem State.setFld64_flows (s : State) (p : Nat) (lo hi : Fld) (v : Nat) : (s.setFld64 p lo hi v).flows = s.flows := rfl
@[simp] theorem State.setFld64_dram (s : State) (p : Nat) (lo hi : Fld) (v : Nat) : (s.setFld64 p lo hi v).dram = s.dram := rfl
@[simp] theorem State.setFld64_time (s : State) (p : Nat) (lo hi : Fld) (v : Nat) : (s.setFld64 p lo hi v).time = s.time := rfl
@[simp] theorem State.setFld64_exposures (s : State) (p : Nat) (lo hi : Fld) (v : Nat) : (s.setFld64 p lo hi v).exposures = s.exposures := rfl

/-! ### countBy -/

@[simp] theorem State.countBy_pending (s : State) (p : Nat) (f : Fld) (n : Nat) : (s.countBy p f n).pending = s.pending := rfl
@[simp] theorem State.countBy_out (s : State) (p : Nat) (f : Fld) (n : Nat) : (s.countBy p f n).out = s.out := rfl
@[simp] theorem State.countBy_seed (s : State) (p : Nat) (f : Fld) (n : Nat) : (s.countBy p f n).seed = s.seed := rfl
@[simp] theorem State.countBy_ctl (s : State) (p : Nat) (f : Fld) (n : Nat) : (s.countBy p f n).ctl = s.ctl := rfl
@[simp] theorem State.countBy_rsm (s : State) (p : Nat) (f : Fld) (n : Nat) : (s.countBy p f n).rsm = s.rsm := rfl
@[simp] theorem State.countBy_hq (s : State) (p : Nat) (f : Fld) (n : Nat) : (s.countBy p f n).hq = s.hq := rfl
@[simp] theorem State.countBy_portA (s : State) (p : Nat) (f : Fld) (n : Nat) : (s.countBy p f n).portA = s.portA := rfl
@[simp] theorem State.countBy_portB (s : State) (p : Nat) (f : Fld) (n : Nat) : (s.countBy p f n).portB = s.portB := rfl
@[simp] theorem State.countBy_ingress (s : State) (p : Nat) (f : Fld) (n : Nat) : (s.countBy p f n).ingress = s.ingress := rfl
@[simp] theorem State.countBy_fstore (s : State) (p : Nat) (f : Fld) (n : Nat) : (s.countBy p f n).fstore = s.fstore := rfl
@[simp] theorem State.countBy_split (s : State) (p : Nat) (f : Fld) (n : Nat) : (s.countBy p f n).split = s.split := rfl
@[simp] theorem State.countBy_draw (s : State) (p : Nat) (f : Fld) (n : Nat) : (s.countBy p f n).draw = s.draw := rfl
@[simp] theorem State.countBy_drdec (s : State) (p : Nat) (f : Fld) (n : Nat) : (s.countBy p f n).drdec = s.drdec := rfl
@[simp] theorem State.countBy_henc (s : State) (p : Nat) (f : Fld) (n : Nat) : (s.countBy p f n).henc = s.henc := rfl
@[simp] theorem State.countBy_hdec (s : State) (p : Nat) (f : Fld) (n : Nat) : (s.countBy p f n).hdec = s.hdec := rfl
@[simp] theorem State.countBy_media (s : State) (p : Nat) (f : Fld) (n : Nat) : (s.countBy p f n).media = s.media := rfl
@[simp] theorem State.countBy_stages (s : State) (p : Nat) (f : Fld) (n : Nat) : (s.countBy p f n).stages = s.stages := rfl
@[simp] theorem State.countBy_aud (s : State) (p : Nat) (f : Fld) (n : Nat) : (s.countBy p f n).aud = s.aud := rfl
@[simp] theorem State.countBy_coll (s : State) (p : Nat) (f : Fld) (n : Nat) : (s.countBy p f n).coll = s.coll := rfl
@[simp] theorem State.countBy_trig (s : State) (p : Nat) (f : Fld) (n : Nat) : (s.countBy p f n).trig = s.trig := rfl
@[simp] theorem State.countBy_cond (s : State) (p : Nat) (f : Fld) (n : Nat) : (s.countBy p f n).cond = s.cond := rfl
@[simp] theorem State.countBy_relay (s : State) (p : Nat) (f : Fld) (n : Nat) : (s.countBy p f n).relay = s.relay := rfl
@[simp] theorem State.countBy_dramc (s : State) (p : Nat) (f : Fld) (n : Nat) : (s.countBy p f n).dramc = s.dramc := rfl
@[simp] theorem State.countBy_fw (s : State) (p : Nat) (f : Fld) (n : Nat) : (s.countBy p f n).fw = s.fw := rfl
@[simp] theorem State.countBy_pwr (s : State) (p : Nat) (f : Fld) (n : Nat) : (s.countBy p f n).pwr = s.pwr := rfl
@[simp] theorem State.countBy_therm (s : State) (p : Nat) (f : Fld) (n : Nat) : (s.countBy p f n).therm = s.therm := rfl
@[simp] theorem State.countBy_array (s : State) (p : Nat) (f : Fld) (n : Nat) : (s.countBy p f n).array = s.array := rfl
@[simp] theorem State.countBy_loupe (s : State) (p : Nat) (f : Fld) (n : Nat) : (s.countBy p f n).loupe = s.loupe := rfl
@[simp] theorem State.countBy_mirror (s : State) (p : Nat) (f : Fld) (n : Nat) : (s.countBy p f n).mirror = s.mirror := rfl
@[simp] theorem State.countBy_flows (s : State) (p : Nat) (f : Fld) (n : Nat) : (s.countBy p f n).flows = s.flows := rfl
@[simp] theorem State.countBy_dram (s : State) (p : Nat) (f : Fld) (n : Nat) : (s.countBy p f n).dram = s.dram := rfl
@[simp] theorem State.countBy_time (s : State) (p : Nat) (f : Fld) (n : Nat) : (s.countBy p f n).time = s.time := rfl
@[simp] theorem State.countBy_exposures (s : State) (p : Nat) (f : Fld) (n : Nat) : (s.countBy p f n).exposures = s.exposures := rfl

/-! ### count -/

@[simp] theorem State.count_pending (s : State) (p : Nat) (f : Fld) : (s.count p f).pending = s.pending := rfl
@[simp] theorem State.count_out (s : State) (p : Nat) (f : Fld) : (s.count p f).out = s.out := rfl
@[simp] theorem State.count_seed (s : State) (p : Nat) (f : Fld) : (s.count p f).seed = s.seed := rfl
@[simp] theorem State.count_ctl (s : State) (p : Nat) (f : Fld) : (s.count p f).ctl = s.ctl := rfl
@[simp] theorem State.count_rsm (s : State) (p : Nat) (f : Fld) : (s.count p f).rsm = s.rsm := rfl
@[simp] theorem State.count_hq (s : State) (p : Nat) (f : Fld) : (s.count p f).hq = s.hq := rfl
@[simp] theorem State.count_portA (s : State) (p : Nat) (f : Fld) : (s.count p f).portA = s.portA := rfl
@[simp] theorem State.count_portB (s : State) (p : Nat) (f : Fld) : (s.count p f).portB = s.portB := rfl
@[simp] theorem State.count_ingress (s : State) (p : Nat) (f : Fld) : (s.count p f).ingress = s.ingress := rfl
@[simp] theorem State.count_fstore (s : State) (p : Nat) (f : Fld) : (s.count p f).fstore = s.fstore := rfl
@[simp] theorem State.count_split (s : State) (p : Nat) (f : Fld) : (s.count p f).split = s.split := rfl
@[simp] theorem State.count_draw (s : State) (p : Nat) (f : Fld) : (s.count p f).draw = s.draw := rfl
@[simp] theorem State.count_drdec (s : State) (p : Nat) (f : Fld) : (s.count p f).drdec = s.drdec := rfl
@[simp] theorem State.count_henc (s : State) (p : Nat) (f : Fld) : (s.count p f).henc = s.henc := rfl
@[simp] theorem State.count_hdec (s : State) (p : Nat) (f : Fld) : (s.count p f).hdec = s.hdec := rfl
@[simp] theorem State.count_media (s : State) (p : Nat) (f : Fld) : (s.count p f).media = s.media := rfl
@[simp] theorem State.count_stages (s : State) (p : Nat) (f : Fld) : (s.count p f).stages = s.stages := rfl
@[simp] theorem State.count_aud (s : State) (p : Nat) (f : Fld) : (s.count p f).aud = s.aud := rfl
@[simp] theorem State.count_coll (s : State) (p : Nat) (f : Fld) : (s.count p f).coll = s.coll := rfl
@[simp] theorem State.count_trig (s : State) (p : Nat) (f : Fld) : (s.count p f).trig = s.trig := rfl
@[simp] theorem State.count_cond (s : State) (p : Nat) (f : Fld) : (s.count p f).cond = s.cond := rfl
@[simp] theorem State.count_relay (s : State) (p : Nat) (f : Fld) : (s.count p f).relay = s.relay := rfl
@[simp] theorem State.count_dramc (s : State) (p : Nat) (f : Fld) : (s.count p f).dramc = s.dramc := rfl
@[simp] theorem State.count_fw (s : State) (p : Nat) (f : Fld) : (s.count p f).fw = s.fw := rfl
@[simp] theorem State.count_pwr (s : State) (p : Nat) (f : Fld) : (s.count p f).pwr = s.pwr := rfl
@[simp] theorem State.count_therm (s : State) (p : Nat) (f : Fld) : (s.count p f).therm = s.therm := rfl
@[simp] theorem State.count_array (s : State) (p : Nat) (f : Fld) : (s.count p f).array = s.array := rfl
@[simp] theorem State.count_loupe (s : State) (p : Nat) (f : Fld) : (s.count p f).loupe = s.loupe := rfl
@[simp] theorem State.count_mirror (s : State) (p : Nat) (f : Fld) : (s.count p f).mirror = s.mirror := rfl
@[simp] theorem State.count_flows (s : State) (p : Nat) (f : Fld) : (s.count p f).flows = s.flows := rfl
@[simp] theorem State.count_dram (s : State) (p : Nat) (f : Fld) : (s.count p f).dram = s.dram := rfl
@[simp] theorem State.count_time (s : State) (p : Nat) (f : Fld) : (s.count p f).time = s.time := rfl
@[simp] theorem State.count_exposures (s : State) (p : Nat) (f : Fld) : (s.count p f).exposures = s.exposures := rfl

/-! ### Events -/

@[simp] theorem noteRise_pending (s0 s1 : State) (p : Nat) : (noteRise s0 s1 p).pending = s1.pending := by
  simp only [noteRise]; repeat' split
  all_goals rfl
@[simp] theorem noteRise_out (s0 s1 : State) (p : Nat) : (noteRise s0 s1 p).out = s1.out := by
  simp only [noteRise]; repeat' split
  all_goals rfl
@[simp] theorem noteRise_seed (s0 s1 : State) (p : Nat) : (noteRise s0 s1 p).seed = s1.seed := by
  simp only [noteRise]; repeat' split
  all_goals rfl
@[simp] theorem noteRise_regs (s0 s1 : State) (p : Nat) : (noteRise s0 s1 p).regs = s1.regs := by
  simp only [noteRise]; repeat' split
  all_goals rfl
@[simp] theorem noteRise_rsm (s0 s1 : State) (p : Nat) : (noteRise s0 s1 p).rsm = s1.rsm := by
  simp only [noteRise]; repeat' split
  all_goals rfl
@[simp] theorem noteRise_hq (s0 s1 : State) (p : Nat) : (noteRise s0 s1 p).hq = s1.hq := by
  simp only [noteRise]; repeat' split
  all_goals rfl
@[simp] theorem noteRise_portA (s0 s1 : State) (p : Nat) : (noteRise s0 s1 p).portA = s1.portA := by
  simp only [noteRise]; repeat' split
  all_goals rfl
@[simp] theorem noteRise_portB (s0 s1 : State) (p : Nat) : (noteRise s0 s1 p).portB = s1.portB := by
  simp only [noteRise]; repeat' split
  all_goals rfl
@[simp] theorem noteRise_ingress (s0 s1 : State) (p : Nat) : (noteRise s0 s1 p).ingress = s1.ingress := by
  simp only [noteRise]; repeat' split
  all_goals rfl
@[simp] theorem noteRise_fstore (s0 s1 : State) (p : Nat) : (noteRise s0 s1 p).fstore = s1.fstore := by
  simp only [noteRise]; repeat' split
  all_goals rfl
@[simp] theorem noteRise_split (s0 s1 : State) (p : Nat) : (noteRise s0 s1 p).split = s1.split := by
  simp only [noteRise]; repeat' split
  all_goals rfl
@[simp] theorem noteRise_draw (s0 s1 : State) (p : Nat) : (noteRise s0 s1 p).draw = s1.draw := by
  simp only [noteRise]; repeat' split
  all_goals rfl
@[simp] theorem noteRise_drdec (s0 s1 : State) (p : Nat) : (noteRise s0 s1 p).drdec = s1.drdec := by
  simp only [noteRise]; repeat' split
  all_goals rfl
@[simp] theorem noteRise_henc (s0 s1 : State) (p : Nat) : (noteRise s0 s1 p).henc = s1.henc := by
  simp only [noteRise]; repeat' split
  all_goals rfl
@[simp] theorem noteRise_hdec (s0 s1 : State) (p : Nat) : (noteRise s0 s1 p).hdec = s1.hdec := by
  simp only [noteRise]; repeat' split
  all_goals rfl
@[simp] theorem noteRise_media (s0 s1 : State) (p : Nat) : (noteRise s0 s1 p).media = s1.media := by
  simp only [noteRise]; repeat' split
  all_goals rfl
@[simp] theorem noteRise_stages (s0 s1 : State) (p : Nat) : (noteRise s0 s1 p).stages = s1.stages := by
  simp only [noteRise]; repeat' split
  all_goals rfl
@[simp] theorem noteRise_aud (s0 s1 : State) (p : Nat) : (noteRise s0 s1 p).aud = s1.aud := by
  simp only [noteRise]; repeat' split
  all_goals rfl
@[simp] theorem noteRise_coll (s0 s1 : State) (p : Nat) : (noteRise s0 s1 p).coll = s1.coll := by
  simp only [noteRise]; repeat' split
  all_goals rfl
@[simp] theorem noteRise_trig (s0 s1 : State) (p : Nat) : (noteRise s0 s1 p).trig = s1.trig := by
  simp only [noteRise]; repeat' split
  all_goals rfl
@[simp] theorem noteRise_cond (s0 s1 : State) (p : Nat) : (noteRise s0 s1 p).cond = s1.cond := by
  simp only [noteRise]; repeat' split
  all_goals rfl
@[simp] theorem noteRise_relay (s0 s1 : State) (p : Nat) : (noteRise s0 s1 p).relay = s1.relay := by
  simp only [noteRise]; repeat' split
  all_goals rfl
@[simp] theorem noteRise_dramc (s0 s1 : State) (p : Nat) : (noteRise s0 s1 p).dramc = s1.dramc := by
  simp only [noteRise]; repeat' split
  all_goals rfl
@[simp] theorem noteRise_fw (s0 s1 : State) (p : Nat) : (noteRise s0 s1 p).fw = s1.fw := by
  simp only [noteRise]; repeat' split
  all_goals rfl
@[simp] theorem noteRise_pwr (s0 s1 : State) (p : Nat) : (noteRise s0 s1 p).pwr = s1.pwr := by
  simp only [noteRise]; repeat' split
  all_goals rfl
@[simp] theorem noteRise_therm (s0 s1 : State) (p : Nat) : (noteRise s0 s1 p).therm = s1.therm := by
  simp only [noteRise]; repeat' split
  all_goals rfl
@[simp] theorem noteRise_array (s0 s1 : State) (p : Nat) : (noteRise s0 s1 p).array = s1.array := by
  simp only [noteRise]; repeat' split
  all_goals rfl
@[simp] theorem noteRise_loupe (s0 s1 : State) (p : Nat) : (noteRise s0 s1 p).loupe = s1.loupe := by
  simp only [noteRise]; repeat' split
  all_goals rfl
@[simp] theorem noteRise_mirror (s0 s1 : State) (p : Nat) : (noteRise s0 s1 p).mirror = s1.mirror := by
  simp only [noteRise]; repeat' split
  all_goals rfl
@[simp] theorem noteRise_flows (s0 s1 : State) (p : Nat) : (noteRise s0 s1 p).flows = s1.flows := by
  simp only [noteRise]; repeat' split
  all_goals rfl
@[simp] theorem noteRise_dram (s0 s1 : State) (p : Nat) : (noteRise s0 s1 p).dram = s1.dram := by
  simp only [noteRise]; repeat' split
  all_goals rfl
@[simp] theorem noteRise_time (s0 s1 : State) (p : Nat) : (noteRise s0 s1 p).time = s1.time := by
  simp only [noteRise]; repeat' split
  all_goals rfl
@[simp] theorem noteRise_exposures (s0 s1 : State) (p : Nat) : (noteRise s0 s1 p).exposures = s1.exposures := by
  simp only [noteRise]; repeat' split
  all_goals rfl
@[simp] theorem State.raise_pending (s : State) (p : Nat) (e : Fld) : (s.raise p e).pending = s.pending := by simp [State.raise]
@[simp] theorem State.raise_out (s : State) (p : Nat) (e : Fld) : (s.raise p e).out = s.out := by simp [State.raise]
@[simp] theorem State.raise_seed (s : State) (p : Nat) (e : Fld) : (s.raise p e).seed = s.seed := by simp [State.raise]
@[simp] theorem State.raise_rsm (s : State) (p : Nat) (e : Fld) : (s.raise p e).rsm = s.rsm := by simp [State.raise]
@[simp] theorem State.raise_hq (s : State) (p : Nat) (e : Fld) : (s.raise p e).hq = s.hq := by simp [State.raise]
@[simp] theorem State.raise_portA (s : State) (p : Nat) (e : Fld) : (s.raise p e).portA = s.portA := by simp [State.raise]
@[simp] theorem State.raise_portB (s : State) (p : Nat) (e : Fld) : (s.raise p e).portB = s.portB := by simp [State.raise]
@[simp] theorem State.raise_ingress (s : State) (p : Nat) (e : Fld) : (s.raise p e).ingress = s.ingress := by simp [State.raise]
@[simp] theorem State.raise_fstore (s : State) (p : Nat) (e : Fld) : (s.raise p e).fstore = s.fstore := by simp [State.raise]
@[simp] theorem State.raise_split (s : State) (p : Nat) (e : Fld) : (s.raise p e).split = s.split := by simp [State.raise]
@[simp] theorem State.raise_draw (s : State) (p : Nat) (e : Fld) : (s.raise p e).draw = s.draw := by simp [State.raise]
@[simp] theorem State.raise_drdec (s : State) (p : Nat) (e : Fld) : (s.raise p e).drdec = s.drdec := by simp [State.raise]
@[simp] theorem State.raise_henc (s : State) (p : Nat) (e : Fld) : (s.raise p e).henc = s.henc := by simp [State.raise]
@[simp] theorem State.raise_hdec (s : State) (p : Nat) (e : Fld) : (s.raise p e).hdec = s.hdec := by simp [State.raise]
@[simp] theorem State.raise_media (s : State) (p : Nat) (e : Fld) : (s.raise p e).media = s.media := by simp [State.raise]
@[simp] theorem State.raise_stages (s : State) (p : Nat) (e : Fld) : (s.raise p e).stages = s.stages := by simp [State.raise]
@[simp] theorem State.raise_aud (s : State) (p : Nat) (e : Fld) : (s.raise p e).aud = s.aud := by simp [State.raise]
@[simp] theorem State.raise_coll (s : State) (p : Nat) (e : Fld) : (s.raise p e).coll = s.coll := by simp [State.raise]
@[simp] theorem State.raise_trig (s : State) (p : Nat) (e : Fld) : (s.raise p e).trig = s.trig := by simp [State.raise]
@[simp] theorem State.raise_cond (s : State) (p : Nat) (e : Fld) : (s.raise p e).cond = s.cond := by simp [State.raise]
@[simp] theorem State.raise_relay (s : State) (p : Nat) (e : Fld) : (s.raise p e).relay = s.relay := by simp [State.raise]
@[simp] theorem State.raise_dramc (s : State) (p : Nat) (e : Fld) : (s.raise p e).dramc = s.dramc := by simp [State.raise]
@[simp] theorem State.raise_fw (s : State) (p : Nat) (e : Fld) : (s.raise p e).fw = s.fw := by simp [State.raise]
@[simp] theorem State.raise_pwr (s : State) (p : Nat) (e : Fld) : (s.raise p e).pwr = s.pwr := by simp [State.raise]
@[simp] theorem State.raise_therm (s : State) (p : Nat) (e : Fld) : (s.raise p e).therm = s.therm := by simp [State.raise]
@[simp] theorem State.raise_array (s : State) (p : Nat) (e : Fld) : (s.raise p e).array = s.array := by simp [State.raise]
@[simp] theorem State.raise_loupe (s : State) (p : Nat) (e : Fld) : (s.raise p e).loupe = s.loupe := by simp [State.raise]
@[simp] theorem State.raise_mirror (s : State) (p : Nat) (e : Fld) : (s.raise p e).mirror = s.mirror := by simp [State.raise]
@[simp] theorem State.raise_flows (s : State) (p : Nat) (e : Fld) : (s.raise p e).flows = s.flows := by simp [State.raise]
@[simp] theorem State.raise_dram (s : State) (p : Nat) (e : Fld) : (s.raise p e).dram = s.dram := by simp [State.raise]
@[simp] theorem State.raise_time (s : State) (p : Nat) (e : Fld) : (s.raise p e).time = s.time := by simp [State.raise]
@[simp] theorem State.raise_exposures (s : State) (p : Nat) (e : Fld) : (s.raise p e).exposures = s.exposures := by simp [State.raise]
@[simp] theorem State.raiseIf_pending (s : State) (c : Bool) (p : Nat) (e : Fld) : (s.raiseIf c p e).pending = s.pending := by
  simp only [State.raiseIf]; split <;> simp
@[simp] theorem State.raiseIf_out (s : State) (c : Bool) (p : Nat) (e : Fld) : (s.raiseIf c p e).out = s.out := by
  simp only [State.raiseIf]; split <;> simp
@[simp] theorem State.raiseIf_seed (s : State) (c : Bool) (p : Nat) (e : Fld) : (s.raiseIf c p e).seed = s.seed := by
  simp only [State.raiseIf]; split <;> simp
@[simp] theorem State.raiseIf_rsm (s : State) (c : Bool) (p : Nat) (e : Fld) : (s.raiseIf c p e).rsm = s.rsm := by
  simp only [State.raiseIf]; split <;> simp
@[simp] theorem State.raiseIf_hq (s : State) (c : Bool) (p : Nat) (e : Fld) : (s.raiseIf c p e).hq = s.hq := by
  simp only [State.raiseIf]; split <;> simp
@[simp] theorem State.raiseIf_portA (s : State) (c : Bool) (p : Nat) (e : Fld) : (s.raiseIf c p e).portA = s.portA := by
  simp only [State.raiseIf]; split <;> simp
@[simp] theorem State.raiseIf_portB (s : State) (c : Bool) (p : Nat) (e : Fld) : (s.raiseIf c p e).portB = s.portB := by
  simp only [State.raiseIf]; split <;> simp
@[simp] theorem State.raiseIf_ingress (s : State) (c : Bool) (p : Nat) (e : Fld) : (s.raiseIf c p e).ingress = s.ingress := by
  simp only [State.raiseIf]; split <;> simp
@[simp] theorem State.raiseIf_fstore (s : State) (c : Bool) (p : Nat) (e : Fld) : (s.raiseIf c p e).fstore = s.fstore := by
  simp only [State.raiseIf]; split <;> simp
@[simp] theorem State.raiseIf_split (s : State) (c : Bool) (p : Nat) (e : Fld) : (s.raiseIf c p e).split = s.split := by
  simp only [State.raiseIf]; split <;> simp
@[simp] theorem State.raiseIf_draw (s : State) (c : Bool) (p : Nat) (e : Fld) : (s.raiseIf c p e).draw = s.draw := by
  simp only [State.raiseIf]; split <;> simp
@[simp] theorem State.raiseIf_drdec (s : State) (c : Bool) (p : Nat) (e : Fld) : (s.raiseIf c p e).drdec = s.drdec := by
  simp only [State.raiseIf]; split <;> simp
@[simp] theorem State.raiseIf_henc (s : State) (c : Bool) (p : Nat) (e : Fld) : (s.raiseIf c p e).henc = s.henc := by
  simp only [State.raiseIf]; split <;> simp
@[simp] theorem State.raiseIf_hdec (s : State) (c : Bool) (p : Nat) (e : Fld) : (s.raiseIf c p e).hdec = s.hdec := by
  simp only [State.raiseIf]; split <;> simp
@[simp] theorem State.raiseIf_media (s : State) (c : Bool) (p : Nat) (e : Fld) : (s.raiseIf c p e).media = s.media := by
  simp only [State.raiseIf]; split <;> simp
@[simp] theorem State.raiseIf_stages (s : State) (c : Bool) (p : Nat) (e : Fld) : (s.raiseIf c p e).stages = s.stages := by
  simp only [State.raiseIf]; split <;> simp
@[simp] theorem State.raiseIf_aud (s : State) (c : Bool) (p : Nat) (e : Fld) : (s.raiseIf c p e).aud = s.aud := by
  simp only [State.raiseIf]; split <;> simp
@[simp] theorem State.raiseIf_coll (s : State) (c : Bool) (p : Nat) (e : Fld) : (s.raiseIf c p e).coll = s.coll := by
  simp only [State.raiseIf]; split <;> simp
@[simp] theorem State.raiseIf_trig (s : State) (c : Bool) (p : Nat) (e : Fld) : (s.raiseIf c p e).trig = s.trig := by
  simp only [State.raiseIf]; split <;> simp
@[simp] theorem State.raiseIf_cond (s : State) (c : Bool) (p : Nat) (e : Fld) : (s.raiseIf c p e).cond = s.cond := by
  simp only [State.raiseIf]; split <;> simp
@[simp] theorem State.raiseIf_relay (s : State) (c : Bool) (p : Nat) (e : Fld) : (s.raiseIf c p e).relay = s.relay := by
  simp only [State.raiseIf]; split <;> simp
@[simp] theorem State.raiseIf_dramc (s : State) (c : Bool) (p : Nat) (e : Fld) : (s.raiseIf c p e).dramc = s.dramc := by
  simp only [State.raiseIf]; split <;> simp
@[simp] theorem State.raiseIf_fw (s : State) (c : Bool) (p : Nat) (e : Fld) : (s.raiseIf c p e).fw = s.fw := by
  simp only [State.raiseIf]; split <;> simp
@[simp] theorem State.raiseIf_pwr (s : State) (c : Bool) (p : Nat) (e : Fld) : (s.raiseIf c p e).pwr = s.pwr := by
  simp only [State.raiseIf]; split <;> simp
@[simp] theorem State.raiseIf_therm (s : State) (c : Bool) (p : Nat) (e : Fld) : (s.raiseIf c p e).therm = s.therm := by
  simp only [State.raiseIf]; split <;> simp
@[simp] theorem State.raiseIf_array (s : State) (c : Bool) (p : Nat) (e : Fld) : (s.raiseIf c p e).array = s.array := by
  simp only [State.raiseIf]; split <;> simp
@[simp] theorem State.raiseIf_loupe (s : State) (c : Bool) (p : Nat) (e : Fld) : (s.raiseIf c p e).loupe = s.loupe := by
  simp only [State.raiseIf]; split <;> simp
@[simp] theorem State.raiseIf_mirror (s : State) (c : Bool) (p : Nat) (e : Fld) : (s.raiseIf c p e).mirror = s.mirror := by
  simp only [State.raiseIf]; split <;> simp
@[simp] theorem State.raiseIf_flows (s : State) (c : Bool) (p : Nat) (e : Fld) : (s.raiseIf c p e).flows = s.flows := by
  simp only [State.raiseIf]; split <;> simp
@[simp] theorem State.raiseIf_dram (s : State) (c : Bool) (p : Nat) (e : Fld) : (s.raiseIf c p e).dram = s.dram := by
  simp only [State.raiseIf]; split <;> simp
@[simp] theorem State.raiseIf_time (s : State) (c : Bool) (p : Nat) (e : Fld) : (s.raiseIf c p e).time = s.time := by
  simp only [State.raiseIf]; split <;> simp
@[simp] theorem State.raiseIf_exposures (s : State) (c : Bool) (p : Nat) (e : Fld) : (s.raiseIf c p e).exposures = s.exposures := by
  simp only [State.raiseIf]; split <;> simp
@[simp] theorem State.reject_pending (s : State) (p : Nat) : (s.reject p).pending = s.pending := by simp [State.reject]
@[simp] theorem State.reject_out (s : State) (p : Nat) : (s.reject p).out = s.out := by simp [State.reject]
@[simp] theorem State.reject_seed (s : State) (p : Nat) : (s.reject p).seed = s.seed := by simp [State.reject]
@[simp] theorem State.reject_rsm (s : State) (p : Nat) : (s.reject p).rsm = s.rsm := by simp [State.reject]
@[simp] theorem State.reject_hq (s : State) (p : Nat) : (s.reject p).hq = s.hq := by simp [State.reject]
@[simp] theorem State.reject_portA (s : State) (p : Nat) : (s.reject p).portA = s.portA := by simp [State.reject]
@[simp] theorem State.reject_portB (s : State) (p : Nat) : (s.reject p).portB = s.portB := by simp [State.reject]
@[simp] theorem State.reject_ingress (s : State) (p : Nat) : (s.reject p).ingress = s.ingress := by simp [State.reject]
@[simp] theorem State.reject_fstore (s : State) (p : Nat) : (s.reject p).fstore = s.fstore := by simp [State.reject]
@[simp] theorem State.reject_split (s : State) (p : Nat) : (s.reject p).split = s.split := by simp [State.reject]
@[simp] theorem State.reject_draw (s : State) (p : Nat) : (s.reject p).draw = s.draw := by simp [State.reject]
@[simp] theorem State.reject_drdec (s : State) (p : Nat) : (s.reject p).drdec = s.drdec := by simp [State.reject]
@[simp] theorem State.reject_henc (s : State) (p : Nat) : (s.reject p).henc = s.henc := by simp [State.reject]
@[simp] theorem State.reject_hdec (s : State) (p : Nat) : (s.reject p).hdec = s.hdec := by simp [State.reject]
@[simp] theorem State.reject_media (s : State) (p : Nat) : (s.reject p).media = s.media := by simp [State.reject]
@[simp] theorem State.reject_stages (s : State) (p : Nat) : (s.reject p).stages = s.stages := by simp [State.reject]
@[simp] theorem State.reject_aud (s : State) (p : Nat) : (s.reject p).aud = s.aud := by simp [State.reject]
@[simp] theorem State.reject_coll (s : State) (p : Nat) : (s.reject p).coll = s.coll := by simp [State.reject]
@[simp] theorem State.reject_trig (s : State) (p : Nat) : (s.reject p).trig = s.trig := by simp [State.reject]
@[simp] theorem State.reject_cond (s : State) (p : Nat) : (s.reject p).cond = s.cond := by simp [State.reject]
@[simp] theorem State.reject_relay (s : State) (p : Nat) : (s.reject p).relay = s.relay := by simp [State.reject]
@[simp] theorem State.reject_dramc (s : State) (p : Nat) : (s.reject p).dramc = s.dramc := by simp [State.reject]
@[simp] theorem State.reject_fw (s : State) (p : Nat) : (s.reject p).fw = s.fw := by simp [State.reject]
@[simp] theorem State.reject_pwr (s : State) (p : Nat) : (s.reject p).pwr = s.pwr := by simp [State.reject]
@[simp] theorem State.reject_therm (s : State) (p : Nat) : (s.reject p).therm = s.therm := by simp [State.reject]
@[simp] theorem State.reject_array (s : State) (p : Nat) : (s.reject p).array = s.array := by simp [State.reject]
@[simp] theorem State.reject_loupe (s : State) (p : Nat) : (s.reject p).loupe = s.loupe := by simp [State.reject]
@[simp] theorem State.reject_mirror (s : State) (p : Nat) : (s.reject p).mirror = s.mirror := by simp [State.reject]
@[simp] theorem State.reject_flows (s : State) (p : Nat) : (s.reject p).flows = s.flows := by simp [State.reject]
@[simp] theorem State.reject_dram (s : State) (p : Nat) : (s.reject p).dram = s.dram := by simp [State.reject]
@[simp] theorem State.reject_time (s : State) (p : Nat) : (s.reject p).time = s.time := by simp [State.reject]
@[simp] theorem State.reject_exposures (s : State) (p : Nat) : (s.reject p).exposures = s.exposures := by simp [State.reject]

/-! ### Outputs and memory -/

@[simp] theorem State.emit_pending (s : State) (o : Out) : (s.emit o).pending = s.pending := rfl
@[simp] theorem State.emit_seed (s : State) (o : Out) : (s.emit o).seed = s.seed := rfl
@[simp] theorem State.emit_regs (s : State) (o : Out) : (s.emit o).regs = s.regs := rfl
@[simp] theorem State.emit_ctl (s : State) (o : Out) : (s.emit o).ctl = s.ctl := rfl
@[simp] theorem State.emit_rsm (s : State) (o : Out) : (s.emit o).rsm = s.rsm := rfl
@[simp] theorem State.emit_hq (s : State) (o : Out) : (s.emit o).hq = s.hq := rfl
@[simp] theorem State.emit_portA (s : State) (o : Out) : (s.emit o).portA = s.portA := rfl
@[simp] theorem State.emit_portB (s : State) (o : Out) : (s.emit o).portB = s.portB := rfl
@[simp] theorem State.emit_ingress (s : State) (o : Out) : (s.emit o).ingress = s.ingress := rfl
@[simp] theorem State.emit_fstore (s : State) (o : Out) : (s.emit o).fstore = s.fstore := rfl
@[simp] theorem State.emit_split (s : State) (o : Out) : (s.emit o).split = s.split := rfl
@[simp] theorem State.emit_draw (s : State) (o : Out) : (s.emit o).draw = s.draw := rfl
@[simp] theorem State.emit_drdec (s : State) (o : Out) : (s.emit o).drdec = s.drdec := rfl
@[simp] theorem State.emit_henc (s : State) (o : Out) : (s.emit o).henc = s.henc := rfl
@[simp] theorem State.emit_hdec (s : State) (o : Out) : (s.emit o).hdec = s.hdec := rfl
@[simp] theorem State.emit_media (s : State) (o : Out) : (s.emit o).media = s.media := rfl
@[simp] theorem State.emit_stages (s : State) (o : Out) : (s.emit o).stages = s.stages := rfl
@[simp] theorem State.emit_aud (s : State) (o : Out) : (s.emit o).aud = s.aud := rfl
@[simp] theorem State.emit_coll (s : State) (o : Out) : (s.emit o).coll = s.coll := rfl
@[simp] theorem State.emit_trig (s : State) (o : Out) : (s.emit o).trig = s.trig := rfl
@[simp] theorem State.emit_cond (s : State) (o : Out) : (s.emit o).cond = s.cond := rfl
@[simp] theorem State.emit_relay (s : State) (o : Out) : (s.emit o).relay = s.relay := rfl
@[simp] theorem State.emit_dramc (s : State) (o : Out) : (s.emit o).dramc = s.dramc := rfl
@[simp] theorem State.emit_fw (s : State) (o : Out) : (s.emit o).fw = s.fw := rfl
@[simp] theorem State.emit_pwr (s : State) (o : Out) : (s.emit o).pwr = s.pwr := rfl
@[simp] theorem State.emit_therm (s : State) (o : Out) : (s.emit o).therm = s.therm := rfl
@[simp] theorem State.emit_array (s : State) (o : Out) : (s.emit o).array = s.array := rfl
@[simp] theorem State.emit_loupe (s : State) (o : Out) : (s.emit o).loupe = s.loupe := rfl
@[simp] theorem State.emit_mirror (s : State) (o : Out) : (s.emit o).mirror = s.mirror := rfl
@[simp] theorem State.emit_flows (s : State) (o : Out) : (s.emit o).flows = s.flows := rfl
@[simp] theorem State.emit_dram (s : State) (o : Out) : (s.emit o).dram = s.dram := rfl
@[simp] theorem State.emit_time (s : State) (o : Out) : (s.emit o).time = s.time := rfl
@[simp] theorem State.emit_exposures (s : State) (o : Out) : (s.emit o).exposures = s.exposures := rfl
@[simp] theorem State.pokeN_pending (s : State) (a : Nat) (l : List Byte) : (s.pokeN a l).pending = s.pending := rfl
@[simp] theorem State.pokeN_out (s : State) (a : Nat) (l : List Byte) : (s.pokeN a l).out = s.out := rfl
@[simp] theorem State.pokeN_seed (s : State) (a : Nat) (l : List Byte) : (s.pokeN a l).seed = s.seed := rfl
@[simp] theorem State.pokeN_regs (s : State) (a : Nat) (l : List Byte) : (s.pokeN a l).regs = s.regs := rfl
@[simp] theorem State.pokeN_ctl (s : State) (a : Nat) (l : List Byte) : (s.pokeN a l).ctl = s.ctl := rfl
@[simp] theorem State.pokeN_rsm (s : State) (a : Nat) (l : List Byte) : (s.pokeN a l).rsm = s.rsm := rfl
@[simp] theorem State.pokeN_hq (s : State) (a : Nat) (l : List Byte) : (s.pokeN a l).hq = s.hq := rfl
@[simp] theorem State.pokeN_portA (s : State) (a : Nat) (l : List Byte) : (s.pokeN a l).portA = s.portA := rfl
@[simp] theorem State.pokeN_portB (s : State) (a : Nat) (l : List Byte) : (s.pokeN a l).portB = s.portB := rfl
@[simp] theorem State.pokeN_ingress (s : State) (a : Nat) (l : List Byte) : (s.pokeN a l).ingress = s.ingress := rfl
@[simp] theorem State.pokeN_fstore (s : State) (a : Nat) (l : List Byte) : (s.pokeN a l).fstore = s.fstore := rfl
@[simp] theorem State.pokeN_split (s : State) (a : Nat) (l : List Byte) : (s.pokeN a l).split = s.split := rfl
@[simp] theorem State.pokeN_draw (s : State) (a : Nat) (l : List Byte) : (s.pokeN a l).draw = s.draw := rfl
@[simp] theorem State.pokeN_drdec (s : State) (a : Nat) (l : List Byte) : (s.pokeN a l).drdec = s.drdec := rfl
@[simp] theorem State.pokeN_henc (s : State) (a : Nat) (l : List Byte) : (s.pokeN a l).henc = s.henc := rfl
@[simp] theorem State.pokeN_hdec (s : State) (a : Nat) (l : List Byte) : (s.pokeN a l).hdec = s.hdec := rfl
@[simp] theorem State.pokeN_media (s : State) (a : Nat) (l : List Byte) : (s.pokeN a l).media = s.media := rfl
@[simp] theorem State.pokeN_stages (s : State) (a : Nat) (l : List Byte) : (s.pokeN a l).stages = s.stages := rfl
@[simp] theorem State.pokeN_aud (s : State) (a : Nat) (l : List Byte) : (s.pokeN a l).aud = s.aud := rfl
@[simp] theorem State.pokeN_coll (s : State) (a : Nat) (l : List Byte) : (s.pokeN a l).coll = s.coll := rfl
@[simp] theorem State.pokeN_trig (s : State) (a : Nat) (l : List Byte) : (s.pokeN a l).trig = s.trig := rfl
@[simp] theorem State.pokeN_cond (s : State) (a : Nat) (l : List Byte) : (s.pokeN a l).cond = s.cond := rfl
@[simp] theorem State.pokeN_relay (s : State) (a : Nat) (l : List Byte) : (s.pokeN a l).relay = s.relay := rfl
@[simp] theorem State.pokeN_dramc (s : State) (a : Nat) (l : List Byte) : (s.pokeN a l).dramc = s.dramc := rfl
@[simp] theorem State.pokeN_fw (s : State) (a : Nat) (l : List Byte) : (s.pokeN a l).fw = s.fw := rfl
@[simp] theorem State.pokeN_pwr (s : State) (a : Nat) (l : List Byte) : (s.pokeN a l).pwr = s.pwr := rfl
@[simp] theorem State.pokeN_therm (s : State) (a : Nat) (l : List Byte) : (s.pokeN a l).therm = s.therm := rfl
@[simp] theorem State.pokeN_array (s : State) (a : Nat) (l : List Byte) : (s.pokeN a l).array = s.array := rfl
@[simp] theorem State.pokeN_loupe (s : State) (a : Nat) (l : List Byte) : (s.pokeN a l).loupe = s.loupe := rfl
@[simp] theorem State.pokeN_mirror (s : State) (a : Nat) (l : List Byte) : (s.pokeN a l).mirror = s.mirror := rfl
@[simp] theorem State.pokeN_flows (s : State) (a : Nat) (l : List Byte) : (s.pokeN a l).flows = s.flows := rfl
@[simp] theorem State.pokeN_time (s : State) (a : Nat) (l : List Byte) : (s.pokeN a l).time = s.time := rfl
@[simp] theorem State.pokeN_exposures (s : State) (a : Nat) (l : List Byte) : (s.pokeN a l).exposures = s.exposures := rfl
@[simp] theorem State.emit_out (s : State) (o : Out) : (s.emit o).out = o :: s.out := rfl

/-! ### Setters of a part -/

@[simp] theorem State.setHq_pending (s : State) (x : Hq) : (s.setHq x).pending = s.pending := rfl
@[simp] theorem State.setHq_out (s : State) (x : Hq) : (s.setHq x).out = s.out := rfl
@[simp] theorem State.setHq_seed (s : State) (x : Hq) : (s.setHq x).seed = s.seed := rfl
@[simp] theorem State.setHq_regs (s : State) (x : Hq) : (s.setHq x).regs = s.regs := rfl
@[simp] theorem State.setHq_ctl (s : State) (x : Hq) : (s.setHq x).ctl = s.ctl := rfl
@[simp] theorem State.setHq_dram (s : State) (x : Hq) : (s.setHq x).dram = s.dram := rfl
@[simp] theorem State.setHq_time (s : State) (x : Hq) : (s.setHq x).time = s.time := rfl
@[simp] theorem State.setHq_hq (s : State) (x : Hq) : (s.setHq x).hq = x := rfl
@[simp] theorem State.setIngress_pending (s : State) (x : IngressSt) : (s.setIngress x).pending = s.pending := rfl
@[simp] theorem State.setIngress_out (s : State) (x : IngressSt) : (s.setIngress x).out = s.out := rfl
@[simp] theorem State.setIngress_seed (s : State) (x : IngressSt) : (s.setIngress x).seed = s.seed := rfl
@[simp] theorem State.setIngress_regs (s : State) (x : IngressSt) : (s.setIngress x).regs = s.regs := rfl
@[simp] theorem State.setIngress_ctl (s : State) (x : IngressSt) : (s.setIngress x).ctl = s.ctl := rfl
@[simp] theorem State.setIngress_dram (s : State) (x : IngressSt) : (s.setIngress x).dram = s.dram := rfl
@[simp] theorem State.setIngress_time (s : State) (x : IngressSt) : (s.setIngress x).time = s.time := rfl
@[simp] theorem State.setIngress_ingress (s : State) (x : IngressSt) : (s.setIngress x).ingress = x := rfl
@[simp] theorem State.setRec_pending (s : State) (x : RecSt) : (s.setRec x).pending = s.pending := rfl
@[simp] theorem State.setRec_out (s : State) (x : RecSt) : (s.setRec x).out = s.out := rfl
@[simp] theorem State.setRec_seed (s : State) (x : RecSt) : (s.setRec x).seed = s.seed := rfl
@[simp] theorem State.setRec_regs (s : State) (x : RecSt) : (s.setRec x).regs = s.regs := rfl
@[simp] theorem State.setRec_ctl (s : State) (x : RecSt) : (s.setRec x).ctl = s.ctl := rfl
@[simp] theorem State.setRec_dram (s : State) (x : RecSt) : (s.setRec x).dram = s.dram := rfl
@[simp] theorem State.setRec_time (s : State) (x : RecSt) : (s.setRec x).time = s.time := rfl
@[simp] theorem State.setRec_media (s : State) (x : RecSt) : (s.setRec x).media = x := rfl
@[simp] theorem State.setColl_pending (s : State) (x : CollSt) : (s.setColl x).pending = s.pending := rfl
@[simp] theorem State.setColl_out (s : State) (x : CollSt) : (s.setColl x).out = s.out := rfl
@[simp] theorem State.setColl_seed (s : State) (x : CollSt) : (s.setColl x).seed = s.seed := rfl
@[simp] theorem State.setColl_regs (s : State) (x : CollSt) : (s.setColl x).regs = s.regs := rfl
@[simp] theorem State.setColl_ctl (s : State) (x : CollSt) : (s.setColl x).ctl = s.ctl := rfl
@[simp] theorem State.setColl_dram (s : State) (x : CollSt) : (s.setColl x).dram = s.dram := rfl
@[simp] theorem State.setColl_time (s : State) (x : CollSt) : (s.setColl x).time = s.time := rfl
@[simp] theorem State.setColl_coll (s : State) (x : CollSt) : (s.setColl x).coll = x := rfl
@[simp] theorem State.setCond_pending (s : State) (x : CondSt) : (s.setCond x).pending = s.pending := rfl
@[simp] theorem State.setCond_out (s : State) (x : CondSt) : (s.setCond x).out = s.out := rfl
@[simp] theorem State.setCond_seed (s : State) (x : CondSt) : (s.setCond x).seed = s.seed := rfl
@[simp] theorem State.setCond_regs (s : State) (x : CondSt) : (s.setCond x).regs = s.regs := rfl
@[simp] theorem State.setCond_ctl (s : State) (x : CondSt) : (s.setCond x).ctl = s.ctl := rfl
@[simp] theorem State.setCond_dram (s : State) (x : CondSt) : (s.setCond x).dram = s.dram := rfl
@[simp] theorem State.setCond_time (s : State) (x : CondSt) : (s.setCond x).time = s.time := rfl
@[simp] theorem State.setCond_cond (s : State) (x : CondSt) : (s.setCond x).cond = x := rfl
@[simp] theorem State.setDramc_pending (s : State) (x : DramSt) : (s.setDramc x).pending = s.pending := rfl
@[simp] theorem State.setDramc_out (s : State) (x : DramSt) : (s.setDramc x).out = s.out := rfl
@[simp] theorem State.setDramc_seed (s : State) (x : DramSt) : (s.setDramc x).seed = s.seed := rfl
@[simp] theorem State.setDramc_regs (s : State) (x : DramSt) : (s.setDramc x).regs = s.regs := rfl
@[simp] theorem State.setDramc_ctl (s : State) (x : DramSt) : (s.setDramc x).ctl = s.ctl := rfl
@[simp] theorem State.setDramc_dram (s : State) (x : DramSt) : (s.setDramc x).dram = s.dram := rfl
@[simp] theorem State.setDramc_time (s : State) (x : DramSt) : (s.setDramc x).time = s.time := rfl
@[simp] theorem State.setDramc_dramc (s : State) (x : DramSt) : (s.setDramc x).dramc = x := rfl
@[simp] theorem State.setFw_pending (s : State) (x : FwSt) : (s.setFw x).pending = s.pending := rfl
@[simp] theorem State.setFw_out (s : State) (x : FwSt) : (s.setFw x).out = s.out := rfl
@[simp] theorem State.setFw_seed (s : State) (x : FwSt) : (s.setFw x).seed = s.seed := rfl
@[simp] theorem State.setFw_regs (s : State) (x : FwSt) : (s.setFw x).regs = s.regs := rfl
@[simp] theorem State.setFw_ctl (s : State) (x : FwSt) : (s.setFw x).ctl = s.ctl := rfl
@[simp] theorem State.setFw_dram (s : State) (x : FwSt) : (s.setFw x).dram = s.dram := rfl
@[simp] theorem State.setFw_time (s : State) (x : FwSt) : (s.setFw x).time = s.time := rfl
@[simp] theorem State.setFw_fw (s : State) (x : FwSt) : (s.setFw x).fw = x := rfl
@[simp] theorem State.setPwr_pending (s : State) (x : PwrSt) : (s.setPwr x).pending = s.pending := rfl
@[simp] theorem State.setPwr_out (s : State) (x : PwrSt) : (s.setPwr x).out = s.out := rfl
@[simp] theorem State.setPwr_seed (s : State) (x : PwrSt) : (s.setPwr x).seed = s.seed := rfl
@[simp] theorem State.setPwr_regs (s : State) (x : PwrSt) : (s.setPwr x).regs = s.regs := rfl
@[simp] theorem State.setPwr_ctl (s : State) (x : PwrSt) : (s.setPwr x).ctl = s.ctl := rfl
@[simp] theorem State.setPwr_dram (s : State) (x : PwrSt) : (s.setPwr x).dram = s.dram := rfl
@[simp] theorem State.setPwr_time (s : State) (x : PwrSt) : (s.setPwr x).time = s.time := rfl
@[simp] theorem State.setPwr_pwr (s : State) (x : PwrSt) : (s.setPwr x).pwr = x := rfl
@[simp] theorem State.setTherm_pending (s : State) (x : ThermSt) : (s.setTherm x).pending = s.pending := rfl
@[simp] theorem State.setTherm_out (s : State) (x : ThermSt) : (s.setTherm x).out = s.out := rfl
@[simp] theorem State.setTherm_seed (s : State) (x : ThermSt) : (s.setTherm x).seed = s.seed := rfl
@[simp] theorem State.setTherm_regs (s : State) (x : ThermSt) : (s.setTherm x).regs = s.regs := rfl
@[simp] theorem State.setTherm_ctl (s : State) (x : ThermSt) : (s.setTherm x).ctl = s.ctl := rfl
@[simp] theorem State.setTherm_dram (s : State) (x : ThermSt) : (s.setTherm x).dram = s.dram := rfl
@[simp] theorem State.setTherm_time (s : State) (x : ThermSt) : (s.setTherm x).time = s.time := rfl
@[simp] theorem State.setTherm_therm (s : State) (x : ThermSt) : (s.setTherm x).therm = x := rfl
@[simp] theorem State.setTrig_pending (s : State) (x : TrigSt) : (s.setTrig x).pending = s.pending := rfl
@[simp] theorem State.setTrig_out (s : State) (x : TrigSt) : (s.setTrig x).out = s.out := rfl
@[simp] theorem State.setTrig_seed (s : State) (x : TrigSt) : (s.setTrig x).seed = s.seed := rfl
@[simp] theorem State.setTrig_regs (s : State) (x : TrigSt) : (s.setTrig x).regs = s.regs := rfl
@[simp] theorem State.setTrig_ctl (s : State) (x : TrigSt) : (s.setTrig x).ctl = s.ctl := rfl
@[simp] theorem State.setTrig_dram (s : State) (x : TrigSt) : (s.setTrig x).dram = s.dram := rfl
@[simp] theorem State.setTrig_time (s : State) (x : TrigSt) : (s.setTrig x).time = s.time := rfl
@[simp] theorem State.setTrig_trig (s : State) (x : TrigSt) : (s.setTrig x).trig = x := rfl
@[simp] theorem State.setRelay_pending (s : State) (x : RelaySt) : (s.setRelay x).pending = s.pending := rfl
@[simp] theorem State.setRelay_out (s : State) (x : RelaySt) : (s.setRelay x).out = s.out := rfl
@[simp] theorem State.setRelay_seed (s : State) (x : RelaySt) : (s.setRelay x).seed = s.seed := rfl
@[simp] theorem State.setRelay_regs (s : State) (x : RelaySt) : (s.setRelay x).regs = s.regs := rfl
@[simp] theorem State.setRelay_ctl (s : State) (x : RelaySt) : (s.setRelay x).ctl = s.ctl := rfl
@[simp] theorem State.setRelay_dram (s : State) (x : RelaySt) : (s.setRelay x).dram = s.dram := rfl
@[simp] theorem State.setRelay_time (s : State) (x : RelaySt) : (s.setRelay x).time = s.time := rfl
@[simp] theorem State.setRelay_relay (s : State) (x : RelaySt) : (s.setRelay x).relay = x := rfl
@[simp] theorem State.putAud_pending (s : State) (p : Nat) (x : AudSt) : (s.putAud p x).pending = s.pending := rfl
@[simp] theorem State.putAud_out (s : State) (p : Nat) (x : AudSt) : (s.putAud p x).out = s.out := rfl
@[simp] theorem State.putAud_seed (s : State) (p : Nat) (x : AudSt) : (s.putAud p x).seed = s.seed := rfl
@[simp] theorem State.putAud_regs (s : State) (p : Nat) (x : AudSt) : (s.putAud p x).regs = s.regs := rfl
@[simp] theorem State.putAud_ctl (s : State) (p : Nat) (x : AudSt) : (s.putAud p x).ctl = s.ctl := rfl
@[simp] theorem State.putAud_dram (s : State) (p : Nat) (x : AudSt) : (s.putAud p x).dram = s.dram := rfl
@[simp] theorem State.putAud_time (s : State) (p : Nat) (x : AudSt) : (s.putAud p x).time = s.time := rfl
@[simp] theorem State.putAud_aud (s : State) (p : Nat) (x : AudSt) : (s.putAud p x).aud = s.aud.put p x := rfl
@[simp] theorem State.putDec_pending (s : State) (p : Nat) (x : HdecSt) : (s.putDec p x).pending = s.pending := rfl
@[simp] theorem State.putDec_out (s : State) (p : Nat) (x : HdecSt) : (s.putDec p x).out = s.out := rfl
@[simp] theorem State.putDec_seed (s : State) (p : Nat) (x : HdecSt) : (s.putDec p x).seed = s.seed := rfl
@[simp] theorem State.putDec_regs (s : State) (p : Nat) (x : HdecSt) : (s.putDec p x).regs = s.regs := rfl
@[simp] theorem State.putDec_ctl (s : State) (p : Nat) (x : HdecSt) : (s.putDec p x).ctl = s.ctl := rfl
@[simp] theorem State.putDec_dram (s : State) (p : Nat) (x : HdecSt) : (s.putDec p x).dram = s.dram := rfl
@[simp] theorem State.putDec_time (s : State) (p : Nat) (x : HdecSt) : (s.putDec p x).time = s.time := rfl
@[simp] theorem State.putDec_hdec (s : State) (p : Nat) (x : HdecSt) : (s.putDec p x).hdec = s.hdec.put p x := rfl
@[simp] theorem State.putStream_pending (s : State) (p : Nat) (x : HencSt) : (s.putStream p x).pending = s.pending := rfl
@[simp] theorem State.putStream_out (s : State) (p : Nat) (x : HencSt) : (s.putStream p x).out = s.out := rfl
@[simp] theorem State.putStream_seed (s : State) (p : Nat) (x : HencSt) : (s.putStream p x).seed = s.seed := rfl
@[simp] theorem State.putStream_regs (s : State) (p : Nat) (x : HencSt) : (s.putStream p x).regs = s.regs := rfl
@[simp] theorem State.putStream_ctl (s : State) (p : Nat) (x : HencSt) : (s.putStream p x).ctl = s.ctl := rfl
@[simp] theorem State.putStream_dram (s : State) (p : Nat) (x : HencSt) : (s.putStream p x).dram = s.dram := rfl
@[simp] theorem State.putStream_time (s : State) (p : Nat) (x : HencSt) : (s.putStream p x).time = s.time := rfl
@[simp] theorem State.putStream_henc (s : State) (p : Nat) (x : HencSt) : (s.putStream p x).henc = s.henc.put p x := rfl
@[simp] theorem State.putEngine_pending (s : State) (p : Nat) (x : LoupeSt) : (s.putEngine p x).pending = s.pending := rfl
@[simp] theorem State.putEngine_out (s : State) (p : Nat) (x : LoupeSt) : (s.putEngine p x).out = s.out := rfl
@[simp] theorem State.putEngine_seed (s : State) (p : Nat) (x : LoupeSt) : (s.putEngine p x).seed = s.seed := rfl
@[simp] theorem State.putEngine_regs (s : State) (p : Nat) (x : LoupeSt) : (s.putEngine p x).regs = s.regs := rfl
@[simp] theorem State.putEngine_ctl (s : State) (p : Nat) (x : LoupeSt) : (s.putEngine p x).ctl = s.ctl := rfl
@[simp] theorem State.putEngine_dram (s : State) (p : Nat) (x : LoupeSt) : (s.putEngine p x).dram = s.dram := rfl
@[simp] theorem State.putEngine_time (s : State) (p : Nat) (x : LoupeSt) : (s.putEngine p x).time = s.time := rfl
@[simp] theorem State.putEngine_loupe (s : State) (p : Nat) (x : LoupeSt) : (s.putEngine p x).loupe = s.loupe.put p x := rfl
@[simp] theorem State.putMirror_pending (s : State) (p : Nat) (x : MirrorSt) : (s.putMirror p x).pending = s.pending := rfl
@[simp] theorem State.putMirror_out (s : State) (p : Nat) (x : MirrorSt) : (s.putMirror p x).out = s.out := rfl
@[simp] theorem State.putMirror_seed (s : State) (p : Nat) (x : MirrorSt) : (s.putMirror p x).seed = s.seed := rfl
@[simp] theorem State.putMirror_regs (s : State) (p : Nat) (x : MirrorSt) : (s.putMirror p x).regs = s.regs := rfl
@[simp] theorem State.putMirror_ctl (s : State) (p : Nat) (x : MirrorSt) : (s.putMirror p x).ctl = s.ctl := rfl
@[simp] theorem State.putMirror_dram (s : State) (p : Nat) (x : MirrorSt) : (s.putMirror p x).dram = s.dram := rfl
@[simp] theorem State.putMirror_time (s : State) (p : Nat) (x : MirrorSt) : (s.putMirror p x).time = s.time := rfl
@[simp] theorem State.putMirror_mirror (s : State) (p : Nat) (x : MirrorSt) : (s.putMirror p x).mirror = s.mirror.put p x := rfl
@[simp] theorem State.putFlow_pending (s : State) (p : Nat) (x : FlowSt) : (s.putFlow p x).pending = s.pending := rfl
@[simp] theorem State.putFlow_out (s : State) (p : Nat) (x : FlowSt) : (s.putFlow p x).out = s.out := rfl
@[simp] theorem State.putFlow_seed (s : State) (p : Nat) (x : FlowSt) : (s.putFlow p x).seed = s.seed := rfl
@[simp] theorem State.putFlow_regs (s : State) (p : Nat) (x : FlowSt) : (s.putFlow p x).regs = s.regs := rfl
@[simp] theorem State.putFlow_ctl (s : State) (p : Nat) (x : FlowSt) : (s.putFlow p x).ctl = s.ctl := rfl
@[simp] theorem State.putFlow_dram (s : State) (p : Nat) (x : FlowSt) : (s.putFlow p x).dram = s.dram := rfl
@[simp] theorem State.putFlow_time (s : State) (p : Nat) (x : FlowSt) : (s.putFlow p x).time = s.time := rfl
@[simp] theorem State.putFlow_flows (s : State) (p : Nat) (x : FlowSt) : (s.putFlow p x).flows = s.flows.put p x := rfl
@[simp] theorem State.putSq_pending (s : State) (k : Nat) (q : Sq) : (s.putSq k q).pending = s.pending := rfl
@[simp] theorem State.putSq_out (s : State) (k : Nat) (q : Sq) : (s.putSq k q).out = s.out := rfl
@[simp] theorem State.putSq_seed (s : State) (k : Nat) (q : Sq) : (s.putSq k q).seed = s.seed := rfl
@[simp] theorem State.putSq_regs (s : State) (k : Nat) (q : Sq) : (s.putSq k q).regs = s.regs := rfl
@[simp] theorem State.putSq_ctl (s : State) (k : Nat) (q : Sq) : (s.putSq k q).ctl = s.ctl := rfl
@[simp] theorem State.putSq_dram (s : State) (k : Nat) (q : Sq) : (s.putSq k q).dram = s.dram := rfl
@[simp] theorem State.putSq_time (s : State) (k : Nat) (q : Sq) : (s.putSq k q).time = s.time := rfl
@[simp] theorem State.putCq_pending (s : State) (k : Nat) (q : Cq) : (s.putCq k q).pending = s.pending := rfl
@[simp] theorem State.putCq_out (s : State) (k : Nat) (q : Cq) : (s.putCq k q).out = s.out := rfl
@[simp] theorem State.putCq_seed (s : State) (k : Nat) (q : Cq) : (s.putCq k q).seed = s.seed := rfl
@[simp] theorem State.putCq_regs (s : State) (k : Nat) (q : Cq) : (s.putCq k q).regs = s.regs := rfl
@[simp] theorem State.putCq_ctl (s : State) (k : Nat) (q : Cq) : (s.putCq k q).ctl = s.ctl := rfl
@[simp] theorem State.putCq_dram (s : State) (k : Nat) (q : Cq) : (s.putCq k q).dram = s.dram := rfl
@[simp] theorem State.putCq_time (s : State) (k : Nat) (q : Cq) : (s.putCq k q).time = s.time := rfl
@[simp] theorem State.putCmd_pending (s : State) (k : Nat) (q : Cmd) : (s.putCmd k q).pending = s.pending := rfl
@[simp] theorem State.putCmd_out (s : State) (k : Nat) (q : Cmd) : (s.putCmd k q).out = s.out := rfl
@[simp] theorem State.putCmd_seed (s : State) (k : Nat) (q : Cmd) : (s.putCmd k q).seed = s.seed := rfl
@[simp] theorem State.putCmd_regs (s : State) (k : Nat) (q : Cmd) : (s.putCmd k q).regs = s.regs := rfl
@[simp] theorem State.putCmd_ctl (s : State) (k : Nat) (q : Cmd) : (s.putCmd k q).ctl = s.ctl := rfl
@[simp] theorem State.putCmd_dram (s : State) (k : Nat) (q : Cmd) : (s.putCmd k q).dram = s.dram := rfl
@[simp] theorem State.putCmd_time (s : State) (k : Nat) (q : Cmd) : (s.putCmd k q).time = s.time := rfl
@[simp] theorem State.setReel_pending (s : State) (x : ReelSt) : (s.setReel x).pending = s.pending := rfl
@[simp] theorem State.setReel_out (s : State) (x : ReelSt) : (s.setReel x).out = s.out := rfl
@[simp] theorem State.setReel_seed (s : State) (x : ReelSt) : (s.setReel x).seed = s.seed := rfl
@[simp] theorem State.setReel_regs (s : State) (x : ReelSt) : (s.setReel x).regs = s.regs := rfl
@[simp] theorem State.setReel_ctl (s : State) (x : ReelSt) : (s.setReel x).ctl = s.ctl := rfl
@[simp] theorem State.setReel_dram (s : State) (x : ReelSt) : (s.setReel x).dram = s.dram := rfl
@[simp] theorem State.setReel_time (s : State) (x : ReelSt) : (s.setReel x).time = s.time := rfl
@[simp] theorem State.putDrive_pending (s : State) (k : Nat) (x : DriveSt) : (s.putDrive k x).pending = s.pending := rfl
@[simp] theorem State.putDrive_out (s : State) (k : Nat) (x : DriveSt) : (s.putDrive k x).out = s.out := rfl
@[simp] theorem State.putDrive_seed (s : State) (k : Nat) (x : DriveSt) : (s.putDrive k x).seed = s.seed := rfl
@[simp] theorem State.putDrive_regs (s : State) (k : Nat) (x : DriveSt) : (s.putDrive k x).regs = s.regs := rfl
@[simp] theorem State.putDrive_ctl (s : State) (k : Nat) (x : DriveSt) : (s.putDrive k x).ctl = s.ctl := rfl
@[simp] theorem State.putDrive_dram (s : State) (k : Nat) (x : DriveSt) : (s.putDrive k x).dram = s.dram := rfl
@[simp] theorem State.putDrive_time (s : State) (k : Nat) (x : DriveSt) : (s.putDrive k x).time = s.time := rfl
@[simp] theorem State.putSlot_pending (s : State) (k : Nat) (x : RingSlot) : (s.putSlot k x).pending = s.pending := rfl
@[simp] theorem State.putSlot_out (s : State) (k : Nat) (x : RingSlot) : (s.putSlot k x).out = s.out := rfl
@[simp] theorem State.putSlot_seed (s : State) (k : Nat) (x : RingSlot) : (s.putSlot k x).seed = s.seed := rfl
@[simp] theorem State.putSlot_regs (s : State) (k : Nat) (x : RingSlot) : (s.putSlot k x).regs = s.regs := rfl
@[simp] theorem State.putSlot_ctl (s : State) (k : Nat) (x : RingSlot) : (s.putSlot k x).ctl = s.ctl := rfl
@[simp] theorem State.putSlot_dram (s : State) (k : Nat) (x : RingSlot) : (s.putSlot k x).dram = s.dram := rfl
@[simp] theorem State.putSlot_time (s : State) (k : Nat) (x : RingSlot) : (s.putSlot k x).time = s.time := rfl
@[simp] theorem State.setOpen_pending (s : State) (x : Option OpenFrame) : (s.setOpen x).pending = s.pending := rfl
@[simp] theorem State.setOpen_out (s : State) (x : Option OpenFrame) : (s.setOpen x).out = s.out := rfl
@[simp] theorem State.setOpen_seed (s : State) (x : Option OpenFrame) : (s.setOpen x).seed = s.seed := rfl
@[simp] theorem State.setOpen_regs (s : State) (x : Option OpenFrame) : (s.setOpen x).regs = s.regs := rfl
@[simp] theorem State.setOpen_ctl (s : State) (x : Option OpenFrame) : (s.setOpen x).ctl = s.ctl := rfl
@[simp] theorem State.setOpen_dram (s : State) (x : Option OpenFrame) : (s.setOpen x).dram = s.dram := rfl
@[simp] theorem State.setOpen_time (s : State) (x : Option OpenFrame) : (s.setOpen x).time = s.time := rfl
@[simp] theorem State.setPort_pending (s : State) (k : Nat) (p : PortSt) : (s.setPort k p).pending = s.pending := by
  simp only [State.setPort]; split <;> rfl
@[simp] theorem State.setPort_out (s : State) (k : Nat) (p : PortSt) : (s.setPort k p).out = s.out := by
  simp only [State.setPort]; split <;> rfl
@[simp] theorem State.setPort_seed (s : State) (k : Nat) (p : PortSt) : (s.setPort k p).seed = s.seed := by
  simp only [State.setPort]; split <;> rfl
@[simp] theorem State.setPort_regs (s : State) (k : Nat) (p : PortSt) : (s.setPort k p).regs = s.regs := by
  simp only [State.setPort]; split <;> rfl
@[simp] theorem State.setPort_ctl (s : State) (k : Nat) (p : PortSt) : (s.setPort k p).ctl = s.ctl := by
  simp only [State.setPort]; split <;> rfl
@[simp] theorem State.setPort_dram (s : State) (k : Nat) (p : PortSt) : (s.setPort k p).dram = s.dram := by
  simp only [State.setPort]; split <;> rfl
@[simp] theorem State.setPort_time (s : State) (k : Nat) (p : PortSt) : (s.setPort k p).time = s.time := by
  simp only [State.setPort]; split <;> rfl

end Sys2Proof.Machine
end

