-- ==== Sys2Proof/Laws/Word.lean ====
section
/-! SUPPORT. Laws of bit fields, sparse maps, tables and byte memories: a read after a write to the same place gives the value written, a write
leaves every other place alone, and every operation keeps the canonical form. -/

set_option Elab.async false

namespace Sys2Proof

/-! ### Bit fields -/

theorem Word.getLsbD_mask (lo width i : Nat) (h : i < 32) :
    (Word.mask lo width).getLsbD i = (decide (lo ≤ i) && decide (i < lo + width)) := by
  simp only [Word.mask, BitVec.getLsbD_ofNat, h, decide_true, Bool.true_and, Nat.testBit_mul_two_pow, Nat.testBit_two_pow_sub_one]
  by_cases h1 : lo ≤ i
  · simp only [h1, decide_true, Bool.true_and]
    congr 1
    exact propext ⟨fun _ => by omega, fun _ => by omega⟩
  · simp [h1]

theorem Word.testBit_bits (w : Word) (lo width i : Nat) :
    (Word.bits w lo width).testBit i = (decide (i < width) && w.getLsbD (lo + i)) := by
  simp only [Word.bits, Nat.testBit_mod_two_pow, Nat.testBit_div_two_pow, BitVec.getLsbD]
  rw [Nat.add_comm]

theorem Word.getLsbD_setBits (w : Word) (lo width v i : Nat) (h : i < 32) :
    (Word.setBits w lo width v).getLsbD i
      = if lo ≤ i ∧ i < lo + width then v.testBit (i - lo) else w.getLsbD i := by
  simp only [Word.setBits, BitVec.getLsbD_or, BitVec.getLsbD_and, BitVec.getLsbD_not, Word.getLsbD_mask _ _ _ h, BitVec.getLsbD_ofNat, h,
    decide_true, Bool.true_and, Nat.testBit_mul_two_pow, Nat.testBit_mod_two_pow]
  by_cases h1 : lo ≤ i
  · by_cases h2 : i < lo + width
    · have h3 : i - lo < width := by omega
      simp [h1, h2, h3]
    · simp [h1, h2]
  · simp [h1]

/-- A field set reads as the low bits of what was set. -/
theorem Word.bits_setBits (w : Word) (lo width v : Nat) (h : lo + width ≤ 32) :
    Word.bits (Word.setBits w lo width v) lo width = v % 2 ^ width := by
  apply Nat.eq_of_testBit_eq
  intro i
  rw [Word.testBit_bits, Nat.testBit_mod_two_pow]
  by_cases hi : i < width
  · rw [Word.getLsbD_setBits _ _ _ _ _ (by omega)]
    have : lo + i < lo + width := by omega
    simp [hi, this]
  · simp [hi]

/-- A field set leaves the fields beside it. -/
theorem Word.bits_setBits_of_disjoint (w : Word) (lo width v lo' width' : Nat) (hw : lo' + width' ≤ 32)
    (h : lo + width ≤ lo' ∨ lo' + width' ≤ lo) :
    Word.bits (Word.setBits w lo width v) lo' width' = Word.bits w lo' width' := by
  apply Nat.eq_of_testBit_eq
  intro i
  rw [Word.testBit_bits, Word.testBit_bits]
  by_cases hi : i < width'
  · rw [Word.getLsbD_setBits _ _ _ _ _ (by omega), if_neg (by omega)]
  · simp [hi]

theorem Word.bits_lt (w : Word) (lo width : Nat) : Word.bits w lo width < 2 ^ width := Nat.mod_lt _ (Nat.two_pow_pos _)

/-! ### Sparse maps -/

namespace Sparse

variable {α : Type}

theorem read_erase (d : Nat → α) (m : List (Nat × α)) (k k' : Nat) :
    read d (erase m k) k' = if k' = k then d k' else read d m k' := by
  induction m with
  | nil => simp [erase, read]
  | cons e t ih =>
    obtain ⟨a, v⟩ := e
    simp only [erase]
    by_cases h : a = k
    · subst h
      rw [if_pos rfl, ih]
      by_cases h2 : k' = a
      · simp [h2]
      · rw [if_neg h2, if_neg h2, read, if_neg (fun e => h2 e.symm)]
    · rw [if_neg h, read, ih]
      by_cases h2 : a = k'
      · subst h2; simp [h, read]
      · simp [h2, read]

theorem read_place (d : Nat → α) (m : List (Nat × α)) (k : Nat) (v : α) (k' : Nat) (hk : ∀ e ∈ m, e.1 ≠ k) :
    read d (place k v m) k' = if k' = k then v else read d m k' := by
  induction m with
  | nil =>
    by_cases h : k' = k
    · simp [place, read, h]
    · have h' : ¬ k = k' := fun e => h e.symm
      simp [place, read, h, h']
  | cons e t ih =>
    obtain ⟨a, w⟩ := e
    have ha : a ≠ k := hk (a, w) (by simp)
    have ht := ih fun e he => hk e (by simp [he])
    simp only [place]
    split
    · by_cases h : k' = k
      · simp [read, h]
      · have h' : ¬ k = k' := fun e => h e.symm
        simp [read, h, h']
    · rw [read, ht]
      by_cases h : a = k'
      · subst h; simp [read, ha]
      · simp [read, h]

theorem erase_no_key (m : List (Nat × α)) (k : Nat) : ∀ e ∈ erase m k, e.1 ≠ k := by
  induction m with
  | nil => simp [erase]
  | cons e t ih =>
    obtain ⟨a, v⟩ := e
    simp only [erase]
    split
    · exact ih
    · intro e he
      simp only [List.mem_cons] at he
      rcases he with rfl | he
      · assumption
      · exact ih e he

variable [DecidableEq α]

/-- Reading after writing one key. -/
theorem read_write (d : Nat → α) (m : List (Nat × α)) (k : Nat) (v : α) (k' : Nat) :
    read d (write d m k v) k' = if k' = k then v else read d m k' := by
  simp only [write]
  split
  · rename_i h
    rw [read_erase]
    by_cases h2 : k' = k
    · simp [h2, h]
    · simp [h2]
  · rw [read_place _ _ _ _ _ (erase_no_key m k)]
    by_cases h2 : k' = k
    · simp [h2]
    · rw [if_neg h2, if_neg h2, read_erase, if_neg h2]

/-- The canonical form as a statement about keys and values. -/
theorem wf_iff (d : Nat → α) (m : List (Nat × α)) :
    wf d m = true ↔ m.Pairwise (fun a b => a.1 < b.1) ∧ ∀ e ∈ m, e.2 ≠ d e.1 := by
  induction m with
  | nil => simp [wf]
  | cons e t ih =>
    obtain ⟨a, v⟩ := e
    cases t with
    | nil => simp [wf]
    | cons e' t' =>
      obtain ⟨a', v'⟩ := e'
      rw [wf]
      simp only [Bool.and_eq_true, Bool.not_eq_true', decide_eq_false_iff_not, decide_eq_true_eq]
      rw [ih]
      constructor
      · rintro ⟨⟨h1, h2⟩, h3, h4⟩
        refine ⟨List.pairwise_cons.2 ⟨?_, h3⟩, ?_⟩
        · intro e he
          rcases List.mem_cons.1 he with rfl | he
          · exact h2
          · exact lt_trans h2 ((List.pairwise_cons.1 h3).1 e he)
        · intro e he
          rcases List.mem_cons.1 he with rfl | he
          · exact h1
          · exact h4 e he
      · rintro ⟨h1, h2⟩
        have h1' := List.pairwise_cons.1 h1
        exact ⟨⟨h2 (a, v) (by simp), h1'.1 (a', v') (by simp)⟩, h1'.2, fun e he => h2 e (by simp only [List.mem_cons] at he ⊢; tauto)⟩

omit [DecidableEq α] in
theorem erase_sublist (m : List (Nat × α)) (k : Nat) : (erase m k).Sublist m := by
  induction m with
  | nil => simp [erase]
  | cons e t ih =>
    obtain ⟨a, v⟩ := e
    simp only [erase]
    split
    · exact List.Sublist.cons _ ih
    · exact List.Sublist.cons_cons _ ih

omit [DecidableEq α] in
theorem mem_place (k : Nat) (v : α) (m : List (Nat × α)) (e : Nat × α) : e ∈ place k v m ↔ e = (k, v) ∨ e ∈ m := by
  induction m with
  | nil => simp [place]
  | cons x t ih =>
    obtain ⟨a, w⟩ := x
    simp only [place]
    split
    · simp
    · simp only [List.mem_cons, ih]; tauto

omit [DecidableEq α] in
theorem place_pairwise (k : Nat) (v : α) (m : List (Nat × α)) (h : m.Pairwise (fun a b => a.1 < b.1)) (hk : ∀ e ∈ m, e.1 ≠ k) :
    (place k v m).Pairwise (fun a b => a.1 < b.1) := by
  induction m with
  | nil => simp [place]
  | cons x t ih =>
    obtain ⟨a, w⟩ := x
    have h' := List.pairwise_cons.1 h
    simp only [place]
    split
    · rename_i hlt
      refine List.pairwise_cons.2 ⟨?_, h⟩
      intro e he
      rcases List.mem_cons.1 he with rfl | he
      · exact hlt
      · exact lt_trans hlt (h'.1 e he)
    · rename_i hge
      have hne : a ≠ k := hk (a, w) (by simp)
      refine List.pairwise_cons.2 ⟨?_, ih h'.2 fun e he => hk e (by simp [he])⟩
      intro e he
      rcases (mem_place k v t e).1 he with rfl | he
      · show a < k
        omega
      · exact h'.1 e he

/-- A sublist of a map in canonical form is in canonical form. -/
theorem wf_of_sublist {d : Nat → α} {m m' : List (Nat × α)} (hs : m'.Sublist m) (h : wf d m = true) : wf d m' = true := by
  rw [wf_iff] at *
  exact ⟨h.1.sublist hs, fun e he => h.2 e (hs.subset he)⟩

/-- A filtered map in canonical form is in canonical form. -/
theorem wf_filter {d : Nat → α} {m : List (Nat × α)} (p : Nat × α → Bool) (h : wf d m = true) : wf d (m.filter p) = true :=
  wf_of_sublist List.filter_sublist h

/-- A write keeps the canonical form. -/
theorem wf_write {d : Nat → α} {m : List (Nat × α)} (k : Nat) (v : α) (h : wf d m = true) : wf d (write d m k v) = true := by
  have he := wf_of_sublist (erase_sublist m k) h
  simp only [write]
  split
  · exact he
  · rename_i hv
    rw [wf_iff] at *
    refine ⟨place_pairwise _ _ _ he.1 (erase_no_key m k), fun e hm => ?_⟩
    rcases (mem_place _ _ _ _).1 hm with rfl | hm
    · exact hv
    · exact he.2 e hm

theorem wf_nil (d : Nat → α) : wf d [] = true := rfl

end Sparse

/-! ### Tables -/

theorem Tbl.get_put {α : Type} [Inhabited α] [DecidableEq α] (t : Tbl α) (k : Nat) (v : α) (k' : Nat) :
    (t.put k v).get k' = if k' = k then v else t.get k' := Sparse.read_write _ _ _ _ _

@[simp] theorem Tbl.get_put_same {α : Type} [Inhabited α] [DecidableEq α] (t : Tbl α) (k : Nat) (v : α) : (t.put k v).get k = v := by
  simp [Tbl.get_put]

theorem Tbl.get_put_ne {α : Type} [Inhabited α] [DecidableEq α] (t : Tbl α) (k : Nat) (v : α) (k' : Nat) (h : k' ≠ k) :
    (t.put k v).get k' = t.get k' := by simp [Tbl.get_put, h]

/-! ### Byte memories -/

namespace Bytes

theorem mem_listed (a : Nat) (l : List Byte) (e : Nat × Byte) (h : e ∈ listed a l) : a ≤ e.1 ∧ e.1 < a + l.length ∧ e.2 ≠ 0 := by
  induction l generalizing a with
  | nil => simp [listed] at h
  | cons b bs ih =>
    simp only [listed] at h
    split at h
    · have := ih _ h
      simp only [List.length_cons]
      exact ⟨by omega, by omega, this.2.2⟩
    · rcases List.mem_cons.1 h with rfl | h
      · simp only [List.length_cons]
        exact ⟨le_refl _, by show a < _; omega, by assumption⟩
      · have := ih _ h
        simp only [List.length_cons]
        exact ⟨by omega, by omega, this.2.2⟩

theorem listed_pairwise (a : Nat) (l : List Byte) : (listed a l).Pairwise (fun x y => x.1 < y.1) := by
  induction l generalizing a with
  | nil => simp [listed]
  | cons b bs ih =>
    simp only [listed]
    split
    · exact ih _
    · refine List.pairwise_cons.2 ⟨fun e he => ?_, ih _⟩
      have := mem_listed _ _ _ he
      show a < e.1
      omega

/-- Writing bytes keeps the canonical form. -/
theorem wf_setN {m : Bytes} (a : Nat) (l : List Byte) (h : Sparse.wf (fun _ => (0 : Byte)) m = true) :
    Sparse.wf (fun _ => (0 : Byte)) (m.setN a l) = true := by
  rw [Sparse.wf_iff] at *
  obtain ⟨h1, h2⟩ := h
  constructor
  · simp only [setN]
    rw [List.pairwise_append, List.pairwise_append]
    refine ⟨⟨h1.sublist List.filter_sublist, listed_pairwise a l, ?_⟩, h1.sublist List.filter_sublist, ?_⟩
    · intro x hx y hy
      have := mem_listed _ _ _ hy
      simp only [List.mem_filter, decide_eq_true_eq] at hx
      omega
    · intro x hx y hy
      simp only [List.mem_filter, decide_eq_true_eq, List.mem_append] at hx hy
      rcases hx with hx | hx
      · omega
      · have := mem_listed _ _ _ hx
        omega
  · intro e he
    simp only [setN, List.mem_append, List.mem_filter] at he
    rcases he with (he | he) | he
    · exact h2 e he.1
    · exact (mem_listed _ _ _ he).2.2
    · exact h2 e he.1

theorem read_append (x y : Bytes) (k : Nat) :
    get (x ++ y) k = if (∃ e ∈ x, e.1 = k) then get x k else get y k := by
  induction x with
  | nil => simp
  | cons e t ih =>
    obtain ⟨a, v⟩ := e
    by_cases h : a = k
    · simp [get, Sparse.read, h]
    · have hs : (∃ e ∈ (a, v) :: t, e.1 = k) ↔ ∃ e ∈ t, e.1 = k := by
        constructor
        · rintro ⟨e, he, hk⟩
          rcases List.mem_cons.1 he with rfl | he
          · exact absurd hk h
          · exact ⟨e, he, hk⟩
        · rintro ⟨e, he, hk⟩
          exact ⟨e, by simp [he], hk⟩
      have h1 : get ((a, v) :: t ++ y) k = get (t ++ y) k := by simp [get, Sparse.read, h]
      have h2 : get ((a, v) :: t) k = get t k := by simp [get, Sparse.read, h]
      rw [h1, h2, ih]
      simp only [hs]

theorem get_of_no_key (m : Bytes) (k : Nat) (h : ∀ e ∈ m, e.1 ≠ k) : get m k = 0 := by
  induction m with
  | nil => rfl
  | cons e t ih =>
    obtain ⟨a, v⟩ := e
    have : a ≠ k := h (a, v) (by simp)
    simp only [get, Sparse.read, if_neg this]
    exact ih fun e he => h e (by simp [he])

theorem get_filter (m : Bytes) (p : Nat → Bool) (k : Nat) :
    get (m.filter fun e => p e.1) k = if p k then get m k else 0 := by
  induction m with
  | nil => simp [get, Sparse.read]
  | cons e t ih =>
    obtain ⟨a, v⟩ := e
    simp only [List.filter_cons]
    by_cases h : a = k
    · subst h
      split
      · rename_i hp; simp_all [get, Sparse.read]
      · rename_i hp
        rw [ih]
        simp_all
    · split
      · simp only [get, Sparse.read, if_neg h] at *
        exact ih
      · rw [ih]; simp [get, Sparse.read, h]

theorem get_listed (a : Nat) (l : List Byte) (k : Nat) :
    get (listed a l) k = if a ≤ k ∧ k < a + l.length then l.getD (k - a) 0 else 0 := by
  induction l generalizing a with
  | nil => simp [listed, get, Sparse.read]
  | cons b bs ih =>
    simp only [listed, List.length_cons]
    by_cases hk : k = a
    · subst hk
      split
      · rename_i hb
        rw [ih]; simp [hb]
      · simp [get, Sparse.read]
    · have hstep : get (listed (a + 1) bs) k = if a ≤ k ∧ k < a + (bs.length + 1) then (b :: bs).getD (k - a) 0 else 0 := by
        rw [ih]
        by_cases h1 : a + 1 ≤ k ∧ k < a + 1 + bs.length
        · rw [if_pos h1, if_pos (by omega)]
          have : k - a = (k - (a + 1)) + 1 := by omega
          rw [this, List.getD_cons_succ]
        · rw [if_neg h1, if_neg (by omega)]
      split
      · exact hstep
      · rw [← hstep]
        have hk' : ¬ a = k := fun e => hk e.symm
        simp [get, Sparse.read, hk']

/-- A byte read after bytes are written. -/
theorem get_setN (m : Bytes) (a : Nat) (l : List Byte) (k : Nat) :
    get (m.setN a l) k = if a ≤ k ∧ k < a + l.length then l.getD (k - a) 0 else get m k := by
  have hlo := get_filter m (fun x => decide (x < a)) k
  have hhi := get_filter m (fun x => decide (a + l.length ≤ x)) k
  have hmid := get_listed a l k
  simp only [decide_eq_true_eq] at hlo hhi
  simp only [setN]
  rw [read_append, read_append]
  by_cases hin : a ≤ k ∧ k < a + l.length
  · have h1 : ¬ ∃ e ∈ m.filter (fun e => decide (e.1 < a)), e.1 = k := by
      rintro ⟨e, he, rfl⟩
      simp only [List.mem_filter, decide_eq_true_eq] at he
      omega
    rw [if_pos hin]
    by_cases hno : ∃ e ∈ m.filter (fun e => decide (e.1 < a)) ++ listed a l, e.1 = k
    · rw [if_pos hno, if_neg h1, hmid, if_pos hin]
    · rw [if_neg hno]
      rw [hhi, if_neg (by omega)]
      have h2 : ∀ e ∈ listed a l, e.1 ≠ k := fun e he hek => hno ⟨e, by simp [he], hek⟩
      have h3 := get_of_no_key _ _ h2
      rw [hmid, if_pos hin] at h3
      exact h3.symm
  · rw [if_neg hin]
    by_cases hlt : k < a
    · by_cases hx : ∃ e ∈ m.filter (fun e => decide (e.1 < a)), e.1 = k
      · rw [if_pos (by obtain ⟨e, he, h⟩ := hx; exact ⟨e, by simp only [List.mem_append]; exact Or.inl he, h⟩), if_pos hx, hlo, if_pos hlt]
      · have h3 := get_of_no_key (m.filter fun e => decide (e.1 < a)) k fun e he hek => hx ⟨e, he, hek⟩
        rw [hlo, if_pos hlt] at h3
        have h4 : ¬ a + l.length ≤ k := by omega
        rw [if_neg hx, hmid, if_neg hin, hhi, if_neg h4, h3, ite_self]
    · have h1 : ¬ ∃ e ∈ m.filter (fun e => decide (e.1 < a)), e.1 = k := by
        rintro ⟨e, he, rfl⟩
        simp only [List.mem_filter, decide_eq_true_eq] at he
        omega
      have h2 : ¬ ∃ e ∈ listed a l, e.1 = k := by
        rintro ⟨e, he, rfl⟩
        have := mem_listed _ _ _ he
        omega
      have h3 : ¬ ∃ e ∈ (m.filter (fun e => decide (e.1 < a)) ++ listed a l), e.1 = k := by
        rintro ⟨e, he, hek⟩
        rcases List.mem_append.1 he with he | he
        · exact h1 ⟨e, he, hek⟩
        · exact h2 ⟨e, he, hek⟩
      rw [if_neg h3, hhi, if_pos (by omega)]

theorem get_part (m : Bytes) (a n k : Nat) (h1 : a ≤ k) (h2 : k < a + n) : get (m.part a n) k = get m k := by
  have := get_filter m (fun x => decide (a ≤ x) && decide (x < a + n)) k
  simp only [part]
  rw [this]
  simp [h1, h2]

end Bytes

/-! ### Lengths -/

@[simp] theorem leBytes_length (n v : Nat) : (leBytes n v).length = n := by
  induction n generalizing v with
  | zero => rfl
  | succ n ih => simp [leBytes, ih]

@[simp] theorem zeros_length (n : Nat) : (zeros n).length = n := by simp [zeros]

@[simp] theorem padTo_length (n : Nat) (l : List Byte) : (padTo n l).length = n := by simp [padTo]; omega

@[simp] theorem slice_length (l : List Byte) (off n : Nat) : (slice l off n).length = n := by simp [slice]

end Sys2Proof
end

