-- ==== Sys2Proof/Laws/Regs.lean ====
section
/-! SUPPORT. The register file: a field read after a field is set, counted or raised, on the same register or on another; and the operations
that leave every register alone. -/

namespace Sys2Proof.Machine

/-- A read looks at the register file alone. -/
theorem State.rd_congr {s t : State} (h : t.regs = s.regs) (a : Nat) : t.rd a = s.rd a := by simp only [State.rd, h]

theorem State.fld_congr {s t : State} (h : t.regs = s.regs) (p : Nat) (f : Fld) : t.fld p f = s.fld p f := by
  simp only [State.fld, State.rd, h]

/-- A word read after a word is written. -/
theorem State.rd_wr (s : State) (a : Nat) (w : Word) (b : Nat) : (s.wr a w).rd b = if b = a then w else s.rd b :=
  Sparse.read_write _ _ _ _ _

@[simp] theorem State.rd_wr_same (s : State) (a : Nat) (w : Word) : (s.wr a w).rd a = w := by simp [State.rd_wr]

theorem State.rd_wr_ne (s : State) (a : Nat) (w : Word) (b : Nat) (h : b ≠ a) : (s.wr a w).rd b = s.rd b := by simp [State.rd_wr, h]

theorem State.rd_setFld (s : State) (p : Nat) (f : Fld) (v a : Nat) :
    (s.setFld p f v).rd a = if a = keyOf f p then Word.setBits (s.rd (keyOf f p)) f.lo f.width v else s.rd a := State.rd_wr _ _ _ _

/-- A register with another key is not changed. -/
theorem State.rd_setFld_ne (s : State) (p : Nat) (f : Fld) (v a : Nat) (h : a ≠ keyOf f p) : (s.setFld p f v).rd a = s.rd a := by
  rw [State.rd_setFld, if_neg h]

/-- A field read after it is set. -/
theorem State.fld_setFld_same (s : State) (p : Nat) (f : Fld) (v : Nat) (h : f.lo + f.width ≤ 32) :
    (s.setFld p f v).fld p f = v % 2 ^ f.width := by
  simp only [State.fld, State.rd_setFld, if_pos, Word.bits_setBits _ _ _ _ h]

/-- A field of another register, or bits beside the field, read after the field is set. -/
theorem State.fld_setFld_ne (s : State) (p : Nat) (f : Fld) (v q : Nat) (g : Fld) (hg : g.lo + g.width ≤ 32)
    (h : keyOf g q ≠ keyOf f p ∨ f.lo + f.width ≤ g.lo ∨ g.lo + g.width ≤ f.lo) : (s.setFld p f v).fld q g = s.fld q g := by
  simp only [State.fld, State.rd_setFld]
  by_cases hk : keyOf g q = keyOf f p
  · have h' := h.resolve_left (fun hn => hn hk)
    rw [if_pos hk, Word.bits_setBits_of_disjoint _ _ _ _ _ _ hg h', hk]
  · rw [if_neg hk]

/-- Keys of different pages differ. -/
theorem keyOf_ne_of_page {f g : Fld} {p q : Nat} (hf : f.off < 0x1000) (hg : g.off < 0x1000) (h : p ≠ q) : keyOf f p ≠ keyOf g q := by
  simp only [keyOf]; omega

/-- Keys of different offsets differ. -/
theorem keyOf_ne_of_off {f g : Fld} {p q : Nat} (hf : f.off < 0x1000) (hg : g.off < 0x1000) (h : f.off ≠ g.off) : keyOf f p ≠ keyOf g q := by
  simp only [keyOf]; omega

theorem State.fld_lt (s : State) (p : Nat) (f : Fld) : s.fld p f < 2 ^ f.width := Word.bits_lt _ _ _

/-- A one-bit field is 0 or 1. -/
theorem State.on_eq_false (s : State) (p : Nat) (f : Fld) (h : f.width = 1) : s.on p f = false ↔ s.fld p f = 0 := by
  have := State.fld_lt s p f
  rw [h] at this
  simp only [State.on, decide_eq_false_iff_not]
  omega

@[simp] theorem State.on_eq_true (s : State) (p : Nat) (f : Fld) : s.on p f = true ↔ s.fld p f = 1 := by simp [State.on]

/-! ### Events -/

/-- A raised event sets its bit; only the pending latches change beside it. -/
theorem State.raise_regs (s : State) (p : Nat) (e : Fld) : (s.raise p e).regs = (s.setFld p e 1).regs := noteRise_regs _ _ _

theorem State.rd_raise (s : State) (p : Nat) (e : Fld) (a : Nat) : (s.raise p e).rd a = (s.setFld p e 1).rd a :=
  State.rd_congr (State.raise_regs s p e) a

theorem State.fld_raise (s : State) (p : Nat) (e : Fld) (q : Nat) (g : Fld) : (s.raise p e).fld q g = (s.setFld p e 1).fld q g :=
  State.fld_congr (State.raise_regs s p e) q g

theorem State.rd_raise_ne (s : State) (p : Nat) (e : Fld) (a : Nat) (h : a ≠ keyOf e p) : (s.raise p e).rd a = s.rd a := by
  rw [State.rd_raise, State.rd_setFld_ne _ _ _ _ _ h]

theorem State.fld_raise_ne (s : State) (p : Nat) (e : Fld) (q : Nat) (g : Fld) (hg : g.lo + g.width ≤ 32)
    (h : keyOf g q ≠ keyOf e p ∨ e.lo + e.width ≤ g.lo ∨ g.lo + g.width ≤ e.lo) : (s.raise p e).fld q g = s.fld q g := by
  rw [State.fld_raise, State.fld_setFld_ne _ _ _ _ _ _ hg h]

theorem State.fld_raise_same (s : State) (p : Nat) (e : Fld) (h : e.lo + e.width ≤ 32) (hw : e.width = 1) : (s.raise p e).fld p e = 1 := by
  rw [State.fld_raise, State.fld_setFld_same _ _ _ _ h, hw]; rfl

/-- Raising an event changes nothing of the mode, access and commit state but the pending latches. -/
theorem State.raise_ctl (s : State) (p : Nat) (e : Fld) : ∃ l, (s.raise p e).ctl = { s.ctl with latches := l } := by
  simp only [State.raise, noteRise]
  repeat' split
  all_goals exact ⟨_, rfl⟩

theorem State.rd_raiseIf (s : State) (c : Bool) (p : Nat) (e : Fld) (a : Nat) :
    (s.raiseIf c p e).rd a = if c then (s.raise p e).rd a else s.rd a := by
  simp only [State.raiseIf]; split <;> rfl

/-! ### Counts -/

theorem State.fld_countBy_same (s : State) (p : Nat) (f : Fld) (n : Nat) (h : f.lo + f.width ≤ 32) :
    (s.countBy p f n).fld p f = min (s.fld p f + n) (2 ^ f.width - 1) := by
  have h1 : 0 < 2 ^ f.width := Nat.two_pow_pos _
  rw [State.countBy, State.fld_setFld_same _ _ _ _ h, Nat.mod_eq_of_lt (by omega)]

theorem State.fld_countBy_ne (s : State) (p : Nat) (f : Fld) (n q : Nat) (g : Fld) (hg : g.lo + g.width ≤ 32)
    (h : keyOf g q ≠ keyOf f p ∨ f.lo + f.width ≤ g.lo ∨ g.lo + g.width ≤ f.lo) : (s.countBy p f n).fld q g = s.fld q g :=
  State.fld_setFld_ne _ _ _ _ _ _ hg h

theorem State.rd_countBy_ne (s : State) (p : Nat) (f : Fld) (n a : Nat) (h : a ≠ keyOf f p) : (s.countBy p f n).rd a = s.rd a :=
  State.rd_setFld_ne _ _ _ _ _ h

theorem State.fld_count_same (s : State) (p : Nat) (f : Fld) (h : f.lo + f.width ≤ 32) :
    (s.count p f).fld p f = min (s.fld p f + 1) (2 ^ f.width - 1) := State.fld_countBy_same _ _ _ _ h

/-! ### Operations that leave every register alone -/

@[simp] theorem State.rd_emit (s : State) (o : Out) (r : Nat) : (s.emit o).rd r = s.rd r := rfl
@[simp] theorem State.fld_emit (s : State) (o : Out) (p' : Nat) (g : Fld) : (s.emit o).fld p' g = s.fld p' g := rfl
@[simp] theorem State.on_emit (s : State) (o : Out) (p' : Nat) (g : Fld) : (s.emit o).on p' g = s.on p' g := rfl
@[simp] theorem State.rd_pokeN (s : State) (a : Nat) (l : List Byte) (r : Nat) : (s.pokeN a l).rd r = s.rd r := rfl
@[simp] theorem State.fld_pokeN (s : State) (a : Nat) (l : List Byte) (p' : Nat) (g : Fld) : (s.pokeN a l).fld p' g = s.fld p' g := rfl
@[simp] theorem State.on_pokeN (s : State) (a : Nat) (l : List Byte) (p' : Nat) (g : Fld) : (s.pokeN a l).on p' g = s.on p' g := rfl
@[simp] theorem State.rd_latch (s : State) (k : Nat) (r : Nat) : (s.latch k).rd r = s.rd r := rfl
@[simp] theorem State.fld_latch (s : State) (k : Nat) (p' : Nat) (g : Fld) : (s.latch k).fld p' g = s.fld p' g := rfl
@[simp] theorem State.on_latch (s : State) (k : Nat) (p' : Nat) (g : Fld) : (s.latch k).on p' g = s.on p' g := rfl
@[simp] theorem State.rd_setHq (s : State) (x : Hq) (r : Nat) : (s.setHq x).rd r = s.rd r := rfl
@[simp] theorem State.fld_setHq (s : State) (x : Hq) (p' : Nat) (g : Fld) : (s.setHq x).fld p' g = s.fld p' g := rfl
@[simp] theorem State.on_setHq (s : State) (x : Hq) (p' : Nat) (g : Fld) : (s.setHq x).on p' g = s.on p' g := rfl
@[simp] theorem State.rd_setIngress (s : State) (x : IngressSt) (r : Nat) : (s.setIngress x).rd r = s.rd r := rfl
@[simp] theorem State.fld_setIngress (s : State) (x : IngressSt) (p' : Nat) (g : Fld) : (s.setIngress x).fld p' g = s.fld p' g := rfl
@[simp] theorem State.on_setIngress (s : State) (x : IngressSt) (p' : Nat) (g : Fld) : (s.setIngress x).on p' g = s.on p' g := rfl
@[simp] theorem State.rd_setRec (s : State) (x : RecSt) (r : Nat) : (s.setRec x).rd r = s.rd r := rfl
@[simp] theorem State.fld_setRec (s : State) (x : RecSt) (p' : Nat) (g : Fld) : (s.setRec x).fld p' g = s.fld p' g := rfl
@[simp] theorem State.on_setRec (s : State) (x : RecSt) (p' : Nat) (g : Fld) : (s.setRec x).on p' g = s.on p' g := rfl
@[simp] theorem State.rd_setColl (s : State) (x : CollSt) (r : Nat) : (s.setColl x).rd r = s.rd r := rfl
@[simp] theorem State.fld_setColl (s : State) (x : CollSt) (p' : Nat) (g : Fld) : (s.setColl x).fld p' g = s.fld p' g := rfl
@[simp] theorem State.on_setColl (s : State) (x : CollSt) (p' : Nat) (g : Fld) : (s.setColl x).on p' g = s.on p' g := rfl
@[simp] theorem State.rd_setCond (s : State) (x : CondSt) (r : Nat) : (s.setCond x).rd r = s.rd r := rfl
@[simp] theorem State.fld_setCond (s : State) (x : CondSt) (p' : Nat) (g : Fld) : (s.setCond x).fld p' g = s.fld p' g := rfl
@[simp] theorem State.on_setCond (s : State) (x : CondSt) (p' : Nat) (g : Fld) : (s.setCond x).on p' g = s.on p' g := rfl
@[simp] theorem State.rd_setDramc (s : State) (x : DramSt) (r : Nat) : (s.setDramc x).rd r = s.rd r := rfl
@[simp] theorem State.fld_setDramc (s : State) (x : DramSt) (p' : Nat) (g : Fld) : (s.setDramc x).fld p' g = s.fld p' g := rfl
@[simp] theorem State.on_setDramc (s : State) (x : DramSt) (p' : Nat) (g : Fld) : (s.setDramc x).on p' g = s.on p' g := rfl
@[simp] theorem State.rd_setFw (s : State) (x : FwSt) (r : Nat) : (s.setFw x).rd r = s.rd r := rfl
@[simp] theorem State.fld_setFw (s : State) (x : FwSt) (p' : Nat) (g : Fld) : (s.setFw x).fld p' g = s.fld p' g := rfl
@[simp] theorem State.on_setFw (s : State) (x : FwSt) (p' : Nat) (g : Fld) : (s.setFw x).on p' g = s.on p' g := rfl
@[simp] theorem State.rd_setPwr (s : State) (x : PwrSt) (r : Nat) : (s.setPwr x).rd r = s.rd r := rfl
@[simp] theorem State.fld_setPwr (s : State) (x : PwrSt) (p' : Nat) (g : Fld) : (s.setPwr x).fld p' g = s.fld p' g := rfl
@[simp] theorem State.on_setPwr (s : State) (x : PwrSt) (p' : Nat) (g : Fld) : (s.setPwr x).on p' g = s.on p' g := rfl
@[simp] theorem State.rd_setTherm (s : State) (x : ThermSt) (r : Nat) : (s.setTherm x).rd r = s.rd r := rfl
@[simp] theorem State.fld_setTherm (s : State) (x : ThermSt) (p' : Nat) (g : Fld) : (s.setTherm x).fld p' g = s.fld p' g := rfl
@[simp] theorem State.on_setTherm (s : State) (x : ThermSt) (p' : Nat) (g : Fld) : (s.setTherm x).on p' g = s.on p' g := rfl
@[simp] theorem State.rd_setTrig (s : State) (x : TrigSt) (r : Nat) : (s.setTrig x).rd r = s.rd r := rfl
@[simp] theorem State.fld_setTrig (s : State) (x : TrigSt) (p' : Nat) (g : Fld) : (s.setTrig x).fld p' g = s.fld p' g := rfl
@[simp] theorem State.on_setTrig (s : State) (x : TrigSt) (p' : Nat) (g : Fld) : (s.setTrig x).on p' g = s.on p' g := rfl
@[simp] theorem State.rd_setRelay (s : State) (x : RelaySt) (r : Nat) : (s.setRelay x).rd r = s.rd r := rfl
@[simp] theorem State.fld_setRelay (s : State) (x : RelaySt) (p' : Nat) (g : Fld) : (s.setRelay x).fld p' g = s.fld p' g := rfl
@[simp] theorem State.on_setRelay (s : State) (x : RelaySt) (p' : Nat) (g : Fld) : (s.setRelay x).on p' g = s.on p' g := rfl
@[simp] theorem State.rd_putAud (s : State) (p : Nat) (x : AudSt) (r : Nat) : (s.putAud p x).rd r = s.rd r := rfl
@[simp] theorem State.fld_putAud (s : State) (p : Nat) (x : AudSt) (p' : Nat) (g : Fld) : (s.putAud p x).fld p' g = s.fld p' g := rfl
@[simp] theorem State.on_putAud (s : State) (p : Nat) (x : AudSt) (p' : Nat) (g : Fld) : (s.putAud p x).on p' g = s.on p' g := rfl
@[simp] theorem State.rd_putDec (s : State) (p : Nat) (x : HdecSt) (r : Nat) : (s.putDec p x).rd r = s.rd r := rfl
@[simp] theorem State.fld_putDec (s : State) (p : Nat) (x : HdecSt) (p' : Nat) (g : Fld) : (s.putDec p x).fld p' g = s.fld p' g := rfl
@[simp] theorem State.on_putDec (s : State) (p : Nat) (x : HdecSt) (p' : Nat) (g : Fld) : (s.putDec p x).on p' g = s.on p' g := rfl
@[simp] theorem State.rd_putStream (s : State) (p : Nat) (x : HencSt) (r : Nat) : (s.putStream p x).rd r = s.rd r := rfl
@[simp] theorem State.fld_putStream (s : State) (p : Nat) (x : HencSt) (p' : Nat) (g : Fld) : (s.putStream p x).fld p' g = s.fld p' g := rfl
@[simp] theorem State.on_putStream (s : State) (p : Nat) (x : HencSt) (p' : Nat) (g : Fld) : (s.putStream p x).on p' g = s.on p' g := rfl
@[simp] theorem State.rd_putEngine (s : State) (p : Nat) (x : LoupeSt) (r : Nat) : (s.putEngine p x).rd r = s.rd r := rfl
@[simp] theorem State.fld_putEngine (s : State) (p : Nat) (x : LoupeSt) (p' : Nat) (g : Fld) : (s.putEngine p x).fld p' g = s.fld p' g := rfl
@[simp] theorem State.on_putEngine (s : State) (p : Nat) (x : LoupeSt) (p' : Nat) (g : Fld) : (s.putEngine p x).on p' g = s.on p' g := rfl
@[simp] theorem State.rd_putMirror (s : State) (p : Nat) (x : MirrorSt) (r : Nat) : (s.putMirror p x).rd r = s.rd r := rfl
@[simp] theorem State.fld_putMirror (s : State) (p : Nat) (x : MirrorSt) (p' : Nat) (g : Fld) : (s.putMirror p x).fld p' g = s.fld p' g := rfl
@[simp] theorem State.on_putMirror (s : State) (p : Nat) (x : MirrorSt) (p' : Nat) (g : Fld) : (s.putMirror p x).on p' g = s.on p' g := rfl
@[simp] theorem State.rd_putFlow (s : State) (p : Nat) (x : FlowSt) (r : Nat) : (s.putFlow p x).rd r = s.rd r := rfl
@[simp] theorem State.fld_putFlow (s : State) (p : Nat) (x : FlowSt) (p' : Nat) (g : Fld) : (s.putFlow p x).fld p' g = s.fld p' g := rfl
@[simp] theorem State.on_putFlow (s : State) (p : Nat) (x : FlowSt) (p' : Nat) (g : Fld) : (s.putFlow p x).on p' g = s.on p' g := rfl
@[simp] theorem State.rd_putSq (s : State) (k : Nat) (q : Sq) (r : Nat) : (s.putSq k q).rd r = s.rd r := rfl
@[simp] theorem State.fld_putSq (s : State) (k : Nat) (q : Sq) (p' : Nat) (g : Fld) : (s.putSq k q).fld p' g = s.fld p' g := rfl
@[simp] theorem State.on_putSq (s : State) (k : Nat) (q : Sq) (p' : Nat) (g : Fld) : (s.putSq k q).on p' g = s.on p' g := rfl
@[simp] theorem State.rd_putCq (s : State) (k : Nat) (q : Cq) (r : Nat) : (s.putCq k q).rd r = s.rd r := rfl
@[simp] theorem State.fld_putCq (s : State) (k : Nat) (q : Cq) (p' : Nat) (g : Fld) : (s.putCq k q).fld p' g = s.fld p' g := rfl
@[simp] theorem State.on_putCq (s : State) (k : Nat) (q : Cq) (p' : Nat) (g : Fld) : (s.putCq k q).on p' g = s.on p' g := rfl
@[simp] theorem State.rd_putCmd (s : State) (k : Nat) (q : Cmd) (r : Nat) : (s.putCmd k q).rd r = s.rd r := rfl
@[simp] theorem State.fld_putCmd (s : State) (k : Nat) (q : Cmd) (p' : Nat) (g : Fld) : (s.putCmd k q).fld p' g = s.fld p' g := rfl
@[simp] theorem State.on_putCmd (s : State) (k : Nat) (q : Cmd) (p' : Nat) (g : Fld) : (s.putCmd k q).on p' g = s.on p' g := rfl
@[simp] theorem State.rd_setReel (s : State) (x : ReelSt) (r : Nat) : (s.setReel x).rd r = s.rd r := rfl
@[simp] theorem State.fld_setReel (s : State) (x : ReelSt) (p' : Nat) (g : Fld) : (s.setReel x).fld p' g = s.fld p' g := rfl
@[simp] theorem State.on_setReel (s : State) (x : ReelSt) (p' : Nat) (g : Fld) : (s.setReel x).on p' g = s.on p' g := rfl
@[simp] theorem State.rd_putDrive (s : State) (k : Nat) (x : DriveSt) (r : Nat) : (s.putDrive k x).rd r = s.rd r := rfl
@[simp] theorem State.fld_putDrive (s : State) (k : Nat) (x : DriveSt) (p' : Nat) (g : Fld) : (s.putDrive k x).fld p' g = s.fld p' g := rfl
@[simp] theorem State.on_putDrive (s : State) (k : Nat) (x : DriveSt) (p' : Nat) (g : Fld) : (s.putDrive k x).on p' g = s.on p' g := rfl
@[simp] theorem State.rd_putSlot (s : State) (k : Nat) (x : RingSlot) (r : Nat) : (s.putSlot k x).rd r = s.rd r := rfl
@[simp] theorem State.fld_putSlot (s : State) (k : Nat) (x : RingSlot) (p' : Nat) (g : Fld) : (s.putSlot k x).fld p' g = s.fld p' g := rfl
@[simp] theorem State.on_putSlot (s : State) (k : Nat) (x : RingSlot) (p' : Nat) (g : Fld) : (s.putSlot k x).on p' g = s.on p' g := rfl
@[simp] theorem State.rd_setOpen (s : State) (x : Option OpenFrame) (r : Nat) : (s.setOpen x).rd r = s.rd r := rfl
@[simp] theorem State.fld_setOpen (s : State) (x : Option OpenFrame) (p' : Nat) (g : Fld) : (s.setOpen x).fld p' g = s.fld p' g := rfl
@[simp] theorem State.on_setOpen (s : State) (x : Option OpenFrame) (p' : Nat) (g : Fld) : (s.setOpen x).on p' g = s.on p' g := rfl
@[simp] theorem State.rd_setPort (s : State) (k : Nat) (p : PortSt) (r : Nat) : (s.setPort k p).rd r = s.rd r := State.rd_congr (by simp) r
@[simp] theorem State.fld_setPort (s : State) (k : Nat) (p : PortSt) (q : Nat) (g : Fld) : (s.setPort k p).fld q g = s.fld q g :=
  State.fld_congr (by simp) q g

/-! ### Memory -/

/-- A byte of DRAM read after bytes are written. -/
theorem State.dram_pokeN (s : State) (a : Nat) (l : List Byte) (k : Nat) :
    (s.pokeN a l).dram.get k = if a ≤ k ∧ k < a + (l.take (s.dramSize - a)).length then (l.take (s.dramSize - a)).getD (k - a) 0
      else s.dram.get k := Bytes.get_setN _ _ _ _

end Sys2Proof.Machine
end

