-- ==== Sys2Proof/Laws/Frames.lean ====
section
/-! SUPPORT. How the frames that statements speak of (State.Kept and its parts) pass through the register operations, so that a proof follows
the operations of a command one by one. -/

set_option Elab.async false

namespace Sys2Proof.Machine

variable {s t : State} {l : List Nat}

/-! ### Only registers and latches change -/

theorem State.OnlyRegs.refl (s : State) : s.OnlyRegs s := rfl

theorem State.OnlyRegs.trans {u : State} (h : s.OnlyRegs t) (h' : t.OnlyRegs u) : s.OnlyRegs u := by
  unfold State.OnlyRegs at *
  rw [h', h]

theorem State.OnlyRegs.bytes (h : s.OnlyRegs t) : s.KeepsBytes t := by
  unfold State.OnlyRegs at h
  rw [h]
  exact ⟨fun _ => rfl, fun _ => rfl, fun _ => rfl, fun _ _ => rfl⟩

theorem State.OnlyRegs.wr (h : s.OnlyRegs t) (a : Nat) (w : Word) : s.OnlyRegs (t.wr a w) := h.trans rfl

theorem State.OnlyRegs.latch (h : s.OnlyRegs t) (k : Nat) : s.OnlyRegs (t.latch k) := h.trans rfl

theorem noteRise_cases (s0 s1 : State) (p : Nat) : noteRise s0 s1 p = s1 ∨ ∃ k, noteRise s0 s1 p = s1.latch k := by
  unfold noteRise
  dsimp only
  split
  · exact .inl rfl
  · split
    · exact .inl rfl
    · split
      · exact .inr ⟨_, rfl⟩
      · exact .inl rfl

theorem State.OnlyRegs.noteRise {s0 : State} (h : s.OnlyRegs t) (p : Nat) : s.OnlyRegs (noteRise s0 t p) := by
  rcases noteRise_cases s0 t p with e | ⟨k, e⟩ <;> rw [e]
  · exact h
  · exact h.latch k

theorem State.OnlyRegs.raise (h : s.OnlyRegs t) (p : Nat) (e : Fld) : s.OnlyRegs (t.raise p e) :=
  State.OnlyRegs.noteRise (t := t.setFld p e 1) (h.wr _ _) p

/-! ### Frames of registers by key -/

theorem State.Kept.refl (s : State) (l : List Nat) : s.Kept s l :=
  ⟨fun _ _ => rfl, State.OnlyRegs.refl s, (State.OnlyRegs.refl s).bytes⟩

theorem State.Kept.of_only (hr : s.KeepsRegs t l) (ho : s.OnlyRegs t) : s.Kept t l := ⟨hr, ho, ho.bytes⟩

theorem State.Kept.trans {u : State} (h : s.Kept t l) (h' : t.Kept u l) : s.Kept u l :=
  .of_only (fun a ha => (h'.1 a ha).trans (h.1 a ha)) (h.2.1.trans h'.2.1)

theorem State.Kept.mono {l' : List Nat} (h : s.Kept t l) (hl : ∀ a, a ∈ l → a ∈ l') : s.Kept t l' :=
  .of_only (fun a ha => h.1 a fun x => ha (hl a x)) h.2.1

theorem State.Kept.wr (h : s.Kept t l) {a : Nat} (w : Word) (ha : a ∈ l) : s.Kept (t.wr a w) l :=
  .of_only (fun b hb => (State.rd_wr_ne t a w b fun e => hb (e ▸ ha)).trans (h.1 b hb)) (h.2.1.wr a w)

theorem State.Kept.setFld (h : s.Kept t l) {p : Nat} {f : Fld} (v : Nat) (ha : keyOf f p ∈ l) : s.Kept (t.setFld p f v) l :=
  State.Kept.wr h _ ha

theorem State.Kept.setOn (h : s.Kept t l) {p : Nat} {f : Fld} (v : Bool) (ha : keyOf f p ∈ l) : s.Kept (t.setOn p f v) l := h.setFld _ ha

theorem State.Kept.setFld64 (h : s.Kept t l) {p : Nat} {lo hi : Fld} (v : Nat) (ha : keyOf lo p ∈ l) (hb : keyOf hi p ∈ l) :
    s.Kept (t.setFld64 p lo hi v) l := (h.setFld _ ha).setFld _ hb

theorem State.Kept.countBy (h : s.Kept t l) {p : Nat} {f : Fld} (n : Nat) (ha : keyOf f p ∈ l) : s.Kept (t.countBy p f n) l := h.setFld _ ha

theorem State.Kept.count (h : s.Kept t l) {p : Nat} {f : Fld} (ha : keyOf f p ∈ l) : s.Kept (t.count p f) l := h.countBy 1 ha

theorem State.Kept.latch (h : s.Kept t l) (k : Nat) : s.Kept (t.latch k) l := .of_only h.1 (h.2.1.latch k)

theorem State.Kept.noteRise {s0 : State} (h : s.Kept t l) (p : Nat) : s.Kept (noteRise s0 t p) l := by
  rcases noteRise_cases s0 t p with e | ⟨k, e⟩ <;> rw [e]
  · exact h
  · exact h.latch k

theorem State.Kept.raise (h : s.Kept t l) {p : Nat} {e : Fld} (ha : keyOf e p ∈ l) : s.Kept (t.raise p e) l :=
  State.Kept.noteRise (t := t.setFld p e 1) (h.setFld 1 ha) p

theorem State.Kept.raiseIf (h : s.Kept t l) {c : Bool} {p : Nat} {e : Fld} (ha : keyOf e p ∈ l) : s.Kept (t.raiseIf c p e) l := by
  unfold State.raiseIf
  split
  · exact h.raise ha
  · exact h

theorem State.Kept.reject (h : s.Kept t l) {p : Nat} (ha : keyOf Reg.COMMON_EVENT_STATE_REJECT p ∈ l) : s.Kept (t.reject p) l := h.raise ha

theorem State.Kept.ite {u : State} {c : Prop} [Decidable c] (h : s.Kept t l) (h' : s.Kept u l) : s.Kept (if c then t else u) l := by
  split
  · exact h
  · exact h'

end Sys2Proof.Machine
end

