-- ==== Sys2Proof/Laws/Access.lean ====
section
/-! SUPPORT. The two gates that most commands pass, each said once: a register write that is accepted takes its effect, and a queue command
that may start runs; and what the completion of a command leaves. -/

set_option Elab.async false

namespace Sys2Proof.Machine

/-- A write that passes every check takes its effect on the state as it stands, with the word held and the word written. -/
theorem withWrite_of_accepts {s : State} {r : Req} {p o : Nat} {v : Word} (k : State → Word → Word → State)
    (h : s.accepts r p o v = true) :
    withWrite r p o v s k = k s (s.rd (bankPage r p o * 0x1000 + o)) (s.written r p o v) := by
  unfold State.accepts at h
  unfold withWrite State.written
  cases hf : fieldsAt p o with
  | none => simp [hf] at h
  | some fs0 =>
    simp only [hf, Bool.and_eq_true, Bool.not_eq_true', decide_eq_true_eq] at h
    obtain ⟨hr, ⟨⟨⟨⟨⟨⟨h1, h2⟩, h3⟩, h4⟩, h5⟩, h6⟩, h7⟩, h8⟩ := h
    have hne : (openFields r fs0).isEmpty = false := by
      cases he : openFields r fs0 with
      | nil => simp [he, writeMask] at h4
      | cons => rfl
    have h2' : ¬ (0x040 ≤ o ∧ s.domainOff p = true) := fun e => by simp [e.1, e.2] at h2
    change (if s.reach r = false then s else _) = _
    rw [if_neg (by simp [hr])]
    dsimp only
    rw [h1, if_neg Bool.false_ne_true]
    rw [show (if r = Req.pf1 then fs0.filter (fun f => !f.prv) else fs0) = openFields r fs0 from rfl, hne, if_neg Bool.false_ne_true,
      if_neg h2']
    simp only [h3, Bool.false_eq_true, if_false]
    rw [if_neg h4, if_neg (by simp [h5])]
    simp only [h6, h7, h8, Bool.false_and, Bool.or_self, Bool.false_eq_true, if_false, Option.getD_some]

/-- A command that may start is marked as running, with its bytes of its namespace, and takes its effect. -/
theorem withCmd_of_starts {s : State} {tag op : Nat} {bad : Cmd → State → Option Nat} {len : Cmd → State → Nat} (k : Cmd → State → State)
    (h : s.starts tag op bad len) :
    withCmd tag op s bad k len =
      k { s.hq.cmds.get tag with stage := .running, len := len (s.hq.cmds.get tag) s }
        (s.putCmd tag { s.hq.cmds.get tag with stage := .running, len := len (s.hq.cmds.get tag) s }) := by
  obtain ⟨⟨h1, h2, h3, h4⟩, h5, h6⟩ := h
  unfold withCmd
  simp [h1, h2, h3, h4, h5, h6]

/-- A command that may start with a field that fails its check ends with status 0x02 for that field (R292). -/
theorem withCmd_of_bad {s : State} {tag op f : Nat} {bad : Cmd → State → Option Nat} {len : Cmd → State → Nat} (k : Cmd → State → State)
    (h : s.mayRun tag op len) (hb : bad (s.hq.cmds.get tag) s = some f) : withCmd tag op s bad k len = s.finishTag tag 0x02 0 0 f := by
  obtain ⟨h1, h2, h3, h4⟩ := h
  unfold withCmd
  simp [h1, h2, h3, h4, hb]

/-- A running command that completes is past its commit point with its status, RESULT and detail. -/
theorem State.completed_finishTag {s : State} {tag : Nat} (status result detail field : Nat) (h : (s.hq.cmds.get tag).live = true)
    (hd : (s.hq.cmds.get tag).stage ≠ .done) (ho : (s.hq.cmds.get tag).op ≠ 0x28) :
    (s.finishTag tag status result detail field).completed tag status result detail := by
  unfold State.finishTag State.completed
  simp only [h, hd, ho, Bool.true_eq_false, or_self, if_false]
  split <;> split <;> simp [State.putCmd, State.logError, State.setHq, State.raise, noteRise_hq]

/-- Completing a command with status 0 changes the command table alone. -/
theorem State.finishTag_ok {s : State} {tag : Nat} (result detail field : Nat) (h : (s.hq.cmds.get tag).live = true)
    (hd : (s.hq.cmds.get tag).stage ≠ .done) (ho : (s.hq.cmds.get tag).op ≠ 0x28) :
    s.finishTag tag 0 result detail field =
      s.putCmd tag { s.hq.cmds.get tag with stage := .done, status := 0, result := result, detail := detail } := by
  unfold State.finishTag
  simp [h, hd, ho]

end Sys2Proof.Machine
end

