-- ==== Sys2Proof/Laws/Canon.lean ====
section
/-! SUPPORT. The canonical form of the register file and the memories, kept by the operations that every command is made of. -/

set_option Elab.async false

namespace Sys2Proof.Machine

/-- The invariant looks at four parts of the state alone. -/
theorem State.inv_mk (pending : List Instr) (out : List Out) (seed : Nat) (regs : List (Nat × Word)) (ctl : Ctl) (rsm : Rsm) (hq : Hq)
    (portA portB : PortSt) (ingress : IngressSt) (fstore : FilterSt) (split : SplitSt) (draw : DrawSt) (drdec : DrDecSt) (henc : Tbl HencSt)
    (hdec : Tbl HdecSt) (media : RecSt) (stages : List StageNs) (aud : Tbl AudSt) (coll : CollSt) (trig : TrigSt) (cond : CondSt)
    (relay : RelaySt) (dramc : DramSt) (fw : FwSt) (pwr : PwrSt) (therm : ThermSt) (array : ArraySt) (loupe : Tbl LoupeSt)
    (mirror : Tbl MirrorSt) (flows : Tbl FlowSt) (dram : Bytes) (time : Time) (exposures : List (Nat × Time)) :
    (State.mk pending out seed regs ctl rsm hq portA portB ingress fstore split draw drdec henc hdec media stages aud coll trig cond relay
      dramc fw pwr therm array loupe mirror flows dram time exposures).Inv ↔
    Sparse.wf factoryWord regs = true ∧ Memory.wf dram = true ∧ Memory.wf fstore.mem = true ∧ Memory.wf relay.cluster = true := Iff.rfl

theorem State.Inv.regs {s : State} (h : s.Inv) : Sparse.wf factoryWord s.regs = true := h.1
theorem State.Inv.dram {s : State} (h : s.Inv) : Memory.wf s.dram = true := h.2.1
theorem State.Inv.fstore {s : State} (h : s.Inv) : Memory.wf s.fstore.mem = true := h.2.2.1
theorem State.Inv.cluster {s : State} (h : s.Inv) : Memory.wf s.relay.cluster = true := h.2.2.2

theorem State.inv_ite {c : Prop} [Decidable c] {a b : State} (ha : a.Inv) (hb : b.Inv) : (if c then a else b).Inv := by
  split <;> assumption

/-- A fold of operations that keep the invariant keeps it. -/
theorem State.inv_foldl {α : Type} {f : State → α → State} {l : List α} {s : State} (hs : s.Inv) (hf : ∀ s x, s.Inv → (f s x).Inv) :
    (l.foldl f s).Inv := by
  induction l generalizing s with
  | nil => exact hs
  | cons x t ih => exact ih (hf s x hs)

/-- A fold over a state and something beside it. -/
theorem fst_inv_foldl {α β : Type} {f : State × β → α → State × β} {l : List α} {acc : State × β} (hs : acc.1.Inv)
    (hf : ∀ acc x, acc.1.Inv → (f acc x).1.Inv) : (l.foldl f acc).1.Inv := by
  induction l generalizing acc with
  | nil => exact hs
  | cons x t ih => exact ih (hf acc x hs)

theorem Memory.wf_nil : Memory.wf [] = true := rfl
theorem Memory.wf_set {m : Bytes} (a : Nat) (b : Byte) (h : Memory.wf m = true) : Memory.wf (m.set a b) = true := Sparse.wf_write a b h
theorem Memory.wf_setN {m : Bytes} (a : Nat) (l : List Byte) (h : Memory.wf m = true) : Memory.wf (m.setN a l) = true := Bytes.wf_setN a l h
theorem Memory.wf_filter {m : Bytes} (p : Nat × Byte → Bool) (h : Memory.wf m = true) : Memory.wf (m.filter p) = true := Sparse.wf_filter p h

/-- Reset: nothing is listed. -/
theorem State.reset_inv : State.reset.Inv := ⟨rfl, rfl, rfl, rfl⟩

end Sys2Proof.Machine
end

