-- ==== Sys2Proof/Laws/CanonRegs.lean ====
section
/-! SUPPORT. The register operations, events and memory writes keep the canonical form (State.Inv): one lemma per operation. -/

set_option Elab.async false

namespace Sys2Proof.Machine

theorem State.wr_inv (s : State) (a : Nat) (w : Word) (h : s.Inv) : (s.wr a w).Inv :=
  ⟨Sparse.wf_write a w h.regs, h.dram, h.fstore, h.cluster⟩

theorem State.setFld_inv (s : State) (p : ℕ) (f : Fld) (v : ℕ) (h : s.Inv) : (State.setFld s p f v).Inv := by
  unfold State.setFld
  repeat' first
    | with_reducible assumption
    | with_reducible apply State.wr_inv

theorem State.setFld64_inv (s : State) (p : ℕ) (lo : Fld) (hi : Fld) (v : ℕ) (h : s.Inv) : (State.setFld64 s p lo hi v).Inv := by
  unfold State.setFld64
  repeat' first
    | with_reducible assumption
    | with_reducible apply State.setFld_inv

theorem State.countBy_inv (s : State) (p : ℕ) (f : Fld) (n : ℕ) (h : s.Inv) : (State.countBy s p f n).Inv := by
  unfold State.countBy
  repeat' first
    | with_reducible assumption
    | with_reducible apply State.setFld_inv

theorem State.count_inv (s : State) (p : ℕ) (f : Fld) (h : s.Inv) : (State.count s p f).Inv := by
  unfold State.count
  repeat' first
    | with_reducible assumption
    | with_reducible apply State.countBy_inv

theorem State.setOn_inv (s : State) (p : ℕ) (f : Fld) (b : Bool) (h : s.Inv) : (State.setOn s p f b).Inv := by
  unfold State.setOn
  repeat' first
    | with_reducible assumption
    | with_reducible apply State.setFld_inv

theorem State.emit_inv (s : State) (o : Out) (h : s.Inv) : (State.emit s o).Inv := by
  unfold State.emit
  repeat' first
    | with_reducible assumption
    | simp only [State.inv_mk]
    | with_reducible apply And.intro
    | with_reducible apply State.Inv.regs
    | with_reducible apply State.Inv.dram
    | with_reducible apply State.Inv.fstore
    | with_reducible apply State.Inv.cluster

theorem State.latch_inv (s : State) (k : ℕ) (h : s.Inv) : (State.latch s k).Inv := by
  unfold State.latch
  repeat' first
    | with_reducible assumption
    | simp only [State.inv_mk]
    | with_reducible apply And.intro
    | with_reducible apply State.Inv.regs
    | with_reducible apply State.Inv.dram
    | with_reducible apply State.Inv.fstore
    | with_reducible apply State.Inv.cluster

theorem noteRise_inv (s0 : State) (s1 : State) (p : ℕ) (h : s1.Inv) : (noteRise s0 s1 p).Inv := by
  unfold noteRise
  repeat' first
    | with_reducible assumption
    | with_reducible apply State.latch_inv
    | with_reducible apply State.inv_ite

theorem State.raise_inv (s : State) (p : ℕ) (e : Fld) (h : s.Inv) : (State.raise s p e).Inv := by
  unfold State.raise
  repeat' first
    | with_reducible assumption
    | with_reducible apply State.setFld_inv
    | with_reducible apply noteRise_inv

theorem State.setPciFn_inv (s : State) (fn : Fn) (c : PciFn) (h : s.Inv) : (State.setPciFn s fn c).Inv := by
  unfold State.setPciFn
  repeat' first
    | with_reducible assumption
    | simp only [State.inv_mk]
    | with_reducible apply And.intro
    | with_reducible apply State.Inv.regs
    | with_reducible apply State.Inv.dram
    | with_reducible apply State.Inv.fstore
    | with_reducible apply State.Inv.cluster
    | split

theorem State.reject_inv (s : State) (p : ℕ) (h : s.Inv) : (State.reject s p).Inv := by
  unfold State.reject
  repeat' first
    | with_reducible assumption
    | with_reducible apply State.raise_inv

theorem noteRiseAll_inv (s0 : State) (s1 : State) (h : s1.Inv) : (noteRiseAll s0 s1).Inv := by
  unfold noteRiseAll
  repeat' first
    | with_reducible assumption
    | with_reducible intro _
    | with_reducible apply State.latch_inv
    | with_reducible apply State.inv_ite
    | with_reducible apply State.inv_foldl

theorem State.noteCa_inv (s : State) (fn : Fn) (h : s.Inv) : (State.noteCa s fn).Inv := by
  unfold State.noteCa
  repeat' first
    | with_reducible assumption
    | with_reducible apply State.setPciFn_inv

theorem State.raiseIf_inv (s : State) (c : Bool) (p : ℕ) (e : Fld) (h : s.Inv) : (State.raiseIf s c p e).Inv := by
  unfold State.raiseIf
  repeat' first
    | with_reducible assumption
    | with_reducible apply State.raise_inv
    | with_reducible apply State.inv_ite

theorem State.abort_inv (s : State) (r : Req) (off : ℕ) (write : Bool) (h : s.Inv) : (State.abort s r off write).Inv := by
  unfold State.abort
  repeat' first
    | with_reducible assumption
    | with_reducible apply State.emit_inv
    | with_reducible apply State.noteCa_inv
    | split

theorem State.busError_inv (s : State) (r : Req) (off : ℕ) (write : Bool) (h : s.Inv) : (State.busError s r off write).Inv := by
  unfold State.busError
  repeat' first
    | with_reducible assumption
    | with_reducible apply State.count_inv
    | with_reducible apply State.setOn_inv
    | with_reducible apply State.setFld_inv
    | with_reducible apply State.raise_inv
    | with_reducible apply State.abort_inv
    | with_reducible apply State.inv_ite
    | simp only [State.inv_mk]
    | with_reducible apply And.intro
    | with_reducible apply State.Inv.regs
    | with_reducible apply State.Inv.dram
    | with_reducible apply State.Inv.fstore
    | with_reducible apply State.Inv.cluster

theorem State.showCorr_inv (s : State) (h : s.Inv) : (State.showCorr s).Inv := by
  unfold State.showCorr
  repeat' first
    | with_reducible assumption
    | with_reducible apply State.setFld_inv
    | with_reducible apply State.inv_ite

theorem withRead_inv (r : Req) (p : ℕ) (o : ℕ) (be : ℕ) (s : State) (w : Word) (clears : Bool) (h : s.Inv) : (withRead r p o be s w clears).Inv := by
  unfold withRead
  repeat' first
    | with_reducible assumption
    | with_reducible apply State.wr_inv
    | with_reducible apply State.emit_inv
    | with_reducible apply State.busError_inv
    | split

theorem State.endCommit_inv (s : State) (p : ℕ) (h : s.Inv) : (State.endCommit s p).Inv := by
  unfold State.endCommit
  repeat' first
    | with_reducible assumption
    | with_reducible apply State.setFld_inv
    | simp only [State.inv_mk]
    | with_reducible apply And.intro
    | with_reducible apply State.Inv.regs
    | with_reducible apply State.Inv.dram
    | with_reducible apply State.Inv.fstore
    | with_reducible apply State.Inv.cluster

theorem State.showGroups_inv (s : State) (h : s.Inv) : (State.showGroups s).Inv := by
  unfold State.showGroups
  repeat' first
    | with_reducible assumption
    | with_reducible apply State.setOn_inv
    | with_reducible apply State.setFld_inv

theorem State.lockViolation_inv (s : State) (h : s.Inv) : (State.lockViolation s).Inv := by
  unfold State.lockViolation
  repeat' first
    | with_reducible assumption
    | with_reducible apply State.count_inv
    | with_reducible apply State.raise_inv

theorem State.store_inv (s : State) (p : ℕ) (o : ℕ) (w : Word) (h : s.Inv) : (State.store s p o w).Inv := by
  unfold State.store
  repeat' first
    | with_reducible assumption
    | with_reducible apply State.wr_inv
    | simp only [State.inv_mk]
    | with_reducible apply And.intro
    | with_reducible apply State.Inv.regs
    | with_reducible apply State.Inv.dram
    | with_reducible apply State.Inv.fstore
    | with_reducible apply State.Inv.cluster
    | split

theorem State.fwDeny_inv (s : State) (h : s.Inv) : (State.fwDeny s).Inv := by
  unfold State.fwDeny
  repeat' first
    | with_reducible assumption
    | with_reducible apply State.count_inv
    | with_reducible apply State.raise_inv

theorem withWrite_inv (r : Req) (p o : Nat) (v : Word) (s : State) (k : State → Word → Word → State) (h : s.Inv)
    (hk : ∀ t x y, t.Inv → (k t x y).Inv) : (withWrite r p o v s k).Inv := by
  unfold withWrite
  repeat' first
    | with_reducible assumption
    | with_reducible apply State.lockViolation_inv
    | with_reducible apply State.reject_inv
    | with_reducible apply State.busError_inv
    | with_reducible apply State.count_inv
    | with_reducible apply State.fwDeny_inv
    | with_reducible apply hk
    | with_reducible apply State.inv_ite
    | simp only [State.inv_mk]
    | with_reducible apply And.intro
    | with_reducible apply State.Inv.regs
    | with_reducible apply State.Inv.dram
    | with_reducible apply State.Inv.fstore
    | with_reducible apply State.Inv.cluster
    | split

theorem State.bindGroup_inv (s : State) (h : s.Inv) : (State.bindGroup s).Inv := by
  unfold State.bindGroup
  repeat' first
    | with_reducible assumption
    | with_reducible apply State.setFld_inv
    | with_reducible apply State.raise_inv
    | with_reducible apply State.showGroups_inv
    | with_reducible apply State.inv_ite
    | simp only [State.inv_mk]
    | with_reducible apply And.intro
    | with_reducible apply State.Inv.regs
    | with_reducible apply State.Inv.dram
    | with_reducible apply State.Inv.fstore
    | with_reducible apply State.Inv.cluster

theorem writeGlobalCommit_inv (r : Req) (v : Word) (s : State) (h : s.Inv) : (writeGlobalCommit r v s).Inv := by
  unfold writeGlobalCommit
  repeat' first
    | with_reducible assumption
    | with_reducible intro _
    | with_reducible apply withWrite_inv
    | with_reducible apply State.bindGroup_inv
    | with_reducible apply State.inv_ite

theorem State.applySnap_inv (s : State) (p : ℕ) (snap : List (ℕ × Word)) (h : s.Inv) : (State.applySnap s p snap).Inv := by
  unfold State.applySnap
  repeat' first
    | with_reducible assumption
    | with_reducible intro _
    | with_reducible apply State.wr_inv
    | with_reducible apply State.inv_foldl

theorem State.copyShadows_inv (s : State) (h : s.Inv) : (State.copyShadows s).Inv := by
  unfold State.copyShadows
  repeat' first
    | with_reducible assumption
    | with_reducible intro _
    | with_reducible apply State.endCommit_inv
    | with_reducible apply State.showGroups_inv
    | with_reducible apply State.applySnap_inv
    | with_reducible apply State.inv_ite
    | with_reducible apply State.inv_foldl
    | simp only [State.inv_mk]
    | with_reducible apply And.intro
    | with_reducible apply State.Inv.regs
    | with_reducible apply State.Inv.dram
    | with_reducible apply State.Inv.fstore
    | with_reducible apply State.Inv.cluster

theorem plainStore_inv (r : Req) (p : ℕ) (o : ℕ) (s : State) (x4 : Word) (new : Word) (h : s.Inv) : (plainStore r p o s x4 new).Inv := by
  unfold plainStore
  repeat' first
    | with_reducible assumption
    | with_reducible apply State.store_inv

theorem readEvent_inv (r : Req) (p : ℕ) (be : ℕ) (s : State) (h : s.Inv) : (readEvent r p be s).Inv := by
  unfold readEvent
  repeat' first
    | with_reducible assumption
    | with_reducible apply withRead_inv

theorem writeEventTest_inv (r : Req) (p : ℕ) (v : Word) (s : State) (h : s.Inv) : (writeEventTest r p v s).Inv := by
  unfold writeEventTest
  repeat' first
    | with_reducible assumption
    | with_reducible intro _
    | with_reducible apply State.wr_inv
    | with_reducible apply noteRise_inv
    | with_reducible apply withWrite_inv
    | split

theorem writeVecRearm_inv (r : Req) (v : Word) (s : State) (h : s.Inv) : (writeVecRearm r v s).Inv := by
  unfold writeVecRearm
  repeat' first
    | with_reducible assumption
    | with_reducible intro _
    | with_reducible apply State.latch_inv
    | with_reducible apply withWrite_inv
    | with_reducible apply State.inv_ite
    | split

theorem State.applyCommit_inv (s : State) (p : ℕ) (h : s.Inv) : (State.applyCommit s p).Inv := by
  unfold State.applyCommit
  repeat' first
    | with_reducible assumption
    | with_reducible apply State.raise_inv
    | with_reducible apply State.endCommit_inv
    | with_reducible apply State.applySnap_inv

theorem State.commitPoint_inv (s : State) (n : ℕ) (h : s.Inv) : (State.commitPoint s n).Inv := by
  unfold State.commitPoint
  repeat' first
    | with_reducible assumption
    | with_reducible intro _
    | with_reducible apply State.raise_inv
    | with_reducible apply State.showGroups_inv
    | with_reducible apply State.applyCommit_inv
    | with_reducible apply State.inv_ite
    | with_reducible apply State.inv_foldl
    | simp only [State.inv_mk]
    | with_reducible apply And.intro
    | with_reducible apply State.Inv.regs
    | with_reducible apply State.Inv.dram
    | with_reducible apply State.Inv.fstore
    | with_reducible apply State.Inv.cluster

theorem readBusErr_inv (r : Req) (be : ℕ) (s : State) (h : s.Inv) : (readBusErr r be s).Inv := by
  unfold readBusErr
  repeat' first
    | with_reducible assumption
    | with_reducible apply State.setFld_inv
    | with_reducible apply withRead_inv
    | with_reducible apply State.inv_ite
    | simp only [State.inv_mk]
    | with_reducible apply And.intro
    | with_reducible apply State.Inv.regs
    | with_reducible apply State.Inv.dram
    | with_reducible apply State.Inv.fstore
    | with_reducible apply State.Inv.cluster

theorem State.cancelGroups_inv (s : State) (n : ℕ) (h : s.Inv) : (State.cancelGroups s n).Inv := by
  unfold State.cancelGroups
  repeat' first
    | with_reducible assumption
    | with_reducible intro _
    | with_reducible apply State.endCommit_inv
    | with_reducible apply State.showGroups_inv
    | with_reducible apply State.inv_foldl
    | simp only [State.inv_mk]
    | with_reducible apply And.intro
    | with_reducible apply State.Inv.regs
    | with_reducible apply State.Inv.dram
    | with_reducible apply State.Inv.fstore
    | with_reducible apply State.Inv.cluster

theorem State.pokeN_inv (s : State) (a : ℕ) (l : List Byte) (h : s.Inv) : (State.pokeN s a l).Inv := by
  unfold State.pokeN
  repeat' first
    | with_reducible assumption
    | simp only [State.inv_mk]
    | with_reducible apply And.intro
    | with_reducible apply State.Inv.regs
    | with_reducible apply State.Inv.dram
    | with_reducible apply State.Inv.fstore
    | with_reducible apply State.Inv.cluster
    | with_reducible apply Memory.wf_setN

end Sys2Proof.Machine
end

