-- ==== Sys2Proof/Laws/CanonCapture.lean ====
section
/-! SUPPORT. The host queues, the links, the capture chain and the decoders keep the canonical form (State.Inv): one lemma per operation. -/

set_option Elab.async false

namespace Sys2Proof.Machine

theorem State.setHq_inv (s : State) (h : Hq) (hi : s.Inv) : (State.setHq s h).Inv := by
  unfold State.setHq
  repeat' first
    | with_reducible assumption
    | simp only [State.inv_mk]
    | with_reducible apply And.intro
    | with_reducible apply State.Inv.regs
    | with_reducible apply State.Inv.dram
    | with_reducible apply State.Inv.fstore
    | with_reducible apply State.Inv.cluster

theorem State.notePause_inv (s : State) (h : s.Inv) : (State.notePause s).Inv := by
  unfold State.notePause
  repeat' first
    | with_reducible assumption
    | with_reducible apply State.raiseIf_inv
    | with_reducible apply State.setHq_inv

theorem State.putSq_inv (s : State) (k : ℕ) (q : Sq) (h : s.Inv) : (State.putSq s k q).Inv := by
  unfold State.putSq
  repeat' first
    | with_reducible assumption
    | with_reducible apply State.setHq_inv

theorem State.winDeny_inv (s : State) (h : s.Inv) : (State.winDeny s).Inv := by
  unfold State.winDeny
  repeat' first
    | with_reducible assumption
    | with_reducible apply State.count_inv
    | with_reducible apply State.raise_inv

theorem State.putCq_inv (s : State) (k : ℕ) (q : Cq) (h : s.Inv) : (State.putCq s k q).Inv := by
  unfold State.putCq
  repeat' first
    | with_reducible assumption
    | with_reducible apply State.setHq_inv

theorem State.putCmd_inv (s : State) (tag : ℕ) (c : Cmd) (h : s.Inv) : (State.putCmd s tag c).Inv := by
  unfold State.putCmd
  repeat' first
    | with_reducible assumption
    | with_reducible apply State.setHq_inv

theorem State.logError_inv (s : State) (tag : ℕ) (c : Cmd) (status : ℕ) (detail : ℕ) (field : ℕ) (h : s.Inv) : (State.logError s tag c status detail field).Inv := by
  unfold State.logError
  repeat' first
    | with_reducible assumption
    | with_reducible apply State.setHq_inv

theorem State.finishTag_inv (s : State) (tag : ℕ) (status : ℕ) (result : ℕ) (detail : ℕ) (field : ℕ) (h : s.Inv) : (State.finishTag s tag status result detail field).Inv := by
  unfold State.finishTag
  repeat' first
    | with_reducible assumption
    | with_reducible apply State.raise_inv
    | with_reducible apply State.putCmd_inv
    | with_reducible apply State.logError_inv
    | with_reducible apply State.inv_ite

theorem runDeleteCq_inv (tag : ℕ) (c : Cmd) (s : State) (h : s.Inv) : (runDeleteCq tag c s).Inv := by
  unfold runDeleteCq
  repeat' first
    | with_reducible assumption
    | with_reducible apply State.putCq_inv
    | with_reducible apply State.finishTag_inv
    | with_reducible apply State.inv_ite

theorem runSetCoalescing_inv (tag : ℕ) (c : Cmd) (s : State) (h : s.Inv) : (runSetCoalescing tag c s).Inv := by
  unfold runSetCoalescing
  repeat' first
    | with_reducible assumption
    | with_reducible apply State.putCq_inv
    | with_reducible apply State.finishTag_inv
    | with_reducible apply State.inv_ite

theorem State.setMsixWord_inv (s : State) (fn : Fn) (i : ℕ) (v : ℕ) (h : s.Inv) : (State.setMsixWord s fn i v).Inv := by
  unfold State.setMsixWord
  repeat' first
    | with_reducible assumption
    | with_reducible apply State.setHq_inv

theorem withCmd_inv (tag op : Nat) (s : State) (bad : Cmd → State → Option Nat) (k : Cmd → State → State) (len : Cmd → State → Nat)
    (h : s.Inv) (hk : ∀ c t, t.Inv → (k c t).Inv) : (withCmd tag op s bad k len).Inv := by
  unfold withCmd
  dsimp only
  refine State.inv_ite ?_ h
  split
  · exact State.finishTag_inv _ _ _ _ _ _ h
  · exact State.inv_ite (State.finishTag_inv _ _ _ _ _ _ h) (hk _ _ (State.putCmd_inv _ _ _ h))

theorem State.failBuf_inv (s : State) (tag : ℕ) (status : ℕ) (h : s.Inv) : (State.failBuf s tag status).Inv := by
  unfold State.failBuf
  repeat' first
    | with_reducible assumption
    | with_reducible apply State.winDeny_inv
    | with_reducible apply State.finishTag_inv
    | with_reducible apply State.inv_ite

theorem runCreateSq_inv (tag : ℕ) (c : Cmd) (s : State) (h : s.Inv) : (runCreateSq tag c s).Inv := by
  unfold runCreateSq
  repeat' first
    | with_reducible assumption
    | with_reducible apply State.putSq_inv
    | with_reducible apply State.finishTag_inv
    | with_reducible apply State.failBuf_inv
    | with_reducible apply State.inv_ite

theorem State.dropJobs_inv (s : State) (gone : ℕ → Bool) (h : s.Inv) : (State.dropJobs s gone).Inv := by
  unfold State.dropJobs
  repeat' first
    | with_reducible assumption
    | simp only [State.inv_mk]
    | with_reducible apply And.intro
    | with_reducible apply State.Inv.regs
    | with_reducible apply State.Inv.dram
    | with_reducible apply State.Inv.fstore
    | with_reducible apply State.Inv.cluster

theorem State.endCmd_inv (s : State) (tag : ℕ) (status : ℕ) (h : s.Inv) : (State.endCmd s tag status).Inv := by
  unfold State.endCmd
  repeat' first
    | with_reducible assumption
    | with_reducible apply State.finishTag_inv
    | with_reducible apply State.setHq_inv
    | with_reducible apply State.dropJobs_inv
    | with_reducible apply State.inv_ite

theorem runDeleteSq_inv (tag : ℕ) (c : Cmd) (s : State) (h : s.Inv) : (runDeleteSq tag c s).Inv := by
  unfold runDeleteSq
  repeat' first
    | with_reducible assumption
    | with_reducible intro _
    | with_reducible apply State.setFld_inv
    | with_reducible apply State.putSq_inv
    | with_reducible apply State.finishTag_inv
    | with_reducible apply State.setHq_inv
    | with_reducible apply State.endCmd_inv
    | with_reducible apply State.inv_ite
    | with_reducible apply State.inv_foldl

theorem State.dbError_inv (s : State) (fn : Fn) (v : Word) (h : s.Inv) : (State.dbError s fn v).Inv := by
  unfold State.dbError
  repeat' first
    | with_reducible assumption
    | with_reducible apply State.setFld_inv
    | with_reducible apply State.raise_inv
    | with_reducible apply State.setHq_inv
    | with_reducible apply State.inv_ite

theorem State.finish_inv (s : State) (uid : ℕ) (status : ℕ) (result : ℕ) (detail : ℕ) (h : s.Inv) : (State.finish s uid status result detail).Inv := by
  unfold State.finish
  repeat' first
    | with_reducible assumption
    | with_reducible apply State.finishTag_inv
    | with_reducible apply State.setHq_inv
    | split
    | dsimp only

theorem State.finish?_inv (s : State) (cmd : Option ℕ) (status : ℕ) (result : ℕ) (detail : ℕ) (h : s.Inv) : (State.finish? s cmd status result detail).Inv := by
  unfold State.finish?
  repeat' first
    | with_reducible assumption
    | with_reducible apply State.finish_inv
    | split

theorem State.coalesce_inv (s : State) (fn : Fn) (qid : ℕ) (h : s.Inv) : (State.coalesce s fn qid).Inv := by
  unfold State.coalesce
  repeat' first
    | with_reducible assumption
    | with_reducible apply State.latch_inv
    | with_reducible apply State.putCq_inv
    | with_reducible apply State.inv_ite

theorem State.aqStart_inv (s : State) (fn : Fn) (h : s.Inv) : (State.aqStart s fn).Inv := by
  unfold State.aqStart
  repeat' first
    | with_reducible assumption
    | with_reducible apply State.setFld_inv
    | with_reducible apply State.raise_inv
    | with_reducible apply State.putSq_inv
    | with_reducible apply State.putCq_inv
    | with_reducible apply State.inv_ite

theorem State.teardown_inv (s : State) (fn : Fn) (h : s.Inv) : (State.teardown s fn).Inv := by
  unfold State.teardown
  repeat' first
    | with_reducible assumption
    | with_reducible apply State.setFld_inv
    | with_reducible apply State.setHq_inv
    | with_reducible apply State.dropJobs_inv

theorem writeAqCtrl_inv (r : Req) (v : Word) (s : State) (h : s.Inv) : (writeAqCtrl r v s).Inv := by
  unfold writeAqCtrl
  repeat' first
    | with_reducible assumption
    | with_reducible intro _
    | with_reducible apply withWrite_inv
    | with_reducible apply State.aqStart_inv
    | with_reducible apply State.teardown_inv
    | with_reducible apply State.inv_ite

theorem State.sqFault_inv (s : State) (k : ℕ) (h : s.Inv) : (State.sqFault s k).Inv := by
  unfold State.sqFault
  repeat' first
    | with_reducible assumption
    | with_reducible apply State.setFld_inv
    | with_reducible apply State.raise_inv
    | with_reducible apply State.putSq_inv

theorem State.setCredit_inv (s : State) (fn : Fn) (n : ℕ) (h : s.Inv) : (State.setCredit s fn n).Inv := by
  unfold State.setCredit
  repeat' first
    | with_reducible assumption
    | simp only [State.inv_mk]
    | with_reducible apply And.intro
    | with_reducible apply State.Inv.regs
    | with_reducible apply State.Inv.dram
    | with_reducible apply State.Inv.fstore
    | with_reducible apply State.Inv.cluster
    | split

theorem State.accept_inv (s : State) (k : ℕ) (tag : ℕ) (entry : List Byte) (h : s.Inv) : (State.accept s k tag entry).Inv := by
  unfold State.accept
  repeat' first
    | with_reducible assumption
    | with_reducible apply State.count_inv
    | with_reducible apply State.raise_inv
    | with_reducible apply State.putSq_inv
    | with_reducible apply State.putCmd_inv
    | with_reducible apply State.finishTag_inv
    | with_reducible apply State.setHq_inv
    | with_reducible apply State.inv_ite

theorem State.ring_inv (s : State) (fn : Fn) (v : Word) (h : s.Inv) : (State.ring s fn v).Inv := by
  unfold State.ring
  repeat' first
    | with_reducible assumption
    | with_reducible apply State.putSq_inv
    | with_reducible apply State.putCq_inv
    | with_reducible apply State.dbError_inv
    | with_reducible apply State.setHq_inv
    | with_reducible apply State.inv_ite

theorem writeDoorbell_inv (r : Req) (v : Word) (s : State) (h : s.Inv) : (writeDoorbell r v s).Inv := by
  unfold writeDoorbell
  repeat' first
    | with_reducible assumption
    | with_reducible intro _
    | with_reducible apply withWrite_inv
    | with_reducible apply State.ring_inv

theorem State.post_inv (s : State) (tag : ℕ) (h : s.Inv) : (State.post s tag).Inv := by
  unfold State.post
  repeat' first
    | with_reducible assumption
    | with_reducible apply State.setFld64_inv
    | with_reducible apply State.emit_inv
    | with_reducible apply State.raise_inv
    | with_reducible apply State.latch_inv
    | with_reducible apply State.putCq_inv
    | with_reducible apply State.putCmd_inv
    | with_reducible apply State.setHq_inv
    | with_reducible apply State.inv_ite

theorem State.toHost_inv (s : State) (fn : Fn) (b : List (Nat × Nat)) (d : List Byte) (h : s.Inv) : (s.toHost fn b d).Inv := by
  induction b generalizing s d with
  | nil => exact h
  | cons e t ih =>
    unfold State.toHost
    with_reducible apply State.inv_ite
    · exact h
    · exact ih _ _ (State.emit_inv _ _ h)

theorem State.sendMsix_inv (s : State) (fn : Fn) (vec : ℕ) (h : s.Inv) : (State.sendMsix s fn vec).Inv := by
  unfold State.sendMsix
  repeat' first
    | with_reducible assumption
    | with_reducible apply State.emit_inv
    | with_reducible apply State.raise_inv
    | with_reducible apply State.setCredit_inv
    | with_reducible apply State.inv_ite
    | simp only [State.inv_mk]
    | with_reducible apply And.intro
    | with_reducible apply State.Inv.regs
    | with_reducible apply State.Inv.dram
    | with_reducible apply State.Inv.fstore
    | with_reducible apply State.Inv.cluster

theorem State.resetPci_inv (s : State) (fn : Fn) (mps : ℕ) (h : s.Inv) : (State.resetPci s fn mps).Inv := by
  unfold State.resetPci
  repeat' first
    | with_reducible assumption
    | with_reducible apply State.setPciFn_inv
    | with_reducible apply State.setHq_inv

theorem State.linkDown_inv (s : State) (h : s.Inv) : (State.linkDown s).Inv := by
  unfold State.linkDown
  repeat' first
    | with_reducible assumption
    | with_reducible apply State.teardown_inv
    | with_reducible apply State.resetPci_inv
    | simp only [State.inv_mk]
    | with_reducible apply And.intro
    | with_reducible apply State.Inv.regs
    | with_reducible apply State.Inv.dram
    | with_reducible apply State.Inv.fstore
    | with_reducible apply State.Inv.cluster

theorem State.masterOff_inv (s : State) (fn : Fn) (h : s.Inv) : (State.masterOff s fn).Inv := by
  unfold State.masterOff
  repeat' first
    | with_reducible assumption
    | with_reducible apply State.setPciFn_inv
    | with_reducible apply State.teardown_inv

theorem runCreateCq_inv (tag : ℕ) (c : Cmd) (s : State) (h : s.Inv) : (runCreateCq tag c s).Inv := by
  unfold runCreateCq
  repeat' first
    | with_reducible assumption
    | with_reducible apply State.putCq_inv
    | with_reducible apply State.finishTag_inv
    | with_reducible apply State.failBuf_inv
    | with_reducible apply State.inv_ite

theorem State.refill_inv (s : State) (h : s.Inv) : (State.refill s).Inv := by
  unfold State.refill
  repeat' first
    | with_reducible assumption
    | with_reducible apply State.setCredit_inv

theorem State.fetch_inv (s : State) (tag : ℕ) (entry : Option (List Byte)) (h : s.Inv) : (State.fetch s tag entry).Inv := by
  unfold State.fetch
  repeat' first
    | with_reducible assumption
    | with_reducible apply State.notePause_inv
    | with_reducible apply State.setHq_inv
    | with_reducible apply State.sqFault_inv
    | with_reducible apply State.accept_inv
    | with_reducible apply State.inv_ite
    | split

theorem State.setPort_inv (s : State) (k : ℕ) (p : PortSt) (h : s.Inv) : (State.setPort s k p).Inv := by
  unfold State.setPort
  repeat' first
    | with_reducible assumption
    | with_reducible apply State.inv_ite
    | simp only [State.inv_mk]
    | with_reducible apply And.intro
    | with_reducible apply State.Inv.regs
    | with_reducible apply State.Inv.dram
    | with_reducible apply State.Inv.fstore
    | with_reducible apply State.Inv.cluster

theorem State.rxPacket_inv (s : State) (k : ℕ) (p : Packet) (h : s.Inv) : (State.rxPacket s k p).Inv := by
  unfold State.rxPacket
  repeat' first
    | with_reducible assumption
    | with_reducible apply State.count_inv
    | with_reducible apply State.raise_inv
    | with_reducible apply State.setPort_inv
    | with_reducible apply State.inv_ite

theorem State.heartbeat_inv (s : State) (k : ℕ) (h : s.Inv) : (State.heartbeat s k).Inv := by
  unfold State.heartbeat
  repeat' first
    | with_reducible assumption
    | with_reducible apply State.emit_inv
    | with_reducible apply State.setPort_inv
    | with_reducible apply State.inv_ite

theorem State.setMap_inv (s : State) (k : ℕ) (m : List ℕ) (h : s.Inv) : (State.setMap s k m).Inv := by
  unfold State.setMap
  repeat' first
    | with_reducible assumption
    | with_reducible apply State.setFld_inv
    | with_reducible apply State.setPort_inv

theorem State.sendBc_inv (s : State) (k : ℕ) (m : BcMsg) (h : s.Inv) : (State.sendBc s k m).Inv := by
  unfold State.sendBc
  repeat' first
    | with_reducible assumption
    | with_reducible apply State.emit_inv
    | with_reducible apply State.setPort_inv

theorem State.postBc_inv (s : State) (k : ℕ) (op : ℕ) (arg : ℕ) (data : List (ℕ × ℕ)) (use : BcUse) (h : s.Inv) : (State.postBc s k op arg data use).Inv := by
  unfold State.postBc
  repeat' first
    | with_reducible assumption
    | with_reducible apply State.setPort_inv
    | with_reducible apply State.sendBc_inv
    | split
    | dsimp only

theorem State.sendEqset_inv (s : State) (k : ℕ) (h : s.Inv) : (State.sendEqset s k).Inv := by
  unfold State.sendEqset
  repeat' first
    | with_reducible assumption
    | with_reducible apply State.setPort_inv
    | with_reducible apply State.postBc_inv

theorem State.showLoss_inv (s : State) (k : ℕ) (h : s.Inv) : (State.showLoss s k).Inv := by
  unfold State.showLoss
  repeat' first
    | with_reducible assumption
    | with_reducible apply State.setFld_inv

theorem State.showPort_inv (s : State) (k : ℕ) (h : s.Inv) : (State.showPort s k).Inv := by
  unfold State.showPort
  repeat' first
    | with_reducible assumption
    | with_reducible apply State.setFld_inv

theorem State.lockLost_inv (s0 : State) (s : State) (lane : ℕ) (h : s.Inv) : (State.lockLost s0 s lane).Inv := by
  unfold State.lockLost
  repeat' first
    | with_reducible assumption
    | with_reducible apply State.count_inv
    | with_reducible apply State.raise_inv
    | with_reducible apply State.raiseIf_inv
    | with_reducible apply State.setPort_inv
    | with_reducible apply State.showLoss_inv
    | with_reducible apply State.showPort_inv
    | with_reducible apply State.inv_ite

theorem State.adaptLane_inv (s : State) (lane : ℕ) (h : s.Inv) : (State.adaptLane s lane).Inv := by
  unfold State.adaptLane
  repeat' first
    | with_reducible assumption
    | with_reducible apply State.setPort_inv
    | with_reducible apply State.inv_ite
    | simp only [State.inv_mk]
    | with_reducible apply And.intro
    | with_reducible apply State.Inv.regs
    | with_reducible apply State.Inv.dram
    | with_reducible apply State.Inv.fstore
    | with_reducible apply State.Inv.cluster

theorem State.blockLost_inv (s0 : State) (lane : ℕ) (h : s0.Inv) : (State.blockLost s0 lane).Inv := by
  unfold State.blockLost
  repeat' first
    | with_reducible assumption
    | with_reducible apply State.setFld_inv
    | with_reducible apply State.raise_inv
    | with_reducible apply State.lockLost_inv
    | with_reducible apply State.adaptLane_inv
    | with_reducible apply State.inv_ite

theorem State.linked_inv (s : State) (k : ℕ) (h : s.Inv) : (State.linked s k).Inv := by
  unfold State.linked
  repeat' first
    | with_reducible assumption
    | with_reducible apply State.setOn_inv
    | with_reducible apply State.raise_inv
    | with_reducible apply State.setPort_inv
    | with_reducible apply State.showPort_inv

theorem State.endMailbox_inv (s : State) (k : ℕ) (result : ℕ) (h : s.Inv) : (State.endMailbox s k result).Inv := by
  unfold State.endMailbox
  repeat' first
    | with_reducible assumption
    | with_reducible apply State.setFld_inv
    | with_reducible apply State.raise_inv

theorem State.restoreMap_inv (s : State) (k : ℕ) (h : s.Inv) : (State.restoreMap s k).Inv := by
  unfold State.restoreMap
  repeat' first
    | with_reducible assumption
    | with_reducible apply State.setFld_inv
    | with_reducible apply State.setMap_inv
    | with_reducible apply State.showPort_inv

theorem State.bcDone_inv (s : State) (k : ℕ) (m : BcMsg) (answer : Option ℕ) (h : s.Inv) : (State.bcDone s k m answer).Inv := by
  unfold State.bcDone
  repeat' first
    | with_reducible assumption
    | with_reducible apply State.setFld_inv
    | with_reducible apply State.linked_inv
    | with_reducible apply State.setPort_inv
    | with_reducible apply State.endMailbox_inv
    | with_reducible apply State.restoreMap_inv
    | split

theorem State.nextBc_inv (s : State) (k : ℕ) (h : s.Inv) : (State.nextBc s k).Inv := by
  unfold State.nextBc
  repeat' first
    | with_reducible assumption
    | with_reducible apply State.setPort_inv
    | with_reducible apply State.sendBc_inv
    | split
    | dsimp only

theorem State.bcTimeout_inv (s : State) (k : ℕ) (h : s.Inv) : (State.bcTimeout s k).Inv := by
  unfold State.bcTimeout
  repeat' first
    | with_reducible assumption
    | with_reducible apply State.raise_inv
    | with_reducible apply State.bcDone_inv
    | with_reducible apply State.nextBc_inv
    | with_reducible apply State.sendBc_inv
    | split

theorem State.sendFwr_inv (s : State) (k : ℕ) (frame : ℕ) (h : s.Inv) : (State.sendFwr s k frame).Inv := by
  unfold State.sendFwr
  repeat' first
    | with_reducible assumption
    | with_reducible apply State.setPort_inv
    | with_reducible apply State.postBc_inv
    | with_reducible apply State.inv_ite

theorem State.linkTake_inv (s : State) (k : ℕ) (used : Bool) (h : s.Inv) : (State.linkTake s k used).Inv := by
  unfold State.linkTake
  repeat' first
    | with_reducible assumption
    | with_reducible intro _
    | with_reducible apply State.setOn_inv
    | with_reducible apply State.setFld_inv
    | with_reducible apply State.sendEqset_inv
    | with_reducible apply State.setPort_inv
    | with_reducible apply State.showLoss_inv
    | with_reducible apply State.sendFwr_inv
    | with_reducible apply State.postBc_inv
    | with_reducible apply State.showPort_inv
    | with_reducible apply State.inv_ite
    | with_reducible apply State.inv_foldl

theorem State.losSet_inv (s0 : State) (lane : ℕ) (h : s0.Inv) : (State.losSet s0 lane).Inv := by
  unfold State.losSet
  repeat' first
    | with_reducible assumption
    | with_reducible apply State.count_inv
    | with_reducible apply State.setFld_inv
    | with_reducible apply State.raise_inv
    | with_reducible apply State.lockLost_inv
    | with_reducible apply State.adaptLane_inv
    | with_reducible apply State.inv_ite

theorem State.trainEnds_inv (s : State) (k : ℕ) (e : Fld) (h : s.Inv) : (State.trainEnds s k e).Inv := by
  unfold State.trainEnds
  repeat' first
    | with_reducible assumption
    | with_reducible apply State.raise_inv
    | with_reducible apply State.setPort_inv
    | with_reducible apply State.showPort_inv

theorem State.trainStep5_inv (s : State) (k : ℕ) (h : s.Inv) : (State.trainStep5 s k).Inv := by
  unfold State.trainStep5
  repeat' first
    | with_reducible assumption
    | with_reducible apply State.setFld_inv
    | with_reducible apply State.sendEqset_inv
    | with_reducible apply State.setPort_inv
    | with_reducible apply State.trainEnds_inv
    | with_reducible apply State.inv_ite

theorem writeBcCtrl_inv (r : Req) (k : ℕ) (v : Word) (s : State) (h : s.Inv) : (writeBcCtrl r k v s).Inv := by
  unfold writeBcCtrl
  repeat' first
    | with_reducible assumption
    | with_reducible intro _
    | with_reducible apply State.setFld_inv
    | with_reducible apply State.reject_inv
    | with_reducible apply withWrite_inv
    | with_reducible apply State.postBc_inv
    | with_reducible apply State.inv_ite

theorem State.dropBc_inv (s : State) (k : ℕ) (h : s.Inv) : (State.dropBc s k).Inv := by
  unfold State.dropBc
  repeat' first
    | with_reducible assumption
    | with_reducible apply State.setPort_inv
    | with_reducible apply State.endMailbox_inv
    | with_reducible apply State.inv_ite

theorem State.unlinkPort_inv (s : State) (k : ℕ) (h : s.Inv) : (State.unlinkPort s k).Inv := by
  unfold State.unlinkPort
  repeat' first
    | with_reducible assumption
    | with_reducible apply State.setMap_inv
    | with_reducible apply State.setPort_inv
    | with_reducible apply State.dropBc_inv
    | with_reducible apply State.showPort_inv

theorem State.gangChanged_inv (s : State) (h : s.Inv) : (State.gangChanged s).Inv := by
  unfold State.gangChanged
  repeat' first
    | with_reducible assumption
    | with_reducible apply State.unlinkPort_inv

theorem State.trainFails_inv (s : State) (k : ℕ) (h : s.Inv) : (State.trainFails s k).Inv := by
  unfold State.trainFails
  repeat' first
    | with_reducible assumption
    | with_reducible intro _
    | with_reducible apply State.setFld_inv
    | with_reducible apply State.wr_inv
    | with_reducible apply State.raise_inv
    | with_reducible apply State.setPort_inv
    | with_reducible apply State.dropBc_inv
    | with_reducible apply State.showPort_inv
    | with_reducible apply State.inv_foldl
    | split

theorem State.startTraining_inv (s : State) (k : ℕ) (h : s.Inv) : (State.startTraining s k).Inv := by
  unfold State.startTraining
  repeat' first
    | with_reducible assumption
    | with_reducible apply State.setFld_inv
    | with_reducible apply State.emit_inv
    | with_reducible apply State.setPort_inv
    | with_reducible apply State.dropBc_inv
    | with_reducible apply State.showPort_inv

theorem State.rxAlign_inv (s : State) (k : ℕ) (h : s.Inv) : (State.rxAlign s k).Inv := by
  unfold State.rxAlign
  repeat' first
    | with_reducible assumption
    | with_reducible apply State.raise_inv
    | with_reducible apply State.setPort_inv
    | with_reducible apply State.showLoss_inv
    | with_reducible apply State.showPort_inv
    | with_reducible apply State.inv_ite

theorem State.rxSmsg_inv (s : State) (k : ℕ) (seq : ℕ) (kind : ℕ) (data : ℕ) (h : s.Inv) : (State.rxSmsg s k seq kind data).Inv := by
  unfold State.rxSmsg
  repeat' first
    | with_reducible assumption
    | with_reducible apply State.setFld_inv
    | with_reducible apply State.raise_inv
    | with_reducible apply State.bcDone_inv
    | with_reducible apply State.nextBc_inv
    | split

theorem State.cdrLocked_inv (s : State) (lane : ℕ) (h : s.Inv) : (State.cdrLocked s lane).Inv := by
  unfold State.cdrLocked
  repeat' first
    | with_reducible assumption
    | with_reducible apply State.setFld_inv
    | with_reducible apply State.inv_ite

theorem State.applyFallback_inv (s : State) (k : ℕ) (f : ℕ) (h : s.Inv) : (State.applyFallback s k f).Inv := by
  unfold State.applyFallback
  repeat' first
    | with_reducible assumption
    | with_reducible apply State.setFld_inv
    | with_reducible apply State.raise_inv
    | with_reducible apply State.setMap_inv
    | with_reducible apply State.setPort_inv
    | with_reducible apply State.showLoss_inv
    | with_reducible apply State.showPort_inv
    | with_reducible apply State.inv_ite

theorem State.eqAdapted_inv (s : State) (k : ℕ) (h : s.Inv) : (State.eqAdapted s k).Inv := by
  unfold State.eqAdapted
  repeat' first
    | with_reducible assumption
    | with_reducible apply State.linked_inv
    | with_reducible apply State.adaptLane_inv
    | with_reducible apply State.inv_ite
    | with_reducible apply State.inv_foldl

theorem State.fallbackTimeout_inv (s : State) (k : ℕ) (h : s.Inv) : (State.fallbackTimeout s k).Inv := by
  unfold State.fallbackTimeout
  repeat' first
    | with_reducible assumption
    | with_reducible apply State.raise_inv
    | with_reducible apply State.setPort_inv
    | with_reducible apply State.inv_ite

theorem State.rxSol_inv (s : State) (k : ℕ) (lane : ℕ) (line : ℕ) (depth : ℕ) (dg : ℕ) (cells : ℕ) (h : s.Inv) : (State.rxSol s k lane line depth dg cells).Inv := by
  unfold State.rxSol
  repeat' first
    | with_reducible assumption
    | with_reducible apply State.setPort_inv
    | with_reducible apply State.inv_ite

theorem State.cdrLost_inv (s : State) (lane : ℕ) (h : s.Inv) : (State.cdrLost s lane).Inv := by
  unfold State.cdrLost
  repeat' first
    | with_reducible assumption
    | with_reducible apply State.count_inv
    | with_reducible apply State.setFld_inv
    | with_reducible apply State.raise_inv
    | with_reducible apply State.lockLost_inv
    | with_reducible apply State.inv_ite

theorem State.rxTrain_inv (s : State) (b : TrainBlk) (h : s.Inv) : (State.rxTrain s b).Inv := by
  unfold State.rxTrain
  repeat' first
    | with_reducible assumption
    | with_reducible apply State.setOn_inv
    | with_reducible apply State.setFld_inv
    | with_reducible apply State.setMap_inv
    | with_reducible apply State.setPort_inv
    | with_reducible apply State.trainStep5_inv
    | with_reducible apply State.trainEnds_inv
    | with_reducible apply State.inv_ite

theorem State.blockLocked_inv (s : State) (lane : ℕ) (h : s.Inv) : (State.blockLocked s lane).Inv := by
  unfold State.blockLocked
  repeat' first
    | with_reducible assumption
    | with_reducible apply State.setFld_inv
    | with_reducible apply State.inv_ite

theorem driveLanes_inv (s0 : State) (s : State) (h : s.Inv) : (driveLanes s0 s).Inv := by
  unfold driveLanes
  repeat' first
    | with_reducible assumption
    | with_reducible intro _
    | with_reducible apply State.emit_inv
    | with_reducible apply State.inv_ite
    | with_reducible apply State.inv_foldl

theorem State.trainTimeout_inv (s : State) (k : ℕ) (h : s.Inv) : (State.trainTimeout s k).Inv := by
  unfold State.trainTimeout
  repeat' first
    | with_reducible assumption
    | with_reducible apply State.trainFails_inv
    | split

theorem State.alignNeeded_inv (s : State) (lane : ℕ) (h : s.Inv) : (State.alignNeeded s lane).Inv := by
  unfold State.alignNeeded
  repeat' first
    | with_reducible assumption
    | with_reducible apply State.raise_inv
    | with_reducible apply State.inv_ite

theorem State.countLoss_inv (s : State) (k : ℕ) (f : ℕ) (h : s.Inv) : (State.countLoss s k f).Inv := by
  unfold State.countLoss
  repeat' first
    | with_reducible assumption
    | with_reducible apply State.setPort_inv
    | with_reducible apply State.showLoss_inv
    | with_reducible apply State.postBc_inv
    | split
    | dsimp only

theorem writeLinkCtrl_inv (r : Req) (k : ℕ) (v : Word) (s : State) (h : s.Inv) : (writeLinkCtrl r k v s).Inv := by
  unfold writeLinkCtrl
  repeat' first
    | with_reducible assumption
    | with_reducible intro _
    | with_reducible apply State.wr_inv
    | with_reducible apply State.reject_inv
    | with_reducible apply withWrite_inv
    | with_reducible apply State.gangChanged_inv
    | with_reducible apply State.startTraining_inv
    | with_reducible apply State.inv_ite

theorem State.losCleared_inv (s : State) (lane : ℕ) (h : s.Inv) : (State.losCleared s lane).Inv := by
  unfold State.losCleared
  repeat' first
    | with_reducible assumption
    | with_reducible apply State.setFld_inv
    | with_reducible apply State.inv_ite

theorem State.pairDiscard_inv (s : State) (k : ℕ) (h : s.Inv) : (State.pairDiscard s k).Inv := by
  unfold State.pairDiscard
  repeat' first
    | with_reducible assumption
    | with_reducible apply State.count_inv
    | with_reducible apply State.raise_inv
    | with_reducible apply State.setPort_inv

theorem State.showRecord_inv (s : State) (f : OpenFrame) (flags : ℕ) (h : s.Inv) : (State.showRecord s f flags).Inv := by
  unfold State.showRecord
  repeat' first
    | with_reducible assumption
    | with_reducible apply State.setFld64_inv
    | with_reducible apply State.setFld_inv
    | with_reducible apply State.raiseIf_inv

theorem State.writeLine_inv (s : State) (slot : ℕ) (k : ℕ) (y : ℕ) (vs : List ℕ) (h : s.Inv) : (State.writeLine s slot k y vs).Inv := by
  unfold State.writeLine
  repeat' first
    | with_reducible assumption
    | with_reducible apply State.pokeN_inv

theorem State.setIngress_inv (s : State) (i : IngressSt) (h : s.Inv) : (State.setIngress s i).Inv := by
  unfold State.setIngress
  repeat' first
    | with_reducible assumption
    | simp only [State.inv_mk]
    | with_reducible apply And.intro
    | with_reducible apply State.Inv.regs
    | with_reducible apply State.Inv.dram
    | with_reducible apply State.Inv.fstore
    | with_reducible apply State.Inv.cluster

theorem State.setOpen_inv (s : State) (f : Option OpenFrame) (h : s.Inv) : (State.setOpen s f).Inv := by
  unfold State.setOpen
  repeat' first
    | with_reducible assumption
    | with_reducible apply State.setIngress_inv

theorem State.degrade_inv (s : State) (k : ℕ) (h : s.Inv) : (State.degrade s k).Inv := by
  unfold State.degrade
  repeat' first
    | with_reducible assumption
    | with_reducible apply State.count_inv
    | with_reducible apply State.raise_inv
    | with_reducible apply State.setOpen_inv
    | split

theorem State.noteMeta_inv (s : State) (f : ℕ) (b : List Byte) (h : s.Inv) : (State.noteMeta s f b).Inv := by
  unfold State.noteMeta
  repeat' first
    | with_reducible assumption
    | with_reducible apply State.inv_ite
    | simp only [State.inv_mk]
    | with_reducible apply And.intro
    | with_reducible apply State.Inv.regs
    | with_reducible apply State.Inv.dram
    | with_reducible apply State.Inv.fstore
    | with_reducible apply State.Inv.cluster

theorem State.closeFrame_inv (s : State) (h : s.Inv) : (State.closeFrame s).Inv := by
  unfold State.closeFrame
  repeat' first
    | with_reducible assumption
    | with_reducible intro _
    | with_reducible apply State.setFld_inv
    | with_reducible apply State.raiseIf_inv
    | with_reducible apply State.pokeN_inv
    | with_reducible apply State.showRecord_inv
    | with_reducible apply State.writeLine_inv
    | with_reducible apply State.degrade_inv
    | with_reducible apply State.setOpen_inv
    | with_reducible apply State.noteMeta_inv
    | with_reducible apply State.setIngress_inv
    | with_reducible apply State.inv_foldl
    | split

theorem State.endStreaming_inv (s : State) (k : ℕ) (h : s.Inv) : (State.endStreaming s k).Inv := by
  unfold State.endStreaming
  repeat' first
    | with_reducible assumption
    | with_reducible apply State.setPort_inv
    | with_reducible apply State.showPort_inv
    | with_reducible apply State.inv_ite

theorem State.stopDiscard_inv (s : State) (k : ℕ) (h : s.Inv) : (State.stopDiscard s k).Inv := by
  unfold State.stopDiscard
  repeat' first
    | with_reducible assumption
    | with_reducible apply State.count_inv
    | with_reducible apply State.setPort_inv
    | with_reducible apply State.closeFrame_inv
    | with_reducible apply State.endStreaming_inv
    | with_reducible apply State.inv_ite
    | with_reducible apply State.inv_foldl

theorem State.rxSof_inv (s : State) (k : ℕ) (frame : ℕ) (tag : ℕ) (h : s.Inv) : (State.rxSof s k frame tag).Inv := by
  unfold State.rxSof
  repeat' first
    | with_reducible assumption
    | with_reducible apply State.raiseIf_inv
    | with_reducible apply State.setPort_inv
    | with_reducible apply State.showPort_inv
    | with_reducible apply State.pairDiscard_inv
    | with_reducible apply State.stopDiscard_inv
    | with_reducible apply State.inv_ite

theorem State.keepValues_inv (s : State) (n : ℕ) (h : s.Inv) : (State.keepValues s n).Inv := by
  unfold State.keepValues
  repeat' first
    | with_reducible assumption
    | simp only [State.inv_mk]
    | with_reducible apply And.intro
    | with_reducible apply State.Inv.regs
    | with_reducible apply State.Inv.dram
    | with_reducible apply State.Inv.fstore
    | with_reducible apply State.Inv.cluster

theorem State.showRing_inv (s : State) (h : s.Inv) : (State.showRing s).Inv := by
  unfold State.showRing
  repeat' first
    | with_reducible assumption
    | with_reducible apply State.setOn_inv
    | with_reducible apply State.setFld_inv

theorem State.rxMeta_inv (s : State) (k : ℕ) (data : List Byte) (h : s.Inv) : (State.rxMeta s k data).Inv := by
  unfold State.rxMeta
  repeat' first
    | with_reducible assumption
    | with_reducible apply State.setPort_inv
    | with_reducible apply State.setOpen_inv
    | with_reducible apply State.inv_ite
    | split

theorem State.closeIfDone_inv (s : State) (h : s.Inv) : (State.closeIfDone s).Inv := by
  unfold State.closeIfDone
  repeat' first
    | with_reducible assumption
    | with_reducible apply State.closeFrame_inv
    | split

theorem State.pairExpired_inv (s : State) (h : s.Inv) : (State.pairExpired s).Inv := by
  unfold State.pairExpired
  repeat' first
    | with_reducible assumption
    | with_reducible apply State.raise_inv
    | with_reducible apply State.closeIfDone_inv
    | with_reducible apply State.setOpen_inv
    | with_reducible apply State.inv_ite
    | split

theorem State.putSlot_inv (s : State) (j : ℕ) (r : RingSlot) (h : s.Inv) : (State.putSlot s j r).Inv := by
  unfold State.putSlot
  repeat' first
    | with_reducible assumption
    | with_reducible apply State.setIngress_inv

theorem State.releaseSlot_inv (s : State) (j : ℕ) (r : RingSlot) (h : s.Inv) : (State.releaseSlot s j r).Inv := by
  unfold State.releaseSlot
  repeat' first
    | with_reducible assumption
    | with_reducible apply State.showRing_inv
    | with_reducible apply State.putSlot_inv
    | with_reducible apply State.setIngress_inv
    | with_reducible apply State.inv_ite

theorem State.caughtUp_inv (s : State) (f : ℕ) (h : s.Inv) : (State.caughtUp s f).Inv := by
  unfold State.caughtUp
  repeat' first
    | with_reducible assumption
    | with_reducible apply State.raiseIf_inv
    | with_reducible apply State.showRing_inv
    | with_reducible apply State.setIngress_inv
    | with_reducible apply State.releaseSlot_inv
    | split

theorem State.holdPreroll_inv (s : State) (b : ℕ) (h : s.Inv) : (State.holdPreroll s b).Inv := by
  unfold State.holdPreroll
  repeat' first
    | with_reducible assumption
    | with_reducible intro _
    | with_reducible apply State.setFld_inv
    | with_reducible apply State.pokeN_inv
    | with_reducible apply State.showRing_inv
    | with_reducible apply State.putSlot_inv
    | with_reducible apply State.setIngress_inv
    | with_reducible apply State.inv_ite
    | with_reducible apply State.inv_foldl

theorem State.rxEof_inv (s : State) (k : ℕ) (lines : ℕ) (h : s.Inv) : (State.rxEof s k lines).Inv := by
  unfold State.rxEof
  repeat' first
    | with_reducible assumption
    | with_reducible apply State.setPort_inv
    | with_reducible apply State.closeIfDone_inv
    | with_reducible apply State.endStreaming_inv
    | with_reducible apply State.setOpen_inv
    | with_reducible apply State.inv_ite
    | split

theorem State.storeLine_inv (s : State) (k : ℕ) (line : ℕ) (f : OpenFrame) (hs : List ℕ) (ls : List ℕ) (status : ℕ) (bad : Bool) (h : s.Inv) : (State.storeLine s k line f hs ls status bad).Inv := by
  unfold State.storeLine
  repeat' first
    | with_reducible assumption
    | with_reducible apply State.raiseIf_inv
    | with_reducible apply State.writeLine_inv
    | with_reducible apply State.degrade_inv
    | with_reducible apply State.setOpen_inv
    | with_reducible apply State.inv_ite
    | split

theorem State.ingressStart_inv (s : State) (h : s.Inv) : (State.ingressStart s).Inv := by
  unfold State.ingressStart
  repeat' first
    | with_reducible assumption
    | with_reducible intro _
    | with_reducible apply State.setFld_inv
    | with_reducible apply State.showRing_inv
    | with_reducible apply State.setIngress_inv
    | with_reducible apply State.inv_foldl

theorem State.readEnded_inv (s : State) (f : ℕ) (h : s.Inv) : (State.readEnded s f).Inv := by
  unfold State.readEnded
  repeat' first
    | with_reducible assumption
    | with_reducible apply State.releaseSlot_inv
    | split

theorem State.takeHalf_inv (s : State) (k : ℕ) (f : OpenFrame) (h : s.Inv) : (State.takeHalf s k f).Inv := by
  unfold State.takeHalf
  repeat' first
    | with_reducible assumption
    | with_reducible apply State.setPort_inv
    | with_reducible apply State.setOpen_inv

theorem State.openNew_inv (s : State) (k : ℕ) (n : ℕ) (h : s.Inv) : (State.openNew s k n).Inv := by
  unfold State.openNew
  repeat' first
    | with_reducible assumption
    | with_reducible apply State.count_inv
    | with_reducible apply State.setFld_inv
    | with_reducible apply State.raise_inv
    | with_reducible apply State.showRing_inv
    | with_reducible apply State.putSlot_inv
    | with_reducible apply State.takeHalf_inv
    | split

theorem State.rxEol_inv (s : State) (k : ℕ) (line : ℕ) (h : s.Inv) : (State.rxEol s k line).Inv := by
  unfold State.rxEol
  repeat' first
    | with_reducible assumption
    | with_reducible apply State.count_inv
    | with_reducible apply State.setPort_inv
    | with_reducible apply State.storeLine_inv
    | with_reducible apply State.degrade_inv
    | with_reducible apply State.inv_ite
    | split

theorem State.lineTimeout_inv (s : State) (k : ℕ) (h : s.Inv) : (State.lineTimeout s k).Inv := by
  unfold State.lineTimeout
  repeat' first
    | with_reducible assumption
    | with_reducible apply State.closeIfDone_inv
    | with_reducible apply State.endStreaming_inv
    | with_reducible apply State.setOpen_inv
    | split

theorem State.emptySlot_inv (s : State) (k : ℕ) (st : ℕ) (h : s.Inv) : (State.emptySlot s k st).Inv := by
  unfold State.emptySlot
  repeat' first
    | with_reducible assumption
    | with_reducible apply State.setFld_inv

theorem placeSlot_inv (old : State) (acc : State × Nat) (k : Nat) (h : acc.1.Inv) : (placeSlot old acc k).1.Inv := by
  unfold placeSlot
  dsimp only
  have h1 : ∀ a b, ((acc.1.setFld Pg.fstore (Reg.FSTORE_SLOT_CFG_BASE k) a).setOn Pg.fstore (Reg.FSTORE_SLOT_CFG_PLACED k) b).Inv :=
    fun a b => State.setOn_inv _ _ _ _ (State.setFld_inv _ _ _ _ h)
  split
  · exact State.inv_ite (h1 _ _) (State.emptySlot_inv _ _ _ (h1 _ _))
  · split
    · exact State.emptySlot_inv _ _ _ (h1 _ _)
    · exact State.raise_inv _ _ _ (State.emptySlot_inv _ _ _ (h1 _ _))

theorem State.placeSlots_inv (s old : State) (h : s.Inv) : (s.placeSlots old).Inv := by
  unfold State.placeSlots
  exact State.setFld_inv _ _ _ _ (State.setFld_inv _ _ _ _ (fst_inv_foldl h fun acc k ha => placeSlot_inv old acc k ha))

theorem State.fstoreClear_inv (s : State) (h : s.Inv) : (State.fstoreClear s).Inv := by
  unfold State.fstoreClear
  repeat' first
    | with_reducible assumption
    | with_reducible intro _
    | with_reducible apply State.emptySlot_inv
    | with_reducible apply State.placeSlots_inv
    | with_reducible apply State.inv_ite
    | with_reducible apply State.inv_foldl
    | simp only [State.inv_mk]
    | with_reducible apply And.intro
    | with_reducible apply State.Inv.regs
    | with_reducible apply State.Inv.dram
    | with_reducible apply State.Inv.cluster
    | with_reducible exact Memory.wf_nil

theorem noteFreed_inv (s0 : State) (s : State) (h : s.Inv) : (noteFreed s0 s).Inv := by
  unfold noteFreed
  repeat' first
    | with_reducible assumption
    | with_reducible apply State.raiseIf_inv

theorem State.endLoad_inv (s : State) (cmd : Option ℕ) (result : ℕ) (h : s.Inv) : (State.endLoad s cmd result).Inv := by
  unfold State.endLoad
  repeat' first
    | with_reducible assumption
    | with_reducible apply State.setFld_inv
    | with_reducible apply State.raise_inv
    | with_reducible apply State.raiseIf_inv
    | with_reducible apply State.finish?_inv
    | simp only [State.inv_mk]
    | with_reducible apply And.intro
    | with_reducible apply State.Inv.regs
    | with_reducible apply State.Inv.dram
    | with_reducible apply State.Inv.fstore
    | with_reducible apply State.Inv.cluster

theorem State.beginLoad_inv (s : State) (slot : ℕ) (src : ℕ) (cmd : Option ℕ) (h : s.Inv) : (State.beginLoad s slot src cmd).Inv := by
  unfold State.beginLoad
  repeat' first
    | with_reducible assumption
    | with_reducible apply State.setFld_inv
    | with_reducible apply State.emptySlot_inv
    | with_reducible apply State.endLoad_inv
    | with_reducible apply State.inv_ite
    | simp only [State.inv_mk]
    | with_reducible apply And.intro
    | with_reducible apply State.Inv.regs
    | with_reducible apply State.Inv.dram
    | with_reducible apply State.Inv.fstore
    | with_reducible apply State.Inv.cluster

theorem writeLoadCtrl_inv (r : Req) (v : Word) (s : State) (h : s.Inv) : (writeLoadCtrl r v s).Inv := by
  unfold writeLoadCtrl
  repeat' first
    | with_reducible assumption
    | with_reducible intro _
    | with_reducible apply State.setFld_inv
    | with_reducible apply State.reject_inv
    | with_reducible apply withWrite_inv
    | with_reducible apply State.beginLoad_inv
    | with_reducible apply State.inv_ite

theorem State.checkSlots_inv (s : State) (p : ℕ) (h : s.Inv) : (State.checkSlots s p).Inv := by
  unfold State.checkSlots
  repeat' first
    | with_reducible assumption
    | with_reducible apply State.setFld_inv
    | with_reducible apply State.raiseIf_inv
    | with_reducible apply State.inv_ite

theorem State.passCommit_inv (s : State) (n : ℕ) (h : s.Inv) : (State.passCommit s n).Inv := by
  unfold State.passCommit
  repeat' first
    | with_reducible assumption
    | with_reducible apply State.commitPoint_inv
    | with_reducible apply noteFreed_inv
    | with_reducible apply State.checkSlots_inv
    | with_reducible apply State.inv_foldl

theorem State.frameValues_inv (s : State) (n : ℕ) (h : s.Inv) : (State.frameValues s n).Inv := by
  unfold State.frameValues
  repeat' first
    | with_reducible assumption
    | with_reducible apply State.keepValues_inv
    | with_reducible apply State.passCommit_inv
    | with_reducible apply State.inv_ite

theorem State.loadDone_inv (s : State) (h : s.Inv) : (State.loadDone s).Inv := by
  unfold State.loadDone
  repeat' first
    | with_reducible assumption
    | with_reducible apply State.setFld_inv
    | with_reducible apply State.emptySlot_inv
    | with_reducible apply State.endLoad_inv
    | simp only [State.inv_mk]
    | with_reducible apply And.intro
    | with_reducible apply State.Inv.regs
    | with_reducible apply State.Inv.dram
    | with_reducible apply State.Inv.fstore
    | with_reducible apply State.Inv.cluster
    | with_reducible apply Memory.wf_setN
    | split

theorem State.setFrameNow_inv (s : State) (n : ℕ) (h : s.Inv) : (State.setFrameNow s n).Inv := by
  unfold State.setFrameNow
  repeat' first
    | with_reducible assumption
    | with_reducible apply State.setFld64_inv

theorem writeSlotCfg_inv (r : Req) (k : ℕ) (v : Word) (s : State) (h : s.Inv) : (writeSlotCfg r k v s).Inv := by
  unfold writeSlotCfg
  repeat' first
    | with_reducible assumption
    | with_reducible intro _
    | with_reducible apply withWrite_inv
    | with_reducible apply plainStore_inv
    | with_reducible apply State.placeSlots_inv
    | with_reducible apply State.inv_ite

theorem State.dropPics_inv (s : State) (h : s.Inv) : (State.dropPics s).Inv := by
  unfold State.dropPics
  repeat' first
    | with_reducible assumption
    | simp only [State.inv_mk]
    | with_reducible apply And.intro
    | with_reducible apply State.Inv.regs
    | with_reducible apply State.Inv.dram
    | with_reducible apply State.Inv.fstore
    | with_reducible apply State.Inv.cluster

theorem State.feSat_inv (s : State) (n : ℕ) (h : s.Inv) : (State.feSat s n).Inv := by
  unfold State.feSat
  repeat' first
    | with_reducible assumption
    | with_reducible apply State.countBy_inv
    | with_reducible apply State.raiseIf_inv

theorem State.growWork_inv (s : State) (q : Pic) (n : Nat) (h : s.Inv) : (s.growWork q n).2.Inv := by
  induction n generalizing s q with
  | zero => exact h
  | succ n ih => exact ih _ _ (State.feSat_inv _ _ h)

theorem State.growPf_inv (s : State) (q : Pic) (n : Nat) (h : s.Inv) : (s.growPf q n).2.Inv := by
  induction n generalizing s q with
  | zero => exact h
  | succ n ih => exact ih _ _ (State.feSat_inv _ _ (State.raiseIf_inv _ _ _ _ (State.countBy_inv _ _ _ _ h)))

theorem State.putPic_inv (s : State) (q : Pic) (h : s.Inv) : (State.putPic s q).Inv := by
  unfold State.putPic
  repeat' first
    | with_reducible assumption
    | simp only [State.inv_mk]
    | with_reducible apply And.intro
    | with_reducible apply State.Inv.regs
    | with_reducible apply State.Inv.dram
    | with_reducible apply State.Inv.fstore
    | with_reducible apply State.Inv.cluster

theorem State.feLine_inv (s : State) (q : Pic) (row : List ℕ) (h : s.Inv) : (State.feLine s q row).Inv := by
  unfold State.feLine
  repeat' first
    | with_reducible assumption
    | with_reducible apply State.setFld64_inv
    | with_reducible apply State.count_inv
    | with_reducible apply State.raise_inv
    | with_reducible apply State.growWork_inv
    | with_reducible apply State.growPf_inv
    | with_reducible apply State.putPic_inv
    | with_reducible apply State.inv_ite

theorem State.sharedLine_inv (s : State) (h : s.Inv) : (State.sharedLine s).Inv := by
  unfold State.sharedLine
  repeat' first
    | with_reducible assumption
    | with_reducible apply State.readEnded_inv
    | with_reducible apply State.setIngress_inv
    | with_reducible apply noteFreed_inv
    | with_reducible apply State.dropPics_inv
    | with_reducible apply State.feLine_inv
    | simp only [State.inv_mk]
    | with_reducible apply And.intro
    | with_reducible apply State.Inv.regs
    | with_reducible apply State.Inv.dram
    | with_reducible apply State.Inv.fstore
    | with_reducible apply State.Inv.cluster
    | split

theorem State.loadDefects_inv (s : State) (f w k : Nat) (h : s.Inv) : (s.loadDefects f w k).2.Inv := by
  unfold State.loadDefects
  dsimp only
  split
  · exact State.raiseIf_inv _ _ _ _ (State.raiseIf_inv _ _ _ _ (State.countBy_inv _ _ _ _ h))
  · exact h

theorem State.sharedStart_inv (s : State) (h : s.Inv) : (State.sharedStart s).Inv := by
  unfold State.sharedStart
  repeat' first
    | with_reducible assumption
    | with_reducible apply State.setIngress_inv
    | with_reducible apply State.loadDefects_inv
    | simp only [State.inv_mk]
    | with_reducible apply And.intro
    | with_reducible apply State.Inv.regs
    | with_reducible apply State.Inv.dram
    | with_reducible apply State.Inv.fstore
    | with_reducible apply State.Inv.cluster
    | split

theorem State.feStart_inv (s : State) (h : s.Inv) : (State.feStart s).Inv := by
  unfold State.feStart
  repeat' first
    | with_reducible assumption
    | with_reducible intro _
    | with_reducible apply State.setFld_inv
    | with_reducible apply State.inv_foldl

theorem State.showCores_inv (s : State) (h : s.Inv) : (State.showCores s).Inv := by
  unfold State.showCores
  repeat' first
    | with_reducible assumption
    | with_reducible intro _
    | with_reducible apply State.setFld_inv
    | with_reducible apply State.inv_foldl

theorem State.countTiles_inv (s : State) (ts : List TileOut) (h : s.Inv) : (State.countTiles s ts).Inv := by
  unfold State.countTiles
  repeat' first
    | with_reducible assumption
    | with_reducible intro _
    | with_reducible apply State.countBy_inv
    | with_reducible apply State.count_inv
    | with_reducible apply State.raiseIf_inv
    | with_reducible apply State.inv_foldl
    | split

theorem State.writeRecord_inv (s : State) (d : DrawFrame) (catchup : Bool) (flags : ℕ) (ts : List TileOut) (h : s.Inv) : (State.writeRecord s d catchup flags ts).Inv := by
  unfold State.writeRecord
  repeat' first
    | with_reducible assumption
    | with_reducible intro _
    | with_reducible apply State.pokeN_inv
    | with_reducible apply State.inv_foldl

theorem State.showDraw_inv (s : State) (h : s.Inv) : (State.showDraw s).Inv := by
  unfold State.showDraw
  repeat' first
    | with_reducible assumption
    | with_reducible apply State.setFld_inv

theorem State.encodeFrame_inv (s : State) (d : DrawFrame) (catchup : Bool) (flags : ℕ) (h : s.Inv) : (State.encodeFrame s d catchup flags).Inv := by
  unfold State.encodeFrame
  repeat' first
    | with_reducible assumption
    | with_reducible apply State.setFld64_inv
    | with_reducible apply State.setFld_inv
    | with_reducible apply State.showCores_inv
    | with_reducible apply State.countTiles_inv
    | with_reducible apply State.writeRecord_inv
    | with_reducible apply State.showDraw_inv
    | simp only [State.inv_mk]
    | with_reducible apply And.intro
    | with_reducible apply State.Inv.regs
    | with_reducible apply State.Inv.dram
    | with_reducible apply State.Inv.fstore
    | with_reducible apply State.Inv.cluster

theorem State.catchupDone_inv (s : State) (h : s.Inv) : (State.catchupDone s).Inv := by
  unfold State.catchupDone
  repeat' first
    | with_reducible assumption
    | with_reducible apply State.caughtUp_inv
    | with_reducible apply State.encodeFrame_inv
    | with_reducible apply State.showDraw_inv
    | split

theorem State.drawDone_inv (s : State) (h : s.Inv) : (State.drawDone s).Inv := by
  unfold State.drawDone
  repeat' first
    | with_reducible assumption
    | with_reducible apply State.releaseSlot_inv
    | with_reducible apply State.encodeFrame_inv
    | with_reducible apply State.inv_ite
    | split

theorem State.reassign_inv (s : State) (h : s.Inv) : (State.reassign s).Inv := by
  unfold State.reassign
  repeat' first
    | with_reducible assumption
    | with_reducible apply State.raise_inv
    | with_reducible apply State.showCores_inv
    | with_reducible apply State.inv_ite
    | simp only [State.inv_mk]
    | with_reducible apply And.intro
    | with_reducible apply State.Inv.regs
    | with_reducible apply State.Inv.dram
    | with_reducible apply State.Inv.fstore
    | with_reducible apply State.Inv.cluster

theorem State.recRelease_inv (s : State) (f : ℕ) (h : s.Inv) : (State.recRelease s f).Inv := by
  unfold State.recRelease
  repeat' first
    | with_reducible assumption
    | simp only [State.inv_mk]
    | with_reducible apply And.intro
    | with_reducible apply State.Inv.regs
    | with_reducible apply State.Inv.dram
    | with_reducible apply State.Inv.fstore
    | with_reducible apply State.Inv.cluster

theorem State.drawStart_inv (s : State) (h : s.Inv) : (State.drawStart s).Inv := by
  unfold State.drawStart
  repeat' first
    | with_reducible assumption
    | with_reducible intro _
    | with_reducible apply State.setFld_inv
    | with_reducible apply State.showCores_inv
    | with_reducible apply State.showDraw_inv
    | with_reducible apply State.inv_foldl
    | simp only [State.inv_mk]
    | with_reducible apply And.intro
    | with_reducible apply State.Inv.regs
    | with_reducible apply State.Inv.dram
    | with_reducible apply State.Inv.fstore
    | with_reducible apply State.Inv.cluster

theorem State.drawStall_inv (s : State) (f : ℕ) (h : s.Inv) : (State.drawStall s f).Inv := by
  unfold State.drawStall
  repeat' first
    | with_reducible assumption
    | with_reducible apply State.count_inv
    | with_reducible apply State.raise_inv
    | with_reducible apply State.inv_ite
    | simp only [State.inv_mk]
    | with_reducible apply And.intro
    | with_reducible apply State.Inv.regs
    | with_reducible apply State.Inv.dram
    | with_reducible apply State.Inv.fstore
    | with_reducible apply State.Inv.cluster

theorem State.coreFault_inv (s : State) (core : ℕ) (h : s.Inv) : (State.coreFault s core).Inv := by
  unfold State.coreFault
  repeat' first
    | with_reducible assumption
    | with_reducible apply State.setFld_inv
    | with_reducible apply State.raise_inv
    | with_reducible apply State.showRing_inv
    | with_reducible apply State.putSlot_inv
    | simp only [State.inv_mk]
    | with_reducible apply And.intro
    | with_reducible apply State.Inv.regs
    | with_reducible apply State.Inv.dram
    | with_reducible apply State.Inv.fstore
    | with_reducible apply State.Inv.cluster
    | split

theorem State.drawBegin_inv (s : State) (f : ℕ) (catchup : Bool) (h : s.Inv) : (State.drawBegin s f catchup).Inv := by
  unfold State.drawBegin
  repeat' first
    | with_reducible assumption
    | with_reducible apply State.showCores_inv
    | with_reducible apply State.showDraw_inv
    | simp only [State.inv_mk]
    | with_reducible apply And.intro
    | with_reducible apply State.Inv.regs
    | with_reducible apply State.Inv.dram
    | with_reducible apply State.Inv.fstore
    | with_reducible apply State.Inv.cluster

theorem State.putRend_inv (s : State) (q : Pic) (n : ℕ) (r : RendSt) (h : s.Inv) : (State.putRend s q n r).Inv := by
  unfold State.putRend
  repeat' first
    | with_reducible assumption
    | with_reducible apply State.putPic_inv

theorem State.writeGroup_inv (s : State) (q : Pic) (n : ℕ) (g : ℕ) (h : s.Inv) : (State.writeGroup s q n g).Inv := by
  unfold State.writeGroup
  repeat' first
    | with_reducible assumption
    | with_reducible intro _
    | with_reducible apply State.pokeN_inv
    | with_reducible apply State.inv_foldl

theorem State.publish_inv (s : State) (n : ℕ) (h : s.Inv) : (State.publish s n).Inv := by
  unfold State.publish
  repeat' first
    | with_reducible assumption
    | with_reducible apply State.countBy_inv
    | with_reducible apply State.raiseIf_inv
    | with_reducible apply State.putRend_inv
    | with_reducible apply State.writeGroup_inv
    | simp only [State.inv_mk]
    | with_reducible apply And.intro
    | with_reducible apply State.Inv.regs
    | with_reducible apply State.Inv.dram
    | with_reducible apply State.Inv.fstore
    | with_reducible apply State.Inv.cluster
    | split

theorem State.rendDone_inv (s : State) (n : ℕ) (h : s.Inv) : (State.rendDone s n).Inv := by
  unfold State.rendDone
  repeat' first
    | with_reducible assumption
    | with_reducible apply State.setFld64_inv
    | with_reducible apply noteFreed_inv
    | with_reducible apply State.dropPics_inv
    | with_reducible apply State.putRend_inv
    | with_reducible apply State.inv_ite
    | split

theorem State.splitBegin_inv (s : State) (n : ℕ) (h : s.Inv) : (State.splitBegin s n).Inv := by
  unfold State.splitBegin
  repeat' first
    | with_reducible assumption
    | with_reducible apply State.count_inv
    | with_reducible apply State.raise_inv
    | with_reducible apply State.putRend_inv
    | simp only [State.inv_mk]
    | with_reducible apply And.intro
    | with_reducible apply State.Inv.regs
    | with_reducible apply State.Inv.dram
    | with_reducible apply State.Inv.fstore
    | with_reducible apply State.Inv.cluster
    | split

theorem State.splitStart_inv (s : State) (h : s.Inv) : (State.splitStart s).Inv := by
  unfold State.splitStart
  repeat' first
    | with_reducible assumption
    | with_reducible intro _
    | with_reducible apply State.setFld_inv
    | with_reducible apply State.inv_foldl
    | simp only [State.inv_mk]
    | with_reducible apply And.intro
    | with_reducible apply State.Inv.regs
    | with_reducible apply State.Inv.dram
    | with_reducible apply State.Inv.fstore
    | with_reducible apply State.Inv.cluster

theorem State.freeBuf_inv (s : State) (c : Reader) (n : ℕ) (f : ℕ) (h : s.Inv) : (State.freeBuf s c n f).Inv := by
  unfold State.freeBuf
  repeat' first
    | with_reducible assumption
    | simp only [State.inv_mk]
    | with_reducible apply And.intro
    | with_reducible apply State.Inv.regs
    | with_reducible apply State.Inv.dram
    | with_reducible apply State.Inv.fstore
    | with_reducible apply State.Inv.cluster

theorem State.holdBuf_inv (s : State) (c : Reader) (n : ℕ) (f : ℕ) (h : s.Inv) : (State.holdBuf s c n f).Inv := by
  unfold State.holdBuf
  repeat' first
    | with_reducible assumption
    | simp only [State.inv_mk]
    | with_reducible apply And.intro
    | with_reducible apply State.Inv.regs
    | with_reducible apply State.Inv.dram
    | with_reducible apply State.Inv.fstore
    | with_reducible apply State.Inv.cluster

theorem State.showHenc_inv (s : State) (h : s.Inv) : (State.showHenc s).Inv := by
  unfold State.showHenc
  repeat' first
    | with_reducible assumption
    | with_reducible intro _
    | with_reducible apply State.setFld_inv
    | with_reducible apply State.inv_foldl

theorem State.showIris_inv (s : State) (k : ℕ) (i : IrisSt) (h : s.Inv) : (State.showIris s k i).Inv := by
  unfold State.showIris
  repeat' first
    | with_reducible assumption
    | with_reducible apply State.setFld_inv

theorem State.putStream_inv (s : State) (k : ℕ) (h : HencSt) (hi : s.Inv) : (State.putStream s k h).Inv := by
  unfold State.putStream
  repeat' first
    | with_reducible assumption
    | simp only [State.inv_mk]
    | with_reducible apply And.intro
    | with_reducible apply State.Inv.regs
    | with_reducible apply State.Inv.dram
    | with_reducible apply State.Inv.fstore
    | with_reducible apply State.Inv.cluster

theorem State.picBegin_inv (s : State) (k : ℕ) (f : ℕ) (h : s.Inv) : (State.picBegin s k f).Inv := by
  unfold State.picBegin
  repeat' first
    | with_reducible assumption
    | with_reducible apply State.showHenc_inv
    | with_reducible apply State.showIris_inv
    | with_reducible apply State.putStream_inv
    | simp only [State.inv_mk]
    | with_reducible apply And.intro
    | with_reducible apply State.Inv.regs
    | with_reducible apply State.Inv.dram
    | with_reducible apply State.Inv.fstore
    | with_reducible apply State.Inv.cluster

theorem State.advanceGop_inv (s : State) (k : ℕ) (h : s.Inv) : (State.advanceGop s k).Inv := by
  unfold State.advanceGop
  repeat' first
    | with_reducible assumption
    | with_reducible apply State.putStream_inv
    | with_reducible apply State.inv_ite

theorem State.advanceGops_inv (s : State) (k n : Nat) (h : s.Inv) : (s.advanceGops k n).Inv := by
  induction n generalizing s with
  | zero => exact h
  | succ n ih =>
    unfold State.advanceGops
    with_reducible apply State.inv_ite
    · exact ih _ (State.advanceGop_inv _ _ h)
    · exact h

theorem State.picDone_inv (s : State) (k : ℕ) (h : s.Inv) : (State.picDone s k).Inv := by
  unfold State.picDone
  repeat' first
    | with_reducible assumption
    | with_reducible apply State.setFld64_inv
    | with_reducible apply State.countBy_inv
    | with_reducible apply State.setFld_inv
    | with_reducible apply State.raiseIf_inv
    | with_reducible apply State.pokeN_inv
    | with_reducible apply State.freeBuf_inv
    | with_reducible apply State.showHenc_inv
    | with_reducible apply State.showIris_inv
    | with_reducible apply State.putStream_inv
    | with_reducible apply State.advanceGops_inv
    | split

theorem State.hencFault_inv (s : State) (c : ℕ) (h : s.Inv) : (State.hencFault s c).Inv := by
  unfold State.hencFault
  repeat' first
    | with_reducible assumption
    | with_reducible apply State.setFld_inv
    | with_reducible apply State.raise_inv
    | with_reducible apply State.putStream_inv
    | split

theorem State.esRelease_inv (s : State) (k : ℕ) (f : ℕ) (h : s.Inv) : (State.esRelease s k f).Inv := by
  unfold State.esRelease
  repeat' first
    | with_reducible assumption
    | with_reducible apply State.putStream_inv

theorem State.adopt_inv (s : State) (h : s.Inv) : (State.adopt s).Inv := by
  unfold State.adopt
  repeat' first
    | with_reducible assumption
    | with_reducible intro _
    | with_reducible apply State.raise_inv
    | with_reducible apply State.showHenc_inv
    | with_reducible apply State.putStream_inv
    | with_reducible apply State.inv_ite
    | with_reducible apply State.inv_foldl

theorem State.hencStart_inv (s : State) (h : s.Inv) : (State.hencStart s).Inv := by
  unfold State.hencStart
  repeat' first
    | with_reducible assumption
    | with_reducible intro _
    | with_reducible apply State.setFld_inv
    | with_reducible apply State.showHenc_inv
    | with_reducible apply State.showIris_inv
    | with_reducible apply State.inv_ite
    | with_reducible apply State.inv_foldl
    | simp only [State.inv_mk]
    | with_reducible apply And.intro
    | with_reducible apply State.Inv.regs
    | with_reducible apply State.Inv.dram
    | with_reducible apply State.Inv.fstore
    | with_reducible apply State.Inv.cluster

theorem State.picStall_inv (s : State) (k : ℕ) (f : ℕ) (h : s.Inv) : (State.picStall s k f).Inv := by
  unfold State.picStall
  repeat' first
    | with_reducible assumption
    | with_reducible apply State.count_inv
    | with_reducible apply State.raise_inv
    | with_reducible apply State.putStream_inv
    | with_reducible apply State.inv_ite

theorem State.drdecBegin_inv (s : State) (h : s.Inv) : (State.drdecBegin s).Inv := by
  unfold State.drdecBegin
  repeat' first
    | with_reducible assumption
    | with_reducible apply State.frameValues_inv
    | with_reducible apply State.setFrameNow_inv
    | with_reducible apply State.inv_ite
    | simp only [State.inv_mk]
    | with_reducible apply And.intro
    | with_reducible apply State.Inv.regs
    | with_reducible apply State.Inv.dram
    | with_reducible apply State.Inv.fstore
    | with_reducible apply State.Inv.cluster

theorem writeDrdecInProd_inv (r : Req) (v : Word) (s : State) (h : s.Inv) : (writeDrdecInProd r v s).Inv := by
  unfold writeDrdecInProd
  repeat' first
    | with_reducible assumption
    | with_reducible intro _
    | with_reducible apply withWrite_inv
    | with_reducible apply plainStore_inv
    | with_reducible apply State.drdecBegin_inv

theorem State.putDec_inv (s : State) (n : ℕ) (h : HdecSt) (hi : s.Inv) : (State.putDec s n h).Inv := by
  unfold State.putDec
  repeat' first
    | with_reducible assumption
    | simp only [State.inv_mk]
    | with_reducible apply And.intro
    | with_reducible apply State.Inv.regs
    | with_reducible apply State.Inv.dram
    | with_reducible apply State.Inv.fstore
    | with_reducible apply State.Inv.cluster

theorem State.discardAu_inv (s : State) (n : ℕ) (h : s.Inv) : (State.discardAu s n).Inv := by
  unfold State.discardAu
  repeat' first
    | with_reducible assumption
    | with_reducible apply State.putDec_inv

theorem State.decOutput_inv (s : State) (n : ℕ) (p : DecPic) (h : s.Inv) : (State.decOutput s n p).Inv := by
  unfold State.decOutput
  repeat' first
    | with_reducible assumption
    | with_reducible intro _
    | with_reducible apply State.setFld64_inv
    | with_reducible apply State.setFld_inv
    | with_reducible apply State.raise_inv
    | with_reducible apply State.pokeN_inv
    | with_reducible apply State.putDec_inv
    | with_reducible apply State.inv_foldl

theorem State.bump_inv (s : State) (n : Nat) (more : List DecPic → Bool) (m : Nat) (h : s.Inv) : (s.bump n more m).Inv := by
  induction m generalizing s with
  | zero => exact h
  | succ m ih =>
    unfold State.bump
    dsimp only
    split
    · exact State.inv_ite (ih _ (State.decOutput_inv _ _ _ (State.putDec_inv _ _ _ h))) h
    · exact h

theorem State.decodePic_inv (s : State) (n : ℕ) (a : AuSet) (h : s.Inv) : (State.decodePic s n a).Inv := by
  unfold State.decodePic
  repeat' first
    | with_reducible assumption
    | with_reducible apply State.countBy_inv
    | with_reducible apply State.raiseIf_inv
    | with_reducible apply State.bump_inv
    | with_reducible apply State.putDec_inv
    | with_reducible apply State.inv_ite

theorem State.concealPic_inv (s : State) (n : ℕ) (frame : ℕ) (crcBad : Bool) (h : s.Inv) : (State.concealPic s n frame crcBad).Inv := by
  unfold State.concealPic
  repeat' first
    | with_reducible assumption
    | with_reducible apply State.countBy_inv
    | with_reducible apply State.raise_inv
    | with_reducible apply State.bump_inv
    | with_reducible apply State.putDec_inv
    | split
    | dsimp only

theorem State.decodeAu_inv (s : State) (n : ℕ) (frame : ℕ) (au : List Byte) (crcBad : Bool) (h : s.Inv) : (State.decodeAu s n frame au crcBad).Inv := by
  unfold State.decodeAu
  repeat' first
    | with_reducible assumption
    | with_reducible apply State.raise_inv
    | with_reducible apply State.raiseIf_inv
    | with_reducible apply State.discardAu_inv
    | with_reducible apply State.decodePic_inv
    | with_reducible apply State.putDec_inv
    | with_reducible apply State.concealPic_inv
    | split
    | dsimp only

theorem writeHdecInProd_inv (r : Req) (n : ℕ) (v : Word) (s : State) (h : s.Inv) : (writeHdecInProd r n v s).Inv := by
  unfold writeHdecInProd
  repeat' first
    | with_reducible assumption
    | with_reducible intro _
    | with_reducible apply State.reject_inv
    | with_reducible apply withWrite_inv
    | with_reducible apply plainStore_inv
    | with_reducible apply State.inv_ite

theorem State.hdecDone_inv (s : State) (n : ℕ) (h : s.Inv) : (State.hdecDone s n).Inv := by
  unfold State.hdecDone
  repeat' first
    | with_reducible assumption
    | with_reducible apply State.setFld_inv
    | with_reducible apply State.raise_inv
    | with_reducible apply State.raiseIf_inv
    | with_reducible apply State.decodeAu_inv
    | with_reducible apply State.putDec_inv
    | with_reducible apply State.inv_ite

theorem State.drdecDone_inv (s : State) (h : s.Inv) : (State.drdecDone s).Inv := by
  unfold State.drdecDone
  repeat' first
    | with_reducible assumption
    | with_reducible intro _
    | with_reducible apply State.setFld64_inv
    | with_reducible apply State.countBy_inv
    | with_reducible apply State.setFld_inv
    | with_reducible apply State.raise_inv
    | with_reducible apply State.raiseIf_inv
    | with_reducible apply State.pokeN_inv
    | with_reducible apply State.drdecBegin_inv
    | with_reducible apply State.inv_foldl
    | simp only [State.inv_mk]
    | with_reducible apply And.intro
    | with_reducible apply State.Inv.regs
    | with_reducible apply State.Inv.dram
    | with_reducible apply State.Inv.fstore
    | with_reducible apply State.Inv.cluster
    | split

theorem State.decodersStart_inv (s : State) (h : s.Inv) : (State.decodersStart s).Inv := by
  unfold State.decodersStart
  repeat' first
    | with_reducible assumption
    | with_reducible intro _
    | with_reducible apply State.setFld_inv
    | with_reducible apply State.inv_foldl
    | simp only [State.inv_mk]
    | with_reducible apply And.intro
    | with_reducible apply State.Inv.regs
    | with_reducible apply State.Inv.dram
    | with_reducible apply State.Inv.fstore
    | with_reducible apply State.Inv.cluster

end Sys2Proof.Machine
end

