-- ==== Sys2Proof/Laws/CanonStore.lean ====
section
/-! SUPPORT. Settings, media, the Recorder, firmware, power, the Condenser and audio keep the canonical form (State.Inv): one lemma per operation. -/

set_option Elab.async false

namespace Sys2Proof.Machine

theorem State.restoreWord_inv (s : State) (p : ℕ) (o : ℕ) (m : Word) (v : Word) (h : s.Inv) : (State.restoreWord s p o m v).Inv := by
  unfold State.restoreWord
  repeat' first
    | with_reducible assumption
    | with_reducible apply State.wr_inv
    | with_reducible apply State.inv_ite

theorem State.restoreEntry_inv (s : State) (p : ℕ) (o : ℕ) (value : ℕ) (h : s.Inv) : (State.restoreEntry s p o value).Inv := by
  unfold State.restoreEntry
  repeat' first
    | with_reducible assumption
    | with_reducible apply State.count_inv
    | with_reducible apply State.restoreWord_inv
    | with_reducible apply State.inv_ite

theorem State.restoreEntries_inv (s : State) (b : List Byte) (n a : Nat) (h : s.Inv) : (s.restoreEntries b n a).Inv := by
  induction n generalizing s a with
  | zero => exact h
  | succ n ih => exact ih _ _ (State.restoreEntry_inv _ _ _ _ h)

theorem State.restore_inv (s : State) (strap2 : Bool) (h : s.Inv) : (State.restore s strap2).Inv := by
  unfold State.restore
  repeat' first
    | with_reducible assumption
    | with_reducible apply State.setFld_inv
    | with_reducible apply State.raise_inv
    | with_reducible apply noteRiseAll_inv
    | with_reducible apply State.raiseIf_inv
    | with_reducible apply State.showCorr_inv
    | with_reducible apply State.restoreEntries_inv
    | split

theorem State.startSave_inv (s : State) (q : SaveReq) (h : s.Inv) : (State.startSave s q).Inv := by
  unfold State.startSave
  repeat' first
    | with_reducible assumption
    | simp only [State.inv_mk]
    | with_reducible apply And.intro
    | with_reducible apply State.Inv.regs
    | with_reducible apply State.Inv.dram
    | with_reducible apply State.Inv.fstore
    | with_reducible apply State.Inv.cluster

theorem State.nextSave_inv (s : State) (h : s.Inv) : (State.nextSave s).Inv := by
  unfold State.nextSave
  repeat' first
    | with_reducible assumption
    | with_reducible apply State.startSave_inv
    | simp only [State.inv_mk]
    | with_reducible apply And.intro
    | with_reducible apply State.Inv.regs
    | with_reducible apply State.Inv.dram
    | with_reducible apply State.Inv.fstore
    | with_reducible apply State.Inv.cluster
    | split

theorem State.endSave_inv (s : State) (ok : Bool) (h : s.Inv) : (State.endSave s ok).Inv := by
  unfold State.endSave
  repeat' first
    | with_reducible assumption
    | with_reducible intro _
    | with_reducible apply State.count_inv
    | with_reducible apply State.setFld_inv
    | with_reducible apply State.raise_inv
    | with_reducible apply State.finish_inv
    | with_reducible apply State.nextSave_inv
    | with_reducible apply State.inv_foldl
    | simp only [State.inv_mk]
    | with_reducible apply And.intro
    | with_reducible apply State.Inv.regs
    | with_reducible apply State.Inv.dram
    | with_reducible apply State.Inv.fstore
    | with_reducible apply State.Inv.cluster
    | split

theorem State.requestSave_inv (s : State) (cause : ℕ) (cmds : List ℕ) (h : s.Inv) : (State.requestSave s cause cmds).Inv := by
  unfold State.requestSave
  repeat' first
    | with_reducible assumption
    | with_reducible apply State.raise_inv
    | with_reducible apply State.startSave_inv
    | simp only [State.inv_mk]
    | with_reducible apply And.intro
    | with_reducible apply State.Inv.regs
    | with_reducible apply State.Inv.dram
    | with_reducible apply State.Inv.fstore
    | with_reducible apply State.Inv.cluster
    | split

theorem writeRstoreCtrl_inv (r : Req) (v : Word) (s : State) (h : s.Inv) : (writeRstoreCtrl r v s).Inv := by
  unfold writeRstoreCtrl
  repeat' first
    | with_reducible assumption
    | with_reducible intro _
    | with_reducible apply State.setFld_inv
    | with_reducible apply State.reject_inv
    | with_reducible apply withWrite_inv
    | with_reducible apply State.requestSave_inv
    | with_reducible apply State.inv_ite
    | simp only [State.inv_mk]
    | with_reducible apply And.intro
    | with_reducible apply State.Inv.regs
    | with_reducible apply State.Inv.dram
    | with_reducible apply State.Inv.fstore
    | with_reducible apply State.Inv.cluster

theorem State.autoSave_inv (s : State) (cause : ℕ) (h : s.Inv) : (State.autoSave s cause).Inv := by
  unfold State.autoSave
  repeat' first
    | with_reducible assumption
    | with_reducible apply State.requestSave_inv
    | with_reducible apply State.inv_ite

theorem State.writeSettings_inv (s : State) (uid : ℕ) (image : List Byte) (h : s.Inv) : (State.writeSettings s uid image).Inv := by
  unfold State.writeSettings
  repeat' first
    | with_reducible assumption
    | with_reducible apply State.startSave_inv
    | simp only [State.inv_mk]
    | with_reducible apply And.intro
    | with_reducible apply State.Inv.regs
    | with_reducible apply State.Inv.dram
    | with_reducible apply State.Inv.fstore
    | with_reducible apply State.Inv.cluster
    | split

theorem State.setMport_inv (s : State) (k : ℕ) (v : ℕ) (h : s.Inv) : (State.setMport s k v).Inv := by
  unfold State.setMport
  repeat' first
    | with_reducible assumption
    | with_reducible apply State.setFld_inv

theorem State.portDown_inv (s : State) (k : ℕ) (v : ℕ) (h : s.Inv) : (State.portDown s k v).Inv := by
  unfold State.portDown
  repeat' first
    | with_reducible assumption
    | with_reducible apply State.setFld_inv
    | with_reducible apply State.setMport_inv

theorem State.setRec_inv (s : State) (r : RecSt) (h : s.Inv) : (State.setRec s r).Inv := by
  unfold State.setRec
  repeat' first
    | with_reducible assumption
    | simp only [State.inv_mk]
    | with_reducible apply And.intro
    | with_reducible apply State.Inv.regs
    | with_reducible apply State.Inv.dram
    | with_reducible apply State.Inv.fstore
    | with_reducible apply State.Inv.cluster

theorem State.putDrive_inv (s : State) (k : ℕ) (d : DriveSt) (h : s.Inv) : (State.putDrive s k d).Inv := by
  unfold State.putDrive
  repeat' first
    | with_reducible assumption
    | with_reducible apply State.setRec_inv

theorem State.countWritten_inv (s : State) (k : ℕ) (n : ℕ) (h : s.Inv) : (State.countWritten s k n).Inv := by
  unfold State.countWritten
  repeat' first
    | with_reducible assumption
    | with_reducible apply State.setFld64_inv

theorem State.volPoke_inv (s : State) (n a : Nat) (l : List Byte) (h : s.Inv) : (s.volPoke n a l).Inv := by
  induction n generalizing s a l with
  | zero => exact h
  | succ n ih =>
    unfold State.volPoke
    split
    · exact h
    · exact State.inv_ite h (ih _ _ _ (State.countWritten_inv _ _ _ (State.putDrive_inv _ _ _ h)))

theorem State.showVolume_inv (s : State) (h : s.Inv) : (State.showVolume s).Inv := by
  unfold State.showVolume
  repeat' first
    | with_reducible assumption
    | with_reducible apply State.setFld_inv
    | split

theorem State.unmount_inv (s : State) (h : s.Inv) : (State.unmount s).Inv := by
  unfold State.unmount
  repeat' first
    | with_reducible assumption
    | with_reducible apply State.setRec_inv
    | with_reducible apply State.showVolume_inv

theorem State.leaveVolume_inv (s : State) (k : ℕ) (h : s.Inv) : (State.leaveVolume s k).Inv := by
  unfold State.leaveVolume
  repeat' first
    | with_reducible assumption
    | with_reducible apply State.unmount_inv
    | with_reducible apply State.inv_ite

theorem writeMediaCtrl_inv (r : Req) (k : ℕ) (v : Word) (s : State) (h : s.Inv) : (writeMediaCtrl r k v s).Inv := by
  unfold writeMediaCtrl
  repeat' first
    | with_reducible assumption
    | with_reducible intro _
    | with_reducible apply State.setOn_inv
    | with_reducible apply State.reject_inv
    | with_reducible apply withWrite_inv
    | with_reducible apply State.portDown_inv
    | with_reducible apply State.leaveVolume_inv
    | with_reducible apply State.putDrive_inv
    | with_reducible apply State.inv_ite

theorem State.mediaStart_inv (s : State) (h : s.Inv) : (State.mediaStart s).Inv := by
  unfold State.mediaStart
  repeat' first
    | with_reducible assumption
    | with_reducible intro _
    | with_reducible apply State.portDown_inv
    | with_reducible apply State.inv_foldl

theorem State.writeDir_inv (s : State) (h : s.Inv) : (State.writeDir s).Inv := by
  unfold State.writeDir
  repeat' first
    | with_reducible assumption
    | with_reducible intro _
    | with_reducible apply State.setRec_inv
    | with_reducible apply State.putDrive_inv
    | with_reducible apply State.countWritten_inv
    | with_reducible apply State.inv_foldl
    | split

theorem State.format_inv (s : State) (h : s.Inv) : (State.format s).Inv := by
  unfold State.format
  repeat' first
    | with_reducible assumption
    | with_reducible intro _
    | with_reducible apply State.raise_inv
    | with_reducible apply State.setRec_inv
    | with_reducible apply State.showVolume_inv
    | with_reducible apply State.writeDir_inv
    | with_reducible apply State.putDrive_inv
    | with_reducible apply State.setMport_inv
    | with_reducible apply State.inv_ite
    | with_reducible apply State.inv_foldl
    | simp only [State.inv_mk]
    | with_reducible apply And.intro
    | with_reducible apply State.Inv.regs
    | with_reducible apply State.Inv.dram
    | with_reducible apply State.Inv.fstore
    | with_reducible apply State.Inv.cluster

theorem State.volWrite_inv (s : State) (frames : List Nat) (fua : Bool) (n a : Nat) (l : List Byte) (h : s.Inv) :
    (s.volWrite frames fua n a l).Inv := by
  induction n generalizing s a l with
  | zero => exact h
  | succ n ih =>
    unfold State.volWrite
    split
    · exact h
    · exact State.inv_ite h (ih _ _ _ (State.putDrive_inv _ _ _ h))

theorem State.mount_inv (s : State) (h : s.Inv) : (State.mount s).Inv := by
  unfold State.mount
  repeat' first
    | with_reducible assumption
    | with_reducible intro _
    | with_reducible apply State.raise_inv
    | with_reducible apply State.setRec_inv
    | with_reducible apply State.showVolume_inv
    | with_reducible apply State.setMport_inv
    | with_reducible apply State.inv_ite
    | with_reducible apply State.inv_foldl

theorem State.portReady_inv (s : State) (k : ℕ) (i : DriveInfo) (h : s.Inv) : (State.portReady s k i).Inv := by
  unfold State.portReady
  repeat' first
    | with_reducible assumption
    | with_reducible apply State.setFld64_inv
    | with_reducible apply State.setFld_inv
    | with_reducible apply State.raise_inv
    | with_reducible apply State.portDown_inv
    | with_reducible apply State.putDrive_inv
    | with_reducible apply State.setMport_inv
    | with_reducible apply State.mount_inv
    | with_reducible apply State.inv_ite

theorem State.setReel_inv (s : State) (r : ReelSt) (h : s.Inv) : (State.setReel s r).Inv := by
  unfold State.setReel
  repeat' first
    | with_reducible assumption
    | with_reducible apply State.setRec_inv

theorem State.showQueued_inv (s : State) (h : s.Inv) : (State.showQueued s).Inv := by
  unfold State.showQueued
  repeat' first
    | with_reducible assumption
    | with_reducible apply State.setFld_inv

theorem State.setEntry_inv (s : State) (n : ℕ) (e : DirEntry) (h : s.Inv) : (State.setEntry s n e).Inv := by
  unfold State.setEntry
  repeat' first
    | with_reducible assumption
    | with_reducible apply State.setRec_inv
    | with_reducible apply State.writeDir_inv
    | split

theorem State.showRecorder_inv (s : State) (h : s.Inv) : (State.showRecorder s).Inv := by
  unfold State.showRecorder
  repeat' first
    | with_reducible assumption
    | with_reducible apply State.setFld_inv
    | with_reducible apply State.showQueued_inv

theorem State.releaseOver_inv (s : State) (h : s.Inv) : (State.releaseOver s).Inv := by
  unfold State.releaseOver
  repeat' first
    | with_reducible assumption
    | with_reducible intro _
    | with_reducible apply State.recRelease_inv
    | with_reducible apply State.freeBuf_inv
    | with_reducible apply State.esRelease_inv
    | with_reducible apply State.showQueued_inv
    | with_reducible apply State.inv_foldl

theorem State.endReel_inv (s : State) (h : s.Inv) : (State.endReel s).Inv := by
  unfold State.endReel
  repeat' first
    | with_reducible assumption
    | with_reducible apply State.raise_inv
    | with_reducible apply State.setReel_inv
    | with_reducible apply State.setEntry_inv
    | with_reducible apply State.showRecorder_inv
    | with_reducible apply State.releaseOver_inv

theorem State.keepHash_inv (s : State) (f : ℕ) (kind : ℕ) (index : ℕ) (d : ℕ × List Byte) (h : s.Inv) : (State.keepHash s f kind index d).Inv := by
  unfold State.keepHash
  repeat' first
    | with_reducible assumption
    | with_reducible apply State.setReel_inv

theorem State.giveUp_inv (s : State) (f : ℕ) (h : s.Inv) : (State.giveUp s f).Inv := by
  unfold State.giveUp
  repeat' first
    | with_reducible assumption
    | with_reducible intro _
    | with_reducible apply State.recRelease_inv
    | with_reducible apply State.freeBuf_inv
    | with_reducible apply State.esRelease_inv
    | with_reducible apply State.keepHash_inv
    | with_reducible apply State.inv_ite
    | with_reducible apply State.inv_foldl

theorem State.dropGroup_inv (s : State) (f : ℕ) (cause : ℕ) (h : s.Inv) : (State.dropGroup s f cause).Inv := by
  unfold State.dropGroup
  repeat' first
    | with_reducible assumption
    | with_reducible apply State.count_inv
    | with_reducible apply State.raise_inv
    | with_reducible apply State.setRec_inv
    | with_reducible apply State.giveUp_inv

theorem State.countSign_inv (s : State) (signed : Bool) (h : s.Inv) : (State.countSign s signed).Inv := by
  unfold State.countSign
  repeat' first
    | with_reducible assumption
    | with_reducible apply State.count_inv
    | with_reducible apply State.inv_ite
    | simp only [State.inv_mk]
    | with_reducible apply And.intro
    | with_reducible apply State.Inv.regs
    | with_reducible apply State.Inv.dram
    | with_reducible apply State.Inv.fstore
    | with_reducible apply State.Inv.cluster

theorem State.portFail_inv (s : State) (k : ℕ) (h : s.Inv) : (State.portFail s k).Inv := by
  unfold State.portFail
  repeat' first
    | with_reducible assumption
    | with_reducible intro _
    | with_reducible apply State.raise_inv
    | with_reducible apply State.finish_inv
    | with_reducible apply State.setReel_inv
    | with_reducible apply State.putDrive_inv
    | with_reducible apply State.setMport_inv
    | with_reducible apply State.inv_ite
    | with_reducible apply State.inv_foldl

theorem State.reelWrite_inv (s : State) (frames : List ℕ) (fua : Bool) (off : ℕ) (data : List Byte) (h : s.Inv) : (State.reelWrite s frames fua off data).Inv := by
  unfold State.reelWrite
  repeat' first
    | with_reducible assumption
    | with_reducible apply State.count_inv
    | with_reducible apply State.raise_inv
    | with_reducible apply State.volWrite_inv
    | with_reducible apply State.portFail_inv
    | with_reducible apply State.inv_ite
    | split

theorem State.reelAppend_inv (s : State) (frames : List ℕ) (data : List Byte) (h : s.Inv) : (State.reelAppend s frames data).Inv := by
  unfold State.reelAppend
  repeat' first
    | with_reducible assumption
    | with_reducible apply State.setReel_inv
    | with_reducible apply State.reelWrite_inv
    | with_reducible apply State.inv_ite

theorem State.writeBetween_inv (s : State) (type : ℕ) (frame : ℕ) (payload : List Byte) (h : s.Inv) : (State.writeBetween s type frame payload).Inv := by
  unfold State.writeBetween
  repeat' first
    | with_reducible assumption
    | with_reducible apply State.setReel_inv
    | with_reducible apply State.reelAppend_inv

theorem State.endDrop_inv (s : State) (f : ℕ) (cause : ℕ) (due : Bool) (h : s.Inv) : (State.endDrop s f cause due).Inv := by
  unfold State.endDrop
  repeat' first
    | with_reducible assumption
    | with_reducible apply State.setReel_inv
    | with_reducible apply State.writeBetween_inv
    | with_reducible apply State.inv_ite

theorem writeRecorderCtrl_inv (q : Req) (v : Word) (s : State) (h : s.Inv) : (writeRecorderCtrl q v s).Inv := by
  unfold writeRecorderCtrl
  repeat' first
    | with_reducible assumption
    | with_reducible intro _
    | with_reducible apply State.reject_inv
    | with_reducible apply withWrite_inv
    | with_reducible apply plainStore_inv
    | with_reducible apply State.format_inv
    | with_reducible apply State.inv_ite

theorem State.beginFlush_inv (s : State) (close : Bool) (h : s.Inv) : (State.beginFlush s close).Inv := by
  unfold State.beginFlush
  repeat' first
    | with_reducible assumption
    | with_reducible apply State.setReel_inv
    | with_reducible apply State.countSign_inv
    | with_reducible apply State.showRecorder_inv
    | with_reducible apply State.reelAppend_inv

theorem State.pushFlush_inv (s : State) (h : s.Inv) : (State.pushFlush s).Inv := by
  unfold State.pushFlush
  repeat' first
    | with_reducible assumption
    | with_reducible apply State.beginFlush_inv
    | with_reducible apply State.inv_ite

theorem runAppend_inv (h : HostData) (tag : ℕ) (c : Cmd) (s : State) (hi : s.Inv) : (runAppend h tag c s).Inv := by
  unfold runAppend
  repeat' first
    | with_reducible assumption
    | with_reducible apply State.finishTag_inv
    | with_reducible apply State.failBuf_inv
    | with_reducible apply State.setReel_inv
    | with_reducible apply State.showRecorder_inv
    | with_reducible apply State.pushFlush_inv
    | with_reducible apply State.writeBetween_inv
    | with_reducible apply State.inv_ite
    | split

theorem State.putGroup_inv (s : State) (f : ℕ) (b : List Byte) (h : s.Inv) : (State.putGroup s f b).Inv := by
  unfold State.putGroup
  repeat' first
    | with_reducible assumption
    | with_reducible apply State.setReel_inv
    | with_reducible apply State.reelAppend_inv

theorem State.takeGroup_inv (s : State) (f : ℕ) (h : s.Inv) : (State.takeGroup s f).Inv := by
  unfold State.takeGroup
  repeat' first
    | with_reducible assumption
    | with_reducible apply State.raise_inv
    | with_reducible apply State.setReel_inv
    | with_reducible apply State.dropGroup_inv
    | with_reducible apply State.endDrop_inv
    | with_reducible apply State.putGroup_inv
    | split
    | dsimp only

theorem State.takeGroups_inv (s : State) (n : Nat) (h : s.Inv) : (s.takeGroups n).Inv := by
  induction n generalizing s with
  | zero => exact h
  | succ n ih =>
    unfold State.takeGroups
    split
    · exact h
    · exact State.inv_ite h (ih _ (State.takeGroup_inv _ _ h))

theorem State.yieldBuffer_inv (s : State) (held : Bool) (f : ℕ) (h : s.Inv) : (State.yieldBuffer s held f).Inv := by
  unfold State.yieldBuffer
  repeat' first
    | with_reducible assumption
    | with_reducible apply State.dropGroup_inv
    | with_reducible apply State.giveUp_inv
    | with_reducible apply State.inv_ite

theorem State.drawFrameBegin_inv (s0 : State) (h : s0.Inv) : (State.drawFrameBegin s0).Inv := by
  unfold State.drawFrameBegin
  repeat' first
    | with_reducible assumption
    | with_reducible apply State.drawStall_inv
    | with_reducible apply State.drawBegin_inv
    | with_reducible apply State.showRecorder_inv
    | with_reducible apply State.releaseOver_inv
    | with_reducible apply State.yieldBuffer_inv
    | split
    | dsimp only

theorem State.recorderStart_inv (s : State) (h : s.Inv) : (State.recorderStart s).Inv := by
  unfold State.recorderStart
  repeat' first
    | with_reducible assumption
    | with_reducible intro _
    | with_reducible apply State.setFld_inv
    | with_reducible apply State.inv_foldl

theorem State.recover_inv (s : State) (nsid : ℕ) (h : s.Inv) : (State.recover s nsid).Inv := by
  unfold State.recover
  repeat' first
    | with_reducible assumption
    | with_reducible apply State.raise_inv
    | with_reducible apply State.volPoke_inv
    | with_reducible apply State.setEntry_inv
    | with_reducible apply State.countSign_inv

theorem State.beginClose_inv (s : State) (h : s.Inv) : (State.beginClose s).Inv := by
  unfold State.beginClose
  repeat' first
    | with_reducible assumption
    | with_reducible apply State.setReel_inv
    | with_reducible apply State.showRecorder_inv
    | with_reducible apply State.pushFlush_inv
    | with_reducible apply State.inv_ite

theorem State.openReel_inv (s : State) (b : ℕ) (h : s.Inv) : (State.openReel s b).Inv := by
  unfold State.openReel
  repeat' first
    | with_reducible assumption
    | with_reducible apply State.setFld64_inv
    | with_reducible apply State.raise_inv
    | with_reducible apply State.setRec_inv
    | with_reducible apply State.setEntry_inv
    | with_reducible apply State.showRecorder_inv
    | with_reducible apply State.reelWrite_inv
    | with_reducible apply State.inv_ite
    | simp only [State.inv_mk]
    | with_reducible apply And.intro
    | with_reducible apply State.Inv.regs
    | with_reducible apply State.Inv.dram
    | with_reducible apply State.Inv.fstore
    | with_reducible apply State.Inv.cluster

theorem State.abandonReel_inv (s : State) (h : s.Inv) : (State.abandonReel s).Inv := by
  unfold State.abandonReel
  repeat' first
    | with_reducible assumption
    | with_reducible intro _
    | with_reducible apply State.finish_inv
    | with_reducible apply State.caughtUp_inv
    | with_reducible apply State.setReel_inv
    | with_reducible apply State.dropGroup_inv
    | with_reducible apply State.showRecorder_inv
    | with_reducible apply State.releaseOver_inv
    | with_reducible apply State.inv_ite
    | with_reducible apply State.inv_foldl
    | simp only [State.inv_mk]
    | with_reducible apply And.intro
    | with_reducible apply State.Inv.regs
    | with_reducible apply State.Inv.dram
    | with_reducible apply State.Inv.fstore
    | with_reducible apply State.Inv.cluster

theorem State.feedRaw_inv (s : State) (rs : List FoundRecord) (h : s.Inv) : (State.feedRaw s rs).Inv := by
  unfold State.feedRaw
  repeat' first
    | with_reducible assumption
    | with_reducible apply State.setFld_inv
    | with_reducible apply State.pokeN_inv
    | with_reducible apply State.drdecBegin_inv
    | simp only [State.inv_mk]
    | with_reducible apply And.intro
    | with_reducible apply State.Inv.regs
    | with_reducible apply State.Inv.dram
    | with_reducible apply State.Inv.fstore
    | with_reducible apply State.Inv.cluster
    | split

theorem State.hencBegin_inv (s : State) (k : ℕ) (h : s.Inv) : (State.hencBegin s k).Inv := by
  unfold State.hencBegin
  repeat' first
    | with_reducible assumption
    | with_reducible apply State.picBegin_inv
    | with_reducible apply State.advanceGops_inv
    | with_reducible apply State.picStall_inv
    | with_reducible apply State.showRecorder_inv
    | with_reducible apply State.releaseOver_inv
    | with_reducible apply State.yieldBuffer_inv
    | split
    | dsimp only

theorem State.readError_inv (s : State) (x : IndexEntry) (h : s.Inv) : (State.readError s x).Inv := by
  unfold State.readError
  repeat' first
    | with_reducible assumption
    | with_reducible apply State.count_inv
    | with_reducible apply State.setRec_inv
    | with_reducible apply State.inv_ite

theorem State.feedHevc_inv (s : State) (rs : List FoundRecord) (h : s.Inv) : (State.feedHevc s rs).Inv := by
  unfold State.feedHevc
  repeat' first
    | with_reducible assumption
    | with_reducible apply State.setFld_inv
    | with_reducible apply State.pokeN_inv
    | split
    | dsimp only

theorem State.feedNextHevc_inv (s : State) (h : s.Inv) : (State.feedNextHevc s).Inv := by
  unfold State.feedNextHevc
  repeat' first
    | with_reducible assumption
    | with_reducible apply State.setRec_inv
    | with_reducible apply State.readError_inv
    | with_reducible apply State.feedHevc_inv
    | split
    | dsimp only

theorem State.writeIndexBank_inv (s : State) (h : s.Inv) : (State.writeIndexBank s).Inv := by
  unfold State.writeIndexBank
  repeat' first
    | with_reducible assumption
    | with_reducible apply State.setReel_inv
    | with_reducible apply State.reelWrite_inv
    | with_reducible apply State.inv_ite

theorem State.flushDrives_inv (s : State) (h : s.Inv) : (State.flushDrives s).Inv := by
  unfold State.flushDrives
  repeat' first
    | with_reducible assumption
    | with_reducible intro _
    | with_reducible apply State.setReel_inv
    | with_reducible apply State.putDrive_inv
    | with_reducible apply State.inv_ite
    | with_reducible apply State.inv_foldl

theorem State.recorderOn_inv (s : State) (h : s.Inv) : (State.recorderOn s).Inv := by
  unfold State.recorderOn
  repeat' first
    | with_reducible assumption
    | with_reducible apply State.showRecorder_inv
    | with_reducible apply State.takeGroups_inv
    | with_reducible apply State.pushFlush_inv
    | with_reducible apply State.releaseOver_inv

theorem State.portBack_inv (s : State) (k : ℕ) (h : s.Inv) : (State.portBack s k).Inv := by
  unfold State.portBack
  repeat' first
    | with_reducible assumption
    | with_reducible apply State.raise_inv
    | with_reducible apply State.putDrive_inv
    | with_reducible apply State.setMport_inv
    | with_reducible apply State.inv_ite

theorem State.nvmeDone_inv (s : State) (k : ℕ) (id : ℕ) (ok : Bool) (h : s.Inv) : (State.nvmeDone s k id ok).Inv := by
  unfold State.nvmeDone
  repeat' first
    | with_reducible assumption
    | with_reducible apply State.count_inv
    | with_reducible apply State.raise_inv
    | with_reducible apply State.putDrive_inv
    | with_reducible apply State.countWritten_inv
    | with_reducible apply State.recorderOn_inv
    | with_reducible apply State.portBack_inv
    | with_reducible apply State.portFail_inv
    | split
    | dsimp only

theorem State.flushTimer_inv (s : State) (h : s.Inv) : (State.flushTimer s).Inv := by
  unfold State.flushTimer
  repeat' first
    | with_reducible assumption
    | with_reducible apply State.pushFlush_inv
    | with_reducible apply State.beginFlush_inv
    | with_reducible apply State.inv_ite

theorem State.nvmeTimeout_inv (s : State) (k : ℕ) (id : ℕ) (h : s.Inv) : (State.nvmeTimeout s k id).Inv := by
  unfold State.nvmeTimeout
  repeat' first
    | with_reducible assumption
    | with_reducible apply State.count_inv
    | with_reducible apply State.raise_inv
    | with_reducible apply State.putDrive_inv
    | with_reducible apply State.setMport_inv
    | with_reducible apply State.recorderOn_inv
    | with_reducible apply State.portFail_inv
    | with_reducible apply State.inv_ite

theorem State.feedNextRaw_inv (s : State) (h : s.Inv) : (State.feedNextRaw s).Inv := by
  unfold State.feedNextRaw
  repeat' first
    | with_reducible assumption
    | with_reducible apply State.setRec_inv
    | with_reducible apply State.feedRaw_inv
    | with_reducible apply State.readError_inv
    | split
    | dsimp only

theorem State.reviewFeed_inv (s : State) (h : s.Inv) : (State.reviewFeed s).Inv := by
  unfold State.reviewFeed
  repeat' first
    | with_reducible assumption
    | with_reducible apply State.raise_inv
    | with_reducible apply State.setRec_inv
    | with_reducible apply State.showRecorder_inv
    | with_reducible apply State.feedNextHevc_inv
    | with_reducible apply State.feedNextRaw_inv
    | with_reducible apply State.inv_ite

theorem State.bankDone_inv (s : State) (h : s.Inv) : (State.bankDone s).Inv := by
  unfold State.bankDone
  repeat' first
    | with_reducible assumption
    | with_reducible intro _
    | with_reducible apply State.setFld64_inv
    | with_reducible apply State.setFld_inv
    | with_reducible apply State.finish_inv
    | with_reducible apply State.setReel_inv
    | with_reducible apply State.showRecorder_inv
    | with_reducible apply State.pushFlush_inv
    | with_reducible apply State.inv_ite
    | with_reducible apply State.inv_foldl

theorem State.mediaLinkDown_inv (s : State) (k : ℕ) (h : s.Inv) : (State.mediaLinkDown s k).Inv := by
  unfold State.mediaLinkDown
  repeat' first
    | with_reducible assumption
    | with_reducible apply State.raise_inv
    | with_reducible apply State.portDown_inv
    | with_reducible apply State.recorderOn_inv
    | with_reducible apply State.portFail_inv
    | with_reducible apply State.inv_ite

theorem State.reviewStop_inv (s : State) (h : s.Inv) : (State.reviewStop s).Inv := by
  unfold State.reviewStop
  repeat' first
    | with_reducible assumption
    | with_reducible apply State.setRec_inv
    | with_reducible apply State.showRecorder_inv

theorem State.awaitFrame_inv (s : State) (f : ℕ) (h : s.Inv) : (State.awaitFrame s f).Inv := by
  unfold State.awaitFrame
  repeat' first
    | with_reducible assumption
    | with_reducible apply State.setReel_inv
    | with_reducible apply State.inv_ite

theorem State.groupComplete_inv (s : State) (h : s.Inv) : (State.groupComplete s).Inv := by
  unfold State.groupComplete
  repeat' first
    | with_reducible assumption
    | with_reducible apply State.setReel_inv
    | with_reducible apply State.recorderOn_inv
    | split

theorem State.reviewStart_inv (s : State) (h : s.Inv) : (State.reviewStart s).Inv := by
  unfold State.reviewStart
  repeat' first
    | with_reducible assumption
    | with_reducible apply State.setRec_inv
    | with_reducible apply State.showRecorder_inv

theorem State.reelRecovery_inv (s : State) (h : s.Inv) : (State.reelRecovery s).Inv := by
  unfold State.reelRecovery
  repeat' first
    | with_reducible assumption
    | with_reducible apply State.recover_inv
    | split

theorem State.recoverAll_inv (s : State) (n : Nat) (h : s.Inv) : (s.recoverAll n).Inv := by
  induction n generalizing s with
  | zero => exact h
  | succ n ih =>
    unfold State.recoverAll
    split
    · exact ih _ (State.recover_inv _ _ h)
    · exact h

theorem State.commitSvn_inv (s : State) (h : s.Inv) : (State.commitSvn s).Inv := by
  unfold State.commitSvn
  repeat' first
    | with_reducible assumption
    | with_reducible apply State.setFld_inv
    | with_reducible apply State.raise_inv
    | with_reducible apply State.reject_inv
    | with_reducible apply State.inv_ite
    | split

theorem State.setSeq_inv (s : State) (k : ℕ) (b : Bool) (h : s.Inv) : (State.setSeq s k b).Inv := by
  unfold State.setSeq
  repeat' first
    | with_reducible assumption
    | with_reducible apply State.inv_ite
    | simp only [State.inv_mk]
    | with_reducible apply And.intro
    | with_reducible apply State.Inv.regs
    | with_reducible apply State.Inv.dram
    | with_reducible apply State.Inv.fstore
    | with_reducible apply State.Inv.cluster

theorem State.setFw_inv (s : State) (f : FwSt) (h : s.Inv) : (State.setFw s f).Inv := by
  unfold State.setFw
  repeat' first
    | with_reducible assumption
    | simp only [State.inv_mk]
    | with_reducible apply And.intro
    | with_reducible apply State.Inv.regs
    | with_reducible apply State.Inv.dram
    | with_reducible apply State.Inv.fstore
    | with_reducible apply State.Inv.cluster

theorem State.checkpoint_inv (s : State) (h : s.Inv) : (State.checkpoint s).Inv := by
  unfold State.checkpoint
  repeat' first
    | with_reducible assumption
    | with_reducible apply State.setFw_inv

theorem State.activate_inv (s : State) (k : ℕ) (h : s.Inv) : (State.activate s k).Inv := by
  unfold State.activate
  repeat' first
    | with_reducible assumption
    | with_reducible apply State.setFld_inv

theorem State.beginHandover_inv (s : State) (cmd : ℕ) (h : s.Inv) : (State.beginHandover s cmd).Inv := by
  unfold State.beginHandover
  repeat' first
    | with_reducible assumption
    | with_reducible apply State.setFld64_inv
    | with_reducible apply State.setFld_inv
    | with_reducible apply State.checkpoint_inv
    | with_reducible apply State.setFw_inv
    | with_reducible apply State.activate_inv
    | with_reducible apply State.inv_ite

theorem State.doFailover_inv (s : State) (h : s.Inv) : (State.doFailover s).Inv := by
  unfold State.doFailover
  repeat' first
    | with_reducible assumption
    | with_reducible apply State.count_inv
    | with_reducible apply State.setFld_inv
    | with_reducible apply State.raise_inv
    | with_reducible apply State.finish?_inv
    | with_reducible apply State.setFw_inv
    | with_reducible apply State.activate_inv

theorem State.fwPoint_inv (s : State) (h : s.Inv) : (State.fwPoint s).Inv := by
  unfold State.fwPoint
  repeat' first
    | with_reducible assumption
    | with_reducible apply State.checkpoint_inv
    | with_reducible apply State.beginHandover_inv
    | with_reducible apply State.doFailover_inv
    | split

theorem writeWindow_inv (r : Req) (o : ℕ) (v : Word) (s : State) (h : s.Inv) : (writeWindow r o v s).Inv := by
  unfold writeWindow
  repeat' first
    | with_reducible assumption
    | with_reducible intro _
    | with_reducible apply State.reject_inv
    | with_reducible apply withWrite_inv
    | with_reducible apply plainStore_inv
    | with_reducible apply State.inv_ite

theorem runAttest_inv (h : HostData) (tag : ℕ) (c : Cmd) (s : State) (hi : s.Inv) : (runAttest h tag c s).Inv := by
  unfold runAttest
  repeat' first
    | with_reducible assumption
    | with_reducible apply State.count_inv
    | with_reducible apply State.finishTag_inv
    | with_reducible apply State.failBuf_inv
    | with_reducible apply State.toHost_inv
    | with_reducible apply State.setFw_inv
    | split

theorem State.setImage_inv (s : State) (k : ℕ) (i : FwImage) (h : s.Inv) : (State.setImage s k i).Inv := by
  unfold State.setImage
  repeat' first
    | with_reducible assumption
    | with_reducible apply State.setFld_inv
    | with_reducible apply State.setFw_inv
    | with_reducible apply State.inv_ite

theorem runFwLoad_inv (h : HostData) (readBackOk : Bool) (tag : ℕ) (c : Cmd) (s : State) (hi : s.Inv) : (runFwLoad h readBackOk tag c s).Inv := by
  unfold runFwLoad
  repeat' first
    | with_reducible assumption
    | with_reducible apply State.setFld_inv
    | with_reducible apply State.raise_inv
    | with_reducible apply State.finishTag_inv
    | with_reducible apply State.failBuf_inv
    | with_reducible apply State.setFw_inv
    | with_reducible apply State.setImage_inv
    | split
    | dsimp only

theorem writeSeq_inv (r : Req) (k : ℕ) (v : Word) (s : State) (h : s.Inv) : (writeSeq r k v s).Inv := by
  unfold writeSeq
  repeat' first
    | with_reducible assumption
    | with_reducible intro _
    | with_reducible apply State.reject_inv
    | with_reducible apply withWrite_inv
    | with_reducible apply plainStore_inv
    | with_reducible apply State.inv_ite

theorem writeSvnCtrl_inv (r : Req) (v : Word) (s : State) (h : s.Inv) : (writeSvnCtrl r v s).Inv := by
  unfold writeSvnCtrl
  repeat' first
    | with_reducible assumption
    | with_reducible intro _
    | with_reducible apply withWrite_inv
    | with_reducible apply State.commitSvn_inv
    | with_reducible apply State.inv_ite

theorem State.supplyStep_inv (s : State) (k : ℕ) (h : s.Inv) : (State.supplyStep s k).Inv := by
  unfold State.supplyStep
  repeat' first
    | with_reducible assumption
    | with_reducible apply State.setFld_inv
    | with_reducible apply State.emit_inv
    | with_reducible apply State.setSeq_inv
    | with_reducible apply State.inv_ite
    | split

theorem writeSupplyReq_inv (r : Req) (v : Word) (s : State) (h : s.Inv) : (writeSupplyReq r v s).Inv := by
  unfold writeSupplyReq
  repeat' first
    | with_reducible assumption
    | with_reducible intro _
    | with_reducible apply withWrite_inv
    | with_reducible apply plainStore_inv
    | with_reducible apply State.supplyStep_inv

theorem State.endHandover_inv (s : State) (ev : Fld) (h : s.Inv) : (State.endHandover s ev).Inv := by
  unfold State.endHandover
  repeat' first
    | with_reducible assumption
    | with_reducible apply State.setFld_inv
    | with_reducible apply State.raise_inv
    | with_reducible apply State.finish?_inv
    | with_reducible apply State.setFw_inv

theorem runFwHandover_inv (tag : ℕ) (c : Cmd) (s : State) (h : s.Inv) : (runFwHandover tag c s).Inv := by
  unfold runFwHandover
  repeat' first
    | with_reducible assumption
    | with_reducible apply State.finishTag_inv
    | with_reducible apply State.setFw_inv
    | with_reducible apply State.beginHandover_inv
    | with_reducible apply State.inv_ite

theorem State.bootFw_inv (s : State) (h : s.Inv) : (State.bootFw s).Inv := by
  unfold State.bootFw
  repeat' first
    | with_reducible assumption
    | with_reducible apply State.setFld_inv
    | with_reducible apply State.raiseIf_inv
    | with_reducible apply State.setFw_inv
    | with_reducible apply State.setImage_inv
    | with_reducible apply State.activate_inv
    | split

theorem State.wipeBlock_inv (s : State) (p : ℕ) (h : s.Inv) : (State.wipeBlock s p).Inv := by
  unfold State.wipeBlock
  repeat' first
    | with_reducible assumption
    | with_reducible apply State.setFld_inv
    | with_reducible apply State.setPort_inv
    | with_reducible apply State.showPort_inv
    | with_reducible apply State.fstoreClear_inv
    | simp only [State.inv_mk]
    | with_reducible apply And.intro
    | with_reducible apply State.Inv.regs
    | with_reducible apply State.Inv.dram
    | with_reducible apply State.Inv.fstore
    | with_reducible apply State.Inv.cluster
    | split

theorem State.follow_inv (s : State) (p : ℕ) (h : s.Inv) : (State.follow s p).Inv := by
  unfold State.follow
  repeat' first
    | with_reducible assumption
    | with_reducible apply State.showCorr_inv
    | with_reducible apply State.placeSlots_inv
    | split

theorem State.restorePage_inv (s : State) (p : Nat) (b : List Byte) (n a : Nat) (h : s.Inv) : (s.restorePage p b n a).Inv := by
  induction n generalizing s a with
  | zero => exact h
  | succ n ih => exact ih _ _ (State.inv_ite (State.restoreEntry_inv _ _ _ _ h) h)

theorem State.refillPage_inv (s : State) (p : ℕ) (h : s.Inv) : (State.refillPage s p).Inv := by
  unfold State.refillPage
  repeat' first
    | with_reducible assumption
    | with_reducible apply State.setFld_inv
    | with_reducible apply State.follow_inv
    | with_reducible apply State.restorePage_inv
    | split

theorem State.setPwr_inv (s : State) (w : PwrSt) (h : s.Inv) : (State.setPwr s w).Inv := by
  unfold State.setPwr
  repeat' first
    | with_reducible assumption
    | simp only [State.inv_mk]
    | with_reducible apply And.intro
    | with_reducible apply State.Inv.regs
    | with_reducible apply State.Inv.dram
    | with_reducible apply State.Inv.fstore
    | with_reducible apply State.Inv.cluster

theorem State.wipePage_inv (s : State) (p : ℕ) (h : s.Inv) : (State.wipePage s p).Inv := by
  unfold State.wipePage
  repeat' first
    | with_reducible assumption
    | simp only [State.inv_mk]
    | with_reducible apply And.intro
    | with_reducible apply State.Inv.regs
    | with_reducible apply State.Inv.dram
    | with_reducible apply State.Inv.fstore
    | with_reducible apply State.Inv.cluster
    | with_reducible apply Sparse.wf_filter

theorem State.showHeld_inv (s : State) (h : s.Inv) : (State.showHeld s).Inv := by
  unfold State.showHeld
  repeat' first
    | with_reducible assumption
    | with_reducible apply State.setFld_inv

theorem State.goDown_inv (s : State) (p : ℕ) (v : ℕ) (h : s.Inv) : (State.goDown s p v).Inv := by
  unfold State.goDown
  repeat' first
    | with_reducible assumption
    | with_reducible apply State.setFld_inv
    | with_reducible apply State.wipeBlock_inv
    | with_reducible apply State.refillPage_inv
    | with_reducible apply State.setPwr_inv
    | with_reducible apply State.wipePage_inv
    | with_reducible apply State.showHeld_inv
    | with_reducible apply State.inv_ite

theorem State.holdRequest_inv (s : State) (p : ℕ) (req : ℕ) (h : s.Inv) : (State.holdRequest s p req).Inv := by
  unfold State.holdRequest
  repeat' first
    | with_reducible assumption
    | with_reducible apply State.setPwr_inv
    | with_reducible apply State.showHeld_inv
    | with_reducible apply State.inv_ite

theorem State.settle_inv (s : State) (p : ℕ) (h : s.Inv) : (State.settle s p).Inv := by
  unfold State.settle
  repeat' first
    | with_reducible assumption
    | with_reducible apply State.holdRequest_inv
    | with_reducible apply State.goDown_inv
    | with_reducible apply State.setPwr_inv
    | with_reducible apply State.showHeld_inv
    | with_reducible apply State.inv_ite

theorem State.settleAll_inv (s : State) (h : s.Inv) : (State.settleAll s).Inv := by
  unfold State.settleAll
  repeat' first
    | with_reducible assumption
    | with_reducible apply State.settle_inv
    | with_reducible apply State.inv_foldl

theorem State.goUp_inv (s : State) (p : ℕ) (h : s.Inv) : (State.goUp s p).Inv := by
  unfold State.goUp
  repeat' first
    | with_reducible assumption
    | with_reducible apply State.setFld_inv
    | with_reducible apply State.refillPage_inv
    | with_reducible apply State.setPwr_inv
    | with_reducible apply State.inv_ite

theorem State.domainUp_inv (s : State) (p : ℕ) (h : s.Inv) : (State.domainUp s p).Inv := by
  unfold State.domainUp
  repeat' first
    | with_reducible assumption
    | with_reducible apply State.goUp_inv
    | with_reducible apply State.settle_inv
    | with_reducible apply State.inv_ite

theorem State.powerAll_inv (s : State) (h : s.Inv) : (State.powerAll s).Inv := by
  unfold State.powerAll
  repeat' first
    | with_reducible assumption
    | with_reducible intro _
    | with_reducible apply State.goUp_inv
    | with_reducible apply State.inv_ite
    | with_reducible apply State.inv_foldl

theorem State.refusePower_inv (s : State) (p : ℕ) (req : ℕ) (h : s.Inv) : (State.refusePower s p req).Inv := by
  unfold State.refusePower
  repeat' first
    | with_reducible assumption
    | with_reducible apply State.count_inv
    | with_reducible apply State.setFld_inv
    | with_reducible apply State.raise_inv

theorem State.measure_inv (s : State) (mw : ℕ) (h : s.Inv) : (State.measure s mw).Inv := by
  unfold State.measure
  repeat' first
    | with_reducible assumption
    | with_reducible apply State.countBy_inv
    | with_reducible apply State.setFld_inv
    | with_reducible apply State.raise_inv
    | with_reducible apply State.raiseIf_inv
    | with_reducible apply State.setPwr_inv
    | with_reducible apply State.inv_ite

theorem State.drainTimeout_inv (s : State) (p : ℕ) (h : s.Inv) : (State.drainTimeout s p).Inv := by
  unfold State.drainTimeout
  repeat' first
    | with_reducible assumption
    | with_reducible apply State.setFld_inv
    | with_reducible apply State.goDown_inv
    | with_reducible apply State.setPwr_inv
    | with_reducible apply State.refusePower_inv
    | with_reducible apply State.settle_inv
    | with_reducible apply State.showHeld_inv
    | split

theorem State.requestPower_inv (s : State) (p : ℕ) (req : ℕ) (h : s.Inv) : (State.requestPower s p req).Inv := by
  unfold State.requestPower
  repeat' first
    | with_reducible assumption
    | with_reducible apply State.setFld_inv
    | with_reducible apply State.setPwr_inv
    | with_reducible apply State.refusePower_inv
    | with_reducible apply State.holdRequest_inv
    | with_reducible apply State.settle_inv
    | with_reducible apply State.showHeld_inv
    | with_reducible apply State.inv_ite

theorem writePwrReq_inv (r : Req) (p : ℕ) (v : Word) (s : State) (h : s.Inv) : (writePwrReq r p v s).Inv := by
  unfold writePwrReq
  repeat' first
    | with_reducible assumption
    | with_reducible intro _
    | with_reducible apply withWrite_inv
    | with_reducible apply State.requestPower_inv

theorem State.drained?_inv (s : State) (p : ℕ) (h : s.Inv) : (State.drained? s p).Inv := by
  unfold State.drained?
  repeat' first
    | with_reducible assumption
    | with_reducible apply State.goDown_inv
    | with_reducible apply State.settle_inv
    | split

theorem State.setSat_inv (s : State) (p : ℕ) (f : Fld) (v : ℕ) (h : s.Inv) : (State.setSat s p f v).Inv := by
  unfold State.setSat
  repeat' first
    | with_reducible assumption
    | with_reducible apply State.setFld_inv

theorem State.condCounts_inv (s : State) (j : CondJob) (n : ℕ) (m : ℕ) (h : s.Inv) : (State.condCounts s j n m).Inv := by
  unfold State.condCounts
  repeat' first
    | with_reducible assumption
    | with_reducible apply State.setFld_inv
    | with_reducible apply State.setSat_inv

theorem State.setCond_inv (s : State) (c : CondSt) (h : s.Inv) : (State.setCond s c).Inv := by
  unfold State.setCond
  repeat' first
    | with_reducible assumption
    | simp only [State.inv_mk]
    | with_reducible apply And.intro
    | with_reducible apply State.Inv.regs
    | with_reducible apply State.Inv.dram
    | with_reducible apply State.Inv.fstore
    | with_reducible apply State.Inv.cluster

theorem State.condStart_inv (s : State) (h : s.Inv) : (State.condStart s).Inv := by
  unfold State.condStart
  repeat' first
    | with_reducible assumption
    | with_reducible apply State.setFld_inv
    | split

theorem State.condFree_inv (s : State) (h : s.Inv) : (State.condFree s).Inv := by
  unfold State.condFree
  repeat' first
    | with_reducible assumption
    | with_reducible apply State.setFld_inv
    | with_reducible apply State.settle_inv
    | with_reducible apply State.setCond_inv
    | with_reducible apply State.condStart_inv
    | with_reducible apply State.inv_ite

theorem State.condWrite_inv (s : State) (j : CondJob) (out : List Byte) (n : ℕ) (h : s.Inv) : (State.condWrite s j out n).Inv := by
  unfold State.condWrite
  repeat' first
    | with_reducible assumption
    | with_reducible apply State.emit_inv
    | with_reducible apply State.pokeN_inv
    | with_reducible apply State.inv_ite
    | split

theorem State.condNeed_inv (s : State) (h : s.Inv) : (State.condNeed s).Inv := by
  unfold State.condNeed
  repeat' first
    | with_reducible assumption
    | with_reducible apply State.setFld_inv
    | with_reducible apply State.raise_inv
    | with_reducible apply State.condCounts_inv
    | with_reducible apply State.condFree_inv
    | with_reducible apply State.condWrite_inv
    | with_reducible apply State.setCond_inv
    | with_reducible apply State.inv_ite
    | split

theorem State.condResult_inv (s : State) (code : ℕ) (verify : ℕ) (detail : ℕ) (h : s.Inv) : (State.condResult s code verify detail).Inv := by
  unfold State.condResult
  repeat' first
    | with_reducible assumption
    | with_reducible apply State.setFld_inv
    | with_reducible apply State.raise_inv

theorem State.condDone_inv (s : State) (j : CondJob) (code : ℕ) (detail : ℕ) (n : ℕ) (h : s.Inv) : (State.condDone s j code detail n).Inv := by
  unfold State.condDone
  repeat' first
    | with_reducible assumption
    | with_reducible apply State.count_inv
    | with_reducible apply State.raiseIf_inv
    | with_reducible apply State.finish_inv
    | with_reducible apply State.condResult_inv
    | split

theorem State.condEnd_inv (s : State) (verified : Bool) (h : s.Inv) : (State.condEnd s verified).Inv := by
  unfold State.condEnd
  repeat' first
    | with_reducible assumption
    | with_reducible apply State.count_inv
    | with_reducible apply State.raise_inv
    | with_reducible apply State.condCounts_inv
    | with_reducible apply State.condDone_inv
    | with_reducible apply State.condFree_inv
    | with_reducible apply State.condWrite_inv
    | simp only [State.inv_mk]
    | with_reducible apply And.intro
    | with_reducible apply State.Inv.regs
    | with_reducible apply State.Inv.dram
    | with_reducible apply State.Inv.fstore
    | with_reducible apply State.Inv.cluster
    | split

theorem State.condAccept_inv (s : State) (j : CondJob) (h : s.Inv) : (State.condAccept s j).Inv := by
  unfold State.condAccept
  repeat' first
    | with_reducible assumption
    | with_reducible apply State.setFld_inv
    | with_reducible apply State.settle_inv
    | with_reducible apply State.setCond_inv
    | with_reducible apply State.condStart_inv
    | with_reducible apply State.inv_ite

theorem State.condGo_inv (s : State) (h : s.Inv) : (State.condGo s).Inv := by
  unfold State.condGo
  repeat' first
    | with_reducible assumption
    | with_reducible apply State.setFld_inv
    | with_reducible apply State.reject_inv
    | with_reducible apply State.condDone_inv
    | with_reducible apply State.condAccept_inv
    | with_reducible apply State.inv_ite

theorem State.condFull_inv (s : State) (h : s.Inv) : (State.condFull s).Inv := by
  unfold State.condFull
  repeat' first
    | with_reducible assumption
    | with_reducible apply State.setFld_inv
    | with_reducible apply State.raise_inv
    | with_reducible apply State.condCounts_inv
    | with_reducible apply State.condFree_inv
    | with_reducible apply State.condWrite_inv
    | with_reducible apply State.setCond_inv
    | simp only [State.inv_mk]
    | with_reducible apply And.intro
    | with_reducible apply State.Inv.regs
    | with_reducible apply State.Inv.dram
    | with_reducible apply State.Inv.fstore
    | with_reducible apply State.Inv.cluster
    | split

theorem State.condAbort_inv (s : State) (h : s.Inv) : (State.condAbort s).Inv := by
  unfold State.condAbort
  repeat' first
    | with_reducible assumption
    | with_reducible apply State.condCounts_inv
    | with_reducible apply State.condDone_inv
    | with_reducible apply State.condFree_inv
    | with_reducible apply State.condWrite_inv
    | with_reducible apply State.setCond_inv
    | simp only [State.inv_mk]
    | with_reducible apply And.intro
    | with_reducible apply State.Inv.regs
    | with_reducible apply State.Inv.dram
    | with_reducible apply State.Inv.fstore
    | with_reducible apply State.Inv.cluster
    | split

theorem State.condResume_inv (s : State) (h : s.Inv) : (State.condResume s).Inv := by
  unfold State.condResume
  repeat' first
    | with_reducible assumption
    | with_reducible apply State.setFld_inv
    | with_reducible apply State.reject_inv
    | with_reducible apply State.condDone_inv
    | with_reducible apply State.condAccept_inv
    | with_reducible apply State.setCond_inv
    | with_reducible apply State.inv_ite
    | split

theorem writeCondCtrl_inv (r : Req) (v : Word) (s : State) (h : s.Inv) : (writeCondCtrl r v s).Inv := by
  unfold writeCondCtrl
  repeat' first
    | with_reducible assumption
    | with_reducible intro _
    | with_reducible apply State.setFld_inv
    | with_reducible apply withWrite_inv
    | with_reducible apply State.condGo_inv
    | with_reducible apply State.condAbort_inv
    | with_reducible apply State.condResume_inv
    | with_reducible apply State.inv_ite

theorem runCond_inv (inflate : Bool) (h : HostData) (tag : ℕ) (c : Cmd) (s : State) (hi : s.Inv) : (runCond inflate h tag c s).Inv := by
  unfold runCond
  repeat' first
    | with_reducible assumption
    | with_reducible apply State.finishTag_inv
    | with_reducible apply State.failBuf_inv
    | with_reducible apply State.condAccept_inv
    | with_reducible apply State.inv_ite
    | split

theorem State.putAud_inv (s : State) (p : ℕ) (a : AudSt) (h : s.Inv) : (State.putAud s p a).Inv := by
  unfold State.putAud
  repeat' first
    | with_reducible assumption
    | simp only [State.inv_mk]
    | with_reducible apply And.intro
    | with_reducible apply State.Inv.regs
    | with_reducible apply State.Inv.dram
    | with_reducible apply State.Inv.fstore
    | with_reducible apply State.Inv.cluster

theorem State.endBlock_inv (s : State) (p : ℕ) (h : s.Inv) : (State.endBlock s p).Inv := by
  unfold State.endBlock
  repeat' first
    | with_reducible assumption
    | with_reducible apply State.setFld_inv
    | with_reducible apply State.pokeN_inv
    | with_reducible apply State.putAud_inv
    | with_reducible apply State.inv_ite

theorem State.newMask_inv (s : State) (p : ℕ) (h : s.Inv) : (State.newMask s p).Inv := by
  unfold State.newMask
  repeat' first
    | with_reducible assumption
    | with_reducible apply State.applyCommit_inv
    | with_reducible apply State.putAud_inv
    | with_reducible apply State.endBlock_inv
    | with_reducible apply State.inv_ite

theorem State.audStop_inv (s : State) (p : ℕ) (h : s.Inv) : (State.audStop s p).Inv := by
  unfold State.audStop
  repeat' first
    | with_reducible assumption
    | with_reducible apply State.setFld_inv
    | with_reducible apply State.emit_inv
    | with_reducible apply State.putAud_inv
    | with_reducible apply State.newMask_inv
    | with_reducible apply State.endBlock_inv
    | with_reducible apply State.inv_ite

theorem State.driveSync_inv (s : State) (p : ℕ) (h : s.Inv) : (State.driveSync s p).Inv := by
  unfold State.driveSync
  repeat' first
    | with_reducible assumption
    | with_reducible apply State.emit_inv
    | with_reducible apply State.inv_ite

theorem State.beginFrame_inv (s : State) (p : ℕ) (t : Time) (h : s.Inv) : (State.beginFrame s p t).Inv := by
  unfold State.beginFrame
  repeat' first
    | with_reducible assumption
    | with_reducible apply State.driveSync_inv
    | with_reducible apply State.putAud_inv

theorem State.rotation_inv (s : State) (p : ℕ) (h : s.Inv) : (State.rotation s p).Inv := by
  unfold State.rotation
  repeat' first
    | with_reducible assumption
    | with_reducible apply State.setFld_inv
    | with_reducible apply State.raise_inv
    | with_reducible apply State.inv_ite

theorem State.wordLost_inv (s : State) (p : ℕ) (count : Fld) (ev : Fld) (h : s.Inv) : (State.wordLost s p count ev).Inv := by
  unfold State.wordLost
  repeat' first
    | with_reducible assumption
    | with_reducible apply State.count_inv
    | with_reducible apply State.setFld_inv
    | with_reducible apply State.raise_inv
    | with_reducible apply State.putAud_inv

theorem State.moveWord_inv (s : State) (p : ℕ) (h : s.Inv) : (State.moveWord s p).Inv := by
  unfold State.moveWord
  repeat' first
    | with_reducible assumption
    | with_reducible apply State.setFld_inv
    | with_reducible apply State.putAud_inv

theorem State.captureWord_inv (s : State) (p : ℕ) (word : ℕ) (h : s.Inv) : (State.captureWord s p word).Inv := by
  unfold State.captureWord
  repeat' first
    | with_reducible assumption
    | with_reducible apply State.pokeN_inv
    | with_reducible apply State.wordLost_inv
    | with_reducible apply State.moveWord_inv
    | with_reducible apply State.inv_ite

theorem State.zeroSlots_inv (s : State) (p : ℕ) (h : s.Inv) : (State.zeroSlots s p).Inv := by
  unfold State.zeroSlots
  repeat' first
    | with_reducible assumption
    | with_reducible intro _
    | with_reducible apply State.putAud_inv
    | with_reducible apply State.captureWord_inv
    | with_reducible apply State.inv_ite
    | with_reducible apply State.inv_foldl

theorem State.endFrame_inv (s : State) (p : ℕ) (h : s.Inv) : (State.endFrame s p).Inv := by
  unfold State.endFrame
  repeat' first
    | with_reducible assumption
    | with_reducible apply State.zeroSlots_inv
    | with_reducible apply State.putAud_inv
    | with_reducible apply State.endBlock_inv
    | with_reducible apply State.inv_ite

theorem State.boundary_inv (s : State) (p : ℕ) (t : Time) (h : s.Inv) : (State.boundary s p t).Inv := by
  unfold State.boundary
  repeat' first
    | with_reducible assumption
    | with_reducible apply State.setFld_inv
    | with_reducible apply State.audStop_inv
    | with_reducible apply State.newMask_inv
    | with_reducible apply State.beginFrame_inv
    | with_reducible apply State.rotation_inv
    | with_reducible apply State.endFrame_inv
    | with_reducible apply State.inv_ite
    | split

theorem State.syncEdge_inv (s : State) (p : ℕ) (bclks : ℕ) (h : s.Inv) : (State.syncEdge s p bclks).Inv := by
  unfold State.syncEdge
  repeat' first
    | with_reducible assumption
    | with_reducible apply State.count_inv
    | with_reducible apply State.setFld_inv
    | with_reducible apply State.raise_inv
    | with_reducible apply State.boundary_inv
    | with_reducible apply State.putAud_inv
    | with_reducible apply State.inv_ite

theorem State.audStart_inv (s : State) (p : ℕ) (h : s.Inv) : (State.audStart s p).Inv := by
  unfold State.audStart
  repeat' first
    | with_reducible assumption
    | with_reducible apply State.setFld_inv
    | with_reducible apply State.putAud_inv
    | with_reducible apply State.inv_ite

theorem State.driveSlot_inv (s : State) (p : ℕ) (k : ℕ) (word : ℕ) (h : s.Inv) : (State.driveSlot s p k word).Inv := by
  unfold State.driveSlot
  repeat' first
    | with_reducible assumption
    | with_reducible apply State.emit_inv

theorem State.playWord_inv (s : State) (p : ℕ) (slot : ℕ) (h : s.Inv) : (State.playWord s p slot).Inv := by
  unfold State.playWord
  repeat' first
    | with_reducible assumption
    | with_reducible apply State.wordLost_inv
    | with_reducible apply State.moveWord_inv
    | with_reducible apply State.driveSlot_inv
    | with_reducible apply State.inv_ite

theorem State.audSlot_inv (s : State) (p : ℕ) (word : ℕ) (h : s.Inv) : (State.audSlot s p word).Inv := by
  unfold State.audSlot
  repeat' first
    | with_reducible assumption
    | with_reducible apply State.putAud_inv
    | with_reducible apply State.playWord_inv
    | with_reducible apply State.driveSlot_inv
    | with_reducible apply State.captureWord_inv
    | with_reducible apply State.inv_ite

theorem State.audSwitch_inv (s : State) (p : ℕ) (on : Bool) (h : s.Inv) : (State.audSwitch s p on).Inv := by
  unfold State.audSwitch
  repeat' first
    | with_reducible assumption
    | with_reducible apply State.audStart_inv
    | with_reducible apply State.audStop_inv
    | with_reducible apply State.putAud_inv
    | with_reducible apply State.inv_ite

theorem writeAudCtrl_inv (r : Req) (p : ℕ) (v : Word) (s : State) (h : s.Inv) : (writeAudCtrl r p v s).Inv := by
  unfold writeAudCtrl
  repeat' first
    | with_reducible assumption
    | with_reducible intro _
    | with_reducible apply State.wr_inv
    | with_reducible apply State.raise_inv
    | with_reducible apply State.reject_inv
    | with_reducible apply withWrite_inv
    | with_reducible apply State.audSwitch_inv
    | with_reducible apply State.inv_ite

end Sys2Proof.Machine
end

