-- ==== Sys2Proof/Laws/CanonRest.lean ====
section
/-! SUPPORT. Outputs, time, memory control, namespaces, modes, reset, Relay and register access keep the canonical form (State.Inv): one lemma per operation. -/

set_option Elab.async false

namespace Sys2Proof.Machine

theorem State.putMirror_inv (s : State) (k : ℕ) (m : MirrorSt) (h : s.Inv) : (State.putMirror s k m).Inv := by
  unfold State.putMirror
  repeat' first
    | with_reducible assumption
    | simp only [State.inv_mk]
    | with_reducible apply And.intro
    | with_reducible apply State.Inv.regs
    | with_reducible apply State.Inv.dram
    | with_reducible apply State.Inv.fstore
    | with_reducible apply State.Inv.cluster

theorem State.mirrorFrame_inv (s : State) (k : ℕ) (h : s.Inv) : (State.mirrorFrame s k).Inv := by
  unfold State.mirrorFrame
  repeat' first
    | with_reducible assumption
    | with_reducible apply State.count_inv
    | with_reducible apply State.setFld_inv
    | with_reducible apply State.raise_inv
    | with_reducible apply State.putMirror_inv
    | with_reducible apply State.inv_ite

theorem State.putEngine_inv (s : State) (n : ℕ) (e : LoupeSt) (h : s.Inv) : (State.putEngine s n e).Inv := by
  unfold State.putEngine
  repeat' first
    | with_reducible assumption
    | simp only [State.inv_mk]
    | with_reducible apply And.intro
    | with_reducible apply State.Inv.regs
    | with_reducible apply State.Inv.dram
    | with_reducible apply State.Inv.fstore
    | with_reducible apply State.Inv.cluster

theorem State.setLost_inv (s : State) (k : ℕ) (b : Bool) (h : s.Inv) : (State.setLost s k b).Inv := by
  unfold State.setLost
  repeat' first
    | with_reducible assumption
    | with_reducible apply State.setFld_inv

theorem State.mirrorLost_inv (s : State) (k : ℕ) (h : s.Inv) : (State.mirrorLost s k).Inv := by
  unfold State.mirrorLost
  repeat' first
    | with_reducible assumption
    | with_reducible apply State.raise_inv
    | with_reducible apply State.putMirror_inv
    | with_reducible apply State.setLost_inv

theorem State.keepCrc_inv (s : State) (n : ℕ) (k : ℕ) (line : ℕ) (crc : ℕ) (h : s.Inv) : (State.keepCrc s n k line crc).Inv := by
  unfold State.keepCrc
  repeat' first
    | with_reducible assumption
    | with_reducible apply State.putEngine_inv
    | with_reducible apply State.mirrorLost_inv
    | with_reducible apply State.inv_ite

theorem State.sendLink_inv (s : State) (n : ℕ) (k : ℕ) (line : ℕ) (row : Option (List (ℕ × ℕ × ℕ))) (anc : List (List ℕ)) (late : Bool) (h : s.Inv) : (State.sendLink s n k line row anc late).Inv := by
  unfold State.sendLink
  repeat' first
    | with_reducible assumption
    | with_reducible apply State.emit_inv
    | with_reducible apply State.raiseIf_inv
    | with_reducible apply State.keepCrc_inv
    | split

theorem State.loupeTake_inv (s : State) (h : s.Inv) : (State.loupeTake s).Inv := by
  unfold State.loupeTake
  repeat' first
    | with_reducible assumption
    | with_reducible intro _
    | with_reducible apply State.setFld_inv
    | with_reducible apply State.inv_foldl
    | simp only [State.inv_mk]
    | with_reducible apply And.intro
    | with_reducible apply State.Inv.regs
    | with_reducible apply State.Inv.dram
    | with_reducible apply State.Inv.fstore
    | with_reducible apply State.Inv.cluster

theorem State.setSource_inv (s : State) (n : ℕ) (src : Option (ℕ × ℕ)) (h : s.Inv) : (State.setSource s n src).Inv := by
  unfold State.setSource
  repeat' first
    | with_reducible assumption
    | with_reducible apply State.setFld64_inv
    | with_reducible apply State.freeBuf_inv
    | with_reducible apply State.holdBuf_inv
    | with_reducible apply State.putEngine_inv
    | with_reducible apply State.inv_ite
    | split

theorem State.lockSource_inv (s : State) (n : ℕ) (h : s.Inv) : (State.lockSource s n).Inv := by
  unfold State.lockSource
  repeat' first
    | with_reducible assumption
    | with_reducible apply State.setSource_inv
    | split

theorem State.frameSent_inv (s : State) (n : ℕ) (h : s.Inv) : (State.frameSent s n).Inv := by
  unfold State.frameSent
  repeat' first
    | with_reducible assumption
    | with_reducible intro _
    | with_reducible apply State.setFld64_inv
    | with_reducible apply State.count_inv
    | with_reducible apply State.putEngine_inv
    | with_reducible apply State.inv_foldl

theorem State.lineSent_inv (s : State) (n : ℕ) (y : ℕ) (r : List (ℕ × ℕ × ℕ) × Bool × Bool) (h : s.Inv) : (State.lineSent s n y r).Inv := by
  unfold State.lineSent
  repeat' first
    | with_reducible assumption
    | with_reducible apply State.count_inv
    | with_reducible apply State.raiseIf_inv
    | with_reducible apply State.putEngine_inv
    | with_reducible apply State.setSource_inv
    | with_reducible apply State.inv_ite

theorem State.loupeLine_inv (s : State) (n : ℕ) (late : LineLate) (h : s.Inv) : (State.loupeLine s n late).Inv := by
  unfold State.loupeLine
  repeat' first
    | with_reducible assumption
    | with_reducible intro _
    | with_reducible apply State.raiseIf_inv
    | with_reducible apply State.putEngine_inv
    | with_reducible apply State.sendLink_inv
    | with_reducible apply State.lockSource_inv
    | with_reducible apply State.frameSent_inv
    | with_reducible apply State.lineSent_inv
    | with_reducible apply State.inv_ite
    | with_reducible apply State.inv_foldl
    | split

theorem State.showSdi_inv (s0 : State) (s : State) (n : ℕ) (h : s.Inv) : (State.showSdi s0 s n).Inv := by
  unfold State.showSdi
  repeat' first
    | with_reducible assumption
    | with_reducible intro _
    | with_reducible apply State.setFld_inv
    | with_reducible apply State.raiseIf_inv
    | with_reducible apply State.inv_foldl

theorem State.samplePoint_inv (s : State) (n : ℕ) (h : s.Inv) : (State.samplePoint s n).Inv := by
  unfold State.samplePoint
  repeat' first
    | with_reducible assumption
    | with_reducible apply State.setFld_inv
    | with_reducible apply State.raise_inv
    | with_reducible apply State.raiseIf_inv
    | with_reducible apply State.applyCommit_inv
    | with_reducible apply State.putEngine_inv
    | with_reducible apply State.showSdi_inv
    | with_reducible apply State.setSource_inv
    | with_reducible apply State.inv_ite
    | simp only [State.inv_mk]
    | with_reducible apply And.intro
    | with_reducible apply State.Inv.regs
    | with_reducible apply State.Inv.dram
    | with_reducible apply State.Inv.fstore
    | with_reducible apply State.Inv.cluster
    | split

theorem State.relockAll_inv (s : State) (h : s.Inv) : (State.relockAll s).Inv := by
  unfold State.relockAll
  repeat' first
    | with_reducible assumption
    | with_reducible intro _
    | with_reducible apply State.setFld_inv
    | with_reducible apply State.raise_inv
    | with_reducible apply State.inv_ite
    | with_reducible apply State.inv_foldl

theorem State.engineStart_inv (s : State) (n : ℕ) (h : s.Inv) : (State.engineStart s n).Inv := by
  unfold State.engineStart
  repeat' first
    | with_reducible assumption
    | with_reducible apply State.setFld64_inv
    | with_reducible apply State.setFld_inv
    | with_reducible apply State.putEngine_inv

theorem State.engineStop_inv (s : State) (n : ℕ) (h : s.Inv) : (State.engineStop s n).Inv := by
  unfold State.engineStop
  repeat' first
    | with_reducible assumption
    | with_reducible apply State.setFld_inv
    | with_reducible apply State.applyCommit_inv
    | with_reducible apply State.putEngine_inv
    | with_reducible apply State.setSource_inv
    | with_reducible apply State.inv_ite

theorem writeLoupeCtrl_inv (r : Req) (n : ℕ) (v : Word) (s : State) (h : s.Inv) : (writeLoupeCtrl r n v s).Inv := by
  unfold writeLoupeCtrl
  repeat' first
    | with_reducible assumption
    | with_reducible intro _
    | with_reducible apply State.reject_inv
    | with_reducible apply withWrite_inv
    | with_reducible apply plainStore_inv
    | with_reducible apply State.settle_inv
    | with_reducible apply State.engineStart_inv
    | with_reducible apply State.engineStop_inv
    | with_reducible apply State.inv_ite

theorem writeMirrorCtrl_inv (r : Req) (v : Word) (s : State) (h : s.Inv) : (writeMirrorCtrl r v s).Inv := by
  unfold writeMirrorCtrl
  repeat' first
    | with_reducible assumption
    | with_reducible intro _
    | with_reducible apply State.setFld_inv
    | with_reducible apply withWrite_inv
    | with_reducible apply plainStore_inv
    | with_reducible apply State.settle_inv
    | with_reducible apply State.putMirror_inv
    | with_reducible apply State.setLost_inv
    | with_reducible apply State.inv_ite
    | with_reducible apply State.inv_foldl

theorem State.dropSources_inv (s : State) (h : s.Inv) : (State.dropSources s).Inv := by
  unfold State.dropSources
  repeat' first
    | with_reducible assumption
    | with_reducible intro _
    | with_reducible apply State.setSource_inv
    | with_reducible apply State.inv_foldl
    | split

theorem State.mirrorLine_inv (s : State) (k : ℕ) (line : ℕ) (crc : ℕ) (b : MirrorLine) (h : s.Inv) : (State.mirrorLine s k line crc b).Inv := by
  unfold State.mirrorLine
  repeat' first
    | with_reducible assumption
    | with_reducible apply State.count_inv
    | with_reducible apply State.raise_inv
    | with_reducible apply State.raiseIf_inv
    | with_reducible apply State.mirrorFrame_inv
    | with_reducible apply State.mirrorLost_inv
    | with_reducible apply State.putMirror_inv
    | with_reducible apply State.inv_ite

theorem State.mirrorCheck_inv (s : State) (k : ℕ) (b : MirrorLine) (h : s.Inv) : (State.mirrorCheck s k b).Inv := by
  unfold State.mirrorCheck
  repeat' first
    | with_reducible assumption
    | with_reducible apply State.putEngine_inv
    | with_reducible apply State.putMirror_inv
    | with_reducible apply State.mirrorLine_inv
    | with_reducible apply State.setLost_inv
    | with_reducible apply State.inv_ite
    | split

theorem State.putFlow_inv (s : State) (f : ℕ) (x : FlowSt) (h : s.Inv) : (State.putFlow s f x).Inv := by
  unfold State.putFlow
  repeat' first
    | with_reducible assumption
    | simp only [State.inv_mk]
    | with_reducible apply And.intro
    | with_reducible apply State.Inv.regs
    | with_reducible apply State.Inv.dram
    | with_reducible apply State.Inv.fstore
    | with_reducible apply State.Inv.cluster

theorem State.flowStart_inv (s : State) (f : ℕ) (h : s.Inv) : (State.flowStart s f).Inv := by
  unfold State.flowStart
  repeat' first
    | with_reducible assumption
    | with_reducible apply State.putFlow_inv
    | simp only [State.inv_mk]
    | with_reducible apply And.intro
    | with_reducible apply State.Inv.regs
    | with_reducible apply State.Inv.dram
    | with_reducible apply State.Inv.fstore
    | with_reducible apply State.Inv.cluster

theorem State.sendPacket_inv (s : State) (f : ℕ) (x : FlowSt) (stamp : ℕ) (marker : Bool) (line : ℕ) (off : ℕ) (b : List Byte) (fill : Bool) (h : s.Inv) : (State.sendPacket s f x stamp marker line off b fill).Inv := by
  unfold State.sendPacket
  repeat' first
    | with_reducible assumption
    | with_reducible apply State.setFld64_inv
    | with_reducible apply State.emit_inv
    | with_reducible apply State.raiseIf_inv
    | with_reducible apply State.putFlow_inv

theorem State.sendDirect_inv (s : State) (f : Nat) (late : Bool) (h : s.Inv) : (s.sendDirect f late).Inv := by
  unfold State.sendDirect
  dsimp only
  split
  · exact h
  · split
    · exact h
    · rename_i s1 x1 g heq
      have h1 : s1.Inv := by
        split at heq
        · cases heq
          exact h
        · split at heq
          · cases heq
          · rename_i g0 hn
            cases hw : s.newestOf (s.flowSrc f) with
            | none => rw [hw] at heq; cases heq
            | some g1 =>
              rw [hw] at heq
              cases heq
              exact State.holdBuf_inv _ _ _ _ h
      split
      · exact State.sendPacket_inv _ _ _ _ _ _ _ _ _ h1
      · exact State.sendPacket_inv _ _ _ _ _ _ _ _ _ (State.freeBuf_inv _ _ _ _ h1)

theorem State.sendEngine_inv (s : State) (f : ℕ) (late : Bool) (h : s.Inv) : (State.sendEngine s f late).Inv := by
  unfold State.sendEngine
  repeat' first
    | with_reducible assumption
    | with_reducible apply State.sendPacket_inv
    | with_reducible apply State.putFlow_inv
    | split
    | dsimp only

theorem State.flowDrop_inv (s : State) (f : ℕ) (h : s.Inv) : (State.flowDrop s f).Inv := by
  unfold State.flowDrop
  repeat' first
    | with_reducible assumption
    | with_reducible apply State.freeBuf_inv
    | with_reducible apply State.putFlow_inv
    | split

theorem writeFlowCfg_inv (r : Req) (f : ℕ) (v : Word) (s : State) (h : s.Inv) : (writeFlowCfg r f v s).Inv := by
  unfold writeFlowCfg
  repeat' first
    | with_reducible assumption
    | with_reducible intro _
    | with_reducible apply State.raise_inv
    | with_reducible apply State.reject_inv
    | with_reducible apply withWrite_inv
    | with_reducible apply plainStore_inv
    | with_reducible apply State.flowStart_inv
    | with_reducible apply State.putFlow_inv
    | with_reducible apply State.flowDrop_inv
    | with_reducible apply State.inv_ite

theorem State.sendAudio_inv (s : State) (f : ℕ) (late : Bool) (h : s.Inv) : (State.sendAudio s f late).Inv := by
  unfold State.sendAudio
  repeat' first
    | with_reducible assumption
    | with_reducible apply State.sendPacket_inv
    | with_reducible apply State.inv_ite

theorem State.sendAnc_inv (s : State) (f : ℕ) (late : Bool) (h : s.Inv) : (State.sendAnc s f late).Inv := by
  unfold State.sendAnc
  repeat' first
    | with_reducible assumption
    | with_reducible apply State.sendPacket_inv
    | with_reducible apply State.inv_ite
    | split

theorem State.flowSend_inv (s : State) (f : ℕ) (late : Bool) (h : s.Inv) : (State.flowSend s f late).Inv := by
  unfold State.flowSend
  repeat' first
    | with_reducible assumption
    | with_reducible apply State.sendDirect_inv
    | with_reducible apply State.sendEngine_inv
    | with_reducible apply State.sendAudio_inv
    | with_reducible apply State.sendAnc_inv
    | split

theorem State.setEthLink_inv (s : State) (e : ℕ) (up : Bool) (h : s.Inv) : (State.setEthLink s e up).Inv := by
  unfold State.setEthLink
  repeat' first
    | with_reducible assumption
    | with_reducible apply State.setOn_inv
    | with_reducible apply State.raise_inv
    | with_reducible apply State.inv_ite

theorem writeEthCtrl_inv (r : Req) (e : ℕ) (v : Word) (s : State) (h : s.Inv) : (writeEthCtrl r e v s).Inv := by
  unfold writeEthCtrl
  repeat' first
    | with_reducible assumption
    | with_reducible intro _
    | with_reducible apply withWrite_inv
    | with_reducible apply plainStore_inv
    | with_reducible apply State.settle_inv
    | with_reducible apply State.setEthLink_inv
    | with_reducible apply State.inv_ite

theorem State.showOffset_inv (s : State) (theta : ℤ) (h : s.Inv) : (State.showOffset s theta).Inv := by
  unfold State.showOffset
  repeat' first
    | with_reducible assumption
    | with_reducible apply State.setFld_inv

theorem State.stepTo_inv (s : State) (t : Time) (h : s.Inv) : (State.stepTo s t).Inv := by
  unfold State.stepTo
  repeat' first
    | with_reducible assumption
    | with_reducible intro _
    | with_reducible apply State.raise_inv
    | with_reducible apply State.inv_ite
    | with_reducible apply State.inv_foldl
    | simp only [State.inv_mk]
    | with_reducible apply And.intro
    | with_reducible apply State.Inv.regs
    | with_reducible apply State.Inv.dram
    | with_reducible apply State.Inv.fstore
    | with_reducible apply State.Inv.cluster

theorem State.setTime_inv (s : State) (h : s.Inv) : (State.setTime s).Inv := by
  unfold State.setTime
  repeat' first
    | with_reducible assumption
    | with_reducible apply State.reject_inv
    | with_reducible apply State.stepTo_inv
    | with_reducible apply State.inv_ite

theorem State.setColl_inv (s : State) (c : CollSt) (h : s.Inv) : (State.setColl s c).Inv := by
  unfold State.setColl
  repeat' first
    | with_reducible assumption
    | simp only [State.inv_mk]
    | with_reducible apply And.intro
    | with_reducible apply State.Inv.regs
    | with_reducible apply State.Inv.dram
    | with_reducible apply State.Inv.fstore
    | with_reducible apply State.Inv.cluster

theorem State.setRate_inv (s : State) (a : ℤ) (h : s.Inv) : (State.setRate s a).Inv := by
  unfold State.setRate
  repeat' first
    | with_reducible assumption
    | with_reducible apply State.setFld_inv

theorem State.holdRate_inv (s : State) (h : s.Inv) : (State.holdRate s).Inv := by
  unfold State.holdRate
  repeat' first
    | with_reducible assumption
    | with_reducible apply State.setRate_inv

theorem State.showAligned_inv (s : State) (h : s.Inv) : (State.showAligned s).Inv := by
  unfold State.showAligned
  repeat' first
    | with_reducible assumption
    | with_reducible apply State.setOn_inv
    | with_reducible apply State.raiseIf_inv

theorem State.enter_inv (s : State) (v : ℕ) (h : s.Inv) : (State.enter s v).Inv := by
  unfold State.enter
  repeat' first
    | with_reducible assumption
    | with_reducible apply State.setFld_inv
    | with_reducible apply State.raiseIf_inv
    | with_reducible apply State.setColl_inv
    | with_reducible apply State.holdRate_inv
    | with_reducible apply State.showAligned_inv
    | with_reducible apply State.inv_ite

theorem State.stepHold_inv (s : State) (h : s.Inv) : (State.stepHold s).Inv := by
  unfold State.stepHold
  repeat' first
    | with_reducible assumption
    | with_reducible apply State.raise_inv
    | with_reducible apply State.enter_inv
    | with_reducible apply State.setColl_inv

theorem State.collRestart_inv (s : State) (h : s.Inv) : (State.collRestart s).Inv := by
  unfold State.collRestart
  repeat' first
    | with_reducible assumption
    | with_reducible apply State.setFld_inv
    | simp only [State.inv_mk]
    | with_reducible apply And.intro
    | with_reducible apply State.Inv.regs
    | with_reducible apply State.Inv.dram
    | with_reducible apply State.Inv.fstore
    | with_reducible apply State.Inv.cluster

theorem State.slew_inv (s : State) (theta : ℤ) (log : ℤ) (h : s.Inv) : (State.slew s theta log).Inv := by
  unfold State.slew
  repeat' first
    | with_reducible assumption
    | with_reducible apply State.raiseIf_inv
    | with_reducible apply State.setColl_inv
    | with_reducible apply State.setRate_inv

theorem State.syncIn_inv (s : State) (h : s.Inv) : (State.syncIn s).Inv := by
  unfold State.syncIn
  repeat' first
    | with_reducible assumption
    | with_reducible apply State.setFld64_inv
    | with_reducible apply State.setFld_inv
    | with_reducible apply State.raise_inv
    | with_reducible apply State.showOffset_inv
    | with_reducible apply State.slew_inv
    | with_reducible apply State.inv_ite

theorem State.syncLost_inv (s : State) (h : s.Inv) : (State.syncLost s).Inv := by
  unfold State.syncLost
  repeat' first
    | with_reducible assumption
    | with_reducible apply State.enter_inv
    | with_reducible apply State.setColl_inv
    | with_reducible apply State.inv_ite

theorem State.servoStop_inv (s : State) (h : s.Inv) : (State.servoStop s).Inv := by
  unfold State.servoStop
  repeat' first
    | with_reducible assumption
    | with_reducible apply State.enter_inv
    | with_reducible apply State.setColl_inv

theorem State.select_inv (s : State) (m : PtpAnnounceMsg) (h : s.Inv) : (State.select s m).Inv := by
  unfold State.select
  repeat' first
    | with_reducible assumption
    | with_reducible apply State.setFld64_inv
    | with_reducible apply State.setFld_inv
    | with_reducible apply State.raiseIf_inv
    | with_reducible apply State.enter_inv
    | with_reducible apply State.setColl_inv

theorem State.sendDelayReq_inv (s : State) (h : s.Inv) : (State.sendDelayReq s).Inv := by
  unfold State.sendDelayReq
  repeat' first
    | with_reducible assumption
    | with_reducible apply State.setFld64_inv
    | with_reducible apply State.emit_inv
    | with_reducible apply State.setColl_inv
    | split

theorem State.acceptSample_inv (s : State) (theta : ℤ) (h : s.Inv) : (State.acceptSample s theta).Inv := by
  unfold State.acceptSample
  repeat' first
    | with_reducible assumption
    | with_reducible apply State.count_inv
    | with_reducible apply State.setColl_inv

theorem State.track_inv (s : State) (theta : ℤ) (log : ℤ) (h : s.Inv) : (State.track s theta log).Inv := by
  unfold State.track
  repeat' first
    | with_reducible assumption
    | with_reducible apply State.stepHold_inv
    | with_reducible apply State.slew_inv
    | with_reducible apply State.showAligned_inv
    | with_reducible apply State.acceptSample_inv
    | with_reducible apply State.inv_ite

theorem State.windowEnd_inv (s : State) (h : s.Inv) : (State.windowEnd s).Inv := by
  unfold State.windowEnd
  repeat' first
    | with_reducible assumption
    | with_reducible apply State.raise_inv
    | with_reducible apply State.enter_inv
    | with_reducible apply State.inv_ite

theorem State.acquire_inv (s : State) (theta : ℤ) (log : ℤ) (h : s.Inv) : (State.acquire s theta log).Inv := by
  unfold State.acquire
  repeat' first
    | with_reducible assumption
    | with_reducible apply State.enter_inv
    | with_reducible apply State.setColl_inv
    | with_reducible apply State.holdRate_inv
    | with_reducible apply State.slew_inv
    | with_reducible apply State.showAligned_inv
    | with_reducible apply State.acceptSample_inv
    | with_reducible apply State.stepTo_inv
    | with_reducible apply State.inv_ite

theorem State.sample_inv (s0 : State) (theta : ℤ) (log : ℤ) (h : s0.Inv) : (State.sample s0 theta log).Inv := by
  unfold State.sample
  repeat' first
    | with_reducible assumption
    | with_reducible apply State.showOffset_inv
    | with_reducible apply State.stepHold_inv
    | with_reducible apply State.enter_inv
    | with_reducible apply State.setColl_inv
    | with_reducible apply State.slew_inv
    | with_reducible apply State.track_inv
    | with_reducible apply State.acceptSample_inv
    | with_reducible apply State.acquire_inv
    | split
    | dsimp only

theorem State.snap_inv (s : State) (r : Req) (h : s.Inv) : (State.snap s r).Inv := by
  unfold State.snap
  repeat' first
    | with_reducible assumption
    | with_reducible apply State.setFld64_inv
    | with_reducible apply State.setFld_inv

theorem writeCollCtrl_inv (r : Req) (v : Word) (s : State) (h : s.Inv) : (writeCollCtrl r v s).Inv := by
  unfold writeCollCtrl
  repeat' first
    | with_reducible assumption
    | with_reducible intro _
    | with_reducible apply State.wr_inv
    | with_reducible apply State.reject_inv
    | with_reducible apply withWrite_inv
    | with_reducible apply State.setTime_inv
    | with_reducible apply State.servoStop_inv
    | with_reducible apply State.snap_inv
    | with_reducible apply State.inv_ite

theorem State.tick_inv (s : State) (h : s.Inv) : (State.tick s).Inv := by
  unfold State.tick
  repeat' first
    | with_reducible assumption
    | with_reducible apply State.inv_ite
    | simp only [State.inv_mk]
    | with_reducible apply And.intro
    | with_reducible apply State.Inv.regs
    | with_reducible apply State.Inv.dram
    | with_reducible apply State.Inv.fstore
    | with_reducible apply State.Inv.cluster

theorem State.ptpDiscard_inv (s : State) (h : s.Inv) : (State.ptpDiscard s).Inv := by
  unfold State.ptpDiscard
  repeat' first
    | with_reducible assumption
    | with_reducible apply State.count_inv

theorem State.rxDelayResp_inv (s : State) (m : PtpDelayRespMsg) (h : s.Inv) : (State.rxDelayResp s m).Inv := by
  unfold State.rxDelayResp
  repeat' first
    | with_reducible assumption
    | with_reducible apply State.setFld_inv
    | with_reducible apply State.setColl_inv
    | with_reducible apply State.ptpDiscard_inv
    | split

theorem State.rxSync_inv (s : State) (m : PtpSyncMsg) (h : s.Inv) : (State.rxSync s m).Inv := by
  unfold State.rxSync
  repeat' first
    | with_reducible assumption
    | with_reducible apply State.setColl_inv
    | with_reducible apply State.sample_inv
    | with_reducible apply State.ptpDiscard_inv
    | with_reducible apply State.inv_ite

theorem State.rxAnnounce_inv (s : State) (m : PtpAnnounceMsg) (h : s.Inv) : (State.rxAnnounce s m).Inv := by
  unfold State.rxAnnounce
  repeat' first
    | with_reducible assumption
    | with_reducible apply State.setColl_inv
    | with_reducible apply State.select_inv
    | with_reducible apply State.ptpDiscard_inv
    | split
    | dsimp only

theorem writePtpCfg_inv (r : Req) (v : Word) (s : State) (h : s.Inv) : (writePtpCfg r v s).Inv := by
  unfold writePtpCfg
  repeat' first
    | with_reducible assumption
    | with_reducible intro _
    | with_reducible apply State.showCorr_inv
    | with_reducible apply withWrite_inv
    | with_reducible apply plainStore_inv

theorem State.disarm_inv (s : State) (h : s.Inv) : (State.disarm s).Inv := by
  unfold State.disarm
  repeat' first
    | with_reducible assumption
    | with_reducible apply State.setFld_inv

theorem State.trigStart_inv (s : State) (h : s.Inv) : (State.trigStart s).Inv := by
  unfold State.trigStart
  repeat' first
    | with_reducible assumption
    | with_reducible apply State.setFld64_inv
    | with_reducible apply State.setFld_inv
    | simp only [State.inv_mk]
    | with_reducible apply And.intro
    | with_reducible apply State.Inv.regs
    | with_reducible apply State.Inv.dram
    | with_reducible apply State.Inv.fstore
    | with_reducible apply State.Inv.cluster

theorem State.setTrig_inv (s : State) (t : TrigSt) (h : s.Inv) : (State.setTrig s t).Inv := by
  unfold State.setTrig
  repeat' first
    | with_reducible assumption
    | simp only [State.inv_mk]
    | with_reducible apply And.intro
    | with_reducible apply State.Inv.regs
    | with_reducible apply State.Inv.dram
    | with_reducible apply State.Inv.fstore
    | with_reducible apply State.Inv.cluster

theorem State.triggerEdge_inv (s : State) (pin : ℕ) (h : s.Inv) : (State.triggerEdge s pin).Inv := by
  unfold State.triggerEdge
  repeat' first
    | with_reducible assumption
    | with_reducible apply State.setFld64_inv
    | with_reducible apply State.count_inv
    | with_reducible apply State.setFld_inv
    | with_reducible apply State.emit_inv
    | with_reducible apply State.raise_inv
    | with_reducible apply State.raiseIf_inv
    | with_reducible apply State.setTrig_inv
    | with_reducible apply State.inv_ite
    | simp only [State.inv_mk]
    | with_reducible apply And.intro
    | with_reducible apply State.Inv.regs
    | with_reducible apply State.Inv.dram
    | with_reducible apply State.Inv.fstore
    | with_reducible apply State.Inv.cluster

theorem State.pulseEnd_inv (s : State) (pin : ℕ) (h : s.Inv) : (State.pulseEnd s pin).Inv := by
  unfold State.pulseEnd
  repeat' first
    | with_reducible assumption
    | with_reducible apply State.emit_inv
    | with_reducible apply State.setTrig_inv
    | split
    | dsimp only

theorem State.syncOut_inv (s : State) (h : s.Inv) : (State.syncOut s).Inv := by
  unfold State.syncOut
  repeat' first
    | with_reducible assumption
    | with_reducible apply State.emit_inv
    | split

theorem State.armTriggers_inv (s : State) (h : s.Inv) : (State.armTriggers s).Inv := by
  unfold State.armTriggers
  repeat' first
    | with_reducible assumption
    | with_reducible apply State.setFld64_inv
    | with_reducible apply State.setFld_inv
    | with_reducible apply State.raise_inv
    | with_reducible apply State.setTrig_inv
    | with_reducible apply State.inv_ite

theorem State.raiseAll_inv (s : State) (l : List (ℕ × Fld)) (h : s.Inv) : (State.raiseAll s l).Inv := by
  unfold State.raiseAll
  repeat' first
    | with_reducible assumption
    | with_reducible intro _
    | with_reducible apply State.raise_inv
    | with_reducible apply State.inv_foldl

theorem runCheckConfig_inv (h : HostData) (tag : ℕ) (c : Cmd) (s : State) (hi : s.Inv) : (runCheckConfig h tag c s).Inv := by
  unfold runCheckConfig
  repeat' first
    | with_reducible assumption
    | with_reducible apply State.finishTag_inv
    | with_reducible apply State.setHq_inv
    | with_reducible apply State.failBuf_inv
    | with_reducible apply State.toHost_inv
    | split
    | dsimp only

theorem State.allDram_inv (s : State) (f : Fld) (v : ℕ) (h : s.Inv) : (State.allDram s f v).Inv := by
  unfold State.allDram
  repeat' first
    | with_reducible assumption
    | with_reducible intro _
    | with_reducible apply State.setFld_inv
    | with_reducible apply State.inv_foldl

theorem State.setDramc_inv (s : State) (d : DramSt) (h : s.Inv) : (State.setDramc s d).Inv := by
  unfold State.setDramc
  repeat' first
    | with_reducible assumption
    | simp only [State.inv_mk]
    | with_reducible apply And.intro
    | with_reducible apply State.Inv.regs
    | with_reducible apply State.Inv.dram
    | with_reducible apply State.Inv.fstore
    | with_reducible apply State.Inv.cluster

theorem State.freqStart_inv (s : State) (fs : ℕ) (h : s.Inv) : (State.freqStart s fs).Inv := by
  unfold State.freqStart
  repeat' first
    | with_reducible assumption
    | with_reducible apply State.setFld_inv
    | with_reducible apply State.allDram_inv
    | with_reducible apply State.setDramc_inv

theorem State.freqRequest_inv (s : State) (fs : ℕ) (h : s.Inv) : (State.freqRequest s fs).Inv := by
  unfold State.freqRequest
  repeat' first
    | with_reducible assumption
    | with_reducible apply State.setFld_inv
    | with_reducible apply State.raise_inv
    | with_reducible apply State.freqStart_inv
    | with_reducible apply State.setDramc_inv
    | with_reducible apply State.inv_ite

theorem writeFreq_inv (r : Req) (v : Word) (s : State) (h : s.Inv) : (writeFreq r v s).Inv := by
  unfold writeFreq
  repeat' first
    | with_reducible assumption
    | with_reducible intro _
    | with_reducible apply State.reject_inv
    | with_reducible apply withWrite_inv
    | with_reducible apply plainStore_inv
    | with_reducible apply State.freqRequest_inv
    | with_reducible apply State.inv_ite

theorem State.dramWake_inv (s : State) (h : s.Inv) : (State.dramWake s).Inv := by
  unfold State.dramWake
  repeat' first
    | with_reducible assumption
    | with_reducible apply State.setFld_inv
    | with_reducible apply State.allDram_inv
    | with_reducible apply State.setDramc_inv

theorem State.setBand_inv (s : State) (k : ℕ) (b : ℕ) (h : s.Inv) : (State.setBand s k b).Inv := by
  unfold State.setBand
  repeat' first
    | with_reducible assumption
    | with_reducible apply State.setFld_inv

theorem State.freqDone_inv (s : State) (h : s.Inv) : (State.freqDone s).Inv := by
  unfold State.freqDone
  repeat' first
    | with_reducible assumption
    | with_reducible intro _
    | with_reducible apply State.setFld_inv
    | with_reducible apply State.raise_inv
    | with_reducible apply State.freqStart_inv
    | with_reducible apply State.allDram_inv
    | with_reducible apply State.setDramc_inv
    | with_reducible apply State.setBand_inv
    | with_reducible apply State.inv_foldl
    | split

theorem State.freqZero_inv (s : State) (h : s.Inv) : (State.freqZero s).Inv := by
  unfold State.freqZero
  repeat' first
    | with_reducible assumption
    | with_reducible apply State.setFld_inv
    | with_reducible apply State.freqStart_inv
    | with_reducible apply State.freqDone_inv
    | with_reducible apply State.setDramc_inv
    | with_reducible apply State.inv_ite

theorem State.pollChannel_inv (s : State) (k : ℕ) (deg : ℕ) (mr4 : ℕ) (h : s.Inv) : (State.pollChannel s k deg mr4).Inv := by
  unfold State.pollChannel
  repeat' first
    | with_reducible assumption
    | with_reducible apply State.setFld_inv
    | with_reducible apply State.raise_inv
    | with_reducible apply State.setDramc_inv
    | with_reducible apply State.setBand_inv
    | with_reducible apply State.inv_ite

theorem State.eccError_inv (s : State) (e : EccError) (h : s.Inv) : (State.eccError s e).Inv := by
  unfold State.eccError
  repeat' first
    | with_reducible assumption
    | with_reducible apply State.setFld64_inv
    | with_reducible apply State.count_inv
    | with_reducible apply State.raise_inv
    | with_reducible apply State.finishTag_inv
    | with_reducible apply State.emptySlot_inv
    | with_reducible apply State.endLoad_inv
    | with_reducible apply State.setDramc_inv
    | with_reducible apply State.inv_ite
    | split

theorem State.dramSleep_inv (s : State) (h : s.Inv) : (State.dramSleep s).Inv := by
  unfold State.dramSleep
  repeat' first
    | with_reducible assumption
    | with_reducible apply State.allDram_inv

theorem State.gathered_inv (s : State) (osc : ℕ) (waited : ℕ) (drifted : Bool) (h : s.Inv) : (State.gathered s osc waited drifted).Inv := by
  unfold State.gathered
  repeat' first
    | with_reducible assumption
    | with_reducible apply State.count_inv
    | with_reducible apply State.setFld_inv
    | with_reducible apply State.raise_inv
    | with_reducible apply State.freqStart_inv
    | with_reducible apply State.setDramc_inv
    | split
    | dsimp only

theorem State.pollAll_inv (s : State) (temps : List (ℕ × ℕ)) (h : s.Inv) : (State.pollAll s temps).Inv := by
  unfold State.pollAll
  repeat' first
    | with_reducible assumption
    | with_reducible intro _
    | with_reducible apply State.pollChannel_inv
    | with_reducible apply State.inv_foldl
    | simp only [State.inv_mk]
    | with_reducible apply And.intro
    | with_reducible apply State.Inv.regs
    | with_reducible apply State.Inv.dram
    | with_reducible apply State.Inv.fstore
    | with_reducible apply State.Inv.cluster

theorem State.trained_inv (s : State) (t : TrainResult) (h : s.Inv) : (State.trained s t).Inv := by
  unfold State.trained
  repeat' first
    | with_reducible assumption
    | with_reducible intro _
    | with_reducible apply State.setFld_inv
    | with_reducible apply State.raise_inv
    | with_reducible apply State.inv_ite
    | with_reducible apply State.inv_foldl

theorem State.retrain_inv (s : State) (h : s.Inv) : (State.retrain s).Inv := by
  unfold State.retrain
  repeat' first
    | with_reducible assumption
    | with_reducible apply State.setDramc_inv
    | with_reducible apply State.inv_ite

theorem readUeAddr_inv (r : Req) (k : ℕ) (be : ℕ) (s : State) (h : s.Inv) : (readUeAddr r k be s).Inv := by
  unfold readUeAddr
  repeat' first
    | with_reducible assumption
    | with_reducible apply State.setFld_inv
    | with_reducible apply withRead_inv
    | with_reducible apply State.setDramc_inv
    | with_reducible apply State.inv_ite

theorem runLoadSlot_inv (c : Cmd) (s : State) (h : s.Inv) : (runLoadSlot c s).Inv := by
  unfold runLoadSlot
  repeat' first
    | with_reducible assumption
    | with_reducible apply State.beginLoad_inv

theorem State.answer_inv (s : State) (h : HostData) (tag : ℕ) (c : Cmd) (b : List Byte) (result : ℕ) (hi : s.Inv) : (State.answer s h tag c b result).Inv := by
  unfold State.answer
  repeat' first
    | with_reducible assumption
    | with_reducible apply State.finishTag_inv
    | with_reducible apply State.failBuf_inv
    | with_reducible apply State.toHost_inv
    | split

theorem runGetLog_inv (h : HostData) (tag : ℕ) (c : Cmd) (s : State) (hi : s.Inv) : (runGetLog h tag c s).Inv := by
  unfold runGetLog
  repeat' first
    | with_reducible assumption
    | with_reducible apply State.answer_inv

theorem runCreateNs_inv (tag : Nat) (c : Cmd) (s : State) (h : s.Inv) : (runCreateNs tag c s).Inv := by
  have hf : ∀ st field, (s.finishTag tag st 0 0 field).Inv := fun st field => State.finishTag_inv _ _ _ _ _ _ h
  have h3 : ∀ (e : StageNs) n, ((({ s with stages := s.stages ++ [e] } : State).raise Pg.nspace Reg.NSPACE_EVENT_NS_CREATED).finishTag tag 0 n 0
      0xFFFF).Inv := fun e n => State.finishTag_inv _ _ _ _ _ _ (State.raise_inv _ _ _ h)
  have h1 : ∀ n e, (((s.setEntry n e).showVolume.raise Pg.nspace Reg.NSPACE_EVENT_NS_CREATED).finishTag tag 0 n 0 0xFFFF).Inv := fun n e =>
    State.finishTag_inv _ _ _ _ _ _ (State.raise_inv _ _ _ (State.showVolume_inv _ (State.setEntry_inv _ _ _ h)))
  unfold runCreateNs
  extract_lets type want size standing fail
  refine State.inv_ite (hf _ _) ?_
  generalize (if want = 0 then s.freeNsid else some want) = o
  cases o with
  | none => exact hf _ _
  | some n =>
    refine State.inv_ite ?_ ?_
    · generalize s.findRun _ = o
      cases o with
      | none => exact hf _ _
      | some u => exact h3 _ _
    · generalize s.media.vol.bind _ = o
      cases o with
      | none => exact hf _ _
      | some a => exact State.inv_ite (hf _ _) (h1 _ _)

theorem State.deallocate_inv (s : State) (start : ℕ) (size : ℕ) (h : s.Inv) : (State.deallocate s start size).Inv := by
  unfold State.deallocate
  repeat' first
    | with_reducible assumption
    | with_reducible intro _
    | with_reducible apply State.putDrive_inv
    | with_reducible apply State.inv_foldl
    | split

theorem runDeleteNs_inv (tag : ℕ) (c : Cmd) (s : State) (h : s.Inv) : (runDeleteNs tag c s).Inv := by
  unfold runDeleteNs
  repeat' first
    | with_reducible assumption
    | with_reducible apply State.raise_inv
    | with_reducible apply State.finishTag_inv
    | with_reducible apply State.showVolume_inv
    | with_reducible apply State.setEntry_inv
    | with_reducible apply State.deallocate_inv
    | with_reducible apply State.inv_ite
    | simp only [State.inv_mk]
    | with_reducible apply And.intro
    | with_reducible apply State.Inv.regs
    | with_reducible apply State.Inv.dram
    | with_reducible apply State.Inv.fstore
    | with_reducible apply State.Inv.cluster

theorem runRead_inv (h : HostData) (tag : ℕ) (c : Cmd) (s : State) (hi : s.Inv) : (runRead h tag c s).Inv := by
  unfold runRead
  repeat' first
    | with_reducible assumption
    | with_reducible apply State.finishTag_inv
    | with_reducible apply State.failBuf_inv
    | with_reducible apply State.toHost_inv
    | with_reducible apply State.inv_ite
    | split

theorem runIdentify_inv (h : HostData) (tag : ℕ) (c : Cmd) (s : State) (hi : s.Inv) : (runIdentify h tag c s).Inv := by
  unfold runIdentify
  repeat' first
    | with_reducible assumption
    | with_reducible apply State.answer_inv

theorem runWriteSettings_inv (h : HostData) (tag : ℕ) (c : Cmd) (s : State) (hi : s.Inv) : (runWriteSettings h tag c s).Inv := by
  unfold runWriteSettings
  repeat' first
    | with_reducible assumption
    | with_reducible apply State.finishTag_inv
    | with_reducible apply State.failBuf_inv
    | with_reducible apply State.writeSettings_inv
    | with_reducible apply State.inv_ite
    | split

theorem runWrite_inv (h : HostData) (tag : ℕ) (c : Cmd) (s : State) (hi : s.Inv) : (runWrite h tag c s).Inv := by
  unfold runWrite
  repeat' first
    | with_reducible assumption
    | with_reducible apply State.finishTag_inv
    | with_reducible apply State.failBuf_inv
    | with_reducible apply State.pokeN_inv
    | with_reducible apply runWriteSettings_inv
    | simp only [State.inv_mk]
    | with_reducible apply And.intro
    | with_reducible apply State.Inv.regs
    | with_reducible apply State.Inv.dram
    | with_reducible apply State.Inv.fstore
    | with_reducible apply State.Inv.cluster
    | split

theorem State.laneErrors_inv (s : State) (k : ℕ) (n : ℕ) (h : s.Inv) : (State.laneErrors s k n).Inv := by
  unfold State.laneErrors
  repeat' first
    | with_reducible assumption
    | with_reducible apply State.countBy_inv
    | with_reducible apply State.raise_inv
    | with_reducible apply State.inv_ite

theorem State.injectOne_inv (s : State) (k : ℕ) (h : s.Inv) : (State.injectOne s k).Inv := by
  unfold State.injectOne
  repeat' first
    | with_reducible assumption
    | with_reducible apply State.emit_inv
    | with_reducible apply State.laneErrors_inv
    | with_reducible apply State.inv_ite

theorem sendPattern_inv (s0 : State) (s : State) (k : ℕ) (h : s.Inv) : (sendPattern s0 s k).Inv := by
  unfold sendPattern
  repeat' first
    | with_reducible assumption
    | with_reducible apply State.postBc_inv
    | with_reducible apply State.inv_ite

theorem writeTestCtrl_inv (r : Req) (k : ℕ) (v : Word) (s : State) (h : s.Inv) : (writeTestCtrl r k v s).Inv := by
  unfold writeTestCtrl
  repeat' first
    | with_reducible assumption
    | with_reducible intro _
    | with_reducible apply State.setFld64_inv
    | with_reducible apply State.setFld_inv
    | with_reducible apply State.wr_inv
    | with_reducible apply State.reject_inv
    | with_reducible apply withWrite_inv
    | with_reducible apply State.injectOne_inv
    | with_reducible apply sendPattern_inv
    | with_reducible apply State.inv_ite

theorem State.checkerSync_inv (s : State) (k : ℕ) (bits : List Bool) (h : s.Inv) : (State.checkerSync s k bits).Inv := by
  unfold State.checkerSync
  repeat' first
    | with_reducible assumption
    | with_reducible apply State.setFld_inv
    | with_reducible apply State.inv_ite

theorem State.checkerRun_inv (s : State) (k : ℕ) (h : s.Inv) : (State.checkerRun s k).Inv := by
  unfold State.checkerRun
  repeat' first
    | with_reducible assumption
    | with_reducible apply State.setFld64_inv
    | with_reducible apply State.laneErrors_inv
    | with_reducible apply State.inv_ite
    | simp only [State.inv_mk]
    | with_reducible apply And.intro
    | with_reducible apply State.Inv.regs
    | with_reducible apply State.Inv.dram
    | with_reducible apply State.Inv.fstore
    | with_reducible apply State.Inv.cluster

theorem State.checkerLost_inv (s : State) (k : ℕ) (errors : ℕ) (bits : ℕ) (h : s.Inv) : (State.checkerLost s k errors bits).Inv := by
  unfold State.checkerLost
  repeat' first
    | with_reducible assumption
    | with_reducible apply State.setFld64_inv
    | with_reducible apply State.setFld_inv
    | with_reducible apply State.raise_inv
    | with_reducible apply State.laneErrors_inv
    | with_reducible apply State.inv_ite

theorem State.spoilStage_inv (s : State) (c : Cmd) (h : s.Inv) : (State.spoilStage s c).Inv := by
  unfold State.spoilStage
  repeat' first
    | with_reducible assumption
    | with_reducible apply State.pokeN_inv
    | simp only [State.inv_mk]
    | with_reducible apply And.intro
    | with_reducible apply State.Inv.regs
    | with_reducible apply State.Inv.dram
    | with_reducible apply State.Inv.fstore
    | with_reducible apply State.Inv.cluster
    | split

theorem State.condStop_inv (s : State) (uid : ℕ) (h : s.Inv) : (State.condStop s uid).Inv := by
  unfold State.condStop
  repeat' first
    | with_reducible assumption
    | with_reducible apply State.condDone_inv
    | with_reducible apply State.condFree_inv
    | with_reducible apply State.condWrite_inv
    | with_reducible apply State.setCond_inv
    | simp only [State.inv_mk]
    | with_reducible apply And.intro
    | with_reducible apply State.Inv.regs
    | with_reducible apply State.Inv.dram
    | with_reducible apply State.Inv.fstore
    | with_reducible apply State.Inv.cluster
    | split

theorem State.fwOver_inv (s : State) (h : s.Inv) : (State.fwOver s).Inv := by
  unfold State.fwOver
  repeat' first
    | with_reducible assumption
    | with_reducible apply State.fwPoint_inv
    | with_reducible apply State.inv_ite

theorem State.sensorStop_inv (s : State) (h : s.Inv) : (State.sensorStop s).Inv := by
  unfold State.sensorStop
  repeat' first
    | with_reducible assumption
    | with_reducible intro _
    | with_reducible apply State.postBc_inv
    | with_reducible apply State.inv_foldl

theorem State.showMode_inv (s : State) (h : s.Inv) : (State.showMode s).Inv := by
  unfold State.showMode
  repeat' first
    | with_reducible assumption
    | with_reducible apply State.setFld_inv

theorem State.toMode_inv (s : State) (m : Mode) (ph : Phase) (h : s.Inv) : (State.toMode s m ph).Inv := by
  unfold State.toMode
  repeat' first
    | with_reducible assumption
    | with_reducible apply State.showMode_inv
    | simp only [State.inv_mk]
    | with_reducible apply And.intro
    | with_reducible apply State.Inv.regs
    | with_reducible apply State.Inv.dram
    | with_reducible apply State.Inv.fstore
    | with_reducible apply State.Inv.cluster

theorem State.cancelStart_inv (s : State) (h : s.Inv) : (State.cancelStart s).Inv := by
  unfold State.cancelStart
  repeat' first
    | with_reducible assumption
    | with_reducible apply State.setFld_inv
    | with_reducible apply State.finish?_inv
    | with_reducible apply State.endStreaming_inv
    | with_reducible apply State.showDraw_inv
    | with_reducible apply State.showHenc_inv
    | with_reducible apply State.showRecorder_inv
    | with_reducible apply State.settleAll_inv
    | with_reducible apply State.disarm_inv
    | with_reducible apply State.fwOver_inv
    | with_reducible apply State.sensorStop_inv
    | with_reducible apply State.toMode_inv
    | with_reducible apply State.inv_foldl
    | simp only [State.inv_mk]
    | with_reducible apply And.intro
    | with_reducible apply State.Inv.regs
    | with_reducible apply State.Inv.dram
    | with_reducible apply State.Inv.fstore
    | with_reducible apply State.Inv.cluster
    | split

theorem State.stopCmd_inv (s t : State) (n : Nat) (h : s.Inv) (e : s.stopCmd n = some t) : t.Inv := by
  unfold State.stopCmd at e
  dsimp only at e
  repeat' split at e
  all_goals first
    | (cases e)
    | skip
  all_goals first
    | with_reducible exact State.finishTag_inv _ _ _ _ _ _ h
    | with_reducible exact State.finishTag_inv _ _ _ _ _ _ (State.spoilStage_inv _ _ h)
    | with_reducible exact State.condStop_inv _ _ h
    | with_reducible exact State.cancelStart_inv _ h

theorem State.sleepDram_inv (s : State) (h : s.Inv) : (State.sleepDram s).Inv := by
  unfold State.sleepDram
  repeat' first
    | with_reducible assumption
    | simp only [State.inv_mk]
    | with_reducible apply And.intro
    | with_reducible apply State.Inv.regs
    | with_reducible apply State.Inv.dram
    | with_reducible apply State.Inv.fstore
    | with_reducible apply State.Inv.cluster
    | with_reducible apply Memory.wf_filter

theorem State.beginSwitch_inv (s : State) (target : Mode) (b : Option ℕ) (cmd : ℕ) (h : s.Inv) : (State.beginSwitch s target b cmd).Inv := by
  unfold State.beginSwitch
  repeat' first
    | with_reducible assumption
    | with_reducible apply State.toMode_inv
    | simp only [State.inv_mk]
    | with_reducible apply And.intro
    | with_reducible apply State.Inv.regs
    | with_reducible apply State.Inv.dram
    | with_reducible apply State.Inv.fstore
    | with_reducible apply State.Inv.cluster

theorem State.factoryReg_inv (s : State) (a : ℕ) (h : s.Inv) : (State.factoryReg s a).Inv := by
  unfold State.factoryReg
  repeat' first
    | with_reducible assumption
    | with_reducible apply State.wr_inv
    | with_reducible apply State.inv_ite

theorem State.beginStop_inv (s : State) (cmd : Option ℕ) (h : s.Inv) : (State.beginStop s cmd).Inv := by
  unfold State.beginStop
  repeat' first
    | with_reducible assumption
    | with_reducible apply State.setFld_inv
    | with_reducible apply State.cancelGroups_inv
    | with_reducible apply State.endStreaming_inv
    | with_reducible apply noteFreed_inv
    | with_reducible apply State.disarm_inv
    | with_reducible apply State.sensorStop_inv
    | with_reducible apply State.toMode_inv
    | with_reducible apply State.inv_ite
    | with_reducible apply State.inv_foldl
    | simp only [State.inv_mk]
    | with_reducible apply And.intro
    | with_reducible apply State.Inv.regs
    | with_reducible apply State.Inv.dram
    | with_reducible apply State.Inv.fstore
    | with_reducible apply State.Inv.cluster

theorem State.beginStart_inv (s : State) (target : Mode) (cmd : Option ℕ) (h : s.Inv) : (State.beginStart s target cmd).Inv := by
  unfold State.beginStart
  repeat' first
    | with_reducible assumption
    | with_reducible apply State.toMode_inv
    | simp only [State.inv_mk]
    | with_reducible apply And.intro
    | with_reducible apply State.Inv.regs
    | with_reducible apply State.Inv.dram
    | with_reducible apply State.Inv.fstore
    | with_reducible apply State.Inv.cluster

theorem State.enterReview_inv (s : State) (cmd : Option ℕ) (h : s.Inv) : (State.enterReview s cmd).Inv := by
  unfold State.enterReview
  repeat' first
    | with_reducible assumption
    | with_reducible intro _
    | with_reducible apply State.setFld_inv
    | with_reducible apply State.finish?_inv
    | with_reducible apply State.decodersStart_inv
    | with_reducible apply State.showRecorder_inv
    | with_reducible apply State.reviewStart_inv
    | with_reducible apply State.powerAll_inv
    | with_reducible apply State.freqZero_inv
    | with_reducible apply State.toMode_inv
    | with_reducible apply State.inv_ite
    | with_reducible apply State.inv_foldl
    | simp only [State.inv_mk]
    | with_reducible apply And.intro
    | with_reducible apply State.Inv.regs
    | with_reducible apply State.Inv.dram
    | with_reducible apply State.Inv.fstore
    | with_reducible apply State.Inv.cluster

theorem State.outputsStop_inv (s : State) (h : s.Inv) : (State.outputsStop s).Inv := by
  unfold State.outputsStop
  repeat' first
    | with_reducible assumption
    | with_reducible intro _
    | with_reducible apply State.audStop_inv
    | with_reducible apply State.engineStop_inv
    | with_reducible apply State.flowDrop_inv
    | with_reducible apply State.setEthLink_inv
    | with_reducible apply State.inv_ite
    | with_reducible apply State.inv_foldl
    | simp only [State.inv_mk]
    | with_reducible apply And.intro
    | with_reducible apply State.Inv.regs
    | with_reducible apply State.Inv.dram
    | with_reducible apply State.Inv.fstore
    | with_reducible apply State.Inv.cluster

theorem State.enterSleep_inv (s : State) (cmd : Option ℕ) (h : s.Inv) : (State.enterSleep s cmd).Inv := by
  unfold State.enterSleep
  repeat' first
    | with_reducible assumption
    | with_reducible intro _
    | with_reducible apply State.finish?_inv
    | with_reducible apply State.setPort_inv
    | with_reducible apply State.showPort_inv
    | with_reducible apply State.fstoreClear_inv
    | with_reducible apply State.portDown_inv
    | with_reducible apply State.unmount_inv
    | with_reducible apply State.putDrive_inv
    | with_reducible apply State.goDown_inv
    | with_reducible apply State.setPwr_inv
    | with_reducible apply State.dramSleep_inv
    | with_reducible apply State.sleepDram_inv
    | with_reducible apply State.outputsStop_inv
    | with_reducible apply State.toMode_inv
    | with_reducible apply State.inv_ite
    | with_reducible apply State.inv_foldl
    | simp only [State.inv_mk]
    | with_reducible apply And.intro
    | with_reducible apply State.Inv.regs
    | with_reducible apply State.Inv.dram
    | with_reducible apply State.Inv.fstore
    | with_reducible apply State.Inv.cluster

theorem State.outputsStart_inv (s : State) (h : s.Inv) : (State.outputsStart s).Inv := by
  unfold State.outputsStart
  repeat' first
    | with_reducible assumption
    | with_reducible intro _
    | with_reducible apply State.raise_inv
    | with_reducible apply State.audStart_inv
    | with_reducible apply State.engineStart_inv
    | with_reducible apply State.flowStart_inv
    | with_reducible apply State.inv_ite
    | with_reducible apply State.inv_foldl

theorem State.dropCommits_inv (s : State) (h : s.Inv) : (State.dropCommits s).Inv := by
  unfold State.dropCommits
  repeat' first
    | with_reducible assumption
    | with_reducible intro _
    | with_reducible apply State.setFld_inv
    | with_reducible apply State.inv_ite
    | with_reducible apply State.inv_foldl
    | simp only [State.inv_mk]
    | with_reducible apply And.intro
    | with_reducible apply State.Inv.regs
    | with_reducible apply State.Inv.dram
    | with_reducible apply State.Inv.fstore
    | with_reducible apply State.Inv.cluster

theorem State.toStandby_inv (s : State) (cmd : Option ℕ) (h : s.Inv) : (State.toStandby s cmd).Inv := by
  unfold State.toStandby
  repeat' first
    | with_reducible assumption
    | with_reducible apply State.setFld_inv
    | with_reducible apply State.finish?_inv
    | with_reducible apply State.showRecorder_inv
    | with_reducible apply State.settleAll_inv
    | with_reducible apply State.toMode_inv

theorem State.leaveService_inv (s : State) (cmd : Option ℕ) (h : s.Inv) : (State.leaveService s cmd).Inv := by
  unfold State.leaveService
  repeat' first
    | with_reducible assumption
    | with_reducible intro _
    | with_reducible apply State.setFld_inv
    | with_reducible apply State.wr_inv
    | with_reducible apply State.setHq_inv
    | with_reducible apply State.gangChanged_inv
    | with_reducible apply driveLanes_inv
    | with_reducible apply noteFreed_inv
    | with_reducible apply State.placeSlots_inv
    | with_reducible apply State.restore_inv
    | with_reducible apply State.supplyStep_inv
    | with_reducible apply sendPattern_inv
    | with_reducible apply State.factoryReg_inv
    | with_reducible apply State.outputsStart_inv
    | with_reducible apply State.toMode_inv
    | with_reducible apply State.dropCommits_inv
    | with_reducible apply State.toStandby_inv
    | with_reducible apply State.inv_ite
    | with_reducible apply State.inv_foldl
    | simp only [State.inv_mk]
    | with_reducible apply And.intro
    | with_reducible apply State.Inv.regs
    | with_reducible apply State.Inv.dram
    | with_reducible apply State.Inv.fstore
    | with_reducible apply State.Inv.cluster

theorem State.enterService_inv (s : State) (cmd : Option ℕ) (h : s.Inv) : (State.enterService s cmd).Inv := by
  unfold State.enterService
  repeat' first
    | with_reducible assumption
    | with_reducible apply State.finish?_inv
    | with_reducible apply State.settleAll_inv
    | with_reducible apply State.outputsStop_inv
    | with_reducible apply State.toMode_inv

theorem State.leaveReview_inv (s : State) (cmd : Option ℕ) (h : s.Inv) : (State.leaveReview s cmd).Inv := by
  unfold State.leaveReview
  repeat' first
    | with_reducible assumption
    | with_reducible apply State.cancelGroups_inv
    | with_reducible apply noteFreed_inv
    | with_reducible apply State.reviewStop_inv
    | with_reducible apply State.dropSources_inv
    | with_reducible apply State.toMode_inv
    | with_reducible apply State.toStandby_inv
    | simp only [State.inv_mk]
    | with_reducible apply And.intro
    | with_reducible apply State.Inv.regs
    | with_reducible apply State.Inv.dram
    | with_reducible apply State.Inv.fstore
    | with_reducible apply State.Inv.cluster

theorem State.runMode_inv (s : State) (target : Mode) (b : Option ℕ) (cmd : ℕ) (h : s.Inv) : (State.runMode s target b cmd).Inv := by
  unfold State.runMode
  repeat' first
    | with_reducible assumption
    | with_reducible apply State.beginSwitch_inv
    | with_reducible apply State.beginStop_inv
    | with_reducible apply State.beginStart_inv
    | with_reducible apply State.enterReview_inv
    | with_reducible apply State.enterSleep_inv
    | with_reducible apply State.leaveService_inv
    | with_reducible apply State.enterService_inv
    | with_reducible apply State.leaveReview_inv
    | split

theorem State.captureDone_inv (s : State) (h : s.Inv) : (State.captureDone s).Inv := by
  unfold State.captureDone
  repeat' first
    | with_reducible assumption
    | with_reducible apply State.setFld_inv
    | with_reducible apply State.cancelGroups_inv
    | with_reducible apply noteFreed_inv
    | with_reducible apply State.showDraw_inv
    | with_reducible apply State.showHenc_inv
    | with_reducible apply State.beginClose_inv
    | with_reducible apply State.abandonReel_inv
    | with_reducible apply State.dropSources_inv
    | with_reducible apply State.fwOver_inv
    | with_reducible apply State.toMode_inv
    | with_reducible apply State.toStandby_inv
    | simp only [State.inv_mk]
    | with_reducible apply And.intro
    | with_reducible apply State.Inv.regs
    | with_reducible apply State.Inv.dram
    | with_reducible apply State.Inv.fstore
    | with_reducible apply State.Inv.cluster
    | split

theorem State.wake_inv (s : State) (h : s.Inv) : (State.wake s).Inv := by
  unfold State.wake
  repeat' first
    | with_reducible assumption
    | with_reducible intro _
    | with_reducible apply State.mediaStart_inv
    | with_reducible apply State.bootFw_inv
    | with_reducible apply State.settleAll_inv
    | with_reducible apply State.goUp_inv
    | with_reducible apply State.collRestart_inv
    | with_reducible apply State.dramWake_inv
    | with_reducible apply State.outputsStart_inv
    | with_reducible apply State.toMode_inv
    | with_reducible apply State.inv_ite
    | with_reducible apply State.inv_foldl

theorem State.armTake_inv (s : State) (target : Mode) (cmd : Option ℕ) (h : s.Inv) : (State.armTake s target cmd).Inv := by
  unfold State.armTake
  repeat' first
    | with_reducible assumption
    | with_reducible intro _
    | with_reducible apply State.copyShadows_inv
    | with_reducible apply State.linkTake_inv
    | with_reducible apply State.ingressStart_inv
    | with_reducible apply noteFreed_inv
    | with_reducible apply State.checkSlots_inv
    | with_reducible apply State.feStart_inv
    | with_reducible apply State.drawStart_inv
    | with_reducible apply State.splitStart_inv
    | with_reducible apply State.hencStart_inv
    | with_reducible apply State.autoSave_inv
    | with_reducible apply State.showRecorder_inv
    | with_reducible apply State.recorderStart_inv
    | with_reducible apply State.powerAll_inv
    | with_reducible apply State.loupeTake_inv
    | with_reducible apply State.trigStart_inv
    | with_reducible apply State.armTriggers_inv
    | with_reducible apply State.freqZero_inv
    | with_reducible apply State.inv_foldl
    | simp only [State.inv_mk]
    | with_reducible apply And.intro
    | with_reducible apply State.Inv.regs
    | with_reducible apply State.Inv.dram
    | with_reducible apply State.Inv.fstore
    | with_reducible apply State.Inv.cluster

theorem State.sendReport_inv (s : State) (cmd : Option ℕ) (b : List Byte) (h : s.Inv) : (State.sendReport s cmd b).Inv := by
  unfold State.sendReport
  repeat' first
    | with_reducible assumption
    | with_reducible apply State.setHq_inv
    | with_reducible apply State.toHost_inv
    | with_reducible apply State.pokeN_inv
    | split
    | dsimp only

theorem State.refuseStart_inv (s : State) (cmd : Option ℕ) (status : ℕ) (result : ℕ) (detail : ℕ) (h : s.Inv) : (State.refuseStart s cmd status result detail).Inv := by
  unfold State.refuseStart
  repeat' first
    | with_reducible assumption
    | with_reducible apply State.finish?_inv
    | with_reducible apply State.fwOver_inv
    | with_reducible apply State.toMode_inv
    | simp only [State.inv_mk]
    | with_reducible apply And.intro
    | with_reducible apply State.Inv.regs
    | with_reducible apply State.Inv.dram
    | with_reducible apply State.Inv.fstore
    | with_reducible apply State.Inv.cluster

theorem State.budgetDone_inv (s : State) (h : s.Inv) : (State.budgetDone s).Inv := by
  unfold State.budgetDone
  repeat' first
    | with_reducible assumption
    | with_reducible apply State.raiseAll_inv
    | with_reducible apply State.armTake_inv
    | with_reducible apply State.sendReport_inv
    | with_reducible apply State.refuseStart_inv
    | split
    | dsimp only

theorem State.reelClose_inv (s : State) (h : s.Inv) : (State.reelClose s).Inv := by
  unfold State.reelClose
  repeat' first
    | with_reducible assumption
    | with_reducible apply State.finish?_inv
    | with_reducible apply State.endReel_inv
    | with_reducible apply State.showRecorder_inv
    | with_reducible apply State.toMode_inv
    | with_reducible apply State.toStandby_inv
    | split

theorem runAbort_inv (tag : Nat) (c : Cmd) (s : State) (h : s.Inv) : (runAbort tag c s).Inv := by
  unfold runAbort
  dsimp only
  split
  · exact State.finishTag_inv _ _ _ _ _ _ h
  · split
    · rename_i heq
      exact State.finishTag_inv _ _ _ _ _ _ (State.stopCmd_inv _ _ _ h heq)
    · exact State.finishTag_inv _ _ _ _ _ _ h

theorem State.takeBegins_inv (s : State) (h : s.Inv) : (State.takeBegins s).Inv := by
  unfold State.takeBegins
  repeat' first
    | with_reducible assumption
    | with_reducible apply State.setFld_inv
    | with_reducible apply State.finish?_inv
    | with_reducible apply State.showRecorder_inv
    | with_reducible apply State.openReel_inv
    | with_reducible apply State.toMode_inv
    | split

theorem State.recordBoundary_inv (s : State) (n : ℕ) (h : s.Inv) : (State.recordBoundary s n).Inv := by
  unfold State.recordBoundary
  repeat' first
    | with_reducible assumption
    | with_reducible apply State.finish?_inv
    | with_reducible apply State.holdPreroll_inv
    | with_reducible apply State.showRecorder_inv
    | with_reducible apply State.openReel_inv
    | with_reducible apply State.toMode_inv
    | simp only [State.inv_mk]
    | with_reducible apply And.intro
    | with_reducible apply State.Inv.regs
    | with_reducible apply State.Inv.dram
    | with_reducible apply State.Inv.fstore
    | with_reducible apply State.Inv.cluster
    | split

theorem State.liveBoundary_inv (s : State) (n : ℕ) (h : s.Inv) : (State.liveBoundary s n).Inv := by
  unfold State.liveBoundary
  repeat' first
    | with_reducible assumption
    | with_reducible apply State.beginClose_inv
    | with_reducible apply State.reelClose_inv
    | simp only [State.inv_mk]
    | with_reducible apply And.intro
    | with_reducible apply State.Inv.regs
    | with_reducible apply State.Inv.dram
    | with_reducible apply State.Inv.fstore
    | with_reducible apply State.Inv.cluster
    | split

theorem runSetMode_inv (h : HostData) (tag : ℕ) (c : Cmd) (s : State) (hi : s.Inv) : (runSetMode h tag c s).Inv := by
  unfold runSetMode
  repeat' first
    | with_reducible assumption
    | with_reducible apply State.raise_inv
    | with_reducible apply State.putCmd_inv
    | with_reducible apply State.finishTag_inv
    | with_reducible apply State.failBuf_inv
    | with_reducible apply State.runMode_inv
    | with_reducible apply State.cancelStart_inv
    | with_reducible apply State.inv_ite
    | split

theorem State.setGeneration_inv (s : State) (g : ℕ) (h : s.Inv) : (State.setGeneration s g).Inv := by
  unfold State.setGeneration
  repeat' first
    | with_reducible assumption
    | with_reducible apply State.setOn_inv
    | with_reducible apply State.setFld_inv
    | with_reducible apply State.raise_inv
    | with_reducible apply State.requestSave_inv

theorem State.startLease_inv (s : State) (l : ℕ) (h : s.Inv) : (State.startLease s l).Inv := by
  unfold State.startLease
  repeat' first
    | with_reducible assumption
    | with_reducible apply State.setFld_inv
    | simp only [State.inv_mk]
    | with_reducible apply And.intro
    | with_reducible apply State.Inv.regs
    | with_reducible apply State.Inv.dram
    | with_reducible apply State.Inv.fstore
    | with_reducible apply State.Inv.cluster

theorem State.setFenced_inv (s : State) (b : Bool) (h : s.Inv) : (State.setFenced s b).Inv := by
  unfold State.setFenced
  repeat' first
    | with_reducible assumption
    | with_reducible apply State.setOn_inv

theorem State.readmit_inv (s : State) (g : ℕ) (l : ℕ) (h : s.Inv) : (State.readmit s g l).Inv := by
  unfold State.readmit
  repeat' first
    | with_reducible assumption
    | with_reducible intro _
    | with_reducible apply State.raise_inv
    | with_reducible apply State.recoverAll_inv
    | with_reducible apply State.flowDrop_inv
    | with_reducible apply State.setGeneration_inv
    | with_reducible apply State.startLease_inv
    | with_reducible apply State.setFenced_inv
    | with_reducible apply State.inv_ite
    | with_reducible apply State.inv_foldl

theorem runArrayLease_inv (tag : ℕ) (c : Cmd) (s : State) (h : s.Inv) : (runArrayLease tag c s).Inv := by
  unfold runArrayLease
  repeat' first
    | with_reducible assumption
    | with_reducible apply State.finishTag_inv
    | with_reducible apply State.setGeneration_inv
    | with_reducible apply State.readmit_inv
    | with_reducible apply State.startLease_inv
    | with_reducible apply State.inv_ite

theorem State.fence_inv (s : State) (h : s.Inv) : (State.fence s).Inv := by
  unfold State.fence
  repeat' first
    | with_reducible assumption
    | with_reducible apply State.setFld64_inv
    | with_reducible apply State.count_inv
    | with_reducible apply State.raise_inv
    | with_reducible apply State.setFenced_inv
    | simp only [State.inv_mk]
    | with_reducible apply And.intro
    | with_reducible apply State.Inv.regs
    | with_reducible apply State.Inv.dram
    | with_reducible apply State.Inv.fstore
    | with_reducible apply State.Inv.cluster

theorem State.frameCommits_inv (s : State) (n : ℕ) (h : s.Inv) : (State.frameCommits s n).Inv := by
  unfold State.frameCommits
  repeat' first
    | with_reducible assumption
    | with_reducible intro _
    | with_reducible apply State.sendFwr_inv
    | with_reducible apply State.frameValues_inv
    | with_reducible apply State.inv_foldl

theorem State.savePeriod_inv (s : State) (n : ℕ) (h : s.Inv) : (State.savePeriod s n).Inv := by
  unfold State.savePeriod
  repeat' first
    | with_reducible assumption
    | with_reducible apply State.autoSave_inv
    | with_reducible apply State.inv_ite

theorem State.startFrame_inv (s : State) (k : ℕ) (n : ℕ) (h : s.Inv) : (State.startFrame s k n).Inv := by
  unfold State.startFrame
  repeat' first
    | with_reducible assumption
    | with_reducible intro _
    | with_reducible apply State.applyFallback_inv
    | with_reducible apply State.countLoss_inv
    | with_reducible apply State.openNew_inv
    | with_reducible apply State.setIngress_inv
    | with_reducible apply State.setFrameNow_inv
    | with_reducible apply State.reassign_inv
    | with_reducible apply State.adopt_inv
    | with_reducible apply State.awaitFrame_inv
    | with_reducible apply State.fwPoint_inv
    | with_reducible apply State.relockAll_inv
    | with_reducible apply State.takeBegins_inv
    | with_reducible apply State.recordBoundary_inv
    | with_reducible apply State.liveBoundary_inv
    | with_reducible apply State.frameCommits_inv
    | with_reducible apply State.savePeriod_inv
    | with_reducible apply State.inv_ite
    | with_reducible apply State.inv_foldl
    | simp only [State.inv_mk]
    | with_reducible apply And.intro
    | with_reducible apply State.Inv.regs
    | with_reducible apply State.Inv.dram
    | with_reducible apply State.Inv.fstore
    | with_reducible apply State.Inv.cluster

theorem State.frameStart_inv (s : State) (k : ℕ) (h : s.Inv) : (State.frameStart s k).Inv := by
  unfold State.frameStart
  repeat' first
    | with_reducible assumption
    | with_reducible apply State.pairDiscard_inv
    | with_reducible apply State.closeFrame_inv
    | with_reducible apply State.stopDiscard_inv
    | with_reducible apply State.takeHalf_inv
    | with_reducible apply State.startFrame_inv
    | split

theorem State.countBoot_inv (s : State) (h : s.Inv) : (State.countBoot s).Inv := by
  unfold State.countBoot
  repeat' first
    | with_reducible assumption
    | with_reducible apply State.setFld64_inv

theorem State.porRelease_inv (s : State) (straps : ℕ) (h : s.Inv) : (State.porRelease s straps).Inv := by
  unfold State.porRelease
  repeat' first
    | with_reducible assumption
    | with_reducible apply State.setFld_inv
    | with_reducible apply State.countBoot_inv
    | with_reducible apply State.inv_ite
    | simp only [State.inv_mk]
    | with_reducible apply And.intro
    | with_reducible apply State.Inv.regs
    | with_reducible apply State.Inv.dram
    | with_reducible apply State.Inv.fstore
    | with_reducible apply State.Inv.cluster

theorem State.latchOrder_inv (s : State) (h : s.Inv) : (State.latchOrder s).Inv := by
  unfold State.latchOrder
  repeat' first
    | with_reducible assumption
    | with_reducible apply State.setFld_inv

theorem State.bootTake_inv (s : State) (h : s.Inv) : (State.bootTake s).Inv := by
  unfold State.bootTake
  repeat' first
    | with_reducible assumption
    | with_reducible apply State.beginStart_inv
    | with_reducible apply State.inv_ite

theorem State.fenceAtBoot_inv (s : State) (h : s.Inv) : (State.fenceAtBoot s).Inv := by
  unfold State.fenceAtBoot
  repeat' first
    | with_reducible assumption
    | with_reducible apply State.setFld_inv
    | with_reducible apply State.inv_ite

theorem State.restoreDone_inv (s : State) (h : s.Inv) : (State.restoreDone s).Inv := by
  unfold State.restoreDone
  repeat' first
    | with_reducible assumption
    | with_reducible apply State.placeSlots_inv
    | with_reducible apply State.restore_inv
    | with_reducible apply State.mediaStart_inv
    | with_reducible apply State.showRecorder_inv
    | with_reducible apply State.bootFw_inv
    | with_reducible apply State.supplyStep_inv
    | with_reducible apply State.settleAll_inv
    | with_reducible apply State.outputsStart_inv
    | with_reducible apply State.toMode_inv
    | with_reducible apply State.latchOrder_inv
    | with_reducible apply State.bootTake_inv
    | with_reducible apply State.fenceAtBoot_inv
    | with_reducible apply State.inv_ite

theorem State.toReset_inv (s : State) (cause : ℕ) (ph : Phase) (hold : Bool) (h : s.Inv) : (State.toReset s cause ph hold).Inv := by
  unfold State.toReset
  repeat' first
    | with_reducible assumption
    | with_reducible apply State.setFld_inv
    | simp only [State.inv_mk]
    | with_reducible apply And.intro
    | with_reducible apply State.Inv.regs
    | with_reducible apply Sparse.wf_filter
    | with_reducible exact Memory.wf_nil

theorem writeResetCtrl_inv (r : Req) (v : Word) (s : State) (h : s.Inv) : (writeResetCtrl r v s).Inv := by
  unfold writeResetCtrl
  repeat' first
    | with_reducible assumption
    | with_reducible intro _
    | with_reducible apply withWrite_inv
    | with_reducible apply State.toReset_inv
    | with_reducible apply State.inv_ite

theorem State.alarm_inv (s : State) (h : s.Inv) : (State.alarm s).Inv := by
  unfold State.alarm
  repeat' first
    | with_reducible assumption
    | with_reducible apply State.setFld_inv
    | with_reducible apply State.raise_inv
    | with_reducible apply State.wake_inv
    | with_reducible apply State.inv_ite

theorem State.watchdog_inv (s : State) (h : s.Inv) : (State.watchdog s).Inv := by
  unfold State.watchdog
  repeat' first
    | with_reducible assumption
    | with_reducible apply State.setFw_inv
    | with_reducible apply State.doFailover_inv
    | with_reducible apply State.toReset_inv
    | with_reducible apply State.inv_ite

theorem State.thermalTrip_inv (s : State) (h : s.Inv) : (State.thermalTrip s).Inv := by
  unfold State.thermalTrip
  repeat' first
    | with_reducible assumption
    | with_reducible apply State.toReset_inv

theorem State.flushNow_inv (s : State) (h : s.Inv) : (State.flushNow s).Inv := by
  unfold State.flushNow
  repeat' first
    | with_reducible assumption
    | with_reducible apply State.pushFlush_inv
    | with_reducible apply State.beginFlush_inv
    | with_reducible apply State.inv_ite

theorem State.setSfld_inv (s : State) (p : ℕ) (f : Fld) (v : ℤ) (h : s.Inv) : (State.setSfld s p f v).Inv := by
  unfold State.setSfld
  repeat' first
    | with_reducible assumption
    | with_reducible apply State.setFld_inv

theorem State.setTherm_inv (s : State) (t : ThermSt) (h : s.Inv) : (State.setTherm s t).Inv := by
  unfold State.setTherm
  repeat' first
    | with_reducible assumption
    | simp only [State.inv_mk]
    | with_reducible apply And.intro
    | with_reducible apply State.Inv.regs
    | with_reducible apply State.Inv.dram
    | with_reducible apply State.Inv.fstore
    | with_reducible apply State.Inv.cluster

theorem State.riseCheck_inv (s : State) (h : s.Inv) : (State.riseCheck s).Inv := by
  unfold State.riseCheck
  repeat' first
    | with_reducible assumption
    | with_reducible apply State.raiseIf_inv
    | with_reducible apply State.setTherm_inv

theorem State.countAbove_inv (s : State) (h : s.Inv) : (State.countAbove s).Inv := by
  unfold State.countAbove
  repeat' first
    | with_reducible assumption
    | with_reducible apply State.count_inv
    | with_reducible apply State.setTherm_inv
    | with_reducible apply State.inv_ite

theorem State.orderlyStop_inv (s : State) (h : s.Inv) : (State.orderlyStop s).Inv := by
  unfold State.orderlyStop
  repeat' first
    | with_reducible assumption
    | with_reducible apply State.count_inv
    | with_reducible apply State.setFld_inv
    | with_reducible apply State.raise_inv
    | with_reducible apply State.beginStop_inv
    | with_reducible apply State.leaveService_inv
    | with_reducible apply State.leaveReview_inv
    | split

theorem State.stopDecision_inv (s : State) (hot : Bool) (h : s.Inv) : (State.stopDecision s hot).Inv := by
  unfold State.stopDecision
  repeat' first
    | with_reducible assumption
    | with_reducible apply State.raise_inv
    | with_reducible apply State.flushNow_inv
    | with_reducible apply State.orderlyStop_inv
    | with_reducible apply State.inv_ite
    | simp only [State.inv_mk]
    | with_reducible apply And.intro
    | with_reducible apply State.Inv.regs
    | with_reducible apply State.Inv.dram
    | with_reducible apply State.Inv.fstore
    | with_reducible apply State.Inv.cluster

theorem State.setLevel_inv (s : State) (h : s.Inv) : (State.setLevel s).Inv := by
  unfold State.setLevel
  repeat' first
    | with_reducible assumption
    | with_reducible apply State.setFld_inv
    | with_reducible apply State.raise_inv
    | with_reducible apply State.raiseIf_inv
    | with_reducible apply State.stopDecision_inv
    | with_reducible apply State.inv_ite

theorem State.crossCheck_inv (s : State) (t : List ℤ) (k : ℕ) (h : s.Inv) : (State.crossCheck s t k).Inv := by
  unfold State.crossCheck
  repeat' first
    | with_reducible assumption
    | with_reducible apply State.setFld_inv
    | with_reducible apply State.raise_inv
    | with_reducible apply State.setTherm_inv
    | with_reducible apply State.inv_ite

theorem State.showTj_inv (s : State) (tj : ℤ) (h : s.Inv) : (State.showTj s tj).Inv := by
  unfold State.showTj
  repeat' first
    | with_reducible assumption
    | with_reducible apply State.setOn_inv
    | with_reducible apply State.setSfld_inv
    | with_reducible apply State.setTherm_inv
    | simp only [State.inv_mk]
    | with_reducible apply And.intro
    | with_reducible apply State.Inv.regs
    | with_reducible apply State.Inv.dram
    | with_reducible apply State.Inv.fstore
    | with_reducible apply State.Inv.cluster

theorem State.thermSample_inv (s : State) (sensors : List ℤ) (h : s.Inv) : (State.thermSample s sensors).Inv := by
  unfold State.thermSample
  repeat' first
    | with_reducible assumption
    | with_reducible intro _
    | with_reducible apply State.thermalTrip_inv
    | with_reducible apply State.setSfld_inv
    | with_reducible apply State.riseCheck_inv
    | with_reducible apply State.countAbove_inv
    | with_reducible apply State.setLevel_inv
    | with_reducible apply State.crossCheck_inv
    | with_reducible apply State.showTj_inv
    | with_reducible apply State.inv_ite
    | with_reducible apply State.inv_foldl

theorem State.fabWrite_inv (s : State) (a : ℕ) (l : List Byte) (h : s.Inv) : (State.fabWrite s a l).Inv := by
  unfold State.fabWrite
  repeat' first
    | with_reducible assumption
    | with_reducible apply State.pokeN_inv
    | with_reducible apply State.inv_ite
    | simp only [State.inv_mk]
    | with_reducible apply And.intro
    | with_reducible apply State.Inv.regs
    | with_reducible apply State.Inv.dram
    | with_reducible apply State.Inv.fstore
    | with_reducible apply State.Inv.cluster
    | with_reducible apply Memory.wf_setN

theorem State.writeBack_inv (s : State) (c : ℕ) (d : RelayDesc) (bit : ℕ) (h : s.Inv) : (State.writeBack s c d bit).Inv := by
  unfold State.writeBack
  repeat' first
    | with_reducible assumption
    | with_reducible apply State.fabWrite_inv

theorem State.setCh_inv (s : State) (c : ℕ) (v : ℕ) (h : s.Inv) : (State.setCh s c v).Inv := by
  unfold State.setCh
  repeat' first
    | with_reducible assumption
    | with_reducible apply State.setFld_inv
    | with_reducible apply State.settle_inv
    | with_reducible apply State.inv_ite

theorem State.relayClear_inv (s : State) (h : s.Inv) : (State.relayClear s).Inv := by
  unfold State.relayClear
  repeat' first
    | with_reducible assumption
    | with_reducible intro _
    | with_reducible apply State.setFld_inv
    | with_reducible apply State.setCh_inv
    | with_reducible apply State.inv_ite
    | with_reducible apply State.inv_foldl

theorem State.setRelay_inv (s : State) (r : RelaySt) (h : s.Inv) (hr : Memory.wf r.cluster = true) : (s.setRelay r).Inv :=
  ⟨h.regs, h.dram, h.fstore, hr⟩

theorem State.copyBytes_inv (s : State) (d : RelayDesc) (n : ℕ) (h : s.Inv) : (State.copyBytes s d n).Inv := by
  unfold State.copyBytes
  repeat' first
    | with_reducible assumption
    | with_reducible apply State.fabWrite_inv
    | with_reducible apply State.inv_ite

theorem State.putDesc_inv (s : State) (c : Nat) (d : Option RelayDesc) (h : s.Inv) : (s.putDesc c d).Inv :=
  State.setRelay_inv _ _ h h.cluster

theorem State.chAbort_inv (s : State) (c : ℕ) (h : s.Inv) : (State.chAbort s c).Inv := by
  unfold State.chAbort
  repeat' first
    | with_reducible assumption
    | with_reducible apply State.setFld_inv
    | with_reducible apply State.copyBytes_inv
    | with_reducible apply State.putDesc_inv
    | with_reducible apply State.setCh_inv
    | simp only [State.inv_mk]
    | with_reducible apply And.intro
    | with_reducible apply State.Inv.regs
    | with_reducible apply State.Inv.dram
    | with_reducible apply State.Inv.fstore
    | with_reducible apply State.Inv.cluster
    | split

theorem State.setCur_inv (s : State) (c : ℕ) (a : ℕ) (h : s.Inv) : (State.setCur s c a).Inv := by
  unfold State.setCur
  repeat' first
    | with_reducible assumption
    | with_reducible apply State.setFld_inv

theorem State.chStart_inv (s : State) (c : ℕ) (h : s.Inv) : (State.chStart s c).Inv := by
  unfold State.chStart
  repeat' first
    | with_reducible assumption
    | with_reducible apply State.setFld_inv
    | with_reducible apply State.reject_inv
    | with_reducible apply State.setCur_inv
    | with_reducible apply State.putDesc_inv
    | with_reducible apply State.setCh_inv
    | with_reducible apply State.inv_ite

theorem writeChCtrl_inv (r : Req) (c : ℕ) (v : Word) (s : State) (h : s.Inv) : (writeChCtrl r c v s).Inv := by
  unfold writeChCtrl
  repeat' first
    | with_reducible assumption
    | with_reducible intro _
    | with_reducible apply withWrite_inv
    | with_reducible apply State.chAbort_inv
    | with_reducible apply State.chStart_inv
    | with_reducible apply State.inv_ite

theorem State.spoil_inv (s : State) (c : ℕ) (h : s.Inv) : (State.spoil s c).Inv := by
  unfold State.spoil
  repeat' first
    | with_reducible assumption
    | with_reducible apply State.fabWrite_inv
    | simp only [State.inv_mk]
    | with_reducible apply And.intro
    | with_reducible apply State.Inv.regs
    | with_reducible apply State.Inv.dram
    | with_reducible apply State.Inv.fstore
    | with_reducible apply State.Inv.cluster
    | split

theorem State.relayError_inv (s : State) (addr : ℕ) (kind : ℕ) (write : Bool) (h : s.Inv) : (State.relayError s addr kind write).Inv := by
  unfold State.relayError
  repeat' first
    | with_reducible assumption
    | with_reducible intro _
    | with_reducible apply State.setFld64_inv
    | with_reducible apply State.setOn_inv
    | with_reducible apply State.setFld_inv
    | with_reducible apply State.raise_inv
    | with_reducible apply State.spoil_inv
    | with_reducible apply State.putDesc_inv
    | with_reducible apply State.setCh_inv
    | with_reducible apply State.inv_ite
    | with_reducible apply State.inv_foldl

theorem writeRelayCtrl_inv (r : Req) (v : Word) (s : State) (h : s.Inv) : (writeRelayCtrl r v s).Inv := by
  unfold writeRelayCtrl
  repeat' first
    | with_reducible assumption
    | with_reducible intro _
    | with_reducible apply withWrite_inv
    | with_reducible apply plainStore_inv
    | with_reducible apply State.relayClear_inv
    | with_reducible apply State.inv_ite

theorem State.descError_inv (s : State) (c : ℕ) (d : RelayDesc) (h : s.Inv) : (State.descError s c d).Inv := by
  unfold State.descError
  repeat' first
    | with_reducible assumption
    | with_reducible apply State.raise_inv
    | with_reducible apply State.writeBack_inv
    | with_reducible apply State.putDesc_inv
    | with_reducible apply State.setCh_inv

theorem State.descFetch_inv (s : State) (c : ℕ) (h : s.Inv) : (State.descFetch s c).Inv := by
  unfold State.descFetch
  repeat' first
    | with_reducible assumption
    | with_reducible apply State.raise_inv
    | with_reducible apply State.putDesc_inv
    | with_reducible apply State.descError_inv
    | with_reducible apply State.setCh_inv
    | with_reducible apply State.inv_ite

theorem State.descEnd_inv (s : State) (c : ℕ) (d : RelayDesc) (h : s.Inv) : (State.descEnd s c d).Inv := by
  unfold State.descEnd
  repeat' first
    | with_reducible assumption
    | with_reducible apply State.countBy_inv
    | with_reducible apply State.count_inv
    | with_reducible apply State.raiseIf_inv
    | with_reducible apply State.writeBack_inv
    | with_reducible apply State.setCur_inv
    | with_reducible apply State.putDesc_inv
    | with_reducible apply State.setCh_inv
    | with_reducible apply State.inv_ite

theorem State.configWrite_inv (s : State) (fn : Fn) (o : ℕ) (v : ℕ) (h : s.Inv) : (State.configWrite s fn o v).Inv := by
  unfold State.configWrite
  repeat' first
    | with_reducible assumption
    | with_reducible apply State.setPciFn_inv
    | with_reducible apply State.teardown_inv
    | with_reducible apply State.resetPci_inv
    | with_reducible apply State.masterOff_inv
    | with_reducible apply State.inv_ite

theorem State.pciRead_inv (s : State) (fn : Fn) (off : Nat) (h : s.Inv) : (s.pciRead fn off).Inv := by
  unfold State.pciRead
  extract_lets answer
  generalize pciPlace off = x
  cases x <;> exact State.inv_ite (State.emit_inv _ _ h) h

theorem State.pciWrite_inv (s : State) (fn : Fn) (off be : Nat) (v : Word) (h : s.Inv) : (s.pciWrite fn off be v).Inv := by
  unfold State.pciWrite
  generalize pciPlace off = x
  cases x with
  | table i => exact State.inv_ite (State.setMsixWord_inv _ _ _ _ h) h
  | config o => exact State.inv_ite (State.configWrite_inv _ _ _ _ h) h
  | pending i => exact h
  | hole => exact h

theorem State.beforeRead_inv (s : State) (p : ℕ) (o : ℕ) (h : s.Inv) : (State.beforeRead s p o).Inv := by
  unfold State.beforeRead
  repeat' first
    | with_reducible assumption
    | with_reducible apply State.adaptLane_inv
    | with_reducible apply State.checkerRun_inv
    | split

theorem readDbErr_inv (r : Req) (be : ℕ) (s : State) (h : s.Inv) : (readDbErr r be s).Inv := by
  unfold readDbErr
  repeat' first
    | with_reducible assumption
    | with_reducible apply withRead_inv
    | with_reducible apply State.setHq_inv
    | with_reducible apply State.inv_ite

theorem readAt_inv (r : Req) (p : ℕ) (o : ℕ) (be : ℕ) (s : State) (h : s.Inv) : (readAt r p o be s).Inv := by
  unfold readAt
  repeat' first
    | with_reducible assumption
    | with_reducible apply withRead_inv
    | with_reducible apply readEvent_inv
    | with_reducible apply readBusErr_inv
    | with_reducible apply readUeAddr_inv
    | with_reducible apply State.beforeRead_inv
    | with_reducible apply readDbErr_inv
    | with_reducible apply State.inv_ite
    | simp only [State.inv_mk]
    | with_reducible apply And.intro
    | with_reducible apply State.Inv.regs
    | with_reducible apply State.Inv.dram
    | with_reducible apply State.Inv.fstore
    | with_reducible apply State.Inv.cluster

theorem regGet_inv (r : Req) (off : ℕ) (be : ℕ) (s : State) (h : s.Inv) : (regGet r off be s).Inv := by
  unfold regGet
  repeat' first
    | with_reducible assumption
    | with_reducible apply State.busError_inv
    | with_reducible apply State.pciRead_inv
    | with_reducible apply readAt_inv
    | split

theorem writePlain_inv (r : Req) (p : ℕ) (o : ℕ) (v : Word) (s : State) (h : s.Inv) : (writePlain r p o v s).Inv := by
  unfold writePlain
  repeat' first
    | with_reducible assumption
    | with_reducible intro _
    | with_reducible apply State.reject_inv
    | with_reducible apply withWrite_inv
    | with_reducible apply plainStore_inv
    | with_reducible apply State.inv_ite

theorem writeCtrl_inv (r : Req) (p : ℕ) (v : Word) (s : State) (h : s.Inv) : (writeCtrl r p v s).Inv := by
  unfold writeCtrl
  repeat' first
    | with_reducible assumption
    | with_reducible apply writeLinkCtrl_inv
    | with_reducible apply writeRstoreCtrl_inv
    | with_reducible apply writeMediaCtrl_inv
    | with_reducible apply writeRecorderCtrl_inv
    | with_reducible apply writeWindow_inv
    | with_reducible apply writeCondCtrl_inv
    | with_reducible apply writeAudCtrl_inv
    | with_reducible apply writeLoupeCtrl_inv
    | with_reducible apply writeMirrorCtrl_inv
    | with_reducible apply writeEthCtrl_inv
    | with_reducible apply writeCollCtrl_inv
    | with_reducible apply writeRelayCtrl_inv
    | with_reducible apply writePlain_inv
    | split

theorem State.settleWith_inv (s : State) (p : ℕ) (h : s.Inv) : (State.settleWith s p).Inv := by
  unfold State.settleWith
  repeat' first
    | with_reducible assumption
    | with_reducible intro _
    | with_reducible apply State.settle_inv
    | with_reducible apply State.inv_foldl

theorem afterWrite_inv (p : ℕ) (o : ℕ) (s0 : State) (s : State) (h : s.Inv) : (afterWrite p o s0 s).Inv := by
  unfold afterWrite
  repeat' first
    | with_reducible assumption
    | with_reducible intro _
    | with_reducible apply noteRise_inv
    | with_reducible apply noteRiseAll_inv
    | with_reducible apply driveLanes_inv
    | with_reducible apply noteFreed_inv
    | with_reducible apply State.flowDrop_inv
    | with_reducible apply State.settleWith_inv
    | with_reducible apply State.inv_ite
    | with_reducible apply State.inv_foldl

theorem State.commitNow_inv (s : State) (p : ℕ) (h : s.Inv) : (State.commitNow s p).Inv := by
  unfold State.commitNow
  repeat' first
    | with_reducible assumption
    | with_reducible apply State.applyCommit_inv
    | with_reducible apply noteFreed_inv
    | with_reducible apply State.checkSlots_inv

theorem State.commitTake_inv (s : State) (p : ℕ) (src : ℕ) (h : s.Inv) : (State.commitTake s p src).Inv := by
  unfold State.commitTake
  repeat' first
    | with_reducible assumption
    | with_reducible apply State.setFld_inv
    | with_reducible apply State.autoSave_inv
    | with_reducible apply State.commitNow_inv
    | with_reducible apply State.inv_ite
    | simp only [State.inv_mk]
    | with_reducible apply And.intro
    | with_reducible apply State.Inv.regs
    | with_reducible apply State.Inv.dram
    | with_reducible apply State.Inv.fstore
    | with_reducible apply State.Inv.cluster

theorem State.commitRefused_inv (s t : State) (p : Nat) (h : s.Inv) (e : s.commitRefused p = some t) : t.Inv := by
  unfold State.commitRefused at e
  dsimp only at e
  repeat' split at e
  all_goals first
    | (cases e)
    | skip
  all_goals first
    | with_reducible exact State.raise_inv _ _ _ (State.raise_inv _ _ _ h)
    | with_reducible exact State.reject_inv _ _ h

theorem writeCommit_inv (r : Req) (p : Nat) (v : Word) (s : State) (h : s.Inv) : (writeCommit r p v s).Inv := by
  unfold writeCommit
  refine withWrite_inv _ _ _ _ _ _ h fun t x y ht => ?_
  have h1 : ∀ c, (t.setFld p Reg.COMMON_COMMIT_SOURCE c).Inv := fun c => State.setFld_inv _ _ _ _ ht
  refine State.inv_ite (State.reject_inv _ _ ht) (State.inv_ite (h1 _) (State.inv_ite (State.raise_inv _ _ _ (h1 _)) ?_))
  cases heq : (t.setFld p Reg.COMMON_COMMIT_SOURCE (wfld y Reg.COMMON_COMMIT_SOURCE)).commitRefused p with
  | none => exact State.commitTake_inv _ _ _ (h1 _)
  | some u => exact State.commitRefused_inv _ _ _ (h1 _) heq

theorem writeBlk_inv (r : Req) (p : ℕ) (o : ℕ) (v : Word) (s : State) (h : s.Inv) : (writeBlk r p o v s).Inv := by
  unfold writeBlk
  repeat' first
    | with_reducible assumption
    | with_reducible apply writeVecRearm_inv
    | with_reducible apply writeAqCtrl_inv
    | with_reducible apply writeDoorbell_inv
    | with_reducible apply writeBcCtrl_inv
    | with_reducible apply writeLoadCtrl_inv
    | with_reducible apply writeSlotCfg_inv
    | with_reducible apply writeDrdecInProd_inv
    | with_reducible apply writeHdecInProd_inv
    | with_reducible apply writeWindow_inv
    | with_reducible apply writeSeq_inv
    | with_reducible apply writeSvnCtrl_inv
    | with_reducible apply writeSupplyReq_inv
    | with_reducible apply writeFlowCfg_inv
    | with_reducible apply writePtpCfg_inv
    | with_reducible apply writeFreq_inv
    | with_reducible apply writeTestCtrl_inv
    | with_reducible apply writeResetCtrl_inv
    | with_reducible apply writeChCtrl_inv
    | with_reducible apply writePlain_inv
    | split

theorem writeAt_inv (r : Req) (p : ℕ) (o : ℕ) (v : Word) (s : State) (h : s.Inv) : (writeAt r p o v s).Inv := by
  unfold writeAt
  repeat' first
    | with_reducible assumption
    | with_reducible apply writeGlobalCommit_inv
    | with_reducible apply writeEventTest_inv
    | with_reducible apply writePwrReq_inv
    | with_reducible apply writeCtrl_inv
    | with_reducible apply afterWrite_inv
    | with_reducible apply writePlain_inv
    | with_reducible apply writeCommit_inv
    | with_reducible apply writeBlk_inv
    | with_reducible apply State.inv_ite

theorem regSet_inv (r : Req) (off : ℕ) (be : ℕ) (v : Word) (s : State) (h : s.Inv) : (regSet r off be v s).Inv := by
  unfold regSet
  repeat' first
    | with_reducible assumption
    | with_reducible apply State.busError_inv
    | with_reducible apply State.pciWrite_inv
    | with_reducible apply writeAt_inv
    | split

theorem State.markBeat_inv (s : State) (b : Bool) (h : s.Inv) : (State.markBeat s b).Inv := by
  unfold State.markBeat
  repeat' first
    | with_reducible assumption
    | simp only [State.inv_mk]
    | with_reducible apply And.intro
    | with_reducible apply State.Inv.regs
    | with_reducible apply State.Inv.dram
    | with_reducible apply State.Inv.fstore
    | with_reducible apply State.Inv.cluster

theorem State.beatWrite_inv (s : State) (c off be : Nat) (v : Word) (h : s.Inv) : (s.beatWrite c off be v).1.Inv := by
  unfold State.beatWrite
  split
  · exact State.busError_inv _ _ _ _ h
  · exact State.markBeat_inv _ _ (writeAt_inv _ _ _ _ _ (State.markBeat_inv _ _ h))

theorem State.dstBeat_inv (s : State) (c a : Nat) (l : List Byte) (h : s.Inv) : (s.dstBeat c a l).1.Inv := by
  unfold State.dstBeat
  split
  · refine fst_inv_foldl (acc := (s, none, l)) h fun acc q ha => ?_
    split
    · exact ha
    · rename_i s0 l0
      have h1 := State.beatWrite_inv s0 c q.1 q.2.1 (BitVec.ofNat 32 (leNat (l0.take q.2.2.2) * 256 ^ q.2.2.1)) ha
      split <;> rename_i heq <;> rw [heq] at h1 <;> exact h1
  · exact State.fabWrite_inv _ _ _ h

theorem State.beatRead_inv (s : State) (c off be : Nat) (h : s.Inv) : (s.beatRead c off be).1.Inv := by
  have h1 : ∀ r, ((readAt r (off / 0x1000) (off % 0x1000) be (s.markBeat true)).markBeat false).Inv := fun r =>
    State.markBeat_inv _ _ (readAt_inv _ _ _ _ _ (State.markBeat_inv _ _ h))
  unfold State.beatRead
  dsimp only
  split <;> exact h1 _

theorem State.srcBeat_inv (s : State) (c a w : Nat) (h : s.Inv) : (s.srcBeat c a w).1.Inv := by
  unfold State.srcBeat
  split
  · refine fst_inv_foldl h fun acc q ha => ?_
    split
    · exact ha
    · rename_i s0 l
      have h1 := State.beatRead_inv s0 c q.1 q.2.1 ha
      split <;> rename_i heq <;> rw [heq] at h1 <;> exact h1
  · exact h

theorem State.movePiece_inv (s : State) (c : Nat) (d : RelayDesc) (i : Nat) (h : s.Inv) : (s.movePiece c d i).1.Inv := by
  unfold State.movePiece
  dsimp only
  have hput : ∀ (t : State) (l : List Byte), t.Inv → ((List.range (max d.srcW d.dstW / d.dstW)).foldl
      (fun (acc : State × Option Nat) j =>
        match acc with
        | (s, some e) => (s, some e)
        | (s, none) => s.dstBeat c (d.dstAt (i * max d.srcW d.dstW + j * d.dstW)) ((l.drop (j * d.dstW)).take d.dstW)) (t, none)).1.Inv := by
    intro t l ht
    refine fst_inv_foldl ht fun acc j ha => ?_
    split
    · exact ha
    · exact State.dstBeat_inv _ _ _ _ ha
  split <;> rename_i heq
  · have hgot := congrArg (fun x : State × Except Nat (List Byte) => x.1) heq
    dsimp only at hgot ⊢
    rw [← hgot]
    refine fst_inv_foldl h fun acc j ha => ?_
    split
    · exact ha
    · rename_i s0 l
      have h1 := State.srcBeat_inv s0 c (d.srcAt (i * max d.srcW d.dstW + j * d.srcW)) d.srcW ha
      split <;> rename_i heq <;> rw [heq] at h1 <;> exact h1
  · have hgot := congrArg (fun x : State × Except Nat (List Byte) => x.1) heq
    dsimp only at hgot ⊢
    refine hput _ _ ?_
    rw [← hgot]
    refine fst_inv_foldl h fun acc j ha => ?_
    split
    · exact ha
    · rename_i s0 l
      have h1 := State.srcBeat_inv s0 c (d.srcAt (i * max d.srcW d.dstW + j * d.srcW)) d.srcW ha
      split <;> rename_i heq <;> rw [heq] at h1 <;> exact h1

theorem State.movePieces_inv (s : State) (c : Nat) (d : RelayDesc) (n i : Nat) (h : s.Inv) : (s.movePieces c d n i).1.Inv := by
  induction n generalizing s i with
  | zero => exact h
  | succ n ih =>
    unfold State.movePieces
    have h1 := State.movePiece_inv s c d i h
    split
    · split <;> rename_i heq <;> rw [heq] at h1
      · exact ih _ _ h1
      · exact State.inv_ite h1 (State.countBy_inv _ _ _ _ h1)
    · exact h

theorem State.descDone_inv (s : State) (c : Nat) (h : s.Inv) : (s.descDone c).Inv := by
  unfold State.descDone
  split
  · exact h
  · rename_i d heq0
    have h1 := State.movePieces_inv s c d (d.len / max d.srcW d.dstW) 0 h
    refine State.inv_ite h (State.inv_ite ?_ (State.descEnd_inv _ _ _ (State.copyBytes_inv _ _ _ h)))
    revert h1
    generalize s.movePieces c d (d.len / max d.srcW d.dstW) 0 = x
    obtain ⟨t, o⟩ := x
    intro h1
    cases o with
    | some e => exact State.inv_ite (State.relayError_inv _ _ _ _ h1) (State.descError_inv _ _ _ h1)
    | none => exact State.inv_ite (State.descEnd_inv _ _ _ h1) h1

end Sys2Proof.Machine
end

