-- ==== Sys2Proof/Tests/Slice0.lean ====
section
/-! SUPPORT. Tests: a term that each check of WellFormed refuses, small facts worked out by hand from the manual,
  and for each statement with
hypotheses one theorem, witness_<statement>,
  that shows for each of its clauses a state and operands that meet all its hypotheses together. -/

set_option Elab.async false

open Sys2Proof Sys2Proof.Machine

/-! ### Small states -/

/-- The state with further fields of a page set. -/
def Sys2Proof.Machine.State.having (s : State) (p : Nat) (l : List (Fld × Nat)) : State := l.foldl (fun u e => u.setFld p e.1 e.2) s

/-- A waiting command of PF0. -/
def Sys2Proof.Tests.cmd (uid : Nat) (raw : List Byte) : Cmd := { live := true, uid := uid, order := uid, raw := raw }

/-- The state with one waiting command of PF0 at tag 5. -/
def Sys2Proof.Machine.State.with5 (s : State) (raw : List Byte) : State :=
  { s with hq := { s.hq with cmds := [(5, Sys2Proof.Tests.cmd 1 raw)], uidSeq := 1 } }

namespace Sys2Proof.Tests

/-- A device that is settled in a mode, with the host link up. -/
def up (m : Mode) : State := { ctl := { mode := m, phase := .settled, linkUp := true } }

/-- The same in another phase. -/
def inPhase (m : Mode) (f : Phase) : State := { ctl := { mode := m, phase := f, linkUp := true } }

/-- A device in a mode whose capture group runs. -/
def taking (m : Mode) : State := { ctl := { mode := m, phase := .settled, linkUp := true, capRun := true } }

/-- A field's value in a word that is otherwise 0. -/
def fv (f : Fld) (n : Nat) : Word := BitVec.ofNat 32 (n * 2 ^ f.lo)

/-- A masked write that selects one bit and gives it a value. -/
def wm (f : Fld) (n : Nat) : Word := BitVec.ofNat 32 (2 ^ (f.lo + 16) + n * 2 ^ f.lo)

/-- The bytes of a command: opcode, flags, namespace, DPTR, DLEN and CDW8 to CDW11. -/
def cmdBytes (op flags nsid dptr dlen : Nat) (cdws : List Nat) : List Byte :=
  leBytes 1 op ++ leBytes 1 flags ++ zeros 2 ++ leBytes 4 nsid ++ zeros 8 ++ leBytes 8 dptr ++ leBytes 4 dlen ++ zeros 4
    ++ cdws.flatMap (leBytes 4) ++ zeros (32 - 4 * cdws.length)

/-- A host that answers no reads. -/
def noData : HostData := ⟨none, none⟩

def wq : State := { up .standby with pending := [.msixCreditRefill, .restoreDone] }
def wlat : State :=
  { up .standby with
    ctl := { (up .standby).ctl with latches := [127, 0], credit1 := 1 },
    hq := { (up .standby).hq with
    pci0 := { memory := true, master := true, msixOn := true }, pci1 := { memory := true, master := true, msixOn := true } } }
def wmsk : State := { wlat with hq := { wlat.hq with msixTable := [(3, 0), (1024 + 254, 7), (1024 + 255, 0)] } }
def arm (p src : Nat) (s : State) : State := s.having p [(Reg.COMMON_COMMIT_PENDING, 1), (Reg.COMMON_COMMIT_SOURCE, src)]
def rq (src : Nat) : Word := fv Reg.COMMON_COMMIT_REQ 1 ||| fv Reg.COMMON_COMMIT_SOURCE src
def cf (n : Nat) (s : State) : State := (s.setFld Pg.global Reg.GLOBAL_COMMIT_FRAME_LO n).setFld Pg.global Reg.GLOBAL_STATE_TAKE 1
def key : Word := fv Reg.GLOBAL_RESET_CTRL_KEY 0x4B5A
def oneSide : State := { up .live with fw := { a := some ⟨1, 0, zeros 48⟩ } }
def twoSides : State :=
  { up .live with
    fw := { a := some ⟨1, 0, zeros 48⟩, b := some ⟨2, 0, zeros 48⟩ },
    regs := [(keyOf Reg.CLUSTER_STATE_SIDE_B Pg.cluster, fv Reg.CLUSTER_STATE_SIDE_B 1)] }
def op5 (op : Nat) (cdws : List Nat) : State := (up .standby).with5 (cmdBytes op 0 0 0 0 cdws)
def saving (held : Option SaveReq) (s : State) : State :=
  { s with rsm := { s.rsm with running := some (⟨1, [1], none⟩, 0, 1, [1, 2]), held := held } }
def ven : Word := fv Reg.HOSTQ_AQ_CTRL_EN 1
def sq1 : Sq := { live := true, base := 4096, size := 4, tail := 3, cqid := 1 }
def cq1 : Cq :=
  { live := true, base := 8192, size := 4, head := 1, tail := 3, phase := true, vector := 9, ien := true, cnt := 2, time := 5, unsig := 1 }
def withQ (s : State) : State := { s with hq := { s.hq with sqs := [(1, sq1)], cqs := [(1, cq1)] } }
def db (h q i : Nat) : Word := fv Reg.HOSTQ_DOORBELL_HEAD h ||| fv Reg.HOSTQ_DOORBELL_QID q ||| fv Reg.HOSTQ_DOORBELL_INDEX i
def busy : State :=
  let s := withQ (op5 0x80 [])
  { s with hq := { s.hq with cmds := [(5, { cmd 1 (zeros 64) with stage := .running }),
    (6, { cmd 2 (zeros 64) with fn := .pf1 })], avail := [(1, 3), (66, 4)] } }
def fetchable : State :=
  { (withQ (up .standby)).having Pg.hostq [(Reg.HOSTQ_CTRL_ENABLE, 1)] with
    hq := { (withQ (up .standby)).hq with sqs := [(1, sq1)], avail := [(1, 1), (1, 2)] } }
def full : State := { fetchable with hq := { fetchable.hq with cmds := (List.range 16320).map fun t => (t, { live := true }) } }
def done (c : Cmd) : Cmd := { c with stage := .done, status := 2, cqid := 1, sqid := 1 }
def posting (q : Cq) : State := { up .standby with hq := { cqs := [(1, q)], cmds := [(16383, done (cmd 1 (zeros 64)))] } }
def mq (n : Nat) : Nat := n * 65536
def opq (op : Nat) (cdws : List Nat) : State := (up .standby).with5 (cmdBytes op 0 0 0x1000 0 cdws)
def winOn (s : State) : State := s.having Pg.guard [(Reg.GUARD_CTRL_WIN_EN, 1)]
def oneCq (s : State) : State := { s with hq := { s.hq with cqs := [(1, cq1)] } }
def opx (op nsid dlen : Nat) (cdws : List Nat) : State := (up .standby).with5 (cmdBytes op 0 nsid 0x1000 dlen cdws)
def stg (s : State) : State :=
  { (s.having Pg.nspace [(Reg.NSPACE_STAGE_UNITS, 4), (Reg.NSPACE_LOG_UNITS, 1)]) with stages := [⟨3, 1, 1, 2097152, 0⟩] }
def vol1 (s : State) : State :=
  { ((s.having Pg.recorder [(Reg.RECORDER_CFG_DRIVES, 1)]).having (Pg.media 0) [(Reg.MEDIA_STATE_PORT, 3), (Reg.MEDIA_CTRL_ENABLE, 1)]) with
    media := { vol := some { drives := 1, members := [0], vsize := 67108864, entries := [(2, ⟨1, 0, 16777216⟩)] }, drives := [(0, { maxTransfer := 131072, mem := [(8388608, 1), (8388608 + 16777216, 2)] })] } }
def loadGo (k : Nat) : Word := fv Reg.FSTORE_LOAD_CTRL_GO 1 ||| fv Reg.FSTORE_LOAD_CTRL_SLOT k
def placed : State :=
  ((up .standby).having Pg.fstore [(Reg.FSTORE_CTRL_ENABLE, 1), (Reg.FSTORE_SLOT_CFG_KIND 63, 1), (Reg.FSTORE_SLOT_CFG_PLACED 63, 1)])
def aLoad : FsLoad := { slot := 63, src := 64, kind := 1, crc := 0, fmt := 0, cmd := none }
def isLoading (l : FsLoad) (s : State) : State := { s with fstore := { s.fstore with load := some l } }
def header (n : Nat) : List Byte :=
  let h := leBytes 4 0x53465A4B ++ leBytes 2 1 ++ leBytes 1 1 ++ [0] ++ leBytes 4 6144 ++ leBytes 4 n ++ zeros 44
  h ++ leBytes 4 (crc32c h)
def ldSlot : State := { (stg placed).with5 (cmdBytes 0x84 0 3 0 0 [0, 0, 63]) with dram := (stg placed).dram.setN 2097152 (header 5) }
def lk (k n : Nat) (s : State) : State := s.having (Pg.link k) [(Reg.LINK_CFG_LANES, n), (Reg.LINK_CTRL_ENABLE, 1)]
def tb (l : Nat) : TrainBlk :=
  { lane := l, inverted := true, laneId := l % 8, port := l / 8, lanes := 1, fallback := false, preemph := true, skew := 3 }
def locked (l : Nat) (s : State) : State :=
  s.having (Pg.lane l) [(Reg.LANE_RX_STATUS_BLOCK_LOCK, 1), (Reg.LANE_RX_STATUS_CDR_LOCK, 1), (Reg.LANE_RX_STATUS_LOS, 0)]
def bcGo (op : Nat) : Word := fv Reg.LINK_BC_CTRL_GO 1 ||| fv Reg.LINK_BC_CTRL_OP op
def bcUp : State := { lk 1 8 (up .standby) with portB := { bcUp := true, seq := 7 } }
def lined : State := { locked 15 (taking .live) with portB := { phase := .linked, map := [15], fullMap := [15], joined := [15] } }
def hearing (m : BcMsg) : State :=
  { lined with portB := { lined.portB with bcUp := true, cur := some m, queue := [{ m with use := .plain, op := 3 }] } }
def msg (u : BcUse) (n : Nat) : BcMsg := { op := 1, arg := 0, data := [(1, 2)], use := u, seq := 7, resends := n }
def bcCur (m : BcMsg) : State := { bcUp with portB := { bcUp := true, cur := some m, queue := [{ m with use := .plain, op := 3 }] } }
def seg : LaneSeg := { sol := true, line := 9, cells := 4 }
def segd : State := { lined with portB := { lined.portB with segs := [(0, seg)] } }
def pk (d : List Byte) : Packet := { lane := 0, line := 9, off := 0, data := d, crc := crc32c d, headersOk := true, lockHeld := true }
def chk (l pat : Nat) : State := (up .service).having (Pg.lane l) [(Reg.LANE_TEST_CTRL_CHK_EN, 1), (Reg.LANE_TEST_CTRL_PATTERN, pat)]
def userRun : List Bool := List.replicate 63 false ++ [true]
def raster (s : State) : State :=
  (s.having Pg.ingress [(Reg.INGRESS_CTRL_ENABLE, 1), (Reg.INGRESS_WINA_WH_W, 256), (Reg.INGRESS_WINA_WH_H, 64),
    (Reg.INGRESS_RING_CFG_SLOTS, 2)]).having Pg.dramctl [(Reg.DRAMCTL_RING_RESERVE, 1)]
def mode5 (s : State) (t : Nat) : State := s.with5 (cmdBytes 0x10 0 0 0 0 [t])
def running9 (s : State) : State :=
  { s with hq := { s.hq with cmds := (9, { cmd 9 (cmdBytes 0x10 0 0 0 0 [1]) with stage := .running }) :: s.hq.cmds, uidSeq := 9 } }
def other9 (op : Nat) (s : State) : State :=
  { s with hq := { s.hq with cmds := s.hq.cmds ++ [(9, { cmd 9 (cmdBytes op 0 0 0 0 []) with cid := 9 })] } }
def closing : State :=
  { taking .record with
    ctl := { (taking .record).ctl with phase := .closing none },
    media := { (vol1 (up .record)).media with reel := { isOpen := true, nsid := 2, closing := true, closed := true } } }
def sofA (s : State) : State :=
  { s with regs := (s.having Pg.ingress [(Reg.INGRESS_CTRL_ENABLE, 1)]).regs, portA := { phase := .linked, sof := some (6, 7) } }
def toRec : State := sofA { vol1 (up .live) with ctl := { (taking .live).ctl with phase := .switching .record none, recStart := some 0 } }
def pairUp : State :=
  { taking .live with
    regs := ((up .live).having Pg.ingress [(Reg.INGRESS_CTRL_ENABLE, 1), (Reg.INGRESS_CFG_SOURCE, 2)]).regs,
    portB := { phase := .linked, sof := some (1, 0) }, ingress := { openFrame := some { a := { used := true, sof := true } } } }
def recvd : State :=
  { locked 0 ((up .live).having Pg.ingress [(Reg.INGRESS_CTRL_ENABLE, 1), (Reg.INGRESS_WINA_WH_W, 4), (Reg.INGRESS_WINA_WH_H, 2)]) with
    ctl := (taking .live).ctl, portA := { phase := .linked, map := [0], fullMap := [0], joined := [0] } }
def opened : State := { recvd with ingress := { openFrame := some { slot := some 0, a := { used := true, sof := true } } } }
def pairCut : State :=
  { pairUp with ingress := { openFrame := some { a := { used := true, sof := true }, b := { used := true, sof := true, eof := true } } } }
def pairRx : State :=
  { recvd.having Pg.ingress [(Reg.INGRESS_CFG_SOURCE, 2)] with
    ingress := { openFrame := some { slot := some 0, a := { used := true, sof := true }, b := { used := true, sof := true } } } }
def small (s : State) : State :=
  s.having Pg.ingress [(Reg.INGRESS_CTRL_ENABLE, 1), (Reg.INGRESS_WINA_WH_W, 16), (Reg.INGRESS_WINA_WH_H, 4),
    (Reg.INGRESS_RING_CFG_SLOTS, 2)]
def ringed (s : State) : State := { small s with ingress := { slots := [(1, { has := true, frame := 7, busy := true })], ready := [7] } }
def reading : Reading := { frame := 7, next := 3, addr := 0, w := 16, h := 4, ds := 12 }
def readingS (r : Reading) : State :=
  let s := ringed (taking .live)
  { s with ingress := { s.ingress with reading := some r, ready := [] }, split := { pics := [{ frame := 7, w := 16, h := 4, ds := 12 }] } }
def catching (s : State) : State :=
  { ringed s with ingress := { slots := [(1, { has := true, frame := 7, held := true })], catchup := [7] } }
def catDraw : State :=
  { (catching (taking .live)).having Pg.drawctl [(Reg.DRAWCTL_CTRL_ENABLE, 1), (Reg.DRAWCTL_REC_CFG, 4)] with
    draw := { cat := some { frame := 7, qp0 := [0] }, bufs := [(0, 7, false)] } }
def spl (s : State) : State :=
  s.having Pg.split [(Reg.SPLIT_CTRL_ENABLE, 1), (Reg.SPLIT_REND_CFG 7, 1), (Reg.SPLIT_BUF_CFG 7, 3), (Reg.SPLIT_OUT_SIZE_W 7, 16),
    (Reg.SPLIT_OUT_SIZE_H 7, 4), (Reg.SPLIT_BUF_SIZE 7, 1)]
def pic7 (r : RendSt) : Pic :=
  { frame := 7, w := 16, h := 4, ds := 12, work := List.replicate 4 (List.replicate 16 (1, 2, 3)), rends := [(7, r)] }
def splitting (r : RendSt) (h : List (Reader × Nat × Nat)) : State :=
  { spl (small (taking .live)) with split := { pics := [pic7 r], holds := h } }
def rawUp (s : State) : State := s.having Pg.drawctl [(Reg.DRAWCTL_CTRL_ENABLE, 1), (Reg.DRAWCTL_REC_CFG, 2)]
def liveRead : State := { rawUp (readingS { reading with next := 0 }) with ctl := { (taking .record).ctl with recStart := some 7 } }
def hencUp (c : Option HencPic) : State :=
  { (splitting { begun := true, groups := 1 } [(.henc 7, 7, 7)]).having (Pg.henc 7) [(Reg.HENC_CFG_ROLE, 1), (Reg.HENC_CTRL_ENABLE, 1),
    (Reg.HENC_CFG_REND, 7), (Reg.HENC_ES_CFG, 2), (Reg.HENC_ES_CAP, 256)] with henc := [(7, { cur := c })] }
def hencPic : State :=
  { hencUp none with
    henc := [(7, { origin := 7 })], split := { (hencUp none).split with bufs := [(112 + 1, some 7)] },
    ctl := { (taking .live).ctl with frameSeen := true } }
def fw5 (op : Nat) (cdws : List Nat) : State := { twoSides with hq := (op5 op cdws).hq }
def handing : State := { running9 twoSides with fw := { twoSides.fw with running := some 9 } }
def seqB (req en : Nat) : State :=
  { (up .standby).having Pg.guard [((supplyFlds 1).1, req), ((supplyFlds 1).2.1, en), ((supplyFlds 1).2.2.1, 0x1)] with
    pwr := { seqB := true } }
def armed (wake : Nat) (s : State) : State :=
  s.having Pg.coll [(Reg.COLL_CTRL_ENABLE, 1), (Reg.COLL_CTRL_SLEEP_KEEP, 1), (Reg.COLL_ALARM_CTRL_ARM, 1),
    (Reg.COLL_ALARM_CTRL_WAKE, wake)]
def lease (gen fen : Nat) (cdws : List Nat) : State :=
  (((up .standby).having Pg.array [(Reg.ARRAY_GENERATION, gen),
    (Reg.ARRAY_STATE_FENCED, fen)]).setFld Pg.global Reg.GLOBAL_STATE_FENCED fen).with5 (cmdBytes 0x28 0 0 0 0 cdws)
def md (k : Nat) (l : List (Fld × Nat)) (s : State) : State := s.having (Pg.media k) l
def training1 (s : State) : State := md 1 [(Reg.MEDIA_CTRL_ENABLE, 1), (Reg.MEDIA_STATE_PORT, 1)] s
def reelUp (r : ReelSt) (s : State) : State := let u := vol1 s; { u with media := { u.media with reel := r } }
def openReel : ReelSt :=
  { isOpen := true, nsid := 2, size := 16777216, id := zeros 16, tail := 1048576 + 64, appends := [(1, 5, 1048576 + 64)], endOff := 0 }
def writing (r : ReelSt) (ret : Bool) (s : State) : State :=
  let u := reelUp r s
  { u with media := { u.media with drives := [(0, { (u.drive 0) with retried := ret, nextId := 3, again := if ret then [1, 2] else [], writes := [⟨1, 8388608, 0, [7, 8], [4], false⟩, ⟨2, 0, 0, [], [], false⟩] })] } }
def grouped (r : ReelSt) : State := reelUp { r with todo := [7], metas := [(7, zeros 16)] } (taking .record)
def append5 (r : ReelSt) : State := (reelUp r (up .record)).with5 (cmdBytes 0x82 0 2 0x1000 3 [])
def recov (st : Nat) : State :=
  let u := vol1 (up .standby)
  { u with media := { u.media with vol := some { drives := 1, members := [0], vsize := 67108864, entries := [(2, ⟨st, 0, 16777216⟩),
    (3, ⟨2, 16777216, 16777216⟩)] } } }
def reviewing (a b : List IndexEntry) : State :=
  let u := vol1 (up .review)
  { u.having Pg.drdec [(Reg.DRDEC_IN_CFG_COUNT, 4)] |>.having (Pg.hdec 0) [(Reg.HDEC_IN_CFG_COUNT, 4)] with
    media := { u.media with review := { active := true, raws := a, hevcs := b } } }
def condUp (s : State) : State := s.having Pg.cond [(Reg.COND_CTRL_ENABLE, 1)]
def cond5 (op cdw11 : Nat) : State := (condUp (up .standby)).with5 (cmdBytes op 0 0 0x1000 3 [0x2000, 0, 64, cdw11])
def stored4 : List Byte := [1, 4, 0, 251, 255, 10, 11, 12, 13]
def inflateJob : CondJob := { inflate := true, input := stored4, piece := 9, dst := 64, cap := 4, limit := 4 }
def running1 (j : CondJob) : State :=
  { (condUp (up .standby)).having Pg.cond [(Reg.COND_STATE_BUSY, 1), (Reg.COND_STATE_PHASE, 1)] with cond := { queue := [j] } }
def deflateJob : CondJob := { input := zeros 80, piece := 80, dst := 64, cap := 64 }
def cin : HostData := ⟨none, some [1, 2, 3]⟩
def go : Word := wm Reg.COND_CTRL_GO 1
def parkedS (ph : Nat) : State :=
  { (condUp (up .standby)).having Pg.cond [(Reg.COND_STATE_PHASE, ph), (Reg.COND_SRC_LEN, 5), (Reg.COND_DST_CAP, 8)] with
    cond := { parked := some { inflateJob with stream := true, written := 2 } } }
def fullJob : CondJob := { inflateJob with stream := true, cap := 3, limit := 100 }
def needJob : CondJob := { inflateJob with stream := true, input := stored4.take 7, piece := 7, cap := 8, limit := 100, whole := false }
def lpe (n : Nat) (l : List (Fld × Nat)) (s : State) : State := s.having (Pg.loupe n) l
def actRaster (n fmt rate : Nat) (s : State) : State :=
  lpe n [(actOf Reg.LOUPE_FMT_FMT, fmt), (actOf Reg.LOUPE_FMT_RATE, rate), (Reg.LOUPE_CTRL_ENABLE, 1), (Reg.LOUPE_STATE_PHASE, 1)] s
def eng3 (x : LoupeSt) (s : State) : State := let u := actRaster 3 0 5 s; { u with loupe := [(3, { x with vals := u.activeVals 3 })] }
def sdiOn (s : State) : State := (lpe 3 [(Reg.LOUPE_CFG_SDI_EN, 1)] s).having (Pg.sdi 3) [(Reg.SDI_CTRL_ENABLE, 1)]
def out3 : State := (lpe 3 [(Reg.LOUPE_CFG_SDI_EN, 1)] (up .standby)).having (Pg.sdi 3) [(Reg.SDI_CTRL_ENABLE, 1)]
def mir3 (x : LoupeSt) : State := (eng3 x out3).having Pg.mirror [(Reg.MIRROR_CTRL_ENABLE, 1), (Reg.MIRROR_CTRL_LINK_EN, 8)]
def crc3 : LoupeSt := { crcs := [(3, 30, 77)] }
def eth1 (s : State) : State := s.having (Pg.eth 1) [(Reg.ETH_CTRL_ENABLE, 1), (Reg.ETH_STATE_LINK_UP, 1)]
def ptpFrame : List Byte := zeros 12 ++ [8, 0, 0x45] ++ zeros 8 ++ [17] ++ zeros 12 ++ [1, 63] ++ zeros 4
def ethLive : State := eth1 (up .live)
def flw (f typ src : Nat) (s : State) : State :=
  s.having Pg.pkt2110 [(Reg.PKT2110_CTRL_ENABLE, 1), (Reg.PKT2110_FLOW_CFG_EN f, 1), (Reg.PKT2110_FLOW_CFG_TYPE f, typ),
    (Reg.PKT2110_FLOW_CFG_SRC f, src), (Reg.PKT2110_FLOW_CFG_PORT f, 1), (Reg.PKT2110_FLOW_CFG_RATE f, 1)]
def flCfg (en typ src : Nat) : Word :=
  fv (Reg.PKT2110_FLOW_CFG_EN 0) en ||| fv (Reg.PKT2110_FLOW_CFG_TYPE 0) typ ||| fv (Reg.PKT2110_FLOW_CFG_SRC 0) src ||| fv (Reg.PKT2110_FLOW_CFG_PORT 0) 1
def flDown : State :=
  { flw 2 0 3 (up .live) with flows := [(2, { frame := some 6 })], split := { holds := [(.hold 2, 3, 6), (.hold 1, 3, 6)] } }
def sending (f typ src : Nat) (x : FlowSt) (s : State) : State :=
  let u := eth1 (flw f typ src s)
  { u with flows := [(f, x)], split := { holds := [(.hold f, src, 6)] } }
def w64 (s : State) : State := s.having Pg.split [(Reg.SPLIT_OUT_SIZE_W 3, 64), (Reg.SPLIT_OUT_SIZE_H 3, 64)]
def rowed (x : FlowSt) : State := sending 2 0 11 x (eng3 { rows := [(1, List.replicate 1280 (1, 2, 3)), (0, [])] } (up .live))
def collUp (s : State) : State := s.having Pg.coll [(Reg.COLL_CTRL_ENABLE, 1)]
def at5 (s : State) : State := { s with time := ⟨5, 250000000, 77⟩ }
def newPic : State :=
  let u := (sending 2 0 3 { seq := 9 } (w64 (up .live))).having Pg.split [(Reg.SPLIT_CTRL_ENABLE, 1), (Reg.SPLIT_REND_CFG 3, 1)]
  { u with split := { newest := [(3, some 6)] }, ctl := (taking .live).ctl }
def setting (s : State) : State := s.having Pg.coll [(Reg.COLL_SET_SEC_LO, 99), (Reg.COLL_SET_NS, 5)]
def outMd (k : Nat) : State := at5 (collUp ((up .live).having Pg.coll [(Reg.COLL_SYNC_CFG_OUT_MODE, k)]))
def ptp (servo : Nat) (c : CollSt) : State :=
  let u := at5 (eth1 ((up .live).having Pg.coll [(Reg.COLL_CTRL_ENABLE, 1), (Reg.COLL_CTRL_PTP_EN, 1), (Reg.COLL_STATE_SERVO, servo),
    (Reg.COLL_PTP_CFG_PORT, 1), (Reg.COLL_PTP_CFG_DOMAIN, 127)]))
  { u with coll := c }
def sync0 : PtpSyncMsg := ⟨1, true, 127, 9, 1, -3, 5, 250000000, 0⟩
def ann : PtpAnnounceMsg := ⟨1, true, 127, 9, 1, 3232235777, 4, 128, 6, 33, 100, 128, 9, 0⟩
def trg (l : List (Fld × Nat)) (x : TrigPin) : State :=
  let u := collUp ((up .live).having Pg.trig ([(Reg.TRIG_CTRL_ENABLE, 1), (Reg.TRIG_CTRL_EN_B, 1), (Reg.TRIG_STATE_PHASE, 1),
    (Reg.TRIG_RATE_NUM, 24), (Reg.TRIG_RATE_DEN, 1)] ++ l))
  { u with trig := { base := 1000000000 * tickNs, b := x } }
def port2 (ph : Nat) (l : List (Fld × Nat)) (a : AudSt) (s : State) : State :=
  let u := (collUp s).having (Pg.aud 2) ([(Reg.AUD_STATE_PHASE, ph), (actOf Reg.AUD_SLOT_MASK, 0)] ++ l)
  { u with aud := [(2, a)] }
def en2 : Word := wm Reg.AUD_CTRL_ENABLE 1
def off2 : Word := wm Reg.AUD_CTRL_ENABLE 0
def mst (ph : Nat) (l : List (Fld × Nat)) (a : AudSt) : State :=
  port2 ph (l ++ [(Reg.AUD_CTRL_ENABLE, 1), (Reg.AUD_FORMAT_MASTER, 1)]) a (at5 (up .live))
def slv (ph : Nat) (l : List (Fld × Nat)) (a : AudSt) : State :=
  port2 ph (l ++ [(Reg.AUD_CTRL_ENABLE, 1), (Reg.AUD_FORMAT_MASTER, 0)]) a (at5 (up .live))
def mask2 : (Fld × Nat) := (actOf Reg.AUD_SLOT_MASK, 2)
def rly (l : List (Fld × Nat)) (s : State) : State :=
  s.having Pg.relay ([(Reg.RELAY_CTRL_ENABLE, 1), (Reg.COMMON_PWR_REQ_REQ, 3), (Reg.COMMON_PWR_REQ_STATUS, 3)] ++ l)
def chGo (a b : Nat) : Word := fv (Reg.RELAY_CH_CTRL_START 5) a ||| fv (Reg.RELAY_CH_CTRL_ABORT 5) b
def runCh (l : List (Fld × Nat)) (d : Option RelayDesc) : State :=
  let u := rly ([(Reg.RELAY_CH_STATUS_STATE 5, 1), (Reg.RELAY_STATE_ACTIVE, 32)] ++ l) (up .standby)
  { u with relay := { descs := [(5, d)] } }
def desc1 : RelayDesc := { src := 4096, dst := 8192, next := 64, len := 12, ctrl := 2 + 2 * 16 + 4096 }
def descBytes (d : RelayDesc) : List Byte := leBytes 8 d.src ++ leBytes 8 d.dst ++ leBytes 8 d.next ++ leBytes 4 d.len ++ leBytes 4 d.ctrl
def fetching (d : RelayDesc) : State := ((runCh [(Reg.RELAY_CUR_DESC_LO 5, 4)] none).pokeN 128 (descBytes d))
def toReg (r : Nat) : RelayDesc := { desc1 with dst := regBase + r, len := 4, ctrl := 2 + 2 * 16 }
def ofReg (r : Nat) : RelayDesc := { desc1 with src := regBase + r, len := 4, ctrl := 2 + 2 * 16 }
def rch (c : Nat) (d : RelayDesc) : State :=
  let u := rly [(Reg.RELAY_CH_STATUS_STATE c, 1), (Reg.RELAY_STATE_ACTIVE, 2 ^ c)] (up .standby)
  { u with relay := { descs := [(c, some d)] } }
def dc (x : DramSt) (s : State) : State := { s with dramc := x }
def fq (n : Nat) : Word := fv Reg.DRAMCTL_FREQ n
def pq (n : Nat) : Word := fv Reg.COMMON_PWR_REQ_REQ n
def held1 (p n : Nat) (l : List (Fld × Nat)) : State :=
  let u := (up .live).having p ([(Reg.COMMON_PWR_REQ_REQ, n)] ++ l)
  { u with pwr := { held := [(p, n)] } }
def heldRun : State := held1 Pg.relay 0 [(Reg.COMMON_PWR_REQ_STATUS, 3), (Reg.RELAY_STATE_ACTIVE, 4)]
def byPf1 (s : State) (t : Nat) : State :=
  { s with hq := { s.hq with cmds := [(5, { cmd 1 (cmdBytes 0x10 0 0 0 0 [t]) with fn := .pf1 })], uidSeq := 1 } }
def emptyBank : List Byte := sealBank (leBytes 4 0x53525A4B ++ leBytes 2 1 ++ leBytes 2 1 ++ leBytes 8 7 ++ leBytes 4 0 ++ zeros 44)
def unplug : State := { up .standby with pending := [.hostLinkDown] }
def okLoad (c : Nat) : FsLoad := { aLoad with crc := c }
def inLoad : State := placed.setFld Pg.fstore (Reg.FSTORE_SLOT_STATUS_STATE 63) 1
def sumOf (s : State) : Nat := crc32c (s.peekN 64 6144)
def st_RegisterWrites_7 : State :=
  let u := (up .standby).having Pg.recorder [(Reg.RECORDER_CFG_DRIVES, 1)] |>.having (Pg.media 0) [(Reg.MEDIA_CTRL_ENABLE, 1),
    (Reg.MEDIA_STATE_PORT, 3)]
  { u with media := { u.media with vol := some { drives := 1, members := [0], vsize := 67108864, entries := [(3, ⟨2, 16777216, 16777216⟩)] } } }
def st_Resets_6 : State := { twoSides with ctl := (taking .live).ctl }
def st_Resets_9 : State := { State.reset with ctl := { tripHold := true } }
def st_QueueCommands_1 : State := { (op5 0x01 [63 + mq 4095, 1]) with hq := { (op5 0x01 [63 + mq 4095, 1]).hq with cqs := [(1, cq1)] } }
def st_NamespacesMade_6 : State :=
  { vol1 (opx 0x19 2 0 []) with media := { (vol1 (opx 0x19 2 0 [])).media with reel := { isOpen := true, nsid := 2 } } }
def st_NamespaceData_3 : State :=
  let u := (vol1 (opx 0x80 2 512 [0, 0])).having (Pg.media 0) [(Reg.MEDIA_STATE_PORT, 2)]
  { u with media := { u.media with drives := [(0, { maxTransfer := 131072, mem := [(8454144, 75), (8454145, 90), (8454146, 73),
    (8454147, 66), (8454148, 1), (8454150, 2), (8454152, 1), (8454162, 128), (8458236, 123), (8458237, 140), (8458238, 39),
    (8458239, 125)] })] } }
def st_BringUp_3 : State := { locked 15 (lk 1 1 (up .standby)) with portB := { phase := .training } }
def st_BringUp_4 : State := { lk 1 8 (up .standby) with portB := { phase := .adapting } }
def st_BringUp_5 : State :=
  { lk 1 8 (up .standby) with portB := { phase := .eqset, undo := some { map := [9], regs := (trainKeys 1).map fun a => (a, 9#32) } } }
def st_LaneStatus_3 : State := { locked 15 (taking .live) with portB := { phase := .linked, map := [15], fullMap := [15], joined := [15] } }
def st_LaneStatus_10 : State := { locked 15 (up .standby) with portB := { phase := .linked, map := [15], fullMap := [15] } }
def st_BackChannel_8 : State := { bcUp with portB := { fallFrame := some 5 } }
def st_LineData_3 : State := { segd with portB := { lined.portB with segs := [] } }
def st_TakeBeginsAndEnds_3 : State :=
  { taking .live with ctl := { (taking .live).ctl with phase := .stopping none, groups := [(0, [Pg.draw 0]), (5, [Pg.draw 0])] } }
def st_TakeBeginsAndEnds_4 : State := { closing with ctl := { (taking .record).ctl with phase := .stopping none } }
def st_TakeBeginsAndEnds_6 : State := { closing with ctl := { (taking .record).ctl with phase := .switching .live none, recEnd := some 0 } }
def st_FrameStarts_3 : State := { up .live with portA := { phase := .linked, sof := some (0, 0) } }
def st_FrameArrives_2 : State := { recvd with ctl := (up .standby).ctl }
def st_FrameArrives_3 : State := { recvd with portA := { recvd.portA with sof := some (1, 1) } }
def st_FrameArrives_5 : State := { opened with portA := { recvd.portA with segs := [(0, { sol := true, line := 1, cells := 1 })] } }
def st_FrameArrives_9 : State := { recvd with portA := { recvd.portA with discard := true } }
def st_SharedRead_3 : State :=
  { (readingS { reading with next := 0 }).having Pg.drawctl [(Reg.DRAWCTL_CTRL_ENABLE, 1), (Reg.DRAWCTL_REC_CFG, 2)] with
    ctl := { (taking .record).ctl with recStart := some 7 } }
def st_RawRecords_2 : State := { liveRead with draw := { bufs := [(0, 3, false)] } }
def st_RawRecords_3 : State :=
  { liveRead with
    draw := { live := some { frame := 7, qp0 := [0], lines := List.replicate 4 (List.replicate 16 9) }, bufs := [(0, 7, false)] } }
def st_HevcPictures_2 : State := { hencPic with henc := [(7, { cur := some { frame := 7, qp := 30 } })] }
def st_HevcPictures_3 : State :=
  { hencPic with
    henc := [(7, { cur := some { frame := 7, qp := 30 } })], split := { (hencUp none).split with pics := [pic7 { begun := true }] } }
def st_Decoding_3 : State :=
  { (up .review).having Pg.drdec [(Reg.DRDEC_CTRL_ENABLE, 1), (Reg.DRDEC_IN_CFG_COUNT, 4), (Reg.DRDEC_OUT_SIZE_W, 16),
    (Reg.DRDEC_OUT_SIZE_H, 4)] with drdec := { cur := some (7, false) } }
def st_FirmwareSides_7 : State := { twoSides with fw := { a := some ⟨1, 1, zeros 48⟩, b := some ⟨2, 1, zeros 48⟩ } }
def st_Leases_8 : State := { up .live with array := { lease := 5 } }
def st_Leases_9 : State := { up .live with array := { lease := 5, low := true } }
def st_Drives_3 : State := { vol1 (up .standby) with media := { (vol1 (up .standby)).media with reel := { isOpen := true } } }
def st_Reels_2 : State := { writing { openReel with todo := [7], metas := [(7, zeros 16)] } false (taking .record) with time := {} }
def st_RegisterJobs_2 : State :=
  { (running1 { deflateJob with cmd := some 1 }).having Pg.cond [(Reg.COND_SRC_LEN, 4), (Reg.COND_STATE_PHASE, 0)] with
    hq := (op5 0x88 []).hq }
def st_RegisterJobs_10 : State :=
  { (running1 deflateJob).having Pg.cond [(Reg.COND_STATE_PHASE, 4)] with
    cond := { queue := [{ deflateJob with cmd := some 1 }, deflateJob] }, hq := (op5 0x88 []).hq }
def st_LoupeOutputs_5 : State := let u := eng3 {} (up .standby); lpe 3 [(actOf Reg.LOUPE_FMT_FMT, 1)] u
def st_Flows_9 : State :=
  { sending 2 1 0 { index := 3, seq := 9 } ((up .live).having (Pg.aud 0) [(Reg.AUD_FORMAT_MASTER, 1)]) with
    time := .ofTicks (4 * 1000000 * tickNs) }
def st_TimeCounter_8 : State :=
  { (outMd 2).having Pg.trig [(Reg.TRIG_CTRL_ENABLE, 1), (Reg.TRIG_STATE_PHASE, 1), (Reg.TRIG_RATE_NUM, 24), (Reg.TRIG_RATE_DEN, 1)] with
    trig := { base := 4000000000 * tickNs } }
def st_PowerDomains_10 : State :=
  let u := (up .live).having Pg.cond [(Reg.COMMON_PWR_REQ_REQ, 3), (Reg.COMMON_PWR_REQ_STATUS, 3)]
  { u with pwr := { rising := [Pg.cond, Pg.relay] } }
def st_PowerDomains_11 : State :=
  let u := (up .live).having Pg.cond [(Reg.COMMON_PWR_REQ_REQ, 3), (Reg.COMMON_PWR_REQ_STATUS, 0)]
  { u with pwr := { rising := [Pg.cond, Pg.relay] } }

/-! ### Small facts for the witnesses -/

theorem ex_eq {α : Type} {e : α} {P : α → Prop} (h : P e) : ∃ x, x = e ∧ P x := ⟨e, rfl, h⟩

theorem ex_isSome {α : Type} {o : Option α} (h : o.isSome = true) : ∃ x, o = some x := Option.isSome_iff_exists.1 h

theorem ex_some {α : Type} {o : Option α} {P : α → Prop} [DecidablePred P] (h : (o.any fun x => decide (P x)) = true) :
    ∃ x, o = some x ∧ P x := by
  cases o with
  | none => simp at h
  | some x => exact ⟨x, rfl, by simpa using h⟩

theorem ex_some' {α : Type} {o : Option α} {P : α → Prop} (h : o.isSome = true) (p : P (o.get h)) : ∃ x, o = some x ∧ P x :=
  ⟨o.get h, by simp, p⟩

theorem unitFree_lt {s : State} {u : Nat} (h : s.unitFree u = true) : u < s.stageUnits := by
  simp only [State.unitFree, Bool.and_eq_true, decide_eq_true_eq] at h
  exact h.1.2

theorem noRun : ¬∃ w, ∀ i < 3, (stg (opx 0x18 0 0 [3, 255, 4194305, 0])).unitFree (w + i) = true := by
  rintro ⟨w, h⟩
  have h2 := unitFree_lt (h 2 (by decide))
  have : (stg (opx 0x18 0 0 [3, 255, 4194305, 0])).stageUnits = 4 := by decide +kernel
  obtain rfl | rfl : w = 0 ∨ w = 1 := by omega
  · exact absurd (h 0 (by decide)) (by decide +kernel)
  · exact absurd (h 0 (by decide)) (by decide +kernel)

theorem full_freeTags : full.freeTags = 0 := by
  have h : (full.hq.cmds.filter fun e => e.2.live && !adminTag e.1) = full.hq.cmds := by
    refine List.filter_eq_self.2 fun e he => ?_
    simp only [full, List.mem_map, List.mem_range] at he
    obtain ⟨t, ht, rfl⟩ := he
    simp [adminTag, ht]
  rw [State.freeTags, h]
  simp [full]

/-- A budget whose entries before the power entry fit, with a power demand within the limit, is not exceeded. -/
theorem budget_fits {s : State} (h : firstOver s.budget.dropLast = none) (p : Config.powerDemand s.soWords ≤ s.powerLimit) :
    firstOver s.budget = none := by
  have g : s.budget.getLast? = some (0x0A, 0, Config.powerDemand s.soWords, s.powerLimit) := by
    unfold State.budget
    rw [List.getLast?_append]
    rfl
  have e := (List.dropLast_append_getLast? _ g).symm
  rw [firstOver] at h ⊢
  rw [e, List.find?_append, h]
  simpa using p

theorem loads_ok (s : State) :
    crc32c ((isLoading (okLoad (sumOf s)) s).peekN (okLoad (sumOf s)).src (kindBytes (okLoad (sumOf s)).kind)) = (okLoad (sumOf s)).crc := rfl

theorem loads_bad (s : State) :
    crc32c ((isLoading (okLoad (sumOf s + 1)) s).peekN (okLoad (sumOf s + 1)).src (kindBytes (okLoad (sumOf s + 1)).kind))
      ≠ (okLoad (sumOf s + 1)).crc := by
  have h : sumOf s ≠ sumOf s + 1 := by omega
  exact h

/-- A fold over a number that is evaluated at every element, so that the kernel keeps no unevaluated sum. -/
def strictFold (f : Nat → Byte → Nat) : Nat → List Byte → Nat
  | a, [] => a
  | 0, b :: l => strictFold f (f 0 b) l
  | n + 1, b :: l => strictFold f (f (n + 1) b) l

theorem strictFold_eq (f : Nat → Byte → Nat) (l : List Byte) : ∀ a, l.foldl f a = strictFold f a l := by
  induction l with
  | nil => intro a; cases a <;> rfl
  | cons b l ih => intro a; cases a <;> exact ih _

theorem bankGood_strict : bankGood = fun b =>
    decide (leAt b 0 4 = 0x42495A4B) && decide (leAt b 4 2 = 1)
      && decide (leAt b 0xFFC 4 = strictFold (crcByte 0x82F63B78) 0xFFFFFFFF (b.take 0xFFC) ^^^ 0xFFFFFFFF) := by
  funext b
  simp only [bankGood, crc32c, strictFold_eq]

theorem reelUsed_of {s : State} {n : Nat} (h : bankGood (s.volRead ((s.dirEntry n).start + 0x10000) 4096) = true)
    (k : bankGood (s.volRead ((s.dirEntry n).start + 0x20000) 4096) = false) :
    s.reelUsed n = leAt (s.volRead ((s.dirEntry n).start + 0x10000) 4096) 0x10 8 := by
  simp [State.reelUsed, State.newestBank, h, k]

theorem badRead_fits {s : State} {c : Cmd} {h : HostData} (n : c.nsid = 2) (t : s.nsType 2 = 1) (g : s.badBuf c h true = false)
    (f : c.offset + ioLen h c s ≤ s.reelUsed 2) : badRead h c s = none := by
  simp [badRead, firstBad, n, t, g, f]

theorem reel_read_fits : badRead noData (st_NamespaceData_3.hq.cmds.get 5) st_NamespaceData_3 = none := by
  have u : st_NamespaceData_3.reelUsed 2 = 8388608 :=
    (reelUsed_of (by rw [bankGood_strict]; decide +kernel) (by rw [bankGood_strict]; decide +kernel)).trans (by decide +kernel)
  exact badRead_fits (by decide +kernel) (by decide +kernel) (by decide +kernel)
    (Nat.le_trans (m := 512) (by decide +kernel) (u ▸ by decide))

/-! ### Ill-formed terms

For each check of WellFormed a term that fails only this check is refused, and the greatest value that it admits is not. -/

/-- Refused: a register offset beyond the space. -/
theorem test_wf_off : (
    [.registerWrite .pf0 4214784 0 0, .guardWindowWrite .pf0 384 0, .registerRead .pf0 0x400000 0]
    : List Instr).all (fun i => !i.wf) = true := by decide +kernel

/-- Not refused: the greatest value in the same places. -/
theorem test_wf_off_greatest : (
    [.registerWrite .pf0 4214783 0 0, .guardWindowWrite .pf0 383 0, .registerRead .pf0 4194303 0]
    : List Instr).all Instr.wf = true := by decide +kernel

/-- Refused: byte enables of more than four bytes. -/
theorem test_wf_be : (
    [.registerWrite .pf0 0 16 0, .eventRead .pf0 0 16, .buserrInfoRead .pf0 16, .ueAddrRead .pf0 0 16, .registerRead .pf0 0 16]
    : List Instr).all (fun i => !i.wf) = true := by decide +kernel

/-- Not refused: the greatest value in the same places. -/
theorem test_wf_be_greatest : (
    [.registerWrite .pf0 0 15 0, .eventRead .pf0 0 15, .buserrInfoRead .pf0 15, .ueAddrRead .pf0 0 15, .registerRead .pf0 0 15]
    : List Instr).all Instr.wf = true := by decide +kernel

/-- Refused: a page number that does not exist. -/
theorem test_wf_page : (
    [.eventRead .pf0 1024 0, .eventTest .pf0 1024 0, .commitReq .pf0 1024 0, .pwrReqWrite .pf0 256 0, .powerDrainDone 256,
      .drainTimeout 256, .domainOn 256]
    : List Instr).all (fun i => !i.wf) = true := by decide +kernel

/-- Not refused: the greatest value in the same places. -/
theorem test_wf_page_greatest : (
    [.eventRead .pf0 1023 0, .eventTest .pf0 1023 0, .commitReq .pf0 1023 0, .pwrReqWrite .pf0 255 0, .powerDrainDone 255,
      .drainTimeout 255, .domainOn 255]
    : List Instr).all Instr.wf = true := by decide +kernel

/-- Refused: an index or a value out of its range. -/
theorem test_wf_number_1 : (
    [.msixSend .pf0 64, .porRelease 16, .rxAlign 0 16777216, .rxSof 0 4294967296 0, .rxSol 0 0 65536 0 0 0, .rxSol 0 0 0 4 0 0,
      .rxSol 0 0 0 0 2 0, .rxSol 0 0 0 0 0 65536, .rxEof 0 4294967296 0, .rxEof 0 0 65536, .splitFrameStart 8, .splitGroupPublish 8,
      .rendFrameDone 8, .slotCfgWrite .pf0 64 0, .drawCoreFault 16, .hencPictureBegin 8, .hencPictureDone 8, .hencCoreFault 8,
      .hdecInProd .pf0 2 0, .hdecRecordDone 2, .cqCoalesceTimeout .pf0 64, .healthPoll 0 256 0 0, .healthPoll 0 0 256 0,
      .healthPoll 0 0 0 65536, .loupeEnable .pf0 4 0, .loupeSamplePoint 4, .loupeLine 4 ⟨false, false, false, false, 0⟩, .lockLost 4,
      .mirrorLineCheck 4 ⟨true, false, 0, 0⟩, .flowEnable .pf0 16 0]
    : List Instr).all (fun i => !i.wf) = true := by decide +kernel

/-- Not refused: the greatest value in the same places. -/
theorem test_wf_number_greatest_1 : (
    [.msixSend .pf0 63, .porRelease 15, .rxAlign 0 16777215, .rxSof 0 4294967295 0, .rxSol 0 0 65535 0 0 0, .rxSol 0 0 0 3 0 0,
      .rxSol 0 0 0 0 1 0, .rxSol 0 0 0 0 0 65535, .rxEof 0 4294967295 0, .rxEof 0 0 65535, .splitFrameStart 7, .splitGroupPublish 7,
      .rendFrameDone 7, .slotCfgWrite .pf0 63 0, .drawCoreFault 15, .hencPictureBegin 7, .hencPictureDone 7, .hencCoreFault 7,
      .hdecInProd .pf0 1 0, .hdecRecordDone 1, .cqCoalesceTimeout .pf0 63, .healthPoll 0 255 0 0, .healthPoll 0 0 255 0,
      .healthPoll 0 0 0 65535, .loupeEnable .pf0 3 0, .loupeSamplePoint 3, .loupeLine 3 ⟨false, false, false, false, 0⟩, .lockLost 3,
      .mirrorLineCheck 3 ⟨true, false, 0, 0⟩, .flowEnable .pf0 15 0]
    : List Instr).all Instr.wf = true := by decide +kernel

/-- Refused: an index or a value out of its range. -/
theorem test_wf_number_2 : (
    [.st2110PacketSend 16 true, .ethRxFrame 2 [], .ethLinkChange 2 true, .audEnable .pf0 4 0, .tdmFrameBoundary 4, .audSyncEdge 4 0,
      .audClockLost 4, .audSlot 4 0, .audSlot 0 4294967296, .relayChStart .pf0 8 0, .relayChAbort .pf0 8 0, .relayDescFetch 8,
      .relayDescDone 8, .relayBusError 18446744073709551616 0 true, .relayBusError 0 3 true, .retrainGatherDone 65536 0 true,
      .ueAddrRead .pf0 8 0, .powerMeasure 65536, .fecCodeword 2 true, .rxEol 0 ⟨65536, []⟩, .rxEol 0 ⟨0, [65536]⟩]
    : List Instr).all (fun i => !i.wf) = true := by decide +kernel

/-- Not refused: the greatest value in the same places. -/
theorem test_wf_number_greatest_2 : (
    [.st2110PacketSend 15 true, .ethRxFrame 1 [], .ethLinkChange 1 true, .audEnable .pf0 3 0, .tdmFrameBoundary 3, .audSyncEdge 3 0,
      .audClockLost 3, .audSlot 3 0, .audSlot 0 4294967295, .relayChStart .pf0 7 0, .relayChAbort .pf0 7 0, .relayDescFetch 7,
      .relayDescDone 7, .relayBusError 18446744073709551615 0 true, .relayBusError 0 2 true, .retrainGatherDone 65535 0 true,
      .ueAddrRead .pf0 7 0, .powerMeasure 65535, .fecCodeword 1 true, .rxEol 0 ⟨65535, []⟩, .rxEol 0 ⟨0, [65535]⟩]
    : List Instr).all Instr.wf = true := by decide +kernel

/-- Refused: a tag beyond 16,383 (R288). -/
theorem test_wf_tag : (
    [.setMode 16384 ⟨none, none⟩, .saveSettings 16384, .rxSof 0 0 65536, .commandFetch 16384 none, .completionPost 16384,
      .createSq 16384, .deleteSq 16384, .createCq 16384, .deleteCq 16384, .identify 16384 ⟨none, none⟩, .getLogPage 16384 ⟨none, none⟩,
      .abort 16384, .setCoalescing 16384, .checkConfig 16384 ⟨none, none⟩, .createNamespace 16384, .deleteNamespace 16384,
      .firmwareLoad 16384 ⟨none, none⟩ true, .firmwareHandover 16384, .attest 16384 ⟨none, none⟩, .arrayLease 16384,
      .read 16384 ⟨none, none⟩, .write 16384 ⟨none, none⟩, .appendMetadata 16384 ⟨none, none⟩, .loadSlot 16384,
      .compress 16384 ⟨none, none⟩, .decompress 16384 ⟨none, none⟩, .dramEccError ⟨0, false, some 16384⟩]
    : List Instr).all (fun i => !i.wf) = true := by decide +kernel

/-- Not refused: the greatest value in the same places. -/
theorem test_wf_tag_greatest : (
    [.setMode 16383 ⟨none, none⟩, .saveSettings 16383, .rxSof 0 0 65535, .commandFetch 16383 none, .completionPost 16383,
      .createSq 16383, .deleteSq 16383, .createCq 16383, .deleteCq 16383, .identify 16383 ⟨none, none⟩, .getLogPage 16383 ⟨none, none⟩,
      .abort 16383, .setCoalescing 16383, .checkConfig 16383 ⟨none, none⟩, .createNamespace 16383, .deleteNamespace 16383,
      .firmwareLoad 16383 ⟨none, none⟩ true, .firmwareHandover 16383, .attest 16383 ⟨none, none⟩, .arrayLease 16383,
      .read 16383 ⟨none, none⟩, .write 16383 ⟨none, none⟩, .appendMetadata 16383 ⟨none, none⟩, .loadSlot 16383,
      .compress 16383 ⟨none, none⟩, .decompress 16383 ⟨none, none⟩, .dramEccError ⟨0, false, some 16383⟩]
    : List Instr).all Instr.wf = true := by decide +kernel

/-- Refused: a port beyond the second. -/
theorem test_wf_port : (
    [.linkTrain .pf0 2 0, .eqAdaptDone 2, .trainTimeout 2, .rxAlign 2 0, .rxSof 2 0 0, .rxMeta 2 [0, 0, 0, 0, 0, 0, 0],
      .rxSol 2 0 0 0 0 0, .rxPacket 2 ⟨0, 0, 0, [1], 0, true, true⟩, .rxEol 2 ⟨0, []⟩, .rxEof 2 0 0, .rxSmsg 2 0 0 0,
      .fallbackAckTimeout 2, .bcAckTimeout 2, .bcMailboxGo .pf0 2 0, .heartbeat 2, .frameStart 2, .lineTimeout 2, .mediaEnable .pf0 2 0,
      .mediaReset .pf0 2 0, .mediaPortReady 2 ⟨true, 0, 4096, 0, 0, 8, true, 4, 4⟩, .mediaLinkDown 2, .nvmeCompletion 2 0 true,
      .nvmeTimeout 2 0, .healthPoll 2 0 0 0, .triggerEdge 2, .triggerPulseEnd 2, .supplySeqStep 2]
    : List Instr).all (fun i => !i.wf) = true := by decide +kernel

/-- Not refused: the greatest value in the same places. -/
theorem test_wf_port_greatest : (
    [.linkTrain .pf0 1 0, .eqAdaptDone 1, .trainTimeout 1, .rxAlign 1 0, .rxSof 1 0 0, .rxMeta 1 [0, 0, 0, 0, 0, 0, 0],
      .rxSol 1 0 0 0 0 0, .rxPacket 1 ⟨0, 0, 0, [1], 0, true, true⟩, .rxEol 1 ⟨0, []⟩, .rxEof 1 0 0, .rxSmsg 1 0 0 0,
      .fallbackAckTimeout 1, .bcAckTimeout 1, .bcMailboxGo .pf0 1 0, .heartbeat 1, .frameStart 1, .lineTimeout 1, .mediaEnable .pf0 1 0,
      .mediaReset .pf0 1 0, .mediaPortReady 1 ⟨true, 0, 4096, 0, 0, 8, true, 4, 4⟩, .mediaLinkDown 1, .nvmeCompletion 1 0 true,
      .nvmeTimeout 1 0, .healthPoll 1 0 0 0, .triggerEdge 1, .triggerPulseEnd 1, .supplySeqStep 1]
    : List Instr).all Instr.wf = true := by decide +kernel

/-- Refused: a lane beyond 47 or a logical lane beyond 15. -/
theorem test_wf_lane : (
    [.laneLos 48, .laneLosClear 48, .cdrLoss 48, .cdrLock 48, .blockLockGained 48, .blockLockLost 48, .alignNeeded 48,
      .rxSol 0 16 0 0 0 0, .testCtrlWrite .pf0 48 0, .injectOne .pf0 48 0, .checkerSyncLost 48 0 0,
      .checkerSyncGained ⟨48, List.replicate 64 true⟩]
    : List Instr).all (fun i => !i.wf) = true := by decide +kernel

/-- Not refused: the greatest value in the same places. -/
theorem test_wf_lane_greatest : (
    [.laneLos 47, .laneLosClear 47, .cdrLoss 47, .cdrLock 47, .blockLockGained 47, .blockLockLost 47, .alignNeeded 47,
      .rxSol 0 15 0 0 0 0, .testCtrlWrite .pf0 47 0, .injectOne .pf0 47 0, .checkerSyncLost 47 0 0,
      .checkerSyncGained ⟨47, List.replicate 64 true⟩]
    : List Instr).all Instr.wf = true := by decide +kernel

/-- Refused: bytes, samples or channels of a wrong number. -/
theorem test_wf_length : (
    [.rxMeta 0 [], .dramTempPoll [], .thermSample [], .commandFetch 0 (some []), .rxPacket 0 ⟨0, 0, 0, [], 0, true, true⟩,
      .rxPacket 0 ⟨0, 0, 0, zeros 513, 0, true, true⟩, .rxEol 0 ⟨0, List.replicate 17 0⟩, .checkerSyncGained ⟨0, [true]⟩,
      .dramTrainingDone ⟨[16]⟩]
    : List Instr).all (fun i => !i.wf) = true := by decide +kernel

/-- Not refused: the greatest value in the same places. -/
theorem test_wf_length_greatest : (
    [.rxMeta 0 [0, 0, 0, 0, 0, 0, 0], .dramTempPoll [(0, 0), (0, 0), (0, 0), (0, 0), (0, 0), (0, 0), (0, 0), (0, 0)],
      .thermSample [0, 0, 0, 0, 0, 0, 0, 0, 0, 0, 0, 0, 0, 0, 0, 0], .commandFetch 0 (some (zeros 64)),
      .rxPacket 0 ⟨0, 0, 0, [1], 0, true, true⟩, .rxPacket 0 ⟨0, 0, 0, zeros 512, 0, true, true⟩, .rxEol 0 ⟨0, List.replicate 16 0⟩,
      .checkerSyncGained ⟨0, List.replicate 64 true⟩, .dramTrainingDone ⟨[0, 0, 0, 0, 0, 0, 0, 0]⟩]
    : List Instr).all Instr.wf = true := by decide +kernel

/-- Refused: a field of an arriving message out of its range. -/
theorem test_wf_field : (
    [.rxTrain ⟨16, false, 0, 0, 8, false, false, 0⟩, .rxTrain ⟨0, false, 16, 0, 8, false, false, 0⟩,
      .rxTrain ⟨0, false, 0, 2, 8, false, false, 0⟩, .rxTrain ⟨0, false, 0, 0, 32, false, false, 0⟩,
      .rxTrain ⟨0, false, 0, 0, 8, false, false, 64⟩, .rxPacket 0 ⟨16, 0, 0, [1], 0, true, true⟩,
      .rxPacket 0 ⟨0, 65536, 0, [1], 0, true, true⟩, .rxPacket 0 ⟨0, 0, 65536, [1], 0, true, true⟩,
      .rxPacket 0 ⟨0, 0, 0, [1], 4294967296, true, true⟩, .mediaPortReady 0 ⟨true, 18446744073709551616, 4096, 0, 0, 8, true, 4, 4⟩,
      .mediaPortReady 0 ⟨true, 0, 4096, 0, 0, 8, true, 5, 4⟩, .mediaPortReady 0 ⟨true, 0, 4096, 0, 0, 8, true, 4, 6⟩,
      .mirrorLineCheck 0 ⟨true, false, 65536, 0⟩, .mirrorLineCheck 0 ⟨true, false, 0, 4294967296⟩,
      .loupeLine 0 ⟨false, false, false, false, 16⟩, .ptpSync ⟨2, true, 0, 0, 0, 0, 0, 0, 0⟩, .ptpSync ⟨0, true, 256, 0, 0, 0, 0, 0, 0⟩,
      .ptpSync ⟨0, true, 0, 0, 0, 0, 281474976710656, 0, 0⟩, .ptpSync ⟨0, true, 0, 0, 0, 0, 0, 1000000000, 0⟩,
      .ptpAnnounce ⟨2, true, 0, 0, 0, 0, 0, 0, 0, 0, 0, 0, 0, 0⟩, .ptpAnnounce ⟨0, true, 256, 0, 0, 0, 0, 0, 0, 0, 0, 0, 0, 0⟩,
      .ptpDelayResp ⟨2, true, 0, 0, 0, 0, 0, 0⟩, .ptpDelayResp ⟨0, true, 256, 0, 0, 0, 0, 0⟩,
      .ptpDelayResp ⟨0, true, 0, 0, 0, 281474976710656, 0, 0⟩, .ptpDelayResp ⟨0, true, 0, 0, 0, 0, 1000000000, 0⟩]
    : List Instr).all (fun i => !i.wf) = true := by decide +kernel

/-- Not refused: the greatest value in the same places. -/
theorem test_wf_field_greatest : (
    [.rxTrain ⟨15, false, 0, 0, 8, false, false, 0⟩, .rxTrain ⟨0, false, 15, 0, 8, false, false, 0⟩,
      .rxTrain ⟨0, false, 0, 1, 8, false, false, 0⟩, .rxTrain ⟨0, false, 0, 0, 31, false, false, 0⟩,
      .rxTrain ⟨0, false, 0, 0, 8, false, false, 63⟩, .rxPacket 0 ⟨15, 0, 0, [1], 0, true, true⟩,
      .rxPacket 0 ⟨0, 65535, 0, [1], 0, true, true⟩, .rxPacket 0 ⟨0, 0, 65535, [1], 0, true, true⟩,
      .rxPacket 0 ⟨0, 0, 0, [1], 4294967295, true, true⟩, .mediaPortReady 0 ⟨true, 18446744073709551615, 4096, 0, 0, 8, true, 4, 4⟩,
      .mediaPortReady 0 ⟨true, 0, 4096, 0, 0, 8, true, 4, 4⟩, .mediaPortReady 0 ⟨true, 0, 4096, 0, 0, 8, true, 4, 5⟩,
      .mirrorLineCheck 0 ⟨true, false, 65535, 0⟩, .mirrorLineCheck 0 ⟨true, false, 0, 4294967295⟩,
      .loupeLine 0 ⟨false, false, false, false, 15⟩, .ptpSync ⟨1, true, 0, 0, 0, 0, 0, 0, 0⟩, .ptpSync ⟨0, true, 255, 0, 0, 0, 0, 0, 0⟩,
      .ptpSync ⟨0, true, 0, 0, 0, 0, 281474976710655, 0, 0⟩, .ptpSync ⟨0, true, 0, 0, 0, 0, 0, 999999999, 0⟩,
      .ptpAnnounce ⟨1, true, 0, 0, 0, 0, 0, 0, 0, 0, 0, 0, 0, 0⟩, .ptpAnnounce ⟨0, true, 255, 0, 0, 0, 0, 0, 0, 0, 0, 0, 0, 0⟩,
      .ptpDelayResp ⟨1, true, 0, 0, 0, 0, 0, 0⟩, .ptpDelayResp ⟨0, true, 255, 0, 0, 0, 0, 0⟩,
      .ptpDelayResp ⟨0, true, 0, 0, 0, 281474976710655, 0, 0⟩, .ptpDelayResp ⟨0, true, 0, 0, 0, 0, 999999999, 0⟩]
    : List Instr).all Instr.wf = true := by decide +kernel

/-! ### The manual's worked examples -/

/-- The three rows of the table of R131: high gain, a blend and low gain, with PED20 at 4,096. -/
theorem test_dual_gain_merge :
    let m : Merge := ⟨256, 256, 49152, 13, 16000, 4096, 0x8000⟩
    (m.value 14 1280 384 41, m.value 14 13056 1856 41, m.value 14 16383 9000 41)
      = ((8192, false), (55424, false), (286705, false)) := by decide +kernel

/-- LINE_STRIDE and SLOT_SIZE of 8,192 × 4,320 at 14 bits (the example of R130). -/
theorem test_slot_size : lineStride 8192 14 = 14336 ∧ slotPages 4320 14336 = 15122 := by decide +kernel

/-- The second to fourth codes of the example of R217: 12 at A = 4, N = 1; 13 at A = 16, N = 2; 22 at A = 29, N = 3. -/
theorem test_rice_codes :
    riceK 14 (4, 1) = 2 ∧ riceCode 14 2 12 = [true, true, true, false, false, false]
      ∧ riceNext (4, 1) 12 = (16, 2) ∧ riceK 14 (16, 2) = 3 ∧ riceCode 14 3 13 = [true, false, true, false, true]
      ∧ riceNext (16, 2) 13 = (29, 3) ∧ riceK 14 (29, 3) = 4 ∧ riceCode 14 4 22 = [true, false, false, true, true, false] := by
  decide +kernel

/-- The errors of the example of R217 as they are folded: 6, −7 and 11. -/
theorem test_rice_fold : rawFold 6 = 12 ∧ rawFold (-7) = 13 ∧ rawFold 11 = 22 := by decide +kernel

/-- The 3D LUT example of R168: 27/64, 53/128 and 55/128 in a LUT of 33 nodes give the red code 0x3D_B334. -/
theorem test_lut_example :
    (lut3 33 (fun i _ => if i = 14599 then ⟨26214, 65535⟩ else if i = 15688 then ⟨27525, 65535⟩
        else if i = 15689 then ⟨28180, 65535⟩ else if i = 15722 then ⟨29491, 65535⟩ else ⟨0, 1⟩)
      (pfRound ⟨27, 64⟩, pfRound ⟨53, 128⟩, pfRound ⟨55, 128⟩)).1 = 0x3DB334 := by decide +kernel

/-- The summary example of R49 and R51: PRISM_BE5 is page 93, and its events show in bit 29 of EVENT_SUMMARY2. -/
theorem test_summary_bit :
    ((up .standby).having 93 [(Reg.COMMON_EVENT_EN, 1), (Reg.COMMON_EVENT_COMMIT_DONE, 1)]).summary 2 = BitVec.ofNat 32 (2 ^ 29) := by
  decide +kernel

/-- The stripe example of R321: reel offset 1,000,000,000 of a reel at 8 GiB on two drives lies on MEMBER 0 at byte 4,804,233,728. -/
theorem test_stripe_place :
    (⟨2, [0, 1], 0, [], 0, []⟩ : Volume).place (8 * 1073741824 + 1000000000) = (0, 4804233728) := by decide +kernel

/-- CRC-32C of the nine digits 1 to 9 (the check value of R84's polynomial, of general knowledge). -/
theorem test_crc32c : crc32c [0x31, 0x32, 0x33, 0x34, 0x35, 0x36, 0x37, 0x38, 0x39] = 0xE3069283 := by decide +kernel

/-- The interleaving example of R442: under order 0 the address 0x0000_0001_2345_6780 lies in channel 5. -/
theorem test_dram_channel : (dramPlace 0 0x123456780).channel = 5 := by decide +kernel

/-- The rate example of R252 and R253: a P picture of 1,900,000 bits against a target of 1,626,015 meets five thresholds, so Δ is 1. -/
theorem test_rate_step : rateStep 1900000 1626015 = 1 := by decide +kernel

/-- The ends of the PQ table of R172 and R173: F(1) is 1, and F(0) is c1 to the power m2, 0.77 units of 2^−20. -/
theorem test_pq_ends : curveNode 1 1536 = 1048576 ∧ curveNode 1 1537 = 1 := by decide +kernel

/-- HLG at E = 1/4: above 1/12 the logarithm holds, a·ln(3 − b) + c, which is 774,425 units of 2^−20 (R172, by hand). -/
theorem test_hlg_quarter : fxRound 20 (hlgCurve (fxRat 1 4)) = 774425 := by decide +kernel

/-- The horizontal weights of phase 0 in bank 0 are those of the centre tap alone, and every phase sums to 16,384 (R189, R190). -/
theorem test_weights :
    (List.range 8).map (polyWeight 0 0 0) = [0, 0, 0, 16384, 0, 0, 0, 0] ∧ ((List.range 8).map (polyWeight 0 3 17)).sum = 16384 := by
  decide +kernel

/-- An access unit delimiter: start code, NAL header of type 35, and pic_type 1 with its trailing bits (R240). -/
theorem test_aud : audNal 1 = [0, 0, 0, 1, 0x46, 0x01, 0x30] := by decide +kernel

/-- SHA-384 of the three letters a, b, c (the example of FIPS 180-4, of general knowledge): its first eight bytes. -/
theorem test_sha384 : (sha384 [0x61, 0x62, 0x63]).take 8 = [0xcb, 0x00, 0x75, 0x3f, 0x45, 0xa3, 0x5e, 0x8b] := by decide +kernel

/-! ### Commands -/

/-- REGISTER_READ of a reserved page is a bus error: the reply is an abort (R44). -/
theorem test_read_reserved_page :
    (match exec (.registerRead .pf0 0x003000 15) (up .standby) with
      | .next t => decide (t.out = [.readAbort .pf0 0x003000])
      | _ => false) = true := by decide +kernel

/-- REGISTER_WRITE of an RW register: the value is read back (R41). -/
theorem test_write_reads_back :
    (match exec (.registerWrite .pf0 0x09C048 15 50) (up .standby) with
      | .next t => decide (t.fld Pg.recorder Reg.RECORDER_FLUSH = 50)
      | _ => false) = true := by decide +kernel

/-- An empty queue: nothing but the time may move (log 1). -/
theorem test_idle : (match step (up .standby) with | .next t => decide (t.regs = (up .standby).regs) | _ => false) = true := by
  decide +kernel

/-- No word spells a command, and withFetchWord leaves the state as it is (the table gives no bits). -/
theorem test_no_words : Sys2Proof.decodeTableWord 32 0 = none := by decide +kernel

/-! ### Witnesses -/

theorem witness_StepRunsFront :
    (∃ (s : State) (c : Instr) (rest : List Instr), s.pending = c :: rest) ∧
    (∃ (s : State), s.pending = []) :=
  ⟨⟨wq, (.msixCreditRefill), [.restoreDone], by decide +kernel⟩,
   ⟨(up .standby), by decide +kernel⟩⟩

theorem witness_StepKeepsForms :
    ∃ s t : State, s.Inv ∧ step s = .next t :=
  ⟨unplug, _, by unfold State.Inv State.RegsOk State.DramOk State.FstoreOk State.ClusterOk; decide +kernel, rfl⟩

theorem witness_NumbersStayUnique :
    ∃ s t : State, s.NumbersOk ∧ step s = .next t :=
  ⟨unplug, _, by unfold State.NumbersOk State.NumbersUnique; decide +kernel, rfl⟩

theorem witness_CommitsStayShadows :
    ∃ s t : State, s.CommitsOk ∧ step s = .next t :=
  ⟨unplug, _, by unfold State.CommitsOk; decide +kernel, rfl⟩

theorem witness_RegisterWrites :
    (∃ (s : State) (r : Req) (p o : Nat) (v : Word) (b : Blk) (i : Nat), pageBlk p = some (b, i) ∧ b ∈ plainBlocks ∧ 64 ≤ o ∧ o < 4096 ∧ o %
      4 = 0 ∧ s.accepts r p o v = true ∧ (s.recovering.isSome && drivesChange p o (s.rd (p * 4096 + o)) (s.written r p o v)) = false) ∧
    (∃ (s : State) (r : Req) (off be : Nat), off < 4194304 ∧ s.reach r = true ∧ (be % 16 ≠ 15 ∨ off % 4 ≠ 0)) ∧
    (∃ (s : State) (r : Req) (p o : Nat), p < 1024 ∧ 40 ≤ o ∧ o < 4096 ∧ o % 4 = 0 ∧ s.reach r = true ∧ fieldsAt p o = none) ∧
    (∃ (s : State) (p o : Nat) (v : Word) (b : Blk) (i : Nat), (pageBlk p = some (b, i) ∧ b ∈ plainBlocks ∧ 64 ≤ o ∧ o < 4096 ∧ o % 4 = 0 ∧
      s.reach Req.pf1 = true) ∧ ∃ fs, fieldsAt p o = some fs ∧ (∀ f ∈ fs, f.prv = true) ∧ denies p o fs v = true) ∧
    (∃ (s : State) (r : Req) (p o : Nat) (b : Blk) (i : Nat), (pageBlk p = some (b, i) ∧ b ∈ plainBlocks ∧ 64 ≤ o ∧ o < 4096 ∧ o % 4 = 0 ∧ r
      ≠ Req.pf1 ∧ s.reach r = true ∧ s.domainOff p = true) ∧ ∃ fs, fieldsAt p o = some fs ∧ fs ≠ []) ∧
    (∃ (s : State) (r : Req) (p o : Nat) (v : Word) (b : Blk) (i : Nat), (pageBlk p = some (b, i) ∧ b ∈ plainBlocks ∧ b ≠ Blk.therm ∧ 64 ≤ o
      ∧ o < 4096 ∧ o % 4 = 0 ∧ r ≠ Req.pf1 ∧ s.reach r = true ∧ s.domainOff p = false) ∧ ∃ fs, fieldsAt p o = some fs ∧ (∀ f ∈ fs, f.kind ≠
      AccKind.w1) ∧ writeMask fs v ≠ 0 ∧ ((∃ f ∈ fs, f.touchSo (s.rd (p * 4096 + o)) v = true ∧ s.soClosed p o f = true) ∨ s.heldClosed (p *
      4096 + o) p o = true)) ∧
    (∃ (s : State) (r : Req) (v : Word), s.accepts r Pg.recorder 64 v = true ∧ s.recovering.isSome = true ∧ wfld (s.rd (Pg.recorder * 4096 +
      64)) Reg.RECORDER_CFG_DRIVES ≠ wfld (s.written r Pg.recorder 64 v) Reg.RECORDER_CFG_DRIVES) ∧
    (∃ (s : State) (r : Req) (o : Nat) (v : Word), ((o = 72 ∨ o = 76 ∨ o = 80) ∧ r ≠ Req.pf1 ∧ s.reach r = true ∧ s.domainOff Pg.therm =
      false ∧ BitVec.getLsbD (s.rd (Pg.therm * 4096 + 32)) 0 = true) ∧ ∃ fs, fieldsAt Pg.therm o = some fs ∧ writeMask fs v ≠ 0) :=
  ⟨⟨(up .standby), .pf0, Pg.recorder, 0x040, 0x5#32, .recorder, 0, by decide +kernel⟩,
   ⟨(up .standby), .fw, 0x3FFFFF, 15, by decide +kernel⟩,
   ⟨(up .standby), .fw, 0x3FF, 0xFFC, by decide +kernel⟩,
   ⟨(up .standby), Pg.pwr, 0x048, 0x5#32, .pwr, 0, by decide +kernel, ex_some (by decide +kernel)⟩,
   ⟨((up .standby).having Pg.recorder [(Reg.COMMON_PWR_REQ_STATUS, 0)]), .pf0, Pg.recorder, 0x040, .recorder, 0, by decide +kernel, ex_some
     (by decide +kernel)⟩,
   ⟨(taking .live), .pf0, Pg.ingress, 0x040, 0x5#32, .ingress, 0, by decide +kernel, ex_some (by decide +kernel)⟩,
   ⟨st_RegisterWrites_7, .pf0, 0x2#32, by decide +kernel⟩,
   ⟨((up .standby).wr (Pg.therm * 0x1000 + 0x020) 1), .pf0, 0x048, 0x5#32, by decide +kernel, ex_some (by decide +kernel)⟩⟩

theorem witness_EventReadClears :
    ∃ (s : State) (r : Req) (p : Nat), s.reach r = true ∧ ∃ fs, fieldsAt p 16 = some fs :=
  ⟨((up .standby).wr (0x010) 0xFFFFFFFF), .pf0, 0, by decide +kernel, ex_isSome (by decide +kernel)⟩

theorem witness_BusErrorRecord :
    (∃ (s : State) (r : Req), s.reach r = true ∧ s.domainOff Pg.global = false) ∧
    (∃ (s : State) (r : Req), s.reach r = true ∧ s.domainOff Pg.global = false) :=
  ⟨⟨((up .standby).wr 0x204 0xFFFFFFFF), .pf0, by decide +kernel⟩,
   ⟨((up .standby).wr 0x200 0xFFFFFFFF), .pf1, by decide +kernel⟩⟩

theorem witness_SummaryBits :
    ∃ (s : State) (r : Req) (m : Nat), m < 8 ∧ s.reach r = true ∧ s.domainOff Pg.global = false :=
  ⟨((up .standby).wr (Pg.recorder*0x1000+ 0x010) 0xFFFFFFFF), .pf1, 7, by decide +kernel⟩

theorem witness_EventsAndMessages :
    (∃ (s : State) (r : Req) (p : Nat) (v : Word), s.accepts r p 24 v = true ∧ ∃ fs, fieldsAt p 16 = some fs) ∧
    (∃ (s : State) (fn : Fn) (v : Word), s.accepts (fnReq fn) Pg.global 160 v = true) ∧
    (∃ (s : State) (fn : Fn) (vec : Nat), s.ctl.latches.contains (fnNum fn * 64 + vec) = true ∧ (s.msixWord fn (4 * vec + 3)).testBit 0 =
      false ∧ (s.pciFn fn).msixOpen = true ∧ 0 < s.credit fn) ∧
    (∃ (s : State) (fn : Fn) (vec : Nat), s.ctl.latches.contains (fnNum fn * 64 + vec) = true ∧ (s.msixWord fn (4 * vec + 3)).testBit 0 =
      false ∧ (s.pciFn fn).msixOpen = true ∧ s.credit fn = 0 ∧ s.ctl.throttled.contains (fnNum fn * 64 + vec) = false) ∧
    (∃ (s : State) (fn : Fn) (vec : Nat), ((s.msixWord fn (4 * vec + 3)).testBit 0 = true ∨ (s.pciFn fn).msixOpen = false)) ∧
    (∃ (s : State), 0 < s.fld Pg.guard Reg.GUARD_MSIX_CAP_RATE ∧ 0 < s.fld Pg.guard Reg.GUARD_MSIX_CAP_BURST) :=
  ⟨⟨(up .standby), .pf0, Pg.recorder, 0xFFFFFFFF#32, by decide +kernel, ex_isSome (by decide +kernel)⟩,
   ⟨(up .standby), .pf1, 63#32, by decide +kernel⟩,
   ⟨wmsk, .pf1, 63, by decide +kernel⟩,
   ⟨wmsk, .pf0, 0, by decide +kernel⟩,
   ⟨(up .standby), .pf0, 63, by decide +kernel⟩,
   ⟨(((up .standby).setFld Pg.guard Reg.GUARD_MSIX_CAP_RATE 3).setFld Pg.guard Reg.GUARD_MSIX_CAP_BURST 2), by decide +kernel⟩⟩

theorem witness_Commits :
    (∃ (s : State) (r : Req) (p : Nat) (v : Word), p ≠ Pg.global ∧ s.accepts r p 28 v = true ∧ wfld v Reg.COMMON_COMMIT_REQ = 1 ∧ s.fld p
      Reg.COMMON_COMMIT_PENDING = 0 ∧ s.commitBarred p (wfld (s.written r p 28 v) Reg.COMMON_COMMIT_SOURCE) true = false ∧ (s.setFld p
      Reg.COMMON_COMMIT_SOURCE (wfld (s.written r p 28 v) Reg.COMMON_COMMIT_SOURCE)).commitRefused p = none ∧ (wfld (s.written r p 28 v)
      Reg.COMMON_COMMIT_SOURCE = 0 ∧ isLoupe p = false ∨ s.running p = true)) ∧
    (∃ (s : State) (r : Req) (p : Nat) (v : Word), p ≠ Pg.global ∧ s.accepts r p 28 v = true ∧ wfld v Reg.COMMON_COMMIT_REQ = 1 ∧ s.fld p
      Reg.COMMON_COMMIT_PENDING = 0 ∧ s.commitBarred p (wfld (s.written r p 28 v) Reg.COMMON_COMMIT_SOURCE) true = false ∧ (s.setFld p
      Reg.COMMON_COMMIT_SOURCE (wfld (s.written r p 28 v) Reg.COMMON_COMMIT_SOURCE)).commitRefused p = none ∧ (wfld (s.written r p 28 v)
      Reg.COMMON_COMMIT_SOURCE ≠ 0 ∨ isLoupe p = true) ∧ s.running p = false) ∧
    (∃ (s : State) (r : Req) (p : Nat) (v : Word), p ≠ Pg.global ∧ s.accepts r p 28 v = true ∧ wfld v Reg.COMMON_COMMIT_REQ = 1 ∧ s.fld p
      Reg.COMMON_COMMIT_PENDING = 1 ∧ s.commitBarred p (wfld (s.written r p 28 v) Reg.COMMON_COMMIT_SOURCE) true = false) ∧
    (∃ (s : State) (r : Req) (p : Nat) (v : Word), p ≠ Pg.global ∧ s.accepts r p 28 v = true ∧ s.commitBarred p (wfld (s.written r p 28 v)
      Reg.COMMON_COMMIT_SOURCE) (decide (wfld v Reg.COMMON_COMMIT_REQ = 1)) = true) ∧
    (∃ (s : State) (r : Req) (v : Word), s.accepts r Pg.global 28 v = true ∧ wfld v Reg.GLOBAL_COMMIT_REQ = 1 ∧ s.takeOrReview = true ∧
      s.ctl.groups.length < 8 ∧ List.filter s.armed allPages ≠ [] ∧ s.frameNow + 2 ≤ s.fld64 Pg.global Reg.GLOBAL_COMMIT_FRAME_LO
      Reg.GLOBAL_COMMIT_FRAME_HI) ∧
    (∃ (s : State) (r : Req) (v : Word), s.accepts r Pg.global 28 v = true ∧ wfld v Reg.GLOBAL_COMMIT_REQ = 1 ∧ (s.takeOrReview = false ∨ 8
      ≤ s.ctl.groups.length ∨ List.filter s.armed allPages = [] ∨ s.fld64 Pg.global Reg.GLOBAL_COMMIT_FRAME_LO Reg.GLOBAL_COMMIT_FRAME_HI <
      s.frameNow + 2)) :=
  ⟨⟨(up .standby), .pf0, Pg.ingress, (rq 0), by decide +kernel⟩,
   ⟨(up .standby), .pf0, Pg.ingress, (rq 2), by decide +kernel⟩,
   ⟨(arm Pg.ingress 0 (up .standby)), .pf0, Pg.ingress, (rq 0), by decide +kernel⟩,
   ⟨(up .standby), .pf0, Pg.ingress, (rq 3), by decide +kernel⟩,
   ⟨(cf 2 (arm Pg.ingress 0 (taking .live))), .pf0, (fv Reg.GLOBAL_COMMIT_REQ 1), by decide +kernel⟩,
   ⟨(cf 1 (arm Pg.ingress 0 (taking .live))), .pf0, (fv Reg.GLOBAL_COMMIT_REQ 1), by decide +kernel⟩⟩

theorem witness_Resets :
    (∃ (s : State) (v : Word), s.accepts Req.pf0 Pg.global 528 v = true ∧ wfld v Reg.GLOBAL_RESET_CTRL_GO = 1 ∧ wfld v
      Reg.GLOBAL_RESET_CTRL_KEY = 19290) ∧
    (∃ (s : State) (r : Req) (v : Word), s.accepts r Pg.global 528 v = true ∧ ¬(r = Req.pf0 ∧ wfld v Reg.GLOBAL_RESET_CTRL_GO = 1 ∧ wfld v
      Reg.GLOBAL_RESET_CTRL_KEY = 19290)) ∧
    (∃ (s : State), s.fwRuns = true ∧ s.fw.running = none ∧ s.idleReady = false) ∧
    (∃ (s : State), s.fwRuns = true ∧ s.fw.running = none ∧ s.idleReady = true ∧ s.ctl.capRun = true) ∧
    (∃ (s : State), s.fwRuns = true ∧ s.fw.running = none ∧ s.idleReady = true ∧ s.ctl.capRun = false) ∧
    (∃ (s : State), s.ctl.phase = Phase.inReset ∧ s.ctl.tripHold = false) ∧
    (∃ (s : State), s.ctl.tripHold = true) ∧
    (∃ (s : State), s.ctl.phase ≠ Phase.inReset ∧ s.ctl.mode ≠ Mode.sleep) ∧
    (∃ (s : State), s.ctl.phase = Phase.restoring) :=
  ⟨⟨(up .live), (fv Reg.GLOBAL_RESET_CTRL_GO 1 ||| key), by decide +kernel⟩,
   ⟨(up .live), .pf0, (fv Reg.GLOBAL_RESET_CTRL_GO 1), by decide +kernel⟩,
   ⟨oneSide, by decide +kernel⟩,
   ⟨st_Resets_6, by decide +kernel⟩,
   ⟨twoSides, by decide +kernel⟩,
   ⟨State.reset, by decide +kernel⟩,
   ⟨st_Resets_9, by decide +kernel⟩,
   ⟨(inPhase .standby .restoring), by decide +kernel⟩,
   ⟨(inPhase .standby .restoring), by decide +kernel⟩⟩

theorem witness_Saves :
    (∃ (s : State) (tag : Nat), s.starts tag 17) ∧
    (∃ (s : State) (r : Req) (v : Word), s.accepts r Pg.rstore 8 v = true ∧ wmSet v Reg.RSTORE_CTRL_SAVE = true ∧ wmSet v
      Reg.RSTORE_CTRL_ERASE = false) ∧
    (∃ (s : State) (r : Req) (v : Word), s.accepts r Pg.rstore 8 v = true ∧ wmSet v Reg.RSTORE_CTRL_ERASE = true ∧ wmSet v
      Reg.RSTORE_CTRL_SAVE = false ∧ s.ctl.phase = Phase.settled ∧ (s.ctl.mode = Mode.standby ∨ s.ctl.mode = Mode.service)) ∧
    (∃ (s : State) (r : Req) (v : Word), s.accepts r Pg.rstore 8 v = true ∧ wmSet v Reg.RSTORE_CTRL_ERASE = true ∧ s.quiet = false) ∧
    (∃ (s : State) (q : SaveReq) (b seq : Nat) (img : List Byte), s.rsm.running = some (q, b, seq, img)) :=
  ⟨⟨(op5 0x11 []), 5, by unfold State.starts State.mayRun; decide +kernel⟩,
   ⟨(up .standby), .pf0, (wm Reg.RSTORE_CTRL_SAVE 1), by decide +kernel⟩,
   ⟨(up .standby), .pf0, (wm Reg.RSTORE_CTRL_ERASE 1), by decide +kernel⟩,
   ⟨(up .live), .pf0, (wm Reg.RSTORE_CTRL_ERASE 1), by decide +kernel⟩,
   ⟨(saving none (op5 0x11 [])), ⟨1, [1], none⟩, 0, 1, [1, 2], by decide +kernel⟩⟩

theorem witness_QueuesBeginAndEnd :
    (∃ (s : State) (r : Req) (v : Word), (s.accepts r Pg.hostq 88 v = true ∧ wfld v Reg.HOSTQ_AQ_CTRL_EN = 1) ∧ ∃ fn, fn = (reqFn? r).getD
      Fn.pf0 ∧ s.on (hqPage fn) Reg.HOSTQ_AQ_CTRL_EN = false) ∧
    (∃ (s : State) (r : Req) (v : Word), (s.accepts r Pg.hostq 64 v = true ∧ wfld v Reg.HOSTQ_DOORBELL_HEAD = 0) ∧ ∃ fn, fn = (reqFn?
      r).getD Fn.pf0 ∧ ∃ k, k = qkey fn (wfld v Reg.HOSTQ_DOORBELL_QID) ∧ (s.hq.sqs.get k).live = true ∧ wfld v Reg.HOSTQ_DOORBELL_INDEX <
      (s.hq.sqs.get k).size ∧ (s.hq.sqs.get k).tail < (s.hq.sqs.get k).size) ∧
    (∃ (s : State) (r : Req) (v : Word), (s.accepts r Pg.hostq 64 v = true ∧ wfld v Reg.HOSTQ_DOORBELL_HEAD = 1) ∧ ∃ fn, fn = (reqFn?
      r).getD Fn.pf0 ∧ ∃ k, k = qkey fn (wfld v Reg.HOSTQ_DOORBELL_QID) ∧ ∃ q, q = s.hq.cqs.get k ∧ q.live = true ∧ wfld v
      Reg.HOSTQ_DOORBELL_INDEX < q.size ∧ (wfld v Reg.HOSTQ_DOORBELL_INDEX + q.size - q.head) % q.size ≤ (q.tail + q.size - q.head) %
      q.size) ∧
    (∃ (s : State) (r : Req) (v : Word), s.accepts r Pg.hostq 64 v = true ∧ ∃ fn, fn = (reqFn? r).getD Fn.pf0 ∧ ∃ k, k = qkey fn (wfld v
      Reg.HOSTQ_DOORBELL_QID) ∧ (if wfld v Reg.HOSTQ_DOORBELL_HEAD = 1 then (s.hq.cqs.get k).live = false ∨ (s.hq.cqs.get k).size ≤ wfld v
      Reg.HOSTQ_DOORBELL_INDEX else (s.hq.sqs.get k).live = false ∨ (s.hq.sqs.get k).size ≤ wfld v Reg.HOSTQ_DOORBELL_INDEX)) ∧
    (∃ (s : State) (r : Req) (v : Word), s.accepts r Pg.hostq 88 v = true ∧ wfld v Reg.HOSTQ_AQ_CTRL_EN = 0) :=
  ⟨⟨(up .standby), .pf0, ven, by decide +kernel, ex_eq (by decide +kernel)⟩,
   ⟨(withQ (up .standby)), .pf0, (db 0 1 1), by decide +kernel, ex_eq (ex_eq (by decide +kernel))⟩,
   ⟨(withQ (up .standby)), .pf0, (db 1 1 3), by decide +kernel, ex_eq (ex_eq (ex_eq (by decide +kernel)))⟩,
   ⟨(withQ (up .standby)), .pf0, (db 0 1 4), by decide +kernel, ex_eq (ex_eq (by decide +kernel))⟩,
   ⟨busy, .pf0, 0#32, by decide +kernel⟩⟩

theorem witness_CommandFetched :
    (∃ (s : State) (tag : Nat), (List.filter s.tagFor s.readyQueues ≠ [] ∧ tag < 16384 ∧ (s.hq.cmds.get tag).live = false) ∧ ∃ k, k =
      (s.arbitrate (List.filter s.tagFor s.readyQueues)).1 ∧ s.tagKind k (adminTag tag) = true) ∧
    (∃ (s : State), List.filter s.tagFor s.readyQueues ≠ []) ∧
    (∃ (s : State), s.freeTags = 0 ∧ s.readyQueues ≠ [] ∧ (∀ k ∈ s.readyQueues, k % 64 ≠ 0)) :=
  ⟨⟨fetchable, 16319, by decide +kernel, ex_eq (by decide +kernel)⟩,
   ⟨fetchable, by decide +kernel⟩,
   ⟨full, full_freeTags, by decide +kernel⟩⟩

theorem witness_CompletionsPosted :
    (∃ (s : State) (tag : Nat), ∃ c, c = s.hq.cmds.get tag ∧ (c.live = true ∧ c.stage = Stage.done) ∧ ∃ q, q = s.hq.cqs.get (qkey c.fn
      c.cqid) ∧ q.live = true ∧ (q.tail + 1) % q.size ≠ q.head) ∧
    (∃ (s : State) (tag : Nat), ∃ c, c = s.hq.cmds.get tag ∧ (c.live = true ∧ c.stage = Stage.done) ∧ ∃ q, q = s.hq.cqs.get (qkey c.fn
      c.cqid) ∧ q.live = true ∧ (q.tail + 1) % q.size = q.head) ∧
    (∃ (s : State) (fn : Fn) (qid : Nat), ∃ q, q = s.hq.cqs.get (qkey fn qid) ∧ q.live = true ∧ q.ien = true ∧ q.time ≠ 0 ∧ q.unsig ≠ 0) :=
  ⟨⟨(posting cq1), 16383, ex_eq (⟨by decide +kernel, ex_eq (by decide +kernel)⟩)⟩,
   ⟨(posting { cq1 with tail := 0 }), 16383, ex_eq (⟨by decide +kernel, ex_eq (by decide +kernel)⟩)⟩,
   ⟨(posting cq1), .pf0, 1, ex_eq (by decide +kernel)⟩⟩

theorem witness_QueueCommands :
    (∃ (s : State) (tag : Nat), ∃ c, c = s.hq.cmds.get tag ∧ (s.starts tag 1 fun c _ => badCreateSq c) ∧ ((s.hq.cqs.get (qkey c.fn (c.cdw 9
      % 64))).live = true ∧ s.windowOk c.fn c.dptr (64 * (c.cdw 8 / 65536 % 4096 + 1)) false = true) ∧ ∃ k, k = qkey c.fn (c.cdw 8 % 64) ∧
      (s.hq.sqs.get k).live = false) ∧
    (∃ (s : State) (tag : Nat), ∃ c, c = s.hq.cmds.get tag ∧ (s.starts tag 1 fun c _ => badCreateSq c) ∧ ((s.hq.cqs.get (qkey c.fn (c.cdw 9
      % 64))).live = true ∧ s.windowOk c.fn c.dptr (64 * (c.cdw 8 / 65536 % 4096 + 1)) false = false) ∧ ∃ k, k = qkey c.fn (c.cdw 8 % 64) ∧
      (s.hq.sqs.get k).live = false) ∧
    (∃ (s : State) (tag : Nat), ∃ c, c = s.hq.cmds.get tag ∧ (s.starts tag 1 fun c _ => badCreateSq c) ∧ ∃ k, k = qkey c.fn (c.cdw 8 % 64) ∧
      ((s.hq.sqs.get k).live = true ∨ (s.hq.cqs.get (qkey c.fn (c.cdw 9 % 64))).live = false)) ∧
    (∃ (s : State) (tag : Nat), ∃ c, c = s.hq.cmds.get tag ∧ (s.starts tag 3 fun c _ => firstBad (badCreate c)) ∧ s.windowOk c.fn c.dptr (16
      * (c.cdw 8 / 65536 % 4096 + 1)) true = true ∧ ∃ k, k = qkey c.fn (c.cdw 8 % 64) ∧ (s.hq.cqs.get k).live = false) ∧
    (∃ (s : State) (tag : Nat), ∃ c, c = s.hq.cmds.get tag ∧ (s.starts tag 3 fun c _ => firstBad (badCreate c)) ∧ s.windowOk c.fn c.dptr (16
      * (c.cdw 8 / 65536 % 4096 + 1)) true = false ∧ ∃ k, k = qkey c.fn (c.cdw 8 % 64) ∧ (s.hq.cqs.get k).live = false) ∧
    (∃ (s : State) (tag : Nat), ∃ c, c = s.hq.cmds.get tag ∧ (s.starts tag 3 fun c _ => firstBad (badCreate c)) ∧ ∃ k, k = qkey c.fn (c.cdw
      8 % 64) ∧ (s.hq.cqs.get k).live = true) ∧
    (∃ (s : State) (tag : Nat), ∃ c, c = s.hq.cmds.get tag ∧ (s.starts tag 2 fun c _ => badQid c) ∧ c.sqid ≠ c.cdw 8 % 64 ∧ ∃ k, k = qkey
      c.fn (c.cdw 8 % 64) ∧ (s.hq.sqs.get k).live = true) ∧
    (∃ (s : State) (tag : Nat), ∃ c, c = s.hq.cmds.get tag ∧ (s.starts tag 2 fun c _ => badQid c) ∧ ∃ k, k = qkey c.fn (c.cdw 8 % 64) ∧
      (s.hq.sqs.get k).live = false) ∧
    (∃ (s : State) (tag : Nat), ∃ c, c = s.hq.cmds.get tag ∧ (s.starts tag 4 fun c _ => badQid c) ∧ (∀ e ∈ s.hq.sqs, e.2.live = true → e.1 /
      64 = fnNum c.fn → e.2.cqid ≠ c.cdw 8 % 64) ∧ ∃ k, k = qkey c.fn (c.cdw 8 % 64) ∧ (s.hq.cqs.get k).live = true) ∧
    (∃ (s : State) (tag : Nat), ∃ c, c = s.hq.cmds.get tag ∧ (s.starts tag 4 fun c _ => badQid c) ∧ ∃ k, k = qkey c.fn (c.cdw 8 % 64) ∧
      ((s.hq.cqs.get k).live = false ∨ ∃ e ∈ s.hq.sqs, e.2.live = true ∧ e.1 / 64 = fnNum c.fn ∧ e.2.cqid = c.cdw 8 % 64)) ∧
    (∃ (s : State) (tag : Nat), ∃ c, c = s.hq.cmds.get tag ∧ (s.starts tag 8 fun c _ => badQid c) ∧ ∃ k, k = qkey c.fn (c.cdw 8 % 64) ∧
      (s.hq.cqs.get k).live = true) ∧
    (∃ (s : State) (tag : Nat), ∃ c, c = s.hq.cmds.get tag ∧ (s.starts tag 8 fun c _ => badQid c) ∧ ∃ k, k = qkey c.fn (c.cdw 8 % 64) ∧
      (s.hq.cqs.get k).live = false) ∧
    (∃ (s : State) (tag : Nat), s.mayRun tag 1 ∧ ∃ c, c = s.hq.cmds.get tag ∧ (badCreateSq c).isSome = true) ∧
    (∃ (s : State) (tag : Nat), s.mayRun tag 3 ∧ ∃ c, c = s.hq.cmds.get tag ∧ (firstBad (badCreate c)).isSome = true) ∧
    (∃ (s : State) (tag : Nat), s.mayRun tag 2 ∧ ∃ c, c = s.hq.cmds.get tag ∧ c.cdw 8 % 64 = 0) ∧
    (∃ (s : State) (tag : Nat), s.mayRun tag 4 ∧ ∃ c, c = s.hq.cmds.get tag ∧ c.cdw 8 % 64 = 0) ∧
    (∃ (s : State) (tag : Nat), s.mayRun tag 8 ∧ ∃ c, c = s.hq.cmds.get tag ∧ c.cdw 8 % 64 = 0) :=
  ⟨⟨st_QueueCommands_1, 5, ex_eq (⟨by unfold State.starts State.mayRun; decide +kernel, by decide +kernel, ex_eq (by decide +kernel)⟩)⟩,
   ⟨(winOn (oneCq (opq 0x01 [63 + mq 4095, 1]))), 5, ex_eq (⟨by unfold State.starts State.mayRun; decide +kernel, by decide +kernel, ex_eq
     (by decide +kernel)⟩)⟩,
   ⟨(opq 0x01 [63 + mq 4095, 1]), 5, ex_eq (⟨by unfold State.starts State.mayRun; decide +kernel, ex_eq (by decide +kernel)⟩)⟩,
   ⟨(opq 0x03 [63 + mq 4095, 1]), 5, ex_eq (⟨by unfold State.starts State.mayRun; decide +kernel, by decide +kernel, ex_eq
     (by decide +kernel)⟩)⟩,
   ⟨(winOn (opq 0x03 [63 + mq 1, 1])), 5, ex_eq (⟨by unfold State.starts State.mayRun; decide +kernel, by decide +kernel, ex_eq
     (by decide +kernel)⟩)⟩,
   ⟨(withQ (opq 0x03 [1 + mq 1, 1])), 5, ex_eq (⟨by unfold State.starts State.mayRun; decide +kernel, ex_eq (by decide +kernel)⟩)⟩,
   ⟨(withQ (op5 0x02 [1])), 5, ex_eq (⟨by unfold State.starts State.mayRun; decide +kernel, by decide +kernel, ex_eq (by decide +kernel)⟩)⟩,
   ⟨(withQ (op5 0x02 [2])), 5, ex_eq (⟨by unfold State.starts State.mayRun; decide +kernel, ex_eq (by decide +kernel)⟩)⟩,
   ⟨(oneCq (op5 0x04 [1])), 5, ex_eq (⟨by unfold State.starts State.mayRun; decide +kernel, by decide +kernel, ex_eq (by decide +kernel)⟩)⟩,
   ⟨(withQ (op5 0x04 [1])), 5, ex_eq (⟨by unfold State.starts State.mayRun; decide +kernel, ex_eq (by decide +kernel)⟩)⟩,
   ⟨(withQ (op5 0x08 [1, 0x304])), 5, ex_eq (⟨by unfold State.starts State.mayRun; decide +kernel, ex_eq (by decide +kernel)⟩)⟩,
   ⟨(withQ (op5 0x08 [2, 0x304])), 5, ex_eq (⟨by unfold State.starts State.mayRun; decide +kernel, ex_eq (by decide +kernel)⟩)⟩,
   ⟨(op5 0x01 [0 + mq 4095, 1]), 5, by unfold State.mayRun; decide +kernel, ex_eq (by decide +kernel)⟩,
   ⟨(op5 0x03 [63, 1]), 5, by unfold State.mayRun; decide +kernel, ex_eq (by decide +kernel)⟩,
   ⟨(op5 0x02 [64]), 5, by unfold State.mayRun; decide +kernel, ex_eq (by decide +kernel)⟩,
   ⟨(op5 0x04 [0]), 5, by unfold State.mayRun; decide +kernel, ex_eq (by decide +kernel)⟩,
   ⟨(op5 0x08 [0, 0x304]), 5, by unfold State.mayRun; decide +kernel, ex_eq (by decide +kernel)⟩⟩

theorem witness_InformationCommands :
    (∃ (s : State) (tag : Nat) (h : HostData) (bufs : List (Nat × Nat)), s.mayRun tag 5 ∧ ∃ c, c = s.hq.cmds.get tag ∧ badIdentify h c s =
      none ∧ s.buffers c h true = Except.ok bufs) ∧
    (∃ (s : State) (tag : Nat), s.mayRun tag 5 ∧ ∃ c, c = s.hq.cmds.get tag ∧ c.cdw 8 % 256 = 1 ∧ s.nsType c.nsid = 0) ∧
    (∃ (s : State) (tag : Nat) (h : HostData) (bufs : List (Nat × Nat)), s.starts tag 6 (badGetLog h) ∧ ∃ c, c = s.hq.cmds.get tag ∧
      s.buffers c h true = Except.ok bufs ∧ ∃ p, s.logPage c.fn (c.cdw 8 % 256) = some p) ∧
    (∃ (s : State) (tag : Nat), s.mayRun tag 6 ∧ s.logPage (s.hq.cmds.get tag).fn ((s.hq.cmds.get tag).cdw 8 % 256) = none) :=
  ⟨⟨(opx 5 0 4096 [0]), 5, noData, [(0x1000, 4096)], by unfold State.mayRun; decide +kernel, ex_eq (by decide +kernel)⟩,
   ⟨(opx 5 9 4096 [1]), 5, by unfold State.mayRun; decide +kernel, ex_eq (by decide +kernel)⟩,
   ⟨(opx 6 0 64 [1]), 5, noData, [(0x1000, 64)], by unfold State.starts State.mayRun; decide +kernel, ex_eq (⟨by decide +kernel, ex_isSome
     (by decide +kernel)⟩)⟩,
   ⟨(opx 6 0 64 [0xFF]), 5, by unfold State.mayRun; decide +kernel, by decide +kernel⟩⟩

theorem witness_NamespacesMade :
    (∃ (s : State) (tag n : Nat), s.starts tag 24 badCreateNs ∧ (s.ctl.mode ≠ Mode.service ∧ s.ctl.mode ≠ Mode.sleep ∧ s.on Pg.dramctl
      Reg.DRAMCTL_STATE_TRAIN_FAIL = false) ∧ ∃ c, c = s.hq.cmds.get tag ∧ (c.cdw 8 % 256 = 3 ∧ (c.cdw 9 % 256 = 0 ∧ s.freeNsid = some n ∨
      c.cdw 9 % 256 = n ∧ 2 ≤ n ∧ s.nsType n = 0) ∧ c.cdw 10 + 2 ^ 32 * c.cdw 11 ≠ 0) ∧ ∃ units, units = (c.cdw 10 + 2 ^ 32 * c.cdw 11 +
      2097151) / 2097152 ∧ (∃ w, ∀ i < units, s.unitFree (w + i) = true)) ∧
    (∃ (s : State) (tag n : Nat), s.starts tag 24 badCreateNs ∧ (s.ctl.mode ≠ Mode.service ∧ s.ctl.mode ≠ Mode.sleep ∧ s.on Pg.dramctl
      Reg.DRAMCTL_STATE_TRAIN_FAIL = false) ∧ ∃ c, c = s.hq.cmds.get tag ∧ (c.cdw 8 % 256 = 3 ∧ (c.cdw 9 % 256 = 0 ∧ s.freeNsid = some n ∨
      c.cdw 9 % 256 = n ∧ 2 ≤ n ∧ s.nsType n = 0) ∧ c.cdw 10 + 2 ^ 32 * c.cdw 11 ≠ 0) ∧ ∃ units, units = (c.cdw 10 + 2 ^ 32 * c.cdw 11 +
      2097151) / 2097152 ∧ (¬∃ w, ∀ i < units, s.unitFree (w + i) = true)) ∧
    (∃ (s : State) (tag n : Nat), s.starts tag 24 badCreateNs ∧ (s.ctl.mode ≠ Mode.service ∧ s.ctl.mode ≠ Mode.sleep ∧ s.volumeReady = true)
      ∧ ∃ c, c = s.hq.cmds.get tag ∧ (c.cdw 8 % 256 = 1 ∧ (c.cdw 9 % 256 = 0 ∧ s.freeNsid = some n ∨ c.cdw 9 % 256 = n ∧ 2 ≤ n ∧ s.nsType n
      = 0) ∧ 16777216 ≤ c.cdw 10 + 2 ^ 32 * c.cdw 11) ∧ ∃ v, s.media.vol = some v ∧ ∃ a, v.findFree (roundUp (c.cdw 10 + 2 ^ 32 * c.cdw 11)
      8388608) = some a) ∧
    (∃ (s : State) (tag : Nat), s.starts tag 25 badDeleteNs ∧ ∃ c, c = s.hq.cmds.get tag ∧ 2 ≤ c.nsid ∧ s.nsType c.nsid = 3 ∧ s.reelInUse
      c.nsid = false ∧ s.loadsFrom c.nsid = false ∧ s.nsCommands c.nsid c.uid = []) ∧
    (∃ (s : State) (tag : Nat), s.starts tag 25 badDeleteNs ∧ s.volumeReady = true ∧ ∃ c, c = s.hq.cmds.get tag ∧ (2 ≤ c.nsid ∧ s.nsType
      c.nsid = 1 ∧ s.reelInUse c.nsid = false ∧ s.loadsFrom c.nsid = false ∧ s.nsCommands c.nsid c.uid = []) ∧ ∃ v, s.media.vol = some v) ∧
    (∃ (s : State) (tag : Nat), s.starts tag 25 badDeleteNs ∧ ∃ c, c = s.hq.cmds.get tag ∧ (s.reelInUse c.nsid = true ∨ s.loadsFrom c.nsid =
      true ∨ ∃ g, g ≠ tag ∧ (s.hq.cmds.get g).live = true ∧ (s.hq.cmds.get g).stage ≠ Stage.done ∧ (s.hq.cmds.get g).names = true ∧
      (s.hq.cmds.get g).nsid = c.nsid ∧ (s.hq.cmds.get g).uid ≠ c.uid) ∧ 2 ≤ c.nsid ∧ s.nsType c.nsid ≠ 0) :=
  ⟨⟨(stg (opx 0x18 0 0 [3, 0, 2097153, 0])), 5, 2, by unfold State.starts State.mayRun; decide +kernel, by decide +kernel, ex_eq
     (⟨by decide +kernel, ex_eq (⟨2, by decide +kernel⟩)⟩)⟩,
   ⟨(stg (opx 0x18 0 0 [3, 255, 4194305, 0])), 5, 255, by unfold State.starts State.mayRun; decide +kernel, by decide +kernel, ex_eq
     (⟨by decide +kernel, ex_eq ((fun ⟨w, h⟩ => noRun ⟨w, fun i hi => h i (Nat.lt_of_lt_of_eq hi (by decide +kernel))⟩))⟩)⟩,
   ⟨(vol1 (opx 0x18 0 0 [1, 0, 16777217, 0])), 5, 3, by unfold State.starts State.mayRun; decide +kernel, by decide +kernel, ex_eq
     (⟨by decide +kernel, ex_some' (by decide +kernel) (ex_isSome (by decide +kernel))⟩)⟩,
   ⟨(stg (opx 0x19 3 0 [])), 5, by unfold State.starts State.mayRun; decide +kernel, ex_eq (by decide +kernel)⟩,
   ⟨(vol1 (opx 0x19 2 0 [])), 5, by unfold State.starts State.mayRun; decide +kernel, by decide +kernel, ex_eq (⟨by decide +kernel,
     ex_isSome (by decide +kernel)⟩)⟩,
   ⟨st_NamespacesMade_6, 5, by unfold State.starts State.mayRun; decide +kernel, ex_eq (⟨.inl (by decide +kernel), by decide +kernel⟩)⟩⟩

theorem witness_NamespaceData :
    (∃ (s : State) (tag : Nat) (h : HostData) (bufs : List (Nat × Nat)), s.starts tag 128 (badRead h) (ioLen h) ∧ ∃ c, c = s.hq.cmds.get tag
      ∧ s.buffers c h true = Except.ok bufs ∧ (s.nsType c.nsid = 1 → s.volReadable ((s.dirEntry c.nsid).start + c.offset) (xferLen c h) =
      true)) ∧
    (∃ (s : State) (tag : Nat) (h : HostData), s.mayRun tag 128 (ioLen h) ∧ ∃ c, c = s.hq.cmds.get tag ∧ (s.nsType c.nsid = 0 ∨ (if s.nsType
      c.nsid = 1 then s.reelUsed c.nsid else s.nsSize c.nsid) < c.offset + ioLen h c s)) ∧
    (∃ (s : State) (tag : Nat) (h : HostData) (bufs : List (Nat × Nat)), s.starts tag 128 (badRead h) (ioLen h) ∧ ∃ c, c = s.hq.cmds.get tag
      ∧ s.buffers c h true = Except.ok bufs ∧ s.nsType c.nsid = 1 ∧ s.volReadable ((s.dirEntry c.nsid).start + c.offset) (xferLen c h) =
      false) ∧
    (∃ (s : State) (tag : Nat) (h : HostData) (bufs : List (Nat × Nat)) (b : List Byte), s.starts tag 129 (badWrite h) (ioLen h) ∧ h.data =
      some b ∧ ∃ c, c = s.hq.cmds.get tag ∧ (c.nsid ≠ 0 ∧ s.buffers c h false = Except.ok bufs) ∧ ∃ len, len = xferLen c h ∧ ∃ e, s.stageNs
      c.nsid = some e ∧ c.offset + len ≤ e.size) ∧
    (∃ (s : State) (tag : Nat) (h : HostData) (bufs : List (Nat × Nat)) (b : List Byte), s.starts tag 129 (badWrite h) (ioLen h) ∧ (s.quiet
      = true ∧ h.data = some b) ∧ ∃ c, c = s.hq.cmds.get tag ∧ c.nsid = 0 ∧ c.fn = Fn.pf0 ∧ s.buffers c h false = Except.ok bufs ∧ xferLen c
      h ≤ 65536 ∧ bankValid (padTo (xferLen c h) b) = true) :=
  ⟨⟨(stg (opx 0x80 3 512 [2097152 - 512, 0])), 5, noData, [(0x1000, 512)], by unfold State.starts State.mayRun; decide +kernel, ex_eq
     (by decide +kernel)⟩,
   ⟨(stg (opx 0x80 3 512 [2097152 - 511, 0])), 5, noData, by unfold State.mayRun; decide +kernel, ex_eq (by decide +kernel)⟩,
   ⟨st_NamespaceData_3, 5, noData, [(0x1000, 512)], ⟨by unfold State.mayRun; decide +kernel, reel_read_fits, by decide +kernel⟩, ex_eq
     (by decide +kernel)⟩,
   ⟨(stg (opx 0x81 3 4 [2097152 - 4, 0])), 5, ⟨none, some [1,2,3,4]⟩, [(0x1000, 4)], [1,2,3,4],
     by unfold State.starts State.mayRun; decide +kernel, by decide +kernel, ex_eq (⟨by decide +kernel, ex_eq (ex_some
     (by decide +kernel))⟩)⟩,
   ⟨(opx 0x81 0 68 [0, 0]), 5, ⟨none, some emptyBank⟩, [(0x1000, 68)], emptyBank, by unfold State.starts State.mayRun; decide +kernel,
     by decide +kernel, ex_eq (by decide +kernel)⟩⟩

theorem witness_SlotsPlaced :
    ∃ (s : State) (r : Req) (k : Nat) (v : Word), k < 64 ∧ s.accepts r Pg.fstore (256 + 4 * k) v = true :=
  ⟨(up .standby), .pf0, 63, (fv (Reg.FSTORE_SLOT_CFG_KIND 63) 3), by decide +kernel⟩

theorem witness_SlotLoads :
    (∃ (s : State) (r : Req) (v : Word), s.accepts r Pg.fstore 104 v = true ∧ wfld v Reg.FSTORE_LOAD_CTRL_GO = 1 ∧ s.fstore.load = none ∧
      s.heldReq Pg.fstore = none) ∧
    (∃ (s : State) (r : Req) (v : Word), s.accepts r Pg.fstore 104 v = true ∧ wfld v Reg.FSTORE_LOAD_CTRL_GO = 1 ∧ (s.fstore.load.isSome =
      true ∨ (s.heldReq Pg.fstore).isSome = true)) ∧
    (∃ (s : State) (tag : Nat), s.starts tag 132 badLoadSlot packageLen ∧ (s.fstore.load = none ∧ s.heldReq Pg.fstore = none) ∧ ∃ c, c =
      s.hq.cmds.get tag ∧ ∃ k, k = c.cdw 10 % 64 ∧ ∃ e, s.stageNs c.nsid = some e ∧ ∃ src, src = s.stageBase + 2097152 * e.unit + c.offset ∧
      s.loadCheck k src = 0) ∧
    (∃ (s : State) (tag : Nat), s.starts tag 132 badLoadSlot packageLen ∧ s.NumbersUnique ∧ (s.fstore.load = none ∧ s.heldReq Pg.fstore =
      none) ∧ ∃ c, c = s.hq.cmds.get tag ∧ ∃ k, k = c.cdw 10 % 64 ∧ ∃ e, s.stageNs c.nsid = some e ∧ ∃ src, src = s.stageBase + 2097152 *
      e.unit + c.offset ∧ s.loadCheck k src ≠ 0) ∧
    (∃ (s : State), ∃ l, s.fstore.load = some l ∧ s.fld Pg.fstore (Reg.FSTORE_SLOT_STATUS_STATE l.slot) = 1 ∧ ∃ n, n = kindBytes l.kind ∧
      l.src + n ≤ s.dramSize ∧ crc32c (s.peekN l.src n) = l.crc) ∧
    (∃ (s : State), ∃ l, s.fstore.load = some l ∧ s.fld Pg.fstore (Reg.FSTORE_SLOT_STATUS_STATE l.slot) = 1 ∧ ∃ n, n = kindBytes l.kind ∧
      l.src + n ≤ s.dramSize ∧ crc32c (s.peekN l.src n) ≠ l.crc) :=
  ⟨⟨placed, .pf0, (loadGo 63), by decide +kernel⟩,
   ⟨(isLoading aLoad placed), .pf0, (loadGo 0), by decide +kernel⟩,
   ⟨ldSlot, 5, by unfold State.starts State.mayRun; decide +kernel, by decide +kernel, ex_eq (ex_eq (ex_some' (by decide +kernel) (ex_eq
     (by decide +kernel))))⟩,
   ⟨((stg placed).with5 (cmdBytes 0x84 0 3 0 0 [2097152 - 64, 0, 0])), 5, by unfold State.starts State.mayRun; decide +kernel,
     by unfold State.NumbersUnique; decide +kernel, by decide +kernel, ex_eq (ex_eq (ex_some' (by decide +kernel) (ex_eq
     (by decide +kernel))))⟩,
   ⟨isLoading (okLoad (sumOf inLoad)) inLoad, okLoad (sumOf inLoad), rfl, by decide +kernel, _, rfl, by decide +kernel, loads_ok inLoad⟩,
   ⟨isLoading (okLoad (sumOf inLoad + 1)) inLoad, okLoad (sumOf inLoad + 1), rfl, by decide +kernel, _, rfl, by decide +kernel, loads_bad
     inLoad⟩⟩

theorem witness_BringUp :
    (∃ (s : State) (r : Req) (k : Nat) (v : Word), (k < 2 ∧ s.accepts r (Pg.link k) 8 v = true ∧ wmSet v Reg.LINK_CTRL_TRAIN = true ∧ ¬(k =
      1 ∧ s.ganged = true) ∧ s.ctl.capRun = false) ∧ ∃ w, w = s.written r (Pg.link k) 8 v ∧ wfld w Reg.LINK_CTRL_ENABLE = 1 ∧ ∃ lanes, lanes
      = s.fld (Pg.link k) Reg.LINK_CFG_LANES ∧ 1 ≤ lanes ∧ ∃ most, most = (if k = 0 ∧ wfld w Reg.LINK_CTRL_GANG = 1 then 16 else 8) ∧ lanes
      ≤ most) ∧
    (∃ (s : State) (r : Req) (k : Nat) (v : Word), (k < 2 ∧ s.accepts r (Pg.link k) 8 v = true ∧ wmSet v Reg.LINK_CTRL_TRAIN = true ∧ ¬(k =
      1 ∧ s.ganged = true)) ∧ ∃ w, w = s.written r (Pg.link k) 8 v ∧ ∃ lanes, lanes = s.fld (Pg.link k) Reg.LINK_CFG_LANES ∧ ∃ most, most =
      (if k = 0 ∧ wfld w Reg.LINK_CTRL_GANG = 1 then 16 else 8) ∧ (s.ctl.capRun = true ∨ wfld w Reg.LINK_CTRL_ENABLE = 0 ∨ lanes = 0 ∨ most
      < lanes)) ∧
    (∃ (s : State) (b : TrainBlk) (k : Nat), b.lane < 16 ∧ k = s.portOf b.lane ∧ (s.port k).phase = PortPhase.training ∧ (∀ t ∈ (s.port
      k).trained, t.lane ≠ b.lane) ∧ s.laneLocked b.lane = true) ∧
    (∃ (s : State) (k : Nat), k < 2 ∧ (s.port k).phase = PortPhase.adapting ∧ (∀ l ∈ (s.port k).map, s.portOf l = k)) ∧
    (∃ (s : State) (k : Nat) (u : TrainUndo), k < 2 ∧ ((s.port k).phase = PortPhase.training ∨ (s.port k).phase = PortPhase.adapting ∨
      (s.port k).phase = PortPhase.eqset) ∧ (s.port k).undo = some u ∧ List.map (fun x => x.1) u.regs = trainKeys k) :=
  ⟨⟨(lk 1 8 (up .standby)), .pf0, 1, (wm Reg.LINK_CTRL_TRAIN 1), by decide +kernel, ex_eq (⟨by decide +kernel, ex_eq (⟨by decide +kernel,
     ex_eq (by decide +kernel)⟩)⟩)⟩,
   ⟨(lk 1 9 (up .standby)), .pf0, 1, (wm Reg.LINK_CTRL_TRAIN 1), by decide +kernel, ex_eq (ex_eq (ex_eq (by decide +kernel)))⟩,
   ⟨st_BringUp_3, (tb 15), 1, by decide +kernel⟩,
   ⟨st_BringUp_4, 1, by decide +kernel⟩,
   ⟨st_BringUp_5, 1, { map := [9], regs := (trainKeys 1).map fun a => (a, 9#32) }, by decide +kernel⟩⟩

theorem witness_LaneStatus :
    (∃ (s : State) (l : Nat), l < 16 ∧ s.fld (Pg.lane l) Reg.LANE_RX_STATUS_LOS = 0) ∧
    (∃ (s : State) (l : Nat), l < 16 ∧ s.fld (Pg.lane l) Reg.LANE_RX_STATUS_CDR_LOCK = 1) ∧
    (∃ (s : State) (l : Nat), l < 16 ∧ s.fld (Pg.lane l) Reg.LANE_RX_STATUS_BLOCK_LOCK = 1) ∧
    (∃ (l : Nat), 22 ≤ l ∧ l ≤ 45) ∧
    (∃ (l : Nat), 22 ≤ l ∧ l ≤ 45) ∧
    (∃ (l : Nat), l < 16) ∧
    (∃ (l : Nat), l < 16) ∧
    (∃ (l : Nat), l < 16) ∧
    (∃ (s : State) (l : Nat), l < 16 ∧ s.fld (Pg.lane l) Reg.LANE_RX_STATUS_CDR_LOCK = 1 ∧ s.fld (Pg.lane l) Reg.LANE_RX_STATUS_BLOCK_LOCK =
      0) ∧
    (∃ (s : State) (k : Nat), (k < 2 ∧ (s.port k).phase = PortPhase.linked) ∧ ∃ back, back = List.filter (fun l => s.laneLocked l &&
      !(s.port k).joined.contains l) (s.port k).fullMap ∧ back ≠ []) :=
  ⟨⟨((up .standby).setFld (Pg.lane 15) Reg.LANE_RX_STATUS_LOS 0), 15, by decide +kernel⟩,
   ⟨(locked 15 (up .standby)), 15, by decide +kernel⟩,
   ⟨st_LaneStatus_3, 15, by decide +kernel⟩,
   ⟨45, by decide +kernel⟩,
   ⟨22, by decide +kernel⟩,
   ⟨15, by decide +kernel⟩,
   ⟨15, by decide +kernel⟩,
   ⟨15, by decide +kernel⟩,
   ⟨((up .standby).setFld (Pg.lane 15) Reg.LANE_RX_STATUS_CDR_LOCK 1), 15, by decide +kernel⟩,
   ⟨st_LaneStatus_10, 1, by decide +kernel, ex_eq (by decide +kernel)⟩⟩

theorem witness_BackChannel :
    (∃ (s : State) (r : Req) (k : Nat) (v : Word), k < 2 ∧ s.accepts r (Pg.link k) 136 v = true ∧ ¬(k = 1 ∧ s.ganged = true) ∧ wfld v
      Reg.LINK_BC_CTRL_GO = 1 ∧ s.on (Pg.link k) Reg.LINK_BC_CTRL_BUSY = false) ∧
    (∃ (s : State) (r : Req) (k : Nat) (v : Word), k < 2 ∧ s.accepts r (Pg.link k) 136 v = true ∧ ¬(k = 1 ∧ s.ganged = true) ∧ wfld v
      Reg.LINK_BC_CTRL_GO = 1 ∧ s.on (Pg.link k) Reg.LINK_BC_CTRL_BUSY = true) ∧
    (∃ (s : State) (k : Nat), k < 2 ∧ (s.port k).bcUp = true ∧ s.on (Pg.link k) Reg.LINK_CTRL_ENABLE = true ∧ s.ctl.mode ≠ Mode.sleep ∧ ¬(k
      = 1 ∧ s.ganged = true)) ∧
    (∃ (s : State) (k : Nat), s.hears k = true) ∧
    (∃ (s : State) (k q kind : Nat), (k < 2 ∧ s.hears k = true ∧ kind < 3) ∧ ∃ m, (s.port k).cur = some m ∧ m.seq = q % 256 ∧ m.use =
      BcUse.mailbox) ∧
    (∃ (s : State) (k : Nat), k < 2 ∧ ∃ m, (s.port k).cur = some m ∧ m.resends < 3) ∧
    (∃ (s : State) (k : Nat), k < 2 ∧ ∃ m, (s.port k).cur = some m ∧ 3 ≤ m.resends) ∧
    (∃ (s : State) (k : Nat), k < 2 ∧ (s.port k).fallFrame.isSome = true ∧ (s.port k).fallAck = false) :=
  ⟨⟨bcUp, .pf0, 1, (bcGo 0), by decide +kernel⟩,
   ⟨(bcUp.setFld (Pg.link 1) Reg.LINK_BC_CTRL_BUSY 1), .pf0, 1, (bcGo 0), by decide +kernel⟩,
   ⟨bcUp, 1, by decide +kernel⟩,
   ⟨lined, 1, by decide +kernel⟩,
   ⟨(hearing (msg .mailbox 0)), 1, (7 + 256), 2, by decide +kernel, ex_some (by decide +kernel)⟩,
   ⟨(bcCur (msg .mailbox 2)), 1, by decide +kernel, ex_some (by decide +kernel)⟩,
   ⟨(bcCur (msg .mailbox 3)), 1, by decide +kernel, ex_some (by decide +kernel)⟩,
   ⟨st_BackChannel_8, 1, by decide +kernel⟩⟩

theorem witness_LineData :
    (∃ (s : State) (k l : Nat), k < 2 ∧ ¬(k = 1 ∧ s.ganged = true) ∧ l < (s.port k).map.length ∧ s.laneLive k ((s.port k).map.getD l 0) =
      true) ∧
    (∃ (s : State) (k : Nat) (p : Packet), (k < 2 ∧ ¬(k = 1 ∧ s.ganged = true) ∧ p.lane < (s.port k).map.length ∧ s.laneLive k ((s.port
      k).map.getD p.lane 0) = true ∧ p.headersOk = true ∧ p.lockHeld = true ∧ p.off % 64 = 0 ∧ crc32c p.data = p.crc) ∧ ∃ g, g = (s.port
      k).segs.get p.lane ∧ (g.sol = true ∧ p.line = g.line ∧ g.next ≤ p.off) ∧ ∃ n, n = p.data.length / 8 ∧ p.data.length = 8 * n ∧ n = min
      64 (segBlocks g.cells (depthOf (s.fld (Pg.link k) Reg.LINK_CFG_DEPTH)) (s.on (Pg.link k) Reg.LINK_CFG_DUAL_GAIN) - p.off) ∧ 0 < n) ∧
    (∃ (s : State) (k : Nat) (p : Packet), (k < 2 ∧ ¬(k = 1 ∧ s.ganged = true) ∧ p.lane < (s.port k).map.length ∧ s.laneLive k ((s.port
      k).map.getD p.lane 0) = true ∧ p.headersOk = true ∧ p.lockHeld = true ∧ p.off % 64 = 0 ∧ crc32c p.data = p.crc) ∧ ∃ g, g = (s.port
      k).segs.get p.lane ∧ (g.sol = false ∧ (g.packets ≠ [] → p.line = g.line) ∧ g.next ≤ p.off) ∧ ∃ n, n = p.data.length / 8 ∧
      p.data.length = 8 * n ∧ 0 < n ∧ n ≤ 64) ∧
    (∃ (s : State) (k : Nat) (p : Packet), (k < 2 ∧ ¬(k = 1 ∧ s.ganged = true) ∧ p.lane < (s.port k).map.length ∧ s.laneLive k ((s.port
      k).map.getD p.lane 0) = true) ∧ ∃ g, g = (s.port k).segs.get p.lane ∧ (p.headersOk = false ∨ p.lockHeld = false ∨ (g.sol = true ∨
      g.packets ≠ []) ∧ p.line ≠ g.line ∨ crc32c p.data ≠ p.crc)) :=
  ⟨⟨lined, 1, 0, by decide +kernel⟩,
   ⟨segd, 1, (pk (zeros 32)), by decide +kernel, ex_eq (⟨by decide +kernel, ex_eq (by decide +kernel)⟩)⟩,
   ⟨st_LineData_3, 1, (pk (zeros 32)), by decide +kernel, ex_eq (⟨by decide +kernel, ex_eq (by decide +kernel)⟩)⟩,
   ⟨segd, 1, { pk (zeros 32) with lockHeld := false }, by decide +kernel, ex_eq (by decide +kernel)⟩⟩

theorem witness_LaneTests :
    (∃ (s : State) (r : Req) (l : Nat) (v : Word), (l < 48 ∧ s.accepts r (Pg.lane l) 96 v = true ∧ wfld v Reg.LANE_TEST_CTRL_INJECT_ONE = 0)
      ∧ ∃ w, w = s.written r (Pg.lane l) 96 v ∧ (wfld w Reg.LANE_TEST_CTRL_GEN_EN = 1 ∨ wfld w Reg.LANE_TEST_CTRL_CHK_EN = 1 → s.ctl.mode =
      Mode.service ∨ 30 ≤ l ∧ l ≤ 37)) ∧
    (∃ (s : State) (r : Req) (l : Nat) (v : Word), (l < 48 ∧ s.accepts r (Pg.lane l) 96 v = true ∧ s.ctl.mode ≠ Mode.service ∧ ¬(30 ≤ l ∧ l
      ≤ 37)) ∧ ∃ w, w = s.written r (Pg.lane l) 96 v ∧ (wfld w Reg.LANE_TEST_CTRL_GEN_EN = 1 ∨ wfld w Reg.LANE_TEST_CTRL_CHK_EN = 1)) ∧
    (∃ (s : State) (r : Req) (l : Nat) (v : Word), (l < 48 ∧ s.accepts r (Pg.lane l) 96 v = true ∧ (s.ctl.mode = Mode.service ∨ 30 ≤ l ∧ l ≤
      37) ∧ wfld v Reg.LANE_TEST_CTRL_INJECT_ONE = 1) ∧ ∃ w, w = s.written r (Pg.lane l) 96 v ∧ wfld w Reg.LANE_TEST_CTRL_GEN_EN = 1 ∧ (15 <
      l ∨ wfld w Reg.LANE_TEST_CTRL_LOOP ≠ 0)) ∧
    (∃ (s : State) (l : Nat) (bits : List Bool), l ≤ 45 ∧ s.chkReceives l = true ∧ s.patternRun l bits = true) ∧
    (∃ (s : State) (l : Nat) (bits : List Bool), s.patternRun l bits = false) ∧
    (∃ (s : State) (l e b : Nat), l ≤ 45 ∧ s.on (Pg.lane l) Reg.LANE_TEST_STATUS = true ∧ 256 < e ∧ e ≤ b) ∧
    (∃ (e : Nat), e ≤ 256) :=
  ⟨⟨(up .service), .pf0, 0, (wm Reg.LANE_TEST_CTRL_GEN_EN 1), by decide +kernel, ex_eq (by decide +kernel)⟩,
   ⟨(up .standby), .pf0, 38, (fv Reg.LANE_TEST_CTRL_GEN_EN 1), by decide +kernel, ex_eq (by decide +kernel)⟩,
   ⟨(up .service), .pf0, 38, (fv Reg.LANE_TEST_CTRL_GEN_EN 1 ||| fv Reg.LANE_TEST_CTRL_INJECT_ONE 1), by decide +kernel, ex_eq
     (by decide +kernel)⟩,
   ⟨((chk 45 5).having (Pg.lane 45) [(Reg.LANE_USER_PAT_LO, 1)]), 45, userRun, by decide +kernel⟩,
   ⟨(chk 45 5), 45, userRun, by decide +kernel⟩,
   ⟨((up .service).having (Pg.lane 45) [(Reg.LANE_TEST_STATUS, 1)]), 45, 257, 1024, by decide +kernel⟩,
   ⟨256, by decide +kernel⟩⟩

theorem witness_MovesBegin :
    (∃ (s : State) (tag : Nat) (h : HostData) (target : Mode) (bufs : List (Nat × Nat)), s.asksMode tag h target bufs ∧ s.ctl.phase =
      Phase.settled ∧ s.ctl.mode = Mode.standby ∧ (target = Mode.live ∨ target = Mode.record) ∧ s.modeHeld target = false) ∧
    (∃ (s : State) (tag : Nat) (h : HostData) (target : Mode) (bufs : List (Nat × Nat)), s.asksMode tag h target bufs ∧ s.isSwitch target =
      true ∧ s.modeHeld target = false ∧ (target = Mode.record → s.recordBad s.ctl.charged = false)) ∧
    (∃ (s : State) (tag : Nat) (h : HostData) (bufs : List (Nat × Nat)), s.asksMode tag h Mode.standby bufs ∧ s.ctl.phase = Phase.settled ∧
      (s.ctl.mode = Mode.live ∨ s.ctl.mode = Mode.record)) :=
  ⟨⟨(mode5 (up .standby) 1), 5, noData, .live, [], by unfold State.asksMode State.starts State.mayRun State.NumbersUnique; decide +kernel,
     by decide +kernel⟩,
   ⟨(mode5 (taking .record) 1), 5, noData, .live, [],
     by unfold State.asksMode State.starts State.mayRun State.NumbersUnique; decide +kernel, by decide +kernel⟩,
   ⟨(mode5 (taking .record) 0), 5, noData, [], by unfold State.asksMode State.starts State.mayRun State.NumbersUnique; decide +kernel,
     by decide +kernel⟩⟩

theorem witness_ModesChange :
    (∃ (s : State) (tag : Nat) (h : HostData) (bufs : List (Nat × Nat)), s.asksMode tag h Mode.review bufs ∧ s.ctl.phase = Phase.settled ∧
      s.ctl.mode = Mode.standby ∧ s.modeHeld Mode.review = false) ∧
    (∃ (s : State) (tag : Nat) (h : HostData) (bufs : List (Nat × Nat)), s.asksMode tag h Mode.standby bufs ∧ s.ctl.phase = Phase.settled ∧
      s.ctl.mode = Mode.review) ∧
    (∃ (s : State) (tag : Nat) (h : HostData) (bufs : List (Nat × Nat)), s.asksMode tag h Mode.service bufs ∧ s.ctl.phase = Phase.settled ∧
      s.ctl.mode = Mode.standby) ∧
    (∃ (s : State) (tag : Nat) (h : HostData) (bufs : List (Nat × Nat)), s.asksMode tag h Mode.standby bufs ∧ s.ctl.phase = Phase.settled ∧
      s.ctl.mode = Mode.service) ∧
    (∃ (s : State) (tag : Nat) (h : HostData) (bufs : List (Nat × Nat)), s.asksMode tag h Mode.sleep bufs ∧ s.ctl.phase = Phase.settled ∧
      s.ctl.mode = Mode.standby ∧ s.modeHeld Mode.sleep = false) ∧
    (∃ (s : State) (tag : Nat) (h : HostData) (bufs : List (Nat × Nat)) (target : Mode) (cmd : Option Nat), s.asksMode tag h Mode.standby
      bufs ∧ s.ctl.phase = Phase.starting target cmd ∧ cmd ≠ some (s.hq.cmds.get tag).uid ∧ s.fw.waiting = none ∧ s.fw.failover = false) :=
  ⟨⟨(mode5 (up .standby) 3), 5, noData, [], by unfold State.asksMode State.starts State.mayRun State.NumbersUnique; decide +kernel,
     by decide +kernel⟩,
   ⟨(mode5 (up .review) 0), 5, noData, [], by unfold State.asksMode State.starts State.mayRun State.NumbersUnique; decide +kernel,
     by decide +kernel⟩,
   ⟨(mode5 (up .standby) 4), 5, noData, [], by unfold State.asksMode State.starts State.mayRun State.NumbersUnique; decide +kernel,
     by decide +kernel⟩,
   ⟨(mode5 (up .service) 0), 5, noData, [], by unfold State.asksMode State.starts State.mayRun State.NumbersUnique; decide +kernel,
     by decide +kernel⟩,
   ⟨(mode5 (up .standby) 5), 5, noData, [], by unfold State.asksMode State.starts State.mayRun State.NumbersUnique; decide +kernel,
     by decide +kernel⟩,
   ⟨(running9 (mode5 { up .standby with ctl := { (taking .standby).ctl with phase := .starting .live (some 9) } } 0)), 5, noData, [], .live,
     (some 9), by unfold State.asksMode State.starts State.mayRun State.NumbersUnique; decide +kernel, by decide +kernel⟩⟩

theorem witness_ModesRefused :
    (∃ (s : State) (tag : Nat), s.mayRun tag 16 ∧ ∃ c, c = s.hq.cmds.get tag ∧ c.fn = Fn.pf1 ∧ (modeOf (c.cdw 8 % 8) = some Mode.service ∨
      modeOf (c.cdw 8 % 8) = some Mode.sleep ∨ s.ctl.mode = Mode.service)) ∧
    (∃ (s : State) (tag : Nat) (h : HostData) (target : Mode) (bufs : List (Nat × Nat)), s.asksMode tag h target bufs ∧ target ≠
      Mode.standby ∧ s.on Pg.therm Reg.THERM_STATE_STOPPING = true ∧ (s.isSwitch target = true → target = Mode.record → s.recordBad
      s.ctl.charged = false)) ∧
    (∃ (s : State) (tag : Nat) (h : HostData) (target : Mode) (bufs : List (Nat × Nat)), s.asksMode tag h target bufs ∧ s.ctl.mode =
      Mode.standby ∧ (target = Mode.live ∨ target = Mode.record ∨ target = Mode.review) ∧ s.fld Pg.therm Reg.THERM_STATE_LEVEL = 2) ∧
    (∃ (s : State) (tag : Nat) (h : HostData) (bufs : List (Nat × Nat)), s.asksMode tag h Mode.sleep bufs ∧ s.fld Pg.array
      Reg.ARRAY_GENERATION ≠ 0) ∧
    (∃ (s : State) (tag : Nat) (h : HostData) (target : Mode) (bufs : List (Nat × Nat)), s.asksMode tag h target bufs ∧ s.ctl.phase =
      Phase.settled ∧ permitted s.ctl.mode target = false) ∧
    (∃ (s : State) (tag : Nat) (h : HostData) (bufs : List (Nat × Nat)), s.asksMode tag h Mode.record bufs ∧ s.isSwitch Mode.record = true ∧
      s.recordBad s.ctl.charged = true) :=
  ⟨⟨(byPf1 (up .standby) 5), 5, by unfold State.mayRun; decide +kernel, ex_eq (by decide +kernel)⟩,
   ⟨((mode5 (up .standby) 1).having Pg.therm [(Reg.THERM_STATE_STOPPING, 1)]), 5, noData, .live, [],
     by unfold State.asksMode State.starts State.mayRun State.NumbersUnique; decide +kernel, by decide +kernel⟩,
   ⟨((mode5 (up .standby) 3).having Pg.therm [(Reg.THERM_STATE_LEVEL, 2)]), 5, noData, .review, [],
     by unfold State.asksMode State.starts State.mayRun State.NumbersUnique; decide +kernel, by decide +kernel⟩,
   ⟨((mode5 (up .standby) 5).having Pg.array [(Reg.ARRAY_GENERATION, 9)]), 5, noData, [],
     by unfold State.asksMode State.starts State.mayRun State.NumbersUnique; decide +kernel, by decide +kernel⟩,
   ⟨(mode5 (up .standby) 0), 5, noData, .standby, [],
     by unfold State.asksMode State.starts State.mayRun State.NumbersUnique; decide +kernel, by decide +kernel⟩,
   ⟨(mode5 ((taking .live).having Pg.recorder [(Reg.RECORDER_CTRL_ENABLE, 1), (Reg.RECORDER_CFG_DRIVES, 1)]) 2), 5, noData, [],
     by unfold State.asksMode State.starts State.mayRun State.NumbersUnique; decide +kernel, by decide +kernel⟩⟩

theorem witness_AbortAndCheck :
    (∃ (s : State) (tag : Nat), s.starts tag 7 ∧ ∃ c, c = s.hq.cmds.get tag ∧ (∀ e ∈ s.hq.cmds, e.1 ≠ tag → e.2.live = true → e.2.stage ≠
      Stage.done → ¬(e.2.fn = c.fn ∧ e.2.sqid = c.cdw 8 % 64 ∧ e.2.cid = c.cdw 8 / 65536))) ∧
    (∃ (s : State) (tag g : Nat), s.starts tag 7 ∧ g ≠ tag ∧ ∃ c, c = s.hq.cmds.get tag ∧ ∃ x, x = s.hq.cmds.get g ∧ x.live = true ∧ x.stage
      ≠ Stage.done ∧ x.fn = c.fn ∧ x.sqid = c.cdw 8 % 64 ∧ x.cid = c.cdw 8 / 65536 ∧ (x.op = 128 ∨ x.op = 132) ∧ (∀ e ∈ s.hq.cmds, e.1 ≠ tag
      → e.2.live = true → e.2.fn = c.fn → e.2.sqid = x.sqid → e.2.cid = x.cid → e.1 = g)) ∧
    (∃ (s : State) (tag g : Nat), s.starts tag 7 ∧ g ≠ tag ∧ ∃ c, c = s.hq.cmds.get tag ∧ ∃ x, x = s.hq.cmds.get g ∧ x.live = true ∧ x.stage
      ≠ Stage.done ∧ x.fn = c.fn ∧ x.sqid = c.cdw 8 % 64 ∧ x.cid = c.cdw 8 / 65536 ∧ x.op ∉ [16, 128, 129, 132, 136, 137] ∧ (∀ e ∈
      s.hq.cmds, e.1 ≠ tag → e.2.live = true → e.2.fn = c.fn → e.2.sqid = x.sqid → e.2.cid = x.cid → e.1 = g)) ∧
    (∃ (s : State) (tag : Nat) (h : HostData) (bufs : List (Nat × Nat)), s.starts tag 18 (badCheckConfig h) ∧ (s.ctl.mode ≠ Mode.sleep ∧
      s.trigCheck ≠ 17) ∧ ∃ c, c = s.hq.cmds.get tag ∧ s.buffers c h true = Except.ok bufs) ∧
    (∃ (s : State) (tag : Nat) (h : HostData), s.mayRun tag 18 ∧ badCheckConfig h (s.hq.cmds.get tag) s ≠ none) ∧
    (∃ (s : State) (tag : Nat) (h : HostData), s.starts tag 18 (badCheckConfig h) ∧ s.ctl.mode = Mode.sleep) ∧
    (∃ (s : State) (tag : Nat) (h : HostData), s.starts tag 18 (badCheckConfig h) ∧ s.ctl.mode ≠ Mode.sleep ∧ s.trigCheck = 17) ∧
    (∃ (s : State) (tag : Nat) (h : HostData), s.starts tag 18 (badCheckConfig h) ∧ s.ctl.mode ≠ Mode.sleep ∧ s.trigCheck ≠ 17 ∧ s.buffers
      (s.hq.cmds.get tag) h true = Except.error 17) :=
  ⟨⟨(op5 0x07 [9 * 65536]), 5, by unfold State.starts State.mayRun; decide +kernel, ex_eq (by decide +kernel)⟩,
   ⟨(other9 0x84 (op5 0x07 [9 * 65536])), 5, 9, by unfold State.starts State.mayRun; decide +kernel, by decide +kernel, ex_eq (ex_eq
     (by decide +kernel))⟩,
   ⟨(other9 0x82 (op5 0x07 [9 * 65536])), 5, 9, by unfold State.starts State.mayRun; decide +kernel, by decide +kernel, ex_eq (ex_eq
     (by decide +kernel))⟩,
   ⟨((raster (up .standby)).with5 (cmdBytes 0x12 0 0 0x1000 512 [1])), 5, noData, [(0x1000, 512)],
     by unfold State.starts State.mayRun; decide +kernel, by decide +kernel, ex_eq (by decide +kernel)⟩,
   ⟨(((up .standby).having Pg.ingress [(Reg.INGRESS_CFG_SOURCE, 3)]).with5 (cmdBytes 0x12 0 0 0x1000 512 [1])), 5, noData,
     by unfold State.mayRun; decide +kernel, by decide +kernel⟩,
   ⟨((raster (up .sleep)).with5 (cmdBytes 0x12 0 0 0x1000 512 [1])), 5, noData, by unfold State.starts State.mayRun; decide +kernel,
     by decide +kernel⟩,
   ⟨(((raster (up .standby)).having Pg.trig [(Reg.TRIG_CTRL_ENABLE, 1), (Reg.TRIG_CTRL_EN_A, 1)] |>.having Pg.guard
     [(Reg.GUARD_TRIG_MIN_PERIOD, 4294967295)]).with5 (cmdBytes 0x12 0 0 0x1000 512 [1])), 5, noData,
     by unfold State.starts State.mayRun; decide +kernel, by decide +kernel⟩,
   ⟨((winOn (raster (up .standby))).with5 (cmdBytes 0x12 0 0 0x1000 512 [1])), 5, noData,
     by unfold State.starts State.mayRun; decide +kernel, by decide +kernel⟩⟩

theorem witness_TakeBeginsAndEnds :
    (∃ (s : State), s.ctl.phase = .checking .live none ∧ s.configErrs (decide (Mode.live = Mode.record)) = [] ∧ s.trigCheck ≠ 17 ∧
      (Config.powerDemand s.soWords ≤ s.powerLimit → firstOver s.budget = none)) ∧
    (∃ (s : State) (target : Mode) (cmd : Option Nat), (s.configErrs (decide (target = Mode.record)) ≠ [] ∨ s.trigCheck = 17 ∨ ∃ e,
      firstOver s.budget = some e) ∧ s.ctl.phase = Phase.checking target cmd ∧ s.fw.waiting = none ∧ s.fw.failover = false) ∧
    (∃ (s : State) (cmd : Option Nat), s.ctl.phase = Phase.stopping cmd ∧ s.captureDrained = true ∧ s.fenced = false ∧ s.fw.waiting = none ∧
      s.fw.failover = false ∧ s.reel.isOpen = false ∧ s.ingress.catchup = []) ∧
    (∃ (s : State) (cmd : Option Nat), s.ctl.phase = Phase.stopping cmd ∧ s.captureDrained = true ∧ s.fenced = false ∧ s.fw.waiting = none ∧
      s.fw.failover = false ∧ s.reel.isOpen = true) ∧
    (∃ (s : State) (cmd : Option Nat), s.ctl.phase = Phase.closing cmd ∧ s.closable = true) ∧
    (∃ (s : State) (cmd : Option Nat) (e : Nat), s.ctl.phase = Phase.switching Mode.live cmd ∧ s.ctl.recEnd = some e ∧ e ≤ s.frameNow ∧
      s.closable = true) :=
  ⟨⟨raster (inPhase .standby (.checking .live none)), by decide +kernel, by decide +kernel, by decide +kernel, budget_fits
     (by decide +kernel)⟩,
   ⟨(inPhase .standby (.checking .record none)), .record, none, .inl (by decide +kernel), by decide +kernel⟩,
   ⟨st_TakeBeginsAndEnds_3, none, by decide +kernel⟩,
   ⟨st_TakeBeginsAndEnds_4, none, by decide +kernel⟩,
   ⟨closing, none, by decide +kernel⟩,
   ⟨st_TakeBeginsAndEnds_6, none, 0, by decide +kernel⟩⟩

theorem witness_FrameStarts :
    (∃ (s : State) (k : Nat), s.CommitsOk ∧ s.portsUsed.contains k = true ∧ (s.port k).sof.isSome = true ∧ s.ingress.openFrame = none ∧
      s.takesFrames = true) ∧
    (∃ (s : State) (k : Nat), s.CommitsOk ∧ (∀ (cmd : Option Nat), s.ctl.phase = Phase.switching Mode.live cmd → ∃ b, s.ctl.recEnd = some b
      ∧ s.nextFrame < b) ∧ s.portsUsed.contains k = true ∧ (s.port k).sof.isSome = true ∧ s.ingress.openFrame = none ∧ s.takesFrames = true
      ∧ s.fw.failover = false ∧ s.fw.waiting = none) ∧
    (∃ (s : State) (k : Nat), s.portsUsed.contains k = true ∧ (s.port k).sof.isSome = true ∧ s.ingress.openFrame = none ∧ s.takesFrames =
      false) ∧
    (∃ (s : State) (k : Nat), s.portsUsed.contains k = true ∧ (s.port k).sof.isSome = true ∧ s.joins k = false ∧ s.pairBarred k = true) ∧
    (∃ (s : State) (k : Nat), (s.portsUsed.contains k = true ∧ s.joins k = true) ∧ ∃ f, s.ingress.openFrame = some f ∧ ∃ x, (s.port k).sof =
      some x) :=
  ⟨⟨(sofA { taking .live with ctl := { (taking .live).ctl with phase := .starting .live none } }), 0,
     by unfold State.CommitsOk; decide +kernel, by decide +kernel⟩,
   ⟨toRec, 0, by unfold State.CommitsOk; decide +kernel, (fun c h => nomatch h), by decide +kernel⟩,
   ⟨st_FrameStarts_3, 0, by decide +kernel⟩,
   ⟨pairCut, 1, by decide +kernel⟩,
   ⟨pairUp, 1, by decide +kernel, ex_some' (by decide +kernel) (ex_isSome (by decide +kernel))⟩⟩

theorem witness_FrameArrives :
    (∃ (s : State) (k : Nat), s.receives k = true ∧ s.portsUsed.contains k = true ∧ (s.joins k = true ∨ s.takesFrames = true) ∧ s.pairBarred
      k = false) ∧
    (∃ (s : State) (k : Nat), s.receives k = true ∧ s.portsUsed.contains k = true ∧ s.joins k = false ∧ s.takesFrames = false ∧ s.pairBarred
      k = false ∧ s.cutsOpen k = false) ∧
    (∃ (s : State) (k : Nat), s.receives k = true ∧ (s.port k).discard = false ∧ (s.port k).sof.isSome = true) ∧
    (∃ (s : State) (k : Nat), (s.receives k = true ∧ (s.port k).discard = false ∧ (s.port k).sof = none) ∧ ∃ f, s.ingress.openFrame = some f
      ∧ (f.half k).active = true) ∧
    (∃ (s : State) (k line : Nat), (k < 2 ∧ s.receives k = true ∧ (s.port k).discard = false ∧ (s.window k).y ≤ line ∧ line < (s.window k).y
      + (s.window k).h) ∧ ∃ f, s.ingress.openFrame = some f ∧ (f.half k).active = true) ∧
    (∃ (s : State) (k line : Nat), (k < 2 ∧ s.receives k = true ∧ (s.port k).discard = false ∧ (line < (s.window k).y ∨ (s.window k).y +
      (s.window k).h ≤ line)) ∧ ∃ f, s.ingress.openFrame = some f ∧ (f.half k).active = true) ∧
    (∃ (s : State) (k : Nat), (s.portsUsed = [k] ∧ s.receives k = true ∧ (s.port k).discard = false) ∧ ∃ f, s.ingress.openFrame = some f ∧
      (f.half k).active = true) ∧
    (∃ (s : State) (k : Nat), (k < 2 ∧ s.portsUsed = [0, 1] ∧ s.receives k = true ∧ (s.port k).discard = false) ∧ ∃ f, s.ingress.openFrame =
      some f ∧ (f.half k).active = true ∧ (f.half (1 - k)).active = true) ∧
    (∃ (s : State) (k : Nat), s.receives k = true ∧ (s.port k).discard = true) ∧
    (∃ (s : State) (k : Nat), s.portsUsed = [k] ∧ ∃ f, s.ingress.openFrame = some f ∧ (f.half k).active = true) ∧
    (∃ (s : State), s.pairMode = true ∧ ∃ f, s.ingress.openFrame = some f ∧ (f.a.sof = false ∧ f.a.missing = false ∨ f.b.sof = false ∧
      f.b.missing = false)) :=
  ⟨⟨recvd, 0, by decide +kernel⟩,
   ⟨st_FrameArrives_2, 0, by decide +kernel⟩,
   ⟨st_FrameArrives_3, 0, by decide +kernel⟩,
   ⟨opened, 0, by decide +kernel, ex_some (by decide +kernel)⟩,
   ⟨st_FrameArrives_5, 0, 1, by decide +kernel, ex_some (by decide +kernel)⟩,
   ⟨opened, 0, 2, by decide +kernel, ex_some (by decide +kernel)⟩,
   ⟨opened, 0, by decide +kernel, ex_some (by decide +kernel)⟩,
   ⟨pairRx, 0, by decide +kernel, ex_some (by decide +kernel)⟩,
   ⟨st_FrameArrives_9, 0, by decide +kernel⟩,
   ⟨opened, 0, by decide +kernel, ex_some (by decide +kernel)⟩,
   ⟨pairUp, by decide +kernel, ex_some (by decide +kernel)⟩⟩

theorem witness_SharedRead :
    (∃ (s : State), s.ingress.reading = none ∧ ∃ r, s.nextRead = some r ∧ s.pic r.frame = none) ∧
    (∃ (s : State) (r : Reading), s.ingress.reading = some r ∧ s.readHeld r = false) ∧
    (∃ (s : State) (r : Reading), s.ingress.reading = some r ∧ s.readHeld r = true ∧ s.ctl.mode ≠ Mode.review) ∧
    (∃ (s : State), ∃ d, s.draw.cat = some d ∧ ∃ j, s.slotOf d.frame = some j) ∧
    (∃ (s : State) (f : Nat) (l : List Nat), s.draw.cat = none ∧ s.ingress.catchup = f :: l ∧ s.rawOn = false) :=
  ⟨⟨((ringed (taking .live)).setFld Pg.prismFe Reg.PRISM_FE_CTRL_ENABLE 1), by decide +kernel, ex_some (by decide +kernel)⟩,
   ⟨(readingS reading), reading, by decide +kernel⟩,
   ⟨st_SharedRead_3, { reading with next := 0 }, by decide +kernel⟩,
   ⟨catDraw, ex_some' (by decide +kernel) (ex_isSome (by decide +kernel))⟩,
   ⟨(catching (taking .live)), 7, [], by decide +kernel⟩⟩

theorem witness_Renditions :
    (∃ (s : State) (n : Nat), (n < 8 ∧ s.rendRuns n = true) ∧ ∃ q, s.nextRend n = some q ∧ ((s.split.holds.any fun h => decide (h.2.1 = n)
      && decide (h.2.2 % s.bufCount n = q.frame % s.bufCount n)) = false)) ∧
    (∃ (s : State) (n : Nat), (n < 8 ∧ s.rendRuns n = true) ∧ ∃ q, s.nextRend n = some q ∧ ((s.split.holds.any fun h => decide (h.2.1 = n)
      && decide (h.2.2 % s.bufCount n = q.frame % s.bufCount n)) = true) ∧ (q.rends.get n).stalled = false) ∧
    (∃ (s : State) (n : Nat), n < 8 ∧ ∃ q, s.curRend n = some q ∧ (q.rends.get n).groups < s.groupCount n ∧ s.groupReady q n (q.rends.get
      n).groups = true) ∧
    (∃ (s : State) (n : Nat), n < 8 ∧ ∃ q, s.curRend n = some q ∧ s.groupCount n ≤ (q.rends.get n).groups) :=
  ⟨⟨(splitting {} [(.hold 0, 7, 5)]), 7, by decide +kernel, ex_some (by decide +kernel)⟩,
   ⟨(splitting {} [(.hold 0, 7, 4)]), 7, by decide +kernel, ex_some (by decide +kernel)⟩,
   ⟨(splitting { begun := true } []), 7, by decide +kernel, ex_some (by decide +kernel)⟩,
   ⟨(splitting { begun := true, groups := 1 } []), 7, by decide +kernel, ex_some (by decide +kernel)⟩⟩

theorem witness_RawRecords :
    (∃ (s : State) (f : Nat) (c : Bool), s.releaseOver.rawBegins = some (f, c) ∧ s.releaseOver.recHolder = none) ∧
    (∃ (s : State) (f g : Nat) (c : Bool), s.releaseOver.rawBegins = some (f, c) ∧ s.releaseOver.recHolder = some g ∧ s.reel.todo.contains g
      = false ∧ s.draw.stalled.contains f = false) ∧
    (∃ (s : State), ∃ d, s.draw.live = some d ∧ s.rasterH ≤ d.lines.length) ∧
    (∃ (c : Nat), c < 16) :=
  ⟨⟨liveRead, 7, false, by decide +kernel⟩,
   ⟨st_RawRecords_2, 7, 3, false, by decide +kernel⟩,
   ⟨st_RawRecords_3, ex_some (by decide +kernel)⟩,
   ⟨15, by decide +kernel⟩⟩

theorem witness_HevcPictures :
    (∃ (s : State) (k f : Nat), (k < 8 ∧ s.streamOn k = true ∧ (s.stream k).cur = none ∧ s.ctl.capRun = true) ∧ ∃ x, x =
      s.releaseOver.advanceGops k 64 ∧ x.nextPic k = some f ∧ x.firstRow k = true ∧ x.esHolder k = none) ∧
    (∃ (s : State) (k : Nat), k < 8 ∧ ∃ p, (s.stream k).cur = some p ∧ (∀ y < (s.ctbs k).2, s.rowReady k p.frame y = true)) ∧
    (∃ (s : State) (k y : Nat), y < (s.ctbs k).2 ∧ ∃ p, (s.stream k).cur = some p ∧ s.rowReady k p.frame y = false) ∧
    (∃ (c : Nat), c < 8) :=
  ⟨⟨hencPic, 7, 7, by decide +kernel, ex_eq (by decide +kernel)⟩,
   ⟨st_HevcPictures_2, 7, by decide +kernel, ex_some (by decide +kernel)⟩,
   ⟨st_HevcPictures_3, 7, 0, by decide +kernel, ex_some (by decide +kernel)⟩,
   ⟨7, by decide +kernel⟩⟩

theorem witness_Decoding :
    (∃ (s : State) (r : Req) (v : Word), s.accepts r Pg.drdec 76 v = true ∧ s.ctl.mode ≠ Mode.review) ∧
    (∃ (s : State) (r : Req) (v : Word), s.CommitsOk ∧ s.accepts r Pg.drdec 76 v = true ∧ s.ctl.mode = Mode.review ∧ s.on Pg.drdec
      Reg.DRDEC_CTRL_ENABLE = true ∧ s.drdec.cur = none ∧ s.drdecFull = false ∧ wfld (s.written r Pg.drdec 76 v) Reg.DRDEC_IN_PROD ≠ s.fld
      Pg.drdec Reg.DRDEC_IN_CONS) ∧
    (∃ (s : State) (f : Nat) (ok : Bool), s.CommitsOk ∧ s.drdec.cur = some (f, ok) ∧ s.ctl.mode = Mode.review) ∧
    (∃ (s : State) (r : Req) (n : Nat) (v : Word), n < 2 ∧ s.accepts r (Pg.hdec n) 76 v = true ∧ ¬(n = 1 ∧ s.on (Pg.hdec 0)
      Reg.HDEC_CTRL_GANG = true)) ∧
    (∃ (s : State) (r : Req) (v : Word), s.accepts r (Pg.hdec 1) 76 v = true ∧ s.on (Pg.hdec 0) Reg.HDEC_CTRL_GANG = true) ∧
    (∃ (s : State) (n : Nat), n < 2 ∧ s.ctl.mode = Mode.review ∧ s.on (Pg.hdec n) Reg.HDEC_CTRL_ENABLE = true ∧ s.fld (Pg.hdec n)
      Reg.HDEC_IN_PROD ≠ s.fld (Pg.hdec n) Reg.HDEC_IN_CONS ∧ ¬(n = 1 ∧ s.on (Pg.hdec 0) Reg.HDEC_CTRL_GANG = true)) :=
  ⟨⟨(up .standby), .pf0, 3#32, by decide +kernel⟩,
   ⟨((up .review).having Pg.drdec [(Reg.DRDEC_CTRL_ENABLE, 1), (Reg.DRDEC_IN_CFG_COUNT, 4)]), .pf0, 1#32,
     by unfold State.CommitsOk; decide +kernel, by decide +kernel⟩,
   ⟨st_Decoding_3, 7, false, by unfold State.CommitsOk; decide +kernel, by decide +kernel⟩,
   ⟨(up .review), .pf0, 1, 3#32, by decide +kernel⟩,
   ⟨((up .review).setFld (Pg.hdec 0) Reg.HDEC_CTRL_GANG 1), .pf0, 3#32, by decide +kernel⟩,
   ⟨((up .review).having (Pg.hdec 1) [(Reg.HDEC_CTRL_ENABLE, 1), (Reg.HDEC_IN_PROD, 1), (Reg.HDEC_IN_CFG_COUNT, 4), (Reg.HDEC_IN_CFG_PAGES,
     1)]), 1, by decide +kernel⟩⟩

theorem witness_FirmwareSides :
    (∃ (s : State) (tag : Nat) (h : HostData) (bufs : List (Nat × Nat)) (d : List Byte), s.mayRun tag 32 ∧ h.data = some d ∧ ∃ c, c =
      s.hq.cmds.get tag ∧ badFwLoad h c s = none ∧ s.buffers c h false = Except.ok bufs) ∧
    (∃ (s : State) (tag : Nat), s.starts tag 33 ∧ s.idleReady = true) ∧
    (∃ (s : State) (tag : Nat) (h : HostData) (bufs : List (Nat × Nat)), ∃ c, c = s.hq.cmds.get tag ∧ (s.starts tag 34 fun c s =>
      s.badReport c h) ∧ s.buffers c h true = Except.ok bufs) ∧
    (∃ (s : State) (u : Nat), s.fw.running = some u) ∧
    (∃ (s : State) (u : Nat), s.fw.running = some u) ∧
    (∃ (s : State), s.fwRuns = true ∧ s.on Pg.global Reg.GLOBAL_STATE_TAKE = false) ∧
    (∃ (s : State) (r : Req) (v : Word), (s.accepts r Pg.security 68 v = true ∧ wfld v Reg.SECURITY_SVN_CTRL = 1) ∧ ∃ a, s.sideImage
      s.activeSide = some a) :=
  ⟨⟨((up .standby).with5 (cmdBytes 0x20 0 0 0x1000 4 [1])), 5, ⟨none, some [1,2,3,4]⟩, [(0x1000, 4)], [1,2,3,4],
     by unfold State.mayRun; decide +kernel, by decide +kernel, ex_eq (by decide +kernel)⟩,
   ⟨(fw5 0x21 [0]), 5, by unfold State.starts State.mayRun; decide +kernel, by decide +kernel⟩,
   ⟨((up .standby).with5 (cmdBytes 0x22 0 0 0x1000 4096 [])), 5, noData, [(0x1000, 4096)], ex_eq
     (⟨by unfold State.starts State.mayRun; decide +kernel, by decide +kernel⟩)⟩,
   ⟨handing, 9, by decide +kernel⟩,
   ⟨handing, 9, by decide +kernel⟩,
   ⟨twoSides, by decide +kernel⟩,
   ⟨st_FirmwareSides_7, .pf0, (fv Reg.SECURITY_SVN_CTRL 1), by decide +kernel, ex_isSome (by decide +kernel)⟩⟩

theorem witness_FieldStop :
    (∃ (s : State) (r : Req) (v : Word), s.accepts r Pg.guard 84 v = true) ∧
    (∃ (s : State) (k : Nat), (k < 2 ∧ s.seqRuns k = true) ∧ ∃ en, nextEnables (s.on Pg.guard (supplyFlds k).1) (s.fld Pg.guard (supplyFlds
      k).2.2.1) (s.fld Pg.guard (supplyFlds k).2.1) = some en) ∧
    (∃ (s : State) (k : Nat), k < 2 ∧ s.seqRuns k = true ∧ nextEnables (s.on Pg.guard (supplyFlds k).1) (s.fld Pg.guard (supplyFlds
      k).2.2.1) (s.fld Pg.guard (supplyFlds k).2.1) = none) ∧
    (∃ (s : State) (r : Req) (o : Nat) (v : Word), (isWindow o = true ∧ o % 4 = 0 ∧ s.accepts r Pg.guard o v = true) ∧ ∃ u, u = s.store
      Pg.guard o (s.written r Pg.guard o v) ∧ u.queuesCovered = true) ∧
    (∃ (s : State) (r : Req) (o : Nat) (v : Word), (isWindow o = true ∧ o % 4 = 0 ∧ s.accepts r Pg.guard o v = true) ∧ ∃ u, u = s.store
      Pg.guard o (s.written r Pg.guard o v) ∧ u.queuesCovered = false) ∧
    (∃ (s : State), s.ctl.phase ≠ Phase.inReset) :=
  ⟨⟨(up .standby), .pf0, (fv Reg.GUARD_SUPPLY_REQ_ONA 1), by decide +kernel⟩,
   ⟨(seqB 1 0), 1, by decide +kernel, ex_isSome (by decide +kernel)⟩,
   ⟨(seqB 0 0), 1, by decide +kernel⟩,
   ⟨(up .standby), .pf0, 0x080, 0xFFFF#32, by decide +kernel, ex_eq (by decide +kernel)⟩,
   ⟨((withQ (up .standby)).setFld Pg.guard Reg.GUARD_CTRL_WIN_EN 1), .pf0, 0x080, 0xFFFF#32, by decide +kernel, ex_eq (by decide +kernel)⟩,
   ⟨(up .live), by decide +kernel⟩⟩

theorem witness_WakesAndAlarms :
    (∃ (s : State), s.ctl.mode = Mode.sleep) ∧
    (∃ (s : State), s.ctl.mode ≠ Mode.sleep) ∧
    (∃ (s : State), s.on Pg.coll Reg.COLL_ALARM_CTRL_ARM = true ∧ s.collRuns = true ∧ s.fld64 Pg.coll Reg.COLL_ALARM_SEC_LO
      Reg.COLL_ALARM_SEC_HI * 1000000000 + s.fld Pg.coll Reg.COLL_ALARM_NS ≤ s.time.sec * 1000000000 + s.time.ns) :=
  ⟨⟨(up .sleep), by decide +kernel⟩,
   ⟨(up .service), by decide +kernel⟩,
   ⟨(armed 0 (up .sleep)), by decide +kernel⟩⟩

theorem witness_Leases :
    (∃ (s : State) (tag : Nat), (s.starts tag 40 fun c _ => badArrayLease c) ∧ s.fenced = false ∧ ∃ g, g = (s.hq.cmds.get tag).cdw 8 ∧ g ≠ 0
      ∧ s.generation < g) ∧
    (∃ (s : State) (tag : Nat), (s.starts tag 40 fun c _ => badArrayLease c) ∧ s.fenced = false ∧ ∃ g, g = (s.hq.cmds.get tag).cdw 8 ∧ g ≠ 0
      ∧ s.generation = g) ∧
    (∃ (s : State) (tag : Nat), (s.starts tag 40 fun c _ => badArrayLease c) ∧ (s.hq.cmds.get tag).cdw 8 = 0 ∧ s.generation ≠ 0 ∧ s.fenced =
      false ∧ s.ctl.mode = Mode.standby ∧ s.ctl.phase = Phase.settled) ∧
    (∃ (s : State) (tag : Nat), (s.starts tag 40 fun c _ => badArrayLease c) ∧ (s.hq.cmds.get tag).cdw 8 = 0 ∧ s.generation = 0) ∧
    (∃ (s : State) (tag : Nat), (s.starts tag 40 fun c _ => badArrayLease c) ∧ (s.hq.cmds.get tag).cdw 8 = 0 ∧ s.generation ≠ 0 ∧ (s.fenced
      = true ∨ s.ctl.mode ≠ Mode.standby ∨ s.ctl.phase ≠ Phase.settled)) ∧
    (∃ (s : State) (tag : Nat), (s.starts tag 40 fun c _ => badArrayLease c) ∧ s.generation ≠ 0 ∧ ∃ g, g = (s.hq.cmds.get tag).cdw 8 ∧ g ≠ 0
      ∧ (g < s.generation ∨ g = s.generation ∧ s.fenced = true)) ∧
    (∃ (s : State) (tag : Nat), (s.starts tag 40 fun c _ => badArrayLease c) ∧ (s.generation ≠ 0 ∧ s.fenced = true) ∧ ∃ g, g =
      (s.hq.cmds.get tag).cdw 8 ∧ s.generation < g) ∧
    (∃ (s : State), s.array.lease ≠ 0 ∧ s.array.low = false) ∧
    (∃ (s : State), s.array.lease ≠ 0) :=
  ⟨⟨(lease 0 0 [1, 60000]), 5, by unfold State.starts State.mayRun; decide +kernel, by decide +kernel, ex_eq (by decide +kernel)⟩,
   ⟨(lease 0xFFFFFFFF 0 [0xFFFFFFFF, 1]), 5, by unfold State.starts State.mayRun; decide +kernel, by decide +kernel, ex_eq
     (by decide +kernel)⟩,
   ⟨(lease 1 0 [0, 60000]), 5, by unfold State.starts State.mayRun; decide +kernel, by decide +kernel⟩,
   ⟨(lease 0 0 [0, 60000]), 5, by unfold State.starts State.mayRun; decide +kernel, by decide +kernel⟩,
   ⟨(lease 2 1 [0, 1]), 5, by unfold State.starts State.mayRun; decide +kernel, by decide +kernel⟩,
   ⟨(lease 2 0 [1, 1]), 5, by unfold State.starts State.mayRun; decide +kernel, by decide +kernel, ex_eq (by decide +kernel)⟩,
   ⟨(lease 1 1 [2, 1]), 5, by unfold State.starts State.mayRun; decide +kernel, by decide +kernel, ex_eq (by decide +kernel)⟩,
   ⟨st_Leases_8, by decide +kernel⟩,
   ⟨st_Leases_9, by decide +kernel⟩⟩

theorem witness_Drives :
    (∃ (s : State) (c : Instr) (r : Req) (k : Nat) (v : Word), ((c = Instr.mediaEnable r k v ∨ c = Instr.mediaReset r k v) ∧ k < 2 ∧
      s.accepts r (Pg.media k) 8 v = true ∧ (wmSet v Reg.MEDIA_CTRL_RESET = false ∨ s.ctl.mode = Mode.standby ∧ s.ctl.phase = Phase.settled)
      ∧ (s.on (Pg.media k) Reg.MEDIA_CTRL_ENABLE = false ∨ wmSet v Reg.MEDIA_CTRL_RESET = true)) ∧ ∃ w, w = s.written r (Pg.media k) 8 v ∧
      wfld w Reg.MEDIA_CTRL_ENABLE = 1) ∧
    (∃ (s : State) (c : Instr) (r : Req) (k : Nat) (v : Word), ((c = Instr.mediaEnable r k v ∨ c = Instr.mediaReset r k v) ∧ k < 2 ∧
      s.accepts r (Pg.media k) 8 v = true ∧ (wmSet v Reg.MEDIA_CTRL_RESET = false ∨ s.ctl.mode = Mode.standby ∧ s.ctl.phase = Phase.settled)
      ∧ s.on (Pg.media k) Reg.MEDIA_CTRL_ENABLE = true ∧ s.mediaBusy k = false) ∧ ∃ w, w = s.written r (Pg.media k) 8 v ∧ wfld w
      Reg.MEDIA_CTRL_ENABLE = 0) ∧
    (∃ (s : State) (c : Instr) (r : Req) (k : Nat) (v : Word), ((c = Instr.mediaEnable r k v ∨ c = Instr.mediaReset r k v) ∧ k < 2 ∧
      s.accepts r (Pg.media k) 8 v = true ∧ (wmSet v Reg.MEDIA_CTRL_RESET = false ∨ s.ctl.mode = Mode.standby ∧ s.ctl.phase = Phase.settled)
      ∧ s.on (Pg.media k) Reg.MEDIA_CTRL_ENABLE = true ∧ s.mediaBusy k = true) ∧ ∃ w, w = s.written r (Pg.media k) 8 v ∧ wfld w
      Reg.MEDIA_CTRL_ENABLE = 0) ∧
    (∃ (s : State) (c : Instr) (r : Req) (k : Nat) (v : Word), (c = Instr.mediaEnable r k v ∨ c = Instr.mediaReset r k v) ∧ k < 2 ∧
      s.accepts r (Pg.media k) 8 v = true ∧ wmSet v Reg.MEDIA_CTRL_RESET = true ∧ (s.ctl.mode ≠ Mode.standby ∨ s.ctl.phase ≠ Phase.settled)) ∧
    (∃ (s : State) (k : Nat), k < 2 ∧ s.on (Pg.media k) Reg.MEDIA_CTRL_ENABLE = true ∧ (s.mport k = 1 ∨ s.mport k = 2) ∧ (s.drive k).retried
      = false) ∧
    (∃ (s : State) (k : Nat), k < 2 ∧ s.mport k ≠ 0) ∧
    (∃ (s : State) (k : Nat), k < 2 ∧ s.mport k = 3) ∧
    (∃ (s : State) (k id : Nat), k < 2 ∧ ∃ w, List.find? (fun x => decide (x.id = id)) (s.drive k).writes = some w) ∧
    (∃ (s : State) (k id : Nat), k < 2 ∧ (∃ w ∈ (s.drive k).writes, w.id = id)) ∧
    (∃ (s : State) (k id : Nat), k < 2 ∧ (∃ w ∈ (s.drive k).writes, w.id = id)) ∧
    (∃ (s : State) (r : Req) (v : Word), s.accepts r Pg.recorder 8 v = true ∧ r ≠ Req.pf1 ∧ wmSet v Reg.RECORDER_CTRL_FORMAT = true ∧
      s.formatOk = true ∧ s.fenced = false) ∧
    (∃ (s : State) (r : Req) (v : Word), s.accepts r Pg.recorder 8 v = true ∧ r ≠ Req.pf1 ∧ wmSet v Reg.RECORDER_CTRL_FORMAT = true ∧
      (s.formatOk = false ∨ s.fenced = true)) :=
  ⟨⟨(md 1 [(Reg.MEDIA_CTRL_ENABLE, 0)] (vol1 (up .standby))), (.mediaEnable .pf0 1 (wm Reg.MEDIA_CTRL_ENABLE 1)), .pf0, 1, (wm
     Reg.MEDIA_CTRL_ENABLE 1), by decide +kernel, ex_eq (by decide +kernel)⟩,
   ⟨(vol1 (up .standby)), (.mediaEnable .pf0 0 (wm Reg.MEDIA_CTRL_ENABLE 0)), .pf0, 0, (wm Reg.MEDIA_CTRL_ENABLE 0), by decide +kernel,
     ex_eq (by decide +kernel)⟩,
   ⟨st_Drives_3, (.mediaEnable .pf0 0 (wm Reg.MEDIA_CTRL_ENABLE 0)), .pf0, 0, (wm Reg.MEDIA_CTRL_ENABLE 0), by decide +kernel, ex_eq
     (by decide +kernel)⟩,
   ⟨(vol1 (up .service)), (.mediaReset .pf0 1 (wm Reg.MEDIA_CTRL_RESET 1)), .pf0, 1, (wm Reg.MEDIA_CTRL_RESET 1), by decide +kernel⟩,
   ⟨(training1 (vol1 (up .standby))), 1, by decide +kernel⟩,
   ⟨(reelUp openReel (up .record)), 0, by decide +kernel⟩,
   ⟨(md 1 [(Reg.MEDIA_STATE_PORT, 3)] (up .standby)), 1, by decide +kernel⟩,
   ⟨(writing {} false (up .standby)), 0, 1, by decide +kernel, ex_isSome (by decide +kernel)⟩,
   ⟨(writing openReel false (up .record)), 0, 1, by decide +kernel⟩,
   ⟨(writing openReel false (up .record)), 0, 1, by decide +kernel⟩,
   ⟨(md 0 [(Reg.MEDIA_CAP_LO, 134217728)] (vol1 (up .standby))), .pf0, (wm Reg.RECORDER_CTRL_FORMAT 1), by decide +kernel⟩,
   ⟨(vol1 (up .live)), .pf0, (wm Reg.RECORDER_CTRL_FORMAT 1), by decide +kernel⟩⟩

theorem witness_Reels :
    (∃ (s : State) (f : Nat), (s.nextGroup = some f ∧ s.reel.isOpen = true ∧ s.fenced = false ∧ (∀ d ∈ s.reel.dropped, d.1 ≠ f) ∧
      (s.reel.closing = true → ∃ g ∈ s.reel.todo, g ≠ f) ∧ s.reel.waiting = [] ∧ s.writesBelow s.reel.size = false ∧ s.reel.failed = false ∧
      s.reel.index.length + 2 < 4096) ∧ ∃ b, b = s.groupOf f ∧ s.InExtent b.length ∧ s.reel.tail + b.length ≤ s.reel.size - 8388608) ∧
    (∃ (s : State) (f : Nat), s.nextGroup = some f ∧ s.reel.isOpen = true ∧ s.fenced = false ∧ (∀ d ∈ s.reel.dropped, d.1 ≠ f) ∧
      (s.reel.closing = true → ∃ g ∈ s.reel.todo, g ≠ f) ∧ s.writesBelow s.reel.size = true ∧ s.reel.failed = false ∧ s.reel.index.length +
      1 < 4096) ∧
    (∃ (s : State) (f : Nat), s.nextGroup = some f ∧ s.reel.isOpen = true ∧ s.fenced = false ∧ (∀ d ∈ s.reel.dropped, d.1 ≠ f) ∧
      (s.reel.closing = true → ∃ g ∈ s.reel.todo, g ≠ f) ∧ s.reel.waiting = [] ∧ s.reel.failed = true) ∧
    (∃ (s : State) (f : Nat), (s.nextGroup = some f ∧ s.reel.isOpen = true ∧ s.fenced = false ∧ (∀ d ∈ s.reel.dropped, d.1 ≠ f) ∧
      (s.reel.closing = true → ∃ g ∈ s.reel.todo, g ≠ f) ∧ s.reel.waiting = [] ∧ s.writesBelow s.reel.size = false ∧ s.reel.failed = false ∧
      s.reel.index.length + 2 < 4096) ∧ ∃ b, b = s.groupOf f ∧ s.reel.size - 8388608 < s.reel.tail + b.length) ∧
    (∃ (s : State) (tag : Nat) (h : HostData) (bufs : List (Nat × Nat)) (d : List Byte), s.starts tag 130 (badAppend h) ∧ (h.data = some d ∧
      s.reel.isOpen = true ∧ s.reel.failed = false ∧ s.reel.lastFlush = false ∧ (s.reel.closing = true → s.drained = false) ∧
      s.reel.index.length + 2 < 4096) ∧ ∃ c, c = s.hq.cmds.get tag ∧ (s.buffers c h false = Except.ok bufs ∧ (s.dirEntry c.nsid).state ≠ 5 ∧
      s.reel.nsid = c.nsid) ∧ ∃ n, n = xferLen c h ∧ (n ≤ 65536 ∧ s.reel.tail + roundUp (32 + n) 64 ≤ s.reel.size - 8388608) ∧ ∃ b, b =
      recordBytes s.reel.id 6 0 0 s.frameNow (padTo n d) ∧ s.InExtent b.length) ∧
    (∃ (s : State) (n : Nat), s.recovering = some n) ∧
    (∃ (s : State), s.recovering = none) ∧
    (∃ (s : State), s.ctl.mode = Mode.review ∧ s.media.review.active = true ∧ s.media.review.raws = [] ∧ s.media.review.hevcs = []) ∧
    (∃ (s : State) (x : IndexEntry) (l : List IndexEntry), s.CommitsOk ∧ s.ctl.mode = Mode.review ∧ s.media.review.active = true ∧
      s.media.review.raws = x :: l ∧ ringFull (s.fld Pg.drdec Reg.DRDEC_IN_PROD) (s.fld Pg.drdec Reg.DRDEC_IN_CONS) (s.fld Pg.drdec
      Reg.DRDEC_IN_CFG_COUNT) = false ∧ s.media.review.hevcs = []) ∧
    (∃ (s : State) (x : IndexEntry) (l : List IndexEntry), s.ctl.mode = Mode.review ∧ s.media.review.active = true ∧ s.media.review.raws =
      [] ∧ s.media.review.hevcs = x :: l ∧ ringFull (s.fld (Pg.hdec 0) Reg.HDEC_IN_PROD) (s.fld (Pg.hdec 0) Reg.HDEC_IN_CONS) (s.fld
      (Pg.hdec 0) Reg.HDEC_IN_CFG_COUNT) = false) :=
  ⟨⟨(grouped { openReel with appends := [] }), 7, by decide +kernel, ex_eq (⟨by unfold State.InExtent; decide +kernel, by decide +kernel⟩)⟩,
   ⟨st_Reels_2, 7, by decide +kernel⟩,
   ⟨(grouped { openReel with failed := true }), 7, by decide +kernel⟩,
   ⟨(grouped { openReel with tail := 16777216 - 8388608 }), 7, by decide +kernel, ex_eq (by decide +kernel)⟩,
   ⟨(append5 { openReel with appends := [] }), 5, ⟨none, some [1,2,3]⟩, [(0x1000, 3)], [1,2,3],
     by unfold State.starts State.mayRun; decide +kernel, by decide +kernel, ex_eq (⟨by decide +kernel, ex_eq (⟨by decide +kernel, ex_eq
     (by unfold State.InExtent; decide +kernel)⟩)⟩)⟩,
   ⟨(recov 1), 3, by decide +kernel⟩,
   ⟨(up .live), by decide +kernel⟩,
   ⟨(reviewing [] []), by decide +kernel⟩,
   ⟨(reviewing [⟨7, 1048576, 64, 1, 0⟩] []), ⟨7, 1048576, 64, 1, 0⟩, [], by unfold State.CommitsOk; decide +kernel, by decide +kernel⟩,
   ⟨(reviewing [] [⟨7, 1048576, 64, 1, 0⟩]), ⟨7, 1048576, 64, 1, 0⟩, [], by decide +kernel⟩⟩

theorem witness_FlushPoints :
    (∃ (s : State), (s.canFlush = true ∧ (s.reel.closing = false ∨ s.drained = false) ∧ max recordsFrom s.reel.endOff < s.reel.tail) ∧ ∃ w,
      w = s.reel.flushPoint s.provenance false false s.manifestCtx ∧ s.InExtent w.1.length) ∧
    (∃ (s : State), (s.canFlush = true ∧ (s.reel.closing = false ∨ s.drained = false)) ∧ ∃ w, w = s.reel.flushPoint s.provenance false false
      s.manifestCtx ∧ s.InExtent w.1.length) ∧
    (∃ (s : State) (c : Instr), ((c = Instr.flushTimer ∨ c = Instr.pwrgoodFall) ∧ s.canFlush = true ∧ s.reel.closing = true ∧ s.drained =
      true) ∧ ∃ w, w = s.reel.flushPoint s.provenance true false s.manifestCtx ∧ s.InExtent w.1.length) ∧
    (∃ (s : State), s.canFlush = false) ∧
    (∃ (s : State), s.canFlush = false) ∧
    (∃ (s : State), s.reel.isOpen = true ∧ s.reel.flush = FlushPhase.writing ∧ s.fenced = false ∧ s.writesBelow s.reel.endOff = false) ∧
    (∃ (s : State), (s.reel.isOpen = true ∧ s.reel.flush = FlushPhase.flushing ∧ s.fenced = false ∧ (∀ w ∈ s.outstanding, w.data ≠ [])) ∧ ∃
      b, b = bankBytes s.reel (if s.reel.lastFlush = true then 3 else 2) (s.reel.bankSeq + 1) ∧ bankOff (s.reel.bankSeq + 1) + b.length ≤
      s.reel.size) ∧
    (∃ (s : State), s.reel.isOpen = true ∧ s.reel.flush = FlushPhase.banking ∧ s.writesBelow 196608 = false ∧ (s.reel.lastFlush = true ∨
      s.reel.closing = false ∧ s.reel.index.length + 1 < 4096)) :=
  ⟨⟨(reelUp { openReel with tail := 1114048 } (up .record)), by decide +kernel, ex_eq (by unfold State.InExtent; decide +kernel)⟩,
   ⟨(reelUp { openReel with tail := 1114048 } (up .record)), by decide +kernel, ex_eq (by unfold State.InExtent; decide +kernel)⟩,
   ⟨(reelUp { openReel with tail := 1113600, closing := true } (up .record)), .flushTimer, by decide +kernel, ex_eq
     (by unfold State.InExtent; decide +kernel)⟩,
   ⟨(up .live), by decide +kernel⟩,
   ⟨(up .live), by decide +kernel⟩,
   ⟨(reelUp { openReel with flush := .writing } (up .record)), by decide +kernel⟩,
   ⟨(reelUp { openReel with flush := .flushing } (up .record)), by decide +kernel, ex_eq (by decide +kernel)⟩,
   ⟨(reelUp { openReel with flush := .banking, endOff := 1048576 + 64, times := [(1048576 + 64, {}), (1048576+65, {})] } (op5 0x82 [])),
     by decide +kernel⟩⟩

theorem witness_CondenserJobs :
    (∃ (s : State) (i : Instr) (tag : Nat) (h : HostData) (inf : Bool) (bufs : List (Nat × Nat)) (b : List Byte), s.starts tag (if inf =
      true then 137 else 136) (badCond inf h) ∧ ((i = Instr.compress tag h ∧ inf = false ∨ i = Instr.decompress tag h ∧ inf = true) ∧ s.on
      Pg.cond Reg.COND_CTRL_ENABLE = true ∧ h.data = some b) ∧ ∃ c, c = s.hq.cmds.get tag ∧ s.buffers c h false = Except.ok bufs ∧
      s.windowOk c.fn (c.cdw 8 + 2 ^ 32 * c.cdw 9) (c.cdw 10) true = true) ∧
    (∃ (s : State) (j : CondJob) (l : List CondJob) (verified : Bool), s.on Pg.cond Reg.COND_STATE_BUSY = true ∧ s.cond.queue = j :: l ∧ (∀
      x ∈ l, x.cmd.isSome = true) ∧ (verified = true ∨ j.inflate = true) ∧ j.run.need = false ∧ (j.run.full && j.stream) = false ∧ s.fld
      Pg.cond Reg.COMMON_PWR_REQ_STATUS = 3 ∧ s.fld Pg.cond Reg.COMMON_PWR_REQ_REQ = 3) ∧
    (∃ (s : State) (j : CondJob) (l : List CondJob), s.on Pg.cond Reg.COND_STATE_BUSY = true ∧ s.cond.queue = j :: l ∧ (∀ x ∈ l,
      x.cmd.isSome = true) ∧ j.inflate = false ∧ s.fld Pg.cond Reg.COMMON_PWR_REQ_STATUS = 3 ∧ s.fld Pg.cond Reg.COMMON_PWR_REQ_REQ = 3) :=
  ⟨⟨(cond5 0x88 9), (.compress 5 cin), 5, cin, false, [(0x1000, 3)], [1, 2, 3], by unfold State.starts State.mayRun; decide +kernel,
     by decide +kernel, ex_eq (by decide +kernel)⟩,
   ⟨(running1 inflateJob), inflateJob, [], false, by decide +kernel⟩,
   ⟨(running1 deflateJob), deflateJob, [], by decide +kernel⟩⟩

theorem witness_RegisterJobs :
    (∃ (s : State) (r : Req) (v : Word), s.accepts r Pg.cond 8 v = true ∧ wmSet v Reg.COND_CTRL_GO = true ∧ wmSet v Reg.COND_CTRL_RESUME =
      false ∧ wmSet v Reg.COND_CTRL_ABORT = false ∧ wfld (s.written r Pg.cond 8 v) Reg.COND_CTRL_ENABLE = 1 ∧ s.fld Pg.cond
      Reg.COND_STATE_PHASE = 0 ∧ s.fld Pg.cond Reg.COND_SRC_LEN ≠ 0 ∧ s.fld Pg.cond Reg.COMMON_PWR_REQ_STATUS = 3 ∧ s.on Pg.cond
      Reg.COND_STATE_BUSY = false ∧ s.cond.queue = [] ∧ s.condMay = true) ∧
    (∃ (s : State) (r : Req) (v : Word), s.accepts r Pg.cond 8 v = true ∧ wmSet v Reg.COND_CTRL_GO = true ∧ wmSet v Reg.COND_CTRL_RESUME =
      false ∧ wmSet v Reg.COND_CTRL_ABORT = false ∧ wfld (s.written r Pg.cond 8 v) Reg.COND_CTRL_ENABLE = 1 ∧ s.fld Pg.cond
      Reg.COND_STATE_PHASE = 0 ∧ s.fld Pg.cond Reg.COND_SRC_LEN ≠ 0 ∧ s.fld Pg.cond Reg.COMMON_PWR_REQ_STATUS = 3 ∧ s.on Pg.cond
      Reg.COND_STATE_BUSY = true) ∧
    (∃ (s : State) (r : Req) (v : Word), s.accepts r Pg.cond 8 v = true ∧ wmSet v Reg.COND_CTRL_GO = true ∧ wmSet v Reg.COND_CTRL_RESUME =
      false ∧ wmSet v Reg.COND_CTRL_ABORT = false ∧ wfld (s.written r Pg.cond 8 v) Reg.COND_CTRL_ENABLE = 1 ∧ s.fld Pg.cond
      Reg.COND_STATE_PHASE = 0 ∧ s.fld Pg.cond Reg.COND_SRC_LEN = 0) ∧
    (∃ (s : State) (r : Req) (v : Word), s.accepts r Pg.cond 8 v = true ∧ wmSet v Reg.COND_CTRL_GO = true ∧ wmSet v Reg.COND_CTRL_RESUME =
      false ∧ wmSet v Reg.COND_CTRL_ABORT = false ∧ wfld (s.written r Pg.cond 8 v) Reg.COND_CTRL_ENABLE = s.fld Pg.cond Reg.COND_CTRL_ENABLE
      ∧ (s.fld Pg.cond Reg.COND_STATE_PHASE ≠ 0 ∨ s.on Pg.cond Reg.COND_CTRL_ENABLE = false)) ∧
    (∃ (s : State) (r : Req) (v : Word), (s.accepts r Pg.cond 8 v = true ∧ wmSet v Reg.COND_CTRL_GO = false ∧ wmSet v Reg.COND_CTRL_RESUME =
      true ∧ wmSet v Reg.COND_CTRL_ABORT = false ∧ wfld (s.written r Pg.cond 8 v) Reg.COND_CTRL_ENABLE = 1 ∧ s.on Pg.cond
      Reg.COND_STATE_BUSY = false ∧ s.cond.queue = [] ∧ s.condMay = true ∧ s.fld Pg.cond Reg.COND_STATE_PHASE = 2) ∧ ∃ j, s.cond.parked =
      some j ∧ j.cmd = none) ∧
    (∃ (s : State) (r : Req) (v : Word), (s.accepts r Pg.cond 8 v = true ∧ wmSet v Reg.COND_CTRL_GO = false ∧ wmSet v Reg.COND_CTRL_RESUME =
      true ∧ wmSet v Reg.COND_CTRL_ABORT = false ∧ wfld (s.written r Pg.cond 8 v) Reg.COND_CTRL_ENABLE = 1 ∧ s.on Pg.cond
      Reg.COND_STATE_BUSY = false ∧ s.cond.queue = [] ∧ s.condMay = true ∧ s.fld Pg.cond Reg.COND_STATE_PHASE = 3 ∧ s.fld Pg.cond
      Reg.COND_SRC_LEN ≠ 0) ∧ ∃ j, s.cond.parked = some j ∧ j.cmd = none) ∧
    (∃ (s : State) (r : Req) (v : Word), s.accepts r Pg.cond 8 v = true ∧ wmSet v Reg.COND_CTRL_GO = false ∧ wmSet v Reg.COND_CTRL_RESUME =
      true ∧ wmSet v Reg.COND_CTRL_ABORT = false ∧ wfld (s.written r Pg.cond 8 v) Reg.COND_CTRL_ENABLE = s.fld Pg.cond Reg.COND_CTRL_ENABLE
      ∧ (s.cond.parked = none ∨ s.on Pg.cond Reg.COND_CTRL_ENABLE = false)) ∧
    (∃ (s : State) (r : Req) (v : Word), s.accepts r Pg.cond 8 v = true ∧ wmSet v Reg.COND_CTRL_GO = false ∧ wmSet v Reg.COND_CTRL_RESUME =
      false ∧ wmSet v Reg.COND_CTRL_ABORT = true ∧ s.fld Pg.cond Reg.COND_STATE_PHASE = 0 ∧ wfld (s.written r Pg.cond 8 v)
      Reg.COND_CTRL_ENABLE = s.fld Pg.cond Reg.COND_CTRL_ENABLE) ∧
    (∃ (s : State) (r : Req) (v : Word), (s.accepts r Pg.cond 8 v = true ∧ wmSet v Reg.COND_CTRL_GO = false ∧ wmSet v Reg.COND_CTRL_RESUME =
      false ∧ wmSet v Reg.COND_CTRL_ABORT = true ∧ s.fld Pg.cond Reg.COND_STATE_PHASE ≠ 0) ∧ ∃ j, s.cond.parked = some j ∧ j.cmd = none) ∧
    (∃ (s : State) (r : Req) (v : Word) (j : CondJob), s.accepts r Pg.cond 8 v = true ∧ wmSet v Reg.COND_CTRL_GO = false ∧ wmSet v
      Reg.COND_CTRL_RESUME = false ∧ wmSet v Reg.COND_CTRL_ABORT = true ∧ s.fld Pg.cond Reg.COND_STATE_PHASE = 4 ∧ s.cond.parked = none ∧
      List.find? (fun x => decide (x.cmd = none)) s.cond.queue = some j) ∧
    (∃ (s : State) (r : Req) (v : Word) (j : CondJob), s.accepts r Pg.cond 8 v = true ∧ wmSet v Reg.COND_CTRL_GO = false ∧ wmSet v
      Reg.COND_CTRL_RESUME = false ∧ wmSet v Reg.COND_CTRL_ABORT = true ∧ s.cond.parked = none ∧ s.cond.queue = [j] ∧ j.cmd = none ∧ s.fld
      Pg.cond Reg.COND_STATE_PHASE = 1 ∧ s.fld Pg.cond Reg.COMMON_PWR_REQ_STATUS = 3 ∧ s.fld Pg.cond Reg.COMMON_PWR_REQ_REQ = 3) ∧
    (∃ (s : State) (j : CondJob), s.on Pg.cond Reg.COND_STATE_BUSY = true ∧ s.cond.queue = [j] ∧ j.cmd = none ∧ j.stream = true ∧ s.fld
      Pg.cond Reg.COMMON_PWR_REQ_STATUS = 3 ∧ s.fld Pg.cond Reg.COMMON_PWR_REQ_REQ = 3 ∧ j.run.full = true) ∧
    (∃ (s : State) (j : CondJob), s.on Pg.cond Reg.COND_STATE_BUSY = true ∧ s.cond.queue = [j] ∧ j.cmd = none ∧ j.stream = true ∧ s.fld
      Pg.cond Reg.COMMON_PWR_REQ_STATUS = 3 ∧ s.fld Pg.cond Reg.COMMON_PWR_REQ_REQ = 3 ∧ j.run.need = true) :=
  ⟨⟨((condUp (up .standby)).having Pg.cond [(Reg.COND_SRC_LEN, 4)]), .pf0, go, by decide +kernel⟩,
   ⟨st_RegisterJobs_2, .pf0, go, by decide +kernel⟩,
   ⟨(condUp (up .standby)), .pf0, go, by decide +kernel⟩,
   ⟨(running1 deflateJob), .pf1, go, by decide +kernel⟩,
   ⟨(parkedS 2), .pf0, (wm Reg.COND_CTRL_RESUME 1), by decide +kernel, ex_some (by decide +kernel)⟩,
   ⟨(parkedS 3), .pf0, (wm Reg.COND_CTRL_RESUME 1), by decide +kernel, ex_some (by decide +kernel)⟩,
   ⟨(condUp (up .standby)), .pf0, (wm Reg.COND_CTRL_RESUME 1), by decide +kernel⟩,
   ⟨(condUp (up .standby)), .pf0, (wm Reg.COND_CTRL_ABORT 1), by decide +kernel⟩,
   ⟨(parkedS 3), .pf0, (wm Reg.COND_CTRL_ABORT 1), by decide +kernel, ex_some (by decide +kernel)⟩,
   ⟨st_RegisterJobs_10, .pf0, (wm Reg.COND_CTRL_ABORT 1), deflateJob, by decide +kernel⟩,
   ⟨(running1 deflateJob), .pf0, (wm Reg.COND_CTRL_ABORT 1), deflateJob, by decide +kernel⟩,
   ⟨(running1 fullJob), fullJob, by decide +kernel⟩,
   ⟨(running1 needJob), needJob, by decide +kernel⟩⟩

theorem witness_LoupeOutputs :
    (∃ (s : State) (r : Req) (n : Nat) (v : Word), n < 4 ∧ s.accepts r (Pg.loupe n) 8 v = true ∧ outputMode s.ctl.mode = true ∧ s.on
      (Pg.loupe n) Reg.LOUPE_CTRL_ENABLE = false ∧ wfld (s.written r (Pg.loupe n) 8 v) Reg.LOUPE_CTRL_ENABLE = 1 ∧ s.enableBarred n true =
      false) ∧
    (∃ (s : State) (r : Req) (n : Nat) (v : Word), n < 4 ∧ s.accepts r (Pg.loupe n) 8 v = true ∧ outputMode s.ctl.mode = true ∧ wmSet v
      Reg.LOUPE_CTRL_ENABLE = true ∧ (s.enableBarred n !s.on (Pg.loupe n) Reg.LOUPE_CTRL_ENABLE) = true) ∧
    (∃ (s : State) (r : Req) (n : Nat) (v : Word), n < 4 ∧ s.accepts r (Pg.loupe n) 8 v = true ∧ outputMode s.ctl.mode = true ∧ s.on
      (Pg.loupe n) Reg.LOUPE_CTRL_ENABLE = true ∧ wfld (s.written r (Pg.loupe n) 8 v) Reg.LOUPE_CTRL_ENABLE = 0 ∧ ¬(s.fld (Pg.loupe n)
      Reg.COMMON_COMMIT_PENDING = 1 ∧ s.fld (Pg.loupe n) Reg.COMMON_COMMIT_SOURCE = 1) ∧ s.fld (Pg.loupe n) Reg.COMMON_PWR_REQ_REQ = 3) ∧
    (∃ (s : State) (n : Nat), n < 4 ∧ s.engineOk n = true ∧ (s.engine n).begun = false ∧ s.fld (Pg.loupe n) Reg.LOUPE_STATE_PHASE = 1 ∧
      (s.engine n).black = 0 ∧ (s.engine n).vals = s.activeVals n ∧ ¬(s.fld (Pg.loupe n) Reg.COMMON_COMMIT_PENDING = 1 ∧ s.fld (Pg.loupe n)
      Reg.COMMON_COMMIT_SOURCE = 1)) ∧
    (∃ (s : State) (n : Nat), (n < 4 ∧ s.engineRuns n = true ∧ (s.engine n).begun = false ∧ (s.engine n).vals ≠ [] ∧ ¬(s.fld (Pg.loupe n)
      Reg.COMMON_COMMIT_PENDING = 1 ∧ s.fld (Pg.loupe n) Reg.COMMON_COMMIT_SOURCE = 1)) ∧ ∃ (u : State), u = s.putEngine n
      ({ s.engine n with vals := s.activeVals n }) ∧ (u.engFmt n, u.engRate n) ≠ (s.engFmt n, s.engRate n)) ∧
    (∃ (s : State) (n : Nat), n < 4 ∧ s.engineOk n = true ∧ (s.engine n).begun = true ∧ activeLine (s.engFmt n) (s.engine n).line = none ∧
      (s.engine n).line + 1 < fmtLines (s.engFmt n)) ∧
    (∃ (s : State) (n y : Nat), n < 4 ∧ s.engineOk n = true ∧ (s.engine n).begun = true ∧ activeLine (s.engFmt n) (s.engine n).line = some
      y) ∧
    (∃ (s : State) (n : Nat), n < 4 ∧ s.engineRuns n = true ∧ s.locks n = true ∧ s.on (Pg.loupe n) Reg.LOUPE_STATE_HOLDOVER = false) :=
  ⟨⟨(up .standby), .pf0, 3, (wm Reg.LOUPE_CTRL_ENABLE 1), by decide +kernel⟩,
   ⟨(lpe 3 [(Reg.LOUPE_CFG_MAX_FMT, 7)] (up .standby)), .pf0, 3, (wm Reg.LOUPE_CTRL_ENABLE 1), by decide +kernel⟩,
   ⟨(eng3 { source := some (7, 2) } { up .standby with split := { holds := [(.loupe 3, 7, 2), (.loupe 2, 7, 2)] } }), .pf0, 3, (wm
     Reg.LOUPE_CTRL_ENABLE 0), by decide +kernel⟩,
   ⟨(eng3 {} (up .standby)), 3, by decide +kernel⟩,
   ⟨st_LoupeOutputs_5, 3, by decide +kernel, ex_eq (by decide +kernel)⟩,
   ⟨(eng3 { begun := true, line := 0 } (up .standby)), 3, by decide +kernel⟩,
   ⟨(eng3 { begun := true, line := 30 } (sdiOn (up .standby))), 3, 0, by decide +kernel⟩,
   ⟨(lpe 3 [(Reg.LOUPE_CFG_LOCK, 1)] (eng3 {} (up .live))), 3, by decide +kernel⟩⟩

theorem witness_MirrorAndEthernet :
    (∃ (s : State) (k : Nat) (b : MirrorLine) (x : Nat × Nat × Nat), k < 4 ∧ s.mirrors k = true ∧ List.find? (fun e => decide (e.1 = k))
      (s.engine (s.linkEngine k)).crcs = some x ∧ s.isLost k = false ∧ b.behind = false ∧ b.refs = true) ∧
    (∃ (s : State) (k : Nat) (b : MirrorLine) (x : Nat × Nat × Nat), k < 4 ∧ s.mirrors k = true ∧ List.find? (fun e => decide (e.1 = k))
      (s.engine (s.linkEngine k)).crcs = some x ∧ s.isLost k = false ∧ b.behind = false ∧ b.refs = false ∧ (s.mirror.get k).missing = 0) ∧
    (∃ (s : State) (k : Nat) (b : MirrorLine) (x : Nat × Nat × Nat), k < 4 ∧ s.mirrors k = true ∧ List.find? (fun e => decide (e.1 = k))
      (s.engine (s.linkEngine k)).crcs = some x ∧ s.isLost k = false ∧ (b.behind = true ∨ b.refs = false ∧ 1 ≤ (s.mirror.get k).missing)) ∧
    (∃ (s : State) (e : Nat) (frame : List Byte), e < 2 ∧ s.ethUp e = true ∧ isPtp frame = false) ∧
    (∃ (s : State) (e : Nat) (frame : List Byte), e < 2 ∧ s.ethUp e = true ∧ isPtp frame = true) ∧
    (∃ (s : State) (e : Nat) (up : Bool), e < 2 ∧ outputMode s.ctl.mode = true ∧ s.on (Pg.eth e) Reg.ETH_CTRL_ENABLE = true ∧ s.on (Pg.eth
      e) Reg.ETH_STATE_LINK_UP ≠ up) ∧
    (∃ (s : State) (e : Nat), e < 2 ∧ outputMode s.ctl.mode = true ∧ s.on (Pg.eth e) Reg.ETH_CTRL_ENABLE = true) ∧
    (∃ (s : State) (e : Nat), e < 2 ∧ outputMode s.ctl.mode = true ∧ s.on (Pg.eth e) Reg.ETH_CTRL_ENABLE = true) :=
  ⟨⟨(mir3 crc3), 3, ⟨true, false, 26, 77⟩, (3, 30, 77), by decide +kernel⟩,
   ⟨(mir3 crc3), 3, ⟨false, false, 26, 77⟩, (3, 30, 77), by decide +kernel⟩,
   ⟨(mir3 crc3), 3, ⟨true, true, 26, 77⟩, (3, 30, 77), by decide +kernel⟩,
   ⟨(eth1 (up .live)), 1, (zeros 60), by decide +kernel⟩,
   ⟨(eth1 (up .live)), 1, ptpFrame, by decide +kernel⟩,
   ⟨ethLive, 1, false, by decide +kernel⟩,
   ⟨(eth1 (up .live)), 1, by decide +kernel⟩,
   ⟨(eth1 (up .live)), 1, by decide +kernel⟩⟩

theorem witness_Flows :
    (∃ (s : State) (r : Req) (f : Nat) (v : Word), (f < 16 ∧ s.accepts r Pg.pkt2110 (64 + 32 * f) v = true ∧ s.flowFld f
      Reg.PKT2110_FLOW_CFG_EN = 0) ∧ ∃ u, u = s.wr (Pg.pkt2110 * 4096 + (64 + 32 * f)) (s.written r Pg.pkt2110 (64 + 32 * f) v) ∧ u.flowOn f
      = true ∧ u.flowBad f = false ∧ u.flowOver f = false) ∧
    (∃ (s : State) (r : Req) (f : Nat) (v : Word), (f < 16 ∧ s.accepts r Pg.pkt2110 (64 + 32 * f) v = true ∧ s.flowFld f
      Reg.PKT2110_FLOW_CFG_EN = 0) ∧ ∃ u, u = s.wr (Pg.pkt2110 * 4096 + (64 + 32 * f)) (s.written r Pg.pkt2110 (64 + 32 * f) v) ∧ u.flowOn f
      = true ∧ (u.flowBad f = true ∨ u.flowOver f = true)) ∧
    (∃ (s : State) (r : Req) (f : Nat) (v : Word), (f < 16 ∧ s.accepts r Pg.pkt2110 (64 + 32 * f) v = true ∧ s.flowFld f
      Reg.PKT2110_FLOW_CFG_EN = 1) ∧ ∃ u, u = s.wr (Pg.pkt2110 * 4096 + (64 + 32 * f)) (s.written r Pg.pkt2110 (64 + 32 * f) v) ∧ s.rd
      (Pg.pkt2110 * 4096 + (64 + 32 * f)) ||| 1 ≠ u.rd (Pg.pkt2110 * 4096 + (64 + 32 * f)) ||| 1) ∧
    (∃ (s : State) (r : Req) (f : Nat) (v : Word), (f < 16 ∧ s.accepts r Pg.pkt2110 (64 + 32 * f) v = true ∧ s.flowFld f
      Reg.PKT2110_FLOW_CFG_EN = 1) ∧ ∃ u, u = s.wr (Pg.pkt2110 * 4096 + (64 + 32 * f)) (s.written r Pg.pkt2110 (64 + 32 * f) v) ∧ u.flowFld
      f Reg.PKT2110_FLOW_CFG_EN = 0 ∧ s.rd (Pg.pkt2110 * 4096 + (64 + 32 * f)) ||| 1 = u.rd (Pg.pkt2110 * 4096 + (64 + 32 * f)) ||| 1) ∧
    (∃ (s : State) (f : Nat), f < 16 ∧ s.flowSends f = false) ∧
    (∃ (s : State) (f g : Nat), (f < 16 ∧ s.flowSends f = true ∧ s.flowType f = 0 ∧ s.flowSrc f < 8 ∧ s.srcRuns (s.flowSrc f) = true ∧
      s.newestOf (s.flowSrc f) = some g) ∧ ∃ x, x = s.flow f ∧ x.frame = none ∧ ∃ p, p = s.flowShape f ∧ ∃ r, s.flowRate f = some r ∧ ∃ j, j
      = alignIndex s.time.ticks r ∧ x.index ≠ j + 1 ∧ ∃ n, p.step (s.flowExt f) 0 0 = some n) ∧
    (∃ (s : State) (f g : Nat) (r : Nat × Nat), (f < 16 ∧ s.flowSends f = true ∧ s.flowType f = 0 ∧ s.flowSrc f < 8 ∧ s.flowRate f = some r)
      ∧ ∃ x, x = s.flow f ∧ x.frame = some g) ∧
    (∃ (s : State) (f n : Nat) (newest row : Nat × List (Nat × Nat × Nat)) (rest : List (Nat × List (Nat × Nat × Nat))), (f < 16 ∧
      s.flowSends f = true ∧ s.flowType f = 0 ∧ s.flowSrc f = 8 + n ∧ s.engineOk n = true ∧ (s.engine n).rows = newest :: rest) ∧ ∃ x, x =
      s.flow f ∧ (x.line ≤ newest.1 ∧ List.find? (fun z => decide (z.1 = x.line)) (s.engine n).rows = some row) ∧ ∃ p, p = s.flowShape f ∧
      x.line ≤ (s.fld64 (Pg.loupe n) Reg.LOUPE_FRAMES_LO Reg.LOUPE_FRAMES_HI + 1) * p.h ∧ ∃ r, s.flowRate f = some r) ∧
    (∃ (s : State) (f : Nat), (f < 16 ∧ s.flowSends f = true ∧ s.flowType f = 1 ∧ s.audServes (s.flowSrc f) (s.flowFs f) = true) ∧ ∃ x, x =
      s.flow f ∧ (x.index + 1) * s.packetTicks f ≤ s.time.ticks) ∧
    (∃ (s : State) (f : Nat), (f < 16 ∧ s.flowSends f = true ∧ s.flowType f = 2 ∧ (s.engine (s.flowSrc f)).begun = true ∧ s.engFmt
      (s.flowSrc f) ≠ 1) ∧ ∃ x, x = s.flow f ∧ x.index ≠ 2 * s.fld64 (Pg.loupe (s.flowSrc f)) Reg.LOUPE_FRAMES_LO Reg.LOUPE_FRAMES_HI + 1 ∧
      ∃ r, s.flowRate f = some r) :=
  ⟨⟨(up .live), .pf0, 2, (flCfg 1 0 3), by decide +kernel, ex_eq (by decide +kernel)⟩,
   ⟨(up .live), .pf0, 2, (flCfg 1 0 12), by decide +kernel, ex_eq (by decide +kernel)⟩,
   ⟨flDown, .pf0, 2, (flDown.rd (Pg.pkt2110 * 4096 + 128) ^^^ 3), by decide +kernel, ex_eq (by decide +kernel)⟩,
   ⟨flDown, .pf0, 2, (flDown.rd (Pg.pkt2110 * 4096 + 128) ^^^ 1), by decide +kernel, ex_eq (by decide +kernel)⟩,
   ⟨(flw 2 0 3 (up .live)), 2, by decide +kernel⟩,
   ⟨newPic, 2, 6, by decide +kernel, ex_eq (⟨by decide +kernel, ex_eq (ex_some' (by decide +kernel) (ex_eq (⟨by decide +kernel, ex_isSome
     (by decide +kernel)⟩)))⟩)⟩,
   ⟨(sending 2 0 3 { frame := some 6, seq := 65535 } (w64 (up .live))), 2, 6, (24, 1), by decide +kernel, ex_eq (by decide +kernel)⟩,
   ⟨(rowed { line := 1, seq := 9 }), 2, 3, (1, List.replicate 1280 (1, 2, 3)), (1, List.replicate 1280 (1, 2, 3)), [(0, [])],
     by decide +kernel, ex_eq (⟨by decide +kernel, ex_eq (⟨by decide +kernel, ex_isSome (by decide +kernel)⟩)⟩)⟩,
   ⟨st_Flows_9, 2, by decide +kernel, ex_eq (by decide +kernel)⟩,
   ⟨(sending 2 2 3 { seq := 9 } (eng3 { begun := true } (up .live))), 2, by decide +kernel, ex_eq (⟨by decide +kernel, ex_isSome
     (by decide +kernel)⟩)⟩⟩

theorem witness_TimeCounter :
    (∃ (s : State) (r : Req) (v : Word), (s.accepts r Pg.coll 8 v = true ∧ wmSel v Reg.COLL_CTRL_ENABLE = false ∧ wmSet v Reg.COLL_CTRL_SET
      = false ∧ wmSet v Reg.COLL_CTRL_SNAP = true) ∧ ∃ w, w = s.written r Pg.coll 8 v ∧ wfld w Reg.COLL_CTRL_ENABLE = 1 ∧ (wfld w
      Reg.COLL_CTRL_PTP_EN = 1 ∨ s.servo = 0)) ∧
    (∃ (s : State) (r : Req) (v : Word), (s.accepts r Pg.coll 8 v = true ∧ r ≠ Req.pf1 ∧ wmSel v Reg.COLL_CTRL_ENABLE = false ∧ wmSet v
      Reg.COLL_CTRL_SNAP = false ∧ wmSet v Reg.COLL_CTRL_SET = true ∧ s.servo = 0 ∧ s.on Pg.coll Reg.COLL_CTRL_PTP_EN = false ∧ s.stepBarred
      = false) ∧ ∃ w, w = s.written r Pg.coll 8 v ∧ wfld w Reg.COLL_CTRL_ENABLE = 1) ∧
    (∃ (s : State) (r : Req) (v : Word), (s.accepts r Pg.coll 8 v = true ∧ r ≠ Req.pf1 ∧ wmSel v Reg.COLL_CTRL_ENABLE = false ∧ wmSet v
      Reg.COLL_CTRL_SNAP = false ∧ wmSet v Reg.COLL_CTRL_SET = true ∧ s.servo = 0 ∧ (s.on Pg.coll Reg.COLL_CTRL_PTP_EN = true ∨ s.stepBarred
      = true)) ∧ ∃ w, w = s.written r Pg.coll 8 v ∧ wfld w Reg.COLL_CTRL_ENABLE = 1) ∧
    (∃ (s : State), (s.fld Pg.coll Reg.COLL_SYNC_CFG_IN_MODE = 1 ∨ s.fld Pg.coll Reg.COLL_SYNC_CFG_IN_MODE = 2 ∧ (s.on Pg.coll
      Reg.COLL_CTRL_PTP_EN = true ∨ s.on Pg.coll Reg.COLL_CTRL_ENABLE = false))) ∧
    (∃ (s : State), s.fld Pg.coll Reg.COLL_SYNC_CFG_IN_MODE = 2 ∧ s.on Pg.coll Reg.COLL_CTRL_PTP_EN = false ∧ s.on Pg.coll
      Reg.COLL_CTRL_ENABLE = true) ∧
    (∃ (s : State), s.collRuns = true ∧ s.ctl.mode ≠ Mode.sleep ∧ s.fld Pg.coll Reg.COLL_SYNC_CFG_OUT_MODE = 0) ∧
    (∃ (s : State), s.collRuns = true ∧ s.ctl.mode ≠ Mode.sleep ∧ s.fld Pg.coll Reg.COLL_SYNC_CFG_OUT_MODE = 1) ∧
    (∃ (s : State) (g : Nat), s.collRuns = true ∧ s.ctl.mode ≠ Mode.sleep ∧ s.fld Pg.coll Reg.COLL_SYNC_CFG_OUT_MODE = 2 ∧ s.fld Pg.trig
      Reg.TRIG_STATE_PHASE ≠ 0 ∧ s.exposureAt g ≤ s.time.ticks ∧ s.time.ticks < s.exposureAt (g + 1)) ∧
    (∃ (s : State), s.collRuns = true ∧ s.ctl.mode ≠ Mode.sleep ∧ s.fld Pg.coll Reg.COLL_SYNC_CFG_OUT_MODE = 2 ∧ s.fld Pg.trig
      Reg.TRIG_STATE_PHASE = 0) ∧
    (∃ (s : State) (g : Nat), (s.collRuns = true ∧ s.ctl.mode ≠ Mode.sleep ∧ s.fld Pg.coll Reg.COLL_SYNC_CFG_OUT_MODE = 3) ∧ ∃ grid, grid =
      (fun g => g * s.rate.2 * (1000000000 * tickNs) / max 1 s.rate.1) ∧ grid g ≤ s.time.ticks ∧ s.time.ticks < grid (g + 1)) :=
  ⟨⟨(at5 (up .live)), .pf1, (wm Reg.COLL_CTRL_SNAP 1), by decide +kernel, ex_eq (by decide +kernel)⟩,
   ⟨(at5 (setting (up .standby))), .pf0, (wm Reg.COLL_CTRL_SET 1), by decide +kernel, ex_eq (by decide +kernel)⟩,
   ⟨(at5 (setting ((up .live).having Pg.global [(Reg.GLOBAL_STATE_TAKE, 1)]))), .pf0, (wm Reg.COLL_CTRL_SET 1), by decide +kernel, ex_eq
     (by decide +kernel)⟩,
   ⟨(at5 ((up .live).having Pg.coll [(Reg.COLL_SYNC_CFG_IN_MODE, 1)])), by decide +kernel⟩,
   ⟨(at5 (collUp ((up .live).having Pg.coll [(Reg.COLL_SYNC_CFG_IN_MODE, 2)]))), by decide +kernel⟩,
   ⟨(outMd 0), by decide +kernel⟩,
   ⟨(outMd 1), by decide +kernel⟩,
   ⟨st_TimeCounter_8, 30, by decide +kernel⟩,
   ⟨(outMd 2), by decide +kernel⟩,
   ⟨((outMd 3).having Pg.trig [(Reg.TRIG_RATE_NUM, 24), (Reg.TRIG_RATE_DEN, 1)]), 126, by decide +kernel, ex_eq (by decide +kernel)⟩⟩

theorem witness_PtpServo :
    (∃ (s : State) (m : PtpSyncMsg), (s.ptpOn = true ∧ s.ptpTakes m.supported m.port m.domain = true ∧ -7 ≤ m.logInterval ∧ m.logInterval ≤
      -1 ∧ s.coll.sel = some (m.srcId, m.srcPort)) ∧ ∃ v, v = s.rxStamp - nsUnits m.sec m.ns - corrUnits m.corr ∧ ∃ θ, θ = v - s.coll.delay
      - psUnits (signed 32 (s.fld Pg.coll Reg.COLL_ASYM)) ∧ ∃ far, far = decide (0 < s.det ∧ s.coll.accepted ≠ [] ∧ s.det *
      ↑s.coll.accepted.length < ↑(θ * ↑s.coll.accepted.length - s.coll.accepted.sum).natAbs) ∧ ∃ large, large = decide (8 ≤
      s.coll.delays.length ∧ s.stepBarred = false ∧ ↑(max 1 (s.fld Pg.coll Reg.COLL_STEP_CFG_ACQ)) * 1000 * thetaNs < ↑θ.natAbs) ∧ (s.servo
      = 1 ∧ large = false ∨ s.servo = 2 ∧ far = false ∨ s.servo = 3 ∧ (s.det = 0 ∨ ↑θ.natAbs ≤ s.det))) ∧
    (∃ (s : State) (m : PtpSyncMsg), (s.ptpOn = true ∧ s.ptpTakes m.supported m.port m.domain = true ∧ -7 ≤ m.logInterval ∧ m.logInterval ≤
      -1 ∧ s.coll.sel = some (m.srcId, m.srcPort) ∧ s.servo = 1) ∧ ∃ v, v = s.rxStamp - nsUnits m.sec m.ns - corrUnits m.corr ∧ ∃ θ, θ = v -
      s.coll.delay - psUnits (signed 32 (s.fld Pg.coll Reg.COLL_ASYM)) ∧ ∃ large, large = decide (8 ≤ s.coll.delays.length ∧ s.stepBarred =
      false ∧ ↑(max 1 (s.fld Pg.coll Reg.COLL_STEP_CFG_ACQ)) * 1000 * thetaNs < ↑θ.natAbs) ∧ large = true) ∧
    (∃ (s : State) (m : PtpSyncMsg), (s.ptpOn = true ∧ s.ptpTakes m.supported m.port m.domain = true ∧ -7 ≤ m.logInterval ∧ m.logInterval ≤
      -1 ∧ s.coll.sel = some (m.srcId, m.srcPort)) ∧ ∃ v, v = s.rxStamp - nsUnits m.sec m.ns - corrUnits m.corr ∧ ∃ θ, θ = v - s.coll.delay
      - psUnits (signed 32 (s.fld Pg.coll Reg.COLL_ASYM)) ∧ ∃ far, far = decide (0 < s.det ∧ s.coll.accepted ≠ [] ∧ s.det *
      ↑s.coll.accepted.length < ↑(θ * ↑s.coll.accepted.length - s.coll.accepted.sum).natAbs) ∧ (s.servo = 2 ∧ far = true ∨ s.servo = 3 ∧
      s.det ≠ 0 ∧ s.det < ↑θ.natAbs)) ∧
    (∃ (s : State) (m : PtpSyncMsg), s.ptpOn = true ∧ s.ptpTakes m.supported m.port m.domain = true ∧ -7 ≤ m.logInterval ∧ m.logInterval ≤
      -1 ∧ s.coll.sel = some (m.srcId, m.srcPort) ∧ (s.servo = 0 ∨ 4 ≤ s.servo)) ∧
    (∃ (s : State) (m : PtpSyncMsg), s.coll.sel ≠ some (m.srcId, m.srcPort) ∧ s.ptpTakes m.supported m.port m.domain = true ∧ -7 ≤
      m.logInterval ∧ m.logInterval ≤ -1) ∧
    (∃ (s : State) (c : Instr), ((∃ m, c = Instr.ptpSync m ∧ (s.ptpTakes m.supported m.port m.domain = false ∨ m.logInterval < -7 ∨ -1 <
      m.logInterval)) ∨ (∃ m, c = Instr.ptpAnnounce m ∧ s.ptpTakes m.supported m.port m.domain = false) ∨ ∃ m, c = Instr.ptpDelayResp m ∧
      s.ptpTakes m.supported m.port m.domain = false) ∧ s.ptpOn = true) ∧
    (∃ (s : State) (m b : PtpAnnounceMsg), (s.ptpOn = true ∧ s.ptpTakes m.supported m.port m.domain = true ∧ s.coll.sel = some (b.srcId,
      b.srcPort)) ∧ ∃ l, l = m :: List.filter (fun x => decide (x.srcId ≠ m.srcId) || decide (x.srcPort ≠ m.srcPort)) s.coll.masters ∧
      bestMaster l = some b) ∧
    (∃ (s : State) (m b : PtpAnnounceMsg), (s.ptpOn = true ∧ s.ptpTakes m.supported m.port m.domain = true ∧ s.coll.sel ≠ some (b.srcId,
      b.srcPort)) ∧ ∃ l, l = m :: List.filter (fun x => decide (x.srcId ≠ m.srcId) || decide (x.srcPort ≠ m.srcPort)) s.coll.masters ∧
      bestMaster l = some b) ∧
    (∃ (s : State) (m : PtpAnnounceMsg), s.ptpOn = true ∧ List.find? (fun x => decide (s.coll.sel = some (x.srcId, x.srcPort)))
      s.coll.masters = some m) ∧
    (∃ (s : State) (m : PtpDelayRespMsg) (v t3 : Int), s.ptpOn = true ∧ s.ptpTakes m.supported m.port m.domain = true ∧ s.coll.sel = some
      (m.srcId, m.srcPort) ∧ (s.servo = 1 ∨ s.servo = 2) ∧ s.coll.sync = some v ∧ s.coll.t3 = some t3) ∧
    (∃ (s : State) (m : PtpDelayRespMsg), s.ptpOn = true ∧ s.ptpTakes m.supported m.port m.domain = true ∧ s.coll.sel = some (m.srcId,
      m.srcPort) ∧ s.servo ≠ 1 ∧ s.servo ≠ 2) ∧
    (∃ (s : State), s.ptpOn = true ∧ s.coll.sel.isSome = true) ∧
    (∃ (s : State), s.servo = 4) :=
  ⟨⟨(ptp 1 { sel := some (9, 1) }), sync0, by decide +kernel, ex_eq (ex_eq (ex_eq (ex_eq (by decide +kernel))))⟩,
   ⟨(ptp 1 { sel := some (9, 1), delays := List.replicate 8 0 }), { sync0 with sec := 4 }, by decide +kernel, ex_eq (ex_eq (ex_eq
     (by decide +kernel)))⟩,
   ⟨((ptp 2 { sel := some (9, 1), accepted := [5, 6] }).having Pg.coll [(Reg.COLL_STEP_CFG_DET, 100)]), { sync0 with sec := 4 },
     by decide +kernel, ex_eq (ex_eq (ex_eq (by decide +kernel)))⟩,
   ⟨(ptp 4 { sel := some (9, 1) }), sync0, by decide +kernel⟩,
   ⟨(ptp 2 {}), sync0, by decide +kernel⟩,
   ⟨(ptp 2 {}), (.ptpSync { sync0 with logInterval := -8 }), .inl ⟨_, rfl, by decide +kernel⟩, by decide +kernel⟩,
   ⟨(ptp 2 { sel := some (9, 1), masters := [ann] }), { ann with srcId := 10, gmId := 10, prio1 := 200 }, ann, by decide +kernel, ex_eq
     (by decide +kernel)⟩,
   ⟨(ptp 2 { sel := some (9, 1), masters := [ann] }), { ann with srcId := 10, gmId := 10, prio1 := 1 },
     { ann with srcId := 10, gmId := 10, prio1 := 1 }, by decide +kernel, ex_eq (by decide +kernel)⟩,
   ⟨(ptp 2 { sel := some (9, 1), masters := [ann] }), ann, by decide +kernel⟩,
   ⟨(ptp 2 { sel := some (9, 1), sync := some 3, t3 := some 8 }), ⟨1, true, 127, 9, 1, 5, 250000100, 0⟩, 3, 8, by decide +kernel⟩,
   ⟨(ptp 3 { sel := some (9, 1), sync := some 3, t3 := some 8 }), ⟨1, true, 127, 9, 1, 5, 250000100, 0⟩, by decide +kernel⟩,
   ⟨(ptp 2 { sel := some (9, 1), f := 5 }), by decide +kernel⟩,
   ⟨(ptp 4 { stepSum := 20, stepNum := 2, received := [10, 11, 9] }), by decide +kernel⟩⟩

theorem witness_Triggers :
    (∃ (s : State) (pin : Nat), (pin < 2 ∧ s.pinOn pin = true ∧ s.fld Pg.trig Reg.TRIG_STATE_PHASE ≠ 0 ∧ s.on Pg.coll Reg.COLL_CTRL_ENABLE =
      true ∧ s.on Pg.trig Reg.TRIG_STATE_FENCED = false) ∧ ∃ x, x = s.trig.pin pin ∧ ∃ e, e = s.exposureAt x.next ∧ ∃ due, due = (↑e +
      s.edgeShift pin).toNat ∧ (∀ (l : Nat), x.last = some l → l + s.minPeriod * tickNs ≤ due)) ∧
    (∃ (s : State) (pin : Nat), pin < 2 ∧ s.pinOn pin = true ∧ s.fld Pg.trig Reg.TRIG_STATE_PHASE ≠ 0 ∧ s.on Pg.coll Reg.COLL_CTRL_ENABLE =
      true ∧ s.on Pg.trig Reg.TRIG_STATE_FENCED = true) ∧
    (∃ (s : State) (pin l : Nat), (pin < 2 ∧ s.pinOn pin = true ∧ s.fld Pg.trig Reg.TRIG_STATE_PHASE ≠ 0 ∧ s.on Pg.coll Reg.COLL_CTRL_ENABLE
      = true ∧ s.on Pg.trig Reg.TRIG_STATE_FENCED = false) ∧ ∃ x, x = s.trig.pin pin ∧ x.last = some l ∧ ∃ e, e = s.exposureAt x.next ∧ ∃
      due, due = (↑e + s.edgeShift pin).toNat ∧ due < l + s.minPeriod * tickNs) ∧
    (∃ (s : State) (pin e : Nat), pin < 2 ∧ (s.trig.pin pin).high = some e) :=
  ⟨⟨(trg [] {}), 1, by decide +kernel, ex_eq (ex_eq (ex_eq ((fun l h => nomatch (id h : (none : Option Nat) = some l)))))⟩,
   ⟨(trg [(Reg.TRIG_STATE_FENCED, 1)] {}), 1, by decide +kernel⟩,
   ⟨(trg [] { next := 1, last := some (1042000000 * tickNs) }), 1, (1042000000 * tickNs), by decide +kernel, ex_eq (⟨by decide +kernel,
     ex_eq (ex_eq (by decide +kernel))⟩)⟩,
   ⟨(trg [] { high := some 9 }), 1, 9, by decide +kernel⟩⟩

theorem witness_AudioPorts :
    (∃ (s : State) (r : Req) (p : Nat) (v : Word), p < 4 ∧ s.accepts r (Pg.aud p) 8 v = true ∧ s.on (Pg.aud p) Reg.AUD_CTRL_ENABLE = false ∧
      wfld (s.written r (Pg.aud p) 8 v) Reg.AUD_CTRL_ENABLE = 1 ∧ s.audBad p = false ∧ outputMode s.ctl.mode = true) ∧
    (∃ (s : State) (r : Req) (p : Nat) (v : Word), p < 4 ∧ s.accepts r (Pg.aud p) 8 v = true ∧ s.on (Pg.aud p) Reg.AUD_CTRL_ENABLE = false ∧
      wfld (s.written r (Pg.aud p) 8 v) Reg.AUD_CTRL_ENABLE = 1 ∧ s.audBad p = true ∧ s.fld (Pg.aud p) Reg.COMMON_PWR_REQ_STATUS = 3 ∧ s.fld
      (Pg.aud p) Reg.COMMON_PWR_REQ_REQ = 3) ∧
    (∃ (s : State) (r : Req) (p : Nat) (v : Word), p < 4 ∧ s.accepts r (Pg.aud p) 8 v = true ∧ s.on (Pg.aud p) Reg.AUD_CTRL_ENABLE = true ∧
      wfld (s.written r (Pg.aud p) 8 v) Reg.AUD_CTRL_ENABLE = 0 ∧ s.fld (Pg.aud p) Reg.COMMON_PWR_REQ_STATUS = 3 ∧ s.fld (Pg.aud p)
      Reg.COMMON_PWR_REQ_REQ = 3 ∧ s.audPhase p = 2 ∧ s.on (Pg.aud p) Reg.AUD_STATE_CLOCK_LOST = false) ∧
    (∃ (s : State) (r : Req) (p : Nat) (v : Word), (p < 4 ∧ s.accepts r (Pg.aud p) 8 v = true ∧ s.on (Pg.aud p) Reg.AUD_CTRL_ENABLE = true ∧
      wfld (s.written r (Pg.aud p) 8 v) Reg.AUD_CTRL_ENABLE = 0 ∧ s.fld (Pg.aud p) Reg.COMMON_PWR_REQ_STATUS = 3 ∧ s.fld (Pg.aud p)
      Reg.COMMON_PWR_REQ_REQ = 3 ∧ s.audPhase p = 1 ∧ s.fld (Pg.aud p) Reg.COMMON_COMMIT_PENDING = 0) ∧ ∃ a, a = s.aud.get p ∧ a.blockFrames
      = 0 ∧ a.mask = s.actv (Pg.aud p) Reg.AUD_SLOT_MASK) ∧
    (∃ (s : State) (p : Nat), (p < 4 ∧ s.audMaster p = true ∧ s.on Pg.coll Reg.COLL_CTRL_ENABLE = true ∧ s.fld (Pg.aud p)
      Reg.COMMON_COMMIT_PENDING = 0 ∧ s.audPhase p = 1) ∧ ∃ a, a = s.aud.get p ∧ a.mask = s.actv (Pg.aud p) Reg.AUD_SLOT_MASK ∧ ∃ x, x =
      s.masterSync p ∧ s.audMayStart p x = true) ∧
    (∃ (s : State) (p : Nat), (p < 4 ∧ s.audMaster p = true ∧ s.on Pg.coll Reg.COLL_CTRL_ENABLE = true ∧ s.fld (Pg.aud p)
      Reg.COMMON_COMMIT_PENDING = 0 ∧ s.audPhase p = 1) ∧ ∃ a, a = s.aud.get p ∧ a.mask = s.actv (Pg.aud p) Reg.AUD_SLOT_MASK ∧ ∃ x, x =
      s.masterSync p ∧ s.audMayStart p x = false) ∧
    (∃ (s : State) (p : Nat), (p < 4 ∧ s.audMaster p = true ∧ s.on Pg.coll Reg.COLL_CTRL_ENABLE = true ∧ s.fld (Pg.aud p)
      Reg.COMMON_COMMIT_PENDING = 0 ∧ s.audPhase p = 2 ∧ s.fld (Pg.aud p) Reg.AUD_ROT_WORDS = 0) ∧ ∃ a, a = s.aud.get p ∧ (s.captures p =
      false ∨ ∀ (k : Nat), a.slot ≤ k → k < s.audSlotCount p → a.mask.testBit k = false) ∧ a.mask = s.actv (Pg.aud p) Reg.AUD_SLOT_MASK ∧
      a.stopping = false ∧ a.frame % 64 ≠ 63) ∧
    (∃ (s : State) (p : Nat), (p < 4 ∧ s.audMaster p = true ∧ s.on Pg.coll Reg.COLL_CTRL_ENABLE = true ∧ s.fld (Pg.aud p)
      Reg.COMMON_COMMIT_PENDING = 0 ∧ s.audPhase p = 2 ∧ s.on (Pg.aud p) Reg.AUD_STATE_ROTATED = false) ∧ ∃ a, a = s.aud.get p ∧ (s.captures
      p = false ∨ ∀ (k : Nat), a.slot ≤ k → k < s.audSlotCount p → a.mask.testBit k = false) ∧ (a.mask = s.actv (Pg.aud p) Reg.AUD_SLOT_MASK
      ∧ a.stopping = false ∧ a.frame % 64 ≠ 63) ∧ ∃ ch, ch = (s.channels p a.mask).length ∧ ch ≠ 0 ∧ s.fld (Pg.aud p) Reg.AUD_ROT_WORDS % ch
      ≠ 0) ∧
    (∃ (s : State) (p : Nat), (p < 4 ∧ s.audMaster p = true ∧ s.on Pg.coll Reg.COLL_CTRL_ENABLE = true ∧ s.fld (Pg.aud p)
      Reg.COMMON_COMMIT_PENDING = 0 ∧ s.audPhase p = 2 ∧ s.captures p = true ∧ s.fld (Pg.aud p) Reg.AUD_ROT_WORDS = 0) ∧ ∃ a, a = s.aud.get
      p ∧ (s.captures p = false ∨ ∀ (k : Nat), a.slot ≤ k → k < s.audSlotCount p → a.mask.testBit k = false) ∧ a.mask = s.actv (Pg.aud p)
      Reg.AUD_SLOT_MASK ∧ a.stopping = false ∧ a.frame % 64 = 63) ∧
    (∃ (s : State) (p : Nat), (p < 4 ∧ s.audMaster p = true ∧ s.on Pg.coll Reg.COLL_CTRL_ENABLE = true ∧ s.fld (Pg.aud p)
      Reg.COMMON_COMMIT_PENDING = 0 ∧ s.audPhase p = 2 ∧ s.captures p = false ∧ s.fld (Pg.aud p) Reg.AUD_ROT_WORDS = 0) ∧ ∃ a, a = s.aud.get
      p ∧ (s.captures p = false ∨ ∀ (k : Nat), a.slot ≤ k → k < s.audSlotCount p → a.mask.testBit k = false) ∧ a.mask = s.actv (Pg.aud p)
      Reg.AUD_SLOT_MASK ∧ a.stopping = true ∧ a.frame % 64 ≠ 63) ∧
    (∃ (s : State) (p : Nat), (p < 4 ∧ s.audMaster p = false ∧ s.fld (Pg.aud p) Reg.COMMON_COMMIT_PENDING = 0 ∧ s.audPhase p = 1) ∧ ∃ a, a =
      s.aud.get p ∧ a.mask = s.actv (Pg.aud p) Reg.AUD_SLOT_MASK ∧ ∃ x, x = Time.ofTicks (s.time.ticks - 6 * tickNs) ∧ s.audMayStart p x =
      true) ∧
    (∃ (s : State) (p : Nat), (p < 4 ∧ s.audMaster p = false ∧ s.fld (Pg.aud p) Reg.COMMON_COMMIT_PENDING = 0 ∧ s.audPhase p = 2 ∧ s.fld
      (Pg.aud p) Reg.AUD_ROT_WORDS = 0) ∧ ∃ a, a = s.aud.get p ∧ (s.captures p = false ∨ ∀ (k : Nat), a.slot ≤ k → k < s.audSlotCount p →
      a.mask.testBit k = false) ∧ a.mask = s.actv (Pg.aud p) Reg.AUD_SLOT_MASK ∧ a.stopping = false ∧ a.frame % 64 ≠ 63) ∧
    (∃ (s : State) (p : Nat), p < 4 ∧ s.audMaster p = false ∧ s.audPhase p ≠ 0 ∧ s.on (Pg.aud p) Reg.AUD_STATE_CLOCK_LOST = true) ∧
    (∃ (s : State) (p : Nat), p < 4 ∧ s.audMaster p = false ∧ s.audPhase p ≠ 0 ∧ s.on (Pg.aud p) Reg.AUD_STATE_CLOCK_LOST = false) ∧
    (∃ (s : State) (p : Nat), (p < 4 ∧ s.audPhase p = 2 ∧ s.on (Pg.aud p) Reg.AUD_STATE_CLOCK_LOST = false ∧ s.captures p = true) ∧ ∃ a, a =
      s.aud.get p ∧ a.slot < s.audSlotCount p ∧ a.mask.testBit a.slot = false) ∧
    (∃ (s : State) (p : Nat), (p < 4 ∧ s.audPhase p = 2 ∧ s.on (Pg.aud p) Reg.AUD_STATE_CLOCK_LOST = false ∧ s.captures p = false) ∧ ∃ a, a
      = s.aud.get p ∧ a.slot < s.audSlotCount p ∧ a.mask.testBit a.slot = false) ∧
    (∃ (s : State) (p : Nat), (p < 4 ∧ s.audPhase p = 2 ∧ s.on (Pg.aud p) Reg.AUD_STATE_CLOCK_LOST = false ∧ s.captures p = true) ∧ ∃ dev,
      dev = s.fld (Pg.aud p) Reg.AUD_DEV_PTR ∧ ∃ n, n = s.audB p ∧ ¬(s.on (Pg.aud p) Reg.AUD_CTRL_HOST_CONS = true ∧ (dev + n) % max 1
      (s.audRing p).2 = s.fld (Pg.aud p) Reg.AUD_HOST_PTR) ∧ ∃ a, a = s.aud.get p ∧ a.slot < s.audSlotCount p ∧ a.mask.testBit a.slot =
      true) ∧
    (∃ (s : State) (p : Nat), (p < 4 ∧ s.audPhase p = 2 ∧ s.on (Pg.aud p) Reg.AUD_STATE_CLOCK_LOST = false ∧ s.captures p = true ∧ s.on
      (Pg.aud p) Reg.AUD_CTRL_HOST_CONS = true) ∧ ∃ dev, dev = s.fld (Pg.aud p) Reg.AUD_DEV_PTR ∧ ∃ n, n = s.audB p ∧ (dev + n) % max 1
      (s.audRing p).2 = s.fld (Pg.aud p) Reg.AUD_HOST_PTR ∧ ∃ a,
        a = s.aud.get p ∧ a.slot < s.audSlotCount p ∧ a.mask.testBit a.slot = true) ∧
    (∃ (s : State) (p : Nat), (p < 4 ∧ s.audPhase p = 2 ∧ s.on (Pg.aud p) Reg.AUD_STATE_CLOCK_LOST = false ∧ s.captures p = false) ∧ ∃ dev,
      dev = s.fld (Pg.aud p) Reg.AUD_DEV_PTR ∧ dev ≠ s.fld (Pg.aud p) Reg.AUD_HOST_PTR ∧ ∃ a, a = s.aud.get p ∧ a.slot < s.audSlotCount p ∧
      a.mask.testBit a.slot = true) ∧
    (∃ (s : State) (p : Nat), (p < 4 ∧ s.audPhase p = 2 ∧ s.on (Pg.aud p) Reg.AUD_STATE_CLOCK_LOST = false ∧ s.captures p = false) ∧ ∃ dev,
      dev = s.fld (Pg.aud p) Reg.AUD_DEV_PTR ∧ dev = s.fld (Pg.aud p) Reg.AUD_HOST_PTR ∧ ∃ a, a = s.aud.get p ∧ a.slot < s.audSlotCount p ∧
      a.mask.testBit a.slot = true) :=
  ⟨⟨((up .live).having (Pg.aud 2) [(Reg.AUD_RING_BYTES, 192), (Reg.AUD_STAMP_ENTRIES, 64), (Reg.AUD_DEV_PTR, 192)]), .pf0, 2, en2,
     by decide +kernel⟩,
   ⟨((up .live).having (Pg.aud 2) [(Reg.AUD_FORMAT_FS, 6)]), .pf0, 2, en2, by decide +kernel⟩,
   ⟨(mst 2 [] {}), .pf0, 2, off2, by decide +kernel⟩,
   ⟨(mst 1 [] {}), .pf0, 2, off2, by decide +kernel, ex_eq (by decide +kernel)⟩,
   ⟨(mst 1 [] {}), 2, by decide +kernel, ex_eq (⟨by decide +kernel, ex_eq (by decide +kernel)⟩)⟩,
   ⟨(mst 1 [(Reg.AUD_CTRL_TIMED, 1), (Reg.AUD_START_SEC_LO, 9)] {}), 2, by decide +kernel, ex_eq (⟨by decide +kernel, ex_eq
     (by decide +kernel)⟩)⟩,
   ⟨(mst 2 [] { slot := 8 }), 2, by decide +kernel, ex_eq (⟨(.inr fun k h g => absurd (Nat.lt_of_le_of_lt h g) (by decide +kernel)),
     by decide +kernel⟩)⟩,
   ⟨(mst 2 [(Reg.AUD_ROT_WORDS, 3), (Reg.AUD_RING_BYTES, 192), mask2, (actOf Reg.AUD_SLOT_MASK, 6)] { slot := 8, mask := 6 }), 2,
     by decide +kernel, ex_eq (⟨(.inr fun k h g => absurd (Nat.lt_of_le_of_lt h g) (by decide +kernel)), by decide +kernel, ex_eq
     (by decide +kernel)⟩)⟩,
   ⟨(mst 2 [mask2] { slot := 8, mask := 2, frame := 63, blockFrames := 63 }), 2, by decide +kernel, ex_eq (⟨(.inr fun k h g => absurd
     (Nat.lt_of_le_of_lt h g) (by decide +kernel)), by decide +kernel⟩)⟩,
   ⟨(mst 2 [(Reg.AUD_FORMAT_DIR, 1)] { slot := 8, stopping := true }), 2, by decide +kernel, ex_eq (⟨(.inr fun k h g => absurd
     (Nat.lt_of_le_of_lt h g) (by decide +kernel)), by decide +kernel⟩)⟩,
   ⟨(slv 1 [] {}), 2, by decide +kernel, ex_eq (⟨by decide +kernel, ex_eq (by decide +kernel)⟩)⟩,
   ⟨(slv 2 [(Reg.AUD_FORMAT_SLOTS, 7), (Reg.AUD_FORMAT_SWIDTH, 3)] { slot := 8 }), 2, by decide +kernel, ex_eq (⟨(.inr fun k h g => absurd
     (Nat.lt_of_le_of_lt h g) (by decide +kernel)), by decide +kernel⟩)⟩,
   ⟨(slv 1 [(Reg.AUD_STATE_CLOCK_LOST, 1)] {}), 2, by decide +kernel⟩,
   ⟨(slv 1 [] {}), 2, by decide +kernel⟩,
   ⟨(port2 2 [mask2] { slot := 0, mask := 2 } (up .live)), 2, by decide +kernel, ex_eq (by decide +kernel)⟩,
   ⟨(port2 2 [mask2, (Reg.AUD_FORMAT_DIR, 1)] { slot := 0, mask := 2 } (up .live)), 2, by decide +kernel, ex_eq (by decide +kernel)⟩,
   ⟨(port2 2 [(Reg.AUD_RING_BYTES, 192)] { slot := 1, mask := 2 } (up .live)), 2, by decide +kernel, ex_eq (ex_eq (⟨by decide +kernel, ex_eq
     (by decide +kernel)⟩))⟩,
   ⟨(port2 2 [(Reg.AUD_CTRL_HOST_CONS, 1), (Reg.AUD_RING_BYTES, 192), (Reg.AUD_HOST_PTR, 4)] { slot := 1, mask := 2 } (up .live)), 2,
     by decide +kernel, ex_eq (ex_eq (⟨by decide +kernel, ex_eq (by decide +kernel)⟩))⟩,
   ⟨(port2 2 [(Reg.AUD_FORMAT_DIR, 1), (Reg.AUD_RING_BYTES, 192), (Reg.AUD_HOST_PTR, 3)] { slot := 1, mask := 2 } (up .live)), 2,
     by decide +kernel, ex_eq (⟨by decide +kernel, ex_eq (by decide +kernel)⟩)⟩,
   ⟨(port2 2 [(Reg.AUD_FORMAT_DIR, 1), (Reg.AUD_RING_BYTES, 192)] { slot := 1, mask := 2 } (up .live)), 2, by decide +kernel, ex_eq
     (⟨by decide +kernel, ex_eq (by decide +kernel)⟩)⟩⟩

theorem witness_RelayChannels :
    (∃ (s : State) (r : Req) (c : Nat) (v : Word), c < 8 ∧ s.accepts r Pg.relay (128 + 32 * c) v = true ∧ s.fld Pg.relay
      Reg.COMMON_PWR_REQ_STATUS = 3 ∧ s.fld Pg.relay Reg.COMMON_PWR_REQ_REQ = 3 ∧ wfld v (Reg.RELAY_CH_CTRL_START c) = 1 ∧ wfld v
      (Reg.RELAY_CH_CTRL_ABORT c) = 0 ∧ s.chState c ≠ 1 ∧ s.on Pg.relay Reg.RELAY_CTRL_ENABLE = true ∧ s.on Pg.relay
      Reg.RELAY_STATE_ERR_STOP = false ∧ s.heldReq Pg.relay = none) ∧
    (∃ (s : State) (r : Req) (c : Nat) (v : Word), c < 8 ∧ s.accepts r Pg.relay (128 + 32 * c) v = true ∧ s.fld Pg.relay
      Reg.COMMON_PWR_REQ_STATUS = 3 ∧ s.fld Pg.relay Reg.COMMON_PWR_REQ_REQ = 3 ∧ wfld v (Reg.RELAY_CH_CTRL_START c) = 1 ∧ wfld v
      (Reg.RELAY_CH_CTRL_ABORT c) = 0 ∧ (s.chState c = 1 ∨ s.on Pg.relay Reg.RELAY_CTRL_ENABLE = false ∨ s.on Pg.relay
      Reg.RELAY_STATE_ERR_STOP = true ∨ (s.heldReq Pg.relay).isSome = true)) ∧
    (∃ (s : State) (r : Req) (c : Nat) (v : Word), (s.chDesc c = none ∨ ∃ d, s.chDesc c = some d ∧ (inRegs d.src = true ∨ inRegs d.dst =
      true)) ∧ c < 8 ∧ s.accepts r Pg.relay (128 + 32 * c) v = true ∧ s.fld Pg.relay Reg.COMMON_PWR_REQ_STATUS = 3 ∧ s.fld Pg.relay
      Reg.COMMON_PWR_REQ_REQ = 3 ∧ wfld v (Reg.RELAY_CH_CTRL_START c) = 0 ∧ wfld v (Reg.RELAY_CH_CTRL_ABORT c) = 1 ∧ s.chState c = 1) ∧
    (∃ (s : State) (r : Req) (c : Nat) (v : Word) (d : RelayDesc), c < 8 ∧ s.accepts r Pg.relay (128 + 32 * c) v = true ∧ s.fld Pg.relay
      Reg.COMMON_PWR_REQ_STATUS = 3 ∧ s.fld Pg.relay Reg.COMMON_PWR_REQ_REQ = 3 ∧ wfld v (Reg.RELAY_CH_CTRL_START c) = 0 ∧ wfld v
      (Reg.RELAY_CH_CTRL_ABORT c) = 1 ∧ s.chState c = 1 ∧ s.chDesc c = some d ∧ inRegs d.src = false ∧ inRegs d.dst = false) ∧
    (∃ (s : State) (c : Nat), (c < 8 ∧ s.relayMay c = true ∧ s.chDesc c = none ∧ s.fld Pg.relay Reg.COMMON_PWR_REQ_REQ = 3) ∧ ∃ a, a =
      s.curDesc c ∧ inRegs a = true) ∧
    (∃ (s : State) (c : Nat), (c < 8 ∧ s.relayMay c = true ∧ s.chDesc c = none) ∧ ∃ a, a = s.curDesc c ∧ inRegs a = false ∧ ∃ b, b =
      s.fabRead a 32 ∧ ∃ (d : RelayDesc), d =
      { src := leAt b 0 8, dst := leAt b 8 8, next := leAt b 16 8, len := leAt b 24 4, ctrl := leAt b 28 4 } ∧ d.bad c = false) ∧
    (∃ (s : State) (c : Nat), (c < 8 ∧ s.relayMay c = true ∧ s.chDesc c = none ∧ s.fld Pg.relay Reg.COMMON_PWR_REQ_REQ = 3) ∧ ∃ a, a =
      s.curDesc c ∧ inRegs a = false ∧ ∃ b, b = s.fabRead a 32 ∧ ∃ (d : RelayDesc), d =
      { src := leAt b 0 8, dst := leAt b 8 8, next := leAt b 16 8, len := leAt b 24 4, ctrl := leAt b 28 4 } ∧ d.bad c = true) ∧
    (∃ (s : State) (c : Nat) (d : RelayDesc), c < 8 ∧ s.relayMay c = true ∧ s.chDesc c = some d ∧ inRegs d.src = false ∧ inRegs d.dst =
      false ∧ s.fld Pg.relay Reg.COMMON_PWR_REQ_REQ = 3) ∧
    (∃ (s u : State) (c : Nat) (d : RelayDesc) (ok : Bool), c < 8 ∧ s.relayMay c = true ∧ s.chDesc c = some d ∧ inRegs d.src = false ∧
      inRegs d.dst = true ∧ d.len = 4 ∧ d.srcW = 4 ∧ d.dstW = 4 ∧ s.beatWrite c (d.dst - regBase) 15 (BitVec.ofNat 32 (leNat (s.fabRead
      d.src 4))) = (u, ok) ∧ ok = true ∧ u.chState c = 1 ∧ u.chDesc c = some d) ∧
    (∃ (s u : State) (c : Nat) (d : RelayDesc) (ok : Bool), c < 8 ∧ s.relayMay c = true ∧ s.chDesc c = some d ∧ inRegs d.src = false ∧
      inRegs d.dst = true ∧ d.len = 4 ∧ d.srcW = 4 ∧ d.dstW = 4 ∧ s.beatWrite c (d.dst - regBase) 15 (BitVec.ofNat 32 (leNat (s.fabRead
      d.src 4))) = (u, ok) ∧ ok = false) ∧
    (∃ (s u : State) (c : Nat) (d : RelayDesc) (w : Option Word), (c < 8 ∧ s.relayMay c = true ∧ s.chDesc c = some d ∧ inRegs d.src = true ∧
      inRegs d.dst = false ∧ d.len = 4 ∧ d.srcW = 4 ∧ d.dstW = 4 ∧ s.beatRead c (d.src - regBase) 15 = (u, w) ∧ u.chState c = 1 ∧ u.chDesc c
      = some d) ∧ ∃ x, w = some x) ∧
    (∃ (s u : State) (c : Nat) (d : RelayDesc) (w : Option Word), c < 8 ∧ s.relayMay c = true ∧ s.chDesc c = some d ∧ inRegs d.src = true ∧
      inRegs d.dst = false ∧ d.len = 4 ∧ d.srcW = 4 ∧ d.dstW = 4 ∧ s.beatRead c (d.src - regBase) 15 = (u, w) ∧ w = none) ∧
    (∃ (s : State), s.fld Pg.relay Reg.RELAY_STATE_ACTIVE ≠ 0 ∧ s.fld Pg.relay Reg.COMMON_PWR_REQ_STATUS = 3 ∧ s.fld Pg.relay
      Reg.COMMON_PWR_REQ_REQ = 3) ∧
    (∃ (s : State) (r : Req) (v : Word), s.accepts r Pg.relay 8 v = true ∧ wmSet v Reg.RELAY_CTRL_CLEAR = true ∧ s.on Pg.relay
      Reg.RELAY_STATE_ERR_STOP = true ∧ s.fld Pg.relay Reg.COMMON_PWR_REQ_STATUS = 3 ∧ s.fld Pg.relay Reg.COMMON_PWR_REQ_REQ = 3) ∧
    (∃ (s : State) (r : Req) (v : Word), s.accepts r Pg.relay 8 v = true ∧ wmSet v Reg.RELAY_CTRL_CLEAR = true ∧ s.on Pg.relay
      Reg.RELAY_STATE_ERR_STOP = false) :=
  ⟨⟨(rly [(Reg.RELAY_CH_DESC_LO 5, 64), (Reg.RELAY_CH_STATUS_DONE 5, 9)] (up .standby)), .pf1, 5, (chGo 1 0), by decide +kernel⟩,
   ⟨(runCh [] none), .pf1, 5, (chGo 1 0), by decide +kernel⟩,
   ⟨(runCh [] none), .pf1, 5, (chGo 0 1), .inl (by decide +kernel), by decide +kernel⟩,
   ⟨(runCh [] (some desc1)), .pf1, 5, (chGo 0 1), desc1, by decide +kernel⟩,
   ⟨(runCh [(Reg.RELAY_CUR_DESC_HI 5, 0xFF100000)] none), 5, by decide +kernel, ex_eq (by decide +kernel)⟩,
   ⟨(fetching desc1), 5, by decide +kernel, ex_eq (⟨by decide +kernel, ex_eq (ex_eq (by decide +kernel))⟩)⟩,
   ⟨(fetching { desc1 with len := 0 }), 5, by decide +kernel, ex_eq (⟨by decide +kernel, ex_eq (ex_eq (by decide +kernel))⟩)⟩,
   ⟨((runCh [(Reg.RELAY_CUR_DESC_LO 5, 4)] (some desc1)).pokeN 4096 [1, 2, 3, 4, 5]), 5, desc1, by decide +kernel⟩,
   ⟨(rch 5 (toReg 0x10040)), ((rch 5 (toReg 0x10040)).beatWrite 5 0x10040 15 0).1, 5, (toReg 0x10040), true, by decide +kernel⟩,
   ⟨(rch 5 (toReg 0xFFC)), ((rch 5 (toReg 0xFFC)).beatWrite 5 0xFFC 15 0).1, 5, (toReg 0xFFC), false, by decide +kernel⟩,
   ⟨(rch 5 (ofReg 0)), ((rch 5 (ofReg 0)).beatRead 5 0 15).1, 5, (ofReg 0), ((rch 5 (ofReg 0)).beatRead 5 0 15).2, by decide +kernel,
     ex_isSome (by decide +kernel)⟩,
   ⟨(rch 5 (ofReg 0xFFC)), ((rch 5 (ofReg 0xFFC)).beatRead 5 0xFFC 15).1, 5, (ofReg 0xFFC), none, by decide +kernel⟩,
   ⟨(runCh [] (some desc1)), by decide +kernel⟩,
   ⟨(rly [(Reg.RELAY_STATE_ERR_STOP, 1), (Reg.RELAY_CH_STATUS_STATE 5, 3)] (up .standby)), .pf0, (wm Reg.RELAY_CTRL_CLEAR 1),
     by decide +kernel⟩,
   ⟨(rly [] (up .standby)), .pf0, (wm Reg.RELAY_CTRL_CLEAR 1), by decide +kernel⟩⟩

theorem witness_DramController :
    (∃ (s : State) (res : TrainResult) (g : Nat),
      s.ctl.phase = Phase.restoring ∧ (g = 2 ∨ g = 4 ∨ g = 8) ∧ (∀ k < 8, res.gib.getD k 0 = g)) ∧
    (∃ (s : State) (res : TrainResult) (k : Nat), ((∀ (g : Nat), g = 2 ∨ g = 4 ∨ g = 8 → res.gib.getD k 0 ≠ g) ∨ ∃ g, (g = 2 ∨ g = 4 ∨ g =
      8) ∧ res.gib.getD 0 0 = g ∧ res.gib.getD k 0 ≠ g) ∧ s.ctl.phase = Phase.restoring ∧ k < 8) ∧
    (∃ (s : State), s.ctl.phase ≠ Phase.inReset ∧ s.ctl.mode ≠ Mode.sleep ∧ s.dramc.gather = none ∧ s.dramc.change = none) ∧
    (∃ (s : State), (s.dramc.gather.isSome = true ∨ s.dramc.change.isSome = true)) ∧
    (∃ (s : State) (k : Nat), s.dramc.gather = some k ∧ k < 8) ∧
    (∃ (s : State) (r : Req) (v : Word), s.accepts r Pg.dramctl 72 v = true ∧ s.ctl.capRun = false ∧ s.ctl.mode ≠ Mode.review) ∧
    (∃ (s : State) (r : Req) (v : Word), s.accepts r Pg.dramctl 72 v = true ∧ (s.ctl.capRun = true ∨ s.ctl.mode = Mode.review)) ∧
    (∃ (s : State) (fs : Nat), s.dramc.change = some fs ∧ s.dramc.started = true ∧ (∀ e ∈ s.dramc.bands, e.1 < 8)) ∧
    (∃ (s : State) (temps : List (Nat × Nat)), (s.ctl.phase ≠ Phase.inReset ∧ s.ctl.mode ≠ Mode.sleep ∧ temps.length = 8 ∧ s.dramc.started =
      false ∧ s.dramc.bands = [] ∧ s.fld Pg.therm Reg.THERM_STATE_LEVEL = 0 ∧ s.sfld Pg.therm Reg.THERM_TJ < s.warnAt) ∧ ∃ hot, hot =
      (temps.any fun e => decide (105 < e.1)) ∧ (s.ctl.mode = Mode.standby ∨ hot = false)) ∧
    (∃ (s : State) (e : EccError), s.ctl.phase ≠ Phase.inReset ∧ e.fatal = false) ∧
    (∃ (s : State) (e : EccError), s.ctl.phase ≠ Phase.inReset ∧ e.fatal = true) ∧
    (∃ (s : State) (r : Req) (k : Nat), k < 8 ∧ r ≠ Req.pf1 ∧ s.reach r = true ∧ s.domainOff (Pg.dram k) = false) :=
  ⟨⟨(inPhase .standby .restoring), ⟨List.replicate 8 4⟩, 4, by decide +kernel⟩,
   ⟨(inPhase .standby .restoring), ⟨[4, 4, 4, 0, 4, 4, 4, 4]⟩, 3, .inl (by rintro _ (rfl | rfl | rfl) <;> decide), by decide +kernel⟩,
   ⟨(dc { next := 6 } (up .live)), by decide +kernel⟩,
   ⟨(dc { gather := some 7 } (up .live)), by decide +kernel⟩,
   ⟨(dc { gather := some 7 } (up .live)), 7, by decide +kernel⟩,
   ⟨(up .live), .pf0, (fq 3), by decide +kernel⟩,
   ⟨(taking .live), .pf0, (fq 1), by decide +kernel⟩,
   ⟨(dc { change := some 2, started := true, bands := [(3, 2)] } (up .live)), 2, by decide +kernel⟩,
   ⟨(((up .live).having (Pg.dram 2) [(Reg.DRAM_STATE_BAND, 2)])), [(30, 1), (99, 2), (40, 3), (50, 4), (86, 5), (0, 0), (105, 7), (85, 1)],
     by decide +kernel, ex_eq (by decide +kernel)⟩,
   ⟨(up .live), ⟨64, false, none⟩, by decide +kernel⟩,
   ⟨(up .live), ⟨2 ^ 33 + 64, true, none⟩, by decide +kernel⟩,
   ⟨(dc { ueHeld := [3, 7] } ((up .live).having (Pg.dram 7) [(Reg.DRAM_UE_ADDR_LO, 9)])), .pf0, 7, by decide +kernel⟩⟩

theorem witness_PowerDomains :
    (∃ (s : State) (r : Req) (p : Nat) (v : Word), s.accepts r p 36 v = true ∧ ∃ req, req = wfld v Reg.COMMON_PWR_REQ_REQ ∧ ∃ spare, spare =
      (p = Pg.lane 46 ∨ p = Pg.lane 47) ∧ (spare ∧ req ≠ 0 ∨ ¬spare ∧ essential (pageDomain p) = true ∧ reqOf req ≠ 3 ∨ ¬spare ∧ essential
      (pageDomain p) = false ∧ s.pwr.limiting = true ∧ reqOf req = 3 ∧ s.powerRuns p = false)) ∧
    (∃ (s : State) (r : Req) (p : Nat) (v : Word), s.accepts r p 36 v = true ∧ ∃ req, req = wfld v Reg.COMMON_PWR_REQ_REQ ∧ ∃ spare, spare =
      (p = Pg.lane 46 ∨ p = Pg.lane 47) ∧ (spare ∧ req = 0 ∨ ¬spare ∧ essential (pageDomain p) = true ∧ reqOf req = 3)) ∧
    (∃ (s : State) (r : Req) (p : Nat) (v : Word), (s.accepts r p 36 v = true ∧ essential (pageDomain p) = false ∧ s.fld p
      Reg.COMMON_PWR_REQ_STATUS = 3) ∧ ∃ req, req = wfld v Reg.COMMON_PWR_REQ_REQ ∧ ((s.pwr.limiting = false ∨ reqOf req ≠ 3 ∨ s.powerRuns p
      = true) ∧ (reqOf req = 3 ∨ s.heldOn p = true ∧ s.inFlight p = false)) ∧ ∃ spare, spare = (p = Pg.lane 46 ∨ p = Pg.lane 47) ∧ ¬spare) ∧
    (∃ (s : State) (r : Req) (p : Nat) (v : Word), (s.accepts r p 36 v = true ∧ essential (pageDomain p) = false ∧ s.fld p
      Reg.COMMON_PWR_REQ_STATUS = 3 ∧ s.inFlight p = true) ∧ ∃ req, req = wfld v Reg.COMMON_PWR_REQ_REQ ∧ ((s.pwr.limiting = false ∨ reqOf
      req ≠ 3 ∨ s.powerRuns p = true) ∧ reqOf req ≠ 3) ∧ ∃ spare, spare = (p = Pg.lane 46 ∨ p = Pg.lane 47) ∧ ¬spare) ∧
    (∃ (s : State) (r : Req) (p : Nat) (v : Word), (s.accepts r p 36 v = true ∧ essential (pageDomain p) = false ∧ s.fld p
      Reg.COMMON_PWR_REQ_STATUS ≠ 3 ∧ s.pwr.rising.contains p = false) ∧ ∃ req, req = wfld v Reg.COMMON_PWR_REQ_REQ ∧ ((s.pwr.limiting =
      false ∨ reqOf req ≠ 3 ∨ s.powerRuns p = true) ∧ (reqOf req = 3 ∨ s.heldOn p = true)) ∧ ∃ spare, spare = (p = Pg.lane 46 ∨ p = Pg.lane
      47) ∧ ¬spare) ∧
    (∃ (s : State) (r : Req) (p : Nat) (v : Word), (s.accepts r p 36 v = true ∧ essential (pageDomain p) = false ∧ (p = Pg.cond ∨ p =
      Pg.relay) ∧ s.heldOn p = false ∧ s.inFlight p = false ∧ s.pwr.rising.contains p = false) ∧ ∃ req, req = wfld v Reg.COMMON_PWR_REQ_REQ
      ∧ ((s.pwr.limiting = false ∨ reqOf req ≠ 3 ∨ s.powerRuns p = true) ∧ reqOf req ≠ 3) ∧ ∃ spare, spare = (p = Pg.lane 46 ∨ p = Pg.lane
      47) ∧ ¬spare) ∧
    (∃ (s : State) (p req : Nat) (c : Instr), s.heldReq p = some req ∧ (s.cond.queue = [] ∨ s.on Pg.cond Reg.COND_STATE_BUSY = true) ∧ (p =
      Pg.cond ∨ p = Pg.relay) ∧ s.inFlight p = false ∧ s.heldOn p = false ∧ req < 2 ∧ s.fld p Reg.COMMON_PWR_REQ_REQ = req ∧
      s.pwr.rising.contains p = false ∧ s.fld p Reg.COMMON_PWR_REQ_STATUS ≠ 0 ∧ (c = Instr.powerDrainDone p ∨ c = Instr.drainTimeout p)) ∧
    (∃ (s : State) (p req : Nat), s.heldReq p = some req ∧ (s.cond.queue = [] ∨ s.on Pg.cond Reg.COND_STATE_BUSY = true) ∧ s.inFlight p =
      true) ∧
    (∃ (s : State) (p req : Nat), s.heldReq p = some req ∧ (s.cond.queue = [] ∨ s.on Pg.cond Reg.COND_STATE_BUSY = true) ∧ s.inFlight p =
      true) ∧
    (∃ (s : State) (p : Nat), s.pwr.rising.contains p = true ∧ s.fld p Reg.COMMON_PWR_REQ_REQ = 3 ∧ s.cond.queue = [] ∧ s.domainOff p =
      false) ∧
    (∃ (s : State) (p : Nat), s.pwr.rising.contains p = true ∧ s.fld p Reg.COMMON_PWR_REQ_REQ = 3 ∧ s.cond.queue = [] ∧ s.domainOff p = true
      ∧ p ∉ [Pg.fstore, Pg.coll, Pg.rstore]) ∧
    (∃ (s : State), s.ctl.phase ≠ Phase.inReset ∧ (s.cond.queue = [] ∨ s.on Pg.cond Reg.COND_STATE_BUSY = true)) :=
  ⟨⟨(up .live), .pf0, Pg.hostq, (pq 0), by decide +kernel, ex_eq (ex_eq (by decide +kernel))⟩,
   ⟨(up .live), .pf0, (Pg.lane 47), (pq 0), by decide +kernel, ex_eq (ex_eq (by decide +kernel))⟩,
   ⟨(condUp (up .live)), .pf0, Pg.cond, (pq 3), by decide +kernel, ex_eq (⟨by decide +kernel, ex_eq (by decide +kernel)⟩)⟩,
   ⟨(rly [(Reg.RELAY_STATE_ACTIVE, 4)] (up .live)), .pf0, Pg.relay, (pq 1), by decide +kernel, ex_eq (⟨by decide +kernel, ex_eq
     (by decide +kernel)⟩)⟩,
   ⟨((up .live).having Pg.cond [(Reg.COMMON_PWR_REQ_REQ, 0), (Reg.COMMON_PWR_REQ_STATUS, 0)]), .pf0, Pg.cond, (pq 2), by decide +kernel,
     ex_eq (⟨by decide +kernel, ex_eq (by decide +kernel)⟩)⟩,
   ⟨(rly [(Reg.RELAY_CH_DESC_LO 5, 64), (Reg.RELAY_CTRL_ENABLE, 0)] (up .live)), .pf0, Pg.relay, (pq 0), by decide +kernel, ex_eq
     (⟨by decide +kernel, ex_eq (by decide +kernel)⟩)⟩,
   ⟨(held1 Pg.relay 0 [(Reg.COMMON_PWR_REQ_STATUS, 3), (Reg.RELAY_CTRL_ENABLE, 0)]), Pg.relay, 0, (.powerDrainDone Pg.relay),
     by decide +kernel⟩,
   ⟨heldRun, Pg.relay, 0, by decide +kernel⟩,
   ⟨heldRun, Pg.relay, 0, by decide +kernel⟩,
   ⟨st_PowerDomains_10, Pg.cond, by decide +kernel⟩,
   ⟨st_PowerDomains_11, Pg.cond, by decide +kernel⟩,
   ⟨(up .live), by decide +kernel⟩⟩

theorem witness_ThermalLevels :
    (∃ (s : State) (l : List Int) (x : Int), s.ctl.phase ≠ Phase.inReset ∧ l.length = 16 ∧ (∀ y ∈ l, -32768 ≤ y ∧ y < 32768) ∧ (∀ k < 16,
      beyond l (max 1 (s.fld Pg.therm Reg.THERM_XCHK_DIFF)) k = false) ∧ x ∈ l ∧ (∀ y ∈ l, y ≤ x) ∧ s.fld Pg.therm Reg.THERM_SENSOR_FAULT =
      0 ∧ x < s.tripAt ∧ s.therm.hot = false ∧ s.fld Pg.therm Reg.THERM_STATE_LEVEL = 0 ∧ (s.ctl.mode = Mode.standby ∨ x < s.critAt)) ∧
    (∃ (s : State) (l : List Int) (x : Int), s.ctl.phase ≠ Phase.inReset ∧ l.length = 16 ∧ (∀ y ∈ l, -32768 ≤ y ∧ y < 32768) ∧ (∀ k < 16,
      beyond l (max 1 (s.fld Pg.therm Reg.THERM_XCHK_DIFF)) k = false) ∧ x ∈ l ∧ (∀ y ∈ l, y ≤ x) ∧ s.fld Pg.therm Reg.THERM_SENSOR_FAULT =
      0 ∧ s.tripAt ≤ x) :=
  ⟨⟨(up .live), (List.replicate 16 500), 500, by decide +kernel⟩,
   ⟨(up .live), (List.replicate 16 1760), 1760, by decide +kernel⟩⟩

end Sys2Proof.Tests
end

section
/-! SUPPORT and PROOFS. Register reads: what a read answers and which bits it clears (R41, R49, R51). -/

namespace Sys2Proof.Machine

/-! ### Words gathered bit by bit -/

/-- A bit of a word that collects words with OR is set when one of the collected words has it. -/
theorem getLsbD_foldl_or {α : Type} (c : α → Bool) (g : α → Word) (l : List α) (w : Word) (j : Nat) :
    (l.foldl (fun w x => if c x then w ||| g x else w) w).getLsbD j = (w.getLsbD j || l.any fun x => c x && (g x).getLsbD j) := by
  induction l generalizing w with
  | nil => simp
  | cons x l ih =>
    rw [List.foldl_cons, ih, List.any_cons, ← Bool.or_assoc]
    cases c x <;> simp

theorem getLsbD_foldl_or_zero {α : Type} (c : α → Bool) (g : α → Word) (l : List α) (j : Nat) :
    (l.foldl (fun w x => if c x then w ||| g x else w) 0).getLsbD j = l.any fun x => c x && (g x).getLsbD j := by
  have hzero : (0 : Word).getLsbD j = false := BitVec.getLsbD_zero
  rw [getLsbD_foldl_or, hzero, Bool.false_or]

/-- A bit belongs to the mask of the chosen fields when one of these fields has it. -/
theorem getLsbD_maskOf (fs : List FieldSpec) (t : FieldSpec → Bool) (j : Nat) :
    (maskOf fs t).getLsbD j = fs.any fun f => t f && f.mask.getLsbD j :=
  getLsbD_foldl_or_zero _ _ _ _

/-- The mask of some fields of a register lies within the mask of all of them. -/
theorem maskOf_all_and_maskOf (fs : List FieldSpec) (t : FieldSpec → Bool) :
    maskOf fs (fun _ => true) &&& maskOf fs t = maskOf fs t := by
  ext j hj
  simp only [← BitVec.getLsbD_eq_getElem, BitVec.getLsbD_and, getLsbD_maskOf, Bool.true_and]
  rw [Bool.and_eq_right_iff_imp, List.any_eq_true, List.any_eq_true]
  rintro ⟨f, hf, h⟩
  exact ⟨f, hf, (Bool.and_eq_true_iff.1 h).2⟩

/-- With every byte enabled a read clears the RC fields whole. -/
theorem clearMask_full (fs : List FieldSpec) : clearMask fs 15 = maskOf fs fun f => decide (f.kind = .rc) := by
  have h : byteMask 15 = BitVec.allOnes 32 := by decide
  rw [clearMask, h, BitVec.and_allOnes]

/-- Clearing the bits that are set among `m` clears `m`. -/
theorem and_not_and_self_left (w m : Word) : w &&& ~~~ (w &&& m) = w &&& ~~~ m := by
  rw [BitVec.not_and, BitVec.and_or_distrib_left, BitVec.and_not_self]
  exact BitVec.zero_or

/-- A bit of a summary word is the summary bit of its page (R49). -/
theorem State.getLsbD_summary (s : State) (k : Nat) {i : Nat} (hi : i < 32) : (s.summary k).getLsbD i = s.eventOn (32 * k + i) := by
  have hbit : ∀ x, (BitVec.ofNat 32 (2 ^ x)).getLsbD i = decide (x = i) := fun x => by
    rw [BitVec.getLsbD_ofNat, Nat.testBit_two_pow, decide_eq_true hi, Bool.true_and]
  unfold State.summary
  rw [getLsbD_foldl_or_zero, Bool.eq_iff_iff]
  simp only [hbit, List.any_eq_true, List.mem_range, Bool.and_eq_true, decide_eq_true_eq]
  exact ⟨fun ⟨x, _, hx, hxi⟩ => hxi ▸ hx, fun h => ⟨i, hi, h, rfl⟩⟩

/-! ### Bits cleared by a read -/

/-- The bits of `g` cleared in the word at a key, as a read that clears bits leaves it. -/
def State.clearBits (s : State) (a : Nat) (g : Word) : State := if g = 0 then s else s.wr a (s.rd a &&& ~~~ g)

@[simp] theorem State.clearBits_zero (s : State) (a : Nat) : s.clearBits a 0 = s := if_pos rfl

theorem State.rd_clearBits_same (s : State) (a : Nat) (g : Word) : (s.clearBits a g).rd a = s.rd a &&& ~~~ g := by
  unfold State.clearBits
  split
  case isTrue h =>
    have hnot : ~~~ (0 : Word) = BitVec.allOnes 32 := BitVec.not_zero
    rw [h, hnot, BitVec.and_allOnes]
  case isFalse => exact State.rd_wr_same _ _ _

theorem State.keepsRegs_clearBits (s : State) (a : Nat) (g : Word) : s.KeepsRegs (s.clearBits a g) [a] := by
  intro b hb
  unfold State.clearBits
  split
  · rfl
  · exact State.rd_wr_ne _ _ _ _ (by simpa using hb)

@[simp] theorem State.clearBits_out (s : State) (a : Nat) (g : Word) : (s.clearBits a g).out = s.out := by
  unfold State.clearBits; split <;> rfl

/-- Clearing bits changes the register file alone, and the answer adds to the outputs. -/
theorem State.emit_clearBits_frame (s : State) (a : Nat) (g : Word) (o : Out) :
    (s.clearBits a g).emit o = { s with regs := ((s.clearBits a g).emit o).regs, out := ((s.clearBits a g).emit o).out } := by
  unfold State.clearBits; split <;> rfl

/-- A command that changes registers and outputs alone keeps every byte of the memories. -/
theorem State.keepsBytes_of_regs_out {s t : State} (h : t = { s with regs := t.regs, out := t.out }) : s.KeepsBytes t := by
  rw [h]
  exact ⟨fun _ => rfl, fun _ => rfl, fun _ => rfl, fun _ _ => rfl⟩

/-! ### What a read answers -/

/-- A read that reaches an implemented register of a domain that is on, or a common register, answers the visible bits and clears those of
them that a read clears. -/
theorem withRead_of_fields {s : State} {r : Req} {p o be : Nat} {fs : List FieldSpec} (w : Word) (clears : Bool) (hr : s.reach r = true)
    (hf : fieldsAt p o = some fs) (hd : o < 0x040 ∨ s.domainOff p = false) :
    withRead r p o be s w clears =
      (s.clearBits (bankPage r p o * 0x1000 + o)
        (if clears then w &&& maskOf (visible r fs) (fun _ => true) &&& clearMask (visible r fs) be else 0)).emit
        (.regRead r (p * 0x1000 + o) (w &&& maskOf (visible r fs) fun _ => true)) := by
  have hoff : ¬ (0x040 ≤ o ∧ s.domainOff p = true) := by
    rintro ⟨ho, hp⟩
    rcases hd with h | h
    · omega
    · exact Bool.false_ne_true (h.symm.trans hp)
  simp only [withRead, State.clearBits, hr, hf, if_neg hoff, Bool.true_eq_false, if_false]

/-- The common registers of HOSTQ and COLL are not held per requester. -/
theorem bankPage_of_common (r : Req) (p : Nat) {o : Nat} (h : o < 0x040) : bankPage r p o = p := by
  unfold bankPage
  rw [if_neg (by omega), if_neg (by omega)]

/-! ### Reads of EVENT (R51) -/

/-- A read of EVENT with every byte enabled answers its visible bits and clears the RC bits among them where the requester clears. -/
theorem readEvent_full {s : State} {r : Req} {p : Nat} {fs : List FieldSpec} (hr : s.reach r = true) (hf : fieldsAt p 0x010 = some fs) :
    readEvent r p 15 s =
      (s.clearBits (p * 0x1000 + 0x010)
        (if s.eventClears r p then s.rd (p * 0x1000 + 0x010) &&& maskOf (visible r fs) (fun f => decide (f.kind = .rc)) else 0)).emit
        (.regRead r (p * 0x1000 + 0x010) (s.rd (p * 0x1000 + 0x010) &&& maskOf (visible r fs) fun _ => true)) := by
  rw [readEvent, withRead_of_fields _ _ hr hf (.inl (by decide)), bankPage_of_common r p (by decide), clearMask_full, BitVec.and_assoc,
    maskOf_all_and_maskOf]

/-- EVENT after a read from a requester whose reads clear none. -/
theorem rd_readEvent_of_keeps {s : State} {r : Req} {p : Nat} {fs : List FieldSpec} (hr : s.reach r = true)
    (hf : fieldsAt p 0x010 = some fs) (hc : s.eventClears r p = false) :
    (readEvent r p 15 s).rd (p * 0x1000 + 0x010) = s.rd (p * 0x1000 + 0x010) := by
  rw [readEvent_full hr hf, hc, if_neg Bool.false_ne_true, State.clearBits_zero, State.rd_emit]

/-- EVENT after a read from a requester whose reads clear. -/
theorem rd_readEvent_of_clears {s : State} {r : Req} {p : Nat} {fs : List FieldSpec} (hr : s.reach r = true)
    (hf : fieldsAt p 0x010 = some fs) (hc : s.eventClears r p = true) :
    (readEvent r p 15 s).rd (p * 0x1000 + 0x010) =
      s.rd (p * 0x1000 + 0x010) &&& ~~~ maskOf (visible r fs) (fun f => decide (f.kind = .rc)) := by
  rw [readEvent_full hr hf, hc, if_pos rfl, State.rd_emit, State.rd_clearBits_same, and_not_and_self_left]

theorem State.eventClears_fw (s : State) (p : Nat) : s.eventClears .fw p = false := rfl

/-- While the route is enabled, the function that it names clears. -/
theorem State.eventClears_of_routed {s : State} {p : Nat} (fn : Fn) (h : 128 ≤ s.route p) :
    s.eventClears (fnReq fn) p = decide (s.route p / 64 % 2 = fnNum fn) := by
  have hlt : ¬ s.route p < 128 := by omega
  cases fn <;> simp [State.eventClears, fnReq, fnNum, h, hlt] <;> rfl

/-- While the route is disabled, only PF0 clears. -/
theorem State.eventClears_of_disabled {s : State} {p : Nat} (r : Req) (h : s.route p < 128) : s.eventClears r p = decide (r = .pf0) := by
  have hle : ¬ 128 ≤ s.route p := by omega
  cases r <;> simp [State.eventClears, h, hle]

/-- Settles O8: the route decides whether the requester's reads clear (`State.eventClears`), and a read that clears takes the visible RC bits
of EVENT away. -/
theorem eventReadClears : Obligations.EventReadClears := by
  unfold Obligations.EventReadClears
  intro s r p fs hr hf
  have hkeeps := rd_readEvent_of_keeps hr hf
  have hclears := rd_readEvent_of_clears hr hf
  have hframe : readEvent r p 15 s = { s with regs := (readEvent r p 15 s).regs, out := (readEvent r p 15 s).out } := by
    rw [readEvent_full hr hf]
    exact State.emit_clearBits_frame ..
  refine ⟨readEvent r p 15 s, rfl, ?out, ?firmware, ?otherFunction, ?routed, ?disabledPf0, ?disabledPf1, hframe, ?regs,
    State.keepsBytes_of_regs_out hframe⟩
  case out => rw [readEvent_full hr hf, State.emit, State.clearBits_out]
  case firmware =>
    rintro rfl
    exact hkeeps (State.eventClears_fw s p)
  case otherFunction =>
    rintro fn rfl hen hne
    exact hkeeps ((State.eventClears_of_routed fn hen).trans (decide_eq_false hne))
  case routed =>
    rintro fn rfl hen he
    exact hclears ((State.eventClears_of_routed fn hen).trans (decide_eq_true he))
  case disabledPf0 =>
    rintro rfl hdis
    exact hclears (State.eventClears_of_disabled _ hdis)
  case disabledPf1 =>
    rintro rfl hdis
    exact hkeeps (State.eventClears_of_disabled _ hdis)
  case regs =>
    rw [readEvent_full hr hf]
    exact State.keepsRegs_clearBits _ _ _

/-! ### Reads of EVENT_SUMMARY (R49) -/

/-- The one field of an EVENT_SUMMARY register. -/
def summaryField : FieldSpec := { lo := 0, width := 32, kind := .ro }

theorem fieldsAt_eventSummary {m : Nat} (hm : m < 8) : fieldsAt Pg.global (0x080 + 4 * m) = some [summaryField] := by
  revert m
  decide

/-- A field as wide as its register takes the whole of a word set in it. -/
theorem setBits_full (w v : Word) : Word.setBits w 0 32 v.toNat = v := by
  ext j hj
  rw [← BitVec.getLsbD_eq_getElem, Word.getLsbD_setBits _ _ _ _ _ hj, if_pos (by omega)]
  rfl

/-- EVENT_SUMMARY shows the summary word worked out at the read. -/
theorem State.shown_eventSummary (s : State) (r : Req) {m : Nat} (hm : m < 8) :
    s.shown r Pg.global (0x080 + 4 * m) = s.summary m := by
  have hlive : s.liveFlds r Pg.global (0x080 + 4 * m) = [(Reg.GLOBAL_EVENT_SUMMARY 0, (s.summary m).toNat)] := by
    have hidx : (0x080 + 4 * m - 0x080) / 4 = m := by omega
    have hin : 0x080 ≤ 0x080 + 4 * m ∧ 0x080 + 4 * m < 0x0A0 := by omega
    have hpg : pageBlk Pg.global = some (.global, 0) := rfl
    simp only [State.liveFlds, hpg, if_pos hin, hidx]
  rw [State.shown, hlive]
  exact setBits_full _ _

/-- A read of a GLOBAL register other than EVENT and BUSERR_INFO answers the shown word. -/
theorem readAt_global {r : Req} {o be : Nat} {s : State} (hev : o ≠ 0x010) (hbe : o ≠ 0x204) :
    readAt r Pg.global o be s = withRead r Pg.global o be s (s.shown r Pg.global o) true := by
  have hpg : pageBlk Pg.global = some (.global, 0) := rfl
  simp [readAt, hev, hbe, State.beforeRead, showsFree, hpg]

/-- An aligned access within BAR0 reads the register of its page and offset. -/
theorem regGet_of_aligned {r : Req} {off be : Nat} {s : State} (hb : off < 0x400000) (ha : off % 4 = 0) :
    regGet r off be s = readAt r (off / 0x1000) (off % 0x1000) be s := by
  have hbar : ¬ 0x400000 ≤ off := by omega
  cases r <;> simp [regGet, reqFn?, hbar, ha]

/-- A read of EVENT_SUMMARY answers the summary word and changes nothing else. -/
theorem regGet_eventSummary {s : State} {r : Req} {m : Nat} (be : Nat) (hm : m < 8) (hr : s.reach r = true)
    (hd : s.domainOff Pg.global = false) :
    regGet r (0x080 + 4 * m) be s = s.emit (.regRead r (0x080 + 4 * m) (s.summary m)) := by
  have hpage : (0x080 + 4 * m) / 0x1000 = Pg.global := Nat.div_eq_of_lt (by omega)
  have hoff : (0x080 + 4 * m) % 0x1000 = 0x080 + 4 * m := by omega
  have hvis : visible r [summaryField] = [summaryField] := by cases r <;> rfl
  have hall : maskOf [summaryField] (fun _ => true) = BitVec.allOnes 32 := by decide
  have hnone : clearMask [summaryField] be = 0 := BitVec.zero_and
  have hgone : s.summary m &&& 0 = 0 := BitVec.and_zero
  rw [regGet_of_aligned (by omega) (by omega), hpage, hoff, readAt_global (by omega) (by omega),
    withRead_of_fields _ _ hr (fieldsAt_eventSummary hm) (.inr hd), State.shown_eventSummary s r hm, hvis, hall, hnone,
    BitVec.and_allOnes, if_pos rfl, hgone, State.clearBits_zero, Nat.zero_mul,
    Nat.zero_add]

/-- Settles O10: a read of EVENT_SUMMARY answers the summary word, whose bits are the summary bits of the pages. -/
theorem summaryBits : Obligations.SummaryBits := by
  unfold Obligations.SummaryBits
  intro s r m be hm hr hd
  exact ⟨_, s.summary m, congrArg Host.Outcome.next (regGet_eventSummary be hm hr hd), rfl,
    fun i hi => State.getLsbD_summary s m hi, rfl⟩

end Sys2Proof.Machine
end

section
/-! SUPPORT and PROOFS. A queue command that fails, and the SET MODE that a rule refuses (R62, R63, R292, R297, R304, R308, R341). -/

namespace Sys2Proof.Machine

/-! ### Completing one command of the table (R297, R308) -/

/-- A command completes at its own entry of the command table. -/
theorem State.onlyTag_finishTag (s : State) (tag status result detail field : Nat) :
    s.OnlyTag (s.finishTag tag status result detail field) tag := by
  intro g hg
  unfold State.finishTag
  dsimp only
  split
  · rfl
  · split <;> split <;> simp [State.putCmd, State.logError, State.setHq, State.raise, noteRise_hq, Tbl.get_put_ne _ _ _ _ hg]

/-- A failure other than NS_FULL enters the completion and logs the error. -/
theorem State.finishTag_of_failure {s : State} {tag status : Nat} (field : Nat) (hlive : (s.hq.cmds.get tag).live = true)
    (hstage : (s.hq.cmds.get tag).stage ≠ .done) (hop : (s.hq.cmds.get tag).op ≠ 0x28) (h0 : status ≠ 0) (h32 : status ≠ 0x32) :
    s.finishTag tag status 0 0 field =
      (s.putCmd tag { s.hq.cmds.get tag with stage := .done, status := status, result := 0, detail := 0 }).logError tag
        (s.hq.cmds.get tag) status 0 field := by
  simp [State.finishTag, hlive, hstage, hop, h0, h32]

/-- The newest entry of the error log is the one just added. -/
theorem State.head_errors_logError (s : State) (tag : Nat) (c : Cmd) (status detail field : Nat) :
    ∃ e, (s.logError tag c status detail field).hq.errors.head? = some e ∧ e.status = status ∧ e.tag = tag ∧ e.fn = c.fn
      ∧ e.cid = c.cid :=
  ⟨_, rfl, rfl, rfl, rfl, rfl⟩

/-- A command that has not completed and ends with a failure leaves its completion and its error log entry alone. -/
theorem State.failed_finishTag {s : State} {tag status : Nat} (field : Nat) (hlive : (s.hq.cmds.get tag).live = true)
    (hstage : (s.hq.cmds.get tag).stage ≠ .done) (hop : (s.hq.cmds.get tag).op ≠ 0x28) (h0 : status ≠ 0) (h32 : status ≠ 0x32) :
    s.Failed (s.finishTag tag status 0 0 field) tag status := by
  refine ⟨State.completed_finishTag status 0 0 field hlive hstage hop, State.onlyTag_finishTag s tag status 0 0 field, ?_⟩
  rw [State.finishTag_of_failure field hlive hstage hop h0 h32]
  exact ⟨State.head_errors_logError _ tag _ status 0 field, rfl⟩

/-- A command whose fields fail their checks fails with status 0x02 (R292). -/
theorem withCmd_failed_of_bad {s : State} {tag op : Nat} {bad : Cmd → State → Option Nat} {len : Cmd → State → Nat}
    (k : Cmd → State → State)
    (h : s.mayRun tag op len) (hop : op ≠ 0x28) (hb : (bad (s.hq.cmds.get tag) s).isSome = true) :
    s.Failed (withCmd tag op s bad k len) tag 0x02 := by
  obtain ⟨f, hf⟩ := Option.isSome_iff_exists.mp hb
  obtain ⟨hlive, hstage, hcode, -⟩ := id h
  rw [withCmd_of_bad k h hf]
  exact State.failed_finishTag f hlive (by simp [hstage]) (by rwa [hcode]) (by decide) (by decide)

/-- A command that has started and has no bytes of a namespace. -/
def Cmd.started (c : Cmd) : Cmd := { c with stage := .running, len := 0 }

/-- The state in which the command of a tag has started. -/
def State.start (s : State) (tag : Nat) : State := s.putCmd tag (s.hq.cmds.get tag).started

@[simp] theorem State.start_get (s : State) (tag : Nat) : (s.start tag).hq.cmds.get tag = (s.hq.cmds.get tag).started :=
  Tbl.get_put_same _ _ _

theorem State.onlyTag_start (s : State) (tag : Nat) : s.OnlyTag (s.start tag) tag := fun _ hg => Tbl.get_put_ne _ _ _ _ hg

theorem State.OnlyTag.trans {s t u : State} {tag : Nat} (h : s.OnlyTag t tag) (h' : t.OnlyTag u tag) : s.OnlyTag u tag :=
  fun g hg => (h' g hg).trans (h g hg)

/-- A started command that fails leaves what it would leave had it not been marked as running. -/
theorem State.Failed.of_start {s t : State} {tag status : Nat} (h : (s.start tag).Failed t tag status) : s.Failed t tag status := by
  obtain ⟨hdone, honly, hlog, hrest⟩ := h
  rw [State.start_get] at hlog
  exact ⟨hdone, (State.onlyTag_start s tag).trans honly, hlog, hrest⟩

/-- What remains of a failed command whose start was followed by register changes. -/
theorem State.Failed.eq_regsOf {s u t : State} {tag status : Nat} (h : u.Failed t tag status) (hu : (s.start tag).OnlyRegs u) :
    t = { s.regsOf t with hq := { s.hq with
      cmds := t.hq.cmds, errors := t.hq.errors, errCount0 := t.hq.errCount0, errCount1 := t.hq.errCount1 } } := by
  obtain ⟨-, -, -, ht⟩ := h
  unfold State.OnlyRegs at hu
  rw [ht, hu]
  rfl

/-- A command that was free to start fails once it runs, whatever registers have changed since. -/
theorem State.failed_finishTag_of_started {s u : State} {tag op status : Nat} {len : Cmd → State → Nat} (field : Nat)
    (h : s.mayRun tag op len) (hu : (s.start tag).OnlyRegs u) (hop : op ≠ 0x28) (h0 : status ≠ 0) (h32 : status ≠ 0x32) :
    u.Failed (u.finishTag tag status 0 0 field) tag status := by
  obtain ⟨hlive, -, hcode, -⟩ := h
  have hget : u.hq.cmds.get tag = (s.hq.cmds.get tag).started := by
    unfold State.OnlyRegs at hu
    rw [hu]
    exact State.start_get s tag
  refine State.failed_finishTag field ?_ ?_ ?_ h0 h32 <;> rw [hget]
  · exact hlive
  · exact Stage.noConfusion
  · exact fun e => hop (hcode.symm.trans e)

theorem State.Failed.regs_eq {s t : State} {tag status : Nat} (h : s.Failed t tag status) : t.regs = s.regs := by
  obtain ⟨-, -, -, ht⟩ := h
  rw [ht]

/-! ### The rules that refuse a move (R490, R502) -/

theorem State.modeHeld_of_stopping {s : State} {target : Mode} (h : s.on Pg.therm Reg.THERM_STATE_STOPPING = true)
    (ht : target ≠ .standby) : s.modeHeld target = true := by
  simp only [State.modeHeld, h, ht, ne_eq, not_false_eq_true, decide_true, Bool.and_self, Bool.or_true, Bool.true_or]

theorem State.modeHeld_of_level {s : State} {target : Mode} (h : s.fld Pg.therm Reg.THERM_STATE_LEVEL = 2)
    (hmode : s.ctl.mode = .standby) (ht : target = .live ∨ target = .record ∨ target = .review) : s.modeHeld target = true := by
  have hstarts : (decide (target = .live) || decide (target = .record) || decide (target = .review)) = true := by
    simpa [or_assoc] using ht
  simp only [State.modeHeld, hmode, hstarts, h, decide_true, Bool.and_self, Bool.or_true, Bool.true_or]

theorem State.modeHeld_of_generation {s : State} (h : s.fld Pg.array Reg.ARRAY_GENERATION ≠ 0) : s.modeHeld .sleep = true := by
  simp only [State.modeHeld, h, decide_true, decide_false, Bool.not_false, Bool.and_self, Bool.or_true]

theorem State.isSwitch_of_standby {s : State} (h : s.ctl.mode = .standby) (target : Mode) : s.isSwitch target = false := by
  simp [State.isSwitch, h]

/-- A switch into RECORD leaves LIVE, where no other move is under way. -/
theorem State.isSwitch_record {s : State} : s.isSwitch .record = true ↔ s.ctl.phase = .settled ∧ s.ctl.mode = .live := by
  simp [State.isSwitch]

/-! ### SET MODE (R304) -/

theorem exec_setMode (s : State) (tag : Nat) (h : HostData) :
    exec (.setMode tag h) s = .next (withCmd tag 0x10 s (badSetMode h) (runSetMode h tag)) := rfl

/-- A SET MODE whose fields pass their checks runs. -/
theorem exec_setMode_of_asks {s : State} {tag : Nat} {h : HostData} {target : Mode} {bufs : List (Nat × Nat)}
    (ha : s.asksMode tag h target bufs) :
    exec (.setMode tag h) s = .next (runSetMode h tag (s.hq.cmds.get tag).started (s.start tag)) := by
  obtain ⟨hstarts, -⟩ := ha
  rw [exec_setMode, withCmd_of_starts _ hstarts]
  rfl

/-- PF1 asks for SLEEP or SERVICE, or in SERVICE: a field out of order (R63). -/
theorem badSetMode_of_pf1 (h : HostData) {c : Cmd} {s : State} (hfn : c.fn = .pf1)
    (hc : modeOf (c.cdw 8 % 8) = some .service ∨ modeOf (c.cdw 8 % 8) = some .sleep ∨ s.ctl.mode = .service) :
    (badSetMode h c s).isSome = true := by
  unfold badSetMode
  cases hm : modeOf (c.cdw 8 % 8) with
  | none => simp [firstBad]
  | some target =>
    have hbar : target = .service ∨ target = .sleep ∨ s.ctl.mode = .service := by simpa [hm] using hc
    simp [firstBad, hfn, hbar]

/-- Whether a SET MODE to a mode cancels a START that waits (R69). -/
def State.cancelsStart (s : State) (target : Mode) : Bool :=
  match s.ctl.phase with
  | .starting _ _ => decide (target = .standby)
  | _ => false

/-- Whether a SET MODE to a mode asks for a transition that the present mode permits (R62). -/
def State.movesTo (s : State) (target : Mode) : Bool := decide (s.ctl.phase = .settled) && permitted s.ctl.mode target

theorem State.cancelsStart_of_settled {s : State} (h : s.ctl.phase = .settled) (target : Mode) : s.cancelsStart target = false := by
  simp [State.cancelsStart, h]

theorem State.cancelsStart_of_ne_standby (s : State) {target : Mode} (h : target ≠ .standby) : s.cancelsStart target = false := by
  unfold State.cancelsStart
  split <;> simp [h]

/-- The recording checks are looked at first (R341). -/
theorem runSetMode_of_recordBad {h : HostData} {tag : Nat} {c : Cmd} {s : State} {target : Mode} (hm : modeOf (c.cdw 8 % 8) = some target)
    (hrec : (s.movesTo target && s.isSwitch target && decide (target = .record) && s.recordBad s.ctl.charged) = true) :
    runSetMode h tag c s = (s.raise Pg.recorder Reg.RECORDER_EVENT_CFG_ERR).finishTag tag 0x02 0 0 0xFFFF := by
  unfold runSetMode
  rw [hm]
  exact if_pos hrec

/-- A request that neither cancels nor moves, or a move that is held, ends with status 0x0C (R62). -/
theorem runSetMode_of_refused {h : HostData} {tag : Nat} {c : Cmd} {s : State} {target : Mode} (hm : modeOf (c.cdw 8 % 8) = some target)
    (hrec : ¬ (s.movesTo target && s.isSwitch target && decide (target = .record) && s.recordBad s.ctl.charged) = true)
    (hrefused : ((!s.cancelsStart target && !s.movesTo target) || (s.movesTo target && s.modeHeld target)) = true) :
    runSetMode h tag c s = s.finishTag tag 0x0C 0 0 0xFFFF := by
  unfold runSetMode
  rw [hm]
  exact (if_neg hrec).trans (if_pos hrefused)

/-- A SET MODE that cancels no START, and asks for no transition or for one that is held, fails with status 0x0C (R62). -/
theorem exec_setMode_refused {s : State} {tag : Nat} {h : HostData} {target : Mode} {bufs : List (Nat × Nat)}
    (ha : s.asksMode tag h target bufs) (hcancel : s.cancelsStart target = false)
    (hheld : s.movesTo target = true → s.modeHeld target = true)
    (hrec : s.movesTo target = true → s.isSwitch target = true → target = .record → s.recordBad s.ctl.charged = false) :
    ∃ t, exec (.setMode tag h) s = .next t ∧ s.Failed t tag 0x0C := by
  obtain ⟨⟨hrun, -⟩, hm, -⟩ := id ha
  have hchecks : ¬ (s.movesTo target && s.isSwitch target && decide (target = .record) && s.recordBad s.ctl.charged) = true := by
    simp only [Bool.and_eq_true, decide_eq_true_eq, not_and, Bool.not_eq_true]
    rintro ⟨⟨hmove, hswitch⟩, hto⟩
    exact hrec hmove hswitch hto
  have hrefused : ((!s.cancelsStart target && !s.movesTo target) || (s.movesTo target && s.modeHeld target)) = true := by
    cases hmove : s.movesTo target with
    | false => simp [hcancel]
    | true => simp [hheld hmove]
  refine ⟨_, exec_setMode_of_asks ha, State.Failed.of_start ?_⟩
  rw [runSetMode_of_refused (c := (s.hq.cmds.get tag).started) (s := s.start tag) hm hchecks hrefused]
  exact State.failed_finishTag_of_started 0xFFFF hrun (.refl _) (by decide) (by decide) (by decide)

/-- A SET MODE from LIVE to RECORD that the recording checks forbid raises CFG_ERR and fails with status 0x02 (R341). -/
theorem exec_setMode_of_recordBad {s : State} {tag : Nat} {h : HostData} {bufs : List (Nat × Nat)}
    (ha : s.asksMode tag h .record bufs) (hswitch : s.isSwitch .record = true) (hbad : s.recordBad s.ctl.charged = true) :
    exec (.setMode tag h) s =
      .next (((s.start tag).raise Pg.recorder Reg.RECORDER_EVENT_CFG_ERR).finishTag tag 0x02 0 0 0xFFFF) := by
  obtain ⟨-, hm, -⟩ := id ha
  obtain ⟨hphase, hmode⟩ := State.isSwitch_record.mp hswitch
  have hmove : s.movesTo .record = true := by simp [State.movesTo, hphase, hmode, permitted]
  have hchecks : (s.movesTo .record && s.isSwitch .record && decide (Mode.record = .record) && s.recordBad s.ctl.charged) = true := by
    rw [hmove, hswitch, hbad]
    rfl
  rw [exec_setMode_of_asks ha, runSetMode_of_recordBad (c := (s.hq.cmds.get tag).started) (s := s.start tag) hm hchecks]

/-- Settles O31: each rule that refuses a move leads to the failed completion with its status, and the recording checks raise CFG_ERR before. -/
theorem modesRefused : Obligations.ModesRefused := by
  unfold Obligations.ModesRefused
  refine ⟨?pf1, ?stopping, ?level, ?generation, ?notPermitted, ?recording⟩
  case pf1 =>
    rintro s tag h _ hrun rfl hfn hc
    exact ⟨_, exec_setMode s tag h, withCmd_failed_of_bad _ hrun (by decide) (badSetMode_of_pf1 h hfn hc)⟩
  case stopping =>
    intro s tag h target bufs ha hto hstop hrec
    exact exec_setMode_refused ha (s.cancelsStart_of_ne_standby hto) (fun _ => State.modeHeld_of_stopping hstop hto) fun _ => hrec
  case level =>
    intro s tag h target bufs ha hmode hto hlevel
    have hne : target ≠ .standby := by rintro rfl; simp at hto
    exact exec_setMode_refused ha (s.cancelsStart_of_ne_standby hne) (fun _ => State.modeHeld_of_level hlevel hmode hto)
      fun _ hswitch => absurd hswitch (by simp [State.isSwitch_of_standby hmode])
  case generation =>
    intro s tag h bufs ha hgen
    exact exec_setMode_refused ha (s.cancelsStart_of_ne_standby (by decide)) (fun _ => State.modeHeld_of_generation hgen)
      fun _ _ hto => absurd hto (by decide)
  case notPermitted =>
    intro s tag h target bufs ha hphase hnot
    have hstays : s.movesTo target ≠ true := by simp [State.movesTo, hnot]
    exact exec_setMode_refused ha (State.cancelsStart_of_settled hphase target) (fun hmove => absurd hmove hstays)
      fun hmove => absurd hmove hstays
  case recording =>
    intro s tag h bufs ha hswitch hbad
    obtain ⟨⟨hrun, -⟩, -⟩ := id ha
    have hraise : (s.start tag).OnlyRegs ((s.start tag).raise Pg.recorder Reg.RECORDER_EVENT_CFG_ERR) := (State.OnlyRegs.refl _).raise _ _
    have hfail := State.failed_finishTag_of_started (status := 0x02) 0xFFFF hrun hraise (by decide) (by decide) (by decide)
    obtain ⟨hdone, honly, -⟩ := id hfail
    refine ⟨_, exec_setMode_of_recordBad ha hswitch hbad, hdone, (State.onlyTag_start s tag).trans ?_, ?_, hfail.eq_regsOf hraise, ?_⟩
    · rwa [State.OnlyTag, State.raise_hq] at honly
    · rw [State.fld_congr hfail.regs_eq]
      exact State.fld_raise_same _ _ _ (by decide) rfl
    · intro a hne
      rw [State.rd_congr hfail.regs_eq]
      exact State.rd_raise_ne _ _ _ _ (by simpa using hne)

end Sys2Proof.Machine
end

section
/-! SUPPORT and PROOFS. What one step does with the queue, the state of reset, and the canonical form of registers and memories along every
step (R32, R41, R440). -/

set_option Elab.async false

namespace Sys2Proof.Machine

/-- Settles O1: `step` looks at the front of the queue and at nothing else. -/
theorem stepRunsFront : Obligations.StepRunsFront := by
  unfold Obligations.StepRunsFront
  refine ⟨fun s c rest h => ?_, fun s h => ?_⟩ <;> rw [step, h]

/-- Settles O3: the register file of reset lists nothing, so every register reads as its factory word. -/
theorem resetKeepsForms : Obligations.ResetKeepsForms := by
  unfold Obligations.ResetKeepsForms
  exact ⟨rfl, fun _ => rfl, State.reset_inv⟩

/-! ### The canonical form -/

/-- Every command goes on, and its effect keeps the canonical form. -/
theorem exec_keeps_inv (c : Instr) (s : State) (h : s.Inv) : ∃ t, exec c s = .next t ∧ t.Inv := by
  cases c with
  | registerWrite => exact ⟨_, rfl, regSet_inv _ _ _ _ _ h⟩
  | eventRead => exact ⟨_, rfl, readEvent_inv _ _ _ _ h⟩
  | buserrInfoRead => exact ⟨_, rfl, readBusErr_inv _ _ _ h⟩
  | eventTest => exact ⟨_, rfl, writeEventTest_inv _ _ _ _ h⟩
  | commitReq => exact ⟨_, rfl, State.inv_ite (writeGlobalCommit_inv _ _ _ h) (writeCommit_inv _ _ _ _ h)⟩
  | vecRearm => exact ⟨_, rfl, writeVecRearm_inv _ _ _ h⟩
  | msixSend => exact ⟨_, rfl, State.sendMsix_inv _ _ _ h⟩
  | msixCreditRefill => exact ⟨_, rfl, State.refill_inv _ h⟩
  | deviceReset => exact ⟨_, rfl, writeResetCtrl_inv _ _ _ h⟩
  | globalCommit => exact ⟨_, rfl, writeGlobalCommit_inv _ _ _ h⟩
  | setMode => exact ⟨_, rfl, withCmd_inv _ _ _ _ _ _ h fun _ _ ht => runSetMode_inv _ _ _ _ ht⟩
  | budgetCheckDone => exact ⟨_, rfl, State.budgetDone_inv _ h⟩
  | takeStopCaptureDone => exact ⟨_, rfl, State.captureDone_inv _ h⟩
  | reelClose => exact ⟨_, rfl, State.reelClose_inv _ h⟩
  | saveSettings => exact ⟨_, rfl, withCmd_inv _ _ _ _ _ _ h fun _ _ ht => State.requestSave_inv _ _ _ ht⟩
  | rstoreSave => exact ⟨_, rfl, writeRstoreCtrl_inv _ _ _ h⟩
  | rstoreErase => exact ⟨_, rfl, writeRstoreCtrl_inv _ _ _ h⟩
  | saveDone => exact ⟨_, rfl, State.endSave_inv _ _ h⟩
  | porRelease => exact ⟨_, rfl, State.porRelease_inv _ _ h⟩
  | restoreDone => exact ⟨_, rfl, State.restoreDone_inv _ h⟩
  | powerOnReset => exact ⟨_, rfl, State.toReset_inv _ _ _ _ h⟩
  | supplyMonitorReset => exact ⟨_, rfl, State.toReset_inv _ _ _ _ h⟩
  | pwrgoodFall => exact ⟨_, rfl, State.flushNow_inv _ h⟩
  | vrAlert => exact ⟨_, rfl, State.inv_ite h (State.raise_inv _ _ _ h)⟩
  | wakeNFall => exact ⟨_, rfl, State.wake_inv _ h⟩
  | linkTrain => exact ⟨_, rfl, State.inv_ite h (writeAt_inv _ _ _ _ _ h)⟩
  | rxTrain => exact ⟨_, rfl, State.rxTrain_inv _ _ h⟩
  | eqAdaptDone => exact ⟨_, rfl, State.eqAdapted_inv _ _ h⟩
  | trainTimeout => exact ⟨_, rfl, State.trainTimeout_inv _ _ h⟩
  | laneLos => exact ⟨_, rfl, State.losSet_inv _ _ h⟩
  | laneLosClear => exact ⟨_, rfl, State.losCleared_inv _ _ h⟩
  | cdrLoss => exact ⟨_, rfl, State.cdrLost_inv _ _ h⟩
  | cdrLock => exact ⟨_, rfl, State.cdrLocked_inv _ _ h⟩
  | blockLockGained => exact ⟨_, rfl, State.blockLocked_inv _ _ h⟩
  | blockLockLost => exact ⟨_, rfl, State.blockLost_inv _ _ h⟩
  | alignNeeded => exact ⟨_, rfl, State.alignNeeded_inv _ _ h⟩
  | rxAlign => exact ⟨_, rfl, State.rxAlign_inv _ _ h⟩
  | rxSof => exact ⟨_, rfl, State.rxSof_inv _ _ _ _ h⟩
  | rxMeta => exact ⟨_, rfl, State.rxMeta_inv _ _ _ h⟩
  | rxSol => exact ⟨_, rfl, State.rxSol_inv _ _ _ _ _ _ _ h⟩
  | rxPacket => exact ⟨_, rfl, State.rxPacket_inv _ _ _ h⟩
  | rxEol => exact ⟨_, rfl, State.rxEol_inv _ _ _ h⟩
  | rxEof => exact ⟨_, rfl, State.rxEof_inv _ _ _ h⟩
  | rxSmsg => exact ⟨_, rfl, State.rxSmsg_inv _ _ _ _ _ h⟩
  | fallbackAckTimeout => exact ⟨_, rfl, State.fallbackTimeout_inv _ _ h⟩
  | bcAckTimeout => exact ⟨_, rfl, State.bcTimeout_inv _ _ h⟩
  | bcMailboxGo => exact ⟨_, rfl, writeBcCtrl_inv _ _ _ _ h⟩
  | heartbeat => exact ⟨_, rfl, State.heartbeat_inv _ _ h⟩
  | testCtrlWrite => exact ⟨_, rfl, writeTestCtrl_inv _ _ _ _ h⟩
  | injectOne => exact ⟨_, rfl, writeTestCtrl_inv _ _ _ _ h⟩
  | checkerSyncGained => exact ⟨_, rfl, State.checkerSync_inv _ _ _ h⟩
  | checkerSyncLost => exact ⟨_, rfl, State.checkerLost_inv _ _ _ _ h⟩
  | frameStart => exact ⟨_, rfl, State.frameStart_inv _ _ h⟩
  | lineTimeout => exact ⟨_, rfl, State.lineTimeout_inv _ _ h⟩
  | pairWindowExpiry => exact ⟨_, rfl, State.pairExpired_inv _ h⟩
  | sharedReadStart => exact ⟨_, rfl, State.sharedStart_inv _ h⟩
  | sharedReadLine => exact ⟨_, rfl, State.drdecBegin_inv _ (State.sharedLine_inv _ h)⟩
  | catchupFrameDone => exact ⟨_, rfl, State.catchupDone_inv _ h⟩
  | splitFrameStart => exact ⟨_, rfl, State.splitBegin_inv _ _ h⟩
  | splitGroupPublish => exact ⟨_, rfl, State.publish_inv _ _ h⟩
  | rendFrameDone => exact ⟨_, rfl, State.rendDone_inv _ _ h⟩
  | slotCfgWrite => exact ⟨_, rfl, writeSlotCfg_inv _ _ _ _ h⟩
  | fstoreLoad => exact ⟨_, rfl, writeLoadCtrl_inv _ _ _ h⟩
  | fstoreLoadDone => exact ⟨_, rfl, State.loadDone_inv _ h⟩
  | drawFrameBegin => exact ⟨_, rfl, State.drawFrameBegin_inv _ h⟩
  | drawFrameDone => exact ⟨_, rfl, State.drawDone_inv _ h⟩
  | drawCoreFault => exact ⟨_, rfl, State.coreFault_inv _ _ h⟩
  | drdecInProd => exact ⟨_, rfl, writeDrdecInProd_inv _ _ _ h⟩
  | drdecFrameDone => exact ⟨_, rfl, State.drdecDone_inv _ h⟩
  | hencPictureBegin => exact ⟨_, rfl, State.hencBegin_inv _ _ h⟩
  | hencPictureDone => exact ⟨_, rfl, State.picDone_inv _ _ h⟩
  | hencCoreFault => exact ⟨_, rfl, State.hencFault_inv _ _ h⟩
  | hdecInProd => exact ⟨_, rfl, writeHdecInProd_inv _ _ _ _ h⟩
  | hdecRecordDone => exact ⟨_, rfl, State.hdecDone_inv _ _ h⟩
  | aqEnable => exact ⟨_, rfl, writeAqCtrl_inv _ _ _ h⟩
  | queueTeardown => exact ⟨_, rfl, writeAqCtrl_inv _ _ _ h⟩
  | functionLevelReset => exact ⟨_, rfl, State.resetPci_inv _ _ _ (State.teardown_inv _ _ h)⟩
  | busMasterDisable => exact ⟨_, rfl, State.masterOff_inv _ _ h⟩
  | hostLinkDown => exact ⟨_, rfl, State.linkDown_inv _ h⟩
  | doorbell => exact ⟨_, rfl, writeDoorbell_inv _ _ _ h⟩
  | commandFetch => exact ⟨_, rfl, State.fetch_inv _ _ _ h⟩
  | completionPost => exact ⟨_, rfl, State.post_inv _ _ h⟩
  | cqCoalesceTimeout => exact ⟨_, rfl, State.coalesce_inv _ _ _ h⟩
  | createSq => exact ⟨_, rfl, withCmd_inv _ _ _ _ _ _ h fun _ _ ht => runCreateSq_inv _ _ _ ht⟩
  | deleteSq => exact ⟨_, rfl, withCmd_inv _ _ _ _ _ _ h fun _ _ ht => runDeleteSq_inv _ _ _ ht⟩
  | createCq => exact ⟨_, rfl, withCmd_inv _ _ _ _ _ _ h fun _ _ ht => runCreateCq_inv _ _ _ ht⟩
  | deleteCq => exact ⟨_, rfl, withCmd_inv _ _ _ _ _ _ h fun _ _ ht => runDeleteCq_inv _ _ _ ht⟩
  | identify => exact ⟨_, rfl, withCmd_inv _ _ _ _ _ _ h fun _ _ ht => runIdentify_inv _ _ _ _ ht⟩
  | getLogPage => exact ⟨_, rfl, withCmd_inv _ _ _ _ _ _ h fun _ _ ht => runGetLog_inv _ _ _ _ ht⟩
  | abort => exact ⟨_, rfl, withCmd_inv _ _ _ _ _ _ h fun _ _ ht => runAbort_inv _ _ _ ht⟩
  | setCoalescing => exact ⟨_, rfl, withCmd_inv _ _ _ _ _ _ h fun _ _ ht => runSetCoalescing_inv _ _ _ ht⟩
  | checkConfig => exact ⟨_, rfl, withCmd_inv _ _ _ _ _ _ h fun _ _ ht => runCheckConfig_inv _ _ _ _ ht⟩
  | createNamespace => exact ⟨_, rfl, withCmd_inv _ _ _ _ _ _ h fun _ _ ht => runCreateNs_inv _ _ _ ht⟩
  | deleteNamespace => exact ⟨_, rfl, withCmd_inv _ _ _ _ _ _ h fun _ _ ht => runDeleteNs_inv _ _ _ ht⟩
  | firmwareLoad => exact ⟨_, rfl, withCmd_inv _ _ _ _ _ _ h fun _ _ ht => runFwLoad_inv _ _ _ _ _ ht⟩
  | firmwareHandover => exact ⟨_, rfl, withCmd_inv _ _ _ _ _ _ h fun _ _ ht => runFwHandover_inv _ _ _ ht⟩
  | attest => exact ⟨_, rfl, withCmd_inv _ _ _ _ _ _ h fun _ _ ht => runAttest_inv _ _ _ _ ht⟩
  | arrayLease => exact ⟨_, rfl, withCmd_inv _ _ _ _ _ _ h fun _ _ ht => runArrayLease_inv _ _ _ ht⟩
  | read => exact ⟨_, rfl, withCmd_inv _ _ _ _ _ _ h fun _ _ ht => runRead_inv _ _ _ _ ht⟩
  | write => exact ⟨_, rfl, withCmd_inv _ _ _ _ _ _ h fun _ _ ht => runWrite_inv _ _ _ _ ht⟩
  | appendMetadata => exact ⟨_, rfl, withCmd_inv _ _ _ _ _ _ h fun _ _ ht => runAppend_inv _ _ _ _ ht⟩
  | loadSlot => exact ⟨_, rfl, State.inv_ite h (withCmd_inv _ _ _ _ _ _ h fun _ _ ht => runLoadSlot_inv _ _ ht)⟩
  | compress => exact ⟨_, rfl, withCmd_inv _ _ _ _ _ _ h fun _ _ ht => runCond_inv _ _ _ _ _ ht⟩
  | decompress => exact ⟨_, rfl, withCmd_inv _ _ _ _ _ _ h fun _ _ ht => runCond_inv _ _ _ _ _ ht⟩
  | mediaEnable => exact ⟨_, rfl, writeMediaCtrl_inv _ _ _ _ h⟩
  | mediaReset => exact ⟨_, rfl, writeMediaCtrl_inv _ _ _ _ h⟩
  | mediaPortReady => exact ⟨_, rfl, State.portReady_inv _ _ _ h⟩
  | mediaLinkDown => exact ⟨_, rfl, State.inv_ite h (State.mediaLinkDown_inv _ _ h)⟩
  | nvmeCompletion => exact ⟨_, rfl, State.inv_ite h (State.nvmeDone_inv _ _ _ _ h)⟩
  | nvmeTimeout => exact ⟨_, rfl, State.inv_ite h (State.nvmeTimeout_inv _ _ _ h)⟩
  | healthPoll =>
    exact ⟨_, rfl, State.inv_ite h (State.raiseIf_inv _ _ _ _ (State.setFld_inv _ _ _ _ (State.setFld_inv _ _ _ _ (State.setFld_inv _ _ _ _ h))))⟩
  | format => exact ⟨_, rfl, writeRecorderCtrl_inv _ _ _ h⟩
  | frameGroupComplete => exact ⟨_, rfl, State.groupComplete_inv _ h⟩
  | flushTimer => exact ⟨_, rfl, State.flushTimer_inv _ h⟩
  | flushWritesDone => exact ⟨_, rfl, State.flushDrives_inv _ h⟩
  | flushDone => exact ⟨_, rfl, State.writeIndexBank_inv _ h⟩
  | indexBankDone => exact ⟨_, rfl, State.bankDone_inv _ h⟩
  | reelRecovery => exact ⟨_, rfl, State.reelRecovery_inv _ h⟩
  | reviewFeed => exact ⟨_, rfl, State.reviewFeed_inv _ h⟩
  | loupeEnable => exact ⟨_, rfl, State.inv_ite h (writeLoupeCtrl_inv _ _ _ _ h)⟩
  | loupeSamplePoint => exact ⟨_, rfl, State.samplePoint_inv _ _ h⟩
  | loupeLine => exact ⟨_, rfl, State.loupeLine_inv _ _ _ h⟩
  | lockLost => exact ⟨_, rfl, State.inv_ite h (State.raise_inv _ _ _ (State.setFld_inv _ _ _ _ h))⟩
  | mirrorLineCheck => exact ⟨_, rfl, State.mirrorCheck_inv _ _ _ h⟩
  | flowEnable => exact ⟨_, rfl, State.inv_ite h (writeFlowCfg_inv _ _ _ _ h)⟩
  | st2110PacketSend => exact ⟨_, rfl, State.flowSend_inv _ _ _ h⟩
  | ethRxFrame => exact ⟨_, rfl, State.inv_ite h (State.count_inv _ _ _ h)⟩
  | ethLinkChange => exact ⟨_, rfl, State.inv_ite h (State.setEthLink_inv _ _ _ h)⟩
  | collSnap => exact ⟨_, rfl, writeCollCtrl_inv _ _ _ h⟩
  | collSet => exact ⟨_, rfl, writeCollCtrl_inv _ _ _ h⟩
  | ptpSync => exact ⟨_, rfl, State.rxSync_inv _ _ h⟩
  | ptpAnnounce => exact ⟨_, rfl, State.rxAnnounce_inv _ _ h⟩
  | ptpDelayReqSend => exact ⟨_, rfl, State.sendDelayReq_inv _ h⟩
  | ptpDelayResp => exact ⟨_, rfl, State.rxDelayResp_inv _ _ h⟩
  | syncTimeout => exact ⟨_, rfl, State.syncLost_inv _ h⟩
  | stepWindowExpiry => exact ⟨_, rfl, State.windowEnd_inv _ h⟩
  | triggerEdge => exact ⟨_, rfl, State.triggerEdge_inv _ _ h⟩
  | triggerPulseEnd => exact ⟨_, rfl, State.pulseEnd_inv _ _ h⟩
  | alarm => exact ⟨_, rfl, State.alarm_inv _ h⟩
  | syncIn => exact ⟨_, rfl, State.syncIn_inv _ h⟩
  | syncOutPulse => exact ⟨_, rfl, State.syncOut_inv _ h⟩
  | audEnable => exact ⟨_, rfl, State.inv_ite h (writeAt_inv _ _ _ _ _ h)⟩
  | tdmFrameBoundary => exact ⟨_, rfl, State.inv_ite h (State.boundary_inv _ _ _ h)⟩
  | audSyncEdge => exact ⟨_, rfl, State.syncEdge_inv _ _ _ h⟩
  | audClockLost => exact ⟨_, rfl, State.inv_ite h (State.raise_inv _ _ _ (State.setFld_inv _ _ _ _ h))⟩
  | audSlot => exact ⟨_, rfl, State.audSlot_inv _ _ _ h⟩
  | condGo => exact ⟨_, rfl, writeCondCtrl_inv _ _ _ h⟩
  | condResume => exact ⟨_, rfl, writeCondCtrl_inv _ _ _ h⟩
  | condAbort => exact ⟨_, rfl, writeCondCtrl_inv _ _ _ h⟩
  | condOutputFull => exact ⟨_, rfl, State.condFull_inv _ h⟩
  | condNeedInput => exact ⟨_, rfl, State.condNeed_inv _ h⟩
  | condJobEnd => exact ⟨_, rfl, State.condEnd_inv _ _ h⟩
  | relayChStart => exact ⟨_, rfl, State.inv_ite h (writeChCtrl_inv _ _ _ _ h)⟩
  | relayChAbort => exact ⟨_, rfl, State.inv_ite h (writeChCtrl_inv _ _ _ _ h)⟩
  | relayDescFetch => exact ⟨_, rfl, State.inv_ite h (State.descFetch_inv _ _ h)⟩
  | relayDescDone => exact ⟨_, rfl, State.inv_ite h (State.descDone_inv _ _ h)⟩
  | relayBusError => exact ⟨_, rfl, State.relayError_inv _ _ _ _ h⟩
  | relayClear => exact ⟨_, rfl, writeRelayCtrl_inv _ _ _ h⟩
  | dramTrainingDone => exact ⟨_, rfl, State.inv_ite (State.trained_inv _ _ h) h⟩
  | retrainStep => exact ⟨_, rfl, State.retrain_inv _ h⟩
  | retrainGatherDone => exact ⟨_, rfl, State.gathered_inv _ _ _ _ h⟩
  | freqTargetWrite => exact ⟨_, rfl, writeFreq_inv _ _ _ h⟩
  | freqChangeDone => exact ⟨_, rfl, State.freqDone_inv _ h⟩
  | dramTempPoll => exact ⟨_, rfl, State.inv_ite h (State.setLevel_inv _ (State.pollAll_inv _ _ h))⟩
  | dramEccError => exact ⟨_, rfl, State.inv_ite h (State.eccError_inv _ _ h)⟩
  | ueAddrRead => exact ⟨_, rfl, State.inv_ite (readUeAddr_inv _ _ _ _ h) h⟩
  | handoverAlive => exact ⟨_, rfl, State.inv_ite (State.endHandover_inv _ _ (State.count_inv _ _ _ h)) h⟩
  | handoverFail => exact ⟨_, rfl, State.inv_ite (State.endHandover_inv _ _ (State.activate_inv _ _ (State.setFld_inv _ _ _ _ h))) h⟩
  | watchdogExpiry => exact ⟨_, rfl, State.watchdog_inv _ h⟩
  | svnCommit => exact ⟨_, rfl, writeSvnCtrl_inv _ _ _ h⟩
  | supplyReqWrite => exact ⟨_, rfl, writeSupplyReq_inv _ _ _ h⟩
  | supplySeqStep => exact ⟨_, rfl, State.inv_ite (State.supplyStep_inv _ _ (State.setSeq_inv _ _ _ h)) h⟩
  | guardWindowWrite => exact ⟨_, rfl, State.inv_ite (writeWindow_inv _ _ _ _ h) h⟩
  | pwrReqWrite => exact ⟨_, rfl, writePwrReq_inv _ _ _ _ h⟩
  | powerDrainDone => exact ⟨_, rfl, State.condStart_inv _ (State.drained?_inv _ _ h)⟩
  | drainTimeout => exact ⟨_, rfl, State.condStart_inv _ (State.drainTimeout_inv _ _ h)⟩
  | domainOn => exact ⟨_, rfl, State.condStart_inv _ (State.domainUp_inv _ _ h)⟩
  | powerMeasure => exact ⟨_, rfl, State.inv_ite h (State.condStart_inv _ (State.measure_inv _ _ h))⟩
  | thermSample => exact ⟨_, rfl, State.inv_ite h (State.thermSample_inv _ _ h)⟩
  | tripRelease => exact ⟨_, rfl, State.inv_ite h h⟩
  | leaseLow => exact ⟨_, rfl, State.inv_ite h (State.raise_inv _ _ _ h)⟩
  | leaseExpiry => exact ⟨_, rfl, State.inv_ite h (State.fence_inv _ h)⟩
  | registerRead => exact ⟨_, rfl, regGet_inv _ _ _ _ h⟩
  | hostLinkUp => exact ⟨_, rfl, State.inv_ite h h⟩
  | fecCodeword =>
    exact ⟨_, rfl, State.inv_ite h (State.inv_ite (State.count_inv _ _ _ h) (State.raise_inv _ _ _ (State.count_inv _ _ _ h)))⟩
  | checkpoint => exact ⟨_, rfl, State.inv_ite (State.checkpoint_inv _ h) h⟩

/-- Settles O4: the command at the front of the queue, or the edge of TCLK, keeps the canonical form. -/
theorem stepKeepsForms : Obligations.StepKeepsForms := by
  unfold Obligations.StepKeepsForms
  intro s t hs hstep
  unfold step at hstep
  split at hstep
  case h_1 =>
    obtain rfl := Host.Outcome.next.inj hstep
    exact s.tick_inv hs
  case h_2 c rest _ =>
    have hrest : ({ s with pending := rest } : State).Inv := hs
    obtain ⟨u, hu, hinv⟩ := exec_keeps_inv c _ hrest
    obtain rfl := Host.Outcome.next.inj (hu.symm.trans hstep)
    exact hinv

end Sys2Proof.Machine
end

section
/-! SUPPORT. Footprints: which parts of the state an operation may change. A frame in a statement is read off a footprint. -/

set_option Elab.async false

namespace Sys2Proof.Machine

/-- The parts of the state: its fields and, of the fields that are structures of engines, their fields. Two further parts stand for
properties that a step keeps: `numbers` (`State.NumbersOk`) and `commits` (`State.CommitsOk`). -/
inductive Part where
  | pending | out | seed | regs | ctlStraps | ctlMode | ctlPhase | ctlTripHold | ctlLinkUp | ctlCapRun | ctlFrameSeen | ctlStopFrame
  | ctlRecStart | ctlRecEnd | ctlCharged | ctlLoHold | ctlW1Done | ctlSnaps | ctlGroups | ctlLatches | ctlThrottled | ctlCredit0
  | ctlCredit1 | ctlBusErrHeld | ctlRelayBeat | rsmBank0 | rsmBank1 | rsmRunning | rsmHeld | rsmWrites | hqSqs | hqCqs | hqCmds | hqGhosts
  | hqAvail | hqDbSeq | hqUidSeq | hqCls | hqClsLeft | hqLast | hqTurn | hqExhausted | hqExhaustedAdmin | hqDbErrHeld | hqErrors
  | hqErrCount0 | hqErrCount1 | hqReport | hqLogUsed | hqMsixTable | hqPci0 | hqPci1 | portA | portB | ingressOpenFrame | ingressSlots
  | ingressFreeCtr | ingressFrameVals | ingressReady | ingressReading | ingressCatchup | ingressSofs | fstoreMem | fstoreLoad | splitPics
  | splitNewest | splitBufs | splitHolds | drawCount | drawLive | drawCat | drawBufs | drawStalled | drawLiveHist | drawCatHist
  | drawCores | drawReassign | drdecOutCount | drdecLast | drdecCur | drdecRecords | drdecReady | henc | hdec | mediaDrives | mediaVol
  | mediaReel | mediaReview | mediaDrops | mediaDropTotal | stages | aud | collF | collMasters | collSel | collDelays | collSync | collT3
  | collAccepted | collReceived | collStepSum | collStepNum | collSmall | collWithin | trig | condQueue | condParked | relayDescs
  | relayCluster | dramcChange | dramcStarted | dramcHeld | dramcGather | dramcNext | dramcCool | dramcBands | dramcUeHeld | fwA | fwB
  | fwFlash0 | fwFlash1 | fwWaiting | fwRunning | fwFailover | fwReports | fwWritten | fwRead | pwrSeqA | pwrSeqB | pwrHeld | pwrRising
  | pwrLimiting | pwrUnder | thermBad | thermGood | thermHist | thermRising | thermHot | thermAbove | arrayLease | arrayLow | loupe
  | mirror | flows | dram | time | exposures | numbers | commits
  deriving DecidableEq

/-- A part is the same in two states; a property that holds of the first holds of the second. -/
def Part.same : Part → State → State → Prop
  | .pending, s, t => t.pending = s.pending
  | .out, s, t => t.out = s.out
  | .seed, s, t => t.seed = s.seed
  | .regs, s, t => t.regs = s.regs
  | .ctlStraps, s, t => t.ctl.straps = s.ctl.straps
  | .ctlMode, s, t => t.ctl.mode = s.ctl.mode
  | .ctlPhase, s, t => t.ctl.phase = s.ctl.phase
  | .ctlTripHold, s, t => t.ctl.tripHold = s.ctl.tripHold
  | .ctlLinkUp, s, t => t.ctl.linkUp = s.ctl.linkUp
  | .ctlCapRun, s, t => t.ctl.capRun = s.ctl.capRun
  | .ctlFrameSeen, s, t => t.ctl.frameSeen = s.ctl.frameSeen
  | .ctlStopFrame, s, t => t.ctl.stopFrame = s.ctl.stopFrame
  | .ctlRecStart, s, t => t.ctl.recStart = s.ctl.recStart
  | .ctlRecEnd, s, t => t.ctl.recEnd = s.ctl.recEnd
  | .ctlCharged, s, t => t.ctl.charged = s.ctl.charged
  | .ctlLoHold, s, t => t.ctl.loHold = s.ctl.loHold
  | .ctlW1Done, s, t => t.ctl.w1Done = s.ctl.w1Done
  | .ctlSnaps, s, t => t.ctl.snaps = s.ctl.snaps
  | .ctlGroups, s, t => t.ctl.groups = s.ctl.groups
  | .ctlLatches, s, t => t.ctl.latches = s.ctl.latches
  | .ctlThrottled, s, t => t.ctl.throttled = s.ctl.throttled
  | .ctlCredit0, s, t => t.ctl.credit0 = s.ctl.credit0
  | .ctlCredit1, s, t => t.ctl.credit1 = s.ctl.credit1
  | .ctlBusErrHeld, s, t => t.ctl.busErrHeld = s.ctl.busErrHeld
  | .ctlRelayBeat, s, t => t.ctl.relayBeat = s.ctl.relayBeat
  | .rsmBank0, s, t => t.rsm.bank0 = s.rsm.bank0
  | .rsmBank1, s, t => t.rsm.bank1 = s.rsm.bank1
  | .rsmRunning, s, t => t.rsm.running = s.rsm.running
  | .rsmHeld, s, t => t.rsm.held = s.rsm.held
  | .rsmWrites, s, t => t.rsm.writes = s.rsm.writes
  | .hqSqs, s, t => t.hq.sqs = s.hq.sqs
  | .hqCqs, s, t => t.hq.cqs = s.hq.cqs
  | .hqCmds, s, t => t.hq.cmds = s.hq.cmds
  | .hqGhosts, s, t => t.hq.ghosts = s.hq.ghosts
  | .hqAvail, s, t => t.hq.avail = s.hq.avail
  | .hqDbSeq, s, t => t.hq.dbSeq = s.hq.dbSeq
  | .hqUidSeq, s, t => t.hq.uidSeq = s.hq.uidSeq
  | .hqCls, s, t => t.hq.cls = s.hq.cls
  | .hqClsLeft, s, t => t.hq.clsLeft = s.hq.clsLeft
  | .hqLast, s, t => t.hq.last = s.hq.last
  | .hqTurn, s, t => t.hq.turn = s.hq.turn
  | .hqExhausted, s, t => t.hq.exhausted = s.hq.exhausted
  | .hqExhaustedAdmin, s, t => t.hq.exhaustedAdmin = s.hq.exhaustedAdmin
  | .hqDbErrHeld, s, t => t.hq.dbErrHeld = s.hq.dbErrHeld
  | .hqErrors, s, t => t.hq.errors = s.hq.errors
  | .hqErrCount0, s, t => t.hq.errCount0 = s.hq.errCount0
  | .hqErrCount1, s, t => t.hq.errCount1 = s.hq.errCount1
  | .hqReport, s, t => t.hq.report = s.hq.report
  | .hqLogUsed, s, t => t.hq.logUsed = s.hq.logUsed
  | .hqMsixTable, s, t => t.hq.msixTable = s.hq.msixTable
  | .hqPci0, s, t => t.hq.pci0 = s.hq.pci0
  | .hqPci1, s, t => t.hq.pci1 = s.hq.pci1
  | .portA, s, t => t.portA = s.portA
  | .portB, s, t => t.portB = s.portB
  | .ingressOpenFrame, s, t => t.ingress.openFrame = s.ingress.openFrame
  | .ingressSlots, s, t => t.ingress.slots = s.ingress.slots
  | .ingressFreeCtr, s, t => t.ingress.freeCtr = s.ingress.freeCtr
  | .ingressFrameVals, s, t => t.ingress.frameVals = s.ingress.frameVals
  | .ingressReady, s, t => t.ingress.ready = s.ingress.ready
  | .ingressReading, s, t => t.ingress.reading = s.ingress.reading
  | .ingressCatchup, s, t => t.ingress.catchup = s.ingress.catchup
  | .ingressSofs, s, t => t.ingress.sofs = s.ingress.sofs
  | .fstoreMem, s, t => t.fstore.mem = s.fstore.mem
  | .fstoreLoad, s, t => t.fstore.load = s.fstore.load
  | .splitPics, s, t => t.split.pics = s.split.pics
  | .splitNewest, s, t => t.split.newest = s.split.newest
  | .splitBufs, s, t => t.split.bufs = s.split.bufs
  | .splitHolds, s, t => t.split.holds = s.split.holds
  | .drawCount, s, t => t.draw.count = s.draw.count
  | .drawLive, s, t => t.draw.live = s.draw.live
  | .drawCat, s, t => t.draw.cat = s.draw.cat
  | .drawBufs, s, t => t.draw.bufs = s.draw.bufs
  | .drawStalled, s, t => t.draw.stalled = s.draw.stalled
  | .drawLiveHist, s, t => t.draw.liveHist = s.draw.liveHist
  | .drawCatHist, s, t => t.draw.catHist = s.draw.catHist
  | .drawCores, s, t => t.draw.cores = s.draw.cores
  | .drawReassign, s, t => t.draw.reassign = s.draw.reassign
  | .drdecOutCount, s, t => t.drdec.outCount = s.drdec.outCount
  | .drdecLast, s, t => t.drdec.last = s.drdec.last
  | .drdecCur, s, t => t.drdec.cur = s.drdec.cur
  | .drdecRecords, s, t => t.drdec.records = s.drdec.records
  | .drdecReady, s, t => t.drdec.ready = s.drdec.ready
  | .henc, s, t => t.henc = s.henc
  | .hdec, s, t => t.hdec = s.hdec
  | .mediaDrives, s, t => t.media.drives = s.media.drives
  | .mediaVol, s, t => t.media.vol = s.media.vol
  | .mediaReel, s, t => t.media.reel = s.media.reel
  | .mediaReview, s, t => t.media.review = s.media.review
  | .mediaDrops, s, t => t.media.drops = s.media.drops
  | .mediaDropTotal, s, t => t.media.dropTotal = s.media.dropTotal
  | .stages, s, t => t.stages = s.stages
  | .aud, s, t => t.aud = s.aud
  | .collF, s, t => t.coll.f = s.coll.f
  | .collMasters, s, t => t.coll.masters = s.coll.masters
  | .collSel, s, t => t.coll.sel = s.coll.sel
  | .collDelays, s, t => t.coll.delays = s.coll.delays
  | .collSync, s, t => t.coll.sync = s.coll.sync
  | .collT3, s, t => t.coll.t3 = s.coll.t3
  | .collAccepted, s, t => t.coll.accepted = s.coll.accepted
  | .collReceived, s, t => t.coll.received = s.coll.received
  | .collStepSum, s, t => t.coll.stepSum = s.coll.stepSum
  | .collStepNum, s, t => t.coll.stepNum = s.coll.stepNum
  | .collSmall, s, t => t.coll.small = s.coll.small
  | .collWithin, s, t => t.coll.within = s.coll.within
  | .trig, s, t => t.trig = s.trig
  | .condQueue, s, t => t.cond.queue = s.cond.queue
  | .condParked, s, t => t.cond.parked = s.cond.parked
  | .relayDescs, s, t => t.relay.descs = s.relay.descs
  | .relayCluster, s, t => t.relay.cluster = s.relay.cluster
  | .dramcChange, s, t => t.dramc.change = s.dramc.change
  | .dramcStarted, s, t => t.dramc.started = s.dramc.started
  | .dramcHeld, s, t => t.dramc.held = s.dramc.held
  | .dramcGather, s, t => t.dramc.gather = s.dramc.gather
  | .dramcNext, s, t => t.dramc.next = s.dramc.next
  | .dramcCool, s, t => t.dramc.cool = s.dramc.cool
  | .dramcBands, s, t => t.dramc.bands = s.dramc.bands
  | .dramcUeHeld, s, t => t.dramc.ueHeld = s.dramc.ueHeld
  | .fwA, s, t => t.fw.a = s.fw.a
  | .fwB, s, t => t.fw.b = s.fw.b
  | .fwFlash0, s, t => t.fw.flash0 = s.fw.flash0
  | .fwFlash1, s, t => t.fw.flash1 = s.fw.flash1
  | .fwWaiting, s, t => t.fw.waiting = s.fw.waiting
  | .fwRunning, s, t => t.fw.running = s.fw.running
  | .fwFailover, s, t => t.fw.failover = s.fw.failover
  | .fwReports, s, t => t.fw.reports = s.fw.reports
  | .fwWritten, s, t => t.fw.written = s.fw.written
  | .fwRead, s, t => t.fw.read = s.fw.read
  | .pwrSeqA, s, t => t.pwr.seqA = s.pwr.seqA
  | .pwrSeqB, s, t => t.pwr.seqB = s.pwr.seqB
  | .pwrHeld, s, t => t.pwr.held = s.pwr.held
  | .pwrRising, s, t => t.pwr.rising = s.pwr.rising
  | .pwrLimiting, s, t => t.pwr.limiting = s.pwr.limiting
  | .pwrUnder, s, t => t.pwr.under = s.pwr.under
  | .thermBad, s, t => t.therm.bad = s.therm.bad
  | .thermGood, s, t => t.therm.good = s.therm.good
  | .thermHist, s, t => t.therm.hist = s.therm.hist
  | .thermRising, s, t => t.therm.rising = s.therm.rising
  | .thermHot, s, t => t.therm.hot = s.therm.hot
  | .thermAbove, s, t => t.therm.above = s.therm.above
  | .arrayLease, s, t => t.array.lease = s.array.lease
  | .arrayLow, s, t => t.array.low = s.array.low
  | .loupe, s, t => t.loupe = s.loupe
  | .mirror, s, t => t.mirror = s.mirror
  | .flows, s, t => t.flows = s.flows
  | .dram, s, t => t.dram = s.dram
  | .time, s, t => t.time = s.time
  | .exposures, s, t => t.exposures = s.exposures
  | .numbers, s, t => s.NumbersOk → t.NumbersOk
  | .commits, s, t => s.CommitsOk → t.CommitsOk

/-- Nothing but the listed parts has changed. -/
structure State.Touches (s t : State) (l : List Part) : Prop where
  same : ∀ p, p ∉ l → p.same s t

/-- The value of a part: that of the second state when the part is listed. -/
def pick {α : Type} (l : List Part) (p : Part) (x y : α) : α := bif l.elem p then y else x

theorem pick_of_not_mem {α : Type} {l : List Part} {p : Part} (h : p ∉ l) (x y : α) : pick l p x y = x := by
  simp [pick, h]

theorem pick_eq_right {α : Type} {l : List Part} {p : Part} {x y : α} (h : p ∉ l → y = x) : pick l p x y = y := by
  by_cases hp : p ∈ l
  · simp [pick, hp]
  · rw [pick_of_not_mem hp, h hp]

/-- A state with the listed parts of another. -/
def State.mix (s t : State) (l : List Part) : State where
  pending := pick l .pending s.pending t.pending
  out := pick l .out s.out t.out
  seed := pick l .seed s.seed t.seed
  regs := pick l .regs s.regs t.regs
  ctl :=
    { straps := pick l .ctlStraps s.ctl.straps t.ctl.straps
      mode := pick l .ctlMode s.ctl.mode t.ctl.mode
      phase := pick l .ctlPhase s.ctl.phase t.ctl.phase
      tripHold := pick l .ctlTripHold s.ctl.tripHold t.ctl.tripHold
      linkUp := pick l .ctlLinkUp s.ctl.linkUp t.ctl.linkUp
      capRun := pick l .ctlCapRun s.ctl.capRun t.ctl.capRun
      frameSeen := pick l .ctlFrameSeen s.ctl.frameSeen t.ctl.frameSeen
      stopFrame := pick l .ctlStopFrame s.ctl.stopFrame t.ctl.stopFrame
      recStart := pick l .ctlRecStart s.ctl.recStart t.ctl.recStart
      recEnd := pick l .ctlRecEnd s.ctl.recEnd t.ctl.recEnd
      charged := pick l .ctlCharged s.ctl.charged t.ctl.charged
      loHold := pick l .ctlLoHold s.ctl.loHold t.ctl.loHold
      w1Done := pick l .ctlW1Done s.ctl.w1Done t.ctl.w1Done
      snaps := pick l .ctlSnaps s.ctl.snaps t.ctl.snaps
      groups := pick l .ctlGroups s.ctl.groups t.ctl.groups
      latches := pick l .ctlLatches s.ctl.latches t.ctl.latches
      throttled := pick l .ctlThrottled s.ctl.throttled t.ctl.throttled
      credit0 := pick l .ctlCredit0 s.ctl.credit0 t.ctl.credit0
      credit1 := pick l .ctlCredit1 s.ctl.credit1 t.ctl.credit1
      busErrHeld := pick l .ctlBusErrHeld s.ctl.busErrHeld t.ctl.busErrHeld
      relayBeat := pick l .ctlRelayBeat s.ctl.relayBeat t.ctl.relayBeat }
  rsm :=
    { bank0 := pick l .rsmBank0 s.rsm.bank0 t.rsm.bank0
      bank1 := pick l .rsmBank1 s.rsm.bank1 t.rsm.bank1
      running := pick l .rsmRunning s.rsm.running t.rsm.running
      held := pick l .rsmHeld s.rsm.held t.rsm.held
      writes := pick l .rsmWrites s.rsm.writes t.rsm.writes }
  hq :=
    { sqs := pick l .hqSqs s.hq.sqs t.hq.sqs
      cqs := pick l .hqCqs s.hq.cqs t.hq.cqs
      cmds := pick l .hqCmds s.hq.cmds t.hq.cmds
      ghosts := pick l .hqGhosts s.hq.ghosts t.hq.ghosts
      avail := pick l .hqAvail s.hq.avail t.hq.avail
      dbSeq := pick l .hqDbSeq s.hq.dbSeq t.hq.dbSeq
      uidSeq := pick l .hqUidSeq s.hq.uidSeq t.hq.uidSeq
      cls := pick l .hqCls s.hq.cls t.hq.cls
      clsLeft := pick l .hqClsLeft s.hq.clsLeft t.hq.clsLeft
      last := pick l .hqLast s.hq.last t.hq.last
      turn := pick l .hqTurn s.hq.turn t.hq.turn
      exhausted := pick l .hqExhausted s.hq.exhausted t.hq.exhausted
      exhaustedAdmin := pick l .hqExhaustedAdmin s.hq.exhaustedAdmin t.hq.exhaustedAdmin
      dbErrHeld := pick l .hqDbErrHeld s.hq.dbErrHeld t.hq.dbErrHeld
      errors := pick l .hqErrors s.hq.errors t.hq.errors
      errCount0 := pick l .hqErrCount0 s.hq.errCount0 t.hq.errCount0
      errCount1 := pick l .hqErrCount1 s.hq.errCount1 t.hq.errCount1
      report := pick l .hqReport s.hq.report t.hq.report
      logUsed := pick l .hqLogUsed s.hq.logUsed t.hq.logUsed
      msixTable := pick l .hqMsixTable s.hq.msixTable t.hq.msixTable
      pci0 := pick l .hqPci0 s.hq.pci0 t.hq.pci0
      pci1 := pick l .hqPci1 s.hq.pci1 t.hq.pci1 }
  portA := pick l .portA s.portA t.portA
  portB := pick l .portB s.portB t.portB
  ingress :=
    { openFrame := pick l .ingressOpenFrame s.ingress.openFrame t.ingress.openFrame
      slots := pick l .ingressSlots s.ingress.slots t.ingress.slots
      freeCtr := pick l .ingressFreeCtr s.ingress.freeCtr t.ingress.freeCtr
      frameVals := pick l .ingressFrameVals s.ingress.frameVals t.ingress.frameVals
      ready := pick l .ingressReady s.ingress.ready t.ingress.ready
      reading := pick l .ingressReading s.ingress.reading t.ingress.reading
      catchup := pick l .ingressCatchup s.ingress.catchup t.ingress.catchup
      sofs := pick l .ingressSofs s.ingress.sofs t.ingress.sofs }
  fstore :=
    { mem := pick l .fstoreMem s.fstore.mem t.fstore.mem
      load := pick l .fstoreLoad s.fstore.load t.fstore.load }
  split :=
    { pics := pick l .splitPics s.split.pics t.split.pics
      newest := pick l .splitNewest s.split.newest t.split.newest
      bufs := pick l .splitBufs s.split.bufs t.split.bufs
      holds := pick l .splitHolds s.split.holds t.split.holds }
  draw :=
    { count := pick l .drawCount s.draw.count t.draw.count
      live := pick l .drawLive s.draw.live t.draw.live
      cat := pick l .drawCat s.draw.cat t.draw.cat
      bufs := pick l .drawBufs s.draw.bufs t.draw.bufs
      stalled := pick l .drawStalled s.draw.stalled t.draw.stalled
      liveHist := pick l .drawLiveHist s.draw.liveHist t.draw.liveHist
      catHist := pick l .drawCatHist s.draw.catHist t.draw.catHist
      cores := pick l .drawCores s.draw.cores t.draw.cores
      reassign := pick l .drawReassign s.draw.reassign t.draw.reassign }
  drdec :=
    { outCount := pick l .drdecOutCount s.drdec.outCount t.drdec.outCount
      last := pick l .drdecLast s.drdec.last t.drdec.last
      cur := pick l .drdecCur s.drdec.cur t.drdec.cur
      records := pick l .drdecRecords s.drdec.records t.drdec.records
      ready := pick l .drdecReady s.drdec.ready t.drdec.ready }
  henc := pick l .henc s.henc t.henc
  hdec := pick l .hdec s.hdec t.hdec
  media :=
    { drives := pick l .mediaDrives s.media.drives t.media.drives
      vol := pick l .mediaVol s.media.vol t.media.vol
      reel := pick l .mediaReel s.media.reel t.media.reel
      review := pick l .mediaReview s.media.review t.media.review
      drops := pick l .mediaDrops s.media.drops t.media.drops
      dropTotal := pick l .mediaDropTotal s.media.dropTotal t.media.dropTotal }
  stages := pick l .stages s.stages t.stages
  aud := pick l .aud s.aud t.aud
  coll :=
    { f := pick l .collF s.coll.f t.coll.f
      masters := pick l .collMasters s.coll.masters t.coll.masters
      sel := pick l .collSel s.coll.sel t.coll.sel
      delays := pick l .collDelays s.coll.delays t.coll.delays
      sync := pick l .collSync s.coll.sync t.coll.sync
      t3 := pick l .collT3 s.coll.t3 t.coll.t3
      accepted := pick l .collAccepted s.coll.accepted t.coll.accepted
      received := pick l .collReceived s.coll.received t.coll.received
      stepSum := pick l .collStepSum s.coll.stepSum t.coll.stepSum
      stepNum := pick l .collStepNum s.coll.stepNum t.coll.stepNum
      small := pick l .collSmall s.coll.small t.coll.small
      within := pick l .collWithin s.coll.within t.coll.within }
  trig := pick l .trig s.trig t.trig
  cond :=
    { queue := pick l .condQueue s.cond.queue t.cond.queue
      parked := pick l .condParked s.cond.parked t.cond.parked }
  relay :=
    { descs := pick l .relayDescs s.relay.descs t.relay.descs
      cluster := pick l .relayCluster s.relay.cluster t.relay.cluster }
  dramc :=
    { change := pick l .dramcChange s.dramc.change t.dramc.change
      started := pick l .dramcStarted s.dramc.started t.dramc.started
      held := pick l .dramcHeld s.dramc.held t.dramc.held
      gather := pick l .dramcGather s.dramc.gather t.dramc.gather
      next := pick l .dramcNext s.dramc.next t.dramc.next
      cool := pick l .dramcCool s.dramc.cool t.dramc.cool
      bands := pick l .dramcBands s.dramc.bands t.dramc.bands
      ueHeld := pick l .dramcUeHeld s.dramc.ueHeld t.dramc.ueHeld }
  fw :=
    { a := pick l .fwA s.fw.a t.fw.a
      b := pick l .fwB s.fw.b t.fw.b
      flash0 := pick l .fwFlash0 s.fw.flash0 t.fw.flash0
      flash1 := pick l .fwFlash1 s.fw.flash1 t.fw.flash1
      waiting := pick l .fwWaiting s.fw.waiting t.fw.waiting
      running := pick l .fwRunning s.fw.running t.fw.running
      failover := pick l .fwFailover s.fw.failover t.fw.failover
      reports := pick l .fwReports s.fw.reports t.fw.reports
      written := pick l .fwWritten s.fw.written t.fw.written
      read := pick l .fwRead s.fw.read t.fw.read }
  pwr :=
    { seqA := pick l .pwrSeqA s.pwr.seqA t.pwr.seqA
      seqB := pick l .pwrSeqB s.pwr.seqB t.pwr.seqB
      held := pick l .pwrHeld s.pwr.held t.pwr.held
      rising := pick l .pwrRising s.pwr.rising t.pwr.rising
      limiting := pick l .pwrLimiting s.pwr.limiting t.pwr.limiting
      under := pick l .pwrUnder s.pwr.under t.pwr.under }
  therm :=
    { bad := pick l .thermBad s.therm.bad t.therm.bad
      good := pick l .thermGood s.therm.good t.therm.good
      hist := pick l .thermHist s.therm.hist t.therm.hist
      rising := pick l .thermRising s.therm.rising t.therm.rising
      hot := pick l .thermHot s.therm.hot t.therm.hot
      above := pick l .thermAbove s.therm.above t.therm.above }
  array :=
    { lease := pick l .arrayLease s.array.lease t.array.lease
      low := pick l .arrayLow s.array.low t.array.low }
  loupe := pick l .loupe s.loupe t.loupe
  mirror := pick l .mirror s.mirror t.mirror
  flows := pick l .flows s.flows t.flows
  dram := pick l .dram s.dram t.dram
  time := pick l .time s.time t.time
  exposures := pick l .exposures s.exposures t.exposures

/-- Every part but the queue and the two properties. -/
def everything : List Part :=
  [.out, .seed, .regs, .ctlStraps, .ctlMode, .ctlPhase, .ctlTripHold, .ctlLinkUp, .ctlCapRun, .ctlFrameSeen, .ctlStopFrame, .ctlRecStart,
    .ctlRecEnd, .ctlCharged, .ctlLoHold, .ctlW1Done, .ctlSnaps, .ctlGroups, .ctlLatches, .ctlThrottled, .ctlCredit0, .ctlCredit1,
    .ctlBusErrHeld, .ctlRelayBeat, .rsmBank0, .rsmBank1, .rsmRunning, .rsmHeld, .rsmWrites, .hqSqs, .hqCqs, .hqCmds, .hqGhosts, .hqAvail,
    .hqDbSeq, .hqUidSeq, .hqCls, .hqClsLeft, .hqLast, .hqTurn, .hqExhausted, .hqExhaustedAdmin, .hqDbErrHeld, .hqErrors, .hqErrCount0,
    .hqErrCount1, .hqReport, .hqLogUsed, .hqMsixTable, .hqPci0, .hqPci1, .portA, .portB, .ingressOpenFrame, .ingressSlots,
    .ingressFreeCtr, .ingressFrameVals, .ingressReady, .ingressReading, .ingressCatchup, .ingressSofs, .fstoreMem, .fstoreLoad,
    .splitPics, .splitNewest, .splitBufs, .splitHolds, .drawCount, .drawLive, .drawCat, .drawBufs, .drawStalled, .drawLiveHist,
    .drawCatHist, .drawCores, .drawReassign, .drdecOutCount, .drdecLast, .drdecCur, .drdecRecords, .drdecReady, .henc, .hdec,
    .mediaDrives, .mediaVol, .mediaReel, .mediaReview, .mediaDrops, .mediaDropTotal, .stages, .aud, .collF, .collMasters, .collSel,
    .collDelays, .collSync, .collT3, .collAccepted, .collReceived, .collStepSum, .collStepNum, .collSmall, .collWithin, .trig, .condQueue,
    .condParked, .relayDescs, .relayCluster, .dramcChange, .dramcStarted, .dramcHeld, .dramcGather, .dramcNext, .dramcCool, .dramcBands,
    .dramcUeHeld, .fwA, .fwB, .fwFlash0, .fwFlash1, .fwWaiting, .fwRunning, .fwFailover, .fwReports, .fwWritten, .fwRead, .pwrSeqA,
    .pwrSeqB, .pwrHeld, .pwrRising, .pwrLimiting, .pwrUnder, .thermBad, .thermGood, .thermHist, .thermRising, .thermHot, .thermAbove,
    .arrayLease, .arrayLow, .loupe, .mirror, .flows, .dram, .time, .exposures]

theorem everything_all : everything.all everything.elem = true := List.all_eq_true.2 fun _ hp => List.elem_iff.2 hp

/-- Whoever changes the command table or the groups and snapshots of commits answers for the property. -/
def answersFor (l : List Part) : Bool :=
  (l.elem .numbers || !(l.elem .hqCmds || l.elem .hqUidSeq)) && (l.elem .commits || !(l.elem .ctlGroups || l.elem .ctlSnaps))

theorem State.Touches.refl (s : State) (l : List Part) : s.Touches s l := by
  refine ⟨fun p _ => ?_⟩
  cases p
  case numbers | commits => exact id
  all_goals rfl

theorem Part.same_trans {p : Part} {s t u : State} (h : p.same s t) (h' : p.same t u) : p.same s u := by
  cases p
  case numbers | commits => exact fun x => h' (h x)
  all_goals exact Eq.trans h' h

theorem State.Touches.trans {s t u : State} {l : List Part} (h : s.Touches t l) (h' : t.Touches u l) : s.Touches u l :=
  ⟨fun p hp => Part.same_trans (h.same p hp) (h'.same p hp)⟩

theorem State.Touches.mono {s t : State} {l l' : List Part} (h : s.Touches t l) (hl : l.all l'.elem = true) : s.Touches t l' :=
  ⟨fun p hp => h.same p fun hm => hp (List.elem_iff.1 (List.all_eq_true.1 hl p hm))⟩

/-- An operation follows: its footprint lies within the whole one. -/
theorem State.Touches.step {s t u : State} {l l' : List Part} (h : s.Touches t l) (h' : t.Touches u l') (hl : l'.all l.elem = true) :
    s.Touches u l := h.trans (h'.mono hl)

/-- The same, for an operation that is named first. -/
theorem State.Touches.after {s t u : State} {l l' : List Part} (h' : t.Touches u l') (h : s.Touches t l) (hl : l'.all l.elem = true) :
    s.Touches u l := h.step h' hl

theorem State.Touches.ite {s t u : State} {l : List Part} {c : Prop} [Decidable c] (h : s.Touches t l) (h' : s.Touches u l) :
    s.Touches (if c then t else u) l := by
  split
  · exact h
  · exact h'

/-- A fold of operations changes no more than each of them. -/
theorem State.Touches.foldl {α : Type} {f : State → α → State} {s t : State} {l : List Part} (h : s.Touches t l)
    (hf : ∀ (u : State) x, u.Touches (f u x) l) (xs : List α) : s.Touches (xs.foldl f t) l := by
  induction xs generalizing t with
  | nil => exact h
  | cons x xs ih => exact ih (h.trans (hf t x))

/-- A fold over a state and something beside it. -/
theorem State.Touches.foldl_fst {α β : Type} {f : State × β → α → State × β} {s : State} {acc : State × β} {l : List Part}
    (h : s.Touches acc.1 l) (hf : ∀ (acc : State × β) x, acc.1.Touches (f acc x).1 l) (xs : List α) : s.Touches (xs.foldl f acc).1 l := by
  induction xs generalizing acc with
  | nil => exact h
  | cons x xs ih => exact ih (h.trans (hf acc x))

/-- The frame that a footprint gives: for listed parts written out, the right-hand side is a structure update of `s`. -/
theorem State.Touches.eq_mix {s t : State} {l : List Part} (h : s.Touches t l) : t = s.mix t l := by
  obtain ⟨_, _, _, _, ⟨_, _, _, _, _, _, _, _, _, _, _, _, _, _, _, _, _, _, _, _, _⟩, ⟨_, _, _, _, _⟩, ⟨_, _, _, _, _, _, _, _, _, _, _,
      _, _, _, _, _, _, _, _, _, _, _⟩, _, _, ⟨_, _, _, _, _, _, _, _⟩, ⟨_, _⟩, ⟨_, _, _, _⟩, ⟨_, _, _, _, _, _, _, _, _⟩, ⟨_, _, _, _,
      _⟩, _, _, ⟨_, _, _, _, _, _⟩, _, _, ⟨_, _, _, _, _, _, _, _, _, _, _, _⟩, _, ⟨_, _⟩, ⟨_, _⟩, ⟨_, _, _, _, _, _, _, _⟩, ⟨_, _, _, _,
      _, _, _, _, _, _⟩, ⟨_, _, _, _, _, _⟩, ⟨_, _, _, _, _, _⟩, ⟨_, _⟩, _, _, _, _, _, _⟩ := t
  simp only [State.mix, State.mk.injEq, Ctl.mk.injEq, Rsm.mk.injEq, Hq.mk.injEq, IngressSt.mk.injEq, FilterSt.mk.injEq, SplitSt.mk.injEq,
      DrawSt.mk.injEq, DrDecSt.mk.injEq, RecSt.mk.injEq, CollSt.mk.injEq, CondSt.mk.injEq, RelaySt.mk.injEq, DramSt.mk.injEq,
      FwSt.mk.injEq, PwrSt.mk.injEq, ThermSt.mk.injEq, ArraySt.mk.injEq]
  and_intros <;> exact (pick_eq_right (h.same _)).symm

/-- A state made of another with some parts set has these parts as its footprint. -/
theorem State.Touches.of_eq {s t : State} {l : List Part} (h : t = s.mix t l) (ha : answersFor l = true) : s.Touches t l := by
  have hn : ∀ p, p ∉ l → l.elem p = false := fun p hp => by simpa using hp
  refine ⟨fun p hp => ?_⟩
  cases p
  case numbers =>
    have hboth : Part.hqCmds ∉ l ∧ Part.hqUidSeq ∉ l := by simpa [answersFor, hp] using (Bool.and_eq_true_iff.1 ha).1
    have hc : t.hq.cmds = s.hq.cmds := (congrArg (fun u : State => u.hq.cmds) h).trans (pick_of_not_mem hboth.1 _ _)
    have hu : t.hq.uidSeq = s.hq.uidSeq := (congrArg (fun u : State => u.hq.uidSeq) h).trans (pick_of_not_mem hboth.2 _ _)
    intro x
    simpa only [State.NumbersOk, State.NumbersUnique, hc, hu] using x
  case commits =>
    have hboth : Part.ctlGroups ∉ l ∧ Part.ctlSnaps ∉ l := by simpa [answersFor, hp] using (Bool.and_eq_true_iff.1 ha).2
    have hc : t.ctl.groups = s.ctl.groups := (congrArg (fun u : State => u.ctl.groups) h).trans (pick_of_not_mem hboth.1 _ _)
    have hu : t.ctl.snaps = s.ctl.snaps := (congrArg (fun u : State => u.ctl.snaps) h).trans (pick_of_not_mem hboth.2 _ _)
    intro x
    simpa only [State.CommitsOk, hc, hu] using x
  all_goals
    rw [Part.same]
    rw [h]
    exact pick_of_not_mem hp _ _

/-- A property that is kept after all need not be listed. -/
theorem State.Touches.numbers {s t : State} {l : List Part} (h : s.Touches t (.numbers :: l)) (hn : s.NumbersOk → t.NumbersOk) :
    s.Touches t l := by
  refine ⟨fun p hp => ?_⟩
  by_cases e : p = .numbers
  · subst e
    exact hn
  · exact h.same p (by simp [e, hp])

theorem State.Touches.commits {s t : State} {l : List Part} (h : s.Touches t (.commits :: l)) (hn : s.CommitsOk → t.CommitsOk) :
    s.Touches t l := by
  refine ⟨fun p hp => ?_⟩
  by_cases e : p = .commits
  · subst e
    exact hn
  · exact h.same p (by simp [e, hp])

/-- What the numbers of commands and the kinds of commits are read from. -/
def State.answers (s : State) : Tbl Cmd × Nat × List (Nat × List Nat) × List (Nat × List (Nat × Word)) :=
  (s.hq.cmds, s.hq.uidSeq, s.ctl.groups, s.ctl.snaps)

/-- A state made of another with some parts set, but for the commands, the groups and the snapshots. -/
theorem State.Touches.of_mix {s t : State} {l : List Part} (h : t = s.mix t l) (hk : t.answers = s.answers) : s.Touches t l := by
  have hbig : s.Touches t (.numbers :: .commits :: l) :=
    .of_eq (h.trans (by simp only [State.mix, pick, List.elem_cons, beq_false_of_ne, ne_eq, reduceCtorEq, not_false_eq_true]))
      (by simp [answersFor])
  obtain ⟨hc, hu, hg, hs⟩ : t.hq.cmds = s.hq.cmds ∧ t.hq.uidSeq = s.hq.uidSeq ∧ t.ctl.groups = s.ctl.groups ∧ t.ctl.snaps = s.ctl.snaps
      := by
    simpa [State.answers] using hk
  refine .commits (.numbers hbig fun x => ?_) fun x => ?_
  · simpa only [State.NumbersOk, State.NumbersUnique, hc, hu] using x
  · simpa only [State.CommitsOk, hg, hs] using x

/-- A state with some fields replaced: what it is made of has changed before, and the fields lie within the footprint. -/
theorem State.Touches.op {s y t : State} {l : List Part} (h : s.Touches y l) (hm : t = y.mix t l) (hk : t.answers = y.answers) :
    s.Touches t l := h.trans (.of_mix hm hk)

theorem State.setHq_touches {s y : State} {l : List Part} (x : Hq) (h : s.Touches y l) (hm : y.setHq x = y.mix (y.setHq x) l)
    (hk : (y.setHq x).answers = y.answers) : s.Touches (y.setHq x) l := h.op hm hk

theorem State.setIngress_touches {s y : State} {l : List Part} (x : IngressSt) (h : s.Touches y l) (hm : y.setIngress x = y.mix
    (y.setIngress x) l)
    (hk : (y.setIngress x).answers = y.answers) : s.Touches (y.setIngress x) l := h.op hm hk

theorem State.setRec_touches {s y : State} {l : List Part} (x : RecSt) (h : s.Touches y l) (hm : y.setRec x = y.mix (y.setRec x) l)
    (hk : (y.setRec x).answers = y.answers) : s.Touches (y.setRec x) l := h.op hm hk

theorem State.setColl_touches {s y : State} {l : List Part} (x : CollSt) (h : s.Touches y l) (hm : y.setColl x = y.mix (y.setColl x) l)
    (hk : (y.setColl x).answers = y.answers) : s.Touches (y.setColl x) l := h.op hm hk

theorem State.setCond_touches {s y : State} {l : List Part} (x : CondSt) (h : s.Touches y l) (hm : y.setCond x = y.mix (y.setCond x) l)
    (hk : (y.setCond x).answers = y.answers) : s.Touches (y.setCond x) l := h.op hm hk

theorem State.setDramc_touches {s y : State} {l : List Part} (x : DramSt) (h : s.Touches y l) (hm : y.setDramc x = y.mix (y.setDramc x) l)
    (hk : (y.setDramc x).answers = y.answers) : s.Touches (y.setDramc x) l := h.op hm hk

theorem State.setFw_touches {s y : State} {l : List Part} (x : FwSt) (h : s.Touches y l) (hm : y.setFw x = y.mix (y.setFw x) l)
    (hk : (y.setFw x).answers = y.answers) : s.Touches (y.setFw x) l := h.op hm hk

theorem State.setPwr_touches {s y : State} {l : List Part} (x : PwrSt) (h : s.Touches y l) (hm : y.setPwr x = y.mix (y.setPwr x) l)
    (hk : (y.setPwr x).answers = y.answers) : s.Touches (y.setPwr x) l := h.op hm hk

theorem State.setTherm_touches {s y : State} {l : List Part} (x : ThermSt) (h : s.Touches y l) (hm : y.setTherm x = y.mix (y.setTherm x) l)
    (hk : (y.setTherm x).answers = y.answers) : s.Touches (y.setTherm x) l := h.op hm hk

theorem State.setTrig_touches {s y : State} {l : List Part} (x : TrigSt) (h : s.Touches y l) (hm : y.setTrig x = y.mix (y.setTrig x) l)
    (hk : (y.setTrig x).answers = y.answers) : s.Touches (y.setTrig x) l := h.op hm hk

theorem State.setRelay_touches {s y : State} {l : List Part} (x : RelaySt) (h : s.Touches y l) (hm : y.setRelay x = y.mix (y.setRelay x) l)
    (hk : (y.setRelay x).answers = y.answers) : s.Touches (y.setRelay x) l := h.op hm hk

/-- A structure update of a state. -/
theorem State.Touches.set {s y : State} {l : List Part}
    {out seed regs ctl rsm hq portA portB ingress fstore split draw drdec henc hdec media stages aud coll trig cond relay dramc fw pwr
      therm array loupe mirror flows dram time exposures} (h : s.Touches y l)
    (hm : State.mk y.pending out seed regs ctl rsm hq portA portB ingress fstore split draw drdec henc hdec media stages aud coll
        trig cond relay dramc fw pwr
        therm array loupe mirror flows dram time exposures =
      y.mix (State.mk y.pending out seed regs ctl rsm hq portA portB ingress fstore split draw drdec henc hdec media stages aud coll
        trig cond relay dramc fw pwr
        therm array loupe mirror flows dram time exposures) l)
    (hk : (hq.cmds, hq.uidSeq, ctl.groups, ctl.snaps) = y.answers) :
    s.Touches (State.mk y.pending out seed regs ctl rsm hq portA portB ingress fstore split draw drdec henc hdec media stages aud coll
        trig cond relay dramc fw pwr
      therm array loupe mirror flows dram time exposures) l := h.op hm hk

end Sys2Proof.Machine
end

section
/-! SUPPORT. Footprints of the register operations, events and commits -/

set_option Elab.async false

namespace Sys2Proof.Machine

theorem State.wr_touches (s : State) (a : Nat) (w : Word) : s.Touches (s.wr a w) [.regs] := .of_eq rfl rfl

theorem State.setFld_touches (s : State) (p : Nat) (f : Fld) (v : Nat) : s.Touches (State.setFld s p f v) [.regs] := by
  unfold State.setFld
  repeat' first
    | with_reducible exact .refl _ _
    | exact rfl
    | with_reducible apply State.Touches.after (State.wr_touches _ _ _)

theorem State.setFld64_touches (s : State) (p : Nat) (lo : Fld) (hi : Fld) (v : Nat) : s.Touches (State.setFld64 s p lo hi v) [.regs] :=
    by
  unfold State.setFld64
  repeat' first
    | with_reducible exact .refl _ _
    | exact rfl
    | with_reducible apply State.Touches.after (State.setFld_touches _ _ _ _)

theorem State.countBy_touches (s : State) (p : Nat) (f : Fld) (n : Nat) : s.Touches (State.countBy s p f n) [.regs] := by
  unfold State.countBy
  repeat' first
    | with_reducible exact .refl _ _
    | exact rfl
    | with_reducible apply State.Touches.after (State.setFld_touches _ _ _ _)

theorem State.count_touches (s : State) (p : Nat) (f : Fld) : s.Touches (State.count s p f) [.regs] := by
  unfold State.count
  repeat' first
    | with_reducible exact .refl _ _
    | exact rfl
    | with_reducible apply State.Touches.after (State.countBy_touches _ _ _ _)

theorem State.setOn_touches (s : State) (p : Nat) (f : Fld) (b : Bool) : s.Touches (State.setOn s p f b) [.regs] := by
  unfold State.setOn
  repeat' first
    | with_reducible exact .refl _ _
    | exact rfl
    | with_reducible apply State.Touches.after (State.setFld_touches _ _ _ _)

theorem State.emit_touches (s : State) (o : Out) : s.Touches (State.emit s o) [.out] := by
  unfold State.emit
  repeat' first
    | with_reducible exact .refl _ _
    | exact rfl
    | with_reducible apply State.Touches.set

theorem State.latch_touches (s : State) (k : Nat) : s.Touches (State.latch s k) [.ctlLatches] := by
  unfold State.latch
  repeat' first
    | with_reducible exact .refl _ _
    | exact rfl
    | with_reducible apply State.Touches.set

theorem noteRise_touches (s0 : State) (s1 : State) (p : Nat) : s1.Touches (noteRise s0 s1 p) [.ctlLatches] := by
  unfold noteRise
  repeat' first
    | with_reducible exact .refl _ _
    | exact rfl
    | with_reducible apply State.Touches.after (State.latch_touches _ _)
    | with_reducible apply State.Touches.ite

theorem State.raise_touches (s : State) (p : Nat) (e : Fld) : s.Touches (State.raise s p e) [.regs, .ctlLatches] := by
  unfold State.raise
  repeat' first
    | with_reducible exact .refl _ _
    | exact rfl
    | with_reducible apply State.Touches.after (State.setFld_touches _ _ _ _)
    | with_reducible apply State.Touches.after (noteRise_touches _ _ _)

theorem State.setPciFn_touches (s : State) (fn : Fn) (c : PciFn) : s.Touches (State.setPciFn s fn c) [.hqPci0, .hqPci1] := by
  unfold State.setPciFn
  repeat' first
    | with_reducible exact .refl _ _
    | exact rfl
    | split
    | with_reducible apply State.Touches.set

theorem State.reject_touches (s : State) (p : Nat) : s.Touches (State.reject s p) [.regs, .ctlLatches] := by
  unfold State.reject
  repeat' first
    | with_reducible exact .refl _ _
    | exact rfl
    | with_reducible apply State.Touches.after (State.raise_touches _ _ _)

theorem noteRiseAll_touches (s0 : State) (s1 : State) : s1.Touches (noteRiseAll s0 s1) [.ctlLatches] := by
  unfold noteRiseAll
  repeat' first
    | with_reducible exact .refl _ _
    | exact rfl
    | with_reducible apply State.Touches.after (State.latch_touches _ _)
    | with_reducible apply State.Touches.ite
    | with_reducible apply State.Touches.foldl
    | intro _

theorem State.noteCa_touches (s : State) (fn : Fn) : s.Touches (State.noteCa s fn) [.hqPci0, .hqPci1] := by
  unfold State.noteCa
  repeat' first
    | with_reducible exact .refl _ _
    | exact rfl
    | with_reducible apply State.Touches.after (State.setPciFn_touches _ _ _)

theorem State.raiseIf_touches (s : State) (c : Bool) (p : Nat) (e : Fld) : s.Touches (State.raiseIf s c p e) [.regs, .ctlLatches] := by
  unfold State.raiseIf
  repeat' first
    | with_reducible exact .refl _ _
    | exact rfl
    | with_reducible apply State.Touches.after (State.raise_touches _ _ _)
    | with_reducible apply State.Touches.ite

theorem State.abort_touches (s : State) (r : Req) (off : Nat) (write : Bool) : s.Touches (State.abort s r off write) [.out, .hqPci0,
    .hqPci1] := by
  unfold State.abort
  repeat' first
    | with_reducible exact .refl _ _
    | exact rfl
    | with_reducible apply State.Touches.after (State.emit_touches _ _)
    | with_reducible apply State.Touches.after (State.noteCa_touches _ _)
    | split

theorem State.busError_touches (s : State) (r : Req) (off : Nat) (write : Bool) : s.Touches (State.busError s r off write) [.out, .regs,
    .ctlLatches, .ctlBusErrHeld, .hqPci0, .hqPci1] := by
  unfold State.busError
  repeat' first
    | with_reducible exact .refl _ _
    | exact rfl
    | with_reducible apply State.Touches.after (State.count_touches _ _ _)
    | with_reducible apply State.Touches.after (State.setOn_touches _ _ _ _)
    | with_reducible apply State.Touches.after (State.setFld_touches _ _ _ _)
    | with_reducible apply State.Touches.after (State.raise_touches _ _ _)
    | with_reducible apply State.Touches.after (State.abort_touches _ _ _ _)
    | with_reducible apply State.Touches.ite
    | with_reducible apply State.Touches.set

theorem State.showCorr_touches (s : State) : s.Touches (State.showCorr s) [.regs] := by
  unfold State.showCorr
  repeat' first
    | with_reducible exact .refl _ _
    | exact rfl
    | with_reducible apply State.Touches.after (State.setFld_touches _ _ _ _)
    | with_reducible apply State.Touches.ite

theorem withRead_touches (r : Req) (p : Nat) (o : Nat) (be : Nat) (s : State) (w : Word) (clears : Bool) : s.Touches (withRead r p o be s
    w clears) [.out, .regs, .ctlLatches, .ctlBusErrHeld, .hqPci0, .hqPci1] := by
  unfold withRead
  repeat' first
    | with_reducible exact .refl _ _
    | exact rfl
    | with_reducible apply State.Touches.after (State.wr_touches _ _ _)
    | with_reducible apply State.Touches.after (State.emit_touches _ _)
    | with_reducible apply State.Touches.after (State.busError_touches _ _ _ _)
    | split

/-- Groups taken from those that are bound. -/
theorem State.touches_setGroups (s : State) (g : List (Nat × List Nat)) (h : ∀ x ∈ g, x ∈ s.ctl.groups) :
    s.Touches { s with ctl := { s.ctl with groups := g } } [.ctlGroups] :=
  State.Touches.commits (.of_eq rfl rfl) fun hs => ⟨fun x hx => hs.1 x (h x hx), hs.2⟩

/-- Snapshots taken from those that are pending. -/
theorem State.touches_setSnaps (s : State) (l : List (Nat × List (Nat × Word))) (h : ∀ x ∈ l, x ∈ s.ctl.snaps) :
    s.Touches { s with ctl := { s.ctl with snaps := l } } [.ctlSnaps] :=
  State.Touches.commits (.of_eq rfl rfl) fun hs => ⟨hs.1, fun x hx => hs.2 x (h x hx)⟩

theorem State.endCommit_touches (s : State) (p : Nat) : s.Touches (s.endCommit p) [.regs, .ctlSnaps] :=
  .step ((State.setFld_touches ..).mono rfl) (State.touches_setSnaps _ _ fun _ h => (List.mem_filter.1 h).1) rfl

theorem State.showGroups_touches (s : State) : s.Touches (State.showGroups s) [.regs] := by
  unfold State.showGroups
  repeat' first
    | with_reducible exact .refl _ _
    | exact rfl
    | with_reducible apply State.Touches.after (State.setOn_touches _ _ _ _)
    | with_reducible apply State.Touches.after (State.setFld_touches _ _ _ _)

theorem State.lockViolation_touches (s : State) : s.Touches (State.lockViolation s) [.regs, .ctlLatches] := by
  unfold State.lockViolation
  repeat' first
    | with_reducible exact .refl _ _
    | exact rfl
    | with_reducible apply State.Touches.after (State.count_touches _ _ _)
    | with_reducible apply State.Touches.after (State.raise_touches _ _ _)

theorem State.store_touches (s : State) (p : Nat) (o : Nat) (w : Word) : s.Touches (State.store s p o w) [.regs, .ctlLoHold] := by
  unfold State.store
  repeat' first
    | with_reducible exact .refl _ _
    | exact rfl
    | with_reducible apply State.Touches.after (State.wr_touches _ _ _)
    | split
    | with_reducible apply State.Touches.set

theorem State.fwDeny_touches (s : State) : s.Touches (State.fwDeny s) [.regs, .ctlLatches] := by
  unfold State.fwDeny
  repeat' first
    | with_reducible exact .refl _ _
    | exact rfl
    | with_reducible apply State.Touches.after (State.count_touches _ _ _)
    | with_reducible apply State.Touches.after (State.raise_touches _ _ _)

/-- What the checks of a register write may change: refusals, and the mark of a W1 register that is written. -/
def writeParts : List Part := [.out, .regs, .ctlW1Done, .ctlLatches, .ctlBusErrHeld, .hqPci0, .hqPci1]

/-- The outcome of a register write: a state that its checks leave, or its effect on one. -/
def State.ChecksOr (s : State) (k : State → Word → Word → State) (u : State) : Prop :=
  ∃ t, s.Touches t writeParts ∧ (u = t ∨ ∃ old new, u = k t old new)

theorem State.ChecksOr.ite {s t u : State} {k : State → Word → Word → State} {c : Prop} [Decidable c] (h : s.ChecksOr k t)
    (h' : s.ChecksOr k u) : s.ChecksOr k (if c then t else u) := by
  split
  · exact h
  · exact h'

/-- A register write ends with its checks, or takes its effect on a state that its checks leave. -/
theorem withWrite_cases (r : Req) (p o : Nat) (v : Word) (s : State) (k : State → Word → Word → State) :
    s.ChecksOr k (withWrite r p o v s k) := by
  have hend : ∀ {t}, s.Touches t writeParts → s.ChecksOr k t := fun h => ⟨_, h, .inl rfl⟩
  have hw1 : ∀ (t : State) (x : List Nat), s.Touches t writeParts →
      s.Touches { t with ctl := { t.ctl with w1Done := x } } writeParts := fun t x h => .set h rfl rfl
  unfold withWrite
  refine .ite (hend (.refl _ _)) ?_
  split
  · exact hend ((State.busError_touches ..).mono rfl)
  · extract_lets s1 fs1 denied s2 fs touched a old _ s3
    have h1 : s.Touches s1 writeParts := .ite ((State.count_touches ..).mono rfl) (.refl _ _)
    have h2 : s.Touches s2 writeParts := .ite (h1.step (State.fwDeny_touches _) rfl) h1
    have hlock := hend (h2.step (State.lockViolation_touches _) rfl)
    have heffect : s.ChecksOr k (k s3 old (applyWrite fs old v)) := ⟨s3, .ite (hw1 _ _ h2) h2, .inr ⟨_, _, rfl⟩⟩
    exact .ite (hend h1) (.ite (hend (h1.step (State.reject_touches ..) rfl)) (.ite (hend h2) (.ite hlock (.ite hlock
      (.ite (hend (h2.step (State.reject_touches ..) rfl)) heffect)))))

/-- A register write changes what its checks change and what its effect changes. -/
theorem withWrite_touches (r : Req) (p o : Nat) (v : Word) (s : State) (k : State → Word → Word → State) {l : List Part}
    (hk : ∀ (t : State) x y, t.Touches (k t x y) l) (hl : writeParts.all l.elem = true) : s.Touches (withWrite r p o v s k) l := by
  obtain ⟨t, ht, h | ⟨old, new, h⟩⟩ := withWrite_cases r p o v s k <;> rw [h]
  · exact ht.mono hl
  · exact (ht.mono hl).trans (hk t old new)

theorem State.ne_global_of_armed {s : State} {p : Nat} (h : s.armed p = true) : p ≠ Pg.global := by
  unfold State.armed at h
  simp only [Bool.and_eq_true, decide_eq_true_eq] at h
  exact h.1.1.1

theorem State.bindGroup_touches (s : State) : s.Touches (s.bindGroup) [.regs, .ctlGroups, .ctlLatches] := by
  unfold State.bindGroup
  refine .ite ?_ (.step ?_ (State.showGroups_touches _) rfl)
  · repeat' first
      | with_reducible exact .refl _ _
      | exact rfl
      | with_reducible apply State.Touches.after (State.setFld_touches _ _ _ _)
      | with_reducible apply State.Touches.after (State.raise_touches _ _ _)
      | with_reducible apply State.Touches.ite
  · refine State.Touches.commits (.of_eq rfl rfl) fun hs => ⟨fun g hg p hp => ?_, hs.2⟩
    rcases List.mem_append.1 hg with h | h
    · exact hs.1 g h p hp
    · obtain rfl := List.mem_singleton.1 h
      obtain ⟨hall, harmed⟩ := List.mem_filter.1 hp
      exact ⟨hall, State.ne_global_of_armed harmed⟩

theorem writeGlobalCommit_touches (r : Req) (v : Word) (s : State) : s.Touches (writeGlobalCommit r v s) [.out, .regs, .ctlW1Done,
    .ctlGroups, .ctlLatches, .ctlBusErrHeld, .hqPci0, .hqPci1] := by
  unfold writeGlobalCommit
  repeat' first
    | with_reducible exact .refl _ _
    | exact rfl
    | with_reducible refine withWrite_touches _ _ _ _ _ _ (fun _ _ _ => ?_) ?_
    | with_reducible apply State.Touches.after (State.bindGroup_touches _)
    | with_reducible apply State.Touches.ite

theorem State.applySnap_touches (s : State) (p : Nat) (snap : List (Nat × Word)) : s.Touches (State.applySnap s p snap) [.regs] := by
  unfold State.applySnap
  repeat' first
    | with_reducible exact .refl _ _
    | exact rfl
    | with_reducible apply State.Touches.after (State.wr_touches _ _ _)
    | with_reducible apply State.Touches.foldl
    | intro _

theorem State.copyShadows_touches (s : State) : s.Touches (s.copyShadows) [.regs, .ctlSnaps, .ctlGroups] := by
  unfold State.copyShadows
  refine .step (.step ?_ (State.touches_setGroups _ _ fun _ h => absurd h List.not_mem_nil) rfl) (State.showGroups_touches _) rfl
  refine .foldl (.refl _ _) (fun u p => .ite (.refl _ _) ?_) _
  exact .step ((State.applySnap_touches ..).mono rfl) (State.endCommit_touches ..) rfl

theorem plainStore_touches (r : Req) (p : Nat) (o : Nat) (s : State) (x4 : Word) (new : Word) : s.Touches (plainStore r p o s x4 new)
    [.regs, .ctlLoHold] := by
  unfold plainStore
  repeat' first
    | with_reducible exact .refl _ _
    | exact rfl
    | with_reducible apply State.Touches.after (State.store_touches _ _ _ _)

theorem readEvent_touches (r : Req) (p : Nat) (be : Nat) (s : State) : s.Touches (readEvent r p be s) [.out, .regs, .ctlLatches,
    .ctlBusErrHeld, .hqPci0, .hqPci1] := by
  unfold readEvent
  repeat' first
    | with_reducible exact .refl _ _
    | exact rfl
    | with_reducible apply State.Touches.after (withRead_touches _ _ _ _ _ _ _)

theorem writeEventTest_touches (r : Req) (p : Nat) (v : Word) (s : State) : s.Touches (writeEventTest r p v s) [.out, .regs, .ctlW1Done,
    .ctlLatches, .ctlBusErrHeld, .hqPci0, .hqPci1] := by
  unfold writeEventTest
  repeat' first
    | with_reducible exact .refl _ _
    | exact rfl
    | with_reducible apply State.Touches.after (State.wr_touches _ _ _)
    | with_reducible apply State.Touches.after (noteRise_touches _ _ _)
    | with_reducible refine withWrite_touches _ _ _ _ _ _ (fun _ _ _ => ?_) ?_
    | split

theorem writeVecRearm_touches (r : Req) (v : Word) (s : State) : s.Touches (writeVecRearm r v s) [.out, .regs, .ctlW1Done, .ctlLatches,
    .ctlBusErrHeld, .hqPci0, .hqPci1] := by
  unfold writeVecRearm
  repeat' first
    | with_reducible exact .refl _ _
    | exact rfl
    | with_reducible apply State.Touches.after (State.latch_touches _ _)
    | with_reducible refine withWrite_touches _ _ _ _ _ _ (fun _ _ _ => ?_) ?_
    | with_reducible apply State.Touches.ite
    | split

theorem State.applyCommit_touches (s : State) (p : Nat) : s.Touches (State.applyCommit s p) [.regs, .ctlSnaps, .ctlLatches] := by
  unfold State.applyCommit
  repeat' first
    | with_reducible exact .refl _ _
    | exact rfl
    | with_reducible apply State.Touches.after (State.raise_touches _ _ _)
    | with_reducible apply State.Touches.after (State.endCommit_touches _ _)
    | with_reducible apply State.Touches.after (State.applySnap_touches _ _ _)

theorem State.commitPoint_touches (s : State) (n : Nat) : s.Touches (s.commitPoint n) [.regs, .ctlSnaps, .ctlGroups, .ctlLatches] := by
  unfold State.commitPoint
  refine .ite (.refl _ _) (.step (.step (.step ?_ (State.touches_setGroups _ _ fun _ h => (List.mem_filter.1 h).1) rfl)
    (State.showGroups_touches _) rfl) (State.raise_touches ..) rfl)
  exact .foldl (.refl _ _) (fun u g => .foldl (.refl _ _) (fun u p => (State.applyCommit_touches u p).mono rfl) _) _

theorem readBusErr_touches (r : Req) (be : Nat) (s : State) : s.Touches (readBusErr r be s) [.out, .regs, .ctlLatches, .ctlBusErrHeld,
    .hqPci0, .hqPci1] := by
  unfold readBusErr
  repeat' first
    | with_reducible exact .refl _ _
    | exact rfl
    | with_reducible apply State.Touches.after (State.setFld_touches _ _ _ _)
    | with_reducible apply State.Touches.after (withRead_touches _ _ _ _ _ _ _)
    | with_reducible apply State.Touches.ite
    | with_reducible apply State.Touches.set

theorem State.cancelGroups_touches (s : State) (n : Nat) : s.Touches (s.cancelGroups n) [.regs, .ctlSnaps, .ctlGroups] := by
  unfold State.cancelGroups
  refine .step (.step ?_ (State.touches_setGroups _ _ fun _ h => (List.mem_filter.1 h).1) rfl) (State.showGroups_touches _) rfl
  exact .foldl (.refl _ _) (fun u g => .foldl (.refl _ _) (fun u p => (State.endCommit_touches u p).mono rfl) _) _

theorem State.pokeN_touches (s : State) (a : Nat) (l : List Byte) : s.Touches (State.pokeN s a l) [.dram] := by
  unfold State.pokeN
  repeat' first
    | with_reducible exact .refl _ _
    | exact rfl
    | with_reducible apply State.Touches.set

end Sys2Proof.Machine
end

section
/-! SUPPORT. Footprints of the host queues and the links -/

set_option Elab.async false

namespace Sys2Proof.Machine

theorem State.notePause_touches (s : State) : s.Touches (State.notePause s) [.regs, .ctlLatches, .hqExhausted, .hqExhaustedAdmin] := by
  unfold State.notePause
  repeat' first
    | with_reducible exact .refl _ _
    | exact rfl
    | with_reducible apply State.Touches.after (State.raiseIf_touches _ _ _ _)
    | with_reducible apply State.setHq_touches

theorem State.putSq_touches (s : State) (k : Nat) (q : Sq) : s.Touches (State.putSq s k q) [.hqSqs] := by
  unfold State.putSq
  repeat' first
    | with_reducible exact .refl _ _
    | exact rfl
    | with_reducible apply State.setHq_touches

theorem State.winDeny_touches (s : State) : s.Touches (State.winDeny s) [.regs, .ctlLatches] := by
  unfold State.winDeny
  repeat' first
    | with_reducible exact .refl _ _
    | exact rfl
    | with_reducible apply State.Touches.after (State.count_touches _ _ _)
    | with_reducible apply State.Touches.after (State.raise_touches _ _ _)

theorem State.putCq_touches (s : State) (k : Nat) (q : Cq) : s.Touches (State.putCq s k q) [.hqCqs] := by
  unfold State.putCq
  repeat' first
    | with_reducible exact .refl _ _
    | exact rfl
    | with_reducible apply State.setHq_touches

theorem Sparse.mem_of_mem_erase {α : Type} {m : List (Nat × α)} {k : Nat} {e : Nat × α} (h : e ∈ Sparse.erase m k) : e ∈ m := by
  induction m with
  | nil => exact h
  | cons x m ih =>
    unfold Sparse.erase at h
    split at h
    · exact List.mem_cons_of_mem _ (ih h)
    · exact (List.mem_cons.1 h).elim (fun hx => hx ▸ List.mem_cons_self) fun hm => List.mem_cons_of_mem _ (ih hm)

theorem Sparse.mem_of_mem_place {α : Type} {m : List (Nat × α)} {k : Nat} {v : α} {e : Nat × α} (h : e ∈ Sparse.place k v m) :
    e = (k, v) ∨ e ∈ m := by
  induction m with
  | nil => exact .inl (List.mem_singleton.1 h)
  | cons x m ih =>
    unfold Sparse.place at h
    split at h
    · exact List.mem_cons.1 h
    · rcases List.mem_cons.1 h with hx | hm
      · exact .inr (hx ▸ List.mem_cons_self)
      · exact (ih hm).imp id fun hm' => List.mem_cons_of_mem _ hm'

/-- An entry of a table after a key is set is the new one or one of before with another key. -/
theorem Tbl.mem_put {α : Type} [Inhabited α] [DecidableEq α] {t : Tbl α} {k : Nat} {v : α} {e : Nat × α} (h : e ∈ t.put k v) :
    e = (k, v) ∨ e ∈ t ∧ e.1 ≠ k := by
  have herase : ∀ {x : Nat × α}, x ∈ Sparse.erase t k → x ∈ t ∧ x.1 ≠ k := fun hx =>
    ⟨Sparse.mem_of_mem_erase hx, Sparse.erase_no_key _ _ _ hx⟩
  unfold Tbl.put Sparse.write at h
  split at h
  · exact .inr (herase h)
  · exact (Sparse.mem_of_mem_place h).imp id herase

/-- A value that is not the default stands in the table. -/
theorem Tbl.mem_of_get {α : Type} [Inhabited α] {t : Tbl α} {k : Nat} (h : t.get k ≠ default) : (k, t.get k) ∈ t := by
  induction t with
  | nil => exact absurd rfl h
  | cons x t ih =>
    obtain ⟨j, v⟩ := x
    by_cases hj : j = k
    · subst hj
      simp [Tbl.get, Sparse.read]
    · have hget : Tbl.get ((j, v) :: t) k = Tbl.get t k := if_neg hj
      rw [hget] at h ⊢
      exact List.mem_cons_of_mem _ (ih h)

/-- An outstanding command stands in the command table. -/
theorem State.mem_cmds_of_live {s : State} {tag : Nat} (h : (s.hq.cmds.get tag).live = true) : (tag, s.hq.cmds.get tag) ∈ s.hq.cmds :=
  Tbl.mem_of_get fun e => Bool.false_ne_true ((congrArg Cmd.live e).symm.trans h)

/-- The number of a tag's command is none that is yet to be given. -/
theorem State.NumbersOk.uid_le {s : State} (h : s.NumbersOk) (tag : Nat) : (s.hq.cmds.get tag).uid ≤ s.hq.uidSeq := by
  by_cases hd : s.hq.cmds.get tag = default
  · rw [hd]
    exact Nat.zero_le _
  · exact h.2 _ (Tbl.mem_of_get hd)

/-- Numbers stay unique when a tag's entry keeps its number, and is outstanding only if it was, or when its number is new. -/
theorem State.NumbersOk.put {s : State} {tag n : Nat} {c : Cmd} (h : s.NumbersOk) (hn : s.hq.uidSeq ≤ n) (hle : c.uid ≤ n)
    (hc : c.live = true → (s.hq.cmds.get tag).live = true ∧ c.uid = (s.hq.cmds.get tag).uid ∨ s.hq.uidSeq < c.uid) :
    ({ s with hq := { s.hq with cmds := s.hq.cmds.put tag c, uidSeq := n } } : State).NumbersOk := by
  obtain ⟨huniq, hmax⟩ := h
  have hother : ∀ e ∈ s.hq.cmds, e.1 ≠ tag → e.2.live = true → c.live = true → e.2.uid ≠ c.uid := by
    intro e he hne hel hcl hu
    rcases hc hcl with ⟨hlive, hsame⟩ | hnew
    · exact hne (huniq e he _ (State.mem_cmds_of_live hlive) hel hlive (hu.trans hsame))
    · exact absurd (hmax e he) (by omega)
  constructor
  · intro e he e' he' hl hl' hu
    rcases Tbl.mem_put he with rfl | ⟨hm, hne⟩ <;> rcases Tbl.mem_put he' with rfl | ⟨hm', hne'⟩
    · rfl
    · exact absurd hu.symm (hother e' hm' hne' hl' hl)
    · exact absurd hu (hother e hm hne hl hl')
    · exact huniq e hm e' hm' hl hl' hu
  · intro e he
    rcases Tbl.mem_put he with rfl | ⟨hm, -⟩
    · exact hle
    · exact (hmax e hm).trans hn

/-- A command that stays outstanding keeps its number. -/
def Cmd.sameNumber (c c' : Cmd) : Prop := c'.uid = c.uid ∧ (c'.live = true → c.live = true)

/-- An entry of the command table is replaced by one with its number. -/
theorem State.putCmd_touches (s : State) (tag : Nat) (c : Cmd) (h : (s.hq.cmds.get tag).sameNumber c) :
    s.Touches (s.putCmd tag c) [.hqCmds] :=
  State.Touches.numbers (.of_eq rfl rfl) fun hs =>
    hs.put (Nat.le_refl _) (h.1 ▸ hs.uid_le tag) fun hl => .inl ⟨h.2 hl, h.1⟩

/-- The entry of a tag is given up. -/
theorem State.putCmd_default_touches (s : State) (tag : Nat) : s.Touches (s.putCmd tag default) [.hqCmds] :=
  State.Touches.numbers (.of_eq rfl rfl) fun hs => hs.put (Nat.le_refl _) (Nat.zero_le _) fun hl => absurd hl Bool.false_ne_true

theorem State.logError_touches (s : State) (tag : Nat) (c : Cmd) (status : Nat) (detail : Nat) (field : Nat) : s.Touches (State.logError
    s tag c status detail field) [.hqErrors, .hqErrCount0, .hqErrCount1] := by
  unfold State.logError
  repeat' first
    | with_reducible exact .refl _ _
    | exact rfl
    | with_reducible apply State.setHq_touches

theorem State.finishTag_touches (s : State) (tag status result detail field : Nat) :
    s.Touches (s.finishTag tag status result detail field) [.regs, .ctlLatches, .hqCmds, .hqErrors, .hqErrCount0, .hqErrCount1] := by
  have hput : ∀ r, s.Touches (s.putCmd tag { s.hq.cmds.get tag with stage := .done, status := status, result := r, detail := detail })
      [.regs, .ctlLatches, .hqCmds, .hqErrors, .hqErrCount0, .hqErrCount1] := fun r => (s.putCmd_touches tag _ (by exact ⟨rfl, id⟩)).mono
          rfl
  have hlog : ∀ (t : State) c, s.Touches t [.regs, .ctlLatches, .hqCmds, .hqErrors, .hqErrCount0, .hqErrCount1] →
      s.Touches (if status = 0 then t else t.logError tag c status detail field) [.regs, .ctlLatches, .hqCmds, .hqErrors, .hqErrCount0,
          .hqErrCount1] :=
    fun t c h => h.ite (h.step (State.logError_touches ..) rfl)
  unfold State.finishTag
  refine .ite (.refl _ _) (.ite (.step ?_ (State.raise_touches ..) rfl) ?_) <;> exact hlog _ _ (hput _)

theorem runDeleteCq_touches (tag : Nat) (c : Cmd) (s : State) : s.Touches (runDeleteCq tag c s) [.regs, .ctlLatches, .hqCqs, .hqCmds,
    .hqErrors, .hqErrCount0, .hqErrCount1] := by
  unfold runDeleteCq
  repeat' first
    | with_reducible exact .refl _ _
    | exact rfl
    | with_reducible apply State.Touches.after (State.putCq_touches _ _ _)
    | with_reducible apply State.Touches.after (State.finishTag_touches _ _ _ _ _ _)
    | with_reducible apply State.Touches.ite

theorem runSetCoalescing_touches (tag : Nat) (c : Cmd) (s : State) : s.Touches (runSetCoalescing tag c s) [.regs, .ctlLatches, .hqCqs,
    .hqCmds, .hqErrors, .hqErrCount0, .hqErrCount1] := by
  unfold runSetCoalescing
  repeat' first
    | with_reducible exact .refl _ _
    | exact rfl
    | with_reducible apply State.Touches.after (State.putCq_touches _ _ _)
    | with_reducible apply State.Touches.after (State.finishTag_touches _ _ _ _ _ _)
    | with_reducible apply State.Touches.ite

theorem State.setMsixWord_touches (s : State) (fn : Fn) (i : Nat) (v : Nat) : s.Touches (State.setMsixWord s fn i v) [.hqMsixTable] := by
  unfold State.setMsixWord
  repeat' first
    | with_reducible exact .refl _ _
    | exact rfl
    | with_reducible apply State.setHq_touches

/-- What a queue command that does not take its effect may change. -/
def cmdParts : List Part := [.regs, .ctlLatches, .hqCmds, .hqErrors, .hqErrCount0, .hqErrCount1]

/-- A queue command changes nothing, ends with its checks, or takes its effect once it is marked as running. -/
theorem withCmd_cases (tag op : Nat) (s : State) (bad : Cmd → State → Option Nat) (k : Cmd → State → State) (len : Cmd → State → Nat) :
    (∃ t, s.Touches t cmdParts ∧ withCmd tag op s bad k len = t)
      ∨ ∃ c t, t.hq.cmds.get tag = c ∧ s.Touches t cmdParts ∧ withCmd tag op s bad k len = k c t := by
  unfold withCmd
  dsimp only
  split
  · split
    · exact .inl ⟨_, (State.finishTag_touches ..).mono rfl, rfl⟩
    · split
      · exact .inl ⟨_, (State.finishTag_touches ..).mono rfl, rfl⟩
      · refine .inr ⟨_, _, ?_, ?_, rfl⟩
        · exact Tbl.get_put_same _ _ _
        · exact (s.putCmd_touches tag _ (by exact ⟨rfl, id⟩)).mono rfl
  · exact .inl ⟨_, .refl _ _, rfl⟩

/-- A queue command changes what its checks change and what its effect changes. -/
theorem withCmd_touches (tag op : Nat) (s : State) (bad : Cmd → State → Option Nat) (k : Cmd → State → State) (len : Cmd → State → Nat)
    {l : List Part} (hk : ∀ c (t : State), t.hq.cmds.get tag = c → t.Touches (k c t) l) (hl : cmdParts.all l.elem = true) :
    s.Touches (withCmd tag op s bad k len) l := by
  rcases withCmd_cases tag op s bad k len with ⟨t, ht, h⟩ | ⟨c, t, hc, ht, h⟩ <;> rw [h]
  · exact ht.mono hl
  · exact (ht.mono hl).trans (hk c t hc)

theorem State.failBuf_touches (s : State) (tag : Nat) (status : Nat) : s.Touches (State.failBuf s tag status) [.regs, .ctlLatches,
    .hqCmds, .hqErrors, .hqErrCount0, .hqErrCount1] := by
  unfold State.failBuf
  repeat' first
    | with_reducible exact .refl _ _
    | exact rfl
    | with_reducible apply State.Touches.after (State.winDeny_touches _)
    | with_reducible apply State.Touches.after (State.finishTag_touches _ _ _ _ _ _)
    | with_reducible apply State.Touches.ite

theorem runCreateSq_touches (tag : Nat) (c : Cmd) (s : State) : s.Touches (runCreateSq tag c s) [.regs, .ctlLatches, .hqSqs, .hqCmds,
    .hqErrors, .hqErrCount0, .hqErrCount1] := by
  unfold runCreateSq
  repeat' first
    | with_reducible exact .refl _ _
    | exact rfl
    | with_reducible apply State.Touches.after (State.putSq_touches _ _ _)
    | with_reducible apply State.Touches.after (State.finishTag_touches _ _ _ _ _ _)
    | with_reducible apply State.Touches.after (State.failBuf_touches _ _ _)
    | with_reducible apply State.Touches.ite

theorem State.dropJobs_touches (s : State) (gone : Nat → Bool) : s.Touches (State.dropJobs s gone) [.condQueue] := by
  unfold State.dropJobs
  repeat' first
    | with_reducible exact .refl _ _
    | exact rfl
    | with_reducible apply State.Touches.set

theorem State.endCmd_touches (s : State) (tag : Nat) (status : Nat) : s.Touches (State.endCmd s tag status) [.regs, .ctlLatches, .hqCmds,
    .hqGhosts, .hqErrors, .hqErrCount0, .hqErrCount1, .condQueue] := by
  unfold State.endCmd
  repeat' first
    | with_reducible exact .refl _ _
    | exact rfl
    | with_reducible apply State.Touches.after (State.finishTag_touches _ _ _ _ _ _)
    | with_reducible apply State.setHq_touches
    | with_reducible apply State.Touches.after (State.dropJobs_touches _ _)
    | with_reducible apply State.Touches.ite

theorem runDeleteSq_touches (tag : Nat) (c : Cmd) (s : State) : s.Touches (runDeleteSq tag c s) [.regs, .ctlLatches, .hqSqs, .hqCmds,
    .hqGhosts, .hqAvail, .hqErrors, .hqErrCount0, .hqErrCount1, .condQueue] := by
  unfold runDeleteSq
  repeat' first
    | with_reducible exact .refl _ _
    | exact rfl
    | with_reducible apply State.Touches.after (State.setFld_touches _ _ _ _)
    | with_reducible apply State.Touches.after (State.putSq_touches _ _ _)
    | with_reducible apply State.Touches.after (State.finishTag_touches _ _ _ _ _ _)
    | with_reducible apply State.setHq_touches
    | with_reducible apply State.Touches.after (State.endCmd_touches _ _ _)
    | with_reducible apply State.Touches.ite
    | with_reducible apply State.Touches.foldl
    | intro _

theorem State.dbError_touches (s : State) (fn : Fn) (v : Word) : s.Touches (State.dbError s fn v) [.regs, .ctlLatches, .hqDbErrHeld] := by
  unfold State.dbError
  repeat' first
    | with_reducible exact .refl _ _
    | exact rfl
    | with_reducible apply State.Touches.after (State.setFld_touches _ _ _ _)
    | with_reducible apply State.Touches.after (State.raise_touches _ _ _)
    | with_reducible apply State.setHq_touches
    | with_reducible apply State.Touches.ite

theorem State.finish_touches (s : State) (uid : Nat) (status : Nat) (result : Nat) (detail : Nat) : s.Touches (State.finish s uid status
    result detail) [.regs, .ctlLatches, .hqCmds, .hqGhosts, .hqErrors, .hqErrCount0, .hqErrCount1] := by
  unfold State.finish
  repeat' first
    | with_reducible exact .refl _ _
    | exact rfl
    | with_reducible apply State.Touches.after (State.finishTag_touches _ _ _ _ _ _)
    | with_reducible apply State.setHq_touches
    | split
    | dsimp only

theorem State.finish?_touches (s : State) (cmd : Option Nat) (status : Nat) (result : Nat) (detail : Nat) : s.Touches (State.finish? s
    cmd status result detail) [.regs, .ctlLatches, .hqCmds, .hqGhosts, .hqErrors, .hqErrCount0, .hqErrCount1] := by
  unfold State.finish?
  repeat' first
    | with_reducible exact .refl _ _
    | exact rfl
    | with_reducible apply State.Touches.after (State.finish_touches _ _ _ _ _)
    | split

theorem State.coalesce_touches (s : State) (fn : Fn) (qid : Nat) : s.Touches (State.coalesce s fn qid) [.ctlLatches, .hqCqs] := by
  unfold State.coalesce
  repeat' first
    | with_reducible exact .refl _ _
    | exact rfl
    | with_reducible apply State.Touches.after (State.latch_touches _ _)
    | with_reducible apply State.Touches.after (State.putCq_touches _ _ _)
    | with_reducible apply State.Touches.ite

theorem State.aqStart_touches (s : State) (fn : Fn) : s.Touches (State.aqStart s fn) [.regs, .ctlLatches, .hqSqs, .hqCqs] := by
  unfold State.aqStart
  repeat' first
    | with_reducible exact .refl _ _
    | exact rfl
    | with_reducible apply State.Touches.after (State.setFld_touches _ _ _ _)
    | with_reducible apply State.Touches.after (State.raise_touches _ _ _)
    | with_reducible apply State.Touches.after (State.putSq_touches _ _ _)
    | with_reducible apply State.Touches.after (State.putCq_touches _ _ _)
    | with_reducible apply State.Touches.ite

theorem State.teardown_touches (s : State) (fn : Fn) : s.Touches (s.teardown fn) [.regs, .hqSqs, .hqCqs, .hqCmds, .hqGhosts, .hqAvail,
    .condQueue] := by
  unfold State.teardown
  repeat' first
    | with_reducible exact .refl _ _
    | exact rfl
    | with_reducible apply State.Touches.after (State.setFld_touches _ _ _ _)
    | with_reducible apply State.Touches.after (State.dropJobs_touches _ _)
  refine State.Touches.numbers (.of_eq rfl rfl) fun hs => ⟨fun e he e' he' => ?_, fun e he => hs.2 e (List.mem_filter.1 he).1⟩
  exact hs.1 e (List.mem_filter.1 he).1 e' (List.mem_filter.1 he').1

theorem writeAqCtrl_touches (r : Req) (v : Word) (s : State) : s.Touches (writeAqCtrl r v s) [.out, .regs, .ctlW1Done, .ctlLatches,
    .ctlBusErrHeld, .hqSqs, .hqCqs, .hqCmds, .hqGhosts, .hqAvail, .hqPci0, .hqPci1, .condQueue] := by
  unfold writeAqCtrl
  repeat' first
    | with_reducible exact .refl _ _
    | exact rfl
    | with_reducible refine withWrite_touches _ _ _ _ _ _ (fun _ _ _ => ?_) ?_
    | with_reducible apply State.Touches.after (State.aqStart_touches _ _)
    | with_reducible apply State.Touches.after (State.teardown_touches _ _)
    | with_reducible apply State.Touches.ite

theorem State.sqFault_touches (s : State) (k : Nat) : s.Touches (State.sqFault s k) [.regs, .ctlLatches, .hqSqs] := by
  unfold State.sqFault
  repeat' first
    | with_reducible exact .refl _ _
    | exact rfl
    | with_reducible apply State.Touches.after (State.setFld_touches _ _ _ _)
    | with_reducible apply State.Touches.after (State.raise_touches _ _ _)
    | with_reducible apply State.Touches.after (State.putSq_touches _ _ _)

theorem State.setCredit_touches (s : State) (fn : Fn) (n : Nat) : s.Touches (State.setCredit s fn n) [.ctlCredit0, .ctlCredit1] := by
  unfold State.setCredit
  repeat' first
    | with_reducible exact .refl _ _
    | exact rfl
    | split
    | with_reducible apply State.Touches.set

theorem State.accept_touches (s : State) (k tag : Nat) (entry : List Byte) : s.Touches (s.accept k tag entry) [.regs, .ctlLatches,
    .hqSqs, .hqCmds, .hqAvail, .hqUidSeq, .hqErrors, .hqErrCount0, .hqErrCount1] := by
  have hnew : ∀ (q : Sq) (c : Cmd) (l : List (Nat × Nat)), c.uid = s.hq.uidSeq + 1 →
      s.Touches (((s.putSq k q).putCmd tag c).setHq { ((s.putSq k q).putCmd tag c).hq with uidSeq := s.hq.uidSeq + 1, avail := l })
        [.hqSqs, .hqCmds, .hqUidSeq, .hqAvail] := fun q c l hc =>
    State.Touches.numbers (.of_eq rfl rfl) fun hs =>
      hs.put (Nat.le_succ _) (Nat.le_of_eq hc) fun _ => .inr (hc ▸ Nat.lt_succ_self _)
  unfold State.accept
  refine .ite ?_ (.ite (.step (.step (.step ?_ (State.count_touches ..) rfl) (State.raise_touches ..) rfl) (State.finishTag_touches ..) rfl)
    (.step ?_ (State.finishTag_touches ..) rfl)) <;> exact (hnew _ _ _ rfl).mono rfl

theorem State.ring_touches (s : State) (fn : Fn) (v : Word) : s.Touches (State.ring s fn v) [.regs, .ctlLatches, .hqSqs, .hqCqs,
    .hqAvail, .hqDbSeq, .hqDbErrHeld] := by
  unfold State.ring
  repeat' first
    | with_reducible exact .refl _ _
    | exact rfl
    | with_reducible apply State.Touches.after (State.putSq_touches _ _ _)
    | with_reducible apply State.Touches.after (State.putCq_touches _ _ _)
    | with_reducible apply State.Touches.after (State.dbError_touches _ _ _)
    | with_reducible apply State.setHq_touches
    | with_reducible apply State.Touches.ite

theorem writeDoorbell_touches (r : Req) (v : Word) (s : State) : s.Touches (writeDoorbell r v s) [.out, .regs, .ctlW1Done, .ctlLatches,
    .ctlBusErrHeld, .hqSqs, .hqCqs, .hqAvail, .hqDbSeq, .hqDbErrHeld, .hqPci0, .hqPci1] := by
  unfold writeDoorbell
  repeat' first
    | with_reducible exact .refl _ _
    | exact rfl
    | with_reducible refine withWrite_touches _ _ _ _ _ _ (fun _ _ _ => ?_) ?_
    | with_reducible apply State.Touches.after (State.ring_touches _ _ _)

theorem State.post_touches (s : State) (tag : Nat) : s.Touches (s.post tag) [.out, .regs, .ctlLatches, .hqSqs, .hqCqs, .hqCmds] := by
  unfold State.post
  repeat' first
    | with_reducible exact .refl _ _
    | exact rfl
    | with_reducible apply State.Touches.after (State.putCmd_default_touches _ _)
    | with_reducible apply State.Touches.after (State.raise_touches _ _ _)
    | with_reducible apply State.Touches.after (State.latch_touches _ _)
    | with_reducible apply State.Touches.after (State.setFld64_touches _ _ _ _ _)
    | with_reducible apply State.Touches.after (State.putCq_touches _ _ _)
    | with_reducible apply State.Touches.after (State.emit_touches _ _)
    | with_reducible apply State.setHq_touches
    | with_reducible apply State.Touches.ite

theorem State.toHost_touches (s : State) (fn : Fn) (b : List (Nat × Nat)) (d : List Byte) : s.Touches (s.toHost fn b d) [.out] := by
  induction b generalizing s d with
  | nil => exact .refl _ _
  | cons e t ih =>
    unfold State.toHost
    exact .ite (.refl _ _) ((State.emit_touches ..).trans (ih _ _))

theorem State.sendMsix_touches (s : State) (fn : Fn) (vec : Nat) : s.Touches (State.sendMsix s fn vec) [.out, .regs, .ctlLatches,
    .ctlThrottled, .ctlCredit0, .ctlCredit1] := by
  unfold State.sendMsix
  repeat' first
    | with_reducible exact .refl _ _
    | exact rfl
    | with_reducible apply State.Touches.after (State.emit_touches _ _)
    | with_reducible apply State.Touches.after (State.raise_touches _ _ _)
    | with_reducible apply State.Touches.after (State.setCredit_touches _ _ _)
    | with_reducible apply State.Touches.ite
    | with_reducible apply State.Touches.set

theorem State.resetPci_touches (s : State) (fn : Fn) (mps : Nat) : s.Touches (State.resetPci s fn mps) [.hqMsixTable, .hqPci0, .hqPci1]
    := by
  unfold State.resetPci
  repeat' first
    | with_reducible exact .refl _ _
    | exact rfl
    | with_reducible apply State.Touches.after (State.setPciFn_touches _ _ _)
    | with_reducible apply State.setHq_touches

theorem State.linkDown_touches (s : State) : s.Touches (State.linkDown s) [.regs, .ctlLinkUp, .hqSqs, .hqCqs, .hqCmds, .hqGhosts,
    .hqAvail, .hqMsixTable, .hqPci0, .hqPci1, .condQueue] := by
  unfold State.linkDown
  repeat' first
    | with_reducible exact .refl _ _
    | exact rfl
    | with_reducible apply State.Touches.after (State.teardown_touches _ _)
    | with_reducible apply State.Touches.after (State.resetPci_touches _ _ _)
    | with_reducible apply State.Touches.set

theorem State.masterOff_touches (s : State) (fn : Fn) : s.Touches (State.masterOff s fn) [.regs, .hqSqs, .hqCqs, .hqCmds, .hqGhosts,
    .hqAvail, .hqPci0, .hqPci1, .condQueue] := by
  unfold State.masterOff
  repeat' first
    | with_reducible exact .refl _ _
    | exact rfl
    | with_reducible apply State.Touches.after (State.setPciFn_touches _ _ _)
    | with_reducible apply State.Touches.after (State.teardown_touches _ _)

theorem runCreateCq_touches (tag : Nat) (c : Cmd) (s : State) : s.Touches (runCreateCq tag c s) [.regs, .ctlLatches, .hqCqs, .hqCmds,
    .hqErrors, .hqErrCount0, .hqErrCount1] := by
  unfold runCreateCq
  repeat' first
    | with_reducible exact .refl _ _
    | exact rfl
    | with_reducible apply State.Touches.after (State.putCq_touches _ _ _)
    | with_reducible apply State.Touches.after (State.finishTag_touches _ _ _ _ _ _)
    | with_reducible apply State.Touches.after (State.failBuf_touches _ _ _)
    | with_reducible apply State.Touches.ite

theorem State.refill_touches (s : State) : s.Touches (State.refill s) [.ctlCredit0, .ctlCredit1] := by
  unfold State.refill
  repeat' first
    | with_reducible exact .refl _ _
    | exact rfl
    | with_reducible apply State.Touches.after (State.setCredit_touches _ _ _)

/-- Arbitration changes its own tables. -/
theorem State.arbitrate_touches (s : State) (ks : List Nat) :
    s.Touches (s.setHq (s.arbitrate ks).2) [.hqCls, .hqClsLeft, .hqLast, .hqTurn] := by
  have hserve : ∀ (h : Hq) c l b, ∃ x y, (h.serve c l b).2 = { h with last := x, turn := y } := by
    intro h c l b
    unfold Hq.serve
    dsimp only
    split <;> exact ⟨_, _, rfl⟩
  have hwrr : ∀ (h : Hq) f w, ∃ x y, (wrrClass h f w).2 = { h with cls := x, clsLeft := y } := by
    intro h f w
    unfold wrrClass
    split <;> exact ⟨_, _, rfl⟩
  unfold State.arbitrate
  dsimp only
  split
  · generalize hr : wrrClass s.hq _ _ = r
    obtain ⟨x, y, hxy⟩ := hserve r.2 r.1 (ks.filter fun k => decide ((s.hq.sqs.get k).cls = r.1)) (s.fld Pg.hostq Reg.HOSTQ_ARB_BURST)
    obtain ⟨u, v, huv⟩ := hwrr s.hq _ _
    rw [hxy, ← hr, huv]
    exact .of_eq rfl rfl
  · obtain ⟨x, y, hxy⟩ := hserve s.hq 0 (ks.filter fun k => decide ((s.hq.sqs.get k).cls = 0)) (s.fld Pg.hostq Reg.HOSTQ_ARB_BURST)
    rw [hxy]
    exact .of_eq rfl rfl

theorem State.fetch_touches (s : State) (tag : Nat) (entry : Option (List Byte)) : s.Touches (s.fetch tag entry) [.regs, .ctlLatches,
    .hqSqs, .hqCmds, .hqAvail, .hqUidSeq, .hqCls, .hqClsLeft, .hqLast, .hqTurn, .hqExhausted, .hqExhaustedAdmin, .hqErrors, .hqErrCount0,
    .hqErrCount1] := by
  have h0 : s.Touches s.notePause [.regs, .ctlLatches, .hqSqs, .hqCmds, .hqAvail, .hqUidSeq, .hqCls, .hqClsLeft, .hqLast, .hqTurn,
      .hqExhausted, .hqExhaustedAdmin, .hqErrors, .hqErrCount0, .hqErrCount1] := (State.notePause_touches s).mono rfl
  have harb : ∀ ks, s.Touches (s.notePause.setHq (s.notePause.arbitrate ks).2) [.regs, .ctlLatches, .hqSqs, .hqCmds, .hqAvail, .hqUidSeq,
      .hqCls, .hqClsLeft, .hqLast, .hqTurn, .hqExhausted, .hqExhaustedAdmin, .hqErrors, .hqErrCount0, .hqErrCount1] := fun ks =>
    h0.step (State.arbitrate_touches _ ks) rfl
  unfold State.fetch
  refine .ite h0 ?_
  split
  · exact .step (harb _) (State.sqFault_touches ..) rfl
  · exact .ite (.step (harb _) (State.accept_touches ..) rfl) h0

theorem State.setPort_touches (s : State) (k : Nat) (p : PortSt) : s.Touches (State.setPort s k p) [.portA, .portB] := by
  unfold State.setPort
  repeat' first
    | with_reducible exact .refl _ _
    | exact rfl
    | with_reducible apply State.Touches.ite
    | with_reducible apply State.Touches.set

theorem State.rxPacket_touches (s : State) (k : Nat) (p : Packet) : s.Touches (State.rxPacket s k p) [.regs, .ctlLatches, .portA, .portB]
    := by
  unfold State.rxPacket
  repeat' first
    | with_reducible exact .refl _ _
    | exact rfl
    | with_reducible apply State.Touches.after (State.count_touches _ _ _)
    | with_reducible apply State.Touches.after (State.raise_touches _ _ _)
    | with_reducible apply State.Touches.after (State.setPort_touches _ _ _)
    | with_reducible apply State.Touches.ite

theorem State.heartbeat_touches (s : State) (k : Nat) : s.Touches (State.heartbeat s k) [.out, .portA, .portB] := by
  unfold State.heartbeat
  repeat' first
    | with_reducible exact .refl _ _
    | exact rfl
    | with_reducible apply State.Touches.after (State.emit_touches _ _)
    | with_reducible apply State.Touches.after (State.setPort_touches _ _ _)
    | with_reducible apply State.Touches.ite

theorem State.setMap_touches (s : State) (k : Nat) (m : List Nat) : s.Touches (State.setMap s k m) [.regs, .portA, .portB] := by
  unfold State.setMap
  repeat' first
    | with_reducible exact .refl _ _
    | exact rfl
    | with_reducible apply State.Touches.after (State.setFld_touches _ _ _ _)
    | with_reducible apply State.Touches.after (State.setPort_touches _ _ _)

theorem State.sendBc_touches (s : State) (k : Nat) (m : BcMsg) : s.Touches (State.sendBc s k m) [.out, .portA, .portB] := by
  unfold State.sendBc
  repeat' first
    | with_reducible exact .refl _ _
    | exact rfl
    | with_reducible apply State.Touches.after (State.emit_touches _ _)
    | with_reducible apply State.Touches.after (State.setPort_touches _ _ _)

theorem State.postBc_touches (s : State) (k : Nat) (op : Nat) (arg : Nat) (data : List (Nat × Nat)) (use : BcUse) : s.Touches
    (State.postBc s k op arg data use) [.out, .portA, .portB] := by
  unfold State.postBc
  repeat' first
    | with_reducible exact .refl _ _
    | exact rfl
    | with_reducible apply State.Touches.after (State.setPort_touches _ _ _)
    | with_reducible apply State.Touches.after (State.sendBc_touches _ _ _)
    | split
    | dsimp only

theorem State.sendEqset_touches (s : State) (k : Nat) : s.Touches (State.sendEqset s k) [.out, .portA, .portB] := by
  unfold State.sendEqset
  repeat' first
    | with_reducible exact .refl _ _
    | exact rfl
    | with_reducible apply State.Touches.after (State.setPort_touches _ _ _)
    | with_reducible apply State.Touches.after (State.postBc_touches _ _ _ _ _ _)

theorem State.showLoss_touches (s : State) (k : Nat) : s.Touches (State.showLoss s k) [.regs] := by
  unfold State.showLoss
  repeat' first
    | with_reducible exact .refl _ _
    | exact rfl
    | with_reducible apply State.Touches.after (State.setFld_touches _ _ _ _)

theorem State.showPort_touches (s : State) (k : Nat) : s.Touches (State.showPort s k) [.regs] := by
  unfold State.showPort
  repeat' first
    | with_reducible exact .refl _ _
    | exact rfl
    | with_reducible apply State.Touches.after (State.setFld_touches _ _ _ _)

theorem State.lockLost_touches (s0 : State) (s : State) (lane : Nat) : s.Touches (State.lockLost s0 s lane) [.regs, .ctlLatches, .portA,
    .portB] := by
  unfold State.lockLost
  repeat' first
    | with_reducible exact .refl _ _
    | exact rfl
    | with_reducible apply State.Touches.after (State.count_touches _ _ _)
    | with_reducible apply State.Touches.after (State.raise_touches _ _ _)
    | with_reducible apply State.Touches.after (State.raiseIf_touches _ _ _ _)
    | with_reducible apply State.Touches.after (State.setPort_touches _ _ _)
    | with_reducible apply State.Touches.after (State.showLoss_touches _ _)
    | with_reducible apply State.Touches.after (State.showPort_touches _ _)
    | with_reducible apply State.Touches.ite

theorem State.adaptLane_touches (s : State) (lane : Nat) : s.Touches (State.adaptLane s lane) [.seed, .portA, .portB] := by
  unfold State.adaptLane
  repeat' first
    | with_reducible exact .refl _ _
    | exact rfl
    | with_reducible apply State.Touches.after (State.setPort_touches _ _ _)
    | with_reducible apply State.Touches.ite
    | with_reducible apply State.Touches.set

theorem State.blockLost_touches (s0 : State) (lane : Nat) : s0.Touches (State.blockLost s0 lane) [.seed, .regs, .ctlLatches, .portA,
    .portB] := by
  unfold State.blockLost
  repeat' first
    | with_reducible exact .refl _ _
    | exact rfl
    | with_reducible apply State.Touches.after (State.setFld_touches _ _ _ _)
    | with_reducible apply State.Touches.after (State.raise_touches _ _ _)
    | with_reducible apply State.Touches.after (State.lockLost_touches _ _ _)
    | with_reducible apply State.Touches.after (State.adaptLane_touches _ _)
    | with_reducible apply State.Touches.ite

theorem State.linked_touches (s : State) (k : Nat) : s.Touches (State.linked s k) [.regs, .ctlLatches, .portA, .portB] := by
  unfold State.linked
  repeat' first
    | with_reducible exact .refl _ _
    | exact rfl
    | with_reducible apply State.Touches.after (State.setOn_touches _ _ _ _)
    | with_reducible apply State.Touches.after (State.raise_touches _ _ _)
    | with_reducible apply State.Touches.after (State.setPort_touches _ _ _)
    | with_reducible apply State.Touches.after (State.showPort_touches _ _)

theorem State.endMailbox_touches (s : State) (k : Nat) (result : Nat) : s.Touches (State.endMailbox s k result) [.regs, .ctlLatches] := by
  unfold State.endMailbox
  repeat' first
    | with_reducible exact .refl _ _
    | exact rfl
    | with_reducible apply State.Touches.after (State.setFld_touches _ _ _ _)
    | with_reducible apply State.Touches.after (State.raise_touches _ _ _)

theorem State.restoreMap_touches (s : State) (k : Nat) : s.Touches (State.restoreMap s k) [.regs, .portA, .portB] := by
  unfold State.restoreMap
  repeat' first
    | with_reducible exact .refl _ _
    | exact rfl
    | with_reducible apply State.Touches.after (State.setFld_touches _ _ _ _)
    | with_reducible apply State.Touches.after (State.setMap_touches _ _ _)
    | with_reducible apply State.Touches.after (State.showPort_touches _ _)

theorem State.bcDone_touches (s : State) (k : Nat) (m : BcMsg) (answer : Option Nat) : s.Touches (State.bcDone s k m answer) [.regs,
    .ctlLatches, .portA, .portB] := by
  unfold State.bcDone
  repeat' first
    | with_reducible exact .refl _ _
    | exact rfl
    | with_reducible apply State.Touches.after (State.setFld_touches _ _ _ _)
    | with_reducible apply State.Touches.after (State.linked_touches _ _)
    | with_reducible apply State.Touches.after (State.setPort_touches _ _ _)
    | with_reducible apply State.Touches.after (State.endMailbox_touches _ _ _)
    | with_reducible apply State.Touches.after (State.restoreMap_touches _ _)
    | split

theorem State.nextBc_touches (s : State) (k : Nat) : s.Touches (State.nextBc s k) [.out, .portA, .portB] := by
  unfold State.nextBc
  repeat' first
    | with_reducible exact .refl _ _
    | exact rfl
    | with_reducible apply State.Touches.after (State.setPort_touches _ _ _)
    | with_reducible apply State.Touches.after (State.sendBc_touches _ _ _)
    | split
    | dsimp only

theorem State.bcTimeout_touches (s : State) (k : Nat) : s.Touches (State.bcTimeout s k) [.out, .regs, .ctlLatches, .portA, .portB] := by
  unfold State.bcTimeout
  repeat' first
    | with_reducible exact .refl _ _
    | exact rfl
    | with_reducible apply State.Touches.after (State.raise_touches _ _ _)
    | with_reducible apply State.Touches.after (State.bcDone_touches _ _ _ _)
    | with_reducible apply State.Touches.after (State.nextBc_touches _ _)
    | with_reducible apply State.Touches.after (State.sendBc_touches _ _ _)
    | split

theorem State.sendFwr_touches (s : State) (k : Nat) (frame : Nat) : s.Touches (State.sendFwr s k frame) [.out, .portA, .portB] := by
  unfold State.sendFwr
  repeat' first
    | with_reducible exact .refl _ _
    | exact rfl
    | with_reducible apply State.Touches.after (State.setPort_touches _ _ _)
    | with_reducible apply State.Touches.after (State.postBc_touches _ _ _ _ _ _)
    | with_reducible apply State.Touches.ite

theorem State.linkTake_touches (s : State) (k : Nat) (used : Bool) : s.Touches (State.linkTake s k used) [.out, .regs, .portA, .portB] :=
    by
  unfold State.linkTake
  repeat' first
    | with_reducible exact .refl _ _
    | exact rfl
    | with_reducible apply State.Touches.after (State.setOn_touches _ _ _ _)
    | with_reducible apply State.Touches.after (State.setFld_touches _ _ _ _)
    | with_reducible apply State.Touches.after (State.sendEqset_touches _ _)
    | with_reducible apply State.Touches.after (State.setPort_touches _ _ _)
    | with_reducible apply State.Touches.after (State.showLoss_touches _ _)
    | with_reducible apply State.Touches.after (State.sendFwr_touches _ _ _)
    | with_reducible apply State.Touches.after (State.postBc_touches _ _ _ _ _ _)
    | with_reducible apply State.Touches.after (State.showPort_touches _ _)
    | with_reducible apply State.Touches.ite
    | with_reducible apply State.Touches.foldl
    | intro _

theorem State.losSet_touches (s0 : State) (lane : Nat) : s0.Touches (State.losSet s0 lane) [.seed, .regs, .ctlLatches, .portA, .portB] :=
    by
  unfold State.losSet
  repeat' first
    | with_reducible exact .refl _ _
    | exact rfl
    | with_reducible apply State.Touches.after (State.count_touches _ _ _)
    | with_reducible apply State.Touches.after (State.setFld_touches _ _ _ _)
    | with_reducible apply State.Touches.after (State.raise_touches _ _ _)
    | with_reducible apply State.Touches.after (State.lockLost_touches _ _ _)
    | with_reducible apply State.Touches.after (State.adaptLane_touches _ _)
    | with_reducible apply State.Touches.ite

theorem State.trainEnds_touches (s : State) (k : Nat) (e : Fld) : s.Touches (State.trainEnds s k e) [.regs, .ctlLatches, .portA, .portB]
    := by
  unfold State.trainEnds
  repeat' first
    | with_reducible exact .refl _ _
    | exact rfl
    | with_reducible apply State.Touches.after (State.raise_touches _ _ _)
    | with_reducible apply State.Touches.after (State.setPort_touches _ _ _)
    | with_reducible apply State.Touches.after (State.showPort_touches _ _)

theorem State.trainStep5_touches (s : State) (k : Nat) : s.Touches (State.trainStep5 s k) [.out, .regs, .ctlLatches, .portA, .portB] := by
  unfold State.trainStep5
  repeat' first
    | with_reducible exact .refl _ _
    | exact rfl
    | with_reducible apply State.Touches.after (State.setFld_touches _ _ _ _)
    | with_reducible apply State.Touches.after (State.sendEqset_touches _ _)
    | with_reducible apply State.Touches.after (State.setPort_touches _ _ _)
    | with_reducible apply State.Touches.after (State.trainEnds_touches _ _ _)
    | with_reducible apply State.Touches.ite

theorem writeBcCtrl_touches (r : Req) (k : Nat) (v : Word) (s : State) : s.Touches (writeBcCtrl r k v s) [.out, .regs, .ctlW1Done,
    .ctlLatches, .ctlBusErrHeld, .hqPci0, .hqPci1, .portA, .portB] := by
  unfold writeBcCtrl
  repeat' first
    | with_reducible exact .refl _ _
    | exact rfl
    | with_reducible apply State.Touches.after (State.setFld_touches _ _ _ _)
    | with_reducible apply State.Touches.after (State.reject_touches _ _)
    | with_reducible refine withWrite_touches _ _ _ _ _ _ (fun _ _ _ => ?_) ?_
    | with_reducible apply State.Touches.after (State.postBc_touches _ _ _ _ _ _)
    | with_reducible apply State.Touches.ite

theorem State.dropBc_touches (s : State) (k : Nat) : s.Touches (State.dropBc s k) [.regs, .ctlLatches, .portA, .portB] := by
  unfold State.dropBc
  repeat' first
    | with_reducible exact .refl _ _
    | exact rfl
    | with_reducible apply State.Touches.after (State.setPort_touches _ _ _)
    | with_reducible apply State.Touches.after (State.endMailbox_touches _ _ _)
    | with_reducible apply State.Touches.ite

theorem State.unlinkPort_touches (s : State) (k : Nat) : s.Touches (State.unlinkPort s k) [.regs, .ctlLatches, .portA, .portB] := by
  unfold State.unlinkPort
  repeat' first
    | with_reducible exact .refl _ _
    | exact rfl
    | with_reducible apply State.Touches.after (State.setMap_touches _ _ _)
    | with_reducible apply State.Touches.after (State.setPort_touches _ _ _)
    | with_reducible apply State.Touches.after (State.dropBc_touches _ _)
    | with_reducible apply State.Touches.after (State.showPort_touches _ _)

theorem State.gangChanged_touches (s : State) : s.Touches (State.gangChanged s) [.regs, .ctlLatches, .portA, .portB] := by
  unfold State.gangChanged
  repeat' first
    | with_reducible exact .refl _ _
    | exact rfl
    | with_reducible apply State.Touches.after (State.unlinkPort_touches _ _)

theorem State.trainFails_touches (s : State) (k : Nat) : s.Touches (State.trainFails s k) [.regs, .ctlLatches, .portA, .portB] := by
  unfold State.trainFails
  repeat' first
    | with_reducible exact .refl _ _
    | exact rfl
    | with_reducible apply State.Touches.after (State.setFld_touches _ _ _ _)
    | with_reducible apply State.Touches.after (State.wr_touches _ _ _)
    | with_reducible apply State.Touches.after (State.raise_touches _ _ _)
    | with_reducible apply State.Touches.after (State.setPort_touches _ _ _)
    | with_reducible apply State.Touches.after (State.dropBc_touches _ _)
    | with_reducible apply State.Touches.after (State.showPort_touches _ _)
    | with_reducible apply State.Touches.foldl
    | split
    | intro _

theorem State.startTraining_touches (s : State) (k : Nat) : s.Touches (State.startTraining s k) [.out, .regs, .ctlLatches, .portA,
    .portB] := by
  unfold State.startTraining
  repeat' first
    | with_reducible exact .refl _ _
    | exact rfl
    | with_reducible apply State.Touches.after (State.setFld_touches _ _ _ _)
    | with_reducible apply State.Touches.after (State.emit_touches _ _)
    | with_reducible apply State.Touches.after (State.setPort_touches _ _ _)
    | with_reducible apply State.Touches.after (State.dropBc_touches _ _)
    | with_reducible apply State.Touches.after (State.showPort_touches _ _)

theorem State.rxAlign_touches (s : State) (k : Nat) : s.Touches (State.rxAlign s k) [.regs, .ctlLatches, .portA, .portB] := by
  unfold State.rxAlign
  repeat' first
    | with_reducible exact .refl _ _
    | exact rfl
    | with_reducible apply State.Touches.after (State.raise_touches _ _ _)
    | with_reducible apply State.Touches.after (State.setPort_touches _ _ _)
    | with_reducible apply State.Touches.after (State.showLoss_touches _ _)
    | with_reducible apply State.Touches.after (State.showPort_touches _ _)
    | with_reducible apply State.Touches.ite

theorem State.rxSmsg_touches (s : State) (k : Nat) (seq : Nat) (kind : Nat) (data : Nat) : s.Touches (State.rxSmsg s k seq kind data)
    [.out, .regs, .ctlLatches, .portA, .portB] := by
  unfold State.rxSmsg
  repeat' first
    | with_reducible exact .refl _ _
    | exact rfl
    | with_reducible apply State.Touches.after (State.setFld_touches _ _ _ _)
    | with_reducible apply State.Touches.after (State.raise_touches _ _ _)
    | with_reducible apply State.Touches.after (State.bcDone_touches _ _ _ _)
    | with_reducible apply State.Touches.after (State.nextBc_touches _ _)
    | split

theorem State.cdrLocked_touches (s : State) (lane : Nat) : s.Touches (State.cdrLocked s lane) [.regs] := by
  unfold State.cdrLocked
  repeat' first
    | with_reducible exact .refl _ _
    | exact rfl
    | with_reducible apply State.Touches.after (State.setFld_touches _ _ _ _)
    | with_reducible apply State.Touches.ite

theorem State.applyFallback_touches (s : State) (k : Nat) (f : Nat) : s.Touches (State.applyFallback s k f) [.regs, .ctlLatches, .portA,
    .portB] := by
  unfold State.applyFallback
  repeat' first
    | with_reducible exact .refl _ _
    | exact rfl
    | with_reducible apply State.Touches.after (State.setFld_touches _ _ _ _)
    | with_reducible apply State.Touches.after (State.raise_touches _ _ _)
    | with_reducible apply State.Touches.after (State.setMap_touches _ _ _)
    | with_reducible apply State.Touches.after (State.setPort_touches _ _ _)
    | with_reducible apply State.Touches.after (State.showLoss_touches _ _)
    | with_reducible apply State.Touches.after (State.showPort_touches _ _)
    | with_reducible apply State.Touches.ite

theorem State.eqAdapted_touches (s : State) (k : Nat) : s.Touches (State.eqAdapted s k) [.seed, .regs, .ctlLatches, .portA, .portB] := by
  unfold State.eqAdapted
  repeat' first
    | with_reducible exact .refl _ _
    | exact rfl
    | with_reducible apply State.Touches.after (State.linked_touches _ _)
    | with_reducible apply State.Touches.after (State.adaptLane_touches _ _)
    | with_reducible apply State.Touches.ite
    | with_reducible apply State.Touches.foldl
    | intro _

theorem State.fallbackTimeout_touches (s : State) (k : Nat) : s.Touches (State.fallbackTimeout s k) [.regs, .ctlLatches, .portA, .portB]
    := by
  unfold State.fallbackTimeout
  repeat' first
    | with_reducible exact .refl _ _
    | exact rfl
    | with_reducible apply State.Touches.after (State.raise_touches _ _ _)
    | with_reducible apply State.Touches.after (State.setPort_touches _ _ _)
    | with_reducible apply State.Touches.ite

theorem State.rxSol_touches (s : State) (k : Nat) (lane : Nat) (line : Nat) (depth : Nat) (dg : Nat) (cells : Nat) : s.Touches
    (State.rxSol s k lane line depth dg cells) [.portA, .portB] := by
  unfold State.rxSol
  repeat' first
    | with_reducible exact .refl _ _
    | exact rfl
    | with_reducible apply State.Touches.after (State.setPort_touches _ _ _)
    | with_reducible apply State.Touches.ite

theorem State.cdrLost_touches (s : State) (lane : Nat) : s.Touches (State.cdrLost s lane) [.regs, .ctlLatches, .portA, .portB] := by
  unfold State.cdrLost
  repeat' first
    | with_reducible exact .refl _ _
    | exact rfl
    | with_reducible apply State.Touches.after (State.count_touches _ _ _)
    | with_reducible apply State.Touches.after (State.setFld_touches _ _ _ _)
    | with_reducible apply State.Touches.after (State.raise_touches _ _ _)
    | with_reducible apply State.Touches.after (State.lockLost_touches _ _ _)
    | with_reducible apply State.Touches.ite

theorem State.rxTrain_touches (s : State) (b : TrainBlk) : s.Touches (State.rxTrain s b) [.out, .regs, .ctlLatches, .portA, .portB] := by
  unfold State.rxTrain
  repeat' first
    | with_reducible exact .refl _ _
    | exact rfl
    | with_reducible apply State.Touches.after (State.setOn_touches _ _ _ _)
    | with_reducible apply State.Touches.after (State.setFld_touches _ _ _ _)
    | with_reducible apply State.Touches.after (State.setMap_touches _ _ _)
    | with_reducible apply State.Touches.after (State.setPort_touches _ _ _)
    | with_reducible apply State.Touches.after (State.trainStep5_touches _ _)
    | with_reducible apply State.Touches.after (State.trainEnds_touches _ _ _)
    | with_reducible apply State.Touches.ite

theorem State.blockLocked_touches (s : State) (lane : Nat) : s.Touches (State.blockLocked s lane) [.regs] := by
  unfold State.blockLocked
  repeat' first
    | with_reducible exact .refl _ _
    | exact rfl
    | with_reducible apply State.Touches.after (State.setFld_touches _ _ _ _)
    | with_reducible apply State.Touches.ite

theorem driveLanes_touches (s0 : State) (s : State) : s.Touches (driveLanes s0 s) [.out] := by
  unfold driveLanes
  repeat' first
    | with_reducible exact .refl _ _
    | exact rfl
    | with_reducible apply State.Touches.after (State.emit_touches _ _)
    | with_reducible apply State.Touches.ite
    | with_reducible apply State.Touches.foldl
    | intro _

theorem State.trainTimeout_touches (s : State) (k : Nat) : s.Touches (State.trainTimeout s k) [.regs, .ctlLatches, .portA, .portB] := by
  unfold State.trainTimeout
  repeat' first
    | with_reducible exact .refl _ _
    | exact rfl
    | with_reducible apply State.Touches.after (State.trainFails_touches _ _)
    | split

theorem State.alignNeeded_touches (s : State) (lane : Nat) : s.Touches (State.alignNeeded s lane) [.regs, .ctlLatches] := by
  unfold State.alignNeeded
  repeat' first
    | with_reducible exact .refl _ _
    | exact rfl
    | with_reducible apply State.Touches.after (State.raise_touches _ _ _)
    | with_reducible apply State.Touches.ite

theorem State.countLoss_touches (s : State) (k : Nat) (f : Nat) : s.Touches (State.countLoss s k f) [.out, .regs, .portA, .portB] := by
  unfold State.countLoss
  repeat' first
    | with_reducible exact .refl _ _
    | exact rfl
    | with_reducible apply State.Touches.after (State.setPort_touches _ _ _)
    | with_reducible apply State.Touches.after (State.showLoss_touches _ _)
    | with_reducible apply State.Touches.after (State.postBc_touches _ _ _ _ _ _)
    | split
    | dsimp only

theorem writeLinkCtrl_touches (r : Req) (k : Nat) (v : Word) (s : State) : s.Touches (writeLinkCtrl r k v s) [.out, .regs, .ctlW1Done,
    .ctlLatches, .ctlBusErrHeld, .hqPci0, .hqPci1, .portA, .portB] := by
  unfold writeLinkCtrl
  repeat' first
    | with_reducible exact .refl _ _
    | exact rfl
    | with_reducible apply State.Touches.after (State.wr_touches _ _ _)
    | with_reducible apply State.Touches.after (State.reject_touches _ _)
    | with_reducible refine withWrite_touches _ _ _ _ _ _ (fun _ _ _ => ?_) ?_
    | with_reducible apply State.Touches.after (State.gangChanged_touches _)
    | with_reducible apply State.Touches.after (State.startTraining_touches _ _)
    | with_reducible apply State.Touches.ite

theorem State.losCleared_touches (s : State) (lane : Nat) : s.Touches (State.losCleared s lane) [.regs] := by
  unfold State.losCleared
  repeat' first
    | with_reducible exact .refl _ _
    | exact rfl
    | with_reducible apply State.Touches.after (State.setFld_touches _ _ _ _)
    | with_reducible apply State.Touches.ite

theorem State.pairDiscard_touches (s : State) (k : Nat) : s.Touches (State.pairDiscard s k) [.regs, .ctlLatches, .portA, .portB] := by
  unfold State.pairDiscard
  repeat' first
    | with_reducible exact .refl _ _
    | exact rfl
    | with_reducible apply State.Touches.after (State.count_touches _ _ _)
    | with_reducible apply State.Touches.after (State.raise_touches _ _ _)
    | with_reducible apply State.Touches.after (State.setPort_touches _ _ _)

theorem State.showRecord_touches (s : State) (f : OpenFrame) (flags : Nat) : s.Touches (State.showRecord s f flags) [.regs, .ctlLatches]
    := by
  unfold State.showRecord
  repeat' first
    | with_reducible exact .refl _ _
    | exact rfl
    | with_reducible apply State.Touches.after (State.setFld64_touches _ _ _ _ _)
    | with_reducible apply State.Touches.after (State.setFld_touches _ _ _ _)
    | with_reducible apply State.Touches.after (State.raiseIf_touches _ _ _ _)

theorem State.writeLine_touches (s : State) (slot : Nat) (k : Nat) (y : Nat) (vs : List Nat) : s.Touches (State.writeLine s slot k y vs)
    [.dram] := by
  unfold State.writeLine
  repeat' first
    | with_reducible exact .refl _ _
    | exact rfl
    | with_reducible apply State.Touches.after (State.pokeN_touches _ _ _)

end Sys2Proof.Machine
end

section
/-! SUPPORT. Footprints of the capture chain -/

set_option Elab.async false

namespace Sys2Proof.Machine

theorem State.setOpen_touches (s : State) (f : Option OpenFrame) : s.Touches (State.setOpen s f) [.ingressOpenFrame] := by
  unfold State.setOpen
  repeat' first
    | with_reducible exact .refl _ _
    | exact rfl
    | with_reducible apply State.setIngress_touches

theorem State.degrade_touches (s : State) (k : Nat) : s.Touches (State.degrade s k) [.regs, .ctlLatches, .ingressOpenFrame] := by
  unfold State.degrade
  repeat' first
    | with_reducible exact .refl _ _
    | exact rfl
    | with_reducible apply State.Touches.after (State.count_touches _ _ _)
    | with_reducible apply State.Touches.after (State.raise_touches _ _ _)
    | with_reducible apply State.Touches.after (State.setOpen_touches _ _)
    | split

theorem State.noteMeta_touches (s : State) (f : Nat) (b : List Byte) : s.Touches (State.noteMeta s f b) [.mediaReel] := by
  unfold State.noteMeta
  repeat' first
    | with_reducible exact .refl _ _
    | exact rfl
    | with_reducible apply State.Touches.ite
    | with_reducible apply State.Touches.set

theorem State.closeFrame_touches (s : State) : s.Touches (State.closeFrame s) [.regs, .ctlLatches, .ingressOpenFrame, .ingressReady,
    .mediaReel, .dram] := by
  unfold State.closeFrame
  repeat' first
    | with_reducible exact .refl _ _
    | exact rfl
    | with_reducible apply State.Touches.after (State.setFld_touches _ _ _ _)
    | with_reducible apply State.Touches.after (State.raiseIf_touches _ _ _ _)
    | with_reducible apply State.Touches.after (State.pokeN_touches _ _ _)
    | with_reducible apply State.Touches.after (State.showRecord_touches _ _ _)
    | with_reducible apply State.Touches.after (State.writeLine_touches _ _ _ _ _)
    | with_reducible apply State.Touches.after (State.degrade_touches _ _)
    | with_reducible apply State.Touches.after (State.setOpen_touches _ _)
    | with_reducible apply State.Touches.after (State.noteMeta_touches _ _ _)
    | with_reducible apply State.setIngress_touches
    | with_reducible apply State.Touches.foldl
    | split
    | intro _

theorem State.endStreaming_touches (s : State) (k : Nat) : s.Touches (State.endStreaming s k) [.regs, .portA, .portB] := by
  unfold State.endStreaming
  repeat' first
    | with_reducible exact .refl _ _
    | exact rfl
    | with_reducible apply State.Touches.after (State.setPort_touches _ _ _)
    | with_reducible apply State.Touches.after (State.showPort_touches _ _)
    | with_reducible apply State.Touches.ite

theorem State.stopDiscard_touches (s : State) (k : Nat) : s.Touches (State.stopDiscard s k) [.regs, .ctlLatches, .portA, .portB,
    .ingressOpenFrame, .ingressReady, .mediaReel, .dram] := by
  unfold State.stopDiscard
  repeat' first
    | with_reducible exact .refl _ _
    | exact rfl
    | with_reducible apply State.Touches.after (State.count_touches _ _ _)
    | with_reducible apply State.Touches.after (State.setPort_touches _ _ _)
    | with_reducible apply State.Touches.after (State.closeFrame_touches _)
    | with_reducible apply State.Touches.after (State.endStreaming_touches _ _)
    | with_reducible apply State.Touches.ite
    | with_reducible apply State.Touches.foldl
    | intro _

theorem State.rxSof_touches (s : State) (k : Nat) (frame : Nat) (tag : Nat) : s.Touches (State.rxSof s k frame tag) [.regs, .ctlLatches,
    .portA, .portB, .ingressOpenFrame, .ingressReady, .mediaReel, .dram] := by
  unfold State.rxSof
  repeat' first
    | with_reducible exact .refl _ _
    | exact rfl
    | with_reducible apply State.Touches.after (State.raiseIf_touches _ _ _ _)
    | with_reducible apply State.Touches.after (State.setPort_touches _ _ _)
    | with_reducible apply State.Touches.after (State.showPort_touches _ _)
    | with_reducible apply State.Touches.after (State.pairDiscard_touches _ _)
    | with_reducible apply State.Touches.after (State.stopDiscard_touches _ _)
    | with_reducible apply State.Touches.ite

theorem State.keepValues_touches (s : State) (n : Nat) : s.Touches (State.keepValues s n) [.ingressFrameVals] := by
  unfold State.keepValues
  repeat' first
    | with_reducible exact .refl _ _
    | exact rfl
    | with_reducible apply State.Touches.set

theorem State.showRing_touches (s : State) : s.Touches (State.showRing s) [.regs] := by
  unfold State.showRing
  repeat' first
    | with_reducible exact .refl _ _
    | exact rfl
    | with_reducible apply State.Touches.after (State.setOn_touches _ _ _ _)
    | with_reducible apply State.Touches.after (State.setFld_touches _ _ _ _)

theorem State.rxMeta_touches (s : State) (k : Nat) (data : List Byte) : s.Touches (State.rxMeta s k data) [.portA, .portB,
    .ingressOpenFrame] := by
  unfold State.rxMeta
  repeat' first
    | with_reducible exact .refl _ _
    | exact rfl
    | with_reducible apply State.Touches.after (State.setPort_touches _ _ _)
    | with_reducible apply State.Touches.after (State.setOpen_touches _ _)
    | with_reducible apply State.Touches.ite
    | split

theorem State.closeIfDone_touches (s : State) : s.Touches (State.closeIfDone s) [.regs, .ctlLatches, .ingressOpenFrame, .ingressReady,
    .mediaReel, .dram] := by
  unfold State.closeIfDone
  repeat' first
    | with_reducible exact .refl _ _
    | exact rfl
    | with_reducible apply State.Touches.after (State.closeFrame_touches _)
    | split

theorem State.pairExpired_touches (s : State) : s.Touches (State.pairExpired s) [.regs, .ctlLatches, .ingressOpenFrame, .ingressReady,
    .mediaReel, .dram] := by
  unfold State.pairExpired
  repeat' first
    | with_reducible exact .refl _ _
    | exact rfl
    | with_reducible apply State.Touches.after (State.raise_touches _ _ _)
    | with_reducible apply State.Touches.after (State.closeIfDone_touches _)
    | with_reducible apply State.Touches.after (State.setOpen_touches _ _)
    | with_reducible apply State.Touches.ite
    | split

theorem State.putSlot_touches (s : State) (j : Nat) (r : RingSlot) : s.Touches (State.putSlot s j r) [.ingressSlots] := by
  unfold State.putSlot
  repeat' first
    | with_reducible exact .refl _ _
    | exact rfl
    | with_reducible apply State.setIngress_touches

theorem State.releaseSlot_touches (s : State) (j : Nat) (r : RingSlot) : s.Touches (State.releaseSlot s j r) [.regs, .ingressSlots,
    .ingressFreeCtr] := by
  unfold State.releaseSlot
  repeat' first
    | with_reducible exact .refl _ _
    | exact rfl
    | with_reducible apply State.Touches.after (State.showRing_touches _)
    | with_reducible apply State.Touches.after (State.putSlot_touches _ _ _)
    | with_reducible apply State.setIngress_touches
    | with_reducible apply State.Touches.ite

theorem State.caughtUp_touches (s : State) (f : Nat) : s.Touches (State.caughtUp s f) [.regs, .ctlLatches, .ingressSlots,
    .ingressFreeCtr, .ingressCatchup] := by
  unfold State.caughtUp
  repeat' first
    | with_reducible exact .refl _ _
    | exact rfl
    | with_reducible apply State.Touches.after (State.raiseIf_touches _ _ _ _)
    | with_reducible apply State.Touches.after (State.showRing_touches _)
    | with_reducible apply State.setIngress_touches
    | with_reducible apply State.Touches.after (State.releaseSlot_touches _ _ _)
    | split

theorem State.holdPreroll_touches (s : State) (b : Nat) : s.Touches (State.holdPreroll s b) [.regs, .ingressSlots, .ingressCatchup,
    .dram] := by
  unfold State.holdPreroll
  repeat' first
    | with_reducible exact .refl _ _
    | exact rfl
    | with_reducible apply State.Touches.after (State.setFld_touches _ _ _ _)
    | with_reducible apply State.Touches.after (State.pokeN_touches _ _ _)
    | with_reducible apply State.Touches.after (State.showRing_touches _)
    | with_reducible apply State.Touches.after (State.putSlot_touches _ _ _)
    | with_reducible apply State.setIngress_touches
    | with_reducible apply State.Touches.ite
    | with_reducible apply State.Touches.foldl
    | intro _

theorem State.rxEof_touches (s : State) (k : Nat) (lines : Nat) : s.Touches (State.rxEof s k lines) [.regs, .ctlLatches, .portA, .portB,
    .ingressOpenFrame, .ingressReady, .mediaReel, .dram] := by
  unfold State.rxEof
  repeat' first
    | with_reducible exact .refl _ _
    | exact rfl
    | with_reducible apply State.Touches.after (State.setPort_touches _ _ _)
    | with_reducible apply State.Touches.after (State.closeIfDone_touches _)
    | with_reducible apply State.Touches.after (State.endStreaming_touches _ _)
    | with_reducible apply State.Touches.after (State.setOpen_touches _ _)
    | with_reducible apply State.Touches.ite
    | split

theorem State.storeLine_touches (s : State) (k : Nat) (line : Nat) (f : OpenFrame) (hs : List Nat) (ls : List Nat) (status : Nat) (bad :
    Bool) : s.Touches (State.storeLine s k line f hs ls status bad) [.regs, .ctlLatches, .ingressOpenFrame, .dram] := by
  unfold State.storeLine
  repeat' first
    | with_reducible exact .refl _ _
    | exact rfl
    | with_reducible apply State.Touches.after (State.raiseIf_touches _ _ _ _)
    | with_reducible apply State.Touches.after (State.writeLine_touches _ _ _ _ _)
    | with_reducible apply State.Touches.after (State.degrade_touches _ _)
    | with_reducible apply State.Touches.after (State.setOpen_touches _ _)
    | with_reducible apply State.Touches.ite
    | split

theorem State.ingressStart_touches (s : State) : s.Touches (State.ingressStart s) [.regs, .ingressOpenFrame, .ingressSlots,
    .ingressFreeCtr, .ingressFrameVals, .ingressReady, .ingressReading, .ingressCatchup, .ingressSofs] := by
  unfold State.ingressStart
  repeat' first
    | with_reducible exact .refl _ _
    | exact rfl
    | with_reducible apply State.Touches.after (State.setFld_touches _ _ _ _)
    | with_reducible apply State.Touches.after (State.showRing_touches _)
    | with_reducible apply State.setIngress_touches
    | with_reducible apply State.Touches.foldl
    | intro _

theorem State.readEnded_touches (s : State) (f : Nat) : s.Touches (State.readEnded s f) [.regs, .ingressSlots, .ingressFreeCtr] := by
  unfold State.readEnded
  repeat' first
    | with_reducible exact .refl _ _
    | exact rfl
    | with_reducible apply State.Touches.after (State.releaseSlot_touches _ _ _)
    | split

theorem State.takeHalf_touches (s : State) (k : Nat) (f : OpenFrame) : s.Touches (State.takeHalf s k f) [.portA, .portB,
    .ingressOpenFrame] := by
  unfold State.takeHalf
  repeat' first
    | with_reducible exact .refl _ _
    | exact rfl
    | with_reducible apply State.Touches.after (State.setPort_touches _ _ _)
    | with_reducible apply State.Touches.after (State.setOpen_touches _ _)

theorem State.openNew_touches (s : State) (k : Nat) (n : Nat) : s.Touches (State.openNew s k n) [.regs, .ctlLatches, .portA, .portB,
    .ingressOpenFrame, .ingressSlots] := by
  unfold State.openNew
  repeat' first
    | with_reducible exact .refl _ _
    | exact rfl
    | with_reducible apply State.Touches.after (State.count_touches _ _ _)
    | with_reducible apply State.Touches.after (State.setFld_touches _ _ _ _)
    | with_reducible apply State.Touches.after (State.raise_touches _ _ _)
    | with_reducible apply State.Touches.after (State.showRing_touches _)
    | with_reducible apply State.Touches.after (State.putSlot_touches _ _ _)
    | with_reducible apply State.Touches.after (State.takeHalf_touches _ _ _)
    | split

theorem State.rxEol_touches (s : State) (k : Nat) (line : Nat) : s.Touches (State.rxEol s k line) [.regs, .ctlLatches, .portA, .portB,
    .ingressOpenFrame, .dram] := by
  unfold State.rxEol
  repeat' first
    | with_reducible exact .refl _ _
    | exact rfl
    | with_reducible apply State.Touches.after (State.count_touches _ _ _)
    | with_reducible apply State.Touches.after (State.setPort_touches _ _ _)
    | with_reducible apply State.Touches.after (State.storeLine_touches _ _ _ _ _ _ _ _)
    | with_reducible apply State.Touches.after (State.degrade_touches _ _)
    | with_reducible apply State.Touches.ite
    | split

theorem State.lineTimeout_touches (s : State) (k : Nat) : s.Touches (State.lineTimeout s k) [.regs, .ctlLatches, .portA, .portB,
    .ingressOpenFrame, .ingressReady, .mediaReel, .dram] := by
  unfold State.lineTimeout
  repeat' first
    | with_reducible exact .refl _ _
    | exact rfl
    | with_reducible apply State.Touches.after (State.closeIfDone_touches _)
    | with_reducible apply State.Touches.after (State.endStreaming_touches _ _)
    | with_reducible apply State.Touches.after (State.setOpen_touches _ _)
    | split

theorem State.emptySlot_touches (s : State) (k : Nat) (st : Nat) : s.Touches (State.emptySlot s k st) [.regs] := by
  unfold State.emptySlot
  repeat' first
    | with_reducible exact .refl _ _
    | exact rfl
    | with_reducible apply State.Touches.after (State.setFld_touches _ _ _ _)

theorem placeSlot_touches (old : State) (acc : State × Nat) (k : Nat) : acc.1.Touches (placeSlot old acc k).1 [.regs, .ctlLatches] := by
  have h1 : ∀ a b, acc.1.Touches ((acc.1.setFld Pg.fstore (Reg.FSTORE_SLOT_CFG_BASE k) a).setOn Pg.fstore (Reg.FSTORE_SLOT_CFG_PLACED k) b)
      [.regs, .ctlLatches] := fun a b => .step ((State.setFld_touches ..).mono rfl) (State.setOn_touches ..) rfl
  unfold placeSlot
  dsimp only
  split
  · exact .ite (h1 _ _) (.step (h1 _ _) (State.emptySlot_touches ..) rfl)
  · split
    · exact .step (h1 _ _) (State.emptySlot_touches ..) rfl
    · exact .step (.step (h1 _ _) (State.emptySlot_touches ..) rfl) (State.raise_touches ..) rfl

theorem State.placeSlots_touches (s old : State) : s.Touches (s.placeSlots old) [.regs, .ctlLatches] := by
  unfold State.placeSlots
  exact .step (.step (.foldl_fst (acc := (s, 0)) (.refl _ _) (fun acc k => placeSlot_touches old acc k) _) (State.setFld_touches ..) rfl)
    (State.setFld_touches ..) rfl

theorem State.fstoreClear_touches (s : State) : s.Touches (State.fstoreClear s) [.regs, .ctlLatches, .fstoreMem] := by
  unfold State.fstoreClear
  repeat' first
    | with_reducible exact .refl _ _
    | exact rfl
    | with_reducible apply State.Touches.after (State.emptySlot_touches _ _ _)
    | with_reducible apply State.Touches.after (State.placeSlots_touches _ _)
    | with_reducible apply State.Touches.ite
    | with_reducible apply State.Touches.foldl
    | intro _
    | with_reducible apply State.Touches.set

theorem noteFreed_touches (s0 : State) (s : State) : s.Touches (noteFreed s0 s) [.regs, .ctlLatches] := by
  unfold noteFreed
  repeat' first
    | with_reducible exact .refl _ _
    | exact rfl
    | with_reducible apply State.Touches.after (State.raiseIf_touches _ _ _ _)

theorem State.endLoad_touches (s : State) (cmd : Option Nat) (result : Nat) : s.Touches (State.endLoad s cmd result) [.regs, .ctlLatches,
    .hqCmds, .hqGhosts, .hqErrors, .hqErrCount0, .hqErrCount1, .fstoreLoad] := by
  unfold State.endLoad
  repeat' first
    | with_reducible exact .refl _ _
    | exact rfl
    | with_reducible apply State.Touches.after (State.setFld_touches _ _ _ _)
    | with_reducible apply State.Touches.after (State.raise_touches _ _ _)
    | with_reducible apply State.Touches.after (State.raiseIf_touches _ _ _ _)
    | with_reducible apply State.Touches.after (State.finish?_touches _ _ _ _ _)
    | with_reducible apply State.Touches.set

theorem State.beginLoad_touches (s : State) (slot : Nat) (src : Nat) (cmd : Option Nat) : s.Touches (State.beginLoad s slot src cmd)
    [.regs, .ctlLatches, .hqCmds, .hqGhosts, .hqErrors, .hqErrCount0, .hqErrCount1, .fstoreLoad] := by
  unfold State.beginLoad
  repeat' first
    | with_reducible exact .refl _ _
    | exact rfl
    | with_reducible apply State.Touches.after (State.setFld_touches _ _ _ _)
    | with_reducible apply State.Touches.after (State.emptySlot_touches _ _ _)
    | with_reducible apply State.Touches.after (State.endLoad_touches _ _ _)
    | with_reducible apply State.Touches.ite
    | with_reducible apply State.Touches.set

theorem writeLoadCtrl_touches (r : Req) (v : Word) (s : State) : s.Touches (writeLoadCtrl r v s) [.out, .regs, .ctlW1Done, .ctlLatches,
    .ctlBusErrHeld, .hqCmds, .hqGhosts, .hqErrors, .hqErrCount0, .hqErrCount1, .hqPci0, .hqPci1, .fstoreLoad] := by
  unfold writeLoadCtrl
  repeat' first
    | with_reducible exact .refl _ _
    | exact rfl
    | with_reducible apply State.Touches.after (State.setFld_touches _ _ _ _)
    | with_reducible apply State.Touches.after (State.reject_touches _ _)
    | with_reducible refine withWrite_touches _ _ _ _ _ _ (fun _ _ _ => ?_) ?_
    | with_reducible apply State.Touches.after (State.beginLoad_touches _ _ _ _)
    | with_reducible apply State.Touches.ite

theorem State.checkSlots_touches (s : State) (p : Nat) : s.Touches (State.checkSlots s p) [.regs, .ctlLatches] := by
  unfold State.checkSlots
  repeat' first
    | with_reducible exact .refl _ _
    | exact rfl
    | with_reducible apply State.Touches.after (State.setFld_touches _ _ _ _)
    | with_reducible apply State.Touches.after (State.raiseIf_touches _ _ _ _)
    | with_reducible apply State.Touches.ite

theorem State.passCommit_touches (s : State) (n : Nat) : s.Touches (State.passCommit s n) [.regs, .ctlSnaps, .ctlGroups, .ctlLatches] :=
    by
  unfold State.passCommit
  repeat' first
    | with_reducible exact .refl _ _
    | exact rfl
    | with_reducible apply State.Touches.after (State.commitPoint_touches _ _)
    | with_reducible apply State.Touches.after (noteFreed_touches _ _)
    | with_reducible apply State.Touches.after (State.checkSlots_touches _ _)
    | with_reducible apply State.Touches.foldl
    | intro _

theorem State.frameValues_touches (s : State) (n : Nat) : s.Touches (State.frameValues s n) [.regs, .ctlSnaps, .ctlGroups, .ctlLatches,
    .ingressFrameVals] := by
  unfold State.frameValues
  repeat' first
    | with_reducible exact .refl _ _
    | exact rfl
    | with_reducible apply State.Touches.after (State.keepValues_touches _ _)
    | with_reducible apply State.Touches.after (State.passCommit_touches _ _)
    | with_reducible apply State.Touches.ite

theorem State.loadDone_touches (s : State) : s.Touches (State.loadDone s) [.regs, .ctlLatches, .hqCmds, .hqGhosts, .hqErrors,
    .hqErrCount0, .hqErrCount1, .fstoreMem, .fstoreLoad] := by
  unfold State.loadDone
  repeat' first
    | with_reducible exact .refl _ _
    | exact rfl
    | with_reducible apply State.Touches.after (State.setFld_touches _ _ _ _)
    | with_reducible apply State.Touches.after (State.emptySlot_touches _ _ _)
    | with_reducible apply State.Touches.after (State.endLoad_touches _ _ _)
    | split
    | with_reducible apply State.Touches.set

theorem State.setFrameNow_touches (s : State) (n : Nat) : s.Touches (State.setFrameNow s n) [.regs] := by
  unfold State.setFrameNow
  repeat' first
    | with_reducible exact .refl _ _
    | exact rfl
    | with_reducible apply State.Touches.after (State.setFld64_touches _ _ _ _ _)

theorem writeSlotCfg_touches (r : Req) (k : Nat) (v : Word) (s : State) : s.Touches (writeSlotCfg r k v s) [.out, .regs, .ctlLoHold,
    .ctlW1Done, .ctlLatches, .ctlBusErrHeld, .hqPci0, .hqPci1] := by
  unfold writeSlotCfg
  repeat' first
    | with_reducible exact .refl _ _
    | exact rfl
    | with_reducible refine withWrite_touches _ _ _ _ _ _ (fun _ _ _ => ?_) ?_
    | with_reducible apply State.Touches.after (plainStore_touches _ _ _ _ _ _)
    | with_reducible apply State.Touches.after (State.placeSlots_touches _ _)
    | with_reducible apply State.Touches.ite

theorem State.dropPics_touches (s : State) : s.Touches (State.dropPics s) [.splitPics] := by
  unfold State.dropPics
  repeat' first
    | with_reducible exact .refl _ _
    | exact rfl
    | with_reducible apply State.Touches.set

theorem State.feSat_touches (s : State) (n : Nat) : s.Touches (State.feSat s n) [.regs, .ctlLatches] := by
  unfold State.feSat
  repeat' first
    | with_reducible exact .refl _ _
    | exact rfl
    | with_reducible apply State.Touches.after (State.countBy_touches _ _ _ _)
    | with_reducible apply State.Touches.after (State.raiseIf_touches _ _ _ _)

theorem State.growWork_touches (s : State) (q : Pic) (n : Nat) : s.Touches (s.growWork q n).2 [.regs, .ctlLatches] := by
  induction n generalizing s q with
  | zero => exact .refl _ _
  | succ n ih => exact .trans ((State.feSat_touches ..).mono rfl) (ih _ _)

theorem State.growPf_touches (s : State) (q : Pic) (n : Nat) : s.Touches (s.growPf q n).2 [.regs, .ctlLatches] := by
  induction n generalizing s q with
  | zero => exact .refl _ _
  | succ n ih => exact .trans (.step (.step ((State.countBy_touches ..).mono rfl) (State.raiseIf_touches ..) rfl)
      (State.feSat_touches ..) rfl) (ih _ _)

theorem State.putPic_touches (s : State) (q : Pic) : s.Touches (State.putPic s q) [.splitPics] := by
  unfold State.putPic
  repeat' first
    | with_reducible exact .refl _ _
    | exact rfl
    | with_reducible apply State.Touches.set

theorem State.feLine_touches (s : State) (q : Pic) (row : List Nat) : s.Touches (State.feLine s q row) [.regs, .ctlLatches, .splitPics]
    := by
  unfold State.feLine
  repeat' first
    | with_reducible exact .refl _ _
    | exact rfl
    | with_reducible apply State.Touches.after (State.setFld64_touches _ _ _ _ _)
    | with_reducible apply State.Touches.after (State.count_touches _ _ _)
    | with_reducible apply State.Touches.after (State.raise_touches _ _ _)
    | with_reducible apply State.Touches.after (State.growWork_touches _ _ _)
    | with_reducible apply State.Touches.after (State.growPf_touches _ _ _)
    | with_reducible apply State.Touches.after (State.putPic_touches _ _)
    | with_reducible apply State.Touches.ite

theorem State.sharedLine_touches (s : State) : s.Touches (State.sharedLine s) [.regs, .ctlLatches, .ingressSlots, .ingressFreeCtr,
    .ingressReading, .splitPics, .drawLive] := by
  unfold State.sharedLine
  repeat' first
    | with_reducible exact .refl _ _
    | exact rfl
    | with_reducible apply State.Touches.after (State.readEnded_touches _ _)
    | with_reducible apply State.setIngress_touches
    | with_reducible apply State.Touches.after (noteFreed_touches _ _)
    | with_reducible apply State.Touches.after (State.dropPics_touches _)
    | with_reducible apply State.Touches.after (State.feLine_touches _ _ _)
    | split
    | with_reducible apply State.Touches.set

theorem State.loadDefects_touches (s : State) (f w k : Nat) : s.Touches (s.loadDefects f w k).2 [.regs, .ctlLatches] := by
  unfold State.loadDefects
  dsimp only
  split
  · exact .step (.step ((State.countBy_touches ..).mono rfl) (State.raiseIf_touches ..) rfl) (State.raiseIf_touches ..) rfl
  · exact .refl _ _

theorem State.sharedStart_touches (s : State) : s.Touches (State.sharedStart s) [.regs, .ctlLatches, .ingressReady, .ingressReading,
    .splitPics, .drdecReady] := by
  unfold State.sharedStart
  repeat' first
    | with_reducible exact .refl _ _
    | exact rfl
    | with_reducible apply State.setIngress_touches
    | with_reducible apply State.Touches.after (State.loadDefects_touches _ _ _ _)
    | split
    | with_reducible apply State.Touches.set

theorem State.feStart_touches (s : State) : s.Touches (State.feStart s) [.regs] := by
  unfold State.feStart
  repeat' first
    | with_reducible exact .refl _ _
    | exact rfl
    | with_reducible apply State.Touches.after (State.setFld_touches _ _ _ _)
    | with_reducible apply State.Touches.foldl
    | intro _

theorem State.showCores_touches (s : State) : s.Touches (State.showCores s) [.regs] := by
  unfold State.showCores
  repeat' first
    | with_reducible exact .refl _ _
    | exact rfl
    | with_reducible apply State.Touches.after (State.setFld_touches _ _ _ _)
    | with_reducible apply State.Touches.foldl
    | intro _

theorem State.countTiles_touches (s : State) (ts : List TileOut) : s.Touches (State.countTiles s ts) [.regs, .ctlLatches] := by
  unfold State.countTiles
  repeat' first
    | with_reducible exact .refl _ _
    | exact rfl
    | with_reducible apply State.Touches.after (State.countBy_touches _ _ _ _)
    | with_reducible apply State.Touches.after (State.count_touches _ _ _)
    | with_reducible apply State.Touches.after (State.raiseIf_touches _ _ _ _)
    | with_reducible apply State.Touches.foldl
    | split
    | intro _

theorem State.writeRecord_touches (s : State) (d : DrawFrame) (catchup : Bool) (flags : Nat) (ts : List TileOut) : s.Touches
    (State.writeRecord s d catchup flags ts) [.dram] := by
  unfold State.writeRecord
  repeat' first
    | with_reducible exact .refl _ _
    | exact rfl
    | with_reducible apply State.Touches.after (State.pokeN_touches _ _ _)
    | with_reducible apply State.Touches.foldl
    | intro _

theorem State.showDraw_touches (s : State) : s.Touches (State.showDraw s) [.regs] := by
  unfold State.showDraw
  repeat' first
    | with_reducible exact .refl _ _
    | exact rfl
    | with_reducible apply State.Touches.after (State.setFld_touches _ _ _ _)

/-- The store of a raw record that is complete: its buffer is ready and its history kept, of the live stream or of the catch-up. -/
theorem State.touches_drawRecord (s : State) (catchup : Bool) (hist : List (Nat × List Nat)) (bufs : List (Nat × Nat × Bool)) :
    s.Touches { s with draw := if catchup then { s.draw with cat := none, catHist := hist, bufs := bufs }
      else { s.draw with live := none, liveHist := hist, bufs := bufs } } [.regs, .ctlLatches, .drawLive, .drawCat, .drawBufs,
          .drawLiveHist, .drawCatHist, .dram] :=
  .of_mix (by cases catchup <;> rfl) rfl

theorem State.encodeFrame_touches (s : State) (d : DrawFrame) (catchup : Bool) (flags : Nat) :
    s.Touches (s.encodeFrame d catchup flags) [.regs, .ctlLatches, .drawLive, .drawCat, .drawBufs, .drawLiveHist, .drawCatHist, .dram] := by
  unfold State.encodeFrame
  extract_lets r ts c s1 s2 w bufs hist hist1 w1
  have h1 : s.Touches s1 [.regs, .ctlLatches, .drawLive, .drawCat, .drawBufs, .drawLiveHist, .drawCatHist, .dram] :=
    .step (.step ((State.writeRecord_touches ..).mono rfl) (State.countTiles_touches ..) rfl) (State.setFld64_touches ..) rfl
  have h2 : s.Touches s2 [.regs, .ctlLatches, .drawLive, .drawCat, .drawBufs, .drawLiveHist, .drawCatHist, .dram] := .step h1
      (State.setFld_touches ..) rfl
  have h3 := h2.trans (s2.touches_drawRecord catchup hist1 bufs)
  have h4 := h3.step (State.showDraw_touches _) rfl
  exact h4.step (State.showCores_touches _) rfl

theorem State.catchupDone_touches (s : State) : s.Touches (State.catchupDone s) [.regs, .ctlLatches, .ingressSlots, .ingressFreeCtr,
    .ingressCatchup, .drawLive, .drawCat, .drawBufs, .drawLiveHist, .drawCatHist, .dram] := by
  unfold State.catchupDone
  repeat' first
    | with_reducible exact .refl _ _
    | exact rfl
    | with_reducible apply State.Touches.after (State.caughtUp_touches _ _)
    | with_reducible apply State.Touches.after (State.encodeFrame_touches _ _ _ _)
    | with_reducible apply State.Touches.after (State.showDraw_touches _)
    | split

theorem State.drawDone_touches (s : State) : s.Touches (State.drawDone s) [.regs, .ctlLatches, .ingressSlots, .ingressFreeCtr, .drawLive,
    .drawCat, .drawBufs, .drawLiveHist, .drawCatHist, .dram] := by
  unfold State.drawDone
  repeat' first
    | with_reducible exact .refl _ _
    | exact rfl
    | with_reducible apply State.Touches.after (State.releaseSlot_touches _ _ _)
    | with_reducible apply State.Touches.after (State.encodeFrame_touches _ _ _ _)
    | with_reducible apply State.Touches.ite
    | split

theorem State.reassign_touches (s : State) : s.Touches (State.reassign s) [.regs, .ctlLatches, .drawCores, .drawReassign] := by
  unfold State.reassign
  repeat' first
    | with_reducible exact .refl _ _
    | exact rfl
    | with_reducible apply State.Touches.after (State.raise_touches _ _ _)
    | with_reducible apply State.Touches.after (State.showCores_touches _)
    | with_reducible apply State.Touches.ite
    | with_reducible apply State.Touches.set

theorem State.recRelease_touches (s : State) (f : Nat) : s.Touches (State.recRelease s f) [.drawBufs] := by
  unfold State.recRelease
  repeat' first
    | with_reducible exact .refl _ _
    | exact rfl
    | with_reducible apply State.Touches.set

theorem State.drawStart_touches (s : State) : s.Touches (State.drawStart s) [.regs, .drawCount, .drawLive, .drawCat, .drawBufs,
    .drawStalled, .drawLiveHist, .drawCatHist, .drawCores, .drawReassign] := by
  unfold State.drawStart
  repeat' first
    | with_reducible exact .refl _ _
    | exact rfl
    | with_reducible apply State.Touches.after (State.setFld_touches _ _ _ _)
    | with_reducible apply State.Touches.after (State.showCores_touches _)
    | with_reducible apply State.Touches.after (State.showDraw_touches _)
    | with_reducible apply State.Touches.foldl
    | intro _
    | with_reducible apply State.Touches.set

theorem State.drawStall_touches (s : State) (f : Nat) : s.Touches (State.drawStall s f) [.regs, .ctlLatches, .drawStalled] := by
  unfold State.drawStall
  repeat' first
    | with_reducible exact .refl _ _
    | exact rfl
    | with_reducible apply State.Touches.after (State.count_touches _ _ _)
    | with_reducible apply State.Touches.after (State.raise_touches _ _ _)
    | with_reducible apply State.Touches.ite
    | with_reducible apply State.Touches.set

theorem State.coreFault_touches (s : State) (core : Nat) : s.Touches (State.coreFault s core) [.regs, .ctlLatches, .ingressSlots,
    .drawLive, .drawReassign] := by
  unfold State.coreFault
  repeat' first
    | with_reducible exact .refl _ _
    | exact rfl
    | with_reducible apply State.Touches.after (State.setFld_touches _ _ _ _)
    | with_reducible apply State.Touches.after (State.raise_touches _ _ _)
    | with_reducible apply State.Touches.after (State.showRing_touches _)
    | with_reducible apply State.Touches.after (State.putSlot_touches _ _ _)
    | split
    | with_reducible apply State.Touches.set

theorem State.drawBegin_touches (s : State) (f : Nat) (catchup : Bool) : s.Touches (s.drawBegin f catchup) [.regs, .drawCount, .drawLive,
    .drawCat, .drawBufs, .drawStalled] := by
  unfold State.drawBegin
  extract_lets flags d _ w
  have h0 : s.Touches { s with draw := if catchup then { w with cat := some d } else { w with live := some d } }
      [.regs, .drawCount, .drawLive, .drawCat, .drawBufs, .drawStalled] :=
    .of_mix (by cases catchup <;> rfl) rfl
  have h1 := h0.step (State.showDraw_touches _) rfl
  exact h1.step (State.showCores_touches _) rfl

theorem State.putRend_touches (s : State) (q : Pic) (n : Nat) (r : RendSt) : s.Touches (State.putRend s q n r) [.splitPics] := by
  unfold State.putRend
  repeat' first
    | with_reducible exact .refl _ _
    | exact rfl
    | with_reducible apply State.Touches.after (State.putPic_touches _ _)

theorem State.writeGroup_touches (s : State) (q : Pic) (n : Nat) (g : Nat) : s.Touches (State.writeGroup s q n g) [.dram] := by
  unfold State.writeGroup
  repeat' first
    | with_reducible exact .refl _ _
    | exact rfl
    | with_reducible apply State.Touches.after (State.pokeN_touches _ _ _)
    | with_reducible apply State.Touches.foldl
    | intro _

theorem State.publish_touches (s : State) (n : Nat) : s.Touches (State.publish s n) [.regs, .ctlLatches, .splitPics, .splitNewest, .dram]
    := by
  unfold State.publish
  repeat' first
    | with_reducible exact .refl _ _
    | exact rfl
    | with_reducible apply State.Touches.after (State.countBy_touches _ _ _ _)
    | with_reducible apply State.Touches.after (State.raiseIf_touches _ _ _ _)
    | with_reducible apply State.Touches.after (State.putRend_touches _ _ _ _)
    | with_reducible apply State.Touches.after (State.writeGroup_touches _ _ _ _)
    | split
    | with_reducible apply State.Touches.set

theorem State.rendDone_touches (s : State) (n : Nat) : s.Touches (State.rendDone s n) [.regs, .ctlLatches, .splitPics] := by
  unfold State.rendDone
  repeat' first
    | with_reducible exact .refl _ _
    | exact rfl
    | with_reducible apply State.Touches.after (State.setFld64_touches _ _ _ _ _)
    | with_reducible apply State.Touches.after (noteFreed_touches _ _)
    | with_reducible apply State.Touches.after (State.dropPics_touches _)
    | with_reducible apply State.Touches.after (State.putRend_touches _ _ _ _)
    | with_reducible apply State.Touches.ite
    | split

theorem State.splitBegin_touches (s : State) (n : Nat) : s.Touches (State.splitBegin s n) [.regs, .ctlLatches, .splitPics, .splitBufs,
    .splitHolds] := by
  unfold State.splitBegin
  repeat' first
    | with_reducible exact .refl _ _
    | exact rfl
    | with_reducible apply State.Touches.after (State.count_touches _ _ _)
    | with_reducible apply State.Touches.after (State.raise_touches _ _ _)
    | with_reducible apply State.Touches.after (State.putRend_touches _ _ _ _)
    | split
    | with_reducible apply State.Touches.set

theorem State.splitStart_touches (s : State) : s.Touches (State.splitStart s) [.regs, .splitPics, .splitNewest, .splitBufs] := by
  unfold State.splitStart
  repeat' first
    | with_reducible exact .refl _ _
    | exact rfl
    | with_reducible apply State.Touches.after (State.setFld_touches _ _ _ _)
    | with_reducible apply State.Touches.foldl
    | intro _
    | with_reducible apply State.Touches.set

theorem State.freeBuf_touches (s : State) (c : Reader) (n : Nat) (f : Nat) : s.Touches (State.freeBuf s c n f) [.splitHolds] := by
  unfold State.freeBuf
  repeat' first
    | with_reducible exact .refl _ _
    | exact rfl
    | with_reducible apply State.Touches.set

theorem State.holdBuf_touches (s : State) (c : Reader) (n : Nat) (f : Nat) : s.Touches (State.holdBuf s c n f) [.splitHolds] := by
  unfold State.holdBuf
  repeat' first
    | with_reducible exact .refl _ _
    | exact rfl
    | with_reducible apply State.Touches.set

theorem State.showHenc_touches (s : State) : s.Touches (State.showHenc s) [.regs] := by
  unfold State.showHenc
  repeat' first
    | with_reducible exact .refl _ _
    | exact rfl
    | with_reducible apply State.Touches.after (State.setFld_touches _ _ _ _)
    | with_reducible apply State.Touches.foldl
    | intro _

theorem State.showIris_touches (s : State) (k : Nat) (i : IrisSt) : s.Touches (State.showIris s k i) [.regs] := by
  unfold State.showIris
  repeat' first
    | with_reducible exact .refl _ _
    | exact rfl
    | with_reducible apply State.Touches.after (State.setFld_touches _ _ _ _)

theorem State.putStream_touches (s : State) (k : Nat) (h : HencSt) : s.Touches (State.putStream s k h) [.henc] := by
  unfold State.putStream
  repeat' first
    | with_reducible exact .refl _ _
    | exact rfl
    | with_reducible apply State.Touches.set

theorem State.picBegin_touches (s : State) (k : Nat) (f : Nat) : s.Touches (State.picBegin s k f) [.regs, .splitHolds, .henc] := by
  unfold State.picBegin
  repeat' first
    | with_reducible exact .refl _ _
    | exact rfl
    | with_reducible apply State.Touches.after (State.showHenc_touches _)
    | with_reducible apply State.Touches.after (State.showIris_touches _ _ _)
    | with_reducible apply State.Touches.after (State.putStream_touches _ _ _)
    | with_reducible apply State.Touches.set

theorem State.advanceGop_touches (s : State) (k : Nat) : s.Touches (State.advanceGop s k) [.henc] := by
  unfold State.advanceGop
  repeat' first
    | with_reducible exact .refl _ _
    | exact rfl
    | with_reducible apply State.Touches.after (State.putStream_touches _ _ _)
    | with_reducible apply State.Touches.ite

theorem State.advanceGops_touches (s : State) (k n : Nat) : s.Touches (s.advanceGops k n) [.henc] := by
  induction n generalizing s with
  | zero => exact .refl _ _
  | succ n ih =>
    unfold State.advanceGops
    exact .ite (.trans (State.advanceGop_touches ..) (ih _)) (.refl _ _)

theorem State.picDone_touches (s : State) (k : Nat) : s.Touches (State.picDone s k) [.regs, .ctlLatches, .splitHolds, .henc, .dram] := by
  unfold State.picDone
  repeat' first
    | with_reducible exact .refl _ _
    | exact rfl
    | with_reducible apply State.Touches.after (State.setFld64_touches _ _ _ _ _)
    | with_reducible apply State.Touches.after (State.countBy_touches _ _ _ _)
    | with_reducible apply State.Touches.after (State.setFld_touches _ _ _ _)
    | with_reducible apply State.Touches.after (State.raiseIf_touches _ _ _ _)
    | with_reducible apply State.Touches.after (State.pokeN_touches _ _ _)
    | with_reducible apply State.Touches.after (State.freeBuf_touches _ _ _ _)
    | with_reducible apply State.Touches.after (State.showHenc_touches _)
    | with_reducible apply State.Touches.after (State.showIris_touches _ _ _)
    | with_reducible apply State.Touches.after (State.putStream_touches _ _ _)
    | with_reducible apply State.Touches.after (State.advanceGops_touches _ _ _)
    | split

theorem State.hencFault_touches (s : State) (c : Nat) : s.Touches (State.hencFault s c) [.regs, .ctlLatches, .henc] := by
  unfold State.hencFault
  repeat' first
    | with_reducible exact .refl _ _
    | exact rfl
    | with_reducible apply State.Touches.after (State.setFld_touches _ _ _ _)
    | with_reducible apply State.Touches.after (State.raise_touches _ _ _)
    | with_reducible apply State.Touches.after (State.putStream_touches _ _ _)
    | split

theorem State.esRelease_touches (s : State) (k : Nat) (f : Nat) : s.Touches (State.esRelease s k f) [.henc] := by
  unfold State.esRelease
  repeat' first
    | with_reducible exact .refl _ _
    | exact rfl
    | with_reducible apply State.Touches.after (State.putStream_touches _ _ _)

theorem State.adopt_touches (s : State) : s.Touches (State.adopt s) [.regs, .ctlLatches, .henc] := by
  unfold State.adopt
  repeat' first
    | with_reducible exact .refl _ _
    | exact rfl
    | with_reducible apply State.Touches.after (State.raise_touches _ _ _)
    | with_reducible apply State.Touches.after (State.showHenc_touches _)
    | with_reducible apply State.Touches.after (State.putStream_touches _ _ _)
    | with_reducible apply State.Touches.ite
    | with_reducible apply State.Touches.foldl
    | intro _

theorem State.hencStart_touches (s : State) : s.Touches (State.hencStart s) [.regs, .splitHolds, .henc] := by
  unfold State.hencStart
  repeat' first
    | with_reducible exact .refl _ _
    | exact rfl
    | with_reducible apply State.Touches.after (State.setFld_touches _ _ _ _)
    | with_reducible apply State.Touches.after (State.showHenc_touches _)
    | with_reducible apply State.Touches.after (State.showIris_touches _ _ _)
    | with_reducible apply State.Touches.ite
    | with_reducible apply State.Touches.foldl
    | intro _
    | with_reducible apply State.Touches.set

theorem State.picStall_touches (s : State) (k : Nat) (f : Nat) : s.Touches (State.picStall s k f) [.regs, .ctlLatches, .henc] := by
  unfold State.picStall
  repeat' first
    | with_reducible exact .refl _ _
    | exact rfl
    | with_reducible apply State.Touches.after (State.count_touches _ _ _)
    | with_reducible apply State.Touches.after (State.raise_touches _ _ _)
    | with_reducible apply State.Touches.after (State.putStream_touches _ _ _)
    | with_reducible apply State.Touches.ite

theorem State.drdecBegin_touches (s : State) : s.Touches (State.drdecBegin s) [.regs, .ctlSnaps, .ctlGroups, .ctlLatches,
    .ingressFrameVals, .drdecCur] := by
  unfold State.drdecBegin
  repeat' first
    | with_reducible exact .refl _ _
    | exact rfl
    | with_reducible apply State.Touches.after (State.frameValues_touches _ _)
    | with_reducible apply State.Touches.after (State.setFrameNow_touches _ _)
    | with_reducible apply State.Touches.ite
    | with_reducible apply State.Touches.set

theorem writeDrdecInProd_touches (r : Req) (v : Word) (s : State) : s.Touches (writeDrdecInProd r v s) [.out, .regs, .ctlLoHold,
    .ctlW1Done, .ctlSnaps, .ctlGroups, .ctlLatches, .ctlBusErrHeld, .hqPci0, .hqPci1, .ingressFrameVals, .drdecCur] := by
  unfold writeDrdecInProd
  repeat' first
    | with_reducible exact .refl _ _
    | exact rfl
    | with_reducible refine withWrite_touches _ _ _ _ _ _ (fun _ _ _ => ?_) ?_
    | with_reducible apply State.Touches.after (plainStore_touches _ _ _ _ _ _)
    | with_reducible apply State.Touches.after (State.drdecBegin_touches _)

theorem State.putDec_touches (s : State) (n : Nat) (h : HdecSt) : s.Touches (State.putDec s n h) [.hdec] := by
  unfold State.putDec
  repeat' first
    | with_reducible exact .refl _ _
    | exact rfl
    | with_reducible apply State.Touches.set

theorem State.discardAu_touches (s : State) (n : Nat) : s.Touches (State.discardAu s n) [.hdec] := by
  unfold State.discardAu
  repeat' first
    | with_reducible exact .refl _ _
    | exact rfl
    | with_reducible apply State.Touches.after (State.putDec_touches _ _ _)

theorem State.decOutput_touches (s : State) (n : Nat) (p : DecPic) : s.Touches (State.decOutput s n p) [.regs, .ctlLatches, .hdec, .dram]
    := by
  unfold State.decOutput
  repeat' first
    | with_reducible exact .refl _ _
    | exact rfl
    | with_reducible apply State.Touches.after (State.setFld64_touches _ _ _ _ _)
    | with_reducible apply State.Touches.after (State.setFld_touches _ _ _ _)
    | with_reducible apply State.Touches.after (State.raise_touches _ _ _)
    | with_reducible apply State.Touches.after (State.pokeN_touches _ _ _)
    | with_reducible apply State.Touches.after (State.putDec_touches _ _ _)
    | with_reducible apply State.Touches.foldl
    | intro _

theorem State.bump_touches (s : State) (n : Nat) (more : List DecPic → Bool) (m : Nat) : s.Touches (s.bump n more m) [.regs, .ctlLatches,
    .hdec, .dram] := by
  induction m generalizing s with
  | zero => exact .refl _ _
  | succ m ih =>
    unfold State.bump
    dsimp only
    split
    · exact .ite (.trans (.step ((State.putDec_touches ..).mono rfl) (State.decOutput_touches ..) rfl) (ih _)) (.refl _ _)
    · exact .refl _ _

theorem State.decodePic_touches (s : State) (n : Nat) (a : AuSet) : s.Touches (State.decodePic s n a) [.regs, .ctlLatches, .hdec, .dram]
    := by
  unfold State.decodePic
  repeat' first
    | with_reducible exact .refl _ _
    | exact rfl
    | with_reducible apply State.Touches.after (State.countBy_touches _ _ _ _)
    | with_reducible apply State.Touches.after (State.raiseIf_touches _ _ _ _)
    | with_reducible apply State.Touches.after (State.bump_touches _ _ _ _)
    | with_reducible apply State.Touches.after (State.putDec_touches _ _ _)
    | with_reducible apply State.Touches.ite

theorem State.concealPic_touches (s : State) (n : Nat) (frame : Nat) (crcBad : Bool) : s.Touches (State.concealPic s n frame crcBad)
    [.regs, .ctlLatches, .hdec, .dram] := by
  unfold State.concealPic
  repeat' first
    | with_reducible exact .refl _ _
    | exact rfl
    | with_reducible apply State.Touches.after (State.countBy_touches _ _ _ _)
    | with_reducible apply State.Touches.after (State.raise_touches _ _ _)
    | with_reducible apply State.Touches.after (State.bump_touches _ _ _ _)
    | with_reducible apply State.Touches.after (State.putDec_touches _ _ _)
    | split
    | dsimp only

theorem State.decodeAu_touches (s : State) (n : Nat) (frame : Nat) (au : List Byte) (crcBad : Bool) : s.Touches (State.decodeAu s n frame
    au crcBad) [.regs, .ctlLatches, .hdec, .dram] := by
  unfold State.decodeAu
  repeat' first
    | with_reducible exact .refl _ _
    | exact rfl
    | with_reducible apply State.Touches.after (State.raise_touches _ _ _)
    | with_reducible apply State.Touches.after (State.raiseIf_touches _ _ _ _)
    | with_reducible apply State.Touches.after (State.discardAu_touches _ _)
    | with_reducible apply State.Touches.after (State.decodePic_touches _ _ _)
    | with_reducible apply State.Touches.after (State.putDec_touches _ _ _)
    | with_reducible apply State.Touches.after (State.concealPic_touches _ _ _ _)
    | split
    | dsimp only

theorem writeHdecInProd_touches (r : Req) (n : Nat) (v : Word) (s : State) : s.Touches (writeHdecInProd r n v s) [.out, .regs,
    .ctlLoHold, .ctlW1Done, .ctlLatches, .ctlBusErrHeld, .hqPci0, .hqPci1] := by
  unfold writeHdecInProd
  repeat' first
    | with_reducible exact .refl _ _
    | exact rfl
    | with_reducible apply State.Touches.after (State.reject_touches _ _)
    | with_reducible refine withWrite_touches _ _ _ _ _ _ (fun _ _ _ => ?_) ?_
    | with_reducible apply State.Touches.after (plainStore_touches _ _ _ _ _ _)
    | with_reducible apply State.Touches.ite

theorem State.hdecDone_touches (s : State) (n : Nat) : s.Touches (State.hdecDone s n) [.regs, .ctlLatches, .hdec, .dram] := by
  unfold State.hdecDone
  repeat' first
    | with_reducible exact .refl _ _
    | exact rfl
    | with_reducible apply State.Touches.after (State.setFld_touches _ _ _ _)
    | with_reducible apply State.Touches.after (State.raise_touches _ _ _)
    | with_reducible apply State.Touches.after (State.raiseIf_touches _ _ _ _)
    | with_reducible apply State.Touches.after (State.decodeAu_touches _ _ _ _ _)
    | with_reducible apply State.Touches.after (State.putDec_touches _ _ _)
    | with_reducible apply State.Touches.ite

theorem State.drdecDone_touches (s : State) : s.Touches (State.drdecDone s) [.regs, .ctlSnaps, .ctlGroups, .ctlLatches,
    .ingressFrameVals, .drdecOutCount, .drdecLast, .drdecCur, .drdecRecords, .drdecReady, .dram] := by
  unfold State.drdecDone
  repeat' first
    | with_reducible exact .refl _ _
    | exact rfl
    | with_reducible apply State.Touches.after (State.setFld64_touches _ _ _ _ _)
    | with_reducible apply State.Touches.after (State.countBy_touches _ _ _ _)
    | with_reducible apply State.Touches.after (State.setFld_touches _ _ _ _)
    | with_reducible apply State.Touches.after (State.raise_touches _ _ _)
    | with_reducible apply State.Touches.after (State.raiseIf_touches _ _ _ _)
    | with_reducible apply State.Touches.after (State.pokeN_touches _ _ _)
    | with_reducible apply State.Touches.after (State.drdecBegin_touches _)
    | with_reducible apply State.Touches.foldl
    | split
    | intro _
    | with_reducible apply State.Touches.set

theorem State.decodersStart_touches (s : State) : s.Touches (State.decodersStart s) [.regs, .drdecOutCount, .drdecLast, .drdecCur,
    .drdecRecords, .drdecReady, .hdec] := by
  unfold State.decodersStart
  repeat' first
    | with_reducible exact .refl _ _
    | exact rfl
    | with_reducible apply State.Touches.after (State.setFld_touches _ _ _ _)
    | with_reducible apply State.Touches.foldl
    | intro _
    | with_reducible apply State.Touches.set

theorem State.restoreWord_touches (s : State) (p : Nat) (o : Nat) (m : Word) (v : Word) : s.Touches (State.restoreWord s p o m v) [.regs]
    := by
  unfold State.restoreWord
  repeat' first
    | with_reducible exact .refl _ _
    | exact rfl
    | with_reducible apply State.Touches.after (State.wr_touches _ _ _)
    | with_reducible apply State.Touches.ite

theorem State.restoreEntry_touches (s : State) (p : Nat) (o : Nat) (value : Nat) : s.Touches (State.restoreEntry s p o value) [.regs] :=
    by
  unfold State.restoreEntry
  repeat' first
    | with_reducible exact .refl _ _
    | exact rfl
    | with_reducible apply State.Touches.after (State.count_touches _ _ _)
    | with_reducible apply State.Touches.after (State.restoreWord_touches _ _ _ _ _)
    | with_reducible apply State.Touches.ite

theorem State.restoreEntries_touches (s : State) (b : List Byte) (n a : Nat) : s.Touches (s.restoreEntries b n a) [.regs] := by
  induction n generalizing s a with
  | zero => exact .refl _ _
  | succ n ih => exact .trans ((State.restoreEntry_touches ..).mono rfl) (ih _ _)

theorem State.restore_touches (s : State) (strap2 : Bool) : s.Touches (State.restore s strap2) [.regs, .ctlLatches] := by
  unfold State.restore
  repeat' first
    | with_reducible exact .refl _ _
    | exact rfl
    | with_reducible apply State.Touches.after (State.setFld_touches _ _ _ _)
    | with_reducible apply State.Touches.after (State.raise_touches _ _ _)
    | with_reducible apply State.Touches.after (noteRiseAll_touches _ _)
    | with_reducible apply State.Touches.after (State.raiseIf_touches _ _ _ _)
    | with_reducible apply State.Touches.after (State.showCorr_touches _)
    | with_reducible apply State.Touches.after (State.restoreEntries_touches _ _ _ _)
    | split

theorem State.startSave_touches (s : State) (q : SaveReq) : s.Touches (s.startSave q) [.rsmBank0, .rsmBank1, .rsmRunning] := by
  unfold State.startSave Rsm.setBank
  refine .of_mix ?_ rfl
  dsimp only
  split <;> rfl

theorem State.nextSave_touches (s : State) : s.Touches (State.nextSave s) [.rsmBank0, .rsmBank1, .rsmRunning, .rsmHeld, .rsmWrites] := by
  unfold State.nextSave
  repeat' first
    | with_reducible exact .refl _ _
    | exact rfl
    | with_reducible apply State.Touches.after (State.startSave_touches _ _)
    | split
    | with_reducible apply State.Touches.set

theorem State.endSave_touches (s : State) (ok : Bool) : s.Touches (State.endSave s ok) [.regs, .ctlLatches, .rsmBank0, .rsmBank1,
    .rsmRunning, .rsmHeld, .rsmWrites, .hqCmds, .hqGhosts, .hqErrors, .hqErrCount0, .hqErrCount1] := by
  unfold State.endSave
  repeat' first
    | with_reducible exact .refl _ _
    | exact rfl
    | with_reducible apply State.Touches.after (State.count_touches _ _ _)
    | with_reducible apply State.Touches.after (State.setFld_touches _ _ _ _)
    | with_reducible apply State.Touches.after (State.raise_touches _ _ _)
    | with_reducible apply State.Touches.after (State.finish_touches _ _ _ _ _)
    | with_reducible apply State.Touches.after (State.nextSave_touches _)
    | with_reducible apply State.Touches.foldl
    | split
    | intro _
    | with_reducible apply State.Touches.set

theorem State.requestSave_touches (s : State) (cause : Nat) (cmds : List Nat) : s.Touches (State.requestSave s cause cmds) [.regs,
    .ctlLatches, .rsmBank0, .rsmBank1, .rsmRunning, .rsmHeld] := by
  unfold State.requestSave
  repeat' first
    | with_reducible exact .refl _ _
    | exact rfl
    | with_reducible apply State.Touches.after (State.raise_touches _ _ _)
    | with_reducible apply State.Touches.after (State.startSave_touches _ _)
    | split
    | with_reducible apply State.Touches.set

theorem writeRstoreCtrl_touches (r : Req) (v : Word) (s : State) : s.Touches (writeRstoreCtrl r v s) [.out, .regs, .ctlW1Done,
    .ctlLatches, .ctlBusErrHeld, .rsmBank0, .rsmBank1, .rsmRunning, .rsmHeld, .hqPci0, .hqPci1] := by
  unfold writeRstoreCtrl
  repeat' first
    | with_reducible exact .refl _ _
    | exact rfl
    | with_reducible apply State.Touches.after (State.setFld_touches _ _ _ _)
    | with_reducible apply State.Touches.after (State.reject_touches _ _)
    | with_reducible refine withWrite_touches _ _ _ _ _ _ (fun _ _ _ => ?_) ?_
    | with_reducible apply State.Touches.after (State.requestSave_touches _ _ _)
    | with_reducible apply State.Touches.ite
    | with_reducible apply State.Touches.set

theorem State.autoSave_touches (s : State) (cause : Nat) : s.Touches (State.autoSave s cause) [.regs, .ctlLatches, .rsmBank0, .rsmBank1,
    .rsmRunning, .rsmHeld] := by
  unfold State.autoSave
  repeat' first
    | with_reducible exact .refl _ _
    | exact rfl
    | with_reducible apply State.Touches.after (State.requestSave_touches _ _ _)
    | with_reducible apply State.Touches.ite

theorem State.writeSettings_touches (s : State) (uid : Nat) (image : List Byte) : s.Touches (State.writeSettings s uid image) [.rsmBank0,
    .rsmBank1, .rsmRunning, .rsmWrites] := by
  unfold State.writeSettings
  repeat' first
    | with_reducible exact .refl _ _
    | exact rfl
    | with_reducible apply State.Touches.after (State.startSave_touches _ _)
    | split
    | with_reducible apply State.Touches.set

end Sys2Proof.Machine
end

section
/-! SUPPORT. Footprints of media -/

set_option Elab.async false

namespace Sys2Proof.Machine

theorem State.setMport_touches (s : State) (k : Nat) (v : Nat) : s.Touches (State.setMport s k v) [.regs] := by
  unfold State.setMport
  repeat' first
    | with_reducible exact .refl _ _
    | exact rfl
    | with_reducible apply State.Touches.after (State.setFld_touches _ _ _ _)

theorem State.portDown_touches (s : State) (k : Nat) (v : Nat) : s.Touches (State.portDown s k v) [.regs] := by
  unfold State.portDown
  repeat' first
    | with_reducible exact .refl _ _
    | exact rfl
    | with_reducible apply State.Touches.after (State.setFld_touches _ _ _ _)
    | with_reducible apply State.Touches.after (State.setMport_touches _ _ _)

theorem State.putDrive_touches (s : State) (k : Nat) (d : DriveSt) : s.Touches (State.putDrive s k d) [.mediaDrives] := by
  unfold State.putDrive
  repeat' first
    | with_reducible exact .refl _ _
    | exact rfl
    | with_reducible apply State.setRec_touches

theorem State.countWritten_touches (s : State) (k : Nat) (n : Nat) : s.Touches (State.countWritten s k n) [.regs] := by
  unfold State.countWritten
  repeat' first
    | with_reducible exact .refl _ _
    | exact rfl
    | with_reducible apply State.Touches.after (State.setFld64_touches _ _ _ _ _)

theorem State.volPoke_touches (s : State) (n a : Nat) (l : List Byte) : s.Touches (s.volPoke n a l) [.regs, .mediaDrives] := by
  induction n generalizing s a l with
  | zero => exact .refl _ _
  | succ n ih =>
    unfold State.volPoke
    split
    · exact .refl _ _
    · exact .ite (.refl _ _) (.trans (.step ((State.putDrive_touches ..).mono rfl) (State.countWritten_touches ..) rfl) (ih _ _ _))

theorem State.showVolume_touches (s : State) : s.Touches (State.showVolume s) [.regs] := by
  unfold State.showVolume
  repeat' first
    | with_reducible exact .refl _ _
    | exact rfl
    | with_reducible apply State.Touches.after (State.setFld_touches _ _ _ _)
    | split

theorem State.unmount_touches (s : State) : s.Touches (State.unmount s) [.regs, .mediaVol] := by
  unfold State.unmount
  repeat' first
    | with_reducible exact .refl _ _
    | exact rfl
    | with_reducible apply State.setRec_touches
    | with_reducible apply State.Touches.after (State.showVolume_touches _)

theorem State.leaveVolume_touches (s : State) (k : Nat) : s.Touches (State.leaveVolume s k) [.regs, .mediaVol] := by
  unfold State.leaveVolume
  repeat' first
    | with_reducible exact .refl _ _
    | exact rfl
    | with_reducible apply State.Touches.after (State.unmount_touches _)
    | with_reducible apply State.Touches.ite

theorem writeMediaCtrl_touches (r : Req) (k : Nat) (v : Word) (s : State) : s.Touches (writeMediaCtrl r k v s) [.out, .regs, .ctlW1Done,
    .ctlLatches, .ctlBusErrHeld, .hqPci0, .hqPci1, .mediaDrives, .mediaVol] := by
  unfold writeMediaCtrl
  repeat' first
    | with_reducible exact .refl _ _
    | exact rfl
    | with_reducible apply State.Touches.after (State.setOn_touches _ _ _ _)
    | with_reducible apply State.Touches.after (State.reject_touches _ _)
    | with_reducible refine withWrite_touches _ _ _ _ _ _ (fun _ _ _ => ?_) ?_
    | with_reducible apply State.Touches.after (State.portDown_touches _ _ _)
    | with_reducible apply State.Touches.after (State.leaveVolume_touches _ _)
    | with_reducible apply State.Touches.after (State.putDrive_touches _ _ _)
    | with_reducible apply State.Touches.ite

theorem State.mediaStart_touches (s : State) : s.Touches (State.mediaStart s) [.regs] := by
  unfold State.mediaStart
  repeat' first
    | with_reducible exact .refl _ _
    | exact rfl
    | with_reducible apply State.Touches.after (State.portDown_touches _ _ _)
    | with_reducible apply State.Touches.foldl
    | intro _

theorem State.writeDir_touches (s : State) : s.Touches (State.writeDir s) [.regs, .mediaDrives, .mediaVol] := by
  unfold State.writeDir
  repeat' first
    | with_reducible exact .refl _ _
    | exact rfl
    | with_reducible apply State.setRec_touches
    | with_reducible apply State.Touches.after (State.putDrive_touches _ _ _)
    | with_reducible apply State.Touches.after (State.countWritten_touches _ _ _)
    | with_reducible apply State.Touches.foldl
    | split
    | intro _

theorem State.format_touches (s : State) : s.Touches (State.format s) [.seed, .regs, .ctlLatches, .mediaDrives, .mediaVol] := by
  unfold State.format
  repeat' first
    | with_reducible exact .refl _ _
    | exact rfl
    | with_reducible apply State.Touches.after (State.raise_touches _ _ _)
    | with_reducible apply State.setRec_touches
    | with_reducible apply State.Touches.after (State.showVolume_touches _)
    | with_reducible apply State.Touches.after (State.writeDir_touches _)
    | with_reducible apply State.Touches.after (State.putDrive_touches _ _ _)
    | with_reducible apply State.Touches.after (State.setMport_touches _ _ _)
    | with_reducible apply State.Touches.ite
    | with_reducible apply State.Touches.foldl
    | intro _
    | with_reducible apply State.Touches.set

theorem State.volWrite_touches (s : State) (frames : List Nat) (fua : Bool) (n a : Nat) (l : List Byte) : s.Touches (s.volWrite frames
    fua n a l) [.mediaDrives] := by
  induction n generalizing s a l with
  | zero => exact .refl _ _
  | succ n ih =>
    unfold State.volWrite
    split
    · exact .refl _ _
    · exact .ite (.refl _ _) (.trans ((State.putDrive_touches ..).mono rfl) (ih _ _ _))

theorem State.mount_touches (s : State) : s.Touches (State.mount s) [.regs, .ctlLatches, .mediaVol] := by
  unfold State.mount
  repeat' first
    | with_reducible exact .refl _ _
    | exact rfl
    | with_reducible apply State.Touches.after (State.raise_touches _ _ _)
    | with_reducible apply State.setRec_touches
    | with_reducible apply State.Touches.after (State.showVolume_touches _)
    | with_reducible apply State.Touches.after (State.setMport_touches _ _ _)
    | with_reducible apply State.Touches.ite
    | with_reducible apply State.Touches.foldl
    | intro _

theorem State.portReady_touches (s : State) (k : Nat) (i : DriveInfo) : s.Touches (State.portReady s k i) [.regs, .ctlLatches,
    .mediaDrives, .mediaVol] := by
  unfold State.portReady
  repeat' first
    | with_reducible exact .refl _ _
    | exact rfl
    | with_reducible apply State.Touches.after (State.setFld64_touches _ _ _ _ _)
    | with_reducible apply State.Touches.after (State.setFld_touches _ _ _ _)
    | with_reducible apply State.Touches.after (State.raise_touches _ _ _)
    | with_reducible apply State.Touches.after (State.portDown_touches _ _ _)
    | with_reducible apply State.Touches.after (State.putDrive_touches _ _ _)
    | with_reducible apply State.Touches.after (State.setMport_touches _ _ _)
    | with_reducible apply State.Touches.after (State.mount_touches _)
    | with_reducible apply State.Touches.ite

theorem State.setReel_touches (s : State) (r : ReelSt) : s.Touches (State.setReel s r) [.mediaReel] := by
  unfold State.setReel
  repeat' first
    | with_reducible exact .refl _ _
    | exact rfl
    | with_reducible apply State.setRec_touches

theorem State.showQueued_touches (s : State) : s.Touches (State.showQueued s) [.regs] := by
  unfold State.showQueued
  repeat' first
    | with_reducible exact .refl _ _
    | exact rfl
    | with_reducible apply State.Touches.after (State.setFld_touches _ _ _ _)

theorem State.setEntry_touches (s : State) (n : Nat) (e : DirEntry) : s.Touches (State.setEntry s n e) [.regs, .mediaDrives, .mediaVol]
    := by
  unfold State.setEntry
  repeat' first
    | with_reducible exact .refl _ _
    | exact rfl
    | with_reducible apply State.setRec_touches
    | with_reducible apply State.Touches.after (State.writeDir_touches _)
    | split

theorem State.showRecorder_touches (s : State) : s.Touches (State.showRecorder s) [.regs] := by
  unfold State.showRecorder
  repeat' first
    | with_reducible exact .refl _ _
    | exact rfl
    | with_reducible apply State.Touches.after (State.setFld_touches _ _ _ _)
    | with_reducible apply State.Touches.after (State.showQueued_touches _)

theorem State.releaseOver_touches (s : State) : s.Touches (State.releaseOver s) [.regs, .splitHolds, .drawBufs, .henc] := by
  unfold State.releaseOver
  repeat' first
    | with_reducible exact .refl _ _
    | exact rfl
    | with_reducible apply State.Touches.after (State.recRelease_touches _ _)
    | with_reducible apply State.Touches.after (State.freeBuf_touches _ _ _ _)
    | with_reducible apply State.Touches.after (State.esRelease_touches _ _ _)
    | with_reducible apply State.Touches.after (State.showQueued_touches _)
    | with_reducible apply State.Touches.foldl
    | intro _

theorem State.endReel_touches (s : State) : s.Touches (State.endReel s) [.regs, .ctlLatches, .splitHolds, .drawBufs, .henc, .mediaDrives,
    .mediaVol, .mediaReel] := by
  unfold State.endReel
  repeat' first
    | with_reducible exact .refl _ _
    | exact rfl
    | with_reducible apply State.Touches.after (State.raise_touches _ _ _)
    | with_reducible apply State.Touches.after (State.setReel_touches _ _)
    | with_reducible apply State.Touches.after (State.setEntry_touches _ _ _)
    | with_reducible apply State.Touches.after (State.showRecorder_touches _)
    | with_reducible apply State.Touches.after (State.releaseOver_touches _)

theorem State.keepHash_touches (s : State) (f : Nat) (kind : Nat) (index : Nat) (d : Nat × List Byte) : s.Touches (State.keepHash s f
    kind index d) [.mediaReel] := by
  unfold State.keepHash
  repeat' first
    | with_reducible exact .refl _ _
    | exact rfl
    | with_reducible apply State.Touches.after (State.setReel_touches _ _)

theorem State.giveUp_touches (s : State) (f : Nat) : s.Touches (State.giveUp s f) [.splitHolds, .drawBufs, .henc, .mediaReel] := by
  unfold State.giveUp
  repeat' first
    | with_reducible exact .refl _ _
    | exact rfl
    | with_reducible apply State.Touches.after (State.recRelease_touches _ _)
    | with_reducible apply State.Touches.after (State.freeBuf_touches _ _ _ _)
    | with_reducible apply State.Touches.after (State.esRelease_touches _ _ _)
    | with_reducible apply State.Touches.after (State.keepHash_touches _ _ _ _ _)
    | with_reducible apply State.Touches.ite
    | with_reducible apply State.Touches.foldl
    | intro _

theorem State.dropGroup_touches (s : State) (f cause : Nat) : s.Touches (s.dropGroup f cause) [.regs, .ctlLatches, .splitHolds,
    .drawBufs, .henc, .mediaReel, .mediaDrops, .mediaDropTotal] := by
  unfold State.dropGroup
  have h1 : s.Touches (s.giveUp f) [.regs, .ctlLatches, .splitHolds, .drawBufs, .henc, .mediaReel, .mediaDrops, .mediaDropTotal] :=
      (State.giveUp_touches ..).mono rfl
  generalize s.giveUp f = s1 at h1 ⊢
  refine .step (.step ?_ (State.count_touches ..) rfl) (State.raise_touches ..) rfl
  exact State.setRec_touches _ h1 rfl rfl

theorem State.countSign_touches (s : State) (signed : Bool) : s.Touches (State.countSign s signed) [.seed, .regs] := by
  unfold State.countSign
  repeat' first
    | with_reducible exact .refl _ _
    | exact rfl
    | with_reducible apply State.Touches.after (State.count_touches _ _ _)
    | with_reducible apply State.Touches.ite
    | with_reducible apply State.Touches.set

theorem State.portFail_touches (s : State) (k : Nat) : s.Touches (State.portFail s k) [.regs, .ctlLatches, .hqCmds, .hqGhosts, .hqErrors,
    .hqErrCount0, .hqErrCount1, .mediaDrives, .mediaReel] := by
  unfold State.portFail
  repeat' first
    | with_reducible exact .refl _ _
    | exact rfl
    | with_reducible apply State.Touches.after (State.raise_touches _ _ _)
    | with_reducible apply State.Touches.after (State.finish_touches _ _ _ _ _)
    | with_reducible apply State.Touches.after (State.setReel_touches _ _)
    | with_reducible apply State.Touches.after (State.putDrive_touches _ _ _)
    | with_reducible apply State.Touches.after (State.setMport_touches _ _ _)
    | with_reducible apply State.Touches.ite
    | with_reducible apply State.Touches.foldl
    | intro _

theorem State.reelWrite_touches (s : State) (frames : List Nat) (fua : Bool) (off : Nat) (data : List Byte) : s.Touches (State.reelWrite
    s frames fua off data) [.regs, .ctlLatches, .hqCmds, .hqGhosts, .hqErrors, .hqErrCount0, .hqErrCount1, .mediaDrives, .mediaReel] := by
  unfold State.reelWrite
  repeat' first
    | with_reducible exact .refl _ _
    | exact rfl
    | with_reducible apply State.Touches.after (State.count_touches _ _ _)
    | with_reducible apply State.Touches.after (State.raise_touches _ _ _)
    | with_reducible apply State.Touches.after (State.volWrite_touches _ _ _ _ _ _)
    | with_reducible apply State.Touches.after (State.portFail_touches _ _)
    | with_reducible apply State.Touches.ite
    | split

theorem State.reelAppend_touches (s : State) (frames : List Nat) (data : List Byte) : s.Touches (State.reelAppend s frames data) [.regs,
    .ctlLatches, .hqCmds, .hqGhosts, .hqErrors, .hqErrCount0, .hqErrCount1, .mediaDrives, .mediaReel] := by
  unfold State.reelAppend
  repeat' first
    | with_reducible exact .refl _ _
    | exact rfl
    | with_reducible apply State.Touches.after (State.setReel_touches _ _)
    | with_reducible apply State.Touches.after (State.reelWrite_touches _ _ _ _ _)
    | with_reducible apply State.Touches.ite

theorem State.writeBetween_touches (s : State) (type : Nat) (frame : Nat) (payload : List Byte) : s.Touches (State.writeBetween s type
    frame payload) [.regs, .ctlLatches, .hqCmds, .hqGhosts, .hqErrors, .hqErrCount0, .hqErrCount1, .mediaDrives, .mediaReel] := by
  unfold State.writeBetween
  repeat' first
    | with_reducible exact .refl _ _
    | exact rfl
    | with_reducible apply State.Touches.after (State.setReel_touches _ _)
    | with_reducible apply State.Touches.after (State.reelAppend_touches _ _ _)

theorem State.endDrop_touches (s : State) (f : Nat) (cause : Nat) (due : Bool) : s.Touches (State.endDrop s f cause due) [.regs,
    .ctlLatches, .hqCmds, .hqGhosts, .hqErrors, .hqErrCount0, .hqErrCount1, .mediaDrives, .mediaReel] := by
  unfold State.endDrop
  repeat' first
    | with_reducible exact .refl _ _
    | exact rfl
    | with_reducible apply State.Touches.after (State.setReel_touches _ _)
    | with_reducible apply State.Touches.after (State.writeBetween_touches _ _ _ _)
    | with_reducible apply State.Touches.ite

theorem writeRecorderCtrl_touches (q : Req) (v : Word) (s : State) : s.Touches (writeRecorderCtrl q v s) [.out, .seed, .regs, .ctlLoHold,
    .ctlW1Done, .ctlLatches, .ctlBusErrHeld, .hqPci0, .hqPci1, .mediaDrives, .mediaVol] := by
  unfold writeRecorderCtrl
  repeat' first
    | with_reducible exact .refl _ _
    | exact rfl
    | with_reducible apply State.Touches.after (State.reject_touches _ _)
    | with_reducible refine withWrite_touches _ _ _ _ _ _ (fun _ _ _ => ?_) ?_
    | with_reducible apply State.Touches.after (plainStore_touches _ _ _ _ _ _)
    | with_reducible apply State.Touches.after (State.format_touches _)
    | with_reducible apply State.Touches.ite

theorem State.beginFlush_touches (s : State) (close : Bool) : s.Touches (State.beginFlush s close) [.seed, .regs, .ctlLatches, .hqCmds,
    .hqGhosts, .hqErrors, .hqErrCount0, .hqErrCount1, .mediaDrives, .mediaReel] := by
  unfold State.beginFlush
  repeat' first
    | with_reducible exact .refl _ _
    | exact rfl
    | with_reducible apply State.Touches.after (State.setReel_touches _ _)
    | with_reducible apply State.Touches.after (State.countSign_touches _ _)
    | with_reducible apply State.Touches.after (State.showRecorder_touches _)
    | with_reducible apply State.Touches.after (State.reelAppend_touches _ _ _)

theorem State.pushFlush_touches (s : State) : s.Touches (State.pushFlush s) [.seed, .regs, .ctlLatches, .hqCmds, .hqGhosts, .hqErrors,
    .hqErrCount0, .hqErrCount1, .mediaDrives, .mediaReel] := by
  unfold State.pushFlush
  repeat' first
    | with_reducible exact .refl _ _
    | exact rfl
    | with_reducible apply State.Touches.after (State.beginFlush_touches _ _)
    | with_reducible apply State.Touches.ite

theorem runAppend_touches (h : HostData) (tag : Nat) (c : Cmd) (s : State) : s.Touches (runAppend h tag c s) [.seed, .regs, .ctlLatches,
    .hqCmds, .hqGhosts, .hqErrors, .hqErrCount0, .hqErrCount1, .mediaDrives, .mediaReel] := by
  unfold runAppend
  repeat' first
    | with_reducible exact .refl _ _
    | exact rfl
    | with_reducible apply State.Touches.after (State.finishTag_touches _ _ _ _ _ _)
    | with_reducible apply State.Touches.after (State.failBuf_touches _ _ _)
    | with_reducible apply State.Touches.after (State.setReel_touches _ _)
    | with_reducible apply State.Touches.after (State.showRecorder_touches _)
    | with_reducible apply State.Touches.after (State.pushFlush_touches _)
    | with_reducible apply State.Touches.after (State.writeBetween_touches _ _ _ _)
    | with_reducible apply State.Touches.ite
    | split

theorem State.putGroup_touches (s : State) (f : Nat) (b : List Byte) : s.Touches (State.putGroup s f b) [.regs, .ctlLatches, .hqCmds,
    .hqGhosts, .hqErrors, .hqErrCount0, .hqErrCount1, .mediaDrives, .mediaReel] := by
  unfold State.putGroup
  repeat' first
    | with_reducible exact .refl _ _
    | exact rfl
    | with_reducible apply State.Touches.after (State.setReel_touches _ _)
    | with_reducible apply State.Touches.after (State.reelAppend_touches _ _ _)

theorem State.takeGroup_touches (s : State) (f : Nat) : s.Touches (State.takeGroup s f) [.regs, .ctlLatches, .hqCmds, .hqGhosts,
    .hqErrors, .hqErrCount0, .hqErrCount1, .splitHolds, .drawBufs, .henc, .mediaDrives, .mediaReel, .mediaDrops, .mediaDropTotal] := by
  unfold State.takeGroup
  repeat' first
    | with_reducible exact .refl _ _
    | exact rfl
    | with_reducible apply State.Touches.after (State.raise_touches _ _ _)
    | with_reducible apply State.Touches.after (State.setReel_touches _ _)
    | with_reducible apply State.Touches.after (State.dropGroup_touches _ _ _)
    | with_reducible apply State.Touches.after (State.endDrop_touches _ _ _ _)
    | with_reducible apply State.Touches.after (State.putGroup_touches _ _ _)
    | split
    | dsimp only

theorem State.takeGroups_touches (s : State) (n : Nat) : s.Touches (s.takeGroups n) [.regs, .ctlLatches, .hqCmds, .hqGhosts, .hqErrors,
    .hqErrCount0, .hqErrCount1, .splitHolds, .drawBufs, .henc, .mediaDrives, .mediaReel, .mediaDrops, .mediaDropTotal] := by
  induction n generalizing s with
  | zero => exact .refl _ _
  | succ n ih =>
    unfold State.takeGroups
    split
    · exact .refl _ _
    · exact .ite (.refl _ _) (.trans (State.takeGroup_touches ..) (ih _))

theorem State.yieldBuffer_touches (s : State) (held : Bool) (f : Nat) : s.Touches (State.yieldBuffer s held f) [.regs, .ctlLatches,
    .splitHolds, .drawBufs, .henc, .mediaReel, .mediaDrops, .mediaDropTotal] := by
  unfold State.yieldBuffer
  repeat' first
    | with_reducible exact .refl _ _
    | exact rfl
    | with_reducible apply State.Touches.after (State.dropGroup_touches _ _ _)
    | with_reducible apply State.Touches.after (State.giveUp_touches _ _)
    | with_reducible apply State.Touches.ite

theorem State.drawFrameBegin_touches (s0 : State) : s0.Touches (State.drawFrameBegin s0) [.regs, .ctlLatches, .splitHolds, .drawCount,
    .drawLive, .drawCat, .drawBufs, .drawStalled, .henc, .mediaReel, .mediaDrops, .mediaDropTotal] := by
  unfold State.drawFrameBegin
  repeat' first
    | with_reducible exact .refl _ _
    | exact rfl
    | with_reducible apply State.Touches.after (State.drawStall_touches _ _)
    | with_reducible apply State.Touches.after (State.drawBegin_touches _ _ _)
    | with_reducible apply State.Touches.after (State.showRecorder_touches _)
    | with_reducible apply State.Touches.after (State.releaseOver_touches _)
    | with_reducible apply State.Touches.after (State.yieldBuffer_touches _ _ _)
    | split
    | dsimp only

theorem State.recorderStart_touches (s : State) : s.Touches (State.recorderStart s) [.regs] := by
  unfold State.recorderStart
  repeat' first
    | with_reducible exact .refl _ _
    | exact rfl
    | with_reducible apply State.Touches.after (State.setFld_touches _ _ _ _)
    | with_reducible apply State.Touches.foldl
    | intro _

theorem State.recover_touches (s : State) (nsid : Nat) : s.Touches (State.recover s nsid) [.seed, .regs, .ctlLatches, .mediaDrives,
    .mediaVol] := by
  unfold State.recover
  repeat' first
    | with_reducible exact .refl _ _
    | exact rfl
    | with_reducible apply State.Touches.after (State.raise_touches _ _ _)
    | with_reducible apply State.Touches.after (State.volPoke_touches _ _ _ _)
    | with_reducible apply State.Touches.after (State.setEntry_touches _ _ _)
    | with_reducible apply State.Touches.after (State.countSign_touches _ _)

theorem State.beginClose_touches (s : State) : s.Touches (State.beginClose s) [.seed, .regs, .ctlLatches, .hqCmds, .hqGhosts, .hqErrors,
    .hqErrCount0, .hqErrCount1, .mediaDrives, .mediaReel] := by
  unfold State.beginClose
  repeat' first
    | with_reducible exact .refl _ _
    | exact rfl
    | with_reducible apply State.Touches.after (State.setReel_touches _ _)
    | with_reducible apply State.Touches.after (State.showRecorder_touches _)
    | with_reducible apply State.Touches.after (State.pushFlush_touches _)
    | with_reducible apply State.Touches.ite

theorem State.openReel_touches (s : State) (b : Nat) : s.Touches (State.openReel s b) [.seed, .regs, .ctlLatches, .hqCmds, .hqGhosts,
    .hqErrors, .hqErrCount0, .hqErrCount1, .mediaDrives, .mediaVol, .mediaReel, .mediaDrops, .mediaDropTotal] := by
  unfold State.openReel
  repeat' first
    | with_reducible exact .refl _ _
    | exact rfl
    | with_reducible apply State.Touches.after (State.setFld64_touches _ _ _ _ _)
    | with_reducible apply State.Touches.after (State.raise_touches _ _ _)
    | with_reducible apply State.setRec_touches
    | with_reducible apply State.Touches.after (State.setEntry_touches _ _ _)
    | with_reducible apply State.Touches.after (State.showRecorder_touches _)
    | with_reducible apply State.Touches.after (State.reelWrite_touches _ _ _ _ _)
    | with_reducible apply State.Touches.ite
    | with_reducible apply State.Touches.set

theorem State.abandonReel_touches (s : State) : s.Touches (State.abandonReel s) [.regs, .ctlLatches, .hqCmds, .hqGhosts, .hqErrors,
    .hqErrCount0, .hqErrCount1, .ingressSlots, .ingressFreeCtr, .ingressCatchup, .splitHolds, .drawCat, .drawBufs, .henc, .mediaReel,
    .mediaDrops, .mediaDropTotal] := by
  unfold State.abandonReel
  repeat' first
    | with_reducible exact .refl _ _
    | exact rfl
    | with_reducible apply State.Touches.after (State.finish_touches _ _ _ _ _)
    | with_reducible apply State.Touches.after (State.caughtUp_touches _ _)
    | with_reducible apply State.Touches.after (State.setReel_touches _ _)
    | with_reducible apply State.Touches.after (State.dropGroup_touches _ _ _)
    | with_reducible apply State.Touches.after (State.showRecorder_touches _)
    | with_reducible apply State.Touches.after (State.releaseOver_touches _)
    | with_reducible apply State.Touches.ite
    | with_reducible apply State.Touches.foldl
    | intro _
    | with_reducible apply State.Touches.set

theorem State.feedRaw_touches (s : State) (rs : List FoundRecord) : s.Touches (State.feedRaw s rs) [.regs, .ctlSnaps, .ctlGroups,
    .ctlLatches, .ingressFrameVals, .drdecCur, .drdecRecords, .dram] := by
  unfold State.feedRaw
  repeat' first
    | with_reducible exact .refl _ _
    | exact rfl
    | with_reducible apply State.Touches.after (State.setFld_touches _ _ _ _)
    | with_reducible apply State.Touches.after (State.pokeN_touches _ _ _)
    | with_reducible apply State.Touches.after (State.drdecBegin_touches _)
    | split
    | with_reducible apply State.Touches.set

theorem State.hencBegin_touches (s : State) (k : Nat) : s.Touches (State.hencBegin s k) [.regs, .ctlLatches, .splitHolds, .drawBufs,
    .henc, .mediaReel, .mediaDrops, .mediaDropTotal] := by
  unfold State.hencBegin
  repeat' first
    | with_reducible exact .refl _ _
    | exact rfl
    | with_reducible apply State.Touches.after (State.picBegin_touches _ _ _)
    | with_reducible apply State.Touches.after (State.advanceGops_touches _ _ _)
    | with_reducible apply State.Touches.after (State.picStall_touches _ _ _)
    | with_reducible apply State.Touches.after (State.showRecorder_touches _)
    | with_reducible apply State.Touches.after (State.releaseOver_touches _)
    | with_reducible apply State.Touches.after (State.yieldBuffer_touches _ _ _)
    | split
    | dsimp only

theorem State.readError_touches (s : State) (x : IndexEntry) : s.Touches (State.readError s x) [.regs, .mediaReview] := by
  unfold State.readError
  repeat' first
    | with_reducible exact .refl _ _
    | exact rfl
    | with_reducible apply State.Touches.after (State.count_touches _ _ _)
    | with_reducible apply State.setRec_touches
    | with_reducible apply State.Touches.ite

theorem State.feedHevc_touches (s : State) (rs : List FoundRecord) : s.Touches (State.feedHevc s rs) [.regs, .dram] := by
  unfold State.feedHevc
  repeat' first
    | with_reducible exact .refl _ _
    | exact rfl
    | with_reducible apply State.Touches.after (State.setFld_touches _ _ _ _)
    | with_reducible apply State.Touches.after (State.pokeN_touches _ _ _)
    | split
    | dsimp only

theorem State.feedNextHevc_touches (s : State) : s.Touches (State.feedNextHevc s) [.regs, .mediaReview, .dram] := by
  unfold State.feedNextHevc
  repeat' first
    | with_reducible exact .refl _ _
    | exact rfl
    | with_reducible apply State.setRec_touches
    | with_reducible apply State.Touches.after (State.readError_touches _ _)
    | with_reducible apply State.Touches.after (State.feedHevc_touches _ _)
    | split
    | dsimp only

theorem State.writeIndexBank_touches (s : State) : s.Touches (State.writeIndexBank s) [.regs, .ctlLatches, .hqCmds, .hqGhosts, .hqErrors,
    .hqErrCount0, .hqErrCount1, .mediaDrives, .mediaReel] := by
  unfold State.writeIndexBank
  repeat' first
    | with_reducible exact .refl _ _
    | exact rfl
    | with_reducible apply State.Touches.after (State.setReel_touches _ _)
    | with_reducible apply State.Touches.after (State.reelWrite_touches _ _ _ _ _)
    | with_reducible apply State.Touches.ite

theorem State.flushDrives_touches (s : State) : s.Touches (State.flushDrives s) [.mediaDrives, .mediaReel] := by
  unfold State.flushDrives
  repeat' first
    | with_reducible exact .refl _ _
    | exact rfl
    | with_reducible apply State.Touches.after (State.setReel_touches _ _)
    | with_reducible apply State.Touches.after (State.putDrive_touches _ _ _)
    | with_reducible apply State.Touches.ite
    | with_reducible apply State.Touches.foldl
    | intro _

theorem State.recorderOn_touches (s : State) : s.Touches (State.recorderOn s) [.seed, .regs, .ctlLatches, .hqCmds, .hqGhosts, .hqErrors,
    .hqErrCount0, .hqErrCount1, .splitHolds, .drawBufs, .henc, .mediaDrives, .mediaReel, .mediaDrops, .mediaDropTotal] := by
  unfold State.recorderOn
  repeat' first
    | with_reducible exact .refl _ _
    | exact rfl
    | with_reducible apply State.Touches.after (State.showRecorder_touches _)
    | with_reducible apply State.Touches.after (State.takeGroups_touches _ _)
    | with_reducible apply State.Touches.after (State.pushFlush_touches _)
    | with_reducible apply State.Touches.after (State.releaseOver_touches _)

theorem State.portBack_touches (s : State) (k : Nat) : s.Touches (State.portBack s k) [.regs, .ctlLatches, .mediaDrives] := by
  unfold State.portBack
  repeat' first
    | with_reducible exact .refl _ _
    | exact rfl
    | with_reducible apply State.Touches.after (State.raise_touches _ _ _)
    | with_reducible apply State.Touches.after (State.putDrive_touches _ _ _)
    | with_reducible apply State.Touches.after (State.setMport_touches _ _ _)
    | with_reducible apply State.Touches.ite

theorem State.nvmeDone_touches (s : State) (k : Nat) (id : Nat) (ok : Bool) : s.Touches (State.nvmeDone s k id ok) [.seed, .regs,
    .ctlLatches, .hqCmds, .hqGhosts, .hqErrors, .hqErrCount0, .hqErrCount1, .splitHolds, .drawBufs, .henc, .mediaDrives, .mediaReel,
    .mediaDrops, .mediaDropTotal] := by
  unfold State.nvmeDone
  repeat' first
    | with_reducible exact .refl _ _
    | exact rfl
    | with_reducible apply State.Touches.after (State.count_touches _ _ _)
    | with_reducible apply State.Touches.after (State.raise_touches _ _ _)
    | with_reducible apply State.Touches.after (State.putDrive_touches _ _ _)
    | with_reducible apply State.Touches.after (State.countWritten_touches _ _ _)
    | with_reducible apply State.Touches.after (State.recorderOn_touches _)
    | with_reducible apply State.Touches.after (State.portBack_touches _ _)
    | with_reducible apply State.Touches.after (State.portFail_touches _ _)
    | split
    | dsimp only

theorem State.flushTimer_touches (s : State) : s.Touches (State.flushTimer s) [.seed, .regs, .ctlLatches, .hqCmds, .hqGhosts, .hqErrors,
    .hqErrCount0, .hqErrCount1, .mediaDrives, .mediaReel] := by
  unfold State.flushTimer
  repeat' first
    | with_reducible exact .refl _ _
    | exact rfl
    | with_reducible apply State.Touches.after (State.pushFlush_touches _)
    | with_reducible apply State.Touches.after (State.beginFlush_touches _ _)
    | with_reducible apply State.Touches.ite

theorem State.nvmeTimeout_touches (s : State) (k : Nat) (id : Nat) : s.Touches (State.nvmeTimeout s k id) [.seed, .regs, .ctlLatches,
    .hqCmds, .hqGhosts, .hqErrors, .hqErrCount0, .hqErrCount1, .splitHolds, .drawBufs, .henc, .mediaDrives, .mediaReel, .mediaDrops,
    .mediaDropTotal] := by
  unfold State.nvmeTimeout
  repeat' first
    | with_reducible exact .refl _ _
    | exact rfl
    | with_reducible apply State.Touches.after (State.count_touches _ _ _)
    | with_reducible apply State.Touches.after (State.raise_touches _ _ _)
    | with_reducible apply State.Touches.after (State.putDrive_touches _ _ _)
    | with_reducible apply State.Touches.after (State.setMport_touches _ _ _)
    | with_reducible apply State.Touches.after (State.recorderOn_touches _)
    | with_reducible apply State.Touches.after (State.portFail_touches _ _)
    | with_reducible apply State.Touches.ite

theorem State.feedNextRaw_touches (s : State) : s.Touches (State.feedNextRaw s) [.regs, .ctlSnaps, .ctlGroups, .ctlLatches,
    .ingressFrameVals, .drdecCur, .drdecRecords, .mediaReview, .dram] := by
  unfold State.feedNextRaw
  repeat' first
    | with_reducible exact .refl _ _
    | exact rfl
    | with_reducible apply State.setRec_touches
    | with_reducible apply State.Touches.after (State.feedRaw_touches _ _)
    | with_reducible apply State.Touches.after (State.readError_touches _ _)
    | split
    | dsimp only

theorem State.reviewFeed_touches (s : State) : s.Touches (State.reviewFeed s) [.regs, .ctlSnaps, .ctlGroups, .ctlLatches,
    .ingressFrameVals, .drdecCur, .drdecRecords, .mediaReview, .dram] := by
  unfold State.reviewFeed
  repeat' first
    | with_reducible exact .refl _ _
    | exact rfl
    | with_reducible apply State.Touches.after (State.raise_touches _ _ _)
    | with_reducible apply State.setRec_touches
    | with_reducible apply State.Touches.after (State.showRecorder_touches _)
    | with_reducible apply State.Touches.after (State.feedNextHevc_touches _)
    | with_reducible apply State.Touches.after (State.feedNextRaw_touches _)
    | with_reducible apply State.Touches.ite

theorem State.bankDone_touches (s : State) : s.Touches (State.bankDone s) [.seed, .regs, .ctlLatches, .hqCmds, .hqGhosts, .hqErrors,
    .hqErrCount0, .hqErrCount1, .mediaDrives, .mediaReel] := by
  unfold State.bankDone
  repeat' first
    | with_reducible exact .refl _ _
    | exact rfl
    | with_reducible apply State.Touches.after (State.setFld64_touches _ _ _ _ _)
    | with_reducible apply State.Touches.after (State.setFld_touches _ _ _ _)
    | with_reducible apply State.Touches.after (State.finish_touches _ _ _ _ _)
    | with_reducible apply State.Touches.after (State.setReel_touches _ _)
    | with_reducible apply State.Touches.after (State.showRecorder_touches _)
    | with_reducible apply State.Touches.after (State.pushFlush_touches _)
    | with_reducible apply State.Touches.ite
    | with_reducible apply State.Touches.foldl
    | intro _

theorem State.mediaLinkDown_touches (s : State) (k : Nat) : s.Touches (State.mediaLinkDown s k) [.seed, .regs, .ctlLatches, .hqCmds,
    .hqGhosts, .hqErrors, .hqErrCount0, .hqErrCount1, .splitHolds, .drawBufs, .henc, .mediaDrives, .mediaReel, .mediaDrops,
    .mediaDropTotal] := by
  unfold State.mediaLinkDown
  repeat' first
    | with_reducible exact .refl _ _
    | exact rfl
    | with_reducible apply State.Touches.after (State.raise_touches _ _ _)
    | with_reducible apply State.Touches.after (State.portDown_touches _ _ _)
    | with_reducible apply State.Touches.after (State.recorderOn_touches _)
    | with_reducible apply State.Touches.after (State.portFail_touches _ _)
    | with_reducible apply State.Touches.ite

theorem State.reviewStop_touches (s : State) : s.Touches (State.reviewStop s) [.regs, .mediaReview] := by
  unfold State.reviewStop
  repeat' first
    | with_reducible exact .refl _ _
    | exact rfl
    | with_reducible apply State.setRec_touches
    | with_reducible apply State.Touches.after (State.showRecorder_touches _)

theorem State.awaitFrame_touches (s : State) (f : Nat) : s.Touches (State.awaitFrame s f) [.mediaReel] := by
  unfold State.awaitFrame
  repeat' first
    | with_reducible exact .refl _ _
    | exact rfl
    | with_reducible apply State.Touches.after (State.setReel_touches _ _)
    | with_reducible apply State.Touches.ite

theorem State.groupComplete_touches (s : State) : s.Touches (State.groupComplete s) [.seed, .regs, .ctlLatches, .hqCmds, .hqGhosts,
    .hqErrors, .hqErrCount0, .hqErrCount1, .splitHolds, .drawBufs, .henc, .mediaDrives, .mediaReel, .mediaDrops, .mediaDropTotal] := by
  unfold State.groupComplete
  repeat' first
    | with_reducible exact .refl _ _
    | exact rfl
    | with_reducible apply State.Touches.after (State.setReel_touches _ _)
    | with_reducible apply State.Touches.after (State.recorderOn_touches _)
    | split

theorem State.reviewStart_touches (s : State) : s.Touches (State.reviewStart s) [.regs, .mediaReview] := by
  unfold State.reviewStart
  repeat' first
    | with_reducible exact .refl _ _
    | exact rfl
    | with_reducible apply State.setRec_touches
    | with_reducible apply State.Touches.after (State.showRecorder_touches _)

theorem State.reelRecovery_touches (s : State) : s.Touches (State.reelRecovery s) [.seed, .regs, .ctlLatches, .mediaDrives, .mediaVol] :=
    by
  unfold State.reelRecovery
  repeat' first
    | with_reducible exact .refl _ _
    | exact rfl
    | with_reducible apply State.Touches.after (State.recover_touches _ _)
    | split

theorem State.recoverAll_touches (s : State) (n : Nat) : s.Touches (s.recoverAll n) [.seed, .regs, .ctlLatches, .mediaDrives, .mediaVol]
    := by
  induction n generalizing s with
  | zero => exact .refl _ _
  | succ n ih =>
    unfold State.recoverAll
    split
    · exact .trans (State.recover_touches ..) (ih _)
    · exact .refl _ _

theorem State.commitSvn_touches (s : State) : s.Touches (State.commitSvn s) [.regs, .ctlLatches] := by
  unfold State.commitSvn
  repeat' first
    | with_reducible exact .refl _ _
    | exact rfl
    | with_reducible apply State.Touches.after (State.setFld_touches _ _ _ _)
    | with_reducible apply State.Touches.after (State.raise_touches _ _ _)
    | with_reducible apply State.Touches.after (State.reject_touches _ _)
    | with_reducible apply State.Touches.ite
    | split

theorem State.setSeq_touches (s : State) (k : Nat) (b : Bool) : s.Touches (State.setSeq s k b) [.pwrSeqA, .pwrSeqB] := by
  unfold State.setSeq
  repeat' first
    | with_reducible exact .refl _ _
    | exact rfl
    | with_reducible apply State.Touches.ite
    | with_reducible apply State.Touches.set

end Sys2Proof.Machine
end

section
/-! SUPPORT. Footprints of the rest -/

set_option Elab.async false

namespace Sys2Proof.Machine

theorem State.checkpoint_touches (s : State) : s.Touches (State.checkpoint s) [.fwWritten, .fwRead] := by
  unfold State.checkpoint
  repeat' first
    | with_reducible exact .refl _ _
    | exact rfl
    | with_reducible apply State.setFw_touches

theorem State.activate_touches (s : State) (k : Nat) : s.Touches (State.activate s k) [.regs] := by
  unfold State.activate
  repeat' first
    | with_reducible exact .refl _ _
    | exact rfl
    | with_reducible apply State.Touches.after (State.setFld_touches _ _ _ _)

theorem State.beginHandover_touches (s : State) (cmd : Nat) : s.Touches (State.beginHandover s cmd) [.regs, .fwWaiting, .fwRunning,
    .fwWritten, .fwRead] := by
  unfold State.beginHandover
  repeat' first
    | with_reducible exact .refl _ _
    | exact rfl
    | with_reducible apply State.Touches.after (State.setFld64_touches _ _ _ _ _)
    | with_reducible apply State.Touches.after (State.setFld_touches _ _ _ _)
    | with_reducible apply State.Touches.after (State.checkpoint_touches _)
    | with_reducible apply State.setFw_touches
    | with_reducible apply State.Touches.after (State.activate_touches _ _)
    | with_reducible apply State.Touches.ite

theorem State.doFailover_touches (s : State) : s.Touches (State.doFailover s) [.regs, .ctlLatches, .hqCmds, .hqGhosts, .hqErrors,
    .hqErrCount0, .hqErrCount1, .fwWaiting, .fwFailover] := by
  unfold State.doFailover
  repeat' first
    | with_reducible exact .refl _ _
    | exact rfl
    | with_reducible apply State.Touches.after (State.count_touches _ _ _)
    | with_reducible apply State.Touches.after (State.setFld_touches _ _ _ _)
    | with_reducible apply State.Touches.after (State.raise_touches _ _ _)
    | with_reducible apply State.Touches.after (State.finish?_touches _ _ _ _ _)
    | with_reducible apply State.setFw_touches
    | with_reducible apply State.Touches.after (State.activate_touches _ _)

theorem State.fwPoint_touches (s : State) : s.Touches (State.fwPoint s) [.regs, .ctlLatches, .hqCmds, .hqGhosts, .hqErrors, .hqErrCount0,
    .hqErrCount1, .fwWaiting, .fwRunning, .fwFailover, .fwWritten, .fwRead] := by
  unfold State.fwPoint
  repeat' first
    | with_reducible exact .refl _ _
    | exact rfl
    | with_reducible apply State.Touches.after (State.checkpoint_touches _)
    | with_reducible apply State.Touches.after (State.beginHandover_touches _ _)
    | with_reducible apply State.Touches.after (State.doFailover_touches _)
    | split

theorem writeWindow_touches (r : Req) (o : Nat) (v : Word) (s : State) : s.Touches (writeWindow r o v s) [.out, .regs, .ctlLoHold,
    .ctlW1Done, .ctlLatches, .ctlBusErrHeld, .hqPci0, .hqPci1] := by
  unfold writeWindow
  repeat' first
    | with_reducible exact .refl _ _
    | exact rfl
    | with_reducible apply State.Touches.after (State.reject_touches _ _)
    | with_reducible refine withWrite_touches _ _ _ _ _ _ (fun _ _ _ => ?_) ?_
    | with_reducible apply State.Touches.after (plainStore_touches _ _ _ _ _ _)
    | with_reducible apply State.Touches.ite

theorem runAttest_touches (h : HostData) (tag : Nat) (c : Cmd) (s : State) : s.Touches (runAttest h tag c s) [.out, .regs, .ctlLatches,
    .hqCmds, .hqErrors, .hqErrCount0, .hqErrCount1, .fwReports] := by
  unfold runAttest
  repeat' first
    | with_reducible exact .refl _ _
    | exact rfl
    | with_reducible apply State.Touches.after (State.count_touches _ _ _)
    | with_reducible apply State.Touches.after (State.finishTag_touches _ _ _ _ _ _)
    | with_reducible apply State.Touches.after (State.failBuf_touches _ _ _)
    | with_reducible apply State.Touches.after (State.toHost_touches _ _ _ _)
    | with_reducible apply State.setFw_touches
    | split

theorem State.setImage_touches (s : State) (k : Nat) (i : FwImage) : s.Touches (State.setImage s k i) [.regs, .fwA, .fwB] := by
  unfold State.setImage
  repeat' first
    | with_reducible exact .refl _ _
    | exact rfl
    | with_reducible apply State.Touches.after (State.setFld_touches _ _ _ _)
    | with_reducible apply State.setFw_touches
    | with_reducible apply State.Touches.ite

theorem runFwLoad_touches (h : HostData) (readBackOk : Bool) (tag : Nat) (c : Cmd) (s : State) : s.Touches (runFwLoad h readBackOk tag c
    s) [.regs, .ctlLatches, .hqCmds, .hqErrors, .hqErrCount0, .hqErrCount1, .fwA, .fwB, .fwFlash0, .fwFlash1] := by
  unfold runFwLoad
  repeat' first
    | with_reducible exact .refl _ _
    | exact rfl
    | with_reducible apply State.Touches.after (State.setFld_touches _ _ _ _)
    | with_reducible apply State.Touches.after (State.raise_touches _ _ _)
    | with_reducible apply State.Touches.after (State.finishTag_touches _ _ _ _ _ _)
    | with_reducible apply State.Touches.after (State.failBuf_touches _ _ _)
    | with_reducible apply State.setFw_touches
    | with_reducible apply State.Touches.after (State.setImage_touches _ _ _)
    | split
    | dsimp only

theorem writeSeq_touches (r : Req) (k : Nat) (v : Word) (s : State) : s.Touches (writeSeq r k v s) [.out, .regs, .ctlLoHold, .ctlW1Done,
    .ctlLatches, .ctlBusErrHeld, .hqPci0, .hqPci1] := by
  unfold writeSeq
  repeat' first
    | with_reducible exact .refl _ _
    | exact rfl
    | with_reducible apply State.Touches.after (State.reject_touches _ _)
    | with_reducible refine withWrite_touches _ _ _ _ _ _ (fun _ _ _ => ?_) ?_
    | with_reducible apply State.Touches.after (plainStore_touches _ _ _ _ _ _)
    | with_reducible apply State.Touches.ite

theorem writeSvnCtrl_touches (r : Req) (v : Word) (s : State) : s.Touches (writeSvnCtrl r v s) [.out, .regs, .ctlW1Done, .ctlLatches,
    .ctlBusErrHeld, .hqPci0, .hqPci1] := by
  unfold writeSvnCtrl
  repeat' first
    | with_reducible exact .refl _ _
    | exact rfl
    | with_reducible refine withWrite_touches _ _ _ _ _ _ (fun _ _ _ => ?_) ?_
    | with_reducible apply State.Touches.after (State.commitSvn_touches _)
    | with_reducible apply State.Touches.ite

theorem State.supplyStep_touches (s : State) (k : Nat) : s.Touches (State.supplyStep s k) [.out, .regs, .pwrSeqA, .pwrSeqB] := by
  unfold State.supplyStep
  repeat' first
    | with_reducible exact .refl _ _
    | exact rfl
    | with_reducible apply State.Touches.after (State.setFld_touches _ _ _ _)
    | with_reducible apply State.Touches.after (State.emit_touches _ _)
    | with_reducible apply State.Touches.after (State.setSeq_touches _ _ _)
    | with_reducible apply State.Touches.ite
    | split

theorem writeSupplyReq_touches (r : Req) (v : Word) (s : State) : s.Touches (writeSupplyReq r v s) [.out, .regs, .ctlLoHold, .ctlW1Done,
    .ctlLatches, .ctlBusErrHeld, .hqPci0, .hqPci1, .pwrSeqA, .pwrSeqB] := by
  unfold writeSupplyReq
  repeat' first
    | with_reducible exact .refl _ _
    | exact rfl
    | with_reducible refine withWrite_touches _ _ _ _ _ _ (fun _ _ _ => ?_) ?_
    | with_reducible apply State.Touches.after (plainStore_touches _ _ _ _ _ _)
    | with_reducible apply State.Touches.after (State.supplyStep_touches _ _)

theorem State.endHandover_touches (s : State) (ev : Fld) : s.Touches (State.endHandover s ev) [.regs, .ctlLatches, .hqCmds, .hqGhosts,
    .hqErrors, .hqErrCount0, .hqErrCount1, .fwRunning] := by
  unfold State.endHandover
  repeat' first
    | with_reducible exact .refl _ _
    | exact rfl
    | with_reducible apply State.Touches.after (State.setFld_touches _ _ _ _)
    | with_reducible apply State.Touches.after (State.raise_touches _ _ _)
    | with_reducible apply State.Touches.after (State.finish?_touches _ _ _ _ _)
    | with_reducible apply State.setFw_touches

theorem runFwHandover_touches (tag : Nat) (c : Cmd) (s : State) : s.Touches (runFwHandover tag c s) [.regs, .ctlLatches, .hqCmds,
    .hqErrors, .hqErrCount0, .hqErrCount1, .fwWaiting, .fwRunning, .fwWritten, .fwRead] := by
  unfold runFwHandover
  repeat' first
    | with_reducible exact .refl _ _
    | exact rfl
    | with_reducible apply State.Touches.after (State.finishTag_touches _ _ _ _ _ _)
    | with_reducible apply State.setFw_touches
    | with_reducible apply State.Touches.after (State.beginHandover_touches _ _)
    | with_reducible apply State.Touches.ite

/-- Nothing outside the firmware's own parts is written by a start of it. -/
theorem State.touches_fwStart (s : State) : s.Touches (s.setFw { s.fw with
    a := none, b := none, waiting := none, running := none, failover := false, reports := 0, written := 0, read := 0 })
    [.fwA, .fwB, .fwWaiting, .fwRunning, .fwFailover, .fwReports, .fwWritten, .fwRead] := .of_mix rfl rfl

theorem State.bootFw_touches (s : State) : s.Touches (State.bootFw s) [.regs, .ctlLatches, .fwA, .fwB, .fwWaiting, .fwRunning,
    .fwFailover, .fwReports, .fwWritten, .fwRead] := by
  unfold State.bootFw
  extract_lets low _ s0
  have h0 : s.Touches s0 [.regs, .ctlLatches, .fwA, .fwB, .fwWaiting, .fwRunning, .fwFailover, .fwReports, .fwWritten, .fwRead] := by
    have hr := s.raiseIf_fw low Pg.security Reg.SECURITY_EVENT_ROLLBACK
    have h1 : s.Touches (s.raiseIf low Pg.security Reg.SECURITY_EVENT_ROLLBACK) [.regs, .ctlLatches, .fwA, .fwB, .fwWaiting, .fwRunning,
        .fwFailover, .fwReports, .fwWritten, .fwRead] := (State.raiseIf_touches ..).mono rfl
    exact h1.step (hr ▸ State.touches_fwStart _) rfl
  clear_value s0
  split
  · exact h0.step (State.setFld_touches ..) rfl
  · exact .step (.step (.step (.step h0 (State.setImage_touches ..) rfl) (State.setImage_touches ..) rfl) (State.setFld_touches ..) rfl)
      (State.activate_touches ..) rfl

theorem State.wipeBlock_touches (s : State) (p : Nat) : s.Touches (State.wipeBlock s p) [.regs, .ctlLatches, .portA, .portB, .fstoreMem,
    .drdecOutCount, .drdecLast, .drdecCur, .drdecRecords, .drdecReady, .hdec, .aud, .condParked, .relayDescs, .loupe, .mirror, .flows] :=
    by
  unfold State.wipeBlock
  repeat' first
    | with_reducible exact .refl _ _
    | exact rfl
    | with_reducible apply State.Touches.after (State.setFld_touches _ _ _ _)
    | with_reducible apply State.Touches.after (State.setPort_touches _ _ _)
    | with_reducible apply State.Touches.after (State.showPort_touches _ _)
    | with_reducible apply State.Touches.after (State.fstoreClear_touches _)
    | split
    | with_reducible apply State.Touches.set

theorem State.follow_touches (s : State) (p : Nat) : s.Touches (State.follow s p) [.regs, .ctlLatches] := by
  unfold State.follow
  repeat' first
    | with_reducible exact .refl _ _
    | exact rfl
    | with_reducible apply State.Touches.after (State.showCorr_touches _)
    | with_reducible apply State.Touches.after (State.placeSlots_touches _ _)
    | split

theorem State.restorePage_touches (s : State) (p : Nat) (b : List Byte) (n a : Nat) : s.Touches (s.restorePage p b n a) [.regs] := by
  induction n generalizing s a with
  | zero => exact .refl _ _
  | succ n ih => exact .trans (.ite ((State.restoreEntry_touches ..).mono rfl) (.refl _ _)) (ih _ _)

theorem State.refillPage_touches (s : State) (p : Nat) : s.Touches (State.refillPage s p) [.regs, .ctlLatches] := by
  unfold State.refillPage
  repeat' first
    | with_reducible exact .refl _ _
    | exact rfl
    | with_reducible apply State.Touches.after (State.setFld_touches _ _ _ _)
    | with_reducible apply State.Touches.after (State.follow_touches _ _)
    | with_reducible apply State.Touches.after (State.restorePage_touches _ _ _ _ _)
    | split

theorem State.wipePage_touches (s : State) (p : Nat) : s.Touches (State.wipePage s p) [.regs] := by
  unfold State.wipePage
  repeat' first
    | with_reducible exact .refl _ _
    | exact rfl
    | with_reducible apply State.Touches.set

theorem State.showHeld_touches (s : State) : s.Touches (State.showHeld s) [.regs] := by
  unfold State.showHeld
  repeat' first
    | with_reducible exact .refl _ _
    | exact rfl
    | with_reducible apply State.Touches.after (State.setFld_touches _ _ _ _)

theorem State.goDown_touches (s : State) (p : Nat) (v : Nat) : s.Touches (State.goDown s p v) [.regs, .ctlLatches, .portA, .portB,
    .fstoreMem, .drdecOutCount, .drdecLast, .drdecCur, .drdecRecords, .drdecReady, .hdec, .aud, .condParked, .relayDescs, .pwrHeld,
    .loupe, .mirror, .flows] := by
  unfold State.goDown
  repeat' first
    | with_reducible exact .refl _ _
    | exact rfl
    | with_reducible apply State.Touches.after (State.setFld_touches _ _ _ _)
    | with_reducible apply State.Touches.after (State.wipeBlock_touches _ _)
    | with_reducible apply State.Touches.after (State.refillPage_touches _ _)
    | with_reducible apply State.setPwr_touches
    | with_reducible apply State.Touches.after (State.wipePage_touches _ _)
    | with_reducible apply State.Touches.after (State.showHeld_touches _)
    | with_reducible apply State.Touches.ite

theorem State.holdRequest_touches (s : State) (p : Nat) (req : Nat) : s.Touches (State.holdRequest s p req) [.regs, .pwrHeld] := by
  unfold State.holdRequest
  repeat' first
    | with_reducible exact .refl _ _
    | exact rfl
    | with_reducible apply State.setPwr_touches
    | with_reducible apply State.Touches.after (State.showHeld_touches _)
    | with_reducible apply State.Touches.ite

theorem State.settle_touches (s : State) (p : Nat) : s.Touches (State.settle s p) [.regs, .ctlLatches, .portA, .portB, .fstoreMem,
    .drdecOutCount, .drdecLast, .drdecCur, .drdecRecords, .drdecReady, .hdec, .aud, .condParked, .relayDescs, .pwrHeld, .pwrRising,
    .loupe, .mirror, .flows] := by
  unfold State.settle
  repeat' first
    | with_reducible exact .refl _ _
    | exact rfl
    | with_reducible apply State.Touches.after (State.holdRequest_touches _ _ _)
    | with_reducible apply State.Touches.after (State.goDown_touches _ _ _)
    | with_reducible apply State.setPwr_touches
    | with_reducible apply State.Touches.after (State.showHeld_touches _)
    | with_reducible apply State.Touches.ite

theorem State.settleAll_touches (s : State) : s.Touches (State.settleAll s) [.regs, .ctlLatches, .portA, .portB, .fstoreMem,
    .drdecOutCount, .drdecLast, .drdecCur, .drdecRecords, .drdecReady, .hdec, .aud, .condParked, .relayDescs, .pwrHeld, .pwrRising,
    .loupe, .mirror, .flows] := by
  unfold State.settleAll
  repeat' first
    | with_reducible exact .refl _ _
    | exact rfl
    | with_reducible apply State.Touches.after (State.settle_touches _ _)
    | with_reducible apply State.Touches.foldl
    | intro _

theorem State.goUp_touches (s : State) (p : Nat) : s.Touches (State.goUp s p) [.regs, .ctlLatches, .pwrRising] := by
  unfold State.goUp
  repeat' first
    | with_reducible exact .refl _ _
    | exact rfl
    | with_reducible apply State.Touches.after (State.setFld_touches _ _ _ _)
    | with_reducible apply State.Touches.after (State.refillPage_touches _ _)
    | with_reducible apply State.setPwr_touches
    | with_reducible apply State.Touches.ite

theorem State.domainUp_touches (s : State) (p : Nat) : s.Touches (State.domainUp s p) [.regs, .ctlLatches, .portA, .portB, .fstoreMem,
    .drdecOutCount, .drdecLast, .drdecCur, .drdecRecords, .drdecReady, .hdec, .aud, .condParked, .relayDescs, .pwrHeld, .pwrRising,
    .loupe, .mirror, .flows] := by
  unfold State.domainUp
  repeat' first
    | with_reducible exact .refl _ _
    | exact rfl
    | with_reducible apply State.Touches.after (State.goUp_touches _ _)
    | with_reducible apply State.Touches.after (State.settle_touches _ _)
    | with_reducible apply State.Touches.ite

theorem State.powerAll_touches (s : State) : s.Touches (State.powerAll s) [.regs, .ctlLatches, .pwrRising] := by
  unfold State.powerAll
  repeat' first
    | with_reducible exact .refl _ _
    | exact rfl
    | with_reducible apply State.Touches.after (State.goUp_touches _ _)
    | with_reducible apply State.Touches.ite
    | with_reducible apply State.Touches.foldl
    | intro _

theorem State.refusePower_touches (s : State) (p : Nat) (req : Nat) : s.Touches (State.refusePower s p req) [.regs, .ctlLatches] := by
  unfold State.refusePower
  repeat' first
    | with_reducible exact .refl _ _
    | exact rfl
    | with_reducible apply State.Touches.after (State.count_touches _ _ _)
    | with_reducible apply State.Touches.after (State.setFld_touches _ _ _ _)
    | with_reducible apply State.Touches.after (State.raise_touches _ _ _)

theorem State.measure_touches (s : State) (mw : Nat) : s.Touches (State.measure s mw) [.regs, .ctlLatches, .pwrLimiting, .pwrUnder] := by
  unfold State.measure
  repeat' first
    | with_reducible exact .refl _ _
    | exact rfl
    | with_reducible apply State.Touches.after (State.countBy_touches _ _ _ _)
    | with_reducible apply State.Touches.after (State.setFld_touches _ _ _ _)
    | with_reducible apply State.Touches.after (State.raise_touches _ _ _)
    | with_reducible apply State.Touches.after (State.raiseIf_touches _ _ _ _)
    | with_reducible apply State.setPwr_touches
    | with_reducible apply State.Touches.ite

theorem State.drainTimeout_touches (s : State) (p : Nat) : s.Touches (State.drainTimeout s p) [.regs, .ctlLatches, .portA, .portB,
    .fstoreMem, .drdecOutCount, .drdecLast, .drdecCur, .drdecRecords, .drdecReady, .hdec, .aud, .condParked, .relayDescs, .pwrHeld,
    .pwrRising, .loupe, .mirror, .flows] := by
  unfold State.drainTimeout
  repeat' first
    | with_reducible exact .refl _ _
    | exact rfl
    | with_reducible apply State.Touches.after (State.setFld_touches _ _ _ _)
    | with_reducible apply State.Touches.after (State.goDown_touches _ _ _)
    | with_reducible apply State.setPwr_touches
    | with_reducible apply State.Touches.after (State.refusePower_touches _ _ _)
    | with_reducible apply State.Touches.after (State.settle_touches _ _)
    | with_reducible apply State.Touches.after (State.showHeld_touches _)
    | split

theorem State.requestPower_touches (s : State) (p : Nat) (req : Nat) : s.Touches (State.requestPower s p req) [.regs, .ctlLatches,
    .portA, .portB, .fstoreMem, .drdecOutCount, .drdecLast, .drdecCur, .drdecRecords, .drdecReady, .hdec, .aud, .condParked, .relayDescs,
    .pwrHeld, .pwrRising, .loupe, .mirror, .flows] := by
  unfold State.requestPower
  repeat' first
    | with_reducible exact .refl _ _
    | exact rfl
    | with_reducible apply State.Touches.after (State.setFld_touches _ _ _ _)
    | with_reducible apply State.setPwr_touches
    | with_reducible apply State.Touches.after (State.refusePower_touches _ _ _)
    | with_reducible apply State.Touches.after (State.holdRequest_touches _ _ _)
    | with_reducible apply State.Touches.after (State.settle_touches _ _)
    | with_reducible apply State.Touches.after (State.showHeld_touches _)
    | with_reducible apply State.Touches.ite

theorem writePwrReq_touches (r : Req) (p : Nat) (v : Word) (s : State) : s.Touches (writePwrReq r p v s) [.out, .regs, .ctlW1Done,
    .ctlLatches, .ctlBusErrHeld, .hqPci0, .hqPci1, .portA, .portB, .fstoreMem, .drdecOutCount, .drdecLast, .drdecCur, .drdecRecords,
    .drdecReady, .hdec, .aud, .condParked, .relayDescs, .pwrHeld, .pwrRising, .loupe, .mirror, .flows] := by
  unfold writePwrReq
  repeat' first
    | with_reducible exact .refl _ _
    | exact rfl
    | with_reducible refine withWrite_touches _ _ _ _ _ _ (fun _ _ _ => ?_) ?_
    | with_reducible apply State.Touches.after (State.requestPower_touches _ _ _)

theorem State.drained?_touches (s : State) (p : Nat) : s.Touches (State.drained? s p) [.regs, .ctlLatches, .portA, .portB, .fstoreMem,
    .drdecOutCount, .drdecLast, .drdecCur, .drdecRecords, .drdecReady, .hdec, .aud, .condParked, .relayDescs, .pwrHeld, .pwrRising,
    .loupe, .mirror, .flows] := by
  unfold State.drained?
  repeat' first
    | with_reducible exact .refl _ _
    | exact rfl
    | with_reducible apply State.Touches.after (State.goDown_touches _ _ _)
    | with_reducible apply State.Touches.after (State.settle_touches _ _)
    | split

theorem State.setSat_touches (s : State) (p : Nat) (f : Fld) (v : Nat) : s.Touches (State.setSat s p f v) [.regs] := by
  unfold State.setSat
  repeat' first
    | with_reducible exact .refl _ _
    | exact rfl
    | with_reducible apply State.Touches.after (State.setFld_touches _ _ _ _)

theorem State.condCounts_touches (s : State) (j : CondJob) (n : Nat) (m : Nat) : s.Touches (State.condCounts s j n m) [.regs] := by
  unfold State.condCounts
  repeat' first
    | with_reducible exact .refl _ _
    | exact rfl
    | with_reducible apply State.Touches.after (State.setFld_touches _ _ _ _)
    | with_reducible apply State.Touches.after (State.setSat_touches _ _ _ _)

theorem State.condStart_touches (s : State) : s.Touches (State.condStart s) [.regs] := by
  unfold State.condStart
  repeat' first
    | with_reducible exact .refl _ _
    | exact rfl
    | with_reducible apply State.Touches.after (State.setFld_touches _ _ _ _)
    | split

theorem State.condFree_touches (s : State) : s.Touches (State.condFree s) [.regs, .ctlLatches, .portA, .portB, .fstoreMem,
    .drdecOutCount, .drdecLast, .drdecCur, .drdecRecords, .drdecReady, .hdec, .aud, .condQueue, .condParked, .relayDescs, .pwrHeld,
    .pwrRising, .loupe, .mirror, .flows] := by
  unfold State.condFree
  repeat' first
    | with_reducible exact .refl _ _
    | exact rfl
    | with_reducible apply State.Touches.after (State.setFld_touches _ _ _ _)
    | with_reducible apply State.Touches.after (State.settle_touches _ _)
    | with_reducible apply State.setCond_touches
    | with_reducible apply State.Touches.after (State.condStart_touches _)
    | with_reducible apply State.Touches.ite

theorem State.condWrite_touches (s : State) (j : CondJob) (out : List Byte) (n : Nat) : s.Touches (State.condWrite s j out n) [.out,
    .dram] := by
  unfold State.condWrite
  repeat' first
    | with_reducible exact .refl _ _
    | exact rfl
    | with_reducible apply State.Touches.after (State.emit_touches _ _)
    | with_reducible apply State.Touches.after (State.pokeN_touches _ _ _)
    | with_reducible apply State.Touches.ite
    | split

theorem State.condNeed_touches (s : State) : s.Touches (State.condNeed s) [.out, .regs, .ctlLatches, .portA, .portB, .fstoreMem,
    .drdecOutCount, .drdecLast, .drdecCur, .drdecRecords, .drdecReady, .hdec, .aud, .condQueue, .condParked, .relayDescs, .pwrHeld,
    .pwrRising, .loupe, .mirror, .flows, .dram] := by
  unfold State.condNeed
  repeat' first
    | with_reducible exact .refl _ _
    | exact rfl
    | with_reducible apply State.Touches.after (State.setFld_touches _ _ _ _)
    | with_reducible apply State.Touches.after (State.raise_touches _ _ _)
    | with_reducible apply State.Touches.after (State.condCounts_touches _ _ _ _)
    | with_reducible apply State.Touches.after (State.condFree_touches _)
    | with_reducible apply State.Touches.after (State.condWrite_touches _ _ _ _)
    | with_reducible apply State.setCond_touches
    | with_reducible apply State.Touches.ite
    | split

theorem State.condResult_touches (s : State) (code : Nat) (verify : Nat) (detail : Nat) : s.Touches (State.condResult s code verify
    detail) [.regs, .ctlLatches] := by
  unfold State.condResult
  repeat' first
    | with_reducible exact .refl _ _
    | exact rfl
    | with_reducible apply State.Touches.after (State.setFld_touches _ _ _ _)
    | with_reducible apply State.Touches.after (State.raise_touches _ _ _)

theorem State.condDone_touches (s : State) (j : CondJob) (code : Nat) (detail : Nat) (n : Nat) : s.Touches (State.condDone s j code
    detail n) [.regs, .ctlLatches, .hqCmds, .hqGhosts, .hqErrors, .hqErrCount0, .hqErrCount1] := by
  unfold State.condDone
  repeat' first
    | with_reducible exact .refl _ _
    | exact rfl
    | with_reducible apply State.Touches.after (State.count_touches _ _ _)
    | with_reducible apply State.Touches.after (State.raiseIf_touches _ _ _ _)
    | with_reducible apply State.Touches.after (State.finish_touches _ _ _ _ _)
    | with_reducible apply State.Touches.after (State.condResult_touches _ _ _ _)
    | split

theorem State.condEnd_touches (s : State) (verified : Bool) : s.Touches (State.condEnd s verified) [.out, .seed, .regs, .ctlLatches,
    .hqCmds, .hqGhosts, .hqErrors, .hqErrCount0, .hqErrCount1, .portA, .portB, .fstoreMem, .drdecOutCount, .drdecLast, .drdecCur,
    .drdecRecords, .drdecReady, .hdec, .aud, .condQueue, .condParked, .relayDescs, .pwrHeld, .pwrRising, .loupe, .mirror, .flows, .dram]
    := by
  unfold State.condEnd
  repeat' first
    | with_reducible exact .refl _ _
    | exact rfl
    | with_reducible apply State.Touches.after (State.count_touches _ _ _)
    | with_reducible apply State.Touches.after (State.raise_touches _ _ _)
    | with_reducible apply State.Touches.after (State.condCounts_touches _ _ _ _)
    | with_reducible apply State.Touches.after (State.condDone_touches _ _ _ _ _)
    | with_reducible apply State.Touches.after (State.condFree_touches _)
    | with_reducible apply State.Touches.after (State.condWrite_touches _ _ _ _)
    | split
    | with_reducible apply State.Touches.set

theorem State.condAccept_touches (s : State) (j : CondJob) : s.Touches (State.condAccept s j) [.regs, .ctlLatches, .portA, .portB,
    .fstoreMem, .drdecOutCount, .drdecLast, .drdecCur, .drdecRecords, .drdecReady, .hdec, .aud, .condQueue, .condParked, .relayDescs,
    .pwrHeld, .pwrRising, .loupe, .mirror, .flows] := by
  unfold State.condAccept
  repeat' first
    | with_reducible exact .refl _ _
    | exact rfl
    | with_reducible apply State.Touches.after (State.setFld_touches _ _ _ _)
    | with_reducible apply State.Touches.after (State.settle_touches _ _)
    | with_reducible apply State.setCond_touches
    | with_reducible apply State.Touches.after (State.condStart_touches _)
    | with_reducible apply State.Touches.ite

theorem State.condGo_touches (s : State) : s.Touches (State.condGo s) [.regs, .ctlLatches, .hqCmds, .hqGhosts, .hqErrors, .hqErrCount0,
    .hqErrCount1, .portA, .portB, .fstoreMem, .drdecOutCount, .drdecLast, .drdecCur, .drdecRecords, .drdecReady, .hdec, .aud, .condQueue,
    .condParked, .relayDescs, .pwrHeld, .pwrRising, .loupe, .mirror, .flows] := by
  unfold State.condGo
  repeat' first
    | with_reducible exact .refl _ _
    | exact rfl
    | with_reducible apply State.Touches.after (State.setFld_touches _ _ _ _)
    | with_reducible apply State.Touches.after (State.reject_touches _ _)
    | with_reducible apply State.Touches.after (State.condDone_touches _ _ _ _ _)
    | with_reducible apply State.Touches.after (State.condAccept_touches _ _)
    | with_reducible apply State.Touches.ite

theorem State.condFull_touches (s : State) : s.Touches (State.condFull s) [.out, .seed, .regs, .ctlLatches, .portA, .portB, .fstoreMem,
    .drdecOutCount, .drdecLast, .drdecCur, .drdecRecords, .drdecReady, .hdec, .aud, .condQueue, .condParked, .relayDescs, .pwrHeld,
    .pwrRising, .loupe, .mirror, .flows, .dram] := by
  unfold State.condFull
  repeat' first
    | with_reducible exact .refl _ _
    | exact rfl
    | with_reducible apply State.Touches.after (State.setFld_touches _ _ _ _)
    | with_reducible apply State.Touches.after (State.raise_touches _ _ _)
    | with_reducible apply State.Touches.after (State.condCounts_touches _ _ _ _)
    | with_reducible apply State.Touches.after (State.condFree_touches _)
    | with_reducible apply State.Touches.after (State.condWrite_touches _ _ _ _)
    | with_reducible apply State.setCond_touches
    | split
    | with_reducible apply State.Touches.set

theorem State.condAbort_touches (s : State) : s.Touches (State.condAbort s) [.out, .seed, .regs, .ctlLatches, .hqCmds, .hqGhosts,
    .hqErrors, .hqErrCount0, .hqErrCount1, .portA, .portB, .fstoreMem, .drdecOutCount, .drdecLast, .drdecCur, .drdecRecords, .drdecReady,
    .hdec, .aud, .condQueue, .condParked, .relayDescs, .pwrHeld, .pwrRising, .loupe, .mirror, .flows, .dram] := by
  unfold State.condAbort
  repeat' first
    | with_reducible exact .refl _ _
    | exact rfl
    | with_reducible apply State.Touches.after (State.condCounts_touches _ _ _ _)
    | with_reducible apply State.Touches.after (State.condDone_touches _ _ _ _ _)
    | with_reducible apply State.Touches.after (State.condFree_touches _)
    | with_reducible apply State.Touches.after (State.condWrite_touches _ _ _ _)
    | with_reducible apply State.setCond_touches
    | split
    | with_reducible apply State.Touches.set

theorem State.condResume_touches (s : State) : s.Touches (State.condResume s) [.regs, .ctlLatches, .hqCmds, .hqGhosts, .hqErrors,
    .hqErrCount0, .hqErrCount1, .portA, .portB, .fstoreMem, .drdecOutCount, .drdecLast, .drdecCur, .drdecRecords, .drdecReady, .hdec,
    .aud, .condQueue, .condParked, .relayDescs, .pwrHeld, .pwrRising, .loupe, .mirror, .flows] := by
  unfold State.condResume
  repeat' first
    | with_reducible exact .refl _ _
    | exact rfl
    | with_reducible apply State.Touches.after (State.setFld_touches _ _ _ _)
    | with_reducible apply State.Touches.after (State.reject_touches _ _)
    | with_reducible apply State.Touches.after (State.condDone_touches _ _ _ _ _)
    | with_reducible apply State.Touches.after (State.condAccept_touches _ _)
    | with_reducible apply State.setCond_touches
    | with_reducible apply State.Touches.ite
    | split

theorem writeCondCtrl_touches (r : Req) (v : Word) (s : State) : s.Touches (writeCondCtrl r v s) [.out, .seed, .regs, .ctlW1Done,
    .ctlLatches, .ctlBusErrHeld, .hqCmds, .hqGhosts, .hqErrors, .hqErrCount0, .hqErrCount1, .hqPci0, .hqPci1, .portA, .portB, .fstoreMem,
    .drdecOutCount, .drdecLast, .drdecCur, .drdecRecords, .drdecReady, .hdec, .aud, .condQueue, .condParked, .relayDescs, .pwrHeld,
    .pwrRising, .loupe, .mirror, .flows, .dram] := by
  unfold writeCondCtrl
  repeat' first
    | with_reducible exact .refl _ _
    | exact rfl
    | with_reducible apply State.Touches.after (State.setFld_touches _ _ _ _)
    | with_reducible refine withWrite_touches _ _ _ _ _ _ (fun _ _ _ => ?_) ?_
    | with_reducible apply State.Touches.after (State.condGo_touches _)
    | with_reducible apply State.Touches.after (State.condAbort_touches _)
    | with_reducible apply State.Touches.after (State.condResume_touches _)
    | with_reducible apply State.Touches.ite

theorem runCond_touches (inflate : Bool) (h : HostData) (tag : Nat) (c : Cmd) (s : State) : s.Touches (runCond inflate h tag c s) [.regs,
    .ctlLatches, .hqCmds, .hqErrors, .hqErrCount0, .hqErrCount1, .portA, .portB, .fstoreMem, .drdecOutCount, .drdecLast, .drdecCur,
    .drdecRecords, .drdecReady, .hdec, .aud, .condQueue, .condParked, .relayDescs, .pwrHeld, .pwrRising, .loupe, .mirror, .flows] := by
  unfold runCond
  repeat' first
    | with_reducible exact .refl _ _
    | exact rfl
    | with_reducible apply State.Touches.after (State.finishTag_touches _ _ _ _ _ _)
    | with_reducible apply State.Touches.after (State.failBuf_touches _ _ _)
    | with_reducible apply State.Touches.after (State.condAccept_touches _ _)
    | with_reducible apply State.Touches.ite
    | split

theorem State.putAud_touches (s : State) (p : Nat) (a : AudSt) : s.Touches (State.putAud s p a) [.aud] := by
  unfold State.putAud
  repeat' first
    | with_reducible exact .refl _ _
    | exact rfl
    | with_reducible apply State.Touches.set

theorem State.endBlock_touches (s : State) (p : Nat) : s.Touches (State.endBlock s p) [.regs, .aud, .dram] := by
  unfold State.endBlock
  repeat' first
    | with_reducible exact .refl _ _
    | exact rfl
    | with_reducible apply State.Touches.after (State.setFld_touches _ _ _ _)
    | with_reducible apply State.Touches.after (State.pokeN_touches _ _ _)
    | with_reducible apply State.Touches.after (State.putAud_touches _ _ _)
    | with_reducible apply State.Touches.ite

theorem State.newMask_touches (s : State) (p : Nat) : s.Touches (State.newMask s p) [.regs, .ctlSnaps, .ctlLatches, .aud, .dram] := by
  unfold State.newMask
  repeat' first
    | with_reducible exact .refl _ _
    | exact rfl
    | with_reducible apply State.Touches.after (State.applyCommit_touches _ _)
    | with_reducible apply State.Touches.after (State.putAud_touches _ _ _)
    | with_reducible apply State.Touches.after (State.endBlock_touches _ _)
    | with_reducible apply State.Touches.ite

theorem State.audStop_touches (s : State) (p : Nat) : s.Touches (State.audStop s p) [.out, .regs, .ctlSnaps, .ctlLatches, .aud, .dram] :=
    by
  unfold State.audStop
  repeat' first
    | with_reducible exact .refl _ _
    | exact rfl
    | with_reducible apply State.Touches.after (State.setFld_touches _ _ _ _)
    | with_reducible apply State.Touches.after (State.emit_touches _ _)
    | with_reducible apply State.Touches.after (State.putAud_touches _ _ _)
    | with_reducible apply State.Touches.after (State.newMask_touches _ _)
    | with_reducible apply State.Touches.after (State.endBlock_touches _ _)
    | with_reducible apply State.Touches.ite

theorem State.driveSync_touches (s : State) (p : Nat) : s.Touches (State.driveSync s p) [.out] := by
  unfold State.driveSync
  repeat' first
    | with_reducible exact .refl _ _
    | exact rfl
    | with_reducible apply State.Touches.after (State.emit_touches _ _)
    | with_reducible apply State.Touches.ite

theorem State.beginFrame_touches (s : State) (p : Nat) (t : Time) : s.Touches (State.beginFrame s p t) [.out, .aud] := by
  unfold State.beginFrame
  repeat' first
    | with_reducible exact .refl _ _
    | exact rfl
    | with_reducible apply State.Touches.after (State.driveSync_touches _ _)
    | with_reducible apply State.Touches.after (State.putAud_touches _ _ _)

theorem State.rotation_touches (s : State) (p : Nat) : s.Touches (State.rotation s p) [.regs, .ctlLatches] := by
  unfold State.rotation
  repeat' first
    | with_reducible exact .refl _ _
    | exact rfl
    | with_reducible apply State.Touches.after (State.setFld_touches _ _ _ _)
    | with_reducible apply State.Touches.after (State.raise_touches _ _ _)
    | with_reducible apply State.Touches.ite

theorem State.wordLost_touches (s : State) (p : Nat) (count : Fld) (ev : Fld) : s.Touches (State.wordLost s p count ev) [.regs,
    .ctlLatches, .aud] := by
  unfold State.wordLost
  repeat' first
    | with_reducible exact .refl _ _
    | exact rfl
    | with_reducible apply State.Touches.after (State.count_touches _ _ _)
    | with_reducible apply State.Touches.after (State.setFld_touches _ _ _ _)
    | with_reducible apply State.Touches.after (State.raise_touches _ _ _)
    | with_reducible apply State.Touches.after (State.putAud_touches _ _ _)

theorem State.moveWord_touches (s : State) (p : Nat) : s.Touches (State.moveWord s p) [.regs, .aud] := by
  unfold State.moveWord
  repeat' first
    | with_reducible exact .refl _ _
    | exact rfl
    | with_reducible apply State.Touches.after (State.setFld_touches _ _ _ _)
    | with_reducible apply State.Touches.after (State.putAud_touches _ _ _)

theorem State.captureWord_touches (s : State) (p : Nat) (word : Nat) : s.Touches (State.captureWord s p word) [.regs, .ctlLatches, .aud,
    .dram] := by
  unfold State.captureWord
  repeat' first
    | with_reducible exact .refl _ _
    | exact rfl
    | with_reducible apply State.Touches.after (State.pokeN_touches _ _ _)
    | with_reducible apply State.Touches.after (State.wordLost_touches _ _ _ _)
    | with_reducible apply State.Touches.after (State.moveWord_touches _ _)
    | with_reducible apply State.Touches.ite

theorem State.zeroSlots_touches (s : State) (p : Nat) : s.Touches (State.zeroSlots s p) [.regs, .ctlLatches, .aud, .dram] := by
  unfold State.zeroSlots
  repeat' first
    | with_reducible exact .refl _ _
    | exact rfl
    | with_reducible apply State.Touches.after (State.putAud_touches _ _ _)
    | with_reducible apply State.Touches.after (State.captureWord_touches _ _ _)
    | with_reducible apply State.Touches.ite
    | with_reducible apply State.Touches.foldl
    | intro _

theorem State.endFrame_touches (s : State) (p : Nat) : s.Touches (State.endFrame s p) [.regs, .ctlLatches, .aud, .dram] := by
  unfold State.endFrame
  repeat' first
    | with_reducible exact .refl _ _
    | exact rfl
    | with_reducible apply State.Touches.after (State.zeroSlots_touches _ _)
    | with_reducible apply State.Touches.after (State.putAud_touches _ _ _)
    | with_reducible apply State.Touches.after (State.endBlock_touches _ _)
    | with_reducible apply State.Touches.ite

theorem State.boundary_touches (s : State) (p : Nat) (t : Time) : s.Touches (State.boundary s p t) [.out, .regs, .ctlSnaps, .ctlLatches,
    .aud, .dram] := by
  unfold State.boundary
  repeat' first
    | with_reducible exact .refl _ _
    | exact rfl
    | with_reducible apply State.Touches.after (State.setFld_touches _ _ _ _)
    | with_reducible apply State.Touches.after (State.audStop_touches _ _)
    | with_reducible apply State.Touches.after (State.newMask_touches _ _)
    | with_reducible apply State.Touches.after (State.beginFrame_touches _ _ _)
    | with_reducible apply State.Touches.after (State.rotation_touches _ _)
    | with_reducible apply State.Touches.after (State.endFrame_touches _ _)
    | with_reducible apply State.Touches.ite
    | split

theorem State.syncEdge_touches (s : State) (p : Nat) (bclks : Nat) : s.Touches (State.syncEdge s p bclks) [.out, .regs, .ctlSnaps,
    .ctlLatches, .aud, .dram] := by
  unfold State.syncEdge
  repeat' first
    | with_reducible exact .refl _ _
    | exact rfl
    | with_reducible apply State.Touches.after (State.count_touches _ _ _)
    | with_reducible apply State.Touches.after (State.setFld_touches _ _ _ _)
    | with_reducible apply State.Touches.after (State.raise_touches _ _ _)
    | with_reducible apply State.Touches.after (State.boundary_touches _ _ _)
    | with_reducible apply State.Touches.after (State.putAud_touches _ _ _)
    | with_reducible apply State.Touches.ite

theorem State.audStart_touches (s : State) (p : Nat) : s.Touches (State.audStart s p) [.regs, .aud] := by
  unfold State.audStart
  repeat' first
    | with_reducible exact .refl _ _
    | exact rfl
    | with_reducible apply State.Touches.after (State.setFld_touches _ _ _ _)
    | with_reducible apply State.Touches.after (State.putAud_touches _ _ _)
    | with_reducible apply State.Touches.ite

theorem State.driveSlot_touches (s : State) (p : Nat) (k : Nat) (word : Nat) : s.Touches (State.driveSlot s p k word) [.out] := by
  unfold State.driveSlot
  repeat' first
    | with_reducible exact .refl _ _
    | exact rfl
    | with_reducible apply State.Touches.after (State.emit_touches _ _)

theorem State.playWord_touches (s : State) (p : Nat) (slot : Nat) : s.Touches (State.playWord s p slot) [.out, .regs, .ctlLatches, .aud]
    := by
  unfold State.playWord
  repeat' first
    | with_reducible exact .refl _ _
    | exact rfl
    | with_reducible apply State.Touches.after (State.wordLost_touches _ _ _ _)
    | with_reducible apply State.Touches.after (State.moveWord_touches _ _)
    | with_reducible apply State.Touches.after (State.driveSlot_touches _ _ _ _)
    | with_reducible apply State.Touches.ite

theorem State.audSlot_touches (s : State) (p : Nat) (word : Nat) : s.Touches (State.audSlot s p word) [.out, .regs, .ctlLatches, .aud,
    .dram] := by
  unfold State.audSlot
  repeat' first
    | with_reducible exact .refl _ _
    | exact rfl
    | with_reducible apply State.Touches.after (State.putAud_touches _ _ _)
    | with_reducible apply State.Touches.after (State.playWord_touches _ _ _)
    | with_reducible apply State.Touches.after (State.driveSlot_touches _ _ _ _)
    | with_reducible apply State.Touches.after (State.captureWord_touches _ _ _)
    | with_reducible apply State.Touches.ite

theorem State.audSwitch_touches (s : State) (p : Nat) (on : Bool) : s.Touches (State.audSwitch s p on) [.out, .regs, .ctlSnaps,
    .ctlLatches, .aud, .dram] := by
  unfold State.audSwitch
  repeat' first
    | with_reducible exact .refl _ _
    | exact rfl
    | with_reducible apply State.Touches.after (State.audStart_touches _ _)
    | with_reducible apply State.Touches.after (State.audStop_touches _ _)
    | with_reducible apply State.Touches.after (State.putAud_touches _ _ _)
    | with_reducible apply State.Touches.ite

theorem writeAudCtrl_touches (r : Req) (p : Nat) (v : Word) (s : State) : s.Touches (writeAudCtrl r p v s) [.out, .regs, .ctlW1Done,
    .ctlSnaps, .ctlLatches, .ctlBusErrHeld, .hqPci0, .hqPci1, .aud, .dram] := by
  unfold writeAudCtrl
  repeat' first
    | with_reducible exact .refl _ _
    | exact rfl
    | with_reducible apply State.Touches.after (State.wr_touches _ _ _)
    | with_reducible apply State.Touches.after (State.raise_touches _ _ _)
    | with_reducible apply State.Touches.after (State.reject_touches _ _)
    | with_reducible refine withWrite_touches _ _ _ _ _ _ (fun _ _ _ => ?_) ?_
    | with_reducible apply State.Touches.after (State.audSwitch_touches _ _ _)
    | with_reducible apply State.Touches.ite

theorem State.putMirror_touches (s : State) (k : Nat) (m : MirrorSt) : s.Touches (State.putMirror s k m) [.mirror] := by
  unfold State.putMirror
  repeat' first
    | with_reducible exact .refl _ _
    | exact rfl
    | with_reducible apply State.Touches.set

theorem State.mirrorFrame_touches (s : State) (k : Nat) : s.Touches (State.mirrorFrame s k) [.regs, .ctlLatches, .mirror] := by
  unfold State.mirrorFrame
  repeat' first
    | with_reducible exact .refl _ _
    | exact rfl
    | with_reducible apply State.Touches.after (State.count_touches _ _ _)
    | with_reducible apply State.Touches.after (State.setFld_touches _ _ _ _)
    | with_reducible apply State.Touches.after (State.raise_touches _ _ _)
    | with_reducible apply State.Touches.after (State.putMirror_touches _ _ _)
    | with_reducible apply State.Touches.ite

theorem State.putEngine_touches (s : State) (n : Nat) (e : LoupeSt) : s.Touches (State.putEngine s n e) [.loupe] := by
  unfold State.putEngine
  repeat' first
    | with_reducible exact .refl _ _
    | exact rfl
    | with_reducible apply State.Touches.set

theorem State.setLost_touches (s : State) (k : Nat) (b : Bool) : s.Touches (State.setLost s k b) [.regs] := by
  unfold State.setLost
  repeat' first
    | with_reducible exact .refl _ _
    | exact rfl
    | with_reducible apply State.Touches.after (State.setFld_touches _ _ _ _)

theorem State.mirrorLost_touches (s : State) (k : Nat) : s.Touches (State.mirrorLost s k) [.regs, .ctlLatches, .mirror] := by
  unfold State.mirrorLost
  repeat' first
    | with_reducible exact .refl _ _
    | exact rfl
    | with_reducible apply State.Touches.after (State.raise_touches _ _ _)
    | with_reducible apply State.Touches.after (State.putMirror_touches _ _ _)
    | with_reducible apply State.Touches.after (State.setLost_touches _ _ _)

theorem State.keepCrc_touches (s : State) (n : Nat) (k : Nat) (line : Nat) (crc : Nat) : s.Touches (State.keepCrc s n k line crc) [.regs,
    .ctlLatches, .loupe, .mirror] := by
  unfold State.keepCrc
  repeat' first
    | with_reducible exact .refl _ _
    | exact rfl
    | with_reducible apply State.Touches.after (State.putEngine_touches _ _ _)
    | with_reducible apply State.Touches.after (State.mirrorLost_touches _ _)
    | with_reducible apply State.Touches.ite

theorem State.sendLink_touches (s : State) (n : Nat) (k : Nat) (line : Nat) (row : Option (List (Nat × Nat × Nat))) (anc : List (List
    Nat)) (late : Bool) : s.Touches (State.sendLink s n k line row anc late) [.out, .regs, .ctlLatches, .loupe, .mirror] := by
  unfold State.sendLink
  repeat' first
    | with_reducible exact .refl _ _
    | exact rfl
    | with_reducible apply State.Touches.after (State.emit_touches _ _)
    | with_reducible apply State.Touches.after (State.raiseIf_touches _ _ _ _)
    | with_reducible apply State.Touches.after (State.keepCrc_touches _ _ _ _ _)
    | split

theorem State.loupeTake_touches (s : State) : s.Touches (State.loupeTake s) [.seed, .regs] := by
  unfold State.loupeTake
  repeat' first
    | with_reducible exact .refl _ _
    | exact rfl
    | with_reducible apply State.Touches.after (State.setFld_touches _ _ _ _)
    | with_reducible apply State.Touches.foldl
    | intro _
    | with_reducible apply State.Touches.set

theorem State.setSource_touches (s : State) (n : Nat) (src : Option (Nat × Nat)) : s.Touches (State.setSource s n src) [.regs,
    .splitHolds, .loupe] := by
  unfold State.setSource
  repeat' first
    | with_reducible exact .refl _ _
    | exact rfl
    | with_reducible apply State.Touches.after (State.setFld64_touches _ _ _ _ _)
    | with_reducible apply State.Touches.after (State.freeBuf_touches _ _ _ _)
    | with_reducible apply State.Touches.after (State.holdBuf_touches _ _ _ _)
    | with_reducible apply State.Touches.after (State.putEngine_touches _ _ _)
    | with_reducible apply State.Touches.ite
    | split

theorem State.lockSource_touches (s : State) (n : Nat) : s.Touches (State.lockSource s n) [.regs, .splitHolds, .loupe] := by
  unfold State.lockSource
  repeat' first
    | with_reducible exact .refl _ _
    | exact rfl
    | with_reducible apply State.Touches.after (State.setSource_touches _ _ _)
    | split

theorem State.frameSent_touches (s : State) (n : Nat) : s.Touches (State.frameSent s n) [.regs, .loupe] := by
  unfold State.frameSent
  repeat' first
    | with_reducible exact .refl _ _
    | exact rfl
    | with_reducible apply State.Touches.after (State.setFld64_touches _ _ _ _ _)
    | with_reducible apply State.Touches.after (State.count_touches _ _ _)
    | with_reducible apply State.Touches.after (State.putEngine_touches _ _ _)
    | with_reducible apply State.Touches.foldl
    | intro _

theorem State.lineSent_touches (s : State) (n : Nat) (y : Nat) (r : List (Nat × Nat × Nat) × Bool × Bool) : s.Touches (State.lineSent s n
    y r) [.regs, .ctlLatches, .splitHolds, .loupe] := by
  unfold State.lineSent
  repeat' first
    | with_reducible exact .refl _ _
    | exact rfl
    | with_reducible apply State.Touches.after (State.count_touches _ _ _)
    | with_reducible apply State.Touches.after (State.raiseIf_touches _ _ _ _)
    | with_reducible apply State.Touches.after (State.putEngine_touches _ _ _)
    | with_reducible apply State.Touches.after (State.setSource_touches _ _ _)
    | with_reducible apply State.Touches.ite

theorem State.loupeLine_touches (s : State) (n : Nat) (late : LineLate) : s.Touches (State.loupeLine s n late) [.out, .regs, .ctlLatches,
    .splitHolds, .loupe, .mirror] := by
  unfold State.loupeLine
  repeat' first
    | with_reducible exact .refl _ _
    | exact rfl
    | with_reducible apply State.Touches.after (State.raiseIf_touches _ _ _ _)
    | with_reducible apply State.Touches.after (State.putEngine_touches _ _ _)
    | with_reducible apply State.Touches.after (State.sendLink_touches _ _ _ _ _ _ _)
    | with_reducible apply State.Touches.after (State.lockSource_touches _ _)
    | with_reducible apply State.Touches.after (State.frameSent_touches _ _)
    | with_reducible apply State.Touches.after (State.lineSent_touches _ _ _ _)
    | with_reducible apply State.Touches.ite
    | with_reducible apply State.Touches.foldl
    | split
    | intro _

theorem State.showSdi_touches (s0 : State) (s : State) (n : Nat) : s.Touches (State.showSdi s0 s n) [.regs, .ctlLatches] := by
  unfold State.showSdi
  repeat' first
    | with_reducible exact .refl _ _
    | exact rfl
    | with_reducible apply State.Touches.after (State.setFld_touches _ _ _ _)
    | with_reducible apply State.Touches.after (State.raiseIf_touches _ _ _ _)
    | with_reducible apply State.Touches.foldl
    | intro _

theorem State.samplePoint_touches (s : State) (n : Nat) : s.Touches (State.samplePoint s n) [.seed, .regs, .ctlSnaps, .ctlLatches,
    .splitHolds, .loupe] := by
  unfold State.samplePoint
  repeat' first
    | with_reducible exact .refl _ _
    | exact rfl
    | with_reducible apply State.Touches.after (State.setFld_touches _ _ _ _)
    | with_reducible apply State.Touches.after (State.raise_touches _ _ _)
    | with_reducible apply State.Touches.after (State.raiseIf_touches _ _ _ _)
    | with_reducible apply State.Touches.after (State.applyCommit_touches _ _)
    | with_reducible apply State.Touches.after (State.putEngine_touches _ _ _)
    | with_reducible apply State.Touches.after (State.showSdi_touches _ _ _)
    | with_reducible apply State.Touches.after (State.setSource_touches _ _ _)
    | with_reducible apply State.Touches.ite
    | split
    | with_reducible apply State.Touches.set

theorem State.relockAll_touches (s : State) : s.Touches (State.relockAll s) [.regs, .ctlLatches] := by
  unfold State.relockAll
  repeat' first
    | with_reducible exact .refl _ _
    | exact rfl
    | with_reducible apply State.Touches.after (State.setFld_touches _ _ _ _)
    | with_reducible apply State.Touches.after (State.raise_touches _ _ _)
    | with_reducible apply State.Touches.ite
    | with_reducible apply State.Touches.foldl
    | intro _

theorem State.engineStart_touches (s : State) (n : Nat) : s.Touches (State.engineStart s n) [.regs, .loupe] := by
  unfold State.engineStart
  repeat' first
    | with_reducible exact .refl _ _
    | exact rfl
    | with_reducible apply State.Touches.after (State.setFld64_touches _ _ _ _ _)
    | with_reducible apply State.Touches.after (State.setFld_touches _ _ _ _)
    | with_reducible apply State.Touches.after (State.putEngine_touches _ _ _)

theorem State.engineStop_touches (s : State) (n : Nat) : s.Touches (State.engineStop s n) [.regs, .ctlSnaps, .ctlLatches, .splitHolds,
    .loupe] := by
  unfold State.engineStop
  repeat' first
    | with_reducible exact .refl _ _
    | exact rfl
    | with_reducible apply State.Touches.after (State.setFld_touches _ _ _ _)
    | with_reducible apply State.Touches.after (State.applyCommit_touches _ _)
    | with_reducible apply State.Touches.after (State.putEngine_touches _ _ _)
    | with_reducible apply State.Touches.after (State.setSource_touches _ _ _)
    | with_reducible apply State.Touches.ite

theorem writeLoupeCtrl_touches (r : Req) (n : Nat) (v : Word) (s : State) : s.Touches (writeLoupeCtrl r n v s) [.out, .regs, .ctlLoHold,
    .ctlW1Done, .ctlSnaps, .ctlLatches, .ctlBusErrHeld, .hqPci0, .hqPci1, .portA, .portB, .fstoreMem, .splitHolds, .drdecOutCount,
    .drdecLast, .drdecCur, .drdecRecords, .drdecReady, .hdec, .aud, .condParked, .relayDescs, .pwrHeld, .pwrRising, .loupe, .mirror,
    .flows] := by
  unfold writeLoupeCtrl
  repeat' first
    | with_reducible exact .refl _ _
    | exact rfl
    | with_reducible apply State.Touches.after (State.reject_touches _ _)
    | with_reducible refine withWrite_touches _ _ _ _ _ _ (fun _ _ _ => ?_) ?_
    | with_reducible apply State.Touches.after (plainStore_touches _ _ _ _ _ _)
    | with_reducible apply State.Touches.after (State.settle_touches _ _)
    | with_reducible apply State.Touches.after (State.engineStart_touches _ _)
    | with_reducible apply State.Touches.after (State.engineStop_touches _ _)
    | with_reducible apply State.Touches.ite

theorem writeMirrorCtrl_touches (r : Req) (v : Word) (s : State) : s.Touches (writeMirrorCtrl r v s) [.out, .regs, .ctlLoHold,
    .ctlW1Done, .ctlLatches, .ctlBusErrHeld, .hqPci0, .hqPci1, .portA, .portB, .fstoreMem, .drdecOutCount, .drdecLast, .drdecCur,
    .drdecRecords, .drdecReady, .hdec, .aud, .condParked, .relayDescs, .pwrHeld, .pwrRising, .loupe, .mirror, .flows] := by
  unfold writeMirrorCtrl
  repeat' first
    | with_reducible exact .refl _ _
    | exact rfl
    | with_reducible apply State.Touches.after (State.setFld_touches _ _ _ _)
    | with_reducible refine withWrite_touches _ _ _ _ _ _ (fun _ _ _ => ?_) ?_
    | with_reducible apply State.Touches.after (plainStore_touches _ _ _ _ _ _)
    | with_reducible apply State.Touches.after (State.settle_touches _ _)
    | with_reducible apply State.Touches.after (State.putMirror_touches _ _ _)
    | with_reducible apply State.Touches.after (State.setLost_touches _ _ _)
    | with_reducible apply State.Touches.ite
    | with_reducible apply State.Touches.foldl
    | intro _

theorem State.dropSources_touches (s : State) : s.Touches (State.dropSources s) [.regs, .splitHolds, .loupe] := by
  unfold State.dropSources
  repeat' first
    | with_reducible exact .refl _ _
    | exact rfl
    | with_reducible apply State.Touches.after (State.setSource_touches _ _ _)
    | with_reducible apply State.Touches.foldl
    | split
    | intro _

theorem State.mirrorLine_touches (s : State) (k : Nat) (line : Nat) (crc : Nat) (b : MirrorLine) : s.Touches (State.mirrorLine s k line
    crc b) [.regs, .ctlLatches, .mirror] := by
  unfold State.mirrorLine
  repeat' first
    | with_reducible exact .refl _ _
    | exact rfl
    | with_reducible apply State.Touches.after (State.count_touches _ _ _)
    | with_reducible apply State.Touches.after (State.raise_touches _ _ _)
    | with_reducible apply State.Touches.after (State.raiseIf_touches _ _ _ _)
    | with_reducible apply State.Touches.after (State.mirrorFrame_touches _ _)
    | with_reducible apply State.Touches.after (State.mirrorLost_touches _ _)
    | with_reducible apply State.Touches.after (State.putMirror_touches _ _ _)
    | with_reducible apply State.Touches.ite

theorem State.mirrorCheck_touches (s : State) (k : Nat) (b : MirrorLine) : s.Touches (State.mirrorCheck s k b) [.regs, .ctlLatches,
    .loupe, .mirror] := by
  unfold State.mirrorCheck
  repeat' first
    | with_reducible exact .refl _ _
    | exact rfl
    | with_reducible apply State.Touches.after (State.putEngine_touches _ _ _)
    | with_reducible apply State.Touches.after (State.putMirror_touches _ _ _)
    | with_reducible apply State.Touches.after (State.mirrorLine_touches _ _ _ _ _)
    | with_reducible apply State.Touches.after (State.setLost_touches _ _ _)
    | with_reducible apply State.Touches.ite
    | split

theorem State.putFlow_touches (s : State) (f : Nat) (x : FlowSt) : s.Touches (State.putFlow s f x) [.flows] := by
  unfold State.putFlow
  repeat' first
    | with_reducible exact .refl _ _
    | exact rfl
    | with_reducible apply State.Touches.set

theorem State.flowStart_touches (s : State) (f : Nat) : s.Touches (State.flowStart s f) [.seed, .flows] := by
  unfold State.flowStart
  repeat' first
    | with_reducible exact .refl _ _
    | exact rfl
    | with_reducible apply State.Touches.after (State.putFlow_touches _ _ _)
    | with_reducible apply State.Touches.set

theorem State.sendPacket_touches (s : State) (f : Nat) (x : FlowSt) (stamp : Nat) (marker : Bool) (line : Nat) (off : Nat) (b : List
    Byte) (fill : Bool) : s.Touches (State.sendPacket s f x stamp marker line off b fill) [.out, .regs, .ctlLatches, .flows] := by
  unfold State.sendPacket
  repeat' first
    | with_reducible exact .refl _ _
    | exact rfl
    | with_reducible apply State.Touches.after (State.setFld64_touches _ _ _ _ _)
    | with_reducible apply State.Touches.after (State.emit_touches _ _)
    | with_reducible apply State.Touches.after (State.raiseIf_touches _ _ _ _)
    | with_reducible apply State.Touches.after (State.putFlow_touches _ _ _)

theorem State.sendDirect_touches (s : State) (f : Nat) (late : Bool) : s.Touches (s.sendDirect f late) [.out, .regs, .ctlLatches,
    .splitHolds, .flows] := by
  unfold State.sendDirect
  dsimp only
  split
  · exact .refl _ _
  · split
    · exact .refl _ _
    · rename_i s1 x1 g heq
      have h1 : s.Touches s1 [.out, .regs, .ctlLatches, .splitHolds, .flows] := by
        split at heq
        · cases heq
          exact .refl _ _
        · split at heq
          · cases heq
          · cases hw : s.newestOf (s.flowSrc f) with
            | none => rw [hw] at heq; cases heq
            | some g1 =>
              rw [hw] at heq
              cases heq
              exact (State.holdBuf_touches ..).mono rfl
      split
      · exact .step h1 (State.sendPacket_touches ..) rfl
      · exact .step (.step h1 (State.freeBuf_touches ..) rfl) (State.sendPacket_touches ..) rfl

theorem State.sendEngine_touches (s : State) (f : Nat) (late : Bool) : s.Touches (State.sendEngine s f late) [.out, .regs, .ctlLatches,
    .flows] := by
  unfold State.sendEngine
  repeat' first
    | with_reducible exact .refl _ _
    | exact rfl
    | with_reducible apply State.Touches.after (State.sendPacket_touches _ _ _ _ _ _ _ _ _)
    | with_reducible apply State.Touches.after (State.putFlow_touches _ _ _)
    | split
    | dsimp only

theorem State.flowDrop_touches (s : State) (f : Nat) : s.Touches (State.flowDrop s f) [.splitHolds, .flows] := by
  unfold State.flowDrop
  repeat' first
    | with_reducible exact .refl _ _
    | exact rfl
    | with_reducible apply State.Touches.after (State.freeBuf_touches _ _ _ _)
    | with_reducible apply State.Touches.after (State.putFlow_touches _ _ _)
    | split

theorem writeFlowCfg_touches (r : Req) (f : Nat) (v : Word) (s : State) : s.Touches (writeFlowCfg r f v s) [.out, .seed, .regs,
    .ctlLoHold, .ctlW1Done, .ctlLatches, .ctlBusErrHeld, .hqPci0, .hqPci1, .splitHolds, .flows] := by
  unfold writeFlowCfg
  repeat' first
    | with_reducible exact .refl _ _
    | exact rfl
    | with_reducible apply State.Touches.after (State.raise_touches _ _ _)
    | with_reducible apply State.Touches.after (State.reject_touches _ _)
    | with_reducible refine withWrite_touches _ _ _ _ _ _ (fun _ _ _ => ?_) ?_
    | with_reducible apply State.Touches.after (plainStore_touches _ _ _ _ _ _)
    | with_reducible apply State.Touches.after (State.flowStart_touches _ _)
    | with_reducible apply State.Touches.after (State.putFlow_touches _ _ _)
    | with_reducible apply State.Touches.after (State.flowDrop_touches _ _)
    | with_reducible apply State.Touches.ite

theorem State.sendAudio_touches (s : State) (f : Nat) (late : Bool) : s.Touches (State.sendAudio s f late) [.out, .regs, .ctlLatches,
    .flows] := by
  unfold State.sendAudio
  repeat' first
    | with_reducible exact .refl _ _
    | exact rfl
    | with_reducible apply State.Touches.after (State.sendPacket_touches _ _ _ _ _ _ _ _ _)
    | with_reducible apply State.Touches.ite

theorem State.sendAnc_touches (s : State) (f : Nat) (late : Bool) : s.Touches (State.sendAnc s f late) [.out, .regs, .ctlLatches, .flows]
    := by
  unfold State.sendAnc
  repeat' first
    | with_reducible exact .refl _ _
    | exact rfl
    | with_reducible apply State.Touches.after (State.sendPacket_touches _ _ _ _ _ _ _ _ _)
    | with_reducible apply State.Touches.ite
    | split

theorem State.flowSend_touches (s : State) (f : Nat) (late : Bool) : s.Touches (State.flowSend s f late) [.out, .regs, .ctlLatches,
    .splitHolds, .flows] := by
  unfold State.flowSend
  repeat' first
    | with_reducible exact .refl _ _
    | exact rfl
    | with_reducible apply State.Touches.after (State.sendDirect_touches _ _ _)
    | with_reducible apply State.Touches.after (State.sendEngine_touches _ _ _)
    | with_reducible apply State.Touches.after (State.sendAudio_touches _ _ _)
    | with_reducible apply State.Touches.after (State.sendAnc_touches _ _ _)
    | split

theorem State.setEthLink_touches (s : State) (e : Nat) (up : Bool) : s.Touches (State.setEthLink s e up) [.regs, .ctlLatches] := by
  unfold State.setEthLink
  repeat' first
    | with_reducible exact .refl _ _
    | exact rfl
    | with_reducible apply State.Touches.after (State.setOn_touches _ _ _ _)
    | with_reducible apply State.Touches.after (State.raise_touches _ _ _)
    | with_reducible apply State.Touches.ite

theorem writeEthCtrl_touches (r : Req) (e : Nat) (v : Word) (s : State) : s.Touches (writeEthCtrl r e v s) [.out, .regs, .ctlLoHold,
    .ctlW1Done, .ctlLatches, .ctlBusErrHeld, .hqPci0, .hqPci1, .portA, .portB, .fstoreMem, .drdecOutCount, .drdecLast, .drdecCur,
    .drdecRecords, .drdecReady, .hdec, .aud, .condParked, .relayDescs, .pwrHeld, .pwrRising, .loupe, .mirror, .flows] := by
  unfold writeEthCtrl
  repeat' first
    | with_reducible exact .refl _ _
    | exact rfl
    | with_reducible refine withWrite_touches _ _ _ _ _ _ (fun _ _ _ => ?_) ?_
    | with_reducible apply State.Touches.after (plainStore_touches _ _ _ _ _ _)
    | with_reducible apply State.Touches.after (State.settle_touches _ _)
    | with_reducible apply State.Touches.after (State.setEthLink_touches _ _ _)
    | with_reducible apply State.Touches.ite

theorem State.showOffset_touches (s : State) (theta : ℤ) : s.Touches (State.showOffset s theta) [.regs] := by
  unfold State.showOffset
  repeat' first
    | with_reducible exact .refl _ _
    | exact rfl
    | with_reducible apply State.Touches.after (State.setFld_touches _ _ _ _)

theorem State.stepTo_touches (s : State) (t : Time) : s.Touches (State.stepTo s t) [.regs, .ctlLatches, .collSync, .collT3, .loupe,
    .time] := by
  unfold State.stepTo
  repeat' first
    | with_reducible exact .refl _ _
    | exact rfl
    | with_reducible apply State.Touches.after (State.raise_touches _ _ _)
    | with_reducible apply State.Touches.ite
    | with_reducible apply State.Touches.foldl
    | intro _
    | with_reducible apply State.Touches.set

theorem State.setTime_touches (s : State) : s.Touches s.setTime [.regs, .ctlLatches, .collSync, .collT3, .loupe, .time] := by
  unfold State.setTime
  exact (State.stepTo_touches ..).mono rfl

theorem State.setRate_touches (s : State) (a : ℤ) : s.Touches (State.setRate s a) [.regs] := by
  unfold State.setRate
  repeat' first
    | with_reducible exact .refl _ _
    | exact rfl
    | with_reducible apply State.Touches.after (State.setFld_touches _ _ _ _)

theorem State.holdRate_touches (s : State) : s.Touches (State.holdRate s) [.regs] := by
  unfold State.holdRate
  repeat' first
    | with_reducible exact .refl _ _
    | exact rfl
    | with_reducible apply State.Touches.after (State.setRate_touches _ _)

theorem State.showAligned_touches (s : State) : s.Touches (State.showAligned s) [.regs, .ctlLatches] := by
  unfold State.showAligned
  repeat' first
    | with_reducible exact .refl _ _
    | exact rfl
    | with_reducible apply State.Touches.after (State.setOn_touches _ _ _ _)
    | with_reducible apply State.Touches.after (State.raiseIf_touches _ _ _ _)

theorem State.enter_touches (s : State) (v : Nat) : s.Touches (State.enter s v) [.regs, .ctlLatches, .collSmall] := by
  unfold State.enter
  repeat' first
    | with_reducible exact .refl _ _
    | exact rfl
    | with_reducible apply State.Touches.after (State.setFld_touches _ _ _ _)
    | with_reducible apply State.Touches.after (State.raiseIf_touches _ _ _ _)
    | with_reducible apply State.setColl_touches
    | with_reducible apply State.Touches.after (State.holdRate_touches _)
    | with_reducible apply State.Touches.after (State.showAligned_touches _)
    | with_reducible apply State.Touches.ite

theorem State.stepHold_touches (s : State) : s.Touches (State.stepHold s) [.regs, .ctlLatches, .collStepSum, .collStepNum, .collSmall] :=
    by
  unfold State.stepHold
  repeat' first
    | with_reducible exact .refl _ _
    | exact rfl
    | with_reducible apply State.Touches.after (State.raise_touches _ _ _)
    | with_reducible apply State.Touches.after (State.enter_touches _ _)
    | with_reducible apply State.setColl_touches

theorem State.collRestart_touches (s : State) : s.Touches (State.collRestart s) [.regs, .collF, .collMasters, .collSel, .collDelays,
    .collSync, .collT3, .collAccepted, .collReceived, .collStepSum, .collStepNum, .collSmall, .collWithin, .time] := by
  unfold State.collRestart
  repeat' first
    | with_reducible exact .refl _ _
    | exact rfl
    | with_reducible apply State.Touches.after (State.setFld_touches _ _ _ _)
    | with_reducible apply State.Touches.set

theorem State.slew_touches (s : State) (theta : ℤ) (log : ℤ) : s.Touches (State.slew s theta log) [.regs, .ctlLatches, .collF] := by
  unfold State.slew
  repeat' first
    | with_reducible exact .refl _ _
    | exact rfl
    | with_reducible apply State.Touches.after (State.raiseIf_touches _ _ _ _)
    | with_reducible apply State.setColl_touches
    | with_reducible apply State.Touches.after (State.setRate_touches _ _)

theorem State.syncIn_touches (s : State) : s.Touches (State.syncIn s) [.regs, .ctlLatches, .collF] := by
  unfold State.syncIn
  repeat' first
    | with_reducible exact .refl _ _
    | exact rfl
    | with_reducible apply State.Touches.after (State.setFld64_touches _ _ _ _ _)
    | with_reducible apply State.Touches.after (State.setFld_touches _ _ _ _)
    | with_reducible apply State.Touches.after (State.raise_touches _ _ _)
    | with_reducible apply State.Touches.after (State.showOffset_touches _ _)
    | with_reducible apply State.Touches.after (State.slew_touches _ _ _)
    | with_reducible apply State.Touches.ite

theorem State.syncLost_touches (s : State) : s.Touches (State.syncLost s) [.regs, .ctlLatches, .collMasters, .collSel, .collSmall] := by
  unfold State.syncLost
  repeat' first
    | with_reducible exact .refl _ _
    | exact rfl
    | with_reducible apply State.Touches.after (State.enter_touches _ _)
    | with_reducible apply State.setColl_touches
    | with_reducible apply State.Touches.ite

theorem State.servoStop_touches (s : State) : s.Touches (State.servoStop s) [.regs, .ctlLatches, .collMasters, .collSel, .collDelays,
    .collSync, .collT3, .collAccepted, .collReceived, .collStepSum, .collStepNum, .collSmall, .collWithin] := by
  unfold State.servoStop
  repeat' first
    | with_reducible exact .refl _ _
    | exact rfl
    | with_reducible apply State.Touches.after (State.enter_touches _ _)
    | with_reducible apply State.setColl_touches

theorem State.select_touches (s : State) (m : PtpAnnounceMsg) : s.Touches (State.select s m) [.regs, .ctlLatches, .collSel, .collSync,
    .collT3, .collSmall] := by
  unfold State.select
  repeat' first
    | with_reducible exact .refl _ _
    | exact rfl
    | with_reducible apply State.Touches.after (State.setFld64_touches _ _ _ _ _)
    | with_reducible apply State.Touches.after (State.setFld_touches _ _ _ _)
    | with_reducible apply State.Touches.after (State.raiseIf_touches _ _ _ _)
    | with_reducible apply State.Touches.after (State.enter_touches _ _)
    | with_reducible apply State.setColl_touches

theorem State.sendDelayReq_touches (s : State) : s.Touches (State.sendDelayReq s) [.out, .regs, .collT3] := by
  unfold State.sendDelayReq
  repeat' first
    | with_reducible exact .refl _ _
    | exact rfl
    | with_reducible apply State.Touches.after (State.setFld64_touches _ _ _ _ _)
    | with_reducible apply State.Touches.after (State.emit_touches _ _)
    | with_reducible apply State.setColl_touches
    | split

theorem State.touches_samples (s : State) (a : List Int) (m n : Nat) :
    s.Touches (s.setColl { s.coll with accepted := a, small := m, within := n }) [.collAccepted, .collSmall, .collWithin] := .of_mix rfl rfl

theorem State.acceptSample_touches (s : State) (theta : Int) : s.Touches (State.acceptSample s theta) [.regs, .collAccepted, .collSmall,
    .collWithin] := by
  unfold State.acceptSample
  exact .step ((State.touches_samples ..).mono rfl) (State.count_touches ..) rfl

theorem State.track_touches (s : State) (theta : ℤ) (log : ℤ) : s.Touches (State.track s theta log) [.regs, .ctlLatches, .collF,
    .collAccepted, .collStepSum, .collStepNum, .collSmall, .collWithin] := by
  unfold State.track
  repeat' first
    | with_reducible exact .refl _ _
    | exact rfl
    | with_reducible apply State.Touches.after (State.stepHold_touches _)
    | with_reducible apply State.Touches.after (State.slew_touches _ _ _)
    | with_reducible apply State.Touches.after (State.showAligned_touches _)
    | with_reducible apply State.Touches.after (State.acceptSample_touches _ _)
    | with_reducible apply State.Touches.ite

theorem State.windowEnd_touches (s : State) : s.Touches (State.windowEnd s) [.regs, .ctlLatches, .collSmall] := by
  unfold State.windowEnd
  repeat' first
    | with_reducible exact .refl _ _
    | exact rfl
    | with_reducible apply State.Touches.after (State.raise_touches _ _ _)
    | with_reducible apply State.Touches.after (State.enter_touches _ _)
    | with_reducible apply State.Touches.ite

theorem State.acquire_touches (s : State) (theta : ℤ) (log : ℤ) : s.Touches (State.acquire s theta log) [.regs, .ctlLatches, .collF,
    .collSync, .collT3, .collAccepted, .collSmall, .collWithin, .loupe, .time] := by
  unfold State.acquire
  repeat' first
    | with_reducible exact .refl _ _
    | exact rfl
    | with_reducible apply State.Touches.after (State.enter_touches _ _)
    | with_reducible apply State.setColl_touches
    | with_reducible apply State.Touches.after (State.holdRate_touches _)
    | with_reducible apply State.Touches.after (State.slew_touches _ _ _)
    | with_reducible apply State.Touches.after (State.showAligned_touches _)
    | with_reducible apply State.Touches.after (State.acceptSample_touches _ _)
    | with_reducible apply State.Touches.after (State.stepTo_touches _ _)
    | with_reducible apply State.Touches.ite

theorem State.sample_touches (s0 : State) (theta : ℤ) (log : ℤ) : s0.Touches (State.sample s0 theta log) [.regs, .ctlLatches, .collF,
    .collSync, .collT3, .collAccepted, .collReceived, .collStepSum, .collStepNum, .collSmall, .collWithin, .loupe, .time] := by
  unfold State.sample
  repeat' first
    | with_reducible exact .refl _ _
    | exact rfl
    | with_reducible apply State.Touches.after (State.showOffset_touches _ _)
    | with_reducible apply State.Touches.after (State.stepHold_touches _)
    | with_reducible apply State.Touches.after (State.enter_touches _ _)
    | with_reducible apply State.setColl_touches
    | with_reducible apply State.Touches.after (State.slew_touches _ _ _)
    | with_reducible apply State.Touches.after (State.track_touches _ _ _)
    | with_reducible apply State.Touches.after (State.acceptSample_touches _ _)
    | with_reducible apply State.Touches.after (State.acquire_touches _ _ _)
    | split
    | dsimp only

theorem State.snap_touches (s : State) (r : Req) : s.Touches (State.snap s r) [.regs] := by
  unfold State.snap
  repeat' first
    | with_reducible exact .refl _ _
    | exact rfl
    | with_reducible apply State.Touches.after (State.setFld64_touches _ _ _ _ _)
    | with_reducible apply State.Touches.after (State.setFld_touches _ _ _ _)

theorem writeCollCtrl_touches (r : Req) (v : Word) (s : State) : s.Touches (writeCollCtrl r v s) [.out, .regs, .ctlW1Done, .ctlLatches,
    .ctlBusErrHeld, .hqPci0, .hqPci1, .collMasters, .collSel, .collDelays, .collSync, .collT3, .collAccepted, .collReceived,
    .collStepSum, .collStepNum, .collSmall, .collWithin, .loupe, .time] := by
  unfold writeCollCtrl
  repeat' first
    | with_reducible exact .refl _ _
    | exact rfl
    | with_reducible apply State.Touches.after (State.wr_touches _ _ _)
    | with_reducible apply State.Touches.after (State.reject_touches _ _)
    | with_reducible refine withWrite_touches _ _ _ _ _ _ (fun _ _ _ => ?_) ?_
    | with_reducible apply State.Touches.after (State.setTime_touches _)
    | with_reducible apply State.Touches.after (State.servoStop_touches _)
    | with_reducible apply State.Touches.after (State.snap_touches _ _)
    | with_reducible apply State.Touches.ite

theorem State.tick_touches (s : State) : s.Touches (State.tick s) [.time] := by
  unfold State.tick
  repeat' first
    | with_reducible exact .refl _ _
    | exact rfl
    | with_reducible apply State.Touches.ite
    | with_reducible apply State.Touches.set

theorem State.ptpDiscard_touches (s : State) : s.Touches (State.ptpDiscard s) [.regs] := by
  unfold State.ptpDiscard
  repeat' first
    | with_reducible exact .refl _ _
    | exact rfl
    | with_reducible apply State.Touches.after (State.count_touches _ _ _)

theorem State.rxDelayResp_touches (s : State) (m : PtpDelayRespMsg) : s.Touches (State.rxDelayResp s m) [.regs, .collDelays, .collT3] :=
    by
  unfold State.rxDelayResp
  repeat' first
    | with_reducible exact .refl _ _
    | exact rfl
    | with_reducible apply State.Touches.after (State.setFld_touches _ _ _ _)
    | with_reducible apply State.setColl_touches
    | with_reducible apply State.Touches.after (State.ptpDiscard_touches _)
    | split

theorem State.rxSync_touches (s : State) (m : PtpSyncMsg) : s.Touches (State.rxSync s m) [.regs, .ctlLatches, .collF, .collSync, .collT3,
    .collAccepted, .collReceived, .collStepSum, .collStepNum, .collSmall, .collWithin, .loupe, .time] := by
  unfold State.rxSync
  repeat' first
    | with_reducible exact .refl _ _
    | exact rfl
    | with_reducible apply State.setColl_touches
    | with_reducible apply State.Touches.after (State.sample_touches _ _ _)
    | with_reducible apply State.Touches.after (State.ptpDiscard_touches _)
    | with_reducible apply State.Touches.ite

theorem State.rxAnnounce_touches (s : State) (m : PtpAnnounceMsg) : s.Touches (State.rxAnnounce s m) [.regs, .ctlLatches, .collMasters,
    .collSel, .collSync, .collT3, .collSmall] := by
  unfold State.rxAnnounce
  repeat' first
    | with_reducible exact .refl _ _
    | exact rfl
    | with_reducible apply State.setColl_touches
    | with_reducible apply State.Touches.after (State.select_touches _ _)
    | with_reducible apply State.Touches.after (State.ptpDiscard_touches _)
    | split
    | dsimp only

theorem writePtpCfg_touches (r : Req) (v : Word) (s : State) : s.Touches (writePtpCfg r v s) [.out, .regs, .ctlLoHold, .ctlW1Done,
    .ctlLatches, .ctlBusErrHeld, .hqPci0, .hqPci1] := by
  unfold writePtpCfg
  repeat' first
    | with_reducible exact .refl _ _
    | exact rfl
    | with_reducible apply State.Touches.after (State.showCorr_touches _)
    | with_reducible refine withWrite_touches _ _ _ _ _ _ (fun _ _ _ => ?_) ?_
    | with_reducible apply State.Touches.after (plainStore_touches _ _ _ _ _ _)

theorem State.disarm_touches (s : State) : s.Touches (State.disarm s) [.regs] := by
  unfold State.disarm
  repeat' first
    | with_reducible exact .refl _ _
    | exact rfl
    | with_reducible apply State.Touches.after (State.setFld_touches _ _ _ _)

theorem State.trigStart_touches (s : State) : s.Touches (State.trigStart s) [.regs, .trig, .exposures] := by
  unfold State.trigStart
  repeat' first
    | with_reducible exact .refl _ _
    | exact rfl
    | with_reducible apply State.Touches.after (State.setFld64_touches _ _ _ _ _)
    | with_reducible apply State.Touches.after (State.setFld_touches _ _ _ _)
    | with_reducible apply State.Touches.set

theorem State.triggerEdge_touches (s : State) (pin : Nat) : s.Touches (State.triggerEdge s pin) [.out, .regs, .ctlLatches, .trig,
    .exposures] := by
  unfold State.triggerEdge
  repeat' first
    | with_reducible exact .refl _ _
    | exact rfl
    | with_reducible apply State.Touches.after (State.setFld64_touches _ _ _ _ _)
    | with_reducible apply State.Touches.after (State.count_touches _ _ _)
    | with_reducible apply State.Touches.after (State.setFld_touches _ _ _ _)
    | with_reducible apply State.Touches.after (State.emit_touches _ _)
    | with_reducible apply State.Touches.after (State.raise_touches _ _ _)
    | with_reducible apply State.Touches.after (State.raiseIf_touches _ _ _ _)
    | with_reducible apply State.setTrig_touches
    | with_reducible apply State.Touches.ite
    | with_reducible apply State.Touches.set

theorem State.pulseEnd_touches (s : State) (pin : Nat) : s.Touches (State.pulseEnd s pin) [.out, .trig] := by
  unfold State.pulseEnd
  repeat' first
    | with_reducible exact .refl _ _
    | exact rfl
    | with_reducible apply State.Touches.after (State.emit_touches _ _)
    | with_reducible apply State.setTrig_touches
    | split
    | dsimp only

theorem State.syncOut_touches (s : State) : s.Touches (State.syncOut s) [.out] := by
  unfold State.syncOut
  repeat' first
    | with_reducible exact .refl _ _
    | exact rfl
    | with_reducible apply State.Touches.after (State.emit_touches _ _)
    | split

theorem State.armTriggers_touches (s : State) : s.Touches (State.armTriggers s) [.regs, .ctlLatches, .trig] := by
  unfold State.armTriggers
  repeat' first
    | with_reducible exact .refl _ _
    | exact rfl
    | with_reducible apply State.Touches.after (State.setFld64_touches _ _ _ _ _)
    | with_reducible apply State.Touches.after (State.setFld_touches _ _ _ _)
    | with_reducible apply State.Touches.after (State.raise_touches _ _ _)
    | with_reducible apply State.setTrig_touches
    | with_reducible apply State.Touches.ite

theorem State.raiseAll_touches (s : State) (l : List (Nat × Fld)) : s.Touches (State.raiseAll s l) [.regs, .ctlLatches] := by
  unfold State.raiseAll
  repeat' first
    | with_reducible exact .refl _ _
    | exact rfl
    | with_reducible apply State.Touches.after (State.raise_touches _ _ _)
    | with_reducible apply State.Touches.foldl
    | intro _

theorem runCheckConfig_touches (h : HostData) (tag : Nat) (c : Cmd) (s : State) : s.Touches (runCheckConfig h tag c s) [.out, .regs,
    .ctlLatches, .hqCmds, .hqErrors, .hqErrCount0, .hqErrCount1, .hqReport] := by
  unfold runCheckConfig
  repeat' first
    | with_reducible exact .refl _ _
    | exact rfl
    | with_reducible apply State.Touches.after (State.finishTag_touches _ _ _ _ _ _)
    | with_reducible apply State.setHq_touches
    | with_reducible apply State.Touches.after (State.failBuf_touches _ _ _)
    | with_reducible apply State.Touches.after (State.toHost_touches _ _ _ _)
    | split
    | dsimp only

theorem State.allDram_touches (s : State) (f : Fld) (v : Nat) : s.Touches (State.allDram s f v) [.regs] := by
  unfold State.allDram
  repeat' first
    | with_reducible exact .refl _ _
    | exact rfl
    | with_reducible apply State.Touches.after (State.setFld_touches _ _ _ _)
    | with_reducible apply State.Touches.foldl
    | intro _

theorem State.freqStart_touches (s : State) (fs : Nat) : s.Touches (State.freqStart s fs) [.regs, .dramcChange, .dramcStarted] := by
  unfold State.freqStart
  repeat' first
    | with_reducible exact .refl _ _
    | exact rfl
    | with_reducible apply State.Touches.after (State.setFld_touches _ _ _ _)
    | with_reducible apply State.Touches.after (State.allDram_touches _ _ _)
    | with_reducible apply State.setDramc_touches

theorem State.freqRequest_touches (s : State) (fs : Nat) : s.Touches (State.freqRequest s fs) [.regs, .ctlLatches, .dramcChange,
    .dramcStarted, .dramcHeld] := by
  unfold State.freqRequest
  repeat' first
    | with_reducible exact .refl _ _
    | exact rfl
    | with_reducible apply State.Touches.after (State.setFld_touches _ _ _ _)
    | with_reducible apply State.Touches.after (State.raise_touches _ _ _)
    | with_reducible apply State.Touches.after (State.freqStart_touches _ _)
    | with_reducible apply State.setDramc_touches
    | with_reducible apply State.Touches.ite

theorem writeFreq_touches (r : Req) (v : Word) (s : State) : s.Touches (writeFreq r v s) [.out, .regs, .ctlLoHold, .ctlW1Done,
    .ctlLatches, .ctlBusErrHeld, .hqPci0, .hqPci1, .dramcChange, .dramcStarted, .dramcHeld] := by
  unfold writeFreq
  repeat' first
    | with_reducible exact .refl _ _
    | exact rfl
    | with_reducible apply State.Touches.after (State.reject_touches _ _)
    | with_reducible refine withWrite_touches _ _ _ _ _ _ (fun _ _ _ => ?_) ?_
    | with_reducible apply State.Touches.after (plainStore_touches _ _ _ _ _ _)
    | with_reducible apply State.Touches.after (State.freqRequest_touches _ _)
    | with_reducible apply State.Touches.ite

theorem State.dramWake_touches (s : State) : s.Touches (State.dramWake s) [.regs, .dramcChange, .dramcStarted, .dramcHeld, .dramcGather,
    .dramcNext] := by
  unfold State.dramWake
  repeat' first
    | with_reducible exact .refl _ _
    | exact rfl
    | with_reducible apply State.Touches.after (State.setFld_touches _ _ _ _)
    | with_reducible apply State.Touches.after (State.allDram_touches _ _ _)
    | with_reducible apply State.setDramc_touches

theorem State.setBand_touches (s : State) (k : Nat) (b : Nat) : s.Touches (State.setBand s k b) [.regs] := by
  unfold State.setBand
  repeat' first
    | with_reducible exact .refl _ _
    | exact rfl
    | with_reducible apply State.Touches.after (State.setFld_touches _ _ _ _)

theorem State.freqDone_touches (s : State) : s.Touches (State.freqDone s) [.regs, .ctlLatches, .dramcChange, .dramcStarted, .dramcHeld,
    .dramcNext, .dramcBands] := by
  unfold State.freqDone
  repeat' first
    | with_reducible exact .refl _ _
    | exact rfl
    | with_reducible apply State.Touches.after (State.setFld_touches _ _ _ _)
    | with_reducible apply State.Touches.after (State.raise_touches _ _ _)
    | with_reducible apply State.Touches.after (State.freqStart_touches _ _)
    | with_reducible apply State.Touches.after (State.allDram_touches _ _ _)
    | with_reducible apply State.setDramc_touches
    | with_reducible apply State.Touches.after (State.setBand_touches _ _ _)
    | with_reducible apply State.Touches.foldl
    | split
    | intro _

theorem State.freqZero_touches (s : State) : s.Touches (State.freqZero s) [.regs, .ctlLatches, .dramcChange, .dramcStarted, .dramcHeld,
    .dramcGather, .dramcNext, .dramcBands] := by
  unfold State.freqZero
  repeat' first
    | with_reducible exact .refl _ _
    | exact rfl
    | with_reducible apply State.Touches.after (State.setFld_touches _ _ _ _)
    | with_reducible apply State.Touches.after (State.freqStart_touches _ _)
    | with_reducible apply State.Touches.after (State.freqDone_touches _)
    | with_reducible apply State.setDramc_touches
    | with_reducible apply State.Touches.ite

theorem State.pollChannel_touches (s : State) (k deg mr4 : Nat) : s.Touches (s.pollChannel k deg mr4) [.regs, .ctlLatches, .dramcCool,
    .dramcBands] := by
  have hset : ∀ (t : State) b, t.Touches (if t.dramc.started then
      t.setDramc { t.dramc with bands := t.dramc.bands.filter (fun e => decide (e.1 ≠ k)) ++ [(k, b)] } else t.setBand k b)
      [.regs, .ctlLatches, .dramcCool, .dramcBands] := fun t b => .ite (.of_mix rfl rfl) ((State.setBand_touches ..).mono rfl)
  have hcount : ∀ (t : State) n, t.Touches (t.setDramc { t.dramc with cool := t.dramc.cool.put k n })
      [.regs, .ctlLatches, .dramcCool, .dramcBands] := fun t n => .of_mix rfl rfl
  unfold State.pollChannel
  extract_lets s1 now b cool setTo count s2
  have h1 : s.Touches s1 [.regs, .ctlLatches, .dramcCool, .dramcBands] := (State.setFld_touches ..).mono rfl
  have h2 : s.Touches s2 [.regs, .ctlLatches, .dramcCool, .dramcBands] :=
    .ite (.trans (h1.trans (hcount ..)) (hset ..))
      (.ite (.ite (.trans (h1.trans (hcount ..)) (hset ..)) (h1.trans (hcount ..))) (h1.trans (hcount ..)))
  exact .ite (.step (h2.step (State.raise_touches ..) rfl) (State.raise_touches ..) rfl) h2

theorem State.eccError_touches (s : State) (e : EccError) : s.Touches (State.eccError s e) [.regs, .ctlLatches, .hqCmds, .hqGhosts,
    .hqErrors, .hqErrCount0, .hqErrCount1, .fstoreLoad, .dramcUeHeld] := by
  unfold State.eccError
  repeat' first
    | with_reducible exact .refl _ _
    | exact rfl
    | with_reducible apply State.Touches.after (State.setFld64_touches _ _ _ _ _)
    | with_reducible apply State.Touches.after (State.count_touches _ _ _)
    | with_reducible apply State.Touches.after (State.raise_touches _ _ _)
    | with_reducible apply State.Touches.after (State.finishTag_touches _ _ _ _ _ _)
    | with_reducible apply State.Touches.after (State.emptySlot_touches _ _ _)
    | with_reducible apply State.Touches.after (State.endLoad_touches _ _ _)
    | with_reducible apply State.setDramc_touches
    | with_reducible apply State.Touches.ite
    | split

theorem State.dramSleep_touches (s : State) : s.Touches (State.dramSleep s) [.regs] := by
  unfold State.dramSleep
  repeat' first
    | with_reducible exact .refl _ _
    | exact rfl
    | with_reducible apply State.Touches.after (State.allDram_touches _ _ _)

theorem State.gathered_touches (s : State) (osc : Nat) (waited : Nat) (drifted : Bool) : s.Touches (State.gathered s osc waited drifted)
    [.regs, .ctlLatches, .dramcChange, .dramcStarted, .dramcGather, .dramcNext] := by
  unfold State.gathered
  repeat' first
    | with_reducible exact .refl _ _
    | exact rfl
    | with_reducible apply State.Touches.after (State.count_touches _ _ _)
    | with_reducible apply State.Touches.after (State.setFld_touches _ _ _ _)
    | with_reducible apply State.Touches.after (State.raise_touches _ _ _)
    | with_reducible apply State.Touches.after (State.freqStart_touches _ _)
    | with_reducible apply State.setDramc_touches
    | split
    | dsimp only

theorem State.pollAll_touches (s : State) (temps : List (Nat × Nat)) : s.Touches (State.pollAll s temps) [.regs, .ctlLatches, .dramcCool,
    .dramcBands, .thermHot] := by
  unfold State.pollAll
  repeat' first
    | with_reducible exact .refl _ _
    | exact rfl
    | with_reducible apply State.Touches.after (State.pollChannel_touches _ _ _ _)
    | with_reducible apply State.Touches.foldl
    | intro _
    | with_reducible apply State.Touches.set

theorem State.trained_touches (s : State) (t : TrainResult) : s.Touches (State.trained s t) [.regs, .ctlLatches] := by
  unfold State.trained
  repeat' first
    | with_reducible exact .refl _ _
    | exact rfl
    | with_reducible apply State.Touches.after (State.setFld_touches _ _ _ _)
    | with_reducible apply State.Touches.after (State.raise_touches _ _ _)
    | with_reducible apply State.Touches.ite
    | with_reducible apply State.Touches.foldl
    | intro _

theorem State.retrain_touches (s : State) : s.Touches (State.retrain s) [.dramcGather] := by
  unfold State.retrain
  repeat' first
    | with_reducible exact .refl _ _
    | exact rfl
    | with_reducible apply State.setDramc_touches
    | with_reducible apply State.Touches.ite

theorem readUeAddr_touches (r : Req) (k : Nat) (be : Nat) (s : State) : s.Touches (readUeAddr r k be s) [.out, .regs, .ctlLatches,
    .ctlBusErrHeld, .hqPci0, .hqPci1, .dramcUeHeld] := by
  unfold readUeAddr
  repeat' first
    | with_reducible exact .refl _ _
    | exact rfl
    | with_reducible apply State.Touches.after (State.setFld_touches _ _ _ _)
    | with_reducible apply State.Touches.after (withRead_touches _ _ _ _ _ _ _)
    | with_reducible apply State.setDramc_touches
    | with_reducible apply State.Touches.ite

theorem runLoadSlot_touches (c : Cmd) (s : State) : s.Touches (runLoadSlot c s) [.regs, .ctlLatches, .hqCmds, .hqGhosts, .hqErrors,
    .hqErrCount0, .hqErrCount1, .fstoreLoad] := by
  unfold runLoadSlot
  repeat' first
    | with_reducible exact .refl _ _
    | exact rfl
    | with_reducible apply State.Touches.after (State.beginLoad_touches _ _ _ _)

theorem State.answer_touches (s : State) (h : HostData) (tag : Nat) (c : Cmd) (b : List Byte) (result : Nat) : s.Touches (State.answer s
    h tag c b result) [.out, .regs, .ctlLatches, .hqCmds, .hqErrors, .hqErrCount0, .hqErrCount1] := by
  unfold State.answer
  repeat' first
    | with_reducible exact .refl _ _
    | exact rfl
    | with_reducible apply State.Touches.after (State.finishTag_touches _ _ _ _ _ _)
    | with_reducible apply State.Touches.after (State.failBuf_touches _ _ _)
    | with_reducible apply State.Touches.after (State.toHost_touches _ _ _ _)
    | split

theorem runGetLog_touches (h : HostData) (tag : Nat) (c : Cmd) (s : State) : s.Touches (runGetLog h tag c s) [.out, .regs, .ctlLatches,
    .hqCmds, .hqErrors, .hqErrCount0, .hqErrCount1] := by
  unfold runGetLog
  repeat' first
    | with_reducible exact .refl _ _
    | exact rfl
    | with_reducible apply State.Touches.after (State.answer_touches _ _ _ _ _ _)

theorem runCreateNs_touches (tag : Nat) (c : Cmd) (s : State) : s.Touches (runCreateNs tag c s) [.regs, .ctlLatches, .hqCmds, .hqErrors,
    .hqErrCount0, .hqErrCount1, .mediaDrives, .mediaVol, .stages] := by
  have hf : ∀ st field, s.Touches (s.finishTag tag st 0 0 field) [.regs, .ctlLatches, .hqCmds, .hqErrors, .hqErrCount0, .hqErrCount1,
      .mediaDrives, .mediaVol, .stages] := fun st field => (State.finishTag_touches ..).mono rfl
  have hs : ∀ l : List StageNs, s.Touches { s with stages := l } [.regs, .ctlLatches, .hqCmds, .hqErrors, .hqErrCount0, .hqErrCount1,
      .mediaDrives, .mediaVol, .stages] := fun l => .of_mix rfl rfl
  have hdone : ∀ (t : State) n, s.Touches t [.regs, .ctlLatches, .hqCmds, .hqErrors, .hqErrCount0, .hqErrCount1, .mediaDrives, .mediaVol,
      .stages] → s.Touches ((t.raise Pg.nspace Reg.NSPACE_EVENT_NS_CREATED).finishTag tag 0 n 0 0xFFFF)
      [.regs, .ctlLatches, .hqCmds, .hqErrors, .hqErrCount0, .hqErrCount1, .mediaDrives, .mediaVol, .stages] := fun t n h => .step (.step
          h (State.raise_touches ..) rfl) (State.finishTag_touches ..) rfl
  unfold runCreateNs
  extract_lets type want size standing fail units bytes
  clear_value type want size standing units bytes
  refine .ite (hf _ _) ?_
  split
  · exact hf _ _
  · refine .ite ?_ ?_
    · split
      · exact hf _ _
      · exact hdone _ _ (hs _)
    · split
      · exact hf _ _
      · exact .ite (hf _ _) (hdone _ _ (.step ((State.setEntry_touches ..).mono rfl) (State.showVolume_touches ..) rfl))

theorem State.deallocate_touches (s : State) (start : Nat) (size : Nat) : s.Touches (State.deallocate s start size) [.mediaDrives] := by
  unfold State.deallocate
  repeat' first
    | with_reducible exact .refl _ _
    | exact rfl
    | with_reducible apply State.Touches.after (State.putDrive_touches _ _ _)
    | with_reducible apply State.Touches.foldl
    | split
    | intro _

theorem runDeleteNs_touches (tag : Nat) (c : Cmd) (s : State) : s.Touches (runDeleteNs tag c s) [.regs, .ctlLatches, .hqCmds, .hqErrors,
    .hqErrCount0, .hqErrCount1, .mediaDrives, .mediaVol, .stages] := by
  unfold runDeleteNs
  repeat' first
    | with_reducible exact .refl _ _
    | exact rfl
    | with_reducible apply State.Touches.after (State.raise_touches _ _ _)
    | with_reducible apply State.Touches.after (State.finishTag_touches _ _ _ _ _ _)
    | with_reducible apply State.Touches.after (State.showVolume_touches _)
    | with_reducible apply State.Touches.after (State.setEntry_touches _ _ _)
    | with_reducible apply State.Touches.after (State.deallocate_touches _ _ _)
    | with_reducible apply State.Touches.ite
    | with_reducible apply State.Touches.set

theorem runRead_touches (h : HostData) (tag : Nat) (c : Cmd) (s : State) : s.Touches (runRead h tag c s) [.out, .regs, .ctlLatches,
    .hqCmds, .hqErrors, .hqErrCount0, .hqErrCount1] := by
  unfold runRead
  repeat' first
    | with_reducible exact .refl _ _
    | exact rfl
    | with_reducible apply State.Touches.after (State.finishTag_touches _ _ _ _ _ _)
    | with_reducible apply State.Touches.after (State.failBuf_touches _ _ _)
    | with_reducible apply State.Touches.after (State.toHost_touches _ _ _ _)
    | with_reducible apply State.Touches.ite
    | split

theorem runIdentify_touches (h : HostData) (tag : Nat) (c : Cmd) (s : State) : s.Touches (runIdentify h tag c s) [.out, .regs,
    .ctlLatches, .hqCmds, .hqErrors, .hqErrCount0, .hqErrCount1] := by
  unfold runIdentify
  repeat' first
    | with_reducible exact .refl _ _
    | exact rfl
    | with_reducible apply State.Touches.after (State.answer_touches _ _ _ _ _ _)

theorem runWriteSettings_touches (h : HostData) (tag : Nat) (c : Cmd) (s : State) : s.Touches (runWriteSettings h tag c s) [.regs,
    .ctlLatches, .rsmBank0, .rsmBank1, .rsmRunning, .rsmWrites, .hqCmds, .hqErrors, .hqErrCount0, .hqErrCount1] := by
  unfold runWriteSettings
  repeat' first
    | with_reducible exact .refl _ _
    | exact rfl
    | with_reducible apply State.Touches.after (State.finishTag_touches _ _ _ _ _ _)
    | with_reducible apply State.Touches.after (State.failBuf_touches _ _ _)
    | with_reducible apply State.Touches.after (State.writeSettings_touches _ _ _)
    | with_reducible apply State.Touches.ite
    | split

theorem runWrite_touches (h : HostData) (tag : Nat) (c : Cmd) (s : State) : s.Touches (runWrite h tag c s) [.regs, .ctlLatches,
    .rsmBank0, .rsmBank1, .rsmRunning, .rsmWrites, .hqCmds, .hqErrors, .hqErrCount0, .hqErrCount1, .stages, .dram] := by
  unfold runWrite
  repeat' first
    | with_reducible exact .refl _ _
    | exact rfl
    | with_reducible apply State.Touches.after (State.finishTag_touches _ _ _ _ _ _)
    | with_reducible apply State.Touches.after (State.failBuf_touches _ _ _)
    | with_reducible apply State.Touches.after (State.pokeN_touches _ _ _)
    | with_reducible apply State.Touches.after (runWriteSettings_touches _ _ _ _)
    | split
    | with_reducible apply State.Touches.set

theorem State.laneErrors_touches (s : State) (k : Nat) (n : Nat) : s.Touches (State.laneErrors s k n) [.regs, .ctlLatches] := by
  unfold State.laneErrors
  repeat' first
    | with_reducible exact .refl _ _
    | exact rfl
    | with_reducible apply State.Touches.after (State.countBy_touches _ _ _ _)
    | with_reducible apply State.Touches.after (State.raise_touches _ _ _)
    | with_reducible apply State.Touches.ite

theorem State.injectOne_touches (s : State) (k : Nat) : s.Touches (State.injectOne s k) [.out, .regs, .ctlLatches] := by
  unfold State.injectOne
  repeat' first
    | with_reducible exact .refl _ _
    | exact rfl
    | with_reducible apply State.Touches.after (State.emit_touches _ _)
    | with_reducible apply State.Touches.after (State.laneErrors_touches _ _ _)
    | with_reducible apply State.Touches.ite

theorem sendPattern_touches (s0 : State) (s : State) (k : Nat) : s.Touches (sendPattern s0 s k) [.out, .portA, .portB] := by
  unfold sendPattern
  repeat' first
    | with_reducible exact .refl _ _
    | exact rfl
    | with_reducible apply State.Touches.after (State.postBc_touches _ _ _ _ _ _)
    | with_reducible apply State.Touches.ite

theorem writeTestCtrl_touches (r : Req) (k : Nat) (v : Word) (s : State) : s.Touches (writeTestCtrl r k v s) [.out, .regs, .ctlW1Done,
    .ctlLatches, .ctlBusErrHeld, .hqPci0, .hqPci1, .portA, .portB] := by
  unfold writeTestCtrl
  repeat' first
    | with_reducible exact .refl _ _
    | exact rfl
    | with_reducible apply State.Touches.after (State.setFld64_touches _ _ _ _ _)
    | with_reducible apply State.Touches.after (State.setFld_touches _ _ _ _)
    | with_reducible apply State.Touches.after (State.wr_touches _ _ _)
    | with_reducible apply State.Touches.after (State.reject_touches _ _)
    | with_reducible refine withWrite_touches _ _ _ _ _ _ (fun _ _ _ => ?_) ?_
    | with_reducible apply State.Touches.after (State.injectOne_touches _ _)
    | with_reducible apply State.Touches.after (sendPattern_touches _ _ _)
    | with_reducible apply State.Touches.ite

theorem State.checkerSync_touches (s : State) (k : Nat) (bits : List Bool) : s.Touches (State.checkerSync s k bits) [.regs] := by
  unfold State.checkerSync
  repeat' first
    | with_reducible exact .refl _ _
    | exact rfl
    | with_reducible apply State.Touches.after (State.setFld_touches _ _ _ _)
    | with_reducible apply State.Touches.ite

theorem State.checkerRun_touches (s : State) (k : Nat) : s.Touches (State.checkerRun s k) [.seed, .regs, .ctlLatches] := by
  unfold State.checkerRun
  repeat' first
    | with_reducible exact .refl _ _
    | exact rfl
    | with_reducible apply State.Touches.after (State.setFld64_touches _ _ _ _ _)
    | with_reducible apply State.Touches.after (State.laneErrors_touches _ _ _)
    | with_reducible apply State.Touches.ite
    | with_reducible apply State.Touches.set

theorem State.checkerLost_touches (s : State) (k : Nat) (errors : Nat) (bits : Nat) : s.Touches (State.checkerLost s k errors bits)
    [.regs, .ctlLatches] := by
  unfold State.checkerLost
  repeat' first
    | with_reducible exact .refl _ _
    | exact rfl
    | with_reducible apply State.Touches.after (State.setFld64_touches _ _ _ _ _)
    | with_reducible apply State.Touches.after (State.setFld_touches _ _ _ _)
    | with_reducible apply State.Touches.after (State.raise_touches _ _ _)
    | with_reducible apply State.Touches.after (State.laneErrors_touches _ _ _)
    | with_reducible apply State.Touches.ite

theorem State.spoilStage_touches (s : State) (c : Cmd) : s.Touches (State.spoilStage s c) [.seed, .dram] := by
  unfold State.spoilStage
  repeat' first
    | with_reducible exact .refl _ _
    | exact rfl
    | with_reducible apply State.Touches.after (State.pokeN_touches _ _ _)
    | split
    | with_reducible apply State.Touches.set

theorem State.condStop_touches (s : State) (uid : Nat) : s.Touches (State.condStop s uid) [.out, .seed, .regs, .ctlLatches, .hqCmds,
    .hqGhosts, .hqErrors, .hqErrCount0, .hqErrCount1, .portA, .portB, .fstoreMem, .drdecOutCount, .drdecLast, .drdecCur, .drdecRecords,
    .drdecReady, .hdec, .aud, .condQueue, .condParked, .relayDescs, .pwrHeld, .pwrRising, .loupe, .mirror, .flows, .dram] := by
  unfold State.condStop
  repeat' first
    | with_reducible exact .refl _ _
    | exact rfl
    | with_reducible apply State.Touches.after (State.condDone_touches _ _ _ _ _)
    | with_reducible apply State.Touches.after (State.condFree_touches _)
    | with_reducible apply State.Touches.after (State.condWrite_touches _ _ _ _)
    | with_reducible apply State.setCond_touches
    | split
    | with_reducible apply State.Touches.set

theorem State.fwOver_touches (s : State) : s.Touches (State.fwOver s) [.regs, .ctlLatches, .hqCmds, .hqGhosts, .hqErrors, .hqErrCount0,
    .hqErrCount1, .fwWaiting, .fwRunning, .fwFailover, .fwWritten, .fwRead] := by
  unfold State.fwOver
  repeat' first
    | with_reducible exact .refl _ _
    | exact rfl
    | with_reducible apply State.Touches.after (State.fwPoint_touches _)
    | with_reducible apply State.Touches.ite

theorem State.sensorStop_touches (s : State) : s.Touches (State.sensorStop s) [.out, .portA, .portB] := by
  unfold State.sensorStop
  repeat' first
    | with_reducible exact .refl _ _
    | exact rfl
    | with_reducible apply State.Touches.after (State.postBc_touches _ _ _ _ _ _)
    | with_reducible apply State.Touches.foldl
    | intro _

theorem State.showMode_touches (s : State) : s.Touches (State.showMode s) [.regs] := by
  unfold State.showMode
  repeat' first
    | with_reducible exact .refl _ _
    | exact rfl
    | with_reducible apply State.Touches.after (State.setFld_touches _ _ _ _)

theorem State.toMode_touches (s : State) (m : Mode) (ph : Phase) : s.Touches (State.toMode s m ph) [.regs, .ctlMode, .ctlPhase] := by
  unfold State.toMode
  repeat' first
    | with_reducible exact .refl _ _
    | exact rfl
    | with_reducible apply State.Touches.after (State.showMode_touches _)
    | with_reducible apply State.Touches.set

theorem State.cancelStart_touches (s : State) : s.Touches (State.cancelStart s) [.out, .regs, .ctlMode, .ctlPhase, .ctlCapRun,
    .ctlRecStart, .ctlLatches, .hqCmds, .hqGhosts, .hqErrors, .hqErrCount0, .hqErrCount1, .portA, .portB, .fstoreMem, .drdecOutCount,
    .drdecLast, .drdecCur, .drdecRecords, .drdecReady, .hdec, .aud, .condParked, .relayDescs, .fwWaiting, .fwRunning, .fwFailover,
    .fwWritten, .fwRead, .pwrHeld, .pwrRising, .loupe, .mirror, .flows] := by
  unfold State.cancelStart
  repeat' first
    | with_reducible exact .refl _ _
    | exact rfl
    | with_reducible apply State.Touches.after (State.setFld_touches _ _ _ _)
    | with_reducible apply State.Touches.after (State.finish?_touches _ _ _ _ _)
    | with_reducible apply State.Touches.after (State.endStreaming_touches _ _)
    | with_reducible apply State.Touches.after (State.showDraw_touches _)
    | with_reducible apply State.Touches.after (State.showHenc_touches _)
    | with_reducible apply State.Touches.after (State.showRecorder_touches _)
    | with_reducible apply State.Touches.after (State.settleAll_touches _)
    | with_reducible apply State.Touches.after (State.disarm_touches _)
    | with_reducible apply State.Touches.after (State.fwOver_touches _)
    | with_reducible apply State.Touches.after (State.sensorStop_touches _)
    | with_reducible apply State.Touches.after (State.toMode_touches _ _ _)
    | with_reducible apply State.Touches.foldl
    | split
    | intro _
    | with_reducible apply State.Touches.set

theorem State.stopCmd_touches (s t : State) (n : Nat) (e : s.stopCmd n = some t) : s.Touches t [.out, .seed, .regs, .ctlMode, .ctlPhase,
    .ctlCapRun, .ctlRecStart, .ctlLatches, .hqCmds, .hqGhosts, .hqErrors, .hqErrCount0, .hqErrCount1, .portA, .portB, .fstoreMem,
    .drdecOutCount, .drdecLast, .drdecCur, .drdecRecords, .drdecReady, .hdec, .aud, .condQueue, .condParked, .relayDescs, .fwWaiting,
    .fwRunning, .fwFailover, .fwWritten, .fwRead, .pwrHeld, .pwrRising, .loupe, .mirror, .flows, .dram] := by
  unfold State.stopCmd at e
  dsimp only at e
  repeat' split at e
  all_goals cases e
  all_goals first
    | with_reducible exact (State.finishTag_touches ..).mono rfl
    | with_reducible exact .step ((State.spoilStage_touches ..).mono rfl) (State.finishTag_touches ..) rfl
    | with_reducible exact (State.condStop_touches ..).mono rfl
    | with_reducible exact (State.cancelStart_touches ..).mono rfl

theorem State.sleepDram_touches (s : State) : s.Touches (State.sleepDram s) [.dram] := by
  unfold State.sleepDram
  repeat' first
    | with_reducible exact .refl _ _
    | exact rfl
    | with_reducible apply State.Touches.set

theorem State.beginSwitch_touches (s : State) (target : Mode) (b : Option Nat) (cmd : Nat) :
    s.Touches (s.beginSwitch target b cmd) [.regs, .ctlMode, .ctlPhase, .ctlRecStart, .ctlRecEnd] := by
  unfold State.beginSwitch
  refine .step ?_ (State.toMode_touches ..) rfl
  dsimp only
  split
  · exact .of_mix rfl rfl
  · exact .of_mix rfl rfl

theorem State.factoryReg_touches (s : State) (a : Nat) : s.Touches (State.factoryReg s a) [.regs] := by
  unfold State.factoryReg
  repeat' first
    | with_reducible exact .refl _ _
    | exact rfl
    | with_reducible apply State.Touches.after (State.wr_touches _ _ _)
    | with_reducible apply State.Touches.ite

theorem State.beginStop_touches (s : State) (cmd : Option Nat) : s.Touches (State.beginStop s cmd) [.out, .regs, .ctlMode, .ctlPhase,
    .ctlStopFrame, .ctlRecEnd, .ctlSnaps, .ctlGroups, .ctlLatches, .portA, .portB] := by
  unfold State.beginStop
  repeat' first
    | with_reducible exact .refl _ _
    | exact rfl
    | with_reducible apply State.Touches.after (State.setFld_touches _ _ _ _)
    | with_reducible apply State.Touches.after (State.cancelGroups_touches _ _)
    | with_reducible apply State.Touches.after (State.endStreaming_touches _ _)
    | with_reducible apply State.Touches.after (noteFreed_touches _ _)
    | with_reducible apply State.Touches.after (State.disarm_touches _)
    | with_reducible apply State.Touches.after (State.sensorStop_touches _)
    | with_reducible apply State.Touches.after (State.toMode_touches _ _ _)
    | with_reducible apply State.Touches.ite
    | with_reducible apply State.Touches.foldl
    | intro _
    | with_reducible apply State.Touches.set

theorem State.beginStart_touches (s : State) (target : Mode) (cmd : Option Nat) : s.Touches (State.beginStart s target cmd) [.regs,
    .ctlMode, .ctlPhase, .ctlCapRun, .ctlFrameSeen, .ctlStopFrame, .ctlRecStart, .ctlRecEnd] := by
  unfold State.beginStart
  repeat' first
    | with_reducible exact .refl _ _
    | exact rfl
    | with_reducible apply State.Touches.after (State.toMode_touches _ _ _)
    | with_reducible apply State.Touches.set

theorem State.enterReview_touches (s : State) (cmd : Option Nat) : s.Touches (s.enterReview cmd) [.regs, .ctlMode, .ctlPhase,
    .ctlLatches, .hqCmds, .hqGhosts, .hqErrors, .hqErrCount0, .hqErrCount1, .ingressFrameVals, .splitPics, .splitNewest, .splitBufs,
    .drdecOutCount, .drdecLast, .drdecCur, .drdecRecords, .drdecReady, .hdec, .mediaReview, .dramcChange, .dramcStarted, .dramcHeld,
    .dramcGather, .dramcNext, .dramcBands, .pwrRising] := by
  have hset : ∀ t : State, t.Touches { t with ingress := { t.ingress with frameVals := [] }, split := { holds := t.split.holds } }
      [.regs, .ctlMode, .ctlPhase, .ctlLatches, .hqCmds, .hqGhosts, .hqErrors, .hqErrCount0, .hqErrCount1, .ingressFrameVals, .splitPics,
          .splitNewest, .splitBufs, .drdecOutCount, .drdecLast, .drdecCur, .drdecRecords, .drdecReady, .hdec, .mediaReview, .dramcChange,
          .dramcStarted, .dramcHeld, .dramcGather, .dramcNext, .dramcBands, .pwrRising] := fun t => .of_mix rfl rfl
  unfold State.enterReview
  extract_lets s1 _ s2
  have h1 : s.Touches s1 [.regs, .ctlMode, .ctlPhase, .ctlLatches, .hqCmds, .hqGhosts, .hqErrors, .hqErrCount0, .hqErrCount1,
      .ingressFrameVals, .splitPics, .splitNewest, .splitBufs, .drdecOutCount, .drdecLast, .drdecCur, .drdecRecords, .drdecReady, .hdec,
      .mediaReview, .dramcChange, .dramcStarted, .dramcHeld, .dramcGather, .dramcNext, .dramcBands, .pwrRising] :=
    .step (.step (.step (.step ((State.freqZero_touches ..).mono rfl) (State.toMode_touches ..) rfl) (State.powerAll_touches ..) rfl)
      (State.decodersStart_touches ..) rfl) (State.reviewStart_touches ..) rfl
  have h2 : s1.Touches s2 [.regs, .ctlMode, .ctlPhase, .ctlLatches, .hqCmds, .hqGhosts, .hqErrors, .hqErrCount0, .hqErrCount1,
      .ingressFrameVals, .splitPics, .splitNewest, .splitBufs, .drdecOutCount, .drdecLast, .drdecCur, .drdecRecords, .drdecReady, .hdec,
      .mediaReview, .dramcChange, .dramcStarted, .dramcHeld, .dramcGather, .dramcNext, .dramcBands, .pwrRising] := by
    exact .ite (.foldl (hset _) (fun u n => (State.setFld_touches ..).mono rfl) _) (.refl _ _)
  exact .step (.step (h1.trans h2) (State.showRecorder_touches ..) rfl) (State.finish?_touches ..) rfl

theorem State.outputsStop_touches (s : State) : s.Touches (State.outputsStop s) [.out, .regs, .ctlSnaps, .ctlLatches, .splitHolds, .aud,
    .loupe, .mirror, .flows, .dram] := by
  unfold State.outputsStop
  repeat' first
    | with_reducible exact .refl _ _
    | exact rfl
    | with_reducible apply State.Touches.after (State.audStop_touches _ _)
    | with_reducible apply State.Touches.after (State.engineStop_touches _ _)
    | with_reducible apply State.Touches.after (State.flowDrop_touches _ _)
    | with_reducible apply State.Touches.after (State.setEthLink_touches _ _ _)
    | with_reducible apply State.Touches.ite
    | with_reducible apply State.Touches.foldl
    | intro _
    | with_reducible apply State.Touches.set

theorem State.enterSleep_touches (s : State) (cmd : Option Nat) : s.Touches (s.enterSleep cmd) [.out, .regs, .ctlMode, .ctlPhase,
    .ctlSnaps, .ctlLatches, .hqCmds, .hqGhosts, .hqErrors, .hqErrCount0, .hqErrCount1, .hqLogUsed, .portA, .portB, .fstoreMem,
    .splitHolds, .drdecOutCount, .drdecLast, .drdecCur, .drdecRecords, .drdecReady, .hdec, .mediaDrives, .mediaVol, .stages, .aud,
    .condParked, .relayDescs, .pwrHeld, .pwrRising, .loupe, .mirror, .flows, .dram] := by
  have hset : ∀ t : State, t.Touches { t with stages := [], hq := { t.hq with logUsed := 0 } } [.out, .regs, .ctlMode, .ctlPhase,
      .ctlSnaps, .ctlLatches, .hqCmds, .hqGhosts, .hqErrors, .hqErrCount0, .hqErrCount1, .hqLogUsed, .portA, .portB, .fstoreMem,
      .splitHolds, .drdecOutCount, .drdecLast, .drdecCur, .drdecRecords, .drdecReady, .hdec, .mediaDrives, .mediaVol, .stages, .aud,
      .condParked, .relayDescs, .pwrHeld, .pwrRising, .loupe, .mirror, .flows, .dram] :=
    fun t => .of_mix rfl rfl
  have hpwr : ∀ t : State, t.Touches (t.setPwr { t.pwr with rising := [], held := [] }) [.out, .regs, .ctlMode, .ctlPhase, .ctlSnaps,
      .ctlLatches, .hqCmds, .hqGhosts, .hqErrors, .hqErrCount0, .hqErrCount1, .hqLogUsed, .portA, .portB, .fstoreMem, .splitHolds,
      .drdecOutCount, .drdecLast, .drdecCur, .drdecRecords, .drdecReady, .hdec, .mediaDrives, .mediaVol, .stages, .aud, .condParked,
      .relayDescs, .pwrHeld, .pwrRising, .loupe, .mirror, .flows, .dram] :=
    fun t => .of_mix rfl rfl
  unfold State.enterSleep
  extract_lets s1 _ s2 off s3 s4 _ s5
  have h1 : s.Touches s1 [.out, .regs, .ctlMode, .ctlPhase, .ctlSnaps, .ctlLatches, .hqCmds, .hqGhosts, .hqErrors, .hqErrCount0,
      .hqErrCount1, .hqLogUsed, .portA, .portB, .fstoreMem, .splitHolds, .drdecOutCount, .drdecLast, .drdecCur, .drdecRecords,
      .drdecReady, .hdec, .mediaDrives, .mediaVol, .stages, .aud, .condParked, .relayDescs, .pwrHeld, .pwrRising, .loupe, .mirror,
      .flows, .dram] :=
    .step (.step ((State.finish?_touches ..).mono rfl) (State.outputsStop_touches ..) rfl) (State.sleepDram_touches ..) rfl
  have h2 : s.Touches s2 [.out, .regs, .ctlMode, .ctlPhase, .ctlSnaps, .ctlLatches, .hqCmds, .hqGhosts, .hqErrors, .hqErrCount0,
      .hqErrCount1, .hqLogUsed, .portA, .portB, .fstoreMem, .splitHolds, .drdecOutCount, .drdecLast, .drdecCur, .drdecRecords,
      .drdecReady, .hdec, .mediaDrives, .mediaVol, .stages, .aud, .condParked, .relayDescs, .pwrHeld, .pwrRising, .loupe, .mirror,
      .flows, .dram] :=
    .foldl (h1.trans (hset _)) (fun u k => .step ((State.setPort_touches ..).mono rfl) (State.showPort_touches ..) rfl) _
  have h3 : s.Touches s3 [.out, .regs, .ctlMode, .ctlPhase, .ctlSnaps, .ctlLatches, .hqCmds, .hqGhosts, .hqErrors, .hqErrCount0,
      .hqErrCount1, .hqLogUsed, .portA, .portB, .fstoreMem, .splitHolds, .drdecOutCount, .drdecLast, .drdecCur, .drdecRecords,
      .drdecReady, .hdec, .mediaDrives, .mediaVol, .stages, .aud, .condParked, .relayDescs, .pwrHeld, .pwrRising, .loupe, .mirror,
      .flows, .dram] :=
    .step (.foldl h2 (fun u k => .step ((State.putDrive_touches ..).mono rfl) (State.portDown_touches ..) rfl) _)
      (State.unmount_touches ..) rfl
  have h4 : s.Touches s4 [.out, .regs, .ctlMode, .ctlPhase, .ctlSnaps, .ctlLatches, .hqCmds, .hqGhosts, .hqErrors, .hqErrCount0,
      .hqErrCount1, .hqLogUsed, .portA, .portB, .fstoreMem, .splitHolds, .drdecOutCount, .drdecLast, .drdecCur, .drdecRecords,
      .drdecReady, .hdec, .mediaDrives, .mediaVol, .stages, .aud, .condParked, .relayDescs, .pwrHeld, .pwrRising, .loupe, .mirror,
      .flows, .dram] :=
    .foldl h3 (fun u p => .ite ((State.goDown_touches ..).mono rfl) (.refl _ _)) _
  have h5 : s.Touches s5 [.out, .regs, .ctlMode, .ctlPhase, .ctlSnaps, .ctlLatches, .hqCmds, .hqGhosts, .hqErrors, .hqErrCount0,
      .hqErrCount1, .hqLogUsed, .portA, .portB, .fstoreMem, .splitHolds, .drdecOutCount, .drdecLast, .drdecCur, .drdecRecords,
      .drdecReady, .hdec, .mediaDrives, .mediaVol, .stages, .aud, .condParked, .relayDescs, .pwrHeld, .pwrRising, .loupe, .mirror,
      .flows, .dram] := h4.trans (hpwr _)
  exact .step (.step (h5.step (State.fstoreClear_touches ..) rfl) (State.dramSleep_touches ..) rfl) (State.toMode_touches ..) rfl

theorem State.outputsStart_touches (s : State) : s.Touches (State.outputsStart s) [.seed, .regs, .ctlLatches, .aud, .loupe, .flows] := by
  unfold State.outputsStart
  repeat' first
    | with_reducible exact .refl _ _
    | exact rfl
    | with_reducible apply State.Touches.after (State.raise_touches _ _ _)
    | with_reducible apply State.Touches.after (State.audStart_touches _ _)
    | with_reducible apply State.Touches.after (State.engineStart_touches _ _)
    | with_reducible apply State.Touches.after (State.flowStart_touches _ _)
    | with_reducible apply State.Touches.ite
    | with_reducible apply State.Touches.foldl
    | intro _

theorem State.dropCommits_touches (s : State) : s.Touches (s.dropCommits) [.regs, .ctlLoHold, .ctlSnaps] := by
  unfold State.dropCommits
  have h1 : s.Touches (allPages.foldl (fun (s : State) p => if p = Pg.global then s else s.setFld p Reg.COMMON_COMMIT_PENDING 0) s)
      [.regs, .ctlLoHold, .ctlSnaps] :=
    .foldl (.refl _ _) (fun u p => .ite (.refl _ _) ((State.setFld_touches ..).mono rfl)) _
  exact h1.trans (State.Touches.commits (.of_eq rfl rfl) fun hs => ⟨hs.1, fun _ h => absurd h List.not_mem_nil⟩)

theorem State.toStandby_touches (s : State) (cmd : Option Nat) : s.Touches (State.toStandby s cmd) [.regs, .ctlMode, .ctlPhase,
    .ctlLatches, .hqCmds, .hqGhosts, .hqErrors, .hqErrCount0, .hqErrCount1, .portA, .portB, .fstoreMem, .drdecOutCount, .drdecLast,
    .drdecCur, .drdecRecords, .drdecReady, .hdec, .aud, .condParked, .relayDescs, .pwrHeld, .pwrRising, .loupe, .mirror, .flows] := by
  unfold State.toStandby
  repeat' first
    | with_reducible exact .refl _ _
    | exact rfl
    | with_reducible apply State.Touches.after (State.setFld_touches _ _ _ _)
    | with_reducible apply State.Touches.after (State.finish?_touches _ _ _ _ _)
    | with_reducible apply State.Touches.after (State.showRecorder_touches _)
    | with_reducible apply State.Touches.after (State.settleAll_touches _)
    | with_reducible apply State.Touches.after (State.toMode_touches _ _ _)

theorem State.leaveService_touches (s : State) (cmd : Option Nat) : s.Touches (State.leaveService s cmd) [.out, .seed, .regs, .ctlMode,
    .ctlPhase, .ctlLoHold, .ctlSnaps, .ctlLatches, .ctlBusErrHeld, .hqCmds, .hqGhosts, .hqDbErrHeld, .hqErrors, .hqErrCount0,
    .hqErrCount1, .portA, .portB, .fstoreMem, .drdecOutCount, .drdecLast, .drdecCur, .drdecRecords, .drdecReady, .hdec, .aud,
    .condParked, .relayDescs, .pwrSeqA, .pwrSeqB, .pwrHeld, .pwrRising, .loupe, .mirror, .flows] := by
  unfold State.leaveService
  repeat' first
    | with_reducible exact .refl _ _
    | exact rfl
    | with_reducible apply State.Touches.after (State.setFld_touches _ _ _ _)
    | with_reducible apply State.Touches.after (State.wr_touches _ _ _)
    | with_reducible apply State.setHq_touches
    | with_reducible apply State.Touches.after (State.gangChanged_touches _)
    | with_reducible apply State.Touches.after (driveLanes_touches _ _)
    | with_reducible apply State.Touches.after (noteFreed_touches _ _)
    | with_reducible apply State.Touches.after (State.placeSlots_touches _ _)
    | with_reducible apply State.Touches.after (State.restore_touches _ _)
    | with_reducible apply State.Touches.after (State.supplyStep_touches _ _)
    | with_reducible apply State.Touches.after (sendPattern_touches _ _ _)
    | with_reducible apply State.Touches.after (State.factoryReg_touches _ _)
    | with_reducible apply State.Touches.after (State.outputsStart_touches _)
    | with_reducible apply State.Touches.after (State.toMode_touches _ _ _)
    | with_reducible apply State.Touches.after (State.dropCommits_touches _)
    | with_reducible apply State.Touches.after (State.toStandby_touches _ _)
    | with_reducible apply State.Touches.ite
    | with_reducible apply State.Touches.foldl
    | intro _
    | with_reducible apply State.Touches.set

theorem State.enterService_touches (s : State) (cmd : Option Nat) : s.Touches (State.enterService s cmd) [.out, .regs, .ctlMode,
    .ctlPhase, .ctlSnaps, .ctlLatches, .hqCmds, .hqGhosts, .hqErrors, .hqErrCount0, .hqErrCount1, .portA, .portB, .fstoreMem,
    .splitHolds, .drdecOutCount, .drdecLast, .drdecCur, .drdecRecords, .drdecReady, .hdec, .aud, .condParked, .relayDescs, .pwrHeld,
    .pwrRising, .loupe, .mirror, .flows, .dram] := by
  unfold State.enterService
  repeat' first
    | with_reducible exact .refl _ _
    | exact rfl
    | with_reducible apply State.Touches.after (State.finish?_touches _ _ _ _ _)
    | with_reducible apply State.Touches.after (State.settleAll_touches _)
    | with_reducible apply State.Touches.after (State.outputsStop_touches _)
    | with_reducible apply State.Touches.after (State.toMode_touches _ _ _)

theorem State.leaveReview_touches (s : State) (cmd : Option Nat) : s.Touches (State.leaveReview s cmd) [.regs, .ctlMode, .ctlPhase,
    .ctlSnaps, .ctlGroups, .ctlLatches, .hqCmds, .hqGhosts, .hqErrors, .hqErrCount0, .hqErrCount1, .portA, .portB, .ingressReading,
    .fstoreMem, .splitPics, .splitHolds, .drdecOutCount, .drdecLast, .drdecCur, .drdecRecords, .drdecReady, .hdec, .mediaReview, .aud,
    .condParked, .relayDescs, .pwrHeld, .pwrRising, .loupe, .mirror, .flows] := by
  unfold State.leaveReview
  repeat' first
    | with_reducible exact .refl _ _
    | exact rfl
    | with_reducible apply State.Touches.after (State.cancelGroups_touches _ _)
    | with_reducible apply State.Touches.after (noteFreed_touches _ _)
    | with_reducible apply State.Touches.after (State.reviewStop_touches _)
    | with_reducible apply State.Touches.after (State.dropSources_touches _)
    | with_reducible apply State.Touches.after (State.toMode_touches _ _ _)
    | with_reducible apply State.Touches.after (State.toStandby_touches _ _)
    | with_reducible apply State.Touches.set

theorem State.runMode_touches (s : State) (target : Mode) (b : Option Nat) (cmd : Nat) : s.Touches (State.runMode s target b cmd) [.out,
    .seed, .regs, .ctlMode, .ctlPhase, .ctlCapRun, .ctlFrameSeen, .ctlStopFrame, .ctlRecStart, .ctlRecEnd, .ctlLoHold, .ctlSnaps,
    .ctlGroups, .ctlLatches, .ctlBusErrHeld, .hqCmds, .hqGhosts, .hqDbErrHeld, .hqErrors, .hqErrCount0, .hqErrCount1, .hqLogUsed, .portA,
    .portB, .ingressFrameVals, .ingressReading, .fstoreMem, .splitPics, .splitNewest, .splitBufs, .splitHolds, .drdecOutCount,
    .drdecLast, .drdecCur, .drdecRecords, .drdecReady, .hdec, .mediaDrives, .mediaVol, .mediaReview, .stages, .aud, .condParked,
    .relayDescs, .dramcChange, .dramcStarted, .dramcHeld, .dramcGather, .dramcNext, .dramcBands, .pwrSeqA, .pwrSeqB, .pwrHeld,
    .pwrRising, .loupe, .mirror, .flows, .dram] := by
  unfold State.runMode
  repeat' first
    | with_reducible exact .refl _ _
    | exact rfl
    | with_reducible apply State.Touches.after (State.beginSwitch_touches _ _ _ _)
    | with_reducible apply State.Touches.after (State.beginStop_touches _ _)
    | with_reducible apply State.Touches.after (State.beginStart_touches _ _ _)
    | with_reducible apply State.Touches.after (State.enterReview_touches _ _)
    | with_reducible apply State.Touches.after (State.enterSleep_touches _ _)
    | with_reducible apply State.Touches.after (State.leaveService_touches _ _)
    | with_reducible apply State.Touches.after (State.enterService_touches _ _)
    | with_reducible apply State.Touches.after (State.leaveReview_touches _ _)
    | split

theorem State.captureDone_touches (s : State) : s.Touches (State.captureDone s) [.seed, .regs, .ctlMode, .ctlPhase, .ctlCapRun,
    .ctlSnaps, .ctlGroups, .ctlLatches, .hqCmds, .hqGhosts, .hqErrors, .hqErrCount0, .hqErrCount1, .portA, .portB, .ingressSlots,
    .ingressFreeCtr, .ingressCatchup, .fstoreMem, .splitHolds, .drawCat, .drawBufs, .drdecOutCount, .drdecLast, .drdecCur, .drdecRecords,
    .drdecReady, .henc, .hdec, .mediaDrives, .mediaReel, .mediaDrops, .mediaDropTotal, .aud, .condParked, .relayDescs, .fwWaiting,
    .fwRunning, .fwFailover, .fwWritten, .fwRead, .pwrHeld, .pwrRising, .loupe, .mirror, .flows] := by
  unfold State.captureDone
  repeat' first
    | with_reducible exact .refl _ _
    | exact rfl
    | with_reducible apply State.Touches.after (State.setFld_touches _ _ _ _)
    | with_reducible apply State.Touches.after (State.cancelGroups_touches _ _)
    | with_reducible apply State.Touches.after (noteFreed_touches _ _)
    | with_reducible apply State.Touches.after (State.showDraw_touches _)
    | with_reducible apply State.Touches.after (State.showHenc_touches _)
    | with_reducible apply State.Touches.after (State.beginClose_touches _)
    | with_reducible apply State.Touches.after (State.abandonReel_touches _)
    | with_reducible apply State.Touches.after (State.dropSources_touches _)
    | with_reducible apply State.Touches.after (State.fwOver_touches _)
    | with_reducible apply State.Touches.after (State.toMode_touches _ _ _)
    | with_reducible apply State.Touches.after (State.toStandby_touches _ _)
    | split
    | with_reducible apply State.Touches.set

theorem State.wake_touches (s : State) : s.Touches (State.wake s) [.seed, .regs, .ctlMode, .ctlPhase, .ctlLatches, .portA, .portB,
    .fstoreMem, .drdecOutCount, .drdecLast, .drdecCur, .drdecRecords, .drdecReady, .hdec, .aud, .collF, .collMasters, .collSel,
    .collDelays, .collSync, .collT3, .collAccepted, .collReceived, .collStepSum, .collStepNum, .collSmall, .collWithin, .condParked,
    .relayDescs, .dramcChange, .dramcStarted, .dramcHeld, .dramcGather, .dramcNext, .fwA, .fwB, .fwWaiting, .fwRunning, .fwFailover,
    .fwReports, .fwWritten, .fwRead, .pwrHeld, .pwrRising, .loupe, .mirror, .flows, .time] := by
  unfold State.wake
  repeat' first
    | with_reducible exact .refl _ _
    | exact rfl
    | with_reducible apply State.Touches.after (State.mediaStart_touches _)
    | with_reducible apply State.Touches.after (State.bootFw_touches _)
    | with_reducible apply State.Touches.after (State.settleAll_touches _)
    | with_reducible apply State.Touches.after (State.goUp_touches _ _)
    | with_reducible apply State.Touches.after (State.collRestart_touches _)
    | with_reducible apply State.Touches.after (State.dramWake_touches _)
    | with_reducible apply State.Touches.after (State.outputsStart_touches _)
    | with_reducible apply State.Touches.after (State.toMode_touches _ _ _)
    | with_reducible apply State.Touches.ite
    | with_reducible apply State.Touches.foldl
    | intro _

theorem State.armTake_touches (s : State) (target : Mode) (cmd : Option Nat) : s.Touches (State.armTake s target cmd) [.out, .seed,
    .regs, .ctlPhase, .ctlRecStart, .ctlCharged, .ctlSnaps, .ctlGroups, .ctlLatches, .rsmBank0, .rsmBank1, .rsmRunning, .rsmHeld, .portA,
    .portB, .ingressOpenFrame, .ingressSlots, .ingressFreeCtr, .ingressFrameVals, .ingressReady, .ingressReading, .ingressCatchup,
    .ingressSofs, .splitPics, .splitNewest, .splitBufs, .splitHolds, .drawCount, .drawLive, .drawCat, .drawBufs, .drawStalled,
    .drawLiveHist, .drawCatHist, .drawCores, .drawReassign, .henc, .trig, .dramcChange, .dramcStarted, .dramcHeld, .dramcGather,
    .dramcNext, .dramcBands, .pwrRising, .exposures] := by
  unfold State.armTake
  repeat' first
    | with_reducible exact .refl _ _
    | exact rfl
    | with_reducible apply State.Touches.after (State.copyShadows_touches _)
    | with_reducible apply State.Touches.after (State.linkTake_touches _ _ _)
    | with_reducible apply State.Touches.after (State.ingressStart_touches _)
    | with_reducible apply State.Touches.after (noteFreed_touches _ _)
    | with_reducible apply State.Touches.after (State.checkSlots_touches _ _)
    | with_reducible apply State.Touches.after (State.feStart_touches _)
    | with_reducible apply State.Touches.after (State.drawStart_touches _)
    | with_reducible apply State.Touches.after (State.splitStart_touches _)
    | with_reducible apply State.Touches.after (State.hencStart_touches _)
    | with_reducible apply State.Touches.after (State.autoSave_touches _ _)
    | with_reducible apply State.Touches.after (State.showRecorder_touches _)
    | with_reducible apply State.Touches.after (State.recorderStart_touches _)
    | with_reducible apply State.Touches.after (State.powerAll_touches _)
    | with_reducible apply State.Touches.after (State.loupeTake_touches _)
    | with_reducible apply State.Touches.after (State.trigStart_touches _)
    | with_reducible apply State.Touches.after (State.armTriggers_touches _)
    | with_reducible apply State.Touches.after (State.freqZero_touches _)
    | with_reducible apply State.Touches.foldl
    | intro _
    | with_reducible apply State.Touches.set

theorem State.sendReport_touches (s : State) (cmd : Option Nat) (b : List Byte) : s.Touches (State.sendReport s cmd b) [.out, .hqReport,
    .hqLogUsed, .dram] := by
  unfold State.sendReport
  repeat' first
    | with_reducible exact .refl _ _
    | exact rfl
    | with_reducible apply State.setHq_touches
    | with_reducible apply State.Touches.after (State.toHost_touches _ _ _ _)
    | with_reducible apply State.Touches.after (State.pokeN_touches _ _ _)
    | split
    | dsimp only

theorem State.refuseStart_touches (s : State) (cmd : Option Nat) (status : Nat) (result : Nat) (detail : Nat) : s.Touches
    (State.refuseStart s cmd status result detail) [.regs, .ctlMode, .ctlPhase, .ctlCapRun, .ctlLatches, .hqCmds, .hqGhosts, .hqErrors,
    .hqErrCount0, .hqErrCount1, .fwWaiting, .fwRunning, .fwFailover, .fwWritten, .fwRead] := by
  unfold State.refuseStart
  repeat' first
    | with_reducible exact .refl _ _
    | exact rfl
    | with_reducible apply State.Touches.after (State.finish?_touches _ _ _ _ _)
    | with_reducible apply State.Touches.after (State.fwOver_touches _)
    | with_reducible apply State.Touches.after (State.toMode_touches _ _ _)
    | with_reducible apply State.Touches.set

theorem State.budgetDone_touches (s : State) : s.Touches (State.budgetDone s) [.out, .seed, .regs, .ctlMode, .ctlPhase, .ctlCapRun,
    .ctlRecStart, .ctlCharged, .ctlSnaps, .ctlGroups, .ctlLatches, .rsmBank0, .rsmBank1, .rsmRunning, .rsmHeld, .hqCmds, .hqGhosts,
    .hqErrors, .hqErrCount0, .hqErrCount1, .hqReport, .hqLogUsed, .portA, .portB, .ingressOpenFrame, .ingressSlots, .ingressFreeCtr,
    .ingressFrameVals, .ingressReady, .ingressReading, .ingressCatchup, .ingressSofs, .splitPics, .splitNewest, .splitBufs, .splitHolds,
    .drawCount, .drawLive, .drawCat, .drawBufs, .drawStalled, .drawLiveHist, .drawCatHist, .drawCores, .drawReassign, .henc, .trig,
    .dramcChange, .dramcStarted, .dramcHeld, .dramcGather, .dramcNext, .dramcBands, .fwWaiting, .fwRunning, .fwFailover, .fwWritten,
    .fwRead, .pwrRising, .dram, .exposures] := by
  unfold State.budgetDone
  repeat' first
    | with_reducible exact .refl _ _
    | exact rfl
    | with_reducible apply State.Touches.after (State.raiseAll_touches _ _)
    | with_reducible apply State.Touches.after (State.armTake_touches _ _ _)
    | with_reducible apply State.Touches.after (State.sendReport_touches _ _ _)
    | with_reducible apply State.Touches.after (State.refuseStart_touches _ _ _ _ _)
    | split
    | dsimp only

theorem State.reelClose_touches (s : State) : s.Touches (State.reelClose s) [.regs, .ctlMode, .ctlPhase, .ctlLatches, .hqCmds, .hqGhosts,
    .hqErrors, .hqErrCount0, .hqErrCount1, .portA, .portB, .fstoreMem, .splitHolds, .drawBufs, .drdecOutCount, .drdecLast, .drdecCur,
    .drdecRecords, .drdecReady, .henc, .hdec, .mediaDrives, .mediaVol, .mediaReel, .aud, .condParked, .relayDescs, .pwrHeld, .pwrRising,
    .loupe, .mirror, .flows] := by
  unfold State.reelClose
  repeat' first
    | with_reducible exact .refl _ _
    | exact rfl
    | with_reducible apply State.Touches.after (State.finish?_touches _ _ _ _ _)
    | with_reducible apply State.Touches.after (State.endReel_touches _)
    | with_reducible apply State.Touches.after (State.showRecorder_touches _)
    | with_reducible apply State.Touches.after (State.toMode_touches _ _ _)
    | with_reducible apply State.Touches.after (State.toStandby_touches _ _)
    | split

theorem runAbort_touches (tag : Nat) (c : Cmd) (s : State) : s.Touches (runAbort tag c s) [.out, .seed, .regs, .ctlMode, .ctlPhase,
    .ctlCapRun, .ctlRecStart, .ctlLatches, .hqCmds, .hqGhosts, .hqErrors, .hqErrCount0, .hqErrCount1, .portA, .portB, .fstoreMem,
    .drdecOutCount, .drdecLast, .drdecCur, .drdecRecords, .drdecReady, .hdec, .aud, .condQueue, .condParked, .relayDescs, .fwWaiting,
    .fwRunning, .fwFailover, .fwWritten, .fwRead, .pwrHeld, .pwrRising, .loupe, .mirror, .flows, .dram] := by
  unfold runAbort
  dsimp only
  split
  · exact (State.finishTag_touches ..).mono rfl
  · split
    · rename_i heq
      exact .step ((State.stopCmd_touches _ _ _ heq).mono rfl) (State.finishTag_touches ..) rfl
    · exact (State.finishTag_touches ..).mono rfl

theorem State.takeBegins_touches (s : State) : s.Touches (State.takeBegins s) [.seed, .regs, .ctlMode, .ctlPhase, .ctlLatches, .hqCmds,
    .hqGhosts, .hqErrors, .hqErrCount0, .hqErrCount1, .mediaDrives, .mediaVol, .mediaReel, .mediaDrops, .mediaDropTotal] := by
  unfold State.takeBegins
  repeat' first
    | with_reducible exact .refl _ _
    | exact rfl
    | with_reducible apply State.Touches.after (State.setFld_touches _ _ _ _)
    | with_reducible apply State.Touches.after (State.finish?_touches _ _ _ _ _)
    | with_reducible apply State.Touches.after (State.showRecorder_touches _)
    | with_reducible apply State.Touches.after (State.openReel_touches _ _)
    | with_reducible apply State.Touches.after (State.toMode_touches _ _ _)
    | split

theorem State.recordBoundary_touches (s : State) (n : Nat) : s.Touches (State.recordBoundary s n) [.seed, .regs, .ctlMode, .ctlPhase,
    .ctlRecStart, .ctlLatches, .hqCmds, .hqGhosts, .hqErrors, .hqErrCount0, .hqErrCount1, .ingressSlots, .ingressCatchup, .mediaDrives,
    .mediaVol, .mediaReel, .mediaDrops, .mediaDropTotal, .dram] := by
  unfold State.recordBoundary
  repeat' first
    | with_reducible exact .refl _ _
    | exact rfl
    | with_reducible apply State.Touches.after (State.finish?_touches _ _ _ _ _)
    | with_reducible apply State.Touches.after (State.holdPreroll_touches _ _)
    | with_reducible apply State.Touches.after (State.showRecorder_touches _)
    | with_reducible apply State.Touches.after (State.openReel_touches _ _)
    | with_reducible apply State.Touches.after (State.toMode_touches _ _ _)
    | split
    | with_reducible apply State.Touches.set

theorem State.liveBoundary_touches (s : State) (n : Nat) : s.Touches (State.liveBoundary s n) [.seed, .regs, .ctlMode, .ctlPhase,
    .ctlRecEnd, .ctlLatches, .hqCmds, .hqGhosts, .hqErrors, .hqErrCount0, .hqErrCount1, .portA, .portB, .fstoreMem, .splitHolds,
    .drawBufs, .drdecOutCount, .drdecLast, .drdecCur, .drdecRecords, .drdecReady, .henc, .hdec, .mediaDrives, .mediaVol, .mediaReel,
    .aud, .condParked, .relayDescs, .pwrHeld, .pwrRising, .loupe, .mirror, .flows] := by
  unfold State.liveBoundary
  repeat' first
    | with_reducible exact .refl _ _
    | exact rfl
    | with_reducible apply State.Touches.after (State.beginClose_touches _)
    | with_reducible apply State.Touches.after (State.reelClose_touches _)
    | split
    | with_reducible apply State.Touches.set

theorem runSetMode_touches (h : HostData) (tag : Nat) (c : Cmd) (s : State) (hc : s.hq.cmds.get tag = c) :
    s.Touches (runSetMode h tag c s) [.out, .seed, .regs, .ctlMode, .ctlPhase, .ctlCapRun, .ctlFrameSeen, .ctlStopFrame, .ctlRecStart,
        .ctlRecEnd, .ctlLoHold, .ctlSnaps, .ctlGroups, .ctlLatches, .ctlBusErrHeld, .hqCmds, .hqGhosts, .hqDbErrHeld, .hqErrors,
        .hqErrCount0, .hqErrCount1, .hqLogUsed, .portA, .portB, .ingressFrameVals, .ingressReading, .fstoreMem, .splitPics, .splitNewest,
        .splitBufs, .splitHolds, .drdecOutCount, .drdecLast, .drdecCur, .drdecRecords, .drdecReady, .hdec, .mediaDrives, .mediaVol,
        .mediaReview, .stages, .aud, .condParked, .relayDescs, .dramcChange, .dramcStarted, .dramcHeld, .dramcGather, .dramcNext,
        .dramcBands, .fwWaiting, .fwRunning, .fwFailover, .fwWritten, .fwRead, .pwrSeqA, .pwrSeqB, .pwrHeld, .pwrRising, .loupe, .mirror,
        .flows, .dram] := by
  have hput : ∀ bufs, s.Touches (s.putCmd tag { c with bufs := bufs }) [.hqCmds] := fun bufs => s.putCmd_touches tag _ (by rw [hc]; exact
      ⟨rfl, id⟩)
  unfold runSetMode
  dsimp only
  split
  · exact .refl _ _
  · refine .ite (.step ((State.raise_touches ..).mono rfl) (State.finishTag_touches ..) rfl) (.ite ((State.finishTag_touches ..).mono
      rfl) ?_)
    split
    · exact (State.failBuf_touches ..).mono rfl
    · exact .ite (.step ((State.cancelStart_touches ..).mono rfl) (State.finishTag_touches ..) rfl)
        (.step ((hput _).mono rfl) (State.runMode_touches ..) rfl)

theorem State.setGeneration_touches (s : State) (g : Nat) : s.Touches (State.setGeneration s g) [.regs, .ctlLatches, .rsmBank0,
    .rsmBank1, .rsmRunning, .rsmHeld] := by
  unfold State.setGeneration
  repeat' first
    | with_reducible exact .refl _ _
    | exact rfl
    | with_reducible apply State.Touches.after (State.setOn_touches _ _ _ _)
    | with_reducible apply State.Touches.after (State.setFld_touches _ _ _ _)
    | with_reducible apply State.Touches.after (State.raise_touches _ _ _)
    | with_reducible apply State.Touches.after (State.requestSave_touches _ _ _)

theorem State.startLease_touches (s : State) (l : Nat) : s.Touches (State.startLease s l) [.regs, .arrayLease, .arrayLow] := by
  unfold State.startLease
  repeat' first
    | with_reducible exact .refl _ _
    | exact rfl
    | with_reducible apply State.Touches.after (State.setFld_touches _ _ _ _)
    | with_reducible apply State.Touches.set

theorem State.setFenced_touches (s : State) (b : Bool) : s.Touches (State.setFenced s b) [.regs] := by
  unfold State.setFenced
  repeat' first
    | with_reducible exact .refl _ _
    | exact rfl
    | with_reducible apply State.Touches.after (State.setOn_touches _ _ _ _)

theorem State.readmit_touches (s : State) (g : Nat) (l : Nat) : s.Touches (State.readmit s g l) [.seed, .regs, .ctlLatches, .rsmBank0,
    .rsmBank1, .rsmRunning, .rsmHeld, .splitHolds, .mediaDrives, .mediaVol, .arrayLease, .arrayLow, .flows] := by
  unfold State.readmit
  repeat' first
    | with_reducible exact .refl _ _
    | exact rfl
    | with_reducible apply State.Touches.after (State.raise_touches _ _ _)
    | with_reducible apply State.Touches.after (State.recoverAll_touches _ _)
    | with_reducible apply State.Touches.after (State.flowDrop_touches _ _)
    | with_reducible apply State.Touches.after (State.setGeneration_touches _ _)
    | with_reducible apply State.Touches.after (State.startLease_touches _ _)
    | with_reducible apply State.Touches.after (State.setFenced_touches _ _)
    | with_reducible apply State.Touches.ite
    | with_reducible apply State.Touches.foldl
    | intro _

theorem runArrayLease_touches (tag : Nat) (c : Cmd) (s : State) : s.Touches (runArrayLease tag c s) [.seed, .regs, .ctlLatches,
    .rsmBank0, .rsmBank1, .rsmRunning, .rsmHeld, .hqCmds, .hqErrors, .hqErrCount0, .hqErrCount1, .splitHolds, .mediaDrives, .mediaVol,
    .arrayLease, .arrayLow, .flows] := by
  unfold runArrayLease
  repeat' first
    | with_reducible exact .refl _ _
    | exact rfl
    | with_reducible apply State.Touches.after (State.finishTag_touches _ _ _ _ _ _)
    | with_reducible apply State.Touches.after (State.setGeneration_touches _ _)
    | with_reducible apply State.Touches.after (State.readmit_touches _ _ _)
    | with_reducible apply State.Touches.after (State.startLease_touches _ _)
    | with_reducible apply State.Touches.ite

theorem State.fence_touches (s : State) : s.Touches (State.fence s) [.regs, .ctlLatches, .arrayLease] := by
  unfold State.fence
  repeat' first
    | with_reducible exact .refl _ _
    | exact rfl
    | with_reducible apply State.Touches.after (State.setFld64_touches _ _ _ _ _)
    | with_reducible apply State.Touches.after (State.count_touches _ _ _)
    | with_reducible apply State.Touches.after (State.raise_touches _ _ _)
    | with_reducible apply State.Touches.after (State.setFenced_touches _ _)
    | with_reducible apply State.Touches.set

theorem State.frameCommits_touches (s : State) (n : Nat) : s.Touches (State.frameCommits s n) [.out, .regs, .ctlSnaps, .ctlGroups,
    .ctlLatches, .portA, .portB, .ingressFrameVals] := by
  unfold State.frameCommits
  repeat' first
    | with_reducible exact .refl _ _
    | exact rfl
    | with_reducible apply State.Touches.after (State.sendFwr_touches _ _ _)
    | with_reducible apply State.Touches.after (State.frameValues_touches _ _)
    | with_reducible apply State.Touches.foldl
    | intro _

theorem State.savePeriod_touches (s : State) (n : Nat) : s.Touches (State.savePeriod s n) [.regs, .ctlLatches, .rsmBank0, .rsmBank1,
    .rsmRunning, .rsmHeld] := by
  unfold State.savePeriod
  repeat' first
    | with_reducible exact .refl _ _
    | exact rfl
    | with_reducible apply State.Touches.after (State.autoSave_touches _ _)
    | with_reducible apply State.Touches.ite

theorem State.startFrame_touches (s : State) (k : Nat) (n : Nat) : s.Touches (State.startFrame s k n) [.out, .seed, .regs, .ctlMode,
    .ctlPhase, .ctlFrameSeen, .ctlRecStart, .ctlRecEnd, .ctlSnaps, .ctlGroups, .ctlLatches, .rsmBank0, .rsmBank1, .rsmRunning, .rsmHeld,
    .hqCmds, .hqGhosts, .hqErrors, .hqErrCount0, .hqErrCount1, .portA, .portB, .ingressOpenFrame, .ingressSlots, .ingressFrameVals,
    .ingressCatchup, .ingressSofs, .fstoreMem, .splitHolds, .drawBufs, .drawCores, .drawReassign, .drdecOutCount, .drdecLast, .drdecCur,
    .drdecRecords, .drdecReady, .henc, .hdec, .mediaDrives, .mediaVol, .mediaReel, .mediaDrops, .mediaDropTotal, .aud, .condParked,
    .relayDescs, .fwWaiting, .fwRunning, .fwFailover, .fwWritten, .fwRead, .pwrHeld, .pwrRising, .loupe, .mirror, .flows, .dram] := by
  unfold State.startFrame
  repeat' first
    | with_reducible exact .refl _ _
    | exact rfl
    | with_reducible apply State.Touches.after (State.applyFallback_touches _ _ _)
    | with_reducible apply State.Touches.after (State.countLoss_touches _ _ _)
    | with_reducible apply State.Touches.after (State.openNew_touches _ _ _)
    | with_reducible apply State.setIngress_touches
    | with_reducible apply State.Touches.after (State.setFrameNow_touches _ _)
    | with_reducible apply State.Touches.after (State.reassign_touches _)
    | with_reducible apply State.Touches.after (State.adopt_touches _)
    | with_reducible apply State.Touches.after (State.awaitFrame_touches _ _)
    | with_reducible apply State.Touches.after (State.fwPoint_touches _)
    | with_reducible apply State.Touches.after (State.relockAll_touches _)
    | with_reducible apply State.Touches.after (State.takeBegins_touches _)
    | with_reducible apply State.Touches.after (State.recordBoundary_touches _ _)
    | with_reducible apply State.Touches.after (State.liveBoundary_touches _ _)
    | with_reducible apply State.Touches.after (State.frameCommits_touches _ _)
    | with_reducible apply State.Touches.after (State.savePeriod_touches _ _)
    | with_reducible apply State.Touches.ite
    | with_reducible apply State.Touches.foldl
    | intro _
    | with_reducible apply State.Touches.set

theorem State.frameStart_touches (s : State) (k : Nat) : s.Touches (State.frameStart s k) [.out, .seed, .regs, .ctlMode, .ctlPhase,
    .ctlFrameSeen, .ctlRecStart, .ctlRecEnd, .ctlSnaps, .ctlGroups, .ctlLatches, .rsmBank0, .rsmBank1, .rsmRunning, .rsmHeld, .hqCmds,
    .hqGhosts, .hqErrors, .hqErrCount0, .hqErrCount1, .portA, .portB, .ingressOpenFrame, .ingressSlots, .ingressFrameVals, .ingressReady,
    .ingressCatchup, .ingressSofs, .fstoreMem, .splitHolds, .drawBufs, .drawCores, .drawReassign, .drdecOutCount, .drdecLast, .drdecCur,
    .drdecRecords, .drdecReady, .henc, .hdec, .mediaDrives, .mediaVol, .mediaReel, .mediaDrops, .mediaDropTotal, .aud, .condParked,
    .relayDescs, .fwWaiting, .fwRunning, .fwFailover, .fwWritten, .fwRead, .pwrHeld, .pwrRising, .loupe, .mirror, .flows, .dram] := by
  unfold State.frameStart
  repeat' first
    | with_reducible exact .refl _ _
    | exact rfl
    | with_reducible apply State.Touches.after (State.pairDiscard_touches _ _)
    | with_reducible apply State.Touches.after (State.closeFrame_touches _)
    | with_reducible apply State.Touches.after (State.stopDiscard_touches _ _)
    | with_reducible apply State.Touches.after (State.takeHalf_touches _ _ _)
    | with_reducible apply State.Touches.after (State.startFrame_touches _ _ _)
    | split

theorem State.countBoot_touches (s : State) : s.Touches (State.countBoot s) [.regs] := by
  unfold State.countBoot
  repeat' first
    | with_reducible exact .refl _ _
    | exact rfl
    | with_reducible apply State.Touches.after (State.setFld64_touches _ _ _ _ _)

theorem State.porRelease_touches (s : State) (straps : Nat) : s.Touches (State.porRelease s straps) [.regs, .ctlStraps, .ctlPhase] := by
  unfold State.porRelease
  repeat' first
    | with_reducible exact .refl _ _
    | exact rfl
    | with_reducible apply State.Touches.after (State.setFld_touches _ _ _ _)
    | with_reducible apply State.Touches.after (State.countBoot_touches _)
    | with_reducible apply State.Touches.ite
    | with_reducible apply State.Touches.set

theorem State.latchOrder_touches (s : State) : s.Touches (State.latchOrder s) [.regs] := by
  unfold State.latchOrder
  repeat' first
    | with_reducible exact .refl _ _
    | exact rfl
    | with_reducible apply State.Touches.after (State.setFld_touches _ _ _ _)

theorem State.bootTake_touches (s : State) : s.Touches (State.bootTake s) [.regs, .ctlMode, .ctlPhase, .ctlCapRun, .ctlFrameSeen,
    .ctlStopFrame, .ctlRecStart, .ctlRecEnd] := by
  unfold State.bootTake
  repeat' first
    | with_reducible exact .refl _ _
    | exact rfl
    | with_reducible apply State.Touches.after (State.beginStart_touches _ _ _)
    | with_reducible apply State.Touches.ite

theorem State.fenceAtBoot_touches (s : State) : s.Touches (State.fenceAtBoot s) [.regs] := by
  unfold State.fenceAtBoot
  repeat' first
    | with_reducible exact .refl _ _
    | exact rfl
    | with_reducible apply State.Touches.after (State.setFld_touches _ _ _ _)
    | with_reducible apply State.Touches.ite

theorem State.restoreDone_touches (s : State) : s.Touches (State.restoreDone s) [.out, .seed, .regs, .ctlMode, .ctlPhase, .ctlCapRun,
    .ctlFrameSeen, .ctlStopFrame, .ctlRecStart, .ctlRecEnd, .ctlLatches, .portA, .portB, .fstoreMem, .drdecOutCount, .drdecLast,
    .drdecCur, .drdecRecords, .drdecReady, .hdec, .aud, .condParked, .relayDescs, .fwA, .fwB, .fwWaiting, .fwRunning, .fwFailover,
    .fwReports, .fwWritten, .fwRead, .pwrSeqA, .pwrSeqB, .pwrHeld, .pwrRising, .loupe, .mirror, .flows] := by
  unfold State.restoreDone
  repeat' first
    | with_reducible exact .refl _ _
    | exact rfl
    | with_reducible apply State.Touches.after (State.placeSlots_touches _ _)
    | with_reducible apply State.Touches.after (State.restore_touches _ _)
    | with_reducible apply State.Touches.after (State.mediaStart_touches _)
    | with_reducible apply State.Touches.after (State.showRecorder_touches _)
    | with_reducible apply State.Touches.after (State.bootFw_touches _)
    | with_reducible apply State.Touches.after (State.supplyStep_touches _ _)
    | with_reducible apply State.Touches.after (State.settleAll_touches _)
    | with_reducible apply State.Touches.after (State.outputsStart_touches _)
    | with_reducible apply State.Touches.after (State.toMode_touches _ _ _)
    | with_reducible apply State.Touches.after (State.latchOrder_touches _)
    | with_reducible apply State.Touches.after (State.bootTake_touches _)
    | with_reducible apply State.Touches.after (State.fenceAtBoot_touches _)
    | with_reducible apply State.Touches.ite

/-- A reset leaves no command and no commit. -/
theorem State.toReset_touches (s : State) (cause : Nat) (ph : Phase) (hold : Bool) : s.Touches (s.toReset cause ph hold) everything := by
  refine State.Touches.numbers (State.Touches.commits ?_ fun _ => ?_) fun _ => ?_
  · exact .of_eq rfl rfl
  · exact ⟨fun _ h => absurd h List.not_mem_nil, fun _ h => absurd h List.not_mem_nil⟩
  · exact ⟨fun _ h => absurd h List.not_mem_nil, fun _ h => absurd h List.not_mem_nil⟩

theorem writeResetCtrl_touches (r : Req) (v : Word) (s : State) : s.Touches (writeResetCtrl r v s) everything := by
  unfold writeResetCtrl
  repeat' first
    | with_reducible exact .refl _ _
    | with_reducible exact everything_all
    | exact rfl
    | with_reducible refine withWrite_touches _ _ _ _ _ _ (fun _ _ _ => ?_) ?_
    | with_reducible apply State.Touches.after (State.toReset_touches _ _ _ _)
    | with_reducible apply State.Touches.ite

theorem State.alarm_touches (s : State) : s.Touches (State.alarm s) [.seed, .regs, .ctlMode, .ctlPhase, .ctlLatches, .portA, .portB,
    .fstoreMem, .drdecOutCount, .drdecLast, .drdecCur, .drdecRecords, .drdecReady, .hdec, .aud, .collF, .collMasters, .collSel,
    .collDelays, .collSync, .collT3, .collAccepted, .collReceived, .collStepSum, .collStepNum, .collSmall, .collWithin, .condParked,
    .relayDescs, .dramcChange, .dramcStarted, .dramcHeld, .dramcGather, .dramcNext, .fwA, .fwB, .fwWaiting, .fwRunning, .fwFailover,
    .fwReports, .fwWritten, .fwRead, .pwrHeld, .pwrRising, .loupe, .mirror, .flows, .time] := by
  unfold State.alarm
  repeat' first
    | with_reducible exact .refl _ _
    | exact rfl
    | with_reducible apply State.Touches.after (State.setFld_touches _ _ _ _)
    | with_reducible apply State.Touches.after (State.raise_touches _ _ _)
    | with_reducible apply State.Touches.after (State.wake_touches _)
    | with_reducible apply State.Touches.ite

theorem State.watchdog_touches (s : State) : s.Touches (State.watchdog s) everything := by
  unfold State.watchdog
  repeat' first
    | with_reducible exact .refl _ _
    | with_reducible exact everything_all
    | exact rfl
    | with_reducible apply State.setFw_touches
    | with_reducible apply State.Touches.after (State.doFailover_touches _)
    | with_reducible apply State.Touches.after (State.toReset_touches _ _ _ _)
    | with_reducible apply State.Touches.ite

theorem State.thermalTrip_touches (s : State) : s.Touches (State.thermalTrip s) everything := by
  unfold State.thermalTrip
  repeat' first
    | with_reducible exact .refl _ _
    | with_reducible exact everything_all
    | exact rfl
    | with_reducible apply State.Touches.after (State.toReset_touches _ _ _ _)

theorem State.flushNow_touches (s : State) : s.Touches (State.flushNow s) [.seed, .regs, .ctlLatches, .hqCmds, .hqGhosts, .hqErrors,
    .hqErrCount0, .hqErrCount1, .mediaDrives, .mediaReel] := by
  unfold State.flushNow
  repeat' first
    | with_reducible exact .refl _ _
    | exact rfl
    | with_reducible apply State.Touches.after (State.pushFlush_touches _)
    | with_reducible apply State.Touches.after (State.beginFlush_touches _ _)
    | with_reducible apply State.Touches.ite

theorem State.setSfld_touches (s : State) (p : Nat) (f : Fld) (v : ℤ) : s.Touches (State.setSfld s p f v) [.regs] := by
  unfold State.setSfld
  repeat' first
    | with_reducible exact .refl _ _
    | exact rfl
    | with_reducible apply State.Touches.after (State.setFld_touches _ _ _ _)

theorem State.riseCheck_touches (s : State) : s.Touches (State.riseCheck s) [.regs, .ctlLatches, .thermRising] := by
  unfold State.riseCheck
  repeat' first
    | with_reducible exact .refl _ _
    | exact rfl
    | with_reducible apply State.Touches.after (State.raiseIf_touches _ _ _ _)
    | with_reducible apply State.setTherm_touches

theorem State.countAbove_touches (s : State) : s.Touches (State.countAbove s) [.regs, .thermAbove] := by
  unfold State.countAbove
  repeat' first
    | with_reducible exact .refl _ _
    | exact rfl
    | with_reducible apply State.Touches.after (State.count_touches _ _ _)
    | with_reducible apply State.setTherm_touches
    | with_reducible apply State.Touches.ite

theorem State.orderlyStop_touches (s : State) : s.Touches (State.orderlyStop s) [.out, .seed, .regs, .ctlMode, .ctlPhase, .ctlStopFrame,
    .ctlRecEnd, .ctlLoHold, .ctlSnaps, .ctlGroups, .ctlLatches, .ctlBusErrHeld, .hqCmds, .hqGhosts, .hqDbErrHeld, .hqErrors,
    .hqErrCount0, .hqErrCount1, .portA, .portB, .ingressReading, .fstoreMem, .splitPics, .splitHolds, .drdecOutCount, .drdecLast,
    .drdecCur, .drdecRecords, .drdecReady, .hdec, .mediaReview, .aud, .condParked, .relayDescs, .pwrSeqA, .pwrSeqB, .pwrHeld, .pwrRising,
    .loupe, .mirror, .flows] := by
  unfold State.orderlyStop
  repeat' first
    | with_reducible exact .refl _ _
    | exact rfl
    | with_reducible apply State.Touches.after (State.count_touches _ _ _)
    | with_reducible apply State.Touches.after (State.setFld_touches _ _ _ _)
    | with_reducible apply State.Touches.after (State.raise_touches _ _ _)
    | with_reducible apply State.Touches.after (State.beginStop_touches _ _)
    | with_reducible apply State.Touches.after (State.leaveService_touches _ _)
    | with_reducible apply State.Touches.after (State.leaveReview_touches _ _)
    | split

theorem State.stopDecision_touches (s : State) (hot : Bool) : s.Touches (State.stopDecision s hot) [.out, .seed, .regs, .ctlMode,
    .ctlPhase, .ctlStopFrame, .ctlRecEnd, .ctlLoHold, .ctlSnaps, .ctlGroups, .ctlLatches, .ctlBusErrHeld, .hqCmds, .hqGhosts,
    .hqDbErrHeld, .hqErrors, .hqErrCount0, .hqErrCount1, .portA, .portB, .ingressReading, .fstoreMem, .splitPics, .splitHolds,
    .drdecOutCount, .drdecLast, .drdecCur, .drdecRecords, .drdecReady, .hdec, .mediaDrives, .mediaReel, .mediaReview, .aud, .condParked,
    .relayDescs, .pwrSeqA, .pwrSeqB, .pwrHeld, .pwrRising, .loupe, .mirror, .flows] := by
  unfold State.stopDecision
  repeat' first
    | with_reducible exact .refl _ _
    | exact rfl
    | with_reducible apply State.Touches.after (State.raise_touches _ _ _)
    | with_reducible apply State.Touches.after (State.flushNow_touches _)
    | with_reducible apply State.Touches.after (State.orderlyStop_touches _)
    | with_reducible apply State.Touches.ite
    | with_reducible apply State.Touches.set

theorem State.setLevel_touches (s : State) : s.Touches (State.setLevel s) [.out, .seed, .regs, .ctlMode, .ctlPhase, .ctlStopFrame,
    .ctlRecEnd, .ctlLoHold, .ctlSnaps, .ctlGroups, .ctlLatches, .ctlBusErrHeld, .hqCmds, .hqGhosts, .hqDbErrHeld, .hqErrors,
    .hqErrCount0, .hqErrCount1, .portA, .portB, .ingressReading, .fstoreMem, .splitPics, .splitHolds, .drdecOutCount, .drdecLast,
    .drdecCur, .drdecRecords, .drdecReady, .hdec, .mediaDrives, .mediaReel, .mediaReview, .aud, .condParked, .relayDescs, .pwrSeqA,
    .pwrSeqB, .pwrHeld, .pwrRising, .loupe, .mirror, .flows] := by
  unfold State.setLevel
  repeat' first
    | with_reducible exact .refl _ _
    | exact rfl
    | with_reducible apply State.Touches.after (State.setFld_touches _ _ _ _)
    | with_reducible apply State.Touches.after (State.raise_touches _ _ _)
    | with_reducible apply State.Touches.after (State.raiseIf_touches _ _ _ _)
    | with_reducible apply State.Touches.after (State.stopDecision_touches _ _)
    | with_reducible apply State.Touches.ite

theorem State.crossCheck_touches (s : State) (t : List ℤ) (k : Nat) : s.Touches (State.crossCheck s t k) [.regs, .ctlLatches, .thermBad,
    .thermGood] := by
  unfold State.crossCheck
  repeat' first
    | with_reducible exact .refl _ _
    | exact rfl
    | with_reducible apply State.Touches.after (State.setFld_touches _ _ _ _)
    | with_reducible apply State.Touches.after (State.raise_touches _ _ _)
    | with_reducible apply State.setTherm_touches
    | with_reducible apply State.Touches.ite

theorem State.showTj_touches (s : State) (tj : ℤ) : s.Touches (State.showTj s tj) [.seed, .regs, .thermHist] := by
  unfold State.showTj
  repeat' first
    | with_reducible exact .refl _ _
    | exact rfl
    | with_reducible apply State.Touches.after (State.setOn_touches _ _ _ _)
    | with_reducible apply State.Touches.after (State.setSfld_touches _ _ _ _)
    | with_reducible apply State.setTherm_touches
    | with_reducible apply State.Touches.set

theorem State.thermSample_touches (s : State) (sensors : List ℤ) : s.Touches (State.thermSample s sensors) everything := by
  unfold State.thermSample
  repeat' first
    | with_reducible exact .refl _ _
    | with_reducible exact everything_all
    | exact rfl
    | with_reducible apply State.Touches.after (State.thermalTrip_touches _)
    | with_reducible apply State.Touches.after (State.setSfld_touches _ _ _ _)
    | with_reducible apply State.Touches.after (State.riseCheck_touches _)
    | with_reducible apply State.Touches.after (State.countAbove_touches _)
    | with_reducible apply State.Touches.after (State.setLevel_touches _)
    | with_reducible apply State.Touches.after (State.crossCheck_touches _ _ _)
    | with_reducible apply State.Touches.after (State.showTj_touches _ _)
    | with_reducible apply State.Touches.ite
    | with_reducible apply State.Touches.foldl
    | intro _

theorem State.fabWrite_touches (s : State) (a : Nat) (l : List Byte) : s.Touches (State.fabWrite s a l) [.relayCluster, .dram] := by
  unfold State.fabWrite
  repeat' first
    | with_reducible exact .refl _ _
    | exact rfl
    | with_reducible apply State.Touches.after (State.pokeN_touches _ _ _)
    | with_reducible apply State.Touches.ite
    | with_reducible apply State.Touches.set

theorem State.writeBack_touches (s : State) (c : Nat) (d : RelayDesc) (bit : Nat) : s.Touches (State.writeBack s c d bit) [.relayCluster,
    .dram] := by
  unfold State.writeBack
  repeat' first
    | with_reducible exact .refl _ _
    | exact rfl
    | with_reducible apply State.Touches.after (State.fabWrite_touches _ _ _)

theorem State.setCh_touches (s : State) (c : Nat) (v : Nat) : s.Touches (State.setCh s c v) [.regs, .ctlLatches, .portA, .portB,
    .fstoreMem, .drdecOutCount, .drdecLast, .drdecCur, .drdecRecords, .drdecReady, .hdec, .aud, .condParked, .relayDescs, .pwrHeld,
    .pwrRising, .loupe, .mirror, .flows] := by
  unfold State.setCh
  repeat' first
    | with_reducible exact .refl _ _
    | exact rfl
    | with_reducible apply State.Touches.after (State.setFld_touches _ _ _ _)
    | with_reducible apply State.Touches.after (State.settle_touches _ _)
    | with_reducible apply State.Touches.ite

theorem State.relayClear_touches (s : State) : s.Touches (State.relayClear s) [.regs, .ctlLatches, .portA, .portB, .fstoreMem,
    .drdecOutCount, .drdecLast, .drdecCur, .drdecRecords, .drdecReady, .hdec, .aud, .condParked, .relayDescs, .pwrHeld, .pwrRising,
    .loupe, .mirror, .flows] := by
  unfold State.relayClear
  repeat' first
    | with_reducible exact .refl _ _
    | exact rfl
    | with_reducible apply State.Touches.after (State.setFld_touches _ _ _ _)
    | with_reducible apply State.Touches.after (State.setCh_touches _ _ _)
    | with_reducible apply State.Touches.ite
    | with_reducible apply State.Touches.foldl
    | intro _

theorem State.copyBytes_touches (s : State) (d : RelayDesc) (n : Nat) : s.Touches (State.copyBytes s d n) [.relayCluster, .dram] := by
  unfold State.copyBytes
  repeat' first
    | with_reducible exact .refl _ _
    | exact rfl
    | with_reducible apply State.Touches.after (State.fabWrite_touches _ _ _)
    | with_reducible apply State.Touches.ite

theorem State.putDesc_touches (s : State) (c : Nat) (d : Option RelayDesc) : s.Touches (s.putDesc c d) [.relayDescs] := .of_eq rfl rfl

theorem State.chAbort_touches (s : State) (c : Nat) : s.Touches (State.chAbort s c) [.seed, .regs, .ctlLatches, .portA, .portB,
    .fstoreMem, .drdecOutCount, .drdecLast, .drdecCur, .drdecRecords, .drdecReady, .hdec, .aud, .condParked, .relayDescs, .relayCluster,
    .pwrHeld, .pwrRising, .loupe, .mirror, .flows, .dram] := by
  unfold State.chAbort
  repeat' first
    | with_reducible exact .refl _ _
    | exact rfl
    | with_reducible apply State.Touches.after (State.setFld_touches _ _ _ _)
    | with_reducible apply State.Touches.after (State.copyBytes_touches _ _ _)
    | with_reducible apply State.Touches.after (State.putDesc_touches _ _ _)
    | with_reducible apply State.Touches.after (State.setCh_touches _ _ _)
    | split
    | with_reducible apply State.Touches.set

theorem State.setCur_touches (s : State) (c : Nat) (a : Nat) : s.Touches (State.setCur s c a) [.regs] := by
  unfold State.setCur
  repeat' first
    | with_reducible exact .refl _ _
    | exact rfl
    | with_reducible apply State.Touches.after (State.setFld_touches _ _ _ _)

theorem State.chStart_touches (s : State) (c : Nat) : s.Touches (State.chStart s c) [.regs, .ctlLatches, .portA, .portB, .fstoreMem,
    .drdecOutCount, .drdecLast, .drdecCur, .drdecRecords, .drdecReady, .hdec, .aud, .condParked, .relayDescs, .pwrHeld, .pwrRising,
    .loupe, .mirror, .flows] := by
  unfold State.chStart
  repeat' first
    | with_reducible exact .refl _ _
    | exact rfl
    | with_reducible apply State.Touches.after (State.setFld_touches _ _ _ _)
    | with_reducible apply State.Touches.after (State.reject_touches _ _)
    | with_reducible apply State.Touches.after (State.setCur_touches _ _ _)
    | with_reducible apply State.Touches.after (State.putDesc_touches _ _ _)
    | with_reducible apply State.Touches.after (State.setCh_touches _ _ _)
    | with_reducible apply State.Touches.ite

theorem writeChCtrl_touches (r : Req) (c : Nat) (v : Word) (s : State) : s.Touches (writeChCtrl r c v s) [.out, .seed, .regs, .ctlW1Done,
    .ctlLatches, .ctlBusErrHeld, .hqPci0, .hqPci1, .portA, .portB, .fstoreMem, .drdecOutCount, .drdecLast, .drdecCur, .drdecRecords,
    .drdecReady, .hdec, .aud, .condParked, .relayDescs, .relayCluster, .pwrHeld, .pwrRising, .loupe, .mirror, .flows, .dram] := by
  unfold writeChCtrl
  repeat' first
    | with_reducible exact .refl _ _
    | exact rfl
    | with_reducible refine withWrite_touches _ _ _ _ _ _ (fun _ _ _ => ?_) ?_
    | with_reducible apply State.Touches.after (State.chAbort_touches _ _)
    | with_reducible apply State.Touches.after (State.chStart_touches _ _)
    | with_reducible apply State.Touches.ite

theorem State.spoil_touches (s : State) (c : Nat) : s.Touches (State.spoil s c) [.seed, .relayCluster, .dram] := by
  unfold State.spoil
  repeat' first
    | with_reducible exact .refl _ _
    | exact rfl
    | with_reducible apply State.Touches.after (State.fabWrite_touches _ _ _)
    | split
    | with_reducible apply State.Touches.set

theorem State.relayError_touches (s : State) (addr : Nat) (kind : Nat) (write : Bool) : s.Touches (State.relayError s addr kind write)
    [.seed, .regs, .ctlLatches, .portA, .portB, .fstoreMem, .drdecOutCount, .drdecLast, .drdecCur, .drdecRecords, .drdecReady, .hdec,
    .aud, .condParked, .relayDescs, .relayCluster, .pwrHeld, .pwrRising, .loupe, .mirror, .flows, .dram] := by
  unfold State.relayError
  repeat' first
    | with_reducible exact .refl _ _
    | exact rfl
    | with_reducible apply State.Touches.after (State.setFld64_touches _ _ _ _ _)
    | with_reducible apply State.Touches.after (State.setOn_touches _ _ _ _)
    | with_reducible apply State.Touches.after (State.setFld_touches _ _ _ _)
    | with_reducible apply State.Touches.after (State.raise_touches _ _ _)
    | with_reducible apply State.Touches.after (State.spoil_touches _ _)
    | with_reducible apply State.Touches.after (State.putDesc_touches _ _ _)
    | with_reducible apply State.Touches.after (State.setCh_touches _ _ _)
    | with_reducible apply State.Touches.ite
    | with_reducible apply State.Touches.foldl
    | intro _

theorem writeRelayCtrl_touches (r : Req) (v : Word) (s : State) : s.Touches (writeRelayCtrl r v s) [.out, .regs, .ctlLoHold, .ctlW1Done,
    .ctlLatches, .ctlBusErrHeld, .hqPci0, .hqPci1, .portA, .portB, .fstoreMem, .drdecOutCount, .drdecLast, .drdecCur, .drdecRecords,
    .drdecReady, .hdec, .aud, .condParked, .relayDescs, .pwrHeld, .pwrRising, .loupe, .mirror, .flows] := by
  unfold writeRelayCtrl
  repeat' first
    | with_reducible exact .refl _ _
    | exact rfl
    | with_reducible refine withWrite_touches _ _ _ _ _ _ (fun _ _ _ => ?_) ?_
    | with_reducible apply State.Touches.after (plainStore_touches _ _ _ _ _ _)
    | with_reducible apply State.Touches.after (State.relayClear_touches _)
    | with_reducible apply State.Touches.ite

theorem State.descError_touches (s : State) (c : Nat) (d : RelayDesc) : s.Touches (State.descError s c d) [.regs, .ctlLatches, .portA,
    .portB, .fstoreMem, .drdecOutCount, .drdecLast, .drdecCur, .drdecRecords, .drdecReady, .hdec, .aud, .condParked, .relayDescs,
    .relayCluster, .pwrHeld, .pwrRising, .loupe, .mirror, .flows, .dram] := by
  unfold State.descError
  repeat' first
    | with_reducible exact .refl _ _
    | exact rfl
    | with_reducible apply State.Touches.after (State.raise_touches _ _ _)
    | with_reducible apply State.Touches.after (State.writeBack_touches _ _ _ _)
    | with_reducible apply State.Touches.after (State.putDesc_touches _ _ _)
    | with_reducible apply State.Touches.after (State.setCh_touches _ _ _)

theorem State.descFetch_touches (s : State) (c : Nat) : s.Touches (State.descFetch s c) [.regs, .ctlLatches, .portA, .portB, .fstoreMem,
    .drdecOutCount, .drdecLast, .drdecCur, .drdecRecords, .drdecReady, .hdec, .aud, .condParked, .relayDescs, .relayCluster, .pwrHeld,
    .pwrRising, .loupe, .mirror, .flows, .dram] := by
  unfold State.descFetch
  repeat' first
    | with_reducible exact .refl _ _
    | exact rfl
    | with_reducible apply State.Touches.after (State.raise_touches _ _ _)
    | with_reducible apply State.Touches.after (State.putDesc_touches _ _ _)
    | with_reducible apply State.Touches.after (State.descError_touches _ _ _)
    | with_reducible apply State.Touches.after (State.setCh_touches _ _ _)
    | with_reducible apply State.Touches.ite

theorem State.descEnd_touches (s : State) (c : Nat) (d : RelayDesc) : s.Touches (State.descEnd s c d) [.regs, .ctlLatches, .portA,
    .portB, .fstoreMem, .drdecOutCount, .drdecLast, .drdecCur, .drdecRecords, .drdecReady, .hdec, .aud, .condParked, .relayDescs,
    .relayCluster, .pwrHeld, .pwrRising, .loupe, .mirror, .flows, .dram] := by
  unfold State.descEnd
  repeat' first
    | with_reducible exact .refl _ _
    | exact rfl
    | with_reducible apply State.Touches.after (State.countBy_touches _ _ _ _)
    | with_reducible apply State.Touches.after (State.count_touches _ _ _)
    | with_reducible apply State.Touches.after (State.raiseIf_touches _ _ _ _)
    | with_reducible apply State.Touches.after (State.writeBack_touches _ _ _ _)
    | with_reducible apply State.Touches.after (State.setCur_touches _ _ _)
    | with_reducible apply State.Touches.after (State.putDesc_touches _ _ _)
    | with_reducible apply State.Touches.after (State.setCh_touches _ _ _)
    | with_reducible apply State.Touches.ite

theorem State.configWrite_touches (s : State) (fn : Fn) (o : Nat) (v : Nat) : s.Touches (State.configWrite s fn o v) [.regs, .hqSqs,
    .hqCqs, .hqCmds, .hqGhosts, .hqAvail, .hqMsixTable, .hqPci0, .hqPci1, .condQueue] := by
  unfold State.configWrite
  repeat' first
    | with_reducible exact .refl _ _
    | exact rfl
    | with_reducible apply State.Touches.after (State.setPciFn_touches _ _ _)
    | with_reducible apply State.Touches.after (State.teardown_touches _ _)
    | with_reducible apply State.Touches.after (State.resetPci_touches _ _ _)
    | with_reducible apply State.Touches.after (State.masterOff_touches _ _)
    | with_reducible apply State.Touches.ite

theorem State.pciRead_touches (s : State) (fn : Fn) (off : Nat) : s.Touches (s.pciRead fn off) [.out] := by
  unfold State.pciRead
  extract_lets answer
  generalize pciPlace off = x
  cases x <;> exact .ite (State.emit_touches ..) (.refl _ _)

theorem State.pciWrite_touches (s : State) (fn : Fn) (off be : Nat) (v : Word) :
    s.Touches (s.pciWrite fn off be v) [.regs, .hqSqs, .hqCqs, .hqCmds, .hqGhosts, .hqAvail, .hqMsixTable, .hqPci0, .hqPci1, .condQueue]
        := by
  unfold State.pciWrite
  generalize pciPlace off = x
  cases x with
  | table i => exact .ite ((State.setMsixWord_touches ..).mono rfl) (.refl _ _)
  | config o => exact .ite ((State.configWrite_touches ..).mono rfl) (.refl _ _)
  | pending i => exact .refl _ _
  | hole => exact .refl _ _

theorem State.beforeRead_touches (s : State) (p : Nat) (o : Nat) : s.Touches (State.beforeRead s p o) [.seed, .regs, .ctlLatches, .portA,
    .portB] := by
  unfold State.beforeRead
  repeat' first
    | with_reducible exact .refl _ _
    | exact rfl
    | with_reducible apply State.Touches.after (State.adaptLane_touches _ _)
    | with_reducible apply State.Touches.after (State.checkerRun_touches _ _)
    | split

theorem readDbErr_touches (r : Req) (be : Nat) (s : State) : s.Touches (readDbErr r be s) [.out, .regs, .ctlLatches, .ctlBusErrHeld,
    .hqDbErrHeld, .hqPci0, .hqPci1] := by
  unfold readDbErr
  repeat' first
    | with_reducible exact .refl _ _
    | exact rfl
    | with_reducible apply State.Touches.after (withRead_touches _ _ _ _ _ _ _)
    | with_reducible apply State.setHq_touches
    | with_reducible apply State.Touches.ite

theorem readAt_touches (r : Req) (p : Nat) (o : Nat) (be : Nat) (s : State) : s.Touches (readAt r p o be s) [.out, .seed, .regs,
    .ctlLatches, .ctlBusErrHeld, .hqDbErrHeld, .hqPci0, .hqPci1, .portA, .portB, .dramcUeHeld] := by
  unfold readAt
  repeat' first
    | with_reducible exact .refl _ _
    | exact rfl
    | with_reducible apply State.Touches.after (withRead_touches _ _ _ _ _ _ _)
    | with_reducible apply State.Touches.after (readEvent_touches _ _ _ _)
    | with_reducible apply State.Touches.after (readBusErr_touches _ _ _)
    | with_reducible apply State.Touches.after (readUeAddr_touches _ _ _ _)
    | with_reducible apply State.Touches.after (State.beforeRead_touches _ _ _)
    | with_reducible apply State.Touches.after (readDbErr_touches _ _ _)
    | with_reducible apply State.Touches.ite
    | with_reducible apply State.Touches.set

theorem regGet_touches (r : Req) (off : Nat) (be : Nat) (s : State) : s.Touches (regGet r off be s) [.out, .seed, .regs, .ctlLatches,
    .ctlBusErrHeld, .hqDbErrHeld, .hqPci0, .hqPci1, .portA, .portB, .dramcUeHeld] := by
  unfold regGet
  repeat' first
    | with_reducible exact .refl _ _
    | exact rfl
    | with_reducible apply State.Touches.after (State.busError_touches _ _ _ _)
    | with_reducible apply State.Touches.after (State.pciRead_touches _ _ _)
    | with_reducible apply State.Touches.after (readAt_touches _ _ _ _ _)
    | split

theorem writePlain_touches (r : Req) (p : Nat) (o : Nat) (v : Word) (s : State) : s.Touches (writePlain r p o v s) [.out, .regs,
    .ctlLoHold, .ctlW1Done, .ctlLatches, .ctlBusErrHeld, .hqPci0, .hqPci1] := by
  unfold writePlain
  repeat' first
    | with_reducible exact .refl _ _
    | exact rfl
    | with_reducible apply State.Touches.after (State.reject_touches _ _)
    | with_reducible refine withWrite_touches _ _ _ _ _ _ (fun _ _ _ => ?_) ?_
    | with_reducible apply State.Touches.after (plainStore_touches _ _ _ _ _ _)
    | with_reducible apply State.Touches.ite

theorem writeCtrl_touches (r : Req) (p : Nat) (v : Word) (s : State) : s.Touches (writeCtrl r p v s) [.out, .seed, .regs, .ctlLoHold,
    .ctlW1Done, .ctlSnaps, .ctlLatches, .ctlBusErrHeld, .rsmBank0, .rsmBank1, .rsmRunning, .rsmHeld, .hqCmds, .hqGhosts, .hqErrors,
    .hqErrCount0, .hqErrCount1, .hqPci0, .hqPci1, .portA, .portB, .fstoreMem, .splitHolds, .drdecOutCount, .drdecLast, .drdecCur,
    .drdecRecords, .drdecReady, .hdec, .mediaDrives, .mediaVol, .aud, .collMasters, .collSel, .collDelays, .collSync, .collT3,
    .collAccepted, .collReceived, .collStepSum, .collStepNum, .collSmall, .collWithin, .condQueue, .condParked, .relayDescs, .pwrHeld,
    .pwrRising, .loupe, .mirror, .flows, .dram, .time] := by
  unfold writeCtrl
  repeat' first
    | with_reducible exact .refl _ _
    | exact rfl
    | with_reducible apply State.Touches.after (writeLinkCtrl_touches _ _ _ _)
    | with_reducible apply State.Touches.after (writeRstoreCtrl_touches _ _ _)
    | with_reducible apply State.Touches.after (writeMediaCtrl_touches _ _ _ _)
    | with_reducible apply State.Touches.after (writeRecorderCtrl_touches _ _ _)
    | with_reducible apply State.Touches.after (writeWindow_touches _ _ _ _)
    | with_reducible apply State.Touches.after (writeCondCtrl_touches _ _ _)
    | with_reducible apply State.Touches.after (writeAudCtrl_touches _ _ _ _)
    | with_reducible apply State.Touches.after (writeLoupeCtrl_touches _ _ _ _)
    | with_reducible apply State.Touches.after (writeMirrorCtrl_touches _ _ _)
    | with_reducible apply State.Touches.after (writeEthCtrl_touches _ _ _ _)
    | with_reducible apply State.Touches.after (writeCollCtrl_touches _ _ _)
    | with_reducible apply State.Touches.after (writeRelayCtrl_touches _ _ _)
    | with_reducible apply State.Touches.after (writePlain_touches _ _ _ _ _)
    | split

theorem State.settleWith_touches (s : State) (p : Nat) : s.Touches (State.settleWith s p) [.regs, .ctlLatches, .portA, .portB,
    .fstoreMem, .drdecOutCount, .drdecLast, .drdecCur, .drdecRecords, .drdecReady, .hdec, .aud, .condParked, .relayDescs, .pwrHeld,
    .pwrRising, .loupe, .mirror, .flows] := by
  unfold State.settleWith
  repeat' first
    | with_reducible exact .refl _ _
    | exact rfl
    | with_reducible apply State.Touches.after (State.settle_touches _ _)
    | with_reducible apply State.Touches.foldl
    | intro _

theorem afterWrite_touches (p : Nat) (o : Nat) (s0 : State) (s : State) : s.Touches (afterWrite p o s0 s) [.out, .regs, .ctlLatches,
    .portA, .portB, .fstoreMem, .splitHolds, .drdecOutCount, .drdecLast, .drdecCur, .drdecRecords, .drdecReady, .hdec, .aud, .condParked,
    .relayDescs, .pwrHeld, .pwrRising, .loupe, .mirror, .flows] := by
  unfold afterWrite
  repeat' first
    | with_reducible exact .refl _ _
    | exact rfl
    | with_reducible apply State.Touches.after (noteRise_touches _ _ _)
    | with_reducible apply State.Touches.after (noteRiseAll_touches _ _)
    | with_reducible apply State.Touches.after (driveLanes_touches _ _)
    | with_reducible apply State.Touches.after (noteFreed_touches _ _)
    | with_reducible apply State.Touches.after (State.flowDrop_touches _ _)
    | with_reducible apply State.Touches.after (State.settleWith_touches _ _)
    | with_reducible apply State.Touches.ite
    | with_reducible apply State.Touches.foldl
    | intro _

theorem State.commitNow_touches (s : State) (p : Nat) : s.Touches (State.commitNow s p) [.regs, .ctlSnaps, .ctlLatches] := by
  unfold State.commitNow
  repeat' first
    | with_reducible exact .refl _ _
    | exact rfl
    | with_reducible apply State.Touches.after (State.applyCommit_touches _ _)
    | with_reducible apply State.Touches.after (noteFreed_touches _ _)
    | with_reducible apply State.Touches.after (State.checkSlots_touches _ _)

/-- A snapshot holds shadow registers (R38). -/
theorem shadowOffs_range (b : Blk) : ∀ o ∈ shadowOffs b, 0x400 ≤ o ∧ o < 0x800 := by
  cases b <;> decide

theorem State.snapshot_range (s : State) (p : Nat) : ∀ x ∈ s.snapshot p, 0x400 ≤ x.1 ∧ x.1 < 0x800 := by
  unfold State.snapshot
  split
  · exact fun _ h => absurd h List.not_mem_nil
  · intro x hx
    obtain ⟨o, ho, rfl⟩ := List.mem_map.1 hx
    exact shadowOffs_range _ o ho

/-- A page's snapshot is taken in place of an older one. -/
theorem State.touches_takeSnap (s : State) (p : Nat) :
    s.Touches { s with ctl := { s.ctl with snaps := (p, s.snapshot p) :: s.ctl.snaps.filter (fun e => decide (e.1 ≠ p)) } } [.ctlSnaps]
        := by
  refine State.Touches.commits (.of_eq rfl rfl) fun hs => ⟨hs.1, fun e he => ?_⟩
  rcases List.mem_cons.1 he with rfl | h
  · exact s.snapshot_range p
  · exact hs.2 e (List.mem_filter.1 h).1

theorem State.commitTake_touches (s : State) (p src : Nat) : s.Touches (s.commitTake p src) [.regs, .ctlSnaps, .ctlLatches, .rsmBank0,
    .rsmBank1, .rsmRunning, .rsmHeld] := by
  have hset : s.Touches ((({ s with ctl := { s.ctl with
      snaps := (p, s.snapshot p) :: s.ctl.snaps.filter (fun e => decide (e.1 ≠ p)) } } : State)).setFld p Reg.COMMON_COMMIT_PENDING 1)
      [.regs, .ctlSnaps, .ctlLatches, .rsmBank0, .rsmBank1, .rsmRunning, .rsmHeld] := .step ((s.touches_takeSnap p).mono rfl)
          (State.setFld_touches ..) rfl
  unfold State.commitTake
  exact .ite (.step (.step hset (State.commitNow_touches ..) rfl) (State.autoSave_touches ..) rfl)
    (.ite (.step hset (State.commitNow_touches ..) rfl) hset)

theorem State.commitRefused_touches (s t : State) (p : Nat) (e : s.commitRefused p = some t) : s.Touches t [.regs, .ctlLatches] := by
  unfold State.commitRefused at e
  dsimp only at e
  repeat' split at e
  all_goals cases e
  all_goals repeat' first
    | with_reducible exact .refl _ _
    | exact rfl
    | with_reducible apply State.Touches.after (State.raise_touches _ _ _)
    | with_reducible apply State.Touches.after (State.reject_touches _ _)

theorem writeCommit_touches (r : Req) (p : Nat) (v : Word) (s : State) : s.Touches (writeCommit r p v s) [.out, .regs, .ctlW1Done,
    .ctlSnaps, .ctlLatches, .ctlBusErrHeld, .rsmBank0, .rsmBank1, .rsmRunning, .rsmHeld, .hqPci0, .hqPci1] := by
  unfold writeCommit
  refine withWrite_touches _ _ _ _ _ _ (fun t x y => ?_) rfl
  have h1 : ∀ c, t.Touches (t.setFld p Reg.COMMON_COMMIT_SOURCE c) [.out, .regs, .ctlW1Done, .ctlSnaps, .ctlLatches, .ctlBusErrHeld,
      .rsmBank0, .rsmBank1, .rsmRunning, .rsmHeld, .hqPci0, .hqPci1] := fun c => (State.setFld_touches ..).mono rfl
  have hg : ∀ (u : State) src, t.Touches u [.out, .regs, .ctlW1Done, .ctlSnaps, .ctlLatches, .ctlBusErrHeld, .rsmBank0, .rsmBank1,
      .rsmRunning, .rsmHeld, .hqPci0, .hqPci1] → t.Touches ((u.commitRefused p).getD (u.commitTake p src)) [.out, .regs, .ctlW1Done,
      .ctlSnaps, .ctlLatches, .ctlBusErrHeld, .rsmBank0, .rsmBank1, .rsmRunning, .rsmHeld, .hqPci0, .hqPci1] := by
    intro u src hu
    cases e : u.commitRefused p with
    | none => exact hu.step (State.commitTake_touches ..) rfl
    | some x => exact hu.step (State.commitRefused_touches _ _ _ e) rfl
  exact .ite ((State.reject_touches ..).mono rfl) (.ite (h1 _) (.ite (.step (h1 _) (State.raise_touches ..) rfl) (hg _ _ (h1 _))))

theorem writeBlk_touches (r : Req) (p : Nat) (o : Nat) (v : Word) (s : State) : s.Touches (writeBlk r p o v s) everything := by
  unfold writeBlk
  repeat' first
    | with_reducible exact .refl _ _
    | with_reducible exact everything_all
    | exact rfl
    | with_reducible apply State.Touches.after (writeVecRearm_touches _ _ _)
    | with_reducible apply State.Touches.after (writeAqCtrl_touches _ _ _)
    | with_reducible apply State.Touches.after (writeDoorbell_touches _ _ _)
    | with_reducible apply State.Touches.after (writeBcCtrl_touches _ _ _ _)
    | with_reducible apply State.Touches.after (writeLoadCtrl_touches _ _ _)
    | with_reducible apply State.Touches.after (writeSlotCfg_touches _ _ _ _)
    | with_reducible apply State.Touches.after (writeDrdecInProd_touches _ _ _)
    | with_reducible apply State.Touches.after (writeHdecInProd_touches _ _ _ _)
    | with_reducible apply State.Touches.after (writeWindow_touches _ _ _ _)
    | with_reducible apply State.Touches.after (writeSeq_touches _ _ _ _)
    | with_reducible apply State.Touches.after (writeSvnCtrl_touches _ _ _)
    | with_reducible apply State.Touches.after (writeSupplyReq_touches _ _ _)
    | with_reducible apply State.Touches.after (writeFlowCfg_touches _ _ _ _)
    | with_reducible apply State.Touches.after (writePtpCfg_touches _ _ _)
    | with_reducible apply State.Touches.after (writeFreq_touches _ _ _)
    | with_reducible apply State.Touches.after (writeTestCtrl_touches _ _ _ _)
    | with_reducible apply State.Touches.after (writeResetCtrl_touches _ _ _)
    | with_reducible apply State.Touches.after (writeChCtrl_touches _ _ _ _)
    | with_reducible apply State.Touches.after (writePlain_touches _ _ _ _ _)
    | split

theorem writeAt_touches (r : Req) (p : Nat) (o : Nat) (v : Word) (s : State) : s.Touches (writeAt r p o v s) everything := by
  unfold writeAt
  repeat' first
    | with_reducible exact .refl _ _
    | with_reducible exact everything_all
    | exact rfl
    | with_reducible apply State.Touches.after (writeGlobalCommit_touches _ _ _)
    | with_reducible apply State.Touches.after (writeEventTest_touches _ _ _ _)
    | with_reducible apply State.Touches.after (writePwrReq_touches _ _ _ _)
    | with_reducible apply State.Touches.after (writeCtrl_touches _ _ _ _)
    | with_reducible apply State.Touches.after (afterWrite_touches _ _ _ _)
    | with_reducible apply State.Touches.after (writePlain_touches _ _ _ _ _)
    | with_reducible apply State.Touches.after (writeCommit_touches _ _ _ _)
    | with_reducible apply State.Touches.after (writeBlk_touches _ _ _ _ _)
    | with_reducible apply State.Touches.ite

theorem regSet_touches (r : Req) (off : Nat) (be : Nat) (v : Word) (s : State) : s.Touches (regSet r off be v s) everything := by
  unfold regSet
  repeat' first
    | with_reducible exact .refl _ _
    | with_reducible exact everything_all
    | exact rfl
    | with_reducible apply State.Touches.after (State.busError_touches _ _ _ _)
    | with_reducible apply State.Touches.after (State.pciWrite_touches _ _ _ _ _)
    | with_reducible apply State.Touches.after (writeAt_touches _ _ _ _ _)
    | split

theorem State.markBeat_touches (s : State) (b : Bool) : s.Touches (State.markBeat s b) [.ctlRelayBeat] := by
  unfold State.markBeat
  repeat' first
    | with_reducible exact .refl _ _
    | exact rfl
    | with_reducible apply State.Touches.set

theorem State.beatWrite_touches (s : State) (c off be : Nat) (v : Word) : s.Touches (s.beatWrite c off be v).1 everything := by
  unfold State.beatWrite
  split
  · exact .step (.step ((State.markBeat_touches ..).mono rfl) (State.busError_touches ..) rfl) (State.markBeat_touches ..) rfl
  · exact .step (.step ((State.markBeat_touches ..).mono rfl) (writeAt_touches ..) everything_all) (State.markBeat_touches ..) rfl

theorem State.dstBeat_touches (s : State) (c a : Nat) (l : List Byte) : s.Touches (s.dstBeat c a l).1 everything := by
  unfold State.dstBeat
  split
  · refine .foldl_fst (acc := (s, none, l)) (.refl _ _) (fun acc q => ?_) _
    split
    · exact .refl _ _
    · rename_i s0 l0
      have h1 := State.beatWrite_touches s0 c q.1 q.2.1 (BitVec.ofNat 32 (leNat (l0.take q.2.2.2) * 256 ^ q.2.2.1))
      split <;> rename_i heq <;> rw [heq] at h1 <;> exact h1
  · exact (State.fabWrite_touches ..).mono rfl

theorem State.beatRead_touches (s : State) (c off be : Nat) : s.Touches (s.beatRead c off be).1 [.out, .seed, .regs, .ctlLatches,
    .ctlBusErrHeld, .ctlRelayBeat, .hqDbErrHeld, .hqPci0, .hqPci1, .portA, .portB, .dramcUeHeld] := by
  have h1 : ∀ r, s.Touches ((readAt r (off / 0x1000) (off % 0x1000) be (s.markBeat true)).markBeat false) [.out, .seed, .regs,
      .ctlLatches, .ctlBusErrHeld, .ctlRelayBeat, .hqDbErrHeld, .hqPci0, .hqPci1, .portA, .portB, .dramcUeHeld] := fun r =>
    .step (.step ((State.markBeat_touches ..).mono rfl) (readAt_touches ..) rfl) (State.markBeat_touches ..) rfl
  unfold State.beatRead
  dsimp only
  split
  · exact .set (h1 _) rfl rfl
  · exact .set (h1 _) rfl rfl
  · exact h1 _

theorem State.srcBeat_touches (s : State) (c a w : Nat) : s.Touches (s.srcBeat c a w).1 [.out, .seed, .regs, .ctlLatches, .ctlBusErrHeld,
    .ctlRelayBeat, .hqDbErrHeld, .hqPci0, .hqPci1, .portA, .portB, .dramcUeHeld] := by
  unfold State.srcBeat
  split
  · refine .foldl_fst (acc := (s, Except.ok [])) (.refl _ _) (fun acc q => ?_) _
    split
    · exact .refl _ _
    · rename_i s0 l
      have h1 := State.beatRead_touches s0 c q.1 q.2.1
      split <;> rename_i heq <;> rw [heq] at h1 <;> exact h1
  · exact .refl _ _

theorem State.movePiece_touches (s : State) (c : Nat) (d : RelayDesc) (i : Nat) : s.Touches (s.movePiece c d i).1 everything := by
  have hget : ∀ xs : List Nat, s.Touches (xs.foldl
      (fun (acc : State × Except Nat (List Byte)) j =>
        match acc with
        | (s, .error e) => (s, .error e)
        | (s, .ok l) =>
          match s.srcBeat c (d.srcAt (i * max d.srcW d.dstW + j * d.srcW)) d.srcW with
          | (t, .error e) => (t, .error e)
          | (t, .ok b) => (t, .ok (l ++ b))) (s, .ok [])).1 everything := by
    refine fun xs => .foldl_fst (acc := (s, Except.ok [])) (.refl _ _) (fun acc j => ?_) xs
    split
    · exact .refl _ _
    · rename_i s0 l0
      have h1 := State.srcBeat_touches s0 c (d.srcAt (i * max d.srcW d.dstW + j * d.srcW)) d.srcW
      split <;> rename_i heq <;> rw [heq] at h1 <;> exact h1.mono rfl
  unfold State.movePiece
  dsimp only
  split <;> rename_i heq
  · rw [← congrArg Prod.fst heq]
    exact hget _
  · refine .foldl_fst ?_ (fun acc j => ?_) _
    · rw [← congrArg Prod.fst heq]
      exact hget _
    · split
      · exact .refl _ _
      · exact State.dstBeat_touches ..

theorem State.movePieces_touches (s : State) (c : Nat) (d : RelayDesc) (n i : Nat) : s.Touches (s.movePieces c d n i).1 everything := by
  induction n generalizing s i with
  | zero => exact .refl _ _
  | succ n ih =>
    unfold State.movePieces
    have h1 := State.movePiece_touches s c d i
    split
    · split <;> rename_i heq <;> rw [heq] at h1
      · exact h1.trans (ih _ _)
      · exact .ite h1 (.step h1 (State.countBy_touches ..) rfl)
    · exact .refl _ _

theorem State.descDone_touches (s : State) (c : Nat) : s.Touches (s.descDone c) everything := by
  unfold State.descDone
  split
  · exact .refl _ _
  · rename_i d heq0
    have h1 := State.movePieces_touches s c d (d.len / max d.srcW d.dstW) 0
    refine .ite (.refl _ _) (.ite ?_ (.step ((State.copyBytes_touches ..).mono rfl) (State.descEnd_touches ..) rfl))
    split <;> rename_i heq <;> rw [heq] at h1
    · exact .ite (.step h1 (State.relayError_touches ..) rfl) (.step h1 (State.descError_touches ..) rfl)
    · exact .ite (.step h1 (State.descEnd_touches ..) rfl) h1

end Sys2Proof.Machine
end

section
/-! PROOFS. What every command touches, and what it can then not touch: the queue, the numbers of commands, the kind of commits. -/

set_option Elab.async false

namespace Sys2Proof.Machine

/-- Every command goes on, and its effect is within `everything`: the queue stays, and the two properties that answer for the command
table and
for commits are kept. -/
theorem exec_touches (c : Instr) (s : State) : ∃ t, exec c s = .next t ∧ s.Touches t everything := by
  cases c with
  | registerWrite => exact ⟨_, rfl, regSet_touches ..⟩
  | eventRead => exact ⟨_, rfl, (readEvent_touches ..).mono rfl⟩
  | buserrInfoRead => exact ⟨_, rfl, (readBusErr_touches ..).mono rfl⟩
  | eventTest => exact ⟨_, rfl, (writeEventTest_touches ..).mono rfl⟩
  | commitReq => exact ⟨_, rfl, .ite ((writeGlobalCommit_touches ..).mono rfl) ((writeCommit_touches ..).mono rfl)⟩
  | vecRearm => exact ⟨_, rfl, (writeVecRearm_touches ..).mono rfl⟩
  | msixSend => exact ⟨_, rfl, (State.sendMsix_touches ..).mono rfl⟩
  | msixCreditRefill => exact ⟨_, rfl, (State.refill_touches ..).mono rfl⟩
  | deviceReset => exact ⟨_, rfl, writeResetCtrl_touches ..⟩
  | globalCommit => exact ⟨_, rfl, (writeGlobalCommit_touches ..).mono rfl⟩
  | setMode => exact ⟨_, rfl, withCmd_touches _ _ _ _ _ _ (fun _ _ hc => (runSetMode_touches _ _ _ _ hc).mono rfl) rfl⟩
  | budgetCheckDone => exact ⟨_, rfl, (State.budgetDone_touches ..).mono rfl⟩
  | takeStopCaptureDone => exact ⟨_, rfl, (State.captureDone_touches ..).mono rfl⟩
  | reelClose => exact ⟨_, rfl, (State.reelClose_touches ..).mono rfl⟩
  | saveSettings => exact ⟨_, rfl, withCmd_touches _ _ _ _ _ _ (fun _ _ _ => (State.requestSave_touches ..).mono rfl) rfl⟩
  | rstoreSave => exact ⟨_, rfl, (writeRstoreCtrl_touches ..).mono rfl⟩
  | rstoreErase => exact ⟨_, rfl, (writeRstoreCtrl_touches ..).mono rfl⟩
  | saveDone => exact ⟨_, rfl, (State.endSave_touches ..).mono rfl⟩
  | porRelease => exact ⟨_, rfl, (State.porRelease_touches ..).mono rfl⟩
  | restoreDone => exact ⟨_, rfl, (State.restoreDone_touches ..).mono rfl⟩
  | powerOnReset => exact ⟨_, rfl, State.toReset_touches ..⟩
  | supplyMonitorReset => exact ⟨_, rfl, State.toReset_touches ..⟩
  | pwrgoodFall => exact ⟨_, rfl, (State.flushNow_touches ..).mono rfl⟩
  | vrAlert => exact ⟨_, rfl, .ite (.refl _ _) ((State.raise_touches ..).mono rfl)⟩
  | wakeNFall => exact ⟨_, rfl, (State.wake_touches ..).mono rfl⟩
  | linkTrain => exact ⟨_, rfl, .ite (.refl _ _) (writeAt_touches ..)⟩
  | rxTrain => exact ⟨_, rfl, (State.rxTrain_touches ..).mono rfl⟩
  | eqAdaptDone => exact ⟨_, rfl, (State.eqAdapted_touches ..).mono rfl⟩
  | trainTimeout => exact ⟨_, rfl, (State.trainTimeout_touches ..).mono rfl⟩
  | laneLos => exact ⟨_, rfl, (State.losSet_touches ..).mono rfl⟩
  | laneLosClear => exact ⟨_, rfl, (State.losCleared_touches ..).mono rfl⟩
  | cdrLoss => exact ⟨_, rfl, (State.cdrLost_touches ..).mono rfl⟩
  | cdrLock => exact ⟨_, rfl, (State.cdrLocked_touches ..).mono rfl⟩
  | blockLockGained => exact ⟨_, rfl, (State.blockLocked_touches ..).mono rfl⟩
  | blockLockLost => exact ⟨_, rfl, (State.blockLost_touches ..).mono rfl⟩
  | alignNeeded => exact ⟨_, rfl, (State.alignNeeded_touches ..).mono rfl⟩
  | rxAlign => exact ⟨_, rfl, (State.rxAlign_touches ..).mono rfl⟩
  | rxSof => exact ⟨_, rfl, (State.rxSof_touches ..).mono rfl⟩
  | rxMeta => exact ⟨_, rfl, (State.rxMeta_touches ..).mono rfl⟩
  | rxSol => exact ⟨_, rfl, (State.rxSol_touches ..).mono rfl⟩
  | rxPacket => exact ⟨_, rfl, (State.rxPacket_touches ..).mono rfl⟩
  | rxEol => exact ⟨_, rfl, (State.rxEol_touches ..).mono rfl⟩
  | rxEof => exact ⟨_, rfl, (State.rxEof_touches ..).mono rfl⟩
  | rxSmsg => exact ⟨_, rfl, (State.rxSmsg_touches ..).mono rfl⟩
  | fallbackAckTimeout => exact ⟨_, rfl, (State.fallbackTimeout_touches ..).mono rfl⟩
  | bcAckTimeout => exact ⟨_, rfl, (State.bcTimeout_touches ..).mono rfl⟩
  | bcMailboxGo => exact ⟨_, rfl, (writeBcCtrl_touches ..).mono rfl⟩
  | heartbeat => exact ⟨_, rfl, (State.heartbeat_touches ..).mono rfl⟩
  | testCtrlWrite => exact ⟨_, rfl, (writeTestCtrl_touches ..).mono rfl⟩
  | injectOne => exact ⟨_, rfl, (writeTestCtrl_touches ..).mono rfl⟩
  | checkerSyncGained => exact ⟨_, rfl, (State.checkerSync_touches ..).mono rfl⟩
  | checkerSyncLost => exact ⟨_, rfl, (State.checkerLost_touches ..).mono rfl⟩
  | frameStart => exact ⟨_, rfl, (State.frameStart_touches ..).mono rfl⟩
  | lineTimeout => exact ⟨_, rfl, (State.lineTimeout_touches ..).mono rfl⟩
  | pairWindowExpiry => exact ⟨_, rfl, (State.pairExpired_touches ..).mono rfl⟩
  | sharedReadStart => exact ⟨_, rfl, (State.sharedStart_touches ..).mono rfl⟩
  | sharedReadLine => exact ⟨_, rfl, .step ((State.sharedLine_touches ..).mono rfl) (State.drdecBegin_touches ..) rfl⟩
  | catchupFrameDone => exact ⟨_, rfl, (State.catchupDone_touches ..).mono rfl⟩
  | splitFrameStart => exact ⟨_, rfl, (State.splitBegin_touches ..).mono rfl⟩
  | splitGroupPublish => exact ⟨_, rfl, (State.publish_touches ..).mono rfl⟩
  | rendFrameDone => exact ⟨_, rfl, (State.rendDone_touches ..).mono rfl⟩
  | slotCfgWrite => exact ⟨_, rfl, (writeSlotCfg_touches ..).mono rfl⟩
  | fstoreLoad => exact ⟨_, rfl, (writeLoadCtrl_touches ..).mono rfl⟩
  | fstoreLoadDone => exact ⟨_, rfl, (State.loadDone_touches ..).mono rfl⟩
  | drawFrameBegin => exact ⟨_, rfl, (State.drawFrameBegin_touches ..).mono rfl⟩
  | drawFrameDone => exact ⟨_, rfl, (State.drawDone_touches ..).mono rfl⟩
  | drawCoreFault => exact ⟨_, rfl, (State.coreFault_touches ..).mono rfl⟩
  | drdecInProd => exact ⟨_, rfl, (writeDrdecInProd_touches ..).mono rfl⟩
  | drdecFrameDone => exact ⟨_, rfl, (State.drdecDone_touches ..).mono rfl⟩
  | hencPictureBegin => exact ⟨_, rfl, (State.hencBegin_touches ..).mono rfl⟩
  | hencPictureDone => exact ⟨_, rfl, (State.picDone_touches ..).mono rfl⟩
  | hencCoreFault => exact ⟨_, rfl, (State.hencFault_touches ..).mono rfl⟩
  | hdecInProd => exact ⟨_, rfl, (writeHdecInProd_touches ..).mono rfl⟩
  | hdecRecordDone => exact ⟨_, rfl, (State.hdecDone_touches ..).mono rfl⟩
  | aqEnable => exact ⟨_, rfl, (writeAqCtrl_touches ..).mono rfl⟩
  | queueTeardown => exact ⟨_, rfl, (writeAqCtrl_touches ..).mono rfl⟩
  | functionLevelReset => exact ⟨_, rfl, .step ((State.teardown_touches ..).mono rfl) (State.resetPci_touches ..) rfl⟩
  | busMasterDisable => exact ⟨_, rfl, (State.masterOff_touches ..).mono rfl⟩
  | hostLinkDown => exact ⟨_, rfl, (State.linkDown_touches ..).mono rfl⟩
  | doorbell => exact ⟨_, rfl, (writeDoorbell_touches ..).mono rfl⟩
  | commandFetch => exact ⟨_, rfl, (State.fetch_touches ..).mono rfl⟩
  | completionPost => exact ⟨_, rfl, (State.post_touches ..).mono rfl⟩
  | cqCoalesceTimeout => exact ⟨_, rfl, (State.coalesce_touches ..).mono rfl⟩
  | createSq => exact ⟨_, rfl, withCmd_touches _ _ _ _ _ _ (fun _ _ _ => (runCreateSq_touches ..).mono rfl) rfl⟩
  | deleteSq => exact ⟨_, rfl, withCmd_touches _ _ _ _ _ _ (fun _ _ _ => (runDeleteSq_touches ..).mono rfl) rfl⟩
  | createCq => exact ⟨_, rfl, withCmd_touches _ _ _ _ _ _ (fun _ _ _ => (runCreateCq_touches ..).mono rfl) rfl⟩
  | deleteCq => exact ⟨_, rfl, withCmd_touches _ _ _ _ _ _ (fun _ _ _ => (runDeleteCq_touches ..).mono rfl) rfl⟩
  | identify => exact ⟨_, rfl, withCmd_touches _ _ _ _ _ _ (fun _ _ _ => (runIdentify_touches ..).mono rfl) rfl⟩
  | getLogPage => exact ⟨_, rfl, withCmd_touches _ _ _ _ _ _ (fun _ _ _ => (runGetLog_touches ..).mono rfl) rfl⟩
  | abort => exact ⟨_, rfl, withCmd_touches _ _ _ _ _ _ (fun _ _ _ => (runAbort_touches ..).mono rfl) rfl⟩
  | setCoalescing => exact ⟨_, rfl, withCmd_touches _ _ _ _ _ _ (fun _ _ _ => (runSetCoalescing_touches ..).mono rfl) rfl⟩
  | checkConfig => exact ⟨_, rfl, withCmd_touches _ _ _ _ _ _ (fun _ _ _ => (runCheckConfig_touches ..).mono rfl) rfl⟩
  | createNamespace => exact ⟨_, rfl, withCmd_touches _ _ _ _ _ _ (fun _ _ _ => (runCreateNs_touches ..).mono rfl) rfl⟩
  | deleteNamespace => exact ⟨_, rfl, withCmd_touches _ _ _ _ _ _ (fun _ _ _ => (runDeleteNs_touches ..).mono rfl) rfl⟩
  | firmwareLoad => exact ⟨_, rfl, withCmd_touches _ _ _ _ _ _ (fun _ _ _ => (runFwLoad_touches ..).mono rfl) rfl⟩
  | firmwareHandover => exact ⟨_, rfl, withCmd_touches _ _ _ _ _ _ (fun _ _ _ => (runFwHandover_touches ..).mono rfl) rfl⟩
  | attest => exact ⟨_, rfl, withCmd_touches _ _ _ _ _ _ (fun _ _ _ => (runAttest_touches ..).mono rfl) rfl⟩
  | arrayLease => exact ⟨_, rfl, withCmd_touches _ _ _ _ _ _ (fun _ _ _ => (runArrayLease_touches ..).mono rfl) rfl⟩
  | read => exact ⟨_, rfl, withCmd_touches _ _ _ _ _ _ (fun _ _ _ => (runRead_touches ..).mono rfl) rfl⟩
  | write => exact ⟨_, rfl, withCmd_touches _ _ _ _ _ _ (fun _ _ _ => (runWrite_touches ..).mono rfl) rfl⟩
  | appendMetadata => exact ⟨_, rfl, withCmd_touches _ _ _ _ _ _ (fun _ _ _ => (runAppend_touches ..).mono rfl) rfl⟩
  | loadSlot => exact ⟨_, rfl, .ite (.refl _ _) (withCmd_touches _ _ _ _ _ _ (fun _ _ _ => (runLoadSlot_touches ..).mono rfl) rfl)⟩
  | compress => exact ⟨_, rfl, withCmd_touches _ _ _ _ _ _ (fun _ _ _ => (runCond_touches ..).mono rfl) rfl⟩
  | decompress => exact ⟨_, rfl, withCmd_touches _ _ _ _ _ _ (fun _ _ _ => (runCond_touches ..).mono rfl) rfl⟩
  | mediaEnable => exact ⟨_, rfl, (writeMediaCtrl_touches ..).mono rfl⟩
  | mediaReset => exact ⟨_, rfl, (writeMediaCtrl_touches ..).mono rfl⟩
  | mediaPortReady => exact ⟨_, rfl, (State.portReady_touches ..).mono rfl⟩
  | mediaLinkDown => exact ⟨_, rfl, .ite (.refl _ _) ((State.mediaLinkDown_touches ..).mono rfl)⟩
  | nvmeCompletion => exact ⟨_, rfl, .ite (.refl _ _) ((State.nvmeDone_touches ..).mono rfl)⟩
  | nvmeTimeout => exact ⟨_, rfl, .ite (.refl _ _) ((State.nvmeTimeout_touches ..).mono rfl)⟩
  | healthPoll =>
    exact ⟨_, rfl, .ite (.refl _ _) (.step (.step (.step ((State.setFld_touches ..).mono rfl) (State.setFld_touches ..) rfl)
      (State.setFld_touches ..) rfl) (State.raiseIf_touches ..) rfl)⟩
  | format => exact ⟨_, rfl, (writeRecorderCtrl_touches ..).mono rfl⟩
  | frameGroupComplete => exact ⟨_, rfl, (State.groupComplete_touches ..).mono rfl⟩
  | flushTimer => exact ⟨_, rfl, (State.flushTimer_touches ..).mono rfl⟩
  | flushWritesDone => exact ⟨_, rfl, (State.flushDrives_touches ..).mono rfl⟩
  | flushDone => exact ⟨_, rfl, (State.writeIndexBank_touches ..).mono rfl⟩
  | indexBankDone => exact ⟨_, rfl, (State.bankDone_touches ..).mono rfl⟩
  | reelRecovery => exact ⟨_, rfl, (State.reelRecovery_touches ..).mono rfl⟩
  | reviewFeed => exact ⟨_, rfl, (State.reviewFeed_touches ..).mono rfl⟩
  | loupeEnable => exact ⟨_, rfl, .ite (.refl _ _) ((writeLoupeCtrl_touches ..).mono rfl)⟩
  | loupeSamplePoint => exact ⟨_, rfl, (State.samplePoint_touches ..).mono rfl⟩
  | loupeLine => exact ⟨_, rfl, (State.loupeLine_touches ..).mono rfl⟩
  | lockLost => exact ⟨_, rfl, .ite (.refl _ _) (.step ((State.setFld_touches ..).mono rfl) (State.raise_touches ..) rfl)⟩
  | mirrorLineCheck => exact ⟨_, rfl, (State.mirrorCheck_touches ..).mono rfl⟩
  | flowEnable => exact ⟨_, rfl, .ite (.refl _ _) ((writeFlowCfg_touches ..).mono rfl)⟩
  | st2110PacketSend => exact ⟨_, rfl, (State.flowSend_touches ..).mono rfl⟩
  | ethRxFrame => exact ⟨_, rfl, .ite (.refl _ _) ((State.count_touches ..).mono rfl)⟩
  | ethLinkChange => exact ⟨_, rfl, .ite (.refl _ _) ((State.setEthLink_touches ..).mono rfl)⟩
  | collSnap => exact ⟨_, rfl, (writeCollCtrl_touches ..).mono rfl⟩
  | collSet => exact ⟨_, rfl, (writeCollCtrl_touches ..).mono rfl⟩
  | ptpSync => exact ⟨_, rfl, (State.rxSync_touches ..).mono rfl⟩
  | ptpAnnounce => exact ⟨_, rfl, (State.rxAnnounce_touches ..).mono rfl⟩
  | ptpDelayReqSend => exact ⟨_, rfl, (State.sendDelayReq_touches ..).mono rfl⟩
  | ptpDelayResp => exact ⟨_, rfl, (State.rxDelayResp_touches ..).mono rfl⟩
  | syncTimeout => exact ⟨_, rfl, (State.syncLost_touches ..).mono rfl⟩
  | stepWindowExpiry => exact ⟨_, rfl, (State.windowEnd_touches ..).mono rfl⟩
  | triggerEdge => exact ⟨_, rfl, (State.triggerEdge_touches ..).mono rfl⟩
  | triggerPulseEnd => exact ⟨_, rfl, (State.pulseEnd_touches ..).mono rfl⟩
  | alarm => exact ⟨_, rfl, (State.alarm_touches ..).mono rfl⟩
  | syncIn => exact ⟨_, rfl, (State.syncIn_touches ..).mono rfl⟩
  | syncOutPulse => exact ⟨_, rfl, (State.syncOut_touches ..).mono rfl⟩
  | audEnable => exact ⟨_, rfl, .ite (.refl _ _) (writeAt_touches ..)⟩
  | tdmFrameBoundary => exact ⟨_, rfl, .ite (.refl _ _) ((State.boundary_touches ..).mono rfl)⟩
  | audSyncEdge => exact ⟨_, rfl, (State.syncEdge_touches ..).mono rfl⟩
  | audClockLost => exact ⟨_, rfl, .ite (.refl _ _) (.step ((State.setFld_touches ..).mono rfl) (State.raise_touches ..) rfl)⟩
  | audSlot => exact ⟨_, rfl, (State.audSlot_touches ..).mono rfl⟩
  | condGo => exact ⟨_, rfl, (writeCondCtrl_touches ..).mono rfl⟩
  | condResume => exact ⟨_, rfl, (writeCondCtrl_touches ..).mono rfl⟩
  | condAbort => exact ⟨_, rfl, (writeCondCtrl_touches ..).mono rfl⟩
  | condOutputFull => exact ⟨_, rfl, (State.condFull_touches ..).mono rfl⟩
  | condNeedInput => exact ⟨_, rfl, (State.condNeed_touches ..).mono rfl⟩
  | condJobEnd => exact ⟨_, rfl, (State.condEnd_touches ..).mono rfl⟩
  | relayChStart => exact ⟨_, rfl, .ite (.refl _ _) ((writeChCtrl_touches ..).mono rfl)⟩
  | relayChAbort => exact ⟨_, rfl, .ite (.refl _ _) ((writeChCtrl_touches ..).mono rfl)⟩
  | relayDescFetch => exact ⟨_, rfl, .ite (.refl _ _) ((State.descFetch_touches ..).mono rfl)⟩
  | relayDescDone => exact ⟨_, rfl, .ite (.refl _ _) (State.descDone_touches ..)⟩
  | relayBusError => exact ⟨_, rfl, (State.relayError_touches ..).mono rfl⟩
  | relayClear => exact ⟨_, rfl, (writeRelayCtrl_touches ..).mono rfl⟩
  | dramTrainingDone => exact ⟨_, rfl, .ite ((State.trained_touches ..).mono rfl) (.refl _ _)⟩
  | retrainStep => exact ⟨_, rfl, (State.retrain_touches ..).mono rfl⟩
  | retrainGatherDone => exact ⟨_, rfl, (State.gathered_touches ..).mono rfl⟩
  | freqTargetWrite => exact ⟨_, rfl, (writeFreq_touches ..).mono rfl⟩
  | freqChangeDone => exact ⟨_, rfl, (State.freqDone_touches ..).mono rfl⟩
  | dramTempPoll => exact ⟨_, rfl, .ite (.refl _ _) (.step ((State.pollAll_touches ..).mono rfl) (State.setLevel_touches ..) rfl)⟩
  | dramEccError => exact ⟨_, rfl, .ite (.refl _ _) ((State.eccError_touches ..).mono rfl)⟩
  | ueAddrRead => exact ⟨_, rfl, .ite ((readUeAddr_touches ..).mono rfl) (.refl _ _)⟩
  | handoverAlive => exact ⟨_, rfl, .ite (.step ((State.count_touches ..).mono rfl) (State.endHandover_touches ..) rfl) (.refl _ _)⟩
  | handoverFail =>
    exact ⟨_, rfl, .ite (.step (.step ((State.setFld_touches ..).mono rfl) (State.activate_touches ..) rfl)
      (State.endHandover_touches ..) rfl) (.refl _ _)⟩
  | watchdogExpiry => exact ⟨_, rfl, State.watchdog_touches ..⟩
  | svnCommit => exact ⟨_, rfl, (writeSvnCtrl_touches ..).mono rfl⟩
  | supplyReqWrite => exact ⟨_, rfl, (writeSupplyReq_touches ..).mono rfl⟩
  | supplySeqStep => exact ⟨_, rfl, .ite (.step ((State.setSeq_touches ..).mono rfl) (State.supplyStep_touches ..) rfl) (.refl _ _)⟩
  | guardWindowWrite => exact ⟨_, rfl, .ite ((writeWindow_touches ..).mono rfl) (.refl _ _)⟩
  | pwrReqWrite => exact ⟨_, rfl, (writePwrReq_touches ..).mono rfl⟩
  | powerDrainDone => exact ⟨_, rfl, .step ((State.drained?_touches ..).mono rfl) (State.condStart_touches ..) rfl⟩
  | drainTimeout => exact ⟨_, rfl, .step ((State.drainTimeout_touches ..).mono rfl) (State.condStart_touches ..) rfl⟩
  | domainOn => exact ⟨_, rfl, .step ((State.domainUp_touches ..).mono rfl) (State.condStart_touches ..) rfl⟩
  | powerMeasure => exact ⟨_, rfl, .ite (.refl _ _) (.step ((State.measure_touches ..).mono rfl) (State.condStart_touches ..) rfl)⟩
  | thermSample => exact ⟨_, rfl, .ite (.refl _ _) (State.thermSample_touches ..)⟩
  | tripRelease => exact ⟨_, rfl, .ite (.of_mix rfl rfl) (.refl _ _)⟩
  | leaseLow => exact ⟨_, rfl, .ite (.refl _ _) (.after (State.raise_touches ..) (.of_mix rfl rfl) rfl)⟩
  | leaseExpiry => exact ⟨_, rfl, .ite (.refl _ _) ((State.fence_touches ..).mono rfl)⟩
  | registerRead => exact ⟨_, rfl, (regGet_touches ..).mono rfl⟩
  | hostLinkUp => exact ⟨_, rfl, .ite (.refl _ _) (.of_mix rfl rfl)⟩
  | fecCodeword =>
    exact ⟨_, rfl, .ite (.refl _ _) (.ite ((State.count_touches ..).mono rfl) (.step ((State.count_touches ..).mono rfl)
      (State.raise_touches ..) rfl))⟩
  | checkpoint => exact ⟨_, rfl, .ite ((State.checkpoint_touches ..).mono rfl) (.refl _ _)⟩

/-- Settles O2: the queue is no part of what a command touches. -/
theorem commandsGoOn : Obligations.CommandsGoOn := by
  unfold Obligations.CommandsGoOn
  intro c s
  obtain ⟨t, ht, h⟩ := exec_touches c s
  exact ⟨t, ht, h.same .pending (by decide)⟩

/-- A step touches the queue, and what a command touches. -/
theorem step_touches {s t : State} (h : step s = .next t) : s.Touches t (.pending :: everything) := by
  unfold step at h
  split at h
  case h_1 =>
    obtain rfl := Host.Outcome.next.inj h
    exact (State.tick_touches s).mono rfl
  case h_2 c rest _ =>
    have hrest : s.Touches { s with pending := rest } (.pending :: everything) := .of_mix rfl rfl
    obtain ⟨u, hu, hto⟩ := exec_touches c { s with pending := rest }
    obtain rfl := Host.Outcome.next.inj (hu.symm.trans h)
    exact hrest.trans ⟨fun p hp => hto.same p fun hm => hp (List.mem_cons_of_mem _ hm)⟩

/-- Settles O5: no step touches the property; reset has no command. -/
theorem numbersStayUnique : Obligations.NumbersStayUnique := by
  unfold Obligations.NumbersStayUnique
  exact ⟨⟨fun _ h => absurd h List.not_mem_nil, fun _ h => absurd h List.not_mem_nil⟩,
    fun s t hs h => (step_touches h).same .numbers (by decide) hs⟩

/-- Settles O6: no step touches the property; reset has no group and no snapshot. -/
theorem commitsStayShadows : Obligations.CommitsStayShadows := by
  unfold Obligations.CommitsStayShadows
  exact ⟨⟨fun _ h => absurd h List.not_mem_nil, fun _ h => absurd h List.not_mem_nil⟩,
    fun s t hs h => (step_touches h).same .commits (by decide) hs⟩

end Sys2Proof.Machine
end

section
/-! SUPPORT. Which registers an operation writes, followed through the register operations one by one; and reads of the fields it sets. -/

set_option Elab.async false

namespace Sys2Proof.Machine

/-! ### Registers outside a set of keys -/

/-- Every register whose key is outside `P` reads as before. `State.KeepsRegs` and `State.KeepsPages` are this for a list of keys and for the
keys of a list of pages. -/
def State.WritesIn (s t : State) (P : Nat → Prop) : Prop := ∀ a, ¬ P a → t.rd a = s.rd a

/-- The keys of a list of pages, with the copies that a page has for further requesters. -/
def onPages (ps : List Nat) (a : Nat) : Prop := a / 0x1000 % 1024 ∈ ps

theorem State.WritesIn.keepsRegs {s t : State} {l : List Nat} (h : s.WritesIn t (· ∈ l)) : s.KeepsRegs t l := h

theorem State.WritesIn.keepsReg {s t : State} {k : Nat} (h : s.WritesIn t (· = k)) : s.KeepsRegs t [k] :=
  fun a ha => h a fun e => ha (List.mem_singleton.2 e)

theorem State.WritesIn.keepsPages {s t : State} {ps : List Nat} (h : s.WritesIn t (onPages ps)) : s.KeepsPages t ps := h

variable {s t u : State} {P Q : Nat → Prop}

theorem State.WritesIn.refl (s : State) (P : Nat → Prop) : s.WritesIn s P := fun _ _ => rfl

theorem State.WritesIn.trans (h : s.WritesIn t P) (h' : t.WritesIn u P) : s.WritesIn u P := fun a ha => (h' a ha).trans (h a ha)

theorem State.WritesIn.mono (h : s.WritesIn t P) (hPQ : ∀ a, P a → Q a) : s.WritesIn t Q := fun a ha => h a fun hp => ha (hPQ a hp)

/-- An operation that leaves the register file follows. -/
theorem State.WritesIn.of_regs (h : s.WritesIn t P) (hr : u.regs = t.regs) : s.WritesIn u P := fun a ha => (State.rd_congr hr a).trans (h a ha)

theorem State.WritesIn.wr (h : s.WritesIn t P) {a : Nat} (w : Word) (ha : P a) : s.WritesIn (t.wr a w) P :=
  fun b hb => (State.rd_wr_ne t a w b fun e => hb (e ▸ ha)).trans (h b hb)

theorem State.WritesIn.setFld (h : s.WritesIn t P) {p : Nat} {f : Fld} (v : Nat) (ha : P (keyOf f p)) : s.WritesIn (t.setFld p f v) P := h.wr _ ha

theorem State.WritesIn.setOn (h : s.WritesIn t P) {p : Nat} {f : Fld} (v : Bool) (ha : P (keyOf f p)) : s.WritesIn (t.setOn p f v) P := h.wr _ ha

theorem State.WritesIn.setSfld (h : s.WritesIn t P) {p : Nat} {f : Fld} (v : Int) (ha : P (keyOf f p)) : s.WritesIn (t.setSfld p f v) P :=
  h.wr _ ha

theorem State.WritesIn.setFld64 (h : s.WritesIn t P) {p : Nat} {lo hi : Fld} (v : Nat) (ha : P (keyOf lo p)) (hb : P (keyOf hi p)) :
    s.WritesIn (t.setFld64 p lo hi v) P := (h.setFld _ ha).setFld _ hb

theorem State.WritesIn.countBy (h : s.WritesIn t P) {p : Nat} {f : Fld} (n : Nat) (ha : P (keyOf f p)) : s.WritesIn (t.countBy p f n) P := h.wr _ ha

theorem State.WritesIn.count (h : s.WritesIn t P) {p : Nat} {f : Fld} (ha : P (keyOf f p)) : s.WritesIn (t.count p f) P := h.wr _ ha

theorem State.WritesIn.noteRise {s0 : State} (h : s.WritesIn t P) (p : Nat) : s.WritesIn (noteRise s0 t p) P := h.of_regs (noteRise_regs ..)

theorem State.WritesIn.raise (h : s.WritesIn t P) {p : Nat} {e : Fld} (ha : P (keyOf e p)) : s.WritesIn (t.raise p e) P :=
  State.WritesIn.noteRise (t := t.setFld p e 1) (h.setFld 1 ha) p

theorem State.WritesIn.reject (h : s.WritesIn t P) {p : Nat} (ha : P (keyOf Reg.COMMON_EVENT_STATE_REJECT p)) : s.WritesIn (t.reject p) P :=
  h.raise ha

theorem State.WritesIn.ite {c : Prop} [Decidable c] (h : s.WritesIn t P) (h' : s.WritesIn u P) : s.WritesIn (if c then t else u) P := by
  split
  · exact h
  · exact h'

theorem State.WritesIn.raiseIf (h : s.WritesIn t P) {c : Bool} {p : Nat} {e : Fld} (ha : P (keyOf e p)) : s.WritesIn (t.raiseIf c p e) P :=
  .ite (h.raise ha) h

theorem State.WritesIn.foldl {α : Type} {f : State → α → State} (h : s.WritesIn t P) (xs : List α)
    (hf : ∀ (u : State) x, x ∈ xs → u.WritesIn (f u x) P) : s.WritesIn (xs.foldl f t) P := by
  induction xs generalizing t with
  | nil => exact h
  | cons x xs ih => exact ih (h.trans (hf t x List.mem_cons_self)) fun u y hy => hf u y (List.mem_cons_of_mem _ hy)

/-- A register of a listed page. -/
theorem onPages_keyOf {ps : List Nat} {f : Fld} {p : Nat} (hf : f.off < 0x1000) (hp : p % 1024 ∈ ps) : onPages ps (keyOf f p) := by
  have h : keyOf f p / 0x1000 = p := by unfold keyOf; omega
  unfold onPages
  rwa [h]

/-! ### Fields -/

theorem State.fld_setFld_of_width (s : State) (p : Nat) (f : Fld) (v : Nat) (h : f.lo + f.width ≤ 32) (hv : v < 2 ^ f.width) :
    (s.setFld p f v).fld p f = v := by
  rw [State.fld_setFld_same _ _ _ _ h, Nat.mod_eq_of_lt hv]

/-- What a field reads in a state whose register reads as in another. -/
theorem State.fld_of_rd {p : Nat} {f : Fld} (h : t.rd (keyOf f p) = s.rd (keyOf f p)) : t.fld p f = s.fld p f := by
  simp only [State.fld, h]

theorem State.WritesIn.fld (h : s.WritesIn t P) {p : Nat} {f : Fld} (hp : ¬ P (keyOf f p)) : t.fld p f = s.fld p f :=
  State.fld_of_rd (h _ hp)

/-! ### The parts of one record -/

def ctlParts : List Part := [.ctlStraps, .ctlMode, .ctlPhase, .ctlTripHold, .ctlLinkUp, .ctlCapRun, .ctlFrameSeen, .ctlStopFrame,
  .ctlRecStart, .ctlRecEnd, .ctlCharged, .ctlLoHold, .ctlW1Done, .ctlSnaps, .ctlGroups, .ctlLatches, .ctlThrottled, .ctlCredit0,
  .ctlCredit1, .ctlBusErrHeld, .ctlRelayBeat]

def rsmParts : List Part := [.rsmBank0, .rsmBank1, .rsmRunning, .rsmHeld, .rsmWrites]

def hqParts : List Part := [.hqSqs, .hqCqs, .hqCmds, .hqGhosts, .hqAvail, .hqDbSeq, .hqUidSeq, .hqCls, .hqClsLeft, .hqLast, .hqTurn,
  .hqExhausted, .hqExhaustedAdmin, .hqDbErrHeld, .hqErrors, .hqErrCount0, .hqErrCount1, .hqReport, .hqLogUsed, .hqMsixTable, .hqPci0,
  .hqPci1]

def ingressParts : List Part := [.ingressOpenFrame, .ingressSlots, .ingressFreeCtr, .ingressFrameVals, .ingressReady, .ingressReading,
  .ingressCatchup, .ingressSofs]

def fstoreParts : List Part := [.fstoreMem, .fstoreLoad]

def splitParts : List Part := [.splitPics, .splitNewest, .splitBufs, .splitHolds]

def drawParts : List Part := [.drawCount, .drawLive, .drawCat, .drawBufs, .drawStalled, .drawLiveHist, .drawCatHist, .drawCores,
  .drawReassign]

def drdecParts : List Part := [.drdecOutCount, .drdecLast, .drdecCur, .drdecRecords, .drdecReady]

def mediaParts : List Part := [.mediaDrives, .mediaVol, .mediaReel, .mediaReview, .mediaDrops, .mediaDropTotal]

def collParts : List Part := [.collF, .collMasters, .collSel, .collDelays, .collSync, .collT3, .collAccepted, .collReceived,
  .collStepSum, .collStepNum, .collSmall, .collWithin]

def condParts : List Part := [.condQueue, .condParked]

def relayParts : List Part := [.relayDescs, .relayCluster]

def dramcParts : List Part := [.dramcChange, .dramcStarted, .dramcHeld, .dramcGather, .dramcNext, .dramcCool, .dramcBands, .dramcUeHeld]

def fwParts : List Part := [.fwA, .fwB, .fwFlash0, .fwFlash1, .fwWaiting, .fwRunning, .fwFailover, .fwReports, .fwWritten, .fwRead]

def pwrParts : List Part := [.pwrSeqA, .pwrSeqB, .pwrHeld, .pwrRising, .pwrLimiting, .pwrUnder]

def thermParts : List Part := [.thermBad, .thermGood, .thermHist, .thermRising, .thermHot, .thermAbove]

def arrayParts : List Part := [.arrayLease, .arrayLow]

/-- An event that is set stays set when another, or the same, is raised. -/
theorem State.fld_raise_of_one {p q : Nat} {e g : Fld} (he : e.width = 1) (hg : g.width = 1) (h : s.fld q g = 1) (hlo : g.lo < 32 := by decide) :
    (s.raise p e).fld q g = 1 := by
  rw [State.fld_raise]
  by_cases hk : keyOf g q = keyOf e p
  · by_cases hb : e.lo = g.lo
    · simp only [State.fld, State.rd_setFld, hk, if_true, ← hb, hg, ← he]
      rw [Word.bits_setBits _ _ _ _ (by omega), he]
      rfl
    · rw [State.fld_setFld_ne _ _ _ _ _ _ (by omega) (.inr (by omega)), h]
  · rw [State.fld_setFld_ne _ _ _ _ _ _ (by omega) (.inl hk), h]

theorem State.fld_raiseIf_of_one {p q : Nat} {c : Bool} {e g : Fld} (he : e.width = 1) (hg : g.width = 1) (h : s.fld q g = 1)
    (hlo : g.lo < 32 := by decide) : (s.raiseIf c p e).fld q g = 1 := by
  unfold State.raiseIf
  split
  · exact State.fld_raise_of_one he hg h hlo
  · exact h

/-- Beyond registers and latches nothing changes: what a footprint of these two says. -/
theorem State.Touches.onlyRegs (h : s.Touches t [.regs, .ctlLatches]) : s.OnlyRegs t := h.eq_mix

theorem State.Kept.of_writes {l : List Nat} (hw : s.WritesIn t (· ∈ l)) (ht : s.Touches t [.regs, .ctlLatches]) : s.Kept t l :=
  .of_only hw ht.onlyRegs

/-- No memory changes where no footprint names one. -/
def noBytes (l : List Part) : Bool := !(l.elem .dram || l.elem .fstoreMem || l.elem .relayCluster || l.elem .mediaDrives)

theorem State.Touches.keepsBytes {l : List Part} (h : s.Touches t l) (hl : noBytes l = true) : s.KeepsBytes t := by
  have hnot : ∀ p, l.elem p = false → p ∉ l := fun p hp hm =>
    Bool.false_ne_true (hp.symm.trans (List.elem_iff.2 hm))
  simp only [noBytes, Bool.not_eq_true', Bool.or_eq_false_iff] at hl
  obtain ⟨⟨⟨hd, hf⟩, hc⟩, hm⟩ := hl
  have hd' : t.dram = s.dram := h.same .dram (hnot _ hd)
  have hf' : t.fstore.mem = s.fstore.mem := h.same .fstoreMem (hnot _ hf)
  have hc' : t.relay.cluster = s.relay.cluster := h.same .relayCluster (hnot _ hc)
  have hm' : t.media.drives = s.media.drives := h.same .mediaDrives (hnot _ hm)
  refine ⟨fun a => by rw [hd'], fun a => by rw [hf'], fun a => by rw [hc'], fun k a => ?_⟩
  simp only [State.drive, hm']

/-- The four memories, each as it was. -/
theorem State.KeepsBytes.of_same (hd : t.dram = s.dram) (hf : t.fstore.mem = s.fstore.mem) (hc : t.relay.cluster = s.relay.cluster)
    (hm : t.media.drives = s.media.drives) : s.KeepsBytes t :=
  ⟨fun a => by rw [hd], fun a => by rw [hf], fun a => by rw [hc], fun k a => by simp only [State.drive, hm]⟩

/-- A part that turns out to be the same leaves the footprint. -/
theorem State.Touches.drop {p : Part} {l : List Part} (h : s.Touches t (p :: l)) (hp : p.same s t) : s.Touches t l :=
  ⟨fun q hq => if e : q = p then e ▸ hp else h.same q fun hm => hq ((List.mem_cons.1 hm).resolve_left e)⟩

/-- `State.Rejected` of a state that `reject` leaves. -/
theorem State.rejected_reject (s : State) (p : Nat) : s.Rejected (s.reject p) p :=
  ⟨State.fld_raise_same _ _ _ (by decide) rfl, (State.Kept.refl s _).reject (by simp)⟩

end Sys2Proof.Machine
end

section
/-! PROOFS. Reads of BUSERR_INFO (R33, R54). -/

set_option Elab.async false

namespace Sys2Proof.Machine

/-- The visible bits of BUSERR_INFO, each of which a read clears. -/
theorem masks_busErrInfo (r : Req) : ∃ fs, fieldsAt Pg.global 0x204 = some fs ∧ maskOf (visible r fs) (fun _ => true) = 0x00FFFF07
    ∧ maskOf (visible r fs) (fun f => decide (f.kind = .rc)) = 0x00FFFF07 := by
  cases r <;> exact ⟨_, rfl, by decide, by decide⟩

/-- The state after the word of BUSERR_INFO is answered and its bits in enabled bytes are cleared. -/
theorem withRead_busErrInfo {s : State} {r : Req} {be : Nat} (hr : s.reach r = true) (hd : s.domainOff Pg.global = false) :
    withRead r Pg.global 0x204 be s (s.rd 0x204) true =
      (s.clearBits 0x204 (s.rd 0x204 &&& (0x00FFFF07 &&& byteMask be))).emit (.regRead r 0x204 (s.rd 0x204 &&& 0x00FFFF07)) := by
  obtain ⟨fs, hf, hvis, hrc⟩ := masks_busErrInfo r
  have hself : (0x00FFFF07 : Word) &&& 0x00FFFF07 = 0x00FFFF07 := BitVec.and_self
  have hbank : bankPage r Pg.global 0x204 * 0x1000 + 0x204 = 0x204 := by cases r <;> rfl
  rw [withRead_of_fields _ _ hr hf (.inr hd), hbank, hvis, clearMask, hrc, if_pos rfl, BitVec.and_assoc, ← BitVec.and_assoc _ _ (byteMask be),
    hself]
  rfl

/-- BUSERR_INFO after the read, whether or not BUSERR_ADDR is cleared with it. -/
theorem rd_busErrInfo_clearBits (s : State) (be : Nat) :
    (s.clearBits 0x204 (s.rd 0x204 &&& (0x00FFFF07 &&& byteMask be))).rd 0x204 = s.rd 0x204 &&& ~~~ (0x00FFFF07 &&& byteMask be) := by
  rw [State.rd_clearBits_same, and_not_and_self_left]

/-- A read of BUSERR_INFO by a requester that reaches the registers; with no byte enabled it clears nothing. -/
theorem readBusErr_of_reach {s u : State} {r : Req} {be : Nat} (hr : s.reach r = true) (hd : s.domainOff Pg.global = false)
    (hu : u = (s.clearBits 0x204 (s.rd 0x204 &&& (0x00FFFF07 &&& byteMask be))).emit (.regRead r 0x204 (s.rd 0x204 &&& 0x00FFFF07))) :
    readBusErr r be s = if be % 16 = 0 then u else
      ({ u with ctl := { u.ctl with busErrHeld := false } } : State).setFld Pg.global Reg.GLOBAL_BUSERR_ADDR 0 := by
  unfold readBusErr
  rw [withRead_busErrInfo hr hd, hr, ← hu]
  by_cases h : be % 16 = 0 <;> simp [h]

/-- A byte mask depends on the low four byte enables alone. -/
theorem byteMask_mod (be : Nat) : byteMask be = byteMask (be % 16) := by
  have hbit : ∀ i, i < 4 → (be % 16).testBit i = be.testBit i := fun i hi => by
    rw [show (16 : Nat) = 2 ^ 4 from rfl, Nat.testBit_mod_two_pow, decide_eq_true hi, Bool.true_and]
  simp only [byteMask, hbit 0 (by decide), hbit 1 (by decide), hbit 2 (by decide), hbit 3 (by decide)]

/-- A field all of whose bits are cleared reads 0. -/
theorem bits_and_not_eq_zero (w m : Word) (lo width : Nat) (h : ∀ i, i < width → m.getLsbD (lo + i) = true) :
    Word.bits (w &&& ~~~ m) lo width = 0 := by
  refine Nat.eq_of_testBit_eq fun i => ?_
  rw [Word.testBit_bits, Nat.zero_testBit]
  by_cases hi : i < width
  · simp [h i hi]
  · simp [hi]

theorem fieldsAt_busErrAddr : fieldsAt Pg.global 0x200 = some [{ lo := 0, width := 22, kind := .ro }] := rfl

/-- A read of BUSERR_ADDR answers it and clears nothing. -/
theorem regGet_busErrAddr {s : State} {r : Req} (be : Nat) (hr : s.reach r = true) (hd : s.domainOff Pg.global = false) :
    regGet r 0x200 be s = s.emit (.regRead r 0x200 (s.rd 0x200 &&& 0x003FFFFF)) := by
  have hvis : ∀ fs : List FieldSpec, fs = [{ lo := 0, width := 22, kind := .ro }] → visible r fs = fs := by
    rintro _ rfl; cases r <;> rfl
  have hall : maskOf [{ lo := 0, width := 22, kind := .ro }] (fun _ => true) = 0x003FFFFF := by decide
  have hnone : clearMask [{ lo := 0, width := 22, kind := .ro }] be = 0 := BitVec.zero_and
  have hbank : bankPage r Pg.global 0x200 * 0x1000 + 0x200 = 0x200 := by cases r <;> rfl
  have hshown : s.shown r Pg.global 0x200 = s.rd 0x200 := by cases r <;> rfl
  have hgone : s.rd 0x200 &&& 0x003FFFFF &&& 0 = 0 := BitVec.and_zero
  rw [regGet_of_aligned (by decide) (by decide), show (0x200 : Nat) / 0x1000 = Pg.global from rfl, show (0x200 : Nat) % 0x1000 = 0x200 from rfl,
    readAt_global (by decide) (by decide), withRead_of_fields _ _ hr fieldsAt_busErrAddr (.inr hd), hvis _ rfl, hall, hnone, hbank, hshown,
    if_pos rfl, hgone, State.clearBits_zero]
  rfl

/-- Settles O9: the read clears the enabled bytes of BUSERR_INFO and, with any byte enabled, BUSERR_ADDR. -/
theorem busErrorRecord : Obligations.BusErrorRecord := by
  unfold Obligations.BusErrorRecord
  refine ⟨fun s r be hr hd => ?_, fun s r be hr hd => ⟨_, congrArg Host.Outcome.next (regGet_busErrAddr be hr hd), rfl, rfl⟩⟩
  have heq := readBusErr_of_reach (be := be) hr hd rfl
  have hinfo := rd_busErrInfo_clearBits s be
  have hkeep := s.keepsRegs_clearBits 0x204 (s.rd 0x204 &&& (0x00FFFF07 &&& byteMask be))
  have hframe := s.emit_clearBits_frame 0x204 (s.rd 0x204 &&& (0x00FFFF07 &&& byteMask be)) (.regRead r 0x204 (s.rd 0x204 &&& 0x00FFFF07))
  have hout := s.clearBits_out 0x204 (s.rd 0x204 &&& (0x00FFFF07 &&& byteMask be))
  generalize s.clearBits 0x204 (s.rd 0x204 &&& (0x00FFFF07 &&& byteMask be)) = u at heq hinfo hkeep hframe hout
  refine ⟨readBusErr r be s, rfl, ?_⟩
  generalize readBusErr r be s = t at heq ⊢
  have hword : t.rd 0x204 = s.rd 0x204 &&& ~~~ (0x00FFFF07 &&& byteMask be) := by
    rw [heq, ← hinfo]
    split
    · rfl
    · exact State.rd_setFld_ne _ _ _ _ _ (by decide)
  have hzero : be % 16 = 15 → ∀ f : Fld, keyOf f Pg.global = 0x204 →
      (∀ i, i < f.width → ((0x00FFFF07 : Word) &&& byteMask 15).getLsbD (f.lo + i) = true) → t.fld Pg.global f = 0 := fun h f hf hbits => by
    rw [State.fld, hf, hword, byteMask_mod, h]
    exact bits_and_not_eq_zero _ _ _ _ hbits
  have hall : t.out = .regRead r 0x204 (s.rd 0x204 &&& 0x00FFFF07) :: s.out
      ∧ t = { s with regs := t.regs, out := t.out
                     ctl := { s.ctl with busErrHeld := if be % 16 = 0 then s.ctl.busErrHeld else false } }
      ∧ s.KeepsRegs t [0x200, 0x204] ∧ (be % 16 ≠ 0 → t.fld Pg.global Reg.GLOBAL_BUSERR_ADDR = 0)
      ∧ (be % 16 = 0 → t.fld Pg.global Reg.GLOBAL_BUSERR_ADDR = s.fld Pg.global Reg.GLOBAL_BUSERR_ADDR) := by
    have hw : s.WritesIn u (· ∈ [0x200, 0x204]) := fun a ha => hkeep a fun h => ha (List.mem_cons_of_mem _ h)
    by_cases h : be % 16 = 0
    · rw [if_pos h] at heq
      subst heq
      refine ⟨congrArg (_ :: ·) hout, ?_, hw, fun h' => absurd h h', fun _ => ?_⟩
      · rw [if_pos h]; exact hframe
      · exact State.fld_of_rd (hkeep 0x200 (by decide))
    · rw [if_neg h] at heq
      subst heq
      refine ⟨congrArg (_ :: ·) hout, ?_, ?_, fun _ => State.fld_setFld_same _ _ _ _ (by decide), fun h' => absurd h' h⟩
      · rw [if_neg h]
        generalize u.emit _ = x at hframe ⊢
        rw [hframe]
        rfl
      · exact State.WritesIn.setFld hw 0 (by decide)
  obtain ⟨ho, ht, hregs, haddr, haddr'⟩ := hall
  refine ⟨hword, haddr, haddr', fun h => ⟨hzero h _ rfl (by decide), hzero h _ rfl (by decide), hzero h _ rfl (by decide)⟩, ho, ht, hregs, ?_⟩
  rw [ht]
  exact ⟨fun _ => rfl, fun _ => rfl, fun _ => rfl, fun _ _ => rfl⟩

end Sys2Proof.Machine
end

section
/-! PROOFS. EVENT_TEST, VEC_REARM and MSI-X messages (R35, R52, R472). -/

set_option Elab.async false

namespace Sys2Proof.Machine

/-- A write of EVENT_TEST that is accepted sets implemented bits of EVENT. -/
theorem writeEventTest_of_accepts {s : State} {r : Req} {p : Nat} {v : Word} {fs : List FieldSpec} (hf : fieldsAt p 0x010 = some fs)
    (h : s.accepts r p 0x018 v = true) :
    writeEventTest r p v s =
      noteRise s (s.wr (p * 0x1000 + 0x010) (s.rd (p * 0x1000 + 0x010) ||| (v &&& maskOf fs (fun _ => true)))) p := by
  rw [writeEventTest, withWrite_of_accepts _ h]
  simp only [hf]

theorem reqFn?_fnReq (fn : Fn) : reqFn? (fnReq fn) = some fn := by cases fn <;> rfl

/-- The state after a vector has sent its message: the credit is taken and the vector is neither latched nor held. -/
def State.sentMsix (s : State) (fn : Fn) (vec : Nat) : State :=
  let k := fnNum fn * 64 + vec
  let s1 := s.setCredit fn (s.credit fn - 1)
  ({ s1 with ctl := { s1.ctl with
    latches := s1.ctl.latches.filter fun x => decide (x ≠ k)
    throttled := s1.ctl.throttled.filter fun x => decide (x ≠ k) } } : State).emit
    (.msix fn vec (s.msixWord fn (4 * vec) + 2 ^ 32 * s.msixWord fn (4 * vec + 1)) (s.msixWord fn (4 * vec + 2)))

/-- A latched vector of an open function that is not masked and has a credit sends. -/
theorem State.sendMsix_of_credit {s : State} {fn : Fn} {vec : Nat} (hl : s.ctl.latches.contains (fnNum fn * 64 + vec) = true)
    (hm : (s.msixWord fn (4 * vec + 3)).testBit 0 = false) (ho : (s.pciFn fn).msixOpen = true) (hc : 0 < s.credit fn) :
    s.sendMsix fn vec = s.sentMsix fn vec := by
  have hc' : s.credit fn ≠ 0 := by omega
  unfold State.sendMsix
  simp only [hl, hm, ho, hc']
  rfl

/-- Without a credit it waits, and the throttle is raised once. -/
theorem State.sendMsix_of_no_credit {s : State} {fn : Fn} {vec : Nat} (hl : s.ctl.latches.contains (fnNum fn * 64 + vec) = true)
    (hm : (s.msixWord fn (4 * vec + 3)).testBit 0 = false) (ho : (s.pciFn fn).msixOpen = true) (hc : s.credit fn = 0)
    (ht : s.ctl.throttled.contains (fnNum fn * 64 + vec) = false) :
    s.sendMsix fn vec =
      ({ s with ctl := { s.ctl with throttled := insertNat (fnNum fn * 64 + vec) s.ctl.throttled } } : State).raise Pg.guard
        Reg.GUARD_EVENT_MSIX_THROTTLE := by
  unfold State.sendMsix
  simp only [hl, hm, ho, hc, ht]
  rfl

theorem contains_filter_ne (l : List Nat) (k j : Nat) :
    (l.filter fun x => decide (x ≠ k)).contains j = (decide (j ≠ k) && l.contains j) := by
  rw [Bool.eq_iff_iff]
  simp [and_comm]

@[simp] theorem State.setCredit_latches (s : State) (fn : Fn) (n : Nat) : (s.setCredit fn n).ctl.latches = s.ctl.latches := by cases fn <;> rfl

theorem State.contains_latches_insert (k j : Nat) (l : List Nat) : (insertNat k l).contains j = (decide (j = k) || l.contains j) := by
  induction l with
  | nil => simp [insertNat]
  | cons h t ih =>
    unfold insertNat
    split
    · simp [← Bool.beq_eq_decide_eq]
    · split
      · rename_i e
        simp [e, ← Bool.beq_eq_decide_eq]
      · rw [List.contains_cons, ih, List.contains_cons, Bool.or_left_comm]

/-- A latch stays pending when an event rises. -/
theorem State.contains_latches_raise {s : State} {k : Nat} (p : Nat) (e : Fld) (h : s.ctl.latches.contains k = true) :
    (s.raise p e).ctl.latches.contains k = true := by
  rcases noteRise_cases s (s.setFld p e 1) p with h' | ⟨j, h'⟩ <;> rw [State.raise, h']
  · exact h
  · rw [State.latch, State.contains_latches_insert]
    exact Bool.or_eq_true_iff.2 (.inr h)

/-- Settles O11: each command is its function's equation for the case named. -/
theorem eventsAndMessages : Obligations.EventsAndMessages := by
  unfold Obligations.EventsAndMessages
  refine ⟨fun s r p v fs hf ha => ?_, fun s fn v ha => ?_, fun s fn vec hl hm ho hc => ?_, fun s fn vec hl hm ho hc ht => ?_,
    fun s fn vec h => ?_, fun s hr hb => ?_⟩
  · refine ⟨_, congrArg Host.Outcome.next (writeEventTest_of_accepts hf ha), ?_, ((State.Kept.refl s _).wr _ (by simp)).noteRise p⟩
    rw [State.rd_congr (noteRise_regs ..), State.rd_wr_same]
  · refine ⟨writeVecRearm (fnReq fn) v s, rfl, ?_⟩
    rw [writeVecRearm, withWrite_of_accepts _ ha]
    simp only [reqFn?_fnReq, Nat.add_assoc]
  · have hcr : s.credit fn - 1 + 1 = s.credit fn := Nat.sub_add_cancel hc
    refine ⟨_, congrArg Host.Outcome.next (State.sendMsix_of_credit hl hm ho hc), ?_, ?_, ?_, fun k hk => ?_, ?_⟩
    · cases fn <;> rfl
    · cases fn <;> exact hcr
    · simp [State.sentMsix, State.emit]
    · simp only [State.sentMsix, State.emit, State.setCredit_latches, contains_filter_ne, decide_eq_true hk, Bool.true_and]
    · have hframe : s.sentMsix fn vec = { s with ctl := (s.sentMsix fn vec).ctl, out := (s.sentMsix fn vec).out } := by cases fn <;> rfl
      exact ⟨hframe, by rw [hframe]; exact ⟨fun _ => rfl, fun _ => rfl, fun _ => rfl, fun _ _ => rfl⟩⟩
  · have ht' := State.Touches.step (State.Touches.of_mix (s := s) (l := [.regs, .ctlThrottled, .ctlLatches])
      (t := { s with ctl := { s.ctl with throttled := insertNat (fnNum fn * 64 + vec) s.ctl.throttled } }) rfl rfl)
      (State.raise_touches _ Pg.guard Reg.GUARD_EVENT_MSIX_THROTTLE) rfl
    refine ⟨_, congrArg Host.Outcome.next (State.sendMsix_of_no_credit hl hm ho hc ht), ht'.same .out (by decide),
      State.contains_latches_raise _ _ hl, State.fld_raise_same _ _ _ (by decide) rfl, (ht'.mono (l' := .regs :: ctlParts) rfl).eq_mix,
      State.WritesIn.raise ?_ (List.mem_singleton_self _), ht'.keepsBytes rfl⟩
    exact State.WritesIn.of_regs (.refl s _) rfl
  · refine congrArg Host.Outcome.next ?_
    unfold State.sendMsix
    rw [if_pos (by rcases h with h | h <;> simp [h])]
  · have h1 : max 1 (s.fld Pg.guard Reg.GUARD_MSIX_CAP_RATE) = s.fld Pg.guard Reg.GUARD_MSIX_CAP_RATE := Nat.max_eq_right hr
    have h2 : max 1 (s.fld Pg.guard Reg.GUARD_MSIX_CAP_BURST) = s.fld Pg.guard Reg.GUARD_MSIX_CAP_BURST := Nat.max_eq_right hb
    have ht := State.refill_touches s
    refine ⟨s.refill, rfl, ?_, ?_, ht.eq_mix, ht.keepsBytes rfl⟩ <;> simp only [State.refill, h1, h2] <;> rfl

end Sys2Proof.Machine
end

section
/-! PROOFS. Commits (R38 to R40, R75, R76, R81). -/

set_option Elab.async false

namespace Sys2Proof.Machine

/-! ### Snapshots -/

/-- A snapshot looks at the shadow registers of its page alone. -/
theorem State.snapshot_of_writes {s t : State} {P : Nat → Prop} {p : Nat} (h : s.WritesIn t P)
    (hP : ∀ o, 0x400 ≤ o → o < 0x800 → ¬ P (p * 0x1000 + o)) : t.snapshot p = s.snapshot p := by
  unfold State.snapshot
  cases hp : pageBlk p with
  | none => rfl
  | some e =>
    refine List.map_congr_left fun o ho => ?_
    obtain ⟨hlo, hhi⟩ := shadowOffs_range e.1 o ho
    rw [h _ (hP o hlo hhi)]

theorem shadowOffs_lt (b : Blk) : ∀ o ∈ shadowOffs b, o < 0x7FC := by cases b <;> decide

theorem shadowOffs_nodup (b : Blk) : (shadowOffs b).Nodup := by cases b <;> decide

theorem State.snapshot_lt (s : State) (p : Nat) : ∀ e ∈ s.snapshot p, e.1 < 0x7FC := by
  intro e he
  unfold State.snapshot at he
  cases hp : pageBlk p with
  | none => simp [hp] at he
  | some b =>
    simp only [hp, List.mem_map] at he
    obtain ⟨o, ho, rfl⟩ := he
    exact shadowOffs_lt b.1 o ho

/-- A snapshot names each register once. -/
theorem State.snapshot_nodup (s : State) (p : Nat) : ((s.snapshot p).map Prod.fst).Nodup := by
  unfold State.snapshot
  cases hp : pageBlk p with
  | none => exact List.nodup_nil
  | some e =>
    rw [List.map_map, show (Prod.fst ∘ fun o => (o, s.rd (p * 0x1000 + o) &&& shMask p o)) = id from rfl, List.map_id]
    exact shadowOffs_nodup e.1

/-- The snapshot that a page holds once it is taken; those of the other pages stay. -/
theorem State.snapOf_taken {s t : State} {p q : Nat} {x : List (Nat × Word)}
    (h : t.ctl.snaps = (p, x) :: s.ctl.snaps.filter fun e => decide (e.1 ≠ p)) : t.snapOf q = if q = p then x else s.snapOf q := by
  unfold State.snapOf
  rw [h]
  by_cases hq : q = p
  · simp [hq]
  · have hpq : ¬ p = q := fun e => hq e.symm
    have hfind : (s.ctl.snaps.filter fun e => decide (e.1 ≠ p)).find? (fun e => decide (e.1 = q)) =
        s.ctl.snaps.find? fun e => decide (e.1 = q) := by
      rw [List.find?_filter]
      congr 1
      funext e
      by_cases he : e.1 = q
      · simp [he, hq]
      · simp [he]
    simp only [List.find?_cons, hpq, decide_false, hq, if_false, hfind]

/-- The snapshots of the other pages stay when a page's is dropped. -/
theorem State.snapOf_dropped {s t : State} {p q : Nat} (h : t.ctl.snaps = s.ctl.snaps.filter fun e => decide (e.1 ≠ p)) (hq : q ≠ p) :
    t.snapOf q = s.snapOf q := by
  unfold State.snapOf
  rw [h, List.find?_filter]
  congr 2
  funext e
  by_cases he : e.1 = q
  · simp [he, hq]
  · simp [he]

theorem State.applySnap_cons (s : State) (p : Nat) (x : Nat × Word) (xs : List (Nat × Word)) :
    s.applySnap p (x :: xs) = (s.wr (p * 0x1000 + x.1 + 0x400) x.2).applySnap p xs := by
  unfold State.applySnap
  exact List.foldl_cons ..

/-- A snapshot is applied to registers of the page's active copies. -/
theorem State.writesIn_applySnap (s : State) (p : Nat) (snap : List (Nat × Word)) :
    s.WritesIn (s.applySnap p snap) fun a => ∃ y ∈ snap, a = p * 0x1000 + y.1 + 0x400 :=
  .foldl (.refl _ _) snap fun _ y hy => .wr (.refl _ _) _ ⟨y, hy, rfl⟩

/-- Each active copy reads its word of a snapshot that names each register once. -/
theorem State.rd_applySnap_of_mem (s : State) (p : Nat) {snap : List (Nat × Word)} (hn : (snap.map Prod.fst).Nodup) {e : Nat × Word}
    (he : e ∈ snap) : (s.applySnap p snap).rd (p * 0x1000 + e.1 + 0x400) = e.2 := by
  induction snap generalizing s with
  | nil => exact absurd he List.not_mem_nil
  | cons x xs ih =>
    rw [List.map_cons, List.nodup_cons] at hn
    obtain ⟨hx, hxs⟩ := hn
    rw [State.applySnap_cons]
    rcases List.mem_cons.1 he with rfl | hmem
    · rw [State.writesIn_applySnap _ p xs _ ?_, State.rd_wr_same]
      rintro ⟨y, hy, h⟩
      exact hx (List.mem_map.2 ⟨y, hy, by omega⟩)
    · exact ih _ hxs hmem

/-! ### Whether a function runs -/

/-- Whether a page's function runs does not turn on the page's COMMIT register, nor on the snapshots. -/
theorem State.running_of_commit {s t : State} {p : Nat} (h : s.WritesIn t fun a => a % 0x1000 = 0x01C) (hcap : t.ctl.capRun = s.ctl.capRun)
    (hmode : t.ctl.mode = s.ctl.mode) (hcond : t.cond = s.cond) : t.running p = s.running p := by
  have hfld : ∀ q (f : Fld), f.off < 0x1000 → f.off ≠ 0x01C → t.fld q f = s.fld q f := fun q f hf hne => h.fld (by unfold keyOf; omega)
  have hraw : t.reviewRaw = s.reviewRaw := congrArg (fun n => decide (n = 1)) (hfld _ _ (by decide) (by decide))
  have hen : ∀ q, t.on q Reg.COMMON_CTRL_ENABLE = s.on q Reg.COMMON_CTRL_ENABLE := fun q =>
    congrArg (fun n => decide (n = 1)) (hfld _ _ (by decide) (by decide))
  have hrend : ∀ n, t.on Pg.split (Reg.SPLIT_REND_CFG n) = s.on Pg.split (Reg.SPLIT_REND_CFG n) := fun n => by
    refine congrArg (fun n => decide (n = 1)) (h.fld ?_)
    simp only [keyOf]
    omega
  unfold State.running
  cases hp : pageBlk p with
  | none => rfl
  | some e =>
    dsimp only
    split <;> simp only [hcap, hmode, hcond, hraw, hen, hrend, hfld p Reg.RELAY_STATE_ACTIVE (by decide) (by decide)]

/-! ### Commits that apply -/

theorem lt_of_pageBlk {p : Nat} {e : Blk × Nat} (h : pageBlk p = some e) : p < 0x400 := by
  by_contra hp
  have hall : ∀ x ∈ pageMap, x.1 + x.2.1 ≤ 0x400 := by decide
  have hnone : pageMap.find? (fun e => decide (e.1 ≤ p) && decide (p < e.1 + e.2.1)) = none := by
    rw [List.find?_eq_none]
    intro x hx
    have := hall x hx
    simp only [Bool.and_eq_true, decide_eq_true_eq, not_and]
    omega
  rw [pageBlk, hnone] at h
  exact Option.some_ne_none _ h.symm

/-- A write is accepted on an implemented page. -/
theorem lt_of_accepts {s : State} {r : Req} {p o : Nat} {v : Word} (h : s.accepts r p o v = true) : p < 0x400 := by
  cases hp : pageBlk p with
  | some e => exact lt_of_pageBlk hp
  | none =>
    have hf : fieldsAt p o = none := by unfold fieldsAt; rw [hp]
    simp [State.accepts, hf] at h

/-- The registers that follow the end of a commit, on its page and elsewhere. -/
def afterCommit (p a : Nat) : Prop :=
  a = keyOf Reg.COMMON_EVENT_COMMIT_DONE p ∨ a = keyOf (actOf bypassFld) p
    ∨ a = keyOf Reg.FSTORE_EVENT_SLOT_FREED Pg.fstore ∨ a = keyOf Reg.RSTORE_EVENT_SAVE_COALESCED Pg.rstore

theorem State.writesIn_checkSlots (s : State) (p : Nat) : s.WritesIn (s.checkSlots p) (afterCommit p) := by
  have he : (slotErr p).off = 0x010 := by unfold slotErr; split <;> rfl
  unfold State.checkSlots
  refine .ite (.raiseIf (.setFld (.refl _ _) _ (.inr (.inl rfl))) (.inl ?_)) (.refl _ _)
  simp only [keyOf, he]

theorem writesIn_noteFreed (s0 s : State) (p : Nat) : s.WritesIn (noteFreed s0 s) (afterCommit p) :=
  .raiseIf (.refl _ _) (.inr (.inr (.inl rfl)))

theorem State.startSave_regs (s : State) (q : SaveReq) : (s.startSave q).regs = s.regs := (State.startSave_touches s q).same .regs (by decide)

theorem State.writesIn_requestSave (s : State) (cause : Nat) (cmds : List Nat) :
    s.WritesIn (s.requestSave cause cmds) (· = keyOf Reg.RSTORE_EVENT_SAVE_COALESCED Pg.rstore) := by
  unfold State.requestSave
  split
  · exact .of_regs (.refl _ _) (State.startSave_regs ..)
  · split
    · exact .of_regs (.refl _ _) rfl
    · exact .raise (.of_regs (.refl _ _) rfl) rfl

theorem State.writesIn_autoSave (s : State) (cause p : Nat) : s.WritesIn (s.autoSave cause) (afterCommit p) := by
  unfold State.autoSave
  exact .ite (State.WritesIn.mono (State.writesIn_requestSave _ _ _) fun _ h => .inr (.inr (.inr h))) (.refl _ _)

/-- COMMIT_DONE stays raised through what follows a commit. -/
theorem State.done_checkSlots {s : State} {p : Nat} (h : s.fld p Reg.COMMON_EVENT_COMMIT_DONE = 1) :
    (s.checkSlots p).fld p Reg.COMMON_EVENT_COMMIT_DONE = 1 := by
  have hw : (slotErr p).width = 1 := by unfold slotErr; split <;> rfl
  have hset : ∀ m, (s.setFld p (actOf bypassFld) m).fld p Reg.COMMON_EVENT_COMMIT_DONE = 1 := fun m => by
    rw [State.fld_setFld_ne _ _ _ _ _ _ (by decide) (.inl (keyOf_ne_of_off (by decide) (by decide) (by decide))), h]
  unfold State.checkSlots
  split
  · exact State.fld_raiseIf_of_one hw rfl (hset _)
  · exact h

theorem State.done_autoSave {s : State} (cause : Nat) {p : Nat} (h : s.fld p Reg.COMMON_EVENT_COMMIT_DONE = 1) :
    (s.autoSave cause).fld p Reg.COMMON_EVENT_COMMIT_DONE = 1 := by
  unfold State.autoSave State.requestSave
  split
  · split
    · exact (State.fld_congr (State.startSave_regs _ _) _ _).trans h
    · split
      · exact h
      · exact State.fld_raise_of_one rfl rfl h
  · exact h

/-- What follows the end of a commit that applies: the event, the check of the slots that it names, and the slots that it lets go. -/
def State.commitDone (s s0 : State) (p : Nat) : State := noteFreed s0 ((s.raise p Reg.COMMON_EVENT_COMMIT_DONE).checkSlots p)

theorem State.writesIn_commitDone (s s0 : State) (p : Nat) : s.WritesIn (s.commitDone s0 p) (afterCommit p) :=
  ((State.WritesIn.raise (.refl _ _) (.inl rfl)).trans (State.writesIn_checkSlots _ _)).trans (writesIn_noteFreed _ _ _)

theorem State.done_commitDone (s s0 : State) (p : Nat) : (s.commitDone s0 p).fld p Reg.COMMON_EVENT_COMMIT_DONE = 1 :=
  State.fld_raiseIf_of_one rfl rfl (State.done_checkSlots (State.fld_raise_same _ _ _ (by decide) rfl))

theorem State.commitNow_eq (s : State) (p : Nat) :
    s.commitNow p = ((s.applySnap p (s.snapOf p)).endCommit p).commitDone s p := rfl

theorem State.commitDone_touches (s s0 : State) (p : Nat) : s.Touches (s.commitDone s0 p) [.regs, .ctlLatches] :=
  ((State.raise_touches _ _ _).trans (State.checkSlots_touches _ _)).trans (noteFreed_touches _ _)

/-- The register that ends a commit. -/
theorem State.writesIn_endCommit (s : State) (p : Nat) : s.WritesIn (s.endCommit p) (· = keyOf Reg.COMMON_COMMIT_PENDING p) :=
  .of_regs (.setFld (.refl _ _) _ rfl) rfl

theorem State.endCommit_snaps (s : State) (p : Nat) : (s.endCommit p).ctl.snaps = s.ctl.snaps.filter fun e => decide (e.1 ≠ p) := rfl

theorem State.pending_endCommit (s : State) (p : Nat) : (s.endCommit p).fld p Reg.COMMON_COMMIT_PENDING = 0 :=
  State.fld_setFld_same s p Reg.COMMON_COMMIT_PENDING 0 (by decide)

/-- What follows a commit writes no active copy and no COMMIT register. -/
theorem not_afterCommit {p a : Nat} (ha : a % 0x1000 ≠ 0x010) (hb : a % 0x1000 ≠ 0xBFC) : ¬ afterCommit p a := by
  have hoff : (actOf bypassFld).off = 0xBFC := rfl
  rintro (h | h | h | h) <;> simp only [keyOf, hoff] at h <;> omega

/-- A commit that applies: the active copies take the snapshot, PENDING is 0, COMMIT_DONE is raised and the snapshot is gone. -/
theorem State.commitNow_applies {s : State} {p : Nat} (hn : ((s.snapOf p).map Prod.fst).Nodup)
    (hs : ∀ e ∈ s.snapOf p, 0x400 ≤ e.1 ∧ e.1 < 0x7FC) :
    (∀ e ∈ s.snapOf p, (s.commitNow p).rd (p * 0x1000 + e.1 + 0x400) = e.2)
      ∧ (s.commitNow p).fld p Reg.COMMON_COMMIT_PENDING = 0 ∧ (s.commitNow p).fld p Reg.COMMON_EVENT_COMMIT_DONE = 1
      ∧ (s.commitNow p).ctl.snaps = s.ctl.snaps.filter fun e => decide (e.1 ≠ p) := by
  have htail := State.writesIn_commitDone ((s.applySnap p (s.snapOf p)).endCommit p) s p
  refine ⟨fun e he => ?_, ?_, State.done_commitDone _ _ _, ?_⟩
  · obtain ⟨hlo, hhi⟩ := hs e he
    rw [State.commitNow_eq, htail _ (not_afterCommit (by omega) (by omega)),
      State.writesIn_endCommit _ _ _ (by simp only [keyOf]; omega), State.rd_applySnap_of_mem s p hn he]
  · rw [State.commitNow_eq, htail.fld (not_afterCommit (by simp only [keyOf]; omega) (by simp only [keyOf]; omega)),
      State.pending_endCommit]
  · rw [State.commitNow_eq, (State.commitDone_touches _ s p).same .ctlSnaps (by decide), State.endCommit_snaps,
      (State.applySnap_touches s p _).same .ctlSnaps (by decide)]

/-- The pages that a commit writes: its own, FSTORE and RSTORE. -/
theorem onPages_afterCommit {p a : Nat} (hp : p < 0x400) (h : afterCommit p a) : onPages [p, Pg.fstore, Pg.rstore] a := by
  have hpage : p % 1024 ∈ [p, Pg.fstore, Pg.rstore] := by rw [Nat.mod_eq_of_lt hp]; exact List.mem_cons_self
  rcases h with rfl | rfl | rfl | rfl
  · exact onPages_keyOf (by decide) hpage
  · exact onPages_keyOf (by decide) hpage
  · exact onPages_keyOf (by decide) (List.mem_cons_of_mem _ (by decide))
  · exact onPages_keyOf (by decide) (List.mem_cons_of_mem _ (by decide))

theorem State.writesIn_commitNow {s : State} {p : Nat} (hp : p < 0x400) (hs : ∀ e ∈ s.snapOf p, e.1 < 0x7FC) :
    s.WritesIn (s.commitNow p) (onPages [p, Pg.fstore, Pg.rstore]) := by
  have hpage : p % 1024 ∈ [p, Pg.fstore, Pg.rstore] := by rw [Nat.mod_eq_of_lt hp]; exact List.mem_cons_self
  rw [State.commitNow_eq]
  refine (State.WritesIn.mono (State.writesIn_applySnap s p _) ?_).trans
    ((State.WritesIn.mono (State.writesIn_endCommit _ _) ?_).trans
      (State.WritesIn.mono (State.writesIn_commitDone _ _ _) fun _ => onPages_afterCommit hp))
  · rintro _ ⟨e, he, rfl⟩
    have := hs e he
    have hpg : (p * 0x1000 + e.1 + 0x400) / 0x1000 = p := by omega
    unfold onPages
    rwa [hpg]
  · rintro _ rfl
    exact onPages_keyOf (by decide) hpage

/-! ### COMMIT_REQ -/

/-- The snapshot of a page's shadow registers taken for its commit. -/
def State.takeSnap (s : State) (p : Nat) : State :=
  { s with ctl := { s.ctl with snaps := (p, s.snapshot p) :: s.ctl.snaps.filter fun e => decide (e.1 ≠ p) } }

@[simp] theorem State.takeSnap_regs (s : State) (p : Nat) : (s.takeSnap p).regs = s.regs := rfl

/-- The page's state once SOURCE is written and the snapshot is taken: PENDING is 1. -/
def State.commitHeld (s : State) (p src : Nat) : State :=
  ((s.setFld p Reg.COMMON_COMMIT_SOURCE src).takeSnap p).setFld p Reg.COMMON_COMMIT_PENDING 1

theorem State.writesIn_commitHeld (s : State) (p src : Nat) : s.WritesIn (s.commitHeld p src) (· = keyOf Reg.COMMON_COMMIT_PENDING p) := by
  have h1 : s.WritesIn (s.setFld p Reg.COMMON_COMMIT_SOURCE src) (· = keyOf Reg.COMMON_COMMIT_PENDING p) := .setFld (.refl _ _) _ rfl
  exact .setFld (h1.of_regs (State.takeSnap_regs _ _)) _ rfl

theorem State.snapOf_commitHeld (s : State) (p src q : Nat) :
    (s.commitHeld p src).snapOf q = if q = p then s.snapshot p else s.snapOf q := by
  have hsnap : (s.setFld p Reg.COMMON_COMMIT_SOURCE src).snapshot p = s.snapshot p :=
    State.snapshot_of_writes (P := (· = keyOf Reg.COMMON_COMMIT_SOURCE p)) (.setFld (.refl s _) _ rfl) fun o hlo _ h => by
      simp only [keyOf] at h; omega
  rw [← hsnap]
  exact State.snapOf_taken (s := s) (p := p) rfl

theorem State.commitHeld_touches (s : State) (p src : Nat) : s.Touches (s.commitHeld p src) [.regs, .ctlSnaps] :=
  .step (.step ((State.setFld_touches ..).mono rfl) (State.touches_takeSnap _ p) rfl) (State.setFld_touches ..) rfl

/-- What taking a snapshot leaves. -/
theorem State.commitHeld_spec (s : State) (p : Nat) {src : Nat} (hlt : src < 4) :
    (s.commitHeld p src).fld p Reg.COMMON_COMMIT_PENDING = 1
      ∧ (s.commitHeld p src).fld p Reg.COMMON_COMMIT_SOURCE = src
      ∧ (s.commitHeld p src).snapOf p = s.snapshot p ∧ (∀ q, q ≠ p → (s.commitHeld p src).snapOf q = s.snapOf q)
      ∧ s.commitHeld p src = { s with regs := (s.commitHeld p src).regs, ctl := { s.ctl with snaps := (s.commitHeld p src).ctl.snaps } }
      ∧ s.KeepsRegs (s.commitHeld p src) [keyOf Reg.COMMON_COMMIT_PENDING p] ∧ s.KeepsBytes (s.commitHeld p src) := by
  have hto := s.commitHeld_touches p src
  refine ⟨State.fld_setFld_same _ _ _ _ (by decide), ?_, ?_, fun q hq => ?_, hto.eq_mix, fun a h => ?_, hto.keepsBytes rfl⟩
  · rw [State.commitHeld, State.fld_setFld_ne _ _ _ _ _ _ (by decide) (.inr (by decide)), State.fld_congr (State.takeSnap_regs _ _),
      State.fld_setFld_of_width _ _ _ _ (by decide) hlt]
  · rw [State.snapOf_commitHeld, if_pos rfl]
  · rw [State.snapOf_commitHeld, if_neg hq]
  · exact State.writesIn_commitHeld s p src a fun e => h (by simp [e])

theorem State.running_commitHeld (s : State) (p src : Nat) : (s.commitHeld p src).running p = s.running p := by
  refine State.running_of_commit (fun a ha => State.writesIn_commitHeld s p src a fun h => ha ?_) rfl rfl rfl
  simp only [h, keyOf]
  omega

/-- A request with PENDING at 0 that nothing forbids and no block refuses takes its snapshot. -/
theorem writeCommit_of_taken {s : State} {r : Req} {p : Nat} {v : Word} {src : Nat} (hsrc : src = wfld (s.written r p 0x01C v) Reg.COMMON_COMMIT_SOURCE)
    (ha : s.accepts r p 0x01C v = true) (hreq : wfld v Reg.COMMON_COMMIT_REQ = 1) (hpend : s.fld p Reg.COMMON_COMMIT_PENDING = 0)
    (hbar : s.commitBarred p src true = false) (href : (s.setFld p Reg.COMMON_COMMIT_SOURCE src).commitRefused p = none) :
    writeCommit r p v s = (s.setFld p Reg.COMMON_COMMIT_SOURCE src).commitTake p src := by
  have hoff : (s.setFld p Reg.COMMON_COMMIT_SOURCE src).on p Reg.COMMON_COMMIT_PENDING = false := by
    rw [State.on_eq_false _ _ _ rfl, State.fld_setFld_ne _ _ _ _ _ _ (by decide) (.inr (by decide)), hpend]
  rw [writeCommit, withWrite_of_accepts _ ha]
  simp only [← hsrc, hreq, decide_true, hbar, hoff, href, Bool.false_eq_true, Bool.true_eq_false, if_false, Option.getD_none]

theorem State.commitTake_eq (s : State) (p src : Nat) :
    (s.setFld p Reg.COMMON_COMMIT_SOURCE src).commitTake p src =
      if src = 2 then ((s.commitHeld p src).commitNow p).autoSave 3
      else if (src = 1 ∨ (src = 0 ∧ isLoupe p = true)) ∧ s.running p = false then (s.commitHeld p src).commitNow p
      else s.commitHeld p src := by
  rw [← State.running_commitHeld s p src]
  rfl

/-- A request that the page's running function bars is none with SOURCE 2. -/
theorem State.src_of_not_barred {s : State} {p src : Nat} (hpend : s.fld p Reg.COMMON_COMMIT_PENDING = 0)
    (hbar : s.commitBarred p src true = false) : src ≠ 3 ∧ (s.running p = true → src ≠ 2) := by
  have hoff : s.on p Reg.COMMON_COMMIT_PENDING = false := (State.on_eq_false _ _ _ rfl).2 hpend
  simp only [State.commitBarred, hoff, Bool.or_eq_false_iff, decide_eq_false_iff_not] at hbar
  obtain ⟨⟨⟨h3, -⟩, -⟩, h2⟩ := hbar
  refine ⟨h3, fun hr h => ?_⟩
  simp [h, hr] at h2

/-- A field set to the value that it holds changes no register. -/
theorem State.writesIn_setFld_self (s : State) (p : Nat) (f : Fld) :
    s.WritesIn (s.setFld p f (s.fld p f)) fun _ => False := by
  intro a _
  rw [State.rd_setFld]
  split
  case isTrue h =>
    subst h
    refine BitVec.eq_of_getLsbD_eq fun i hi => ?_
    rw [Word.getLsbD_setBits _ _ _ _ _ hi]
    split
    case isTrue h =>
      have hlt : i - f.lo < f.width := by omega
      rw [State.fld, Word.testBit_bits, decide_eq_true hlt, Bool.true_and, Nat.add_sub_cancel' h.1]
    case isFalse => rfl
  case isFalse => rfl

/-- A commit that applies at once. -/
theorem State.commitTake_applies {s t : State} {p src : Nat} (hp : p < 0x400)
    (ht : t = (s.commitHeld p src).commitNow p ∨ t = ((s.commitHeld p src).commitNow p).autoSave 3) :
    (∀ e ∈ s.snapshot p, t.rd (p * 0x1000 + e.1 + 0x400) = e.2)
      ∧ t.fld p Reg.COMMON_COMMIT_PENDING = 0 ∧ t.fld p Reg.COMMON_EVENT_COMMIT_DONE = 1 ∧ (∀ q, q ≠ p → t.snapOf q = s.snapOf q)
      ∧ s.WritesIn t (onPages [p, Pg.fstore, Pg.rstore]) := by
  have hsnap : (s.commitHeld p src).snapOf p = s.snapshot p := by rw [State.snapOf_commitHeld, if_pos rfl]
  have hrange : ∀ e ∈ s.snapshot p, 0x400 ≤ e.1 ∧ e.1 < 0x7FC := fun e he => ⟨(s.snapshot_range p e he).1, s.snapshot_lt p e he⟩
  obtain ⟨hrd, hpend, hdone, hsnaps⟩ := State.commitNow_applies (s := s.commitHeld p src) (p := p) (by rw [hsnap]; exact s.snapshot_nodup p)
    (by rw [hsnap]; exact hrange)
  have hw := State.writesIn_commitNow (s := s.commitHeld p src) hp (by rw [hsnap]; exact fun e he => (hrange e he).2)
  have hheld : s.WritesIn (s.commitHeld p src) (onPages [p, Pg.fstore, Pg.rstore]) :=
    State.WritesIn.mono (State.writesIn_commitHeld s p src) fun _ h => h ▸ onPages_keyOf (by decide) (by
      rw [Nat.mod_eq_of_lt hp]; exact List.mem_cons_self)
  have hother : ∀ q, q ≠ p → ((s.commitHeld p src).commitNow p).snapOf q = s.snapOf q := fun q hq => by
    rw [State.snapOf_dropped hsnaps hq, State.snapOf_commitHeld, if_neg hq]
  rw [hsnap] at hrd
  generalize (s.commitHeld p src).commitNow p = u at ht hrd hpend hdone hsnaps hw hother
  rcases ht with rfl | rfl
  · exact ⟨hrd, hpend, hdone, hother, hheld.trans hw⟩
  · have hauto := u.writesIn_autoSave 3 p
    refine ⟨fun e he => ?_, ?_, State.done_autoSave 3 hdone, fun q hq => ?_, (hheld.trans hw).trans ?_⟩
    · obtain ⟨hlo, hhi⟩ := hrange e he
      rw [hauto _ (not_afterCommit (by omega) (by omega)), hrd e he]
    · rw [hauto.fld (not_afterCommit (by simp only [keyOf]; omega) (by simp only [keyOf]; omega)), hpend]
    · have hsn : (u.autoSave 3).ctl.snaps = u.ctl.snaps := (State.autoSave_touches u 3).same .ctlSnaps (by decide)
      rw [← hother q hq, State.snapOf, hsn, State.snapOf]
    · exact State.WritesIn.mono hauto fun _ => onPages_afterCommit hp

/-! ### GLOBAL_COMMIT -/

theorem writeGlobalCommit_of_accepts {s : State} {r : Req} {v : Word} (ha : s.accepts r Pg.global 0x01C v = true)
    (hreq : wfld v Reg.GLOBAL_COMMIT_REQ = 1) : writeGlobalCommit r v s = s.bindGroup := by
  rw [writeGlobalCommit, withWrite_of_accepts _ ha, if_pos hreq]

/-- A request that nothing stops binds the armed pages. -/
theorem State.bindGroup_of_open {s : State} (hrun : s.takeOrReview = true) (hfull : s.ctl.groups.length < 8) (hany : allPages.filter s.armed ≠ [])
    (hframe : s.frameNow + 2 ≤ s.fld64 Pg.global Reg.GLOBAL_COMMIT_FRAME_LO Reg.GLOBAL_COMMIT_FRAME_HI) :
    s.bindGroup = ({ s with ctl := { s.ctl with groups := s.ctl.groups ++
      [(s.fld64 Pg.global Reg.GLOBAL_COMMIT_FRAME_LO Reg.GLOBAL_COMMIT_FRAME_HI, allPages.filter s.armed)] } } : State).showGroups := by
  have h1 : (allPages.filter s.armed).isEmpty = false := by simpa using hany
  have h2 : decide (s.fld64 Pg.global Reg.GLOBAL_COMMIT_FRAME_LO Reg.GLOBAL_COMMIT_FRAME_HI < s.frameNow + 2) = false := by simpa using hframe
  have h3 : decide (8 ≤ s.ctl.groups.length) = false := by simpa using hfull
  unfold State.bindGroup
  simp only [hrun, h1, h2, h3, Bool.not_true, Bool.or_self, Bool.false_eq_true, if_false]

/-- The bits that name the causes of a refused request. -/
def State.noteCauses (s : State) (stopped late full empty : Bool) : State :=
  let s1 := if late then s.setFld Pg.global Reg.GLOBAL_COMMIT_LATE 1 else s
  let s2 := if full then s1.setFld Pg.global Reg.GLOBAL_COMMIT_FULL 1 else s1
  let s3 := if empty then s2.setFld Pg.global Reg.GLOBAL_COMMIT_NONE 1 else s2
  if stopped then s3.setFld Pg.global Reg.GLOBAL_COMMIT_STOPPED 1 else s3

theorem State.bindGroup_of_stopped {s : State} (h : s.takeOrReview = false ∨ 8 ≤ s.ctl.groups.length ∨ allPages.filter s.armed = []
      ∨ s.fld64 Pg.global Reg.GLOBAL_COMMIT_FRAME_LO Reg.GLOBAL_COMMIT_FRAME_HI < s.frameNow + 2) :
    s.bindGroup = (s.noteCauses (!s.takeOrReview)
      (decide (s.fld64 Pg.global Reg.GLOBAL_COMMIT_FRAME_LO Reg.GLOBAL_COMMIT_FRAME_HI < s.frameNow + 2))
      (decide (8 ≤ s.ctl.groups.length)) (allPages.filter s.armed).isEmpty).raise Pg.global Reg.COMMON_EVENT_COMMIT_REJECT := by
  have hany : (!s.takeOrReview || decide (s.fld64 Pg.global Reg.GLOBAL_COMMIT_FRAME_LO Reg.GLOBAL_COMMIT_FRAME_HI < s.frameNow + 2)
      || decide (8 ≤ s.ctl.groups.length) || (allPages.filter s.armed).isEmpty) = true := by
    rcases h with h | h | h | h <;> simp [h]
  unfold State.bindGroup
  rw [if_pos hany]
  rfl

/-- A field of the register set on a condition, before and after other fields of it. -/
theorem State.fld_noteCauses (s : State) (stopped late full empty : Bool) :
    let t := s.noteCauses stopped late full empty
    (stopped = true → t.fld Pg.global Reg.GLOBAL_COMMIT_STOPPED = 1) ∧ (full = true → t.fld Pg.global Reg.GLOBAL_COMMIT_FULL = 1)
      ∧ (empty = true → t.fld Pg.global Reg.GLOBAL_COMMIT_NONE = 1) ∧ (late = true → t.fld Pg.global Reg.GLOBAL_COMMIT_LATE = 1)
      ∧ s.Kept t [keyOf Reg.GLOBAL_COMMIT_REQ Pg.global] := by
  have hset : ∀ (u : State) (f : Fld), f.lo + f.width ≤ 32 → f.width = 1 → (u.setFld Pg.global f 1).fld Pg.global f = 1 := fun u f hf hw => by
    rw [State.fld_setFld_same _ _ _ _ hf, hw]; rfl
  have hkeep : ∀ (u : State) (f g : Fld) (c : Bool), g.lo + g.width ≤ 32 → f.lo + f.width ≤ g.lo ∨ g.lo + g.width ≤ f.lo →
      u.fld Pg.global g = 1 → (if c then u.setFld Pg.global f 1 else u).fld Pg.global g = 1 := fun u f g c hg hd h => by
    split
    · rw [State.fld_setFld_ne _ _ _ _ _ _ hg (.inr hd), h]
    · exact h
  have hk : ∀ (u : State) (f : Fld) (c : Bool), f.off = 0x01C → s.Kept u [keyOf Reg.GLOBAL_COMMIT_REQ Pg.global] →
      s.Kept (if c then u.setFld Pg.global f 1 else u) [keyOf Reg.GLOBAL_COMMIT_REQ Pg.global] := fun u f c hf h =>
    .ite (h.setFld _ (by simp [keyOf, hf])) h
  refine ⟨?_, ?_, ?_, ?_, hk _ _ _ rfl (hk _ _ _ rfl (hk _ _ _ rfl (hk _ _ _ rfl (.refl _ _))))⟩ <;> rintro rfl
  · exact hset _ _ (by decide) rfl
  · exact hkeep _ _ _ _ (by decide) (by decide) (hkeep _ _ _ _ (by decide) (by decide) (hset _ _ (by decide) rfl))
  · exact hkeep _ _ _ _ (by decide) (by decide) (hset _ _ (by decide) rfl)
  · exact hkeep _ _ _ _ (by decide) (by decide) (hkeep _ _ _ _ (by decide) (by decide) (hkeep _ _ _ _ (by decide) (by decide)
      (hset _ _ (by decide) rfl)))

theorem exec_commitReq {p : Nat} (hp : p ≠ Pg.global) {s t : State} {r : Req} {v : Word} (h : writeCommit r p v s = t) :
    exec (.commitReq r p v) s = .next t := by
  have hexec : exec (.commitReq r p v) s = .next (if p = Pg.global then writeGlobalCommit r v s else writeCommit r p v s) := rfl
  rw [hexec, if_neg hp, h]

/-- Settles O12: a request is one of taken, applied, rejected or barred, and a group is bound or refused with its causes. -/
theorem commits : Obligations.Commits := by
  unfold Obligations.Commits
  refine ⟨fun s r p v hp ha hreq hpend hbar href hlater => ?taken, fun s r p v hp ha hreq hpend hbar href hnow hstop => ?applied,
    fun s r p v hp ha hreq hpend hbar => ?pending, fun s r p v hp ha hbar => ?barred, fun s r v ha hreq hrun hfull hany hframe => ?bound,
    fun s r v ha hreq hwhy => ?refused⟩
  case taken =>
    have heq := writeCommit_of_taken rfl ha hreq hpend hbar href
    obtain ⟨-, hrun2⟩ := State.src_of_not_barred hpend hbar
    have hlt : wfld (s.written r p 0x01C v) Reg.COMMON_COMMIT_SOURCE < 4 := Word.bits_lt _ _ _
    generalize wfld (s.written r p 0x01C v) Reg.COMMON_COMMIT_SOURCE = src at *
    have hne : src ≠ 2 := by
      rcases hlater with ⟨h, -⟩ | h
      · omega
      · exact hrun2 h
    have hnot : ¬ ((src = 1 ∨ (src = 0 ∧ isLoupe p = true)) ∧ s.running p = false) := by
      rintro ⟨h1, h2⟩
      rcases hlater with ⟨h, hl⟩ | h
      · rcases h1 with h1 | ⟨-, h1⟩
        · omega
        · simp [hl] at h1
      · simp [h] at h2
    rw [State.commitTake_eq, if_neg hne, if_neg hnot] at heq
    exact ⟨_, exec_commitReq hp heq, State.commitHeld_spec s p hlt⟩
  case applied =>
    have heq := writeCommit_of_taken rfl ha hreq hpend hbar href
    obtain ⟨hne3, -⟩ := State.src_of_not_barred hpend hbar
    have hlt : wfld (s.written r p 0x01C v) Reg.COMMON_COMMIT_SOURCE < 4 := Word.bits_lt _ _ _
    generalize wfld (s.written r p 0x01C v) Reg.COMMON_COMMIT_SOURCE = src at *
    have htake := State.commitTake_touches (s.setFld p Reg.COMMON_COMMIT_SOURCE src) p src
    have hcases : (s.setFld p Reg.COMMON_COMMIT_SOURCE src).commitTake p src = (s.commitHeld p src).commitNow p
        ∨ (s.setFld p Reg.COMMON_COMMIT_SOURCE src).commitTake p src = ((s.commitHeld p src).commitNow p).autoSave 3 := by
      rw [State.commitTake_eq]
      by_cases h2 : src = 2
      · exact .inr (if_pos h2)
      · refine .inl ((if_neg h2).trans (if_pos ⟨?_, hstop⟩))
        rcases hnow with h | h
        · exact .inl (by omega)
        · by_cases h1 : src = 1
          · exact .inl h1
          · exact .inr ⟨by omega, h⟩
    generalize (s.setFld p Reg.COMMON_COMMIT_SOURCE src).commitTake p src = t at heq hcases htake
    obtain ⟨hrd, hp0, hdone, hother, hw⟩ := State.commitTake_applies (lt_of_accepts ha) hcases
    have hto : s.Touches t (.regs :: .ctlSnaps :: .ctlLatches :: rsmParts) :=
      ((State.setFld_touches s p Reg.COMMON_COMMIT_SOURCE src).mono rfl).step htake rfl
    exact ⟨t, exec_commitReq hp heq, hrd, hp0, hdone, hother, hto.eq_mix, hw, hto.keepsBytes rfl⟩
  case pending =>
    have hon : s.on p Reg.COMMON_COMMIT_PENDING = true := (State.on_eq_true _ _ _).2 hpend
    have hsrc : wfld (s.written r p 0x01C v) Reg.COMMON_COMMIT_SOURCE = s.fld p Reg.COMMON_COMMIT_SOURCE := by
      by_contra h
      simp [State.commitBarred, hon, h] at hbar
    have hself := s.writesIn_setFld_self p Reg.COMMON_COMMIT_SOURCE
    have hon' : (s.setFld p Reg.COMMON_COMMIT_SOURCE (s.fld p Reg.COMMON_COMMIT_SOURCE)).on p Reg.COMMON_COMMIT_PENDING = true := by
      rw [State.on_eq_true, hself.fld id, hpend]
    have heq : writeCommit r p v s =
        (s.setFld p Reg.COMMON_COMMIT_SOURCE (s.fld p Reg.COMMON_COMMIT_SOURCE)).raise p Reg.COMMON_EVENT_COMMIT_REJECT := by
      rw [hsrc] at hbar
      rw [writeCommit, withWrite_of_accepts _ ha]
      simp only [hsrc, hreq, decide_true, hbar, hon', Bool.false_eq_true, Bool.true_eq_false, if_false, if_true]
    have hk : s.Kept (s.setFld p Reg.COMMON_COMMIT_SOURCE (s.fld p Reg.COMMON_COMMIT_SOURCE)) [keyOf Reg.COMMON_EVENT_COMMIT_REJECT p] :=
      .of_only (fun a _ => hself a id) ((State.OnlyRegs.refl s).wr _ _)
    have hto := (State.setFld_touches s p Reg.COMMON_COMMIT_SOURCE (s.fld p Reg.COMMON_COMMIT_SOURCE)).mono (l' := [.regs, .ctlLatches]) rfl
    have hto' := hto.step (State.raise_touches _ p Reg.COMMON_EVENT_COMMIT_REJECT) rfl
    refine ⟨_, exec_commitReq hp heq, State.fld_raise_same _ _ _ (by decide) rfl, ?_, ?_, hk.raise (by simp)⟩
    · rw [State.snapOf, hto'.same .ctlSnaps (by decide), State.snapOf]
    · rw [State.fld_raise_ne _ _ _ _ _ (by decide) (.inl (keyOf_ne_of_off (by decide) (by decide) (by decide))), hself.fld id, hpend]
  case barred =>
    refine ⟨_, exec_commitReq hp ?_, s.rejected_reject p⟩
    rw [writeCommit, withWrite_of_accepts _ ha]
    simp only [hbar, if_true]
  case bound =>
    have heq := (writeGlobalCommit_of_accepts ha hreq).trans (State.bindGroup_of_open hrun hfull hany hframe)
    generalize hg : s.ctl.groups ++ [(s.fld64 Pg.global Reg.GLOBAL_COMMIT_FRAME_LO Reg.GLOBAL_COMMIT_FRAME_HI, allPages.filter s.armed)] = g at heq ⊢
    have hlen : g.length = s.ctl.groups.length + 1 := by rw [← hg, List.length_append, List.length_singleton]
    have hne : g.isEmpty = false := by cases g with | nil => simp at hlen | cons => rfl
    generalize hu : ({ s with ctl := { s.ctl with groups := g } } : State) = u at heq
    have hug : u.ctl.groups = g := hu ▸ rfl
    have hregs : u.regs = s.regs := hu ▸ rfl
    refine ⟨_, congrArg Host.Outcome.next heq, hug, ?_, ?_, ?_, ?_, ?_⟩
    · rw [State.showGroups, State.setOn, State.fld_setFld_ne _ _ _ _ _ _ (by decide) (.inr (by decide)),
        State.fld_setFld_of_width _ _ _ _ (by decide) (by simp only [hug, hlen]; omega), hug, hlen]
    · rw [State.showGroups, State.setOn, State.fld_setFld_same _ _ _ _ (by decide), hug, hne]
      rfl
    · rw [← hu]; rfl
    · have hw : s.WritesIn u (· ∈ [keyOf Reg.GLOBAL_COMMIT_REQ Pg.global]) := .of_regs (.refl s _) hregs
      exact (hw.setFld _ (by decide)).setOn _ (by decide)
    · rw [← hu]
      exact .of_same rfl rfl rfl rfl
  case refused =>
    have heq := (writeGlobalCommit_of_accepts ha hreq).trans (State.bindGroup_of_stopped hwhy)
    obtain ⟨h1, h2, h3, h4, hk⟩ := s.fld_noteCauses (!s.takeOrReview)
      (decide (s.fld64 Pg.global Reg.GLOBAL_COMMIT_FRAME_LO Reg.GLOBAL_COMMIT_FRAME_HI < s.frameNow + 2))
      (decide (8 ≤ s.ctl.groups.length)) (allPages.filter s.armed).isEmpty
    have hraise : ∀ (u : State) (f : Fld), f.lo + f.width ≤ 32 → f.off = 0x01C →
        (u.raise Pg.global Reg.COMMON_EVENT_COMMIT_REJECT).fld Pg.global f = u.fld Pg.global f := fun u f hf ho =>
      State.fld_raise_ne _ _ _ _ _ hf (.inl (by simp only [keyOf, ho]; decide))
    refine ⟨_, congrArg Host.Outcome.next heq, fun h => ?_, fun h => ?_, fun h => ?_, fun h => ?_,
      State.fld_raise_same _ _ _ (by decide) rfl, State.Kept.raise (State.Kept.mono hk fun a h => ?_) (by simp)⟩
    · rw [hraise _ _ (by decide) rfl, h1 (by simp [h])]
    · rw [hraise _ _ (by decide) rfl, h2 (by simp [h])]
    · rw [hraise _ _ (by decide) rfl, h3 (by simp [h])]
    · rw [hraise _ _ (by decide) rfl, h4 (by simp [h])]
    · exact List.mem_cons.2 (.inl (List.mem_singleton.1 h))

end Sys2Proof.Machine
end

section
/-! PROOFS. Sensor supplies, host windows and the regulator alert (R468 to R470, R483). -/

set_option Elab.async false

namespace Sys2Proof.Machine

/-! ### The sequence of a port's supplies -/

/-- A port whose delay runs, or whose enables are as asked, does nothing. -/
theorem State.supplyStep_of_waiting {s : State} {k : Nat} (h : s.seqRuns k = true) : s.supplyStep k = s := by
  unfold State.supplyStep
  rw [if_pos h]

theorem State.supplyStep_of_none {s : State} {k : Nat}
    (h : nextEnables (s.on Pg.guard (supplyFlds k).1) (s.fld Pg.guard (supplyFlds k).2.2.1) (s.fld Pg.guard (supplyFlds k).2.1) = none) :
    s.supplyStep k = s := by
  unfold State.supplyStep
  simp only [h]
  split <;> rfl

/-- The next enable of a port changes: it is driven out and the port's delay starts. -/
theorem State.supplyStep_of_some {s : State} {k en : Nat} (hr : s.seqRuns k = false)
    (h : nextEnables (s.on Pg.guard (supplyFlds k).1) (s.fld Pg.guard (supplyFlds k).2.2.1) (s.fld Pg.guard (supplyFlds k).2.1) = some en) :
    s.supplyStep k = ((s.setFld Pg.guard (supplyFlds k).2.1 en).emit (.supply k en)).setSeq k true := by
  unfold State.supplyStep
  simp only [h, hr, Bool.false_eq_true, if_false]

/-- The enables of a port stay a number of four bits. -/
theorem nextEnables_lt {b : Bool} {used en n : Nat} (hen : en < 16) (h : nextEnables b used en = some n) : n < 16 := by
  have hbit : ∀ e, e < 16 → ∀ i, i < 4 → e.testBit i = false → e + 2 ^ i < 16 := by decide
  unfold nextEnables at h
  split at h
  · obtain ⟨i, hi, rfl⟩ := Option.map_eq_some_iff.1 h
    have hmem := List.mem_of_find?_eq_some hi
    have hp := List.find?_some hi
    simp only [Bool.and_eq_true, Bool.not_eq_true'] at hp
    exact hbit en hen i (List.mem_range.1 hmem) hp.2
  · obtain ⟨i, -, rfl⟩ := Option.map_eq_some_iff.1 h
    exact Nat.lt_of_le_of_lt (Nat.sub_le _ _) hen

@[simp] theorem State.setSeq_regs (s : State) (k : Nat) (b : Bool) : (s.setSeq k b).regs = s.regs := by unfold State.setSeq; split <;> rfl
@[simp] theorem State.setSeq_out (s : State) (k : Nat) (b : Bool) : (s.setSeq k b).out = s.out := by unfold State.setSeq; split <;> rfl

theorem State.seqRuns_setSeq (s : State) {k j : Nat} (b : Bool) (hk : k < 2) (hj : j < 2) :
    (s.setSeq k b).seqRuns j = if j = k then b else s.seqRuns j := by
  interval_cases k <;> interval_cases j <;> rfl

theorem supplyFlds_enable {k : Nat} (hk : k < 2) : (supplyFlds k).2.1.off = 0x058 ∧ (supplyFlds k).2.1.width = 4
    ∧ (supplyFlds k).2.1.lo + (supplyFlds k).2.1.width ≤ 32 := by
  interval_cases k <;> decide

/-- A step of a port writes its enables alone. -/
theorem State.writesIn_supplyStep (s : State) {k : Nat} (hk : k < 2) :
    s.WritesIn (s.supplyStep k) (· = keyOf Reg.GUARD_SUPPLY_STATE_ENA Pg.guard) := by
  unfold State.supplyStep
  refine .ite (.refl _ _) ?_
  split
  · exact .refl _ _
  · rename_i en _
    have hset : s.WritesIn (s.setFld Pg.guard (supplyFlds k).2.1 en) (· = keyOf Reg.GUARD_SUPPLY_STATE_ENA Pg.guard) :=
      .setFld (.refl _ _) _ (by simp only [keyOf, (supplyFlds_enable hk).1])
    exact hset.of_regs (State.setSeq_regs _ _ _)

/-- The other port's enables and delay are as before. -/
theorem State.supplyStep_other (s : State) {k j : Nat} (hk : k < 2) (hj : j < 2) (h : j ≠ k) :
    (s.supplyStep k).fld Pg.guard (supplyFlds j).2.1 = s.fld Pg.guard (supplyFlds j).2.1 ∧ (s.supplyStep k).seqRuns j = s.seqRuns j := by
  unfold State.supplyStep
  dsimp only
  split
  · exact ⟨rfl, rfl⟩
  · split
    · exact ⟨rfl, rfl⟩
    · refine ⟨?_, by rw [State.seqRuns_setSeq _ _ hk hj, if_neg h]; rfl⟩
      rw [State.fld_congr (State.setSeq_regs _ _ _), State.fld_emit, State.fld_setFld_ne _ _ _ _ _ _ (supplyFlds_enable hj).2.2]
      interval_cases k <;> interval_cases j <;> first | exact absurd rfl h | exact .inr (by decide)

theorem State.mem_out_supplyStep {s : State} (k : Nat) {o : Out} (h : o ∈ s.out) : o ∈ (s.supplyStep k).out := by
  unfold State.supplyStep
  dsimp only
  split
  · exact h
  · split
    · exact h
    · simpa [State.emit] using List.mem_cons_of_mem _ h

/-- The port's enables and delay after its step. -/
theorem State.supplyStep_self {s : State} {k en : Nat} (hk : k < 2) (hr : s.seqRuns k = false)
    (h : nextEnables (s.on Pg.guard (supplyFlds k).1) (s.fld Pg.guard (supplyFlds k).2.2.1) (s.fld Pg.guard (supplyFlds k).2.1) = some en) :
    (s.supplyStep k).fld Pg.guard (supplyFlds k).2.1 = en ∧ (s.supplyStep k).seqRuns k = true ∧ (s.supplyStep k).out = .supply k en :: s.out := by
  obtain ⟨-, hw, hlo⟩ := supplyFlds_enable hk
  have hen : s.fld Pg.guard (supplyFlds k).2.1 < 16 := by
    have := s.fld_lt Pg.guard (supplyFlds k).2.1
    rwa [hw] at this
  have hlt := nextEnables_lt hen h
  rw [State.supplyStep_of_some hr h]
  refine ⟨?_, by rw [State.seqRuns_setSeq _ _ hk hk, if_pos rfl], by simp [State.emit]⟩
  rw [State.fld_congr (State.setSeq_regs _ _ _), State.fld_emit, State.fld_setFld_of_width _ _ _ _ hlo (by rw [hw]; exact hlt)]

/-! ### The commands -/

/-- A word stored in the SUPPLY_REQ register. -/
theorem State.store_supplyReq (s : State) (w : Word) : s.store Pg.guard 0x054 w = s.wr (Pg.guard * 0x1000 + 0x054) w := by
  have h1 : isLo Pg.guard 0x054 = false := by decide
  have h2 : ¬ (4 ≤ 0x054 ∧ isLo Pg.guard (0x054 - 4) = true) := by decide
  unfold State.store
  simp only [h1, h2, Bool.false_eq_true, if_false]

theorem writeSupplyReq_of_accepts {s : State} {r : Req} {v : Word} (ha : s.accepts r Pg.guard 0x054 v = true) :
    writeSupplyReq r v s = ((s.wr (Pg.guard * 0x1000 + 0x054) (s.written r Pg.guard 0x054 v)).supplyStep 0).supplyStep 1 := by
  have hbank : bankPage r Pg.guard 0x054 = Pg.guard := by cases r <;> rfl
  rw [writeSupplyReq, withWrite_of_accepts _ ha, plainStore, hbank, State.store_supplyReq]

/-- A port's step looks at its own enables, delay, request and lanes alone. -/
theorem State.supplyStep_congr {s u : State} {k : Nat} (hk : k < 2) (hon : u.on Pg.guard (supplyFlds k).1 = s.on Pg.guard (supplyFlds k).1)
    (hused : u.fld Pg.guard (supplyFlds k).2.2.1 = s.fld Pg.guard (supplyFlds k).2.2.1)
    (hen : u.fld Pg.guard (supplyFlds k).2.1 = s.fld Pg.guard (supplyFlds k).2.1) (hrun : u.seqRuns k = s.seqRuns k) :
    (u.supplyStep k).fld Pg.guard (supplyFlds k).2.1 = (s.supplyStep k).fld Pg.guard (supplyFlds k).2.1
      ∧ (u.supplyStep k).seqRuns k = (s.supplyStep k).seqRuns k
      ∧ ∀ en, Out.supply k en ∈ (s.supplyStep k).out → Out.supply k en ∈ s.out ∨ Out.supply k en ∈ (u.supplyStep k).out := by
  cases hr : s.seqRuns k with
  | true =>
    rw [State.supplyStep_of_waiting hr, State.supplyStep_of_waiting (hrun.trans hr)]
    exact ⟨hen, hrun, fun _ h => .inl h⟩
  | false =>
    cases hn : nextEnables (s.on Pg.guard (supplyFlds k).1) (s.fld Pg.guard (supplyFlds k).2.2.1) (s.fld Pg.guard (supplyFlds k).2.1) with
    | none =>
      rw [State.supplyStep_of_none hn, State.supplyStep_of_none (by rw [hon, hused, hen, hn])]
      exact ⟨hen, hrun, fun _ h => .inl h⟩
    | some n =>
      obtain ⟨h1, h2, h3⟩ := State.supplyStep_self hk hr hn
      obtain ⟨h1', h2', h3'⟩ := State.supplyStep_self (s := u) hk (hrun.trans hr) (by rw [hon, hused, hen, hn])
      refine ⟨h1'.trans h1.symm, h2'.trans h2.symm, fun en h => ?_⟩
      rw [h3] at h
      rcases List.mem_cons.1 h with h | h
      · exact .inr (by rw [h3', h]; exact List.mem_cons_self)
      · exact .inl h

/-- Of two steps, each port's enables and delay are those of its own. -/
theorem State.supplySteps_port (s : State) {k : Nat} (hk : k < 2) :
    ((s.supplyStep 0).supplyStep 1).fld Pg.guard (supplyFlds k).2.1 = (s.supplyStep k).fld Pg.guard (supplyFlds k).2.1
      ∧ ((s.supplyStep 0).supplyStep 1).seqRuns k = (s.supplyStep k).seqRuns k
      ∧ ∀ en, Out.supply k en ∈ (s.supplyStep k).out → Out.supply k en ∈ ((s.supplyStep 0).supplyStep 1).out := by
  interval_cases k
  · obtain ⟨h1, h2⟩ := (s.supplyStep 0).supplyStep_other (k := 1) (j := 0) (by decide) (by decide) (by decide)
    exact ⟨h1, h2, fun en h => State.mem_out_supplyStep 1 h⟩
  · obtain ⟨h1, h2⟩ := s.supplyStep_other (k := 0) (j := 1) (by decide) (by decide) (by decide)
    have hw := s.writesIn_supplyStep (k := 0) (by decide)
    have hon : (s.supplyStep 0).on Pg.guard (supplyFlds 1).1 = s.on Pg.guard (supplyFlds 1).1 :=
      congrArg (fun n => decide (n = 1)) (hw.fld (by decide))
    obtain ⟨h3, h4, h5⟩ := State.supplyStep_congr (k := 1) (by decide) hon (hw.fld (by decide)) h1 h2
    refine ⟨h3, h4, fun en h => ?_⟩
    rcases h5 en h with h | h
    · exact State.mem_out_supplyStep 1 (State.mem_out_supplyStep 0 h)
    · exact h

/-- The delay of a port that waits has passed. -/
theorem exec_supplySeqStep {s : State} {k : Nat} (hk : k < 2) (hr : s.seqRuns k = true) :
    exec (.supplySeqStep k) s = .next ((s.setSeq k false).supplyStep k) := by
  have h : exec (.supplySeqStep k) s = .next (if decide (k < 2) && s.seqRuns k then (s.setSeq k false).supplyStep k else s) := rfl
  rw [h, if_pos (by simp [hk, hr])]

theorem writeWindow_of_accepts {s u : State} {r : Req} {o : Nat} {v : Word} (ha : s.accepts r Pg.guard o v = true)
    (hu : u = s.store Pg.guard o (s.written r Pg.guard o v)) :
    writeWindow r o v s = if u.queuesCovered then u else s.reject Pg.guard := by
  have hbank : bankPage r Pg.guard o = Pg.guard := by
    unfold bankPage
    rw [if_neg fun h => absurd h.1 (by decide), if_neg fun h => absurd h.1 (by decide)]
  rw [writeWindow, withWrite_of_accepts _ ha]
  simp only [plainStore, hbank, ← hu]

theorem exec_guardWindowWrite {s : State} {r : Req} {o : Nat} {v : Word} (ho : isWindow o = true) (ha : o % 4 = 0) :
    exec (.guardWindowWrite r o v) s = .next (writeWindow r o v s) := by
  have h : exec (.guardWindowWrite r o v) s = .next (if isWindow o && decide (o % 4 = 0) then writeWindow r o v s else s) := rfl
  rw [h, if_pos (by simp [ho, ha])]

/-- Settles O42: each port's step is one change of its enables, and a window is stored only if every queue stays covered. -/
theorem fieldStop : Obligations.FieldStop := by
  unfold Obligations.FieldStop
  refine ⟨fun s r v w ha hw => ?request, fun s k en hk hr hn => ?step, fun s k hk hr hn => ?last, fun s u r o v ho ha hacc hu => ?window,
    fun s hs => ?alert⟩
  case request =>
    have heq := writeSupplyReq_of_accepts ha
    rw [← hw] at heq
    have hrd : ∀ f : Fld, f.off = 0x054 → (s.wr (Pg.guard * 0x1000 + 0x054) w).fld Pg.guard f = wfld w f := fun f hf => by
      have hk : keyOf f Pg.guard = Pg.guard * 0x1000 + 0x054 := by simp only [keyOf, hf]
      rw [State.fld, hk, State.rd_wr_same]
      rfl
    have hother : ∀ f : Fld, keyOf f Pg.guard ≠ Pg.guard * 0x1000 + 0x054 →
        (s.wr (Pg.guard * 0x1000 + 0x054) w).fld Pg.guard f = s.fld Pg.guard f := fun f hf => State.fld_of_rd (State.rd_wr_ne _ _ _ _ hf)
    have hto : s.Touches (s.wr (Pg.guard * 0x1000 + 0x054) w) [.out, .regs, .pwrSeqA, .pwrSeqB] := (State.wr_touches ..).mono rfl
    have hwr : s.WritesIn (s.wr (Pg.guard * 0x1000 + 0x054) w)
        (· ∈ [keyOf Reg.GUARD_SUPPLY_REQ_ONA Pg.guard, keyOf Reg.GUARD_SUPPLY_STATE_ENA Pg.guard]) := .wr (.refl _ _) _ (by decide)
    have hseq : ∀ k, (s.wr (Pg.guard * 0x1000 + 0x054) w).seqRuns k = s.seqRuns k := fun k => rfl
    generalize s.wr (Pg.guard * 0x1000 + 0x054) w = y at *
    have hports := fun k hk => y.supplySteps_port (k := k) hk
    have h0 := y.writesIn_supplyStep (k := 0) (by decide)
    have h1 := (y.supplyStep 0).writesIn_supplyStep (k := 1) (by decide)
    have hto2 := (hto.step (State.supplyStep_touches y 0) rfl).step (State.supplyStep_touches _ 1) rfl
    have hen : ∀ k, k < 2 → y.fld Pg.guard (supplyFlds k).2.1 = s.fld Pg.guard (supplyFlds k).2.1 := fun k hk => by
      interval_cases k <;> exact hother _ (by decide)
    have hnext : ∀ k, k < 2 → nextEnables (y.on Pg.guard (supplyFlds k).1) (y.fld Pg.guard (supplyFlds k).2.2.1)
        (y.fld Pg.guard (supplyFlds k).2.1) = nextEnables (decide (wfld w (supplyFlds k).1 = 1)) (s.fld Pg.guard (supplyFlds k).2.2.1)
        (s.fld Pg.guard (supplyFlds k).2.1) := fun k hk => by
      have hused : y.fld Pg.guard (supplyFlds k).2.2.1 = s.fld Pg.guard (supplyFlds k).2.2.1 := by
        interval_cases k <;> exact hother _ (by decide)
      have hreq : y.fld Pg.guard (supplyFlds k).1 = wfld w (supplyFlds k).1 := by
        interval_cases k <;> exact hrd _ rfl
      rw [hen k hk, hused, State.on, hreq]
    refine ⟨_, congrArg Host.Outcome.next heq, ?_, ?_, fun k hk hr => ?_, fun k en hk hr hn => ?_, fun k hk hr hn => ?_, hto2.eq_mix,
      (hwr.trans ?_).keepsRegs⟩
    · rw [h1.fld (by decide), h0.fld (by decide), hrd _ rfl]
    · rw [h1.fld (by decide), h0.fld (by decide), hrd _ rfl]
    · rw [(hports k hk).1, State.supplyStep_of_waiting ((hseq k).trans hr), hen k hk]
    · obtain ⟨a, b, c⟩ := State.supplyStep_self hk ((hseq k).trans hr) ((hnext k hk).trans hn)
      obtain ⟨a', b', c'⟩ := hports k hk
      exact ⟨a'.trans a, b'.trans b, c' en (c ▸ List.mem_cons_self)⟩
    · obtain ⟨a', b', -⟩ := hports k hk
      rw [State.supplyStep_of_none ((hnext k hk).trans hn)] at a' b'
      exact ⟨a'.trans (hen k hk), b'.trans ((hseq k).trans hr)⟩
    · intro a ha
      rw [h1 a fun h => ha (by simp [h]), h0 a fun h => ha (by simp [h])]
  case step =>
    have hk1 : 1 - k < 2 := by omega
    have hne : 1 - k ≠ k := by omega
    have hr' : (s.setSeq k false).seqRuns k = false := by rw [State.seqRuns_setSeq _ _ hk hk, if_pos rfl]
    have hfld : ∀ f, (s.setSeq k false).fld Pg.guard f = s.fld Pg.guard f := fun f => State.fld_congr (State.setSeq_regs _ _ _) _ _
    have hn' : nextEnables ((s.setSeq k false).on Pg.guard (supplyFlds k).1) ((s.setSeq k false).fld Pg.guard (supplyFlds k).2.2.1)
        ((s.setSeq k false).fld Pg.guard (supplyFlds k).2.1) = some en := by
      rw [State.on, hfld, hfld, hfld]; exact hn
    obtain ⟨hself, hruns, hout⟩ := State.supplyStep_self hk hr' hn'
    obtain ⟨hoth, hothrun⟩ := (s.setSeq k false).supplyStep_other hk hk1 hne
    rw [State.seqRuns_setSeq _ _ hk hk1, if_neg hne] at hothrun
    rw [State.setSeq_out] at hout
    have hto : s.Touches ((s.setSeq k false).supplyStep k) [.pwrSeqA, .pwrSeqB, .out, .regs] :=
      .step ((State.setSeq_touches ..).mono rfl) (State.supplyStep_touches ..) rfl
    have hw := (State.WritesIn.of_regs (.refl s (· = keyOf Reg.GUARD_SUPPLY_STATE_ENA Pg.guard)) (s.setSeq_regs k false)).trans
      ((s.setSeq k false).writesIn_supplyStep hk)
    have heq := exec_supplySeqStep hk hr
    generalize (s.setSeq k false).supplyStep k = t at *
    have hboth : t.pwr.seqA = s.pwr.seqA ∧ t.pwr.seqB = s.pwr.seqB := by
      interval_cases k
      · exact ⟨hruns.trans hr.symm, hothrun⟩
      · exact ⟨hothrun, hruns.trans hr.symm⟩
    have hto' : s.Touches t [.out, .regs] := (hto.drop hboth.1).drop hboth.2
    refine ⟨t, heq, hself, hoth.trans (hfld _), ?_, hw.keepsReg⟩
    rw [← hout]
    exact hto'.eq_mix
  case last =>
    have hk1 : 1 - k < 2 := by omega
    have hne : 1 - k ≠ k := by omega
    have hfld : ∀ f, (s.setSeq k false).fld Pg.guard f = s.fld Pg.guard f := fun f => State.fld_congr (State.setSeq_regs _ _ _) _ _
    have heq := exec_supplySeqStep hk hr
    rw [State.supplyStep_of_none (by rw [State.on, hfld, hfld, hfld]; exact hn)] at heq
    exact ⟨_, heq, by rw [State.seqRuns_setSeq _ _ hk hk, if_pos rfl], by rw [State.seqRuns_setSeq _ _ hk hk1, if_neg hne],
      (s.setSeq_touches k false).eq_mix⟩
  case window =>
    have heq := (exec_guardWindowWrite ho ha).trans (congrArg Host.Outcome.next (writeWindow_of_accepts hacc hu))
    refine ⟨fun hc => ?_, fun hc => ⟨s.reject Pg.guard, ?_, s.rejected_reject _⟩⟩
    · rw [heq, if_pos hc]
    · rw [heq, if_neg (by simp [hc])]
  case alert =>
    have heq : exec .vrAlert s = .next (s.raise Pg.pwr Reg.COMMON_EVENT_PWR_REFUSED) := congrArg Host.Outcome.next (if_neg hs)
    exact ⟨_, heq, State.fld_raise_same _ _ _ (by decide) rfl, (State.Kept.refl s _).raise (by simp)⟩

end Sys2Proof.Machine
end

section
/-! PROOFS. Trigger edges (R394 to R397, R479, R498). -/

set_option Elab.async false

namespace Sys2Proof.Machine

/-! ### A register pair -/

/-- A 64-bit pair read after it is set. -/
theorem State.fld64_setFld64 (s : State) {p : Nat} {lo hi : Fld} (v : Nat) (hlo : lo.lo + lo.width ≤ 32) (hhi : hi.lo + hi.width ≤ 32)
    (hw : lo.width = 32) (hw' : hi.width = 32) (hne : keyOf lo p ≠ keyOf hi p) : (s.setFld64 p lo hi v).fld64 p lo hi = v % 2 ^ 64 := by
  rw [State.fld64, State.setFld64, State.fld_setFld_same _ _ hi _ hhi, State.fld_setFld_ne _ _ _ _ _ _ hlo (.inl hne),
    State.fld_setFld_same _ _ _ _ hlo, hw, hw']
  omega

/-- A 64-bit pair in other registers than those written. -/
theorem State.WritesIn.fld64 {s t : State} {P : Nat → Prop} (h : s.WritesIn t P) {p : Nat} {lo hi : Fld} (hlo : ¬ P (keyOf lo p))
    (hhi : ¬ P (keyOf hi p)) : t.fld64 p lo hi = s.fld64 p lo hi := by
  rw [State.fld64, State.fld64, h.fld hlo, h.fld hhi]

/-! ### The edges of a pin -/

/-- The guard of an edge: the pin is driven, the schedule armed and the Collimator enabled. -/
def State.edgeOpen (s : State) (pin : Nat) : Prop :=
  pin < 2 ∧ s.pinOn pin = true ∧ s.fld Pg.trig Reg.TRIG_STATE_PHASE ≠ 0 ∧ s.on Pg.coll Reg.COLL_CTRL_ENABLE = true

theorem State.edgeOpen.not_closed {s : State} {pin : Nat} (h : s.edgeOpen pin) :
    ¬ (2 ≤ pin ∨ s.pinOn pin = false ∨ s.fld Pg.trig Reg.TRIG_STATE_PHASE = 0 ∨ s.on Pg.coll Reg.COLL_CTRL_ENABLE = false) := by
  obtain ⟨hp, hon, hph, hen⟩ := h
  simp only [hon, hen, Bool.true_eq_false, or_false, false_or]
  omega

/-- The point of a fenced schedule passes. -/
theorem State.triggerEdge_of_fenced {s : State} {pin : Nat} (h : s.edgeOpen pin) (hf : s.on Pg.trig Reg.TRIG_STATE_FENCED = true) :
    s.triggerEdge pin = if s.leading pin then
        (s.setTrig (s.trig.setPin pin { s.trig.pin pin with next := (s.trig.pin pin).next + 1 })).count Pg.trig Reg.TRIG_SKIPPED
      else s.setTrig (s.trig.setPin pin { s.trig.pin pin with next := (s.trig.pin pin).next + 1 }) := by
  unfold State.triggerEdge
  rw [if_neg h.not_closed]
  simp only [hf, if_true]

/-- A point before the minimum period has passed is suppressed. -/
theorem State.triggerEdge_of_early {s : State} {pin l : Nat} (h : s.edgeOpen pin) (hf : s.on Pg.trig Reg.TRIG_STATE_FENCED = false)
    (hl : (s.trig.pin pin).last = some l)
    (hlt : ((s.exposureAt (s.trig.pin pin).next : Int) + s.edgeShift pin).toNat < l + s.minPeriod * tickNs) :
    s.triggerEdge pin =
      ((s.setTrig (s.trig.setPin pin { s.trig.pin pin with next := (s.trig.pin pin).next + 1 })).count Pg.trig Reg.TRIG_SUPPRESSED).raise
        Pg.trig Reg.TRIG_EVENT_SUPPRESSED := by
  unfold State.triggerEdge
  rw [if_neg h.not_closed]
  dsimp only
  generalize tickNs = k at *
  generalize ((s.exposureAt (s.trig.pin pin).next : Int) + s.edgeShift pin).toNat = due at *
  rw [hf, if_neg Bool.false_ne_true, hl, Option.any_some, decide_eq_true hlt, if_pos rfl]

/-- The state once a pin has risen at its time. -/
def State.risen (s : State) (pin due : Nat) (high : Nat) : State :=
  (s.setTrig (s.trig.setPin pin ⟨(s.trig.pin pin).next + 1, some due, some high⟩)).emit (.trigger pin true (placeEdge due))

/-- The leading pin counts the trigger and records its exposure. -/
def State.issued (s : State) (j e : Nat) : State :=
  ((({ s with exposures := (j, Time.ofTicks e) :: s.exposures } : State).setFld64 Pg.trig Reg.TRIG_ISSUED_LO Reg.TRIG_ISSUED_HI
    (j + 1)).setFld Pg.trig Reg.TRIG_STATE_PHASE 2).raiseIf (decide (j = 0)) Pg.trig Reg.TRIG_EVENT_FIRST

theorem State.triggerEdge_of_due {s : State} {pin due period : Nat} (h : s.edgeOpen pin) (hf : s.on Pg.trig Reg.TRIG_STATE_FENCED = false)
    (hdue : due = ((s.exposureAt (s.trig.pin pin).next : Int) + s.edgeShift pin).toNat)
    (hper : period = (match (s.trig.pin pin).last with | some l => due - l | none => s.minPeriod * tickNs))
    (hok : ∀ l, (s.trig.pin pin).last = some l → l + s.minPeriod * tickNs ≤ due) :
    s.triggerEdge pin = if s.leading pin then
        (s.risen pin due (due + s.pulseWidth period * tickNs)).issued (s.fld64 Pg.trig Reg.TRIG_ISSUED_LO Reg.TRIG_ISSUED_HI)
          (s.exposureAt (s.trig.pin pin).next)
      else s.risen pin due (due + s.pulseWidth period * tickNs) := by
  unfold State.triggerEdge State.risen
  rw [if_neg h.not_closed]
  generalize tickNs = k at *
  dsimp only
  rw [← hdue]
  clear hdue
  have hnot : (s.trig.pin pin).last.any (fun l => decide (due < l + s.minPeriod * k)) = false := by
    cases hl : (s.trig.pin pin).last with
    | none => rfl
    | some l => rw [Option.any_some, decide_eq_false (Nat.not_lt.2 (hok l hl))]
  rw [hf, if_neg Bool.false_ne_true, hnot, if_neg Bool.false_ne_true, hper]
  rfl

theorem State.risen_touches (s : State) (pin due high : Nat) : s.Touches (s.risen pin due high) [.out, .trig] := .of_mix rfl rfl

theorem State.issued_touches (s : State) (j e : Nat) : s.Touches (s.issued j e) [.regs, .ctlLatches, .exposures] := by
  have h : s.Touches { s with exposures := (j, Time.ofTicks e) :: s.exposures } [.regs, .ctlLatches, .exposures] := .of_mix rfl rfl
  exact .step (.step (.step h (State.setFld64_touches ..) rfl) (State.setFld_touches ..) rfl) (State.raiseIf_touches ..) rfl

theorem State.writesIn_issued (s : State) (j e : Nat) : s.WritesIn (s.issued j e) (onPages [Pg.trig]) := by
  have hp : ∀ f : Fld, f.off < 0x1000 → onPages [Pg.trig] (keyOf f Pg.trig) := fun f hf => onPages_keyOf hf (by decide)
  have h : s.WritesIn ({ s with exposures := (j, Time.ofTicks e) :: s.exposures } : State) (onPages [Pg.trig]) := .of_regs (.refl s _) rfl
  exact ((h.setFld64 _ (hp _ (by decide)) (hp _ (by decide))).setFld _ (hp _ (by decide))).raiseIf (hp _ (by decide))

/-- The count, the phase and the event of a trigger that is issued. -/
theorem State.fld_issued (s : State) (j e : Nat) :
    (s.issued j e).fld64 Pg.trig Reg.TRIG_ISSUED_LO Reg.TRIG_ISSUED_HI = (j + 1) % 2 ^ 64 ∧ (s.issued j e).fld Pg.trig Reg.TRIG_STATE_PHASE = 2
      ∧ (j = 0 → (s.issued j e).fld Pg.trig Reg.TRIG_EVENT_FIRST = 1) := by
  have hraise : ∀ (u : State) (c : Bool), u.WritesIn (u.raiseIf c Pg.trig Reg.TRIG_EVENT_FIRST)
      (· = keyOf Reg.TRIG_EVENT_FIRST Pg.trig) := fun u c => .raiseIf (.refl _ _) rfl
  have hset : ∀ (u : State), u.WritesIn (u.setFld Pg.trig Reg.TRIG_STATE_PHASE 2) (· = keyOf Reg.TRIG_STATE_PHASE Pg.trig) :=
    fun u => .setFld (.refl _ _) _ rfl
  refine ⟨?_, ?_, fun h => ?_⟩
  · rw [State.issued, (hraise _ _).fld64 (by decide) (by decide), (hset _).fld64 (by decide) (by decide),
      State.fld64_setFld64 _ _ (by decide) (by decide) rfl rfl (by decide)]
  · rw [State.issued, (hraise _ _).fld (by decide)]
    exact State.fld_setFld_same _ _ _ _ (by decide)
  · rw [State.issued, h, decide_eq_true rfl, State.raiseIf, if_pos rfl]
    exact State.fld_raise_same _ _ _ (by decide) rfl

theorem State.exposures_issued (s : State) (j e : Nat) : (s.issued j e).exposures = (j, Time.ofTicks e) :: s.exposures := by
  have h (u : State) : u.Touches (((u.setFld64 Pg.trig Reg.TRIG_ISSUED_LO Reg.TRIG_ISSUED_HI (j + 1)).setFld Pg.trig Reg.TRIG_STATE_PHASE
      2).raiseIf (decide (j = 0)) Pg.trig Reg.TRIG_EVENT_FIRST) [.regs, .ctlLatches] :=
    .step (.step ((State.setFld64_touches ..).mono rfl) (State.setFld_touches ..) rfl) (State.raiseIf_touches ..) rfl
  exact (h { s with exposures := (j, Time.ofTicks e) :: s.exposures }).same .exposures (by decide)

/-- A pin that goes on to its next point. -/
def State.passed (s : State) (pin : Nat) : State :=
  s.setTrig (s.trig.setPin pin { s.trig.pin pin with next := (s.trig.pin pin).next + 1 })

theorem State.passed_touches (s : State) (pin : Nat) : s.Touches (s.passed pin) [.trig] := .of_mix rfl rfl

/-- Settles O55: an edge is issued, skipped or suppressed, each by its equation. -/
theorem triggers : Obligations.Triggers := by
  unfold Obligations.Triggers
  refine ⟨fun s pin e due period x hp hon hph hen hx he hdue hper => ⟨fun hf hok => ?due, fun hf => ?fenced, fun l hf hl hlt => ?early⟩,
    fun s pin e hp hh => ?pulse⟩
  case pulse =>
    have h : s.pulseEnd pin =
        (s.setTrig (s.trig.setPin pin { s.trig.pin pin with high := none })).emit (.trigger pin false (placeEdge e)) := by
      unfold State.pulseEnd
      simp only [hh]
      exact if_neg (by omega)
    exact congrArg Host.Outcome.next h
  all_goals
    subst hx he
    have hopen : s.edgeOpen pin := ⟨hp, hon, hph, hen⟩
  case due =>
    have heq := State.triggerEdge_of_due hopen hf hdue hper hok
    generalize due + s.pulseWidth period * tickNs = high at heq ⊢
    have hrise := s.risen_touches pin due high
    have hregs := hrise.same .regs (by decide)
    cases hlead : s.leading pin with
    | true =>
      rw [hlead, if_pos rfl] at heq
      generalize s.fld64 Pg.trig Reg.TRIG_ISSUED_LO Reg.TRIG_ISSUED_HI = j at heq ⊢
      have hiss := State.issued_touches (s.risen pin due high) j (s.exposureAt (s.trig.pin pin).next)
      have hto : s.Touches _ [.regs, .ctlLatches, .out, .trig, .exposures] := .step (hrise.mono rfl) hiss rfl
      obtain ⟨hcount, hphase, hfirst⟩ := (s.risen pin due high).fld_issued j (s.exposureAt (s.trig.pin pin).next)
      have hw : s.WritesIn _ (onPages [Pg.trig]) := (State.WritesIn.of_regs (.refl s _) hregs).trans
        (State.writesIn_issued (s.risen pin due high) j (s.exposureAt (s.trig.pin pin).next))
      exact ⟨_, congrArg Host.Outcome.next heq, hiss.same .out (by decide), hiss.same .trig (by decide),
        fun _ => ⟨State.exposures_issued .., hcount, hphase, hfirst⟩, Bool.noConfusion, hto.eq_mix, hw.keepsPages, hto.keepsBytes rfl⟩
    | false =>
      rw [hlead, if_neg Bool.false_ne_true] at heq
      exact ⟨_, congrArg Host.Outcome.next heq, rfl, rfl, Bool.noConfusion, fun _ => ⟨hregs, hrise.same .exposures (by decide)⟩,
        (hrise.mono (l' := [.regs, .ctlLatches, .out, .trig, .exposures]) rfl).eq_mix, (State.WritesIn.of_regs (.refl s _) hregs).keepsPages,
        hrise.keepsBytes rfl⟩
  case fenced =>
    have heq : s.triggerEdge pin = if s.leading pin then (s.passed pin).count Pg.trig Reg.TRIG_SKIPPED else s.passed pin :=
      State.triggerEdge_of_fenced hopen hf
    have hpass := s.passed_touches pin
    have hto : s.Touches (s.triggerEdge pin) [.regs, .trig] :=
      heq ▸ .ite (.step (hpass.mono rfl) (State.count_touches ..) rfl) (hpass.mono rfl)
    have hw : s.WritesIn (s.triggerEdge pin) (· = keyOf Reg.TRIG_SKIPPED Pg.trig) := by
      have h : s.WritesIn (s.passed pin) (· = keyOf Reg.TRIG_SKIPPED Pg.trig) := .of_regs (.refl s _) rfl
      exact heq ▸ .ite (h.count rfl) h
    refine ⟨_, rfl, ?_, fun hlead => ?_, fun hlead => ?_, hto.eq_mix, hw.keepsReg, hto.keepsBytes rfl⟩
    · rw [heq]
      split <;> rfl
    · rw [heq, if_pos hlead, State.fld_count_same _ _ _ (by decide)]
      rfl
    · rw [heq, if_neg (by simp [hlead])]
      rfl
  case early =>
    have heq : s.triggerEdge pin = ((s.passed pin).count Pg.trig Reg.TRIG_SUPPRESSED).raise Pg.trig Reg.TRIG_EVENT_SUPPRESSED :=
      State.triggerEdge_of_early hopen hf hl (hdue ▸ hlt)
    have hto : s.Touches (((s.passed pin).count Pg.trig Reg.TRIG_SUPPRESSED).raise Pg.trig Reg.TRIG_EVENT_SUPPRESSED)
        [.regs, .ctlLatches, .trig] :=
      .step (.step ((s.passed_touches pin).mono rfl) (State.count_touches ..) rfl) (State.raise_touches ..) rfl
    have hpass : s.WritesIn (s.passed pin) (· ∈ [keyOf Reg.TRIG_SUPPRESSED Pg.trig, keyOf Reg.TRIG_EVENT_SUPPRESSED Pg.trig]) :=
      .of_regs (.refl s _) rfl
    have hw := State.WritesIn.raise (e := Reg.TRIG_EVENT_SUPPRESSED) (p := Pg.trig) (State.WritesIn.count (p := Pg.trig) (f := Reg.TRIG_SUPPRESSED) hpass (by simp)) (by simp)
    refine ⟨_, congrArg Host.Outcome.next heq, ?_, ?_, State.fld_raise_same _ _ _ (by decide) rfl, hto.eq_mix, hw.keepsRegs,
      hto.keepsBytes rfl⟩
    · exact (State.Touches.step (l := [.regs, .ctlLatches]) ((State.count_touches ..).mono rfl) (State.raise_touches ..) rfl).same .trig
        (by decide)
    · rw [State.fld_raise_ne _ _ _ _ _ (by decide) (.inl (by decide)), State.fld_count_same _ _ _ (by decide)]
      rfl

end Sys2Proof.Machine
end

section
/-! PROOFS. The time counter: snapshot, setting and the sync pins (R375 to R378, R400, R401). -/

set_option Elab.async false

namespace Sys2Proof.Machine

/-! ### Fields of a word that is stored -/

theorem State.fld_wr_same (s : State) {p a : Nat} {f : Fld} (w : Word) (h : keyOf f p = a) : (s.wr a w).fld p f = wfld w f := by
  subst h
  rw [State.fld, State.rd_wr_same]
  rfl

theorem State.fld_wr_ne (s : State) {p a : Nat} {f : Fld} (w : Word) (h : keyOf f p ≠ a) : (s.wr a w).fld p f = s.fld p f :=
  State.fld_of_rd (State.rd_wr_ne _ _ _ _ h)

theorem State.on_congr {s t : State} (h : t.regs = s.regs) (p : Nat) (f : Fld) : t.on p f = s.on p f := by
  rw [State.on, State.fld_congr h, State.on]

/-! ### Registers of the Collimator -/

theorem State.writesIn_setRate (s : State) (a : Int) : s.WritesIn (s.setRate a)
    (· ∈ [keyOf Reg.COLL_INC_NS Pg.coll, keyOf Reg.COLL_INC_FRAC Pg.coll, keyOf Reg.COLL_FREQ Pg.coll]) :=
  State.WritesIn.setFld (State.WritesIn.setFld (State.WritesIn.setFld (.refl s _) _ (by decide)) _ (by decide)) _ (by decide)

/-- What a step of the servo writes. -/
def slewKeys : List Nat := [keyOf Reg.COLL_INC_NS Pg.coll, keyOf Reg.COLL_INC_FRAC Pg.coll, keyOf Reg.COLL_FREQ Pg.coll,
  keyOf Reg.COLL_EVENT_RANGE_LIMIT Pg.coll]

theorem State.writesIn_slew (s : State) (theta log : Int) : s.WritesIn (s.slew theta log) (· ∈ slewKeys) := by
  have hc : ∀ c, s.WritesIn (s.setColl c) (· ∈ slewKeys) := fun c => .of_regs (.refl s _) rfl
  exact State.WritesIn.raiseIf ((hc _).trans ((State.writesIn_setRate _ _).mono fun a h => List.mem_append_left [keyOf Reg.COLL_EVENT_RANGE_LIMIT Pg.coll] h)) (by decide)

theorem mem_slewKeys_onPages {a : Nat} (h : a ∈ slewKeys) : onPages [Pg.coll] a := by
  have : ∀ b ∈ slewKeys, b / 0x1000 % 1024 ∈ [Pg.coll] := by decide
  exact this a h

/-- A step of the servo moves F. -/
theorem State.coll_slew (s : State) (theta log : Int) : (s.slew theta log).coll = { s.coll with
    f := clampAbs s.rateLimit (s.coll.f + theta * 2 ^ (-log).toNat * 2 ^ (15 - s.fld Pg.coll Reg.COLL_SERVO_CFG_KI)) } := by
  unfold State.slew
  exact State.raiseIf_coll ..

/-- An event that is set stays set while the servo steps. -/
theorem State.fld_slew_of_one {s : State} {theta log : Int} {g : Fld} (hg : g.width = 1) (hlo : g.lo < 32)
    (hk : keyOf g Pg.coll ∉ [keyOf Reg.COLL_INC_NS Pg.coll, keyOf Reg.COLL_INC_FRAC Pg.coll, keyOf Reg.COLL_FREQ Pg.coll])
    (h : s.fld Pg.coll g = 1) : (s.slew theta log).fld Pg.coll g = 1 := by
  unfold State.slew
  exact State.fld_raiseIf_of_one rfl hg (((State.writesIn_setRate _ _).fld hk).trans h) hlo

theorem State.rateLimit_congr {s t : State} (h : t.fld Pg.coll Reg.COLL_SERVO_CFG_RANGE = s.fld Pg.coll Reg.COLL_SERVO_CFG_RANGE) :
    t.rateLimit = s.rateLimit := by rw [State.rateLimit, h, State.rateLimit]

/-! ### Realigning after a step of the time -/

/-- Engine `n` realigns at its next sample point if it runs with LOCK 0. -/
def State.markRealign (s : State) (n : Nat) : State :=
  if s.running (Pg.loupe n) ∧ s.locks n = false then { s with loupe := s.loupe.put n { s.loupe.get n with realign := true } } else s

theorem State.stepTo_eq (s : State) (t : Time) : s.stepTo t =
    ([0, 1, 2, 3].foldl State.markRealign { s with time := t, coll := { s.coll with sync := none, t3 := none } }).raise Pg.coll
      Reg.COLL_EVENT_TIME_STEPPED := rfl

theorem State.markRealign_touches (s : State) (n : Nat) : s.Touches (s.markRealign n) [.loupe] := .ite (.of_mix rfl rfl) (.refl ..)

theorem State.markRealign_engine (s : State) (n m : Nat) (h : m ≠ n) : (s.markRealign n).engine m = s.engine m := by
  unfold State.markRealign State.engine
  split
  · exact Tbl.get_put_ne _ _ _ _ h
  · rfl

theorem State.markRealign_self {s : State} {n : Nat} (hr : s.running (Pg.loupe n) = true) (hl : s.locks n = false) :
    ((s.markRealign n).engine n).realign = true := by
  unfold State.markRealign State.engine
  rw [if_pos ⟨hr, hl⟩, Tbl.get_put_same]

theorem pageBlk_loupe {n : Nat} (h : n < 4) : pageBlk (Pg.loupe n) = some (.loupe, n) := by
  interval_cases n <;> decide

/-- An output engine runs by its own ENABLE and the mode. -/
theorem State.running_loupe (s : State) {n : Nat} (h : n < 4) :
    s.running (Pg.loupe n) = (outputMode s.ctl.mode && s.on (Pg.loupe n) Reg.COMMON_CTRL_ENABLE) := by
  rw [State.running, pageBlk_loupe h]

theorem State.realign_fold {s : State} {l : List Nat} {n : Nat} (hn : n ∈ l) (hnd : l.Nodup) (hn4 : n < 4)
    (hr : s.running (Pg.loupe n) = true) (hl : s.locks n = false) : ((l.foldl State.markRealign s).engine n).realign = true := by
  have hkeep : ∀ (l : List Nat) (u : State), n ∉ l → (l.foldl State.markRealign u).engine n = u.engine n := fun l => by
    induction l with
    | nil => exact fun _ _ => rfl
    | cons m l ih =>
      exact fun u h => (ih _ fun hm => h (List.mem_cons_of_mem _ hm)).trans
        (State.markRealign_engine u m n fun e => h (e ▸ List.mem_cons_self))
  induction l generalizing s with
  | nil => exact absurd hn List.not_mem_nil
  | cons m l ih =>
    obtain ⟨hm, hnd'⟩ := List.nodup_cons.1 hnd
    rw [List.foldl_cons]
    rcases List.mem_cons.1 hn with rfl | hn'
    · rw [hkeep l _ hm]
      exact State.markRealign_self hr hl
    · have hregs := (s.markRealign_touches m).same .regs (by decide)
      have hmode := (s.markRealign_touches m).same .ctlMode (by decide)
      refine ih hn' hnd' ?_ ?_
      · rw [State.running_loupe _ hn4, State.on_congr hregs, hmode, ← State.running_loupe _ hn4, hr]
      · rw [State.locks, State.on_congr hregs]; exact hl

theorem State.writesIn_stepTo (s : State) (t : Time) : s.WritesIn (s.stepTo t) (· = keyOf Reg.COLL_EVENT_TIME_STEPPED Pg.coll) := by
  have hmark : ∀ u : State, ([0, 1, 2, 3].foldl State.markRealign u).regs = u.regs := fun u =>
    (State.Touches.foldl (.refl u [.loupe]) (fun u n => u.markRealign_touches n) _).same .regs (by decide)
  have h : s.WritesIn ([0, 1, 2, 3].foldl State.markRealign { s with time := t, coll := { s.coll with sync := none, t3 := none } })
      (· = keyOf Reg.COLL_EVENT_TIME_STEPPED Pg.coll) := .of_regs (.refl s _) (hmark _)
  rw [State.stepTo_eq]
  exact h.raise rfl

/-- The time, the timestamps, the event and the engines after a step of the time. -/
theorem State.stepTo_effect (s : State) (t : Time) : (s.stepTo t).time = t ∧ (s.stepTo t).coll = { s.coll with sync := none, t3 := none }
    ∧ (s.stepTo t).fld Pg.coll Reg.COLL_EVENT_TIME_STEPPED = 1
    ∧ ∀ n, n < 4 → s.running (Pg.loupe n) = true → s.locks n = false → ((s.stepTo t).engine n).realign = true := by
  rw [State.stepTo_eq]
  have hto : ∀ u : State, u.Touches ([0, 1, 2, 3].foldl State.markRealign u) [.loupe] :=
    fun u => .foldl (.refl ..) (fun u n => u.markRealign_touches n) _
  refine ⟨?_, ?_, State.fld_raise_same _ _ _ (by decide) rfl, fun n hn hr hl => ?_⟩
  · rw [State.raise_time]
    exact (hto _).same .time (by decide)
  · rw [State.raise_coll]
    have h := (hto { s with time := t, coll := { s.coll with sync := none, t3 := none } }).eq_mix
    exact congrArg State.coll h
  · rw [State.engine, State.raise_loupe]
    refine State.realign_fold (by interval_cases n <;> decide) (by decide) hn ?_ hl
    rw [State.running_loupe _ hn] at hr ⊢
    exact hr

/-! ### A write of COLL.CTRL -/

/-- A write that neither turns ENABLE off nor is barred, and that stops no servo. -/
theorem writeCollCtrl_of_accepts {s : State} {r : Req} {v w : Word} (ha : s.accepts r Pg.coll 0x008 v = true)
    (hw : w = s.written r Pg.coll 0x008 v) (hen : wfld w Reg.COLL_CTRL_ENABLE = 1) (hsel : wmSel v Reg.COLL_CTRL_ENABLE = false)
    (hset : wmSet v Reg.COLL_CTRL_SET = true → r ≠ .pf1 → s.setBarred = false)
    (hservo : wfld w Reg.COLL_CTRL_PTP_EN = 1 ∨ s.servo = 0) :
    ∃ u : State, s.Touches u [.regs] ∧ s.WritesIn u (· = keyOf Reg.COLL_CTRL_ENABLE Pg.coll) ∧
      writeCollCtrl r v s =
        let s3 := if wmSet v Reg.COLL_CTRL_SNAP then u.snap r else u
        if wmSet v Reg.COLL_CTRL_SET && decide (r ≠ .pf1) then s3.setTime else s3 := by
  let new1 := Word.setBits (Word.setBits w 3 1 0) 4 1 0
  have hbit : ∀ f : Fld, f.lo + f.width ≤ 3 → wfld new1 f = wfld w f := fun f hf => by
    rw [wfld, Word.bits_setBits_of_disjoint _ _ _ _ _ _ (by omega) (.inr (by omega)),
      Word.bits_setBits_of_disjoint _ _ _ _ _ _ (by omega) (.inr (by omega)), wfld]
  have hwr : s.WritesIn (s.wr (Pg.coll * 0x1000 + 0x008) new1) (· = keyOf Reg.COLL_CTRL_ENABLE Pg.coll) := .wr (.refl _ _) _ rfl
  refine ⟨s.wr (Pg.coll * 0x1000 + 0x008) new1, State.wr_touches .., hwr, ?_⟩
  have hbar : ¬ (((wmSel v Reg.COLL_CTRL_ENABLE && !wmSet v Reg.COLL_CTRL_ENABLE) && s.on Pg.global Reg.GLOBAL_STATE_TAKE)
      || ((wmSet v Reg.COLL_CTRL_SET && decide (r ≠ .pf1)) && s.setBarred)) = true := by
    rw [hsel]
    simp only [Bool.false_and, Bool.false_or, Bool.and_eq_true, decide_eq_true_eq]
    exact fun ⟨⟨h1, h2⟩, h3⟩ => Bool.false_ne_true ((hset h1 h2).symm.trans h3)
  have hon : (s.wr (Pg.coll * 0x1000 + 0x008) new1).on Pg.coll Reg.COLL_CTRL_ENABLE = true := by
    rw [State.on_eq_true, State.fld_wr_same _ _ (by decide), hbit _ (by decide), hen]
  have hstop : ¬ ((!(s.wr (Pg.coll * 0x1000 + 0x008) new1).on Pg.coll Reg.COLL_CTRL_ENABLE
      || !(s.wr (Pg.coll * 0x1000 + 0x008) new1).on Pg.coll Reg.COLL_CTRL_PTP_EN) = true
      ∧ (s.wr (Pg.coll * 0x1000 + 0x008) new1).servo ≠ 0) := by
    rintro ⟨h1, h2⟩
    rw [State.servo, hwr.fld (by decide)] at h2
    rcases hservo with h | h
    · have : (s.wr (Pg.coll * 0x1000 + 0x008) new1).on Pg.coll Reg.COLL_CTRL_PTP_EN = true := by
        rw [State.on_eq_true, State.fld_wr_same _ _ (by decide), hbit _ (by decide), h]
      rw [hon, this] at h1
      exact Bool.false_ne_true h1
    · exact h2 h
  rw [writeCollCtrl, withWrite_of_accepts _ ha, ← hw]
  simp only [if_neg hbar]
  rw [if_neg hstop]

/-- SET is discarded whole where PTP runs or stepping is barred. -/
theorem writeCollCtrl_of_barred {s : State} {r : Req} {v : Word} (ha : s.accepts r Pg.coll 0x008 v = true) (hr : r ≠ .pf1)
    (hset : wmSet v Reg.COLL_CTRL_SET = true) (hb : s.setBarred = true) : writeCollCtrl r v s = s.reject Pg.coll := by
  rw [writeCollCtrl, withWrite_of_accepts _ ha]
  dsimp only
  rw [if_pos (by simp [hset, hr, hb])]

/-! ### A snapshot -/

theorem State.writesIn_snap (s : State) (r : Req) {p : Nat} (hp : p = Pg.coll + 1024 * reqCode r) :
    s.WritesIn (s.snap r) (· ∈ [keyOf Reg.COLL_SNAP_SEC_LO p, keyOf Reg.COLL_SNAP_SEC_HI p, keyOf Reg.COLL_SNAP_NS p,
      keyOf Reg.COLL_SNAP_FRAC p]) := by
  subst hp
  exact State.WritesIn.setFld (State.WritesIn.setFld (State.WritesIn.setFld64 (.refl s _) _ (by simp) (by simp)) _ (by simp)) _ (by simp)

/-- What a time in three registers, NS and FRAC above the seconds, reads. -/
theorem State.fld_time (s : State) {p : Nat} {lo hi ns fr : Fld} (t : Time) (hlo : lo.lo + lo.width ≤ 32 ∧ lo.width = 32)
    (hhi : hi.lo + hi.width ≤ 32 ∧ hi.width = 32) (hns : ns.lo + ns.width ≤ 32) (hfr : fr.lo + fr.width ≤ 32)
    (hoff : [lo.off, hi.off, ns.off, fr.off].Nodup ∧ ∀ o ∈ [lo.off, hi.off, ns.off, fr.off], o < 0x1000) :
    let u := ((s.setFld64 p lo hi t.sec).setFld p ns t.ns).setFld p fr t.frac
    u.fld64 p lo hi = t.sec % 2 ^ 64 ∧ u.fld p ns = t.ns % 2 ^ ns.width ∧ u.fld p fr = t.frac % 2 ^ fr.width := by
  obtain ⟨hnd, hlt⟩ := hoff
  have ho : ∀ f ∈ [lo, hi, ns, fr], f.off < 0x1000 := by simpa using hlt
  have hk : ∀ f ∈ [lo, hi, ns, fr], ∀ g ∈ [lo, hi, ns, fr], f.off ≠ g.off → keyOf f p ≠ keyOf g p :=
    fun f hf g hg h => keyOf_ne_of_off (ho f hf) (ho g hg) h
  simp only [List.nodup_cons, List.mem_cons, List.not_mem_nil, or_false, not_or] at hnd
  obtain ⟨⟨h1, h2, h3⟩, ⟨h4, h5⟩, h6, -⟩ := hnd
  have hN : ∀ u : State, u.WritesIn (u.setFld p ns t.ns) (· = keyOf ns p) := fun u => .setFld (.refl u _) _ rfl
  have hF : ∀ u : State, u.WritesIn (u.setFld p fr t.frac) (· = keyOf fr p) := fun u => .setFld (.refl u _) _ rfl
  refine ⟨?_, ?_, State.fld_setFld_same _ _ _ _ hfr⟩
  · rw [(hF _).fld64 (hk _ (by simp) _ (by simp) h3) (hk _ (by simp) _ (by simp) h5),
      (hN _).fld64 (hk _ (by simp) _ (by simp) h2) (hk _ (by simp) _ (by simp) h4),
      State.fld64_setFld64 _ _ hlo.1 hhi.1 hlo.2 hhi.2 (hk _ (by simp) _ (by simp) h1)]
  · rw [(hF _).fld (hk _ (by simp) _ (by simp) h6), State.fld_setFld_same _ _ _ _ hns]

/-! ### The edge on SYNC_IN -/

/-- The time of the edge is captured. -/
def State.captured (s : State) (x : Time) : State :=
  (((s.setFld64 Pg.coll Reg.COLL_SYNC_IN_SEC_LO Reg.COLL_SYNC_IN_SEC_HI x.sec).setFld Pg.coll Reg.COLL_SYNC_IN_NS x.ns).setFld Pg.coll
    Reg.COLL_SYNC_IN_FRAC x.frac).raise Pg.coll Reg.COLL_EVENT_SYNC_IN

def captureKeys : List Nat := [keyOf Reg.COLL_SYNC_IN_SEC_LO Pg.coll, keyOf Reg.COLL_SYNC_IN_SEC_HI Pg.coll,
  keyOf Reg.COLL_SYNC_IN_NS Pg.coll, keyOf Reg.COLL_SYNC_IN_FRAC Pg.coll, keyOf Reg.COLL_EVENT_SYNC_IN Pg.coll]

theorem State.writesIn_captured (s : State) (x : Time) : s.WritesIn (s.captured x) (· ∈ captureKeys) :=
  State.WritesIn.raise (State.WritesIn.setFld (State.WritesIn.setFld (State.WritesIn.setFld64 (.refl s _) _ (by decide) (by decide)) _
    (by decide)) _ (by decide)) (by decide)

theorem mem_captureKeys_onPages {a : Nat} (h : a ∈ captureKeys) : onPages [Pg.coll] a := by
  have : ∀ b ∈ captureKeys, b / 0x1000 % 1024 ∈ [Pg.coll] := by decide
  exact this a h

theorem State.captured_touches (s : State) (x : Time) : s.Touches (s.captured x) [.regs, .ctlLatches] :=
  .step (.step (.step ((State.setFld64_touches ..).mono rfl) (State.setFld_touches ..) rfl) (State.setFld_touches ..) rfl)
    (State.raise_touches ..) rfl

theorem Time.ofTicks_ns_lt (n : Nat) : (Time.ofTicks n).ns < 1000000000 := Nat.mod_lt _ (by decide)

theorem Time.ofTicks_frac_lt (n : Nat) : (Time.ofTicks n).frac < 2 ^ 32 := Nat.mod_lt _ (by decide)

theorem State.fld_captured (s : State) {x : Time} (hns : x.ns < 1000000000) (hfr : x.frac < 2 ^ 32) :
    (s.captured x).fld64 Pg.coll Reg.COLL_SYNC_IN_SEC_LO Reg.COLL_SYNC_IN_SEC_HI = x.sec % 2 ^ 64
      ∧ (s.captured x).fld Pg.coll Reg.COLL_SYNC_IN_NS = x.ns ∧ (s.captured x).fld Pg.coll Reg.COLL_SYNC_IN_FRAC = x.frac
      ∧ (s.captured x).fld Pg.coll Reg.COLL_EVENT_SYNC_IN = 1 := by
  have hraise : ∀ u : State, u.WritesIn (u.raise Pg.coll Reg.COLL_EVENT_SYNC_IN) (· = keyOf Reg.COLL_EVENT_SYNC_IN Pg.coll) :=
    fun u => .raise (.refl u _) rfl
  obtain ⟨h1, h2, h3⟩ := s.fld_time (p := Pg.coll) (lo := Reg.COLL_SYNC_IN_SEC_LO) (hi := Reg.COLL_SYNC_IN_SEC_HI)
    (ns := Reg.COLL_SYNC_IN_NS) (fr := Reg.COLL_SYNC_IN_FRAC) x (by decide) (by decide) (by decide) (by decide) (by decide)
  refine ⟨((hraise _).fld64 (by decide) (by decide)).trans h1, ((hraise _).fld (by decide)).trans (h2.trans ?_),
    ((hraise _).fld (by decide)).trans (h3.trans ?_), State.fld_raise_same _ _ _ (by decide) rfl⟩
  · exact Nat.mod_eq_of_lt (by show x.ns < 2 ^ 30; omega)
  · exact Nat.mod_eq_of_lt hfr

/-! ### The point of SYNC_OUT -/

/-- Of a grid of points at `k * u / num`, the newest at or before `d`. -/
theorem grid_newest {u num k d : Nat} (hn : 0 < num) (h : k * u / num ≤ d) (h' : d < (k + 1) * u / num) : ((d + 1) * num - 1) / u = k := by
  have h1 : k * u < (d + 1) * num := (Nat.div_lt_iff_lt_mul hn).1 (Nat.lt_succ_of_le h)
  have h2 : (d + 1) * num ≤ (k + 1) * u := (Nat.le_div_iff_mul_le hn).1 h'
  have h3 : 0 < (d + 1) * num := Nat.mul_pos (Nat.succ_pos _) hn
  exact Nat.div_eq_of_lt_le (by omega) (by omega)

theorem State.syncOut_of_none {s : State} (h : s.syncPoint = none) : s.syncOut = s := by
  unfold State.syncOut
  simp only [h, ite_self]

theorem State.syncOut_of_some {s : State} {x : Nat} (hr : s.collRuns = true) (hm : s.ctl.mode ≠ .sleep) (h : s.syncPoint = some x) :
    s.syncOut = s.emit (.syncOut (placeEdge x) (max 1 (s.fld Pg.coll Reg.COLL_SYNC_CFG_OUT_WIDTH))) := by
  unfold State.syncOut
  rw [if_neg (by simp [hr, hm])]
  simp only [h]

theorem State.syncPoint_off {s : State} (hm : s.fld Pg.coll Reg.COLL_SYNC_CFG_OUT_MODE = 0) : s.syncPoint = none := by
  simp only [State.syncPoint, hm]

theorem State.syncPoint_second {s : State} (hm : s.fld Pg.coll Reg.COLL_SYNC_CFG_OUT_MODE = 1) :
    s.syncPoint = some (s.time.ticks / (1000000000 * tickNs) * (1000000000 * tickNs)) := by
  unfold State.syncPoint
  rw [hm]
  rfl

theorem State.syncPoint_idle {s : State} (hm : s.fld Pg.coll Reg.COLL_SYNC_CFG_OUT_MODE = 2)
    (hp : s.fld Pg.trig Reg.TRIG_STATE_PHASE = 0) : s.syncPoint = none := by
  unfold State.syncPoint
  rw [hm]
  exact if_pos (.inl hp)

theorem State.syncPoint_grid {s : State} {g : Nat} (hm : s.fld Pg.coll Reg.COLL_SYNC_CFG_OUT_MODE = 3)
    (hle : g * s.rate.2 * (1000000000 * tickNs) / max 1 s.rate.1 ≤ s.time.ticks)
    (hlt : s.time.ticks < (g + 1) * s.rate.2 * (1000000000 * tickNs) / max 1 s.rate.1) :
    s.syncPoint = some (g * s.rate.2 * (1000000000 * tickNs) / max 1 s.rate.1) := by
  unfold State.syncPoint
  rw [hm]
  dsimp only
  generalize tickNs = k at *
  generalize 1000000000 * k = second at *
  have hr : max 1 s.rate.2 = s.rate.2 := by
    refine Nat.max_eq_right (Nat.one_le_iff_ne_zero.2 fun h => ?_)
    simp [h] at hlt
  rw [Nat.mul_assoc] at hle hlt
  rw [hr, grid_newest (by omega) hle hlt, Nat.mul_assoc]
  rfl

theorem State.syncPoint_exposure {s : State} {g : Nat} (hm : s.fld Pg.coll Reg.COLL_SYNC_CFG_OUT_MODE = 2)
    (hp : s.fld Pg.trig Reg.TRIG_STATE_PHASE ≠ 0) (hle : s.exposureAt g ≤ s.time.ticks) (hlt : s.time.ticks < s.exposureAt (g + 1)) :
    s.syncPoint = some (s.exposureAt g) := by
  have hmono : s.exposureAt 0 ≤ s.exposureAt g :=
    Nat.add_le_add_left (Nat.div_le_div_right (Nat.mul_le_mul_right _ (Nat.mul_le_mul_right _ (by omega)))) _
  unfold State.syncPoint
  rw [hm]
  dsimp only
  rw [if_neg (by omega)]
  have hk : ((s.time.ticks - s.trig.base + 1) * max 1 s.rate.1 - 1) / (max 1 s.rate.2 * (1000000000 * tickNs)) = s.trig.k + g := by
    unfold State.exposureAt at hle hlt
    generalize tickNs = k at *
    generalize 1000000000 * k = second at *
    have hr : max 1 s.rate.2 = s.rate.2 := by
      refine Nat.max_eq_right (Nat.one_le_iff_ne_zero.2 fun h => ?_)
      simp only [h, Nat.mul_zero, Nat.zero_mul, Nat.zero_div] at hle hlt
      omega
    rw [Nat.mul_assoc] at hle hlt
    rw [← Nat.add_assoc s.trig.k] at hlt
    rw [hr]
    exact grid_newest (by omega) (by omega) (Nat.sub_lt_left_of_lt_add (Nat.le_trans (Nat.le_add_right _ _) hle) hlt)
  rw [hk, Nat.add_sub_cancel_left]
  rfl

/-- Settles O53: the effects of a write of COLL.CTRL, of an edge and of a pulse, each by its equation. -/
theorem timeCounter : Obligations.TimeCounter := by
  unfold Obligations.TimeCounter
  refine ⟨fun s r v w p ha hw hen hsel hset hsnap hservo hp => ?snap,
    fun s r v w ha hr hw hen hsel hsnap hset hservo => ⟨fun hptp hbar => ?set, fun hbar => ?barred⟩,
    fun s x hx => ⟨fun hm => ?capture, fun θ hm hptp hon hθ => ?steer⟩, fun s send hrun hsleep hsend => ?out⟩
  case snap =>
    obtain ⟨u, hto, hwu, heq⟩ := writeCollCtrl_of_accepts ha hw hen hsel (fun h => absurd h (by simp [hset])) hservo
    simp only [hsnap, hset, Bool.false_and, if_true, Bool.false_eq_true, if_false] at heq
    have htime : u.time = s.time := hto.same .time (by decide)
    obtain ⟨h1, h2, h3⟩ := u.fld_time (p := p) (lo := Reg.COLL_SNAP_SEC_LO) (hi := Reg.COLL_SNAP_SEC_HI)
      (ns := Reg.COLL_SNAP_NS) (fr := Reg.COLL_SNAP_FRAC) s.time (by decide) (by decide) (by decide) (by decide) (by decide)
    have hsn : u.snap r = ((u.setFld64 p Reg.COLL_SNAP_SEC_LO Reg.COLL_SNAP_SEC_HI s.time.sec).setFld p Reg.COLL_SNAP_NS s.time.ns).setFld p
        Reg.COLL_SNAP_FRAC s.time.frac := by rw [State.snap, htime, hp]
    have hto' := hto.step (State.snap_touches u r) rfl
    have hws := u.writesIn_snap r hp
    rw [hsn] at heq hto' hws
    refine ⟨_, congrArg Host.Outcome.next heq, h1, h2, h3, hto'.eq_mix, ?_, hto'.keepsBytes rfl⟩
    exact ((hwu.mono fun a h => by simp [h]).trans (hws.mono fun a h => List.mem_cons_of_mem _ h)).keepsRegs
  case set =>
    obtain ⟨u, hto, hwu, heq⟩ := writeCollCtrl_of_accepts ha hw hen hsel (fun _ _ => by rw [State.setBarred, hptp, hbar]; rfl) (.inr hservo)
    simp only [hsnap, hset, hr, ne_eq, not_false_eq_true, decide_true, Bool.and_true, if_true, Bool.false_eq_true, if_false] at heq
    obtain ⟨h1, h2, h3, h4⟩ := u.stepTo_effect ⟨s.fld64 Pg.coll Reg.COLL_SET_SEC_LO Reg.COLL_SET_SEC_HI,
      min 999999999 (s.fld Pg.coll Reg.COLL_SET_NS), 0⟩
    have hst : u.setTime = u.stepTo ⟨s.fld64 Pg.coll Reg.COLL_SET_SEC_LO Reg.COLL_SET_SEC_HI,
        min 999999999 (s.fld Pg.coll Reg.COLL_SET_NS), 0⟩ := by
      rw [State.setTime, hwu.fld64 (by decide) (by decide), hwu.fld (by decide)]
    have hcoll : u.coll = s.coll := by rw [hto.eq_mix]; rfl
    have hto' := State.Touches.step (l := [.regs, .ctlLatches, .collSync, .collT3, .loupe, .time]) (hto.mono rfl) (u.stepTo_touches
      ⟨s.fld64 Pg.coll Reg.COLL_SET_SEC_LO Reg.COLL_SET_SEC_HI, min 999999999 (s.fld Pg.coll Reg.COLL_SET_NS), 0⟩) rfl
    refine ⟨_, congrArg Host.Outcome.next (heq.trans hst), h1, by rw [h2, hcoll], h3, fun n hn hr hl => h4 n hn ?_ ?_, ?_, ?_,
      hto'.keepsBytes rfl⟩
    · rw [State.running_loupe _ hn] at hr ⊢
      rw [hto.same .ctlMode (by decide), State.on, hwu.fld (by interval_cases n <;> decide)]
      exact hr
    · rw [State.locks, State.on, hwu.fld (by interval_cases n <;> decide)]
      exact hl
    · exact (hto'.mono (l' := [.regs, .ctlLatches, .time, .loupe] ++ collParts) rfl).eq_mix
    · exact ((hwu.mono fun a h => by simp [h]).trans ((u.writesIn_stepTo _).mono fun a h => by simp [h])).keepsRegs
  case barred =>
    have hb : s.setBarred = true := by rw [State.setBarred, Bool.or_eq_true]; exact hbar
    have heq := writeCollCtrl_of_barred ha hr hset hb
    obtain ⟨hev, hregs, honly, hbytes⟩ := s.rejected_reject Pg.coll
    exact ⟨_, congrArg Host.Outcome.next heq, hev, honly, hregs, hbytes⟩
  case capture =>
    have heq : s.syncIn = s.captured x := by
      have hmode : s.fld Pg.coll Reg.COLL_SYNC_CFG_IN_MODE = 1 ∨ s.fld Pg.coll Reg.COLL_SYNC_CFG_IN_MODE = 2 := hm.imp_right And.left
      unfold State.syncIn
      rw [if_pos hmode, ← hx]
      refine if_neg ?_
      rintro ⟨h2, hp, he⟩
      rcases hm with h | ⟨-, h | h⟩
      · omega
      · exact Bool.false_ne_true (hp.symm.trans h)
      · exact Bool.false_ne_true (h.symm.trans he)
    obtain ⟨h1, h2, h3, h4⟩ := s.fld_captured (x := x) (hx ▸ Time.ofTicks_ns_lt _) (hx ▸ Time.ofTicks_frac_lt _)
    have hto := s.captured_touches x
    exact ⟨_, congrArg Host.Outcome.next heq, h1, h2, h3, h4, hto.eq_mix,
      ((s.writesIn_captured x).mono fun a => mem_captureKeys_onPages).keepsPages, hto.keepsBytes rfl⟩
  case steer =>
    have heq : s.syncIn = ((s.captured x).showOffset θ).slew θ 0 := by
      unfold State.syncIn
      rw [if_pos (.inr hm), ← hx]
      exact (if_pos ⟨hm, hptp, hon⟩).trans (by subst hθ; rfl)
    obtain ⟨-, h2, -, h4⟩ := s.fld_captured (x := x) (hx ▸ Time.ofTicks_ns_lt _) (hx ▸ Time.ofTicks_frac_lt _)
    have hto1 := s.captured_touches x
    have hto2 := hto1.step (State.showOffset_touches _ θ) rfl
    have hto := State.Touches.step (l := [.regs, .ctlLatches, .collF]) (hto2.mono rfl) (State.slew_touches _ θ 0) rfl
    have hw1 := s.writesIn_captured x
    have hw2 : (s.captured x).WritesIn ((s.captured x).showOffset θ) (· = keyOf Reg.COLL_OFFSET Pg.coll) := .setFld (.refl _ _) _ rfl
    have hw3 := ((s.captured x).showOffset θ).writesIn_slew θ 0
    have hcoll : ((s.captured x).showOffset θ).coll = s.coll := by rw [hto2.eq_mix]; rfl
    refine ⟨_, congrArg Host.Outcome.next heq, ?_, ?_, ?_, (hto.mono (l' := .regs :: .ctlLatches :: collParts) rfl).eq_mix, ?_,
      hto.keepsBytes rfl⟩
    · rw [hw3.fld (by decide), hw2.fld (by decide), h2]
    · exact State.fld_slew_of_one rfl (by decide) (by decide) ((hw2.fld (by decide)).trans h4)
    · rw [State.coll_slew, hcoll, State.rateLimit_congr ((hw2.fld (by decide)).trans (hw1.fld (by decide))), hw2.fld (by decide),
        hw1.fld (by decide)]
      norm_num
    · exact ((hw1.mono fun a => mem_captureKeys_onPages).trans ((hw2.mono fun a h => h ▸ onPages_keyOf (by decide) (by decide)).trans
        (hw3.mono fun a => mem_slewKeys_onPages))).keepsPages
  case out =>
    subst hsend
    refine ⟨fun hm => ?_, fun hm => ?_, fun g hm hp hle hlt => ?_, fun hm hp => ?_, fun grid g hm hg hle hlt => ?_⟩
    · exact congrArg Host.Outcome.next (State.syncOut_of_none (State.syncPoint_off hm))
    · exact congrArg Host.Outcome.next (State.syncOut_of_some hrun hsleep (State.syncPoint_second hm))
    · exact congrArg Host.Outcome.next (State.syncOut_of_some hrun hsleep (State.syncPoint_exposure hm hp hle hlt))
    · exact congrArg Host.Outcome.next (State.syncOut_of_none (State.syncPoint_idle hm hp))
    · subst hg
      exact congrArg Host.Outcome.next (State.syncOut_of_some hrun hsleep (State.syncPoint_grid hm hle hlt))

end Sys2Proof.Machine
end

section
/-! PROOFS. Completions and interrupt coalescing (R280, R282, R287, R302). -/

set_option Elab.async false

namespace Sys2Proof.Machine

/-- An event raised where no register has changed yet. -/
theorem State.keepsReg_raise {s u : State} (h : u.regs = s.regs) (p : Nat) (e : Fld) : s.KeepsRegs (u.raise p e) [keyOf e p] :=
  State.WritesIn.keepsReg (State.WritesIn.raise (P := (· = keyOf e p)) (.of_regs (.refl s _) h) rfl)

/-- A completion is at its queue's tail, its tag is free and DONE counts it; the interrupt is still to come. -/
def State.posted (s : State) (tag : Nat) (c : Cmd) (q : Cq) : State :=
  (((s.emit (.hostWrite c.fn (q.base + 16 * q.tail) (completionBytes c tag q.phase))).putCq (qkey c.fn c.cqid)
    (q.afterPost c.cqid (c.flag 1)).1).putCmd tag default).setFld64 Pg.hostq Reg.HOSTQ_DONE_LO Reg.HOSTQ_DONE_HI
    (s.fld64 Pg.hostq Reg.HOSTQ_DONE_LO Reg.HOSTQ_DONE_HI + 1)

theorem State.posted_touches (s : State) (tag : Nat) (c : Cmd) (q : Cq) : s.Touches (s.posted tag c q) [.out, .regs, .hqCmds, .hqCqs] := by
  have h : ∀ l m, s.Touches ((s.emit l).putCq (qkey c.fn c.cqid) m) [.out, .regs, .hqCmds, .hqCqs] := fun l m => .of_mix rfl rfl
  exact .step (.step (h _ _) (State.putCmd_default_touches ..) rfl) (State.setFld64_touches ..) rfl

theorem State.posted_hq (s : State) (tag : Nat) (c : Cmd) (q : Cq) : (s.posted tag c q).hq = { s.hq with
    cmds := s.hq.cmds.put tag default, cqs := s.hq.cqs.put (qkey c.fn c.cqid) (q.afterPost c.cqid (c.flag 1)).1 } := rfl

theorem State.writesIn_posted (s : State) (tag : Nat) (c : Cmd) (q : Cq) :
    s.WritesIn (s.posted tag c q) (· ∈ [keyOf Reg.HOSTQ_DONE_LO Pg.hostq, keyOf Reg.HOSTQ_DONE_HI Pg.hostq]) :=
  State.WritesIn.setFld64 (.of_regs (.refl s _) rfl) _ (by simp) (by simp)

/-- A completion whose queue has room is written, and its vector's latch is set if the queue signals. -/
theorem State.post_of_room {s : State} {tag : Nat} {c : Cmd} {q : Cq} (hc : c = s.hq.cmds.get tag) (hl : c.live = true)
    (hs : c.stage = .done) (hq : q = s.hq.cqs.get (qkey c.fn c.cqid)) (hql : q.live = true) (hroom : (q.tail + 1) % q.size ≠ q.head) :
    s.post tag = if (q.afterPost c.cqid (c.flag 1)).2 then (s.posted tag c q).latch (fnNum c.fn * 64 + q.vector) else s.posted tag c q := by
  unfold State.post
  rw [if_neg (by rw [← hc]; simp [hl, hs])]
  dsimp only
  rw [← hc, ← hq, if_neg (by simp [hql]), if_neg hroom]
  rfl

/-- A full queue holds the completion. -/
theorem State.post_of_full {s : State} {tag : Nat} {c : Cmd} {q : Cq} (hc : c = s.hq.cmds.get tag) (hl : c.live = true)
    (hs : c.stage = .done) (hq : q = s.hq.cqs.get (qkey c.fn c.cqid)) (hql : q.live = true) (hfull : (q.tail + 1) % q.size = q.head) :
    ∃ u : State, s.post tag = u.raise Pg.hostq Reg.HOSTQ_EVENT_CQ_FULL ∧ s.Touches u [.hqSqs, .hqCqs]
      ∧ u.hq.cqs = s.hq.cqs.put (qkey c.fn c.cqid) { q with held := true } := by
  refine ⟨?held, ?eq, ?parts, ?cqs⟩
  case eq =>
    unfold State.post
    rw [if_neg (by rw [← hc]; simp [hl, hs])]
    dsimp only
    rw [← hc, ← hq, if_neg (by simp [hql]), if_pos hfull]
  case parts => exact .of_mix rfl rfl
  case cqs => rfl

/-- Settles O17: a completion by `post_of_room` and `post_of_full`, a coalescing time by its equation. -/
theorem completionsPosted : Obligations.CompletionsPosted := by
  unfold Obligations.CompletionsPosted
  refine ⟨fun s tag c q hc hl hs hq hql hroom => ?room, fun s tag c q hc hl hs hq hql hfull => ?full, fun s fn qid q hq hl hien ht hu => ?time⟩
  case room =>
    have heq := State.post_of_room hc hl hs hq hql hroom
    have hto := s.posted_touches tag c q
    have hw := s.writesIn_posted tag c q
    have hlatch : ∀ u : State, s.Touches u [.out, .regs, .hqCmds, .hqCqs] →
        s.Touches (u.latch (fnNum c.fn * 64 + q.vector)) [.out, .regs, .ctlLatches, .hqCmds, .hqCqs] :=
      fun u h => .step (h.mono rfl) (State.latch_touches ..) rfl
    have hpost : ∀ t, t = s.posted tag c q ∨ t = (s.posted tag c q).latch (fnNum c.fn * 64 + q.vector) →
        t.out = (s.posted tag c q).out ∧ t.hq = (s.posted tag c q).hq ∧ t.regs = (s.posted tag c q).regs
          ∧ s.Touches t [.out, .regs, .ctlLatches, .hqCmds, .hqCqs] := by
      rintro t (rfl | rfl)
      · exact ⟨rfl, rfl, rfl, hto.mono rfl⟩
      · exact ⟨rfl, rfl, rfl, hlatch _ hto⟩
    have hsig : (q.afterPost c.cqid (c.flag 1)).2 = (decide (c.cqid = 0) || (q.ien && (decide (q.cnt ≤ q.unsig + 1) || c.flag 1))) := rfl
    have hctl : (s.posted tag c q).ctl = s.ctl := hto.eq_mix ▸ rfl
    obtain ⟨hout, hhq, hregs, hto'⟩ := hpost (s.post tag) (by rw [heq]; split <;> simp)
    refine ⟨_, rfl, hout, ?_, fun g hg => ?_, fun k hk => ?_, ?_, ?_, ?_, fun h => ?_, fun h0 h => ?_, hto'.eq_mix, ?_, hto'.keepsBytes rfl⟩
    · rw [hhq, State.posted_hq, Tbl.get_put_same]; rfl
    · rw [hhq, State.posted_hq, Tbl.get_put_ne _ _ _ _ hg]
    · rw [hhq, State.posted_hq, Tbl.get_put_ne _ _ _ _ hk]
    · rw [hhq, State.posted_hq, Tbl.get_put_same]; rfl
    · rw [hhq, State.posted_hq, Tbl.get_put_same]; rfl
    · rw [State.fld64, State.fld_congr hregs, State.fld_congr hregs, ← State.fld64]
      exact State.fld64_setFld64 _ _ (by decide) (by decide) rfl rfl (by decide)
    · rw [heq, if_pos (by rw [hsig]; simpa [and_comm, or_comm] using h), State.latch, State.contains_latches_insert]
      simp
    · rw [heq, if_neg, hctl]
      rw [hsig]
      rcases h with h | ⟨h1, h2⟩
      · simp [h0, h]
      · simp [h0, h2]
        omega
    · exact (State.WritesIn.of_regs hw hregs).keepsRegs
  case full =>
    obtain ⟨u, heq, hto, hcqs⟩ := State.post_of_full hc hl hs hq hql hfull
    have hr := State.raise_touches u Pg.hostq Reg.HOSTQ_EVENT_CQ_FULL
    have hto' := State.Touches.step (l := [.hqSqs, .hqCqs, .regs, .ctlLatches]) (hto.mono rfl) hr rfl
    refine ⟨_, congrArg Host.Outcome.next heq, ?_, hto'.same .hqCmds (by decide), State.fld_raise_same _ _ _ (by decide) rfl, hto'.eq_mix,
      ?_, hto'.keepsBytes rfl⟩
    · rw [hr.same .hqCqs (by decide), hcqs, Tbl.get_put_same]
    · exact State.keepsReg_raise (hto.same .regs (by decide)) _ _
  case time =>
    have heq : s.coalesce fn qid = (s.putCq (qkey fn qid) { q with unsig := 0 }).latch (fnNum fn * 64 + q.vector) := by
      unfold State.coalesce
      dsimp only
      rw [← hq, if_pos (by simp [hl, hien, ht, hu])]
    have hto := State.coalesce_touches s fn qid
    rw [heq] at hto
    refine ⟨_, congrArg Host.Outcome.next heq, ?_, ?_, fun k hk => ?_, hto.eq_mix, hto.keepsBytes rfl⟩
    · rw [State.latch, State.contains_latches_insert]
      simp
    · exact Tbl.get_put_same ..
    · exact Tbl.get_put_ne _ _ _ _ hk

end Sys2Proof.Machine
end

section
/-! PROOFS. SET MODE between STANDBY, LIVE and RECORD (R62, R304). -/

set_option Elab.async false

namespace Sys2Proof.Machine

/-! ### A SET MODE that moves -/

/-- The command runs and holds its buffers. -/
def State.startWith (s : State) (tag : Nat) (bufs : List (Nat × Nat)) : State :=
  (s.start tag).putCmd tag { (s.hq.cmds.get tag).started with bufs := bufs }

theorem State.start_touches (s : State) (tag : Nat) : s.Touches (s.start tag) [.hqCmds] := s.putCmd_touches tag _ ⟨rfl, id⟩

theorem State.startWith_touches (s : State) (tag : Nat) (bufs : List (Nat × Nat)) : s.Touches (s.startWith tag bufs) [.hqCmds] :=
  (s.start_touches tag).trans ((s.start tag).putCmd_touches tag _ (by rw [State.start_get]; exact ⟨rfl, id⟩))

@[simp] theorem State.startWith_get (s : State) (tag : Nat) (bufs : List (Nat × Nat)) :
    (s.startWith tag bufs).hq.cmds.get tag = { s.hq.cmds.get tag with stage := .running, len := 0, bufs := bufs } := Tbl.get_put_same _ _ _

theorem State.onlyTag_startWith (s : State) (tag : Nat) (bufs : List (Nat × Nat)) : s.OnlyTag (s.startWith tag bufs) tag :=
  (s.onlyTag_start tag).trans fun _ hg => Tbl.get_put_ne _ _ _ _ hg

/-- A move that is permitted and that nothing refuses takes its effect. -/
theorem exec_setMode_of_moves {s : State} {tag : Nat} {h : HostData} {target : Mode} {bufs : List (Nat × Nat)}
    (ha : s.asksMode tag h target bufs) (hmove : s.movesTo target = true) (hheld : s.modeHeld target = false)
    (hrec : s.isSwitch target = true → target = .record → s.recordBad s.ctl.charged = false) :
    exec (.setMode tag h) s =
      .next ((s.startWith tag bufs).runMode target (boundaryOf (s.hq.cmds.get tag)) (s.hq.cmds.get tag).uid) := by
  obtain ⟨-, hm, hbufs, -⟩ := id ha
  have hphase : s.ctl.phase = .settled := by simp only [State.movesTo, Bool.and_eq_true, decide_eq_true_eq] at hmove; exact hmove.1
  have hcancel := State.cancelsStart_of_settled hphase target
  have hchecks : ¬ (s.movesTo target && s.isSwitch target && decide (target = .record) && s.recordBad s.ctl.charged) = true := by
    simp only [Bool.and_eq_true, decide_eq_true_eq, not_and, Bool.not_eq_true]
    exact fun ⟨⟨_, hs⟩, ht⟩ => hrec hs ht
  have hrefused : ¬ ((!s.cancelsStart target && !s.movesTo target) || (s.movesTo target && s.modeHeld target)) = true := by
    simp [hmove, hheld]
  have hrun : runSetMode h tag (s.hq.cmds.get tag).started (s.start tag) =
      (s.startWith tag bufs).runMode target (boundaryOf (s.hq.cmds.get tag)) (s.hq.cmds.get tag).uid := by
    have hbufs' : (s.start tag).buffers (s.hq.cmds.get tag).started h true = .ok bufs := hbufs
    have hm' : modeOf ((s.hq.cmds.get tag).started.cdw 8 % 8) = some target := hm
    unfold runSetMode
    rw [hm']
    refine (if_neg hchecks).trans ((if_neg hrefused).trans ?_)
    rw [hbufs']
    exact if_neg fun hc => Bool.false_ne_true (hcancel.symm.trans hc)
  rw [exec_setMode_of_asks ha, hrun]

/-! ### The mode that is shown -/

theorem State.modeCode_lt (s : State) : s.modeCode < 2 ^ Reg.GLOBAL_STATE_MODE.width := by
  unfold State.modeCode
  split
  case h_6 => split <;> decide
  all_goals decide

theorem State.fld_toMode (s : State) (m : Mode) (ph : Phase) : (s.toMode m ph).fld Pg.global Reg.GLOBAL_STATE_MODE =
    ({ s with ctl := { s.ctl with mode := m, phase := ph } } : State).modeCode :=
  State.fld_setFld_of_width _ _ _ _ (by decide) (State.modeCode_lt _)

theorem State.writesIn_toMode (s : State) (m : Mode) (ph : Phase) : s.WritesIn (s.toMode m ph) (· = keyOf Reg.GLOBAL_STATE_MODE Pg.global) :=
  State.WritesIn.setFld (.of_regs (.refl s _) rfl) _ rfl

theorem State.ctl_toMode (s : State) (m : Mode) (ph : Phase) : (s.toMode m ph).ctl = { s.ctl with mode := m, phase := ph } := rfl

/-! ### A stop -/

/-- A stop has begun: the sensors are told, and the last frame is the present one. -/
def State.stopNoted (s : State) (cmd : Option Nat) : State :=
  let s1 := s.sensorStop
  ({ s1 with ctl := { s1.ctl with
    stopFrame := some s.frameNow
    recEnd := if s1.ctl.mode = .record then some (s.frameNow + 1) else s1.ctl.recEnd } } : State).toMode s1.ctl.mode (.stopping cmd)

/-- With no frame open the ports that are used end their streaming and Ingress is idle. -/
def State.stopIdle (s : State) : State :=
  if s.ingress.openFrame.isNone then
    (s.portsUsed.foldl (fun (s : State) k => s.endStreaming k) s).setFld Pg.ingress Reg.INGRESS_STATE_PHASE 0
  else s

theorem State.beginStop_eq (s : State) (cmd : Option Nat) : s.beginStop cmd =
    (noteFreed (s.stopNoted cmd).stopIdle ((s.stopNoted cmd).stopIdle.cancelGroups s.frameNow)).disarm := rfl

theorem State.stopIdle_touches (s : State) : s.Touches s.stopIdle [.regs, .portA, .portB] := by
  refine .ite (.step (.foldl (.refl ..) (fun u k => ?_) _) (State.setFld_touches ..) rfl) (.refl ..)
  exact (State.endStreaming_touches u k).mono rfl

theorem mem_portsUsed {s : State} {k : Nat} (h : k ∈ s.portsUsed) : k = 0 ∨ k = 1 := by
  unfold State.portsUsed at h
  split at h <;> simp at h <;> omega

theorem State.writesIn_showPort (s : State) (k : Nat) :
    s.WritesIn (s.showPort k) (· ∈ [keyOf Reg.LINK_STATE_PORT (Pg.link k), keyOf Reg.LINK_STATE_LANES_LIVE (Pg.link k)]) :=
  State.WritesIn.setFld (State.WritesIn.setFld (.refl s _) _ (by simp)) _ (by simp)

theorem State.writesIn_endStreaming (s : State) (k : Nat) :
    s.WritesIn (s.endStreaming k) (· ∈ [keyOf Reg.LINK_STATE_PORT (Pg.link k), keyOf Reg.LINK_STATE_LANES_LIVE (Pg.link k)]) := by
  unfold State.endStreaming
  split
  · exact .refl _ _
  · exact (State.WritesIn.of_regs (.refl s _) (s.setPort_regs _ _)).trans (State.writesIn_showPort _ k)

theorem State.rd_stopIdle (s : State) : s.stopIdle.rd (keyOf Reg.GLOBAL_STATE_MODE Pg.global) = s.rd (keyOf Reg.GLOBAL_STATE_MODE Pg.global) := by
  have hport : ∀ (u : State) k, k ∈ s.portsUsed → u.WritesIn (u.endStreaming k) (· ≠ keyOf Reg.GLOBAL_STATE_MODE Pg.global) :=
    fun u k hk => (u.writesIn_endStreaming k).mono fun a ha => by
      rcases mem_portsUsed hk with rfl | rfl <;> rintro rfl <;> exact absurd ha (by decide)
  have h : s.WritesIn s.stopIdle (· ≠ keyOf Reg.GLOBAL_STATE_MODE Pg.global) :=
    .ite (State.WritesIn.setFld (State.WritesIn.foldl (.refl s _) _ hport) _ (by decide)) (.refl s _)
  exact h _ (by simp)

theorem State.writesIn_showGroups (s : State) : s.WritesIn s.showGroups (· ∈ [keyOf Reg.GLOBAL_COMMIT_GROUPS Pg.global,
    keyOf Reg.GLOBAL_COMMIT_PENDING Pg.global]) := State.WritesIn.setOn (State.WritesIn.setFld (.refl s _) _ (by simp)) _ (by simp)

/-- Cancelled groups end their commits. -/
theorem State.rd_cancelGroups (s : State) (n : Nat) :
    (s.cancelGroups n).rd (keyOf Reg.GLOBAL_STATE_MODE Pg.global) = s.rd (keyOf Reg.GLOBAL_STATE_MODE Pg.global) := by
  have hend : ∀ (u : State) p, u.WritesIn (u.endCommit p) (· ≠ keyOf Reg.GLOBAL_STATE_MODE Pg.global) :=
    fun u p => (u.writesIn_endCommit p).mono fun a ha h => absurd (ha.symm.trans h) (by simp only [keyOf]; omega)
  have h : s.WritesIn (s.cancelGroups n) (· ≠ keyOf Reg.GLOBAL_STATE_MODE Pg.global) := by
    unfold State.cancelGroups
    have hf : s.WritesIn ((s.ctl.groups.filter fun g => decide (n < g.1)).foldl (fun s g => g.2.foldl (fun s p => s.endCommit p) s) s)
        (· ≠ keyOf Reg.GLOBAL_STATE_MODE Pg.global) :=
      .foldl (.refl s _) _ fun u g _ => .foldl (.refl u _) _ fun u p _ => hend u p
    refine (hf.of_regs ?_).trans ((State.writesIn_showGroups _).mono ?_)
    · rfl
    · rintro a ha rfl
      exact absurd ha (by decide)
  exact h _ (by simp)

theorem State.groups_cancelGroups (s : State) (n : Nat) : (s.cancelGroups n).ctl.groups = s.ctl.groups.filter fun g => decide (g.1 ≤ n) := by
  have hend : ∀ (u : State) p, u.Touches (u.endCommit p) [.regs, .ctlSnaps] := fun u p => State.endCommit_touches u p
  have hf := State.Touches.foldl (f := fun (s : State) (g : Nat × List Nat) => g.2.foldl (fun s p => s.endCommit p) s) (.refl s [.regs, .ctlSnaps])
    (fun u g => .foldl (.refl ..) hend _) (s.ctl.groups.filter fun g => decide (n < g.1))
  have hgroups := hf.same .ctlGroups (by decide)
  unfold State.cancelGroups
  dsimp only
  generalize List.foldl (fun (s : State) (g : Nat × List Nat) => g.2.foldl (fun s p => s.endCommit p) s) s _ = u at *
  exact congrArg (List.filter fun g => decide (g.1 ≤ n)) hgroups

/-- What a stop leaves in the mode and commit state, and the registers that show it. -/
theorem State.beginStop_effect (s : State) (cmd : Option Nat) :
    (s.beginStop cmd).ctl.phase = .stopping cmd ∧ (s.beginStop cmd).ctl.mode = s.ctl.mode
      ∧ (s.beginStop cmd).ctl.stopFrame = some s.frameNow
      ∧ (s.beginStop cmd).ctl.recEnd = (if s.ctl.mode = .record then some (s.frameNow + 1) else s.ctl.recEnd)
      ∧ (s.beginStop cmd).ctl.groups = s.ctl.groups.filter (fun g => decide (g.1 ≤ s.frameNow))
      ∧ (s.beginStop cmd).fld Pg.global Reg.GLOBAL_STATE_MODE = 7 ∧ (s.beginStop cmd).fld Pg.trig Reg.TRIG_STATE_PHASE = 0 := by
  have hctl : s.sensorStop.ctl = s.ctl := by rw [(State.sensorStop_touches s).eq_mix]; rfl
  have hnoted : (s.stopNoted cmd).ctl = { s.ctl with mode := s.ctl.mode, phase := .stopping cmd, stopFrame := some s.frameNow
                                                     recEnd := if s.ctl.mode = .record then some (s.frameNow + 1) else s.ctl.recEnd } := by
    rw [State.stopNoted, State.ctl_toMode, hctl]
  have hmode : (s.stopNoted cmd).fld Pg.global Reg.GLOBAL_STATE_MODE = 7 := (State.fld_toMode _ _ _).trans rfl
  have hidle := (s.stopNoted cmd).stopIdle_touches
  have hcancel := State.cancelGroups_touches (s.stopNoted cmd).stopIdle s.frameNow
  have hfreed := noteFreed_touches (s.stopNoted cmd).stopIdle ((s.stopNoted cmd).stopIdle.cancelGroups s.frameNow)
  have hdis := State.disarm_touches (noteFreed (s.stopNoted cmd).stopIdle ((s.stopNoted cmd).stopIdle.cancelGroups s.frameNow))
  have hrd : (s.beginStop cmd).rd (keyOf Reg.GLOBAL_STATE_MODE Pg.global) = (s.stopNoted cmd).rd (keyOf Reg.GLOBAL_STATE_MODE Pg.global) := by
    have hd : ∀ u : State, u.disarm.rd (keyOf Reg.GLOBAL_STATE_MODE Pg.global) = u.rd (keyOf Reg.GLOBAL_STATE_MODE Pg.global) :=
      fun u => State.rd_setFld_ne _ _ _ _ _ (by decide)
    have hn : ∀ u v : State, (noteFreed u v).rd (keyOf Reg.GLOBAL_STATE_MODE Pg.global) = v.rd (keyOf Reg.GLOBAL_STATE_MODE Pg.global) :=
      fun u v => (State.WritesIn.raiseIf (P := (· = keyOf Reg.FSTORE_EVENT_SLOT_FREED Pg.fstore)) (.refl v _) rfl) _ (by decide)
    rw [State.beginStop_eq, hd, hn, State.rd_cancelGroups, State.rd_stopIdle]
  have hgroups : (s.beginStop cmd).ctl.groups = (s.stopNoted cmd).ctl.groups.filter fun g => decide (g.1 ≤ s.frameNow) := by
    rw [State.beginStop_eq, hdis.same .ctlGroups (by decide), hfreed.same .ctlGroups (by decide), State.groups_cancelGroups,
      hidle.same .ctlGroups (by decide)]
  have htail : (s.stopNoted cmd).Touches (s.beginStop cmd) [.regs, .portA, .portB, .ctlSnaps, .ctlGroups, .ctlLatches] :=
    .step (.step (.step (hidle.mono rfl) hcancel rfl) hfreed rfl) hdis rfl
  rw [State.fld_of_rd hrd, htail.same .ctlPhase (by decide), htail.same .ctlMode (by decide), htail.same .ctlStopFrame (by decide),
    htail.same .ctlRecEnd (by decide), hgroups, hnoted]
  exact ⟨rfl, rfl, rfl, rfl, rfl, hmode, State.fld_setFld_same _ _ _ _ (by decide)⟩

/-- Settles O29: each of the three moves begins by `exec_setMode_of_moves`. -/
theorem movesBegin : Obligations.MovesBegin := by
  unfold Obligations.MovesBegin
  refine ⟨fun s tag h target bufs ha hphase hmode htarget hheld => ?start, fun s tag h target bufs ha hsw hheld hrec => ?switch,
    fun s tag h bufs ha hphase hmode => ?stop⟩
  all_goals
    have hcmds := s.startWith_touches tag bufs
    have hget := s.startWith_get tag bufs
    have honly := s.onlyTag_startWith tag bufs
  case start =>
    have hmove : s.movesTo target = true := by rcases htarget with rfl | rfl <;> simp [State.movesTo, hphase, hmode, permitted]
    have heq := exec_setMode_of_moves ha hmove hheld fun hs => absurd hs (by simp [State.isSwitch_of_standby hmode])
    have hrun : ∀ b n, (s.startWith tag bufs).runMode target b n = (s.startWith tag bufs).beginStart target (some n) := fun b n => by
      rcases htarget with rfl | rfl <;> exact if_pos hmode
    rw [hrun] at heq
    have hto := State.beginStart_touches (s.startWith tag bufs) target (some (s.hq.cmds.get tag).uid)
    have hto' := State.Touches.step (l := [.hqCmds, .regs, .ctlMode, .ctlPhase, .ctlCapRun, .ctlFrameSeen, .ctlStopFrame, .ctlRecStart,
      .ctlRecEnd]) (hcmds.mono rfl) hto rfl
    refine ⟨_, heq, ?_, (State.fld_toMode _ _ _).trans rfl, ?_, ?_, (hto'.mono (l' := .hqCmds :: .regs :: ctlParts) rfl).eq_mix, ?_⟩
    · rw [State.beginStart, State.ctl_toMode, ← hmode]
      rfl
    · rw [hto.same .hqCmds (by decide), hget]
    · rw [State.OnlyTag, hto.same .hqCmds (by decide)]; exact honly
    · exact (State.WritesIn.trans (State.WritesIn.of_regs (.refl s _) (by rfl)) (State.writesIn_toMode _ _ _)).keepsReg
  case switch =>
    have hsplit : s.ctl.phase = .settled ∧ (s.ctl.mode = .live ∧ target = .record ∨ s.ctl.mode = .record ∧ target = .live) := by
      simpa [State.isSwitch] using hsw
    obtain ⟨hphase, hcase⟩ := hsplit
    have hmove : s.movesTo target = true := by
      rcases hcase with ⟨h1, rfl⟩ | ⟨h1, rfl⟩ <;> simp [State.movesTo, hphase, h1, permitted]
    have heq := exec_setMode_of_moves ha hmove hheld fun _ => hrec
    have hrun : ∀ b n, (s.startWith tag bufs).runMode target b n = (s.startWith tag bufs).beginSwitch target b n := fun b n => by
      have hne : s.ctl.mode ≠ .standby := by rcases hcase with ⟨h1, -⟩ | ⟨h1, -⟩ <;> rw [h1] <;> decide
      rcases hcase with ⟨h1, rfl⟩ | ⟨h1, rfl⟩ <;> exact if_neg hne
    rw [hrun] at heq
    have hto := State.beginSwitch_touches (s.startWith tag bufs) target (boundaryOf (s.hq.cmds.get tag)) (s.hq.cmds.get tag).uid
    have hctl : ((s.startWith tag bufs).beginSwitch target (boundaryOf (s.hq.cmds.get tag)) (s.hq.cmds.get tag).uid).ctl =
        { (if target = .record then { s.ctl with recStart := boundaryOf (s.hq.cmds.get tag), recEnd := none }
           else { s.ctl with recEnd := boundaryOf (s.hq.cmds.get tag) } : Ctl) with
          mode := s.ctl.mode, phase := .switching target (some (s.hq.cmds.get tag).uid) } := rfl
    have hmoveTo : s.Touches _ [.hqCmds, .regs, .ctlPhase, .ctlRecStart, .ctlRecEnd] :=
      (State.Touches.step (l := [.ctlMode, .hqCmds, .regs, .ctlPhase, .ctlRecStart, .ctlRecEnd]) (hcmds.mono rfl) hto rfl).drop
        (by rw [Part.same, hctl])
    refine ⟨_, heq, by rw [hctl], by rw [hctl], (State.fld_toMode _ _ _).trans rfl, fun hr => ?_, fun hl => ?_, ?_, ?_, hmoveTo.eq_mix, ?_⟩
    · rw [hctl, if_pos hr]; exact ⟨rfl, rfl⟩
    · rw [hctl, if_neg (by rw [hl]; decide)]; exact ⟨rfl, rfl⟩
    · rw [hto.same .hqCmds (by decide), hget]
    · rw [State.OnlyTag, hto.same .hqCmds (by decide)]; exact honly
    · exact (State.WritesIn.trans (State.WritesIn.of_regs (.refl s _) (by rfl)) (State.writesIn_toMode _ _ _)).keepsReg
  case stop =>
    have hmove : s.movesTo .standby = true := by rcases hmode with h1 | h1 <;> simp [State.movesTo, hphase, h1, permitted]
    have hheld : s.modeHeld .standby = false := by rcases hmode with h1 | h1 <;> simp [State.modeHeld, h1]
    have heq := exec_setMode_of_moves ha hmove hheld fun hs => absurd hs (by simp [State.isSwitch])
    have hrun : ∀ b n, (s.startWith tag bufs).runMode .standby b n = (s.startWith tag bufs).beginStop (some n) := fun b n => by
      have hm : (s.startWith tag bufs).ctl.mode = s.ctl.mode := rfl
      unfold State.runMode
      rcases hmode with h1 | h1 <;> simp only [hm, h1]
    rw [hrun] at heq
    have hto := State.beginStop_touches (s.startWith tag bufs) (some (s.hq.cmds.get tag).uid)
    obtain ⟨h1, h2, h3, h4, h5, h6, h7⟩ := State.beginStop_effect (s.startWith tag bufs) (some (s.hq.cmds.get tag).uid)
    have hto' := State.Touches.step (l := [.hqCmds, .out, .regs, .ctlMode, .ctlPhase, .ctlStopFrame, .ctlRecEnd, .ctlSnaps, .ctlGroups,
      .ctlLatches, .portA, .portB]) (hcmds.mono rfl) hto rfl
    refine ⟨_, heq, h1, h2, h3, h4, h5, h6, h7, ?_, ?_, (hto'.mono (l' := .hqCmds :: .out :: .regs :: .portA :: .portB :: ctlParts) rfl).eq_mix⟩
    · rw [hto.same .hqCmds (by decide), hget]
    · rw [State.OnlyTag, hto.same .hqCmds (by decide)]; exact honly

end Sys2Proof.Machine
end

section
/-! PROOFS. Mirror line checks and the Ethernet ports (R363, R368, R369, R373). -/

set_option Elab.async false

namespace Sys2Proof.Machine

theorem State.fld_count_ne (s : State) {p q : Nat} {f g : Fld} (h : keyOf g q ≠ keyOf f p) : (s.count p f).fld q g = s.fld q g :=
  State.fld_of_rd (State.rd_countBy_ne _ _ _ _ _ h)

/-! ### The end of a frame on a link -/

/-- What the end of a frame writes. -/
def mirrorEndKeys (k : Nat) : List Nat := [keyOf (Reg.MIRROR_FRAME_CRC k) Pg.mirror, keyOf (Reg.MIRROR_MISMATCH_FRAMES k) Pg.mirror,
  keyOf Reg.MIRROR_EVENT_FRAME_MISMATCH Pg.mirror]

theorem State.writesIn_mirrorFrame (s : State) (k : Nat) : s.WritesIn (s.mirrorFrame k) (· ∈ mirrorEndKeys k) := by
  have hcrc : ∀ v, s.WritesIn (s.setFld Pg.mirror (Reg.MIRROR_FRAME_CRC k) v) (· ∈ mirrorEndKeys k) :=
    fun v => .setFld (.refl s _) _ (by simp [mirrorEndKeys])
  have hput : ∀ (u : State) m, s.WritesIn u (· ∈ mirrorEndKeys k) → s.WritesIn (u.putMirror k m) (· ∈ mirrorEndKeys k) :=
    fun u m h => .of_regs h rfl
  unfold State.mirrorFrame
  refine .ite (hput _ _ (.refl s _)) (.ite (hput _ _ (hcrc _)) (.raise (.count (hput _ _ (hcrc _)) ?_) ?_)) <;> simp [mirrorEndKeys]

/-- An event of Mirror that is set stays set. -/
theorem State.mirrorFrame_event {s : State} (k : Nat) {g : Fld} (hg : g.width = 1) (hlo : g.lo < 32) (hoff : g.off = 0x010)
    (h : s.fld Pg.mirror g = 1) : (s.mirrorFrame k).fld Pg.mirror g = 1 := by
  have hk : ∀ f : Fld, f.off = 0x048 + 0x10 * k ∨ f.off = 0x04C + 0x10 * k → keyOf g Pg.mirror ≠ keyOf f Pg.mirror := by
    rintro f (hf | hf) <;> simp only [keyOf, hf, hoff] <;> omega
  have hcrc : ∀ v, (s.setFld Pg.mirror (Reg.MIRROR_FRAME_CRC k) v).fld Pg.mirror g = 1 := fun v =>
    (State.fld_of_rd (State.rd_setFld_ne _ _ _ _ _ (hk _ (.inl rfl)))).trans h
  unfold State.mirrorFrame
  dsimp only
  split
  · exact h
  · split
    · exact hcrc _
    · exact State.fld_raise_of_one rfl hg ((State.fld_count_ne _ (hk _ (.inr rfl))).trans (hcrc _)) hlo

/-- Of the links only this one's entry changes, and not its count of lines without a reference. -/
theorem State.mirrorFrame_mirror (s : State) (k : Nat) : (∀ m, m ≠ k → (s.mirrorFrame k).mirror.get m = s.mirror.get m)
    ∧ ((s.mirrorFrame k).mirror.get k).missing = (s.mirror.get k).missing := by
  have hput : ∀ (u : State) (x : MirrorSt), u.mirror = s.mirror → x.missing = (s.mirror.get k).missing →
      (∀ m, m ≠ k → (u.putMirror k x).mirror.get m = s.mirror.get m) ∧ ((u.putMirror k x).mirror.get k).missing = (s.mirror.get k).missing :=
    fun u x hu hx => ⟨fun m hm => by rw [State.putMirror, hu]; exact Tbl.get_put_ne _ _ _ _ hm, by rw [State.putMirror, Tbl.get_put_same, hx]⟩
  unfold State.mirrorFrame
  dsimp only
  split
  · exact hput _ _ rfl rfl
  · split
    · exact hput _ _ rfl rfl
    · rw [State.raise_mirror, State.count_mirror]
      exact hput _ _ rfl rfl

/-- At the last line of a link the frame ends. -/
def State.mirrorTail (s : State) (k : Nat) (last : Bool) : State := if last then s.mirrorFrame k else s

theorem State.mirrorTail_touches (s : State) (k : Nat) (last : Bool) : s.Touches (s.mirrorTail k last) [.regs, .ctlLatches, .mirror] :=
  .ite (State.mirrorFrame_touches ..) (.refl ..)

theorem State.writesIn_mirrorTail (s : State) (k : Nat) (last : Bool) : s.WritesIn (s.mirrorTail k last) (· ∈ mirrorEndKeys k) :=
  .ite (s.writesIn_mirrorFrame k) (.refl s _)

theorem State.mirrorTail_event {s : State} (k : Nat) (last : Bool) {g : Fld} (hg : g.width = 1) (hlo : g.lo < 32) (hoff : g.off = 0x010)
    (h : s.fld Pg.mirror g = 1) : (s.mirrorTail k last).fld Pg.mirror g = 1 := by
  unfold State.mirrorTail
  split
  · exact State.mirrorFrame_event k hg hlo hoff h
  · exact h

theorem State.mirrorTail_mirror (s : State) (k : Nat) (last : Bool) : (∀ m, m ≠ k → (s.mirrorTail k last).mirror.get m = s.mirror.get m)
    ∧ ((s.mirrorTail k last).mirror.get k).missing = (s.mirror.get k).missing := by
  unfold State.mirrorTail
  split
  · exact s.mirrorFrame_mirror k
  · exact ⟨fun _ _ => rfl, rfl⟩

/-! ### A line -/

/-- A recaptured line with a reference is counted and compared. -/
def State.mirrorCompared (s : State) (k line crc : Nat) (b : MirrorLine) : State :=
  let m := s.mirror.get k
  let s1 := (s.putMirror k { m with missing := 0, got := b.crc % 2 ^ 32 :: m.got, want := crc :: m.want }).count Pg.mirror
    (Reg.MIRROR_LINES_CHECKED k)
  let s2 := s1.raiseIf (decide (b.number ≠ lineNumber (s.engFmt (s.linkEngine k)) line)) Pg.mirror Reg.MIRROR_EVENT_LINE_NUM_ERR
  if b.crc % 2 ^ 32 = crc then s2 else (s2.count Pg.mirror (Reg.MIRROR_MISMATCH_LINES k)).raise Pg.mirror Reg.MIRROR_EVENT_LINE_MISMATCH

/-- Whether a line is the last that its link carries of a frame. -/
def State.lastLine (s : State) (k line : Nat) : Bool :=
  let fmt := s.engFmt (s.linkEngine k)
  lastOfLink (decide (fmt = 4)) k ((activeLine fmt line).getD 0) (fmtH fmt)

theorem State.mirrorLine_of_refs {s : State} {k line crc : Nat} {b : MirrorLine} (hb : b.behind = false) (hr : b.refs = true) :
    ∃ last, s.mirrorLine k line crc b = (s.mirrorCompared k line crc b).mirrorTail k last := by
  refine ⟨s.lastLine k line, ?_⟩
  unfold State.mirrorLine
  simp only [hb, hr, Bool.false_eq_true, Bool.true_eq_false, false_and, if_false, if_true]
  rfl

theorem State.mirrorLine_of_missing {s : State} {k line crc : Nat} {b : MirrorLine} (hb : b.behind = false) (hr : b.refs = false)
    (hm : (s.mirror.get k).missing = 0) :
    ∃ last, s.mirrorLine k line crc b =
      (s.putMirror k { s.mirror.get k with missing := 1, want := crc :: (s.mirror.get k).want }).mirrorTail k last := by
  refine ⟨s.lastLine k line, ?_⟩
  unfold State.mirrorLine
  simp only [hb, hr, hm, Bool.false_eq_true, if_false]
  rfl

theorem State.mirrorLine_of_behind {s : State} {k line crc : Nat} {b : MirrorLine}
    (h : b.behind = true ∨ (b.refs = false ∧ 1 ≤ (s.mirror.get k).missing)) : s.mirrorLine k line crc b = s.mirrorLost k := by
  unfold State.mirrorLine
  rcases h with h | ⟨h1, h2⟩
  · rw [if_pos h]
  · dsimp only
    simp only [h1, h2, and_self, if_true, ite_self]

/-- The line is taken from its engine, and a link's first line begins its frame anew. -/
def State.mirrorTaken (s : State) (k : Nat) (first : Bool) : State :=
  let n := s.linkEngine k
  let s1 := s.putEngine n { s.engine n with crcs := (s.engine n).crcs.eraseP fun y => decide (y.1 = k) }
  if first then s1.putMirror k { s1.mirror.get k with got := [], want := [], whole := true } else s1

theorem State.mirrorCheck_of_line {s : State} {k : Nat} {b : MirrorLine} {x : Nat × Nat × Nat} (hk : k < 4) (hm : s.mirrors k = true)
    (hx : (s.engine (s.linkEngine k)).crcs.find? (fun e => decide (e.1 = k)) = some x) (hl : s.isLost k = false) :
    ∃ first, s.mirrorCheck k b = (s.mirrorTaken k first).mirrorLine k x.2.1 x.2.2 b := by
  refine ⟨firstOfLink (decide (s.engFmt (s.linkEngine k) = 4)) k ((activeLine (s.engFmt (s.linkEngine k)) x.2.1).getD 0), ?_⟩
  unfold State.mirrorCheck State.mirrorTaken
  rw [if_neg (by simp [hm]; omega)]
  simp only [hx, hl, Bool.false_eq_true, if_false]
  split <;> rfl

theorem State.mirrorTaken_touches (s : State) (k : Nat) (first : Bool) : s.Touches (s.mirrorTaken k first) [.loupe, .mirror] :=
  .ite (.of_mix rfl rfl) (.of_mix rfl rfl)

theorem State.mirrorTaken_loupe (s : State) (k : Nat) (first : Bool) :
    (s.mirrorTaken k first).loupe = s.loupe.put (s.linkEngine k)
      { s.engine (s.linkEngine k) with crcs := (s.engine (s.linkEngine k)).crcs.eraseP fun y => decide (y.1 = k) } := by
  unfold State.mirrorTaken
  dsimp only
  split <;> rfl

theorem State.mirrorTaken_vals (s : State) (k : Nat) (first : Bool) (n : Nat) : ((s.mirrorTaken k first).engine n).vals = (s.engine n).vals := by
  rw [State.engine, State.mirrorTaken_loupe, Tbl.get_put]
  split
  · next h => rw [h]
  · rfl

/-- The format and the engine of a link are those of before. -/
theorem State.mirrorTaken_format (s : State) (k : Nat) (first : Bool) : (s.mirrorTaken k first).linkEngine k = s.linkEngine k
    ∧ ∀ n, (s.mirrorTaken k first).engFmt n = s.engFmt n := by
  have hregs := (s.mirrorTaken_touches k first).same .regs (by decide)
  have hlv : ∀ n f, (s.mirrorTaken k first).lv n f = s.lv n f := fun n f => by rw [State.lv, State.mirrorTaken_vals, State.lv]
  refine ⟨?_, fun n => hlv n _⟩
  unfold State.linkEngine State.engineRuns State.sdiOn State.engFmt State.engRate
  rw [State.fld_congr hregs, State.on_congr hregs, hlv, hlv]

theorem State.mirrorTaken_mirror (s : State) (k : Nat) (first : Bool) : (∀ m, m ≠ k → (s.mirrorTaken k first).mirror.get m = s.mirror.get m)
    ∧ ((s.mirrorTaken k first).mirror.get k).missing = (s.mirror.get k).missing := by
  unfold State.mirrorTaken
  dsimp only
  split
  · exact ⟨fun m hm => Tbl.get_put_ne _ _ _ _ hm, by rw [State.putMirror, Tbl.get_put_same]; rfl⟩
  · exact ⟨fun _ _ => rfl, rfl⟩

/-- What a line writes before its frame ends. -/
def mirrorLineKeys (k : Nat) : List Nat := [keyOf (Reg.MIRROR_LINES_CHECKED k) Pg.mirror, keyOf (Reg.MIRROR_MISMATCH_LINES k) Pg.mirror,
  keyOf Reg.MIRROR_EVENT_LINE_MISMATCH Pg.mirror]

theorem State.writesIn_mirrorCompared (s : State) (k line crc : Nat) (b : MirrorLine) :
    s.WritesIn (s.mirrorCompared k line crc b) (· ∈ mirrorLineKeys k) := by
  have h : ∀ m c, s.WritesIn (((s.putMirror k m).count Pg.mirror (Reg.MIRROR_LINES_CHECKED k)).raiseIf c Pg.mirror
      Reg.MIRROR_EVENT_LINE_NUM_ERR) (· ∈ mirrorLineKeys k) := fun m c =>
    .raiseIf (State.WritesIn.count (t := s.putMirror k m) (.of_regs (.refl s _) rfl) (by simp [mirrorLineKeys])) (by simp [mirrorLineKeys, keyOf])
  exact .ite (h _ _) (.raise (.count (h _ _) (by simp [mirrorLineKeys])) (by simp [mirrorLineKeys]))

theorem State.mirrorCompared_touches (s : State) (k line crc : Nat) (b : MirrorLine) :
    s.Touches (s.mirrorCompared k line crc b) [.regs, .ctlLatches, .mirror] := by
  have h : ∀ m c, s.Touches (((s.putMirror k m).count Pg.mirror (Reg.MIRROR_LINES_CHECKED k)).raiseIf c Pg.mirror
      Reg.MIRROR_EVENT_LINE_NUM_ERR) [.regs, .ctlLatches, .mirror] := fun m c =>
    .step (.step ((State.putMirror_touches ..).mono rfl) (State.count_touches ..) rfl) (State.raiseIf_touches ..) rfl
  exact .ite (h _ _) (.step (.step (h _ _) (State.count_touches ..) rfl) (State.raise_touches ..) rfl)

theorem State.mirrorCompared_mirror (s : State) (k line crc : Nat) (b : MirrorLine) (m : Nat) (hm : m ≠ k) :
    (s.mirrorCompared k line crc b).mirror.get m = s.mirror.get m := by
  have h : (s.mirrorCompared k line crc b).mirror = s.mirror.put k
      { s.mirror.get k with missing := 0, got := b.crc % 2 ^ 32 :: (s.mirror.get k).got, want := crc :: (s.mirror.get k).want } := by
    unfold State.mirrorCompared
    split <;> simp only [State.raise_mirror, State.count_mirror, State.raiseIf_mirror] <;> rfl
  rw [h, Tbl.get_put_ne _ _ _ _ hm]

/-- The counts and events of a line that is compared. -/
theorem State.fld_mirrorCompared (s : State) {k line crc : Nat} {b : MirrorLine} (hk : k < 4) :
    let t := s.mirrorCompared k line crc b
    t.fld Pg.mirror (Reg.MIRROR_LINES_CHECKED k) =
        min (s.fld Pg.mirror (Reg.MIRROR_LINES_CHECKED k) + 1) (2 ^ (Reg.MIRROR_LINES_CHECKED k).width - 1)
      ∧ (b.crc % 2 ^ 32 = crc → t.fld Pg.mirror (Reg.MIRROR_MISMATCH_LINES k) = s.fld Pg.mirror (Reg.MIRROR_MISMATCH_LINES k))
      ∧ (b.crc % 2 ^ 32 ≠ crc → t.fld Pg.mirror Reg.MIRROR_EVENT_LINE_MISMATCH = 1
          ∧ t.fld Pg.mirror (Reg.MIRROR_MISMATCH_LINES k) =
              min (s.fld Pg.mirror (Reg.MIRROR_MISMATCH_LINES k) + 1) (2 ^ (Reg.MIRROR_MISMATCH_LINES k).width - 1))
      ∧ (b.number ≠ lineNumber (s.engFmt (s.linkEngine k)) line → t.fld Pg.mirror Reg.MIRROR_EVENT_LINE_NUM_ERR = 1) := by
  let m : MirrorSt :=
    { s.mirror.get k with missing := 0, got := b.crc % 2 ^ 32 :: (s.mirror.get k).got, want := crc :: (s.mirror.get k).want }
  let c := decide (b.number ≠ lineNumber (s.engFmt (s.linkEngine k)) line)
  let u := ((s.putMirror k m).count Pg.mirror (Reg.MIRROR_LINES_CHECKED k)).raiseIf c Pg.mirror Reg.MIRROR_EVENT_LINE_NUM_ERR
  have hu : s.mirrorCompared k line crc b =
      if b.crc % 2 ^ 32 = crc then u else (u.count Pg.mirror (Reg.MIRROR_MISMATCH_LINES k)).raise Pg.mirror Reg.MIRROR_EVENT_LINE_MISMATCH := rfl
  have hraise : ∀ (v : State) c e, e.off = 0x010 → v.WritesIn (v.raiseIf c Pg.mirror e) (· = Pg.mirror * 0x1000 + 0x010) :=
    fun v c e he => .raiseIf (.refl v _) (by simp only [keyOf, he])
  have hne : ∀ f : Fld, f.off = 0x040 + 0x10 * k ∨ f.off = 0x044 + 0x10 * k → keyOf f Pg.mirror ≠ Pg.mirror * 0x1000 + 0x010 := by
    rintro f (hf | hf) <;> simp only [keyOf, hf] <;> omega
  have hchk : u.fld Pg.mirror (Reg.MIRROR_LINES_CHECKED k) =
      min (s.fld Pg.mirror (Reg.MIRROR_LINES_CHECKED k) + 1) (2 ^ (Reg.MIRROR_LINES_CHECKED k).width - 1) := by
    rw [(hraise _ _ _ rfl).fld (hne _ (.inl rfl)), State.fld_count_same _ _ (Reg.MIRROR_LINES_CHECKED k) (Nat.le_refl 32)]
    rfl
  have hmis : u.fld Pg.mirror (Reg.MIRROR_MISMATCH_LINES k) = s.fld Pg.mirror (Reg.MIRROR_MISMATCH_LINES k) := by
    rw [(hraise _ _ _ rfl).fld (hne _ (.inr rfl)), State.fld_count_ne _ (by simp only [keyOf]; omega)]
    rfl
  have hnum : b.number ≠ lineNumber (s.engFmt (s.linkEngine k)) line → u.fld Pg.mirror Reg.MIRROR_EVENT_LINE_NUM_ERR = 1 := fun h => by
    show (State.raiseIf _ c Pg.mirror _).fld _ _ = 1
    rw [show c = true from decide_eq_true h, State.raiseIf, if_pos rfl]
    exact State.fld_raise_same _ _ _ (by decide) rfl
  dsimp only
  rw [hu]
  by_cases hc : b.crc % 2 ^ 32 = crc
  · rw [if_pos hc]
    exact ⟨hchk, fun _ => hmis, fun h => absurd hc h, hnum⟩
  · rw [if_neg hc]
    have hev : ∀ (v : State) e, e.off = 0x010 → v.WritesIn (v.raise Pg.mirror e) (· = Pg.mirror * 0x1000 + 0x010) :=
      fun v e he => hraise v true e he
    refine ⟨?_, fun h => absurd h hc, fun _ => ⟨State.fld_raise_same _ _ _ (by decide) rfl, ?_⟩, fun h => ?_⟩
    · rw [(hev _ _ rfl).fld (hne _ (.inl rfl)), State.fld_count_ne _ (by simp only [keyOf]; omega), hchk]
    · rw [(hev _ _ rfl).fld (hne _ (.inr rfl)), State.fld_count_same _ _ (Reg.MIRROR_MISMATCH_LINES k) (Nat.le_refl 32), hmis]
    · refine State.fld_raise_of_one rfl rfl ?_
      rw [State.fld_count_ne _ (by simp only [keyOf]; omega)]
      exact hnum h

theorem mem_mirrorLineKeys_onPages {k a : Nat} (hk : k < 4) (h : a ∈ mirrorLineKeys k) : onPages [Pg.mirror] a := by
  have : ∀ k < 4, ∀ b ∈ mirrorLineKeys k, b / 0x1000 % 1024 ∈ [Pg.mirror] := by decide
  exact this k hk a h

theorem mem_mirrorEndKeys_onPages {k a : Nat} (hk : k < 4) (h : a ∈ mirrorEndKeys k) : onPages [Pg.mirror] a := by
  have : ∀ k < 4, ∀ b ∈ mirrorEndKeys k, b / 0x1000 % 1024 ∈ [Pg.mirror] := by decide
  exact this k hk a h

/-- The bit of a link that is lost. -/
theorem State.isLost_mirrorLost (s : State) {k : Nat} (hk : k < 4) : (s.mirrorLost k).isLost k = true
    ∧ (s.mirrorLost k).mirror.get k = {} ∧ (s.mirrorLost k).fld Pg.mirror Reg.MIRROR_EVENT_LOST = 1 := by
  have hw : s.fld Pg.mirror Reg.MIRROR_STATE_LOST ||| 2 ^ k < 2 ^ Reg.MIRROR_STATE_LOST.width :=
    Nat.or_lt_two_pow (s.fld_lt _ _) (Nat.pow_lt_pow_right (by decide) hk)
  refine ⟨?_, ?_, State.fld_raise_same _ _ _ (by decide) rfl⟩
  · rw [State.isLost, State.mirrorLost, State.fld_raise_ne _ _ _ _ _ (by decide) (.inl (by decide))]
    show ((s.setFld Pg.mirror Reg.MIRROR_STATE_LOST (s.fld Pg.mirror Reg.MIRROR_STATE_LOST ||| 2 ^ k)).fld Pg.mirror
      Reg.MIRROR_STATE_LOST).testBit k = true
    rw [State.fld_setFld_of_width _ _ _ _ (by decide) hw, Nat.testBit_lor, Nat.testBit_two_pow_self, Bool.or_true]
  · rw [State.mirrorLost, State.raise_mirror, State.putMirror, Tbl.get_put_same]

theorem State.writesIn_mirrorLost (s : State) (k : Nat) : s.WritesIn (s.mirrorLost k) (onPages [Pg.mirror]) :=
  State.WritesIn.raise (t := (s.setLost k true).putMirror k {})
    (State.WritesIn.of_regs (t := s.setLost k true) (.setFld (.refl s _) _ (onPages_keyOf (by decide) (by decide))) rfl)
    (onPages_keyOf (by decide) (by decide))

/-- A check that the comparison or a missing reference answers. -/
theorem mirrorLineChecks {s : State} {k : Nat} {b : MirrorLine} {x : Nat × Nat × Nat} (hk : k < 4) (hm : s.mirrors k = true)
    (hx : (s.engine (s.linkEngine k)).crcs.find? (fun e => decide (e.1 = k)) = some x) (hl : s.isLost k = false) :
    ∃ u : State, s.Touches u [.loupe, .mirror] ∧ u.linkEngine k = s.linkEngine k ∧ u.engFmt (s.linkEngine k) = s.engFmt (s.linkEngine k)
      ∧ u.loupe = s.loupe.put (s.linkEngine k)
        { s.engine (s.linkEngine k) with crcs := (s.engine (s.linkEngine k)).crcs.eraseP fun y => decide (y.1 = k) }
      ∧ (∀ m, m ≠ k → u.mirror.get m = s.mirror.get m) ∧ (u.mirror.get k).missing = (s.mirror.get k).missing
      ∧ exec (.mirrorLineCheck k b) s = .next (u.mirrorLine k x.2.1 x.2.2 b) := by
  obtain ⟨first, heq⟩ := State.mirrorCheck_of_line (b := b) hk hm hx hl
  obtain ⟨h1, h2⟩ := s.mirrorTaken_format k first
  obtain ⟨h3, h4⟩ := s.mirrorTaken_mirror k first
  exact ⟨_, s.mirrorTaken_touches k first, h1, h2 _, s.mirrorTaken_loupe k first, h3, h4, congrArg Host.Outcome.next heq⟩

/-- Settles O51: a line by `mirrorLineChecks` and the end of its frame, the rest by its equation. -/
theorem mirrorAndEthernet : Obligations.MirrorAndEthernet := by
  unfold Obligations.MirrorAndEthernet
  refine ⟨fun s k b x hk hm hx hl => ?line, fun s e frame he hup => ?frame, fun s e up he hmode hen hne => ?link,
    fun s e he hmode hen => ?fec⟩
  case line =>
    obtain ⟨u, hto, hlink, hfmt, hloupe, hmir, hmiss, heq⟩ := mirrorLineChecks (b := b) hk hm hx hl
    have hregs := hto.same .regs (by decide)
    have hwu : s.WritesIn u (onPages [Pg.mirror]) := .of_regs (.refl s _) hregs
    refine ⟨fun hb hr => ?_, fun hb hr h0 => ?_, fun h => ?_⟩
    · obtain ⟨last, hl'⟩ := State.mirrorLine_of_refs (s := u) (k := k) (line := x.2.1) (crc := x.2.2) hb hr
      rw [hl'] at heq
      obtain ⟨h1, h2, h3, h4⟩ := u.fld_mirrorCompared (line := x.2.1) (crc := x.2.2) (b := b) hk
      have hw1 := u.writesIn_mirrorCompared k x.2.1 x.2.2 b
      have hw2 := State.writesIn_mirrorTail (u.mirrorCompared k x.2.1 x.2.2 b) k last
      have hto1 := u.mirrorCompared_touches k x.2.1 x.2.2 b
      have hto2 := State.mirrorTail_touches (u.mirrorCompared k x.2.1 x.2.2 b) k last
      have htail := (State.mirrorTail_mirror (u.mirrorCompared k x.2.1 x.2.2 b) k last).1
      have hall : s.Touches _ [.regs, .ctlLatches, .loupe, .mirror] := .step (.step (hto.mono rfl) hto1 rfl) hto2 rfl
      have hchk : keyOf (Reg.MIRROR_LINES_CHECKED k) Pg.mirror ∉ mirrorEndKeys k := by interval_cases k <;> decide
      have hmis : keyOf (Reg.MIRROR_MISMATCH_LINES k) Pg.mirror ∉ mirrorEndKeys k := by interval_cases k <;> decide
      have hev := fun g => State.mirrorTail_event (s := u.mirrorCompared k x.2.1 x.2.2 b) k last (g := g)
      rw [State.fld_congr hregs] at h1
      rw [State.fld_congr hregs] at h2 h3
      rw [hlink, hfmt] at h4
      refine ⟨_, heq, (hw2.fld hchk).trans h1, fun h => (hw2.fld hmis).trans (h2 h), fun h => ⟨hev _ rfl (by decide) rfl (h3 h).1,
        (hw2.fld hmis).trans (h3 h).2⟩, fun h => hev _ rfl (by decide) rfl (h4 h), ?_, fun m hm' => ?_, fun m hm' => ?_, hall.eq_mix, ?_,
        hall.keepsBytes rfl⟩
      · rw [State.engine, hto2.same .loupe (by decide), hto1.same .loupe (by decide), hloupe, Tbl.get_put_same]
      · rw [State.engine, hto2.same .loupe (by decide), hto1.same .loupe (by decide), hloupe, Tbl.get_put_ne _ _ _ _ hm']
        rfl
      · rw [htail m hm', State.mirrorCompared_mirror _ _ _ _ _ _ hm', hmir m hm']
      · exact (hwu.trans ((hw1.mono fun a => mem_mirrorLineKeys_onPages hk).trans (hw2.mono fun a => mem_mirrorEndKeys_onPages hk))).keepsPages
    · obtain ⟨last, hl'⟩ := State.mirrorLine_of_missing (s := u) (k := k) (line := x.2.1) (crc := x.2.2) hb hr (hmiss.trans h0)
      rw [hl'] at heq
      have hput : u.Touches (u.putMirror k { u.mirror.get k with missing := 1, want := x.2.2 :: (u.mirror.get k).want }) [.mirror] :=
        State.putMirror_touches ..
      have hwp : u.WritesIn (u.putMirror k { u.mirror.get k with missing := 1, want := x.2.2 :: (u.mirror.get k).want })
          (onPages [Pg.mirror]) := .of_regs (.refl u _) rfl
      have hmp : ((u.putMirror k { u.mirror.get k with missing := 1, want := x.2.2 :: (u.mirror.get k).want }).mirror.get k).missing = 1 := by
        rw [State.putMirror, Tbl.get_put_same]
      generalize u.putMirror k { u.mirror.get k with missing := 1, want := x.2.2 :: (u.mirror.get k).want } = y at *
      have hw2 := y.writesIn_mirrorTail k last
      have hall : s.Touches (y.mirrorTail k last) [.regs, .ctlLatches, .loupe, .mirror] :=
        .step (.step (hto.mono rfl) hput rfl) (State.mirrorTail_touches ..) rfl
      refine ⟨_, heq, ((y.mirrorTail_mirror k last).2).trans hmp, ?_, hall.eq_mix, ?_, hall.keepsBytes rfl⟩
      · rw [hw2.fld (by interval_cases k <;> decide), State.fld_congr ((hput.same .regs (by decide)).trans hregs)]
      · exact (hwu.trans (hwp.trans (hw2.mono fun a => mem_mirrorEndKeys_onPages hk))).keepsPages
    · rw [State.mirrorLine_of_behind (by rw [hmiss]; exact h)] at heq
      obtain ⟨h1, h2, h3⟩ := u.isLost_mirrorLost hk
      have hall : s.Touches (u.mirrorLost k) [.regs, .ctlLatches, .loupe, .mirror] := .step (hto.mono rfl) (State.mirrorLost_touches ..) rfl
      exact ⟨_, heq, h1, h3, h2, hall.eq_mix, (hwu.trans (u.writesIn_mirrorLost k)).keepsPages, hall.keepsBytes rfl⟩
  case frame =>
    have hno : ¬ (2 ≤ e ∨ s.ethUp e = false) := by simp [hup]; omega
    have heq : exec (.ethRxFrame e frame) s =
      .next (if 2 ≤ e ∨ s.ethUp e = false ∨ isPtp frame then s else s.count (Pg.eth e) Reg.ETH_RX_DISCARDS) := rfl
    refine ⟨fun hp => ⟨_, heq.trans (congrArg Host.Outcome.next (if_neg ?_)), State.fld_count_same _ _ _ (by decide), ?_⟩,
      fun hp => heq.trans (congrArg Host.Outcome.next (if_pos (.inr (.inr hp))))⟩
    · simpa [hp] using hno
    · exact (State.Kept.refl s _).count (by simp)
  case link =>
    have hno : ¬ (2 ≤ e ∨ outputMode s.ctl.mode = false ∨ s.on (Pg.eth e) Reg.ETH_CTRL_ENABLE = false) := by
      simp [hmode, hen]; omega
    have heq : exec (.ethLinkChange e up) s = .next (s.setEthLink e up) := congrArg Host.Outcome.next (if_neg hno)
    have hset : s.setEthLink e up = ((s.setOn (Pg.eth e) Reg.ETH_STATE_LINK_UP up).setOn (Pg.eth e) Reg.ETH_STATE_FEC_LOCK up).raise (Pg.eth e)
        (if up then Reg.ETH_EVENT_LINK_UP else Reg.ETH_EVENT_LINK_DOWN) := if_neg hne
    have hoff : ∀ f g : Fld, f.off = 0x00C → g.off = 0x010 → keyOf f (Pg.eth e) ≠ keyOf g (Pg.eth e) := fun f g hf hg =>
      keyOf_ne_of_off (by omega) (by omega) (by omega)
    have hbit : ∀ (u : State) (f : Fld), f.lo + f.width ≤ 32 → f.width = 1 → (u.setOn (Pg.eth e) f up).on (Pg.eth e) f = up := fun u f hf hw => by
      rw [State.on, State.setOn, State.fld_setFld_same _ _ _ _ hf, hw]
      cases up <;> rfl
    have hoff' : (if up then Reg.ETH_EVENT_LINK_UP else Reg.ETH_EVENT_LINK_DOWN).off = 0x010 := by cases up <;> rfl
    rw [hset] at heq
    refine ⟨_, heq, ?_, ?_, fun h => ?_, fun h => ?_, State.Kept.raise (State.Kept.setOn (State.Kept.setOn (.refl s _) _ (by simp)) _ ?_) ?_⟩
    · rw [State.on, State.fld_raise_ne _ _ _ _ _ (by decide) (.inl (hoff _ _ rfl hoff')), State.setOn,
        State.fld_setFld_ne _ _ _ _ _ _ (by decide) (.inr (by decide)), ← State.on, hbit _ _ (by decide) rfl]
    · rw [State.on, State.fld_raise_ne _ _ _ _ _ (by decide) (.inl (hoff _ _ rfl hoff')), ← State.on, hbit _ _ (by decide) rfl]
    · rw [if_pos h]; exact State.fld_raise_same _ _ _ (by decide) rfl
    · rw [if_neg (by simp [h])]; exact State.fld_raise_same _ _ _ (by decide) rfl
    · simp [keyOf]
    · simp [keyOf, hoff']
  case fec =>
    have hno : ¬ (2 ≤ e ∨ outputMode s.ctl.mode = false ∨ s.on (Pg.eth e) Reg.ETH_CTRL_ENABLE = false) := by
      simp [hmode, hen]; omega
    refine ⟨⟨s.count (Pg.eth e) Reg.ETH_FEC_CORR, congrArg Host.Outcome.next (if_neg hno), State.fld_count_same _ _ _ (by decide),
      (State.Kept.refl s _).count (by simp)⟩, ⟨(s.count (Pg.eth e) Reg.ETH_FEC_UNCORR).raise (Pg.eth e) Reg.ETH_EVENT_FEC_UNCORR,
      congrArg Host.Outcome.next (if_neg hno), ?_, State.fld_raise_same _ _ _ (by decide) rfl,
      State.Kept.raise (State.Kept.count (State.Kept.refl s _) (by simp)) (by simp)⟩⟩
    rw [State.fld_raise_ne _ _ _ _ _ (by decide) (.inl ?_), State.fld_count_same _ _ _ (by decide)]
    exact keyOf_ne_of_off (by decide) (by decide) (by decide)

end Sys2Proof.Machine
end

section
/-! SUPPORT. What a reset leaves (R55, R517). -/

set_option Elab.async false

namespace Sys2Proof.Machine

theorem Sparse.read_filter {α : Type} (d : Nat → α) (keep : Nat → Bool) (m : List (Nat × α)) (k : Nat) :
    Sparse.read d (m.filter fun e => keep e.1) k = if keep k then Sparse.read d m k else d k := by
  induction m with
  | nil => simp [Sparse.read]
  | cons e m ih =>
    obtain ⟨a, v⟩ := e
    by_cases h : a = k
    · subst h
      cases hk : keep a with
      | true => simp [List.filter_cons_of_pos, hk, Sparse.read]
      | false => rw [List.filter_cons_of_neg (by simp [hk]), ih, hk, if_neg Bool.false_ne_true, if_neg Bool.false_ne_true]
    · cases ha : keep a with
      | true => simp only [List.filter_cons, ha, if_true, Sparse.read, if_neg h, ih]
      | false => simp only [List.filter_cons, ha, Bool.false_eq_true, if_false, Sparse.read, if_neg h, ih]

/-- A reset with its cause leaves what `State.ResetOf` says. -/
theorem State.resetOf_toReset (s : State) {cause : Nat} (ph : Phase) (hold : Bool) (hc : cause < 16) :
    s.ResetOf (s.toReset cause ph hold) cause ph hold := by
  refine ⟨?_, State.fld_setFld_of_width _ _ _ _ (by decide) hc, fun a ha => ?_, fun h => ?_, fun h => ?_, fun k hk hcause hw => ?_⟩
  · unfold State.toReset Rsm.interrupt
    split
    · rfl
    · split <;> rfl
  · exact (State.rd_setFld_ne _ _ _ _ _ ha).trans (Sparse.read_filter factoryWord deviceReg s.regs a)
  · show s.rsm.interrupt.bank0 = _
    unfold Rsm.interrupt
    cases hr : s.rsm.running with
    | none => rfl
    | some r => simp only [if_neg (h r hr)]
  · show s.rsm.interrupt.bank1 = _
    unfold Rsm.interrupt
    cases hr : s.rsm.running with
    | none => rfl
    | some r => simp only [if_pos (h r hr)]
  · have hreset : ∀ (d : DriveSt) lba seed, d.writes = [] → (d.reset lba seed (decide (cause = 1))).mem = d.mem := fun d lba seed hd => by
      simp [DriveSt.reset, hd, hcause]
    have hd : (s.toReset cause ph hold).drive k =
        (s.drive k).reset (2 ^ s.fld (Pg.media k) Reg.MEDIA_LBA) (2 * s.seed + k) (decide (cause = 1)) := by
      have h01 : k = 0 ∨ k = 1 := by omega
      rcases h01 with rfl | rfl
      · exact (Tbl.get_put_ne _ _ _ _ (by decide)).trans (Tbl.get_put_same _ _ _)
      · exact Tbl.get_put_same _ _ _
    rw [hd, hreset _ _ _ hw]

/-- A reset after steps that leave registers beyond those it keeps, and engines that it clears. -/
theorem State.ResetOf.of_touches {s u t : State} {cause : Nat} {ph : Phase} {hold : Bool} {P : Nat → Prop} (h : u.ResetOf t cause ph hold)
    (hto : s.Touches u [.regs, .ctlLatches, .thermBad]) (hw : s.WritesIn u P) (hP : ∀ a, P a → deviceReg a = false) :
    s.ResetOf t cause ph hold := by
  obtain ⟨h1, h2, h3, h4, h5, h6⟩ := h
  have hu := hto.eq_mix
  have hrsm : u.rsm = s.rsm := by rw [hu]; rfl
  have hmedia : u.media = s.media := by rw [hu]; rfl
  refine ⟨?_, h2, fun a ha => ?_, fun h => ?_, fun h => ?_, fun k hk hcause hwr => ?_⟩
  · rw [hto.same .pending (by decide), hto.same .out (by decide), hto.same .ctlStraps (by decide), hto.same .fwFlash0 (by decide),
      hto.same .fwFlash1 (by decide)] at h1
    exact h1
  · rw [h3 a ha]
    split
    · next hd => exact hw a fun hp => Bool.false_ne_true ((hP a hp).symm.trans hd)
    · rfl
  · rw [hrsm] at h4; exact h4 h
  · rw [hrsm] at h5; exact h5 h
  · have hdrive : u.drive k = s.drive k := by rw [State.drive, hmedia, State.drive]
    exact hdrive ▸ h6 k hk hcause (hdrive ▸ hwr)

end Sys2Proof.Machine
end

section
/-! PROOFS. Temperature levels and the trip (R487, R488, R491). -/

namespace Sys2Proof.Machine

/-! ### Signed fields -/

/-- A signed number of sixteen bits. -/
theorem signed_unsigned {y : Int} (h : -32768 ≤ y ∧ y < 32768) : signed 16 (unsigned 16 y) = y := by
  have hu : (unsigned 16 y : Int) = y % 65536 := Int.toNat_of_nonneg (Int.emod_nonneg _ (by decide))
  unfold signed
  split <;> omega

theorem unsigned_lt (y : Int) : unsigned 16 y < 2 ^ 16 := by
  have hu : (unsigned 16 y : Int) = y % 65536 := Int.toNat_of_nonneg (Int.emod_nonneg _ (by decide))
  omega

theorem State.sfld_setSfld (s : State) {p : Nat} {f : Fld} {y : Int} (hf : f.lo + f.width ≤ 32) (hw : f.width = 16) (h : -32768 ≤ y ∧ y < 32768) :
    (s.setSfld p f y).sfld p f = y := by
  rw [State.sfld, State.setSfld, hw, State.fld_setFld_of_width _ _ _ _ hf (by rw [hw]; exact unsigned_lt y), signed_unsigned h]

theorem State.sfld_range (s : State) {p : Nat} {f : Fld} (hw : f.width = 16) : -32768 ≤ s.sfld p f ∧ s.sfld p f < 32768 := by
  have := s.fld_lt p f
  rw [hw] at this
  unfold State.sfld signed
  rw [hw]
  split <;> omega

theorem State.WritesIn.sfld {s t : State} {P : Nat → Prop} (h : s.WritesIn t P) {p : Nat} {f : Fld} (hp : ¬ P (keyOf f p)) :
    t.sfld p f = s.sfld p f := by rw [State.sfld, h.fld hp, State.sfld]

/-! ### The readings -/

/-- Every reading is shown. -/
def State.showSensors (s : State) (t : List Int) (ks : List Nat) : State :=
  ks.foldl (fun (s : State) k => s.setSfld Pg.therm (Reg.THERM_SENSOR k) (t.getD k 0)) s

theorem State.writesIn_showSensors (s : State) (t : List Int) (ks : List Nat) :
    s.WritesIn (s.showSensors t ks) (· ∈ ks.map fun k => keyOf (Reg.THERM_SENSOR k) Pg.therm) :=
  .foldl (.refl s _) _ fun u _ hk => .setSfld (.refl u _) _ (List.mem_map_of_mem hk)

theorem State.showSensors_touches (s : State) (t : List Int) (ks : List Nat) : s.Touches (s.showSensors t ks) [.regs] :=
  .foldl (.refl ..) (fun _ _ => State.setSfld_touches ..) _

theorem State.sfld_showSensors (s : State) {t : List Int} {ks : List Nat} {k : Nat} (hk : k ∈ ks) (hnd : ks.Nodup)
    (hr : ∀ j ∈ ks, -32768 ≤ t.getD j 0 ∧ t.getD j 0 < 32768) :
    (s.showSensors t ks).sfld Pg.therm (Reg.THERM_SENSOR k) = t.getD k 0 := by
  induction ks generalizing s with
  | nil => exact absurd hk List.not_mem_nil
  | cons m ks ih =>
    obtain ⟨hm, hnd'⟩ := List.nodup_cons.1 hnd
    rcases List.mem_cons.1 hk with rfl | hk'
    · refine ((State.writesIn_showSensors _ t ks).sfld ?_).trans
        (State.sfld_setSfld s (f := Reg.THERM_SENSOR k) (by show 16 ≤ 32; decide) rfl (hr k List.mem_cons_self))
      simp only [List.mem_map, keyOf, not_exists, not_and]
      intro j hj he
      have : j = k := by omega
      exact hm (this ▸ hj)
    · exact ih _ hk' hnd' fun j hj => hr j (List.mem_cons_of_mem _ hj)

/-- A sensor that is not faulty and agrees with its neighbours stays so. -/
theorem State.crossCheck_of_near {s : State} {t : List Int} {k : Nat} (hf : s.fld Pg.therm Reg.THERM_SENSOR_FAULT = 0)
    (hb : beyond t (max 1 (s.fld Pg.therm Reg.THERM_XCHK_DIFF)) k = false) :
    s.crossCheck t k = s.setTherm { s.therm with bad := s.therm.bad.put k 0 } := by
  unfold State.crossCheck State.sensorBad
  simp only [hf, Nat.zero_testBit, Bool.false_eq_true, if_false, hb]
  exact if_pos (by omega)

theorem State.crossChecks_touches {s : State} {t : List Int} {ks : List Nat} (hf : s.fld Pg.therm Reg.THERM_SENSOR_FAULT = 0)
    (hb : ∀ k ∈ ks, beyond t (max 1 (s.fld Pg.therm Reg.THERM_XCHK_DIFF)) k = false) :
    s.Touches (ks.foldl (fun (s : State) k => s.crossCheck t k) s) [.thermBad] := by
  induction ks generalizing s with
  | nil => exact .refl ..
  | cons k ks ih =>
    rw [List.foldl_cons, State.crossCheck_of_near hf (hb k List.mem_cons_self)]
    have hto : s.Touches (s.setTherm { s.therm with bad := s.therm.bad.put k 0 }) [.thermBad] := .of_mix rfl rfl
    exact hto.trans (ih hf fun j hj => hb j (List.mem_cons_of_mem _ hj))

/-! ### Tj -/

theorem foldl_max_le {l : List Int} {h x : Int} (hh : h ≤ x) (hl : ∀ y ∈ l, y ≤ x) : l.foldl max h ≤ x := by
  induction l generalizing h with
  | nil => exact hh
  | cons y l ih => exact ih (max_le hh (hl y List.mem_cons_self)) fun z hz => hl z (List.mem_cons_of_mem _ hz)

theorem le_foldl_max {l : List Int} {h x : Int} (hx : x ≤ h ∨ x ∈ l) : x ≤ l.foldl max h := by
  induction l generalizing h with
  | nil => exact hx.resolve_right List.not_mem_nil
  | cons y l ih =>
    refine ih (hx.elim (fun h1 => .inl (le_trans h1 (le_max_left _ _))) fun h1 => ?_)
    rcases List.mem_cons.1 h1 with rfl | h2
    · exact .inl (le_max_right _ _)
    · exact .inr h2

theorem validTemps_of_good {s : State} {l : List Int} (hl : l.length = 16) (hf : s.fld Pg.therm Reg.THERM_SENSOR_FAULT = 0) :
    s.validTemps l = l := by
  have hbad : ∀ k, s.sensorBad k = false := fun k => by rw [State.sensorBad, hf, Nat.zero_testBit]
  have hall : (List.range 16).filter (fun k => !s.sensorBad k) = List.range 16 := List.filter_eq_self.2 fun k _ => by rw [hbad]; rfl
  rw [State.validTemps, hall]
  refine List.ext_getElem (by simp [hl]) fun i h1 h2 => ?_
  simp [h2]

/-- With sixteen valid sensors Tj is the highest reading. -/
theorem State.tjOf_of_good {s : State} {l : List Int} {x : Int} (hl : l.length = 16) (hf : s.fld Pg.therm Reg.THERM_SENSOR_FAULT = 0)
    (hx : x ∈ l) (hmax : ∀ y ∈ l, y ≤ x) : s.tjOf l = x := by
  unfold State.tjOf
  rw [validTemps_of_good hl hf]
  cases l with
  | nil => exact absurd hl (by decide)
  | cons h l =>
    have hlen : ¬ (h :: l).length ≤ 12 := by omega
    simp only [if_neg hlen, add_zero]
    refine le_antisymm (foldl_max_le (hmax h List.mem_cons_self) fun y hy => hmax y (List.mem_cons_of_mem _ hy)) (le_foldl_max ?_)
    exact (List.mem_cons.1 hx).imp le_of_eq id

/-! ### The level -/

/-- The registers of a sample. -/
def State.tjShown (s : State) (x top rate : Int) (b : Bool) : State :=
  (((s.setSfld Pg.therm Reg.THERM_TJ x).setSfld Pg.therm Reg.THERM_MAX_TJ top).setSfld Pg.therm Reg.THERM_RATE rate).setOn Pg.therm
    Reg.THERM_STATE_DEGRADED b

/-- The highest Tj up to a sample. -/
def State.topOf (s : State) (x : Int) : Int := if s.therm.hist.isEmpty then x else max x (s.sfld Pg.therm Reg.THERM_MAX_TJ)

theorem State.showTj_regs (s : State) (x : Int) : ∃ rate, (s.showTj x).regs =
    (s.tjShown x (s.topOf x) rate (decide (4 ≤ ((List.range 16).filter s.sensorBad).length))).regs := ⟨_, rfl⟩

theorem State.showTj_therm (s : State) (x : Int) : (s.showTj x).therm = { s.therm with hist := (x :: s.therm.hist).take 1001 } := rfl

theorem State.writesIn_tjShown (s : State) (x top rate : Int) (b : Bool) : s.WritesIn (s.tjShown x top rate b)
    (· ∈ [keyOf Reg.THERM_TJ Pg.therm, keyOf Reg.THERM_MAX_TJ Pg.therm, keyOf Reg.THERM_RATE Pg.therm, keyOf Reg.THERM_STATE_LEVEL Pg.therm]) :=
  State.WritesIn.setOn (State.WritesIn.setSfld (State.WritesIn.setSfld (State.WritesIn.setSfld (.refl s _) _ (by simp)) _ (by simp)) _
    (by simp)) _ (by simp [keyOf])

theorem State.writesIn_showTj (s : State) (x : Int) : s.WritesIn (s.showTj x)
    (· ∈ [keyOf Reg.THERM_TJ Pg.therm, keyOf Reg.THERM_MAX_TJ Pg.therm, keyOf Reg.THERM_RATE Pg.therm, keyOf Reg.THERM_STATE_LEVEL Pg.therm]) := by
  obtain ⟨rate, h⟩ := s.showTj_regs x
  exact State.WritesIn.of_regs (s.writesIn_tjShown _ _ _ _) h

/-- Tj, its highest value and the fault summary after a sample; the level is as before. -/
theorem State.fld_showTj (s : State) {x : Int} (hx : -32768 ≤ x ∧ x < 32768) (hf : s.fld Pg.therm Reg.THERM_SENSOR_FAULT = 0) :
    (s.showTj x).sfld Pg.therm Reg.THERM_TJ = x
      ∧ (s.showTj x).sfld Pg.therm Reg.THERM_MAX_TJ = (if s.therm.hist = [] then x else max x (s.sfld Pg.therm Reg.THERM_MAX_TJ))
      ∧ (s.showTj x).fld Pg.therm Reg.THERM_STATE_DEGRADED = 0
      ∧ (s.showTj x).fld Pg.therm Reg.THERM_STATE_LEVEL = s.fld Pg.therm Reg.THERM_STATE_LEVEL := by
  have htop : s.topOf x = if s.therm.hist = [] then x else max x (s.sfld Pg.therm Reg.THERM_MAX_TJ) := by
    simp [State.topOf, List.isEmpty_iff]
  have hrange : -32768 ≤ s.topOf x ∧ s.topOf x < 32768 := by
    have := s.sfld_range (p := Pg.therm) (f := Reg.THERM_MAX_TJ) rfl
    unfold State.topOf
    split <;> omega
  have hgood : (List.range 16).filter s.sensorBad = [] :=
    List.filter_eq_nil_iff.2 fun k _ => by rw [State.sensorBad, hf, Nat.zero_testBit]; exact Bool.false_ne_true
  obtain ⟨rate, h⟩ := s.showTj_regs x
  rw [State.sfld, State.sfld, State.fld_congr h, State.fld_congr h, State.fld_congr h, State.fld_congr h, ← State.sfld, ← State.sfld, hgood,
    ← htop]
  have hset : ∀ (u : State) (f : Fld) (y : Int), u.WritesIn (u.setSfld Pg.therm f y) (· = keyOf f Pg.therm) := fun u f y => .setSfld (.refl u _) _ rfl
  have hon : ∀ (u : State) b, u.WritesIn (u.setOn Pg.therm Reg.THERM_STATE_DEGRADED b) (· = keyOf Reg.THERM_STATE_DEGRADED Pg.therm) :=
    fun u b => .setOn (.refl u _) _ rfl
  refine ⟨?_, ?_, State.fld_setFld_same _ _ _ _ (by decide), ?_⟩
  · rw [State.tjShown, (hon _ _).sfld (by decide), (hset _ _ _).sfld (by decide), (hset _ _ _).sfld (by decide),
      State.sfld_setSfld _ (by decide) rfl hx]
  · rw [State.tjShown, (hon _ _).sfld (by decide), (hset _ _ _).sfld (by decide), State.sfld_setSfld _ (by decide) rfl hrange]
  · rw [State.tjShown, State.setOn, State.fld_setFld_ne _ _ _ _ _ _ (by decide) (.inr (by decide)), (hset _ _ _).fld (by decide),
      (hset _ _ _).fld (by decide), (hset _ _ _).fld (by decide)]

theorem State.writesIn_riseCheck (s : State) : s.WritesIn s.riseCheck (· = keyOf Reg.THERM_EVENT_WARN Pg.therm) := by
  have h : ∀ t, s.WritesIn (s.setTherm t) (· = keyOf Reg.THERM_EVENT_WARN Pg.therm) := fun t => .of_regs (.refl s _) rfl
  exact (h _).raiseIf rfl

theorem State.writesIn_countAbove (s : State) : s.WritesIn s.countAbove (· = keyOf Reg.THERM_ABOVE_WARN Pg.therm) := by
  have h : ∀ t, s.WritesIn (s.setTherm t) (· = keyOf Reg.THERM_ABOVE_WARN Pg.therm) := fun t => .of_regs (.refl s _) rfl
  exact .ite (.refl s _) (.ite (h _) ((h _).count rfl))

/-- LEVEL and the event of its first rise. -/
def State.levelShown (s : State) (x : Int) : State :=
  (s.setFld Pg.therm Reg.THERM_STATE_LEVEL (if s.critAt ≤ x then 2 else if s.warnAt ≤ x then 1 else 0)).raiseIf (decide (s.warnAt ≤ x)) Pg.therm
    Reg.THERM_EVENT_WARN

/-- A level that rises from 0 where nothing is to stop. -/
theorem State.setLevel_of_cool {s : State} {x : Int} (hx : s.sfld Pg.therm Reg.THERM_TJ = x) (h0 : s.fld Pg.therm Reg.THERM_STATE_LEVEL = 0)
    (hh : s.therm.hot = false) (hm : s.ctl.mode = .standby ∨ x < s.critAt) :
    s.setLevel = if s.critAt ≤ x then (s.levelShown x).raise Pg.therm Reg.THERM_EVENT_CRIT else s.levelShown x := by
  have hlevel : s.levelFor x = if s.critAt ≤ x then 2 else if s.warnAt ≤ x then 1 else 0 := by
    unfold State.levelFor
    simp [h0, hh]
  have hwarn : s.warnAt ≤ s.critAt := le_max_left _ _
  have hstop : ∀ (u : State) b, u.ctl.mode = .standby → u.stopDecision b = u := fun u b hu => by
    unfold State.stopDecision
    simp [hu]
  have hev : decide (0 = 0 ∧ 1 ≤ s.levelFor x ∧ s.warnAt ≤ x) = decide (s.warnAt ≤ x) := by
    refine decide_eq_decide.2 ⟨fun h => h.2.2, fun h => ⟨rfl, ?_, h⟩⟩
    rw [hlevel, if_pos h]
    split <;> decide
  unfold State.setLevel
  dsimp only
  rw [hx, h0, hev, hlevel]
  by_cases hc : s.critAt ≤ x
  · rw [if_pos hc, if_pos hc, if_pos ⟨by decide, rfl⟩, State.levelShown, if_pos hc]
    refine hstop _ _ ?_
    rw [(State.raise_touches ..).same .ctlMode (by decide), (State.raiseIf_touches ..).same .ctlMode (by decide)]
    exact hm.resolve_right (not_lt.2 hc)
  · rw [if_neg hc, if_neg hc, State.levelShown, if_neg hc, if_neg]
    rintro ⟨-, h⟩
    split at h <;> exact absurd h (by decide)

theorem State.writesIn_levelShown (s : State) (x : Int) :
    s.WritesIn (s.levelShown x) (· ∈ [keyOf Reg.THERM_STATE_LEVEL Pg.therm, keyOf Reg.THERM_EVENT_WARN Pg.therm]) :=
  State.WritesIn.raiseIf (State.WritesIn.setFld (.refl s _) _ (by simp)) (by simp)

/-- What a rise of the level shows. -/
theorem State.fld_levelShown (s : State) (x : Int) :
    (s.levelShown x).fld Pg.therm Reg.THERM_STATE_LEVEL = (if s.critAt ≤ x then 2 else if s.warnAt ≤ x then 1 else 0)
      ∧ (s.warnAt ≤ x → (s.levelShown x).fld Pg.therm Reg.THERM_EVENT_WARN = 1)
      ∧ (s.levelShown x).fld Pg.therm Reg.THERM_STATE_DEGRADED = s.fld Pg.therm Reg.THERM_STATE_DEGRADED := by
  have hraise : ∀ (u : State) c, u.WritesIn (u.raiseIf c Pg.therm Reg.THERM_EVENT_WARN) (· = keyOf Reg.THERM_EVENT_WARN Pg.therm) :=
    fun u c => .raiseIf (.refl u _) rfl
  refine ⟨?_, fun h => ?_, ?_⟩
  · rw [State.levelShown, (hraise _ _).fld (by decide), State.fld_setFld_of_width _ _ _ _ (by decide)]
    split
    · decide
    · split <;> decide
  · rw [State.levelShown, decide_eq_true h, State.raiseIf, if_pos rfl]
    exact State.fld_raise_same _ _ _ (by decide) rfl
  · rw [State.levelShown, (hraise _ _).fld (by decide), State.fld_setFld_ne _ _ _ _ _ _ (by decide) (.inr (by decide))]

/-- A sample of sixteen good sensors: the readings are shown, and Tj is the highest of them. -/
theorem State.thermSample_of_good {s : State} {l : List Int} {x : Int} (hlen : l.length = 16) (hr : ∀ y ∈ l, -32768 ≤ y ∧ y < 32768)
    (hb : ∀ k, k < 16 → beyond l (max 1 (s.fld Pg.therm Reg.THERM_XCHK_DIFF)) k = false) (hx : x ∈ l) (hmax : ∀ y ∈ l, y ≤ x)
    (hf : s.fld Pg.therm Reg.THERM_SENSOR_FAULT = 0) :
    ∃ u : State, s.Touches u [.regs, .thermBad]
      ∧ s.WritesIn u (· ∈ (List.range 16).map fun k => keyOf (Reg.THERM_SENSOR k) Pg.therm)
      ∧ (∀ k, k < 16 → u.sfld Pg.therm (Reg.THERM_SENSOR k) = l.getD k 0)
      ∧ s.thermSample l = if s.tripAt ≤ x then u.thermalTrip else (u.showTj x).riseCheck.setLevel.countAbove := by
  have hl : (List.range 16).map (fun k => signed 16 (unsigned 16 (l.getD k 0))) = l := by
    refine List.ext_getElem (by simp [hlen]) fun i h1 h2 => ?_
    have hg : l.getD i 0 = l[i] := by simp [h2]
    rw [List.getElem_map, List.getElem_range, hg, signed_unsigned (hr _ (List.getElem_mem h2))]
  have hw := s.writesIn_showSensors l (List.range 16)
  have hto := s.showSensors_touches l (List.range 16)
  have hnot : ∀ f : Fld, f.off < 0x060 → keyOf f Pg.therm ∉ (List.range 16).map fun k => keyOf (Reg.THERM_SENSOR k) Pg.therm := fun f hf h => by
    obtain ⟨k, -, hk⟩ := List.mem_map.1 h
    simp only [keyOf] at hk
    omega
  have hf1 : (s.showSensors l (List.range 16)).fld Pg.therm Reg.THERM_SENSOR_FAULT = 0 := (hw.fld (hnot _ (by decide))).trans hf
  have hchk := State.crossChecks_touches (t := l) (ks := List.range 16) hf1 fun k hk => by
    rw [hw.fld (hnot _ (by decide))]; exact hb k (List.mem_range.1 hk)
  have hregs := hchk.same .regs (by decide)
  have hread : ∀ k, k < 16 → (s.showSensors l (List.range 16)).sfld Pg.therm (Reg.THERM_SENSOR k) = l.getD k 0 := fun k hk =>
    s.sfld_showSensors (List.mem_range.2 hk) List.nodup_range fun j hj => by
      have hj' : j < l.length := by rw [hlen]; exact List.mem_range.1 hj
      simpa [hj'] using hr _ (List.getElem_mem hj')
  have heq : s.thermSample l =
      let u := (List.range 16).foldl (fun (s : State) k => s.crossCheck l k) (s.showSensors l (List.range 16))
      if (u.validTemps l).any fun x => decide (u.tripAt ≤ x) then u.thermalTrip else (u.showTj (u.tjOf l)).riseCheck.setLevel.countAbove := by
    unfold State.thermSample
    simp only [hl]
    rfl
  dsimp only at heq
  generalize (List.range 16).foldl (fun (s : State) k => s.crossCheck l k) (s.showSensors l (List.range 16)) = u at *
  have hfu : u.fld Pg.therm Reg.THERM_SENSOR_FAULT = 0 := (State.fld_congr hregs _ _).trans hf1
  have htrip : u.tripAt = s.tripAt := by rw [State.tripAt, State.fld_congr hregs, hw.fld (hnot _ (by decide)), State.tripAt]
  refine ⟨u, .step (hto.mono rfl) hchk rfl, hw.of_regs hregs, fun k hk => ?_, ?_⟩
  · rw [State.sfld, State.fld_congr hregs, ← State.sfld, hread k hk]
  · rw [heq, validTemps_of_good hlen hfu, State.tjOf_of_good hlen hfu hx hmax, htrip]
    refine if_congr ?_ rfl rfl
    rw [List.any_eq_true]
    exact ⟨fun ⟨y, hy, h⟩ => le_trans (of_decide_eq_true h) (hmax y hy), fun h => ⟨x, hx, decide_eq_true h⟩⟩

theorem sensorKeys_onPages {a : Nat} (h : a ∈ (List.range 16).map fun k => keyOf (Reg.THERM_SENSOR k) Pg.therm) : onPages [Pg.therm] a := by
  have : ∀ b ∈ (List.range 16).map (fun k => keyOf (Reg.THERM_SENSOR k) Pg.therm), b / 0x1000 % 1024 ∈ [Pg.therm] := by decide
  exact this a h

/-- Settles O60: the sample of sixteen good sensors, with the level that its Tj gives, or the trip. -/
theorem thermalLevels : Obligations.ThermalLevels := by
  unfold Obligations.ThermalLevels
  intro s l x hphase hlen hr hb hx hmax hf
  have hexec : exec (.thermSample l) s = .next (s.thermSample l) := congrArg Host.Outcome.next (if_neg hphase)
  obtain ⟨u, hto, hwu, hread, heq⟩ := State.thermSample_of_good hlen hr hb hx hmax hf
  refine ⟨fun htrip hhot h0 hmode => ?_, fun htrip => ?_⟩
  case refine_2 =>
    rw [heq, if_pos htrip] at hexec
    exact ⟨_, hexec, (u.resetOf_toReset _ _ (by decide)).of_touches (hto.mono rfl) hwu (by decide)⟩
  rw [heq, if_neg (not_le.2 htrip)] at hexec
  have hnot : ∀ f : Fld, f.off < 0x060 ∨ 0x0A0 ≤ f.off →
      keyOf f Pg.therm ∉ (List.range 16).map fun k => keyOf (Reg.THERM_SENSOR k) Pg.therm := fun f hf h => by
    obtain ⟨k, hk16, hk⟩ := List.mem_map.1 h
    have := List.mem_range.1 hk16
    simp only [keyOf] at hk
    omega
  have hfu : u.fld Pg.therm Reg.THERM_SENSOR_FAULT = 0 := (hwu.fld (hnot _ (by decide))).trans hf
  obtain ⟨hTJ, hMAX, hDEG, hLEV⟩ := u.fld_showTj (hr x hx) hfu
  have hw1 := u.writesIn_showTj x
  have hw2 := (u.showTj x).writesIn_riseCheck
  have hto1 := State.showTj_touches u x
  have hto2 := State.riseCheck_touches (u.showTj x)
  have hhist : u.therm.hist = s.therm.hist := hto.same .thermHist (by decide)
  have hseed : (u.showTj x).seed = s.seed + 1 := congrArg (· + 1) (hto.same .seed (by decide))
  have hcold : (u.showTj x).riseCheck.therm.hot = false :=
    (hto2.same .thermHot (by decide)).trans ((hto1.same .thermHot (by decide)).trans ((hto.same .thermHot (by decide)).trans hhot))
  have hstand : (u.showTj x).riseCheck.ctl.mode = s.ctl.mode :=
    (hto2.same .ctlMode (by decide)).trans ((hto1.same .ctlMode (by decide)).trans (hto.same .ctlMode (by decide)))
  have hthresh : ∀ f : Fld, f.off = 0x048 → (u.showTj x).riseCheck.fld Pg.therm f = s.fld Pg.therm f := fun f hf => by
    rw [hw2.fld (by simp only [keyOf, hf]; decide), hw1.fld (by simp only [keyOf, hf]; decide), hwu.fld (hnot _ (by omega))]
  have hwarn : (u.showTj x).riseCheck.warnAt = s.warnAt := by rw [State.warnAt, hthresh _ rfl, State.warnAt]
  have hcrit : (u.showTj x).riseCheck.critAt = s.critAt := by rw [State.critAt, hwarn, hthresh _ rfl, State.critAt]
  have hseed2 := (hto2.same .seed (by decide)).trans hseed
  have hcool := State.setLevel_of_cool (s := (u.showTj x).riseCheck) (x := x) ((hw2.sfld (by decide)).trans hTJ)
    ((hw2.fld (by decide)).trans (hLEV.trans ((hwu.fld (hnot _ (by decide))).trans h0))) hcold (by rw [hstand, hcrit]; exact hmode)
  have hMAX' := hMAX.trans (by rw [hhist, hwu.sfld (hnot _ (by decide))])
  have hall : s.Touches (u.showTj x).riseCheck [.regs, .ctlLatches, .seed, .thermBad, .thermHist, .thermRising] :=
    .step (.step (hto.mono rfl) hto1 rfl) hto2 rfl
  have hpage1 : ∀ a ∈ [keyOf Reg.THERM_TJ Pg.therm, keyOf Reg.THERM_MAX_TJ Pg.therm, keyOf Reg.THERM_RATE Pg.therm,
      keyOf Reg.THERM_STATE_LEVEL Pg.therm], onPages [Pg.therm] a := by unfold onPages; decide
  have hpage2 : onPages [Pg.therm] (keyOf Reg.THERM_EVENT_WARN Pg.therm) := by unfold onPages; decide
  have hpage3 : ∀ a ∈ [keyOf Reg.THERM_STATE_LEVEL Pg.therm, keyOf Reg.THERM_EVENT_WARN Pg.therm], onPages [Pg.therm] a := by
    unfold onPages; decide
  have hw : s.WritesIn (u.showTj x).riseCheck (onPages [Pg.therm]) := State.WritesIn.trans (hwu.mono fun _ => sensorKeys_onPages)
    (State.WritesIn.trans (hw1.mono hpage1) (hw2.mono fun _ ha => ha ▸ hpage2))
  have hTJ' := (hw2.sfld (by decide)).trans hTJ
  have hMAX'' := (hw2.sfld (by decide)).trans hMAX'
  have hDEG' := (hw2.fld (by decide)).trans hDEG
  have hsens : ∀ k, k < 16 → (u.showTj x).riseCheck.sfld Pg.therm (Reg.THERM_SENSOR k) = l.getD k 0 := fun k hk => by
    rw [hw2.sfld (by interval_cases k <;> decide), hw1.sfld (by interval_cases k <;> decide), hread k hk]
  generalize (u.showTj x).riseCheck = y at *
  obtain ⟨hlev, hev, hdeg⟩ := y.fld_levelShown x
  rw [hcrit, hwarn] at hlev
  rw [hwarn] at hev
  rw [hcrit] at hcool
  have hwl := y.writesIn_levelShown x
  have hraise : ∀ v : State, v.WritesIn (v.raise Pg.therm Reg.THERM_EVENT_CRIT) (· = keyOf Reg.THERM_EVENT_CRIT Pg.therm) :=
    fun v => .raise (.refl v _) rfl
  have hwz : y.WritesIn y.setLevel (· ∈ [keyOf Reg.THERM_STATE_LEVEL Pg.therm, keyOf Reg.THERM_EVENT_WARN Pg.therm]) := by
    rw [hcool]
    exact .ite (hwl.raise (by decide)) hwl
  have htz : y.Touches y.setLevel [.regs, .ctlLatches] := by
    have h : y.Touches (y.levelShown x) [.regs, .ctlLatches] := .step ((State.setFld_touches ..).mono rfl) (State.raiseIf_touches ..) rfl
    rw [hcool]
    exact .ite (h.step (State.raise_touches ..) rfl) h
  have hlevz : y.setLevel.fld Pg.therm Reg.THERM_STATE_LEVEL = if s.critAt ≤ x then 2 else if s.warnAt ≤ x then 1 else 0 := by
    rw [hcool, ← hlev]
    split
    · exact (hraise _).fld (by decide)
    · rfl
  have hwarnz : s.warnAt ≤ x → y.setLevel.fld Pg.therm Reg.THERM_EVENT_WARN = 1 := fun h => by
    rw [hcool]
    split
    · exact State.fld_raise_of_one rfl rfl (hev h)
    · exact hev h
  have hcritz : s.critAt ≤ x → y.setLevel.fld Pg.therm Reg.THERM_EVENT_CRIT = 1 := fun h => by
    rw [hcool, if_pos h]
    exact State.fld_raise_same _ _ _ (by decide) rfl
  have hdegz : y.setLevel.fld Pg.therm Reg.THERM_STATE_DEGRADED = 0 := by
    rw [hcool]
    split
    · rw [(hraise _).fld (by decide), hdeg, hDEG']
    · rw [hdeg, hDEG']
  have hwc := y.setLevel.writesIn_countAbove
  have hcw : s.warnAt ≤ s.critAt := le_max_left _ _
  have hend : s.Touches y.setLevel.countAbove [.seed, .regs, .ctlLatches, .thermBad, .thermHist, .thermRising, .thermAbove] :=
    .step (.step (hall.mono rfl) htz rfl) (State.countAbove_touches ..) rfl
  have hseedz : y.setLevel.countAbove.seed = s.seed + 1 :=
    ((State.countAbove_touches y.setLevel).same .seed (by decide)).trans ((htz.same .seed (by decide)).trans hseed2)
  refine ⟨_, hexec, ?_, fun k hk => ?_, ?_, fun h => ?_, fun h h' => ?_, fun h => ?_, fun h => ⟨?_, ?_⟩, ?_, ?_, ?_, hend.keepsBytes rfl⟩
  · rw [hwc.sfld (by decide), hwz.sfld (by decide), hTJ']
  · rw [hwc.sfld (by interval_cases k <;> decide), hwz.sfld (by interval_cases k <;> decide), hsens k hk]
  · rw [hwc.sfld (by decide), hwz.sfld (by decide), hMAX'']
  · rw [hwc.fld (by decide), hlevz, if_neg (fun hc => absurd (le_trans hcw hc) (not_le.2 h)), if_neg (not_le.2 h)]
  · rw [hwc.fld (by decide), hlevz, if_neg (not_le.2 h'), if_pos h]
  · rw [hwc.fld (by decide), hwarnz h]
  · rw [hwc.fld (by decide), hlevz, if_pos h]
  · rw [hwc.fld (by decide), hcritz h]
  · rw [hwc.fld (by decide), hdegz]
  · rw [← hseedz]
    exact (hend.mono (l' := .seed :: .regs :: .ctlLatches :: thermParts) rfl).eq_mix
  · exact (State.WritesIn.trans hw ((hwz.mono hpage3).trans (hwc.mono fun _ ha => ha ▸ onPages_keyOf (by decide) (by decide)))).keepsPages

end Sys2Proof.Machine
end

section
/-! PROOFS. Lane generators and checkers (R120 to R122, R124). -/

set_option Elab.async false

namespace Sys2Proof.Machine

/-- A page's keys: those of its offsets. -/
theorem onPages_single {f : Fld} {p : Nat} (hf : f.off < 0x1000) (hp : p < 1024) : onPages [p] (keyOf f p) :=
  onPages_keyOf hf (by rw [Nat.mod_eq_of_lt hp]; exact List.mem_singleton_self p)

/-! ### The checker's counts -/

theorem State.writesIn_laneErrors (s : State) (k n : Nat) :
    s.WritesIn (s.laneErrors k n) (· ∈ [keyOf Reg.LANE_ERR_COUNT (Pg.lane k), keyOf Reg.LANE_EVENT_CHK_ERR (Pg.lane k)]) :=
  .ite (.refl s _) (State.WritesIn.raise (State.WritesIn.countBy (.refl s _) _ (by simp)) (by simp))

/-- Errors are counted and raise CHK_ERR. -/
theorem State.fld_laneErrors (s : State) (k : Nat) {n : Nat} (hn : n ≠ 0) :
    (s.laneErrors k n).fld (Pg.lane k) Reg.LANE_ERR_COUNT = min (s.fld (Pg.lane k) Reg.LANE_ERR_COUNT + n) (2 ^ 32 - 1)
      ∧ (s.laneErrors k n).fld (Pg.lane k) Reg.LANE_EVENT_CHK_ERR = 1 := by
  rw [State.laneErrors, if_neg hn]
  refine ⟨?_, State.fld_raise_same _ _ _ (by decide) rfl⟩
  rw [State.fld_raise_ne _ _ _ _ _ (by decide) (.inl (keyOf_ne_of_off (by decide) (by decide) (by decide))),
    State.fld_countBy_same _ _ _ _ (by decide)]

/-! ### A write of TEST_CTRL -/

/-- TEST_CTRL stored, with the counters cleared as CHK_EN rises, and no sync while it is 0. -/
def State.testStored (s : State) (k : Nat) (w : Word) (rises off : Bool) : State :=
  let p := Pg.lane k
  let s1 := s.wr (p * 0x1000 + 0x060) (Word.setBits w 7 1 0)
  let s2 := if rises then (s1.setFld p Reg.LANE_ERR_COUNT 0).setFld64 p Reg.LANE_BIT_COUNT_LO Reg.LANE_BIT_COUNT_HI 0 else s1
  if off then s2.setFld p Reg.LANE_TEST_STATUS 0 else s2

theorem writeTestCtrl_of_accepts {s : State} {r : Req} {k : Nat} {v w : Word} (hk : k < 48) (ha : s.accepts r (Pg.lane k) 0x060 v = true)
    (hw : w = s.written r (Pg.lane k) 0x060 v) :
    writeTestCtrl r k v s =
      if (wfld w Reg.LANE_TEST_CTRL_GEN_EN = 1 ∨ wfld w Reg.LANE_TEST_CTRL_CHK_EN = 1) ∧ s.ctl.mode ≠ .service ∧ hostLane k = false then
        s.reject (Pg.lane k)
      else
        let s4 := sendPattern s (s.testStored k w (decide (s.fld (Pg.lane k) Reg.LANE_TEST_CTRL_CHK_EN = 0 ∧ wfld w Reg.LANE_TEST_CTRL_CHK_EN = 1))
          (decide (wfld w Reg.LANE_TEST_CTRL_CHK_EN = 0))) k
        if wfld v Reg.LANE_TEST_CTRL_INJECT_ONE = 1 then s4.injectOne k else s4 := by
  have hbank : bankPage r (Pg.lane k) 0x060 = Pg.lane k := by
    have hlane : Pg.lane k = 0x010 + k := rfl
    have hq : Pg.hostq = 0x090 := rfl
    have hc : Pg.coll = 0x0B0 := rfl
    unfold bankPage
    rw [if_neg fun h => by omega, if_neg fun h => by omega]
  have hold : wfld (s.rd (bankPage r (Pg.lane k) 0x060 * 0x1000 + 0x060)) Reg.LANE_TEST_CTRL_CHK_EN =
      s.fld (Pg.lane k) Reg.LANE_TEST_CTRL_CHK_EN := by rw [hbank]; rfl
  rw [writeTestCtrl, withWrite_of_accepts _ ha, ← hw]
  dsimp only
  rw [hold]
  unfold State.testStored
  simp only [decide_eq_true_eq]

/-- The registers of a lane's test functions. -/
def testKeys (k : Nat) : List Nat := [keyOf Reg.LANE_TEST_CTRL_GEN_EN (Pg.lane k), keyOf Reg.LANE_ERR_COUNT (Pg.lane k),
  keyOf Reg.LANE_BIT_COUNT_LO (Pg.lane k), keyOf Reg.LANE_BIT_COUNT_HI (Pg.lane k), keyOf Reg.LANE_TEST_STATUS (Pg.lane k)]

theorem State.writesIn_testStored (s : State) (k : Nat) (w : Word) (rises off : Bool) : s.WritesIn (s.testStored k w rises off) (· ∈ testKeys k) := by
  have h : s.WritesIn (s.wr (Pg.lane k * 0x1000 + 0x060) (Word.setBits w 7 1 0)) (· ∈ testKeys k) := .wr (.refl s _) _ (by simp [testKeys, keyOf])
  have h2 := State.WritesIn.setFld64 (State.WritesIn.setFld h (p := Pg.lane k) (f := Reg.LANE_ERR_COUNT) 0 (by simp [testKeys]))
    (p := Pg.lane k) (lo := Reg.LANE_BIT_COUNT_LO) (hi := Reg.LANE_BIT_COUNT_HI) 0 (by simp [testKeys]) (by simp [testKeys])
  unfold State.testStored
  dsimp only
  cases rises <;> cases off <;> simp only [Bool.false_eq_true, if_false, if_true]
  · exact h
  · exact h.setFld _ (by simp [testKeys])
  · exact h2
  · exact h2.setFld _ (by simp [testKeys])

theorem State.testStored_touches (s : State) (k : Nat) (w : Word) (rises off : Bool) : s.Touches (s.testStored k w rises off) [.regs] := by
  have h : ∀ u : State, s.Touches u [.regs] → s.Touches (if rises then (u.setFld (Pg.lane k) Reg.LANE_ERR_COUNT 0).setFld64 (Pg.lane k)
      Reg.LANE_BIT_COUNT_LO Reg.LANE_BIT_COUNT_HI 0 else u) [.regs] := fun u hu =>
    .ite (.step (.step hu (State.setFld_touches ..) rfl) (State.setFld64_touches ..) rfl) hu
  exact .ite (.step (h _ (State.wr_touches ..)) (State.setFld_touches ..) rfl) (h _ (State.wr_touches ..))

theorem wfld_setBits_below {w : Word} {f : Fld} (h : f.lo + f.width ≤ 7) : wfld (Word.setBits w 7 1 0) f = wfld w f := by
  rw [wfld, Word.bits_setBits_of_disjoint _ _ _ _ _ _ (by omega) (.inr (by omega)), wfld]

/-- The settings, the counters and the sync of a checker after TEST_CTRL is stored. -/
theorem State.fld_testStored (s : State) {k : Nat} (w : Word) (rises off : Bool) :
    (∀ f : Fld, f.off = 0x060 → f.lo + f.width ≤ 7 → (s.testStored k w rises off).fld (Pg.lane k) f = wfld w f)
      ∧ (rises = true → (s.testStored k w rises off).fld (Pg.lane k) Reg.LANE_ERR_COUNT = 0
          ∧ (s.testStored k w rises off).fld64 (Pg.lane k) Reg.LANE_BIT_COUNT_LO Reg.LANE_BIT_COUNT_HI = 0)
      ∧ (rises = false → (s.testStored k w rises off).fld (Pg.lane k) Reg.LANE_ERR_COUNT = s.fld (Pg.lane k) Reg.LANE_ERR_COUNT)
      ∧ (off = true → (s.testStored k w rises off).fld (Pg.lane k) Reg.LANE_TEST_STATUS = 0)
      ∧ (off = false → (s.testStored k w rises off).fld (Pg.lane k) Reg.LANE_TEST_STATUS = s.fld (Pg.lane k) Reg.LANE_TEST_STATUS) := by
  have hne : ∀ f g : Fld, f.off < 0x1000 → g.off < 0x1000 → f.off ≠ g.off → keyOf f (Pg.lane k) ≠ keyOf g (Pg.lane k) :=
    fun f g => keyOf_ne_of_off
  have hst : ∀ u : State, u.WritesIn (u.setFld (Pg.lane k) Reg.LANE_TEST_STATUS 0) (· = keyOf Reg.LANE_TEST_STATUS (Pg.lane k)) :=
    fun u => .setFld (.refl u _) _ rfl
  have herr : ∀ u : State, u.WritesIn (u.setFld (Pg.lane k) Reg.LANE_ERR_COUNT 0) (· = keyOf Reg.LANE_ERR_COUNT (Pg.lane k)) :=
    fun u => .setFld (.refl u _) _ rfl
  have hbit : ∀ u : State, u.WritesIn (u.setFld64 (Pg.lane k) Reg.LANE_BIT_COUNT_LO Reg.LANE_BIT_COUNT_HI 0)
      (· ∈ [keyOf Reg.LANE_BIT_COUNT_LO (Pg.lane k), keyOf Reg.LANE_BIT_COUNT_HI (Pg.lane k)]) := fun u => .setFld64 (.refl u _) _ (by simp) (by simp)
  have hbit' : ∀ f : Fld, f.off < 0x1000 → f.off ≠ 0x074 → f.off ≠ 0x078 →
      ¬ keyOf f (Pg.lane k) ∈ [keyOf Reg.LANE_BIT_COUNT_LO (Pg.lane k), keyOf Reg.LANE_BIT_COUNT_HI (Pg.lane k)] := fun f h h1 h2 => by
    simp only [List.mem_cons, List.not_mem_nil, or_false, not_or]
    exact ⟨hne _ _ h (by decide) h1, hne _ _ h (by decide) h2⟩
  -- the word of TEST_CTRL, then the counters, then the sync
  let s1 := s.wr (Pg.lane k * 0x1000 + 0x060) (Word.setBits w 7 1 0)
  let s2 := if rises then (s1.setFld (Pg.lane k) Reg.LANE_ERR_COUNT 0).setFld64 (Pg.lane k) Reg.LANE_BIT_COUNT_LO Reg.LANE_BIT_COUNT_HI 0 else s1
  have h1 : ∀ f : Fld, f.off < 0x1000 → f.off ≠ 0x060 → s1.fld (Pg.lane k) f = s.fld (Pg.lane k) f := fun f h h' =>
    State.fld_wr_ne _ _ (by simp only [keyOf]; omega)
  have h2 : ∀ f : Fld, f.off < 0x1000 → f.off ∉ [0x070, 0x074, 0x078] → s2.fld (Pg.lane k) f = s1.fld (Pg.lane k) f := fun f h h' => by
    simp only [List.mem_cons, List.not_mem_nil, or_false, not_or] at h'
    obtain ⟨ha, hb, hc⟩ := h'
    show (if rises then _ else s1 : State).fld _ _ = _
    split
    · rw [(hbit _).fld (hbit' _ h hb hc), (herr _).fld (hne _ _ h (by decide) ha)]
    · rfl
  have h3 : ∀ f : Fld, f.off < 0x1000 → f.off ≠ 0x064 → (s.testStored k w rises off).fld (Pg.lane k) f = s2.fld (Pg.lane k) f := fun f h h' => by
    show (if off then s2.setFld (Pg.lane k) Reg.LANE_TEST_STATUS 0 else s2 : State).fld _ _ = _
    split
    · exact (hst _).fld (hne _ _ h (by decide) h')
    · rfl
  refine ⟨fun f hf hb => ?_, fun hr => ⟨?_, ?_⟩, fun hr => ?_, fun ho => ?_, fun ho => ?_⟩
  · rw [h3 f (by omega) (by omega), h2 f (by omega) (by rw [hf]; decide), State.fld_wr_same _ _ (by simp only [keyOf, hf]), wfld_setBits_below hb]
  · rw [h3 _ (by decide) (by decide), show s2 = _ from if_pos hr, (hbit _).fld (hbit' _ (by decide) (by decide) (by decide)),
      State.fld_setFld_same _ _ _ _ (by decide)]
    rfl
  · rw [State.fld64, h3 _ (by decide) (by decide), h3 _ (by decide) (by decide), ← State.fld64, show s2 = _ from if_pos hr,
      State.fld64_setFld64 _ _ (by decide) (by decide) rfl rfl (hne _ _ (by decide) (by decide) (by decide))]
    rfl
  · rw [h3 _ (by decide) (by decide), show s2 = s1 from if_neg (by simp [hr]), h1 _ (by decide) (by decide)]
  · rw [show s.testStored k w rises off = s2.setFld (Pg.lane k) Reg.LANE_TEST_STATUS 0 from if_pos ho, State.fld_setFld_same _ _ _ _ (by decide)]
    rfl
  · rw [show s.testStored k w rises off = s2 from if_neg (by simp [ho]), h2 _ (by decide) (by decide), h1 _ (by decide) (by decide)]

/-! ### What the sensor and the generator are told -/

theorem State.askedPattern_of_far (s : State) {k : Nat} (h : 15 < k) : s.askedPattern k = 0 := if_neg fun hc => by omega

theorem sendPattern_of_eq {s0 s : State} {k : Nat} (h : s.askedPattern k = s0.askedPattern k) : sendPattern s0 s k = s := if_pos h

/-- A message on a port that has none in progress goes out at once. -/
theorem State.out_postBc_of_idle {s : State} {k op arg : Nat} {data : List (Nat × Nat)} {use : BcUse} (h : (s.port k).cur = none) :
    (s.postBc k op arg data use).out =
      let m : BcMsg := { op := op, arg := arg, data := data, use := use, seq := (s.port k).seq }
      .bc k op m.seq arg data m.blocks :: s.out := by
  have hset : ∀ p, (s.setPort k p).out = s.out := fun p => by unfold State.setPort; split <;> rfl
  have hset2 : ∀ p q, ((s.setPort k p).setPort k q).out = s.out := fun p q => by unfold State.setPort; split <;> rfl
  unfold State.postBc State.sendBc
  simp only [h, State.emit, hset2]

theorem State.injectOne_of_sends {s : State} {k : Nat} (h : s.genSends k = true) :
    s.injectOne k = if s.selfLoop k && s.on (Pg.lane k) Reg.LANE_TEST_STATUS then (s.emit (.inject k)).laneErrors k 1 else s.emit (.inject k) :=
  if_pos h

/-- Settles O28: a write of TEST_CTRL by its equation, the checkers' gain and loss of sync by theirs. -/
theorem laneTests : Obligations.LaneTests := by
  unfold Obligations.LaneTests
  refine ⟨fun s r l v w hl ha hw hok hinj => ?write, fun s r l v w hl ha hw hon hmode hhost => ?refused,
    fun s r l v w hl ha hw hok hinj hgen hloop => ?inject, fun s l bits hl hrx hrun => ?gained, fun s l bits hrun => ?noRun,
    fun s l e b hl hst he hb => ?lost, fun s l e b he => ?few⟩
  case write =>
    have hno : ¬ ((wfld w Reg.LANE_TEST_CTRL_GEN_EN = 1 ∨ wfld w Reg.LANE_TEST_CTRL_CHK_EN = 1) ∧ s.ctl.mode ≠ .service ∧ hostLane l = false) := by
      rintro ⟨h1, h2, h3⟩
      have := (hok h1).resolve_left h2
      simp [hostLane, this] at h3
    have heq := writeTestCtrl_of_accepts hl ha hw
    rw [if_neg hno] at heq
    simp only [hinj, zero_ne_one, if_false] at heq
    generalize hrises : decide (s.fld (Pg.lane l) Reg.LANE_TEST_CTRL_CHK_EN = 0 ∧ wfld w Reg.LANE_TEST_CTRL_CHK_EN = 1) = rises at heq
    generalize hoff : decide (wfld w Reg.LANE_TEST_CTRL_CHK_EN = 0) = off at heq
    obtain ⟨hctrl, hclear, -, hsync, -⟩ := s.fld_testStored (k := l) w rises off
    have hst := s.testStored_touches l w rises off
    have hws := s.writesIn_testStored l w rises off
    generalize s.testStored l w rises off = u at *
    have hto := sendPattern_touches s u l
    have hregs := hto.same .regs (by decide)
    have hall : s.Touches (sendPattern s u l) [.out, .regs, .portA, .portB] := .step (hst.mono rfl) hto rfl
    refine ⟨_, congrArg Host.Outcome.next heq, ?_, ?_, fun h0 h1 => ?_, fun h0 => ?_, fun hfar => ?_, fun m hnear h0 h1 hloop hp hp' hcur hm => ?_,
      (hall.mono (l' := [.out, .regs, .ctlLatches, .portA, .portB]) rfl).eq_mix, ?_, hall.keepsBytes rfl⟩
    · rw [State.fld_congr hregs, hctrl _ rfl (by decide)]
    · rw [State.fld_congr hregs, hctrl _ rfl (by decide)]
    · rw [State.fld64, State.fld_congr hregs, State.fld_congr hregs, State.fld_congr hregs, ← State.fld64]
      exact hclear (hrises ▸ decide_eq_true ⟨h0, h1⟩)
    · rw [State.fld_congr hregs]
      exact hsync (hoff ▸ decide_eq_true h0)
    · rw [sendPattern_of_eq (by rw [u.askedPattern_of_far hfar, s.askedPattern_of_far hfar])]
      exact ⟨hst.same .portA (by decide), hst.same .portB (by decide), hst.same .out (by decide)⟩
    · have hport : u.portOf l = s.portOf l := by
        have hkey : keyOf Reg.LINK_CTRL_GANG (Pg.link 0) ∉ testKeys l := by interval_cases l <;> decide
        rw [State.portOf, State.ganged, State.on, hws.fld hkey, ← State.on, ← State.ganged, ← State.portOf]
      have hp0 : ∀ k, u.port k = s.port k := fun k => by
        rw [State.port, hst.same .portA (by decide), hst.same .portB (by decide), State.port]
      have hask : u.askedPattern l = wfld w Reg.LANE_TEST_CTRL_PATTERN := by
        unfold State.askedPattern State.loopOf
        rw [hctrl _ rfl (by decide), State.on, hctrl _ rfl (by decide), h1, hctrl _ rfl (by decide), hloop, if_pos]
        · exact if_neg (by omega)
        · exact ⟨hnear, rfl, by simp [loopMode, hnear]⟩
      have hask0 : s.askedPattern l = 0 := if_neg fun hc => by
        have : s.fld (Pg.lane l) Reg.LANE_TEST_CTRL_CHK_EN = 1 := (State.on_eq_true ..).1 hc.2.1
        omega
      have huser : u.fld (Pg.lane l) Reg.LANE_USER_PAT_LO = s.fld (Pg.lane l) Reg.LANE_USER_PAT_LO := hws.fld (by
        simp only [testKeys, List.mem_cons, List.not_mem_nil, or_false, keyOf]
        omega)
      have hsend : sendPattern s u l = u.postBc (s.portOf l) 7 0
          [(wfld w Reg.LANE_TEST_CTRL_PATTERN, s.fld (Pg.lane l) Reg.LANE_USER_PAT_LO)] .plain := by
        unfold sendPattern
        rw [hask, hask0, if_neg (by omega), hport, huser]
      rw [hsend, State.out_postBc_of_idle (by rw [hp0]; exact hcur), hst.same .out (by decide), hp0, hm]
    · exact ((State.WritesIn.of_regs hws hregs).mono fun a ha => by
        have : ∀ k < 48, ∀ b ∈ testKeys k, b / 0x1000 % 1024 ∈ [Pg.lane k] := by decide
        exact this l hl a ha).keepsPages
  case refused =>
    have heq := writeTestCtrl_of_accepts hl ha hw
    rw [if_pos ⟨hon, hmode, by simpa [hostLane] using hhost⟩] at heq
    exact ⟨_, congrArg Host.Outcome.next heq, s.rejected_reject _⟩
  case inject =>
    have hno : ¬ ((wfld w Reg.LANE_TEST_CTRL_GEN_EN = 1 ∨ wfld w Reg.LANE_TEST_CTRL_CHK_EN = 1) ∧ s.ctl.mode ≠ .service ∧ hostLane l = false) := by
      rintro ⟨-, h2, h3⟩
      simp [hostLane, hok.resolve_left h2] at h3
    have heq := writeTestCtrl_of_accepts hl ha hw
    rw [if_neg hno] at heq
    simp only [hinj, if_true] at heq
    generalize hrises : decide (s.fld (Pg.lane l) Reg.LANE_TEST_CTRL_CHK_EN = 0 ∧ wfld w Reg.LANE_TEST_CTRL_CHK_EN = 1) = rises at heq
    generalize hoff : decide (wfld w Reg.LANE_TEST_CTRL_CHK_EN = 0) = off at heq
    obtain ⟨hctrl, -, hkeep, hsync, hsame⟩ := s.fld_testStored (k := l) w rises off
    have hst := s.testStored_touches l w rises off
    have hws := s.writesIn_testStored l w rises off
    generalize s.testStored l w rises off = u at *
    have hto := sendPattern_touches s u l
    have hfar : 15 < l → (sendPattern s u l).out = s.out := fun hfar => by
      rw [sendPattern_of_eq (by rw [u.askedPattern_of_far hfar, s.askedPattern_of_far hfar])]
      exact hst.same .out (by decide)
    have hregs := hto.same .regs (by decide)
    generalize sendPattern s u l = y at *
    have hfld : ∀ f, y.fld (Pg.lane l) f = u.fld (Pg.lane l) f := fun f => State.fld_congr hregs _ _
    have hloopOf : y.loopOf l = loopMode l (wfld w Reg.LANE_TEST_CTRL_LOOP) := by rw [State.loopOf, hfld, hctrl _ rfl (by decide)]
    have hsends : y.genSends l = true := by
      have hnot : (decide (l ≤ 15) && decide (y.loopOf l = 0)) = false := by
        simp only [Bool.and_eq_false_iff, decide_eq_false_iff_not, hloopOf]
        rcases hloop with h | h
        · exact .inl (by omega)
        · by_cases hn : l ≤ 15
          · exact .inr (by simp [loopMode, hn, h])
          · exact .inl hn
      rw [State.genSends, State.on, hfld, hctrl _ rfl (by decide), hgen, hnot]
      rfl
    have hinjeq := State.injectOne_of_sends hsends
    have hemit : y.Touches (y.emit (.inject l)) [.out] := State.emit_touches ..
    have herr := State.laneErrors_touches (y.emit (.inject l)) l 1
    have hout : (y.injectOne l).out = .inject l :: y.out := by
      rw [hinjeq]
      split
      · exact herr.same .out (by decide)
      · rfl
    have hpage : ∀ a ∈ [keyOf Reg.LANE_ERR_COUNT (Pg.lane l), keyOf Reg.LANE_EVENT_CHK_ERR (Pg.lane l)], onPages [Pg.lane l] a := by
      have : ∀ k < 48, ∀ a ∈ [keyOf Reg.LANE_ERR_COUNT (Pg.lane k), keyOf Reg.LANE_EVENT_CHK_ERR (Pg.lane k)],
        a / 0x1000 % 1024 ∈ [Pg.lane k] := by decide
      exact this l hl
    have hpage' : ∀ a ∈ testKeys l, onPages [Pg.lane l] a := by
      have : ∀ k < 48, ∀ b ∈ testKeys k, b / 0x1000 % 1024 ∈ [Pg.lane k] := by decide
      exact this l hl
    have hwi : y.WritesIn (y.injectOne l) (onPages [Pg.lane l]) := by
      have h : y.WritesIn (y.emit (.inject l)) (onPages [Pg.lane l]) := .of_regs (.refl y _) rfl
      rw [hinjeq]
      exact .ite (h.trans ((State.writesIn_laneErrors _ l 1).mono hpage)) h
    have hall : s.Touches (y.injectOne l) [.out, .regs, .ctlLatches, .portA, .portB] :=
      .step (.step (hst.mono rfl) hto rfl) (State.injectOne_touches y l) rfl
    refine ⟨_, congrArg Host.Outcome.next heq, by rw [hout]; rfl, fun h => by rw [hout, hfar h], fun h0 => ?_, fun h0 h1 hon hp hp' hlm => ?_,
      hall.eq_mix, ?_, hall.keepsBytes rfl⟩
    · have hst0 : y.on (Pg.lane l) Reg.LANE_TEST_STATUS = false := by
        rw [State.on, hfld, hsync (hoff ▸ decide_eq_true h0)]; rfl
      rw [hinjeq, hst0, Bool.and_false, if_neg Bool.false_ne_true, State.fld_emit, hfld, hkeep (hrises ▸ decide_eq_false (by omega))]
    · have hst1 : y.on (Pg.lane l) Reg.LANE_TEST_STATUS = true := by
        rw [State.on, hfld, hsame (hoff ▸ decide_eq_false (by omega)), ← State.on, hon]
      have hself : y.selfLoop l = true := by
        have hpat : patternOf (wfld w Reg.LANE_TEST_CTRL_PATTERN) ≠ 0 := by
          rw [patternOf, if_neg (by omega)]; omega
        rw [State.selfLoop, hsends, State.chkReceives, hloopOf, State.on, hfld, hfld, hctrl _ rfl (by decide), hctrl _ rfl (by decide), h1]
        simp [hpat, hlm]
      obtain ⟨e1, e2⟩ := State.fld_laneErrors (y.emit (.inject l)) l (n := 1) (by decide)
      rw [hinjeq, hself, hst1, Bool.and_self, if_pos rfl, e1, State.fld_emit, hfld, hkeep (hrises ▸ decide_eq_false (by omega))]
      exact ⟨rfl, e2⟩
    · exact (State.WritesIn.trans (State.WritesIn.of_regs (hws.mono hpage') hregs) hwi).keepsPages
  case gained =>
    have heq : s.checkerSync l bits = s.setFld (Pg.lane l) Reg.LANE_TEST_STATUS 1 := if_pos ⟨hl, hrx, hrun⟩
    exact ⟨_, congrArg Host.Outcome.next heq, State.fld_setFld_same _ _ _ _ (by decide), (State.Kept.refl s _).setFld _ (by simp)⟩
  case noRun => exact congrArg Host.Outcome.next (if_neg fun hc => Bool.false_ne_true (hrun.symm.trans hc.2.2))
  case lost =>
    have heq : s.checkerLost l e b = ((((s.laneErrors l e).setFld64 (Pg.lane l) Reg.LANE_BIT_COUNT_LO Reg.LANE_BIT_COUNT_HI
        ((s.laneErrors l e).fld64 (Pg.lane l) Reg.LANE_BIT_COUNT_LO Reg.LANE_BIT_COUNT_HI + b)).setFld (Pg.lane l) Reg.LANE_TEST_STATUS 0).raise
        (Pg.lane l) Reg.LANE_EVENT_CHK_SYNC_LOST) := if_pos ⟨hl, hst, he, hb⟩
    have hne : ∀ f g : Fld, f.off < 0x1000 → g.off < 0x1000 → f.off ≠ g.off → keyOf f (Pg.lane l) ≠ keyOf g (Pg.lane l) :=
      fun f g => keyOf_ne_of_off
    have hpage : ∀ f : Fld, f.off < 0x1000 → onPages [Pg.lane l] (keyOf f (Pg.lane l)) := fun f hf =>
      onPages_single hf (by show 0x010 + l < 1024; omega)
    obtain ⟨e1, -⟩ := s.fld_laneErrors l (n := e) (by omega)
    have hw1 := s.writesIn_laneErrors l e
    have hto := State.laneErrors_touches s l e
    have hbits : (s.laneErrors l e).fld64 (Pg.lane l) Reg.LANE_BIT_COUNT_LO Reg.LANE_BIT_COUNT_HI =
        s.fld64 (Pg.lane l) Reg.LANE_BIT_COUNT_LO Reg.LANE_BIT_COUNT_HI :=
      hw1.fld64 (by simp [keyOf]) (by simp [keyOf])
    rw [hbits] at heq
    generalize s.laneErrors l e = y at *
    generalize s.fld64 (Pg.lane l) Reg.LANE_BIT_COUNT_LO Reg.LANE_BIT_COUNT_HI + b = n at *
    have hset : ∀ u : State, u.WritesIn (u.setFld64 (Pg.lane l) Reg.LANE_BIT_COUNT_LO Reg.LANE_BIT_COUNT_HI n)
        (· ∈ [keyOf Reg.LANE_BIT_COUNT_LO (Pg.lane l), keyOf Reg.LANE_BIT_COUNT_HI (Pg.lane l)]) := fun u => .setFld64 (.refl u _) _ (by simp) (by simp)
    have hst0 : ∀ u : State, u.WritesIn (u.setFld (Pg.lane l) Reg.LANE_TEST_STATUS 0) (· = keyOf Reg.LANE_TEST_STATUS (Pg.lane l)) :=
      fun u => .setFld (.refl u _) _ rfl
    have hr : ∀ u : State, u.WritesIn (u.raise (Pg.lane l) Reg.LANE_EVENT_CHK_SYNC_LOST) (· = keyOf Reg.LANE_EVENT_CHK_SYNC_LOST (Pg.lane l)) :=
      fun u => .raise (.refl u _) rfl
    refine ⟨_, congrArg Host.Outcome.next heq, ?_, State.fld_raise_same _ _ _ (by decide) rfl, ?_, ?_, ?_⟩
    · rw [(hr _).fld (hne _ _ (by decide) (by decide) (by decide)), State.fld_setFld_same _ _ _ _ (by decide)]
      rfl
    · rw [(hr _).fld (hne _ _ (by decide) (by decide) (by decide)), (hst0 _).fld (hne _ _ (by decide) (by decide) (by decide)),
        (hset _).fld (by simp [keyOf]), e1]
    · rw [(hr _).fld64 (hne _ _ (by decide) (by decide) (by decide)) (hne _ _ (by decide) (by decide) (by decide)),
        (hst0 _).fld64 (hne _ _ (by decide) (by decide) (by decide)) (hne _ _ (by decide) (by decide) (by decide)),
        State.fld64_setFld64 _ _ (by decide) (by decide) rfl rfl (hne _ _ (by decide) (by decide) (by decide))]
    · have hall := State.Touches.step (State.Touches.step (State.Touches.step hto (State.setFld64_touches y (Pg.lane l)
        Reg.LANE_BIT_COUNT_LO Reg.LANE_BIT_COUNT_HI n) rfl) (State.setFld_touches _ (Pg.lane l) Reg.LANE_TEST_STATUS 0) rfl)
        (State.raise_touches _ (Pg.lane l) Reg.LANE_EVENT_CHK_SYNC_LOST) rfl
      have hw : s.WritesIn y (onPages [Pg.lane l]) := hw1.mono fun a ha => by
        simp only [List.mem_cons, List.not_mem_nil, or_false] at ha
        rcases ha with rfl | rfl <;> exact hpage _ (by decide)
      exact ⟨((State.WritesIn.setFld (State.WritesIn.setFld64 hw _ (hpage _ (by decide)) (hpage _ (by decide))) _
        (hpage _ (by decide))).raise (hpage _ (by decide))).keepsPages, hall.onlyRegs, hall.onlyRegs.bytes⟩
  case few => exact congrArg Host.Outcome.next (if_neg fun hc => absurd hc.2.2.1 (by omega))

end Sys2Proof.Machine
end

section
/-! PROOFS. Lines and packets of a sensor port (R92 to R94, R107, R133). -/

set_option Elab.async false

namespace Sys2Proof.Machine

/-- The segments of a port replaced. -/
def State.setSegs (s : State) (k : Nat) (g : Tbl LaneSeg) : State := s.setPort k { s.port k with segs := g }

theorem State.port_setPort (s : State) (k : Nat) (p : PortSt) : (s.setPort k p).port k = p := by
  unfold State.setPort State.port
  split <;> simp [*]

theorem State.setSegs_eq (s : State) (k : Nat) (g : Tbl LaneSeg) :
    s.setSegs k g = if k = 0 then { s with portA := { s.portA with segs := (s.setSegs k g).portA.segs } }
      else { s with portB := { s.portB with segs := (s.setSegs k g).portB.segs } } := by
  unfold State.setSegs State.setPort State.port
  by_cases h : k = 0
  · simp only [h, if_true]
  · simp only [h, if_false]

/-- One segment put into a port's table. -/
theorem State.segs_put (s : State) (k l : Nat) (g : LaneSeg) :
    ((s.setSegs k ((s.port k).segs.put l g)).port k).segs.get l = g
      ∧ ∀ j, j ≠ l → ((s.setSegs k ((s.port k).segs.put l g)).port k).segs.get j = (s.port k).segs.get j := by
  rw [State.setSegs, State.port_setPort]
  exact ⟨Tbl.get_put_same _ _ _, fun j hj => Tbl.get_put_ne _ _ _ _ hj⟩

/-! ### Packets -/

/-- What a packet that is taken satisfies. -/
def LaneSeg.fits (g : LaneSeg) (p : Packet) (blocks : Nat) : Prop :=
  let n := p.data.length / 8
  let most := if g.sol then min 64 (blocks - p.off) else 64
  p.headersOk = true ∧ p.lockHeld = true ∧ (g.sol = true ∨ g.packets ≠ [] → p.line = g.line) ∧ p.off % 64 = 0 ∧ g.next ≤ p.off
    ∧ p.data.length = 8 * n ∧ n ≤ most ∧ (g.sol = true → n = most) ∧ 0 < n ∧ crc32c p.data = p.crc

/-- A packet that fits joins its segment. -/
theorem LaneSeg.take_of_fits {g : LaneSeg} {p : Packet} {blocks : Nat} (h : g.fits p blocks) :
    g.take p blocks = ({ g with line := p.line, cells := if g.sol then g.cells else 65536, next := p.off + p.data.length / 8
                                packets := g.packets ++ [(p.off, p.data)] }, true) := by
  obtain ⟨h1, h2, h3, h4, h5, h6, h7, h8, h9, h10⟩ := h
  have hline : (if g.sol = true ∨ g.packets ≠ [] then g.line else p.line) = p.line := by
    split
    · next hc => exact (h3 hc).symm
    · rfl
  have hok : (p.headersOk && p.lockHeld && decide (p.line = if g.sol = true ∨ g.packets ≠ [] then g.line else p.line) && decide (p.off % 64 = 0)
      && decide (g.next ≤ p.off) && decide (p.data.length = 8 * (p.data.length / 8))
      && decide (p.data.length / 8 ≤ if g.sol then min 64 (blocks - p.off) else 64)
      && (!g.sol || decide (p.data.length / 8 = if g.sol then min 64 (blocks - p.off) else 64)) && decide (0 < p.data.length / 8)
      && decide (crc32c p.data = p.crc)) = true := by
    rw [hline, h1, h2, decide_eq_true h4, decide_eq_true h5, decide_eq_true h6, decide_eq_true h7, decide_eq_true h9, decide_eq_true h10]
    cases hs : g.sol with
    | false => simp
    | true => simpa [hs] using h8 hs
  unfold LaneSeg.take
  rw [if_pos hok, hline]

/-- One whose headers, lock, line or CRC are wrong does not. -/
theorem LaneSeg.take_of_wrong {g : LaneSeg} {p : Packet} {blocks : Nat}
    (h : p.headersOk = false ∨ p.lockHeld = false ∨ (g.sol = true ∨ g.packets ≠ []) ∧ p.line ≠ g.line ∨ crc32c p.data ≠ p.crc) :
    (g.take p blocks).2 = false := by
  unfold LaneSeg.take
  dsimp only
  rw [if_neg]
  simp only [Bool.and_eq_true, decide_eq_true_eq]
  rintro ⟨⟨⟨⟨⟨⟨⟨⟨⟨h1, h2⟩, h3⟩, -⟩, -⟩, -⟩, -⟩, -⟩, -⟩, h10⟩
  rcases h with h | h | ⟨hs, hl⟩ | h
  · exact Bool.false_ne_true (h.symm.trans h1)
  · exact Bool.false_ne_true (h.symm.trans h2)
  · rw [if_pos hs] at h3
    exact hl h3
  · exact h h10

/-- The blocks of a lane's segment at the port's depth and gain. -/
def State.laneBlocks (s : State) (k : Nat) (g : LaneSeg) : Nat :=
  segBlocks g.cells (depthOf (s.fld (Pg.link k) Reg.LINK_CFG_DEPTH)) (s.on (Pg.link k) Reg.LINK_CFG_DUAL_GAIN)

theorem State.rxPacket_of_live {s : State} {k : Nat} {p : Packet} (hg : ¬ (k = 1 ∧ s.ganged = true)) (hl : p.lane < (s.port k).map.length)
    (hlive : s.laneLive k ((s.port k).map.getD p.lane 0) = true) :
    s.rxPacket k p =
      let r := ((s.port k).segs.get p.lane).take p (s.laneBlocks k ((s.port k).segs.get p.lane))
      if r.2 then s.setSegs k ((s.port k).segs.put p.lane r.1)
      else (s.count (Pg.link k) Reg.LINK_PKT_DISCARDS).raise (Pg.link k) Reg.LINK_EVENT_PKT_DISCARD := by
  unfold State.rxPacket
  rw [if_neg]
  · rfl
  · rintro (h | h | h)
    · omega
    · exact Bool.false_ne_true (h.1.symm.trans hlive)
    · exact hg h

theorem State.rxPacket_of_fits {s : State} {k : Nat} {p : Packet} (hg : ¬ (k = 1 ∧ s.ganged = true)) (hl : p.lane < (s.port k).map.length)
    (hlive : s.laneLive k ((s.port k).map.getD p.lane 0) = true)
    (hf : ((s.port k).segs.get p.lane).fits p (s.laneBlocks k ((s.port k).segs.get p.lane))) :
    s.rxPacket k p = s.setSegs k ((s.port k).segs.put p.lane { (s.port k).segs.get p.lane with
      line := p.line, cells := if ((s.port k).segs.get p.lane).sol then ((s.port k).segs.get p.lane).cells else 65536
      next := p.off + p.data.length / 8, packets := ((s.port k).segs.get p.lane).packets ++ [(p.off, p.data)] }) := by
  rw [State.rxPacket_of_live hg hl hlive, LaneSeg.take_of_fits hf]
  exact if_pos rfl

/-- Settles O27: SOL opens its segment, and a packet joins it or is discarded by what `LaneSeg.take` says of it. -/
theorem lineData : Obligations.LineData := by
  unfold Obligations.LineData
  refine ⟨fun s k l y depth dg cells hk hg hl hlive => ?sol, fun s k p g n hk hg hl hlive hseg hn =>
    ⟨fun hs hh hlk hln hoff hnext hlen hmost hpos hcrc => ?joins, fun hs hh hlk hln hoff hnext hlen hpos hle hcrc => ?rejoins, fun hbad => ?discard⟩⟩
  case sol =>
    have heq : s.rxSol k l y depth dg cells = s.setSegs k ((s.port k).segs.put l
        { sol := true, line := y, cells := cells
          badFormat := decide (depth ≠ s.fld (Pg.link k) Reg.LINK_CFG_DEPTH) || decide (dg ≠ s.fld (Pg.link k) Reg.LINK_CFG_DUAL_GAIN) }) := by
      unfold State.rxSol
      rw [if_neg]
      · rfl
      · rintro (h | h | h)
        · omega
        · exact Bool.false_ne_true (h.symm.trans hlive)
        · exact hg h
    obtain ⟨h1, h2⟩ := s.segs_put k l _
    exact ⟨_, congrArg Host.Outcome.next heq, h1, h2, State.setSegs_eq _ _ _⟩
  case discard =>
    subst hseg
    have heq := State.rxPacket_of_live hg hl hlive
    simp only [LaneSeg.take_of_wrong hbad, Bool.false_eq_true, if_false] at heq
    refine ⟨_, congrArg Host.Outcome.next heq, ?_, State.fld_raise_same _ _ _ (by decide) rfl,
      State.Kept.raise (State.Kept.count (.refl s _) (by simp)) (by simp)⟩
    rw [State.fld_raise_ne _ _ _ _ _ (by decide) (.inl (keyOf_ne_of_off (by decide) (by decide) (by decide))),
      State.fld_count_same _ _ _ (by decide)]
  all_goals
    subst hseg hn
  case joins =>
    have hf : ((s.port k).segs.get p.lane).fits p (s.laneBlocks k ((s.port k).segs.get p.lane)) := by
      refine ⟨hh, hlk, fun _ => hln, hoff, hnext, hlen, ?_, fun _ => ?_, hpos, hcrc⟩ <;> rw [if_pos hs]
      · exact le_of_eq hmost
      · exact hmost
    have heq := State.rxPacket_of_fits hg hl hlive hf
    rw [if_pos hs, hln] at heq
    obtain ⟨h1, h2⟩ := s.segs_put k p.lane _
    exact ⟨_, congrArg Host.Outcome.next heq, h1, h2, State.setSegs_eq _ _ _⟩
  case rejoins =>
    have hf : ((s.port k).segs.get p.lane).fits p (s.laneBlocks k ((s.port k).segs.get p.lane)) := by
      refine ⟨hh, hlk, fun h => hln (h.resolve_left (by simp [hs])), hoff, hnext, hlen, ?_, fun h => ?_, hpos, hcrc⟩
      · rw [if_neg (by simp [hs])]; exact hle
      · exact absurd (hs.symm.trans h) Bool.false_ne_true
    have heq := State.rxPacket_of_fits hg hl hlive hf
    rw [if_neg (by simp [hs])] at heq
    obtain ⟨h1, h2⟩ := s.segs_put k p.lane _
    exact ⟨_, congrArg Host.Outcome.next heq, h1, h2, State.setSegs_eq _ _ _⟩

end Sys2Proof.Machine
end

section
/-! PROOFS. Lane status, losses and rejoining (R104, R106, R110, R111, R113, R124). -/

set_option Elab.async false

namespace Sys2Proof.Machine

/-! ### Ports and their lanes, read after register writes -/

theorem State.port_setPort_ne (s : State) {k j : Nat} (p : PortSt) (h : (k = 0) ≠ (j = 0)) : (s.setPort k p).port j = s.port j := by
  unfold State.setPort State.port
  by_cases hk : k = 0 <;> by_cases hj : j = 0 <;> simp_all

theorem State.port_congr {s t : State} (ha : t.portA = s.portA) (hb : t.portB = s.portB) (k : Nat) : t.port k = s.port k := by
  rw [State.port, ha, hb, State.port]

theorem State.Touches.port {s t : State} {l : List Part} (h : s.Touches t l) (ha : .portA ∉ l := by decide) (hb : .portB ∉ l := by decide) (k : Nat) :
    t.port k = s.port k := State.port_congr (h.same .portA ha) (h.same .portB hb) k

theorem sensorLane_of_lt {l : Nat} (h : l < 16) : sensorLane l = true := decide_eq_true h

theorem rxLane_of_lt {l : Nat} (h : l < 16) : rxLane l = true := by simp [rxLane, h]

theorem sensorLane_of_ge {l : Nat} (h : 22 ≤ l) : sensorLane l = false := decide_eq_false (by omega)

theorem rxLane_of_ge {l : Nat} (h : 22 ≤ l) (h' : l ≤ 45) : rxLane l = true := by simp [rxLane, h, h']

theorem State.portOf_lt (s : State) {l : Nat} (h : l < 16) : s.portOf l < 2 := by
  unfold State.portOf
  split <;> omega

/-- The registers of a link page that show its port. -/
def linkStateKeys (k : Nat) : List Nat := [keyOf Reg.LINK_STATE_PORT (Pg.link k), keyOf Reg.LINK_FALLBACK_LOSS_FRAMES (Pg.link k),
  keyOf Reg.LINK_EVENT_LANE_LOSS (Pg.link k)]

/-- A change of a port, shown in its registers with an event. -/
theorem State.writesIn_shown (s : State) (k : Nat) {e : Fld} (he : e.off = 0x010) :
    s.WritesIn (((s.showPort k).showLoss k).raise (Pg.link k) e) (· ∈ linkStateKeys k) := by
  have h1 : s.WritesIn (s.showPort k) (· ∈ linkStateKeys k) := (s.writesIn_showPort k).mono fun a ha => by
    simp only [List.mem_cons, List.not_mem_nil, or_false] at ha
    rcases ha with rfl | rfl <;> simp [linkStateKeys, keyOf]
  exact State.WritesIn.raise (h1.setFld _ (by simp [linkStateKeys])) (by simp [linkStateKeys, keyOf, he])

theorem State.shown_touches (s : State) (k : Nat) (e : Fld) :
    s.Touches (((s.showPort k).showLoss k).raise (Pg.link k) e) [.regs, .ctlLatches] :=
  .step (.step ((State.showPort_touches s k).mono rfl) (State.showLoss_touches _ k) rfl) (State.raise_touches ..) rfl

theorem State.laneLocked_of_writes {s t : State} {P : Nat → Prop} (h : s.WritesIn t P) {l : Nat} (hl : ¬ P (keyOf Reg.LANE_RX_STATUS_LOS (Pg.lane l))) :
    t.laneLocked l = s.laneLocked l := by
  have hf : ∀ f : Fld, f.off = 0x044 → t.on (Pg.lane l) f = s.on (Pg.lane l) f := fun f hf => by
    rw [State.on, h.fld (by rw [keyOf, hf]; exact hl), State.on]
  rw [State.laneLocked, hf _ rfl, hf _ rfl, hf _ rfl, State.laneLocked]

/-! ### Leaving lock -/

theorem State.lockLost_of_unlocked {s0 s : State} {l : Nat} (h : s0.laneLocked l = false) : s0.lockLost s l = s := if_pos (.inr h)

theorem State.lockLost_of_idle {s0 s : State} {l : Nat} (hl : l < 16) (h : s0.laneLocked l = true) (hlive : s0.laneLive (s0.portOf l) l = false) :
    s0.lockLost s l = s.count (Pg.lane l) Reg.LANE_LOL_COUNT := by
  unfold State.lockLost
  rw [if_neg (by simp [sensorLane_of_lt hl, h])]
  exact if_pos (.inl hlive)

/-- The port that a live lane of the map in force has left. -/
def PortSt.loses (p : PortSt) (l : Nat) : PortSt :=
  { p with joined := p.joined.filter fun j => decide (j ≠ l), outages := p.outages ++ [(l, 0)] }

/-- The loss of a live lane counted, and the lane gone from its port. -/
def State.laneLeft (s : State) (k l : Nat) : State := (s.count (Pg.lane l) Reg.LANE_LOL_COUNT).setPort k ((s.port k).loses l)

/-- That loss shown, with LANE_LOSS. -/
def State.lossShown (s : State) (k l : Nat) : State :=
  (((s.laneLeft k l).showPort k).showLoss k).raise (Pg.link k) Reg.LINK_EVENT_LANE_LOSS

theorem State.lockLost_of_live {s0 s : State} {l : Nat} (hl : l < 16) (hlive : s0.laneLive (s0.portOf l) l = true)
    (hp : (s.port (s0.portOf l)).phase = .linked) (hm : l ∈ (s.port (s0.portOf l)).map) :
    s0.lockLost s l = (s.lossShown (s0.portOf l) l).raiseIf
      ((((s.lossShown (s0.portOf l) l).port (s0.portOf l)).map.filter ((s.lossShown (s0.portOf l) l).laneLive (s0.portOf l))).isEmpty)
      (Pg.link (s0.portOf l)) Reg.LINK_EVENT_LINK_DOWN := by
  have hk : s0.laneLocked l = true := by
    rw [State.laneLive, Bool.and_eq_true] at hlive
    exact hlive.1
  unfold State.lockLost
  rw [if_neg (by simp [sensorLane_of_lt hl, hk])]
  dsimp only
  rw [if_neg (by simp [hlive, hp]), if_neg (by simpa using hm)]
  rfl

/-- The registers that a loss of lock writes. -/
def lossKeys (k l : Nat) : List Nat := keyOf Reg.LANE_LOL_COUNT (Pg.lane l) :: linkStateKeys k

theorem State.writesIn_lossShown (s : State) (k l : Nat) : s.WritesIn (s.lossShown k l) (· ∈ lossKeys k l) := by
  have h : s.WritesIn (s.laneLeft k l) (· ∈ lossKeys k l) :=
    State.WritesIn.of_regs (State.WritesIn.count (.refl s _) (by simp [lossKeys])) (State.setPort_regs ..)
  exact h.trans ((State.writesIn_shown _ k rfl).mono fun a ha => List.mem_cons_of_mem _ ha)

/-- Whatever the port and the lane, a loss of lock writes only their registers. -/
theorem State.writesIn_lockLost (s0 s : State) (l : Nat) : s.WritesIn (s0.lockLost s l) (· ∈ lossKeys (s0.portOf l) l) := by
  have hc : s.WritesIn (s.count (Pg.lane l) Reg.LANE_LOL_COUNT) (· ∈ lossKeys (s0.portOf l) l) := .count (.refl s _) (by simp [lossKeys])
  unfold State.lockLost
  split
  · exact .refl _ _
  dsimp only
  split
  · exact hc
  split
  · exact hc.of_regs (State.setPort_regs ..)
  · exact State.WritesIn.raiseIf (s.writesIn_lossShown (s0.portOf l) l) (by simp [lossKeys, linkStateKeys, keyOf])

theorem State.port_lossShown (s : State) (k l : Nat) : (s.lossShown k l).port k = (s.port k).loses l := by
  rw [State.lossShown, (State.shown_touches _ k _).port, State.laneLeft, State.port_setPort]

/-- What a lane in work that leaves lock does to its port: LANE_LOSS, an outage, and the lane no longer live. -/
theorem State.lockLost_live_effect {s0 s : State} {l : Nat} (hl : l < 16) (hlive : s0.laneLive (s0.portOf l) l = true)
    (hp : (s.port (s0.portOf l)).phase = .linked) (hm : l ∈ (s.port (s0.portOf l)).map) :
    (s0.lockLost s l).fld (Pg.link (s0.portOf l)) Reg.LINK_EVENT_LANE_LOSS = 1
      ∧ ((s0.lockLost s l).port (s0.portOf l)).outages = (s.port (s0.portOf l)).outages ++ [(l, 0)]
      ∧ (s0.lockLost s l).laneLive (s0.portOf l) l = false := by
  have heq := State.lockLost_of_live hl hlive hp hm
  have hev : (s.lossShown (s0.portOf l) l).fld (Pg.link (s0.portOf l)) Reg.LINK_EVENT_LANE_LOSS = 1 := State.fld_raise_same _ _ _ (by decide) rfl
  have hport := s.port_lossShown (s0.portOf l) l
  have hto : (s.lossShown (s0.portOf l) l).Touches (s0.lockLost s l) [.regs, .ctlLatches] := heq ▸ State.raiseIf_touches ..
  have hport' := hto.port (by decide) (by decide) (s0.portOf l)
  refine ⟨by rw [heq]; exact State.fld_raiseIf_of_one rfl rfl hev, by rw [hport', hport]; rfl, ?_⟩
  rw [State.laneLive, hport', hport]
  simp [PortSt.loses]

/-- A lane that was not live leaves the ports as they are. -/
theorem State.lockLost_idle_effect {s0 s : State} {l : Nat} (hl : l < 16) (hlive : s0.laneLive (s0.portOf l) l = false) :
    (s0.lockLost s l).portA = s.portA ∧ (s0.lockLost s l).portB = s.portB := by
  cases hk : s0.laneLocked l with
  | false => rw [State.lockLost_of_unlocked hk]; exact ⟨rfl, rfl⟩
  | true => rw [State.lockLost_of_idle hl hk hlive]; exact ⟨rfl, rfl⟩

/-! ### The taps of a lane that freezes -/

/-- The adaptation of a lane changes its taps alone. -/
theorem State.port_adaptLane (s : State) (l j : Nat) : (s.adaptLane l).port j = { s.port j with taps := ((s.adaptLane l).port j).taps } := by
  unfold State.adaptLane
  split
  · by_cases hk : s.portOf l = 0 <;> by_cases hj : j = 0 <;> simp [State.port, State.setPort, hk, hj]
  · rfl

/-- What a loss of lock after an adaptation and register writes does: the loss of status read before, and the ports before but for the taps. -/
theorem State.lockLost_adapted {s u : State} {l : Nat} {Q : Nat → Prop} (hl : l < 16) (hw : (s.adaptLane l).WritesIn u Q)
    (ht : (s.adaptLane l).Touches u [.regs, .ctlLatches])
    (hQ : ∀ a, Q a → onPages [Pg.lane l, Pg.link (s.portOf l)] a) :
    (s.laneLive (s.portOf l) l = true → (s.port (s.portOf l)).phase = .linked → l ∈ (s.port (s.portOf l)).map →
        (s.lockLost u l).fld (Pg.link (s.portOf l)) Reg.LINK_EVENT_LANE_LOSS = 1
          ∧ ((s.lockLost u l).port (s.portOf l)).outages = (s.port (s.portOf l)).outages ++ [(l, 0)]
          ∧ (s.lockLost u l).laneLive (s.portOf l) l = false)
      ∧ (s.laneLive (s.portOf l) l = false → ∀ j, (s.lockLost u l).port j = { s.port j with taps := ((s.lockLost u l).port j).taps })
      ∧ s.lockLost u l = { s.regsOf (s.lockLost u l) with
          portA := (s.lockLost u l).portA, portB := (s.lockLost u l).portB, seed := (s.lockLost u l).seed }
      ∧ s.KeepsPages (s.lockLost u l) [Pg.lane l, Pg.link (s.portOf l)] ∧ s.KeepsBytes (s.lockLost u l) := by
  have hto := State.Touches.step (State.Touches.step ((s.adaptLane_touches l).mono (l' := [.seed, .regs, .ctlLatches, .portA, .portB]) rfl) ht rfl)
    (State.lockLost_touches s u l) rfl
  have hport : ∀ j, u.port j = { s.port j with taps := (u.port j).taps } := fun j => by
    rw [ht.port (by decide) (by decide) j]; exact s.port_adaptLane l j
  refine ⟨fun hlive hp hm => ?_, fun hlive j => ?_, hto.eq_mix, ?_, hto.keepsBytes rfl⟩
  · obtain ⟨h1, h2, h3⟩ := State.lockLost_live_effect (s := u) hl hlive (by rw [hport]; exact hp) (by rw [hport]; exact hm)
    exact ⟨h1, by rw [h2, hport], h3⟩
  · obtain ⟨ha, hb⟩ := State.lockLost_idle_effect (s := u) hl hlive
    rw [State.port_congr ha hb]
    exact hport j
  · have h0 : s.WritesIn (s.adaptLane l) (onPages [Pg.lane l, Pg.link (s.portOf l)]) :=
      .of_regs (.refl s _) ((s.adaptLane_touches l).same .regs (by decide))
    refine ((h0.trans (hw.mono hQ)).trans ((State.writesIn_lockLost s u l).mono ?_)).keepsPages
    have : ∀ k < 2, ∀ l < 16, ∀ b ∈ lossKeys k l, b / 0x1000 % 1024 ∈ [Pg.lane l, Pg.link k] := by decide
    exact this _ (s.portOf_lt hl) l hl

/-- A register that a loss of lock does not write. -/
theorem State.fld_lockLost {s0 s : State} {l : Nat} {f : Fld} (hl : l < 16) (hf : f.off = 0x044 ∨ f.off = 0x010 ∨ f.off = 0x07C) :
    (s0.lockLost s l).fld (Pg.lane l) f = s.fld (Pg.lane l) f := by
  refine (State.writesIn_lockLost s0 s l).fld ?_
  have h := s0.portOf_lt hl
  simp only [lossKeys, linkStateKeys, keyOf, Pg.link, Pg.lane, List.mem_cons, List.not_mem_nil, or_false]
  omega

/-- The adaptation moves neither the locks nor the lanes of a port. -/
theorem State.lockLost_adaptLane (s u : State) (l : Nat) : (s.adaptLane l).lockLost u l = s.lockLost u l := by
  have hr := (s.adaptLane_touches l).same .regs (by decide)
  have hon : ∀ p f, (s.adaptLane l).on p f = s.on p f := fun p f => State.on_congr hr p f
  have hport : (s.adaptLane l).portOf l = s.portOf l := by rw [State.portOf, State.ganged, hon, ← State.ganged, ← State.portOf]
  have hlock : (s.adaptLane l).laneLocked l = s.laneLocked l := by rw [State.laneLocked, hon, hon, hon, ← State.laneLocked]
  have hlive : (s.adaptLane l).laneLive (s.portOf l) l = s.laneLive (s.portOf l) l := by
    rw [State.laneLive, hlock, s.port_adaptLane, State.laneLive]
  unfold State.lockLost
  simp only [hport, hlock, hlive]

/-! ### The obligation -/

theorem State.losSet_of_clear {s : State} {l : Nat} (hl : l < 16) (h : s.fld (Pg.lane l) Reg.LANE_RX_STATUS_LOS = 0) :
    s.losSet l = s.lockLost (((((s.adaptLane l).setFld (Pg.lane l) Reg.LANE_RX_STATUS_LOS 1).count (Pg.lane l) Reg.LANE_LOS_COUNT).raise
      (Pg.lane l) Reg.LANE_EVENT_LOS)) l := by
  unfold State.losSet
  rw [if_neg (by simp [rxLane_of_lt hl, State.on, h])]
  simp only [sensorLane_of_lt hl, if_true, State.lockLost_adaptLane]

theorem State.cdrLost_of_locked {s : State} {l : Nat} (hl : l < 16) (h : s.fld (Pg.lane l) Reg.LANE_RX_STATUS_CDR_LOCK = 1) :
    s.cdrLost l = s.lockLost ((s.setFld (Pg.lane l) Reg.LANE_RX_STATUS_CDR_LOCK 0).raise (Pg.lane l) Reg.LANE_EVENT_CDR_LOST) l := by
  unfold State.cdrLost
  rw [if_neg (by simp [rxLane_of_lt hl, State.on, h]), if_pos (sensorLane_of_lt hl)]

theorem State.blockLost_of_locked {s : State} {l : Nat} (hl : l < 16) (h : s.fld (Pg.lane l) Reg.LANE_RX_STATUS_BLOCK_LOCK = 1) :
    s.blockLost l = s.lockLost ((((s.adaptLane l).setFld (Pg.lane l) Reg.LANE_RX_STATUS_BLOCK_LOCK 0).setFld (Pg.lane l)
      Reg.LANE_RX_STATUS_HDR_RUN 0).raise (Pg.lane l) Reg.LANE_EVENT_BLOCK_LOCK_LOST) l := by
  unfold State.blockLost
  rw [if_neg (by simp [sensorLane_of_lt hl, State.on, h])]
  simp only [State.lockLost_adaptLane]

/-- A port whose locked lanes of the full map, gone before, have rejoined. -/
def PortSt.rejoined (p : PortSt) (back : List Nat) : PortSt :=
  { p with joined := p.joined ++ back, outages := p.outages.filter fun e => !back.contains e.1 }

theorem State.rxAlign_of_back {s : State} {k : Nat} {back : List Nat} (hp : (s.port k).phase = .linked)
    (hb : back = (s.port k).fullMap.filter (fun l => s.laneLocked l && !(s.port k).joined.contains l)) (hne : back ≠ []) :
    s.rxAlign k = (((s.setPort k ((s.port k).rejoined back)).showPort k).showLoss k).raise (Pg.link k) Reg.LINK_EVENT_LANE_RELOCK := by
  unfold State.rxAlign
  simp only [← hb]
  rw [if_neg (by simp [hp, hne])]
  rfl

theorem lane_ne_off {f g : Fld} {l : Nat} (hf : f.off < 0x1000) (hg : g.off < 0x1000) (h : f.off ≠ g.off) :
    keyOf f (Pg.lane l) ≠ keyOf g (Pg.lane l) := keyOf_ne_of_off hf hg h

/-- Settles O25: a loss counts and goes on to the port by `State.lockLost`; an ALIGN block lets the locked lanes of the full map rejoin. -/
theorem laneStatus : Obligations.LaneStatus := by
  unfold Obligations.LaneStatus
  refine ⟨fun s l k hl hk h0 => ?los, fun s l k hl hk h1 => ?cdr, fun s l k hl hk h1 => ?block, fun s l h h' => ?losFar, fun s l h h' => ?cdrFar,
    fun s l hl => ?losClear, fun s l hl => ?cdrLock, fun s l hl => ?blockLock, fun s l hl hc hb => ?alignNeeded,
    fun s k n back hk hp hback hne => ?align⟩
  case los =>
    subst hk
    have hreg : ∀ f p, (s.adaptLane l).fld p f = s.fld p f := fun f p => State.fld_congr ((s.adaptLane_touches l).same .regs (by decide)) _ _
    have hw : (s.adaptLane l).WritesIn ((((s.adaptLane l).setFld (Pg.lane l) Reg.LANE_RX_STATUS_LOS 1).count (Pg.lane l) Reg.LANE_LOS_COUNT).raise
        (Pg.lane l) Reg.LANE_EVENT_LOS) (· ∈ [keyOf Reg.LANE_RX_STATUS_LOS (Pg.lane l), keyOf Reg.LANE_LOS_COUNT (Pg.lane l),
          keyOf Reg.LANE_EVENT_LOS (Pg.lane l)]) :=
      State.WritesIn.raise (State.WritesIn.count (State.WritesIn.setFld (.refl _ _) _ (by simp)) (by simp)) (by simp)
    have ht := State.Touches.step (State.Touches.step ((State.setFld_touches (s.adaptLane l) (Pg.lane l) Reg.LANE_RX_STATUS_LOS 1).mono
      (l' := [.regs, .ctlLatches]) rfl) (State.count_touches _ (Pg.lane l) Reg.LANE_LOS_COUNT) rfl)
      (State.raise_touches _ (Pg.lane l) Reg.LANE_EVENT_LOS) rfl
    have hrest := State.lockLost_adapted hl hw ht fun a ha => by
      have : ∀ k < 2, ∀ l < 16, ∀ b ∈ [keyOf Reg.LANE_RX_STATUS_LOS (Pg.lane l), keyOf Reg.LANE_LOS_COUNT (Pg.lane l),
        keyOf Reg.LANE_EVENT_LOS (Pg.lane l)], b / 0x1000 % 1024 ∈ [Pg.lane l, Pg.link k] := by decide
      exact this _ (s.portOf_lt hl) l hl a ha
    refine ⟨_, congrArg Host.Outcome.next (State.losSet_of_clear hl h0), ?_, ?_, ?_, hrest⟩
    · rw [State.fld_lockLost hl (.inl rfl), State.fld_raise_ne _ _ _ _ _ (by decide) (.inl (lane_ne_off (by decide) (by decide) (by decide))),
        State.fld_count_ne _ (lane_ne_off (by decide) (by decide) (by decide)), State.fld_setFld_same _ _ _ _ (by decide)]
      rfl
    · rw [State.fld_lockLost hl (.inr (.inl rfl)), State.fld_raise_same _ _ _ (by decide) rfl]
    · rw [State.fld_lockLost hl (.inr (.inr rfl)), State.fld_raise_ne _ _ _ _ _ (by decide) (.inl (lane_ne_off (by decide) (by decide) (by decide))),
        State.fld_count_same _ _ _ (by decide), State.fld_setFld_ne _ _ _ _ _ _ (by decide)
          (.inl (lane_ne_off (by decide) (by decide) (by decide))), hreg]
  case cdr =>
    subst hk
    generalize hu : (s.setFld (Pg.lane l) Reg.LANE_RX_STATUS_CDR_LOCK 0).raise (Pg.lane l) Reg.LANE_EVENT_CDR_LOST = u
    have ht : s.Touches u [.regs, .ctlLatches] := hu ▸ .step ((State.setFld_touches ..).mono rfl) (State.raise_touches ..) rfl
    have hw : s.WritesIn u (· ∈ [keyOf Reg.LANE_RX_STATUS_CDR_LOCK (Pg.lane l), keyOf Reg.LANE_EVENT_CDR_LOST (Pg.lane l)]) :=
      hu ▸ State.WritesIn.raise (State.WritesIn.setFld (.refl _ _) _ (by simp)) (by simp)
    have hport := ht.port (by decide) (by decide) (s.portOf l)
    have hto := State.Touches.step (ht.mono (l' := [.regs, .ctlLatches, .portA, .portB]) rfl) (State.lockLost_touches s u l) rfl
    refine ⟨_, congrArg Host.Outcome.next ((State.cdrLost_of_locked hl h1).trans (by rw [hu])), ?_, ?_, fun hlive hp hm => ?_, fun hlive => ?_,
      hto.eq_mix, ?_, hto.keepsBytes rfl⟩
    · rw [State.fld_lockLost hl (.inl rfl), ← hu, State.fld_raise_ne _ _ _ _ _ (by decide) (.inl (lane_ne_off (by decide) (by decide) (by decide))),
        State.fld_setFld_same _ _ _ _ (by decide)]
      rfl
    · rw [State.fld_lockLost hl (.inr (.inl rfl)), ← hu, State.fld_raise_same _ _ _ (by decide) rfl]
    · have h := State.lockLost_live_effect (s := u) hl hlive (by rw [hport]; exact hp) (by rw [hport]; exact hm)
      rwa [hport] at h
    · obtain ⟨ha, hb⟩ := State.lockLost_idle_effect (s := u) hl hlive
      exact ⟨ha.trans (ht.same .portA (by decide)), hb.trans (ht.same .portB (by decide))⟩
    · have h1 : ∀ k < 2, ∀ l < 16, ∀ b ∈ [keyOf Reg.LANE_RX_STATUS_CDR_LOCK (Pg.lane l), keyOf Reg.LANE_EVENT_CDR_LOST (Pg.lane l)],
          b / 0x1000 % 1024 ∈ [Pg.lane l, Pg.link k] := by decide
      have h2 : ∀ k < 2, ∀ l < 16, ∀ b ∈ lossKeys k l, b / 0x1000 % 1024 ∈ [Pg.lane l, Pg.link k] := by decide
      exact ((hw.mono (h1 _ (s.portOf_lt hl) l hl)).trans ((State.writesIn_lockLost s u l).mono (h2 _ (s.portOf_lt hl) l hl))).keepsPages
  case block =>
    subst hk
    have hw : (s.adaptLane l).WritesIn ((((s.adaptLane l).setFld (Pg.lane l) Reg.LANE_RX_STATUS_BLOCK_LOCK 0).setFld (Pg.lane l)
        Reg.LANE_RX_STATUS_HDR_RUN 0).raise (Pg.lane l) Reg.LANE_EVENT_BLOCK_LOCK_LOST)
        (· ∈ [keyOf Reg.LANE_RX_STATUS_BLOCK_LOCK (Pg.lane l), keyOf Reg.LANE_EVENT_BLOCK_LOCK_LOST (Pg.lane l)]) :=
      State.WritesIn.raise (State.WritesIn.setFld (State.WritesIn.setFld (.refl _ _) _ (by simp)) _ (by simp [keyOf])) (by simp)
    have ht := State.Touches.step (State.Touches.step ((State.setFld_touches (s.adaptLane l) (Pg.lane l) Reg.LANE_RX_STATUS_BLOCK_LOCK 0).mono
      (l' := [.regs, .ctlLatches]) rfl) (State.setFld_touches _ (Pg.lane l) Reg.LANE_RX_STATUS_HDR_RUN 0) rfl)
      (State.raise_touches _ (Pg.lane l) Reg.LANE_EVENT_BLOCK_LOCK_LOST) rfl
    have hrest := State.lockLost_adapted hl hw ht fun a ha => by
      have : ∀ k < 2, ∀ l < 16, ∀ b ∈ [keyOf Reg.LANE_RX_STATUS_BLOCK_LOCK (Pg.lane l), keyOf Reg.LANE_EVENT_BLOCK_LOCK_LOST (Pg.lane l)],
        b / 0x1000 % 1024 ∈ [Pg.lane l, Pg.link k] := by decide
      exact this _ (s.portOf_lt hl) l hl a ha
    refine ⟨_, congrArg Host.Outcome.next (State.blockLost_of_locked hl h1), ?_, ?_, hrest⟩
    · rw [State.fld_lockLost hl (.inl rfl), State.fld_raise_ne _ _ _ _ _ (by decide) (.inl (lane_ne_off (by decide) (by decide) (by decide))),
        State.fld_setFld_ne _ _ _ _ _ _ (by decide) (.inr (.inr (by decide))), State.fld_setFld_same _ _ _ _ (by decide)]
      rfl
    · rw [State.fld_lockLost hl (.inr (.inl rfl)), State.fld_raise_same _ _ _ (by decide) rfl]
  case losFar =>
    have heq : s.losSet l = ((s.count (Pg.lane l) Reg.LANE_LOS_COUNT).raise (Pg.lane l) Reg.LANE_EVENT_LOS) := by
      have had : s.adaptLane l = s := if_neg (by simp [State.dfeAdapts, show ¬ l < 16 by omega])
      unfold State.losSet
      rw [if_neg (by simp [rxLane_of_ge h h', sensorLane_of_ge h]), had]
      simp only [sensorLane_of_ge h, Bool.false_eq_true, if_false, State.lockLost, true_or, if_true]
    refine ⟨_, congrArg Host.Outcome.next heq, State.fld_raise_same _ _ _ (by decide) rfl, ?_,
      State.Kept.raise (State.Kept.count (.refl s _) (by simp)) (by simp)⟩
    rw [State.fld_raise_ne _ _ _ _ _ (by decide) (.inl (lane_ne_off (by decide) (by decide) (by decide))), State.fld_count_same _ _ _ (by decide)]
  case cdrFar =>
    have heq : s.cdrLost l = ((s.count (Pg.lane l) Reg.LANE_LOL_COUNT).raise (Pg.lane l) Reg.LANE_EVENT_CDR_LOST) := by
      unfold State.cdrLost
      rw [if_neg (by simp [rxLane_of_ge h h', sensorLane_of_ge h]), if_neg (by simp [sensorLane_of_ge h])]
    refine ⟨_, congrArg Host.Outcome.next heq, State.fld_raise_same _ _ _ (by decide) rfl, ?_,
      State.Kept.raise (State.Kept.count (.refl s _) (by simp)) (by simp)⟩
    rw [State.fld_raise_ne _ _ _ _ _ (by decide) (.inl (lane_ne_off (by decide) (by decide) (by decide))), State.fld_count_same _ _ _ (by decide)]
  case losClear =>
    have heq : s.losCleared l = s.setFld (Pg.lane l) Reg.LANE_RX_STATUS_LOS 0 := if_pos (sensorLane_of_lt hl)
    exact ⟨_, congrArg Host.Outcome.next heq, State.fld_setFld_same _ _ _ _ (by decide), (State.Kept.refl s _).setFld _ (by simp)⟩
  case cdrLock =>
    have heq : s.cdrLocked l = s.setFld (Pg.lane l) Reg.LANE_RX_STATUS_CDR_LOCK 1 := if_pos (sensorLane_of_lt hl)
    exact ⟨_, congrArg Host.Outcome.next heq, State.fld_setFld_same _ _ _ _ (by decide), (State.Kept.refl s _).setFld _ (by simp)⟩
  case blockLock =>
    have heq : s.blockLocked l = (s.setFld (Pg.lane l) Reg.LANE_RX_STATUS_BLOCK_LOCK 1).setFld (Pg.lane l) Reg.LANE_RX_STATUS_HDR_RUN 64 :=
      if_pos (sensorLane_of_lt hl)
    refine ⟨_, congrArg Host.Outcome.next heq, ?_, State.Kept.setFld (State.Kept.setFld (.refl s _) _ (by simp)) _ (by simp [keyOf])⟩
    rw [State.fld_setFld_ne _ _ _ _ _ _ (by decide) (.inr (.inr (by decide))), State.fld_setFld_same _ _ _ _ (by decide)]
    rfl
  case alignNeeded =>
    have heq : s.alignNeeded l = s.raise (Pg.link (s.portOf l)) Reg.LINK_EVENT_ALIGN_NEEDED :=
      if_pos (by simp [sensorLane_of_lt hl, State.on, hc, hb])
    exact ⟨_, congrArg Host.Outcome.next heq, State.fld_raise_same _ _ _ (by decide) rfl, (State.Kept.refl s _).raise (by simp)⟩
  case align =>
    have heq := State.rxAlign_of_back hp hback hne
    have hsh := State.shown_touches (s.setPort k ((s.port k).rejoined back)) k Reg.LINK_EVENT_LANE_RELOCK
    have hw0 : s.WritesIn (s.setPort k ((s.port k).rejoined back)) (· ∈ linkStateKeys k) := .of_regs (.refl s _) (State.setPort_regs ..)
    have hw := hw0.trans (State.writesIn_shown (s.setPort k ((s.port k).rejoined back)) k (e := Reg.LINK_EVENT_LANE_RELOCK) rfl)
    have hport := hsh.port (by decide) (by decide)
    have hmine : (s.rxAlign k).port k = (s.port k).rejoined back := by rw [heq, hport, State.port_setPort]
    have hother : (s.rxAlign k).port (1 - k) = s.port (1 - k) := by
      rw [heq, hport, State.port_setPort_ne _ _ (by rw [Ne, eq_iff_iff]; omega)]
    have hto := State.rxAlign_touches s k
    rw [← heq] at hw
    refine ⟨_, rfl, by rw [hmine]; rfl, fun l hlm hlk => ?_, by rw [hmine]; rfl, by rw [hmine]; rfl, ?_, hother, hto.eq_mix, ?_, hto.keepsBytes rfl⟩
    · have hlock : (s.rxAlign k).laneLocked l = true := (State.laneLocked_of_writes hw (by
        simp only [linkStateKeys, keyOf, List.mem_cons, List.not_mem_nil, or_false]; omega)).trans hlk
      rw [State.laneLive, hlock, hmine, Bool.true_and, List.contains_iff_mem]
      by_cases hj : l ∈ (s.port k).joined
      · exact List.mem_append_left _ hj
      · refine List.mem_append_right _ ?_
        rw [hback, List.mem_filter]
        exact ⟨hlm, by simp [hlk, hj]⟩
    · rw [heq]; exact State.fld_raise_same _ _ _ (by decide) rfl
    · exact (hw.mono fun a ha => by
        have : ∀ k < 2, ∀ b ∈ linkStateKeys k, b / 0x1000 % 1024 ∈ [Pg.link k] := by decide
        exact this k hk a ha).keepsPages

end Sys2Proof.Machine
end

section
/-! SUPPORT. Domains that follow a write of CTRL: the registers that `State.settle` may write, and a page whose function is enabled. -/

set_option Elab.async false

namespace Sys2Proof.Machine

/-! ### Pages and their blocks -/

/-- A page of a block of one of the ranges of `pageMap`. -/
theorem mem_pageMap_of_pageBlk {p : Nat} {b : Blk} {i : Nat} (h : pageBlk p = some (b, i)) : ∃ e ∈ pageMap, e.2.2 = b ∧ p = e.1 + i ∧ i < e.2.1 := by
  unfold pageBlk at h
  obtain ⟨e, he, heq⟩ := Option.map_eq_some_iff.1 h
  have hm := List.mem_of_find?_eq_some he
  have hp := List.find?_some he
  simp only [Bool.and_eq_true, decide_eq_true_eq] at hp
  obtain ⟨hb, hi⟩ := Prod.mk.injEq .. ▸ heq
  exact ⟨e, hm, hb, by omega, by omega⟩

/-- A block of one range of pages has its pages there. -/
theorem page_of_pageBlk {p base n : Nat} {b : Blk} {i : Nat} (h : pageBlk p = some (b, i))
    (hb : (pageMap.all fun e => decide (e.2.2 = b → e.1 = base ∧ e.2.1 = n)) = true) : p = base + i ∧ i < n := by
  obtain ⟨e, he, heb, hp, hi⟩ := mem_pageMap_of_pageBlk h
  obtain ⟨h1, h2⟩ := of_decide_eq_true (List.all_eq_true.1 hb e he) heb
  exact ⟨h1 ▸ hp, h2 ▸ hi⟩

/-! ### Registers that a domain going down or coming up may write -/

/-- The registers that a change of power of a page may write: beside PWR_REQ, STATE and the registers of the block (of the Filter Store, all of
its page), and the count of the requests held. -/
def settleMay (p a : Nat) : Prop :=
  a / 0x1000 % 1024 = p ∧ (p = Pg.fstore ∨ a % 0x1000 = 0x00C ∨ a % 0x1000 = 0x024 ∨ 0x040 ≤ a % 0x1000) ∨ a = keyOf Reg.PWR_HELD Pg.pwr

theorem settleMay_keyOf {p : Nat} {f : Fld} (hp : p < 1024) (hf : f.off < 0x1000) (h : f.off = 0x00C ∨ f.off = 0x024 ∨ 0x040 ≤ f.off) :
    settleMay p (keyOf f p) := by
  unfold settleMay keyOf
  omega

theorem settleMay_fstore {f : Fld} (hf : f.off < 0x1000) : settleMay Pg.fstore (keyOf f Pg.fstore) :=
  .inl ⟨by simp only [keyOf, Pg.fstore]; omega, .inl rfl⟩

theorem State.writesIn_showHeld (s : State) (p : Nat) : s.WritesIn s.showHeld (settleMay p) := .setFld (.refl s _) _ (.inr rfl)

theorem State.writesIn_wipePage (s : State) (p : Nat) : s.WritesIn (s.wipePage p) (settleMay p) := fun a ha => by
  unfold State.rd State.wipePage
  dsimp only
  rw [Sparse.read_filter (keep := fun a => decide (a / 0x1000 % 1024 ≠ p) || outlives a), if_pos]
  simp only [settleMay, not_or, not_and] at ha
  by_cases h : a / 0x1000 % 1024 = p
  · have : a % 0x1000 < 0x040 := by have := (ha.1 h).2; omega
    simp [outlives, this]
  · simp [h]

theorem State.writesIn_emptySlot (s : State) {k : Nat} (hk : k < 64) (st : Nat) : s.WritesIn (s.emptySlot k st) (settleMay Pg.fstore) :=
  State.WritesIn.setFld (State.WritesIn.setFld (State.WritesIn.setFld (.refl s _) _ (settleMay_fstore (by show 0x200 + 0x8 * k < _; omega))) _
    (settleMay_fstore (by show 0x200 + 0x8 * k < _; omega))) _ (settleMay_fstore (by show 0x204 + 0x8 * k < _; omega))

theorem writesIn_placeSlot (old : State) (acc : State × Nat) {k : Nat} (hk : k < 64) : acc.1.WritesIn (placeSlot old acc k).1 (settleMay Pg.fstore) := by
  have h1 : ∀ a b, acc.1.WritesIn ((acc.1.setFld Pg.fstore (Reg.FSTORE_SLOT_CFG_BASE k) a).setOn Pg.fstore (Reg.FSTORE_SLOT_CFG_PLACED k) b)
      (settleMay Pg.fstore) := fun a b =>
    State.WritesIn.setOn (State.WritesIn.setFld (.refl _ _) _ (settleMay_fstore (by show 0x100 + 0x4 * k < _; omega))) _
      (settleMay_fstore (by show 0x100 + 0x4 * k < _; omega))
  unfold placeSlot
  dsimp only
  split
  · split
    · exact h1 _ _
    · exact (h1 _ _).trans (State.writesIn_emptySlot _ hk _)
  split
  · exact (h1 _ _).trans (State.writesIn_emptySlot _ hk _)
  · exact ((h1 _ _).trans (State.writesIn_emptySlot _ hk _)).raise (settleMay_fstore (by decide))

theorem State.writesIn_placeSlots (s old : State) : s.WritesIn (s.placeSlots old) (settleMay Pg.fstore) := by
  have h : ∀ (l : List Nat) (acc : State × Nat), (∀ k ∈ l, k < 64) → s.WritesIn acc.1 (settleMay Pg.fstore) →
      s.WritesIn (l.foldl (placeSlot old) acc).1 (settleMay Pg.fstore) := by
    intro l
    induction l with
    | nil => exact fun acc _ h => h
    | cons k l ih => exact fun acc hl h => ih _ (fun j hj => hl j (.tail _ hj)) (h.trans (writesIn_placeSlot old acc (hl k (.head _))))
  exact State.WritesIn.setFld (State.WritesIn.setFld (h _ _ (fun k => List.mem_range.1) (.refl s _)) _ (settleMay_fstore (by decide))) _
    (settleMay_fstore (by decide))

theorem State.writesIn_fstoreClear (s : State) : s.WritesIn s.fstoreClear (settleMay Pg.fstore) := by
  have h : s.WritesIn ((List.range 64).foldl (fun s k => if s.slotState k = 3 then s else s.emptySlot k 0) (s.placeSlots s)) (settleMay Pg.fstore) :=
    .foldl (s.writesIn_placeSlots s) _ fun u k hk => .ite (.refl u _) (u.writesIn_emptySlot (List.mem_range.1 hk) 0)
  exact h.of_regs rfl

/-- Setting a field back undoes a change of that field. -/
theorem Word.setBits_bits (w : Word) (lo n v : Nat) : Word.setBits (Word.setBits w lo n v) lo n (Word.bits w lo n) = w := by
  apply BitVec.eq_of_getLsbD_eq
  intro i hi
  rw [Word.getLsbD_setBits _ _ _ _ _ hi, Word.getLsbD_setBits _ _ _ _ _ hi]
  split
  · next h =>
    rw [Word.testBit_bits]
    have h1 : i - lo < n := by omega
    have h2 : lo + (i - lo) = i := by omega
    simp [h1, h2]
  · rfl

theorem Word.setBits_setBits (w : Word) (lo n v v' : Nat) : Word.setBits (Word.setBits w lo n v) lo n v' = Word.setBits w lo n v' := by
  apply BitVec.eq_of_getLsbD_eq
  intro i hi
  simp only [Word.getLsbD_setBits _ _ _ _ _ hi]
  split <;> rfl

theorem Word.setBits_bits_self (w : Word) (lo n : Nat) : Word.setBits w lo n (Word.bits w lo n) = w := by
  rw [← Word.setBits_setBits w lo n 0]
  exact Word.setBits_bits w lo n 0

theorem State.writesIn_wipeBlock (s : State) {p : Nat} (hp : p < 1024) : s.WritesIn (s.wipeBlock p) (settleMay p) := by
  have hst : ∀ (u : State) (f : Fld) v, u.regs = s.regs → f.off = 0x00C → s.WritesIn (u.setFld p f v) (settleMay p) := fun u f v hu hf =>
    .setFld (.of_regs (.refl s _) hu) v (settleMay_keyOf hp (by omega) (.inl hf))
  unfold State.wipeBlock
  split
  case h_1 h =>
    obtain ⟨rfl, hi⟩ := page_of_pageBlk (base := 0x060) (n := 1) h (by decide)
    have := s.writesIn_fstoreClear
    rwa [Nat.lt_one_iff.1 hi]
  case h_2 k h =>
    obtain ⟨rfl, -⟩ := page_of_pageBlk (base := 0x040) (n := 2) h (by decide)
    exact State.WritesIn.setFld (hst _ _ _ (State.setPort_regs ..) rfl) _ (settleMay_keyOf hp (by decide) (.inl rfl))
  case h_3 h =>
    obtain ⟨rfl, hi⟩ := page_of_pageBlk (base := 0x0C0) (n := 1) h (by decide)
    exact hst _ _ _ rfl rfl
  all_goals exact .refl s _

/-! ### Values that come back -/

/-- The registers that a page's settings coming back may write: its retained words, the active copies above them, and what follows from them. -/
def refillMay (p a : Nat) : Prop :=
  (a / 0x1000 % 1024 = p ∧ 0x040 ≤ a % 0x1000 ∧ (p = Pg.coll ∨ 0x800 ≤ a % 0x1000 ∨ retMask p (a % 0x1000) ≠ 0)) ∨ p = Pg.fstore ∧ settleMay p a

theorem settleMay_of_refillMay {p a : Nat} (h : refillMay p a) : settleMay p a := by
  rcases h with ⟨h1, h2, -⟩ | ⟨-, h⟩
  · exact .inl ⟨h1, .inr (.inr (.inr h2))⟩
  · exact h

theorem refillMay_at {p o : Nat} (hp : p < 1024) (ho : 0x040 ≤ o) (ho' : o < 0x1000) (h : p = Pg.coll ∨ 0x800 ≤ o ∨ retMask p o ≠ 0) :
    refillMay p (p * 0x1000 + o) := by
  have h1 : (p * 0x1000 + o) / 0x1000 % 1024 = p := by omega
  have h2 : (p * 0x1000 + o) % 0x1000 = o := by omega
  exact .inl ⟨h1, by rw [h2]; exact ho, by rw [h2]; exact h⟩

theorem State.writesIn_restoreWord (s : State) {p o : Nat} (m v : Word) (hp : p < 1024) (ho : 0x040 ≤ o) (ho' : o < 0x1000)
    (hm : retMask p o ≠ 0) : s.WritesIn (s.restoreWord p o m v) (refillMay p) := by
  have h1 : refillMay p (p * 0x1000 + o) := refillMay_at hp ho ho' (.inr (.inr hm))
  unfold State.restoreWord
  dsimp only
  split
  · exact State.WritesIn.wr (.wr (.refl s _) _ h1) _
      (by rw [Nat.add_assoc]; exact refillMay_at hp (by omega) (by omega) (.inr (.inl (by omega))))
  · exact .wr (.refl s _) _ h1

/-- A restored entry changes its page and the count of the entries skipped. -/
theorem State.restoreEntry_writes (s : State) {p o : Nat} (n : Nat) (hp : p < 1024) (ho : 0x040 ≤ o) :
    ∃ u, s.WritesIn u (refillMay p) ∧ (s.restoreEntry p o n = u ∨ s.restoreEntry p o n = u.count Pg.rstore Reg.RSTORE_SKIP_COUNT) := by
  unfold State.restoreEntry
  dsimp only
  have hm : (if 1024 ≤ p ∨ 0x1000 ≤ o ∨ o % 4 ≠ 0 then (0 : Word) else retMask p o) ≠ 0 → o < 0x1000 ∧ retMask p o ≠ 0 := fun h => by
    split at h
    · exact absurd rfl h
    · next hc => exact ⟨by omega, h⟩
  generalize (if 1024 ≤ p ∨ 0x1000 ≤ o ∨ o % 4 ≠ 0 then (0 : Word) else retMask p o) = m at hm ⊢
  by_cases h0 : m = 0
  · rw [if_pos h0]
    exact ⟨s, .refl s _, .inr rfl⟩
  rw [if_neg h0]
  obtain ⟨ho', hr⟩ := hm h0
  split
  · exact ⟨_, s.writesIn_restoreWord m 0 hp ho ho' hr, .inr rfl⟩
  · exact ⟨_, s.writesIn_restoreWord m _ hp ho ho' hr, .inl rfl⟩

/-- What the registers hold while a page's settings come back: those of the page apart, the count of the entries skipped has moved alone. -/
def State.skips (s t : State) (p : Nat) : Prop :=
  s.WritesIn t (fun a => refillMay p a ∨ a = keyOf Reg.RSTORE_SKIP_COUNT Pg.rstore)
    ∧ ∃ v, t.rd (keyOf Reg.RSTORE_SKIP_COUNT Pg.rstore) = Word.setBits (s.rd (keyOf Reg.RSTORE_SKIP_COUNT Pg.rstore)) 0 16 v

theorem skipCount_not_refillMay (p : Nat) : ¬ refillMay p (keyOf Reg.RSTORE_SKIP_COUNT Pg.rstore) := by
  rintro (⟨h1, -, h2⟩ | ⟨h1, h2⟩)
  · obtain rfl : p = Pg.rstore := h1.symm.trans (by decide)
    exact absurd h2 (by decide)
  · subst h1
    exact absurd h2 (by unfold settleMay; decide)

theorem State.skips_restorePage {p : Nat} (s : State) (hp : p < 1024) (b : List Byte) (n a : Nat) (t : State) (h : s.skips t p) :
    s.skips (t.restorePage p b n a) p := by
  induction n generalizing t a with
  | zero => exact h
  | succ n ih =>
    refine ih _ _ ?_
    split
    · next hc =>
      obtain ⟨u, hu, heq⟩ := t.restoreEntry_writes (leAt b (a + 4) 4) hp hc.2
      obtain ⟨hw, v, hv⟩ := h
      have hw' : s.WritesIn u (fun a => refillMay p a ∨ a = keyOf Reg.RSTORE_SKIP_COUNT Pg.rstore) := hw.trans (hu.mono fun _ => .inl)
      have hv' := (hu _ (skipCount_not_refillMay p)).trans hv
      rcases heq with heq | heq <;> rw [heq]
      · exact ⟨hw', v, hv'⟩
      · exact ⟨hw'.count (.inr rfl), _, by rw [State.count, State.countBy, State.rd_setFld, if_pos rfl, hv', Word.setBits_setBits]⟩
    · exact h

theorem State.writesIn_follow (s : State) (p : Nat) : s.WritesIn (s.follow p) (refillMay p) := by
  unfold State.follow
  split
  case h_1 h =>
    obtain ⟨rfl, hi⟩ := page_of_pageBlk (base := 0x060) (n := 1) h (by decide)
    obtain rfl := Nat.lt_one_iff.1 hi
    exact (s.writesIn_placeSlots s).mono fun a ha => .inr ⟨rfl, ha⟩
  case h_2 h =>
    obtain ⟨rfl, hi⟩ := page_of_pageBlk (base := 0x0B0) (n := 1) h (by decide)
    obtain rfl := Nat.lt_one_iff.1 hi
    have hmay : ∀ f : Fld, f.off = 0x088 ∨ f.off = 0x08C → refillMay Pg.coll (keyOf f Pg.coll) := fun f hf =>
      refillMay_at (by decide) (by omega) (by omega) (.inl rfl)
    unfold State.showCorr
    exact .ite (State.WritesIn.setFld (State.WritesIn.setFld (.refl s _) _ (hmay _ (.inl rfl))) _ (hmay _ (.inr rfl)))
      (State.WritesIn.setFld (State.WritesIn.setFld (.refl s _) _ (hmay _ (.inl rfl))) _ (hmay _ (.inr rfl)))
  · exact .refl s _

theorem State.refillPage_writes (s : State) {p : Nat} (hp : p < 1024) : s.WritesIn (s.refillPage p) (refillMay p) := by
  have h0 : s.skips s p := ⟨.refl s _, _, (Word.setBits_bits_self _ _ _).symm⟩
  have h : ∀ t : State, s.skips t p → s.WritesIn ((t.setFld Pg.rstore Reg.RSTORE_SKIP_COUNT (s.fld Pg.rstore Reg.RSTORE_SKIP_COUNT)).follow p)
      (refillMay p) := by
    rintro t ⟨hw, v, hv⟩
    refine State.WritesIn.trans ?_ (State.writesIn_follow _ p)
    intro a ha
    rw [State.rd_setFld]
    split
    · next hk => rw [hv, hk]; exact Word.setBits_bits _ _ _ _
    · next hk => exact hw a fun h => h.elim ha hk
  unfold State.refillPage
  cases s.rsm.newest with
  | none => exact h s h0
  | some i => exact h _ (s.skips_restorePage hp _ _ _ s h0)

theorem State.writesIn_refillPage (s : State) {p : Nat} (hp : p < 1024) : s.WritesIn (s.refillPage p) (settleMay p) :=
  (s.refillPage_writes hp).mono fun _ => settleMay_of_refillMay

/-! ### A domain that settles -/

theorem State.writesIn_goDown (s : State) {p : Nat} (hp : p < 1024) (v : Nat) : s.WritesIn (s.goDown p v) (settleMay p) := by
  have h0 : ∀ x, s.WritesIn (s.setPwr x).showHeld (settleMay p) := fun x =>
    State.WritesIn.trans (State.WritesIn.of_regs (t := s) (.refl s _) rfl) ((s.setPwr x).writesIn_showHeld p)
  have h : ∀ x, s.WritesIn ((s.setPwr x).showHeld.setFld p Reg.COMMON_PWR_REQ_STATUS v) (settleMay p) := fun x =>
    (h0 x).setFld v (settleMay_keyOf hp (by decide) (.inr (.inl rfl)))
  unfold State.goDown
  dsimp only
  generalize { s.pwr with held := s.pwr.held.filter fun e => decide (e.1 ≠ p) } = x
  have h := h x
  split
  · exact (h.trans (State.writesIn_wipePage _ p)).trans (State.writesIn_wipeBlock _ hp)
  split
  · exact h.trans (State.writesIn_refillPage _ hp)
  · exact h

theorem State.writesIn_settle (s : State) {p : Nat} (hp : p < 1024) : s.WritesIn (s.settle p) (settleMay p) := by
  have hh : ∀ r, s.WritesIn (s.holdRequest p r) (settleMay p) := fun r =>
    .ite (.refl s _) ((State.WritesIn.of_regs (.refl s _) rfl).trans (State.writesIn_showHeld _ p))
  unfold State.settle
  dsimp only
  split
  · exact .refl s _
  split
  · exact .ite (.refl s _) (.of_regs (.refl s _) rfl)
  split
  · exact hh _
  · exact .ite (.refl s _) (s.writesIn_goDown hp _)

/-- The lanes of a page. -/
def lanesOf (p : Nat) : List Nat := (List.range 46).filter fun k => decide (laneOwner k = some p)

theorem State.writesIn_settleWith (s : State) {p : Nat} (hp : p < 1024) :
    s.WritesIn (s.settleWith p) (fun a => settleMay p a ∨ ∃ k ∈ lanesOf p, settleMay (Pg.lane k) a) := by
  refine State.WritesIn.foldl ((s.writesIn_settle hp).mono fun _ => .inl) _ fun u k hk => ?_
  have hlt : Pg.lane k < 1024 := by
    have := List.mem_range.1 (List.mem_filter.1 hk).1
    simp only [Pg.lane]; omega
  exact (u.writesIn_settle hlt).mono fun a ha => .inr ⟨k, hk, ha⟩

/-! ### A page whose function is enabled -/

/-- A page that must stay on begins to rise at most. -/
theorem State.settle_of_held {s : State} {p : Nat} (h : s.heldOn p = true) : s.Touches (s.settle p) [.pwrRising] := by
  unfold State.settle
  dsimp only
  split
  · exact .refl _ _
  rw [if_pos (.inl h)]
  exact .ite (.refl _ _) (.of_mix rfl rfl)

theorem State.Touches.foldl_of {α : Type} {s : State} {l : List Part} {f : State → α → State} {xs : List α}
    (h : ∀ u, s.Touches u l → ∀ x ∈ xs, s.Touches (f u x) l) : s.Touches (xs.foldl f s) l :=
  List.foldlRecOn xs f (motive := fun u => s.Touches u l) (.refl s _) fun u hu x hx => h u hu x hx

/-- A write of CTRL of a page of its own, outside the packetiser and Prism. -/
theorem writeAt_ctrl {r : Req} {p : Nat} {v : Word} {s : State} (h : p ≠ Pg.pkt2110) (h' : prismPages.contains p = false) :
    writeAt r p 0x008 v s = (writeCtrl r p v s).settleWith p := by
  simp only [writeAt, afterWrite, h, h', Nat.reduceEqDiff, Nat.reduceLeDiff, false_and, and_false, if_false, if_true, Bool.false_eq_true, or_self]

end Sys2Proof.Machine
end

section
/-! PROOFS. Bring-up of a sensor port (R89, R97 to R103, R124). -/

set_option Elab.async false

namespace Sys2Proof.Machine

/-! ### The ports after register operations -/

theorem State.port_setFld (s : State) (p : Nat) (f : Fld) (v k : Nat) : (s.setFld p f v).port k = s.port k := rfl

theorem State.port_setOn (s : State) (p : Nat) (f : Fld) (v : Bool) (k : Nat) : (s.setOn p f v).port k = s.port k := rfl

theorem State.port_emit (s : State) (o : Out) (k : Nat) : (s.emit o).port k = s.port k := rfl

theorem State.port_raise (s : State) (p : Nat) (e : Fld) (k : Nat) : (s.raise p e).port k = s.port k := (s.raise_touches p e).port (k := k)

theorem State.port_showPort (s : State) (j k : Nat) : (s.showPort j).port k = s.port k := rfl

/-- The other port stays. -/
theorem State.port_setPort_other (s : State) {k : Nat} (hk : k < 2) (p : PortSt) : (s.setPort k p).port (1 - k) = s.port (1 - k) :=
  s.port_setPort_ne p (by rw [Ne, eq_iff_iff]; omega)

theorem State.port_dropBc (s : State) (k : Nat) : (s.dropBc k).port k = { s.port k with cur := none, queue := [] } := by
  unfold State.dropBc
  dsimp only
  split
  · rw [((State.endMailbox_touches _ k 2).port (k := k)), State.port_setPort]
  · rw [State.port_setPort]

theorem State.port_dropBc_other (s : State) {k : Nat} (hk : k < 2) : (s.dropBc k).port (1 - k) = s.port (1 - k) := by
  unfold State.dropBc
  dsimp only
  split
  · rw [((State.endMailbox_touches _ k 2).port (k := 1 - k)), s.port_setPort_other hk]
  · rw [s.port_setPort_other hk]

/-! ### The registers of a port's page -/

/-- The registers of a link page beside CTRL and CFG. -/
def besideCtrl (k a : Nat) : Prop := a / 0x1000 = Pg.link k ∧ a % 0x1000 ≠ 0x008 ∧ a % 0x1000 ≠ 0x040

theorem besideCtrl_keyOf {k : Nat} {f : Fld} (h : f.off < 0x1000 ∧ f.off ≠ 0x008 ∧ f.off ≠ 0x040) : besideCtrl k (keyOf f (Pg.link k)) := by
  simp only [besideCtrl, keyOf, Pg.link]
  omega

theorem besideCtrl_onPages {k a : Nat} (hk : k < 2) (h : besideCtrl k a) : onPages [Pg.link k] a := by
  simp only [besideCtrl, onPages, Pg.link, List.mem_singleton] at h ⊢
  omega

theorem State.writesIn_showPort' (s : State) (k : Nat) : s.WritesIn (s.showPort k) (besideCtrl k) :=
  State.WritesIn.setFld (State.WritesIn.setFld (.refl s _) _ (besideCtrl_keyOf (by decide))) _ (besideCtrl_keyOf (by decide))

theorem State.writesIn_dropBc (s : State) (k : Nat) : s.WritesIn (s.dropBc k)
    (· ∈ [keyOf Reg.LINK_BC_CTRL_BUSY (Pg.link k), keyOf Reg.LINK_EVENT_SENSOR_MSG (Pg.link k)]) := by
  have h : ∀ p, s.WritesIn (s.setPort k p) (· ∈ [keyOf Reg.LINK_BC_CTRL_BUSY (Pg.link k), keyOf Reg.LINK_EVENT_SENSOR_MSG (Pg.link k)]) :=
    fun p => .of_regs (.refl s _) (State.setPort_regs ..)
  unfold State.dropBc
  dsimp only
  split
  · exact State.WritesIn.raise (State.WritesIn.setFld (State.WritesIn.setFld (h _) _ (by simp)) _ (by simp [keyOf])) (by simp)
  · exact h _

theorem State.writesIn_dropBc' (s : State) (k : Nat) : s.WritesIn (s.dropBc k) (besideCtrl k) := (s.writesIn_dropBc k).mono fun a ha => by
  simp only [List.mem_cons, List.not_mem_nil, or_false] at ha
  rcases ha with rfl | rfl <;> exact besideCtrl_keyOf (by decide)

theorem State.writesIn_setMap (s : State) (k : Nat) (m : List Nat) : s.WritesIn (s.setMap k m) (besideCtrl k) :=
  State.WritesIn.setFld (State.WritesIn.setFld (.of_regs (.refl s _) (State.setPort_regs ..)) _ (besideCtrl_keyOf (by decide))) _
    (besideCtrl_keyOf (by decide))

theorem State.writesIn_lanemap (s : State) (k : Nat) (m : List Nat) :
    s.WritesIn (s.setMap k m) (· ∈ [keyOf Reg.LINK_LANEMAP0 (Pg.link k), keyOf Reg.LINK_LANEMAP1 (Pg.link k)]) :=
  State.WritesIn.setFld (State.WritesIn.setFld (.of_regs (.refl s _) (State.setPort_regs ..)) _ (by simp)) _ (by simp)

theorem State.port_setMap (s : State) (k : Nat) (m : List Nat) : (s.setMap k m).port k = { s.port k with map := m } := by
  rw [State.setMap, State.port_setFld, State.port_setFld, State.port_setPort]

theorem State.port_setMap_other (s : State) {k : Nat} (hk : k < 2) (m : List Nat) : (s.setMap k m).port (1 - k) = s.port (1 - k) := by
  rw [State.setMap, State.port_setFld, State.port_setFld, s.port_setPort_other hk]

/-- The code of STATE.PORT, and the lanes shown live. -/
theorem State.fld_showPort (s : State) (k : Nat) :
    (s.showPort k).fld (Pg.link k) Reg.LINK_STATE_PORT = s.portCode k % 8
      ∧ ((s.port k).phase ≠ .linked → (s.showPort k).fld (Pg.link k) Reg.LINK_STATE_LANES_LIVE = 0) := by
  unfold State.showPort
  refine ⟨?_, fun h => ?_⟩
  · rw [State.fld_setFld_ne _ _ _ _ _ _ (by decide) (.inr (.inr (by decide))), State.fld_setFld_same _ _ _ _ (by decide)]
    rfl
  · rw [State.fld_setFld_same _ _ _ _ (by decide), if_neg h]
    rfl

/-! ### A bring-up begins -/

theorem State.unlinkPort_writes (s : State) (k : Nat) : s.WritesIn (s.unlinkPort k) (besideCtrl k) :=
  State.WritesIn.trans (State.WritesIn.trans ((s.writesIn_dropBc' k).of_regs (State.setPort_regs ..)) (State.writesIn_setMap _ k []))
    (State.writesIn_showPort' _ k)

/-- What a bring-up keeps of the port's values: those of its messages over, and a new lane set. -/
def PortSt.inTraining (p : PortSt) (u : TrainUndo) : PortSt :=
  { p with cur := none, queue := [], phase := .training, trained := [], map := [], fullMap := [], joined := [], outages := [], bcUp := false
           streaming := false, undo := some u }

/-- A port put into training, with its counters of the last bring-up at 0. -/
def State.trainCleared (s : State) (k : Nat) (u : TrainUndo) : State :=
  (((s.dropBc k).setPort k ((s.port k).inTraining u)).setFld (Pg.link k) Reg.LINK_FALLBACK_DONE 0).setFld (Pg.link k) Reg.LINK_FALLBACK_RETIRED 0
    |>.setFld (Pg.link k) Reg.LINK_SKEW 0

theorem State.startTraining_eq (s : State) (k : Nat) : ∃ u, s.startTraining k = ((s.trainCleared k u).showPort k).emit (.train k) := by
  unfold State.startTraining State.trainCleared PortSt.inTraining
  dsimp only
  rw [s.port_dropBc]
  exact ⟨_, rfl⟩

theorem State.startTraining_effect (s : State) {k : Nat} (hk : k < 2) (hg : ¬ (k = 1 ∧ s.ganged = true)) :
    (∃ u, (s.startTraining k).port k = (s.port k).inTraining u) ∧ (s.startTraining k).port (1 - k) = s.port (1 - k)
      ∧ (s.startTraining k).out = .train k :: s.out ∧ (s.startTraining k).fld (Pg.link k) Reg.LINK_STATE_PORT = 1
      ∧ (s.startTraining k).fld (Pg.link k) Reg.LINK_FALLBACK_DONE = 0 ∧ (s.startTraining k).fld (Pg.link k) Reg.LINK_SKEW = 0
      ∧ s.WritesIn (s.startTraining k) (besideCtrl k) := by
  obtain ⟨u, heq⟩ := s.startTraining_eq k
  rw [heq]
  have hport : (s.trainCleared k u).port k = (s.port k).inTraining u := by
    simp only [State.trainCleared, State.port_setFld, State.port_setPort]
  have hw : s.WritesIn (s.trainCleared k u) (besideCtrl k) :=
    .setFld (State.WritesIn.setFld (State.WritesIn.setFld ((s.writesIn_dropBc' k).of_regs (State.setPort_regs ..)) _
      (besideCtrl_keyOf (by decide))) _ (besideCtrl_keyOf (by decide))) _ (besideCtrl_keyOf (by decide))
  have hdrop := (s.dropBc_touches k).same .out (by decide)
  have hg' : (s.trainCleared k u).ganged = s.ganged := by
    refine congrArg (fun n => decide (n = 1)) (hw.fld ?_)
    simp only [besideCtrl, keyOf, Pg.link]; omega
  have hcode : (s.trainCleared k u).portCode k = 1 := by
    unfold State.portCode
    rw [hport, hg', if_neg hg]
    rfl
  have hshow : ∀ f : Fld, f.off < 0x1000 → f.off ≠ 0x00C →
      (((s.trainCleared k u).showPort k).emit (.train k)).fld (Pg.link k) f = (s.trainCleared k u).fld (Pg.link k) f := fun f hf hne => by
    rw [State.fld_emit]
    refine (State.writesIn_showPort _ k).fld ?_
    simp only [keyOf, List.mem_cons, List.not_mem_nil, or_false]; omega
  refine ⟨⟨u, by rw [State.port_emit, State.port_showPort, hport]⟩, ?_, ?_, ?_, ?_, ?_, ?_⟩
  · rw [State.port_emit, State.port_showPort, State.trainCleared, State.port_setFld, State.port_setFld, State.port_setFld,
      State.port_setPort_other _ hk, s.port_dropBc_other hk]
  · have h1 : (s.trainCleared k u).out = s.out := by
      unfold State.trainCleared
      rw [State.setFld_out, State.setFld_out, State.setFld_out, State.setPort_out, hdrop]
    have h2 : ((s.trainCleared k u).showPort k).out = s.out := (State.showPort_touches _ k).same .out (by decide) |>.trans h1
    rw [State.emit_out, h2]
  · rw [State.fld_emit, (State.fld_showPort _ k).1, hcode]
  · rw [hshow _ (by decide) (by decide), State.trainCleared,
      State.fld_setFld_ne _ _ _ _ _ _ (by decide) (.inl (keyOf_ne_of_off (by decide) (by decide) (by decide))),
      State.fld_setFld_ne _ _ _ _ _ _ (by decide) (.inr (.inr (by decide))), State.fld_setFld_same _ _ _ _ (by decide)]
    rfl
  · rw [hshow _ (by decide) (by decide), State.trainCleared, State.fld_setFld_same _ _ _ _ (by decide)]
    rfl
  · exact State.WritesIn.of_regs (hw.trans (State.writesIn_showPort' _ k)) rfl

/-! ### The write of CTRL -/

/-- CTRL is stored without TRAIN, which reads 0. -/
theorem wfld_noTrain (w : Word) {f : Fld} (h : f.lo + f.width ≤ 5 ∨ f = Reg.LINK_CTRL_TRAIN) :
    wfld (w &&& 0xFFFFFFDF) f = if f = Reg.LINK_CTRL_TRAIN then 0 else wfld w f := by
  have hw : w &&& 0xFFFFFFDF = Word.setBits w 5 1 0 := by
    have h1 : ~~~Word.mask 5 1 = 0xFFFFFFDF := by decide
    have h2 : BitVec.ofNat 32 (0 % 2 ^ 1 * 2 ^ 5) &&& Word.mask 5 1 = 0 := by decide
    rw [Word.setBits, h1, h2]
    exact (BitVec.or_zero (x := w &&& 0xFFFFFFDF)).symm
  rw [hw]
  by_cases hf : f = Reg.LINK_CTRL_TRAIN
  · subst hf
    rw [if_pos rfl, wfld, Word.bits_setBits _ _ _ _ (by decide)]
    rfl
  · have h5 := h.resolve_right hf
    rw [if_neg hf, wfld, Word.bits_setBits_of_disjoint _ _ _ _ _ _ (by omega) (.inr (by omega)), wfld]

theorem pageBlk_link {k : Nat} (hk : k < 2) : pageBlk (Pg.link k) = some (.link, k) := by
  interval_cases k <;> rfl

/-- CTRL stored, without TRAIN. -/
def State.linkStored (s : State) (k : Nat) (w : Word) : State := s.wr (Pg.link k * 0x1000 + 0x008) (w &&& 0xFFFFFFDF)

/-- What a write of CTRL with TRAIN makes of the port. -/
def State.linkTrained (s : State) (k : Nat) (w : Word) : State :=
  if (s.linkStored k w).ganged = s.ganged then s.linkStored k w else (s.linkStored k w).gangChanged

theorem writeLinkCtrl_of_train {s : State} {r : Req} {k : Nat} {v w : Word} (ha : s.accepts r (Pg.link k) 0x008 v = true)
    (ht : wmSet v Reg.LINK_CTRL_TRAIN = true) (hg : ¬ (k = 1 ∧ s.ganged = true)) (hw : w = s.written r (Pg.link k) 0x008 v) :
    writeLinkCtrl r k v s = if (s.linkStored k w).mayTrain k then (s.linkTrained k w).startTraining k else s.reject (Pg.link k) := by
  rw [writeLinkCtrl, withWrite_of_accepts _ ha, ← hw]
  dsimp only
  rw [if_neg hg, ht]
  unfold State.linkTrained State.linkStored
  cases (s.wr (Pg.link k * 0x1000 + 0x008) (w &&& 0xFFFFFFDF)).mayTrain k <;> simp

theorem State.fld_linkStored (s : State) {k : Nat} (w : Word) :
    (∀ f : Fld, f.off = 0x008 → f.lo + f.width ≤ 5 → (s.linkStored k w).fld (Pg.link k) f = wfld w f)
      ∧ (s.linkStored k w).fld (Pg.link k) Reg.LINK_CTRL_TRAIN = 0
      ∧ ∀ p f, keyOf f p ≠ Pg.link k * 0x1000 + 0x008 → (s.linkStored k w).fld p f = s.fld p f := by
  refine ⟨fun f hf h => ?_, ?_, fun p f h => State.fld_wr_ne _ _ h⟩
  · rw [State.linkStored, State.fld_wr_same _ _ (by rw [keyOf, hf]), wfld_noTrain w (.inl h), if_neg (by rintro rfl; exact absurd h (by decide))]
  · rw [State.linkStored, State.fld_wr_same (p := Pg.link k) (a := Pg.link k * 0x1000 + 0x008) _ _ rfl, wfld_noTrain w (.inr rfl), if_pos rfl]

/-- Whether the port may train, read from the write and the state before. -/
theorem State.mayTrain_linkStored {s : State} {k : Nat} (w : Word) (hk : k < 2) (hg : ¬ (k = 1 ∧ s.ganged = true)) :
    (s.linkStored k w).mayTrain k = (!s.ctl.capRun && decide (wfld w Reg.LINK_CTRL_ENABLE = 1) && decide (0 < s.fld (Pg.link k) Reg.LINK_CFG_LANES)
      && decide (s.fld (Pg.link k) Reg.LINK_CFG_LANES ≤ if k = 0 ∧ wfld w Reg.LINK_CTRL_GANG = 1 then 16 else 8)) := by
  obtain ⟨hctrl, -, hne⟩ := s.fld_linkStored (k := k) w
  have hen : (s.linkStored k w).on (Pg.link k) Reg.LINK_CTRL_ENABLE = decide (wfld w Reg.LINK_CTRL_ENABLE = 1) := by
    rw [State.on, hctrl _ rfl (by decide)]
  have hl : (s.linkStored k w).fld (Pg.link k) Reg.LINK_CFG_LANES = s.fld (Pg.link k) Reg.LINK_CFG_LANES :=
    hne _ _ (by simp only [keyOf]; omega)
  have hgang : (s.linkStored k w).ganged = (if k = 0 then decide (wfld w Reg.LINK_CTRL_GANG = 1) else false) := by
    rw [State.ganged, State.on]
    split
    · next h => subst h; rw [hctrl _ rfl (by decide)]
    · next h =>
      rw [hne _ _ (by simp only [keyOf, Pg.link]; omega), ← State.on, ← State.ganged]
      exact Bool.eq_false_iff.2 fun h' => hg ⟨by omega, h'⟩
  unfold State.mayTrain
  rw [hen, hl, hgang]
  by_cases h : k = 0
  · subst h; simp [State.linkStored]
  · obtain rfl : k = 1 := by omega
    simp [State.linkStored]

/-- A write that trains the port, before its domain follows. -/
theorem State.linkTrained_writes (s : State) (k : Nat) (w : Word) :
    (s.linkStored k w).WritesIn (s.linkTrained k w) (fun a => besideCtrl 0 a ∨ besideCtrl 1 a)
      ∧ (s.linkStored k w).Touches (s.linkTrained k w) [.regs, .ctlLatches, .portA, .portB] := by
  unfold State.linkTrained
  split
  · exact ⟨.refl _ _, .refl _ _⟩
  · refine ⟨State.WritesIn.trans ((State.unlinkPort_writes _ 0).mono fun _ => .inl) ((State.unlinkPort_writes _ 1).mono fun _ => .inr), ?_⟩
    exact State.gangChanged_touches _

/-- The lanes and the page of a port whose function is enabled stay on. -/
theorem State.settleWith_of_enabled {s : State} {k : Nat} (hk : k < 2) (he : s.fld (Pg.link k) Reg.LINK_CTRL_ENABLE = 1) :
    s.Touches (s.settleWith (Pg.link k)) [.pwrRising] := by
  have hon : ∀ u : State, s.Touches u [.pwrRising] → u.on (Pg.link k) Reg.COMMON_CTRL_ENABLE = true := fun u hu => by
    rw [State.on_congr (hu.same .regs (by decide))]
    exact (State.on_eq_true ..).2 he
  have hlink : s.heldOn (Pg.link k) = true := by
    unfold State.heldOn State.powerRuns
    rw [pageBlk_link hk, hon s (.refl _ _)]
    simp
  refine State.Touches.trans (State.settle_of_held hlink) ?_
  have h : ∀ u, s.Touches u [.pwrRising] → u.Touches ((lanesOf (Pg.link k)).foldl (fun s k => s.settle (Pg.lane k)) u) [.pwrRising] := fun u hu => by
    refine State.Touches.foldl_of fun y hy j hj => hy.trans (State.settle_of_held ?_)
    have hj' := List.mem_filter.1 hj
    have hlt : j < 46 := List.mem_range.1 hj'.1
    have howner : laneOwner j = some (Pg.link k) := of_decide_eq_true hj'.2
    have hpage : ∀ j < 46, pageBlk (Pg.lane j) = some (.lane, j) := by decide
    unfold State.heldOn State.powerRuns
    rw [hpage j hlt]
    simp only [howner, hon y (hu.trans hy), Bool.or_true, Bool.true_or]
  exact h _ (State.settle_of_held hlink)

/-- An event raised by a write of CTRL is there after the domains have followed. -/
theorem State.fld_settleWith_event (s : State) {k : Nat} (hk : k < 2) (f : Fld) (hf : f.off = 0x010) :
    (s.settleWith (Pg.link k)).fld (Pg.link k) f = s.fld (Pg.link k) f := by
  refine (s.writesIn_settleWith (p := Pg.link k) (by simp only [Pg.link]; omega)).fld ?_
  have hno : ∀ p, p ≠ Pg.fstore → ¬ settleMay p (keyOf f (Pg.link k)) := fun p hp => by
    have hpwr : Pg.pwr = 0x004 := rfl
    simp only [settleMay, hp, hf, keyOf, Pg.link, false_or, not_or, not_and]
    omega
  rintro (h | ⟨j, hj, h⟩)
  · exact hno _ (by simp only [Pg.link, Pg.fstore]; omega) h
  · have := List.mem_range.1 (List.mem_filter.1 hj).1
    exact hno _ (by simp only [Pg.lane, Pg.fstore]; omega) h

/-! ### A lane trains -/

/-- The lane's page after the first TRAIN block of a bring-up: RX_STATUS shows the block, and its polarity is set. -/
def State.trainShown (s : State) (b : TrainBlk) : State :=
  ((((s.setFld (Pg.lane b.lane) Reg.LANE_RX_STATUS_TRAIN_SEEN 1).setOn (Pg.lane b.lane) Reg.LANE_RX_STATUS_INVERTED_SEEN b.inverted).setFld
    (Pg.lane b.lane) Reg.LANE_RX_STATUS_LANE_ID b.laneId).setFld (Pg.lane b.lane) Reg.LANE_RX_STATUS_PORT_ID b.port).setOn (Pg.lane b.lane)
      Reg.LANE_RX_CFG_POL_INVERT b.inverted

/-- The port with the lane in its set, and the map as it is so far. -/
def State.trainNoted (s : State) (b : TrainBlk) (k : Nat) (ts : List TrainBlk) (n : Nat) : State :=
  ((s.trainShown b).setPort k { s.port k with trained := ts }).setMap k (mapOf ts n)

theorem State.rxTrain_of_first {s : State} {b : TrainBlk} (hb : b.lane < 16) (hl : s.laneLocked b.lane = true)
    (hp : (s.port (s.portOf b.lane)).phase = .training) (hf : ∀ t ∈ (s.port (s.portOf b.lane)).trained, t.lane ≠ b.lane) :
    s.rxTrain b =
      let k := s.portOf b.lane
      let ts := (s.port k).trained ++ [b]
      let n := s.fld (Pg.link k) Reg.LINK_CFG_LANES
      if laneSetBad ts n k then (s.trainNoted b k ts n).trainEnds k Reg.LINK_EVENT_LANEMAP_ERR else (s.trainNoted b k ts n).trainStep5 k := by
  have hany : ((s.port (s.portOf b.lane)).trained.any fun t => decide (t.lane = b.lane)) = false := by
    simpa [List.any_eq_false] using hf
  unfold State.rxTrain
  dsimp only
  rw [if_neg (by simp [hl]; omega), if_neg (by simp [hp])]
  simp only [hany, Bool.not_false, if_true]
  rfl

/-- The keys of the lane's page that a TRAIN block writes. -/
def trainLaneKeys (l : Nat) : List Nat := [keyOf Reg.LANE_RX_STATUS_TRAIN_SEEN (Pg.lane l), keyOf Reg.LANE_RX_CFG_POL_INVERT (Pg.lane l)]

theorem State.writesIn_trainShown (s : State) (b : TrainBlk) : s.WritesIn (s.trainShown b) (· ∈ trainLaneKeys b.lane) :=
  .setOn (State.WritesIn.setFld (State.WritesIn.setFld (State.WritesIn.setOn (State.WritesIn.setFld (.refl s _) _ (by simp [trainLaneKeys])) _
    (by simp [trainLaneKeys, keyOf])) _ (by simp [trainLaneKeys, keyOf])) _ (by simp [trainLaneKeys, keyOf])) _ (by simp [trainLaneKeys])

theorem State.trainShown_touches (s : State) (b : TrainBlk) : s.Touches (s.trainShown b) [.regs] :=
  .step (.step (.step (.step (State.setFld_touches ..) (State.setOn_touches ..) rfl) (State.setFld_touches ..) rfl) (State.setFld_touches ..) rfl)
    (State.setOn_touches ..) rfl

/-- Bits of a lane's status that no TRAIN block sets. -/
theorem State.fld_trainShown_low (s : State) (b : TrainBlk) (p : Nat) {f : Fld} (ho : f.off = 0x044) (hf : f.lo + f.width ≤ 3) :
    (s.trainShown b).fld p f = s.fld p f := by
  have h3 : ∀ g : Fld, 3 ≤ g.lo → ∀ (u : State) q v, (u.setFld q g v).fld p f = u.fld p f := fun g hg u q v =>
    State.fld_setFld_ne _ _ _ _ _ _ (by omega) (.inr (.inr (by omega)))
  unfold State.trainShown State.setOn
  rw [State.fld_setFld_ne _ _ _ _ _ _ (by omega) (.inl (by simp only [keyOf, ho]; omega)), h3 _ (by decide), h3 _ (by decide), h3 _ (by decide),
    h3 _ (by decide)]

theorem State.laneLocked_trainShown (s : State) (b : TrainBlk) (l : Nat) : (s.trainShown b).laneLocked l = s.laneLocked l := by
  have h : ∀ f : Fld, f.off = 0x044 → f.lo + f.width ≤ 3 → (s.trainShown b).on (Pg.lane l) f = s.on (Pg.lane l) f := fun f ho hf => by
    rw [State.on, s.fld_trainShown_low b _ ho hf, State.on]
  rw [State.laneLocked, h _ rfl (by decide), h _ rfl (by decide), h _ rfl (by decide), State.laneLocked]

/-- What the lane's page shows of its first TRAIN block. -/
theorem State.fld_trainShown (s : State) (b : TrainBlk) :
    (s.trainShown b).fld (Pg.lane b.lane) Reg.LANE_RX_STATUS_TRAIN_SEEN = 1
      ∧ (s.trainShown b).fld (Pg.lane b.lane) Reg.LANE_RX_CFG_POL_INVERT = (if b.inverted then 1 else 0)
      ∧ (s.trainShown b).fld (Pg.lane b.lane) Reg.LANE_RX_STATUS_LANE_ID = b.laneId % 16 := by
  have hcfg : ∀ (u : State) f v, f.off < 0x1000 → f.off ≠ 0x040 →
      (u.setOn (Pg.lane b.lane) Reg.LANE_RX_CFG_POL_INVERT v).fld (Pg.lane b.lane) f = u.fld (Pg.lane b.lane) f := fun u f v hf hne =>
    (State.WritesIn.setOn (.refl u (· = keyOf Reg.LANE_RX_CFG_POL_INVERT (Pg.lane b.lane))) v rfl).fld (keyOf_ne_of_off hf (by decide) hne)
  unfold State.trainShown
  refine ⟨?_, ?_, ?_⟩
  · rw [hcfg _ _ _ (by decide) (by decide), State.fld_setFld_ne _ _ _ _ _ _ (by decide) (.inr (.inr (by decide))),
      State.fld_setFld_ne _ _ _ _ _ _ (by decide) (.inr (.inr (by decide))), State.setOn,
      State.fld_setFld_ne _ _ _ _ _ _ (by decide) (.inr (.inr (by decide))), State.fld_setFld_same _ _ _ _ (by decide)]
    rfl
  · rw [State.setOn, State.fld_setFld_same _ _ _ _ (by decide)]
    cases b.inverted <;> rfl
  · rw [hcfg _ _ _ (by decide) (by decide), State.fld_setFld_ne _ _ _ _ _ _ (by decide) (.inr (.inr (by decide))),
      State.fld_setFld_same _ _ _ _ (by decide)]
    rfl

theorem State.trainNoted_touches (s : State) (b : TrainBlk) (k : Nat) (ts : List TrainBlk) (n : Nat) :
    s.Touches (s.trainNoted b k ts n) [.regs, .portA, .portB] :=
  .step (.step ((s.trainShown_touches b).mono rfl) (State.setPort_touches ..) rfl) (State.setMap_touches ..) rfl

theorem State.writesIn_trainNoted (s : State) (b : TrainBlk) (k : Nat) (ts : List TrainBlk) (n : Nat) :
    s.WritesIn (s.trainNoted b k ts n) (fun a => a ∈ trainLaneKeys b.lane ∨ besideCtrl k a) := by
  have h : s.WritesIn ((s.trainShown b).setPort k { s.port k with trained := ts }) (fun a => a ∈ trainLaneKeys b.lane ∨ besideCtrl k a) :=
    State.WritesIn.of_regs ((s.writesIn_trainShown b).mono fun _ => .inl) (State.setPort_regs ..)
  exact h.trans ((State.writesIn_setMap _ k _).mono fun _ => .inr)

theorem State.port_trainNoted (s : State) (b : TrainBlk) {k : Nat} (hk : k < 2) (ts : List TrainBlk) (n : Nat) :
    (s.trainNoted b k ts n).port k = { s.port k with trained := ts, map := mapOf ts n } ∧ (s.trainNoted b k ts n).port (1 - k) = s.port (1 - k) := by
  constructor
  · rw [State.trainNoted, State.port_setMap, State.port_setPort]
  · rw [State.trainNoted, State.port_setMap_other _ hk, State.port_setPort_other _ hk, (s.trainShown_touches b).port]

/-- The locks of the lanes, after a TRAIN block is noted. -/
theorem State.laneLocked_trainNoted (s : State) (b : TrainBlk) (k : Nat) (ts : List TrainBlk) (n : Nat) (l : Nat) :
    (s.trainNoted b k ts n).laneLocked l = s.laneLocked l := by
  have hport : ∀ p, (s.trainShown b).WritesIn ((s.trainShown b).setPort k p) (fun _ => False) := fun p => .of_regs (.refl _ _) (State.setPort_regs ..)
  rw [State.trainNoted, State.laneLocked_of_writes (State.writesIn_lanemap _ _ _) (by simp only [keyOf, Pg.lane, Pg.link]; simp; omega),
    State.laneLocked_of_writes (hport _) id, s.laneLocked_trainShown b]

/-! ### How a bring-up goes on or ends -/

theorem State.trainEnds_effect (s : State) {k : Nat} (hk : k < 2) {e : Fld} (he : e.off = 0x010) (hlo : e.lo + e.width ≤ 32) (hw : e.width = 1) :
    (s.trainEnds k e).port k = { s.port k with phase := .down, trained := [], joined := [], bcUp := false, undo := none }
      ∧ (s.trainEnds k e).port (1 - k) = s.port (1 - k) ∧ (s.trainEnds k e).fld (Pg.link k) e = 1
      ∧ s.WritesIn (s.trainEnds k e) (besideCtrl k) := by
  unfold State.trainEnds
  refine ⟨?_, ?_, State.fld_raise_same _ _ _ hlo hw, ?_⟩
  · rw [State.port_raise, State.port_showPort, State.port_setPort]
  · rw [State.port_raise, State.port_showPort, s.port_setPort_other hk]
  · exact State.WritesIn.raise (State.WritesIn.trans (.of_regs (.refl s _) (State.setPort_regs ..)) (State.writesIn_showPort' _ k))
      (besideCtrl_keyOf (by omega))

theorem State.port_postBc (s : State) {k : Nat} (hk : k < 2) (op arg : Nat) (data : List (Nat × Nat)) (use : BcUse) :
    (s.postBc k op arg data use).port k = { s.port k with seq := ((s.postBc k op arg data use).port k).seq
                                                          cur := ((s.postBc k op arg data use).port k).cur
                                                          queue := ((s.postBc k op arg data use).port k).queue }
      ∧ (s.postBc k op arg data use).port (1 - k) = s.port (1 - k) := by
  unfold State.postBc
  dsimp only
  split
  · unfold State.sendBc
    rw [State.port_emit, State.port_emit, State.port_setPort, State.port_setPort, State.port_setPort_other _ hk, State.port_setPort_other _ hk]
    exact ⟨rfl, rfl⟩
  · rw [State.port_setPort, State.port_setPort, State.port_setPort_other _ hk, State.port_setPort_other _ hk]
    exact ⟨rfl, rfl⟩

/-- EQSET leaves the phase and the lanes of its port. -/
theorem State.port_sendEqset (s : State) {k : Nat} (hk : k < 2) :
    ((s.sendEqset k).port k).phase = (s.port k).phase ∧ ((s.sendEqset k).port k).map = (s.port k).map
      ∧ (s.sendEqset k).port (1 - k) = s.port (1 - k) := by
  unfold State.sendEqset
  dsimp only
  generalize min 6 _ + 16 * min 10 _ = x
  obtain ⟨h1, h2⟩ := s.port_postBc hk 6 0 [(x, 0)] .eqset
  rw [State.port_setPort, State.port_setPort_other _ hk, h2]
  exact ⟨by rw [h1], by rw [h1], rfl⟩

/-- The skew of a lane set. -/
def skewOf (ts : List TrainBlk) : Nat := (ts.map (·.skew)).foldl max 0

/-- A port whose lanes are deskewed. -/
def State.deskewed (s : State) (k : Nat) (ts : List TrainBlk) (n : Nat) : State :=
  let s4 := s.setFld (Pg.link k) Reg.LINK_SKEW (min 63 (skewOf ts))
  s4.setPort k { s4.port k with fullMap := mapOf ts n }

theorem State.trainStep5_of_wait {s : State} {k : Nat} (h : (s.port k).trained.length < s.fld (Pg.link k) Reg.LINK_CFG_LANES
    ∨ (s.port k).trained.all (fun t => s.laneLocked t.lane) = false) : s.trainStep5 k = s := if_pos h

theorem State.trainStep5_of_complete {s : State} {k : Nat} {ts : List TrainBlk} {n : Nat} (hts : (s.port k).trained = ts)
    (hn : s.fld (Pg.link k) Reg.LINK_CFG_LANES = n) (h : ¬ (ts.length < n ∨ ts.all (fun t => s.laneLocked t.lane) = false)) :
    s.trainStep5 k =
      if 32 < skewOf ts then (s.setFld (Pg.link k) Reg.LINK_SKEW (min 63 (skewOf ts))).trainEnds k Reg.LINK_EVENT_SKEW_ERR
      else if s.on (Pg.link k) Reg.LINK_CTRL_EQ_MODE then
        if ts.all (fun b => b.preemph) then
          ((s.deskewed k ts n).setPort k { (s.deskewed k ts n).port k with phase := .eqset }).sendEqset k
        else (s.deskewed k ts n).trainEnds k Reg.LINK_EVENT_TRAIN_FAIL
      else (s.deskewed k ts n).setPort k { (s.deskewed k ts n).port k with phase := .adapting } := by
  subst hts hn
  exact if_neg h

theorem State.port_deskewed (s : State) {k : Nat} (hk : k < 2) (ts : List TrainBlk) (n : Nat) :
    (s.deskewed k ts n).port k = { s.port k with fullMap := mapOf ts n } ∧ (s.deskewed k ts n).port (1 - k) = s.port (1 - k) := by
  constructor
  · rw [State.deskewed, State.port_setPort, State.port_setFld]
  · rw [State.deskewed, State.port_setPort_other _ hk, State.port_setFld]

theorem State.writesIn_deskewed (s : State) (k : Nat) (ts : List TrainBlk) (n : Nat) :
    s.WritesIn (s.deskewed k ts n) (· = keyOf Reg.LINK_SKEW (Pg.link k)) := .of_regs (.setFld (.refl s _) _ rfl) (State.setPort_regs ..)

theorem State.fld_deskewed (s : State) (k : Nat) (ts : List TrainBlk) (n : Nat) :
    (s.deskewed k ts n).fld (Pg.link k) Reg.LINK_SKEW = min 63 (skewOf ts) := by
  rw [State.deskewed, State.fld_congr (State.setPort_regs ..), State.fld_setFld_of_width _ _ _ _ (by decide) (by show _ < 64; omega)]

theorem besideCtrl_skew {k a : Nat} (h : a = keyOf Reg.LINK_SKEW (Pg.link k)) : besideCtrl k a := h ▸ besideCtrl_keyOf (by decide)

/-- However the deskew ends, it leaves the map, the other port and the other pages. -/
theorem State.trainStep5_keeps (s : State) {k : Nat} (hk : k < 2) :
    ((s.trainStep5 k).port k).map = (s.port k).map ∧ (s.trainStep5 k).port (1 - k) = s.port (1 - k)
      ∧ s.WritesIn (s.trainStep5 k) (besideCtrl k) := by
  by_cases h : (s.port k).trained.length < s.fld (Pg.link k) Reg.LINK_CFG_LANES ∨ (s.port k).trained.all (fun t => s.laneLocked t.lane) = false
  · rw [State.trainStep5_of_wait h]
    exact ⟨rfl, rfl, .refl s _⟩
  rw [State.trainStep5_of_complete rfl rfl h]
  generalize (s.port k).trained = ts, s.fld (Pg.link k) Reg.LINK_CFG_LANES = n
  obtain ⟨hp, ho⟩ := s.port_deskewed hk ts n
  have hw := (s.writesIn_deskewed k ts n).mono fun a => besideCtrl_skew
  split
  · obtain ⟨h1, h2, -, h4⟩ := (s.setFld (Pg.link k) Reg.LINK_SKEW (min 63 (skewOf ts))).trainEnds_effect hk (e := Reg.LINK_EVENT_SKEW_ERR) rfl
      (by decide) rfl
    exact ⟨by rw [h1]; rfl, h2, State.WritesIn.trans (.setFld (.refl s _) _ (besideCtrl_keyOf (by decide))) h4⟩
  split
  · split
    · obtain ⟨-, h2, h3⟩ := ((s.deskewed k ts n).setPort k { (s.deskewed k ts n).port k with phase := .eqset }).port_sendEqset hk
      refine ⟨by rw [h2, State.port_setPort, hp], by rw [h3, State.port_setPort_other _ hk, ho], ?_⟩
      exact State.WritesIn.of_regs hw (((State.sendEqset_touches _ k).same .regs (by decide)).trans (State.setPort_regs ..))
    · obtain ⟨h1, h2, -, h4⟩ := (s.deskewed k ts n).trainEnds_effect hk (e := Reg.LINK_EVENT_TRAIN_FAIL) rfl (by decide) rfl
      exact ⟨by rw [h1, hp], by rw [h2, ho], hw.trans h4⟩
  · exact ⟨by rw [State.port_setPort, hp], by rw [State.port_setPort_other _ hk, ho], hw.of_regs (State.setPort_regs ..)⟩

/-- A deskewed set within its bound: the port adapts, sends EQSET, or cannot. -/
theorem State.trainStep5_within {s : State} {k : Nat} {ts : List TrainBlk} (hk : k < 2) (hts : (s.port k).trained = ts)
    (hlen : s.fld (Pg.link k) Reg.LINK_CFG_LANES ≤ ts.length) (hlock : ts.all (fun t => s.laneLocked t.lane) = true) (hskew : skewOf ts ≤ 32) :
    (s.trainStep5 k).fld (Pg.link k) Reg.LINK_SKEW = skewOf ts
      ∧ (s.on (Pg.link k) Reg.LINK_CTRL_EQ_MODE = false → ((s.trainStep5 k).port k).phase = .adapting ∧ (s.trainStep5 k).out = s.out)
      ∧ (s.on (Pg.link k) Reg.LINK_CTRL_EQ_MODE = true → (∀ x ∈ ts, x.preemph = true) → ((s.trainStep5 k).port k).phase = .eqset)
      ∧ (s.on (Pg.link k) Reg.LINK_CTRL_EQ_MODE = true → (∃ x ∈ ts, x.preemph = false) →
          ((s.trainStep5 k).port k).phase = .down ∧ (s.trainStep5 k).fld (Pg.link k) Reg.LINK_EVENT_TRAIN_FAIL = 1) := by
  have hnot : ¬ (ts.length < s.fld (Pg.link k) Reg.LINK_CFG_LANES ∨ ts.all (fun t => s.laneLocked t.lane) = false) := by
    rw [hlock]; simp only [Bool.true_eq_false, or_false]; omega
  rw [State.trainStep5_of_complete hts rfl hnot, if_neg (by omega)]
  have hsk := (s.fld_deskewed k ts (s.fld (Pg.link k) Reg.LINK_CFG_LANES)).trans (by omega : min 63 (skewOf ts) = skewOf ts)
  have hout : (s.deskewed k ts (s.fld (Pg.link k) Reg.LINK_CFG_LANES)).out = s.out := State.setPort_out ..
  generalize s.deskewed k ts (s.fld (Pg.link k) Reg.LINK_CFG_LANES) = u at *
  refine ⟨?_, fun h => ?_, fun h hall => ?_, fun h hex => ?_⟩
  · split
    · split
      · rw [State.fld_congr ((State.sendEqset_touches _ k).same .regs (by decide)), State.fld_congr (State.setPort_regs ..), hsk]
      · have hw : (u.setPort k { u.port k with phase := .down, trained := [], joined := [], bcUp := false, undo := none }).WritesIn
            (u.trainEnds k Reg.LINK_EVENT_TRAIN_FAIL) (fun a => a ∈ [keyOf Reg.LINK_STATE_PORT (Pg.link k), keyOf Reg.LINK_STATE_LANES_LIVE (Pg.link k)]
              ∨ a = keyOf Reg.LINK_EVENT_TRAIN_FAIL (Pg.link k)) :=
          State.WritesIn.raise ((State.writesIn_showPort _ k).mono fun _ => .inl) (.inr rfl)
        rw [hw.fld (by simp only [keyOf, List.mem_cons, List.not_mem_nil, or_false, Pg.link]; omega), State.fld_congr (State.setPort_regs ..), hsk]
    · rw [State.fld_congr (State.setPort_regs ..), hsk]
  · rw [h, if_neg Bool.false_ne_true, State.port_setPort, State.setPort_out]
    exact ⟨rfl, hout⟩
  · rw [h, if_pos rfl, if_pos (List.all_eq_true.2 hall), (State.port_sendEqset _ hk).1, State.port_setPort]
  · obtain ⟨x, hx, hx'⟩ := hex
    have hno : ts.all (fun b => b.preemph) = false := List.all_eq_false.2 ⟨x, hx, by simp [hx']⟩
    rw [h, if_pos rfl, hno, if_neg Bool.false_ne_true]
    obtain ⟨h1, -, h3, -⟩ := u.trainEnds_effect hk (e := Reg.LINK_EVENT_TRAIN_FAIL) rfl (by decide) rfl
    exact ⟨by rw [h1], h3⟩

/-! ### The end of the adaptation -/

theorem State.port_adaptLane_other (s : State) {l k : Nat} (hk : k < 2) (h : s.portOf l = k) : (s.adaptLane l).port (1 - k) = s.port (1 - k) := by
  subst h
  unfold State.adaptLane
  split
  · exact State.port_setPort_other _ hk _
  · rfl

/-- The adaptation of the lanes of a port changes its taps alone. -/
theorem State.adaptLanes_effect (s : State) {k : Nat} (hk : k < 2) (ls : List Nat) (h : ∀ l ∈ ls, s.portOf l = k) :
    s.Touches (ls.foldl State.adaptLane s) [.seed, .portA, .portB]
      ∧ (ls.foldl State.adaptLane s).port k = { s.port k with taps := ((ls.foldl State.adaptLane s).port k).taps }
      ∧ (ls.foldl State.adaptLane s).port (1 - k) = s.port (1 - k) := by
  refine List.foldlRecOn ls State.adaptLane (motive := fun u => s.Touches u [.seed, .portA, .portB]
    ∧ u.port k = { s.port k with taps := (u.port k).taps } ∧ u.port (1 - k) = s.port (1 - k)) ⟨.refl s _, rfl, rfl⟩ fun u hu l hl => ?_
  obtain ⟨ht, hp, ho⟩ := hu
  have hof : u.portOf l = k := by
    rw [State.portOf, State.ganged, State.on_congr (ht.same .regs (by decide)), ← State.ganged, ← State.portOf, h l hl]
  refine ⟨ht.trans (u.adaptLane_touches l), ?_, (u.port_adaptLane_other hk hof).trans ho⟩
  have := u.port_adaptLane l k
  rw [hp] at this
  exact this

/-- The port with the capabilities that all its TRAIN blocks report. -/
def State.capsShown (s : State) (k : Nat) : State :=
  let p := s.port k
  ((s.setPort k { p with phase := .linked, bcUp := true, joined := p.map, outages := [], undo := none }).setOn (Pg.link k)
    Reg.LINK_SENSOR_CAPS_FALLBACK (p.trained.all (fun b => b.fallback))).setOn (Pg.link k) Reg.LINK_SENSOR_CAPS_PREEMPH
      (p.trained.all (fun b => b.preemph))

theorem State.linked_effect (s : State) {k : Nat} (hk : k < 2) :
    (s.linked k).port k = { s.port k with phase := .linked, bcUp := true, joined := (s.port k).map, outages := [], undo := none }
      ∧ (s.linked k).port (1 - k) = s.port (1 - k) ∧ (s.linked k).fld (Pg.link k) Reg.LINK_EVENT_LINK_UP = 1
      ∧ (s.linked k).fld (Pg.link k) Reg.LINK_SENSOR_CAPS_FALLBACK = (if (s.port k).trained.all (·.fallback) then 1 else 0)
      ∧ (s.linked k).fld (Pg.link k) Reg.LINK_SENSOR_CAPS_PREEMPH = (if (s.port k).trained.all (·.preemph) then 1 else 0)
      ∧ s.WritesIn (s.linked k) (besideCtrl k) := by
  have heq : s.linked k = ((s.capsShown k).showPort k).raise (Pg.link k) Reg.LINK_EVENT_LINK_UP := rfl
  have hw : s.WritesIn (s.capsShown k) (besideCtrl k) :=
    .setOn (State.WritesIn.setOn (.of_regs (.refl s _) (State.setPort_regs ..)) _ (besideCtrl_keyOf (by decide))) _ (besideCtrl_keyOf (by decide))
  have hfld : ∀ f : Fld, f.off = 0x078 → (s.linked k).fld (Pg.link k) f = (s.capsShown k).fld (Pg.link k) f := fun f hf => by
    have h : (s.capsShown k).WritesIn (s.linked k) (fun a => a ∈ [keyOf Reg.LINK_STATE_PORT (Pg.link k), keyOf Reg.LINK_STATE_LANES_LIVE (Pg.link k)]
        ∨ a = keyOf Reg.LINK_EVENT_LINK_UP (Pg.link k)) := State.WritesIn.raise ((State.writesIn_showPort _ k).mono fun _ => .inl) (.inr rfl)
    refine h.fld ?_
    simp only [keyOf, hf, List.mem_cons, List.not_mem_nil, or_false, Pg.link]
    omega
  have hbit : ∀ b : Bool, b.toNat % 2 ^ 1 = if b then 1 else 0 := by decide
  refine ⟨?_, ?_, ?_, ?_, ?_, ?_⟩
  · rw [heq, State.port_raise, State.port_showPort, State.capsShown, State.port_setOn, State.port_setOn, State.port_setPort]
  · rw [heq, State.port_raise, State.port_showPort, State.capsShown, State.port_setOn, State.port_setOn, State.port_setPort_other _ hk]
  · rw [heq]; exact State.fld_raise_same _ _ _ (by decide) rfl
  · rw [hfld _ rfl, State.capsShown, State.setOn, State.setOn, State.fld_setFld_ne _ _ _ _ _ _ (by decide) (.inr (.inr (by decide))),
      State.fld_setFld_same _ _ _ _ (by decide)]
    cases (s.port k).trained.all (·.fallback) <;> rfl
  · rw [hfld _ rfl, State.capsShown, State.setOn, State.fld_setFld_same _ _ _ _ (by decide)]
    cases (s.port k).trained.all (·.preemph) <;> rfl
  · rw [heq]; exact State.WritesIn.raise (hw.trans (State.writesIn_showPort' _ k)) (besideCtrl_keyOf (by decide))

/-! ### A bring-up that times out -/

/-- The registers of a bring-up put back. -/
def State.putBack (s : State) (u : TrainUndo) : State :=
  u.inverts.foldl (fun (s : State) (e : Nat × Nat) => s.setFld (Pg.lane e.1) Reg.LANE_RX_CFG_POL_INVERT e.2)
    (u.regs.foldl (fun (s : State) (e : Nat × Word) => s.wr e.1 e.2) s)

theorem State.trainFails_of_undo {s : State} {k : Nat} {u : TrainUndo} (h : (s.port k).undo = some u) :
    s.trainFails k = ((((s.dropBc k).putBack u).setPort k { ((s.dropBc k).putBack u).port k with
      phase := .down, trained := [], joined := [], undo := none, bcUp := u.bcUp, map := u.map, fullMap := u.fullMap }).showPort k).raise
        (Pg.link k) Reg.LINK_EVENT_TRAIN_FAIL := by
  have h' : ((s.dropBc k).port k).undo = some u := by rw [s.port_dropBc]; exact h
  unfold State.trainFails
  simp only [h', Option.getD_some]
  rfl

theorem State.putBack_touches (s : State) (u : TrainUndo) : s.Touches (s.putBack u) [.regs] :=
  .trans (.foldl (.refl s _) (fun v (e : Nat × Word) => State.wr_touches v e.1 e.2) _) (.foldl (.refl _ _) (fun _ (_ : Nat × Nat) => State.setFld_touches ..) _)

/-- Words written one after another, at keys that differ, are all there. -/
theorem State.rd_wrs (l : List (Nat × Word)) (hn : (l.map fun e => e.1).Nodup) (s : State) :
    (∀ e ∈ l, (l.foldl (fun (s : State) (e : Nat × Word) => s.wr e.1 e.2) s).rd e.1 = e.2)
      ∧ s.WritesIn (l.foldl (fun (s : State) (e : Nat × Word) => s.wr e.1 e.2) s) (fun a => a ∈ l.map fun e => e.1) := by
  induction l generalizing s with
  | nil => exact ⟨fun e he => (nomatch he), .refl s _⟩
  | cons x l ih =>
    obtain ⟨hx, hn⟩ := List.nodup_cons.1 hn
    obtain ⟨h1, h2⟩ := ih hn (s.wr x.1 x.2)
    have h0 : s.WritesIn (s.wr x.1 x.2) (fun a => a ∈ (x :: l).map fun e => e.1) := .wr (.refl s _) _ (.head _)
    refine ⟨fun e he => ?_, h0.trans (h2.mono fun a ha => .tail _ ha)⟩
    rcases List.mem_cons.1 he with rfl | he
    · rw [List.foldl_cons, h2 _ hx, State.rd_wr_same]
    · exact h1 e he

theorem State.putBack_effect (s : State) (u : TrainUndo) {k : Nat} (hu : u.regs.map (·.1) = trainKeys k) :
    (∀ e ∈ u.regs, (s.putBack u).rd e.1 = e.2)
      ∧ s.WritesIn (s.putBack u) (fun a => a ∈ trainKeys k ∨ ∃ e ∈ u.inverts, a = keyOf Reg.LANE_RX_CFG_POL_INVERT (Pg.lane e.1)) := by
  have hnd : (u.regs.map (·.1)).Nodup := by
    rw [hu]
    simp [trainKeys, keyOf]
  obtain ⟨h1, h2⟩ := s.rd_wrs u.regs hnd
  have h3 : (u.regs.foldl (fun (s : State) (e : Nat × Word) => s.wr e.1 e.2) s).WritesIn (s.putBack u)
      (fun a => ∃ e ∈ u.inverts, a = keyOf Reg.LANE_RX_CFG_POL_INVERT (Pg.lane e.1)) :=
    .foldl (.refl _ _) _ fun v e he => .setFld (.refl v _) _ ⟨e, he, rfl⟩
  refine ⟨fun e he => ?_, (h2.mono fun a ha => .inl (hu ▸ ha)).trans (h3.mono fun a => .inr)⟩
  rw [h3 _ ?_, h1 e he]
  rintro ⟨e', -, heq⟩
  have hk : e.1 ∈ trainKeys k := hu ▸ List.mem_map_of_mem he
  rw [heq] at hk
  simp only [trainKeys, List.map_cons, List.map_nil, List.mem_cons, List.not_mem_nil, or_false, keyOf] at hk
  omega

theorem State.trainTimeout_of_open {s : State} {k : Nat} (h : (s.port k).phase = .training ∨ (s.port k).phase = .adapting
    ∨ (s.port k).phase = .eqset) : s.trainTimeout k = s.trainFails k := by
  unfold State.trainTimeout
  rcases h with h | h | h <;> rw [h]

/-! ### The obligation -/

/-- Settles O24: the write of CTRL, the TRAIN blocks of the lanes one by one, the end of the adaptation, and the timeout. -/
theorem bringUp : Obligations.BringUp := by
  unfold Obligations.BringUp
  refine ⟨fun s r k v w lanes most hk ha ht hg hw hlanes hmost => ⟨fun hrun hen h1 h2 => ?starts, fun hno => ?refused⟩,
    fun s b k n ts hb hk hp hfirst hl hts hn => ?trains, fun s k hk hp hof => ?adapted, fun s k u hk hp hu hkeys => ?timeout⟩
  case starts =>
    have hmay := State.mayTrain_linkStored w hk hg
    have hw1 := writeLinkCtrl_of_train ha ht hg hw
    rw [hmay, hrun, decide_eq_true hen, ← hlanes, ← hmost, decide_eq_true (by omega : 0 < lanes), decide_eq_true h2] at hw1
    simp only [Bool.not_false, Bool.and_self, if_true] at hw1
    have heq : exec (.linkTrain r k v) s = .next (((s.linkTrained k w).startTraining k).settleWith (Pg.link k)) := by
      have h : exec (.linkTrain r k v) s = .next (if 2 ≤ k then s else writeAt r (Pg.link k) 0x008 v s) := rfl
      rw [h, if_neg (by omega), writeAt_ctrl (by simp only [Pg.link, Pg.pkt2110]; omega) (by interval_cases k <;> decide), writeCtrl, pageBlk_link hk]
      simp only [hw1]
    obtain ⟨hstored, htrain, -⟩ := s.fld_linkStored (k := k) w
    obtain ⟨hwu, htu⟩ := s.linkTrained_writes k w
    have hws : s.WritesIn (s.linkStored k w) (· = Pg.link k * 0x1000 + 0x008) := .wr (.refl s _) _ rfl
    have hts : s.Touches (s.linkStored k w) [.regs] := State.wr_touches ..
    have hsame : k = 1 ∨ wfld w Reg.LINK_CTRL_GANG = s.fld (Pg.link 0) Reg.LINK_CTRL_GANG → s.linkTrained k w = s.linkStored k w := fun h => by
      refine if_pos (congrArg (fun n => decide (n = 1)) ?_)
      by_cases h0 : k = 0
      · subst h0
        rw [hstored _ rfl (by decide), h.resolve_left (by decide)]
      · exact hws.fld (by simp only [keyOf, Pg.link]; omega)
    have hg' : ¬ (k = 1 ∧ (s.linkTrained k w).ganged = true) := by
      rintro ⟨h1, h2⟩
      refine hg ⟨h1, ?_⟩
      rw [hsame (.inl h1)] at h2
      rw [← h2]
      exact congrArg (fun n => decide (n = 1)) (hws.fld (by simp only [keyOf, Pg.link]; omega)).symm
    obtain ⟨⟨un, hport⟩, hother, hout, hstate, hdone, hskew, hwt⟩ := (s.linkTrained k w).startTraining_effect hk hg'
    have hto := State.startTraining_touches (s.linkTrained k w) k
    have hkeep : ∀ f : Fld, f.off = 0x008 →
        ((s.linkTrained k w).startTraining k).fld (Pg.link k) f = (s.linkStored k w).fld (Pg.link k) f := fun f hf => by
      rw [hwt.fld (by simp only [besideCtrl, keyOf, hf]; omega), hwu.fld (by simp only [besideCtrl, keyOf, hf]; omega)]
    have hset := State.settleWith_of_enabled (s := (s.linkTrained k w).startTraining k) hk (by rw [hkeep _ rfl, hstored _ rfl (by decide), hen])
    have hall : s.Touches (((s.linkTrained k w).startTraining k).settleWith (Pg.link k)) [.regs, .ctlLatches, .portA, .portB, .out, .pwrRising] :=
      .step (.step (.step (hts.mono rfl) htu rfl) hto rfl) hset rfl
    have hregs := hset.same .regs (by decide)
    have houtu : (s.linkTrained k w).out = s.out := (htu.same .out (by decide)).trans (hts.same .out (by decide))
    refine ⟨_, heq, ?_, ?_, ?_, ?_, ?_, ?_, ?_, ?_, ?_, ?_, ?_, fun hs => ?_, hall.eq_mix, ?_, hall.keepsBytes rfl⟩
    · rw [hset.port, hport]; rfl
    · rw [hset.port, hport]; rfl
    · rw [hset.port, hport]; rfl
    · rw [hset.port, hport]; rfl
    · rw [hset.port, hport]; rfl
    · rw [hset.same .out (by decide), hout, houtu]
    · rw [State.fld_congr hregs, hstate]
    · rw [State.fld_congr hregs, hkeep _ rfl, hstored _ rfl (by decide), hen]
    · rw [State.fld_congr hregs, hkeep _ rfl, htrain]
    · rw [State.fld_congr hregs, hdone]
    · rw [State.fld_congr hregs, hskew]
    · rw [hset.port, hother, hsame hs, hts.port]
      rw [hsame hs] at hwt
      refine ⟨rfl, State.WritesIn.keepsPages (State.WritesIn.of_regs (State.WritesIn.trans (hws.mono ?_) (hwt.mono ?_)) (by rw [hsame hs] at hregs; exact hregs))⟩
      · rintro a rfl
        simp only [onPages, Pg.link, List.mem_singleton]; omega
      · exact fun a => besideCtrl_onPages hk
    · have hP : ∀ k < 2, ∀ a, besideCtrl k a → onPages [Pg.link 0, Pg.link 1] a := fun k hk a ha => by
        have := besideCtrl_onPages hk ha
        simp only [onPages, Pg.link, List.mem_cons, List.not_mem_nil, or_false] at this ⊢
        omega
      refine State.WritesIn.keepsPages (State.WritesIn.of_regs (State.WritesIn.trans (State.WritesIn.trans (hws.mono ?_)
        (hwu.mono fun a ha => ha.elim (hP 0 (by decide) a) (hP 1 (by decide) a))) (hwt.mono (hP k hk))) hregs)
      rintro a rfl
      simp only [onPages, Pg.link, List.mem_cons, List.not_mem_nil, or_false]; omega
  case refused =>
    have hmay : (s.linkStored k w).mayTrain k = false := by
      rw [State.mayTrain_linkStored w hk hg, ← hlanes, ← hmost]
      rcases hno with h | h | h | h
      · simp [h]
      · simp [h]
      · simp [h]
      · simp [h]
    have hw1 := writeLinkCtrl_of_train ha ht hg hw
    rw [hmay] at hw1
    simp only [Bool.false_eq_true, if_false] at hw1
    have heq : exec (.linkTrain r k v) s = .next ((s.reject (Pg.link k)).settleWith (Pg.link k)) := by
      have h : exec (.linkTrain r k v) s = .next (if 2 ≤ k then s else writeAt r (Pg.link k) 0x008 v s) := rfl
      rw [h, if_neg (by omega), writeAt_ctrl (by simp only [Pg.link, Pg.pkt2110]; omega) (by interval_cases k <;> decide), writeCtrl, pageBlk_link hk]
      simp only [hw1]
    refine ⟨_, heq, ?_, ?_⟩
    · rw [State.fld_settleWith_event _ hk _ rfl]
      exact State.fld_raise_same _ _ _ (by decide) rfl
    · rw [(State.settleWith_touches _ _).same .out (by decide)]
      exact (State.reject_touches s _).same .out (by decide)
  case trains =>
    have hk2 : k < 2 := hk ▸ s.portOf_lt hb
    have heq : s.rxTrain b = if laneSetBad ts n k then (s.trainNoted b k ts n).trainEnds k Reg.LINK_EVENT_LANEMAP_ERR
        else (s.trainNoted b k ts n).trainStep5 k := by
      rw [State.rxTrain_of_first hb hl (by rw [← hk]; exact hp) (by rw [← hk]; exact hfirst), ← hk]
      dsimp only
      rw [← hts, ← hn]
    have hall : s.Touches (s.rxTrain b) [.out, .regs, .ctlLatches, .portA, .portB] := s.rxTrain_touches b
    obtain ⟨hseen, hpol, hid⟩ := s.fld_trainShown b
    obtain ⟨hport, hother⟩ := s.port_trainNoted b hk2 ts n
    have hwn := s.writesIn_trainNoted b k ts n
    have hlock := s.laneLocked_trainNoted b k ts n
    have hcfg : ∀ f : Fld, f.off = 0x008 ∨ f.off = 0x040 → (s.trainNoted b k ts n).fld (Pg.link k) f = s.fld (Pg.link k) f := fun f hf => by
      refine hwn.fld ?_
      simp only [trainLaneKeys, besideCtrl, keyOf, List.mem_cons, List.not_mem_nil, or_false, Pg.link, Pg.lane]
      omega
    have hlane : ∀ f : Fld, f.off = 0x044 ∨ f.off = 0x040 → (s.trainNoted b k ts n).fld (Pg.lane b.lane) f = (s.trainShown b).fld (Pg.lane b.lane) f :=
      fun f hf => by
        have h : (s.trainShown b).WritesIn (s.trainNoted b k ts n) (besideCtrl k) :=
          State.WritesIn.trans (.of_regs (.refl _ _) (State.setPort_regs ..)) (State.writesIn_setMap _ k _)
        refine h.fld ?_
        simp only [besideCtrl, keyOf, Pg.link, Pg.lane]
        omega
    have hto := s.trainNoted_touches b k ts n
    have houtn : (s.trainNoted b k ts n).out = s.out := hto.same .out (by decide)
    have hon : (s.trainNoted b k ts n).on (Pg.link k) Reg.LINK_CTRL_EQ_MODE = s.on (Pg.link k) Reg.LINK_CTRL_EQ_MODE := by
      rw [State.on, hcfg _ (.inl rfl), State.on]
    have hn' := (hcfg Reg.LINK_CFG_LANES (.inr rfl)).trans hn.symm
    generalize hu : s.trainNoted b k ts n = u at *
    -- the lane, the map and the other port, whichever way it ends
    have hend : (u.trainEnds k Reg.LINK_EVENT_LANEMAP_ERR).port k = { u.port k with
        phase := .down, trained := [], joined := [], bcUp := false, undo := none } ∧ _ := u.trainEnds_effect hk2 rfl (by decide) rfl
    obtain ⟨e1, e2, e3, e4⟩ := hend
    obtain ⟨g1, g2, g3⟩ := u.trainStep5_keeps hk2
    have hkeeps : ((s.rxTrain b).port k).map = mapOf ts n ∧ (s.rxTrain b).port (1 - k) = s.port (1 - k)
        ∧ u.WritesIn (s.rxTrain b) (besideCtrl k) := by
      rw [heq]
      split
      · exact ⟨by rw [e1, hport], e2.trans hother, e4⟩
      · exact ⟨by rw [g1, hport], g2.trans hother, g3⟩
    obtain ⟨hmap, hoth, hwr⟩ := hkeeps
    have hfin : ∀ f : Fld, f.off = 0x044 ∨ f.off = 0x040 → (s.rxTrain b).fld (Pg.lane b.lane) f = (s.trainShown b).fld (Pg.lane b.lane) f := fun f hf => by
      rw [hwr.fld (by simp only [besideCtrl, keyOf, Pg.link, Pg.lane]; omega), hlane f hf]
    have htsu : (u.port k).trained = ts := by rw [hport]
    have hwait : laneSetBad ts n k = false → (ts.length < n ∨ ∃ x ∈ ts, s.laneLocked x.lane = false) →
        ((s.rxTrain b).port k).phase = .training ∧ ((s.rxTrain b).port k).trained = ts := fun hbad hw => by
      rw [heq, hbad, if_neg Bool.false_ne_true, State.trainStep5_of_wait, hport]
      · exact ⟨hp, rfl⟩
      · rw [htsu, hn']
        refine hw.imp_right ?_
        rintro ⟨x, hx, hx'⟩
        exact List.all_eq_false.2 ⟨x, hx, by simp [hlock, hx']⟩
    have hallock : (∀ x ∈ ts, s.laneLocked x.lane = true) → ts.all (fun t => u.laneLocked t.lane) = true := fun h =>
      List.all_eq_true.2 fun x hx => (hlock _).trans (h x hx)
    refine ⟨_, rfl, by rw [hfin _ (.inl rfl), hseen], by rw [hfin _ (.inr rfl), hpol], by rw [hfin _ (.inl rfl), hid], hmap, fun hbad => ?_,
      fun hbad hlen => hwait hbad (.inl hlen), fun hbad hex => hwait hbad (.inr hex), fun hbad hlen hlk hsk => ?_, fun hbad hlen hlk hsk => ?_, hoth,
      hall.eq_mix, ?_, hall.keepsBytes rfl⟩
    · rw [heq, hbad, if_pos rfl]
      exact ⟨by rw [e1], e3⟩
    · rw [heq, hbad, if_neg Bool.false_ne_true, State.trainStep5_of_complete htsu hn' (by rw [hallock hlk, hlen]; simp),
        if_pos (show 32 < skewOf ts from hsk)]
      obtain ⟨f1, -, f3, -⟩ := (u.setFld (Pg.link k) Reg.LINK_SKEW (min 63 (skewOf ts))).trainEnds_effect hk2 (e := Reg.LINK_EVENT_SKEW_ERR) rfl
        (by decide) rfl
      exact ⟨by rw [f1], f3⟩
    · rw [heq, hbad, if_neg Bool.false_ne_true, ← hon, ← houtn]
      exact State.trainStep5_within hk2 htsu (by rw [hn', hlen]) (hallock hlk) hsk
    · refine State.WritesIn.keepsPages (State.WritesIn.trans (hwn.mono ?_) (hwr.mono ?_))
      · rintro a (ha | ha)
        · have : ∀ l < 16, ∀ a ∈ trainLaneKeys l, a / 0x1000 % 1024 = Pg.lane l := by decide
          exact List.mem_cons.2 (.inl (this _ hb a ha))
        · exact List.mem_cons_of_mem _ (besideCtrl_onPages hk2 ha)
      · exact fun a ha => List.mem_cons_of_mem _ (besideCtrl_onPages hk2 ha)
  case adapted =>
    have heq : s.eqAdapted k = ((s.port k).map.foldl State.adaptLane s).linked k := if_pos hp
    obtain ⟨ht, hport, hother⟩ := s.adaptLanes_effect hk (s.port k).map hof
    have hall := s.eqAdapted_touches k
    have hreg := ht.same .regs (by decide)
    generalize (s.port k).map.foldl State.adaptLane s = u at *
    obtain ⟨h1, h2, h3, h4, h5, h6⟩ := u.linked_effect hk
    rw [← heq] at h1 h2 h3 h4 h5 h6
    refine ⟨_, rfl, by rw [h1], by rw [h1, hport], by rw [h1, hport], by rw [h1], h3, by rw [h4, hport], by rw [h5, hport], h2.trans hother,
      hall.eq_mix, ?_, hall.keepsBytes rfl⟩
    exact State.WritesIn.keepsPages (State.WritesIn.trans (.of_regs (.refl s _) hreg) (h6.mono fun a => besideCtrl_onPages hk))
  case timeout =>
    have heq := (State.trainTimeout_of_open hp).trans (State.trainFails_of_undo hu)
    have hall := s.trainTimeout_touches k
    have hwd := s.writesIn_dropBc k
    have hod := s.port_dropBc_other hk
    generalize s.dropBc k = d at *
    obtain ⟨hback, hwb⟩ := d.putBack_effect u hkeys
    have htb := d.putBack_touches u
    generalize d.putBack u = b at *
    generalize hy : b.setPort k { b.port k with
      phase := .down, trained := [], joined := [], undo := none, bcUp := u.bcUp, map := u.map, fullMap := u.fullMap } = y at heq
    have hyp : y.port k = { b.port k with
        phase := .down, trained := [], joined := [], undo := none, bcUp := u.bcUp, map := u.map, fullMap := u.fullMap } := by rw [← hy, State.port_setPort]
    have hyo : y.port (1 - k) = b.port (1 - k) := by rw [← hy, State.port_setPort_other _ hk]
    have hyr : y.regs = b.regs := hy ▸ State.setPort_regs ..
    have hport : ∀ j, (s.trainTimeout k).port j = y.port j := fun j => by rw [heq, State.port_raise, State.port_showPort]
    have hws : y.WritesIn (s.trainTimeout k) (fun a => a ∈ [keyOf Reg.LINK_STATE_PORT (Pg.link k), keyOf Reg.LINK_STATE_LANES_LIVE (Pg.link k)]
        ∨ a = keyOf Reg.LINK_EVENT_TRAIN_FAIL (Pg.link k)) :=
      heq ▸ State.WritesIn.raise ((State.writesIn_showPort _ k).mono fun _ => .inl) (.inr rfl)
    refine ⟨_, rfl, by rw [hport, hyp], by rw [hport, hyp], ?_, ?_, by rw [hport, hyp], by rw [hport, hyp], by rw [hport, hyp], fun e he => ?_,
      by rw [hport, hyo, htb.port, hod], hall.eq_mix, fun a ha hinv => ?_, hall.keepsBytes rfl⟩
    · rw [heq]; exact State.fld_raise_same _ _ _ (by decide) rfl
    · rw [heq, State.fld_raise_ne _ _ _ _ _ (by decide) (.inl (keyOf_ne_of_off (by decide) (by decide) (by decide)))]
      exact (y.fld_showPort k).2 (by rw [hyp]; exact PortPhase.noConfusion)
    · have hk' : e.1 ∈ trainKeys k := hkeys ▸ List.mem_map_of_mem he
      rw [hws _ ?_, State.rd_congr hyr, hback e he]
      simp only [trainKeys, List.map_cons, List.map_nil, List.mem_cons, List.not_mem_nil, or_false, keyOf] at hk' ⊢
      omega
    · rw [hws a ?_, State.rd_congr hyr, hwb a ?_, hwd a ?_]
      · simp only [List.mem_cons, List.not_mem_nil, or_false, keyOf]; omega
      · rintro (h | ⟨e, he, h⟩)
        · simp only [trainKeys, List.map_cons, List.map_nil, List.mem_cons, List.not_mem_nil, or_false, keyOf] at h
          omega
        · exact hinv e he h
      · simp only [List.mem_cons, List.not_mem_nil, or_false, keyOf]; omega

end Sys2Proof.Machine
end

section
/-! PROOFS. Back-channel messages and their answers (R91, R111, R116, R118, R123). -/

set_option Elab.async false

namespace Sys2Proof.Machine

/-! ### Messages sent and ended -/

theorem State.port_sendBc (s : State) {k : Nat} (hk : k < 2) (m : BcMsg) :
    (s.sendBc k m).port k = { s.port k with cur := some m } ∧ (s.sendBc k m).port (1 - k) = s.port (1 - k) := by
  rw [State.sendBc, State.port_emit, State.port_emit, State.port_setPort, State.port_setPort_other _ hk]
  exact ⟨rfl, rfl⟩

/-- The next message of the queue takes the place of the one in progress. -/
theorem State.port_nextBc (s : State) {k : Nat} (hk : k < 2) :
    (s.nextBc k).port k = { s.port k with cur := (s.port k).queue.head?, queue := (s.port k).queue.tail }
      ∧ (s.nextBc k).port (1 - k) = s.port (1 - k) := by
  unfold State.nextBc
  dsimp only
  split
  · next h => rw [State.port_setPort, State.port_setPort_other _ hk, h]; exact ⟨rfl, rfl⟩
  · next m q h =>
    obtain ⟨h1, h2⟩ := (s.setPort k { s.port k with queue := q }).port_sendBc hk m
    rw [h1, h2, State.port_setPort, State.port_setPort_other _ hk, h]
    exact ⟨rfl, rfl⟩

/-- A message posted goes out at once on an idle back-channel, and waits otherwise. -/
theorem State.postBc_effect (s : State) {k : Nat} (hk : k < 2) (op arg : Nat) (data : List (Nat × Nat)) (use : BcUse) {m : BcMsg}
    (hm : m = { op := op, arg := arg, data := data, use := use, seq := (s.port k).seq }) :
    ((s.postBc k op arg data use).port k).seq = ((s.port k).seq + 1) % 256
      ∧ ((s.port k).cur = none → ((s.postBc k op arg data use).port k).cur = some m
          ∧ (s.postBc k op arg data use).out = .bc k m.op m.seq m.arg m.data m.blocks :: s.out)
      ∧ ((s.port k).cur.isSome = true → ((s.postBc k op arg data use).port k).queue = (s.port k).queue ++ [m]
          ∧ ((s.postBc k op arg data use).port k).cur = (s.port k).cur ∧ (s.postBc k op arg data use).out = s.out) := by
  subst hm
  unfold State.postBc
  dsimp only
  split
  · next hc =>
    refine ⟨?_, fun _ => ⟨?_, ?_⟩, fun h => absurd h (by simp [hc])⟩
    · rw [(State.port_sendBc _ hk _).1, State.port_setPort]
    · rw [(State.port_sendBc _ hk _).1]
    · rw [State.sendBc, State.emit_out, State.setPort_out, State.setPort_out]
  · next c hc =>
    refine ⟨?_, fun h => absurd h (by simp [hc]), fun _ => ⟨?_, ?_, ?_⟩⟩
    · rw [State.port_setPort, State.port_setPort]
    · rw [State.port_setPort]
    · rw [State.port_setPort, State.port_setPort]
    · rw [State.setPort_out, State.setPort_out]

/-- A mailbox operation ends with its RESULT and SENSOR_MSG. -/
theorem State.endMailbox_effect (s : State) (k : Nat) {n : Nat} (hn : n < 4) :
    (s.endMailbox k n).fld (Pg.link k) Reg.LINK_BC_CTRL_BUSY = 0 ∧ (s.endMailbox k n).fld (Pg.link k) Reg.LINK_BC_CTRL_RESULT = n
      ∧ (s.endMailbox k n).fld (Pg.link k) Reg.LINK_EVENT_SENSOR_MSG = 1
      ∧ s.WritesIn (s.endMailbox k n) (· ∈ [keyOf Reg.LINK_BC_CTRL_GO (Pg.link k), keyOf Reg.LINK_EVENT_SENSOR_MSG (Pg.link k)]) := by
  have hev : ∀ (u : State) f, f.off < 0x1000 → f.off ≠ 0x010 → f.lo + f.width ≤ 32 →
      (u.raise (Pg.link k) Reg.LINK_EVENT_SENSOR_MSG).fld (Pg.link k) f = u.fld (Pg.link k) f := fun u f hf hne hle =>
    State.fld_raise_ne _ _ _ _ _ hle (.inl (keyOf_ne_of_off hf (by decide) hne))
  unfold State.endMailbox
  refine ⟨?_, ?_, State.fld_raise_same _ _ _ (by decide) rfl, ?_⟩
  · rw [hev _ _ (by decide) (by decide) (by decide), State.fld_setFld_ne _ _ _ _ _ _ (by decide) (.inr (.inr (by decide))),
      State.fld_setFld_same _ _ _ _ (by decide)]
    rfl
  · rw [hev _ _ (by decide) (by decide) (by decide), State.fld_setFld_of_width _ _ _ _ (by decide) hn]
  · exact State.WritesIn.raise (State.WritesIn.setFld (State.WritesIn.setFld (.refl s _) _ (by simp [keyOf])) _ (by simp [keyOf])) (by simp)

theorem State.port_endMailbox (s : State) (k n j : Nat) : (s.endMailbox k n).port j = s.port j := (State.endMailbox_touches s k n).port (k := j)

/-- A message that is given up leaves the ports, and RESULT tells a mailbox operation. -/
theorem State.bcDone_none (s : State) {k : Nat} (m : BcMsg) :
    (∀ j, (s.bcDone k m none).port j = s.port j) ∧ s.WritesIn (s.bcDone k m none) (besideCtrl k) := by
  unfold State.bcDone
  cases m.use with
  | plain => exact ⟨fun _ => rfl, .refl s _⟩
  | mailbox => exact ⟨fun j => s.port_endMailbox k _ j, (s.endMailbox_effect k (by decide)).2.2.2.mono fun a ha => by
      simp only [List.mem_cons, List.not_mem_nil, or_false] at ha
      rcases ha with rfl | rfl <;> exact besideCtrl_keyOf (by decide)⟩
  | fallback => exact ⟨fun _ => rfl, .refl s _⟩
  | restoreMap => exact ⟨fun _ => rfl, .setFld (.refl s _) _ (besideCtrl_keyOf (by decide))⟩
  | eqset => exact ⟨fun _ => rfl, .refl s _⟩

theorem State.bcDone_answered (s : State) (k : Nat) {m : BcMsg} (h : m.use = .mailbox) (a : Nat) :
    s.bcDone k m (some a) = s.endMailbox k (if a = 0 then 0 else 1) := by
  unfold State.bcDone
  rw [h]
  cases a <;> rfl

theorem State.bcDone_unanswered (s : State) (k : Nat) {m : BcMsg} (h : m.use = .mailbox) : s.bcDone k m none = s.endMailbox k 2 := by
  unfold State.bcDone
  rw [h]

/-- The first block of a message: its code, SEQ, operation, count and argument. -/
theorem BcMsg.head_blocks (m : BcMsg) : m.blocks.head? =
    some (0xD4 + m.seq % 256 * 2 ^ 8 + m.op % 16 * 2 ^ 16 + m.data.length % 32 * 2 ^ 20 + m.arg % 2 ^ 32 * 2 ^ 25) := by
  rw [BcMsg.blocks, List.cons_append, List.head?_cons]

/-! ### The mailbox -/

theorem writeBcCtrl_of_go {s : State} {r : Req} {k : Nat} {v : Word} (ha : s.accepts r (Pg.link k) 0x088 v = true)
    (hg : ¬ (k = 1 ∧ s.ganged = true)) (hgo : wfld v Reg.LINK_BC_CTRL_GO = 1) :
    writeBcCtrl r k v s = if s.on (Pg.link k) Reg.LINK_BC_CTRL_BUSY then s.reject (Pg.link k)
      else ((s.setFld (Pg.link k) Reg.LINK_BC_CTRL_OP (wfld v Reg.LINK_BC_CTRL_OP)).setFld (Pg.link k) Reg.LINK_BC_CTRL_BUSY 1).postBc k
        (wfld v Reg.LINK_BC_CTRL_OP) 0
        [(s.fld (Pg.link k) Reg.LINK_BC_ADDR, if wfld v Reg.LINK_BC_CTRL_OP = 0 then s.fld (Pg.link k) Reg.LINK_BC_DATA else 0)] .mailbox := by
  rw [writeBcCtrl, withWrite_of_accepts _ ha]
  dsimp only
  rw [if_neg hg, if_neg (by omega)]

/-- An answer to a mailbox operation in progress. -/
theorem State.rxSmsg_of_mailbox {s : State} {k q kind d : Nat} {m : BcMsg} (hh : s.hears k = true) (hc : (s.port k).cur = some m)
    (hq : m.seq = q % 256) (hkind : kind < 3) (hu : m.use = .mailbox) :
    s.rxSmsg k q kind d = ((if kind = 1 then s.setFld (Pg.link k) Reg.LINK_BC_RDATA d else s).nextBc k).endMailbox k (if kind = 2 then 1 else 0) := by
  unfold State.rxSmsg
  rw [if_neg (by simp [hh]), if_neg (by omega)]
  simp only [hc]
  rw [if_neg (by omega), State.bcDone_answered _ _ hu]
  simp only [hu, and_true]
  have h : (if (if kind = 2 then 1 else 0) = 0 then 0 else 1) = if kind = 2 then 1 else 0 := by split <;> rfl
  rw [h]

theorem State.bcTimeout_of_some {s : State} {k : Nat} {m : BcMsg} (hc : (s.port k).cur = some m) :
    s.bcTimeout k = if m.resends < 3 then s.sendBc k { m with resends := m.resends + 1 }
      else ((s.nextBc k).bcDone k m none).raise (Pg.link k) Reg.LINK_EVENT_BC_FAIL := by
  unfold State.bcTimeout
  simp only [hc]

/-- Settles O26: a mailbox operation, a heartbeat, and how each message in progress ends. -/
theorem backChannel : Obligations.BackChannel := by
  unfold Obligations.BackChannel
  refine ⟨fun s r k v m hk ha hg hgo hbusy hm => ?go, fun s r k v hk ha hg hgo hbusy => ?busy, fun s k hk hup hen hmode hg => ?beat,
    fun s k q d hh => ?status, fun s k q kind d m hk hh hc hq hkind hu => ?answer, fun s k m hk hc hr => ?resend, fun s k m hk hc hr => ?givenUp,
    fun s k hk hf hack => ?cancel⟩
  case go =>
    have heq := writeBcCtrl_of_go ha hg hgo
    rw [hbusy, if_neg Bool.false_ne_true] at heq
    generalize hu : (s.setFld (Pg.link k) Reg.LINK_BC_CTRL_OP (wfld v Reg.LINK_BC_CTRL_OP)).setFld (Pg.link k) Reg.LINK_BC_CTRL_BUSY 1 = u at heq
    have hport : u.port k = s.port k := by rw [← hu, State.port_setFld, State.port_setFld]
    have hout : u.out = s.out := by rw [← hu]; rfl
    have hw : s.WritesIn u (· ∈ [keyOf Reg.LINK_BC_CTRL_GO (Pg.link k)]) := by
      rw [← hu]
      exact State.WritesIn.setFld (State.WritesIn.setFld (.refl s _) _ (by simp [keyOf])) _ (by simp [keyOf])
    have hb : u.fld (Pg.link k) Reg.LINK_BC_CTRL_BUSY = 1 := by rw [← hu, State.fld_setFld_same _ _ _ _ (by decide)]; rfl
    have htu : s.Touches u [.regs] := by
      rw [← hu]
      exact .step (State.setFld_touches ..) (State.setFld_touches ..) rfl
    clear hu
    have hm' : m = { op := wfld v Reg.LINK_BC_CTRL_OP, arg := 0, use := .mailbox, seq := (u.port k).seq
                     data := [(s.fld (Pg.link k) Reg.LINK_BC_ADDR, if wfld v Reg.LINK_BC_CTRL_OP = 0 then s.fld (Pg.link k) Reg.LINK_BC_DATA else 0)] } := by
      rw [hport]; exact hm
    obtain ⟨h1, h2, h3⟩ := u.postBc_effect hk _ _ _ _ hm'
    rw [hport, hout] at h2 h3
    rw [hport] at h1
    have hto := State.postBc_touches u k (wfld v Reg.LINK_BC_CTRL_OP) 0
      [(s.fld (Pg.link k) Reg.LINK_BC_ADDR, if wfld v Reg.LINK_BC_CTRL_OP = 0 then s.fld (Pg.link k) Reg.LINK_BC_DATA else 0)] .mailbox
    have hall := State.Touches.step (htu.mono (l' := [.regs, .portA, .portB, .out]) rfl) hto rfl
    refine ⟨_, congrArg Host.Outcome.next heq, ?_, h1, h2, h3, hall.eq_mix, ?_, hall.keepsBytes rfl, ?_⟩
    · rw [State.fld_congr (hto.same .regs (by decide)), hb]
    · exact (State.WritesIn.of_regs hw (hto.same .regs (by decide))).keepsRegs
    · rw [m.head_blocks, hm]
      simp
  case busy =>
    have heq := writeBcCtrl_of_go ha hg hgo
    rw [hbusy, if_pos rfl] at heq
    exact ⟨_, congrArg Host.Outcome.next heq, s.rejected_reject _⟩
  case beat =>
    have heq : s.heartbeat k = (s.setPort k { s.port k with hbSeq := ((s.port k).hbSeq + 1) % 256 }).emit
        (.hb k (s.port k).hbSeq (max (s.fld (Pg.link k) Reg.LINK_TIMING_HB_TIMEOUT)
          (4 * max 1 (min 1000 (s.fld (Pg.link k) Reg.LINK_TIMING_HB_PERIOD)))) (s.frameNow % 2 ^ 32)
          (hbBlock (s.port k).hbSeq (max (s.fld (Pg.link k) Reg.LINK_TIMING_HB_TIMEOUT)
            (4 * max 1 (min 1000 (s.fld (Pg.link k) Reg.LINK_TIMING_HB_PERIOD)))) (s.frameNow % 2 ^ 32))) := if_pos ⟨hup, hen, hmode, hg⟩
    have hall := (State.setPort_touches s k { s.port k with hbSeq := ((s.port k).hbSeq + 1) % 256 }).mono (l' := [.portA, .portB, .out]) rfl
    refine ⟨_, _, congrArg Host.Outcome.next heq, rfl, ?_, ?_, ?_, (State.Touches.step hall (State.emit_touches ..) rfl).eq_mix⟩
    · rw [State.emit_out, State.setPort_out]
    · rw [State.port_emit, State.port_setPort]
    · rw [State.port_emit, State.port_setPort_other _ hk]
  case status =>
    have heq : s.rxSmsg k q 3 d = s.raise (Pg.link k) Reg.LINK_EVENT_SENSOR_MSG := by
      unfold State.rxSmsg
      rw [if_neg (by simp [hh]), if_pos rfl]
    exact ⟨_, congrArg Host.Outcome.next heq, State.fld_raise_same _ _ _ (by decide) rfl, (State.Kept.refl s _).raise (by simp)⟩
  case answer =>
    have heq := State.rxSmsg_of_mailbox (d := d) hh hc hq hkind hu
    generalize hy : (if kind = 1 then s.setFld (Pg.link k) Reg.LINK_BC_RDATA d else s) = y at heq
    have hyp : ∀ j, y.port j = s.port j := fun j => by rw [← hy]; split <;> rfl
    have hyt : s.Touches y [.regs] := hy ▸ .ite (State.setFld_touches ..) (.refl ..)
    have hyw : s.WritesIn y (· = keyOf Reg.LINK_BC_RDATA (Pg.link k)) := hy ▸ .ite (.setFld (.refl s _) _ rfl) (.refl s _)
    have hyf : kind = 1 → y.fld (Pg.link k) Reg.LINK_BC_RDATA = d % 2 ^ 32 := fun h => by
      rw [← hy, if_pos h, State.fld_setFld_same _ _ _ _ (by decide)]
    obtain ⟨h1, h2⟩ := y.port_nextBc hk
    have hnt := y.nextBc_touches k
    generalize y.nextBc k = x at *
    obtain ⟨e1, e2, e3, e4⟩ := x.endMailbox_effect k (n := if kind = 2 then 1 else 0) (by split <;> decide)
    have het := State.endMailbox_touches x k (if kind = 2 then 1 else 0)
    have hep := x.port_endMailbox k (if kind = 2 then 1 else 0)
    generalize x.endMailbox k (if kind = 2 then 1 else 0) = t at *
    have hxr := hnt.same .regs (by decide)
    have hall : s.Touches t [.regs, .ctlLatches, .portA, .portB, .out] := .step (.step (hyt.mono rfl) hnt rfl) het rfl
    refine ⟨t, congrArg Host.Outcome.next heq, e1, e2, fun h => ?_, e3, ?_, ?_, ?_, hall.eq_mix, ?_, hall.keepsBytes rfl⟩
    · rw [e4.fld (by simp [keyOf]), State.fld_congr hxr, hyf h]
    · rw [hep, h1, hyp]
    · rw [hep, h1, hyp]
    · rw [hep, h2, hyp]
    · exact State.WritesIn.keepsRegs (State.WritesIn.trans (State.WritesIn.of_regs (hyw.mono fun a ha => by simp [ha]) hxr) (e4.mono fun a ha => by
        simp only [List.mem_cons, List.not_mem_nil, or_false] at ha ⊢
        exact ha.imp_right .inr))
  case resend =>
    have heq := State.bcTimeout_of_some hc
    rw [if_pos hr] at heq
    obtain ⟨h1, h2⟩ := s.port_sendBc hk { m with resends := m.resends + 1 }
    have hto := State.sendBc_touches s k { m with resends := m.resends + 1 }
    refine ⟨_, congrArg Host.Outcome.next heq, ?_, by rw [h1], by rw [h1], h2, (hto.mono (l' := [.portA, .portB, .out]) rfl).eq_mix⟩
    rw [State.sendBc, State.emit_out, State.setPort_out]
    rfl
  case givenUp =>
    have heq := State.bcTimeout_of_some hc
    rw [if_neg (by omega)] at heq
    obtain ⟨h1, h2⟩ := s.port_nextBc hk
    have hnt := s.nextBc_touches k
    generalize s.nextBc k = x at *
    obtain ⟨e1, e2⟩ := x.bcDone_none (k := k) m
    have hbt := State.bcDone_touches x k m none
    have hmail : m.use = .mailbox → (x.bcDone k m none).fld (Pg.link k) Reg.LINK_BC_CTRL_RESULT = 2
        ∧ (x.bcDone k m none).fld (Pg.link k) Reg.LINK_BC_CTRL_BUSY = 0 := fun h => by
      rw [State.bcDone_unanswered x k h]
      obtain ⟨g1, g2, -⟩ := x.endMailbox_effect k (n := 2) (by decide)
      exact ⟨g2, g1⟩
    generalize x.bcDone k m none = y at *
    have hrt := State.raise_touches y (Pg.link k) Reg.LINK_EVENT_BC_FAIL
    have hall : s.Touches (y.raise (Pg.link k) Reg.LINK_EVENT_BC_FAIL) [.regs, .ctlLatches, .portA, .portB, .out] :=
      .step (.step (hnt.mono rfl) hbt rfl) hrt rfl
    have hev : ∀ f, f.off < 0x1000 → f.off ≠ 0x010 → f.lo + f.width ≤ 32 →
        (y.raise (Pg.link k) Reg.LINK_EVENT_BC_FAIL).fld (Pg.link k) f = y.fld (Pg.link k) f := fun f hf hne hle =>
      State.fld_raise_ne _ _ _ _ _ hle (.inl (keyOf_ne_of_off hf (by decide) hne))
    refine ⟨_, congrArg Host.Outcome.next heq, State.fld_raise_same _ _ _ (by decide) rfl, ?_, fun h => ?_, ?_, hall.eq_mix, ?_, hall.keepsBytes rfl⟩
    · rw [State.port_raise, e1, h1]
    · rw [hev _ (by decide) (by decide) (by decide), hev _ (by decide) (by decide) (by decide)]
      exact hmail h
    · rw [State.port_raise, e1, h2]
    · exact State.WritesIn.keepsPages (State.WritesIn.raise (State.WritesIn.trans (.of_regs (.refl s _) (hnt.same .regs (by decide)))
        (e2.mono fun a => besideCtrl_onPages hk)) (besideCtrl_onPages hk (besideCtrl_keyOf (by decide))))
  case cancel =>
    have heq : s.fallbackTimeout k = (((s.setPort k { s.port k with fallFrame := none }).raise (Pg.link k) Reg.LINK_EVENT_FALLBACK_CANCEL).raise
        (Pg.link k) Reg.LINK_EVENT_BC_FAIL) := if_pos ⟨hf, hack⟩
    have hall := State.Touches.step (State.Touches.step ((State.setPort_touches s k { s.port k with fallFrame := none }).mono
      (l' := [.regs, .ctlLatches, .portA, .portB]) rfl) (State.raise_touches _ (Pg.link k) Reg.LINK_EVENT_FALLBACK_CANCEL) rfl)
      (State.raise_touches _ (Pg.link k) Reg.LINK_EVENT_BC_FAIL) rfl
    refine ⟨_, congrArg Host.Outcome.next heq, ?_, ?_, State.fld_raise_same _ _ _ (by decide) rfl, ?_, hall.eq_mix, ?_, hall.keepsBytes rfl⟩
    · rw [State.port_raise, State.port_raise, State.port_setPort]
    · exact State.fld_raise_of_one rfl rfl (State.fld_raise_same _ _ _ (by decide) rfl)
    · rw [State.port_raise, State.port_raise, State.port_setPort_other _ hk]
    · have hw : s.WritesIn (s.setPort k { s.port k with fallFrame := none }) (· = keyOf Reg.LINK_EVENT_BC_FAIL (Pg.link k)) :=
        .of_regs (.refl s _) (State.setPort_regs ..)
      have h1 := State.WritesIn.raise (p := Pg.link k) (e := Reg.LINK_EVENT_FALLBACK_CANCEL) hw rfl
      exact (State.WritesIn.raise (p := Pg.link k) (e := Reg.LINK_EVENT_BC_FAIL) h1 rfl).keepsReg

end Sys2Proof.Machine
end

section
/-! PROOFS. Commands fetched from their queues (R279, R283, R284, R288, R289, R292, R293). -/

set_option Elab.async false

namespace Sys2Proof.Machine

/-! ### Arbitration while fetching is paused or not -/

/-- The queue tables with the notes of the pauses replaced. -/
def Hq.paused (h : Hq) (io admin : Bool) : Hq := { h with exhausted := io, exhaustedAdmin := admin }

theorem Hq.serve_paused (h : Hq) (io admin : Bool) (cls : Nat) (ks : List Nat) (burst : Nat) :
    (h.paused io admin).serve cls ks burst = ((h.serve cls ks burst).1, (h.serve cls ks burst).2.paused io admin) := by
  unfold Hq.serve
  dsimp only [Hq.paused]
  split <;> rfl

theorem wrrClass_paused (h : Hq) (io admin : Bool) (byCls : Nat → List Nat) (weight : Nat → Nat) :
    wrrClass (h.paused io admin) byCls weight = ((wrrClass h byCls weight).1, (wrrClass h byCls weight).2.paused io admin) := by
  unfold wrrClass
  dsimp only [Hq.paused]
  by_cases hc : 0 < h.clsLeft ∧ (byCls (h.cls + 1)).isEmpty = false
  · exact (if_pos hc).trans (by rw [if_pos hc])
  · exact (if_neg hc).trans (by rw [if_neg hc])

/-- The pauses do not change whose turn it is. -/
theorem State.arbitrate_paused {s t : State} {io admin : Bool} (hq : t.hq = s.hq.paused io admin)
    (hr : ∀ f : Fld, f.off ≠ 0x010 → t.fld Pg.hostq f = s.fld Pg.hostq f) (ks : List Nat) : (t.arbitrate ks).1 = (s.arbitrate ks).1 := by
  unfold State.arbitrate
  rw [hq, hr _ (by decide), hr _ (by decide), hr _ (by decide), hr _ (by decide)]
  dsimp only
  have hcls : ∀ k, ((s.hq.paused io admin).sqs.get k).cls = (s.hq.sqs.get k).cls := fun k => rfl
  simp only [hcls]
  split
  · rw [wrrClass_paused, Hq.serve_paused]
  · rw [Hq.serve_paused]

/-! ### The note of a pause -/

/-- Whether fetching pauses for the I/O queues, and for all of them. -/
def State.pauses (s : State) : Bool × Bool :=
  (decide (s.freeTags = 0) && s.readyQueues.any fun k => decide (k % 64 ≠ 0),
    decide (s.freeTags = 0 ∧ s.freeAdminTags = 0) && s.readyQueues.any fun k => decide (k % 64 = 0))

theorem State.notePause_eq (s : State) : s.notePause = (s.setHq (s.hq.paused s.pauses.1 s.pauses.2)).raiseIf
    ((s.pauses.1 && !s.hq.exhausted) || (s.pauses.2 && !s.hq.exhaustedAdmin)) Pg.hostq Reg.HOSTQ_EVENT_TAGS_EXHAUSTED := rfl

theorem State.notePause_effect (s : State) :
    s.notePause.hq = s.hq.paused s.pauses.1 s.pauses.2
      ∧ s.WritesIn s.notePause (· = keyOf Reg.HOSTQ_EVENT_TAGS_EXHAUSTED Pg.hostq) := by
  rw [s.notePause_eq]
  have h0 : s.WritesIn (s.setHq (s.hq.paused s.pauses.1 s.pauses.2)) (· = keyOf Reg.HOSTQ_EVENT_TAGS_EXHAUSTED Pg.hostq) := .of_regs (.refl s _) rfl
  refine ⟨?_, h0.raiseIf rfl⟩
  unfold State.raiseIf
  split
  · exact noteRise_hq ..
  · rfl

theorem State.notePause_ready (s : State) : s.notePause.readyQueues = s.readyQueues ∧ (∀ k, s.notePause.tagFor k = s.tagFor k)
    ∧ ∀ k b, s.notePause.tagKind k b = s.tagKind k b := by
  obtain ⟨hq, hw⟩ := s.notePause_effect
  have hen : s.notePause.on Pg.hostq Reg.HOSTQ_CTRL_ENABLE = s.on Pg.hostq Reg.HOSTQ_CTRL_ENABLE :=
    congrArg (fun n => decide (n = 1)) (hw.fld (by decide))
  have hstop : ∀ k, s.notePause.sqStopped k = s.sqStopped k := fun k => by rw [State.sqStopped, hq]; rfl
  have hready : s.notePause.readyQueues = s.readyQueues := by
    unfold State.readyQueues
    rw [hen, hq]
    simp only [hstop]
    rfl
  have hfree : s.notePause.freeTags = s.freeTags ∧ s.notePause.freeAdminTags = s.freeAdminTags := by
    rw [State.freeTags, State.freeAdminTags, hq]; exact ⟨rfl, rfl⟩
  have hold : ∀ k, s.notePause.oldestOf k = s.oldestOf k := fun k => by rw [State.oldestOf, hq]; rfl
  have holdest : ∀ ks, s.notePause.oldest ks = s.oldest ks := fun ks => by
    unfold State.oldest
    rw [show s.notePause.oldestOf = s.oldestOf from funext hold]
  have hkind : ∀ k b, s.notePause.tagKind k b = s.tagKind k b := fun k b => by
    unfold State.tagKind
    rw [hfree.1, hfree.2, hold, hready, holdest]
  exact ⟨hready, fun k => by rw [State.tagFor, hkind, hkind, State.tagFor], hkind⟩

/-- The queue that a fetch takes its entry from. -/
theorem State.arbitrate_notePause (s : State) (ks : List Nat) : (s.notePause.arbitrate ks).1 = (s.arbitrate ks).1 := by
  obtain ⟨hq, hw⟩ := s.notePause_effect
  exact State.arbitrate_paused hq (fun f hf => hw.fld (by simp only [keyOf]; omega)) ks

/-! ### The entry accepted -/

/-- The command of an entry. -/
def State.cmdOf (s : State) (k : Nat) (entry : List Byte) : Cmd :=
  let q := s.hq.sqs.get k
  let fetched := if 0 < q.late then (s.hq.cmds.map fun e => e.2.order).foldl max 0 + 1 else 0
  { live := true, uid := s.hq.uidSeq + 1, fn := fnOf (k / 64), sqid := k % 64, cqid := q.cqid, cid := leAt (padTo 64 entry) 2 2
    sqHead := (q.head + 1) % q.size, order := max (max (s.oldestOf k) fetched) (q.lastOrder + 1), raw := padTo 64 entry }

/-- The entry in its tag, and its queue gone on. -/
def State.taken (s : State) (k tag : Nat) (entry : List Byte) : State :=
  let q := s.hq.sqs.get k
  let c := s.cmdOf k entry
  let s1 := (s.putSq k { q with head := (q.head + 1) % q.size, late := q.late - 1, lastOrder := c.order }).putCmd tag c
  s1.setHq { s1.hq with uidSeq := s.hq.uidSeq + 1, avail := s1.hq.avail.filter fun e => decide (e ≠ (k, s.oldestOf k)) }

/-- Whether a command of the queue has the entry's identifier. -/
def State.dupOf (s : State) (k : Nat) (entry : List Byte) : Bool :=
  s.hq.cmds.any fun e => e.2.live && decide (e.2.fn = fnOf (k / 64)) && decide (e.2.sqid = k % 64) && decide (e.2.cid = (s.cmdOf k entry).cid)

theorem State.accept_eq (s : State) (k tag : Nat) (entry : List Byte) : s.accept k tag entry =
    let st := s.fetchStatus (s.cmdOf k entry) (s.dupOf k entry)
    if st.1 = 0 then s.taken k tag entry
    else if st.1 = 0x10 then
      (((s.taken k tag entry).count Pg.array Reg.ARRAY_STALE_CMDS).raise Pg.hostq Reg.HOSTQ_EVENT_GEN_REJECT).finishTag tag 0x10 0 0 8
    else (s.taken k tag entry).finishTag tag st.1 0 0 st.2 := rfl

theorem State.get_taken (s : State) (k tag : Nat) (entry : List Byte) :
    (s.taken k tag entry).hq.cmds.get tag = s.cmdOf k entry
      ∧ ((s.taken k tag entry).hq.sqs.get k).head = ((s.hq.sqs.get k).head + 1) % (s.hq.sqs.get k).size
      ∧ (∀ j, j ≠ k → (s.taken k tag entry).hq.sqs.get j = s.hq.sqs.get j) ∧ s.OnlyTag (s.taken k tag entry) tag
      ∧ (s.taken k tag entry).regs = s.regs := by
  refine ⟨?_, ?_, fun j hj => ?_, fun g hg => ?_, rfl⟩
  · unfold State.taken
    simp only [State.putCmd, State.setHq, Tbl.get_put_same]
  · show ((s.hq.sqs.put k _).get k).head = _
    rw [Tbl.get_put_same]
  · show (s.hq.sqs.put k _).get j = _
    rw [Tbl.get_put_ne _ _ _ _ hj]
  · unfold State.taken
    simp only [State.putCmd, State.putSq, State.setHq, Tbl.get_put_ne _ _ _ _ hg]

/-- A command that completes keeps what it was fetched with. -/
theorem State.get_finishTag {s : State} {tag : Nat} (status result detail field : Nat) (h : (s.hq.cmds.get tag).live = true)
    (hd : (s.hq.cmds.get tag).stage ≠ .done) (ho : (s.hq.cmds.get tag).op ≠ 0x28) :
    (s.finishTag tag status result detail field).hq.cmds.get tag =
      { s.hq.cmds.get tag with stage := .done, status := status, result := result, detail := detail } := by
  unfold State.finishTag
  simp only [h, hd, ho, Bool.true_eq_false, or_self, if_false]
  split <;> split <;> simp [State.putCmd, State.logError, State.setHq, State.raise, noteRise_hq]

/-- A command that completes keeps its entry, whatever its opcode. -/
theorem State.entry_finishTag (s : State) (tag status result detail field : Nat) :
    let c := (s.finishTag tag status result detail field).hq.cmds.get tag
    let d := s.hq.cmds.get tag
    c.live = d.live ∧ c.raw = d.raw ∧ c.sqid = d.sqid ∧ c.fn = d.fn ∧ c.cid = d.cid ∧ c.cqid = d.cqid := by
  unfold State.finishTag
  dsimp only
  split
  · exact ⟨rfl, rfl, rfl, rfl, rfl, rfl⟩
  · split <;> split <;> simp [State.putCmd, State.logError, State.setHq, State.raise, noteRise_hq]

theorem State.writesIn_finishTag (s : State) (tag result detail field : Nat) {status : Nat} (h : status ≠ 0x32) :
    (s.finishTag tag status result detail field).regs = s.regs := by
  unfold State.finishTag
  simp only [h, if_false]
  split
  · rfl
  · split <;> rfl

/-- What the checks of a fetch give. -/
theorem State.fetchStatus_cases (s : State) (c : Cmd) (dup : Bool) :
    (knownOps.contains c.op = false → s.fetchStatus c dup = (0x01, 0))
      ∧ (knownOps.contains c.op = true → decide (c.op < 0x80) = decide (c.sqid = 0) → (c.fn = .pf1 → pf0Ops.contains c.op = false) →
          (exemptOps.contains c.op = false → s.on Pg.array Reg.ARRAY_STATE_FENCED = true → s.fetchStatus c dup = (0x10, 8))
          ∧ (exemptOps.contains c.op = true ∨ s.on Pg.array Reg.ARRAY_STATE_FENCED = false
                ∧ (s.fld Pg.array Reg.ARRAY_GENERATION = 0 ∨ c.generation = s.fld Pg.array Reg.ARRAY_GENERATION) →
              (badField c dup = none → s.fetchStatus c dup = (0, 0xFFFF))
              ∧ ∀ f, badField c dup = some f → s.fetchStatus c dup = (0x02, f))) := by
  unfold State.fetchStatus
  refine ⟨fun h => if_pos (.inl (by rw [h]; rfl)), fun hk hq hf => ?_⟩
  have h1 : ¬ ((!knownOps.contains c.op) = true ∨ decide (c.op < 0x80) ≠ decide (c.sqid = 0) ∨ c.fn = .pf1 ∧ pf0Ops.contains c.op = true) := by
    rintro (h | h | ⟨h, h'⟩)
    · rw [hk] at h; exact Bool.false_ne_true h
    · exact h hq
    · exact Bool.false_ne_true ((hf h).symm.trans h')
  refine ⟨fun he hfen => ?_, fun hok => ?_⟩
  · rw [if_neg h1, if_pos ⟨by rw [he]; rfl, .inl hfen⟩]
  · have h2 : ¬ ((!exemptOps.contains c.op) = true ∧ (s.on Pg.array Reg.ARRAY_STATE_FENCED = true
        ∨ s.fld Pg.array Reg.ARRAY_GENERATION ≠ 0 ∧ c.generation ≠ s.fld Pg.array Reg.ARRAY_GENERATION)) := by
      rintro ⟨he, h⟩
      rcases hok with hok | ⟨hfen, hgen⟩
      · rw [hok] at he; exact Bool.false_ne_true he
      · rcases h with h | ⟨h, h'⟩
        · exact Bool.false_ne_true (hfen.symm.trans h)
        · exact hgen.elim h h'
    dsimp only
    rw [if_neg h1, if_neg h2]
    exact ⟨fun hb => by simp only [hb], fun f hb => by simp only [hb]⟩

/-- The entry's fields are checked by its bytes alone. -/
theorem badField_raw (c : Cmd) (dup : Bool) : badField c dup = badField { raw := c.raw } dup := rfl

/-! ### A fetch -/

theorem State.fetch_of_entry {s : State} {tag k : Nat} {entry : List Byte} (hks : s.readyQueues.filter s.tagFor ≠ [])
    (hk : k = (s.arbitrate (s.readyQueues.filter s.tagFor)).1) (ht : tag < 16384) (hl : (s.hq.cmds.get tag).live = false)
    (hkind : s.tagKind k (adminTag tag) = true) :
    s.fetch tag (some entry) = (s.notePause.setHq (s.notePause.arbitrate (s.readyQueues.filter s.tagFor)).2).accept k tag entry := by
  obtain ⟨hr, htf, htk⟩ := s.notePause_ready
  have hfil : s.notePause.readyQueues.filter s.notePause.tagFor = s.readyQueues.filter s.tagFor := by
    rw [hr, show s.notePause.tagFor = s.tagFor from funext htf]
  have hlive : (s.notePause.hq.cmds.get tag).live = false := by rw [s.notePause_effect.1]; exact hl
  unfold State.fetch
  simp only [hfil]
  rw [if_neg (by simpa using hks), s.arbitrate_notePause, ← hk, if_pos ⟨ht, hlive, by rw [htk, hkind]⟩]

theorem State.fetch_of_failure {s : State} {tag k : Nat} (hks : s.readyQueues.filter s.tagFor ≠ [])
    (hk : k = (s.arbitrate (s.readyQueues.filter s.tagFor)).1) :
    s.fetch tag none = (s.notePause.setHq (s.notePause.arbitrate (s.readyQueues.filter s.tagFor)).2).sqFault k := by
  obtain ⟨hr, htf, -⟩ := s.notePause_ready
  have hfil : s.notePause.readyQueues.filter s.notePause.tagFor = s.readyQueues.filter s.tagFor := by
    rw [hr, show s.notePause.tagFor = s.tagFor from funext htf]
  unfold State.fetch
  simp only [hfil]
  rw [if_neg (by simpa using hks), s.arbitrate_notePause, ← hk]

theorem State.fetch_of_pause {s : State} (tag : Nat) (entry : Option (List Byte)) (h : s.readyQueues.filter s.tagFor = []) :
    s.fetch tag entry = s.notePause := by
  obtain ⟨hr, htf, -⟩ := s.notePause_ready
  have hfil : s.notePause.readyQueues.filter s.notePause.tagFor = [] := by
    rw [hr, show s.notePause.tagFor = s.tagFor from funext htf, h]
  unfold State.fetch
  simp only [hfil]
  rfl

/-- What is fetched from its queue has begun nothing: only its tag, its queue and the order numbers have moved. -/
theorem State.accept_effect (u : State) (k tag : Nat) (entry : List Byte) :
    let t := u.accept k tag entry
    let c := t.hq.cmds.get tag
    (c.live = true ∧ c.raw = padTo 64 entry ∧ c.sqid = k % 64 ∧ c.fn = fnOf (k / 64) ∧ c.cid = leAt (padTo 64 entry) 2 2
        ∧ c.cqid = (u.hq.sqs.get k).cqid)
      ∧ (t.hq.sqs.get k).head = ((u.hq.sqs.get k).head + 1) % (u.hq.sqs.get k).size ∧ (∀ j, j ≠ k → t.hq.sqs.get j = u.hq.sqs.get j)
      ∧ u.OnlyTag t tag
      ∧ u.WritesIn t (· ∈ [keyOf Reg.HOSTQ_EVENT_GEN_REJECT Pg.hostq, keyOf Reg.ARRAY_STALE_CMDS Pg.array]) := by
  obtain ⟨hget, hhead, hother, hone, hreg⟩ := u.get_taken k tag entry
  -- the entry as it stands in its tag, whether it waits or has failed
  have hdone : ∀ (v : State) (status field : Nat), v.hq = (u.taken k tag entry).hq → status ≠ 0x32 →
      u.WritesIn v (· ∈ [keyOf Reg.HOSTQ_EVENT_GEN_REJECT Pg.hostq, keyOf Reg.ARRAY_STALE_CMDS Pg.array]) →
      (let t := v.finishTag tag status 0 0 field
       let c := t.hq.cmds.get tag
       (c.live = true ∧ c.raw = padTo 64 entry ∧ c.sqid = k % 64 ∧ c.fn = fnOf (k / 64) ∧ c.cid = leAt (padTo 64 entry) 2 2
          ∧ c.cqid = (u.hq.sqs.get k).cqid)
        ∧ (t.hq.sqs.get k).head = ((u.hq.sqs.get k).head + 1) % (u.hq.sqs.get k).size ∧ (∀ j, j ≠ k → t.hq.sqs.get j = u.hq.sqs.get j)
        ∧ u.OnlyTag t tag
        ∧ u.WritesIn t (· ∈ [keyOf Reg.HOSTQ_EVENT_GEN_REJECT Pg.hostq, keyOf Reg.ARRAY_STALE_CMDS Pg.array])) := by
    intro v status field hv h32 hw
    obtain ⟨e1, e2, e3, e4, e5, e6⟩ := v.entry_finishTag tag status 0 0 field
    have hsqs : (v.finishTag tag status 0 0 field).hq.sqs = (u.taken k tag entry).hq.sqs :=
      ((State.finishTag_touches v tag status 0 0 field).same .hqSqs (by decide)).trans (by rw [hv])
    rw [hv, hget] at e1 e2 e3 e4 e5 e6
    refine ⟨⟨e1, e2, e3, e4, e5, e6⟩, by rw [hsqs]; exact hhead, fun j hj => by rw [hsqs]; exact hother j hj, fun g hg => ?_, ?_⟩
    · rw [State.onlyTag_finishTag v tag status 0 0 field g hg, hv, hone g hg]
    · exact hw.of_regs (v.writesIn_finishTag tag 0 0 field h32)
  have hw0 : u.WritesIn (u.taken k tag entry) (· ∈ [keyOf Reg.HOSTQ_EVENT_GEN_REJECT Pg.hostq, keyOf Reg.ARRAY_STALE_CMDS Pg.array]) :=
    .of_regs (.refl u _) hreg
  rw [u.accept_eq k tag entry]
  dsimp only
  split
  · rw [hget]
    exact ⟨⟨rfl, rfl, rfl, rfl, rfl, rfl⟩, hhead, hother, hone, hw0⟩
  split
  · refine hdone _ _ _ ?_ (by decide) (State.WritesIn.raise (State.WritesIn.count hw0 (by simp)) (by simp))
    rw [State.raise, noteRise_hq]
    rfl
  · next h1 h2 =>
    have h32 : (u.fetchStatus (u.cmdOf k entry) (u.dupOf k entry)).1 ≠ 0x32 := by
      unfold State.fetchStatus
      dsimp only
      split
      · decide
      split
      · decide
      split
      · exact (by decide : 2 ≠ 0x32)
      · exact (by decide : 0 ≠ 0x32)
    exact hdone _ _ _ rfl h32 hw0

/-- What a fetched command becomes, by the checks of its bytes. -/
theorem State.accept_status {u : State} {k tag : Nat} {entry : List Byte} {st : Nat × Nat} (hst : u.fetchStatus (u.cmdOf k entry) (u.dupOf k entry) = st) :
    (st.1 = 0 → ((u.accept k tag entry).hq.cmds.get tag).stage = .waiting)
      ∧ (st.1 ≠ 0 → st.1 ≠ 0x10 → leAt (padTo 64 entry) 0 1 ≠ 0x28 → (u.accept k tag entry).completed tag st.1 0 0)
      ∧ (st.1 = 0x10 → leAt (padTo 64 entry) 0 1 ≠ 0x28 → (u.accept k tag entry).completed tag 0x10 0 0
          ∧ (u.accept k tag entry).fld Pg.hostq Reg.HOSTQ_EVENT_GEN_REJECT = 1
          ∧ (u.accept k tag entry).fld Pg.array Reg.ARRAY_STALE_CMDS = min (u.fld Pg.array Reg.ARRAY_STALE_CMDS + 1) (2 ^ 32 - 1)) := by
  obtain ⟨hget, -, -, -, hreg⟩ := u.get_taken k tag entry
  have heq := u.accept_eq k tag entry
  rw [hst] at heq
  dsimp only at heq
  refine ⟨fun h => ?_, fun h h' hop => ?_, fun h hop => ?_⟩
  · rw [heq, if_pos h, hget]
    rfl
  · rw [heq, if_neg h, if_neg h']
    exact State.completed_finishTag _ _ _ _ (by rw [hget]; rfl) (by rw [hget]; exact Stage.noConfusion) (by rw [hget]; exact hop)
  · rw [heq, if_neg (by omega), if_pos h]
    generalize hv : ((u.taken k tag entry).count Pg.array Reg.ARRAY_STALE_CMDS).raise Pg.hostq Reg.HOSTQ_EVENT_GEN_REJECT = v
    have hvq : v.hq.cmds.get tag = u.cmdOf k entry := by rw [← hv, State.raise, noteRise_hq]; exact hget
    have hvr := v.writesIn_finishTag tag 0 0 8 (status := 0x10) (by decide)
    refine ⟨State.completed_finishTag _ _ _ _ (by rw [hvq]; rfl) (by rw [hvq]; exact Stage.noConfusion) (by rw [hvq]; exact hop), ?_, ?_⟩
    · rw [State.fld_congr hvr, ← hv, State.fld_raise_same _ _ _ (by decide) rfl]
    · rw [State.fld_congr hvr, ← hv, State.fld_raise_ne _ _ _ _ _ (by decide) (.inl (by decide)), State.fld_count_same _ _ _ (by decide),
        State.fld_congr hreg]

theorem hqPage_off {f : Fld} {fn : Fn} (h : f.off < 0x1000) : onPages [Pg.hostq] (keyOf f (hqPage fn)) := by
  simp only [onPages, hqPage, keyOf, Pg.hostq, List.mem_singleton]
  omega

/-- The register of a queue's fault bit. -/
def faultFld (k : Nat) : Fld := if k % 64 < 32 then Reg.HOSTQ_SQ_FAULT_LO else Reg.HOSTQ_SQ_FAULT_HI

theorem faultFld_off (k : Nat) : (faultFld k).off < 0x1000 ∧ (faultFld k).off ≠ 0x010 ∧ (faultFld k).lo = 0 ∧ (faultFld k).width = 32 := by
  unfold faultFld
  split <;> decide

/-- A failed read stops its queue and shows it. -/
theorem State.sqFault_effect (u : State) (k : Nat) :
    ((u.sqFault k).hq.sqs.get k).fault = true ∧ ((u.sqFault k).hq.sqs.get k).head = (u.hq.sqs.get k).head
      ∧ (u.sqFault k).fld Pg.hostq Reg.HOSTQ_EVENT_SQ_FAULT = 1
      ∧ ((u.sqFault k).fld (hqPage (fnOf (k / 64))) (faultFld k)).testBit (k % 32) = true
      ∧ u.WritesIn (u.sqFault k) (onPages [Pg.hostq]) := by
  obtain ⟨hoff, hne, hlo, hwd⟩ := faultFld_off k
  generalize hn : (u.hq.avail.filter fun e => decide (e.1 = k)).length = n
  generalize hp : hqPage (fnOf (k / 64)) = p
  have heq : u.sqFault k = ((u.putSq k { u.hq.sqs.get k with fault := true, late := n }).setFld p (faultFld k)
      (u.fld p (faultFld k) ||| 2 ^ (k % 32))).raise Pg.hostq Reg.HOSTQ_EVENT_SQ_FAULT := by rw [← hn, ← hp]; rfl
  have hsq : (u.sqFault k).hq.sqs = u.hq.sqs.put k { u.hq.sqs.get k with fault := true, late := n } := by
    rw [heq, State.raise, noteRise_hq]
    rfl
  refine ⟨by rw [hsq, Tbl.get_put_same], by rw [hsq, Tbl.get_put_same], ?_, ?_, ?_⟩
  · rw [heq]; exact State.fld_raise_same _ _ _ (by decide) rfl
  · rw [heq, State.fld_raise_ne _ _ _ _ _ (by omega) (.inl (keyOf_ne_of_off hoff (by decide) hne)), State.fld_setFld_same _ _ _ _ (by omega), hwd,
      Nat.testBit_mod_two_pow, Nat.testBit_or, Nat.testBit_two_pow_self]
    simp [Nat.mod_lt k (show 0 < 32 by decide)]
  · rw [heq]
    have h0 : u.WritesIn (u.putSq k { u.hq.sqs.get k with fault := true, late := n }) (onPages [Pg.hostq]) := .of_regs (.refl u _) rfl
    exact State.WritesIn.raise (h0.setFld _ (hp ▸ hqPage_off hoff)) (onPages_single (by decide) (by decide))

/-- Settles O16: the entry that arbitration chooses is accepted, fails its checks or its read, or waits for a tag. -/
theorem commandFetched : Obligations.CommandFetched := by
  unfold Obligations.CommandFetched
  refine ⟨fun s tag k entry hks hk ht hl hkind => ?entry, fun s tag k hks hk => ?failure, fun s tag entry hne hio hfree => ?pause⟩
  case entry =>
    have heq := State.fetch_of_entry (entry := entry) hks hk ht hl hkind
    obtain ⟨hpq, hpw⟩ := s.notePause_effect
    have hpt := s.notePause_touches
    have hat := s.notePause.arbitrate_touches (s.readyQueues.filter s.tagFor)
    have hut := State.Touches.step (hpt.mono (l' := .regs :: .ctlLatches :: hqParts) rfl) hat rfl
    have hsq : (s.notePause.setHq (s.notePause.arbitrate (s.readyQueues.filter s.tagFor)).2).hq.sqs = s.hq.sqs :=
      (hat.same .hqSqs (by decide)).trans (hpt.same .hqSqs (by decide))
    have hcm : (s.notePause.setHq (s.notePause.arbitrate (s.readyQueues.filter s.tagFor)).2).hq.cmds = s.hq.cmds :=
      (hat.same .hqCmds (by decide)).trans (hpt.same .hqCmds (by decide))
    have hur : s.WritesIn (s.notePause.setHq (s.notePause.arbitrate (s.readyQueues.filter s.tagFor)).2)
        (· = keyOf Reg.HOSTQ_EVENT_TAGS_EXHAUSTED Pg.hostq) := hpw.of_regs rfl
    generalize s.notePause.setHq (s.notePause.arbitrate (s.readyQueues.filter s.tagFor)).2 = u at *
    have harr : ∀ f, u.fld Pg.array f = s.fld Pg.array f := fun f => hur.fld (by simp only [keyOf, Pg.array, Pg.hostq]; omega)
    obtain ⟨⟨e1, e2, e3, e4, e5, e6⟩, hhead, hother, hone, hw⟩ := u.accept_effect k tag entry
    have hfs := u.fetchStatus_cases (u.cmdOf k entry) (u.dupOf k entry)
    have hall := State.Touches.step hut (u.accept_touches k tag entry) rfl
    rw [hsq] at e6 hhead
    rw [← heq] at e1 e2 e3 e4 e5 e6 hhead hother hone hw hall
    have hexempt : ∀ c, exemptOps.contains c = false → c ≠ 0x28 := by rintro c h rfl; exact absurd h (by decide)
    have hknown : ∀ c, knownOps.contains c = false → c ≠ 0x28 := by rintro c h rfl; exact absurd h (by decide)
    refine ⟨_, rfl, e1, e2, e3, e4, e5, e6, hhead, fun h => ?_, fun hok hpf hkd => ⟨fun he hf => ?_, fun hgen => ⟨fun hb => ?_, fun hb hop => ?_⟩⟩,
      fun g hg => by rw [hone g hg, hcm], fun j hj => by rw [hother j hj, hsq], hall.eq_mix, ?_, hall.keepsBytes rfl⟩
    · rw [heq]
      exact (State.accept_status (hfs.1 h)).2.1 (by decide) (by decide) (hknown _ h)
    · have hst := ((hfs.2 hok hkd hpf).1 he (by rw [State.on, harr]; exact hf))
      rw [heq, ← harr]
      exact (State.accept_status hst).2.2 rfl (hexempt _ he)
    · have hgen' := (hfs.2 hok hkd hpf).2 (by rw [State.on, harr, harr]; exact hgen)
      rw [heq]
      exact (State.accept_status (hgen'.1 (hb _))).1 rfl
    · have hgen' := (hfs.2 hok hkd hpf).2 (by rw [State.on, harr, harr]; exact hgen)
      obtain ⟨f, hf⟩ := Option.isSome_iff_exists.1 (hb (u.dupOf k entry))
      rw [heq]
      exact (State.accept_status (hgen'.2 f hf)).2.1 (show 2 ≠ 0 by decide) (show 2 ≠ 0x10 by decide) hop
    · refine State.WritesIn.keepsRegs (State.WritesIn.trans (hur.mono ?_) hw)
      rintro a rfl
      exact .head _
  case failure =>
    have heq := State.fetch_of_failure (tag := tag) hks hk
    obtain ⟨hpq, hpw⟩ := s.notePause_effect
    have hpt := s.notePause_touches
    have hat := s.notePause.arbitrate_touches (s.readyQueues.filter s.tagFor)
    have hut := State.Touches.step (hpt.mono (l' := .regs :: .ctlLatches :: hqParts) rfl) hat rfl
    have hsq : (s.notePause.setHq (s.notePause.arbitrate (s.readyQueues.filter s.tagFor)).2).hq.sqs = s.hq.sqs :=
      (hat.same .hqSqs (by decide)).trans (hpt.same .hqSqs (by decide))
    have hcm : (s.notePause.setHq (s.notePause.arbitrate (s.readyQueues.filter s.tagFor)).2).hq.cmds = s.hq.cmds :=
      (hat.same .hqCmds (by decide)).trans (hpt.same .hqCmds (by decide))
    have hav : (s.notePause.setHq (s.notePause.arbitrate (s.readyQueues.filter s.tagFor)).2).hq.avail = s.hq.avail :=
      (hat.same .hqAvail (by decide)).trans (hpt.same .hqAvail (by decide))
    have hur : s.WritesIn (s.notePause.setHq (s.notePause.arbitrate (s.readyQueues.filter s.tagFor)).2)
        (· = keyOf Reg.HOSTQ_EVENT_TAGS_EXHAUSTED Pg.hostq) := hpw.of_regs rfl
    generalize s.notePause.setHq (s.notePause.arbitrate (s.readyQueues.filter s.tagFor)).2 = u at *
    obtain ⟨h1, h2, h3, h4, h5⟩ := u.sqFault_effect k
    have hft := u.sqFault_touches k
    have hall := State.Touches.step hut hft rfl
    refine ⟨_, congrArg Host.Outcome.next heq, h1, by rw [h2, hsq], (hft.same .hqAvail (by decide)).trans hav, (hft.same .hqCmds (by decide)).trans hcm,
      h3, h4, hall.eq_mix, State.WritesIn.keepsPages (State.WritesIn.trans (hur.mono ?_) h5), hall.keepsBytes rfl⟩
    rintro a rfl
    exact onPages_single (by decide) (by decide)
  case pause =>
    have hno : s.readyQueues.filter s.tagFor = [] := List.filter_eq_nil_iff.2 fun k hk => by
      simp [State.tagFor, State.tagKind, hio k hk, hfree]
    have hp : s.pauses = (true, false) := by
      obtain ⟨k, hk⟩ := List.exists_mem_of_ne_nil _ hne
      have h1 : (s.readyQueues.any fun k => decide (k % 64 ≠ 0)) = true := List.any_eq_true.2 ⟨k, hk, decide_eq_true (hio k hk)⟩
      have h2 : (s.readyQueues.any fun k => decide (k % 64 = 0)) = false := List.any_eq_false.2 fun k hk => by simpa using hio k hk
      rw [State.pauses, h1, h2, hfree]
      simp
    have heq := (State.fetch_of_pause tag entry hno).trans s.notePause_eq
    obtain ⟨hq, hw⟩ := s.notePause_effect
    rw [hp] at heq hq
    rw [← State.fetch_of_pause tag entry hno] at hq hw
    have hall := s.notePause_touches.mono (l' := .regs :: .ctlLatches :: hqParts) rfl
    rw [← State.fetch_of_pause tag entry hno] at hall
    refine ⟨_, rfl, fun h => ?_, fun h => ?_, ?_, hw.keepsReg, hall.keepsBytes rfl⟩
    · rw [heq, h]
      exact State.fld_raise_same _ _ _ (by decide) rfl
    · rw [heq, h]
      rfl
    · have hmix : s.fetch tag entry = { s.regsOf (s.fetch tag entry) with hq := (s.fetch tag entry).hq } := hall.eq_mix
      rw [hq] at hmix
      exact hmix

end Sys2Proof.Machine
end

section
/-! SUPPORT and PROOFS. Commands that end by their number; saves of the retained settings (R70 to R76). -/

set_option Elab.async false

namespace Sys2Proof.Machine

/-! ### A command that ends by its number -/

theorem State.finish_regs (s : State) (uid result detail : Nat) {status : Nat} (h : status ≠ 0x32) : (s.finish uid status result detail).regs = s.regs := by
  unfold State.finish
  dsimp only
  split
  · exact (State.writesIn_finishTag _ _ _ _ _ h).trans rfl
  · rfl

theorem State.finish?_regs (s : State) (cmd : Option Nat) (result detail : Nat) {status : Nat} (h : status ≠ 0x32) :
    (s.finish? cmd status result detail).regs = s.regs := by
  unfold State.finish?
  split
  · exact s.finish_regs _ _ _ h
  · rfl

/-- The command that the number names completes, in any state that holds the commands as before. -/
theorem State.ends_finish {s v : State} (h : v.hq.cmds = s.hq.cmds) (uid status result detail : Nat) :
    s.ends (v.finish uid status result detail) uid status result detail := by
  intro tag htag hlive _ hstage hop
  have htag' : (v.setHq { v.hq with ghosts := v.hq.ghosts.filter fun c => decide (c.uid ≠ uid) }).tagOf uid = some tag := by
    rw [← htag]
    exact congrArg (fun c => (List.find? _ c).map _) h
  unfold State.finish
  simp only [htag']
  rw [← h] at hlive hstage hop
  exact State.completed_finishTag _ _ _ _ hlive hstage hop

/-- What follows without the command table leaves the end of a command. -/
theorem State.ends_of_cmds {s t u : State} {uid status result detail : Nat} (h : s.ends t uid status result detail) (hu : u.hq.cmds = t.hq.cmds) :
    s.ends u uid status result detail := fun tag h1 h2 h3 h4 h5 => by
  unfold State.completed
  rw [hu]
  exact h tag h1 h2 h3 h4 h5

/-- So does an operation before it that leaves the commands. -/
theorem State.ends_from {s s' t : State} {uid status result detail : Nat} (h : s'.ends t uid status result detail) (hs : s'.hq.cmds = s.hq.cmds) :
    s.ends t uid status result detail := fun tag h1 => by
  rw [← hs]
  refine h tag ?_
  rw [← h1]
  exact congrArg (fun c => (List.find? _ c).map _) hs

/-! ### The image of a save -/

/-- An image is made of the registers and of the banks. -/
theorem State.capture_congr {s t : State} (hr : t.regs = s.regs) (hm : t.rsm = s.rsm) (cause seq : Nat) : t.capture cause seq = s.capture cause seq := by
  have hfr : t.frameNow = s.frameNow := by rw [State.frameNow, State.fld64, State.fld_congr hr, State.fld_congr hr, ← State.fld64, ← State.frameNow]
  have hbank : ∀ kept, t.bankEntry kept = s.bankEntry kept := fun kept => funext fun e => by
    unfold State.bankEntry State.retained State.domainOff
    simp only [State.fld_congr hr, State.rd_congr hr]
  unfold State.capture
  simp only [State.on_congr hr, hfr, hm, State.fld_congr hr, hbank]

theorem State.requestSave_of_idle {s : State} (cause : Nat) (cmds : List Nat) (h : s.rsm.running = none) :
    s.requestSave cause cmds = s.startSave ⟨cause, cmds, none⟩ := by
  unfold State.requestSave
  simp only [h]

theorem State.requestSave_of_free {s : State} (cause : Nat) (cmds : List Nat) (h : s.rsm.running.isSome = true) (hh : s.rsm.held = none) :
    s.requestSave cause cmds = { s with rsm := { s.rsm with held := some ⟨cause, cmds, none⟩ } } := by
  obtain ⟨r, hr⟩ := Option.isSome_iff_exists.1 h
  unfold State.requestSave
  simp only [hr, hh]

theorem State.requestSave_of_held {s : State} {q : SaveReq} (cause : Nat) (cmds : List Nat) (h : s.rsm.running.isSome = true)
    (hh : s.rsm.held = some q) :
    s.requestSave cause cmds = ({ s with rsm := { s.rsm with held := some { q with cmds := q.cmds ++ cmds } } } : State).raise Pg.rstore
      Reg.RSTORE_EVENT_SAVE_COALESCED := by
  obtain ⟨r, hr⟩ := Option.isSome_iff_exists.1 h
  unfold State.requestSave
  simp only [hr, hh]

/-- What a request makes of the banks and of the saves that run or wait. -/
theorem State.requestSave_effect (s : State) (cause : Nat) (cmds : List Nat) :
    (s.rsm.running = none → (s.requestSave cause cmds).rsm = { s.rsm.setBank s.rsm.target [] with
        running := some (⟨cause, cmds, none⟩, s.rsm.target, s.rsm.seq + 1, s.capture cause (s.rsm.seq + 1)) }
        ∧ (s.requestSave cause cmds).regs = s.regs)
      ∧ (s.rsm.running.isSome = true → s.rsm.held = none → (s.requestSave cause cmds).rsm = { s.rsm with held := some ⟨cause, cmds, none⟩ }
          ∧ (s.requestSave cause cmds).regs = s.regs)
      ∧ (∀ h, s.rsm.running.isSome = true → s.rsm.held = some h →
          (s.requestSave cause cmds).rsm = { s.rsm with held := some { h with cmds := h.cmds ++ cmds } }
          ∧ (s.requestSave cause cmds).fld Pg.rstore Reg.RSTORE_EVENT_SAVE_COALESCED = 1) := by
  refine ⟨fun h => ?_, fun h hh => ?_, fun q h hh => ?_⟩
  · rw [State.requestSave_of_idle cause cmds h]
    exact ⟨rfl, rfl⟩
  · rw [State.requestSave_of_free cause cmds h hh]
    exact ⟨rfl, rfl⟩
  · rw [State.requestSave_of_held cause cmds h hh]
    exact ⟨State.raise_rsm .., State.fld_raise_same _ _ _ (by decide) rfl⟩

/-! ### The writes of CTRL -/

theorem writeRstoreCtrl_of_accepts {s : State} {r : Req} {v : Word} (h : s.accepts r Pg.rstore 0x008 v = true) :
    writeRstoreCtrl r v s =
      if wmSet v Reg.RSTORE_CTRL_ERASE && !s.quiet then s.reject Pg.rstore
      else
        let s1 := s.setFld Pg.rstore Reg.RSTORE_CTRL_ENABLE (wfld (s.written r Pg.rstore 0x008 v) Reg.RSTORE_CTRL_ENABLE)
        let s2 : State := if wmSet v Reg.RSTORE_CTRL_ERASE then { s1 with rsm := { s1.rsm with bank0 := [], bank1 := [] } } else s1
        if wmSet v Reg.RSTORE_CTRL_SAVE then s2.requestSave 1 [] else s2 := by
  rw [writeRstoreCtrl, withWrite_of_accepts _ h]

/-! ### A save that ends -/

theorem Rsm.setBank_held (m : Rsm) (b : Nat) (img : List Byte) : (m.setBank b img).held = m.held := by unfold Rsm.setBank; split <;> rfl

theorem Rsm.setBank_writes (m : Rsm) (b : Nat) (img : List Byte) : (m.setBank b img).writes = m.writes := by unfold Rsm.setBank; split <;> rfl

/-- A save ended, with its image in its bank or none there, before the commands it serves complete. -/
def State.saveClosed (s : State) (b : Nat) (img : List Byte) (ok : Bool) : State :=
  let s1 : State := { s with rsm := { s.rsm with running := none } }
  if ok then
    (((({ s1 with rsm := s1.rsm.setBank b img } : State).count Pg.rstore Reg.RSTORE_SAVE_COUNT).setFld Pg.global
      Reg.GLOBAL_STATE_FACTORY 0).raise Pg.rstore Reg.RSTORE_EVENT_SAVE_DONE)
  else (s1.count Pg.rstore Reg.RSTORE_FAIL_COUNT).raise Pg.rstore Reg.RSTORE_EVENT_SAVE_FAIL

/-- The RESULT of a save. -/
def SaveReq.result (q : SaveReq) (seq : Nat) : Nat := match q.image with | some b => b.length | none => seq % 2 ^ 32

/-- The commands that a save serves complete. -/
def State.savesEnd (s : State) (cmds : List Nat) (ok : Bool) (n : Nat) : State :=
  cmds.foldl (fun s u => if ok then s.finish u 0 n 0 else s.finish u 0x30 0 0) s

theorem State.endSave_of_running {s : State} {q : SaveReq} {b seq : Nat} {img : List Byte} (ok : Bool) (h : s.rsm.running = some (q, b, seq, img)) :
    s.endSave ok = ((s.saveClosed b img ok).savesEnd q.cmds ok (q.result seq)).nextSave := by
  unfold State.endSave
  simp only [h]
  rfl

theorem State.savesEnd_touches (s : State) (cmds : List Nat) (ok : Bool) (n : Nat) :
    s.Touches (s.savesEnd cmds ok n) [.regs, .ctlLatches, .hqCmds, .hqGhosts, .hqErrors, .hqErrCount0, .hqErrCount1] :=
  .foldl (.refl s _) (fun _ _ => .ite (State.finish_touches ..) (State.finish_touches ..)) _

theorem State.savesEnd_regs (s : State) (cmds : List Nat) (ok : Bool) (n : Nat) : (s.savesEnd cmds ok n).regs = s.regs := by
  unfold State.savesEnd
  refine List.foldlRecOn cmds _ (motive := fun t : State => t.regs = s.regs) rfl fun t ht u _ => ?_
  rw [← ht]
  split
  · exact t.finish_regs u _ _ (by decide)
  · exact t.finish_regs u _ _ (by decide)

theorem State.saveClosed_effect (s : State) (b : Nat) (img : List Byte) (ok : Bool) :
    (s.saveClosed b img ok).rsm = { (if ok then s.rsm.setBank b img else s.rsm) with running := none }
      ∧ (ok = true → (s.saveClosed b img ok).fld Pg.rstore Reg.RSTORE_SAVE_COUNT = min (s.fld Pg.rstore Reg.RSTORE_SAVE_COUNT + 1) (2 ^ 32 - 1)
          ∧ (s.saveClosed b img ok).fld Pg.global Reg.GLOBAL_STATE_FACTORY = 0
          ∧ (s.saveClosed b img ok).fld Pg.rstore Reg.RSTORE_EVENT_SAVE_DONE = 1)
      ∧ (ok = false → (s.saveClosed b img ok).fld Pg.rstore Reg.RSTORE_FAIL_COUNT = min (s.fld Pg.rstore Reg.RSTORE_FAIL_COUNT + 1) (2 ^ 16 - 1)
          ∧ (s.saveClosed b img ok).fld Pg.rstore Reg.RSTORE_EVENT_SAVE_FAIL = 1)
      ∧ s.WritesIn (s.saveClosed b img ok) (onPages [Pg.rstore, Pg.global]) ∧ (s.saveClosed b img ok).hq = s.hq := by
  have hpage : ∀ f : Fld, f.off < 0x1000 → onPages [Pg.rstore, Pg.global] (keyOf f Pg.rstore) ∧ onPages [Pg.rstore, Pg.global] (keyOf f Pg.global) :=
    fun f hf => ⟨onPages_keyOf hf (by decide), onPages_keyOf hf (by decide)⟩
  have hbank : ∀ m : Rsm, ({ m with running := none } : Rsm).setBank b img = { m.setBank b img with running := none } := fun m => by
    unfold Rsm.setBank; split <;> rfl
  unfold State.saveClosed
  dsimp only
  cases ok with
  | true =>
    simp only [if_true]
    rw [hbank]
    have h0 : s.WritesIn ({ s with rsm := { s.rsm.setBank b img with running := none } } : State) (onPages [Pg.rstore, Pg.global]) := .of_regs (.refl s _) rfl
    refine ⟨?_, fun _ => ⟨?_, ?_, State.fld_raise_same _ _ _ (by decide) rfl⟩, fun h => absurd h (by decide), ?_, ?_⟩
    · rw [State.raise_rsm]; rfl
    · rw [State.fld_raise_ne _ _ _ _ _ (by decide) (.inl (by decide)), State.fld_setFld_ne _ _ _ _ _ _ (by decide) (.inl (by decide)),
        State.fld_count_same _ _ _ (by decide)]
      rfl
    · rw [State.fld_raise_ne _ _ _ _ _ (by decide) (.inl (by decide)), State.fld_setFld_same _ _ _ _ (by decide)]
      rfl
    · exact State.WritesIn.raise (State.WritesIn.setFld (h0.count (hpage _ (by decide)).1) _ (hpage _ (by decide)).2) (hpage _ (by decide)).1
    · rw [State.raise, noteRise_hq]; rfl
  | false =>
    simp only [Bool.false_eq_true, if_false]
    have h0 : s.WritesIn ({ s with rsm := { s.rsm with running := none } } : State) (onPages [Pg.rstore, Pg.global]) := .of_regs (.refl s _) rfl
    refine ⟨?_, fun h => absurd h (by decide), fun _ => ⟨?_, State.fld_raise_same _ _ _ (by decide) rfl⟩, ?_, ?_⟩
    · rw [State.raise_rsm]; rfl
    · rw [State.fld_raise_ne _ _ _ _ _ (by decide) (.inl (by decide)), State.fld_count_same _ _ _ (by decide)]
      rfl
    · exact State.WritesIn.raise (h0.count (hpage _ (by decide)).1) (hpage _ (by decide)).1
    · rw [State.raise, noteRise_hq]; rfl

/-- Settles O14: a request starts a save, is held or merges; ERASE; and how a save ends. -/
theorem saves : Obligations.Saves := by
  unfold Obligations.Saves
  refine ⟨fun s tag hst => ?command, fun s r v ha hsave herase => ?save, fun s r v ha herase hsave hph hmode => ?erase, fun s r v ha herase hq => ?refused,
    fun s q b seq img ok hrun => ?ended⟩
  case command =>
    have heq := withCmd_of_starts (fun c s => s.requestSave 1 [c.uid]) hst
    generalize hc : ({ s.hq.cmds.get tag with stage := .running, len := 0 } : Cmd) = c at heq
    have hcu : c.uid = (s.hq.cmds.get tag).uid := by rw [← hc]
    have hcs : c.stage = .running := by rw [← hc]
    have hput : s.Touches (s.putCmd tag c) [.hqCmds] := State.putCmd_touches s tag c (by rw [← hc]; exact ⟨rfl, id⟩)
    have hget : (s.putCmd tag c).hq.cmds.get tag = c := Tbl.get_put_same _ _ _
    have hcap := State.capture_congr (s := s) (t := s.putCmd tag c) rfl rfl 1 (s.rsm.seq + 1)
    have hto := State.requestSave_touches (s.putCmd tag c) 1 [c.uid]
    have hall := State.Touches.step (hput.mono (l' := [.hqCmds, .regs, .ctlLatches, .rsmBank0, .rsmBank1, .rsmRunning, .rsmHeld, .rsmWrites]) rfl) hto rfl
    obtain ⟨h1, h2, h3⟩ := (s.putCmd tag c).requestSave_effect 1 [c.uid]
    have hw := (s.putCmd tag c).writesIn_requestSave 1 [c.uid]
    rw [show (s.putCmd tag c).rsm = s.rsm from rfl, hcap, hcu] at h1
    rw [show (s.putCmd tag c).rsm = s.rsm from rfl, hcu] at h2 h3
    rw [hcu] at hw hall hto
    rw [hcu] at heq
    refine ⟨_, congrArg Host.Outcome.next heq, h1, h2, h3, ?_, hall.eq_mix, ?_, hall.keepsBytes rfl⟩
    · rw [hto.same .hqCmds (by decide), hget, hcs]
    · exact (State.WritesIn.of_regs (t := s) (.refl s _) rfl |>.trans hw).keepsReg
  case save =>
    have heq := writeRstoreCtrl_of_accepts ha
    rw [herase, hsave] at heq
    simp only [Bool.false_and, Bool.false_eq_true, if_false, if_true] at heq
    generalize wfld (s.written r Pg.rstore 0x008 v) Reg.RSTORE_CTRL_ENABLE = n at heq
    have hto := State.requestSave_touches (s.setFld Pg.rstore Reg.RSTORE_CTRL_ENABLE n) 1 []
    have hall := State.Touches.step ((s.setFld_touches Pg.rstore Reg.RSTORE_CTRL_ENABLE n).mono
      (l' := [.regs, .ctlLatches, .rsmBank0, .rsmBank1, .rsmRunning, .rsmHeld, .rsmWrites]) rfl) hto rfl
    obtain ⟨h1, h2, h3⟩ := (s.setFld Pg.rstore Reg.RSTORE_CTRL_ENABLE n).requestSave_effect 1 []
    have hw := (s.setFld Pg.rstore Reg.RSTORE_CTRL_ENABLE n).writesIn_requestSave 1 []
    refine ⟨_, congrArg Host.Outcome.next heq, fun h => ?_, fun h hh => (h2 h hh).1, fun q h hh => ?_, hall.eq_mix, ?_, hall.keepsBytes rfl⟩
    · obtain ⟨e1, e2⟩ := h1 h
      rw [e1, e2]
      rfl
    · obtain ⟨e1, e2⟩ := h3 q h hh
      refine ⟨?_, e2⟩
      rw [e1, List.append_nil]
      exact congrArg (fun x => { s.rsm with held := x }) hh.symm
    · exact State.WritesIn.keepsRegs (State.WritesIn.trans (.setFld (.refl s _) _ (by simp)) (hw.mono fun a ha => by simp [ha]))
  case erase =>
    have hquiet : s.quiet = true := by
      unfold State.quiet
      rw [hph]
      rcases hmode with h | h <;> rw [h] <;> rfl
    have heq := writeRstoreCtrl_of_accepts ha
    rw [herase, hsave, hquiet] at heq
    simp only [Bool.not_true, Bool.and_false, Bool.false_eq_true, if_false, if_true] at heq
    generalize wfld (s.written r Pg.rstore 0x008 v) Reg.RSTORE_CTRL_ENABLE = n at heq
    refine ⟨_, congrArg Host.Outcome.next heq, rfl, rfl, ?_, State.KeepsBytes.of_same rfl rfl rfl rfl⟩
    exact State.WritesIn.keepsReg (State.WritesIn.of_regs (t := s.setFld Pg.rstore Reg.RSTORE_CTRL_ENABLE n) (.setFld (.refl s _) _ rfl) rfl)
  case refused =>
    have heq := writeRstoreCtrl_of_accepts ha
    rw [herase, hq] at heq
    simp only [Bool.not_false, Bool.and_self, if_true] at heq
    exact ⟨_, congrArg Host.Outcome.next heq, s.rejected_reject _⟩
  case ended =>
    have heq := State.endSave_of_running ok hrun
    obtain ⟨h1, h2, h3, h4, h5⟩ := s.saveClosed_effect b img ok
    have hall := s.endSave_touches ok
    generalize s.saveClosed b img ok = u at *
    have het := u.savesEnd_touches q.cmds ok (q.result seq)
    have her := u.savesEnd_regs q.cmds ok (q.result seq)
    have hends : ∀ c, q.cmds = [c] → if ok then s.ends (u.savesEnd q.cmds ok (q.result seq)) c 0 (q.result seq) 0
        else s.ends (u.savesEnd q.cmds ok (q.result seq)) c 0x30 0 0 := fun c hc => by
      rw [hc]
      cases ok with
      | true => exact State.ends_finish (by rw [h5]) c 0 _ 0
      | false => exact State.ends_finish (by rw [h5]) c 0x30 0 0
    have hrsm : (u.savesEnd q.cmds ok (q.result seq)).rsm = u.rsm := (congrArg State.rsm het.eq_mix).trans rfl
    generalize u.savesEnd q.cmds ok (q.result seq) = y at *
    have hnt := y.nextSave_touches
    have hregs : (s.endSave ok).regs = u.regs := by rw [heq, hnt.same .regs (by decide), her]
    refine ⟨_, rfl, fun hh hw => ?_, fun r hr => ?_, fun hok => ?_, fun hok => ?_, fun c hc => ?_,
      (hall.mono (l' := .regs :: .ctlLatches :: (rsmParts ++ hqParts)) rfl).eq_mix, ?_, hall.keepsBytes rfl⟩
    · have hy : y.nextSave = y := by
        have e1 : y.rsm.held = none := by
          rw [hrsm, h1]
          cases ok with
          | false => exact hh
          | true => exact (s.rsm.setBank_held b img).trans hh
        have e2 : y.rsm.writes = [] := by
          rw [hrsm, h1]
          cases ok with
          | false => exact hw
          | true => exact (s.rsm.setBank_writes b img).trans hw
        unfold State.nextSave
        simp only [e1, e2]
      rw [heq, hy, hrsm, h1]
    · have e1 : y.rsm.held = some r := by
          rw [hrsm, h1]
          cases ok with
          | false => exact hr
          | true => exact (s.rsm.setBank_held b img).trans hr
      have hy : y.nextSave = ({ y with rsm := { y.rsm with held := none } } : State).startSave r := by
        unfold State.nextSave
        simp only [e1]
      rw [heq, hy]
      refine ⟨?_, _, _, _, rfl⟩
      unfold State.startSave Rsm.setBank
      dsimp only
      split <;> rfl
    · obtain ⟨e1, e2, e3⟩ := h2 hok
      rw [State.fld_congr hregs, State.fld_congr hregs, State.fld_congr hregs]
      exact ⟨e1, e2, e3⟩
    · obtain ⟨e1, e2⟩ := h3 hok
      rw [State.fld_congr hregs, State.fld_congr hregs]
      exact ⟨e1, e2⟩
    · have hc' := hends c hc
      have hcm : (s.endSave ok).hq.cmds = y.hq.cmds := by rw [heq]; exact hnt.same .hqCmds (by decide)
      cases ok with
      | true => exact State.ends_of_cmds hc' hcm
      | false => exact State.ends_of_cmds hc' hcm
    · exact (h4.of_regs hregs).keepsPages

end Sys2Proof.Machine
end

section
/-! SUPPORT. What restoring and waking write: the registers of the parts of `State.restoreDone` and `State.wake`. -/

set_option Elab.async false

namespace Sys2Proof.Machine

/-! ### Pages that never go down -/

/-- Whether a page stays on whatever the registers hold: those of the essential domains, the media ports, the recorder and the triggers. -/
def stays (p : Nat) : Bool :=
  essential (pageDomain p) || (match pageBlk p with | some (.media, _) | some (.recorder, _) | some (.trig, _) => true | _ => false)

theorem State.heldOn_of_stays (s : State) {p : Nat} (h : stays p = true) : s.heldOn p = true := by
  unfold stays at h
  unfold State.heldOn State.powerRuns
  cases he : essential (pageDomain p) with
  | true => rfl
  | false =>
    rw [he] at h
    cases hb : pageBlk p with
    | none => simp [hb] at h
    | some x =>
      obtain ⟨b, i⟩ := x
      cases b <;> simp [hb] at h ⊢

/-- The registers that domains following all at once may write. -/
def settleAllMay (a : Nat) : Prop := ∃ p ∈ allPages, stays p = false ∧ settleMay p a

theorem lt_of_mem_allPages {p : Nat} (h : p ∈ allPages) : p < 1024 := by
  obtain ⟨e, he, hp⟩ := List.mem_flatMap.1 h
  obtain ⟨i, hi, rfl⟩ := List.mem_map.1 hp
  have hall : ∀ e ∈ pageMap, e.1 + e.2.1 ≤ 1024 := by decide
  have := hall e he
  have := List.mem_range.1 hi
  omega

theorem State.writesIn_settleAll (s : State) : s.WritesIn s.settleAll settleAllMay := by
  refine .foldl (.refl s _) _ fun u p hp => ?_
  cases h : stays p with
  | true => exact .of_regs (.refl u _) ((State.settle_of_held (u.heldOn_of_stays h)).same .regs (by decide))
  | false => exact (u.writesIn_settle (lt_of_mem_allPages hp)).mono fun a ha => ⟨p, hp, h, ha⟩

/-- Registers out of reach of the domains that follow. -/
theorem not_settleAllMay {f : Fld} {p : Nat} (hf : f.off < 0x1000) (hp : p < 1024) (hk : p ≠ Pg.pwr)
    (h : stays p = true ∨ p ≠ Pg.fstore ∧ f.off < 0x040 ∧ f.off ≠ 0x00C ∧ f.off ≠ 0x024) : ¬ settleAllMay (keyOf f p) := by
  rintro ⟨q, -, hq, ⟨h1, h2⟩ | h2⟩
  · have hqp : q = p := by simp only [keyOf] at h1; omega
    subst hqp
    rcases h with h | ⟨h, h3, h4, h5⟩
    · exact Bool.false_ne_true (hq.symm.trans h)
    · simp only [keyOf] at h2; omega
  · simp only [keyOf, Pg.pwr] at h2 hk; omega

theorem State.writesIn_goUp (s : State) {p : Nat} (hp : p < 1024) : s.WritesIn (s.goUp p) (settleMay p) := by
  have h : ∀ x, s.WritesIn ((s.setPwr x).setFld p Reg.COMMON_PWR_REQ_STATUS 3) (settleMay p) := fun x =>
    .setFld (.of_regs (.refl s _) rfl) _ (settleMay_keyOf hp (by decide) (.inr (.inl rfl)))
  unfold State.goUp
  dsimp only
  generalize { s.pwr with rising := s.pwr.rising.filter (· ≠ p) } = x
  exact .ite ((h x).trans (State.writesIn_refillPage _ hp)) (h x)

/-! ### Outputs and media ports that start -/

/-- The registers of the Loupe engines and the audio ports, beside PWR_REQ. -/
def outputsMay (a : Nat) : Prop := ∃ n < 4, (a / 0x1000 = Pg.loupe n ∨ a / 0x1000 = Pg.aud n) ∧ a % 0x1000 ≠ 0x024

theorem outputsMay_loupe {f : Fld} {n : Nat} (hn : n < 4) (h : f.off < 0x1000 ∧ f.off ≠ 0x024) : outputsMay (keyOf f (Pg.loupe n)) :=
  ⟨n, hn, by simp only [keyOf, Pg.loupe]; omega, by simp only [keyOf, Pg.loupe]; omega⟩

theorem outputsMay_aud {f : Fld} {n : Nat} (hn : n < 4) (h : f.off < 0x1000 ∧ f.off ≠ 0x024) : outputsMay (keyOf f (Pg.aud n)) :=
  ⟨n, hn, by simp only [keyOf, Pg.aud]; omega, by simp only [keyOf, Pg.aud]; omega⟩

theorem State.writesIn_engineStart (s : State) {n : Nat} (hn : n < 4) : s.WritesIn (s.engineStart n) outputsMay := by
  have h0 : ∀ e, s.WritesIn (s.putEngine n e) outputsMay := fun e => .of_regs (.refl s _) rfl
  exact State.WritesIn.setFld (State.WritesIn.setFld64 (h0 _) _ (outputsMay_loupe hn (by decide)) (outputsMay_loupe hn (by decide))) _
    (outputsMay_loupe hn (by decide))

theorem State.writesIn_audStart (s : State) {p : Nat} (hp : p < 4) : s.WritesIn (s.audStart p) outputsMay := by
  have hset : ∀ {u : State} (f : Fld) (v : Nat), s.WritesIn u outputsMay → f.off < 0x1000 ∧ f.off ≠ 0x024 → s.WritesIn (u.setFld (Pg.aud p) f v) outputsMay :=
    fun f v hu hf => hu.setFld v (outputsMay_aud hp hf)
  unfold State.audStart
  dsimp only
  refine State.WritesIn.of_regs ?_ rfl
  have h2 := hset Reg.AUD_STATE_PHASE 1 (hset Reg.AUD_STATE_CLOCK_LOST 0 (hset Reg.AUD_STATE_ROTATED 0 (hset Reg.AUD_ROT_WORDS 0
    (hset Reg.AUD_FRAME_ERRORS 0 (hset Reg.AUD_OVERRUN_WORDS 0 (hset Reg.AUD_UNDERRUN_WORDS 0 (.refl s _) (by decide)) (by decide)) (by decide))
    (by decide)) (by decide)) (by decide)) (by decide)
  have h3 : ∀ {u : State} {c : Prop} [Decidable c] (f : Fld), s.WritesIn u outputsMay → f.off < 0x1000 ∧ f.off ≠ 0x024 →
      s.WritesIn (if c then u else u.setFld (Pg.aud p) f 0) outputsMay := fun f hu hf => .ite hu (hset f 0 hu hf)
  exact h3 _ (h3 _ h2 (by decide)) (by decide)

theorem State.writesIn_outputsStart (s : State) : s.WritesIn s.outputsStart outputsMay := by
  unfold State.outputsStart
  dsimp only
  refine State.WritesIn.foldl (State.WritesIn.foldl (State.WritesIn.foldl (.refl s _) _ fun u n hn => ?_) _ fun u p hp => ?_) _ fun u f _ => ?_
  · exact .ite (u.writesIn_engineStart (List.mem_range.1 hn)) (.refl u _)
  · exact .ite (.refl u _) (.ite (.raise (.refl u _) (outputsMay_aud (List.mem_range.1 hp) (by decide))) (u.writesIn_audStart (List.mem_range.1 hp)))
  · exact .ite (.of_regs (.refl u _) rfl) (.refl u _)

/-- The STATE registers of the media ports. -/
def mediaMay (a : Nat) : Prop := ∃ k < 2, a = keyOf Reg.MEDIA_STATE_PORT (Pg.media k)

theorem State.writesIn_portDown (s : State) (k v : Nat) : s.WritesIn (s.portDown k v) (· = keyOf Reg.MEDIA_STATE_PORT (Pg.media k)) :=
  State.WritesIn.setFld (State.WritesIn.setFld (State.WritesIn.setFld (State.WritesIn.setFld
    (P := (· = keyOf Reg.MEDIA_STATE_PORT (Pg.media k))) (.refl s _) v (p := Pg.media k) (f := Reg.MEDIA_STATE_PORT) rfl) _ (by simp [keyOf])) _
    (by simp [keyOf])) _ (by simp [keyOf])

theorem State.writesIn_mediaStart (s : State) : s.WritesIn s.mediaStart mediaMay :=
  .foldl (.refl s _) _ fun u k hk => (u.writesIn_portDown k _).mono fun _ ha => ⟨k, by simp only [List.mem_cons, List.not_mem_nil, or_false] at hk; omega, ha⟩

theorem State.fld_portDown (s : State) (k v : Nat) (hv : v < 8) : (s.portDown k v).fld (Pg.media k) Reg.MEDIA_STATE_PORT = v := by
  unfold State.portDown State.setMport
  rw [State.fld_setFld_ne _ _ _ _ _ _ (by decide) (.inr (.inr (by decide))), State.fld_setFld_ne _ _ _ _ _ _ (by decide) (.inr (.inr (by decide))),
    State.fld_setFld_ne _ _ _ _ _ _ (by decide) (.inr (.inr (by decide))), State.fld_setFld_of_width _ _ _ _ (by decide) hv]

/-- The enabled media ports train, the others are down. -/
theorem State.fld_mediaStart (s : State) {k : Nat} (hk : k < 2) :
    s.mediaStart.fld (Pg.media k) Reg.MEDIA_STATE_PORT = if s.on (Pg.media k) Reg.MEDIA_CTRL_ENABLE then 1 else 0 := by
  have hbit : ∀ b : Bool, (if b then 1 else 0) < 8 := by decide
  have hne : ∀ (u : State) v, (u.portDown 0 v).on (Pg.media 1) Reg.MEDIA_CTRL_ENABLE = u.on (Pg.media 1) Reg.MEDIA_CTRL_ENABLE := fun u v =>
    congrArg (fun n => decide (n = 1)) ((u.writesIn_portDown 0 v).fld (by decide))
  unfold State.mediaStart
  simp only [List.foldl_cons, List.foldl_nil]
  interval_cases k
  · rw [(State.writesIn_portDown _ 1 _).fld (by decide), State.fld_portDown _ _ _ (hbit _)]
  · rw [State.fld_portDown _ _ _ (hbit _), hne]

/-! ### The images of the control sides -/

/-- The registers that show the images and the active side. -/
def bootKeys : List Nat := [keyOf Reg.SECURITY_EVENT_ROLLBACK Pg.security, keyOf Reg.SECURITY_STATE_NO_IMAGE Pg.security,
  keyOf Reg.CLUSTER_BUILD_A Pg.cluster, keyOf Reg.CLUSTER_BUILD_B Pg.cluster, keyOf Reg.CLUSTER_SVN_SIDES_A Pg.cluster,
  keyOf Reg.CLUSTER_STATE_ACTIVE Pg.cluster, keyOf Reg.GLOBAL_FW_BUILD Pg.global]

theorem State.writesIn_setImage (s : State) (k : Nat) (i : FwImage) : s.WritesIn (s.setImage k i) (· ∈ bootKeys) := by
  have h0 : ∀ f, s.WritesIn (s.setFw f) (· ∈ bootKeys) := fun f => .of_regs (.refl s _) rfl
  unfold State.setImage
  split
  · exact State.WritesIn.setFld (State.WritesIn.setFld (h0 _) _ (by decide)) _ (by decide)
  · exact State.WritesIn.setFld (State.WritesIn.setFld (h0 _) _ (by decide)) _ (by decide)

theorem State.writesIn_activate (s : State) (k : Nat) : s.WritesIn (s.activate k) (· ∈ bootKeys) := by
  have hside : keyOf (sideFld k) Pg.cluster = keyOf Reg.CLUSTER_STATE_ACTIVE Pg.cluster := by unfold sideFld; split <;> rfl
  unfold State.activate
  exact .setFld (State.WritesIn.setFld (State.WritesIn.setFld (P := (· ∈ bootKeys)) (.refl s _) _ (by decide)) _ (by rw [hside]; decide)) _ (by decide)

/-- What is left of the firmware when its images are loaded anew. -/
def State.fwCleared (s : State) : State :=
  (s.raiseIf ([s.fw.flash0, s.fw.flash1].any fun i => i.any fun x => decide (x.svn < s.fld Pg.security Reg.SECURITY_MIN_SVN)) Pg.security
    Reg.SECURITY_EVENT_ROLLBACK).setFw { s.fw with
      a := none, b := none, waiting := none, running := none, failover := false, reports := 0, written := 0, read := 0 }

theorem State.bootFw_of_none {s : State} (h : s.bootImage = none) : s.bootFw = s.fwCleared.setFld Pg.security Reg.SECURITY_STATE_NO_IMAGE 1 := by
  unfold State.bootFw
  simp only [h]
  rfl

theorem State.bootFw_of_some {s : State} {i : FwImage} (h : s.bootImage = some i) :
    s.bootFw = (((s.fwCleared.setImage 0 i).setImage 1 i).setFld Pg.cluster Reg.CLUSTER_STATE_SIDE_B 1).activate 0 := by
  unfold State.bootFw
  simp only [h]
  rfl

theorem State.writesIn_bootFw (s : State) : s.WritesIn s.bootFw (· ∈ bootKeys) := by
  have h0 : s.WritesIn s.fwCleared (· ∈ bootKeys) := .of_regs (.raiseIf (.refl s _) (by decide)) rfl
  cases h : s.bootImage with
  | none => rw [State.bootFw_of_none h]; exact h0.setFld _ (by decide)
  | some i =>
    rw [State.bootFw_of_some h]
    exact ((((h0.trans (State.writesIn_setImage _ 0 i)).trans (State.writesIn_setImage _ 1 i)).setFld _ (by decide))).trans (State.writesIn_activate _ 0)

/-- Both sides hold the image that boots. -/
theorem State.bootFw_fw (s : State) : s.bootFw.fw = { flash0 := s.fw.flash0, flash1 := s.fw.flash1, a := s.bootImage, b := s.bootImage } := by
  cases h : s.bootImage with
  | none => rw [State.bootFw_of_none h]; rfl
  | some i => rw [State.bootFw_of_some h]; rfl

end Sys2Proof.Machine
end

section
/-! PROOFS. Resets, the restore window and what they leave (R55, R70 to R72, R446, R481, R506). -/

set_option Elab.async false

namespace Sys2Proof.Machine

/-! ### A failover -/

theorem State.fld_activate (s : State) {k : Nat} (hk : k < 2) : (s.activate k).fld Pg.cluster Reg.CLUSTER_STATE_ACTIVE = k := by
  have hside : 2 ≤ (sideFld k).lo := by unfold sideFld; split <;> decide
  unfold State.activate
  dsimp only
  rw [State.fld_setFld_ne _ _ _ _ _ _ (by decide) (.inl (by decide)),
    State.fld_setFld_ne _ _ _ _ _ _ (by decide) (.inr (.inr (by exact le_trans (by decide) hside))),
    State.fld_setFld_of_width _ _ _ _ (by decide) (by show k < 2; exact hk)]

/-- The registers of a failover. -/
def failoverMay (a : Nat) : Prop := a / 0x1000 % 1024 = Pg.cluster ∨ a = keyOf Reg.GLOBAL_FW_BUILD Pg.global

theorem failoverMay_boot {k : Nat} {u : State} : u.WritesIn (u.activate k) failoverMay := by
  have hc : ∀ f : Fld, f.off < 0x1000 → failoverMay (keyOf f Pg.cluster) := fun f hf => .inl (by simp only [keyOf, Pg.cluster]; omega)
  have hside : (sideFld k).off < 0x1000 := by unfold sideFld; split <;> decide
  unfold State.activate
  exact .setFld (State.WritesIn.setFld (State.WritesIn.setFld (P := failoverMay) (.refl u _) _ (hc _ (by decide))) _ (hc _ hside)) _ (.inr rfl)

theorem State.doFailover_effect (s : State) :
    s.doFailover.fld Pg.cluster Reg.CLUSTER_STATE_ACTIVE + s.fld Pg.cluster Reg.CLUSTER_STATE_ACTIVE = 1
      ∧ s.doFailover.fw.failover = false ∧ s.WritesIn s.doFailover failoverMay := by
  have hold : s.activeSide = s.fld Pg.cluster Reg.CLUSTER_STATE_ACTIVE := rfl
  have hlt : s.fld Pg.cluster Reg.CLUSTER_STATE_ACTIVE < 2 := s.fld_lt Pg.cluster Reg.CLUSTER_STATE_ACTIVE
  rw [← hold] at hlt ⊢
  have hc : ∀ f : Fld, f.off < 0x1000 → failoverMay (keyOf f Pg.cluster) := fun f hf => .inl (by simp only [keyOf, Pg.cluster]; omega)
  have hside : (sideFld s.activeSide).off < 0x1000 := by unfold sideFld; split <;> decide
  have h1 : s.WritesIn (s.setFld Pg.cluster (sideFld s.activeSide) 3) failoverMay := .setFld (.refl s _) _ (hc _ hside)
  have hv := State.fld_activate (s.setFld Pg.cluster (sideFld s.activeSide) 3) (k := 1 - s.activeSide) (by omega)
  have hvw := h1.trans (failoverMay_boot (k := 1 - s.activeSide))
  have hd : s.doFailover = ((((((s.setFld Pg.cluster (sideFld s.activeSide) 3).activate (1 - s.activeSide)).setFw
    { s.fw with failover := false, waiting := none }).count Pg.cluster Reg.CLUSTER_FAILOVERS).raise Pg.cluster
      Reg.CLUSTER_EVENT_FAILOVER).finish? s.fw.waiting 0x0C 0 0) := rfl
  generalize (s.setFld Pg.cluster (sideFld s.activeSide) 3).activate (1 - s.activeSide) = v at *
  generalize hu : v.setFw { s.fw with failover := false, waiting := none } = u at *
  have hur : u.regs = v.regs := by rw [← hu]; rfl
  have huf : u.fw.failover = false := by rw [← hu]; rfl
  have hact : u.fld Pg.cluster Reg.CLUSTER_STATE_ACTIVE = 1 - s.activeSide := by rw [State.fld_congr hur, hv]
  have hw : s.WritesIn u failoverMay := hvw.of_regs hur
  have heq := hd
  have hfr := State.finish?_regs ((u.count Pg.cluster Reg.CLUSTER_FAILOVERS).raise Pg.cluster Reg.CLUSTER_EVENT_FAILOVER) s.fw.waiting 0 0
    (status := 0x0C) (by decide)
  have hft := State.finish?_touches ((u.count Pg.cluster Reg.CLUSTER_FAILOVERS).raise Pg.cluster Reg.CLUSTER_EVENT_FAILOVER) s.fw.waiting 0x0C 0 0
  refine ⟨?_, ?_, ?_⟩
  · rw [heq, State.fld_congr hfr, State.fld_raise_ne _ _ _ _ _ (by decide) (.inl (by decide)), State.fld_count_ne _ (by decide), hact]
    omega
  · rw [heq, hft.same .fwFailover (by decide), (State.raise_touches _ Pg.cluster Reg.CLUSTER_EVENT_FAILOVER).same .fwFailover (by decide),
      (State.count_touches _ Pg.cluster Reg.CLUSTER_FAILOVERS).same .fwFailover (by decide), huf]
  · rw [heq]
    exact State.WritesIn.of_regs (State.WritesIn.raise (hw.count (hc _ (by decide))) (hc _ (by decide))) hfr

/-! ### The end of the restore window -/

/-- What the rest of the window leaves of the restore's own marks. -/
def State.keepsMarks (s t : State) : Prop :=
  t.fld Pg.global Reg.GLOBAL_STATE_FACTORY = s.fld Pg.global Reg.GLOBAL_STATE_FACTORY
    ∧ t.fld Pg.global Reg.GLOBAL_EVENT_FACTORY_LOAD = s.fld Pg.global Reg.GLOBAL_EVENT_FACTORY_LOAD
    ∧ t.fld Pg.rstore Reg.RSTORE_STATUS_RESTORED = s.fld Pg.rstore Reg.RSTORE_STATUS_RESTORED

theorem State.keepsMarks.trans {s t u : State} (h : s.keepsMarks t) (h' : t.keepsMarks u) : s.keepsMarks u :=
  ⟨h'.1.trans h.1, h'.2.1.trans h.2.1, h'.2.2.trans h.2.2⟩

/-- The registers of those marks. -/
def markKeys : List Nat := [keyOf Reg.GLOBAL_STATE_FACTORY Pg.global, keyOf Reg.GLOBAL_EVENT_FACTORY_LOAD Pg.global,
  keyOf Reg.RSTORE_STATUS_RESTORED Pg.rstore]

theorem State.WritesIn.keepsMarks {s t : State} {P : Nat → Prop} (h : s.WritesIn t P) (hP : ∀ a ∈ markKeys, ¬ P a) : s.keepsMarks t :=
  ⟨h.fld (hP _ (by decide)), h.fld (hP _ (by decide)), h.fld (hP _ (by decide))⟩

theorem State.keepsMarks_toMode (s : State) (m : Mode) (ph : Phase) : s.keepsMarks (s.toMode m ph) :=
  ⟨State.fld_setFld_ne _ _ _ _ _ _ (by decide) (.inr (.inl (by decide))), (s.writesIn_toMode m ph).fld (by decide),
    (s.writesIn_toMode m ph).fld (by decide)⟩

theorem State.keepsMarks_fenceAtBoot (s : State) : s.keepsMarks s.fenceAtBoot := by
  unfold State.fenceAtBoot
  split
  · exact ⟨rfl, rfl, rfl⟩
  · have h1 : s.WritesIn (s.setFld Pg.array Reg.ARRAY_STATE_MEMBER 1) (· = keyOf Reg.ARRAY_STATE_MEMBER Pg.array) := .setFld (.refl s _) _ rfl
    generalize s.setFld Pg.array Reg.ARRAY_STATE_MEMBER 1 = u at *
    have h2 : u.keepsMarks (u.setFld Pg.global Reg.GLOBAL_STATE_FENCED 1) :=
      ⟨State.fld_setFld_ne _ _ _ _ _ _ (by decide) (.inr (.inr (by decide))),
        State.fld_setFld_ne _ _ _ _ _ _ (by decide) (.inl (by decide)), State.fld_setFld_ne _ _ _ _ _ _ (by decide) (.inl (by decide))⟩
    generalize u.setFld Pg.global Reg.GLOBAL_STATE_FENCED 1 = v at *
    have h3 : v.WritesIn ((v.setFld Pg.array Reg.ARRAY_STATE_FENCED 1).setFld Pg.trig Reg.TRIG_STATE_FENCED 1)
        (· ∈ [keyOf Reg.ARRAY_STATE_FENCED Pg.array, keyOf Reg.TRIG_STATE_FENCED Pg.trig]) :=
      .setFld (State.WritesIn.setFld (.refl v _) _ (by decide)) _ (by decide)
    exact ((h1.keepsMarks (by decide)).trans h2).trans (h3.keepsMarks (by decide))

theorem not_settleAllMay_mark : ∀ a ∈ markKeys, ¬ settleAllMay a := by
  intro a ha
  simp only [markKeys, List.mem_cons, List.not_mem_nil, or_false] at ha
  rcases ha with rfl | rfl | rfl <;> exact not_settleAllMay (by decide) (by decide) (by decide) (.inl (by decide))

theorem not_outputsMay_mark : ∀ a ∈ markKeys, ¬ outputsMay a := by
  rintro a ha ⟨n, hn, h, -⟩
  simp only [markKeys, List.mem_cons, List.not_mem_nil, or_false] at ha
  have hl : Pg.loupe n = 0x0A0 + n := rfl
  have hu : Pg.aud n = 0x0B4 + n := rfl
  rw [hl, hu] at h
  rcases ha with rfl | rfl | rfl
  · have : keyOf Reg.GLOBAL_STATE_FACTORY Pg.global / 0x1000 = 0 := by decide
    omega
  · have : keyOf Reg.GLOBAL_EVENT_FACTORY_LOAD Pg.global / 0x1000 = 0 := by decide
    omega
  · have : keyOf Reg.RSTORE_STATUS_RESTORED Pg.rstore / 0x1000 = 1 := by decide
    omega

theorem not_mediaMay_mark : ∀ a ∈ markKeys, ¬ mediaMay a := by
  rintro a ha ⟨k, hk, rfl⟩
  interval_cases k <;> exact absurd ha (by decide)

theorem not_settleMay_fstore_mark : ∀ a ∈ markKeys, ¬ settleMay Pg.fstore a := by
  intro a ha
  simp only [markKeys, List.mem_cons, List.not_mem_nil, or_false] at ha
  rcases ha with rfl | rfl | rfl <;> (unfold settleMay; decide)

theorem State.writesIn_showRecorder (s : State) : s.WritesIn s.showRecorder (· ∈ [keyOf Reg.RECORDER_STATE_PHASE Pg.recorder,
    keyOf Reg.RECORDER_CHAIN_PENDING Pg.recorder, keyOf Reg.RECORDER_QUEUED Pg.recorder]) := by
  unfold State.showRecorder State.showQueued
  exact .setFld (State.WritesIn.setFld (State.WritesIn.setFld (State.WritesIn.setFld (.refl s _) _ (by decide)) _ (by decide)) _ (by decide)) _ (by decide)

/-- The state restored, in STANDBY, before its domains and its outputs follow. -/
def State.restored (s : State) : State :=
  (((s.restore (s.ctl.straps.testBit 2)).latchOrder.bootFw.fenceAtBoot).placeSlots s).toMode .standby .settled

/-- The restored state with everything that follows it, before the take that BOOT_MODE may ask for. -/
def State.restoredOn (s : State) : State :=
  ((((s.restored.supplyStep 0).supplyStep 1).settleAll.mediaStart.outputsStart).showRecorder)

theorem State.restoreDone_of_window {s : State} (h : s.ctl.phase = .restoring) : s.restoreDone = s.restoredOn.bootTake := by
  unfold State.restoreDone
  rw [if_neg (by simp [h])]
  rfl

/-- What follows the restored state leaves its mode and its marks. -/
theorem State.restoredOn_marks (s : State) : s.restored.keepsMarks s.restoredOn
    ∧ s.restoredOn.fld Pg.global Reg.GLOBAL_STATE_MODE = s.restored.fld Pg.global Reg.GLOBAL_STATE_MODE
    ∧ s.restoredOn.ctl.mode = .standby ∧ s.restoredOn.ctl.phase = .settled := by
  have hstep : ∀ {u v : State} {P : Nat → Prop}, u.WritesIn v P → (∀ a ∈ markKeys, ¬ P a) →
      u.keepsMarks v ∧ v.fld Pg.global Reg.GLOBAL_STATE_MODE = u.fld Pg.global Reg.GLOBAL_STATE_MODE := fun h hP =>
    ⟨h.keepsMarks hP, h.fld (hP (keyOf Reg.GLOBAL_STATE_FACTORY Pg.global) (by decide))⟩
  have hto : s.restored.Touches s.restoredOn [.out, .regs, .pwrSeqA, .pwrSeqB, .ctlLatches, .portA, .portB, .fstoreMem,
      .drdecOutCount, .drdecLast, .drdecCur, .drdecRecords, .drdecReady, .hdec, .aud, .condParked, .relayDescs, .pwrHeld, .pwrRising,
      .loupe, .mirror, .flows, .seed] :=
    .step (.step (.step (.step (.step ((State.supplyStep_touches s.restored 0).mono rfl) (State.supplyStep_touches _ 1) rfl)
      (State.settleAll_touches _) rfl) (State.mediaStart_touches _) rfl) (State.outputsStart_touches _) rfl) (State.showRecorder_touches _) rfl
  have hmode : s.restored.ctl.mode = .standby ∧ s.restored.ctl.phase = .settled := ⟨rfl, rfl⟩
  unfold State.restoredOn at hto ⊢
  obtain ⟨a1, b1⟩ := hstep (State.writesIn_supplyStep s.restored (k := 0) (by decide)) (by decide)
  generalize s.restored.supplyStep 0 = u1 at *
  obtain ⟨a2, b2⟩ := hstep (State.writesIn_supplyStep u1 (k := 1) (by decide)) (by decide)
  generalize u1.supplyStep 1 = u2 at *
  obtain ⟨a3, b3⟩ := hstep u2.writesIn_settleAll not_settleAllMay_mark
  generalize u2.settleAll = u3 at *
  obtain ⟨a4, b4⟩ := hstep u3.writesIn_mediaStart not_mediaMay_mark
  generalize u3.mediaStart = u4 at *
  obtain ⟨a5, b5⟩ := hstep u4.writesIn_outputsStart not_outputsMay_mark
  generalize u4.outputsStart = u5 at *
  obtain ⟨a6, b6⟩ := hstep u5.writesIn_showRecorder (by decide)
  exact ⟨((((a1.trans a2).trans a3).trans a4).trans a5).trans a6, by rw [b6, b5, b4, b3, b2, b1],
    (hto.same .ctlMode (by decide)).trans hmode.1, (hto.same .ctlPhase (by decide)).trans hmode.2⟩

/-- The restore's own marks reach the restored state. -/
theorem State.restored_marks (s : State) : (s.restore (s.ctl.straps.testBit 2)).keepsMarks s.restored := by
  unfold State.restored
  have hl : ∀ u : State, u.WritesIn u.latchOrder (· = keyOf Reg.DRAMCTL_STATE_ORDER Pg.dramctl) := fun u => .setFld (.refl u _) _ rfl
  exact ((((hl _).keepsMarks (by decide)).trans ((State.writesIn_bootFw _).keepsMarks (by decide))).trans (State.keepsMarks_fenceAtBoot _)).trans
    (((State.writesIn_placeSlots _ s).keepsMarks not_settleMay_fstore_mark).trans (State.keepsMarks_toMode _ _ _))

/-- What a restore marks: the factory settings, or the bank that it took. -/
theorem State.restore_marks (s : State) (b : Bool) :
    (b = true ∨ s.rsm.newest = none → (s.restore b).fld Pg.global Reg.GLOBAL_STATE_FACTORY = 1
        ∧ (s.restore b).fld Pg.global Reg.GLOBAL_EVENT_FACTORY_LOAD = 1 ∧ (s.restore b).fld Pg.rstore Reg.RSTORE_STATUS_RESTORED = 2)
      ∧ ∀ i, b = false → s.rsm.newest = some i → (s.restore b).fld Pg.rstore Reg.RSTORE_STATUS_RESTORED = i := by
  have hrise : ∀ (u : State) p f, (noteRiseAll s u.showCorr).fld p f = u.showCorr.fld p f := fun u p f =>
    State.fld_congr ((noteRiseAll_touches s u.showCorr).same .regs (by decide)) _ _
  have hcorr : ∀ u : State, u.WritesIn u.showCorr (· ∈ [keyOf Reg.COLL_RX_CORR Pg.coll, keyOf Reg.COLL_TX_CORR Pg.coll]) := fun u => by
    unfold State.showCorr
    exact .ite (State.WritesIn.setFld (State.WritesIn.setFld (.refl u _) _ (by decide)) _ (by decide))
      (State.WritesIn.setFld (State.WritesIn.setFld (.refl u _) _ (by decide)) _ (by decide))
  have hfld : ∀ (u : State) (f : Fld) (p : Nat), keyOf f p ∉ [keyOf Reg.COLL_RX_CORR Pg.coll, keyOf Reg.COLL_TX_CORR Pg.coll] →
      (noteRiseAll s u.showCorr).fld p f = u.fld p f := fun u f p h => (hrise u p f).trans ((hcorr u).fld h)
  unfold State.restore
  dsimp only
  refine ⟨fun h => ?_, fun i hb hi => ?_⟩
  · have hnone : (if b = true then none else s.rsm.newest) = none := by
      rcases h with h | h
      · exact if_pos h
      · rw [h]; split <;> rfl
    simp only [hnone]
    rw [hfld _ _ _ (by decide), hfld _ _ _ (by decide), hfld _ _ _ (by decide)]
    refine ⟨?_, State.fld_raise_same _ _ _ (by decide) rfl, ?_⟩
    · rw [State.fld_raise_ne _ _ _ _ _ (by decide) (.inl (by decide)), State.fld_setFld_same _ _ _ _ (by decide)]
      rfl
    · rw [State.fld_raise_ne _ _ _ _ _ (by decide) (.inl (by decide)), State.fld_setFld_ne _ _ _ _ _ _ (by decide) (.inl (by decide)),
        State.fld_setFld_same _ _ _ _ (by decide)]
      rfl
  · have hsome : (if b = true then none else s.rsm.newest) = some i := by rw [hb, if_neg Bool.false_ne_true, hi]
    have hlt : i < 2 := by
      unfold Rsm.newest at hi
      split at hi
      · split at hi <;> cases hi <;> decide
      · split at hi
        · cases hi; decide
        · cases hi
    simp only [hsome]
    rw [hfld _ _ _ (by decide)]
    generalize (s.setFld Pg.rstore Reg.RSTORE_SKIP_COUNT 0).restoreEntries (s.rsm.bank i) (leAt (s.rsm.bank i) 0x10 4) 0x40 = u
    have hw : ∀ (v : State) c, v.WritesIn (v.raiseIf c Pg.rstore Reg.RSTORE_EVENT_RESTORE_SKIP) (· = keyOf Reg.RSTORE_EVENT_RESTORE_SKIP Pg.rstore) :=
      fun v c => .raiseIf (.refl v _) rfl
    rw [(hw _ _).fld (by decide), State.fld_setFld_of_width _ _ _ _ (by decide) (by show i < 4; omega)]

/-- The take that BOOT_MODE asks for leaves the marks; without it the device is in STANDBY. -/
theorem State.bootTake_marks (s : State) : s.keepsMarks s.bootTake
    ∧ (s.bootTake.fld Pg.rstore Reg.RSTORE_SAVE_CFG_BOOT_MODE ≠ 1 → s.bootTake = s) := by
  unfold State.bootTake
  split
  · next h =>
    unfold State.beginStart
    dsimp only
    generalize ({ s.ctl with capRun := true, frameSeen := false, stopFrame := none, recStart := none, recEnd := none } : Ctl) = c
    have hc : s.keepsMarks ({ s with ctl := c } : State) := ⟨rfl, rfl, rfl⟩
    refine ⟨hc.trans (State.keepsMarks_toMode _ _ _), fun hne => absurd ?_ hne⟩
    rw [(State.writesIn_toMode _ _ _).fld (by decide)]
    exact h.1
  · exact ⟨⟨rfl, rfl, rfl⟩, fun _ => rfl⟩

/-- Settles O13: resets by `State.toReset`, a failover, the strobes of the reset pins, and the end of the restore window. -/
theorem resets : Obligations.Resets := by
  unfold Obligations.Resets
  refine ⟨fun s v ha hgo hkey => ?device, fun s r v ha hno => ?noEffect, fun s => ⟨_, rfl, s.resetOf_toReset .inReset false (by decide)⟩,
    fun s => ⟨_, rfl, s.resetOf_toReset .inReset false (by decide)⟩, fun s hfw hrun => ⟨fun hidle => ?alone, fun hidle hcap => ?waits, fun hidle hcap => ?taken⟩,
    fun s n hph hhold => ?por, fun s hhold => congrArg Host.Outcome.next (if_pos hhold), fun s hph hmode => ?link, fun s hph => ?restored⟩
  case device =>
    have heq : writeResetCtrl .pf0 v s = s.toReset 2 .restoring false := by
      rw [writeResetCtrl, withWrite_of_accepts _ ha]
      exact if_pos ⟨rfl, hgo, hkey⟩
    exact ⟨_, congrArg Host.Outcome.next heq, s.resetOf_toReset .restoring false (by decide)⟩
  case noEffect =>
    have heq : writeResetCtrl r v s = s := by
      rw [writeResetCtrl, withWrite_of_accepts _ ha]
      exact if_neg hno
    exact congrArg Host.Outcome.next heq
  case alone =>
    have heq : s.watchdog = s.toReset 4 .restoring false := by
      unfold State.watchdog
      rw [if_neg (by simp [hfw, hrun]), hidle, if_neg Bool.false_ne_true]
    exact ⟨_, congrArg Host.Outcome.next heq, s.resetOf_toReset .restoring false (by decide)⟩
  case waits =>
    have heq : s.watchdog = s.setFw { s.fw with failover := true } := by
      unfold State.watchdog
      rw [if_neg (by simp [hfw, hrun]), hidle, if_pos rfl, hcap, if_pos rfl]
    exact congrArg Host.Outcome.next heq
  case taken =>
    have heq : s.watchdog = s.doFailover := by
      unfold State.watchdog
      rw [if_neg (by simp [hfw, hrun]), hidle, if_pos rfl, hcap, if_neg Bool.false_ne_true]
    obtain ⟨h1, h2, h3⟩ := s.doFailover_effect
    have hall := s.doFailover_touches
    refine ⟨_, congrArg Host.Outcome.next heq, h1, h2, (hall.mono (l' := .regs :: .ctlLatches :: (fwParts ++ hqParts)) rfl).eq_mix, fun a ha hb => ?_,
      hall.keepsBytes rfl⟩
    exact h3 a (by simp [failoverMay, ha, hb])
  case por =>
    have heq : s.porRelease n = (({ s with ctl := { s.ctl with straps := n % 16, phase := .restoring } } : State).setFld Pg.global
        Reg.GLOBAL_RESET_CAUSE 1).countBoot := by
      unfold State.porRelease
      rw [if_neg (by simp [hph, hhold])]
    have hall := s.porRelease_touches n
    rw [heq] at hall
    have h0 : s.WritesIn ({ s with ctl := { s.ctl with straps := n % 16, phase := .restoring } } : State) (· ∈ [keyOf Reg.GLOBAL_RESET_CAUSE Pg.global,
      keyOf Reg.SECURITY_BOOT_COUNT_LO Pg.security, keyOf Reg.SECURITY_BOOT_COUNT_HI Pg.security]) := .of_regs (.refl s _) rfl
    have h1 := h0.setFld (p := Pg.global) (f := Reg.GLOBAL_RESET_CAUSE) 1 (by decide)
    have hcnt : (({ s with ctl := { s.ctl with straps := n % 16, phase := .restoring } } : State).setFld Pg.global
        Reg.GLOBAL_RESET_CAUSE 1).fld64 Pg.security Reg.SECURITY_BOOT_COUNT_LO Reg.SECURITY_BOOT_COUNT_HI =
        s.fld64 Pg.security Reg.SECURITY_BOOT_COUNT_LO Reg.SECURITY_BOOT_COUNT_HI := by
      rw [State.fld64, State.fld_setFld_ne _ _ _ _ _ _ (by decide) (.inl (by decide)), State.fld_setFld_ne _ _ _ _ _ _ (by decide) (.inl (by decide))]
      rfl
    have hcause : (({ s with ctl := { s.ctl with straps := n % 16, phase := .restoring } } : State).setFld Pg.global
        Reg.GLOBAL_RESET_CAUSE 1).fld Pg.global Reg.GLOBAL_RESET_CAUSE = 1 := State.fld_setFld_of_width _ _ _ _ (by decide) (by decide)
    have hframe : (({ s with ctl := { s.ctl with straps := n % 16, phase := .restoring } } : State).setFld Pg.global Reg.GLOBAL_RESET_CAUSE 1).countBoot =
        { s with regs := ((({ s with ctl := { s.ctl with straps := n % 16, phase := .restoring } } : State).setFld Pg.global
          Reg.GLOBAL_RESET_CAUSE 1).countBoot).regs, ctl := { s.ctl with straps := n % 16, phase := .restoring } } := rfl
    generalize ({ s with ctl := { s.ctl with straps := n % 16, phase := .restoring } } : State).setFld Pg.global Reg.GLOBAL_RESET_CAUSE 1 = u at *
    have hcb : u.WritesIn u.countBoot (· ∈ [keyOf Reg.SECURITY_BOOT_COUNT_LO Pg.security, keyOf Reg.SECURITY_BOOT_COUNT_HI Pg.security]) :=
      .setFld64 (.refl u _) _ (by decide) (by decide)
    refine ⟨_, congrArg Host.Outcome.next heq, ?_, ?_, hframe, ?_, hall.keepsBytes rfl⟩
    · rw [hcb.fld (by decide), hcause]
    · unfold State.countBoot
      rw [State.fld64_setFld64 _ _ (by decide) (by decide) rfl rfl (by decide), hcnt]
    · exact (h1.trans (hcb.mono fun a ha => by
        simp only [List.mem_cons, List.not_mem_nil, or_false] at ha ⊢
        exact .inr ha)).keepsRegs
  case link =>
    exact congrArg Host.Outcome.next (if_neg (by simp [hph, hmode]))
  case restored =>
    have heq := State.restoreDone_of_window hph
    obtain ⟨h1, h2, h3, h4⟩ := s.restoredOn_marks
    obtain ⟨g1, g2⟩ := s.restoredOn.bootTake_marks
    have hmode0 : s.restored.fld Pg.global Reg.GLOBAL_STATE_MODE = 0 := State.fld_toMode _ _ _
    obtain ⟨m1, m2, m3⟩ := (s.restored_marks.trans h1).trans g1
    rw [← heq] at m1 m2 m3 g2
    obtain ⟨r1, r2⟩ := s.restore_marks (s.ctl.straps.testBit 2)
    have hall := s.restoreDone_touches
    refine ⟨_, rfl, fun hb => ?_, fun hf => ?_, fun i hs hi => ?_,
      (hall.mono (l' := .out :: .seed :: .regs :: .portA :: .portB :: .hdec :: .aud :: .loupe :: .mirror :: .flows ::
        (ctlParts ++ fstoreParts ++ drdecParts ++ condParts ++ relayParts ++ fwParts ++ pwrParts)) rfl).eq_mix,
      hall.same .ctlStraps (by decide), ?_, ?_, ?_⟩
    · rw [g2 hb]
      exact ⟨h3, h4, h2.trans hmode0⟩
    · obtain ⟨e1, e2, e3⟩ := r1 hf
      exact ⟨m1.trans e1, m2.trans e2, m3.trans e3⟩
    · exact m3.trans (r2 i hs hi)
    · exact fun a => congrArg (fun d => d.get a) (hall.same .dram (by decide))
    · exact fun a => congrArg (fun d => d.get a) (hall.same .relayCluster (by decide))
    · intro k a
      unfold State.drive
      rw [hall.same .mediaDrives (by decide)]

end Sys2Proof.Machine
end

section
/-! PROOFS. WAKE_N and the Collimator alarm: a wake from SLEEP (R66), and the alarm of the Collimator (R399). -/

set_option Elab.async false

namespace Sys2Proof.Machine

/-! ### Whole parts of the state out of a footprint -/

/-- No part of the one list is in the other. -/
def noneOf (ps l : List Part) : Bool := ps.all fun p => !l.elem p

theorem State.Touches.outside {s t : State} {l ps : List Part} (h : s.Touches t l) (hl : noneOf ps l = true) : ∀ p ∈ ps, p.same s t := fun p hp =>
  h.same p fun hm => by
    have := List.all_eq_true.1 hl p hp
    rw [List.elem_iff.2 hm] at this
    exact Bool.false_ne_true this

theorem State.Touches.fw_eq {s t : State} {l : List Part} (h : s.Touches t l) (hl : noneOf fwParts l = true) : t.fw = s.fw := by
  have k := h.outside hl
  simp only [fwParts, List.forall_mem_cons, Part.same] at k
  generalize t.fw = x at k ⊢
  generalize s.fw = y at k ⊢
  cases x; cases y
  simp_all

theorem State.Touches.coll_eq {s t : State} {l : List Part} (h : s.Touches t l) (hl : noneOf collParts l = true) : t.coll = s.coll := by
  have k := h.outside hl
  simp only [collParts, List.forall_mem_cons, Part.same] at k
  generalize t.coll = x at k ⊢
  generalize s.coll = y at k ⊢
  cases x; cases y
  simp_all

theorem State.Touches.dramc_eq {s t : State} {l : List Part} (h : s.Touches t l) (hl : noneOf dramcParts l = true) : t.dramc = s.dramc := by
  have k := h.outside hl
  simp only [dramcParts, List.forall_mem_cons, Part.same] at k
  generalize t.dramc = x at k ⊢
  generalize s.dramc = y at k ⊢
  cases x; cases y
  simp_all

/-! ### The pages that a wake writes -/

/-- Pages beside those that sleep on which a wake may write. -/
def wakePagesKept : List Nat := [Pg.global, Pg.pwr, Pg.coll, Pg.dramctl] ++ pagesOf Pg.dram 8

/-- The registers that a wake of this state may write. -/
def State.wakeMay (s : State) (a : Nat) : Prop :=
  s.sleepsOff (a / 0x1000 % 1024) = true ∨ a / 0x1000 % 1024 ∈ wakePagesKept

/-- Pages that sleep whatever SLEEP_KEEP says. -/
def sleepsAlways (p : Nat) : Bool := !(decide (pageDomain p ≤ 1) || decide (135 ≤ pageDomain p) || decide (pageDomain p = 127))

theorem State.sleepsOff_of_always (s : State) {p : Nat} (h : sleepsAlways p = true) : s.sleepsOff p = true := by
  unfold sleepsAlways at h
  unfold State.sleepsOff
  simp only [Bool.not_eq_true', Bool.or_eq_false_iff] at h ⊢
  obtain ⟨⟨h1, h2⟩, h3⟩ := h
  exact ⟨⟨h1, h2⟩, by rw [h3]; rfl⟩

theorem State.sleepsOff_congr {s t : State} (h : t.on Pg.coll Reg.COLL_CTRL_SLEEP_KEEP = s.on Pg.coll Reg.COLL_CTRL_SLEEP_KEEP) (p : Nat) :
    t.sleepsOff p = s.sleepsOff p := by
  unfold State.sleepsOff
  rw [h]

/-- The pages whose sleep follows from their place alone. -/
def wokenPage (p : Nat) : Bool := sleepsAlways p || wakePagesKept.contains p

theorem State.wakeMay_of_page (s : State) {a : Nat} (h : wokenPage (a / 0x1000 % 1024) = true) : s.wakeMay a := by
  rcases (Bool.or_eq_true _ _).mp h with h | h
  · exact .inl (s.sleepsOff_of_always h)
  · exact .inr (List.contains_iff_mem.1 h)

theorem sleepsAlways_of_not_stays {p : Nat} (h : stays p = false) : sleepsAlways p = true := by
  have he : essential (pageDomain p) = false := (Bool.or_eq_false_iff.1 h).1
  unfold essential at he
  unfold sleepsAlways
  simp only [Bool.or_eq_false_iff, decide_eq_false_iff_not] at he
  simp only [Bool.not_eq_true', Bool.or_eq_false_iff, decide_eq_false_iff_not]
  omega

theorem State.wakeMay_settle (s : State) {p a : Nat} (h : s.sleepsOff p = true) (ha : settleMay p a) : s.wakeMay a := by
  rcases ha with ⟨h1, -⟩ | h1
  · exact .inl (h1.symm ▸ h)
  · exact s.wakeMay_of_page (by rw [h1]; decide)

/-! ### The parts of a wake -/

theorem State.goUp_writes (s : State) {p : Nat} (hp : p < 1024) :
    s.WritesIn (s.goUp p) (fun a => a = keyOf Reg.COMMON_PWR_REQ_STATUS p ∨ refillMay p a) ∧
      (p ≠ Pg.fstore → (s.goUp p).fld p Reg.COMMON_PWR_REQ_STATUS = 3) := by
  have h : ∀ x, s.WritesIn ((s.setPwr x).setFld p Reg.COMMON_PWR_REQ_STATUS 3)
      (fun a => a = keyOf Reg.COMMON_PWR_REQ_STATUS p ∨ refillMay p a) := fun x => .setFld (.of_regs (.refl s _) rfl) _ (.inl rfl)
  have hv : ∀ x, ((s.setPwr x).setFld p Reg.COMMON_PWR_REQ_STATUS 3).fld p Reg.COMMON_PWR_REQ_STATUS = 3 := fun x =>
    State.fld_setFld_of_width _ _ _ _ (by decide) (by decide)
  have hno : p ≠ Pg.fstore → ¬ refillMay p (keyOf Reg.COMMON_PWR_REQ_STATUS p) := by
    rintro hne (⟨-, h2, -⟩ | ⟨h1, -⟩)
    · simp only [keyOf] at h2; omega
    · exact hne h1
  unfold State.goUp
  dsimp only
  generalize { s.pwr with rising := s.pwr.rising.filter (· ≠ p) } = x
  have h := h x
  have hv := hv x
  generalize (s.setPwr x).setFld p Reg.COMMON_PWR_REQ_STATUS 3 = u at *
  have hr := u.refillPage_writes hp
  refine ⟨.ite (h.trans (hr.mono fun _ => .inr)) h, fun hne => ?_⟩
  split
  · rw [hr.fld (hno hne), hv]
  · exact hv

/-- The domains that SLEEP held off come back, as far as they are to be on. -/
def State.wakeDomains (s : State) (l : List Nat) : State :=
  l.foldl (fun (s : State) p =>
    if s.sleepsOff p && (s.heldOn p || decide (reqOf (s.fld p Reg.COMMON_PWR_REQ_REQ) = 3)) then s.goUp p else s) s

/-- What the domains that come back leave: SLEEP_KEEP, and every register out of reach of the pages that sleep. -/
theorem State.wakeDomains_writes (s : State) (l : List Nat) (hl : ∀ p ∈ l, p < 1024) :
    s.WritesIn (s.wakeDomains l) (fun a => ∃ p ∈ l, s.sleepsOff p = true ∧ (a = keyOf Reg.COMMON_PWR_REQ_STATUS p ∨ refillMay p a)) := by
  have hkeep : ∀ p, ¬ (keyOf Reg.COLL_CTRL_SLEEP_KEEP Pg.coll = keyOf Reg.COMMON_PWR_REQ_STATUS p ∨ refillMay p (keyOf Reg.COLL_CTRL_SLEEP_KEEP Pg.coll)) := by
    rintro p (h | ⟨-, h, -⟩ | ⟨h, h'⟩)
    · simp only [keyOf] at h; omega
    · exact absurd h (by decide)
    · subst h; exact absurd h' (by unfold settleMay; decide)
  unfold State.wakeDomains
  refine List.foldlRecOn l _ (motive := fun u => s.WritesIn u _) (.refl s _) fun u hu p hp => ?_
  have hs : u.sleepsOff p = s.sleepsOff p :=
    State.sleepsOff_congr (congrArg (fun n => decide (n = 1)) (hu.fld fun ⟨q, _, _, h⟩ => hkeep q h)) p
  split
  · next hc =>
    have hoff : s.sleepsOff p = true := hs ▸ (Bool.and_eq_true_iff.1 hc).1
    exact hu.trans ((u.goUp_writes (hl p hp)).1.mono fun a ha => ⟨p, hp, hoff, ha⟩)
  · exact hu

/-- A domain that must stay on is on after a wake. -/
theorem State.wakeDomains_status (s : State) (l : List Nat) (hl : ∀ p ∈ l, p < 1024) {p : Nat} (hp : p ∈ l) (hoff : s.sleepsOff p = true)
    (he : essential (pageDomain p) = true) : (s.wakeDomains l).fld p Reg.COMMON_PWR_REQ_STATUS = 3 := by
  have hfs : p ≠ Pg.fstore := by rintro rfl; exact absurd he (by decide)
  obtain ⟨l1, l2, rfl⟩ := List.append_of_mem hp
  have hsplit : s.wakeDomains (l1 ++ p :: l2) = ((s.wakeDomains l1).wakeDomains [p]).wakeDomains l2 := by
    simp only [State.wakeDomains, List.foldl_append, List.foldl_cons, List.foldl_nil]
  have hlt : ∀ q ∈ l1, q < 1024 := fun q hq => hl q (by simp [hq])
  have hlt' : ∀ q ∈ l2, q < 1024 := fun q hq => hl q (by simp [hq])
  have hpl : p < 1024 := hl p hp
  have hkeep : (s.wakeDomains l1).sleepsOff p = s.sleepsOff p := by
    refine State.sleepsOff_congr (congrArg (fun n => decide (n = 1)) ((s.wakeDomains_writes l1 hlt).fld ?_)) p
    rintro ⟨q, -, -, h | ⟨-, h, -⟩ | ⟨h, h'⟩⟩
    · simp only [keyOf] at h; omega
    · exact absurd h (by decide)
    · subst h; exact absurd h' (by unfold settleMay; decide)
  rw [hsplit]
  generalize s.wakeDomains l1 = u at *
  have h1 : (u.wakeDomains [p]).fld p Reg.COMMON_PWR_REQ_STATUS = 3 := by
    have hc : (u.sleepsOff p && (u.heldOn p || decide (reqOf (u.fld p Reg.COMMON_PWR_REQ_REQ) = 3))) = true := by
      rw [hkeep, hoff, State.heldOn, he]; rfl
    rw [State.wakeDomains, List.foldl_cons, List.foldl_nil, if_pos hc]
    exact (u.goUp_writes hpl).2 hfs
  generalize u.wakeDomains [p] = v at *
  unfold State.wakeDomains
  refine List.foldlRecOn l2 _ (motive := fun (w : State) => w.fld p Reg.COMMON_PWR_REQ_STATUS = 3) h1 fun w hw q hq => ?_
  split
  · by_cases hqp : q = p
    · subst hqp; exact (w.goUp_writes hpl).2 hfs
    · rw [(w.goUp_writes (hlt' q hq)).1.fld, hw]
      have := hlt' q hq
      rintro (h | ⟨h, -⟩ | ⟨h, h' | h'⟩)
      · simp only [keyOf] at h; omega
      · simp only [keyOf] at h; omega
      · simp only [keyOf] at h'; omega
      · simp only [keyOf, Pg.pwr] at h'; omega
  · exact hw

/-- The registers of a Collimator that starts anew. -/
def restartKeys : List Nat := [keyOf Reg.COLL_INC_NS Pg.coll, keyOf Reg.COLL_INC_FRAC Pg.coll, keyOf Reg.COLL_FREQ Pg.coll,
  keyOf Reg.COLL_STATE_SERVO Pg.coll, keyOf Reg.ARRAY_STATE_ALIGNED Pg.array]

theorem State.writesIn_collRestart (s : State) : s.WritesIn s.collRestart (· ∈ restartKeys) :=
  State.WritesIn.setFld (State.WritesIn.setFld (State.WritesIn.setFld (State.WritesIn.setFld (State.WritesIn.setFld
    (.of_regs (.refl s _) rfl) _ (by decide)) _ (by decide)) _ (by decide)) _ (by decide)) _ (by decide)

/-- The STATE registers of the memory. -/
def dramWakeKeys : List Nat := keyOf Reg.DRAMCTL_STATE_SWITCHING Pg.dramctl :: (List.range 8).map fun k => keyOf Reg.DRAM_STATE_SELF_REFRESH (Pg.dram k)

theorem State.writesIn_dramWake (s : State) : s.WritesIn s.dramWake (· ∈ dramWakeKeys) := by
  have hs : ∀ {u : State} (f : Fld) (v : Nat), f.off = 0x00C → s.WritesIn u (· ∈ dramWakeKeys) → s.WritesIn (u.setFld Pg.dramctl f v) (· ∈ dramWakeKeys) :=
    fun f v hf hu => hu.setFld v (by unfold keyOf; rw [hf]; exact .head _)
  have h0 : ∀ d, s.WritesIn (s.setDramc d) (· ∈ dramWakeKeys) := fun d => .of_regs (.refl s _) rfl
  unfold State.dramWake State.allDram
  refine State.WritesIn.foldl (hs _ 0 rfl (hs _ 0 rfl (hs _ 0 rfl (h0 _)))) _ fun u k hk => ?_
  exact .setFld (.refl u _) _ (.tail _ (List.mem_map.2 ⟨k, hk, rfl⟩))

/-- What follows a wake's domains: the memory, the firmware, the media ports and the outputs. -/
def State.wakeRest (s : State) : State := s.dramWake.bootFw.mediaStart.outputsStart.settleAll

/-- The registers of that. -/
def wakeRestMay (a : Nat) : Prop := a ∈ dramWakeKeys ∨ a ∈ bootKeys ∨ mediaMay a ∨ outputsMay a ∨ settleAllMay a

theorem State.writesIn_wakeRest (s : State) : s.WritesIn s.wakeRest wakeRestMay :=
  ((((s.writesIn_dramWake.mono fun _ => .inl).trans ((State.writesIn_bootFw _).mono fun _ h => .inr (.inl h))).trans
    ((State.writesIn_mediaStart _).mono fun _ h => .inr (.inr (.inl h)))).trans
    ((State.writesIn_outputsStart _).mono fun _ h => .inr (.inr (.inr (.inl h))))).trans
    ((State.writesIn_settleAll _).mono fun _ h => .inr (.inr (.inr (.inr h))))

theorem State.wakeMay_of_rest (s : State) {a : Nat} (h : wakeRestMay a) : s.wakeMay a := by
  have hd : ∀ a ∈ dramWakeKeys, wokenPage (a / 0x1000 % 1024) = true := by decide
  have hb : ∀ a ∈ bootKeys, wokenPage (a / 0x1000 % 1024) = true := by decide
  have hm : ∀ k < 2, wokenPage (keyOf Reg.MEDIA_STATE_PORT (Pg.media k) / 0x1000 % 1024) = true := by decide
  have ho : ∀ n < 4, wokenPage (Pg.loupe n % 1024) = true ∧ wokenPage (Pg.aud n % 1024) = true := by decide
  rcases h with h | h | ⟨k, hk, rfl⟩ | ⟨n, hn, h | h, -⟩ | ⟨p, -, hp, h⟩
  · exact s.wakeMay_of_page (hd a h)
  · exact s.wakeMay_of_page (hb a h)
  · exact s.wakeMay_of_page (hm k hk)
  · exact s.wakeMay_of_page (by rw [h]; exact (ho n hn).1)
  · exact s.wakeMay_of_page (by rw [h]; exact (ho n hn).2)
  · exact s.wakeMay_settle (s.sleepsOff_of_always (sleepsAlways_of_not_stays hp)) h

/-- The key of an essential page's register, or of a lower common one, is not written once the domains are back, unless it is named. -/
theorem not_wakeRestMay {f : Fld} {p : Nat} (hf : f.off < 0x1000) (hp : stays p = true) (hlt : p < 1024) (hk : p ≠ Pg.pwr)
    (hd : keyOf f p ∉ dramWakeKeys) (hb : keyOf f p ∉ bootKeys) (hm : f.off = 0x00C → p < Pg.media 0) : ¬ wakeRestMay (keyOf f p) := by
  have ho : ∀ n < 4, stays (Pg.loupe n) = false ∧ stays (Pg.aud n) = false := by decide
  rintro (h | h | ⟨k, -, h⟩ | ⟨n, hn, h, -⟩ | h)
  · exact hd h
  · exact hb h
  · simp only [keyOf, Pg.media] at h hm; omega
  · have hpage : keyOf f p / 0x1000 = p := by simp only [keyOf]; omega
    rw [hpage] at h
    rcases h with rfl | rfl
    · rw [(ho n hn).1] at hp; exact Bool.false_ne_true hp
    · rw [(ho n hn).2] at hp; exact Bool.false_ne_true hp
  · exact not_settleAllMay hf hlt hk (.inl hp) h

/-! ### The wake -/

theorem State.bootImage_congr {s t : State} (h0 : t.fw.flash0 = s.fw.flash0) (h1 : t.fw.flash1 = s.fw.flash1)
    (hm : t.fld Pg.security Reg.SECURITY_MIN_SVN = s.fld Pg.security Reg.SECURITY_MIN_SVN) : t.bootImage = s.bootImage := by
  unfold State.bootImage
  rw [h0, h1, hm]

/-- The state with its domains back, before its memory and firmware follow. -/
def State.woken (s : State) : State :=
  if s.on Pg.coll Reg.COLL_CTRL_SLEEP_KEEP then (s.toMode .standby .settled).wakeDomains allPages
  else ((s.toMode .standby .settled).wakeDomains allPages).collRestart

theorem State.sleepKeep_wakeDomains (s : State) (l : List Nat) (hl : ∀ p ∈ l, p < 1024) :
    (s.wakeDomains l).on Pg.coll Reg.COLL_CTRL_SLEEP_KEEP = s.on Pg.coll Reg.COLL_CTRL_SLEEP_KEEP := by
  refine congrArg (fun n => decide (n = 1)) ((s.wakeDomains_writes l hl).fld ?_)
  rintro ⟨q, -, -, h | ⟨-, h, -⟩ | ⟨h, h'⟩⟩
  · simp only [keyOf] at h; omega
  · exact absurd h (by decide)
  · subst h; exact absurd h' (by unfold settleMay; decide)

theorem State.wake_of_sleep {s : State} (h : s.ctl.mode = .sleep) : s.wake = s.woken.wakeRest := by
  unfold State.wake
  rw [if_neg (by simp [h])]
  rfl

/-- The registers up to the domains and the time that starts anew, and what stays of them. -/
theorem State.woken_writes (s : State) : s.WritesIn s.woken s.wakeMay
    ∧ s.woken.fld Pg.global Reg.GLOBAL_STATE_MODE = 0
    ∧ s.woken.fld Pg.security Reg.SECURITY_MIN_SVN = s.fld Pg.security Reg.SECURITY_MIN_SVN
    ∧ s.woken.fld Pg.coll Reg.COLL_EVENT_ALARM = s.fld Pg.coll Reg.COLL_EVENT_ALARM
    ∧ (∀ p ∈ allPages, s.sleepsOff p = true → essential (pageDomain p) = true → s.woken.fld p Reg.COMMON_PWR_REQ_STATUS = 3) := by
  have hall : ∀ p ∈ allPages, p < 1024 := fun p hp => lt_of_mem_allPages hp
  have hto := s.writesIn_toMode .standby .settled
  have hmode : (s.toMode .standby .settled).fld Pg.global Reg.GLOBAL_STATE_MODE = 0 := State.fld_toMode _ _ _
  have hkeep : (s.toMode .standby .settled).on Pg.coll Reg.COLL_CTRL_SLEEP_KEEP = s.on Pg.coll Reg.COLL_CTRL_SLEEP_KEEP :=
    congrArg (fun n => decide (n = 1)) (hto.fld (by decide))
  have hsvn : (s.toMode .standby .settled).fld Pg.security Reg.SECURITY_MIN_SVN = s.fld Pg.security Reg.SECURITY_MIN_SVN := hto.fld (by decide)
  have hev : (s.toMode .standby .settled).fld Pg.coll Reg.COLL_EVENT_ALARM = s.fld Pg.coll Reg.COLL_EVENT_ALARM := hto.fld (by decide)
  have hoff := fun p => State.sleepsOff_congr hkeep p
  have hw0 : s.WritesIn (s.toMode .standby .settled) s.wakeMay := hto.mono fun a ha => s.wakeMay_of_page (by rw [ha]; decide)
  unfold State.woken
  generalize s.toMode .standby .settled = u at *
  have hd := u.wakeDomains_writes allPages hall
  have hst := fun p => u.wakeDomains_status allPages hall (p := p)
  have h1 : s.WritesIn (u.wakeDomains allPages) s.wakeMay := hw0.trans (hd.mono fun a => by
    rintro ⟨p, hp, hs, h | h⟩
    · refine .inl ?_
      have hpage : a / 0x1000 % 1024 = p := by
        have := hall p hp
        rw [h]; simp only [keyOf]; omega
      rw [hpage, ← hoff, hs]
    · exact s.wakeMay_settle (hoff p ▸ hs) (settleMay_of_refillMay h))
  have h2 : (u.wakeDomains allPages).fld Pg.global Reg.GLOBAL_STATE_MODE = 0 := by
    refine (hd.fld ?_).trans hmode
    rintro ⟨p, -, hs, h | ⟨h, -⟩ | ⟨h, h'⟩⟩
    · simp only [keyOf] at h; omega
    · have : p = 0 := h.symm
      subst this
      exact absurd hs (by unfold State.sleepsOff; rw [show pageDomain 0 = 0 from by decide]; exact Bool.false_ne_true)
    · subst h; exact absurd h' (by unfold settleMay; decide)
  have h3 : (u.wakeDomains allPages).fld Pg.security Reg.SECURITY_MIN_SVN = s.fld Pg.security Reg.SECURITY_MIN_SVN := by
    refine (hd.fld ?_).trans hsvn
    rintro ⟨p, -, hs, h | ⟨h, -, h'⟩ | ⟨h, h'⟩⟩
    · simp only [keyOf] at h; omega
    · obtain rfl : p = Pg.security := h.symm.trans (by decide)
      exact absurd h' (by decide)
    · subst h; exact absurd h' (by unfold settleMay; decide)
  have h3' : (u.wakeDomains allPages).fld Pg.coll Reg.COLL_EVENT_ALARM = s.fld Pg.coll Reg.COLL_EVENT_ALARM := by
    refine (hd.fld ?_).trans hev
    rintro ⟨p, -, -, h | ⟨-, h, -⟩ | ⟨h, h'⟩⟩
    · simp only [keyOf] at h; omega
    · exact absurd h (by decide)
    · subst h; exact absurd h' (by unfold settleMay; decide)
  have h4 : ∀ p ∈ allPages, s.sleepsOff p = true → essential (pageDomain p) = true →
      (u.wakeDomains allPages).fld p Reg.COMMON_PWR_REQ_STATUS = 3 := fun p hp hs => hst p hp ((hoff p).trans hs)
  generalize u.wakeDomains allPages = v at *
  have hr := v.writesIn_collRestart
  have hrw : ∀ a ∈ restartKeys, wokenPage (a / 0x1000 % 1024) = true := by decide
  have hrs : ∀ a ∈ restartKeys, a % 0x1000 ≠ 0x024 := by decide
  split
  · exact ⟨h1, h2, h3, h3', h4⟩
  · refine ⟨h1.trans (hr.mono fun a ha => s.wakeMay_of_page (hrw a ha)), (hr.fld (by decide)).trans h2, (hr.fld (by decide)).trans h3, (hr.fld (by decide)).trans h3',
      fun p hp hs he => ?_⟩
    exact (hr.fld fun hk => hrs _ hk (by simp only [keyOf]; omega)).trans (h4 p hp hs he)

theorem State.wakeDomains_touches (s : State) (l : List Nat) : s.Touches (s.wakeDomains l) [.regs, .ctlLatches, .pwrRising] := by
  unfold State.wakeDomains
  exact .foldl (.refl s _) (fun v p => .ite (v.goUp_touches p) (.refl v _)) l

/-- The state with its domains back is settled in STANDBY, and its time runs on where SLEEP_KEEP kept it. -/
theorem State.woken_settled (s : State) : s.woken.ctl.mode = .standby ∧ s.woken.ctl.phase = .settled
    ∧ (s.on Pg.coll Reg.COLL_CTRL_SLEEP_KEEP = true → s.woken.time = s.time ∧ s.woken.coll = s.coll) := by
  have hd := (s.toMode .standby .settled).wakeDomains_touches allPages
  have hm := (hd.same .ctlMode (by decide)).trans (show (s.toMode .standby .settled).ctl.mode = .standby from rfl)
  have hp := (hd.same .ctlPhase (by decide)).trans (show (s.toMode .standby .settled).ctl.phase = .settled from rfl)
  unfold State.woken
  split
  · exact ⟨hm, hp, fun _ => ⟨hd.same .time (by decide), hd.coll_eq rfl⟩⟩
  · next hk => exact ⟨hm, hp, fun h => absurd h hk⟩

/-- The parts that what follows a wake's domains may change, beside the memory's. -/
theorem State.wakeRest_touches (s : State) : s.dramWake.Touches s.wakeRest [.seed, .regs, .ctlLatches, .portA, .portB, .fstoreMem, .drdecOutCount,
    .drdecLast, .drdecCur, .drdecRecords, .drdecReady, .hdec, .aud, .condParked, .relayDescs, .fwA, .fwB, .fwWaiting, .fwRunning, .fwFailover,
    .fwReports, .fwWritten, .fwRead, .pwrHeld, .pwrRising, .loupe, .mirror, .flows] :=
  .step (.step (.step ((State.bootFw_touches _).mono rfl) (State.mediaStart_touches _) rfl) (State.outputsStart_touches _) rfl)
    (State.settleAll_touches _) rfl

/-- A register of a media port, beside STATE, stays once the firmware is loaded; STATE follows ENABLE. -/
theorem State.wakeRest_media (s : State) {k : Nat} (hk : k < 2) :
    s.wakeRest.fld (Pg.media k) Reg.MEDIA_STATE_PORT = if s.wakeRest.on (Pg.media k) Reg.MEDIA_CTRL_ENABLE then 1 else 0 := by
  have hst : stays (Pg.media k) = true ∧ Pg.media k < 1024 ∧ Pg.media k ≠ Pg.pwr := by interval_cases k <;> decide
  have hkeep : ∀ (f : Fld) (v : State), f.off < 0x1000 → v.outputsStart.settleAll.fld (Pg.media k) f = v.fld (Pg.media k) f := fun f v hf => by
    refine ((State.writesIn_settleAll _).fld (not_settleAllMay hf hst.2.1 hst.2.2 (.inl hst.1))).trans ((State.writesIn_outputsStart _).fld ?_)
    rintro ⟨n, hn, h, -⟩
    simp only [keyOf, Pg.media, Pg.loupe, Pg.aud] at h
    omega
  have hon : s.wakeRest.on (Pg.media k) Reg.MEDIA_CTRL_ENABLE = s.dramWake.bootFw.on (Pg.media k) Reg.MEDIA_CTRL_ENABLE := by
    refine congrArg (fun n => decide (n = 1)) ((hkeep Reg.MEDIA_CTRL_ENABLE _ (by decide)).trans ((State.writesIn_mediaStart _).fld ?_))
    rintro ⟨j, -, h⟩
    simp only [keyOf] at h
    omega
  rw [hon]
  exact (hkeep Reg.MEDIA_STATE_PORT _ (by decide)).trans (State.fld_mediaStart _ hk)

theorem State.wakeRest_fw (s : State) : s.wakeRest.fw = { flash0 := s.fw.flash0, flash1 := s.fw.flash1, a := s.bootImage, b := s.bootImage } := by
  have hto : s.dramWake.bootFw.Touches s.wakeRest [.seed, .regs, .ctlLatches, .portA, .portB, .fstoreMem, .drdecOutCount, .drdecLast, .drdecCur,
      .drdecRecords, .drdecReady, .hdec, .aud, .condParked, .relayDescs, .pwrHeld, .pwrRising, .loupe, .mirror, .flows] :=
    .step (.step ((State.mediaStart_touches _).mono rfl) (State.outputsStart_touches _) rfl) (State.settleAll_touches _) rfl
  have hd := s.dramWake_touches
  have hb : s.dramWake.bootImage = s.bootImage :=
    State.bootImage_congr (hd.same .fwFlash0 (by decide)) (hd.same .fwFlash1 (by decide)) (s.writesIn_dramWake.fld (by decide))
  rw [← hb]
  have hfw : s.wakeRest.fw = s.dramWake.bootFw.fw := hto.fw_eq rfl
  rw [hfw, State.bootFw_fw, show s.dramWake.fw.flash0 = s.fw.flash0 from hd.same .fwFlash0 (by decide),
    show s.dramWake.fw.flash1 = s.fw.flash1 from hd.same .fwFlash1 (by decide)]

/-- What a wake from SLEEP does. -/
theorem State.wake_effect {s : State} (h : s.ctl.mode = .sleep) :
    s.wake.ctl.mode = .standby ∧ s.wake.ctl.phase = .settled ∧ s.wake.fld Pg.global Reg.GLOBAL_STATE_MODE = 0
      ∧ s.wake.fw = { flash0 := s.fw.flash0, flash1 := s.fw.flash1, a := s.bootImage, b := s.bootImage }
      ∧ s.wake.fld Pg.security Reg.SECURITY_MIN_SVN = s.fld Pg.security Reg.SECURITY_MIN_SVN
      ∧ (∀ k, k < 2 → s.wake.fld (Pg.media k) Reg.MEDIA_STATE_PORT = if s.wake.on (Pg.media k) Reg.MEDIA_CTRL_ENABLE then 1 else 0)
      ∧ (∀ p ∈ allPages, s.sleepsOff p = true → essential (pageDomain p) = true → s.wake.fld p Reg.COMMON_PWR_REQ_STATUS = 3)
      ∧ s.WokenFrom s.wake := by
  have hall := s.wake_touches
  rw [State.wake_of_sleep h] at hall ⊢
  obtain ⟨w1, w2, w3, -, w4⟩ := s.woken_writes
  obtain ⟨m1, m2, m3⟩ := s.woken_settled
  have hto : s.Touches s.woken [.regs, .ctlMode, .ctlPhase, .ctlLatches, .pwrRising, .collF, .collMasters, .collSel, .collDelays, .collSync,
      .collT3, .collAccepted, .collReceived, .collStepSum, .collStepNum, .collSmall, .collWithin, .time] := by
    unfold State.woken
    exact .ite (.step ((State.toMode_touches s .standby .settled).mono rfl) (State.wakeDomains_touches _ _) rfl)
      (.step (.step ((State.toMode_touches s .standby .settled).mono rfl) (State.wakeDomains_touches _ _) rfl) (State.collRestart_touches _) rfl)
  generalize s.woken = u at *
  have hrest := u.wakeRest_touches
  have hdw := u.dramWake_touches
  have hwr := u.writesIn_wakeRest
  have hmode : u.wakeRest.ctl.mode = .standby :=
    (hrest.same .ctlMode (by decide)).trans ((hdw.same .ctlMode (by decide)).trans m1)
  have hphase : u.wakeRest.ctl.phase = .settled :=
    (hrest.same .ctlPhase (by decide)).trans ((hdw.same .ctlPhase (by decide)).trans m2)
  have hdramc : u.wakeRest.dramc.change = none ∧ u.wakeRest.dramc.started = false ∧ u.wakeRest.dramc.held = none
      ∧ u.wakeRest.dramc.gather = none ∧ u.wakeRest.dramc.next = 0 := by
    have h1 : u.wakeRest.dramc = u.dramWake.dramc := hrest.dramc_eq rfl
    have h2 : u.dramWake.dramc = { u.dramc with change := none, started := false, held := none, gather := none, next := 0 } := rfl
    rw [h1, h2]
    exact ⟨rfl, rfl, rfl, rfl, rfl⟩
  have hb : u.bootImage = s.bootImage :=
    State.bootImage_congr (hto.same .fwFlash0 (by decide)) (hto.same .fwFlash1 (by decide)) w3
  have hwall : s.WritesIn u.wakeRest s.wakeMay := w1.trans (hwr.mono fun a => s.wakeMay_of_rest)
  refine ⟨hmode, hphase, ?_, ?_, ?_, fun k hk => u.wakeRest_media hk, fun p hp hs he => ?_, ?_, fun hk => ?_, fun a ha hb => ?_, ?_⟩
  · exact (hwr.fld (not_wakeRestMay (by decide) (by decide) (by decide) (by decide) (by decide) (by decide) (by decide))).trans w2
  · rw [u.wakeRest_fw, hb, show u.fw.flash0 = s.fw.flash0 from hto.same .fwFlash0 (by decide),
      show u.fw.flash1 = s.fw.flash1 from hto.same .fwFlash1 (by decide)]
  · exact (hwr.fld (not_wakeRestMay (by decide) (by decide) (by decide) (by decide) (by decide) (by decide) (by decide))).trans w3
  · have hd : ∀ a ∈ dramWakeKeys, a % 0x1000 ≠ 0x024 := by decide
    have hbk : ∀ a ∈ bootKeys, a % 0x1000 ≠ 0x024 := by decide
    have hkey : keyOf Reg.COMMON_PWR_REQ_STATUS p % 0x1000 = 0x024 := by simp only [keyOf]; omega
    have hpwr : p ≠ Pg.pwr := by
      rintro rfl
      exact absurd hs (by unfold State.sleepsOff; rw [show pageDomain Pg.pwr = 0 from by decide]; exact Bool.false_ne_true)
    have hst : stays p = true := by unfold stays; rw [he]; rfl
    refine (hwr.fld (not_wakeRestMay (by decide) hst (lt_of_mem_allPages hp) hpwr (fun h => hd _ h hkey) (fun h => hbk _ h hkey) (fun h => absurd h (by decide)))).trans
      (w4 p hp hs he)
  · obtain ⟨d1, d2, d3, d4, d5⟩ := hdramc
    have heq := (hall.mono (l' := .seed :: .regs :: .ctlMode :: .ctlPhase :: .ctlLatches :: .portA :: .portB :: .hdec :: .aud :: .condParked ::
      .relayDescs :: .dramcChange :: .dramcStarted :: .dramcHeld :: .dramcGather :: .dramcNext :: .pwrHeld :: .pwrRising :: .loupe :: .mirror ::
      .flows :: .time :: (fstoreParts ++ drdecParts ++ collParts ++ fwParts)) rfl).eq_mix
    generalize u.wakeRest = t at *
    have hd : ({ s.dramc with change := none, started := false, held := none, gather := none, next := 0 } : DramSt) =
        { s.dramc with change := t.dramc.change, started := t.dramc.started, held := t.dramc.held, gather := t.dramc.gather, next := t.dramc.next } := by
      rw [d1, d2, d3, d4, d5]
    rw [hd, ← hmode, ← hphase]
    exact heq
  · have h1 : u.wakeRest.coll = u.dramWake.coll := hrest.coll_eq rfl
    have h2 : u.dramWake.coll = u.coll := hdw.coll_eq rfl
    obtain ⟨e1, e2⟩ := m3 hk
    exact ⟨(hrest.same .time (by decide)).trans ((hdw.same .time (by decide)).trans e1), h1.trans (h2.trans e2)⟩
  · refine hwall a ?_
    rintro (h | h)
    · rw [ha] at h; exact Bool.false_ne_true h
    · exact hb h
  · refine ⟨fun a => congrArg (fun d => d.get a) (hall.same .dram (by decide)),
      fun a => congrArg (fun d => d.get a) (hall.same .relayCluster (by decide)), fun k a => ?_⟩
    unfold State.drive
    rw [hall.same .mediaDrives (by decide)]

theorem State.wake_event {s : State} (h : s.ctl.mode = .sleep) : s.wake.fld Pg.coll Reg.COLL_EVENT_ALARM = s.fld Pg.coll Reg.COLL_EVENT_ALARM := by
  obtain ⟨-, -, -, hev, -⟩ := s.woken_writes
  rw [State.wake_of_sleep h, ← hev]
  exact s.woken.writesIn_wakeRest.fld
    (not_wakeRestMay (by decide) (by decide) (by decide) (by decide) (by decide) (by decide) (by decide))

/-! ### The alarm -/

/-- The alarm disarmed and raised. -/
def State.alarmed (s : State) : State := (s.setFld Pg.coll Reg.COLL_ALARM_CTRL_ARM 0).raise Pg.coll Reg.COLL_EVENT_ALARM

theorem State.alarmed_writes (s : State) : s.WritesIn s.alarmed (· ∈ [keyOf Reg.COLL_ALARM_CTRL_ARM Pg.coll, keyOf Reg.COLL_EVENT_ALARM Pg.coll]) :=
  .raise (State.WritesIn.setFld (.refl s _) _ (by decide)) (by decide)

theorem State.alarmed_touches (s : State) : s.Touches s.alarmed [.regs, .ctlLatches] :=
  .step ((State.setFld_touches _ _ _ _).mono rfl) (State.raise_touches _ _ _) rfl

/-- What an alarm writes is on the Collimator's page alone. -/
theorem State.wokenFrom_alarmed {s t : State} (h : s.alarmed.WokenFrom t) : s.WokenFrom t := by
  have hto := s.alarmed_touches
  have hw := s.alarmed_writes
  have hkeep : s.alarmed.on Pg.coll Reg.COLL_CTRL_SLEEP_KEEP = s.on Pg.coll Reg.COLL_CTRL_SLEEP_KEEP :=
    congrArg (fun n => decide (n = 1)) (hw.fld (by decide))
  have heq : s.alarmed = { s with regs := s.alarmed.regs, ctl := { s.ctl with latches := s.alarmed.ctl.latches } } := hto.eq_mix
  have hpg : ∀ a ∈ [keyOf Reg.COLL_ALARM_CTRL_ARM Pg.coll, keyOf Reg.COLL_EVENT_ALARM Pg.coll], a / 0x1000 % 1024 = Pg.coll := by decide
  obtain ⟨h1, h2, h3, h4⟩ := h
  generalize s.alarmed = u at *
  obtain ⟨r, l, rfl⟩ : ∃ r l, u = ({ s with regs := r, ctl := { s.ctl with latches := l } } : State) := ⟨_, _, heq⟩
  refine ⟨h1, fun hk => h2 (hkeep.trans hk), fun a ha hb => ?_, h4⟩
  rw [h3 a ((State.sleepsOff_congr hkeep _).trans ha) hb]
  exact hw a fun hmem => hb (by rw [hpg a hmem]; decide)

/-- Settles O43: a wake brings back the domains that SLEEP held off, then what follows them; an alarm disarms itself and may wake. -/
theorem wakesAndAlarms : Obligations.WakesAndAlarms := by
  unfold Obligations.WakesAndAlarms
  refine ⟨fun s h => ⟨_, rfl, State.wake_effect h⟩, fun s h => congrArg Host.Outcome.next (if_pos h), fun s harm hrun htime => ?_⟩
  have heq : s.alarm = if s.alarmed.on Pg.coll Reg.COLL_ALARM_CTRL_WAKE then s.alarmed.wake else s.alarmed := by
    unfold State.alarm
    dsimp only
    rw [if_pos (by rw [harm, hrun, decide_eq_true htime]; rfl)]
    rfl
  have hw := s.alarmed_writes
  have hto := s.alarmed_touches
  have harm' : s.alarmed.fld Pg.coll Reg.COLL_ALARM_CTRL_ARM = 0 := by
    unfold State.alarmed
    rw [State.fld_raise_ne _ _ _ _ _ (by decide) (.inl (by decide)), State.fld_setFld_of_width _ _ _ _ (by decide) (by decide)]
  have hev : s.alarmed.fld Pg.coll Reg.COLL_EVENT_ALARM = 1 := State.fld_raise_same _ _ _ (by decide) rfl
  have hwake : s.alarmed.on Pg.coll Reg.COLL_ALARM_CTRL_WAKE = s.on Pg.coll Reg.COLL_ALARM_CTRL_WAKE := by
    unfold State.alarmed State.on
    rw [State.fld_raise_ne _ _ _ _ _ (by decide) (.inl (by decide)), State.fld_setFld_ne _ _ _ _ _ _ (by decide) (.inr (.inl (by decide)))]
  have hmode : s.alarmed.ctl.mode = s.ctl.mode := hto.same .ctlMode (by decide)
  have hfw : s.alarmed.fw = s.fw := hto.fw_eq rfl
  have hbi : s.alarmed.bootImage = s.bootImage := State.bootImage_congr (by rw [hfw]) (by rw [hfw]) (hw.fld (by decide))
  refine ⟨_, congrArg Host.Outcome.next heq, fun hno => ?_, fun hm hk => ?_⟩
  · have hsame : (if s.alarmed.on Pg.coll Reg.COLL_ALARM_CTRL_WAKE then s.alarmed.wake else s.alarmed) = s.alarmed := by
      split
      · next hk =>
        refine if_pos ?_
        rw [hmode]
        exact hno.resolve_right (by rw [← hwake, hk]; exact Bool.noConfusion)
      · rfl
    rw [hsame]
    exact ⟨harm', hev, .of_writes hw hto⟩
  · rw [if_pos (hwake.trans hk)]
    obtain ⟨e1, e2, -, e4, -, -, -, e8⟩ := State.wake_effect (hmode.trans hm)
    exact ⟨e1, e2, (State.wake_event (hmode.trans hm)).trans hev, by rw [e4, hfw, hbi], State.wokenFrom_alarmed e8⟩

end Sys2Proof.Machine
end

section
/-! PROOFS. Power requests, draining and the limiter (R480 to R488). -/

set_option Elab.async false

namespace Sys2Proof.Machine

/-- A state with a domain that rises beyond the register space: its PWR_REQ register, at page 1024, asks for 3 and shows the domain off. -/
def pageBeyond : State := { regs := [(keyOf Reg.COMMON_PWR_REQ_REQ 1024, 3)], pwr := { rising := [1024] } }

/-- Refutes O59: the statement ranges over every page number, and DOMAIN_ON of page 1024, beyond the register space, shows STATUS 3 in a register
whose address counts as page 0, so that it cannot keep all pages but 1024. No run reaches this state. -/
theorem not_powerDomains : ¬ Obligations.PowerDomains := by
  unfold Obligations.PowerDomains
  rintro ⟨-, -, hon, -⟩
  obtain ⟨t, ht, hst, -, -, -, hkeep, -⟩ := (hon pageBeyond 1024 _ (by decide) (by decide) rfl rfl).2 (by decide) (by decide)
  have h := hkeep (keyOf Reg.COMMON_PWR_REQ_STATUS 1024) (by decide)
  have hfld : t.fld 1024 Reg.COMMON_PWR_REQ_STATUS = pageBeyond.fld 1024 Reg.COMMON_PWR_REQ_STATUS := by rw [State.fld, h]; rfl
  rw [hst] at hfld
  exact absurd hfld (by decide)

end Sys2Proof.Machine
end

section
/-! PROOFS. REGISTER_WRITE of block registers, its refusals and bus errors (R33, R40, R43, R47, R54, R451, R465). -/

set_option Elab.async false

namespace Sys2Proof.Machine

/-! ### Where a write of a register goes -/

theorem regSet_of_aligned {r : Req} {p o : Nat} {v : Word} {s : State} (hp : p < 0x400) (ho : o < 0x1000) (h4 : o % 4 = 0) :
    regSet r (p * 0x1000 + o) 15 v s = writeAt r p o v s := by
  have h1 : ¬ 0x400000 ≤ p * 0x1000 + o := by omega
  have h2 : (p * 0x1000 + o) / 0x1000 = p := by omega
  have h3 : (p * 0x1000 + o) % 0x1000 = o := by omega
  have h5 : (p * 0x1000 + o) % 4 = 0 := by omega
  have hok : (s.reach r && (decide (15 % 16 ≠ 15) || decide ((p * 0x1000 + o) % 4 ≠ 0))) = false := by simp [h5]
  unfold regSet
  cases r <;> simp only [reqFn?, if_neg h1, hok, h2, h3, Bool.false_eq_true, if_false]

theorem regSet_of_misused {r : Req} {off be : Nat} {v : Word} {s : State} (hoff : off < 0x400000) (hr : s.reach r = true)
    (h : be % 16 ≠ 15 ∨ off % 4 ≠ 0) : regSet r off be v s = s.busError r off true := by
  have h1 : ¬ 0x400000 ≤ off := by omega
  have hbad : (s.reach r && (decide (be % 16 ≠ 15) || decide (off % 4 ≠ 0))) = true := by simpa [hr] using h
  unfold regSet
  cases r <;> simp only [reqFn?, if_neg h1, hbad, if_true]

/-- A block of one page. -/
theorem page_of_single {p base i : Nat} {b : Blk} (h : pageBlk p = some (b, i))
    (hb : (pageMap.all fun e => decide (e.2.2 = b → e.1 = base ∧ e.2.1 = 1)) = true) : p = base := by
  obtain ⟨h1, h2⟩ := page_of_pageBlk h hb
  omega

theorem groupIdx_some {base stride n o k : Nat} (h : groupIdx base stride n o = some k) : k < n ∧ o = base + stride * k := by
  unfold groupIdx at h
  split at h
  · next hc =>
    obtain ⟨h1, h2, h3⟩ := hc
    obtain rfl := Option.some.inj h
    have hdvd := Nat.div_add_mod (o - base) stride
    refine ⟨?_, by omega⟩
    by_contra hn
    have : n * stride ≤ stride * ((o - base) / stride) := by rw [Nat.mul_comm]; exact Nat.mul_le_mul_left _ (by omega)
    omega
  · cases h

/-- Every write of a register of a block begins with the checks of a register write. -/
theorem writeBlk_checked (r : Req) (p o : Nat) (v : Word) (s : State) : ∃ k, writeBlk r p o v s = withWrite r p o v s k := by
  have hplain : ∃ k, writePlain r p o v s = withWrite r p o v s k := ⟨_, rfl⟩
  unfold writeBlk
  split
  case h_1 h =>
    obtain rfl : p = Pg.global := page_of_single h (by decide)
    split
    · next ho => subst ho; exact ⟨_, writeVecRearm.eq_1 r v s⟩
    split
    · next ho => subst ho; exact ⟨_, writeResetCtrl.eq_1 r v s⟩
    · exact hplain
  case h_2 h =>
    obtain rfl : p = Pg.guard := page_of_single h (by decide)
    split
    · next ho => subst ho; exact ⟨_, writeSupplyReq.eq_1 r v s⟩
    split
    · next ho => subst ho; exact ⟨_, writeSeq.eq_1 r 0 v s⟩
    split
    · next ho => subst ho; exact ⟨_, writeSeq.eq_1 r 1 v s⟩
    split
    · exact ⟨_, writeWindow.eq_1 r o v s⟩
    · exact hplain
  case h_3 k h =>
    obtain ⟨rfl, -⟩ := page_of_pageBlk (base := 0x010) (n := 48) h (by decide)
    split
    · next ho => subst ho; exact ⟨_, writeTestCtrl.eq_1 r k v s⟩
    · exact hplain
  case h_4 k h =>
    obtain ⟨rfl, -⟩ := page_of_pageBlk (base := 0x040) (n := 2) h (by decide)
    split
    · next ho => subst ho; exact ⟨_, writeBcCtrl.eq_1 r k v s⟩
    · exact hplain
  case h_5 h =>
    obtain rfl : p = Pg.fstore := page_of_single h (by decide)
    split
    · next ho => subst ho; exact ⟨_, writeLoadCtrl.eq_1 r v s⟩
    split
    · next k hk =>
      obtain ⟨hlt, rfl⟩ := groupIdx_some hk
      exact ⟨_, (writeSlotCfg.eq_1 r k v s).trans (if_neg (by omega))⟩
    · exact hplain
  case h_6 h =>
    obtain rfl : p = Pg.drdec := page_of_single h (by decide)
    split
    · next ho => subst ho; exact ⟨_, writeDrdecInProd.eq_1 r v s⟩
    · exact hplain
  case h_7 k h =>
    obtain ⟨rfl, hk⟩ := page_of_pageBlk (base := 0x08C) (n := 2) h (by decide)
    split
    · next ho => obtain ⟨rfl, -⟩ := ho; exact ⟨_, (writeHdecInProd.eq_1 r k v s).trans (if_neg (by omega))⟩
    · exact hplain
  case h_8 h =>
    obtain rfl : p = Pg.hostq := page_of_single h (by decide)
    split
    · next ho => subst ho; exact ⟨_, writeDoorbell.eq_1 r v s⟩
    split
    · next ho => subst ho; exact ⟨_, writeAqCtrl.eq_1 r v s⟩
    · exact hplain
  case h_9 h =>
    obtain rfl : p = Pg.pkt2110 := page_of_single h (by decide)
    split
    · next k hk =>
      obtain ⟨-, rfl⟩ := groupIdx_some hk
      exact ⟨_, writeFlowCfg.eq_1 r k v s⟩
    · exact hplain
  case h_10 h =>
    obtain rfl : p = Pg.coll := page_of_single h (by decide)
    split
    · next ho => subst ho; exact ⟨_, writePtpCfg.eq_1 r v s⟩
    · exact hplain
  case h_11 h =>
    obtain rfl : p = Pg.relay := page_of_single h (by decide)
    split
    · next k hk =>
      obtain ⟨-, rfl⟩ := groupIdx_some hk
      exact ⟨_, writeChCtrl.eq_1 r k v s⟩
    · exact hplain
  case h_12 h =>
    obtain rfl : p = Pg.dramctl := page_of_single h (by decide)
    split
    · next ho => subst ho; exact ⟨_, writeFreq.eq_1 r v s⟩
    · exact hplain
  case h_13 h =>
    obtain rfl : p = Pg.security := page_of_single h (by decide)
    split
    · next ho => subst ho; exact ⟨_, writeSvnCtrl.eq_1 r v s⟩
    · exact hplain
  case h_14 => exact hplain

/-! ### The blocks whose registers take plain writes -/

/-- A page of a plain block is none of the pages whose registers have an effect of their own. -/
theorem plain_page {p i : Nat} {b : Blk} (h : pageBlk p = some (b, i)) (hb : b ∈ plainBlocks) :
    p < 0x400 ∧ p ≠ Pg.global ∧ p ≠ Pg.guard ∧ p ≠ Pg.hostq ∧ p ≠ Pg.coll ∧ p ≠ Pg.pkt2110 ∧ ¬ (Pg.lane 16 ≤ p ∧ p ≤ Pg.lane 21) := by
  have hne : ∀ q : Nat, (∀ c j, pageBlk q = some (c, j) → c ∉ plainBlocks) → p ≠ q := fun q hq hpq => hq b i (hpq ▸ h) hb
  have hlit : ∀ {q : Nat} {c j}, pageBlk q = some (c, j) → c ∉ plainBlocks → p ≠ q := fun {q c j} hq hc =>
    hne q fun c' j' h' => by rw [hq] at h'; cases h'; exact hc
  have hlane : ∀ n < 6, ∀ c j, pageBlk (Pg.lane (16 + n)) = some (c, j) → c ∉ plainBlocks := fun n hn => by
    interval_cases n <;> intro c j h <;> (cases h; decide)
  refine ⟨lt_of_pageBlk h, hlit (q := Pg.global) rfl (by decide), hlit (q := Pg.guard) rfl (by decide), hlit (q := Pg.hostq) rfl (by decide),
    hlit (q := Pg.coll) rfl (by decide), hlit (q := Pg.pkt2110) rfl (by decide), fun hl => ?_⟩
  simp only [Pg.lane] at hl
  refine hne (Pg.lane (16 + (p - 0x020))) (hlane _ (by omega)) ?_
  simp only [Pg.lane]
  omega

theorem writeAt_plain {p o i : Nat} {b : Blk} (h : pageBlk p = some (b, i)) (hb : b ∈ plainBlocks) (ho : 0x040 ≤ o) (r : Req) (v : Word) (s : State) :
    writeAt r p o v s = writePlain r p o v s := by
  obtain ⟨-, hg, hgd, -, -, -, hl⟩ := plain_page h hb
  have hblk : writeBlk r p o v s = writePlain r p o v s := by
    unfold writeBlk
    rw [h]
    cases b <;> first | rfl | exact absurd hb (by decide)
  unfold writeAt afterWrite
  have hlane : ¬ (Pg.lane 16 ≤ p ∧ p ≤ Pg.lane 21 ∧ (o = 0x050 ∨ o = 0x054) ∨ p = Pg.guard ∧ o = 0x068) := fun hc =>
    hc.elim (fun hc => hl ⟨hc.1, hc.2.1⟩) fun hc => hgd hc.1
  rw [if_neg (by omega), if_neg (fun hc => hg hc.1), if_neg hlane, if_neg (by omega), if_neg (by omega), if_neg (by omega), if_neg (by omega),
    if_neg (by omega), if_pos ho, hblk]

theorem bankPage_plain {r : Req} {p o i : Nat} {b : Blk} (h : pageBlk p = some (b, i)) (hb : b ∈ plainBlocks) : bankPage r p o = p := by
  obtain ⟨-, -, -, hq, hc, -⟩ := plain_page h hb
  unfold bankPage
  rw [if_neg (by simp [hq]), if_neg (by simp [hc])]

theorem writeVeto_plain {r : Req} {p o i : Nat} {b : Blk} {s : State} (h : pageBlk p = some (b, i)) (hb : b ∈ plainBlocks) : s.writeVeto r p o = false := by
  unfold State.writeVeto
  rw [h]
  cases b <;> first | rfl | exact absurd hb (by decide)

theorem regSet_plain {p o i : Nat} {b : Blk} (h : pageBlk p = some (b, i)) (hb : b ∈ plainBlocks) (ho : 0x040 ≤ o) (ho' : o < 0x1000)
    (h4 : o % 4 = 0) (r : Req) (v : Word) (s : State) : regSet r (p * 0x1000 + o) 15 v s = writePlain r p o v s :=
  (regSet_of_aligned (plain_page h hb).1 ho' h4).trans (writeAt_plain h hb ho r v s)

/-! ### The checks of a register write -/

theorem withWrite_of_none {s : State} {r : Req} {p o : Nat} {v : Word} (k : State → Word → Word → State) (hr : s.reach r = true)
    (hf : fieldsAt p o = none) : withWrite r p o v s k = s.busError r (p * 0x1000 + o) true := by
  unfold withWrite
  rw [if_neg (by simp [hr])]
  simp only [hf]

/-- A write by PF1 of privileged fields alone is counted. -/
theorem withWrite_of_denied {s : State} {p o : Nat} {v : Word} {fs : List FieldSpec} (k : State → Word → Word → State) (hr : s.reach .pf1 = true)
    (hf : fieldsAt p o = some fs) (hprv : ∀ f ∈ fs, f.prv = true) (hd : denies p o fs v = true) :
    withWrite .pf1 p o v s k = s.count Pg.guard Reg.GUARD_PRV_DENY_COUNT := by
  have hnil : fs.filter (fun f => !f.prv) = [] := List.filter_eq_nil_iff.2 fun f h => by simp [hprv f h]
  unfold withWrite
  rw [if_neg (by simp [hr])]
  simp only [hf, hd, hnil, decide_true, Bool.and_self, if_true, List.isEmpty_nil]

theorem withWrite_of_off {s : State} {r : Req} {p o : Nat} {v : Word} {fs : List FieldSpec} (k : State → Word → Word → State) (hr : s.reach r = true)
    (h1 : r ≠ .pf1) (hf : fieldsAt p o = some fs) (hne : fs ≠ []) (ho : 0x040 ≤ o) (hoff : s.domainOff p = true) :
    withWrite r p o v s k = s.reject p := by
  have hempty : fs.isEmpty = false := by cases fs with | nil => exact absurd rfl hne | cons => rfl
  unfold withWrite
  rw [if_neg (by simp [hr])]
  simp only [hf, h1, hempty, ho, hoff, decide_false, Bool.false_and, Bool.false_eq_true, if_false, and_self, if_true]

/-- The checks of a write by PF0 or the firmware, outside the guard. -/
theorem withWrite_open {s : State} {r : Req} {p o : Nat} {v : Word} {fs : List FieldSpec} (k : State → Word → Word → State) (hr : s.reach r = true)
    (h1 : r ≠ .pf1) (hp : p ≠ Pg.guard) (hb : bankPage r p o = p) (hf : fieldsAt p o = some fs) (hne : fs ≠ [])
    (hw1 : (fs.any fun f => decide (f.kind = .w1)) = false) :
    withWrite r p o v s k =
      if 0x040 ≤ o ∧ s.domainOff p then s.reject p
      else if writeMask fs v = 0 then s
      else if writeMask fs v &&& s.lockMask p o ≠ 0 then s.lockViolation
      else if (fs.any fun f => f.touchSo (s.rd (p * 0x1000 + o)) v && s.soClosed p o f) || s.heldClosed (p * 0x1000 + o) p o then s.reject p
      else k s (s.rd (p * 0x1000 + o)) (applyWrite fs (s.rd (p * 0x1000 + o)) v) := by
  have hempty : fs.isEmpty = false := by cases fs with | nil => exact absurd rfl hne | cons => rfl
  unfold withWrite
  rw [if_neg (by simp [hr])]
  simp only [hf, h1, hp, hb, hempty, hw1, decide_false, Bool.false_and, Bool.and_false, Bool.false_eq_true, if_false]

/-! ### Bus errors -/

/-- The registers of a bus error. -/
def busErrorKeys : List Nat := [keyOf Reg.GLOBAL_EVENT_BUS_ERROR Pg.global, keyOf Reg.GLOBAL_BUSERR_ADDR Pg.global, keyOf Reg.GLOBAL_BUSERR_INFO_COUNT Pg.global]

/-- The first bus error is recorded; a further one leaves the record. -/
def State.recordBusError (s : State) (r : Req) (off : Nat) (write : Bool) : State :=
  if s.ctl.busErrHeld then s
  else
    ({ s with ctl := { s.ctl with busErrHeld := true } }.setFld Pg.global Reg.GLOBAL_BUSERR_ADDR off).setFld
      Pg.global Reg.GLOBAL_BUSERR_INFO_SOURCE (reqCode r) |>.setOn Pg.global Reg.GLOBAL_BUSERR_INFO_WRITE write

theorem State.busError_eq (s : State) (r : Req) (off : Nat) (write : Bool) : s.busError r off write =
    ((((s.recordBusError r off write).count Pg.global Reg.GLOBAL_BUSERR_INFO_COUNT).raise Pg.global Reg.GLOBAL_EVENT_BUS_ERROR).abort r off write) := rfl

theorem State.recordBusError_effect (s : State) (r : Req) (off : Nat) (write : Bool) (u : State) (hu : u = s.recordBusError r off write) :
    s.WritesIn u (· ∈ busErrorKeys) ∧ u = { s with regs := u.regs, ctl := { s.ctl with busErrHeld := true } }
      ∧ u.fld Pg.global Reg.GLOBAL_BUSERR_INFO_COUNT = s.fld Pg.global Reg.GLOBAL_BUSERR_INFO_COUNT
      ∧ (if s.ctl.busErrHeld = false then
          u.fld Pg.global Reg.GLOBAL_BUSERR_ADDR = off % 2 ^ 22 ∧ u.fld Pg.global Reg.GLOBAL_BUSERR_INFO_SOURCE = reqCode r
            ∧ u.fld Pg.global Reg.GLOBAL_BUSERR_INFO_WRITE = if write then 1 else 0
        else
          u.fld Pg.global Reg.GLOBAL_BUSERR_ADDR = s.fld Pg.global Reg.GLOBAL_BUSERR_ADDR
            ∧ u.fld Pg.global Reg.GLOBAL_BUSERR_INFO_SOURCE = s.fld Pg.global Reg.GLOBAL_BUSERR_INFO_SOURCE
            ∧ u.fld Pg.global Reg.GLOBAL_BUSERR_INFO_WRITE = s.fld Pg.global Reg.GLOBAL_BUSERR_INFO_WRITE) := by
  have hcode : reqCode r < 4 := by cases r <;> decide
  have hbit : (if write then 1 else 0) < 2 := by cases write <;> decide
  unfold State.recordBusError at hu
  cases hh : s.ctl.busErrHeld with
  | true =>
    rw [hh, if_pos rfl] at hu
    subst hu
    refine ⟨.refl _ _, ?_, rfl, by rw [if_neg Bool.noConfusion]; exact ⟨rfl, rfl, rfl⟩⟩
    rw [← hh]
  | false =>
    rw [hh, if_neg Bool.false_ne_true] at hu
    have h0 : s.WritesIn ({ s with ctl := { s.ctl with busErrHeld := true } } : State) (· ∈ busErrorKeys) := .of_regs (.refl s _) rfl
    have hc0 : ({ s with ctl := { s.ctl with busErrHeld := true } } : State).fld Pg.global Reg.GLOBAL_BUSERR_INFO_COUNT =
        s.fld Pg.global Reg.GLOBAL_BUSERR_INFO_COUNT := rfl
    have hframe : u = { s with regs := u.regs, ctl := { s.ctl with busErrHeld := true } } := by rw [hu]; rfl
    generalize ({ s with ctl := { s.ctl with busErrHeld := true } } : State) = w at *
    refine ⟨?_, hframe, ?_, ?_⟩
    · rw [hu]
      exact State.WritesIn.setOn (State.WritesIn.setFld (State.WritesIn.setFld h0 _ (by decide)) _ (by decide)) _ (by decide)
    · rw [hu, State.setOn, State.fld_setFld_ne _ _ _ _ _ _ (by decide) (.inr (.inl (by decide))),
        State.fld_setFld_ne _ _ _ _ _ _ (by decide) (.inr (.inl (by decide))), State.fld_setFld_ne _ _ _ _ _ _ (by decide) (.inl (by decide)), hc0]
    · rw [if_pos rfl, hu, State.setOn]
      refine ⟨?_, ?_, State.fld_setFld_of_width _ _ _ _ (by decide) hbit⟩
      · rw [State.fld_setFld_ne _ _ _ _ _ _ (by decide) (.inl (by decide)), State.fld_setFld_ne _ _ _ _ _ _ (by decide) (.inl (by decide)),
          State.fld_setFld_same _ _ _ _ (by decide)]
      · rw [State.fld_setFld_ne _ _ _ _ _ _ (by decide) (.inr (.inr (by decide))), State.fld_setFld_of_width _ _ _ _ (by decide) hcode]

/-- What a write that is a bus error does. -/
theorem State.busErrorOf (s : State) (r : Req) (off : Nat) : s.BusErrorOf (s.busError r off true) r off true := by
  have hall := s.busError_touches r off true
  rw [State.busError_eq] at hall ⊢
  obtain ⟨hw, hframe, hcnt, hrec⟩ := s.recordBusError_effect r off true _ rfl
  generalize s.recordBusError r off true = u at *
  have hraise : (u.count Pg.global Reg.GLOBAL_BUSERR_INFO_COUNT).WritesIn
      ((u.count Pg.global Reg.GLOBAL_BUSERR_INFO_COUNT).raise Pg.global Reg.GLOBAL_EVENT_BUS_ERROR) (· = keyOf Reg.GLOBAL_EVENT_BUS_ERROR Pg.global) :=
    .raise (.refl _ _) rfl
  have hev : ((u.count Pg.global Reg.GLOBAL_BUSERR_INFO_COUNT).raise Pg.global Reg.GLOBAL_EVENT_BUS_ERROR).fld Pg.global Reg.GLOBAL_EVENT_BUS_ERROR = 1 :=
    State.fld_raise_same _ _ _ (by decide) rfl
  have hc : ((u.count Pg.global Reg.GLOBAL_BUSERR_INFO_COUNT).raise Pg.global Reg.GLOBAL_EVENT_BUS_ERROR).fld Pg.global Reg.GLOBAL_BUSERR_INFO_COUNT =
      min (u.fld Pg.global Reg.GLOBAL_BUSERR_INFO_COUNT + 1) 65535 := by
    rw [hraise.fld (by decide), State.fld_count_same _ _ _ (by decide)]
    rfl
  have hkeep : ∀ f : Fld, keyOf f Pg.global ≠ keyOf Reg.GLOBAL_EVENT_BUS_ERROR Pg.global → f.lo + f.width ≤ 32 →
      keyOf f Pg.global ≠ keyOf Reg.GLOBAL_BUSERR_INFO_COUNT Pg.global ∨ f.lo + f.width ≤ Reg.GLOBAL_BUSERR_INFO_COUNT.lo →
      ((u.count Pg.global Reg.GLOBAL_BUSERR_INFO_COUNT).raise Pg.global Reg.GLOBAL_EVENT_BUS_ERROR).fld Pg.global f = u.fld Pg.global f := fun f hf hlo hd => by
    rw [hraise.fld hf, State.count, State.countBy]
    exact State.fld_setFld_ne _ _ _ _ _ _ hlo (hd.elim .inl fun h => .inr (.inr h))
  have hwv := (hw.count (p := Pg.global) (f := Reg.GLOBAL_BUSERR_INFO_COUNT) (by decide)).raise (p := Pg.global) (e := Reg.GLOBAL_EVENT_BUS_ERROR) (by decide)
  have hto : u.Touches ((u.count Pg.global Reg.GLOBAL_BUSERR_INFO_COUNT).raise Pg.global Reg.GLOBAL_EVENT_BUS_ERROR) [.regs, .ctlLatches] :=
    .step ((State.count_touches _ _ _).mono rfl) (State.raise_touches _ _ _) rfl
  generalize (u.count Pg.global Reg.GLOBAL_BUSERR_INFO_COUNT).raise Pg.global Reg.GLOBAL_EVENT_BUS_ERROR = w at *
  have habort : w.abort r off true = if r = .fw ∧ w.ctl.relayBeat = false then w.emit (.writeAbort off) else w := by
    unfold State.abort
    rw [if_neg Bool.noConfusion]
  have hregs : (w.abort r off true).regs = w.regs := by rw [habort]; split <;> rfl
  have hbeat : w.ctl.relayBeat = s.ctl.relayBeat := by rw [hto.same .ctlRelayBeat (by decide), hframe]
  have hheld : w.ctl.busErrHeld = true := by rw [hto.same .ctlBusErrHeld (by decide), hframe]
  have hout : w.out = s.out := by rw [hto.same .out (by decide), hframe]
  have hheld' : (w.abort r off true).ctl.busErrHeld = true := by rw [habort]; split <;> exact hheld
  refine ⟨(State.fld_congr hregs _ _).trans hev, ?_, hheld', ?_, ?_, ?_, ?_, hall.keepsBytes rfl⟩
  · rw [State.fld_congr hregs, hc, hcnt]
  · simp only [State.fld_congr hregs]
    rw [hkeep _ (by decide) (by decide) (.inl (by decide)), hkeep _ (by decide) (by decide) (.inr (by decide)),
      hkeep _ (by decide) (by decide) (.inr (by decide))]
    exact hrec
  · rw [if_neg Bool.noConfusion, habort, hbeat]
    split
    · exact congrArg _ hout
    · exact hout
  · exact hwv.of_regs hregs
  · have heq := hall.eq_mix
    generalize w.abort r off true = t at *
    rw [← hheld']
    exact heq

/-- Bits of latches beside, the report of a bus error stands. -/
theorem State.BusErrorOf.latches {s t u : State} {r : Req} {off : Nat} {w : Bool} (h : s.BusErrorOf t r off w) (hu : t.Touches u [.ctlLatches]) :
    s.BusErrorOf u r off w := by
  have heq : u = { t with ctl := { t.ctl with latches := u.ctl.latches } } := hu.eq_mix
  obtain ⟨l, rfl⟩ : ∃ l, u = ({ t with ctl := { t.ctl with latches := l } } : State) := ⟨_, heq⟩
  obtain ⟨h1, h2, h3, h4, h5, h6, h7, h8⟩ := h
  refine ⟨h1, h2, h3, h4, h5, h6, ?_, h8⟩
  conv_lhs => rw [h7]

/-- A write where no register is implemented is a bus error. -/
theorem writeAt_of_none {s : State} {r : Req} {p o : Nat} {v : Word} (ho : 0x028 ≤ o) (hr : s.reach r = true) (hf : fieldsAt p o = none) :
    s.BusErrorOf (writeAt r p o v s) r (p * 0x1000 + o) true := by
  have hlane : ∀ n < 6, ∀ o, o = 0x050 ∨ o = 0x054 → fieldsAt (Pg.lane (16 + n)) o ≠ none := by
    rintro n hn o (rfl | rfl) <;> interval_cases n <;> decide
  have hnone : ¬ (Pg.lane 16 ≤ p ∧ p ≤ Pg.lane 21 ∧ (o = 0x050 ∨ o = 0x054) ∨ p = Pg.guard ∧ o = 0x068) := by
    rintro (⟨h1, h2, h3⟩ | ⟨rfl, rfl⟩)
    · simp only [Pg.lane] at h1 h2
      refine hlane (p - 0x020) (by omega) o h3 ?_
      simp only [Pg.lane]
      rwa [show 0x010 + (16 + (p - 0x020)) = p from by omega]
    · exact absurd hf (by decide)
  have hinner : (if 0x040 ≤ o then writeBlk r p o v s else writePlain r p o v s) = s.busError r (p * 0x1000 + o) true := by
    split
    · obtain ⟨k, hk⟩ := writeBlk_checked r p o v s
      rw [hk, withWrite_of_none k hr hf]
    · exact withWrite_of_none _ hr hf
  have hbase := s.busErrorOf r (p * 0x1000 + o)
  have heq : writeAt r p o v s = afterWrite p o s (s.busError r (p * 0x1000 + o) true) := by
    unfold writeAt
    rw [if_neg (by omega), if_neg (by omega), if_neg (by omega), if_neg (by omega), hinner]
  rw [heq]
  unfold afterWrite
  rw [if_neg (by omega)]
  split
  · exact hbase.latches (noteRiseAll_touches _ _)
  · rw [if_neg (by omega)]
    exact hbase

/-! ### What a plain write stores -/

theorem State.held_cons (s : State) (a : Nat) (w : Word) (l : List (Nat × Word)) :
    ({ s with ctl := { s.ctl with loHold := (a, w) :: l } } : State).held a = some w := by
  simp [State.held]

/-- What a write of a register stores: a _LO word is held; a _HI word takes the held word with it. -/
theorem State.store_effect (s : State) {p o : Nat} (w : Word) (ho : 0x040 ≤ o) :
    (isLo p o = true → (s.store p o w).held (p * 0x1000 + o) = some w ∧ ∀ a, (s.store p o w).rd a = s.rd a)
      ∧ (isLo p o = false →
          (s.store p o w).rd (p * 0x1000 + o) = w
          ∧ (isLo p (o - 4) = true → ∀ l, s.held (p * 0x1000 + o - 4) = some l → (s.store p o w).rd (p * 0x1000 + o - 4) = l)
          ∧ (isLo p (o - 4) = true → s.held (p * 0x1000 + o - 4) = none → (s.store p o w).rd (p * 0x1000 + o - 4) = s.rd (p * 0x1000 + o - 4))
          ∧ ∀ a, a ≠ p * 0x1000 + o → (isLo p (o - 4) = true → a ≠ p * 0x1000 + o - 4) → (s.store p o w).rd a = s.rd a) := by
  have hne : p * 0x1000 + o - 4 ≠ p * 0x1000 + o := by omega
  unfold State.store
  dsimp only
  cases hlo : isLo p o with
  | true =>
    rw [if_pos rfl]
    exact ⟨fun _ => ⟨s.held_cons _ _ _, fun _ => rfl⟩, fun h => Bool.noConfusion h⟩
  | false =>
    rw [if_neg Bool.false_ne_true]
    refine ⟨fun h => Bool.noConfusion h, fun _ => ?_⟩
    cases hlo' : isLo p (o - 4) with
    | false =>
      rw [if_neg (by simp)]
      exact ⟨s.rd_wr_same _ _, fun h => Bool.noConfusion h, fun h => Bool.noConfusion h, fun a ha _ => s.rd_wr_ne _ _ _ ha⟩
    | true =>
      rw [if_pos ⟨by omega, rfl⟩]
      cases hh : s.held (p * 0x1000 + o - 4) with
      | none => exact ⟨s.rd_wr_same _ _, fun _ _ h => (by cases h), fun _ _ => s.rd_wr_ne _ _ _ hne, fun a ha _ => s.rd_wr_ne _ _ _ ha⟩
      | some l =>
        have hrd : ∀ a, ((s.wr (p * 0x1000 + o) w).wr (p * 0x1000 + o - 4) l).rd a =
            if a = p * 0x1000 + o - 4 then l else if a = p * 0x1000 + o then w else s.rd a := fun a => by rw [State.rd_wr, State.rd_wr]
        refine ⟨(hrd _).trans ?_, fun _ l' h => (hrd _).trans ?_, fun _ h => (by cases h), fun a ha hb => (hrd a).trans ?_⟩
        · rw [if_neg hne.symm, if_pos rfl]
        · rw [if_pos rfl]; exact Option.some.inj h
        · rw [if_neg (hb rfl), if_neg ha]

/-- Settles O7: a plain write passes the checks of `withWrite` and stores, or ends in the first check that fails. -/
theorem registerWrites : Obligations.RegisterWrites := by
  unfold Obligations.RegisterWrites
  refine ⟨fun s r p o v b i hp hb ho ho' h4 hacc hdr => ?stored, fun s r off be v hoff hr h => ?misused, fun s r p o v hp ho ho' h4 hr hf => ?none,
    fun s p o v b i fs hp hb ho ho' h4 hr hf hprv hd => ?denied, fun s r p o v b i fs hp hb ho ho' h4 h1 hr hf hne hoff => ?off,
    fun s r p o v b i fs hp hb hth ho ho' h4 h1 hr hf hon hw1 hm hcl => ?closed, fun s r v hacc hrec hch => ?drives,
    fun s r o v fs ho h1 hr hon hf hm hlock => ?locked⟩
  case stored =>
    have hbank := bankPage_plain (r := r) (o := o) hp hb
    have heq : regSet r (p * 0x1000 + o) 15 v s = s.store p o (s.written r p o v) := by
      rw [regSet_plain hp hb ho ho' h4, writePlain, withWrite_of_accepts _ hacc, hbank, writeVeto_plain hp hb, Bool.false_or, hdr,
        if_neg Bool.false_ne_true, plainStore, hbank]
    have hto := s.store_touches p o (s.written r p o v)
    obtain ⟨e1, e2⟩ := s.store_effect (p := p) (o := o) (s.written r p o v) ho
    exact ⟨_, congrArg Host.Outcome.next heq, e1, e2, hto.eq_mix, hto.keepsBytes rfl⟩
  case misused => exact ⟨_, congrArg Host.Outcome.next (regSet_of_misused hoff hr h), s.busErrorOf r off⟩
  case none => exact ⟨_, congrArg Host.Outcome.next (regSet_of_aligned hp ho' h4), writeAt_of_none ho hr hf⟩
  case denied =>
    have heq := (regSet_plain hp hb ho ho' h4 .pf1 v s).trans (withWrite_of_denied _ hr hf hprv hd)
    exact ⟨_, congrArg Host.Outcome.next heq, State.fld_count_same _ _ _ (by decide),
      .of_writes (State.WritesIn.count (.refl s _) (by decide)) ((State.count_touches _ _ _).mono rfl)⟩
  case off =>
    have heq : regSet r (p * 0x1000 + o) 15 v s = s.reject p := by
      rw [regSet_plain hp hb ho ho' h4, writePlain, withWrite_of_off _ hr h1 hf hne ho hoff]
    exact ⟨_, congrArg Host.Outcome.next heq, s.rejected_reject p⟩
  case closed =>
    have hne : fs ≠ [] := by rintro rfl; exact hm rfl
    have hlock : s.lockMask p o = 0 := by
      have hth' : p ≠ Pg.therm := by rintro rfl; exact hth (congrArg Prod.fst (Option.some.inj hp)).symm
      unfold State.lockMask
      rw [if_neg (plain_page hp hb).2.2.1, if_neg fun h => hth' h.1]
    have heq : regSet r (p * 0x1000 + o) 15 v s = s.reject p := by
      rw [regSet_plain hp hb ho ho' h4, writePlain, withWrite_open _ hr h1 (plain_page hp hb).2.2.1 (bankPage_plain hp hb) hf hne
        (List.any_eq_false.2 fun f h => by simp [hw1 f h]), if_neg (by simp [hon]), if_neg hm, if_neg (by simp [hlock]), if_pos]
      rcases hcl with ⟨f, hfm, h⟩ | h
      · exact (Bool.or_eq_true _ _).mpr (.inl (List.any_eq_true.2 ⟨f, hfm, by simp [h]⟩))
      · exact (Bool.or_eq_true _ _).mpr (.inr h)
    exact ⟨_, congrArg Host.Outcome.next heq, s.rejected_reject p⟩
  case drives =>
    have hp : pageBlk Pg.recorder = some (.recorder, 0) := rfl
    have heq : regSet r (Pg.recorder * 0x1000 + 0x040) 15 v s = s.reject Pg.recorder := by
      rw [regSet_plain hp (by decide) (by decide) (by decide) (by decide), writePlain, withWrite_of_accepts _ hacc, bankPage_plain hp (by decide), hrec,
        drivesChange, decide_eq_true ⟨rfl, rfl, hch⟩, Bool.and_true, Bool.or_true, if_pos rfl]
    exact ⟨_, congrArg Host.Outcome.next heq, s.rejected_reject _⟩
  case locked =>
    have hp : pageBlk Pg.therm = some (.therm, 0) := rfl
    have hne : fs ≠ [] := by rintro rfl; exact hm rfl
    have hmask : s.lockMask Pg.therm o = 0xFFFFFFFF := by
      unfold State.lockMask
      rw [if_neg (by decide), if_pos ⟨rfl, ho⟩, if_pos hlock]
    have hrange : 0x040 ≤ o ∧ o < 0x1000 ∧ o % 4 = 0 := by omega
    have hw1 : (fs.any fun f => decide (f.kind = .w1)) = false := by
      rcases ho with rfl | rfl | rfl <;> (cases hf; decide)
    have hones : writeMask fs v &&& 0xFFFFFFFF ≠ 0 := by
      rw [show (0xFFFFFFFF : Word) = BitVec.allOnes 32 from rfl, BitVec.and_allOnes]
      exact hm
    have heq : regSet r (Pg.therm * 0x1000 + o) 15 v s = s.lockViolation := by
      rw [regSet_plain hp (by decide) hrange.1 hrange.2.1 hrange.2.2, writePlain,
        withWrite_open _ hr h1 (by decide) (bankPage_plain hp (by decide)) hf hne hw1, if_neg (by simp [hon]), if_neg hm, hmask, if_pos hones]
    have hw : s.WritesIn s.lockViolation (· ∈ [keyOf Reg.GUARD_EVENT_LOCK_VIOLATION Pg.guard, keyOf Reg.GUARD_LOCK_VIOL_COUNT Pg.guard]) :=
      .raise (State.WritesIn.count (.refl s _) (by decide)) (by decide)
    refine ⟨_, congrArg Host.Outcome.next heq, State.fld_raise_same _ _ _ (by decide) rfl, ?_, .of_writes hw s.lockViolation_touches⟩
    unfold State.lockViolation
    rw [State.fld_raise_ne _ _ _ _ _ (by decide) (.inl (by decide)), State.fld_count_same _ _ _ (by decide)]

end Sys2Proof.Machine
end

section
/-! PROOFS. Admin queues, doorbells and the deletion of queues (R279 to R283, R465). -/

set_option Elab.async false

namespace Sys2Proof.Machine

/-! ### Tables with entries filtered out -/

/-- A value that stays stands in the filtered table too. -/
theorem Tbl.get_filter_of_keep {α : Type} [Inhabited α] (t : Tbl α) (keep : Nat × α → Bool) {k : Nat} (h : keep (k, t.get k) = true) :
    Tbl.get (t.filter keep) k = t.get k := by
  induction t with
  | nil => rfl
  | cons e t ih =>
    obtain ⟨j, v⟩ := e
    by_cases hj : j = k
    · subst hj
      have hv : Tbl.get ((j, v) :: t) j = v := if_pos rfl
      rw [hv] at h ⊢
      rw [List.filter_cons_of_pos h]
      exact if_pos rfl
    · have hget : Tbl.get ((j, v) :: t) k = Tbl.get t k := if_neg hj
      rw [hget] at h ⊢
      cases hk : keep (j, v) with
      | true => rw [List.filter_cons_of_pos hk, ← ih h]; exact if_neg hj
      | false => rw [List.filter_cons_of_neg (by simp [hk])]; exact ih h

theorem Tbl.get_filter_keys {α : Type} [Inhabited α] (t : Tbl α) (keep : Nat → Bool) (k : Nat) :
    Tbl.get (t.filter fun e => keep e.1) k = if keep k then t.get k else default := Sparse.read_filter _ keep t k

/-! ### Windows and the registers of the admin queues -/

theorem State.windowOk_of_writes {s t : State} {P : Nat → Prop} (h : s.WritesIn t P) (hP : ∀ a, a / 0x1000 = Pg.guard → ¬ P a) (fn : Fn)
    (addr len : Nat) (w : Bool) : t.windowOk fn addr len w = s.windowOk fn addr len w := by
  have hcov : ∀ k < 16, t.windowCovers fn k addr len w = s.windowCovers fn k addr len w := fun k hk => by
    unfold State.windowCovers
    rw [h _ (hP _ (by simp only [Pg.guard]; omega)), h _ (hP _ (by simp only [Pg.guard]; omega)), h _ (hP _ (by simp only [Pg.guard]; omega)),
      h _ (hP _ (by simp only [Pg.guard]; omega))]
  have hon : t.on Pg.guard Reg.GUARD_CTRL_WIN_EN = s.on Pg.guard Reg.GUARD_CTRL_WIN_EN :=
    congrArg (fun n => decide (n = 1)) (h.fld (hP _ (by decide)))
  have hany : ((List.range 16).any fun k => t.windowCovers fn k addr len w) = (List.range 16).any fun k => s.windowCovers fn k addr len w := by
    rw [Bool.eq_iff_iff, List.any_eq_true, List.any_eq_true]
    exact exists_congr fun k => and_congr_right fun hk => by rw [hcov k (List.mem_range.1 hk)]
  unfold State.windowOk
  rw [hon, hany]

theorem hqPage_ne_guard (fn : Fn) (f : Fld) (hf : f.off < 0x1000) (a : Nat) (ha : a / 0x1000 = Pg.guard) : a ≠ keyOf f (hqPage fn) := by
  rintro rfl
  simp only [keyOf, hqPage, Pg.hostq, Pg.guard] at ha
  omega

/-! ### A function whose queues are deleted -/

/-- The registers of a deletion of a function's queues. -/
def teardownKeys (fn : Fn) : List Nat := [keyOf Reg.HOSTQ_AQ_CTRL_EN (hqPage fn), keyOf Reg.HOSTQ_SQ_FAULT_LO (hqPage fn), keyOf Reg.HOSTQ_SQ_FAULT_HI (hqPage fn)]

theorem State.writesIn_teardown (s : State) (fn : Fn) : s.WritesIn (s.teardown fn) (· ∈ teardownKeys fn) := by
  have h0 : ∀ x y, s.WritesIn ((s.setHq x).dropJobs y) (· ∈ teardownKeys fn) := fun _ _ => .of_regs (.refl s _) rfl
  unfold State.teardown
  exact State.WritesIn.setFld (State.WritesIn.setFld (State.WritesIn.setFld (State.WritesIn.setFld (h0 _ _) _ (by simp [teardownKeys, keyOf])) _
    (by simp [teardownKeys])) _ (by simp [teardownKeys])) _ (by simp [teardownKeys])

theorem State.tornDown (s : State) (fn : Fn) : s.TornDown (s.teardown fn) fn := by
  have hsq : (s.teardown fn).hq.sqs = s.hq.sqs.filter fun e => !decide (e.1 / 64 = fnNum fn) := rfl
  have hcq : (s.teardown fn).hq.cqs = s.hq.cqs.filter fun e => !decide (e.1 / 64 = fnNum fn) := rfl
  have hcmd : (s.teardown fn).hq.cmds = s.hq.cmds.filter fun e => decide (e.2.fn ≠ fn) := rfl
  refine ⟨fun k hk => ?_, fun k hk => ?_, fun g hg => ?_, fun g hg => ?_, fun e he hl hf hling => ?_, fun hb e he hl hf j hj => ?_, ?_, ?_⟩
  · rw [hsq, hcq]
    exact ⟨(Tbl.get_filter_keys _ (fun k => !decide (k / 64 = fnNum fn)) k).trans (if_neg (by simp [hk])),
      (Tbl.get_filter_keys _ (fun k => !decide (k / 64 = fnNum fn)) k).trans (if_neg (by simp [hk]))⟩
  · rw [hsq, hcq]
    exact ⟨(Tbl.get_filter_keys _ (fun k => !decide (k / 64 = fnNum fn)) k).trans (if_pos (by simp [hk])),
      (Tbl.get_filter_keys _ (fun k => !decide (k / 64 = fnNum fn)) k).trans (if_pos (by simp [hk]))⟩
  · have hmem := State.mem_cmds_of_live hg
    rw [hcmd] at hmem
    exact of_decide_eq_true (List.mem_filter.1 hmem).2
  · rw [hcmd]
    exact Tbl.get_filter_of_keep _ _ (decide_eq_true hg)
  · show e.2 ∈ s.hq.ghosts ++ _
    refine List.mem_append_right _ (List.mem_filter.2 ⟨List.mem_filter.2 ⟨List.mem_map.2 ⟨e, he, rfl⟩, ?_⟩, hling⟩)
    rw [hl, hf]
    simp
  · have hq : (s.teardown fn).cond.queue = s.cond.queue.take 0 ++ (s.cond.queue.drop 0).filter fun j =>
        !(j.cmd.any fun u => ((s.hq.cmds.map (·.2)).filter fun c => c.live && decide (c.fn = fn)).any fun c => decide (c.uid = u)) := by
      have hn : (if s.on Pg.cond Reg.COND_STATE_BUSY then 1 else 0) = 0 := by rw [hb]; rfl
      rw [← hn]
      rfl
    rw [hq] at hj
    have hgone := (List.mem_filter.1 hj).2
    rintro hc
    rw [hc] at hgone
    have hany : (((s.hq.cmds.map (·.2)).filter fun c => c.live && decide (c.fn = fn)).any fun c => decide (c.uid = e.2.uid)) = true :=
      List.any_eq_true.2 ⟨e.2, List.mem_filter.2 ⟨List.mem_map.2 ⟨e, he, rfl⟩, by rw [hl, hf]; simp⟩, decide_eq_true rfl⟩
    simp only [Option.any_some, hany] at hgone
    exact Bool.noConfusion hgone
  · unfold State.teardown
    dsimp only
    rw [State.fld_setFld_ne _ _ _ _ _ _ (by decide) (.inl (by cases fn <;> decide)),
      State.fld_setFld_ne _ _ _ _ _ _ (by decide) (.inl (by cases fn <;> decide)), State.fld_setFld_of_width _ _ _ _ (by decide) (by decide)]
  · unfold State.teardown
    dsimp only
    rw [State.fld_setFld_ne _ _ _ _ _ _ (by decide) (.inl (by cases fn <;> decide)),
      State.fld_setFld_ne _ _ _ _ _ _ (by decide) (.inl (by cases fn <;> decide)),
      State.fld_setFld_ne _ _ _ _ _ _ (by decide) (.inr (.inl (by decide))), State.fld_setFld_of_width _ _ _ _ (by decide) (by decide)]

/-- What is said of the queues and the commands stands whatever the functions' configuration becomes. -/
theorem State.TornDown.touches {s t u : State} {fn : Fn} (h : s.TornDown t fn) (hu : t.Touches u [.hqMsixTable, .hqPci0, .hqPci1]) : s.TornDown u fn := by
  have hs : u.hq.sqs = t.hq.sqs := hu.same .hqSqs (by decide)
  have hc : u.hq.cqs = t.hq.cqs := hu.same .hqCqs (by decide)
  have hm : u.hq.cmds = t.hq.cmds := hu.same .hqCmds (by decide)
  have hg : u.hq.ghosts = t.hq.ghosts := hu.same .hqGhosts (by decide)
  have hq : u.cond.queue = t.cond.queue := hu.same .condQueue (by decide)
  have hr : u.regs = t.regs := hu.same .regs (by decide)
  unfold State.TornDown
  rw [hs, hc, hm, hg, hq, State.fld_congr hr, State.fld_congr hr]
  exact h

/-! ### The functions' configuration -/

theorem State.pciFn_setPciFn (s : State) (fn g : Fn) (c : PciFn) : (s.setPciFn fn c).pciFn g = if g = fn then c else s.pciFn g := by
  cases fn <;> cases g <;> rfl

theorem State.pciFn_teardown (s : State) (fn g : Fn) : (s.teardown fn).pciFn g = s.pciFn g := by
  cases g
  · exact (s.teardown_touches fn).same .hqPci0 (by decide)
  · exact (s.teardown_touches fn).same .hqPci1 (by decide)

theorem State.msixWord_teardown (s : State) (fn g : Fn) (i : Nat) : (s.teardown fn).msixWord g i = s.msixWord g i :=
  congrArg (fun m => Sparse.read msixDefault m (fnNum g * 1024 + i)) ((s.teardown_touches fn).same .hqMsixTable (by decide))

theorem State.pciFn_resetPci (s : State) (fn g : Fn) (mps : Nat) : (s.resetPci fn mps).pciFn g = if g = fn then { mps := mps } else s.pciFn g := by
  cases fn <;> cases g <;> rfl

theorem State.msixWord_resetPci (s : State) (fn g : Fn) (mps : Nat) {i : Nat} (hi : i < 1024) :
    (s.resetPci fn mps).msixWord g i = if g = fn then (if i % 4 = 3 then 1 else 0) else s.msixWord g i := by
  have htab : (s.resetPci fn mps).hq.msixTable = s.hq.msixTable.filter fun e => decide (e.1 / 1024 ≠ fnNum fn) := by cases fn <;> rfl
  have hdiv : (fnNum g * 1024 + i) / 1024 = fnNum g := by omega
  unfold State.msixWord
  rw [htab, Sparse.read_filter msixDefault (fun k => decide (k / 1024 ≠ fnNum fn)), hdiv]
  by_cases h : g = fn
  · subst h
    rw [if_pos rfl, if_neg (by simp), msixDefault]
    congr 1
    exact propext (by omega)
  · have hne : fnNum g ≠ fnNum fn := fun hn => h (by cases g <;> cases fn <;> first | rfl | exact absurd hn (by decide))
    rw [if_neg h, if_pos (decide_eq_true hne)]

/-! ### The start of the admin queues -/

/-- The base of a queue from the two registers that hold it. -/
def State.aqBase (s : State) (fn : Fn) (lo hi : Fld) : Nat := 4096 * s.fld (hqPage fn) lo + 2 ^ 32 * s.fld (hqPage fn) hi

/-- The start of the admin queues of a function with the bases and sizes that its registers hold. -/
theorem State.aqStart_eq {s : State} {fn : Fn} {asq acq sqn cqn : Nat}
    (ha : asq = 4096 * s.fld (hqPage fn) Reg.HOSTQ_ASQ_BASE_LO + 2 ^ 32 * s.fld (hqPage fn) Reg.HOSTQ_ASQ_BASE_HI)
    (hc : acq = 4096 * s.fld (hqPage fn) Reg.HOSTQ_ACQ_BASE_LO + 2 ^ 32 * s.fld (hqPage fn) Reg.HOSTQ_ACQ_BASE_HI)
    (hsn : sqn = max 1 (s.fld (hqPage fn) Reg.HOSTQ_AQ_CFG_ASQS) + 1) (hcn : cqn = max 1 (s.fld (hqPage fn) Reg.HOSTQ_AQ_CFG_ACQS) + 1) :
    s.aqStart fn =
      if s.windowOk fn asq (64 * sqn) false && s.windowOk fn acq (16 * cqn) true then
        (((s.setFld (hqPage fn) Reg.HOSTQ_AQ_CTRL_EN 1).putCq (qkey fn 0)
            { live := true, base := acq, size := cqn, phase := true, ien := true, cnt := 1 }).putSq (qkey fn 0)
          { live := true, base := asq, size := sqn }).setFld (hqPage fn) Reg.HOSTQ_AQ_CTRL_READY 1
      else (s.setFld (hqPage fn) Reg.HOSTQ_AQ_CTRL_EN 1).raise Pg.guard Reg.GUARD_EVENT_WIN_DENY := by
  have hw : s.WritesIn (s.setFld (hqPage fn) Reg.HOSTQ_AQ_CTRL_EN 1) (· = keyOf Reg.HOSTQ_AQ_CTRL_EN (hqPage fn)) := .setFld (.refl s _) _ rfl
  have hne : ∀ f : Fld, f.off ≠ 0x058 → keyOf f (hqPage fn) ≠ keyOf Reg.HOSTQ_AQ_CTRL_EN (hqPage fn) := fun f hf h => by
    simp only [keyOf] at h
    omega
  have hwin : ∀ addr len w, (s.setFld (hqPage fn) Reg.HOSTQ_AQ_CTRL_EN 1).windowOk fn addr len w = s.windowOk fn addr len w := fun addr len w =>
    State.windowOk_of_writes hw (fun a ha => hqPage_ne_guard fn _ (by decide) a ha) fn addr len w
  unfold State.aqStart State.queueOk
  simp only [hw.fld (hne Reg.HOSTQ_ASQ_BASE_LO (by decide)), hw.fld (hne Reg.HOSTQ_ASQ_BASE_HI (by decide)),
    hw.fld (hne Reg.HOSTQ_ACQ_BASE_LO (by decide)), hw.fld (hne Reg.HOSTQ_ACQ_BASE_HI (by decide)), hw.fld (hne Reg.HOSTQ_AQ_CFG_ASQS (by decide)),
    hw.fld (hne Reg.HOSTQ_AQ_CFG_ACQS (by decide)), ← ha, ← hc, ← hsn, ← hcn, hwin]

/-- The two admin queues of a function, as they come up. -/
def State.aqQueues (s : State) (fn : Fn) (asq acq sqn cqn : Nat) : State :=
  (s.putCq (qkey fn 0) { live := true, base := acq, size := cqn, phase := true, ien := true, cnt := 1 }).putSq (qkey fn 0)
    { live := true, base := asq, size := sqn }

theorem State.aqQueues_effect (s : State) (fn : Fn) (asq acq sqn cqn : Nat) : (s.aqQueues fn asq acq sqn cqn).regs = s.regs
    ∧ (s.aqQueues fn asq acq sqn cqn).hq.sqs = s.hq.sqs.put (qkey fn 0) { live := true, base := asq, size := sqn }
    ∧ (s.aqQueues fn asq acq sqn cqn).hq.cqs =
        s.hq.cqs.put (qkey fn 0) { live := true, base := acq, size := cqn, phase := true, ien := true, cnt := 1 } := ⟨rfl, rfl, rfl⟩

/-- The admin queues come up. -/
theorem State.aqStart_up {s : State} {fn : Fn} {asq acq sqn cqn : Nat} (u : State)
    (hu : u = ((s.setFld (hqPage fn) Reg.HOSTQ_AQ_CTRL_EN 1).aqQueues fn asq acq sqn cqn).setFld (hqPage fn) Reg.HOSTQ_AQ_CTRL_READY 1) :
    u.fld (hqPage fn) Reg.HOSTQ_AQ_CTRL_EN = 1 ∧ u.fld (hqPage fn) Reg.HOSTQ_AQ_CTRL_READY = 1
      ∧ u.hq.sqs = s.hq.sqs.put (qkey fn 0) { live := true, base := asq, size := sqn }
      ∧ u.hq.cqs = s.hq.cqs.put (qkey fn 0) { live := true, base := acq, size := cqn, phase := true, ien := true, cnt := 1 }
      ∧ s.WritesIn u (· = keyOf Reg.HOSTQ_AQ_CTRL_EN (hqPage fn)) := by
  obtain ⟨hr, hs, hc⟩ := (s.setFld (hqPage fn) Reg.HOSTQ_AQ_CTRL_EN 1).aqQueues_effect fn asq acq sqn cqn
  have h1 : s.WritesIn (s.setFld (hqPage fn) Reg.HOSTQ_AQ_CTRL_EN 1) (· = keyOf Reg.HOSTQ_AQ_CTRL_EN (hqPage fn)) := .setFld (.refl s _) _ rfl
  have hf : (s.setFld (hqPage fn) Reg.HOSTQ_AQ_CTRL_EN 1).fld (hqPage fn) Reg.HOSTQ_AQ_CTRL_EN = 1 :=
    State.fld_setFld_of_width _ _ _ _ (by decide) (by decide)
  have hq : (s.setFld (hqPage fn) Reg.HOSTQ_AQ_CTRL_EN 1).hq = s.hq := rfl
  rw [hq] at hs hc
  generalize s.setFld (hqPage fn) Reg.HOSTQ_AQ_CTRL_EN 1 = v at *
  have h2 := h1.of_regs hr
  have hf2 := (State.fld_congr hr (hqPage fn) Reg.HOSTQ_AQ_CTRL_EN).trans hf
  generalize v.aqQueues fn asq acq sqn cqn = w at *
  subst hu
  refine ⟨?_, State.fld_setFld_of_width _ _ _ _ (by decide) (by decide), hs, hc, h2.setFld _ rfl⟩
  rw [State.fld_setFld_ne _ _ _ _ _ _ (by decide) (.inr (.inr (by decide))), hf2]

/-- A queue of the admin queues is not covered. -/
theorem State.aqStart_denied {s : State} {fn : Fn} (u : State)
    (hu : u = (s.setFld (hqPage fn) Reg.HOSTQ_AQ_CTRL_EN 1).raise Pg.guard Reg.GUARD_EVENT_WIN_DENY) :
    u.fld (hqPage fn) Reg.HOSTQ_AQ_CTRL_EN = 1 ∧ u.fld Pg.guard Reg.GUARD_EVENT_WIN_DENY = 1 ∧ u.hq = s.hq
      ∧ u.fld (hqPage fn) Reg.HOSTQ_AQ_CTRL_READY = s.fld (hqPage fn) Reg.HOSTQ_AQ_CTRL_READY
      ∧ s.WritesIn u (· ∈ [keyOf Reg.HOSTQ_AQ_CTRL_EN (hqPage fn), keyOf Reg.GUARD_EVENT_WIN_DENY Pg.guard]) := by
  have hne : ∀ f : Fld, f.off = 0x058 → keyOf f (hqPage fn) ≠ keyOf Reg.GUARD_EVENT_WIN_DENY Pg.guard := fun f hf => by
    simp only [keyOf, hqPage, Pg.hostq, Pg.guard]
    omega
  subst hu
  refine ⟨?_, State.fld_raise_same _ _ _ (by decide) rfl, State.raise_hq _ _ _, ?_, .raise (State.WritesIn.setFld (.refl s _) _ (.head _)) (.tail _ (.head _))⟩
  · rw [State.fld_raise_ne _ _ _ _ _ (by decide) (.inl (hne _ rfl)), State.fld_setFld_of_width _ _ _ _ (by decide) (by decide)]
  · rw [State.fld_raise_ne _ _ _ _ _ (by decide) (.inl (hne _ rfl)), State.fld_setFld_ne _ _ _ _ _ _ (by decide) (.inr (.inl (by decide)))]

/-! ### Doorbells -/

/-- A doorbell that names no live queue, or an index beyond it, is recorded if none is. -/
theorem State.dbError_effect (s : State) (fn : Fn) (v : Word) :
    (s.dbError fn v).fld Pg.hostq Reg.HOSTQ_EVENT_DB_ERR = 1
      ∧ (s.hq.dbErrHeld = false → (s.dbError fn v).fld Pg.hostq Reg.HOSTQ_DB_ERR_INFO_VALUE = Word.bits v 0 19
          ∧ (s.dbError fn v).fld Pg.hostq Reg.HOSTQ_DB_ERR_INFO_FUNC = fnNum fn)
      ∧ (s.hq.dbErrHeld = true → (s.dbError fn v).fld Pg.hostq Reg.HOSTQ_DB_ERR_INFO_VALUE = s.fld Pg.hostq Reg.HOSTQ_DB_ERR_INFO_VALUE)
      ∧ s.dbError fn v = { s.regsOf (s.dbError fn v) with hq := { s.hq with dbErrHeld := true } }
      ∧ s.KeepsRegs (s.dbError fn v) [keyOf Reg.HOSTQ_EVENT_DB_ERR Pg.hostq, keyOf Reg.HOSTQ_DB_ERR_INFO_VALUE Pg.hostq]
      ∧ s.KeepsBytes (s.dbError fn v) := by
  have hall := s.dbError_touches fn v
  have hkept := hall.keepsBytes rfl
  have hframe : s.dbError fn v =
      { s.regsOf (s.dbError fn v) with hq := { s.hq with dbErrHeld := (s.dbError fn v).hq.dbErrHeld } } := hall.eq_mix
  have hraise : ∀ u : State, u.WritesIn (u.raise Pg.hostq Reg.HOSTQ_EVENT_DB_ERR) (· = keyOf Reg.HOSTQ_EVENT_DB_ERR Pg.hostq) := fun u => .raise (.refl u _) rfl
  have hbits : Word.bits v 0 19 < 2 ^ 19 := Nat.mod_lt _ (by decide)
  have hfn : fnNum fn < 2 := by cases fn <;> decide
  cases hh : s.hq.dbErrHeld with
  | true =>
    have heq : s.dbError fn v = s.raise Pg.hostq Reg.HOSTQ_EVENT_DB_ERR := by
      unfold State.dbError
      rw [hh, if_pos rfl]
    have hheld : (s.dbError fn v).hq.dbErrHeld = true := by
      rw [heq, (State.raise_touches _ _ _).same .hqDbErrHeld (by decide), hh]
    refine ⟨?_, fun h => Bool.noConfusion h, fun _ => ?_, ?_, ?_, hkept⟩
    · rw [heq]; exact State.fld_raise_same _ _ _ (by decide) rfl
    · rw [heq]; exact (hraise s).fld (by decide)
    · rw [← hheld]; exact hframe
    · rw [heq]
      have hmem : ∀ a, a = keyOf Reg.HOSTQ_EVENT_DB_ERR Pg.hostq → a ∈ [keyOf Reg.HOSTQ_EVENT_DB_ERR Pg.hostq, keyOf Reg.HOSTQ_DB_ERR_INFO_VALUE Pg.hostq] :=
        fun a ha => by rw [ha]; exact .head _
      exact ((hraise s).mono hmem).keepsRegs
  | false =>
    have heq : s.dbError fn v = (((s.setFld Pg.hostq Reg.HOSTQ_DB_ERR_INFO_VALUE (Word.bits v 0 19)).setFld Pg.hostq Reg.HOSTQ_DB_ERR_INFO_FUNC
        (fnNum fn)).setHq { s.hq with dbErrHeld := true }).raise Pg.hostq Reg.HOSTQ_EVENT_DB_ERR := by
      unfold State.dbError
      rw [hh, if_neg Bool.false_ne_true]
    have hheld : (s.dbError fn v).hq.dbErrHeld = true := by
      rw [heq, (State.raise_touches _ _ _).same .hqDbErrHeld (by decide)]
      rfl
    refine ⟨?_, fun _ => ⟨?_, ?_⟩, fun h => Bool.noConfusion h, ?_, ?_, hkept⟩
    · rw [heq]; exact State.fld_raise_same _ _ _ (by decide) rfl
    · rw [heq, (hraise _).fld (by decide), State.fld_setHq, State.fld_setFld_ne _ _ _ _ _ _ (by decide) (.inr (.inr (by decide))),
        State.fld_setFld_of_width _ _ _ _ (by decide) hbits]
    · rw [heq, (hraise _).fld (by decide), State.fld_setHq, State.fld_setFld_of_width _ _ _ _ (by decide) hfn]
    · rw [← hheld]; exact hframe
    · rw [heq]
      have h2 : s.WritesIn ((s.setFld Pg.hostq Reg.HOSTQ_DB_ERR_INFO_VALUE (Word.bits v 0 19)).setFld Pg.hostq Reg.HOSTQ_DB_ERR_INFO_FUNC (fnNum fn))
          (· ∈ [keyOf Reg.HOSTQ_EVENT_DB_ERR Pg.hostq, keyOf Reg.HOSTQ_DB_ERR_INFO_VALUE Pg.hostq]) :=
        .setFld (State.WritesIn.setFld (.refl s _) _ (by decide)) _ (by decide)
      generalize (s.setFld Pg.hostq Reg.HOSTQ_DB_ERR_INFO_VALUE (Word.bits v 0 19)).setFld Pg.hostq Reg.HOSTQ_DB_ERR_INFO_FUNC (fnNum fn) = u at h2
      exact ((h2.of_regs (u := u.setHq { s.hq with dbErrHeld := true }) rfl).raise (.head _)).keepsRegs

theorem length_orderNums (a n : Nat) : (orderNums a n).length = n := by simp [orderNums]

/-- The deletion by a Function Level Reset, and the function's configuration after it. -/
theorem State.functionReset_effect (s : State) (fn : Fn) (t : State) (ht : t = (s.teardown fn).resetPci fn (s.pciFn fn).mps) :
    s.TornDown t fn ∧ t.pciFn fn = { mps := (s.pciFn fn).mps } ∧ (∀ i, i < 1024 → t.msixWord fn i = if i % 4 = 3 then 1 else 0)
      ∧ (∀ g, g ≠ fn → t.pciFn g = s.pciFn g ∧ ∀ i, i < 1024 → t.msixWord g i = s.msixWord g i)
      ∧ t = { s with regs := t.regs, hq := t.hq, cond := { s.cond with queue := t.cond.queue } }
      ∧ s.KeepsRegs t (teardownKeys fn) ∧ s.KeepsBytes t := by
  have hrp := State.resetPci_touches (s.teardown fn) fn (s.pciFn fn).mps
  have hto : s.Touches ((s.teardown fn).resetPci fn (s.pciFn fn).mps) (.regs :: .condQueue :: hqParts) :=
    .step ((s.teardown_touches fn).mono rfl) hrp rfl
  have hpci := fun g => State.pciFn_resetPci (s.teardown fn) fn g (s.pciFn fn).mps
  have hmsix := fun g i => State.msixWord_resetPci (s.teardown fn) fn g (s.pciFn fn).mps (i := i)
  have hpt := s.pciFn_teardown fn
  have hmt := s.msixWord_teardown fn
  have htd := (s.tornDown fn).touches hrp
  have hw := (s.writesIn_teardown fn).of_regs (hrp.same .regs (by decide))
  rw [← ht] at hrp hto htd hw
  simp only [← ht] at hpci hmsix
  refine ⟨htd, ?_, fun i hi => ?_, fun g hg => ⟨?_, fun i hi => ?_⟩, hto.eq_mix, hw, hto.keepsBytes rfl⟩
  · rw [hpci, if_pos rfl]
  · rw [hmsix _ _ hi, if_pos rfl]
  · rw [hpci, if_neg hg, hpt]
  · rw [hmsix _ _ hi, if_neg hg, hmt]

/-- The deletion as a function's bus mastering ends. -/
theorem State.masterOff_effect (s : State) (fn : Fn) (t : State) (ht : t = s.masterOff fn) :
    s.TornDown t fn ∧ t.pciFn fn = { s.pciFn fn with master := false }
      ∧ (∀ g, g ≠ fn → t.pciFn g = s.pciFn g) ∧ t = { s with regs := t.regs, hq := t.hq, cond := { s.cond with queue := t.cond.queue } }
      ∧ s.KeepsRegs t (teardownKeys fn) ∧ s.KeepsBytes t := by
  have hto := s.masterOff_touches fn
  have hpt := s.pciFn_teardown fn
  have hpci : ∀ g, (s.masterOff fn).pciFn g = if g = fn then { s.pciFn fn with master := false } else s.pciFn g := fun g => by
    rw [State.masterOff, State.pciFn_setPciFn, hpt, hpt]
  have hrp : (s.teardown fn).Touches (s.masterOff fn) [.hqMsixTable, .hqPci0, .hqPci1] := by
    unfold State.masterOff
    exact (State.setPciFn_touches _ _ _).mono rfl
  have htd := (s.tornDown fn).touches hrp
  have hw := (s.writesIn_teardown fn).of_regs (hrp.same .regs (by decide))
  rw [← ht] at hrp hto htd hw
  simp only [← ht] at hpci
  refine ⟨htd, ?_, fun g hg => ?_, (hto.mono (l' := .regs :: .condQueue :: hqParts) rfl).eq_mix, hw, hto.keepsBytes rfl⟩
  · rw [hpci, if_pos rfl]
  · rw [hpci, if_neg hg]

theorem State.teardown_cmds (s : State) (fn : Fn) : (s.teardown fn).hq.cmds = s.hq.cmds.filter fun e => decide (e.2.fn ≠ fn) := rfl

/-- Both functions deleted, no queue and no command is left. -/
theorem State.teardown_both (s u : State) (hu : u = (s.teardown .pf0).teardown .pf1) :
    (∀ k, k < 128 → u.hq.sqs.get k = default ∧ u.hq.cqs.get k = default) ∧ (∀ g, (u.hq.cmds.get g).live = false)
      ∧ s.WritesIn u (onPages [Pg.hostq]) := by
  have hk : ∀ fn, ∀ a ∈ teardownKeys fn, onPages [Pg.hostq] a := fun fn a ha => by
    simp only [teardownKeys, List.mem_cons, List.not_mem_nil, or_false] at ha
    rcases ha with rfl | rfl | rfl <;> exact hqPage_off (by decide)
  obtain ⟨q0, -⟩ := s.tornDown .pf0
  have hc0 := s.teardown_cmds .pf0
  have hw0 := (s.writesIn_teardown .pf0).mono (hk _)
  generalize s.teardown .pf0 = v at *
  obtain ⟨q1, k1, -⟩ := v.tornDown .pf1
  have hc1 := v.teardown_cmds .pf1
  have hw1 := (v.writesIn_teardown .pf1).mono (hk _)
  rw [← hu] at q1 k1 hc1 hw1
  refine ⟨fun k hk => ?_, fun g => ?_, hw0.trans hw1⟩
  · by_cases h0 : k / 64 = fnNum .pf0
    · have h1 : k / 64 ≠ fnNum .pf1 := by rw [h0]; decide
      exact ⟨(k1 k h1).1.trans (q0 k h0).1, (k1 k h1).2.trans (q0 k h0).2⟩
    · have h1 : k / 64 = fnNum .pf1 := by simp only [fnNum] at h0 ⊢; omega
      exact q1 k h1
  · rw [← Bool.not_eq_true]
    intro hlive
    have hmem := State.mem_cmds_of_live hlive
    generalize u.hq.cmds.get g = c at hmem
    rw [hc1, hc0] at hmem
    obtain ⟨h0, h1⟩ := List.mem_filter.1 hmem
    have h0 := of_decide_eq_true (List.mem_filter.1 h0).2
    have h1 := of_decide_eq_true h1
    cases hf : c.fn with
    | pf0 => exact h0 hf
    | pf1 => exact h1 hf

/-- The functions' configuration as the link's loss leaves it. -/
theorem State.resetBoth (u v : State) (hv : v = (u.resetPci .pf0 0).resetPci .pf1 0) :
    (∀ fn, v.pciFn fn = {}) ∧ (∀ fn i, i < 1024 → v.msixWord fn i = if i % 4 = 3 then 1 else 0)
      ∧ u.Touches v [.hqMsixTable, .hqPci0, .hqPci1] := by
  subst hv
  refine ⟨fun fn => ?_, fun fn i hi => ?_, .step (State.resetPci_touches _ _ _) (State.resetPci_touches _ _ _) rfl⟩
  · rw [State.pciFn_resetPci, State.pciFn_resetPci]
    cases fn <;> rfl
  · rw [State.msixWord_resetPci _ _ _ _ hi, State.msixWord_resetPci _ _ _ _ hi]
    cases fn <;> rfl

/-- The deletion of all queues with the host link. -/
theorem State.linkDown_effect (s : State) (t : State) (ht : t = s.linkDown) :
    (∀ k, k < 128 → t.hq.sqs.get k = default ∧ t.hq.cqs.get k = default) ∧ (∀ g, (t.hq.cmds.get g).live = false)
      ∧ (∀ fn, t.pciFn fn = {}) ∧ (∀ fn i, i < 1024 → t.msixWord fn i = if i % 4 = 3 then 1 else 0)
      ∧ t = { s with regs := t.regs, hq := t.hq, cond := { s.cond with queue := t.cond.queue }, ctl := { s.ctl with linkUp := false } }
      ∧ s.KeepsPages t [Pg.hostq] ∧ s.KeepsBytes t := by
  have hto := s.linkDown_touches
  rw [← ht] at hto
  have hup : t.ctl.linkUp = false := by rw [ht]; rfl
  obtain ⟨q, c, w⟩ := s.teardown_both _ rfl
  have hlink : s.linkDown = (let v := (((s.teardown .pf0).teardown .pf1).resetPci .pf0 0).resetPci .pf1 0
    ({ v with ctl := { v.ctl with linkUp := false } } : State)) := rfl
  dsimp only at hlink
  rw [hlink] at ht
  generalize (s.teardown .pf0).teardown .pf1 = u at *
  obtain ⟨p, m, r⟩ := u.resetBoth _ rfl
  generalize (u.resetPci .pf0 0).resetPci .pf1 0 = v at *
  have hr : u.Touches t [.hqMsixTable, .hqPci0, .hqPci1, .ctlLinkUp] := by
    rw [ht]
    exact .step (r.mono rfl) (.of_mix (l := [.ctlLinkUp]) rfl rfl) rfl
  have hs : t.hq.sqs = u.hq.sqs := hr.same .hqSqs (by decide)
  have hc : t.hq.cqs = u.hq.cqs := hr.same .hqCqs (by decide)
  have hm : t.hq.cmds = u.hq.cmds := hr.same .hqCmds (by decide)
  have hpci : ∀ fn, t.pciFn fn = v.pciFn fn := fun fn => by rw [ht]; cases fn <;> rfl
  have hmsix : ∀ fn i, t.msixWord fn i = v.msixWord fn i := fun fn i => by rw [ht]; rfl
  have hframe : t = { s with regs := t.regs, hq := t.hq, cond := { s.cond with queue := t.cond.queue }, ctl := { s.ctl with linkUp := t.ctl.linkUp } } :=
    (hto.mono (l' := .regs :: .ctlLinkUp :: .condQueue :: hqParts) rfl).eq_mix
  rw [hup] at hframe
  refine ⟨fun k hk => by rw [hs, hc]; exact q k hk, fun g => by rw [hm]; exact c g, fun fn => (hpci fn).trans (p fn),
    fun fn i hi => (hmsix fn i).trans (m fn i hi), hframe, (w.of_regs (hr.same .regs (by decide))).keepsPages, hto.keepsBytes rfl⟩

/-- Settles O15: the start of the admin queues, the doorbells, and `State.tornDown` for the deletions. -/
theorem queuesBeginAndEnd : Obligations.QueuesBeginAndEnd := by
  unfold Obligations.QueuesBeginAndEnd
  refine ⟨fun s r v fn asq acq sqn cqn hfn hacc hv hen ha hc hsn hcn => ?start, fun s r v fn k n hfn hk hacc hv hlive hidx htail hn => ?tail,
    fun s r v fn k q hfn hk hq hacc hv hlive hidx hle => ?head, fun s r v fn k hfn hk hacc hbad => ?bad, fun s r v fn hfn hacc hv => ?teardown,
    fun s fn => ?flr, fun s fn => ?master, fun s => ?down⟩
  case start =>
    have heq : writeAqCtrl r v s = s.aqStart fn := by
      rw [writeAqCtrl, withWrite_of_accepts _ hacc, ← hfn]
      dsimp only
      rw [if_pos hv, hen, if_neg Bool.false_ne_true]
    have hto := s.aqStart_touches fn
    have hframe : s.aqStart fn = { s.regsOf (s.aqStart fn) with hq := { s.hq with sqs := (s.aqStart fn).hq.sqs, cqs := (s.aqStart fn).hq.cqs } } :=
      hto.eq_mix
    have hst := s.aqStart_eq ha hc hsn hcn
    cases hok : s.windowOk fn asq (64 * sqn) false && s.windowOk fn acq (16 * cqn) true with
    | true =>
      rw [hok, if_pos rfl] at hst
      obtain ⟨e1, e2, e3, e4, e5⟩ := State.aqStart_up _ hst
      obtain ⟨o1, o2⟩ := Bool.and_eq_true_iff.1 hok
      have hmem : ∀ a, a = keyOf Reg.HOSTQ_AQ_CTRL_EN (hqPage fn) → a ∈ [keyOf Reg.HOSTQ_AQ_CTRL_EN (hqPage fn), keyOf Reg.GUARD_EVENT_WIN_DENY Pg.guard] :=
        fun a ha => by rw [ha]; exact .head _
      refine ⟨_, congrArg Host.Outcome.next heq, e1, fun _ _ => ⟨e2, ?_, ?_⟩, fun h => ?_, fun k hk => ⟨?_, ?_⟩, hframe,
        (e5.mono hmem).keepsRegs, hto.keepsBytes rfl⟩
      · rw [e3, Tbl.get_put_same]
      · rw [e4, Tbl.get_put_same]
      · rw [o1, o2] at h
        exact absurd h (by simp)
      · rw [e3, Tbl.get_put_ne _ _ _ _ hk]
      · rw [e4, Tbl.get_put_ne _ _ _ _ hk]
    | false =>
      rw [hok, if_neg Bool.false_ne_true] at hst
      obtain ⟨e1, e2, e3, e4, e5⟩ := State.aqStart_denied _ hst
      exact ⟨_, congrArg Host.Outcome.next heq, e1, fun h1 h2 => (by rw [h1, h2] at hok; exact Bool.noConfusion hok), fun _ => ⟨e2, e3, e4⟩,
        fun k _ => by rw [e3]; exact ⟨rfl, rfl⟩, hframe, e5.keepsRegs, hto.keepsBytes rfl⟩
  case tail =>
    have heq : writeDoorbell r v s = s.ring fn v := by rw [writeDoorbell, withWrite_of_accepts _ hacc, ← hfn]
    obtain ⟨late, hring⟩ : ∃ late, s.ring fn v = { s with hq := { s.hq with
        sqs := s.hq.sqs.put k { s.hq.sqs.get k with tail := wfld v Reg.HOSTQ_DOORBELL_INDEX, late := late }
        avail := s.hq.avail ++ (orderNums s.hq.dbSeq n).map (fun o => (k, o)), dbSeq := s.hq.dbSeq + n } } := by
      refine ⟨if s.sqStopped k then (s.hq.sqs.get k).late + n else (s.hq.sqs.get k).late, ?_⟩
      unfold State.ring
      dsimp only
      rw [if_neg (by simp [hv]), ← hk, if_neg (by simp [hlive]; omega), ← hn]
      rfl
    generalize s.ring fn v = t at *
    subst hring
    refine ⟨_, congrArg Host.Outcome.next heq, ?_, ?_, ⟨_, rfl, ?_, fun e he => ?_⟩, fun j hj => Tbl.get_put_ne _ _ _ _ hj, rfl⟩
    · simp only [Tbl.get_put_same]
    · simp only [Tbl.get_put_same]
    · rw [List.length_map, length_orderNums]
    · obtain ⟨o, -, rfl⟩ := List.mem_map.1 he
      rfl
  case head =>
    have heq : writeDoorbell r v s = s.ring fn v := by rw [writeDoorbell, withWrite_of_accepts _ hacc, ← hfn]
    have hring : s.ring fn v = s.putCq k { q with
        head := wfld v Reg.HOSTQ_DOORBELL_INDEX, held := q.held && decide (wfld v Reg.HOSTQ_DOORBELL_INDEX = q.head) } := by
      unfold State.ring
      dsimp only
      rw [if_pos hv, ← hk, ← hq, if_neg (by simp [hlive]; omega)]
    exact ⟨_, congrArg Host.Outcome.next (heq.trans hring), Tbl.get_put_same _ _ _, fun j hj => Tbl.get_put_ne _ _ _ _ hj, rfl⟩
  case bad =>
    have heq : writeDoorbell r v s = s.ring fn v := by rw [writeDoorbell, withWrite_of_accepts _ hacc, ← hfn]
    have hring : s.ring fn v = s.dbError fn v := by
      unfold State.ring
      dsimp only
      rw [← hk]
      split at hbad
      · next hv => rw [if_pos hv, if_pos (hbad.elim .inl fun h => .inr (.inl h))]
      · next hv => rw [if_neg hv, if_pos hbad]
    exact ⟨_, congrArg Host.Outcome.next (heq.trans hring), s.dbError_effect fn v⟩
  case teardown =>
    have heq : writeAqCtrl r v s = s.teardown fn := by
      rw [writeAqCtrl, withWrite_of_accepts _ hacc, ← hfn]
      dsimp only
      rw [if_neg (by simp [hv])]
    have hto := s.teardown_touches fn
    exact ⟨_, congrArg Host.Outcome.next heq, s.tornDown fn, (hto.mono (l' := .regs :: .condQueue :: hqParts) rfl).eq_mix, s.writesIn_teardown fn,
      hto.keepsBytes rfl⟩
  case flr => exact ⟨_, rfl, s.functionReset_effect fn _ rfl⟩
  case master => exact ⟨_, rfl, s.masterOff_effect fn _ rfl⟩
  case down => exact ⟨_, rfl, s.linkDown_effect _ rfl⟩

end Sys2Proof.Machine
end

section
/-! PROOFS. CREATE SQ, CREATE CQ, DELETE SQ, DELETE CQ and SET COALESCING (R279, R280, R299, R301). -/

set_option Elab.async false

namespace Sys2Proof.Machine

/-! ### A command that runs and completes -/

/-- A command of a tag runs on the state in which it has started. -/
theorem withCmd_started {s : State} {tag op : Nat} {bad : Cmd → State → Option Nat} (k : Cmd → State → State) (h : s.starts tag op bad) :
    withCmd tag op s bad k = k (s.hq.cmds.get tag).started (s.start tag) := withCmd_of_starts k h

/-- The command of a tag, started, in a state with the command table that its start left. -/
theorem State.running_of_start {s u : State} {tag op : Nat} {len : Cmd → State → Nat} (h : s.mayRun tag op len)
    (hu : u.hq.cmds.get tag = (s.hq.cmds.get tag).started) :
    (u.hq.cmds.get tag).live = true ∧ (u.hq.cmds.get tag).stage ≠ .done ∧ (u.hq.cmds.get tag).op = op := by
  obtain ⟨hlive, -, hcode, -⟩ := h
  rw [hu]
  exact ⟨hlive, Stage.noConfusion, hcode⟩

/-- A started command that ends with status 0 changes the command table alone. -/
theorem State.done_of_start {s u : State} {tag op : Nat} {len : Cmd → State → Nat} (h : s.mayRun tag op len) (hop : op ≠ 0x28)
    (hu : u.hq.cmds = (s.start tag).hq.cmds) (result field : Nat) :
    (∃ c, u.finishTag tag 0 result 0 field = u.putCmd tag c) ∧ s.Done (u.finishTag tag 0 result 0 field) tag result := by
  obtain ⟨h1, h2, h3⟩ := State.running_of_start (u := u) h (by rw [hu]; exact s.start_get tag)
  have ho : (u.hq.cmds.get tag).op ≠ 0x28 := by rw [h3]; exact hop
  refine ⟨⟨_, State.finishTag_ok result 0 field h1 h2 ho⟩, State.completed_finishTag 0 result 0 field h1 h2 ho, fun g hg => ?_⟩
  rw [u.onlyTag_finishTag tag 0 result 0 field g hg, hu]
  exact s.onlyTag_start tag g hg

/-- A started command that fails before it has changed anything. -/
theorem State.failed_of_start {s : State} {tag op status : Nat} {len : Cmd → State → Nat} (h : s.mayRun tag op len) (hop : op ≠ 0x28) (field : Nat)
    (h0 : status ≠ 0) (h32 : status ≠ 0x32) : s.Failed ((s.start tag).finishTag tag status 0 0 field) tag status :=
  State.Failed.of_start (State.failed_finishTag_of_started field h (.refl _) hop h0 h32)

/-- A started command whose memory the windows do not cover. -/
theorem State.windowDenied_of_start {s : State} {tag op : Nat} {len : Cmd → State → Nat} (h : s.mayRun tag op len) (hop : op ≠ 0x28) :
    s.WindowDenied ((s.start tag).failBuf tag 0x11) tag := by
  have hw : (s.start tag).OnlyRegs (s.start tag).winDeny := (State.Touches.onlyRegs (.step ((State.count_touches _ _ _).mono rfl) (State.raise_touches _ _ _) rfl))
  have hf := State.failed_finishTag_of_started (status := 0x11) 0xFFFF h hw hop (by decide) (by decide)
  have heq : (s.start tag).failBuf tag 0x11 = (s.start tag).winDeny.finishTag tag 0x11 0 0 0xFFFF := rfl
  have hregs := hf.regs_eq
  have hev : (s.start tag).winDeny.fld Pg.guard Reg.GUARD_EVENT_WIN_DENY = 1 := State.fld_raise_same _ _ _ (by decide) rfl
  have hcnt : (s.start tag).winDeny.fld Pg.guard Reg.GUARD_WIN_DENY_COUNT = min (s.fld Pg.guard Reg.GUARD_WIN_DENY_COUNT + 1) (2 ^ 32 - 1) := by
    unfold State.winDeny
    rw [State.fld_raise_ne _ _ _ _ _ (by decide) (.inl (by decide)), State.fld_count_same _ _ _ (by decide)]
    rfl
  have hwr : s.WritesIn (s.start tag).winDeny (· ∈ [keyOf Reg.GUARD_EVENT_WIN_DENY Pg.guard, keyOf Reg.GUARD_WIN_DENY_COUNT Pg.guard]) :=
    State.WritesIn.trans (t := s.start tag) (.of_regs (.refl s _) rfl) (.raise (State.WritesIn.count (.refl _ _) (by decide)) (by decide))
  obtain ⟨hdone, htag, -⟩ := id hf
  have honly : s.OnlyTag ((s.start tag).failBuf tag 0x11) tag := fun g hg => by
    rw [heq, htag g hg]
    unfold State.OnlyRegs at hw
    rw [hw]
    exact s.onlyTag_start tag g hg
  refine ⟨hdone, honly, ?_, ?_, hf.eq_regsOf hw, ?_⟩
  · rw [heq, State.fld_congr hregs, hev]
  · rw [heq, State.fld_congr hregs, hcnt]
  · rw [heq]
    exact (hwr.of_regs hregs).keepsRegs

/-! ### Commands that a deletion ends -/

theorem State.dropJobs_hq (s : State) (gone : Nat → Bool) : (s.dropJobs gone).hq = s.hq := rfl

theorem State.ctl_finishTag (s : State) (tag result detail field : Nat) {status : Nat} (h : status ≠ 0x32) :
    (s.finishTag tag status result detail field).ctl = s.ctl := by
  unfold State.finishTag
  simp only [h, if_false]
  split
  · rfl
  · split <;> rfl

/-- A command that another ends completes with its status, whatever runs of it lingers. -/
theorem State.endCmd_effect (s : State) (g : Nat) {status : Nat} (h : status ≠ 0x32) :
    (s.endCmd g status).regs = s.regs ∧ (s.endCmd g status).ctl = s.ctl
      ∧ (∀ j, j ≠ g → (s.endCmd g status).hq.cmds.get j = s.hq.cmds.get j)
      ∧ ((s.hq.cmds.get g).live = true → (s.hq.cmds.get g).stage ≠ .done → (s.hq.cmds.get g).op ≠ 0x28 → (s.endCmd g status).completed g status 0 0)
      ∧ ((s.hq.cmds.get g).stage = .done → (s.endCmd g status).hq.cmds.get g = s.hq.cmds.get g) := by
  have heq : ∃ u : State, u.hq.cmds = s.hq.cmds ∧ u.regs = s.regs ∧ u.ctl = s.ctl ∧ s.endCmd g status = u.finishTag g status 0 0 0xFFFF := by
    refine ⟨_, ?_, ?_, ?_, rfl⟩
    · rw [State.dropJobs_hq]; split <;> rfl
    · show (if _ then _ else _ : State).regs = _
      split <;> rfl
    · show (if _ then _ else _ : State).ctl = _
      split <;> rfl
  obtain ⟨u, hc, hr, hctl, heq⟩ := heq
  rw [heq]
  refine ⟨(u.writesIn_finishTag g 0 0 0xFFFF h).trans hr, (u.ctl_finishTag g 0 0 0xFFFF h).trans hctl, fun j hj => ?_, fun h1 h2 h3 => ?_, fun h1 => ?_⟩
  · rw [u.onlyTag_finishTag g status 0 0 0xFFFF j hj, hc]
  · exact State.completed_finishTag status 0 0 0xFFFF (by rw [hc]; exact h1) (by rw [hc]; exact h2) (by rw [hc]; exact h3)
  · rw [← hc] at h1 ⊢
    unfold State.finishTag
    rw [if_pos (.inr h1)]

/-- Commands that a deletion ends, one after another. -/
def State.endAll (s : State) (l : List (Nat × Cmd)) (status : Nat) : State := l.foldl (fun (s : State) e => s.endCmd e.1 status) s

theorem State.endAll_effect (l : List (Nat × Cmd)) {status : Nat} (h : status ≠ 0x32) (s : State) :
    (s.endAll l status).regs = s.regs ∧ (s.endAll l status).ctl = s.ctl
      ∧ (∀ g, (∀ e ∈ l, e.1 ≠ g) → (s.endAll l status).hq.cmds.get g = s.hq.cmds.get g)
      ∧ (∀ g, (s.hq.cmds.get g).stage = .done → (s.endAll l status).hq.cmds.get g = s.hq.cmds.get g)
      ∧ ∀ e ∈ l, (s.hq.cmds.get e.1).live = true → (s.hq.cmds.get e.1).stage ≠ .done → (s.hq.cmds.get e.1).op ≠ 0x28 →
          (s.endAll l status).completed e.1 status 0 0 := by
  induction l generalizing s with
  | nil => exact ⟨rfl, rfl, fun _ _ => rfl, fun _ _ => rfl, fun e he => (nomatch he)⟩
  | cons x l ih =>
    obtain ⟨r1, t1, k1, c1, d1⟩ := s.endCmd_effect x.1 h
    obtain ⟨r2, t2, k2, d2, c2⟩ := ih (s.endCmd x.1 status)
    have hstep : s.endAll (x :: l) status = (s.endCmd x.1 status).endAll l status := rfl
    rw [hstep]
    refine ⟨r2.trans r1, t2.trans t1, fun g hg => ?_, fun g hg => ?_, fun e he h1 h2 h3 => ?_⟩
    · rw [k2 g fun e he => hg e (.tail _ he), k1 g fun hgx => hg x (.head _) hgx.symm]
    · by_cases hgx : g = x.1
      · subst hgx
        rw [d2 x.1 (by rw [d1 hg, hg]), d1 hg]
      · rw [d2 g (by rw [k1 g hgx, hg]), k1 g hgx]
    · by_cases hex : e.1 = x.1
      · rw [hex] at h1 h2 h3 ⊢
        have hdone := c1 h1 h2 h3
        unfold State.completed
        rw [d2 x.1 hdone.2.1]
        exact hdone
      · have hin : e ∈ l := (List.mem_cons.1 he).resolve_left fun h => hex (congrArg Prod.fst h)
        exact c2 e hin (by rw [k1 _ hex]; exact h1) (by rw [k1 _ hex]; exact h2) (by rw [k1 _ hex]; exact h3)

/-- The register that shows a submission queue's fault. -/
def sqFaultFld (qid : Nat) : Fld := if qid < 32 then Reg.HOSTQ_SQ_FAULT_LO else Reg.HOSTQ_SQ_FAULT_HI

/-- The queue of a deletion taken away, with its entries and its fault bit. -/
def State.dropSq (s : State) (fn : Fn) (qid : Nat) : State :=
  let s2 := (s.putSq (qkey fn qid) default).setHq
    { (s.putSq (qkey fn qid) default).hq with avail := s.hq.avail.filter fun e => decide (e.1 ≠ qkey fn qid) }
  if (s2.fld (hqPage fn) (sqFaultFld qid)).testBit (qid % 32) then
    s2.setFld (hqPage fn) (sqFaultFld qid) (s2.fld (hqPage fn) (sqFaultFld qid) - 2 ^ (qid % 32))
  else s2

theorem State.dropSq_effect (s : State) (fn : Fn) (qid : Nat) :
    (s.dropSq fn qid).hq = { s.hq with sqs := s.hq.sqs.put (qkey fn qid) default, avail := s.hq.avail.filter fun e => decide (e.1 ≠ qkey fn qid) }
      ∧ (s.dropSq fn qid).ctl = s.ctl
      ∧ s.WritesIn (s.dropSq fn qid) (· ∈ [keyOf Reg.HOSTQ_SQ_FAULT_LO (hqPage fn), keyOf Reg.HOSTQ_SQ_FAULT_HI (hqPage fn)]) := by
  have hk : keyOf (sqFaultFld qid) (hqPage fn) ∈ [keyOf Reg.HOSTQ_SQ_FAULT_LO (hqPage fn), keyOf Reg.HOSTQ_SQ_FAULT_HI (hqPage fn)] := by
    unfold sqFaultFld
    split
    · exact .head _
    · exact .tail _ (.head _)
  obtain ⟨x, hx⟩ : ∃ x : Hq, x = { s.hq with
      sqs := s.hq.sqs.put (qkey fn qid) default, avail := s.hq.avail.filter fun e => decide (e.1 ≠ qkey fn qid) } := ⟨_, rfl⟩
  have hd : s.dropSq fn qid = if ((s.setHq x).fld (hqPage fn) (sqFaultFld qid)).testBit (qid % 32) then
      (s.setHq x).setFld (hqPage fn) (sqFaultFld qid) ((s.setHq x).fld (hqPage fn) (sqFaultFld qid) - 2 ^ (qid % 32)) else s.setHq x := by
    rw [hx]; rfl
  have h0 : s.WritesIn (s.setHq x) (· ∈ [keyOf Reg.HOSTQ_SQ_FAULT_LO (hqPage fn), keyOf Reg.HOSTQ_SQ_FAULT_HI (hqPage fn)]) := .of_regs (.refl s _) rfl
  rw [hd, ← hx]
  split
  · exact ⟨rfl, rfl, h0.setFld _ hk⟩
  · exact ⟨rfl, rfl, h0⟩

theorem State.dropSq_touches (s : State) (fn : Fn) (qid : Nat) : s.Touches (s.dropSq fn qid) [.regs, .hqSqs, .hqAvail] := by
  have h0 : ∀ a b, s.Touches (s.setHq { s.hq with sqs := a, avail := b }) [.regs, .hqSqs, .hqAvail] := fun _ _ => .of_mix rfl rfl
  unfold State.dropSq
  exact .ite ((h0 _ _).step (State.setFld_touches _ _ _ _) rfl) (h0 _ _)

theorem runDeleteSq_eq {tag : Nat} {c : Cmd} {s : State} (h : (s.hq.sqs.get (qkey c.fn (c.cdw 8 % 64))).live = true) :
    runDeleteSq tag c s = ((s.endAll (s.openOf c.fn (c.cdw 8 % 64)) 0x08).dropSq c.fn (c.cdw 8 % 64)).finishTag tag 0
      (s.openOf c.fn (c.cdw 8 % 64)).length 0 0xFFFF := by
  unfold runDeleteSq
  dsimp only
  rw [if_neg (by simp [h])]
  rfl

theorem State.endAll_touches (s : State) (l : List (Nat × Cmd)) (status : Nat) : s.Touches (s.endAll l status) [.regs, .ctlLatches, .hqCmds, .hqGhosts,
    .hqErrors, .hqErrCount0, .hqErrCount1, .condQueue] := by
  induction l generalizing s with
  | nil => exact .refl s _
  | cons e l ih => exact (s.endCmd_touches e.1 status).trans (ih _)

/-- The deletion of a submission queue by a command of another queue. -/
theorem runDeleteSq_effect {s : State} {tag op : Nat} {c : Cmd} {len : Cmd → State → Nat} (h : s.mayRun tag op len) (hop : op ≠ 0x28)
    (hc : c = s.hq.cmds.get tag) (hlive : (s.hq.sqs.get (qkey c.fn (c.cdw 8 % 64))).live = true) (hsq : c.sqid ≠ c.cdw 8 % 64) (t : State)
    (ht : t = runDeleteSq tag c.started (s.start tag)) :
    t.hq.sqs.get (qkey c.fn (c.cdw 8 % 64)) = default ∧ (∀ e ∈ t.hq.avail, e.1 ≠ qkey c.fn (c.cdw 8 % 64))
      ∧ (∀ j, j ≠ qkey c.fn (c.cdw 8 % 64) → t.hq.sqs.get j = s.hq.sqs.get j)
      ∧ (∀ g, (s.hq.cmds.get g).live = true → (s.hq.cmds.get g).fn = c.fn → (s.hq.cmds.get g).sqid = c.cdw 8 % 64 →
          (s.hq.cmds.get g).stage ≠ .done → (s.hq.cmds.get g).op ≠ 0x28 → t.completed g 0x08 0 0)
      ∧ (∀ g, g ≠ tag → (∀ e ∈ s.hq.cmds, e.1 = g → e.2.fn ≠ c.fn ∨ e.2.sqid ≠ c.cdw 8 % 64) → t.hq.cmds.get g = s.hq.cmds.get g)
      ∧ t.completed tag 0 ((s.start tag).openOf c.fn (c.cdw 8 % 64)).length 0
      ∧ t = { s with regs := t.regs, hq := t.hq, cond := { s.cond with queue := t.cond.queue } }
      ∧ s.KeepsRegs t [keyOf Reg.HOSTQ_SQ_FAULT_LO (hqPage c.fn), keyOf Reg.HOSTQ_SQ_FAULT_HI (hqPage c.fn)] ∧ s.KeepsBytes t := by
  have heq : runDeleteSq tag c.started (s.start tag) = _ := runDeleteSq_eq (tag := tag) (c := c.started) (s := s.start tag) hlive
  rw [heq] at ht
  have hcw : ∀ n, c.started.cdw n = c.cdw n := fun _ => rfl
  have hcf : c.started.fn = c.fn := rfl
  rw [hcw, hcf] at ht
  have hs0 : (s.start tag).hq.sqs = s.hq.sqs ∧ (s.start tag).regs = s.regs ∧ (s.start tag).ctl = s.ctl := ⟨rfl, rfl, rfl⟩
  have hget : (s.start tag).hq.cmds.get tag = c.started := by rw [s.start_get tag, hc]
  have hput : (s.start tag).hq.cmds = s.hq.cmds.put tag c.started := by rw [hc]; rfl
  have hone := s.onlyTag_start tag
  have hto0 : s.Touches (s.start tag) (.regs :: .ctlLatches :: .condQueue :: hqParts) := (s.start_touches tag).mono rfl
  have hrun := State.running_of_start (u := s.start tag) h (s.start_get tag)
  generalize s.start tag = u at *
  generalize hl : u.openOf c.fn (c.cdw 8 % 64) = l at *
  have hmem : ∀ e ∈ l, e ∈ u.hq.cmds ∧ e.2.live = true ∧ e.2.fn = c.fn ∧ e.2.sqid = c.cdw 8 % 64 := fun e he => by
    rw [← hl] at he
    obtain ⟨h1, h2⟩ := List.mem_filter.1 he
    simp only [Bool.and_eq_true, decide_eq_true_eq] at h2
    exact ⟨h1, h2.1.1.1, h2.1.1.2, h2.1.2⟩
  have htag : ∀ e ∈ l, e.1 ≠ tag := fun e he heq => by
    obtain ⟨h1, -, -, h4⟩ := hmem e he
    rw [hput] at h1
    rcases Tbl.mem_put h1 with rfl | ⟨-, hne⟩
    · exact hsq h4
    · exact hne heq
  obtain ⟨r, ct, k, -, d⟩ := State.endAll_effect l (status := 0x08) (by decide) u
  have hta := u.endAll_touches l 0x08
  generalize u.endAll l 0x08 = v at *
  obtain ⟨q, qc, qw⟩ := v.dropSq_effect c.fn (c.cdw 8 % 64)
  have hqt := v.dropSq_touches c.fn (c.cdw 8 % 64)
  generalize v.dropSq c.fn (c.cdw 8 % 64) = w at *
  have hvs : v.hq.sqs = u.hq.sqs := hta.same .hqSqs (by decide)
  have hws : w.hq.sqs = v.hq.sqs.put (qkey c.fn (c.cdw 8 % 64)) default := by rw [q]
  have hwm : w.hq.cmds = v.hq.cmds := by rw [q]
  have hwt : w.hq.cmds.get tag = c.started := by rw [hwm, k tag htag, hget]
  obtain ⟨g1, g2, g3⟩ := hrun
  rw [hget] at g1 g2 g3
  have hft := w.finishTag_touches tag 0 l.length 0 0xFFFF
  have hfr := w.writesIn_finishTag tag l.length 0 0xFFFF (status := 0) (by decide)
  have hfc := w.ctl_finishTag tag l.length 0 0xFFFF (status := 0) (by decide)
  have hfo := w.onlyTag_finishTag tag 0 l.length 0 0xFFFF
  have hfd := State.completed_finishTag (s := w) (tag := tag) 0 l.length 0 0xFFFF (by rw [hwt]; exact g1) (by rw [hwt]; exact g2)
    (by rw [hwt, g3]; exact hop)
  rw [← ht] at hft hfr hfc hfo hfd
  have hts : t.hq.sqs = u.hq.sqs.put (qkey c.fn (c.cdw 8 % 64)) default := by rw [hft.same .hqSqs (by decide), hws, hvs]
  have htv : t.hq.avail = v.hq.avail.filter fun e => decide (e.1 ≠ qkey c.fn (c.cdw 8 % 64)) := by rw [hft.same .hqAvail (by decide), q]
  have hall : s.Touches t (.regs :: .ctlLatches :: .condQueue :: hqParts) :=
    .step (.step (.step hto0 hta rfl) hqt rfl) hft rfl
  have hframe : t = { s with regs := t.regs, hq := t.hq, cond := { s.cond with queue := t.cond.queue }, ctl := { s.ctl with latches := t.ctl.latches } } :=
    hall.eq_mix
  have hctl : t.ctl = s.ctl := by rw [hfc, qc, ct, hs0.2.2]
  rw [hctl] at hframe
  have hw : s.WritesIn t (· ∈ [keyOf Reg.HOSTQ_SQ_FAULT_LO (hqPage c.fn), keyOf Reg.HOSTQ_SQ_FAULT_HI (hqPage c.fn)]) :=
    (State.WritesIn.trans (.of_regs (.refl s _) (r.trans hs0.2.1)) qw).of_regs hfr
  refine ⟨by rw [hts, Tbl.get_put_same], fun e he => ?_, fun j hj => ?_, fun g h1 h2 h3 h4 h5 => ?_, fun g hg hno => ?_, hfd, hframe, hw.keepsRegs, hall.keepsBytes rfl⟩
  · rw [htv] at he
    exact of_decide_eq_true (List.mem_filter.1 he).2
  · rw [hts, Tbl.get_put_ne _ _ _ _ hj, hs0.1]
  · have hgt : g ≠ tag := by
      rintro rfl
      rw [← hc] at h3
      exact hsq h3
    have hug := hone g hgt
    have hin : (g, s.hq.cmds.get g) ∈ l := by
      have hm := State.mem_cmds_of_live (s := u) (tag := g) (by rw [hug]; exact h1)
      rw [hug] at hm
      rw [← hl]
      exact List.mem_filter.2 ⟨hm, by simp [h1, h2, h3, h4]⟩
    have := d _ hin (by rw [hug]; exact h1) (by rw [hug]; exact h4) (by rw [hug]; exact h5)
    unfold State.completed at this ⊢
    rw [hfo g hgt, hwm]
    exact this
  · have hnot : ∀ e ∈ l, e.1 ≠ g := fun e he heq => by
      obtain ⟨h1, -, h3, h4⟩ := hmem e he
      rw [hput] at h1
      rcases Tbl.mem_put h1 with rfl | ⟨h1, -⟩
      · exact hg heq.symm
      · exact (hno e h1 heq).elim (fun h => h h3) fun h => h h4
    rw [hfo g hg, hwm, k g hnot, hone g hg]

/-! ### What each command does once it runs -/

/-- The submission queue that a command asks for. -/
def newSq (c : Cmd) : Sq := { live := true, base := c.dptr, size := c.cdw 8 / 65536 % 4096 + 1, cqid := c.cdw 9 % 64, cls := c.cdw 9 / 256 % 4 }

/-- The completion queue that a command asks for. -/
def newCq (c : Cmd) : Cq :=
  { live := true, base := c.dptr, size := c.cdw 8 / 65536 % 4096 + 1, phase := true, vector := c.cdw 9 % 64,
    ien := (c.cdw 9).testBit 8, cnt := c.cdw 10 % 256, time := c.cdw 10 / 256 % 256 }

theorem runCreateSq_ok {s : State} {tag : Nat} {c : Cmd} (hfree : (s.hq.sqs.get (qkey c.fn (c.cdw 8 % 64))).live = false)
    (hcq : (s.hq.cqs.get (qkey c.fn (c.cdw 9 % 64))).live = true) (hok : s.windowOk c.fn c.dptr (64 * (c.cdw 8 / 65536 % 4096 + 1)) false = true) :
    runCreateSq tag c s = (s.putSq (qkey c.fn (c.cdw 8 % 64)) (newSq c)).finishTag tag 0 0 0 0xFFFF := by
  unfold runCreateSq State.queueOk
  dsimp only
  rw [if_neg (by simp [hfree, hcq]), if_neg (by simp [hok])]
  rfl

theorem runCreateSq_denied {s : State} {tag : Nat} {c : Cmd} (hfree : (s.hq.sqs.get (qkey c.fn (c.cdw 8 % 64))).live = false)
    (hcq : (s.hq.cqs.get (qkey c.fn (c.cdw 9 % 64))).live = true) (hno : s.windowOk c.fn c.dptr (64 * (c.cdw 8 / 65536 % 4096 + 1)) false = false) :
    runCreateSq tag c s = s.failBuf tag 0x11 := by
  unfold runCreateSq State.queueOk
  dsimp only
  rw [if_neg (by simp [hfree, hcq]), if_pos hno]

theorem runCreateCq_ok {s : State} {tag : Nat} {c : Cmd} (hfree : (s.hq.cqs.get (qkey c.fn (c.cdw 8 % 64))).live = false)
    (hok : s.windowOk c.fn c.dptr (16 * (c.cdw 8 / 65536 % 4096 + 1)) true = true) :
    runCreateCq tag c s = (s.putCq (qkey c.fn (c.cdw 8 % 64)) (newCq c)).finishTag tag 0 0 0 0xFFFF := by
  unfold runCreateCq State.queueOk
  dsimp only
  rw [if_neg (by simp [hfree]), if_neg (by simp [hok])]
  rfl

theorem runCreateCq_denied {s : State} {tag : Nat} {c : Cmd} (hfree : (s.hq.cqs.get (qkey c.fn (c.cdw 8 % 64))).live = false)
    (hno : s.windowOk c.fn c.dptr (16 * (c.cdw 8 / 65536 % 4096 + 1)) true = false) : runCreateCq tag c s = s.failBuf tag 0x11 := by
  unfold runCreateCq State.queueOk
  dsimp only
  rw [if_neg (by simp [hfree]), if_pos hno]

/-- A submission queue posts to a completion queue. -/
def State.cqUsed (s : State) (fn : Fn) (qid : Nat) : Bool :=
  s.hq.sqs.any fun e => e.2.live && decide (e.1 / 64 = fnNum fn) && decide (e.2.cqid = qid)

theorem runDeleteCq_eq (tag : Nat) (c : Cmd) (s : State) : runDeleteCq tag c s =
    if (s.hq.cqs.get (qkey c.fn (c.cdw 8 % 64))).live = false ∨ s.cqUsed c.fn (c.cdw 8 % 64) = true then s.finishTag tag 0x0C 0 0 0xFFFF
    else (s.putCq (qkey c.fn (c.cdw 8 % 64)) default).finishTag tag 0 0 0 0xFFFF := rfl

/-- A command that puts one submission queue and completes. -/
theorem State.putSq_done {s t : State} {tag op k : Nat} {q : Sq} {len : Cmd → State → Nat} (h : s.mayRun tag op len) (hop : op ≠ 0x28)
    (ht : t = ((s.start tag).putSq k q).finishTag tag 0 0 0 0xFFFF) :
    t.hq.sqs.get k = q ∧ s.Done t tag 0 ∧ (∀ j, j ≠ k → t.hq.sqs.get j = s.hq.sqs.get j)
      ∧ t = { s with hq := { s.hq with cmds := t.hq.cmds, sqs := t.hq.sqs } } := by
  obtain ⟨⟨d, hd⟩, hdone⟩ := State.done_of_start (u := (s.start tag).putSq k q) h hop rfl 0 0xFFFF
  rw [← ht] at hd hdone
  have hsq : t.hq.sqs = s.hq.sqs.put k q := by rw [hd]; rfl
  refine ⟨by rw [hsq, Tbl.get_put_same], hdone, fun j hj => by rw [hsq, Tbl.get_put_ne _ _ _ _ hj], ?_⟩
  rw [hd]
  rfl

/-- A command that puts one completion queue and completes. -/
theorem State.putCq_done {s t : State} {tag op k : Nat} {q : Cq} {len : Cmd → State → Nat} (h : s.mayRun tag op len) (hop : op ≠ 0x28)
    (ht : t = ((s.start tag).putCq k q).finishTag tag 0 0 0 0xFFFF) :
    t.hq.cqs.get k = q ∧ s.Done t tag 0 ∧ (∀ j, j ≠ k → t.hq.cqs.get j = s.hq.cqs.get j)
      ∧ t = { s with hq := { s.hq with cmds := t.hq.cmds, cqs := t.hq.cqs } } := by
  obtain ⟨⟨d, hd⟩, hdone⟩ := State.done_of_start (u := (s.start tag).putCq k q) h hop rfl 0 0xFFFF
  rw [← ht] at hd hdone
  have hcq : t.hq.cqs = s.hq.cqs.put k q := by rw [hd]; rfl
  refine ⟨by rw [hcq, Tbl.get_put_same], hdone, fun j hj => by rw [hcq, Tbl.get_put_ne _ _ _ _ hj], ?_⟩
  rw [hd]
  rfl

/-- Settles O18: each command runs on the state in which it has started; a deletion ends the queue's commands first. -/
theorem queueCommands : Obligations.QueueCommands := by
  unfold Obligations.QueueCommands
  refine ⟨fun s tag c k h hc hk => ⟨fun hfree hcq => ⟨fun hok => ?csq, fun hno => ?csqWin⟩, fun hbad => ?csqBad⟩,
    fun s tag c k h hc hk => ⟨fun hfree => ⟨fun hok => ?ccq, fun hno => ?ccqWin⟩, fun hbad => ?ccqBad⟩,
    fun s tag c k h hc hk => ⟨fun hlive hsq => ?dsq, fun hbad => ?dsqBad⟩, fun s tag c k h hc hk => ⟨fun hlive hfree => ?dcq, fun hbad => ?dcqBad⟩,
    fun s tag c k h hc hk => ⟨fun hlive => ?coal, fun hbad => ?coalBad⟩, fun s tag c hc => ?bad⟩
  case csq =>
    obtain ⟨hrun, -⟩ := id h
    subst hc hk
    have heq := (withCmd_started (runCreateSq tag) h).trans (runCreateSq_ok hfree hcq hok)
    exact ⟨_, rfl, State.putSq_done hrun (by decide) heq⟩
  case csqWin =>
    obtain ⟨hrun, -⟩ := id h
    subst hc hk
    have heq := (withCmd_started (runCreateSq tag) h).trans (runCreateSq_denied hfree hcq hno)
    exact ⟨_, congrArg Host.Outcome.next heq, State.windowDenied_of_start hrun (by decide)⟩
  case csqBad =>
    obtain ⟨hrun, -⟩ := id h
    subst hc hk
    have heq := (withCmd_started (runCreateSq tag) h).trans (if_pos hbad)
    exact ⟨_, congrArg Host.Outcome.next heq, State.failed_of_start hrun (by decide) _ (by decide) (by decide)⟩
  case ccq =>
    obtain ⟨hrun, -⟩ := id h
    subst hc hk
    have heq := (withCmd_started (runCreateCq tag) h).trans (runCreateCq_ok hfree hok)
    exact ⟨_, rfl, State.putCq_done hrun (by decide) heq⟩
  case ccqWin =>
    obtain ⟨hrun, -⟩ := id h
    subst hc hk
    have heq := (withCmd_started (runCreateCq tag) h).trans (runCreateCq_denied hfree hno)
    exact ⟨_, congrArg Host.Outcome.next heq, State.windowDenied_of_start hrun (by decide)⟩
  case ccqBad =>
    obtain ⟨hrun, -⟩ := id h
    subst hc hk
    have heq := (withCmd_started (runCreateCq tag) h).trans (if_pos hbad)
    exact ⟨_, congrArg Host.Outcome.next heq, State.failed_of_start hrun (by decide) _ (by decide) (by decide)⟩
  case dsq =>
    obtain ⟨hrun, -⟩ := id h
    subst hk
    have heq := withCmd_started (runDeleteSq tag) h
    rw [← hc] at heq
    have heff := runDeleteSq_effect hrun (by decide) hc hlive hsq _ heq
    subst hc
    exact ⟨_, rfl, heff⟩
  case dsqBad =>
    obtain ⟨hrun, -⟩ := id h
    subst hc hk
    have heq := (withCmd_started (runDeleteSq tag) h).trans (if_pos hbad)
    exact ⟨_, congrArg Host.Outcome.next heq, State.failed_of_start hrun (by decide) _ (by decide) (by decide)⟩
  case dcq =>
    obtain ⟨hrun, -⟩ := id h
    subst hc hk
    have hused : s.cqUsed (s.hq.cmds.get tag).fn ((s.hq.cmds.get tag).cdw 8 % 64) = false :=
      List.any_eq_false.2 fun e he => by
        simp only [Bool.and_eq_true, decide_eq_true_eq, not_and]
        exact fun hl => hfree e he hl.1 hl.2
    have hno : ¬ ((s.hq.cqs.get (qkey (s.hq.cmds.get tag).fn ((s.hq.cmds.get tag).cdw 8 % 64))).live = false
        ∨ s.cqUsed (s.hq.cmds.get tag).fn ((s.hq.cmds.get tag).cdw 8 % 64) = true) := by
      rw [hlive, hused]
      exact fun h => h.elim Bool.noConfusion Bool.noConfusion
    have heq := (withCmd_started (runDeleteCq tag) h).trans ((runDeleteCq_eq _ _ _).trans (if_neg hno))
    exact ⟨_, rfl, State.putCq_done hrun (by decide) heq⟩
  case dcqBad =>
    obtain ⟨hrun, -⟩ := id h
    subst hc hk
    have hyes : (s.hq.cqs.get (qkey (s.hq.cmds.get tag).fn ((s.hq.cmds.get tag).cdw 8 % 64))).live = false
        ∨ s.cqUsed (s.hq.cmds.get tag).fn ((s.hq.cmds.get tag).cdw 8 % 64) = true :=
      hbad.imp id fun ⟨e, he, h1, h2, h3⟩ => List.any_eq_true.2 ⟨e, he, by simp [h1, h2, h3]⟩
    have heq := (withCmd_started (runDeleteCq tag) h).trans ((runDeleteCq_eq _ _ _).trans (if_pos hyes))
    exact ⟨_, congrArg Host.Outcome.next heq, State.failed_of_start hrun (by decide) _ (by decide) (by decide)⟩
  case coal =>
    obtain ⟨hrun, -⟩ := id h
    subst hc hk
    have hno : ¬ ((s.start tag).hq.cqs.get (qkey (s.hq.cmds.get tag).started.fn ((s.hq.cmds.get tag).started.cdw 8 % 64))).live = false := fun h =>
      Bool.false_ne_true (h.symm.trans hlive)
    have heq := (withCmd_started (runSetCoalescing tag) h).trans (if_neg hno)
    exact ⟨_, rfl, State.putCq_done hrun (by decide) heq⟩
  case coalBad =>
    obtain ⟨hrun, -⟩ := id h
    subst hc hk
    have heq := (withCmd_started (runSetCoalescing tag) h).trans (if_pos hbad)
    exact ⟨_, congrArg Host.Outcome.next heq, State.failed_of_start hrun (by decide) _ (by decide) (by decide)⟩
  case bad =>
    subst hc
    have hqid : (s.hq.cmds.get tag).cdw 8 % 64 = 0 → (badQid (s.hq.cmds.get tag)).isSome = true := fun h0 => by
      unfold badQid firstBad
      rw [h0]
      rfl
    exact ⟨fun h hb => ⟨_, rfl, withCmd_failed_of_bad _ h (by decide) hb⟩, fun h hb => ⟨_, rfl, withCmd_failed_of_bad _ h (by decide) hb⟩,
      fun h0 => ⟨fun h => ⟨_, rfl, withCmd_failed_of_bad _ h (by decide) (hqid h0)⟩, fun h => ⟨_, rfl, withCmd_failed_of_bad _ h (by decide) (hqid h0)⟩,
        fun h => ⟨_, rfl, withCmd_failed_of_bad _ h (by decide) (hqid h0)⟩⟩⟩

end Sys2Proof.Machine
end

section
/-! PROOFS. IDENTIFY and GET LOG PAGE answer through their buffers (R300, R302). -/

set_option Elab.async false

namespace Sys2Proof.Machine

/-! ### What goes to the host -/

/-- What is written to the host's memory is in what the block sends alone, and follows from what stood there. -/
theorem State.toHost_effect (fn : Fn) (bufs : List (Nat × Nat)) (d : List Byte) (s : State) :
    s.toHost fn bufs d = { s with out := (s.toHost fn bufs d).out }
      ∧ ∀ u : State, u.out = s.out → (u.toHost fn bufs d).out = (s.toHost fn bufs d).out := by
  induction bufs generalizing s d with
  | nil => exact ⟨rfl, fun u h => h⟩
  | cons b bufs ih =>
    obtain ⟨a, n⟩ := b
    unfold State.toHost
    cases hd : d.isEmpty with
    | true =>
      exact ⟨rfl, fun u h => h⟩
    | false =>
      obtain ⟨h1, h2⟩ := ih (d.drop n) (s.emit (.hostWrite fn a (d.take n)))
      refine ⟨?_, fun u h => h2 (u.emit _) (congrArg (_ :: ·) h)⟩
      generalize (s.emit (.hostWrite fn a (d.take n))).toHost fn bufs (d.drop n) = t at *
      rw [h1]
      rfl

theorem State.toHost_hq (s : State) (fn : Fn) (bufs : List (Nat × Nat)) (d : List Byte) : (s.toHost fn bufs d).hq = s.hq := by
  rw [(s.toHost_effect fn bufs d).1]

theorem State.answer_of_ok {s : State} {h : HostData} {c : Cmd} {bufs : List (Nat × Nat)} (hb : s.buffers c h true = .ok bufs) (tag : Nat)
    (b : List Byte) (result : Nat) : s.answer h tag c b result = (s.toHost c.fn bufs b).finishTag tag 0 result 0 0xFFFF := by
  unfold State.answer
  simp only [hb]

/-- A started command that answers through its buffers. -/
theorem State.answered_of_start {s t : State} {tag op : Nat} {len : Cmd → State → Nat} {h : HostData} {bufs : List (Nat × Nat)}
    (hrun : s.mayRun tag op len) (hop : op ≠ 0x28) (hb : s.buffers (s.hq.cmds.get tag) h true = .ok bufs) (b : List Byte) (result : Nat)
    (ht : t = (s.start tag).answer h tag (s.hq.cmds.get tag).started b result) :
    t.out = (s.toHost (s.hq.cmds.get tag).fn bufs b).out ∧ s.Done t tag result
      ∧ t = { s with out := t.out, hq := { s.hq with cmds := t.hq.cmds } } := by
  rw [State.answer_of_ok (s := s.start tag) (c := (s.hq.cmds.get tag).started) hb] at ht
  have hfn : (s.hq.cmds.get tag).started.fn = (s.hq.cmds.get tag).fn := rfl
  rw [hfn] at ht
  obtain ⟨h1, -⟩ := (s.start tag).toHost_effect (s.hq.cmds.get tag).fn bufs b
  have ho := (s.toHost_effect (s.hq.cmds.get tag).fn bufs b).2 (s.start tag) rfl
  have hc := congrArg Hq.cmds ((s.start tag).toHost_hq (s.hq.cmds.get tag).fn bufs b)
  generalize (s.start tag).toHost (s.hq.cmds.get tag).fn bufs b = u at *
  obtain ⟨⟨d, hd⟩, hdone⟩ := State.done_of_start (u := u) hrun hop hc result 0xFFFF
  rw [← ht] at hd hdone
  have hout : t.out = u.out := by rw [hd]; rfl
  refine ⟨hout.trans ho, hdone, ?_⟩
  rw [hd, h1]
  rfl

/-! ### IDENTIFY -/

/-- IDENTIFY runs though the firmware holds no image. -/
theorem withCmd_identify {s : State} {tag : Nat} {bad : Cmd → State → Option Nat} (k : Cmd → State → State) (h : s.mayRun tag 0x05)
    (hb : bad (s.hq.cmds.get tag) s = none) : withCmd tag 0x05 s bad k = k (s.hq.cmds.get tag).started (s.start tag) := by
  obtain ⟨h1, h2, h3, h4⟩ := h
  unfold withCmd
  dsimp only
  rw [if_pos (by rw [h1, h2, h3, h4]; rfl)]
  simp only [hb]
  rw [if_neg (by simp)]
  rfl

/-- Settles O19: both commands answer through the buffers that their fields name. -/
theorem informationCommands : Obligations.InformationCommands := by
  unfold Obligations.InformationCommands
  refine ⟨fun s tag h c bufs hrun hc hbad hb => ?identify, fun s tag h c hrun hc hcns hty => ?unknown, fun s tag h c bufs p hst hc hp hb => ?log,
    fun s tag h hrun hp => ?unserved⟩
  case identify =>
    subst hc
    have heq := withCmd_identify (runIdentify h tag) hrun hbad
    exact ⟨_, rfl, State.answered_of_start hrun (by decide) hb _ _ heq⟩
  case unknown =>
    subst hc
    obtain ⟨-, -, hop, -⟩ := id hrun
    have hnames : (s.hq.cmds.get tag).names = true := by simp [Cmd.names, hop, hcns]
    have hbad : (badIdentify h (s.hq.cmds.get tag) s).isSome = true := by
      unfold badIdentify
      rw [if_pos ⟨hnames, hty⟩]
      rfl
    exact ⟨_, rfl, withCmd_failed_of_bad _ hrun (by decide) hbad⟩
  case log =>
    subst hc
    obtain ⟨hrun, -⟩ := id hst
    have heq := withCmd_started (runGetLog h tag) hst
    have hlen : ((p.drop ((s.hq.cmds.get tag).cdw 10 + 2 ^ 32 * (s.hq.cmds.get tag).cdw 11)).take (xferLen (s.hq.cmds.get tag) h)).length =
        min (xferLen (s.hq.cmds.get tag) h) (p.length - ((s.hq.cmds.get tag).cdw 10 + 2 ^ 32 * (s.hq.cmds.get tag).cdw 11)) := by
      rw [List.length_take, List.length_drop]
    have hpage : (s.start tag).logPage (s.hq.cmds.get tag).started.fn ((s.hq.cmds.get tag).started.cdw 8 % 256) = some p := hp
    unfold runGetLog at heq
    dsimp only at heq
    rw [hpage, Option.getD_some] at heq
    rw [← hlen]
    exact ⟨_, rfl, State.answered_of_start hrun (by decide) hb _ _ heq⟩
  case unserved =>
    have hbad : (badGetLog h (s.hq.cmds.get tag) s).isSome = true := by
      unfold badGetLog firstBad
      rw [hp]
      cases s.badBuf (s.hq.cmds.get tag) h true <;> rfl
    exact ⟨_, rfl, withCmd_failed_of_bad _ hrun (by decide) hbad⟩

end Sys2Proof.Machine
end

section
/-! PROOFS. CREATE NAMESPACE and DELETE NAMESPACE (R297, R303, R326). -/

set_option Elab.async false

namespace Sys2Proof.Machine

/-! ### What a write of the directory counts -/

theorem State.writesIn_countWritten (s : State) (k n : Nat) : s.WritesIn (s.countWritten k n) (onPages [Pg.media k % 1024]) := by
  have h : ∀ f : Fld, f.off < 0x1000 → onPages [Pg.media k % 1024] (keyOf f (Pg.media k)) := fun f hf => by
    simp only [onPages, keyOf, List.mem_singleton]
    omega
  exact .setFld64 (.refl s _) _ (h _ (by decide)) (h _ (by decide))

theorem State.fld_countWritten (s : State) (k n : Nat) :
    (s.countWritten k n).fld (Pg.media k) Reg.MEDIA_WRITTEN_LO =
      (s.fld64 (Pg.media k) Reg.MEDIA_WRITTEN_LO Reg.MEDIA_WRITTEN_HI + n) % 2 ^ 32 := by
  unfold State.countWritten State.setFld64
  rw [State.fld_setFld_ne _ _ _ _ _ _ (by decide) (.inl (by simp [keyOf])), State.fld_setFld_same _ _ _ _ (by decide)]

/-- A write of the directory goes drive by drive: a ready one takes it and counts it. -/
theorem State.writeDir_of_some {s : State} {v : Volume} (h : s.media.vol = some v) :
    ∃ (f : State → Nat → State) (u : State), s.writeDir = (List.range v.drives).foldl f u ∧ u.regs = s.regs
      ∧ (∀ u k, u.mport k = 3 → ∃ d, f u k = (u.putDrive k d).countWritten k 16384) ∧ ∀ u k, u.mport k ≠ 3 → f u k = u := by
  have hm : (s.setRec { s.media with vol := some { v with seq := v.seq + 1 } }).mountedPorts = List.range v.drives := rfl
  unfold State.writeDir
  simp only [h]
  rw [hm]
  exact ⟨_, _, rfl, rfl, fun u k hk => ⟨_, if_pos hk⟩, fun u k hk => if_neg hk⟩

/-- Every ready drive of the volume takes the directory, whatever its number: the last one counts it. -/
theorem State.writeDir_counts {s : State} {v : Volume} {n : Nat} (h : s.media.vol = some v) (hn : v.drives = n + 1) (hn' : n < 8) (hp : s.mport n = 3) :
    s.writeDir.fld (Pg.media n) Reg.MEDIA_WRITTEN_LO ≠ s.fld (Pg.media n) Reg.MEDIA_WRITTEN_LO := by
  obtain ⟨f, u, heq, hu, hf, hf'⟩ := State.writeDir_of_some h
  have hfw : ∀ (w : State) k, w.WritesIn (f w k) (onPages [Pg.media k % 1024]) := fun w k => by
    by_cases hk : w.mport k = 3
    · obtain ⟨d, hd⟩ := hf w k hk
      rw [hd]
      exact State.WritesIn.trans (t := w.putDrive k d) (.of_regs (.refl w _) rfl) (State.writesIn_countWritten _ k _)
    · rw [hf' w k hk]
      exact .refl w _
  have hw : s.WritesIn ((List.range n).foldl f u) (fun a => a / 0x1000 % 1024 ≠ Pg.media n) := by
    refine .foldl (.of_regs (.refl s _) hu) _ fun u k hk => (hfw u k).mono fun a ha => ?_
    have := List.mem_range.1 hk
    simp only [onPages, List.mem_singleton] at ha
    simp only [ha, Pg.media]
    omega
  rw [heq, hn, List.range_succ, List.foldl_append, List.foldl_cons, List.foldl_nil]
  generalize (List.range n).foldl f u = w at hw ⊢
  have hkey : ∀ f : Fld, f.off < 0x1000 → ¬ keyOf f (Pg.media n) / 0x1000 % 1024 ≠ Pg.media n := fun f hf => by
    simp only [keyOf, Pg.media]
    omega
  obtain ⟨d, hd⟩ := hf w n ((hw.fld (hkey _ (by decide))).trans hp)
  have hlo : (w.putDrive n d).fld (Pg.media n) Reg.MEDIA_WRITTEN_LO = s.fld (Pg.media n) Reg.MEDIA_WRITTEN_LO := hw.fld (hkey _ (by decide))
  have hlt : s.fld (Pg.media n) Reg.MEDIA_WRITTEN_LO < 2 ^ 32 := s.fld_lt _ _
  rw [hd, State.fld_countWritten, State.fld64, hlo]
  omega

/-- A state with a volume over three drives, all ready, a reel with NSID 2, and a DELETE NAMESPACE of that reel that waits. -/
def threeDrives : State :=
  { regs := [(keyOf Reg.MEDIA_STATE_PORT (Pg.media 0), 3), (keyOf Reg.MEDIA_STATE_PORT (Pg.media 1), 3), (keyOf Reg.MEDIA_STATE_PORT (Pg.media 2), 3)]
    hq := { cmds := [(0, { live := true, raw := [0x19, 0, 0, 0, 2] })] }
    media := { vol := some { drives := 3, entries := [(2, { state := 1, size := 8388608 })] } } }

theorem threeDrives_starts : threeDrives.starts 0 0x19 badDeleteNs := ⟨⟨by decide, by decide, by decide, by decide⟩, by decide, by decide⟩

theorem State.writesIn_showVolume (s : State) : s.WritesIn s.showVolume (onPages [Pg.recorder]) := by
  have hk : ∀ f : Fld, f.off < 0x1000 → onPages [Pg.recorder] (keyOf f Pg.recorder) := fun f hf => onPages_keyOf hf (by decide)
  unfold State.showVolume
  dsimp only
  split
  · exact .setFld (State.WritesIn.setFld (State.WritesIn.setFld (.refl s _) _ (hk _ (by decide))) _ (hk _ (by decide))) _ (hk _ (by decide))
  · exact .setFld (State.WritesIn.setFld (State.WritesIn.setFld (.refl s _) _ (hk _ (by decide))) _ (hk _ (by decide))) _ (hk _ (by decide))

/-- The deletion of a reel that nothing holds. -/
theorem runDeleteNs_reel {s : State} {tag : Nat} {c : Cmd} (h : (s.reelInUse c.nsid || s.loadsFrom c.nsid || !(s.nsCommands c.nsid c.uid).isEmpty) = false)
    (hty : s.nsType c.nsid ≠ 3) (hr : s.volumeReady = true) : runDeleteNs tag c s =
      ((((s.deallocate (s.dirEntry c.nsid).start (s.dirEntry c.nsid).size).setEntry c.nsid {}).showVolume).raise Pg.nspace
        Reg.NSPACE_EVENT_NS_DELETED).finishTag tag 0 0 0 0xFFFF := by
  unfold runDeleteNs
  dsimp only
  rw [h, if_neg Bool.false_ne_true, if_neg hty, if_neg (by simp [hr])]

theorem State.setEntry_of_some {s : State} {v : Volume} (h : s.media.vol = some v) (n : Nat) (e : DirEntry) :
    s.setEntry n e = (s.setRec { s.media with vol := some { v with entries := v.entries.put n e } }).writeDir := by
  unfold State.setEntry
  simp only [h]

/-- The deletion of a reel is counted on the last drive of its volume. -/
theorem runDeleteNs_counts {s : State} {tag n : Nat} {c : Cmd} {v : Volume}
    (h : (s.reelInUse c.nsid || s.loadsFrom c.nsid || !(s.nsCommands c.nsid c.uid).isEmpty) = false) (hty : s.nsType c.nsid ≠ 3)
    (hr : s.volumeReady = true) (hv : s.media.vol = some v) (hn : v.drives = n + 1) (hn' : n < 4) (hp : s.mport n = 3) :
    (runDeleteNs tag c s).fld (Pg.media n) Reg.MEDIA_WRITTEN_LO ≠ s.fld (Pg.media n) Reg.MEDIA_WRITTEN_LO := by
  have hout : ∀ f p, (p = Pg.recorder ∨ p = Pg.nspace) → f.off < 0x1000 → keyOf Reg.MEDIA_WRITTEN_LO (Pg.media n) ≠ keyOf f p := fun f p hp hf => by
    rcases hp with rfl | rfl <;> (simp only [keyOf, Pg.media, Pg.recorder, Pg.nspace]; omega)
  have hrec : ¬ onPages [Pg.recorder] (keyOf Reg.MEDIA_WRITTEN_LO (Pg.media n)) := by
    simp only [onPages, keyOf, Pg.media, Pg.recorder, List.mem_singleton]
    omega
  rw [runDeleteNs_reel h hty hr, State.fld_congr (State.writesIn_finishTag _ tag 0 0 0xFFFF (by decide)),
    State.fld_raise_ne _ _ _ _ _ (by decide) (.inl (hout _ _ (.inr rfl) (by decide))), (State.writesIn_showVolume _).fld hrec]
  have hto := s.deallocate_touches (s.dirEntry c.nsid).start (s.dirEntry c.nsid).size
  have hvol : (s.deallocate (s.dirEntry c.nsid).start (s.dirEntry c.nsid).size).media.vol = some v := (hto.same .mediaVol (by decide)).trans hv
  have hrd := State.fld_congr (hto.same .regs (by decide))
  generalize s.deallocate (s.dirEntry c.nsid).start (s.dirEntry c.nsid).size = u at *
  rw [State.setEntry_of_some hvol, ← hrd]
  exact State.writeDir_counts (s := u.setRec { u.media with vol := some { v with entries := v.entries.put c.nsid {} } }) rfl hn (by omega)
    ((hrd _ _).trans hp)

/-- Refutes O20: the statement allows a volume of any number of drives, and a directory written on a third drive is counted on the page after the
two media ports, which the statement says is kept. No run mounts such a volume. -/
theorem not_namespacesMade : ¬ Obligations.NamespacesMade := by
  unfold Obligations.NamespacesMade
  rintro ⟨-, -, -, hdel, -⟩
  obtain ⟨t, ht, -, -, -, -, -, -, -, hkeep⟩ := hdel threeDrives 0 _ _ threeDrives_starts rfl (by decide) (by decide) (by decide) (by decide) (by decide)
    rfl (by decide)
  have hfld : t.fld (Pg.media 2) Reg.MEDIA_WRITTEN_LO = threeDrives.fld (Pg.media 2) Reg.MEDIA_WRITTEN_LO :=
    State.fld_of_rd (hkeep _ (by decide))
  have ht' : t = runDeleteNs 0 (threeDrives.hq.cmds.get 0).started (threeDrives.start 0) :=
    (Host.Outcome.next.inj ht).symm.trans (withCmd_started (runDeleteNs 0) threeDrives_starts)
  rw [ht'] at hfld
  exact runDeleteNs_counts (by decide) (by decide) (by decide) rfl rfl (by decide) (by decide) hfld

end Sys2Proof.Machine
end

section
/-! PROOFS. The recovery of a reel and its directory write (R326, R333). -/

set_option Elab.async false

namespace Sys2Proof.Machine

theorem onPages_mono {ps qs : List Nat} (h : ps ⊆ qs) {a : Nat} (ha : onPages ps a) : onPages qs a := h ha

/-- A write below the volume is counted on the pages of the drives it is placed on: with no members in the label that is drive 0. -/
theorem State.writesIn_volPoke {s : State} {v : Volume} (h : s.media.vol = some v) (hm : v.members = []) (fuel a : Nat) (data : List Byte) :
    s.WritesIn (s.volPoke fuel a data) (onPages [Pg.media 0]) := by
  induction fuel generalizing s a data with
  | zero => exact .refl _ _
  | succ fuel ih =>
    have hp : (v.place a).1 = 0 := by simp [Volume.place, hm]
    rw [State.volPoke]
    simp only [h, hp]
    split
    · exact .refl _ _
    · refine State.WritesIn.trans (State.WritesIn.trans (.of_regs (.refl s _) rfl) (State.writesIn_countWritten _ 0 _)) (ih ?_ _ _)
      exact h

theorem State.writesIn_countSign (s : State) (b : Bool) : s.WritesIn (s.countSign b) (onPages [Pg.security]) := by
  unfold State.countSign
  split
  · exact .of_regs (State.WritesIn.count (.refl s _) (onPages_keyOf (f := Reg.SECURITY_SIGN_COUNT) (by decide) (by decide))) rfl
  · exact .refl _ _

/-- What a recovery writes on the media before the directory shows it: the records, the index and the bank. -/
theorem State.recover_eq (s : State) (n : Nat) : ∃ f1 a1 d1 f2 a2 d2 b, s.recover n =
    ((((s.volPoke f1 a1 d1).volPoke f2 a2 d2).countSign b).setEntry n
      { (((s.volPoke f1 a1 d1).volPoke f2 a2 d2).countSign b).dirEntry n with state := 4 }).raise Pg.recorder Reg.RECORDER_EVENT_RECOVERED :=
  ⟨_, _, _, _, _, _, _, rfl⟩

/-- The recovery of a reel is counted on the last drive of its volume. -/
theorem State.recover_counts {s : State} {v : Volume} {m : Nat} (n : Nat) (h : s.media.vol = some v) (hm : v.members = []) (hd : v.drives = m + 1)
    (h0 : 0 < m) (hlt : m < 4) (hp : s.mport m = 3) :
    (s.recover n).fld (Pg.media m) Reg.MEDIA_WRITTEN_LO ≠ s.fld (Pg.media m) Reg.MEDIA_WRITTEN_LO := by
  obtain ⟨f1, a1, d1, f2, a2, d2, b, heq⟩ := s.recover_eq n
  have ht1 := s.volPoke_touches f1 a1 d1
  have hv1 : (s.volPoke f1 a1 d1).media.vol = some v := (ht1.same .mediaVol (by decide)).trans h
  have hv2 := (((s.volPoke f1 a1 d1).volPoke_touches f2 a2 d2).same .mediaVol (by decide)).trans hv1
  have hv3 := ((((s.volPoke f1 a1 d1).volPoke f2 a2 d2).countSign_touches b).same .mediaVol (by decide)).trans hv2
  have hw : s.WritesIn (((s.volPoke f1 a1 d1).volPoke f2 a2 d2).countSign b) (onPages [Pg.media 0, Pg.security]) :=
    .trans (.trans ((State.writesIn_volPoke h hm _ _ _).mono fun _ => onPages_mono (by decide))
      ((State.writesIn_volPoke hv1 hm _ _ _).mono fun _ => onPages_mono (by decide)))
      ((State.writesIn_countSign _ b).mono fun _ => onPages_mono (by decide))
  have hkey : ∀ p, p = Pg.media 0 ∨ p = Pg.security → keyOf Reg.MEDIA_WRITTEN_LO (Pg.media m) / 0x1000 % 1024 ≠ p := fun p hp => by
    rcases hp with rfl | rfl <;> (simp only [keyOf, Pg.media, Pg.security]; omega)
  have hstate : keyOf Reg.MEDIA_STATE_PORT (Pg.media m) / 0x1000 = keyOf Reg.MEDIA_WRITTEN_LO (Pg.media m) / 0x1000 := by
    simp only [keyOf]; omega
  have hout : ¬ onPages [Pg.media 0, Pg.security] (keyOf Reg.MEDIA_WRITTEN_LO (Pg.media m)) := fun hx => by
    rcases List.mem_cons.1 hx with hx | hx
    · exact hkey _ (.inl rfl) hx
    · exact hkey _ (.inr rfl) (List.mem_singleton.1 hx)
  rw [heq, State.fld_raise_ne _ _ _ _ _ (by decide) (.inl (by simp only [keyOf, Pg.media, Pg.recorder]; omega)), ← hw.fld hout]
  have hp3 := (hw.fld (show ¬ onPages _ _ by unfold onPages; rw [hstate]; exact hout)).trans hp
  rw [State.setEntry_of_some hv3]
  exact State.writeDir_counts rfl hd (by omega) hp3

/-- A state with a volume over three drives, all ready, on which the reel with NSID 2 was left open. -/
def threeDrivesOpen : State :=
  { regs := [(keyOf Reg.MEDIA_STATE_PORT (Pg.media 0), 3), (keyOf Reg.MEDIA_STATE_PORT (Pg.media 1), 3), (keyOf Reg.MEDIA_STATE_PORT (Pg.media 2), 3)]
    ctl := { phase := .settled }
    media := { vol := some { drives := 3, entries := [(2, { state := 2, size := 8388608 })] } } }

theorem threeDrivesOpen_recovering : threeDrivesOpen.recovering = some 2 := by decide

/-- Refutes O46: the statement allows a volume of any number of drives, and the directory that a recovery writes on a third drive is counted on the
page after the two media ports, which the statement says is kept. No run mounts such a volume. -/
theorem not_reels : ¬ Obligations.Reels := by
  unfold Obligations.Reels
  rintro ⟨-, -, hrec, -⟩
  obtain ⟨t, ht, -, -, -, -, -, hkeep⟩ := hrec threeDrivesOpen 2 _ _ threeDrivesOpen_recovering rfl rfl
  have ht' : t = threeDrivesOpen.recover 2 := (Host.Outcome.next.inj ht).symm
  exact State.recover_counts (s := threeDrivesOpen) (m := 2) 2 rfl rfl rfl (by decide) (by decide) (by decide)
    (ht' ▸ State.fld_of_rd (hkeep _ (by decide)))

end Sys2Proof.Machine
end

section
/-! PROOFS. The completion of a drive command while a group waits (R318, R320, R335). -/

set_option Elab.async false

namespace Sys2Proof.Machine

/-- A state with an open reel of no size and a complete group, on a volume whose label names three members: the Write outstanding on drive 0 holds
the group back. -/
def threeMembers : State :=
  { media := { drives := [(0, { writes := [{ id := 0 }] })], vol := some { drives := 1, members := [1, 1, 0] }
               reel := { isOpen := true, part := [0], waiting := [(0, 0, default)] } } }

/-- The Write completes, the group's drop record passes the extent, and the port of the member that would take it fails: port 2. -/
theorem threeMembers_fails : (threeMembers.nvmeDone 0 0 true).mport 2 = 5 := by decide +kernel

/-- Refutes O45: a label with more members than media ports has a write placed on port 2, whose page the statement of a completed Write says is
kept. No run mounts a volume with such a label. -/
theorem not_drives : ¬ Obligations.Drives := by
  unfold Obligations.Drives
  rintro ⟨-, -, -, -, hdone, -⟩
  obtain ⟨t, ht, -, -, -, -, -, -, -, -, hrec⟩ := hdone threeMembers 0 0 { id := 0 } (by decide) (by decide)
  obtain ⟨-, -, hkeep⟩ := hrec
  have hfld : t.fld (Pg.media 2) Reg.MEDIA_STATE_PORT = 0 := (State.fld_of_rd (hkeep _ (by decide))).trans (by decide)
  have ht' : t = threeMembers.nvmeDone 0 0 true := (Host.Outcome.next.inj ht).symm
  rw [ht'] at hfld
  exact absurd (threeMembers_fails.symm.trans hfld) (by decide)

end Sys2Proof.Machine
end

section
/-! PROOFS. The readmission of a fenced device and the recoveries it lets run (R334, R500). -/

set_option Elab.async false

namespace Sys2Proof.Machine

/-! ### What a recovery leaves -/

/-- A write of the directory gives it the next sequence number. -/
theorem State.vol_writeDir {s : State} {v : Volume} (h : s.media.vol = some v) : s.writeDir.media.vol = some { v with seq := v.seq + 1 } := by
  unfold State.writeDir
  simp only [h]
  refine List.foldlRecOn (motive := fun u : State => u.media.vol = some { v with seq := v.seq + 1 }) _ _ rfl fun u hu k _ => ?_
  split
  · exact hu
  · exact hu

theorem State.vol_setEntry {s : State} {v : Volume} (h : s.media.vol = some v) (n : Nat) (e : DirEntry) :
    (s.setEntry n e).media.vol = some { v with entries := v.entries.put n e, seq := v.seq + 1 } := by
  rw [State.setEntry_of_some h]
  exact State.vol_writeDir (v := { v with entries := v.entries.put n e }) rfl

/-- The directory shows a recovered reel as recovered. -/
theorem State.vol_recover {s : State} {v : Volume} (n : Nat) (h : s.media.vol = some v) : ∃ e : DirEntry, e.state = 4 ∧
    (s.recover n).media.vol = some { v with entries := v.entries.put n e, seq := v.seq + 1 } := by
  obtain ⟨f1, a1, d1, f2, a2, d2, b, heq⟩ := s.recover_eq n
  have hv1 : (s.volPoke f1 a1 d1).media.vol = some v := ((s.volPoke_touches f1 a1 d1).same .mediaVol (by decide)).trans h
  have hv2 := (((s.volPoke f1 a1 d1).volPoke_touches f2 a2 d2).same .mediaVol (by decide)).trans hv1
  have hv3 := ((((s.volPoke f1 a1 d1).volPoke f2 a2 d2).countSign_touches b).same .mediaVol (by decide)).trans hv2
  refine ⟨_, ?_, by rw [heq, State.raise_media, State.vol_setEntry hv3]⟩
  rfl

theorem State.nextRecovery_of_recovered {s : State} {v : Volume} {n : Nat} {t : Tbl DirEntry} {e : DirEntry} (h : s.media.vol = some v)
    (ht : v.entries = t.put n e) (he : e.state = 4) (hn : ∀ k, k ≠ n → (t.get k).state ≠ 2) : s.nextRecovery = none := by
  refine List.find?_eq_none.2 fun k _ => ?_
  have hk : (s.dirEntry k).state ≠ 2 := by
    unfold State.dirEntry
    simp only [h, ht]
    by_cases hkn : k = n
    · rw [hkn, Tbl.get_put_same, he]
      decide
    · rw [Tbl.get_put_ne _ _ _ _ hkn]
      exact hn k hkn
  simp [hk]

/-! ### Readmission -/

/-- The state in which the recoveries of a readmission begin. -/
def State.readmitted (s : State) (g l : Nat) : State :=
  (((s.setFenced false).setGeneration g).startLease l).raise Pg.array Reg.ARRAY_EVENT_READMITTED

theorem State.readmitted_touches (s : State) (g l : Nat) : s.Touches (s.readmitted g l)
    [.regs, .ctlLatches, .rsmBank0, .rsmBank1, .rsmRunning, .rsmHeld, .arrayLease, .arrayLow] :=
  (((s.setFenced_touches false).mono rfl).trans (((s.setFenced false).setGeneration_touches g).mono rfl)).trans
    ((((s.setFenced false).setGeneration g).startLease_touches l).mono rfl) |>.trans ((State.raise_touches _ _ _).mono rfl)

theorem State.readmitted_writesIn (s : State) (g l : Nat) :
    s.WritesIn (s.readmitted g l) (onPages [Pg.array, Pg.global, Pg.rstore, Pg.trig]) := by
  have hk : ∀ (f : Fld) p, f.off < 0x1000 → p % 1024 ∈ [Pg.array, Pg.global, Pg.rstore, Pg.trig] →
      onPages [Pg.array, Pg.global, Pg.rstore, Pg.trig] (keyOf f p) := fun f p hf hp => onPages_keyOf hf hp
  have hf : s.WritesIn (s.setFenced false) (onPages [Pg.array, Pg.global, Pg.rstore, Pg.trig]) :=
    ((State.WritesIn.refl s _).setOn _ (hk _ _ (by decide) (by decide))).setOn _ (hk _ _ (by decide) (by decide)) |>.setOn _
      (hk _ _ (by decide) (by decide))
  have hg : s.WritesIn ((s.setFenced false).setGeneration g) (onPages [Pg.array, Pg.global, Pg.rstore, Pg.trig]) :=
    .trans (((hf.setFld _ (hk _ _ (by decide) (by decide))).setOn _ (hk _ _ (by decide) (by decide))).raise (hk _ _ (by decide) (by decide)))
      ((State.writesIn_requestSave _ 5 []).mono fun a ha => ha.symm ▸ hk _ _ (by decide) (by decide))
  have h := (State.WritesIn.of_regs (u := { (s.setFenced false).setGeneration g with array := { lease := l, low := false } }) hg rfl)
  exact (h.setFld l (hk Reg.ARRAY_LEASE _ (by decide) (by decide))).raise (hk _ _ (by decide) (by decide))

theorem State.fenced_readmitted (s : State) (g l : Nat) : (s.readmitted g l).fenced = false := by
  have hr := fun u : State => (State.writesIn_requestSave u 5 []).fld (f := Reg.ARRAY_STATE_FENCED) (p := Pg.array) (by decide)
  have h : (s.readmitted g l).fld Pg.array Reg.ARRAY_STATE_FENCED = 0 := by
    rw [State.readmitted, State.fld_raise_ne _ _ _ _ _ (by decide) (.inl (by decide)), State.startLease,
      State.fld_setFld_ne _ _ _ _ _ _ (by decide) (.inl (by decide))]
    refine (hr _).trans ?_
    rw [State.fld_raise_ne _ _ _ _ _ (by decide) (.inl (by decide)), State.setOn,
      State.fld_setFld_ne _ _ _ _ _ _ (by decide) (.inr (by decide)), State.fld_setFld_ne _ _ _ _ _ _ (by decide) (.inl (by decide)),
      State.setFenced, State.setOn, State.fld_setFld_ne _ _ _ _ _ _ (by decide) (.inl (by decide)), State.setOn,
      State.fld_setFld_same _ _ _ _ (by decide)]
    rfl
  simp [State.fenced, State.on, h]

theorem State.nextRecovery_congr {s t : State} (h : t.media = s.media) : t.nextRecovery = s.nextRecovery := by
  have hd : t.dirEntry = s.dirEntry := by
    funext n
    unfold State.dirEntry
    rw [h]
  simp only [State.nextRecovery, hd, h]

/-- A left reel on a ready volume is recovered once the device is not fenced. -/
theorem State.recovering_of {s : State} {n : Nat} (hf : s.fenced = false) (hph : s.ctl.phase = .settled) (hm : s.ctl.mode = .standby)
    (hr : s.volumeReady = true) (hn : s.nextRecovery = some n) : s.recovering = some n := by
  unfold State.recovering
  simp [hf, hph, hm, hr, hn]

theorem State.volumeReady_congr {s t : State} (h : t.media = s.media) (hp : ∀ k ∈ s.mountedPorts, t.mport k = s.mport k) :
    t.volumeReady = s.volumeReady := by
  have hm : t.mountedPorts = s.mountedPorts := by simp only [State.mountedPorts, h]
  unfold State.volumeReady
  rw [h, hm]
  congr 1
  rw [Bool.eq_iff_iff, List.all_eq_true, List.all_eq_true]
  exact forall₂_congr fun k hk => by rw [hp k hk]

/-- After the recovery of the only reel that was left open none is left to recover. -/
theorem State.recovering_recover {s : State} {v : Volume} {n : Nat} (h : s.media.vol = some v) (hn : ∀ k, k ≠ n → (v.entries.get k).state ≠ 2) :
    (s.recover n).recovering = none := by
  obtain ⟨e, he, hv⟩ := State.vol_recover n h
  unfold State.recovering
  rw [State.nextRecovery_of_recovered hv rfl he hn, ite_self]

theorem State.recoverAll_of_one {s : State} {v : Volume} {n : Nat} (k : Nat) (h : s.media.vol = some v)
    (hn : ∀ k, k ≠ n → (v.entries.get k).state ≠ 2) (hr : s.recovering = some n) : s.recoverAll (k + 2) = s.recover n := by
  rw [State.recoverAll]
  simp only [hr]
  rw [State.recoverAll]
  simp only [State.recovering_recover h hn]

theorem State.readmit_regs (s : State) (g l : Nat) : (s.readmit g l).regs = ((s.readmitted g l).recoverAll 256).regs :=
  (State.Touches.foldl (.refl _ [.splitHolds, .flows]) (fun u f => by
    split
    · exact u.flowDrop_touches f
    · exact .refl _ _) _).same .regs (by decide)

/-- A lease of a higher generation readmits a fenced device. -/
theorem runArrayLease_readmit {s : State} {c : Cmd} {tag : Nat} (h : s.generation ≠ 0) (hlt : s.generation < c.cdw 8) (hf : s.fenced = true) :
    runArrayLease tag c s = (s.readmit (c.cdw 8) (c.cdw 9)).finishTag tag 0 0 0 0xFFFF := by
  unfold runArrayLease
  dsimp only
  rw [if_neg (by omega), if_neg h, if_neg (by simp [hf]), if_neg (by simp [hf]), if_pos hlt]

/-- The state of a left reel on three drives, fenced in generation 1, with an ARRAY LEASE of generation 2 that waits. -/
def threeDrivesFenced : State :=
  { threeDrivesOpen with
    regs := (keyOf Reg.ARRAY_GENERATION Pg.array, 1) :: (keyOf Reg.ARRAY_STATE_FENCED Pg.array, 2) :: threeDrivesOpen.regs
    hq := { cmds := [(0, { live := true, raw := [0x28] ++ zeros 31 ++ [2, 0, 0, 0, 1] })] } }

theorem threeDrivesFenced_starts : threeDrivesFenced.starts 0 0x28 (fun c _ => badArrayLease c) :=
  ⟨⟨by decide, by decide, by decide, by decide⟩, by decide, by decide⟩

/-- The readmission lets the recovery of the left reel run. -/
theorem threeDrivesFenced_readmitted {t : State} (ht : t = (threeDrivesFenced.start 0).readmitted 2 1) :
    t.recovering = some 2 ∧ t.media = threeDrivesFenced.media
      ∧ ∀ f, f.off < 0x1000 → t.fld (Pg.media 2) f = threeDrivesFenced.fld (Pg.media 2) f := by
  have hto := (threeDrivesFenced.start 0).readmitted_touches 2 1
  have hw := (threeDrivesFenced.start 0).readmitted_writesIn 2 1
  have hf := (threeDrivesFenced.start 0).fenced_readmitted 2 1
  rw [← ht] at hto hw hf
  have heq : t = { threeDrivesFenced.start 0 with
      regs := t.regs, ctl := { threeDrivesFenced.ctl with latches := t.ctl.latches }
      rsm := { threeDrivesFenced.rsm with bank0 := t.rsm.bank0, bank1 := t.rsm.bank1, running := t.rsm.running, held := t.rsm.held }
      array := t.array } := hto.eq_mix
  have hmedia : t.media = (threeDrivesFenced.start 0).media := by rw [heq]
  refine ⟨State.recovering_of hf (hto.same .ctlPhase (by decide)) (hto.same .ctlMode (by decide)) ?_ ?_, hmedia, fun f hf => hw.fld ?_⟩
  · rw [State.volumeReady_congr hmedia fun k hk => hw.fld ?_]
    · decide
    · revert k
      unfold onPages
      decide
  · rw [State.nextRecovery_congr hmedia]
    decide
  · have hpage : keyOf f (Pg.media 2) / 0x1000 = Pg.media 2 := by
      unfold keyOf
      omega
    unfold onPages
    rw [hpage]
    decide

/-- Refutes O44: the statement allows a volume of any number of drives, and the directory that a recovery writes on a third drive as the device is
readmitted is counted on the page after the two media ports, which the statement says is kept. No run mounts such a volume. -/
theorem not_leases : ¬ Obligations.Leases := by
  unfold Obligations.Leases
  rintro ⟨-, -, -, -, -, -, hlease, -⟩
  obtain ⟨t, ht, -, -, -, -, -, -, -, -, -, -, -, -, -, hkeep⟩ := hlease threeDrivesFenced 0 2 1 threeDrivesFenced_starts (by decide) (by decide)
    (by decide) (by decide) (by decide)
  have hfld : t.fld (Pg.media 2) Reg.MEDIA_WRITTEN_LO = threeDrivesFenced.fld (Pg.media 2) Reg.MEDIA_WRITTEN_LO :=
    State.fld_of_rd (hkeep _ (by decide))
  have hrun : t = runArrayLease 0 (threeDrivesFenced.hq.cmds.get 0).started (threeDrivesFenced.start 0) :=
    (Host.Outcome.next.inj ht).symm.trans (withCmd_started (runArrayLease 0) threeDrivesFenced_starts)
  obtain ⟨hrec, hmedia, hregs⟩ := threeDrivesFenced_readmitted rfl
  have hcounts := State.recover_counts (m := 2) 2 (congrArg RecSt.vol hmedia) rfl rfl (by decide) (by decide) ((hregs _ (by decide)).trans (by decide))
  have hleft : ∀ k, k ≠ 2 → (Tbl.get [(2, ({ state := 2, size := 8388608 } : DirEntry))] k).state ≠ 2 := fun k hk => by
    have h : Tbl.get [(2, ({ state := 2, size := 8388608 } : DirEntry))] k = default := by simp [Tbl.get, Sparse.read, hk.symm]
    rw [h]
    decide
  rw [← State.recoverAll_of_one 254 (congrArg RecSt.vol hmedia) hleft hrec, ← State.fld_congr (State.readmit_regs _ 2 1), hregs _ (by decide)] at hcounts
  rw [hrun, runArrayLease_readmit (by decide) (by decide) (by decide), State.fld_congr (State.writesIn_finishTag _ 0 0 0 0xFFFF (by decide))] at hfld
  exact hcounts hfld

end Sys2Proof.Machine
end

section
/-! PROOFS. Filter Store loads (R202, R203). -/

set_option Elab.async false

namespace Sys2Proof.Machine

/-! ### What the checks of a load read -/

/-- A write of LOAD_CTRL. -/
def loadCtrlKey : Nat := keyOf Reg.FSTORE_LOAD_CTRL_SLOT Pg.fstore

theorem prismFields_low : ∀ p ∈ prismPages, p ≠ Pg.fstore ∧ (Reg.SPLIT_REND_CFG (p - Pg.prismBe 0)).off < 0x1000
    ∧ ∀ e ∈ pageSlots p, e.1.off < 0xC00 ∧ e.2.1.off < 0xC00 := by decide

theorem keyOf_ne_loadCtrl {f : Fld} {p : Nat} (hf : f.off < 0x1000) (hp : p ≠ Pg.fstore) : keyOf f p ≠ loadCtrlKey := by
  unfold loadCtrlKey keyOf
  simp only
  omega

theorem State.fval_congr {s t : State} (heq : t = { s with regs := t.regs }) (hw : s.WritesIn t (· = loadCtrlKey)) {p : Nat} {f : Fld}
    (hf : f.off < 0xC00) (hp : p ≠ Pg.fstore) (n : Nat) : t.fval n p f = s.fval n p f := by
  have hact : Sparse.read factoryWord t.activeCopies (keyOf (actOf f) p) = Sparse.read factoryWord s.activeCopies (keyOf (actOf f) p) := by
    have hrd := hw (keyOf (actOf f) p) (keyOf_ne_loadCtrl (by simp only [actOf]; omega) hp)
    have h := fun u : State => Sparse.read_filter factoryWord (fun k => decide (0x800 ≤ k % 0x1000) && decide (k % 0x1000 < 0xC00)) u.regs
      (keyOf (actOf f) p)
    exact (h t).trans (Eq.trans (if_congr Iff.rfl hrd rfl) (h s).symm)
  have hv : t.ingress.frameVals = s.ingress.frameVals := by rw [heq]
  unfold State.fval
  congr 1
  unfold State.frameRegs
  rw [hv]
  split
  · rfl
  · exact hact

theorem namedSlots_congr {p : Nat} {g g' : Fld → Nat} (h : ∀ e ∈ pageSlots p, g e.1 = g' e.1 ∧ g e.2.1 = g' e.2.1) :
    namedSlots p g = namedSlots p g' := by
  unfold namedSlots
  refine List.filterMap_congr fun e he => ?_
  rw [(h e he).1, (h e he).2]

theorem State.slotBusy_congr {s t : State} (heq : t = { s with regs := t.regs }) (hw : s.WritesIn t (· = loadCtrlKey)) (k : Nat) :
    t.slotBusy k = s.slotBusy k := by
  have hfld : ∀ (p : Nat) (f : Fld), f.off < 0x1000 → p ≠ Pg.fstore → t.fld p f = s.fld p f := fun p f hf hp => hw.fld (keyOf_ne_loadCtrl hf hp)
  have hbusy : ∀ p ∈ prismPages, t.pageBusy p = s.pageBusy p := fun p hp => by
    obtain ⟨hne, hcfg, hlow⟩ := prismFields_low p hp
    have hread : t.slotReader p = s.slotReader p := by
      unfold State.slotReader State.on
      rw [hfld _ _ (by decide) hne]
    have hact : namedSlots p (t.actv p) = namedSlots p (s.actv p) := namedSlots_congr fun e he =>
      ⟨hfld _ _ (by have := (hlow e he).1; simp only [actOf]; omega) hne, hfld _ _ (by have := (hlow e he).2; simp only [actOf]; omega) hne⟩
    have hsnap : t.snapFld p = s.snapFld p := by rw [heq]; rfl
    have hruns : t.rendRuns (p - Pg.prismBe 0) = s.rendRuns (p - Pg.prismBe 0) := by
      unfold State.rendRuns State.rendUsed State.on
      rw [hfld _ _ (by decide) (by decide), hfld _ _ hcfg (by decide)]
    have hgov : t.governed p = s.governed p := by
      have hstage : t.inStage p = s.inStage p := by
        funext q
        unfold State.inStage
        rw [hruns]
      have hin : t.ingress = s.ingress := by rw [heq]
      have hsp : t.split = s.split := by rw [heq]
      unfold State.governed
      rw [hstage, hin, hsp]
    have hval : ∀ n, namedSlots p (t.fval n p) = namedSlots p (s.fval n p) := fun n => namedSlots_congr fun e he =>
      ⟨State.fval_congr heq hw (hlow e he).1 hne n, State.fval_congr heq hw (hlow e he).2 hne n⟩
    unfold State.pageBusy
    rw [hread, hact, hsnap, hgov, hfld _ _ (by decide) hne, funext hval]
  unfold State.slotBusy
  rw [Bool.eq_iff_iff, List.any_eq_true, List.any_eq_true]
  exact exists_congr fun p => and_congr_right fun hp => by rw [hbusy p hp]

/-- The checks of a load read no bit of LOAD_CTRL. -/
theorem State.loadCheck_congr {s t : State} (heq : t = { s with regs := t.regs }) (hw : s.WritesIn t (· = loadCtrlKey)) {k : Nat} (hk : k < 64)
    (src : Nat) : t.loadCheck k src = s.loadCheck k src ∧ t.slotKindOf k = s.slotKindOf k ∧ t.peekN src 64 = s.peekN src 64 := by
  have hlo : ∀ f : Fld, f.off ≠ 0x068 → t.fld Pg.fstore f = s.fld Pg.fstore f := fun f hf => hw.fld (by simp [loadCtrlKey, keyOf, hf])
  have hsize : t.dramSize = s.dramSize := by
    unfold State.dramSize
    rw [hw.fld (by decide)]
  have hpeek : t.peekN src 64 = s.peekN src 64 := by
    have hd : t.dram = s.dram := by rw [heq]
    unfold State.peekN
    rw [hsize, hd]
  have hkind : t.slotKindOf k = s.slotKindOf k := by
    unfold State.slotKindOf
    rw [hlo _ (by simp only [ne_eq]; omega)]
  have hstate : t.slotState k = s.slotState k := by
    unfold State.slotState State.on
    rw [hlo _ (by simp only [ne_eq]; omega), hlo _ (by decide)]
  refine ⟨?_, hkind, hpeek⟩
  unfold State.loadCheck State.on
  rw [hkind, hpeek, hstate, hsize, State.slotBusy_congr heq hw, hlo _ (by decide)]

/-! ### The end of a load -/

theorem State.fld_raiseIf_ne (s : State) (c : Bool) (p : Nat) (e : Fld) (q : Nat) (g : Fld) (hg : g.lo + g.width ≤ 32)
    (h : keyOf g q ≠ keyOf e p ∨ e.lo + e.width ≤ g.lo ∨ g.lo + g.width ≤ e.lo) : (s.raiseIf c p e).fld q g = s.fld q g := by
  unfold State.raiseIf
  split
  · exact State.fld_raise_ne _ _ _ _ _ hg h
  · rfl

theorem State.writesIn_endLoad (s : State) (cmd : Option Nat) (r : Nat) :
    s.WritesIn (s.endLoad cmd r) (· ∈ [loadCtrlKey, keyOf Reg.FSTORE_EVENT_LOAD_DONE Pg.fstore]) := by
  have h32 : loadStatus r ≠ 0x32 := by
    unfold loadStatus
    split_ifs <;> decide
  have h0 : s.WritesIn { s with fstore := { s.fstore with load := none } } (· ∈ [loadCtrlKey, keyOf Reg.FSTORE_EVENT_LOAD_DONE Pg.fstore]) :=
    .of_regs (.refl s _) rfl
  have h1 := ((((h0.setFld (p := Pg.fstore) (f := Reg.FSTORE_LOAD_CTRL_BUSY) 0 (.head _)).setFld (p := Pg.fstore) (f := Reg.FSTORE_LOAD_CTRL_RESULT) r
    (.head _)).raise (p := Pg.fstore) (e := Reg.FSTORE_EVENT_LOAD_DONE) (.tail _ (.head _))).raiseIf (c := decide (r ≠ 0)) (p := Pg.fstore)
    (e := Reg.FSTORE_EVENT_LOAD_ERR) (.tail _ (.head _)))
  exact h1.of_regs (State.finish?_regs _ cmd 0 r h32)

theorem onPages_loadKeys {a : Nat} (h : a ∈ [loadCtrlKey, keyOf Reg.FSTORE_EVENT_LOAD_DONE Pg.fstore]) : onPages [Pg.fstore] a := by
  revert a
  unfold onPages
  decide

/-- A load ends: RESULT and its events, and the command that it serves. -/
theorem State.endLoad_effect (s : State) (cmd : Option Nat) {r : Nat} (hr : r < 16) {t : State} (ht : t = s.endLoad cmd r) :
    t.fld Pg.fstore Reg.FSTORE_LOAD_CTRL_RESULT = r ∧ t.fld Pg.fstore Reg.FSTORE_LOAD_CTRL_BUSY = 0
      ∧ t.fld Pg.fstore Reg.FSTORE_EVENT_LOAD_DONE = 1 ∧ (r ≠ 0 → t.fld Pg.fstore Reg.FSTORE_EVENT_LOAD_ERR = 1)
      ∧ t.fld Pg.fstore Reg.FSTORE_LOAD_CTRL_SLOT = s.fld Pg.fstore Reg.FSTORE_LOAD_CTRL_SLOT
      ∧ t = { s.regsOf t with fstore := { s.fstore with load := none }, hq := t.hq }
      ∧ (cmd = none → t.hq = s.hq) ∧ ∀ u, cmd = some u → s.ends t u (loadStatus r) 0 r := by
  have hto := s.endLoad_touches cmd r
  have hload : t.fstore.load = none := by
    rw [ht]
    unfold State.endLoad
    dsimp only
    refine ((State.finish?_touches _ cmd (loadStatus r) 0 r).same .fstoreLoad (by decide)).trans ?_
    rw [State.raiseIf_fstore, State.raise_fstore]
    rfl
  have h32 : loadStatus r ≠ 0x32 := by
    unfold loadStatus
    split_ifs <;> decide
  have hfld : ∀ f, t.fld Pg.fstore f = (((({ s with fstore := { s.fstore with load := none } } : State).setFld Pg.fstore Reg.FSTORE_LOAD_CTRL_BUSY
      0).setFld Pg.fstore Reg.FSTORE_LOAD_CTRL_RESULT r).raise Pg.fstore Reg.FSTORE_EVENT_LOAD_DONE |>.raiseIf (decide (r ≠ 0)) Pg.fstore
      Reg.FSTORE_EVENT_LOAD_ERR).fld Pg.fstore f := fun f => by
    rw [ht]
    exact State.fld_congr (State.finish?_regs _ cmd 0 r h32) _ _
  have hends : ∀ u, cmd = some u → s.ends t u (loadStatus r) 0 r := fun u hu => by
    rw [ht, hu]
    refine State.ends_finish ?_ u (loadStatus r) 0 r
    rw [State.raiseIf_hq, State.raise_hq]
    rfl
  rw [← ht] at hto
  have heq : t = { s.regsOf t with fstore := { s.fstore with load := t.fstore.load }, hq := t.hq } :=
    (hto.mono (l' := .regs :: .ctlLatches :: .fstoreLoad :: hqParts) rfl).eq_mix
  rw [hload] at heq
  have hnone : cmd = none → t.hq = s.hq := fun h => by
    rw [ht, h, State.endLoad, State.finish?, State.raiseIf_hq, State.raise_hq]
    rfl
  refine ⟨?_, ?_, ?_, fun hne => ?_, ?_, heq, hnone, hends⟩
  · rw [hfld, State.fld_raiseIf_ne _ _ _ _ _ _ (by decide) (.inl (by decide)), State.fld_raise_ne _ _ _ _ _ (by decide) (.inl (by decide)),
      State.fld_setFld_same _ _ _ _ (by decide)]
    exact Nat.mod_eq_of_lt hr
  · rw [hfld, State.fld_raiseIf_ne _ _ _ _ _ _ (by decide) (.inl (by decide)), State.fld_raise_ne _ _ _ _ _ (by decide) (.inl (by decide)),
      State.fld_setFld_ne _ _ _ _ _ _ (by decide) (.inr (.inr (by decide))), State.fld_setFld_same _ _ _ _ (by decide)]
    rfl
  · rw [hfld]
    exact State.fld_raiseIf_of_one (by decide) (by decide) (State.fld_raise_same _ _ _ (by decide) (by decide))
  · rw [hfld, State.raiseIf, decide_eq_true hne, if_pos rfl]
    exact State.fld_raise_same _ _ _ (by decide) (by decide)
  · rw [hfld, State.fld_raiseIf_ne _ _ _ _ _ _ (by decide) (.inl (by decide)), State.fld_raise_ne _ _ _ _ _ (by decide) (.inl (by decide)),
      State.fld_setFld_ne _ _ _ _ _ _ (by decide) (.inr (.inr (by decide))), State.fld_setFld_ne _ _ _ _ _ _ (by decide) (.inr (.inr (by decide)))]
    rfl

/-! ### The start of a load -/

theorem State.loadCheck_lt (s : State) (k src : Nat) : s.loadCheck k src < 16 := by
  unfold State.loadCheck
  dsimp only
  split_ifs <;> omega

theorem State.beginLoad_of_bad {s : State} {k src : Nat} (cmd : Option Nat) (h : s.loadCheck k src ≠ 0) :
    s.beginLoad k src cmd = s.endLoad cmd (s.loadCheck k src) := if_pos h

/-- A load that passes the checks. -/
theorem State.beginLoad_effect {s t : State} {k src : Nat} {cmd : Option Nat} (hk : k < 64) (h : s.loadCheck k src = 0)
    (ht : t = s.beginLoad k src cmd) :
    t.fstore.load = some ⟨k, src + 64, s.slotKindOf k, leAt (s.peekN src 64) 0x0C 4, leAt (s.peekN src 64) 7 1, cmd⟩
      ∧ t.fld Pg.fstore Reg.FSTORE_LOAD_CTRL_BUSY = 1 ∧ t.fld Pg.fstore (Reg.FSTORE_SLOT_STATUS_STATE k) = 1
      ∧ t.fld Pg.fstore Reg.FSTORE_LOAD_CTRL_SLOT = s.fld Pg.fstore Reg.FSTORE_LOAD_CTRL_SLOT
      ∧ t = { s with regs := t.regs, fstore := { s.fstore with load := t.fstore.load } } ∧ s.WritesIn t (onPages [Pg.fstore]) := by
  obtain ⟨u, hu⟩ : ∃ u, u = (s.emptySlot k 1).setFld Pg.fstore Reg.FSTORE_LOAD_CTRL_BUSY 1 := ⟨_, rfl⟩
  have heq : t = { u with fstore := { u.fstore with load := some ⟨k, src + 64, s.slotKindOf k, leAt (s.peekN src 64) 0x0C 4,
      leAt (s.peekN src 64) 7 1, cmd⟩ } } := by
    rw [ht, hu]
    exact if_neg (not_not_intro h)
  have hk0 : ∀ f : Fld, f.off < 0x1000 → onPages [Pg.fstore] (keyOf f Pg.fstore) := fun f hf => onPages_keyOf hf (by decide)
  have hw : s.WritesIn u (onPages [Pg.fstore]) := by
    rw [hu]
    exact .setFld (.setFld (.setFld (.setFld (.refl s _) _ (hk0 _ (by simp only; omega))) _ (hk0 _ (by simp only; omega))) _
      (hk0 _ (by simp only; omega))) _ (hk0 _ (by decide))
  have hbusy : u.fld Pg.fstore Reg.FSTORE_LOAD_CTRL_BUSY = 1 := by
    rw [hu]
    exact State.fld_setFld_same _ _ _ _ (by decide)
  have hst : u.fld Pg.fstore (Reg.FSTORE_SLOT_STATUS_STATE k) = 1 := by
    rw [hu, State.fld_setFld_ne _ _ _ _ _ _ (Nat.le_of_ble_eq_true rfl) (.inl (by simp only [keyOf, ne_eq]; omega)), State.emptySlot,
      State.fld_setFld_ne _ _ _ _ _ _ (Nat.le_of_ble_eq_true rfl) (.inl (by simp only [keyOf, ne_eq]; omega)),
      State.fld_setFld_ne _ _ _ _ _ _ (Nat.le_of_ble_eq_true rfl) (.inr (.inr (Nat.le_of_ble_eq_true rfl))), State.fld_setFld_same _ _ _ _ (Nat.le_of_ble_eq_true rfl)]
    rfl
  have hslot : u.fld Pg.fstore Reg.FSTORE_LOAD_CTRL_SLOT = s.fld Pg.fstore Reg.FSTORE_LOAD_CTRL_SLOT := by
    rw [hu, State.fld_setFld_ne _ _ _ _ _ _ (by decide) (.inr (.inr (by decide))), State.emptySlot,
      State.fld_setFld_ne _ _ _ _ _ _ (by decide) (.inl (by simp only [keyOf, ne_eq]; omega)),
      State.fld_setFld_ne _ _ _ _ _ _ (by decide) (.inl (by simp only [keyOf, ne_eq]; omega)),
      State.fld_setFld_ne _ _ _ _ _ _ (by decide) (.inl (by simp only [keyOf, ne_eq]; omega))]
  have hu' : u = { s with regs := u.regs } := by
    rw [hu]
    exact ((s.emptySlot_touches k 1).trans (State.setFld_touches ..)).eq_mix
  have hregs : t.regs = u.regs := by rw [heq]
  refine ⟨by rw [heq], (State.fld_congr hregs _ _).trans hbusy, (State.fld_congr hregs _ _).trans hst, (State.fld_congr hregs _ _).trans hslot, ?_,
    hw.of_regs hregs⟩
  rw [heq, hu']

/-- The tag of a command that has just started. -/
theorem State.tagOf_putCmd {s : State} {tag : Nat} {c : Cmd} (h : s.NumbersUnique) (hl : (s.hq.cmds.get tag).live = true)
    (hc : c.live = true) (hu : c.uid = (s.hq.cmds.get tag).uid) : (s.putCmd tag c).tagOf c.uid = some tag := by
  have hmem : (tag, c) ∈ (s.hq.cmds.put tag c) := by
    have hg : (s.hq.cmds.put tag c).get tag = c := Tbl.get_put_same ..
    have := Tbl.mem_of_get (t := s.hq.cmds.put tag c) (k := tag) (by rw [hg]; rintro rfl; cases hc)
    rwa [hg] at this
  unfold State.tagOf
  cases hf : (s.putCmd tag c).hq.cmds.find? fun e => e.2.live && decide (e.2.uid = c.uid) with
  | none => exact absurd (List.find?_eq_none.1 hf _ hmem) (by simp [hc])
  | some e =>
    have hp := List.find?_some hf
    simp only [Bool.and_eq_true, decide_eq_true_eq] at hp
    rcases Tbl.mem_put (List.mem_of_find?_eq_some hf) with he | he
    · rw [he]
      rfl
    · exact congrArg some (h e he.1 _ (State.mem_cmds_of_live hl) hp.1 hl (hp.2.trans hu))

theorem execLoadSlot_of_starts {s : State} {tag : Nat} (h : s.starts tag 0x84 badLoadSlot packageLen) (hl : s.fstore.load = none)
    (hh : s.heldReq Pg.fstore = none) : ∃ c, (c.live = true ∧ c.stage = .running ∧ c.uid = (s.hq.cmds.get tag).uid ∧ c.raw = (s.hq.cmds.get tag).raw)
      ∧ exec (.loadSlot tag) s = .next (runLoadSlot c (s.putCmd tag c)) := by
  obtain ⟨⟨hlive, -, -, -⟩, -, -⟩ := id h
  have hcond : ¬ (s.fstore.load.isSome ∨ (s.heldReq Pg.fstore).isSome) := by simp [hl, hh]
  exact ⟨{ s.hq.cmds.get tag with stage := .running, len := packageLen (s.hq.cmds.get tag) s }, ⟨hlive, rfl, rfl, rfl⟩, congrArg _ ((if_neg hcond).trans (withCmd_of_starts _ h))⟩

theorem packageAt_of_stage {s : State} {tag : Nat} {c c' : Cmd} {e : StageNs} (h : c'.raw = c.raw) (he : s.stageNs c.nsid = some e) :
    (s.putCmd tag c').packageAt c' = s.stageBase + 2097152 * e.unit + c.offset := by
  have h1 : c'.nsid = c.nsid := by unfold Cmd.nsid; rw [h]
  have h2 : c'.offset = c.offset := by unfold Cmd.offset Cmd.cdw; rw [h]
  have h3 : (s.putCmd tag c').stageNs c'.nsid = some e := h1 ▸ he
  unfold State.packageAt
  rw [h2, h3]
  rfl

theorem State.loadCheck_putCmd (s : State) (tag : Nat) (c : Cmd) (k src : Nat) : (s.putCmd tag c).loadCheck k src = s.loadCheck k src := rfl

/-! ### The end of the copy -/

/-- The registers that the end of a copy changes: those of the slot, LOAD_CTRL and EVENT. -/
def loadEndKeys (k : Nat) : List Nat :=
  [keyOf (Reg.FSTORE_SLOT_STATUS_STATE k) Pg.fstore, keyOf (Reg.FSTORE_SLOT_CRC k) Pg.fstore, keyOf Reg.FSTORE_LOAD_CTRL_GO Pg.fstore,
    keyOf Reg.FSTORE_EVENT_LOAD_DONE Pg.fstore]

/-- The state with the payload of a load in its slot. -/
def State.slotLoaded (s : State) (l : FsLoad) : State :=
  let base := 4096 * s.fld Pg.fstore (Reg.FSTORE_SLOT_CFG_BASE l.slot)
  let s1 : State := { s with fstore := { s.fstore with mem := s.fstore.mem.setN base (s.peekN l.src (kindBytes l.kind)) } }
  ((s1.setFld Pg.fstore (Reg.FSTORE_SLOT_STATUS_STATE l.slot) 2).setFld Pg.fstore (Reg.FSTORE_SLOT_STATUS_FMT l.slot) l.fmt).setFld Pg.fstore
    (Reg.FSTORE_SLOT_CRC l.slot) l.crc

theorem State.loadDone_of_some {s : State} {l : FsLoad} (h : s.fstore.load = some l) (hst : s.fld Pg.fstore (Reg.FSTORE_SLOT_STATUS_STATE l.slot) = 1)
    (hsize : l.src + kindBytes l.kind ≤ s.dramSize) : s.loadDone =
      if crc32c (s.peekN l.src (kindBytes l.kind)) ≠ l.crc then (s.emptySlot l.slot 0).endLoad l.cmd 7 else (s.slotLoaded l).endLoad l.cmd 0 := by
  unfold State.loadDone State.slotLoaded
  simp only [h]
  rw [if_neg (not_not_intro hst), if_neg (by omega)]

theorem State.slotLoaded_effect (s : State) (l : FsLoad) {u : State} (hu : u = s.slotLoaded l) :
    u.fstore = { s.fstore with
        mem := s.fstore.mem.setN (4096 * s.fld Pg.fstore (Reg.FSTORE_SLOT_CFG_BASE l.slot)) (s.peekN l.src (kindBytes l.kind)) }
      ∧ u = { s with regs := u.regs, fstore := u.fstore } ∧ s.WritesIn u (· ∈ loadEndKeys l.slot)
      ∧ u.fld Pg.fstore (Reg.FSTORE_SLOT_STATUS_STATE l.slot) = 2 := by
  rw [State.slotLoaded] at hu
  dsimp only at hu
  generalize s.fstore.mem.setN (4096 * s.fld Pg.fstore (Reg.FSTORE_SLOT_CFG_BASE l.slot)) (s.peekN l.src (kindBytes l.kind)) = m at hu ⊢
  obtain ⟨w, hw⟩ : ∃ w : State, w = { s with fstore := { s.fstore with mem := m } } := ⟨_, rfl⟩
  rw [← hw] at hu
  have heq : u = { w with regs := u.regs } := by
    rw [hu]
    exact ((State.setFld_touches ..).trans (State.setFld_touches ..) |>.trans (State.setFld_touches ..)).eq_mix
  have hws : s.WritesIn w (· ∈ loadEndKeys l.slot) := .of_regs (.refl s _) (by rw [hw])
  refine ⟨by rw [heq, hw], by rw [heq, hw], ?_, ?_⟩
  · rw [hu]
    exact ((hws.setFld 2 (by simp [loadEndKeys])).setFld l.fmt (by simp [loadEndKeys, keyOf])).setFld l.crc (by simp [loadEndKeys])
  · rw [hu, State.fld_setFld_ne _ _ _ _ _ _ (Nat.le_of_ble_eq_true rfl) (.inl (by simp only [keyOf, ne_eq]; omega)),
      State.fld_setFld_ne _ _ _ _ _ _ (Nat.le_of_ble_eq_true rfl) (.inr (.inr (Nat.le_of_ble_eq_true rfl))),
      State.fld_setFld_same _ _ _ _ (Nat.le_of_ble_eq_true rfl)]
    rfl

theorem State.length_peekN (s : State) (a n : Nat) : (s.peekN a n).length = n := by
  unfold State.peekN
  simp

theorem State.peekN_getD (s : State) (a : Nat) {n i : Nat} (h : i < n) (d : Byte) : (s.peekN a n).getD i d = s.peek (a + i) := by
  unfold State.peekN State.peek
  simp only [List.getD_eq_getElem?_getD, List.getElem?_map, List.getElem?_range h, Option.map_some, Option.getD_some]
  rw [Bytes.get_part _ _ _ _ (by omega) (by omega)]

/-- The end of a load after the slot's own registers have been written. -/
theorem State.endLoad_slot {s u t : State} {k r : Nat} {cmd : Option Nat} (hu : s.WritesIn u (· ∈ loadEndKeys k)) (ht : t = u.endLoad cmd r) :
    s.KeepsRegs t (loadEndKeys k) ∧ t.fld Pg.fstore (Reg.FSTORE_SLOT_STATUS_STATE k) = u.fld Pg.fstore (Reg.FSTORE_SLOT_STATUS_STATE k) := by
  have hw := u.writesIn_endLoad cmd r
  rw [← ht] at hw
  refine ⟨(hu.trans (hw.mono fun a ha => List.mem_cons_of_mem _ (List.mem_cons_of_mem _ ha))).keepsRegs, hw.fld ?_⟩
  simp only [loadCtrlKey, keyOf, List.mem_cons, List.not_mem_nil, or_false]
  omega

/-- Settles O23: a load begins or ends at once by the checks, and its payload's CRC decides what the slot holds. -/
theorem slotLoads : Obligations.SlotLoads := by
  unfold Obligations.SlotLoads
  refine ⟨fun s r v k src hacc hgo hload hheld hk hsrc => ?go, fun s r v hacc hgo hbusy => ?busy,
    fun s tag k src c e hst hc hload hheld hns hk hsrc => ⟨fun hchk => ?cmd, fun hchk huniq => ?bad⟩,
    fun s l n hload hstate hn hsize => ⟨fun hcrc => ?done, fun hcrc => ?crc⟩⟩
  case go =>
    have hcond : ¬ (wfld v Reg.FSTORE_LOAD_CTRL_GO = 1 ∧ (s.fstore.load.isSome ∨ (s.heldReq Pg.fstore).isSome)) := by simp [hload, hheld]
    have hk64 : k < 64 := hk ▸ Word.bits_lt _ _ _
    obtain ⟨u, hu⟩ : ∃ u, u = s.setFld Pg.fstore Reg.FSTORE_LOAD_CTRL_SLOT k := ⟨_, rfl⟩
    have hw : s.WritesIn u (· = loadCtrlKey) := by
      rw [hu]
      exact .setFld (.refl s _) k rfl
    have hut : s.Touches u [.regs] := hu ▸ State.setFld_touches ..
    have heq : u = { s with regs := u.regs } := hut.eq_mix
    have hsrc' : 64 * u.fld Pg.fstore Reg.FSTORE_LOAD_SRC_LO + 2 ^ 32 * u.fld Pg.fstore Reg.FSTORE_LOAD_SRC_HI = src := by
      rw [hsrc, hw.fld (by decide), hw.fld (by decide)]
    have hrun : writeLoadCtrl r v s = u.beginLoad k src none := by
      unfold writeLoadCtrl
      rw [withWrite_of_accepts _ hacc, if_neg hcond, if_pos hgo, ← hk, ← hu, hsrc']
    obtain ⟨t, ht⟩ : ∃ t, t = u.beginLoad k src none := ⟨_, rfl⟩
    obtain ⟨hc1, hc2, hc3⟩ := State.loadCheck_congr heq hw hk64 src
    have hslot : u.fld Pg.fstore Reg.FSTORE_LOAD_CTRL_SLOT = k := by
      rw [hu, State.fld_setFld_same _ _ _ _ (by decide)]
      exact Nat.mod_eq_of_lt hk64
    have hwp : s.WritesIn u (onPages [Pg.fstore]) := hw.mono fun a ha => ha.symm ▸ onPages_keyOf (by decide) (by decide)
    have hkeep : s.KeepsBytes t := by
      rw [ht]
      exact ((hut.mono rfl).trans (u.beginLoad_touches k src none)).keepsBytes rfl
    refine ⟨t, congrArg _ (hrun.trans ht.symm), ?_⟩
    by_cases h0 : s.loadCheck k src = 0
    · obtain ⟨h1, h2, h3, h4, h5, h6⟩ := State.beginLoad_effect hk64 (hc1.trans h0) ht
      rw [hc2, hc3] at h1
      exact ⟨h4.trans hslot, fun _ => ⟨h1, h2, h3⟩, fun h => absurd h0 h, by rw [h5, heq]; rfl, (hwp.trans h6).keepsPages, hkeep⟩
    · rw [State.beginLoad_of_bad _ (by rwa [hc1]), hc1] at ht
      obtain ⟨h1, h2, h3, h4, h5, h6, h7, -⟩ := u.endLoad_effect none (s.loadCheck_lt k src) ht
      have hl : t.fstore.load = none := by rw [h6]
      rw [h7 rfl] at h6
      refine ⟨h5.trans hslot, fun h => absurd h h0, fun _ => ⟨hl, h2, h1, h3, h4 h0⟩, ?_, ?_, hkeep⟩
      · rw [hl, h6, heq]
        rfl
      · have hwe := u.writesIn_endLoad none (s.loadCheck k src)
        rw [← ht] at hwe
        exact (hwp.trans (hwe.mono fun a ha => onPages_loadKeys ha)).keepsPages
  case busy =>
    refine ⟨_, rfl, ?_⟩
    have hrun : writeLoadCtrl r v s = s.reject Pg.fstore := by
      unfold writeLoadCtrl
      rw [withWrite_of_accepts _ hacc, if_pos ⟨hgo, hbusy⟩]
    rw [hrun]
    exact s.rejected_reject _
  case cmd =>
    obtain ⟨c', ⟨hlive, hst', huid, hraw⟩, hrun⟩ := execLoadSlot_of_starts hst hload hheld
    have hrun' : runLoadSlot c' (s.putCmd tag c') = (s.putCmd tag c').beginLoad k src (some c.uid) := by
      rw [runLoadSlot, packageAt_of_stage (s := s) hraw (hc ▸ hns), huid, Cmd.cdw, hraw, hsrc, hk, hc]
      rfl
    obtain ⟨t, ht⟩ : ∃ t, t = (s.putCmd tag c').beginLoad k src (some c.uid) := ⟨_, rfl⟩
    have hk64 : k < 64 := by omega
    obtain ⟨h1, h2, h3, -, h5, h6⟩ := State.beginLoad_effect hk64 (State.loadCheck_putCmd .. |>.trans hchk) ht
    have hget : t.hq.cmds = s.hq.cmds.put tag c' := by
      rw [h5]
      rfl
    have hkb : s.KeepsBytes t := by
      rw [ht]
      exact (((s.putCmd_touches tag c' ⟨huid, fun _ => hst.1.1⟩).mono rfl).trans ((s.putCmd tag c').beginLoad_touches k src _)).keepsBytes rfl
    refine ⟨t, hrun.trans (congrArg _ (hrun'.trans ht.symm)), h1, h2, h3, ?_, fun g hg => ?_, ?_, ?_, hkb⟩
    · rw [hget, Tbl.get_put_same, hst']
    · rw [hget, Tbl.get_put_ne _ _ _ _ hg]
    · rw [h5]
      rfl
    · exact (State.WritesIn.trans (t := s.putCmd tag c') (.of_regs (.refl s _) rfl) h6).keepsPages
  case bad =>
    obtain ⟨c', ⟨hlive, hst', huid, hraw⟩, hrun⟩ := execLoadSlot_of_starts hst hload hheld
    have hrun' : runLoadSlot c' (s.putCmd tag c') = (s.putCmd tag c').beginLoad k src (some c'.uid) := by
      rw [runLoadSlot, packageAt_of_stage (s := s) hraw (hc ▸ hns), Cmd.cdw, hraw, hsrc, hk, hc]
      rfl
    have hchk' : (s.putCmd tag c').loadCheck k src = s.loadCheck k src := State.loadCheck_putCmd ..
    rw [State.beginLoad_of_bad _ (by rwa [hchk']), hchk'] at hrun'
    obtain ⟨t, ht⟩ : ∃ t, t = (s.putCmd tag c').endLoad (some c'.uid) (s.loadCheck k src) := ⟨_, rfl⟩
    obtain ⟨h1, -, -, -, -, h6, -, h8⟩ := (s.putCmd tag c').endLoad_effect (some c'.uid) (s.loadCheck_lt k src) ht
    have htag := State.tagOf_putCmd huniq (hst.1.1) hlive huid
    have hget : (s.putCmd tag c').hq.cmds.get tag = c' := Tbl.get_put_same ..
    have hop : (s.hq.cmds.get tag).op = 0x84 := hst.1.2.2.1
    have hdone := h8 _ rfl tag htag (by rw [hget]; exact hlive) (by rw [hget]) (by rw [hget, hst']; decide)
      (by rw [hget, Cmd.op, hraw]; rw [Cmd.op] at hop; rw [hop]; decide)
    have hkb : s.KeepsBytes t := by
      rw [ht]
      exact (((s.putCmd_touches tag c' ⟨huid, fun _ => hst.1.1⟩).mono rfl).trans ((s.putCmd tag c').endLoad_touches _ _)).keepsBytes rfl
    have hstat : loadStatus (s.loadCheck k src) = if s.loadCheck k src = 1 then 0x0C else if s.loadCheck k src = 8 then 0x30 else 0x02 := if_neg hchk
    refine ⟨t, hrun.trans (congrArg _ (hrun'.trans ht.symm)), h1, hstat ▸ hdone, ?_, ?_, hkb⟩
    · have hfs : ({ s.fstore with load := none } : FilterSt) = s.fstore := by rw [← hload]
      have h6' : t = { s.regsOf t with fstore := { s.fstore with load := none }, hq := t.hq } := h6
      rw [hfs] at h6'
      exact h6'
    · have hwe := (s.putCmd tag c').writesIn_endLoad (some c'.uid) (s.loadCheck k src)
      rw [← ht] at hwe
      exact (State.WritesIn.trans (t := s.putCmd tag c') (.of_regs (.refl s _) rfl) (hwe.mono fun a ha => onPages_loadKeys ha)).keepsPages
  case done =>
    obtain ⟨u, hu⟩ : ∃ u, u = s.slotLoaded l := ⟨_, rfl⟩
    obtain ⟨t, ht⟩ : ∃ t, t = u.endLoad l.cmd 0 := ⟨_, rfl⟩
    have hrun : s.loadDone = t := by
      rw [State.loadDone_of_some hload hstate (hn ▸ hsize), if_neg (not_not_intro (hn ▸ hcrc)), ← hu, ← ht]
    obtain ⟨hf, heq, hw, hst⟩ := s.slotLoaded_effect l hu
    obtain ⟨h1, h2, h3, -, -, h6, -, h8⟩ := u.endLoad_effect l.cmd (by decide) ht
    obtain ⟨hkeep, hst'⟩ := State.endLoad_slot hw ht
    have hmem : t.fstore.mem = s.fstore.mem.setN (4096 * s.fld Pg.fstore (Reg.FSTORE_SLOT_CFG_BASE l.slot)) (s.peekN l.src n) := by
      rw [h6, hn]
      exact congrArg FilterSt.mem hf
    have hhq : u.hq = s.hq := by rw [heq]
    refine ⟨t, congrArg _ hrun, fun i hi => ?_, fun a ha => ?_, hst'.trans hst, h1, h2, h3, by rw [h6],
      fun c hc => State.ends_from (h8 c hc) (congrArg Hq.cmds hhq), ?_, hkeep⟩
    · rw [hmem, Bytes.get_setN, State.length_peekN, if_pos (by omega), Nat.add_sub_cancel_left, State.peekN_getD _ _ hi]
    · rw [hmem, Bytes.get_setN, State.length_peekN, if_neg (by omega)]
    · rw [h6, heq]
      rfl
  case crc =>
    obtain ⟨u, hu⟩ : ∃ u, u = s.emptySlot l.slot 0 := ⟨_, rfl⟩
    obtain ⟨t, ht⟩ : ∃ t, t = u.endLoad l.cmd 7 := ⟨_, rfl⟩
    have hrun : s.loadDone = t := by
      rw [State.loadDone_of_some hload hstate (hn ▸ hsize), if_pos (hn ▸ hcrc), ← hu, ← ht]
    obtain ⟨h1, h2, h3, h4, -, h6, -, h8⟩ := u.endLoad_effect l.cmd (by decide) ht
    have hut : s.Touches u [.regs] := hu ▸ s.emptySlot_touches l.slot 0
    have heq : u = { s with regs := u.regs } := hut.eq_mix
    have hhq : u.hq = s.hq := by rw [heq]
    have hw : s.WritesIn u (· ∈ loadEndKeys l.slot) := by
      rw [hu]
      exact ((State.WritesIn.setFld (.refl s _) 0 (by simp [loadEndKeys])).setFld 0 (by simp [loadEndKeys, keyOf])).setFld 0 (by simp [loadEndKeys])
    obtain ⟨hkeep, hst'⟩ := State.endLoad_slot hw ht
    have hkb : s.KeepsBytes t := by
      rw [ht]
      exact ((hut.mono rfl).trans (u.endLoad_touches l.cmd 7)).keepsBytes rfl
    refine ⟨t, congrArg _ hrun, hst'.trans ?_, h1, h3, h4 (by decide), fun c hc => State.ends_from (h8 c hc) (congrArg Hq.cmds hhq), ?_, hkeep, hkb⟩
    · rw [hu, State.emptySlot, State.fld_setFld_ne _ _ _ _ _ _ (Nat.le_of_ble_eq_true rfl) (.inl (by simp only [keyOf, ne_eq]; omega)),
        State.fld_setFld_ne _ _ _ _ _ _ (Nat.le_of_ble_eq_true rfl) (.inr (.inr (Nat.le_of_ble_eq_true rfl))),
        State.fld_setFld_same _ _ _ _ (Nat.le_of_ble_eq_true rfl)]
      rfl
    · rw [h6, heq]
      rfl

end Sys2Proof.Machine
end

section
/-! PROOFS. The end of a flush point and the commands that wait for it (R330, R333). -/

set_option Elab.async false

namespace Sys2Proof.Machine

/-- A state with an open reel whose last index bank has been written, two APPEND METADATA commands that wait for it, and a command table that
lists tag 0 twice, once for each. -/
def tagTwice : State :=
  { hq := { cmds := [(0, { live := true, uid := 5, stage := .running }), (0, { live := true, uid := 7, stage := .running })] }
    media := { reel := { isOpen := true, flush := .banking, lastFlush := true, appends := [(7, 64, 0), (5, 0, 0)] } } }

/-- The first command to end is found under the tag of the other one, which ends with its result. -/
theorem tagTwice_result : (tagTwice.bankDone.hq.cmds.get 0).result = 64 := by decide +kernel

/-- Refutes O47: the statement allows a command table that lists a tag twice, in which the end of one command ends another one with its RESULT. No
run makes such a table. -/
theorem not_flushPoints : ¬ Obligations.FlushPoints := by
  unfold Obligations.FlushPoints
  rintro ⟨-, -, -, -, -, hbank⟩
  obtain ⟨t, ht, -, -, -, hends, -⟩ := hbank tagTwice rfl rfl (by decide) (.inl rfl)
  have hdone := hends (by decide) (5, 0, 0) (by decide) (by decide) 0 (by decide) (by decide) (by decide) (by decide) (by decide)
  obtain ⟨-, -, -, hres, -⟩ := hdone
  rw [← Host.Outcome.next.inj ht] at hres
  exact absurd (tagTwice_result.symm.trans hres) (by decide)

end Sys2Proof.Machine
end

section
/-! PROOFS. The fatal DRAM error that a load has read (R231, R466). -/

set_option Elab.async false

namespace Sys2Proof.Machine

/-- A state in which slot 448 of the Filter Store is being loaded: the status register of such a slot would stand on the page above, that of the
splitter. -/
def slotBeyondPage : State :=
  ({ ctl := { phase := .settled }, fstore := { load := some { slot := 448, src := 0, kind := 1, fmt := 0, crc := 0, cmd := none } } } : State).setFld
    Pg.fstore (Reg.FSTORE_SLOT_STATUS_STATE 448) 1

/-- An uncorrectable error at the load's first byte. -/
def errorUnderLoad : EccError := { addr := 0, fatal := true, tag := none }

/-- The load ends and its slot is emptied: bit 0 of the splitter's first register falls. -/
theorem slotBeyondPage_emptied :
    (slotBeyondPage.eccError errorUnderLoad).fld Pg.fstore (Reg.FSTORE_SLOT_STATUS_STATE 448) = 0 := by decide +kernel

theorem exec_dramEccError_of_up {s : State} (e : EccError) (h : s.ctl.phase ≠ .inReset) : exec (.dramEccError e) s = .next (s.eccError e) :=
  congrArg _ (if_neg h)

/-- Refutes O58: the clause of an uncorrectable error says that the pages of its channel and of the Filter Store are the only ones to change, and
a load of a slot with no status register of its own changes the page above. No run loads such a slot. -/
theorem not_dramController : ¬ Obligations.DramController := by
  unfold Obligations.DramController
  rintro ⟨-, -, -, -, -, -, -, -, hecc, -⟩
  obtain ⟨t, ht, -, -, -, -, -, -, -, hkeep, -⟩ := (hecc slotBeyondPage errorUnderLoad 0 (by decide) (by decide)).2 rfl
  have hfld : t.fld Pg.fstore (Reg.FSTORE_SLOT_STATUS_STATE 448) = 1 := (State.fld_of_rd (hkeep _ (by decide))).trans (by decide)
  have ht' : t = slotBeyondPage.eccError errorUnderLoad := (Host.Outcome.next.inj ((exec_dramEccError_of_up _ (by decide)).symm.trans ht)).symm
  rw [ht'] at hfld
  exact absurd (slotBeyondPage_emptied.symm.trans hfld) (by decide)

end Sys2Proof.Machine
end

section
/-! PROOFS. Tiles counted on the page of the core that an assignment names (R226, R232). -/

set_option Elab.async false

namespace Sys2Proof.Machine

/-- A raster of one photosite whose only column is assigned to core 100, which no page shows; the frame in work has its line. -/
def strayCore : State :=
  ((({ draw := { live := some { lines := [[0]] }, cores := [100] } } : State).setFld Pg.ingress Reg.INGRESS_WINA_WH_W 1).setFld
    Pg.ingress Reg.INGRESS_WINA_WH_H 1).setFld Pg.ingress Reg.INGRESS_CFG_CFA_MODE 0

/-- The frame's one tile is counted at page 0xCC. -/
theorem strayCore_counted : strayCore.drawDone.rd (Pg.draw 100 * 0x1000 + Reg.DRAW_TILES_DONE.off) ≠ 0 := by decide +kernel

theorem strayCore_uncounted : strayCore.rd (Pg.draw 100 * 0x1000 + Reg.DRAW_TILES_DONE.off) = 0 := by decide +kernel

theorem strayCore_rasterH : strayCore.rasterH = 1 := by decide +kernel

/-- Refutes O38: the pages that its clause of a finished frame lets change are those of cores 0 to 15, and the assignment in force may name
another core. No run assigns columns to one. -/
theorem not_rawRecords : ¬ Obligations.RawRecords := by
  unfold Obligations.RawRecords
  rintro ⟨-, -, hdone, -⟩
  obtain ⟨t, ht, -, -, -, -, -, -, -, hkeep⟩ :=
    hdone strayCore { lines := [[0]] } 0 _ rfl (le_of_eq strayCore_rasterH) rfl rfl
  have ht' : t = strayCore.drawDone := (Host.Outcome.next.inj ht).symm
  rw [ht'] at hkeep
  exact strayCore_counted ((hkeep _ (by decide)).trans strayCore_uncounted)

/-- The same assignment with a frame in the catch-up, held in slot 0. -/
def strayCatchup : State :=
  { strayCore.setFld Pg.ingress Reg.INGRESS_RING_CFG_SLOTS 1 with
    draw := { cat := some {}, cores := [100] }, ingress := { slots := [(0, { has := true })] } }

theorem strayCatchup_counted : strayCatchup.catchupDone.rd (Pg.draw 100 * 0x1000 + Reg.DRAW_TILES_DONE.off) ≠ 0 := by decide +kernel

theorem strayCatchup_uncounted : strayCatchup.rd (Pg.draw 100 * 0x1000 + Reg.DRAW_TILES_DONE.off) = 0 := by decide +kernel

theorem strayCatchup_slot : strayCatchup.slotOf 0 = some 0 := by decide +kernel

/-- Refutes O36: its clause of a frame that the catch-up has encoded names the pages of cores 0 to 15, and the assignment in force may name
another core. No run assigns columns to one. -/
theorem not_sharedRead : ¬ Obligations.SharedRead := by
  unfold Obligations.SharedRead
  rintro ⟨-, -, -, hdone, -⟩
  obtain ⟨t, ht, -, -, -, -, -, -, -, hkeep⟩ := hdone strayCatchup {} 0 _ _ _ rfl strayCatchup_slot rfl rfl rfl
  have ht' : t = strayCatchup.catchupDone := (Host.Outcome.next.inj ht).symm
  rw [ht'] at hkeep
  exact strayCatchup_counted ((hkeep _ (by decide)).trans strayCatchup_uncounted)

end Sys2Proof.Machine
end

section
/-! PROOFS. The directory written as a reel closes or opens (R325, R333). -/

set_option Elab.async false

namespace Sys2Proof.Machine

/-- A state at the boundary of a move from RECORD to LIVE with a closable reel on a volume over three drives, the third ready. -/
def threeDrivesClosing : State :=
  { regs := [(keyOf Reg.MEDIA_STATE_PORT (Pg.media 2), 3)]
    ctl := { phase := .switching .live none, recEnd := some 0 }
    media := { vol := some { drives := 3 }, reel := { isOpen := true, closing := true, closed := true, nsid := 2 } } }

/-- The directory that shows the reel closed is counted on page media 2. -/
theorem threeDrivesClosing_counts : threeDrivesClosing.reelClose.fld (Pg.media 2) Reg.MEDIA_WRITTEN_LO ≠ 0 := by decide +kernel

/-- Refutes O33: the statement allows a volume of any number of drives, and the directory that the close of a reel writes on a third drive is counted
on the page after the two media ports, which the statement says is kept. No run mounts such a volume. -/
theorem not_takeBeginsAndEnds : ¬ Obligations.TakeBeginsAndEnds := by
  unfold Obligations.TakeBeginsAndEnds
  rintro ⟨-, -, -, -, -, hclose⟩
  obtain ⟨t, ht, -, -, -, -, -, hkeep, -⟩ := hclose threeDrivesClosing none 0 rfl rfl (Nat.zero_le _) rfl
  have hfld : t.fld (Pg.media 2) Reg.MEDIA_WRITTEN_LO = 0 := (State.fld_of_rd (hkeep _ (by decide))).trans (by decide)
  have ht' : t = threeDrivesClosing.reelClose := (Host.Outcome.next.inj ht).symm
  exact threeDrivesClosing_counts (ht' ▸ hfld)

/-- A state at the first frame of a START of RECORD on a volume over three drives, the third ready. -/
def threeDrivesStart : State :=
  (({ regs := [(keyOf Reg.MEDIA_STATE_PORT (Pg.media 2), 3)]
      ctl := { phase := .starting .record none }, portA := { sof := some (0, 0) }
      media := { vol := some { drives := 3 } } } : State).setFld Pg.ingress Reg.INGRESS_CTRL_ENABLE 1).setFld Pg.recorder
    Reg.RECORDER_CTRL_ENABLE 1

/-- The directory that shows the new reel open is counted on page media 2. -/
theorem threeDrivesStart_counts : (threeDrivesStart.frameStart 0).fld (Pg.media 2) Reg.MEDIA_WRITTEN_LO ≠ 0 := by decide +kernel

theorem threeDrivesStart_commitsOk : threeDrivesStart.CommitsOk := ⟨fun _ hg => absurd hg List.not_mem_nil, fun _ he => absurd he List.not_mem_nil⟩

/-- Refutes O34: the statement allows a volume of any number of drives, and the directory that the opening of a reel writes on a third drive is
counted on the page after the two media ports, which the statement says is kept. No run mounts such a volume. -/
theorem not_frameStarts : ¬ Obligations.FrameStarts := by
  unfold Obligations.FrameStarts
  rintro ⟨-, hstart, -⟩
  obtain ⟨t, ht, -, -, hkeep⟩ := hstart threeDrivesStart 0 (by decide) rfl rfl (by decide) threeDrivesStart_commitsOk rfl rfl
    (fun cmd h => absurd h (by simp [threeDrivesStart, State.setFld, State.wr]))
  have hfld : t.fld (Pg.media 2) Reg.MEDIA_WRITTEN_LO = 0 :=
    (State.fld_of_rd (hkeep _ (by decide) (by decide) (by decide))).trans (by decide)
  have ht' : t = threeDrivesStart.frameStart 0 := (Host.Outcome.next.inj ht).symm
  exact threeDrivesStart_counts (ht' ▸ hfld)

end Sys2Proof.Machine
end

section
/-! PROOFS. ABORT and CHECK CONFIG (R296, R297, R305). -/

set_option Elab.async false

namespace Sys2Proof.Machine

/-- A completion that does not run out of namespaces changes the command table and, when it failed, the error log. -/
theorem State.finishTag_eq (s : State) (tag result detail field : Nat) {status : Nat} (h : status ≠ 0x32) :
    ∃ t, s.finishTag tag status result detail field = t ∧ t = { s with hq := { s.hq with
      cmds := t.hq.cmds, errors := t.hq.errors, errCount0 := t.hq.errCount0, errCount1 := t.hq.errCount1 } } := by
  refine ⟨_, rfl, ?_⟩
  unfold State.finishTag
  simp only [h, if_false]
  split
  · rfl
  · split <;> rfl

/-! ### ABORT -/

/-- Whether an entry of the command table is one that an ABORT names. -/
def Cmd.aborts (c : Cmd) (tag : Nat) (e : Nat × Cmd) : Bool :=
  e.2.live && decide (e.2.fn = c.fn) && decide (e.2.sqid = c.cdw 8 % 64) && decide (e.2.cid = c.cdw 8 / 65536)
    && !decide (e.2.stage = .done) && decide (e.1 ≠ tag)

theorem Cmd.aborts_iff {c : Cmd} {tag : Nat} {e : Nat × Cmd} : c.aborts tag e = true ↔
    e.2.live = true ∧ e.2.fn = c.fn ∧ e.2.sqid = c.cdw 8 % 64 ∧ e.2.cid = c.cdw 8 / 65536 ∧ e.2.stage ≠ .done ∧ e.1 ≠ tag := by
  simp [Cmd.aborts, and_assoc]

theorem runAbort_of_none {s : State} {tag : Nat} {c : Cmd} (h : s.hq.cmds.find? (c.aborts tag) = none) :
    runAbort tag c s = s.finishTag tag 0 1 0 0xFFFF := by
  unfold runAbort
  unfold Cmd.aborts at h
  simp only [h]

theorem runAbort_of_stopped {s u : State} {tag : Nat} {c : Cmd} {e : Nat × Cmd} (h : s.hq.cmds.find? (c.aborts tag) = some e)
    (hu : s.stopCmd e.1 = some u) : runAbort tag c s = u.finishTag tag 0 0 0 0xFFFF := by
  unfold runAbort
  unfold Cmd.aborts at h
  simp only [h, hu]

theorem runAbort_of_held {s : State} {tag : Nat} {c : Cmd} {e : Nat × Cmd} (h : s.hq.cmds.find? (c.aborts tag) = some e)
    (hu : s.stopCmd e.1 = none) : runAbort tag c s = s.finishTag tag 0 2 0 0xFFFF := by
  unfold runAbort
  unfold Cmd.aborts at h
  simp only [h, hu]

/-- The entries other than its own that a started ABORT finds are those before it started. -/
theorem State.mem_start {s : State} {tag : Nat} {e : Nat × Cmd} (h : e ∈ (s.start tag).hq.cmds) (hne : e.1 ≠ tag) : e ∈ s.hq.cmds := by
  rcases Tbl.mem_put h with rfl | ⟨h, -⟩
  · exact absurd rfl hne
  · exact h

theorem State.find_none_of_start {s : State} {tag : Nat}
    (h : ∀ e ∈ s.hq.cmds, e.1 ≠ tag → e.2.live = true → e.2.stage ≠ .done → ¬ (e.2.fn = (s.hq.cmds.get tag).fn
      ∧ e.2.sqid = (s.hq.cmds.get tag).cdw 8 % 64 ∧ e.2.cid = (s.hq.cmds.get tag).cdw 8 / 65536)) :
    (s.start tag).hq.cmds.find? ((s.hq.cmds.get tag).started.aborts tag) = none := by
  refine List.find?_eq_none.2 fun e he ha => ?_
  obtain ⟨hlive, hfn, hsq, hcid, hstage, hne⟩ := Cmd.aborts_iff.1 ha
  exact h e (State.mem_start he hne) hne hlive hstage ⟨hfn, hsq, hcid⟩

theorem State.find_some_of_start {s : State} {tag g : Nat} (hg : g ≠ tag) (hlive : (s.hq.cmds.get g).live = true)
    (hstage : (s.hq.cmds.get g).stage ≠ .done) (hfn : (s.hq.cmds.get g).fn = (s.hq.cmds.get tag).fn)
    (hsq : (s.hq.cmds.get g).sqid = (s.hq.cmds.get tag).cdw 8 % 64) (hcid : (s.hq.cmds.get g).cid = (s.hq.cmds.get tag).cdw 8 / 65536)
    (huniq : ∀ e ∈ s.hq.cmds, e.1 ≠ tag → e.2.live = true → e.2.fn = (s.hq.cmds.get tag).fn → e.2.sqid = (s.hq.cmds.get g).sqid →
      e.2.cid = (s.hq.cmds.get g).cid → e.1 = g) :
    ∃ e, (s.start tag).hq.cmds.find? ((s.hq.cmds.get tag).started.aborts tag) = some e ∧ e.1 = g := by
  have hget : (s.start tag).hq.cmds.get g = s.hq.cmds.get g := s.onlyTag_start tag g hg
  have hmem : (g, s.hq.cmds.get g) ∈ (s.start tag).hq.cmds := by
    rw [← hget]
    exact State.mem_cmds_of_live (by rw [hget]; exact hlive)
  have hsome : ((s.start tag).hq.cmds.find? ((s.hq.cmds.get tag).started.aborts tag)).isSome = true :=
    List.find?_isSome.2 ⟨_, hmem, Cmd.aborts_iff.2 ⟨hlive, hfn, hsq, hcid, hstage, hg⟩⟩
  obtain ⟨e, he⟩ := Option.isSome_iff_exists.1 hsome
  obtain ⟨hl, hf, hs, hc, -, hne⟩ := Cmd.aborts_iff.1 (List.find?_some he)
  exact ⟨e, he, huniq e (State.mem_start (List.mem_of_find?_eq_some he) hne) hne hl hf (hs.trans hsq.symm) (hc.trans hcid.symm)⟩

/-- A READ or a LOAD SLOT is stopped while it waits, and goes on once it runs. -/
theorem State.stopCmd_of_read {s : State} {g : Nat} (h : (s.hq.cmds.get g).op = 0x80 ∨ (s.hq.cmds.get g).op = 0x84) :
    s.stopCmd g = if (s.hq.cmds.get g).stage = .waiting then some (s.finishTag g 0x07 0 0 0xFFFF) else none := by
  unfold State.stopCmd
  rcases h with h | h <;> simp [h]

theorem State.stopCmd_of_other {s : State} {g : Nat} (h : (s.hq.cmds.get g).op ∉ [0x10, 0x80, 0x81, 0x84, 0x88, 0x89]) : s.stopCmd g = none := by
  simp only [List.mem_cons, List.not_mem_nil, or_false, not_or] at h
  obtain ⟨h1, h2, h3, h4, h5, h6⟩ := h
  simp [State.stopCmd]

/-- A started command that answers with a RESULT at once. -/
theorem State.done_at_start {s : State} {tag op : Nat} (h : s.mayRun tag op) (hop : op ≠ 0x28) (result : Nat) :
    ∃ t, (s.start tag).finishTag tag 0 result 0 0xFFFF = t ∧ s.Done t tag result ∧ t = { s with hq := { s.hq with cmds := t.hq.cmds } } := by
  obtain ⟨⟨c, hc⟩, hdone⟩ := State.done_of_start (u := s.start tag) h hop rfl result 0xFFFF
  exact ⟨_, rfl, hdone, by rw [hc]; rfl⟩

/-- A command stopped as it waits, and the ABORT that stopped it. -/
theorem State.stopped_effect {s u t : State} {tag g : Nat} (hrun : s.mayRun tag 0x07) (hg : g ≠ tag) (hlive : (s.hq.cmds.get g).live = true)
    (hstage : (s.hq.cmds.get g).stage ≠ .done) (hop : (s.hq.cmds.get g).op ≠ 0x28) (hu : u = (s.start tag).finishTag g 0x07 0 0 0xFFFF)
    (ht : t = u.finishTag tag 0 0 0 0xFFFF) :
    t.completed tag 0 0 0 ∧ t.completed g 0x07 0 0 ∧ (∀ k, k ≠ tag → k ≠ g → t.hq.cmds.get k = s.hq.cmds.get k)
      ∧ t = { s with hq := { s.hq with
          cmds := t.hq.cmds, errors := t.hq.errors, errCount0 := t.hq.errCount0, errCount1 := t.hq.errCount1 } } := by
  have hget : (s.start tag).hq.cmds.get g = s.hq.cmds.get g := s.onlyTag_start tag g hg
  have hug := State.completed_finishTag (s := s.start tag) 0x07 0 0 0xFFFF (by rw [hget]; exact hlive) (by rw [hget]; exact hstage)
    (by rw [hget]; exact hop)
  rw [← hu] at hug
  have hukeep (k : Nat) (hk : k ≠ g) : u.hq.cmds.get k = (s.start tag).hq.cmds.get k := by rw [hu]; exact State.onlyTag_finishTag _ _ _ _ _ _ k hk
  obtain ⟨h1, h2, h3⟩ := State.running_of_start (u := u) hrun (by rw [hukeep tag (Ne.symm hg), State.start_get])
  have ho : (u.hq.cmds.get tag).op ≠ 0x28 := by rw [h3]; decide
  have htkeep (k : Nat) (hk : k ≠ tag) : t.hq.cmds.get k = u.hq.cmds.get k := by rw [ht]; exact State.onlyTag_finishTag _ _ _ _ _ _ k hk
  refine ⟨ht ▸ State.completed_finishTag 0 0 0 0xFFFF h1 h2 ho, ?_, fun k hk hkg => ?_, ?_⟩
  · unfold State.completed
    rw [htkeep g hg]
    exact hug
  · rw [htkeep k hk, hukeep k hkg]
    exact s.onlyTag_start tag k hk
  · obtain ⟨u', hu', hueq⟩ := State.finishTag_eq (s.start tag) g 0 0 0xFFFF (show 0x07 ≠ 0x32 by decide)
    rw [← hu] at hu'
    obtain rfl := hu'
    rw [ht, State.finishTag_ok 0 0 0xFFFF h1 h2 ho, hueq]
    rfl

/-! ### CHECK CONFIG -/

theorem runCheckConfig_of_sleep {h : HostData} {tag : Nat} {c : Cmd} {s : State} (hm : s.ctl.mode = .sleep) :
    runCheckConfig h tag c s = s.finishTag tag 0x0C 0 0 0xFFFF := by
  unfold runCheckConfig
  rw [if_pos hm]

theorem runCheckConfig_of_rate {h : HostData} {tag : Nat} {c : Cmd} {s : State} (hm : s.ctl.mode ≠ .sleep) (hr : s.trigCheck = 0x11) :
    runCheckConfig h tag c s = s.finishTag tag 0x11 0 0 0xFFFF := by
  unfold runCheckConfig
  rw [if_neg hm, if_pos hr]

theorem runCheckConfig_of_error {h : HostData} {tag st : Nat} {c : Cmd} {s : State} (hm : s.ctl.mode ≠ .sleep) (hr : s.trigCheck ≠ 0x11)
    (hb : s.buffers c h true = .error st) : runCheckConfig h tag c s = s.failBuf tag st := by
  unfold runCheckConfig
  rw [if_neg hm, if_neg hr]
  simp only [hb]

/-- The status and the detail that a budget report gives its command. -/
def budgetStatus (l : List BudgetEntry) : Nat × Nat × Nat :=
  match firstOver l with
  | none => (0, 0, 0)
  | some e => (0x12, e.2.1, e.1)

theorem budgetStatus_of_none {l : List BudgetEntry} (h : firstOver l = none) : budgetStatus l = (0, 0, 0) := by
  simp only [budgetStatus, h]

theorem budgetStatus_of_some {l : List BudgetEntry} {e : BudgetEntry} (h : firstOver l = some e) : budgetStatus l = (0x12, e.2.1, e.1) := by
  simp only [budgetStatus, h]

theorem budgetStatus_ne (l : List BudgetEntry) : (budgetStatus l).1 ≠ 0x32 := by
  unfold budgetStatus
  split
  · exact (by decide : (0 : Nat) ≠ 0x32)
  · exact (by decide : (0x12 : Nat) ≠ 0x32)

/-- The report of a CHECK CONFIG kept and written to its buffers. -/
def State.reported (s : State) (fn : Fn) (bufs : List (Nat × Nat)) (l : List BudgetEntry) : State :=
  (s.setHq { s.hq with report := budgetReport l }).toHost fn bufs (budgetReport l)

theorem runCheckConfig_of_ok {h : HostData} {tag : Nat} {c : Cmd} {s : State} {bufs : List (Nat × Nat)} (hm : s.ctl.mode ≠ .sleep)
    (hr : s.trigCheck ≠ 0x11) (hb : s.buffers c h true = .ok bufs) :
    runCheckConfig h tag c s = (s.reported c.fn bufs s.budget).finishTag tag (budgetStatus s.budget).1 (budgetStatus s.budget).2.1
      (budgetStatus s.budget).2.2 0xFFFF := by
  unfold runCheckConfig budgetStatus
  rw [if_neg hm, if_neg hr]
  simp only [hb]
  cases firstOver s.budget <;> rfl

theorem State.reported_effect (s : State) (fn : Fn) (bufs : List (Nat × Nat)) (l : List BudgetEntry) :
    s.reported fn bufs l = { s with out := (s.reported fn bufs l).out, hq := { s.hq with report := budgetReport l } }
      ∧ ∀ u : State, u.out = s.out → (s.reported fn bufs l).out = (u.toHost fn bufs (budgetReport l)).out := by
  obtain ⟨h1, h2⟩ := (s.setHq { s.hq with report := budgetReport l }).toHost_effect fn bufs (budgetReport l)
  exact ⟨h1, fun u hu => (h2 u hu).symm⟩

/-- A CHECK CONFIG whose report is written. -/
theorem checkConfig_reports {s t : State} {tag : Nat} {bufs : List (Nat × Nat)} (hrun : s.mayRun tag 0x12)
    (ht : t = ((s.start tag).reported (s.hq.cmds.get tag).fn bufs s.budget).finishTag tag (budgetStatus s.budget).1
      (budgetStatus s.budget).2.1 (budgetStatus s.budget).2.2 0xFFFF) :
    t.hq.report = budgetReport s.budget ∧ t.out = (s.toHost (s.hq.cmds.get tag).fn bufs (budgetReport s.budget)).out
      ∧ t.completed tag (budgetStatus s.budget).1 (budgetStatus s.budget).2.1 (budgetStatus s.budget).2.2 ∧ s.OnlyTag t tag
      ∧ t = { s with out := t.out, hq := { s.hq with
          cmds := t.hq.cmds, report := t.hq.report, errors := t.hq.errors, errCount0 := t.hq.errCount0, errCount1 := t.hq.errCount1 } } := by
  obtain ⟨hrep, hout⟩ := (s.start tag).reported_effect (s.hq.cmds.get tag).fn bufs s.budget
  have hout' := (hout s rfl)
  have hne := budgetStatus_ne s.budget
  generalize (s.start tag).reported (s.hq.cmds.get tag).fn bufs s.budget = u at *
  generalize budgetStatus s.budget = b at *
  have hcmds : u.hq.cmds = (s.start tag).hq.cmds := by rw [hrep]
  obtain ⟨h1, h2, h3⟩ := State.running_of_start (u := u) hrun (by rw [hcmds]; exact s.start_get tag)
  have ho : (u.hq.cmds.get tag).op ≠ 0x28 := by rw [h3]; decide
  obtain ⟨t', ht', hteq⟩ := State.finishTag_eq u tag b.2.1 b.2.2 0xFFFF hne
  obtain rfl : t = t' := ht.trans ht'
  refine ⟨?_, ?_, ht ▸ State.completed_finishTag _ _ _ _ h1 h2 ho, ht ▸ ?_, ?_⟩
  · rw [hteq, hrep]
  · rw [hteq]
    exact hout'
  · exact (fun g hg => by rw [State.onlyTag_finishTag _ _ _ _ _ _ g hg, hcmds]; exact s.onlyTag_start tag g hg)
  · rw [hteq, hrep]
    rfl

/-- Settles O32: an ABORT finds its target by the function, the queue and the command identifier; a CHECK CONFIG writes the report of the budget. -/
theorem abortAndCheck : Obligations.AbortAndCheck := by
  unfold Obligations.AbortAndCheck
  refine ⟨?absent, ?read, ?other, ?report, ?bad, ?sleep, ?rate, ?window⟩
  case absent =>
    rintro s tag c hst rfl hno
    obtain ⟨t, ht, heff⟩ := State.done_at_start hst.1 (by decide) 1
    refine ⟨t, ?_, heff⟩
    rw [← ht, ← runAbort_of_none (State.find_none_of_start hno)]
    exact congrArg Host.Outcome.next (withCmd_started (runAbort tag) hst)
  case read =>
    rintro s tag g c x hst rfl hg rfl hlive hstage hfn hsq hcid hop huniq
    obtain ⟨e, he, hge⟩ := State.find_some_of_start hg hlive hstage hfn hsq hcid huniq
    have hget : (s.start tag).hq.cmds.get g = s.hq.cmds.get g := s.onlyTag_start tag g hg
    have hstop := State.stopCmd_of_read (s := s.start tag) (g := g) (by rw [hget]; exact hop)
    rw [hget, ← hge] at hstop
    have hexec : exec (.abort tag) s = .next (runAbort tag (s.hq.cmds.get tag).started (s.start tag)) :=
      congrArg Host.Outcome.next (withCmd_started (runAbort tag) hst)
    by_cases hw : (s.hq.cmds.get g).stage = .waiting
    · rw [hge, if_pos hw, ← hge] at hstop
      rw [hexec, runAbort_of_stopped he hstop]
      obtain ⟨h1, h2, h3, h4⟩ := State.stopped_effect hst.1 hg hlive hstage (by rcases hop with h | h <;> rw [h] <;> decide) rfl rfl
      rw [hge]
      exact ⟨_, rfl, fun _ => ⟨h1, h2, h3⟩, fun hr => absurd (hw.symm.trans hr) (by decide), h4⟩
    · rw [hge, if_neg hw, ← hge] at hstop
      rw [hexec, runAbort_of_held he hstop]
      obtain ⟨t, ht, hdone, hteq⟩ := State.done_at_start hst.1 (by decide) 2
      exact ⟨t, by rw [ht], fun h => absurd h hw, fun _ => hdone, by rw [hteq]⟩
  case other =>
    rintro s tag g c x hst rfl hg rfl hlive hstage hfn hsq hcid hop huniq
    obtain ⟨e, he, hge⟩ := State.find_some_of_start hg hlive hstage hfn hsq hcid huniq
    have hget : (s.start tag).hq.cmds.get g = s.hq.cmds.get g := s.onlyTag_start tag g hg
    have hstop : (s.start tag).stopCmd e.1 = none := by rw [hge]; exact State.stopCmd_of_other (by rw [hget]; exact hop)
    obtain ⟨t, ht, heff⟩ := State.done_at_start hst.1 (by decide) 2
    refine ⟨t, ?_, heff⟩
    rw [← ht, ← runAbort_of_held he hstop]
    exact congrArg Host.Outcome.next (withCmd_started (runAbort tag) hst)
  case report =>
    rintro s tag h c bufs hst rfl hb hm hr
    obtain ⟨hrep, hout, hdone, honly, heq⟩ := checkConfig_reports (bufs := bufs) hst.1 rfl
    refine ⟨_, ?_, hrep, hout, fun hn => ?_, fun e hs => ?_, honly, heq⟩
    · exact congrArg Host.Outcome.next ((withCmd_started (runCheckConfig h tag) hst).trans (runCheckConfig_of_ok (s := s.start tag) hm hr hb))
    · rw [budgetStatus_of_none hn] at hdone ⊢
      exact hdone
    · rw [budgetStatus_of_some hs] at hdone ⊢
      exact hdone
  case bad =>
    intro s tag h hrun hbad
    exact ⟨_, rfl, withCmd_failed_of_bad _ hrun (by decide) (Option.ne_none_iff_isSome.1 hbad)⟩
  case sleep =>
    intro s tag h hst hm
    refine ⟨_, congrArg Host.Outcome.next ((withCmd_started (runCheckConfig h tag) hst).trans (runCheckConfig_of_sleep (s := s.start tag) hm)), ?_⟩
    exact State.failed_of_start hst.1 (by decide) 0xFFFF (by decide) (by decide)
  case rate =>
    intro s tag h hst hm hr
    refine ⟨_, congrArg Host.Outcome.next ((withCmd_started (runCheckConfig h tag) hst).trans (runCheckConfig_of_rate (s := s.start tag) hm hr)), ?_⟩
    exact State.failed_of_start hst.1 (by decide) 0xFFFF (by decide) (by decide)
  case window =>
    intro s tag h hst hm hr hb
    refine ⟨_, congrArg Host.Outcome.next ((withCmd_started (runCheckConfig h tag) hst).trans (runCheckConfig_of_error (s := s.start tag) hm hr hb)), ?_⟩
    exact State.windowDenied_of_start hst.1 (by decide)

end Sys2Proof.Machine
end

section
/-! PROOFS. READ and WRITE move the bytes of a namespace (R311, R312). -/

set_option Elab.async false

namespace Sys2Proof.Machine

/-! ### A command that moves bytes -/

/-- A command that has started, with the bytes that it moves. -/
def State.startLen (s : State) (tag n : Nat) : State := s.putCmd tag { s.hq.cmds.get tag with stage := .running, len := n }

theorem State.startLen_get (s : State) (tag n : Nat) :
    (s.startLen tag n).hq.cmds.get tag = { s.hq.cmds.get tag with stage := .running, len := n } := Tbl.get_put_same ..

theorem State.onlyTag_startLen (s : State) (tag n : Nat) : s.OnlyTag (s.startLen tag n) tag := fun _ hg => Tbl.get_put_ne _ _ _ _ hg

theorem State.running_of_startLen {s u : State} {tag op n : Nat} {len : Cmd → State → Nat} (h : s.mayRun tag op len) (hop : op ≠ 0x28)
    (hu : u.hq.cmds = (s.startLen tag n).hq.cmds) :
    (u.hq.cmds.get tag).live = true ∧ (u.hq.cmds.get tag).stage ≠ .done ∧ (u.hq.cmds.get tag).op ≠ 0x28 := by
  obtain ⟨hlive, -, hcode, -⟩ := h
  rw [hu, State.startLen_get]
  exact ⟨hlive, Stage.noConfusion, fun e => hop (hcode.symm.trans e)⟩

/-- It completes with the bytes that it moved. -/
theorem State.done_of_startLen {s u : State} {tag op n : Nat} {len : Cmd → State → Nat} (h : s.mayRun tag op len) (hop : op ≠ 0x28)
    (hu : u.hq.cmds = (s.startLen tag n).hq.cmds) (result field : Nat) :
    (∃ c, u.finishTag tag 0 result 0 field = u.putCmd tag c) ∧ s.Done (u.finishTag tag 0 result 0 field) tag result := by
  obtain ⟨h1, h2, h3⟩ := State.running_of_startLen h hop hu
  refine ⟨⟨_, State.finishTag_ok result 0 field h1 h2 h3⟩, State.completed_finishTag 0 result 0 field h1 h2 h3, fun g hg => ?_⟩
  rw [u.onlyTag_finishTag tag 0 result 0 field g hg, hu]
  exact s.onlyTag_startLen tag n g hg

theorem State.failed_of_startLen {s : State} {tag op status n : Nat} {len : Cmd → State → Nat} (h : s.mayRun tag op len) (hop : op ≠ 0x28)
    (field : Nat) (h0 : status ≠ 0) (h32 : status ≠ 0x32) : s.Failed ((s.startLen tag n).finishTag tag status 0 0 field) tag status := by
  obtain ⟨h1, h2, h3⟩ := State.running_of_startLen (u := s.startLen tag n) h hop rfl
  obtain ⟨hdone, honly, hlog, hrest⟩ := State.failed_finishTag field h1 h2 h3 h0 h32
  rw [State.startLen_get] at hlog
  exact ⟨hdone, (s.onlyTag_startLen tag n).trans honly, hlog, hrest⟩

/-! ### READ -/

theorem State.length_nsRead (s : State) (n off len : Nat) : (s.nsRead n off len).length = len := by
  unfold State.nsRead
  split
  · unfold State.entryRead State.volRead
    split
    · split <;> simp [zeros]
    · simp [zeros]
  · simp [slice]
  · exact s.length_peekN _ _
  · exact s.length_peekN _ _

theorem State.nsRead_of_stage {s : State} {n off len : Nat} {e : StageNs} (h : s.nsType n = 3) (he : s.stageNs n = some e) :
    s.nsRead n off len = s.peekN (s.stageBase + 2097152 * e.unit + off) len := by
  unfold State.nsRead
  simp only [h, he]
  rfl

theorem runRead_of_ok {s : State} {h : HostData} {tag : Nat} {c : Cmd} {bufs : List (Nat × Nat)} (hb : s.buffers c h true = .ok bufs)
    (hr : s.nsType c.nsid = 1 → s.volReadable ((s.dirEntry c.nsid).start + c.offset) (xferLen c h) = true) :
    runRead h tag c s = (s.toHost c.fn bufs (s.nsRead c.nsid c.offset (xferLen c h))).finishTag tag 0 (xferLen c h) 0 0xFFFF := by
  unfold runRead
  simp only [hb]
  exact if_neg fun h => absurd (hr h.1) (by rw [h.2]; decide)

theorem runRead_of_unreadable {s : State} {h : HostData} {tag : Nat} {c : Cmd} {bufs : List (Nat × Nat)} (hb : s.buffers c h true = .ok bufs)
    (ht : s.nsType c.nsid = 1) (hr : s.volReadable ((s.dirEntry c.nsid).start + c.offset) (xferLen c h) = false) :
    runRead h tag c s = s.finishTag tag 0x30 0 0 0xFFFF := by
  unfold runRead
  simp only [hb]
  exact if_pos ⟨ht, hr⟩

theorem badRead_of_range {s : State} {h : HostData} {c : Cmd}
    (hr : s.nsType c.nsid = 0 ∨ (if s.nsType c.nsid = 1 then s.reelUsed c.nsid else s.nsSize c.nsid) < c.offset + ioLen h c s) :
    (badRead h c s).isSome = true := by
  unfold badRead firstBad
  rcases hr with hr | hr
  · simp [hr]
  · by_cases h0 : s.nsType c.nsid = 0
    · simp [h0]
    · cases hb : s.badBuf c h true <;> simp [hr, h0]

/-! ### WRITE -/

/-- A STAGE namespace whose bytes are used up to an offset. -/
def StageNs.grown (e : StageNs) (n used : Nat) : StageNs := if e.nsid = n then { e with used := max e.used used } else e

theorem StageNs.nsid_grown (e : StageNs) (n used : Nat) : (e.grown n used).nsid = e.nsid := by
  unfold StageNs.grown
  split <;> rfl

/-- A STAGE WRITE within its namespace. -/
theorem runWrite_of_stage {s : State} {h : HostData} {tag : Nat} {c : Cmd} {e : StageNs} {bufs : List (Nat × Nat)} {b : List Byte}
    (hn : c.nsid ≠ 0) (he : s.stageNs c.nsid = some e) (hb : s.buffers c h false = .ok bufs) (hsize : c.offset + xferLen c h ≤ e.size)
    (hd : h.data = some b) :
    runWrite h tag c s =
      ({ s.pokeN (s.stageBase + 2097152 * e.unit + c.offset) (padTo (xferLen c h) b) with
        stages := s.stages.map (StageNs.grown · e.nsid (c.offset + xferLen c h)) } : State).finishTag tag 0 (xferLen c h) 0 0xFFFF := by
  unfold runWrite
  simp only [if_neg hn, he, hb, if_neg (Nat.not_lt.2 hsize), hd]
  rfl

/-- A WRITE to SETTINGS with a valid image. -/
theorem runWrite_of_settings {s : State} {h : HostData} {tag : Nat} {c : Cmd} {bufs : List (Nat × Nat)} {b : List Byte}
    (hn : c.nsid = 0) (hfn : c.fn = .pf0) (hq : s.quiet = true) (hb : s.buffers c h false = .ok bufs) (hlen : xferLen c h ≤ 65536)
    (hd : h.data = some b) (hv : bankValid (padTo (xferLen c h) b) = true) :
    runWrite h tag c s = s.writeSettings c.uid (padTo (xferLen c h) b) := by
  have hfn' : ¬ c.fn = .pf1 := by rw [hfn]; decide
  unfold runWrite runWriteSettings
  simp only [if_pos hn, hq, Bool.true_eq_false, if_false, if_neg hfn', hb, if_neg (Nat.not_lt.2 hlen), hd, hv, if_true]

theorem State.writeSettings_of_idle {s : State} (h : s.rsm.running = none) (uid : Nat) (b : List Byte) :
    s.writeSettings uid b = { s with rsm := { s.rsm.setBank s.rsm.target [] with
      running := some (⟨1, [uid], some b⟩, s.rsm.target, s.rsm.seq + 1, reseq b (s.rsm.seq + 1)) } } := by
  unfold State.writeSettings
  simp only [h]
  rfl

theorem State.writeSettings_of_busy {s : State} (h : s.rsm.running.isSome = true) (uid : Nat) (b : List Byte) :
    s.writeSettings uid b = { s with rsm := { s.rsm with writes := s.rsm.writes ++ [⟨1, [uid], some b⟩] } } := by
  obtain ⟨x, hx⟩ := Option.isSome_iff_exists.1 h
  unfold State.writeSettings
  simp only [hx]

theorem State.writeSettings_hq (s : State) (uid : Nat) (b : List Byte) : (s.writeSettings uid b).hq = s.hq := by
  unfold State.writeSettings
  split <;> rfl

theorem padTo_length (n : Nat) (l : List Byte) : (padTo n l).length = n := by
  simp [padTo, zeros]
  omega

theorem padTo_getD {n i : Nat} (l : List Byte) (h : i < n) : (padTo n l).getD i 0 = l.getD i 0 := by
  have hz : ∀ k j : Nat, (List.replicate k (0 : Byte)).getD j 0 = 0 := fun k j => by
    rw [List.getD_eq_getElem?_getD, List.getElem?_replicate]
    split <;> rfl
  unfold padTo zeros
  simp only [List.getD_eq_getElem?_getD, List.getElem?_take, h, if_true, List.getElem?_append]
  split
  · rfl
  · rw [← List.getD_eq_getElem?_getD, hz, List.getElem?_eq_none (by omega)]
    rfl

theorem State.get_pokeN_inside {s : State} {a i : Nat} {l : List Byte} (h : i < l.length) (hs : a + i < s.dramSize) :
    (s.pokeN a l).dram.get (a + i) = l.getD i 0 := by
  rw [State.dram_pokeN, if_pos (by rw [List.length_take]; omega), Nat.add_sub_cancel_left, List.getD_eq_getElem?_getD, List.getElem?_take,
    if_pos (by omega), ← List.getD_eq_getElem?_getD]

theorem State.get_pokeN_outside {s : State} {a k : Nat} {l : List Byte} (h : k < a ∨ a + l.length ≤ k) :
    (s.pokeN a l).dram.get k = s.dram.get k := by
  rw [State.dram_pokeN, if_neg (by rw [List.length_take]; omega)]

theorem State.stageNs_grown {l : List StageNs} {n used : Nat} {e : StageNs} (h : l.find? (fun x => decide (x.nsid = n)) = some e) :
    (l.map (StageNs.grown · e.nsid used)).find? (fun x => decide (x.nsid = n)) = some { e with used := max e.used used } := by
  have hn : e.nsid = n := of_decide_eq_true (List.find?_some (p := fun x : StageNs => decide (x.nsid = n)) h)
  have hp : ((fun x : StageNs => decide (x.nsid = n)) ∘ (StageNs.grown · e.nsid used)) = fun x => decide (x.nsid = n) :=
    funext fun x => congrArg (fun m => decide (m = n)) (x.nsid_grown _ _)
  rw [List.find?_map, hp, h]
  exact congrArg some (if_pos rfl)

/-- A READ that has its bytes. -/
theorem State.read_effect {s t : State} {tag op n len : Nat} {f : Cmd → State → Nat} {fn : Fn} {bufs : List (Nat × Nat)} {b : List Byte}
    (hrun : s.mayRun tag op f) (hop : op ≠ 0x28) (ht : t = ((s.startLen tag n).toHost fn bufs b).finishTag tag 0 len 0 0xFFFF) :
    t.out = (s.toHost fn bufs b).out ∧ s.Done t tag len ∧ t = { s with out := t.out, hq := { s.hq with cmds := t.hq.cmds } } := by
  obtain ⟨h1, -⟩ := (s.startLen tag n).toHost_effect fn bufs b
  have hout := (s.toHost_effect fn bufs b).2 (s.startLen tag n) rfl
  generalize (s.startLen tag n).toHost fn bufs b = u at *
  obtain ⟨⟨c, hc⟩, hdone⟩ := State.done_of_startLen (u := u) hrun hop (congrArg (fun x => x.hq.cmds) h1) len 0xFFFF
  rw [← ht] at hc hdone
  refine ⟨?_, hdone, ?_⟩
  · rw [hc]
    exact hout
  · rw [hc, h1]
    rfl

/-- A STAGE WRITE whose bytes are in DRAM. -/
theorem State.stageWrite_effect {s t : State} {tag op n len a : Nat} {f : Cmd → State → Nat} {l : List Byte} {st : List StageNs}
    (hrun : s.mayRun tag op f) (hop : op ≠ 0x28)
    (ht : t = ({ (s.startLen tag n).pokeN a l with stages := st } : State).finishTag tag 0 len 0 0xFFFF) :
    t.dram = (s.pokeN a l).dram ∧ t.stages = st ∧ s.Done t tag len
      ∧ t = { s with dram := t.dram, stages := t.stages, hq := { s.hq with cmds := t.hq.cmds } } := by
  obtain ⟨⟨c, hc⟩, hdone⟩ := State.done_of_startLen (u := { (s.startLen tag n).pokeN a l with stages := st }) hrun hop rfl len 0xFFFF
  rw [← ht] at hc hdone
  exact ⟨by rw [hc]; rfl, by rw [hc]; rfl, hdone, by rw [hc]; rfl⟩

/-- A SETTINGS image that the save engine has. -/
theorem State.settings_effect {s t : State} {tag n uid : Nat} {b : List Byte}
    (ht : t = (s.startLen tag n).writeSettings uid b) :
    (s.rsm.running = none → t.rsm = { s.rsm.setBank s.rsm.target [] with
        running := some (⟨1, [uid], some b⟩, s.rsm.target, s.rsm.seq + 1, reseq b (s.rsm.seq + 1)) })
      ∧ (s.rsm.running.isSome = true → t.rsm = { s.rsm with writes := s.rsm.writes ++ [⟨1, [uid], some b⟩] })
      ∧ (t.hq.cmds.get tag).stage = .running ∧ s.OnlyTag t tag ∧ t = { s with rsm := t.rsm, hq := { s.hq with cmds := t.hq.cmds } } := by
  have hhq : t.hq = (s.startLen tag n).hq := by rw [ht, State.writeSettings_hq]
  refine ⟨fun h => ?_, fun h => ?_, by rw [hhq, State.startLen_get], fun g hg => by rw [hhq]; exact s.onlyTag_startLen tag n g hg, ?_⟩
  · rw [ht, State.writeSettings_of_idle (s := s.startLen tag n) h]
    rfl
  · rw [ht, State.writeSettings_of_busy (s := s.startLen tag n) h]
    rfl
  · rw [hhq]
    cases hr : s.rsm.running with
    | none =>
      rw [ht, State.writeSettings_of_idle (s := s.startLen tag n) hr]
      rfl
    | some x =>
      rw [ht, State.writeSettings_of_busy (s := s.startLen tag n) (Option.isSome_iff_exists.2 ⟨x, hr⟩)]
      rfl

/-- Settles O21: READ and WRITE by the place of their namespace; a SETTINGS image goes to the save engine. -/
theorem namespaceData : Obligations.NamespaceData := by
  unfold Obligations.NamespaceData
  refine ⟨?read, ?range, ?failed, ?stage, ?settings⟩
  case read =>
    rintro s tag h c bufs hst rfl hb hr
    obtain ⟨hout, hdone, heq⟩ := State.read_effect (n := ioLen h (s.hq.cmds.get tag) s) (fn := (s.hq.cmds.get tag).fn) (bufs := bufs)
      (len := xferLen (s.hq.cmds.get tag) h)
      (b := s.nsRead (s.hq.cmds.get tag).nsid (s.hq.cmds.get tag).offset (xferLen (s.hq.cmds.get tag) h)) hst.1 (by decide) rfl
    refine ⟨_, _, ?_, hout, rfl, s.length_nsRead _ _ _, fun e hty he i hi => ?_, hdone, heq⟩
    · exact congrArg Host.Outcome.next ((withCmd_of_starts (runRead h tag) hst).trans
        (runRead_of_ok (s := s.startLen tag (ioLen h (s.hq.cmds.get tag) s))
          (c := { s.hq.cmds.get tag with stage := .running, len := ioLen h (s.hq.cmds.get tag) s }) hb hr))
    · rw [State.nsRead_of_stage hty he, State.peekN_getD _ _ hi]
  case range =>
    rintro s tag h c hrun rfl hr
    exact ⟨_, rfl, withCmd_failed_of_bad _ hrun (by decide) (badRead_of_range hr)⟩
  case failed =>
    rintro s tag h c bufs hst rfl hb hty hr
    refine ⟨_, congrArg Host.Outcome.next ((withCmd_of_starts (runRead h tag) hst).trans
      (runRead_of_unreadable (s := s.startLen tag (ioLen h (s.hq.cmds.get tag) s))
        (c := { s.hq.cmds.get tag with stage := .running, len := ioLen h (s.hq.cmds.get tag) s }) hb hty hr)), ?_⟩
    exact State.failed_of_startLen hst.1 (by decide) 0xFFFF (by decide) (by decide)
  case stage =>
    rintro s tag lo len h c e bufs b hst rfl hn he hb rfl hsize hd rfl
    obtain ⟨t, ht⟩ : ∃ t, t = ({ (s.startLen tag (ioLen h (s.hq.cmds.get tag) s)).pokeN
        (s.stageBase + 2097152 * e.unit + (s.hq.cmds.get tag).offset) (padTo (xferLen (s.hq.cmds.get tag) h) b) with
      stages := s.stages.map (StageNs.grown · e.nsid ((s.hq.cmds.get tag).offset + xferLen (s.hq.cmds.get tag) h)) } : State).finishTag
        tag 0 (xferLen (s.hq.cmds.get tag) h) 0 0xFFFF := ⟨_, rfl⟩
    obtain ⟨hdram, hstages, hdone, heq⟩ := State.stageWrite_effect hst.1 (by decide) ht
    have hlen := padTo_length (xferLen (s.hq.cmds.get tag) h) b
    refine ⟨t, ?_, fun i hi hd => ?_, hdone, ?_, heq, fun a ha => ?_, ?_⟩
    · rw [ht]
      exact congrArg Host.Outcome.next ((withCmd_of_starts (runWrite h tag) hst).trans
        (runWrite_of_stage (s := s.startLen tag (ioLen h (s.hq.cmds.get tag) s))
          (c := { s.hq.cmds.get tag with stage := .running, len := ioLen h (s.hq.cmds.get tag) s }) hn he hb hsize hd))
    · rw [hdram, State.get_pokeN_inside (by rw [hlen]; exact hi) hd, padTo_getD b hi]
    · unfold State.stageNs
      rw [hstages, State.stageNs_grown he]
      rfl
    · rw [hdram, State.get_pokeN_outside (by rw [hlen]; exact ha)]
    · rw [heq]
      exact ⟨fun _ => rfl, fun _ => rfl, fun _ _ => rfl⟩
  case settings =>
    rintro s tag h c bufs b hst rfl hn hfn hq hb hlen hd hv
    refine ⟨_, ?_, State.settings_effect (n := ioLen h (s.hq.cmds.get tag) s) rfl⟩
    exact congrArg Host.Outcome.next ((withCmd_of_starts (runWrite h tag) hst).trans
      (runWrite_of_settings (s := s.startLen tag (ioLen h (s.hq.cmds.get tag) s))
        (c := { s.hq.cmds.get tag with stage := .running, len := ioLen h (s.hq.cmds.get tag) s }) hn hfn hq hb hlen hd hv))

end Sys2Proof.Machine
end

section
/-! PROOFS. Firmware images, handover, attestation and MIN_SVN (R457 to R465, R474, R475). -/

set_option Elab.async false

namespace Sys2Proof.Machine

/-! ### A command that ends -/

/-- A started command that ends after registers and the firmware part have changed. -/
theorem State.ended_of_start {s u t : State} {tag op status result field : Nat} (hrun : s.mayRun tag op) (hop : op ≠ 0x28)
    (hu : u = { s.regsOf u with fw := u.fw, hq := (s.start tag).hq }) (h32 : status ≠ 0x32)
    (ht : t = u.finishTag tag status result 0 field) :
    t.completed tag status result 0 ∧ s.OnlyTag t tag ∧ t.regs = u.regs ∧ t.fw = u.fw
      ∧ t = { s.regsOf t with fw := t.fw, hq := { s.hq with
          cmds := t.hq.cmds, errors := t.hq.errors, errCount0 := t.hq.errCount0, errCount1 := t.hq.errCount1 } } := by
  have hhq : u.hq = (s.start tag).hq := by rw [hu]
  obtain ⟨h1, h2, h3⟩ := State.running_of_start (u := u) hrun (by rw [hhq]; exact s.start_get tag)
  have ho : (u.hq.cmds.get tag).op ≠ 0x28 := by rw [h3]; exact hop
  obtain ⟨t', ht', heq⟩ := u.finishTag_eq tag result 0 field h32
  obtain rfl := ht.trans ht'
  refine ⟨ht ▸ State.completed_finishTag _ _ _ _ h1 h2 ho, fun g hg => ?_, ?_, ?_, ?_⟩
  · rw [ht, State.onlyTag_finishTag _ _ _ _ _ _ g hg, hhq]
    exact s.onlyTag_start tag g hg
  · rw [heq]
  · rw [heq]
  · rw [heq, hu]
    rfl

/-- The command that a number names completes with status 0: its entry and its ghost alone change. -/
theorem State.finish_ok (s : State) (uid result : Nat) :
    s.finish uid 0 result 0 = { s with hq := { s.hq with
        cmds := (s.finish uid 0 result 0).hq.cmds, ghosts := s.hq.ghosts.filter fun x => decide (x.uid ≠ uid) } }
      ∧ ∀ g, s.tagOf uid ≠ some g → (s.finish uid 0 result 0).hq.cmds.get g = s.hq.cmds.get g := by
  have htag : (s.setHq { s.hq with ghosts := s.hq.ghosts.filter fun c => decide (c.uid ≠ uid) }).tagOf uid = s.tagOf uid := rfl
  unfold State.finish
  dsimp only
  rw [htag]
  cases hg : s.tagOf uid with
  | none => exact ⟨rfl, fun _ _ => rfl⟩
  | some tag =>
    refine ⟨?_, fun g hne => ?_⟩
    · dsimp only
      unfold State.finishTag
      simp only [if_true]
      split <;> rfl
    · dsimp only
      rw [State.onlyTag_finishTag _ _ _ _ _ _ g fun h => hne (congrArg some h.symm)]
      rfl

/-! ### FIRMWARE LOAD -/

/-- Flash slot 0 holds the image that runs. -/
def State.runsSlot0 (s : State) : Bool :=
  decide ((s.sideImage s.activeSide).isSome ∧ s.fw.flash0.map (·.hash) = (s.sideImage s.activeSide).map (·.hash))

/-- The flash slot that does not hold the running image. -/
def State.putFlash (s : State) (i : Option FwImage) : State :=
  if s.runsSlot0 then s.setFw { s.fw with flash1 := i } else s.setFw { s.fw with flash0 := i }

theorem State.putFlash_eq (s : State) (i : Option FwImage) : s.putFlash i = s.setFw (s.putFlash i).fw := by
  unfold State.putFlash
  split <;> rfl

theorem State.putFlash_fw (s : State) (i : Option FwImage) :
    if (s.sideImage s.activeSide).isSome = true ∧ s.fw.flash0.map (·.hash) = (s.sideImage s.activeSide).map (·.hash)
    then (s.putFlash i).fw = { s.fw with flash1 := i } else (s.putFlash i).fw = { s.fw with flash0 := i } := by
  unfold State.putFlash State.runsSlot0
  split
  · rename_i h
    rw [decide_eq_true h]
    rfl
  · rename_i h
    rw [decide_eq_false h]
    rfl

section
variable {s : State} {h : HostData} {ok : Bool} {tag : Nat} {c : Cmd} {bufs : List (Nat × Nat)} {d : List Byte}
variable (hb : s.buffers c h false = .ok bufs) (hd : h.data = some d)
include hb hd

theorem runFwLoad_of_error {back : Bool} (hck : checkImage (padTo (xferLen c h) d) (s.fld Pg.security Reg.SECURITY_MIN_SVN) = .error back) :
    runFwLoad h ok tag c s = (s.raise Pg.security (if back then Reg.SECURITY_EVENT_ROLLBACK else Reg.SECURITY_EVENT_AUTH_FAIL)).finishTag
      tag 0x40 0 0 0xFFFF := by
  unfold runFwLoad
  simp only [hb, hd, hck]

theorem runFwLoad_of_side {i : FwImage} (hck : checkImage (padTo (xferLen c h) d) (s.fld Pg.security Reg.SECURITY_MIN_SVN) = .ok i)
    (h1 : c.cdw 8 % 2 = 1) :
    runFwLoad h ok tag c s = ((s.setImage (1 - s.activeSide) i).setFld Pg.cluster (sideFld (1 - s.activeSide)) 1).finishTag
      tag 0 i.build 0 0xFFFF := by
  unfold runFwLoad
  simp only [hb, hd, hck, if_pos h1]

theorem runFwLoad_of_flash {i : FwImage} (hck : checkImage (padTo (xferLen c h) d) (s.fld Pg.security Reg.SECURITY_MIN_SVN) = .ok i)
    (h0 : c.cdw 8 % 2 = 0) :
    runFwLoad h ok tag c s = if ok then (s.putFlash (some i)).finishTag tag 0 i.build 0 0xFFFF
      else (s.putFlash none).finishTag tag 0x30 0 0 0xFFFF := by
  unfold runFwLoad
  simp only [hb, hd, hck, if_neg (show ¬ c.cdw 8 % 2 = 1 by omega)]
  rfl

end

theorem State.setImage_touches' (s : State) (k : Nat) (i : FwImage) : s.setImage k i = { s with
    regs := (s.setImage k i).regs, fw := (s.setImage k i).fw } := by
  unfold State.setImage
  split <;> rfl

theorem State.sideImage_setImage (s : State) (k : Nat) (i : FwImage) : (s.setImage k i).sideImage k = some i := by
  unfold State.setImage State.sideImage
  split <;> rfl

/-- FIRMWARE LOAD runs though the firmware holds no image. -/
theorem withCmd_fwLoad {s : State} {tag : Nat} {bad : Cmd → State → Option Nat} (k : Cmd → State → State) (h : s.mayRun tag 0x20)
    (hb : bad (s.hq.cmds.get tag) s = none) : withCmd tag 0x20 s bad k = k (s.hq.cmds.get tag).started (s.start tag) := by
  obtain ⟨h1, h2, h3, h4⟩ := h
  unfold withCmd
  dsimp only
  rw [if_pos (by rw [h1, h2, h3, h4]; rfl)]
  simp only [hb]
  rw [if_neg (by simp)]
  rfl

/-! ### The active side -/

theorem State.activate_effect {s t : State} {k : Nat} (hk : k < 2) (ht : t = s.activate k) :
    t.activeSide = k ∧ t.fld Pg.cluster (sideFld k) = 2 ∧ t.fld Pg.cluster (sideFld (1 - k)) = s.fld Pg.cluster (sideFld (1 - k))
      ∧ t.fld Pg.cluster Reg.CLUSTER_STATE_HANDOVER = s.fld Pg.cluster Reg.CLUSTER_STATE_HANDOVER
      ∧ t.fld Pg.global Reg.GLOBAL_FW_BUILD = ((s.sideImage k).getD default).build % 2 ^ 32 ∧ t = { s with regs := t.regs } := by
  have hactive : t.activeSide = k := by rw [ht]; exact s.fld_activate hk
  have hbuild : t.fld Pg.global Reg.GLOBAL_FW_BUILD = ((s.sideImage k).getD default).build % 2 ^ 32 := by
    rw [ht]
    exact State.fld_setFld_same _ _ _ _ (by decide)
  have hframe : t = { s with regs := t.regs } := by rw [ht]; rfl
  refine ⟨hactive, ?_, ?_, ?_, hbuild, hframe⟩
  all_goals
    rw [ht]
    unfold State.activate
    dsimp only
    rcases (by omega : k = 0 ∨ k = 1) with rfl | rfl
  · rw [State.fld_setFld_ne _ _ _ _ _ _ (by decide) (.inl (by decide)), State.fld_setFld_of_width _ _ _ _ (by decide) (by decide)]
  · rw [State.fld_setFld_ne _ _ _ _ _ _ (by decide) (.inl (by decide)), State.fld_setFld_of_width _ _ _ _ (by decide) (by decide)]
  · rw [State.fld_setFld_ne _ _ _ _ _ _ (by decide) (.inl (by decide)), State.fld_setFld_ne _ _ _ _ _ _ (by decide) (.inr (.inl (by decide))),
      State.fld_setFld_ne _ _ _ _ _ _ (by decide) (.inr (.inl (by decide)))]
  · rw [State.fld_setFld_ne _ _ _ _ _ _ (by decide) (.inl (by decide)), State.fld_setFld_ne _ _ _ _ _ _ (by decide) (.inr (.inr (by decide))),
      State.fld_setFld_ne _ _ _ _ _ _ (by decide) (.inr (.inl (by decide)))]
  · rw [State.fld_setFld_ne _ _ _ _ _ _ (by decide) (.inl (by decide)), State.fld_setFld_ne _ _ _ _ _ _ (by decide) (.inr (.inl (by decide))),
      State.fld_setFld_ne _ _ _ _ _ _ (by decide) (.inr (.inl (by decide)))]
  · rw [State.fld_setFld_ne _ _ _ _ _ _ (by decide) (.inl (by decide)), State.fld_setFld_ne _ _ _ _ _ _ (by decide) (.inr (.inl (by decide))),
      State.fld_setFld_ne _ _ _ _ _ _ (by decide) (.inr (.inl (by decide)))]

/-! ### Handover -/

theorem runFwHandover_of_dry {s : State} {tag : Nat} {c : Cmd} (hi : s.idleReady = true) (h : c.cdw 8 % 2 = 0) :
    runFwHandover tag c s = s.finishTag tag 0 ((s.sideImage (1 - s.activeSide)).getD default).build 0 0xFFFF := by
  unfold runFwHandover
  rw [if_neg (by rw [hi]; decide), if_pos h]

theorem runFwHandover_of_take {s : State} {tag : Nat} {c : Cmd} (hi : s.idleReady = true) (h : c.cdw 8 % 2 = 1) (hc : s.ctl.capRun = true) :
    runFwHandover tag c s = s.setFw { s.fw with waiting := some c.uid } := by
  unfold runFwHandover
  rw [if_neg (by rw [hi]; decide), if_neg (by omega), if_pos hc]

theorem runFwHandover_of_rest {s : State} {tag : Nat} {c : Cmd} (hi : s.idleReady = true) (h : c.cdw 8 % 2 = 1) (hc : s.ctl.capRun = false) :
    runFwHandover tag c s = s.beginHandover c.uid := by
  unfold runFwHandover
  rw [if_neg (by rw [hi]; decide), if_neg (by omega), if_neg (by rw [hc]; decide)]

theorem State.activeSide_lt (s : State) : s.activeSide < 2 := s.fld_lt Pg.cluster Reg.CLUSTER_STATE_ACTIVE

theorem sideFld_bounds (k : Nat) : (sideFld k).off = 0x00C ∧ 2 ≤ (sideFld k).lo ∧ (sideFld k).lo + 2 ≤ 6 ∧ (sideFld k).width = 2 := by
  unfold sideFld
  split <;> decide

theorem keyOf_sideFld (k : Nat) : keyOf (sideFld k) Pg.cluster = keyOf Reg.CLUSTER_STATE_ACTIVE Pg.cluster := by
  rw [keyOf, (sideFld_bounds k).1]
  rfl

/-- The old side stops: HANDOVER, its state and its last checkpoint. -/
def State.sideStops (s : State) (k : Nat) (f : FwSt) : State :=
  ((s.setFld Pg.cluster Reg.CLUSTER_STATE_HANDOVER 1).setFld Pg.cluster (sideFld k) 1).setFw f

theorem State.sideStops_effect {s t : State} {k : Nat} {f : FwSt} (ht : t = s.sideStops k f) :
    t.fld Pg.cluster Reg.CLUSTER_STATE_HANDOVER = 1 ∧ t.fld Pg.cluster (sideFld k) = 1 ∧ t = { s with regs := t.regs, fw := f }
      ∧ s.WritesIn t (· = keyOf Reg.CLUSTER_STATE_ACTIVE Pg.cluster) := by
  obtain ⟨hoff, hlo, hhi, hw⟩ := sideFld_bounds k
  have hkey := keyOf_sideFld k
  have hregs : t.regs = ((s.setFld Pg.cluster Reg.CLUSTER_STATE_HANDOVER 1).setFld Pg.cluster (sideFld k) 1).regs := by rw [ht]; rfl
  have hframe : t = { s with regs := t.regs, fw := f } := by rw [ht]; rfl
  generalize sideFld k = g at *
  have h1 : s.WritesIn (s.setFld Pg.cluster Reg.CLUSTER_STATE_HANDOVER 1) (· = keyOf Reg.CLUSTER_STATE_ACTIVE Pg.cluster) := .setFld (.refl s _) _ rfl
  have h2 : (s.setFld Pg.cluster Reg.CLUSTER_STATE_HANDOVER 1).fld Pg.cluster Reg.CLUSTER_STATE_HANDOVER = 1 :=
    State.fld_setFld_of_width _ _ _ _ (by decide) (by decide)
  generalize s.setFld Pg.cluster Reg.CLUSTER_STATE_HANDOVER 1 = u at *
  refine ⟨?_, ?_, hframe, ?_⟩
  · rw [State.fld_congr hregs, State.fld_setFld_ne _ _ _ _ _ _ (by decide) (.inr (.inl (by rw [hw]; exact hhi))), h2]
  · rw [State.fld_congr hregs, State.fld_setFld_of_width _ _ _ _ (by omega) (by rw [hw]; decide)]
  · exact .of_regs (State.WritesIn.setFld (p := Pg.cluster) (f := g) h1 1 hkey) hregs

theorem State.activate_writes (s : State) (k : Nat) : s.WritesIn (s.activate k) (onPages [Pg.cluster, Pg.global]) := by
  obtain ⟨hoff, -⟩ := sideFld_bounds k
  unfold State.activate
  generalize sideFld k = g at *
  exact State.WritesIn.setFld (State.WritesIn.setFld (f := g) (State.WritesIn.setFld (.refl s _) _ (onPages_keyOf (by decide) (by decide))) 2
    (onPages_keyOf (by rw [hoff]; decide) (by decide))) _ (onPages_keyOf (by decide) (by decide))

/-- The frame whose start begins a handover is shown. -/
def State.handoverFrame (s : State) (take : Bool) (f : Nat) : State :=
  if take then s.setFld64 Pg.cluster Reg.CLUSTER_HANDOVER_FRAME_LO Reg.CLUSTER_HANDOVER_FRAME_HI f else s

theorem State.handoverFrame_effect (s : State) (take : Bool) (f : Nat) :
    s.WritesIn (s.handoverFrame take f) (· ∈ [keyOf Reg.CLUSTER_HANDOVER_FRAME_LO Pg.cluster, keyOf Reg.CLUSTER_HANDOVER_FRAME_HI Pg.cluster])
      ∧ s.handoverFrame take f = { s with regs := (s.handoverFrame take f).regs } := by
  unfold State.handoverFrame
  split
  · exact ⟨.setFld64 (.refl s _) _ (by decide) (by decide), rfl⟩
  · exact ⟨.refl s _, rfl⟩

theorem State.beginHandover_eq (s : State) (cmd : Nat) : s.beginHandover cmd =
    ((s.sideStops s.activeSide { s.checkpoint.fw with waiting := none, running := some cmd }).activate (1 - s.activeSide)).handoverFrame
      (s.on Pg.global Reg.GLOBAL_STATE_TAKE) s.frameNow := rfl

/-- A handover begins: the idle side runs with the last checkpoint of the old one. -/
theorem State.beginHandover_effect {s t : State} {cmd : Nat} (hi : s.idleReady = true) (ht : t = s.beginHandover cmd) :
    t.fw = { s.fw with running := some cmd, waiting := none, written := s.fw.written + 1, read := s.fw.written + 1 }
      ∧ t.activeSide = 1 - s.activeSide
      ∧ t.fld Pg.global Reg.GLOBAL_FW_BUILD = ((s.sideImage (1 - s.activeSide)).getD default).build % 2 ^ 32
      ∧ t.fld Pg.cluster Reg.CLUSTER_STATE_HANDOVER = 1 ∧ t.fld Pg.cluster (sideFld (1 - s.activeSide)) = 2
      ∧ t.fld Pg.cluster (sideFld s.activeSide) = 1 ∧ t = { s with regs := t.regs, fw := t.fw }
      ∧ s.KeepsPages t [Pg.cluster, Pg.global] := by
  have hlt := s.activeSide_lt
  have hcheck : ({ s.checkpoint.fw with waiting := none, running := some cmd } : FwSt) =
      { s.fw with running := some cmd, waiting := none, written := s.fw.written + 1, read := s.fw.written + 1 } := by
    unfold State.checkpoint
    rw [hi]
    rfl
  rw [State.beginHandover_eq, hcheck] at ht
  generalize s.activeSide = k at *
  generalize s.on Pg.global Reg.GLOBAL_STATE_TAKE = take at *
  obtain ⟨v, hv⟩ : ∃ v, v = s.sideStops k { s.fw with
    running := some cmd, waiting := none, written := s.fw.written + 1, read := s.fw.written + 1 } := ⟨_, rfl⟩
  obtain ⟨w, hw⟩ : ∃ w, w = v.activate (1 - k) := ⟨_, rfl⟩
  rw [← hv, ← hw] at ht
  obtain ⟨a1, a2, a3, a4⟩ := State.sideStops_effect hv
  obtain ⟨e1, e2, e3, e4, e5, e6⟩ := State.activate_effect (by omega) hw
  have hwp : v.WritesIn w (onPages [Pg.cluster, Pg.global]) := hw ▸ v.activate_writes (1 - k)
  obtain ⟨htw, htf⟩ := w.handoverFrame_effect take s.frameNow
  rw [← ht] at htw htf
  rw [show 1 - (1 - k) = k by omega, a2] at e3
  have himg : v.sideImage (1 - k) = s.sideImage (1 - k) := by rw [a3]; rfl
  rw [himg] at e5
  have hside (k : Nat) : keyOf (sideFld k) Pg.cluster ∉ [keyOf Reg.CLUSTER_HANDOVER_FRAME_LO Pg.cluster, keyOf Reg.CLUSTER_HANDOVER_FRAME_HI Pg.cluster] := by
    rw [keyOf_sideFld]
    decide
  refine ⟨by rw [htf, e6, a3], (htw.fld (by decide)).trans e1, (htw.fld (by decide)).trans e5, (htw.fld (by decide)).trans (e4.trans a1),
    (htw.fld (hside _)).trans e2, (htw.fld (hside _)).trans e3, ?_, ?_⟩
  · rw [htf, e6, a3]
  · refine (((a4.mono fun a ha => ?_).trans hwp).trans (htw.mono fun a ha => ?_)).keepsPages
    · rw [ha]
      exact onPages_keyOf (by decide) (by decide)
    · simp only [List.mem_cons, List.not_mem_nil, or_false] at ha
      rcases ha with rfl | rfl <;> exact onPages_keyOf (by decide) (by decide)

/-- A handover ends: HANDOVER falls, its event rises and its command completes with the build that runs. -/
theorem State.endHandover_effect {v t : State} {u : Nat} {ev : Fld} (hr : v.fw.running = some u) (hoff : ev.off = 0x010) (hw : ev.width = 1)
    (hlo : ev.lo < 32) (ht : t = v.endHandover ev) :
    t.fw = { v.fw with running := none } ∧ t.fld Pg.cluster Reg.CLUSTER_STATE_HANDOVER = 0 ∧ t.fld Pg.cluster ev = 1
      ∧ v.ends t u 0 (v.fld Pg.global Reg.GLOBAL_FW_BUILD) 0 ∧ (∀ g, v.tagOf u ≠ some g → t.hq.cmds.get g = v.hq.cmds.get g)
      ∧ (∀ p f, f.lo + f.width ≤ 32 → (keyOf f p = keyOf Reg.CLUSTER_STATE_ACTIVE Pg.cluster → f.lo + f.width ≤ 6) →
          keyOf f p ≠ keyOf ev Pg.cluster → t.fld p f = v.fld p f)
      ∧ v.WritesIn t (onPages [Pg.cluster])
      ∧ t = { v.regsOf t with
          fw := t.fw, hq := { v.hq with cmds := t.hq.cmds, ghosts := v.hq.ghosts.filter fun x => decide (x.uid ≠ u) } } := by
  have hkey : keyOf ev Pg.cluster = keyOf Reg.CLUSTER_EVENT_HANDOVER_DONE Pg.cluster := by
    rw [keyOf, hoff]
    rfl
  obtain ⟨a, ha⟩ : ∃ a, a = (v.setFw { v.fw with running := none }).setFld Pg.cluster Reg.CLUSTER_STATE_HANDOVER 0 := ⟨_, rfl⟩
  obtain ⟨b, hb⟩ : ∃ b, b = a.raise Pg.cluster ev := ⟨_, rfl⟩
  have hwa : v.WritesIn a (onPages [Pg.cluster]) := by
    rw [ha]
    exact State.WritesIn.setFld (.of_regs (.refl v _) rfl) _ (onPages_keyOf (by decide) (by decide))
  have hwb : v.WritesIn b (onPages [Pg.cluster]) := by
    rw [hb]
    exact hwa.raise (onPages_keyOf (by rw [hoff]; decide) (by decide))
  have hkeep : ∀ p f, f.lo + f.width ≤ 32 → (keyOf f p = keyOf Reg.CLUSTER_STATE_ACTIVE Pg.cluster → f.lo + f.width ≤ 6) →
      keyOf f p ≠ keyOf ev Pg.cluster → b.fld p f = v.fld p f := fun p f h32 hf he => by
    rw [hb, State.fld_raise_ne _ _ _ _ _ h32 (.inl he), ha]
    by_cases hc : keyOf f p = keyOf Reg.CLUSTER_STATE_ACTIVE Pg.cluster
    · exact State.fld_setFld_ne _ _ _ _ _ _ h32 (.inr (.inr (hf hc)))
    · exact State.fld_setFld_ne _ _ _ _ _ _ h32 (.inl hc)
  have hbuild : a.fld Pg.global Reg.GLOBAL_FW_BUILD = v.fld Pg.global Reg.GLOBAL_FW_BUILD := by
    rw [ha]
    exact State.fld_setFld_ne _ _ _ _ _ _ (by decide) (.inl (by decide))
  have hb0 : b.fld Pg.global Reg.GLOBAL_FW_BUILD = v.fld Pg.global Reg.GLOBAL_FW_BUILD := by
    rw [hb, State.fld_raise_ne _ _ _ _ _ (by decide) (.inl (by rw [hkey]; decide)), hbuild]
  have hhand : b.fld Pg.cluster Reg.CLUSTER_STATE_HANDOVER = 0 := by
    rw [hb, State.fld_raise_ne _ _ _ _ _ (by decide) (.inl (by rw [hkey]; decide)), ha,
      State.fld_setFld_of_width _ _ _ _ (by decide) (by decide)]
  have hev : b.fld Pg.cluster ev = 1 := by rw [hb, State.fld_raise_same _ _ _ (by omega) hw]
  have hframe : b = { v.regsOf b with fw := { v.fw with running := none } } := by
    have h : a.Touches b [.regs, .ctlLatches] := hb ▸ a.raise_touches Pg.cluster ev
    have h1 : b = { a with regs := b.regs, ctl := { a.ctl with latches := b.ctl.latches } } := h.eq_mix
    rw [h1, ha]
    rfl
  have hbq : b.hq = v.hq := by rw [hframe]; rfl
  have heq : t = b.finish u 0 (v.fld Pg.global Reg.GLOBAL_FW_BUILD) 0 := by
    rw [ht, ← hb0, hb, ha, State.endHandover, hr]
    rfl
  obtain ⟨hfin, honly⟩ := b.finish_ok u (v.fld Pg.global Reg.GLOBAL_FW_BUILD)
  have hregs : t.regs = b.regs := by rw [heq, b.finish_regs u _ 0 (by decide)]
  rw [← heq] at hfin honly
  refine ⟨?_, ?_, ?_, ?_, fun g hg => ?_, fun p f h0 h1 h2 => ?_, hwb.of_regs hregs, ?_⟩
  · rw [hfin, hframe]
  · rw [State.fld_congr hregs, hhand]
  · rw [State.fld_congr hregs, hev]
  · rw [heq]
    exact State.ends_finish (by rw [hbq]) u 0 _ 0
  · have h : b.tagOf u = v.tagOf u := by unfold State.tagOf; rw [hbq]
    rw [honly g (by rw [h]; exact hg), hbq]
  · rw [State.fld_congr hregs, hkeep p f h0 h1 h2]
  · rw [hfin, hbq, hframe]
    rfl

/-! ### ATTEST and SVN_COMMIT -/

/-- A report is written to the host, counted twice, and ends its command. -/
theorem runAttest_effect {s t : State} {h : HostData} {tag : Nat} {bufs : List (Nat × Nat)} {b : List Byte} (hrun : s.mayRun tag 0x22)
    (hb : s.buffers (s.hq.cmds.get tag) h true = .ok bufs)
    (hrep : b = s.attestReport (s.hq.cmds.get tag).fn (slice (s.hq.cmds.get tag).raw 0x20 32))
    (ht : t = runAttest h tag (s.hq.cmds.get tag).started (s.start tag)) :
    s.Done t tag b.length ∧ t.out = (s.toHost (s.hq.cmds.get tag).fn bufs b).out ∧ t.fw = { s.fw with reports := s.fw.reports + 1 }
      ∧ t.fld Pg.security Reg.SECURITY_SIGN_COUNT
          = min (s.fld Pg.security Reg.SECURITY_SIGN_COUNT + 1) (2 ^ Reg.SECURITY_SIGN_COUNT.width - 1)
      ∧ t = { s with regs := t.regs, out := t.out, fw := t.fw, hq := { s.hq with cmds := t.hq.cmds } }
      ∧ s.KeepsRegs t [keyOf Reg.SECURITY_SIGN_COUNT Pg.security] := by
  obtain ⟨v, hv⟩ : ∃ v, v = ((s.start tag).setFw { s.fw with reports := s.fw.reports + 1 }).count Pg.security Reg.SECURITY_SIGN_COUNT := ⟨_, rfl⟩
  have hrun' : runAttest h tag (s.hq.cmds.get tag).started (s.start tag)
      = (v.toHost (s.hq.cmds.get tag).fn bufs b).finishTag tag 0 b.length 0 0xFFFF := by
    have hb' : (s.start tag).buffers (s.hq.cmds.get tag).started h true = .ok bufs := hb
    unfold runAttest
    simp only [hb']
    rw [hv, hrep]
    rfl
  rw [hrun'] at ht
  have hvout : v.out = s.out := by rw [hv]; rfl
  have hcount : v.fld Pg.security Reg.SECURITY_SIGN_COUNT
      = min (s.fld Pg.security Reg.SECURITY_SIGN_COUNT + 1) (2 ^ Reg.SECURITY_SIGN_COUNT.width - 1) := by
    rw [hv]
    exact State.fld_count_same _ _ _ (by decide)
  have hregs : s.KeepsRegs v [keyOf Reg.SECURITY_SIGN_COUNT Pg.security] := by
    rw [hv]
    exact State.WritesIn.keepsRegs (.count (.of_regs (.refl s _) rfl) (by decide))
  have hframe : v = { s with regs := v.regs, fw := { s.fw with reports := s.fw.reports + 1 }, hq := (s.start tag).hq } := by rw [hv]; rfl
  obtain ⟨h1, -⟩ := v.toHost_effect (s.hq.cmds.get tag).fn bufs b
  have ho := (s.toHost_effect (s.hq.cmds.get tag).fn bufs b).2 v hvout
  have hc : (v.toHost (s.hq.cmds.get tag).fn bufs b).hq.cmds = (s.start tag).hq.cmds := by rw [v.toHost_hq, hframe]
  generalize v.toHost (s.hq.cmds.get tag).fn bufs b = u at *
  obtain ⟨⟨d, hd⟩, hdone⟩ := State.done_of_start (u := u) hrun (by decide) hc b.length 0xFFFF
  rw [← ht] at hd hdone
  have hr : t.regs = v.regs := by rw [hd, h1]; rfl
  refine ⟨hdone, ?_, ?_, ?_, ?_, ?_⟩
  · rw [← ho, hd]
    rfl
  · rw [hd, h1, hframe]
    rfl
  · rw [State.fld_congr hr, hcount]
  · rw [hd, h1, hframe]
    rfl
  · exact fun a ha => (congrArg (Sparse.read factoryWord · a) hr).trans (hregs a ha)

section
variable {s : State} {a : FwImage} (ha : s.sideImage s.activeSide = some a)
include ha

theorem State.commitSvn_of_lower {i : FwImage} (hi : s.sideImage (1 - s.activeSide) = some i) (h : i.svn < a.svn) :
    s.commitSvn = s.reject Pg.security := by
  unfold State.commitSvn
  simp only [ha, hi, Option.map_some, Option.getD_some, if_pos h]

theorem State.commitSvn_of_allowed (h : ∀ i, s.sideImage (1 - s.activeSide) = some i → a.svn ≤ i.svn) :
    s.commitSvn = if s.fld Pg.security Reg.SECURITY_MIN_SVN < a.svn then
      (s.setFld Pg.security Reg.SECURITY_MIN_SVN a.svn).raise Pg.security Reg.SECURITY_EVENT_SVN_RAISED else s := by
  unfold State.commitSvn
  cases hi : s.sideImage (1 - s.activeSide) with
  | none => simp only [ha, Option.map_some, Option.getD_some]
  | some i => simp only [ha, Option.map_some, Option.getD_some, if_neg (Nat.not_lt.2 (h i hi))]

end

/-! ### The obligation -/

/-- A flash slot's new image before a started command ends. -/
theorem State.start_putFlash (s : State) (tag : Nat) (i : Option FwImage) :
    (s.start tag).putFlash i
        = { s.regsOf ((s.start tag).putFlash i) with fw := ((s.start tag).putFlash i).fw, hq := (s.start tag).hq }
      ∧ ((s.start tag).putFlash i).fw = (s.putFlash i).fw ∧ ((s.start tag).putFlash i).regs = s.regs := by
  have hr : (s.start tag).runsSlot0 = s.runsSlot0 := rfl
  unfold State.putFlash
  rw [hr]
  split <;> exact ⟨rfl, rfl, rfl⟩

/-- The new side is alive. -/
theorem State.handoverAlive_effect {s t : State} {u : Nat} (hr : s.fw.running = some u)
    (ht : t = (s.count Pg.cluster Reg.CLUSTER_HANDOVERS).endHandover Reg.CLUSTER_EVENT_HANDOVER_DONE) :
    t.fw = { s.fw with running := none } ∧ t.fld Pg.cluster Reg.CLUSTER_STATE_HANDOVER = 0 ∧ t.activeSide = s.activeSide
      ∧ t.fld Pg.cluster Reg.CLUSTER_HANDOVERS = min (s.fld Pg.cluster Reg.CLUSTER_HANDOVERS + 1) (2 ^ Reg.CLUSTER_HANDOVERS.width - 1)
      ∧ t.fld Pg.cluster Reg.CLUSTER_EVENT_HANDOVER_DONE = 1 ∧ s.ends t u 0 (s.fld Pg.global Reg.GLOBAL_FW_BUILD) 0
      ∧ (∀ g, s.tagOf u ≠ some g → t.hq.cmds.get g = s.hq.cmds.get g)
      ∧ t = { s.regsOf t with
          fw := t.fw, hq := { s.hq with cmds := t.hq.cmds, ghosts := s.hq.ghosts.filter fun x => decide (x.uid ≠ u) } }
      ∧ s.KeepsPages t [Pg.cluster] := by
  obtain ⟨v, hv⟩ : ∃ v, v = s.count Pg.cluster Reg.CLUSTER_HANDOVERS := ⟨_, rfl⟩
  have hframe : v = { s with regs := v.regs } := by rw [hv]; exact (s.count_touches Pg.cluster Reg.CLUSTER_HANDOVERS).eq_mix
  have hw : s.WritesIn v (onPages [Pg.cluster]) := by rw [hv]; exact .count (.refl s _) (onPages_keyOf (by decide) (by decide))
  have hcount : v.fld Pg.cluster Reg.CLUSTER_HANDOVERS
      = min (s.fld Pg.cluster Reg.CLUSTER_HANDOVERS + 1) (2 ^ Reg.CLUSTER_HANDOVERS.width - 1) := by
    rw [hv]
    exact State.fld_count_same _ _ _ (by decide)
  have hside : v.activeSide = s.activeSide := by rw [hv]; exact State.fld_count_ne _ (by decide)
  have hbuild : v.fld Pg.global Reg.GLOBAL_FW_BUILD = s.fld Pg.global Reg.GLOBAL_FW_BUILD := by rw [hv]; exact State.fld_count_ne _ (by decide)
  rw [← hv] at ht
  obtain ⟨h1, h2, h3, h4, h5, h6, h7, h8⟩ := State.endHandover_effect (by rw [hframe]; exact hr) rfl rfl (by decide) ht
  have htag : v.tagOf u = s.tagOf u := by rw [hframe]; rfl
  refine ⟨by rw [h1, hframe], h2, ?_, ?_, h3, ?_, fun g hg => ?_, ?_, (hw.trans h7).keepsPages⟩
  · exact (h6 _ _ (by decide) (fun _ => by decide) (by decide)).trans hside
  · exact (h6 _ _ (by decide) (fun h => absurd h (by decide)) (by decide)).trans hcount
  · rw [← hbuild]
    exact State.ends_from h4 (by rw [hframe])
  · rw [h5 g (by rw [htag]; exact hg), hframe]
  · rw [h8, hframe]
    rfl

/-- The new side fails: the old one is active again. -/
theorem State.handoverFail_effect {s t : State} {u : Nat} (hr : s.fw.running = some u)
    (ht : t = ((s.setFld Pg.cluster (sideFld s.activeSide) 3).activate (1 - s.activeSide)).endHandover Reg.CLUSTER_EVENT_HANDOVER_FAIL) :
    t.fw = { s.fw with running := none } ∧ t.fld Pg.cluster Reg.CLUSTER_STATE_HANDOVER = 0 ∧ t.activeSide = 1 - s.activeSide
      ∧ t.fld Pg.cluster (sideFld s.activeSide) = 3 ∧ t.fld Pg.cluster (sideFld (1 - s.activeSide)) = 2
      ∧ t.fld Pg.cluster Reg.CLUSTER_EVENT_HANDOVER_FAIL = 1 ∧ s.ends t u 0 (t.fld Pg.global Reg.GLOBAL_FW_BUILD) 0
      ∧ (∀ g, s.tagOf u ≠ some g → t.hq.cmds.get g = s.hq.cmds.get g)
      ∧ t = { s.regsOf t with
          fw := t.fw, hq := { s.hq with cmds := t.hq.cmds, ghosts := s.hq.ghosts.filter fun x => decide (x.uid ≠ u) } }
      ∧ s.KeepsPages t [Pg.cluster, Pg.global] := by
  have hlt := s.activeSide_lt
  generalize s.activeSide = k at *
  obtain ⟨hoff, hlo, hhi, hwidth⟩ := sideFld_bounds k
  obtain ⟨w, hw⟩ : ∃ w, w = s.setFld Pg.cluster (sideFld k) 3 := ⟨_, rfl⟩
  have hwframe : w = { s with regs := w.regs } := by rw [hw]; rfl
  have hww : s.WritesIn w (onPages [Pg.cluster, Pg.global]) := by
    rw [hw]
    exact State.WritesIn.setFld (f := sideFld k) (.refl s _) 3 (onPages_keyOf (by rw [hoff]; decide) (by decide))
  have hw3 : w.fld Pg.cluster (sideFld k) = 3 := by
    rw [hw]
    exact State.fld_setFld_of_width _ _ _ _ (by omega) (by rw [hwidth]; decide)
  rw [← hw] at ht
  obtain ⟨v, hv⟩ : ∃ v, v = w.activate (1 - k) := ⟨_, rfl⟩
  have hwv : w.WritesIn v (onPages [Pg.cluster, Pg.global]) := hv ▸ w.activate_writes (1 - k)
  obtain ⟨e1, e2, e3, -, -, e6⟩ := State.activate_effect (by omega) hv
  rw [show 1 - (1 - k) = k by omega, hw3] at e3
  rw [← hv] at ht
  have hframe : v = { s with regs := v.regs } := by rw [e6, hwframe]
  obtain ⟨h1, h2, h3, h4, h5, h6, h7, h8⟩ := State.endHandover_effect (by rw [hframe]; exact hr) rfl rfl (by decide) ht
  have htag : v.tagOf u = s.tagOf u := by rw [hframe]; rfl
  have hsides (j : Nat) : t.fld Pg.cluster (sideFld j) = v.fld Pg.cluster (sideFld j) := by
    obtain ⟨-, -, hj, hjw⟩ := sideFld_bounds j
    exact h6 _ _ (by omega) (fun _ => by omega) (by rw [keyOf_sideFld]; decide)
  have hbuild : t.fld Pg.global Reg.GLOBAL_FW_BUILD = v.fld Pg.global Reg.GLOBAL_FW_BUILD :=
    h6 _ _ (by decide) (fun h => absurd h (by decide)) (by decide)
  refine ⟨by rw [h1, hframe], h2, ?_, (hsides k).trans e3, (hsides _).trans e2, h3, ?_, fun g hg => ?_, ?_, ?_⟩
  · exact (h6 _ _ (by decide) (fun _ => by decide) (by decide)).trans e1
  · rw [hbuild]
    exact State.ends_from h4 (by rw [hframe])
  · rw [h5 g (by rw [htag]; exact hg), hframe]
  · rw [h8, hframe]
    rfl
  · exact ((hww.trans hwv).trans (h7.mono fun a ha => onPages_mono (List.cons_subset_cons _ (List.nil_subset _)) ha)).keepsPages

/-- The event of an image that does not pass. -/
theorem authEvent (back : Bool) : ∃ e : Fld, (if back then Reg.SECURITY_EVENT_ROLLBACK else Reg.SECURITY_EVENT_AUTH_FAIL) = e
    ∧ e.lo + e.width ≤ 32 ∧ e.width = 1 ∧ keyOf e Pg.security = keyOf Reg.SECURITY_EVENT_AUTH_FAIL Pg.security := by
  cases back <;> exact ⟨_, rfl, by decide⟩

/-- An event before a started command ends. -/
theorem State.raise_of_start {s u : State} {tag p : Nat} {e : Fld} (hu : u = (s.start tag).raise p e) :
    u = { s.regsOf u with fw := u.fw, hq := (s.start tag).hq } ∧ u.fw = s.fw ∧ s.WritesIn u (· = keyOf e p) := by
  have hto : (s.start tag).Touches u [.regs, .ctlLatches] := hu ▸ State.raise_touches _ _ _
  have hframe : u = { (s.start tag) with regs := u.regs, ctl := { (s.start tag).ctl with latches := u.ctl.latches } } := hto.eq_mix
  refine ⟨by rw [hframe]; rfl, by rw [hframe]; rfl, ?_⟩
  rw [hu]
  exact State.WritesIn.raise (t := s.start tag) (.of_regs (.refl s _) rfl) rfl

/-- A side's new image before a started command ends. -/
theorem State.setImage_of_start {s u : State} {tag : Nat} {i : FwImage}
    (hu : u = ((s.start tag).setImage (1 - s.activeSide) i).setFld Pg.cluster (sideFld (1 - s.activeSide)) 1) :
    u = { s.regsOf u with fw := u.fw, hq := (s.start tag).hq } ∧ u.sideImage (1 - s.activeSide) = some i
      ∧ u.fw = (s.setImage (1 - s.activeSide) i).fw
      ∧ u.regs = ((s.setImage (1 - s.activeSide) i).setFld Pg.cluster (sideFld (1 - s.activeSide)) 1).regs := by
  have hset (k : Nat) : (s.start tag).setImage k i = { s.setImage k i with hq := (s.start tag).hq } := by
    unfold State.setImage
    split <;> rfl
  have himg := s.sideImage_setImage (1 - s.activeSide) i
  have hs := s.setImage_touches' (1 - s.activeSide) i
  generalize 1 - s.activeSide = k at *
  rw [hset] at hu
  generalize s.setImage k i = w at *
  refine ⟨?_, ?_, by rw [hu]; rfl, by rw [hu]; rfl⟩
  · rw [hu]
    rw [hs]
    rfl
  · rw [hu]
    exact himg

/-- A dry handover ends, one of a take waits, and any other begins. -/
theorem runFwHandover_effect {s t : State} {tag : Nat} (hrun : s.mayRun tag 0x21) (hi : s.idleReady = true)
    (ht : t = runFwHandover tag (s.hq.cmds.get tag).started (s.start tag)) :
    ((s.hq.cmds.get tag).cdw 8 % 2 = 0 → s.Done t tag ((s.sideImage (1 - s.activeSide)).getD default).build ∧ t.fw = s.fw ∧ t.regs = s.regs)
      ∧ ((s.hq.cmds.get tag).cdw 8 % 2 = 1 → s.ctl.capRun = true →
          t.fw = { s.fw with waiting := some (s.hq.cmds.get tag).uid } ∧ t.regs = s.regs)
      ∧ ((s.hq.cmds.get tag).cdw 8 % 2 = 1 → (t.hq.cmds.get tag).stage = .running) ∧ s.OnlyTag t tag
      ∧ ((s.hq.cmds.get tag).cdw 8 % 2 = 1 → s.ctl.capRun = false →
          t.fw = { s.fw with
              running := some (s.hq.cmds.get tag).uid, waiting := none, written := s.fw.written + 1, read := s.fw.written + 1 }
            ∧ t.activeSide = 1 - s.activeSide ∧ t.fld Pg.global Reg.GLOBAL_FW_BUILD = ((s.sideImage (1 - s.activeSide)).getD default).build % 2 ^ 32
            ∧ t.fld Pg.cluster Reg.CLUSTER_STATE_HANDOVER = 1 ∧ t.fld Pg.cluster (sideFld (1 - s.activeSide)) = 2
            ∧ t.fld Pg.cluster (sideFld s.activeSide) = 1)
      ∧ t = { s.regsOf t with fw := t.fw, hq := { s.hq with cmds := t.hq.cmds } } ∧ s.KeepsPages t [Pg.cluster, Pg.global] := by
  have hidle : (s.start tag).idleReady = true := hi
  have hstage : ((s.start tag).hq.cmds.get tag).stage = .running := by rw [s.start_get]; rfl
  rcases (by omega : (s.hq.cmds.get tag).cdw 8 % 2 = 0 ∨ (s.hq.cmds.get tag).cdw 8 % 2 = 1) with hc | hc
  · rw [runFwHandover_of_dry (c := (s.hq.cmds.get tag).started) hidle hc] at ht
    obtain ⟨⟨d, hd⟩, hdone⟩ := State.done_of_start (u := s.start tag) hrun (by decide) rfl _ 0xFFFF
    rw [← ht] at hd hdone
    refine ⟨fun _ => ⟨hdone, by rw [hd]; rfl, by rw [hd]; rfl⟩, fun h => by omega, fun h => by omega, hdone.2, fun h => by omega, ?_, ?_⟩
    · rw [hd]
      rfl
    · exact fun a _ => by rw [hd]; rfl
  · cases hcap : s.ctl.capRun with
    | true =>
      rw [runFwHandover_of_take (c := (s.hq.cmds.get tag).started) hidle hc hcap] at ht
      refine ⟨fun h => by omega, fun _ _ => ⟨by rw [ht]; rfl, by rw [ht]; rfl⟩, fun _ => ?_, fun g hg => ?_, nofun, ?_, fun a _ => by rw [ht]; rfl⟩
      · rw [ht]
        exact hstage
      · rw [ht]
        exact s.onlyTag_start tag g hg
      · rw [ht]
        rfl
    | false =>
      rw [runFwHandover_of_rest (c := (s.hq.cmds.get tag).started) hidle hc hcap] at ht
      obtain ⟨h1, h2, h3, h4, h5, h6, h7, h8⟩ := State.beginHandover_effect hidle ht
      refine ⟨fun h => by omega, fun _ => nofun, fun _ => ?_, fun g hg => ?_, fun _ _ => ⟨h1, h2, h3, h4, h5, h6⟩, ?_, h8⟩
      · rw [h7]
        exact hstage
      · rw [h7]
        exact s.onlyTag_start tag g hg
      · rw [h7]
        rfl

/-- Settles O41: a load's checks decide whether a side or a flash slot takes the image; a handover stops the old side with its last checkpoint
and ends with its event and the build that runs. -/
theorem firmwareSides : Obligations.FirmwareSides := by
  unfold Obligations.FirmwareSides
  refine ⟨?load, ?handover, ?attest, fun s u hr => ⟨?alive, ?fail⟩, fun s hf htake => ?checkpoint, ?svn⟩
  case load =>
    rintro s tag h ok c bufs d rfl hrun hbad hb hd
    obtain ⟨t, ht⟩ : ∃ t, t = runFwLoad h ok tag (s.hq.cmds.get tag).started (s.start tag) := ⟨_, rfl⟩
    refine ⟨t, ?_, ?_⟩
    · rw [ht]
      exact congrArg Host.Outcome.next (withCmd_fwLoad (runFwLoad h ok tag) hrun hbad)
    · have hdone {u : State} {i : FwImage} (hu : u = { s.regsOf u with fw := u.fw, hq := (s.start tag).hq })
          (htu : t = u.finishTag tag 0 i.build 0 0xFFFF) := State.ended_of_start hrun (by decide) hu (by decide) htu
      cases hck : checkImage (padTo (xferLen (s.hq.cmds.get tag) h) d) (s.fld Pg.security Reg.SECURITY_MIN_SVN) with
      | error back =>
        rw [runFwLoad_of_error (s := s.start tag) (c := (s.hq.cmds.get tag).started) hb hd hck] at ht
        obtain ⟨e, he, h32, hw, hkey⟩ := authEvent back
        rw [he] at ht
        obtain ⟨u, hu⟩ : ∃ u, u = (s.start tag).raise Pg.security e := ⟨_, rfl⟩
        obtain ⟨hframe, hfw, hwr⟩ := State.raise_of_start hu
        have hev : u.fld Pg.security e = 1 := hu ▸ State.fld_raise_same _ _ _ h32 hw
        rw [← hu] at ht
        obtain ⟨h1, h2, h3, h4, h5⟩ := State.ended_of_start hrun (by decide) hframe (by decide) ht
        refine ⟨nofun, nofun, nofun, fun b hb => ?_, h2, h5⟩
        obtain rfl : back = b := by injection hb
        rw [he]
        refine ⟨h1, h4.trans hfw, (State.fld_congr h3 _ _).trans hev, ?_⟩
        rw [← hkey]
        exact (hwr.of_regs h3).keepsReg
      | ok i =>
        by_cases hc : (s.hq.cmds.get tag).cdw 8 % 2 = 1
        · rw [runFwLoad_of_side (s := s.start tag) (c := (s.hq.cmds.get tag).started) hb hd hck hc] at ht
          obtain ⟨u, hu⟩ : ∃ u, u = ((s.start tag).setImage (1 - s.activeSide) i).setFld Pg.cluster (sideFld (1 - s.activeSide)) 1 := ⟨_, rfl⟩
          have ht' : t = u.finishTag tag 0 i.build 0 0xFFFF := by rw [hu]; exact ht
          obtain ⟨hframe, himg, hfw, hregs⟩ := State.setImage_of_start hu
          obtain ⟨h1, h2, h3, h4, h5⟩ := hdone hframe ht'
          refine ⟨fun j hj _ => ?_, fun j hj h0 => ?_, fun j hj h0 => ?_, nofun, h2, h5⟩
          · obtain rfl : i = j := by injection hj
            refine ⟨⟨h1, h2⟩, ?_, h4.trans hfw, fun a => congrArg (Sparse.read factoryWord · a) (h3.trans hregs)⟩
            rw [← himg]
            unfold State.sideImage
            rw [h4]
          · omega
          · omega
        · rw [runFwLoad_of_flash (s := s.start tag) (c := (s.hq.cmds.get tag).started) hb hd hck ((Nat.mod_two_ne_one).1 hc)] at ht
          cases ok with
          | true =>
            obtain ⟨hframe, hfw, hregs⟩ := s.start_putFlash tag (some i)
            obtain ⟨h1, h2, h3, h4, h5⟩ := hdone hframe ht
            refine ⟨fun j hj h1 => absurd h1 hc, fun j hj _ _ => ?_, nofun, nofun, h2, h5⟩
            obtain rfl : i = j := by injection hj
            refine ⟨⟨h1, h2⟩, h3.trans hregs, ?_⟩
            rw [h4, hfw]
            exact s.putFlash_fw (some i)
          | false =>
            obtain ⟨hframe, hfw, hregs⟩ := s.start_putFlash tag none
            obtain ⟨h1, h2, h3, h4, h5⟩ := State.ended_of_start hrun (by decide) hframe (by decide) ht
            refine ⟨fun j hj h1 => absurd h1 hc, nofun, fun j hj _ _ => ⟨h1, h3.trans hregs, ?_⟩, nofun, h2, h5⟩
            rw [h4, hfw]
            exact s.putFlash_fw none
  case handover =>
    rintro s tag c hst rfl hi
    obtain ⟨t, ht⟩ : ∃ t, t = runFwHandover tag (s.hq.cmds.get tag).started (s.start tag) := ⟨_, rfl⟩
    refine ⟨t, ?_, ?_⟩
    · rw [ht]
      exact congrArg Host.Outcome.next (withCmd_started (runFwHandover tag) hst)
    · exact runFwHandover_effect hst.1 hi ht
  case attest =>
    rintro s tag h c bufs b hst rfl hb hrep
    obtain ⟨t, ht⟩ : ∃ t, t = runAttest h tag (s.hq.cmds.get tag).started (s.start tag) := ⟨_, rfl⟩
    refine ⟨t, ?_, runAttest_effect hst.1 hb hrep ht⟩
    rw [ht]
    exact congrArg Host.Outcome.next (withCmd_started (runAttest h tag) hst)
  case alive =>
    obtain ⟨t, ht⟩ : ∃ t, t = (s.count Pg.cluster Reg.CLUSTER_HANDOVERS).endHandover Reg.CLUSTER_EVENT_HANDOVER_DONE := ⟨_, rfl⟩
    refine ⟨t, ?_, State.handoverAlive_effect hr ht⟩
    rw [ht]
    exact congrArg Host.Outcome.next (if_pos (by rw [hr]; rfl))
  case fail =>
    obtain ⟨t, ht⟩ : ∃ t, t = ((s.setFld Pg.cluster (sideFld s.activeSide) 3).activate (1 - s.activeSide)).endHandover
      Reg.CLUSTER_EVENT_HANDOVER_FAIL := ⟨_, rfl⟩
    refine ⟨t, ?_, State.handoverFail_effect hr ht⟩
    rw [ht]
    exact congrArg Host.Outcome.next (if_pos (by rw [hr]; rfl))
  case checkpoint => exact congrArg Host.Outcome.next (if_pos (by rw [hf, htake]; rfl))
  case svn =>
    intro s r v a hacc hv ha
    have hexec : exec (.svnCommit r v) s = .next s.commitSvn :=
      congrArg Host.Outcome.next ((withWrite_of_accepts _ hacc).trans (if_pos hv))
    refine ⟨s.commitSvn, hexec, fun hall hlow => ?_, fun hall hhigh => ?_, fun i hi hlow => ?_⟩
    · rw [State.commitSvn_of_allowed ha hall, if_pos hlow]
      refine ⟨?_, State.fld_raise_same _ _ _ (by decide) rfl, ?_⟩
      · rw [State.fld_raise_ne _ _ _ _ _ (by decide) (.inl (by decide)), State.fld_setFld_same _ _ _ _ (by decide)]
      · have hw : s.WritesIn (s.setFld Pg.security Reg.SECURITY_MIN_SVN a.svn)
            (· ∈ [keyOf Reg.SECURITY_MIN_SVN Pg.security, keyOf Reg.SECURITY_EVENT_SVN_RAISED Pg.security]) := .setFld (.refl s _) _ (by decide)
        have hto : s.Touches (s.setFld Pg.security Reg.SECURITY_MIN_SVN a.svn) [.regs] := .of_mix rfl rfl
        generalize s.setFld Pg.security Reg.SECURITY_MIN_SVN a.svn = u at *
        exact .of_writes (hw.raise (by decide)) ((hto.mono rfl).trans (u.raise_touches _ _))
    · rw [State.commitSvn_of_allowed ha hall, if_neg (Nat.not_lt.2 hhigh)]
    · rw [State.commitSvn_of_lower ha hi hlow]
      exact s.rejected_reject _

end Sys2Proof.Machine
end

section
/-! PROOFS. Renditions take, fill and publish their buffers (R165 to R177, R192, R199). -/

set_option Elab.async false

namespace Sys2Proof.Machine

/-! ### A frame's part of a rendition -/

/-- Once a frame that the Splitter holds is replaced, its number finds the new one. -/
theorem State.pic_putPic {s : State} {q p : Pic} (h : p ∈ s.split.pics) (hf : p.frame = q.frame) : (s.putPic q).pic q.frame = some q := by
  have hcomp : ((fun x : Pic => decide (x.frame = q.frame)) ∘ fun x => if x.frame = q.frame then q else x) =
      fun x => decide (x.frame = q.frame) := by
    funext x
    simp only [Function.comp]
    split <;> simp_all
  unfold State.pic State.putPic
  dsimp only
  rw [List.find?_map, hcomp]
  cases hx : s.split.pics.find? fun x => decide (x.frame = q.frame) with
  | none => exact absurd (decide_eq_true hf) (List.find?_eq_none.1 hx p h)
  | some x =>
    have hxf : x.frame = q.frame := by simpa using List.find?_some hx
    simp only [Option.map_some, if_pos hxf]

/-- Every frame with the number of one that was replaced is the new one. -/
theorem State.mem_putPic {s : State} {q x : Pic} (h : x ∈ (s.putPic q).split.pics) (hf : x.frame = q.frame) : x = q := by
  unfold State.putPic at h
  obtain ⟨y, -, rfl⟩ := List.mem_map.1 h
  split at hf
  · rw [if_pos ‹_›]
  · exact absurd hf ‹_›

/-- A frame's part of a rendition is the one put there. -/
theorem State.pic_putRend {s : State} {q : Pic} {n : Nat} {r : RendSt} (h : q ∈ s.split.pics) :
    ∃ q', (s.putRend q n r).pic q.frame = some q' ∧ q'.rends.get n = r :=
  ⟨_, State.pic_putPic (q := { q with rends := q.rends.put n r }) h rfl, Tbl.get_put_same ..⟩

theorem State.putRend_eq (s : State) (q : Pic) (n : Nat) (r : RendSt) :
    s.putRend q n r = { s with split := { s.split with pics := (s.putRend q n r).split.pics } } := rfl

theorem State.mem_of_nextRend {s : State} {n : Nat} {q : Pic} (h : s.nextRend n = some q) : q ∈ s.split.pics := by
  unfold State.nextRend at h
  cases hf : s.split.pics.find? fun q => !(q.rends.get n).done with
  | none => simp only [hf, reduceCtorEq] at h
  | some x =>
    simp only [hf] at h
    split at h
    · exact nomatch h
    · exact Option.some.inj h ▸ List.mem_of_find?_eq_some hf

theorem State.mem_of_curRend {s : State} {n : Nat} {q : Pic} (h : s.curRend n = some q) : q ∈ s.split.pics := List.mem_of_find?_eq_some h

/-! ### The next frame of a rendition -/

/-- The consumers that are due to read the next frame of a rendition. -/
def State.rendReaders (s : State) (n : Nat) (q : Pic) : List (Reader × Nat × Nat) :=
  if s.ctl.mode = .review then [] else
    ((s.streamsOf n).map fun k => (Reader.due k, n, q.frame))
      ++ if s.recorded q.frame && s.on Pg.recorder Reg.RECORDER_CFG_DIGESTS
          && (s.fld Pg.recorder Reg.RECORDER_CFG_DIGEST_REND).testBit n then [(Reader.hold 0, n, q.frame)] else []

/-- The state once the next frame of a rendition has its buffer. -/
def State.rendBegun (s : State) (n : Nat) (q : Pic) : State :=
  { s with split := { s.split with
      pics := (s.putRend q n { q.rends.get n with begun := true }).split.pics
      bufs := s.split.bufs.put (16 * n + q.frame % s.bufCount n) (some q.frame), holds := s.split.holds ++ s.rendReaders n q } }

section
variable {s : State} {n : Nat} {q : Pic} (hq : s.nextRend n = some q) (hr : s.rendRuns n = true)
include hq hr

theorem State.splitBegin_of_free
    (hfree : s.split.holds.any (fun h => decide (h.2.1 = n) && decide (h.2.2 % s.bufCount n = q.frame % s.bufCount n)) = false) :
    s.splitBegin n = if s.be n q.frame bypassFld = 0 then s.rendBegun n q
      else (s.rendBegun n q).count (Pg.prismBe n) Reg.PRISM_BE_SLOT_ERR_FRAMES := by
  unfold State.splitBegin
  simp only [hq, hr, hfree, if_false, Bool.true_eq_false, Bool.false_eq_true]
  rfl

theorem State.splitBegin_of_held (hst : (q.rends.get n).stalled = false)
    (hheld : s.split.holds.any (fun h => decide (h.2.1 = n) && decide (h.2.2 % s.bufCount n = q.frame % s.bufCount n)) = true) :
    s.splitBegin n = ((s.putRend q n { q.rends.get n with stalled := true }).count Pg.split (Reg.SPLIT_STALL_COUNT n)).raise Pg.split
      Reg.SPLIT_EVENT_STALL := by
  unfold State.splitBegin
  simp only [hq, hr, hheld, hst, if_true, if_false, Bool.true_eq_false, Bool.false_eq_true]

end

/-- The codes of the next group of a rendition that were clamped, below and above. -/
def State.groupLow (s : State) (n : Nat) (q : Pic) : Nat := ((s.groupCodes q n (q.rends.get n).groups).map (·.2.1)).sum
def State.groupHigh (s : State) (n : Nat) (q : Pic) : Nat := ((s.groupCodes q n (q.rends.get n).groups).map (·.2.2)).sum

/-- The state once the next group of a rendition is written and counted. -/
def State.groupOut (s : State) (n : Nat) (q : Pic) : State :=
  let r := q.rends.get n
  ((((s.writeGroup q n r.groups).putRend q n { r with
        groups := r.groups + 1, lo := r.lo + s.groupLow n q, hi := r.hi + s.groupHigh n q }).countBy
      (Pg.prismBe n) Reg.PRISM_BE_CLIP_LO_COUNT (s.groupLow n q)).countBy (Pg.prismBe n) Reg.PRISM_BE_CLIP_HI_COUNT (s.groupHigh n q)).raiseIf
    (decide (r.lo + r.hi = 0) && decide (s.groupLow n q + s.groupHigh n q ≠ 0)) (Pg.prismBe n) Reg.PRISM_BE_EVENT_CLIP

theorem State.publish_of_ready {s : State} {n : Nat} {q : Pic} (hq : s.curRend n = some q) (hg : (q.rends.get n).groups < s.groupCount n)
    (hr : s.groupReady q n (q.rends.get n).groups = true) :
    s.publish n = if (q.rends.get n).groups + 1 = s.groupCount n then
        { s.groupOut n q with split := { (s.groupOut n q).split with newest := (s.groupOut n q).split.newest.put n (some q.frame) } }
      else s.groupOut n q := by
  unfold State.publish
  simp only [hq]
  rw [if_neg (by rw [hr]; simpa using hg)]
  rfl

theorem State.rendDone_of_done {s : State} {n : Nat} {q : Pic} (hq : s.curRend n = some q) (hg : s.groupCount n ≤ (q.rends.get n).groups) :
    s.rendDone n = noteFreed s (((s.putRend q n { q.rends.get n with done := true }).setFld64 (Pg.prismBe n) Reg.PRISM_BE_LAST_FRAME_LO
      Reg.PRISM_BE_LAST_FRAME_HI q.frame).dropPics) := by
  unfold State.rendDone
  simp only [hq]
  rw [if_neg (by omega)]

/-! ### What each leaves -/

theorem onPages_prismBe {n : Nat} (hn : n < 8) {f : Fld} (hf : f.off < 0x1000) : onPages [Pg.prismBe n] (keyOf f (Pg.prismBe n)) :=
  onPages_single hf (by unfold Pg.prismBe; omega)

theorem noteFreed_writesIn (s w : State) : w.WritesIn (noteFreed s w) (· = keyOf Reg.FSTORE_EVENT_SLOT_FREED Pg.fstore) := by
  unfold noteFreed
  generalize (prismPages.flatMap s.pageBusy).any (fun k => !w.slotBusy k) = c
  exact .raiseIf (.refl w _) rfl

theorem State.rendBegun_readers (s : State) {n k : Nat} {q : Pic} (hm : s.ctl.mode ≠ .review) (hk : (s.streamsOf n).contains k = true) :
    (Reader.due k, n, q.frame) ∈ s.split.holds ++ s.rendReaders n q := by
  unfold State.rendReaders
  rw [if_neg hm]
  exact List.mem_append_right _ (List.mem_append_left _ (List.mem_map.2 ⟨k, List.contains_iff_mem.1 hk, rfl⟩))

/-- A group is written and counted. -/
theorem State.groupOut_effect {s t : State} {n : Nat} {q : Pic} (hn : n < 8) (hq : q ∈ s.split.pics) (ht : t = s.groupOut n q) :
    t.dram = (s.writeGroup q n (q.rends.get n).groups).dram
      ∧ (∃ q', t.pic q.frame = some q' ∧ (q'.rends.get n).groups = (q.rends.get n).groups + 1)
      ∧ t.fld (Pg.prismBe n) Reg.PRISM_BE_CLIP_LO_COUNT
          = min (s.fld (Pg.prismBe n) Reg.PRISM_BE_CLIP_LO_COUNT + s.groupLow n q) (2 ^ Reg.PRISM_BE_CLIP_LO_COUNT.width - 1)
      ∧ t.fld (Pg.prismBe n) Reg.PRISM_BE_CLIP_HI_COUNT
          = min (s.fld (Pg.prismBe n) Reg.PRISM_BE_CLIP_HI_COUNT + s.groupHigh n q) (2 ^ Reg.PRISM_BE_CLIP_HI_COUNT.width - 1)
      ∧ t = { s.regsOf t with dram := t.dram, split := { s.split with pics := t.split.pics } } ∧ s.KeepsPages t [Pg.prismBe n] := by
  have hw := s.writeGroup_touches q n (q.rends.get n).groups
  unfold State.groupOut at ht
  dsimp only at ht
  generalize s.groupLow n q = lo at *
  generalize s.groupHigh n q = hi at *
  generalize (decide ((q.rends.get n).lo + (q.rends.get n).hi = 0) && decide (lo + hi ≠ 0)) = c at ht
  obtain ⟨r, hr⟩ : ∃ r : RendSt, r = { q.rends.get n with
    groups := (q.rends.get n).groups + 1, lo := (q.rends.get n).lo + lo, hi := (q.rends.get n).hi + hi } := ⟨_, rfl⟩
  have hg : r.groups = (q.rends.get n).groups + 1 := by rw [hr]
  rw [← hr] at ht
  have hwq : q ∈ (s.writeGroup q n (q.rends.get n).groups).split.pics := by rw [hw.same .splitPics (by decide)]; exact hq
  have hwe : s.writeGroup q n (q.rends.get n).groups = { s with dram := (s.writeGroup q n (q.rends.get n).groups).dram } := hw.eq_mix
  generalize s.writeGroup q n (q.rends.get n).groups = w at *
  obtain ⟨q', hq', hr'⟩ := State.pic_putRend (n := n) (r := r) hwq
  obtain ⟨u, hu⟩ : ∃ u, u = w.putRend q n r := ⟨_, rfl⟩
  have hue : u = { s with dram := w.dram, split := { s.split with pics := u.split.pics } } := by rw [hu, w.putRend_eq, hwe]
  rw [← hu] at hq'
  obtain ⟨a, ha⟩ : ∃ a, a = u.countBy (Pg.prismBe n) Reg.PRISM_BE_CLIP_LO_COUNT lo := ⟨_, rfl⟩
  obtain ⟨b, hb⟩ : ∃ b, b = a.countBy (Pg.prismBe n) Reg.PRISM_BE_CLIP_HI_COUNT hi := ⟨_, rfl⟩
  rw [← hu, ← ha, ← hb] at ht
  have hto : u.Touches t [.regs, .ctlLatches] := by
    rw [ht, hb, ha]
    exact (((u.countBy_touches _ _ _).trans (State.countBy_touches _ _ _ _)).mono rfl).trans (State.raiseIf_touches _ _ _ _)
  have hfr : t = { u with regs := t.regs, ctl := { u.ctl with latches := t.ctl.latches } } := hto.eq_mix
  have hlo : b.fld (Pg.prismBe n) Reg.PRISM_BE_CLIP_LO_COUNT
      = min (s.fld (Pg.prismBe n) Reg.PRISM_BE_CLIP_LO_COUNT + lo) (2 ^ Reg.PRISM_BE_CLIP_LO_COUNT.width - 1) := by
    rw [hb, State.fld_countBy_ne _ _ _ _ _ _ (by decide) (.inl (by simp [keyOf])), ha, State.fld_countBy_same _ _ _ _ (by decide),
      State.fld_congr (s := s) (t := u) (by rw [hue])]
  have hhi : b.fld (Pg.prismBe n) Reg.PRISM_BE_CLIP_HI_COUNT
      = min (s.fld (Pg.prismBe n) Reg.PRISM_BE_CLIP_HI_COUNT + hi) (2 ^ Reg.PRISM_BE_CLIP_HI_COUNT.width - 1) := by
    rw [hb, State.fld_countBy_same _ _ _ _ (by decide), ha, State.fld_countBy_ne _ _ _ _ _ _ (by decide) (.inl (by simp [keyOf])),
      State.fld_congr (s := s) (t := u) (by rw [hue])]
  have hwr : s.WritesIn t (onPages [Pg.prismBe n]) := by
    have h0 : s.WritesIn u (onPages [Pg.prismBe n]) := .of_regs (.refl s _) (by rw [hue])
    rw [ht, hb, ha]
    exact ((h0.countBy _ (onPages_prismBe hn (by decide))).countBy _ (onPages_prismBe hn (by decide))).raiseIf (onPages_prismBe hn (by decide))
  refine ⟨by rw [hfr, hue], ⟨q', ?_, by rw [hr', hg]⟩, ?_, ?_, ?_, hwr.keepsPages⟩
  · rw [← hq']
    unfold State.pic
    rw [hfr]
  · rw [ht, State.fld_raiseIf_ne _ _ _ _ _ _ (by decide) (.inl (by simp [keyOf])), hlo]
  · rw [ht, State.fld_raiseIf_ne _ _ _ _ _ _ (by decide) (.inl (by simp [keyOf])), hhi]
  · rw [hfr, hue]
    rfl

/-- The last group publishes the frame. -/
theorem State.rendDone_effect {s t : State} {n : Nat} {q : Pic} (hn : n < 8) (hq : s.curRend n = some q) (hg : s.groupCount n ≤ (q.rends.get n).groups)
    (ht : t = s.rendDone n) :
    t.fld64 (Pg.prismBe n) Reg.PRISM_BE_LAST_FRAME_LO Reg.PRISM_BE_LAST_FRAME_HI = q.frame % 2 ^ 64
      ∧ (∀ q', t.pic q.frame = some q' → (q'.rends.get n).done = true)
      ∧ t = { s.regsOf t with split := { s.split with pics := t.split.pics } } ∧ s.KeepsPages t [Pg.prismBe n, Pg.fstore] := by
  rw [State.rendDone_of_done hq hg] at ht
  obtain ⟨w, hw⟩ : ∃ w, w = ((s.putRend q n { q.rends.get n with done := true }).setFld64 (Pg.prismBe n) Reg.PRISM_BE_LAST_FRAME_LO
    Reg.PRISM_BE_LAST_FRAME_HI q.frame).dropPics := ⟨_, rfl⟩
  rw [← hw] at ht
  have hframe : w = { s with regs := w.regs, split := { s.split with pics := w.split.pics } } := by rw [hw]; rfl
  have hlast : w.fld64 (Pg.prismBe n) Reg.PRISM_BE_LAST_FRAME_LO Reg.PRISM_BE_LAST_FRAME_HI = q.frame % 2 ^ 64 := by
    generalize s.putRend q n { q.rends.get n with done := true } = u at hw
    have h := u.fld64_setFld64 (p := Pg.prismBe n) (lo := Reg.PRISM_BE_LAST_FRAME_LO) (hi := Reg.PRISM_BE_LAST_FRAME_HI) q.frame
      (by decide) (by decide) rfl rfl (by simp [keyOf])
    generalize u.setFld64 (Pg.prismBe n) Reg.PRISM_BE_LAST_FRAME_LO Reg.PRISM_BE_LAST_FRAME_HI q.frame = v at *
    have hr : w.regs = v.regs := by rw [hw]; rfl
    rw [← h]
    unfold State.fld64
    rw [State.fld_congr hr, State.fld_congr hr]
  have hdone (x : Pic) (h : x ∈ w.split.pics) (hf : x.frame = q.frame) : (x.rends.get n).done = true := by
    obtain ⟨r, hr⟩ : ∃ r : RendSt, r = { q.rends.get n with done := true } := ⟨_, rfl⟩
    have hd : r.done = true := by rw [hr]
    rw [← hr] at hw
    have h' : x ∈ (s.putRend q n r).split.pics := by
      rw [hw] at h
      exact List.mem_of_mem_filter h
    rw [State.mem_putPic (q := { q with rends := q.rends.put n r }) h' hf, Tbl.get_put_same, hd]
  have hwr : s.WritesIn w (onPages [Pg.prismBe n, Pg.fstore]) := by
    rw [hw]
    have hk (f : Fld) (h : f.off < 0x1000) : onPages [Pg.prismBe n, Pg.fstore] (keyOf f (Pg.prismBe n)) :=
      onPages_mono (List.cons_subset_cons _ (List.nil_subset _)) (onPages_prismBe hn h)
    have h0 : s.WritesIn (s.putRend q n { q.rends.get n with done := true }) (onPages [Pg.prismBe n, Pg.fstore]) := .of_regs (.refl s _) rfl
    generalize s.putRend q n { q.rends.get n with done := true } = u at *
    have h1 := h0.setFld64 (p := Pg.prismBe n) (lo := Reg.PRISM_BE_LAST_FRAME_LO) (hi := Reg.PRISM_BE_LAST_FRAME_HI) q.frame
      (hk _ (by decide)) (hk _ (by decide))
    generalize u.setFld64 (Pg.prismBe n) Reg.PRISM_BE_LAST_FRAME_LO Reg.PRISM_BE_LAST_FRAME_HI q.frame = v at *
    exact h1.of_regs rfl
  have hfreed : w.WritesIn t (· = keyOf Reg.FSTORE_EVENT_SLOT_FREED Pg.fstore) := ht ▸ noteFreed_writesIn s w
  have hto : w.Touches t [.regs, .ctlLatches] := ht ▸ noteFreed_touches _ _
  have hfr : t = w.regsOf t := hto.eq_mix
  have hne (f : Fld) (h : f.off < 0x1000) : keyOf f (Pg.prismBe n) ≠ keyOf Reg.FSTORE_EVENT_SLOT_FREED Pg.fstore := by
    simp only [keyOf, Pg.prismBe, Pg.fstore]
    omega
  refine ⟨?_, fun x hx => ?_, ?_, ?_⟩
  · rw [← hlast]
    unfold State.fld64
    rw [hfreed.fld (hne _ (by decide)), hfreed.fld (hne _ (by decide))]
  · have hx' : w.pic q.frame = some x := by
      rw [← hx]
      unfold State.pic
      rw [hfr]
      rfl
    exact hdone x (List.mem_of_find?_eq_some hx') (by simpa using List.find?_some hx')
  · rw [hfr, hframe]
    rfl
  · refine (hwr.trans (hfreed.mono fun a ha => ?_)).keepsPages
    rw [ha]
    exact onPages_keyOf (by decide) (List.mem_cons_of_mem _ (List.mem_singleton_self _))

/-- Settles O37: the frame takes its buffer or waits, a group goes out with its clamped codes counted, and the last one publishes the frame. -/
theorem renditions : Obligations.Renditions := by
  unfold Obligations.Renditions
  refine ⟨fun s n q hn hq hr => ⟨fun hfree => ?free, fun hheld hst => ?held⟩, fun s n q hn hq hg hready => ?group, fun s n q hn hq hg => ?done⟩
  case free =>
    obtain ⟨q', hq', hr'⟩ := State.pic_putRend (n := n) (r := { q.rends.get n with begun := true }) (State.mem_of_nextRend hq)
    have hb : (s.rendBegun n q).pic q.frame = some q' := hq'
    have hbegun : (q'.rends.get n).begun = true := by rw [hr']
    obtain ⟨t, ht⟩ : ∃ t, t = s.splitBegin n := ⟨_, rfl⟩
    have hregs : ∃ r, t = { s.rendBegun n q with regs := r } := by
      rw [ht, State.splitBegin_of_free hq hr hfree]
      split
      · exact ⟨_, rfl⟩
      · exact ⟨_, rfl⟩
    have hkeep : s.KeepsRegs t [keyOf Reg.PRISM_BE_SLOT_ERR_FRAMES (Pg.prismBe n)] := by
      rw [ht, State.splitBegin_of_free hq hr hfree]
      exact State.WritesIn.keepsRegs (State.WritesIn.ite (.of_regs (.refl s _) rfl) (State.WritesIn.count (.of_regs (.refl s _) rfl) (by simp)))
    obtain ⟨r, hr⟩ := hregs
    refine ⟨t, congrArg Host.Outcome.next ht.symm, ?_, ⟨q', ?_, hbegun⟩, fun hm k hk => ?_, fun h hh => ?_, ?_, hkeep⟩
    · rw [hr]
      rfl
    · rw [hr]
      exact hb
    · rw [hr]
      exact s.rendBegun_readers hm hk
    · rw [hr]
      exact List.mem_append_left _ hh
    · rw [hr]
      rfl
  case held =>
    refine ⟨s.splitBegin n, rfl, ?_⟩
    rw [State.splitBegin_of_held hq hr hst hheld]
    obtain ⟨u, hu⟩ : ∃ u, u = s.putRend q n { q.rends.get n with stalled := true } := ⟨_, rfl⟩
    rw [← hu]
    have hne : keyOf (Reg.SPLIT_STALL_COUNT n) Pg.split ≠ keyOf Reg.SPLIT_EVENT_STALL Pg.split := by unfold keyOf; dsimp only; omega
    have hue : u = { s with split := { s.split with pics := u.split.pics } } := by rw [hu]; rfl
    have hto := ((u.count_touches Pg.split (Reg.SPLIT_STALL_COUNT n)).mono rfl).trans (State.raise_touches _ Pg.split Reg.SPLIT_EVENT_STALL)
    have hfr : (u.count Pg.split (Reg.SPLIT_STALL_COUNT n)).raise Pg.split Reg.SPLIT_EVENT_STALL = { u.regsOf _ with } := hto.eq_mix
    refine ⟨State.fld_raise_same _ _ _ (by decide) rfl, ?_, ?_, ?_⟩
    · rw [State.fld_raise_ne _ _ _ _ _ (Nat.le_of_ble_eq_true rfl) (.inl hne), State.fld_count_same _ _ _ (Nat.le_of_ble_eq_true rfl),
        State.fld_congr (s := s) (t := u) (by rw [hue])]
    · rw [hfr, hue]
      rfl
    · refine State.WritesIn.keepsPages (.raise (.count (.of_regs (.refl s _) (by rw [hue])) ?_) (onPages_keyOf (by decide) (by decide)))
      exact onPages_keyOf (by show 0x058 + 0x20 * n < 0x1000; omega) (by decide)
  case group =>
    obtain ⟨v, hv⟩ : ∃ v, v = s.groupOut n q := ⟨_, rfl⟩
    obtain ⟨h1, h2, h3, h4, h5, h6⟩ := State.groupOut_effect hn (State.mem_of_curRend hq) hv
    have hpub := State.publish_of_ready hq hg hready
    rw [← hv] at hpub
    by_cases hlast : (q.rends.get n).groups + 1 = s.groupCount n
    · rw [if_pos hlast] at hpub
      refine ⟨_, congrArg Host.Outcome.next hpub, h1, h2, fun _ => ?_, fun h => absurd hlast h.ne, h3, h4, ?_, h6⟩
      · show (v.split.newest.put n (some q.frame)).get n = _
        exact Tbl.get_put_same ..
      · rw [h5]
        rfl
    · rw [if_neg hlast] at hpub
      refine ⟨_, congrArg Host.Outcome.next hpub, h1, h2, fun h => absurd h hlast, fun _ => by rw [h5], h3, h4, ?_, h6⟩
      rw [h5]
      rfl
  case done =>
    obtain ⟨t, ht⟩ : ∃ t, t = s.rendDone n := ⟨_, rfl⟩
    exact ⟨t, congrArg Host.Outcome.next ht.symm, State.rendDone_effect hn hq hg ht⟩

end Sys2Proof.Machine
end

section
/-! PROOFS. The raw decoder and the HEVC decoders (R60, R229, R261 to R263). -/

set_option Elab.async false

namespace Sys2Proof.Machine

/-! ### What a commit point may change -/

/-- The registers that a commit point may write: common ones, active copies and the state of the groups. -/
def pointMay (a : Nat) : Prop := a % 0x1000 < 0x020 ∨ 0x800 ≤ a % 0x1000 ∨ a = keyOf Reg.GLOBAL_COMMIT_GROUPS Pg.global

/-- Every event that is set stays set. -/
def State.EventsStay (s t : State) : Prop :=
  ∀ (p : Nat) (f : Fld), f.off = 0x010 → f.width = 1 → f.lo < 32 → s.fld p f = 1 → t.fld p f = 1

/-- Every snapshot holds words of shadow registers. -/
def State.SnapsOk (s : State) : Prop := ∀ e ∈ s.ctl.snaps, ∀ x ∈ e.2, 0x400 ≤ x.1 ∧ x.1 < 0x800

/-- What holds as a commit point passes. -/
structure State.PointPasses (s t : State) : Prop where
  writes : s.WritesIn t pointMay
  events : s.EventsStay t
  snaps : s.SnapsOk → t.SnapsOk

variable {s t u : State}

theorem State.EventsStay.refl (s : State) : s.EventsStay s := fun _ _ _ _ _ h => h

theorem State.EventsStay.of_writes {P : Nat → Prop} (h : s.WritesIn t P) (hp : ∀ a, P a → a % 0x1000 ≠ 0x010) : s.EventsStay t :=
  fun p f ho _ _ h1 => (h.fld fun hk => hp _ hk (by unfold keyOf; omega)).trans h1

theorem State.EventsStay.trans (h : s.EventsStay t) (h' : t.EventsStay u) : s.EventsStay u :=
  fun p f ho hw hl h1 => h' p f ho hw hl (h p f ho hw hl h1)

theorem State.EventsStay.raise (s : State) (p : Nat) {e : Fld} (he : e.width = 1) : s.EventsStay (s.raise p e) :=
  fun _ _ _ hw hl h1 => State.fld_raise_of_one he hw h1 hl

theorem State.PointPasses.refl (s : State) : s.PointPasses s := ⟨.refl s _, .refl s, id⟩

theorem State.PointPasses.trans (h : s.PointPasses t) (h' : t.PointPasses u) : s.PointPasses u :=
  ⟨h.writes.trans h'.writes, h.events.trans h'.events, h'.snaps ∘ h.snaps⟩

theorem State.PointPasses.foldl {α : Type} {f : State → α → State} (h : ∀ (u : State) x, u.SnapsOk → u.PointPasses (f u x)) (xs : List α) (s : State)
    (hs : s.SnapsOk) : s.PointPasses (xs.foldl f s) := by
  induction xs generalizing s with
  | nil => exact .refl s
  | cons x xs ih => exact (h s x hs).trans (ih _ ((h s x hs).snaps hs))

/-- An event that rises is no more than that. -/
theorem State.PointPasses.raise (s : State) {p : Nat} {e : Fld} (he : e.width = 1) (ho : e.off = 0x010) : s.PointPasses (s.raise p e) :=
  ⟨.raise (.refl s _) (.inl (by unfold keyOf; omega)), .raise s p he, fun h => by
    unfold State.SnapsOk
    rw [(s.raise_touches p e).same .ctlSnaps (by decide)]
    exact h⟩

theorem State.PointPasses.raiseIf (s : State) (c : Bool) {p : Nat} {e : Fld} (he : e.width = 1) (ho : e.off = 0x010) : s.PointPasses (s.raiseIf c p e) := by
  unfold State.raiseIf
  split
  · exact .raise s he ho
  · exact .refl s

theorem State.PointPasses.of_writes {P : Nat → Prop} (h : s.WritesIn t P) (hp : ∀ a, P a → pointMay a ∧ a % 0x1000 ≠ 0x010)
    (hs : t.ctl.snaps = s.ctl.snaps) : s.PointPasses t :=
  ⟨h.mono fun a ha => (hp a ha).1, .of_writes h fun a ha => (hp a ha).2, fun h => by unfold State.SnapsOk; rw [hs]; exact h⟩

theorem State.snapOf_ok (h : s.SnapsOk) (p : Nat) : ∀ x ∈ s.snapOf p, 0x400 ≤ x.1 ∧ x.1 < 0x800 := by
  unfold State.snapOf
  cases hf : s.ctl.snaps.find? fun e => decide (e.1 = p) with
  | none => exact fun x hx => absurd hx List.not_mem_nil
  | some e => exact h e (List.mem_of_find?_eq_some hf)

theorem State.applyCommit_passes (h : s.SnapsOk) (p : Nat) : s.PointPasses (s.applyCommit p) := by
  have h1 : s.PointPasses (s.applySnap p (s.snapOf p)) := by
    refine .of_writes (s.writesIn_applySnap p _) ?_ ((s.applySnap_touches p _).same .ctlSnaps (by decide))
    rintro a ⟨y, hy, rfl⟩
    obtain ⟨hlo, hhi⟩ := State.snapOf_ok h p y hy
    exact ⟨.inr (.inl (by omega)), by omega⟩
  have h2 (u : State) : u.PointPasses (u.endCommit p) :=
    ⟨(u.writesIn_endCommit p).mono fun a ha => .inl (by rw [ha]; show (p * 0x1000 + 0x01C) % 0x1000 < 0x020; omega),
      .of_writes (u.writesIn_endCommit p) fun a ha => by
        rw [ha]
        show (p * 0x1000 + 0x01C) % 0x1000 ≠ 0x010
        omega,
      fun hu e he => hu e (List.mem_of_mem_filter he)⟩
  exact (h1.trans (h2 _)).trans (.raise _ rfl rfl)

theorem State.checkSlots_passes (s : State) (p : Nat) : s.PointPasses (s.checkSlots p) := by
  unfold State.checkSlots
  dsimp only
  generalize s.wrongSlots p = m
  split
  · have hsnaps := (s.setFld_touches p (actOf bypassFld) m).same .ctlSnaps (by decide)
    refine .trans (.of_writes (.setFld (.refl s _) _ rfl) (P := (· = keyOf (actOf bypassFld) p)) ?_ hsnaps) (.raiseIf _ _ ?_ ?_)
    · rintro a rfl
      have hoff : (actOf bypassFld).off = 0xBFC := rfl
      unfold keyOf pointMay
      rw [hoff]
      omega
    all_goals unfold slotErr; split <;> rfl
  · exact .refl s

theorem State.showGroups_passes (s : State) : s.PointPasses s.showGroups := by
  refine .of_writes s.writesIn_showGroups (fun a ha => ?_) (s.showGroups_touches.same .ctlSnaps (by decide))
  simp only [List.mem_cons, List.not_mem_nil, or_false] at ha
  rcases ha with rfl | rfl
  · exact ⟨.inr (.inr rfl), by decide⟩
  · exact ⟨.inl (by decide), by decide⟩

theorem State.commitPoint_passes (h : s.SnapsOk) (n : Nat) : s.PointPasses (s.commitPoint n) := by
  unfold State.commitPoint
  dsimp only
  split
  · exact .refl s
  · have h1 := State.PointPasses.foldl (f := fun (s : State) (g : Nat × List Nat) => g.2.foldl (fun s p => s.applyCommit p) s)
      (fun u g hu => .foldl (fun u p hu => State.applyCommit_passes hu p) g.2 u hu) (s.ctl.groups.filter fun g => decide (g.1 ≤ n + 1)) s h
    refine ((h1.trans ?_).trans (State.showGroups_passes _)).trans (.raise _ rfl rfl)
    exact .of_writes (P := fun _ => False) (.of_regs (.refl _ _) rfl) (fun _ => False.elim) rfl

theorem State.passCommit_passes (h : s.SnapsOk) (n : Nat) : s.PointPasses (s.passCommit n) := by
  unfold State.passCommit
  have h1 := State.commitPoint_passes h n
  exact (h1.trans (.foldl (fun u p _ => u.checkSlots_passes p) _ _ (h1.snaps h))).trans (.raiseIf _ _ rfl rfl)

/-- What a frame's commit points leave. -/
theorem State.frameValues_passes (h : s.SnapsOk) (n : Nat) : s.PointPasses (s.frameValues n) := by
  have hkeep (u : State) : u.PointPasses (u.keepValues n) := .of_writes (P := fun _ => False) (.of_regs (.refl u _) rfl) (fun _ => False.elim) rfl
  unfold State.frameValues
  dsimp only
  split
  · exact (hkeep s).trans (State.passCommit_passes ((hkeep s).snaps h) n)
  · have h1 := State.passCommit_passes h (n - 1)
    have h2 := h1.trans (hkeep _)
    exact h2.trans (State.passCommit_passes (h2.snaps h) n)

/-! ### The raw decoder begins a record -/

/-- The raw decoder begins a record that it can read: FRAME_NOW takes its frame. -/
def State.drdecTaken (s : State) (f : Nat) : State := (({ s with drdec := { s.drdec with cur := some (f, true) } } : State).setFrameNow f).frameValues f

section
variable (hm : s.ctl.mode = .review) (hen : s.on Pg.drdec Reg.DRDEC_CTRL_ENABLE = true) (hc : s.drdec.cur = none) (hf : s.drdecFull = false)
  (hp : s.fld Pg.drdec Reg.DRDEC_IN_PROD ≠ s.fld Pg.drdec Reg.DRDEC_IN_CONS)
include hm hen hc hf hp

theorem State.drdecBegin_of_ready : s.drdecBegin =
    if recordOk s.drdecShape (s.drdecRecord (s.fld Pg.drdec Reg.DRDEC_IN_CONS)) = true
    then s.drdecTaken (leAt (s.drdecRecord (s.fld Pg.drdec Reg.DRDEC_IN_CONS)) 8 8)
    else { s with drdec := { s.drdec with cur := some (s.frameNow, false) } } := by
  have hno : ¬ (s.ctl.mode ≠ .review ∨ s.on Pg.drdec Reg.DRDEC_CTRL_ENABLE = false ∨ s.drdec.cur.isSome = true
      ∨ s.fld Pg.drdec Reg.DRDEC_IN_PROD = s.fld Pg.drdec Reg.DRDEC_IN_CONS ∨ s.drdecFull = true) := by
    rintro (h | h | h | h | h)
    · exact h hm
    · exact Bool.noConfusion (hen.symm.trans h)
    · rw [hc] at h
      exact nomatch h
    · exact hp h
    · exact Bool.noConfusion (hf.symm.trans h)
  unfold State.drdecBegin
  dsimp only
  rw [if_neg hno]
  generalize s.drdecRecord (s.fld Pg.drdec Reg.DRDEC_IN_CONS) = b
  unfold State.drdecTaken
  cases recordOk s.drdecShape b with
  | true => simp only [if_true]
  | false => simp only [Bool.false_eq_true, if_false]

end

theorem frameNow_pointMay : ¬ pointMay (keyOf Reg.GLOBAL_FRAME_NOW_LO Pg.global) ∧ ¬ pointMay (keyOf Reg.GLOBAL_FRAME_NOW_HI Pg.global) := by
  unfold pointMay
  decide

/-- The registers that may change as the raw decoder begins a record. -/
def takenMay (a : Nat) : Prop :=
  pointMay a ∨ a = keyOf Reg.GLOBAL_FRAME_NOW_LO Pg.global ∨ a = keyOf Reg.GLOBAL_FRAME_NOW_HI Pg.global

theorem State.drdecTaken_effect {f : Nat} (hs : s.SnapsOk) (ht : t = s.drdecTaken f) :
    t.drdec = { s.drdec with cur := some (f, true) } ∧ t.frameNow = f % 2 ^ 64 ∧ s.WritesIn t takenMay ∧ s.EventsStay t
      ∧ t = { s.regsOf t with
          drdec := t.drdec, ingress := { s.ingress with frameVals := t.ingress.frameVals }
          ctl := { s.ctl with groups := t.ctl.groups, snaps := t.ctl.snaps, latches := t.ctl.latches } } := by
  obtain ⟨u, hu⟩ : ∃ u, u = ({ s with drdec := { s.drdec with cur := some (f, true) } } : State).setFrameNow f := ⟨_, rfl⟩
  have hframe : u = { s with regs := u.regs, drdec := { s.drdec with cur := some (f, true) } } := by rw [hu]; rfl
  have hnow : u.frameNow = f % 2 ^ 64 := by
    rw [hu]
    generalize ({ s with drdec := { s.drdec with cur := some (f, true) } } : State) = v
    unfold State.setFrameNow State.frameNow
    exact v.fld64_setFld64 f (by decide) (by decide) rfl rfl (by decide)
  have hw : s.WritesIn u (fun a => a = keyOf Reg.GLOBAL_FRAME_NOW_LO Pg.global ∨ a = keyOf Reg.GLOBAL_FRAME_NOW_HI Pg.global) := by
    have h0 : s.WritesIn { s with drdec := { s.drdec with cur := some (f, true) } }
        (fun a => a = keyOf Reg.GLOBAL_FRAME_NOW_LO Pg.global ∨ a = keyOf Reg.GLOBAL_FRAME_NOW_HI Pg.global) := .of_regs (.refl s _) rfl
    rw [hu]
    generalize ({ s with drdec := { s.drdec with cur := some (f, true) } } : State) = v at *
    exact h0.setFld64 _ (.inl rfl) (.inr rfl)
  have hus : u.SnapsOk := by rw [hframe]; exact hs
  unfold State.drdecTaken at ht
  rw [← hu] at ht
  have hpass : u.PointPasses t := ht ▸ State.frameValues_passes hus f
  have hto : u.Touches t [.regs, .ctlSnaps, .ctlGroups, .ctlLatches, .ingressFrameVals] := ht ▸ u.frameValues_touches f
  have hfr : t = { u with
      regs := t.regs, ingress := { u.ingress with frameVals := t.ingress.frameVals }
      ctl := { u.ctl with groups := t.ctl.groups, snaps := t.ctl.snaps, latches := t.ctl.latches } } := hto.eq_mix
  refine ⟨by rw [hfr, hframe], ?_, (hw.mono fun a ha => .inr ha).trans (hpass.writes.mono fun a ha => .inl ha), ?_, ?_⟩
  · rw [← hnow]
    unfold State.frameNow State.fld64
    rw [hpass.writes.fld frameNow_pointMay.1, hpass.writes.fld frameNow_pointMay.2]
  · refine .trans (.of_writes hw ?_) hpass.events
    rintro a (rfl | rfl) <;> decide
  · rw [hfr, hframe]
    rfl

/-- Whatever the raw decoder begins, its outputs stay. -/
theorem State.drdecBegin_keeps (hs : s.SnapsOk) (ht : t = s.drdecBegin) :
    t.drdec = { s.drdec with cur := t.drdec.cur } ∧ s.WritesIn t takenMay ∧ s.EventsStay t
      ∧ t = { s.regsOf t with
          drdec := t.drdec, ingress := { s.ingress with frameVals := t.ingress.frameVals }
          ctl := { s.ctl with groups := t.ctl.groups, snaps := t.ctl.snaps, latches := t.ctl.latches } } := by
  have hcases : t = s ∨ (∃ f, t = s.drdecTaken f) ∨ t = { s with drdec := { s.drdec with cur := some (s.frameNow, false) } } := by
    rw [ht]
    unfold State.drdecBegin
    dsimp only
    split
    · exact .inl rfl
    · generalize s.drdecRecord (s.fld Pg.drdec Reg.DRDEC_IN_CONS) = b
      cases recordOk s.drdecShape b with
      | true => exact .inr (.inl ⟨leAt b 8 8, by simp only [if_true, State.drdecTaken]⟩)
      | false => exact .inr (.inr (by simp only [Bool.false_eq_true, if_false]))
  rcases hcases with rfl | ⟨f, hf⟩ | h
  · exact ⟨rfl, .refl t _, .refl t, rfl⟩
  · obtain ⟨h1, -, h2, h3, h4⟩ := State.drdecTaken_effect hs hf
    exact ⟨by rw [h1], h2, h3, h4⟩
  · rw [h]
    exact ⟨rfl, .of_regs (.refl s _) rfl, .of_writes (P := fun _ => False) (.of_regs (.refl s _) rfl) (fun _ => False.elim), rfl⟩

/-! ### The raw decoder ends a record -/

/-- The picture of a record that is done, and how many of its tiles are concealed. -/
def State.drdecTiles (s : State) (ok : Bool) : List (Option Recon) :=
  if ok then decodeRecord s.drdecShape (s.drdecRecord (s.fld Pg.drdec Reg.DRDEC_IN_CONS)) else []
def State.drdecPic (s : State) (ok : Bool) : List (List Nat) :=
  if ok then (List.range s.drdecShape.h).map fun y => (List.range s.drdecShape.w).map fun x =>
    decodedAt s.drdecShape (s.drdecTiles ok) s.drdec.last x y
  else s.drdec.last.getD (List.replicate s.drdecShape.h (List.replicate s.drdecShape.w 0))

/-- The picture's lines in the output slot. -/
def State.drdecLines (s : State) (ok : Bool) : State :=
  (s.drdecPic ok).zipIdx.foldl (fun (u : State) e => u.pokeN (s.drdecOut s.drdecSlot + 8192 + e.2 * lineStride s.drdecShape.w s.drdecShape.ds)
    (padTo (lineStride s.drdecShape.w s.drdecShape.ds) (packBits s.drdecShape.ds e.1))) s

/-- The frame's record above them, where the decoder has one. -/
def State.drdecSlotWritten (s : State) (f : Nat) (ok : Bool) : State :=
  match s.drdec.records.find? fun e => decide (e.1 = f) with
  | some e => (s.drdecLines ok).pokeN (s.drdecOut s.drdecSlot) e.2
  | none => s.drdecLines ok

/-- What the decoder's page shows of a frame that is done. -/
def State.drdecShown (s : State) (f bad next : Nat) (ok : Bool) : State :=
  (((((s.countBy Pg.drdec Reg.DRDEC_TILE_ERRORS bad).raiseIf (decide (0 < bad)) Pg.drdec Reg.DRDEC_EVENT_TILE_ERR).raiseIf (!ok) Pg.drdec
    Reg.DRDEC_EVENT_REC_ERR).setFld64 Pg.drdec Reg.DRDEC_LAST_FRAME_LO Reg.DRDEC_LAST_FRAME_HI f).setFld Pg.drdec Reg.DRDEC_IN_CONS next).raise
    Pg.drdec Reg.DRDEC_EVENT_FRAME_DONE

theorem State.drdecDone_of_cur {f : Nat} {ok : Bool} (hc : s.drdec.cur = some (f, ok)) (hm : s.ctl.mode = .review)
    (hu : u = (s.drdecSlotWritten f ok).drdecShown f ((s.drdecTiles ok).countP (·.isNone))
      (ringNext (s.fld Pg.drdec Reg.DRDEC_IN_CONS) (s.fld Pg.drdec Reg.DRDEC_IN_CFG_COUNT)) ok) :
    s.drdecDone = ({ u with drdec := ⟨u.drdec.outCount + 1, some (s.drdecPic ok), none, u.drdec.records.filter fun e => decide (e.1 ≠ f),
      if s.reviewRaw then u.drdec.ready ++ [(f, s.drdecSlot)] else u.drdec.ready⟩ } : State).drdecBegin := by
  unfold State.drdecDone
  simp only [hc]
  rw [if_neg (fun h => h hm), hu]
  rfl

theorem State.drdecSlotWritten_touches (s : State) (f : Nat) (ok : Bool) : s.Touches (s.drdecSlotWritten f ok) [.dram] := by
  have hlines : s.Touches (s.drdecLines ok) [.dram] := .foldl (.refl s _) (fun u e => u.pokeN_touches _ _) _
  unfold State.drdecSlotWritten
  split
  · exact hlines.trans (State.pokeN_touches _ _ _)
  · exact hlines

/-- A run of writes of DRAM leaves what is outside each of them. -/
theorem State.get_foldl_pokeN {α : Type} (addr : α → Nat) (data : α → List Byte) {k : Nat} (l : List α)
    (h : ∀ e ∈ l, k < addr e ∨ addr e + (data e).length ≤ k) (s : State) :
    (l.foldl (fun (u : State) e => u.pokeN (addr e) (data e)) s).dram.get k = s.dram.get k := by
  induction l generalizing s with
  | nil => rfl
  | cons e l ih =>
    rw [List.foldl_cons, ih (fun x hx => h x (List.mem_cons_of_mem _ hx)), State.get_pokeN_outside (h e List.mem_cons_self)]

/-- A decoded frame and its record lie in the output slot. -/
theorem State.get_drdecSlotWritten {f k : Nat} (hrec : ∀ e ∈ s.drdec.records, e.2.length ≤ 8192)
    (hk : k < s.drdecOut s.drdecSlot
      ∨ s.drdecOut s.drdecSlot + (8192 + s.drdecShape.h * lineStride s.drdecShape.w s.drdecShape.ds) ≤ k) :
    (s.drdecSlotWritten f true).dram.get k = s.dram.get k := by
  have hlines : (s.drdecLines true).dram.get k = s.dram.get k := by
    refine State.get_foldl_pokeN _ _ _ (fun e he => ?_) s
    have hlt : e.2 < s.drdecShape.h := by
      have h := (List.mem_zipIdx' (x := e.1) (i := e.2) he).1
      rwa [State.drdecPic, if_pos rfl, List.length_map, List.length_range] at h
    have hle := Nat.mul_le_mul_right (lineStride s.drdecShape.w s.drdecShape.ds) (Nat.succ_le_of_lt hlt)
    rw [Nat.succ_mul] at hle
    rw [padTo_length]
    omega
  unfold State.drdecSlotWritten
  split
  · rename_i e he
    have hl := hrec e (List.mem_of_find?_eq_some he)
    rw [State.get_pokeN_outside (by omega), hlines]
  · exact hlines

theorem onPages_drdec {f : Fld} (hf : f.off < 0x1000 := by decide) : onPages [Pg.drdec] (keyOf f Pg.drdec) := onPages_single hf (by decide)

/-- What the decoder's page shows of a frame that is done. -/
theorem State.drdecShown_effect {f bad next : Nat} {ok : Bool} (ht : t = s.drdecShown f bad next ok) :
    t.fld Pg.drdec Reg.DRDEC_IN_CONS = next % 2 ^ Reg.DRDEC_IN_CONS.width
      ∧ t.fld64 Pg.drdec Reg.DRDEC_LAST_FRAME_LO Reg.DRDEC_LAST_FRAME_HI = f % 2 ^ 64
      ∧ t.fld Pg.drdec Reg.DRDEC_EVENT_FRAME_DONE = 1 ∧ (ok = false → t.fld Pg.drdec Reg.DRDEC_EVENT_REC_ERR = 1)
      ∧ s.WritesIn t (onPages [Pg.drdec]) ∧ t = s.regsOf t := by
  unfold State.drdecShown at ht
  obtain ⟨a, ha⟩ : ∃ a, a = (s.countBy Pg.drdec Reg.DRDEC_TILE_ERRORS bad).raiseIf (decide (0 < bad)) Pg.drdec Reg.DRDEC_EVENT_TILE_ERR := ⟨_, rfl⟩
  obtain ⟨b, hb⟩ : ∃ b, b = a.raiseIf (!ok) Pg.drdec Reg.DRDEC_EVENT_REC_ERR := ⟨_, rfl⟩
  obtain ⟨c, hc⟩ : ∃ c, c = b.setFld64 Pg.drdec Reg.DRDEC_LAST_FRAME_LO Reg.DRDEC_LAST_FRAME_HI f := ⟨_, rfl⟩
  obtain ⟨d, hd⟩ : ∃ d, d = c.setFld Pg.drdec Reg.DRDEC_IN_CONS next := ⟨_, rfl⟩
  rw [← ha, ← hb, ← hc, ← hd] at ht
  have hcons : d.fld Pg.drdec Reg.DRDEC_IN_CONS = next % 2 ^ Reg.DRDEC_IN_CONS.width := hd ▸ State.fld_setFld_same _ _ _ _ (by decide)
  have hlast : c.fld64 Pg.drdec Reg.DRDEC_LAST_FRAME_LO Reg.DRDEC_LAST_FRAME_HI = f % 2 ^ 64 :=
    hc ▸ b.fld64_setFld64 f (by decide) (by decide) rfl rfl (by decide)
  have herr : ok = false → b.fld Pg.drdec Reg.DRDEC_EVENT_REC_ERR = 1 := by
    rintro rfl
    exact hb ▸ State.fld_raise_same _ _ _ (by decide) rfl
  have hwc : b.WritesIn c (· ∈ [keyOf Reg.DRDEC_LAST_FRAME_LO Pg.drdec, keyOf Reg.DRDEC_LAST_FRAME_HI Pg.drdec]) :=
    hc ▸ .setFld64 (.refl b _) _ (by decide) (by decide)
  have hwd : c.WritesIn d (· = keyOf Reg.DRDEC_IN_CONS Pg.drdec) := hd ▸ .setFld (.refl c _) _ rfl
  have hwt : d.WritesIn t (· = keyOf Reg.DRDEC_EVENT_FRAME_DONE Pg.drdec) := ht ▸ .raise (.refl d _) rfl
  have hto : b.Touches t [.regs, .ctlLatches] := by
    rw [ht, hd, hc]
    exact .trans (.mono (.trans (State.setFld64_touches _ _ _ _ _) (State.setFld_touches _ _ _ _)) rfl) (State.raise_touches _ _ _)
  have hto' : s.Touches t [.regs, .ctlLatches] := by
    rw [hb, ha] at hto
    exact (((s.countBy_touches _ _ _).mono rfl).trans (State.raiseIf_touches _ _ _ _)).trans ((State.raiseIf_touches _ _ _ _).trans hto)
  have hw : s.WritesIn b (onPages [Pg.drdec]) := by
    rw [hb, ha]
    exact ((State.WritesIn.countBy (.refl s _) _ onPages_drdec).raiseIf onPages_drdec).raiseIf onPages_drdec
  refine ⟨?_, ?_, ht ▸ State.fld_raise_same _ _ _ (by decide) rfl, fun hok => ?_, ?_, hto'.eq_mix⟩
  · rw [hwt.fld (by decide), hcons]
  · rw [← hlast]
    unfold State.fld64
    rw [hwt.fld (by decide), hwt.fld (by decide), hwd.fld (by decide), hwd.fld (by decide)]
  · rw [ht]
    refine State.fld_raise_of_one rfl rfl ?_
    rw [hwd.fld (by decide), hwc.fld (by decide), herr hok]
  · refine ((hw.trans (hwc.mono fun a ha => ?_)).trans (hwd.mono fun a ha => ?_)).trans (hwt.mono fun a ha => ?_)
    · simp only [List.mem_cons, List.not_mem_nil, or_false] at ha
      rcases ha with rfl | rfl <;> exact onPages_drdec
    · exact ha ▸ onPages_drdec
    · exact ha ▸ onPages_drdec

/-! ### DRDEC.IN_PROD -/

theorem writeDrdecInProd_of_accepts {r : Req} {v : Word} (h : s.accepts r Pg.drdec 0x04C v = true) :
    writeDrdecInProd r v s = (s.wr (keyOf Reg.DRDEC_IN_PROD Pg.drdec) (s.written r Pg.drdec 0x04C v)).drdecBegin := by
  have hbank : bankPage r Pg.drdec 0x04C = Pg.drdec := rfl
  have hlo : isLo Pg.drdec 0x04C = false := by decide
  have hlo' : isLo Pg.drdec (0x04C - 4) = false := by decide
  rw [writeDrdecInProd, withWrite_of_accepts _ h, plainStore, hbank, State.store]
  simp only [hlo, hlo', Bool.false_eq_true, if_false, and_false]
  rfl

/-- A write of IN_PROD leaves what the decoder reads of its other registers. -/
theorem State.drdec_congr {w : Word} (hu : u = s.wr (keyOf Reg.DRDEC_IN_PROD Pg.drdec) w) :
    u.drdecFull = s.drdecFull ∧ u.drdecShape = s.drdecShape ∧ u.frameNow = s.frameNow
      ∧ u.on Pg.drdec Reg.DRDEC_CTRL_ENABLE = s.on Pg.drdec Reg.DRDEC_CTRL_ENABLE
      ∧ u.fld Pg.drdec Reg.DRDEC_IN_CONS = s.fld Pg.drdec Reg.DRDEC_IN_CONS ∧ ∀ j, u.drdecRecord j = s.drdecRecord j := by
  have hfld (p : Nat) (f : Fld) (h : keyOf f p ≠ keyOf Reg.DRDEC_IN_PROD Pg.drdec) : u.fld p f = s.fld p f := hu ▸ State.fld_wr_ne s w h
  have hshape : u.drdecShape = s.drdecShape := by
    unfold State.drdecShape State.cfa State.on
    simp (disch := decide) only [hfld]
  have hslot : u.drdecSlot = s.drdecSlot := by
    unfold State.drdecSlot
    simp (disch := decide) only [hfld]
    rw [hu]
    rfl
  have hout (j : Nat) : u.drdecOut j = s.drdecOut j := by
    unfold State.drdecOut
    simp (disch := decide) only [hfld, hshape]
  refine ⟨?_, hshape, ?_, ?_, hfld _ _ (by decide), fun j => ?_⟩
  · have hd : u.drdec = s.drdec := by rw [hu]; rfl
    have hi : u.ingress = s.ingress := by rw [hu]; rfl
    unfold State.drdecFull
    simp only [hslot, hout, hd, hi]
  · unfold State.frameNow State.fld64
    simp (disch := decide) only [hfld]
  · unfold State.on
    simp (disch := decide) only [hfld]
  · have hp (a n : Nat) : u.peekN a n = s.peekN a n := by
      have hd : u.dram = s.dram := by rw [hu]; rfl
      unfold State.peekN State.dramSize
      simp (disch := decide) only [hfld, hd]
    unfold State.drdecRecord State.drdecIn State.peekLe
    simp (disch := decide) only [hfld, hp]

/-- What may change as the raw decoder begins a record keeps the registers of the other pages. -/
theorem State.WritesIn.keeps_taken (h : s.WritesIn t fun a => takenMay a ∨ onPages [Pg.drdec] a) :
    ∀ a, a / 0x1000 % 1024 ∉ [Pg.drdec, Pg.global] → 0x020 ≤ a % 0x1000 → a % 0x1000 < 0x800 → t.rd a = s.rd a := by
  intro a hp hlo hhi
  simp only [List.mem_cons, List.not_mem_nil, or_false, not_or] at hp
  obtain ⟨hd, hg⟩ := hp
  refine h a ?_
  rintro (((ha | ha | rfl) | rfl | rfl) | ha)
  · omega
  · omega
  · exact hg (by decide)
  · exact hg (by decide)
  · exact hg (by decide)
  · exact hd (List.mem_singleton.1 ha)

/-- Outside REVIEW the decoder begins nothing. -/
theorem State.drdecBegin_of_mode (h : s.ctl.mode ≠ .review) : s.drdecBegin = s := by
  unfold State.drdecBegin
  dsimp only
  rw [if_pos (.inl h)]

/-- The decoder begins the record that a write of IN_PROD hands it. -/
theorem State.drdecInProd_effect {w : Word} {b : List Byte} (hm : s.ctl.mode = .review) (hok : s.CommitsOk)
    (hen : s.on Pg.drdec Reg.DRDEC_CTRL_ENABLE = true) (hc : s.drdec.cur = none) (hf : s.drdecFull = false)
    (hne : wfld w Reg.DRDEC_IN_PROD ≠ s.fld Pg.drdec Reg.DRDEC_IN_CONS) (hb : b = s.drdecRecord (s.fld Pg.drdec Reg.DRDEC_IN_CONS))
    (ht : t = (s.wr (keyOf Reg.DRDEC_IN_PROD Pg.drdec) w).drdecBegin) :
    t.fld Pg.drdec Reg.DRDEC_IN_PROD = wfld w Reg.DRDEC_IN_PROD
      ∧ (recordOk s.drdecShape b = true → t.drdec = { s.drdec with cur := some (leAt b 8 8, true) } ∧ t.frameNow = leAt b 8 8 % 2 ^ 64)
      ∧ (recordOk s.drdecShape b = false → t.drdec = { s.drdec with cur := some (s.frameNow, false) } ∧ t.frameNow = s.frameNow)
      ∧ t = { s.regsOf t with
          drdec := t.drdec, ingress := { s.ingress with frameVals := t.ingress.frameVals }
          ctl := { s.ctl with groups := t.ctl.groups, snaps := t.ctl.snaps, latches := t.ctl.latches } }
      ∧ (∀ a, a / 0x1000 % 1024 ∉ [Pg.drdec, Pg.global] → 0x020 ≤ a % 0x1000 → a % 0x1000 < 0x800 → t.rd a = s.rd a)
      ∧ s.KeepsBytes t := by
  obtain ⟨u, hu⟩ : ∃ u, u = s.wr (keyOf Reg.DRDEC_IN_PROD Pg.drdec) w := ⟨_, rfl⟩
  obtain ⟨c1, c2, c3, c4, c5, c6⟩ := State.drdec_congr hu
  have hprod : u.fld Pg.drdec Reg.DRDEC_IN_PROD = wfld w Reg.DRDEC_IN_PROD := hu ▸ s.fld_wr_same w rfl
  have hwu : s.WritesIn u (· = keyOf Reg.DRDEC_IN_PROD Pg.drdec) := hu ▸ .wr (.refl s _) w rfl
  have hframe : u = { s with regs := u.regs } := by rw [hu]; rfl
  have hdr : u.drdec = s.drdec := by rw [hframe]
  have hs : u.SnapsOk := by rw [hframe]; exact hok.2
  rw [← hu] at ht
  obtain ⟨k1, k2, -, k4⟩ := State.drdecBegin_keeps hs ht
  have hready := State.drdecBegin_of_ready (s := u) (by rw [hframe]; exact hm) (c4.trans hen) (by rw [hdr]; exact hc) (c1.trans hf)
    (by rw [hprod, c5]; exact hne)
  rw [c5, c6, ← hb, c2, c3, ← ht] at hready
  have hfr : t = { s.regsOf t with
      drdec := t.drdec, ingress := { s.ingress with frameVals := t.ingress.frameVals }
      ctl := { s.ctl with groups := t.ctl.groups, snaps := t.ctl.snaps, latches := t.ctl.latches } } := by
    rw [k4, hframe]
    rfl
  refine ⟨(k2.fld ?_).trans hprod, fun h => ?_, fun h => ?_, hfr, ?_, ?_⟩
  · unfold takenMay pointMay
    decide
  · rw [h, if_pos rfl] at hready
    obtain ⟨h1, h2, -⟩ := State.drdecTaken_effect hs hready
    exact ⟨by rw [h1, hdr], h2⟩
  · rw [h, if_neg Bool.false_ne_true] at hready
    rw [hready]
    exact ⟨by rw [hdr], c3⟩
  · refine State.WritesIn.keeps_taken ((hwu.mono fun a ha => .inr ?_).trans (k2.mono fun a ha => .inl ha))
    exact ha ▸ onPages_drdec
  · refine .of_same ?_ ?_ ?_ ?_ <;> rw [hfr] <;> rfl

/-- A record that is done leaves its frame, and the decoder goes on. -/
theorem State.drdecDone_effect {f : Nat} {ok : Bool} (hc : s.drdec.cur = some (f, ok)) (hm : s.ctl.mode = .review) (hok : s.CommitsOk)
    (ht : t = s.drdecDone) :
    t.fld Pg.drdec Reg.DRDEC_IN_CONS =
        ringNext (s.fld Pg.drdec Reg.DRDEC_IN_CONS) (s.fld Pg.drdec Reg.DRDEC_IN_CFG_COUNT) % 2 ^ Reg.DRDEC_IN_CONS.width
      ∧ t.fld64 Pg.drdec Reg.DRDEC_LAST_FRAME_LO Reg.DRDEC_LAST_FRAME_HI = f % 2 ^ 64
      ∧ t.fld Pg.drdec Reg.DRDEC_EVENT_FRAME_DONE = 1 ∧ (ok = false → t.fld Pg.drdec Reg.DRDEC_EVENT_REC_ERR = 1)
      ∧ t.drdec.outCount = s.drdec.outCount + 1
      ∧ t.drdec.ready = (if s.reviewRaw then s.drdec.ready ++ [(f, s.drdecSlot)] else s.drdec.ready)
      ∧ (ok = true → (∀ e ∈ s.drdec.records, e.2.length ≤ 8192) →
          s.StoresDram t (s.drdecOut s.drdecSlot) (8192 + s.drdecShape.h * lineStride s.drdecShape.w s.drdecShape.ds))
      ∧ t = { s.regsOf t with
          dram := t.dram, drdec := t.drdec, ingress := { s.ingress with frameVals := t.ingress.frameVals }
          ctl := { s.ctl with groups := t.ctl.groups, snaps := t.ctl.snaps, latches := t.ctl.latches } }
      ∧ ∀ a, a / 0x1000 % 1024 ∉ [Pg.drdec, Pg.global] → 0x020 ≤ a % 0x1000 → a % 0x1000 < 0x800 → t.rd a = s.rd a := by
  obtain ⟨w, hw⟩ : ∃ w, w = s.drdecSlotWritten f ok := ⟨_, rfl⟩
  obtain ⟨u, hu⟩ : ∃ u, u = w.drdecShown f ((s.drdecTiles ok).countP (·.isNone))
      (ringNext (s.fld Pg.drdec Reg.DRDEC_IN_CONS) (s.fld Pg.drdec Reg.DRDEC_IN_CFG_COUNT)) ok := ⟨_, rfl⟩
  obtain ⟨e1, e2, e3, e4, e5, e6⟩ := State.drdecShown_effect hu
  rw [State.drdecDone_of_cur hc hm (hu.trans (by rw [hw]))] at ht
  have hwf : w = { s with dram := w.dram } := by rw [hw]; exact (s.drdecSlotWritten_touches f ok).eq_mix
  have hdram (k : Nat) (h : ok = true) (hrec : ∀ e ∈ s.drdec.records, e.2.length ≤ 8192) (hk : k < s.drdecOut s.drdecSlot
      ∨ s.drdecOut s.drdecSlot + (8192 + s.drdecShape.h * lineStride s.drdecShape.w s.drdecShape.ds) ≤ k) : w.dram.get k = s.dram.get k := by
    subst h
    rw [hw]
    exact State.get_drdecSlotWritten hrec hk
  have huf : u = { s.regsOf u with dram := w.dram } := by rw [e6, hwf]; rfl
  obtain ⟨d, hd⟩ : ∃ d : DrDecSt, d = ⟨u.drdec.outCount + 1, some (s.drdecPic ok), none, u.drdec.records.filter fun e => decide (e.1 ≠ f),
    if s.reviewRaw then u.drdec.ready ++ [(f, s.drdecSlot)] else u.drdec.ready⟩ := ⟨_, rfl⟩
  have hd1 : d.outCount = s.drdec.outCount + 1 := by rw [hd, huf]; rfl
  have hd2 : d.ready = if s.reviewRaw then s.drdec.ready ++ [(f, s.drdecSlot)] else s.drdec.ready := by rw [hd, huf]; rfl
  rw [← hd] at ht
  have hs : ({ u with drdec := d } : State).SnapsOk := by rw [huf]; exact hok.2
  obtain ⟨k1, k2, k3, k4⟩ := State.drdecBegin_keeps hs ht
  have hkeep (f : Fld) (h : ¬ takenMay (keyOf f Pg.drdec)) : t.fld Pg.drdec f = u.fld Pg.drdec f := k2.fld h
  have hno (f : Fld) (h1 : 0x020 ≤ f.off) (h2 : f.off < 0x800) : ¬ takenMay (keyOf f Pg.drdec) := by
    unfold takenMay pointMay keyOf
    simp only [Pg.drdec, Pg.global]
    omega
  have hfr : t = { s.regsOf t with
      dram := w.dram, drdec := t.drdec, ingress := { s.ingress with frameVals := t.ingress.frameVals }
      ctl := { s.ctl with groups := t.ctl.groups, snaps := t.ctl.snaps, latches := t.ctl.latches } } := by
    rw [k4, huf]
    rfl
  refine ⟨?_, ?_, k3 _ _ rfl rfl (by decide) e3, fun h => k3 _ _ rfl rfl (by decide) (e4 h), ?_, ?_, fun h hrec => ?_, ?_, ?_⟩
  · rw [hkeep _ (hno _ (by decide) (by decide)), e1]
  · rw [← e2]
    unfold State.fld64
    rw [hkeep _ (hno _ (by decide) (by decide)), hkeep _ (hno _ (by decide) (by decide))]
  · rw [k1, hd1]
  · rw [k1, hd2]
  · refine ⟨fun k hk => ?_, fun a => ?_, fun a => ?_, fun k a => ?_⟩
    · rw [hfr]
      exact hdram k h hrec hk
    all_goals rw [hfr]; rfl
  · rw [hfr]
    rfl
  · have h1 : s.WritesIn u (onPages [Pg.drdec]) := (State.WritesIn.of_regs (.refl s _) (by rw [hwf])).trans e5
    exact State.WritesIn.keeps_taken ((h1.mono fun a ha => .inr ha).trans (k2.mono fun a ha => .inl ha))

end Sys2Proof.Machine
end

section
/-! PROOFS. The HEVC decoders (R261 to R263, R266). -/

set_option Elab.async false

namespace Sys2Proof.Machine

/-! ### What a decoder may change -/

/-- The registers that decoding writes: the events and the counts of the decoder's page. -/
def decMay (n a : Nat) : Prop := a / 0x1000 = Pg.hdec n ∧ (a % 0x1000 = 0x010 ∨ 0x064 ≤ a % 0x1000 ∧ a % 0x1000 < 0x078)

/-- What holds as a decoder goes on. -/
structure State.DecodesAt (n : Nat) (s t : State) : Prop where
  writes : s.WritesIn t (decMay n)
  events : s.EventsStay t
  other : ∀ m, m ≠ n → t.dec m = s.dec m

variable {s t u : State} {n : Nat}

theorem decMay_event {f : Fld} (h : f.off = 0x010) : decMay n (keyOf f (Pg.hdec n)) := by
  unfold decMay keyOf
  omega

theorem decMay_count {f : Fld} (h : 0x064 ≤ f.off) (h' : f.off < 0x078) : decMay n (keyOf f (Pg.hdec n)) := by
  unfold decMay keyOf
  omega

theorem State.DecodesAt.refl (n : Nat) (s : State) : s.DecodesAt n s := ⟨.refl s _, .refl s, fun _ _ => rfl⟩

theorem State.DecodesAt.trans (h : s.DecodesAt n t) (h' : t.DecodesAt n u) : s.DecodesAt n u :=
  ⟨h.writes.trans h'.writes, h.events.trans h'.events, fun m hm => (h'.other m hm).trans (h.other m hm)⟩

theorem State.DecodesAt.raise (n : Nat) (s : State) {e : Fld} (he : e.off = 0x010 ∧ e.width = 1) : s.DecodesAt n (s.raise (Pg.hdec n) e) :=
  ⟨.raise (.refl s _) (decMay_event he.1), .raise s _ he.2, fun m _ => by
    unfold State.dec
    rw [(s.raise_touches (Pg.hdec n) e).same .hdec (by decide)]⟩

theorem State.DecodesAt.raiseIf (n : Nat) (s : State) (c : Bool) {e : Fld} (he : e.off = 0x010 ∧ e.width = 1) :
    s.DecodesAt n (s.raiseIf c (Pg.hdec n) e) := by
  unfold State.raiseIf
  split
  · exact .raise n s he
  · exact .refl n s

/-- Writes of a decoder's counts leave its events and the decoders. -/
theorem State.DecodesAt.of_counts (h : s.WritesIn t fun a => decMay n a ∧ a % 0x1000 ≠ 0x010) (hd : t.hdec = s.hdec) : s.DecodesAt n t :=
  ⟨h.mono fun _ ha => ha.1, .of_writes h fun _ ha => ha.2, fun m _ => by unfold State.dec; rw [hd]⟩

theorem State.DecodesAt.countBy (n : Nat) (s : State) {f : Fld} (k : Nat) (h : 0x064 ≤ f.off ∧ f.off < 0x078) :
    s.DecodesAt n (s.countBy (Pg.hdec n) f k) :=
  .of_counts (.countBy (.refl s _) k ⟨decMay_count h.1 h.2, by unfold keyOf; omega⟩) ((s.countBy_touches _ _ _).same .hdec (by decide))

theorem State.DecodesAt.setFld (n : Nat) (s : State) {f : Fld} (k : Nat) (h : 0x064 ≤ f.off ∧ f.off < 0x078) :
    s.DecodesAt n (s.setFld (Pg.hdec n) f k) :=
  .of_counts (.setFld (.refl s _) k ⟨decMay_count h.1 h.2, by unfold keyOf; omega⟩) ((s.setFld_touches _ _ _).same .hdec (by decide))

theorem State.DecodesAt.putDec (n : Nat) (s : State) (h : HdecSt) : s.DecodesAt n (s.putDec n h) :=
  ⟨.of_regs (.refl s _) rfl, .of_writes (P := fun _ => False) (.of_regs (.refl s _) rfl) (fun _ => False.elim),
    fun m hm => Tbl.get_put_ne s.hdec n h m hm⟩

/-- Where only DRAM changes, nothing of the decoders does. -/
theorem State.DecodesAt.of_dram (h : s.Touches t [.dram]) : s.DecodesAt n t :=
  .of_counts (.of_regs (.refl s _) (h.same .regs (by decide))) (h.same .hdec (by decide))

theorem State.decOutput_decodes (s : State) (n : Nat) (p : DecPic) : s.DecodesAt n (s.decOutput n p) := by
  unfold State.decOutput
  extract_lets g h j a gen flags luma chroma s1 s2
  have h1 : s.DecodesAt n s1 := .of_dram (.foldl (.refl s _) (fun u e => u.pokeN_touches _ _) _)
  have h2 : s1.DecodesAt n s2 := .putDec n s1 _
  have h3 := State.DecodesAt.setFld n s2 (f := Reg.HDEC_LAST_FRAME_LO) p.frame (by decide)
  have h4 := State.DecodesAt.setFld n (s2.setFld g Reg.HDEC_LAST_FRAME_LO p.frame) (f := Reg.HDEC_LAST_FRAME_HI) (p.frame / 2 ^ 32) (by decide)
  have h5 := State.DecodesAt.setFld n (s2.setFld64 g Reg.HDEC_LAST_FRAME_LO Reg.HDEC_LAST_FRAME_HI p.frame) (f := Reg.HDEC_LAST_FLAGS) flags
    (by decide)
  exact ((((h1.trans h2).trans h3).trans h4).trans h5).trans (.raise n _ (by decide))

theorem State.bump_decodes (s : State) (n : Nat) (more : List DecPic → Bool) (m : Nat) : s.DecodesAt n (s.bump n more m) := by
  induction m generalizing s with
  | zero => exact .refl n s
  | succ m ih =>
    unfold State.bump
    dsimp only
    split
    · split
      · exact ((State.DecodesAt.putDec n s _).trans (State.decOutput_decodes _ n _)).trans (ih _)
      · exact .refl n s
    · exact .refl n s

theorem State.decodePic_decodes (s : State) (n : Nat) (a : AuSet) : s.DecodesAt n (s.decodePic n a) := by
  unfold State.decodePic
  extract_lets g h q irap restart poc named held known missing made old kept gen s1 s2 full s3 h3 refs input ok lost p0 planes p bad s4 aged anchor s5
  have h1 : s.DecodesAt n s1 := (State.DecodesAt.countBy n s _ (by decide)).trans (.raiseIf n _ _ (by decide))
  have h2 : s1.DecodesAt n s2 := .putDec n s1 _
  have h3 : s2.DecodesAt n s3 := by
    unfold s3
    split <;> exact State.bump_decodes _ n _ _
  have h4 : s3.DecodesAt n s4 := (State.DecodesAt.countBy n s3 _ (by decide)).trans (.raiseIf n _ _ (by decide))
  have h5 : s4.DecodesAt n s5 := .putDec n s4 _
  exact ((((h1.trans h2).trans h3).trans h4).trans h5).trans (State.bump_decodes _ n _ _)

theorem State.concealPic_decodes (s : State) (n frame : Nat) (crcBad : Bool) : s.DecodesAt n (s.concealPic n frame crcBad) := by
  unfold State.concealPic
  extract_lets g h s1
  have h1 : s.DecodesAt n s1 := .raise n s (by decide)
  clear_value s1 h
  split
  · exact h1.trans (.putDec n s1 _)
  · extract_lets flags p ctbs
    exact ((h1.trans (.countBy n s1 _ (by decide))).trans (.putDec n _ _)).trans (State.bump_decodes _ n _ _)

theorem State.decodeAu_decodes (s : State) (n frame : Nat) (au : List Byte) (crcBad : Bool) : s.DecodesAt n (s.decodeAu n frame au crcBad) := by
  unfold State.decodeAu
  extract_lets g us h s1 slices fresh
  have h1 : s.DecodesAt n s1 := (State.DecodesAt.putDec n s h).trans (.raiseIf n _ _ (by decide))
  have hdrop : s1.DecodesAt n (s1.discardAu n) := .putDec n s1 _
  have hbad := h1.trans (hdrop.trans (.raise n _ (e := Reg.HDEC_EVENT_UNSUPPORTED) (by decide)))
  have hconceal := h1.trans (s1.concealPic_decodes n frame crcBad)
  clear_value slices fresh s1 h
  split
  · split
    · exact hbad
    · exact h1
  · extract_lets t skip
    split
    · split
      · exact h1.trans hdrop
      · exact hconceal
    · split
      · exact hbad
      · split
        · exact h1.trans hdrop
        · split
          · exact h1
          · split
            · exact hconceal
            · exact (h1.trans (.putDec n s1 _)).trans (State.decodePic_decodes _ n _)

/-! ### An access unit without a picture -/

/-- An access unit without slices and sequence parameter sets leaves its parameter sets. -/
theorem State.decodeAu_of_sets {frame : Nat} {au : List Byte} {bad : Bool} (hs : (splitNals au).filter (fun u => isSlice (nalType u)) = [])
    (hp : (splitNals au).any (fun u => decide (nalType u = 33)) = false) :
    s.decodeAu n frame au bad = (s.putDec n ((s.dec n).keepSets (splitNals au))).raiseIf ((splitNals au).any badSet) (Pg.hdec n)
      Reg.HDEC_EVENT_SYNTAX_ERR := by
  have hfresh : ∀ g : List Byte → Bool, ((splitNals au).any fun u => decide (nalType u = 33) && g u) = false := fun g => by
    rw [List.any_eq_false] at hp ⊢
    intro x hx
    rw [Bool.and_eq_true]
    exact fun h => hp x hx h.1
  unfold State.decodeAu
  extract_lets g us h s1 slices fresh
  have hf : fresh = false := hfresh _
  have hsl : slices = [] := hs
  simp only [hsl, hf, Bool.false_eq_true, if_false]
  rfl

/-- A picture whose sequence parameter set is not allowed is discarded. -/
theorem State.decodeAu_of_unfit {frame : Nat} {au u : List Byte} {l : List (List Byte)} {bad : Bool} {q : SpsSet} {su pu : List Byte}
    {hd : Option HeadSet} (hs : (splitNals au).filter (fun u => isSlice (nalType u)) = u :: l)
    (hq : ((s.dec n).keepSets (splitNals au)).slice u = some (q, su, pu, hd)) (hfit : s.spsFits n q = false) :
    s.decodeAu n frame au bad = (((s.putDec n ((s.dec n).keepSets (splitNals au))).raiseIf ((splitNals au).any badSet) (Pg.hdec n)
      Reg.HDEC_EVENT_SYNTAX_ERR).discardAu n).raise (Pg.hdec n) Reg.HDEC_EVENT_UNSUPPORTED := by
  unfold State.decodeAu
  extract_lets g us h s1 slices fresh
  have hsl : slices = u :: l := hs
  have hsu : h.slice u = some (q, su, pu, hd) := hq
  simp only [hsl, hsu, hfit, Bool.not_false, Bool.or_true, if_true]
  rfl

/-! ### A record of the input ring -/

/-- The state once the record at the front of the ring is taken. -/
def State.hdecTaken (s : State) (n : Nat) : State :=
  s.setFld (Pg.hdec n) Reg.HDEC_IN_CONS (ringNext (s.fld (Pg.hdec n) Reg.HDEC_IN_CONS) (s.fld (Pg.hdec n) Reg.HDEC_IN_CFG_COUNT))

/-- The address of that record. -/
def State.hdecAt (s : State) (n : Nat) : Nat :=
  4096 * s.fld (Pg.hdec n) Reg.HDEC_IN_BASE_LO + 2 ^ 32 * s.fld (Pg.hdec n) Reg.HDEC_IN_BASE_HI
    + s.fld (Pg.hdec n) Reg.HDEC_IN_CONS * (4096 * s.fld (Pg.hdec n) Reg.HDEC_IN_CFG_PAGES)

/-- A record header that does not hold. -/
abbrev badHeader (b : List Byte) : Prop := leAt b 0 4 ≠ 0x45485A4B ∨ leAt b 4 2 ≠ 1 ∨ leAt b 0x3C 4 ≠ crc32c (b.take 0x3C)

section
variable (hn : n < 2) (hm : s.ctl.mode = .review) (hen : s.on (Pg.hdec n) Reg.HDEC_CTRL_ENABLE = true)
  (hp : s.fld (Pg.hdec n) Reg.HDEC_IN_PROD ≠ s.fld (Pg.hdec n) Reg.HDEC_IN_CONS)
  (hg : ¬ (n = 1 ∧ s.on (Pg.hdec 0) Reg.HDEC_CTRL_GANG = true))
include hn hm hen hp hg

theorem State.hdec_has_record : ¬ (s.ctl.mode ≠ .review ∨ 2 ≤ n ∨ s.on (Pg.hdec n) Reg.HDEC_CTRL_ENABLE = false
    ∨ s.fld (Pg.hdec n) Reg.HDEC_IN_PROD = s.fld (Pg.hdec n) Reg.HDEC_IN_CONS ∨ (n = 1 ∧ s.on (Pg.hdec 0) Reg.HDEC_CTRL_GANG = true)) := by
  rw [hm, hen]
  rintro (h | h | h | h | h)
  exacts [h rfl, absurd h (by omega), Bool.noConfusion h, hp h, hg h]

variable {b au : List Byte} (hb : b = s.peekN (s.hdecAt n) 64)
include hb

theorem State.hdecDone_of_bad (h : badHeader b) :
    s.hdecDone n = ((s.hdecTaken n).putDec n { s.dec n with broken := true }).raise (Pg.hdec n) Reg.HDEC_EVENT_REC_ERR := by
  unfold State.hdecDone
  extract_lets g cons a b' s1
  have hb' : b' = b := hb.symm
  rw [if_neg (State.hdec_has_record hn hm hen hp hg), hb', if_pos h]
  rfl

theorem State.hdecDone_of_good (h : ¬ badHeader b)
    (hau : au = s.peekN (s.hdecAt n + 64) (min (leAt b 0x18 4) (4096 * s.fld (Pg.hdec n) Reg.HDEC_IN_CFG_PAGES - 64))) :
    s.hdecDone n = ((s.hdecTaken n).raiseIf (decide (crc32c au ≠ leAt b 0x28 4)) (Pg.hdec n) Reg.HDEC_EVENT_CRC_ERR).decodeAu n
      (leAt b 8 8) au (decide (crc32c au ≠ leAt b 0x28 4)) := by
  unfold State.hdecDone
  extract_lets g cons a b' s1 s1' len au' bad
  have hb' : b' = b := hb.symm
  have hau' : au' = au := by
    rw [hau, ← hb']
    rfl
  have hbad : bad = decide (crc32c au ≠ leAt b 0x28 4) := by
    rw [← hb', ← hau']
  have hs1 : s1 = s.hdecTaken n := rfl
  rw [if_neg (State.hdec_has_record hn hm hen hp hg), hb', if_neg h, hbad, hau', hs1]

end

/-! ### What a record leaves -/

theorem State.hdecTaken_effect (hu : u = s.hdecTaken n) :
    u.fld (Pg.hdec n) Reg.HDEC_IN_CONS =
        ringNext (s.fld (Pg.hdec n) Reg.HDEC_IN_CONS) (s.fld (Pg.hdec n) Reg.HDEC_IN_CFG_COUNT) % 2 ^ Reg.HDEC_IN_CONS.width
      ∧ s.WritesIn u (· = keyOf Reg.HDEC_IN_CONS (Pg.hdec n)) ∧ u = { s with regs := u.regs } := by
  rw [hu]
  exact ⟨State.fld_setFld_same _ _ _ _ (by decide), .setFld (.refl s _) _ rfl, rfl⟩

/-- Decoding leaves the front of the ring where it is. -/
theorem State.DecodesAt.cons (h : s.DecodesAt n t) : t.fld (Pg.hdec n) Reg.HDEC_IN_CONS = s.fld (Pg.hdec n) Reg.HDEC_IN_CONS :=
  h.writes.fld fun hm => by
    have ho : keyOf Reg.HDEC_IN_CONS (Pg.hdec n) % 0x1000 = 0x050 := by
      show (Pg.hdec n * 0x1000 + 0x050) % 0x1000 = 0x050
      omega
    obtain ⟨-, h⟩ := hm
    omega

/-- What a decoder writes stands on its page. -/
theorem onPages_hdec (hn : n < 2) {a : Nat} (h : a / 0x1000 = Pg.hdec n) : onPages [Pg.hdec n] a := by
  unfold onPages
  rw [h, Nat.mod_eq_of_lt (by show 0x08C + n < 1024; omega)]
  exact List.mem_singleton_self _

/-- A record with a bad header is discarded. -/
theorem State.hdecBad_effect
    (ht : t = ((s.hdecTaken n).putDec n { s.dec n with broken := true }).raise (Pg.hdec n) Reg.HDEC_EVENT_REC_ERR) :
    t.fld (Pg.hdec n) Reg.HDEC_EVENT_REC_ERR = 1 ∧ t.dec n = { s.dec n with broken := true } ∧ t = { s.regsOf t with hdec := t.hdec }
      ∧ s.KeepsRegs t [keyOf Reg.HDEC_IN_CONS (Pg.hdec n), keyOf Reg.HDEC_EVENT_REC_ERR (Pg.hdec n)] := by
  obtain ⟨u, hu⟩ : ∃ u, u = s.hdecTaken n := ⟨_, rfl⟩
  obtain ⟨-, h2, h3⟩ := State.hdecTaken_effect hu
  obtain ⟨v, hv⟩ : ∃ v, v = u.putDec n { s.dec n with broken := true } := ⟨_, rfl⟩
  rw [← hu, ← hv] at ht
  have hvd : v.dec n = { s.dec n with broken := true } := hv ▸ Tbl.get_put_same ..
  have hvf : v = { s with regs := v.regs, hdec := v.hdec } := by rw [hv, h3]; rfl
  have hto : v.Touches t [.regs, .ctlLatches] := ht ▸ State.raise_touches _ _ _
  have hfr : t = v.regsOf t := hto.eq_mix
  have hwv : s.WritesIn v (· = keyOf Reg.HDEC_IN_CONS (Pg.hdec n)) := h2.of_regs (hv ▸ (u.putDec_touches n _).same .regs (by decide))
  refine ⟨ht ▸ State.fld_raise_same _ _ _ (by decide) rfl, ?_, ?_, ?_⟩
  · rw [← hvd]
    unfold State.dec
    rw [hto.same .hdec (by decide)]
  · rw [hfr, hvf]
    rfl
  · rw [ht]
    have h : s.WritesIn v (· ∈ [keyOf Reg.HDEC_IN_CONS (Pg.hdec n), keyOf Reg.HDEC_EVENT_REC_ERR (Pg.hdec n)]) :=
      hwv.mono fun a ha => List.mem_cons.2 (.inl ha)
    exact State.WritesIn.keepsRegs (h.raise (List.mem_cons_of_mem _ (List.mem_singleton_self _)))

/-- A record with a good header is decoded. -/
theorem State.hdecGood_effect {c : Bool} {frame : Nat} {au : List Byte}
    (ht : t = ((s.hdecTaken n).raiseIf c (Pg.hdec n) Reg.HDEC_EVENT_CRC_ERR).decodeAu n frame au c) :
    (s.hdecTaken n).DecodesAt n t ∧ (c = true → t.fld (Pg.hdec n) Reg.HDEC_EVENT_CRC_ERR = 1)
      ∧ ((splitNals au).filter (fun u => isSlice (nalType u)) = [] → (splitNals au).any (fun u => decide (nalType u = 33)) = false →
          t.dec n = (s.dec n).keepSets (splitNals au) ∧ t.dram = s.dram)
      ∧ (∀ u l q su pu hd, (splitNals au).filter (fun u => isSlice (nalType u)) = u :: l →
          ((s.dec n).keepSets (splitNals au)).slice u = some (q, su, pu, hd) → s.spsFits n q = false →
          t.fld (Pg.hdec n) Reg.HDEC_EVENT_UNSUPPORTED = 1 ∧ t.dram = s.dram
            ∧ t.dec n = { (s.dec n).keepSets (splitNals au) with
                skipping := true, broken := true, lost := ((s.dec n).keepSets (splitNals au)).lost + 1 })
      ∧ t = { s.regsOf t with dram := t.dram, hdec := t.hdec } := by
  obtain ⟨w, hw⟩ : ∃ w, w = s.hdecTaken n := ⟨_, rfl⟩
  obtain ⟨-, h2, h3⟩ := State.hdecTaken_effect hw
  obtain ⟨v, hv⟩ : ∃ v, v = w.raiseIf c (Pg.hdec n) Reg.HDEC_EVENT_CRC_ERR := ⟨_, rfl⟩
  rw [← hw, ← hv] at ht
  rw [← hw]
  have hdv : w.DecodesAt n v := hv ▸ .raiseIf n w c (by decide)
  have hdt : v.DecodesAt n t := ht ▸ State.decodeAu_decodes v n frame au c
  have hto : w.Touches v [.regs, .ctlLatches] := hv ▸ State.raiseIf_touches _ _ _ _
  have hvf : v = s.regsOf v := by
    have h : v = w.regsOf v := hto.eq_mix
    rw [h, h3]
    rfl
  have hvd : v.dec n = s.dec n := by rw [hvf]; rfl
  have hdram : v.dram = s.dram := by rw [hvf]; rfl
  have hfit (q : SpsSet) : v.spsFits n q = s.spsFits n q := by
    have hmax (f : Fld) (h : f.off = 0x060) : v.fld (Pg.hdec n) f = s.fld (Pg.hdec n) f := by
      rw [hdv.writes.fld (by unfold decMay keyOf; omega), h2.fld (by simp only [keyOf]; omega)]
    unfold State.spsFits
    simp only [hmax Reg.HDEC_OUT_MAX_W rfl, hmax Reg.HDEC_OUT_MAX_H rfl]
  have htt : v.Touches t [.regs, .ctlLatches, .hdec, .dram] := ht ▸ State.decodeAu_touches v n frame au c
  have hfr : t = { v.regsOf t with hdec := t.hdec, dram := t.dram } := htt.eq_mix
  refine ⟨hdv.trans hdt, fun hc => hdt.events _ _ rfl rfl (by decide) ?_, fun hs hp => ?_, fun u l q su pu hd hs hq hf => ?_, ?_⟩
  · rw [hv, hc]
    exact State.fld_raise_same _ _ _ (by decide) rfl
  · rw [State.decodeAu_of_sets hs hp, hvd] at ht
    obtain ⟨x, hx⟩ : ∃ x, x = v.putDec n ((s.dec n).keepSets (splitNals au)) := ⟨_, rfl⟩
    have hxd : x.dec n = (s.dec n).keepSets (splitNals au) := hx ▸ Tbl.get_put_same ..
    rw [← hx] at ht
    have hxt : x.Touches t [.regs, .ctlLatches] := ht ▸ State.raiseIf_touches _ _ _ _
    refine ⟨?_, ?_⟩
    · rw [← hxd]
      unfold State.dec
      rw [hxt.same .hdec (by decide)]
    · rw [hxt.same .dram (by decide), ← hdram, hx]
      rfl
  · rw [State.decodeAu_of_unfit hs (by rw [hvd]; exact hq) ((hfit q).trans hf), hvd] at ht
    obtain ⟨x, hx⟩ : ∃ x, x = (v.putDec n ((s.dec n).keepSets (splitNals au))).raiseIf ((splitNals au).any badSet) (Pg.hdec n)
      Reg.HDEC_EVENT_SYNTAX_ERR := ⟨_, rfl⟩
    obtain ⟨y, hy⟩ : ∃ y, y = x.discardAu n := ⟨_, rfl⟩
    have hxt : (v.putDec n ((s.dec n).keepSets (splitNals au))).Touches x [.regs, .ctlLatches] := hx ▸ State.raiseIf_touches _ _ _ _
    have hxd : x.dec n = (s.dec n).keepSets (splitNals au) := by
      have h : (v.putDec n ((s.dec n).keepSets (splitNals au))).dec n = (s.dec n).keepSets (splitNals au) := Tbl.get_put_same ..
      exact (congrArg (fun l : Tbl HdecSt => l.get n) (hxt.same .hdec (by decide))).trans h
    have hyd : y.dec n = { x.dec n with skipping := true, broken := true, lost := (x.dec n).lost + 1 } := hy ▸ Tbl.get_put_same ..
    rw [← hx, ← hy] at ht
    have hyt : y.Touches t [.regs, .ctlLatches] := ht ▸ State.raise_touches _ _ _
    refine ⟨ht ▸ State.fld_raise_same _ _ _ (by decide) rfl, ?_, ?_⟩
    · rw [hyt.same .dram (by decide), hy, (x.discardAu_touches n).same .dram (by decide), hxt.same .dram (by decide), ← hdram]
      rfl
    · rw [← hxd, ← hyd]
      unfold State.dec
      rw [hyt.same .hdec (by decide)]
  · rw [hfr, hvf]
    rfl

/-! ### The obligation -/

theorem writeHdecInProd_of_accepts {r : Req} {v : Word} (hn : n < 2) (h : s.accepts r (Pg.hdec n) 0x04C v = true) :
    writeHdecInProd r n v s = if n = 1 ∧ s.on (Pg.hdec 0) Reg.HDEC_CTRL_GANG = true then s.reject (Pg.hdec 1)
      else s.wr (keyOf Reg.HDEC_IN_PROD (Pg.hdec n)) (s.written r (Pg.hdec n) 0x04C v) := by
  have hstore : plainStore r (Pg.hdec n) 0x04C s (s.rd (bankPage r (Pg.hdec n) 0x04C * 0x1000 + 0x04C)) (s.written r (Pg.hdec n) 0x04C v)
      = s.wr (keyOf Reg.HDEC_IN_PROD (Pg.hdec n)) (s.written r (Pg.hdec n) 0x04C v) := by
    generalize s.written r (Pg.hdec n) 0x04C v = w
    rcases (by omega : n = 0 ∨ n = 1) with rfl | rfl
    · have hlo : isLo (Pg.hdec 0) 0x04C = false ∧ isLo (Pg.hdec 0) (0x04C - 4) = false := by decide
      have hbank : bankPage r (Pg.hdec 0) 0x04C = Pg.hdec 0 := rfl
      rw [plainStore, hbank, State.store]
      simp only [hlo, Bool.false_eq_true, if_false, and_false]
      rfl
    · have hlo : isLo (Pg.hdec 1) 0x04C = false ∧ isLo (Pg.hdec 1) (0x04C - 4) = false := by decide
      have hbank : bankPage r (Pg.hdec 1) 0x04C = Pg.hdec 1 := rfl
      rw [plainStore, hbank, State.store]
      simp only [hlo, Bool.false_eq_true, if_false, and_false]
      rfl
  unfold writeHdecInProd
  rw [if_neg (by omega), withWrite_of_accepts _ h, hstore]

/-- Settles O40: a record that is handed over begins its frame; one that is done leaves its samples in the output slot, and an HEVC record its
parameter sets, its picture or an error. -/
theorem decoding : Obligations.Decoding := by
  unfold Obligations.Decoding
  refine ⟨?idle, ?begins, ?done, ?inProd, ?gang, ?record⟩
  case idle =>
    intro s r v hacc hm
    have hm' : (s.wr (keyOf Reg.DRDEC_IN_PROD Pg.drdec) (s.written r Pg.drdec 0x04C v)).ctl.mode ≠ .review := hm
    refine ⟨_, congrArg Host.Outcome.next ((writeDrdecInProd_of_accepts hacc).trans (State.drdecBegin_of_mode hm')), ?_, rfl, ?_⟩
    · exact s.fld_wr_same _ rfl
    · exact State.WritesIn.keepsRegs (.wr (.refl s _) _ (List.mem_singleton_self _))
  case begins =>
    intro s r v b hacc hm hok hen hc hf hne hb
    obtain ⟨t, ht⟩ : ∃ t, t = (s.wr (keyOf Reg.DRDEC_IN_PROD Pg.drdec) (s.written r Pg.drdec 0x04C v)).drdecBegin := ⟨_, rfl⟩
    exact ⟨t, congrArg Host.Outcome.next ((writeDrdecInProd_of_accepts hacc).trans ht.symm), State.drdecInProd_effect hm hok hen hc hf hne hb ht⟩
  case done =>
    intro s f ok hc hm hok
    obtain ⟨t, ht⟩ : ∃ t, t = s.drdecDone := ⟨_, rfl⟩
    exact ⟨t, congrArg Host.Outcome.next ht.symm, State.drdecDone_effect hc hm hok ht⟩
  case inProd =>
    intro s r n v hn hacc hg
    refine ⟨_, congrArg Host.Outcome.next ((writeHdecInProd_of_accepts hn hacc).trans (if_neg hg)), ?_, rfl, ?_⟩
    · exact s.fld_wr_same _ rfl
    · exact State.WritesIn.keepsRegs (.wr (.refl s _) _ (List.mem_singleton_self _))
  case gang =>
    intro s r v hacc hg
    exact ⟨_, congrArg Host.Outcome.next ((writeHdecInProd_of_accepts (by decide) hacc).trans (if_pos ⟨rfl, hg⟩)), s.rejected_reject _⟩
  case record =>
    intro s n a b au hn hm hen hp hg ha hb hau
    obtain ⟨t, ht⟩ : ∃ t, t = s.hdecDone n := ⟨_, rfl⟩
    have hb' : b = s.peekN (s.hdecAt n) 64 := by rw [hb, ha]; rfl
    have hau' : au = s.peekN (s.hdecAt n + 64) (min (leAt b 0x18 4) (4096 * s.fld (Pg.hdec n) Reg.HDEC_IN_CFG_PAGES - 64)) := by rw [hau, ha]; rfl
    obtain ⟨hcons, hwcons, hframe⟩ := State.hdecTaken_effect (s := s) (n := n) rfl
    have hpages (hd : (s.hdecTaken n).DecodesAt n t) : s.WritesIn t (onPages [Pg.hdec n]) :=
      (hwcons.mono fun a h => onPages_hdec hn (by rw [h]; show (Pg.hdec n * 0x1000 + 0x050) / 0x1000 = Pg.hdec n; omega)).trans (hd.writes.mono fun a h => onPages_hdec hn h.1)
    have hother (hd : (s.hdecTaken n).DecodesAt n t) : t.dec (1 - n) = s.dec (1 - n) := (hd.other (1 - n) (by omega)).trans (by rw [hframe]; rfl)
    refine ⟨t, congrArg Host.Outcome.next ht.symm, ?_⟩
    by_cases hbad : badHeader b
    · rw [State.hdecDone_of_bad hn hm hen hp hg hb' hbad] at ht
      obtain ⟨e1, e2, e3, e4⟩ := State.hdecBad_effect ht
      have hd : (s.hdecTaken n).DecodesAt n t := by
        rw [ht]
        exact (State.DecodesAt.putDec n _ _).trans (.raise n _ (by decide))
      refine ⟨hd.cons.trans hcons, fun _ => ⟨e1, e2, e3, e4⟩, fun h1 h2 h3 => ?_, ?_, hother hd, (hpages hd).keepsPages⟩
      · exact absurd hbad (by rintro (h | h | h); exacts [h h1, h h2, h h3])
      · rw [e3]
        rfl
    · rw [State.hdecDone_of_good hn hm hen hp hg hb' hbad hau'] at ht
      obtain ⟨hd, e1, e2, e3, e4⟩ := State.hdecGood_effect ht
      exact ⟨hd.cons.trans hcons, fun h => absurd h hbad, fun _ _ _ => ⟨fun h => e1 (decide_eq_true h), e2, e3⟩, e4, hother hd,
        (hpages hd).keepsPages⟩

end Sys2Proof.Machine
end

section
/-! PROOFS. SOF, metadata, lines and the end of a frame (R107 to R109, R117, R135 to R137, R143). -/

set_option Elab.async false

namespace Sys2Proof.Machine

variable {s t u : State} {k : Nat} {f g : OpenFrame}

/-! ### Halves -/

theorem OpenFrame.half_setHalf (f : OpenFrame) (k : Nat) (h : Half) : (f.setHalf k h).half k = h := by
  unfold OpenFrame.setHalf OpenFrame.half
  split <;> rfl

theorem OpenFrame.half_setHalf_other (f : OpenFrame) {k : Nat} (hk : k < 2) (h : Half) : (f.setHalf k h).half (1 - k) = f.half (1 - k) := by
  rcases (by omega : k = 0 ∨ k = 1) with rfl | rfl <;> rfl

/-- A frame that differs in whether a half is degraded alone. -/
structure OpenFrame.DegradedTo (k : Nat) (f g : OpenFrame) : Prop where
  num : g.num = f.num
  slot : g.slot = f.slot
  status : (g.half k).status = (f.half k).status
  other : g.half (1 - k) = f.half (1 - k)

theorem OpenFrame.DegradedTo.refl (k : Nat) (f : OpenFrame) : f.DegradedTo k f := ⟨rfl, rfl, rfl, rfl⟩

theorem OpenFrame.DegradedTo.trans {h : OpenFrame} (a : f.DegradedTo k g) (b : g.DegradedTo k h) : f.DegradedTo k h :=
  ⟨b.num.trans a.num, b.slot.trans a.slot, b.status.trans a.status, b.other.trans a.other⟩

theorem OpenFrame.degradedTo (f : OpenFrame) (hk : k < 2) : f.DegradedTo k (f.setHalf k { f.half k with degraded := true }) := by
  rcases (by omega : k = 0 ∨ k = 1) with rfl | rfl <;> exact ⟨rfl, rfl, rfl, rfl⟩

/-! ### A degraded frame -/

/-- What holds as a port's frame is degraded. -/
structure State.Degrades (k : Nat) (s t : State) : Prop where
  writes : s.WritesIn t (· ∈ [keyOf Reg.LINK_DEGRADED_FRAMES (Pg.link k), keyOf Reg.LINK_EVENT_FRAME_DEGRADED (Pg.link k)])
  events : s.EventsStay t
  frame : t = { s.regsOf t with ingress := { s.ingress with openFrame := t.ingress.openFrame } }
  opened : ∀ f, s.ingress.openFrame = some f → ∃ g, t.ingress.openFrame = some g ∧ f.DegradedTo k g

theorem State.Degrades.refl (k : Nat) (s : State) : s.Degrades k s := ⟨.refl s _, .refl s, rfl, fun f h => ⟨f, h, .refl k f⟩⟩

theorem State.degrade_degrades (s : State) (hk : k < 2) : s.Degrades k (s.degrade k) := by
  unfold State.degrade
  cases ho : s.ingress.openFrame with
  | none => exact .refl k s
  | some f =>
    dsimp only
    split
    · exact .refl k s
    · obtain ⟨u, hu⟩ : ∃ u, u = s.setOpen (some (f.setHalf k { f.half k with degraded := true })) := ⟨_, rfl⟩
      rw [← hu]
      have hopen : u.ingress.openFrame = some (f.setHalf k { f.half k with degraded := true }) := by rw [hu]; rfl
      have huf : u = { s with ingress := { s.ingress with openFrame := u.ingress.openFrame } } := by rw [hu]; rfl
      have h0 : s.WritesIn u (· ∈ [keyOf Reg.LINK_DEGRADED_FRAMES (Pg.link k), keyOf Reg.LINK_EVENT_FRAME_DEGRADED (Pg.link k)]) :=
        .of_regs (.refl s _) (by rw [hu]; rfl)
      have hto := ((u.count_touches (Pg.link k) Reg.LINK_DEGRADED_FRAMES).mono rfl).trans
        (State.raise_touches _ (Pg.link k) Reg.LINK_EVENT_FRAME_DEGRADED)
      have hcount : u.WritesIn (u.count (Pg.link k) Reg.LINK_DEGRADED_FRAMES) (· = keyOf Reg.LINK_DEGRADED_FRAMES (Pg.link k)) :=
        .count (.refl u _) rfl
      have hev : s.EventsStay u := .of_writes (P := fun _ => False) (.of_regs (.refl s _) (by rw [hu]; rfl)) (fun _ => False.elim)
      have hev' : u.EventsStay (u.count (Pg.link k) Reg.LINK_DEGRADED_FRAMES) := .of_writes hcount fun a ha => by
        rw [ha]
        show (Pg.link k * 0x1000 + 0x074) % 0x1000 ≠ 0x010
        omega
      have hwr : s.WritesIn ((u.count (Pg.link k) Reg.LINK_DEGRADED_FRAMES).raise (Pg.link k) Reg.LINK_EVENT_FRAME_DEGRADED)
          (· ∈ [keyOf Reg.LINK_DEGRADED_FRAMES (Pg.link k), keyOf Reg.LINK_EVENT_FRAME_DEGRADED (Pg.link k)]) :=
        (h0.count (by simp)).raise (by simp)
      have hstay := (hev.trans hev').trans (.raise _ (Pg.link k) (e := Reg.LINK_EVENT_FRAME_DEGRADED) rfl)
      generalize (u.count (Pg.link k) Reg.LINK_DEGRADED_FRAMES).raise (Pg.link k) Reg.LINK_EVENT_FRAME_DEGRADED = t at *
      have hfr : t = u.regsOf t := hto.eq_mix
      refine ⟨hwr, hstay, ?_, fun x hx => ⟨f.setHalf k { f.half k with degraded := true }, ?_, ?_⟩⟩
      · rw [hfr, huf]
        rfl
      · rw [hfr]
        exact hopen
      · obtain rfl : f = x := Option.some.inj (ho.symm.trans hx)
        exact f.degradedTo hk

/-- A frame that is not yet degraded raises FRAME_DEGRADED. -/
theorem State.degrade_raises (ho : s.ingress.openFrame = some f) :
    (s.degrade k).fld (Pg.link k) Reg.LINK_EVENT_FRAME_DEGRADED = 1 ∨ (f.half k).degraded = true := by
  unfold State.degrade
  simp only [ho]
  split
  · exact .inr ‹_›
  · exact .inl (State.fld_raise_same _ _ _ (by decide) rfl)

theorem State.Degrades.ite {c : Prop} [Decidable c] (h : s.Degrades k t) : s.Degrades k (if c then s else t) := by
  split
  · exact .refl k s
  · exact h

theorem State.Degrades.trans (h : s.Degrades k t) (h' : t.Degrades k u) : s.Degrades k u :=
  ⟨h.writes.trans h'.writes, h.events.trans h'.events, by rw [h'.frame, h.frame]; rfl, fun f hf => by
    obtain ⟨g, hg, hfg⟩ := h.opened f hf
    obtain ⟨x, hx, hgx⟩ := h'.opened g hg
    exact ⟨x, hx, hfg.trans hgx⟩⟩

/-! ### A line -/

/-- The state once a port's segments are let go and a line that is concealed or lost is counted. -/
def State.lineCounted (s : State) (k st : Nat) : State :=
  let v := s.setPort k { s.port k with segs := [] }
  if st = 1 then v.count (Pg.link k) Reg.LINK_CONCEAL_LINES else if st = 2 then v.count (Pg.link k) Reg.LINK_LOST_LINES else v

/-- The values stored for a line of the window, with the number clamped. -/
def State.lineValues (s : State) (k y : Nat) (f : OpenFrame) (hs ls : List Nat) (st : Nat) : List Nat × Nat :=
  let cut := fun (l : List Nat) => (l.drop (s.window k).x).take (s.window k).w
  if st = 2 then (List.replicate (s.window k).w 0, 0)
  else if s.dgMode = 1 then s.mergeLine f.num k y (cut hs) (cut ls)
  else if s.dgMode = 3 then (cut ls, 0)
  else (cut hs, 0)

/-- The open frame once a line of the window has its status. -/
def OpenFrame.lined (f : OpenFrame) (k y st sat : Nat) (bad : Bool) : OpenFrame :=
  { f.setHalf k { f.half k with status := (f.half k).status.put y (st + 1) } with sat := f.sat + sat, formatErr := f.formatErr || bad }

theorem OpenFrame.status_lined (f : OpenFrame) (k y st sat : Nat) (bad : Bool) :
    ((f.lined k y st sat bad).half k).status = (f.half k).status.put y (st + 1) := by
  unfold OpenFrame.lined OpenFrame.setHalf OpenFrame.half
  split <;> rfl

/-- The state once that line is in the frame's slot. -/
def State.lineStored (s : State) (k y : Nat) (f g : OpenFrame) (vs : List Nat) (bad : Bool) : State :=
  match f.slot with
  | some j => ((s.setOpen (some g)).writeLine j k y vs).raiseIf bad Pg.ingress Reg.INGRESS_EVENT_FORMAT_ERR
  | none => s.setOpen (some g)

theorem State.storeLine_of_outside {line st : Nat} {hs ls : List Nat} {bad : Bool}
    (h : line < (s.window k).y ∨ (s.window k).y + (s.window k).h ≤ line) : s.storeLine k line f hs ls st bad = s := by
  unfold State.storeLine
  exact if_pos h

theorem State.storeLine_of_inside {line st st' y : Nat} {hs ls : List Nat} {bad : Bool}
    (h : ¬ (line < (s.window k).y ∨ (s.window k).y + (s.window k).h ≤ line)) (hy : y = line - (s.window k).y)
    (hst : st' = if bad then 2 else st) (hu : u = s.lineStored k y f (f.lined k y st' (s.lineValues k y f hs ls st').2 bad)
      (s.lineValues k y f hs ls st').1 bad) : s.storeLine k line f hs ls st bad = if st' = 0 then u else u.degrade k := by
  rw [hu, hst, hy]
  exact if_neg h

theorem State.rxEol_of_active {line : Nat} (hr : s.receives k = true) (hd : (s.port k).discard = false) (ho : s.ingress.openFrame = some f)
    (ha : (f.half k).active = true) {l : List Nat × List Nat × Nat × Bool} (hl : l = s.portLine k line)
    (hu : u = (s.lineCounted k l.2.2.1).storeLine k line f l.1 l.2.1 l.2.2.1 l.2.2.2) :
    s.rxEol k line = if l.2.2.1 = 0 then u else u.degrade k := by
  unfold State.rxEol
  simp only [ho]
  rw [if_neg (by simp [hr, hd, ha]), hu, hl]
  rfl

theorem State.lineCounted_effect {st : Nat} (hk : k < 2) (ht : t = s.lineCounted k st) :
    t.port k = { s.port k with segs := [] } ∧ t.port (1 - k) = s.port (1 - k)
      ∧ (st = 1 → t.fld (Pg.link k) Reg.LINK_CONCEAL_LINES =
          min (s.fld (Pg.link k) Reg.LINK_CONCEAL_LINES + 1) (2 ^ Reg.LINK_CONCEAL_LINES.width - 1))
      ∧ (st = 2 → t.fld (Pg.link k) Reg.LINK_LOST_LINES =
          min (s.fld (Pg.link k) Reg.LINK_LOST_LINES + 1) (2 ^ Reg.LINK_LOST_LINES.width - 1))
      ∧ t = { s with regs := t.regs, portA := t.portA, portB := t.portB }
      ∧ s.WritesIn t (· ∈ [keyOf Reg.LINK_CONCEAL_LINES (Pg.link k), keyOf Reg.LINK_LOST_LINES (Pg.link k)]) := by
  obtain ⟨v, hv⟩ : ∃ v, v = s.setPort k { s.port k with segs := [] } := ⟨_, rfl⟩
  have hp : v.port k = { s.port k with segs := [] } := hv ▸ s.port_setPort k _
  have hp' : v.port (1 - k) = s.port (1 - k) := hv ▸ s.port_setPort_other hk _
  have hvr : v.regs = s.regs := hv ▸ s.setPort_regs k _
  have hvf : v = { s with portA := v.portA, portB := v.portB } := hv ▸ (s.setPort_touches k _).eq_mix
  have hw : s.WritesIn v (· ∈ [keyOf Reg.LINK_CONCEAL_LINES (Pg.link k), keyOf Reg.LINK_LOST_LINES (Pg.link k)]) := .of_regs (.refl s _) hvr
  unfold State.lineCounted at ht
  rw [← hv] at ht
  have hcount (g : Fld) (hg : g.lo + g.width ≤ 32) : (v.count (Pg.link k) g).fld (Pg.link k) g = min (s.fld (Pg.link k) g + 1) (2 ^ g.width - 1) := by
    rw [State.fld_count_same _ _ _ hg, State.fld_congr hvr]
  have hcounted (g : Fld) : v.count (Pg.link k) g = { s with
      regs := (v.count (Pg.link k) g).regs, portA := (v.count (Pg.link k) g).portA, portB := (v.count (Pg.link k) g).portB } := by
    have h : v.count (Pg.link k) g = { v with regs := (v.count (Pg.link k) g).regs } := (v.count_touches _ _).eq_mix
    generalize v.count (Pg.link k) g = w at *
    rw [h, hvf]
  have hports (g : Fld) : (v.count (Pg.link k) g).port k = v.port k ∧ (v.count (Pg.link k) g).port (1 - k) = v.port (1 - k) :=
    ⟨(v.count_touches _ _).port (k := k), (v.count_touches _ _).port (k := 1 - k)⟩
  dsimp only at ht
  split at ht
  · rename_i h1
    rw [ht]
    exact ⟨(hports _).1.trans hp, (hports _).2.trans hp', fun _ => hcount _ (by decide), fun h => by omega, hcounted _, hw.count (by simp)⟩
  · rename_i h1
    split at ht
    · rw [ht]
      exact ⟨(hports _).1.trans hp, (hports _).2.trans hp', fun h => absurd h h1, fun _ => hcount _ (by decide), hcounted _, hw.count (by simp)⟩
    · rename_i h2
      rw [ht]
      refine ⟨hp, hp', fun h => absurd h h1, fun h => absurd h h2, ?_, hw⟩
      rw [hvf]

section
variable {n : Nat} (hn : n < 2)
  (h : s.WritesIn u (· ∈ [keyOf Reg.LINK_CONCEAL_LINES (Pg.link n), keyOf Reg.LINK_LOST_LINES (Pg.link n)]))
include hn h

/-- The counts of a port's lines are on its own page. -/
theorem State.fld_of_counts {p : Nat} {g : Fld} (hg : g.off < 0x1000) (hp : p = Pg.ingress ∨ p = Pg.dramctl) : u.fld p g = s.fld p g := by
  have hne : p ≠ Pg.link n := by
    simp only [Pg.ingress, Pg.dramctl, Pg.link] at hp ⊢
    omega
  refine h.fld ?_
  simp only [keyOf, List.mem_cons, List.not_mem_nil, or_false]
  omega

theorem State.window_of_counts (k : Nat) : u.window k = s.window k := by
  have hi (g : Fld) (hg : g.off < 0x1000) : u.fld Pg.ingress g = s.fld Pg.ingress g := State.fld_of_counts hn h hg (.inl rfl)
  unfold State.window
  simp (disch := decide) only [hi]

theorem State.dgMode_of_counts : u.dgMode = s.dgMode := State.fld_of_counts hn h (by decide) (.inl rfl)

/-- Where a line of a slot is written does not turn on the counts of a port's lines. -/
theorem State.writeLine_congr {j k y : Nat} {vs : List Nat} (hd : u.dram = s.dram) :
    (u.writeLine j k y vs).dram = (s.writeLine j k y vs).dram := by
  have hi (g : Fld) (hg : g.off < 0x1000) : u.fld Pg.ingress g = s.fld Pg.ingress g := State.fld_of_counts hn h hg (.inl rfl)
  have hdepth (p : Nat) : u.fld p Reg.LINK_CFG_DEPTH = s.fld p Reg.LINK_CFG_DEPTH := h.fld (by
    simp only [keyOf, List.mem_cons, List.not_mem_nil, or_false]
    omega)
  have hsrc : u.source = s.source := hi _ (by decide)
  have hports : u.portsUsed = s.portsUsed := by
    unfold State.portsUsed
    rw [hsrc]
  have hwin := State.window_of_counts hn h
  have hdg := State.dgMode_of_counts hn h
  have hsize : u.dramSize = s.dramSize := by
    unfold State.dramSize
    rw [State.fld_of_counts hn h (by decide) (.inr rfl)]
  have hraster : u.rasterW = s.rasterW ∧ u.rasterH = s.rasterH := by
    unfold State.rasterW State.rasterH
    simp only [hports, hwin, and_self]
  have hsd : u.storedDepth = s.storedDepth := by
    unfold State.storedDepth State.sensorDepth
    simp only [hdg, hports, hdepth]
  have hstride : u.stride = s.stride := by
    unfold State.stride
    rw [hraster.1, hsd]
  have hhalf : u.halfX k = s.halfX k := by
    unfold State.halfX State.pairMode
    simp only [hsrc, hwin]
  have haddr : u.slotAddr j = s.slotAddr j := by
    unfold State.slotAddr State.ringBase State.slotBytes
    simp (disch := decide) only [hi, hraster, hstride]
  unfold State.writeLine State.pokeN
  simp only [hsd, hhalf, hraster, hstride, haddr, hsize, hd]

end

theorem State.lineStored_effect {y : Nat} {vs : List Nat} {bad : Bool} (ht : t = s.lineStored k y f g vs bad) :
    t.ingress.openFrame = some g ∧ (f.slot = none → t.dram = s.dram) ∧ (∀ j, f.slot = some j → t.dram = (s.writeLine j k y vs).dram)
      ∧ s.WritesIn t (· = keyOf Reg.INGRESS_EVENT_FORMAT_ERR Pg.ingress)
      ∧ t = { s.regsOf t with dram := t.dram, ingress := { s.ingress with openFrame := t.ingress.openFrame } } := by
  unfold State.lineStored at ht
  cases hs : f.slot with
  | none =>
    simp only [hs] at ht
    refine ⟨by rw [ht]; rfl, fun _ => by rw [ht]; rfl, nofun, ?_, by rw [ht]; rfl⟩
    exact .of_regs (.refl s _) (by rw [ht]; rfl)
  | some j =>
    simp only [hs] at ht
    obtain ⟨v, hv⟩ : ∃ v, v = s.setOpen (some g) := ⟨_, rfl⟩
    obtain ⟨w, hw⟩ : ∃ w, w = v.writeLine j k y vs := ⟨_, rfl⟩
    rw [← hv, ← hw] at ht
    have hvr : v.regs = s.regs := by rw [hv]; rfl
    have hwf : w = { v with dram := w.dram } := hw ▸ (v.writeLine_touches j k y vs).eq_mix
    have hto : w.Touches t [.regs, .ctlLatches] := ht ▸ State.raiseIf_touches _ _ _ _
    have hfr : t = w.regsOf t := hto.eq_mix
    have hdram : w.dram = (s.writeLine j k y vs).dram := by
      rw [hw]
      exact State.writeLine_congr (n := 0) (by decide) (.of_regs (.refl s _) hvr) (by rw [hv]; rfl)
    refine ⟨?_, nofun, fun i hi => ?_, ?_, ?_⟩
    · rw [hfr, hwf, hv]
      rfl
    · obtain rfl := Option.some.inj hi
      rw [hfr]
      exact hdram
    · rw [ht]
      exact State.WritesIn.raiseIf (.of_regs (.refl s _) (by rw [hwf, hvr])) rfl
    · rw [hfr, hwf, hv]
      rfl

/-- The registers that a line's end writes. -/
def eolKeys (k : Nat) : List Nat := [keyOf Reg.LINK_CONCEAL_LINES (Pg.link k), keyOf Reg.LINK_LOST_LINES (Pg.link k)]
  ++ [keyOf Reg.LINK_DEGRADED_FRAMES (Pg.link k), keyOf Reg.LINK_EVENT_FRAME_DEGRADED (Pg.link k)]

theorem onPages_eolKeys (hk : k < 2) {a : Nat} (h : a ∈ eolKeys k) : onPages [Pg.link k] a := by
  simp only [eolKeys, List.mem_append, List.mem_cons, List.not_mem_nil, or_false] at h
  rcases h with (rfl | rfl) | rfl | rfl <;> exact onPages_single (by decide) (by show 0x040 + k < 1024; omega)

/-- A line of the window is stored with its status, and its segments are done with. -/
theorem State.rxEol_inside {line : Nat} {l : List Nat × List Nat × Nat × Bool} (hk : k < 2) (hr : s.receives k = true)
    (hd : (s.port k).discard = false) (ho : s.ingress.openFrame = some f) (ha : (f.half k).active = true) (hl : l = s.portLine k line)
    (hlo : (s.window k).y ≤ line) (hhi : line < (s.window k).y + (s.window k).h) (ht : t = s.rxEol k line) :
    t.port k = { s.port k with segs := [] } ∧ t.port (1 - k) = s.port (1 - k)
      ∧ (∃ g, t.ingress.openFrame = some g ∧ g.num = f.num ∧ g.slot = f.slot
          ∧ (g.half k).status.get (line - (s.window k).y) = (if l.2.2.2 then 2 else l.2.2.1) + 1 ∧ g.half (1 - k) = f.half (1 - k))
      ∧ (l.2.2.1 = 2 → l.2.2.2 = false → ∀ j, f.slot = some j →
          t.dram = (s.writeLine j k (line - (s.window k).y) (List.replicate (s.window k).w 0)).dram)
      ∧ (l.2.2.1 = 0 → l.2.2.2 = false → s.dgMode = 0 → ∀ j, f.slot = some j →
          t.dram = (s.writeLine j k (line - (s.window k).y) ((l.1.drop (s.window k).x).take (s.window k).w)).dram)
      ∧ (f.slot = none → t.dram = s.dram) ∧ (l.2.2.1 = 2 → t.fld (Pg.link k) Reg.LINK_LOST_LINES =
          min (s.fld (Pg.link k) Reg.LINK_LOST_LINES + 1) (2 ^ Reg.LINK_LOST_LINES.width - 1))
      ∧ (l.2.2.1 = 1 → t.fld (Pg.link k) Reg.LINK_CONCEAL_LINES =
          min (s.fld (Pg.link k) Reg.LINK_CONCEAL_LINES + 1) (2 ^ Reg.LINK_CONCEAL_LINES.width - 1))
      ∧ t = { s.regsOf t with
          portA := t.portA, portB := t.portB, dram := t.dram, ingress := { s.ingress with openFrame := t.ingress.openFrame } }
      ∧ s.KeepsPages t [Pg.link k, Pg.ingress] := by
  obtain ⟨hs, ls, st, bad⟩ := l
  dsimp only
  obtain ⟨u, hu⟩ : ∃ u, u = s.lineCounted k st := ⟨_, rfl⟩
  obtain ⟨c1, c2, c3, c4, c5, c6⟩ := State.lineCounted_effect hk hu
  have hwin := State.window_of_counts hk c6 k
  have hdg := State.dgMode_of_counts hk c6
  obtain ⟨y, hy⟩ : ∃ y, y = line - (s.window k).y := ⟨_, rfl⟩
  obtain ⟨st', hst⟩ : ∃ n, n = if bad then 2 else st := ⟨_, rfl⟩
  obtain ⟨w, hw⟩ : ∃ w, w = u.lineStored k y f (f.lined k y st' (u.lineValues k y f hs ls st').2 bad) (u.lineValues k y f hs ls st').1 bad :=
    ⟨_, rfl⟩
  obtain ⟨w1, w2, w3, w4, w5⟩ := State.lineStored_effect hw
  have hstore : u.storeLine k line f hs ls st bad = if st' = 0 then w else w.degrade k :=
    State.storeLine_of_inside (by rw [hwin]; omega) (by rw [hwin]; exact hy) hst hw
  obtain ⟨v, hv⟩ : ∃ v, v = if st' = 0 then w else w.degrade k := ⟨_, rfl⟩
  have hwv : w.Degrades k v := hv ▸ .ite (w.degrade_degrades hk)
  have hvt : v.Degrades k t := by
    rw [ht, State.rxEol_of_active hr hd ho ha hl (u := v) (by rw [hv, ← hstore, hu])]
    exact .ite (v.degrade_degrades hk)
  have hwt := hwv.trans hvt
  obtain ⟨x, hx, hgx⟩ := hwt.opened _ w1
  have htw : t = { w.regsOf t with ingress := { w.ingress with openFrame := t.ingress.openFrame } } := hwt.frame
  have hdram : t.dram = w.dram := by rw [htw]; rfl
  have hport (j : Nat) : t.port j = u.port j := State.port_congr (by rw [htw, w5]; rfl) (by rw [htw, w5]; rfl) j
  have hline (vs : List Nat) (j : Nat) : (u.writeLine j k y vs).dram = (s.writeLine j k y vs).dram := State.writeLine_congr hk c6 (by rw [c5])
  have hkeep (g : Fld) (h1 : g.off ≠ 0x074) (h2 : g.off ≠ 0x010) (h3 : g.off < 0x1000) : t.fld (Pg.link k) g = u.fld (Pg.link k) g := by
    have hne : keyOf g (Pg.link k) ∉ [keyOf Reg.LINK_DEGRADED_FRAMES (Pg.link k), keyOf Reg.LINK_EVENT_FRAME_DEGRADED (Pg.link k)] := by
      simp only [keyOf, List.mem_cons, List.not_mem_nil, or_false]
      omega
    have hne' : keyOf g (Pg.link k) ≠ keyOf Reg.INGRESS_EVENT_FORMAT_ERR Pg.ingress := by
      simp only [keyOf]
      omega
    rw [hwt.writes.fld hne, w4.fld hne']
  refine ⟨(hport k).trans c1, (hport _).trans c2, ⟨x, hx, ?_, ?_, ?_, ?_⟩, fun h2 hb j hj => ?_, fun h0 hb hdg0 j hj => ?_, fun hn => ?_,
    fun h2 => ?_, fun h1 => ?_, ?_, ?_⟩
  · rw [hgx.num]
    unfold OpenFrame.lined OpenFrame.setHalf
    split <;> rfl
  · rw [hgx.slot]
    unfold OpenFrame.lined OpenFrame.setHalf
    split <;> rfl
  · rw [hgx.status, ← hy, ← hst]
    rw [OpenFrame.status_lined]
    exact Tbl.get_put_same ..
  · rw [hgx.other]
    exact f.half_setHalf_other hk _
  · have h2' : st' = 2 := by rw [hst, h2, ite_self]
    rw [hdram, w3 j hj, hline, ← hy]
    unfold State.lineValues
    rw [if_pos h2', hwin]
  · have h0' : st' = 0 := by rw [hst, hb, if_neg Bool.false_ne_true, h0]
    rw [hdram, w3 j hj, hline, ← hy]
    unfold State.lineValues
    rw [if_neg (by omega), if_neg (by omega), if_neg (by omega), hwin]
  · rw [hdram, w2 hn, c5]
  · rw [hkeep _ (by decide) (by decide) (by decide), c4 h2]
  · rw [hkeep _ (by decide) (by decide) (by decide), c3 h1]
  · rw [htw, w5, c5]
    rfl
  · refine (((c6.mono fun a ha => ?_).trans (w4.mono fun a ha => ?_)).trans (hwt.writes.mono fun a ha => ?_)).keepsPages
    · exact onPages_mono (List.cons_subset_cons _ (List.nil_subset _)) (onPages_eolKeys hk (List.mem_append_left _ ha))
    · rw [ha]
      exact onPages_keyOf (by decide) (List.mem_cons_of_mem _ (List.mem_singleton_self _))
    · exact onPages_mono (List.cons_subset_cons _ (List.nil_subset _)) (onPages_eolKeys hk (List.mem_append_right _ ha))

/-- A line outside the window is let go. -/
theorem State.rxEol_outside {line : Nat} (hk : k < 2) (hr : s.receives k = true) (hd : (s.port k).discard = false)
    (ho : s.ingress.openFrame = some f) (ha : (f.half k).active = true)
    (hout : line < (s.window k).y ∨ (s.window k).y + (s.window k).h ≤ line) (ht : t = s.rxEol k line) :
    t.port k = { s.port k with segs := [] } ∧ t.port (1 - k) = s.port (1 - k)
      ∧ (∃ g, t.ingress.openFrame = some g ∧ (g.half k).status = (f.half k).status ∧ g.half (1 - k) = f.half (1 - k))
      ∧ t = { s.regsOf t with portA := t.portA, portB := t.portB, ingress := { s.ingress with openFrame := t.ingress.openFrame } }
      ∧ s.KeepsPages t [Pg.link k] := by
  obtain ⟨l, hl⟩ : ∃ l, l = s.portLine k line := ⟨_, rfl⟩
  obtain ⟨u, hu⟩ : ∃ u, u = s.lineCounted k l.2.2.1 := ⟨_, rfl⟩
  obtain ⟨c1, c2, -, -, c5, c6⟩ := State.lineCounted_effect hk hu
  have hwin := State.window_of_counts hk c6 k
  have hut : u.Degrades k t := by
    rw [ht, State.rxEol_of_active hr hd ho ha hl (u := u) (by rw [← hu, State.storeLine_of_outside (by rw [hwin]; exact hout)])]
    exact .ite (u.degrade_degrades hk)
  have huo : u.ingress.openFrame = some f := by rw [c5]; exact ho
  obtain ⟨g, hg, hfg⟩ := hut.opened f huo
  have htu : t = { u.regsOf t with ingress := { u.ingress with openFrame := t.ingress.openFrame } } := hut.frame
  have hport (j : Nat) : t.port j = u.port j := State.port_congr (by rw [htu]; rfl) (by rw [htu]; rfl) j
  refine ⟨(hport k).trans c1, (hport _).trans c2, ⟨g, hg, hfg.status, hfg.other⟩, ?_, ?_⟩
  · rw [htu, c5]
    rfl
  · refine ((c6.mono fun a ha => ?_).trans (hut.writes.mono fun a ha => ?_)).keepsPages
    · exact onPages_eolKeys hk (List.mem_append_left _ ha)
    · exact onPages_eolKeys hk (List.mem_append_right _ ha)

/-! ### A frame closes -/

/-- The registers that may change as a frame of some ports closes. -/
def closeMay (ks : List Nat) (a : Nat) : Prop := (a / 0x1000 = Pg.ingress ∧ a % 0x1000 ≠ 0x008) ∨ onPages (ks.map Pg.link) a

theorem closeMay_ingress {ks : List Nat} {g : Fld} (h : g.off < 0x1000 ∧ g.off ≠ 0x008) : closeMay ks (keyOf g Pg.ingress) := by
  refine .inl ?_
  simp only [keyOf]
  omega

theorem closeMay_link {ks : List Nat} (hk : k < 2) (h : k ∈ ks) {g : Fld} (hg : g.off < 0x1000) : closeMay ks (keyOf g (Pg.link k)) :=
  .inr (onPages_keyOf hg (by rw [Nat.mod_eq_of_lt (by show 0x040 + k < 1024; omega)]; exact List.mem_map_of_mem h))

/-- The ports whose lines are not all there are degraded. -/
def State.closeDegraded (s : State) (f : OpenFrame) : State :=
  s.portsUsed.foldl (fun s k => if (s.absentLines f k).isEmpty then s else s.degrade k) s

/-- The lines that are not there are stored as 0. -/
def State.closeBlank (s : State) (f : OpenFrame) (j : Nat) : State :=
  s.portsUsed.foldl (fun s k => (s.absentLines f k).foldl (fun (s : State) y => s.writeLine j k y (List.replicate (s.window k).w 0)) s) s

/-- The record of a frame that is written, and what shows it. -/
def State.recordKept (s : State) (f : OpenFrame) (a : Nat) (b : List Byte) (flags : Nat) (short : Bool) : State :=
  let v := ((s.pokeN a b).noteMeta f.num b).raiseIf short Pg.ingress Reg.INGRESS_EVENT_FRAME_SHORT
  (v.setIngress { v.ingress with ready := v.ingress.ready ++ [f.num] }).showRecord f flags

theorem State.closeFrame_of_dropped (ho : s.ingress.openFrame = some f) (hs : f.slot = none) :
    s.closeFrame = ((s.closeDegraded f).setOpen none).setFld Pg.ingress Reg.INGRESS_STATE_PHASE (if s.takesFrames then 1 else 0) := by
  unfold State.closeFrame
  simp only [ho, hs]
  rfl

theorem State.closeFrame_of_slot {j : Nat} (ho : s.ingress.openFrame = some f) (hs : f.slot = some j) : ∃ a b flags short, s.closeFrame =
    ((((s.closeDegraded f).closeBlank f j).recordKept f a b flags short).setOpen none).setFld Pg.ingress Reg.INGRESS_STATE_PHASE
      (if s.takesFrames then 1 else 0) := by
  unfold State.closeFrame
  simp only [ho, hs]
  exact ⟨_, _, _, _, rfl⟩

theorem State.foldl_degrade (c : State → Nat → Bool) (ks : List Nat) (hks : ∀ k ∈ ks, k < 2) (s : State)
    (ht : t = ks.foldl (fun s k => if c s k then s else s.degrade k) s) :
    s.WritesIn t (onPages (ks.map Pg.link)) ∧ s.EventsStay t
      ∧ t = { s.regsOf t with ingress := { s.ingress with openFrame := t.ingress.openFrame } } := by
  induction ks generalizing s with
  | nil =>
    rw [ht]
    exact ⟨.refl s _, .refl s, rfl⟩
  | cons k ks ih =>
    have hk := hks k List.mem_cons_self
    obtain ⟨u, hu⟩ : ∃ u, u = if c s k then s else s.degrade k := ⟨_, rfl⟩
    have hd : s.Degrades k u := by
      rw [hu]
      split
      · exact .refl k s
      · exact s.degrade_degrades hk
    obtain ⟨h1, h2, h3⟩ := ih (fun j hj => hks j (List.mem_cons_of_mem _ hj)) u (by rw [ht, List.foldl_cons, ← hu])
    refine ⟨(hd.writes.mono fun a ha => ?_).trans (h1.mono fun a ha => ?_), hd.events.trans h2, ?_⟩
    · exact onPages_mono (List.cons_subset_cons _ (List.nil_subset _)) (onPages_eolKeys hk (List.mem_append_right _ ha))
    · exact onPages_mono (List.subset_cons_self _ _) ha
    · rw [h3, hd.frame]
      rfl

theorem State.closeBlank_touches (s : State) (f : OpenFrame) (j : Nat) : s.Touches (s.closeBlank f j) [.dram] :=
  .foldl (.refl s _) (fun u _ => .foldl (.refl u _) (fun v _ => v.writeLine_touches _ _ _ _) _) _

theorem State.showRecord_effect {flags : Nat} (ht : t = s.showRecord f flags) :
    t.fld64 Pg.ingress Reg.INGRESS_LAST_FRAME_LO Reg.INGRESS_LAST_FRAME_HI = f.num % 2 ^ 64 ∧ s.WritesIn t (closeMay []) ∧ s.EventsStay t
      ∧ t = s.regsOf t := by
  have hto : s.Touches t [.regs, .ctlLatches] := ht ▸ s.showRecord_touches f flags
  obtain ⟨u, hu⟩ : ∃ u, u = s.setFld64 Pg.ingress Reg.INGRESS_LAST_FRAME_LO Reg.INGRESS_LAST_FRAME_HI f.num := ⟨_, rfl⟩
  have hlast : u.fld64 Pg.ingress Reg.INGRESS_LAST_FRAME_LO Reg.INGRESS_LAST_FRAME_HI = f.num % 2 ^ 64 :=
    hu ▸ s.fld64_setFld64 f.num (by decide) (by decide) rfl rfl (by decide)
  have hwu : s.WritesIn u (· ∈ [keyOf Reg.INGRESS_LAST_FRAME_LO Pg.ingress, keyOf Reg.INGRESS_LAST_FRAME_HI Pg.ingress]) :=
    hu ▸ .setFld64 (.refl s _) _ (by simp) (by simp)
  obtain ⟨v, hv⟩ : ∃ v, v = (u.setFld Pg.ingress Reg.INGRESS_LAST_FLAGS flags).setFld Pg.ingress Reg.INGRESS_SAT_COUNT
    (min (2 ^ 32 - 1) f.sat) := ⟨_, rfl⟩
  have hwv : u.WritesIn v (· ∈ [keyOf Reg.INGRESS_LAST_FLAGS Pg.ingress, keyOf Reg.INGRESS_SAT_COUNT Pg.ingress]) :=
    hv ▸ .setFld (.setFld (.refl u _) _ (by simp)) _ (by simp)
  have ht' : t = v.raiseIf (decide (0 < f.sat)) Pg.ingress Reg.INGRESS_EVENT_MERGE_SAT := by rw [ht, hv, hu]; rfl
  have hwt : v.WritesIn t (· = keyOf Reg.INGRESS_EVENT_MERGE_SAT Pg.ingress) := ht' ▸ .raiseIf (.refl v _) rfl
  have hev : v.EventsStay t := by
    rw [ht']
    unfold State.raiseIf
    split
    · exact .raise v _ rfl
    · exact .refl v
  refine ⟨?_, ?_, (State.EventsStay.trans (.of_writes hwu ?_) (.of_writes hwv ?_)).trans hev, hto.eq_mix⟩
  · rw [← hlast]
    unfold State.fld64
    rw [hwt.fld (by decide), hwt.fld (by decide), hwv.fld (by decide), hwv.fld (by decide)]
  · refine ((hwu.mono fun a ha => ?_).trans (hwv.mono fun a ha => ?_)).trans (hwt.mono fun a ha => ?_)
    · simp only [List.mem_cons, List.not_mem_nil, or_false] at ha
      rcases ha with rfl | rfl <;> exact closeMay_ingress (by decide)
    · simp only [List.mem_cons, List.not_mem_nil, or_false] at ha
      rcases ha with rfl | rfl <;> exact closeMay_ingress (by decide)
    · rw [ha]
      exact closeMay_ingress (by decide)
  all_goals
    intro a ha
    simp only [List.mem_cons, List.not_mem_nil, or_false] at ha
    rcases ha with rfl | rfl <;> decide

theorem State.recordKept_effect {a flags : Nat} {b : List Byte} {short : Bool} (ht : t = s.recordKept f a b flags short) :
    t.ingress.ready = s.ingress.ready ++ [f.num] ∧ t.fld64 Pg.ingress Reg.INGRESS_LAST_FRAME_LO Reg.INGRESS_LAST_FRAME_HI = f.num % 2 ^ 64
      ∧ s.WritesIn t (closeMay []) ∧ s.EventsStay t
      ∧ t = { s.regsOf t with
          dram := t.dram, media := { s.media with reel := { s.reel with metas := t.reel.metas } }
          ingress := { s.ingress with ready := t.ingress.ready } } := by
  obtain ⟨u, hu⟩ : ∃ u, u = (s.pokeN a b).noteMeta f.num b := ⟨_, rfl⟩
  have huf : u = { s with dram := u.dram, media := { s.media with reel := { s.reel with metas := u.reel.metas } } } := by
    rw [hu]
    unfold State.noteMeta
    dsimp only
    split <;> rfl
  obtain ⟨v, hv⟩ : ∃ v, v = u.raiseIf short Pg.ingress Reg.INGRESS_EVENT_FRAME_SHORT := ⟨_, rfl⟩
  have hvf : v = u.regsOf v := by
    have h : u.Touches v [.regs, .ctlLatches] := hv ▸ State.raiseIf_touches _ _ _ _
    exact h.eq_mix
  obtain ⟨w, hw⟩ : ∃ w, w = v.setIngress { v.ingress with ready := v.ingress.ready ++ [f.num] } := ⟨_, rfl⟩
  have hready : w.ingress.ready = s.ingress.ready ++ [f.num] := by rw [hw, hvf, huf]; rfl
  have hwf : w = { v with ingress := { v.ingress with ready := w.ingress.ready } } := by rw [hw]; rfl
  obtain ⟨h1, h2, h3, h4⟩ := State.showRecord_effect (s := w) (f := f) (flags := flags) (t := t) (by
    rw [ht, hw, hv, hu]
    rfl)
  have hwr : s.WritesIn w (closeMay []) := by
    have h : s.WritesIn v (closeMay []) := by
      rw [hv]
      exact State.WritesIn.raiseIf (.of_regs (.refl s _) (by rw [huf])) (closeMay_ingress (by decide))
    exact h.of_regs (by rw [hwf])
  have hev : s.EventsStay w := by
    have h0 : s.EventsStay u := .of_writes (P := fun _ => False) (.of_regs (.refl s _) (by rw [huf])) (fun _ => False.elim)
    have h1 : u.EventsStay v := by
      rw [hv]
      unfold State.raiseIf
      split
      · exact .raise u _ rfl
      · exact .refl u
    exact (h0.trans h1).trans (.of_writes (P := fun _ => False) (.of_regs (.refl v _) (by rw [hwf])) (fun _ => False.elim))
  refine ⟨by rw [h4]; exact hready, h1, hwr.trans h2, hev.trans h3, ?_⟩
  rw [h4, hwf, hvf, huf]
  rfl

theorem closeMay_nil {ks : List Nat} {a : Nat} (h : closeMay [] a) : closeMay ks a := h.elim .inl fun h => absurd h List.not_mem_nil

/-- The end of every close: nothing is open, and PHASE shows it. -/
theorem State.closed_effect {n : Nat} (hn : n < 4) (ht : t = (s.setOpen none).setFld Pg.ingress Reg.INGRESS_STATE_PHASE n) :
    t.ingress.openFrame = none ∧ t.fld Pg.ingress Reg.INGRESS_STATE_PHASE = n ∧ s.WritesIn t (· = keyOf Reg.INGRESS_STATE_PHASE Pg.ingress)
      ∧ t = { s with regs := t.regs, ingress := { s.ingress with openFrame := none } } := by
  obtain ⟨u, hu⟩ : ∃ u, u = s.setOpen none := ⟨_, rfl⟩
  have hur : u.regs = s.regs := by rw [hu]; rfl
  have huf : u = { s with ingress := { s.ingress with openFrame := none } } := hu
  rw [← hu] at ht
  have hto : u.Touches t [.regs] := ht ▸ u.setFld_touches _ _ _
  have hfr : t = { u with regs := t.regs } := hto.eq_mix
  have hframe : t = { s with regs := t.regs, ingress := { s.ingress with openFrame := none } } := by rw [hfr, huf]
  refine ⟨by rw [hframe], ht ▸ State.fld_setFld_of_width _ _ _ _ (by decide) hn, ?_, hframe⟩
  rw [ht]
  exact .setFld (.of_regs (.refl s _) hur) _ rfl

/-- What a frame that closes leaves: nothing of it is open, and its record is shown if it has a slot. -/
theorem State.closeFrame_effect (ho : s.ingress.openFrame = some f) (ht : t = s.closeFrame) :
    t.ingress.openFrame = none ∧ t.fld Pg.ingress Reg.INGRESS_STATE_PHASE = (if s.takesFrames then 1 else 0)
      ∧ (f.slot.isSome = true → t.ingress.ready = s.ingress.ready ++ [f.num]
          ∧ t.fld64 Pg.ingress Reg.INGRESS_LAST_FRAME_LO Reg.INGRESS_LAST_FRAME_HI = f.num % 2 ^ 64)
      ∧ (f.slot = none → t.ingress.ready = s.ingress.ready ∧ t.dram = s.dram)
      ∧ s.WritesIn t (closeMay s.portsUsed) ∧ s.EventsStay t ∧ (s.closeDegraded f).EventsStay t
      ∧ t = { s.regsOf t with
          dram := t.dram, media := { s.media with reel := { s.reel with metas := t.reel.metas } }
          ingress := { s.ingress with openFrame := none, ready := t.ingress.ready } } := by
  obtain ⟨u, hu⟩ : ∃ u, u = s.closeDegraded f := ⟨_, rfl⟩
  obtain ⟨d1, d2, d3⟩ := State.foldl_degrade _ s.portsUsed (fun k hk => by have := mem_portsUsed hk; omega) s hu
  rw [← hu]
  have hphase : (if s.takesFrames then 1 else 0) < 4 := by split <;> decide
  have hus : s.WritesIn u (closeMay s.portsUsed) := d1.mono fun a ha => .inr ha
  have hev {w : State} (h : w.WritesIn t (· = keyOf Reg.INGRESS_STATE_PHASE Pg.ingress)) : w.EventsStay t :=
    .of_writes h fun a ha => by rw [ha]; decide
  have hwr {w : State} (h : w.WritesIn t (· = keyOf Reg.INGRESS_STATE_PHASE Pg.ingress)) : w.WritesIn t (closeMay s.portsUsed) :=
    h.mono fun a ha => by rw [ha]; exact closeMay_ingress (by decide)
  cases hs : f.slot with
  | none =>
    rw [State.closeFrame_of_dropped ho hs, ← hu] at ht
    obtain ⟨h1, h2, h3, h4⟩ := State.closed_effect hphase ht
    have hframe : t = { s.regsOf t with ingress := { s.ingress with openFrame := none } } := by rw [h4, d3]; rfl
    refine ⟨h1, h2, nofun, fun _ => ⟨by rw [hframe], by rw [hframe]; rfl⟩, hus.trans (hwr h3), d2.trans (hev h3), hev h3, ?_⟩
    rw [hframe]
    rfl
  | some j =>
    obtain ⟨a, b, flags, short, hc⟩ := State.closeFrame_of_slot ho hs
    obtain ⟨v, hv⟩ : ∃ v, v = u.closeBlank f j := ⟨_, rfl⟩
    obtain ⟨w, hw⟩ : ∃ w, w = v.recordKept f a b flags short := ⟨_, rfl⟩
    have hvf : v = { u with dram := v.dram } := hv ▸ (u.closeBlank_touches f j).eq_mix
    obtain ⟨r1, r2, r3, r4, r5⟩ := State.recordKept_effect hw
    rw [← hu, ← hv, ← hw, ← ht] at hc
    obtain ⟨h1, h2, h3, h4⟩ := State.closed_effect hphase hc
    have hvu : u.WritesIn v (closeMay s.portsUsed) := .of_regs (.refl u _) (by rw [hvf])
    have hvev : u.EventsStay v := .of_writes (P := fun _ => False) (.of_regs (.refl u _) (by rw [hvf])) (fun _ => False.elim)
    have hready : t.ingress.ready = s.ingress.ready ++ [f.num] := by
      rw [h4]
      show w.ingress.ready = _
      rw [r1, hvf, d3]
    have huev := (hvev.trans r4).trans (hev h3)
    refine ⟨h1, h2, fun _ => ⟨hready, ?_⟩, nofun, ((hus.trans hvu).trans (r3.mono fun _ => closeMay_nil)).trans (hwr h3), d2.trans huev, huev, ?_⟩
    · rw [← r2]
      unfold State.fld64
      rw [h3.fld (by decide), h3.fld (by decide)]
    · rw [h4, r5, hvf, d3]
      rfl

/-- Once no frame is taken, the port streams no more. -/
theorem State.endStreaming_effect (ht : t = s.endStreaming k) :
    t.port k = { s.port k with streaming := if s.takesFrames then (s.port k).streaming else false }
      ∧ t = { s with regs := t.regs, portA := t.portA, portB := t.portB }
      ∧ s.WritesIn t (· = keyOf Reg.LINK_STATE_PORT (Pg.link k)) := by
  have hw : s.WritesIn t (· = keyOf Reg.LINK_STATE_PORT (Pg.link k)) := by
    rw [ht]
    refine (s.writesIn_endStreaming k).mono fun a ha => ?_
    simp only [List.mem_cons, List.not_mem_nil, or_false] at ha
    exact ha.elim id id
  have hto : s.Touches t [.regs, .portA, .portB] := ht ▸ s.endStreaming_touches k
  refine ⟨?_, hto.eq_mix, hw⟩
  rw [ht]
  unfold State.endStreaming
  split
  · rfl
  · rw [(State.showPort_touches _ k).port (k := k), State.port_setPort]

theorem State.closeIfDone_of_done (ho : s.ingress.openFrame = some f)
    (h : s.portsUsed.all (fun k => (f.half k).eof || (f.half k).missing) = true) : s.closeIfDone = s.closeFrame := by
  unfold State.closeIfDone
  simp only [ho, if_pos h]

theorem State.closeIfDone_of_open (ho : s.ingress.openFrame = some f)
    (h : s.portsUsed.all (fun k => (f.half k).eof || (f.half k).missing) = false) : s.closeIfDone = s := by
  unfold State.closeIfDone
  simp only [ho]
  rw [if_neg (by rw [h]; exact Bool.false_ne_true)]

theorem Half.active_iff {h : Half} : h.active = true ↔ h.sof = true ∧ h.eof = false ∧ h.missing = false := by
  unfold Half.active
  simp only [Bool.and_eq_true, Bool.not_eq_true', and_assoc]

/-- A half that is still active keeps the frame open. -/
theorem State.not_done_of_active (hk : k ∈ s.portsUsed) (ha : (f.half k).eof = false ∧ (f.half k).missing = false) :
    s.portsUsed.all (fun k => (f.half k).eof || (f.half k).missing) = false := by
  rw [List.all_eq_false]
  exact ⟨k, hk, by rw [ha.1, ha.2]; decide⟩

theorem onPages_closeMay {ks ps : List Nat} {a : Nat} (h : closeMay ks a) (hi : Pg.ingress ∈ ps) (hl : ks.map Pg.link ⊆ ps) : onPages ps a := by
  rcases h with ⟨h, -⟩ | h
  · unfold onPages
    rw [h]
    exact hi
  · exact onPages_mono hl h

/-- The only half in use ends: the frame closes, and its port streams on only while frames are taken. -/
theorem State.halfEnded_effect (hp : s.portsUsed = [k]) (hg : g.num = f.num ∧ g.slot = f.slot ∧ (g.half k).eof = true
      ∧ (g.half k).status = (f.half k).status ∧ (g.half k).degraded = (f.half k).degraded)
    (ht : t = (s.setOpen (some g)).closeIfDone.endStreaming k) :
    t.ingress.openFrame = none ∧ t.fld Pg.ingress Reg.INGRESS_STATE_PHASE = (if s.takesFrames then 1 else 0)
      ∧ (f.slot.isSome = true → t.ingress.ready = s.ingress.ready ++ [f.num]
          ∧ t.fld64 Pg.ingress Reg.INGRESS_LAST_FRAME_LO Reg.INGRESS_LAST_FRAME_HI = f.num % 2 ^ 64)
      ∧ (f.slot = none → t.ingress.ready = s.ingress.ready ∧ t.dram = s.dram)
      ∧ t.port k = { s.port k with streaming := if s.takesFrames then (s.port k).streaming else false }
      ∧ (s.absentLines f k ≠ [] → t.fld (Pg.link k) Reg.LINK_EVENT_FRAME_DEGRADED = 1 ∨ (f.half k).degraded = true)
      ∧ t = { s.regsOf t with
          portA := t.portA, portB := t.portB, dram := t.dram, media := { s.media with reel := { s.reel with metas := t.reel.metas } }
          ingress := { s.ingress with openFrame := none, ready := t.ingress.ready } }
      ∧ s.KeepsPages t [Pg.link k, Pg.ingress] := by
  obtain ⟨hnum, hslot, heof, hstatus, hdeg⟩ := hg
  have hk : k < 2 := by have := mem_portsUsed (hp ▸ List.mem_singleton_self k); omega
  obtain ⟨v, hv⟩ : ∃ v, v = s.setOpen (some g) := ⟨_, rfl⟩
  have hvr : v.regs = s.regs := by rw [hv]; rfl
  have hvf : v = { s with ingress := { s.ingress with openFrame := some g } } := hv
  have hvo : v.ingress.openFrame = some g := by rw [hv]; rfl
  have hvp : v.portsUsed = [k] := by rw [← hp, hv]; rfl
  have htakes : v.takesFrames = s.takesFrames := by rw [hv]; rfl
  have habsent : v.absentLines g k = s.absentLines f k := by
    unfold State.absentLines
    rw [hstatus, hv]
    rfl
  obtain ⟨w, hw⟩ : ∃ w, w = v.closeFrame := ⟨_, rfl⟩
  rw [← hv, State.closeIfDone_of_done hvo (by rw [hvp]; simp [heof]), ← hw] at ht
  obtain ⟨c1, c2, c3, c4, c5, -, c7, c8⟩ := State.closeFrame_effect hvo hw
  obtain ⟨e1, e2, e3⟩ := State.endStreaming_effect ht
  rw [hnum, hslot] at c3
  rw [hslot] at c4
  have hready : t.ingress.ready = w.ingress.ready := by rw [e2]
  have hdram : t.dram = w.dram := by rw [e2]
  have hwt : w.takesFrames = s.takesFrames := by
    rw [← htakes]
    unfold State.takesFrames State.on
    rw [c5.fld (by rw [hvp]; simp only [closeMay, onPages, keyOf]; simp [Pg.ingress, Pg.link]; omega), c8]
    rfl
  have hwp : w.port k = s.port k := State.port_congr (by rw [c8, hvf]; rfl) (by rw [c8, hvf]; rfl) k
  have hfld (p : Nat) (x : Fld) (h : keyOf x p ≠ keyOf Reg.LINK_STATE_PORT (Pg.link k)) : t.fld p x = w.fld p x := e3.fld h
  have hi (x : Fld) (h : x.off < 0x1000) : t.fld Pg.ingress x = w.fld Pg.ingress x := hfld _ _ (by
    simp only [keyOf, Pg.ingress, Pg.link]
    omega)
  refine ⟨by rw [e2]; exact c1, ?_, fun h => ?_, fun h => ?_, ?_, fun h => ?_, ?_, ?_⟩
  · rw [hi _ (by decide), c2, htakes]
  · obtain ⟨h1, h2⟩ := c3 h
    refine ⟨by rw [hready, h1, hvf], ?_⟩
    rw [← h2]
    unfold State.fld64
    rw [hi _ (by decide), hi _ (by decide)]
  · obtain ⟨h1, h2⟩ := c4 h
    exact ⟨by rw [hready, h1, hvf], by rw [hdram, h2, hvf]⟩
  · rw [e1, hwp, hwt]
  · have hcd : v.closeDegraded g = v.degrade k := by
      unfold State.closeDegraded
      rw [hvp]
      show (if (v.absentLines g k).isEmpty then v else v.degrade k) = _
      rw [if_neg (by rw [habsent]; simpa using h)]
    rw [hcd] at c7
    rcases State.degrade_raises (k := k) hvo with h1 | h1
    · exact .inl ((State.EventsStay.of_writes e3 fun a ha => by
        rw [ha]
        show (Pg.link k * 0x1000 + 0x00C) % 0x1000 ≠ 0x010
        omega) _ _ rfl rfl (by decide) (c7 _ _ rfl rfl (by decide) h1))
    · exact .inr (hdeg ▸ h1)
  · rw [e2, c8, hvf]
    rfl
  · have h0 : s.WritesIn w (closeMay [k]) := (State.WritesIn.of_regs (.refl s _) hvr).trans (hvp ▸ c5)
    refine ((h0.mono fun a ha => onPages_closeMay ha (by simp) (by simp)).trans (e3.mono fun a ha => ?_)).keepsPages
    rw [ha]
    exact onPages_keyOf (by decide) (by rw [Nat.mod_eq_of_lt (by show 0x040 + k < 1024; omega)]; exact List.mem_cons_self)

/-- The end of one half of two leaves the frame open. -/
theorem State.halfOpen_effect (hv : s.setOpen (some g) = u) (hj : 1 - k ∈ s.portsUsed)
    (ha : (g.half (1 - k)).eof = false ∧ (g.half (1 - k)).missing = false) (ht : t = u.closeIfDone.endStreaming k) :
    t.ingress.openFrame = some g ∧ t.port k = { s.port k with streaming := if s.takesFrames then (s.port k).streaming else false }
      ∧ t = { s with
          regs := t.regs, portA := t.portA, portB := t.portB, ingress := { s.ingress with openFrame := t.ingress.openFrame } }
      ∧ s.KeepsRegs t [keyOf Reg.LINK_STATE_PORT (Pg.link k)] := by
  have hvo : u.ingress.openFrame = some g := by rw [← hv]; rfl
  have hvp : u.portsUsed = s.portsUsed := by rw [← hv]; rfl
  have htakes : u.takesFrames = s.takesFrames := by rw [← hv]; rfl
  have hport : u.port k = s.port k := by rw [← hv]; rfl
  have hvf : u = { s with ingress := { s.ingress with openFrame := u.ingress.openFrame } } := by rw [← hv]; rfl
  rw [State.closeIfDone_of_open hvo (State.not_done_of_active (hvp ▸ hj) ha)] at ht
  obtain ⟨e1, e2, e3⟩ := State.endStreaming_effect ht
  refine ⟨by rw [e2]; exact hvo, by rw [e1, hport, htakes], ?_, ?_⟩
  · rw [e2, hvf]
  · exact State.WritesIn.keepsReg ((State.WritesIn.of_regs (.refl s _) (by rw [hvf])).trans e3)

/-! ### The pair window -/

/-- The halves whose SOF has not come are fixed as lost. -/
def OpenFrame.expired (f : OpenFrame) : OpenFrame :=
  { f with
    a := if !f.a.sof && !f.a.missing then { f.a with used := true, missing := true } else f.a
    b := if !f.b.sof && !f.b.missing then { f.b with used := true, missing := true } else f.b }

theorem OpenFrame.foldl_expired (f : OpenFrame) : ([0, 1].filter fun k => !(f.half k).sof && !(f.half k).missing).foldl
    (fun f k => f.setHalf k { f.half k with used := true, missing := true }) f = f.expired := by
  have ha : f.half 0 = f.a := rfl
  have hb : f.half 1 = f.b := rfl
  unfold OpenFrame.expired
  simp only [List.filter_cons, List.filter_nil, ha, hb]
  cases !f.a.sof && !f.a.missing <;> cases !f.b.sof && !f.b.missing <;> rfl

theorem OpenFrame.missing_expired (f : OpenFrame) : (f.a.sof = false → f.expired.a.missing = true) ∧ (f.b.sof = false → f.expired.b.missing = true) := by
  have h (x : Half) (hx : x.sof = false) :
      (if !x.sof && !x.missing then { x with used := true, missing := true } else x : Half).missing = true := by
    rw [hx]
    cases hm : x.missing with
    | true => exact hm
    | false => rfl
  exact ⟨h f.a, h f.b⟩

/-- A half that lines still arrive for stays as it is. -/
theorem OpenFrame.active_expired (f : OpenFrame) : (f.a.sof = true → f.expired.a = f.a) ∧ (f.b.sof = true → f.expired.b = f.b) := by
  have h (x : Half) (hx : x.sof = true) : (if !x.sof && !x.missing then { x with used := true, missing := true } else x : Half) = x := by
    rw [hx]
    rfl
  exact ⟨h f.a, h f.b⟩

theorem State.portsUsed_of_pair (hp : s.pairMode = true) : s.portsUsed = [0, 1] := by
  have h : s.source = 2 := of_decide_eq_true hp
  unfold State.portsUsed
  simp only [h]

theorem State.pairExpired_of_gone (hp : s.pairMode = true) (ho : s.ingress.openFrame = some f)
    (hg : (f.a.sof = false ∧ f.a.missing = false) ∨ (f.b.sof = false ∧ f.b.missing = false)) :
    s.pairExpired = ((s.setOpen (some f.expired)).raise Pg.ingress Reg.INGRESS_EVENT_PAIR_MISSING).closeIfDone := by
  have hports := State.portsUsed_of_pair hp
  have hne : ([0, 1].filter fun k => !(f.half k).sof && !(f.half k).missing) ≠ [] := by
    rw [Ne, List.filter_eq_nil_iff]
    intro h
    rcases hg with ⟨h1, h2⟩ | ⟨h1, h2⟩
    · exact h 0 (by decide) (by show (!f.a.sof && !f.a.missing) = true; rw [h1, h2]; rfl)
    · exact h 1 (by decide) (by show (!f.b.sof && !f.b.missing) = true; rw [h1, h2]; rfl)
  unfold State.pairExpired
  simp only [ho, hports]
  rw [if_neg, OpenFrame.foldl_expired]
  rw [hp]
  rintro (h | h)
  · exact nomatch h
  · exact hne (List.isEmpty_iff.1 h)

/-- The pair window passes. -/
theorem State.pairExpired_effect (hp : s.pairMode = true) (ho : s.ingress.openFrame = some f)
    (hg : (f.a.sof = false ∧ f.a.missing = false) ∨ (f.b.sof = false ∧ f.b.missing = false)) (ht : t = s.pairExpired) :
    t.fld Pg.ingress Reg.INGRESS_EVENT_PAIR_MISSING = 1
      ∧ ((f.a.sof = true ∧ f.a.missing = false ∧ f.a.eof = false) ∨ (f.b.sof = true ∧ f.b.missing = false ∧ f.b.eof = false) →
          ∃ g, t.ingress.openFrame = some g ∧ g.num = f.num ∧ g.slot = f.slot
            ∧ (f.a.sof = false → g.a.missing = true) ∧ (f.b.sof = false → g.b.missing = true))
      ∧ t = { s.regsOf t with
          dram := t.dram, media := { s.media with reel := { s.reel with metas := t.reel.metas } }
          ingress := { s.ingress with openFrame := t.ingress.openFrame, ready := t.ingress.ready } }
      ∧ s.KeepsPages t ([Pg.ingress] ++ pagesOf Pg.link 2) := by
  have hports := State.portsUsed_of_pair hp
  obtain ⟨u, hu⟩ : ∃ u, u = s.setOpen (some f.expired) := ⟨_, rfl⟩
  have hur : u.regs = s.regs := by rw [hu]; rfl
  have huf : u = { s with ingress := { s.ingress with openFrame := some f.expired } } := hu
  obtain ⟨v, hv⟩ : ∃ v, v = u.raise Pg.ingress Reg.INGRESS_EVENT_PAIR_MISSING := ⟨_, rfl⟩
  have hvt : u.Touches v [.regs, .ctlLatches] := hv ▸ State.raise_touches _ _ _
  have hvf : v = u.regsOf v := hvt.eq_mix
  have hvo : v.ingress.openFrame = some f.expired := by rw [hvf, huf]; rfl
  have hv1 : v.fld Pg.ingress Reg.INGRESS_EVENT_PAIR_MISSING = 1 := hv ▸ State.fld_raise_same _ _ _ (by decide) rfl
  have hvw : s.WritesIn v (· = keyOf Reg.INGRESS_EVENT_PAIR_MISSING Pg.ingress) := by
    rw [hv]
    exact .raise (.of_regs (.refl s _) hur) rfl
  have hvp : v.portsUsed = [0, 1] := by
    have hsrc : v.source = s.source := hvw.fld (by decide)
    rw [← hports]
    unfold State.portsUsed
    rw [hsrc]
  have hpages (h : v.WritesIn t (closeMay [0, 1])) : s.KeepsPages t ([Pg.ingress] ++ pagesOf Pg.link 2) := by
    refine ((hvw.mono fun a ha => ?_).trans (h.mono fun a ha => onPages_closeMay ha (by decide) (by decide))).keepsPages
    rw [ha]
    exact onPages_keyOf (by decide) (by decide)
  rw [State.pairExpired_of_gone hp ho hg, ← hu, ← hv] at ht
  cases hall : v.portsUsed.all (fun k => (f.expired.half k).eof || (f.expired.half k).missing) with
  | false =>
    rw [State.closeIfDone_of_open hvo hall] at ht
    rw [ht] at hpages ⊢
    refine ⟨hv1, fun _ => ⟨f.expired, hvo, rfl, rfl, f.missing_expired⟩, ?_, hpages (.refl v _)⟩
    rw [hvf, huf]
    rfl
  | true =>
    rw [State.closeIfDone_of_done hvo hall] at ht
    obtain ⟨c1, -, -, -, c5, c6, -, c8⟩ := State.closeFrame_effect hvo ht
    refine ⟨c6 _ _ rfl rfl (by decide) hv1, fun hact => ?_, ?_, hpages (hvp ▸ c5)⟩
    · have hmem (k : Nat) (h : k ∈ [0, 1]) : k ∈ v.portsUsed := by rw [hvp]; exact h
      have hsame := f.active_expired
      rcases hact with ⟨h1, h2, h3⟩ | ⟨h1, h2, h3⟩
      · have hf := State.not_done_of_active (f := f.expired) (hmem 0 (by decide)) (by
          show f.expired.a.eof = false ∧ f.expired.a.missing = false
          rw [hsame.1 h1]
          exact ⟨h3, h2⟩)
        exact Bool.noConfusion (hall.symm.trans hf)
      · have hf := State.not_done_of_active (f := f.expired) (hmem 1 (by decide)) (by
          show f.expired.b.eof = false ∧ f.expired.b.missing = false
          rw [hsame.2 h1]
          exact ⟨h3, h2⟩)
        exact Bool.noConfusion (hall.symm.trans hf)
    · rw [c1, c8, hvf, huf]
      rfl

/-! ### SOF and metadata -/

/-- A SOF that a frame can take waits for Ingress. -/
theorem State.rxSof_taken {frame tag : Nat} (hr : s.receives k = true) (hu : s.portsUsed.contains k = true)
    (hj : s.joins k = true ∨ s.takesFrames = true) (hb : s.pairBarred k = false) (ht : t = s.rxSof k frame tag) :
    t.port k = { s.port k with sof := some (frame % 2 ^ 32, tag % 65536), discard := false, metaBuf := [], segs := [], streaming := true }
      ∧ t.port (1 - k) = s.port (1 - k)
      ∧ (frame % 2 ^ 32 ≠ (if s.joins k then s.frameNow else s.nextFrame) % 2 ^ 32 → t.fld (Pg.link k) Reg.LINK_EVENT_FRAME_SEQ = 1)
      ∧ t = { s.regsOf t with portA := t.portA, portB := t.portB }
      ∧ s.KeepsRegs t [keyOf Reg.LINK_STATE_PORT (Pg.link k), keyOf Reg.LINK_EVENT_FRAME_SEQ (Pg.link k)] := by
  have hk : k < 2 := by have := mem_portsUsed (List.contains_iff_mem.1 hu); omega
  obtain ⟨n, hn⟩ : ∃ n, n = if s.joins k then s.frameNow else s.nextFrame := ⟨_, rfl⟩
  obtain ⟨v, hv⟩ : ∃ v, v = s.setPort k { s.port k with
    sof := some (frame % 2 ^ 32, tag % 65536), discard := false, metaBuf := [], segs := [], streaming := true } := ⟨_, rfl⟩
  have heq : ∃ late, s.rxSof k frame tag = ((v.showPort k).raiseIf late (Pg.link k) Reg.LINK_EVENT_PARAM_LATE).raiseIf
      (decide (frame % 2 ^ 32 ≠ n % 2 ^ 32)) (Pg.link k) Reg.LINK_EVENT_FRAME_SEQ := by
    unfold State.rxSof
    dsimp only
    rw [if_neg (by rw [hr, hu]; decide), if_neg (by rw [hb]; decide), if_neg (by rcases hj with h | h <;> simp [h]), hv, hn]
    exact ⟨_, rfl⟩
  obtain ⟨late, heq⟩ := heq
  obtain ⟨w, hw⟩ : ∃ w, w = (v.showPort k).raiseIf late (Pg.link k) Reg.LINK_EVENT_PARAM_LATE := ⟨_, rfl⟩
  rw [heq, ← hw] at ht
  rw [← hn]
  have hvr : v.regs = s.regs := hv ▸ s.setPort_regs k _
  have hvf : v = { s with portA := v.portA, portB := v.portB } := hv ▸ (s.setPort_touches k _).eq_mix
  have hvw : v.Touches w [.regs, .ctlLatches] := by
    rw [hw]
    exact ((v.showPort_touches k).mono rfl).trans (State.raiseIf_touches _ _ _ _)
  have hwt : w.Touches t [.regs, .ctlLatches] := ht ▸ State.raiseIf_touches _ _ _ _
  have hto := hvw.trans hwt
  have hfr : t = v.regsOf t := hto.eq_mix
  refine ⟨?_, ?_, fun hne => ?_, ?_, ?_⟩
  · rw [hto.port, hv, State.port_setPort]
  · rw [hto.port, hv, State.port_setPort_other s hk]
  · rw [ht, decide_eq_true hne]
    exact State.fld_raise_same _ _ _ (by decide) rfl
  · rw [hfr, hvf]
    rfl
  · have h0 : s.WritesIn (v.showPort k) (· ∈ [keyOf Reg.LINK_STATE_PORT (Pg.link k), keyOf Reg.LINK_EVENT_FRAME_SEQ (Pg.link k)]) := by
      refine (State.WritesIn.of_regs (.refl s _) hvr).trans ((v.writesIn_showPort k).mono fun a ha => ?_)
      simp only [List.mem_cons, List.not_mem_nil, or_false] at ha
      exact List.mem_cons.2 (.inl (ha.elim id id))
    have h1 : s.WritesIn w (· ∈ [keyOf Reg.LINK_STATE_PORT (Pg.link k), keyOf Reg.LINK_EVENT_FRAME_SEQ (Pg.link k)]) := by
      rw [hw]
      exact h0.raiseIf (List.mem_cons_of_mem _ (List.mem_singleton_self _))
    rw [ht]
    exact (h1.raiseIf (List.mem_cons_of_mem _ (List.mem_singleton_self _))).keepsRegs

/-- A SOF outside the frames of a take is discarded and counted. -/
theorem State.rxSof_discarded {frame tag : Nat} (hr : s.receives k = true) (hu : s.portsUsed.contains k = true) (hj : s.joins k = false)
    (htk : s.takesFrames = false) (hb : s.pairBarred k = false) (hc : s.cutsOpen k = false) (ht : t = s.rxSof k frame tag) :
    t.port k = { s.port k with sof := none, discard := true } ∧ t.port (1 - k) = s.port (1 - k)
      ∧ t = { s with regs := t.regs, portA := t.portA, portB := t.portB } ∧ s.KeepsRegs t [keyOf Reg.INGRESS_STOP_DISCARDS Pg.ingress] := by
  have hk : k < 2 := by have := mem_portsUsed (List.contains_iff_mem.1 hu); omega
  obtain ⟨v, hv⟩ : ∃ v, v = s.setPort k { s.port k with discard := true, sof := none } := ⟨_, rfl⟩
  have heq : t = v.count Pg.ingress Reg.INGRESS_STOP_DISCARDS := by
    rw [ht, hv]
    unfold State.rxSof
    dsimp only
    rw [if_neg (by rw [hr, hu]; decide), if_neg (by rw [hb]; decide), if_pos ⟨hj, htk⟩]
    unfold State.stopDiscard
    dsimp only
    rw [if_neg (by rw [hc]; decide)]
  have hvr : v.regs = s.regs := hv ▸ s.setPort_regs k _
  have hvf : v = { s with portA := v.portA, portB := v.portB } := hv ▸ (s.setPort_touches k _).eq_mix
  have hto : v.Touches t [.regs] := heq ▸ v.count_touches _ _
  have hfr : t = { v with regs := t.regs } := hto.eq_mix
  refine ⟨?_, ?_, ?_, ?_⟩
  · rw [hto.port, hv, State.port_setPort]
  · rw [hto.port, hv, State.port_setPort_other s hk]
  · rw [hfr, hvf]
  · rw [heq]
    exact (State.WritesIn.count (.of_regs (.refl s _) hvr) (List.mem_singleton_self _)).keepsRegs

/-! ### The obligation -/

theorem State.rxEof_of_active {lines : Nat} (hr : s.receives k = true) (hd : (s.port k).discard = false) (ho : s.ingress.openFrame = some f)
    (ha : (f.half k).active = true) : s.rxEof k lines =
      (s.setOpen (some (f.setHalf k { f.half k with eof := true, lines := lines % 65536 }))).closeIfDone.endStreaming k := by
  unfold State.rxEof
  dsimp only
  rw [if_neg (by rw [hr]; decide), if_neg (by rw [hd]; decide)]
  simp only [ho, if_pos ha]

theorem State.lineTimeout_of_active (ho : s.ingress.openFrame = some f) (ha : (f.half k).active = true) :
    s.lineTimeout k = (s.setOpen (some (f.setHalf k { f.half k with eof := true }))).closeIfDone.endStreaming k := by
  unfold State.lineTimeout
  simp only [ho, if_pos ha]

theorem OpenFrame.num_setHalf (f : OpenFrame) (k : Nat) (h : Half) : (f.setHalf k h).num = f.num ∧ (f.setHalf k h).slot = f.slot := by
  unfold OpenFrame.setHalf
  split <;> exact ⟨rfl, rfl⟩

/-- Settles O35: a SOF waits or is discarded, lines stand in the slot with their status, and the end of the last half closes the frame. -/
theorem frameArrives : Obligations.FrameArrives := by
  unfold Obligations.FrameArrives
  refine ⟨?taken, ?discarded, ?metas, ?inside, ?outside, ?eof, ?half, ?ends, ?timeout, ?window⟩
  case taken =>
    intro s k frame tag hr hu hj hb
    obtain ⟨t, ht⟩ : ∃ t, t = s.rxSof k frame tag := ⟨_, rfl⟩
    exact ⟨t, congrArg Host.Outcome.next ht.symm, State.rxSof_taken hr hu hj hb ht⟩
  case discarded =>
    intro s k frame tag hr hu hj htk hb hc
    obtain ⟨t, ht⟩ : ∃ t, t = s.rxSof k frame tag := ⟨_, rfl⟩
    exact ⟨t, congrArg Host.Outcome.next ht.symm, State.rxSof_discarded hr hu hj htk hb hc ht⟩
  case metas =>
    intro s k data hr hd
    have hno : ¬ (s.receives k = false ∨ (s.port k).discard = true) := by rw [hr, hd]; decide
    refine ⟨fun hs => ?_, fun f hs ho ha => ?_⟩
    · have heq : s.rxMeta k data = s.setPort k { s.port k with metaBuf := ((s.port k).metaBuf ++ data).take 1792 } := by
        unfold State.rxMeta
        dsimp only
        rw [if_neg hno, if_pos hs]
      refine ⟨_, congrArg Host.Outcome.next heq, s.port_setPort k _, ?_, (s.setPort_touches k _).eq_mix⟩
      refine s.port_setPort_ne _ ?_
      rw [Ne, eq_iff_iff]
      split <;> simp [*]
    · refine ⟨_, congrArg Host.Outcome.next ?_, rfl⟩
      unfold State.rxMeta
      dsimp only
      rw [if_neg hno, if_neg (by rw [hs]; decide)]
      simp only [ho, if_pos ha]
  case inside =>
    intro s k line bl f l hk hr hd ho ha hl hlo hhi
    obtain ⟨t, ht⟩ : ∃ t, t = s.rxEol k line := ⟨_, rfl⟩
    exact ⟨t, congrArg Host.Outcome.next ht.symm, State.rxEol_inside hk hr hd ho ha hl hlo hhi ht⟩
  case outside =>
    intro s k line bl f hk hr hd ho ha hout
    obtain ⟨t, ht⟩ : ∃ t, t = s.rxEol k line := ⟨_, rfl⟩
    exact ⟨t, congrArg Host.Outcome.next ht.symm, State.rxEol_outside hk hr hd ho ha hout ht⟩
  case eof =>
    intro s k frame lines f hp hr hd ho ha
    obtain ⟨t, ht⟩ : ∃ t, t = s.rxEof k lines := ⟨_, rfl⟩
    have hn := f.num_setHalf k { f.half k with eof := true, lines := lines % 65536 }
    obtain ⟨h1, h2, h3, h4, h5, -, h7, h8⟩ := State.halfEnded_effect hp
      ⟨hn.1, hn.2, by rw [OpenFrame.half_setHalf], by rw [OpenFrame.half_setHalf], by rw [OpenFrame.half_setHalf]⟩
      (ht.trans (State.rxEof_of_active hr hd ho ha))
    exact ⟨t, congrArg Host.Outcome.next ht.symm, h1, h2, h3, h4, h5, h7, h8⟩
  case half =>
    intro s k frame lines f hk hp hr hd ho ha ha'
    obtain ⟨t, ht⟩ : ∃ t, t = s.rxEof k lines := ⟨_, rfl⟩
    obtain ⟨-, he, hm⟩ := Half.active_iff.1 ha'
    obtain ⟨h1, h2, h3, h4⟩ := State.halfOpen_effect rfl
      (by rw [hp]; rcases (by omega : k = 0 ∨ k = 1) with rfl | rfl <;> decide)
      (by rw [OpenFrame.half_setHalf_other f hk]; exact ⟨he, hm⟩) (ht.trans (State.rxEof_of_active hr hd ho ha))
    exact ⟨t, congrArg Host.Outcome.next ht.symm, ⟨_, h1, rfl⟩, h2, h3, h4⟩
  case ends =>
    intro s k frame lines hr hd
    refine congrArg Host.Outcome.next ?_
    unfold State.rxEof
    dsimp only
    rw [if_neg (by rw [hr]; decide), if_pos hd]
  case timeout =>
    intro s k f hp ho ha
    obtain ⟨t, ht⟩ : ∃ t, t = s.lineTimeout k := ⟨_, rfl⟩
    have hn := f.num_setHalf k { f.half k with eof := true }
    obtain ⟨h1, h2, h3, h4, -, h6, h7, h8⟩ := State.halfEnded_effect hp
      ⟨hn.1, hn.2, by rw [OpenFrame.half_setHalf], by rw [OpenFrame.half_setHalf], by rw [OpenFrame.half_setHalf]⟩
      (ht.trans (State.lineTimeout_of_active ho ha))
    refine ⟨t, congrArg Host.Outcome.next ht.symm, h1, h2, ?_, h6, h7, h8⟩
    cases hs : f.slot with
    | none => exact (h4 hs).1
    | some j => exact (h3 (by rw [hs]; rfl)).1
  case window =>
    intro s f hp ho hg
    obtain ⟨t, ht⟩ : ∃ t, t = s.pairExpired := ⟨_, rfl⟩
    exact ⟨t, congrArg Host.Outcome.next ht.symm, State.pairExpired_effect hp ho hg ht⟩

end Sys2Proof.Machine
end

section
/-! PROOFS. HEVC pictures begin and complete, and the faults of cores (R242 to R244, R249 to R259). -/

set_option Elab.async false

namespace Sys2Proof.Machine

variable {s t u : State} {k j : Nat}

/-! ### The registers that show streams and Iris -/

/-- STATE, LOAD and UNITS of the HENC pages. -/
def hencShown (a : Nat) : Prop := a % 0x1000 ∈ [0x00C, 0x078, 0x07C] ∧ onPages (pagesOf Pg.henc 8) a

theorem onPages_henc {c : Nat} (hc : c < 8) {f : Fld} (hf : f.off < 0x1000) : onPages (pagesOf Pg.henc 8) (keyOf f (Pg.henc c)) :=
  onPages_keyOf hf (List.mem_map.2 ⟨c, List.mem_range.2 hc, by unfold Pg.henc; omega⟩)

theorem hencShown_keyOf {c : Nat} (hc : c < 8) {f : Fld} (hf : f.off ∈ [0x00C, 0x078, 0x07C]) : hencShown (keyOf f (Pg.henc c)) := by
  have hlt : f.off < 0x1000 := by
    simp only [List.mem_cons, List.not_mem_nil, or_false] at hf
    omega
  refine ⟨?_, onPages_henc hc hlt⟩
  rwa [show keyOf f (Pg.henc c) % 0x1000 = f.off from by unfold keyOf; omega]

theorem State.writesIn_showHenc (s : State) : s.WritesIn s.showHenc hencShown := by
  unfold State.showHenc
  refine .foldl (.refl s _) _ fun v c hc => ?_
  have hc8 := List.mem_range.1 hc
  exact .setFld (.setFld (.setFld (.setFld (.refl v _) _ (hencShown_keyOf hc8 (by decide))) _ (hencShown_keyOf hc8 (by decide))) _
    (hencShown_keyOf hc8 (by decide))) _ (hencShown_keyOf hc8 (by decide))

/-- The registers that show streams and Iris. -/
def streamShown (a : Nat) : Prop := (onPages [Pg.iris] a ∧ a % 0x1000 ≠ 0x010) ∨ hencShown a

theorem State.writesIn_showIris (s : State) (i : IrisSt) (hk : k < 8) : s.WritesIn (s.showIris k i) streamShown := by
  have hp : ∀ o n w, o ∈ [0x048, 0x04C] → streamShown (keyOf ⟨o + 0x10 * k, n, w⟩ Pg.iris) := fun o n w ho => by
    simp only [List.mem_cons, List.not_mem_nil, or_false] at ho
    exact .inl ⟨onPages_single (by simp only; omega) (by decide), by unfold keyOf Pg.iris; simp only; omega⟩
  unfold State.showIris
  exact .setFld (.setFld (.setFld (.setFld (.refl s _) _ (hp _ _ _ (by decide))) _ (hp _ _ _ (by decide))) _ (hp _ _ _ (by decide))) _
    (hp _ _ _ (by decide))

theorem onPages_of_streamShown {a : Nat} (h : streamShown a) : onPages (Pg.iris :: pagesOf Pg.henc 8) a := by
  rcases h with ⟨h, -⟩ | ⟨-, h⟩
  · exact onPages_mono (by decide) h
  · exact onPages_mono (by decide) h

/-! ### Streams -/

theorem State.stream_putStream (s : State) (k : Nat) (h : HencSt) : (s.putStream k h).stream k = h := Tbl.get_put_same ..

theorem State.stream_putStream_other (s : State) (h : HencSt) (hj : j ≠ k) : (s.putStream k h).stream j = s.stream j :=
  Tbl.get_put_ne _ _ _ _ hj

theorem foldl_keeps {α β : Type} (φ : State → β) {f : State → α → State} (h : ∀ u x, φ (f u x) = φ u) (xs : List α) (s : State) :
    φ (xs.foldl f s) = φ s := by
  induction xs generalizing s with
  | nil => rfl
  | cons x xs ih => exact (ih _).trans (h s x)

/-- The registers with the coding index and the picture in work of a stream: what releasing buffers leaves as they are. -/
def State.runOf (s : State) (k : Nat) : List (Nat × Word) × Nat × Option HencPic := (s.regs, (s.stream k).index, (s.stream k).cur)

theorem State.runOf_esRelease (s : State) (j f : Nat) : (s.esRelease j f).runOf k = s.runOf k := by
  unfold State.runOf State.esRelease
  by_cases h : k = j
  · rw [h, State.stream_putStream]
    rfl
  · rw [State.stream_putStream_other _ _ h]
    rfl

theorem State.releaseOver_effect (ht : t = s.releaseOver) (k : Nat) :
    s.WritesIn t (· = keyOf Reg.RECORDER_QUEUED Pg.recorder) ∧ (t.stream k).index = (s.stream k).index
      ∧ (t.stream k).cur = (s.stream k).cur := by
  subst ht
  unfold State.releaseOver
  extract_lets s1 s2 done
  obtain ⟨v, hv⟩ : ∃ v, v = done.foldl (fun (s : State) h => s.freeBuf (.hold 0) h.2.1 h.2.2) s2 := ⟨_, rfl⟩
  have hrun : v.runOf k = s.runOf k := by
    have h1 : s1.runOf k = s.runOf k := foldl_keeps (·.runOf k) (f := State.recRelease) (fun _ _ => rfl) _ s
    have h2 : s2.runOf k = s1.runOf k :=
      foldl_keeps (·.runOf k) (fun u _ => foldl_keeps (·.runOf k) (fun w f => w.runOf_esRelease _ f) _ u) _ s1
    have h3 : v.runOf k = s2.runOf k :=
      hv ▸ foldl_keeps (·.runOf k) (f := fun u (h : Reader × Nat × Nat) => u.freeBuf (.hold 0) h.2.1 h.2.2) (fun _ _ => rfl) done s2
    rw [h3, h2, h1]
  rw [← hv]
  obtain ⟨hregs, hix, hcur⟩ : v.regs = s.regs ∧ (v.stream k).index = (s.stream k).index ∧ (v.stream k).cur = (s.stream k).cur := by
    simpa only [State.runOf, Prod.mk.injEq] using hrun
  have hq : v.showQueued.stream k = v.stream k := congrArg (fun h : Tbl HencSt => h.get k) ((State.showQueued_touches v).same .henc (by decide))
  rw [hq]
  refine ⟨?_, hix, hcur⟩
  unfold State.showQueued
  exact .setFld (.of_regs (.refl s _) hregs) _ rfl

/-- A stream moved on over mini-GOPs: its place in coding order alone has changed. -/
def State.MovedOn (s t : State) (k : Nat) : Prop :=
  t.stream k = { s.stream k with origin := (t.stream k).origin, base := (t.stream k).base, coded := (t.stream k).coded }
    ∧ (∀ j, j ≠ k → t.stream j = s.stream j) ∧ t = { s with henc := t.henc }

theorem State.MovedOn.refl (s : State) (k : Nat) : s.MovedOn s k := ⟨rfl, fun _ _ => rfl, rfl⟩

theorem State.MovedOn.trans (h : s.MovedOn t k) (h' : t.MovedOn u k) : s.MovedOn u k := by
  obtain ⟨h1, h2, h3⟩ := h
  obtain ⟨h1', h2', h3'⟩ := h'
  refine ⟨?_, fun j hj => (h2' j hj).trans (h2 j hj), ?_⟩
  · rw [h1', h1]
  · rw [h3', h3]

theorem State.advanceGop_movedOn (s : State) (k : Nat) : s.MovedOn (s.advanceGop k) k := by
  unfold State.advanceGop
  extract_lets h last restart
  split
  · exact .refl s k
  · refine ⟨?_, fun j hj => State.stream_putStream_other _ _ hj, rfl⟩
    rw [State.stream_putStream]
    cases restart <;> rfl

theorem State.advanceGops_movedOn (s : State) (k n : Nat) : s.MovedOn (s.advanceGops k n) k := by
  induction n generalizing s with
  | zero => exact .refl s k
  | succ n ih =>
    rw [State.advanceGops]
    split
    · exact (s.advanceGop_movedOn k).trans (ih _)
    · exact .refl s k

/-! ### A core's fault -/

/-- The state with the stream that a core serves, if any, spread anew. -/
def State.withFaulted (s : State) : Option Nat → State
  | some k => s.putStream k { s.stream k with faulted := true }
  | none => s

theorem State.hencFault_eq {c : Nat} (hc : c < 8) :
    s.hencFault c = (((s.withFaulted (s.servedBy c)).setFld (Pg.henc c) Reg.HENC_STATE_FAULT 1).setFld (Pg.henc c) Reg.HENC_STATE_PHASE 3).raise
      (Pg.henc c) Reg.HENC_EVENT_CORE_FAULT := by
  unfold State.hencFault
  rw [if_neg (by omega)]
  cases h : s.servedBy c with
  | none => simp only [State.withFaulted]
  | some k => simp only [State.withFaulted]

theorem State.hencFault_effect {c : Nat} (hc : c < 8) (ht : t = s.hencFault c) :
    t.fld (Pg.henc c) Reg.HENC_STATE_FAULT = 1 ∧ t.fld (Pg.henc c) Reg.HENC_STATE_PHASE = 3
      ∧ t.fld (Pg.henc c) Reg.HENC_EVENT_CORE_FAULT = 1
      ∧ (∀ k, s.servedBy c = some k → t.stream k = { s.stream k with faulted := true })
      ∧ (∀ j, s.servedBy c ≠ some j → t.stream j = s.stream j)
      ∧ t = { s.regsOf t with henc := t.henc } ∧ s.KeepsPages t [Pg.henc c] ∧ s.KeepsBytes t := by
  have htou : s.Touches t _ := ht ▸ s.hencFault_touches c
  rw [State.hencFault_eq hc] at ht
  obtain ⟨s1, hv⟩ : ∃ s1, s1 = s.withFaulted (s.servedBy c) := ⟨_, rfl⟩
  have hvr : s1.regs = s.regs := by
    rw [hv]
    cases s.servedBy c <;> rfl
  rw [← hv] at ht
  have hne : ∀ {f g : Fld}, f.off ≠ g.off → f.off < 0x1000 → g.off < 0x1000 → keyOf f (Pg.henc c) ≠ keyOf g (Pg.henc c) := by
    intro f g h _ _
    unfold keyOf
    omega
  have hpg : ∀ {f : Fld}, f.off < 0x1000 → onPages [Pg.henc c] (keyOf f (Pg.henc c)) := fun hf => onPages_single hf (by unfold Pg.henc; omega)
  have hst : ∀ j, t.stream j = s1.stream j := fun j => by
    have : t.henc = s1.henc := by
      rw [ht]
      exact (State.raise_touches _ _ _).same .henc (by decide)
    exact congrArg (fun h : Tbl HencSt => h.get j) this
  refine ⟨?_, ?_, ?_, fun k hk => ?_, fun j hj => ?_, htou.eq_mix, ?_, htou.keepsBytes rfl⟩
  · rw [ht, State.fld_raise_ne _ _ _ _ _ (by decide) (.inl (hne (by decide) (by decide) (by decide))),
      State.fld_setFld_ne _ _ _ _ _ _ (by decide) (.inr (.inl (by decide))), State.fld_setFld_same _ _ _ _ (by decide)]
    rfl
  · rw [ht, State.fld_raise_ne _ _ _ _ _ (by decide) (.inl (hne (by decide) (by decide) (by decide))),
      State.fld_setFld_same _ _ _ _ (by decide)]
    rfl
  · rw [ht]
    exact State.fld_raise_same _ _ _ (by decide) rfl
  · rw [hst k, hv, hk]
    exact State.stream_putStream ..
  · rw [hst j, hv]
    cases h : s.servedBy c with
    | none => rfl
    | some k => exact State.stream_putStream_other _ _ fun e => hj (by rw [h, e])
  · rw [ht]
    exact (State.WritesIn.raise (.setFld (.setFld (.of_regs (.refl s _) hvr) _ (hpg (by decide))) _ (hpg (by decide))) (hpg (by decide))).keepsPages

/-! ### A picture begins -/

theorem State.picBegin_effect {f : Nat} (hk : k < 8) (ht : t = s.picBegin k f) :
    (∃ p, (t.stream k).cur = some p ∧ p.frame = f ∧ p.index = (s.stream k).index ∧ p.kind = s.picKind k f ∧ p.irap = s.isIrap k f
        ∧ p.type = s.picType k f ∧ p.qp = s.picQp k f p.kind p.index ∧ p.buf = (s.stream k).index % s.esCount k
        ∧ (p.buf, f, false) ∈ (t.stream k).bufs)
      ∧ (t.stream k).index = (s.stream k).index + 1
      ∧ t.split.holds = s.split.holds.map (fun e => if e.1 = Reader.due k ∧ (s.gopLeft k).contains e.2.2 = true then (Reader.henc k, e.2) else e)
      ∧ s.WritesIn t streamShown := by
  unfold State.picBegin at ht
  extract_lets h kind irap idr p first h1 mine sp s1 at ht
  obtain ⟨v, hv⟩ : ∃ v, v = s1.putStream k h1 := ⟨_, rfl⟩
  obtain ⟨w, hw⟩ : ∃ w, w = v.showIris k (h1.hist.headD first) := ⟨_, rfl⟩
  rw [← hv, ← hw] at ht
  have hvw : v.Touches w [.regs] := hw ▸ v.showIris_touches ..
  have hwt : w.Touches t [.regs] := ht ▸ w.showHenc_touches
  have hst : t.stream k = h1 := by
    rw [State.stream, (hvw.trans hwt).same .henc (by decide), hv]
    exact State.stream_putStream ..
  refine ⟨⟨p, ?_, rfl, rfl, rfl, rfl, rfl, rfl, rfl, ?_⟩, ?_, ?_, ?_⟩
  · rw [hst]
  · rw [hst]
    exact List.mem_append_right _ (List.mem_singleton_self _)
  · rw [hst]
  · rw [(hvw.trans hwt).same .splitHolds (by decide), hv]
    rfl
  · have hvs : s.WritesIn v streamShown := .of_regs (.refl s _) (hv ▸ rfl)
    exact (hvs.trans (hw ▸ v.writesIn_showIris _ hk)).trans ((ht ▸ w.writesIn_showHenc).mono fun _ => .inr)

theorem State.hencBegin_of_free {x : State} {f : Nat} (hon : s.streamOn k = true) (hcur : (s.stream k).cur = none) (hrun : s.ctl.capRun = true)
    (hx : x = s.releaseOver.advanceGops k 64) (hf : x.nextPic k = some f) (hrow : x.firstRow k = true) (hes : x.esHolder k = none) :
    s.hencBegin k = (x.picBegin k f).showRecorder := by
  unfold State.hencBegin
  rw [if_neg (by simp [hon, hcur, hrun])]
  extract_lets s1 s2
  have hs1 : s1 = x := hx.symm
  have hs2 : s2 = x := by simp only [s2, hs1, hes]
  simp only [hs1, hs2, hf, hrow, hes, Bool.true_eq_false, if_false, Option.isNone_none, if_true]

theorem State.hencBegin_effect {x : State} {f : Nat} (hk : k < 8) (hx : x = s.releaseOver.advanceGops k 64) (ht : t = (x.picBegin k f).showRecorder) :
    (∃ p, (t.stream k).cur = some p ∧ p.frame = f ∧ p.index = (s.stream k).index
          ∧ p.kind = x.picKind k f ∧ p.irap = x.isIrap k f ∧ p.type = x.picType k f
          ∧ p.qp = x.picQp k f p.kind p.index ∧ p.buf = (s.stream k).index % s.esCount k
          ∧ (p.buf, f, false) ∈ (t.stream k).bufs)
      ∧ (t.stream k).index = (s.stream k).index + 1
      ∧ t.split.holds = x.split.holds.map (fun e =>
          if e.1 = Reader.due k ∧ (x.gopLeft k).contains e.2.2 = true then (Reader.henc k, e.2) else e)
      ∧ t = { s.regsOf t with draw := s.releaseOver.draw, henc := t.henc, split := { s.split with holds := t.split.holds } }
      ∧ s.KeepsPages t ([Pg.iris, Pg.recorder] ++ pagesOf Pg.henc 8) ∧ s.KeepsBytes t := by
  obtain ⟨r, hr⟩ : ∃ r, r = s.releaseOver := ⟨_, rfl⟩
  obtain ⟨y, hy⟩ : ∃ y, y = x.picBegin k f := ⟨_, rfl⟩
  rw [← hr] at hx ⊢
  rw [← hy] at ht
  obtain ⟨hrw, hrix, -⟩ := State.releaseOver_effect hr k
  obtain ⟨hxk, -, hxr⟩ : r.MovedOn x k := hx ▸ r.advanceGops_movedOn k 64
  obtain ⟨⟨p, hcur, hpf, hpi, hpk, hpr, hpt, hpq, hpb, hmem⟩, hix, hholds, hyw⟩ := State.picBegin_effect hk hy
  have htr : s.Touches r _ := hr ▸ s.releaseOver_touches
  have htx : r.Touches x _ := hx ▸ r.advanceGops_touches k 64
  have hty : x.Touches y _ := hy ▸ x.picBegin_touches k f
  have htt : y.Touches t _ := ht ▸ y.showRecorder_touches
  have hst : t.stream k = y.stream k := congrArg (fun h : Tbl HencSt => h.get k) (htt.same .henc (by decide))
  have hxix : (x.stream k).index = (s.stream k).index := (congrArg HencSt.index hxk).trans hrix
  have hxes : x.esCount k = s.esCount k := by
    refine (congrArg (fun u : State => u.esCount k) hxr).trans (hrw.fld (show keyOf Reg.HENC_ES_CFG (lead k) ≠ _ from ?_))
    unfold keyOf lead Pg.henc Pg.recorder
    simp only
    omega
  have hdraw : t.draw = r.draw := by
    have h := ((htx.mono (l' := [.regs, .splitHolds, .henc]) rfl).trans (.trans hty (htt.mono rfl))).eq_mix
    exact (congrArg State.draw h : t.draw = (r.mix t _).draw).trans rfl
  refine ⟨⟨p, hst ▸ hcur, hpf, hpi.trans hxix, hpk, hpr, hpt, hpq, ?_, hst ▸ hmem⟩, ?_, ?_, ?_, ?_, ?_⟩
  · rw [hpb, hxix, hxes]
  · rw [hst, hix, hxix]
  · rw [htt.same .splitHolds (by decide), hholds]
  · rw [← hdraw]
    exact (((htr.trans (htx.mono rfl)).trans (.trans (hty.mono rfl) (htt.mono rfl))).mono
      (l' := [.regs, .ctlLatches, .splitHolds, .henc] ++ drawParts) rfl).eq_mix
  · have hxw : s.WritesIn x (onPages ([Pg.iris, Pg.recorder] ++ pagesOf Pg.henc 8)) :=
      .of_regs (hrw.mono fun a ha => ha ▸ onPages_keyOf (by decide) (by decide)) (htx.same .regs (by decide))
    refine (hxw.trans (hyw.mono fun a ha => ?_)).trans ((ht ▸ y.writesIn_showRecorder).mono fun a ha => ?_)
    · exact onPages_mono (by decide) (onPages_of_streamShown ha)
    · simp only [List.mem_cons, List.not_mem_nil, or_false] at ha
      rcases ha with rfl | rfl | rfl <;> exact onPages_keyOf (by decide) (by decide)
  · exact (((htr.trans (htx.mono rfl)).trans (.trans (hty.mono rfl) (htt.mono rfl)))).keepsBytes rfl

/-! ### A picture is complete -/

/-- The access unit of a picture in work with its header, as it goes to DRAM. -/
def State.picBytes (s : State) (k : Nat) (p : HencPic) (au : List Byte) : List Byte :=
  s.hevcHeader k p au (s.overhead k p) ((s.coded k p).countP (·.floor)) ++ au

/-- The state with the access unit in DRAM, shown and counted. -/
def State.picWritten (s : State) (k n : Nat) (p : HencPic) (au : List Byte) : State :=
  ((((((s.pokeN (s.esAddr k p.buf) (s.picBytes k p au)).setFld64 (lead k) Reg.HENC_LAST_FRAME_LO Reg.HENC_LAST_FRAME_HI p.frame).setFld (lead k)
    Reg.HENC_LAST_BYTES au.length).countBy (lead k) Reg.HENC_FLOOR_UNITS n).raiseIf (decide (n ≠ 0)) (lead k) Reg.HENC_EVENT_FLOOR).raiseIf
    (decide (n ≠ 0)) Pg.iris Reg.IRIS_EVENT_FLOOR)

/-- A stream after its picture in work: the picture joins the references, and its access unit waits for the Recorder or is released. -/
def State.picJoined (s : State) (k : Nat) (p : HencPic) (h : HencSt) (st : IrisSt) : HencSt :=
  { h with
    cur := none, coded := p.frame :: h.coded, hist := (st :: h.hist).take 2
    bufs := if s.recorded p.frame then h.bufs.map fun b => if b.1 = p.buf then (b.1, b.2.1, true) else b
      else h.bufs.filter fun b => decide (b.1 ≠ p.buf)
    refs := s.reconstruct k p (s.sliceNal k p (s.coded k p)) :: s.keptRefs k p }

/-- The registers of a completed picture's access unit and its floor units. -/
def picMay (k a : Nat) : Prop :=
  a ∈ [keyOf Reg.HENC_LAST_FRAME_LO (lead k), keyOf Reg.HENC_LAST_FRAME_HI (lead k), keyOf Reg.HENC_LAST_BYTES (lead k),
    keyOf Reg.HENC_FLOOR_UNITS (lead k), keyOf Reg.HENC_EVENT_FLOOR (lead k), keyOf Reg.IRIS_EVENT_FLOOR Pg.iris]

theorem picMay_iff {k a : Nat} : picMay k a ↔ a / 0x1000 = lead k ∧ a % 0x1000 ∈ [0x064, 0x068, 0x06C, 0x070, 0x010]
    ∨ a = keyOf Reg.IRIS_EVENT_FLOOR Pg.iris := by
  simp only [picMay, keyOf, List.mem_cons, List.not_mem_nil, or_false]
  omega

theorem State.hevcHeader_length (s : State) (k : Nat) (p : HencPic) (au : List Byte) (o n : Nat) : (s.hevcHeader k p au o n).length = 64 := by
  simp [State.hevcHeader, zeros]

theorem State.picWritten_touches (s : State) (k n : Nat) (p : HencPic) (au : List Byte) :
    s.Touches (s.picWritten k n p au) [.regs, .ctlLatches, .dram] := by
  unfold State.picWritten
  refine .after (State.raiseIf_touches ..) (.after (State.raiseIf_touches ..) (.after (State.countBy_touches ..)
    (.after (State.setFld_touches ..) (.after (State.setFld64_touches ..) ((State.pokeN_touches ..).mono ?_) ?_) ?_) ?_) ?_) ?_ <;> rfl

theorem State.picWritten_writesIn (s : State) (k n : Nat) (p : HencPic) (au : List Byte) : s.WritesIn (s.picWritten k n p au) (picMay k) := by
  have h1 : s.WritesIn (s.pokeN (s.esAddr k p.buf) (s.picBytes k p au)) (picMay k) := .of_regs (.refl s _) rfl
  unfold State.picWritten
  refine .raiseIf (.raiseIf (.countBy (.setFld (.setFld64 h1 _ ?_ ?_) _ ?_) _ ?_) ?_) ?_ <;> simp [picMay]

theorem State.picDone_of_rows {n : Nat} {p : HencPic} {au : List Byte} (hcur : (s.stream k).cur = some p)
    (hrows : ∀ y, y < (s.ctbs k).2 → s.rowReady k p.frame y = true) (hn : n = (s.coded k p).countP (·.floor))
    (hau : au = (s.auHead k p ++ s.sliceNal k p (s.coded k p)).take (s.fld (lead k) Reg.HENC_ES_CAP)) {w : State} (hw : w = s.picWritten k n p au)
    {st : IrisSt} (hst : st = w.irisNext k p.frame p.kind (8 * au.length) (decide (n ≠ 0))
      ((w.stream k).hist.headD ((w.stream k).init.getD default))) :
    s.picDone k = (((((w.putStream k (s.picJoined k p (w.stream k) st)).freeBuf (.henc k) (s.rendOf k) p.frame).advanceGops k 64).showIris k
      st).showHenc) := by
  have hany : ((List.range (s.ctbs k).2).any fun y => !s.rowReady k p.frame y) = false :=
    List.any_eq_false.2 fun y hy => by simp [hrows y (List.mem_range.1 hy)]
  subst hst hw hau hn
  unfold State.picDone
  simp only [hcur, hany, Bool.false_eq_true, if_false]
  rfl

theorem State.picDone_of_row {y : Nat} {p : HencPic} (hcur : (s.stream k).cur = some p) (hy : y < (s.ctbs k).2)
    (hrow : s.rowReady k p.frame y = false) : s.picDone k = s := by
  have hany : ((List.range (s.ctbs k).2).any fun y => !s.rowReady k p.frame y) = true :=
    List.any_eq_true.2 ⟨y, List.mem_range.2 hy, by simp [hrow]⟩
  unfold State.picDone
  simp only [hcur, hany, if_true]

/-- What a frame's active copies give, where only registers below them are written. -/
theorem State.fval_of_writes {P : Nat → Prop} (hv : u.ingress.frameVals = s.ingress.frameVals) (hw : s.WritesIn u P)
    (hP : ∀ a, P a → a % 0x1000 < 0x800) (n p : Nat) (f : Fld) : u.fval n p f = s.fval n p f := by
  have hact : Sparse.read factoryWord u.activeCopies (keyOf (actOf f) p) = Sparse.read factoryWord s.activeCopies (keyOf (actOf f) p) := by
    have h := fun v : State => Sparse.read_filter factoryWord (fun k => decide (0x800 ≤ k % 0x1000) && decide (k % 0x1000 < 0xC00)) v.regs
      (keyOf (actOf f) p)
    refine (h u).trans (Eq.trans ?_ (h s).symm)
    split
    · next hin =>
      simp only [Bool.and_eq_true, decide_eq_true_eq] at hin
      exact hw _ fun ha => absurd (hP _ ha) (by omega)
    · rfl
  unfold State.fval State.frameRegs
  rw [hv]
  congr 1
  split
  · rfl
  · exact hact

theorem State.irisNext_congr (hw : s.WritesIn u (picMay k)) (hk : k < 8) (hv : u.ingress.frameVals = s.ingress.frameVals)
    (f kind size : Nat) (floored : Bool) (i : IrisSt) : u.irisNext k f kind size floored i = s.irisNext k f kind size floored i := by
  have hval : ∀ n p g, u.fval n p g = s.fval n p g := State.fval_of_writes hv hw fun a ha => by
    simp only [picMay_iff, keyOf, List.mem_cons, List.not_mem_nil, or_false] at ha
    omega
  have hiris : ∀ g : Fld, g.off < 0x1000 → g.off ≠ 0x010 → u.fld Pg.iris g = s.fld Pg.iris g := fun g h h' => hw.fld fun ha => by
    simp only [picMay_iff, keyOf, List.mem_cons, List.not_mem_nil, or_false, lead, Pg.henc, Pg.iris] at ha
    omega
  have hgop : ∀ lo n, u.fld (lead k) ⟨0x044, lo, n⟩ = s.fld (lead k) ⟨0x044, lo, n⟩ := fun lo n => hw.fld fun ha => by
    simp only [picMay_iff, keyOf, List.mem_cons, List.not_mem_nil, or_false, lead, Pg.henc, Pg.iris] at ha
    omega
  have htrig : ∀ g : Fld, g.off < 0x1000 → u.fld Pg.trig g = s.fld Pg.trig g := fun g h => hw.fld fun ha => by
    simp only [picMay_iff, keyOf, List.mem_cons, List.not_mem_nil, or_false, lead, Pg.henc, Pg.trig, Pg.iris] at ha
    omega
  have hrate : u.takeRate = s.takeRate := by
    rw [State.takeRate, htrig _ (by decide), htrig _ (by decide)]
    rfl
  have hmode : u.rcMode k = s.rcMode k := by
    rw [State.rcMode, State.on, hiris _ (by decide) (by decide), hiris (Reg.IRIS_RC_CFG k) (by simp only; omega) (by simp only; omega)]
    rfl
  have hbuf : u.bufKbit k = s.bufKbit k := by
    rw [State.bufKbit, hiris (Reg.IRIS_BUF k) (by simp only; omega) (by simp only; omega)]
    rfl
  have hkinds : u.kindCounts k = s.kindCounts k := by
    simp only [State.kindCounts, hgop]
  simp only [State.irisNext, State.target, State.frameBits, State.weight, State.qpLim, State.iris, hval, hrate, hmode, hbuf, hkinds, hgop]

theorem State.picWritten_fields {n : Nat} {p : HencPic} {au : List Byte} {w : State} (hk : k < 8) (hw : w = s.picWritten k n p au) :
    w.fld64 (lead k) Reg.HENC_LAST_FRAME_LO Reg.HENC_LAST_FRAME_HI = p.frame % 2 ^ 64
      ∧ w.fld (lead k) Reg.HENC_LAST_BYTES = au.length % 2 ^ Reg.HENC_LAST_BYTES.width
      ∧ w.fld (lead k) Reg.HENC_FLOOR_UNITS = min (s.fld (lead k) Reg.HENC_FLOOR_UNITS + n) (2 ^ Reg.HENC_FLOOR_UNITS.width - 1)
      ∧ (n ≠ 0 → w.fld (lead k) Reg.HENC_EVENT_FLOOR = 1 ∧ w.fld Pg.iris Reg.IRIS_EVENT_FLOOR = 1) := by
  unfold State.picWritten at hw
  obtain ⟨a, ha⟩ : ∃ a, a = s.pokeN (s.esAddr k p.buf) (s.picBytes k p au) := ⟨_, rfl⟩
  obtain ⟨b, hb⟩ : ∃ b, b = a.setFld64 (lead k) Reg.HENC_LAST_FRAME_LO Reg.HENC_LAST_FRAME_HI p.frame := ⟨_, rfl⟩
  obtain ⟨c, hc⟩ : ∃ c, c = b.setFld (lead k) Reg.HENC_LAST_BYTES au.length := ⟨_, rfl⟩
  obtain ⟨d, hd⟩ : ∃ d, d = c.countBy (lead k) Reg.HENC_FLOOR_UNITS n := ⟨_, rfl⟩
  rw [← ha, ← hb, ← hc, ← hd] at hw
  have hne : ∀ {f g : Fld}, f.off < g.off → g.off < 0x1000 → keyOf f (lead k) ≠ keyOf g (lead k) := fun h _ => by
    unfold keyOf
    omega
  have hni : ∀ {f : Fld}, f.off < 0x1000 → keyOf f (lead k) ≠ keyOf Reg.IRIS_EVENT_FLOOR Pg.iris := fun _ => by
    unfold keyOf lead Pg.henc Pg.iris
    simp only
    omega
  have hdw : ∀ f : Fld, f.lo + f.width ≤ 32 → 0x010 < f.off → f.off < 0x1000 → w.fld (lead k) f = d.fld (lead k) f := fun f h h' h'' => by
    rw [hw, State.fld_raiseIf_ne _ _ _ _ _ _ h (.inl (hni h'')), State.fld_raiseIf_ne _ _ _ _ _ _ h (.inl (hne h' h'').symm)]
  have hcd : ∀ f : Fld, f.lo + f.width ≤ 32 → f.off < 0x070 → d.fld (lead k) f = c.fld (lead k) f := fun f h h' => by
    rw [hd, State.fld_countBy_ne _ _ _ _ _ _ h (.inl (hne h' (by decide)))]
  have hbc : ∀ f : Fld, f.lo + f.width ≤ 32 → f.off < 0x06C → c.fld (lead k) f = b.fld (lead k) f := fun f h h' => by
    rw [hc, State.fld_setFld_ne _ _ _ _ _ _ h (.inl (hne h' (by decide)))]
  refine ⟨?_, ?_, ?_, fun hn => ?_⟩
  · rw [State.fld64, hdw _ (by decide) (by decide) (by decide), hdw _ (by decide) (by decide) (by decide), hcd _ (by decide) (by decide),
      hcd _ (by decide) (by decide), hbc _ (by decide) (by decide), hbc _ (by decide) (by decide), hb]
    exact a.fld64_setFld64 _ (by decide) (by decide) rfl rfl (hne (by decide) (by decide))
  · rw [hdw _ (by decide) (by decide) (by decide), hcd _ (by decide) (by decide), hc, State.fld_setFld_same _ _ _ _ (by decide)]
  · rw [hdw _ (by decide) (by decide) (by decide), hd, State.fld_countBy_same _ _ _ _ (by decide), hc,
      State.fld_setFld_ne _ _ _ _ _ _ (by decide) (.inl (hne (by decide) (by decide)).symm), hb, State.setFld64,
      State.fld_setFld_ne _ _ _ _ _ _ (by decide) (.inl (hne (by decide) (by decide)).symm),
      State.fld_setFld_ne _ _ _ _ _ _ (by decide) (.inl (hne (by decide) (by decide)).symm), ha]
    rfl
  · rw [hw, decide_eq_true hn, State.raiseIf, if_pos rfl]
    refine ⟨?_, State.fld_raise_same _ _ _ (by decide) rfl⟩
    rw [State.fld_raise_ne _ _ _ _ _ (by decide) (.inl (hni (by decide))), State.raiseIf, if_pos rfl]
    exact State.fld_raise_same _ _ _ (by decide) rfl

theorem not_shown_of_lead {f : Fld} (hf : f.off ∉ [0x00C, 0x078, 0x07C]) (hlt : f.off < 0x1000) (hk : k < 8) :
    ¬ streamShown (keyOf f (lead k)) := by
  rintro (⟨h, -⟩ | ⟨h, -⟩)
  · simp only [onPages, keyOf, lead, Pg.henc, Pg.iris, List.mem_cons, List.not_mem_nil, or_false] at h
    omega
  · exact hf (by rwa [show keyOf f (lead k) % 0x1000 = f.off from by unfold keyOf; omega] at h)

theorem State.picDone_effect {n : Nat} {p : HencPic} {au : List Byte} {w : State} {st : IrisSt} (hk : k < 8)
    (hn : n = (s.coded k p).countP (·.floor)) (hau : au.length ≤ s.fld (lead k) Reg.HENC_ES_CAP) (hw : w = s.picWritten k n p au)
    (ht : t = ((((w.putStream k (s.picJoined k p (w.stream k) st)).freeBuf (.henc k) (s.rendOf k) p.frame).advanceGops k 64).showIris k
      st).showHenc) :
    t.dram = (s.pokeN (s.esAddr k p.buf) (s.hevcHeader k p au (s.overhead k p) n ++ au)).dram
      ∧ s.StoresDram t (s.esAddr k p.buf) (64 + s.fld (lead k) Reg.HENC_ES_CAP)
      ∧ (∀ f : Fld, f.off ∉ [0x00C, 0x078, 0x07C] → f.off < 0x1000 → t.fld (lead k) f = w.fld (lead k) f)
      ∧ t.fld Pg.iris Reg.IRIS_EVENT_FLOOR = w.fld Pg.iris Reg.IRIS_EVENT_FLOOR
      ∧ (t.stream k).cur = none
      ∧ (t.stream k).hist = (st :: (s.stream k).hist).take 2
      ∧ (t.stream k).refs = s.reconstruct k p (s.sliceNal k p (s.coded k p)) :: s.keptRefs k p
      ∧ (∀ j, j ≠ k → t.stream j = s.stream j)
      ∧ t.split.holds = s.split.holds.filter (fun h => decide (h ≠ (Reader.henc k, s.rendOf k, p.frame)))
      ∧ t = { s.regsOf t with dram := t.dram, henc := t.henc, split := { s.split with holds := t.split.holds } }
      ∧ s.KeepsPages t (Pg.iris :: pagesOf Pg.henc 8) := by
  obtain ⟨a, ha⟩ : ∃ a, a = (w.putStream k (s.picJoined k p (w.stream k) st)).freeBuf (.henc k) (s.rendOf k) p.frame := ⟨_, rfl⟩
  obtain ⟨b, hb⟩ : ∃ b, b = a.advanceGops k 64 := ⟨_, rfl⟩
  obtain ⟨c, hc⟩ : ∃ c, c = b.showIris k st := ⟨_, rfl⟩
  rw [← ha, ← hb, ← hc] at ht
  have hsw : s.Touches w _ := hw ▸ s.picWritten_touches k n p au
  have hbt : b.Touches t [.regs] := ht ▸ .after c.showHenc_touches (hc ▸ b.showIris_touches ..) rfl
  have hat : a.Touches t [.regs, .henc] := (Touches.mono (hb ▸ a.advanceGops_touches k 64) rfl).trans (hbt.mono rfl)
  obtain ⟨habk, hab, habr⟩ : a.MovedOn b k := hb ▸ a.advanceGops_movedOn k 64
  have htb : ∀ j, t.stream j = b.stream j := fun j => congrArg (fun h : Tbl HencSt => h.get j) (hbt.same .henc (by decide))
  have hws : ∀ j, w.stream j = s.stream j := fun j => congrArg (fun h : Tbl HencSt => h.get j) (hsw.same .henc (by decide))
  have hak : a.stream k = s.picJoined k p (w.stream k) st := by
    rw [ha]
    exact State.stream_putStream ..
  have hwa : w.Touches a [.henc, .splitHolds] := ha ▸ .after (State.freeBuf_touches ..) ((State.putStream_touches ..).mono rfl) rfl
  have hdram : t.dram = (s.pokeN (s.esAddr k p.buf) (s.hevcHeader k p au (s.overhead k p) n ++ au)).dram := by
    have h1 : w.dram = (s.pokeN (s.esAddr k p.buf) (s.picBytes k p au)).dram := by
      rw [hw, State.picWritten]
      generalize s.pokeN _ _ = v
      refine State.Touches.same (l := [.regs, .ctlLatches]) (.after (State.raiseIf_touches ..) (.after (State.raiseIf_touches ..)
        (.after (State.countBy_touches ..) (.after (State.setFld_touches ..) ((State.setFld64_touches ..).mono ?_) ?_) ?_) ?_) ?_) .dram
        (by decide) <;> rfl
    rw [hat.same .dram (by decide), hwa.same .dram (by decide), h1, State.picBytes, ← hn]
  have hbw : b.WritesIn t streamShown :=
    State.WritesIn.trans (t := c) (hc ▸ b.writesIn_showIris st hk) ((ht ▸ c.writesIn_showHenc).mono fun _ => .inr)
  have hwt : w.WritesIn t streamShown :=
    (State.WritesIn.of_regs (.refl w _) (by rw [habr, ha]; rfl)).trans hbw
  have htou : s.Touches t [.regs, .ctlLatches, .splitHolds, .henc, .dram] := (hsw.mono rfl).trans ((hwa.mono rfl).trans (hat.mono rfl))
  refine ⟨hdram, ⟨fun x hx => ?_, fun x => ?_, fun x => ?_, fun i x => ?_⟩, fun f hf hlt => hwt.fld (not_shown_of_lead hf hlt hk), ?_, ?_, ?_, ?_,
    fun j hj => ?_, ?_, htou.eq_mix, ?_⟩
  · rw [hdram, State.get_pokeN_outside]
    rw [List.length_append, State.hevcHeader_length]
    omega
  · rw [htou.same .fstoreMem (by decide)]
  · rw [htou.same .relayCluster (by decide)]
  · rw [State.drive, htou.same .mediaDrives (by decide)]
    rfl
  · exact hwt.fld fun h => h.elim (fun h' => h'.2 (by decide)) fun h' => absurd h'.1 (by decide)
  · rw [htb, habk, hak]
    rfl
  · rw [htb, habk, hak, hws]
    rfl
  · rw [htb, habk, hak]
    rfl
  · rw [htb, hab j hj, ha]
    exact (State.stream_putStream_other _ _ hj).trans (hws j)
  · rw [hat.same .splitHolds (by decide), ha, ← hsw.same .splitHolds (by decide)]
    rfl
  · refine ((hw ▸ s.picWritten_writesIn k n p au).mono fun x hx => ?_).trans (hwt.mono fun x hx => ?_)
    · rcases picMay_iff.1 hx with ⟨h, -⟩ | rfl
      · exact List.mem_cons_of_mem _ (List.mem_map.2 ⟨k, List.mem_range.2 hk, by rw [h]; unfold lead Pg.henc; omega⟩)
      · exact onPages_keyOf (by decide) (by decide)
    · exact onPages_of_streamShown hx

/-- Settles O39: where each picture begins and completes is fixed by its stream, and the rest follows from what its stages write. -/
theorem hevcPictures : Obligations.HevcPictures := by
  unfold Obligations.HevcPictures
  refine ⟨fun s x k f hk hon hcur hrun hx hf hrow hes => ?_, fun s k n p au hk hcur hrows hn hau => ?_, fun s k y p hcur hy hrow => ?_,
    fun s c hc => ?_⟩
  · obtain ⟨t, ht⟩ : ∃ t, t = s.hencBegin k := ⟨_, rfl⟩
    exact ⟨t, congrArg Host.Outcome.next ht.symm,
      State.hencBegin_effect hk hx (ht.trans (State.hencBegin_of_free hon hcur hrun hx hf hrow hes))⟩
  · obtain ⟨w, hw⟩ : ∃ w, w = s.picWritten k n p au := ⟨_, rfl⟩
    obtain ⟨st, hst⟩ : ∃ st, st = w.irisNext k p.frame p.kind (8 * au.length) (decide (n ≠ 0))
      ((w.stream k).hist.headD ((w.stream k).init.getD default)) := ⟨_, rfl⟩
    obtain ⟨t, ht⟩ : ∃ t, t = s.picDone k := ⟨_, rfl⟩
    have hcap : au.length ≤ s.fld (lead k) Reg.HENC_ES_CAP := by
      rw [hau, List.length_take]
      exact Nat.min_le_left _ _
    obtain ⟨hframe, hbytes, hunits, hfloor⟩ := State.picWritten_fields hk hw
    obtain ⟨hdram, hstores, hlead, hiris, hnone, hhist, hrefs, hother, hholds, hrest, hpages⟩ :=
      State.picDone_effect hk hn hcap hw (ht.trans (State.picDone_of_rows hcur hrows hn hau hw hst))
    have hws : w.stream k = s.stream k := congrArg (fun h : Tbl HencSt => h.get k) ((hw ▸ s.picWritten_touches k n p au).same .henc (by decide))
    have hnext : st = s.irisNext k p.frame p.kind (8 * au.length) (decide (n ≠ 0))
        ((s.stream k).hist.headD ((s.stream k).init.getD default)) := by
      rw [hst, hws]
      exact State.irisNext_congr (hw ▸ s.picWritten_writesIn k n p au) hk
        ((hw ▸ s.picWritten_touches k n p au).same .ingressFrameVals (by decide)) ..
    refine ⟨t, congrArg Host.Outcome.next ht.symm, hdram, hstores, ?_, ?_, ?_, fun hn0 => ⟨?_, ?_⟩, hnone, ?_, hrefs, hother, hholds, hrest,
      hpages⟩
    · rw [State.fld64, hlead _ (by decide) (by decide), hlead _ (by decide) (by decide)]
      exact hframe
    · rw [hlead _ (by decide) (by decide), hbytes]
    · rw [hlead _ (by decide) (by decide), hunits]
    · rw [hlead _ (by decide) (by decide), (hfloor hn0).1]
    · rw [hiris, (hfloor hn0).2]
    · rw [hhist, hnext]
  · exact congrArg Host.Outcome.next (State.picDone_of_row hcur hy hrow)
  · obtain ⟨t, ht⟩ : ∃ t, t = s.hencFault c := ⟨_, rfl⟩
    exact ⟨t, congrArg Host.Outcome.next ht.symm, State.hencFault_effect hc ht⟩

end Sys2Proof.Machine
end

section
/-! PROOFS. The Condenser's register jobs, suspended and resumed (R420, R428). -/

set_option Elab.async false

namespace Sys2Proof.Machine

variable {s t u : State} {j : CondJob}

/-! ### The Condenser's page -/

theorem keyOf_cond_ne {f g : Fld} (h : f.off ≠ g.off) : keyOf f Pg.cond ≠ keyOf g Pg.cond := by
  unfold keyOf
  omega

/-- What a field of the Condenser's page reads after a write of another field. -/
theorem State.fld_setCondFld_ne (s : State) {f g : Fld} (v : Nat) (hg : g.lo + g.width ≤ 32)
    (h : g.off ≠ f.off ∨ f.lo + f.width ≤ g.lo ∨ g.lo + g.width ≤ f.lo) : (s.setFld Pg.cond f v).fld Pg.cond g = s.fld Pg.cond g :=
  State.fld_setFld_ne _ _ _ _ _ _ hg (h.imp keyOf_cond_ne id)

theorem onPages_cond {f : Fld} (hf : f.off < 0x1000 := by decide) : onPages [Pg.cond] (keyOf f Pg.cond) := onPages_single hf (by decide)

theorem State.peekN_congr (hd : u.dram = s.dram) (hz : u.dramSize = s.dramSize) (a n : Nat) : u.peekN a n = s.peekN a n := by
  unfold State.peekN
  rw [hd, hz]

theorem State.dramSize_congr (hw : s.WritesIn u (onPages [Pg.cond])) : u.dramSize = s.dramSize := by
  unfold State.dramSize
  rw [hw.fld (by unfold onPages; decide)]

theorem State.cond_of_touches {l : List Part} (h : s.Touches t l) (hq : Part.condQueue ∉ l := by decide)
    (hp : Part.condParked ∉ l := by decide) : t.cond = s.cond := by
  have h1 : t.cond.queue = s.cond.queue := h.same .condQueue hq
  have h2 : t.cond.parked = s.cond.parked := h.same .condParked hp
  calc t.cond = ⟨t.cond.queue, t.cond.parked⟩ := rfl
    _ = s.cond := by rw [h1, h2]

/-! ### Whether the Condenser starts work -/

theorem State.heldOn_cond (h : s.cond.queue ≠ []) : s.heldOn Pg.cond = true := by
  have hrun : s.powerRuns Pg.cond = !s.cond.queue.isEmpty := rfl
  unfold State.heldOn
  rw [hrun, List.isEmpty_eq_false_iff.2 h]
  simp

/-- A domain that is on, and that a job or its own request keeps on, stays as it is. -/
theorem State.settle_cond (h : s.fld Pg.cond Reg.COMMON_PWR_REQ_STATUS = 3)
    (hr : s.cond.queue ≠ [] ∨ s.fld Pg.cond Reg.COMMON_PWR_REQ_REQ = 3) : s.settle Pg.cond = s := by
  have hheld : s.heldOn Pg.cond = true ∨ reqOf (s.fld Pg.cond Reg.COMMON_PWR_REQ_REQ) = 3 :=
    hr.imp State.heldOn_cond fun e => by rw [e]; rfl
  unfold State.settle
  dsimp only
  rw [if_pos hheld, if_pos h, ite_self]

theorem State.condMay_congr (hs : u.fld Pg.cond Reg.COMMON_PWR_REQ_STATUS = s.fld Pg.cond Reg.COMMON_PWR_REQ_STATUS)
    (hh : u.pwr.held = s.pwr.held) (hl : u.pwr.limiting = s.pwr.limiting) : u.condMay = s.condMay := by
  unfold State.condMay State.heldReq
  rw [hs, hh, hl]

theorem State.condMay_of_not (h : (s.heldReq Pg.cond).isSome = true) : s.condMay = false := by
  unfold State.condMay
  rw [Option.isNone_eq_false_iff.2 h]
  simp

/-- The engine starts the first job, when it may. -/
theorem State.condStart_effect (ht : t = s.condStart) :
    s.WritesIn t (· = keyOf Reg.COND_STATE_BUSY Pg.cond) ∧ s.Touches t [.regs]
      ∧ t.on Pg.cond Reg.COND_STATE_BUSY = (s.on Pg.cond Reg.COND_STATE_BUSY || (!s.cond.queue.isEmpty && s.condMay))
      ∧ (s.on Pg.cond Reg.COND_STATE_BUSY = true ∨ (∀ x ∈ s.cond.queue, x.cmd.isSome = true) →
        t.fld Pg.cond Reg.COND_STATE_PHASE = s.fld Pg.cond Reg.COND_STATE_PHASE) := by
  have htou : s.Touches t [.regs] := ht ▸ s.condStart_touches
  unfold State.condStart at ht
  cases hq : s.cond.queue with
  | nil =>
    simp only [hq] at ht
    rw [ht]
    exact ⟨.refl s _, .refl s _, by simp, fun _ => rfl⟩
  | cons j l =>
    simp only [hq] at ht
    by_cases hb : (s.on Pg.cond Reg.COND_STATE_BUSY || !s.condMay) = true
    · rw [if_pos hb] at ht
      rw [ht]
      refine ⟨.refl s _, .refl s _, ?_, fun _ => rfl⟩
      cases h : s.on Pg.cond Reg.COND_STATE_BUSY <;> simp_all
    · rw [if_neg hb] at ht
      simp only [Bool.or_eq_true, Bool.not_eq_true', not_or, Bool.not_eq_true, Bool.not_eq_false] at hb
      refine ⟨?_, htou, ?_, fun h => ?_⟩
      · rw [ht]
        have h1 : s.WritesIn (s.setFld Pg.cond Reg.COND_STATE_BUSY 1) (· = keyOf Reg.COND_STATE_BUSY Pg.cond) := .setFld (.refl s _) _ rfl
        exact .ite (.setFld h1 _ rfl) h1
      · have hbusy : t.fld Pg.cond Reg.COND_STATE_BUSY = 1 := by
          rw [ht]
          split
          · rw [State.fld_setCondFld_ne _ _ (by decide) (.inr (.inl (by decide)))]
            exact State.fld_setFld_of_width _ _ _ _ (by decide) (by decide)
          · exact State.fld_setFld_of_width _ _ _ _ (by decide) (by decide)
        rw [State.on, hbusy, hb.2]
        simp
      · have hj : j.cmd ≠ none := fun e => by
          rcases h with h | h
          · rw [hb.1] at h
            cases h
          · have := h j (by simp)
            rw [e] at this
            cases this
        rw [ht, if_neg hj]
        exact State.fld_setCondFld_ne _ _ (by decide) (.inr (.inr (by decide)))

theorem State.condStart_register (hb : s.on Pg.cond Reg.COND_STATE_BUSY = false) (hm : s.condMay = true) (hq : s.cond.queue = [j])
    (hj : j.cmd = none) : s.condStart.fld Pg.cond Reg.COND_STATE_PHASE = 1 := by
  unfold State.condStart
  simp only [hq, hb, hm, hj, Bool.not_true, Bool.or_self, Bool.false_eq_true, if_false, if_true]
  exact State.fld_setFld_of_width _ _ _ _ (by decide) (by decide)

/-- The state with the engine free of its job, before the next one starts. -/
def State.condIdle (s : State) : State := (s.setFld Pg.cond Reg.COND_STATE_BUSY 0).setCond { s.cond with queue := s.cond.queue.drop 1 }

theorem State.condFree_eq (s : State) :
    s.condFree = (if (s.condIdle.heldReq Pg.cond).isSome then s.condIdle else s.condIdle.settle Pg.cond).condStart := rfl

theorem State.fld_condIdle (s : State) (g : Fld) : s.condIdle.fld Pg.cond g = (s.setFld Pg.cond Reg.COND_STATE_BUSY 0).fld Pg.cond g := rfl

/-- The engine is free of its job while its domain stays on. -/
theorem State.condFree_effect (hs : s.fld Pg.cond Reg.COMMON_PWR_REQ_STATUS = 3) (hr : s.fld Pg.cond Reg.COMMON_PWR_REQ_REQ = 3)
    (ht : t = s.condFree) :
    s.WritesIn t (· = keyOf Reg.COND_STATE_BUSY Pg.cond) ∧ t.cond = { s.cond with queue := s.cond.queue.drop 1 }
      ∧ s.Touches t [.regs, .condQueue]
      ∧ t.on Pg.cond Reg.COND_STATE_BUSY = (!(s.cond.queue.drop 1).isEmpty && s.condMay)
      ∧ ((∀ x ∈ s.cond.queue.drop 1, x.cmd.isSome = true) → t.fld Pg.cond Reg.COND_STATE_PHASE = s.fld Pg.cond Reg.COND_STATE_PHASE) := by
  obtain ⟨v, hv⟩ : ∃ v, v = s.condIdle := ⟨_, rfl⟩
  have hfld : ∀ g : Fld, g.lo + g.width ≤ 32 → g.off ≠ 0x00C ∨ 3 + 1 ≤ g.lo ∨ g.lo + g.width ≤ 3 → v.fld Pg.cond g = s.fld Pg.cond g :=
    fun g h h' => by
      rw [hv, State.fld_condIdle]
      exact State.fld_setCondFld_ne _ _ h h'
  have hsv : s.Touches v [.regs, .condQueue] := hv ▸ .of_mix rfl rfl
  have hvw : s.WritesIn v (· = keyOf Reg.COND_STATE_BUSY Pg.cond) := by
    rw [hv]
    exact .of_regs (.setFld (f := Reg.COND_STATE_BUSY) (p := Pg.cond) (.refl s _) 0 rfl) rfl
  have htv : t = v.condStart := by
    rw [ht, State.condFree_eq, ← hv]
    split
    · rfl
    · rw [State.settle_cond ((hfld _ (by decide) (.inl (by decide))).trans hs) (.inr ((hfld _ (by decide) (.inl (by decide))).trans hr))]
  have hvc : v.cond = { s.cond with queue := s.cond.queue.drop 1 } := hv ▸ rfl
  have hvb : v.on Pg.cond Reg.COND_STATE_BUSY = false := by
    rw [State.on, hv, State.fld_condIdle, State.fld_setFld_of_width _ _ _ _ (by decide) (by decide)]
    rfl
  have hvm : v.condMay = s.condMay :=
    State.condMay_congr (hfld _ (by decide) (.inl (by decide))) (hsv.same .pwrHeld (by decide)) (hsv.same .pwrLimiting (by decide))
  obtain ⟨hw, htou, hon, hph⟩ := State.condStart_effect htv
  refine ⟨hvw.trans hw, ?_, hsv.trans (htou.mono rfl), ?_, fun h => ?_⟩
  · rw [State.cond_of_touches htou, hvc]
  · rw [hon, hvb, hvc, hvm, Bool.false_or]
  · rw [hph (.inr (by rwa [hvc])), hfld _ (by decide) (.inr (.inr (by decide)))]

/-! ### A register job is accepted -/

theorem CondJob.enqueue_ne_nil (j : CondJob) (l : List CondJob) : j.enqueue l ≠ [] := by
  cases l with
  | nil => exact List.cons_ne_nil _ _
  | cons x t =>
    unfold CondJob.enqueue
    split
    · exact List.cons_ne_nil _ _
    · exact List.cons_ne_nil _ _

/-- The jobs that wait once one more has been accepted. -/
def State.condQueued (s : State) (j : CondJob) : List CondJob :=
  let n := if s.on Pg.cond Reg.COND_STATE_BUSY then 1 else 0
  s.cond.queue.take n ++ j.enqueue (s.cond.queue.drop n)

theorem State.condQueued_ne_nil (s : State) (j : CondJob) : s.condQueued j ≠ [] :=
  fun h => j.enqueue_ne_nil _ (List.append_eq_nil_iff.1 h).2

/-- The state with the register job among those that wait. -/
def State.condWaiting (s : State) (q : List CondJob) : State := (s.setCond { s.cond with queue := q }).setFld Pg.cond Reg.COND_STATE_PHASE 4

theorem State.condAccept_of_register (hj : j.cmd = none) :
    s.condAccept j = ((s.condWaiting (s.condQueued { j with order := s.hq.uidSeq })).settle Pg.cond).condStart := by
  unfold State.condAccept
  simp only [hj, if_true, Option.getD_none]
  rfl

theorem State.condAccept_effect (hj : j.cmd = none) (hs : s.fld Pg.cond Reg.COMMON_PWR_REQ_STATUS = 3) (ht : t = s.condAccept j) :
    t.cond = { s.cond with queue := s.condQueued { j with order := s.hq.uidSeq } } ∧ s.Touches t [.regs, .condQueue]
      ∧ s.WritesIn t (· = keyOf Reg.COND_STATE_BUSY Pg.cond)
      ∧ (s.on Pg.cond Reg.COND_STATE_BUSY = true →
        t.on Pg.cond Reg.COND_STATE_BUSY = true ∧ t.fld Pg.cond Reg.COND_STATE_PHASE = 4)
      ∧ (s.on Pg.cond Reg.COND_STATE_BUSY = false → s.cond.queue = [] → s.condMay = true →
        t.on Pg.cond Reg.COND_STATE_BUSY = true ∧ t.fld Pg.cond Reg.COND_STATE_PHASE = 1) := by
  obtain ⟨q, hq⟩ : ∃ q, q = s.condQueued { j with order := s.hq.uidSeq } := ⟨_, rfl⟩
  obtain ⟨v, hv⟩ : ∃ v, v = s.condWaiting q := ⟨_, rfl⟩
  have hvc : v.cond = { s.cond with queue := q } := hv ▸ rfl
  have hsv : s.Touches v [.regs, .condQueue] := hv ▸ .of_mix rfl rfl
  have hvw : s.WritesIn v (· = keyOf Reg.COND_STATE_BUSY Pg.cond) := by
    rw [hv, State.condWaiting]
    exact .setFld (.of_regs (.refl s _) rfl) _ rfl
  have hfld : ∀ g : Fld, g.lo + g.width ≤ 32 → g.off ≠ 0x00C ∨ 0 + 3 ≤ g.lo ∨ g.lo + g.width ≤ 0 → v.fld Pg.cond g = s.fld Pg.cond g :=
    fun g h h' => by
      rw [hv, State.condWaiting]
      exact (State.fld_setCondFld_ne _ _ h h').trans rfl
  have hph : v.fld Pg.cond Reg.COND_STATE_PHASE = 4 := by
    rw [hv]
    exact State.fld_setFld_of_width _ _ _ _ (by decide) (by decide)
  have hvb : v.on Pg.cond Reg.COND_STATE_BUSY = s.on Pg.cond Reg.COND_STATE_BUSY := by
    rw [State.on, State.on, hfld _ (by decide) (.inr (.inl (by decide)))]
  have hvm : v.condMay = s.condMay :=
    State.condMay_congr (hfld _ (by decide) (.inl (by decide))) (hsv.same .pwrHeld (by decide)) (hsv.same .pwrLimiting (by decide))
  have hne : v.cond.queue ≠ [] := by
    rw [hvc, hq]
    exact s.condQueued_ne_nil _
  have htv : t = v.condStart := by
    rw [ht, State.condAccept_of_register hj, ← hq, ← hv,
      State.settle_cond ((hfld _ (by decide) (.inl (by decide))).trans hs) (.inl hne)]
  obtain ⟨hw, htou, hon, hstay⟩ := State.condStart_effect htv
  rw [← hq]
  refine ⟨(State.cond_of_touches htou).trans hvc, hsv.trans (htou.mono rfl), hvw.trans hw, fun hb => ⟨?_, ?_⟩, fun hb hn hm => ⟨?_, ?_⟩⟩
  · rw [hon, hvb, hb, Bool.true_or]
  · rw [hstay (.inl (hvb.trans hb)), hph]
  · rw [hon, hvm, hm, List.isEmpty_eq_false_iff.2 hne]
    simp
  · rw [htv]
    refine State.condStart_register (j := { j with order := s.hq.uidSeq }) (hvb.trans hb) (hvm.trans hm) ?_ hj
    rw [hvc, hq, State.condQueued, hb, hn]
    rfl

/-! ### A register job ends -/

theorem State.condResult_effect {code verify detail : Nat} (ht : t = s.condResult code verify detail) :
    s.WritesIn t (fun a => a ∈ [keyOf Reg.COND_RESULT_CODE Pg.cond, keyOf Reg.COND_STATE_BUSY Pg.cond, keyOf Reg.COND_EVENT_JOB_DONE Pg.cond])
      ∧ t.fld Pg.cond Reg.COND_RESULT_CODE = code % 2 ^ Reg.COND_RESULT_CODE.width
      ∧ t.fld Pg.cond Reg.COND_RESULT_VERIFY = verify % 2 ^ Reg.COND_RESULT_VERIFY.width
      ∧ t.fld Pg.cond Reg.COND_STATE_PHASE = 0 ∧ t.fld Pg.cond Reg.COND_STATE_BUSY = s.fld Pg.cond Reg.COND_STATE_BUSY
      ∧ t.fld Pg.cond Reg.COND_EVENT_JOB_DONE = 1
      ∧ (∀ e : Fld, e.width = 1 → e.lo < 32 → s.fld Pg.cond e = 1 → e.off = 0x010 → t.fld Pg.cond e = 1) := by
  unfold State.condResult at ht
  obtain ⟨a, ha⟩ : ∃ a, a = s.setFld Pg.cond Reg.COND_RESULT_CODE code := ⟨_, rfl⟩
  obtain ⟨b, hb⟩ : ∃ b, b = a.setFld Pg.cond Reg.COND_RESULT_VERIFY verify := ⟨_, rfl⟩
  obtain ⟨c, hc⟩ : ∃ c, c = b.setFld Pg.cond Reg.COND_RESULT_DETAIL detail := ⟨_, rfl⟩
  obtain ⟨d, hd⟩ : ∃ d, d = c.setFld Pg.cond Reg.COND_STATE_PHASE 0 := ⟨_, rfl⟩
  simp only [← ha, ← hb, ← hc, ← hd] at ht
  have htd : ∀ g : Fld, g.lo + g.width ≤ 32 → g.off ≠ 0x010 → t.fld Pg.cond g = d.fld Pg.cond g := fun g h h' => by
    rw [ht]
    exact State.fld_raise_ne _ _ _ _ _ h (.inl (keyOf_cond_ne h'))
  refine ⟨?_, ?_, ?_, ?_, ?_, ?_, fun e he hlo h1 hoff => ?_⟩
  · rw [ht, hd, hc, hb, ha]
    refine .raise (.setFld (.setFld (.setFld (.setFld (.refl s _) _ ?_) _ ?_) _ ?_) _ ?_) ?_ <;> decide
  · rw [htd _ (by decide) (by decide), hd, State.fld_setCondFld_ne _ _ (by decide) (.inl (by decide)), hc,
      State.fld_setCondFld_ne _ _ (by decide) (.inr (.inr (by decide))), hb, State.fld_setCondFld_ne _ _ (by decide) (.inr (.inr (by decide))), ha,
      State.fld_setFld_same _ _ _ _ (by decide)]
  · rw [htd _ (by decide) (by decide), hd, State.fld_setCondFld_ne _ _ (by decide) (.inl (by decide)), hc,
      State.fld_setCondFld_ne _ _ (by decide) (.inr (.inr (by decide))), hb, State.fld_setFld_same _ _ _ _ (by decide)]
  · rw [htd _ (by decide) (by decide), hd]
    exact State.fld_setFld_of_width _ _ _ _ (by decide) (by decide)
  · rw [htd _ (by decide) (by decide), hd, State.fld_setCondFld_ne _ _ (by decide) (.inr (.inl (by decide))), hc,
      State.fld_setCondFld_ne _ _ (by decide) (.inl (by decide)), hb, State.fld_setCondFld_ne _ _ (by decide) (.inl (by decide)), ha,
      State.fld_setCondFld_ne _ _ (by decide) (.inl (by decide))]
  · rw [ht]
    exact State.fld_raise_same _ _ _ (by decide) rfl
  · have hg : ∀ {f : Fld}, f.off ≠ e.off → keyOf e Pg.cond ≠ keyOf f Pg.cond := fun h => keyOf_cond_ne h.symm
    have hd1 : d.fld Pg.cond e = 1 := by
      rw [hd, State.fld_setCondFld_ne _ _ (by omega) (.inl (by rw [hoff]; decide)), hc,
        State.fld_setCondFld_ne _ _ (by omega) (.inl (by rw [hoff]; decide)), hb,
        State.fld_setCondFld_ne _ _ (by omega) (.inl (by rw [hoff]; decide)), ha,
        State.fld_setCondFld_ne _ _ (by omega) (.inl (by rw [hoff]; decide)), h1]
    rw [ht]
    exact State.fld_raise_of_one rfl he hd1 hlo

/-- The state with a job counted and the events of its code raised. -/
def State.condCounted (s : State) (code detail : Nat) : State :=
  ((s.count Pg.cond Reg.COND_JOBS).raiseIf (decide (code = 0x20 ∧ detail = 0)) Pg.cond Reg.COND_EVENT_NO_GAIN).raiseIf (decide (code = 0x21))
    Pg.cond Reg.COND_EVENT_LIMIT

theorem State.condDone_of_register (hj : j.cmd = none) (code detail n : Nat) :
    s.condDone j code detail n = (s.condCounted code detail).condResult code (if code = 0x20 ∧ detail = 1 then 1 else 0)
      (if code = 0x20 then 0 else detail) := by
  unfold State.condDone
  simp only [hj]
  rfl

theorem State.condCounted_effect {code detail : Nat} (ht : t = s.condCounted code detail) :
    s.WritesIn t (fun a => a ∈ [keyOf Reg.COND_JOBS Pg.cond, keyOf Reg.COND_EVENT_JOB_DONE Pg.cond])
      ∧ t.fld Pg.cond Reg.COND_JOBS = min (s.fld Pg.cond Reg.COND_JOBS + 1) (2 ^ Reg.COND_JOBS.width - 1)
      ∧ (code = 0x21 → t.fld Pg.cond Reg.COND_EVENT_LIMIT = 1)
      ∧ (code = 0x20 → detail = 0 → t.fld Pg.cond Reg.COND_EVENT_NO_GAIN = 1)
      ∧ (∀ e : Fld, e.width = 1 → e.lo < 32 → e.off = 0x010 → s.fld Pg.cond e = 1 → t.fld Pg.cond e = 1)
      ∧ s.Touches t [.regs, .ctlLatches] := by
  obtain ⟨a, ha⟩ : ∃ a, a = s.count Pg.cond Reg.COND_JOBS := ⟨_, rfl⟩
  obtain ⟨b, hb⟩ : ∃ b, b = a.raiseIf (decide (code = 0x20 ∧ detail = 0)) Pg.cond Reg.COND_EVENT_NO_GAIN := ⟨_, rfl⟩
  have htb : t = b.raiseIf (decide (code = 0x21)) Pg.cond Reg.COND_EVENT_LIMIT := by rw [ht, hb, ha]; rfl
  refine ⟨?_, ?_, fun h => ?_, fun h h' => ?_, fun e he hlo hoff h1 => ?_, ?_⟩
  · rw [htb, hb, ha]
    refine .raiseIf (.raiseIf (.count (.refl s _) ?_) ?_) ?_ <;> decide
  · rw [htb, State.fld_raiseIf_ne _ _ _ _ _ _ (by decide) (.inl (keyOf_cond_ne (by decide))), hb,
      State.fld_raiseIf_ne _ _ _ _ _ _ (by decide) (.inl (keyOf_cond_ne (by decide))), ha]
    exact State.fld_countBy_same _ _ _ _ (by decide)
  · rw [htb, State.raiseIf, if_pos (by simpa using h)]
    exact State.fld_raise_same _ _ _ (by decide) rfl
  · rw [htb]
    refine State.fld_raiseIf_of_one rfl rfl ?_
    rw [hb, State.raiseIf, if_pos (by simpa using ⟨h, h'⟩)]
    exact State.fld_raise_same _ _ _ (by decide) rfl
  · have ha1 : a.fld Pg.cond e = 1 := by
      rw [ha]
      exact (State.fld_countBy_ne _ _ _ _ _ _ (by omega) (.inl (keyOf_cond_ne (by rw [hoff]; decide)))).trans h1
    rw [htb, hb]
    exact State.fld_raiseIf_of_one rfl he (State.fld_raiseIf_of_one rfl he ha1 hlo) hlo
  · rw [htb, hb, ha]
    exact .after (State.raiseIf_touches ..) (.after (State.raiseIf_touches ..) ((State.count_touches ..).mono rfl) rfl) rfl

theorem State.condDone_effect {code detail n : Nat} (hj : j.cmd = none) (ht : t = s.condDone j code detail n) :
    t.fld Pg.cond Reg.COND_RESULT_CODE = code % 2 ^ Reg.COND_RESULT_CODE.width
      ∧ t.fld Pg.cond Reg.COND_RESULT_VERIFY = (if code = 0x20 ∧ detail = 1 then 1 else 0) % 2 ^ Reg.COND_RESULT_VERIFY.width
      ∧ t.fld Pg.cond Reg.COND_STATE_PHASE = 0 ∧ t.fld Pg.cond Reg.COND_EVENT_JOB_DONE = 1
      ∧ t.fld Pg.cond Reg.COND_JOBS = min (s.fld Pg.cond Reg.COND_JOBS + 1) (2 ^ Reg.COND_JOBS.width - 1)
      ∧ (code = 0x21 → t.fld Pg.cond Reg.COND_EVENT_LIMIT = 1)
      ∧ (code = 0x20 → detail = 0 → t.fld Pg.cond Reg.COND_EVENT_NO_GAIN = 1)
      ∧ (∀ e : Fld, e.width = 1 → e.lo < 32 → e.off = 0x010 → s.fld Pg.cond e = 1 → t.fld Pg.cond e = 1)
      ∧ t.fld Pg.cond Reg.COND_STATE_BUSY = s.fld Pg.cond Reg.COND_STATE_BUSY
      ∧ (∀ g : Fld, g.off ∉ [0x00C, 0x010, 0x068, 0x080] → t.fld Pg.cond g = s.fld Pg.cond g)
      ∧ s.Touches t [.regs, .ctlLatches] ∧ s.WritesIn t (onPages [Pg.cond]) := by
  obtain ⟨v, hv⟩ : ∃ v, v = s.condCounted code detail := ⟨_, rfl⟩
  rw [State.condDone_of_register hj, ← hv] at ht
  obtain ⟨hvw, hjobs, hlimit, hgain, hstay, hvt⟩ := State.condCounted_effect hv
  obtain ⟨htw, hcode, hverify, hphase, hbusy, hdone, hstay'⟩ := State.condResult_effect ht
  refine ⟨hcode, hverify, hphase, hdone, ?_, fun h => hstay' _ rfl (by decide) (hlimit h) rfl,
    fun h h' => hstay' _ rfl (by decide) (hgain h h') rfl, fun e h h' h'' h1 => hstay' _ h h' (hstay _ h h' h'' h1) h'', ?_, fun g hg => ?_,
    hvt.trans (ht ▸ v.condResult_touches ..), ?_⟩
  · rw [htw.fld (by decide), hjobs]
  · rw [hbusy, hvw.fld (by decide)]
  · simp only [List.mem_cons, List.not_mem_nil, or_false, not_or] at hg
    obtain ⟨h1, h2, h3, h4⟩ := hg
    rw [htw.fld, hvw.fld]
    · simp only [List.mem_cons, List.not_mem_nil, or_false, not_or]
      exact ⟨keyOf_cond_ne h4, keyOf_cond_ne h2⟩
    · simp only [List.mem_cons, List.not_mem_nil, or_false, not_or]
      exact ⟨keyOf_cond_ne h3, keyOf_cond_ne h1, keyOf_cond_ne h2⟩
  · refine (hvw.mono fun a ha => ?_).trans (htw.mono fun a ha => ?_)
    · simp only [List.mem_cons, List.not_mem_nil, or_false] at ha
      rcases ha with rfl | rfl <;> exact onPages_cond
    · simp only [List.mem_cons, List.not_mem_nil, or_false] at ha
      rcases ha with rfl | rfl | rfl <;> exact onPages_cond

/-! ### A register job is suspended -/

theorem State.condCounts_effect {n m : Nat} (ht : t = s.condCounts j n m) :
    s.WritesIn t (fun a => a ∈ [keyOf Reg.COND_OUT_DONE Pg.cond, keyOf Reg.COND_TOTAL_OUT Pg.cond, keyOf Reg.COND_IN_DONE Pg.cond,
        keyOf Reg.COND_TOTAL_IN Pg.cond])
      ∧ t.fld Pg.cond Reg.COND_OUT_DONE = (n - j.written) % 2 ^ Reg.COND_OUT_DONE.width
      ∧ t.fld Pg.cond Reg.COND_IN_DONE = m % 2 ^ Reg.COND_IN_DONE.width := by
  unfold State.condCounts State.setSat at ht
  obtain ⟨a, ha⟩ : ∃ a, a = s.setFld Pg.cond Reg.COND_OUT_DONE (n - j.written) := ⟨_, rfl⟩
  simp only [← ha] at ht
  rw [ht]
  refine ⟨?_, ?_, ?_⟩
  · rw [ha]
    refine .setFld (.setFld (.setFld (.setFld (.refl s _) _ ?_) _ ?_) _ ?_) _ ?_ <;> decide
  · rw [State.fld_setCondFld_ne _ _ (by decide) (.inl (by decide)), State.fld_setCondFld_ne _ _ (by decide) (.inl (by decide)),
      State.fld_setCondFld_ne _ _ (by decide) (.inl (by decide)), ha, State.fld_setFld_same _ _ _ _ (by decide)]
  · rw [State.fld_setCondFld_ne _ _ (by decide) (.inl (by decide)), State.fld_setFld_same _ _ _ _ (by decide)]

theorem State.condWrite_of_register (hj : j.cmd = none) (out : List Byte) (n : Nat) :
    s.condWrite j out n = s.pokeN j.dst ((out.take n).drop j.written) := by
  unfold State.condWrite
  simp only [hj]

/-- The state with a job's output written and counted, and the job suspended in a phase with its event. -/
def State.condSuspended (s : State) (j kept : CondJob) (used phase : Nat) (e : Fld) : State :=
  let s1 := ((s.condWrite j j.run.out j.run.fit).condCounts j j.run.fit used).setFld Pg.cond Reg.COND_STATE_PHASE phase
  (s1.setCond { s1.cond with parked := some kept }).raise Pg.cond e

theorem State.condSuspended_effect {kept : CondJob} {used phase : Nat} {e : Fld} (hj : j.cmd = none) (hph : phase < 8) (he : e.width = 1)
    (hlo : e.lo < 32) (hoff : e.off = 0x010) (ht : t = s.condSuspended j kept used phase e) :
    t.cond = { s.cond with parked := some kept }
      ∧ t.dram = (s.pokeN j.dst ((j.run.out.take j.run.fit).drop j.written)).dram
      ∧ t.fld Pg.cond Reg.COND_OUT_DONE = (j.run.fit - j.written) % 2 ^ Reg.COND_OUT_DONE.width
      ∧ t.fld Pg.cond Reg.COND_IN_DONE = used % 2 ^ Reg.COND_IN_DONE.width
      ∧ t.fld Pg.cond Reg.COND_STATE_PHASE = phase ∧ t.fld Pg.cond e = 1
      ∧ (∀ g : Fld, g.off < 0x068 → g.off ∉ [0x00C, 0x010] → t.fld Pg.cond g = s.fld Pg.cond g)
      ∧ s.Touches t [.regs, .ctlLatches, .dram, .condParked] ∧ s.WritesIn t (onPages [Pg.cond]) := by
  obtain ⟨a, ha⟩ : ∃ a, a = s.pokeN j.dst ((j.run.out.take j.run.fit).drop j.written) := ⟨_, rfl⟩
  obtain ⟨b, hb⟩ : ∃ b, b = a.condCounts j j.run.fit used := ⟨_, rfl⟩
  obtain ⟨c, hc⟩ : ∃ c, c = b.setFld Pg.cond Reg.COND_STATE_PHASE phase := ⟨_, rfl⟩
  obtain ⟨d, hd⟩ : ∃ d, d = c.setCond { c.cond with parked := some kept } := ⟨_, rfl⟩
  have htd : t = d.raise Pg.cond e := by
    rw [ht, State.condSuspended, State.condWrite_of_register hj, ← ha, ← hb, ← hc, ← hd]
  obtain ⟨hbw, hout, hin⟩ := State.condCounts_effect hb
  have hdw : ∀ {P : Nat → Prop}, s.WritesIn c P → s.WritesIn d P := fun h => .of_regs h (hd ▸ rfl)
  have hdc : ∀ g, d.fld Pg.cond g = c.fld Pg.cond g := fun g => hd ▸ rfl
  have htg : ∀ g : Fld, g.lo + g.width ≤ 32 → g.off ≠ 0x010 → t.fld Pg.cond g = c.fld Pg.cond g := fun g h h' => by
    rw [htd, State.fld_raise_ne _ _ _ _ _ h (.inl (keyOf_cond_ne (by rw [hoff]; exact h'))), hdc]
  have hsa : s.Touches a [.dram] := ha ▸ State.pokeN_touches ..
  have hab : a.Touches b [.regs] := hb ▸ State.condCounts_touches ..
  have hbc : b.Touches c [.regs] := hc ▸ State.setFld_touches ..
  have hcd : c.Touches d [.condParked] := hd ▸ .of_mix rfl rfl
  have hdt : d.Touches t [.regs, .ctlLatches] := htd ▸ State.raise_touches ..
  have hsc : s.Touches c [.dram, .regs] := (hsa.mono rfl).trans ((hab.mono rfl).trans (hbc.mono rfl))
  have hcw : s.WritesIn c (onPages [Pg.cond]) := by
    refine ((State.WritesIn.of_regs (.refl s _) (ha ▸ rfl)).trans (hbw.mono fun x hx => ?_)).trans (hc ▸ .setFld (.refl b _) _ onPages_cond)
    simp only [List.mem_cons, List.not_mem_nil, or_false] at hx
    rcases hx with rfl | rfl | rfl | rfl <;> exact onPages_cond
  refine ⟨?_, ?_, ?_, ?_, ?_, ?_, fun g hlt hg => ?_, ?_, ?_⟩
  · rw [State.cond_of_touches hdt, hd]
    exact congrArg (fun x : CondSt => { x with parked := some kept }) (State.cond_of_touches hsc)
  · rw [hdt.same .dram (by decide), hcd.same .dram (by decide), hbc.same .dram (by decide), hab.same .dram (by decide), ha]
  · rw [htg _ (by decide) (by decide), hc, State.fld_setCondFld_ne _ _ (by decide) (.inl (by decide)), hout]
  · rw [htg _ (by decide) (by decide), hc, State.fld_setCondFld_ne _ _ (by decide) (.inl (by decide)), hin]
  · rw [htg _ (by decide) (by decide), hc]
    exact State.fld_setFld_of_width _ _ _ _ (by decide) hph
  · rw [htd]
    exact State.fld_raise_same _ _ _ (by omega) he
  · simp only [List.mem_cons, List.not_mem_nil, or_false, not_or] at hg
    have hw : s.WritesIn t (fun x => x ∈ [keyOf Reg.COND_OUT_DONE Pg.cond, keyOf Reg.COND_TOTAL_OUT Pg.cond, keyOf Reg.COND_IN_DONE Pg.cond,
        keyOf Reg.COND_TOTAL_IN Pg.cond, keyOf Reg.COND_STATE_PHASE Pg.cond, keyOf e Pg.cond]) := by
      rw [htd]
      refine .raise (hdw ?_) (by simp)
      rw [hc]
      exact .setFld (.trans (.of_regs (.refl s _) (ha ▸ rfl)) (hbw.mono fun x hx => List.mem_append_left [_, _] hx)) _ (by simp)
    refine hw.fld ?_
    simp only [List.mem_cons, List.not_mem_nil, or_false, not_or, keyOf]
    omega
  · exact (hsc.mono rfl).trans ((hcd.mono rfl).trans (hdt.mono rfl))
  · rw [htd]
    exact .raise (hdw hcw) (onPages_cond (by omega))

/-! ### GO -/

/-- The state with ENABLE as a write of CTRL leaves it. -/
def State.condEnabled (s : State) (r : Req) (v : Word) : State :=
  s.setFld Pg.cond Reg.COND_CTRL_ENABLE (wfld (s.written r Pg.cond 0x008 v) Reg.COND_CTRL_ENABLE)

theorem writeCondCtrl_of_accepts {r : Req} {v : Word} (h : s.accepts r Pg.cond 0x008 v = true) :
    writeCondCtrl r v s =
      let s2 := if wmSet v Reg.COND_CTRL_GO then (s.condEnabled r v).condGo else s.condEnabled r v
      let s3 := if wmSet v Reg.COND_CTRL_RESUME then s2.condResume else s2
      if wmSet v Reg.COND_CTRL_ABORT then s3.condAbort else s3 := by
  unfold writeCondCtrl
  rw [withWrite_of_accepts _ h]
  rfl

theorem State.condEnabled_touches (s : State) (r : Req) (v : Word) : s.Touches (s.condEnabled r v) [.regs] := State.setFld_touches ..

theorem State.condEnabled_writesIn (s : State) (r : Req) (v : Word) : s.WritesIn (s.condEnabled r v) (· = keyOf Reg.COND_CTRL_ENABLE Pg.cond) :=
  .setFld (.refl s _) _ rfl

theorem State.condEnabled_pages (s : State) (r : Req) (v : Word) : s.WritesIn (s.condEnabled r v) (onPages [Pg.cond]) :=
  (s.condEnabled_writesIn r v).mono fun _ h => h ▸ onPages_cond

theorem State.condEnabled_fld (s : State) (r : Req) (v : Word) {g : Fld} (h : g.off ≠ 0x008) :
    (s.condEnabled r v).fld Pg.cond g = s.fld Pg.cond g := (s.condEnabled_writesIn r v).fld (keyOf_cond_ne h)

theorem State.condEnabled_on {r : Req} {v : Word} (h : wfld (s.written r Pg.cond 0x008 v) Reg.COND_CTRL_ENABLE = 1) :
    (s.condEnabled r v).on Pg.cond Reg.COND_CTRL_ENABLE = true := by
  rw [State.on, State.condEnabled, h, State.fld_setFld_of_width _ _ _ _ (by decide) (by decide)]
  rfl

theorem State.condEnabled_self {r : Req} {v : Word}
    (h : wfld (s.written r Pg.cond 0x008 v) Reg.COND_CTRL_ENABLE = s.fld Pg.cond Reg.COND_CTRL_ENABLE) :
    s.WritesIn (s.condEnabled r v) fun _ => False := by
  rw [State.condEnabled, h]
  exact s.writesIn_setFld_self _ _

/-- A write that leaves ENABLE as it is and is refused raises STATE_REJECT alone. -/
theorem State.condEnabled_rejected {r : Req} {v : Word}
    (h : wfld (s.written r Pg.cond 0x008 v) Reg.COND_CTRL_ENABLE = s.fld Pg.cond Reg.COND_CTRL_ENABLE) :
    s.Rejected ((s.condEnabled r v).reject Pg.cond) Pg.cond :=
  ⟨State.fld_raise_same _ _ _ (by decide) rfl,
    .of_writes ((((State.condEnabled_self h).mono fun _ => False.elim)).reject (List.mem_singleton_self _))
      (.trans ((s.condEnabled_touches r v).mono rfl) (State.reject_touches ..))⟩

/-- The state with the counts of the last register job cleared. -/
def State.condCleared (s : State) : State :=
  (((s.setFld Pg.cond Reg.COND_OUT_DONE 0).setFld Pg.cond Reg.COND_IN_DONE 0).setFld Pg.cond Reg.COND_TOTAL_IN 0).setFld Pg.cond
    Reg.COND_TOTAL_OUT 0

/-- The job that GO starts, before its number. -/
def State.goJob (s : State) : CondJob :=
  let f := s.fld Pg.cond
  let stream := decide (f Reg.COND_JOB_CFG_MODE = 1)
  { inflate := decide (f Reg.COND_JOB_CFG_OP = 1), stream := stream, level := condLevel (f Reg.COND_JOB_CFG_LEVEL)
    input := s.peekN (s.fld64 Pg.cond Reg.COND_SRC_LO Reg.COND_SRC_HI) (f Reg.COND_SRC_LEN), piece := f Reg.COND_SRC_LEN
    whole := !stream || decide (f Reg.COND_JOB_CFG_FINAL = 1)
    dst := s.fld64 Pg.cond Reg.COND_DST_LO Reg.COND_DST_HI, cap := f Reg.COND_DST_CAP
    limit := if stream then f Reg.COND_OUT_LIMIT else min (f Reg.COND_DST_CAP) (f Reg.COND_OUT_LIMIT)
    most := if stream then none else some (max 1 (f Reg.COND_DEC_MAX)) }

theorem State.condGo_of_refused (h : s.fld Pg.cond Reg.COND_STATE_PHASE ≠ 0 ∨ s.on Pg.cond Reg.COND_CTRL_ENABLE = false) :
    s.condGo = s.reject Pg.cond := if_pos h

theorem State.condGo_of_idle (hp : s.fld Pg.cond Reg.COND_STATE_PHASE = 0) (he : s.on Pg.cond Reg.COND_CTRL_ENABLE = true) :
    s.condGo = if s.fld Pg.cond Reg.COND_SRC_LEN = 0 then s.condCleared.condDone s.goJob 0x02 0 0 else s.condCleared.condAccept s.goJob :=
  if_neg (by simp [hp, he])

theorem State.condCleared_touches (s : State) : s.Touches s.condCleared [.regs] := by
  unfold State.condCleared
  exact .after (State.setFld_touches ..) (.after (State.setFld_touches ..) (.after (State.setFld_touches ..) (State.setFld_touches ..) rfl) rfl) rfl

theorem State.condCleared_writesIn (s : State) : s.WritesIn s.condCleared (fun a => a ∈ [keyOf Reg.COND_OUT_DONE Pg.cond,
    keyOf Reg.COND_IN_DONE Pg.cond, keyOf Reg.COND_TOTAL_IN Pg.cond, keyOf Reg.COND_TOTAL_OUT Pg.cond]) := by
  unfold State.condCleared
  refine .setFld (.setFld (.setFld (.setFld (.refl s _) _ ?_) _ ?_) _ ?_) _ ?_ <;> decide

theorem State.condCleared_pages (s : State) : s.WritesIn s.condCleared (onPages [Pg.cond]) := s.condCleared_writesIn.mono fun a ha => by
  simp only [List.mem_cons, List.not_mem_nil, or_false] at ha
  rcases ha with rfl | rfl | rfl | rfl <;> exact onPages_cond

theorem State.condCleared_totals (s : State) :
    s.condCleared.fld Pg.cond Reg.COND_TOTAL_IN = 0 ∧ s.condCleared.fld Pg.cond Reg.COND_TOTAL_OUT = 0 := by
  unfold State.condCleared
  refine ⟨?_, State.fld_setFld_of_width _ _ _ _ (by decide) (by decide)⟩
  rw [State.fld_setCondFld_ne _ _ (by decide) (.inl (by decide))]
  exact State.fld_setFld_of_width _ _ _ _ (by decide) (by decide)

/-- GO on a source while the Condenser's domain is on. -/
theorem State.condGo_accepted (hp : s.fld Pg.cond Reg.COND_STATE_PHASE = 0) (he : s.on Pg.cond Reg.COND_CTRL_ENABLE = true)
    (hl : s.fld Pg.cond Reg.COND_SRC_LEN ≠ 0) (hs : s.fld Pg.cond Reg.COMMON_PWR_REQ_STATUS = 3) (ht : t = s.condGo) :
    t.cond = { s.cond with queue := s.condQueued { s.goJob with order := s.hq.uidSeq } } ∧ s.Touches t [.regs, .condQueue]
      ∧ s.WritesIn t (onPages [Pg.cond]) ∧ t.fld Pg.cond Reg.COND_TOTAL_IN = 0 ∧ t.fld Pg.cond Reg.COND_TOTAL_OUT = 0
      ∧ (s.on Pg.cond Reg.COND_STATE_BUSY = true →
        t.on Pg.cond Reg.COND_STATE_BUSY = true ∧ t.fld Pg.cond Reg.COND_STATE_PHASE = 4)
      ∧ (s.on Pg.cond Reg.COND_STATE_BUSY = false → s.cond.queue = [] → s.condMay = true →
        t.on Pg.cond Reg.COND_STATE_BUSY = true ∧ t.fld Pg.cond Reg.COND_STATE_PHASE = 1) := by
  rw [State.condGo_of_idle hp he, if_neg hl] at ht
  obtain ⟨v, hv⟩ : ∃ v, v = s.condCleared := ⟨_, rfl⟩
  rw [← hv] at ht
  have hsv : s.Touches v [.regs] := hv ▸ s.condCleared_touches
  have hvw : s.WritesIn v _ := hv ▸ s.condCleared_writesIn
  have hvb : v.on Pg.cond Reg.COND_STATE_BUSY = s.on Pg.cond Reg.COND_STATE_BUSY := by rw [State.on, hvw.fld (by decide)]; rfl
  have hvc : v.cond = s.cond := State.cond_of_touches hsv
  have hvq : v.condQueued { s.goJob with order := v.hq.uidSeq } = s.condQueued { s.goJob with order := s.hq.uidSeq } := by
    rw [State.condQueued, State.condQueued, hvb, hvc, show v.hq.uidSeq = s.hq.uidSeq from hsv.same .hqUidSeq (by decide)]
  have hvm : v.condMay = s.condMay :=
    State.condMay_congr (hvw.fld (by decide)) (hsv.same .pwrHeld (by decide)) (hsv.same .pwrLimiting (by decide))
  obtain ⟨hin, hout⟩ : v.fld Pg.cond Reg.COND_TOTAL_IN = 0 ∧ v.fld Pg.cond Reg.COND_TOTAL_OUT = 0 := hv ▸ s.condCleared_totals
  obtain ⟨hc, htou, hw, hbusy, hidle⟩ := State.condAccept_effect rfl ((hvw.fld (by decide)).trans hs) ht
  refine ⟨?_, (hsv.mono rfl).trans htou, (hv ▸ s.condCleared_pages).trans (hw.mono fun a h => h ▸ onPages_cond), ?_, ?_,
    fun hb => hbusy (hvb.trans hb), fun hb hq hm => hidle (hvb.trans hb) (hvc ▸ hq) (hvm.trans hm)⟩
  · rw [hc, hvq, hvc]
  · rw [hw.fld (by decide), hin]
  · rw [hw.fld (by decide), hout]

theorem State.fld64_congr {p : Nat} {lo hi : Fld} (h : u.fld p lo = s.fld p lo) (h' : u.fld p hi = s.fld p hi) :
    u.fld64 p lo hi = s.fld64 p lo hi := by
  rw [State.fld64, h, h']
  rfl

theorem State.goJob_congr (hf : ∀ g : Fld, g.off ≠ 0x008 → u.fld Pg.cond g = s.fld Pg.cond g) (hd : u.dram = s.dram)
    (hz : u.dramSize = s.dramSize) : u.goJob = s.goJob := by
  have hsrc := State.fld64_congr (hf Reg.COND_SRC_LO (by decide)) (hf Reg.COND_SRC_HI (by decide))
  have hdst := State.fld64_congr (hf Reg.COND_DST_LO (by decide)) (hf Reg.COND_DST_HI (by decide))
  unfold State.goJob
  dsimp only
  rw [hsrc, hdst, State.peekN_congr hd hz, hf Reg.COND_JOB_CFG_OP (by decide), hf Reg.COND_JOB_CFG_MODE (by decide),
    hf Reg.COND_JOB_CFG_LEVEL (by decide), hf Reg.COND_SRC_LEN (by decide), hf Reg.COND_JOB_CFG_FINAL (by decide),
    hf Reg.COND_DST_CAP (by decide), hf Reg.COND_OUT_LIMIT (by decide), hf Reg.COND_DEC_MAX (by decide)]

/-- What holds of a state holds of the one in which a write of CTRL has stored ENABLE. -/
structure State.SameCond (s u : State) : Prop where
  fld : ∀ g : Fld, g.off ≠ 0x008 → u.fld Pg.cond g = s.fld Pg.cond g
  touches : s.Touches u [.regs]
  pages : s.WritesIn u (onPages [Pg.cond])

variable {r : Req} {v : Word}

theorem State.condEnabled_same (s : State) (r : Req) (v : Word) : s.SameCond (s.condEnabled r v) :=
  ⟨fun _ => s.condEnabled_fld r v, s.condEnabled_touches r v, s.condEnabled_pages r v⟩

theorem State.SameCond.on (h : s.SameCond u) {g : Fld} (hg : g.off ≠ 0x008) : u.on Pg.cond g = s.on Pg.cond g := by
  rw [State.on, h.fld g hg]
  rfl

theorem State.SameCond.cond (h : s.SameCond u) : u.cond = s.cond := State.cond_of_touches h.touches

theorem State.SameCond.condMay (h : s.SameCond u) : u.condMay = s.condMay :=
  State.condMay_congr (h.fld _ (by decide)) (h.touches.same .pwrHeld (by decide)) (h.touches.same .pwrLimiting (by decide))

theorem State.SameCond.condQueued (h : s.SameCond u) (j : CondJob) : u.condQueued j = s.condQueued j := by
  rw [State.condQueued, State.condQueued, h.on (by decide), h.cond]

theorem State.SameCond.goJob (h : s.SameCond u) : u.goJob = s.goJob :=
  State.goJob_congr h.fld (h.touches.same .dram (by decide)) (State.dramSize_congr h.pages)

theorem exec_condGo (ha : s.accepts r Pg.cond 0x008 v = true) (hg : wmSet v Reg.COND_CTRL_GO = true) (hr : wmSet v Reg.COND_CTRL_RESUME = false)
    (hb : wmSet v Reg.COND_CTRL_ABORT = false) : exec (.condGo r v) s = .next (s.condEnabled r v).condGo := by
  refine congrArg Host.Outcome.next ((writeCondCtrl_of_accepts ha).trans ?_)
  simp only [hg, hr, hb, if_true, Bool.false_eq_true, if_false]

theorem exec_condResume (ha : s.accepts r Pg.cond 0x008 v = true) (hg : wmSet v Reg.COND_CTRL_GO = false)
    (hr : wmSet v Reg.COND_CTRL_RESUME = true) (hb : wmSet v Reg.COND_CTRL_ABORT = false) :
    exec (.condResume r v) s = .next (s.condEnabled r v).condResume := by
  refine congrArg Host.Outcome.next ((writeCondCtrl_of_accepts ha).trans ?_)
  simp only [hg, hr, hb, if_true, Bool.false_eq_true, if_false]

theorem exec_condAbort (ha : s.accepts r Pg.cond 0x008 v = true) (hg : wmSet v Reg.COND_CTRL_GO = false)
    (hr : wmSet v Reg.COND_CTRL_RESUME = false) (hb : wmSet v Reg.COND_CTRL_ABORT = true) :
    exec (.condAbort r v) s = .next (s.condEnabled r v).condAbort := by
  refine congrArg Host.Outcome.next ((writeCondCtrl_of_accepts ha).trans ?_)
  simp only [hg, hr, hb, if_true, Bool.false_eq_true, if_false]

/-- GO on a source while the Condenser's domain is on, from the state before the write. -/
theorem State.go_accepted (hus : s.SameCond u) (he : u.on Pg.cond Reg.COND_CTRL_ENABLE = true) (hp : s.fld Pg.cond Reg.COND_STATE_PHASE = 0)
    (hl : s.fld Pg.cond Reg.COND_SRC_LEN ≠ 0) (hs : s.fld Pg.cond Reg.COMMON_PWR_REQ_STATUS = 3) (ht : t = u.condGo) :
    t.cond = { s.cond with queue := s.condQueued { s.goJob with order := s.hq.uidSeq } }
      ∧ t = { s with regs := t.regs, cond := t.cond } ∧ s.KeepsPages t [Pg.cond] ∧ s.KeepsBytes t
      ∧ t.fld Pg.cond Reg.COND_TOTAL_IN = 0 ∧ t.fld Pg.cond Reg.COND_TOTAL_OUT = 0
      ∧ (s.on Pg.cond Reg.COND_STATE_BUSY = true →
        t.on Pg.cond Reg.COND_STATE_BUSY = true ∧ t.fld Pg.cond Reg.COND_STATE_PHASE = 4)
      ∧ (s.on Pg.cond Reg.COND_STATE_BUSY = false → s.cond.queue = [] → s.condMay = true →
        t.on Pg.cond Reg.COND_STATE_BUSY = true ∧ t.fld Pg.cond Reg.COND_STATE_PHASE = 1) := by
  have hf := hus.fld
  obtain ⟨hc, htou, hw, hin, hout, hbusy, hidle⟩ := State.condGo_accepted ((hf _ (by decide)).trans hp) he
    (by rwa [hf _ (by decide)]) ((hf _ (by decide)).trans hs) ht
  have hst : s.Touches t [.regs, .condQueue] := (hus.touches.mono rfl).trans htou
  refine ⟨?_, (hst.mono (l' := .regs :: condParts) rfl).eq_mix, (hus.pages.trans hw).keepsPages, hst.keepsBytes rfl, hin, hout,
    fun hb => hbusy ((hus.on (by decide)).trans hb), fun hb hq hm => hidle ((hus.on (by decide)).trans hb) (hus.cond ▸ hq) (hus.condMay.trans hm)⟩
  rw [hc, hus.goJob, hus.condQueued, hus.cond, show u.hq.uidSeq = s.hq.uidSeq from hus.touches.same .hqUidSeq (by decide)]

/-- GO without a source ends at once. -/
theorem State.go_empty (hus : s.SameCond u) (he : u.on Pg.cond Reg.COND_CTRL_ENABLE = true) (hp : s.fld Pg.cond Reg.COND_STATE_PHASE = 0)
    (hl : s.fld Pg.cond Reg.COND_SRC_LEN = 0) (ht : t = u.condGo) :
    t.fld Pg.cond Reg.COND_RESULT_CODE = 0x02 ∧ t.fld Pg.cond Reg.COND_STATE_PHASE = 0 ∧ t.fld Pg.cond Reg.COND_EVENT_JOB_DONE = 1
      ∧ t = s.regsOf t ∧ s.KeepsPages t [Pg.cond] ∧ s.KeepsBytes t := by
  have hf := hus.fld
  rw [State.condGo_of_idle ((hf _ (by decide)).trans hp) he, if_pos ((hf _ (by decide)).trans hl)] at ht
  obtain ⟨hcode, -, hph, hdone, -, -, -, -, -, -, htou, hw⟩ := State.condDone_effect rfl ht
  have hst : s.Touches t [.regs, .ctlLatches] := (hus.touches.mono rfl).trans ((u.condCleared_touches.mono rfl).trans htou)
  exact ⟨hcode, hph, hdone, hst.eq_mix, ((hus.pages.trans u.condCleared_pages).trans hw).keepsPages, hst.keepsBytes rfl⟩

/-! ### RESUME -/

theorem State.condResume_of_refused (h : s.cond.parked = none ∨ s.on Pg.cond Reg.COND_CTRL_ENABLE = false) : s.condResume = s.reject Pg.cond := by
  unfold State.condResume
  cases hp : s.cond.parked with
  | none => rfl
  | some j => exact if_pos (.inr (h.resolve_left (by simp [hp])))

/-- The state with no job suspended and a count cleared, in which a resumed job is accepted. -/
def State.condUnparked (s : State) (f : Fld) : State := (s.setCond { s.cond with parked := none }).setFld Pg.cond f 0

theorem State.condResume_of_full (hp : s.cond.parked = some j) (hph : s.fld Pg.cond Reg.COND_STATE_PHASE = 2)
    (he : s.on Pg.cond Reg.COND_CTRL_ENABLE = true) :
    s.condResume = (s.condUnparked Reg.COND_OUT_DONE).condAccept
      { j with dst := s.fld64 Pg.cond Reg.COND_DST_LO Reg.COND_DST_HI, cap := s.fld Pg.cond Reg.COND_DST_CAP } := by
  unfold State.condResume
  simp only [hp, hph, he]
  rfl

theorem State.condResume_of_used (hp : s.cond.parked = some j) (hph : s.fld Pg.cond Reg.COND_STATE_PHASE = 3)
    (he : s.on Pg.cond Reg.COND_CTRL_ENABLE = true) (hl : s.fld Pg.cond Reg.COND_SRC_LEN ≠ 0) :
    s.condResume = (s.condUnparked Reg.COND_IN_DONE).condAccept
      { j with
        input := j.input ++ s.peekN (s.fld64 Pg.cond Reg.COND_SRC_LO Reg.COND_SRC_HI) (s.fld Pg.cond Reg.COND_SRC_LEN)
        piece := s.fld Pg.cond Reg.COND_SRC_LEN, whole := decide (s.fld Pg.cond Reg.COND_JOB_CFG_FINAL = 1) } := by
  unfold State.condResume
  simp only [hp, hph, he, hl, if_false]
  rfl

theorem State.resume_accepted {f : Fld} (hus : s.SameCond u) (hj : j.cmd = none) (hb : s.on Pg.cond Reg.COND_STATE_BUSY = false)
    (hq : s.cond.queue = []) (hm : s.condMay = true) (hf : f = Reg.COND_OUT_DONE ∨ f = Reg.COND_IN_DONE)
    (ht : t = (u.condUnparked f).condAccept j) :
    t.cond = { parked := none, queue := [{ j with order := s.hq.uidSeq }] } ∧ t.fld Pg.cond Reg.COND_STATE_PHASE = 1
      ∧ t.on Pg.cond Reg.COND_STATE_BUSY = true ∧ t.fld Pg.cond f = 0
      ∧ t = { s with regs := t.regs, cond := t.cond } ∧ s.KeepsPages t [Pg.cond] ∧ s.KeepsBytes t := by
  have hoff : f.off = 0x06C ∨ f.off = 0x070 := hf.elim (fun e => .inr (e ▸ rfl)) fun e => .inl (e ▸ rfl)
  have hlow : f.lo + f.width ≤ 32 := hf.elim (fun e => e ▸ by decide) fun e => e ▸ by decide
  obtain ⟨w, hw⟩ : ∃ w, w = u.condUnparked f := ⟨_, rfl⟩
  rw [← hw] at ht
  have hwc : w.cond = { s.cond with parked := none } := by
    rw [hw, ← hus.cond]
    rfl
  have hww : u.WritesIn w (· = keyOf f Pg.cond) := by
    rw [hw]
    exact .setFld (.of_regs (.refl u _) rfl) _ rfl
  have huw : u.Touches w [.regs, .condParked] := hw ▸ .after (State.setFld_touches ..) (.of_mix rfl rfl) rfl
  have hfld : ∀ g : Fld, g.off ≠ 0x008 → g.off < 0x060 → w.fld Pg.cond g = s.fld Pg.cond g := fun g h h' => by
    rw [hww.fld (keyOf_cond_ne (by omega)), hus.fld g h]
  have hwb : w.on Pg.cond Reg.COND_STATE_BUSY = false := by rw [State.on, hfld _ (by decide) (by decide)]; exact hb
  have hwm : w.condMay = true := (State.condMay_congr (hww.fld (keyOf_cond_ne (by show (0x024 : Nat) ≠ f.off; omega)))
    (huw.same .pwrHeld (by decide)) (huw.same .pwrLimiting (by decide))).trans (hus.condMay.trans hm)
  have hon : w.fld Pg.cond Reg.COMMON_PWR_REQ_STATUS = 3 := by
    unfold State.condMay at hwm
    simp only [Bool.and_eq_true, decide_eq_true_eq] at hwm
    exact hwm.1.1
  obtain ⟨hc, htou, htw, -, hidle⟩ := State.condAccept_effect hj hon ht
  obtain ⟨hbusy, hph⟩ := hidle hwb (by rw [hwc]; exact hq) hwm
  have hst : s.Touches t [.regs, .condQueue, .condParked] := (hus.touches.mono rfl).trans ((huw.mono rfl).trans (htou.mono rfl))
  have hseq : w.hq.uidSeq = s.hq.uidSeq := (huw.same .hqUidSeq (by decide)).trans (hus.touches.same .hqUidSeq (by decide))
  refine ⟨?_, hph, hbusy, ?_, hst.eq_mix, ?_, hst.keepsBytes rfl⟩
  · rw [hc, State.condQueued, hwb, hwc, hq, hseq]
    rfl
  · rw [htw.fld (keyOf_cond_ne (by show f.off ≠ 0x00C; omega)), hw]
    exact State.fld_setFld_of_width _ _ _ _ hlow (Nat.two_pow_pos _)
  · exact ((hus.pages.trans (hww.mono fun a h => h ▸ onPages_cond (by omega))).trans (htw.mono fun a h => h ▸ onPages_cond)).keepsPages

/-! ### ABORT -/

theorem State.condAbort_of_idle (h : s.fld Pg.cond Reg.COND_STATE_PHASE = 0) : s.condAbort = s := if_pos h

theorem State.condAbort_of_parked (h : s.fld Pg.cond Reg.COND_STATE_PHASE ≠ 0) (hp : s.cond.parked = some j) :
    s.condAbort = (s.setCond { s.cond with parked := none }).condDone j 0x07 0 j.written := by
  unfold State.condAbort
  simp only [h, hp, if_false]

theorem State.condAbort_of_waiting (h : s.fld Pg.cond Reg.COND_STATE_PHASE = 4) (hp : s.cond.parked = none)
    (hq : s.cond.queue.find? (fun x => decide (x.cmd = none)) = some j) :
    s.condAbort = (s.setCond { s.cond with queue := s.cond.queue.filter fun x => decide (x.cmd ≠ none) }).condDone j 0x07 0 j.written := by
  unfold State.condAbort
  simp only [h, hp, hq]
  rfl

theorem State.abort_done {c : CondSt} {n : Nat} (hus : s.SameCond u) (hj : j.cmd = none) (ht : t = (u.setCond c).condDone j 0x07 0 n) :
    t.cond = c ∧ t.fld Pg.cond Reg.COND_RESULT_CODE = 0x07 ∧ t.fld Pg.cond Reg.COND_STATE_PHASE = 0
      ∧ t.fld Pg.cond Reg.COND_EVENT_JOB_DONE = 1 ∧ t = { s.regsOf t with cond := t.cond } ∧ s.KeepsPages t [Pg.cond] ∧ s.KeepsBytes t := by
  obtain ⟨hcode, -, hph, hdone, -, -, -, -, -, -, htou, hw⟩ := State.condDone_effect hj ht
  have huc : u.Touches (u.setCond c) [.condQueue, .condParked] := .of_mix rfl rfl
  have hst : s.Touches t [.regs, .ctlLatches, .condQueue, .condParked] := (hus.touches.mono rfl).trans ((huc.mono rfl).trans (htou.mono rfl))
  have huw : s.WritesIn (u.setCond c) (onPages [Pg.cond]) := .of_regs hus.pages rfl
  exact ⟨State.cond_of_touches htou, hcode, hph, hdone, hst.eq_mix, (huw.trans hw).keepsPages, hst.keepsBytes rfl⟩

/-- A running register job aborted after `n` bytes of its output. -/
def State.condCut (s : State) (j : CondJob) (n used : Nat) : State :=
  ((({ s with seed := s.seed + 1 } : State).pokeN j.dst ((j.run.out.take n).drop j.written)).condCounts j n used).condDone j 0x07 0 n

theorem State.condAbort_of_running (h : s.fld Pg.cond Reg.COND_STATE_PHASE = 1) (hp : s.cond.parked = none) (hq : s.cond.queue = [j])
    (hj : j.cmd = none) :
    ∃ n used, n - j.written ≤ j.run.fit - j.written ∧ s.condAbort = (s.condCut j n used).condFree := by
  refine ⟨j.written + min (j.run.fit - j.written) (Config.free 61 s.seed), min j.piece (Config.free 60 s.seed), by omega, ?_⟩
  unfold State.condAbort
  simp only [h, hp, hq, hj, List.find?_cons_of_pos, decide_true, if_true]
  rw [State.condWrite_of_register hj]
  rfl

theorem State.abort_running {n used : Nat} (hus : s.SameCond u) (hj : j.cmd = none) (hq : s.cond.queue = [j])
    (hn : n - j.written ≤ j.run.fit - j.written) (hs : s.fld Pg.cond Reg.COMMON_PWR_REQ_STATUS = 3)
    (hr : s.fld Pg.cond Reg.COMMON_PWR_REQ_REQ = 3) (ht : t = (u.condCut j n used).condFree) :
    t.cond = { s.cond with queue := [] } ∧ t.fld Pg.cond Reg.COND_RESULT_CODE = 0x07 ∧ t.fld Pg.cond Reg.COND_STATE_PHASE = 0
      ∧ t.on Pg.cond Reg.COND_STATE_BUSY = false ∧ t.fld Pg.cond Reg.COND_EVENT_JOB_DONE = 1
      ∧ s.StoresDram t j.dst (j.run.fit - j.written)
      ∧ t = { s.regsOf t with seed := s.seed + 1, dram := t.dram, cond := t.cond } ∧ s.KeepsPages t [Pg.cond] := by
  obtain ⟨a, ha⟩ : ∃ a, a = ({ u with seed := u.seed + 1 } : State).pokeN j.dst ((j.run.out.take n).drop j.written) := ⟨_, rfl⟩
  obtain ⟨b, hb⟩ : ∃ b, b = a.condCounts j n used := ⟨_, rfl⟩
  obtain ⟨c, hc⟩ : ∃ c, c = b.condDone j 0x07 0 n := ⟨_, rfl⟩
  rw [State.condCut, ← ha, ← hb, ← hc] at ht
  have hua : u.Touches a [.seed, .dram] := ha ▸ .after (State.pokeN_touches ..) (.of_mix rfl rfl) rfl
  have hab : a.Touches b [.regs] := hb ▸ State.condCounts_touches ..
  obtain ⟨hbw, -, -⟩ := State.condCounts_effect hb
  obtain ⟨hcode, -, hph, hdone, -, -, -, -, -, hrest, hbc, hcw⟩ := State.condDone_effect hj hc
  have haw : s.WritesIn a (onPages [Pg.cond]) := .of_regs hus.pages (ha ▸ rfl)
  have hfld : ∀ g : Fld, g.off = 0x024 → c.fld Pg.cond g = s.fld Pg.cond g := fun g h => by
    rw [hrest g (by rw [h]; decide), hbw.fld (by simp only [List.mem_cons, List.not_mem_nil, or_false, keyOf]; omega),
      State.fld_of_rd (t := a) (s := u) (State.rd_congr (ha ▸ rfl) _), hus.fld g (by omega)]
  have hsc : s.Touches c [.seed, .regs, .ctlLatches, .dram] :=
    (hus.touches.mono rfl).trans ((hua.mono rfl).trans ((hab.mono rfl).trans (hbc.mono rfl)))
  have hcc : c.cond = s.cond := State.cond_of_touches hsc
  obtain ⟨hw, htc, htou, hon, hstay⟩ := State.condFree_effect ((hfld _ rfl).trans hs) ((hfld _ rfl).trans hr) ht
  have hdrop : c.cond.queue.drop 1 = [] := by rw [hcc, hq]; rfl
  have hst : s.Touches t [.seed, .regs, .ctlLatches, .dram, .condQueue] := (hsc.mono rfl).trans (htou.mono rfl)
  have hdram : t.dram = (({ u with seed := u.seed + 1 } : State).pokeN j.dst ((j.run.out.take n).drop j.written)).dram := by
    rw [htou.same .dram (by decide), hbc.same .dram (by decide), hab.same .dram (by decide), ha]
  have hseed : t.seed = s.seed + 1 := by
    rw [htou.same .seed (by decide), hbc.same .seed (by decide), hab.same .seed (by decide), ha, ← hus.touches.same .seed (by decide)]
    rfl
  refine ⟨?_, ?_, ?_, ?_, ?_, ⟨fun x hx => ?_, fun x => ?_, fun x => ?_, fun i x => ?_⟩, ?_, ?_⟩
  · rw [htc, hdrop, hcc]
  · rw [hw.fld (by decide), hcode]
    rfl
  · rw [hstay (by rw [hdrop]; simp), hph]
  · rw [hon, hdrop]
    rfl
  · rw [hw.fld (by decide), hdone]
  · rw [hdram, State.get_pokeN_outside]
    · rw [← hus.touches.same .dram (by decide)]
    · rw [List.length_drop, List.length_take]
      omega
  · rw [hst.same .fstoreMem (by decide)]
  · rw [hst.same .relayCluster (by decide)]
  · rw [State.drive, hst.same .mediaDrives (by decide)]
    rfl
  · rw [← hseed]
    exact (hst.mono (l' := [.seed, .regs, .ctlLatches, .dram] ++ condParts) rfl).eq_mix
  · refine ((haw.trans (hbw.mono fun x hx => ?_)).trans (hcw.trans (hw.mono fun x hx => hx ▸ onPages_cond))).keepsPages
    simp only [List.mem_cons, List.not_mem_nil, or_false] at hx
    rcases hx with rfl | rfl | rfl | rfl <;> exact onPages_cond

/-! ### A full destination and a used-up source -/

theorem State.condHead_of_busy {l : List CondJob} (hb : s.on Pg.cond Reg.COND_STATE_BUSY = true) (hq : s.cond.queue = j :: l) :
    s.condHead = some j := by
  rw [State.condHead, if_pos hb, hq]
  rfl

theorem State.condFull_of_full (hh : s.condHead = some j) (hj : j.cmd = none) (hst : j.stream = true) (hf : j.run.full = true) :
    ∃ used, s.condFull = (({ s with seed := s.seed + 1 } : State).condSuspended j { j with written := j.run.fit } used 2
      Reg.COND_EVENT_SUSPENDED).condFree := by
  refine ⟨min j.piece (Config.free 60 s.seed), ?_⟩
  unfold State.condFull
  simp only [hh, hj, hst, hf]
  rfl

theorem State.condNeed_of_need (hh : s.condHead = some j) (hj : j.cmd = none) (hst : j.stream = true) (hf : j.run.need = true) :
    s.condNeed = (s.condSuspended j
      { j with written := j.run.fit, dst := j.dst + (j.run.fit - j.written), cap := j.cap - (j.run.fit - j.written) } j.piece 3
      Reg.COND_EVENT_NEED_INPUT).condFree := by
  unfold State.condNeed
  simp only [hh, hj, hst, hf]
  rfl

/-- A register job alone in the engine is suspended, and the engine is free. -/
theorem State.suspended_free {kept : CondJob} {used phase : Nat} {e : Fld} (hj : j.cmd = none) (hph : phase < 8) (he : e.width = 1)
    (hlo : e.lo < 32) (hoff : e.off = 0x010) (hq : s.cond.queue = [j]) (hs : s.fld Pg.cond Reg.COMMON_PWR_REQ_STATUS = 3)
    (hr : s.fld Pg.cond Reg.COMMON_PWR_REQ_REQ = 3) (ht : t = (s.condSuspended j kept used phase e).condFree) :
    t.cond = { queue := [], parked := some kept }
      ∧ t.dram = (s.pokeN j.dst ((j.run.out.take j.run.fit).drop j.written)).dram
      ∧ t.fld Pg.cond Reg.COND_OUT_DONE = (j.run.fit - j.written) % 2 ^ Reg.COND_OUT_DONE.width
      ∧ t.fld Pg.cond Reg.COND_IN_DONE = used % 2 ^ Reg.COND_IN_DONE.width
      ∧ t.fld Pg.cond Reg.COND_STATE_PHASE = phase ∧ t.on Pg.cond Reg.COND_STATE_BUSY = false ∧ t.fld Pg.cond e = 1
      ∧ t = { s.regsOf t with dram := t.dram, cond := t.cond } ∧ s.KeepsPages t [Pg.cond] := by
  obtain ⟨v, hv⟩ : ∃ v, v = s.condSuspended j kept used phase e := ⟨_, rfl⟩
  rw [← hv] at ht
  obtain ⟨hvc, hvd, hout, hin, hvp, hve, hfld, hsv, hvw⟩ := State.condSuspended_effect hj hph he hlo hoff hv
  obtain ⟨hw, htc, htou, hon, hstay⟩ :=
    State.condFree_effect ((hfld _ (by decide) (by decide)).trans hs) ((hfld _ (by decide) (by decide)).trans hr) ht
  have hdrop : v.cond.queue.drop 1 = [] := by rw [hvc, hq]; rfl
  have hst : s.Touches t [.regs, .ctlLatches, .dram, .condQueue, .condParked] := (hsv.mono rfl).trans (htou.mono rfl)
  refine ⟨?_, ?_, ?_, ?_, ?_, ?_, ?_, hst.eq_mix, (hvw.trans (hw.mono fun x hx => hx ▸ onPages_cond)).keepsPages⟩
  · rw [htc, hdrop, hvc]
  · rw [htou.same .dram (by decide), hvd]
  · rw [hw.fld (by decide), hout]
  · rw [hw.fld (by decide), hin]
  · rw [hstay (by rw [hdrop]; simp), hvp]
  · rw [hon, hdrop]
    rfl
  · rw [hw.fld (keyOf_cond_ne (by rw [hoff]; decide)), hve]

/-- An effect from a state whose free choices have moved on by one. -/
theorem State.eq_of_seed {t : State}
    (h : t = { ({ s with seed := s.seed + 1 } : State).regsOf t with dram := t.dram, cond := t.cond }) :
    t = { s.regsOf t with seed := s.seed + 1, dram := t.dram, cond := t.cond } := h

/-- Settles O49: each write of CTRL stores ENABLE and then acts on the job that is there; a suspended job frees the engine. -/
theorem registerJobs : Obligations.RegisterJobs := by
  unfold Obligations.RegisterJobs
  refine ⟨fun s r v j ha hg hr hb hj => ?_, fun s r v ha hg hr hb => ?_, fun s r v ha hg hr hb => ?_, fun s j hb hq hj hst hs hr => ?_⟩
  · rw [exec_condGo ha hg hr hb]
    have hus := s.condEnabled_same r v
    have hgoal : j = { s.goJob with order := s.hq.uidSeq } := by
      rw [hj]
      simp only [State.goJob, decide_eq_true_eq]
    refine ⟨fun he hp hl hs => ⟨fun hbusy hq hm => ?_, fun hbusy => ?_⟩, fun he hp hl => ?_, fun he h => ?_⟩
    · obtain ⟨hc, heq, hpages, hbytes, hin, hout, -, hidle⟩ := State.go_accepted hus (State.condEnabled_on he) hp hl hs rfl
      obtain ⟨h1, h2⟩ := hidle hbusy hq hm
      refine ⟨_, rfl, ?_, h1, h2, hin, hout, heq, hpages, hbytes⟩
      rw [hc, ← hgoal, State.condQueued, hbusy, hq]
      rfl
    · obtain ⟨hc, heq, hpages, hbytes, -, -, hwait, -⟩ := State.go_accepted hus (State.condEnabled_on he) hp hl hs rfl
      obtain ⟨h1, h2⟩ := hwait hbusy
      refine ⟨_, rfl, ?_, h1, h2, heq, hpages, hbytes⟩
      rw [hc, ← hgoal, State.condQueued, hbusy]
      rfl
    · exact ⟨_, rfl, State.go_empty hus (State.condEnabled_on he) hp hl rfl⟩
    · refine ⟨_, rfl, ?_⟩
      rw [State.condGo_of_refused (h.imp (by rw [hus.fld _ (by decide)]; exact id) fun h' => ?_)]
      · exact State.condEnabled_rejected he
      · rw [State.on, (State.condEnabled_self he).fld not_false]
        exact h'
  · rw [exec_condResume ha hg hr hb]
    have hus := s.condEnabled_same r v
    have hsrc := State.fld64_congr (hus.fld Reg.COND_SRC_LO (by decide)) (hus.fld Reg.COND_SRC_HI (by decide))
    have hdst := State.fld64_congr (hus.fld Reg.COND_DST_LO (by decide)) (hus.fld Reg.COND_DST_HI (by decide))
    refine ⟨fun j he hp hj hbusy hq hm => ⟨fun hph => ?_, fun hph hl => ?_⟩, fun he h => ?_⟩
    · rw [State.condResume_of_full (by rw [hus.cond]; exact hp) ((hus.fld _ (by decide)).trans hph) (State.condEnabled_on he), hdst,
        hus.fld Reg.COND_DST_CAP (by decide)]
      exact ⟨_, rfl, State.resume_accepted hus (j := { j with
        dst := s.fld64 Pg.cond Reg.COND_DST_LO Reg.COND_DST_HI, cap := s.fld Pg.cond Reg.COND_DST_CAP }) hj hbusy hq hm (.inl rfl) rfl⟩
    · rw [State.condResume_of_used (by rw [hus.cond]; exact hp) ((hus.fld _ (by decide)).trans hph) (State.condEnabled_on he)
          (by rwa [hus.fld _ (by decide)]), hsrc, hus.fld Reg.COND_SRC_LEN (by decide), hus.fld Reg.COND_JOB_CFG_FINAL (by decide),
        State.peekN_congr (hus.touches.same .dram (by decide)) (State.dramSize_congr hus.pages)]
      exact ⟨_, rfl, State.resume_accepted hus (j := { j with
        input := j.input ++ s.peekN (s.fld64 Pg.cond Reg.COND_SRC_LO Reg.COND_SRC_HI) (s.fld Pg.cond Reg.COND_SRC_LEN)
        piece := s.fld Pg.cond Reg.COND_SRC_LEN, whole := decide (s.fld Pg.cond Reg.COND_JOB_CFG_FINAL = 1) }) hj hbusy hq hm (.inr rfl) rfl⟩
    · refine ⟨_, rfl, ?_⟩
      rw [State.condResume_of_refused (h.imp (by rw [hus.cond]; exact id) fun h' => ?_)]
      · exact State.condEnabled_rejected he
      · rw [State.on, (State.condEnabled_self he).fld not_false]
        exact h'
  · rw [exec_condAbort ha hg hr hb]
    have hus := s.condEnabled_same r v
    refine ⟨fun hph he => ?_, fun j hph hp hj => ?_, fun j hph hp hq => ?_, fun j hp hq hj hph hs hr => ?_⟩
    · rw [State.condAbort_of_idle ((hus.fld _ (by decide)).trans hph)]
      exact ⟨_, rfl, .of_writes ((State.condEnabled_self he).mono fun _ => False.elim) (hus.touches.mono rfl)⟩
    · rw [State.condAbort_of_parked (by rwa [hus.fld _ (by decide)]) (by rw [hus.cond]; exact hp), hus.cond]
      exact ⟨_, rfl, State.abort_done hus hj rfl⟩
    · have hj : j.cmd = none := of_decide_eq_true (List.find?_some (p := fun x : CondJob => decide (x.cmd = none)) hq)
      rw [State.condAbort_of_waiting ((hus.fld _ (by decide)).trans hph) (by rw [hus.cond]; exact hp) (by rw [hus.cond]; exact hq), hus.cond]
      exact ⟨_, rfl, State.abort_done hus hj rfl⟩
    · obtain ⟨n, used, hn, heq⟩ := State.condAbort_of_running (s := s.condEnabled r v) ((hus.fld _ (by decide)).trans hph)
        (by rw [hus.cond]; exact hp) (by rw [hus.cond]; exact hq) hj
      rw [heq]
      exact ⟨_, rfl, State.abort_running hus hj hq hn hs hr rfl⟩
  · have hh := State.condHead_of_busy hb hq
    refine ⟨fun hf => ?_, fun hf => ?_⟩
    · obtain ⟨used, heq⟩ := State.condFull_of_full hh hj hst hf
      obtain ⟨t, ht⟩ : ∃ t, t = s.condFull := ⟨_, rfl⟩
      obtain ⟨hc, hd, hout, -, hph, hon, he, hrest, hpages⟩ := State.suspended_free (s := ({ s with seed := s.seed + 1 } : State)) hj
        (by decide) rfl (by decide) rfl hq hs hr (ht.trans heq)
      exact ⟨t, congrArg Host.Outcome.next ht.symm, hc, hd, hout, hph, hon, he, State.eq_of_seed hrest, hpages⟩
    · obtain ⟨t, ht⟩ : ∃ t, t = s.condNeed := ⟨_, rfl⟩
      obtain ⟨hc, hd, -, hin, hph, hon, he, hrest, hpages⟩ := State.suspended_free hj (by decide) rfl (by decide) rfl hq hs hr
        (ht.trans (State.condNeed_of_need hh hj hst hf))
      exact ⟨t, congrArg Host.Outcome.next ht.symm, hc, hd, hin, hph, hon, he, hrest, hpages⟩

end Sys2Proof.Machine
end

section
/-! PROOFS. Condenser commands and the end of a job (R420, R424, R427 to R429). -/

set_option Elab.async false

namespace Sys2Proof.Machine

variable {s t u v : State} {j : CondJob}

/-! ### A command's job is accepted -/

theorem mem_insertNat (p : Nat) (l : List Nat) : p ∈ insertNat p l := by
  rw [← List.contains_iff_mem, State.contains_latches_insert]
  simp

/-- A page that must be on, and is not, rises. -/
theorem State.mem_rising_settle {p : Nat} (hd : pageDomain p ≠ 0) (hh : s.heldOn p = true) (hs : s.fld p Reg.COMMON_PWR_REQ_STATUS ≠ 3) :
    p ∈ (s.settle p).pwr.rising := by
  unfold State.settle
  dsimp only
  by_cases hr : s.pwr.rising.contains p = true
  · rw [if_pos (.inr hr)]
    exact List.contains_iff_mem.1 hr
  · rw [if_neg (not_or.2 ⟨hd, hr⟩), if_pos (.inl hh), if_neg hs]
    exact mem_insertNat p _

theorem State.condAccept_of_command {n : Nat} (hj : j.cmd = some n) :
    s.condAccept j = ((s.setCond { s.cond with queue := s.condQueued { j with order := n } }).settle Pg.cond).condStart := by
  unfold State.condAccept
  simp only [hj, reduceCtorEq, if_false, Option.getD_some]
  rfl

theorem State.command_accepted {n : Nat} (hj : j.cmd = some n) (ht : t = s.condAccept j) :
    t.cond = { s.cond with queue := s.condQueued { j with order := n } }
      ∧ t.on Pg.cond Reg.COND_STATE_BUSY = (s.on Pg.cond Reg.COND_STATE_BUSY || s.condMay)
      ∧ (s.fld Pg.cond Reg.COMMON_PWR_REQ_STATUS ≠ 3 → Pg.cond ∈ t.pwr.rising)
      ∧ s.Touches t [.regs, .condQueue, .pwrRising] ∧ s.WritesIn t (· = keyOf Reg.COND_STATE_BUSY Pg.cond) := by
  obtain ⟨a, ha⟩ : ∃ a, a = s.setCond { s.cond with queue := s.condQueued { j with order := n } } := ⟨_, rfl⟩
  obtain ⟨b, hb⟩ : ∃ b, b = a.settle Pg.cond := ⟨_, rfl⟩
  rw [State.condAccept_of_command hj, ← ha, ← hb] at ht
  have hsa : s.Touches a [.condQueue] := ha ▸ .of_mix rfl rfl
  have hac : a.cond = { s.cond with queue := s.condQueued { j with order := n } } := ha ▸ rfl
  have hheld : a.heldOn Pg.cond = true := State.heldOn_cond (by rw [hac]; exact s.condQueued_ne_nil _)
  have hab : a.Touches b [.pwrRising] := hb ▸ State.settle_of_held hheld
  have hregs : b.regs = s.regs := (hab.same .regs (by decide)).trans (hsa.same .regs (by decide))
  have hbc : b.cond = a.cond := State.cond_of_touches hab
  obtain ⟨hw, htou, hon, -⟩ := State.condStart_effect ht
  have hmay : b.condMay = s.condMay := State.condMay_congr (State.fld_congr hregs ..)
    ((hab.same .pwrHeld (by decide)).trans (hsa.same .pwrHeld (by decide)))
    ((hab.same .pwrLimiting (by decide)).trans (hsa.same .pwrLimiting (by decide)))
  refine ⟨?_, ?_, fun h => ?_, (hsa.mono rfl).trans ((hab.mono rfl).trans (htou.mono rfl)), fun x hx => (hw x hx).trans (State.rd_congr hregs x)⟩
  · rw [State.cond_of_touches htou, hbc, hac]
  · rw [hon, hbc, hac, hmay, List.isEmpty_eq_false_iff.2 (s.condQueued_ne_nil _), State.on, State.fld_congr hregs]
    simp [State.on]
  · rw [htou.same .pwrRising (by decide), hb]
    exact State.mem_rising_settle (by decide) hheld (by rwa [State.fld_congr (ha ▸ rfl : a.regs = s.regs)])

theorem runCond_of_ok {inf : Bool} {h : HostData} {tag : Nat} {c : Cmd} {bufs : List (Nat × Nat)} {b : List Byte}
    (he : s.on Pg.cond Reg.COND_CTRL_ENABLE = true) (hb : s.buffers c h false = .ok bufs)
    (hw : s.windowOk c.fn (c.cdw 8 + 2 ^ 32 * c.cdw 9) (c.cdw 10) true = true) (hd : h.data = some b) :
    runCond inf h tag c s = s.condAccept
      { cmd := some c.uid, fn := c.fn, inflate := inf, level := c.cdw 11 % 16, input := padTo (xferLen c h) b, piece := xferLen c h
        dst := c.cdw 8 + 2 ^ 32 * c.cdw 9, cap := c.cdw 10, limit := c.cdw 10, most := some (max 1 (s.fld Pg.cond Reg.COND_DEC_MAX)) } := by
  unfold runCond
  simp only [he, hb, hw, hd, Bool.true_eq_false, if_false]

/-! ### A job ends -/

theorem CondJob.run_code_ne (j : CondJob) : j.run.code ≠ 0x32 := by
  unfold CondJob.run
  split
  · unfold CondJob.runInflate
    extract_lets r out room ends lim
    have hends : ends.1 ≠ 0x32 := by
      cases hr : r.2.1 <;> simp [ends, hr]
    clear_value ends
    split
    · dsimp only
      split <;> decide
    · split
      · show (0 : Nat) ≠ 0x32
        decide
      · exact hends
  · unfold CondJob.runDeflate
    extract_lets chunks out total room fit code lim
    split
    · show code ≠ 0x32
      simp only [code]
      split <;> decide
    · split
      · show (0 : Nat) ≠ 0x32
        decide
      · dsimp only
        split <;> decide

theorem State.condDone_of_command {n : Nat} (hj : j.cmd = some n) (code detail fit : Nat) :
    s.condDone j code detail fit = (s.condCounted code detail).finish n code fit detail := by
  unfold State.condDone
  simp only [hj]
  rfl

/-- The parts that the end of a job changes. -/
def endParts : List Part := [.regs, .ctlLatches, .hqCmds, .hqGhosts, .hqErrors, .hqErrCount0, .hqErrCount1]

/-- The end of a job that serves a command or the registers. -/
theorem State.condDone_ends {code detail n : Nat} (h32 : code ≠ 0x32) (ht : t = s.condDone j code detail n) :
    t.fld Pg.cond Reg.COND_JOBS = min (s.fld Pg.cond Reg.COND_JOBS + 1) (2 ^ Reg.COND_JOBS.width - 1)
      ∧ (code = 0x21 → t.fld Pg.cond Reg.COND_EVENT_LIMIT = 1)
      ∧ (code = 0x20 → detail = 0 → t.fld Pg.cond Reg.COND_EVENT_NO_GAIN = 1)
      ∧ (∀ e : Fld, e.width = 1 → e.lo < 32 → e.off = 0x010 → s.fld Pg.cond e = 1 → t.fld Pg.cond e = 1)
      ∧ (∀ g : Fld, g.off ∉ [0x00C, 0x010, 0x068, 0x080] → t.fld Pg.cond g = s.fld Pg.cond g)
      ∧ (∀ u, j.cmd = some u → s.ends t u code n detail)
      ∧ (j.cmd = none → t.fld Pg.cond Reg.COND_RESULT_CODE = code % 2 ^ Reg.COND_RESULT_CODE.width
          ∧ t.fld Pg.cond Reg.COND_RESULT_VERIFY = (if code = 0x20 ∧ detail = 1 then 1 else 0) % 2 ^ Reg.COND_RESULT_VERIFY.width
          ∧ t.fld Pg.cond Reg.COND_STATE_PHASE = 0 ∧ t.fld Pg.cond Reg.COND_EVENT_JOB_DONE = 1)
      ∧ s.Touches t endParts ∧ s.WritesIn t (onPages [Pg.cond]) := by
  have htou : s.Touches t endParts := ht ▸ State.condDone_touches ..
  cases hj : j.cmd with
  | none =>
    obtain ⟨h1, h2, h3, h4, h5, h6, h7, h8, -, h10, -, h12⟩ := State.condDone_effect hj ht
    exact ⟨h5, h6, h7, h8, h10, fun u hu => (nomatch hu), fun _ => ⟨h1, h2, h3, h4⟩, htou, h12⟩
  | some m =>
    obtain ⟨a, ha⟩ : ∃ a, a = s.condCounted code detail := ⟨_, rfl⟩
    rw [State.condDone_of_command hj, ← ha] at ht
    obtain ⟨haw, hjobs, hlimit, hgain, hstay, hat⟩ := State.condCounted_effect ha
    have hregs : t.regs = a.regs := ht ▸ a.finish_regs _ _ _ h32
    have hfld : ∀ g : Fld, t.fld Pg.cond g = a.fld Pg.cond g := fun g => State.fld_congr hregs ..
    refine ⟨?_, fun h => ?_, fun h h' => ?_, fun e h1 h2 h3 h4 => ?_, fun g hg => ?_, fun u hu => ?_, fun h => (nomatch h), htou, ?_⟩
    · rw [hfld, hjobs]
    · rw [hfld, hlimit h]
    · rw [hfld, hgain h h']
    · rw [hfld, hstay e h1 h2 h3 h4]
    · simp only [List.mem_cons, List.not_mem_nil, or_false, not_or] at hg
      obtain ⟨-, h2, -, h4⟩ := hg
      rw [hfld, haw.fld]
      simp only [List.mem_cons, List.not_mem_nil, or_false, not_or]
      exact ⟨keyOf_cond_ne h4, keyOf_cond_ne h2⟩
    · cases hu
      exact ht ▸ State.ends_finish (hat.same .hqCmds (by decide)) _ _ _ _
    · refine .of_regs (haw.mono fun x hx => ?_) hregs
      simp only [List.mem_cons, List.not_mem_nil, or_false] at hx
      rcases hx with rfl | rfl <;> exact onPages_cond

/-- A job has ended and the engine is free for those that wait, none of which serves the registers. -/
theorem State.job_ended {l : List CondJob} {code detail n : Nat} (h32 : code ≠ 0x32) (hq : s.cond.queue = j :: l)
    (hl : ∀ x ∈ l, x.cmd.isSome = true) (hs : s.fld Pg.cond Reg.COMMON_PWR_REQ_STATUS = 3) (hr : s.fld Pg.cond Reg.COMMON_PWR_REQ_REQ = 3)
    (ht : t = (s.condDone j code detail n).condFree) :
    t.cond = { s.cond with queue := l } ∧ t.on Pg.cond Reg.COND_STATE_BUSY = (!l.isEmpty && s.condMay)
      ∧ t.fld Pg.cond Reg.COND_JOBS = min (s.fld Pg.cond Reg.COND_JOBS + 1) (2 ^ Reg.COND_JOBS.width - 1)
      ∧ (code = 0x21 → t.fld Pg.cond Reg.COND_EVENT_LIMIT = 1)
      ∧ (code = 0x20 → detail = 0 → t.fld Pg.cond Reg.COND_EVENT_NO_GAIN = 1)
      ∧ (∀ e : Fld, e.width = 1 → e.lo < 32 → e.off = 0x010 → s.fld Pg.cond e = 1 → t.fld Pg.cond e = 1)
      ∧ (∀ g : Fld, g.off ∉ [0x00C, 0x010, 0x068, 0x080] → t.fld Pg.cond g = s.fld Pg.cond g)
      ∧ (∀ u, j.cmd = some u → s.ends t u code n detail)
      ∧ (j.cmd = none → t.fld Pg.cond Reg.COND_RESULT_CODE = code % 2 ^ Reg.COND_RESULT_CODE.width
          ∧ t.fld Pg.cond Reg.COND_RESULT_VERIFY = (if code = 0x20 ∧ detail = 1 then 1 else 0) % 2 ^ Reg.COND_RESULT_VERIFY.width
          ∧ t.fld Pg.cond Reg.COND_STATE_PHASE = 0 ∧ t.fld Pg.cond Reg.COND_EVENT_JOB_DONE = 1)
      ∧ s.Touches t (endParts ++ [.condQueue]) ∧ s.WritesIn t (onPages [Pg.cond]) := by
  obtain ⟨a, ha⟩ : ∃ a, a = s.condDone j code detail n := ⟨_, rfl⟩
  rw [← ha] at ht
  obtain ⟨hjobs, hlimit, hgain, hstay, hrest, hends, hreg, hat, haw⟩ := State.condDone_ends h32 ha
  obtain ⟨hw, htc, htou, hon, hph⟩ := State.condFree_effect ((hrest _ (by decide)).trans hs) ((hrest _ (by decide)).trans hr) ht
  have hac : a.cond = s.cond := State.cond_of_touches hat
  have hdrop : a.cond.queue.drop 1 = l := by rw [hac, hq]; rfl
  have hmay : a.condMay = s.condMay :=
    State.condMay_congr (hrest _ (by decide)) (hat.same .pwrHeld (by decide)) (hat.same .pwrLimiting (by decide))
  have hfld : ∀ g : Fld, g.off ≠ 0x00C → t.fld Pg.cond g = a.fld Pg.cond g := fun g h => hw.fld (keyOf_cond_ne h)
  refine ⟨?_, ?_, ?_, fun h => ?_, fun h h' => ?_, fun e h1 h2 h3 h4 => ?_, fun g hg => ?_, fun u hu => ?_, fun h => ?_,
    (hat.mono rfl).trans (htou.mono rfl), haw.trans (hw.mono fun x hx => hx ▸ onPages_cond)⟩
  · rw [htc, hdrop, hac]
  · rw [hon, hdrop, hmay]
  · rw [hfld _ (by decide), hjobs]
  · rw [hfld _ (by decide), hlimit h]
  · rw [hfld _ (by decide), hgain h h']
  · rw [hfld _ (by omega), hstay e h1 h2 h3 h4]
  · rw [hfld _ fun e => hg (by rw [e]; decide), hrest g hg]
  · exact State.ends_of_cmds (hends u hu) (htou.same .hqCmds (by decide))
  · obtain ⟨h1, h2, h3, h4⟩ := hreg h
    exact ⟨(hfld _ (by decide)).trans h1, (hfld _ (by decide)).trans h2, (hph (by rwa [hdrop])).trans h3, (hfld _ (by decide)).trans h4⟩

/-! ### The output of a job -/

/-- The state with `n` bytes of a job's output at its destination, which a register job counts. -/
def State.condOutput (s : State) (j : CondJob) (n used : Nat) : State :=
  if j.cmd.isSome then s.condWrite j j.run.out n else (s.condWrite j j.run.out n).condCounts j n used

theorem State.condWrite_of_command {u : Nat} (hj : j.cmd = some u) (out : List Byte) (n : Nat) :
    s.Touches (s.condWrite j out n) [.out] := by
  unfold State.condWrite
  simp only [hj]
  exact .ite (State.emit_touches ..) (.refl _ _)

theorem State.condOutput_effect {n used : Nat} (ht : t = s.condOutput j n used) :
    s.Touches t [.out, .regs, .dram] ∧ s.WritesIn t (onPages [Pg.cond])
      ∧ (∀ g : Fld, g.off ∉ [0x06C, 0x070, 0x074, 0x078] → t.fld Pg.cond g = s.fld Pg.cond g)
      ∧ (∀ u, j.cmd = some u → t.out = (s.condWrite j j.run.out n).out ∧ t.dram = s.dram)
      ∧ (j.cmd = none → t.dram = (s.pokeN j.dst ((j.run.out.take n).drop j.written)).dram ∧ t.out = s.out) := by
  unfold State.condOutput at ht
  cases hj : j.cmd with
  | some u =>
    rw [hj, if_pos (Option.isSome_some ..)] at ht
    have htou : s.Touches t [.out] := ht ▸ State.condWrite_of_command hj ..
    have hregs : t.regs = s.regs := htou.same .regs (by decide)
    exact ⟨htou.mono rfl, .of_regs (.refl s _) hregs, fun g _ => State.fld_congr hregs .., fun _ _ => ⟨by rw [ht], htou.same .dram (by decide)⟩,
      fun h => nomatch h⟩
  | none =>
    rw [hj, if_neg (by decide), State.condWrite_of_register hj] at ht
    obtain ⟨a, ha⟩ : ∃ a, a = s.pokeN j.dst ((j.run.out.take n).drop j.written) := ⟨_, rfl⟩
    rw [← ha] at ht
    have hsa : s.Touches a [.dram] := ha ▸ State.pokeN_touches ..
    have hat : a.Touches t [.regs] := ht ▸ State.condCounts_touches ..
    have hregs : a.regs = s.regs := hsa.same .regs (by decide)
    obtain ⟨hw, -, -⟩ := State.condCounts_effect ht
    refine ⟨(hsa.mono rfl).trans (hat.mono rfl), (State.WritesIn.of_regs (.refl s _) hregs).trans (hw.mono fun x hx => ?_), fun g hg => ?_,
      fun u hu => (nomatch hu), fun _ => ⟨?_, ?_⟩⟩
    · simp only [List.mem_cons, List.not_mem_nil, or_false] at hx
      rcases hx with rfl | rfl | rfl | rfl <;> exact onPages_cond
    · simp only [List.mem_cons, List.not_mem_nil, or_false, not_or] at hg
      obtain ⟨h1, h2, h3, h4⟩ := hg
      rw [hw.fld, State.fld_congr hregs]
      simp only [List.mem_cons, List.not_mem_nil, or_false, not_or]
      exact ⟨keyOf_cond_ne h2, keyOf_cond_ne h4, keyOf_cond_ne h1, keyOf_cond_ne h3⟩
    · rw [hat.same .dram (by decide), ha]
    · rw [hat.same .out (by decide), hsa.same .out (by decide)]

/-- Of a job's output no byte beyond its destination is written. -/
theorem State.condOutput_stores {n used m : Nat} (hn : n - j.written ≤ m) (ht : t = s.condOutput j n used) {x : Nat}
    (hx : x < j.dst ∨ j.dst + m ≤ x) : t.dram.get x = s.dram.get x := by
  obtain ⟨-, -, -, hcmd, hreg⟩ := State.condOutput_effect ht
  cases hj : j.cmd with
  | some u => rw [(hcmd u hj).2]
  | none =>
    rw [(hreg hj).1, State.get_pokeN_outside]
    rw [List.length_drop, List.length_take]
    omega

theorem State.condEnd_of_verified {verified : Bool} (hh : s.condHead = some j) (hv : verified = true ∨ j.inflate = true)
    (hneed : j.run.need = false) (hfull : (j.run.full && j.stream) = false) :
    ∃ used, s.condEnd verified = ((s.condOutput j j.run.fit used).condDone j j.run.code j.run.detail j.run.fit).condFree := by
  have hve : (!verified && !j.inflate) = false := by
    rcases hv with h | h <;> simp [h]
  unfold State.condEnd
  simp only [hh, hve, hneed, hfull, Bool.or_self, Bool.false_eq_true, if_false]
  exact ⟨_, rfl⟩

/-- The state with a failed verification counted. -/
def State.condUnverified (s : State) : State := (s.count Pg.cond Reg.COND_VERIFY_FAILS).raise Pg.cond Reg.COND_EVENT_VERIFY_ERR

theorem State.condEnd_of_unverified (hh : s.condHead = some j) (hi : j.inflate = false) :
    ∃ n used, n - j.written ≤ j.run.fit - j.written ∧ n ≤ max j.written j.run.fit
      ∧ s.condEnd false = ((((({ s with seed := s.seed + 1 } : State).condOutput j n used).condUnverified).condDone j 0x20 1 n)).condFree := by
  refine ⟨j.written + min (j.run.fit - j.written) (Config.free 61 s.seed), min j.piece (Config.free 60 s.seed), by omega, by omega, ?_⟩
  unfold State.condEnd
  simp only [hh, hi, Bool.not_false, Bool.and_self, if_true]
  rfl

theorem State.condUnverified_effect (ht : t = s.condUnverified) :
    s.Touches t [.regs, .ctlLatches] ∧ s.WritesIn t (onPages [Pg.cond])
      ∧ (∀ g : Fld, g.off ∉ [0x010, 0x084] → t.fld Pg.cond g = s.fld Pg.cond g)
      ∧ t.fld Pg.cond Reg.COND_EVENT_VERIFY_ERR = 1
      ∧ t.fld Pg.cond Reg.COND_VERIFY_FAILS = min (s.fld Pg.cond Reg.COND_VERIFY_FAILS + 1) (2 ^ Reg.COND_VERIFY_FAILS.width - 1) := by
  unfold State.condUnverified at ht
  have hw : s.WritesIn t (fun a => a ∈ [keyOf Reg.COND_VERIFY_FAILS Pg.cond, keyOf Reg.COND_EVENT_VERIFY_ERR Pg.cond]) := by
    rw [ht]
    exact .raise (.count (.refl s _) (by decide)) (by decide)
  refine ⟨?_, hw.mono fun x hx => ?_, fun g hg => hw.fld ?_, ?_, ?_⟩
  · rw [ht]
    exact .after (State.raise_touches ..) ((State.count_touches ..).mono rfl) rfl
  · simp only [List.mem_cons, List.not_mem_nil, or_false] at hx
    rcases hx with rfl | rfl <;> exact onPages_cond
  · simp only [List.mem_cons, List.not_mem_nil, or_false, not_or] at hg ⊢
    exact ⟨keyOf_cond_ne hg.2, keyOf_cond_ne hg.1⟩
  · rw [ht]
    exact State.fld_raise_same _ _ _ (by decide) rfl
  · rw [ht, State.fld_raise_ne _ _ _ _ _ (by decide) (.inl (keyOf_cond_ne (by decide)))]
    exact State.fld_countBy_same _ _ _ _ (by decide)

/-! ### The two ends of a job -/

theorem State.verified_end {l : List CondJob} {used : Nat} (hq : s.cond.queue = j :: l) (hl : ∀ x ∈ l, x.cmd.isSome = true)
    (hs : s.fld Pg.cond Reg.COMMON_PWR_REQ_STATUS = 3) (hr : s.fld Pg.cond Reg.COMMON_PWR_REQ_REQ = 3)
    (ht : t = ((s.condOutput j j.run.fit used).condDone j j.run.code j.run.detail j.run.fit).condFree) :
    t.cond = { s.cond with queue := l } ∧ t.on Pg.cond Reg.COND_STATE_BUSY = (!l.isEmpty && s.condMay)
      ∧ t.fld Pg.cond Reg.COND_JOBS = min (s.fld Pg.cond Reg.COND_JOBS + 1) (2 ^ Reg.COND_JOBS.width - 1)
      ∧ (j.run.code = 0x21 → t.fld Pg.cond Reg.COND_EVENT_LIMIT = 1)
      ∧ (j.run.code = 0x20 → j.run.detail = 0 → t.fld Pg.cond Reg.COND_EVENT_NO_GAIN = 1)
      ∧ (∀ u, j.cmd = some u → t.out = (s.condWrite j j.run.out j.run.fit).out ∧ t.dram = s.dram
          ∧ s.ends t u j.run.code j.run.fit j.run.detail)
      ∧ (j.cmd = none → t.dram = (s.pokeN j.dst ((j.run.out.take j.run.fit).drop j.written)).dram ∧ t.out = s.out
          ∧ t.fld Pg.cond Reg.COND_RESULT_CODE = j.run.code % 2 ^ Reg.COND_RESULT_CODE.width
          ∧ t.fld Pg.cond Reg.COND_STATE_PHASE = 0 ∧ t.fld Pg.cond Reg.COND_EVENT_JOB_DONE = 1)
      ∧ t = { s.regsOf t with
          out := t.out, dram := t.dram, cond := t.cond
          hq := { s.hq with
            cmds := t.hq.cmds, ghosts := t.hq.ghosts, errors := t.hq.errors, errCount0 := t.hq.errCount0, errCount1 := t.hq.errCount1 } }
      ∧ s.KeepsPages t [Pg.cond] := by
  obtain ⟨v, hv⟩ : ∃ v, v = s.condOutput j j.run.fit used := ⟨_, rfl⟩
  rw [← hv] at ht
  obtain ⟨hsv, hvw, hfld, hcmd, hreg⟩ := State.condOutput_effect hv
  have hvc : v.cond = s.cond := State.cond_of_touches hsv
  obtain ⟨hc, hon, hjobs, hlimit, hgain, -, -, hends, hdone, hvt, htw⟩ := State.job_ended j.run_code_ne (hvc ▸ hq) hl
    ((hfld _ (by decide)).trans hs) ((hfld _ (by decide)).trans hr) ht
  have hmay : v.condMay = s.condMay :=
    State.condMay_congr (hfld _ (by decide)) (hsv.same .pwrHeld (by decide)) (hsv.same .pwrLimiting (by decide))
  have hst : s.Touches t ([.out, .dram] ++ endParts ++ [.condQueue]) := (hsv.mono rfl).trans (hvt.mono rfl)
  refine ⟨by rw [hc, hvc], by rw [hon, hmay], by rw [hjobs, hfld _ (by decide)], hlimit, hgain, fun u hu => ⟨?_, ?_, ?_⟩, fun h => ⟨?_, ?_, ?_⟩,
    (hst.mono (l' := [Part.out, Part.dram] ++ endParts ++ condParts) rfl).eq_mix, (hvw.trans htw).keepsPages⟩
  · rw [hvt.same .out (by decide), (hcmd u hu).1]
  · rw [hvt.same .dram (by decide), (hcmd u hu).2]
  · exact State.ends_from (hends u hu) (hsv.same .hqCmds (by decide))
  · rw [hvt.same .dram (by decide), (hreg h).1]
  · rw [hvt.same .out (by decide), (hreg h).2]
  · obtain ⟨h1, -, h3, h4⟩ := hdone h
    exact ⟨h1, h3, h4⟩

theorem State.unverified_end {l : List CondJob} {n used : Nat} (hn : n - j.written ≤ j.run.fit - j.written) (hmax : n ≤ max j.written j.run.fit)
    (hq : s.cond.queue = j :: l) (hl : ∀ x ∈ l, x.cmd.isSome = true) (hs : s.fld Pg.cond Reg.COMMON_PWR_REQ_STATUS = 3)
    (hr : s.fld Pg.cond Reg.COMMON_PWR_REQ_REQ = 3)
    (ht : t = ((((({ s with seed := s.seed + 1 } : State).condOutput j n used).condUnverified).condDone j 0x20 1 n)).condFree) :
    t.cond = { s.cond with queue := l } ∧ t.on Pg.cond Reg.COND_STATE_BUSY = (!l.isEmpty && s.condMay)
      ∧ t.fld Pg.cond Reg.COND_EVENT_VERIFY_ERR = 1
      ∧ t.fld Pg.cond Reg.COND_VERIFY_FAILS = min (s.fld Pg.cond Reg.COND_VERIFY_FAILS + 1) (2 ^ Reg.COND_VERIFY_FAILS.width - 1)
      ∧ (∀ u, j.cmd = some u → t.dram = s.dram ∧ ∃ n, n ≤ max j.written j.run.fit ∧ s.ends t u 0x20 n 1)
      ∧ (j.cmd = none → t.fld Pg.cond Reg.COND_RESULT_CODE = 0x20 ∧ t.fld Pg.cond Reg.COND_RESULT_VERIFY = 1
          ∧ t.fld Pg.cond Reg.COND_STATE_PHASE = 0 ∧ t.out = s.out)
      ∧ s.StoresDram t j.dst (j.run.fit - j.written)
      ∧ t = { s.regsOf t with
          out := t.out, seed := s.seed + 1, dram := t.dram, cond := t.cond
          hq := { s.hq with
            cmds := t.hq.cmds, ghosts := t.hq.ghosts, errors := t.hq.errors, errCount0 := t.hq.errCount0, errCount1 := t.hq.errCount1 } }
      ∧ s.KeepsPages t [Pg.cond] := by
  obtain ⟨a, ha⟩ : ∃ a, a = ({ s with seed := s.seed + 1 } : State) := ⟨_, rfl⟩
  obtain ⟨b, hb⟩ : ∃ b, b = a.condOutput j n used := ⟨_, rfl⟩
  obtain ⟨v, hv⟩ : ∃ v, v = b.condUnverified := ⟨_, rfl⟩
  rw [← ha, ← hb, ← hv] at ht
  have hsa : s.Touches a [.seed] := ha ▸ .of_mix rfl rfl
  have hregs : a.regs = s.regs := hsa.same .regs (by decide)
  obtain ⟨hab, hbw, hbf, hcmd, hreg⟩ := State.condOutput_effect hb
  obtain ⟨hbv, hvw, hvf, herr, hfails⟩ := State.condUnverified_effect hv
  have hfld : ∀ g : Fld, g.off = 0x024 → v.fld Pg.cond g = s.fld Pg.cond g := fun g h => by
    rw [hvf g (by rw [h]; decide), hbf g (by rw [h]; decide), State.fld_congr hregs]
  have hsv : s.Touches v [.seed, .out, .dram, .regs, .ctlLatches] := (hsa.mono rfl).trans ((hab.mono rfl).trans (hbv.mono rfl))
  have hvc : v.cond = s.cond := State.cond_of_touches hsv
  obtain ⟨hc, hon, -, -, -, hstay, hrest, hends, hdone, hvt, htw⟩ := State.job_ended (by decide) (hvc ▸ hq) hl
    ((hfld _ rfl).trans hs) ((hfld _ rfl).trans hr) ht
  have hmay : v.condMay = s.condMay :=
    State.condMay_congr (hfld _ rfl) (hsv.same .pwrHeld (by decide)) (hsv.same .pwrLimiting (by decide))
  have hst : s.Touches t ([.seed, .out, .dram] ++ endParts ++ [.condQueue]) := (hsv.mono rfl).trans (hvt.mono rfl)
  have hseed : t.seed = s.seed + 1 := by
    rw [hvt.same .seed (by decide), hbv.same .seed (by decide), hab.same .seed (by decide), ha]
  have hdram : t.dram = b.dram := (hvt.same .dram (by decide)).trans (hbv.same .dram (by decide))
  have hda : a.dram = s.dram := hsa.same .dram (by decide)
  refine ⟨by rw [hc, hvc], by rw [hon, hmay], hstay _ rfl (by decide) rfl herr, ?_, fun u hu => ⟨?_, n, hmax, ?_⟩, fun h => ?_,
    ⟨fun x hx => ?_, fun x => ?_, fun x => ?_, fun i x => ?_⟩, ?_, ?_⟩
  · rw [hrest _ (by decide), hfails, hbf _ (by decide), State.fld_congr hregs]
  · rw [hdram, (hcmd u hu).2, hda]
  · exact State.ends_from (hends u hu) (hsv.same .hqCmds (by decide))
  · obtain ⟨h1, h2, h3, -⟩ := hdone h
    refine ⟨h1, h2, h3, ?_⟩
    rw [hvt.same .out (by decide), hbv.same .out (by decide), (hreg h).2, hsa.same .out (by decide)]
  · rw [hdram, State.condOutput_stores hn hb hx, hda]
  · rw [hst.same .fstoreMem (by decide)]
  · rw [hst.same .relayCluster (by decide)]
  · rw [State.drive, hst.same .mediaDrives (by decide)]
    rfl
  · rw [← hseed]
    exact (hst.mono (l' := [.seed, .out, .dram] ++ endParts ++ condParts) rfl).eq_mix
  · exact (((State.WritesIn.of_regs (.refl s _) hregs).trans hbw).trans (hvw.trans htw)).keepsPages

/-- A command whose checks pass is accepted as a job. -/
theorem State.command_started {inf : Bool} {tag busy : Nat} {h : HostData} {c : Cmd} {bufs : List (Nat × Nat)} {b : List Byte}
    (hst : s.starts tag (if inf then 0x89 else 0x88) (badCond inf h)) (hc : c = s.hq.cmds.get tag)
    (he : s.on Pg.cond Reg.COND_CTRL_ENABLE = true) (hb : s.buffers c h false = .ok bufs)
    (hw : s.windowOk c.fn (c.cdw 8 + 2 ^ 32 * c.cdw 9) (c.cdw 10) true = true) (hd : h.data = some b)
    (hbusy : busy = (if s.on Pg.cond Reg.COND_STATE_BUSY then 1 else 0))
    (hj : j = { cmd := some c.uid, fn := c.fn, inflate := inf, level := c.cdw 11 % 16, input := padTo (xferLen c h) b, piece := xferLen c h
                dst := c.cdw 8 + 2 ^ 32 * c.cdw 9, cap := c.cdw 10, limit := c.cdw 10
                most := some (max 1 (s.fld Pg.cond Reg.COND_DEC_MAX)), order := c.uid })
    (ht : t = withCmd tag (if inf then 0x89 else 0x88) s (badCond inf h) (runCond inf h tag)) :
    t.cond = { s.cond with queue := s.cond.queue.take busy ++ j.enqueue (s.cond.queue.drop busy) }
      ∧ t.on Pg.cond Reg.COND_STATE_BUSY = (s.on Pg.cond Reg.COND_STATE_BUSY || s.condMay)
      ∧ (s.fld Pg.cond Reg.COMMON_PWR_REQ_STATUS ≠ 3 → Pg.cond ∈ t.pwr.rising)
      ∧ (t.hq.cmds.get tag).stage = .running ∧ s.OnlyTag t tag
      ∧ t = { s with
          regs := t.regs, hq := { s.hq with cmds := t.hq.cmds }, cond := t.cond, pwr := { s.pwr with rising := t.pwr.rising } }
      ∧ s.KeepsRegs t [keyOf Reg.COND_STATE_BUSY Pg.cond] ∧ s.KeepsBytes t := by
  subst hc
  have hrun := ht.trans ((withCmd_started _ hst).trans (runCond_of_ok (s := s.start tag) he hb hw hd))
  obtain ⟨hcond, hon, hrise, htou, hwr⟩ := State.command_accepted rfl hrun
  have hcmds : t.hq.cmds = (s.start tag).hq.cmds := htou.same .hqCmds (by decide)
  have hall : s.Touches t [.hqCmds, .regs, .condQueue, .pwrRising] := ((s.start_touches tag).mono rfl).trans (htou.mono rfl)
  refine ⟨?_, hon, hrise, ?_, fun g hg => ?_, (hall.mono (l' := [Part.hqCmds, Part.regs, Part.pwrRising] ++ condParts) rfl).eq_mix,
    State.WritesIn.keepsReg hwr, hall.keepsBytes rfl⟩
  · rw [hcond, hj, hbusy]
    rfl
  · rw [hcmds, State.start_get]
    rfl
  · rw [hcmds]
    exact s.onlyTag_start tag g hg

/-- Settles O48: a command is accepted among the jobs that wait, and the end of a job is its output, its count and the engine set free. -/
theorem condenserJobs : Obligations.CondenserJobs := by
  unfold Obligations.CondenserJobs
  refine ⟨fun s i tag busy h c inf bufs b j hi hst hc he hb hw hd hbusy hj => ?_, fun s j l verified hb hq hl hv hneed hfull hs hr => ?_,
    fun s j l hb hq hl hi hs hr => ?_⟩
  · obtain ⟨t, ht⟩ : ∃ t, t = withCmd tag (if inf then 0x89 else 0x88) s (badCond inf h) (runCond inf h tag) := ⟨_, rfl⟩
    refine ⟨t, ?_, State.command_started hst hc he hb hw hd hbusy hj ht⟩
    rcases hi with ⟨rfl, rfl⟩ | ⟨rfl, rfl⟩
    · exact congrArg Host.Outcome.next ht.symm
    · exact congrArg Host.Outcome.next ht.symm
  · obtain ⟨used, heq⟩ := State.condEnd_of_verified (State.condHead_of_busy hb hq) hv hneed hfull
    obtain ⟨t, ht⟩ : ∃ t, t = s.condEnd verified := ⟨_, rfl⟩
    exact ⟨t, congrArg Host.Outcome.next ht.symm, State.verified_end hq hl hs hr (ht.trans heq)⟩
  · obtain ⟨n, used, hn, hmax, heq⟩ := State.condEnd_of_unverified (State.condHead_of_busy hb hq) hi
    obtain ⟨t, ht⟩ : ∃ t, t = s.condEnd false := ⟨_, rfl⟩
    exact ⟨t, congrArg Host.Outcome.next ht.symm, State.unverified_end hn hmax hq hl hs hr (ht.trans heq)⟩

end Sys2Proof.Machine
end

section
/-! PROOFS. PTP messages and the servo (R379 to R389). -/

set_option Elab.async false

namespace Sys2Proof.Machine

variable {s t u y : State}

/-! ### The Collimator's page -/

theorem keyOf_coll_ne {f g : Fld} (h : f.off ≠ g.off) : keyOf f Pg.coll ≠ keyOf g Pg.coll := by
  unfold keyOf
  omega

theorem State.fld_setCollFld_ne (s : State) {f g : Fld} (v : Nat) (hg : g.lo + g.width ≤ 32)
    (h : g.off ≠ f.off ∨ f.lo + f.width ≤ g.lo ∨ g.lo + g.width ≤ f.lo) : (s.setFld Pg.coll f v).fld Pg.coll g = s.fld Pg.coll g :=
  State.fld_setFld_ne _ _ _ _ _ _ hg (h.imp keyOf_coll_ne id)

theorem State.fld_raiseCollIf_ne (s : State) (c : Bool) {e g : Fld} (hg : g.lo + g.width ≤ 32)
    (h : g.off ≠ e.off ∨ e.lo + e.width ≤ g.lo ∨ g.lo + g.width ≤ e.lo) : (s.raiseIf c Pg.coll e).fld Pg.coll g = s.fld Pg.coll g :=
  State.fld_raiseIf_ne _ _ _ _ _ _ hg (h.imp keyOf_coll_ne id)

theorem onPages_coll {f : Fld} (hf : f.off < 0x1000 := by decide) : onPages [Pg.coll, Pg.array] (keyOf f Pg.coll) :=
  onPages_keyOf hf (by decide)

theorem State.raiseIf_coll_same {c : Bool} {e : Fld} (hc : c = true) (hlo : e.lo + e.width ≤ 32) (he : e.width = 1) :
    (s.raiseIf c Pg.coll e).fld Pg.coll e = 1 := by
  rw [State.raiseIf, if_pos hc]
  exact State.fld_raise_same _ _ _ hlo he

/-! ### Rates and ALIGNED -/

/-- INC shows a rate. -/
def State.ShowsRate (s : State) (a : Int) : Prop :=
  s.fld Pg.coll Reg.COLL_INC_NS = incOf a / 2 ^ 32 % 16 ∧ s.fld Pg.coll Reg.COLL_INC_FRAC = incOf a % 2 ^ 32

theorem State.setRate_shows (s : State) (a : Int) : (s.setRate a).ShowsRate a := by
  unfold State.setRate
  refine ⟨?_, ?_⟩
  · rw [State.fld_setCollFld_ne _ _ (by decide) (.inl (by decide)), State.fld_setCollFld_ne _ _ (by decide) (.inl (by decide)),
      State.fld_setFld_same _ _ _ _ (by decide)]
    rfl
  · rw [State.fld_setCollFld_ne _ _ (by decide) (.inl (by decide)), State.fld_setFld_same _ _ _ _ (by decide)]

theorem State.ShowsRate.of_fld {a : Int} (h : s.ShowsRate a)
    (hf : ∀ g : Fld, g.off = 0x05C ∨ g.off = 0x060 → g.lo + g.width ≤ 32 → t.fld Pg.coll g = s.fld Pg.coll g) : t.ShowsRate a :=
  ⟨(hf _ (.inl rfl) (by decide)).trans h.1, (hf _ (.inr rfl) (by decide)).trans h.2⟩

/-- The registers of the array page that follow the servo. -/
def alignedKeys : List Nat := [keyOf Reg.ARRAY_STATE_ALIGNED Pg.array, keyOf Reg.ARRAY_EVENT_ALIGN_LOST Pg.array]

theorem State.showAligned_writesIn (s : State) : s.WritesIn s.showAligned (· ∈ alignedKeys) := by
  unfold State.showAligned
  exact .raiseIf (.setOn (.refl s _) _ (by decide)) (by decide)

theorem State.showAligned_coll (s : State) : s.showAligned.coll = s.coll := State.raiseIf_coll ..

theorem State.fld_showAligned (s : State) {g : Fld} (hg : g.off < 0x1000) : s.showAligned.fld Pg.coll g = s.fld Pg.coll g := by
  refine s.showAligned_writesIn.fld fun h => ?_
  simp only [alignedKeys, keyOf, Pg.coll, Pg.array, List.mem_cons, List.not_mem_nil, or_false] at h
  omega

/-! ### The servo enters a state -/

/-- The registers that a state of the servo shows in. -/
def servoMay (a : Nat) : Prop :=
  a ∈ [keyOf Reg.COLL_STATE_SERVO Pg.coll, keyOf Reg.COLL_EVENT_LOCKED Pg.coll, keyOf Reg.COLL_INC_NS Pg.coll, keyOf Reg.COLL_INC_FRAC Pg.coll,
    keyOf Reg.COLL_FREQ Pg.coll] ∨ a ∈ alignedKeys

theorem onPages_of_servoMay {a : Nat} (h : servoMay a) : onPages [Pg.coll, Pg.array] a := by
  simp only [servoMay, alignedKeys, List.mem_cons, List.not_mem_nil, or_false] at h
  rcases h with (rfl | rfl | rfl | rfl | rfl) | rfl | rfl <;> exact onPages_keyOf (by decide) (by decide)

theorem not_servoMay {f : Fld} (h : f.off < 0x1000) (hf : f.off ∉ [0x00C, 0x010, 0x05C, 0x060, 0x064]) : ¬ servoMay (keyOf f Pg.coll) := by
  simp only [List.mem_cons, List.not_mem_nil, or_false, not_or] at hf
  simp only [servoMay, alignedKeys, keyOf, Pg.coll, Pg.array, List.mem_cons, List.not_mem_nil, or_false]
  omega

/-- The state that the servo enters, before the rate and ALIGNED follow. -/
def State.entered (s : State) (v : Nat) : State :=
  let s3 := ((s.setFld Pg.coll Reg.COLL_STATE_SERVO v).raiseIf (decide (v = 2) && !decide (s.servo = 2)) Pg.coll Reg.COLL_EVENT_LOCKED).raiseIf
    (decide (v = 3) && !decide (s.servo = 3)) Pg.coll Reg.COLL_EVENT_HOLDOVER
  if v = 1 then s3.setColl { s3.coll with small := 0 } else s3

theorem State.enter_eq (s : State) (v : Nat) :
    s.enter v = (if v = 3 ∨ v = 4 then (s.entered v).holdRate else s.entered v).showAligned := rfl

theorem State.entered_effect {v : Nat} (hv : v < 8) (ht : t = s.entered v) :
    t.coll = (if v = 1 then { s.coll with small := 0 } else s.coll) ∧ t.fld Pg.coll Reg.COLL_STATE_SERVO = v
      ∧ (v = 2 → s.servo ≠ 2 → t.fld Pg.coll Reg.COLL_EVENT_LOCKED = 1)
      ∧ (v = 3 → s.servo ≠ 3 → t.fld Pg.coll Reg.COLL_EVENT_HOLDOVER = 1)
      ∧ (∀ e : Fld, e.width = 1 → e.lo < 32 → e.off = 0x010 → s.fld Pg.coll e = 1 → t.fld Pg.coll e = 1)
      ∧ s.WritesIn t (fun a => a ∈ [keyOf Reg.COLL_STATE_SERVO Pg.coll, keyOf Reg.COLL_EVENT_LOCKED Pg.coll]) := by
  obtain ⟨a, ha⟩ : ∃ a, a = s.setFld Pg.coll Reg.COLL_STATE_SERVO v := ⟨_, rfl⟩
  obtain ⟨b, hb⟩ : ∃ b, b = a.raiseIf (decide (v = 2) && !decide (s.servo = 2)) Pg.coll Reg.COLL_EVENT_LOCKED := ⟨_, rfl⟩
  obtain ⟨c, hc⟩ : ∃ c, c = b.raiseIf (decide (v = 3) && !decide (s.servo = 3)) Pg.coll Reg.COLL_EVENT_HOLDOVER := ⟨_, rfl⟩
  have htc : t = if v = 1 then c.setColl { c.coll with small := 0 } else c := by rw [ht, hc, hb, ha]; rfl
  have hcc : c.coll = s.coll := by rw [hc, State.raiseIf_coll, hb, State.raiseIf_coll, ha]; rfl
  have hregs : t.regs = c.regs := by
    rw [htc]
    split <;> rfl
  have hf : ∀ g : Fld, t.fld Pg.coll g = c.fld Pg.coll g := fun g => State.fld_congr hregs ..
  refine ⟨?_, ?_, fun h2 hs => ?_, fun h3 hs => ?_, fun e he hlo hoff h1 => ?_, ?_⟩
  · rw [htc, ← hcc]
    split <;> rfl
  · rw [hf, hc, State.fld_raiseCollIf_ne _ _ (by decide) (.inl (by decide)), hb, State.fld_raiseCollIf_ne _ _ (by decide) (.inl (by decide)), ha]
    exact State.fld_setFld_of_width _ _ _ _ (by decide) hv
  · rw [hf, hc]
    refine State.fld_raiseIf_of_one rfl rfl ?_
    rw [hb]
    exact State.raiseIf_coll_same (by simp [h2, hs]) (by decide) rfl
  · rw [hf, hc]
    exact State.raiseIf_coll_same (by simp [h3, hs]) (by decide) rfl
  · rw [hf, hc, hb]
    refine State.fld_raiseIf_of_one rfl he (State.fld_raiseIf_of_one rfl he ?_ hlo) hlo
    rw [ha, State.fld_setCollFld_ne _ _ (by omega) (.inl (by rw [hoff]; decide)), h1]
  · refine .of_regs ?_ hregs
    rw [hc, hb, ha]
    exact .raiseIf (.raiseIf (.setFld (.refl s _) _ (by decide)) (by decide)) (by decide)

theorem State.enter_effect {v : Nat} (hv : v < 8) (ht : t = s.enter v) :
    t.coll = (if v = 1 then { s.coll with small := 0 } else s.coll) ∧ t.servo = v
      ∧ (v = 2 → s.servo ≠ 2 → t.fld Pg.coll Reg.COLL_EVENT_LOCKED = 1)
      ∧ (v = 3 → s.servo ≠ 3 → t.fld Pg.coll Reg.COLL_EVENT_HOLDOVER = 1)
      ∧ (∀ e : Fld, e.width = 1 → e.lo < 32 → e.off = 0x010 → s.fld Pg.coll e = 1 → t.fld Pg.coll e = 1)
      ∧ (v = 3 ∨ v = 4 → t.ShowsRate s.coll.f)
      ∧ (v ≠ 3 → v ≠ 4 → ∀ a, s.ShowsRate a → t.ShowsRate a)
      ∧ s.WritesIn t servoMay ∧ s.Touches t [.regs, .ctlLatches, .collSmall] := by
  have htou : s.Touches t [.regs, .ctlLatches, .collSmall] := ht ▸ s.enter_touches v
  obtain ⟨d, hd⟩ : ∃ d, d = s.entered v := ⟨_, rfl⟩
  obtain ⟨e, he⟩ : ∃ e, e = if v = 3 ∨ v = 4 then d.holdRate else d := ⟨_, rfl⟩
  rw [State.enter_eq, ← hd, ← he] at ht
  obtain ⟨hcoll, hservo, hlock, hhold, hstay, hdw⟩ := State.entered_effect hv hd
  have hec : e.coll = d.coll := by
    rw [he]
    split <;> rfl
  have hew : d.WritesIn e (· ∈ [keyOf Reg.COLL_INC_NS Pg.coll, keyOf Reg.COLL_INC_FRAC Pg.coll, keyOf Reg.COLL_FREQ Pg.coll]) := by
    rw [he]
    exact .ite (State.writesIn_setRate d d.coll.f) (.refl d _)
  have hf : ∀ g : Fld, g.off < 0x020 → t.fld Pg.coll g = d.fld Pg.coll g := fun g h => by
    rw [ht, State.fld_showAligned _ (by omega), hew.fld]
    simp only [keyOf, List.mem_cons, List.not_mem_nil, or_false]
    omega
  refine ⟨?_, (hf _ (by decide)).trans hservo, fun h h' => (hf _ (by decide)).trans (hlock h h'), fun h h' => (hf _ (by decide)).trans (hhold h h'),
    fun g h1 h2 h3 h4 => (hf _ (by omega)).trans (hstay g h1 h2 h3 h4), fun h => ?_, fun h3 h4 a ha => ?_, ?_, htou⟩
  · rw [ht, State.showAligned_coll, hec, hcoll]
  · have hrate : e.ShowsRate d.coll.f := by
      rw [he, if_pos h]
      exact d.setRate_shows _
    have hdf : d.coll.f = s.coll.f := by
      rw [hcoll]
      split <;> rfl
    rw [← hdf]
    exact hrate.of_fld fun g hg _ => by rw [ht, State.fld_showAligned _ (by omega)]
  · rw [he, if_neg (by omega)] at ht
    refine ha.of_fld fun g hg _ => ?_
    rw [ht, State.fld_showAligned _ (by omega), hdw.fld]
    simp only [keyOf, List.mem_cons, List.not_mem_nil, or_false]
    omega
  · refine (hdw.mono fun a ha => .inl (List.mem_append_left [_, _, _] ha)).trans ((hew.mono fun a ha => .inl ?_).trans
      ((ht ▸ e.showAligned_writesIn).mono fun a ha => .inr ha))
    exact List.mem_append_right [_, _] ha

/-! ### A sample -/

/-- A sample of the selected master received and shown. -/
def State.sampled (s : State) (v θ : Int) : State :=
  ((s.setColl { s.coll with sync := some v }).setColl { s.coll with sync := some v, received := (θ :: s.coll.received).take 8 }).showOffset θ

theorem State.sampled_effect {v θ : Int} (hy : y = s.sampled v θ) :
    y.coll = { s.coll with sync := some v, received := (θ :: s.coll.received).take 8 }
      ∧ s.WritesIn y (· = keyOf Reg.COLL_OFFSET Pg.coll) ∧ s.Touches y [.regs, .collSync, .collReceived] := by
  subst hy
  have h : s.Touches ((s.setColl { s.coll with sync := some v }).setColl
      { s.coll with sync := some v, received := (θ :: s.coll.received).take 8 }) [.collSync, .collReceived] := .of_mix rfl rfl
  refine ⟨rfl, ?_, .after (State.showOffset_touches ..) (h.mono rfl) rfl⟩
  exact .setFld (.of_regs (.refl s _) rfl) _ rfl

theorem State.rxSync_of_taken {m : PtpSyncMsg} {v θ : Int} (hon : s.ptpOn = true) (ht : s.ptpTakes m.supported m.port m.domain = true)
    (hlo : -7 ≤ m.logInterval) (hhi : m.logInterval ≤ -1) (hsel : s.coll.sel = some (m.srcId, m.srcPort))
    (hv : v = s.rxStamp - nsUnits m.sec m.ns - corrUnits m.corr)
    (hθ : θ = v - s.coll.delay - psUnits (signed 32 (s.fld Pg.coll Reg.COLL_ASYM))) :
    s.rxSync m = (s.setColl { s.coll with sync := some v }).sample θ m.logInterval := by
  have hlog : ¬ (s.ptpTakes m.supported m.port m.domain = false ∨ m.logInterval < -7 ∨ -1 < m.logInterval) := by
    rw [ht]
    simp only [Bool.true_eq_false, false_or]
    omega
  unfold State.rxSync
  rw [if_neg (by simp [hon]), if_neg hlog, if_neg (not_not.2 hsel)]
  simp only [hv, hθ]

theorem State.sample_of_acquire {v θ log : Int} (hy : y = s.sampled v θ) (h : y.servo = 1) :
    (s.setColl { s.coll with sync := some v }).sample θ log = y.acquire θ log := by
  have hs : (s.sampled v θ).servo = 1 := hy ▸ h
  unfold State.sample
  simp only [show ((s.setColl { s.coll with sync := some v }).setColl { (s.setColl { s.coll with sync := some v }).coll with
    received := (θ :: (s.setColl { s.coll with sync := some v }).coll.received).take 8 }).showOffset θ = s.sampled v θ from rfl, hs, hy]

theorem State.sample_of_track {v θ log : Int} (hy : y = s.sampled v θ) (h : y.servo = 2) :
    (s.setColl { s.coll with sync := some v }).sample θ log = y.track θ log := by
  have hs : (s.sampled v θ).servo = 2 := hy ▸ h
  unfold State.sample
  simp only [show ((s.setColl { s.coll with sync := some v }).setColl { (s.setColl { s.coll with sync := some v }).coll with
    received := (θ :: (s.setColl { s.coll with sync := some v }).coll.received).take 8 }).showOffset θ = s.sampled v θ from rfl, hs, hy]

theorem State.sample_of_holdover {v θ log : Int} (hy : y = s.sampled v θ) (h : y.servo = 3) :
    (s.setColl { s.coll with sync := some v }).sample θ log =
      if y.det = 0 ∨ (θ.natAbs : Int) ≤ y.det then ((y.acceptSample θ).slew θ log).enter 2 else y.stepHold := by
  have hs : (s.sampled v θ).servo = 3 := hy ▸ h
  unfold State.sample
  simp only [show ((s.setColl { s.coll with sync := some v }).setColl { (s.setColl { s.coll with sync := some v }).coll with
    received := (θ :: (s.setColl { s.coll with sync := some v }).coll.received).take 8 }).showOffset θ = s.sampled v θ from rfl, hs, hy]

theorem State.sample_of_other {v θ log : Int} (hy : y = s.sampled v θ) (h : y.servo = 0 ∨ 4 ≤ y.servo) :
    (s.setColl { s.coll with sync := some v }).sample θ log = y := by
  obtain ⟨n, hn⟩ : ∃ n, n = (s.sampled v θ).servo := ⟨_, rfl⟩
  rw [hy, ← hn] at h
  unfold State.sample
  simp only [show ((s.setColl { s.coll with sync := some v }).setColl { (s.setColl { s.coll with sync := some v }).coll with
    received := (θ :: (s.setColl { s.coll with sync := some v }).coll.received).take 8 }).showOffset θ = s.sampled v θ from rfl, ← hn]
  split
  · omega
  · omega
  · omega
  · exact hy.symm

/-! ### A sample that is accepted and steers -/

theorem State.acceptSample_effect {θ : Int} (ht : t = s.acceptSample θ) :
    t.coll = { s.coll with
        accepted := (θ :: s.coll.accepted).take 8
        small := if (θ.natAbs : Int) < s.det then s.coll.small + 1 else 0
        within := if (θ / thetaNs).natAbs ≤ max 1 (s.fld Pg.array Reg.ARRAY_ALIGN_TOL) then s.coll.within + 1 else 0 }
      ∧ t.fld Pg.coll Reg.COLL_SYNC_COUNT = min (s.fld Pg.coll Reg.COLL_SYNC_COUNT + 1) (2 ^ Reg.COLL_SYNC_COUNT.width - 1)
      ∧ s.WritesIn t (· = keyOf Reg.COLL_SYNC_COUNT Pg.coll) := by
  subst ht
  refine ⟨rfl, ?_, .count (.of_regs (.refl s _) rfl) rfl⟩
  exact (State.fld_countBy_same _ _ _ _ (by decide)).trans rfl

theorem State.slew_effect {θ log step lim f a : Int} (hstep : step = θ * 2 ^ (-log).toNat) (hlim : lim = s.rateLimit)
    (hf : f = clampAbs lim (s.coll.f + step * 2 ^ (15 - s.fld Pg.coll Reg.COLL_SERVO_CFG_KI)))
    (ha : a = clampAbs lim (f + step * 2 ^ (15 - s.fld Pg.coll Reg.COLL_SERVO_CFG_KP))) (ht : t = s.slew θ log) :
    t.coll = { s.coll with f := f } ∧ t.ShowsRate a ∧ (a = lim ∨ a = -lim → t.fld Pg.coll Reg.COLL_EVENT_RANGE_LIMIT = 1) := by
  have hts : t = ((s.setColl { s.coll with f := f }).setRate a).raiseIf (decide (a = lim) || decide (a = -lim)) Pg.coll
      Reg.COLL_EVENT_RANGE_LIMIT := by
    rw [ht, State.slew]
    dsimp only
    rw [← hstep, ← hlim, ← hf, ← ha]
  refine ⟨?_, ?_, fun h => ?_⟩
  · rw [hts, State.raiseIf_coll]
    rfl
  · rw [hts]
    exact (State.setRate_shows _ a).of_fld fun g hg hlo =>
      State.fld_raiseCollIf_ne _ _ hlo (.inl fun e => by rw [e] at hg; revert hg; decide)
  · rw [hts]
    exact State.raiseIf_coll_same (by simpa using h) (by decide) rfl

/-- A state in which a sample has been accepted and steers: the servo's part, the rate in force, the count and the limit. -/
structure State.Steered (s t : State) (c : CollSt) (f a lim : Int) : Prop where
  coll : t.coll = { c with f := f }
  rate : t.ShowsRate a
  count : t.fld Pg.coll Reg.COLL_SYNC_COUNT = min (s.fld Pg.coll Reg.COLL_SYNC_COUNT + 1) (2 ^ Reg.COLL_SYNC_COUNT.width - 1)
  limit : a = lim ∨ a = -lim → t.fld Pg.coll Reg.COLL_EVENT_RANGE_LIMIT = 1
  touches : s.Touches t (.regs :: .ctlLatches :: collParts)
  pages : s.WritesIn t (onPages [Pg.coll, Pg.array])

/-- The sample that a state has received, in the terms of the state before: what the servo goes by. -/
structure State.Sampled (s y : State) (v θ : Int) : Prop where
  coll : y.coll = { s.coll with sync := some v, received := (θ :: s.coll.received).take 8 }
  writes : s.WritesIn y (· = keyOf Reg.COLL_OFFSET Pg.coll)
  touches : s.Touches y [.regs, .collSync, .collReceived]

theorem State.Sampled.fld {v θ : Int} (h : s.Sampled y v θ) {g : Fld} (hg : g.off ≠ 0x074) : y.fld Pg.coll g = s.fld Pg.coll g :=
  h.writes.fld (keyOf_coll_ne hg)

theorem State.Sampled.det {v θ : Int} (h : s.Sampled y v θ) : y.det = s.det := by
  rw [State.det, h.fld (by decide)]
  rfl

theorem State.Sampled.pages {v θ : Int} (h : s.Sampled y v θ) : s.WritesIn y (onPages [Pg.coll, Pg.array]) :=
  h.writes.mono fun _ ha => ha ▸ onPages_coll

theorem State.sampled_is (s : State) (v θ : Int) : s.Sampled (s.sampled v θ) v θ := by
  obtain ⟨h1, h2, h3⟩ := State.sampled_effect (s := s) (v := v) (θ := θ) rfl
  exact ⟨h1, h2, h3⟩

theorem State.Sampled.steered {v θ log step lim f a : Int} {c : CollSt} (h : s.Sampled y v θ) (hstep : step = θ * 2 ^ (-log).toNat)
    (hlim : lim = s.rateLimit) (hf : f = clampAbs lim (s.coll.f + step * 2 ^ (15 - s.fld Pg.coll Reg.COLL_SERVO_CFG_KI)))
    (ha : a = clampAbs lim (f + step * 2 ^ (15 - s.fld Pg.coll Reg.COLL_SERVO_CFG_KP)))
    (hc : c = { s.coll with
      sync := some v, received := (θ :: s.coll.received).take 8, accepted := (θ :: s.coll.accepted).take 8
      small := if (θ.natAbs : Int) < s.det then s.coll.small + 1 else 0
      within := if (θ / thetaNs).natAbs ≤ max 1 (s.fld Pg.array Reg.ARRAY_ALIGN_TOL) then s.coll.within + 1 else 0 })
    (ht : t = (y.acceptSample θ).slew θ log) : s.Steered t c f a lim ∧ t.servo = s.servo := by
  obtain ⟨w, hw⟩ : ∃ w, w = y.acceptSample θ := ⟨_, rfl⟩
  rw [← hw] at ht
  obtain ⟨hwc, hcount, hww⟩ := State.acceptSample_effect hw
  have htol : y.fld Pg.array Reg.ARRAY_ALIGN_TOL = s.fld Pg.array Reg.ARRAY_ALIGN_TOL := h.writes.fld (by decide)
  have hcoll : w.coll = c := by rw [hwc, h.coll, h.det, htol, hc]
  have hfld : ∀ g : Fld, g.off ≠ 0x074 → g.off ≠ 0x0C0 → w.fld Pg.coll g = s.fld Pg.coll g := fun g h1 h2 => by
    rw [hww.fld (keyOf_coll_ne h2), h.fld h1]
  have hwf : w.coll.f = s.coll.f := by rw [hcoll, hc]
  obtain ⟨htc, hrate, hlimit⟩ := State.slew_effect (s := w) (lim := lim) (f := f) (a := a) hstep
    (hlim.trans (State.rateLimit_congr (hfld _ (by decide) (by decide))).symm) (by rw [hwf, hfld _ (by decide) (by decide), hf])
    (by rw [hfld _ (by decide) (by decide), ha]) ht
  have htw : w.WritesIn t (· ∈ slewKeys) := ht ▸ State.writesIn_slew w θ log
  refine ⟨⟨by rw [htc, hcoll], hrate, ?_, hlimit, ?_, ?_⟩, ?_⟩
  · rw [htw.fld (by decide), hcount, h.fld (by decide)]
  · exact (h.touches.mono rfl).trans ((Touches.mono (hw ▸ State.acceptSample_touches ..) rfl).trans
      (Touches.mono (ht ▸ State.slew_touches ..) rfl))
  · exact (h.pages.trans (hww.mono fun x hx => hx ▸ onPages_coll)).trans (htw.mono fun x hx => onPages_mono (by decide) (mem_slewKeys_onPages hx))
  · rw [State.servo, htw.fld (by decide), hfld _ (by decide) (by decide), ← State.servo]

/-- A sample steers and the servo stays in its state. -/
theorem State.Steered.aligned {c : CollSt} {f a lim : Int} (h : s.Steered u c f a lim) (ht : t = u.showAligned) :
    s.Steered t c f a lim ∧ t.servo = u.servo := by
  have hf : ∀ g : Fld, g.off < 0x1000 → t.fld Pg.coll g = u.fld Pg.coll g := fun g hg => ht ▸ State.fld_showAligned _ hg
  refine ⟨⟨?_, h.rate.of_fld fun g hg _ => hf _ (by omega), ?_, fun hl => ?_, ?_, ?_⟩, hf _ (by decide)⟩
  · rw [ht, State.showAligned_coll, h.coll]
  · rw [hf _ (by decide), h.count]
  · rw [hf _ (by decide), h.limit hl]
  · exact h.touches.trans ((ht ▸ u.showAligned_touches : u.Touches t _).mono rfl)
  · refine h.pages.trans ((ht ▸ u.showAligned_writesIn : u.WritesIn t _).mono fun x hx => ?_)
    exact onPages_of_servoMay (.inr hx)

/-- A sample steers and the servo enters LOCKED. -/
theorem State.Steered.locked {c : CollSt} {f a lim : Int} (h : s.Steered u c f a lim) (ht : t = u.enter 2) :
    s.Steered t c f a lim ∧ t.servo = 2 ∧ (u.servo ≠ 2 → t.fld Pg.coll Reg.COLL_EVENT_LOCKED = 1) := by
  obtain ⟨hc, hservo, hlock, -, hstay, -, hrate, hw, htou⟩ := State.enter_effect (by decide) ht
  refine ⟨⟨?_, hrate (by decide) (by decide) a h.rate, ?_, fun hl => hstay _ rfl (by decide) rfl (h.limit hl), ?_, ?_⟩, hservo, hlock rfl⟩
  · rw [hc, h.coll]
    rfl
  · rw [hw.fld (not_servoMay (by decide) (by decide)), h.count]
  · exact h.touches.trans (htou.mono rfl)
  · exact h.pages.trans (hw.mono fun x hx => onPages_of_servoMay hx)

/-! ### The servo's answers to a sample -/

/-- A sample in ACQUIRE is so large that it steps the time. -/
def State.LargeIn (s : State) (θ : Int) : Prop :=
  8 ≤ s.coll.delays.length ∧ s.stepBarred = false
    ∧ ((max 1 (s.fld Pg.coll Reg.COLL_STEP_CFG_ACQ) : Nat) : Int) * 1000 * thetaNs < θ.natAbs

/-- A sample in LOCKED is so far off that it looks like a step. -/
def State.FarOff (s : State) (θ : Int) : Prop :=
  0 < s.det ∧ s.coll.accepted ≠ [] ∧ s.det * s.coll.accepted.length < ((θ * s.coll.accepted.length - s.coll.accepted.sum).natAbs : Int)

theorem State.stepBarred_congr (h : s.WritesIn u (onPages [Pg.coll, Pg.array])) : u.stepBarred = s.stepBarred := by
  rw [State.stepBarred, State.on, h.fld (by unfold onPages; decide), h.fld (by unfold onPages; decide)]
  rfl

theorem State.acquire_of_small {θ log : Int} (h : ¬ (y.acceptSample θ).LargeIn θ) :
    y.acquire θ log = if 8 ≤ (y.acceptSample θ).coll.delays.length ∧ 16 ≤ ((y.acceptSample θ).slew θ log).coll.small
      then ((y.acceptSample θ).slew θ log).enter 2 else ((y.acceptSample θ).slew θ log).showAligned := by
  unfold State.LargeIn at h
  unfold State.acquire
  dsimp only
  generalize y.acceptSample θ = w at h ⊢
  rw [if_neg fun e => h (by simp only [Bool.and_eq_true, decide_eq_true_eq, Bool.not_eq_true'] at e; exact ⟨e.1.1, e.2, e.1.2⟩)]
  simp only [Bool.and_eq_true, decide_eq_true_eq]

theorem State.acquire_of_large {θ log : Int} (h : (y.acceptSample θ).LargeIn θ) :
    y.acquire θ log = ((((y.acceptSample θ).stepTo (.ofTicks (((y.acceptSample θ).time.ticks : Int) - θ / 1680000).toNat)).setColl
      { ((y.acceptSample θ).stepTo (.ofTicks (((y.acceptSample θ).time.ticks : Int) - θ / 1680000).toNat)).coll with
        f := 0, small := 0 }).holdRate).showAligned := by
  obtain ⟨h1, h2, h3⟩ := h
  unfold State.acquire
  dsimp only
  generalize y.acceptSample θ = w at h1 h2 h3 ⊢
  rw [if_pos (by simp only [Bool.and_eq_true, decide_eq_true_eq, Bool.not_eq_true']; exact ⟨⟨h1, h3⟩, h2⟩)]

theorem State.track_of_near {θ log : Int} (h : ¬ y.FarOff θ) : y.track θ log = ((y.acceptSample θ).slew θ log).showAligned := by
  unfold State.FarOff at h
  unfold State.track
  dsimp only
  refine if_neg fun ⟨e1, e2, e3⟩ => h ⟨e1, fun he => ?_, e3⟩
  rw [he] at e2
  exact absurd e2 (by decide)

theorem State.track_of_far {θ log : Int} (h : y.FarOff θ) : y.track θ log = y.stepHold := by
  obtain ⟨h1, h2, h3⟩ := h
  unfold State.track
  exact if_pos ⟨h1, Int.natCast_pos.2 (List.length_pos_of_ne_nil h2), h3⟩

theorem State.Sampled.large {v θ : Int} (h : s.Sampled y v θ) : (y.acceptSample θ).LargeIn θ ↔ s.LargeIn θ := by
  obtain ⟨hc, -, hw⟩ := State.acceptSample_effect (s := y) (θ := θ) rfl
  have hacq : (y.acceptSample θ).fld Pg.coll Reg.COLL_STEP_CFG_ACQ = s.fld Pg.coll Reg.COLL_STEP_CFG_ACQ := by
    rw [hw.fld (by decide), h.fld (by decide)]
  have hbar : (y.acceptSample θ).stepBarred = s.stepBarred :=
    State.stepBarred_congr (h.pages.trans (hw.mono fun x hx => hx ▸ onPages_coll))
  have hdel : (y.acceptSample θ).coll.delays = s.coll.delays := by rw [hc, h.coll]
  unfold State.LargeIn
  rw [hacq, hbar, hdel]

theorem State.Sampled.farOff {v θ : Int} (h : s.Sampled y v θ) : y.FarOff θ ↔ s.FarOff θ := by
  unfold State.FarOff
  rw [h.det, h.coll]

theorem State.Sampled.servo {v θ : Int} (h : s.Sampled y v θ) : y.servo = s.servo := h.fld (by decide)

/-- A sample that steers, in each state of the servo. -/
theorem State.Sampled.steers {v θ log step lim f a : Int} {c : CollSt} (h : s.Sampled y v θ) (hstep : step = θ * 2 ^ (-log).toNat)
    (hlim : lim = s.rateLimit) (hf : f = clampAbs lim (s.coll.f + step * 2 ^ (15 - s.fld Pg.coll Reg.COLL_SERVO_CFG_KI)))
    (ha : a = clampAbs lim (f + step * 2 ^ (15 - s.fld Pg.coll Reg.COLL_SERVO_CFG_KP)))
    (hc : c = { s.coll with
      sync := some v, received := (θ :: s.coll.received).take 8, accepted := (θ :: s.coll.accepted).take 8
      small := if (θ.natAbs : Int) < s.det then s.coll.small + 1 else 0
      within := if (θ / thetaNs).natAbs ≤ max 1 (s.fld Pg.array Reg.ARRAY_ALIGN_TOL) then s.coll.within + 1 else 0 })
    (hcase : s.servo = 1 ∧ ¬ s.LargeIn θ ∧ t = y.acquire θ log ∨ s.servo = 2 ∧ ¬ s.FarOff θ ∧ t = y.track θ log
      ∨ s.servo = 3 ∧ t = ((y.acceptSample θ).slew θ log).enter 2) :
    s.Steered t c f a lim ∧ t.servo = (if s.servo = 1 ∧ (s.coll.delays.length < 8 ∨ c.small < 16) then 1 else 2)
      ∧ (t.servo = 2 → s.servo ≠ 2 → t.fld Pg.coll Reg.COLL_EVENT_LOCKED = 1) := by
  obtain ⟨w, hw⟩ : ∃ w, w = (y.acceptSample θ).slew θ log := ⟨_, rfl⟩
  obtain ⟨hst, hws⟩ := h.steered hstep hlim hf ha hc hw
  rcases hcase with ⟨h1, hl, ht⟩ | ⟨h2, hl, ht⟩ | ⟨h3, ht⟩
  · rw [State.acquire_of_small (fun e => hl (h.large.1 e)), ← hw] at ht
    have hdel : (y.acceptSample θ).coll.delays = s.coll.delays := by rw [(State.acceptSample_effect (s := y) rfl).1, h.coll]
    rw [hdel, show w.coll.small = c.small by rw [hst.coll]] at ht
    by_cases hfull : 8 ≤ s.coll.delays.length ∧ 16 ≤ c.small
    · rw [if_pos hfull] at ht
      obtain ⟨hst', hservo, hlock⟩ := hst.locked ht
      refine ⟨hst', ?_, fun _ hn => hlock (by rwa [hws])⟩
      rw [hservo, if_neg (by omega)]
    · rw [if_neg hfull] at ht
      obtain ⟨hst', hservo⟩ := hst.aligned ht
      have h1' : t.servo = 1 := by rw [hservo, hws, h1]
      refine ⟨hst', ?_, fun e _ => absurd (h1'.symm.trans e) (by decide)⟩
      rw [h1', if_pos ⟨h1, by omega⟩]
  · rw [State.track_of_near (fun e => hl (h.farOff.1 e)), ← hw] at ht
    obtain ⟨hst', hservo⟩ := hst.aligned ht
    refine ⟨hst', ?_, fun _ e => absurd h2 e⟩
    rw [hservo, hws, h2]
    rfl
  · rw [← hw] at ht
    obtain ⟨hst', hservo, hlock⟩ := hst.locked ht
    refine ⟨hst', ?_, fun _ hn => hlock (by rwa [hws])⟩
    rw [hservo, if_neg (by omega)]

/-- A large sample in ACQUIRE steps the time. -/
theorem State.Sampled.steps {v θ : Int} {c : CollSt} (h : s.Sampled y v θ) (h1 : s.servo = 1) (hl : s.LargeIn θ)
    (hc : c = { s.coll with
      sync := some v, received := (θ :: s.coll.received).take 8, accepted := (θ :: s.coll.accepted).take 8
      small := if (θ.natAbs : Int) < s.det then s.coll.small + 1 else 0
      within := if (θ / thetaNs).natAbs ≤ max 1 (s.fld Pg.array Reg.ARRAY_ALIGN_TOL) then s.coll.within + 1 else 0 }) {log : Int}
    (ht : t = y.acquire θ log) :
    t.time = .ofTicks ((s.time.ticks : Int) - θ / 1680000).toNat ∧ t.fld Pg.coll Reg.COLL_EVENT_TIME_STEPPED = 1
      ∧ t.coll = { c with f := 0, small := 0, sync := none, t3 := none } ∧ t.servo = 1
      ∧ t.fld Pg.coll Reg.COLL_INC_NS = 2 ∧ t.fld Pg.coll Reg.COLL_INC_FRAC = 0
      ∧ (∀ n, n < 4 → s.running (Pg.loupe n) = true → s.locks n = false → (t.engine n).realign = true)
      ∧ t = { s.regsOf t with time := t.time, coll := t.coll, loupe := t.loupe }
      ∧ s.KeepsPages t [Pg.coll, Pg.array] ∧ s.KeepsBytes t := by
  obtain ⟨w, hw⟩ : ∃ w, w = y.acceptSample θ := ⟨_, rfl⟩
  obtain ⟨τ, hτ⟩ : ∃ τ, τ = Time.ofTicks ((w.time.ticks : Int) - θ / 1680000).toNat := ⟨_, rfl⟩
  obtain ⟨x, hx⟩ : ∃ x, x = w.stepTo τ := ⟨_, rfl⟩
  obtain ⟨z, hz⟩ : ∃ z, z = x.setColl { x.coll with f := 0, small := 0 } := ⟨_, rfl⟩
  rw [State.acquire_of_large (h.large.2 hl), ← hw, ← hτ, ← hx, ← hz] at ht
  obtain ⟨hwc, -, hww⟩ := State.acceptSample_effect hw
  have hsw : s.Touches w [.regs, .collSync, .collReceived, .collAccepted, .collSmall, .collWithin] :=
    (h.touches.mono rfl).trans (Touches.mono (hw ▸ State.acceptSample_touches ..) rfl)
  have htol : y.fld Pg.array Reg.ARRAY_ALIGN_TOL = s.fld Pg.array Reg.ARRAY_ALIGN_TOL := h.writes.fld (by decide)
  have hcoll : w.coll = c := by rw [hwc, h.coll, h.det, htol, hc]
  obtain ⟨hxt, hxc, hxe, hxr⟩ : x.time = τ ∧ x.coll = { w.coll with sync := none, t3 := none }
      ∧ x.fld Pg.coll Reg.COLL_EVENT_TIME_STEPPED = 1
      ∧ ∀ n, n < 4 → w.running (Pg.loupe n) = true → w.locks n = false → (x.engine n).realign = true := hx ▸ w.stepTo_effect τ
  have hxw : w.WritesIn x (· = keyOf Reg.COLL_EVENT_TIME_STEPPED Pg.coll) := hx ▸ w.writesIn_stepTo τ
  have hzr : z.regs = x.regs := hz ▸ rfl
  have hzl : z.loupe = x.loupe := hz ▸ rfl
  have hzt : z.time = x.time := hz ▸ rfl
  have hzc : z.coll = { x.coll with f := 0, small := 0 } := hz ▸ rfl
  have hht : z.Touches t [.regs, .ctlLatches] := ht ▸ .after (State.showAligned_touches _) ((State.holdRate_touches z).mono rfl) rfl
  have htc : t.coll = z.coll := by rw [ht, State.showAligned_coll]; rfl
  have hhw : z.WritesIn z.holdRate (· ∈ [keyOf Reg.COLL_INC_NS Pg.coll, keyOf Reg.COLL_INC_FRAC Pg.coll, keyOf Reg.COLL_FREQ Pg.coll]) :=
    State.writesIn_setRate z z.coll.f
  have hrate : t.ShowsRate 0 := by
    have h0 : z.holdRate.ShowsRate z.coll.f := z.setRate_shows _
    rw [hzc] at h0
    exact h0.of_fld fun g hg _ => by rw [ht, State.fld_showAligned _ (by omega)]
  have hlow : ∀ g : Fld, g.off < 0x020 → t.fld Pg.coll g = x.fld Pg.coll g := fun g hg => by
    rw [ht, State.fld_showAligned _ (by omega), hhw.fld, State.fld_congr hzr]
    simp only [keyOf, List.mem_cons, List.not_mem_nil, or_false]
    omega
  have htou : s.Touches t ([.regs, .ctlLatches, .loupe, .time] ++ collParts) := by
    have hwx : w.Touches x _ := hx ▸ w.stepTo_touches τ
    have hxz : x.Touches z [.collF, .collSmall] := hz ▸ .of_mix rfl rfl
    exact (hsw.mono rfl).trans ((hwx.mono rfl).trans ((hxz.mono rfl).trans (hht.mono rfl)))
  refine ⟨?_, ?_, ?_, ?_, hrate.1.trans (by decide), hrate.2.trans (by decide), fun n hn hr hlk => ?_, htou.eq_mix, ?_, htou.keepsBytes rfl⟩
  · rw [hht.same .time (by decide), hzt, hxt, hτ, hsw.same .time (by decide)]
  · rw [hlow _ (by decide), hxe]
  · rw [htc, hzc, hxc, hcoll]
  · rw [State.servo, hlow _ (by decide), hxw.fld (by decide), hww.fld (by decide), h.fld (by decide)]
    exact h1
  · rw [State.engine, hht.same .loupe (by decide), hzl]
    refine hxr n hn ?_ ?_
    · rw [State.running_loupe _ hn] at hr ⊢
      rw [hsw.same .ctlMode (by decide), State.on, hww.fld, h.writes.fld]
      · exact hr
      · simp only [keyOf, Pg.loupe, Pg.coll]
        omega
      · simp only [keyOf, Pg.loupe, Pg.coll]
        omega
    · rw [State.locks, State.on, hww.fld, h.writes.fld]
      · exact hlk
      · simp only [keyOf, Pg.loupe, Pg.coll]
        omega
      · simp only [keyOf, Pg.loupe, Pg.coll]
        omega
  · refine (((h.pages.trans (hww.mono fun a ha => ha ▸ onPages_coll)).trans (hxw.mono fun a ha => ha ▸ onPages_coll)).trans ?_).keepsPages
    refine State.WritesIn.trans (t := z.holdRate) (.trans (.of_regs (.refl x _) hzr) (hhw.mono fun a ha => ?_))
      ((ht ▸ z.holdRate.showAligned_writesIn).mono fun a ha => onPages_of_servoMay (.inr ha))
    simp only [List.mem_cons, List.not_mem_nil, or_false] at ha
    rcases ha with rfl | rfl | rfl <;> exact onPages_coll

/-- A sample that looks like a step begins STEP_HOLD. -/
theorem State.Sampled.holds {v θ : Int} (h : s.Sampled y v θ) (ht : t = y.stepHold) :
    t.servo = 4 ∧ t.fld Pg.coll Reg.COLL_EVENT_STEP_DETECT = 1
      ∧ t.coll = { s.coll with
          sync := some v, received := (θ :: s.coll.received).take 8, stepSum := s.coll.accepted.sum, stepNum := s.coll.accepted.length }
      ∧ t.ShowsRate s.coll.f
      ∧ t = { s.regsOf t with coll := t.coll } ∧ s.KeepsPages t [Pg.coll, Pg.array] ∧ s.KeepsBytes t := by
  obtain ⟨a, ha⟩ : ∃ a, a = y.setColl { y.coll with stepSum := y.coll.accepted.sum, stepNum := y.coll.accepted.length } := ⟨_, rfl⟩
  obtain ⟨b, hb⟩ : ∃ b, b = a.raise Pg.coll Reg.COLL_EVENT_STEP_DETECT := ⟨_, rfl⟩
  have htb : t = b.enter 4 := by rw [ht, hb, ha]; rfl
  obtain ⟨hc, hservo, -, -, hstay, hrate, -, hw, htou⟩ := State.enter_effect (by decide) htb
  have hbc : b.coll = a.coll := by rw [hb, State.raise_coll]
  have hac : a.coll = { s.coll with
      sync := some v, received := (θ :: s.coll.received).take 8, stepSum := s.coll.accepted.sum, stepNum := s.coll.accepted.length } := by
    rw [ha]
    show { y.coll with stepSum := y.coll.accepted.sum, stepNum := y.coll.accepted.length } = _
    rw [h.coll]
  have hya : y.Touches a [.collStepSum, .collStepNum] := ha ▸ .of_mix rfl rfl
  have hab : a.Touches b [.regs, .ctlLatches] := hb ▸ State.raise_touches ..
  have hst : s.Touches t (.regs :: .ctlLatches :: collParts) :=
    (h.touches.mono rfl).trans ((hya.mono rfl).trans ((hab.mono rfl).trans (htou.mono rfl)))
  refine ⟨hservo, hstay _ rfl (by decide) rfl ?_, ?_, ?_, hst.eq_mix, ?_, hst.keepsBytes rfl⟩
  · rw [hb]
    exact State.fld_raise_same _ _ _ (by decide) rfl
  · rw [hc, hbc, hac]
    rfl
  · have hf : b.coll.f = s.coll.f := by rw [hbc, hac]
    exact hf ▸ hrate (.inr rfl)
  · have hyb : y.WritesIn b (onPages [Pg.coll, Pg.array]) := by
      rw [hb]
      exact .raise (.of_regs (.refl y _) (ha ▸ rfl)) onPages_coll
    exact ((h.pages.trans hyb).trans (hw.mono fun x hx => onPages_of_servoMay hx)).keepsPages

/-! ### The other messages -/

theorem State.ptpDiscard_effect (ht : t = s.ptpDiscard) :
    t.fld Pg.coll Reg.COLL_PTP_DISCARDS = min (s.fld Pg.coll Reg.COLL_PTP_DISCARDS + 1) (2 ^ Reg.COLL_PTP_DISCARDS.width - 1)
      ∧ s.Kept t [keyOf Reg.COLL_PTP_DISCARDS Pg.coll] := by
  subst ht
  exact ⟨State.fld_countBy_same _ _ _ _ (by decide),
    .of_writes (.count (.refl s _) (List.mem_singleton_self _)) ((State.count_touches ..).mono rfl)⟩

/-- A message of another domain, port or kind is discarded. -/
theorem State.ptp_discarded {c : Instr} (hon : s.ptpOn = true)
    (h : (∃ m, c = .ptpSync m ∧ (s.ptpTakes m.supported m.port m.domain = false ∨ m.logInterval < -7 ∨ -1 < m.logInterval))
      ∨ (∃ m, c = .ptpAnnounce m ∧ s.ptpTakes m.supported m.port m.domain = false)
      ∨ (∃ m, c = .ptpDelayResp m ∧ s.ptpTakes m.supported m.port m.domain = false)) : exec c s = .next s.ptpDiscard := by
  have hon' : ¬ s.ptpOn = false := by simp [hon]
  rcases h with ⟨m, rfl, h⟩ | ⟨m, rfl, h⟩ | ⟨m, rfl, h⟩
  · exact congrArg Host.Outcome.next ((if_neg hon').trans (if_pos h))
  · exact congrArg Host.Outcome.next ((if_neg hon').trans (if_pos h))
  · exact congrArg Host.Outcome.next ((if_neg hon').trans (if_pos h))

/-- The state with the masters heard. -/
def State.heard (s : State) (l : List PtpAnnounceMsg) : State := s.setColl { s.coll with masters := l }

theorem State.rxAnnounce_of_best {m b : PtpAnnounceMsg} {l : List PtpAnnounceMsg} (hon : s.ptpOn = true)
    (ht : s.ptpTakes m.supported m.port m.domain = true)
    (hl : l = m :: s.coll.masters.filter (fun x => decide (x.srcId ≠ m.srcId) || decide (x.srcPort ≠ m.srcPort))) (hb : bestMaster l = some b) :
    s.rxAnnounce m = if s.coll.sel = some (b.srcId, b.srcPort) then s.heard l else (s.heard l).select b := by
  unfold State.rxAnnounce
  rw [if_neg (by simp [hon]), if_neg (by simp [ht])]
  dsimp only
  rw [← hl]
  simp only [show (s.setColl { s.coll with masters := l }).coll.masters = l from rfl, hb]
  rfl

/-- The state with another master shown and selected, before the servo follows. -/
def State.selected (s : State) (b : PtpAnnounceMsg) (changed : Bool) : State :=
  let s1 := (s.setFld64 Pg.coll Reg.COLL_MASTER_ID_LO Reg.COLL_MASTER_ID_HI b.srcId).setFld Pg.coll Reg.COLL_MASTER_PORT b.srcPort
  (s1.setColl { s1.coll with sel := some (b.srcId, b.srcPort), sync := none, t3 := none }).raiseIf changed Pg.coll Reg.COLL_EVENT_MASTER_CHANGE

theorem State.selected_effect {b : PtpAnnounceMsg} {changed : Bool} (ht : t = s.selected b changed) :
    t.coll = { s.coll with sel := some (b.srcId, b.srcPort), sync := none, t3 := none }
      ∧ t.fld64 Pg.coll Reg.COLL_MASTER_ID_LO Reg.COLL_MASTER_ID_HI = b.srcId % 2 ^ 64
      ∧ t.fld Pg.coll Reg.COLL_MASTER_PORT = b.srcPort % 65536
      ∧ (changed = true → t.fld Pg.coll Reg.COLL_EVENT_MASTER_CHANGE = 1)
      ∧ s.WritesIn t (onPages [Pg.coll, Pg.array]) ∧ s.Touches t [.regs, .ctlLatches, .collSel, .collSync, .collT3] := by
  obtain ⟨a, ha⟩ : ∃ a, a = s.setFld64 Pg.coll Reg.COLL_MASTER_ID_LO Reg.COLL_MASTER_ID_HI b.srcId := ⟨_, rfl⟩
  obtain ⟨c, hc⟩ : ∃ c, c = a.setFld Pg.coll Reg.COLL_MASTER_PORT b.srcPort := ⟨_, rfl⟩
  obtain ⟨d, hd⟩ : ∃ d, d = c.setColl { c.coll with sel := some (b.srcId, b.srcPort), sync := none, t3 := none } := ⟨_, rfl⟩
  have htd : t = d.raiseIf changed Pg.coll Reg.COLL_EVENT_MASTER_CHANGE := by rw [ht, hd, hc, ha]; rfl
  have hf : ∀ g : Fld, g.lo + g.width ≤ 32 → g.off ≠ 0x010 → t.fld Pg.coll g = c.fld Pg.coll g := fun g h h' => by
    rw [htd, State.fld_raiseCollIf_ne _ _ h (.inl h'), hd]
    rfl
  refine ⟨?_, ?_, ?_, fun h => ?_, ?_, ?_⟩
  · rw [htd, State.raiseIf_coll, hd, hc, ha]
    rfl
  · have hca : ∀ g : Fld, g.lo + g.width ≤ 32 → g.off ≠ 0x084 → c.fld Pg.coll g = a.fld Pg.coll g := fun g h h' =>
      hc ▸ State.fld_setCollFld_ne _ _ h (.inl h')
    rw [State.fld64_congr (hf _ (by decide) (by decide)) (hf _ (by decide) (by decide)),
      State.fld64_congr (hca _ (by decide) (by decide)) (hca _ (by decide) (by decide)), ha]
    exact State.fld64_setFld64 s b.srcId (lo := Reg.COLL_MASTER_ID_LO) (hi := Reg.COLL_MASTER_ID_HI) (by decide) (by decide) rfl rfl (by decide)
  · rw [hf _ (by decide) (by decide), hc, State.fld_setFld_same _ _ _ _ (by decide)]
    rfl
  · rw [htd]
    exact State.raiseIf_coll_same h (by decide) rfl
  · have haw : s.WritesIn a (onPages [Pg.coll, Pg.array]) := ha ▸ .setFld64 (.refl s _) _ onPages_coll onPages_coll
    have hcw : a.WritesIn c (onPages [Pg.coll, Pg.array]) := hc ▸ .setFld (.refl a _) _ onPages_coll
    have hdw : s.WritesIn d (onPages [Pg.coll, Pg.array]) := .of_regs (haw.trans hcw) (hd ▸ rfl)
    rw [htd]
    exact .raiseIf hdw onPages_coll
  · have hsc : s.Touches c [.regs] := by
      rw [hc, ha]
      exact .after (State.setFld_touches ..) (State.setFld64_touches ..) rfl
    have hcd : c.Touches d [.collSel, .collSync, .collT3] := hd ▸ .of_mix rfl rfl
    exact (hsc.mono rfl).trans ((hcd.mono rfl).trans (Touches.mono (htd ▸ State.raiseIf_touches ..) rfl))

theorem State.select_effect {b : PtpAnnounceMsg} {l : List PtpAnnounceMsg} (ht : t = (s.heard l).select b) :
    t.coll = { s.coll with
          masters := l, sel := some (b.srcId, b.srcPort), sync := none, t3 := none
          small := if s.coll.sel.isSome then s.coll.small else 0 }
      ∧ t.servo = (if s.coll.sel.isSome then 3 else 1)
      ∧ t.fld64 Pg.coll Reg.COLL_MASTER_ID_LO Reg.COLL_MASTER_ID_HI = b.srcId % 2 ^ 64
      ∧ t.fld Pg.coll Reg.COLL_MASTER_PORT = b.srcPort % 65536
      ∧ (s.fld64 Pg.coll Reg.COLL_MASTER_ID_LO Reg.COLL_MASTER_ID_HI ≠ 0 →
          s.fld64 Pg.coll Reg.COLL_MASTER_ID_LO Reg.COLL_MASTER_ID_HI ≠ b.srcId % 2 ^ 64
            ∨ s.fld Pg.coll Reg.COLL_MASTER_PORT ≠ b.srcPort % 65536 →
          t.fld Pg.coll Reg.COLL_EVENT_MASTER_CHANGE = 1)
      ∧ t = { s.regsOf t with coll := t.coll } ∧ s.KeepsPages t [Pg.coll, Pg.array] ∧ s.KeepsBytes t := by
  obtain ⟨h, hh⟩ : ∃ h, h = s.heard l := ⟨_, rfl⟩
  have hhc : h.coll = { s.coll with masters := l } := hh ▸ rfl
  have hhr : h.regs = s.regs := hh ▸ rfl
  have hsh : s.Touches h [.collMasters] := hh ▸ .of_mix rfl rfl
  obtain ⟨ch, hch⟩ : ∃ ch, ch = (!decide (s.fld64 Pg.coll Reg.COLL_MASTER_ID_LO Reg.COLL_MASTER_ID_HI = 0) &&
    (!decide (s.fld64 Pg.coll Reg.COLL_MASTER_ID_LO Reg.COLL_MASTER_ID_HI = b.srcId % 2 ^ 64)
      || !decide (s.fld Pg.coll Reg.COLL_MASTER_PORT = b.srcPort % 65536))) := ⟨_, rfl⟩
  obtain ⟨v, hv⟩ : ∃ v, v = h.selected b ch := ⟨_, rfl⟩
  have htv : t = v.enter (if s.coll.sel.isSome then 3 else 1) := by
    rw [ht, hv, hh, hch]
    rfl
  obtain ⟨hvc, hid, hport, hchange, hvw, hvt⟩ := State.selected_effect hv
  obtain ⟨hc, hservo, -, -, hstay, -, -, hw, htou⟩ := State.enter_effect (by split <;> decide) htv
  have hst : s.Touches t (.regs :: .ctlLatches :: collParts) := (hsh.mono rfl).trans ((hvt.mono rfl).trans (htou.mono rfl))
  refine ⟨?_, hservo, ?_, ?_, fun h0 h1 => hstay _ rfl (by decide) rfl (hchange ?_), hst.eq_mix, ?_, hst.keepsBytes rfl⟩
  · rw [hc, hvc, hhc]
    cases s.coll.sel.isSome <;> rfl
  · rw [State.fld64_congr (hw.fld (not_servoMay (by decide) (by decide))) (hw.fld (not_servoMay (by decide) (by decide))), hid]
  · rw [hw.fld (not_servoMay (by decide) (by decide)), hport]
  · rw [hch]
    simpa [h0] using h1
  · exact (((State.WritesIn.of_regs (.refl s _) hhr).trans hvw).trans (hw.mono fun x hx => onPages_of_servoMay hx)).keepsPages

/-! ### Delay measurements and timeouts -/

/-- The frame counter of an Ethernet port that sends, and the transmit time latched. -/
theorem State.sendDelayReq_effect {m : PtpAnnounceMsg} {k : Nat} (hon : s.ptpOn = true)
    (hm : s.coll.masters.find? (fun x => decide (s.coll.sel = some (x.srcId, x.srcPort))) = some m)
    (hk : k = s.fld Pg.coll Reg.COLL_PTP_CFG_PORT) (ht : t = s.sendDelayReq) :
    t.out = .delayReq k (if s.on Pg.coll Reg.COLL_PTP_CFG_UNICAST then some (m.ip, m.mac) else none) :: s.out
      ∧ t.coll = { s.coll with t3 := some s.txStamp }
      ∧ t.fld64 (Pg.eth k) Reg.ETH_TX_FRAMES_LO Reg.ETH_TX_FRAMES_HI =
          (s.fld64 (Pg.eth k) Reg.ETH_TX_FRAMES_LO Reg.ETH_TX_FRAMES_HI + 1) % 2 ^ 64
      ∧ t = { s with regs := t.regs, out := t.out, coll := t.coll }
      ∧ s.KeepsRegs t [keyOf Reg.ETH_TX_FRAMES_LO (Pg.eth k), keyOf Reg.ETH_TX_FRAMES_HI (Pg.eth k)] ∧ s.KeepsBytes t := by
  obtain ⟨a, ha⟩ : ∃ a, a = s.setFld64 (Pg.eth k) Reg.ETH_TX_FRAMES_LO Reg.ETH_TX_FRAMES_HI
    (s.fld64 (Pg.eth k) Reg.ETH_TX_FRAMES_LO Reg.ETH_TX_FRAMES_HI + 1) := ⟨_, rfl⟩
  have hta : t = (a.setColl { a.coll with t3 := some s.txStamp }).emit
      (.delayReq k (if s.on Pg.coll Reg.COLL_PTP_CFG_UNICAST then some (m.ip, m.mac) else none)) := by
    rw [ht, ha, hk]
    unfold State.sendDelayReq
    rw [if_neg (by simp [hon])]
    simp only [hm]
  have hsa : s.Touches a [.regs] := ha ▸ State.setFld64_touches ..
  have haw : s.WritesIn a (· ∈ [keyOf Reg.ETH_TX_FRAMES_LO (Pg.eth k), keyOf Reg.ETH_TX_FRAMES_HI (Pg.eth k)]) :=
    ha ▸ .setFld64 (.refl s _) _ (by simp) (by simp)
  have hac : a.coll = s.coll := ha ▸ rfl
  have hat : a.Touches t [.out, .collT3] := hta ▸ .after (State.emit_touches ..) (.of_mix rfl rfl) rfl
  have htr : t.regs = a.regs := hat.same .regs (by decide)
  have hst : s.Touches t [.regs, .out, .collT3] := (hsa.mono rfl).trans (hat.mono rfl)
  refine ⟨?_, ?_, ?_, (hst.mono (l' := .regs :: .out :: collParts) rfl).eq_mix, State.WritesIn.keepsRegs (.of_regs haw htr), hst.keepsBytes rfl⟩
  · rw [hta, ← hsa.same .out (by decide)]
    rfl
  · rw [hta, State.emit_coll, ← hac]
    rfl
  · rw [State.fld64_congr (State.fld_congr htr ..) (State.fld_congr htr ..), ha]
    exact s.fld64_setFld64 _ (by decide) (by decide) rfl rfl (by unfold keyOf; simp only; omega)

theorem unsigned_lt_width (n : Nat) (v : Int) : unsigned n v < 2 ^ n := by
  have h : (0 : Int) < 2 ^ n := by positivity
  have h1 := Int.emod_nonneg v h.ne'
  have h2 := Int.emod_lt_of_pos v h
  have h3 : (((2 ^ n : Nat) : Int)) = (2 : Int) ^ n := by norm_cast
  unfold unsigned
  omega

theorem State.rxDelayResp_effect {m : PtpDelayRespMsg} {v t3 : Int} {d : List Int} (hon : s.ptpOn = true)
    (htk : s.ptpTakes m.supported m.port m.domain = true) (hsel : s.coll.sel = some (m.srcId, m.srcPort)) (hs : s.servo = 1 ∨ s.servo = 2)
    (hv : s.coll.sync = some v) (h3 : s.coll.t3 = some t3)
    (hd : d = ((v + (nsUnits m.sec m.ns - t3 - corrUnits m.corr)) :: s.coll.delays).take 8) (ht : t = s.rxDelayResp m) :
    t.coll = { s.coll with delays := d, t3 := none }
      ∧ t.fld Pg.coll Reg.COLL_MEAN_DELAY = unsigned 32 (d.sum / (2 * d.length) / thetaNs)
      ∧ t = { s with regs := t.regs, coll := t.coll } ∧ s.KeepsRegs t [keyOf Reg.COLL_MEAN_DELAY Pg.coll] ∧ s.KeepsBytes t := by
  obtain ⟨a, ha⟩ : ∃ a, a = s.setColl { s.coll with delays := d, t3 := none } := ⟨_, rfl⟩
  have hac : a.coll = { s.coll with delays := d, t3 := none } := ha ▸ rfl
  have hdelay : a.coll.delay = d.sum / (2 * d.length) := by
    have hne : d.isEmpty = false := by rw [hd]; rfl
    rw [CollSt.delay, hac]
    simp only [hne, Bool.false_eq_true, if_false]
  have hta : t = a.setFld Pg.coll Reg.COLL_MEAN_DELAY (unsigned 32 (d.sum / (2 * d.length) / thetaNs)) := by
    rw [ht, ← hdelay, ha, hd]
    unfold State.rxDelayResp
    rw [if_neg (by simp [hon]), if_neg (by simp [htk]), if_neg (not_not.2 hsel), if_neg (by omega)]
    simp only [hv, h3]
  have hsa : s.Touches a [.collDelays, .collT3] := ha ▸ .of_mix rfl rfl
  have hst : s.Touches t [.regs, .collDelays, .collT3] := (hsa.mono rfl).trans (Touches.mono (hta ▸ State.setFld_touches ..) rfl)
  refine ⟨?_, ?_, (hst.mono (l' := .regs :: collParts) rfl).eq_mix, ?_, hst.keepsBytes rfl⟩
  · rw [hta, ← hac]
    rfl
  · rw [hta]
    exact State.fld_setFld_of_width _ _ _ _ (by decide) (unsigned_lt_width 32 _)
  · refine State.WritesIn.keepsReg ?_
    rw [hta]
    exact .setFld (.of_regs (.refl s _) (ha ▸ rfl)) _ rfl

theorem State.rxDelayResp_of_idle {m : PtpDelayRespMsg} (hon : s.ptpOn = true) (htk : s.ptpTakes m.supported m.port m.domain = true)
    (hsel : s.coll.sel = some (m.srcId, m.srcPort)) (h1 : s.servo ≠ 1) (h2 : s.servo ≠ 2) :
    s.rxDelayResp m = { s with coll := { s.coll with t3 := none } } := by
  unfold State.rxDelayResp
  rw [if_neg (by simp [hon]), if_neg (by simp [htk]), if_neg (not_not.2 hsel), if_pos ⟨h1, h2⟩]
  rfl

theorem State.syncLost_effect (hon : s.ptpOn = true) (hsel : s.coll.sel.isSome = true) (ht : t = s.syncLost) :
    t.coll = { s.coll with sel := none, masters := [] } ∧ t.servo = 3
      ∧ (s.servo ≠ 3 → t.fld Pg.coll Reg.COLL_EVENT_HOLDOVER = 1) ∧ t.ShowsRate s.coll.f
      ∧ t = { s.regsOf t with coll := t.coll } ∧ s.KeepsPages t [Pg.coll, Pg.array] ∧ s.KeepsBytes t := by
  obtain ⟨a, ha⟩ : ∃ a, a = s.setColl { s.coll with sel := none, masters := [] } := ⟨_, rfl⟩
  have hta : t = a.enter 3 := by
    rw [ht, ha, State.syncLost, hon, hsel]
    rfl
  have hac : a.coll = { s.coll with sel := none, masters := [] } := ha ▸ rfl
  have hregs : a.regs = s.regs := ha ▸ rfl
  have has : a.servo = s.servo := State.fld_congr hregs ..
  have hsa : s.Touches a [.collSel, .collMasters] := ha ▸ .of_mix rfl rfl
  obtain ⟨hc, hservo, -, hhold, -, hrate, -, hw, htou⟩ := State.enter_effect (by decide) hta
  have hst : s.Touches t (.regs :: .ctlLatches :: collParts) := (hsa.mono rfl).trans (htou.mono rfl)
  refine ⟨?_, hservo, fun h => hhold rfl (by rwa [has]), ?_, hst.eq_mix, ?_, hst.keepsBytes rfl⟩
  · rw [hc, hac]
    rfl
  · have hf : a.coll.f = s.coll.f := by rw [hac]
    exact hf ▸ hrate (.inl rfl)
  · exact ((State.WritesIn.of_regs (.refl s _) hregs).trans (hw.mono fun x hx => onPages_of_servoMay hx)).keepsPages

/-- The step window ends in a state of the servo, with its event. -/
theorem State.window_ends {v : Nat} {e : Fld} (hv : v = 1 ∨ v = 2) (he : e.width = 1) (hlo : e.lo < 32) (hoff : e.off = 0x010)
    (ht : t = (s.raise Pg.coll e).enter v) :
    t.servo = v ∧ t.fld Pg.coll e = 1 ∧ t.coll = (if v = 1 then { s.coll with small := 0 } else s.coll)
      ∧ t = { s.regsOf t with coll := t.coll } ∧ s.KeepsPages t [Pg.coll, Pg.array] ∧ s.KeepsBytes t := by
  obtain ⟨a, ha⟩ : ∃ a, a = s.raise Pg.coll e := ⟨_, rfl⟩
  rw [← ha] at ht
  have hac : a.coll = s.coll := ha ▸ State.raise_coll ..
  have hsa : s.Touches a [.regs, .ctlLatches] := ha ▸ State.raise_touches ..
  obtain ⟨hc, hservo, -, -, hstay, -, -, hw, htou⟩ := State.enter_effect (by omega) ht
  have hst : s.Touches t (.regs :: .ctlLatches :: collParts) := (hsa.mono rfl).trans (htou.mono rfl)
  refine ⟨hservo, hstay e he hlo hoff ?_, ?_, hst.eq_mix, ?_, hst.keepsBytes rfl⟩
  · rw [ha]
    exact State.fld_raise_same _ _ _ (by omega) he
  · rw [hc, hac]
  · have haw : s.WritesIn a (onPages [Pg.coll, Pg.array]) := ha ▸ .raise (.refl s _) (onPages_coll (by omega))
    exact (haw.trans (hw.mono fun x hx => onPages_of_servoMay hx)).keepsPages

/-- Settles O54: a sample is received and shown, and the state of the servo says whether it steers, steps the time or begins STEP_HOLD. -/
theorem ptpServo : Obligations.PtpServo := by
  unfold Obligations.PtpServo
  refine ⟨fun s m v θ step lim f a c far large hon htk hlo hhi hsel hv hθ hstep hlim hf ha hc hfar hlarge => ?_,
    fun s m hsel htk hlo hhi => ?_, fun s c hon h => ?_, fun s m b l hon htk hl hb => ?_, fun s m k hon hm hk => ?_,
    fun s m v t3 d hon htk hsel hs hv h3 hd => ?_, fun s m hon htk hsel h1 h2 => congrArg Host.Outcome.next (State.rxDelayResp_of_idle hon htk hsel h1 h2),
    fun s hon hsel => ?_, fun s n hs hn => ?_⟩
  · obtain ⟨t, ht⟩ : ∃ t, t = s.rxSync m := ⟨_, rfl⟩
    obtain ⟨y, hy⟩ : ∃ y, y = s.sampled v θ := ⟨_, rfl⟩
    have hsy : s.Sampled y v θ := hy ▸ s.sampled_is v θ
    have hex : exec (.ptpSync m) s = .next t := congrArg Host.Outcome.next ht.symm
    rw [State.rxSync_of_taken hon htk hlo hhi hsel hv hθ] at ht
    have hfar' : far = true ↔ s.FarOff θ := by rw [hfar, decide_eq_true_iff]; rfl
    have hlarge' : large = true ↔ s.LargeIn θ := by rw [hlarge, decide_eq_true_iff]; rfl
    refine ⟨fun hcase => ?_, fun h1 hl => ?_, fun hcase => ?_, fun hcase => ?_⟩
    · have hend : s.Steered t c f a lim ∧ t.servo = (if s.servo = 1 ∧ (s.coll.delays.length < 8 ∨ c.small < 16) then 1 else 2)
          ∧ (t.servo = 2 → s.servo ≠ 2 → t.fld Pg.coll Reg.COLL_EVENT_LOCKED = 1) := by
        refine hsy.steers hstep hlim hf ha hc ?_
        rcases hcase with ⟨h1, hl⟩ | ⟨h2, hl⟩ | ⟨h3, hl⟩
        · exact .inl ⟨h1, fun e => Bool.false_ne_true (hl.symm.trans (hlarge'.2 e)), ht.trans (State.sample_of_acquire hy (hsy.servo.trans h1))⟩
        · exact .inr (.inl ⟨h2, fun e => Bool.false_ne_true (hl.symm.trans (hfar'.2 e)), ht.trans (State.sample_of_track hy (hsy.servo.trans h2))⟩)
        · refine .inr (.inr ⟨h3, ht.trans ((State.sample_of_holdover hy (hsy.servo.trans h3)).trans (if_pos ?_))⟩)
          rwa [hsy.det]
      obtain ⟨hst, hservo, hlock⟩ := hend
      exact ⟨t, hex, hst.coll, hst.rate.1, hst.rate.2, hservo, hlock, hst.count, hst.limit, hst.touches.eq_mix, hst.pages.keepsPages,
        hst.touches.keepsBytes rfl⟩
    · exact ⟨t, hex, hsy.steps h1 (hlarge'.1 hl) hc (ht.trans (State.sample_of_acquire hy (hsy.servo.trans h1)))⟩
    · have hhold : t = y.stepHold := by
        rcases hcase with ⟨h2, hl⟩ | ⟨h3, hd, hl⟩
        · exact (ht.trans (State.sample_of_track hy (hsy.servo.trans h2))).trans (State.track_of_far (hsy.farOff.2 (hfar'.1 hl)))
        · refine ht.trans ((State.sample_of_holdover hy (hsy.servo.trans h3)).trans (if_neg ?_))
          rw [hsy.det]
          omega
      obtain ⟨h1, h2, h3, h4, h5⟩ := hsy.holds hhold
      exact ⟨t, hex, h1, h2, by rw [h3, hc], h4.1, h4.2, h5⟩
    · have hty : t = y := ht.trans (State.sample_of_other hy (by rw [hsy.servo]; exact hcase))
      subst hty
      exact ⟨t, hex, by rw [hsy.coll, hc], (hsy.touches.mono (l' := .regs :: collParts) rfl).eq_mix, hsy.writes.keepsReg, hsy.touches.keepsBytes rfl⟩
  · refine congrArg Host.Outcome.next ?_
    have hlog : ¬ (s.ptpTakes m.supported m.port m.domain = false ∨ m.logInterval < -7 ∨ -1 < m.logInterval) := by
      rw [htk]
      simp only [Bool.true_eq_false, false_or]
      omega
    by_cases hon : s.ptpOn = false
    · exact if_pos hon
    · exact (if_neg hon).trans ((if_neg hlog).trans (if_pos hsel))
  · obtain ⟨t, ht⟩ : ∃ t, t = s.ptpDiscard := ⟨_, rfl⟩
    exact ⟨t, (State.ptp_discarded hon h).trans (congrArg Host.Outcome.next ht.symm), State.ptpDiscard_effect ht⟩
  · have hr := State.rxAnnounce_of_best hon htk hl hb
    refine ⟨fun hsel => congrArg Host.Outcome.next (hr.trans (if_pos hsel)), fun hsel => ?_⟩
    exact ⟨_, rfl, State.select_effect (hr.trans (if_neg hsel))⟩
  · exact ⟨_, rfl, State.sendDelayReq_effect hon hm hk rfl⟩
  · exact ⟨_, rfl, State.rxDelayResp_effect hon htk hsel hs hv h3 hd rfl⟩
  · obtain ⟨h1, h2, h3, h4, h5⟩ := State.syncLost_effect hon hsel rfl
    exact ⟨_, rfl, h1, h2, h3, h4.1, h4.2, h5⟩
  · obtain ⟨t, ht⟩ : ∃ t, t = s.windowEnd := ⟨_, rfl⟩
    have hex : exec .stepWindowExpiry s = .next t := congrArg Host.Outcome.next ht.symm
    rw [State.windowEnd, if_neg (not_not.2 hs)] at ht
    dsimp only at ht
    rw [← hn] at ht
    by_cases h : ((twiceMedian s.coll.received * n - 2 * s.coll.stepSum).natAbs : Int) ≤ 2 * n * s.det
    · rw [if_pos h] at ht
      obtain ⟨h1, h2, h3, h4⟩ := State.window_ends (.inr rfl) rfl (by decide) rfl ht
      exact ⟨t, hex, fun _ => ⟨h1, h2, h3⟩, fun h' => absurd h (by omega), h4⟩
    · rw [if_neg h] at ht
      obtain ⟨h1, h2, h3, h4⟩ := State.window_ends (.inl rfl) rfl (by decide) rfl ht
      exact ⟨t, hex, fun h' => absurd h' h, fun _ => ⟨h1, h2, h3⟩, h4⟩

end Sys2Proof.Machine
end

section
/-! PROOFS. ST 2110 flows: how a flow is enabled and ends, and the packets that it sends (R364 to R366, R374). -/

set_option Elab.async false

namespace Sys2Proof.Machine

variable {s t u : State} {f : Nat}

/-! ### The registers of a flow -/

theorem State.flow_putFlow (s : State) (f : Nat) (x : FlowSt) : (s.putFlow f x).flow f = x := Tbl.get_put_same ..

theorem State.flow_putFlow_ne (s : State) {f g : Nat} (x : FlowSt) (h : g ≠ f) : (s.putFlow f x).flow g = s.flow g :=
  Tbl.get_put_ne _ _ _ _ h

/-- FLOW_CFG of a flow is no half of a wide register. -/
theorem isLo_flowCfg (hf : f < 16) : isLo Pg.pkt2110 (0x040 + 0x20 * f) = false ∧ isLo Pg.pkt2110 (0x040 + 0x20 * f - 4) = false := by
  interval_cases f <;> decide

theorem plainStore_flowCfg (hf : f < 16) (r : Req) (s : State) (old new : Word) :
    plainStore r Pg.pkt2110 (0x040 + 0x20 * f) s old new = s.wr (Pg.pkt2110 * 0x1000 + (0x040 + 0x20 * f)) new := by
  obtain ⟨h, h'⟩ := isLo_flowCfg hf
  have hbank : bankPage r Pg.pkt2110 (0x040 + 0x20 * f) = Pg.pkt2110 := rfl
  rw [plainStore, hbank, State.store]
  simp only [h, h', Bool.false_eq_true, if_false, and_false]

/-- EN of a flow is the lowest bit of its FLOW_CFG. -/
theorem State.getLsbD_flowCfg (s : State) (f : Nat) :
    (s.rd (Pg.pkt2110 * 0x1000 + (0x040 + 0x20 * f))).getLsbD 0 = decide (s.flowFld f Reg.PKT2110_FLOW_CFG_EN = 1) := by
  have h := Word.testBit_bits (s.rd (Pg.pkt2110 * 0x1000 + (0x040 + 0x20 * f))) 0 1 0
  have hlt : s.flowFld f Reg.PKT2110_FLOW_CFG_EN < 2 := s.fld_lt Pg.pkt2110 (Reg.PKT2110_FLOW_CFG_EN f)
  obtain ⟨e, he⟩ : ∃ e, e = s.flowFld f Reg.PKT2110_FLOW_CFG_EN := ⟨_, rfl⟩
  have hbits : Word.bits (s.rd (Pg.pkt2110 * 0x1000 + (0x040 + 0x20 * f))) 0 1 = e := he.symm
  rw [hbits] at h
  rw [← he] at hlt ⊢
  simp only [Nat.zero_lt_one, decide_true, Bool.true_and] at h
  rw [← h]
  interval_cases e <;> decide

theorem keyOf_flowCfg_ne (hf : f < 16) {p : Nat} (hp : p ≠ Pg.pkt2110) {g : Fld} (hg : g.off < 0x1000) :
    keyOf g p ≠ Pg.pkt2110 * 0x1000 + (0x040 + 0x20 * f) := by
  unfold keyOf
  omega

/-! ### FLOW_ENABLE -/

/-- What a write of FLOW_CFG that passes the checks does, by the word before it and the word after. -/
theorem writeFlowCfg_of_accepts (hf : f < 16) {r : Req} {v : Word} (ha : s.accepts r Pg.pkt2110 (0x040 + 0x20 * f) v = true)
    (hu : u = s.wr (Pg.pkt2110 * 0x1000 + (0x040 + 0x20 * f)) (s.written r Pg.pkt2110 (0x040 + 0x20 * f) v)) :
    writeFlowCfg r f v s =
      if s.flowFld f Reg.PKT2110_FLOW_CFG_EN = 1 ∧ s.rd (Pg.pkt2110 * 0x1000 + (0x040 + 0x20 * f)) ||| 1
          ≠ u.rd (Pg.pkt2110 * 0x1000 + (0x040 + 0x20 * f)) ||| 1 then s.reject Pg.pkt2110
      else if u.flowFld f Reg.PKT2110_FLOW_CFG_EN = 1 ∧ u.flowOn f = true
          ∧ (u.flowOver f = true ∨ s.flowFld f Reg.PKT2110_FLOW_CFG_EN ≠ 1 ∧ u.flowBad f = true) then
        (s.raise Pg.pkt2110 Reg.PKT2110_EVENT_FLOW_ERR).reject Pg.pkt2110
      else if u.flowFld f Reg.PKT2110_FLOW_CFG_EN = 1 ∧ s.flowFld f Reg.PKT2110_FLOW_CFG_EN ≠ 1 then u.flowStart f
      else if s.flowFld f Reg.PKT2110_FLOW_CFG_EN = 1 ∧ u.flowFld f Reg.PKT2110_FLOW_CFG_EN ≠ 1 then
        ((s.flowDrop f).putFlow f {}).wr (Pg.pkt2110 * 0x1000 + (0x040 + 0x20 * f)) (s.written r Pg.pkt2110 (0x040 + 0x20 * f) v)
      else u := by
  have hnew : u.rd (Pg.pkt2110 * 0x1000 + (0x040 + 0x20 * f)) = s.written r Pg.pkt2110 (0x040 + 0x20 * f) v := by
    rw [hu, State.rd_wr_same]
  have hon := u.getLsbD_flowCfg f
  have hwas := s.getLsbD_flowCfg f
  have hbank : bankPage r Pg.pkt2110 (0x040 + 0x20 * f) = Pg.pkt2110 := rfl
  rw [writeFlowCfg, withWrite_of_accepts _ ha]
  simp only [plainStore_flowCfg hf, hbank]
  rw [← hu, ← hnew]
  simp only [hon, hwas, Bool.and_eq_true, Bool.or_eq_true, Bool.not_eq_true', decide_eq_true_eq, decide_eq_false_iff_not, and_assoc]

/-- A write of FLOW_CFG leaves what a flow reads of the other pages, and the engines. -/
theorem State.fld_flowCfg (hf : f < 16) {w : Word} (hu : u = s.wr (Pg.pkt2110 * 0x1000 + (0x040 + 0x20 * f)) w) {p : Nat}
    (hp : p ≠ Pg.pkt2110) {g : Fld} (hg : g.off < 0x1000) : u.fld p g = s.fld p g :=
  hu ▸ State.fld_wr_ne s w (keyOf_flowCfg_ne hf hp hg)

theorem State.flowStart_effect (hf : f < 16) {w : Word} (hu : u = s.wr (Pg.pkt2110 * 0x1000 + (0x040 + 0x20 * f)) w)
    (ht : t = u.flowStart f) :
    t.flow f = {
        index := if u.flowType f = 1 then ceilDiv s.time.ticks (u.packetTicks f) else 0, seq := (t.flow f).seq
        line := if u.flowType f = 0 ∧ 8 ≤ u.flowSrc f then
            (s.fld64 (Pg.loupe (u.flowSrc f - 8)) Reg.LOUPE_FRAMES_LO Reg.LOUPE_FRAMES_HI
              + (if (s.engine (u.flowSrc f - 8)).begun then 1 else 0)) * fmtH (s.actv (Pg.loupe (u.flowSrc f - 8)) Reg.LOUPE_FMT_FMT)
          else 0 }
      ∧ (t.flow f).seq < 65536 ∧ (∀ g, g ≠ f → t.flow g = s.flow g) ∧ t = { u with flows := t.flows, seed := s.seed + 1 } := by
  have hsrc : u.flowSrc f < 16 := u.fld_lt Pg.pkt2110 (Reg.PKT2110_FLOW_CFG_SRC f)
  have hloupe : Pg.loupe (u.flowSrc f - 8) ≠ Pg.pkt2110 := by
    simp only [Pg.loupe, Pg.pkt2110]
    omega
  have hfld {g : Fld} (hg : g.off < 0x1000) := State.fld_flowCfg hf hu hloupe hg
  have hframes : u.fld64 (Pg.loupe (u.flowSrc f - 8)) Reg.LOUPE_FRAMES_LO Reg.LOUPE_FRAMES_HI
      = s.fld64 (Pg.loupe (u.flowSrc f - 8)) Reg.LOUPE_FRAMES_LO Reg.LOUPE_FRAMES_HI := State.fld64_congr (hfld (by decide)) (hfld (by decide))
  have hfmt : u.actv (Pg.loupe (u.flowSrc f - 8)) Reg.LOUPE_FMT_FMT = s.actv (Pg.loupe (u.flowSrc f - 8)) Reg.LOUPE_FMT_FMT :=
    hfld (by decide)
  have heng : u.engine (u.flowSrc f - 8) = s.engine (u.flowSrc f - 8) := by rw [hu]; rfl
  have htime : u.time = s.time := by rw [hu]; rfl
  have hseed : u.seed = s.seed := by rw [hu]; rfl
  have hflow : t.flow f = {
      index := if u.flowType f = 1 then ceilDiv s.time.ticks (u.packetTicks f) else 0, seq := Config.free 79 s.seed % 65536
      line := if u.flowType f = 0 ∧ 8 ≤ u.flowSrc f then
          (s.fld64 (Pg.loupe (u.flowSrc f - 8)) Reg.LOUPE_FRAMES_LO Reg.LOUPE_FRAMES_HI
            + (if (s.engine (u.flowSrc f - 8)).begun then 1 else 0)) * fmtH (s.actv (Pg.loupe (u.flowSrc f - 8)) Reg.LOUPE_FMT_FMT)
        else 0 } := by
    rw [ht, State.flowStart]
    exact (State.flow_putFlow ..).trans (by rw [hframes, hfmt, heng, htime, hseed])
  refine ⟨?_, ?_, fun g hg => ?_, ?_⟩
  · rw [hflow]
  · rw [hflow]
    exact Nat.mod_lt _ (by decide)
  · rw [ht, State.flowStart]
    exact (State.flow_putFlow_ne _ _ hg).trans (by rw [hu]; rfl)
  · rw [ht, ← hseed]
    rfl

theorem State.flowErr_effect (s : State) {t : State} (ht : t = (s.raise Pg.pkt2110 Reg.PKT2110_EVENT_FLOW_ERR).reject Pg.pkt2110) :
    t.fld Pg.pkt2110 Reg.PKT2110_EVENT_FLOW_ERR = 1 ∧ t.fld Pg.pkt2110 Reg.COMMON_EVENT_STATE_REJECT = 1
      ∧ s.Kept t [keyOf Reg.PKT2110_EVENT_FLOW_ERR Pg.pkt2110] := by
  subst ht
  refine ⟨?_, (State.rejected_reject _ _).1, .of_writes ?_ ?_⟩
  · exact State.fld_raise_of_one rfl rfl (State.fld_raise_same _ _ _ (by decide) rfl)
  · exact .reject (.raise (.refl s _) (by decide)) (by decide)
  · exact (State.raise_touches ..).trans (State.reject_touches ..)

theorem State.flowEnd_effect {w : Word} (hu : u = s.wr (Pg.pkt2110 * 0x1000 + (0x040 + 0x20 * f)) w)
    (ht : t = ((s.flowDrop f).putFlow f {}).wr (Pg.pkt2110 * 0x1000 + (0x040 + 0x20 * f)) w) :
    t.flow f = {} ∧ (∀ g, g ≠ f → t.flow g = s.flow g)
      ∧ (∀ g, (s.flow f).frame = some g → (Reader.hold f, s.flowSrc f, g) ∉ t.split.holds)
      ∧ t = { u with flows := t.flows, split := { s.split with holds := t.split.holds } } := by
  have hdrop := s.flowDrop_touches f
  have hflow (g : Nat) : t.flow g = ((s.flowDrop f).putFlow f {}).flow g := by rw [ht]; rfl
  refine ⟨(hflow f).trans (State.flow_putFlow ..), fun g hg => ?_, fun g hg => ?_, ?_⟩
  · refine (hflow g).trans ((State.flow_putFlow_ne _ _ hg).trans ?_)
    rw [State.flowDrop]
    refine (State.flow_putFlow_ne _ _ hg).trans ?_
    split <;> rfl
  · rw [ht]
    intro hm
    have hm' : (Reader.hold f, s.flowSrc f, g) ∈ (s.flowDrop f).split.holds := hm
    rw [State.flowDrop] at hm'
    simp only [hg, State.putFlow, State.freeBuf, List.mem_filter, ne_eq, not_true_eq_false, decide_false, Bool.false_eq_true, and_false] at hm'
  · obtain ⟨d, hd⟩ : ∃ d, d = s.flowDrop f := ⟨_, rfl⟩
    rw [← hd] at ht hdrop
    have hmix := hdrop.eq_mix
    rw [ht, hu]
    rw [hmix]
    rfl

/-! ### A packet leaves -/

theorem pg_eth_flow (s : State) (f : Nat) : Pg.eth (s.flowPort f) % 1024 = Pg.eth (s.flowPort f) := by
  have h : s.flowPort f < 2 := s.fld_lt Pg.pkt2110 (Reg.PKT2110_FLOW_CFG_PORT f)
  simp only [Pg.eth]
  omega

theorem onPages_eth (s : State) (f : Nat) {g : Fld} (hg : g.off < 0x1000) :
    onPages [Pg.eth (s.flowPort f)] (keyOf g (Pg.eth (s.flowPort f))) := onPages_keyOf hg (by simp [pg_eth_flow])

/-- What a packet that a flow sends changes. -/
theorem State.sendPacket_effect {x : FlowSt} {stamp line off : Nat} {marker : Bool} {b : List Byte} {fill : Bool}
    (ht : t = s.sendPacket f x stamp marker line off b fill) :
    t.out = .rtp f x.seq stamp marker line off b (s.flowAddrs f) :: s.out ∧ t.flow f = { x with seq := x.seq + 1 }
      ∧ (∀ g, g ≠ f → t.flow g = s.flow g)
      ∧ (fill = true → t.fld Pg.pkt2110 Reg.PKT2110_EVENT_FILL = 1)
      ∧ (fill = false → t.fld64 (Pg.eth (s.flowPort f)) Reg.ETH_TX_FRAMES_LO Reg.ETH_TX_FRAMES_HI
          = (s.fld64 (Pg.eth (s.flowPort f)) Reg.ETH_TX_FRAMES_LO Reg.ETH_TX_FRAMES_HI + 1) % 2 ^ 64)
      ∧ (fill = false → s.Touches t [.out, .regs, .flows] ∧ s.WritesIn t (onPages [Pg.eth (s.flowPort f)]))
      ∧ s.WritesIn t (onPages [Pg.eth (s.flowPort f), Pg.pkt2110]) := by
  obtain ⟨c, hc⟩ : ∃ c, c = s.setFld64 (Pg.eth (s.flowPort f)) Reg.ETH_TX_FRAMES_LO Reg.ETH_TX_FRAMES_HI
      (s.fld64 (Pg.eth (s.flowPort f)) Reg.ETH_TX_FRAMES_LO Reg.ETH_TX_FRAMES_HI + 1) := ⟨_, rfl⟩
  have hcw : s.WritesIn c (onPages [Pg.eth (s.flowPort f)]) :=
    hc ▸ .setFld64 (.refl s _) _ (onPages_eth s f (by decide)) (onPages_eth s f (by decide))
  have hct : s.Touches c [.regs] := hc ▸ State.setFld64_touches ..
  have hc64 : c.fld64 (Pg.eth (s.flowPort f)) Reg.ETH_TX_FRAMES_LO Reg.ETH_TX_FRAMES_HI
      = (s.fld64 (Pg.eth (s.flowPort f)) Reg.ETH_TX_FRAMES_LO Reg.ETH_TX_FRAMES_HI + 1) % 2 ^ 64 := by
    rw [hc]
    exact s.fld64_setFld64 _ (by decide) (by decide) rfl rfl (by simp only [keyOf]; omega)
  rw [State.sendPacket, ← hc] at ht
  obtain ⟨d, hd⟩ : ∃ d, d = c.raiseIf fill Pg.pkt2110 Reg.PKT2110_EVENT_FILL := ⟨_, rfl⟩
  rw [← hd] at ht
  have hregs : t.regs = d.regs := by rw [ht]; rfl
  have hdt : s.Touches d [.regs, .ctlLatches] := .step (hct.mono rfl) (hd ▸ State.raiseIf_touches ..) rfl
  have hfalse (h : fill = false) : d = c := by rw [hd, h]; rfl
  refine ⟨?_, ?_, fun g hg => ?_, fun h => ?_, fun h => ?_, fun h => ⟨?_, ?_⟩, ?_⟩
  · rw [ht]
    have : d.out = s.out := hdt.same .out (by decide)
    exact congrArg _ this
  · rw [ht]
    exact State.flow_putFlow ..
  · rw [ht]
    refine (State.flow_putFlow_ne _ _ hg).trans ?_
    have : d.flows = s.flows := hdt.same .flows (by decide)
    exact congrArg (fun y => y.get g) this
  · rw [State.fld_congr hregs, hd, h]
    exact State.fld_raise_same _ _ _ (by decide) rfl
  · rw [State.fld64_congr (State.fld_congr hregs ..) (State.fld_congr hregs ..), hfalse h, hc64]
  · rw [ht, hfalse h]
    exact .step (.step (hct.mono rfl) (State.putFlow_touches ..) rfl) (State.emit_touches ..) rfl
  · exact (hcw.of_regs (hregs.trans (by rw [hfalse h])))
  · refine (State.WritesIn.of_regs ?_ hregs)
    rw [hd]
    exact .raiseIf (hcw.mono fun _ => onPages_mono (by simp)) (onPages_keyOf (by decide) (by simp [Pg.pkt2110]))

theorem State.flowSend_of_stopped (late : Bool) (h : s.flowSends f = false) : s.flowSend f late = s := by
  rw [State.flowSend, if_pos (.inr h)]

theorem State.flowSend_of_sends (hf : f < 16) (late : Bool) (h : s.flowSends f = true) (hr : s.flowType f = 0 ∧ s.flowSrc f < 8) :
    s.flowSend f late = s.sendDirect f late := by
  unfold State.flowSend
  rw [if_neg (by simp [h]; omega), hr.1]
  exact if_pos hr.2

theorem State.flowSend_of_engine (hf : f < 16) (late : Bool) (h : s.flowSends f = true) (ht : s.flowType f = 0) (hs : 8 ≤ s.flowSrc f) :
    s.flowSend f late = s.sendEngine f late := by
  unfold State.flowSend
  rw [if_neg (by simp [h]; omega), ht]
  exact if_neg (by omega)

theorem State.flowSend_of_audio (hf : f < 16) (late : Bool) (h : s.flowSends f = true) (ht : s.flowType f = 1) :
    s.flowSend f late = s.sendAudio f late := by
  unfold State.flowSend
  rw [if_neg (by simp [h]; omega)]
  simp only [ht]

theorem State.flowSend_of_anc (hf : f < 16) (late : Bool) (h : s.flowSends f = true) (ht : s.flowType f = 2) :
    s.flowSend f late = s.sendAnc f late := by
  unfold State.flowSend
  rw [if_neg (by simp [h]; omega)]
  simp only [ht]

/-! ### A rendition's frame -/

/-- The packet of a frame at a place that is not its last. -/
def State.directPacket (s : State) (f : Nat) (x : FlowSt) (g : Nat) (n : Nat × Nat) : State :=
  s.sendPacket f { x with line := n.1, packet := n.2 } x.stamp false
    (if (s.flowShape f).chroma = 2 then 2 * x.line else x.line)
    ((s.flowShape f).cols * (x.packet * (s.flowShape f).perPacket (s.flowExt f)))
    ((s.flowShape f).payload (s.flowExt f) (s.rawPixel (s.srcShape (s.flowSrc f) g)) x.line x.packet) false

/-- The last packet of a frame, after which its buffer is free. -/
def State.directLast (s : State) (f : Nat) (x : FlowSt) (g : Nat) : State :=
  (s.freeBuf (.hold f) (s.flowSrc f) g).sendPacket f { x with frame := none, line := 0, packet := 0 } x.stamp true
    (if (s.flowShape f).chroma = 2 then 2 * x.line else x.line)
    ((s.flowShape f).cols * (x.packet * (s.flowShape f).perPacket (s.flowExt f)))
    ((s.flowShape f).payload (s.flowExt f) (s.rawPixel (s.srcShape (s.flowSrc f) g)) x.line x.packet) false

theorem State.sendDirect_of_begin {g j : Nat} {r n : Nat × Nat} (hnone : (s.flow f).frame = none) (hr : s.flowRate f = some r)
    (hj : j = alignIndex s.time.ticks r) (hidx : (s.flow f).index ≠ j + 1) (hruns : s.srcRuns (s.flowSrc f) = true)
    (hg : s.newestOf (s.flowSrc f) = some g) (hn : (s.flowShape f).step (s.flowExt f) 0 0 = some n) :
    s.sendDirect f false = (s.holdBuf (.hold f) (s.flowSrc f) g).directPacket f
      { s.flow f with index := j + 1, frame := some g, line := 0, packet := 0, stamp := stampOf j r } g n := by
  have hcond : ¬ ((s.flow f).index = alignIndex s.time.ticks r + 1 ∨ s.srcRuns (s.flowSrc f) = false) := by
    rw [← hj, hruns]
    simp [hidx]
  have hn' : ((s.holdBuf (.hold f) (s.flowSrc f) g).flowShape f).step ((s.holdBuf (.hold f) (s.flowSrc f) g).flowExt f) 0 0 = some n := hn
  unfold State.sendDirect
  simp only [hr, hnone, if_neg hcond, hg, Option.map_some]
  simp only [hn', Bool.false_eq_true, if_false, ← hj]
  rfl

theorem State.sendDirect_of_frame {g : Nat} {r : Nat × Nat} (hframe : (s.flow f).frame = some g) (hr : s.flowRate f = some r) :
    (∀ n, (s.flowShape f).step (s.flowExt f) (s.flow f).line (s.flow f).packet = some n →
        s.sendDirect f false = s.directPacket f (s.flow f) g n)
      ∧ ((s.flowShape f).step (s.flowExt f) (s.flow f).line (s.flow f).packet = none →
        s.sendDirect f false = s.directLast f (s.flow f) g) := by
  unfold State.sendDirect State.directPacket State.directLast
  refine ⟨fun n hn => ?_, fun hn => ?_⟩
  · simp only [hr, hframe, hn, Bool.false_eq_true, if_false]
  · simp only [hr, hframe, hn, Bool.false_eq_true, if_false]

/-- What the first packet of a frame leaves. -/
theorem State.directBegin_effect {g : Nat} {x : FlowSt} {n : Nat × Nat} (hl : x.line = 0) (hp : x.packet = 0)
    (ht : t = (s.holdBuf (.hold f) (s.flowSrc f) g).directPacket f x g n) :
    t.out = .rtp f x.seq x.stamp false 0 0
        ((s.flowShape f).payload (s.flowExt f) (s.rawPixel (s.srcShape (s.flowSrc f) g)) 0 0) (s.flowAddrs f) :: s.out
      ∧ t.flow f = { x with line := n.1, packet := n.2, seq := x.seq + 1 }
      ∧ t.split = { s.split with holds := s.split.holds ++ [(Reader.hold f, s.flowSrc f, g)] } ∧ (∀ g, g ≠ f → t.flow g = s.flow g)
      ∧ t = { s with regs := t.regs, out := t.out, flows := t.flows, split := t.split }
      ∧ s.KeepsPages t [Pg.eth (s.flowPort f)] ∧ s.KeepsBytes t := by
  obtain ⟨a, ha⟩ : ∃ a, a = s.holdBuf (.hold f) (s.flowSrc f) g := ⟨_, rfl⟩
  have hports : a.flowPort f = s.flowPort f := by rw [ha]; rfl
  have haddrs : a.flowAddrs f = s.flowAddrs f := by rw [ha]; rfl
  have hpay : (a.flowShape f).payload (a.flowExt f) (a.rawPixel (a.srcShape (a.flowSrc f) g)) 0 0
      = (s.flowShape f).payload (s.flowExt f) (s.rawPixel (s.srcShape (s.flowSrc f) g)) 0 0 := by rw [ha]; rfl
  rw [← ha, State.directPacket, hl, hp, hpay] at ht
  simp only [Nat.mul_zero, Nat.zero_mul, ite_self] at ht
  obtain ⟨hout, hflow, hother, -, -, hfalse, -⟩ := State.sendPacket_effect ht
  obtain ⟨htouch, hpages⟩ := hfalse rfl
  have hmix := htouch.eq_mix
  have hsplit : t.split = a.split := by rw [hmix]; rfl
  refine ⟨?_, hflow, ?_, fun g hg => ?_, ?_, ?_, ?_⟩
  · rw [hout, haddrs, ha]
    rfl
  · rw [hsplit, ha]
    rfl
  · rw [hother g hg, ha]
    rfl
  · rw [hsplit, hmix, ha]
    rfl
  · rw [hports] at hpages
    exact fun k hk => (hpages.keepsPages k hk).trans (by rw [ha]; rfl)
  · have hhold : s.Touches a [.splitHolds, .out, .regs, .flows] := (ha ▸ s.holdBuf_touches ..).mono rfl
    exact (hhold.step htouch rfl).keepsBytes rfl

/-- What a further packet of a frame leaves. -/
theorem State.directPacket_effect {g : Nat} {x : FlowSt} {n : Nat × Nat} (ht : t = s.directPacket f x g n) :
    t.out = .rtp f x.seq x.stamp false (if (s.flowShape f).chroma = 2 then 2 * x.line else x.line)
        ((s.flowShape f).cols * (x.packet * (s.flowShape f).perPacket (s.flowExt f)))
        ((s.flowShape f).payload (s.flowExt f) (s.rawPixel (s.srcShape (s.flowSrc f) g)) x.line x.packet) (s.flowAddrs f) :: s.out
      ∧ t.flow f = { x with line := n.1, packet := n.2, seq := x.seq + 1 } ∧ (∀ g, g ≠ f → t.flow g = s.flow g)
      ∧ t.fld64 (Pg.eth (s.flowPort f)) Reg.ETH_TX_FRAMES_LO Reg.ETH_TX_FRAMES_HI
        = (s.fld64 (Pg.eth (s.flowPort f)) Reg.ETH_TX_FRAMES_LO Reg.ETH_TX_FRAMES_HI + 1) % 2 ^ 64
      ∧ s.Touches t [.out, .regs, .flows] ∧ s.KeepsPages t [Pg.eth (s.flowPort f)] := by
  obtain ⟨hout, hflow, hother, -, hcount, hfalse, -⟩ := State.sendPacket_effect ht
  obtain ⟨htouch, hpages⟩ := hfalse rfl
  exact ⟨hout, hflow, hother, hcount rfl, htouch, hpages.keepsPages⟩

/-- What the last packet of a frame leaves. -/
theorem State.directLast_effect {g : Nat} {x : FlowSt} (ht : t = s.directLast f x g) :
    t.out = .rtp f x.seq x.stamp true (if (s.flowShape f).chroma = 2 then 2 * x.line else x.line)
        ((s.flowShape f).cols * (x.packet * (s.flowShape f).perPacket (s.flowExt f)))
        ((s.flowShape f).payload (s.flowExt f) (s.rawPixel (s.srcShape (s.flowSrc f) g)) x.line x.packet) (s.flowAddrs f) :: s.out
      ∧ t.flow f = { x with frame := none, line := 0, packet := 0, seq := x.seq + 1 }
      ∧ t.split.holds = (s.split.holds.filter fun h => decide (h ≠ (Reader.hold f, s.flowSrc f, g)))
      ∧ (∀ g, g ≠ f → t.flow g = s.flow g)
      ∧ t.fld64 (Pg.eth (s.flowPort f)) Reg.ETH_TX_FRAMES_LO Reg.ETH_TX_FRAMES_HI
        = (s.fld64 (Pg.eth (s.flowPort f)) Reg.ETH_TX_FRAMES_LO Reg.ETH_TX_FRAMES_HI + 1) % 2 ^ 64
      ∧ s.Touches t [.out, .regs, .flows, .splitHolds] ∧ s.KeepsPages t [Pg.eth (s.flowPort f)] := by
  obtain ⟨a, ha⟩ : ∃ a, a = s.freeBuf (.hold f) (s.flowSrc f) g := ⟨_, rfl⟩
  have haddrs : a.flowAddrs f = s.flowAddrs f := by rw [ha]; rfl
  have hport : a.flowPort f = s.flowPort f := by rw [ha]; rfl
  have hregs : a.regs = s.regs := by rw [ha]; rfl
  rw [State.directLast, ← ha] at ht
  obtain ⟨hout, hflow, hother, -, hcount, hfalse, -⟩ := State.sendPacket_effect ht
  obtain ⟨htouch, hpages⟩ := hfalse rfl
  rw [hport] at hpages
  refine ⟨?_, hflow, ?_, fun g hg => ?_, ?_, ?_, fun k hk => ?_⟩
  · rw [hout, haddrs, ha]
    rfl
  · rw [htouch.same .splitHolds (by decide), ha]
    rfl
  · rw [hother g hg, ha]
    rfl
  · rw [← hport, hcount rfl, State.fld64_congr (State.fld_congr hregs ..) (State.fld_congr hregs ..)]
  · have hfree : s.Touches a [.out, .regs, .flows, .splitHolds] := (ha ▸ s.freeBuf_touches ..).mono rfl
    exact hfree.step htouch rfl
  · exact (hpages.keepsPages k hk).trans (State.rd_congr hregs _)

/-- What the next packet of a frame in work leaves. -/
theorem State.directNext_effect {g : Nat} {r : Nat × Nat} {x : FlowSt} {p : FlowShape} (hx : x = s.flow f) (hframe : x.frame = some g)
    (hr : s.flowRate f = some r) (hp : p = s.flowShape f) (ht : t = s.sendDirect f false) :
    t.out = .rtp f x.seq x.stamp (p.step (s.flowExt f) x.line x.packet).isNone (if p.chroma = 2 then 2 * x.line else x.line)
          (p.cols * (x.packet * p.perPacket (s.flowExt f)))
          (p.payload (s.flowExt f) (s.rawPixel (s.srcShape (s.flowSrc f) g)) x.line x.packet) (s.flowAddrs f) :: s.out
      ∧ (∀ n, p.step (s.flowExt f) x.line x.packet = some n →
          t.flow f = { x with line := n.1, packet := n.2, seq := x.seq + 1 } ∧ t.split = s.split)
      ∧ (p.step (s.flowExt f) x.line x.packet = none →
          t.flow f = { x with frame := none, line := 0, packet := 0, seq := x.seq + 1 }
            ∧ t.split.holds = s.split.holds.filter fun h => decide (h ≠ (Reader.hold f, s.flowSrc f, g)))
      ∧ (∀ g, g ≠ f → t.flow g = s.flow g)
      ∧ t.fld64 (Pg.eth (s.flowPort f)) Reg.ETH_TX_FRAMES_LO Reg.ETH_TX_FRAMES_HI =
          (s.fld64 (Pg.eth (s.flowPort f)) Reg.ETH_TX_FRAMES_LO Reg.ETH_TX_FRAMES_HI + 1) % 2 ^ 64
      ∧ t = { s with regs := t.regs, out := t.out, flows := t.flows, split := { s.split with holds := t.split.holds } }
      ∧ s.KeepsPages t [Pg.eth (s.flowPort f)] ∧ s.KeepsBytes t := by
  subst hx hp
  obtain ⟨hsome, hnone⟩ := State.sendDirect_of_frame hframe hr
  cases hstep : (s.flowShape f).step (s.flowExt f) (s.flow f).line (s.flow f).packet with
  | some n =>
    rw [hsome n hstep] at ht
    obtain ⟨hout, hflow, hother, hcount, htouch, hpages⟩ := State.directPacket_effect ht
    have hmix := htouch.eq_mix
    have hsplit : t.split = s.split := by rw [hmix]; rfl
    exact ⟨hout, fun m hm => Option.some.inj hm ▸ ⟨hflow, hsplit⟩, fun h => (nomatch h), hother, hcount,
      (htouch.mono (l' := [.out, .regs, .flows, .splitHolds]) rfl).eq_mix, hpages, htouch.keepsBytes rfl⟩
  | none =>
    rw [hnone hstep] at ht
    obtain ⟨hout, hflow, hholds, hother, hcount, htouch, hpages⟩ := State.directLast_effect ht
    exact ⟨hout, fun m hm => (nomatch hm), fun _ => ⟨hflow, hholds⟩, hother, hcount, htouch.eq_mix, hpages, htouch.keepsBytes rfl⟩

/-! ### An engine's raster -/

/-- The RTP timestamp of a packet of an engine's frame: that of the frame's sample point at its first packet. -/
def State.engineStamp (s : State) (f : Nat) (x : FlowSt) (r : Nat × Nat) : Nat :=
  let n := s.flowSrc f - 8
  let e := s.engine n
  let at_ := if s.locks n then e.sampled.ticks else e.sampled.ticks - s.fld (Pg.loupe n) Reg.LOUPE_PHASE * tickNs
  if x.line % max 1 (s.flowShape f).h = 0 ∧ x.packet = 0 then
    (if s.locks n then at_ * 90000 / (1000000000 * tickNs) % 2 ^ 32 else stampOf (alignIndex at_ r) r)
  else x.stamp

theorem State.sendEngine_of_held {n : Nat} {x : FlowSt} {p : FlowShape} {r : Nat × Nat} {newest row : Nat × List (Nat × Nat × Nat)}
    {rest : List (Nat × List (Nat × Nat × Nat))} (hsrc : s.flowSrc f = 8 + n) (hx : x = s.flow f) (hr : s.flowRate f = some r)
    (hp : p = s.flowShape f) (hok : s.engineOk n = true) (hrows : (s.engine n).rows = newest :: rest) (hnew : x.line ≤ newest.1)
    (hline : x.line ≤ (s.fld64 (Pg.loupe n) Reg.LOUPE_FRAMES_LO Reg.LOUPE_FRAMES_HI + 1) * p.h)
    (hrow : (s.engine n).rows.find? (fun z => decide (z.1 = x.line)) = some row) :
    s.sendEngine f false = s.sendPacket f
      { x with
        stamp := s.engineStamp f x r
        line := if p.packets (s.flowExt f) ≤ x.packet + 1 then x.line + 1 else x.line
        packet := if p.packets (s.flowExt f) ≤ x.packet + 1 then 0 else x.packet + 1 }
      (s.engineStamp f x r) (decide (p.packets (s.flowExt f) ≤ x.packet + 1) && decide (x.line % max 1 p.h + 1 = p.h))
      (if s.engFmt n = 1 then lineAt 1 (x.line % max 1 p.h) / 2 + lineAt 1 (x.line % max 1 p.h) % 2 * 32768
        else lineAt (s.engFmt n) (x.line % max 1 p.h))
      (p.cols * (x.packet * p.perPacket (s.flowExt f)))
      (p.payload (s.flowExt f) (fun a _ => row.2.getD a blackPixel) 0 x.packet) false := by
  subst hx hp
  have hn : s.flowSrc f - 8 = n := by omega
  rw [hrows] at hrow
  have hsend : ¬ (newest.1 < (s.flow f).line ∨ s.engineOk n = false) := by
    rw [hok]
    simp [hnew]
  have hfmt (i : Nat) : (if s.engFmt n = 1 then lineAt (s.engFmt n) i / 2 + lineAt (s.engFmt n) i % 2 * 32768 else lineAt (s.engFmt n) i)
      = if s.engFmt n = 1 then lineAt 1 i / 2 + lineAt 1 i % 2 * 32768 else lineAt (s.engFmt n) i := by
    split
    · simp only [*]
    · rfl
  unfold State.sendEngine State.engineStamp
  simp only [hn, hr, hrows, if_neg (Nat.not_lt.mpr hline), if_neg hsend, hrow, Option.isNone_some, Bool.or_false, Bool.false_eq_true,
    if_false, Option.getD_some, hfmt, decide_eq_true_eq]

/-- What a packet of a composed line leaves. -/
theorem State.engineNext_effect {n : Nat} {x : FlowSt} {p : FlowShape} {r : Nat × Nat} {newest row : Nat × List (Nat × Nat × Nat)}
    {rest : List (Nat × List (Nat × Nat × Nat))} (hsrc : s.flowSrc f = 8 + n) (hx : x = s.flow f) (hr : s.flowRate f = some r)
    (hp : p = s.flowShape f) (hok : s.engineOk n = true) (hrows : (s.engine n).rows = newest :: rest) (hnew : x.line ≤ newest.1)
    (hline : x.line ≤ (s.fld64 (Pg.loupe n) Reg.LOUPE_FRAMES_LO Reg.LOUPE_FRAMES_HI + 1) * p.h)
    (hrow : (s.engine n).rows.find? (fun z => decide (z.1 = x.line)) = some row) {stamp : Nat} (hstamp : stamp = s.engineStamp f x r)
    (ht : t = s.sendEngine f false) :
    (¬ (x.line % max 1 p.h = 0 ∧ x.packet = 0) → stamp = x.stamp)
      ∧ t.out = .rtp f x.seq stamp (decide (p.packets (s.flowExt f) ≤ x.packet + 1) && decide (x.line % max 1 p.h + 1 = p.h))
          (if s.engFmt n = 1 then lineAt 1 (x.line % max 1 p.h) / 2 + lineAt 1 (x.line % max 1 p.h) % 2 * 32768
            else lineAt (s.engFmt n) (x.line % max 1 p.h))
          (p.cols * (x.packet * p.perPacket (s.flowExt f)))
          (p.payload (s.flowExt f) (fun a _ => row.2.getD a blackPixel) 0 x.packet) (s.flowAddrs f) :: s.out
      ∧ (p.packets (s.flowExt f) ≤ x.packet + 1 → t.flow f = { x with stamp := stamp, line := x.line + 1, packet := 0, seq := x.seq + 1 })
      ∧ (x.packet + 1 < p.packets (s.flowExt f) → t.flow f = { x with stamp := stamp, packet := x.packet + 1, seq := x.seq + 1 })
      ∧ (∀ g, g ≠ f → t.flow g = s.flow g)
      ∧ t = { s with regs := t.regs, out := t.out, flows := t.flows } ∧ s.KeepsPages t [Pg.eth (s.flowPort f)] ∧ s.KeepsBytes t := by
  rw [State.sendEngine_of_held hsrc hx hr hp hok hrows hnew hline hrow, ← hstamp] at ht
  obtain ⟨hout, hflow, hother, -, -, hfalse, -⟩ := State.sendPacket_effect ht
  obtain ⟨htouch, hpages⟩ := hfalse rfl
  refine ⟨fun h => ?_, hout, fun h => ?_, fun h => ?_, hother, htouch.eq_mix, hpages.keepsPages, htouch.keepsBytes rfl⟩
  · rw [hp] at h
    rw [hstamp, State.engineStamp]
    exact if_neg h
  · rw [hflow, if_pos h, if_pos h]
  · rw [hflow, if_neg (by omega), if_neg (by omega)]

/-! ### Audio and ancillary data -/

/-- The samples of an audio packet, frame by frame and channel by channel. -/
def State.audioPayload (s : State) (f : Nat) (fs : List AudFrame) : List Byte :=
  (List.range (s.flowSamples f)).flatMap fun i => (List.range (s.flowCh f)).flatMap fun c =>
    pcmBytes (s.audWord (s.flowSrc f)) (s.flowL f)
      (match fs[i]? with
        | some e => s.audSample (s.flowSrc f) e (s.flowFld f Reg.PKT2110_FLOW_CFG_FIRST_SLOT + c)
        | none => 0)

theorem State.sendAudio_of_served {x : FlowSt} {fs : List AudFrame} (hx : x = s.flow f)
    (hfs : fs = s.audSpan (s.flowSrc f) (x.index * s.packetTicks f) ((x.index + 1) * s.packetTicks f))
    (htime : (x.index + 1) * s.packetTicks f ≤ s.time.ticks) (hserves : s.audServes (s.flowSrc f) (s.flowFs f) = true) :
    s.sendAudio f false = s.sendPacket f { x with index := x.index + 1 } (x.index * s.flowSamples f % 2 ^ 32) false 0 0
      (s.audioPayload f fs) (decide (fs.length < s.flowSamples f)) := by
  subst hx hfs
  have hcond : ¬ (s.time.ticks < ((s.flow f).index + 1) * s.packetTicks f ∨ s.audServes (s.flowSrc f) (s.flowFs f) = false) := by
    rw [hserves]
    simp [htime]
  unfold State.sendAudio
  dsimp only
  rw [if_neg hcond]
  rfl

theorem State.audioNext_effect {x : FlowSt} {fs : List AudFrame} (hx : x = s.flow f)
    (hfs : fs = s.audSpan (s.flowSrc f) (x.index * s.packetTicks f) ((x.index + 1) * s.packetTicks f))
    (htime : (x.index + 1) * s.packetTicks f ≤ s.time.ticks) (hserves : s.audServes (s.flowSrc f) (s.flowFs f) = true)
    (ht : t = s.sendAudio f false) :
    t.out = .rtp f x.seq (x.index * s.flowSamples f % 2 ^ 32) false 0 0 (s.audioPayload f fs) (s.flowAddrs f) :: s.out
      ∧ (fs.length < s.flowSamples f → t.fld Pg.pkt2110 Reg.PKT2110_EVENT_FILL = 1)
      ∧ t.flow f = { x with index := x.index + 1, seq := x.seq + 1 } ∧ (∀ g, g ≠ f → t.flow g = s.flow g)
      ∧ t = { s.regsOf t with out := t.out, flows := t.flows }
      ∧ s.KeepsPages t [Pg.eth (s.flowPort f), Pg.pkt2110] ∧ s.KeepsBytes t := by
  rw [State.sendAudio_of_served hx hfs htime hserves] at ht
  obtain ⟨hout, hflow, hother, hfill, -, -, hpages⟩ := State.sendPacket_effect ht
  have htouch : s.Touches t [.out, .regs, .ctlLatches, .flows] := ht ▸ State.sendPacket_touches ..
  exact ⟨hout, fun h => hfill (decide_eq_true h), hflow, hother, htouch.eq_mix, hpages.keepsPages, htouch.keepsBytes rfl⟩

/-- The RTP timestamp of an ancillary packet: that of its engine's sample point. -/
def State.ancStamp (s : State) (n : Nat) (r : Nat × Nat) : Nat :=
  let e := s.engine n
  let at_ := if s.locks n then e.sampled.ticks else e.sampled.ticks - s.fld (Pg.loupe n) Reg.LOUPE_PHASE * tickNs
  (if s.locks n then at_ * 90000 / (1000000000 * tickNs) else stampOf (alignIndex at_ r) r) % 2 ^ 32

theorem State.sendAnc_of_frame {x : FlowSt} {r : Nat × Nat} (hx : x = s.flow f) (hr : s.flowRate f = some r)
    (hbegun : (s.engine (s.flowSrc f)).begun = true) (hfmt : s.engFmt (s.flowSrc f) ≠ 1)
    (hidx : x.index ≠ 2 * s.fld64 (Pg.loupe (s.flowSrc f)) Reg.LOUPE_FRAMES_LO Reg.LOUPE_FRAMES_HI + 1) :
    s.sendAnc f false = s.sendPacket f
      { x with index := 2 * s.fld64 (Pg.loupe (s.flowSrc f)) Reg.LOUPE_FRAMES_LO Reg.LOUPE_FRAMES_HI + 1 } (s.ancStamp (s.flowSrc f) r) true 0 0
      (ancPayload (s.engFmt (s.flowSrc f)) (s.lv (s.flowSrc f) Reg.LOUPE_ANC_CFG_LINE) x.seq 0
        (ancPackets (s.ancBuffer (s.flowSrc f)) 400 0)) false := by
  subst hx
  have hfield : ¬ (s.engFmt (s.flowSrc f) = 1 ∧ 562 < (s.engine (s.flowSrc f)).line) := fun h => hfmt h.1
  unfold State.sendAnc State.ancStamp
  simp only [hr, if_neg hfield, if_neg hfmt, hbegun, Bool.true_eq_false, false_or, Nat.add_zero, if_neg hidx, Bool.false_eq_true, if_false]

theorem State.ancNext_effect {x : FlowSt} {r : Nat × Nat} (hx : x = s.flow f) (hr : s.flowRate f = some r)
    (hbegun : (s.engine (s.flowSrc f)).begun = true) (hfmt : s.engFmt (s.flowSrc f) ≠ 1)
    (hidx : x.index ≠ 2 * s.fld64 (Pg.loupe (s.flowSrc f)) Reg.LOUPE_FRAMES_LO Reg.LOUPE_FRAMES_HI + 1) (ht : t = s.sendAnc f false) :
    t.out = .rtp f x.seq (s.ancStamp (s.flowSrc f) r) true 0 0
        (ancPayload (s.engFmt (s.flowSrc f)) (s.lv (s.flowSrc f) Reg.LOUPE_ANC_CFG_LINE) x.seq 0
          (ancPackets (s.ancBuffer (s.flowSrc f)) 400 0)) (s.flowAddrs f) :: s.out
      ∧ t.flow f = { x with
          index := 2 * s.fld64 (Pg.loupe (s.flowSrc f)) Reg.LOUPE_FRAMES_LO Reg.LOUPE_FRAMES_HI + 1, seq := x.seq + 1 }
      ∧ (∀ g, g ≠ f → t.flow g = s.flow g)
      ∧ t = { s with regs := t.regs, out := t.out, flows := t.flows } ∧ s.KeepsPages t [Pg.eth (s.flowPort f)] ∧ s.KeepsBytes t := by
  rw [State.sendAnc_of_frame hx hr hbegun hfmt hidx] at ht
  obtain ⟨hout, hflow, hother, -, -, hfalse, -⟩ := State.sendPacket_effect ht
  obtain ⟨htouch, hpages⟩ := hfalse rfl
  exact ⟨hout, hflow, hother, htouch.eq_mix, hpages.keepsPages, htouch.keepsBytes rfl⟩

/-! ### The obligation -/

theorem execFlowEnable_next (hf : f < 16) (r : Req) (v : Word) (s : State) : exec (.flowEnable r f v) s = .next (writeFlowCfg r f v s) := by
  have h : exec (.flowEnable r f v) s = .next (if 16 ≤ f then s else writeFlowCfg r f v s) := rfl
  rw [h, if_neg (by omega)]

theorem execSend_next (f : Nat) (late : Bool) (s : State) : exec (.st2110PacketSend f late) s = .next (s.flowSend f late) := rfl

/-- Settles O52: FLOW_CFG by the bits of EN before and after, and each packet through what `sendPacket` leaves. -/
theorem flows : Obligations.Flows := by
  unfold Obligations.Flows
  refine ⟨fun s u r f v hf ha hu => ?_, fun s f late hf hs => ?_, fun s f g j x p r n hf hs hty hsrc hx hfr hr hj hidx hruns hg hp hn => ?_,
    fun s f g x p r hf hs hty hsrc hx hframe hr hp => ?_, fun s f n x p r newest row rest hf hs hty hsrc hx hr hp hok hrows hnew hline hrow => ?_,
    fun s f x fs hf hs hty hx hfs htime hserves => ?_, fun s f x r hf hs hty hx hr hbegun hfmt hidx => ?_⟩
  · have hwrite := writeFlowCfg_of_accepts hf ha hu
    refine ⟨fun hwas hon => ?_, fun hwas hne => ?_, fun hwas hon heq => ?_⟩
    · have hen : u.flowFld f Reg.PKT2110_FLOW_CFG_EN = 1 := by
        rw [State.flowOn, Bool.and_eq_true, decide_eq_true_eq] at hon
        exact hon.1
      rw [execFlowEnable_next hf, hwrite, if_neg (by simp [hwas])]
      refine ⟨fun hbad hover => ?_, fun h => ?_⟩
      · rw [if_neg (by simp [hbad, hover]), if_pos (by simp [hen, hwas])]
        exact ⟨_, rfl, State.flowStart_effect hf hu rfl⟩
      · rw [if_pos ⟨hen, hon, h.symm.imp_right fun hb => ⟨by simp [hwas], hb⟩⟩]
        exact ⟨_, rfl, State.flowErr_effect s rfl⟩
    · rw [execFlowEnable_next hf, hwrite, if_pos ⟨hwas, hne⟩]
      exact ⟨_, rfl, State.rejected_reject _ _⟩
    · rw [execFlowEnable_next hf, hwrite, if_neg fun h => h.2 heq, if_neg (by simp [hon]), if_neg (by simp [hon]), if_pos (by simp [hwas, hon])]
      exact ⟨_, rfl, State.flowEnd_effect hu rfl⟩
  · rw [execSend_next, State.flowSend_of_stopped late hs]
  · subst hx hp
    rw [execSend_next, State.flowSend_of_sends hf _ hs ⟨hty, hsrc⟩, State.sendDirect_of_begin hfr hr hj hidx hruns hg hn]
    exact ⟨_, rfl, State.directBegin_effect rfl rfl rfl⟩
  · rw [execSend_next, State.flowSend_of_sends hf _ hs ⟨hty, hsrc⟩]
    exact ⟨_, rfl, State.directNext_effect hx hframe hr hp rfl⟩
  · rw [execSend_next, State.flowSend_of_engine hf _ hs hty (by omega)]
    exact ⟨_, _, rfl, State.engineNext_effect hsrc hx hr hp hok hrows hnew hline hrow rfl rfl⟩
  · rw [execSend_next, State.flowSend_of_audio hf _ hs hty]
    exact ⟨_, rfl, State.audioNext_effect hx hfs htime hserves rfl⟩
  · rw [execSend_next, State.flowSend_of_anc hf _ hs hty]
    exact ⟨_, _, rfl, State.ancNext_effect hx hr hbegun hfmt hidx rfl⟩

end Sys2Proof.Machine
end

section
/-! PROOFS. Relay: its channels, their descriptors and what they move, bus errors and the restart (R430 to R437). -/

set_option Elab.async false

namespace Sys2Proof.Machine

variable {s t u : State} {c k : Nat}

/-! ### Relay's registers -/

theorem keyOf_relay_ne {f g : Fld} (h : f.off ≠ g.off) : keyOf f Pg.relay ≠ keyOf g Pg.relay := by
  unfold keyOf
  omega

theorem onPages_relay {f : Fld} (hf : f.off < 0x1000) : onPages [Pg.relay] (keyOf f Pg.relay) := onPages_keyOf hf (by decide)

theorem State.fld_setRelayFld_ne (s : State) {f g : Fld} (v : Nat) (h : g.off ≠ f.off) :
    (s.setFld Pg.relay f v).fld Pg.relay g = s.fld Pg.relay g :=
  State.fld_of_rd (by rw [State.rd_setFld, if_neg (keyOf_relay_ne h)])

/-- A domain that is on and asked to be on stays as it is. -/
theorem State.settle_of_on {p : Nat} (h : s.fld p Reg.COMMON_PWR_REQ_STATUS = 3) (hr : s.fld p Reg.COMMON_PWR_REQ_REQ = 3) :
    s.settle p = s := by
  have hreq : s.heldOn p ∨ reqOf (s.fld p Reg.COMMON_PWR_REQ_REQ) = 3 := .inr (by rw [hr]; rfl)
  unfold State.settle
  dsimp only
  rw [if_pos hreq, if_pos h, ite_self]

/-- The channels that run, one bit each. -/
def State.runningBits (s : State) : Nat := (((List.range 8).filter fun k => decide (s.chState k = 1)).map (2 ^ ·)).sum

theorem testBit_runningBits (s : State) (hk : k < 8) : s.runningBits.testBit k = decide (s.chState k = 1) := by
  have hsorted : ((List.range 8).filter fun k => decide (s.chState k = 1)).SortedLT :=
    ((List.pairwise_lt_range (n := 8)).filter _).sortedLT
  rw [Bool.eq_iff_iff, ← Nat.mem_bitIndices, State.runningBits, Nat.bitIndices_sum_map_two_pow hsorted]
  simp [hk]

/-- Relay's domain is on, and asked to be on. -/
def State.RelayUp (s : State) : Prop := s.fld Pg.relay Reg.COMMON_PWR_REQ_STATUS = 3 ∧ s.fld Pg.relay Reg.COMMON_PWR_REQ_REQ = 3

theorem State.RelayUp.of_writes {P : Nat → Prop} (h : s.RelayUp) (hw : s.WritesIn t P) (hP : ¬ P (keyOf Reg.COMMON_PWR_REQ_REQ Pg.relay)) :
    t.RelayUp := by
  obtain ⟨hst, hreq⟩ := h
  exact ⟨(hw.fld (f := Reg.COMMON_PWR_REQ_STATUS) hP).trans hst, (hw.fld hP).trans hreq⟩

theorem State.RelayUp.of_regs (h : s.RelayUp) (hr : t.regs = s.regs) : t.RelayUp := by
  obtain ⟨hst, hreq⟩ := h
  exact ⟨(State.fld_congr hr ..).trans hst, (State.fld_congr hr ..).trans hreq⟩

theorem State.setCh_of_up (h : s.RelayUp) (c v : Nat) :
    s.setCh c v = (s.setFld Pg.relay (Reg.RELAY_CH_STATUS_STATE c) v).setFld Pg.relay Reg.RELAY_STATE_ACTIVE
      (s.setFld Pg.relay (Reg.RELAY_CH_STATUS_STATE c) v).runningBits := by
  obtain ⟨w, hw⟩ : ∃ w, w = (s.setFld Pg.relay (Reg.RELAY_CH_STATUS_STATE c) v).setFld Pg.relay Reg.RELAY_STATE_ACTIVE
      (s.setFld Pg.relay (Reg.RELAY_CH_STATUS_STATE c) v).runningBits := ⟨_, rfl⟩
  have hfld {g : Fld} (hg : g.off ≠ 0x00C ∧ g.off < 0x080) : w.fld Pg.relay g = s.fld Pg.relay g := by
    rw [hw, State.fld_setRelayFld_ne _ _ (by simp only; omega), State.fld_setRelayFld_ne _ _ (by simp only; omega)]
  have hset : s.setCh c v = if (w.heldReq Pg.relay).isSome then w else w.settle Pg.relay := by
    rw [hw]
    rfl
  obtain ⟨hst, hreq⟩ := h
  rw [hset, State.settle_of_on ((hfld (by decide)).trans hst) ((hfld (by decide)).trans hreq), ite_self, hw]

/-- What a channel's new STATE writes. -/
def chMay (c a : Nat) : Prop := a ∈ [keyOf (Reg.RELAY_CH_STATUS_STATE c) Pg.relay, keyOf Reg.RELAY_STATE_ACTIVE Pg.relay]

/-- What setting a channel's STATE leaves. -/
theorem State.setCh_effect {v : Nat} (h : s.RelayUp) (hv : v < 4) (ht : t = s.setCh c v) :
    t.chState c = v ∧ (∀ k, k ≠ c → t.chState k = s.chState k)
      ∧ t.fld Pg.relay Reg.RELAY_STATE_ACTIVE = t.runningBits % 2 ^ 8
      ∧ (∀ g : Fld, g.off = 0x00C → g.lo + g.width ≤ 8 → t.fld Pg.relay g = s.fld Pg.relay g)
      ∧ (∀ k, t.fld Pg.relay (Reg.RELAY_CH_STATUS_DONE k) = s.fld Pg.relay (Reg.RELAY_CH_STATUS_DONE k))
      ∧ s.Touches t [.regs] ∧ s.WritesIn t (chMay c) ∧ t.RelayUp := by
  rw [State.setCh_of_up h] at ht
  obtain ⟨w, hw⟩ : ∃ w, w = s.setFld Pg.relay (Reg.RELAY_CH_STATUS_STATE c) v := ⟨_, rfl⟩
  rw [← hw] at ht
  have hch (k : Nat) : t.chState k = w.chState k := by
    rw [ht]
    exact State.fld_setRelayFld_ne _ _ (by simp only; omega)
  have hwrites : s.WritesIn t (chMay c) := by
    rw [ht, hw]
    exact .setFld (.setFld (.refl s _) _ (by simp [chMay])) _ (by simp [chMay])
  refine ⟨?_, fun k hk => ?_, ?_, fun g hg hlo => ?_, fun k => ?_, ?_, hwrites, h.of_writes hwrites ?_⟩
  · rw [hch, hw]
    exact State.fld_setFld_of_width _ _ _ _ (by simp) (by simpa using hv)
  · rw [hch, hw]
    exact State.fld_setRelayFld_ne _ _ (by simp only; omega)
  · have hbits : t.runningBits = w.runningBits := by
      unfold State.runningBits
      simp only [hch]
    rw [hbits, ht]
    exact State.fld_setFld_same _ _ _ _ (by decide)
  · rw [ht, State.fld_setFld_ne _ _ _ _ _ _ (by omega) (.inr (.inr (by simpa using hlo))), hw,
      State.fld_setRelayFld_ne _ _ (by rw [hg]; simp only; omega)]
  · rw [ht, State.fld_setRelayFld_ne _ _ (by simp only; omega), hw]
    exact State.fld_setFld_ne _ _ _ _ _ _ (by simp) (.inr (.inl (by simp)))
  · rw [ht, hw]
    exact (State.setFld_touches ..).trans (State.setFld_touches ..)
  · simp only [chMay, List.mem_cons, List.not_mem_nil, or_false, not_or]
    exact ⟨keyOf_relay_ne (by simp only; omega), by decide⟩

/-- A channel that is set running has its bit of ACTIVE. -/
theorem State.active_of_running (h : t.fld Pg.relay Reg.RELAY_STATE_ACTIVE = t.runningBits % 2 ^ 8) (hc : c < 8) (hrun : t.chState c = 1) :
    (t.fld Pg.relay Reg.RELAY_STATE_ACTIVE).testBit c = true := by
  rw [h, Nat.testBit_mod_two_pow, testBit_runningBits t hc, hrun]
  simp [hc]

theorem State.keepsPages_of_chMay (hw : s.WritesIn t (chMay c)) (hc : c < 8) : s.WritesIn t (onPages [Pg.relay]) :=
  hw.mono fun a ha => by
    simp only [chMay, List.mem_cons, List.not_mem_nil, or_false] at ha
    rcases ha with rfl | rfl
    · exact onPages_relay (by simp only; omega)
    · exact onPages_relay (by decide)

theorem State.setCur_effect {a : Nat} (ht : t = s.setCur c a) :
    t.curDesc c = a / 32 % 2 ^ 27 * 32 + 2 ^ 32 * (a / 2 ^ 32 % 2 ^ 32)
      ∧ (∀ g : Fld, g.off ≠ 0x090 + 0x20 * c → g.off ≠ 0x094 + 0x20 * c → t.fld Pg.relay g = s.fld Pg.relay g)
      ∧ (c < 8 → s.WritesIn t (onPages [Pg.relay])) ∧ s.Touches t [.regs] := by
  unfold State.setCur at ht
  refine ⟨?_, fun g hlo hhi => ?_, fun hc => ?_, ?_⟩
  · rw [State.curDesc, ht, State.fld_setRelayFld_ne _ _ (by simp), State.fld_setFld_same _ _ _ _ (by simp),
      State.fld_setFld_same _ _ _ _ (by simp)]
    exact congrArg (· + _) (Nat.mul_comm ..)
  · rw [ht, State.fld_setRelayFld_ne _ _ hhi, State.fld_setRelayFld_ne _ _ hlo]
  · rw [ht]
    exact .setFld (.setFld (.refl s _) _ (onPages_relay (by simp only; omega))) _ (onPages_relay (by simp only; omega))
  · rw [ht]
    exact (State.setFld_touches ..).trans (State.setFld_touches ..)

theorem State.chDesc_putDesc (s : State) (c : Nat) (d : Option RelayDesc) : (s.putDesc c d).chDesc c = d := Tbl.get_put_same ..

theorem State.chDesc_putDesc_ne (s : State) (d : Option RelayDesc) (h : k ≠ c) : (s.putDesc c d).chDesc k = s.chDesc k :=
  Tbl.get_put_ne _ _ _ _ h

theorem State.Touches.chDesc {l : List Part} (h : s.Touches t l) (hl : Part.relayDescs ∉ l := by decide) (k : Nat) :
    t.chDesc k = s.chDesc k := congrArg (fun x : Tbl (Option RelayDesc) => x.get k) (h.same .relayDescs hl)

/-! ### CH_START and CH_ABORT -/

theorem writeChCtrl_of_accepts {r : Req} {v : Word} (ha : s.accepts r Pg.relay (0x080 + 0x20 * c) v = true) :
    (wfld v (Reg.RELAY_CH_CTRL_START c) = 1 → wfld v (Reg.RELAY_CH_CTRL_ABORT c) = 0 → writeChCtrl r c v s = s.chStart c)
      ∧ (wfld v (Reg.RELAY_CH_CTRL_START c) = 0 → wfld v (Reg.RELAY_CH_CTRL_ABORT c) = 1 → writeChCtrl r c v s = s.chAbort c) := by
  rw [writeChCtrl, withWrite_of_accepts _ ha]
  refine ⟨fun h h' => ?_, fun h h' => ?_⟩
  · simp [h, h']
  · simp [h, h']

/-- What a start of a channel leaves. -/
theorem State.chStart_effect (hup : s.RelayUp) (hc : c < 8) (hst : s.chState c ≠ 1) (hen : s.on Pg.relay Reg.RELAY_CTRL_ENABLE = true)
    (herr : s.on Pg.relay Reg.RELAY_STATE_ERR_STOP = false) (hheld : s.heldReq Pg.relay = none) (ht : t = s.chStart c) :
    t.chState c = 1 ∧ (∀ k, k < 8 → k ≠ c → t.chState k = s.chState k) ∧ (t.fld Pg.relay Reg.RELAY_STATE_ACTIVE).testBit c = true
      ∧ t.curDesc c = 32 * s.fld Pg.relay (Reg.RELAY_CH_DESC_LO c) + 2 ^ 32 * s.fld Pg.relay (Reg.RELAY_CH_DESC_HI c)
      ∧ t.fld Pg.relay (Reg.RELAY_CH_STATUS_DONE c) = 0 ∧ t.fld Pg.relay (Reg.RELAY_CH_BYTES c) = 0 ∧ t.chDesc c = none
      ∧ (∀ k, k ≠ c → t.chDesc k = s.chDesc k)
      ∧ t = { s with regs := t.regs, relay := { s.relay with descs := t.relay.descs } } ∧ s.KeepsPages t [Pg.relay] ∧ s.KeepsBytes t := by
  have hcond : ¬ (s.chState c = 1 ∨ s.on Pg.relay Reg.RELAY_CTRL_ENABLE = false ∨ s.on Pg.relay Reg.RELAY_STATE_ERR_STOP = true
      ∨ (s.heldReq Pg.relay).isSome = true) := by simp [hst, hen, herr, hheld]
  obtain ⟨a, ha⟩ : ∃ a, a = 32 * s.fld Pg.relay (Reg.RELAY_CH_DESC_LO c) + 2 ^ 32 * s.fld Pg.relay (Reg.RELAY_CH_DESC_HI c) := ⟨_, rfl⟩
  have hlo : s.fld Pg.relay (Reg.RELAY_CH_DESC_LO c) < 2 ^ 27 := s.fld_lt _ _
  have hhi : s.fld Pg.relay (Reg.RELAY_CH_DESC_HI c) < 2 ^ 32 := s.fld_lt _ _
  unfold State.chStart at ht
  dsimp only at ht
  rw [if_neg hcond, ← ha] at ht
  obtain ⟨v, hv⟩ : ∃ v, v = s.setCur c a := ⟨_, rfl⟩
  obtain ⟨w, hw⟩ : ∃ w, w = (v.setFld Pg.relay (Reg.RELAY_CH_STATUS_DONE c) 0).setFld Pg.relay (Reg.RELAY_CH_BYTES c) 0 := ⟨_, rfl⟩
  rw [← hv, ← hw] at ht
  obtain ⟨hcur, hkeep, hvw, hvt⟩ := State.setCur_effect hv
  have hww : s.WritesIn w (onPages [Pg.relay]) := hw ▸
    .setFld (.setFld (hvw hc) _ (onPages_relay (by simp only; omega))) _ (onPages_relay (by simp only; omega))
  have hwt : s.Touches w [.regs] := hw ▸ (hvt.trans (State.setFld_touches ..)).trans (State.setFld_touches ..)
  have hfld (g : Fld) (h1 : g.off ≠ 0x098 + 0x20 * c) (h2 : g.off ≠ 0x09C + 0x20 * c) : w.fld Pg.relay g = v.fld Pg.relay g := by
    rw [hw, State.fld_setRelayFld_ne _ _ h2, State.fld_setRelayFld_ne _ _ h1]
  obtain ⟨x, hx⟩ : ∃ x, x = w.putDesc c none := ⟨_, rfl⟩
  rw [← hx] at ht
  have hxr : x.regs = w.regs := by rw [hx]; rfl
  have hxup : x.RelayUp := by
    obtain ⟨h1, h2⟩ := hup
    refine .of_regs ⟨?_, ?_⟩ hxr
    · rw [hfld _ (by simp only; omega) (by simp only; omega), hkeep _ (by simp only; omega) (by simp only; omega), h1]
    · rw [hfld _ (by simp only; omega) (by simp only; omega), hkeep _ (by simp only; omega) (by simp only; omega), h2]
  obtain ⟨hrun, hother, hact, -, hdone, htt, htw, -⟩ := State.setCh_effect hxup (by decide) ht
  have hkeys (g : Fld) (h1 : g.off ≠ 0x098 + 0x20 * c) (h2 : g.off ≠ 0x00C) : t.fld Pg.relay g = w.fld Pg.relay g := by
    refine (htw.fld ?_).trans (State.fld_congr hxr ..)
    simp only [chMay, List.mem_cons, List.not_mem_nil, or_false, not_or]
    exact ⟨keyOf_relay_ne h1, keyOf_relay_ne h2⟩
  have htouch : s.Touches t [.regs, .relayDescs] := .step (.step (hwt.mono rfl) (hx ▸ w.putDesc_touches ..) rfl) htt rfl
  refine ⟨hrun, fun k hk hne => ?_, State.active_of_running hact hc hrun, ?_, ?_, ?_, ?_, fun k hk => ?_, htouch.eq_mix, ?_,
    htouch.keepsBytes rfl⟩
  · rw [hother k hne, State.chState, State.fld_congr hxr, hfld _ (by simp only; omega) (by simp only; omega),
      hkeep _ (by simp only; omega) (by simp only; omega), State.chState]
  · have hcur' : t.curDesc c = v.curDesc c := by
      unfold State.curDesc
      rw [hkeys _ (by simp) (by simp only; omega), hkeys _ (by simp) (by simp only; omega), hfld _ (by simp) (by simp), hfld _ (by simp) (by simp)]
    rw [hcur', hcur]
    omega
  · rw [hdone c, State.fld_congr hxr, hw, State.fld_setRelayFld_ne _ _ (by simp), State.fld_setFld_same _ _ _ _ (by simp)]
    rfl
  · rw [hkeys _ (by simp) (by simp only; omega), hw, State.fld_setFld_same _ _ _ _ (by simp)]
    rfl
  · rw [htt.chDesc, hx, State.chDesc_putDesc]
  · rw [htt.chDesc, hx, State.chDesc_putDesc_ne _ _ hk, hwt.chDesc]
  · exact ((hww.of_regs hxr).trans (State.keepsPages_of_chMay htw hc)).keepsPages

/-! ### Bytes moved between memories -/

/-- Bytes written to DRAM or control-cluster memory stay within their range. -/
theorem State.fabWrite_effect {a : Nat} {l : List Byte} (ht : t = s.fabWrite a l) :
    (∀ k, inCluster a = true ∨ k < a ∨ a + l.length ≤ k → t.dram.get k = s.dram.get k)
      ∧ (∀ k, inCluster a = false ∨ k + clusterBase < a ∨ a + l.length ≤ k + clusterBase → t.relay.cluster.get k = s.relay.cluster.get k)
      ∧ s.Touches t [.relayCluster, .dram] := by
  refine ⟨fun k hk => ?_, fun k hk => ?_, ht ▸ s.fabWrite_touches ..⟩
  · rw [ht, State.fabWrite]
    split
    · rfl
    · rename_i h
      exact State.get_pokeN_outside (hk.resolve_left h)
  · rw [ht, State.fabWrite]
    split
    · rename_i h
      have hin : clusterBase ≤ a := by
        simp only [inCluster, Bool.and_eq_true, decide_eq_true_eq] at h
        exact h.1
      have hout := hk.resolve_left (by simp [h])
      refine (Bytes.get_setN ..).trans (if_neg fun hin' => ?_)
      obtain ⟨h1, h2⟩ := hin'
      rw [List.length_take] at h2
      omega
    · rfl

theorem State.copyBytes_effect {d : RelayDesc} {n : Nat} (ht : t = s.copyBytes d n) :
    (∀ k, inCluster d.dst = true ∨ k < d.dst ∨ d.dst + n ≤ k → t.dram.get k = s.dram.get k)
      ∧ (∀ k, inCluster d.dst = false ∨ k + clusterBase < d.dst ∨ d.dst + n ≤ k + clusterBase →
        t.relay.cluster.get k = s.relay.cluster.get k)
      ∧ s.Touches t [.relayCluster, .dram] := by
  obtain ⟨l, hl, hlen⟩ : ∃ l, t = s.fabWrite d.dst l ∧ l.length ≤ n := by
    rw [ht, State.copyBytes]
    split
    · exact ⟨_, rfl, by simp⟩
    · exact ⟨_, rfl, by simp⟩
  obtain ⟨hd, hr, htou⟩ := State.fabWrite_effect hl
  exact ⟨fun k hk => hd k (hk.imp_right (·.imp_right fun h => by omega)), fun k hk => hr k (hk.imp_right (·.imp_right fun h => by omega)), htou⟩

/-- What a channel's end leaves: its descriptor is dropped and its STATE set. -/
theorem State.chEnd_effect {v : Nat} (hup : s.RelayUp) (hc : c < 8) (hv : v < 4) (ht : t = (s.putDesc c none).setCh c v) :
    t.chState c = v ∧ (∀ k, k ≠ c → t.chState k = s.chState k) ∧ t.chDesc c = none ∧ (∀ k, k ≠ c → t.chDesc k = s.chDesc k)
      ∧ s.Touches t [.regs, .relayDescs] ∧ s.WritesIn t (chMay c) ∧ s.WritesIn t (onPages [Pg.relay]) := by
  obtain ⟨w, hw⟩ : ∃ w, w = s.putDesc c none := ⟨_, rfl⟩
  have hwr : w.regs = s.regs := by rw [hw]; rfl
  rw [← hw] at ht
  obtain ⟨hst, hother, -, -, -, htt, htw, -⟩ := State.setCh_effect (hup.of_regs hwr) hv ht
  have hwrites := (State.WritesIn.of_regs (.refl s (chMay c)) hwr).trans htw
  refine ⟨hst, fun k hk => ?_, ?_, fun k hk => ?_, ?_, hwrites, State.keepsPages_of_chMay hwrites hc⟩
  · rw [hother k hk, State.chState, State.fld_congr hwr, State.chState]
  · rw [htt.chDesc, hw, State.chDesc_putDesc]
  · rw [htt.chDesc, hw, State.chDesc_putDesc_ne _ _ hk]
  · exact .step ((hw ▸ s.putDesc_touches ..).mono rfl) htt rfl

/-- An abort of a channel that moves nothing between memories. -/
theorem State.chAbort_idle_effect (hup : s.RelayUp) (hc : c < 8) (hst : s.chState c = 1)
    (hd : s.chDesc c = none ∨ ∃ d, s.chDesc c = some d ∧ (inRegs d.src = true ∨ inRegs d.dst = true)) (ht : t = s.chAbort c) :
    t.chState c = 0 ∧ (∀ k, k < 8 → k ≠ c → t.chState k = s.chState k) ∧ t.chDesc c = none
      ∧ t = { s with regs := t.regs, relay := { s.relay with descs := t.relay.descs } } ∧ s.KeepsPages t [Pg.relay] ∧ s.KeepsBytes t := by
  have heq : s.chAbort c = (s.putDesc c none).setCh c 0 := by
    rw [State.chAbort, if_neg (by simp [hst])]
    rcases hd with h | ⟨d, h, hr⟩
    · simp only [h]
    · simp only [h]
      rw [if_pos hr]
  rw [heq] at ht
  obtain ⟨hidle, hother, hnone, -, htt, -, htw⟩ := State.chEnd_effect hup hc (by decide) ht
  exact ⟨hidle, fun k _ hk => hother k hk, hnone, htt.eq_mix, htw.keepsPages, htt.keepsBytes rfl⟩

/-- The state of an aborted channel whose first beats have moved, and are counted. -/
def State.abortMoved (s : State) (c : Nat) (d : RelayDesc) (n : Nat) : State :=
  let s1 := { (s.copyBytes d n) with seed := s.seed + 1 }
  s1.setFld Pg.relay (Reg.RELAY_CH_BYTES c) (min (2 ^ 32 - 1) (s1.fld Pg.relay (Reg.RELAY_CH_BYTES c) + n))

theorem State.abortMoved_effect {d : RelayDesc} {n : Nat} (ht : t = s.abortMoved c d n) :
    t.fld Pg.relay (Reg.RELAY_CH_BYTES c) = min (2 ^ 32 - 1) (s.fld Pg.relay (Reg.RELAY_CH_BYTES c) + n) ∧ t.seed = s.seed + 1
      ∧ (∀ a, inCluster d.dst = true ∨ a < d.dst ∨ d.dst + n ≤ a → t.dram.get a = s.dram.get a)
      ∧ (∀ a, inCluster d.dst = false ∨ a + clusterBase < d.dst ∨ d.dst + n ≤ a + clusterBase →
        t.relay.cluster.get a = s.relay.cluster.get a)
      ∧ s.Touches t [.regs, .seed, .relayCluster, .dram] ∧ s.WritesIn t (· = keyOf (Reg.RELAY_CH_BYTES c) Pg.relay) := by
  obtain ⟨v, hv⟩ : ∃ v, v = s.copyBytes d n := ⟨_, rfl⟩
  obtain ⟨w, hw⟩ : ∃ w : State, w = { v with seed := s.seed + 1 } := ⟨_, rfl⟩
  unfold State.abortMoved at ht
  rw [← hv] at ht
  simp only [← hw] at ht
  obtain ⟨hdram, hclus, hvt⟩ := State.copyBytes_effect hv
  have hvr : w.regs = s.regs := by
    rw [hw]
    exact hvt.same .regs (by decide)
  have hwt : s.Touches w [.regs, .seed, .relayCluster, .dram] := .step (hvt.mono rfl) (hw ▸ .of_mix rfl rfl : v.Touches w [.seed]) rfl
  refine ⟨?_, ?_, fun a ha => ?_, fun a ha => ?_, ?_, ?_⟩
  · rw [ht, State.fld_setFld_of_width _ _ _ _ (by simp) (by simp only; omega), State.fld_congr hvr]
  · rw [ht, hw]
    rfl
  · rw [← hdram a ha, ht, hw]
    rfl
  · rw [← hclus a ha, ht, hw]
    rfl
  · exact .step hwt (ht ▸ State.setFld_touches ..) rfl
  · rw [ht]
    exact .setFld (.of_regs (.refl s _) hvr) _ rfl

/-- An abort of a channel that moves bytes between memories: some of the beats have moved, and are counted. -/
theorem State.chAbort_moving_effect {d : RelayDesc} (hup : s.RelayUp) (hc : c < 8) (hst : s.chState c = 1) (hd : s.chDesc c = some d)
    (hsrc : inRegs d.src = false) (hdst : inRegs d.dst = false) (ht : t = s.chAbort c) :
    t.chState c = 0 ∧ (∀ k, k < 8 → k ≠ c → t.chState k = s.chState k) ∧ t.chDesc c = none
      ∧ (∀ k, k ≠ c → t.chDesc k = s.chDesc k)
      ∧ (∃ n, n ≤ d.len ∧ t.fld Pg.relay (Reg.RELAY_CH_BYTES c) = min (2 ^ 32 - 1) (s.fld Pg.relay (Reg.RELAY_CH_BYTES c) + n))
      ∧ (∀ a, inCluster d.dst = true ∨ a < d.dst ∨ d.dst + d.len ≤ a → t.dram.get a = s.dram.get a)
      ∧ (∀ a, inCluster d.dst = false ∨ a + clusterBase < d.dst ∨ d.dst + d.len ≤ a + clusterBase →
          t.relay.cluster.get a = s.relay.cluster.get a)
      ∧ t = { s with regs := t.regs, seed := s.seed + 1, dram := t.dram, relay := t.relay } ∧ s.KeepsPages t [Pg.relay] := by
  obtain ⟨n, hn⟩ : ∃ n, n = min d.len (d.dstW * Config.free 63 s.seed) := ⟨_, rfl⟩
  have hle : n ≤ d.len := by omega
  obtain ⟨v, hv⟩ : ∃ v, v = s.abortMoved c d n := ⟨_, rfl⟩
  have heq : s.chAbort c = (v.putDesc c none).setCh c 0 := by
    rw [State.chAbort, if_neg (by simp [hst])]
    simp only [hd]
    rw [if_neg (by simp [hsrc, hdst]), ← hn, hv]
    rfl
  rw [heq] at ht
  obtain ⟨hbytes, hseed, hdram, hclus, hvt, hvw⟩ := State.abortMoved_effect hv
  have hvup : v.RelayUp := hup.of_writes hvw (keyOf_relay_ne (by simp only; omega))
  obtain ⟨hidle, hother, hnone, hdescs, htt, htw, htp⟩ := State.chEnd_effect hvup hc (by decide) ht
  have hdramt : t.dram = v.dram := htt.same .dram (by decide)
  have hclust : t.relay.cluster = v.relay.cluster := htt.same .relayCluster (by decide)
  refine ⟨hidle, fun k _ hk => (hother k hk).trans (hvw.fld (keyOf_relay_ne (by simp only; omega))), hnone, fun k hk => ?_, ⟨n, hle, ?_⟩,
    fun a ha => ?_, fun a ha => ?_, ?_, ?_⟩
  · rw [hdescs k hk, hvt.chDesc]
  · rw [← hbytes]
    refine htw.fld ?_
    simp only [chMay, List.mem_cons, List.not_mem_nil, or_false, not_or]
    exact ⟨keyOf_relay_ne (by simp), keyOf_relay_ne (by simp only; omega)⟩
  · rw [hdramt]
    exact hdram a (ha.imp_right (·.imp_right fun h => by omega))
  · rw [hclust]
    exact hclus a (ha.imp_right (·.imp_right fun h => by omega))
  · have hseedt : t.seed = s.seed + 1 := (htt.same .seed (by decide)).trans hseed
    rw [← hseedt]
    exact (State.Touches.step (hvt.mono (l' := .regs :: .seed :: .dram :: relayParts) rfl) htt rfl).eq_mix
  · exact ((hvw.mono fun a ha => ha ▸ onPages_relay (by simp only; omega)).trans htp).keepsPages

/-! ### A descriptor is fetched -/

theorem State.relayMay_iff : s.relayMay c = true ↔
    s.chState c = 1 ∧ s.fld Pg.relay Reg.COMMON_PWR_REQ_STATUS = 3 ∧ s.pwr.limiting = false := by
  simp [State.relayMay, and_assoc]

/-- A descriptor that lies in the register space is not fetched. -/
theorem State.descFetch_of_regs_effect (hup : s.RelayUp) (hc : c < 8) (hmay : s.relayMay c = true) (hd : s.chDesc c = none)
    (ha : inRegs (s.curDesc c) = true) (ht : t = s.descFetch c) :
    t.chState c = 2 ∧ t.chDesc c = none ∧ t.fld Pg.relay Reg.RELAY_EVENT_DESC_ERR = 1
      ∧ t = { s.regsOf t with relay := { s.relay with descs := t.relay.descs } } ∧ s.KeepsPages t [Pg.relay] ∧ s.KeepsBytes t := by
  obtain ⟨v, hv⟩ : ∃ v, v = (s.putDesc c none).setCh c 2 := ⟨_, rfl⟩
  have heq : s.descFetch c = v.raise Pg.relay Reg.RELAY_EVENT_DESC_ERR := by
    rw [State.descFetch, if_neg (by simp [hmay, hd])]
    dsimp only
    rw [if_pos ha, hv]
  rw [heq] at ht
  obtain ⟨hst, -, hnone, -, hvt, -, hvw⟩ := State.chEnd_effect hup hc (by decide) hv
  have htt : v.Touches t [.regs, .ctlLatches] := ht ▸ State.raise_touches ..
  have htouch : s.Touches t [.regs, .ctlLatches, .relayDescs] := .step (hvt.mono rfl) htt rfl
  refine ⟨?_, ?_, ?_, htouch.eq_mix, ?_, htouch.keepsBytes rfl⟩
  · rw [← hst, ht]
    exact State.fld_raise_ne _ _ _ _ _ (by simp) (.inl (keyOf_relay_ne (by simp only; omega)))
  · rw [htt.chDesc, hnone]
  · rw [ht]
    exact State.fld_raise_same _ _ _ (by decide) rfl
  · exact (hvw.trans (ht ▸ .raise (.refl v _) (onPages_relay (by decide)))).keepsPages

theorem State.descFetch_of_memory {b : List Byte} {d : RelayDesc} (hmay : s.relayMay c = true) (hd : s.chDesc c = none)
    (ha : inRegs (s.curDesc c) = false) (hb : b = s.fabRead (s.curDesc c) 32)
    (hdesc : d = ⟨leAt b 0 8, leAt b 8 8, leAt b 0x10 8, leAt b 0x18 4, leAt b 0x1C 4⟩) :
    s.descFetch c = if d.bad c then s.descError c d else s.putDesc c (some d) := by
  rw [State.descFetch, if_neg (by simp [hmay, hd])]
  dsimp only
  rw [if_neg (by simp [ha]), ← hb, ← hdesc]

theorem State.writeBack_effect {d : RelayDesc} {bit : Nat} (ht : t = s.writeBack c d bit) :
    (inCluster (s.curDesc c + 0x1C) = false → ∀ a, a < s.curDesc c + 0x1C ∨ s.curDesc c + 0x1C + 4 ≤ a → t.dram.get a = s.dram.get a)
      ∧ (inCluster (s.curDesc c + 0x1C) = false → ∀ a, t.relay.cluster.get a = s.relay.cluster.get a)
      ∧ s.Touches t [.relayCluster, .dram] := by
  have hlen : (leBytes 4 (d.ctrl % 2 ^ 30 + 2 ^ bit)).length = 4 := leBytes_length _ _
  obtain ⟨hdram, hclus, htou⟩ := State.fabWrite_effect (ht.trans rfl : t = s.fabWrite (s.curDesc c + 0x1C) (leBytes 4 (d.ctrl % 2 ^ 30 + 2 ^ bit)))
  rw [hlen] at hdram
  exact ⟨fun _ a ha => hdram a (.inr ha), fun h a => hclus a (.inl h), htou⟩

/-- A descriptor that fails the check is written back with ERR. -/
theorem State.descError_effect {d : RelayDesc} (hup : s.RelayUp) (hc : c < 8) (ht : t = s.descError c d) :
    t.chState c = 2 ∧ t.chDesc c = none ∧ t.fld Pg.relay Reg.RELAY_EVENT_DESC_ERR = 1 ∧ (∀ k, k ≠ c → t.chDesc k = s.chDesc k)
      ∧ t.dram = (s.writeBack c d 30).dram ∧ t.relay.cluster = (s.writeBack c d 30).relay.cluster
      ∧ (inCluster (s.curDesc c + 0x1C) = false → s.StoresDram t (s.curDesc c + 0x1C) 4)
      ∧ t = { s.regsOf t with dram := t.dram, relay := t.relay } ∧ s.KeepsPages t [Pg.relay] := by
  obtain ⟨w, hw⟩ : ∃ w, w = s.writeBack c d 30 := ⟨_, rfl⟩
  obtain ⟨v, hv⟩ : ∃ v, v = (w.putDesc c none).setCh c 2 := ⟨_, rfl⟩
  rw [State.descError, ← hw, ← hv] at ht
  obtain ⟨hdram, hclus, hwt⟩ := State.writeBack_effect hw
  have hwr : w.regs = s.regs := hwt.same .regs (by decide)
  obtain ⟨hst, -, hnone, hdescs, hvt, -, hvw⟩ := State.chEnd_effect (hup.of_regs hwr) hc (by decide) hv
  have htt : v.Touches t [.regs, .ctlLatches] := ht ▸ State.raise_touches ..
  have hwtt : w.Touches t [.regs, .ctlLatches, .relayDescs] := .step (hvt.mono rfl) htt rfl
  have htouch : s.Touches t (.regs :: .ctlLatches :: .dram :: relayParts) := .step (hwt.mono rfl) hwtt rfl
  have hdt : t.dram = w.dram := hwtt.same .dram (by decide)
  have hct : t.relay.cluster = w.relay.cluster := hwtt.same .relayCluster (by decide)
  refine ⟨?_, ?_, ?_, fun k hk => ?_, by rw [hdt, hw], by rw [hct, hw], fun ha => ⟨fun a h => ?_, fun a => ?_, fun a => ?_, fun k a => ?_⟩,
    htouch.eq_mix, ?_⟩
  · rw [← hst, ht]
    exact State.fld_raise_ne _ _ _ _ _ (by simp) (.inl (keyOf_relay_ne (by simp only; omega)))
  · rw [htt.chDesc, hnone]
  · rw [ht]
    exact State.fld_raise_same _ _ _ (by decide) rfl
  · rw [htt.chDesc, hdescs k hk, hwt.chDesc]
  · rw [hdt]
    exact hdram ha a h
  · rw [htouch.same .fstoreMem (by decide)]
  · rw [hct]
    exact hclus ha a
  · exact congrArg (fun m : RecSt => (m.drives.get k).mem.get a) (by rw [htouch.eq_mix]; rfl : t.media = s.media)
  · exact ((State.WritesIn.of_regs (.refl s _) hwr).trans (hvw.trans (ht ▸ .raise (.refl v _) (onPages_relay (by decide))))).keepsPages

/-! ### A descriptor ends -/

/-- The state in which a descriptor that has moved its bytes is written back, counted and dropped. -/
def State.descCounted (s : State) (c : Nat) (d : RelayDesc) : State :=
  let s1 := ((s.writeBack c d 31).count Pg.relay (Reg.RELAY_CH_STATUS_DONE c)).countBy Pg.relay (Reg.RELAY_CH_BYTES c) d.len
  (s1.putDesc c none).raiseIf (d.ctrl.testBit 12) Pg.relay Reg.RELAY_EVENT_CH_DONE

theorem State.descEnd_eq (s : State) (c : Nat) (d : RelayDesc) :
    s.descEnd c d = if d.ctrl.testBit 13 then (s.descCounted c d).setCh c 0 else (s.descCounted c d).setCur c d.next := rfl

/-- What the count of a descriptor writes. -/
def countMay (c a : Nat) : Prop :=
  a ∈ [keyOf (Reg.RELAY_CH_STATUS_DONE c) Pg.relay, keyOf (Reg.RELAY_CH_BYTES c) Pg.relay, keyOf Reg.RELAY_EVENT_CH_DONE Pg.relay]

theorem State.descCounted_effect {d : RelayDesc} (ht : t = s.descCounted c d) :
    t.dram = (s.writeBack c d 31).dram ∧ t.relay.cluster = (s.writeBack c d 31).relay.cluster ∧ t.chDesc c = none
      ∧ (∀ k, k ≠ c → t.chDesc k = s.chDesc k)
      ∧ t.fld Pg.relay (Reg.RELAY_CH_STATUS_DONE c) = min (s.fld Pg.relay (Reg.RELAY_CH_STATUS_DONE c) + 1) (2 ^ 24 - 1)
      ∧ t.fld Pg.relay (Reg.RELAY_CH_BYTES c) = min (s.fld Pg.relay (Reg.RELAY_CH_BYTES c) + d.len) (2 ^ 32 - 1)
      ∧ (d.ctrl.testBit 12 = true → t.fld Pg.relay Reg.RELAY_EVENT_CH_DONE = 1) ∧ t.chState c = s.chState c
      ∧ s.Touches t (.regs :: .ctlLatches :: .dram :: relayParts) ∧ s.WritesIn t (countMay c) := by
  obtain ⟨w, hw⟩ : ∃ w, w = s.writeBack c d 31 := ⟨_, rfl⟩
  obtain ⟨x, hx⟩ : ∃ x, x = w.count Pg.relay (Reg.RELAY_CH_STATUS_DONE c) := ⟨_, rfl⟩
  obtain ⟨y, hy⟩ : ∃ y, y = x.countBy Pg.relay (Reg.RELAY_CH_BYTES c) d.len := ⟨_, rfl⟩
  obtain ⟨z, hz⟩ : ∃ z, z = y.putDesc c none := ⟨_, rfl⟩
  have ht' : t = z.raiseIf (d.ctrl.testBit 12) Pg.relay Reg.RELAY_EVENT_CH_DONE := by rw [ht, hz, hy, hx, hw]; rfl
  obtain ⟨-, -, hwt⟩ := State.writeBack_effect hw
  have hwr : w.regs = s.regs := hwt.same .regs (by decide)
  have hzr : z.regs = y.regs := by rw [hz]; rfl
  have hwy : w.Touches y [.regs] := by
    rw [hy, hx]
    exact (State.count_touches ..).trans (State.countBy_touches ..)
  have hyz : y.Touches z [.relayDescs] := hz ▸ State.putDesc_touches ..
  have hzt : z.Touches t [.regs, .ctlLatches] := ht' ▸ State.raiseIf_touches ..
  have hwtt : w.Touches t [.regs, .ctlLatches, .relayDescs] := .step (.step (hwy.mono rfl) hyz rfl) hzt rfl
  have hztw : z.WritesIn t (· = keyOf Reg.RELAY_EVENT_CH_DONE Pg.relay) := ht' ▸ .raiseIf (.refl z _) rfl
  have hevent {g : Fld} (hg : g.off ≠ 0x010) : t.fld Pg.relay g = y.fld Pg.relay g :=
    (hztw.fld (keyOf_relay_ne hg)).trans (State.fld_congr hzr ..)
  refine ⟨?_, ?_, ?_, fun k hk => ?_, ?_, ?_, fun h => ?_, ?_, .step (hwt.mono rfl) hwtt rfl, ?_⟩
  · rw [hwtt.same .dram (by decide), hw]
  · rw [hwtt.same .relayCluster (by decide), hw]
  · rw [hzt.chDesc, hz, State.chDesc_putDesc]
  · rw [hzt.chDesc, hz, State.chDesc_putDesc_ne _ _ hk, hwy.chDesc, hwt.chDesc]
  · rw [hevent (by simp only; omega), hy,
      State.fld_countBy_ne _ _ _ _ _ _ (by simp) (.inl (keyOf_relay_ne (by simp))), hx, State.fld_count_same _ _ _ (by simp),
      State.fld_congr hwr]
  · rw [hevent (by simp only; omega), hy, State.fld_countBy_same _ _ _ _ (by simp), hx, State.count,
      State.fld_countBy_ne _ _ _ _ _ _ (by simp) (.inl (keyOf_relay_ne (by simp))), State.fld_congr hwr]
  · rw [ht', h]
    exact State.fld_raise_same _ _ _ (by decide) rfl
  · rw [State.chState, hevent (by simp only; omega), hy,
      State.fld_countBy_ne _ _ _ _ _ _ (by simp) (.inl (keyOf_relay_ne (by simp))), hx, State.count,
      State.fld_countBy_ne _ _ _ _ _ _ (by simp) (.inr (.inr (by simp))), State.fld_congr hwr, State.chState]
  · have hyw : s.WritesIn y (countMay c) := by
      rw [hy, hx]
      exact .countBy (.count (.of_regs (.refl s _) hwr) (by simp [countMay])) _ (by simp [countMay])
    rw [ht']
    exact .raiseIf (hyw.of_regs hzr) (by simp [countMay])

theorem State.keepsPages_of_countMay (hw : s.WritesIn t (countMay c)) (hc : c < 8) : s.WritesIn t (onPages [Pg.relay]) :=
  hw.mono fun a ha => by
    simp only [countMay, List.mem_cons, List.not_mem_nil, or_false] at ha
    rcases ha with rfl | rfl | rfl
    · exact onPages_relay (by simp only; omega)
    · exact onPages_relay (by simp only; omega)
    · exact onPages_relay (by decide)

/-- What the end of a moved descriptor leaves, from the state in which its bytes have moved. -/
theorem State.descEnd_effect {d : RelayDesc} (hup : s.RelayUp) (hc : c < 8) (hst : s.chState c = 1) (ht : t = s.descEnd c d) :
    t.dram = (s.writeBack c d 31).dram ∧ t.relay.cluster = (s.writeBack c d 31).relay.cluster ∧ t.chDesc c = none
      ∧ (∀ k, k ≠ c → t.chDesc k = s.chDesc k)
      ∧ t.fld Pg.relay (Reg.RELAY_CH_STATUS_DONE c) = min (s.fld Pg.relay (Reg.RELAY_CH_STATUS_DONE c) + 1) (2 ^ 24 - 1)
      ∧ t.fld Pg.relay (Reg.RELAY_CH_BYTES c) = min (s.fld Pg.relay (Reg.RELAY_CH_BYTES c) + d.len) (2 ^ 32 - 1)
      ∧ (d.ctrl.testBit 12 = true → t.fld Pg.relay Reg.RELAY_EVENT_CH_DONE = 1)
      ∧ (d.ctrl.testBit 13 = true → t.chState c = 0)
      ∧ (d.ctrl.testBit 13 = false → t.chState c = 1 ∧ t.curDesc c = d.next / 32 % 2 ^ 27 * 32 + 2 ^ 32 * (d.next / 2 ^ 32 % 2 ^ 32))
      ∧ s.Touches t (.regs :: .ctlLatches :: .dram :: relayParts) ∧ s.WritesIn t (onPages [Pg.relay]) := by
  obtain ⟨v, hv⟩ : ∃ v, v = s.descCounted c d := ⟨_, rfl⟩
  rw [State.descEnd_eq, ← hv] at ht
  obtain ⟨hdram, hclus, hnone, hdescs, hdone, hbytes, hevent, hch, hvt, hvw⟩ := State.descCounted_effect hv
  have hup' : v.RelayUp := hup.of_writes hvw (by
    simp only [countMay, List.mem_cons, List.not_mem_nil, or_false, not_or]
    exact ⟨keyOf_relay_ne (by simp only; omega), keyOf_relay_ne (by simp only; omega), by decide⟩)
  have hvp := State.keepsPages_of_countMay hvw hc
  cases hend : d.ctrl.testBit 13 with
  | true =>
    rw [hend, if_pos rfl] at ht
    obtain ⟨hidle, -, -, -, hkeep, htt, htw, -⟩ := State.setCh_effect hup' (by decide) ht
    have hfld {g : Fld} (h1 : g.off ≠ 0x098 + 0x20 * c) (h2 : g.off ≠ 0x00C) : t.fld Pg.relay g = v.fld Pg.relay g := htw.fld (by
      simp only [chMay, List.mem_cons, List.not_mem_nil, or_false, not_or]
      exact ⟨keyOf_relay_ne h1, keyOf_relay_ne h2⟩)
    refine ⟨(htt.same .dram (by decide)).trans hdram, (htt.same .relayCluster (by decide)).trans hclus, (htt.chDesc (by decide) c).trans hnone,
      fun k hk => (htt.chDesc (by decide) k).trans (hdescs k hk), (hkeep c).trans hdone, (hfld (by simp) (by simp only; omega)).trans hbytes,
      fun h => (hfld (by simp only; omega) (by decide)).trans (hevent h), fun _ => hidle, fun h => (nomatch h), .step hvt htt rfl,
      hvp.trans (State.keepsPages_of_chMay htw hc)⟩
  | false =>
    rw [hend, if_neg Bool.false_ne_true] at ht
    obtain ⟨hcur, hfld, htw, htt⟩ := State.setCur_effect ht
    refine ⟨(htt.same .dram (by decide)).trans hdram, (htt.same .relayCluster (by decide)).trans hclus, (htt.chDesc (by decide) c).trans hnone,
      fun k hk => (htt.chDesc (by decide) k).trans (hdescs k hk), (hfld _ (by simp) (by simp)).trans hdone, (hfld _ (by simp) (by simp)).trans hbytes,
      fun h => (hfld _ (by simp only; omega) (by simp only; omega)).trans (hevent h), fun h => (nomatch h),
      fun _ => ⟨(hfld _ (by simp) (by simp)).trans (hch.trans hst), hcur⟩, .step hvt htt rfl, hvp.trans (htw hc)⟩

end Sys2Proof.Machine
end

section
/-! PROOFS. Relay: descriptors that move a register, bus errors and the restart (R430, R432, R435). -/

set_option Elab.async false

namespace Sys2Proof.Machine

variable {s t u : State} {c k : Nat}

/-! ### A word moved from or to a register -/

theorem beatParts_word {a o : Nat} (ho : o = a - regBase) : beatParts a 4 = [(o, 15, 0, 4)] := by
  have hone : List.range (4 / 4) = [0] := rfl
  unfold beatParts
  simp only [← ho, hone, List.map_cons, List.map_nil, Nat.mul_zero, Nat.add_zero, Nat.lt_irrefl, if_false]

theorem fabRead_length (s : State) (a n : Nat) : (s.fabRead a n).length = n := by simp [State.fabRead]

theorem RelayDesc.srcAt_word {d : RelayDesc} : d.srcAt (0 * 4 + 0 * 4) = d.src := by simp [RelayDesc.srcAt]

theorem RelayDesc.dstAt_word {d : RelayDesc} : d.dstAt (0 * 4 + 0 * 4) = d.dst := by simp [RelayDesc.dstAt]

/-- A source beat of a word, in memory and in the register space. -/
theorem State.srcBeat_memory {a : Nat} (h : inRegs a = false) : s.srcBeat c a 4 = (s, .ok (s.fabRead a 4)) := by
  rw [State.srcBeat, if_neg (ne_true_of_eq_false h)]

theorem State.srcBeat_register {a o : Nat} {w : Option Word} (h : inRegs a = true) (ho : o = a - regBase) (hb : s.beatRead c o 15 = (u, w)) :
    (∀ x, w = some x → s.srcBeat c a 4 = (u, .ok (leBytes 4 x.toNat))) ∧ (w = none → s.srcBeat c a 4 = (u, .error o)) := by
  rw [State.srcBeat, if_pos h, beatParts_word ho]
  refine ⟨fun x hx => ?_, fun hn => ?_⟩
  · subst hx
    have htake : (leBytes 4 x.toNat).take 4 = leBytes 4 x.toNat := List.take_of_length_le (by rw [leBytes_length])
    simp only [List.foldl_cons, List.foldl_nil, hb, List.nil_append, List.drop_zero, htake]
  · subst hn
    simp only [List.foldl_cons, List.foldl_nil, hb]

/-- A destination beat of a word, in memory and in the register space. -/
theorem State.dstBeat_memory {a : Nat} (l : List Byte) (h : inRegs a = false) : s.dstBeat c a l = (s.fabWrite a l, none) := by
  rw [State.dstBeat, if_neg (ne_true_of_eq_false h)]

theorem State.dstBeat_register {a o : Nat} {l : List Byte} {ok : Bool} (h : inRegs a = true) (ho : o = a - regBase) (hl : l.length = 4)
    (hb : s.beatWrite c o 15 (BitVec.ofNat 32 (leNat l)) = (u, ok)) : s.dstBeat c a l = (u, if ok then none else some o) := by
  have htake : l.take 4 = l := List.take_of_length_le (by omega)
  rw [State.dstBeat, if_pos h, hl, beatParts_word ho]
  cases ok with
  | true => simp only [List.foldl_cons, List.foldl_nil, htake, pow_zero, Nat.mul_one, hb, if_true]
  | false =>
    simp only [List.foldl_cons, List.foldl_nil, htake, pow_zero, Nat.mul_one, hb, Bool.false_eq_true, if_false]

/-- A piece of one word: its source beat, then its destination beat. -/
theorem State.movePiece_word {d : RelayDesc} (hsw : d.srcW = 4) (hdw : d.dstW = 4) :
    (∀ v e, s.srcBeat c d.src 4 = (v, .error e) → s.movePiece c d 0 = (v, some (e, false)))
      ∧ ∀ v w b o, s.srcBeat c d.src 4 = (v, .ok b) → b.length = 4 → v.dstBeat c d.dst b = (w, o) →
        s.movePiece c d 0 = (w, o.map fun e => (e, true)) := by
  have hone : List.range 1 = [0] := rfl
  have hdiv : 4 / 4 = 1 := rfl
  unfold State.movePiece
  simp only [hsw, hdw, max_self, hdiv, hone, List.foldl_cons, List.foldl_nil, RelayDesc.srcAt_word, RelayDesc.dstAt_word]
  refine ⟨fun v e h => ?_, fun v w b o h hb h' => ?_⟩
  · simp only [h]
  · have htake : b.take 4 = b := List.take_of_length_le (by omega)
    simp only [h, List.nil_append, Nat.zero_mul, List.drop_zero, htake, h']

/-- A descriptor of one word that meets a register moves its one piece, and ends or fails with it. -/
theorem State.descDone_word {d : RelayDesc} (hmay : s.relayMay c = true) (hd : s.chDesc c = some d)
    (hregs : inRegs d.src = true ∨ inRegs d.dst = true) (hlen : d.len = 4) (hsw : d.srcW = 4) (hdw : d.dstW = 4) :
    (∀ v, s.movePiece c d 0 = (v, none) → v.chState c = 1 → v.chDesc c = some d → s.descDone c = v.descEnd c d)
      ∧ ∀ v e b, s.movePiece c d 0 = (v, some (e, b)) → s.descDone c = if c < 4 then v.relayError (regBase + e) 0 b else v.descError c d := by
  have hrun : s.chState c = 1 ∧ s.chDesc c = some d := ⟨(State.relayMay_iff.1 hmay).1, hd⟩
  have hpieces : d.len / max d.srcW d.dstW = 1 := by rw [hlen, hsw, hdw]; rfl
  have hstep : ¬ s.relayMay c = false := by simp [hmay]
  refine ⟨fun v hp hst hv => ?_, fun v e b hp => ?_⟩
  · have hmove : s.movePieces c d 1 0 = (v, none) := by
      rw [State.movePieces, if_pos hrun]
      simp only [hp, State.movePieces]
    unfold State.descDone
    simp only [hd, if_neg hstep, if_pos hregs, hpieces, hmove]
    rw [if_pos ⟨hst, hv⟩]
  · have hmove : s.movePieces c d 1 0 = (v, some (e, b)) := by
      rw [State.movePieces, if_pos hrun]
      simp only [hp, State.countPieces, if_true]
    unfold State.descDone
    simp only [hd, if_neg hstep, if_pos hregs, hpieces, hmove]

/-- A word moved from memory to a register. -/
theorem State.descDone_to_register {d : RelayDesc} {ok : Bool} (hmay : s.relayMay c = true) (hd : s.chDesc c = some d)
    (hsrc : inRegs d.src = false) (hdst : inRegs d.dst = true) (hlen : d.len = 4) (hsw : d.srcW = 4) (hdw : d.dstW = 4) {o : Nat}
    (ho : o = d.dst - regBase) (hb : s.beatWrite c o 15 (BitVec.ofNat 32 (leNat (s.fabRead d.src 4))) = (u, ok)) :
    (ok = true → u.chState c = 1 → u.chDesc c = some d → s.descDone c = u.descEnd c d)
      ∧ (ok = false → s.descDone c = if c < 4 then u.relayError (regBase + o) 0 true else u.descError c d) := by
  obtain ⟨hends, hfails⟩ := State.descDone_word hmay hd (.inr hdst) hlen hsw hdw
  obtain ⟨-, hpiece⟩ := State.movePiece_word (s := s) (c := c) hsw hdw
  have hmove := hpiece s u _ _ (State.srcBeat_memory hsrc) (fabRead_length s d.src 4)
    (State.dstBeat_register hdst ho (fabRead_length s d.src 4) hb)
  refine ⟨fun hok => ?_, fun hok => ?_⟩
  · subst hok
    exact hends u hmove
  · subst hok
    exact hfails u o true hmove

/-- A word moved from a register to memory. -/
theorem State.descDone_from_register {d : RelayDesc} {w : Option Word} (hmay : s.relayMay c = true) (hd : s.chDesc c = some d)
    (hsrc : inRegs d.src = true) (hdst : inRegs d.dst = false) (hlen : d.len = 4) (hsw : d.srcW = 4) (hdw : d.dstW = 4) {o : Nat}
    (ho : o = d.src - regBase) (hb : s.beatRead c o 15 = (u, w)) :
    (∀ x, w = some x → u.chState c = 1 → u.chDesc c = some d → s.descDone c = (u.fabWrite d.dst (leBytes 4 x.toNat)).descEnd c d)
      ∧ (w = none → s.descDone c = if c < 4 then u.relayError (regBase + o) 0 false else u.descError c d) := by
  obtain ⟨hends, hfails⟩ := State.descDone_word hmay hd (.inl hsrc) hlen hsw hdw
  obtain ⟨herror, hpiece⟩ := State.movePiece_word (s := s) (c := c) hsw hdw
  obtain ⟨hsome, hnone⟩ := State.srcBeat_register hsrc ho hb
  refine ⟨fun x hx hst hdu => ?_, fun hn => hfails u o false (herror u o (hnone hn))⟩
  obtain ⟨v, hv⟩ : ∃ v, v = u.fabWrite d.dst (leBytes 4 x.toNat) := ⟨_, rfl⟩
  have htou : u.Touches v [.relayCluster, .dram] := hv ▸ u.fabWrite_touches ..
  have hmove := hpiece u v _ _ (hsome x hx) (leBytes_length _ _) (hv ▸ State.dstBeat_memory _ hdst)
  rw [← hv]
  exact hends v hmove ((State.fld_congr (htou.same .regs (by decide)) ..).trans hst) ((htou.chDesc (by decide) c).trans hdu)

/-! ### A bus error -/

theorem State.anyBytes_length (s : State) (n : Nat) : (s.anyBytes n).length = n := by simp [State.anyBytes]

/-- A channel's destination range, if it lies in DRAM, or in control-cluster memory, is undefined. -/
theorem State.spoil_effect (ht : t = (s.spoil c).putDesc c none) :
    (∀ a, (∀ d, s.chDesc c = some d → inRegs d.dst = false → inCluster d.dst = false → a < d.dst ∨ d.dst + d.dstLen ≤ a) →
        t.dram.get a = s.dram.get a)
      ∧ (∀ a, (∀ d, s.chDesc c = some d → inCluster d.dst = true →
          a + clusterBase < d.dst ∨ d.dst + d.dstLen ≤ a + clusterBase) → t.relay.cluster.get a = s.relay.cluster.get a)
      ∧ t.chDesc c = none ∧ (∀ k, k ≠ c → t.chDesc k = s.chDesc k)
      ∧ s.Touches t [.seed, .relayCluster, .dram, .relayDescs] := by
  obtain ⟨v, hv⟩ : ∃ v, v = s.spoil c := ⟨_, rfl⟩
  rw [← hv] at ht
  have hvt : s.Touches v [.seed, .relayCluster, .dram] := hv ▸ s.spoil_touches c
  have hdram : t.dram = v.dram := by rw [ht]; rfl
  have hclus : t.relay.cluster = v.relay.cluster := by rw [ht]; rfl
  refine ⟨fun a ha => ?_, fun a ha => ?_, ?_, fun k hk => ?_, .step (hvt.mono rfl) (ht ▸ v.putDesc_touches ..) rfl⟩
  · rw [hdram, hv, State.spoil]
    split
    · rfl
    · rename_i d hd
      split
      · rfl
      · rename_i hr
        obtain ⟨h, -, -⟩ := State.fabWrite_effect (rfl : s.fabWrite d.dst (s.anyBytes d.dstLen) = _)
        rw [State.anyBytes_length] at h
        refine h a ?_
        cases hin : inCluster d.dst with
        | true => exact .inl rfl
        | false => exact .inr (ha d hd (Bool.eq_false_iff.2 hr) hin)
  · rw [hclus, hv, State.spoil]
    split
    · rfl
    · rename_i d hd
      split
      · rfl
      · obtain ⟨-, h, -⟩ := State.fabWrite_effect (rfl : s.fabWrite d.dst (s.anyBytes d.dstLen) = _)
        rw [State.anyBytes_length] at h
        refine h a ?_
        cases hin : inCluster d.dst with
        | true => exact .inr (ha d hd hin)
        | false => exact .inl rfl
  · rw [ht, State.chDesc_putDesc]
  · rw [ht, State.chDesc_putDesc_ne _ _ hk, hvt.chDesc]

/-- The destinations of every channel of a list are undefined, and their descriptors dropped. -/
def State.spoilAll (s : State) (l : List Nat) : State := l.foldl (fun (s : State) c => (s.spoil c).putDesc c none) s

theorem State.spoilAll_effect (l : List Nat) : ∀ {s t : State}, t = s.spoilAll l →
    (∀ a, (∀ c ∈ l, ∀ d, s.chDesc c = some d → inRegs d.dst = false → inCluster d.dst = false → a < d.dst ∨ d.dst + d.dstLen ≤ a) →
        t.dram.get a = s.dram.get a)
      ∧ (∀ a, (∀ c ∈ l, ∀ d, s.chDesc c = some d → inCluster d.dst = true →
          a + clusterBase < d.dst ∨ d.dst + d.dstLen ≤ a + clusterBase) → t.relay.cluster.get a = s.relay.cluster.get a)
      ∧ (∀ c ∈ l, t.chDesc c = none) ∧ (∀ k, s.chDesc k = none → t.chDesc k = none)
      ∧ s.Touches t [.seed, .relayCluster, .dram, .relayDescs] := by
  induction l with
  | nil =>
    intro s t ht
    subst ht
    exact ⟨fun _ _ => rfl, fun _ _ => rfl, fun c hc => (nomatch hc), fun _ h => h, .refl _ _⟩
  | cons c l ih =>
    intro s t ht
    obtain ⟨v, hv⟩ : ∃ v, v = (s.spoil c).putDesc c none := ⟨_, rfl⟩
    obtain ⟨hd1, hc1, hnone, hkeep, hvt⟩ := State.spoil_effect hv
    obtain ⟨hd2, hc2, hall, hstay, htt⟩ := ih (s := v) (t := t) (by rw [ht, hv]; rfl)
    have hsub {k : Nat} {d : RelayDesc} (h : v.chDesc k = some d) : s.chDesc k = some d := by
      by_cases hk : k = c
      · subst hk
        rw [hnone] at h
        cases h
      · rw [← hkeep k hk, h]
    refine ⟨fun a ha => ?_, fun a ha => ?_, fun k hk => ?_, fun k hk => ?_, hvt.trans htt⟩
    · rw [hd2 a fun k hk d h => ha k (List.mem_cons_of_mem _ hk) d (hsub h), hd1 a (ha c List.mem_cons_self)]
    · rw [hc2 a fun k hk d h => ha k (List.mem_cons_of_mem _ hk) d (hsub h), hc1 a (ha c List.mem_cons_self)]
    · rcases List.mem_cons.1 hk with rfl | h
      · exact hstay _ hnone
      · exact hall k h
    · refine hstay k ?_
      by_cases h : k = c
      · rw [h, hnone]
      · rw [hkeep k h, hk]

/-- What setting the STATE of channels writes. -/
def chsMay (a : Nat) : Prop := ∃ c < 8, chMay c a

theorem chsMay_of_ne {g : Fld} (h : g.off ≠ 0x00C) (h' : g.off < 0x098) : ¬ chsMay (keyOf g Pg.relay) := by
  rintro ⟨c, -, hc⟩
  simp only [chMay, List.mem_cons, List.not_mem_nil, or_false] at hc
  rcases hc with hc | hc
  · exact keyOf_relay_ne (by simp only; omega) hc
  · exact keyOf_relay_ne h hc

theorem State.keepsPages_of_chsMay (hw : s.WritesIn t chsMay) : s.WritesIn t (onPages [Pg.relay]) :=
  hw.mono fun a ⟨_, hc, ha⟩ => by
    simp only [chMay, List.mem_cons, List.not_mem_nil, or_false] at ha
    rcases ha with rfl | rfl
    · exact onPages_relay (by simp only; omega)
    · exact onPages_relay (by decide)

/-- The STATE of every channel of a list set. -/
def State.setChs (s : State) (l : List Nat) (v : Nat) : State := l.foldl (fun (s : State) c => s.setCh c v) s

theorem State.setChs_effect {v : Nat} (hv : v < 4) (l : List Nat) (hl : ∀ c ∈ l, c < 8) : ∀ {s t : State}, s.RelayUp → t = s.setChs l v →
    (∀ c ∈ l, t.chState c = v) ∧ (∀ k, k ∉ l → t.chState k = s.chState k)
      ∧ (l ≠ [] → t.fld Pg.relay Reg.RELAY_STATE_ACTIVE = t.runningBits % 2 ^ 8)
      ∧ (∀ g : Fld, g.off = 0x00C → g.lo + g.width ≤ 8 → t.fld Pg.relay g = s.fld Pg.relay g)
      ∧ s.Touches t [.regs] ∧ s.WritesIn t chsMay := by
  induction l with
  | nil =>
    intro s t _ ht
    subst ht
    exact ⟨fun c hc => (nomatch hc), fun _ _ => rfl, fun h => absurd rfl h, fun _ _ _ => rfl, .refl _ _, .refl _ _⟩
  | cons c l ih =>
    intro s t hup ht
    obtain ⟨w, hw⟩ : ∃ w, w = s.setCh c v := ⟨_, rfl⟩
    obtain ⟨hst, hother, hact, hkeep, -, hwt, hww, hwup⟩ := State.setCh_effect hup hv hw
    obtain ⟨hall, hrest, hact', hkeep', htt, htw⟩ := ih (fun k hk => hl k (List.mem_cons_of_mem _ hk)) hwup (t := t) (by rw [ht, hw]; rfl)
    refine ⟨fun k hk => ?_, fun k hk => ?_, fun _ => ?_, fun g hg hlo => (hkeep' g hg hlo).trans (hkeep g hg hlo), hwt.trans htt,
      (hww.mono fun a ha => ⟨c, hl c List.mem_cons_self, ha⟩).trans htw⟩
    · by_cases hmem : k ∈ l
      · exact hall k hmem
      · rw [hrest k hmem, (List.mem_cons.1 hk).resolve_right hmem, hst]
    · obtain ⟨hne, hmem⟩ := not_or.1 (fun h => hk (List.mem_cons.2 h))
      rw [hrest k hmem, hother k hne]
    · cases l with
      | nil =>
        have htw : t = w := by rw [ht, hw]; rfl
        rw [htw]
        exact hact
      | cons d l => exact hact' (List.cons_ne_nil _ _)

/-- The state in which the fabric's error is latched. -/
def State.errLatched (s : State) (addr kind : Nat) (write : Bool) : State :=
  (((s.setFld Pg.relay Reg.RELAY_STATE_ERR_STOP 1).setFld64 Pg.relay Reg.RELAY_ERR_ADDR_LO Reg.RELAY_ERR_ADDR_HI addr).setOn Pg.relay
    Reg.RELAY_ERR_INFO_WRITE write).setFld Pg.relay Reg.RELAY_ERR_INFO_KIND kind

theorem State.errLatched_effect {addr kind : Nat} {write : Bool} (ht : t = s.errLatched addr kind write) :
    t.on Pg.relay Reg.RELAY_STATE_ERR_STOP = true ∧ t.fld64 Pg.relay Reg.RELAY_ERR_ADDR_LO Reg.RELAY_ERR_ADDR_HI = addr % 2 ^ 64
      ∧ t.on Pg.relay Reg.RELAY_ERR_INFO_WRITE = write ∧ t.fld Pg.relay Reg.RELAY_ERR_INFO_KIND = kind % 4
      ∧ (∀ g : Fld, g.off ∉ [0x00C, 0x044, 0x048, 0x04C] → t.fld Pg.relay g = s.fld Pg.relay g)
      ∧ s.Touches t [.regs] ∧ s.WritesIn t (onPages [Pg.relay]) := by
  obtain ⟨x, hx⟩ : ∃ x, x = s.setFld Pg.relay Reg.RELAY_STATE_ERR_STOP 1 := ⟨_, rfl⟩
  obtain ⟨y, hy⟩ : ∃ y, y = x.setFld64 Pg.relay Reg.RELAY_ERR_ADDR_LO Reg.RELAY_ERR_ADDR_HI addr := ⟨_, rfl⟩
  obtain ⟨z, hz⟩ : ∃ z, z = y.setOn Pg.relay Reg.RELAY_ERR_INFO_WRITE write := ⟨_, rfl⟩
  have ht' : t = z.setFld Pg.relay Reg.RELAY_ERR_INFO_KIND kind := by rw [ht, hz, hy, hx]; rfl
  have hzt {g : Fld} (h : g.off ≠ 0x04C) : t.fld Pg.relay g = y.fld Pg.relay g := by
    rw [ht', State.fld_setRelayFld_ne _ _ h, hz, State.setOn]
    exact State.fld_setRelayFld_ne _ _ h
  have hyx {g : Fld} (h : g.off ≠ 0x044) (h' : g.off ≠ 0x048) : y.fld Pg.relay g = x.fld Pg.relay g := by
    rw [hy, State.setFld64, State.fld_setRelayFld_ne _ _ h', State.fld_setRelayFld_ne _ _ h]
  refine ⟨?_, ?_, ?_, ?_, fun g hg => ?_, ?_, ?_⟩
  · rw [State.on_eq_true, hzt (by decide), hyx (by decide) (by decide), hx, State.fld_setFld_same _ _ _ _ (by decide)]
    rfl
  · rw [State.fld64_congr (hzt (by decide)) (hzt (by decide)), hy]
    exact x.fld64_setFld64 _ (by decide) (by decide) rfl rfl (by decide)
  · have hbit : t.fld Pg.relay Reg.RELAY_ERR_INFO_WRITE = (if write then 1 else 0) := by
      rw [ht', State.fld_setFld_ne _ _ _ _ _ _ (by decide) (.inr (.inr (by decide))), hz, State.setOn, State.fld_setFld_same _ _ _ _ (by decide)]
      cases write <;> rfl
    rw [State.on, hbit]
    cases write <;> rfl
  · rw [ht']
    exact State.fld_setFld_same _ _ _ _ (by decide)
  · simp only [List.mem_cons, List.not_mem_nil, or_false, not_or] at hg
    obtain ⟨h1, h2, h3, h4⟩ := hg
    rw [hzt h4, hyx h2 h3, hx, State.fld_setRelayFld_ne _ _ h1]
  · rw [ht', hz, hy, hx]
    exact (((State.setFld_touches ..).trans (State.setFld64_touches ..)).trans (State.setOn_touches ..)).trans (State.setFld_touches ..)
  · have hxw : s.WritesIn x (onPages [Pg.relay]) := hx ▸ .setFld (.refl s _) _ (onPages_relay (by decide))
    have hyw : s.WritesIn y (onPages [Pg.relay]) := hy ▸ .setFld64 hxw _ (onPages_relay (by decide)) (onPages_relay (by decide))
    have hzw : s.WritesIn z (onPages [Pg.relay]) := hz ▸ .setOn hyw _ (onPages_relay (by decide))
    exact ht' ▸ .setFld hzw _ (onPages_relay (by decide))

/-- The channels that run. -/
def State.runningChs (s : State) : List Nat := (List.range 8).filter fun c => decide (s.chState c = 1)

theorem mem_runningChs (s : State) : c ∈ s.runningChs ↔ c < 8 ∧ s.chState c = 1 := by simp [State.runningChs]

theorem State.relayError_eq (addr kind : Nat) (write : Bool) (h : s.fld Pg.relay Reg.RELAY_STATE_ACTIVE ≠ 0) :
    s.relayError addr kind write =
      ((((s.spoilAll s.runningChs).errLatched addr kind write).setChs s.runningChs 3).raise Pg.relay Reg.RELAY_EVENT_BUS_ERR) := by
  unfold State.relayError
  dsimp only
  rw [if_neg h]
  rfl

/-- What a bus error leaves. -/
theorem State.relayError_effect {addr kind : Nat} {write : Bool} (hup : s.RelayUp) (h : s.fld Pg.relay Reg.RELAY_STATE_ACTIVE ≠ 0)
    (ht : t = s.relayError addr kind write) :
    t.on Pg.relay Reg.RELAY_STATE_ERR_STOP = true ∧ t.fld64 Pg.relay Reg.RELAY_ERR_ADDR_LO Reg.RELAY_ERR_ADDR_HI = addr % 2 ^ 64
      ∧ t.on Pg.relay Reg.RELAY_ERR_INFO_WRITE = write ∧ t.fld Pg.relay Reg.RELAY_ERR_INFO_KIND = kind % 4
      ∧ t.fld Pg.relay Reg.RELAY_EVENT_BUS_ERR = 1
      ∧ (∀ c, c < 8 → (s.chState c = 1 → t.chState c = 3 ∧ t.chDesc c = none) ∧ (s.chState c ≠ 1 → t.chState c = s.chState c))
      ∧ (∀ a, (∀ c d, c < 8 → s.chState c = 1 → s.chDesc c = some d → inRegs d.dst = false → inCluster d.dst = false →
            a < d.dst ∨ d.dst + d.dstLen ≤ a) → t.dram.get a = s.dram.get a)
      ∧ (∀ a, (∀ c d, c < 8 → s.chState c = 1 → s.chDesc c = some d → inCluster d.dst = true →
            a + clusterBase < d.dst ∨ d.dst + d.dstLen ≤ a + clusterBase) → t.relay.cluster.get a = s.relay.cluster.get a)
      ∧ t = { s.regsOf t with seed := t.seed, dram := t.dram, relay := t.relay } ∧ s.KeepsPages t [Pg.relay] := by
  rw [State.relayError_eq addr kind write h] at ht
  obtain ⟨v, hv⟩ : ∃ v, v = s.spoilAll s.runningChs := ⟨_, rfl⟩
  obtain ⟨w, hw⟩ : ∃ w, w = v.errLatched addr kind write := ⟨_, rfl⟩
  obtain ⟨x, hx⟩ : ∃ x, x = w.setChs s.runningChs 3 := ⟨_, rfl⟩
  rw [← hv, ← hw, ← hx] at ht
  obtain ⟨hdram, hclus, hnone, -, hvt⟩ := State.spoilAll_effect _ hv
  obtain ⟨hstop, haddr, hwrite, hkind, hkeep, hwt, hww⟩ := State.errLatched_effect hw
  have hvr : v.regs = s.regs := hvt.same .regs (by decide)
  have hvup : v.RelayUp := hup.of_regs hvr
  have hwup : w.RelayUp := by
    obtain ⟨h1, h2⟩ := hvup
    exact ⟨(hkeep _ (by decide)).trans h1, (hkeep _ (by decide)).trans h2⟩
  obtain ⟨hall, hrest, -, hstate, hxt, hxw⟩ := State.setChs_effect (by decide) _ (fun c hc => ((mem_runningChs s).1 hc).1) hwup hx
  have htt : x.Touches t [.regs, .ctlLatches] := ht ▸ State.raise_touches ..
  have htw : x.WritesIn t (· = keyOf Reg.RELAY_EVENT_BUS_ERR Pg.relay) := ht ▸ .raise (.refl x _) rfl
  have hvtt : v.Touches t [.regs, .ctlLatches] := .step ((hwt.trans hxt).mono rfl) htt rfl
  have hfld {g : Fld} (h1 : g.off ≠ 0x00C) (h2 : g.off < 0x098) (h3 : g.off ≠ 0x010) : t.fld Pg.relay g = w.fld Pg.relay g :=
    (htw.fld (keyOf_relay_ne h3)).trans (hxw.fld (chsMay_of_ne h1 h2))
  have hdt : t.dram = v.dram := hvtt.same .dram (by decide)
  have hct : t.relay.cluster = v.relay.cluster := hvtt.same .relayCluster (by decide)
  have htouch : s.Touches t (.regs :: .ctlLatches :: .seed :: .dram :: relayParts) := .step (hvt.mono rfl) hvtt rfl
  have hch (k : Nat) : t.chState k = x.chState k := htw.fld (keyOf_relay_ne (by simp only; omega))
  refine ⟨?_, ?_, ?_, ?_, ?_, fun c hc => ⟨fun hrun => ⟨?_, ?_⟩, fun hrun => ?_⟩, fun a ha => ?_, fun a ha => ?_, htouch.eq_mix, ?_⟩
  · rw [State.on_eq_true] at hstop ⊢
    rw [htw.fld (by decide), hstate _ rfl (by decide), hstop]
  · rw [State.fld64_congr (hfld (by decide) (by decide) (by decide)) (hfld (by decide) (by decide) (by decide)), haddr]
  · rw [State.on] at hwrite ⊢
    rw [hfld (by decide) (by decide) (by decide), hwrite]
  · rw [hfld (by decide) (by decide) (by decide), hkind]
  · rw [ht]
    exact State.fld_raise_same _ _ _ (by decide) rfl
  · rw [hch, hall c ((mem_runningChs s).2 ⟨hc, hrun⟩)]
  · rw [hvtt.chDesc, hnone c ((mem_runningChs s).2 ⟨hc, hrun⟩)]
  · rw [hch, hrest c fun h => hrun ((mem_runningChs s).1 h).2, State.chState, hkeep _ (by simp only [List.mem_cons, List.not_mem_nil, or_false]; omega),
      State.fld_congr hvr, State.chState]
  · rw [hdt]
    refine hdram a fun c hc d => ?_
    obtain ⟨hlt, hrun⟩ := (mem_runningChs s).1 hc
    exact ha c d hlt hrun
  · rw [hct]
    refine hclus a fun c hc d => ?_
    obtain ⟨hlt, hrun⟩ := (mem_runningChs s).1 hc
    exact ha c d hlt hrun
  · have hvx := hww.trans (State.keepsPages_of_chsMay hxw)
    exact (((State.WritesIn.of_regs (.refl s _) hvr).trans hvx).trans (htw.mono fun a ha => ha ▸ onPages_relay (by decide))).keepsPages

/-! ### The restart -/

theorem State.store_relayCtrl (s : State) (w : Word) : s.store Pg.relay 0x008 w = s.wr (keyOf Reg.RELAY_CTRL_ENABLE Pg.relay) w := by
  have h : isLo Pg.relay 0x008 = false := by decide
  have h' : isLo Pg.relay (0x008 - 4) = false := by decide
  unfold State.store
  simp only [h, h', Bool.false_eq_true, if_false, and_false]
  rfl

theorem writeRelayCtrl_of_clear {r : Req} {v : Word} (ha : s.accepts r Pg.relay 0x008 v = true) (hv : wmSet v Reg.RELAY_CTRL_CLEAR = true) :
    ∃ w, writeRelayCtrl r v s = (s.wr (keyOf Reg.RELAY_CTRL_ENABLE Pg.relay) w).relayClear := by
  have hbank : bankPage r Pg.relay 0x008 = Pg.relay := rfl
  rw [writeRelayCtrl, withWrite_of_accepts _ ha]
  dsimp only
  rw [if_pos hv, plainStore, hbank, State.store_relayCtrl]
  exact ⟨_, rfl⟩

theorem State.relayClear_of_stopped (h : s.on Pg.relay Reg.RELAY_STATE_ERR_STOP = true) :
    s.relayClear = (s.setFld Pg.relay Reg.RELAY_STATE_ERR_STOP 0).setChs (List.range 8) 0 := by
  rw [State.relayClear, if_pos h]
  rfl

/-- What a CLEAR of a Relay that a bus error has stopped leaves. -/
theorem State.relayClear_effect (hup : s.RelayUp) (h : s.on Pg.relay Reg.RELAY_STATE_ERR_STOP = true) (ht : t = s.relayClear) :
    t.on Pg.relay Reg.RELAY_STATE_ERR_STOP = false ∧ (∀ c, c < 8 → t.chState c = 0) ∧ t.fld Pg.relay Reg.RELAY_STATE_ACTIVE = 0
      ∧ s.Touches t [.regs] ∧ s.WritesIn t (onPages [Pg.relay]) := by
  rw [State.relayClear_of_stopped h] at ht
  obtain ⟨w, hw⟩ : ∃ w, w = s.setFld Pg.relay Reg.RELAY_STATE_ERR_STOP 0 := ⟨_, rfl⟩
  rw [← hw] at ht
  have hwk : s.WritesIn w (· = keyOf Reg.RELAY_STATE_ERR_STOP Pg.relay) := hw ▸ .setFld (.refl s _) _ rfl
  have hwup : w.RelayUp := hup.of_writes hwk (by decide)
  have hwt : s.Touches w [.regs] := hw ▸ State.setFld_touches ..
  have hww : s.WritesIn w (onPages [Pg.relay]) := hw ▸ .setFld (.refl s _) _ (onPages_relay (by decide))
  obtain ⟨hall, -, hact, hstate, htt, htw⟩ := State.setChs_effect (by decide) _ (fun c hc => List.mem_range.1 hc) hwup ht
  have hidle : ∀ c, c < 8 → t.chState c = 0 := fun c hc => hall c (List.mem_range.2 hc)
  have hnone : (List.range 8).filter (fun k => decide (t.chState k = 1)) = [] := by
    refine List.filter_eq_nil_iff.2 fun k hk => ?_
    rw [hidle k (List.mem_range.1 hk)]
    decide
  refine ⟨?_, hidle, ?_, hwt.trans htt, hww.trans (State.keepsPages_of_chsMay htw)⟩
  · rw [State.on, hstate _ rfl (by decide), hw, State.fld_setFld_same _ _ _ _ (by decide)]
    rfl
  · rw [hact (by decide), State.runningBits, hnone]
    rfl

/-! ### The obligation -/

theorem execRelay_next (hc : c < 8) (s : State) :
    (∀ r v, exec (.relayChStart r c v) s = .next (writeChCtrl r c v s)) ∧ (∀ r v, exec (.relayChAbort r c v) s = .next (writeChCtrl r c v s))
      ∧ exec (.relayDescFetch c) s = .next (s.descFetch c) ∧ exec (.relayDescDone c) s = .next (s.descDone c) := by
  have hne : ¬ 8 ≤ c := by omega
  have h1 (r v) : exec (.relayChStart r c v) s = .next (if 8 ≤ c then s else writeChCtrl r c v s) := rfl
  have h2 (r v) : exec (.relayChAbort r c v) s = .next (if 8 ≤ c then s else writeChCtrl r c v s) := rfl
  have h3 : exec (.relayDescFetch c) s = .next (if 8 ≤ c then s else s.descFetch c) := rfl
  have h4 : exec (.relayDescDone c) s = .next (if 8 ≤ c then s else s.descDone c) := rfl
  rw [if_neg hne] at h3 h4
  exact ⟨fun r v => by rw [h1, if_neg hne], fun r v => by rw [h2, if_neg hne], h3, h4⟩

/-- A start that Relay refuses. -/
theorem State.chStart_refused (h : s.chState c = 1 ∨ s.on Pg.relay Reg.RELAY_CTRL_ENABLE = false ∨ s.on Pg.relay Reg.RELAY_STATE_ERR_STOP = true
    ∨ (s.heldReq Pg.relay).isSome = true) : s.chStart c = s.reject Pg.relay := by
  unfold State.chStart
  exact if_pos h

/-- A descriptor moved between memories, written back and ended. -/
theorem State.descDone_memory_effect {d : RelayDesc} (hup : s.RelayUp) (hc : c < 8) (hmay : s.relayMay c = true) (hd : s.chDesc c = some d)
    (hsrc : inRegs d.src = false) (hdst : inRegs d.dst = false) (hu : u = (s.copyBytes d d.len).writeBack c d 31) (ht : t = s.descDone c) :
    t.dram = u.dram ∧ t.relay.cluster = u.relay.cluster ∧ t.chDesc c = none ∧ (∀ k, k ≠ c → t.chDesc k = s.chDesc k)
      ∧ t.fld Pg.relay (Reg.RELAY_CH_STATUS_DONE c) =
          min (s.fld Pg.relay (Reg.RELAY_CH_STATUS_DONE c) + 1) (2 ^ (Reg.RELAY_CH_STATUS_DONE c).width - 1)
      ∧ t.fld Pg.relay (Reg.RELAY_CH_BYTES c) =
          min (s.fld Pg.relay (Reg.RELAY_CH_BYTES c) + d.len) (2 ^ (Reg.RELAY_CH_BYTES c).width - 1)
      ∧ (d.ctrl.testBit 12 = true → t.fld Pg.relay Reg.RELAY_EVENT_CH_DONE = 1)
      ∧ (d.ctrl.testBit 13 = true → t.chState c = 0)
      ∧ (d.ctrl.testBit 13 = false → t.chState c = 1 ∧ t.curDesc c = d.next / 32 % 2 ^ 27 * 32 + 2 ^ 32 * (d.next / 2 ^ 32 % 2 ^ 32))
      ∧ t = { s.regsOf t with dram := t.dram, relay := t.relay } ∧ s.KeepsPages t [Pg.relay] := by
  have hrun : s.chState c = 1 := (State.relayMay_iff.1 hmay).1
  obtain ⟨v, hv⟩ : ∃ v, v = s.copyBytes d d.len := ⟨_, rfl⟩
  have heq : s.descDone c = v.descEnd c d := by
    unfold State.descDone
    simp only [hd]
    rw [if_neg (by simp [hmay]), if_neg (by rw [hsrc, hdst]; exact not_or.2 ⟨Bool.false_ne_true, Bool.false_ne_true⟩), hv]
  obtain ⟨-, -, hvt⟩ := State.copyBytes_effect hv
  have hvr : v.regs = s.regs := hvt.same .regs (by decide)
  obtain ⟨hdram, hclus, hnone, hdescs, hdone, hbytes, hevent, hend, hnext, htt, htw⟩ :=
    State.descEnd_effect (hup.of_regs hvr) hc ((State.fld_congr hvr ..).trans hrun) (ht.trans heq)
  rw [← hv] at hu
  rw [State.fld_congr hvr] at hdone hbytes
  refine ⟨by rw [hu, hdram], by rw [hu, hclus], hnone, fun k hk => ?_, hdone, hbytes, hevent, hend, hnext, ?_, ?_⟩
  · rw [hdescs k hk, hvt.chDesc]
  · exact (State.Touches.step (hvt.mono (l' := .regs :: .ctlLatches :: .dram :: relayParts) rfl) htt rfl).eq_mix
  · exact ((State.WritesIn.of_regs (.refl s _) hvr).trans htw).keepsPages

/-- Settles O57: each command through what a channel's new STATE leaves, and a word that meets a register through its one piece. -/
theorem relayChannels : Obligations.RelayChannels := by
  unfold Obligations.RelayChannels
  refine ⟨fun s r c v hc ha hst hreq hstart habort => ⟨fun hrun hen herr hheld => ?_, fun h => ?_⟩,
    fun s r c v hc ha hst hreq hstart habort hrun => ⟨fun h => ?_, fun d hd hsrc hdst => ?_⟩,
    fun s c a b d hc hmay hnone hcur hb hdesc => ⟨fun hregs hreq => ?_, fun hregs hbad => ?_, fun hregs hbad hreq => ?_⟩,
    fun s u c d hc hmay hd hsrc hdst hreq hu => ?_, fun s u c d ok hc hmay hd hsrc hdst hlen hsw hdw hb => ?_,
    fun s u c d w hc hmay hd hsrc hdst hlen hsw hdw hb => ?_, fun s addr kind write hact hst hreq => ?_,
    fun s r v ha hv => ⟨fun herr hst hreq => ?_, fun herr => ?_⟩⟩
  · rw [(execRelay_next hc s).1, (writeChCtrl_of_accepts ha).1 hstart habort]
    exact ⟨_, rfl, State.chStart_effect ⟨hst, hreq⟩ hc hrun hen herr hheld rfl⟩
  · rw [(execRelay_next hc s).1, (writeChCtrl_of_accepts ha).1 hstart habort, State.chStart_refused h]
    exact ⟨_, rfl, State.rejected_reject _ _⟩
  · rw [(execRelay_next hc s).2.1, (writeChCtrl_of_accepts ha).2 hstart habort]
    exact ⟨_, rfl, State.chAbort_idle_effect ⟨hst, hreq⟩ hc hrun h rfl⟩
  · rw [(execRelay_next hc s).2.1, (writeChCtrl_of_accepts ha).2 hstart habort]
    exact ⟨_, rfl, State.chAbort_moving_effect ⟨hst, hreq⟩ hc hrun hd hsrc hdst rfl⟩
  · subst hcur
    rw [(execRelay_next hc s).2.2.1]
    exact ⟨_, rfl, State.descFetch_of_regs_effect ⟨(State.relayMay_iff.1 hmay).2.1, hreq⟩ hc hmay hnone hregs rfl⟩
  · subst hcur
    rw [(execRelay_next hc s).2.2.1, State.descFetch_of_memory hmay hnone hregs hb hdesc, if_neg (by simp [hbad])]
    exact ⟨_, rfl, State.chDesc_putDesc .., fun k hk => State.chDesc_putDesc_ne _ _ hk, rfl⟩
  · subst hcur
    rw [(execRelay_next hc s).2.2.1, State.descFetch_of_memory hmay hnone hregs hb hdesc, if_pos hbad]
    exact ⟨_, rfl, State.descError_effect ⟨(State.relayMay_iff.1 hmay).2.1, hreq⟩ hc rfl⟩
  · rw [(execRelay_next hc s).2.2.2]
    exact ⟨_, rfl, State.descDone_memory_effect ⟨(State.relayMay_iff.1 hmay).2.1, hreq⟩ hc hmay hd hsrc hdst hu rfl⟩
  · obtain ⟨o, ho⟩ : ∃ o, o = d.dst - regBase := ⟨_, rfl⟩
    rw [← ho] at hb
    obtain ⟨hends, hfails⟩ := State.descDone_to_register hmay hd hsrc hdst hlen hsw hdw ho hb
    rw [← ho, (execRelay_next hc s).2.2.2]
    exact ⟨fun hok hst hdu => by rw [hends hok hst hdu], fun hok => by rw [hfails hok]⟩
  · obtain ⟨o, ho⟩ : ∃ o, o = d.src - regBase := ⟨_, rfl⟩
    rw [← ho] at hb
    obtain ⟨hends, hfails⟩ := State.descDone_from_register hmay hd hsrc hdst hlen hsw hdw ho hb
    rw [← ho, (execRelay_next hc s).2.2.2]
    exact ⟨fun x hx hst hdu => by rw [hends x hx hst hdu], fun hn => by rw [hfails hn]⟩
  · exact ⟨_, rfl, State.relayError_effect ⟨hst, hreq⟩ hact rfl⟩
  · obtain ⟨w, hw⟩ := writeRelayCtrl_of_clear ha hv
    have hexec : exec (.relayClear r v) s = .next (writeRelayCtrl r v s) := rfl
    obtain ⟨x, hx⟩ : ∃ x, x = s.wr (keyOf Reg.RELAY_CTRL_ENABLE Pg.relay) w := ⟨_, rfl⟩
    have hxw : s.WritesIn x (· = keyOf Reg.RELAY_CTRL_ENABLE Pg.relay) := hx ▸ .wr (.refl s _) _ rfl
    have hxt : s.Touches x [.regs] := hx ▸ .of_mix rfl rfl
    have hxup : x.RelayUp := .of_writes ⟨hst, hreq⟩ hxw (by decide)
    have hxerr : x.on Pg.relay Reg.RELAY_STATE_ERR_STOP = true := by
      rw [State.on_eq_true, hxw.fld (by decide)]
      exact (State.on_eq_true ..).1 herr
    obtain ⟨hstop, hidle, hact, htt, htw⟩ := State.relayClear_effect hxup hxerr rfl
    rw [hexec, hw, ← hx]
    exact ⟨_, rfl, hstop, hidle, hact, (hxt.trans htt).eq_mix,
      ((hxw.mono fun a ha => ha ▸ onPages_relay (by decide)).trans htw).keepsPages, (hxt.trans htt).keepsBytes rfl⟩
  · obtain ⟨w, hw⟩ := writeRelayCtrl_of_clear ha hv
    have hexec : exec (.relayClear r v) s = .next (writeRelayCtrl r v s) := rfl
    obtain ⟨x, hx⟩ : ∃ x, x = s.wr (keyOf Reg.RELAY_CTRL_ENABLE Pg.relay) w := ⟨_, rfl⟩
    have hxw : s.WritesIn x (· = keyOf Reg.RELAY_CTRL_ENABLE Pg.relay) := hx ▸ .wr (.refl s _) _ rfl
    have hxt : s.Touches x [.regs] := hx ▸ .of_mix rfl rfl
    have hxerr : ¬ x.on Pg.relay Reg.RELAY_STATE_ERR_STOP = true := by
      rw [State.on, hxw.fld (by decide)]
      exact ne_true_of_eq_false herr
    rw [hexec, hw, ← hx, State.relayClear, if_neg hxerr]
    exact ⟨x, rfl, hxt.eq_mix, hxw.keepsReg, hxt.keepsBytes rfl⟩

end Sys2Proof.Machine
end

section
/-! PROOFS. Serial audio ports: how a port is enabled and ends, and its frame boundaries (R405 to R414). -/

set_option Elab.async false

namespace Sys2Proof.Machine

variable {s t u : State} {p : Nat} {a y z : AudSt} {x : Time}

/-! ### A port's state and registers -/

/-- A step gives the port the state `y` and leaves the other ports. -/
def State.AudGets (s t : State) (p : Nat) (y : AudSt) : Prop := t.aud.get p = y ∧ ∀ q, q ≠ p → t.aud.get q = s.aud.get q

theorem State.AudGets.put (s : State) (p : Nat) (y : AudSt) : s.AudGets (s.putAud p y) p y :=
  ⟨Tbl.get_put_same .., fun _ hq => Tbl.get_put_ne _ _ _ _ hq⟩

theorem State.AudGets.trans (h : s.AudGets t p y) (h' : t.AudGets u p z) : s.AudGets u p z :=
  ⟨h'.1, fun q hq => (h'.2 q hq).trans (h.2 q hq)⟩

theorem State.AudGets.of_aud (h : s.AudGets t p y) (hu : u.aud = t.aud) : s.AudGets u p y := by
  obtain ⟨h1, h2⟩ := h
  exact ⟨by rw [hu, h1], fun q hq => by rw [hu, h2 q hq]⟩

theorem keyOf_aud_ne {f g : Fld} (h : f.off ≠ g.off) : keyOf f (Pg.aud p) ≠ keyOf g (Pg.aud p) := by
  unfold keyOf
  omega

theorem onPages_aud (hp : p < 4) {f : Fld} (hf : f.off < 0x1000) : onPages [Pg.aud p] (keyOf f (Pg.aud p)) :=
  onPages_single hf (by simp only [Pg.aud]; omega)

/-- The registers by which a port's frames are laid out and timed. -/
def audCfg : List Nat := [0x008, 0x01C, 0x040, 0x044, 0x048, 0x04C, 0x060, 0x078, 0x07C, 0x080, 0x800]

/-- The registers by which a port's frames are laid out are those of another state. -/
def State.SameAud (s t : State) (p : Nat) : Prop := ∀ f : Fld, f.off ∈ audCfg → t.fld (Pg.aud p) f = s.fld (Pg.aud p) f

theorem State.SameAud.trans (h : s.SameAud t p) (h' : t.SameAud u p) : s.SameAud u p := fun f hf => (h' f hf).trans (h f hf)

theorem State.SameAud.of_regs (h : t.regs = s.regs) : s.SameAud t p := fun _ _ => State.fld_congr h ..

/-- A step that writes a port's status alone leaves how its frames are laid out. -/
theorem State.SameAud.of_writes {l : List Nat} (h : s.WritesIn t fun k => ∃ o ∈ l, k = Pg.aud p * 0x1000 + o) (hl : ∀ o ∈ l, o ∉ audCfg) :
    s.SameAud t p := fun f hf => h.fld fun ⟨o, ho, hk⟩ => by
  have : f.off = o := by
    unfold keyOf at hk
    omega
  exact hl o ho (this ▸ hf)

theorem State.SameAud.on (h : s.SameAud t p) {f : Fld} (hf : f.off ∈ audCfg := by decide) : t.on (Pg.aud p) f = s.on (Pg.aud p) f := by
  rw [State.on, h f hf, State.on]

section
variable (h : s.SameAud t p)
include h

theorem State.SameAud.audMaster : t.audMaster p = s.audMaster p := h.on

theorem State.SameAud.captures : t.captures p = s.captures p := by
  rw [State.captures, h.on, State.captures]

theorem State.SameAud.audSlotCount : t.audSlotCount p = s.audSlotCount p := by
  rw [State.audSlotCount, h _ (by decide), State.audSlotCount]

theorem State.SameAud.slotClocks : t.slotClocks p = s.slotClocks p := by
  rw [State.slotClocks, h _ (by decide), State.slotClocks]

theorem State.SameAud.frameClocks : t.frameClocks p = s.frameClocks p := by
  rw [State.frameClocks, h.audSlotCount, h.slotClocks, State.frameClocks]

theorem State.SameAud.slotStart (k : Nat) : t.slotStart p k = s.slotStart p k := by
  rw [State.slotStart, h _ (by decide), h.slotClocks, h.frameClocks, State.slotStart]

theorem State.SameAud.audWord : t.audWord p = s.audWord p := by
  rw [State.audWord, h _ (by decide), State.audWord]

theorem State.SameAud.audB : t.audB p = s.audB p := by
  rw [State.audB, h.on, State.audB]

theorem State.SameAud.audRing : t.audRing p = s.audRing p := by
  unfold State.audRing
  simp only [h _ (by decide : (Reg.AUD_RING_BASE_LO).off ∈ audCfg), h _ (by decide : (Reg.AUD_RING_BASE_HI).off ∈ audCfg),
    h _ (by decide : (Reg.AUD_RING_BYTES).off ∈ audCfg)]

theorem State.SameAud.channels (m : Nat) : t.channels p m = s.channels p m := by
  rw [State.channels, h.audSlotCount, State.channels]

theorem State.SameAud.audHas (hpos : (t.aud.get p).pos = (s.aud.get p).pos) : t.audHas p = s.audHas p := by
  funext e
  rw [State.audHas, h.audRing, hpos, State.audHas]

theorem State.SameAud.slotMask : t.actv (Pg.aud p) Reg.AUD_SLOT_MASK = s.actv (Pg.aud p) Reg.AUD_SLOT_MASK := h _ (by decide)

theorem State.SameAud.pending : t.fld (Pg.aud p) Reg.COMMON_COMMIT_PENDING = s.fld (Pg.aud p) Reg.COMMON_COMMIT_PENDING := h _ (by decide)

theorem State.SameAud.syncClocks : t.syncClocks p = s.syncClocks p := by
  unfold State.syncClocks
  rw [h _ (by decide), h.slotClocks, h.frameClocks]

theorem State.SameAud.masterClock : t.masterClock p = s.masterClock p := by
  unfold State.masterClock
  rw [h.on, h _ (by decide)]

theorem State.SameAud.audMayStart (hst : (t.aud.get p).startTime = (s.aud.get p).startTime) (x : Time) :
    t.audMayStart p x = s.audMayStart p x := by
  unfold State.audMayStart
  dsimp only
  rw [h.on, State.fld64_congr (h _ (by decide)) (h _ (by decide)), h _ (by decide), hst]

end

/-- The frame sync that a master port drives. -/
def State.tdmSyncOut (s : State) (p : Nat) : Out :=
  .tdmSync p (s.syncClocks p) (1 - s.fld (Pg.aud p) Reg.AUD_FORMAT_FS_POL) (s.fld (Pg.aud p) Reg.AUD_FORMAT_BCLK_EDGE) (s.masterClock p)

theorem State.SameAud.tdmSyncOut (h : s.SameAud t p) : t.tdmSyncOut p = s.tdmSyncOut p := by
  unfold State.tdmSyncOut
  rw [h.syncClocks, h.masterClock, h _ (by decide), h _ (by decide)]

/-! ### Frames -/

/-- A port whose mask is the active one, with no request pending, keeps it. -/
theorem State.newMask_of_same (hpend : s.fld (Pg.aud p) Reg.COMMON_COMMIT_PENDING = 0)
    (hmask : (s.aud.get p).mask = s.actv (Pg.aud p) Reg.AUD_SLOT_MASK) : s.newMask p = s := by
  have hoff : s.on (Pg.aud p) Reg.COMMON_COMMIT_PENDING = false := by simp [State.on, hpend]
  unfold State.newMask
  simp only [hoff, Bool.false_and, Bool.false_eq_true, if_false]
  rw [if_pos hmask]

/-- The port's state as a frame begins. -/
def AudSt.begun (a : AudSt) (s : State) (p : Nat) (x : Time) : AudSt :=
  { a with
    blockPos := if a.blockFrames = 0 then a.pos else a.blockPos, blockTime := if a.blockFrames = 0 then x else a.blockTime
    slot := 0, frames := ⟨x, a.pos, (s.channels p a.mask).length⟩ :: a.frames.filter (s.audHas p) }

theorem State.beginFrame_effect (ha : s.aud.get p = a) (ht : t = s.beginFrame p x) :
    s.AudGets t p (a.begun s p x) ∧ t.out = (if s.audMaster p then s.tdmSyncOut p :: s.out else s.out) ∧ s.Touches t [.aud, .out] := by
  obtain ⟨v, hv⟩ : ∃ v, v = s.putAud p (a.begun s p x) := ⟨_, rfl⟩
  have heq : s.beginFrame p x = v.driveSync p := by
    rw [hv, State.beginFrame, ha]
    unfold AudSt.begun
    by_cases h : a.blockFrames = 0
    · simp only [h, if_true]
    · simp only [h, if_false]
  rw [heq] at ht
  have hregs : v.regs = s.regs := by rw [hv]; rfl
  have hsame : s.SameAud v p := .of_regs hregs
  have hget : s.AudGets v p (a.begun s p x) := hv ▸ .put ..
  have hdrive : t = if s.audMaster p then v.emit (s.tdmSyncOut p) else v := by
    rw [ht, State.driveSync, hsame.audMaster, ← hsame.tdmSyncOut]
    rfl
  have hvt : s.Touches v [.aud, .out] := (hv ▸ .of_mix rfl rfl : s.Touches v [.aud]).mono rfl
  rw [hdrive]
  split
  · exact ⟨hget.of_aud rfl, by rw [hv]; rfl, .step hvt (State.emit_touches ..) rfl⟩
  · exact ⟨hget, by rw [hv]; rfl, hvt⟩

/-- No slot of the frame in progress is missing. -/
theorem State.zeroSlots_of_none (h : s.captures p = false
    ∨ ∀ k, (s.aud.get p).slot ≤ k → k < s.audSlotCount p → (s.aud.get p).mask.testBit k = false) : s.zeroSlots p = s := by
  unfold State.zeroSlots
  dsimp only
  split
  · rename_i hc
    have hnone : (List.range (s.audSlotCount p)).filter (fun k => decide ((s.aud.get p).slot ≤ k) && (s.aud.get p).mask.testBit k) = [] := by
      refine List.filter_eq_nil_iff.2 fun k hk => ?_
      have hmask := h.resolve_left (by simp [hc]) k
      intro htrue
      rw [Bool.and_eq_true, decide_eq_true_eq] at htrue
      obtain ⟨hle, hbit⟩ := htrue
      rw [hmask hle (List.mem_range.1 hk)] at hbit
      cases hbit
    rw [hnone]
    rfl
  · rfl

/-- The frame in progress ends within its block. -/
theorem State.endFrame_of_within (ha : s.aud.get p = a)
    (h : s.captures p = false ∨ ∀ k, a.slot ≤ k → k < s.audSlotCount p → a.mask.testBit k = false) (h63 : a.frame % 64 ≠ 63) :
    s.endFrame p = s.putAud p { a with frame := a.frame + 1, blockFrames := a.blockFrames + 1 } := by
  subst ha
  unfold State.endFrame
  rw [State.zeroSlots_of_none h]
  exact if_neg h63

theorem State.endFrame_of_last (ha : s.aud.get p = a)
    (h : s.captures p = false ∨ ∀ k, a.slot ≤ k → k < s.audSlotCount p → a.mask.testBit k = false) (h63 : a.frame % 64 = 63) :
    s.endFrame p = (s.putAud p { a with frame := a.frame + 1, blockFrames := a.blockFrames + 1 }).endBlock p := by
  subst ha
  unfold State.endFrame
  rw [State.zeroSlots_of_none h]
  exact if_pos h63

theorem State.rotation_of_none (h : s.fld (Pg.aud p) Reg.AUD_ROT_WORDS = 0) : s.rotation p = s := by
  unfold State.rotation
  dsimp only
  rw [if_pos (.inr (.inl (by rw [h, Nat.zero_mod])))]

theorem State.endBlock_of_empty (h : (s.aud.get p).blockFrames = 0) : s.endBlock p = s := by
  unfold State.endBlock
  dsimp only
  rw [if_pos h]

theorem State.stampEntry_length (s : State) (p : Nat) : (s.stampEntry p).length = 32 := by
  simp only [State.stampEntry, timeBytes, List.length_append, leBytes_length]

/-- Where the next stamp of a port goes. -/
def State.stampAt (s : State) (p : Nat) : Nat :=
  s.fld (Pg.aud p) Reg.AUD_STAMP_BASE_LO * 4096 + s.fld (Pg.aud p) Reg.AUD_STAMP_BASE_HI * 2 ^ 32 + 32 * s.fld (Pg.aud p) Reg.AUD_STAMP_PTR

/-- The port's state after a block. -/
def AudSt.blockDone (a : AudSt) : AudSt := { a with blockFrames := 0, blocks := a.blocks + 1, lost := false, err := false }

/-- The block in work of a playback port ends. -/
theorem State.endBlock_of_playback (ha : s.aud.get p = a) (hne : a.blockFrames ≠ 0) (hc : s.captures p = false) :
    s.endBlock p = s.putAud p a.blockDone := by
  unfold State.endBlock
  dsimp only
  rw [ha, if_neg hne, hc, if_neg Bool.false_ne_true]
  rfl

/-- The block in work of a capture port ends with its stamp. -/
theorem State.endBlock_of_capture_effect (ha : s.aud.get p = a) (hne : a.blockFrames ≠ 0) (hc : s.captures p = true)
    (ht : t = s.endBlock p) :
    s.AudGets t p a.blockDone
      ∧ t.fld (Pg.aud p) Reg.AUD_STAMP_PTR = (s.fld (Pg.aud p) Reg.AUD_STAMP_PTR + 1) % max 1 (s.fld (Pg.aud p) Reg.AUD_STAMP_ENTRIES)
      ∧ (∀ k, k < s.stampAt p ∨ s.stampAt p + 32 ≤ k → t.dram.get k = s.dram.get k)
      ∧ s.Touches t [.regs, .dram, .aud] ∧ s.WritesIn t (· = keyOf Reg.AUD_STAMP_PTR (Pg.aud p)) := by
  obtain ⟨i, hi⟩ : ∃ i, i = (s.fld (Pg.aud p) Reg.AUD_STAMP_PTR + 1) % max 1 (s.fld (Pg.aud p) Reg.AUD_STAMP_ENTRIES) := ⟨_, rfl⟩
  obtain ⟨v, hv⟩ : ∃ v, v = s.pokeN (s.stampAt p) (s.stampEntry p) := ⟨_, rfl⟩
  obtain ⟨w, hw⟩ : ∃ w, w = v.setFld (Pg.aud p) Reg.AUD_STAMP_PTR i := ⟨_, rfl⟩
  have heq : s.endBlock p = w.putAud p a.blockDone := by
    unfold State.endBlock
    dsimp only
    rw [ha, if_neg hne, if_pos hc, ← hi, hw, hv]
    rfl
  rw [heq] at ht
  have hwaud : w.aud = s.aud := by rw [hw, hv]; rfl
  have htw : t.regs = w.regs := by rw [ht]; rfl
  have hlt : i < 2 ^ 16 := by
    have hent : s.fld (Pg.aud p) Reg.AUD_STAMP_ENTRIES < 2 ^ 16 := s.fld_lt _ _
    have := Nat.mod_lt (s.fld (Pg.aud p) Reg.AUD_STAMP_PTR + 1) (by omega : 0 < max 1 (s.fld (Pg.aud p) Reg.AUD_STAMP_ENTRIES))
    omega
  refine ⟨?_, ?_, fun k hk => ?_, ?_, ?_⟩
  · obtain ⟨h1, h2⟩ := State.AudGets.put w p a.blockDone
    rw [ht]
    exact ⟨h1, fun q hq => (h2 q hq).trans (by rw [hwaud])⟩
  · rw [State.fld_congr htw, hw, ← hi]
    exact State.fld_setFld_of_width _ _ _ _ (by decide) hlt
  · have hd : t.dram = v.dram := by rw [ht, hw]; rfl
    rw [hd, hv]
    refine State.get_pokeN_outside ?_
    rw [State.stampEntry_length]
    exact hk
  · have hvt : s.Touches v [.regs, .dram, .aud] := (hv ▸ s.pokeN_touches ..).mono rfl
    exact .step (.step hvt (hw ▸ v.setFld_touches ..) rfl) (ht ▸ w.putAud_touches ..) rfl
  · refine .of_regs ?_ htw
    rw [hw, hv]
    exact .setFld (.of_regs (.refl s _) rfl) _ rfl

/-- What a port reads of another state as its frame begins. -/
theorem AudSt.begun_congr (h : s.SameAud t p) (hpos : (t.aud.get p).pos = (s.aud.get p).pos) (y : AudSt) (x : Time) :
    y.begun t p x = y.begun s p x := by
  unfold AudSt.begun
  rw [h.channels, h.audHas hpos]

/-- What writes the status of a port. -/
theorem State.SameAud.of_key {k o : Nat} (hk : k = Pg.aud p * 0x1000 + o) (ho : o ∉ audCfg) (h : s.WritesIn t (· = k)) : s.SameAud t p :=
  .of_writes (l := [o]) (h.mono fun _ ha => ⟨o, List.mem_singleton_self _, ha.trans hk⟩) fun _ hm => List.mem_singleton.1 hm ▸ ho

/-! ### Boundaries -/

theorem State.boundary_of_waiting (h : s.audPhase p = 1) (x : Time) :
    s.boundary p x = if s.audMayStart p x then ((s.newMask p).setFld (Pg.aud p) Reg.AUD_STATE_PHASE 2).beginFrame p x else s := by
  unfold State.boundary
  simp only [h]

/-- A port that waits starts with a frame. -/
theorem State.boundary_start_effect (ha : s.aud.get p = a) (h : s.audPhase p = 1) (hmay : s.audMayStart p x = true)
    (hpend : s.fld (Pg.aud p) Reg.COMMON_COMMIT_PENDING = 0) (hmask : a.mask = s.actv (Pg.aud p) Reg.AUD_SLOT_MASK)
    (ht : t = s.boundary p x) :
    t.audPhase p = 2 ∧ s.AudGets t p (a.begun s p x) ∧ t.out = (if s.audMaster p then s.tdmSyncOut p :: s.out else s.out)
      ∧ (∀ f : Fld, f.off = 0x00C → 2 ≤ f.lo → f.lo + f.width ≤ 32 → t.fld (Pg.aud p) f = s.fld (Pg.aud p) f)
      ∧ s.Touches t [.regs, .aud, .out] ∧ s.WritesIn t (· = keyOf Reg.AUD_STATE_PHASE (Pg.aud p)) := by
  obtain ⟨v, hv⟩ : ∃ v, v = s.setFld (Pg.aud p) Reg.AUD_STATE_PHASE 2 := ⟨_, rfl⟩
  rw [State.boundary_of_waiting h, if_pos hmay, State.newMask_of_same hpend (by rw [ha, hmask]), ← hv] at ht
  have hvaud : v.aud = s.aud := by rw [hv]; rfl
  have hsv : s.WritesIn v (· = keyOf Reg.AUD_STATE_PHASE (Pg.aud p)) := hv ▸ .setFld (.refl s _) _ rfl
  have hsame : s.SameAud v p := .of_key rfl (by decide) hsv
  obtain ⟨hget, hout, hvt⟩ := State.beginFrame_effect (by rw [hvaud, ha]) ht
  have htregs : t.regs = v.regs := hvt.same .regs (by decide)
  have htouch : s.Touches v [.regs, .aud, .out] := (hv ▸ State.setFld_touches ..).mono rfl
  refine ⟨?_, ?_, ?_, fun f _ hlo hhi => ?_, .step htouch hvt rfl, hsv.of_regs htregs⟩
  · rw [State.audPhase, State.fld_congr htregs, hv]
    exact State.fld_setFld_of_width _ _ _ _ (by decide) (by decide)
  · rw [← AudSt.begun_congr hsame (by rw [hvaud]) a x]
    obtain ⟨h1, h2⟩ := hget
    exact ⟨h1, fun q hq => (h2 q hq).trans (by rw [hvaud])⟩
  · rw [hout, hsame.audMaster, hsame.tdmSyncOut, hv]
    rfl
  · rw [State.fld_congr htregs, hv]
    exact State.fld_setFld_ne _ _ _ _ _ _ hhi (.inr (.inl hlo))

/-- The state in which the frame in progress of a running port has ended. -/
def State.frameEnded (s : State) (p : Nat) : State := (s.endFrame p).rotation p

theorem State.boundary_of_running (h : s.audPhase p = 2) (hu : u = s.frameEnded p) (x : Time) :
    s.boundary p x = if (u.aud.get p).stopping then u.audStop p else (u.newMask p).beginFrame p x := by
  subst hu
  unfold State.boundary
  simp only [h]
  rfl

/-- A port whose frame has ended goes on with the next. -/
theorem State.boundary_next_effect (h : s.audPhase p = 2) (hu : u = s.frameEnded p) (hget : s.AudGets u p y) (hstop : y.stopping = false)
    (hpos : y.pos = (s.aud.get p).pos) (hsame : s.SameAud u p) (hout : u.out = s.out)
    (hpend : s.fld (Pg.aud p) Reg.COMMON_COMMIT_PENDING = 0) (hmask : y.mask = s.actv (Pg.aud p) Reg.AUD_SLOT_MASK)
    (ht : t = s.boundary p x) :
    s.AudGets t p (y.begun s p x) ∧ t.out = (if s.audMaster p then s.tdmSyncOut p :: s.out else s.out) ∧ u.Touches t [.aud, .out] := by
  obtain ⟨hy, hothers⟩ := hget
  rw [State.boundary_of_running h hu, hy, hstop, if_neg Bool.false_ne_true,
    State.newMask_of_same (hsame.pending.trans hpend) (by rw [hy, hmask, hsame.slotMask])] at ht
  obtain ⟨hget', hout', hut⟩ := State.beginFrame_effect hy ht
  rw [AudSt.begun_congr hsame (by rw [hy, hpos])] at hget'
  refine ⟨State.AudGets.trans ⟨hy, hothers⟩ hget', ?_, hut⟩
  rw [hout', hsame.audMaster, hsame.tdmSyncOut, hout]

/-- What a port that stops leaves, once its block has ended. -/
theorem State.audStop_effect {w : State} (hw : w = s.endBlock p) (hy : w.aud.get p = y)
    (hpend : w.fld (Pg.aud p) Reg.COMMON_COMMIT_PENDING = 0) (hmask : y.mask = w.actv (Pg.aud p) Reg.AUD_SLOT_MASK) (ht : t = s.audStop p) :
    t.audPhase p = 0 ∧ w.AudGets t p { y with stopping := false } ∧ t.out = (if w.audMaster p then .tdmStop p :: w.out else w.out)
      ∧ w.Touches t [.regs, .aud, .out] ∧ w.WritesIn t (· = keyOf Reg.AUD_STATE_PHASE (Pg.aud p)) := by
  obtain ⟨v, hv⟩ : ∃ v, v = w.setFld (Pg.aud p) Reg.AUD_STATE_PHASE 0 := ⟨_, rfl⟩
  obtain ⟨z, hz⟩ : ∃ z, z = v.putAud p { y with stopping := false } := ⟨_, rfl⟩
  have hvaud : v.aud = w.aud := by rw [hv]; rfl
  have heq : s.audStop p = if z.audMaster p then z.emit (.tdmStop p) else z := by
    unfold State.audStop
    dsimp only
    rw [← hw, State.newMask_of_same hpend (by rw [hy, hmask]), ← hv, hvaud, hy, ← hz]
  have hzregs : z.regs = v.regs := by rw [hz]; rfl
  have hwv : w.WritesIn v (· = keyOf Reg.AUD_STATE_PHASE (Pg.aud p)) := hv ▸ .setFld (.refl w _) _ rfl
  have hwz : w.WritesIn z (· = keyOf Reg.AUD_STATE_PHASE (Pg.aud p)) := hwv.of_regs hzregs
  have hsame : w.SameAud z p := .of_key rfl (by decide) hwz
  have hphase : z.audPhase p = 0 := by
    rw [State.audPhase, State.fld_congr hzregs, hv]
    exact State.fld_setFld_of_width _ _ _ _ (by decide) (by decide)
  have hget : w.AudGets z p { y with stopping := false } := by
    obtain ⟨h1, h2⟩ := State.AudGets.put v p { y with stopping := false }
    rw [hz]
    exact ⟨h1, fun q hq => (h2 q hq).trans (by rw [hvaud])⟩
  have htouch : w.Touches z [.regs, .aud, .out] := .step ((hv ▸ w.setFld_touches ..).mono rfl) (hz ▸ v.putAud_touches ..) rfl
  have hzout : z.out = w.out := by rw [hz, hv]; rfl
  rw [heq, hsame.audMaster] at ht
  rw [ht]
  split
  · exact ⟨hphase, hget.of_aud rfl, by rw [← hzout]; rfl, .step htouch (State.emit_touches ..) rfl, hwz.of_regs rfl⟩
  · exact ⟨hphase, hget, hzout, htouch, hwz⟩

/-- The port's state after a frame within its block. -/
def AudSt.frameDone (a : AudSt) : AudSt := { a with frame := a.frame + 1, blockFrames := a.blockFrames + 1 }

/-- No slot of the frame in progress of a port in the state `a` is missing. -/
def State.SlotsTaken (s : State) (p : Nat) (a : AudSt) : Prop :=
  s.captures p = false ∨ ∀ k, a.slot ≤ k → k < s.audSlotCount p → a.mask.testBit k = false

theorem State.frameEnded_of_within (ha : s.aud.get p = a) (h : s.SlotsTaken p a) (h63 : a.frame % 64 ≠ 63)
    (hrot : s.fld (Pg.aud p) Reg.AUD_ROT_WORDS = 0) : s.frameEnded p = s.putAud p a.frameDone := by
  unfold State.frameEnded
  rw [State.endFrame_of_within ha h h63]
  exact State.rotation_of_none hrot

/-- Where a boundary rotates the ring, it shows that. -/
theorem State.frameEnded_of_rotation_effect {ch : Nat} (ha : s.aud.get p = a) (h : s.SlotsTaken p a) (h63 : a.frame % 64 ≠ 63)
    (hch : ch = (s.channels p a.mask).length) (hne : ch ≠ 0) (hrot : s.fld (Pg.aud p) Reg.AUD_ROT_WORDS % ch ≠ 0)
    (hoff : s.on (Pg.aud p) Reg.AUD_STATE_ROTATED = false) (hu : u = s.frameEnded p) :
    s.AudGets u p a.frameDone ∧ u.on (Pg.aud p) Reg.AUD_STATE_ROTATED = true ∧ u.fld (Pg.aud p) Reg.AUD_EVENT_ROTATED = 1
      ∧ s.Touches u [.regs, .ctlLatches, .aud]
      ∧ s.WritesIn u (· ∈ [keyOf Reg.AUD_STATE_ROTATED (Pg.aud p), keyOf Reg.AUD_EVENT_ROTATED (Pg.aud p)]) := by
  obtain ⟨v, hv⟩ : ∃ v, v = s.putAud p a.frameDone := ⟨_, rfl⟩
  obtain ⟨w, hw⟩ : ∃ w, w = v.setFld (Pg.aud p) Reg.AUD_STATE_ROTATED 1 := ⟨_, rfl⟩
  have hget : s.AudGets v p a.frameDone := hv ▸ .put ..
  have hvr : v.regs = s.regs := by rw [hv]; rfl
  have hcond : ¬ ((v.channels p (v.aud.get p).mask).length = 0
      ∨ v.fld (Pg.aud p) Reg.AUD_ROT_WORDS % (v.channels p (v.aud.get p).mask).length = 0
      ∨ v.on (Pg.aud p) Reg.AUD_STATE_ROTATED = true) := by
    have hlen : (v.channels p (v.aud.get p).mask).length = ch := by
      rw [State.SameAud.channels (.of_regs hvr), hget.1, hch]
      rfl
    rw [hlen, State.fld_congr hvr, State.on_congr hvr, hoff]
    simp [hne, hrot]
  have heq : s.frameEnded p = w.raise (Pg.aud p) Reg.AUD_EVENT_ROTATED := by
    unfold State.frameEnded State.rotation
    dsimp only
    rw [State.endFrame_of_within ha h h63, hw, hv]
    rw [hv] at hcond
    exact if_neg hcond
  rw [heq] at hu
  have hwu : w.Touches u [.regs, .ctlLatches] := hu ▸ State.raise_touches ..
  have haud : u.aud = v.aud := (hwu.same .aud (by decide)).trans (by rw [hw]; rfl)
  have hsv : s.Touches v [.regs, .ctlLatches, .aud] := (hv ▸ s.putAud_touches ..).mono rfl
  have hww : s.WritesIn w (· ∈ [keyOf Reg.AUD_STATE_ROTATED (Pg.aud p), keyOf Reg.AUD_EVENT_ROTATED (Pg.aud p)]) :=
    hw ▸ .setFld (.of_regs (.refl s _) hvr) _ (by simp)
  refine ⟨hget.of_aud haud, ?_, ?_, .step (.step hsv (hw ▸ v.setFld_touches ..) rfl) hwu rfl, hu ▸ .raise hww (by simp)⟩
  · rw [State.on_eq_true, hu, State.fld_raise_ne _ _ _ _ _ (by decide) (.inl (keyOf_aud_ne (by decide))), hw]
    exact State.fld_setFld_of_width _ _ _ _ (by decide) (by decide)
  · rw [hu]
    exact State.fld_raise_same _ _ _ (by decide) rfl

/-- A block of a capture port that ends with its frame. -/
theorem State.frameEnded_of_block_effect (ha : s.aud.get p = a) (h : s.SlotsTaken p a) (h63 : a.frame % 64 = 63)
    (hc : s.captures p = true) (hrot : s.fld (Pg.aud p) Reg.AUD_ROT_WORDS = 0) (hu : u = s.frameEnded p) :
    s.AudGets u p a.frameDone.blockDone
      ∧ u.fld (Pg.aud p) Reg.AUD_STAMP_PTR = (s.fld (Pg.aud p) Reg.AUD_STAMP_PTR + 1) % max 1 (s.fld (Pg.aud p) Reg.AUD_STAMP_ENTRIES)
      ∧ (∀ k, k < s.stampAt p ∨ s.stampAt p + 32 ≤ k → u.dram.get k = s.dram.get k)
      ∧ s.Touches u [.regs, .dram, .aud] ∧ s.WritesIn u (· = keyOf Reg.AUD_STAMP_PTR (Pg.aud p)) := by
  obtain ⟨v, hv⟩ : ∃ v, v = s.putAud p a.frameDone := ⟨_, rfl⟩
  obtain ⟨w, hw⟩ : ∃ w, w = v.endBlock p := ⟨_, rfl⟩
  have hget : s.AudGets v p a.frameDone := hv ▸ .put ..
  have hvr : v.regs = s.regs := by rw [hv]; rfl
  have hdram : v.dram = s.dram := by rw [hv]; rfl
  have hat : v.stampAt p = s.stampAt p := by simp only [State.stampAt, State.fld_congr hvr]
  obtain ⟨hgw, hptr, hout, hvt, hvw⟩ := State.endBlock_of_capture_effect hget.1 (Nat.succ_ne_zero _)
    ((State.SameAud.of_regs hvr).captures.trans hc) hw
  have hwrot : w.fld (Pg.aud p) Reg.AUD_ROT_WORDS = 0 := by
    rw [hvw.fld (keyOf_aud_ne (by decide)), State.fld_congr hvr, hrot]
  have heq : s.frameEnded p = w := by
    unfold State.frameEnded
    rw [State.endFrame_of_last ha h h63]
    have hendv : (s.putAud p { a with frame := a.frame + 1, blockFrames := a.blockFrames + 1 }).endBlock p = w := by rw [hw, hv]; rfl
    rw [hendv]
    exact State.rotation_of_none hwrot
  rw [heq] at hu
  subst hu
  refine ⟨hget.trans hgw, ?_, fun k hk => ?_, ?_, (State.WritesIn.of_regs (.refl s _) hvr).trans hvw⟩
  · rw [hptr, State.fld_congr hvr, State.fld_congr hvr]
  · rw [hout k (by rwa [hat]), hdram]
  · exact .step ((hv ▸ s.putAud_touches ..).mono rfl) hvt rfl

/-! ### Boundaries of a running port -/

section
variable (ha : a = s.aud.get p) (hphase : s.audPhase p = 2) (hpend : s.fld (Pg.aud p) Reg.COMMON_COMMIT_PENDING = 0)
  (hmask : a.mask = s.actv (Pg.aud p) Reg.AUD_SLOT_MASK) (htaken : s.SlotsTaken p a) (ht : t = s.boundary p x)
include ha hphase hpend hmask htaken ht

/-- A frame within its block follows another. -/
theorem State.boundary_within_effect (hstop : a.stopping = false) (hrot : s.fld (Pg.aud p) Reg.AUD_ROT_WORDS = 0) (h63 : a.frame % 64 ≠ 63) :
    s.AudGets t p (a.frameDone.begun s p x) ∧ t.out = (if s.audMaster p then s.tdmSyncOut p :: s.out else s.out)
      ∧ s.Touches t [.aud, .out] := by
  obtain ⟨u, hu⟩ : ∃ u, u = s.putAud p a.frameDone := ⟨_, rfl⟩
  have heq : u = s.frameEnded p := hu.trans (State.frameEnded_of_within ha.symm htaken h63 hrot).symm
  have hur : u.regs = s.regs := by rw [hu]; rfl
  obtain ⟨hget, hout, hut⟩ := State.boundary_next_effect (y := a.frameDone) hphase heq (hu ▸ .put ..) hstop (by rw [← ha]; rfl)
    (.of_regs hur) (by rw [hu]; rfl) hpend hmask ht
  exact ⟨hget, hout, .step ((hu ▸ s.putAud_touches ..).mono rfl) hut rfl⟩

/-- A frame follows another after lost words that are no whole frame. -/
theorem State.boundary_rotation_effect {ch : Nat} (hstop : a.stopping = false) (h63 : a.frame % 64 ≠ 63)
    (hch : ch = (s.channels p a.mask).length) (hne : ch ≠ 0) (hrot : s.fld (Pg.aud p) Reg.AUD_ROT_WORDS % ch ≠ 0)
    (hoff : s.on (Pg.aud p) Reg.AUD_STATE_ROTATED = false) :
    t.on (Pg.aud p) Reg.AUD_STATE_ROTATED = true ∧ t.fld (Pg.aud p) Reg.AUD_EVENT_ROTATED = 1
      ∧ s.AudGets t p (a.frameDone.begun s p x) ∧ t.out = (if s.audMaster p then s.tdmSyncOut p :: s.out else s.out)
      ∧ s.Touches t [.regs, .ctlLatches, .aud, .out]
      ∧ s.KeepsRegs t [keyOf Reg.AUD_STATE_ROTATED (Pg.aud p), keyOf Reg.AUD_EVENT_ROTATED (Pg.aud p)] := by
  obtain ⟨u, hu⟩ : ∃ u, u = s.frameEnded p := ⟨_, rfl⟩
  obtain ⟨hgu, hon, hev, hsu, hsw⟩ := State.frameEnded_of_rotation_effect ha.symm htaken h63 hch hne hrot hoff hu
  have hsame : s.SameAud u p := .of_writes (l := [0x00C, 0x010]) (hsw.mono fun k hk => by
    simp only [List.mem_cons, List.not_mem_nil, or_false] at hk
    rcases hk with rfl | rfl
    · exact ⟨0x00C, by simp, rfl⟩
    · exact ⟨0x010, by simp, rfl⟩) (by decide)
  obtain ⟨hget, hout, hut⟩ := State.boundary_next_effect (y := a.frameDone) hphase hu hgu hstop (by rw [← ha]; rfl) hsame
    (hsu.same .out (by decide)) hpend hmask ht
  have htr : t.regs = u.regs := hut.same .regs (by decide)
  exact ⟨(State.on_congr htr ..).trans hon, (State.fld_congr htr ..).trans hev, hget, hout, .step (hsu.mono rfl) hut rfl,
    (hsw.of_regs htr).keepsRegs⟩

/-- The last frame of a block of a capture port is followed by the first of the next. -/
theorem State.boundary_block_effect (hstop : a.stopping = false) (hc : s.captures p = true) (hrot : s.fld (Pg.aud p) Reg.AUD_ROT_WORDS = 0)
    (h63 : a.frame % 64 = 63) :
    s.AudGets t p (a.frameDone.blockDone.begun s p x)
      ∧ t.fld (Pg.aud p) Reg.AUD_STAMP_PTR = (s.fld (Pg.aud p) Reg.AUD_STAMP_PTR + 1) % max 1 (s.fld (Pg.aud p) Reg.AUD_STAMP_ENTRIES)
      ∧ s.StoresDram t (s.stampAt p) 32 ∧ t.out = (if s.audMaster p then s.tdmSyncOut p :: s.out else s.out)
      ∧ s.Touches t [.regs, .dram, .aud, .out] ∧ s.KeepsRegs t [keyOf Reg.AUD_STAMP_PTR (Pg.aud p)] := by
  obtain ⟨u, hu⟩ : ∃ u, u = s.frameEnded p := ⟨_, rfl⟩
  obtain ⟨hgu, hptr, hdram, hsu, hsw⟩ := State.frameEnded_of_block_effect ha.symm htaken h63 hc hrot hu
  have hsame : s.SameAud u p := .of_key rfl (by decide) hsw
  obtain ⟨hget, hout, hut⟩ := State.boundary_next_effect (y := a.frameDone.blockDone) hphase hu hgu hstop (by rw [← ha]; rfl) hsame
    (hsu.same .out (by decide)) hpend hmask ht
  have htr : t.regs = u.regs := hut.same .regs (by decide)
  have htouch : s.Touches t [.regs, .dram, .aud, .out] := .step (hsu.mono rfl) hut rfl
  refine ⟨hget, (State.fld_congr htr ..).trans hptr, ⟨fun k hk => ?_, fun k => ?_, fun k => ?_, fun j k => ?_⟩, hout, htouch,
    (hsw.of_regs htr).keepsReg⟩
  · rw [hut.same .dram (by decide)]
    exact hdram k hk
  · rw [htouch.same .fstoreMem (by decide)]
  · rw [htouch.same .relayCluster (by decide)]
  · exact congrArg (fun m : RecSt => (m.drives.get j).mem.get k) (by rw [htouch.eq_mix]; rfl : t.media = s.media)

/-- A playback port that stops ends its block with its frame. -/
theorem State.boundary_stop_effect (hstop : a.stopping = true) (hc : s.captures p = false) (hrot : s.fld (Pg.aud p) Reg.AUD_ROT_WORDS = 0)
    (h63 : a.frame % 64 ≠ 63) :
    t.audPhase p = 0 ∧ t.out = (if s.audMaster p then .tdmStop p :: s.out else s.out)
      ∧ s.AudGets t p { a.frameDone.blockDone with stopping := false }
      ∧ s.Touches t [.regs, .aud, .out] ∧ s.KeepsRegs t [keyOf Reg.AUD_STATE_PHASE (Pg.aud p)] := by
  obtain ⟨u, hu⟩ : ∃ u, u = s.putAud p a.frameDone := ⟨_, rfl⟩
  obtain ⟨w, hw⟩ : ∃ w, w = u.putAud p a.frameDone.blockDone := ⟨_, rfl⟩
  have heq : u = s.frameEnded p := hu.trans (State.frameEnded_of_within ha.symm htaken h63 hrot).symm
  have hgu : s.AudGets u p a.frameDone := hu ▸ .put ..
  have hgw : u.AudGets w p a.frameDone.blockDone := hw ▸ .put ..
  have hur : u.regs = s.regs := by rw [hu]; rfl
  have hwr : w.regs = s.regs := by rw [hw, hu]; rfl
  have hend : w = u.endBlock p := by
    rw [State.endBlock_of_playback hgu.1 (Nat.succ_ne_zero _) ((State.SameAud.of_regs hur).captures.trans hc), hw]
  have hsame : s.SameAud w p := .of_regs hwr
  rw [State.boundary_of_running hphase heq, hgu.1] at ht
  have hstop' : a.frameDone.stopping = true := hstop
  rw [if_pos hstop'] at ht
  obtain ⟨h0, hget, hout, hwt, hww⟩ := State.audStop_effect hend hgw.1 (hsame.pending.trans hpend) (by rw [hsame.slotMask, ← hmask]; rfl) ht
  refine ⟨h0, ?_, (hgu.trans hgw).trans hget, ?_, ((State.WritesIn.of_regs (.refl s _) hwr).trans hww).keepsReg⟩
  · rw [hout, hsame.audMaster, hw, hu]
    rfl
  · have hsu : s.Touches u [.regs, .aud, .out] := (hu ▸ s.putAud_touches ..).mono rfl
    exact .step (.step hsu (hw ▸ u.putAud_touches ..) rfl) hwt rfl

end

end Sys2Proof.Machine
end

section
/-! PROOFS. Serial audio ports: ENABLE, sync edges and the words of a slot (R404 to R413). -/

set_option Elab.async false

namespace Sys2Proof.Machine

variable {s t u : State} {p : Nat} {a y z : AudSt} {x : Time}

/-! ### ENABLE -/

theorem pageBlk_aud (hp : p < 4) : pageBlk (Pg.aud p) = some (.aud, p) := by
  interval_cases p <;> decide

/-- An audio port owns no lane. -/
theorem settleWith_aud (hp : p < 4) (s : State) : s.settleWith (Pg.aud p) = s.settle (Pg.aud p) := by
  have hnone : (List.range 46).filter (fun k => decide (laneOwner k = some (Pg.aud p))) = [] := by
    interval_cases p <;> decide
  rw [State.settleWith, hnone]
  rfl

theorem execAudEnable_next (hp : p < 4) (r : Req) (v : Word) (s : State) :
    exec (.audEnable r p v) s = .next ((writeAudCtrl r p v s).settle (Pg.aud p)) := by
  have h : exec (.audEnable r p v) s = .next (if 4 ≤ p then s else writeAt r (Pg.aud p) 0x008 v s) := rfl
  rw [h, if_neg (by omega), writeAt_ctrl (by simp only [Pg.aud, Pg.pkt2110]; omega) (by interval_cases p <;> decide), writeCtrl, pageBlk_aud hp,
    settleWith_aud hp]

/-- The lowest bit of CTRL is ENABLE. -/
theorem getLsbD_zero_eq (w : Word) : w.getLsbD 0 = decide (Word.bits w 0 1 = 1) := by
  have h := Word.testBit_bits w 0 1 0
  simp only [Nat.zero_lt_one, decide_true, Bool.true_and] at h
  have hlt : Word.bits w 0 1 < 2 := Nat.mod_lt _ (by decide)
  obtain ⟨e, he⟩ : ∃ e, e = Word.bits w 0 1 := ⟨_, rfl⟩
  rw [← he] at hlt h ⊢
  rw [← h]
  interval_cases e <;> decide

/-- The state with CTRL of a port written. -/
def State.audStored (s : State) (p : Nat) (w : Word) : State := s.wr (keyOf Reg.AUD_CTRL_ENABLE (Pg.aud p)) w

/-- What a write of CTRL does where ENABLE rises, and where it falls. -/
theorem writeAudCtrl_of_accepts {r : Req} {v : Word} (ha : s.accepts r (Pg.aud p) 0x008 v = true) :
    (s.on (Pg.aud p) Reg.AUD_CTRL_ENABLE = false → wfld (s.written r (Pg.aud p) 0x008 v) Reg.AUD_CTRL_ENABLE = 1 →
      writeAudCtrl r p v s = if s.audBad p then (s.raise (Pg.aud p) Reg.AUD_EVENT_CFG_ERR).reject (Pg.aud p)
        else (s.audStored p (s.written r (Pg.aud p) 0x008 v)).audSwitch p true)
      ∧ (s.on (Pg.aud p) Reg.AUD_CTRL_ENABLE = true → wfld (s.written r (Pg.aud p) 0x008 v) Reg.AUD_CTRL_ENABLE = 0 →
        writeAudCtrl r p v s = (s.audStored p (s.written r (Pg.aud p) 0x008 v)).audSwitch p false) := by
  obtain ⟨w, hw⟩ : ∃ w, w = s.written r (Pg.aud p) 0x008 v := ⟨_, rfl⟩
  have hbank : bankPage r (Pg.aud p) 0x008 = Pg.aud p := by
    simp only [bankPage, Pg.aud, Pg.hostq, Pg.coll]
    rw [if_neg (by omega), if_neg (by omega)]
  have hkey : Pg.aud p * 0x1000 + 0x008 = keyOf Reg.AUD_CTRL_ENABLE (Pg.aud p) := rfl
  have hold : (s.rd (keyOf Reg.AUD_CTRL_ENABLE (Pg.aud p))).getLsbD 0 = s.on (Pg.aud p) Reg.AUD_CTRL_ENABLE := getLsbD_zero_eq _
  have hnew : w.getLsbD 0 = decide (wfld w Reg.AUD_CTRL_ENABLE = 1) := getLsbD_zero_eq w
  rw [writeAudCtrl, withWrite_of_accepts _ ha, hbank, ← hw]
  simp only [hkey, hold, hnew]
  refine ⟨fun hoff hon => ?_, fun hon hoff => ?_⟩
  · simp only [hoff, hon, decide_true, Bool.not_false, Bool.and_self, Bool.true_and, if_true]
    rfl
  · simp only [hon, hoff, Bool.not_true, Bool.false_and, Bool.false_eq_true, if_false, Bool.true_and]
    rfl

theorem State.audStored_fld (w : Word) {f : Fld} (hf : f.off ≠ 0x008) :
    (s.audStored p w).fld (Pg.aud p) f = s.fld (Pg.aud p) f := State.fld_wr_ne s w (keyOf_aud_ne hf)

/-- The registers that a port shows as it starts, before its pointers are checked. -/
def State.audCleared (s : State) (p : Nat) : State :=
  let g := Pg.aud p
  let s1 := (((s.setFld g Reg.AUD_UNDERRUN_WORDS 0).setFld g Reg.AUD_OVERRUN_WORDS 0).setFld g Reg.AUD_FRAME_ERRORS 0).setFld g
    Reg.AUD_ROT_WORDS 0
  ((s1.setFld g Reg.AUD_STATE_ROTATED 0).setFld g Reg.AUD_STATE_CLOCK_LOST 0).setFld g Reg.AUD_STATE_PHASE 1

theorem State.fld_setAudFld_ne (s : State) {f g : Fld} (v : Nat) (h : g.off ≠ f.off) :
    (s.setFld (Pg.aud p) f v).fld (Pg.aud p) g = s.fld (Pg.aud p) g :=
  State.fld_of_rd (by rw [State.rd_setFld, if_neg (keyOf_aud_ne h)])

theorem State.audCleared_effect (ht : t = s.audCleared p) :
    t.fld (Pg.aud p) Reg.AUD_STATE_PHASE = 1 ∧ t.fld (Pg.aud p) Reg.AUD_UNDERRUN_WORDS = 0
      ∧ t.fld (Pg.aud p) Reg.AUD_OVERRUN_WORDS = 0 ∧ t.fld (Pg.aud p) Reg.AUD_FRAME_ERRORS = 0
      ∧ t.fld (Pg.aud p) Reg.AUD_STATE_ROTATED = 0 ∧ t.fld (Pg.aud p) Reg.AUD_STATE_CLOCK_LOST = 0
      ∧ (∀ f : Fld, f.off ∉ [0x00C, 0x068, 0x06C, 0x070, 0x074] → t.fld (Pg.aud p) f = s.fld (Pg.aud p) f)
      ∧ s.Touches t [.regs] ∧ (p < 4 → s.WritesIn t (onPages [Pg.aud p])) := by
  obtain ⟨b, hb⟩ : ∃ b, b = s.setFld (Pg.aud p) Reg.AUD_UNDERRUN_WORDS 0 := ⟨_, rfl⟩
  obtain ⟨c, hc⟩ : ∃ c, c = b.setFld (Pg.aud p) Reg.AUD_OVERRUN_WORDS 0 := ⟨_, rfl⟩
  obtain ⟨d, hd⟩ : ∃ d, d = c.setFld (Pg.aud p) Reg.AUD_FRAME_ERRORS 0 := ⟨_, rfl⟩
  obtain ⟨e, he⟩ : ∃ e, e = d.setFld (Pg.aud p) Reg.AUD_ROT_WORDS 0 := ⟨_, rfl⟩
  obtain ⟨f, hf⟩ : ∃ f, f = e.setFld (Pg.aud p) Reg.AUD_STATE_ROTATED 0 := ⟨_, rfl⟩
  obtain ⟨g, hg⟩ : ∃ g, g = f.setFld (Pg.aud p) Reg.AUD_STATE_CLOCK_LOST 0 := ⟨_, rfl⟩
  have ht' : t = g.setFld (Pg.aud p) Reg.AUD_STATE_PHASE 1 := by rw [ht, hg, hf, he, hd, hc, hb]; rfl
  have hte {k : Fld} (h : k.off ≠ 0x00C) : t.fld (Pg.aud p) k = e.fld (Pg.aud p) k := by
    rw [ht', State.fld_setAudFld_ne _ _ h, hg, State.fld_setAudFld_ne _ _ h, hf, State.fld_setAudFld_ne _ _ h]
  refine ⟨?_, ?_, ?_, ?_, ?_, ?_, fun k hk => ?_, ?_, fun hp => ?_⟩
  · rw [ht']
    exact State.fld_setFld_of_width _ _ _ _ (by decide) (by decide)
  · rw [hte (by decide), he, State.fld_setAudFld_ne _ _ (by decide), hd, State.fld_setAudFld_ne _ _ (by decide), hc,
      State.fld_setAudFld_ne _ _ (by decide), hb]
    exact State.fld_setFld_of_width _ _ _ _ (by decide) (by decide)
  · rw [hte (by decide), he, State.fld_setAudFld_ne _ _ (by decide), hd, State.fld_setAudFld_ne _ _ (by decide), hc]
    exact State.fld_setFld_of_width _ _ _ _ (by decide) (by decide)
  · rw [hte (by decide), he, State.fld_setAudFld_ne _ _ (by decide), hd]
    exact State.fld_setFld_of_width _ _ _ _ (by decide) (by decide)
  · rw [ht', State.fld_setFld_ne _ _ _ _ _ _ (by decide) (.inr (.inl (by decide))), hg,
      State.fld_setFld_ne _ _ _ _ _ _ (by decide) (.inr (.inr (by decide))), hf]
    exact State.fld_setFld_of_width _ _ _ _ (by decide) (by decide)
  · rw [ht', State.fld_setFld_ne _ _ _ _ _ _ (by decide) (.inr (.inl (by decide))), hg]
    exact State.fld_setFld_of_width _ _ _ _ (by decide) (by decide)
  · simp only [List.mem_cons, List.not_mem_nil, or_false, not_or] at hk
    obtain ⟨h1, h2, h3, h4, h5⟩ := hk
    rw [hte h1, he, State.fld_setAudFld_ne _ _ h2, hd, State.fld_setAudFld_ne _ _ h5, hc, State.fld_setAudFld_ne _ _ h4, hb,
      State.fld_setAudFld_ne _ _ h3]
  · have hse : s.Touches e [.regs] := by
      rw [he, hd, hc, hb]
      exact (((State.setFld_touches ..).trans (State.setFld_touches ..)).trans (State.setFld_touches ..)).trans (State.setFld_touches ..)
    rw [ht', hg, hf]
    exact ((hse.trans (State.setFld_touches ..)).trans (State.setFld_touches ..)).trans (State.setFld_touches ..)
  · have hcw : s.WritesIn c (onPages [Pg.aud p]) := by
      rw [hc, hb]
      exact .setFld (.setFld (.refl s _) _ (onPages_aud hp (by decide))) _ (onPages_aud hp (by decide))
    have hew : s.WritesIn e (onPages [Pg.aud p]) := by
      rw [he, hd]
      exact .setFld (.setFld hcw _ (onPages_aud hp (by decide))) _ (onPages_aud hp (by decide))
    have hgw : s.WritesIn g (onPages [Pg.aud p]) := by
      rw [hg, hf]
      exact .setFld (.setFld hew _ (onPages_aud hp (by decide))) _ (onPages_aud hp (by decide))
    exact ht' ▸ .setFld hgw _ (onPages_aud hp (by decide))

/-- A pointer of a port set to 0 where it lies beyond its ring. -/
def State.ptrChecked (s : State) (p : Nat) (f size : Fld) : State :=
  if s.fld (Pg.aud p) f < s.fld (Pg.aud p) size then s else s.setFld (Pg.aud p) f 0

theorem State.ptrChecked_effect {f size : Fld} (hf : f.lo + f.width ≤ 32) (ht : t = s.ptrChecked p f size) :
    t.fld (Pg.aud p) f = (if s.fld (Pg.aud p) f < s.fld (Pg.aud p) size then s.fld (Pg.aud p) f else 0)
      ∧ s.Touches t [.regs] ∧ s.WritesIn t (· = keyOf f (Pg.aud p)) := by
  rw [ht, State.ptrChecked]
  split
  · exact ⟨rfl, .refl s _, .refl s _⟩
  · exact ⟨State.fld_setFld_of_width _ _ _ _ hf (Nat.two_pow_pos _), State.setFld_touches .., .setFld (.refl s _) _ rfl⟩

theorem State.audStart_eq (s : State) (p : Nat) {v : State}
    (hv : v = ((s.audCleared p).ptrChecked p Reg.AUD_DEV_PTR Reg.AUD_RING_BYTES).ptrChecked p Reg.AUD_STAMP_PTR Reg.AUD_STAMP_ENTRIES) :
    s.audStart p = v.putAud p { base := v.fld (Pg.aud p) Reg.AUD_DEV_PTR, startTime := v.time, mask := v.actv (Pg.aud p) Reg.AUD_SLOT_MASK } := by
  rw [hv]
  rfl

/-- What a port that starts leaves. -/
theorem State.audStart_effect (hp : p < 4) (ht : t = s.audStart p) :
    t.fld (Pg.aud p) Reg.AUD_STATE_PHASE = 1 ∧ t.fld (Pg.aud p) Reg.AUD_UNDERRUN_WORDS = 0
      ∧ t.fld (Pg.aud p) Reg.AUD_OVERRUN_WORDS = 0 ∧ t.fld (Pg.aud p) Reg.AUD_FRAME_ERRORS = 0
      ∧ t.fld (Pg.aud p) Reg.AUD_STATE_ROTATED = 0 ∧ t.fld (Pg.aud p) Reg.AUD_STATE_CLOCK_LOST = 0
      ∧ s.AudGets t p {
          base := if s.fld (Pg.aud p) Reg.AUD_DEV_PTR < s.fld (Pg.aud p) Reg.AUD_RING_BYTES then s.fld (Pg.aud p) Reg.AUD_DEV_PTR else 0
          startTime := s.time, mask := s.actv (Pg.aud p) Reg.AUD_SLOT_MASK }
      ∧ t.fld (Pg.aud p) Reg.AUD_CTRL_ENABLE = s.fld (Pg.aud p) Reg.AUD_CTRL_ENABLE
      ∧ s.Touches t [.regs, .aud] ∧ s.WritesIn t (onPages [Pg.aud p]) := by
  obtain ⟨b, hb⟩ : ∃ b, b = s.audCleared p := ⟨_, rfl⟩
  obtain ⟨c, hc⟩ : ∃ c, c = b.ptrChecked p Reg.AUD_DEV_PTR Reg.AUD_RING_BYTES := ⟨_, rfl⟩
  obtain ⟨d, hd⟩ : ∃ d, d = c.ptrChecked p Reg.AUD_STAMP_PTR Reg.AUD_STAMP_ENTRIES := ⟨_, rfl⟩
  obtain ⟨hphase, hunder, hover, herrs, hrot, hlost, hkeep, hsb, hsw⟩ := State.audCleared_effect hb
  obtain ⟨hdev, hbc, hbw⟩ := State.ptrChecked_effect (by decide) hc
  obtain ⟨-, hcd, hcw⟩ := State.ptrChecked_effect (by decide) hd
  rw [State.audStart_eq s p (v := d) (by rw [hd, hc, hb])] at ht
  have htr : t.regs = d.regs := by rw [ht]; rfl
  have hfld {f : Fld} (h1 : f.off ≠ 0x05C) (h2 : f.off ≠ 0x064) : d.fld (Pg.aud p) f = b.fld (Pg.aud p) f := by
    rw [hcw.fld (keyOf_aud_ne h2), hbw.fld (keyOf_aud_ne h1)]
  have hregs {f : Fld} (h1 : f.off ≠ 0x05C) (h2 : f.off ≠ 0x064) : t.fld (Pg.aud p) f = b.fld (Pg.aud p) f :=
    (State.fld_congr htr ..).trans (hfld h1 h2)
  have hsd : s.Touches d [.regs] := (hsb.trans hbc).trans hcd
  have htime : d.time = s.time := hsd.same .time (by decide)
  have hdaud : d.aud = s.aud := hsd.same .aud (by decide)
  have hptr : d.fld (Pg.aud p) Reg.AUD_DEV_PTR
      = if s.fld (Pg.aud p) Reg.AUD_DEV_PTR < s.fld (Pg.aud p) Reg.AUD_RING_BYTES then s.fld (Pg.aud p) Reg.AUD_DEV_PTR else 0 := by
    rw [hcw.fld (keyOf_aud_ne (by decide)), hdev, hkeep _ (by decide), hkeep _ (by decide)]
  have hmask : d.actv (Pg.aud p) Reg.AUD_SLOT_MASK = s.actv (Pg.aud p) Reg.AUD_SLOT_MASK := by
    rw [State.actv, hfld (by decide) (by decide), hkeep _ (by decide), State.actv]
  refine ⟨(hregs (by decide) (by decide)).trans hphase, (hregs (by decide) (by decide)).trans hunder,
    (hregs (by decide) (by decide)).trans hover, (hregs (by decide) (by decide)).trans herrs, (hregs (by decide) (by decide)).trans hrot,
    (hregs (by decide) (by decide)).trans hlost, ?_, (hregs (by decide) (by decide)).trans (hkeep _ (by decide)),
    .step (hsd.mono rfl) (ht ▸ d.putAud_touches ..) rfl, ?_⟩
  · rw [hptr, htime, hmask] at ht
    obtain ⟨h1, h2⟩ := State.AudGets.put d p {
      base := if s.fld (Pg.aud p) Reg.AUD_DEV_PTR < s.fld (Pg.aud p) Reg.AUD_RING_BYTES then s.fld (Pg.aud p) Reg.AUD_DEV_PTR else 0
      startTime := s.time, mask := s.actv (Pg.aud p) Reg.AUD_SLOT_MASK }
    rw [ht]
    exact ⟨h1, fun q hq => (h2 q hq).trans (by rw [hdaud])⟩
  · have hdw : s.WritesIn d (onPages [Pg.aud p]) := ((hsw hp).trans (hbw.mono fun k hk => hk ▸ onPages_aud hp (by decide))).trans
      (hcw.mono fun k hk => hk ▸ onPages_aud hp (by decide))
    exact hdw.of_regs htr

/-- A port that is enabled holds its domain on. -/
theorem State.settle_of_enabledAud (hp : p < 4) (hm : outputMode s.ctl.mode = true) (hen : s.fld (Pg.aud p) Reg.AUD_CTRL_ENABLE = 1) :
    s.Touches (s.settle (Pg.aud p)) [.pwrRising] := by
  refine State.settle_of_held ?_
  have hrun : s.running (Pg.aud p) = true := by
    unfold State.running
    rw [pageBlk_aud hp]
    have hon : s.on (Pg.aud p) Reg.COMMON_CTRL_ENABLE = true := (State.on_eq_true ..).2 hen
    simp only [hm, hon, Bool.and_self]
  unfold State.heldOn State.powerRuns
  rw [pageBlk_aud hp]
  simp only [hrun, Bool.or_true, Bool.true_or]

theorem State.audStored_enable (s : State) (p : Nat) (w : Word) :
    (s.audStored p w).fld (Pg.aud p) Reg.AUD_CTRL_ENABLE = wfld w Reg.AUD_CTRL_ENABLE := by
  rw [State.audStored, State.fld, State.rd_wr_same]
  rfl

/-- What a rise of ENABLE leaves. -/
theorem State.audEnabled_effect {w : Word} (hp : p < 4) (hw : wfld w Reg.AUD_CTRL_ENABLE = 1) (hm : outputMode s.ctl.mode = true)
    (ht : t = ((s.audStored p w).audSwitch p true).settle (Pg.aud p)) :
    t.fld (Pg.aud p) Reg.AUD_STATE_PHASE = 1 ∧ t.fld (Pg.aud p) Reg.AUD_UNDERRUN_WORDS = 0
      ∧ t.fld (Pg.aud p) Reg.AUD_OVERRUN_WORDS = 0 ∧ t.fld (Pg.aud p) Reg.AUD_FRAME_ERRORS = 0
      ∧ t.fld (Pg.aud p) Reg.AUD_STATE_ROTATED = 0 ∧ t.fld (Pg.aud p) Reg.AUD_STATE_CLOCK_LOST = 0
      ∧ s.AudGets t p {
          base := if s.fld (Pg.aud p) Reg.AUD_DEV_PTR < s.fld (Pg.aud p) Reg.AUD_RING_BYTES then s.fld (Pg.aud p) Reg.AUD_DEV_PTR else 0
          startTime := s.time, mask := s.actv (Pg.aud p) Reg.AUD_SLOT_MASK }
      ∧ t = { s with regs := t.regs, aud := t.aud, pwr := t.pwr } ∧ s.KeepsPages t [Pg.aud p] ∧ s.KeepsBytes t := by
  obtain ⟨v, hv⟩ : ∃ v, v = s.audStored p w := ⟨_, rfl⟩
  obtain ⟨u, hu⟩ : ∃ u, u = v.audStart p := ⟨_, rfl⟩
  have hmode : outputMode v.ctl.mode = true := by rw [hv]; exact hm
  have hswitch : v.audSwitch p true = u := by
    rw [hu, State.audSwitch, if_pos rfl, if_pos hmode]
  rw [← hv, hswitch] at ht
  obtain ⟨h1, h2, h3, h4, h5, h6, hget, hen, hvu, hvuw⟩ := State.audStart_effect hp hu
  have hsv : s.Touches v [.regs] := hv ▸ State.wr_touches ..
  have hsvw : s.WritesIn v (onPages [Pg.aud p]) := hv ▸ .wr (.refl s _) _ (onPages_aud hp (by decide))
  have hfld {f : Fld} (hf : f.off ≠ 0x008) : v.fld (Pg.aud p) f = s.fld (Pg.aud p) f := hv ▸ State.audStored_fld w hf
  have huen : u.fld (Pg.aud p) Reg.AUD_CTRL_ENABLE = 1 := by rw [hen, hv, State.audStored_enable, hw]
  have humode : outputMode u.ctl.mode = true := by
    rw [hvu.eq_mix]
    exact hmode
  have hut : u.Touches t [.pwrRising] := ht ▸ State.settle_of_enabledAud hp humode huen
  have htr : t.regs = u.regs := hut.same .regs (by decide)
  have htouch : s.Touches t (.regs :: .aud :: pwrParts) := .step (.step (hsv.mono rfl) hvu rfl) hut rfl
  have hvaud : v.aud = s.aud := by rw [hv]; rfl
  have hvtime : v.time = s.time := by rw [hv]; rfl
  have hvmask : v.actv (Pg.aud p) Reg.AUD_SLOT_MASK = s.actv (Pg.aud p) Reg.AUD_SLOT_MASK := hfld (by decide)
  rw [hfld (by decide), hfld (by decide), hvtime, hvmask] at hget
  obtain ⟨hg, hothers⟩ := hget
  refine ⟨(State.fld_congr htr ..).trans h1, (State.fld_congr htr ..).trans h2, (State.fld_congr htr ..).trans h3,
    (State.fld_congr htr ..).trans h4, (State.fld_congr htr ..).trans h5, (State.fld_congr htr ..).trans h6,
    State.AudGets.of_aud ⟨hg, fun q hq => (hothers q hq).trans (by rw [hvaud])⟩ (hut.same .aud (by decide)), htouch.eq_mix,
    ((hsvw.trans hvuw).of_regs htr).keepsPages, htouch.keepsBytes rfl⟩

/-- What a rise of ENABLE on a configuration that is not allowed leaves. -/
theorem State.audRefused_effect (hst : s.fld (Pg.aud p) Reg.COMMON_PWR_REQ_STATUS = 3) (hreq : s.fld (Pg.aud p) Reg.COMMON_PWR_REQ_REQ = 3)
    (ht : t = ((s.raise (Pg.aud p) Reg.AUD_EVENT_CFG_ERR).reject (Pg.aud p)).settle (Pg.aud p)) :
    t.fld (Pg.aud p) Reg.AUD_EVENT_CFG_ERR = 1 ∧ t.fld (Pg.aud p) Reg.COMMON_EVENT_STATE_REJECT = 1
      ∧ s.Kept t [keyOf Reg.AUD_EVENT_CFG_ERR (Pg.aud p)] := by
  obtain ⟨u, hu⟩ : ∃ u, u = (s.raise (Pg.aud p) Reg.AUD_EVENT_CFG_ERR).reject (Pg.aud p) := ⟨_, rfl⟩
  have huw : s.WritesIn u (· ∈ [keyOf Reg.AUD_EVENT_CFG_ERR (Pg.aud p)]) := by
    rw [hu]
    exact .reject (.raise (.refl s _) (List.mem_singleton_self _)) (List.mem_singleton_self _)
  have hmem {f : Fld} (hf : f.off ≠ 0x010) : keyOf f (Pg.aud p) ∉ [keyOf Reg.AUD_EVENT_CFG_ERR (Pg.aud p)] := fun h =>
    keyOf_aud_ne hf (List.mem_singleton.1 h)
  rw [← hu, State.settle_of_on ((huw.fld (hmem (by decide))).trans hst) ((huw.fld (hmem (by decide))).trans hreq)] at ht
  subst ht
  refine ⟨?_, ?_, .of_writes huw ?_⟩
  · rw [hu]
    exact State.fld_raise_of_one rfl rfl (State.fld_raise_same _ _ _ (by decide) rfl)
  · rw [hu]
    exact (State.rejected_reject _ _).1
  · rw [hu]
    exact (State.raise_touches ..).trans (State.reject_touches ..)

/-- The write of CTRL changes nothing by which a port's frames are laid out. -/
theorem State.audStored_same {w : Word} (hv : t = s.audStored p w) {f : Fld} (hf : f.off ≠ 0x008) :
    t.fld (Pg.aud p) f = s.fld (Pg.aud p) f := hv ▸ State.audStored_fld w hf

/-- What a fall of ENABLE in a frame leaves. -/
theorem State.audStopping_effect {w : Word} (hw : wfld w Reg.AUD_CTRL_ENABLE = 0)
    (hst : s.fld (Pg.aud p) Reg.COMMON_PWR_REQ_STATUS = 3) (hreq : s.fld (Pg.aud p) Reg.COMMON_PWR_REQ_REQ = 3) (ha : a = s.aud.get p)
    (hphase : s.audPhase p = 2) (hclock : s.on (Pg.aud p) Reg.AUD_STATE_CLOCK_LOST = false)
    (ht : t = ((s.audStored p w).audSwitch p false).settle (Pg.aud p)) :
    t.on (Pg.aud p) Reg.AUD_CTRL_ENABLE = false ∧ s.AudGets t p { a with stopping := true } ∧ t = { s with regs := t.regs, aud := t.aud }
      ∧ s.KeepsRegs t [keyOf Reg.AUD_CTRL_ENABLE (Pg.aud p)] ∧ s.KeepsBytes t := by
  obtain ⟨v, hv⟩ : ∃ v, v = s.audStored p w := ⟨_, rfl⟩
  obtain ⟨u, hu⟩ : ∃ u, u = v.putAud p { a with stopping := true } := ⟨_, rfl⟩
  have hfld {f : Fld} (hf : f.off ≠ 0x008) := State.audStored_same hv hf
  have hvp : v.audPhase p = 2 := (hfld (by decide)).trans hphase
  have hvc : v.on (Pg.aud p) Reg.AUD_STATE_CLOCK_LOST = false := by rw [State.on, hfld (by decide), ← State.on, hclock]
  have hva : v.aud.get p = a := by rw [ha, hv]; rfl
  have hur : u.regs = v.regs := by rw [hu]; rfl
  have hswitch : v.audSwitch p false = u := by
    rw [State.audSwitch, if_neg Bool.false_ne_true, if_neg (by rw [hvp]; decide), if_neg (by rw [hvp, hvc]; decide), hva, hu]
  rw [← hv, hswitch, State.settle_of_on ((State.fld_congr hur ..).trans ((hfld (by decide)).trans hst))
    ((State.fld_congr hur ..).trans ((hfld (by decide)).trans hreq))] at ht
  subst ht
  have hvw : s.WritesIn v (· = keyOf Reg.AUD_CTRL_ENABLE (Pg.aud p)) := hv ▸ .wr (.refl s _) _ rfl
  have htouch : s.Touches t [.regs, .aud] := .step ((hv ▸ State.wr_touches .. : s.Touches v [.regs]).mono rfl) (hu ▸ v.putAud_touches ..) rfl
  refine ⟨?_, ?_, htouch.eq_mix, (hvw.of_regs hur).keepsReg, htouch.keepsBytes rfl⟩
  · rw [State.on, State.fld_congr hur, hv, State.audStored_enable, hw]
    rfl
  · obtain ⟨h1, h2⟩ := State.AudGets.put v p { a with stopping := true }
    rw [hu]
    exact ⟨h1, fun q hq => (h2 q hq).trans (by rw [hv]; rfl)⟩

/-- What a fall of ENABLE before the first frame leaves. -/
theorem State.audDisabled_effect {w : Word} (hw : wfld w Reg.AUD_CTRL_ENABLE = 0)
    (hst : s.fld (Pg.aud p) Reg.COMMON_PWR_REQ_STATUS = 3) (hreq : s.fld (Pg.aud p) Reg.COMMON_PWR_REQ_REQ = 3) (ha : a = s.aud.get p)
    (hphase : s.audPhase p = 1) (hblock : a.blockFrames = 0) (hpend : s.fld (Pg.aud p) Reg.COMMON_COMMIT_PENDING = 0)
    (hmask : a.mask = s.actv (Pg.aud p) Reg.AUD_SLOT_MASK) (ht : t = ((s.audStored p w).audSwitch p false).settle (Pg.aud p)) :
    t.on (Pg.aud p) Reg.AUD_CTRL_ENABLE = false ∧ t.audPhase p = 0 ∧ s.AudGets t p { a with stopping := false }
      ∧ t.out = (if s.audMaster p then .tdmStop p :: s.out else s.out)
      ∧ t = { s with regs := t.regs, out := t.out, aud := t.aud }
      ∧ s.KeepsRegs t [keyOf Reg.AUD_CTRL_ENABLE (Pg.aud p), keyOf Reg.AUD_STATE_PHASE (Pg.aud p)] ∧ s.KeepsBytes t := by
  obtain ⟨v, hv⟩ : ∃ v, v = s.audStored p w := ⟨_, rfl⟩
  obtain ⟨u, hu⟩ : ∃ u, u = v.audStop p := ⟨_, rfl⟩
  have hfld {f : Fld} (hf : f.off ≠ 0x008) := State.audStored_same hv hf
  have hvp : v.audPhase p = 1 := (hfld (by decide)).trans hphase
  have hva : v.aud.get p = a := by rw [ha, hv]; rfl
  have hend : v = v.endBlock p := (State.endBlock_of_empty (by rw [hva, hblock])).symm
  obtain ⟨h0, hget, hout, hvu, hvuw⟩ := State.audStop_effect hend hva ((hfld (by decide)).trans hpend)
    (hmask.trans (hfld (f := actOf Reg.AUD_SLOT_MASK) (by decide)).symm) hu
  have hswitch : v.audSwitch p false = u := by
    rw [State.audSwitch, if_neg Bool.false_ne_true, if_neg (by rw [hvp]; decide), if_pos (.inl hvp), hu]
  have hufld {f : Fld} (hf : f.off ≠ 0x00C) : u.fld (Pg.aud p) f = v.fld (Pg.aud p) f := hvuw.fld (keyOf_aud_ne hf)
  rw [← hv, hswitch, State.settle_of_on ((hufld (by decide)).trans ((hfld (by decide)).trans hst))
    ((hufld (by decide)).trans ((hfld (by decide)).trans hreq))] at ht
  subst ht
  have hmaster : v.audMaster p = s.audMaster p := by rw [State.audMaster, State.on, hfld (by decide), ← State.on, State.audMaster]
  have hvw : s.WritesIn v (· ∈ [keyOf Reg.AUD_CTRL_ENABLE (Pg.aud p), keyOf Reg.AUD_STATE_PHASE (Pg.aud p)]) :=
    hv ▸ .wr (.refl s _) _ (by simp)
  have htouch : s.Touches t [.regs, .aud, .out] := .step ((hv ▸ State.wr_touches .. : s.Touches v [.regs]).mono rfl) hvu rfl
  obtain ⟨hg, hothers⟩ := hget
  refine ⟨?_, h0, ⟨hg, fun q hq => (hothers q hq).trans (by rw [hv]; rfl)⟩, ?_, htouch.eq_mix,
    (hvw.trans (hvuw.mono fun k hk => by simp [hk])).keepsRegs, htouch.keepsBytes rfl⟩
  · rw [State.on, hufld (by decide), hv, State.audStored_enable, hw]
    rfl
  · rw [hout, hmaster, hv]
    rfl

/-! ### Sync edges of a slave port -/

/-- The state as a slave port's frame boundary finds it after a wrong number of bit clocks. -/
def State.clocksWrong (s : State) (p : Nat) : State :=
  let s1 := (s.count (Pg.aud p) Reg.AUD_FRAME_ERRORS).raise (Pg.aud p) Reg.AUD_EVENT_FRAME_ERR
  s1.putAud p { s1.aud.get p with err := true }

theorem State.clocksWrong_effect (ha : a = s.aud.get p) (ht : t = s.clocksWrong p) :
    s.AudGets t p { a with err := true } ∧ t.fld (Pg.aud p) Reg.AUD_EVENT_FRAME_ERR = 1
      ∧ t.fld (Pg.aud p) Reg.AUD_FRAME_ERRORS =
          min (s.fld (Pg.aud p) Reg.AUD_FRAME_ERRORS + 1) (2 ^ Reg.AUD_FRAME_ERRORS.width - 1)
      ∧ s.Touches t [.regs, .ctlLatches, .aud]
      ∧ s.WritesIn t (· ∈ [keyOf Reg.AUD_EVENT_FRAME_ERR (Pg.aud p), keyOf Reg.AUD_FRAME_ERRORS (Pg.aud p)]) := by
  obtain ⟨v, hv⟩ : ∃ v, v = s.count (Pg.aud p) Reg.AUD_FRAME_ERRORS := ⟨_, rfl⟩
  obtain ⟨w, hw⟩ : ∃ w, w = v.raise (Pg.aud p) Reg.AUD_EVENT_FRAME_ERR := ⟨_, rfl⟩
  have hsw : s.Touches w [.regs, .ctlLatches] := .step ((hv ▸ State.count_touches .. : s.Touches v [.regs]).mono rfl) (hw ▸ v.raise_touches ..) rfl
  have hwaud : w.aud = s.aud := hsw.same .aud (by decide)
  have ht' : t = w.putAud p { a with err := true } := by
    rw [ht, State.clocksWrong, ← hv]
    dsimp only
    rw [← hw, hwaud, ← ha]
  have htr : t.regs = w.regs := by rw [ht']; rfl
  refine ⟨?_, ?_, ?_, .step (hsw.mono rfl) (ht' ▸ w.putAud_touches ..) rfl, .of_regs ?_ htr⟩
  · obtain ⟨h1, h2⟩ := State.AudGets.put w p { a with err := true }
    rw [ht']
    exact ⟨h1, fun q hq => (h2 q hq).trans (by rw [hwaud])⟩
  · rw [State.fld_congr htr, hw]
    exact State.fld_raise_same _ _ _ (by decide) rfl
  · rw [State.fld_congr htr, hw, State.fld_raise_ne _ _ _ _ _ (by decide) (.inl (keyOf_aud_ne (by decide))), hv]
    exact State.fld_count_same _ _ _ (by decide)
  · rw [hw, hv]
    exact .raise (.count (.refl s _) (by simp)) (by simp)

theorem State.syncEdge_eq {n : Nat} (hp : p < 4) (hm : s.audMaster p = false) (h0 : s.audPhase p ≠ 0) :
    s.syncEdge p n = ((if s.audPhase p = 2 ∧ n ≠ s.audSlotCount p * s.slotClocks p then s.clocksWrong p else s).setFld (Pg.aud p)
      Reg.AUD_STATE_CLOCK_LOST 0).boundary p (.ofTicks (s.time.ticks - 6 * tickNs)) := by
  have hcond : ¬ (4 ≤ p ∨ s.audMaster p = true ∨ s.audPhase p = 0) := by
    rw [hm]
    simp [h0]
    omega
  unfold State.syncEdge
  rw [if_neg hcond]
  simp only [Bool.and_eq_true, decide_eq_true_eq, Bool.not_eq_true', decide_eq_false_iff_not]
  rfl

theorem AudSt.frameDone_begun (a : AudSt) (s : State) (p : Nat) (x : Time) :
    a.frameDone.begun s p x = { a with
      slot := 0, frames := ⟨x, a.pos, (s.channels p a.mask).length⟩ :: a.frames.filter (s.audHas p)
      frame := a.frame + 1, blockFrames := a.blockFrames + 1 } := by
  simp only [AudSt.begun, AudSt.frameDone, Nat.succ_ne_zero, if_false]

/-- CLOCK_LOST stands in a register by which no frame is laid out. -/
theorem State.clockCleared_effect (hv : u = s.setFld (Pg.aud p) Reg.AUD_STATE_CLOCK_LOST 0) :
    s.SameAud u p ∧ u.audPhase p = s.audPhase p ∧ u.fld (Pg.aud p) Reg.AUD_STATE_CLOCK_LOST = 0 ∧ u.aud = s.aud ∧ u.out = s.out
      ∧ s.Touches u [.regs] ∧ s.WritesIn u (· = keyOf Reg.AUD_STATE_CLOCK_LOST (Pg.aud p)) := by
  have hw : s.WritesIn u (· = keyOf Reg.AUD_STATE_CLOCK_LOST (Pg.aud p)) := hv ▸ .setFld (.refl s _) _ rfl
  refine ⟨.of_key rfl (by decide) hw, ?_, ?_, by rw [hv]; rfl, by rw [hv]; rfl, hv ▸ State.setFld_touches .., hw⟩
  · rw [hv]
    exact State.fld_setFld_ne _ _ _ _ _ _ (by decide) (.inr (.inr (by decide)))
  · rw [hv]
    exact State.fld_setFld_of_width _ _ _ _ (by decide) (by decide)

/-- The first sync edge after the port's start time. -/
theorem State.syncEdge_start_effect {n : Nat} (hp : p < 4) (hm : s.audMaster p = false) (ha : a = s.aud.get p)
    (hx : x = .ofTicks (s.time.ticks - 6 * tickNs)) (hpend : s.fld (Pg.aud p) Reg.COMMON_COMMIT_PENDING = 0)
    (hmask : a.mask = s.actv (Pg.aud p) Reg.AUD_SLOT_MASK) (hphase : s.audPhase p = 1) (hmay : s.audMayStart p x = true)
    (ht : t = s.syncEdge p n) :
    t.audPhase p = 2 ∧ t.fld (Pg.aud p) Reg.AUD_STATE_CLOCK_LOST = 0 ∧ s.AudGets t p (a.begun s p x)
      ∧ t = { s with regs := t.regs, aud := t.aud } ∧ s.KeepsRegs t [keyOf Reg.AUD_STATE_PHASE (Pg.aud p)] ∧ s.KeepsBytes t := by
  obtain ⟨v, hv⟩ : ∃ v, v = s.setFld (Pg.aud p) Reg.AUD_STATE_CLOCK_LOST 0 := ⟨_, rfl⟩
  obtain ⟨hsame, hvphase, hclock, hvaud, hvout, hsv, hsvw⟩ := State.clockCleared_effect hv
  rw [State.syncEdge_eq hp hm (by rw [hphase]; decide), if_neg (by rw [hphase]; simp), ← hv, ← hx] at ht
  obtain ⟨h2, hget, hout, hkeep, hvt, hvw⟩ := State.boundary_start_effect (by rw [hvaud, ha]) (hvphase.trans hphase)
    ((hsame.audMayStart (by rw [hvaud]) x).trans hmay) (hsame.pending.trans hpend) (hmask.trans hsame.slotMask.symm) ht
  rw [AudSt.begun_congr hsame (by rw [hvaud])] at hget
  rw [hsame.audMaster, hm, if_neg Bool.false_ne_true, hvout] at hout
  obtain ⟨hg, hothers⟩ := hget
  have htouch : s.Touches t [.regs, .aud, .out] := .step (hsv.mono rfl) hvt rfl
  refine ⟨h2, (hkeep _ rfl (by decide) (by decide)).trans hclock, ⟨hg, fun q hq => (hothers q hq).trans (by rw [hvaud])⟩,
    ((htouch.mono (l' := [.out, .regs, .aud]) rfl).drop hout).eq_mix, (hsvw.trans hvw).keepsReg, htouch.keepsBytes rfl⟩

/-- A sync edge of a running port, from the state in which its bit clocks have been counted. -/
theorem State.edge_within_effect {w : State} {e : Bool} {l : List Nat} (hgw : s.AudGets w p { a with err := e })
    (hsw : s.Touches w [.regs, .ctlLatches, .aud]) (hsww : s.WritesIn w (· ∈ l)) (hl : ∀ k ∈ l, ∃ o, o ∉ audCfg ∧ o ∉ [0x00C, 0x068]
      ∧ k = Pg.aud p * 0x1000 + o) (hm : s.audMaster p = false) (ha : a = s.aud.get p)
    (hpend : s.fld (Pg.aud p) Reg.COMMON_COMMIT_PENDING = 0) (hmask : a.mask = s.actv (Pg.aud p) Reg.AUD_SLOT_MASK)
    (hphase : s.audPhase p = 2) (hstop : a.stopping = false) (htaken : s.SlotsTaken p a)
    (hrot : s.fld (Pg.aud p) Reg.AUD_ROT_WORDS = 0) (h63 : a.frame % 64 ≠ 63)
    (ht : t = (w.setFld (Pg.aud p) Reg.AUD_STATE_CLOCK_LOST 0).boundary p x) :
    t.fld (Pg.aud p) Reg.AUD_STATE_CLOCK_LOST = 0
      ∧ s.AudGets t p { ({ a with err := e } : AudSt) with
          slot := 0, frames := ⟨x, a.pos, (s.channels p a.mask).length⟩ :: a.frames.filter (s.audHas p)
          frame := a.frame + 1, blockFrames := a.blockFrames + 1 }
      ∧ (∀ f : Fld, f.off ≠ 0x00C → t.fld (Pg.aud p) f = w.fld (Pg.aud p) f)
      ∧ s.Touches t [.regs, .ctlLatches, .aud] ∧ w.WritesIn t (· = keyOf Reg.AUD_STATE_CLOCK_LOST (Pg.aud p)) := by
  obtain ⟨v, hv⟩ : ∃ v, v = w.setFld (Pg.aud p) Reg.AUD_STATE_CLOCK_LOST 0 := ⟨_, rfl⟩
  obtain ⟨hwv, hvphase, hclock, hvaud, hvout, hwvt, hwvw⟩ := State.clockCleared_effect hv
  rw [← hv] at ht
  have hkeep {f : Fld} (hf : f.off = 0x00C ∨ f.off = 0x068) : w.fld (Pg.aud p) f = s.fld (Pg.aud p) f := hsww.fld fun hmem => by
    obtain ⟨o, -, ho, hk⟩ := hl _ hmem
    simp only [List.mem_cons, List.not_mem_nil, or_false] at ho
    unfold keyOf at hk
    omega
  have hsame : s.SameAud v p := .trans (fun f hf => hsww.fld fun hmem => by
    obtain ⟨o, ho, -, hk⟩ := hl _ hmem
    have : f.off = o := by
      unfold keyOf at hk
      omega
    exact ho (this ▸ hf)) hwv
  obtain ⟨hy, hothers⟩ := hgw
  have hva : ({ a with err := e } : AudSt) = v.aud.get p := by rw [hvaud, hy]
  have htaken' : v.SlotsTaken p { a with err := e } := by
    unfold State.SlotsTaken
    rw [hsame.captures, hsame.audSlotCount]
    exact htaken
  have hvrot : v.fld (Pg.aud p) Reg.AUD_ROT_WORDS = 0 := by
    rw [hwvw.fld (keyOf_aud_ne (by decide)), hkeep (.inr rfl), hrot]
  obtain ⟨hget, hout, hvt⟩ := State.boundary_within_effect hva (hvphase.trans ((hkeep (f := Reg.AUD_STATE_PHASE) (.inl rfl)).trans hphase))
    (hsame.pending.trans hpend) (hmask.trans hsame.slotMask.symm) htaken' ht hstop hvrot h63
  rw [AudSt.frameDone_begun, hsame.channels, hsame.audHas (by rw [hvaud, hy, ← ha])] at hget
  have hsvt : s.Touches v [.regs, .ctlLatches, .aud] := .step hsw hwvt rfl
  rw [hsame.audMaster, hm, if_neg Bool.false_ne_true, hsvt.same .out (by decide)] at hout
  obtain ⟨hg, hothers'⟩ := hget
  have htr : t.regs = v.regs := hvt.same .regs (by decide)
  have htouch : s.Touches t [.out, .regs, .ctlLatches, .aud] := .step (hsvt.mono rfl) hvt rfl
  exact ⟨(State.fld_congr htr ..).trans hclock, ⟨hg, fun q hq => (hothers' q hq).trans (by rw [hvaud, hothers q hq])⟩,
    fun f hf => (State.fld_congr htr ..).trans (hwvw.fld (keyOf_aud_ne hf)), htouch.drop hout, hwvw.of_regs htr⟩

/-- A sync edge of a running port. -/
theorem State.syncEdge_running_effect {n : Nat} {b : AudSt} (hp : p < 4) (hm : s.audMaster p = false) (ha : a = s.aud.get p)
    (hx : x = .ofTicks (s.time.ticks - 6 * tickNs)) (hpend : s.fld (Pg.aud p) Reg.COMMON_COMMIT_PENDING = 0)
    (hmask : a.mask = s.actv (Pg.aud p) Reg.AUD_SLOT_MASK)
    (hb : b = { a with slot := 0, frames := ⟨x, a.pos, (s.channels p a.mask).length⟩ :: a.frames.filter (s.audHas p) })
    (hphase : s.audPhase p = 2) (hstop : a.stopping = false) (htaken : s.SlotsTaken p a)
    (hrot : s.fld (Pg.aud p) Reg.AUD_ROT_WORDS = 0) (h63 : a.frame % 64 ≠ 63) (ht : t = s.syncEdge p n) :
    t.fld (Pg.aud p) Reg.AUD_STATE_CLOCK_LOST = 0
      ∧ (n = s.audSlotCount p * s.slotClocks p →
          t.aud.get p = { b with frame := a.frame + 1, blockFrames := a.blockFrames + 1 }
          ∧ s.KeepsRegs t [keyOf Reg.AUD_STATE_CLOCK_LOST (Pg.aud p)])
      ∧ (n ≠ s.audSlotCount p * s.slotClocks p →
          t.aud.get p = { b with frame := a.frame + 1, blockFrames := a.blockFrames + 1, err := true }
          ∧ t.fld (Pg.aud p) Reg.AUD_EVENT_FRAME_ERR = 1
          ∧ t.fld (Pg.aud p) Reg.AUD_FRAME_ERRORS =
              min (s.fld (Pg.aud p) Reg.AUD_FRAME_ERRORS + 1) (2 ^ Reg.AUD_FRAME_ERRORS.width - 1))
      ∧ (∀ q, q ≠ p → t.aud.get q = s.aud.get q) ∧ t = { s.regsOf t with aud := t.aud }
      ∧ s.KeepsRegs t [keyOf Reg.AUD_STATE_CLOCK_LOST (Pg.aud p), keyOf Reg.AUD_EVENT_FRAME_ERR (Pg.aud p),
          keyOf Reg.AUD_FRAME_ERRORS (Pg.aud p)] ∧ s.KeepsBytes t := by
  subst hb
  rw [State.syncEdge_eq hp hm (by rw [hphase]; decide), ← hx] at ht
  by_cases hn : n = s.audSlotCount p * s.slotClocks p
  · rw [if_neg fun h => h.2 hn] at ht
    have hgs : s.AudGets s p { a with err := a.err } := ⟨ha.symm, fun _ _ => rfl⟩
    obtain ⟨hclock, ⟨hg, hothers⟩, -, htouch, htw⟩ := State.edge_within_effect (l := []) hgs (.refl s _) (.refl s _)
      (fun k hk => (nomatch hk)) hm ha hpend hmask hphase hstop htaken hrot h63 ht
    exact ⟨hclock, fun _ => ⟨hg, htw.keepsReg⟩, fun h => absurd hn h, hothers, htouch.eq_mix,
      (htw.mono (Q := (· ∈ _)) fun k hk => by simp [hk]).keepsRegs, htouch.keepsBytes rfl⟩
  · rw [if_pos ⟨hphase, hn⟩] at ht
    obtain ⟨hgw, hev, herrs, hsw, hsww⟩ := State.clocksWrong_effect ha rfl
    obtain ⟨hclock, ⟨hg, hothers⟩, hkeep, htouch, htw⟩ := State.edge_within_effect hgw hsw hsww (fun k hk => by
      simp only [List.mem_cons, List.not_mem_nil, or_false] at hk
      rcases hk with rfl | rfl
      · exact ⟨0x010, by decide, by decide, rfl⟩
      · exact ⟨0x074, by decide, by decide, rfl⟩) hm ha hpend hmask hphase hstop htaken hrot h63 ht
    refine ⟨hclock, fun h => absurd h hn, fun _ => ⟨hg, (hkeep _ (by decide)).trans hev, (hkeep _ (by decide)).trans herrs⟩, hothers,
      htouch.eq_mix, ?_, htouch.keepsBytes rfl⟩
    exact ((hsww.mono (Q := (· ∈ _)) fun k hk => List.mem_cons_of_mem _ hk).trans (htw.mono fun k hk => by simp [hk])).keepsRegs

/-! ### A slot's word -/

/-- DEV_PTR of a port passes a word. -/
theorem State.moveWord_effect (ha : s.aud.get p = a) (ht : t = s.moveWord p) :
    s.AudGets t p { a with pos := a.pos + s.audB p }
      ∧ t.fld (Pg.aud p) Reg.AUD_DEV_PTR = (s.fld (Pg.aud p) Reg.AUD_DEV_PTR + s.audB p) % max 1 (s.audRing p).2
      ∧ s.Touches t [.regs, .aud] ∧ s.WritesIn t (· = keyOf Reg.AUD_DEV_PTR (Pg.aud p)) := by
  obtain ⟨d, hd⟩ : ∃ d, d = (s.fld (Pg.aud p) Reg.AUD_DEV_PTR + s.audB p) % max 1 (s.audRing p).2 := ⟨_, rfl⟩
  obtain ⟨v, hv⟩ : ∃ v, v = s.setFld (Pg.aud p) Reg.AUD_DEV_PTR d := ⟨_, rfl⟩
  have ht' : t = v.putAud p { a with pos := a.pos + s.audB p } := by
    rw [ht, State.moveWord, ha, hv, hd]
  have hvaud : v.aud = s.aud := by rw [hv]; rfl
  have htr : t.regs = v.regs := by rw [ht']; rfl
  have hlt : d < 2 ^ 26 := by
    have hring : (s.audRing p).2 < 2 ^ 26 := s.fld_lt (Pg.aud p) Reg.AUD_RING_BYTES
    have := Nat.mod_lt (s.fld (Pg.aud p) Reg.AUD_DEV_PTR + s.audB p) (by omega : 0 < max 1 (s.audRing p).2)
    omega
  refine ⟨?_, ?_, ?_, .of_regs ?_ htr⟩
  · obtain ⟨h1, h2⟩ := State.AudGets.put v p { a with pos := a.pos + s.audB p }
    rw [ht']
    exact ⟨h1, fun q hq => (h2 q hq).trans (by rw [hvaud])⟩
  · rw [State.fld_congr htr, hv, ← hd]
    exact State.fld_setFld_of_width _ _ _ _ (by decide) hlt
  · exact .step ((hv ▸ s.setFld_touches .. : s.Touches v [.regs]).mono rfl) (ht' ▸ v.putAud_touches ..) rfl
  · exact hv ▸ .setFld (.refl s _) _ rfl

/-- A word of a port is lost. -/
theorem State.wordLost_effect {n ev : Fld} (hp : p < 4) (hn : n.off ∉ [0x010, 0x068]) (hnw : n.lo + n.width ≤ 32) (hno : n.off < 0x1000)
    (hev : ev.off = 0x010) (hevw : ev.width = 1) (hevl : ev.lo + ev.width ≤ 32) (ha : s.aud.get p = a) (ht : t = s.wordLost p n ev) :
    s.AudGets t p { a with lost := true } ∧ t.fld (Pg.aud p) n = min (s.fld (Pg.aud p) n + 1) (2 ^ n.width - 1)
      ∧ t.fld (Pg.aud p) ev = 1 ∧ (∀ f : Fld, f.off ∈ audCfg → f.off ≠ n.off → t.fld (Pg.aud p) f = s.fld (Pg.aud p) f)
      ∧ s.Touches t [.regs, .ctlLatches, .aud] ∧ s.WritesIn t (onPages [Pg.aud p]) := by
  obtain ⟨b, hb⟩ : ∃ b, b = s.count (Pg.aud p) n := ⟨_, rfl⟩
  obtain ⟨c, hc⟩ : ∃ c, c = b.setFld (Pg.aud p) Reg.AUD_ROT_WORDS (s.fld (Pg.aud p) Reg.AUD_ROT_WORDS + 1) := ⟨_, rfl⟩
  obtain ⟨d, hd⟩ : ∃ d, d = c.raise (Pg.aud p) ev := ⟨_, rfl⟩
  have hsc : s.Touches c [.regs] := (hb ▸ s.count_touches ..).trans (hc ▸ b.setFld_touches ..)
  have hsd : s.Touches d [.regs, .ctlLatches] := .step (hsc.mono rfl) (hd ▸ c.raise_touches ..) rfl
  have hdaud : d.aud = s.aud := hsd.same .aud (by decide)
  have ht' : t = d.putAud p { a with lost := true } := by
    rw [ht, State.wordLost]
    dsimp only
    rw [← hb, ← hc, ← hd, hdaud, ha]
  have htr : t.regs = d.regs := by rw [ht']; rfl
  simp only [List.mem_cons, List.not_mem_nil, or_false, not_or] at hn
  obtain ⟨hn1, hn2⟩ := hn
  have hdc : c.WritesIn d (· = keyOf ev (Pg.aud p)) := hd ▸ .raise (.refl c _) rfl
  refine ⟨?_, ?_, ?_, fun f hf hfn => ?_, .step (hsd.mono rfl) (ht' ▸ d.putAud_touches ..) rfl, .of_regs ?_ htr⟩
  · obtain ⟨h1, h2⟩ := State.AudGets.put d p { a with lost := true }
    rw [ht']
    exact ⟨h1, fun q hq => (h2 q hq).trans (by rw [hdaud])⟩
  · rw [State.fld_congr htr, hdc.fld (keyOf_aud_ne (by rw [hev]; exact hn1)), hc, State.fld_setAudFld_ne _ _ hn2, hb]
    exact State.fld_count_same _ _ _ hnw
  · rw [State.fld_congr htr, hd]
    exact State.fld_raise_same _ _ _ hevl hevw
  · have h1 : f.off ≠ 0x010 := fun h => absurd (h ▸ hf) (by decide)
    have h2 : f.off ≠ 0x068 := fun h => absurd (h ▸ hf) (by decide)
    rw [State.fld_congr htr, hdc.fld (keyOf_aud_ne (by rw [hev]; exact h1)), hc, State.fld_setAudFld_ne _ _ h2, hb]
    exact State.fld_of_rd (State.rd_countBy_ne _ _ _ _ _ (keyOf_aud_ne hfn))
  · have hcw : s.WritesIn c (onPages [Pg.aud p]) := by
      rw [hc, hb]
      exact .setFld (.count (.refl s _) (onPages_aud hp hno)) _ (onPages_aud hp (by decide))
    exact hd ▸ .raise hcw (onPages_aud hp (by rw [hev]; decide))

/-- A captured word for which the host has made no room is lost, and any other stands in the ring. -/
theorem State.captureWord_of_room {word : Nat} :
    (s.on (Pg.aud p) Reg.AUD_CTRL_HOST_CONS = true ∧ (s.fld (Pg.aud p) Reg.AUD_DEV_PTR + s.audB p) % max 1 (s.audRing p).2
        = s.fld (Pg.aud p) Reg.AUD_HOST_PTR → s.captureWord p word = s.wordLost p Reg.AUD_OVERRUN_WORDS Reg.AUD_EVENT_OVERRUN)
      ∧ (¬ (s.on (Pg.aud p) Reg.AUD_CTRL_HOST_CONS = true ∧ (s.fld (Pg.aud p) Reg.AUD_DEV_PTR + s.audB p) % max 1 (s.audRing p).2
          = s.fld (Pg.aud p) Reg.AUD_HOST_PTR) →
        s.captureWord p word = (s.pokeN ((s.audRing p).1 + s.fld (Pg.aud p) Reg.AUD_DEV_PTR)
          (leBytes (s.audB p) (unsigned (8 * s.audB p) (signed (s.audWord p) word)))).moveWord p) := by
  unfold State.captureWord
  simp only [Bool.and_eq_true, decide_eq_true_eq]
  exact ⟨fun h => if_pos h, fun h => if_neg h⟩

/-- What a captured word leaves. -/
theorem State.captureWord_effect {word dev n : Nat} (ha : s.aud.get p = a) (hdev : dev = s.fld (Pg.aud p) Reg.AUD_DEV_PTR) (hn : n = s.audB p)
    (hroom : ¬ (s.on (Pg.aud p) Reg.AUD_CTRL_HOST_CONS = true ∧ (dev + n) % max 1 (s.audRing p).2 = s.fld (Pg.aud p) Reg.AUD_HOST_PTR))
    (ht : t = s.captureWord p word) :
    (∀ i, i < n → (s.audRing p).1 + dev + i < s.dramSize →
        t.dram.get ((s.audRing p).1 + dev + i) = (leBytes n (unsigned (8 * n) (signed (s.audWord p) word))).getD i 0)
      ∧ s.StoresDram t ((s.audRing p).1 + dev) n ∧ s.AudGets t p { a with pos := a.pos + n }
      ∧ t.fld (Pg.aud p) Reg.AUD_DEV_PTR = (dev + n) % max 1 (s.audRing p).2
      ∧ s.Touches t [.regs, .dram, .aud] ∧ s.WritesIn t (· = keyOf Reg.AUD_DEV_PTR (Pg.aud p)) := by
  subst hdev hn
  rw [State.captureWord_of_room.2 hroom] at ht
  obtain ⟨at_, hat⟩ : ∃ k, k = (s.audRing p).1 + s.fld (Pg.aud p) Reg.AUD_DEV_PTR := ⟨_, rfl⟩
  obtain ⟨l, hl⟩ : ∃ l, l = leBytes (s.audB p) (unsigned (8 * s.audB p) (signed (s.audWord p) word)) := ⟨_, rfl⟩
  obtain ⟨v, hv⟩ : ∃ v, v = s.pokeN at_ l := ⟨_, rfl⟩
  rw [← hat, ← hl, ← hv] at ht
  rw [← hat, ← hl]
  have hlen : l.length = s.audB p := by rw [hl, leBytes_length]
  have hvr : v.regs = s.regs := by rw [hv]; rfl
  have hvaud : v.aud = s.aud := by rw [hv]; rfl
  have hsame : s.SameAud v p := .of_regs hvr
  obtain ⟨⟨hg, hothers⟩, hptr, hvt, hvw⟩ := State.moveWord_effect (by rw [hvaud, ha]) ht
  rw [hsame.audB, hsame.audRing, State.fld_congr hvr] at hptr
  rw [hsame.audB] at hg
  have hdram : t.dram = v.dram := hvt.same .dram (by decide)
  have htouch : s.Touches t [.regs, .dram, .aud] := .step ((hv ▸ s.pokeN_touches .. : s.Touches v [.dram]).mono rfl) hvt rfl
  refine ⟨fun i hi hlt => ?_, ⟨fun k hk => ?_, fun k => ?_, fun k => ?_, fun j k => ?_⟩,
    ⟨hg, fun q hq => (hothers q hq).trans (by rw [hvaud])⟩, hptr, htouch, (State.WritesIn.of_regs (.refl s _) hvr).trans hvw⟩
  · rw [hdram, hv]
    exact State.get_pokeN_inside (by rw [hlen]; exact hi) hlt
  · rw [hdram, hv]
    exact State.get_pokeN_outside (by rw [hlen]; exact hk)
  · rw [htouch.same .fstoreMem (by decide)]
  · rw [htouch.same .relayCluster (by decide)]
  · exact congrArg (fun m : RecSt => (m.drives.get j).mem.get k) (by rw [htouch.eq_mix]; rfl : t.media = s.media)

/-- The bits that a playback port drives in a slot. -/
def State.slotOut (s : State) (p k w : Nat) : Out :=
  .tdm p (s.slotStart p k) (bitsOf (s.audWord p) w ++ List.replicate (s.slotClocks p - s.audWord p) false)

theorem State.SameAud.slotOut (h : s.SameAud t p) (k w : Nat) : t.slotOut p k w = s.slotOut p k w := by
  unfold State.slotOut
  rw [h.slotStart, h.audWord, h.slotClocks]

theorem State.driveSlot_eq (s : State) (p k w : Nat) : s.driveSlot p k w = s.emit (s.slotOut p k w) := rfl

/-- What a played word leaves. -/
theorem State.playWord_effect {dev n k : Nat} (ha : s.aud.get p = a) (hdev : dev = s.fld (Pg.aud p) Reg.AUD_DEV_PTR) (hn : n = s.audB p)
    (hdata : dev ≠ s.fld (Pg.aud p) Reg.AUD_HOST_PTR) (ht : t = s.playWord p k) :
    t.out = s.slotOut p k (s.peekLe ((s.audRing p).1 + dev) n % 2 ^ s.audWord p) :: s.out ∧ s.AudGets t p { a with pos := a.pos + n }
      ∧ t.fld (Pg.aud p) Reg.AUD_DEV_PTR = (dev + n) % max 1 (s.audRing p).2
      ∧ s.Touches t [.regs, .out, .aud] ∧ s.WritesIn t (· = keyOf Reg.AUD_DEV_PTR (Pg.aud p)) := by
  subst hdev hn
  obtain ⟨v, hv⟩ : ∃ v, v = s.moveWord p := ⟨_, rfl⟩
  obtain ⟨w, hw⟩ : ∃ w, w = s.peekLe ((s.audRing p).1 + s.fld (Pg.aud p) Reg.AUD_DEV_PTR) (s.audB p) % 2 ^ s.audWord p := ⟨_, rfl⟩
  obtain ⟨hget, hptr, hsv, hsvw⟩ := State.moveWord_effect ha hv
  have hsame : s.SameAud v p := .of_key rfl (by decide) hsvw
  have ht' : t = v.emit (v.slotOut p k w) := by
    rw [ht, State.playWord]
    dsimp only
    rw [if_neg hdata, ← hv, ← hw, State.driveSlot_eq]
  rw [hsame.slotOut] at ht'
  rw [← hw, ht']
  exact ⟨congrArg (_ :: ·) (hsv.same .out (by decide)), hget.of_aud rfl, hptr, .step (hsv.mono rfl) (State.emit_touches ..) rfl, hsvw.of_regs rfl⟩

/-- What a slot without a word in the ring leaves. -/
theorem State.playWord_empty_effect {k : Nat} (hp : p < 4) (ha : s.aud.get p = a)
    (hempty : s.fld (Pg.aud p) Reg.AUD_DEV_PTR = s.fld (Pg.aud p) Reg.AUD_HOST_PTR) (ht : t = s.playWord p k) :
    t.out = s.slotOut p k 0 :: s.out
      ∧ t.fld (Pg.aud p) Reg.AUD_UNDERRUN_WORDS =
          min (s.fld (Pg.aud p) Reg.AUD_UNDERRUN_WORDS + 1) (2 ^ Reg.AUD_UNDERRUN_WORDS.width - 1)
      ∧ t.fld (Pg.aud p) Reg.AUD_EVENT_UNDERRUN = 1 ∧ s.AudGets t p { a with lost := true }
      ∧ s.Touches t [.regs, .ctlLatches, .out, .aud] ∧ s.WritesIn t (onPages [Pg.aud p]) := by
  obtain ⟨v, hv⟩ : ∃ v, v = s.wordLost p Reg.AUD_UNDERRUN_WORDS Reg.AUD_EVENT_UNDERRUN := ⟨_, rfl⟩
  obtain ⟨hget, hcount, hev, hkeep, hsv, hsvw⟩ := State.wordLost_effect hp (by decide) (by decide) (by decide) rfl rfl (by decide) ha hv
  have hsame : s.SameAud v p := fun f hf => hkeep f hf fun h => absurd (h ▸ hf) (by decide)
  have ht' : t = v.emit (v.slotOut p k 0) := by
    rw [ht, State.playWord]
    dsimp only
    rw [if_pos hempty, ← hv, State.driveSlot_eq]
  rw [hsame.slotOut] at ht'
  rw [ht']
  exact ⟨congrArg (_ :: ·) (hsv.same .out (by decide)), hcount, hev, hget.of_aud rfl, .step (hsv.mono rfl) (State.emit_touches ..) rfl,
    hsvw.of_regs rfl⟩

/-- A slot of the frame in progress. -/
theorem State.audSlot_eq {word : Nat} (hp : p < 4) (hphase : s.audPhase p = 2) (hclock : s.on (Pg.aud p) Reg.AUD_STATE_CLOCK_LOST = false)
    (ha : a = s.aud.get p) (hslot : a.slot < s.audSlotCount p) (hu : u = s.putAud p { a with slot := a.slot + 1 }) :
    s.audSlot p word = if a.mask.testBit a.slot then if s.captures p then u.captureWord p word else u.playWord p a.slot
      else if s.captures p then u else u.driveSlot p a.slot 0 := by
  have hcond : ¬ (4 ≤ p ∨ s.audPhase p ≠ 2 ∨ s.on (Pg.aud p) Reg.AUD_STATE_CLOCK_LOST = true ∨ s.audSlotCount p ≤ a.slot) := by
    rw [hphase, hclock]
    simp
    omega
  unfold State.audSlot
  dsimp only
  rw [← ha, if_neg hcond, ← hu]

section
variable {word dev n : Nat} (hp : p < 4) (hphase : s.audPhase p = 2) (hclock : s.on (Pg.aud p) Reg.AUD_STATE_CLOCK_LOST = false)
  (ha : a = s.aud.get p) (hslot : a.slot < s.audSlotCount p)
include hp hphase hclock ha hslot

/-- A slot that the mask leaves out. -/
theorem State.audSlot_masked_effect (hbit : a.mask.testBit a.slot = false) (ht : t = s.audSlot p word) :
    s.AudGets t p { a with slot := a.slot + 1 }
      ∧ t = { s with aud := t.aud, out := if s.captures p then s.out else s.slotOut p a.slot 0 :: s.out } := by
  obtain ⟨u, hu⟩ : ∃ u, u = s.putAud p { a with slot := a.slot + 1 } := ⟨_, rfl⟩
  have hget : s.AudGets u p { a with slot := a.slot + 1 } := hu ▸ .put ..
  have hsame : s.SameAud u p := .of_regs (by rw [hu]; rfl)
  rw [State.audSlot_eq hp hphase hclock ha hslot hu, if_neg (by simp [hbit])] at ht
  cases hc : s.captures p with
  | true =>
    rw [hc, if_pos rfl] at ht
    rw [if_pos rfl, ht]
    exact ⟨hget, by rw [hu]; rfl⟩
  | false =>
    rw [hc, if_neg Bool.false_ne_true, State.driveSlot_eq, hsame.slotOut] at ht
    rw [if_neg Bool.false_ne_true, ht]
    exact ⟨hget.of_aud rfl, by rw [hu]; rfl⟩

/-- A slot whose captured word stands in the ring. -/
theorem State.audSlot_captured_effect (hdev : dev = s.fld (Pg.aud p) Reg.AUD_DEV_PTR) (hn : n = s.audB p) (hc : s.captures p = true)
    (hbit : a.mask.testBit a.slot = true)
    (hroom : ¬ (s.on (Pg.aud p) Reg.AUD_CTRL_HOST_CONS = true ∧ (dev + n) % max 1 (s.audRing p).2 = s.fld (Pg.aud p) Reg.AUD_HOST_PTR))
    (ht : t = s.audSlot p word) :
    (∀ i, i < n → (s.audRing p).1 + dev + i < s.dramSize →
        t.dram.get ((s.audRing p).1 + dev + i) = (leBytes n (unsigned (8 * n) (signed (s.audWord p) word))).getD i 0)
      ∧ s.StoresDram t ((s.audRing p).1 + dev) n ∧ s.AudGets t p { a with slot := a.slot + 1, pos := a.pos + n }
      ∧ t.fld (Pg.aud p) Reg.AUD_DEV_PTR = (dev + n) % max 1 (s.audRing p).2
      ∧ s.Touches t [.regs, .dram, .aud] ∧ s.WritesIn t (· = keyOf Reg.AUD_DEV_PTR (Pg.aud p)) := by
  obtain ⟨u, hu⟩ : ∃ u, u = s.putAud p { a with slot := a.slot + 1 } := ⟨_, rfl⟩
  have hget : s.AudGets u p { a with slot := a.slot + 1 } := hu ▸ .put ..
  have hur : u.regs = s.regs := by rw [hu]; rfl
  have hsame : s.SameAud u p := .of_regs hur
  have hsize : u.dramSize = s.dramSize := by rw [State.dramSize, State.fld_congr hur, State.dramSize]
  rw [State.audSlot_eq hp hphase hclock ha hslot hu, if_pos hbit, if_pos hc] at ht
  obtain ⟨hdata, ⟨hd1, hd2, hd3, hd4⟩, hget', hptr, hut, huw⟩ := State.captureWord_effect hget.1
    (hdev.trans (State.fld_congr hur ..).symm) (hn.trans hsame.audB.symm)
    (by rwa [hsame.on, hsame.audRing, State.fld_congr hur]) ht
  rw [hsame.audRing, hsame.audWord, hsize] at hdata
  rw [hsame.audRing] at hd1 hptr
  have hdram : u.dram = s.dram := by rw [hu]; rfl
  have hfs : u.fstore = s.fstore := by rw [hu]; rfl
  have hrel : u.relay = s.relay := by rw [hu]; rfl
  have hmed : u.media = s.media := by rw [hu]; rfl
  refine ⟨hdata, ⟨fun k hk => (hd1 k hk).trans (by rw [hdram]), fun k => (hd2 k).trans (by rw [hfs]), fun k => (hd3 k).trans (by rw [hrel]),
    fun j k => (hd4 j k).trans (by rw [State.drive, hmed, State.drive])⟩, hget.trans hget', hptr, ?_, (State.WritesIn.of_regs (.refl s _) hur).trans huw⟩
  exact .step ((hu ▸ s.putAud_touches .. : s.Touches u [.aud]).mono rfl) hut rfl

/-- A slot whose captured word finds no room. -/
theorem State.audSlot_overrun_effect (hdev : dev = s.fld (Pg.aud p) Reg.AUD_DEV_PTR) (hn : n = s.audB p) (hc : s.captures p = true)
    (hbit : a.mask.testBit a.slot = true) (hcons : s.on (Pg.aud p) Reg.AUD_CTRL_HOST_CONS = true)
    (hfull : (dev + n) % max 1 (s.audRing p).2 = s.fld (Pg.aud p) Reg.AUD_HOST_PTR) (ht : t = s.audSlot p word) :
    t.fld (Pg.aud p) Reg.AUD_OVERRUN_WORDS =
        min (s.fld (Pg.aud p) Reg.AUD_OVERRUN_WORDS + 1) (2 ^ Reg.AUD_OVERRUN_WORDS.width - 1)
      ∧ t.fld (Pg.aud p) Reg.AUD_EVENT_OVERRUN = 1 ∧ s.AudGets t p { a with slot := a.slot + 1, lost := true }
      ∧ s.Touches t [.regs, .ctlLatches, .aud] ∧ s.KeepsPages t [Pg.aud p] := by
  obtain ⟨u, hu⟩ : ∃ u, u = s.putAud p { a with slot := a.slot + 1 } := ⟨_, rfl⟩
  have hget : s.AudGets u p { a with slot := a.slot + 1 } := hu ▸ .put ..
  have hur : u.regs = s.regs := by rw [hu]; rfl
  have hsame : s.SameAud u p := .of_regs hur
  rw [State.audSlot_eq hp hphase hclock ha hslot hu, if_pos hbit, if_pos hc, State.captureWord_of_room.1 (by
    rw [hsame.on, hsame.audRing, hsame.audB, State.fld_congr hur, State.fld_congr hur, ← hdev, ← hn]
    exact ⟨hcons, hfull⟩)] at ht
  obtain ⟨hget', hcount, hev, -, hut, huw⟩ := State.wordLost_effect hp (by decide) (by decide) (by decide) rfl rfl (by decide) hget.1 ht
  rw [State.fld_congr hur] at hcount
  exact ⟨hcount, hev, hget.trans hget', .step ((hu ▸ s.putAud_touches .. : s.Touches u [.aud]).mono rfl) hut rfl,
    ((State.WritesIn.of_regs (.refl s _) hur).trans huw).keepsPages⟩

/-- A slot that sends the next word of the ring. -/
theorem State.audSlot_played_effect (hdev : dev = s.fld (Pg.aud p) Reg.AUD_DEV_PTR) (hn : n = s.audB p) (hc : s.captures p = false)
    (hbit : a.mask.testBit a.slot = true) (hdata : dev ≠ s.fld (Pg.aud p) Reg.AUD_HOST_PTR) (ht : t = s.audSlot p word) :
    t.out = s.slotOut p a.slot (s.peekLe ((s.audRing p).1 + dev) n % 2 ^ s.audWord p) :: s.out
      ∧ s.AudGets t p { a with slot := a.slot + 1, pos := a.pos + n }
      ∧ t.fld (Pg.aud p) Reg.AUD_DEV_PTR = (dev + n) % max 1 (s.audRing p).2
      ∧ s.Touches t [.regs, .out, .aud] ∧ s.WritesIn t (· = keyOf Reg.AUD_DEV_PTR (Pg.aud p)) := by
  obtain ⟨u, hu⟩ : ∃ u, u = s.putAud p { a with slot := a.slot + 1 } := ⟨_, rfl⟩
  have hget : s.AudGets u p { a with slot := a.slot + 1 } := hu ▸ .put ..
  have hur : u.regs = s.regs := by rw [hu]; rfl
  have hsame : s.SameAud u p := .of_regs hur
  have hpeek (k : Nat) : u.peekLe k n = s.peekLe k n := by rw [hu]; rfl
  rw [State.audSlot_eq hp hphase hclock ha hslot hu, if_pos hbit, if_neg (by simp [hc])] at ht
  obtain ⟨hout, hget', hptr, hut, huw⟩ := State.playWord_effect hget.1 (hdev.trans (State.fld_congr hur ..).symm) (hn.trans hsame.audB.symm)
    (by rwa [State.fld_congr hur]) ht
  rw [hsame.slotOut, hsame.audRing, hsame.audWord, hpeek] at hout
  rw [hsame.audRing] at hptr
  refine ⟨hout.trans (by rw [hu]; rfl), hget.trans hget', hptr, ?_, (State.WritesIn.of_regs (.refl s _) hur).trans huw⟩
  exact .step ((hu ▸ s.putAud_touches .. : s.Touches u [.aud]).mono rfl) hut rfl

/-- A slot that finds the ring empty. -/
theorem State.audSlot_underrun_effect (hdev : dev = s.fld (Pg.aud p) Reg.AUD_DEV_PTR) (hc : s.captures p = false)
    (hbit : a.mask.testBit a.slot = true) (hempty : dev = s.fld (Pg.aud p) Reg.AUD_HOST_PTR) (ht : t = s.audSlot p word) :
    t.out = s.slotOut p a.slot 0 :: s.out
      ∧ t.fld (Pg.aud p) Reg.AUD_UNDERRUN_WORDS =
          min (s.fld (Pg.aud p) Reg.AUD_UNDERRUN_WORDS + 1) (2 ^ Reg.AUD_UNDERRUN_WORDS.width - 1)
      ∧ t.fld (Pg.aud p) Reg.AUD_EVENT_UNDERRUN = 1 ∧ s.AudGets t p { a with slot := a.slot + 1, lost := true }
      ∧ s.Touches t [.regs, .ctlLatches, .out, .aud] ∧ s.KeepsPages t [Pg.aud p] := by
  obtain ⟨u, hu⟩ : ∃ u, u = s.putAud p { a with slot := a.slot + 1 } := ⟨_, rfl⟩
  have hget : s.AudGets u p { a with slot := a.slot + 1 } := hu ▸ .put ..
  have hur : u.regs = s.regs := by rw [hu]; rfl
  have hsame : s.SameAud u p := .of_regs hur
  rw [State.audSlot_eq hp hphase hclock ha hslot hu, if_pos hbit, if_neg (by simp [hc])] at ht
  obtain ⟨hout, hcount, hev, hget', hut, huw⟩ := State.playWord_empty_effect hp hget.1
    (by rw [State.fld_congr hur, State.fld_congr hur, ← hdev, hempty]) ht
  rw [hsame.slotOut] at hout
  rw [State.fld_congr hur] at hcount
  exact ⟨hout.trans (by rw [hu]; rfl), hcount, hev, hget.trans hget', .step ((hu ▸ s.putAud_touches .. : s.Touches u [.aud]).mono rfl) hut rfl,
    ((State.WritesIn.of_regs (.refl s _) hur).trans huw).keepsPages⟩

end

/-! ### The obligation -/

theorem execTdmFrameBoundary_next (hp : p < 4) (hm : s.audMaster p = true) (hen : s.on Pg.coll Reg.COLL_CTRL_ENABLE = true) :
    exec (.tdmFrameBoundary p) s = .next (s.boundary p (s.masterSync p)) := by
  have h : exec (.tdmFrameBoundary p) s
      = .next (if 4 ≤ p ∨ s.audMaster p = false ∨ s.on Pg.coll Reg.COLL_CTRL_ENABLE = false then s else s.boundary p (s.masterSync p)) := rfl
  rw [h, if_neg (by rw [hm, hen]; simp; omega)]

/-- A slave port's clock is lost. -/
theorem State.audClockLost_effect (hp : p < 4) (hm : s.audMaster p = false) (h0 : s.audPhase p ≠ 0) :
    (s.on (Pg.aud p) Reg.AUD_STATE_CLOCK_LOST = true → exec (.audClockLost p) s = .next s)
      ∧ (s.on (Pg.aud p) Reg.AUD_STATE_CLOCK_LOST = false →
        ∃ t, exec (.audClockLost p) s = .next t
          ∧ t.fld (Pg.aud p) Reg.AUD_STATE_CLOCK_LOST = 1 ∧ t.fld (Pg.aud p) Reg.AUD_EVENT_CLOCK_LOST = 1
          ∧ s.Kept t [keyOf Reg.AUD_STATE_CLOCK_LOST (Pg.aud p), keyOf Reg.AUD_EVENT_CLOCK_LOST (Pg.aud p)]) := by
  have h : exec (.audClockLost p) s
      = .next (if 4 ≤ p ∨ s.audMaster p = true ∨ s.audPhase p = 0 ∨ s.on (Pg.aud p) Reg.AUD_STATE_CLOCK_LOST = true then s
        else (s.setFld (Pg.aud p) Reg.AUD_STATE_CLOCK_LOST 1).raise (Pg.aud p) Reg.AUD_EVENT_CLOCK_LOST) := rfl
  refine ⟨fun hl => by rw [h, if_pos (.inr (.inr (.inr hl)))], fun hl => ?_⟩
  rw [h, if_neg (by rw [hm, hl]; simp [h0]; omega)]
  refine ⟨_, rfl, ?_, State.fld_raise_same _ _ _ (by decide) rfl, .of_writes ?_ ?_⟩
  · rw [State.fld_raise_ne _ _ _ _ _ (by decide) (.inl (keyOf_aud_ne (by decide)))]
    exact State.fld_setFld_of_width _ _ _ _ (by decide) (by decide)
  · exact .raise (.setFld (.refl s _) _ (by simp)) (by simp)
  · exact .step ((State.setFld_touches ..).mono rfl) (State.raise_touches ..) rfl

/-- Settles O56: ENABLE by the bit before and after, boundaries through the frame that begins, and slots through their word. -/
theorem audioPorts : Obligations.AudioPorts := by
  unfold Obligations.AudioPorts
  refine ⟨fun s r p v hp ha hoff hon => ⟨fun hbad hm => ?_, fun hbad hst hreq => ?_⟩,
    fun s r p v a hp hacc hon hoff hst hreq ha => ⟨fun hphase hclock => ?_, fun hphase hblock hpend hmask => ?_⟩,
    fun s p a b x sync hp hm hen ha hx hpend hmask hb hsync => ⟨fun hphase hmay => ?start, fun hphase hmay => ?waits, fun hphase htaken =>
      ⟨fun hstop hrot h63 => ?within, fun ch hstop h63 hch hne hrot hrd => ?rotates, fun hstop hc hrot h63 => ?block, fun hstop hc hrot h63 => ?stops⟩⟩,
    fun s p bclks a b x hp hm ha hx hpend hmask hb => ⟨fun hphase hmay => ?_, fun hphase hstop htaken hrot h63 => ?_⟩,
    fun s p hp hm h0 => State.audClockLost_effect hp hm h0,
    fun s p word dev n a slot hp hphase hclock ha hslot hdev hn hs => ⟨fun hc hbit => ?_, fun hc hbit => ?_, fun hc hbit hroom => ?_,
      fun hc hbit hcons hfull => ?_, fun hc hbit hdata => ?_, fun hc hbit hempty => ?_⟩⟩
  case start =>
    subst hb
    rw [execTdmFrameBoundary_next hp hm hen, ← hx]
    obtain ⟨h2, ⟨hg, hothers⟩, hout, -, htouch, hw⟩ := State.boundary_start_effect ha.symm hphase hmay hpend hmask rfl
    rw [if_pos hm, show s.tdmSyncOut p :: s.out = sync from hsync.symm] at hout
    exact ⟨_, rfl, h2, hg, hothers, hout ▸ htouch.eq_mix, hw.keepsReg, htouch.keepsBytes rfl⟩
  case waits =>
    rw [execTdmFrameBoundary_next hp hm hen, ← hx, State.boundary_of_waiting hphase, if_neg (by simp [hmay])]
  case within =>
    subst hb
    rw [execTdmFrameBoundary_next hp hm hen, ← hx]
    obtain ⟨⟨hg, hothers⟩, hout, htouch⟩ := State.boundary_within_effect ha hphase hpend hmask htaken rfl hstop hrot h63
    rw [if_pos hm, show s.tdmSyncOut p :: s.out = sync from hsync.symm] at hout
    rw [AudSt.frameDone_begun] at hg
    exact ⟨_, rfl, hg, hothers, hout ▸ htouch.eq_mix⟩
  case rotates =>
    subst hb
    rw [execTdmFrameBoundary_next hp hm hen, ← hx]
    obtain ⟨hrot', hev, ⟨hg, hothers⟩, hout, htouch, hregs⟩ := State.boundary_rotation_effect ha hphase hpend hmask htaken rfl hstop h63 hch hne
      hrot hrd
    rw [if_pos hm, show s.tdmSyncOut p :: s.out = sync from hsync.symm] at hout
    rw [AudSt.frameDone_begun] at hg
    exact ⟨_, rfl, hrot', hev, hg, hothers, hout ▸ htouch.eq_mix, hregs, htouch.keepsBytes rfl⟩
  case block =>
    subst hb
    rw [execTdmFrameBoundary_next hp hm hen, ← hx]
    obtain ⟨⟨hg, hothers⟩, hptr, hdram, hout, htouch, hregs⟩ := State.boundary_block_effect ha hphase hpend hmask htaken rfl hstop hc hrot h63
    rw [if_pos hm, show s.tdmSyncOut p :: s.out = sync from hsync.symm] at hout
    exact ⟨_, rfl, hg, hothers, hptr, hdram, hout ▸ htouch.eq_mix, hregs⟩
  case stops =>
    rw [execTdmFrameBoundary_next hp hm hen, ← hx]
    obtain ⟨h0, hout, ⟨hg, hothers⟩, htouch, hregs⟩ := State.boundary_stop_effect ha hphase hpend hmask htaken rfl hstop hc hrot h63
    rw [if_pos hm] at hout
    exact ⟨_, rfl, h0, hout, hg, hothers, htouch.eq_mix, hregs, htouch.keepsBytes rfl⟩
  · rw [execAudEnable_next hp, (writeAudCtrl_of_accepts ha).1 hoff hon, if_neg (by simp [hbad])]
    obtain ⟨h1, h2, h3, h4, h5, h6, ⟨hg, hothers⟩, heq, hpages, hbytes⟩ := State.audEnabled_effect hp hon hm rfl
    exact ⟨_, rfl, h1, h2, h3, h4, h5, h6, hg, hothers, heq, hpages, hbytes⟩
  · rw [execAudEnable_next hp, (writeAudCtrl_of_accepts ha).1 hoff hon, if_pos hbad]
    exact ⟨_, rfl, State.audRefused_effect hst hreq rfl⟩
  · rw [execAudEnable_next hp, (writeAudCtrl_of_accepts hacc).2 hon hoff]
    obtain ⟨hoff', ⟨hg, hothers⟩, heq, hregs, hbytes⟩ := State.audStopping_effect hoff hst hreq ha hphase hclock rfl
    exact ⟨_, rfl, hoff', hg, hothers, heq, hregs, hbytes⟩
  · rw [execAudEnable_next hp, (writeAudCtrl_of_accepts hacc).2 hon hoff]
    obtain ⟨hoff', h0, ⟨hg, hothers⟩, hout, heq, hregs, hbytes⟩ := State.audDisabled_effect hoff hst hreq ha hphase hblock hpend hmask rfl
    exact ⟨_, rfl, hoff', h0, hg, hout, hothers, heq, hregs, hbytes⟩
  · subst hb
    obtain ⟨h2, hclock, ⟨hg, hothers⟩, heq, hregs, hbytes⟩ := State.syncEdge_start_effect (n := bclks) hp hm ha hx hpend hmask hphase hmay rfl
    exact ⟨_, rfl, h2, hclock, hg, hothers, heq, hregs, hbytes⟩
  · exact ⟨_, rfl, State.syncEdge_running_effect hp hm ha hx hpend hmask hb hphase hstop htaken hrot h63 rfl⟩
  · obtain ⟨⟨hg, hothers⟩, heq⟩ := State.audSlot_masked_effect (word := word) hp hphase hclock ha hslot hbit rfl
    rw [hc, if_pos rfl] at heq
    exact ⟨_, rfl, hg, hothers, heq⟩
  · subst hs
    obtain ⟨⟨hg, hothers⟩, heq⟩ := State.audSlot_masked_effect (word := word) hp hphase hclock ha hslot hbit rfl
    rw [hc, if_neg Bool.false_ne_true] at heq
    exact ⟨_, rfl, hg, hothers, heq⟩
  · obtain ⟨hdata, hdram, ⟨hg, hothers⟩, hptr, htouch, hw⟩ := State.audSlot_captured_effect (word := word) hp hphase hclock ha hslot hdev hn hc
      hbit hroom rfl
    exact ⟨_, rfl, hdata, hdram, hg, hothers, hptr, htouch.eq_mix, hw.keepsReg⟩
  · obtain ⟨hcount, hev, ⟨hg, hothers⟩, htouch, hpages⟩ := State.audSlot_overrun_effect (word := word) hp hphase hclock ha hslot hdev hn hc
      hbit hcons hfull rfl
    exact ⟨_, rfl, hcount, hev, hg, hothers, htouch.eq_mix, hpages, htouch.keepsBytes rfl⟩
  · subst hs
    obtain ⟨hout, ⟨hg, hothers⟩, hptr, htouch, hw⟩ := State.audSlot_played_effect (word := word) hp hphase hclock ha hslot hdev hn hc hbit
      hdata rfl
    exact ⟨_, rfl, hout, hg, hothers, hptr, htouch.eq_mix, hw.keepsReg, htouch.keepsBytes rfl⟩
  · subst hs
    obtain ⟨hout, hcount, hev, ⟨hg, hothers⟩, htouch, hpages⟩ := State.audSlot_underrun_effect (word := word) hp hphase hclock ha hslot hdev hc
      hbit hempty rfl
    exact ⟨_, rfl, hout, hcount, hev, hg, hothers, htouch.eq_mix, hpages, htouch.keepsBytes rfl⟩

end Sys2Proof.Machine
end

section
/-! PROOFS. Loupe: what its engines read of one another, their sources, and ENABLE (R344 to R347, R353). -/

set_option Elab.async false

namespace Sys2Proof.Machine

variable {s t u : State} {n k : Nat}

/-! ### Engines and their registers -/

theorem State.engine_putEngine (s : State) (n : Nat) (e : LoupeSt) : (s.putEngine n e).engine n = e := Tbl.get_put_same ..

theorem State.engine_putEngine_ne (s : State) (e : LoupeSt) {m : Nat} (h : m ≠ n) : (s.putEngine n e).engine m = s.engine m :=
  Tbl.get_put_ne _ _ _ _ h

theorem State.engine_congr (h : t.loupe = s.loupe) (m : Nat) : t.engine m = s.engine m := by
  rw [State.engine, h, State.engine]

/-- A step gives the engine the state `e` and leaves the other engines. -/
def State.EngineGets (s t : State) (n : Nat) (e : LoupeSt) : Prop := t.engine n = e ∧ ∀ m, m ≠ n → t.engine m = s.engine m

theorem State.EngineGets.put (s : State) (n : Nat) (e : LoupeSt) : s.EngineGets (s.putEngine n e) n e :=
  ⟨s.engine_putEngine n e, fun _ hm => s.engine_putEngine_ne e hm⟩

theorem State.EngineGets.trans {d e : LoupeSt} (h : s.EngineGets t n d) (h' : t.EngineGets u n e) : s.EngineGets u n e :=
  ⟨h'.1, fun m hm => (h'.2 m hm).trans (h.2 m hm)⟩

theorem State.EngineGets.of_loupe {e : LoupeSt} (h : s.EngineGets t n e) (hu : u.loupe = t.loupe) : s.EngineGets u n e :=
  ⟨(State.engine_congr hu n).trans h.1, fun m hm => (State.engine_congr hu m).trans (h.2 m hm)⟩

theorem State.EngineGets.refl (s : State) (n : Nat) : s.EngineGets s n (s.engine n) := ⟨rfl, fun _ _ => rfl⟩

theorem keyOf_loupe_ne {f g : Fld} (h : f.off ≠ g.off) : keyOf f (Pg.loupe n) ≠ keyOf g (Pg.loupe n) := by
  unfold keyOf
  omega

theorem onPages_loupe (hn : n < 4) {f : Fld} (hf : f.off < 0x1000) : onPages [Pg.loupe n] (keyOf f (Pg.loupe n)) :=
  onPages_single hf (by simp only [Pg.loupe]; omega)

theorem State.fld_setLoupeFld_ne (s : State) {f g : Fld} (v : Nat) (h : g.off ≠ f.off) :
    (s.setFld (Pg.loupe n) f v).fld (Pg.loupe n) g = s.fld (Pg.loupe n) g :=
  State.fld_of_rd (by rw [State.rd_setFld, if_neg (keyOf_loupe_ne h)])

theorem State.lv_congr (h : (t.engine n).vals = (s.engine n).vals) (f : Fld) : t.lv n f = s.lv n f := by
  rw [State.lv, h, State.lv]

/-- What the output of an engine writes: its own status, and that of SDI links and of Mirror. -/
def outputMay (n a : Nat) : Prop :=
  (a / 0x1000 = Pg.loupe n ∧ a % 0x1000 ∈ [0x010, 0x04C, 0x050, 0x054, 0x058, 0x05C])
    ∨ (∃ k < 4, a / 0x1000 = Pg.sdi k ∧ a % 0x1000 ∈ [0x010, 0x044, 0x048]) ∨ (a / 0x1000 = Pg.mirror ∧ a % 0x1000 ∈ [0x00C, 0x010])

theorem outputMay_loupe {f : Fld} (hf : f.off ∈ [0x010, 0x04C, 0x050, 0x054, 0x058, 0x05C]) : outputMay n (keyOf f (Pg.loupe n)) := by
  have hlt : f.off < 0x1000 := by
    simp only [List.mem_cons, List.not_mem_nil, or_false] at hf
    omega
  have h1 : keyOf f (Pg.loupe n) / 0x1000 = Pg.loupe n := by
    unfold keyOf
    omega
  have h2 : keyOf f (Pg.loupe n) % 0x1000 = f.off := by
    unfold keyOf
    omega
  exact .inl ⟨h1, h2 ▸ hf⟩

theorem outputMay_sdi (hk : k < 4) {f : Fld} (hf : f.off ∈ [0x010, 0x044, 0x048]) : outputMay n (keyOf f (Pg.sdi k)) := by
  have hlt : f.off < 0x1000 := by
    simp only [List.mem_cons, List.not_mem_nil, or_false] at hf
    omega
  have h1 : keyOf f (Pg.sdi k) / 0x1000 = Pg.sdi k := by
    unfold keyOf
    omega
  have h2 : keyOf f (Pg.sdi k) % 0x1000 = f.off := by
    unfold keyOf
    omega
  exact .inr (.inl ⟨k, hk, h1, h2 ▸ hf⟩)

theorem outputMay_mirror {f : Fld} (hf : f.off ∈ [0x00C, 0x010]) : outputMay n (keyOf f Pg.mirror) := by
  have hlt : f.off < 0x1000 := by
    simp only [List.mem_cons, List.not_mem_nil, or_false] at hf
    omega
  have h1 : keyOf f Pg.mirror / 0x1000 = Pg.mirror := by
    unfold keyOf
    omega
  have h2 : keyOf f Pg.mirror % 0x1000 = f.off := by
    unfold keyOf
    omega
  exact .inr (.inr ⟨h1, h2 ▸ hf⟩)

/-- A register of another page, or of another offset, is not among those that an output writes. -/
theorem not_outputMay {p : Nat} {f : Fld} (hf : f.off < 0x1000) (h1 : p = Pg.loupe n → f.off ∉ [0x010, 0x04C, 0x050, 0x054, 0x058, 0x05C])
    (h2 : (∃ k < 4, p = Pg.sdi k) → f.off ∉ [0x010, 0x044, 0x048]) (h3 : p = Pg.mirror → f.off ∉ [0x00C, 0x010]) :
    ¬ outputMay n (keyOf f p) := by
  have hd : keyOf f p / 0x1000 = p := by
    unfold keyOf
    omega
  have hm : keyOf f p % 0x1000 = f.off := by
    unfold keyOf
    omega
  unfold outputMay
  rw [hd, hm]
  rintro (⟨h, h'⟩ | ⟨k, hk, h, h'⟩ | ⟨h, h'⟩)
  · exact h1 h h'
  · exact h2 ⟨k, hk, h⟩ h'
  · exact h3 h h'

theorem onPages_of_outputMay (hn : n < 4) {a : Nat} (h : outputMay n a) : onPages ([Pg.loupe n, Pg.mirror] ++ pagesOf Pg.sdi 4) a := by
  have hpages : pagesOf Pg.sdi 4 = [Pg.sdi 0, Pg.sdi 1, Pg.sdi 2, Pg.sdi 3] := rfl
  unfold onPages
  rw [hpages]
  rcases h with ⟨h, -⟩ | ⟨k, hk, h, -⟩ | ⟨h, -⟩
  · rw [h, Nat.mod_eq_of_lt (by simp only [Pg.loupe]; omega)]
    simp
  · rw [h, Nat.mod_eq_of_lt (by simp only [Pg.sdi]; omega)]
    interval_cases k <;> simp
  · rw [h]
    simp [Pg.mirror]

/-- What an output frame and its first line write: the status of the engine and of SDI links. -/
def sampleMay (n a : Nat) : Prop := outputMay n a ∧ a / 0x1000 ≠ Pg.mirror

theorem sampleMay_loupe (hn : n < 4) {f : Fld} (hf : f.off ∈ [0x010, 0x04C, 0x050, 0x054, 0x058, 0x05C]) : sampleMay n (keyOf f (Pg.loupe n)) := by
  refine ⟨outputMay_loupe hf, ?_⟩
  simp only [List.mem_cons, List.not_mem_nil, or_false] at hf
  simp only [keyOf, Pg.loupe, Pg.mirror]
  omega

theorem sampleMay_sdi (hk : k < 4) {f : Fld} (hf : f.off ∈ [0x010, 0x044, 0x048]) : sampleMay n (keyOf f (Pg.sdi k)) := by
  refine ⟨outputMay_sdi hk hf, ?_⟩
  simp only [List.mem_cons, List.not_mem_nil, or_false] at hf
  simp only [keyOf, Pg.sdi, Pg.mirror]
  omega

theorem sampleMay_of_shown (hn : n < 4) {a : Nat} (h : a ∈ [keyOf Reg.LOUPE_SHOWN_LO (Pg.loupe n), keyOf Reg.LOUPE_SHOWN_HI (Pg.loupe n)]) :
    sampleMay n a := by
  simp only [List.mem_cons, List.not_mem_nil, or_false] at h
  rcases h with rfl | rfl
  · exact sampleMay_loupe hn (by decide)
  · exact sampleMay_loupe hn (by decide)

theorem onPages_of_sampleMay (hn : n < 4) {a : Nat} (h : sampleMay n a) : onPages ([Pg.loupe n] ++ pagesOf Pg.sdi 4) a := by
  have hpages : pagesOf Pg.sdi 4 = [Pg.sdi 0, Pg.sdi 1, Pg.sdi 2, Pg.sdi 3] := rfl
  obtain ⟨⟨h, -⟩ | ⟨k, hk, h, -⟩ | ⟨h, -⟩, hm⟩ := h
  · unfold onPages
    rw [h, Nat.mod_eq_of_lt (by simp only [Pg.loupe]; omega)]
    exact List.mem_cons_self
  · unfold onPages
    rw [h, Nat.mod_eq_of_lt (by simp only [Pg.sdi]; omega), hpages]
    interval_cases k <;> simp
  · exact absurd h hm

/-- What the links of engines are read from is the same. -/
def State.SameLinks (s t : State) : Prop :=
  (∀ m, m < 4 → ∀ f : Fld, f.off = 0x040 ∨ f = Reg.LOUPE_STATE_PHASE → t.fld (Pg.loupe m) f = s.fld (Pg.loupe m) f)
    ∧ (∀ k, k < 4 → t.fld (Pg.sdi k) Reg.SDI_CTRL_ENABLE = s.fld (Pg.sdi k) Reg.SDI_CTRL_ENABLE)
    ∧ ∀ m, (t.engine m).vals = (s.engine m).vals

theorem State.SameLinks.of_writes (hn : n < 4) (hw : s.WritesIn t (outputMay n)) (hv : ∀ m, (t.engine m).vals = (s.engine m).vals) :
    s.SameLinks t := by
  refine ⟨fun m hm f hf => hw.fld ?_, fun k hk => hw.fld ?_, hv⟩
  · have hoff : f.off = 0x040 ∨ f.off = 0x00C := hf.imp_right fun h => by rw [h]
    refine not_outputMay (by omega) (fun _ h => ?_) (fun ⟨k, _, h⟩ => ?_) fun h => ?_
    · simp only [List.mem_cons, List.not_mem_nil, or_false] at h
      omega
    · simp only [Pg.loupe, Pg.sdi] at h
      omega
    · simp only [Pg.loupe, Pg.mirror] at h
      omega
  · refine not_outputMay (by decide) (fun h => ?_) (fun _ => by decide) fun h => ?_
    · simp only [Pg.loupe, Pg.sdi] at h
      omega
    · simp only [Pg.sdi, Pg.mirror] at h
      omega

theorem State.SameLinks.trans (h : s.SameLinks t) (h' : t.SameLinks u) : s.SameLinks u := by
  obtain ⟨h1, h2, h3⟩ := h
  obtain ⟨h1', h2', h3'⟩ := h'
  exact ⟨fun m hm f hf => (h1' m hm f hf).trans (h1 m hm f hf), fun k hk => (h2' k hk).trans (h2 k hk), fun m => (h3' m).trans (h3 m)⟩

section
variable (h : s.SameLinks t)
include h

theorem State.SameLinks.lv (n : Nat) (f : Fld) : t.lv n f = s.lv n f := State.lv_congr (h.2.2 n) f

theorem State.SameLinks.engFmt (n : Nat) : t.engFmt n = s.engFmt n := h.lv n _

theorem State.SameLinks.engRate (n : Nat) : t.engRate n = s.engRate n := h.lv n _

theorem State.SameLinks.cfg (hn : n < 4) {f : Fld} (hf : f.off = 0x040) : t.fld (Pg.loupe n) f = s.fld (Pg.loupe n) f := h.1 n hn f (.inl hf)

theorem State.SameLinks.sdiOn (hn : n < 4) : t.sdiOn n = s.sdiOn n := by
  rw [State.sdiOn, State.on, h.cfg hn rfl]
  rfl

theorem State.SameLinks.locks (hn : n < 4) : t.locks n = s.locks n := by
  rw [State.locks, State.on, h.cfg hn rfl]
  rfl

theorem State.SameLinks.engineRuns (hn : n < 4) : t.engineRuns n = s.engineRuns n := by
  rw [State.engineRuns, h.1 n hn _ (.inr rfl), State.engineRuns]

theorem State.SameLinks.engineOk (hn : n < 4) : t.engineOk n = s.engineOk n := by
  rw [State.engineOk, h.engineRuns hn, h.engFmt, h.engRate, h.sdiOn hn, State.engineOk]

theorem State.SameLinks.linkEngine (k : Nat) : t.linkEngine k = s.linkEngine k := by
  rw [State.linkEngine, h.engineRuns (by decide), h.sdiOn (by decide), h.engFmt, h.engRate, State.linkEngine]

theorem State.SameLinks.linksOf (hn : n < 4) : t.linksOf n = s.linksOf n := by
  have hk : ∀ k ∈ List.range 4, (decide (t.linkEngine k = n) && t.on (Pg.sdi k) Reg.SDI_CTRL_ENABLE)
      = (decide (s.linkEngine k = n) && s.on (Pg.sdi k) Reg.SDI_CTRL_ENABLE) := fun k hk => by
    rw [h.linkEngine, State.on, h.2.1 k (List.mem_range.1 hk), ← State.on]
  rw [State.linksOf, h.engineOk hn, h.sdiOn hn, List.filter_congr hk, State.linksOf]

end

theorem lt_of_mem_linksOf (h : k ∈ s.linksOf n) : k < 4 := by
  unfold State.linksOf at h
  split at h
  · exact List.mem_range.1 (List.mem_filter.1 h).1
  · exact absurd h List.not_mem_nil

theorem linksOf_nodup (s : State) (n : Nat) : (s.linksOf n).Nodup := by
  unfold State.linksOf
  split
  · exact List.nodup_range.filter _
  · exact List.nodup_nil

/-! ### Sources -/

/-- The state in which an engine has let go of the buffer that it showed. -/
def State.sourceFreed (s : State) (n : Nat) : State :=
  match (s.engine n).source with
  | some (v, f) => if v < 8 then s.freeBuf (.loupe n) v f else s
  | none => s

/-- The state in which an engine holds a buffer that it is to show. -/
def State.sourceHeld (s : State) (n v f : Nat) : State := if v < 8 then s.holdBuf (.loupe n) v f else s

theorem State.sourceFreed_touches (s : State) (n : Nat) : s.Touches (s.sourceFreed n) [.splitHolds] := by
  unfold State.sourceFreed
  split
  · exact .ite (State.freeBuf_touches ..) (.refl s _)
  · exact .refl s _

theorem State.sourceHeld_touches (s : State) (n v f : Nat) : s.Touches (s.sourceHeld n v f) [.splitHolds] :=
  .ite (State.holdBuf_touches ..) (.refl s _)

theorem State.setSource_same {src : Option (Nat × Nat)} (h : (s.engine n).source = src) : s.setSource n src = s := by
  rw [State.setSource, if_pos h]

theorem State.setSource_none (h : (s.engine n).source ≠ none) :
    s.setSource n none = (s.sourceFreed n).putEngine n { s.engine n with source := none } := by
  unfold State.setSource
  rw [if_neg h]
  rfl

theorem State.setSource_some {v f : Nat} (h : (s.engine n).source ≠ some (v, f)) :
    ∃ x, s.setSource n (some (v, f)) = (((s.sourceFreed n).sourceHeld n v f).putEngine n
      { s.engine n with source := some (v, f) }).setFld64 (Pg.loupe n) Reg.LOUPE_SHOWN_LO Reg.LOUPE_SHOWN_HI x := by
  unfold State.setSource
  rw [if_neg h]
  exact ⟨_, rfl⟩

/-- What an engine's new source leaves. -/
theorem State.setSource_effect {src : Option (Nat × Nat)} (ht : t = s.setSource n src) :
    s.EngineGets t n { s.engine n with source := src } ∧ s.Touches t [.regs, .splitHolds, .loupe]
      ∧ s.WritesIn t (· ∈ [keyOf Reg.LOUPE_SHOWN_LO (Pg.loupe n), keyOf Reg.LOUPE_SHOWN_HI (Pg.loupe n)])
      ∧ (src = none → t.regs = s.regs) := by
  have hput {v : State} (hv : s.Touches v [.splitHolds]) (e : LoupeSt) :
      s.EngineGets (v.putEngine n e) n e ∧ s.Touches (v.putEngine n e) [.regs, .splitHolds, .loupe] := by
    obtain ⟨hg, ho⟩ := State.EngineGets.put v n e
    exact ⟨⟨hg, fun m hm => (ho m hm).trans (State.engine_congr (hv.same .loupe (by decide)) m)⟩,
      .step (hv.mono rfl) (State.putEngine_touches ..) rfl⟩
  by_cases hsrc : (s.engine n).source = src
  · rw [State.setSource_same hsrc] at ht
    subst ht hsrc
    exact ⟨.refl t n, .refl _ _, .refl _ _, fun _ => rfl⟩
  · cases src with
    | none =>
      rw [State.setSource_none hsrc] at ht
      obtain ⟨hget, htouch⟩ := hput (s.sourceFreed_touches n) { s.engine n with source := none }
      have hregs : t.regs = s.regs := by
        rw [ht]
        exact (s.sourceFreed_touches n).same .regs (by decide)
      exact ⟨ht ▸ hget, ht ▸ htouch, .of_regs (.refl s _) hregs, fun _ => hregs⟩
    | some x =>
      obtain ⟨v, f⟩ := x
      obtain ⟨x, hx⟩ := State.setSource_some hsrc
      rw [hx] at ht
      have hheld : s.Touches ((s.sourceFreed n).sourceHeld n v f) [.splitHolds] :=
        (s.sourceFreed_touches n).trans (State.sourceHeld_touches ..)
      obtain ⟨hget, htouch⟩ := hput hheld { s.engine n with source := some (v, f) }
      have hregs := hheld.same .regs (by decide)
      subst ht
      exact ⟨hget.of_loupe rfl, .step htouch (State.setFld64_touches ..) rfl,
        .setFld64 (.of_regs (.refl s _) hregs) _ (by simp) (by simp), fun h => (nomatch h)⟩

/-- The rendition buffers that an engine holds once it has no source. -/
theorem State.setSource_none_holds (ht : t = s.setSource n none) :
    (∀ a f, (s.engine n).source = some (a, f) → a < 8 → (Reader.loupe n, a, f) ∉ t.split.holds)
      ∧ ∀ h ∈ s.split.holds, (∀ a f, h ≠ (Reader.loupe n, a, f)) → h ∈ t.split.holds := by
  cases hsrc : (s.engine n).source with
  | none =>
    have heq : t = s := by rw [ht, State.setSource, if_pos hsrc]
    rw [heq]
    exact ⟨fun a f h => (nomatch h), fun h hh _ => hh⟩
  | some x =>
    obtain ⟨a, f⟩ := x
    have heq : t.split.holds = if a < 8 then s.split.holds.filter fun h => decide (h ≠ (Reader.loupe n, a, f)) else s.split.holds := by
      rw [ht, State.setSource_none (by rw [hsrc]; exact fun h => (nomatch h)), State.sourceFreed]
      simp only [hsrc]
      split <;> rfl
    rw [heq]
    refine ⟨fun b g h hb => ?_, fun h hh hne => ?_⟩
    · cases h
      rw [if_pos hb]
      simp
    · split
      · exact List.mem_filter.2 ⟨hh, decide_eq_true (hne a f)⟩
      · exact hh

/-- With LOCK 1 the first active line chooses some source. -/
theorem State.lockSource_eq (s : State) (n : Nat) : ∃ src, s.lockSource n = s.setSource n src := by
  unfold State.lockSource
  split
  · split
    · exact ⟨_, rfl⟩
    · exact ⟨_, rfl⟩
  · exact ⟨_, rfl⟩

end Sys2Proof.Machine
end

section
/-! PROOFS. Loupe: ENABLE, LOCK_LOST and the sample point of an engine (R347, R353 to R356, R360). -/

set_option Elab.async false

namespace Sys2Proof.Machine

variable {s t u v : State} {n : Nat}

/-! ### ENABLE -/

/-- The state with CTRL of an engine written. -/
def State.loupeStored (s : State) (n : Nat) (w : Word) : State := s.wr (keyOf Reg.LOUPE_CTRL_ENABLE (Pg.loupe n)) w


theorem bankPage_loupe (hn : n < 4) (r : Req) (o : Nat) : bankPage r (Pg.loupe n) o = Pg.loupe n := by
  simp only [bankPage, Pg.loupe, Pg.hostq, Pg.coll]
  rw [if_neg (by omega), if_neg (by omega)]

/-- What a write of CTRL does where it is refused, where ENABLE rises and where it falls. -/
theorem writeLoupeCtrl_of_accepts {r : Req} {v w : Word} (hn : n < 4) (ha : s.accepts r (Pg.loupe n) 0x008 v = true)
    (hw : w = s.written r (Pg.loupe n) 0x008 v) (hm : outputMode s.ctl.mode = true) :
    writeLoupeCtrl r n v s =
      if wmSet v Reg.LOUPE_CTRL_ENABLE && s.enableBarred n (!s.on (Pg.loupe n) Reg.LOUPE_CTRL_ENABLE) then s.reject (Pg.loupe n)
      else (if decide (wfld w Reg.LOUPE_CTRL_ENABLE = 1) = s.on (Pg.loupe n) Reg.LOUPE_CTRL_ENABLE then s.loupeStored n w
        else if decide (wfld w Reg.LOUPE_CTRL_ENABLE = 1) then (s.loupeStored n w).engineStart n
        else (s.loupeStored n w).engineStop n).settle (Pg.loupe n) := by
  have hkey : Pg.loupe n * 0x1000 + 0x008 = keyOf Reg.LOUPE_CTRL_ENABLE (Pg.loupe n) := rfl
  have hold : (s.rd (keyOf Reg.LOUPE_CTRL_ENABLE (Pg.loupe n))).getLsbD 0 = s.on (Pg.loupe n) Reg.LOUPE_CTRL_ENABLE := getLsbD_zero_eq _
  have hnew : w.getLsbD 0 = decide (wfld w Reg.LOUPE_CTRL_ENABLE = 1) := getLsbD_zero_eq w
  have hlo : isLo (Pg.loupe n) 0x008 = false ∧ isLo (Pg.loupe n) (0x008 - 4) = false := by
    interval_cases n <;> decide
  have hstore (old : Word) : plainStore r (Pg.loupe n) 0x008 s old w = s.loupeStored n w := by
    rw [plainStore, bankPage_loupe hn, State.store]
    simp only [hlo.1, hlo.2, Bool.false_eq_true, if_false, and_false]
    rfl
  rw [writeLoupeCtrl, withWrite_of_accepts _ ha, bankPage_loupe hn, ← hw]
  simp only [hkey, hold, hnew, hstore, hm, Bool.true_eq_false, or_false]

theorem execLoupeEnable_next (hn : n < 4) (r : Req) (v : Word) (s : State) : exec (.loupeEnable r n v) s = .next (writeLoupeCtrl r n v s) := by
  have h : exec (.loupeEnable r n v) s = .next (if 4 ≤ n then s else writeLoupeCtrl r n v s) := rfl
  rw [h, if_neg (by omega)]

theorem State.loupeStored_fld (w : Word) {f : Fld} (hf : f.off ≠ 0x008) :
    (s.loupeStored n w).fld (Pg.loupe n) f = s.fld (Pg.loupe n) f := State.fld_wr_ne s w (keyOf_loupe_ne hf)

theorem State.loupeStored_enable (s : State) (n : Nat) (w : Word) :
    (s.loupeStored n w).fld (Pg.loupe n) Reg.LOUPE_CTRL_ENABLE = wfld w Reg.LOUPE_CTRL_ENABLE := by
  rw [State.loupeStored, State.fld, State.rd_wr_same]
  rfl

theorem State.loupeStored_activeVals (s : State) (n : Nat) (w : Word) : (s.loupeStored n w).activeVals n = s.activeVals n := by
  refine List.map_congr_left fun o _ => ?_
  rw [State.loupeStored, State.rd_wr, if_neg (by unfold keyOf; simp only [Pg.loupe]; omega)]

/-- What an engine that starts leaves. -/
theorem State.engineStart_effect (hn : n < 4) (ht : t = s.engineStart n) :
    t.fld (Pg.loupe n) Reg.LOUPE_STATE_PHASE = 1 ∧ t.fld64 (Pg.loupe n) Reg.LOUPE_FRAMES_LO Reg.LOUPE_FRAMES_HI = 0
      ∧ s.EngineGets t n { vals := s.activeVals n, audio := s.time } ∧ s.Touches t [.regs, .loupe] ∧ s.WritesIn t (onPages [Pg.loupe n])
      ∧ ∀ f : Fld, f.off ∉ [0x00C, 0x04C, 0x050] → t.fld (Pg.loupe n) f = s.fld (Pg.loupe n) f := by
  obtain ⟨u, hu⟩ : ∃ u, u = s.putEngine n { vals := s.activeVals n, audio := s.time } := ⟨_, rfl⟩
  obtain ⟨v, hv⟩ : ∃ v, v = u.setFld64 (Pg.loupe n) Reg.LOUPE_FRAMES_LO Reg.LOUPE_FRAMES_HI 0 := ⟨_, rfl⟩
  have ht' : t = v.setFld (Pg.loupe n) Reg.LOUPE_STATE_PHASE 1 := by rw [ht, hv, hu]; rfl
  have htv {f : Fld} (hf : f.off ≠ 0x00C) : t.fld (Pg.loupe n) f = v.fld (Pg.loupe n) f := by
    rw [ht', State.fld_setLoupeFld_ne _ _ hf]
  have hsu : s.Touches u [.loupe] := hu ▸ s.putEngine_touches ..
  have hur : u.regs = s.regs := hsu.same .regs (by decide)
  refine ⟨?_, ?_, ?_, ?_, ?_, fun f hf => ?_⟩
  · rw [ht']
    exact State.fld_setFld_of_width _ _ _ _ (by decide) (by decide)
  · rw [State.fld64_congr (htv (by decide)) (htv (by decide)), hv,
      State.fld64_setFld64 _ _ (by decide) (by decide) rfl rfl (keyOf_loupe_ne (by decide)), Nat.zero_mod]
  · have hget := State.EngineGets.put s n { vals := s.activeVals n, audio := s.time }
    rw [← hu] at hget
    exact hget.of_loupe (by rw [ht', hv]; rfl)
  · rw [ht', hv]
    exact .step (.step (hsu.mono rfl) (State.setFld64_touches ..) rfl) (State.setFld_touches ..) rfl
  · rw [ht', hv]
    exact .setFld (.setFld64 (.of_regs (.refl s _) hur) _ (onPages_loupe hn (by decide)) (onPages_loupe hn (by decide))) _
      (onPages_loupe hn (by decide))
  · simp only [List.mem_cons, List.not_mem_nil, or_false, not_or] at hf
    obtain ⟨h1, h2, h3⟩ := hf
    rw [htv h1, hv, State.setFld64, State.fld_setLoupeFld_ne _ _ h3, State.fld_setLoupeFld_ne _ _ h2, State.fld_congr hur]

/-- A page that something holds on, or that asks to be on, only begins to rise. -/
theorem State.settle_of_asked {p : Nat} (h : s.heldOn p = true ∨ s.fld p Reg.COMMON_PWR_REQ_REQ = 3) :
    s.Touches (s.settle p) [.pwrRising]
      ∧ (s.fld p Reg.COMMON_PWR_REQ_STATUS ≠ 3 → pageDomain p ≠ 0 → p ∈ (s.settle p).pwr.rising) := by
  have hreq : s.heldOn p = true ∨ reqOf (s.fld p Reg.COMMON_PWR_REQ_REQ) = 3 := h.imp_right fun h => by rw [h]; rfl
  have hset : s.settle p = if pageDomain p = 0 ∨ s.pwr.rising.contains p then s
      else if s.fld p Reg.COMMON_PWR_REQ_STATUS = 3 then s else s.setPwr { s.pwr with rising := insertNat p s.pwr.rising } := by
    unfold State.settle
    simp only [hreq, if_true]
  rw [hset]
  refine ⟨.ite (.refl s _) (.ite (.refl s _) (.of_mix rfl rfl)), fun hst hdom => ?_⟩
  by_cases hr : s.pwr.rising.contains p = true
  · rw [if_pos (.inr hr)]
    exact List.contains_iff_mem.1 hr
  · rw [if_neg (by simp only [hdom, hr, or_self, not_false_iff, Bool.false_eq_true]), if_neg hst]
    exact mem_insertNat p _

theorem State.heldOn_loupe (hn : n < 4) (hm : outputMode s.ctl.mode = true) (hen : s.fld (Pg.loupe n) Reg.LOUPE_CTRL_ENABLE = 1) :
    s.heldOn (Pg.loupe n) = true := by
  have hrun : s.running (Pg.loupe n) = true := by
    rw [State.running_loupe s hn, hm, (State.on_eq_true ..).2 (show s.fld (Pg.loupe n) Reg.COMMON_CTRL_ENABLE = 1 from hen), Bool.and_self]
  unfold State.heldOn State.powerRuns
  rw [pageBlk_loupe hn]
  simp only [hrun, Bool.or_true, Bool.true_or]

/-- What a rise of ENABLE leaves. -/
theorem State.loupeEnabled_effect {w : Word} (hn : n < 4) (hw : wfld w Reg.LOUPE_CTRL_ENABLE = 1) (hm : outputMode s.ctl.mode = true)
    (ht : t = ((s.loupeStored n w).engineStart n).settle (Pg.loupe n)) :
    t.on (Pg.loupe n) Reg.LOUPE_CTRL_ENABLE = true ∧ t.fld (Pg.loupe n) Reg.LOUPE_STATE_PHASE = 1
      ∧ s.EngineGets t n { vals := s.activeVals n, audio := s.time }
      ∧ t.fld64 (Pg.loupe n) Reg.LOUPE_FRAMES_LO Reg.LOUPE_FRAMES_HI = 0
      ∧ (s.fld (Pg.loupe n) Reg.COMMON_PWR_REQ_STATUS ≠ 3 → Pg.loupe n ∈ t.pwr.rising)
      ∧ s.Touches t [.regs, .loupe, .pwrRising] ∧ s.KeepsPages t [Pg.loupe n] := by
  obtain ⟨v, hv⟩ : ∃ v, v = s.loupeStored n w := ⟨_, rfl⟩
  obtain ⟨u, hu⟩ : ∃ u, u = v.engineStart n := ⟨_, rfl⟩
  rw [← hv, ← hu] at ht
  obtain ⟨hphase, hframes, hget, hvu, hvuw, hkeep⟩ := State.engineStart_effect hn hu
  have hsv : s.Touches v [.regs] := hv ▸ State.wr_touches ..
  have hsvw : s.WritesIn v (onPages [Pg.loupe n]) := hv ▸ .wr (.refl s _) _ (onPages_loupe hn (by decide))
  have hen : u.fld (Pg.loupe n) Reg.LOUPE_CTRL_ENABLE = 1 := by rw [hkeep _ (by decide), hv, State.loupeStored_enable, hw]
  have hmode : outputMode u.ctl.mode = true := by
    rw [hvu.eq_mix, hv]
    exact hm
  obtain ⟨hut, hrise⟩ := State.settle_of_asked (.inl (State.heldOn_loupe hn hmode hen))
  rw [← ht] at hut hrise
  have htr : t.regs = u.regs := hut.same .regs (by decide)
  have hstatus : u.fld (Pg.loupe n) Reg.COMMON_PWR_REQ_STATUS = s.fld (Pg.loupe n) Reg.COMMON_PWR_REQ_STATUS := by
    rw [hkeep _ (by decide), hv, State.loupeStored_fld _ (by decide)]
  have hdom : pageDomain (Pg.loupe n) ≠ 0 := by interval_cases n <;> decide
  have hvt : v.time = s.time := by rw [hv]; rfl
  rw [hvt, hv, State.loupeStored_activeVals] at hget
  obtain ⟨hg, hothers⟩ := hget
  refine ⟨(State.on_eq_true ..).2 ((State.fld_congr htr ..).trans hen), (State.fld_congr htr ..).trans hphase,
    State.EngineGets.of_loupe ⟨hg, hothers⟩ (hut.same .loupe (by decide)),
    (State.fld64_congr (State.fld_congr htr ..) (State.fld_congr htr ..)).trans hframes, fun h => hrise (hstatus ▸ h) hdom,
    .step (.step (hsv.mono rfl) hvu rfl) hut rfl, ((hsvw.trans hvuw).of_regs htr).keepsPages⟩

/-- An engine that stops without a commit to apply, as its registers show it. -/
theorem State.engineStop_effect (hn : n < 4)
    (hc : ¬ (s.fld (Pg.loupe n) Reg.COMMON_COMMIT_PENDING = 1 ∧ s.fld (Pg.loupe n) Reg.COMMON_COMMIT_SOURCE = 1)) (ht : t = s.engineStop n) :
    t.fld (Pg.loupe n) Reg.LOUPE_STATE_PHASE = 0 ∧ s.EngineGets t n {} ∧ t.split.holds = (s.setSource n none).split.holds
      ∧ s.Touches t [.regs, .splitHolds, .loupe] ∧ s.WritesIn t (onPages [Pg.loupe n])
      ∧ ∀ f : Fld, f.off ≠ 0x00C → t.fld (Pg.loupe n) f = s.fld (Pg.loupe n) f := by
  obtain ⟨v, hv⟩ : ∃ v, v = s.setSource n none := ⟨_, rfl⟩
  obtain ⟨u, hu⟩ : ∃ u, u = (v.putEngine n {}).setFld (Pg.loupe n) Reg.LOUPE_STATE_PHASE 0 := ⟨_, rfl⟩
  obtain ⟨w, hw⟩ : ∃ w, w = u.setFld (Pg.loupe n) Reg.LOUPE_STATE_HOLDOVER 0 := ⟨_, rfl⟩
  obtain ⟨hget, hsv, -, hregs⟩ := State.setSource_effect hv
  have hvr : v.regs = s.regs := hregs rfl
  have hkeep {f : Fld} (hf : f.off ≠ 0x00C) : w.fld (Pg.loupe n) f = s.fld (Pg.loupe n) f := by
    rw [hw, State.fld_setLoupeFld_ne _ _ hf, hu, State.fld_setLoupeFld_ne _ _ hf]
    exact State.fld_congr hvr ..
  have hstop : s.engineStop n = if w.fld (Pg.loupe n) Reg.COMMON_COMMIT_PENDING = 1 ∧ w.fld (Pg.loupe n) Reg.COMMON_COMMIT_SOURCE = 1
      then w.applyCommit (Pg.loupe n) else w := by
    rw [hw, hu, hv]
    rfl
  rw [hstop, hkeep (by decide), hkeep (by decide), if_neg hc] at ht
  subst ht
  have hputr : (v.putEngine n {}).regs = s.regs := hvr
  refine ⟨?_, ?_, by rw [hw, hu, hv]; rfl, ?_, ?_, fun f hf => hkeep hf⟩
  · rw [hw, State.fld_setFld_ne _ _ _ _ _ _ (by decide) (.inr (.inr (by decide))), hu]
    exact State.fld_setFld_of_width _ _ _ _ (by decide) (by decide)
  · exact (hget.trans (State.EngineGets.put v n {})).of_loupe (by rw [hw, hu]; rfl)
  · rw [hw, hu]
    exact .step (.step (.step hsv (State.putEngine_touches ..) rfl) (State.setFld_touches ..) rfl) (State.setFld_touches ..) rfl
  · rw [hw, hu]
    exact .setFld (.setFld (.of_regs (.refl s _) hputr) _ (onPages_loupe hn (by decide))) _ (onPages_loupe hn (by decide))

/-- What a fall of ENABLE leaves. -/
theorem State.loupeDisabled_effect {w : Word} (hn : n < 4) (hw : wfld w Reg.LOUPE_CTRL_ENABLE = 0)
    (hc : ¬ (s.fld (Pg.loupe n) Reg.COMMON_COMMIT_PENDING = 1 ∧ s.fld (Pg.loupe n) Reg.COMMON_COMMIT_SOURCE = 1))
    (hreq : s.fld (Pg.loupe n) Reg.COMMON_PWR_REQ_REQ = 3) (ht : t = ((s.loupeStored n w).engineStop n).settle (Pg.loupe n)) :
    t.on (Pg.loupe n) Reg.LOUPE_CTRL_ENABLE = false ∧ t.fld (Pg.loupe n) Reg.LOUPE_STATE_PHASE = 0 ∧ s.EngineGets t n {}
      ∧ (∀ a f, (s.engine n).source = some (a, f) → a < 8 → (Reader.loupe n, a, f) ∉ t.split.holds)
      ∧ (∀ h ∈ s.split.holds, (∀ a f, h ≠ (Reader.loupe n, a, f)) → h ∈ t.split.holds)
      ∧ s.Touches t [.regs, .splitHolds, .loupe, .pwrRising] ∧ s.KeepsPages t [Pg.loupe n] := by
  obtain ⟨v, hv⟩ : ∃ v, v = s.loupeStored n w := ⟨_, rfl⟩
  obtain ⟨u, hu⟩ : ∃ u, u = v.engineStop n := ⟨_, rfl⟩
  rw [← hv, ← hu] at ht
  have hvf {f : Fld} (hf : f.off ≠ 0x008) : v.fld (Pg.loupe n) f = s.fld (Pg.loupe n) f := hv ▸ State.loupeStored_fld w hf
  have hsv : s.Touches v [.regs] := hv ▸ State.wr_touches ..
  have hsvw : s.WritesIn v (onPages [Pg.loupe n]) := hv ▸ .wr (.refl s _) _ (onPages_loupe hn (by decide))
  obtain ⟨hphase, hget, hholds, hvu, hvuw, hkeep⟩ := State.engineStop_effect hn (by rw [hvf (by decide), hvf (by decide)]; exact hc) hu
  obtain ⟨hut, -⟩ := State.settle_of_asked (s := u) (.inr (by rw [hkeep _ (by decide), hvf (by decide), hreq]))
  rw [← ht] at hut
  have htr : t.regs = u.regs := hut.same .regs (by decide)
  obtain ⟨hfree, hrest⟩ := State.setSource_none_holds (s := v) (n := n) rfl
  have hth : t.split.holds = (v.setSource n none).split.holds := (hut.same .splitHolds (by decide)).trans hholds
  have hve : v.engine n = s.engine n := by rw [hv]; rfl
  have hvs : v.split = s.split := by rw [hv]; rfl
  have hvl : v.loupe = s.loupe := by rw [hv]; rfl
  obtain ⟨hg, hothers⟩ := hget
  refine ⟨?_, (State.fld_congr htr ..).trans hphase,
    State.EngineGets.of_loupe ⟨hg, fun m hm => (hothers m hm).trans (State.engine_congr hvl m)⟩ (hut.same .loupe (by decide)), ?_, ?_,
    .step (.step (hsv.mono rfl) hvu rfl) hut rfl, ((hsvw.trans hvuw).of_regs htr).keepsPages⟩
  · rw [State.on, State.fld_congr htr, hkeep _ (by decide), hv, State.loupeStored_enable, hw]
    rfl
  · rw [hth, ← hve]
    exact hfree
  · rw [hth, ← hvs]
    exact hrest

/-- A write that makes ENABLE 0 does not set it. -/
theorem wmSet_of_written_zero {r : Req} {w v : Word} (hn : n < 4) (hw : w = s.written r (Pg.loupe n) 0x008 v)
    (hen : s.on (Pg.loupe n) Reg.LOUPE_CTRL_ENABLE = true) (h0 : wfld w Reg.LOUPE_CTRL_ENABLE = 0) :
    wmSet v Reg.LOUPE_CTRL_ENABLE = false := by
  have hold : (s.rd (keyOf Reg.LOUPE_CTRL_ENABLE (Pg.loupe n))).getLsbD 0 = true := (getLsbD_zero_eq _).trans hen
  have hnew : w.getLsbD 0 = false := (getLsbD_zero_eq w).trans (decide_eq_false (by rw [show Word.bits w 0 1 = 0 from h0]; decide))
  have hkey : Pg.loupe n * 0x1000 + 0x008 = keyOf Reg.LOUPE_CTRL_ENABLE (Pg.loupe n) := rfl
  rw [hw, State.written, bankPage_loupe hn, hkey, applyWrite, BitVec.getLsbD_or, BitVec.getLsbD_and, BitVec.getLsbD_and, BitVec.getLsbD_not,
    hold] at hnew
  obtain ⟨m, hm⟩ : ∃ m, m = (writeMask (openFields r ((fieldsAt (Pg.loupe n) 0x008).getD [])) v).getLsbD 0 := ⟨_, rfl⟩
  rw [← hm] at hnew
  have hv : v.getLsbD 0 = false := by
    cases hb : v.getLsbD 0 with
    | false => rfl
    | true =>
      rw [hb] at hnew
      cases m <;> exact absurd hnew (by decide)
  rw [wmSet, show v.getLsbD Reg.LOUPE_CTRL_ENABLE.lo = false from hv, Bool.and_false]

/-! ### LOCK_LOST -/

theorem State.lockLost_effect (hn : n < 4) (hr : s.engineRuns n = true) (hl : s.locks n = true)
    (hh : s.on (Pg.loupe n) Reg.LOUPE_STATE_HOLDOVER = false) :
    ∃ t, exec (.lockLost n) s = .next t
      ∧ t.fld (Pg.loupe n) Reg.LOUPE_STATE_HOLDOVER = 1 ∧ t.fld (Pg.loupe n) Reg.LOUPE_EVENT_LOCK_LOST = 1
      ∧ s.Kept t [keyOf Reg.LOUPE_STATE_HOLDOVER (Pg.loupe n), keyOf Reg.LOUPE_EVENT_LOCK_LOST (Pg.loupe n)] := by
  have h : exec (.lockLost n) s
      = .next (if 4 ≤ n ∨ s.engineRuns n = false ∨ s.locks n = false ∨ s.on (Pg.loupe n) Reg.LOUPE_STATE_HOLDOVER then s
        else (s.setFld (Pg.loupe n) Reg.LOUPE_STATE_HOLDOVER 1).raise (Pg.loupe n) Reg.LOUPE_EVENT_LOCK_LOST) := rfl
  rw [h, if_neg (by rw [hr, hl, hh]; simp; omega)]
  refine ⟨_, rfl, ?_, State.fld_raise_same _ _ _ (by decide) rfl, .of_writes ?_ ?_⟩
  · rw [State.fld_raise_ne _ _ _ _ _ (by decide) (.inl (keyOf_loupe_ne (by decide)))]
    exact State.fld_setFld_of_width _ _ _ _ (by decide) (by decide)
  · exact .raise (.setFld (.refl s _) _ (by simp)) (by simp)
  · exact .step ((State.setFld_touches ..).mono rfl) (State.raise_touches ..) rfl

/-! ### The sample point -/

/-- An engine as its sample point leaves it before its source is chosen: `black` frames of black are to come. -/
def LoupeSt.atLineZero (e : LoupeSt) (s : State) (n black : Nat) : LoupeSt :=
  { e with vals := s.activeVals n, begun := true, line := 0, sampled := s.time, realign := false, black := black }

/-- The generator at a sample point: it relocks, it has relocked, or it runs on. -/
def State.generated (s : State) (n : Nat) (relock realign : Bool) (black : Nat) : State :=
  if relock then { (s.setFld (Pg.loupe n) Reg.LOUPE_STATE_PHASE 2) with seed := s.seed + 1 }
  else if s.fld (Pg.loupe n) Reg.LOUPE_STATE_PHASE = 2 ∧ black = 0 then
    (s.setFld (Pg.loupe n) Reg.LOUPE_STATE_PHASE 1).raise (Pg.loupe n) Reg.LOUPE_EVENT_RELOCK
  else s.raiseIf (realign && !s.locks n) (Pg.loupe n) Reg.LOUPE_EVENT_RELOCK

/-- The source of an output frame chosen. -/
def State.sourceChosen (s : State) (n : Nat) : State :=
  if s.engineOk n = false then s.putEngine n { s.engine n with begun := false }
  else if s.locks n then
    (match (s.engine n).source with
     | some (v, _) => if s.srcRuns v then s else s.setSource n none
     | none => s)
  else
    match srcOf (s.lv n Reg.LOUPE_SRC) with
    | some v => if s.srcRuns v then s.setSource n ((s.newestOf v).map fun f => (v, f)) else s.setSource n none
    | none => s.setSource n none

/-- Whether the values of a sample point make the generator relock. -/
def State.relocks (s : State) (n : Nat) : Bool :=
  let u := s.putEngine n { s.engine n with vals := s.activeVals n }
  !(s.engine n).vals.isEmpty && decide ((u.engFmt n, u.engRate n) ≠ (s.engFmt n, s.engRate n))

theorem State.engFmt_of_vals (h : (t.engine n).vals = (s.engine n).vals) : t.engFmt n = s.engFmt n := State.lv_congr h _

theorem State.engRate_of_vals (h : (t.engine n).vals = (s.engine n).vals) : t.engRate n = s.engRate n := State.lv_congr h _

/-- A sample point that applies no commit. -/
theorem State.samplePoint_eq (hn : n < 4) (hr : s.engineRuns n = true) (hb : (s.engine n).begun = false)
    (hc : ¬ (s.fld (Pg.loupe n) Reg.COMMON_COMMIT_PENDING = 1 ∧ s.fld (Pg.loupe n) Reg.COMMON_COMMIT_SOURCE = 1)) {black : Nat}
    (hblack : black = if s.relocks n then 1 + Config.free 74 s.seed % 2 else (s.engine n).black - 1) :
    ∃ u, s.EngineGets u n ((s.engine n).atLineZero s n black) ∧ s.Touches u [.loupe]
      ∧ s.samplePoint n = s.showSdi ((u.generated n (s.relocks n) (s.engine n).realign black).sourceChosen n) n := by
  obtain ⟨v, hv⟩ : ∃ v, v = s.putEngine n { s.engine n with
    vals := s.activeVals n, begun := true, line := 0, sampled := s.time, realign := false } := ⟨_, rfl⟩
  have hown : (decide (s.fld (Pg.loupe n) Reg.COMMON_COMMIT_PENDING = 1) && decide (s.fld (Pg.loupe n) Reg.COMMON_COMMIT_SOURCE = 1)) = false := by
    rw [← Bool.decide_and]
    exact decide_eq_false hc
  have hve : v.engine n = { s.engine n with
      vals := s.activeVals n, begun := true, line := 0, sampled := s.time, realign := false } := by
    rw [hv, State.engine_putEngine]
  have hvseed : v.seed = s.seed := by rw [hv]; rfl
  have hrel : (!(s.engine n).vals.isEmpty && decide ((v.engFmt n, v.engRate n) ≠ (s.engFmt n, s.engRate n))) = s.relocks n := by
    have hvals : (v.engine n).vals = ((s.putEngine n { s.engine n with vals := s.activeVals n }).engine n).vals := by
      rw [hve, State.engine_putEngine]
    rw [State.relocks, State.engFmt_of_vals hvals, State.engRate_of_vals hvals]
  have hcond : ¬ (4 ≤ n ∨ s.engineRuns n = false ∨ (s.engine n).begun = true) := by
    rw [hr, hb]
    simp
    omega
  have hput := State.EngineGets.put v n ((s.engine n).atLineZero s n black)
  refine ⟨v.putEngine n ((s.engine n).atLineZero s n black), ?_, ?_, ?_⟩
  · exact State.EngineGets.trans (hv ▸ State.EngineGets.put ..) hput
  · exact (hv ▸ s.putEngine_touches ..).trans (State.putEngine_touches ..)
  · unfold State.samplePoint
    rw [if_neg hcond]
    simp only [hown, Bool.false_eq_true, if_false, ← hv, hrel, hvseed, ← hblack, hve]
    rfl

theorem State.sourceChosen_of_ok (hok : s.engineOk n = true) :
    ∃ src, s.sourceChosen n = s.setSource n src ∧ (s.locks n = true → src = (s.engine n).source.filter fun x => s.srcRuns x.1)
      ∧ (s.locks n = false →
          (∀ v, srcOf (s.lv n Reg.LOUPE_SRC) = some v → s.srcRuns v = true → src = (s.newestOf v).map fun f => (v, f))
            ∧ (∀ v, srcOf (s.lv n Reg.LOUPE_SRC) = some v → s.srcRuns v = false → src = none)
            ∧ (srcOf (s.lv n Reg.LOUPE_SRC) = none → src = none)) := by
  unfold State.sourceChosen
  rw [if_neg (by rw [hok]; decide)]
  by_cases hl : s.locks n = true
  · rw [if_pos hl]
    cases hsrc : (s.engine n).source with
    | none => exact ⟨none, (State.setSource_same hsrc).symm, fun _ => rfl, fun h => absurd (hl.symm.trans h) (by decide)⟩
    | some x =>
      obtain ⟨v, f⟩ := x
      by_cases hruns : s.srcRuns v = true
      · exact ⟨some (v, f), by dsimp only; rw [if_pos hruns, State.setSource_same hsrc],
          fun _ => by simp only [Option.filter, hruns, if_true], fun h => absurd (hl.symm.trans h) (by decide)⟩
      · exact ⟨none, if_neg hruns, fun _ => by simp only [Option.filter, hruns, Bool.false_eq_true, if_false],
          fun h => absurd (hl.symm.trans h) (by decide)⟩
  · rw [if_neg hl]
    cases hsrc : srcOf (s.lv n Reg.LOUPE_SRC) with
    | none => exact ⟨none, rfl, fun h => absurd h hl, fun _ => ⟨fun v h => (nomatch h), fun v h => (nomatch h), fun _ => rfl⟩⟩
    | some v =>
      by_cases hruns : s.srcRuns v = true
      · refine ⟨_, if_pos hruns, fun h => absurd h hl, fun _ => ⟨fun w h _ => ?_, fun w h h' => ?_, fun h => (nomatch h)⟩⟩
        · cases h
          rfl
        · cases h
          exact absurd (hruns.symm.trans h') (by decide)
      · refine ⟨_, if_neg hruns, fun h => absurd h hl, fun _ => ⟨fun w h h' => ?_, fun _ _ _ => rfl, fun h => (nomatch h)⟩⟩
        cases h
        exact absurd h' hruns

/-- What the choice of a source leaves. -/
theorem State.sourceChosen_effect (hn : n < 4) (ht : t = s.sourceChosen n) :
    (∃ src b, s.EngineGets t n { s.engine n with source := src, begun := b }) ∧ s.Touches t [.regs, .splitHolds, .loupe]
      ∧ s.WritesIn t (sampleMay n) := by
  by_cases hok : s.engineOk n = true
  · obtain ⟨src, hsrc, -⟩ := State.sourceChosen_of_ok hok
    obtain ⟨hget, htouch, hw, -⟩ := State.setSource_effect (ht.trans hsrc)
    exact ⟨⟨src, _, hget⟩, htouch, hw.mono fun _ h => sampleMay_of_shown hn h⟩
  · rw [State.sourceChosen, if_pos (by simpa using hok)] at ht
    subst ht
    exact ⟨⟨_, _, .put s n _⟩, (State.putEngine_touches ..).mono rfl, .of_regs (.refl s _) rfl⟩

theorem State.WritesIn.showSdi {P : Nat → Prop} (h : s.WritesIn t P) (s0 : State) (n : Nat)
    (hP : ∀ k, k < 4 → P (keyOf Reg.SDI_PID_LAST (Pg.sdi k)) ∧ P (keyOf Reg.SDI_EVENT_RETUNE (Pg.sdi k))) : s.WritesIn (s0.showSdi t n) P :=
  .foldl h _ fun u k hk => .raiseIf (.setFld (.refl u _) _ (hP k (lt_of_mem_linksOf hk)).1) (hP k (lt_of_mem_linksOf hk)).2

theorem State.writesIn_showSdi (s s0 : State) (n : Nat) : s.WritesIn (s0.showSdi s n) (sampleMay n) :=
  .showSdi (.refl s _) s0 n fun _ hk => ⟨sampleMay_sdi hk (by decide), sampleMay_sdi hk (by decide)⟩

theorem State.fld_showSdi (s s0 : State) (n m : Nat) (hm : m < 4) {f : Fld} (hf : f.off < 0x1000) :
    (s0.showSdi s n).fld (Pg.loupe m) f = s.fld (Pg.loupe m) f :=
  (State.WritesIn.showSdi (.refl s (onPages (pagesOf Pg.sdi 4))) s0 n fun k hk => by
    have hk' : Pg.sdi k % 1024 ∈ pagesOf Pg.sdi 4 := by interval_cases k <;> decide
    exact ⟨onPages_keyOf (by decide) hk', onPages_keyOf (by decide) hk'⟩).fld fun h => by
    have hmem : Pg.loupe m ∉ pagesOf Pg.sdi 4 := by interval_cases m <;> decide
    have hpage : keyOf f (Pg.loupe m) / 0x1000 % 1024 = Pg.loupe m := by
      simp only [keyOf, Pg.loupe]
      omega
    exact hmem (hpage ▸ h)

/-- Whether sources run, and their newest frames, are read from registers that no engine writes. -/
theorem State.srcRuns_congr (hw : s.WritesIn t (sampleMay n)) (hctl : t.ctl.mode = s.ctl.mode ∧ t.ctl.capRun = s.ctl.capRun) (k : Nat) :
    t.srcRuns k = s.srcRuns k := by
  obtain ⟨hmode, hcap⟩ := hctl
  have hfld {p : Nat} {f : Fld} (hf : f.off < 0x1000) (h1 : p ∉ [Pg.mirror, Pg.sdi 0, Pg.sdi 1, Pg.sdi 2, Pg.sdi 3]) (h2 : p ≠ Pg.loupe n) :
      t.fld p f = s.fld p f := by
    refine hw.fld fun h => not_outputMay hf (fun h => absurd h h2) (fun ⟨k, hk, h⟩ => ?_) (fun h => ?_) h.1
    · refine absurd ?_ h1
      rw [h]
      interval_cases k <;> decide
    · exact absurd (h ▸ List.mem_cons_self) h1
  have hsplit {f : Fld} (hf : f.off < 0x1000) : t.fld Pg.split f = s.fld Pg.split f :=
    hfld hf (by decide) (by simp only [Pg.split, Pg.loupe]; omega)
  have hraw : t.reviewRaw = s.reviewRaw := by
    rw [State.reviewRaw, State.on, hfld (by decide) (by decide) (by simp only [Pg.recorder, Pg.loupe]; omega)]
    rfl
  unfold State.srcRuns State.rendsRun
  rw [hmode, hcap, hraw]
  by_cases hk : k < 8
  · rw [if_pos hk, if_pos hk, State.rendRuns, State.rendUsed, State.on, State.on, hsplit (by decide), hsplit (by simp only; omega)]
    rfl
  · rw [if_neg hk, if_neg hk]

theorem State.newestOf_congr (hs : t.split.newest = s.split.newest) (hd : t.hdec = s.hdec) (v : Nat) : t.newestOf v = s.newestOf v := by
  rw [State.newestOf, hs, State.dec, hd, ← State.dec, State.newestOf]

/-- The sample point of an engine that runs on. -/
theorem State.samplePoint_steady_effect (hn : n < 4) (hok : s.engineOk n = true) (hb : (s.engine n).begun = false)
    (hphase : s.fld (Pg.loupe n) Reg.LOUPE_STATE_PHASE = 1) (hblack : (s.engine n).black = 0) (hvals : (s.engine n).vals = s.activeVals n)
    (hc : ¬ (s.fld (Pg.loupe n) Reg.COMMON_COMMIT_PENDING = 1 ∧ s.fld (Pg.loupe n) Reg.COMMON_COMMIT_SOURCE = 1)) (ht : t = s.samplePoint n) :
    (∃ src, s.EngineGets t n { s.engine n with begun := true, line := 0, sampled := s.time, realign := false, source := src }
        ∧ (s.locks n = true → src = (s.engine n).source.filter fun x => s.srcRuns x.1)
        ∧ (s.locks n = false →
            (∀ v, srcOf (s.lv n Reg.LOUPE_SRC) = some v → s.srcRuns v = true → src = (s.newestOf v).map fun f => (v, f))
              ∧ (∀ v, srcOf (s.lv n Reg.LOUPE_SRC) = some v → s.srcRuns v = false → src = none)
              ∧ (srcOf (s.lv n Reg.LOUPE_SRC) = none → src = none)))
      ∧ (s.locks n = false → (s.engine n).realign = true → t.fld (Pg.loupe n) Reg.LOUPE_EVENT_RELOCK = 1)
      ∧ s.Touches t [.regs, .ctlLatches, .splitHolds, .loupe] ∧ s.WritesIn t (sampleMay n) := by
  have hruns : s.engineRuns n = true := by rw [State.engineRuns, hphase]; rfl
  have hrel : s.relocks n = false := by
    have h : ((s.putEngine n { s.engine n with vals := s.activeVals n }).engine n).vals = (s.engine n).vals := by
      rw [State.engine_putEngine, hvals]
    rw [State.relocks, State.engFmt_of_vals h, State.engRate_of_vals h]
    simp
  obtain ⟨u, hget, hsu, heq⟩ := State.samplePoint_eq hn hruns hb hc (black := (s.engine n).black) (by rw [hrel, hblack]; rfl)
  have hur : u.regs = s.regs := hsu.same .regs (by decide)
  have hfld (p : Nat) (f : Fld) : u.fld p f = s.fld p f := State.fld_congr hur ..
  have hulocks : u.locks n = s.locks n := by rw [State.locks, State.on, hfld, ← State.on, ← State.locks]
  obtain ⟨w, hw⟩ : ∃ w, w = u.raiseIf ((s.engine n).realign && !s.locks n) (Pg.loupe n) Reg.LOUPE_EVENT_RELOCK := ⟨_, rfl⟩
  have hgen : u.generated n (s.relocks n) (s.engine n).realign (s.engine n).black = w := by
    rw [State.generated, hrel, if_neg Bool.false_ne_true, hfld, hphase, if_neg (fun h => absurd h.1 (by decide)), hulocks, hw]
  obtain ⟨y, hy⟩ : ∃ y, y = w.sourceChosen n := ⟨_, rfl⟩
  rw [hgen, ← hy] at heq
  have huw : u.Touches w [.regs, .ctlLatches] := hw ▸ State.raiseIf_touches ..
  have hsw : s.Touches w [.regs, .ctlLatches, .loupe] := .step (hsu.mono rfl) huw rfl
  have hsww : s.WritesIn w (sampleMay n) := hw ▸ .raiseIf (.of_regs (.refl s _) hur) (sampleMay_loupe hn (by decide))
  have hgetw := hget.of_loupe (huw.same .loupe (by decide))
  have hwe : w.engine n = { s.engine n with begun := true, line := 0, sampled := s.time, realign := false } := by
    rw [hgetw.1, LoupeSt.atLineZero, ← hvals]
  have hlinks : s.SameLinks w := .of_writes hn (hsww.mono fun _ h => h.1) fun m => by
    by_cases hm : m = n
    · rw [hm, hwe]
    · rw [hgetw.2 m hm]
  obtain ⟨src, hsrc, hlock, hfree⟩ := State.sourceChosen_of_ok ((hlinks.engineOk hn).trans hok)
  obtain ⟨hgety, hwy, hwyw, -⟩ := State.setSource_effect (hy.trans hsrc)
  have hyt : y.Touches t [.regs, .ctlLatches] := (ht.trans heq) ▸ State.showSdi_touches s y n
  have hytw : y.WritesIn t (sampleMay n) := (ht.trans heq) ▸ State.writesIn_showSdi y s n
  have hsrun (v : Nat) : w.srcRuns v = s.srcRuns v :=
    State.srcRuns_congr hsww ⟨hsw.same .ctlMode (by decide), hsw.same .ctlCapRun (by decide)⟩ v
  have hnew (v : Nat) : w.newestOf v = s.newestOf v := State.newestOf_congr (hsw.same .splitNewest (by decide)) (hsw.same .hdec (by decide)) v
  have hsrunf : (fun x : Nat × Nat => w.srcRuns x.1) = fun x => s.srcRuns x.1 := funext fun x => hsrun x.1
  rw [hlinks.locks hn, hwe, hsrunf] at hlock
  rw [hlinks.locks hn, hlinks.lv] at hfree
  simp only [hsrun, hnew] at hfree
  rw [hwe] at hgety
  refine ⟨⟨src, (hgetw.trans hgety).of_loupe (hyt.same .loupe (by decide)), hlock, hfree⟩, fun hl hre => ?_,
    .step (.step (hsw.mono rfl) hwy rfl) hyt rfl, (hsww.trans (hwyw.mono fun _ h => sampleMay_of_shown hn h)).trans hytw⟩
  have hone : w.fld (Pg.loupe n) Reg.LOUPE_EVENT_RELOCK = 1 := by
    rw [hw, hl, hre]
    exact State.fld_raise_same _ _ _ (by decide) rfl
  rw [ht, heq, State.fld_showSdi _ _ _ _ hn (by decide), hwyw.fld ?_, hone]
  simp [keyOf]

/-- The sample point at which the format or the rate of an engine changes. -/
theorem State.samplePoint_relock_effect (hn : n < 4) (hr : s.engineRuns n = true) (hb : (s.engine n).begun = false)
    (hne : (s.engine n).vals ≠ [])
    (hc : ¬ (s.fld (Pg.loupe n) Reg.COMMON_COMMIT_PENDING = 1 ∧ s.fld (Pg.loupe n) Reg.COMMON_COMMIT_SOURCE = 1))
    (hu : u = s.putEngine n { s.engine n with vals := s.activeVals n }) (hfmt : (u.engFmt n, u.engRate n) ≠ (s.engFmt n, s.engRate n))
    (ht : t = s.samplePoint n) :
    t.fld (Pg.loupe n) Reg.LOUPE_STATE_PHASE = 2 ∧ (t.engine n).vals = s.activeVals n ∧ 1 ≤ (t.engine n).black ∧ (t.engine n).black ≤ 2
      ∧ (∀ m, m ≠ n → t.engine m = s.engine m) ∧ t.seed = s.seed + 1 ∧ s.Touches t [.regs, .ctlLatches, .splitHolds, .loupe, .seed]
      ∧ s.KeepsPages t ([Pg.loupe n] ++ pagesOf Pg.sdi 4) := by
  have hrel : s.relocks n = true := by
    rw [hu] at hfmt
    rw [State.relocks, decide_eq_true hfmt, Bool.and_true, Bool.not_eq_true', List.isEmpty_eq_false_iff]
    exact hne
  obtain ⟨black, hblack⟩ : ∃ black, black = 1 + Config.free 74 s.seed % 2 := ⟨_, rfl⟩
  obtain ⟨v, hget, hsv, heq⟩ := State.samplePoint_eq hn hr hb hc (black := black) (by rw [hrel, hblack]; rfl)
  obtain ⟨w, hw⟩ : ∃ w : State, w = { (v.setFld (Pg.loupe n) Reg.LOUPE_STATE_PHASE 2) with seed := v.seed + 1 } := ⟨_, rfl⟩
  have hgen : v.generated n (s.relocks n) (s.engine n).realign black = w := by
    rw [State.generated, hrel, if_pos rfl, hw]
  obtain ⟨y, hy⟩ : ∃ y, y = w.sourceChosen n := ⟨_, rfl⟩
  rw [hgen, ← hy] at heq
  obtain ⟨⟨src, b, hgety⟩, hwy, hwyw⟩ := State.sourceChosen_effect hn hy
  have hsw : s.Touches w [.regs, .loupe, .seed] :=
    .step (hsv.mono rfl) (show v.Touches w [.regs, .seed] from hw ▸ .of_mix rfl rfl) rfl
  have hsww : s.WritesIn w (onPages ([Pg.loupe n] ++ pagesOf Pg.sdi 4)) := by
    have h : s.WritesIn (v.setFld (Pg.loupe n) Reg.LOUPE_STATE_PHASE 2) (onPages [Pg.loupe n]) :=
      .setFld (.of_regs (.refl s _) (hsv.same .regs (by decide))) _ (onPages_loupe hn (by decide))
    exact (h.of_regs (by rw [hw])).mono fun a h => onPages_mono (List.subset_append_left ..) h
  have hyt : y.Touches t [.regs, .ctlLatches] := (ht.trans heq) ▸ State.showSdi_touches s y n
  have hytw : y.WritesIn t (sampleMay n) := (ht.trans heq) ▸ State.writesIn_showSdi y s n
  have hgetw : s.EngineGets w n ((s.engine n).atLineZero s n black) := hget.of_loupe (by rw [hw]; rfl)
  obtain ⟨hg, hothers⟩ := (hgetw.trans hgety).of_loupe (hyt.same .loupe (by decide))
  have hseed : t.seed = s.seed + 1 := by
    rw [hyt.same .seed (by decide), hwy.same .seed (by decide), hw, ← hsv.same .seed (by decide)]
  refine ⟨?_, ?_, ?_, ?_, hothers, hseed, .step (.step (hsw.mono rfl) hwy rfl) hyt rfl,
    ((hsww.trans (hwyw.mono fun _ => onPages_of_sampleMay hn)).trans (hytw.mono fun _ => onPages_of_sampleMay hn)).keepsPages⟩
  · have hphase : w.fld (Pg.loupe n) Reg.LOUPE_STATE_PHASE = 2 := by
      rw [hw]
      exact State.fld_setFld_of_width _ _ _ _ (by decide) (by decide)
    rw [ht, heq, State.fld_showSdi _ _ _ _ hn (by decide), hwyw.fld fun h => ?_, hphase]
    refine not_outputMay (by decide) (fun _ => by decide) (fun ⟨k, hk, h⟩ => ?_) (fun h => ?_) h.1
    · simp only [Pg.loupe, Pg.mirror] at h
      omega
    · simp only [Pg.loupe, Pg.sdi] at h
      omega
  · rw [hg, hgetw.1]
    rfl
  · rw [hg, hgetw.1]
    show 1 ≤ black
    omega
  · rw [hg, hgetw.1]
    show black ≤ 2
    omega

end Sys2Proof.Machine
end

section
/-! PROOFS. Loupe: the lines that an engine sends (R357 to R362, R368, R369, R372). -/

set_option Elab.async false

namespace Sys2Proof.Machine

variable {s t u v : State} {n k line y : Nat}

/-! ### A line on one link -/

/-- What the lines on links write: AUDIO_UNDERRUN of the links, and what Mirror has lost. -/
def sendMay (a : Nat) : Prop :=
  (∃ k < 4, a = keyOf Reg.SDI_EVENT_AUDIO_UNDERRUN (Pg.sdi k))
    ∨ a ∈ [keyOf Reg.MIRROR_STATE_LOST Pg.mirror, keyOf Reg.MIRROR_EVENT_LOST Pg.mirror]

theorem outputMay_of_sendMay {a : Nat} (h : sendMay a) : outputMay n a := by
  rcases h with ⟨k, hk, rfl⟩ | h
  · exact outputMay_sdi hk (by decide)
  · simp only [List.mem_cons, List.not_mem_nil, or_false] at h
    rcases h with rfl | rfl
    · exact outputMay_mirror (by decide)
    · exact outputMay_mirror (by decide)

theorem not_sendMay_loupe {f : Fld} (hf : f.off < 0x1000) (hn : n < 4) : ¬ sendMay (keyOf f (Pg.loupe n)) := by
  rintro (⟨k, -, h⟩ | h)
  · simp only [keyOf, Pg.loupe, Pg.sdi] at h
    omega
  · simp only [List.mem_cons, List.not_mem_nil, or_false, keyOf, Pg.loupe, Pg.mirror] at h
    omega

theorem not_sendMay_frames (hk : k < 4) : ¬ sendMay (keyOf Reg.SDI_FRAMES (Pg.sdi k)) := by
  rintro (⟨j, -, h⟩ | h)
  · simp only [keyOf, Pg.sdi] at h
    omega
  · simp only [List.mem_cons, List.not_mem_nil, or_false, keyOf, Pg.sdi, Pg.mirror] at h
    omega

/-- Whether Mirror checks a link is read from what the links are read from, and from Mirror's CTRL. -/
theorem State.SameLinks.mirrors (h : s.SameLinks t) (hmode : t.ctl.mode = s.ctl.mode) (hw : s.WritesIn t (outputMay n))
    (hn : n < 4) (hk : s.linkEngine k < 4) : t.mirrors k = s.mirrors k := by
  have hctrl {f : Fld} (hf : f.off = 0x008) : t.fld Pg.mirror f = s.fld Pg.mirror f := by
    refine hw.fld (not_outputMay (by omega) (fun h => ?_) (fun ⟨j, hj, h⟩ => ?_) fun _ => by rw [hf]; decide)
    · simp only [Pg.loupe, Pg.mirror] at h
      omega
    · simp only [Pg.sdi, Pg.mirror] at h
      omega
  rw [State.mirrors, hmode, State.on, hctrl rfl, ← State.on, hctrl rfl, h.linkEngine, h.linksOf hk, h.1 _ hk _ (.inr rfl), State.mirrors]

theorem State.setLost_set (s : State) (hk : k < 4) : (s.setLost k true).isLost k = true := by
  rw [State.isLost, State.setLost, if_pos rfl, State.fld_setFld_same _ _ _ _ (by decide), Nat.testBit_mod_two_pow, Nat.testBit_or,
    Nat.testBit_two_pow_self, Bool.or_true, Bool.and_true]
  exact decide_eq_true hk

/-- The CRC of a line that a link sends, as the engine keeps it. -/
theorem State.keepCrc_effect {crc : Nat} (ht : t = s.keepCrc n k line crc) :
    (∃ c, s.EngineGets t n { s.engine n with crcs := c })
      ∧ (s.mirrors k = false → (t.engine n).crcs = (s.engine n).crcs.filter fun x => decide (x.1 ≠ k))
      ∧ (s.mirrors k = true → ((s.engine n).crcs.filter fun x => decide (x.1 = k)).length < 256 →
          (t.engine n).crcs = (s.engine n).crcs ++ [(k, line, crc)])
      ∧ (k < 4 → s.mirrors k = true → 256 ≤ ((s.engine n).crcs.filter fun x => decide (x.1 = k)).length → s.isLost k = false →
          t.isLost k = true ∧ t.fld Pg.mirror Reg.MIRROR_EVENT_LOST = 1)
      ∧ s.Touches t [.regs, .ctlLatches, .loupe, .mirror] ∧ s.WritesIn t sendMay := by
  have hget (c : List (Nat × Nat × Nat)) : s.EngineGets (s.putEngine n { s.engine n with crcs := c }) n { s.engine n with crcs := c } := .put ..
  have htouch : s.Touches t [.regs, .ctlLatches, .loupe, .mirror] := ht ▸ (State.keepCrc_touches ..).mono rfl
  by_cases hm : s.mirrors k = true
  · by_cases hlen : ((s.engine n).crcs.filter fun x => decide (x.1 = k)).length < 256
    · rw [State.keepCrc, if_neg (by rw [hm]; decide), if_pos hlen] at ht
      subst ht
      refine ⟨⟨_, hget _⟩, fun h => absurd (hm.symm.trans h) (by decide), fun _ _ => ?_, fun _ _ h => absurd hlen (by omega), htouch,
        .of_regs (.refl s _) rfl⟩
      rw [State.engine_putEngine]
    · obtain ⟨w, hw⟩ : ∃ w, w = s.putEngine n { s.engine n with
          crcs := ((s.engine n).crcs.filter fun x => decide (x.1 ≠ k)) ++ [(k, line, crc)] } := ⟨_, rfl⟩
      have ht' : t = if w.isLost k then w else w.mirrorLost k := by
        rw [ht, State.keepCrc, if_neg (by rw [hm]; decide), if_neg hlen, hw]
        rfl
      have hwr : w.regs = s.regs := by rw [hw]; rfl
      have hwt : t.loupe = w.loupe := by
        rw [ht']
        split
        · rfl
        · exact (State.mirrorLost_touches ..).same .loupe (by decide)
      have hgetw := hget (((s.engine n).crcs.filter fun x => decide (x.1 ≠ k)) ++ [(k, line, crc)])
      rw [← hw] at hgetw
      refine ⟨⟨_, hgetw.of_loupe hwt⟩, fun h => absurd (hm.symm.trans h) (by decide), fun _ h => absurd h hlen, fun hk _ _ hl => ?_, htouch, ?_⟩
      · have hwl : w.isLost k = false := by rw [State.isLost, State.fld_congr hwr, ← State.isLost, hl]
        rw [hwl, if_neg Bool.false_ne_true, State.mirrorLost] at ht'
        refine ⟨?_, ht' ▸ State.fld_raise_same _ _ _ (by decide) rfl⟩
        rw [ht', State.isLost, State.fld_raise_ne _ _ _ _ _ (by decide) (.inl (by decide))]
        exact w.setLost_set hk
      · rw [ht']
        have hlost : s.WritesIn (w.setLost k true) sendMay := .setFld (.of_regs (.refl s _) hwr) _ (.inr (by simp))
        have hput : s.WritesIn ((w.setLost k true).putMirror k {}) sendMay := hlost.of_regs rfl
        exact .ite (.of_regs (.refl s _) hwr) (hput.raise (.inr (by simp)))
  · rw [State.keepCrc, if_pos (by simpa using hm)] at ht
    subst ht
    refine ⟨⟨_, hget _⟩, fun _ => ?_, fun h => absurd h hm, fun _ h => absurd h hm, htouch, .of_regs (.refl s _) rfl⟩
    rw [State.engine_putEngine]

/-- The state in which the CRC of what a link carries of a line is kept. -/
def State.crcKept (s : State) (n k line : Nat) (row : Option (List (Nat × Nat × Nat))) : State :=
  match row with
  | none => s
  | some r => s.keepCrc n k line (lineCrc (carriage n (s.engFmt n) (s.engRate n)) r)

theorem State.sendLink_eq (s : State) (n k line : Nat) (row : Option (List (Nat × Nat × Nat))) (anc : List (List Nat)) (late : Bool) :
    ∃ b au, s.sendLink n k line row anc late = ((s.crcKept n k line row).raiseIf b (Pg.sdi k) Reg.SDI_EVENT_AUDIO_UNDERRUN).emit
      (.sdi k (lineNumber (s.engFmt n) line) (lumaWords (row.getD [])) (chromaWords (row.getD [])) anc au) := ⟨_, _, rfl⟩

/-- What a line sent on one link leaves. -/
theorem State.sendLink_effect {row : Option (List (Nat × Nat × Nat))} {anc : List (List Nat)} {late : Bool}
    (ht : t = s.sendLink n k line row anc late) (hv : v = s.crcKept n k line row) :
    (∃ au, t.out = .sdi k (lineNumber (s.engFmt n) line) (lumaWords (row.getD [])) (chromaWords (row.getD [])) anc au :: v.out)
      ∧ t.loupe = v.loupe ∧ v.Touches t [.regs, .ctlLatches, .out]
      ∧ v.WritesIn t (· = keyOf Reg.SDI_EVENT_AUDIO_UNDERRUN (Pg.sdi k)) := by
  obtain ⟨b, au, heq⟩ := State.sendLink_eq s n k line row anc late
  rw [← hv] at heq
  obtain ⟨w, hw⟩ : ∃ w, w = v.raiseIf b (Pg.sdi k) Reg.SDI_EVENT_AUDIO_UNDERRUN := ⟨_, rfl⟩
  have hvw : v.Touches w [.regs, .ctlLatches] := hw ▸ State.raiseIf_touches ..
  rw [heq, ← hw] at ht
  refine ⟨⟨au, ?_⟩, ?_, ?_, ?_⟩
  · rw [ht, ← hvw.same .out (by decide)]
    rfl
  · rw [ht, ← hvw.same .loupe (by decide)]
    rfl
  · rw [ht]
    exact .step (hvw.mono rfl) (State.emit_touches ..) rfl
  · rw [ht]
    refine .of_regs (t := w) ?_ rfl
    rw [hw]
    exact .raiseIf (.refl v _) rfl

/-! ### A line on every link of its engine -/

/-- A step that sends on links: of engines it changes the kept CRCs of one. -/
def State.Sends (s t : State) (n : Nat) : Prop :=
  (∃ c, s.EngineGets t n { s.engine n with crcs := c }) ∧ s.Touches t [.regs, .ctlLatches, .out, .loupe, .mirror] ∧ s.WritesIn t sendMay

theorem State.Sends.refl (s : State) (n : Nat) : s.Sends s n := ⟨⟨_, .refl s n⟩, .refl s _, .refl s _⟩

theorem State.Sends.trans (h : s.Sends t n) (h' : t.Sends u n) : s.Sends u n := by
  obtain ⟨⟨c, hget⟩, htouch, hw⟩ := h
  obtain ⟨⟨c', hget'⟩, htouch', hw'⟩ := h'
  rw [hget.1] at hget'
  exact ⟨⟨c', hget.trans hget'⟩, htouch.trans htouch', hw.trans hw'⟩

theorem State.Sends.foldl {f : State → Nat → State} {l : List Nat} (h : s.Sends t n) (hf : ∀ (u : State) k, k ∈ l → u.Sends (f u k) n) :
    s.Sends (l.foldl f t) n :=
  List.foldlRecOn l f (motive := fun u => s.Sends u n) h fun u hu k hk => hu.trans (hf u k hk)

theorem State.sendLink_sends {row : Option (List (Nat × Nat × Nat))} {anc : List (List Nat)} {late : Bool} (hk : k < 4)
    (ht : t = s.sendLink n k line row anc late) : s.Sends t n := by
  obtain ⟨v, hv⟩ : ∃ v, v = s.crcKept n k line row := ⟨_, rfl⟩
  obtain ⟨-, hloupe, hvt, hvtw⟩ := State.sendLink_effect ht hv
  have hmay : v.WritesIn t sendMay := hvtw.mono fun a h => .inl ⟨k, hk, h⟩
  cases row with
  | none =>
    have hvs : v = s := hv
    subst hvs
    exact ⟨⟨_, (State.EngineGets.refl v n).of_loupe hloupe⟩, hvt.mono rfl, hmay⟩
  | some r =>
    obtain ⟨⟨c, hget⟩, -, -, -, hsv, hsvw⟩ := State.keepCrc_effect (s := s) (t := v) (n := n) (k := k) (line := line) hv
    exact ⟨⟨c, hget.of_loupe hloupe⟩, .step (hsv.mono rfl) hvt rfl, hsvw.trans hmay⟩

/-- The state in which one link has its part of an active line. -/
def State.linkSent (s : State) (n k line y : Nat) (quad : Bool) (row : List (Nat × Nat × Nat)) (late : LineLate) : State :=
  match linkPart quad k y row with
  | none => s
  | some r => s.sendLink n k line (some (if quad && late.short.testBit k then List.replicate r.length blackPixel else r)) [] late.audio

theorem State.linkSent_whole (s : State) (n k line y : Nat) (row : List (Nat × Nat × Nat)) (late : LineLate) :
    s.linkSent n k line y false row late = s.sendLink n k line (some row) [] late.audio := rfl

theorem State.linkSent_sends {quad : Bool} {row : List (Nat × Nat × Nat)} {late : LineLate} (hk : k < 4)
    (ht : t = s.linkSent n k line y quad row late) : s.Sends t n := by
  unfold State.linkSent at ht
  split at ht
  · exact ht ▸ .refl s n
  · exact State.sendLink_sends hk ht

/-- The state in which every link of an engine has its part of an active line. -/
def State.lineOut (s : State) (n line y : Nat) (row : List (Nat × Nat × Nat)) (late : LineLate) : State :=
  (s.linksOf n).foldl (fun u k => u.linkSent n k line y (decide (s.engFmt n = 4)) row late) s

theorem State.lineOut_sends (s : State) (n line y : Nat) (row : List (Nat × Nat × Nat)) (late : LineLate) : s.Sends (s.lineOut n line y row late) n :=
  (State.Sends.refl s n).foldl fun _ _ hk => State.linkSent_sends (lt_of_mem_linksOf hk) rfl

/-- What an active line leaves on the one link of its engine. -/
theorem State.lineOut_single_effect {row : List (Nat × Nat × Nat)} {late : LineLate} {crc : Nat} (hl : s.linksOf n = [k]) (hfmt : s.engFmt n ≠ 4)
    (hcrc : crc = lineCrc (carriage n (s.engFmt n) (s.engRate n)) row) (ht : t = s.lineOut n line y row late) :
    (∃ au, t.out = .sdi k (lineNumber (s.engFmt n) line) (lumaWords row) (chromaWords row) [] au :: s.out)
      ∧ (s.mirrors k = false → (t.engine n).crcs = (s.engine n).crcs.filter fun x => decide (x.1 ≠ k))
      ∧ (s.mirrors k = true → ((s.engine n).crcs.filter fun x => decide (x.1 = k)).length < 256 →
          (t.engine n).crcs = (s.engine n).crcs ++ [(k, line, crc)])
      ∧ (s.mirrors k = true → 256 ≤ ((s.engine n).crcs.filter fun x => decide (x.1 = k)).length → s.isLost k = false →
          t.isLost k = true ∧ t.fld Pg.mirror Reg.MIRROR_EVENT_LOST = 1) := by
  have hk : k < 4 := lt_of_mem_linksOf (hl ▸ List.mem_singleton_self k)
  have ht' : t = s.sendLink n k line (some row) [] late.audio := by
    rw [ht, State.lineOut, hl, List.foldl_cons, List.foldl_nil, decide_eq_false hfmt, State.linkSent_whole]
  obtain ⟨v, hv⟩ : ∃ v, v = s.crcKept n k line (some row) := ⟨_, rfl⟩
  obtain ⟨⟨au, hout⟩, hloupe, hvt, hvtw⟩ := State.sendLink_effect ht' hv
  have hkeep : v = s.keepCrc n k line crc := by rw [hv, hcrc]; rfl
  obtain ⟨-, hoff, hroom, hlost, hsv, -⟩ := State.keepCrc_effect hkeep
  have hcrcs : (t.engine n).crcs = (v.engine n).crcs := by rw [State.engine_congr hloupe]
  have hmirror {f : Fld} (hf : f.off < 0x1000) : t.fld Pg.mirror f = v.fld Pg.mirror f := hvtw.fld fun h => by
    simp only [keyOf, Pg.mirror, Pg.sdi] at h
    omega
  refine ⟨⟨au, hout.trans (by rw [hsv.same .out (by decide)]; rfl)⟩, fun h => hcrcs.trans (hoff h), fun h h' => hcrcs.trans (hroom h h'),
    fun h h' h'' => ?_⟩
  rw [State.isLost, hmirror (by decide), ← State.isLost, hmirror (by decide)]
  exact hlost hk h h' h''

/-- The state in which every link of an engine has a line without a picture. -/
def State.blankOut (s : State) (n line : Nat) (anc : List (List Nat)) (late : Bool) : State :=
  (s.linksOf n).foldl (fun u k => u.sendLink n k line none (if k = n then anc else []) late) s

theorem State.blankOut_effect {anc : List (List Nat)} {late : Bool} (ht : t = s.blankOut n line anc late) :
    t.loupe = s.loupe ∧ (s.linksOf n = [] → t.out = s.out)
      ∧ (∀ k, s.linksOf n = [k] → ∃ au, t.out = .sdi k (lineNumber (s.engFmt n) line) [] [] (if k = n then anc else []) au :: s.out)
      ∧ s.Touches t [.regs, .ctlLatches, .out] ∧ s.WritesIn t fun a => ∃ k < 4, a = keyOf Reg.SDI_EVENT_AUDIO_UNDERRUN (Pg.sdi k) := by
  have hstep (u : State) (k : Nat) : u.Touches (u.sendLink n k line none (if k = n then anc else []) late) [.regs, .ctlLatches, .out]
      ∧ u.WritesIn (u.sendLink n k line none (if k = n then anc else []) late) (· = keyOf Reg.SDI_EVENT_AUDIO_UNDERRUN (Pg.sdi k)) := by
    obtain ⟨-, -, h1, h2⟩ := State.sendLink_effect (s := u) (v := u) (k := k) (line := line) (n := n) (row := none) rfl rfl
    exact ⟨h1, h2⟩
  have htouch : s.Touches t [.regs, .ctlLatches, .out] := ht ▸ .foldl (.refl s _) (fun u k => (hstep u k).1) _
  refine ⟨htouch.same .loupe (by decide), fun hl => ?_, fun k hl => ?_, htouch, ?_⟩
  · rw [ht, State.blankOut, hl]
    rfl
  · rw [State.blankOut, hl, List.foldl_cons, List.foldl_nil] at ht
    exact (State.sendLink_effect (row := none) ht rfl).1
  · rw [ht]
    exact .foldl (.refl s _) _ fun u k hk => (hstep u k).2.mono fun a h => ⟨k, lt_of_mem_linksOf hk, h⟩

/-! ### What an engine keeps of a line -/

/-- An engine as an active line leaves it: its lines kept for fill and for flows. -/
def State.linePut (s : State) (n y : Nat) (r : List (Nat × Nat × Nat) × Bool × Bool) : LoupeSt :=
  let e := s.engine n
  let e1 := if s.engFmt n = 1 ∧ y % 2 = 1 then { e with prev1 := r.1 } else { e with prev0 := r.1 }
  let key := s.fld64 (Pg.loupe n) Reg.LOUPE_FRAMES_LO Reg.LOUPE_FRAMES_HI * fmtH (s.engFmt n) + lineOrder (s.engFmt n) y
  { e1 with
    rows := if (s.engineFlows n).isEmpty then [] else (key, r.1) :: e1.rows.take 255
    under := e.under || r.2.1 }

/-- What a line keeps of the state of an engine. -/
theorem State.linePut_keeps (s : State) (n y : Nat) (r : List (Nat × Nat × Nat) × Bool × Bool) :
    (s.linePut n y r).crcs = (s.engine n).crcs ∧ (s.linePut n y r).vals = (s.engine n).vals
      ∧ (s.linePut n y r).source = (s.engine n).source ∧ (s.linePut n y r).begun = (s.engine n).begun := by
  unfold State.linePut
  split <;> exact ⟨rfl, rfl, rfl, rfl⟩

/-- The counts and events of an active line. -/
def State.underCounted (s : State) (n : Nat) (under late new : Bool) : State :=
  let s1 := s.raiseIf late (Pg.loupe n) Reg.LOUPE_EVENT_GFX_LATE
  if under then (s1.count (Pg.loupe n) Reg.LOUPE_UNDERRUN_LINES).raiseIf new (Pg.loupe n) Reg.LOUPE_EVENT_UNDERRUN else s1

theorem State.underCounted_effect {under late new : Bool} (ht : t = s.underCounted n under late new) :
    t.fld (Pg.loupe n) Reg.LOUPE_UNDERRUN_LINES =
        (if under then min (s.fld (Pg.loupe n) Reg.LOUPE_UNDERRUN_LINES + 1) (2 ^ Reg.LOUPE_UNDERRUN_LINES.width - 1)
          else s.fld (Pg.loupe n) Reg.LOUPE_UNDERRUN_LINES)
      ∧ s.Touches t [.regs, .ctlLatches]
      ∧ s.WritesIn t (· ∈ [keyOf Reg.LOUPE_EVENT_UNDERRUN (Pg.loupe n), keyOf Reg.LOUPE_UNDERRUN_LINES (Pg.loupe n)]) := by
  obtain ⟨v, hv⟩ : ∃ v, v = s.raiseIf late (Pg.loupe n) Reg.LOUPE_EVENT_GFX_LATE := ⟨_, rfl⟩
  have hvf : v.fld (Pg.loupe n) Reg.LOUPE_UNDERRUN_LINES = s.fld (Pg.loupe n) Reg.LOUPE_UNDERRUN_LINES := by
    rw [hv, State.fld_raiseIf_ne _ _ _ _ _ _ (by decide) (.inl (keyOf_loupe_ne (by decide)))]
  have hsv : s.Touches v [.regs, .ctlLatches] := hv ▸ State.raiseIf_touches ..
  have hsvw : s.WritesIn v (· ∈ [keyOf Reg.LOUPE_EVENT_UNDERRUN (Pg.loupe n), keyOf Reg.LOUPE_UNDERRUN_LINES (Pg.loupe n)]) :=
    hv ▸ .raiseIf (.refl s _) (List.mem_cons_self ..)
  rw [State.underCounted, ← hv] at ht
  cases under with
  | false =>
    have heq : t = v := ht
    subst heq
    exact ⟨hvf, hsv, hsvw⟩
  | true =>
    rw [if_pos rfl] at ht
    subst ht
    refine ⟨?_, .step (.step hsv (State.count_touches ..) rfl) (State.raiseIf_touches ..) rfl,
      .raiseIf (.count hsvw (by simp)) (by simp)⟩
    rw [State.fld_raiseIf_ne _ _ _ _ _ _ (by decide) (.inl (keyOf_loupe_ne (by decide))), State.fld_count_same _ _ _ (by decide), hvf, if_pos rfl]

theorem State.lineSent_eq (s : State) (n y : Nat) (r : List (Nat × Nat × Nat) × Bool × Bool) :
    s.lineSent n y r = if decide (y + 1 = fmtH (s.engFmt n)) && s.locks n
      then ((s.putEngine n (s.linePut n y r)).underCounted n r.2.1 r.2.2 (!(s.engine n).under)).setSource n none
      else (s.putEngine n (s.linePut n y r)).underCounted n r.2.1 r.2.2 (!(s.engine n).under) := rfl

/-- What an active line leaves beyond what it sends. -/
theorem State.lineSent_effect {r : List (Nat × Nat × Nat) × Bool × Bool} {last : Bool}
    (hl : last = (decide (y + 1 = fmtH (s.engFmt n)) && s.locks n)) (ht : t = s.lineSent n y r) :
    (t.engine n).crcs = (s.engine n).crcs ∧ (t.engine n).vals = (s.engine n).vals ∧ (t.engine n).begun = (s.engine n).begun
      ∧ (t.engine n).source = (if last then none else (s.engine n).source) ∧ (∀ m, m ≠ n → t.engine m = s.engine m)
      ∧ t.fld (Pg.loupe n) Reg.LOUPE_UNDERRUN_LINES =
          (if r.2.1 then min (s.fld (Pg.loupe n) Reg.LOUPE_UNDERRUN_LINES + 1) (2 ^ Reg.LOUPE_UNDERRUN_LINES.width - 1)
            else s.fld (Pg.loupe n) Reg.LOUPE_UNDERRUN_LINES)
      ∧ s.Touches t [.regs, .ctlLatches, .splitHolds, .loupe] ∧ (last = false → s.Touches t [.regs, .ctlLatches, .loupe])
      ∧ s.WritesIn t (· ∈ [keyOf Reg.LOUPE_EVENT_UNDERRUN (Pg.loupe n), keyOf Reg.LOUPE_UNDERRUN_LINES (Pg.loupe n)]) := by
  obtain ⟨v, hv⟩ : ∃ v, v = s.putEngine n (s.linePut n y r) := ⟨_, rfl⟩
  obtain ⟨w, hw⟩ : ∃ w, w = v.underCounted n r.2.1 r.2.2 (!(s.engine n).under) := ⟨_, rfl⟩
  have hgetv : s.EngineGets v n (s.linePut n y r) := hv ▸ .put ..
  obtain ⟨hunder, hvw, hvww⟩ := State.underCounted_effect hw
  have hgetw := hgetv.of_loupe (hvw.same .loupe (by decide))
  obtain ⟨hcrcs, hvals, hsource, hbegun⟩ := s.linePut_keeps n y r
  have hsw : s.Touches w [.regs, .ctlLatches, .loupe] := .step ((hv ▸ s.putEngine_touches .. : s.Touches v [.loupe]).mono rfl) hvw rfl
  have hvr : v.regs = s.regs := by rw [hv]; rfl
  have hsww := (State.WritesIn.of_regs (.refl s _) hvr).trans hvww
  rw [State.fld_congr hvr] at hunder
  rw [State.lineSent_eq, ← hl, ← hv, ← hw] at ht
  cases last with
  | false =>
    have heq : t = w := ht
    subst heq
    refine ⟨?_, ?_, ?_, ?_, hgetw.2, hunder, hsw.mono rfl, fun _ => hsw, hsww⟩
    · rw [hgetw.1, hcrcs]
    · rw [hgetw.1, hvals]
    · rw [hgetw.1, hbegun]
    · rw [hgetw.1, hsource]
      rfl
  | true =>
    rw [if_pos rfl] at ht
    obtain ⟨hget, hwt, -, hregs⟩ := State.setSource_effect ht
    have htr := hregs rfl
    obtain ⟨hg, hothers⟩ := hgetw.trans hget
    rw [hgetw.1] at hg
    refine ⟨?_, ?_, ?_, ?_, hothers, (State.fld_congr htr ..).trans hunder, .step (hsw.mono rfl) hwt rfl, fun h => (nomatch h), hsww.of_regs htr⟩
    · rw [hg, ← hcrcs]
    · rw [hg, ← hvals]
    · rw [hg, ← hbegun]
    · rw [hg]
      rfl

/-- The engine goes on to its next line. -/
def State.lineStepped (s : State) (n fmt line : Nat) : State :=
  s.putEngine n { s.engine n with
    line := line + 1
    audio := if afterSwitch fmt line then (s.engine n).audio else .ofTicks (s.time.ticks + 1 - s.lineTicks n) }

/-- A count of each page of a list counts once on every one of them. -/
theorem State.fld_foldl_count {f : Fld} (hf : f.lo + f.width ≤ 32) {l : List Nat} (hnd : l.Nodup) (s : State) (k : Nat) :
    (l.foldl (fun (u : State) k => u.count (Pg.sdi k) f) s).fld (Pg.sdi k) f
      = if k ∈ l then min (s.fld (Pg.sdi k) f + 1) (2 ^ f.width - 1) else s.fld (Pg.sdi k) f := by
  induction l generalizing s with
  | nil => rfl
  | cons j l ih =>
    obtain ⟨hj, hnd⟩ := List.nodup_cons.1 hnd
    rw [List.foldl_cons, ih hnd]
    by_cases hk : k = j
    · subst hk
      rw [if_neg hj, if_pos List.mem_cons_self, State.fld_count_same _ _ _ hf]
    · have hkey : keyOf f (Pg.sdi k) ≠ keyOf f (Pg.sdi j) := by
        simp only [keyOf, Pg.sdi]
        omega
      simp only [State.fld_count_ne _ hkey, List.mem_cons, hk, false_or]

/-- The counts of an output frame. -/
def frameMay (n a : Nat) : Prop :=
  a ∈ [keyOf Reg.LOUPE_FRAMES_LO (Pg.loupe n), keyOf Reg.LOUPE_FRAMES_HI (Pg.loupe n)] ∨ ∃ k < 4, a = keyOf Reg.SDI_FRAMES (Pg.sdi k)

/-- The end of an output frame, as the counts show it. -/
theorem State.frameSent_effect (hn : n < 4) (ht : t = s.frameSent n) :
    s.EngineGets t n { s.engine n with line := 0, begun := false, under := false }
      ∧ t.fld64 (Pg.loupe n) Reg.LOUPE_FRAMES_LO Reg.LOUPE_FRAMES_HI = (s.fld64 (Pg.loupe n) Reg.LOUPE_FRAMES_LO Reg.LOUPE_FRAMES_HI + 1) % 2 ^ 64
      ∧ (∀ k ∈ s.linksOf n, t.fld (Pg.sdi k) Reg.SDI_FRAMES = min (s.fld (Pg.sdi k) Reg.SDI_FRAMES + 1) (2 ^ Reg.SDI_FRAMES.width - 1))
      ∧ s.Touches t [.regs, .loupe] ∧ s.WritesIn t (frameMay n) := by
  obtain ⟨v, hv⟩ : ∃ v, v = s.setFld64 (Pg.loupe n) Reg.LOUPE_FRAMES_LO Reg.LOUPE_FRAMES_HI
    (s.fld64 (Pg.loupe n) Reg.LOUPE_FRAMES_LO Reg.LOUPE_FRAMES_HI + 1) := ⟨_, rfl⟩
  obtain ⟨w, hw⟩ : ∃ w, w = (s.linksOf n).foldl (fun (u : State) k => u.count (Pg.sdi k) Reg.SDI_FRAMES) v := ⟨_, rfl⟩
  have ht' : t = w.putEngine n { w.engine n with line := 0, begun := false, under := false } := by rw [ht, hw, hv]; rfl
  have hsv : s.Touches v [.regs] := hv ▸ State.setFld64_touches ..
  have hvw : v.Touches w [.regs] := hw ▸ .foldl (.refl v _) (fun u k => u.count_touches ..) _
  have hvww : v.WritesIn w fun a => ∃ k < 4, a = keyOf Reg.SDI_FRAMES (Pg.sdi k) :=
    hw ▸ .foldl (.refl v _) _ fun u k hk => .count (.refl u _) ⟨k, lt_of_mem_linksOf hk, rfl⟩
  have hloupe (f : Fld) (hf : f.off < 0x1000) : w.fld (Pg.loupe n) f = v.fld (Pg.loupe n) f := hvww.fld fun ⟨k, hk, h⟩ => by
    simp only [keyOf, Pg.loupe, Pg.sdi] at h
    omega
  have htr : t.regs = w.regs := by rw [ht']; rfl
  have hwl : w.loupe = s.loupe := (hsv.trans hvw).same .loupe (by decide)
  refine ⟨?_, ?_, fun k hk => ?_, ?_, ?_⟩
  · have hput := State.EngineGets.put w n { w.engine n with line := 0, begun := false, under := false }
    rw [State.engine_congr hwl] at hput
    rw [ht', State.engine_congr hwl]
    exact ⟨hput.1, fun m hm => (hput.2 m hm).trans (State.engine_congr hwl m)⟩
  · rw [State.fld64_congr (State.fld_congr htr ..) (State.fld_congr htr ..), State.fld64_congr (hloupe _ (by decide)) (hloupe _ (by decide)), hv,
      State.fld64_setFld64 _ _ (by decide) (by decide) rfl rfl (keyOf_loupe_ne (by decide))]
  · have hvs : v.fld (Pg.sdi k) Reg.SDI_FRAMES = s.fld (Pg.sdi k) Reg.SDI_FRAMES := by
      have hkey {f : Fld} (hf : f.off < 0x1000) : keyOf Reg.SDI_FRAMES (Pg.sdi k) ≠ keyOf f (Pg.loupe n) := by
        simp only [keyOf, Pg.sdi, Pg.loupe]
        omega
      rw [hv, State.setFld64, State.fld_of_rd (State.rd_setFld_ne _ _ _ _ _ (hkey (by decide))),
        State.fld_of_rd (State.rd_setFld_ne _ _ _ _ _ (hkey (by decide)))]
    rw [State.fld_congr htr, hw, State.fld_foldl_count (by decide) (linksOf_nodup s n), if_pos hk, hvs]
  · rw [ht']
    exact .step ((hsv.trans hvw).mono rfl) (State.putEngine_touches ..) rfl
  · refine State.WritesIn.of_regs (State.WritesIn.trans (t := v) ?_ (hvww.mono fun a h => .inr h)) htr
    rw [hv]
    exact .setFld64 (.refl s _) _ (.inl (by simp)) (.inl (by simp))

/-! ### The lines of a frame -/

theorem State.loupeLine_runs (hn : n < 4) (hok : s.engineOk n = true) (hb : (s.engine n).begun = true) :
    ¬ (4 ≤ n ∨ s.engineOk n = false ∨ (s.engine n).begun = false) := by
  rw [hok, hb]
  simp
  omega

/-- A line without a picture, with the packets that it carries, that is not the last one of its frame. -/
theorem State.loupeLine_blank {late : LineLate} {anc : List (List Nat) × Bool} (hn : n < 4) (hok : s.engineOk n = true)
    (hb : (s.engine n).begun = true) (hact : activeLine (s.engFmt n) (s.engine n).line = none)
    (hline : (s.engine n).line + 1 < fmtLines (s.engFmt n))
    (hanc : anc = (if s.ancHere n (s.engine n).line then ancFit (fmtW (s.engFmt n)) (ancPackets (s.ancBuffer n) 400 0) else ([], false)))
    (hu : u = s.raiseIf anc.2 (Pg.loupe n) Reg.LOUPE_EVENT_ANC_TRUNC) :
    s.loupeLine n late = (u.blankOut n (s.engine n).line anc.1 late.audio).lineStepped n (s.engFmt n) (s.engine n).line := by
  unfold State.loupeLine
  rw [if_neg (State.loupeLine_runs hn hok hb)]
  simp only [hact, Bool.false_and, Bool.false_eq_true, if_false, ← hanc, ← hu, if_neg (Nat.ne_of_lt hline)]
  rfl

/-- An active line, which carries no packets. -/
theorem State.loupeLine_active {late : LineLate} {row : List (Nat × Nat × Nat) × Bool × Bool} (hn : n < 4) (hok : s.engineOk n = true)
    (hb : (s.engine n).begun = true) (hact : activeLine (s.engFmt n) (s.engine n).line = some y)
    (hu : u = if decide (y = 0) && s.locks n && decide ((s.engine n).black = 0) then s.lockSource n else s)
    (hfmt : u.engFmt n = s.engFmt n) (hrow : row = u.composed n y late)
    (hv : v = ((u.lineOut n (s.engine n).line y row.1 late).lineSent n y row).lineStepped n (s.engFmt n) (s.engine n).line) :
    s.loupeLine n late = if (s.engine n).line + 1 = fmtLines (s.engFmt n) then v.frameSent n else v := by
  have hhere : u.ancHere n (s.engine n).line = false := by
    rw [State.ancHere, hfmt, hact]
    simp
  unfold State.loupeLine
  rw [if_neg (State.loupeLine_runs hn hok hb)]
  simp only [hact, ← hu, hhere, Bool.false_eq_true, if_false, State.raiseIf, ← hrow]
  rw [hv, State.lineOut, hfmt]
  rfl

/-- What a line without a picture leaves. -/
theorem State.loupeLine_blank_effect {late : LineLate} {anc : List (List Nat) × Bool} (hn : n < 4) (hok : s.engineOk n = true)
    (hb : (s.engine n).begun = true) (hact : activeLine (s.engFmt n) (s.engine n).line = none)
    (hline : (s.engine n).line + 1 < fmtLines (s.engFmt n))
    (hanc : anc = (if s.ancHere n (s.engine n).line then ancFit (fmtW (s.engFmt n)) (ancPackets (s.ancBuffer n) 400 0) else ([], false)))
    (ht : t = s.loupeLine n late) :
    s.EngineGets t n { s.engine n with line := (s.engine n).line + 1, audio := (t.engine n).audio } ∧ (s.linksOf n = [] → t.out = s.out)
      ∧ (∀ k, s.linksOf n = [k] →
          ∃ au, t.out = .sdi k (lineNumber (s.engFmt n) (s.engine n).line) [] [] (if k = n then anc.1 else []) au :: s.out)
      ∧ (anc.2 = true → t.fld (Pg.loupe n) Reg.LOUPE_EVENT_ANC_TRUNC = 1)
      ∧ s.Touches t [.regs, .ctlLatches, .out, .loupe] ∧ s.WritesIn t (sampleMay n) := by
  obtain ⟨u, hu⟩ : ∃ u, u = s.raiseIf anc.2 (Pg.loupe n) Reg.LOUPE_EVENT_ANC_TRUNC := ⟨_, rfl⟩
  obtain ⟨w, hw⟩ : ∃ w, w = u.blankOut n (s.engine n).line anc.1 late.audio := ⟨_, rfl⟩
  rw [State.loupeLine_blank hn hok hb hact hline hanc hu, ← hw] at ht
  have hsu : s.Touches u [.regs, .ctlLatches] := hu ▸ State.raiseIf_touches ..
  have hsuw : s.WritesIn u (sampleMay n) := hu ▸ .raiseIf (.refl s _) (sampleMay_loupe hn (by decide))
  have hul : u.loupe = s.loupe := hsu.same .loupe (by decide)
  have hlinks : s.SameLinks u := .of_writes hn (hsuw.mono fun _ h => h.1) fun m => by rw [State.engine_congr hul]
  obtain ⟨hwl, hnone, hone, huw, huww⟩ := State.blankOut_effect hw
  rw [hlinks.linksOf hn] at hnone hone
  rw [hlinks.engFmt] at hone
  have htr : t.regs = w.regs := by rw [ht]; rfl
  have hto : t.out = w.out := by rw [ht]; rfl
  have huo : u.out = s.out := hsu.same .out (by decide)
  have hwe (m : Nat) : w.engine m = s.engine m := State.engine_congr (hwl.trans hul) m
  have hget : s.EngineGets t n { s.engine n with line := (s.engine n).line + 1, audio := (t.engine n).audio } := by
    rw [ht, State.lineStepped, hwe]
    refine ⟨?_, fun m hm => (State.engine_putEngine_ne _ _ hm).trans (hwe m)⟩
    rw [State.engine_putEngine]
  refine ⟨hget, fun hl => hto.trans ((hnone hl).trans huo), fun k hl => ?_, fun ha => ?_, ?_, ?_⟩
  · obtain ⟨au, hau⟩ := hone k hl
    exact ⟨au, hto.trans (hau.trans (by rw [huo]))⟩
  · rw [State.fld_congr htr, huww.fld, hu, ha]
    · exact State.fld_raise_same _ _ _ (by decide) rfl
    · rintro ⟨k, hk, h⟩
      simp only [keyOf, Pg.loupe, Pg.sdi] at h
      omega
  · rw [ht]
    exact .step (.step (hsu.mono rfl) huw rfl) (State.putEngine_touches ..) rfl
  · refine State.WritesIn.of_regs (hsuw.trans (huww.mono fun a h => ?_)) htr
    obtain ⟨k, hk, rfl⟩ := h
    exact sampleMay_sdi hk (by decide)

/-- What an active line writes before its frame ends. -/
def lineMay (n a : Nat) : Prop :=
  a ∈ [keyOf Reg.LOUPE_SHOWN_LO (Pg.loupe n), keyOf Reg.LOUPE_SHOWN_HI (Pg.loupe n), keyOf Reg.LOUPE_EVENT_UNDERRUN (Pg.loupe n),
    keyOf Reg.LOUPE_UNDERRUN_LINES (Pg.loupe n)] ∨ sendMay a

theorem outputMay_of_lineMay {a : Nat} (h : lineMay n a) : outputMay n a := by
  rcases h with h | h
  · simp only [List.mem_cons, List.not_mem_nil, or_false] at h
    rcases h with rfl | rfl | rfl | rfl
    · exact outputMay_loupe (by decide)
    · exact outputMay_loupe (by decide)
    · exact outputMay_loupe (by decide)
    · exact outputMay_loupe (by decide)
  · exact outputMay_of_sendMay h

theorem lineMay_of_shown {a : Nat} (h : a ∈ [keyOf Reg.LOUPE_SHOWN_LO (Pg.loupe n), keyOf Reg.LOUPE_SHOWN_HI (Pg.loupe n)]) : lineMay n a :=
  .inl (List.mem_append_left [keyOf Reg.LOUPE_EVENT_UNDERRUN (Pg.loupe n), keyOf Reg.LOUPE_UNDERRUN_LINES (Pg.loupe n)] h)

theorem lineMay_of_under {a : Nat} (h : a ∈ [keyOf Reg.LOUPE_EVENT_UNDERRUN (Pg.loupe n), keyOf Reg.LOUPE_UNDERRUN_LINES (Pg.loupe n)]) :
    lineMay n a :=
  .inl (List.mem_append_right [keyOf Reg.LOUPE_SHOWN_LO (Pg.loupe n), keyOf Reg.LOUPE_SHOWN_HI (Pg.loupe n)] h)

theorem not_lineMay_frames (hk : k < 4) : ¬ lineMay n (keyOf Reg.SDI_FRAMES (Pg.sdi k)) := by
  rintro (h | h)
  · simp only [List.mem_cons, List.not_mem_nil, or_false, keyOf, Pg.sdi, Pg.loupe] at h
    omega
  · exact not_sendMay_frames hk h

theorem not_lineMay_counted (hn : n < 4) {f : Fld} (hf : f.off ∈ [0x04C, 0x050]) : ¬ lineMay n (keyOf f (Pg.loupe n)) := by
  simp only [List.mem_cons, List.not_mem_nil, or_false] at hf
  rintro (h | h)
  · simp only [List.mem_cons, List.not_mem_nil, or_false, keyOf] at h
    omega
  · exact not_sendMay_loupe (by omega) hn h

/-- The state in which an engine has the source of its active line. -/
def State.lineReadied (s : State) (n y : Nat) : State :=
  if decide (y = 0) && s.locks n && decide ((s.engine n).black = 0) then s.lockSource n else s

theorem State.lineReadied_effect (hn : n < 4) (hu : u = s.lineReadied n y) :
    (∃ src, s.EngineGets u n { s.engine n with source := src }) ∧ s.Touches u [.regs, .splitHolds, .loupe]
      ∧ s.WritesIn u (· ∈ [keyOf Reg.LOUPE_SHOWN_LO (Pg.loupe n), keyOf Reg.LOUPE_SHOWN_HI (Pg.loupe n)]) ∧ s.SameLinks u := by
  have h : (∃ src, s.EngineGets u n { s.engine n with source := src }) ∧ s.Touches u [.regs, .splitHolds, .loupe]
      ∧ s.WritesIn u (· ∈ [keyOf Reg.LOUPE_SHOWN_LO (Pg.loupe n), keyOf Reg.LOUPE_SHOWN_HI (Pg.loupe n)]) := by
    unfold State.lineReadied at hu
    split at hu
    · obtain ⟨src, hsrc⟩ := s.lockSource_eq n
      obtain ⟨hget, htouch, hw, -⟩ := State.setSource_effect (hu.trans hsrc)
      exact ⟨⟨src, hget⟩, htouch, hw⟩
    · subst hu
      exact ⟨⟨_, .refl u n⟩, .refl u _, .refl u _⟩
  obtain ⟨⟨src, hget⟩, htouch, hw⟩ := h
  refine ⟨⟨src, hget⟩, htouch, hw, .of_writes hn (hw.mono fun _ h => (sampleMay_of_shown hn h).1) fun m => ?_⟩
  by_cases hm : m = n
  · rw [hm, hget.1]
  · rw [hget.2 m hm]

/-- What an active line leaves before its frame ends. -/
theorem State.activeLine_effect {w x : State} {late : LineLate} {row : List (Nat × Nat × Nat) × Bool × Bool} {last : Bool} (hn : n < 4)
    (hb : (s.engine n).begun = true) (hu : u = s.lineReadied n y) (hw : w = u.lineOut n line y row.1 late) (hx : x = w.lineSent n y row)
    (hv : v = x.lineStepped n (s.engFmt n) line) (hl : last = (decide (y + 1 = fmtH (s.engFmt n)) && s.locks n)) :
    (v.engine n).line = line + 1 ∧ (v.engine n).begun = true ∧ (v.engine n).crcs = (w.engine n).crcs ∧ (v.engine n).vals = (s.engine n).vals
      ∧ (v.engine n).source = (if last then none else (u.engine n).source) ∧ (∀ m, m ≠ n → v.engine m = s.engine m)
      ∧ v.fld (Pg.loupe n) Reg.LOUPE_UNDERRUN_LINES =
          (if row.2.1 then min (s.fld (Pg.loupe n) Reg.LOUPE_UNDERRUN_LINES + 1) (2 ^ Reg.LOUPE_UNDERRUN_LINES.width - 1)
            else s.fld (Pg.loupe n) Reg.LOUPE_UNDERRUN_LINES)
      ∧ s.Touches v [.regs, .ctlLatches, .out, .splitHolds, .loupe, .mirror] ∧ (last = false → v.split = u.split) ∧ v.out = w.out
      ∧ s.WritesIn v (lineMay n) ∧ s.SameLinks v ∧ ∀ f : Fld, f.off < 0x1000 → v.fld Pg.mirror f = w.fld Pg.mirror f := by
  obtain ⟨⟨src, hgetu⟩, hsu, hsuw, hlinks⟩ := State.lineReadied_effect hn hu
  obtain ⟨⟨c, hgetw⟩, huw, huww⟩ : u.Sends w n := hw ▸ State.lineOut_sends ..
  have hlinksw : s.SameLinks w := hlinks.trans (.of_writes hn (huww.mono fun _ h => outputMay_of_sendMay h) fun m => by
    by_cases hm : m = n
    · rw [hm, hgetw.1]
    · rw [hgetw.2 m hm])
  obtain ⟨hcrcs, hvals, hbegun, hsource, hothers, hunder, hwx, hwx', hwxw⟩ :=
    State.lineSent_effect (last := last) (by rw [hl, hlinksw.engFmt, hlinksw.locks hn]) hx
  have hvr : v.regs = x.regs := by rw [hv]; rfl
  have hvo : v.out = w.out := by
    rw [← hwx.same .out (by decide), hv]
    rfl
  have hve : v.engine n = { x.engine n with line := line + 1, audio := (v.engine n).audio } := by
    rw [hv, State.lineStepped, State.engine_putEngine]
  have hvm (m : Nat) (hm : m ≠ n) : v.engine m = x.engine m := by rw [hv, State.lineStepped, State.engine_putEngine_ne _ _ hm]
  have hfldw : w.fld (Pg.loupe n) Reg.LOUPE_UNDERRUN_LINES = s.fld (Pg.loupe n) Reg.LOUPE_UNDERRUN_LINES := by
    rw [huww.fld (not_sendMay_loupe (by decide) hn), hsuw.fld (by simp [keyOf])]
  have hwe : w.engine n = { s.engine n with source := src, crcs := c } := by rw [hgetw.1, hgetu.1]
  have hsxw : s.WritesIn x (lineMay n) := ((hsuw.mono fun _ => lineMay_of_shown).trans (huww.mono fun _ => .inr)).trans
    (hwxw.mono fun _ => lineMay_of_under)
  have hsv : s.Touches v [.regs, .ctlLatches, .out, .splitHolds, .loupe, .mirror] := by
    rw [hv]
    exact .step (.step (.step (hsu.mono rfl) huw rfl) hwx rfl) (State.putEngine_touches ..) rfl
  refine ⟨by rw [hve], ?_, ?_, ?_, ?_, fun m hm => ?_, ?_, hsv, fun hlast => ?_, hvo, hsxw.of_regs hvr, ?_, fun f hf => ?_⟩
  · rw [hve, hbegun, hwe]
    exact hb
  · rw [hve]
    exact hcrcs
  · rw [hve, hvals, hwe]
  · rw [hve, hsource, hwe, hgetu.1]
  · rw [hvm m hm, hothers m hm, hgetw.2 m hm, hgetu.2 m hm]
  · rw [State.fld_congr hvr, hunder, hfldw]
  · have huv : u.Touches v [.regs, .ctlLatches, .out, .loupe, .mirror] := by
      rw [hv]
      exact .step (.step (huw.mono rfl) (hwx' hlast) rfl) (State.putEngine_touches ..) rfl
    rw [huv.eq_mix]
    rfl
  · refine .of_writes hn ((hsxw.of_regs hvr).mono fun _ h => outputMay_of_lineMay h) fun m => ?_
    by_cases hm : m = n
    · rw [hm, hve, hvals, hwe]
    · rw [hvm m hm, hothers m hm, hgetw.2 m hm, hgetu.2 m hm]
  · rw [State.fld_congr hvr, hwxw.fld]
    simp only [keyOf, Pg.loupe, Pg.mirror, List.mem_cons, List.not_mem_nil, or_false]
    omega

theorem outputMay_of_frameMay {a : Nat} (h : frameMay n a) : outputMay n a := by
  rcases h with h | ⟨k, hk, rfl⟩
  · simp only [List.mem_cons, List.not_mem_nil, or_false] at h
    rcases h with rfl | rfl
    · exact outputMay_loupe (by decide)
    · exact outputMay_loupe (by decide)
  · exact outputMay_sdi hk (by decide)

theorem not_frameMay_mirror {f : Fld} (hf : f.off < 0x1000) (hn : n < 4) : ¬ frameMay n (keyOf f Pg.mirror) := by
  rintro (h | ⟨k, hk, h⟩)
  · simp only [List.mem_cons, List.not_mem_nil, or_false, keyOf, Pg.mirror, Pg.loupe] at h
    omega
  · simp only [keyOf, Pg.mirror, Pg.sdi] at h
    omega

theorem not_frameMay_under : ¬ frameMay n (keyOf Reg.LOUPE_UNDERRUN_LINES (Pg.loupe n)) := by
  rintro (h | ⟨k, hk, h⟩)
  · simp [keyOf] at h
  · simp only [keyOf, Pg.loupe, Pg.sdi] at h
    omega

/-- The line after which the frame goes on, or the last one of the frame. -/
theorem State.lineEnded_effect {last : Prop} [Decidable last] (hn : n < 4) (hv : (v.engine n).begun = true)
    (ht : t = if last then v.frameSent n else v) :
    (t.engine n).crcs = (v.engine n).crcs ∧ (t.engine n).vals = (v.engine n).vals ∧ (t.engine n).source = (v.engine n).source
      ∧ (∀ m, m ≠ n → t.engine m = v.engine m)
      ∧ (¬ last → (t.engine n).line = (v.engine n).line ∧ (t.engine n).begun = true
          ∧ t.fld64 (Pg.loupe n) Reg.LOUPE_FRAMES_LO Reg.LOUPE_FRAMES_HI = v.fld64 (Pg.loupe n) Reg.LOUPE_FRAMES_LO Reg.LOUPE_FRAMES_HI)
      ∧ (last → (t.engine n).line = 0 ∧ (t.engine n).begun = false
          ∧ t.fld64 (Pg.loupe n) Reg.LOUPE_FRAMES_LO Reg.LOUPE_FRAMES_HI =
              (v.fld64 (Pg.loupe n) Reg.LOUPE_FRAMES_LO Reg.LOUPE_FRAMES_HI + 1) % 2 ^ 64
          ∧ ∀ k ∈ v.linksOf n, t.fld (Pg.sdi k) Reg.SDI_FRAMES = min (v.fld (Pg.sdi k) Reg.SDI_FRAMES + 1) (2 ^ Reg.SDI_FRAMES.width - 1))
      ∧ v.Touches t [.regs, .loupe] ∧ v.WritesIn t (frameMay n) := by
  by_cases hlast : last
  · rw [if_pos hlast] at ht
    obtain ⟨⟨hg, hothers⟩, hframes, hsdi, htouch, hw⟩ := State.frameSent_effect hn ht
    rw [hg]
    exact ⟨rfl, rfl, rfl, hothers, fun h => absurd hlast h, fun _ => ⟨rfl, rfl, hframes, hsdi⟩, htouch, hw⟩
  · rw [if_neg hlast] at ht
    subst ht
    exact ⟨rfl, rfl, rfl, fun _ _ => rfl, fun _ => ⟨rfl, hv, rfl⟩, fun h => absurd h hlast, .refl t _, .refl t _⟩

theorem State.linkEngine_lt (s : State) (hk : k < 4) : s.linkEngine k < 4 := by
  unfold State.linkEngine
  split
  · decide
  · exact hk

/-- What an active line leaves. -/
theorem State.loupeLine_active_effect {crc : Nat} {late : LineLate} {row : List (Nat × Nat × Nat) × Bool × Bool} (hn : n < 4)
    (hok : s.engineOk n = true) (hb : (s.engine n).begun = true) (hact : activeLine (s.engFmt n) (s.engine n).line = some y)
    (hu : u = if decide (y = 0) && s.locks n && decide ((s.engine n).black = 0) then s.lockSource n else s)
    (hrow : row = u.composed n y late) (hcrc : crc = lineCrc (carriage n (s.engFmt n) (s.engRate n)) row.1) (ht : t = s.loupeLine n late) :
    (s.linksOf n = [] → t.out = s.out ∧ (t.engine n).crcs = (s.engine n).crcs)
      ∧ (∀ k, s.linksOf n = [k] → s.engFmt n ≠ 4 →
          (∃ au, t.out = .sdi k (lineNumber (s.engFmt n) (s.engine n).line) (lumaWords row.1) (chromaWords row.1) [] au :: s.out)
          ∧ (s.mirrors k = false → (t.engine n).crcs = (s.engine n).crcs.filter fun x => decide (x.1 ≠ k))
          ∧ (s.mirrors k = true → ((s.engine n).crcs.filter fun x => decide (x.1 = k)).length < 256 →
              (t.engine n).crcs = (s.engine n).crcs ++ [(k, (s.engine n).line, crc)])
          ∧ (s.mirrors k = true → 256 ≤ ((s.engine n).crcs.filter fun x => decide (x.1 = k)).length → s.isLost k = false →
              t.isLost k = true ∧ t.fld Pg.mirror Reg.MIRROR_EVENT_LOST = 1))
      ∧ t.fld (Pg.loupe n) Reg.LOUPE_UNDERRUN_LINES =
          (if row.2.1 then min (s.fld (Pg.loupe n) Reg.LOUPE_UNDERRUN_LINES + 1) (2 ^ Reg.LOUPE_UNDERRUN_LINES.width - 1)
            else s.fld (Pg.loupe n) Reg.LOUPE_UNDERRUN_LINES)
      ∧ ((s.engine n).line + 1 < fmtLines (s.engFmt n) →
          (t.engine n).line = (s.engine n).line + 1 ∧ (t.engine n).begun = true
            ∧ t.fld64 (Pg.loupe n) Reg.LOUPE_FRAMES_LO Reg.LOUPE_FRAMES_HI = s.fld64 (Pg.loupe n) Reg.LOUPE_FRAMES_LO Reg.LOUPE_FRAMES_HI)
      ∧ ((s.engine n).line + 1 = fmtLines (s.engFmt n) →
          (t.engine n).line = 0 ∧ (t.engine n).begun = false
            ∧ t.fld64 (Pg.loupe n) Reg.LOUPE_FRAMES_LO Reg.LOUPE_FRAMES_HI =
                (s.fld64 (Pg.loupe n) Reg.LOUPE_FRAMES_LO Reg.LOUPE_FRAMES_HI + 1) % 2 ^ 64
            ∧ ∀ k ∈ s.linksOf n, t.fld (Pg.sdi k) Reg.SDI_FRAMES = min (s.fld (Pg.sdi k) Reg.SDI_FRAMES + 1) (2 ^ Reg.SDI_FRAMES.width - 1))
      ∧ (s.locks n = true → y + 1 = fmtH (s.engFmt n) → (t.engine n).source = none)
      ∧ (y + 1 ≠ fmtH (s.engFmt n) ∨ s.locks n = false → (t.engine n).source = (u.engine n).source ∧ t.split = u.split)
      ∧ (t.engine n).vals = (s.engine n).vals ∧ (∀ m, m ≠ n → t.engine m = s.engine m)
      ∧ s.Touches t [.regs, .ctlLatches, .out, .splitHolds, .loupe, .mirror] ∧ s.WritesIn t (outputMay n) := by
  obtain ⟨w, hw⟩ : ∃ w, w = u.lineOut n (s.engine n).line y row.1 late := ⟨_, rfl⟩
  obtain ⟨x, hx⟩ : ∃ x, x = w.lineSent n y row := ⟨_, rfl⟩
  obtain ⟨v, hv⟩ : ∃ v, v = x.lineStepped n (s.engFmt n) (s.engine n).line := ⟨_, rfl⟩
  obtain ⟨last, hlast⟩ : ∃ last, last = (decide (y + 1 = fmtH (s.engFmt n)) && s.locks n) := ⟨_, rfl⟩
  obtain ⟨⟨src, hgetu⟩, hsu, hsuw, hlinks⟩ := State.lineReadied_effect (y := y) hn hu
  obtain ⟨hline, hbegun, hcrcs, hvals, hsource, hothers, hunder, hsv, hsplit, hout, hsvw, hlinksv, hmirror⟩ :=
    State.activeLine_effect hn hb hu hw hx hv hlast
  rw [State.loupeLine_active hn hok hb hact hu (hlinks.engFmt n) hrow (v := v) (by rw [hv, hx, hw])] at ht
  obtain ⟨htcrcs, htvals, htsource, htothers, hmid, hend, hvt, hvtw⟩ := State.lineEnded_effect hn hbegun ht
  have huout : u.out = s.out := hsu.same .out (by decide)
  have htout : t.out = w.out := (hvt.same .out (by decide)).trans hout
  have htmirror {f : Fld} (hf : f.off < 0x1000) : t.fld Pg.mirror f = w.fld Pg.mirror f :=
    (hvtw.fld (not_frameMay_mirror hf hn)).trans (hmirror f hf)
  have hframes : v.fld64 (Pg.loupe n) Reg.LOUPE_FRAMES_LO Reg.LOUPE_FRAMES_HI = s.fld64 (Pg.loupe n) Reg.LOUPE_FRAMES_LO Reg.LOUPE_FRAMES_HI :=
    State.fld64_congr (hsvw.fld (not_lineMay_counted hn (by decide))) (hsvw.fld (not_lineMay_counted hn (by decide)))
  refine ⟨fun hl => ?_, fun k hl hfmt => ?_, ?_, fun h => ?_, fun h => ?_, fun h h' => ?_, fun h => ?_, htvals.trans hvals,
    fun m hm => (htothers m hm).trans (hothers m hm), .step hsv hvt rfl,
    (hsvw.mono fun _ => outputMay_of_lineMay).trans (hvtw.mono fun _ => outputMay_of_frameMay)⟩
  · have hwu : w = u := by
      rw [hw, State.lineOut, hlinks.linksOf hn, hl]
      rfl
    exact ⟨by rw [htout, hwu, huout], by rw [htcrcs, hcrcs, hwu, hgetu.1]⟩
  · have hk : k < 4 := lt_of_mem_linksOf (hl ▸ List.mem_singleton_self k)
    obtain ⟨⟨au, hau⟩, hoff, hroom, hlost⟩ := State.lineOut_single_effect (k := k) (crc := crc) (by rw [hlinks.linksOf hn, hl])
      (by rw [hlinks.engFmt]; exact hfmt) (by rw [hlinks.engFmt, hlinks.engRate, hcrc]) hw
    have huo : s.WritesIn u (outputMay n) := hsuw.mono fun _ h => (sampleMay_of_shown hn h).1
    have hmir : u.mirrors k = s.mirrors k := hlinks.mirrors (hsu.same .ctlMode (by decide)) huo hn (s.linkEngine_lt hk)
    have hlostu : u.isLost k = s.isLost k := by
      have hfld : u.fld Pg.mirror Reg.MIRROR_STATE_LOST = s.fld Pg.mirror Reg.MIRROR_STATE_LOST := hsuw.fld fun h => by
        simp only [List.mem_cons, List.not_mem_nil, or_false, keyOf, Pg.mirror, Pg.loupe] at h
        omega
      rw [State.isLost, hfld, State.isLost]
    have hcu : (u.engine n).crcs = (s.engine n).crcs := by rw [hgetu.1]
    rw [hlinks.engFmt, huout] at hau
    rw [hmir, hcu] at hoff hroom hlost
    rw [hlostu] at hlost
    refine ⟨⟨au, htout.trans hau⟩, fun h => (htcrcs.trans hcrcs).trans (hoff h), fun h h' => (htcrcs.trans hcrcs).trans (hroom h h'),
      fun h h' h'' => ?_⟩
    rw [State.isLost, htmirror (by decide), ← State.isLost, htmirror (by decide)]
    exact hlost h h' h''
  · rw [hvtw.fld not_frameMay_under, hunder]
  · obtain ⟨h1, h2, h3⟩ := hmid (Nat.ne_of_lt h)
    exact ⟨h1.trans hline, h2, h3.trans hframes⟩
  · obtain ⟨h1, h2, h3, h4⟩ := hend h
    refine ⟨h1, h2, by rw [h3, hframes], fun k hk => ?_⟩
    rw [h4 k (by rw [hlinksv.linksOf hn]; exact hk), hsvw.fld (not_lineMay_frames (lt_of_mem_linksOf hk))]
  · rw [htsource, hsource, hlast, decide_eq_true h', h]
    rfl
  · have hno : last = false := by
      rw [hlast]
      rcases h with h | h
      · rw [decide_eq_false h, Bool.false_and]
      · rw [h, Bool.and_false]
    have htsplit : t.split = v.split := by rw [hvt.eq_mix]; rfl
    exact ⟨by rw [htsource, hsource, hno]; rfl, htsplit.trans (hsplit hno)⟩

/-- Settles O50: each command's clauses are what its effect lemma gives, with the writes of the output on the pages that the statement lists. -/
theorem loupeOutputs : Obligations.LoupeOutputs := by
  unfold Obligations.LoupeOutputs
  refine ⟨fun s r n v hn ha hm => ⟨fun hoff hon hbar => ?_, fun hset hbar => ?_, fun hen hoff hc hreq => ?_⟩,
    fun s n hn hok hb hphase hblack hvals hc => ?_, fun s u n hn hr hb hne hc hu hfmt => ?_,
    fun s n late anc hn hok hb hact hline hanc => ?_, fun s u n y crc late row hn hok hb hact hu hrow hcrc => ?_,
    fun s n hn hr hl hh => State.lockLost_effect hn hr hl hh⟩
  · obtain ⟨t, ht⟩ : ∃ t, t = ((s.loupeStored n (s.written r (Pg.loupe n) 0x008 v)).engineStart n).settle (Pg.loupe n) := ⟨_, rfl⟩
    obtain ⟨hton, hphase, ⟨hg, hothers⟩, hframes, hrise, htouch, hpages⟩ := State.loupeEnabled_effect hn hon hm ht
    have hwrite : writeLoupeCtrl r n v s = t := by
      rw [writeLoupeCtrl_of_accepts hn ha rfl hm, hoff, Bool.not_false, hbar, Bool.and_false, hon, ht]
      rfl
    refine ⟨t, by rw [execLoupeEnable_next hn, hwrite], hton, hphase, hg, hothers, hframes, hrise, htouch.eq_mix, hpages, htouch.keepsBytes rfl⟩
  · refine ⟨s.reject (Pg.loupe n), ?_, State.rejected_reject ..⟩
    rw [execLoupeEnable_next hn, writeLoupeCtrl_of_accepts hn ha rfl hm, hset, hbar]
    rfl
  · obtain ⟨t, ht⟩ : ∃ t, t = ((s.loupeStored n (s.written r (Pg.loupe n) 0x008 v)).engineStop n).settle (Pg.loupe n) := ⟨_, rfl⟩
    obtain ⟨hton, hphase, ⟨hg, hothers⟩, hfree, hrest, htouch, hpages⟩ := State.loupeDisabled_effect hn hoff hc hreq ht
    have hwrite : writeLoupeCtrl r n v s = t := by
      rw [writeLoupeCtrl_of_accepts hn ha rfl hm, wmSet_of_written_zero hn rfl hen hoff, Bool.false_and, hoff, hen, ht]
      rfl
    exact ⟨t, by rw [execLoupeEnable_next hn, hwrite], hton, hphase, hg, hothers, hfree, hrest, htouch.eq_mix, hpages, htouch.keepsBytes rfl⟩
  · obtain ⟨⟨src, ⟨hg, hothers⟩, hsrc⟩, hrel, htouch, hw⟩ := State.samplePoint_steady_effect hn hok hb hphase hblack hvals hc rfl
    exact ⟨_, rfl, ⟨src, hg, hsrc⟩, hothers, hrel, htouch.eq_mix, (hw.mono fun _ => onPages_of_sampleMay hn).keepsPages, htouch.keepsBytes rfl⟩
  · obtain ⟨hphase, hvals, h1, h2, hothers, hseed, htouch, hpages⟩ := State.samplePoint_relock_effect hn hr hb hne hc hu hfmt rfl
    exact ⟨_, rfl, hphase, hvals, h1, h2, hothers, hseed ▸ htouch.eq_mix, hpages, htouch.keepsBytes rfl⟩
  · obtain ⟨⟨hg, hothers⟩, hnone, hone, htrunc, htouch, hw⟩ := State.loupeLine_blank_effect (late := late) hn hok hb hact hline hanc rfl
    exact ⟨_, rfl, hg, hothers, hnone, hone, htrunc, htouch.eq_mix, (hw.mono fun _ => onPages_of_sampleMay hn).keepsPages, htouch.keepsBytes rfl⟩
  · obtain ⟨hnone, hone, hunder, hmid, hend, hlast, hkeep, hvals, hothers, htouch, hw⟩ :=
      State.loupeLine_active_effect (late := late) hn hok hb hact hu hrow hcrc rfl
    exact ⟨_, rfl, hnone, hone, hunder, hmid, hend, hlast, hkeep, hvals, hothers, htouch.eq_mix,
      (hw.mono fun _ => onPages_of_outputMay hn).keepsPages, htouch.keepsBytes rfl⟩

end Sys2Proof.Machine
end

section
/-! PROOFS. The command that a cancelled START completes (R69, R304). -/

set_option Elab.async false

namespace Sys2Proof.Machine

/-- A START of command 2 that waits for its first frame and a SET MODE to STANDBY at tag 5; tag 9 is listed for command 2 behind an
entry for command 3. -/
def startListedTwice : State :=
  { ctl := { phase := .starting .live (some 2) }
    hq := { cmds := [(9, { live := true, uid := 3, stage := .running }), (9, { live := true, uid := 2, stage := .running, raw := [0x10] }),
      (5, { live := true, uid := 1, order := 1, raw := [0x10] })] } }

theorem startListedTwice_asksMode : startListedTwice.asksMode 5 ⟨none, none⟩ .standby [] := by
  unfold State.asksMode State.starts State.mayRun State.NumbersUnique
  decide +kernel

/-- The cancelled START ends the command that its tag holds, which is the first one listed. -/
theorem startListedTwice_ends {t : State} (ht : exec (.setMode 5 ⟨none, none⟩) startListedTwice = .next t) : (t.hq.cmds.get 9).stage = .done := by
  have h : t = withCmd 5 0x10 startListedTwice (badSetMode ⟨none, none⟩) (runSetMode ⟨none, none⟩ 5) := (Host.Outcome.next.inj ht).symm
  rw [h]
  decide +kernel

/-- Refutes O30: the statement allows a command table that lists a tag twice, and a cancelled START then ends the first command listed for its
tag, although the START's number is that of the second. No run builds such a table. -/
theorem not_modesChange : ¬ Obligations.ModesChange := by
  unfold Obligations.ModesChange
  rintro ⟨-, -, -, -, -, hcancel⟩
  obtain ⟨t, ht, -, -, -, -, -, hothers, -⟩ := hcancel startListedTwice 5 ⟨none, none⟩ [] .live (some 2) startListedTwice_asksMode rfl
    (by decide) rfl rfl
  have hsame := hothers 9 (by decide) fun u hu => by
    cases hu
    decide
  have hdone := startListedTwice_ends ht
  rw [hsame] at hdone
  exact absurd hdone (by decide)

end Sys2Proof.Machine
end
